-- ==== Sys2Proof/Word.lean ====
section
/-! DEFINITION. The word types of the device and their plainest arithmetic. -/

namespace Sys2Proof

/-- A 32-bit register (Table SCO-5, R433). -/
abbrev Word := BitVec 32

/-- A byte of a stack, of an image or of a message. -/
abbrev Byte := BitVec 8

/-- A time stamp or the master time counter: tu from the epoch, 64 bits (R3, R26). -/
abbrev Tu := BitVec 64

/-- A frame number, 48 bits (R27). -/
abbrev Frame := BitVec 48

/-- Bits [lsb + w - 1 : lsb] of a word, as a number. -/
def getBits (v : Word) (lsb w : Nat) : Nat := (v.extractLsb' lsb w).toNat

/-- The word with bits [lsb + w - 1 : lsb] replaced by the low bits of `x`, every other bit kept. -/
def putBits (v : Word) (lsb w x : Nat) : Word :=
  let m : Word := ((BitVec.allOnes w).setWidth 32) <<< lsb
  (v &&& ~~~m) ||| (((BitVec.ofNat w x).setWidth 32) <<< lsb)

end Sys2Proof
end

