-- ==== Sys2Proof/Regs.lean ====
section
/-! DEFINITION. The names of the registers of BAR0 (Tables REG-4 to REG-12 and EVT-4), letter for letter as
the manual writes them, the access codes of Table SCO-5, and the shape of a field. -/

namespace Sys2Proof

/-- The access codes of Table SCO-5 (R4). -/
inductive Access where
  | RW | RO | RC | W1C | WO | SH | LK
  deriving DecidableEq, Repr

/-- Every register of BAR0 by its name; an indexed register is one name, its index stands in `Reg.i`. -/
inductive RegName where
  | HUB_ID | HUB_REV | HUB_SERIAL_LO | HUB_SERIAL_HI | HUB_JTAG_ID | HUB_CAPS
  | HUB_SCRATCH | HUB_GLOBAL_STATUS | HUB_TIME_LO | HUB_TIME_HI | HUB_RESET_CAUSE | HUB_BOOT_STATUS
  | HUB_PWR_REQ | HUB_PWR_STATUS | HUB_TICK_CFG | HUB_FRAME_LO | HUB_FRAME_HI | HUB_TICK_STATUS
  | HUB_SH_CTRL | HUB_SH_STATUS | HUB_SH_COMMIT_LO | HUB_SH_COMMIT_HI | HUB_HOST_BUDGET | HUB_HOST_STALL_MAX
  | HUB_HOST_STALL_VIOL | HUB_PITCH_STATUS | HUB_PITCH_ID | HUB_PITCH_VER | HUB_PITCH_CRC | HUB_PITCH_PARTIAL
  | HUB_PITCH_SIG | HUB_SYNC_CMD | HUB_SYNC_CFG | HUB_SYNC_LAST_LO | HUB_SYNC_LAST_HI | HUB_SYNC_SRC
  | HUB_SYNC_DROP | HUB_TRIG_IN_CFG | HUB_TRIG_IN_CNT | HUB_TRIG_OUT_CFG | HUB_TRIG_OUT_MERGED | HUB_BIST_REQ
  | HUB_BIST_ARG_LO | HUB_BIST_ARG_HI | HUB_BIST_STATUS | HUB_SCHED_FRAME_LO | HUB_SCHED_FRAME_HI | HUB_SCHED_ARG
  | HUB_SCHED_CMD | HUB_SCHED_STATUS | HUB_LINK_DIAG | HUB_LINK_CHK | HUB_LINK_ERR | HUB_LINK_BITS_LO
  | HUB_LINK_BITS_HI | CLK_SRC_CFG | CLK_SRC_STATUS | CLK_QUAL | CLK_MON | CLK_FREQ_DEV
  | CLK_CLKIN_CFG | CLK_MUX_SEL | CLK_MUX_STATUS | CLK_GATE_REQ | CLK_GATE_RESULT | CLK_GATE_STATE_LO
  | CLK_GATE_STATE_HI | PLL_LOCK_CFG | PLL_JPLL_CFG | PLL_JPLL_STATUS | PLL_APLL_CFG | PLL_APLL_FREQ
  | PLL_APLL_DIV | PLL_APLL_STATUS | PLL_SPLL_CFG | PLL_SPLL_RATE | PLL_SPLL_RATE_NOW | PLL_SPLL_PHASE
  | PLL_SPLL_STATUS | PLL_SPLL_ANCHOR_LO | PLL_SPLL_ANCHOR_HI | PLL_SPLL_RETRY | PLL_AUX_CFG | PLL_AUX_DELAY
  | TLK_CTRL | TLK_STATUS | TLK_RELOCK | TLK_RELOCK_OFS | TLK_MARK | TLK_DELAY_CFG
  | TLK_DELAY_MEAS | TLK_TRIG_EN | TLK_SITE | TLK_PEER_STATUS | TLK_ERR | TLK_BCAST_DROP
  | TLK_TRIG_DROP | TLK_PHY | TLK_ARM_MAP | GLN_CFG | GLN_STATUS | GLN_EPOCH_OFS
  | GLN_ALIGN | GLN_FAIL | GLN_DT_LO | GLN_DT_HI | GLN_CMP_CFG | GLN_CMP_TOL
  | GLN_CMP_CTRL_CNT | GLN_CMP_VAL_CNT | GLN_CMP_MISS_CNT | GLN_CMP_LAST_LO | GLN_CMP_LAST_HI | GLN_SYNC_DROP
  | GLN_ERR | EVT_STATUS | EVT_ENABLE | EVT_ACTIVE | EVT_VEC_ACK | EVT_VEC_ARMED_LO
  | EVT_VEC_ARMED_HI | EVT_ROUTE | EVT_DATA | EVT_CNT | DMA_GLOBAL_STATUS | DMA_LINK_STATUS
  | DMA_LINK_RESET_CNT | DMA_Q_KIND | DMA_Q_CTRL | DMA_Q_ABORT | DMA_Q_CFG | DMA_Q_STATUS
  | DMA_Q_DELIV | DMA_Q_LATE | DMA_Q_RING_LO | DMA_Q_RING_HI | DMA_Q_CPL_LO | DMA_Q_CPL_HI
  | DMA_Q_RING_SIZE | DMA_Q_TAIL | DMA_Q_HEAD | DMA_Q_CPL_WR | DMA_Q_CPL_RD | DMA_Q_WR_OFS
  | DMA_Q_STAGED | DMA_Q_LOST_LO | DMA_Q_LOST_HI | MGT_MB_CMD | MGT_MB_DOORBELL | MGT_MB_STATE
  | MGT_MB_ACK | MGT_MB_ARG | MGT_MB_RES | MGT_FW_VER | MGT_FW_STATUS | MGT_LOG_SEQ
  | MGT_LOG_DROP | MGT_SMB_CFG | MGT_PMB_CFG | MGT_DEBUG_STATUS | MGT_SENSE | MGT_THR
  | MGT_PMB_DEV | MGT_PMB_VI | MGT_PMB_TS | PMU_FORCE_CFG | PMU_FORCE_CODE | PMU_FORCE_NOW
  | PMU_FORCE_TTS_LO | PMU_FORCE_TTS_HI | PMU_FORCE_OUT | PMU_MC_CFG | PMU_SEQ_CTRL | PMU_SEQ_STATUS
  | PMU_SEQ_SKIP | PMU_PACE | PMU_ABORT_CNT | PMU_INJ_REQ | PMU_INJ_TMPL | PMU_INJ_TRIG
  | PMU_INJ_DROP | PMU_CAL_CTRL | PMU_LAST_TTS_LO | PMU_LAST_TTS_HI | PMU_LAST_VALUE | PMU_LAST_INFO
  | PMU_INJ_RES_TTS_LO | PMU_INJ_RES_TTS_HI | PMU_INJ_RES_VALUE | PMU_INJ_RES_INFO | PMU_FILT | PMU_SEQ_ENTRY
  | PMU_XCHK_LIMIT | PMU_XCHK_CNT | PMU_TWIN_CFG | PMU_TWIN_LIMIT | PMU_TWIN_STATUS | PMU_TWIN_FAIL_CNT
  | PMU_TWIN_MISS_CNT | RAS_CTRL | RAS_TIMING_H | RAS_TIMING_V | RAS_FMT | RAS_DSI_CFG
  | RAS_DSI_CMD | RAS_DSI_RESP | RAS_DSI_PAYLOAD | RAS_REFRESH | RAS_STATUS | RAS_PIC_FRAME_LO
  | RAS_PIC_FRAME_HI | RAS_PIC_INFO | RAS_HFO_ADDR_LO | RAS_HFO_ADDR_HI | RAS_HFO_CFG | RAS_HFO_STATUS
  | RAS_HFO_DROP | RAS_BUF_REL | RAS_BUF_REL_RESULT | RAS_LUT_SEL | RAS_CRC_TL | RAS_CRC_BR
  | RAS_CRC_CFG | RAS_CRC_EXP | RAS_CRC_VAL | RAS_CRC_FAIL | RAS_LAYER_SRC | RAS_LAYER_CFG
  | RAS_LAYER_POS | RAS_LAYER_BUF | RAS_LAYER_URG | RAS_LAYER_STATUS | RAS_UNDERRUN | RAS_BUF_ADDR_LO
  | RAS_BUF_ADDR_HI | RAS_BUF_GEOM | RAS_BUF_PITCH | RAS_BUF_STATUS | HUB_DIE_ID | HUB_DIE_STATUS
  | AFE_CFG | AFE_OFFSET | AFE_VTT | AFE_STATUS | AFE_OVR_CNT | AFE_CM_MEAS
  | ILV_MODE | ILV_CAL_CTRL | ILV_LANE_STATUS | ILV_SLICE_MAP | ILV_HANDOVER_LO | ILV_HANDOVER_HI
  | ILV_CAL_RATE | ILV_CAL_SKIP | ILV_CAL_DEV | TRG_LEVEL | TRG_HYST | TRG_COMP_STATE
  | TRG_GEN_SRC | TRG_GEN_REGIONS | TRG_GEN_CFG | TRG_GEN_T1 | TRG_GEN_T2 | TRG_GEN_PAT
  | TRG_GEN_HOLDOFF | TRG_GEN_HOLDCNT | TRG_GEN_SEQ_MIN | TRG_GEN_SEQ_MAX | TRG_GEN_SEQ_N | TRG_GEN_STATUS
  | TRG_GEN_CNT | TRG_GEN_LOST | TRG_GEN_TTS_LO | TRG_GEN_TTS_HI | TRG_FORCE | RED_CFG
  | RED_SRC | RED_LEN | RED_DEC | RED_PHASE | RED_PACE | RED_STATUS
  | RED_SYNC_TTS_LO | RED_SYNC_TTS_HI | RED_OUT_COUNT | RED_BAD_CNT | RED_LAST | ACC_PLANE_SRC
  | ACC_PLANE_CFG | ACC_PLANE_X | ACC_PLANE_XOFS | ACC_PLANE_UI | ACC_PLANE_SPAN | ACC_PLANE_Y
  | ACC_PLANE_STATUS | ACC_PLANE_TOTAL_LO | ACC_PLANE_TOTAL_HI | ACC_PLANE_OUTSIDE | ACC_PLANE_EXCL | ACC_PLANE_CLR_LO
  | ACC_PLANE_CLR_HI | ACC_MASK_CFG | ACC_VIOL_CNT | ACC_VIOL_FIRST_LO | ACC_VIOL_FIRST_HI | ACC_CTRL
  | ACC_MASK_WSEL | ACC_SNAP_ADDR_LO | ACC_SNAP_ADDR_HI | ACC_SNAP_CTRL | ACC_SNAP_STATUS | ACC_SNAP_FRAME_LO
  | ACC_SNAP_FRAME_HI | TIC_SRC | TIC_CFG | TIC_N | TIC_TIMEOUT | TIC_WINDOW
  | TIC_GATE | TIC_HOLDOFF | TIC_PACE | TIC_STATUS | TIC_LAST_TTS_LO | TIC_LAST_TTS_HI
  | TIC_LAST_VALUE_LO | TIC_LAST_VALUE_HI | TIC_LAST_COUNT | TIC_LAST_SEQ | TIC_TIMEOUT_CNT | TIC_IGNORED_CNT
  | SEG_ARM | SEG_PRE | SEG_REGION_CFG | SEG_LEN | SEG_BASE_LO | SEG_BASE_HI
  | SEG_SIZE_LO | SEG_SIZE_HI | SEG_DIR | SEG_DIR_COUNT | SEG_RATE_MAX | SEG_CAP
  | SEG_OPEN_COUNT | SEG_WB_COUNT | SEG_RELEASE | SEG_WMARK | SEG_STATUS | SEG_OVERRUN
  | SEG_MISSED | SEG_MISS_CAUSE | SEG_ARM_FRAME_LO | SEG_ARM_FRAME_HI | SEG_CONT_FILL | MEM_CFG
  | MEM_STATUS | MEM_CE_CNT | MEM_UE_CNT | MEM_UE_ADDR_LO | MEM_UE_ADDR_HI | MEM_BRIDGE_RETRY
  | MEM_WBUF
  deriving DecidableEq, Repr

/-- A register: its name and its index, counted device-wide as the manual counts it (0 where it has none).
For `PMU_FILT<x><f>` the index is 4x + f and for `PMU_SEQ_ENTRY<x><s>` it is 16x + s. -/
structure Reg where
  n : RegName
  i : Nat
  deriving DecidableEq, Repr

/-- The place of a register in the canonical order of the register file: names first come lowest, 512 names
per index. -/
def Reg.code (r : Reg) : Nat := r.i * 512 + r.n.ctorIdx

/-- A field of a register: bits [lsb + width - 1 : lsb], its access code and its reset value. -/
structure Fld where
  reg : RegName
  lsb : Nat
  width : Nat
  acc : Access
  rst : Nat
  deriving DecidableEq, Repr

end Sys2Proof
end

