-- ==== Sys2Proof/Syntax.lean ====
section
/-! DEFINITION. The commands of the device: one constructor for each row of spec/opcode_table.json, in the table's
order. The table gives the rows no operands; the operands are what reaches the device from outside it (a written
value, the instant of an edge, what host memory returned, what a converter measured) and are the model's (log 1). -/

namespace Sys2Proof

/-- An offset in BAR0, 64 MiB (Table HST-1). -/
abbrev Bar0 := BitVec 26

/-- What a read of a descriptor from host memory returned for a queue: none where it ended in an error (Table
HST-6). -/
structure HostRead where
  q : Fin 64
  desc : Option (List Byte)
  deriving DecidableEq, Repr

/-- A sample as it leaves the lane stage: its 10-bit code and the flags it carries (R142, R124, R100). -/
structure Sample where
  code : BitVec 10
  ovr : Bool
  clkbad : Bool
  step : Bool
  deriving DecidableEq, Repr

/-- A block received on the timing link that the device discards: a data block, or a control block (R85, R86). -/
inductive TlkBlock where
  | data (m : BitVec 64)
  | control (typ : Byte)
  deriving DecidableEq, Repr

/-- What one qualification interval measured of a source (R94): its deviation from nominal in signed ppm, and
whether it showed an edge gap, or for LINK a loss of block lock or hi_ber. -/
structure QualMeas where
  ppm : BitVec 16
  broken : Bool
  deriving DecidableEq, Repr

/-- Why the monitor trips the active source (R96). -/
inductive TripCause where
  | edgeGap (ns : Nat)
  | ppm (dev : BitVec 16)
  | linkFault
  | markerTimeout
  deriving DecidableEq, Repr

/-- The write that retunes the APLL (R125). -/
inductive ApllWrite where
  | vcoKhz (v : BitVec 23)
  | refMode (m : Fin 4)
  deriving DecidableEq, Repr

/-- A write of TERM, or of VTT (R141). -/
inductive TermWrite where
  | term (vtt : Bool)
  | vtt (mv : BitVec 12)
  deriving DecidableEq, Repr

/-- A correction set of a slice (R159): offset in 1/64 LSB, gain in 2⁻¹⁵ steps about 1.0, clock delay trim in 8 fs
steps, sub-step skew term in fs, and seven taps in Q2.14. -/
structure Corr where
  ofs : Int
  gain : Int
  trim : Int
  sub : Int
  taps : List Int
  deriving DecidableEq, Repr

/-- Compared sample pairs of a SHADOW window (R162): `n` pairs taken at instant `t`, or so near it that they share its
spans, with a channel slope of `slope` LSB; `ovr`: their samples carry OVR. -/
structure PairGroup where
  t : Tu
  slope : Nat
  ovr : Bool
  n : Nat
  deriving DecidableEq, Repr

/-- What a SHADOW window yields (R162): its compared pairs; what the pairs that count measure of the position against the
spare, as differences from the applied set: offset, gain and skew in the units of `Corr`, bandwidth at 6 GHz in 0.001 dB;
and the taps of the fit. -/
structure ShadowMeas where
  pairs : List PairGroup
  ofs : Int
  gain : Int
  skew : Int
  bandwidth : Int
  taps : List Int
  deriving DecidableEq, Repr

/-- What a conversion measured (R295): the value before it clamps, whether the modulator overloaded, and MCB's value and
its modulator's overload under XCHK. -/
structure ConvMeas where
  v : Int
  overload : Bool
  vB : Int
  overloadB : Bool
  deriving DecidableEq, Repr

/-- The registers whose write is checked against the rule of R316. -/
inductive RasTiming where
  | timingH | timingV | fmt | dsiCfg
  deriving DecidableEq, Repr

/-- A pixel-clock change (R318): a write of a register, or a loss of APLL lock. -/
inductive PixWrite where
  | muxSel (sel : Fin 4)
  | apllFreq (v : BitVec 23)
  | apllRefMode (m : Fin 4)
  | pixDiv (v : Byte)
  | apllLoss (first : Tu) (err : Nat)
  deriving DecidableEq, Repr

/-- What Lantern fetched for the picture just completed (R313, R314, R322): for each layer 0 to 7, for each screen row
from the top, the counts of the plane's row, or the raw pixels of the buffer's row, that the row shows; a row that was
not fetched (the layer's line buffer had run dry) is missing or short. -/
structure Picture where
  rows : List (List (List Word))
  deriving DecidableEq, Repr

/-- How a DSI command ended (R319). -/
inductive DsiResult where
  | ok (data : BitVec 16)
  | noAck
  | noAnswer
  deriving DecidableEq, Repr

/-- A ring base register of a queue (R336). -/
inductive RingReg where
  | ringLo | ringHi | cplLo | cplHi
  deriving DecidableEq, Repr

/-- Which read from host memory ended in an error (Table HST-6). -/
inductive HostReader where
  | refetch (q : Fin 64)
  | descFetch (q : Fin 64)
  | lantern (n : Fin 8)
  | imageFetch (tag : Byte)
  deriving DecidableEq, Repr

/-- The host-link resets (Table HST-6, Table PWR-2). -/
inductive LinkReset where
  | perst | hotReset | dlDown | flr | d3hot
  deriving DecidableEq, Repr

/-- How a PMBus transaction ended (R402), after its one retry. -/
inductive PmbusResult where
  | ok (data : Word)
  | nack | pec | timeout
  deriving DecidableEq, Repr

/-- What a poll of a regulator read (R402): VOUT in mV, IOUT in 10 mA and temperature in 0.1 °C as decoded, or 0
for a format that is not decoded, and STATUS_WORD. -/
structure PmbusPoll where
  r : Fin 8
  failed : Bool
  vout : BitVec 16
  iout : BitVec 16
  temp : BitVec 16
  status : BitVec 16
  deriving DecidableEq, Repr

/-- The TAP instructions (R431), with the entry to Test-Logic-Reset. -/
inductive JtagIns where
  | bypass | idcode | samplePreload | extest | clamp | highz | extestPulse | extestTrain | debug | testLogicReset
  deriving DecidableEq, Repr

/-- A command of the device. -/
inductive Instr where
  /-- `FRAME_TICK` (R39): the tick; `host` is what the reads of CIRC descriptors made at this tick return, by queue
  (R341). -/
  | frameTick (host : List HostRead)
  /-- `INTERNAL_COMMIT_INSTANT` (R47): the next whole multiple of 2²³ tu while UNPITCHED. -/
  | internalCommitInstant
  /-- `SH_WRITE` (R43): an aligned 32-bit write of a register that holds SH fields. -/
  | shWrite (t : Tu) (a : Bar0) (v : Word)
  /-- `SH_HOLD_SET` (R45): HUB_SH_CTRL.HOLD = 1. -/
  | shHoldSet (t : Tu)
  /-- `SH_HOLD_CLEAR` (R45): HUB_SH_CTRL.HOLD = 0. -/
  | shHoldClear (t : Tu)
  /-- `REGISTER_WRITE` (R4): a BAR0 write with its byte enables. -/
  | registerWrite (t : Tu) (a : Bar0) (be : BitVec 4) (v : Word)
  /-- `W1C_CLEAR` (R4): a write of ones to W1C bits. -/
  | w1cClear (t : Tu) (a : Bar0) (v : Word)
  /-- `READ_CLEAR` (R4): a read of a register with RC fields. -/
  | readClear (t : Tu) (a : Bar0)
  /-- `LATCHING_READ` (R436): a read of a _LO register, of 64 bits when `wide`. -/
  | latchingRead (t : Tu) (a : Bar0) (wide : Bool)
  /-- `SCHED_NONE` (R49): CMD 0x0. -/
  | schedNone (t : Tu) (slot : Fin 32) (late : Bool)
  /-- `SCHED_ARM` (R49): CMD 0x1. -/
  | schedArm (t : Tu) (slot : Fin 32) (late : Bool)
  /-- `SCHED_DISARM` (R49): CMD 0x2. -/
  | schedDisarm (t : Tu) (slot : Fin 32) (late : Bool)
  /-- `SCHED_SYNC` (R49): CMD 0x3. -/
  | schedSync (t : Tu) (slot : Fin 32) (late : Bool)
  /-- `SCHED_SH_RELEASE` (R45): CMD 0x4. -/
  | schedShRelease (t : Tu) (slot : Fin 32) (late : Bool)
  /-- `SCHED_ACC_CLEAR` (R49): CMD 0x5. -/
  | schedAccClear (t : Tu) (slot : Fin 32) (late : Bool)
  /-- `SCHED_MARK` (R49): CMD 0x6. -/
  | schedMark (t : Tu) (slot : Fin 32) (late : Bool)
  /-- `SCHED_RESERVED` (R50): CMD 0x7 + k. -/
  | schedReserved (t : Tu) (slot : Fin 32) (late : Bool) (k : Fin 9)
  /-- `HOST_BUDGET` (R57): a credit stall that has lasted `stall` ns. -/
  | hostBudget (t : Tu) (stall : Word)
  /-- `STREAM_ACCEPT` (R54): the oldest datum on its way to the stager of queue q enters it. -/
  | streamAccept (t : Tu) (q : Fin 64)
  /-- `LINK_BELOW_BUDGET` (R60): the link retrained to this generation and width. -/
  | linkBelowBudget (t : Tu) (gen : Fin 6) (width : Fin 9)
  /-- `STAGED_DELIVERY` (R341): `ue`: an uncorrectable stack error met the data (R233). -/
  | stagedDelivery (t : Tu) (q : Fin 64) (ue : Bool)
  /-- `BOOT_PITCH` (R72). -/
  | bootPitch (t : Tu)
  /-- `MB_PITCH_LOAD` (R74): what the read of host memory returned; none where it failed or timed out. -/
  | mbPitchLoad (t : Tu) (tag : Byte) (img : Option (List Byte))
  /-- `DRY_RUN` (R73): as MB_PITCH_LOAD. -/
  | dryRun (t : Tu) (tag : Byte) (img : Option (List Byte))
  /-- `MB_PITCH_STORE` (R75): whether the flash write and read-back succeeded. -/
  | mbPitchStore (t : Tu) (tag : Byte) (flashOk : Bool)
  /-- `PITCH_APPLY_T1` (R76): the tick T1. -/
  | pitchApplyT1 (host : List HostRead)
  /-- `PITCH_DRAIN_TIMEOUT` (R76): the tick 64 frames after T1. -/
  | pitchDrainTimeout (host : List HostRead)
  /-- `PITCH_APPLY_T2` (R76): the tick T2. -/
  | pitchApplyT2 (host : List HostRead)
  /-- `PARTIAL_PITCH_APPLY` (R80): the tick at which a PARTIAL image applies. -/
  | partialPitchApply (host : List HostRead)
  /-- `CLK_SRC_CFG_WRITE` (R84). -/
  | clkSrcCfgWrite (t : Tu) (v : Word)
  /-- `TLK_ENABLE_WRITE` (R84). -/
  | tlkEnableWrite (t : Tu) (en : Bool)
  /-- `RELOCK_ACT_STEP` (R101). -/
  | relockActStep (t : Tu)
  /-- `RELOCK_ACT_SLEW` (R101). -/
  | relockActSlew (t : Tu)
  /-- `TLK_TICK` (R89): the block and the instant at which the first bit of its sync header arrives. -/
  | tlkTick (t : Tu) (m : BitVec 64)
  /-- `TLK_SYNC_MSG` (R91): as TLK_TICK. -/
  | tlkSyncMsg (t : Tu) (m : BitVec 64)
  /-- `TLK_ARM_MSG` (R91): as TLK_TICK. -/
  | tlkArmMsg (t : Tu) (m : BitVec 64)
  /-- `TLK_DISARM_MSG` (R91): as TLK_TICK. -/
  | tlkDisarmMsg (t : Tu) (m : BitVec 64)
  /-- `TLK_TRIG_MSG` (R92): as TLK_TICK. -/
  | tlkTrigMsg (t : Tu) (m : BitVec 64)
  /-- `ECHO_RSP` (R88): as TLK_TICK. -/
  | echoRsp (t : Tu) (m : BitVec 64)
  /-- `TLK_STATUS_MSG` (R86): as TLK_TICK. -/
  | tlkStatusMsg (t : Tu) (m : BitVec 64)
  /-- `TLK_MSG_DISCARD` (R86): a data block, or a control block of another type than 0x1E. -/
  | tlkMsgDiscard (t : Tu) (b : TlkBlock)
  /-- `ECHO_REQ` (R88): the device's request. -/
  | echoReq (t : Tu)
  /-- `TLK_LOCK` (R96): block lock regained or lost. -/
  | tlkLock (t : Tu) (up : Bool)
  /-- `TLK_HI_BER` (R96). -/
  | tlkHiBer (t : Tu)
  /-- `QUAL_INTERVAL` (R94): what the interval measured of each source. -/
  | qualInterval (t : Tu) (link : QualMeas) (refin : QualMeas)
  /-- `CLK_SRC_TRIP` (R96). -/
  | clkSrcTrip (t : Tu) (cause : TripCause)
  /-- `CLK_NO_SOURCE` (R97). -/
  | clkNoSource (t : Tu)
  /-- `TLK_PHASE_STEP` (R100): the step instant: the local tick chosen for the STEP. -/
  | tlkPhaseStep (host : List HostRead)
  /-- `TLK_SLEW_DONE` (R99). -/
  | tlkSlewDone (t : Tu)
  /-- `CLK_MUX_SEL_WRITE` (R104). -/
  | clkMuxSelWrite (t : Tu) (m : Fin 7) (sel : Fin 4)
  /-- `CLK_MUX_SWITCH_DONE` (R104). -/
  | clkMuxSwitchDone (t : Tu) (m : Fin 7)
  /-- `CLK_MUX_STUCK` (R105). -/
  | clkMuxStuck (t : Tu) (m : Fin 7)
  /-- `CTL_MUX_SWITCH` (R104). -/
  | ctlMuxSwitch (t : Tu) (toRc : Bool)
  /-- `MB_CLKMUX_FORCE` (R105). -/
  | mbClkmuxForce (t : Tu) (tag : Byte)
  /-- `GATE_CLOSE` (R107). -/
  | gateClose (t : Tu) (node : Fin 64)
  /-- `GATE_FORCE_CLOSE` (R108). -/
  | gateForceClose (t : Tu) (node : Fin 64)
  /-- `GATE_OPEN` (R109). -/
  | gateOpen (t : Tu) (node : Fin 64)
  /-- `GATE_QUIESCE_ACK` (R108). -/
  | gateQuiesceAck (t : Tu)
  /-- `GATE_BUSY` (R108). -/
  | gateBusy (t : Tu)
  /-- `JPLL_LOCK` (R115). -/
  | jpllLock (t : Tu) (err : BitVec 16)
  /-- `JPLL_LOCK_LOSS` (R118): the phase error, signed ps. -/
  | jpllLockLoss (t : Tu) (first : Tu) (err : BitVec 16)
  /-- `JPLL_CFG_WRITE` (R116). -/
  | jpllCfgWrite (t : Tu) (v : Word)
  /-- `SPLL_LOCK_LOSS` (R124): `first`: the first out-of-window comparison of the excursion. -/
  | spllLockLoss (t : Tu) (e : Fin 2) (first : Tu) (err : Nat)
  /-- `SPLL_LOCK` (R119). -/
  | spllLock (t : Tu) (e : Fin 2)
  /-- `SPLL_SETTLE` (R124). -/
  | spllSettle (t : Tu) (e : Fin 2)
  /-- `SPLL_RELOCK_RETRY` (R124). -/
  | spllRelockRetry (t : Tu) (e : Fin 2)
  /-- `FOLLOW_DONE` (R122). -/
  | followDone (t : Tu) (e : Fin 2)
  /-- `SPLL_ANCHOR_REACHED` (R119). -/
  | spllAnchorReached (t : Tu) (e : Fin 2)
  /-- `SPLL_PHASE_WRITE` (R121). -/
  | spllPhaseWrite (t : Tu) (e : Fin 2) (ofs : BitVec 11)
  /-- `APLL_RETUNE` (R125): the write of VCO_KHZ or REF_MODE. -/
  | apllRetune (t : Tu) (w : ApllWrite)
  /-- `APLL_DIV_WRITE` (R125). -/
  | apllDivWrite (t : Tu) (pix : Byte) (aux : Byte)
  /-- `APLL_LOCK` (R125). -/
  | apllLock (t : Tu) (up : Bool) (first : Tu) (err : Nat)
  /-- `AUX_CFG_WRITE` (R127). -/
  | auxCfgWrite (t : Tu) (n : Fin 4) (v : Word)
  /-- `AUX_DELAY_WRITE` (R127). -/
  | auxDelayWrite (t : Tu) (n : Fin 4) (v : Word)
  /-- `AFE_TERM_WRITE` (R141): a write of TERM or of VTT. -/
  | afeTermWrite (t : Tu) (ch : Fin 16) (w : TermWrite)
  /-- `AFE_SETTLE_END` (R141). -/
  | afeSettleEnd (t : Tu) (ch : Fin 16)
  /-- `AFE_OVR` (R142, R159): a sample with the three channel samples before and the three after it, as their slice cores
  deliver them, signed LSB; `core`: the slice core saturated. -/
  | afeOvr (t : Tu) (ch : Fin 16) (raw : List (BitVec 16)) (core : Bool)
  /-- `AFE_OVERDRIVE` (R143): the excursion passed factor 2, or factor 4. -/
  | afeOverdrive (t : Tu) (ch : Fin 16) (over4 : Bool)
  /-- `OVR_HOLD_END` (R143). -/
  | ovrHoldEnd (t : Tu) (ch : Fin 16)
  /-- `AFE_CM_WINDOW` (R145): the measured common mode, signed mV. -/
  | afeCmWindow (t : Tu) (ch : Fin 16) (cm : BitVec 16)
  /-- `CAL_SHADOW_START` (R154): the offset and gain of the spare that REFERENCE fixed, in the units of `Corr`. -/
  | calShadowStart (t : Tu) (ln : Fin 16) (ofs gain : BitVec 16)
  /-- `SHADOW_WINDOW_END` (R162). -/
  | shadowWindowEnd (t : Tu) (ln : Fin 16) (m : ShadowMeas)
  /-- `CAL_PRELOAD_START` (R154): the set the incoming slice converges to. -/
  | calPreloadStart (t : Tu) (ln : Fin 16) (fit : Corr)
  /-- `HANDOVER` (R155): the tick, or the internal boundary while UNPITCHED, at which a dwell ends. -/
  | handover (host : List HostRead)
  /-- `ILV_CAL_CTRL_WRITE` (R165). -/
  | ilvCalCtrlWrite (t : Tu) (ln : Fin 16) (v : Word)
  /-- `MB_CAL_SAVE` (R175). -/
  | mbCalSave (t : Tu) (tag : Byte) (flashOk : Bool)
  /-- `MB_CAL_RESTORE` (R176). -/
  | mbCalRestore (t : Tu) (tag : Byte)
  /-- `MB_CAL_INFO` (R175). -/
  | mbCalInfo (t : Tu) (tag : Byte)
  /-- `COMPARATOR_CROSSING` (R184): the stamp of the crossing is `t`; `lo`: comparator LO, else HI; `tdcOff`: the lane's
  samples around it put the offset of the stamp beyond ±1 ps (R185). -/
  | comparatorCrossing (t : Tu) (ln : Fin 16) (lo : Bool) (rise : Bool) (tdcOff : Bool)
  /-- `TRG_FORCE` (R195). -/
  | trgForce (t : Tu) (c : Fin 4) (bits : BitVec 4)
  /-- `TRIG_IN_EDGE` (R205): the stamp of the edge is `t`. -/
  | trigInEdge (t : Tu) (n : Fin 8) (rise : Bool)
  /-- `TRIG_OUT_PULSE` (R206): the edge time of the first waiting pulse of the line. -/
  | trigOutPulse (n : Fin 4)
  /-- `REGION_READY` (R199). -/
  | regionReady (m : Fin 32)
  /-- `REGION_FIRE_DECISION` (R201). -/
  | regionFireDecision (t : Tu) (m : Fin 32)
  /-- `SEGMENT_CLOSE` (R218): the samples of the segment that were converted, one run for each recorded channel in
  ascending order. -/
  | segmentClose (m : Fin 32) (runs : List (List Sample))
  /-- `REARM_END` (R199). -/
  | rearmEnd (m : Fin 32)
  /-- `CONTINUOUS_BLOCK` (R214): as SEGMENT_CLOSE. -/
  | continuousBlock (t : Tu) (m : Fin 32) (runs : List (List Sample))
  /-- `DIRECTORY_WRITEBACK` (R220). -/
  | directoryWriteback (t : Tu) (m : Fin 32)
  /-- `SEG_RELEASE` (R221). -/
  | segRelease (t : Tu) (m : Fin 32) (n : Word)
  /-- `MEM_WBUF_HIGH` (R230): the fill of the write buffer, bytes. -/
  | memWbufHigh (t : Tu) (c : Fin 4) (fill : Fin 262145)
  /-- `STACK_TEMP_READ` (R232): signed 0.1 °C. -/
  | stackTempRead (t : Tu) (e : Fin 2) (temp : BitVec 16)
  /-- `MEM_UE` (R233): `bar2`: the length of the BAR2 read that met it. -/
  | memUe (t : Tu) (e : Fin 2) (a : BitVec 34) (bar2 : Option Nat)
  /-- `MEM_SCRUB_DONE` (R233). -/
  | memScrubDone (t : Tu) (e : Fin 2)
  /-- `MEM_BRIDGE` (R17). -/
  | memBridge (t : Tu) (e : Fin 2)
  /-- `BAR2_READ` (R334). -/
  | bar2Read (t : Tu) (a : BitVec 36) (len : Nat)
  /-- `BAR2_WRITE` (R213). -/
  | bar2Write (t : Tu) (a : BitVec 36) (data : List Byte)
  /-- `REDUCTION_OUTPUT` (R243): the samples of the source since the last kept instant, or since S0, up to the kept
  instant. -/
  | reductionOutput (u : Fin 16) (xs : List Sample)
  /-- `SYNC_CMD_ISSUE` (R249). -/
  | syncCmdIssue (t : Tu) (twin : Bool)
  /-- `SYNC_IN_EDGE` (R251). -/
  | syncInEdge (t : Tu) (rise : Bool)
  /-- `SYNC_ACT` (R30). -/
  | syncAct (t : Tu)
  /-- `MASK_VIOLATION` (R270): a sample at instant `t`, of index `j` on its grid, of the source of the mask's
  plane. -/
  | maskViolation (t : Tu) (k : Fin 32) (j : Int) (x : Sample)
  /-- `ACC_SNAPSHOT_DONE` (R273). -/
  | accSnapshotDone (t : Tu) (c : Fin 4)
  /-- `TIC_TIMEOUT` (R283). -/
  | ticTimeout (n : Fin 32)
  /-- `TIC_WINDOW_END` (R282). -/
  | ticWindowEnd (n : Fin 32)
  /-- `TIC_GATE_END` (R279). -/
  | ticGateEnd (n : Fin 32)
  /-- `FORCE_CODE_WRITE` (R291). -/
  | forceCodeWrite (t : Tu) (n : Fin 16) (code : BitVec 18)
  /-- `FORCE_ENABLE_WRITE` (R290): a write of PMU_FORCE_CFG. -/
  | forceEnableWrite (t : Tu) (n : Fin 16) (v : Word)
  /-- `CONVERSION_READY` (R295): what the converter measured, and MCB's value under XCHK. -/
  | conversionReady (t : Tu) (x : Fin 2) (m : ConvMeas)
  /-- `PMU_INJ_REQ` (R301). -/
  | pmuInjReq (t : Tu) (x : Fin 2) (v : Word)
  /-- `PMU_CAL_REQ` (R303). -/
  | pmuCalReq (t : Tu) (x : Fin 2)
  /-- `PMU_CAL_DONE` (R303): whether every gain and offset lay within its limits. -/
  | pmuCalDone (t : Tu) (x : Fin 2) (good : Bool)
  /-- `PMU_MC_CFG_WRITE` (R308). -/
  | pmuMcCfgWrite (t : Tu) (x : Fin 2) (v : Word)
  /-- `PMU_INJ_RES_POP` (R306). -/
  | pmuInjResPop (t : Tu) (x : Fin 2)
  /-- `PMU_TWIN_MISS` (R304). -/
  | pmuTwinMiss (t : Tu)
  /-- `RAS_VBLANK` (R327): what the picture just completed was made of. -/
  | rasVblank (t : Tu) (p : Picture)
  /-- `RAS_TIMING_WRITE` (R316). -/
  | rasTimingWrite (t : Tu) (r : RasTiming) (v : Word)
  /-- `PIXEL_CLOCK_CHANGE` (R318). -/
  | pixelClockChange (t : Tu) (w : PixWrite)
  /-- `RAS_PIXCLK_RESTART` (R318). -/
  | rasPixclkRestart (t : Tu)
  /-- `TE_IN_EDGE` (R320). -/
  | teInEdge (t : Tu)
  /-- `RAS_TE_LOST` (R320). -/
  | rasTeLost (t : Tu)
  /-- `DSI_CMD_SEND` (R319). -/
  | dsiCmdSend (t : Tu) (v : Word)
  /-- `DSI_CMD_DONE` (R319). -/
  | dsiCmdDone (t : Tu) (r : DsiResult)
  /-- `RAS_HFO_DONE` (R321). -/
  | rasHfoDone (t : Tu)
  /-- `RAS_UNDERRUN` (R323). -/
  | rasUnderrun (t : Tu) (n : Fin 8)
  /-- `RAS_BUF_REL` (R326). -/
  | rasBufRel (t : Tu) (b : Fin 16)
  /-- `DESCRIPTOR_POST` (R336). -/
  | descriptorPost (t : Tu) (q : Fin 64) (idx : BitVec 13)
  /-- `RING_BASE_WRITE` (R336). -/
  | ringBaseWrite (t : Tu) (q : Fin 64) (r : RingReg) (v : Word)
  /-- `DESCRIPTOR_FETCH` (R339): the descriptors read from the ring, 1 to 32 of 32 bytes each. -/
  | descriptorFetch (t : Tu) (q : Fin 64) (ds : List (List Byte))
  /-- `XFER_COMPLETE` (R342). -/
  | xferComplete (t : Tu) (q : Fin 64) (ue : Bool)
  /-- `QUEUE_DRAINED` (R344). -/
  | queueDrained (t : Tu) (q : Fin 64)
  /-- `QUEUE_ABORT` (R345). -/
  | queueAbort (t : Tu) (q : Fin 64)
  /-- `HOST_READ_ERROR` (R346). -/
  | hostReadError (t : Tu) (r : HostReader)
  /-- `HOST_LINK_RESET` (R346). -/
  | hostLinkReset (t : Tu) (k : LinkReset)
  /-- `EVT_STATUS_CLEAR` (R352). -/
  | evtStatusClear (t : Tu) (w : Fin 16) (v : Word)
  /-- `EVT_ENABLE_WRITE` (R353). -/
  | evtEnableWrite (t : Tu) (w : Fin 16) (v : Word)
  /-- `EVT_DATA_READ` (R350). -/
  | evtDataRead (t : Tu) (n : Fin 512)
  /-- `EVT_VEC_ACK` (R356). -/
  | evtVecAck (t : Tu) (v : Fin 64)
  /-- `VECTOR_UNMASK` (R357): one vector; none: the function mask clears. -/
  | vectorUnmask (t : Tu) (v : Option (Fin 64))
  /-- `MB_TWIN_ATTACH` (R367). -/
  | mbTwinAttach (t : Tu) (tag : Byte)
  /-- `MB_TWIN_DETACH` (R379). -/
  | mbTwinDetach (t : Tu) (tag : Byte)
  /-- `MB_TWIN_TAKE` (R376). -/
  | mbTwinTake (t : Tu) (tag : Byte)
  /-- `HELLO` (R367): the 32 bytes of the message and the instant of its arrival. -/
  | hello (t : Tu) (m : List Byte)
  /-- `ATTACH_TIMEOUT` (R367). -/
  | attachTimeout (t : Tu)
  /-- `ROLE` (R368): as HELLO. -/
  | role (t : Tu) (m : List Byte)
  /-- `BEAT` (R374): as HELLO. -/
  | beat (t : Tu) (m : List Byte)
  /-- `TIME_REQ` (R369): `t3`: the transmit time of the answer. -/
  | timeReq (t : Tu) (m : List Byte) (t3 : Tu)
  /-- `TIME_RSP` (R369): as HELLO. -/
  | timeRsp (t : Tu) (m : List Byte)
  /-- `GLN_SYNC` (R371): as HELLO. -/
  | glnSync (t : Tu) (m : List Byte)
  /-- `GLN_STEP` (R370): as HELLO. -/
  | glnStep (t : Tu) (m : List Byte)
  /-- `DIGEST` (R373): as HELLO. -/
  | digest (t : Tu) (m : List Byte)
  /-- `CHSUM` (R373): as HELLO. -/
  | chsum (t : Tu) (m : List Byte)
  /-- `GLN_PMU` (R304): as HELLO. -/
  | glnPmu (t : Tu) (m : List Byte)
  /-- `TAKE` (R377): as HELLO. -/
  | take (t : Tu) (m : List Byte)
  /-- `DETACH` (R379): as HELLO. -/
  | detach (t : Tu) (m : List Byte)
  /-- `GLN_MSG_DISCARD` (R365): as HELLO. -/
  | glnMsgDiscard (t : Tu) (m : List Byte)
  /-- `GLN_CMP_MISS` (R373). -/
  | glnCmpMiss (t : Tu)
  /-- `GLN_LINK` (R380). -/
  | glnLink (t : Tu) (up : Bool)
  /-- `TWIN_PRES_CHANGE` (R366). -/
  | twinPresChange (t : Tu) (present : Bool)
  /-- `GLN_FAIL_DETECT` (R376): the tick at which the failure is declared. -/
  | glnFailDetect (host : List HostRead)
  /-- `GLN_TAKEOVER` (R377): the tick T. -/
  | glnTakeover (host : List HostRead)
  /-- `HELD_QUEUE_COMPLETE` (R379). -/
  | heldQueueComplete (t : Tu) (q : Fin 64)
  /-- `MB_INFO` (R387). -/
  | mbInfo (t : Tu) (tag : Byte)
  /-- `BAD_CMD` (R389). -/
  | badCmd (t : Tu) (tag : Byte)
  /-- `MB_ACK` (R387). -/
  | mbAck (t : Tu)
  /-- `MB_LOG_READ` (R395): whether the write to host memory succeeded. -/
  | mbLogRead (t : Tu) (tag : Byte) (ok : Bool)
  /-- `MB_LOG_MARK` (R393). -/
  | mbLogMark (t : Tu) (tag : Byte)
  /-- `MB_FW_INFO` (R399). -/
  | mbFwInfo (t : Tu) (tag : Byte)
  /-- `MB_FW_UPDATE` (R398). -/
  | mbFwUpdate (t : Tu) (tag : Byte) (img : Option (List Byte)) (flashOk : Bool)
  /-- `MB_FW_ACTIVATE` (R398). -/
  | mbFwActivate (t : Tu) (tag : Byte)
  /-- `MB_FW_COMMIT` (R399). -/
  | mbFwCommit (t : Tu) (tag : Byte) (flashOk : Bool) (fuseOk : Bool)
  /-- `MB_FUSE_READ` (R400). -/
  | mbFuseRead (t : Tu) (tag : Byte)
  /-- `MB_FUSE_PROG` (R400): the requested bits that did not set. -/
  | mbFuseProg (t : Tu) (tag : Byte) (stuck : Word)
  /-- `MB_PMBUS_XFER` (R402). -/
  | mbPmbusXfer (t : Tu) (tag : Byte) (r : PmbusResult)
  /-- `MB_DEBUG_CHALLENGE` (R403): the 32 bytes drawn. -/
  | mbDebugChallenge (t : Tu) (tag : Byte) (nonce : List Byte)
  /-- `MB_DEBUG_UNLOCK` (R403): what the read of host memory returned. -/
  | mbDebugUnlock (t : Tu) (tag : Byte) (resp : Option (List Byte))
  /-- `MGT_WATCHDOG` (R385). -/
  | mgtWatchdog (t : Tu)
  /-- `BASECAMP_RESTART_DONE` (R385). -/
  | basecampRestartDone (t : Tu)
  /-- `TRIAL_TIMEOUT` (R399). -/
  | trialTimeout (t : Tu)
  /-- `SENSOR_SAMPLE` (R392): the fourteen values of Table MGT-4. -/
  | sensorSample (t : Tu) (v : List (BitVec 16))
  /-- `LOG_SUMMARY` (R395). -/
  | logSummary (t : Tu)
  /-- `LOG_FLUSH` (R395). -/
  | logFlush (t : Tu) (flashOk : Bool)
  /-- `PMBUS_POLL` (R402): what each enabled regulator answered. -/
  | pmbusPoll (t : Tu) (r : List PmbusPoll)
  /-- `SMB_STATUS` (R401): `pec`: the transaction carries a packet error code. -/
  | smbStatus (t : Tu) (pec : Bool)
  /-- `SMB_ALERT_MASK` (R401): the word written; none: a read. -/
  | smbAlertMask (t : Tu) (pec : Bool) (w : Option (BitVec 16))
  /-- `SMB_SENSE` (R401): the sensor. -/
  | smbSense (t : Tu) (pec : Bool) (n : Byte)
  /-- `SMB_MB_REQ` (R401). -/
  | smbMbReq (t : Tu) (pec : Bool) (tag : Byte) (cmd : BitVec 16) (args : List Word) (r : PmbusResult)
  /-- `SMB_MB_RESP` (R401). -/
  | smbMbResp (t : Tu) (pec : Bool)
  /-- `SMB_LOG_ENTRY` (R401). -/
  | smbLogEntry (t : Tu) (pec : Bool) (seq : Word)
  /-- `POWER_ON` (R408). -/
  | powerOn
  /-- `RST_N_ASSERT` (R409). -/
  | rstNAssert
  /-- `RESET_RELEASE` (R411). -/
  | resetRelease
  /-- `BROWNOUT` (R407). -/
  | brownout
  /-- `STACK_TRAINING_DONE` (R414). -/
  | stackTrainingDone (t : Tu) (e : Fin 2) (ok : Bool)
  /-- `CLUSTER_SLEEP` (R417): `busy`: the node whose block did not acknowledge its quiesce in time (R108). -/
  | clusterSleep (t : Tu) (c : Fin 4) (busy : Option (Fin 34))
  /-- `CLUSTER_WAKE` (R419). -/
  | clusterWake (t : Tu) (c : Fin 4)
  /-- `ENGINE_SLEEP` (R418): as CLUSTER_SLEEP. -/
  | engineSleep (t : Tu) (e : Fin 2) (busy : Option (Fin 34))
  /-- `ENGINE_WAKE` (R419). -/
  | engineWake (t : Tu) (e : Fin 2)
  /-- `STANDBY` (R418): as CLUSTER_SLEEP. -/
  | standby (t : Tu) (busy : Option (Fin 34))
  /-- `EXIT_STANDBY` (R420): the span of STANDBY as measured on the RC oscillator. -/
  | exitStandby (t : Tu) (span : Tu)
  /-- `THERMAL_CHECK` (R421): sensors 0 to 4, signed 0.1 °C. -/
  | thermalCheck (t : Tu) (v : List (BitVec 16))
  /-- `THERMAL_TRIP` (R422): the sensor and its value. -/
  | thermalTrip (t : Tu) (n : Fin 5) (v : BitVec 16)
  /-- `LINK_DIAG_WRITE` (R427). -/
  | linkDiagWrite (t : Tu) (l : Fin 9) (v : Word)
  /-- `INJECT` (R428). -/
  | inject (t : Tu) (l : Fin 9)
  /-- `CHECKER_LOCK` (R428): the bits compared and errors counted since the last change. -/
  | checkerLock (t : Tu) (l : Fin 5) (lock : Bool) (bits : BitVec 48) (errs : Word)
  /-- `BIST_START` (R430). -/
  | bistStart (t : Tu) (unit : Fin 16)
  /-- `BIST_DONE` (R430). -/
  | bistDone (t : Tu) (pass : Bool) (detail : BitVec 16)
  /-- `JTAG_INSTRUCTION` (R432). -/
  | jtagInstruction (t : Tu) (ins : JtagIns)
  /-- `CLKIN_EDGE` (R278): an edge at the ball, at instant `t`. -/
  | clkinEdge (t : Tu) (rise : Bool)
  /-- `SAMPLE_PLACEMENT` (R264): a sample of the plane's source at instant `t`, of index `j` on its grid. -/
  | samplePlacement (t : Tu) (p : Fin 16) (j : Int) (x : Sample)
  /-- `MEM_CE` (R233). -/
  | memCe (t : Tu) (e : Fin 2)
  /-- `DEBUG_HALT` (R385). -/
  | debugHalt (t : Tu)
  /-- `MGT_BOOT` (R411). -/
  | mgtBoot (t : Tu)
  /-- `POWER_OFF` (R416). -/
  | powerOff
  /-- `PERST_N_RELEASE` (R410). -/
  | perstNRelease (t : Tu)
  /-- `LINK_BACK_TO_BUDGET` (R60). -/
  | linkBackToBudget (t : Tu) (gen : Fin 6) (width : Fin 9)
  /-- `APLL_FEED_RESUME` (R125). -/
  | apllFeedResume (t : Tu)
  /-- `TLK_HI_BER_CLEAR` (R85). -/
  | tlkHiBerClear (t : Tu)
  /-- `CARRIED_SYNC_SEND` (R371). -/
  | carriedSyncSend (t : Tu)
  deriving DecidableEq, Repr

end Sys2Proof
end

