-- ==== Sys2Proof/Config.lean ====
section
/-! DEFINITION. The values that the manual leaves open and an implementation fixes: opaque constants, without a
value that Lean could see. Each is applied to a counter of the state (`State.free`) or to the operands it depends on. -/

namespace Sys2Proof.Config

/-- A number the manual leaves open, one for each reading of the state's counter (log 2). -/
opaque freeNat : Nat → Nat

/-- The index of the event-controller cycle that contains an instant, while multiplexer CTL selects the RC
oscillator (R351: about 5 ns, 200 MHz ± 5 %) (log 14). -/
opaque rcCycle : Nat → Nat

/-- The phase of the sample grid of a die while PLL_SPLL_STATUS.ALIGNED is 0, when "the grid arithmetic is unavailable"
(R198), in parts of 8,192,000,000 of a lane's sample period: die, and which such grid of the die (log 20). -/
opaque gridPhase : Nat → Nat → Nat

/-- What the sub-step skew term adds to a tap of the correction FIR (R159 states that the coefficients include the term,
and not how): term in fs, lane rate in kS/s, tap (log 98). -/
opaque skewTap : Int → Nat → Nat → Int

/-- The phase of the pipeline cycles of a cluster against the sample grid, in samples of a lane (R19 gives the
length of a cycle, 16 samples, and not its phase) (log 21). -/
opaque pipePhase : Nat → Nat

/-- The 24-bit RGB colour of an RGB565 pixel (R314 gives its alpha and not its expansion) (log 35). -/
opaque rgb565 : Nat → Nat

/-- The RGB565 pixel that a colour of three 8-bit components leaves as on the DSI output (R319 names the format and not
its reduction) (log 35). -/
opaque pack565 : Nat → Nat → Nat → Nat

/-- The SHA-384 digest of a message (R70, R398, R403; FIPS 180-4) as a number (log 30). -/
opaque sha384 : List Byte → Nat

/-- Whether bytes are a point of curve P-384 in SEC 1 uncompressed form (R70) (log 30). -/
opaque isP384Point : List Byte → Bool

/-- Whether an ECDSA P-384 signature over a SHA-384 digest verifies (R70, R398, R403; FIPS 186-5): key, digest,
r and s (log 30). -/
opaque ecdsaP384 : List Byte → Nat → List Byte → Bool

end Sys2Proof.Config
end

