-- ==== Sys2Proof/Machine/RegMap.lean ====
section
/-! DEFINITION. The register map: every field of every register with its bits, access code and reset value (the
field tables of the chapters), the BAR0 offset of every register (Tables REG-1, REG-4 to REG-12, EVT-4; R33,
R433, R434), and the registers that a read of a _LO register latches (R436). -/

namespace Sys2Proof.Fld
open Sys2Proof.Access

/- HUB_ID (21_register_reference.md REG-2) -/
abbrev HUB_ID_PART : Fld := ⟨.HUB_ID, 0, 16, RO, 0x1632⟩
abbrev HUB_ID_VENDOR : Fld := ⟨.HUB_ID, 16, 16, RO, 0x1f5a⟩
/- HUB_REV (21_register_reference.md REG-2) -/
abbrev HUB_REV_STEPPING : Fld := ⟨.HUB_REV, 0, 8, RO, 0x21⟩
abbrev HUB_REV_PITCH_FMT : Fld := ⟨.HUB_REV, 8, 8, RO, 1⟩
/- HUB_SERIAL_LO (21_register_reference.md REG-2) -/
abbrev HUB_SERIAL_LO_SERIAL : Fld := ⟨.HUB_SERIAL_LO, 0, 32, RO, 0⟩
/- HUB_SERIAL_HI (21_register_reference.md REG-2) -/
abbrev HUB_SERIAL_HI_SERIAL : Fld := ⟨.HUB_SERIAL_HI, 0, 32, RO, 0⟩
/- HUB_JTAG_ID (21_register_reference.md REG-2) -/
abbrev HUB_JTAG_ID_IDCODE : Fld := ⟨.HUB_JTAG_ID, 0, 32, RO, 0x51632967⟩
/- HUB_CAPS (21_register_reference.md REG-2) -/
abbrev HUB_CAPS_CHANNELS : Fld := ⟨.HUB_CAPS, 0, 5, RO, 0x10⟩
abbrev HUB_CAPS_ENGINES : Fld := ⟨.HUB_CAPS, 5, 3, RO, 2⟩
abbrev HUB_CAPS_STACK_GIB : Fld := ⟨.HUB_CAPS, 8, 8, RO, 0x10⟩
abbrev HUB_CAPS_HUB_FULL : Fld := ⟨.HUB_CAPS, 16, 1, RO, 1⟩
abbrev HUB_CAPS_TWIN : Fld := ⟨.HUB_CAPS, 17, 1, RO, 1⟩
abbrev HUB_CAPS_PARAMETRIC : Fld := ⟨.HUB_CAPS, 18, 1, RO, 1⟩
abbrev HUB_CAPS_RASTER : Fld := ⟨.HUB_CAPS, 19, 1, RO, 1⟩
/- HUB_SCRATCH (21_register_reference.md R439) -/
abbrev HUB_SCRATCH_VALUE : Fld := ⟨.HUB_SCRATCH, 0, 32, RW, 0⟩
/- HUB_GLOBAL_STATUS (21_register_reference.md REG-3) -/
abbrev HUB_GLOBAL_STATUS_PITCH_STATE : Fld := ⟨.HUB_GLOBAL_STATUS, 0, 3, RO, 0⟩
abbrev HUB_GLOBAL_STATUS_BOOT_PHASE : Fld := ⟨.HUB_GLOBAL_STATUS, 3, 3, RO, 0⟩
abbrev HUB_GLOBAL_STATUS_CLK_ACTIVE : Fld := ⟨.HUB_GLOBAL_STATUS, 6, 2, RO, 2⟩
abbrev HUB_GLOBAL_STATUS_NO_SOURCE : Fld := ⟨.HUB_GLOBAL_STATUS, 8, 1, RO, 0⟩
abbrev HUB_GLOBAL_STATUS_EPOCH_VALID : Fld := ⟨.HUB_GLOBAL_STATUS, 9, 1, RO, 0⟩
abbrev HUB_GLOBAL_STATUS_RELOCK_STATE : Fld := ⟨.HUB_GLOBAL_STATUS, 10, 2, RO, 0⟩
abbrev HUB_GLOBAL_STATUS_POWER : Fld := ⟨.HUB_GLOBAL_STATUS, 12, 2, RO, 0⟩
abbrev HUB_GLOBAL_STATUS_THERM_HOLD : Fld := ⟨.HUB_GLOBAL_STATUS, 14, 3, RO, 0⟩
abbrev HUB_GLOBAL_STATUS_TWIN_ROLE : Fld := ⟨.HUB_GLOBAL_STATUS, 17, 2, RO, 0⟩
abbrev HUB_GLOBAL_STATUS_HELD : Fld := ⟨.HUB_GLOBAL_STATUS, 19, 1, RO, 0⟩
abbrev HUB_GLOBAL_STATUS_SH_PENDING : Fld := ⟨.HUB_GLOBAL_STATUS, 20, 1, RO, 0⟩
abbrev HUB_GLOBAL_STATUS_EVT_ANY : Fld := ⟨.HUB_GLOBAL_STATUS, 21, 1, RO, 0⟩
abbrev HUB_GLOBAL_STATUS_STALE_ANY : Fld := ⟨.HUB_GLOBAL_STATUS, 22, 1, RO, 0⟩
abbrev HUB_GLOBAL_STATUS_MEM_FAIL : Fld := ⟨.HUB_GLOBAL_STATUS, 23, 1, RO, 0⟩
abbrev HUB_GLOBAL_STATUS_LINK_GEN : Fld := ⟨.HUB_GLOBAL_STATUS, 24, 4, RO, 0⟩
abbrev HUB_GLOBAL_STATUS_LINK_WIDTH : Fld := ⟨.HUB_GLOBAL_STATUS, 28, 4, RO, 0⟩
/- HUB_TIME_LO (21_register_reference.md R439) -/
abbrev HUB_TIME_LO_TIME : Fld := ⟨.HUB_TIME_LO, 0, 32, RO, 0⟩
/- HUB_TIME_HI (21_register_reference.md R439) -/
abbrev HUB_TIME_HI_TIME : Fld := ⟨.HUB_TIME_HI, 0, 32, RO, 0⟩
/- HUB_RESET_CAUSE (19_startup_and_power.md PWR-6) -/
abbrev HUB_RESET_CAUSE_POR : Fld := ⟨.HUB_RESET_CAUSE, 0, 1, RO, 0⟩
abbrev HUB_RESET_CAUSE_RST_N : Fld := ⟨.HUB_RESET_CAUSE, 1, 1, RO, 0⟩
abbrev HUB_RESET_CAUSE_BROWNOUT : Fld := ⟨.HUB_RESET_CAUSE, 2, 1, RO, 0⟩
abbrev HUB_RESET_CAUSE_THERMTRIP : Fld := ⟨.HUB_RESET_CAUSE, 3, 1, RO, 0⟩
abbrev HUB_RESET_CAUSE_PERST : Fld := ⟨.HUB_RESET_CAUSE, 4, 1, W1C, 0⟩
/- HUB_BOOT_STATUS (19_startup_and_power.md PWR-6) -/
abbrev HUB_BOOT_STATUS_PHASE : Fld := ⟨.HUB_BOOT_STATUS, 0, 3, RO, 0⟩
abbrev HUB_BOOT_STATUS_CLK_OK : Fld := ⟨.HUB_BOOT_STATUS, 3, 1, RO, 0⟩
abbrev HUB_BOOT_STATUS_M0_OK : Fld := ⟨.HUB_BOOT_STATUS, 4, 1, RO, 0⟩
abbrev HUB_BOOT_STATUS_M1_OK : Fld := ⟨.HUB_BOOT_STATUS, 5, 1, RO, 0⟩
abbrev HUB_BOOT_STATUS_M0_FAIL : Fld := ⟨.HUB_BOOT_STATUS, 6, 1, RO, 0⟩
abbrev HUB_BOOT_STATUS_M1_FAIL : Fld := ⟨.HUB_BOOT_STATUS, 7, 1, RO, 0⟩
abbrev HUB_BOOT_STATUS_BOOT_MS : Fld := ⟨.HUB_BOOT_STATUS, 16, 16, RO, 0⟩
/- HUB_PWR_REQ (19_startup_and_power.md PWR-6) -/
abbrev HUB_PWR_REQ_OP : Fld := ⟨.HUB_PWR_REQ, 0, 3, WO, 0⟩
abbrev HUB_PWR_REQ_TARGET : Fld := ⟨.HUB_PWR_REQ, 3, 2, WO, 0⟩
/- HUB_PWR_STATUS (19_startup_and_power.md PWR-6) -/
abbrev HUB_PWR_STATUS_DEVICE : Fld := ⟨.HUB_PWR_STATUS, 0, 2, RO, 0⟩
abbrev HUB_PWR_STATUS_CL_SLEEP : Fld := ⟨.HUB_PWR_STATUS, 2, 4, RO, 0⟩
abbrev HUB_PWR_STATUS_ENG_SLEEP : Fld := ⟨.HUB_PWR_STATUS, 6, 2, RO, 0⟩
abbrev HUB_PWR_STATUS_THERM_HOLD : Fld := ⟨.HUB_PWR_STATUS, 8, 3, RO, 0⟩
abbrev HUB_PWR_STATUS_RESULT : Fld := ⟨.HUB_PWR_STATUS, 12, 3, RO, 0⟩
abbrev HUB_PWR_STATUS_LAST_OP : Fld := ⟨.HUB_PWR_STATUS, 15, 3, RO, 0⟩
/- HUB_TICK_CFG (02_frame_tick.md TCK-1) -/
abbrev HUB_TICK_CFG_K : Fld := ⟨.HUB_TICK_CFG, 0, 4, LK, 0xa⟩
abbrev HUB_TICK_CFG_MARK_EXP : Fld := ⟨.HUB_TICK_CFG, 4, 4, RW, 0⟩
/- HUB_FRAME_LO (02_frame_tick.md TCK-1) -/
abbrev HUB_FRAME_LO_FRAME : Fld := ⟨.HUB_FRAME_LO, 0, 32, RO, 0⟩
/- HUB_FRAME_HI (02_frame_tick.md TCK-1) -/
abbrev HUB_FRAME_HI_FRAME : Fld := ⟨.HUB_FRAME_HI, 0, 16, RO, 0⟩
/- HUB_TICK_STATUS (02_frame_tick.md TCK-1) -/
abbrev HUB_TICK_STATUS_SOURCE : Fld := ⟨.HUB_TICK_STATUS, 0, 2, RO, 0⟩
abbrev HUB_TICK_STATUS_STEPPED : Fld := ⟨.HUB_TICK_STATUS, 2, 1, W1C, 0⟩
/- HUB_SH_CTRL (02_frame_tick.md TCK-3) -/
abbrev HUB_SH_CTRL_HOLD : Fld := ⟨.HUB_SH_CTRL, 0, 1, RW, 0⟩
/- HUB_SH_STATUS (02_frame_tick.md TCK-3) -/
abbrev HUB_SH_STATUS_PENDING : Fld := ⟨.HUB_SH_STATUS, 0, 1, RO, 0⟩
abbrev HUB_SH_STATUS_HELD : Fld := ⟨.HUB_SH_STATUS, 1, 1, RO, 0⟩
/- HUB_SH_COMMIT_LO (02_frame_tick.md TCK-3) -/
abbrev HUB_SH_COMMIT_LO_FRAME : Fld := ⟨.HUB_SH_COMMIT_LO, 0, 32, RO, 0⟩
/- HUB_SH_COMMIT_HI (02_frame_tick.md TCK-3) -/
abbrev HUB_SH_COMMIT_HI_FRAME : Fld := ⟨.HUB_SH_COMMIT_HI, 0, 16, RO, 0⟩
/- HUB_HOST_BUDGET (02_frame_tick.md TCK-7) -/
abbrev HUB_HOST_BUDGET_STALL_MAX : Fld := ⟨.HUB_HOST_BUDGET, 0, 16, LK, 0x3e8⟩
abbrev HUB_HOST_BUDGET_STALL_SHARE : Fld := ⟨.HUB_HOST_BUDGET, 16, 7, LK, 0xa⟩
abbrev HUB_HOST_BUDGET_LINK_GEN : Fld := ⟨.HUB_HOST_BUDGET, 23, 4, LK, 5⟩
abbrev HUB_HOST_BUDGET_LINK_WIDTH : Fld := ⟨.HUB_HOST_BUDGET, 27, 4, LK, 8⟩
/- HUB_HOST_STALL_MAX (02_frame_tick.md TCK-7) -/
abbrev HUB_HOST_STALL_MAX_NS : Fld := ⟨.HUB_HOST_STALL_MAX, 0, 32, RC, 0⟩
/- HUB_HOST_STALL_VIOL (02_frame_tick.md TCK-7) -/
abbrev HUB_HOST_STALL_VIOL_COUNT : Fld := ⟨.HUB_HOST_STALL_VIOL, 0, 32, RC, 0⟩
/- HUB_PITCH_STATUS (03_pitch_image.md PIT-8) -/
abbrev HUB_PITCH_STATUS_STATE : Fld := ⟨.HUB_PITCH_STATUS, 0, 3, RO, 0⟩
abbrev HUB_PITCH_STATUS_RESULT : Fld := ⟨.HUB_PITCH_STATUS, 8, 8, RO, 0⟩
abbrev HUB_PITCH_STATUS_DETAIL : Fld := ⟨.HUB_PITCH_STATUS, 16, 16, RO, 0xffff⟩
/- HUB_PITCH_ID (03_pitch_image.md PIT-8) -/
abbrev HUB_PITCH_ID_IMAGE_ID : Fld := ⟨.HUB_PITCH_ID, 0, 32, RO, 0⟩
/- HUB_PITCH_VER (03_pitch_image.md PIT-8) -/
abbrev HUB_PITCH_VER_IMAGE_VER : Fld := ⟨.HUB_PITCH_VER, 0, 32, RO, 0⟩
/- HUB_PITCH_CRC (03_pitch_image.md PIT-8) -/
abbrev HUB_PITCH_CRC_CRC : Fld := ⟨.HUB_PITCH_CRC, 0, 32, RO, 0⟩
/- HUB_PITCH_PARTIAL (03_pitch_image.md PIT-8) -/
abbrev HUB_PITCH_PARTIAL_CL_MASK : Fld := ⟨.HUB_PITCH_PARTIAL, 0, 4, RO, 0⟩
/- HUB_PITCH_SIG (03_pitch_image.md PIT-8) -/
abbrev HUB_PITCH_SIG_SIGNED : Fld := ⟨.HUB_PITCH_SIG, 0, 1, RO, 0⟩
abbrev HUB_PITCH_SIG_KEY_INDEX : Fld := ⟨.HUB_PITCH_SIG, 1, 2, RO, 0⟩
/- HUB_SYNC_CMD (10_reduction_and_filtering.md RED-6) -/
abbrev HUB_SYNC_CMD_ISSUE : Fld := ⟨.HUB_SYNC_CMD, 0, 1, WO, 0⟩
abbrev HUB_SYNC_CMD_TWIN : Fld := ⟨.HUB_SYNC_CMD, 1, 1, WO, 0⟩
/- HUB_SYNC_CFG (10_reduction_and_filtering.md RED-6) -/
abbrev HUB_SYNC_CFG_IN_EN : Fld := ⟨.HUB_SYNC_CFG, 0, 1, RW, 0⟩
abbrev HUB_SYNC_CFG_IN_EDGE : Fld := ⟨.HUB_SYNC_CFG, 1, 1, RW, 0⟩
abbrev HUB_SYNC_CFG_IN_TWIN : Fld := ⟨.HUB_SYNC_CFG, 2, 1, RW, 0⟩
abbrev HUB_SYNC_CFG_OUT_EN : Fld := ⟨.HUB_SYNC_CFG, 3, 1, RW, 0⟩
abbrev HUB_SYNC_CFG_IN_DELAY : Fld := ⟨.HUB_SYNC_CFG, 16, 16, RW, 0x800⟩
/- HUB_SYNC_LAST_LO (10_reduction_and_filtering.md RED-6) -/
abbrev HUB_SYNC_LAST_LO_TTS : Fld := ⟨.HUB_SYNC_LAST_LO, 0, 32, RO, 0⟩
/- HUB_SYNC_LAST_HI (10_reduction_and_filtering.md RED-6) -/
abbrev HUB_SYNC_LAST_HI_TTS : Fld := ⟨.HUB_SYNC_LAST_HI, 0, 32, RO, 0⟩
/- HUB_SYNC_SRC (10_reduction_and_filtering.md RED-6) -/
abbrev HUB_SYNC_SRC_SRC : Fld := ⟨.HUB_SYNC_SRC, 0, 3, RO, 0⟩
/- HUB_SYNC_DROP (10_reduction_and_filtering.md RED-6) -/
abbrev HUB_SYNC_DROP_COUNT : Fld := ⟨.HUB_SYNC_DROP, 0, 32, RC, 0⟩
/- HUB_TRIG_IN_CFG (08_trigger.md TRG-8) -/
abbrev HUB_TRIG_IN_CFG_EDGE : Fld := ⟨.HUB_TRIG_IN_CFG, 0, 2, RW, 3⟩
/- HUB_TRIG_IN_CNT (08_trigger.md TRG-8) -/
abbrev HUB_TRIG_IN_CNT_COUNT : Fld := ⟨.HUB_TRIG_IN_CNT, 0, 32, RC, 0⟩
/- HUB_TRIG_OUT_CFG (08_trigger.md TRG-8) -/
abbrev HUB_TRIG_OUT_CFG_EN : Fld := ⟨.HUB_TRIG_OUT_CFG, 0, 1, RW, 0⟩
abbrev HUB_TRIG_OUT_CFG_POL : Fld := ⟨.HUB_TRIG_OUT_CFG, 1, 1, RW, 0⟩
abbrev HUB_TRIG_OUT_CFG_WIDTH : Fld := ⟨.HUB_TRIG_OUT_CFG, 2, 10, RW, 8⟩
abbrev HUB_TRIG_OUT_CFG_DELAY : Fld := ⟨.HUB_TRIG_OUT_CFG, 12, 16, RW, 0⟩
/- HUB_TRIG_OUT_MERGED (08_trigger.md TRG-8) -/
abbrev HUB_TRIG_OUT_MERGED_COUNT : Fld := ⟨.HUB_TRIG_OUT_MERGED, 0, 32, RC, 0⟩
/- HUB_BIST_REQ (20_link_diagnostics.md DIA-5) -/
abbrev HUB_BIST_REQ_UNIT : Fld := ⟨.HUB_BIST_REQ, 0, 4, WO, 0⟩
abbrev HUB_BIST_REQ_GO : Fld := ⟨.HUB_BIST_REQ, 4, 1, WO, 0⟩
/- HUB_BIST_ARG_LO (20_link_diagnostics.md DIA-5) -/
abbrev HUB_BIST_ARG_LO_ADDR : Fld := ⟨.HUB_BIST_ARG_LO, 12, 20, RW, 0⟩
/- HUB_BIST_ARG_HI (20_link_diagnostics.md DIA-5) -/
abbrev HUB_BIST_ARG_HI_ADDR : Fld := ⟨.HUB_BIST_ARG_HI, 0, 2, RW, 0⟩
abbrev HUB_BIST_ARG_HI_GIB : Fld := ⟨.HUB_BIST_ARG_HI, 16, 16, RW, 1⟩
/- HUB_BIST_STATUS (20_link_diagnostics.md DIA-5) -/
abbrev HUB_BIST_STATUS_RESULT : Fld := ⟨.HUB_BIST_STATUS, 0, 3, RO, 0⟩
abbrev HUB_BIST_STATUS_UNIT : Fld := ⟨.HUB_BIST_STATUS, 3, 4, RO, 0⟩
abbrev HUB_BIST_STATUS_DETAIL : Fld := ⟨.HUB_BIST_STATUS, 16, 16, RO, 0⟩
/- HUB_SCHED_FRAME_LO (02_frame_tick.md TCK-4) -/
abbrev HUB_SCHED_FRAME_LO_FRAME : Fld := ⟨.HUB_SCHED_FRAME_LO, 0, 32, RW, 0⟩
/- HUB_SCHED_FRAME_HI (02_frame_tick.md TCK-4) -/
abbrev HUB_SCHED_FRAME_HI_FRAME : Fld := ⟨.HUB_SCHED_FRAME_HI, 0, 16, RW, 0⟩
/- HUB_SCHED_ARG (02_frame_tick.md TCK-4) -/
abbrev HUB_SCHED_ARG_ARG : Fld := ⟨.HUB_SCHED_ARG, 0, 32, RW, 0⟩
/- HUB_SCHED_CMD (02_frame_tick.md TCK-4) -/
abbrev HUB_SCHED_CMD_CMD : Fld := ⟨.HUB_SCHED_CMD, 0, 4, RW, 0⟩
abbrev HUB_SCHED_CMD_LATE_POLICY : Fld := ⟨.HUB_SCHED_CMD, 4, 1, RW, 0⟩
/- HUB_SCHED_STATUS (02_frame_tick.md TCK-4) -/
abbrev HUB_SCHED_STATUS_STATUS : Fld := ⟨.HUB_SCHED_STATUS, 0, 3, RO, 0⟩
abbrev HUB_SCHED_STATUS_LAST : Fld := ⟨.HUB_SCHED_STATUS, 3, 3, RO, 0⟩
/- HUB_LINK_DIAG (20_link_diagnostics.md DIA-3) -/
abbrev HUB_LINK_DIAG_GEN_PAT : Fld := ⟨.HUB_LINK_DIAG, 0, 3, RW, 0⟩
abbrev HUB_LINK_DIAG_CHK_PAT : Fld := ⟨.HUB_LINK_DIAG, 3, 3, RW, 0⟩
abbrev HUB_LINK_DIAG_LOOP : Fld := ⟨.HUB_LINK_DIAG, 6, 2, RW, 0⟩
abbrev HUB_LINK_DIAG_INJECT : Fld := ⟨.HUB_LINK_DIAG, 8, 1, WO, 0⟩
abbrev HUB_LINK_DIAG_STATE : Fld := ⟨.HUB_LINK_DIAG, 9, 2, RO, 0⟩
/- HUB_LINK_CHK (20_link_diagnostics.md DIA-3) -/
abbrev HUB_LINK_CHK_LOCK : Fld := ⟨.HUB_LINK_CHK, 0, 1, RO, 0⟩
abbrev HUB_LINK_CHK_LOCK_LOST : Fld := ⟨.HUB_LINK_CHK, 1, 1, W1C, 0⟩
/- HUB_LINK_ERR (20_link_diagnostics.md DIA-3) -/
abbrev HUB_LINK_ERR_COUNT : Fld := ⟨.HUB_LINK_ERR, 0, 32, RC, 0⟩
/- HUB_LINK_BITS_LO (20_link_diagnostics.md DIA-3) -/
abbrev HUB_LINK_BITS_LO_BITS : Fld := ⟨.HUB_LINK_BITS_LO, 0, 32, RC, 0⟩
/- HUB_LINK_BITS_HI (20_link_diagnostics.md DIA-3) -/
abbrev HUB_LINK_BITS_HI_BITS : Fld := ⟨.HUB_LINK_BITS_HI, 0, 16, RO, 0⟩
/- CLK_SRC_CFG (04_clock_sources.md CLK-6) -/
abbrev CLK_SRC_CFG_PREF : Fld := ⟨.CLK_SRC_CFG, 0, 2, RW, 0⟩
abbrev CLK_SRC_CFG_REVERT : Fld := ⟨.CLK_SRC_CFG, 2, 1, RW, 1⟩
/- CLK_SRC_STATUS (04_clock_sources.md CLK-6) -/
abbrev CLK_SRC_STATUS_ACTIVE : Fld := ⟨.CLK_SRC_STATUS, 0, 2, RO, 2⟩
abbrev CLK_SRC_STATUS_LINK_QUAL : Fld := ⟨.CLK_SRC_STATUS, 2, 1, RO, 0⟩
abbrev CLK_SRC_STATUS_REFIN_QUAL : Fld := ⟨.CLK_SRC_STATUS, 3, 1, RO, 0⟩
abbrev CLK_SRC_STATUS_NO_SOURCE : Fld := ⟨.CLK_SRC_STATUS, 4, 1, RO, 0⟩
abbrev CLK_SRC_STATUS_LINK_QCOUNT : Fld := ⟨.CLK_SRC_STATUS, 8, 8, RO, 0⟩
abbrev CLK_SRC_STATUS_REFIN_QCOUNT : Fld := ⟨.CLK_SRC_STATUS, 16, 8, RO, 0⟩
/- CLK_QUAL (04_clock_sources.md CLK-6) -/
abbrev CLK_QUAL_COUNT : Fld := ⟨.CLK_QUAL, 0, 8, RW, 0x40⟩
abbrev CLK_QUAL_PPM : Fld := ⟨.CLK_QUAL, 8, 8, RW, 0x64⟩
abbrev CLK_QUAL_TIMEOUT : Fld := ⟨.CLK_QUAL, 16, 16, RW, 0x32⟩
/- CLK_MON (04_clock_sources.md CLK-6) -/
abbrev CLK_MON_PPM : Fld := ⟨.CLK_MON, 0, 8, RW, 0x64⟩
abbrev CLK_MON_LOS_NS : Fld := ⟨.CLK_MON, 8, 8, RW, 0x28⟩
/- CLK_FREQ_DEV (04_clock_sources.md CLK-6) -/
abbrev CLK_FREQ_DEV_LINK : Fld := ⟨.CLK_FREQ_DEV, 0, 16, RO, 0⟩
abbrev CLK_FREQ_DEV_REFIN : Fld := ⟨.CLK_FREQ_DEV, 16, 16, RO, 0⟩
/- CLK_CLKIN_CFG (12_time_interval.md TIC-2) -/
abbrev CLK_CLKIN_CFG_PS : Fld := ⟨.CLK_CLKIN_CFG, 0, 3, RW, 0⟩
abbrev CLK_CLKIN_CFG_RATE_ERR : Fld := ⟨.CLK_CLKIN_CFG, 3, 1, RO, 0⟩
/- CLK_MUX_SEL (04_clock_sources.md CLK-9) -/
abbrev CLK_MUX_SEL_SEL : Fld := ⟨.CLK_MUX_SEL, 0, 2, RW, 0⟩
/- CLK_MUX_STATUS (04_clock_sources.md CLK-9) -/
abbrev CLK_MUX_STATUS_STATE0 : Fld := ⟨.CLK_MUX_STATUS, 0, 2, RO, 0⟩
abbrev CLK_MUX_STATUS_STATE1 : Fld := ⟨.CLK_MUX_STATUS, 2, 2, RO, 0⟩
abbrev CLK_MUX_STATUS_STATE2 : Fld := ⟨.CLK_MUX_STATUS, 4, 2, RO, 0⟩
abbrev CLK_MUX_STATUS_STATE3 : Fld := ⟨.CLK_MUX_STATUS, 6, 2, RO, 0⟩
abbrev CLK_MUX_STATUS_STATE4 : Fld := ⟨.CLK_MUX_STATUS, 8, 2, RO, 0⟩
abbrev CLK_MUX_STATUS_STATE5 : Fld := ⟨.CLK_MUX_STATUS, 10, 2, RO, 0⟩
abbrev CLK_MUX_STATUS_STATE6 : Fld := ⟨.CLK_MUX_STATUS, 12, 2, RO, 0⟩
/- CLK_GATE_REQ (04_clock_sources.md CLK-11) -/
abbrev CLK_GATE_REQ_NODE : Fld := ⟨.CLK_GATE_REQ, 0, 6, WO, 0⟩
abbrev CLK_GATE_REQ_OP : Fld := ⟨.CLK_GATE_REQ, 6, 1, WO, 0⟩
abbrev CLK_GATE_REQ_FORCE : Fld := ⟨.CLK_GATE_REQ, 7, 1, WO, 0⟩
/- CLK_GATE_RESULT (04_clock_sources.md CLK-11) -/
abbrev CLK_GATE_RESULT_CODE : Fld := ⟨.CLK_GATE_RESULT, 0, 3, RO, 0⟩
abbrev CLK_GATE_RESULT_OVERRUN : Fld := ⟨.CLK_GATE_RESULT, 3, 1, W1C, 0⟩
abbrev CLK_GATE_RESULT_NODE : Fld := ⟨.CLK_GATE_RESULT, 4, 6, RO, 0⟩
/- CLK_GATE_STATE_LO (04_clock_sources.md CLK-11) -/
abbrev CLK_GATE_STATE_LO_OPEN : Fld := ⟨.CLK_GATE_STATE_LO, 0, 32, RO, 0xffffffff⟩
/- CLK_GATE_STATE_HI (04_clock_sources.md CLK-11) -/
abbrev CLK_GATE_STATE_HI_OPEN : Fld := ⟨.CLK_GATE_STATE_HI, 0, 2, RO, 3⟩
/- PLL_LOCK_CFG (05_plls.md PLL-4) -/
abbrev PLL_LOCK_CFG_WINDOW : Fld := ⟨.PLL_LOCK_CFG, 0, 8, SH, 0⟩
abbrev PLL_LOCK_CFG_NEXP : Fld := ⟨.PLL_LOCK_CFG, 8, 4, SH, 0xa⟩
/- PLL_JPLL_CFG (05_plls.md PLL-4) -/
abbrev PLL_JPLL_CFG_REF_MODE : Fld := ⟨.PLL_JPLL_CFG, 0, 2, RW, 0⟩
abbrev PLL_JPLL_CFG_BW : Fld := ⟨.PLL_JPLL_CFG, 2, 2, RW, 2⟩
/- PLL_JPLL_STATUS (05_plls.md PLL-4) -/
abbrev PLL_JPLL_STATUS_LOCK : Fld := ⟨.PLL_JPLL_STATUS, 0, 1, RO, 0⟩
abbrev PLL_JPLL_STATUS_COAST : Fld := ⟨.PLL_JPLL_STATUS, 1, 1, RO, 1⟩
abbrev PLL_JPLL_STATUS_LOST : Fld := ⟨.PLL_JPLL_STATUS, 2, 1, W1C, 0⟩
abbrev PLL_JPLL_STATUS_PHASE_ERR : Fld := ⟨.PLL_JPLL_STATUS, 16, 16, RO, 0⟩
/- PLL_APLL_CFG (05_plls.md PLL-5) -/
abbrev PLL_APLL_CFG_REF_MODE : Fld := ⟨.PLL_APLL_CFG, 0, 2, RW, 1⟩
/- PLL_APLL_FREQ (05_plls.md PLL-5) -/
abbrev PLL_APLL_FREQ_VCO_KHZ : Fld := ⟨.PLL_APLL_FREQ, 0, 23, RW, 0x493e00⟩
/- PLL_APLL_DIV (05_plls.md PLL-5) -/
abbrev PLL_APLL_DIV_PIX_DIV : Fld := ⟨.PLL_APLL_DIV, 0, 8, RW, 0x20⟩
abbrev PLL_APLL_DIV_AUX_DIV : Fld := ⟨.PLL_APLL_DIV, 8, 8, RW, 0x30⟩
/- PLL_APLL_STATUS (05_plls.md PLL-5) -/
abbrev PLL_APLL_STATUS_LOCK : Fld := ⟨.PLL_APLL_STATUS, 0, 1, RO, 0⟩
abbrev PLL_APLL_STATUS_LOST : Fld := ⟨.PLL_APLL_STATUS, 1, 1, W1C, 0⟩
abbrev PLL_APLL_STATUS_CFG_ERR : Fld := ⟨.PLL_APLL_STATUS, 2, 1, W1C, 0⟩
/- PLL_SPLL_CFG (05_plls.md PLL-4) -/
abbrev PLL_SPLL_CFG_REF_MODE : Fld := ⟨.PLL_SPLL_CFG, 0, 2, SH, 1⟩
abbrev PLL_SPLL_CFG_BW : Fld := ⟨.PLL_SPLL_CFG, 2, 2, SH, 1⟩
abbrev PLL_SPLL_CFG_FORCE_RAMP : Fld := ⟨.PLL_SPLL_CFG, 4, 1, RW, 0⟩
abbrev PLL_SPLL_CFG_SLOPE : Fld := ⟨.PLL_SPLL_CFG, 8, 8, RW, 0xa⟩
/- PLL_SPLL_RATE (05_plls.md PLL-4) -/
abbrev PLL_SPLL_RATE_RATE : Fld := ⟨.PLL_SPLL_RATE, 0, 23, SH, 0x7a1200⟩
/- PLL_SPLL_RATE_NOW (05_plls.md PLL-4) -/
abbrev PLL_SPLL_RATE_NOW_RATE : Fld := ⟨.PLL_SPLL_RATE_NOW, 0, 23, RO, 0x7a1200⟩
/- PLL_SPLL_PHASE (05_plls.md PLL-4) -/
abbrev PLL_SPLL_PHASE_OFS : Fld := ⟨.PLL_SPLL_PHASE, 0, 11, RW, 0⟩
/- PLL_SPLL_STATUS (05_plls.md PLL-4) -/
abbrev PLL_SPLL_STATUS_LOCK : Fld := ⟨.PLL_SPLL_STATUS, 0, 1, RO, 0⟩
abbrev PLL_SPLL_STATUS_SETTLED : Fld := ⟨.PLL_SPLL_STATUS, 1, 1, RO, 0⟩
abbrev PLL_SPLL_STATUS_ALIGNED : Fld := ⟨.PLL_SPLL_STATUS, 2, 1, RO, 0⟩
abbrev PLL_SPLL_STATUS_STATE : Fld := ⟨.PLL_SPLL_STATUS, 3, 2, RO, 3⟩
abbrev PLL_SPLL_STATUS_LOST : Fld := ⟨.PLL_SPLL_STATUS, 5, 1, W1C, 0⟩
abbrev PLL_SPLL_STATUS_OFS_NOW : Fld := ⟨.PLL_SPLL_STATUS, 16, 11, RO, 0⟩
/- PLL_SPLL_ANCHOR_LO (05_plls.md PLL-4) -/
abbrev PLL_SPLL_ANCHOR_LO_FRAME : Fld := ⟨.PLL_SPLL_ANCHOR_LO, 0, 32, RO, 0⟩
/- PLL_SPLL_ANCHOR_HI (05_plls.md PLL-4) -/
abbrev PLL_SPLL_ANCHOR_HI_FRAME : Fld := ⟨.PLL_SPLL_ANCHOR_HI, 0, 16, RO, 0⟩
/- PLL_SPLL_RETRY (05_plls.md PLL-4) -/
abbrev PLL_SPLL_RETRY_COUNT : Fld := ⟨.PLL_SPLL_RETRY, 0, 16, RC, 0⟩
/- PLL_AUX_CFG (05_plls.md PLL-5) -/
abbrev PLL_AUX_CFG_EN : Fld := ⟨.PLL_AUX_CFG, 0, 1, RW, 0⟩
abbrev PLL_AUX_CFG_ALIGN : Fld := ⟨.PLL_AUX_CFG, 1, 1, RW, 0⟩
abbrev PLL_AUX_CFG_DIV : Fld := ⟨.PLL_AUX_CFG, 2, 12, RW, 0⟩
/- PLL_AUX_DELAY (05_plls.md PLL-5) -/
abbrev PLL_AUX_DELAY_COARSE : Fld := ⟨.PLL_AUX_DELAY, 0, 12, RW, 0⟩
abbrev PLL_AUX_DELAY_FINE : Fld := ⟨.PLL_AUX_DELAY, 12, 8, RW, 0⟩
/- TLK_CTRL (04_clock_sources.md CLK-7) -/
abbrev TLK_CTRL_ENABLE : Fld := ⟨.TLK_CTRL, 0, 1, RW, 1⟩
abbrev TLK_CTRL_TX_ENABLE : Fld := ⟨.TLK_CTRL, 1, 1, RW, 1⟩
abbrev TLK_CTRL_DELAY_MODE : Fld := ⟨.TLK_CTRL, 2, 1, RW, 1⟩
abbrev TLK_CTRL_RELOCK_ACT : Fld := ⟨.TLK_CTRL, 3, 2, WO, 0⟩
/- TLK_STATUS (04_clock_sources.md CLK-7) -/
abbrev TLK_STATUS_BLOCK_LOCK : Fld := ⟨.TLK_STATUS, 0, 1, RO, 0⟩
abbrev TLK_STATUS_HI_BER : Fld := ⟨.TLK_STATUS, 1, 1, RO, 0⟩
abbrev TLK_STATUS_EPOCH_VALID : Fld := ⟨.TLK_STATUS, 2, 1, RO, 0⟩
abbrev TLK_STATUS_RELOCK_STATE : Fld := ⟨.TLK_STATUS, 3, 2, RO, 0⟩
abbrev TLK_STATUS_K_LINK : Fld := ⟨.TLK_STATUS, 5, 4, RO, 0⟩
abbrev TLK_STATUS_K_MATCH : Fld := ⟨.TLK_STATUS, 9, 1, RO, 0⟩
/- TLK_RELOCK (04_clock_sources.md CLK-7) -/
abbrev TLK_RELOCK_WINDOW : Fld := ⟨.TLK_RELOCK, 0, 16, RW, 0x4000⟩
abbrev TLK_RELOCK_SLEW_RATE : Fld := ⟨.TLK_RELOCK, 16, 10, RW, 0x3e8⟩
abbrev TLK_RELOCK_POLICY : Fld := ⟨.TLK_RELOCK, 26, 1, RW, 0⟩
/- TLK_RELOCK_OFS (04_clock_sources.md CLK-7) -/
abbrev TLK_RELOCK_OFS_OFS : Fld := ⟨.TLK_RELOCK_OFS, 0, 32, RO, 0⟩
/- TLK_MARK (04_clock_sources.md CLK-7) -/
abbrev TLK_MARK_TOL : Fld := ⟨.TLK_MARK, 0, 16, RW, 0x40⟩
abbrev TLK_MARK_TIMEOUT : Fld := ⟨.TLK_MARK, 16, 16, RW, 0x3e8⟩
/- TLK_DELAY_CFG (04_clock_sources.md CLK-7) -/
abbrev TLK_DELAY_CFG_VALUE : Fld := ⟨.TLK_DELAY_CFG, 0, 24, RW, 0⟩
/- TLK_DELAY_MEAS (04_clock_sources.md CLK-7) -/
abbrev TLK_DELAY_MEAS_VALUE : Fld := ⟨.TLK_DELAY_MEAS, 0, 24, RO, 0⟩
/- TLK_TRIG_EN (04_clock_sources.md CLK-7) -/
abbrev TLK_TRIG_EN_LINES : Fld := ⟨.TLK_TRIG_EN, 0, 16, RW, 0⟩
/- TLK_SITE (04_clock_sources.md CLK-7) -/
abbrev TLK_SITE_SITE_ID : Fld := ⟨.TLK_SITE, 0, 16, RW, 0⟩
/- TLK_PEER_STATUS (04_clock_sources.md CLK-7) -/
abbrev TLK_PEER_STATUS_STATUS : Fld := ⟨.TLK_PEER_STATUS, 0, 32, RO, 0⟩
/- TLK_ERR (04_clock_sources.md CLK-7) -/
abbrev TLK_ERR_CRC : Fld := ⟨.TLK_ERR, 0, 16, RC, 0⟩
abbrev TLK_ERR_UNKNOWN : Fld := ⟨.TLK_ERR, 16, 16, RC, 0⟩
/- TLK_BCAST_DROP (04_clock_sources.md CLK-7) -/
abbrev TLK_BCAST_DROP_COUNT : Fld := ⟨.TLK_BCAST_DROP, 0, 32, RC, 0⟩
/- TLK_TRIG_DROP (04_clock_sources.md CLK-7) -/
abbrev TLK_TRIG_DROP_COUNT : Fld := ⟨.TLK_TRIG_DROP, 0, 32, RC, 0⟩
/- TLK_PHY (04_clock_sources.md CLK-7) -/
abbrev TLK_PHY_DEEMPH : Fld := ⟨.TLK_PHY, 0, 2, RW, 0⟩
abbrev TLK_PHY_SWING : Fld := ⟨.TLK_PHY, 2, 2, RW, 1⟩
/- TLK_ARM_MAP (04_clock_sources.md CLK-7) -/
abbrev TLK_ARM_MAP_REGIONS : Fld := ⟨.TLK_ARM_MAP, 0, 32, RW, 0⟩
/- GLN_CFG (17_twin_operation.md GLN-4) -/
abbrev GLN_CFG_EN : Fld := ⟨.GLN_CFG, 0, 1, RW, 1⟩
abbrev GLN_CFG_ALIGN : Fld := ⟨.GLN_CFG, 1, 1, RW, 1⟩
abbrev GLN_CFG_ON_LINK_LOSS : Fld := ⟨.GLN_CFG, 2, 1, RW, 0⟩
/- GLN_STATUS (17_twin_operation.md GLN-4) -/
abbrev GLN_STATUS_PRESENT : Fld := ⟨.GLN_STATUS, 0, 1, RO, 0⟩
abbrev GLN_STATUS_LINK_UP : Fld := ⟨.GLN_STATUS, 1, 1, RO, 0⟩
abbrev GLN_STATUS_ROLE : Fld := ⟨.GLN_STATUS, 2, 2, RO, 0⟩
abbrev GLN_STATUS_MODE : Fld := ⟨.GLN_STATUS, 4, 2, RO, 0⟩
abbrev GLN_STATUS_HELD : Fld := ⟨.GLN_STATUS, 6, 1, RO, 0⟩
abbrev GLN_STATUS_ALIGNED : Fld := ⟨.GLN_STATUS, 7, 1, RO, 0⟩
/- GLN_EPOCH_OFS (17_twin_operation.md GLN-4) -/
abbrev GLN_EPOCH_OFS_OFS : Fld := ⟨.GLN_EPOCH_OFS, 0, 32, RO, 0⟩
/- GLN_ALIGN (17_twin_operation.md GLN-4) -/
abbrev GLN_ALIGN_WINDOW : Fld := ⟨.GLN_ALIGN, 0, 16, RW, 0x40⟩
abbrev GLN_ALIGN_MAX : Fld := ⟨.GLN_ALIGN, 16, 16, RW, 0x3e8⟩
/- GLN_FAIL (17_twin_operation.md GLN-4) -/
abbrev GLN_FAIL_MISS : Fld := ⟨.GLN_FAIL, 0, 8, RW, 8⟩
/- GLN_DT_LO (17_twin_operation.md GLN-4) -/
abbrev GLN_DT_LO_FRAME : Fld := ⟨.GLN_DT_LO, 0, 32, RO, 0⟩
/- GLN_DT_HI (17_twin_operation.md GLN-4) -/
abbrev GLN_DT_HI_FRAME : Fld := ⟨.GLN_DT_HI, 0, 16, RO, 0⟩
/- GLN_CMP_CFG (17_twin_operation.md GLN-4) -/
abbrev GLN_CMP_CFG_EN : Fld := ⟨.GLN_CMP_CFG, 0, 1, RW, 1⟩
abbrev GLN_CMP_CFG_CH_MASK : Fld := ⟨.GLN_CMP_CFG, 16, 16, RW, 0xffff⟩
/- GLN_CMP_TOL (17_twin_operation.md GLN-4) -/
abbrev GLN_CMP_TOL_MEAN : Fld := ⟨.GLN_CMP_TOL, 0, 12, RW, 0x180⟩
abbrev GLN_CMP_TOL_OVR : Fld := ⟨.GLN_CMP_TOL, 12, 8, RW, 0x10⟩
abbrev GLN_CMP_TOL_SEG : Fld := ⟨.GLN_CMP_TOL, 20, 6, RW, 2⟩
abbrev GLN_CMP_TOL_FIRES : Fld := ⟨.GLN_CMP_TOL, 26, 6, RW, 4⟩
/- GLN_CMP_CTRL_CNT (17_twin_operation.md GLN-4) -/
abbrev GLN_CMP_CTRL_CNT_COUNT : Fld := ⟨.GLN_CMP_CTRL_CNT, 0, 32, RC, 0⟩
/- GLN_CMP_VAL_CNT (17_twin_operation.md GLN-4) -/
abbrev GLN_CMP_VAL_CNT_COUNT : Fld := ⟨.GLN_CMP_VAL_CNT, 0, 32, RC, 0⟩
/- GLN_CMP_MISS_CNT (17_twin_operation.md GLN-4) -/
abbrev GLN_CMP_MISS_CNT_COUNT : Fld := ⟨.GLN_CMP_MISS_CNT, 0, 32, RC, 0⟩
/- GLN_CMP_LAST_LO (17_twin_operation.md GLN-4) -/
abbrev GLN_CMP_LAST_LO_FRAME : Fld := ⟨.GLN_CMP_LAST_LO, 0, 32, RO, 0⟩
/- GLN_CMP_LAST_HI (17_twin_operation.md GLN-4) -/
abbrev GLN_CMP_LAST_HI_FRAME : Fld := ⟨.GLN_CMP_LAST_HI, 0, 16, RO, 0⟩
/- GLN_SYNC_DROP (17_twin_operation.md GLN-4) -/
abbrev GLN_SYNC_DROP_COUNT : Fld := ⟨.GLN_SYNC_DROP, 0, 32, RC, 0⟩
/- GLN_ERR (17_twin_operation.md GLN-4) -/
abbrev GLN_ERR_CRC : Fld := ⟨.GLN_ERR, 0, 16, RC, 0⟩
abbrev GLN_ERR_UNKNOWN : Fld := ⟨.GLN_ERR, 16, 16, RC, 0⟩
/- EVT_STATUS (16_events.md EVT-4) -/
abbrev EVT_STATUS_STATUS : Fld := ⟨.EVT_STATUS, 0, 32, W1C, 0⟩
/- EVT_ENABLE (16_events.md EVT-4) -/
abbrev EVT_ENABLE_ENABLE : Fld := ⟨.EVT_ENABLE, 0, 32, RW, 0⟩
/- EVT_ACTIVE (16_events.md EVT-4) -/
abbrev EVT_ACTIVE_ACTIVE : Fld := ⟨.EVT_ACTIVE, 0, 32, RO, 0⟩
/- EVT_VEC_ACK (16_events.md EVT-4) -/
abbrev EVT_VEC_ACK_VECTOR : Fld := ⟨.EVT_VEC_ACK, 0, 6, WO, 0⟩
/- EVT_VEC_ARMED_LO (16_events.md EVT-4) -/
abbrev EVT_VEC_ARMED_LO_ARMED : Fld := ⟨.EVT_VEC_ARMED_LO, 0, 32, RO, 0xffffffff⟩
/- EVT_VEC_ARMED_HI (16_events.md EVT-4) -/
abbrev EVT_VEC_ARMED_HI_ARMED : Fld := ⟨.EVT_VEC_ARMED_HI, 0, 32, RO, 0xffffffff⟩
/- EVT_ROUTE (16_events.md EVT-4) -/
abbrev EVT_ROUTE_KIND : Fld := ⟨.EVT_ROUTE, 0, 2, RW, 0⟩
abbrev EVT_ROUTE_TARGET : Fld := ⟨.EVT_ROUTE, 2, 6, RW, 0⟩
/- EVT_DATA (16_events.md EVT-4) -/
abbrev EVT_DATA_CAUSES : Fld := ⟨.EVT_DATA, 0, 16, RC, 0⟩
abbrev EVT_DATA_INFO : Fld := ⟨.EVT_DATA, 16, 16, RC, 0⟩
/- EVT_CNT (16_events.md EVT-4) -/
abbrev EVT_CNT_COUNT : Fld := ⟨.EVT_CNT, 0, 16, RC, 0⟩
/- DMA_GLOBAL_STATUS (15_host_interface_dma.md HST-7) -/
abbrev DMA_GLOBAL_STATUS_INFLIGHT : Fld := ⟨.DMA_GLOBAL_STATUS, 0, 14, RO, 0⟩
abbrev DMA_GLOBAL_STATUS_READS : Fld := ⟨.DMA_GLOBAL_STATUS, 16, 11, RO, 0⟩
abbrev DMA_GLOBAL_STATUS_TAG_MODE : Fld := ⟨.DMA_GLOBAL_STATUS, 27, 2, RO, 0⟩
/- DMA_LINK_STATUS (15_host_interface_dma.md HST-7) -/
abbrev DMA_LINK_STATUS_GEN : Fld := ⟨.DMA_LINK_STATUS, 0, 4, RO, 0⟩
abbrev DMA_LINK_STATUS_WIDTH : Fld := ⟨.DMA_LINK_STATUS, 4, 4, RO, 0⟩
/- DMA_LINK_RESET_CNT (15_host_interface_dma.md HST-7) -/
abbrev DMA_LINK_RESET_CNT_COUNT : Fld := ⟨.DMA_LINK_RESET_CNT, 0, 32, RO, 0⟩
/- DMA_Q_KIND (15_host_interface_dma.md HST-7) -/
abbrev DMA_Q_KIND_KIND : Fld := ⟨.DMA_Q_KIND, 0, 3, LK, 0⟩
abbrev DMA_Q_KIND_UNIT : Fld := ⟨.DMA_Q_KIND, 8, 8, LK, 0xff⟩
abbrev DMA_Q_KIND_VECTOR : Fld := ⟨.DMA_Q_KIND, 16, 6, LK, 0⟩
/- DMA_Q_CTRL (15_host_interface_dma.md HST-7) -/
abbrev DMA_Q_CTRL_EN : Fld := ⟨.DMA_Q_CTRL, 0, 1, SH, 0⟩
abbrev DMA_Q_CTRL_CPL_N : Fld := ⟨.DMA_Q_CTRL, 1, 10, RW, 1⟩
abbrev DMA_Q_CTRL_CPL_FRAMES : Fld := ⟨.DMA_Q_CTRL, 11, 10, RW, 0x10⟩
/- DMA_Q_ABORT (15_host_interface_dma.md HST-7) -/
abbrev DMA_Q_ABORT_GO : Fld := ⟨.DMA_Q_ABORT, 0, 1, WO, 0⟩
/- DMA_Q_CFG (15_host_interface_dma.md HST-7) -/
abbrev DMA_Q_CFG_DEPTH : Fld := ⟨.DMA_Q_CFG, 0, 11, RW, 0x80⟩
/- DMA_Q_STATUS (15_host_interface_dma.md HST-7) -/
abbrev DMA_Q_STATUS_STATE : Fld := ⟨.DMA_Q_STATUS, 0, 3, RO, 0⟩
abbrev DMA_Q_STATUS_CAUSE : Fld := ⟨.DMA_Q_STATUS, 4, 4, RO, 0⟩
/- DMA_Q_DELIV (02_frame_tick.md TCK-7) -/
abbrev DMA_Q_DELIV_LAT_CLASS : Fld := ⟨.DMA_Q_DELIV, 0, 7, LK, 0⟩
abbrev DMA_Q_DELIV_FULL_POLICY : Fld := ⟨.DMA_Q_DELIV, 7, 2, LK, 0⟩
/- DMA_Q_LATE (02_frame_tick.md TCK-7) -/
abbrev DMA_Q_LATE_COUNT : Fld := ⟨.DMA_Q_LATE, 0, 32, RC, 0⟩
/- DMA_Q_RING_LO (15_host_interface_dma.md HST-7) -/
abbrev DMA_Q_RING_LO_ADDR : Fld := ⟨.DMA_Q_RING_LO, 0, 32, RW, 0⟩
/- DMA_Q_RING_HI (15_host_interface_dma.md HST-7) -/
abbrev DMA_Q_RING_HI_ADDR : Fld := ⟨.DMA_Q_RING_HI, 0, 32, RW, 0⟩
/- DMA_Q_CPL_LO (15_host_interface_dma.md HST-7) -/
abbrev DMA_Q_CPL_LO_ADDR : Fld := ⟨.DMA_Q_CPL_LO, 0, 32, RW, 0⟩
/- DMA_Q_CPL_HI (15_host_interface_dma.md HST-7) -/
abbrev DMA_Q_CPL_HI_ADDR : Fld := ⟨.DMA_Q_CPL_HI, 0, 32, RW, 0⟩
/- DMA_Q_RING_SIZE (15_host_interface_dma.md HST-7) -/
abbrev DMA_Q_RING_SIZE_RING_EXP : Fld := ⟨.DMA_Q_RING_SIZE, 0, 4, RW, 4⟩
abbrev DMA_Q_RING_SIZE_CPL_EXP : Fld := ⟨.DMA_Q_RING_SIZE, 8, 4, RW, 4⟩
/- DMA_Q_TAIL (15_host_interface_dma.md HST-7) -/
abbrev DMA_Q_TAIL_INDEX : Fld := ⟨.DMA_Q_TAIL, 0, 13, RW, 0⟩
/- DMA_Q_HEAD (15_host_interface_dma.md HST-7) -/
abbrev DMA_Q_HEAD_INDEX : Fld := ⟨.DMA_Q_HEAD, 0, 13, RO, 0⟩
/- DMA_Q_CPL_WR (15_host_interface_dma.md HST-7) -/
abbrev DMA_Q_CPL_WR_INDEX : Fld := ⟨.DMA_Q_CPL_WR, 0, 13, RO, 0⟩
/- DMA_Q_CPL_RD (15_host_interface_dma.md HST-7) -/
abbrev DMA_Q_CPL_RD_INDEX : Fld := ⟨.DMA_Q_CPL_RD, 0, 13, RW, 0⟩
/- DMA_Q_WR_OFS (15_host_interface_dma.md HST-7) -/
abbrev DMA_Q_WR_OFS_OFS : Fld := ⟨.DMA_Q_WR_OFS, 0, 32, RO, 0⟩
/- DMA_Q_STAGED (15_host_interface_dma.md HST-7) -/
abbrev DMA_Q_STAGED_BYTES : Fld := ⟨.DMA_Q_STAGED, 0, 32, RO, 0⟩
/- DMA_Q_LOST_LO (15_host_interface_dma.md HST-7) -/
abbrev DMA_Q_LOST_LO_BYTES : Fld := ⟨.DMA_Q_LOST_LO, 0, 32, RO, 0⟩
/- DMA_Q_LOST_HI (15_host_interface_dma.md HST-7) -/
abbrev DMA_Q_LOST_HI_BYTES : Fld := ⟨.DMA_Q_LOST_HI, 0, 32, RO, 0⟩
/- MGT_MB_CMD (18_management.md MGT-9) -/
abbrev MGT_MB_CMD_CMD : Fld := ⟨.MGT_MB_CMD, 0, 16, RW, 0⟩
/- MGT_MB_DOORBELL (18_management.md MGT-9) -/
abbrev MGT_MB_DOORBELL_TAG : Fld := ⟨.MGT_MB_DOORBELL, 0, 8, WO, 0⟩
/- MGT_MB_STATE (18_management.md MGT-9) -/
abbrev MGT_MB_STATE_STATE : Fld := ⟨.MGT_MB_STATE, 0, 2, RO, 0⟩
abbrev MGT_MB_STATE_OVERRUN : Fld := ⟨.MGT_MB_STATE, 2, 1, W1C, 0⟩
abbrev MGT_MB_STATE_TAG : Fld := ⟨.MGT_MB_STATE, 8, 8, RO, 0⟩
abbrev MGT_MB_STATE_STATUS : Fld := ⟨.MGT_MB_STATE, 16, 8, RO, 0⟩
/- MGT_MB_ACK (18_management.md MGT-9) -/
abbrev MGT_MB_ACK_ACK : Fld := ⟨.MGT_MB_ACK, 0, 1, WO, 0⟩
/- MGT_MB_ARG (18_management.md MGT-9) -/
abbrev MGT_MB_ARG_ARG : Fld := ⟨.MGT_MB_ARG, 0, 32, RW, 0⟩
/- MGT_MB_RES (18_management.md MGT-9) -/
abbrev MGT_MB_RES_RES : Fld := ⟨.MGT_MB_RES, 0, 32, RO, 0⟩
/- MGT_FW_VER (18_management.md MGT-9) -/
abbrev MGT_FW_VER_VERSION : Fld := ⟨.MGT_FW_VER, 0, 32, RO, 0⟩
/- MGT_FW_STATUS (18_management.md MGT-9) -/
abbrev MGT_FW_STATUS_BANK : Fld := ⟨.MGT_FW_STATUS, 0, 1, RO, 0⟩
abbrev MGT_FW_STATUS_TRIAL : Fld := ⟨.MGT_FW_STATUS, 1, 1, RO, 0⟩
abbrev MGT_FW_STATUS_FALLBACK : Fld := ⟨.MGT_FW_STATUS, 2, 1, RO, 0⟩
abbrev MGT_FW_STATUS_ROM_ONLY : Fld := ⟨.MGT_FW_STATUS, 3, 1, RO, 0⟩
abbrev MGT_FW_STATUS_BOOT_COUNT : Fld := ⟨.MGT_FW_STATUS, 16, 16, RO, 0⟩
/- MGT_LOG_SEQ (18_management.md MGT-9) -/
abbrev MGT_LOG_SEQ_SEQ : Fld := ⟨.MGT_LOG_SEQ, 0, 32, RO, 0⟩
/- MGT_LOG_DROP (18_management.md MGT-9) -/
abbrev MGT_LOG_DROP_COUNT : Fld := ⟨.MGT_LOG_DROP, 0, 32, RC, 0⟩
/- MGT_SMB_CFG (18_management.md MGT-9) -/
abbrev MGT_SMB_CFG_ADDR : Fld := ⟨.MGT_SMB_CFG, 0, 7, RO, 0x4a⟩
abbrev MGT_SMB_CFG_EN : Fld := ⟨.MGT_SMB_CFG, 7, 1, RW, 1⟩
abbrev MGT_SMB_CFG_PEC_REQ : Fld := ⟨.MGT_SMB_CFG, 8, 1, RW, 0⟩
/- MGT_PMB_CFG (18_management.md MGT-9) -/
abbrev MGT_PMB_CFG_EN : Fld := ⟨.MGT_PMB_CFG, 0, 1, RW, 0⟩
abbrev MGT_PMB_CFG_SPEED : Fld := ⟨.MGT_PMB_CFG, 1, 1, RW, 1⟩
abbrev MGT_PMB_CFG_POLL : Fld := ⟨.MGT_PMB_CFG, 8, 8, RW, 0xa⟩
/- MGT_DEBUG_STATUS (18_management.md MGT-9) -/
abbrev MGT_DEBUG_STATUS_LOCKED : Fld := ⟨.MGT_DEBUG_STATUS, 0, 1, RO, 0⟩
abbrev MGT_DEBUG_STATUS_UNLOCKED : Fld := ⟨.MGT_DEBUG_STATUS, 1, 1, RO, 0⟩
/- MGT_SENSE (18_management.md MGT-9) -/
abbrev MGT_SENSE_VALUE : Fld := ⟨.MGT_SENSE, 0, 16, RO, 0⟩
abbrev MGT_SENSE_WARN : Fld := ⟨.MGT_SENSE, 16, 1, RO, 0⟩
abbrev MGT_SENSE_CRIT : Fld := ⟨.MGT_SENSE, 17, 1, RO, 0⟩
abbrev MGT_SENSE_WARN_SEEN : Fld := ⟨.MGT_SENSE, 18, 1, W1C, 0⟩
abbrev MGT_SENSE_CRIT_SEEN : Fld := ⟨.MGT_SENSE, 19, 1, W1C, 0⟩
/- MGT_THR (18_management.md MGT-9) -/
abbrev MGT_THR_WARN : Fld := ⟨.MGT_THR, 0, 16, RW, 0⟩
abbrev MGT_THR_CRIT : Fld := ⟨.MGT_THR, 16, 16, RW, 0⟩
/- MGT_PMB_DEV (18_management.md MGT-9) -/
abbrev MGT_PMB_DEV_ADDR : Fld := ⟨.MGT_PMB_DEV, 0, 7, RW, 0⟩
abbrev MGT_PMB_DEV_EN : Fld := ⟨.MGT_PMB_DEV, 7, 1, RW, 0⟩
abbrev MGT_PMB_DEV_PEC : Fld := ⟨.MGT_PMB_DEV, 8, 1, RW, 0⟩
abbrev MGT_PMB_DEV_PAGE : Fld := ⟨.MGT_PMB_DEV, 16, 8, RW, 0xff⟩
/- MGT_PMB_VI (18_management.md MGT-9) -/
abbrev MGT_PMB_VI_VOUT : Fld := ⟨.MGT_PMB_VI, 0, 16, RO, 0⟩
abbrev MGT_PMB_VI_IOUT : Fld := ⟨.MGT_PMB_VI, 16, 16, RO, 0⟩
/- MGT_PMB_TS (18_management.md MGT-9) -/
abbrev MGT_PMB_TS_TEMP : Fld := ⟨.MGT_PMB_TS, 0, 16, RO, 0⟩
abbrev MGT_PMB_TS_STATUS_WORD : Fld := ⟨.MGT_PMB_TS, 16, 16, RO, 0⟩
/- PMU_FORCE_CFG (13_parametric.md PMU-6) -/
abbrev PMU_FORCE_CFG_EN : Fld := ⟨.PMU_FORCE_CFG, 0, 1, RW, 0⟩
abbrev PMU_FORCE_CFG_UPD : Fld := ⟨.PMU_FORCE_CFG, 1, 2, RW, 0⟩
/- PMU_FORCE_CODE (13_parametric.md PMU-6) -/
abbrev PMU_FORCE_CODE_CODE : Fld := ⟨.PMU_FORCE_CODE, 0, 18, RW, 0⟩
/- PMU_FORCE_NOW (13_parametric.md PMU-6) -/
abbrev PMU_FORCE_NOW_CODE : Fld := ⟨.PMU_FORCE_NOW, 0, 18, RO, 0⟩
/- PMU_FORCE_TTS_LO (13_parametric.md PMU-6) -/
abbrev PMU_FORCE_TTS_LO_TTS : Fld := ⟨.PMU_FORCE_TTS_LO, 0, 32, RO, 0⟩
/- PMU_FORCE_TTS_HI (13_parametric.md PMU-6) -/
abbrev PMU_FORCE_TTS_HI_TTS : Fld := ⟨.PMU_FORCE_TTS_HI, 0, 32, RO, 0⟩
/- PMU_FORCE_OUT (13_parametric.md PMU-6) -/
abbrev PMU_FORCE_OUT_OUT : Fld := ⟨.PMU_FORCE_OUT, 0, 4, RO, 0⟩
/- PMU_MC_CFG (13_parametric.md PMU-7) -/
abbrev PMU_MC_CFG_EN : Fld := ⟨.PMU_MC_CFG, 0, 1, RW, 1⟩
abbrev PMU_MC_CFG_LP : Fld := ⟨.PMU_MC_CFG, 1, 1, RW, 0⟩
abbrev PMU_MC_CFG_XCHK : Fld := ⟨.PMU_MC_CFG, 2, 1, RW, 0⟩
/- PMU_SEQ_CTRL (13_parametric.md PMU-7) -/
abbrev PMU_SEQ_CTRL_RUN : Fld := ⟨.PMU_SEQ_CTRL, 0, 1, SH, 0⟩
abbrev PMU_SEQ_CTRL_REPEAT : Fld := ⟨.PMU_SEQ_CTRL, 1, 1, SH, 0⟩
abbrev PMU_SEQ_CTRL_START : Fld := ⟨.PMU_SEQ_CTRL, 2, 1, SH, 0⟩
abbrev PMU_SEQ_CTRL_LEN : Fld := ⟨.PMU_SEQ_CTRL, 4, 4, SH, 0⟩
abbrev PMU_SEQ_CTRL_TDIV : Fld := ⟨.PMU_SEQ_CTRL, 8, 4, SH, 0⟩
/- PMU_SEQ_STATUS (13_parametric.md PMU-7) -/
abbrev PMU_SEQ_STATUS_RUNNING : Fld := ⟨.PMU_SEQ_STATUS, 0, 1, RO, 0⟩
abbrev PMU_SEQ_STATUS_ACTIVITY : Fld := ⟨.PMU_SEQ_STATUS, 1, 2, RO, 0⟩
abbrev PMU_SEQ_STATUS_ENTRY : Fld := ⟨.PMU_SEQ_STATUS, 3, 4, RO, 0⟩
abbrev PMU_SEQ_STATUS_INJ_QUEUED : Fld := ⟨.PMU_SEQ_STATUS, 7, 3, RO, 0⟩
abbrev PMU_SEQ_STATUS_CAL_PENDING : Fld := ⟨.PMU_SEQ_STATUS, 10, 1, RO, 0⟩
abbrev PMU_SEQ_STATUS_CAL_VALID : Fld := ⟨.PMU_SEQ_STATUS, 11, 1, RO, 1⟩
abbrev PMU_SEQ_STATUS_STREAMING : Fld := ⟨.PMU_SEQ_STATUS, 12, 1, RO, 0⟩
/- PMU_SEQ_SKIP (13_parametric.md PMU-7) -/
abbrev PMU_SEQ_SKIP_COUNT : Fld := ⟨.PMU_SEQ_SKIP, 0, 32, RC, 0⟩
/- PMU_PACE (13_parametric.md PMU-7) -/
abbrev PMU_PACE_NS : Fld := ⟨.PMU_PACE, 0, 32, LK, 0⟩
/- PMU_ABORT_CNT (13_parametric.md PMU-7) -/
abbrev PMU_ABORT_CNT_COUNT : Fld := ⟨.PMU_ABORT_CNT, 0, 32, RC, 0⟩
/- PMU_INJ_REQ (13_parametric.md PMU-7) -/
abbrev PMU_INJ_REQ_REQ : Fld := ⟨.PMU_INJ_REQ, 0, 22, WO, 0⟩
abbrev PMU_INJ_REQ_GO : Fld := ⟨.PMU_INJ_REQ, 22, 1, WO, 0⟩
/- PMU_INJ_TMPL (13_parametric.md PMU-7) -/
abbrev PMU_INJ_TMPL_REQ : Fld := ⟨.PMU_INJ_TMPL, 0, 22, RW, 0x30⟩
/- PMU_INJ_TRIG (13_parametric.md PMU-7) -/
abbrev PMU_INJ_TRIG_SRC : Fld := ⟨.PMU_INJ_TRIG, 0, 4, RW, 0xf⟩
/- PMU_INJ_DROP (13_parametric.md PMU-7) -/
abbrev PMU_INJ_DROP_REFUSED : Fld := ⟨.PMU_INJ_DROP, 0, 16, RC, 0⟩
abbrev PMU_INJ_DROP_LOST : Fld := ⟨.PMU_INJ_DROP, 16, 16, RC, 0⟩
/- PMU_CAL_CTRL (13_parametric.md PMU-7) -/
abbrev PMU_CAL_CTRL_REQ : Fld := ⟨.PMU_CAL_CTRL, 0, 1, WO, 0⟩
/- PMU_LAST_TTS_LO (13_parametric.md PMU-7) -/
abbrev PMU_LAST_TTS_LO_TTS : Fld := ⟨.PMU_LAST_TTS_LO, 0, 32, RO, 0⟩
/- PMU_LAST_TTS_HI (13_parametric.md PMU-7) -/
abbrev PMU_LAST_TTS_HI_TTS : Fld := ⟨.PMU_LAST_TTS_HI, 0, 32, RO, 0⟩
/- PMU_LAST_VALUE (13_parametric.md PMU-7) -/
abbrev PMU_LAST_VALUE_VALUE : Fld := ⟨.PMU_LAST_VALUE, 0, 32, RO, 0⟩
/- PMU_LAST_INFO (13_parametric.md PMU-7) -/
abbrev PMU_LAST_INFO_INFO : Fld := ⟨.PMU_LAST_INFO, 0, 32, RO, 0⟩
/- PMU_INJ_RES_TTS_LO (13_parametric.md PMU-7) -/
abbrev PMU_INJ_RES_TTS_LO_TTS : Fld := ⟨.PMU_INJ_RES_TTS_LO, 0, 32, RO, 0⟩
/- PMU_INJ_RES_TTS_HI (13_parametric.md PMU-7) -/
abbrev PMU_INJ_RES_TTS_HI_TTS : Fld := ⟨.PMU_INJ_RES_TTS_HI, 0, 32, RO, 0⟩
/- PMU_INJ_RES_VALUE (13_parametric.md PMU-7) -/
abbrev PMU_INJ_RES_VALUE_VALUE : Fld := ⟨.PMU_INJ_RES_VALUE, 0, 32, RO, 0⟩
/- PMU_INJ_RES_INFO (13_parametric.md PMU-7) -/
abbrev PMU_INJ_RES_INFO_INFO : Fld := ⟨.PMU_INJ_RES_INFO, 0, 31, RO, 0⟩
abbrev PMU_INJ_RES_INFO_VALID : Fld := ⟨.PMU_INJ_RES_INFO, 31, 1, RO, 0⟩
/- PMU_FILT (13_parametric.md PMU-7) -/
abbrev PMU_FILT_K : Fld := ⟨.PMU_FILT, 0, 3, RW, 0⟩
abbrev PMU_FILT_OSR : Fld := ⟨.PMU_FILT, 4, 22, RW, 0⟩
/- PMU_SEQ_ENTRY (13_parametric.md PMU-7) -/
abbrev PMU_SEQ_ENTRY_INPUT : Fld := ⟨.PMU_SEQ_ENTRY, 0, 6, RW, 0x30⟩
abbrev PMU_SEQ_ENTRY_GAIN : Fld := ⟨.PMU_SEQ_ENTRY, 6, 3, RW, 0⟩
abbrev PMU_SEQ_ENTRY_FILT : Fld := ⟨.PMU_SEQ_ENTRY, 9, 2, RW, 0⟩
abbrev PMU_SEQ_ENTRY_TWIN : Fld := ⟨.PMU_SEQ_ENTRY, 11, 1, RW, 0⟩
abbrev PMU_SEQ_ENTRY_DELAY : Fld := ⟨.PMU_SEQ_ENTRY, 12, 10, RW, 0⟩
/- PMU_XCHK_LIMIT (13_parametric.md PMU-7) -/
abbrev PMU_XCHK_LIMIT_LSB : Fld := ⟨.PMU_XCHK_LIMIT, 0, 24, RW, 0x40⟩
/- PMU_XCHK_CNT (13_parametric.md PMU-7) -/
abbrev PMU_XCHK_CNT_COUNT : Fld := ⟨.PMU_XCHK_CNT, 0, 32, RC, 0⟩
/- PMU_TWIN_CFG (13_parametric.md PMU-7) -/
abbrev PMU_TWIN_CFG_EN : Fld := ⟨.PMU_TWIN_CFG, 0, 1, RW, 0⟩
abbrev PMU_TWIN_CFG_WINDOW : Fld := ⟨.PMU_TWIN_CFG, 1, 31, RW, 0x10000⟩
/- PMU_TWIN_LIMIT (13_parametric.md PMU-7) -/
abbrev PMU_TWIN_LIMIT_LSB : Fld := ⟨.PMU_TWIN_LIMIT, 0, 24, RW, 0x100⟩
/- PMU_TWIN_STATUS (13_parametric.md PMU-7) -/
abbrev PMU_TWIN_STATUS_NOPARTNER : Fld := ⟨.PMU_TWIN_STATUS, 0, 1, RO, 1⟩
/- PMU_TWIN_FAIL_CNT (13_parametric.md PMU-7) -/
abbrev PMU_TWIN_FAIL_CNT_COUNT : Fld := ⟨.PMU_TWIN_FAIL_CNT, 0, 32, RC, 0⟩
/- PMU_TWIN_MISS_CNT (13_parametric.md PMU-7) -/
abbrev PMU_TWIN_MISS_CNT_COUNT : Fld := ⟨.PMU_TWIN_MISS_CNT, 0, 32, RC, 0⟩
/- RAS_CTRL (14_raster_engine.md RAS-1) -/
abbrev RAS_CTRL_EN : Fld := ⟨.RAS_CTRL, 0, 1, RW, 0⟩
abbrev RAS_CTRL_OUT_DSI : Fld := ⟨.RAS_CTRL, 1, 1, RW, 0⟩
abbrev RAS_CTRL_OUT_HFO : Fld := ⟨.RAS_CTRL, 2, 1, RW, 0⟩
abbrev RAS_CTRL_TE_MODE : Fld := ⟨.RAS_CTRL, 3, 1, RW, 0⟩
abbrev RAS_CTRL_HOLD : Fld := ⟨.RAS_CTRL, 4, 1, RW, 0⟩
/- RAS_TIMING_H (14_raster_engine.md RAS-1) -/
abbrev RAS_TIMING_H_HACTIVE : Fld := ⟨.RAS_TIMING_H, 0, 12, RW, 0x500⟩
abbrev RAS_TIMING_H_HBLANK : Fld := ⟨.RAS_TIMING_H, 16, 12, RW, 0xa0⟩
/- RAS_TIMING_V (14_raster_engine.md RAS-1) -/
abbrev RAS_TIMING_V_VACTIVE : Fld := ⟨.RAS_TIMING_V, 0, 12, RW, 0x320⟩
abbrev RAS_TIMING_V_VBLANK : Fld := ⟨.RAS_TIMING_V, 16, 12, RW, 0x17⟩
/- RAS_FMT (14_raster_engine.md RAS-1) -/
abbrev RAS_FMT_BPP : Fld := ⟨.RAS_FMT, 0, 1, RW, 0⟩
/- RAS_DSI_CFG (14_raster_engine.md RAS-1) -/
abbrev RAS_DSI_CFG_LANES : Fld := ⟨.RAS_DSI_CFG, 0, 2, RW, 2⟩
abbrev RAS_DSI_CFG_RATE : Fld := ⟨.RAS_DSI_CFG, 2, 12, RW, 0x3e8⟩
/- RAS_DSI_CMD (14_raster_engine.md RAS-1) -/
abbrev RAS_DSI_CMD_DT : Fld := ⟨.RAS_DSI_CMD, 0, 6, RW, 0⟩
abbrev RAS_DSI_CMD_READ : Fld := ⟨.RAS_DSI_CMD, 6, 1, RW, 0⟩
abbrev RAS_DSI_CMD_GO : Fld := ⟨.RAS_DSI_CMD, 7, 1, WO, 0⟩
abbrev RAS_DSI_CMD_LEN : Fld := ⟨.RAS_DSI_CMD, 8, 5, RW, 0⟩
/- RAS_DSI_RESP (14_raster_engine.md RAS-1) -/
abbrev RAS_DSI_RESP_DATA : Fld := ⟨.RAS_DSI_RESP, 0, 16, RO, 0⟩
abbrev RAS_DSI_RESP_DONE : Fld := ⟨.RAS_DSI_RESP, 16, 1, W1C, 0⟩
abbrev RAS_DSI_RESP_ERR : Fld := ⟨.RAS_DSI_RESP, 17, 1, W1C, 0⟩
/- RAS_DSI_PAYLOAD (14_raster_engine.md R319) -/
abbrev RAS_DSI_PAYLOAD_BYTES : Fld := ⟨.RAS_DSI_PAYLOAD, 0, 32, RW, 0⟩
/- RAS_REFRESH (14_raster_engine.md RAS-1) -/
abbrev RAS_REFRESH_STATIC_DIV : Fld := ⟨.RAS_REFRESH, 0, 8, RW, 1⟩
/- RAS_STATUS (14_raster_engine.md RAS-1) -/
abbrev RAS_STATUS_STATE : Fld := ⟨.RAS_STATUS, 0, 2, RO, 0⟩
abbrev RAS_STATUS_TIMING_ERR : Fld := ⟨.RAS_STATUS, 2, 1, W1C, 0⟩
abbrev RAS_STATUS_TE_LOST : Fld := ⟨.RAS_STATUS, 3, 1, RO, 0⟩
/- RAS_PIC_FRAME_LO (14_raster_engine.md RAS-1) -/
abbrev RAS_PIC_FRAME_LO_FRAME : Fld := ⟨.RAS_PIC_FRAME_LO, 0, 32, RO, 0⟩
/- RAS_PIC_FRAME_HI (14_raster_engine.md RAS-1) -/
abbrev RAS_PIC_FRAME_HI_FRAME : Fld := ⟨.RAS_PIC_FRAME_HI, 0, 16, RO, 0⟩
/- RAS_PIC_INFO (14_raster_engine.md RAS-1) -/
abbrev RAS_PIC_INFO_SEQ : Fld := ⟨.RAS_PIC_INFO, 0, 24, RO, 0⟩
abbrev RAS_PIC_INFO_FLAGS : Fld := ⟨.RAS_PIC_INFO, 24, 3, RO, 0⟩
/- RAS_HFO_ADDR_LO (14_raster_engine.md RAS-1) -/
abbrev RAS_HFO_ADDR_LO_ADDR : Fld := ⟨.RAS_HFO_ADDR_LO, 0, 32, RW, 0⟩
/- RAS_HFO_ADDR_HI (14_raster_engine.md RAS-1) -/
abbrev RAS_HFO_ADDR_HI_ADDR : Fld := ⟨.RAS_HFO_ADDR_HI, 0, 32, RW, 0⟩
/- RAS_HFO_CFG (14_raster_engine.md RAS-1) -/
abbrev RAS_HFO_CFG_COUNT : Fld := ⟨.RAS_HFO_CFG, 0, 2, RW, 0⟩
abbrev RAS_HFO_CFG_PITCH : Fld := ⟨.RAS_HFO_CFG, 2, 18, RW, 0⟩
/- RAS_HFO_STATUS (14_raster_engine.md RAS-1) -/
abbrev RAS_HFO_STATUS_LAST : Fld := ⟨.RAS_HFO_STATUS, 0, 2, RO, 0⟩
/- RAS_HFO_DROP (14_raster_engine.md RAS-1) -/
abbrev RAS_HFO_DROP_COUNT : Fld := ⟨.RAS_HFO_DROP, 0, 32, RC, 0⟩
/- RAS_BUF_REL (14_raster_engine.md RAS-2) -/
abbrev RAS_BUF_REL_BUF : Fld := ⟨.RAS_BUF_REL, 0, 4, WO, 0⟩
/- RAS_BUF_REL_RESULT (14_raster_engine.md RAS-2) -/
abbrev RAS_BUF_REL_RESULT_CODE : Fld := ⟨.RAS_BUF_REL_RESULT, 0, 2, RO, 0⟩
/- RAS_LUT_SEL (14_raster_engine.md RAS-2) -/
abbrev RAS_LUT_SEL_LAYER : Fld := ⟨.RAS_LUT_SEL, 0, 3, RW, 0⟩
/- RAS_CRC_TL (14_raster_engine.md RAS-1) -/
abbrev RAS_CRC_TL_X0 : Fld := ⟨.RAS_CRC_TL, 0, 12, RW, 0⟩
abbrev RAS_CRC_TL_Y0 : Fld := ⟨.RAS_CRC_TL, 16, 12, RW, 0⟩
/- RAS_CRC_BR (14_raster_engine.md RAS-1) -/
abbrev RAS_CRC_BR_X1 : Fld := ⟨.RAS_CRC_BR, 0, 12, RW, 0⟩
abbrev RAS_CRC_BR_Y1 : Fld := ⟨.RAS_CRC_BR, 16, 12, RW, 0⟩
/- RAS_CRC_CFG (14_raster_engine.md RAS-1) -/
abbrev RAS_CRC_CFG_EN : Fld := ⟨.RAS_CRC_CFG, 0, 1, RW, 0⟩
abbrev RAS_CRC_CFG_COMPARE : Fld := ⟨.RAS_CRC_CFG, 1, 1, RW, 0⟩
/- RAS_CRC_EXP (14_raster_engine.md RAS-1) -/
abbrev RAS_CRC_EXP_CRC : Fld := ⟨.RAS_CRC_EXP, 0, 32, RW, 0⟩
/- RAS_CRC_VAL (14_raster_engine.md RAS-1) -/
abbrev RAS_CRC_VAL_CRC : Fld := ⟨.RAS_CRC_VAL, 0, 32, RO, 0⟩
/- RAS_CRC_FAIL (14_raster_engine.md RAS-1) -/
abbrev RAS_CRC_FAIL_COUNT : Fld := ⟨.RAS_CRC_FAIL, 0, 32, RC, 0⟩
/- RAS_LAYER_SRC (14_raster_engine.md RAS-2) -/
abbrev RAS_LAYER_SRC_KIND : Fld := ⟨.RAS_LAYER_SRC, 0, 2, LK, 0⟩
abbrev RAS_LAYER_SRC_UNIT : Fld := ⟨.RAS_LAYER_SRC, 8, 8, LK, 0⟩
abbrev RAS_LAYER_SRC_Z : Fld := ⟨.RAS_LAYER_SRC, 16, 3, LK, 0⟩
abbrev RAS_LAYER_SRC_OUTPUTS : Fld := ⟨.RAS_LAYER_SRC, 19, 2, LK, 0⟩
/- RAS_LAYER_CFG (14_raster_engine.md RAS-2) -/
abbrev RAS_LAYER_CFG_EN : Fld := ⟨.RAS_LAYER_CFG, 0, 1, RW, 0⟩
abbrev RAS_LAYER_CFG_ALPHA : Fld := ⟨.RAS_LAYER_CFG, 8, 8, RW, 0xff⟩
abbrev RAS_LAYER_CFG_SX : Fld := ⟨.RAS_LAYER_CFG, 16, 3, RW, 0⟩
abbrev RAS_LAYER_CFG_SY : Fld := ⟨.RAS_LAYER_CFG, 19, 3, RW, 0⟩
abbrev RAS_LAYER_CFG_MAP : Fld := ⟨.RAS_LAYER_CFG, 22, 1, RW, 0⟩
abbrev RAS_LAYER_CFG_SHIFT : Fld := ⟨.RAS_LAYER_CFG, 23, 5, RW, 0⟩
/- RAS_LAYER_POS (14_raster_engine.md RAS-2) -/
abbrev RAS_LAYER_POS_POSX : Fld := ⟨.RAS_LAYER_POS, 0, 12, RW, 0⟩
abbrev RAS_LAYER_POS_POSY : Fld := ⟨.RAS_LAYER_POS, 16, 12, RW, 0⟩
/- RAS_LAYER_BUF (14_raster_engine.md RAS-2) -/
abbrev RAS_LAYER_BUF_BUF : Fld := ⟨.RAS_LAYER_BUF, 0, 4, RW, 0⟩
/- RAS_LAYER_URG (14_raster_engine.md RAS-2) -/
abbrev RAS_LAYER_URG_WMARK : Fld := ⟨.RAS_LAYER_URG, 0, 12, RW, 0x200⟩
/- RAS_LAYER_STATUS (14_raster_engine.md RAS-2) -/
abbrev RAS_LAYER_STATUS_ACTIVE : Fld := ⟨.RAS_LAYER_STATUS, 0, 1, RO, 0⟩
abbrev RAS_LAYER_STATUS_NOSRC : Fld := ⟨.RAS_LAYER_STATUS, 1, 1, RO, 0⟩
/- RAS_UNDERRUN (14_raster_engine.md RAS-2) -/
abbrev RAS_UNDERRUN_COUNT : Fld := ⟨.RAS_UNDERRUN, 0, 32, RC, 0⟩
/- RAS_BUF_ADDR_LO (14_raster_engine.md RAS-2) -/
abbrev RAS_BUF_ADDR_LO_ADDR : Fld := ⟨.RAS_BUF_ADDR_LO, 0, 32, RW, 0⟩
/- RAS_BUF_ADDR_HI (14_raster_engine.md RAS-2) -/
abbrev RAS_BUF_ADDR_HI_ADDR : Fld := ⟨.RAS_BUF_ADDR_HI, 0, 32, RW, 0⟩
/- RAS_BUF_GEOM (14_raster_engine.md RAS-2) -/
abbrev RAS_BUF_GEOM_W : Fld := ⟨.RAS_BUF_GEOM, 0, 12, RW, 0⟩
abbrev RAS_BUF_GEOM_H : Fld := ⟨.RAS_BUF_GEOM, 16, 12, RW, 0⟩
/- RAS_BUF_PITCH (14_raster_engine.md RAS-2) -/
abbrev RAS_BUF_PITCH_PITCH : Fld := ⟨.RAS_BUF_PITCH, 0, 18, RW, 0⟩
abbrev RAS_BUF_PITCH_FMT : Fld := ⟨.RAS_BUF_PITCH, 31, 1, RW, 0⟩
/- RAS_BUF_STATUS (14_raster_engine.md RAS-2) -/
abbrev RAS_BUF_STATUS_STATE : Fld := ⟨.RAS_BUF_STATUS, 0, 2, RO, 0⟩
/- HUB_DIE_ID (21_register_reference.md REG-2) -/
abbrev HUB_DIE_ID_DIE : Fld := ⟨.HUB_DIE_ID, 0, 1, RO, 0⟩
abbrev HUB_DIE_ID_STEPPING : Fld := ⟨.HUB_DIE_ID, 8, 8, RO, 0x21⟩
/- HUB_DIE_STATUS (21_register_reference.md REG-3) -/
abbrev HUB_DIE_STATUS_AWAKE : Fld := ⟨.HUB_DIE_STATUS, 0, 1, RO, 1⟩
abbrev HUB_DIE_STATUS_SPLL_SETTLED : Fld := ⟨.HUB_DIE_STATUS, 1, 1, RO, 0⟩
abbrev HUB_DIE_STATUS_STACK_OK : Fld := ⟨.HUB_DIE_STATUS, 2, 1, RO, 0⟩
abbrev HUB_DIE_STATUS_THERM_HOLD : Fld := ⟨.HUB_DIE_STATUS, 3, 1, RO, 0⟩
abbrev HUB_DIE_STATUS_TJ : Fld := ⟨.HUB_DIE_STATUS, 16, 16, RO, 0⟩
/- AFE_CFG (06_analog_inputs.md AFE-8) -/
abbrev AFE_CFG_RANGE : Fld := ⟨.AFE_CFG, 0, 2, SH, 1⟩
abbrev AFE_CFG_FILTER : Fld := ⟨.AFE_CFG, 2, 2, SH, 0⟩
abbrev AFE_CFG_TERM : Fld := ⟨.AFE_CFG, 4, 1, RW, 0⟩
abbrev AFE_CFG_OVR_HOLD : Fld := ⟨.AFE_CFG, 5, 1, RW, 1⟩
/- AFE_OFFSET (06_analog_inputs.md AFE-8) -/
abbrev AFE_OFFSET_VALUE : Fld := ⟨.AFE_OFFSET, 0, 16, SH, 0⟩
/- AFE_VTT (06_analog_inputs.md AFE-8) -/
abbrev AFE_VTT_MV : Fld := ⟨.AFE_VTT, 0, 12, RW, 0⟩
/- AFE_STATUS (06_analog_inputs.md AFE-8) -/
abbrev AFE_STATUS_OVR : Fld := ⟨.AFE_STATUS, 0, 1, W1C, 0⟩
abbrev AFE_STATUS_PEAK : Fld := ⟨.AFE_STATUS, 1, 2, RC, 0⟩
abbrev AFE_STATUS_CM_ERR : Fld := ⟨.AFE_STATUS, 3, 1, RO, 0⟩
abbrev AFE_STATUS_CM_SEEN : Fld := ⟨.AFE_STATUS, 4, 1, W1C, 0⟩
abbrev AFE_STATUS_DISCONNECTED : Fld := ⟨.AFE_STATUS, 5, 1, RO, 0⟩
abbrev AFE_STATUS_SETTLING : Fld := ⟨.AFE_STATUS, 6, 1, RO, 0⟩
/- AFE_OVR_CNT (06_analog_inputs.md AFE-8) -/
abbrev AFE_OVR_CNT_COUNT : Fld := ⟨.AFE_OVR_CNT, 0, 32, RC, 0⟩
/- AFE_CM_MEAS (06_analog_inputs.md AFE-8) -/
abbrev AFE_CM_MEAS_CM : Fld := ⟨.AFE_CM_MEAS, 0, 16, RO, 0⟩
/- ILV_MODE (07_interleaved_conversion.md ILV-8) -/
abbrev ILV_MODE_MODE : Fld := ⟨.ILV_MODE, 0, 2, LK, 0⟩
/- ILV_CAL_CTRL (07_interleaved_conversion.md ILV-8) -/
abbrev ILV_CAL_CTRL_FREEZE : Fld := ⟨.ILV_CAL_CTRL, 0, 1, RW, 0⟩
abbrev ILV_CAL_CTRL_ACT_MIN : Fld := ⟨.ILV_CAL_CTRL, 4, 8, RW, 8⟩
/- ILV_LANE_STATUS (07_interleaved_conversion.md ILV-8) -/
abbrev ILV_LANE_STATUS_CAL_STALE : Fld := ⟨.ILV_LANE_STATUS, 0, 1, RO, 1⟩
abbrev ILV_LANE_STATUS_PAUSED : Fld := ⟨.ILV_LANE_STATUS, 1, 1, RO, 0⟩
abbrev ILV_LANE_STATUS_FROZEN : Fld := ⟨.ILV_LANE_STATUS, 2, 1, RO, 0⟩
abbrev ILV_LANE_STATUS_PHASE : Fld := ⟨.ILV_LANE_STATUS, 3, 2, RO, 0⟩
abbrev ILV_LANE_STATUS_SPARE : Fld := ⟨.ILV_LANE_STATUS, 5, 3, RO, 4⟩
abbrev ILV_LANE_STATUS_ROT_COUNT : Fld := ⟨.ILV_LANE_STATUS, 8, 3, RO, 0⟩
/- ILV_SLICE_MAP (07_interleaved_conversion.md ILV-8) -/
abbrev ILV_SLICE_MAP_POS0 : Fld := ⟨.ILV_SLICE_MAP, 0, 3, RO, 0⟩
abbrev ILV_SLICE_MAP_POS1 : Fld := ⟨.ILV_SLICE_MAP, 3, 3, RO, 1⟩
abbrev ILV_SLICE_MAP_POS2 : Fld := ⟨.ILV_SLICE_MAP, 6, 3, RO, 2⟩
abbrev ILV_SLICE_MAP_POS3 : Fld := ⟨.ILV_SLICE_MAP, 9, 3, RO, 3⟩
/- ILV_HANDOVER_LO (07_interleaved_conversion.md ILV-8) -/
abbrev ILV_HANDOVER_LO_FRAME : Fld := ⟨.ILV_HANDOVER_LO, 0, 32, RO, 0⟩
/- ILV_HANDOVER_HI (07_interleaved_conversion.md ILV-8) -/
abbrev ILV_HANDOVER_HI_FRAME : Fld := ⟨.ILV_HANDOVER_HI, 0, 16, RO, 0⟩
/- ILV_CAL_RATE (07_interleaved_conversion.md ILV-8) -/
abbrev ILV_CAL_RATE_RATE : Fld := ⟨.ILV_CAL_RATE, 0, 23, RO, 0x7a1200⟩
/- ILV_CAL_SKIP (07_interleaved_conversion.md ILV-8) -/
abbrev ILV_CAL_SKIP_COUNT : Fld := ⟨.ILV_CAL_SKIP, 0, 16, RC, 0⟩
abbrev ILV_CAL_SKIP_RUN : Fld := ⟨.ILV_CAL_SKIP, 16, 8, RO, 0⟩
/- ILV_CAL_DEV (07_interleaved_conversion.md ILV-8) -/
abbrev ILV_CAL_DEV_SKEW : Fld := ⟨.ILV_CAL_DEV, 0, 8, RC, 0⟩
abbrev ILV_CAL_DEV_GAIN : Fld := ⟨.ILV_CAL_DEV, 8, 8, RC, 0⟩
abbrev ILV_CAL_DEV_OFS : Fld := ⟨.ILV_CAL_DEV, 16, 8, RC, 0⟩
/- TRG_LEVEL (08_trigger.md TRG-5) -/
abbrev TRG_LEVEL_HI : Fld := ⟨.TRG_LEVEL, 0, 12, SH, 0x100⟩
abbrev TRG_LEVEL_LO : Fld := ⟨.TRG_LEVEL, 16, 12, SH, 0xf00⟩
/- TRG_HYST (08_trigger.md TRG-5) -/
abbrev TRG_HYST_HI_HYST : Fld := ⟨.TRG_HYST, 0, 8, SH, 8⟩
abbrev TRG_HYST_LO_HYST : Fld := ⟨.TRG_HYST, 8, 8, SH, 8⟩
/- TRG_COMP_STATE (08_trigger.md TRG-5) -/
abbrev TRG_COMP_STATE_HI : Fld := ⟨.TRG_COMP_STATE, 0, 1, RO, 0⟩
abbrev TRG_COMP_STATE_LO : Fld := ⟨.TRG_COMP_STATE, 1, 1, RO, 0⟩
/- TRG_GEN_SRC (08_trigger.md TRG-6) -/
abbrev TRG_GEN_SRC_SRC_CH : Fld := ⟨.TRG_GEN_SRC, 0, 8, LK, 0xff⟩
abbrev TRG_GEN_SRC_OUT_MASK : Fld := ⟨.TRG_GEN_SRC, 8, 5, LK, 0⟩
/- TRG_GEN_REGIONS (08_trigger.md TRG-6) -/
abbrev TRG_GEN_REGIONS_REGION_MASK : Fld := ⟨.TRG_GEN_REGIONS, 0, 32, LK, 0⟩
/- TRG_GEN_CFG (08_trigger.md TRG-6) -/
abbrev TRG_GEN_CFG_EN : Fld := ⟨.TRG_GEN_CFG, 0, 1, SH, 0⟩
abbrev TRG_GEN_CFG_TYPE : Fld := ⟨.TRG_GEN_CFG, 1, 3, SH, 0⟩
abbrev TRG_GEN_CFG_SET : Fld := ⟨.TRG_GEN_CFG, 4, 2, SH, 0⟩
abbrev TRG_GEN_CFG_SLOPE : Fld := ⟨.TRG_GEN_CFG, 6, 2, SH, 0⟩
abbrev TRG_GEN_CFG_QUAL : Fld := ⟨.TRG_GEN_CFG, 8, 3, SH, 0⟩
abbrev TRG_GEN_CFG_XSEL : Fld := ⟨.TRG_GEN_CFG, 11, 5, SH, 0⟩
abbrev TRG_GEN_CFG_HO_MODE : Fld := ⟨.TRG_GEN_CFG, 16, 2, SH, 0⟩
abbrev TRG_GEN_CFG_SEQ_MODE : Fld := ⟨.TRG_GEN_CFG, 18, 2, SH, 0⟩
abbrev TRG_GEN_CFG_SEQ_A : Fld := ⟨.TRG_GEN_CFG, 20, 2, SH, 0⟩
/- TRG_GEN_T1 (08_trigger.md TRG-6) -/
abbrev TRG_GEN_T1_T1 : Fld := ⟨.TRG_GEN_T1, 0, 32, SH, 0⟩
/- TRG_GEN_T2 (08_trigger.md TRG-6) -/
abbrev TRG_GEN_T2_T2 : Fld := ⟨.TRG_GEN_T2, 0, 32, SH, 0⟩
/- TRG_GEN_PAT (08_trigger.md TRG-6) -/
abbrev TRG_GEN_PAT_MASK : Fld := ⟨.TRG_GEN_PAT, 0, 8, SH, 0⟩
abbrev TRG_GEN_PAT_VALUE : Fld := ⟨.TRG_GEN_PAT, 8, 8, SH, 0⟩
/- TRG_GEN_HOLDOFF (08_trigger.md TRG-6) -/
abbrev TRG_GEN_HOLDOFF_TIME : Fld := ⟨.TRG_GEN_HOLDOFF, 0, 32, SH, 0⟩
/- TRG_GEN_HOLDCNT (08_trigger.md TRG-6) -/
abbrev TRG_GEN_HOLDCNT_COUNT : Fld := ⟨.TRG_GEN_HOLDCNT, 0, 24, SH, 0⟩
/- TRG_GEN_SEQ_MIN (08_trigger.md TRG-6) -/
abbrev TRG_GEN_SEQ_MIN_MIN : Fld := ⟨.TRG_GEN_SEQ_MIN, 0, 32, SH, 0⟩
/- TRG_GEN_SEQ_MAX (08_trigger.md TRG-6) -/
abbrev TRG_GEN_SEQ_MAX_MAX : Fld := ⟨.TRG_GEN_SEQ_MAX, 0, 32, SH, 0⟩
/- TRG_GEN_SEQ_N (08_trigger.md TRG-6) -/
abbrev TRG_GEN_SEQ_N_N : Fld := ⟨.TRG_GEN_SEQ_N, 0, 16, SH, 1⟩
/- TRG_GEN_STATUS (08_trigger.md TRG-6) -/
abbrev TRG_GEN_STATUS_FIRED : Fld := ⟨.TRG_GEN_STATUS, 0, 1, W1C, 0⟩
abbrev TRG_GEN_STATUS_SEQ_LOOP : Fld := ⟨.TRG_GEN_STATUS, 1, 1, RO, 0⟩
abbrev TRG_GEN_STATUS_NO_SOURCE : Fld := ⟨.TRG_GEN_STATUS, 2, 1, RO, 0⟩
/- TRG_GEN_CNT (08_trigger.md TRG-6) -/
abbrev TRG_GEN_CNT_COUNT : Fld := ⟨.TRG_GEN_CNT, 0, 32, RC, 0⟩
/- TRG_GEN_LOST (08_trigger.md TRG-6) -/
abbrev TRG_GEN_LOST_COUNT : Fld := ⟨.TRG_GEN_LOST, 0, 32, RC, 0⟩
/- TRG_GEN_TTS_LO (08_trigger.md TRG-6) -/
abbrev TRG_GEN_TTS_LO_TTS : Fld := ⟨.TRG_GEN_TTS_LO, 0, 32, RO, 0⟩
/- TRG_GEN_TTS_HI (08_trigger.md TRG-6) -/
abbrev TRG_GEN_TTS_HI_TTS : Fld := ⟨.TRG_GEN_TTS_HI, 0, 32, RO, 0⟩
/- TRG_FORCE (08_trigger.md TRG-6) -/
abbrev TRG_FORCE_FORCE : Fld := ⟨.TRG_FORCE, 0, 4, WO, 0⟩
/- RED_CFG (10_reduction_and_filtering.md RED-5) -/
abbrev RED_CFG_EN : Fld := ⟨.RED_CFG, 0, 1, SH, 0⟩
abbrev RED_CFG_NST : Fld := ⟨.RED_CFG, 1, 2, SH, 0⟩
/- RED_SRC (10_reduction_and_filtering.md RED-5) -/
abbrev RED_SRC_CH : Fld := ⟨.RED_SRC, 0, 4, SH, 0⟩
/- RED_LEN (10_reduction_and_filtering.md RED-5) -/
abbrev RED_LEN_L : Fld := ⟨.RED_LEN, 0, 17, SH, 1⟩
/- RED_DEC (10_reduction_and_filtering.md RED-5) -/
abbrev RED_DEC_D : Fld := ⟨.RED_DEC, 0, 17, SH, 1⟩
/- RED_PHASE (10_reduction_and_filtering.md RED-5) -/
abbrev RED_PHASE_PHASE : Fld := ⟨.RED_PHASE, 0, 16, SH, 0⟩
/- RED_PACE (10_reduction_and_filtering.md RED-5) -/
abbrev RED_PACE_PACE : Fld := ⟨.RED_PACE, 0, 17, LK, 1⟩
/- RED_STATUS (10_reduction_and_filtering.md RED-5) -/
abbrev RED_STATUS_RUNNING : Fld := ⟨.RED_STATUS, 0, 1, RO, 0⟩
abbrev RED_STATUS_PRIME : Fld := ⟨.RED_STATUS, 1, 1, RO, 0⟩
abbrev RED_STATUS_START : Fld := ⟨.RED_STATUS, 2, 3, RO, 0⟩
/- RED_SYNC_TTS_LO (10_reduction_and_filtering.md RED-5) -/
abbrev RED_SYNC_TTS_LO_TTS : Fld := ⟨.RED_SYNC_TTS_LO, 0, 32, RO, 0⟩
/- RED_SYNC_TTS_HI (10_reduction_and_filtering.md RED-5) -/
abbrev RED_SYNC_TTS_HI_TTS : Fld := ⟨.RED_SYNC_TTS_HI, 0, 32, RO, 0⟩
/- RED_OUT_COUNT (10_reduction_and_filtering.md RED-5) -/
abbrev RED_OUT_COUNT_COUNT : Fld := ⟨.RED_OUT_COUNT, 0, 32, RO, 0⟩
/- RED_BAD_CNT (10_reduction_and_filtering.md RED-5) -/
abbrev RED_BAD_CNT_COUNT : Fld := ⟨.RED_BAD_CNT, 0, 32, RC, 0⟩
/- RED_LAST (10_reduction_and_filtering.md RED-5) -/
abbrev RED_LAST_MEAN : Fld := ⟨.RED_LAST, 0, 16, RO, 0⟩
abbrev RED_LAST_PEAK : Fld := ⟨.RED_LAST, 16, 16, RO, 0⟩
/- ACC_PLANE_SRC (11_accumulation_and_masks.md ACC-4) -/
abbrev ACC_PLANE_SRC_CH : Fld := ⟨.ACC_PLANE_SRC, 0, 8, LK, 0xff⟩
/- ACC_PLANE_CFG (11_accumulation_and_masks.md ACC-4) -/
abbrev ACC_PLANE_CFG_EN : Fld := ⟨.ACC_PLANE_CFG, 0, 1, SH, 0⟩
abbrev ACC_PLANE_CFG_XMODE : Fld := ⟨.ACC_PLANE_CFG, 1, 1, SH, 0⟩
abbrev ACC_PLANE_CFG_REF : Fld := ⟨.ACC_PLANE_CFG, 2, 2, SH, 0⟩
abbrev ACC_PLANE_CFG_EXCL_OVR : Fld := ⟨.ACC_PLANE_CFG, 4, 1, SH, 0⟩
abbrev ACC_PLANE_CFG_EXCL_CLKBAD : Fld := ⟨.ACC_PLANE_CFG, 5, 1, SH, 1⟩
abbrev ACC_PLANE_CFG_EXCL_STEP : Fld := ⟨.ACC_PLANE_CFG, 6, 1, SH, 1⟩
/- ACC_PLANE_X (11_accumulation_and_masks.md ACC-4) -/
abbrev ACC_PLANE_X_XB : Fld := ⟨.ACC_PLANE_X, 0, 8, SH, 0x20⟩
abbrev ACC_PLANE_X_BIN : Fld := ⟨.ACC_PLANE_X, 8, 16, SH, 4⟩
/- ACC_PLANE_XOFS (11_accumulation_and_masks.md ACC-4) -/
abbrev ACC_PLANE_XOFS_XOFS : Fld := ⟨.ACC_PLANE_XOFS, 0, 32, SH, 0⟩
/- ACC_PLANE_UI (11_accumulation_and_masks.md ACC-4) -/
abbrev ACC_PLANE_UI_UI : Fld := ⟨.ACC_PLANE_UI, 0, 32, SH, 0x40000⟩
/- ACC_PLANE_SPAN (11_accumulation_and_masks.md ACC-4) -/
abbrev ACC_PLANE_SPAN_SPAN : Fld := ⟨.ACC_PLANE_SPAN, 0, 32, SH, 0⟩
/- ACC_PLANE_Y (11_accumulation_and_masks.md ACC-4) -/
abbrev ACC_PLANE_Y_Y_BASE : Fld := ⟨.ACC_PLANE_Y, 0, 10, SH, 0x200⟩
abbrev ACC_PLANE_Y_Y_SHIFT : Fld := ⟨.ACC_PLANE_Y, 10, 2, SH, 2⟩
abbrev ACC_PLANE_Y_YB : Fld := ⟨.ACC_PLANE_Y, 12, 3, SH, 2⟩
/- ACC_PLANE_STATUS (11_accumulation_and_masks.md ACC-4) -/
abbrev ACC_PLANE_STATUS_ACTIVE : Fld := ⟨.ACC_PLANE_STATUS, 0, 1, RO, 0⟩
abbrev ACC_PLANE_STATUS_SAT : Fld := ⟨.ACC_PLANE_STATUS, 1, 1, W1C, 0⟩
abbrev ACC_PLANE_STATUS_NOREF : Fld := ⟨.ACC_PLANE_STATUS, 2, 1, RO, 1⟩
abbrev ACC_PLANE_STATUS_STRIDE : Fld := ⟨.ACC_PLANE_STATUS, 3, 3, RO, 1⟩
abbrev ACC_PLANE_STATUS_ABSENT : Fld := ⟨.ACC_PLANE_STATUS, 6, 1, RO, 1⟩
/- ACC_PLANE_TOTAL_LO (11_accumulation_and_masks.md ACC-4) -/
abbrev ACC_PLANE_TOTAL_LO_TOTAL : Fld := ⟨.ACC_PLANE_TOTAL_LO, 0, 32, RO, 0⟩
/- ACC_PLANE_TOTAL_HI (11_accumulation_and_masks.md ACC-4) -/
abbrev ACC_PLANE_TOTAL_HI_TOTAL : Fld := ⟨.ACC_PLANE_TOTAL_HI, 0, 32, RO, 0⟩
/- ACC_PLANE_OUTSIDE (11_accumulation_and_masks.md ACC-4) -/
abbrev ACC_PLANE_OUTSIDE_COUNT : Fld := ⟨.ACC_PLANE_OUTSIDE, 0, 32, RC, 0⟩
/- ACC_PLANE_EXCL (11_accumulation_and_masks.md ACC-4) -/
abbrev ACC_PLANE_EXCL_COUNT : Fld := ⟨.ACC_PLANE_EXCL, 0, 32, RC, 0⟩
/- ACC_PLANE_CLR_LO (11_accumulation_and_masks.md ACC-4) -/
abbrev ACC_PLANE_CLR_LO_FRAME : Fld := ⟨.ACC_PLANE_CLR_LO, 0, 32, RO, 0⟩
/- ACC_PLANE_CLR_HI (11_accumulation_and_masks.md ACC-4) -/
abbrev ACC_PLANE_CLR_HI_FRAME : Fld := ⟨.ACC_PLANE_CLR_HI, 0, 16, RO, 0⟩
/- ACC_MASK_CFG (11_accumulation_and_masks.md ACC-5) -/
abbrev ACC_MASK_CFG_EN : Fld := ⟨.ACC_MASK_CFG, 0, 1, SH, 0⟩
abbrev ACC_MASK_CFG_PLANE : Fld := ⟨.ACC_MASK_CFG, 1, 2, SH, 0⟩
abbrev ACC_MASK_CFG_ACTION : Fld := ⟨.ACC_MASK_CFG, 3, 2, SH, 0⟩
abbrev ACC_MASK_CFG_HOLDOFF : Fld := ⟨.ACC_MASK_CFG, 8, 16, SH, 0⟩
abbrev ACC_MASK_CFG_ABSENT : Fld := ⟨.ACC_MASK_CFG, 24, 1, RO, 1⟩
abbrev ACC_MASK_CFG_NOPLANE : Fld := ⟨.ACC_MASK_CFG, 25, 1, RO, 0⟩
abbrev ACC_MASK_CFG_BANK : Fld := ⟨.ACC_MASK_CFG, 26, 1, RO, 0⟩
/- ACC_VIOL_CNT (11_accumulation_and_masks.md ACC-5) -/
abbrev ACC_VIOL_CNT_COUNT : Fld := ⟨.ACC_VIOL_CNT, 0, 32, RC, 0⟩
/- ACC_VIOL_FIRST_LO (11_accumulation_and_masks.md ACC-5) -/
abbrev ACC_VIOL_FIRST_LO_TTS : Fld := ⟨.ACC_VIOL_FIRST_LO, 0, 32, RO, 0⟩
/- ACC_VIOL_FIRST_HI (11_accumulation_and_masks.md ACC-5) -/
abbrev ACC_VIOL_FIRST_HI_TTS : Fld := ⟨.ACC_VIOL_FIRST_HI, 0, 32, RO, 0⟩
/- ACC_CTRL (11_accumulation_and_masks.md ACC-5) -/
abbrev ACC_CTRL_CLR_PLANE : Fld := ⟨.ACC_CTRL, 0, 4, SH, 0⟩
abbrev ACC_CTRL_CLR_VIOL : Fld := ⟨.ACC_CTRL, 4, 8, SH, 0⟩
abbrev ACC_CTRL_SWAP : Fld := ⟨.ACC_CTRL, 12, 8, SH, 0⟩
/- ACC_MASK_WSEL (11_accumulation_and_masks.md ACC-5) -/
abbrev ACC_MASK_WSEL_MASK : Fld := ⟨.ACC_MASK_WSEL, 0, 3, RW, 0⟩
/- ACC_SNAP_ADDR_LO (11_accumulation_and_masks.md ACC-5) -/
abbrev ACC_SNAP_ADDR_LO_ADDR : Fld := ⟨.ACC_SNAP_ADDR_LO, 12, 20, RW, 0⟩
/- ACC_SNAP_ADDR_HI (11_accumulation_and_masks.md ACC-5) -/
abbrev ACC_SNAP_ADDR_HI_ADDR : Fld := ⟨.ACC_SNAP_ADDR_HI, 0, 2, RW, 0⟩
/- ACC_SNAP_CTRL (11_accumulation_and_masks.md ACC-5) -/
abbrev ACC_SNAP_CTRL_PLANE : Fld := ⟨.ACC_SNAP_CTRL, 0, 2, SH, 0⟩
abbrev ACC_SNAP_CTRL_GO : Fld := ⟨.ACC_SNAP_CTRL, 2, 1, SH, 0⟩
abbrev ACC_SNAP_CTRL_CLEAR : Fld := ⟨.ACC_SNAP_CTRL, 3, 1, SH, 0⟩
/- ACC_SNAP_STATUS (11_accumulation_and_masks.md ACC-5) -/
abbrev ACC_SNAP_STATUS_STATE : Fld := ⟨.ACC_SNAP_STATUS, 0, 3, RO, 0⟩
abbrev ACC_SNAP_STATUS_OVERRUN : Fld := ⟨.ACC_SNAP_STATUS, 3, 1, W1C, 0⟩
/- ACC_SNAP_FRAME_LO (11_accumulation_and_masks.md ACC-5) -/
abbrev ACC_SNAP_FRAME_LO_FRAME : Fld := ⟨.ACC_SNAP_FRAME_LO, 0, 32, RO, 0⟩
/- ACC_SNAP_FRAME_HI (11_accumulation_and_masks.md ACC-5) -/
abbrev ACC_SNAP_FRAME_HI_FRAME : Fld := ⟨.ACC_SNAP_FRAME_HI, 0, 16, RO, 0⟩
/- TIC_SRC (12_time_interval.md TIC-6) -/
abbrev TIC_SRC_START : Fld := ⟨.TIC_SRC, 0, 8, LK, 0xff⟩
abbrev TIC_SRC_STOP : Fld := ⟨.TIC_SRC, 8, 8, LK, 0xff⟩
/- TIC_CFG (12_time_interval.md TIC-6) -/
abbrev TIC_CFG_RUN : Fld := ⟨.TIC_CFG, 0, 1, SH, 0⟩
abbrev TIC_CFG_REPEAT : Fld := ⟨.TIC_CFG, 1, 1, SH, 0⟩
abbrev TIC_CFG_MODE : Fld := ⟨.TIC_CFG, 2, 3, SH, 0⟩
abbrev TIC_CFG_SIGNED : Fld := ⟨.TIC_CFG, 5, 1, SH, 0⟩
abbrev TIC_CFG_START_POLICY : Fld := ⟨.TIC_CFG, 6, 1, SH, 0⟩
abbrev TIC_CFG_START_EDGE : Fld := ⟨.TIC_CFG, 7, 2, SH, 0⟩
abbrev TIC_CFG_STOP_EDGE : Fld := ⟨.TIC_CFG, 9, 2, SH, 0⟩
/- TIC_N (12_time_interval.md TIC-6) -/
abbrev TIC_N_N : Fld := ⟨.TIC_N, 0, 24, SH, 1⟩
/- TIC_TIMEOUT (12_time_interval.md TIC-6) -/
abbrev TIC_TIMEOUT_NS : Fld := ⟨.TIC_TIMEOUT, 0, 32, SH, 0x2710⟩
/- TIC_WINDOW (12_time_interval.md TIC-6) -/
abbrev TIC_WINDOW_TU : Fld := ⟨.TIC_WINDOW, 0, 32, SH, 0x2000⟩
/- TIC_GATE (12_time_interval.md TIC-6) -/
abbrev TIC_GATE_NS : Fld := ⟨.TIC_GATE, 0, 32, SH, 0xf4240⟩
/- TIC_HOLDOFF (12_time_interval.md TIC-6) -/
abbrev TIC_HOLDOFF_NS : Fld := ⟨.TIC_HOLDOFF, 0, 32, SH, 0⟩
/- TIC_PACE (12_time_interval.md TIC-6) -/
abbrev TIC_PACE_NS : Fld := ⟨.TIC_PACE, 0, 32, LK, 0⟩
/- TIC_STATUS (12_time_interval.md TIC-6) -/
abbrev TIC_STATUS_MEASURING : Fld := ⟨.TIC_STATUS, 0, 1, RO, 0⟩
abbrev TIC_STATUS_DONE : Fld := ⟨.TIC_STATUS, 1, 1, W1C, 0⟩
abbrev TIC_STATUS_NO_SOURCE : Fld := ⟨.TIC_STATUS, 2, 1, RO, 0⟩
/- TIC_LAST_TTS_LO (12_time_interval.md TIC-6) -/
abbrev TIC_LAST_TTS_LO_TTS : Fld := ⟨.TIC_LAST_TTS_LO, 0, 32, RO, 0⟩
/- TIC_LAST_TTS_HI (12_time_interval.md TIC-6) -/
abbrev TIC_LAST_TTS_HI_TTS : Fld := ⟨.TIC_LAST_TTS_HI, 0, 32, RO, 0⟩
/- TIC_LAST_VALUE_LO (12_time_interval.md TIC-6) -/
abbrev TIC_LAST_VALUE_LO_VALUE : Fld := ⟨.TIC_LAST_VALUE_LO, 0, 32, RO, 0⟩
/- TIC_LAST_VALUE_HI (12_time_interval.md TIC-6) -/
abbrev TIC_LAST_VALUE_HI_VALUE : Fld := ⟨.TIC_LAST_VALUE_HI, 0, 8, RO, 0⟩
abbrev TIC_LAST_VALUE_HI_STATUS : Fld := ⟨.TIC_LAST_VALUE_HI, 8, 8, RO, 0⟩
/- TIC_LAST_COUNT (12_time_interval.md TIC-6) -/
abbrev TIC_LAST_COUNT_COUNT : Fld := ⟨.TIC_LAST_COUNT, 0, 32, RO, 0⟩
/- TIC_LAST_SEQ (12_time_interval.md TIC-6) -/
abbrev TIC_LAST_SEQ_SEQ : Fld := ⟨.TIC_LAST_SEQ, 0, 32, RO, 0⟩
/- TIC_TIMEOUT_CNT (12_time_interval.md TIC-6) -/
abbrev TIC_TIMEOUT_CNT_COUNT : Fld := ⟨.TIC_TIMEOUT_CNT, 0, 32, RC, 0⟩
/- TIC_IGNORED_CNT (12_time_interval.md TIC-6) -/
abbrev TIC_IGNORED_CNT_COUNT : Fld := ⟨.TIC_IGNORED_CNT, 0, 32, RC, 0⟩
/- SEG_ARM (08_trigger.md TRG-7) -/
abbrev SEG_ARM_ARM : Fld := ⟨.SEG_ARM, 0, 1, SH, 0⟩
abbrev SEG_ARM_STATE : Fld := ⟨.SEG_ARM, 1, 3, RO, 0⟩
/- SEG_PRE (08_trigger.md TRG-7) -/
abbrev SEG_PRE_PRE : Fld := ⟨.SEG_PRE, 0, 24, SH, 0⟩
abbrev SEG_PRE_PRE_POLICY : Fld := ⟨.SEG_PRE, 24, 1, SH, 0⟩
/- SEG_REGION_CFG (09_segmented_memory.md SEG-6) -/
abbrev SEG_REGION_CFG_CH_MASK : Fld := ⟨.SEG_REGION_CFG, 0, 8, LK, 0⟩
abbrev SEG_REGION_CFG_MODE : Fld := ⟨.SEG_REGION_CFG, 8, 2, LK, 0⟩
abbrev SEG_REGION_CFG_FORMAT : Fld := ⟨.SEG_REGION_CFG, 10, 1, LK, 0⟩
/- SEG_LEN (09_segmented_memory.md SEG-6) -/
abbrev SEG_LEN_LEN : Fld := ⟨.SEG_LEN, 0, 25, LK, 0⟩
/- SEG_BASE_LO (09_segmented_memory.md SEG-6) -/
abbrev SEG_BASE_LO_BASE : Fld := ⟨.SEG_BASE_LO, 0, 32, LK, 0⟩
/- SEG_BASE_HI (09_segmented_memory.md SEG-6) -/
abbrev SEG_BASE_HI_BASE : Fld := ⟨.SEG_BASE_HI, 0, 2, LK, 0⟩
/- SEG_SIZE_LO (09_segmented_memory.md SEG-6) -/
abbrev SEG_SIZE_LO_SIZE : Fld := ⟨.SEG_SIZE_LO, 0, 32, LK, 0⟩
/- SEG_SIZE_HI (09_segmented_memory.md SEG-6) -/
abbrev SEG_SIZE_HI_SIZE : Fld := ⟨.SEG_SIZE_HI, 0, 2, LK, 0⟩
/- SEG_DIR (09_segmented_memory.md SEG-6) -/
abbrev SEG_DIR_DIR_BASE : Fld := ⟨.SEG_DIR, 0, 16, LK, 0⟩
/- SEG_DIR_COUNT (09_segmented_memory.md SEG-6) -/
abbrev SEG_DIR_COUNT_COUNT : Fld := ⟨.SEG_DIR_COUNT, 0, 17, LK, 0⟩
/- SEG_RATE_MAX (09_segmented_memory.md SEG-6) -/
abbrev SEG_RATE_MAX_RATE : Fld := ⟨.SEG_RATE_MAX, 0, 26, LK, 0⟩
/- SEG_CAP (09_segmented_memory.md SEG-6) -/
abbrev SEG_CAP_N : Fld := ⟨.SEG_CAP, 0, 32, RO, 0⟩
/- SEG_OPEN_COUNT (09_segmented_memory.md SEG-6) -/
abbrev SEG_OPEN_COUNT_COUNT : Fld := ⟨.SEG_OPEN_COUNT, 0, 32, RO, 0⟩
/- SEG_WB_COUNT (09_segmented_memory.md SEG-6) -/
abbrev SEG_WB_COUNT_COUNT : Fld := ⟨.SEG_WB_COUNT, 0, 32, RO, 0⟩
/- SEG_RELEASE (09_segmented_memory.md SEG-6) -/
abbrev SEG_RELEASE_COUNT : Fld := ⟨.SEG_RELEASE, 0, 32, RW, 0⟩
/- SEG_WMARK (09_segmented_memory.md SEG-6) -/
abbrev SEG_WMARK_LEVEL : Fld := ⟨.SEG_WMARK, 0, 32, RW, 0⟩
/- SEG_STATUS (09_segmented_memory.md SEG-6) -/
abbrev SEG_STATUS_OVERRUN : Fld := ⟨.SEG_STATUS, 0, 1, W1C, 0⟩
abbrev SEG_STATUS_WMARK : Fld := ⟨.SEG_STATUS, 1, 1, RO, 0⟩
abbrev SEG_STATUS_STOP_CAUSE : Fld := ⟨.SEG_STATUS, 2, 2, RO, 0⟩
/- SEG_OVERRUN (09_segmented_memory.md SEG-6) -/
abbrev SEG_OVERRUN_COUNT : Fld := ⟨.SEG_OVERRUN, 0, 32, RC, 0⟩
/- SEG_MISSED (09_segmented_memory.md SEG-6) -/
abbrev SEG_MISSED_REGION_MISSED : Fld := ⟨.SEG_MISSED, 0, 32, RC, 0⟩
/- SEG_MISS_CAUSE (09_segmented_memory.md SEG-6) -/
abbrev SEG_MISS_CAUSE_LAST : Fld := ⟨.SEG_MISS_CAUSE, 0, 3, RO, 0⟩
abbrev SEG_MISS_CAUSE_SEEN : Fld := ⟨.SEG_MISS_CAUSE, 3, 5, W1C, 0⟩
/- SEG_ARM_FRAME_LO (09_segmented_memory.md SEG-6) -/
abbrev SEG_ARM_FRAME_LO_FRAME : Fld := ⟨.SEG_ARM_FRAME_LO, 0, 32, RO, 0⟩
/- SEG_ARM_FRAME_HI (09_segmented_memory.md SEG-6) -/
abbrev SEG_ARM_FRAME_HI_FRAME : Fld := ⟨.SEG_ARM_FRAME_HI, 0, 16, RO, 0⟩
/- SEG_CONT_FILL (09_segmented_memory.md SEG-6) -/
abbrev SEG_CONT_FILL_SAMPLES : Fld := ⟨.SEG_CONT_FILL, 0, 12, RO, 0⟩
/- MEM_CFG (09_segmented_memory.md SEG-7) -/
abbrev MEM_CFG_ECC : Fld := ⟨.MEM_CFG, 0, 1, RW, 1⟩
/- MEM_STATUS (09_segmented_memory.md SEG-7) -/
abbrev MEM_STATUS_REFRESH_2X : Fld := ⟨.MEM_STATUS, 0, 1, RO, 0⟩
abbrev MEM_STATUS_ECC_NOW : Fld := ⟨.MEM_STATUS, 1, 1, RO, 1⟩
abbrev MEM_STATUS_TEMP : Fld := ⟨.MEM_STATUS, 16, 16, RO, 0⟩
/- MEM_CE_CNT (09_segmented_memory.md SEG-7) -/
abbrev MEM_CE_CNT_COUNT : Fld := ⟨.MEM_CE_CNT, 0, 32, RC, 0⟩
/- MEM_UE_CNT (09_segmented_memory.md SEG-7) -/
abbrev MEM_UE_CNT_COUNT : Fld := ⟨.MEM_UE_CNT, 0, 32, RC, 0⟩
/- MEM_UE_ADDR_LO (09_segmented_memory.md SEG-7) -/
abbrev MEM_UE_ADDR_LO_ADDR : Fld := ⟨.MEM_UE_ADDR_LO, 0, 32, RO, 0⟩
/- MEM_UE_ADDR_HI (09_segmented_memory.md SEG-7) -/
abbrev MEM_UE_ADDR_HI_ADDR : Fld := ⟨.MEM_UE_ADDR_HI, 0, 2, RO, 0⟩
/- MEM_BRIDGE_RETRY (09_segmented_memory.md SEG-7) -/
abbrev MEM_BRIDGE_RETRY_COUNT : Fld := ⟨.MEM_BRIDGE_RETRY, 0, 32, RC, 0⟩
/- MEM_WBUF (09_segmented_memory.md SEG-7) -/
abbrev MEM_WBUF_FILL : Fld := ⟨.MEM_WBUF, 0, 19, RO, 0⟩
abbrev MEM_WBUF_HIGH_SEEN : Fld := ⟨.MEM_WBUF, 19, 1, RC, 0⟩

end Sys2Proof.Fld

namespace Sys2Proof

/-- The fields of a register, lowest first; bits that belong to no field are reserved (R5). -/
def RegName.fields : RegName → List Fld
  | .HUB_ID => [Fld.HUB_ID_PART, Fld.HUB_ID_VENDOR]
  | .HUB_REV => [Fld.HUB_REV_STEPPING, Fld.HUB_REV_PITCH_FMT]
  | .HUB_SERIAL_LO => [Fld.HUB_SERIAL_LO_SERIAL]
  | .HUB_SERIAL_HI => [Fld.HUB_SERIAL_HI_SERIAL]
  | .HUB_JTAG_ID => [Fld.HUB_JTAG_ID_IDCODE]
  | .HUB_CAPS => [Fld.HUB_CAPS_CHANNELS, Fld.HUB_CAPS_ENGINES, Fld.HUB_CAPS_STACK_GIB, Fld.HUB_CAPS_HUB_FULL, Fld.HUB_CAPS_TWIN, Fld.HUB_CAPS_PARAMETRIC, Fld.HUB_CAPS_RASTER]
  | .HUB_SCRATCH => [Fld.HUB_SCRATCH_VALUE]
  | .HUB_GLOBAL_STATUS => [Fld.HUB_GLOBAL_STATUS_PITCH_STATE, Fld.HUB_GLOBAL_STATUS_BOOT_PHASE, Fld.HUB_GLOBAL_STATUS_CLK_ACTIVE, Fld.HUB_GLOBAL_STATUS_NO_SOURCE, Fld.HUB_GLOBAL_STATUS_EPOCH_VALID, Fld.HUB_GLOBAL_STATUS_RELOCK_STATE, Fld.HUB_GLOBAL_STATUS_POWER, Fld.HUB_GLOBAL_STATUS_THERM_HOLD, Fld.HUB_GLOBAL_STATUS_TWIN_ROLE, Fld.HUB_GLOBAL_STATUS_HELD, Fld.HUB_GLOBAL_STATUS_SH_PENDING, Fld.HUB_GLOBAL_STATUS_EVT_ANY, Fld.HUB_GLOBAL_STATUS_STALE_ANY, Fld.HUB_GLOBAL_STATUS_MEM_FAIL, Fld.HUB_GLOBAL_STATUS_LINK_GEN, Fld.HUB_GLOBAL_STATUS_LINK_WIDTH]
  | .HUB_TIME_LO => [Fld.HUB_TIME_LO_TIME]
  | .HUB_TIME_HI => [Fld.HUB_TIME_HI_TIME]
  | .HUB_RESET_CAUSE => [Fld.HUB_RESET_CAUSE_POR, Fld.HUB_RESET_CAUSE_RST_N, Fld.HUB_RESET_CAUSE_BROWNOUT, Fld.HUB_RESET_CAUSE_THERMTRIP, Fld.HUB_RESET_CAUSE_PERST]
  | .HUB_BOOT_STATUS => [Fld.HUB_BOOT_STATUS_PHASE, Fld.HUB_BOOT_STATUS_CLK_OK, Fld.HUB_BOOT_STATUS_M0_OK, Fld.HUB_BOOT_STATUS_M1_OK, Fld.HUB_BOOT_STATUS_M0_FAIL, Fld.HUB_BOOT_STATUS_M1_FAIL, Fld.HUB_BOOT_STATUS_BOOT_MS]
  | .HUB_PWR_REQ => [Fld.HUB_PWR_REQ_OP, Fld.HUB_PWR_REQ_TARGET]
  | .HUB_PWR_STATUS => [Fld.HUB_PWR_STATUS_DEVICE, Fld.HUB_PWR_STATUS_CL_SLEEP, Fld.HUB_PWR_STATUS_ENG_SLEEP, Fld.HUB_PWR_STATUS_THERM_HOLD, Fld.HUB_PWR_STATUS_RESULT, Fld.HUB_PWR_STATUS_LAST_OP]
  | .HUB_TICK_CFG => [Fld.HUB_TICK_CFG_K, Fld.HUB_TICK_CFG_MARK_EXP]
  | .HUB_FRAME_LO => [Fld.HUB_FRAME_LO_FRAME]
  | .HUB_FRAME_HI => [Fld.HUB_FRAME_HI_FRAME]
  | .HUB_TICK_STATUS => [Fld.HUB_TICK_STATUS_SOURCE, Fld.HUB_TICK_STATUS_STEPPED]
  | .HUB_SH_CTRL => [Fld.HUB_SH_CTRL_HOLD]
  | .HUB_SH_STATUS => [Fld.HUB_SH_STATUS_PENDING, Fld.HUB_SH_STATUS_HELD]
  | .HUB_SH_COMMIT_LO => [Fld.HUB_SH_COMMIT_LO_FRAME]
  | .HUB_SH_COMMIT_HI => [Fld.HUB_SH_COMMIT_HI_FRAME]
  | .HUB_HOST_BUDGET => [Fld.HUB_HOST_BUDGET_STALL_MAX, Fld.HUB_HOST_BUDGET_STALL_SHARE, Fld.HUB_HOST_BUDGET_LINK_GEN, Fld.HUB_HOST_BUDGET_LINK_WIDTH]
  | .HUB_HOST_STALL_MAX => [Fld.HUB_HOST_STALL_MAX_NS]
  | .HUB_HOST_STALL_VIOL => [Fld.HUB_HOST_STALL_VIOL_COUNT]
  | .HUB_PITCH_STATUS => [Fld.HUB_PITCH_STATUS_STATE, Fld.HUB_PITCH_STATUS_RESULT, Fld.HUB_PITCH_STATUS_DETAIL]
  | .HUB_PITCH_ID => [Fld.HUB_PITCH_ID_IMAGE_ID]
  | .HUB_PITCH_VER => [Fld.HUB_PITCH_VER_IMAGE_VER]
  | .HUB_PITCH_CRC => [Fld.HUB_PITCH_CRC_CRC]
  | .HUB_PITCH_PARTIAL => [Fld.HUB_PITCH_PARTIAL_CL_MASK]
  | .HUB_PITCH_SIG => [Fld.HUB_PITCH_SIG_SIGNED, Fld.HUB_PITCH_SIG_KEY_INDEX]
  | .HUB_SYNC_CMD => [Fld.HUB_SYNC_CMD_ISSUE, Fld.HUB_SYNC_CMD_TWIN]
  | .HUB_SYNC_CFG => [Fld.HUB_SYNC_CFG_IN_EN, Fld.HUB_SYNC_CFG_IN_EDGE, Fld.HUB_SYNC_CFG_IN_TWIN, Fld.HUB_SYNC_CFG_OUT_EN, Fld.HUB_SYNC_CFG_IN_DELAY]
  | .HUB_SYNC_LAST_LO => [Fld.HUB_SYNC_LAST_LO_TTS]
  | .HUB_SYNC_LAST_HI => [Fld.HUB_SYNC_LAST_HI_TTS]
  | .HUB_SYNC_SRC => [Fld.HUB_SYNC_SRC_SRC]
  | .HUB_SYNC_DROP => [Fld.HUB_SYNC_DROP_COUNT]
  | .HUB_TRIG_IN_CFG => [Fld.HUB_TRIG_IN_CFG_EDGE]
  | .HUB_TRIG_IN_CNT => [Fld.HUB_TRIG_IN_CNT_COUNT]
  | .HUB_TRIG_OUT_CFG => [Fld.HUB_TRIG_OUT_CFG_EN, Fld.HUB_TRIG_OUT_CFG_POL, Fld.HUB_TRIG_OUT_CFG_WIDTH, Fld.HUB_TRIG_OUT_CFG_DELAY]
  | .HUB_TRIG_OUT_MERGED => [Fld.HUB_TRIG_OUT_MERGED_COUNT]
  | .HUB_BIST_REQ => [Fld.HUB_BIST_REQ_UNIT, Fld.HUB_BIST_REQ_GO]
  | .HUB_BIST_ARG_LO => [Fld.HUB_BIST_ARG_LO_ADDR]
  | .HUB_BIST_ARG_HI => [Fld.HUB_BIST_ARG_HI_ADDR, Fld.HUB_BIST_ARG_HI_GIB]
  | .HUB_BIST_STATUS => [Fld.HUB_BIST_STATUS_RESULT, Fld.HUB_BIST_STATUS_UNIT, Fld.HUB_BIST_STATUS_DETAIL]
  | .HUB_SCHED_FRAME_LO => [Fld.HUB_SCHED_FRAME_LO_FRAME]
  | .HUB_SCHED_FRAME_HI => [Fld.HUB_SCHED_FRAME_HI_FRAME]
  | .HUB_SCHED_ARG => [Fld.HUB_SCHED_ARG_ARG]
  | .HUB_SCHED_CMD => [Fld.HUB_SCHED_CMD_CMD, Fld.HUB_SCHED_CMD_LATE_POLICY]
  | .HUB_SCHED_STATUS => [Fld.HUB_SCHED_STATUS_STATUS, Fld.HUB_SCHED_STATUS_LAST]
  | .HUB_LINK_DIAG => [Fld.HUB_LINK_DIAG_GEN_PAT, Fld.HUB_LINK_DIAG_CHK_PAT, Fld.HUB_LINK_DIAG_LOOP, Fld.HUB_LINK_DIAG_INJECT, Fld.HUB_LINK_DIAG_STATE]
  | .HUB_LINK_CHK => [Fld.HUB_LINK_CHK_LOCK, Fld.HUB_LINK_CHK_LOCK_LOST]
  | .HUB_LINK_ERR => [Fld.HUB_LINK_ERR_COUNT]
  | .HUB_LINK_BITS_LO => [Fld.HUB_LINK_BITS_LO_BITS]
  | .HUB_LINK_BITS_HI => [Fld.HUB_LINK_BITS_HI_BITS]
  | .CLK_SRC_CFG => [Fld.CLK_SRC_CFG_PREF, Fld.CLK_SRC_CFG_REVERT]
  | .CLK_SRC_STATUS => [Fld.CLK_SRC_STATUS_ACTIVE, Fld.CLK_SRC_STATUS_LINK_QUAL, Fld.CLK_SRC_STATUS_REFIN_QUAL, Fld.CLK_SRC_STATUS_NO_SOURCE, Fld.CLK_SRC_STATUS_LINK_QCOUNT, Fld.CLK_SRC_STATUS_REFIN_QCOUNT]
  | .CLK_QUAL => [Fld.CLK_QUAL_COUNT, Fld.CLK_QUAL_PPM, Fld.CLK_QUAL_TIMEOUT]
  | .CLK_MON => [Fld.CLK_MON_PPM, Fld.CLK_MON_LOS_NS]
  | .CLK_FREQ_DEV => [Fld.CLK_FREQ_DEV_LINK, Fld.CLK_FREQ_DEV_REFIN]
  | .CLK_CLKIN_CFG => [Fld.CLK_CLKIN_CFG_PS, Fld.CLK_CLKIN_CFG_RATE_ERR]
  | .CLK_MUX_SEL => [Fld.CLK_MUX_SEL_SEL]
  | .CLK_MUX_STATUS => [Fld.CLK_MUX_STATUS_STATE0, Fld.CLK_MUX_STATUS_STATE1, Fld.CLK_MUX_STATUS_STATE2, Fld.CLK_MUX_STATUS_STATE3, Fld.CLK_MUX_STATUS_STATE4, Fld.CLK_MUX_STATUS_STATE5, Fld.CLK_MUX_STATUS_STATE6]
  | .CLK_GATE_REQ => [Fld.CLK_GATE_REQ_NODE, Fld.CLK_GATE_REQ_OP, Fld.CLK_GATE_REQ_FORCE]
  | .CLK_GATE_RESULT => [Fld.CLK_GATE_RESULT_CODE, Fld.CLK_GATE_RESULT_OVERRUN, Fld.CLK_GATE_RESULT_NODE]
  | .CLK_GATE_STATE_LO => [Fld.CLK_GATE_STATE_LO_OPEN]
  | .CLK_GATE_STATE_HI => [Fld.CLK_GATE_STATE_HI_OPEN]
  | .PLL_LOCK_CFG => [Fld.PLL_LOCK_CFG_WINDOW, Fld.PLL_LOCK_CFG_NEXP]
  | .PLL_JPLL_CFG => [Fld.PLL_JPLL_CFG_REF_MODE, Fld.PLL_JPLL_CFG_BW]
  | .PLL_JPLL_STATUS => [Fld.PLL_JPLL_STATUS_LOCK, Fld.PLL_JPLL_STATUS_COAST, Fld.PLL_JPLL_STATUS_LOST, Fld.PLL_JPLL_STATUS_PHASE_ERR]
  | .PLL_APLL_CFG => [Fld.PLL_APLL_CFG_REF_MODE]
  | .PLL_APLL_FREQ => [Fld.PLL_APLL_FREQ_VCO_KHZ]
  | .PLL_APLL_DIV => [Fld.PLL_APLL_DIV_PIX_DIV, Fld.PLL_APLL_DIV_AUX_DIV]
  | .PLL_APLL_STATUS => [Fld.PLL_APLL_STATUS_LOCK, Fld.PLL_APLL_STATUS_LOST, Fld.PLL_APLL_STATUS_CFG_ERR]
  | .PLL_SPLL_CFG => [Fld.PLL_SPLL_CFG_REF_MODE, Fld.PLL_SPLL_CFG_BW, Fld.PLL_SPLL_CFG_FORCE_RAMP, Fld.PLL_SPLL_CFG_SLOPE]
  | .PLL_SPLL_RATE => [Fld.PLL_SPLL_RATE_RATE]
  | .PLL_SPLL_RATE_NOW => [Fld.PLL_SPLL_RATE_NOW_RATE]
  | .PLL_SPLL_PHASE => [Fld.PLL_SPLL_PHASE_OFS]
  | .PLL_SPLL_STATUS => [Fld.PLL_SPLL_STATUS_LOCK, Fld.PLL_SPLL_STATUS_SETTLED, Fld.PLL_SPLL_STATUS_ALIGNED, Fld.PLL_SPLL_STATUS_STATE, Fld.PLL_SPLL_STATUS_LOST, Fld.PLL_SPLL_STATUS_OFS_NOW]
  | .PLL_SPLL_ANCHOR_LO => [Fld.PLL_SPLL_ANCHOR_LO_FRAME]
  | .PLL_SPLL_ANCHOR_HI => [Fld.PLL_SPLL_ANCHOR_HI_FRAME]
  | .PLL_SPLL_RETRY => [Fld.PLL_SPLL_RETRY_COUNT]
  | .PLL_AUX_CFG => [Fld.PLL_AUX_CFG_EN, Fld.PLL_AUX_CFG_ALIGN, Fld.PLL_AUX_CFG_DIV]
  | .PLL_AUX_DELAY => [Fld.PLL_AUX_DELAY_COARSE, Fld.PLL_AUX_DELAY_FINE]
  | .TLK_CTRL => [Fld.TLK_CTRL_ENABLE, Fld.TLK_CTRL_TX_ENABLE, Fld.TLK_CTRL_DELAY_MODE, Fld.TLK_CTRL_RELOCK_ACT]
  | .TLK_STATUS => [Fld.TLK_STATUS_BLOCK_LOCK, Fld.TLK_STATUS_HI_BER, Fld.TLK_STATUS_EPOCH_VALID, Fld.TLK_STATUS_RELOCK_STATE, Fld.TLK_STATUS_K_LINK, Fld.TLK_STATUS_K_MATCH]
  | .TLK_RELOCK => [Fld.TLK_RELOCK_WINDOW, Fld.TLK_RELOCK_SLEW_RATE, Fld.TLK_RELOCK_POLICY]
  | .TLK_RELOCK_OFS => [Fld.TLK_RELOCK_OFS_OFS]
  | .TLK_MARK => [Fld.TLK_MARK_TOL, Fld.TLK_MARK_TIMEOUT]
  | .TLK_DELAY_CFG => [Fld.TLK_DELAY_CFG_VALUE]
  | .TLK_DELAY_MEAS => [Fld.TLK_DELAY_MEAS_VALUE]
  | .TLK_TRIG_EN => [Fld.TLK_TRIG_EN_LINES]
  | .TLK_SITE => [Fld.TLK_SITE_SITE_ID]
  | .TLK_PEER_STATUS => [Fld.TLK_PEER_STATUS_STATUS]
  | .TLK_ERR => [Fld.TLK_ERR_CRC, Fld.TLK_ERR_UNKNOWN]
  | .TLK_BCAST_DROP => [Fld.TLK_BCAST_DROP_COUNT]
  | .TLK_TRIG_DROP => [Fld.TLK_TRIG_DROP_COUNT]
  | .TLK_PHY => [Fld.TLK_PHY_DEEMPH, Fld.TLK_PHY_SWING]
  | .TLK_ARM_MAP => [Fld.TLK_ARM_MAP_REGIONS]
  | .GLN_CFG => [Fld.GLN_CFG_EN, Fld.GLN_CFG_ALIGN, Fld.GLN_CFG_ON_LINK_LOSS]
  | .GLN_STATUS => [Fld.GLN_STATUS_PRESENT, Fld.GLN_STATUS_LINK_UP, Fld.GLN_STATUS_ROLE, Fld.GLN_STATUS_MODE, Fld.GLN_STATUS_HELD, Fld.GLN_STATUS_ALIGNED]
  | .GLN_EPOCH_OFS => [Fld.GLN_EPOCH_OFS_OFS]
  | .GLN_ALIGN => [Fld.GLN_ALIGN_WINDOW, Fld.GLN_ALIGN_MAX]
  | .GLN_FAIL => [Fld.GLN_FAIL_MISS]
  | .GLN_DT_LO => [Fld.GLN_DT_LO_FRAME]
  | .GLN_DT_HI => [Fld.GLN_DT_HI_FRAME]
  | .GLN_CMP_CFG => [Fld.GLN_CMP_CFG_EN, Fld.GLN_CMP_CFG_CH_MASK]
  | .GLN_CMP_TOL => [Fld.GLN_CMP_TOL_MEAN, Fld.GLN_CMP_TOL_OVR, Fld.GLN_CMP_TOL_SEG, Fld.GLN_CMP_TOL_FIRES]
  | .GLN_CMP_CTRL_CNT => [Fld.GLN_CMP_CTRL_CNT_COUNT]
  | .GLN_CMP_VAL_CNT => [Fld.GLN_CMP_VAL_CNT_COUNT]
  | .GLN_CMP_MISS_CNT => [Fld.GLN_CMP_MISS_CNT_COUNT]
  | .GLN_CMP_LAST_LO => [Fld.GLN_CMP_LAST_LO_FRAME]
  | .GLN_CMP_LAST_HI => [Fld.GLN_CMP_LAST_HI_FRAME]
  | .GLN_SYNC_DROP => [Fld.GLN_SYNC_DROP_COUNT]
  | .GLN_ERR => [Fld.GLN_ERR_CRC, Fld.GLN_ERR_UNKNOWN]
  | .EVT_STATUS => [Fld.EVT_STATUS_STATUS]
  | .EVT_ENABLE => [Fld.EVT_ENABLE_ENABLE]
  | .EVT_ACTIVE => [Fld.EVT_ACTIVE_ACTIVE]
  | .EVT_VEC_ACK => [Fld.EVT_VEC_ACK_VECTOR]
  | .EVT_VEC_ARMED_LO => [Fld.EVT_VEC_ARMED_LO_ARMED]
  | .EVT_VEC_ARMED_HI => [Fld.EVT_VEC_ARMED_HI_ARMED]
  | .EVT_ROUTE => [Fld.EVT_ROUTE_KIND, Fld.EVT_ROUTE_TARGET]
  | .EVT_DATA => [Fld.EVT_DATA_CAUSES, Fld.EVT_DATA_INFO]
  | .EVT_CNT => [Fld.EVT_CNT_COUNT]
  | .DMA_GLOBAL_STATUS => [Fld.DMA_GLOBAL_STATUS_INFLIGHT, Fld.DMA_GLOBAL_STATUS_READS, Fld.DMA_GLOBAL_STATUS_TAG_MODE]
  | .DMA_LINK_STATUS => [Fld.DMA_LINK_STATUS_GEN, Fld.DMA_LINK_STATUS_WIDTH]
  | .DMA_LINK_RESET_CNT => [Fld.DMA_LINK_RESET_CNT_COUNT]
  | .DMA_Q_KIND => [Fld.DMA_Q_KIND_KIND, Fld.DMA_Q_KIND_UNIT, Fld.DMA_Q_KIND_VECTOR]
  | .DMA_Q_CTRL => [Fld.DMA_Q_CTRL_EN, Fld.DMA_Q_CTRL_CPL_N, Fld.DMA_Q_CTRL_CPL_FRAMES]
  | .DMA_Q_ABORT => [Fld.DMA_Q_ABORT_GO]
  | .DMA_Q_CFG => [Fld.DMA_Q_CFG_DEPTH]
  | .DMA_Q_STATUS => [Fld.DMA_Q_STATUS_STATE, Fld.DMA_Q_STATUS_CAUSE]
  | .DMA_Q_DELIV => [Fld.DMA_Q_DELIV_LAT_CLASS, Fld.DMA_Q_DELIV_FULL_POLICY]
  | .DMA_Q_LATE => [Fld.DMA_Q_LATE_COUNT]
  | .DMA_Q_RING_LO => [Fld.DMA_Q_RING_LO_ADDR]
  | .DMA_Q_RING_HI => [Fld.DMA_Q_RING_HI_ADDR]
  | .DMA_Q_CPL_LO => [Fld.DMA_Q_CPL_LO_ADDR]
  | .DMA_Q_CPL_HI => [Fld.DMA_Q_CPL_HI_ADDR]
  | .DMA_Q_RING_SIZE => [Fld.DMA_Q_RING_SIZE_RING_EXP, Fld.DMA_Q_RING_SIZE_CPL_EXP]
  | .DMA_Q_TAIL => [Fld.DMA_Q_TAIL_INDEX]
  | .DMA_Q_HEAD => [Fld.DMA_Q_HEAD_INDEX]
  | .DMA_Q_CPL_WR => [Fld.DMA_Q_CPL_WR_INDEX]
  | .DMA_Q_CPL_RD => [Fld.DMA_Q_CPL_RD_INDEX]
  | .DMA_Q_WR_OFS => [Fld.DMA_Q_WR_OFS_OFS]
  | .DMA_Q_STAGED => [Fld.DMA_Q_STAGED_BYTES]
  | .DMA_Q_LOST_LO => [Fld.DMA_Q_LOST_LO_BYTES]
  | .DMA_Q_LOST_HI => [Fld.DMA_Q_LOST_HI_BYTES]
  | .MGT_MB_CMD => [Fld.MGT_MB_CMD_CMD]
  | .MGT_MB_DOORBELL => [Fld.MGT_MB_DOORBELL_TAG]
  | .MGT_MB_STATE => [Fld.MGT_MB_STATE_STATE, Fld.MGT_MB_STATE_OVERRUN, Fld.MGT_MB_STATE_TAG, Fld.MGT_MB_STATE_STATUS]
  | .MGT_MB_ACK => [Fld.MGT_MB_ACK_ACK]
  | .MGT_MB_ARG => [Fld.MGT_MB_ARG_ARG]
  | .MGT_MB_RES => [Fld.MGT_MB_RES_RES]
  | .MGT_FW_VER => [Fld.MGT_FW_VER_VERSION]
  | .MGT_FW_STATUS => [Fld.MGT_FW_STATUS_BANK, Fld.MGT_FW_STATUS_TRIAL, Fld.MGT_FW_STATUS_FALLBACK, Fld.MGT_FW_STATUS_ROM_ONLY, Fld.MGT_FW_STATUS_BOOT_COUNT]
  | .MGT_LOG_SEQ => [Fld.MGT_LOG_SEQ_SEQ]
  | .MGT_LOG_DROP => [Fld.MGT_LOG_DROP_COUNT]
  | .MGT_SMB_CFG => [Fld.MGT_SMB_CFG_ADDR, Fld.MGT_SMB_CFG_EN, Fld.MGT_SMB_CFG_PEC_REQ]
  | .MGT_PMB_CFG => [Fld.MGT_PMB_CFG_EN, Fld.MGT_PMB_CFG_SPEED, Fld.MGT_PMB_CFG_POLL]
  | .MGT_DEBUG_STATUS => [Fld.MGT_DEBUG_STATUS_LOCKED, Fld.MGT_DEBUG_STATUS_UNLOCKED]
  | .MGT_SENSE => [Fld.MGT_SENSE_VALUE, Fld.MGT_SENSE_WARN, Fld.MGT_SENSE_CRIT, Fld.MGT_SENSE_WARN_SEEN, Fld.MGT_SENSE_CRIT_SEEN]
  | .MGT_THR => [Fld.MGT_THR_WARN, Fld.MGT_THR_CRIT]
  | .MGT_PMB_DEV => [Fld.MGT_PMB_DEV_ADDR, Fld.MGT_PMB_DEV_EN, Fld.MGT_PMB_DEV_PEC, Fld.MGT_PMB_DEV_PAGE]
  | .MGT_PMB_VI => [Fld.MGT_PMB_VI_VOUT, Fld.MGT_PMB_VI_IOUT]
  | .MGT_PMB_TS => [Fld.MGT_PMB_TS_TEMP, Fld.MGT_PMB_TS_STATUS_WORD]
  | .PMU_FORCE_CFG => [Fld.PMU_FORCE_CFG_EN, Fld.PMU_FORCE_CFG_UPD]
  | .PMU_FORCE_CODE => [Fld.PMU_FORCE_CODE_CODE]
  | .PMU_FORCE_NOW => [Fld.PMU_FORCE_NOW_CODE]
  | .PMU_FORCE_TTS_LO => [Fld.PMU_FORCE_TTS_LO_TTS]
  | .PMU_FORCE_TTS_HI => [Fld.PMU_FORCE_TTS_HI_TTS]
  | .PMU_FORCE_OUT => [Fld.PMU_FORCE_OUT_OUT]
  | .PMU_MC_CFG => [Fld.PMU_MC_CFG_EN, Fld.PMU_MC_CFG_LP, Fld.PMU_MC_CFG_XCHK]
  | .PMU_SEQ_CTRL => [Fld.PMU_SEQ_CTRL_RUN, Fld.PMU_SEQ_CTRL_REPEAT, Fld.PMU_SEQ_CTRL_START, Fld.PMU_SEQ_CTRL_LEN, Fld.PMU_SEQ_CTRL_TDIV]
  | .PMU_SEQ_STATUS => [Fld.PMU_SEQ_STATUS_RUNNING, Fld.PMU_SEQ_STATUS_ACTIVITY, Fld.PMU_SEQ_STATUS_ENTRY, Fld.PMU_SEQ_STATUS_INJ_QUEUED, Fld.PMU_SEQ_STATUS_CAL_PENDING, Fld.PMU_SEQ_STATUS_CAL_VALID, Fld.PMU_SEQ_STATUS_STREAMING]
  | .PMU_SEQ_SKIP => [Fld.PMU_SEQ_SKIP_COUNT]
  | .PMU_PACE => [Fld.PMU_PACE_NS]
  | .PMU_ABORT_CNT => [Fld.PMU_ABORT_CNT_COUNT]
  | .PMU_INJ_REQ => [Fld.PMU_INJ_REQ_REQ, Fld.PMU_INJ_REQ_GO]
  | .PMU_INJ_TMPL => [Fld.PMU_INJ_TMPL_REQ]
  | .PMU_INJ_TRIG => [Fld.PMU_INJ_TRIG_SRC]
  | .PMU_INJ_DROP => [Fld.PMU_INJ_DROP_REFUSED, Fld.PMU_INJ_DROP_LOST]
  | .PMU_CAL_CTRL => [Fld.PMU_CAL_CTRL_REQ]
  | .PMU_LAST_TTS_LO => [Fld.PMU_LAST_TTS_LO_TTS]
  | .PMU_LAST_TTS_HI => [Fld.PMU_LAST_TTS_HI_TTS]
  | .PMU_LAST_VALUE => [Fld.PMU_LAST_VALUE_VALUE]
  | .PMU_LAST_INFO => [Fld.PMU_LAST_INFO_INFO]
  | .PMU_INJ_RES_TTS_LO => [Fld.PMU_INJ_RES_TTS_LO_TTS]
  | .PMU_INJ_RES_TTS_HI => [Fld.PMU_INJ_RES_TTS_HI_TTS]
  | .PMU_INJ_RES_VALUE => [Fld.PMU_INJ_RES_VALUE_VALUE]
  | .PMU_INJ_RES_INFO => [Fld.PMU_INJ_RES_INFO_INFO, Fld.PMU_INJ_RES_INFO_VALID]
  | .PMU_FILT => [Fld.PMU_FILT_K, Fld.PMU_FILT_OSR]
  | .PMU_SEQ_ENTRY => [Fld.PMU_SEQ_ENTRY_INPUT, Fld.PMU_SEQ_ENTRY_GAIN, Fld.PMU_SEQ_ENTRY_FILT, Fld.PMU_SEQ_ENTRY_TWIN, Fld.PMU_SEQ_ENTRY_DELAY]
  | .PMU_XCHK_LIMIT => [Fld.PMU_XCHK_LIMIT_LSB]
  | .PMU_XCHK_CNT => [Fld.PMU_XCHK_CNT_COUNT]
  | .PMU_TWIN_CFG => [Fld.PMU_TWIN_CFG_EN, Fld.PMU_TWIN_CFG_WINDOW]
  | .PMU_TWIN_LIMIT => [Fld.PMU_TWIN_LIMIT_LSB]
  | .PMU_TWIN_STATUS => [Fld.PMU_TWIN_STATUS_NOPARTNER]
  | .PMU_TWIN_FAIL_CNT => [Fld.PMU_TWIN_FAIL_CNT_COUNT]
  | .PMU_TWIN_MISS_CNT => [Fld.PMU_TWIN_MISS_CNT_COUNT]
  | .RAS_CTRL => [Fld.RAS_CTRL_EN, Fld.RAS_CTRL_OUT_DSI, Fld.RAS_CTRL_OUT_HFO, Fld.RAS_CTRL_TE_MODE, Fld.RAS_CTRL_HOLD]
  | .RAS_TIMING_H => [Fld.RAS_TIMING_H_HACTIVE, Fld.RAS_TIMING_H_HBLANK]
  | .RAS_TIMING_V => [Fld.RAS_TIMING_V_VACTIVE, Fld.RAS_TIMING_V_VBLANK]
  | .RAS_FMT => [Fld.RAS_FMT_BPP]
  | .RAS_DSI_CFG => [Fld.RAS_DSI_CFG_LANES, Fld.RAS_DSI_CFG_RATE]
  | .RAS_DSI_CMD => [Fld.RAS_DSI_CMD_DT, Fld.RAS_DSI_CMD_READ, Fld.RAS_DSI_CMD_GO, Fld.RAS_DSI_CMD_LEN]
  | .RAS_DSI_RESP => [Fld.RAS_DSI_RESP_DATA, Fld.RAS_DSI_RESP_DONE, Fld.RAS_DSI_RESP_ERR]
  | .RAS_DSI_PAYLOAD => [Fld.RAS_DSI_PAYLOAD_BYTES]
  | .RAS_REFRESH => [Fld.RAS_REFRESH_STATIC_DIV]
  | .RAS_STATUS => [Fld.RAS_STATUS_STATE, Fld.RAS_STATUS_TIMING_ERR, Fld.RAS_STATUS_TE_LOST]
  | .RAS_PIC_FRAME_LO => [Fld.RAS_PIC_FRAME_LO_FRAME]
  | .RAS_PIC_FRAME_HI => [Fld.RAS_PIC_FRAME_HI_FRAME]
  | .RAS_PIC_INFO => [Fld.RAS_PIC_INFO_SEQ, Fld.RAS_PIC_INFO_FLAGS]
  | .RAS_HFO_ADDR_LO => [Fld.RAS_HFO_ADDR_LO_ADDR]
  | .RAS_HFO_ADDR_HI => [Fld.RAS_HFO_ADDR_HI_ADDR]
  | .RAS_HFO_CFG => [Fld.RAS_HFO_CFG_COUNT, Fld.RAS_HFO_CFG_PITCH]
  | .RAS_HFO_STATUS => [Fld.RAS_HFO_STATUS_LAST]
  | .RAS_HFO_DROP => [Fld.RAS_HFO_DROP_COUNT]
  | .RAS_BUF_REL => [Fld.RAS_BUF_REL_BUF]
  | .RAS_BUF_REL_RESULT => [Fld.RAS_BUF_REL_RESULT_CODE]
  | .RAS_LUT_SEL => [Fld.RAS_LUT_SEL_LAYER]
  | .RAS_CRC_TL => [Fld.RAS_CRC_TL_X0, Fld.RAS_CRC_TL_Y0]
  | .RAS_CRC_BR => [Fld.RAS_CRC_BR_X1, Fld.RAS_CRC_BR_Y1]
  | .RAS_CRC_CFG => [Fld.RAS_CRC_CFG_EN, Fld.RAS_CRC_CFG_COMPARE]
  | .RAS_CRC_EXP => [Fld.RAS_CRC_EXP_CRC]
  | .RAS_CRC_VAL => [Fld.RAS_CRC_VAL_CRC]
  | .RAS_CRC_FAIL => [Fld.RAS_CRC_FAIL_COUNT]
  | .RAS_LAYER_SRC => [Fld.RAS_LAYER_SRC_KIND, Fld.RAS_LAYER_SRC_UNIT, Fld.RAS_LAYER_SRC_Z, Fld.RAS_LAYER_SRC_OUTPUTS]
  | .RAS_LAYER_CFG => [Fld.RAS_LAYER_CFG_EN, Fld.RAS_LAYER_CFG_ALPHA, Fld.RAS_LAYER_CFG_SX, Fld.RAS_LAYER_CFG_SY, Fld.RAS_LAYER_CFG_MAP, Fld.RAS_LAYER_CFG_SHIFT]
  | .RAS_LAYER_POS => [Fld.RAS_LAYER_POS_POSX, Fld.RAS_LAYER_POS_POSY]
  | .RAS_LAYER_BUF => [Fld.RAS_LAYER_BUF_BUF]
  | .RAS_LAYER_URG => [Fld.RAS_LAYER_URG_WMARK]
  | .RAS_LAYER_STATUS => [Fld.RAS_LAYER_STATUS_ACTIVE, Fld.RAS_LAYER_STATUS_NOSRC]
  | .RAS_UNDERRUN => [Fld.RAS_UNDERRUN_COUNT]
  | .RAS_BUF_ADDR_LO => [Fld.RAS_BUF_ADDR_LO_ADDR]
  | .RAS_BUF_ADDR_HI => [Fld.RAS_BUF_ADDR_HI_ADDR]
  | .RAS_BUF_GEOM => [Fld.RAS_BUF_GEOM_W, Fld.RAS_BUF_GEOM_H]
  | .RAS_BUF_PITCH => [Fld.RAS_BUF_PITCH_PITCH, Fld.RAS_BUF_PITCH_FMT]
  | .RAS_BUF_STATUS => [Fld.RAS_BUF_STATUS_STATE]
  | .HUB_DIE_ID => [Fld.HUB_DIE_ID_DIE, Fld.HUB_DIE_ID_STEPPING]
  | .HUB_DIE_STATUS => [Fld.HUB_DIE_STATUS_AWAKE, Fld.HUB_DIE_STATUS_SPLL_SETTLED, Fld.HUB_DIE_STATUS_STACK_OK, Fld.HUB_DIE_STATUS_THERM_HOLD, Fld.HUB_DIE_STATUS_TJ]
  | .AFE_CFG => [Fld.AFE_CFG_RANGE, Fld.AFE_CFG_FILTER, Fld.AFE_CFG_TERM, Fld.AFE_CFG_OVR_HOLD]
  | .AFE_OFFSET => [Fld.AFE_OFFSET_VALUE]
  | .AFE_VTT => [Fld.AFE_VTT_MV]
  | .AFE_STATUS => [Fld.AFE_STATUS_OVR, Fld.AFE_STATUS_PEAK, Fld.AFE_STATUS_CM_ERR, Fld.AFE_STATUS_CM_SEEN, Fld.AFE_STATUS_DISCONNECTED, Fld.AFE_STATUS_SETTLING]
  | .AFE_OVR_CNT => [Fld.AFE_OVR_CNT_COUNT]
  | .AFE_CM_MEAS => [Fld.AFE_CM_MEAS_CM]
  | .ILV_MODE => [Fld.ILV_MODE_MODE]
  | .ILV_CAL_CTRL => [Fld.ILV_CAL_CTRL_FREEZE, Fld.ILV_CAL_CTRL_ACT_MIN]
  | .ILV_LANE_STATUS => [Fld.ILV_LANE_STATUS_CAL_STALE, Fld.ILV_LANE_STATUS_PAUSED, Fld.ILV_LANE_STATUS_FROZEN, Fld.ILV_LANE_STATUS_PHASE, Fld.ILV_LANE_STATUS_SPARE, Fld.ILV_LANE_STATUS_ROT_COUNT]
  | .ILV_SLICE_MAP => [Fld.ILV_SLICE_MAP_POS0, Fld.ILV_SLICE_MAP_POS1, Fld.ILV_SLICE_MAP_POS2, Fld.ILV_SLICE_MAP_POS3]
  | .ILV_HANDOVER_LO => [Fld.ILV_HANDOVER_LO_FRAME]
  | .ILV_HANDOVER_HI => [Fld.ILV_HANDOVER_HI_FRAME]
  | .ILV_CAL_RATE => [Fld.ILV_CAL_RATE_RATE]
  | .ILV_CAL_SKIP => [Fld.ILV_CAL_SKIP_COUNT, Fld.ILV_CAL_SKIP_RUN]
  | .ILV_CAL_DEV => [Fld.ILV_CAL_DEV_SKEW, Fld.ILV_CAL_DEV_GAIN, Fld.ILV_CAL_DEV_OFS]
  | .TRG_LEVEL => [Fld.TRG_LEVEL_HI, Fld.TRG_LEVEL_LO]
  | .TRG_HYST => [Fld.TRG_HYST_HI_HYST, Fld.TRG_HYST_LO_HYST]
  | .TRG_COMP_STATE => [Fld.TRG_COMP_STATE_HI, Fld.TRG_COMP_STATE_LO]
  | .TRG_GEN_SRC => [Fld.TRG_GEN_SRC_SRC_CH, Fld.TRG_GEN_SRC_OUT_MASK]
  | .TRG_GEN_REGIONS => [Fld.TRG_GEN_REGIONS_REGION_MASK]
  | .TRG_GEN_CFG => [Fld.TRG_GEN_CFG_EN, Fld.TRG_GEN_CFG_TYPE, Fld.TRG_GEN_CFG_SET, Fld.TRG_GEN_CFG_SLOPE, Fld.TRG_GEN_CFG_QUAL, Fld.TRG_GEN_CFG_XSEL, Fld.TRG_GEN_CFG_HO_MODE, Fld.TRG_GEN_CFG_SEQ_MODE, Fld.TRG_GEN_CFG_SEQ_A]
  | .TRG_GEN_T1 => [Fld.TRG_GEN_T1_T1]
  | .TRG_GEN_T2 => [Fld.TRG_GEN_T2_T2]
  | .TRG_GEN_PAT => [Fld.TRG_GEN_PAT_MASK, Fld.TRG_GEN_PAT_VALUE]
  | .TRG_GEN_HOLDOFF => [Fld.TRG_GEN_HOLDOFF_TIME]
  | .TRG_GEN_HOLDCNT => [Fld.TRG_GEN_HOLDCNT_COUNT]
  | .TRG_GEN_SEQ_MIN => [Fld.TRG_GEN_SEQ_MIN_MIN]
  | .TRG_GEN_SEQ_MAX => [Fld.TRG_GEN_SEQ_MAX_MAX]
  | .TRG_GEN_SEQ_N => [Fld.TRG_GEN_SEQ_N_N]
  | .TRG_GEN_STATUS => [Fld.TRG_GEN_STATUS_FIRED, Fld.TRG_GEN_STATUS_SEQ_LOOP, Fld.TRG_GEN_STATUS_NO_SOURCE]
  | .TRG_GEN_CNT => [Fld.TRG_GEN_CNT_COUNT]
  | .TRG_GEN_LOST => [Fld.TRG_GEN_LOST_COUNT]
  | .TRG_GEN_TTS_LO => [Fld.TRG_GEN_TTS_LO_TTS]
  | .TRG_GEN_TTS_HI => [Fld.TRG_GEN_TTS_HI_TTS]
  | .TRG_FORCE => [Fld.TRG_FORCE_FORCE]
  | .RED_CFG => [Fld.RED_CFG_EN, Fld.RED_CFG_NST]
  | .RED_SRC => [Fld.RED_SRC_CH]
  | .RED_LEN => [Fld.RED_LEN_L]
  | .RED_DEC => [Fld.RED_DEC_D]
  | .RED_PHASE => [Fld.RED_PHASE_PHASE]
  | .RED_PACE => [Fld.RED_PACE_PACE]
  | .RED_STATUS => [Fld.RED_STATUS_RUNNING, Fld.RED_STATUS_PRIME, Fld.RED_STATUS_START]
  | .RED_SYNC_TTS_LO => [Fld.RED_SYNC_TTS_LO_TTS]
  | .RED_SYNC_TTS_HI => [Fld.RED_SYNC_TTS_HI_TTS]
  | .RED_OUT_COUNT => [Fld.RED_OUT_COUNT_COUNT]
  | .RED_BAD_CNT => [Fld.RED_BAD_CNT_COUNT]
  | .RED_LAST => [Fld.RED_LAST_MEAN, Fld.RED_LAST_PEAK]
  | .ACC_PLANE_SRC => [Fld.ACC_PLANE_SRC_CH]
  | .ACC_PLANE_CFG => [Fld.ACC_PLANE_CFG_EN, Fld.ACC_PLANE_CFG_XMODE, Fld.ACC_PLANE_CFG_REF, Fld.ACC_PLANE_CFG_EXCL_OVR, Fld.ACC_PLANE_CFG_EXCL_CLKBAD, Fld.ACC_PLANE_CFG_EXCL_STEP]
  | .ACC_PLANE_X => [Fld.ACC_PLANE_X_XB, Fld.ACC_PLANE_X_BIN]
  | .ACC_PLANE_XOFS => [Fld.ACC_PLANE_XOFS_XOFS]
  | .ACC_PLANE_UI => [Fld.ACC_PLANE_UI_UI]
  | .ACC_PLANE_SPAN => [Fld.ACC_PLANE_SPAN_SPAN]
  | .ACC_PLANE_Y => [Fld.ACC_PLANE_Y_Y_BASE, Fld.ACC_PLANE_Y_Y_SHIFT, Fld.ACC_PLANE_Y_YB]
  | .ACC_PLANE_STATUS => [Fld.ACC_PLANE_STATUS_ACTIVE, Fld.ACC_PLANE_STATUS_SAT, Fld.ACC_PLANE_STATUS_NOREF, Fld.ACC_PLANE_STATUS_STRIDE, Fld.ACC_PLANE_STATUS_ABSENT]
  | .ACC_PLANE_TOTAL_LO => [Fld.ACC_PLANE_TOTAL_LO_TOTAL]
  | .ACC_PLANE_TOTAL_HI => [Fld.ACC_PLANE_TOTAL_HI_TOTAL]
  | .ACC_PLANE_OUTSIDE => [Fld.ACC_PLANE_OUTSIDE_COUNT]
  | .ACC_PLANE_EXCL => [Fld.ACC_PLANE_EXCL_COUNT]
  | .ACC_PLANE_CLR_LO => [Fld.ACC_PLANE_CLR_LO_FRAME]
  | .ACC_PLANE_CLR_HI => [Fld.ACC_PLANE_CLR_HI_FRAME]
  | .ACC_MASK_CFG => [Fld.ACC_MASK_CFG_EN, Fld.ACC_MASK_CFG_PLANE, Fld.ACC_MASK_CFG_ACTION, Fld.ACC_MASK_CFG_HOLDOFF, Fld.ACC_MASK_CFG_ABSENT, Fld.ACC_MASK_CFG_NOPLANE, Fld.ACC_MASK_CFG_BANK]
  | .ACC_VIOL_CNT => [Fld.ACC_VIOL_CNT_COUNT]
  | .ACC_VIOL_FIRST_LO => [Fld.ACC_VIOL_FIRST_LO_TTS]
  | .ACC_VIOL_FIRST_HI => [Fld.ACC_VIOL_FIRST_HI_TTS]
  | .ACC_CTRL => [Fld.ACC_CTRL_CLR_PLANE, Fld.ACC_CTRL_CLR_VIOL, Fld.ACC_CTRL_SWAP]
  | .ACC_MASK_WSEL => [Fld.ACC_MASK_WSEL_MASK]
  | .ACC_SNAP_ADDR_LO => [Fld.ACC_SNAP_ADDR_LO_ADDR]
  | .ACC_SNAP_ADDR_HI => [Fld.ACC_SNAP_ADDR_HI_ADDR]
  | .ACC_SNAP_CTRL => [Fld.ACC_SNAP_CTRL_PLANE, Fld.ACC_SNAP_CTRL_GO, Fld.ACC_SNAP_CTRL_CLEAR]
  | .ACC_SNAP_STATUS => [Fld.ACC_SNAP_STATUS_STATE, Fld.ACC_SNAP_STATUS_OVERRUN]
  | .ACC_SNAP_FRAME_LO => [Fld.ACC_SNAP_FRAME_LO_FRAME]
  | .ACC_SNAP_FRAME_HI => [Fld.ACC_SNAP_FRAME_HI_FRAME]
  | .TIC_SRC => [Fld.TIC_SRC_START, Fld.TIC_SRC_STOP]
  | .TIC_CFG => [Fld.TIC_CFG_RUN, Fld.TIC_CFG_REPEAT, Fld.TIC_CFG_MODE, Fld.TIC_CFG_SIGNED, Fld.TIC_CFG_START_POLICY, Fld.TIC_CFG_START_EDGE, Fld.TIC_CFG_STOP_EDGE]
  | .TIC_N => [Fld.TIC_N_N]
  | .TIC_TIMEOUT => [Fld.TIC_TIMEOUT_NS]
  | .TIC_WINDOW => [Fld.TIC_WINDOW_TU]
  | .TIC_GATE => [Fld.TIC_GATE_NS]
  | .TIC_HOLDOFF => [Fld.TIC_HOLDOFF_NS]
  | .TIC_PACE => [Fld.TIC_PACE_NS]
  | .TIC_STATUS => [Fld.TIC_STATUS_MEASURING, Fld.TIC_STATUS_DONE, Fld.TIC_STATUS_NO_SOURCE]
  | .TIC_LAST_TTS_LO => [Fld.TIC_LAST_TTS_LO_TTS]
  | .TIC_LAST_TTS_HI => [Fld.TIC_LAST_TTS_HI_TTS]
  | .TIC_LAST_VALUE_LO => [Fld.TIC_LAST_VALUE_LO_VALUE]
  | .TIC_LAST_VALUE_HI => [Fld.TIC_LAST_VALUE_HI_VALUE, Fld.TIC_LAST_VALUE_HI_STATUS]
  | .TIC_LAST_COUNT => [Fld.TIC_LAST_COUNT_COUNT]
  | .TIC_LAST_SEQ => [Fld.TIC_LAST_SEQ_SEQ]
  | .TIC_TIMEOUT_CNT => [Fld.TIC_TIMEOUT_CNT_COUNT]
  | .TIC_IGNORED_CNT => [Fld.TIC_IGNORED_CNT_COUNT]
  | .SEG_ARM => [Fld.SEG_ARM_ARM, Fld.SEG_ARM_STATE]
  | .SEG_PRE => [Fld.SEG_PRE_PRE, Fld.SEG_PRE_PRE_POLICY]
  | .SEG_REGION_CFG => [Fld.SEG_REGION_CFG_CH_MASK, Fld.SEG_REGION_CFG_MODE, Fld.SEG_REGION_CFG_FORMAT]
  | .SEG_LEN => [Fld.SEG_LEN_LEN]
  | .SEG_BASE_LO => [Fld.SEG_BASE_LO_BASE]
  | .SEG_BASE_HI => [Fld.SEG_BASE_HI_BASE]
  | .SEG_SIZE_LO => [Fld.SEG_SIZE_LO_SIZE]
  | .SEG_SIZE_HI => [Fld.SEG_SIZE_HI_SIZE]
  | .SEG_DIR => [Fld.SEG_DIR_DIR_BASE]
  | .SEG_DIR_COUNT => [Fld.SEG_DIR_COUNT_COUNT]
  | .SEG_RATE_MAX => [Fld.SEG_RATE_MAX_RATE]
  | .SEG_CAP => [Fld.SEG_CAP_N]
  | .SEG_OPEN_COUNT => [Fld.SEG_OPEN_COUNT_COUNT]
  | .SEG_WB_COUNT => [Fld.SEG_WB_COUNT_COUNT]
  | .SEG_RELEASE => [Fld.SEG_RELEASE_COUNT]
  | .SEG_WMARK => [Fld.SEG_WMARK_LEVEL]
  | .SEG_STATUS => [Fld.SEG_STATUS_OVERRUN, Fld.SEG_STATUS_WMARK, Fld.SEG_STATUS_STOP_CAUSE]
  | .SEG_OVERRUN => [Fld.SEG_OVERRUN_COUNT]
  | .SEG_MISSED => [Fld.SEG_MISSED_REGION_MISSED]
  | .SEG_MISS_CAUSE => [Fld.SEG_MISS_CAUSE_LAST, Fld.SEG_MISS_CAUSE_SEEN]
  | .SEG_ARM_FRAME_LO => [Fld.SEG_ARM_FRAME_LO_FRAME]
  | .SEG_ARM_FRAME_HI => [Fld.SEG_ARM_FRAME_HI_FRAME]
  | .SEG_CONT_FILL => [Fld.SEG_CONT_FILL_SAMPLES]
  | .MEM_CFG => [Fld.MEM_CFG_ECC]
  | .MEM_STATUS => [Fld.MEM_STATUS_REFRESH_2X, Fld.MEM_STATUS_ECC_NOW, Fld.MEM_STATUS_TEMP]
  | .MEM_CE_CNT => [Fld.MEM_CE_CNT_COUNT]
  | .MEM_UE_CNT => [Fld.MEM_UE_CNT_COUNT]
  | .MEM_UE_ADDR_LO => [Fld.MEM_UE_ADDR_LO_ADDR]
  | .MEM_UE_ADDR_HI => [Fld.MEM_UE_ADDR_HI_ADDR]
  | .MEM_BRIDGE_RETRY => [Fld.MEM_BRIDGE_RETRY_COUNT]
  | .MEM_WBUF => [Fld.MEM_WBUF_FILL, Fld.MEM_WBUF_HIGH_SEEN]

/-- The blocks of Table REG-1 that hold registers; a block may stand in several copies. `pmux` is a measure
converter's part of PMU, `dieGlobal`, `cluster` and `seg` are the parts of an engine die (R33). -/
inductive Block where
  | hub | clk | pll | tlk | gln | evt | dma | mgt | pmu | pmux | ras | dieGlobal | cluster | seg
  deriving DecidableEq, Repr

/-- The BAR0 offset of copy `k` of a block (Table REG-1, R33). -/
def Block.base (k : Nat) : Block → Nat
  | .hub => 0x0000000
  | .clk => 0x0100000
  | .pll => 0x0108000
  | .tlk => 0x0200000
  | .gln => 0x0300000
  | .evt => 0x0400000
  | .dma => 0x0500000
  | .mgt => 0x0600000
  | .pmu => 0x0700000
  | .pmux => 0x0700000 + k * 0x400
  | .ras => 0x0800000
  | .dieGlobal => 0x1000000 + k * 0x0800000
  | .cluster => 0x1000000 + (k / 2) * 0x0800000 + 0x100000 + (k % 2) * 0x100000
  | .seg => 0x1000000 + k * 0x0800000 + 0x600000

/-- How many copies of a block BAR0 holds. -/
def Block.copies : Block → Nat
  | .pmux | .dieGlobal | .seg => 2
  | .cluster => 4
  | _ => 1

/-- Where a register lies: its block, the offset of its first instance in a copy of the block, the step from one
instance to the next, and how many instances a copy of the block holds. -/
structure Place where
  block : Block
  off : Nat
  stride : Nat
  per : Nat
  deriving DecidableEq, Repr

/-- The place of every register (Tables REG-4 to REG-12, EVT-4). -/
def RegName.place : RegName → Place
  | .HUB_ID => ⟨.hub, 0x0, 0x0, 1⟩
  | .HUB_REV => ⟨.hub, 0x4, 0x0, 1⟩
  | .HUB_SERIAL_LO => ⟨.hub, 0x8, 0x0, 1⟩
  | .HUB_SERIAL_HI => ⟨.hub, 0xC, 0x0, 1⟩
  | .HUB_JTAG_ID => ⟨.hub, 0x10, 0x0, 1⟩
  | .HUB_CAPS => ⟨.hub, 0x14, 0x0, 1⟩
  | .HUB_SCRATCH => ⟨.hub, 0x18, 0x0, 1⟩
  | .HUB_GLOBAL_STATUS => ⟨.hub, 0x20, 0x0, 1⟩
  | .HUB_TIME_LO => ⟨.hub, 0x24, 0x0, 1⟩
  | .HUB_TIME_HI => ⟨.hub, 0x28, 0x0, 1⟩
  | .HUB_RESET_CAUSE => ⟨.hub, 0x30, 0x0, 1⟩
  | .HUB_BOOT_STATUS => ⟨.hub, 0x34, 0x0, 1⟩
  | .HUB_PWR_REQ => ⟨.hub, 0x38, 0x0, 1⟩
  | .HUB_PWR_STATUS => ⟨.hub, 0x3C, 0x0, 1⟩
  | .HUB_TICK_CFG => ⟨.hub, 0x100, 0x0, 1⟩
  | .HUB_FRAME_LO => ⟨.hub, 0x104, 0x0, 1⟩
  | .HUB_FRAME_HI => ⟨.hub, 0x108, 0x0, 1⟩
  | .HUB_TICK_STATUS => ⟨.hub, 0x10C, 0x0, 1⟩
  | .HUB_SH_CTRL => ⟨.hub, 0x110, 0x0, 1⟩
  | .HUB_SH_STATUS => ⟨.hub, 0x114, 0x0, 1⟩
  | .HUB_SH_COMMIT_LO => ⟨.hub, 0x118, 0x0, 1⟩
  | .HUB_SH_COMMIT_HI => ⟨.hub, 0x11C, 0x0, 1⟩
  | .HUB_HOST_BUDGET => ⟨.hub, 0x120, 0x0, 1⟩
  | .HUB_HOST_STALL_MAX => ⟨.hub, 0x124, 0x0, 1⟩
  | .HUB_HOST_STALL_VIOL => ⟨.hub, 0x128, 0x0, 1⟩
  | .HUB_PITCH_STATUS => ⟨.hub, 0x200, 0x0, 1⟩
  | .HUB_PITCH_ID => ⟨.hub, 0x204, 0x0, 1⟩
  | .HUB_PITCH_VER => ⟨.hub, 0x208, 0x0, 1⟩
  | .HUB_PITCH_CRC => ⟨.hub, 0x20C, 0x0, 1⟩
  | .HUB_PITCH_PARTIAL => ⟨.hub, 0x210, 0x0, 1⟩
  | .HUB_PITCH_SIG => ⟨.hub, 0x214, 0x0, 1⟩
  | .HUB_SYNC_CMD => ⟨.hub, 0x300, 0x0, 1⟩
  | .HUB_SYNC_CFG => ⟨.hub, 0x304, 0x0, 1⟩
  | .HUB_SYNC_LAST_LO => ⟨.hub, 0x308, 0x0, 1⟩
  | .HUB_SYNC_LAST_HI => ⟨.hub, 0x30C, 0x0, 1⟩
  | .HUB_SYNC_SRC => ⟨.hub, 0x310, 0x0, 1⟩
  | .HUB_SYNC_DROP => ⟨.hub, 0x314, 0x0, 1⟩
  | .HUB_TRIG_IN_CFG => ⟨.hub, 0x400, 0x4, 8⟩
  | .HUB_TRIG_IN_CNT => ⟨.hub, 0x420, 0x4, 8⟩
  | .HUB_TRIG_OUT_CFG => ⟨.hub, 0x440, 0x4, 4⟩
  | .HUB_TRIG_OUT_MERGED => ⟨.hub, 0x450, 0x4, 4⟩
  | .HUB_BIST_REQ => ⟨.hub, 0x500, 0x0, 1⟩
  | .HUB_BIST_ARG_LO => ⟨.hub, 0x504, 0x0, 1⟩
  | .HUB_BIST_ARG_HI => ⟨.hub, 0x508, 0x0, 1⟩
  | .HUB_BIST_STATUS => ⟨.hub, 0x50C, 0x0, 1⟩
  | .HUB_SCHED_FRAME_LO => ⟨.hub, 0x1000, 0x20, 32⟩
  | .HUB_SCHED_FRAME_HI => ⟨.hub, 0x1004, 0x20, 32⟩
  | .HUB_SCHED_ARG => ⟨.hub, 0x1008, 0x20, 32⟩
  | .HUB_SCHED_CMD => ⟨.hub, 0x100C, 0x20, 32⟩
  | .HUB_SCHED_STATUS => ⟨.hub, 0x1010, 0x20, 32⟩
  | .HUB_LINK_DIAG => ⟨.hub, 0x2000, 0x20, 9⟩
  | .HUB_LINK_CHK => ⟨.hub, 0x2004, 0x20, 9⟩
  | .HUB_LINK_ERR => ⟨.hub, 0x2008, 0x20, 9⟩
  | .HUB_LINK_BITS_LO => ⟨.hub, 0x200C, 0x20, 9⟩
  | .HUB_LINK_BITS_HI => ⟨.hub, 0x2010, 0x20, 9⟩
  | .CLK_SRC_CFG => ⟨.clk, 0x0, 0x0, 1⟩
  | .CLK_SRC_STATUS => ⟨.clk, 0x4, 0x0, 1⟩
  | .CLK_QUAL => ⟨.clk, 0x8, 0x0, 1⟩
  | .CLK_MON => ⟨.clk, 0xC, 0x0, 1⟩
  | .CLK_FREQ_DEV => ⟨.clk, 0x10, 0x0, 1⟩
  | .CLK_CLKIN_CFG => ⟨.clk, 0x14, 0x0, 1⟩
  | .CLK_MUX_SEL => ⟨.clk, 0x20, 0x4, 7⟩
  | .CLK_MUX_STATUS => ⟨.clk, 0x40, 0x0, 1⟩
  | .CLK_GATE_REQ => ⟨.clk, 0x50, 0x0, 1⟩
  | .CLK_GATE_RESULT => ⟨.clk, 0x54, 0x0, 1⟩
  | .CLK_GATE_STATE_LO => ⟨.clk, 0x58, 0x0, 1⟩
  | .CLK_GATE_STATE_HI => ⟨.clk, 0x5C, 0x0, 1⟩
  | .PLL_LOCK_CFG => ⟨.pll, 0x0, 0x4, 4⟩
  | .PLL_JPLL_CFG => ⟨.pll, 0x10, 0x0, 1⟩
  | .PLL_JPLL_STATUS => ⟨.pll, 0x14, 0x0, 1⟩
  | .PLL_APLL_CFG => ⟨.pll, 0x18, 0x0, 1⟩
  | .PLL_APLL_FREQ => ⟨.pll, 0x1C, 0x0, 1⟩
  | .PLL_APLL_DIV => ⟨.pll, 0x20, 0x0, 1⟩
  | .PLL_APLL_STATUS => ⟨.pll, 0x24, 0x0, 1⟩
  | .PLL_SPLL_CFG => ⟨.pll, 0x100, 0x40, 2⟩
  | .PLL_SPLL_RATE => ⟨.pll, 0x104, 0x40, 2⟩
  | .PLL_SPLL_RATE_NOW => ⟨.pll, 0x108, 0x40, 2⟩
  | .PLL_SPLL_PHASE => ⟨.pll, 0x10C, 0x40, 2⟩
  | .PLL_SPLL_STATUS => ⟨.pll, 0x110, 0x40, 2⟩
  | .PLL_SPLL_ANCHOR_LO => ⟨.pll, 0x114, 0x40, 2⟩
  | .PLL_SPLL_ANCHOR_HI => ⟨.pll, 0x118, 0x40, 2⟩
  | .PLL_SPLL_RETRY => ⟨.pll, 0x11C, 0x40, 2⟩
  | .PLL_AUX_CFG => ⟨.pll, 0x200, 0x10, 4⟩
  | .PLL_AUX_DELAY => ⟨.pll, 0x204, 0x10, 4⟩
  | .TLK_CTRL => ⟨.tlk, 0x0, 0x0, 1⟩
  | .TLK_STATUS => ⟨.tlk, 0x4, 0x0, 1⟩
  | .TLK_RELOCK => ⟨.tlk, 0x8, 0x0, 1⟩
  | .TLK_RELOCK_OFS => ⟨.tlk, 0xC, 0x0, 1⟩
  | .TLK_MARK => ⟨.tlk, 0x10, 0x0, 1⟩
  | .TLK_DELAY_CFG => ⟨.tlk, 0x14, 0x0, 1⟩
  | .TLK_DELAY_MEAS => ⟨.tlk, 0x18, 0x0, 1⟩
  | .TLK_TRIG_EN => ⟨.tlk, 0x1C, 0x0, 1⟩
  | .TLK_SITE => ⟨.tlk, 0x20, 0x0, 1⟩
  | .TLK_PEER_STATUS => ⟨.tlk, 0x24, 0x0, 1⟩
  | .TLK_ERR => ⟨.tlk, 0x28, 0x0, 1⟩
  | .TLK_BCAST_DROP => ⟨.tlk, 0x2C, 0x0, 1⟩
  | .TLK_TRIG_DROP => ⟨.tlk, 0x30, 0x0, 1⟩
  | .TLK_PHY => ⟨.tlk, 0x34, 0x0, 1⟩
  | .TLK_ARM_MAP => ⟨.tlk, 0x40, 0x4, 16⟩
  | .GLN_CFG => ⟨.gln, 0x0, 0x0, 1⟩
  | .GLN_STATUS => ⟨.gln, 0x4, 0x0, 1⟩
  | .GLN_EPOCH_OFS => ⟨.gln, 0x8, 0x0, 1⟩
  | .GLN_ALIGN => ⟨.gln, 0xC, 0x0, 1⟩
  | .GLN_FAIL => ⟨.gln, 0x10, 0x0, 1⟩
  | .GLN_DT_LO => ⟨.gln, 0x14, 0x0, 1⟩
  | .GLN_DT_HI => ⟨.gln, 0x18, 0x0, 1⟩
  | .GLN_CMP_CFG => ⟨.gln, 0x1C, 0x0, 1⟩
  | .GLN_CMP_TOL => ⟨.gln, 0x20, 0x0, 1⟩
  | .GLN_CMP_CTRL_CNT => ⟨.gln, 0x24, 0x0, 1⟩
  | .GLN_CMP_VAL_CNT => ⟨.gln, 0x28, 0x0, 1⟩
  | .GLN_CMP_MISS_CNT => ⟨.gln, 0x2C, 0x0, 1⟩
  | .GLN_CMP_LAST_LO => ⟨.gln, 0x30, 0x0, 1⟩
  | .GLN_CMP_LAST_HI => ⟨.gln, 0x34, 0x0, 1⟩
  | .GLN_SYNC_DROP => ⟨.gln, 0x38, 0x0, 1⟩
  | .GLN_ERR => ⟨.gln, 0x3C, 0x0, 1⟩
  | .EVT_STATUS => ⟨.evt, 0x0, 0x4, 16⟩
  | .EVT_ENABLE => ⟨.evt, 0x40, 0x4, 16⟩
  | .EVT_ACTIVE => ⟨.evt, 0x80, 0x4, 16⟩
  | .EVT_VEC_ACK => ⟨.evt, 0xC0, 0x0, 1⟩
  | .EVT_VEC_ARMED_LO => ⟨.evt, 0xC4, 0x0, 1⟩
  | .EVT_VEC_ARMED_HI => ⟨.evt, 0xC8, 0x0, 1⟩
  | .EVT_ROUTE => ⟨.evt, 0x1000, 0x4, 512⟩
  | .EVT_DATA => ⟨.evt, 0x2000, 0x4, 512⟩
  | .EVT_CNT => ⟨.evt, 0x3000, 0x4, 512⟩
  | .DMA_GLOBAL_STATUS => ⟨.dma, 0x0, 0x0, 1⟩
  | .DMA_LINK_STATUS => ⟨.dma, 0x4, 0x0, 1⟩
  | .DMA_LINK_RESET_CNT => ⟨.dma, 0x8, 0x0, 1⟩
  | .DMA_Q_KIND => ⟨.dma, 0x1000, 0x100, 64⟩
  | .DMA_Q_CTRL => ⟨.dma, 0x1004, 0x100, 64⟩
  | .DMA_Q_ABORT => ⟨.dma, 0x1008, 0x100, 64⟩
  | .DMA_Q_CFG => ⟨.dma, 0x100C, 0x100, 64⟩
  | .DMA_Q_STATUS => ⟨.dma, 0x1010, 0x100, 64⟩
  | .DMA_Q_DELIV => ⟨.dma, 0x1014, 0x100, 64⟩
  | .DMA_Q_LATE => ⟨.dma, 0x1018, 0x100, 64⟩
  | .DMA_Q_RING_LO => ⟨.dma, 0x1020, 0x100, 64⟩
  | .DMA_Q_RING_HI => ⟨.dma, 0x1024, 0x100, 64⟩
  | .DMA_Q_CPL_LO => ⟨.dma, 0x1028, 0x100, 64⟩
  | .DMA_Q_CPL_HI => ⟨.dma, 0x102C, 0x100, 64⟩
  | .DMA_Q_RING_SIZE => ⟨.dma, 0x1030, 0x100, 64⟩
  | .DMA_Q_TAIL => ⟨.dma, 0x1034, 0x100, 64⟩
  | .DMA_Q_HEAD => ⟨.dma, 0x1038, 0x100, 64⟩
  | .DMA_Q_CPL_WR => ⟨.dma, 0x103C, 0x100, 64⟩
  | .DMA_Q_CPL_RD => ⟨.dma, 0x1040, 0x100, 64⟩
  | .DMA_Q_WR_OFS => ⟨.dma, 0x1044, 0x100, 64⟩
  | .DMA_Q_STAGED => ⟨.dma, 0x1048, 0x100, 64⟩
  | .DMA_Q_LOST_LO => ⟨.dma, 0x104C, 0x100, 64⟩
  | .DMA_Q_LOST_HI => ⟨.dma, 0x1050, 0x100, 64⟩
  | .MGT_MB_CMD => ⟨.mgt, 0x0, 0x0, 1⟩
  | .MGT_MB_DOORBELL => ⟨.mgt, 0x4, 0x0, 1⟩
  | .MGT_MB_STATE => ⟨.mgt, 0x8, 0x0, 1⟩
  | .MGT_MB_ACK => ⟨.mgt, 0xC, 0x0, 1⟩
  | .MGT_MB_ARG => ⟨.mgt, 0x20, 0x4, 8⟩
  | .MGT_MB_RES => ⟨.mgt, 0x40, 0x4, 8⟩
  | .MGT_FW_VER => ⟨.mgt, 0x60, 0x0, 1⟩
  | .MGT_FW_STATUS => ⟨.mgt, 0x64, 0x0, 1⟩
  | .MGT_LOG_SEQ => ⟨.mgt, 0x68, 0x0, 1⟩
  | .MGT_LOG_DROP => ⟨.mgt, 0x6C, 0x0, 1⟩
  | .MGT_SMB_CFG => ⟨.mgt, 0x70, 0x0, 1⟩
  | .MGT_PMB_CFG => ⟨.mgt, 0x74, 0x0, 1⟩
  | .MGT_DEBUG_STATUS => ⟨.mgt, 0x78, 0x0, 1⟩
  | .MGT_SENSE => ⟨.mgt, 0x100, 0x4, 14⟩
  | .MGT_THR => ⟨.mgt, 0x140, 0x4, 14⟩
  | .MGT_PMB_DEV => ⟨.mgt, 0x200, 0x10, 8⟩
  | .MGT_PMB_VI => ⟨.mgt, 0x204, 0x10, 8⟩
  | .MGT_PMB_TS => ⟨.mgt, 0x208, 0x10, 8⟩
  | .PMU_FORCE_CFG => ⟨.pmu, 0x0, 0x10, 16⟩
  | .PMU_FORCE_CODE => ⟨.pmu, 0x4, 0x10, 16⟩
  | .PMU_FORCE_NOW => ⟨.pmu, 0x8, 0x10, 16⟩
  | .PMU_FORCE_TTS_LO => ⟨.pmu, 0x100, 0x0, 1⟩
  | .PMU_FORCE_TTS_HI => ⟨.pmu, 0x104, 0x0, 1⟩
  | .PMU_FORCE_OUT => ⟨.pmu, 0x108, 0x0, 1⟩
  | .PMU_MC_CFG => ⟨.pmux, 0x1000, 0, 1⟩
  | .PMU_SEQ_CTRL => ⟨.pmux, 0x1080, 0, 1⟩
  | .PMU_SEQ_STATUS => ⟨.pmux, 0x1084, 0, 1⟩
  | .PMU_SEQ_SKIP => ⟨.pmux, 0x1088, 0, 1⟩
  | .PMU_PACE => ⟨.pmux, 0x108C, 0, 1⟩
  | .PMU_ABORT_CNT => ⟨.pmux, 0x1090, 0, 1⟩
  | .PMU_INJ_REQ => ⟨.pmux, 0x1094, 0, 1⟩
  | .PMU_INJ_TMPL => ⟨.pmux, 0x1098, 0, 1⟩
  | .PMU_INJ_TRIG => ⟨.pmux, 0x109C, 0, 1⟩
  | .PMU_INJ_DROP => ⟨.pmux, 0x10A0, 0, 1⟩
  | .PMU_CAL_CTRL => ⟨.pmux, 0x10A4, 0, 1⟩
  | .PMU_LAST_TTS_LO => ⟨.pmux, 0x10B0, 0, 1⟩
  | .PMU_LAST_TTS_HI => ⟨.pmux, 0x10B4, 0, 1⟩
  | .PMU_LAST_VALUE => ⟨.pmux, 0x10B8, 0, 1⟩
  | .PMU_LAST_INFO => ⟨.pmux, 0x10BC, 0, 1⟩
  | .PMU_INJ_RES_TTS_LO => ⟨.pmux, 0x10C0, 0, 1⟩
  | .PMU_INJ_RES_TTS_HI => ⟨.pmux, 0x10C4, 0, 1⟩
  | .PMU_INJ_RES_VALUE => ⟨.pmux, 0x10C8, 0, 1⟩
  | .PMU_INJ_RES_INFO => ⟨.pmux, 0x10CC, 0, 1⟩
  | .PMU_FILT => ⟨.pmux, 0x1010, 4, 4⟩
  | .PMU_SEQ_ENTRY => ⟨.pmux, 0x1040, 4, 16⟩
  | .PMU_XCHK_LIMIT => ⟨.pmu, 0x2000, 0x0, 1⟩
  | .PMU_XCHK_CNT => ⟨.pmu, 0x2004, 0x0, 1⟩
  | .PMU_TWIN_CFG => ⟨.pmu, 0x2008, 0x0, 1⟩
  | .PMU_TWIN_LIMIT => ⟨.pmu, 0x200C, 0x0, 1⟩
  | .PMU_TWIN_STATUS => ⟨.pmu, 0x2010, 0x0, 1⟩
  | .PMU_TWIN_FAIL_CNT => ⟨.pmu, 0x2014, 0x0, 1⟩
  | .PMU_TWIN_MISS_CNT => ⟨.pmu, 0x2018, 0x0, 1⟩
  | .RAS_CTRL => ⟨.ras, 0x0, 0x0, 1⟩
  | .RAS_TIMING_H => ⟨.ras, 0x4, 0x0, 1⟩
  | .RAS_TIMING_V => ⟨.ras, 0x8, 0x0, 1⟩
  | .RAS_FMT => ⟨.ras, 0xC, 0x0, 1⟩
  | .RAS_DSI_CFG => ⟨.ras, 0x10, 0x0, 1⟩
  | .RAS_DSI_CMD => ⟨.ras, 0x14, 0x0, 1⟩
  | .RAS_DSI_RESP => ⟨.ras, 0x18, 0x0, 1⟩
  | .RAS_DSI_PAYLOAD => ⟨.ras, 0x20, 0x4, 4⟩
  | .RAS_REFRESH => ⟨.ras, 0x30, 0x0, 1⟩
  | .RAS_STATUS => ⟨.ras, 0x34, 0x0, 1⟩
  | .RAS_PIC_FRAME_LO => ⟨.ras, 0x38, 0x0, 1⟩
  | .RAS_PIC_FRAME_HI => ⟨.ras, 0x3C, 0x0, 1⟩
  | .RAS_PIC_INFO => ⟨.ras, 0x40, 0x0, 1⟩
  | .RAS_HFO_ADDR_LO => ⟨.ras, 0x44, 0x0, 1⟩
  | .RAS_HFO_ADDR_HI => ⟨.ras, 0x48, 0x0, 1⟩
  | .RAS_HFO_CFG => ⟨.ras, 0x4C, 0x0, 1⟩
  | .RAS_HFO_STATUS => ⟨.ras, 0x50, 0x0, 1⟩
  | .RAS_HFO_DROP => ⟨.ras, 0x54, 0x0, 1⟩
  | .RAS_BUF_REL => ⟨.ras, 0x58, 0x0, 1⟩
  | .RAS_BUF_REL_RESULT => ⟨.ras, 0x5C, 0x0, 1⟩
  | .RAS_LUT_SEL => ⟨.ras, 0x60, 0x0, 1⟩
  | .RAS_CRC_TL => ⟨.ras, 0x100, 0x20, 8⟩
  | .RAS_CRC_BR => ⟨.ras, 0x104, 0x20, 8⟩
  | .RAS_CRC_CFG => ⟨.ras, 0x108, 0x20, 8⟩
  | .RAS_CRC_EXP => ⟨.ras, 0x10C, 0x20, 8⟩
  | .RAS_CRC_VAL => ⟨.ras, 0x110, 0x20, 8⟩
  | .RAS_CRC_FAIL => ⟨.ras, 0x114, 0x20, 8⟩
  | .RAS_LAYER_SRC => ⟨.ras, 0x200, 0x20, 8⟩
  | .RAS_LAYER_CFG => ⟨.ras, 0x204, 0x20, 8⟩
  | .RAS_LAYER_POS => ⟨.ras, 0x208, 0x20, 8⟩
  | .RAS_LAYER_BUF => ⟨.ras, 0x20C, 0x20, 8⟩
  | .RAS_LAYER_URG => ⟨.ras, 0x210, 0x20, 8⟩
  | .RAS_LAYER_STATUS => ⟨.ras, 0x214, 0x20, 8⟩
  | .RAS_UNDERRUN => ⟨.ras, 0x218, 0x20, 8⟩
  | .RAS_BUF_ADDR_LO => ⟨.ras, 0x400, 0x20, 16⟩
  | .RAS_BUF_ADDR_HI => ⟨.ras, 0x404, 0x20, 16⟩
  | .RAS_BUF_GEOM => ⟨.ras, 0x408, 0x20, 16⟩
  | .RAS_BUF_PITCH => ⟨.ras, 0x40C, 0x20, 16⟩
  | .RAS_BUF_STATUS => ⟨.ras, 0x410, 0x20, 16⟩
  | .HUB_DIE_ID => ⟨.dieGlobal, 0x0, 0x0, 1⟩
  | .HUB_DIE_STATUS => ⟨.dieGlobal, 0x4, 0x0, 1⟩
  | .AFE_CFG => ⟨.cluster, 0x0, 0x100, 4⟩
  | .AFE_OFFSET => ⟨.cluster, 0x4, 0x100, 4⟩
  | .AFE_VTT => ⟨.cluster, 0x8, 0x100, 4⟩
  | .AFE_STATUS => ⟨.cluster, 0xC, 0x100, 4⟩
  | .AFE_OVR_CNT => ⟨.cluster, 0x10, 0x100, 4⟩
  | .AFE_CM_MEAS => ⟨.cluster, 0x14, 0x100, 4⟩
  | .ILV_MODE => ⟨.cluster, 0x10000, 0x0, 1⟩
  | .ILV_CAL_CTRL => ⟨.cluster, 0x10100, 0x40, 4⟩
  | .ILV_LANE_STATUS => ⟨.cluster, 0x10104, 0x40, 4⟩
  | .ILV_SLICE_MAP => ⟨.cluster, 0x10108, 0x40, 4⟩
  | .ILV_HANDOVER_LO => ⟨.cluster, 0x1010C, 0x40, 4⟩
  | .ILV_HANDOVER_HI => ⟨.cluster, 0x10110, 0x40, 4⟩
  | .ILV_CAL_RATE => ⟨.cluster, 0x10114, 0x40, 4⟩
  | .ILV_CAL_SKIP => ⟨.cluster, 0x10118, 0x40, 4⟩
  | .ILV_CAL_DEV => ⟨.cluster, 0x1011C, 0x40, 4⟩
  | .TRG_LEVEL => ⟨.cluster, 0x20000, 0x10, 4⟩
  | .TRG_HYST => ⟨.cluster, 0x20004, 0x10, 4⟩
  | .TRG_COMP_STATE => ⟨.cluster, 0x20008, 0x10, 4⟩
  | .TRG_GEN_SRC => ⟨.cluster, 0x20100, 0x80, 4⟩
  | .TRG_GEN_REGIONS => ⟨.cluster, 0x20104, 0x80, 4⟩
  | .TRG_GEN_CFG => ⟨.cluster, 0x20108, 0x80, 4⟩
  | .TRG_GEN_T1 => ⟨.cluster, 0x2010C, 0x80, 4⟩
  | .TRG_GEN_T2 => ⟨.cluster, 0x20110, 0x80, 4⟩
  | .TRG_GEN_PAT => ⟨.cluster, 0x20114, 0x80, 4⟩
  | .TRG_GEN_HOLDOFF => ⟨.cluster, 0x20118, 0x80, 4⟩
  | .TRG_GEN_HOLDCNT => ⟨.cluster, 0x2011C, 0x80, 4⟩
  | .TRG_GEN_SEQ_MIN => ⟨.cluster, 0x20120, 0x80, 4⟩
  | .TRG_GEN_SEQ_MAX => ⟨.cluster, 0x20124, 0x80, 4⟩
  | .TRG_GEN_SEQ_N => ⟨.cluster, 0x20128, 0x80, 4⟩
  | .TRG_GEN_STATUS => ⟨.cluster, 0x2012C, 0x80, 4⟩
  | .TRG_GEN_CNT => ⟨.cluster, 0x20130, 0x80, 4⟩
  | .TRG_GEN_LOST => ⟨.cluster, 0x20134, 0x80, 4⟩
  | .TRG_GEN_TTS_LO => ⟨.cluster, 0x20138, 0x80, 4⟩
  | .TRG_GEN_TTS_HI => ⟨.cluster, 0x2013C, 0x80, 4⟩
  | .TRG_FORCE => ⟨.cluster, 0x20300, 0x0, 1⟩
  | .RED_CFG => ⟨.cluster, 0x30000, 0x40, 4⟩
  | .RED_SRC => ⟨.cluster, 0x30004, 0x40, 4⟩
  | .RED_LEN => ⟨.cluster, 0x30008, 0x40, 4⟩
  | .RED_DEC => ⟨.cluster, 0x3000C, 0x40, 4⟩
  | .RED_PHASE => ⟨.cluster, 0x30010, 0x40, 4⟩
  | .RED_PACE => ⟨.cluster, 0x30014, 0x40, 4⟩
  | .RED_STATUS => ⟨.cluster, 0x30018, 0x40, 4⟩
  | .RED_SYNC_TTS_LO => ⟨.cluster, 0x3001C, 0x40, 4⟩
  | .RED_SYNC_TTS_HI => ⟨.cluster, 0x30020, 0x40, 4⟩
  | .RED_OUT_COUNT => ⟨.cluster, 0x30024, 0x40, 4⟩
  | .RED_BAD_CNT => ⟨.cluster, 0x30028, 0x40, 4⟩
  | .RED_LAST => ⟨.cluster, 0x3002C, 0x40, 4⟩
  | .ACC_PLANE_SRC => ⟨.cluster, 0x40000, 0x40, 4⟩
  | .ACC_PLANE_CFG => ⟨.cluster, 0x40004, 0x40, 4⟩
  | .ACC_PLANE_X => ⟨.cluster, 0x40008, 0x40, 4⟩
  | .ACC_PLANE_XOFS => ⟨.cluster, 0x4000C, 0x40, 4⟩
  | .ACC_PLANE_UI => ⟨.cluster, 0x40010, 0x40, 4⟩
  | .ACC_PLANE_SPAN => ⟨.cluster, 0x40014, 0x40, 4⟩
  | .ACC_PLANE_Y => ⟨.cluster, 0x40018, 0x40, 4⟩
  | .ACC_PLANE_STATUS => ⟨.cluster, 0x4001C, 0x40, 4⟩
  | .ACC_PLANE_TOTAL_LO => ⟨.cluster, 0x40020, 0x40, 4⟩
  | .ACC_PLANE_TOTAL_HI => ⟨.cluster, 0x40024, 0x40, 4⟩
  | .ACC_PLANE_OUTSIDE => ⟨.cluster, 0x40028, 0x40, 4⟩
  | .ACC_PLANE_EXCL => ⟨.cluster, 0x4002C, 0x40, 4⟩
  | .ACC_PLANE_CLR_LO => ⟨.cluster, 0x40030, 0x40, 4⟩
  | .ACC_PLANE_CLR_HI => ⟨.cluster, 0x40034, 0x40, 4⟩
  | .ACC_MASK_CFG => ⟨.cluster, 0x40200, 0x20, 8⟩
  | .ACC_VIOL_CNT => ⟨.cluster, 0x40204, 0x20, 8⟩
  | .ACC_VIOL_FIRST_LO => ⟨.cluster, 0x40208, 0x20, 8⟩
  | .ACC_VIOL_FIRST_HI => ⟨.cluster, 0x4020C, 0x20, 8⟩
  | .ACC_CTRL => ⟨.cluster, 0x40400, 0x0, 1⟩
  | .ACC_MASK_WSEL => ⟨.cluster, 0x40404, 0x0, 1⟩
  | .ACC_SNAP_ADDR_LO => ⟨.cluster, 0x40408, 0x0, 1⟩
  | .ACC_SNAP_ADDR_HI => ⟨.cluster, 0x4040C, 0x0, 1⟩
  | .ACC_SNAP_CTRL => ⟨.cluster, 0x40410, 0x0, 1⟩
  | .ACC_SNAP_STATUS => ⟨.cluster, 0x40414, 0x0, 1⟩
  | .ACC_SNAP_FRAME_LO => ⟨.cluster, 0x40418, 0x0, 1⟩
  | .ACC_SNAP_FRAME_HI => ⟨.cluster, 0x4041C, 0x0, 1⟩
  | .TIC_SRC => ⟨.cluster, 0x50000, 0x80, 8⟩
  | .TIC_CFG => ⟨.cluster, 0x50004, 0x80, 8⟩
  | .TIC_N => ⟨.cluster, 0x50008, 0x80, 8⟩
  | .TIC_TIMEOUT => ⟨.cluster, 0x5000C, 0x80, 8⟩
  | .TIC_WINDOW => ⟨.cluster, 0x50010, 0x80, 8⟩
  | .TIC_GATE => ⟨.cluster, 0x50014, 0x80, 8⟩
  | .TIC_HOLDOFF => ⟨.cluster, 0x50018, 0x80, 8⟩
  | .TIC_PACE => ⟨.cluster, 0x5001C, 0x80, 8⟩
  | .TIC_STATUS => ⟨.cluster, 0x50020, 0x80, 8⟩
  | .TIC_LAST_TTS_LO => ⟨.cluster, 0x50024, 0x80, 8⟩
  | .TIC_LAST_TTS_HI => ⟨.cluster, 0x50028, 0x80, 8⟩
  | .TIC_LAST_VALUE_LO => ⟨.cluster, 0x5002C, 0x80, 8⟩
  | .TIC_LAST_VALUE_HI => ⟨.cluster, 0x50030, 0x80, 8⟩
  | .TIC_LAST_COUNT => ⟨.cluster, 0x50034, 0x80, 8⟩
  | .TIC_LAST_SEQ => ⟨.cluster, 0x50038, 0x80, 8⟩
  | .TIC_TIMEOUT_CNT => ⟨.cluster, 0x5003C, 0x80, 8⟩
  | .TIC_IGNORED_CNT => ⟨.cluster, 0x50040, 0x80, 8⟩
  | .SEG_ARM => ⟨.seg, 0x0, 0x100, 16⟩
  | .SEG_PRE => ⟨.seg, 0x4, 0x100, 16⟩
  | .SEG_REGION_CFG => ⟨.seg, 0x8, 0x100, 16⟩
  | .SEG_LEN => ⟨.seg, 0xC, 0x100, 16⟩
  | .SEG_BASE_LO => ⟨.seg, 0x10, 0x100, 16⟩
  | .SEG_BASE_HI => ⟨.seg, 0x14, 0x100, 16⟩
  | .SEG_SIZE_LO => ⟨.seg, 0x18, 0x100, 16⟩
  | .SEG_SIZE_HI => ⟨.seg, 0x1C, 0x100, 16⟩
  | .SEG_DIR => ⟨.seg, 0x20, 0x100, 16⟩
  | .SEG_DIR_COUNT => ⟨.seg, 0x24, 0x100, 16⟩
  | .SEG_RATE_MAX => ⟨.seg, 0x28, 0x100, 16⟩
  | .SEG_CAP => ⟨.seg, 0x2C, 0x100, 16⟩
  | .SEG_OPEN_COUNT => ⟨.seg, 0x30, 0x100, 16⟩
  | .SEG_WB_COUNT => ⟨.seg, 0x34, 0x100, 16⟩
  | .SEG_RELEASE => ⟨.seg, 0x38, 0x100, 16⟩
  | .SEG_WMARK => ⟨.seg, 0x3C, 0x100, 16⟩
  | .SEG_STATUS => ⟨.seg, 0x40, 0x100, 16⟩
  | .SEG_OVERRUN => ⟨.seg, 0x44, 0x100, 16⟩
  | .SEG_MISSED => ⟨.seg, 0x48, 0x100, 16⟩
  | .SEG_MISS_CAUSE => ⟨.seg, 0x4C, 0x100, 16⟩
  | .SEG_ARM_FRAME_LO => ⟨.seg, 0x50, 0x100, 16⟩
  | .SEG_ARM_FRAME_HI => ⟨.seg, 0x54, 0x100, 16⟩
  | .SEG_CONT_FILL => ⟨.seg, 0x58, 0x100, 16⟩
  | .MEM_CFG => ⟨.seg, 0x10000, 0x0, 1⟩
  | .MEM_STATUS => ⟨.seg, 0x10004, 0x0, 1⟩
  | .MEM_CE_CNT => ⟨.seg, 0x10008, 0x0, 1⟩
  | .MEM_UE_CNT => ⟨.seg, 0x1000C, 0x0, 1⟩
  | .MEM_UE_ADDR_LO => ⟨.seg, 0x10010, 0x0, 1⟩
  | .MEM_UE_ADDR_HI => ⟨.seg, 0x10014, 0x0, 1⟩
  | .MEM_BRIDGE_RETRY => ⟨.seg, 0x10018, 0x0, 1⟩
  | .MEM_WBUF => ⟨.seg, 0x10020, 0x4, 2⟩

/-- How many instances of a register the device has. -/
def RegName.count (n : RegName) : Nat := n.place.per * n.place.block.copies

/-- The BAR0 offset of a register (R434): the index gives the copy of the block and the place in it. -/
def Reg.addr (r : Reg) : Nat :=
  let p := r.n.place
  p.block.base (r.i / p.per) + p.off + p.stride * (r.i % p.per)

/-- Part 0 of the list of register names. -/
def RegName.part0 : List RegName :=
  [.HUB_ID, .HUB_REV, .HUB_SERIAL_LO, .HUB_SERIAL_HI, .HUB_JTAG_ID, .HUB_CAPS,
   .HUB_SCRATCH, .HUB_GLOBAL_STATUS, .HUB_TIME_LO, .HUB_TIME_HI, .HUB_RESET_CAUSE, .HUB_BOOT_STATUS,
   .HUB_PWR_REQ, .HUB_PWR_STATUS, .HUB_TICK_CFG, .HUB_FRAME_LO, .HUB_FRAME_HI, .HUB_TICK_STATUS,
   .HUB_SH_CTRL, .HUB_SH_STATUS, .HUB_SH_COMMIT_LO, .HUB_SH_COMMIT_HI, .HUB_HOST_BUDGET, .HUB_HOST_STALL_MAX,
   .HUB_HOST_STALL_VIOL, .HUB_PITCH_STATUS, .HUB_PITCH_ID, .HUB_PITCH_VER, .HUB_PITCH_CRC, .HUB_PITCH_PARTIAL,
   .HUB_PITCH_SIG, .HUB_SYNC_CMD, .HUB_SYNC_CFG, .HUB_SYNC_LAST_LO, .HUB_SYNC_LAST_HI, .HUB_SYNC_SRC,
   .HUB_SYNC_DROP, .HUB_TRIG_IN_CFG, .HUB_TRIG_IN_CNT, .HUB_TRIG_OUT_CFG, .HUB_TRIG_OUT_MERGED, .HUB_BIST_REQ,
   .HUB_BIST_ARG_LO, .HUB_BIST_ARG_HI, .HUB_BIST_STATUS, .HUB_SCHED_FRAME_LO, .HUB_SCHED_FRAME_HI, .HUB_SCHED_ARG,
   .HUB_SCHED_CMD, .HUB_SCHED_STATUS, .HUB_LINK_DIAG, .HUB_LINK_CHK, .HUB_LINK_ERR, .HUB_LINK_BITS_LO,
   .HUB_LINK_BITS_HI, .CLK_SRC_CFG, .CLK_SRC_STATUS, .CLK_QUAL, .CLK_MON, .CLK_FREQ_DEV]

/-- Part 1 of the list of register names. -/
def RegName.part1 : List RegName :=
  [.CLK_CLKIN_CFG, .CLK_MUX_SEL, .CLK_MUX_STATUS, .CLK_GATE_REQ, .CLK_GATE_RESULT, .CLK_GATE_STATE_LO,
   .CLK_GATE_STATE_HI, .PLL_LOCK_CFG, .PLL_JPLL_CFG, .PLL_JPLL_STATUS, .PLL_APLL_CFG, .PLL_APLL_FREQ,
   .PLL_APLL_DIV, .PLL_APLL_STATUS, .PLL_SPLL_CFG, .PLL_SPLL_RATE, .PLL_SPLL_RATE_NOW, .PLL_SPLL_PHASE,
   .PLL_SPLL_STATUS, .PLL_SPLL_ANCHOR_LO, .PLL_SPLL_ANCHOR_HI, .PLL_SPLL_RETRY, .PLL_AUX_CFG, .PLL_AUX_DELAY,
   .TLK_CTRL, .TLK_STATUS, .TLK_RELOCK, .TLK_RELOCK_OFS, .TLK_MARK, .TLK_DELAY_CFG,
   .TLK_DELAY_MEAS, .TLK_TRIG_EN, .TLK_SITE, .TLK_PEER_STATUS, .TLK_ERR, .TLK_BCAST_DROP,
   .TLK_TRIG_DROP, .TLK_PHY, .TLK_ARM_MAP, .GLN_CFG, .GLN_STATUS, .GLN_EPOCH_OFS,
   .GLN_ALIGN, .GLN_FAIL, .GLN_DT_LO, .GLN_DT_HI, .GLN_CMP_CFG, .GLN_CMP_TOL,
   .GLN_CMP_CTRL_CNT, .GLN_CMP_VAL_CNT, .GLN_CMP_MISS_CNT, .GLN_CMP_LAST_LO, .GLN_CMP_LAST_HI, .GLN_SYNC_DROP,
   .GLN_ERR, .EVT_STATUS, .EVT_ENABLE, .EVT_ACTIVE, .EVT_VEC_ACK, .EVT_VEC_ARMED_LO]

/-- Part 2 of the list of register names. -/
def RegName.part2 : List RegName :=
  [.EVT_VEC_ARMED_HI, .EVT_ROUTE, .EVT_DATA, .EVT_CNT, .DMA_GLOBAL_STATUS, .DMA_LINK_STATUS,
   .DMA_LINK_RESET_CNT, .DMA_Q_KIND, .DMA_Q_CTRL, .DMA_Q_ABORT, .DMA_Q_CFG, .DMA_Q_STATUS,
   .DMA_Q_DELIV, .DMA_Q_LATE, .DMA_Q_RING_LO, .DMA_Q_RING_HI, .DMA_Q_CPL_LO, .DMA_Q_CPL_HI,
   .DMA_Q_RING_SIZE, .DMA_Q_TAIL, .DMA_Q_HEAD, .DMA_Q_CPL_WR, .DMA_Q_CPL_RD, .DMA_Q_WR_OFS,
   .DMA_Q_STAGED, .DMA_Q_LOST_LO, .DMA_Q_LOST_HI, .MGT_MB_CMD, .MGT_MB_DOORBELL, .MGT_MB_STATE,
   .MGT_MB_ACK, .MGT_MB_ARG, .MGT_MB_RES, .MGT_FW_VER, .MGT_FW_STATUS, .MGT_LOG_SEQ,
   .MGT_LOG_DROP, .MGT_SMB_CFG, .MGT_PMB_CFG, .MGT_DEBUG_STATUS, .MGT_SENSE, .MGT_THR,
   .MGT_PMB_DEV, .MGT_PMB_VI, .MGT_PMB_TS, .PMU_FORCE_CFG, .PMU_FORCE_CODE, .PMU_FORCE_NOW,
   .PMU_FORCE_TTS_LO, .PMU_FORCE_TTS_HI, .PMU_FORCE_OUT, .PMU_MC_CFG, .PMU_SEQ_CTRL, .PMU_SEQ_STATUS,
   .PMU_SEQ_SKIP, .PMU_PACE, .PMU_ABORT_CNT, .PMU_INJ_REQ, .PMU_INJ_TMPL, .PMU_INJ_TRIG]

/-- Part 3 of the list of register names. -/
def RegName.part3 : List RegName :=
  [.PMU_INJ_DROP, .PMU_CAL_CTRL, .PMU_LAST_TTS_LO, .PMU_LAST_TTS_HI, .PMU_LAST_VALUE, .PMU_LAST_INFO,
   .PMU_INJ_RES_TTS_LO, .PMU_INJ_RES_TTS_HI, .PMU_INJ_RES_VALUE, .PMU_INJ_RES_INFO, .PMU_FILT, .PMU_SEQ_ENTRY,
   .PMU_XCHK_LIMIT, .PMU_XCHK_CNT, .PMU_TWIN_CFG, .PMU_TWIN_LIMIT, .PMU_TWIN_STATUS, .PMU_TWIN_FAIL_CNT,
   .PMU_TWIN_MISS_CNT, .RAS_CTRL, .RAS_TIMING_H, .RAS_TIMING_V, .RAS_FMT, .RAS_DSI_CFG,
   .RAS_DSI_CMD, .RAS_DSI_RESP, .RAS_DSI_PAYLOAD, .RAS_REFRESH, .RAS_STATUS, .RAS_PIC_FRAME_LO,
   .RAS_PIC_FRAME_HI, .RAS_PIC_INFO, .RAS_HFO_ADDR_LO, .RAS_HFO_ADDR_HI, .RAS_HFO_CFG, .RAS_HFO_STATUS,
   .RAS_HFO_DROP, .RAS_BUF_REL, .RAS_BUF_REL_RESULT, .RAS_LUT_SEL, .RAS_CRC_TL, .RAS_CRC_BR,
   .RAS_CRC_CFG, .RAS_CRC_EXP, .RAS_CRC_VAL, .RAS_CRC_FAIL, .RAS_LAYER_SRC, .RAS_LAYER_CFG,
   .RAS_LAYER_POS, .RAS_LAYER_BUF, .RAS_LAYER_URG, .RAS_LAYER_STATUS, .RAS_UNDERRUN, .RAS_BUF_ADDR_LO,
   .RAS_BUF_ADDR_HI, .RAS_BUF_GEOM, .RAS_BUF_PITCH, .RAS_BUF_STATUS, .HUB_DIE_ID, .HUB_DIE_STATUS]

/-- Part 4 of the list of register names. -/
def RegName.part4 : List RegName :=
  [.AFE_CFG, .AFE_OFFSET, .AFE_VTT, .AFE_STATUS, .AFE_OVR_CNT, .AFE_CM_MEAS,
   .ILV_MODE, .ILV_CAL_CTRL, .ILV_LANE_STATUS, .ILV_SLICE_MAP, .ILV_HANDOVER_LO, .ILV_HANDOVER_HI,
   .ILV_CAL_RATE, .ILV_CAL_SKIP, .ILV_CAL_DEV, .TRG_LEVEL, .TRG_HYST, .TRG_COMP_STATE,
   .TRG_GEN_SRC, .TRG_GEN_REGIONS, .TRG_GEN_CFG, .TRG_GEN_T1, .TRG_GEN_T2, .TRG_GEN_PAT,
   .TRG_GEN_HOLDOFF, .TRG_GEN_HOLDCNT, .TRG_GEN_SEQ_MIN, .TRG_GEN_SEQ_MAX, .TRG_GEN_SEQ_N, .TRG_GEN_STATUS,
   .TRG_GEN_CNT, .TRG_GEN_LOST, .TRG_GEN_TTS_LO, .TRG_GEN_TTS_HI, .TRG_FORCE, .RED_CFG,
   .RED_SRC, .RED_LEN, .RED_DEC, .RED_PHASE, .RED_PACE, .RED_STATUS,
   .RED_SYNC_TTS_LO, .RED_SYNC_TTS_HI, .RED_OUT_COUNT, .RED_BAD_CNT, .RED_LAST, .ACC_PLANE_SRC,
   .ACC_PLANE_CFG, .ACC_PLANE_X, .ACC_PLANE_XOFS, .ACC_PLANE_UI, .ACC_PLANE_SPAN, .ACC_PLANE_Y,
   .ACC_PLANE_STATUS, .ACC_PLANE_TOTAL_LO, .ACC_PLANE_TOTAL_HI, .ACC_PLANE_OUTSIDE, .ACC_PLANE_EXCL, .ACC_PLANE_CLR_LO]

/-- Part 5 of the list of register names. -/
def RegName.part5 : List RegName :=
  [.ACC_PLANE_CLR_HI, .ACC_MASK_CFG, .ACC_VIOL_CNT, .ACC_VIOL_FIRST_LO, .ACC_VIOL_FIRST_HI, .ACC_CTRL,
   .ACC_MASK_WSEL, .ACC_SNAP_ADDR_LO, .ACC_SNAP_ADDR_HI, .ACC_SNAP_CTRL, .ACC_SNAP_STATUS, .ACC_SNAP_FRAME_LO,
   .ACC_SNAP_FRAME_HI, .TIC_SRC, .TIC_CFG, .TIC_N, .TIC_TIMEOUT, .TIC_WINDOW,
   .TIC_GATE, .TIC_HOLDOFF, .TIC_PACE, .TIC_STATUS, .TIC_LAST_TTS_LO, .TIC_LAST_TTS_HI,
   .TIC_LAST_VALUE_LO, .TIC_LAST_VALUE_HI, .TIC_LAST_COUNT, .TIC_LAST_SEQ, .TIC_TIMEOUT_CNT, .TIC_IGNORED_CNT,
   .SEG_ARM, .SEG_PRE, .SEG_REGION_CFG, .SEG_LEN, .SEG_BASE_LO, .SEG_BASE_HI,
   .SEG_SIZE_LO, .SEG_SIZE_HI, .SEG_DIR, .SEG_DIR_COUNT, .SEG_RATE_MAX, .SEG_CAP,
   .SEG_OPEN_COUNT, .SEG_WB_COUNT, .SEG_RELEASE, .SEG_WMARK, .SEG_STATUS, .SEG_OVERRUN,
   .SEG_MISSED, .SEG_MISS_CAUSE, .SEG_ARM_FRAME_LO, .SEG_ARM_FRAME_HI, .SEG_CONT_FILL, .MEM_CFG,
   .MEM_STATUS, .MEM_CE_CNT, .MEM_UE_CNT, .MEM_UE_ADDR_LO, .MEM_UE_ADDR_HI, .MEM_BRIDGE_RETRY]

/-- Part 6 of the list of register names. -/
def RegName.part6 : List RegName :=
  [.MEM_WBUF]

/-- Every register name. -/
def RegName.all : List RegName :=
  RegName.part0 ++ RegName.part1 ++ RegName.part2 ++ RegName.part3 ++ RegName.part4 ++ RegName.part5 ++ RegName.part6

/-- The instance of register `n` that lies at BAR0 offset `a`, if one does: the copies of its block are tried in
turn. -/
def RegName.instanceAt (n : RegName) (a : Nat) : Option Nat :=
  let p := n.place
  let rec go : Nat → Option Nat
    | 0 => none
    | k + 1 =>
      let b := p.block.base k + p.off
      if b ≤ a ∧ (a - b) % (max p.stride 1) = 0 ∧ (a - b) / (max p.stride 1) < p.per then
        some (k * p.per + (a - b) / (max p.stride 1))
      else go k
  go p.block.copies

/-- The register at BAR0 offset `a` (R433): none where no table names a register. -/
def regAt (a : Nat) : Option Reg :=
  RegName.all.findSome? fun n => (n.instanceAt a).map fun i => ⟨n, i⟩

/-- The registers that a read of this _LO register latches with it (R436 and the registers' own tables). -/
def RegName.latches : RegName → List RegName
  | .HUB_SERIAL_LO => [.HUB_SERIAL_HI]
  | .HUB_TIME_LO => [.HUB_TIME_HI]
  | .HUB_FRAME_LO => [.HUB_FRAME_HI]
  | .HUB_SH_COMMIT_LO => [.HUB_SH_COMMIT_HI]
  | .HUB_SYNC_LAST_LO => [.HUB_SYNC_LAST_HI, .HUB_SYNC_SRC]
  | .HUB_LINK_BITS_LO => [.HUB_LINK_BITS_HI]
  | .PLL_SPLL_ANCHOR_LO => [.PLL_SPLL_ANCHOR_HI]
  | .ILV_HANDOVER_LO => [.ILV_HANDOVER_HI]
  | .TRG_GEN_TTS_LO => [.TRG_GEN_TTS_HI]
  | .SEG_ARM_FRAME_LO => [.SEG_ARM_FRAME_HI]
  | .MEM_UE_ADDR_LO => [.MEM_UE_ADDR_HI]
  | .RED_SYNC_TTS_LO => [.RED_SYNC_TTS_HI]
  | .ACC_PLANE_TOTAL_LO => [.ACC_PLANE_TOTAL_HI]
  | .ACC_PLANE_CLR_LO => [.ACC_PLANE_CLR_HI]
  | .ACC_VIOL_FIRST_LO => [.ACC_VIOL_FIRST_HI]
  | .ACC_SNAP_FRAME_LO => [.ACC_SNAP_FRAME_HI]
  | .TIC_LAST_TTS_LO => [.TIC_LAST_TTS_HI, .TIC_LAST_VALUE_LO, .TIC_LAST_VALUE_HI, .TIC_LAST_COUNT, .TIC_LAST_SEQ]
  | .PMU_FORCE_TTS_LO => [.PMU_FORCE_TTS_HI, .PMU_FORCE_OUT]
  | .PMU_LAST_TTS_LO => [.PMU_LAST_TTS_HI, .PMU_LAST_VALUE, .PMU_LAST_INFO]
  | .PMU_INJ_RES_TTS_LO => [.PMU_INJ_RES_TTS_HI, .PMU_INJ_RES_VALUE, .PMU_INJ_RES_INFO]
  | .RAS_PIC_FRAME_LO => [.RAS_PIC_FRAME_HI, .RAS_PIC_INFO]
  | .GLN_DT_LO => [.GLN_DT_HI]
  | .GLN_CMP_LAST_LO => [.GLN_CMP_LAST_HI]
  | _ => []

/-- The registers whose reads return a latch and not the live value (R436). -/
def RegName.latched (n : RegName) : Bool :=
  n ∈ [.HUB_SERIAL_HI, .HUB_TIME_HI, .HUB_FRAME_HI, .HUB_SH_COMMIT_HI, .HUB_SYNC_LAST_HI, .HUB_SYNC_SRC,
    .HUB_LINK_BITS_HI, .PLL_SPLL_ANCHOR_HI, .ILV_HANDOVER_HI, .TRG_GEN_TTS_HI, .SEG_ARM_FRAME_HI, .MEM_UE_ADDR_HI,
    .RED_SYNC_TTS_HI, .ACC_PLANE_TOTAL_HI, .ACC_PLANE_CLR_HI, .ACC_VIOL_FIRST_HI, .ACC_SNAP_FRAME_HI,
    .TIC_LAST_TTS_HI, .TIC_LAST_VALUE_LO, .TIC_LAST_VALUE_HI, .TIC_LAST_COUNT, .TIC_LAST_SEQ,
    .PMU_FORCE_TTS_HI, .PMU_FORCE_OUT, .PMU_LAST_TTS_HI, .PMU_LAST_VALUE, .PMU_LAST_INFO,
    .PMU_INJ_RES_TTS_HI, .PMU_INJ_RES_VALUE, .PMU_INJ_RES_INFO, .RAS_PIC_FRAME_HI, .RAS_PIC_INFO,
    .GLN_DT_HI, .GLN_CMP_LAST_HI]

/-- The value made of the reset values of a register's fields. -/
def fieldsReset (fs : List Fld) : Nat := (fs.map fun f => f.rst * 2 ^ f.lsb).sum

/-- The reset value of a register (R435), with the registers whose reset value depends on the index: Table PLL-4
(lock), R237, Table PMU-3, Table MGT-4, Table REG-2. The gate states are "per image"; before the boot pitch every
node is open (DESIGN CHOICE, log 5). -/
def Reg.resetVal (r : Reg) : BitVec 32 :=
  match r.n with
  | .PLL_LOCK_CFG => if r.i = 0 then 0xAC8#32 else if r.i = 3 then 0xA14#32 else 0xA02#32
  | .RED_SRC => BitVec.ofNat 32 (r.i % 16)
  | .PMU_FILT =>
    if r.i % 4 = 0 then 0x101#32 else if r.i % 4 = 1 then 0x1003#32 else if r.i % 4 = 2 then 0x30D44#32 else 0x3D0903#32
  | .MGT_THR => if r.i < 3 then 0x41A03E8#32 else if r.i < 5 then 0x3B60384#32 else 0x32001E#32
  | .HUB_DIE_ID => BitVec.ofNat 32 (0x2100 + r.i % 2)
  | .CLK_GATE_STATE_LO => 0xFFFFFFFF#32
  | .CLK_GATE_STATE_HI => 0x3#32
  | n => BitVec.ofNat 32 (fieldsReset n.fields)

end Sys2Proof
end

