-- ==== Sys2Proof/Machine/State.lean ====
section
/-! DEFINITION. The state of the device as plain data: the register file, the stacks, every queue, timer and latch
behind the registers, and the queue of waiting commands; the faults and refusals; and the state right after reset. -/

namespace Sys2Proof.Machine

/-- A table with ascending keys and no entry equal to what an unlisted key reads as. -/
abbrev Tab (α : Type) := List (Nat × α)

/-- An exact instant, or a span, in tu: num / den (R198: sample instants are fractions of a tu). -/
structure Ratio where
  num : Int
  den : Nat
  deriving DecidableEq, Repr

/-- What leaves the device, in the order it leaves: data that a read returns, writes to host memory, interrupts,
messages and pin changes. -/
inductive Out where
  | readData (v : Word)
  | bar2Data (bytes : List Byte) (poisoned : Bool)
  | hostWrite (addr : Nat) (bytes : List Byte) (poisoned : Bool)
  | msix (vec : Nat) (addrLo addrHi data : Word)
  | trigOut (line : Nat) (start stop : Tu) (activeLow : Bool)
  | syncOut (start stop : Tu)
  | timingLink (m : BitVec 64)
  | guyline (typ sub seq : Nat) (payload : List Byte) (copies : Nat)
  | dsi (dt : Nat) (payload : List Byte)
  /-- one line of a DSI frame: the DCS command, write_memory_start or write_memory_continue, and its pixels (R319) -/
  | dsiLine (dcs : Nat) (pixels : List Byte)
  /-- AUXCLK output i: low from the end `low` of its last high phase until `rise`, from which high phases of length
  `high` begin every `period`, in tu; none: it stays low (R126 to R128) -/
  | auxClk (i : Nat) (low : Ratio) (rise : Option Ratio) (period high : Ratio)
  | smbus (bytes : List Byte)
  | smbusNack
  | regulator (addr : Nat) (cmd : Nat) (bytes : List Byte)
  | injectBit (link : Nat)
  /-- from instant `t`, force output n drives this code (R290, R291) -/
  | force (n : Nat) (t : Tu) (code : Nat)
  /-- from instant `t`: TRIG_OUT and SYNC_OUT inactive, AUXCLK low, FORCE 0 V, and nothing on the Guyline (R409) -/
  | pinsReset (t : Tu)
  deriving DecidableEq, Repr

/-! ### The frame tick (chapter 02) -/

/-- A write to a register's SH fields that waits for its commit (R43, R44). -/
structure ShWrite where
  reg : Reg
  val : Word
  stamp : Tu
  deriving DecidableEq, Repr

/-- A captured schedule command (R49): `notFuture` where its target was not in the future at the write, `unpitched`
where it was captured while no tick was issued (R47). -/
structure Capture where
  cmd : Nat
  late : Bool
  frame : Frame
  arg : Word
  stamp : Tu
  notFuture : Bool
  unpitched : Bool
  /-- its SYNC has been sent to the partner (R371) -/
  sent : Bool
  deriving DecidableEq, Repr

/-- A timing-link broadcast pending for its frame (R91): type 2 SYNC, 3 ARM, 4 DISARM. -/
structure Bcast where
  typ : Nat
  sub : Nat
  frame : Frame
  stamp : Tu
  deriving DecidableEq, Repr

/-- What the tick engine holds behind its registers. -/
structure Tick where
  /-- a tick has been issued since the boot pitch (R37, R47) -/
  issued : Bool
  /-- writes to SH fields not yet committed, oldest first (R43) -/
  sh : List ShWrite
  /-- changes of HUB_SH_CTRL.HOLD, newest first (R45) -/
  hold : List (Tu × Bool)
  /-- the captures of each schedule slot, oldest first (R49, R51) -/
  caps : Tab (List Capture)
  /-- pending broadcasts, oldest first (R91) -/
  bcasts : List Bcast
  /-- frames that contain a STEP (R37) -/
  stepFrames : List Frame
  /-- register SYNCs that wait for their commit tick, oldest first: stamp and TWIN (R249) -/
  syncCmds : List (Tu × Bool)
  /-- writes of TLK_ARM_MAP that a snapshot may still miss, newest first: group, the value before, stamp (R91) -/
  maps : List (Nat × Word × Tu)
  /-- the last tick, or internal instant, and the register file before it: samples and fires of before it that are
  decided after it meet the settings of before it (R20, R40) -/
  was : Option (Tu × List (Reg × Word))
  /-- spans in which every sample carries PHASE_STEP (R100) -/
  steps : List (Tu × Tu)
  deriving DecidableEq, Repr

/-! ### The pitch image (chapter 03) -/

/-- A record of an image: TYPE, INST and body (R63). -/
structure ImgRec where
  typ : Nat
  inst : Nat
  body : List Byte
  deriving DecidableEq, Repr

/-- An accepted image that waits for its tick (R76, R80). -/
structure Accepted where
  hdr : List Byte
  recs : List ImgRec
  bytes : List Byte
  crc : Word
  cluster : Option Nat
  at_ : Tu
  deriving DecidableEq, Repr

/-- The image in force and the pitch under way. -/
structure Pitch where
  /-- header of the full image in force; empty while UNPITCHED -/
  hdr : List Byte
  /-- records of the image in force, partial images merged in (R78) -/
  recs : List ImgRec
  /-- bytes of the full image in force (R75) -/
  bytes : List Byte
  /-- an accepted image that waits for its tick -/
  accepted : Option Accepted
  /-- frame T1 of the apply under way (R76) -/
  t1 : Option Frame
  /-- the drain has ended; T2 is the next tick (R76) -/
  drained : Bool
  deriving DecidableEq, Repr

/-! ### Clocks, timing link, PLLs (chapters 04, 05) -/

/-- A pending gate request (R107, R108). -/
structure GateReq where
  node : Nat
  at_ : Tu
  deriving DecidableEq, Repr

/-- What the clock sources, multiplexers and gates hold behind their registers. -/
structure Clk where
  /-- the instant of the trip, exclusion or reset from which CLK_QUAL.TIMEOUT counts (R97, R412) -/
  noSrcFrom : Option Tu
  /-- a multiplexer's switch under way: its start and the input it goes to (R104, R105) -/
  switching : Tab (Tu × Nat)
  /-- the input each multiplexer has in effect -/
  muxNow : Tab Nat
  /-- the close that waits for its acknowledge (R108) -/
  gate : Option GateReq
  /-- rising edges of CLKIN that the prescaler has counted since its last rising edge, and that edge (R278) -/
  clkin : Nat
  clkinAt : Option Tu
  /-- the end of the last qualification interval (R94) -/
  qualAt : Tu
  /-- block lock was not held, or hi_ber not clear, throughout the interval under way (R94) -/
  linkBroke : Bool
  deriving DecidableEq, Repr

/-- What the timing link holds behind its registers. -/
structure Tlk where
  /-- sequence and transmit stamp of the latest ECHO_REQ, while its response may still be used (R88) -/
  echo : Option (Nat × Tu)
  /-- a response to that request may still be used -/
  echoOpen : Bool
  /-- the sequence of the next ECHO_REQ -/
  echoSeq : Nat
  /-- the last values of 2d, newest first, at most 16 (R88) -/
  delays : List Nat
  /-- future triggers in order of time: line and time (R92) -/
  trigs : List (Nat × Tu)
  /-- length of the run of markers with |e| > TOL (R89) -/
  run : Nat
  /-- LINK became the source and no marker has been measured since (R99) -/
  fresh : Bool
  /-- the slew under way was chosen by the host in HOLD (R101) -/
  actSlew : Bool
  /-- the slew under way: the error at its start in tu, and its start (R99) -/
  slew : Option (Int × Tu)
  /-- a STEP pending for the next tick: how far time runs ahead (R89, R99, R100, R369) -/
  step : Option Int
  /-- the frame at which a twin's STEP is made (R370) -/
  stepFrame : Option Frame
  /-- the last valid TICK, or the switch to LINK, from which TLK_MARK.TIMEOUT counts (R96) -/
  mark : Tu
  /-- the last marker error e (R89) -/
  lastE : Int
  deriving DecidableEq, Repr

/-- The mode of a lane-rate change (R122). -/
inductive RateMode where
  | none | follow | ramp
  deriving DecidableEq, Repr

/-- What a sample PLL holds behind its registers. -/
structure Spll where
  /-- target rate in force, kS/s (R122) -/
  target : Nat
  /-- change under way (R122) -/
  mode : RateMode
  /-- REF_MODE and BW in effect (R123) -/
  refMode : Nat
  bw : Nat
  /-- lock was lost before the lock under way: the settle raises RELOCK (R124) -/
  lost : Bool
  /-- samples carry CLKBAD from this instant on, while no end is known (R122, R124) -/
  bad : Option Tu
  /-- spans of CLKBAD that have ended -/
  spans : List (Tu × Tu)
  /-- the lock instant that awaits its settle instant (R124) -/
  lockAt : Option Tu
  /-- a new anchor is due at the first tick at or after this instant; whether it is reached by fast realignment (R119,
  R120) -/
  anchorDue : Option (Tu × Bool)
  /-- the anchor was set and is not reached yet (R120) -/
  moving : Bool
  /-- that move is a fast realignment, for which small steps wait (R120) -/
  fast : Bool
  /-- start of the FOLLOW or RAMP; PLL_SPLL_RATE_NOW holds the rate it started from (R122) -/
  rampAt : Tu
  /-- start of the move of OFS_NOW toward OFS; OFS_NOW holds the offset it started from (R121) -/
  ofsAt : Tu
  /-- the instant of the anchor whose frame PLL_SPLL_ANCHOR holds (R119) -/
  anchor : Tu
  /-- while ALIGNED is 0: the instant from which the grid's phase counts, and how many such grids there have been (R198;
  log 20) -/
  base : Tu
  grids : Nat
  /-- the last change of ALIGNED -/
  alignAt : Tu
  /-- the instant at which the move toward an anchor ends, or ended (R120) -/
  moveEnd : Tu
  /-- start of the attempt to lock under way, and of its count of comparisons (R115, R124) -/
  tryAt : Tu
  countAt : Tu
  deriving DecidableEq, Repr

/-- The divider of an AUXCLK output, its delay included (R126 to R128): a rising edge from which it repeats, its period and
high phase in tu, whether it drives the pin, and, where it did so before that edge, the end of the last high phase. -/
structure Aux where
  on : Bool
  low : Ratio
  edge : Ratio
  period : Ratio
  high : Ratio
  deriving DecidableEq, Repr

/-- What the APLL, the JPLL and the AUXCLK outputs hold behind their registers. -/
structure Pll where
  /-- the APLL's feeds are held low (R125) -/
  feedsLow : Bool
  /-- the lock instant after which the feeds resume (R125) -/
  apllLockAt : Option Tu
  /-- JPLL REF_MODE in effect (R116) -/
  jpllRef : Nat
  /-- the instants from which the comparisons of the JPLL's and the APLL's lock count (R115) -/
  jpllFrom : Tu
  apllFrom : Tu
  /-- the dividers of the AUXCLK outputs (R126) -/
  aux : Tab Aux
  deriving DecidableEq, Repr

/-! ### Front end and lanes (chapters 06, 07) -/

/-- What a front end holds behind its registers. -/
structure Afe where
  /-- end of the settle span (R141) -/
  settle : Option Tu
  /-- an excursion is open, with its highest class (R143) -/
  exc : Option Nat
  /-- the end of the recovery hold under way (R143) -/
  hold : Option Ratio
  /-- the common mode has been back inside since this instant (R145) -/
  cmIn : Option Tu
  /-- OVR is set on every sample from this instant on because of the common mode (R145) -/
  cmOvr : Option Tu
  /-- spans in which every sample carries OVR: recovery holds, and common-mode spans that have ended -/
  spans : List (Ratio × Ratio)
  /-- the settle spans so far (R141, R162) -/
  settles : List (Tu × Tu)
  deriving DecidableEq, Repr

/-- What a lane holds behind its registers. -/
structure Lane where
  /-- start of the dwell; none while no dwell runs (R154) -/
  dwell : Option Tu
  /-- the dwell restarts at the next tick, or at the next point of the 2²³ tu grid while UNPITCHED (R165, R470) -/
  restart : Bool
  /-- positions, the longest active one first (R155) -/
  order : List Nat
  /-- SHADOW windows ended in this dwell (R154) -/
  window : Nat
  /-- handovers of the lane since reset (R154: the visit to the next lane) -/
  handovers : Nat
  /-- interleave factor and place in the group that the coefficients belong to (R171) -/
  group : Nat × Nat
  /-- updates that take effect at the next tick: position and step (R163) -/
  updates : List (Nat × Corr)
  /-- the set that the incoming slice converged to (R154) -/
  preload : Option Corr
  /-- a restored table takes effect at the first tick 64 ns after this instant: its combination of RANGE and FILTER, and
  its sets (R176) -/
  restored : Option (Tu × Nat × List Corr)
  /-- correction sets by slice and combination of RANGE and FILTER: key 9 × slice + 3 × RANGE + FILTER (R168) -/
  sets : Tab Corr
  /-- the instants at which the lane last became, and last left, CAL_STALE (R171, R172) -/
  staleAt : Tu
  freshAt : Option Tu
  /-- the last measured skew of each position against the spare, fs (R160) -/
  skews : Tab Int
  deriving DecidableEq, Repr

/-- A lane's entry of a calibration slot in flash (R175). -/
structure CalEntry where
  sets : List Corr
  range : Nat
  filter : Nat
  rate : Nat
  ilv : Nat
  place : Nat
  temp : Int
  /-- the entry passes its CRC-32 -/
  crcOk : Bool
  deriving DecidableEq, Repr

/-! ### Trigger engine and regions (chapters 08, 09) -/

/-- What a lane's comparators remember: the stamps of their last crossings (R183, R184). -/
structure Comp where
  hiRise : Option Tu
  hiFall : Option Tu
  loRise : Option Tu
  loFall : Option Tu
  /-- the HI and the LO output follow from a crossing, not from the input alone (R183) -/
  hiKnown : Bool
  loKnown : Bool
  deriving DecidableEq, Repr

/-- What a generator holds behind its registers. -/
structure Gen where
  /-- crossings stamped before this instant are discarded (R190) -/
  from_ : Tu
  /-- the TTS of the last fire and the conditions still to be ignored (R191) -/
  fired : Option Tu
  skip : Nat
  /-- waiting since a fire of the A generator: TTS_A and conditions counted (R192) -/
  waitA : Option (Tu × Nat)
  /-- the pattern has been true since (R187) -/
  patSince : Option Tu
  /-- the time stamps of forced fires that are still to come, in order (R195) -/
  forced : List Tu
  deriving DecidableEq, Repr

/-- A pulse that waits for its edge time on a TRIG_OUT line (R206). -/
structure Pulse where
  edge : Tu
  width : Nat
  low : Bool
  deriving DecidableEq, Repr

/-- What a TRIG_OUT line holds: waiting pulses in order of edge time, and the end of the current one (R206). -/
structure TrigLine where
  waiting : List Pulse
  stop : Option Tu
  deriving DecidableEq, Repr

/-- A fire on its way to a region writer: generator 0–15, or 16 + XTRIG instance (R200). `stop`: a mask violation
that stops the region at its sample (R271, R272). -/
structure Fire where
  tts : Tu
  src : Nat
  stop : Bool
  deriving DecidableEq, Repr

/-- The segment being captured (R199, R216): its number, PRE, and what its directory entry will hold. -/
structure Capturing where
  arm : Nat
  n : Nat
  /-- per recorded channel, the index of its trigger sample on its own grid (R198) -/
  trigs : List Int
  pre : Nat
  preActual : Nat
  short : Bool
  tts : Tu
  source : Nat
  ext : Bool
  unaligned : Bool
  stale : Bool
  stepped : Bool
  /-- the first position written, and per recorded channel how many positions are written (R202, R217, R218) -/
  skip : Nat
  counts : List Nat
  /-- the instant of the last position -/
  ends : Ratio
  /-- FRAME of a segment that a tick truncated (R218) -/
  cut : Option Frame
  /-- FRAME of a segment that had ended before a STEP -/
  known : Option Frame
  deriving DecidableEq, Repr

/-- A closed segment that awaits its write-back: its arm and its directory entry (R220). -/
structure Closed where
  arm : Nat
  slot : Nat
  entry : List Byte
  deriving DecidableEq, Repr

/-- A block of a continuous region that has ended and whose samples are still to be stored: the index of its first sample
on the reference grid, its number, its arm, the instant after its last sample, and the samples of each run where a disarm or
a stop closed it (R214, R225, R229). -/
structure Block where
  first : Int
  n : Nat
  arm : Nat
  ends : Ratio
  counts : Option (List Nat)
  deriving DecidableEq, Repr

/-- How a region stood when a disarm ended its arm: fires whose trigger samples lie before that tick and that are decided
after it are judged by it (R20, R40). -/
structure Gone where
  at_ : Tu
  frame : Frame
  state : Nat
  arm : Nat
  count : Nat
  fillFrom : Option Ratio
  last : Option Ratio
  prevTrig : Option Ratio
  readyFrom : Option Ratio
  deriving DecidableEq, Repr

/-- What a region holds behind its registers. -/
structure Region where
  /-- fires that wait for their decision, in TTS order (R200) -/
  fires : List Fire
  /-- start of FILLING (R199) -/
  fillFrom : Option Ratio
  /-- instant of the last sample of the last segment (R199) -/
  last : Option Ratio
  /-- trigger sample of the previous accepted fire (R201) -/
  prevTrig : Option Ratio
  cap : Option Capturing
  /-- a stop waits for the end of the segment: its cause (R225) -/
  stopAfter : Nat
  /-- first sample of a continuous region's current block on the reference grid (R214) -/
  block : Option Int
  /-- blocks that have ended and are still to be stored, oldest first -/
  ended : List Block
  closed : List Closed
  /-- arms so far: entries of an earlier arm do not count (R219, R228) -/
  armNo : Nat
  /-- segments or blocks opened since the arm, of which SEG_OPEN_COUNT holds the low 32 bits (R214, R215) -/
  count : Nat
  /-- READY was reached at this instant under a lower PRE (R199, R201) -/
  readyFrom : Option Ratio
  /-- the last sample before STOPPED (R201, R225) -/
  stoppedAt : Option Ratio
  gone : Option Gone
  /-- writes of SEG_RELEASE that a decision still to come may precede, newest first: stamp and the count before (R221) -/
  releases : List (Tu × Nat)
  deriving DecidableEq, Repr

/-! ### Reductions, accumulators, counters (chapters 10, 11, 12) -/

/-- A value in a moving-average stage, in 1/64 LSB, with its flags (R240, R245, R248). -/
structure RedVal where
  v : Int
  bad : Bool
  prime : Bool
  deriving DecidableEq, Repr

/-- What a reduction unit holds behind its registers. -/
structure Red where
  /-- the last inputs of each stage, newest first (R240) -/
  stages : List (List RedVal)
  /-- inputs that each stage has taken since S0 (R248) -/
  taken : Nat
  /-- kept instants passed since S0 for the decimation, and the samples since the last of them (R242) -/
  kept : Nat
  /-- maximum and minimum of the even interval that ENV still owes, with flags and length (R243) -/
  env : Option (Sample × Sample × Nat)
  /-- the indices, on the source's grid, of S0 and of the first output of the last stage without PRIME (R247, R248) -/
  s0 : Int
  primeEnd : Int
  deriving DecidableEq, Repr

/-- A SYNC that will act at its time stamp (R249): source as HUB_SYNC_SRC, and whether the partner is to act too. -/
structure SyncAt where
  ts : Tu
  src : Nat
  twin : Bool
  deriving DecidableEq, Repr

/-- What the SYNC logic holds behind its registers. -/
structure Sync where
  /-- SYNCs that wait for their time stamp, in order of it -/
  waiting : List SyncAt
  /-- carried SYNCs that still have to be sent (R371) -/
  carry : List SyncAt
  /-- end of the present SYNC_OUT pulse (R253) -/
  outStop : Option Tu
  deriving DecidableEq, Repr

/-- What an accumulator plane holds behind its registers. -/
structure Plane where
  /-- the fires that served as t_ref, the latest first (R261) -/
  refs : List Tu
  /-- the last clear: samples of before it are no part of the plane (R266) -/
  clearedAt : Option Tu
  deriving DecidableEq, Repr

/-- A snapshot under way (R273). -/
structure Snap where
  addr : Nat
  bytes : List Byte
  /-- its plane, and the tick whose earlier samples it holds (R267) -/
  plane : Nat
  at_ : Tu
  deriving DecidableEq, Repr

/-- A stamp that a counter took: its time, whether it was taken in coast, and whether its comparator's lane was
CAL_STALE (R285). -/
structure Stamp where
  t : Tu
  coast : Bool
  stale : Bool
  deriving DecidableEq, Repr

/-- What a time-interval counter holds behind its registers. -/
structure Tic where
  /-- edges stamped before this instant are not considered (R280) -/
  runAt : Tu
  /-- the next measurement opens on an edge at or after this instant (R280) -/
  ready : Tu
  /-- start of the gate (R279) -/
  gate : Tu
  /-- opening stamp of the measurement, and whether its edge was rising (R279) -/
  open_ : Option (Stamp × Bool)
  /-- edges counted since the opening, or in the gate, and the last of them (R279) -/
  edges : Nat
  lastEdge : Option Stamp
  /-- pairs found, the sum of their values, and whether one was below 8 tu or used a stale stamp (R279, R284) -/
  pairs : Nat
  sum : Int
  subRes : Bool
  stale : Bool
  /-- a stamp of the measurement was taken in coast (R285) -/
  coast : Bool
  /-- the latest stop edge not yet paired (R282) -/
  stop : Option Stamp
  /-- start edges that await their decision, oldest first (R282) -/
  starts : List Stamp
  /-- a start found no stop to pair with: the measurement ends with TIMEOUT at this instant (R282) -/
  doom : Option Tu
  /-- results since the RUN commit (R287) -/
  seq : Nat
  deriving DecidableEq, Repr

/-! ### Parametric section (chapter 13) -/

/-- A conversion under way (R295): kind 1 regular, 2 injected, 3 calibration; its settings as an entry word. -/
structure Conv where
  kind : Nat
  settings : Word
  entry : Nat
  /-- integration start -/
  tts : Tu
  ready : Tu
  restarted : Bool
  coast : Bool
  step : Bool
  /-- the filter runs on without reset after it (R299) -/
  streams : Bool
  /-- from the integration start to the ready instant, in tu, as the settings at its start make it (R295, R308) -/
  span : Nat
  /-- multiplexer PMU switched during it (Table PMU-5) -/
  clksw : Bool
  /-- RUN cleared while it ran: no pass goes on from it (R308) -/
  ended : Bool
  deriving DecidableEq, Repr

/-- A result record (Table PMU-5). -/
structure PmuRec where
  tts : Tu
  value : Word
  info : Word
  deriving DecidableEq, Repr

/-- A result that waits for the partner's (R304). -/
structure TwinRes where
  conv : Nat
  entry : Nat
  tts : Tu
  value : Word
  ready : Tu
  deriving DecidableEq, Repr

/-- What a measure converter holds behind its registers. -/
structure Mc where
  act : Option Conv
  queue : List Word
  fifo : List PmuRec
  cal : Bool
  seqReg : Nat
  seqInj : Nat
  /-- the pass under way: the entry that comes next (R298) -/
  next : Option Nat
  /-- an aborted entry restarts (R302) -/
  restart : Bool
  /-- injected requests served since the abort or boundary (R302) -/
  served : Nat
  /-- ready instant of the last regular result (R300) -/
  lastReady : Option Tu
  /-- EN was cleared; the conversion under way is the last (R308) -/
  stopping : Bool
  /-- XCHK that takes effect at the next boundary (R304) -/
  xchk : Bool
  /-- triggered requests on their way: the instant at which each is queued, and its settings (R301) -/
  due : List (Tu × Word)
  deriving DecidableEq, Repr

/-- A pending force code: code, stamp and UPD (R291). -/
structure ForcePend where
  code : Nat
  stamp : Tu
  upd : Nat
  deriving DecidableEq, Repr

/-- What the parametric section holds behind its registers. -/
structure Pmu where
  mc : Tab Mc
  force : Tab (List ForcePend)
  local_ : List TwinRes
  remote : List TwinRes
  deriving DecidableEq, Repr

/-! ### Lantern (chapter 14) -/

/-- What Lantern holds behind its registers. -/
structure Ras where
  /-- settings in force, RAS_CTRL among them; the registers hold the last written values (R317) -/
  now : List (Reg × Word)
  /-- look-up tables, pending and in force: key 256 × layer + index -/
  lut : Tab Word
  lutNow : Tab Word
  /-- the last write of a pending setting that has not committed (R317) -/
  pend : Option Tu
  /-- a frame is being scanned out (R315) -/
  frame : Bool
  /-- picture sequence number and flags of the picture under way (R327) -/
  seq : Nat
  underrun : Bool
  abandoned : Bool
  /-- a commit took place at the last vertical blank (R324) -/
  fresh : Bool
  /-- last whole-picture CRC and run of static frames, for DSI and for the host frame (R324) -/
  crcDsi : Option Word
  crcHfo : Option Word
  staticDsi : Nat
  staticHfo : Nat
  /-- the host-frame write under way: its buffer, and its lines with their addresses (R321) -/
  hfoBusy : Option (Nat × List (Nat × List Byte))
  /-- buffers that the frame under way reads (R326) -/
  reading : List Nat
  /-- an edge of TE_IN may start the next frame; the frame waits for one (R320) -/
  teWait : Bool
  /-- a DSI command under way: read or write (R319) -/
  dsiCmd : Option Bool
  /-- layers switched off for the rest of the frame (R323) -/
  dry : List Nat
  /-- start of the last vertical blank (R315, R320), and the density planes as they stood then (R274) -/
  vbAt : Tu
  binsAt : Tab Nat
  /-- the instant from which the two frame periods of a pixel-clock change count (R318) -/
  restartFrom : Option Tu
  /-- DSI output stopped by a check of R316 -/
  dsiStopped : Bool
  /-- layers whose RAS_LAYER_BUF has been written, and those whose committed RAS_LAYER_BUF was written (R326) -/
  named : List Nat
  namedNow : List Nat
  deriving DecidableEq, Repr

/-! ### DMA (chapter 15) -/

/-- Data discarded under GAP (R59). -/
structure Gap where
  first : Frame
  last : Frame
  bytes : Nat
  deriving DecidableEq, Repr

/-- Data of one accept frame, staged: `age` issued ticks since the tick that began it; `open_` while acceptance for
it has not closed (R54, R55); `gap`: what was discarded before its last datum and is still to be recorded (R59). -/
structure Batch where
  frame : Frame
  bytes : List Byte
  age : Nat
  open_ : Bool
  gap : Option Gap
  deriving DecidableEq, Repr

/-- A CIRC descriptor (Table HST-2). -/
structure Circ where
  base : Nat
  size : Nat
  rd : Nat
  idx : Nat
  deriving DecidableEq, Repr

/-- An XFER descriptor in execution (R339). -/
structure Xfer where
  frame : Frame
  idx : Nat
  len : Nat
  dst : Nat
  src : Nat
  event : Bool
  bad : Bool
  deriving DecidableEq, Repr

/-- A datum on its way to the stager of queue q (R54). -/
structure Datum where
  q : Nat
  bytes : List Byte
  /-- the latest instant of its acceptance: 200 ns after its last contributing sample (R54) -/
  due : Tu
  deriving DecidableEq, Repr

/-- What a queue holds behind its registers. -/
structure Queue where
  /-- the stream accepts data (R341, R344) -/
  accepting : Bool
  circ : Option Circ
  phase : Bool
  staged : List Batch
  gap : Option Gap
  /-- a datum did not fit under STOP; the queue stops at the next tick (R59) -/
  full : Bool
  xfers : List Xfer
  /-- completions since the last CPL cause, and issued ticks since the first of them (R347) -/
  cpls : Nat
  cplAge : Nat
  /-- ticks for which HOST_READ is not raised again (Table HST-6) -/
  quiet : Nat
  /-- the last accept frame of a drain (R344) -/
  lastFrame : Option Frame
  /-- the detach after which the held queue completes: issued ticks since (R379) -/
  release : Option Nat
  /-- offset in the staging area at which the next datum goes (R21; log 49) -/
  pos : Nat
  deriving DecidableEq, Repr

/-- What the DMA engine holds behind its registers. -/
structure Dma where
  queues : Tab Queue
  /-- data on its way to a stager, oldest first (R54) -/
  inbound : List Datum
  /-- the host link runs below the budget (R60) -/
  below : Bool
  /-- spans in which the host stalled the device, those that a 64-frame window may still take in (R56, R57) -/
  stalls : List (Tu × Tu)
  /-- a full host buffer or completion ring has held up an admitted stream since (R56, R341 item 5) -/
  blocked : Option Tu
  /-- the last write-back of a directory entry: its instant, its BAR2 address, and the bytes before (R222) -/
  torn : Option (Tu × Nat × List Byte)
  deriving DecidableEq, Repr

/-! ### Events (chapter 16) -/

/-- The last raise of a source: its controller cycle, and whether it was delivered (R351). -/
structure RaiseMark where
  cycle : Nat
  delivered : Bool
  deriving DecidableEq, Repr

/-- What the event controller holds behind its registers: the last raises, the MSI-X table (word 4 × vector + i), the
function mask and the pending bits (R351, R357), and the sources that wait for Basecamp (Table MGT-1). -/
structure Evt where
  raises : Tab RaiseMark
  msix : Tab Word
  funcMask : Bool
  pba : BitVec 64
  basecamp : List Nat
  deriving DecidableEq, Repr

/-! ### Twin (chapter 17) -/

/-- A pending attach (R367). -/
structure Attach where
  box : Bool
  mode : Nat
  pref : Nat
  at_ : Tu
  /-- the last HELLO sent -/
  hello : Tu
  deriving DecidableEq, Repr

/-- The records of one frame (R372): CTRL, SEG_OPENED, FIRES, and MEAN and OVR of each channel. -/
structure FrameRec where
  frame : Frame
  digest : Option (Word × Nat × Nat)
  chsum : Tab (List (Int × Nat))
  deriving DecidableEq, Repr

/-- What the twin link holds behind its registers. -/
structure Gln where
  attach : Option Attach
  /-- a role that applies at a frame, and the mode (R368) -/
  rolePend : Option (Frame × Nat × Nat)
  /-- the part is incumbent (R368) -/
  incumbent : Bool
  /-- the last 16 measurements, newest first, each twice the offset (R369) -/
  ofs : List Int
  /-- measurements in a row inside and outside the window (R369) -/
  inRun : Nat
  outRun : Nat
  /-- ticks since the last BEAT; ticks since the link went down; ticks since TWIN_PRES was deasserted (R376) -/
  beatAge : Nat
  downAge : Nat
  absentAge : Nat
  /-- causes of failure that a message or command gave (R376) -/
  failCause : Nat
  /-- a failure was declared; the takeover is due at the next tick (R377) -/
  takeover : Bool
  /-- TAKE is to be sent when the link comes up (R377) -/
  takeOwed : Option (Frame × Frame)
  /-- a TAKE was received; the part stops delivering at its next tick (R377) -/
  deposed : Bool
  /-- the part becomes SOLO at this frame; causes (R379) -/
  detachAt : Option (Frame × Nat)
  /-- the part becomes SOLO at its next tick without a detach (R380) -/
  soloNext : Bool
  /-- sequence numbers sent per TYPE, and the last one acted on per TYPE (R365) -/
  seqTx : Tab Nat
  seqRx : Tab Nat
  /-- the frame records of this part and of the partner that await comparison (R373) -/
  own : List FrameRec
  partner : List FrameRec
  /-- segments opened and fires in the current frame; per channel sum of codes, samples and OVR samples (R372) -/
  segOpened : Nat
  fires : Nat
  chan : Tab (Int × Nat × Nat)
  /-- the partner is SECONDARY-IDLE (R368, R373) -/
  partnerIdle : Bool
  /-- the failure at hand has been declared (R376) -/
  declared : Bool
  /-- the frame contained a STEP, or either part was SECONDARY-IDLE: no comparison (R373) -/
  skip : List Frame
  /-- HELLO, ROLE and DETACH messages that wait for the end of a Basecamp restart, oldest first (Table MGT-1) -/
  waiting : List (List Byte)
  deriving DecidableEq, Repr

/-! ### Basecamp (chapter 18) -/

/-- A log entry (Table MGT-5), without its CRC. -/
structure LogEntry where
  seq : Nat
  frame : Frame
  boot : Nat
  source : Nat
  kind : Nat
  detail : Nat
  data : Word
  time : Tu
  deriving DecidableEq, Repr

/-- The state of a firmware bank (R399): 0 EMPTY, 1 VALID, 2 TRIAL, 3 COMMITTED, 4 FAILED; its image and the order of
its commit. -/
structure Bank where
  state : Nat
  image : List Byte
  commitNo : Nat
  deriving DecidableEq, Repr

/-- The SPI flash (Table MGT-6). -/
structure Flash where
  /-- the two firmware banks (R398) -/
  banks : Tab Bank
  /-- image slots 0 and 1 (R75) -/
  images : Tab (List Byte)
  /-- the calibration slots: key 16 × slot + lane (R175) -/
  cal : Tab CalEntry
  /-- factory interleave seeds of each lane by slice and combination (R174) -/
  seeds : Tab Corr
  /-- the log's ring, oldest entry first (R394) -/
  log : List LogEntry
  /-- boots since manufacture (MGT_FW_STATUS.BOOT_COUNT) -/
  boots : Nat
  deriving DecidableEq, Repr

/-- The SMBus mailbox and target (R387, R401). -/
structure Smb where
  /-- STATE, TAG, STATUS and the result words, as MGT_MB_STATE and MGT_MB_RES have them for the host (R387) -/
  state : Nat
  tag : Byte
  status : Nat
  res : List Word
  /-- the mask that SMB_ALERT_MASK writes (R401) -/
  alertMask : BitVec 16
  deriving DecidableEq, Repr

/-- How Basecamp stands: 0 in the ROM phase, 1 running, 2 restarting, 3 the ROM alone (R385, R386). -/
structure Mgt where
  run : Nat
  /-- the processor is halted through the debug port (R403) -/
  halted : Bool
  /-- a firmware bank that the restart is to start (R398) -/
  activate : Option Nat
  /-- MGT_MB_STATE.STATE as it is after the restart under way (R385) -/
  box : Nat
  /-- the SMBus mailbox and the target's alert mask (R387, R401) -/
  smb : Smb
  /-- the SPI flash (Table MGT-6) -/
  flash : Flash
  /-- fuse fields by ID (Table MGT-7) -/
  fuses : Tab Nat
  /-- the sequence number of the last log entry (Table MGT-5) -/
  nextSeq : Nat
  /-- entries in the SRAM buffer, newest first (R395) -/
  sram : List LogEntry
  /-- raises of each source logged or counted in this second (R395) -/
  logged : Tab Nat
  /-- raises that wait for the end of a restart: source and DATA (Table MGT-1) -/
  deferred : List (Nat × Word)
  /-- the nonce of a challenge and its instant (R403) -/
  nonce : Option (List Byte × Tu)
  /-- the instant at which a bank was started on trial, until it confirms its health (R399) -/
  trialFrom : Option Tu
  /-- a bank has failed its trial: the boot under way goes on at item 2 (R399) -/
  trialBad : Bool
  /-- commits so far, which order the banks (R398, R399) -/
  commits : Nat
  deriving DecidableEq, Repr

/-! ### Power and diagnostics (chapters 19, 20) -/

/-- A power request (R417): OP, TARGET, the node whose block does not acknowledge, and the STANDBY span as measured for an
EXIT_STANDBY (R420). -/
structure PwrReq where
  op : Nat
  target : Nat
  busy : Option Nat
  span : Tu
  deriving DecidableEq, Repr

/-- Supplies, resets and protection. -/
structure Pwr where
  /-- supplies up -/
  on : Bool
  /-- RST_N held low -/
  rstLow : Bool
  /-- PERST_N held low -/
  perstLow : Bool
  /-- a thermal trip stopped the device (R422) -/
  tripped : Bool
  /-- the factory tables have been loaded (R412) -/
  tables : Bool
  /-- sensors 0 to 4 whose threshold was crossed and whose hold begins at the next tick (R421) -/
  hot : BitVec 5
  /-- scopes in thermal hold whose drains have not ended (R421) -/
  draining : BitVec 3
  /-- units woken whose restart is due at the next tick: clusters (R419) -/
  woken : BitVec 4
  /-- gate nodes that a power sequence closed and a wake opens again (R417, R418) -/
  closed : List Nat
  /-- the stack temperature of a die at its entry to sleep, 0.1 °C (Table PWR-5) -/
  entryTemp : Tab Int
  /-- local time at entry to STANDBY (R420) -/
  entered : Tu
  /-- milliseconds from the release of RST_N are counted from this instant (HUB_BOOT_STATUS.BOOT_MS) -/
  released : Tu
  /-- a power request that waits for the gate request that came before it (R107, R417) -/
  wait : Option PwrReq
  deriving DecidableEq, Repr

/-- What the diagnostics hold behind their registers. -/
structure Dia where
  /-- the unit under self-test, and the stack range that its request named: start and length (R430) -/
  bist : Option Nat
  range : Nat × Nat
  /-- the instruction of the TAP (R431) -/
  jtag : JtagIns
  /-- when the test under way began, and the span of each cluster's last converter test (R162, R430) -/
  since : Tu
  spans : Tab (Tu × Tu)
  deriving DecidableEq, Repr

/-! ### Stops -/

/-- The reasons for which the device stops with a fault. The manual names none for this block: no meaning answers
with one. -/
inductive Fault where
  /-- Raised by no command (safe: it stands for "the device stops", which no rule of the manual describes). -/
  | none
  deriving DecidableEq, Repr

/-- The reasons for which a command has no meaning. -/
inductive Refusal where
  /-- A command whose meaning is not modelled (safe: nothing is said of it). -/
  | notModelled (mnemonic : String)
  deriving DecidableEq, Repr

/-! ### The state -/

/-- The state of the device. -/
structure State where
  /-- the register file: the registers that differ from their reset value (R435), ascending by `Reg.code` -/
  regs : List (Reg × Word)
  /-- the latches behind the registers that latch (R436); a register not listed reads 0 -/
  latch : List (Reg × Word)
  /-- the master time counter (R26) -/
  time : Tu
  /-- the frame number of the last tick issued (R37) -/
  frame : Frame
  /-- both stacks, by BAR2 address (R213) -/
  mem : List Host.Cell
  /-- mask bitmaps: key (2 × mask + bank) × 4,096 + word (R269) -/
  masks : Tab Word
  /-- density planes: key 131,072 × plane + bin (R260) -/
  bins : Tab Nat
  /-- the on-die directories: key 65,536 × die + entry (R216), and the SEQ of each entry slot (R219) -/
  dir : Tab (List Byte)
  dirSeq : Tab Nat
  tick : Tick
  pitch : Pitch
  clk : Clk
  tlk : Tlk
  spll : Tab Spll
  pll : Pll
  afe : Tab Afe
  lanes : Tab Lane
  comps : Tab Comp
  gens : Tab Gen
  trigOut : Tab TrigLine
  /-- the last edge of each TRIG_IN line (R205) -/
  trigIn : Tab Tu
  regions : Tab Region
  red : Tab Red
  sync : Sync
  planes : Tab Plane
  /-- last fire that each mask caused, and last fire of XTRIG 9 + c (R271) -/
  maskFire : Tab Tu
  xtrigCycle : Tab Tu
  snaps : Tab Snap
  tic : Tab Tic
  pmu : Pmu
  ras : Ras
  dma : Dma
  evt : Evt
  gln : Gln
  mgt : Mgt
  pwr : Pwr
  dia : Dia
  /-- counts the values that the manual leaves open (the model's own field, log 2) -/
  free : Nat
  /-- what has left the device, newest first (the model's own field, log 3) -/
  out : List Out
  /-- commands that wait, first in, first out -/
  pending : List Instr
  deriving DecidableEq, Repr

/-! ### Reset -/

/-- A sample PLL after reset: 8,000,000 kS/s, REF_MODE ×2, 2 MHz, unlocked, its samples flagged (Table PLL-4, R124). -/
def Spll.init : Spll :=
  { target := 8000000, mode := .none, refMode := 1, bw := 1, lost := false, bad := some 0, spans := [], lockAt := none,
    anchorDue := none, moving := false, fast := false, rampAt := 0, ofsAt := 0, anchor := 0, base := 0, grids := 0,
    alignAt := 0, moveEnd := 0, countAt := 0, tryAt := 0 }

/-- A front end after reset. -/
def Afe.init : Afe := ⟨none, none, none, none, none, [], []⟩

/-- A lane after reset: P0 is the position handed over first (R155); no dwell runs before R412 item 4. -/
def Lane.init : Lane := ⟨none, false, [0, 1, 2, 3], 0, 0, (1, 0), [], none, none, [], 0, none, []⟩

/-- The comparators of a lane after reset. -/
def Comp.init : Comp := ⟨none, none, none, none, false, false⟩

/-- A generator after reset. -/
def Gen.init : Gen := ⟨0, none, 0, none, none, []⟩

/-- A TRIG_OUT line after reset. -/
def TrigLine.init : TrigLine := ⟨[], none⟩

/-- A region after reset. -/
def Region.init : Region :=
  { fires := [], fillFrom := none, last := none, prevTrig := none, cap := none, stopAfter := 0, block := none, ended := [],
    closed := [], armNo := 0, count := 0, readyFrom := none, stoppedAt := none, gone := none, releases := [] }

/-- A reduction unit after reset. -/
def Red.init : Red := ⟨[], 0, 0, none, 0, 0⟩

/-- A plane after reset. -/
def Plane.init : Plane := ⟨[], none⟩

/-- A time-interval counter after reset. -/
def Tic.init : Tic := ⟨0, 0, 0, none, 0, none, 0, 0, false, false, false, none, [], none, 0⟩

/-- A measure converter after reset. -/
def Mc.init : Mc := ⟨none, [], [], false, 0, 0, none, false, 0, none, false, false, []⟩

/-- A queue after reset: the completion phase is 1 (R336, R337). -/
def Queue.init : Queue := ⟨false, none, true, [], none, false, [], 0, 0, 0, none, none, 0⟩

/-- A firmware bank with nothing in it. -/
def Bank.init : Bank := ⟨0, [], 0⟩

/-- The correction set with no correction: centre tap 1.0 in Q2.14 (R159). -/
def Corr.init : Corr := ⟨0, 0, 0, 0, [0, 0, 0, 16384, 0, 0, 0]⟩

def Tick.init : Tick := ⟨false, [], [], [], [], [], [], [], none, []⟩
def Pitch.init : Pitch := ⟨[], [], [], none, none, false⟩
def Clk.init : Clk := ⟨some 0, [], [], none, 0, none, 0, true⟩
def Tlk.init : Tlk := ⟨none, false, 0, [], [], 0, false, false, none, none, none, 0, 0⟩
/-- After reset each divider passes the JPLL's 1,000 MHz undivided, from edge 0 on (log 108). -/
def Aux.init : Aux := ⟨false, ⟨0, 1⟩, ⟨0, 1⟩, ⟨8192, 1⟩, ⟨4096, 1⟩⟩

def Pll.init : Pll := ⟨false, none, 0, 0, 0, []⟩
def Sync.init : Sync := ⟨[], [], none⟩
def Pmu.init : Pmu := ⟨[], [], [], []⟩
def Ras.init : Ras :=
  { now := [], lut := [], lutNow := [], pend := none, frame := false, seq := 0, underrun := false,
    abandoned := false, fresh := false, crcDsi := none, crcHfo := none, staticDsi := 0, staticHfo := 0,
    hfoBusy := none, reading := [], teWait := false, dsiCmd := none, dry := [], vbAt := 0, binsAt := [], restartFrom := none,
    dsiStopped := false, named := [], namedNow := [] }
def Dma.init : Dma := ⟨[], [], false, [], none, none⟩
def Evt.init : Evt := ⟨[], [], false, 0, []⟩
def Gln.init : Gln :=
  { attach := none, rolePend := none, incumbent := false, ofs := [], inRun := 0, outRun := 0, beatAge := 0,
    downAge := 0, absentAge := 0, failCause := 0, takeover := false, takeOwed := none, deposed := false,
    detachAt := none, soloNext := false, seqTx := [], seqRx := [], own := [], partner := [], segOpened := 0,
    fires := 0, chan := [], partnerIdle := false, declared := false, skip := [], waiting := [] }
def Smb.init : Smb := ⟨0, 0, 0, [], 0x000C⟩

/-- A flash as it leaves the factory: no image, no firmware, no log (log 6). -/
def Flash.init : Flash := ⟨[], [], [], [], [], 0⟩

def Mgt.init : Mgt :=
  { run := 0, halted := false, activate := none, box := 0, smb := Smb.init, flash := Flash.init, fuses := [], nextSeq := 0,
    sram := [], logged := [], deferred := [], nonce := none, trialFrom := none,
    trialBad := false, commits := 0 }
def Pwr.init : Pwr :=
  { on := true, rstLow := false, perstLow := false, tripped := false, tables := false, hot := 0, draining := 0,
    woken := 0, closed := [], entryTemp := [], entered := 0, released := 0, wait := none }
def Dia.init : Dia := ⟨none, (0, 0), .idcode, 0#64, []⟩

/-- The device right after the release of a power-on reset: UNPITCHED, in boot phase ROM, every register at its reset
value with HUB_RESET_CAUSE reporting POR (R408, R411, R435), no frame issued, nothing in the stacks, no command
waiting. -/
def State.reset : State :=
  { regs := [(⟨.HUB_RESET_CAUSE, 0⟩, 1#32)], latch := [], time := 0, frame := 0, mem := [], masks := [], bins := [],
    dir := [], dirSeq := [], tick := Tick.init, pitch := Pitch.init, clk := Clk.init, tlk := Tlk.init, spll := [],
    pll := Pll.init, afe := [], lanes := [], comps := [], gens := [], trigOut := [], trigIn := [], regions := [],
    red := [], sync := Sync.init, planes := [], maskFire := [], xtrigCycle := [], snaps := [], tic := [],
    pmu := Pmu.init, ras := Ras.init, dma := Dma.init, evt := Evt.init, gln := Gln.init, mgt := Mgt.init,
    pwr := Pwr.init, dia := Dia.init, free := 0, out := [], pending := [] }

end Sys2Proof.Machine
end

