-- ==== Sys2Proof/Machine/Ops.lean ====
section
/-! DEFINITION. The named operations over the state: tables in canonical form, registers and their fields, register
pairs, stack memory, the time base, and what leaves the device. -/

namespace Sys2Proof.Machine

/-! ### Tables -/

/-- What key `k` of a table reads as; `d` where it is not listed. -/
def tget {α : Type} (d : α) : Tab α → Nat → α
  | [], _ => d
  | (j, v) :: m, k => if j = k then v else tget d m k

/-- A table with one entry inserted at its place. -/
def tins {α : Type} : Tab α → Nat → α → Tab α
  | [], k, v => [(k, v)]
  | (j, w) :: m, k, v => if k < j then (k, v) :: (j, w) :: m else if k = j then (k, v) :: m else (j, w) :: tins m k v

/-- A table after a write of key `k`: writing what an unlisted key reads as removes the entry. -/
def tput {α : Type} [DecidableEq α] (d : α) (m : Tab α) (k : Nat) (v : α) : Tab α :=
  if v = d then m.filter (fun e => e.1 ≠ k) else tins m k v

/-- A table after an update of key `k`. -/
def tmod {α : Type} [DecidableEq α] (d : α) (m : Tab α) (k : Nat) (f : α → α) : Tab α := tput d m k (f (tget d m k))

/-- The canonical form of a table: keys ascend and no entry equals what an unlisted key reads as. -/
def Tab.wf {α : Type} [DecidableEq α] (d : α) : Tab α → Bool
  | [] => true
  | (k, v) :: m => decide (v ≠ d) && m.all (fun e => decide (k < e.1)) && Tab.wf d m

/-! ### Registers -/

/-- What register `r` of a register file holds: its reset value where it is not listed (R435). -/
def rget : List (Reg × Word) → Reg → Word
  | [], r => r.resetVal
  | (q, v) :: m, r => if q = r then v else rget m r

/-- A register file with one register inserted at its place. -/
def rins : List (Reg × Word) → Reg → Word → List (Reg × Word)
  | [], r, v => [(r, v)]
  | (q, w) :: m, r, v =>
    if r.code < q.code then (r, v) :: (q, w) :: m else if r = q then (r, v) :: m else (q, w) :: rins m r v

/-- A register file after a change of register `r`. -/
def rput (m : List (Reg × Word)) (r : Reg) (v : Word) : List (Reg × Word) :=
  if v = r.resetVal then m.filter (fun e => e.1 ≠ r) else rins m r v

/-- The canonical form of the register file. -/
def regsWf : List (Reg × Word) → Bool
  | [] => true
  | (r, v) :: m => decide (v ≠ r.resetVal) && m.all (fun e => decide (r.code < e.1.code)) && regsWf m

/-- The value of a register. -/
def State.reg (s : State) (n : RegName) (i : Nat) : Word := rget s.regs ⟨n, i⟩

/-- The state with a register changed. -/
def State.setReg (s : State) (n : RegName) (i : Nat) (v : Word) : State := { s with regs := rput s.regs ⟨n, i⟩ v }

/-- The value of a field. -/
def State.fld (s : State) (f : Fld) (i : Nat) : Nat := getBits (s.reg f.reg i) f.lsb f.width

/-- Whether a field is not 0. -/
def State.flag (s : State) (f : Fld) (i : Nat) : Bool := s.fld f i != 0

/-- The state with a field changed, the register's other bits kept. -/
def State.setFld (s : State) (f : Fld) (i : Nat) (x : Nat) : State :=
  s.setReg f.reg i (putBits (s.reg f.reg i) f.lsb f.width x)

/-- The bits of a register's fields that carry an access code. -/
def accMask (n : RegName) (a : Access) : Word :=
  n.fields.foldl (fun m f => if f.acc = a then m ||| putBits 0 f.lsb f.width (2 ^ f.width - 1) else m) 0

/-- A write of a register's RW fields, its other fields kept. -/
def State.writeRW (s : State) (n : RegName) (i : Nat) (v : Word) : State :=
  let m := accMask n .RW
  s.setReg n i ((s.reg n i &&& ~~~m) ||| (v &&& m))

/-- A counter field raised by `n`, saturating. -/
def State.bump (s : State) (f : Fld) (i : Nat) (n : Nat) : State :=
  s.setFld f i (min (s.fld f i + n) (2 ^ f.width - 1))

/-- A counter field raised by `n`, modulo its width. -/
def State.bumpMod (s : State) (f : Fld) (i : Nat) (n : Nat) : State :=
  s.setFld f i ((s.fld f i + n) % 2 ^ f.width)

/-- The 64-bit value of a register pair. -/
def State.pair (s : State) (lo hi : RegName) (i : Nat) : Tu := (s.reg hi i) ++ (s.reg lo i)

/-- The state with a register pair changed. -/
def State.setPair (s : State) (lo hi : RegName) (i : Nat) (v : Tu) : State :=
  (s.setReg lo i (v.extractLsb' 0 32)).setReg hi i (v.extractLsb' 32 32)

/-- A register pair that holds a frame number. -/
def State.setFrame (s : State) (lo hi : RegName) (i : Nat) (v : Frame) : State := s.setPair lo hi i (v.setWidth 64)

/-- The frame number that a register pair holds. -/
def State.frameOf (s : State) (lo hi : RegName) (i : Nat) : Frame := (s.pair lo hi i).setWidth 48

/-- Every register of the listed names back at its reset value, for the instances that `p` picks. -/
def State.resetRegs (s : State) (names : List RegName) (p : Nat → Bool) : State :=
  { s with regs := s.regs.filter (fun e => !(names.contains e.1.n && p e.1.i)) }

/-! ### Stack memory (R213): one byte at a BAR2 address; a byte that nothing has written reads 0 (log 7). -/

/-- The byte at an address. -/
def memGet (m : List Host.Cell) (a : Nat) : Byte := tget (0 : Byte) m a

/-- Memory after a write of one byte. -/
def memPut (m : List Host.Cell) (a : Nat) (b : Byte) : List Host.Cell := tput (0 : Byte) m a b

/-- The canonical form of memory. -/
def Memory.wf (m : List Host.Cell) : Bool := Tab.wf (0 : Byte) m

/-- Memory after a write of bytes from an address upward. -/
def memPutAll : List Host.Cell → Nat → List Byte → List Host.Cell
  | m, _, [] => m
  | m, a, b :: bs => memPutAll (memPut m a b) (a + 1) bs

/-- The `n` bytes from an address upward. -/
def memRead (m : List Host.Cell) (a n : Nat) : List Byte := (List.range n).map fun k => memGet m (a + k)

/-! ### Bytes, little-endian -/

/-- The low `n` bytes of a number, least significant first. -/
def leBytes : Nat → Nat → List Byte
  | 0, _ => []
  | n + 1, x => BitVec.ofNat 8 x :: leBytes n (x / 256)

/-- The number that bytes spell, least significant first. -/
def leNat : List Byte → Nat
  | [] => 0
  | b :: bs => b.toNat + 256 * leNat bs

/-- Field of `n` bytes at offset `o`. -/
def leAt (bs : List Byte) (o n : Nat) : Nat := leNat ((bs.drop o).take n)

/-! ### Signed values -/

/-- The two's complement value of the low `w` bits of `x`. -/
def sgn (w x : Nat) : Int := if x % 2 ^ w < 2 ^ (w - 1) then (x % 2 ^ w : Nat) else (x % 2 ^ w : Nat) - (2 ^ w : Nat)

/-- The low `w` bits that hold a signed value. -/
def unsgn (w : Nat) (v : Int) : Nat := (v % (2 ^ w : Nat)).toNat

/-- A signed value limited to `w` bits. -/
def satS (w : Nat) (v : Int) : Int := max (-(2 ^ (w - 1) : Nat)) (min v ((2 ^ (w - 1) : Nat) - 1))

/-- A value limited to a range. -/
def clampN (lo hi x : Nat) : Nat := max lo (min x hi)

/-! ### Exact fractions -/

/-- a ≤ b. -/
def Ratio.le (a b : Ratio) : Bool := decide (a.num * b.den ≤ b.num * a.den)

/-- a < b. -/
def Ratio.lt (a b : Ratio) : Bool := decide (a.num * b.den < b.num * a.den)

/-- a + b. -/
def Ratio.add (a b : Ratio) : Ratio := ⟨a.num * b.den + b.num * a.den, a.den * b.den⟩

/-- a − b. -/
def Ratio.sub (a b : Ratio) : Ratio := ⟨a.num * b.den - b.num * a.den, a.den * b.den⟩

/-- A whole number of tu. -/
def Ratio.ofInt (x : Int) : Ratio := ⟨x, 1⟩

/-- The instant of a stamp. -/
def Ratio.ofTu (x : Tu) : Ratio := ⟨x.toNat, 1⟩

/-- ⌊a⌋. -/
def Ratio.floor (a : Ratio) : Int := a.num / (a.den : Int)

/-- ⌈a⌉. -/
def Ratio.ceil (a : Ratio) : Int := -((-a.num) / (a.den : Int))

/-- The stamp of an instant: truncated to 1 tu (R3). -/
def Ratio.tu (a : Ratio) : Tu := BitVec.ofInt 64 a.floor

/-- A number rounded to the nearest integer, ties to even, after division by `d` (R159, R241). -/
def divRound (x : Int) (d : Nat) : Int :=
  let q := x / (d : Int)
  let r := 2 * (x % (d : Int))
  if r < d then q else if r > d then q + 1 else if q % 2 = 0 then q else q + 1

/-! ### Link diagnostics and self-test (R427, R430) -/

/-- The self-test of unit u runs. -/
def State.testing (s : State) (u : Nat) : Bool := s.dia.bist == some u

/-- A link returns to service: its diagnostic fields clear (R427). -/
def State.diagClear (s : State) (ls : List Nat) : State :=
  ls.foldl (fun s l => (s.setReg .HUB_LINK_DIAG l 0).setFld Fld.HUB_LINK_CHK_LOCK l 0) s

/-! ### Power and presence -/

/-- The device runs: supplies up, RST_N high, no thermal trip (R408, R422). -/
def State.alive (s : State) : Bool := s.pwr.on && !s.pwr.rstLow && !s.pwr.tripped

/-- The host link is out of reset, so BAR0 and BAR2 accesses reach the device (R410). -/
def State.hostUp (s : State) : Bool := s.alive && !s.pwr.perstLow

/-- HUB_PWR_STATUS.DEVICE is STANDBY (R416). -/
def State.standby (s : State) : Bool := s.fld Fld.HUB_PWR_STATUS_DEVICE 0 == 1

/-- Gate node n of the clock tree is open (Table CLK-11). -/
def State.gateOpen (s : State) (n : Nat) : Bool :=
  if n < 32 then (s.reg .CLK_GATE_STATE_LO 0).getLsbD n else (s.reg .CLK_GATE_STATE_HI 0).getLsbD (n - 32)

/-- Engine die e is asleep, or its gate node is closed (R416, R108; log 36). -/
def State.dieAsleep (s : State) (e : Nat) : Bool :=
  (s.fld Fld.HUB_PWR_STATUS_ENG_SLEEP 0).testBit e || !s.gateOpen (1 + e)

/-- Cluster c, or its die, is asleep, or its gate node is closed. -/
def State.clusterAsleep (s : State) (c : Nat) : Bool :=
  (s.fld Fld.HUB_PWR_STATUS_CL_SLEEP 0).testBit c || !s.gateOpen (3 + c) || s.dieAsleep (c / 2)

/-- The clock of lane n is stopped. -/
def State.laneOff (s : State) (n : Nat) : Bool := !s.gateOpen (7 + n) || s.clusterAsleep (n / 4)

/-- An image is in force. -/
def State.pitched (s : State) : Bool := !s.pitch.hdr.isEmpty

/-! ### The time base -/

/-- `n` ns in tu (R3). -/
def ns (n : Nat) : Nat := n * 8192

/-- HUB_TICK_CFG.K. -/
def State.k (s : State) : Nat := s.fld Fld.HUB_TICK_CFG_K 0

/-- The spacing, in tu, of the instants at which SH values commit: the frame tick, or the 2²³ tu grid while UNPITCHED
(R35, R47). -/
def State.period (s : State) : Nat := if s.pitched then 2 ^ (s.k + 13) else 2 ^ 23

/-- The first such instant after now. -/
def State.nextGrid (s : State) : Tu := BitVec.ofNat 64 ((s.time.toNat / s.period + 1) * s.period)

/-- The stamp that a write of an SH field carries: local time truncated to the 250 MHz cycle (R43). -/
def State.hubStamp (s : State) : Tu := BitVec.ofNat 64 (s.time.toNat / 32768 * 32768)

/-- `a` is not later than `b` on the time base, taken modulo 2⁶⁴ (R27). -/
def tuLe (a b : Tu) : Bool := decide ((b - a).toNat < 2 ^ 63)

/-- `a` is earlier than `b`. -/
def tuLt (a b : Tu) : Bool := tuLe a b && a != b

/-- The signed distance b − a. -/
def tuDiff (a b : Tu) : Int := (b - a).toInt

/-- `a` plus `n` tu. -/
def tuAdd (a : Tu) (n : Nat) : Tu := a + BitVec.ofNat 64 n

/-- The state at instant `t`: time never runs back, and it does not pass the next tick, which is a command of its own
(log 4). -/
def State.at (s : State) (t : Tu) : State :=
  if tuLe s.time t then
    if s.standby || tuLt t s.nextGrid then { s with time := t } else { s with time := s.nextGrid - 1 }
  else s

/-- A stamp that a command carries: it may lie before now, and not after it. -/
def State.stamp (s : State) (t : Tu) : Tu := if tuLe t s.time then t else s.time

/-- The frame number that R27 gives for a time stamp at tick period 2^k ns, extended next to a frame number. -/
def frameAt (k : Nat) (near : Frame) (t : Tu) : Frame :=
  let low := t.toNat / 2 ^ (k + 13)
  let m := 2 ^ (51 - k)
  let d := (low + m - near.toNat % m) % m
  if d < m / 2 then near + BitVec.ofNat 48 d else near - BitVec.ofNat 48 (m - d)

/-- The time of the tick that begins a frame. -/
def tickTime (k : Nat) (f : Frame) : Tu := BitVec.ofNat 64 (f.toNat * 2 ^ (k + 13))

/-- (F − current) mod 2⁴⁸ lies in 1 to 2⁴⁷ − 1 (R50). -/
def frameFuture (cur f : Frame) : Bool := let d := (f - cur).toNat; decide (1 ≤ d ∧ d < 2 ^ 47)

/-- Frames compared modulo 2⁴⁸. -/
def frameLe (a b : Frame) : Bool := decide ((b - a).toNat < 2 ^ 47)

/-! ### What leaves the device, and what the manual leaves open -/

/-- The state with one more output. -/
def State.emit (s : State) (o : Out) : State := { s with out := o :: s.out }

/-- A value the manual leaves open, below `n` (log 2). -/
def State.freeBelow (s : State) (n : Nat) : Nat := Config.freeNat s.free % (max n 1)

/-- The state after such a value was used. -/
def State.used (s : State) : State := { s with free := s.free + 1 }

/-! ### Folds over the indices of things -/

/-- The state after `f` at each of 0, 1, …, n − 1, in ascending order. -/
def State.each (s : State) (n : Nat) (f : State → Nat → State) : State := (List.range n).foldl f s

/-- The bits 0 to n − 1 of a number that are set. -/
def bitsOf (n x : Nat) : List Nat := (List.range n).filter fun i => x.testBit i

/-! ### The units of the state, each by its number -/

/-- Queue q. -/
def State.queue (s : State) (q : Nat) : Queue := tget Queue.init s.dma.queues q

/-- The state with queue q changed. -/
def State.modQueue (s : State) (q : Nat) (f : Queue → Queue) : State :=
  { s with dma := { s.dma with queues := tmod Queue.init s.dma.queues q f } }

/-- Lane n. -/
def State.lane (s : State) (n : Nat) : Lane := tget Lane.init s.lanes n

/-- The state with lane n changed. -/
def State.modLane (s : State) (n : Nat) (f : Lane → Lane) : State := { s with lanes := tmod Lane.init s.lanes n f }

/-- Front end of channel ch. -/
def State.afeOf (s : State) (ch : Nat) : Afe := tget Afe.init s.afe ch

/-- The state with the front end of channel ch changed. -/
def State.modAfe (s : State) (ch : Nat) (f : Afe → Afe) : State := { s with afe := tmod Afe.init s.afe ch f }

/-- Sample PLL of die e. -/
def State.spllOf (s : State) (e : Nat) : Spll := tget Spll.init s.spll e

/-- The state with the sample PLL of die e changed. -/
def State.modSpll (s : State) (e : Nat) (f : Spll → Spll) : State := { s with spll := tmod Spll.init s.spll e f }

/-- Generator g. -/
def State.gen (s : State) (g : Nat) : Gen := tget Gen.init s.gens g

/-- The state with generator g changed. -/
def State.modGen (s : State) (g : Nat) (f : Gen → Gen) : State := { s with gens := tmod Gen.init s.gens g f }

/-- Comparators of lane n. -/
def State.comp (s : State) (n : Nat) : Comp := tget Comp.init s.comps n

/-- Region m. -/
def State.region (s : State) (m : Nat) : Region := tget Region.init s.regions m

/-- The state with region m changed. -/
def State.modRegion (s : State) (m : Nat) (f : Region → Region) : State :=
  { s with regions := tmod Region.init s.regions m f }

/-- Reduction unit u. -/
def State.redOf (s : State) (u : Nat) : Red := tget Red.init s.red u

/-- The state with reduction unit u changed. -/
def State.modRed (s : State) (u : Nat) (f : Red → Red) : State := { s with red := tmod Red.init s.red u f }

/-- Counter i. -/
def State.ticOf (s : State) (i : Nat) : Tic := tget Tic.init s.tic i

/-- The state with counter i changed. -/
def State.modTic (s : State) (i : Nat) (f : Tic → Tic) : State := { s with tic := tmod Tic.init s.tic i f }

/-- Measure converter x. -/
def State.mc (s : State) (x : Nat) : Mc := tget Mc.init s.pmu.mc x

/-- The state with measure converter x changed. -/
def State.modMc (s : State) (x : Nat) (f : Mc → Mc) : State :=
  { s with pmu := { s.pmu with mc := tmod Mc.init s.pmu.mc x f } }

end Sys2Proof.Machine
end

