-- ==== Sys2Proof/Machine/Crc.lean ====
section
/-! DEFINITION. The two cyclic redundancy checks of the device: CRC-8 of the timing link (R86) and CRC-32 of images,
records and messages (R69). -/

namespace Sys2Proof.Machine

/-- One bit of CRC-8 with polynomial 0x07. -/
def crc8Bit (c : BitVec 8) : BitVec 8 := if c.msb then (c <<< 1) ^^^ 0x07 else c <<< 1

/-- One byte of CRC-8. -/
def crc8Byte (c b : BitVec 8) : BitVec 8 :=
  let x := c ^^^ b
  crc8Bit (crc8Bit (crc8Bit (crc8Bit (crc8Bit (crc8Bit (crc8Bit (crc8Bit x)))))))

/-- CRC-8, polynomial 0x07, initial value 0, no reflection, no final XOR (R86). -/
def crc8 (bs : List Byte) : BitVec 8 := bs.foldl crc8Byte 0

/-- One bit of the reflected CRC-32. -/
def crc32Bit (c : Word) : Word := if c.getLsbD 0 then (c >>> 1) ^^^ 0xEDB88320#32 else c >>> 1

/-- One byte of the reflected CRC-32. -/
def crc32Byte (c : Word) (b : Byte) : Word :=
  let x := c ^^^ b.setWidth 32
  crc32Bit (crc32Bit (crc32Bit (crc32Bit (crc32Bit (crc32Bit (crc32Bit (crc32Bit x)))))))

/-- CRC-32 of IEEE 802.3: reflected polynomial 0x04C1_1DB7, initial value and final XOR 0xFFFF_FFFF (R69). -/
def crc32 (bs : List Byte) : Word := bs.foldl crc32Byte 0xFFFFFFFF#32 ^^^ 0xFFFFFFFF#32

/-- The seven bytes of bits [63:8] of a timing-link message, the most significant first (R86). -/
def tlkBytes (m : BitVec 64) : List Byte := (List.range 7).map fun k => m.extractLsb' (56 - 8 * k) 8

/-- The CRC of a timing-link message holds (R86). -/
def tlkCrcOk (m : BitVec 64) : Bool := crc8 (tlkBytes m) == m.extractLsb' 0 8

/-- A timing-link message with its CRC (Table CLK-2). -/
def tlkMsg (typ sub arg : Nat) : BitVec 64 :=
  let m : BitVec 64 := BitVec.ofNat 64 (((typ % 16) * 16 + sub % 16) * 2 ^ 56 + (arg % 2 ^ 48) * 256)
  m ||| (crc8 (tlkBytes m)).setWidth 64

end Sys2Proof.Machine
end

