-- ==== Sys2Proof/Machine/Flags.lean ====
section
/-! DEFINITION. Raising an event source and delivering it: the event controller (chapter 16), the trigger outputs'
pulse queue (R206), and the persistent log (R393 to R395). -/

namespace Sys2Proof.Machine

/-! ### The persistent log -/

/-- Basecamp logs a raise of the source whatever its route (R394). -/
def loggedSource (n : Nat) : Bool :=
  n ≤ 7 || n == 11 || n == 13 || n == 14 || n == 33 || n == 36 || n == 37 || n == 42 || (48 ≤ n && n ≤ 62) ||
    (64 ≤ n && n ≤ 67) || n == 278 || n == 279 || n == 380 || (457 ≤ n && n ≤ 471)

/-- The frame number that a record names: 0 while UNPITCHED (Table MGT-5). -/
def State.frameNow (s : State) : Frame := if s.pitched then s.frame else 0

/-- A log entry enters the SRAM buffer of 4,096 entries; one that finds it full is counted in MGT_LOG_DROP (R395). -/
def State.logAdd (s : State) (source kind detail : Nat) (data : Word) : State :=
  if s.mgt.sram.length < 4096 then
    let e : LogEntry := ⟨s.mgt.nextSeq + 1, s.frameNow, s.fld Fld.MGT_FW_STATUS_BOOT_COUNT 0, source, kind, detail,
      data, s.time⟩
    ({ s with mgt := { s.mgt with sram := e :: s.mgt.sram, nextSeq := s.mgt.nextSeq + 1 } }).setFld
      Fld.MGT_LOG_SEQ_SEQ 0 (s.mgt.nextSeq + 1)
  else s.bump Fld.MGT_LOG_DROP_COUNT 0 1

/-- An entry that is no event, made by Basecamp while it runs (R394, Table MGT-5). -/
def State.logNote (s : State) (kind detail : Nat) (data : Word) : State :=
  if s.mgt.run = 1 then s.logAdd 0xFFFF kind detail data else s

/-- A raise is entered in the log: at most 16 of a source in each second, the others counted (R395). While Basecamp
restarts, or has not started, the raise waits (Table MGT-1). -/
def State.logRaise (s : State) (n : Nat) (data : Word) : State :=
  if s.mgt.run = 1 then
    let c := tget 0 s.mgt.logged n
    let s' := { s with mgt := { s.mgt with logged := tput 0 s.mgt.logged n (c + 1) } }
    if c < 16 then s'.logAdd n 0 0 data else s'
  else if s.mgt.run = 3 then s
  else { s with mgt := { s.mgt with deferred := s.mgt.deferred ++ [(n, data)] } }

/-! ### Trigger outputs -/

/-- Pulses in order of edge time. -/
def pulseIns : List Pulse → Pulse → List Pulse
  | [], p => [p]
  | q :: l, p => if tuLt p.edge q.edge then p :: q :: l else q :: pulseIns l p

/-- Width of a line's pulses in ns: 4 to 1,020 (Table TRG-8). -/
def State.trigOutWidth (s : State) (i : Nat) : Nat := clampN 4 1020 (s.fld Fld.HUB_TRIG_OUT_CFG_WIDTH i)

/-- A pulse for a line: up to 16 wait for their edge times, and a further one is dropped and counted as merged (R206). -/
def State.addPulse (s : State) (i : Nat) (edge : Tu) : State :=
  let l := tget TrigLine.init s.trigOut i
  let p : Pulse := ⟨edge, s.trigOutWidth i, s.flag Fld.HUB_TRIG_OUT_CFG_POL i⟩
  if l.waiting.length < 16 then
    { s with trigOut := tput TrigLine.init s.trigOut i { l with waiting := pulseIns l.waiting p } }
  else s.bump Fld.HUB_TRIG_OUT_MERGED_COUNT i 1

/-- A fire wired to TRIG_OUT line i: the edge lies at TTS + 48 ns + DELAY (R206). -/
def State.firePulse (s : State) (i : Nat) (tts : Tu) : State :=
  s.addPulse i (tuAdd tts (ns (48 + s.fld Fld.HUB_TRIG_OUT_CFG_DELAY i)))

/-- The controller cycle that contains now (R351). -/
def State.evtCycle (s : State) : Nat :=
  if s.fld Fld.CLK_MUX_STATUS_STATE0 0 = 3 then Config.rcCycle s.time.toNat else s.time.toNat / 32768

/-! ### Sources -/

/-- The source is allocated in Table EVT-5. -/
def evtValid (n : Nat) : Bool :=
  n ≤ 2 || (4 ≤ n && n ≤ 7) || (10 ≤ n && n ≤ 14) || (32 ≤ n && n ≤ 43) || (48 ≤ n && n ≤ 62) ||
    (64 ≤ n && n ≤ 70) || (80 ≤ n && n ≤ 207 && n % 8 != 3) || (208 ≤ n && n ≤ 267) || (272 ≤ n && n ≤ 285) ||
    (304 ≤ n && n ≤ 380) || (400 ≤ n && n ≤ 409) || (424 ≤ n && n ≤ 471)

/-- The unit of the source sleeps (R349). -/
def State.evtAsleep (s : State) (n : Nat) : Bool :=
  if 80 ≤ n ∧ n ≤ 207 then s.clusterAsleep ((n - 80) / 32)
  else if 208 ≤ n ∧ n ≤ 223 then s.clusterAsleep ((n - 208) / 4)
  else if 224 ≤ n ∧ n ≤ 255 then s.dieAsleep ((n - 224) / 16)
  else if 256 ≤ n ∧ n ≤ 259 then s.clusterAsleep (n - 256)
  else if 272 ≤ n ∧ n ≤ 275 then s.clusterAsleep (n - 272)
  else if 276 ≤ n ∧ n ≤ 285 then s.dieAsleep (n % 2)
  else if 424 ≤ n ∧ n ≤ 455 then s.clusterAsleep ((n - 424) / 8)
  else false

/-- STATUS of a source. -/
def State.evtStatus (s : State) (n : Nat) : Bool := (s.reg .EVT_STATUS (n / 32)).getLsbD (n % 32)

/-- ENABLE of a source. -/
def State.evtEnable (s : State) (n : Nat) : Bool := (s.reg .EVT_ENABLE (n / 32)).getLsbD (n % 32)

/-- The state with STATUS of a source set or cleared. -/
def State.setStatus (s : State) (n : Nat) (b : Bool) : State :=
  s.setReg .EVT_STATUS (n / 32) (putBits (s.reg .EVT_STATUS (n / 32)) (n % 32) 1 b.toNat)

/-! ### Vectors (R356, R357) -/

/-- A word of the MSI-X table; every vector is masked after reset (log 8). -/
def State.msixWord (s : State) (k : Nat) : Word := tget (if k % 4 = 3 then 1#32 else 0#32) s.evt.msix k

/-- The state with a word of the MSI-X table changed. -/
def State.setMsixWord (s : State) (k : Nat) (v : Word) : State :=
  { s with evt := { s.evt with msix := tput (if k % 4 = 3 then 1#32 else 0#32) s.evt.msix k v } }

/-- The vector is armed. -/
def State.vecArmed (s : State) (v : Nat) : Bool :=
  if v < 32 then (s.reg .EVT_VEC_ARMED_LO 0).getLsbD v else (s.reg .EVT_VEC_ARMED_HI 0).getLsbD (v - 32)

/-- The state with a vector armed or disarmed. -/
def State.setArmed (s : State) (v : Nat) (b : Bool) : State :=
  if v < 32 then s.setReg .EVT_VEC_ARMED_LO 0 (putBits (s.reg .EVT_VEC_ARMED_LO 0) v 1 b.toNat)
  else s.setReg .EVT_VEC_ARMED_HI 0 (putBits (s.reg .EVT_VEC_ARMED_HI 0) (v - 32) 1 b.toNat)

/-- The vector is masked, in the table or by the function mask. -/
def State.vecMasked (s : State) (v : Nat) : Bool := s.evt.funcMask || (s.msixWord (4 * v + 3)).getLsbD 0

/-- The state with the pending bit of a vector set or cleared. -/
def State.setPba (s : State) (v : Nat) (b : Bool) : State :=
  { s with evt := { s.evt with
      pba := if b then s.evt.pba ||| (1#64 <<< v) else s.evt.pba &&& ~~~(1#64 <<< v) } }

/-- A source routed to the vector has STATUS and ENABLE both 1. -/
def State.vecActive (s : State) (v : Nat) : Bool :=
  (List.range 512).any fun n => s.evtStatus n && s.evtEnable n && s.fld Fld.EVT_ROUTE_KIND n == 0 &&
    s.fld Fld.EVT_ROUTE_TARGET n == v

/-- Signalling a vector: one message, and the vector disarms; a masked vector becomes pending instead and stays armed
(R356, R357). -/
def State.signal (s : State) (v : Nat) : State :=
  if s.vecArmed v then
    if s.vecMasked v then s.setPba v true
    else ((s.emit (.msix v (s.msixWord (4 * v)) (s.msixWord (4 * v + 1)) (s.msixWord (4 * v + 2)))).setPba v
      false).setArmed v false
  else s

/-! ### Delivery (R353, R358) -/

/-- The part sends timing-link messages: TX_ENABLE, which acts as 0 on a secondary (R93, R369). -/
def State.tlkTx (s : State) : Bool :=
  s.flag Fld.TLK_CTRL_TX_ENABLE 0 && !s.standby && s.fld Fld.GLN_STATUS_ROLE 0 < 2

/-- A timing-link message leaves, under the transmit conditions of R93. -/
def State.tlkSend (s : State) (m : BitVec 64) : State := if s.tlkTx then s.emit (.timingLink m) else s

/-- Delivery of a source over its route. A pulse for TRIG_OUT starts within the 200 ns that Table EVT-2 allows (a free
value). -/
def State.deliver (s : State) (n : Nat) : State :=
  let kind := s.fld Fld.EVT_ROUTE_KIND n
  let target := s.fld Fld.EVT_ROUTE_TARGET n
  if kind = 0 then s.signal target
  else if kind = 1 then
    if s.mgt.run = 1 then
      let data := s.reg .EVT_DATA n
      let s' := if loggedSource n then s else s.logRaise n data
      (s'.setStatus n false).setReg .EVT_DATA n 0
    else if s.mgt.run = 3 then s
    else { s with evt := { s.evt with basecamp := s.evt.basecamp ++ [n] } }
  else if kind = 2 then
    if target < 4 then
      s.used.addPulse target (tuAdd s.time (s.freeBelow (ns 200 + 1)))
    else s
  else s.tlkSend (tlkMsg 0xA 0 (n * 2 ^ 39 + s.time.toNat % 2 ^ 39))

/-- The queue sources of a queue that the image leaves out never raise (R354). -/
def State.evtAbsent (s : State) (n : Nat) : Bool :=
  decide (304 ≤ n ∧ n ≤ 367) && s.fld Fld.DMA_Q_KIND_KIND (n - 304) == 0

/-- A raise of source `n` with its cause bits and information (R349, R350): STATUS sets whatever ENABLE holds, the
causes accumulate, the information of the first raise stays, the counter counts, and the source is delivered when
STATUS has just become 1 and ENABLE is 1. -/
def State.raise (s : State) (n causes info : Nat) : State :=
  if !evtValid n || s.evtAsleep n || s.evtAbsent n then s
  else
    let was := s.evtStatus n
    let old := s.fld Fld.EVT_DATA_CAUSES n
    let s1 := (s.setStatus n true).setFld Fld.EVT_DATA_CAUSES n (old ||| (causes % 2 ^ 16))
    let s2 := if old = 0 then s1.setFld Fld.EVT_DATA_INFO n info else s1
    let s3 := s2.bump Fld.EVT_CNT_COUNT n 1
    let fresh := !was && s3.evtEnable n
    let s4 := { s3 with evt := { s3.evt with raises := tins s3.evt.raises n ⟨s3.evtCycle, fresh⟩ } }
    let s5 := if loggedSource n then s4.logRaise n (BitVec.ofNat 32 (info % 2 ^ 16 * 2 ^ 16 + causes % 2 ^ 16)) else s4
    if fresh then s5.deliver n else s5

/-- A source with no causes listed sets bit 0 and leaves INFO at 0 (R350). -/
def State.raise0 (s : State) (n : Nat) : State := s.raise n 1 0

/-- A counter field is raised by one, and source `n` is raised at the first count since the field was read. -/
def State.bumpRaise (s : State) (f : Fld) (i n causes info : Nat) : State :=
  let s' := s.bump f i 1
  if s.fld f i = 0 then s'.raise n causes info else s'

/-- MGT_LOG_DROP leaving 0 raises EV466 (Table MGT-10). -/
def State.logNoteDrop (s0 s : State) : State :=
  if s0.fld Fld.MGT_LOG_DROP_COUNT 0 = 0 ∧ s.fld Fld.MGT_LOG_DROP_COUNT 0 ≠ 0 then s.raise0 466 else s

/-- The lines whose merge count has left 0 from `s0` to `s` raise EV(260 + i) (Table TRG-9). A pulse that delivers such a
raise may be the first merge of another line: the device's four lines take four rounds at most (log 107). -/
def State.mergeNote : Nat → State → State → State
  | 0, _, s => s
  | n + 1, s0, s =>
    State.mergeNote n s (s.each 4 fun x i =>
      if s0.fld Fld.HUB_TRIG_OUT_MERGED_COUNT i = 0 ∧ s.fld Fld.HUB_TRIG_OUT_MERGED_COUNT i ≠ 0 then x.raise0 (260 + i)
      else x)

/-! ### What a command answers -/

/-- The outcome of a command: the next state, with EV(260 + i) raised where a merge count has left 0 (Table TRG-9), and EV466
where MGT_LOG_DROP has (Table MGT-10). -/
def State.done (s0 s : State) : Host.Outcome State Fault Refusal := .next (s0.logNoteDrop (s0.mergeNote 4 s))

/-- What happens at instant `t` in a device that runs; a device held in reset or off ignores it (R409, R416). -/
def State.when (s : State) (t : Tu) (f : State → State) : Host.Outcome State Fault Refusal :=
  if s.alive then s.done (f (s.at t)) else .next s

/-- What a host access at instant `t` does: nothing while the host link is in reset (R410). -/
def State.whenHost (s : State) (t : Tu) (f : State → State) : Host.Outcome State Fault Refusal :=
  if s.hostUp then s.done (f (s.at t)) else .next s

end Sys2Proof.Machine
end

