-- ==== Sys2Proof/Machine/Image.lean ====
section
/-! DEFINITION. The pitch image (chapter 03): its header and records, the structural checks of R62, R63, R68 and R78,
the budget of R66 and R67, the signature of R70, and the combined image of R75. -/

namespace Sys2Proof.Machine

/-! ### Records -/

/-- The body of a record, none where the image has no such record. -/
def recBody (rs : List ImgRec) (typ inst : Nat) : Option (List Byte) :=
  (rs.find? fun r => r.typ == typ && r.inst == inst).map ImgRec.body

/-- A field of a record; `d` where the image has no such record. -/
def recFld (rs : List ImgRec) (typ inst off n d : Nat) : Nat :=
  match recBody rs typ inst with
  | none => d
  | some b => leAt b off n

/-- Body bytes of a record type, and the number of its instances (Table PIT-3); none for a TYPE not in the table. -/
def recShape (typ : Nat) : Option (Nat × Nat) :=
  if typ = 0x1 then some (8, 2) else if typ = 0x2 then some (8, 4) else if typ = 0x3 then some (16, 16)
  else if typ = 0x4 then some (8, 13) else if typ = 0x5 then some (40, 32) else if typ = 0x6 then some (32, 64)
  else if typ = 0x7 then some (8, 4) else if typ = 0x8 then some (8, 32) else if typ = 0x9 then some (8, 8)
  else if typ = 0xA then some (8, 34) else if typ = 0x10 then some (16, 2) else if typ = 0x11 then some (8, 2)
  else if typ = 0x12 then some (8, 1) else if typ = 0x13 then some (12, 64) else if typ = 0xFF then some (0, 1)
  else none

/-- Body bytes that a field of Table PIT-4 or Table PIT-5 occupies: offset and size. -/
def recFields (typ : Nat) : List (Nat × Nat) :=
  if typ = 0x1 then [(0, 2)] else if typ = 0x2 then [(0, 1)] else if typ = 0x3 then [(0, 1), (4, 5)]
  else if typ = 0x4 then [(0, 5)] else if typ = 0x5 then [(0, 3), (4, 32)]
  else if typ = 0x6 then [(0, 9), (16, 12)] else if typ = 0x7 then [(0, 5)] else if typ = 0x8 then [(0, 2)]
  else if typ = 0x9 then [(0, 4)] else if typ = 0xA then [(0, 3)] else if typ = 0x10 then [(0, 16)]
  else if typ = 0x11 then [(0, 8)] else if typ = 0x12 then [(0, 8)] else if typ = 0x13 then [(0, 12)] else []

/-- The body bytes that no field occupies are 0 (R63). -/
def reservedZero (typ : Nat) (body : List Byte) : Bool :=
  (List.range body.length).all fun o =>
    (recFields typ).any (fun f => decide (f.1 ≤ o ∧ o < f.1 + f.2)) || body.getD o 0 == 0

/-! ### The structure that the records define -/

/-- Interleave factor of a cluster: 1, 2 or 4; ×1 without an image (R72). -/
def ilvF (rs : List ImgRec) (c : Nat) : Nat := 2 ^ min 2 (recFld rs 2 c 0 1 0)

/-- A channel's input is disconnected (Table ARC-3). -/
def disconnected (rs : List ImgRec) (ch : Nat) : Bool := ch % 4 % ilvF rs (ch / 4) != 0

/-- Channels that region m records, ascending. -/
def regionChans (rs : List ImgRec) (m : Nat) : List Nat :=
  (bitsOf 8 (recFld rs 5 m 0 1 0)).map fun i => 8 * (m / 16) + i

/-- The image defines region m. -/
def regionDefined (rs : List ImgRec) (m : Nat) : Bool := recFld rs 5 m 0 1 0 != 0

/-- REGION.MODE, FORMAT, SEG_LEN, BASE, SIZE, DIR_BASE, DIR_COUNT, SEG_RATE_MAX. -/
def regionMode (rs : List ImgRec) (m : Nat) : Nat := recFld rs 5 m 1 1 0
def regionWide (rs : List ImgRec) (m : Nat) : Bool := recFld rs 5 m 2 1 0 == 1
def regionLen (rs : List ImgRec) (m : Nat) : Nat := recFld rs 5 m 4 4 0
def regionBase (rs : List ImgRec) (m : Nat) : Nat := recFld rs 5 m 8 8 0
def regionSize (rs : List ImgRec) (m : Nat) : Nat := recFld rs 5 m 16 8 0
def regionDirBase (rs : List ImgRec) (m : Nat) : Nat := recFld rs 5 m 24 4 0
def regionDirCount (rs : List ImgRec) (m : Nat) : Nat := recFld rs 5 m 28 4 0
def regionRate (rs : List ImgRec) (m : Nat) : Nat := recFld rs 5 m 32 4 0

/-- The interleave factor of a region's reference channel: its recorded channel with the lowest sample rate (R199). -/
def refF (rs : List ImgRec) (m : Nat) : Nat := ((regionChans rs m).map fun ch => ilvF rs (ch / 4)).foldl min 4

/-- The reference channel of a region (R199). -/
def refChan (rs : List ImgRec) (m : Nat) : Nat :=
  ((regionChans rs m).find? fun ch => ilvF rs (ch / 4) == refF rs m).getD (8 * (m / 16))

/-- ⌈a / b⌉. -/
def ceilDiv (a b : Nat) : Nat := (a + b - 1) / b

/-- Bytes of one channel's run (Table SEG-2). -/
def runLen (rs : List ImgRec) (m ch : Nat) : Nat :=
  if regionMode rs m < 2 then
    if regionWide rs m then ceilDiv (regionLen rs m * 2) 64 * 64
    else ceilDiv (ceilDiv (regionLen rs m) 12 * 16) 64 * 64
  else (if regionWide rs m then 6144 else 4096) * ilvF rs (ch / 4) / refF rs m

/-- Bytes of a region's slot (R212). -/
def slotLen (rs : List ImgRec) (m : Nat) : Nat := ((regionChans rs m).map (runLen rs m)).sum

/-- Capacity of a region (R214). -/
def regionCap (rs : List ImgRec) (m : Nat) : Nat :=
  let n := regionSize rs m / max 1 (slotLen rs m)
  if regionMode rs m < 2 then min n (regionDirCount rs m) else n

/-- STREAM.KIND, UNIT, LAT_CLASS, FULL_POLICY, PACE, VECTOR, STAGE_BASE and STAGE_SIZE. -/
def streamKind (rs : List ImgRec) (q : Nat) : Nat := recFld rs 6 q 0 1 0
def streamUnit (rs : List ImgRec) (q : Nat) : Nat := recFld rs 6 q 1 1 0xFF
def streamLat (rs : List ImgRec) (q : Nat) : Nat := recFld rs 6 q 2 1 0
def streamPolicy (rs : List ImgRec) (q : Nat) : Nat := recFld rs 6 q 3 1 0
def streamPace (rs : List ImgRec) (q : Nat) : Nat := recFld rs 6 q 4 4 0
def streamVector (rs : List ImgRec) (q : Nat) : Nat := recFld rs 6 q 8 1 0
def stageBase (rs : List ImgRec) (q : Nat) : Nat := recFld rs 6 q 16 8 0
def stageSize (rs : List ImgRec) (q : Nat) : Nat := recFld rs 6 q 24 4 0

/-- The queue is granted (R65). -/
def granted (rs : List ImgRec) (q : Nat) : Bool := decide (1 ≤ streamKind rs q ∧ streamKind rs q ≤ 6)

/-- The cluster of a stream's source: a reduction unit's, a counter's; none for the other kinds. -/
def streamCluster (kind unit : Nat) : Option Nat :=
  if 1 ≤ kind ∧ kind ≤ 3 then some (unit / 4) else if kind = 4 then some (unit / 8) else none

/-- The die in whose stack a stream is staged: none for PMU, in hub SRAM, and for READOUT. -/
def streamDie (rs : List ImgRec) (q : Nat) : Option Nat :=
  let k := streamKind rs q
  let u := streamUnit rs q
  if 1 ≤ k ∧ k ≤ 3 then some (u / 8) else if k = 4 then some (u / 16) else if k = 5 then some (u / 16) else none

/-! ### The budget (R66, R67) -/

/-- LANE_RATE_MAX of a die, in MS/s. -/
def rateMax (rs : List ImgRec) (e : Nat) : Nat := recFld rs 1 e 0 2 8200

/-- Region write rate, in MB/s. -/
def regionRateMB (rs : List ImgRec) (m : Nat) : Nat :=
  let lanes := ((regionChans rs m).map fun ch => ilvF rs (ch / 4)).sum * rateMax rs (m / 16)
  if regionWide rs m then lanes * 2 else ceilDiv (lanes * 4) 3

/-- Directory write-back rate of a region, in MB/s. -/
def dirRateMB (rs : List ImgRec) (m : Nat) : Nat := ceilDiv (regionRate rs m * 32) 1000000

/-- Rate of the stream on a queue, in MB/s. -/
def streamRateMB (rs : List ImgRec) (q : Nat) : Nat :=
  let k := streamKind rs q
  let u := streamUnit rs q
  let p := max 1 (streamPace rs q)
  if 1 ≤ k ∧ k ≤ 3 then ceilDiv (rateMax rs (u / 8) * ilvF rs (u / 4) * 2) p
  else if k = 4 then ceilDiv (24 * 1000) p
  else if k = 5 then dirRateMB rs u
  else if k = 6 then ceilDiv (16 * 1000) p
  else 0

/-- The granted queues, ascending. -/
def grantedQs (rs : List ImgRec) : List Nat := (List.range 64).filter (granted rs)

/-- The regions that the image defines. -/
def regionsOf (rs : List ImgRec) : List Nat := (List.range 32).filter (regionDefined rs)

/-- CLASS3 of a die. -/
def class3 (rs : List ImgRec) (e : Nat) : Nat :=
  (((grantedQs rs).filter fun q => streamDie rs q == some e).map (streamRateMB rs)).sum

/-- CLASS2 of a die. -/
def class2 (rs : List ImgRec) (e : Nat) : Nat :=
  (((regionsOf rs).filter fun m => m / 16 == e).map (dirRateMB rs)).sum

/-- CLASS1 of a die. -/
def class1 (rs : List ImgRec) (e : Nat) : Nat :=
  (((regionsOf rs).filter fun m => m / 16 == e).map (regionRateMB rs)).sum + class3 rs e

/-- Header fields that the budget uses. -/
def hdrK (h : List Byte) : Nat := leAt h 0x20 1
def hdrGen (h : List Byte) : Nat := leAt h 0x21 1
def hdrWidth (h : List Byte) : Nat := leAt h 0x22 1
def hdrStallMax (h : List Byte) : Nat := leAt h 0x24 2
def hdrStallShare (h : List Byte) : Nat := leAt h 0x26 1

/-- Link capacity per lane, in MB/s. -/
def linkC (gen : Nat) : Nat :=
  if gen = 1 then 237 else if gen = 2 then 475 else if gen = 3 then 937 else if gen = 4 then 1875 else 3750

/-- LOAD: 0 with no granted queue. -/
def linkLoad (h : List Byte) (rs : List ImgRec) : Nat :=
  ((grantedQs rs).map (streamRateMB rs)).sum + ceilDiv ((grantedQs rs).length * 64000) (2 ^ hdrK h)

/-- CAP, signed. -/
def linkCap (h : List Byte) : Int :=
  (ceilDiv (linkC (hdrGen h) * hdrWidth h * (100 - hdrStallShare h)) 100 : Nat) - 1000

/-- PATH of every queue; none while CAP is not positive. -/
def linkPath (h : List Byte) (rs : List ImgRec) : Option Nat :=
  if linkCap h ≤ 0 then none
  else some (2 ^ hdrK h + ceilDiv (linkLoad h rs * 2 ^ hdrK h) (linkCap h).toNat + hdrStallMax h + 1000)

/-- DEADLINE of a queue. -/
def deadline (h : List Byte) (rs : List ImgRec) (q : Nat) : Nat := streamLat rs q * 2 ^ hdrK h

/-- The least staging area of a stream (R67 item 5). -/
def stageMin (h : List Byte) (rs : List ImgRec) (q : Nat) : Nat :=
  ceilDiv ((streamLat rs q + 2) * streamRateMB rs q * 2 ^ hdrK h) (1000 * 4096) * 4096

/-- The body that a budget record must have; none where the structure calls for no such record. -/
def budgetWant (h : List Byte) (rs : List ImgRec) (typ inst : Nat) : Option (List Byte) :=
  if typ = 0x10 then
    some (leBytes 4 (class1 rs inst) ++ leBytes 4 (class2 rs inst) ++ leBytes 4 (class3 rs inst) ++ leBytes 4 614400)
  else if typ = 0x11 then some (leBytes 4 (class3 rs inst) ++ leBytes 4 96000)
  else if typ = 0x12 then some (leBytes 4 (linkLoad h rs) ++ leBytes 4 (unsgn 32 (linkCap h)))
  else if typ = 0x13 then
    if granted rs inst then
      some (leBytes 4 (streamRateMB rs inst) ++ leBytes 4 ((linkPath h rs).getD 0xFFFFFFFF) ++
        leBytes 4 (deadline h rs inst))
    else none
  else none

/-! ### The walk over the records (R63) -/

/-- What the walk found: the records before END and the INST of END, or the index of the record at fault. -/
inductive Walk where
  | good (recs : List ImgRec) (endInst : Nat)
  | bad (index : Nat)
  deriving DecidableEq, Repr

/-- The records from the front of `bs` on, which ends at CRC_OFF. `fuel` bounds their number, `i` is the index of the
next one, `prev` the last TYPE and INST. -/
def walk (count : Nat) : Nat → List Byte → Nat → Option (Nat × Nat) → List ImgRec → Walk
  | 0, _, i, _, _ => .bad (i - 1)
  | fuel + 1, bs, i, prev, acc =>
    let typ := leAt bs 0 2
    let len := leAt bs 2 2
    let inst := leAt bs 4 2
    if bs.length < 8 ∨ bs.length < len then .bad (i - 1)
    else if len < 8 ∨ len % 8 ≠ 0 ∨ leAt bs 6 2 ≠ 0 then .bad i
    else
      let body := (bs.take len).drop 8
      let ordered := match prev with
        | none => true
        | some (t, k) => decide (t < typ ∨ (t = typ ∧ k < inst))
      let shaped := match recShape typ with
        | none => true
        | some (n, _) => decide (n ≤ body.length) && reservedZero typ body
      if !ordered || !shaped then .bad i
      else if typ = 0xFF then
        if bs.length ≠ len ∨ count ≠ i + 1 then .bad i else .good acc.reverse inst
      else walk count fuel (bs.drop len) (i + 1) (some (typ, inst)) (⟨typ, inst, body⟩ :: acc)

/-- The index of the first record after the place of a missing record; END follows all others. -/
def placeAfter (rs : List ImgRec) (typ inst : Nat) : Nat :=
  (rs.takeWhile fun r => decide (r.typ < typ ∨ (r.typ = typ ∧ r.inst < inst))).length

/-- The records that Table PIT-3 requires of a FULL image, without BUDGET_TICK, in order. -/
def requiredRecs : List (Nat × Nat) :=
  [(1, 0), (1, 1), (2, 0), (2, 1), (2, 2), (2, 3)] ++ (List.range 34).map (fun n => (0xA, n)) ++
    [(0x10, 0), (0x10, 1), (0x11, 0), (0x11, 1), (0x12, 0)]

/-- The first required record that is missing. -/
def missingRec (full : Bool) (all rs : List ImgRec) : Option Nat :=
  let need := (if full then requiredRecs else []) ++ (grantedQs all).map (fun q => (0x13, q))
  (need.find? fun k => (recBody rs k.1 k.2).isNone).map fun k => placeAfter rs k.1 k.2

/-! ### Merging (R75, R78) -/

/-- A record put in its place in the order of TYPE and INST. -/
def recIns : List ImgRec → ImgRec → List ImgRec
  | [], r => [r]
  | q :: l, r =>
    if r.typ < q.typ ∨ (r.typ = q.typ ∧ r.inst < q.inst) then r :: q :: l
    else if r.typ = q.typ ∧ r.inst = q.inst then r :: l
    else q :: recIns l r

/-- A record of a PARTIAL image that deletes: a REGION with CH_MASK 0, a STREAM with KIND 0 (R64). -/
def recDeletes (r : ImgRec) : Bool := (r.typ == 5 || r.typ == 6) && leAt r.body 0 1 == 0

/-- The union of the image in force and the records of a PARTIAL image: a deleted queue loses its BUDGET_TICK too
(R78). -/
def recMerge (base part : List ImgRec) : List ImgRec :=
  part.foldl (fun acc r =>
    if recDeletes r then
      acc.filter fun q => !((q.typ == r.typ && q.inst == r.inst) || (r.typ == 6 && q.typ == 0x13 && q.inst == r.inst))
    else recIns acc r) base

/-! ### Checks of the header -/

/-- BAD_HEADER: MAGIC, FMT_VER, HDR_LEN, PART or a reserved field wrong. -/
def badHeader (b : List Byte) : Bool :=
  leAt b 0 4 != 0x544E4554 || leAt b 4 2 != 1 || leAt b 6 2 != 64 || leAt b 8 2 != 0x1632 || leAt b 0x27 1 != 0 ||
    leAt b 0x2A 2 != 0 || leAt b 0x38 8 != 0

/-- IMAGE_LEN, CRC_OFF and SIG_OFF. -/
def imgLen (b : List Byte) : Nat := leAt b 0xC 4
def crcOff (b : List Byte) : Nat := leAt b 0x2C 4
def sigOff (b : List Byte) : Nat := leAt b 0x30 4

/-- SCOPE is PARTIAL. -/
def isPartial (b : List Byte) : Bool := leAt b 0xB 1 == 1

/-- PART_CLUSTER. -/
def partCluster (b : List Byte) : Nat := leAt b 0x23 1

/-- LENGTH: IMAGE_LEN, CRC_OFF or SIG_OFF inconsistent, or longer than the transfer (R69, R70). -/
def badLength (b : List Byte) : Bool :=
  decide (imgLen b % 8 ≠ 0 ∨ imgLen b > 1048576 ∨ imgLen b > b.length ∨ crcOff b % 8 ≠ 0 ∨ crcOff b < 64 ∨
    (sigOff b = 0 ∧ imgLen b ≠ crcOff b + 8) ∨
    (sigOff b ≠ 0 ∧ (sigOff b ≠ crcOff b + 8 ∨ imgLen b ≠ sigOff b + 208)))

/-- CRC: mismatch, or a byte other than 0 in the four after it (R69). -/
def badCrc (b : List Byte) : Bool :=
  crc32 (b.take (crcOff b)) != BitVec.ofNat 32 (leAt b (crcOff b) 4) || leAt b (crcOff b + 4) 4 != 0

/-- SIG_BAD (R70). -/
def badSig (fuses : Tab Nat) (b : List Byte) : Bool :=
  let o := sigOff b
  let key := (b.drop (o + 8)).take 97
  let idx := leAt b (o + 2) 2
  sigOff b != 0 &&
    (leAt b o 2 != 1 || decide (idx > 3) || leAt b (o + 4) 4 != 0 || leAt b (o + 105) 7 != 0 ||
      !Config.isP384Point key || leAt key 0 1 != 4 || Config.sha384 key != tget 0 fuses (2 + idx) ||
      (tget 0 fuses 6).testBit idx ||
      !Config.ecdsaP384 key (Config.sha384 (b.take (crcOff b + 8))) ((b.drop (o + 112)).take 96))

/-- RANGE in the header (R62). -/
def badHdrRange (b : List Byte) : Bool :=
  decide (leAt b 0xB 1 > 1 ∨ hdrK b < 8 ∨ hdrK b > 14 ∨ hdrGen b < 1 ∨ hdrGen b > 5 ∨
    (hdrWidth b ≠ 1 ∧ hdrWidth b ≠ 2 ∧ hdrWidth b ≠ 4 ∧ hdrWidth b ≠ 8) ∨ hdrStallMax b < 100 ∨
    hdrStallShare b < 1 ∨ hdrStallShare b > 50 ∨
    (isPartial b = true ∧ partCluster b > 3) ∨
    (isPartial b = false ∧ (partCluster b ≠ 0xFF ∨ leAt b 0x18 8 ≠ 0)))

/-! ### Checks of the records -/

/-- A channel number or 0xFF. -/
def badChan (ch : Nat) : Bool := decide (15 < ch ∧ ch ≠ 0xFF)

/-- A TIC source code of Table TIC-1. -/
def ticCode (x : Nat) : Bool :=
  decide (x ≤ 7 ∨ (0x10 ≤ x ∧ x ≤ 0x13) ∨ (0x18 ≤ x ∧ x ≤ 0x21) ∨ (0x28 ≤ x ∧ x ≤ 0x38) ∨ x = 0xFF)

/-- RANGE of a REGION record. -/
def badRegion (rs : List ImgRec) (part : Bool) (r : ImgRec) : Bool :=
  let b := r.body
  if leAt b 0 1 = 0 then !part && b.any (fun x => x != 0)
  else
    let cont := decide (leAt b 1 1 ≥ 2)
    decide (leAt b 1 1 > 3 ∨ leAt b 2 1 > 1 ∨ leAt b 8 8 % 4096 ≠ 0 ∨ leAt b 16 8 % 4096 ≠ 0 ∨
      leAt b 16 8 < slotLen rs r.inst ∨ leAt b 24 4 > 65535) ||
    (if cont then decide (leAt b 4 4 ≠ 0 ∨ leAt b 28 4 ≠ 0 ∨ leAt b 32 4 ≠ 0)
     else decide (leAt b 4 4 % 16 ≠ 0 ∨ leAt b 4 4 < 64 ∨ leAt b 4 4 > 16777216 ∨ leAt b 28 4 < 1 ∨
       leAt b 28 4 > 65536 ∨ leAt b 32 4 < 1 ∨ leAt b 32 4 > 62500000))

/-- RANGE of a STREAM record. -/
def badStream (part : Bool) (b : List Byte) : Bool :=
  let k := leAt b 0 1
  let u := leAt b 1 1
  let lat := leAt b 2 1
  let pace := leAt b 4 4
  if k = 0 then !part && b.any (fun x => x != 0)
  else if k = 7 then
    decide (u ≠ 0xFF ∨ lat ≠ 0 ∨ leAt b 3 1 > 1 ∨ pace ≠ 0 ∨ leAt b 8 1 > 63 ∨ leAt b 16 8 ≠ 0 ∨
      leAt b 24 4 % 4096 ≠ 0)
  else
    decide (k > 7 ∨ lat < 4 ∨ lat > 64 ∨ leAt b 3 1 > 1 ∨ leAt b 8 1 > 63 ∨ leAt b 16 8 % 4096 ≠ 0 ∨
      leAt b 24 4 % 4096 ≠ 0) ||
    (if k ≤ 3 then decide (u > 15 ∨ pace < 1 ∨ pace > 65536)
     else if k = 4 then decide (u > 31 ∨ pace = 0)
     else if k = 5 then decide (u > 31 ∨ pace ≠ 0)
     else decide (u > 1 ∨ pace = 0 ∨ leAt b 16 8 ≠ 0))

/-- A field of the record lies outside its values (Table PIT-4), or its INST outside Table PIT-3. `rs`: the resulting
structure. -/
def badRange (rs : List ImgRec) (part : Bool) (r : ImgRec) : Bool :=
  let b := r.body
  let inst := match recShape r.typ with
    | none => true
    | some (_, n) => decide (n ≤ r.inst)
  inst ||
  (if r.typ = 1 then decide (leAt b 0 2 < 6400 ∨ leAt b 0 2 > 8200)
   else if r.typ = 2 then decide (leAt b 0 1 > 2)
   else if r.typ = 3 then badChan (leAt b 0 1) || decide (leAt b 8 1 > 0x1F)
   else if r.typ = 4 then decide (leAt b 4 1 > 0x1F ∨ (r.inst = 8 ∧ leAt b 4 1 > 0xF))
   else if r.typ = 5 then badRegion rs part r
   else if r.typ = 6 then badStream part b
   else if r.typ = 7 then (List.range 4).any (fun i => badChan (leAt b i 1)) || decide (leAt b 4 1 > 8)
   else if r.typ = 8 then !ticCode (leAt b 0 1) || !ticCode (leAt b 1 1)
   else if r.typ = 9 then
     decide (leAt b 0 1 > 2 ∨ (leAt b 0 1 = 1 ∧ leAt b 1 1 > 15) ∨ leAt b 2 1 > 7 ∨ leAt b 3 1 > 3) ||
       (leAt b 0 1 != 0 && (List.range r.inst).any fun n =>
         recFld rs 9 n 0 1 0 != 0 && recFld rs 9 n 2 1 0 == leAt b 2 1)
   else if r.typ = 0xA then decide (leAt b 2 1 > 1)
   else false)

/-- The parent of a gate node in Table CLK-10. -/
def gateParent (n : Nat) : Nat :=
  if n = 0 then 0xFFFF else if n ≤ 2 then 0 else if n ≤ 6 then 1 + (n - 3) / 2 else if n ≤ 22 then 3 + (n - 7) / 4
  else if n ≤ 24 then n - 22 else if n = 27 then 26 else 0

/-- A record binds to a disconnected channel, to a unit of another cluster, to what the structure does not define, or
to a die whose stack failed training (R14, R68, R106, R414); `fail`: the failed stacks. A generator's or a plane's channel
of another cluster is a foreign binding here, and not a value outside Table PIT-4 (DEDUCED, log 33). -/
def badBinding (rs : List ImgRec) (fail : Nat → Bool) (r : ImgRec) : Bool :=
  let b := r.body
  let unwired (mask : Nat) := (bitsOf 32 mask).any fun m => !regionDefined rs m
  if r.typ = 3 then
    let ch := leAt b 0 1
    fail (r.inst / 8) || (ch != 0xFF && (ch / 4 != r.inst / 4 || disconnected rs ch)) || unwired (leAt b 4 4)
  else if r.typ = 4 then unwired (leAt b 0 4)
  else if r.typ = 5 then
    leAt b 0 1 != 0 && (fail (r.inst / 16) ||
      (bitsOf 8 (leAt b 0 1)).any fun i => disconnected rs (8 * (r.inst / 16) + i))
  else if r.typ = 6 then
    let k := leAt b 0 1
    let u := leAt b 1 1
    (match streamDie rs r.inst with
      | none => false
      | some e => granted rs r.inst && fail e) ||
      (k == 5 && (!regionDefined rs u || decide (regionMode rs u ≥ 2)))
  else if r.typ = 7 then
    fail (r.inst / 2) || (List.range 4).any fun i =>
      let ch := leAt b i 1
      ch != 0xFF && (ch / 4 != r.inst || disconnected rs ch)
  else if r.typ = 8 then fail (r.inst / 16)
  else if r.typ = 9 then leAt b 0 1 == 1 && fail (leAt b 1 1 / 8)
  else if r.typ = 0xA then
    if 29 ≤ r.inst then decide (leAt b 0 2 > 2) else leAt b 0 2 != gateParent r.inst
  else false

/-- The stack areas of the structure: die, record, first byte and length, in record order. -/
def areas (rs : List ImgRec) : List (Nat × (Nat × Nat) × Nat × Nat) :=
  (regionsOf rs).map (fun m => (m / 16, (5, m), regionBase rs m, regionSize rs m)) ++
    (grantedQs rs).filterMap fun q => (streamDie rs q).map fun e => (e, (6, q), stageBase rs q, stageSize rs q)

/-- Two areas of one stack overlap. -/
def areaClash (a b : Nat × (Nat × Nat) × Nat × Nat) : Bool :=
  a.1 == b.1 && decide (a.2.2.1 < b.2.2.1 + b.2.2.2 ∧ b.2.2.1 < a.2.2.1 + a.2.2.2)

/-- The first record, in order, that overlaps an earlier one or reaches into reserved memory; directory ranges
included (R68). -/
def overlap (rs : List ImgRec) : Option (Nat × Nat) :=
  let as := areas rs
  ((List.range as.length).findSome? fun i =>
    match as[i]? with
    | none => none
    | some a =>
      let dirClash := a.2.1.1 == 5 && decide (regionMode rs a.2.1.2 < 2) &&
        (decide (regionDirBase rs a.2.1.2 + regionDirCount rs a.2.1.2 > 65536) ||
          (regionsOf rs).any fun m => decide (m < a.2.1.2 ∧ m / 16 = a.1 ∧ regionMode rs m < 2 ∧
            regionDirBase rs m < regionDirBase rs a.2.1.2 + regionDirCount rs a.2.1.2 ∧
            regionDirBase rs a.2.1.2 < regionDirBase rs m + regionDirCount rs m))
      if (as.take i).any (areaClash a) || decide (a.2.2.1 + a.2.2.2 > 0x3FC000000) || dirClash then some a.2.1
      else none)

/-- A record that a PARTIAL image for cluster c may not carry (R78). `old`: the image in force; `new`: the result. -/
def notInPartial (c : Nat) (old new : List ImgRec) (r : ImgRec) : Bool :=
  let i := r.inst
  let onlyC (rs : List ImgRec) (m : Nat) := (regionChans rs m).all fun ch => ch / 4 == c
  !(if r.typ = 2 then i == c
    else if r.typ = 3 then i / 4 == c
    else if r.typ = 4 then i == 9 + c
    else if r.typ = 5 then onlyC old i && onlyC [r] i
    else if r.typ = 6 then
      let k := leAt r.body 0 1
      let inC (rs : List ImgRec) :=
        if granted rs i then
          if streamKind rs i = 5 then onlyC old (streamUnit rs i) && onlyC new (streamUnit rs i)
          else streamCluster (streamKind rs i) (streamUnit rs i) == some c
        else true
      if k = 7 then !granted old i
      else if k = 0 then inC old
      else inC old && inC [r]
    else if r.typ = 7 then i == c
    else if r.typ = 8 then i / 8 == c
    else if r.typ = 0x10 ∨ r.typ = 0x11 then i == c / 2
    else if r.typ = 0x12 then i == 0
    else if r.typ = 0x13 then granted new i
    else false)

/-! ### The whole check (R74) -/

/-- The verdict on an image: granted with its header and records, or refused with a code of Table PIT-7 and the
detail. -/
inductive Verdict where
  | accept (hdr : List Byte) (recs : List ImgRec)
  | refuse (code detail : Nat)
  deriving DecidableEq, Repr

/-- The index of the first record that a check picks. -/
def firstRec (rs : List ImgRec) (p : ImgRec → Bool) : Option Nat := rs.findIdx? p

/-- The index of a record in the image being checked; 0xFFFF for one of the image in force. -/
def indexOf (rs : List ImgRec) (k : Nat × Nat) : Nat :=
  (rs.findIdx? fun r => r.typ == k.1 && r.inst == k.2).getD 0xFFFF

/-- A budget record differs from the device's own result under header `h`. -/
def budgetOff (h : List Byte) (all : List ImgRec) (r : ImgRec) : Bool :=
  (0x10 ≤ r.typ && r.typ ≤ 0x13) && budgetWant h all r.typ r.inst !=
    some (r.body.take (match recShape r.typ with | none => 0 | some (n, _) => n))

/-- The checks of codes 0x0C to 0x12 on a structure. `rs`: the records of the image itself, under its own header `h`;
`kept`: those of the image in force that stay, under that image's header `h0` (DEDUCED, log 33). -/
def budgetFail (h h0 : List Byte) (all rs kept : List ImgRec) : Option (Nat × Nat) :=
  match firstRec rs (budgetOff h all) with
  | some i => some (0xC, i)
  | none =>
    if kept.any (budgetOff h0 all) then some (0xC, 0xFFFF)
    else if class1 all 0 + class2 all 0 + class3 all 0 > 614400 then some (0xD, indexOf rs (0x10, 0))
    else if class1 all 1 + class2 all 1 + class3 all 1 > 614400 then some (0xD, indexOf rs (0x10, 1))
    else if class3 all 0 > 96000 then some (0xE, indexOf rs (0x11, 0))
    else if class3 all 1 > 96000 then some (0xE, indexOf rs (0x11, 1))
    else if !(grantedQs all).isEmpty && decide ((linkLoad h all : Int) > linkCap h) then
      some (0xF, indexOf rs (0x12, 0))
    else
      match (grantedQs all).find? fun q => decide (deadline h all q < 4096) with
      | some q => some (0x10, indexOf rs (0x13, q))
      | none =>
        match (grantedQs all).find? fun q =>
            match linkPath h all with | none => true | some p => decide (p > deadline h all q) with
        | some q => some (0x11, indexOf rs (0x13, q))
        | none =>
          let sram (q : Nat) := (((grantedQs all).filter fun p => p ≤ q && streamKind all p == 6).map
            (stageSize all)).sum
          match (grantedQs all).find? fun q => decide (stageSize all q < stageMin h all q) ||
              (streamKind all q == 6 && decide (sram q > 1048576)) with
          | some q => some (0x12, indexOf rs (6, q))
          | none => none

/-- The checks of the records, codes 0x07 to 0x15 (R68, R74, R78), given what the walk found; those of R67 and R68 on the
union, in which a record `kept` from the image in force counts too. `base`: header, records
and CRC in force, none while UNPITCHED. -/
def checkRecs (fail : Nat → Bool) (base : Option (List Byte × List ImgRec × Word)) (idle : List ImgRec → Bool)
    (b : List Byte) (rs : List ImgRec) (endInst : Nat) : Verdict :=
  let part := isPartial b
  let c := partCluster b
  let old := match base with | none => [] | some x => x.2.1
  let all := if part then recMerge old rs else rs
  let kept := if part then old.filter fun r => all.contains r && (recBody rs r.typ r.inst).isNone else []
  let unknown (r : ImgRec) :=
    (recShape r.typ).isNone || (part && notInPartial c old all r)
  match missingRec (!part) all rs with
  | some i => .refuse 0x7 i
  | none =>
    match firstRec rs unknown with
    | some i => .refuse 0x8 i
    | none =>
      match firstRec rs (badRange all part) with
      | some i => .refuse 0x9 i
      | none =>
        if endInst ≠ 0 then .refuse 0x9 rs.length
        else if kept.any (badRange all false) then .refuse 0x9 0xFFFF
        else
          match firstRec rs (badBinding all fail) with
          | some i => .refuse 0xA i
          | none =>
            if kept.any (badBinding all fail) then .refuse 0xA 0xFFFF
            else
              match overlap all with
              | some k => .refuse 0xB (indexOf rs k)
              | none =>
                match budgetFail b (match base with | none => b | some x => x.1) all rs kept with
                | some (code, i) => .refuse code i
                | none =>
                  match base with
                  | none => if part then .refuse 0x14 0xFFFF else .accept (b.take 64) rs
                  | some (h, _, crc) =>
                    if hdrK b ≠ hdrK h then .refuse 0x13 0xFFFF
                    else if part && (leAt b 0x18 4 != leAt h 0x10 4 || BitVec.ofNat 32 (leAt b 0x1C 4) != crc ||
                        hdrGen b != hdrGen h || hdrWidth b != hdrWidth h || hdrStallMax b != hdrStallMax h ||
                        hdrStallShare b != hdrStallShare h) then .refuse 0x14 0xFFFF
                    else if part && !idle rs then .refuse 0x15 0xFFFF
                    else .accept (b.take 64) rs

/-- The check of an image's content, in the order of the codes, the header before the records (R74). -/
def checkImage (fuses : Tab Nat) (fail : Nat → Bool) (base : Option (List Byte × List ImgRec × Word))
    (idle : List ImgRec → Bool) (b : List Byte) : Verdict :=
  if b.length < 64 then .refuse 0x3 0xFFFF
  else if badHeader b then .refuse 0x1 0xFFFF
  else if leAt b 0xA 1 > 0x21 then .refuse 0x2 0xFFFF
  else if badLength b then .refuse 0x3 0xFFFF
  else if badCrc b then .refuse 0x4 0xFFFF
  else if sigOff b = 0 ∧ (tget 0 fuses 7).testBit 0 then .refuse 0x5 0xFFFF
  else if badSig fuses b then .refuse 0x6 0xFFFF
  else if badHdrRange b then .refuse 0x9 0xFFFF
  else
    match walk (leAt b 0x28 2) 131073 ((b.take (crcOff b)).drop 64) 0 none [] with
    | .bad i => .refuse 0x7 i
    | .good rs endInst => checkRecs fail base idle b rs endInst

/-! ### Writing an image (R75) -/

/-- A record as bytes. -/
def recBytes (r : ImgRec) : List Byte :=
  leBytes 2 r.typ ++ leBytes 2 (8 + r.body.length) ++ leBytes 2 r.inst ++ leBytes 2 0 ++ r.body

/-- Bytes replaced from an offset on. -/
def patch (b : List Byte) (o : Nat) (x : List Byte) : List Byte := b.take o ++ x ++ b.drop (o + x.length)

/-- The combined image: one FULL image, unsigned, with the header of the full image in force. -/
def combined (h : List Byte) (rs : List ImgRec) : List Byte :=
  let recs := (rs ++ [(⟨0xFF, 0, []⟩ : ImgRec)]).flatMap recBytes
  let off := 64 + recs.length
  let h1 := patch (patch (patch h 0xC (leBytes 4 (off + 8))) 0x28 (leBytes 2 (rs.length + 1))) 0x2C (leBytes 4 off)
  let body := patch h1 0x30 (leBytes 4 0) ++ recs
  body ++ leBytes 4 (crc32 body).toNat ++ leBytes 4 0

/-- The CRC of an image (R69). -/
def imageCrc (b : List Byte) : Word := BitVec.ofNat 32 (leAt b (crcOff b) 4)

end Sys2Proof.Machine
end

