-- ==== Sys2Proof/Machine/Operands.lean ====
section
/-! DEFINITION. Operand forms: places in BAR2 (R213), descriptors in host memory (R337, R338), directory entries
(R216), completion records (Table HST-3) and sample packing. -/

namespace Sys2Proof.Machine

/-! ### BAR2 (R213) -/

/-- Bytes of BAR2 that one stack takes. -/
def stackSpan : Nat := 0x400000000

/-- The address lies in the directory mirror of its stack. -/
def inMirror (a : Nat) : Bool := decide (0x3FC000000 ≤ a % stackSpan ∧ a % stackSpan < 0x3FC200000)

/-- The address lies in the area reserved to Basecamp, beyond the mirror. -/
def inReserved (a : Nat) : Bool := decide (0x3FC200000 ≤ a % stackSpan)

/-- The byte of the stack at an address. A read that overlaps the write-back of a mirror entry may return bytes of the old
and of the new entry: which ones is left open (R222, KL-04; log 2). -/
def State.stackByte (s : State) (a : Nat) : Byte :=
  match s.dma.torn with
  | some (t, base, old) =>
    if t = s.time ∧ base ≤ a ∧ a < base + 32 ∧ Config.freeNat (s.free + (a - base)) % 2 = 0 then old.getD (a - base) 0
    else memGet s.mem a
  | none => memGet s.mem a

/-- What one byte of BAR2 reads as: 0 in the unpopulated range, in the reserved area beyond the mirror, and in a stack
whose die is asleep. -/
def State.bar2Byte (s : State) (a : Nat) : Byte :=
  if 2 * stackSpan ≤ a ∨ inReserved a = true ∨ s.dieAsleep (a / stackSpan) = true then 0 else s.stackByte a

/-- `n` bytes of BAR2. -/
def State.bar2Bytes (s : State) (a n : Nat) : List Byte := (List.range n).map fun i => s.bar2Byte (a + i)

/-- A host write of one byte is carried out: not in the unpopulated range, not in the reserved area with its mirror,
and not in a stack whose die is asleep. -/
def State.bar2Writable (s : State) (a : Nat) : Bool :=
  decide (a < 2 * stackSpan) && !inMirror a && !inReserved a && !s.dieAsleep (a / stackSpan)

/-- The state after a host write of bytes to BAR2. -/
def State.bar2Put (s : State) : Nat → List Byte → State
  | _, [] => s
  | a, b :: bs => (if s.bar2Writable a then { s with mem := memPut s.mem a b } else s).bar2Put (a + 1) bs

/-- BAR2 address of entry i of the mirror of die e. -/
def mirrorAt (e i : Nat) : Nat := e * stackSpan + 0x3FC000000 + 32 * i

/-! ### Descriptors (Table HST-2) -/

/-- A CIRC descriptor that the device takes: SIZE, base and RD (R338). -/
def circOf (d : List Byte) : Option (Nat × Nat × Nat) :=
  let size := leAt d 4 4
  let base := leAt d 8 8
  let rd := leAt d 16 4
  if leAt d 0 1 = 2 ∧ leAt d 1 1 = 0 ∧ size % 4096 = 0 ∧ base % 4096 = 0 ∧ rd < size ∧ leAt d 20 4 = 0 then
    some (size, base, rd)
  else none

/-- An XFER descriptor that the device takes: length, destination, source and CPL_EVENT (R338). Its source lies in one
stack and does not reach the reserved area beyond the mirror. -/
def xferOf (d : List Byte) : Option (Nat × Nat × Nat × Bool) :=
  let len := leAt d 4 4
  let dst := leAt d 8 8
  let src := leAt d 16 8
  if leAt d 0 1 = 1 ∧ leAt d 1 1 < 2 ∧ len % 64 = 0 ∧ 64 ≤ len ∧ dst % 64 = 0 ∧ src % 64 = 0 ∧ src < 2 * stackSpan ∧
      src / stackSpan = (src + len - 1) / stackSpan ∧ inReserved (src + len - 1) = false then
    some (len, dst, src, leAt d 1 1 == 1)
  else none

/-- What the read of the CIRC descriptor of queue q returned. -/
def hostDesc (host : List HostRead) (q : Nat) : Option (List Byte) :=
  match host.find? fun h => h.q.val == q with
  | none => none
  | some h => h.desc

/-! ### Records -/

/-- A completion record (Table HST-3). -/
def cplRecord (accept write : Frame) (bytes ofs status q : Nat) (phase : Bool) (last : Frame) : List Byte :=
  leBytes 6 accept.toNat ++ leBytes 6 write.toNat ++ leBytes 4 bytes ++ leBytes 4 ofs ++ leBytes 2 status ++
    leBytes 1 q ++ leBytes 1 phase.toNat ++ leBytes 6 last.toNat ++ leBytes 2 0

/-- A directory entry (Table SEG-3), but for its SEQ. -/
def dirEntry (tts : Tu) (start source pre flags : Nat) (frame : Frame) : List Byte :=
  leBytes 8 tts.toNat ++ leBytes 5 start ++ leBytes 2 source ++ leBytes 2 pre ++ leBytes 2 flags ++
    leBytes 6 frame.toNat ++ leBytes 1 0 ++ leBytes 6 0

/-- A directory entry with its SEQ, byte 25. -/
def entryWithSeq (e : List Byte) (seq : Nat) : List Byte := e.take 25 ++ [BitVec.ofNat 8 seq] ++ e.drop 26

/-- The next SEQ: 255 is followed by 1 (R219). -/
def nextSeqNo (x : Nat) : Nat := x % 255 + 1

end Sys2Proof.Machine
end

