-- ==== Sys2Proof/Machine/Dma.lean ====
section
/-! DEFINITION. Streams, queues and completions (chapters 02 and 15): R53 to R60 and R335 to R347. -/

namespace Sys2Proof.Machine

/-! ### Rings and completions -/

/-- RING_EXP of a queue: 4 to 13, outside values as the nearest limit. -/
def State.ringExp (s : State) (q : Nat) : Nat := clampN 4 13 (s.fld Fld.DMA_Q_RING_SIZE_RING_EXP q)

/-- CPL_EXP of a queue. -/
def State.cplExp (s : State) (q : Nat) : Nat := clampN 4 13 (s.fld Fld.DMA_Q_RING_SIZE_CPL_EXP q)

/-- Descriptors posted and not fetched (R336). -/
def State.posted (s : State) (q : Nat) : Nat :=
  let n := 2 ^ s.ringExp q
  (s.fld Fld.DMA_Q_TAIL_INDEX q % n + n - s.fld Fld.DMA_Q_HEAD_INDEX q % n) % n

/-- The completion ring is full (R336). -/
def State.cplFull (s : State) (q : Nat) : Bool :=
  let n := 2 ^ s.cplExp q
  (s.fld Fld.DMA_Q_CPL_WR_INDEX q % n + n - s.fld Fld.DMA_Q_CPL_RD_INDEX q % n) % n == n - 1

/-- STATE of a queue (Table HST-5): 0 OFF, 1 RUNNING, 2 DRAINING, 3 STOPPED_FULL, 4 ERROR, 5 ABSENT. -/
def State.qState (s : State) (q : Nat) : Nat := s.fld Fld.DMA_Q_STATUS_STATE q

/-- The state with a queue's STATE changed. -/
def State.setQState (s : State) (q x : Nat) : State := s.setFld Fld.DMA_Q_STATUS_STATE q x

/-- KIND of a queue. -/
def State.qKind (s : State) (q : Nat) : Nat := s.fld Fld.DMA_Q_KIND_KIND q

/-- The queue carries a stream. -/
def State.isStream (s : State) (q : Nat) : Bool := decide (1 ≤ s.qKind q ∧ s.qKind q ≤ 6)

/-- The queue is held: an enabled granted queue of a standby part in FAILOVER (R375). -/
def State.held (s : State) : Bool := s.flag Fld.GLN_STATUS_HELD 0

/-- The queue's event with a cause bit, and DMA_Q_STATUS.CAUSE as its information (R347, R359). -/
def State.qEvent (s : State) (q bit : Nat) : State :=
  s.raise (304 + q) (2 ^ bit) (s.fld Fld.DMA_Q_STATUS_CAUSE q)

/-- Bits of a completion's STATUS (Table HST-4). -/
def stLate : Nat := 1
def stGap : Nat := 2
def stAborted : Nat := 4
def stMemErr : Nat := 8
def stPhaseStep : Nat := 16
def stLast : Nat := 32
def stBadDesc : Nat := 64

/-- One completion record, for a queue whose completion ring has room (R336, R337, R342). -/
def State.complete (s : State) (q : Nat) (accept : Frame) (bytes ofs status : Nat) (last : Frame) : State :=
  let n := 2 ^ s.cplExp q
  let w := s.fld Fld.DMA_Q_CPL_WR_INDEX q % n
  let st := if accept ∈ s.tick.stepFrames then status ||| stPhaseStep else status
  let base := (s.pair .DMA_Q_CPL_LO .DMA_Q_CPL_HI q).toNat / 4096 * 4096
  let s1 := s.emit (.hostWrite (base + 32 * w) (cplRecord accept s.frame bytes ofs st q (s.queue q).phase last) false)
  let s2 := s1.setFld Fld.DMA_Q_CPL_WR_INDEX q ((w + 1) % n)
  let s3 := s2.modQueue q fun x =>
    { x with phase := if w + 1 = n then !x.phase else x.phase, cpls := x.cpls + 1,
             cplAge := if x.cpls = 0 then 0 else x.cplAge }
  if st.testBit 0 then s3.bump Fld.DMA_Q_LATE_COUNT q 1 else s3

/-- Bytes that are cut off without a record (R345, Table HST-6). -/
def State.addLost (s : State) (q n : Nat) : State :=
  s.setPair .DMA_Q_LOST_LO .DMA_Q_LOST_HI q
    (BitVec.ofNat 64 (min ((s.pair .DMA_Q_LOST_LO .DMA_Q_LOST_HI q).toNat + n) (2 ^ 64 - 1)))

/-- A record for bytes cut off, or their entry in DMA_Q_LOST where the completion ring is full (R345). -/
def State.recordOrLose (s : State) (q : Nat) (accept : Frame) (bytes ofs status : Nat) (last : Frame) : State :=
  if s.cplFull q then s.addLost q bytes else s.complete q accept bytes ofs status last

/-- Accepted bytes not yet delivered. -/
def Queue.bytes (x : Queue) : Nat := (x.staged.map fun b => b.bytes.length).sum

/-- DMA_Q_STAGED follows the staged data, saturating. -/
def State.syncStaged (s : State) (q : Nat) : State :=
  s.setFld Fld.DMA_Q_STAGED_BYTES q (min (s.queue q).bytes (2 ^ 32 - 1))

/-- Descriptors in execution (R339). -/
def State.inflight (s : State) : Nat :=
  ((List.range 64).map fun q =>
    (s.queue q).xfers.length + (if (s.queue q).circ.isSome then 1 else 0)).sum

/-- DMA_GLOBAL_STATUS.INFLIGHT follows the queues. -/
def State.syncInflight (s : State) : State := s.setFld Fld.DMA_GLOBAL_STATUS_INFLIGHT 0 s.inflight

/-- Free space in the host buffer (R341 item 3). -/
def State.freeSpace (s : State) (q : Nat) (c : Circ) : Nat :=
  (c.rd + c.size - s.fld Fld.DMA_Q_WR_OFS_OFS q - 1) % c.size

/-! ### Entering and leaving the states of Table HST-5 -/

/-- ERROR with a cause code: 1 BAD_DESC, 2 HOST_READ. -/
def State.qError (s : State) (q cause : Nat) : State :=
  (((s.setQState q 4).setFld Fld.DMA_Q_STATUS_CAUSE q cause).modQueue q
    (fun x => { x with accepting := false })).qEvent q 5

/-- The queue enters OFF, holding nothing. -/
def State.qOff (s : State) (q : Nat) : State :=
  ((s.setQState q 0).modQueue q fun x =>
    { x with accepting := false, circ := none, staged := [], gap := none, full := false, xfers := [],
             lastFrame := none, release := none }).syncStaged q |>.syncInflight

/-- A stream queue is enabled at a tick: the fetch of the CIRC descriptor at HEAD (R341 item 1). -/
def State.enableStream (s : State) (host : List HostRead) (q : Nat) : State :=
  if s.posted q = 0 then s.qError q 1
  else
    match hostDesc host q with
    | none => s.qError q 2
    | some d =>
      match circOf d with
      | none =>
        (s.recordOrLose q s.frame 0 (s.fld Fld.DMA_Q_HEAD_INDEX q) (stBadDesc + stLast) 0).qError q 1
      | some (size, base, rd) =>
        if size < stageMin s.pitch.hdr s.pitch.recs q then s.qError q 1
        else
          (((s.setQState q 1).setFld Fld.DMA_Q_STATUS_CAUSE q 0).setFld Fld.DMA_Q_WR_OFS_OFS q 0).modQueue q
            (fun x => { x with accepting := true, circ := some ⟨base, size, rd, s.fld Fld.DMA_Q_HEAD_INDEX q⟩ })
            |>.syncInflight

/-- A gap grows by one datum, or begins. -/
def gapAdd (g : Option Gap) (f : Frame) (n : Nat) : Gap :=
  match g with
  | none => ⟨f, f, n⟩
  | some g => ⟨g.first, f, g.bytes + n⟩

/-- Two gaps in front of one record. -/
def gapJoin (a b : Option Gap) : Option Gap :=
  match a, b with
  | none, b => b
  | a, none => a
  | some a, some b => some ⟨a.first, b.last, a.bytes + b.bytes⟩

/-- The drain of a queue begins at a tick (R344): a stream's last accept frame is the one that the tick ends, and its
record carries LAST, an empty one where that frame had no data. -/
def State.beginDrain (s : State) (q : Nat) : State :=
  let s' := s.setQState q 2
  if s.isStream q then
    let f := s.frame - 1
    s'.modQueue q fun x =>
      let staged := match x.staged.getLast? with
        | some b =>
          if b.frame = f then
            x.staged.dropLast ++ [{ b with gap := gapJoin b.gap x.gap }]
          else x.staged ++ [⟨f, [], 0, true, x.gap⟩]
        | none => [⟨f, [], 0, true, x.gap⟩]
      { x with accepting := false, lastFrame := some f, gap := none, staged := staged }
  else s'

/-- The source of a stream queue is under self-test (R430). -/
def State.queueTested (s : State) (q : Nat) : Bool :=
  let u := s.fld Fld.DMA_Q_KIND_UNIT q
  let k := s.qKind q
  s.dia.bist.isSome &&
    (if 1 ≤ k ∧ k ≤ 3 then s.testing (u / 4) || s.testing (4 + u / 4) || s.testing (8 + u / 8)
     else if k = 4 then s.testing (u / 8) || s.testing (4 + u / 8) || s.testing (8 + u / 16)
     else if k = 5 then s.testing (8 + u / 16)
     else k == 6 && s.testing 0xC)

/-- EN of a queue commits at a tick (R344, Table HST-5). -/
def State.commitEn (s : State) (host : List HostRead) (q : Nat) (en : Bool) : State :=
  let st := s.qState q
  if en then
    if s.queueTested q then s
    else if st = 0 ∧ s.isStream q then s.enableStream host q
    else if st = 0 ∧ s.qKind q = 7 then (s.setQState q 1).setFld Fld.DMA_Q_STATUS_CAUSE q 0
    else if st = 3 then (s.setQState q 1).modQueue q fun x => { x with accepting := true, full := false }
    else s
  else if st = 1 ∨ st = 3 then s.beginDrain q
  else s

/-! ### Acceptance (R54, R59) -/

/-- A queue carries the stream of a unit. -/
def State.carries (s : State) (q kind unit : Nat) : Bool := s.qKind q == kind && s.fld Fld.DMA_Q_KIND_UNIT q == unit

/-- A datum whose last sample was taken at instant `t` leaves its source for every queue whose stream it belongs to; the
stager accepts it at most 200 ns after that sample (R54). -/
def State.produce (s : State) (kind unit : Nat) (bytes : List Byte) (t : Tu) : State :=
  s.each 64 fun s q =>
    if s.carries q kind unit then
      { s with dma := { s.dma with inbound := s.dma.inbound ++ [⟨q, bytes, tuAdd t (ns 200)⟩] } }
    else s

/-- The bytes of a datum in the staging area of queue q, in the stack of the die that produced it (R21): one after the
other from the area's base upward, and on at its base past its end (log 49). A parametric stream has none. -/
def State.stageMem (s : State) (q : Nat) (bytes : List Byte) : State :=
  match streamDie s.pitch.recs q with
  | none => s
  | some e =>
    let size := max 1 (stageSize s.pitch.recs q)
    let base := e * stackSpan + stageBase s.pitch.recs q
    let p := (s.queue q).pos % size
    let m := memPutAll s.mem (base + p) (bytes.take (size - p))
    { s with mem := memPutAll m base (bytes.drop (size - p)) }.modQueue q fun x => { x with pos := (p + bytes.length) % size }

/-- A datum enters the stager of queue q in the current frame (R54); one that would exceed the staging area meets the
stream's FULL_POLICY (R59), and on a held queue raises EV060 (R375). Under STOP the stream accepts until the next tick, and
what it could not take is accounted for in the next GAP record. -/
def State.stage (s : State) (q : Nat) (bytes : List Byte) : State :=
  let x := s.queue q
  if s.qState q ≠ 1 ∨ !x.accepting then s
  else if x.bytes + bytes.length > stageSize s.pitch.recs q then
    let stop := s.fld Fld.DMA_Q_DELIV_FULL_POLICY q == 0
    let s0 := if s.held then s.raise 60 1 q else s
    let s1 := s0.modQueue q fun x =>
      { x with gap := some (gapAdd x.gap s.frame bytes.length), full := x.full || stop }
    if x.gap.isNone && !stop then s1.qEvent q 3 else s1
  else
    ((s.stageMem q bytes).modQueue q fun x =>
      let staged := match x.staged.getLast? with
        | some b =>
          if b.open_ then x.staged.dropLast ++ [{ b with bytes := b.bytes ++ bytes, gap := gapJoin b.gap x.gap }]
          else x.staged ++ [⟨s.frame, bytes, 0, true, x.gap⟩]
        | none => [⟨s.frame, bytes, 0, true, x.gap⟩]
      { x with staged := staged, gap := none }).syncStaged q

/-- The data whose acceptance may not wait for this tick enter their stagers in the frame that the tick ends (R54). -/
def State.stageDue (s : State) : State :=
  let due := s.dma.inbound.filter fun d => tuLt d.due s.time
  let s1 := { s with dma := { s.dma with inbound := s.dma.inbound.filter fun d => !tuLt d.due s.time } }
  due.foldl (fun s d => s.stage d.q d.bytes) s1

/-! ### Stalls of the host (R56, R57) -/

/-- The time that spans take of the span from a to b. -/
def spanOverlap (l : List (Tu × Tu)) (a b : Tu) : Nat :=
  (l.map fun x =>
    let lo := if tuLe a x.1 then x.1 else a
    let hi := if tuLe x.2 b then x.2 else b
    if tuLe lo hi then (hi - lo).toNat else 0).sum

/-- A span is added to a list of spans; those that it meets become one with it. -/
def joinSpan (l : List (Tu × Tu)) (a b : Tu) : List (Tu × Tu) :=
  let apart (x : Tu × Tu) := tuLt x.2 a || tuLt b x.1
  let m := l.filter fun x => !apart x
  (m.foldl (fun (y : Tu × Tu) x => (if tuLe x.1 y.1 then x.1 else y.1, if tuLe y.2 x.2 then x.2 else y.2)) (a, b)) ::
    l.filter apart

/-- The 64 frames that end at tick `t` break STALL_SHARE. -/
def State.shareBroken (s : State) (l : List (Tu × Tu)) (t : Tu) : Bool :=
  let w := 64 * s.period
  decide (s.fld Fld.HUB_HOST_BUDGET_STALL_SHARE 0 * w < 100 * spanOverlap l (t - BitVec.ofNat 64 w) t)

/-- `n` windows broke STALL_SHARE: counted, and EV013 at the first since the count was read. -/
def State.shareViol (s : State) (n : Nat) : State :=
  let s1 := s.bump Fld.HUB_HOST_STALL_VIOL_COUNT 0 n
  if n ≠ 0 ∧ s.fld Fld.HUB_HOST_STALL_VIOL_COUNT 0 = 0 then s1.raise 13 2 0 else s1

/-- A stall of `n` ns: the longest since the register was read, and EV013 at the first beyond STALL_MAX. -/
def State.stallMax (s : State) (n : Nat) : State :=
  let lim := s.fld Fld.HUB_HOST_BUDGET_STALL_MAX 0
  let old := s.fld Fld.HUB_HOST_STALL_MAX_NS 0
  let s1 := s.setFld Fld.HUB_HOST_STALL_MAX_NS 0 (max old (min n (2 ^ 32 - 1)))
  if lim < n ∧ old ≤ lim then s1.raise 13 1 0 else s1

/-- A stall that has lasted from `a` until now. Windows of 64 frames that ended meanwhile and that it breaks are counted
now (log 96). -/
def State.stalled (s : State) (a : Tu) : State :=
  let l := joinSpan s.dma.stalls a s.time
  let p := s.period
  let n := s.time.toNat / p - a.toNat / p
  let ticks := (List.range n).map fun i => BitVec.ofNat 64 ((a.toNat / p + 1 + i) * p)
  let new := ticks.filter fun t => s.shareBroken l t && !s.shareBroken s.dma.stalls t
  ({ s with dma := { s.dma with stalls := l } }.stallMax ((s.time - a).toNat / 8192)).shareViol
    (if s.pitched then new.length else 0)

/-- An admitted stream is held up: its oldest closed frame finds no room in the host buffer, or its completion ring is full
(R56, R341 item 5). -/
def State.heldUp (s : State) (q : Nat) : Bool :=
  let x := s.queue q
  s.isStream q && s.fld Fld.DMA_Q_DELIV_LAT_CLASS q != 0 && (s.qState q == 1 || s.qState q == 2 || s.qState q == 3) && !s.held &&
    match x.circ, x.staged with
    | some c, b :: _ => !b.open_ && (s.cplFull q || decide (s.freeSpace q c < b.bytes.length))
    | _, _ => false

/-- The span of a full host buffer begins or ends. -/
def State.noteBlocked (s : State) : State :=
  match s.dma.blocked, (List.range 64).any s.heldUp with
  | none, true => { s with dma := { s.dma with blocked := some s.time } }
  | some a, false => { s with dma := { s.dma with blocked := none } }.stalled a
  | _, _ => s

/-- A tick ends a window of 64 frames (R57). Spans that no later window takes in are dropped. -/
def State.stallTick (s : State) : State :=
  let s0 := match s.dma.blocked with | some a => s.stallMax ((s.time - a).toNat / 8192) | none => s
  let l := match s.dma.blocked with | some a => joinSpan s.dma.stalls a s.time | none => s.dma.stalls
  let s1 := { s0 with dma := { s0.dma with
    stalls := s0.dma.stalls.filter fun x => tuLt (s.time - BitVec.ofNat 64 (64 * s.period)) x.2 } }
  if s.shareBroken l s.time then s1.shareViol 1 else s1

/-! ### Delivery (R341, R342, R58) -/

/-- The data of a frame, written from WR_OFS upward, past the end of the buffer at offset 0. -/
def State.writeCirc (s : State) (q : Nat) (c : Circ) (bytes : List Byte) (poison : Bool) : State :=
  let w := s.fld Fld.DMA_Q_WR_OFS_OFS q
  let a := bytes.take (c.size - w)
  let b := bytes.drop (c.size - w)
  let s1 := if a.isEmpty then s else s.emit (.hostWrite (c.base + w) a poison)
  let s2 := if b.isEmpty then s1 else s1.emit (.hostWrite c.base b poison)
  s2.setFld Fld.DMA_Q_WR_OFS_OFS q ((w + bytes.length) % c.size)

/-- The queue delivers its oldest record: a GAP record before the data that follows the gap, else the data of its
oldest closed frame and its completion. -/
def State.deliverOldest (s : State) (q : Nat) (ue : Bool) : State :=
  let x := s.queue q
  match x.circ, x.staged with
  | some c, b :: rest =>
    if (s.qState q = 1 ∨ s.qState q = 2 ∨ s.qState q = 3) ∧ !s.held ∧ x.release.isNone ∧ !b.open_ ∧ !s.cplFull q then
      match b.gap with
      | some g =>
        (s.complete q g.first g.bytes (s.fld Fld.DMA_Q_WR_OFS_OFS q) stGap g.last).modQueue q fun x =>
          { x with staged := { b with gap := none } :: rest }
      | none =>
        if b.bytes.length ≤ s.freeSpace q c then
          let late := if b.age > s.fld Fld.DMA_Q_DELIV_LAT_CLASS q then stLate else 0
          let err := if ue then stMemErr else 0
          let last := if x.lastFrame = some b.frame then stLast else 0
          let ofs := s.fld Fld.DMA_Q_WR_OFS_OFS q
          (((s.writeCirc q c b.bytes ue).complete q b.frame b.bytes.length ofs (late + err + last) 0).modQueue q
            fun x => { x with staged := rest }).syncStaged q
        else s
    else s
  | _, _ => s

/-! ### READOUT queues (R339) -/

/-- The slots of the 8,192 that READOUT queues may still take. -/
def State.readoutSlots (s : State) : Nat :=
  8192 - ((List.range 64).filter fun q => s.isStream q && s.fld Fld.DMA_Q_CTRL_EN q == 1).length -
    ((List.range 64).map fun q => (s.queue q).xfers.length).sum

/-- Descriptors fetched from the ring, up to 32 in one request (R340), enter execution, as far as posted descriptors, DEPTH
and slots allow. -/
def State.fetchDescs (s : State) (q : Nat) (ds : List (List Byte)) : State :=
  let depth := max 1 (s.fld Fld.DMA_Q_CFG_DEPTH q)
  let n := min (min (min 32 ds.length) (s.posted q)) (min (depth - (s.queue q).xfers.length) s.readoutSlots)
  let ring := 2 ^ s.ringExp q
  let head := s.fld Fld.DMA_Q_HEAD_INDEX q
  if s.qKind q = 7 ∧ s.qState q = 1 then
    let xs := ((ds.take n).zipIdx).map fun (d, i) =>
      match xferOf d with
      | some (len, dst, src, ev) => (⟨s.frame, (head + i) % ring, len, dst, src, ev, false⟩ : Xfer)
      | none => ⟨s.frame, (head + i) % ring, 0, 0, 0, false, true⟩
    ((s.modQueue q fun x => { x with xfers := x.xfers ++ xs }).setFld Fld.DMA_Q_HEAD_INDEX q
      ((head + n) % ring)).syncInflight
  else s

/-- The oldest descriptor in execution completes: its bytes are copied and its record written (R338, R342). -/
def State.finishXfer (s : State) (q : Nat) (ue : Bool) : State :=
  match (s.queue q).xfers with
  | [] => s
  | d :: rest =>
    if s.qKind q ≠ 7 ∨ s.cplFull q then s
    else
      let s1 := if d.bad then s else s.emit (.hostWrite d.dst (s.bar2Bytes d.src d.len) ue)
      let st := stLast + (if d.bad then stBadDesc else if ue then stMemErr else 0)
      let s2 := ((s1.complete q d.frame d.len d.idx st 0).modQueue q fun x => { x with xfers := rest }).syncInflight
      if d.event then (s2.qEvent q 0).modQueue q fun x => { x with cpls := 0, cplAge := 0 } else s2

/-! ### Abort (R345) -/

/-- The frames that a stream queue still owes: first, last and bytes, with what was discarded under GAP; none where
it owes nothing. -/
def Queue.owed (x : Queue) : Option (Frame × Frame × Nat) :=
  let frames := x.staged.flatMap (fun b =>
    (match b.gap with | none => [] | some g => [g.first]) ++ [b.frame]) ++
    (match x.gap with | none => [] | some g => [g.first, g.last])
  let lost := (x.staged.map fun b => match b.gap with | none => 0 | some g => g.bytes).sum +
    (match x.gap with | none => 0 | some g => g.bytes)
  match frames.head?, frames.getLast? with
  | some a, some b => some (a, b, x.bytes + lost)
  | _, _ => none

/-- The record that ends a stream queue: ABORTED and LAST with the undelivered frames; where there are none, the frames
that it names are left open (log 2). -/
def State.abortRecord (s : State) (q : Nat) : State :=
  match (s.queue q).owed with
  | some (a, b, n) => s.recordOrLose q a n (s.fld Fld.DMA_Q_WR_OFS_OFS q) (stAborted + stLast) b
  | none =>
    let f : Frame := BitVec.ofNat 48 (s.freeBelow (2 ^ 48))
    s.used.recordOrLose q f 0 (s.fld Fld.DMA_Q_WR_OFS_OFS q) (stAborted + stLast) f

/-- Each descriptor in execution ends with ABORTED, LAST and the bytes that it did not copy. -/
def State.abortXfers (s : State) (q : Nat) : State :=
  (s.queue q).xfers.foldl (fun s d => s.recordOrLose q d.frame d.len d.idx (stAborted + stLast) 0) s

/-- The hard abort of a queue that is neither ABSENT nor OFF. -/
def State.abortQueue (s : State) (q : Nat) : State :=
  if s.qState q = 0 ∨ s.qState q = 5 then s
  else
    let s1 := if s.isStream q then s.abortRecord q else s.abortXfers q
    (s1.qOff q).qEvent q 4

/-- The drain of a queue that has nothing left in flight is complete (R344). -/
def State.drained (s : State) (q : Nat) : State :=
  let x := s.queue q
  if s.qState q = 2 ∧ x.staged.isEmpty ∧ x.xfers.isEmpty ∧ x.release.isNone then (s.qOff q).qEvent q 4 else s

/-! ### The tick (R39 step 7, R58, R59, R341 item 2, R347) -/

/-- The CIRC descriptor is fetched again, and RD taken from it; a read that fails, or an RD outside the buffer, keeps
the previous RD. A failed read raises HOST_READ once in 64 frames at most (Table HST-6). -/
def State.refetch (s : State) (host : List HostRead) (q : Nat) : State :=
  match (s.queue q).circ with
  | none => s
  | some c =>
    match hostDesc host q with
    | some d =>
      if leAt d 16 4 < c.size then s.modQueue q fun x => { x with circ := some { c with rd := leAt d 16 4 } } else s
    | none =>
      if (s.queue q).quiet = 0 then (s.modQueue q fun x => { x with quiet := 64 }).qEvent q 6 else s

/-- Acceptance for the frame that ended closes, and staged data grows older by one issued tick. -/
def State.closeFrame (s : State) (q : Nat) : State :=
  s.modQueue q fun x =>
    { x with staged := x.staged.map (fun b => { b with age := b.age + 1, open_ := false }),
             quiet := x.quiet - 1, cplAge := x.cplAge + 1, release := x.release.map (· + 1) }

/-- A held queue discards staged data of accept frames that the primary has delivered (R375). -/
def State.discardCovered (s : State) (q : Nat) : State :=
  let dt := s.frameOf .GLN_DT_LO .GLN_DT_HI 0
  (s.modQueue q fun x => { x with staged := x.staged.filter fun b => b.open_ || !frameLe b.frame dt }).syncStaged q

/-- LATE for data whose deadline passes with this tick (R58). -/
def State.lateCheck (s : State) (q : Nat) : State :=
  if !s.held && (s.queue q).staged.any fun b =>
      b.age == s.fld Fld.DMA_Q_DELIV_LAT_CLASS q + 1 && !b.bytes.isEmpty then s.qEvent q 1 else s

/-- FULL under STOP: the stream stops accepting at this tick (R59). -/
def State.fullCheck (s : State) (q : Nat) : State :=
  if (s.queue q).full ∧ s.qState q = 1 then
    ((s.setQState q 3).modQueue q fun x => { x with accepting := false, full := false }).qEvent q 2
  else s

/-- CPL when CPL_N completions were written since the last one, or CPL_FRAMES frames after the first of them. -/
def State.cplCheck (s : State) (q : Nat) : State :=
  let x := s.queue q
  let n := max 1 (s.fld Fld.DMA_Q_CTRL_CPL_N q)
  let fr := max 1 (s.fld Fld.DMA_Q_CTRL_CPL_FRAMES q)
  if x.cpls ≠ 0 ∧ (n ≤ x.cpls ∨ fr ≤ x.cplAge) then
    (s.qEvent q 0).modQueue q fun x => { x with cpls := 0, cplAge := 0 }
  else s

/-- What a tick does to a queue. `fresh`: the queue was enabled at this very tick. -/
def State.queueTick (s : State) (host : List HostRead) (fresh : List Nat) (q : Nat) : State :=
  let s1 := if q ∈ fresh then s else s.refetch host q
  let s2 := s1.closeFrame q
  let s3 := if s.held then s2.discardCovered q else s2
  ((s3.fullCheck q).lateCheck q).cplCheck q

/-! ### Commands -/

/-- HOST_BUDGET: a credit stall that has lasted `stall` ns by now (R57). -/
def execHostBudget (t : Tu) (stall : Word) (s : State) : Host.Outcome State Fault Refusal :=
  s.when t fun s => s.stalled (s.time - BitVec.ofNat 64 (ns stall.toNat))

/-- STREAM_ACCEPT: the oldest datum on its way to the queue enters its stager (R54). -/
def execStreamAccept (t : Tu) (q : Fin 64) (s : State) : Host.Outcome State Fault Refusal :=
  s.when t fun s =>
    match s.dma.inbound.find? fun d => d.q == q.val with
    | none => s
    | some d => ({ s with dma := { s.dma with inbound := s.dma.inbound.erase d } }).stage q d.bytes

/-- The link's generation and width as trained; LINK_BELOW_BUDGET is raised once for an episode (R60). -/
def State.linkTrained (s : State) (gen width : Nat) : State :=
  let s1 := (s.setFld Fld.DMA_LINK_STATUS_GEN 0 gen).setFld Fld.DMA_LINK_STATUS_WIDTH 0 width
  let below := decide (gen < s.fld Fld.HUB_HOST_BUDGET_LINK_GEN 0 ∨ width < s.fld Fld.HUB_HOST_BUDGET_LINK_WIDTH 0)
  let s2 := { s1 with dma := { s1.dma with below := below } }
  if below && !s.dma.below then s2.raise0 14 else s2

/-- LINK_BELOW_BUDGET (R60). -/
def execLinkBelowBudget (t : Tu) (gen : Fin 6) (width : Fin 9) (s : State) : Host.Outcome State Fault Refusal :=
  s.whenHost t fun s => s.linkTrained gen width

/-- LINK_BACK_TO_BUDGET: the condition clears (R60). -/
def execLinkBackToBudget (t : Tu) (gen : Fin 6) (width : Fin 9) (s : State) : Host.Outcome State Fault Refusal :=
  s.whenHost t fun s => s.linkTrained gen width

/-- STAGED_DELIVERY (R341). -/
def execStagedDelivery (t : Tu) (q : Fin 64) (ue : Bool) (s : State) : Host.Outcome State Fault Refusal :=
  s.whenHost t fun s => (s.deliverOldest q ue).noteBlocked

/-- DESCRIPTOR_POST: a write of DMA_Q_TAIL (R336); none to an absent queue (R335). -/
def State.postDesc (s : State) (q idx : Nat) : State :=
  if s.qKind q = 0 then s else s.setFld Fld.DMA_Q_TAIL_INDEX q idx

/-- DESCRIPTOR_POST. -/
def execDescriptorPost (t : Tu) (q : Fin 64) (idx : BitVec 13) (s : State) : Host.Outcome State Fault Refusal :=
  s.whenHost t fun s => s.postDesc q idx.toNat

/-- The name of a ring base register. -/
def ringRegName : RingReg → RegName
  | .ringLo => .DMA_Q_RING_LO
  | .ringHi => .DMA_Q_RING_HI
  | .cplLo => .DMA_Q_CPL_LO
  | .cplHi => .DMA_Q_CPL_HI

/-- A write of a ring base: only while the queue is OFF; the matching indexes return to 0, and with the completion
ring's base the phase to 1 (R336, Table HST-7). -/
def State.writeRingBase (s : State) (q : Nat) (r : RingReg) (v : Word) : State :=
  if s.qKind q = 0 ∨ s.qState q ≠ 0 then s
  else
    let s1 := s.setReg (ringRegName r) q v
    match r with
    | .ringLo | .ringHi => (s1.setFld Fld.DMA_Q_HEAD_INDEX q 0).setFld Fld.DMA_Q_TAIL_INDEX q 0
    | .cplLo | .cplHi =>
      ((s1.setFld Fld.DMA_Q_CPL_WR_INDEX q 0).setFld Fld.DMA_Q_CPL_RD_INDEX q 0).modQueue q
        fun x => { x with phase := true }

/-- RING_BASE_WRITE (R336). -/
def execRingBaseWrite (t : Tu) (q : Fin 64) (r : RingReg) (v : Word) (s : State) :
    Host.Outcome State Fault Refusal :=
  s.whenHost t fun s => s.writeRingBase q r v

/-- DESCRIPTOR_FETCH (R339). -/
def execDescriptorFetch (t : Tu) (q : Fin 64) (ds : List (List Byte)) (s : State) :
    Host.Outcome State Fault Refusal :=
  s.whenHost t fun s => s.fetchDescs q ds

/-- XFER_COMPLETE (R342). -/
def execXferComplete (t : Tu) (q : Fin 64) (ue : Bool) (s : State) : Host.Outcome State Fault Refusal :=
  s.whenHost t fun s => s.finishXfer q ue

/-- QUEUE_DRAINED (R344). -/
def execQueueDrained (t : Tu) (q : Fin 64) (s : State) : Host.Outcome State Fault Refusal :=
  s.when t fun s => s.drained q

/-- QUEUE_ABORT: a write of 1 to DMA_Q_ABORT.GO (R345). -/
def execQueueAbort (t : Tu) (q : Fin 64) (s : State) : Host.Outcome State Fault Refusal :=
  s.whenHost t fun s => s.abortQueue q

end Sys2Proof.Machine
end

