-- ==== Sys2Proof/Machine/Afe.lean ====
section
/-! DEFINITION. The analog front ends (chapter 06): settle spans, over-range and overdrive, and the common-mode
monitor. -/

namespace Sys2Proof.Machine

/-- The channel's input is disconnected from every lane (R14, R146). -/
def State.chanOff (s : State) (ch : Nat) : Bool := disconnected s.pitch.recs ch

/-- A front-end event of a channel; a disconnected channel raises none (R146). -/
def State.afeEvent (s : State) (ch k : Nat) : State := if s.chanOff ch then s else s.raise0 (80 + 8 * ch + k)

/-- A settle span of `n` tu begins now, or extends the one under way (R141). -/
def State.settle (s : State) (ch n : Nat) : State :=
  (s.modAfe ch fun a =>
    { a with settle := some (match a.settle with
        | none => tuAdd s.time n
        | some e => if tuLe e (tuAdd s.time n) then tuAdd s.time n else e),
             settles := (s.time, tuAdd s.time n) :: a.settles }).setFld Fld.AFE_STATUS_SETTLING ch 1

/-- RANGE in effect: 0b11 acts as 0b01 (Table AFE-8). -/
def rangeEff (x : Nat) : Nat := if x = 3 then 1 else x

/-- FILTER in effect: 0b11 acts as 0b00 (Table AFE-8). -/
def filterEff (x : Nat) : Nat := if x = 3 then 0 else x

/-- VTT in effect, mV: limited to −500 to +1,500 (Table AFE-8). -/
def vttEff (x : Nat) : Int := max (-500) (min (sgn 12 x) 1500)

/-- A write of TERM (R141). -/
def State.writeTerm (s : State) (ch : Nat) (x : Nat) : State :=
  let s1 := s.setFld Fld.AFE_CFG_TERM ch x
  if s.fld Fld.AFE_CFG_TERM ch = x % 2 then s1 else s1.settle ch (ns 1000)

/-- A write of VTT (R141). -/
def State.writeVtt (s : State) (ch : Nat) (x : Nat) : State :=
  let s1 := s.setFld Fld.AFE_VTT_MV ch x
  if vttEff (s.fld Fld.AFE_VTT_MV ch) = vttEff x then s1 else s1.settle ch (ns 10000)

/-- AFE_TERM_WRITE (R141); a sleeping cluster discards it (R34). -/
def execAfeTermWrite (t : Tu) (ch : Fin 16) (w : TermWrite) (s : State) : Host.Outcome State Fault Refusal :=
  s.whenHost t fun s =>
    if s.clusterAsleep (ch / 4) then s
    else
      match w with
      | .term b => s.writeTerm ch b.toNat
      | .vtt mv => s.writeVtt ch mv.toNat

/-- AFE_SETTLE_END: the settle span is over (R141). -/
def execAfeSettleEnd (t : Tu) (ch : Fin 16) (s : State) : Host.Outcome State Fault Refusal :=
  s.when t fun s =>
    match (s.afeOf ch).settle with
    | none => s
    | some e =>
      if tuLe e s.time then
        (s.modAfe ch fun a => { a with settle := none }).setFld Fld.AFE_STATUS_SETTLING ch 0
      else s

/-- PEAK takes a class; a class is never lowered (R143). -/
def State.peak (s : State) (ch cls : Nat) : State :=
  s.setFld Fld.AFE_STATUS_PEAK ch (max cls (s.fld Fld.AFE_STATUS_PEAK ch))

/-- A sample carries OVR: it is counted, and STATUS.OVR sets (R144, R149). -/
def State.ovrSample (s : State) (ch : Nat) : State :=
  let s1 := (s.bump Fld.AFE_OVR_CNT_COUNT ch 1).setFld Fld.AFE_STATUS_OVR ch 1
  if s.flag Fld.AFE_STATUS_OVR ch then s1 else s1.afeEvent ch 0

/-- A corrected value outside −512 to +511 (R142). -/
def outOfRange (v : Int) : Bool := decide (v < -512 ∨ 511 < v)

/-- An instant lies in a span that ends before its second bound. -/
def inSpan (x : Ratio) (a b : Ratio) : Bool := a.le x && x.lt b

/-- OVR on every sample of a channel at an instant: recovery from an excursion, and the common mode (R143, R145). -/
def State.ovrAt (s : State) (ch : Nat) (x : Ratio) : Bool :=
  let a := s.afeOf ch
  (a.cmOvr.any fun t => (Ratio.ofTu t).le x) || a.spans.any fun b => inSpan x b.1 b.2

/-- OVR holds on a sample: the value, the core, the hold through recovery, or the common mode (R142, R143, R145). -/
def State.ovrOf (s : State) (ch : Nat) (v : Int) (core : Bool) : Bool :=
  outOfRange v || core || s.ovrAt ch (.ofTu s.time)

/-- The sums of a channel over the samples of the frame that are judged (R372). -/
def State.noteSample (s : State) (ch : Nat) (code : Int) (ovr : Bool) : State :=
  { s with gln := { s.gln with chan := tmod ((0 : Int), 0, 0) s.gln.chan ch fun x =>
      (x.1 + code, x.2.1 + 1, x.2.2 + ovr.toNat) } }

/-- The hold span after an excursion of a class: 400 ps, 2 ns or 20 ns (Table AFE-7), in tu. -/
def holdSpan (cls : Nat) : Ratio := if cls ≤ 1 then ⟨16384, 5⟩ else if cls = 2 then .ofInt (ns 2) else .ofInt (ns 20)

/-- The input is back inside the range at this sampling instant: the excursion is over, and the hold begins (R143). -/
def State.backInside (s : State) (ch : Nat) : State :=
  match (s.afeOf ch).exc with
  | none => s
  | some cls =>
    let t0 := Ratio.ofTu s.time
    let e := t0.add (holdSpan cls)
    s.modAfe ch fun a =>
      if s.flag Fld.AFE_CFG_OVR_HOLD ch then { a with exc := none, hold := some e, spans := (t0, e) :: a.spans }
      else { a with exc := none }

/-- A sample outside the range opens an excursion, or goes on with one. PEAK takes at least the class up to 2: after a
read within an excursion whose class stands higher it starts from there again (DESIGN CHOICE, log 97). -/
def State.outside (s : State) (ch : Nat) : State :=
  (s.modAfe ch fun a => { a with exc := some (max 1 (a.exc.getD 1)) }).peak ch 1

/-- AFE_OVERDRIVE: the excursion takes the class > 2, or > 4; the event is raised when PEAK rises to it (R143,
R149). -/
def execAfeOverdrive (t : Tu) (ch : Fin 16) (over4 : Bool) (s : State) : Host.Outcome State Fault Refusal :=
  s.when t fun s =>
    if s.chanOff ch || s.clusterAsleep (ch / 4) then s
    else
      let cls := if over4 then 3 else 2
      let s1 := (s.modAfe ch fun a => { a with exc := some (max cls (a.exc.getD 0)) }).peak ch cls
      if s.fld Fld.AFE_STATUS_PEAK ch < cls then s1.afeEvent ch 1 else s1

/-- OVR_HOLD_END: the hold is over (R143). -/
def execOvrHoldEnd (t : Tu) (ch : Fin 16) (s : State) : Host.Outcome State Fault Refusal :=
  s.when t fun s =>
    match (s.afeOf ch).hold with
    | some e => if e.le (.ofTu s.time) then s.modAfe ch fun a => { a with hold := none } else s
    | none => s

/-- AFE_CM_WINDOW: the end of a window of 100 ns (R145). -/
def execAfeCmWindow (t : Tu) (ch : Fin 16) (cm : BitVec 16) (s : State) : Host.Outcome State Fault Refusal :=
  s.when t fun s =>
    if s.clusterAsleep (ch / 4) then s
    else
      let s1 := s.setFld Fld.AFE_CM_MEAS_CM ch cm.toNat
      if cm.toInt < -520 ∨ 1520 < cm.toInt then
        let s2 := ((s1.setFld Fld.AFE_STATUS_CM_ERR ch 1).setFld Fld.AFE_STATUS_CM_SEEN ch 1).modAfe ch fun a =>
          { a with cmIn := none, cmOvr := some (a.cmOvr.getD s.time) }
        if s.flag Fld.AFE_STATUS_CM_ERR ch then s2 else s2.afeEvent ch 2
      else if -500 ≤ cm.toInt ∧ cm.toInt ≤ 1500 then
        let since := ((s.afeOf ch).cmIn).getD (s.time - BitVec.ofNat 64 (ns 100))
        (s1.setFld Fld.AFE_STATUS_CM_ERR ch 0).modAfe ch fun a =>
          match a.cmOvr with
          | none => a
          | some b =>
            if tuLe (tuAdd since (ns 1000)) s.time then
              { a with cmIn := none, cmOvr := none, spans := (.ofTu b, .ofTu s.time) :: a.spans }
            else { a with cmIn := some since }
      else s1.modAfe ch fun a => { a with cmIn := none }

end Sys2Proof.Machine
end

