-- ==== Sys2Proof/Machine/Mail.lean ====
section
/-! DEFINITION. The mailbox protocol (R387 to R390): how a command of Table MGT-3 starts, is refused and completes. -/

namespace Sys2Proof.Machine

/-- How a command ended: the state, its status (Table MGT-2) and the results that Table MGT-3 gives it. -/
structure MbEnd where
  s : State
  status : Nat
  res : List Word

/-- Argument a of the host mailbox. -/
def State.mbArgs (s : State) : List Word := (List.range 8).map fun a => s.reg .MGT_MB_ARG a

/-- A status code by its name (Table MGT-2). -/
def mbOk : Nat := 0
def mbBadCmd : Nat := 1
def mbBadArg : Nat := 2
def mbBusy : Nat := 3
def mbRefused : Nat := 4
def mbNotAllowed : Nat := 5
def mbFlash : Nat := 6
def mbFetch : Nat := 7
def mbRestarted : Nat := 8

/-- Argument a, 0 where the list is shorter. -/
def argAt (args : List Word) (a : Nat) : Nat := (args.getD a 0).toNat

/-- The commands that are entered in the log with their status (R394). -/
def loggedCmd (cmd : Nat) : Bool :=
  cmd == 0x10 || cmd == 0x21 || cmd == 0x30 || cmd == 0x61 || cmd == 0x62 || cmd == 0x63 || cmd == 0x71 || cmd == 0x91

/-- The commands that the ROM alone takes (R386). -/
def romCmd (cmd : Nat) : Bool := cmd == 1 || cmd == 0x60 || cmd == 0x61 || cmd == 0x62

/-- The commands of Table MGT-3. -/
def knownCmd (cmd : Nat) : Bool :=
  [0x01, 0x10, 0x11, 0x20, 0x21, 0x22, 0x30, 0x40, 0x41, 0x42, 0x50, 0x51, 0x60, 0x61, 0x62, 0x63, 0x70, 0x71, 0x80,
    0x90, 0x91].contains cmd

/-- The class of a command (Table MGT-3): each class has the codes of one upper digit. -/
def mbClass (cmd : Nat) : Nat := cmd / 16

/-- The commands that the SMBus mailbox may use. -/
def smbusCmd (cmd : Nat) : Bool := [0x01, 0x22, 0x41, 0x42, 0x51, 0x60, 0x70, 0x80].contains cmd

/-- An entry of KIND COMMAND; what its DATA holds is left open (log 2). -/
def State.logCmd (s : State) (cmd status : Nat) : State :=
  if loggedCmd cmd then s.used.logNote 8 status (BitVec.ofNat 32 (s.freeBelow (2 ^ 32))) else s

/-- Result registers 0 to 7 of a mailbox: those that Table MGT-3 gives, the others left open (log 2). -/
def State.mbResults (s : State) (res : List Word) : List Word :=
  (List.range 8).map fun a => res.getD a (BitVec.ofNat 32 (Config.freeNat (s.free + a)))

/-- The host mailbox ends its command: results, STATUS, DONE and EV456 (R387). -/
def State.mbDone (s : State) (status : Nat) (res : List Word) : State :=
  let rs := s.mbResults res
  let s1 := ({ s with free := s.free + 8 }).each 8 fun x a => x.setReg .MGT_MB_RES a (rs.getD a 0)
  ((s1.setFld Fld.MGT_MB_STATE_STATUS 0 status).setFld Fld.MGT_MB_STATE_STATE 0 2).raise 456 1 status

/-- The doorbell of the host mailbox is taken: it reads IDLE, or a register write has rung it with this tag. -/
def State.mbTaken (s : State) (tag : Byte) : Bool :=
  s.fld Fld.MGT_MB_STATE_STATE 0 == 0 ||
    (s.fld Fld.MGT_MB_STATE_STATE 0 == 1 && s.fld Fld.MGT_MB_STATE_TAG 0 == tag.toNat && s.gln.attach.isNone)

/-- HUB_PITCH_STATUS.STATE reads LOADING from MB_PITCH_LOAD until acceptance or refusal, where the command is not BUSY
(Table PIT-8, R76 item 1). -/
def State.pitchLoading (s : State) : State :=
  if s.fld Fld.MGT_MB_CMD_CMD 0 = 0x10 ∧ s.pitch.accepted.isNone then s.setFld Fld.HUB_PITCH_STATUS_STATE 0 1 else s

/-- STATE leaves LOADING for its previous value. -/
def State.pitchShown (s : State) : State :=
  if s.fld Fld.HUB_PITCH_STATUS_STATE 0 = 1 then s.setFld Fld.HUB_PITCH_STATUS_STATE 0 (if s.pitched then 3 else 0) else s

/-- The mailbox shows RUNNING with the tag (R387 item 2). -/
def State.mbRunning (s : State) (tag : Byte) : State :=
  ((s.setFld Fld.MGT_MB_STATE_STATE 0 1).setFld Fld.MGT_MB_STATE_TAG 0 tag.toNat).pitchLoading

/-- The host issues command `cmd`: DOORBELL with a tag while MGT_MB_CMD holds the code. A doorbell that is not taken
is ignored and sets OVERRUN. The command runs on the arguments and completes (log 10); the ROM alone answers most of
them with NOT_ALLOWED (R386). Before Basecamp has started, no mailbox runs. -/
def State.mbIssue (s : State) (tag : Byte) (cmd : Nat) (f : State → List Word → MbEnd) : State :=
  if s.fld Fld.MGT_MB_CMD_CMD 0 ≠ cmd ∨ s.mgt.run = 0 then s
  else if !s.mbTaken tag then s.setFld Fld.MGT_MB_STATE_OVERRUN 0 1
  else
    let s1 := s.mbRunning tag
    if s.mgt.run = 3 ∧ !romCmd cmd then s1.pitchShown.mbDone mbNotAllowed []
    else
      let r := f s1 s1.mbArgs
      (r.s.logCmd cmd r.status).mbDone r.status r.res

/-- A command of the host mailbox at instant `t`. -/
def State.mbWhen (s : State) (t : Tu) (tag : Byte) (cmd : Nat) (f : State → List Word → MbEnd) :
    Host.Outcome State Fault Refusal :=
  s.whenHost t fun s => s.mbIssue tag cmd f

/-- A command that ends at once with a status and no result. -/
def mbFail (s : State) (status : Nat) : MbEnd := ⟨s, status, []⟩

/-- A 32-bit result. -/
def w32 (n : Nat) : Word := BitVec.ofNat 32 n

/-- MB_ACK: DONE → IDLE (R387 item 4). -/
def State.mbAck (s : State) : State :=
  if s.fld Fld.MGT_MB_STATE_STATE 0 = 2 then s.setFld Fld.MGT_MB_STATE_STATE 0 0 else s

/-- MB_ACK (R387). -/
def execMbAck (t : Tu) (s : State) : Host.Outcome State Fault Refusal := s.whenHost t fun s => s.mbAck

/-- BAD_CMD: an unknown code (R389). -/
def execBadCmd (t : Tu) (tag : Byte) (s : State) : Host.Outcome State Fault Refusal :=
  if knownCmd (s.fld Fld.MGT_MB_CMD_CMD 0) then s.whenHost t fun s => s
  else s.mbWhen t tag (s.fld Fld.MGT_MB_CMD_CMD 0) fun s _ => mbFail s mbBadCmd

end Sys2Proof.Machine
end

