-- ==== Sys2Proof/Machine/Ilv.lean ====
section
/-! DEFINITION. Interleaved conversion and background calibration (chapter 07): groups of lanes, the rotation, its
interruptions, stale state, and the calibration slots. -/

namespace Sys2Proof.Machine

/-! ### Groups -/

/-- Interleave factor of a lane's cluster. -/
def State.ilv (s : State) (ln : Nat) : Nat := ilvF s.pitch.recs (ln / 4)

/-- The first lane of a lane's group, which is the active channel that it serves (R152). -/
def State.firstLane (s : State) (ln : Nat) : Nat := ln - ln % 4 % s.ilv ln

/-- The lanes of an active channel's group. -/
def State.groupOf (s : State) (ch : Nat) : List Nat := (List.range (s.ilv ch)).map fun i => ch + i

/-- RANGE and FILTER in effect on a lane, as 3 × RANGE + FILTER: those of the active channel (R146, R168). -/
def State.combo (s : State) (ln : Nat) : Nat :=
  3 * rangeEff (s.fld Fld.AFE_CFG_RANGE (s.firstLane ln)) + filterEff (s.fld Fld.AFE_CFG_FILTER (s.firstLane ln))

/-- The field that shows the slice at a position. -/
def posFld (p : Nat) : Fld :=
  if p = 0 then Fld.ILV_SLICE_MAP_POS0 else if p = 1 then Fld.ILV_SLICE_MAP_POS1
  else if p = 2 then Fld.ILV_SLICE_MAP_POS2 else Fld.ILV_SLICE_MAP_POS3

/-- The correction set of a slice for a combination: the factory seed until calibration changes it (R168, R174). -/
def State.setOf (s : State) (ln slice combo : Nat) : Corr :=
  tget (tget Corr.init s.mgt.flash.seeds (1000 * ln + 9 * slice + combo)) (s.lane ln).sets (9 * slice + combo)

/-- An interleave event of a lane, on its active channel's numbers (R180). -/
def State.ilvEvent (s : State) (ln k : Nat) : State := s.raise (80 + 8 * s.firstLane ln + k) 1 ln

/-- CAL_STALE of a lane. -/
def State.stale (s : State) (ln : Nat) : Bool := s.flag Fld.ILV_LANE_STATUS_CAL_STALE ln

/-- PAUSED and FROZEN of a lane. -/
def State.paused (s : State) (ln : Nat) : Bool := s.flag Fld.ILV_LANE_STATUS_PAUSED ln
def State.frozen (s : State) (ln : Nat) : Bool := s.flag Fld.ILV_LANE_STATUS_FROZEN ln

/-! ### The dwell -/

/-- A dwell begins at REFERENCE at an instant (R154). -/
def State.startDwell (s : State) (ln : Nat) (t : Tu) : State :=
  (s.modLane ln fun l => { l with dwell := some t, restart := false, window := 0, preload := none }).setFld
    Fld.ILV_LANE_STATUS_PHASE ln 0

/-- The dwell restarts now. -/
def State.restartDwell (s : State) (ln : Nat) : State := s.startDwell ln s.time

/-- The dwell is abandoned and its measurements are discarded (R165). -/
def State.abandonDwell (s : State) (ln : Nat) : State :=
  ((s.modLane ln fun l =>
    { l with dwell := none, restart := false, window := 0, preload := none, updates := [] }).setFld
      Fld.ILV_LANE_STATUS_PHASE ln 0).setFld Fld.ILV_LANE_STATUS_PAUSED ln 1

/-- Every lane of die e abandons its dwell: the SPLL lost lock, or a RAMP starts. -/
def State.pauseLanes (s : State) (e : Nat) : State :=
  s.each 8 fun s i => if s.clusterAsleep ((8 * e + i) / 4) then s else s.abandonDwell (8 * e + i)

/-- The paused lanes of die e restart at the first tick at or after the settle instant, which is now (R165, R470). -/
def State.resumeLanes (s : State) (e : Nat) : State :=
  s.each 8 fun s i =>
    let ln := 8 * e + i
    if s.paused ln then
      (s.modLane ln fun l => { l with restart := true }).setFld Fld.ILV_LANE_STATUS_PAUSED ln 0
    else s

/-- A STEP: every lane that is not paused restarts its dwell, and every count restarts at 0 (R165). -/
def State.stepLanes (s : State) : State :=
  s.each 16 fun s ln =>
    let s1 := s.setFld Fld.ILV_LANE_STATUS_ROT_COUNT ln 0
    if s.paused ln || s.laneOff ln then s1 else s1.restartDwell ln

/-- A lane becomes CAL_STALE (R171). -/
def State.makeStale (s : State) (ln : Nat) : State :=
  let s1 := if s.stale ln then s else s.modLane ln fun l => { l with staleAt := s.time }
  (s1.setFld Fld.ILV_LANE_STATUS_CAL_STALE ln 1).setFld Fld.ILV_LANE_STATUS_ROT_COUNT ln 0

/-- A lane leaves CAL_STALE (R172). -/
def State.clearStale (s : State) (ln : Nat) : State :=
  if s.stale ln then
    ((s.modLane ln fun l => { l with freshAt := some s.time }).setFld Fld.ILV_LANE_STATUS_CAL_STALE ln 0).ilvEvent ln 4
  else s

/-- A lane was CAL_STALE at some instant from a to b, the last stale span taken. -/
def State.staleIn (s : State) (ln : Nat) (a b : Ratio) : Bool :=
  let l := s.lane ln
  (Ratio.ofTu l.staleAt).le b && (s.stale ln || l.freshAt.any fun x => a.lt (.ofTu x))

/-- RATE_NOW of a lane's die. -/
def State.rateNow (s : State) (e : Nat) : Nat := s.fld Fld.PLL_SPLL_RATE_NOW_RATE e

/-- The taps of every set of a lane, of each of its five slices and nine combinations, as the fitted bandwidth models give
them at a new rate: values that the manual does not state (R170; log 2). -/
def State.refitTaps (s : State) (ln : Nat) : State :=
  let sets := (List.range 45).map fun k =>
    (k, { s.setOf ln (k / 9) (k % 9) with taps := (List.range 7).map fun i => sgn 16 (Config.freeNat (s.free + 7 * k + i)) })
  ({ s with free := s.free + 315 }).modLane ln fun l => { l with sets := sets }

/-- A RAMP has settled: lanes whose rate moved by more than 1 % from their last handover become stale (R170). -/
def State.rampSettled (s : State) (e : Nat) : State :=
  s.each 8 fun s i =>
    let ln := 8 * e + i
    let cal := s.fld Fld.ILV_CAL_RATE_RATE ln
    let d := ((s.rateNow e : Int) - cal).natAbs
    if 100 * d > cal then (s.makeStale ln).refitTaps ln else s

/-- A handover of a lane at instant `t` (R155, R172). -/
def State.handover (s : State) (ln : Nat) (frame : Frame) (t : Tu) : State :=
  let l := s.lane ln
  let p := l.order.headD 0
  let old := s.fld (posFld p) ln
  let spare := s.fld Fld.ILV_LANE_STATUS_SPARE ln
  let key := 9 * spare + s.combo ln
  let s1 := ((s.setFld (posFld p) ln spare).setFld Fld.ILV_LANE_STATUS_SPARE ln old).setFrame
    .ILV_HANDOVER_LO .ILV_HANDOVER_HI ln frame
  let s2 := (s1.setFld Fld.ILV_CAL_RATE_RATE ln (s.rateNow (ln / 8))).modLane ln fun l =>
    { l with order := l.order.drop 1 ++ [p], handovers := l.handovers + 1,
             sets := match l.preload with | none => l.sets | some c => tins l.sets key c }
  let s3 := s2.startDwell ln t
  if s.stale ln then
    let n := min 5 (s.fld Fld.ILV_LANE_STATUS_ROT_COUNT ln + 1)
    let s4 := s3.setFld Fld.ILV_LANE_STATUS_ROT_COUNT ln n
    if n = 5 then s4.clearStale ln else s4
  else s3

/-- The lane's handover is due at an instant: 4 ms of dwell are over, and updates are neither frozen nor paused. -/
def State.handoverDue (s : State) (ln : Nat) (t : Tu) : Bool :=
  match (s.lane ln).dwell with
  | none => false
  | some d => tuLe (tuAdd d (ns 4000000)) t && !s.frozen ln && !s.paused ln && !s.laneOff ln

/-- Updates of coefficients take effect at a tick (R163). -/
def State.applyUpdates (s : State) (ln : Nat) : State :=
  s.modLane ln fun l => { l with sets := l.updates.foldl (fun m u => tins m u.1 u.2) l.sets, updates := [] }

/-- A restored table takes effect at the first tick 64 ns after the command completed (R176). -/
def State.applyRestore (s : State) (ln : Nat) : State :=
  match (s.lane ln).restored with
  | none => s
  | some (at_, combo, sets) =>
    if tuLe (tuAdd at_ (ns 64)) s.time then
      (s.modLane ln fun l =>
        { l with restored := none,
                 sets := sets.zipIdx.foldl (fun m (c, i) => tins m (9 * i + combo) c) l.sets }).clearStale ln
    else s

/-- What every tick does to the lanes before the handovers: updates, restored tables, restarts (R163, R165, R176). While
UNPITCHED there is no tick, and updates and restored tables take effect at the internal commit instants (DESIGN CHOICE,
log 99; R470 places only the restarts there). -/
def State.laneTick (s : State) (ln : Nat) : State :=
  let s1 := (s.applyUpdates ln).applyRestore ln
  if (s.lane ln).restart then s1.restartDwell ln else s1

/-- The instant at which a dwell of 4 ms ends. -/
def State.dwellOver (s : State) (ln : Nat) : Tu := tuAdd ((s.lane ln).dwell.getD 0) (ns 4000000)

/-- Handovers that are due: at this tick (R39 step 6); while UNPITCHED each at the instant at which its dwell was over
(R41, R157). -/
def State.handovers (s : State) : State :=
  s.each 16 fun s ln =>
    if s.handoverDue ln s.time then s.handover ln s.frameNow (if s.pitched then s.time else s.dwellOver ln) else s

/-! ### Measurements of the spare -/

/-- REFERENCE has fixed the spare's own offset and gain; with FREEZE set no coefficient changes (R154, R165). -/
def State.referenced (s : State) (ln : Nat) (ofs gain : Int) : State :=
  let slice := s.fld Fld.ILV_LANE_STATUS_SPARE ln
  let combo := s.combo ln
  if s.frozen ln then s
  else s.modLane ln fun l =>
    { l with sets := tins l.sets (9 * slice + combo) { s.setOf ln slice combo with ofs := ofs, gain := gain } }

/-- CAL_SHADOW_START: REFERENCE ends 1 ms into the dwell (R154). -/
def execCalShadowStart (t : Tu) (ln : Fin 16) (ofs gain : BitVec 16) (s : State) : Host.Outcome State Fault Refusal :=
  s.when t fun s =>
    match (s.lane ln).dwell with
    | some d =>
      if s.fld Fld.ILV_LANE_STATUS_PHASE ln = 0 ∧ tuLe (tuAdd d (ns 1000000)) s.time then
        ((s.referenced ln ofs.toInt gain.toInt).modLane ln fun l => { l with window := 0 }).setFld
          Fld.ILV_LANE_STATUS_PHASE ln 1
      else s
    | none => s

/-- Number and length of the SHADOW windows: four of 0.5 ms in ×1, else five of 0.4 ms (R154). -/
def State.shadowWindows (s : State) (ln : Nat) : Nat × Nat := if s.ilv ln = 1 then (4, ns 500000) else (5, ns 400000)

/-- The lane and position that SHADOW window w compares: P0 to P3 of the own lane, then one of the next lane in the
group, by the handover count (R154). -/
def State.shadowTarget (s : State) (ln w : Nat) : Nat × Nat :=
  if w < 4 then (ln, w)
  else (s.firstLane ln + (ln - s.firstLane ln + 1) % s.ilv ln, (s.lane ln).handovers % 4)

/-- A difference limited to a step. -/
def step1 (lim : Int) (d : Int) : Int := max (-lim) (min d lim)

/-- The skew of a set in fs: its clock delay trim and its sub-step term. -/
def corrSkew (c : Corr) : Int := 8 * c.trim + c.sub

/-- A set with a skew in fs: the trim takes the whole 8 fs steps, over ±2 ps, and the sub-step term the rest (R159; DESIGN
CHOICE, log 98). -/
def withSkew (c : Corr) (x : Int) : Corr :=
  let n := max (-250) (min (x / 8) 250)
  { c with trim := n, sub := x - 8 * n }

/-- A tap moved toward its fit, by at most the part of the way that is worth 0.005 dB at 6 GHz where the whole way is worth
`bw` thousandths of a dB (R163; DESIGN CHOICE, log 98). -/
def tapStep (bw c fit : Int) : Int := if bw.natAbs ≤ 5 then fit else c + ((fit - c) * 5).tdiv bw.natAbs

/-- A set moved toward the measurement, by at most the steps of R163: 0.25 LSB, 0.05 %, 10 fs, 0.005 dB; offset alone where
the window was not active (R162). `mean`: the mean of the measured skews, toward which every position is corrected (R160). -/
def moveCorr (c : Corr) (m : ShadowMeas) (mean : Int) (active : Bool) : Corr :=
  let c1 := { c with ofs := c.ofs + step1 16 m.ofs }
  if active then
    withSkew { c1 with
      gain := c.gain + step1 16 m.gain,
      taps := (List.range 7).map fun i => tapStep m.bandwidth (c.taps.getD i 0) (m.taps.getD i 0) }
      (corrSkew c + step1 10 (m.skew - mean))
  else c1

/-- An instant lies in a self-test of a cluster's converters (R430). -/
def State.inTest (s : State) (c : Nat) (t : Tu) : Bool :=
  let b := tget (0#64, 0#64) s.dia.spans c
  (s.testing c && tuLe s.dia.since t) || (tuLe b.1 t && tuLt t b.2)

/-- Pairs that count (R162, R430): their samples carry neither OVR nor CLKBAD and lie in no settle span and no self-test. -/
def State.goodPairs (s : State) (ln : Nat) (m : ShadowMeas) : List PairGroup :=
  let p := s.spllOf (ln / 8)
  m.pairs.filter fun g =>
    !g.ovr && !s.inTest (ln / 4) g.t && !(p.bad.any fun a => tuLe a g.t) && !(p.spans.any fun b => tuLe b.1 g.t && tuLt g.t b.2) &&
      !((s.afeOf (s.firstLane ln)).settles.any fun b => tuLe b.1 g.t && tuLt g.t b.2)

/-- A window is active: 65,536 of the pairs that count have a slope of at least ACT_MIN, that of the group's first lane; 0
acts as 1 (R162, R179). -/
def State.windowActive (s : State) (ln : Nat) (m : ShadowMeas) : Bool :=
  let lim := max 1 (s.fld Fld.ILV_CAL_CTRL_ACT_MIN (s.firstLane ln))
  decide (65536 ≤ (((s.goodPairs ln m).filter fun g => decide (lim ≤ g.slope)).map PairGroup.n).sum)

/-- The mean of the last measured skews over the positions of a lane's group (R160; DESIGN CHOICE, log 98). -/
def State.meanSkew (s : State) (ln : Nat) : Int :=
  let xs := (s.groupOf (s.firstLane ln)).flatMap fun l => (List.range 4).map fun p => tget 0 (s.lane l).skews p
  divRound xs.sum xs.length

/-- A measurement beyond four times a limit of Table ILV-3 (R169). -/
def drifts (m : ShadowMeas) (active : Bool) : Bool :=
  decide (m.ofs.natAbs > 64) ||
    (active && decide (m.skew.natAbs > 80 ∨ m.gain.natAbs * 1000 > 2 * 32768 ∨ m.bandwidth.natAbs > 20))

/-- ILV_CAL_DEV keeps the largest deviations since it was read. -/
def State.calDev (s : State) (ln : Nat) (m : ShadowMeas) (active : Bool) : State :=
  let up (s : State) (f : Fld) (x : Nat) := s.setFld f ln (max (s.fld f ln) (min x 255))
  let s1 := up s Fld.ILV_CAL_DEV_OFS (m.ofs.natAbs / 4)
  if active then
    up (up s1 Fld.ILV_CAL_DEV_SKEW m.skew.natAbs) Fld.ILV_CAL_DEV_GAIN (m.gain.natAbs * 10000 / 32768)
  else s1

/-- ILV_CAL_SKIP counts windows without activity; LOWACT is raised when 64 have run in a row (R162, Table ILV-9). -/
def State.calSkip (s : State) (ln : Nat) (active : Bool) : State :=
  if active then s.setFld Fld.ILV_CAL_SKIP_RUN ln 0
  else
    let s1 := (s.bump Fld.ILV_CAL_SKIP_COUNT ln 1).bump Fld.ILV_CAL_SKIP_RUN ln 1
    if s.fld Fld.ILV_CAL_SKIP_RUN ln = 63 then s1.ilvEvent ln 7 else s1

/-- A SHADOW window of lane ln ends. -/
def State.shadowEnd (s : State) (ln : Nat) (m : ShadowMeas) : State :=
  let (n, len) := s.shadowWindows ln
  let w := (s.lane ln).window
  match (s.lane ln).dwell with
  | none => s
  | some d =>
    if s.fld Fld.ILV_LANE_STATUS_PHASE ln = 1 ∧ w < n ∧ tuLe (tuAdd d (ns 1000000 + (w + 1) * len)) s.time then
      let active := s.windowActive ln m
      let (tl, p) := s.shadowTarget ln w
      let slice := s.fld (posFld p) tl
      let combo := s.combo tl
      let s0 := if active then s.modLane tl fun l => { l with skews := tput 0 l.skews p m.skew } else s
      let measured := !(s.goodPairs ln m).isEmpty
      let s1 := (if measured then s0.calDev ln m active else s0).calSkip ln active
      let s2 := if measured && drifts m active then s1.ilvEvent ln 6 else s1
      let s3 := if s.frozen ln || !measured then s2
        else s2.modLane tl fun l =>
          { l with updates := l.updates ++
              [(9 * slice + combo, moveCorr (s.setOf tl slice combo) m (s0.meanSkew ln) active)] }
      let s4 := s3.modLane ln fun l => { l with window := w + 1 }
      if s.frozen ln ∧ w + 1 = n then s4.restartDwell ln else s4
    else s

/-- SHADOW_WINDOW_END (R162, R163). -/
def execShadowWindowEnd (t : Tu) (ln : Fin 16) (m : ShadowMeas) (s : State) : Host.Outcome State Fault Refusal :=
  s.when t fun s => s.shadowEnd ln m

/-- CAL_PRELOAD_START: 3 ms into the dwell the spare begins to converge on the outgoing position (R154). -/
def execCalPreloadStart (t : Tu) (ln : Fin 16) (fit : Corr) (s : State) : Host.Outcome State Fault Refusal :=
  s.when t fun s =>
    match (s.lane ln).dwell with
    | some d =>
      if s.fld Fld.ILV_LANE_STATUS_PHASE ln = 1 ∧ (s.lane ln).window = (s.shadowWindows ln).1 ∧ !s.frozen ln ∧
          tuLe (tuAdd d (ns 3000000)) s.time then
        (s.modLane ln fun l => { l with preload := some fit }).setFld Fld.ILV_LANE_STATUS_PHASE ln 2
      else s
    | none => s

/-! ### FREEZE -/

/-- FREEZE takes or leaves effect on one lane (R165). -/
def State.freezeLane (s : State) (ln : Nat) (on : Bool) : State :=
  if on = s.frozen ln then s
  else
    let s1 := s.setFld Fld.ILV_LANE_STATUS_FROZEN ln on.toNat
    if on then
      let s2 := s1.modLane ln fun l => { l with preload := none, updates := [] }
      if s.fld Fld.ILV_LANE_STATUS_PHASE ln = 2 then s2.restartDwell ln else s2
    else if s.paused ln || (s.lane ln).dwell.isNone then s1 else s1.modLane ln fun l => { l with restart := true }

/-- A write of ILV_CAL_CTRL: that of a group's first lane governs the group, the others are stored (R179). -/
def State.writeCalCtrl (s : State) (ln : Nat) (v : Word) : State :=
  let s1 := (s.setFld Fld.ILV_CAL_CTRL_FREEZE ln (getBits v 0 1)).setFld Fld.ILV_CAL_CTRL_ACT_MIN ln (getBits v 4 8)
  if s.firstLane ln = ln then (s.groupOf ln).foldl (fun s k => s.freezeLane k (v.getLsbD 0)) s1 else s1

/-- ILV_CAL_CTRL_WRITE (R165); a sleeping cluster discards it (R34). -/
def execIlvCalCtrlWrite (t : Tu) (ln : Fin 16) (v : Word) (s : State) : Host.Outcome State Fault Refusal :=
  s.whenHost t fun s => if s.clusterAsleep (ln / 4) then s else s.writeCalCtrl ln v

/-! ### Front-end commits (R141, R165, R168) -/

/-- AFE_CFG commits: RANGE and FILTER. A change of the effective setting starts a settle span and restarts the dwell of
every lane the channel uses; a disconnected channel only stores it (R146). -/
def State.commitAfeCfg (s : State) (ch : Nat) (v : Word) : State :=
  let s1 := (s.setFld Fld.AFE_CFG_RANGE ch (getBits v 0 2)).setFld Fld.AFE_CFG_FILTER ch (getBits v 2 2)
  if s.chanOff ch then s1
  else
    let r := rangeEff (s.fld Fld.AFE_CFG_RANGE ch) != rangeEff (getBits v 0 2)
    let f := filterEff (s.fld Fld.AFE_CFG_FILTER ch) != filterEff (getBits v 2 2)
    let s2 := if r then s1.settle ch (ns 100) else s1
    let s3 := if f then s2.settle ch (ns 5) else s2
    if r || f then
      (s.groupOf ch).foldl (fun s ln => if s.paused ln || (s.lane ln).dwell.isNone then s else s.restartDwell ln) s3
    else s3

/-- AFE_OFFSET commits. -/
def State.commitAfeOffset (s : State) (ch : Nat) (v : Word) : State :=
  let s1 := s.setFld Fld.AFE_OFFSET_VALUE ch (getBits v 0 16)
  if s.chanOff ch || s.fld Fld.AFE_OFFSET_VALUE ch == getBits v 0 16 then s1 else s1.settle ch (ns 300)

/-! ### Calibration slots (R175, R176) -/

/-- Tj of a die, signed 0.1 °C. -/
def State.dieTemp (s : State) (e : Nat) : Int := sgn 16 (s.fld Fld.MGT_SENSE_VALUE (1 + e))

/-- The SPLL of a die is SETTLED. -/
def State.settled (s : State) (e : Nat) : Bool := s.flag Fld.PLL_SPLL_STATUS_SETTLED e

/-- What a save holds of a lane. -/
def State.calEntry (s : State) (ln : Nat) (crcOk : Bool) : CalEntry :=
  { sets := (List.range 5).map fun i => s.setOf ln i (s.combo ln), range := s.combo ln / 3, filter := s.combo ln % 3,
    rate := s.rateNow (ln / 8), ilv := s.ilv ln, place := ln - s.firstLane ln, temp := s.dieTemp (ln / 8),
    crcOk := crcOk }

/-- MB_CAL_SAVE: the lanes named, but for stale ones and those whose SPLL is not SETTLED. What a failed write leaves in
the entries is left open (log 2). -/
def State.calSave (s : State) (args : List Word) (flashOk : Bool) : MbEnd :=
  if argAt args 0 > 7 then mbFail s mbBadArg
  else
    let lanes := (bitsOf 16 (argAt args 1)).filter fun ln => !s.stale ln && s.settled (ln / 8)
    let good := flashOk || s.freeBelow 2 == 0
    let s1 := { s.used with mgt := { s.mgt with flash := { s.mgt.flash with
      cal := lanes.foldl (fun m ln => tins m (16 * argAt args 0 + ln) (s.calEntry ln good)) s.mgt.flash.cal } } }
    if flashOk then ⟨s1, mbOk, [w32 ((lanes.map fun ln => 2 ^ ln).sum)]⟩ else mbFail (s1.raise0 467) mbFlash

/-- MB_CAL_SAVE (R175). -/
def execMbCalSave (t : Tu) (tag : Byte) (flashOk : Bool) (s : State) : Host.Outcome State Fault Refusal :=
  s.mbWhen t tag 0x20 fun s a => s.calSave a flashOk

/-- Entry of a lane in a slot. -/
def State.calAt (s : State) (slot ln : Nat) : Option CalEntry :=
  (s.mgt.flash.cal.find? fun e => e.1 == 16 * slot + ln).map Prod.snd

/-- Why a lane cannot be loaded from a slot: 0 where it can (R176). -/
def State.calReason (s : State) (slot ln : Nat) : Nat :=
  if !s.stale ln then 0x16
  else if !s.settled (ln / 8) then 0x17
  else
    match s.calAt slot ln with
    | none => 0x10
    | some c =>
      if !c.crcOk then 0x11
      else if 3 * c.range + c.filter ≠ s.combo ln then 0x12
      else if ((s.rateNow (ln / 8) : Int) - c.rate).natAbs * 1000 > c.rate then 0x13
      else if c.ilv ≠ s.ilv ln ∨ c.place ≠ ln - s.firstLane ln then 0x14
      else if (s.dieTemp (ln / 8) - c.temp).natAbs > 50 then 0x15
      else 0

/-- Why a lane's group cannot be loaded: the lanes of a group are loaded together or not at all; a mask that does not
name them all gives CAL_MODE (log 11). -/
def State.groupReason (s : State) (slot mask ln : Nat) : Nat :=
  let own := s.calReason slot ln
  if own ≠ 0 then own
  else if (s.groupOf (s.firstLane ln)).any fun k => !mask.testBit k then 0x14
  else (((s.groupOf (s.firstLane ln)).map (s.calReason slot)).find? (· != 0)).getD 0

/-- MB_CAL_RESTORE. -/
def State.calRestore (s : State) (args : List Word) : MbEnd :=
  if argAt args 0 > 7 then mbFail s mbBadArg
  else
    let mask := argAt args 1 % 2 ^ 16
    let slot := argAt args 0
    let named := bitsOf 16 mask
    let load := named.filter fun ln => s.groupReason slot mask ln == 0
    let skip := named.filter fun ln => s.groupReason slot mask ln != 0
    let s1 := load.foldl (fun x ln =>
      match s.calAt slot ln with
      | none => x
      | some c => x.modLane ln fun l => { l with restored := some (s.time, 3 * c.range + c.filter, c.sets) }) s
    ⟨s1, mbOk, [w32 ((load.map fun ln => 2 ^ ln).sum), w32 ((skip.map fun ln => 2 ^ ln).sum),
      w32 (match skip.head? with | none => 0 | some ln => s.groupReason slot mask ln)]⟩

/-- MB_CAL_RESTORE (R176). -/
def execMbCalRestore (t : Tu) (tag : Byte) (s : State) : Host.Outcome State Fault Refusal :=
  s.mbWhen t tag 0x21 fun s a => s.calRestore a

/-- MB_CAL_INFO: present, RANGE, FILTER, rate, mode and Tj of a lane's entry. -/
def State.calInfo (s : State) (args : List Word) : MbEnd :=
  if argAt args 0 > 7 ∨ argAt args 1 > 15 then mbFail s mbBadArg
  else
    match s.calAt (argAt args 0) (argAt args 1) with
    | none => mbFail s 0x10
    | some c =>
      if !c.crcOk then mbFail s 0x11
      else ⟨s, mbOk, [1#32, w32 c.range, w32 c.filter, w32 c.rate, w32 (Nat.log2 c.ilv), w32 (unsgn 32 c.temp)]⟩

/-- MB_CAL_INFO (R175). -/
def execMbCalInfo (t : Tu) (tag : Byte) (s : State) : Host.Outcome State Fault Refusal :=
  s.mbWhen t tag 0x22 fun s a => s.calInfo a

end Sys2Proof.Machine
end

