-- ==== Sys2Proof/Machine/Grid.lean ====
section
/-! DEFINITION. The sample grid of a die (R198), the pipeline cycles of a cluster (R19), and the packing of samples in
the stack (R177, R178). -/

namespace Sys2Proof.Machine

/-! ### The sample grid -/

/-- PLL_SPLL_STATUS.ALIGNED: the grid arithmetic holds (R198). -/
def State.aligned (s : State) (e : Nat) : Bool := s.flag Fld.PLL_SPLL_STATUS_ALIGNED e

/-- The offset in effect of a die, signed: it moves from OFS_NOW toward OFS by one fine step in each 4 ns cycle, and waits
for the end of a fast realignment (R120, R121). The cycles are counted from the write (DEDUCED, log 53). -/
def State.ofsNow (s : State) (e : Nat) : Int :=
  let a := sgn 11 (s.fld Fld.PLL_SPLL_STATUS_OFS_NOW e)
  let b := sgn 11 (s.fld Fld.PLL_SPLL_PHASE_OFS e)
  let p := s.spllOf e
  let n : Int := ((s.time - p.ofsAt).toNat / 32768 : Nat)
  if p.moving && p.fast then a else if a ≤ b then min b (a + n) else max b (a - n)

/-- The offset reached so far becomes the one that the move toward OFS goes on from. -/
def State.ofsHold (s : State) (e : Nat) : State :=
  (s.setFld Fld.PLL_SPLL_STATUS_OFS_NOW e (unsgn 11 (s.ofsNow e))).modSpll e fun p => { p with ofsAt := s.time }

/-- The move toward an anchor ends; small steps that waited go on (R120). -/
def State.endMove (s : State) (e : Nat) : State :=
  s.modSpll e fun p =>
    { p with moving := false, fast := false,
             ofsAt := if p.moving && p.fast then (if tuLe p.moveEnd s.time then p.moveEnd else s.time) else p.ofsAt }

/-- Where sample 0 of a die's grid lies: a whole number of tu, and a number of tu × kS/s that the rate divides. While
ALIGNED is 1 it is the anchor and the offset (R119); else the grid has a phase of its own, which is left open (log 20). -/
def State.gridOrigin (s : State) (e : Nat) : Int × Int :=
  let p := s.spllOf e
  if s.aligned e then (p.anchor.toNat, s.ofsNow e * 4000000)
  else (p.base.toNat, (Config.gridPhase e p.grids % 8192000000 : Nat))

/-- The index of the first sample at or after an instant, at interleave factor `f` (R198). -/
def State.sampleAt (s : State) (e f : Nat) (x : Ratio) : Int :=
  let (a, b) := s.gridOrigin e
  (Ratio.mk (((x.num - a * x.den) * s.rateNow e - b * x.den) * f) (x.den * 8192000000)).ceil

/-- The instant of sample j (R119). -/
def State.sampleInstant (s : State) (e f : Nat) (j : Int) : Ratio :=
  let (a, b) := s.gridOrigin e
  let rate := s.rateNow e
  ⟨a * (rate * f) + b * f + j * 8192000000, rate * f⟩

/-- ALIGNED is set or cleared. -/
def State.align (s : State) (e : Nat) (on : Bool) : State :=
  let s1 := if s.aligned e = on then s else s.modSpll e fun p => { p with alignAt := s.time }
  s1.setFld Fld.PLL_SPLL_STATUS_ALIGNED e on.toNat

/-- ALIGNED as it was at an instant. -/
def State.alignedAt (s : State) (e : Nat) (x : Ratio) : Bool :=
  s.aligned e != x.lt (.ofTu (s.spllOf e).alignAt)

/-- A grid without a known phase begins. -/
def State.freshGrid (s : State) (e : Nat) : State :=
  s.modSpll e fun p => { p with base := s.time, grids := p.grids + 1 }

/-- Index j of the grid of a die as it is in `s0`, on the grid as it is in `s`: the first sample at or after the present
instant of each is the same sample. -/
def State.reindex (s0 s : State) (e f : Nat) (j : Int) : Int :=
  j + (s.sampleAt e f (.ofTu s.time) - s0.sampleAt e f (.ofTu s0.time))

/-- The indices that the die's regions and reduction units remember, when its grid changes from that of `s0` to that of
`s`. -/
def State.regrid (s0 s : State) (e : Nat) : State :=
  let f (ch : Nat) := s.ilv ch
  let s1 := (List.range 16).foldl (fun x i =>
    let m := 16 * e + i
    let ref := State.reindex s0 s e (refF s.pitch.recs m)
    x.modRegion m fun r =>
      { r with block := r.block.map ref, ended := r.ended.map fun b => { b with first := ref b.first },
               cap := r.cap.map fun c => { c with
                 trigs := ((regionChans s.pitch.recs m).zip c.trigs).map fun (ch, j) => State.reindex s0 s e (f ch) j } }) s
  (List.range 8).foldl (fun x i =>
    let u := 8 * e + i
    if x.flag Fld.RED_CFG_EN u then
      x.modRed u fun r => { r with s0 := State.reindex s0 s e (f u) r.s0, primeEnd := State.reindex s0 s e (f u) r.primeEnd }
    else x) s1

/-- A change of the grid of die e. -/
def State.onGrid (s : State) (e : Nat) (f : State → State) : State := State.regrid s (f s) e

/-- A change after which the grid has a phase of its own, and ALIGNED is 0. -/
def State.loseGrid (s : State) (e : Nat) (f : State → State) : State :=
  s.onGrid e fun s => ((f s).align e false).freshGrid e

/-! ### The lane that converts a sample, and the correction stage (R152, R159) -/

/-- The lane and the position that convert sample j of an active channel (R152). -/
def State.converter (s : State) (ch : Nat) (j : Int) : Nat × Nat :=
  let f := s.ilv ch
  (ch + (j % (f : Int)).toNat, (j / (f : Int) % 4).toNat)

/-- The correction set of the slice that converts sample j. -/
def State.corrOf (s : State) (ch : Nat) (j : Int) : Corr :=
  let (ln, p) := s.converter ch j
  s.setOf ln (s.fld (posFld p) ln) (s.combo ln)

/-- A core's code after offset and gain, in 2⁻²¹ LSB (R159). -/
def trimmed (c : Corr) (x : Int) : Int := (64 * x + c.ofs) * (32768 + c.gain)

/-- Tap i of a set, the sub-step skew term included: what the term adds to a tap is left open (log 98). -/
def tapOf (c : Corr) (rate i : Nat) : Int := c.taps.getD i 0 + if c.sub = 0 then 0 else Config.skewTap c.sub rate i

/-- The corrected value of sample j, rounded with ties to even, before it is clamped: offset and gain of each code by the
set of its own slice, then the FIR over three samples on either side with the taps of the centre's slice (R159). -/
def State.corrected (s : State) (ch : Nat) (j : Int) (raw : List (BitVec 16)) : Int :=
  let c := s.corrOf ch j
  let xs := raw.zipIdx.map fun (x, i) => tapOf c (s.rateNow (ch / 8)) i * trimmed (s.corrOf ch (j + i - 3)) x.toInt
  divRound xs.sum (64 * 32768 * 16384)

/-- A sample is judged (R142 to R144): a value outside the range opens an excursion, and the first inside ends it. -/
def State.judgeSample (s : State) (ch : Nat) (v : Int) (core : Bool) : State :=
  let s1 := if outOfRange v then s.outside ch else s.backInside ch
  let ovr := s1.ovrOf ch v core
  let s2 := s1.noteSample ch (max (-512) (min v 511)) ovr
  if ovr then s2.ovrSample ch else s2

/-- AFE_OVR: a sample, corrected and judged (R142 to R144, R159). -/
def execAfeOvr (t : Tu) (ch : Fin 16) (raw : List (BitVec 16)) (core : Bool) (s : State) :
    Host.Outcome State Fault Refusal :=
  s.when t fun s =>
    if s.chanOff ch || s.clusterAsleep (ch / 4) then s
    else s.judgeSample ch (s.corrected ch (s.sampleAt (ch / 8) (s.ilv ch) (.ofTu s.time)) raw) core

/-! ### Flags of a sample (R100, R124, R142 to R145) -/

/-- CLKBAD at an instant (R122, R124). -/
def State.badAt (s : State) (e : Nat) (x : Ratio) : Bool :=
  let p := s.spllOf e
  (p.bad.any fun a => (Ratio.ofTu a).le x) || p.spans.any fun b => inSpan x (.ofTu b.1) (.ofTu b.2)

/-- PHASE_STEP at an instant (R100). -/
def State.stepAt (s : State) (x : Ratio) : Bool := s.tick.steps.any fun b => inSpan x (.ofTu b.1) (.ofTu b.2)

/-- A sample of a channel as the lane stage hands it on: the code, with OVR of the sample itself or of a span, and CLKBAD
and PHASE_STEP of the spans that the device flags. -/
def State.flagged (s : State) (ch : Nat) (t : Ratio) (x : Sample) : Sample :=
  ⟨x.code, x.ovr || s.ovrAt ch t, s.badAt (ch / 8) t, s.stepAt t⟩

/-- The samples of a channel from index j on, flagged. -/
def State.flagRun (s : State) (ch : Nat) (j : Int) (xs : List Sample) : List Sample :=
  xs.zipIdx.map fun (x, i) => s.flagged ch (s.sampleInstant (ch / 8) (s.ilv ch) (j + i)) x

/-! ### Settings of before the last commit (R20, R40) -/

/-- The state with the settings that hold for a sample at an instant: those of before the last tick for an earlier one. -/
def State.asOf (s : State) (x : Ratio) : State :=
  match s.tick.was with
  | some (t, regs) => if x.lt (.ofTu t) then { s with regs := regs } else s
  | none => s

/-- Commits follow: the register file of before them is kept. -/
def State.keepWas (s : State) : State := { s with tick := { s.tick with was := some (s.time, s.regs) } }

/-! ### Pipeline cycles -/

/-- The pipeline cycle of a cluster in which an instant falls: 16 samples of a lane (R19); the phase of the cycles on
the grid is left open (log 21). -/
def State.pipeCycle (s : State) (c : Nat) (t : Tu) : Int :=
  let j := s.sampleAt (c / 2) 1 (.ofTu t)
  let at_ := if (s.sampleInstant (c / 2) 1 j).le (.ofTu t) then j else j - 1
  (at_ + Config.pipePhase c) / 16

/-- The start of the first pipeline cycle of a cluster that begins at or after an instant. -/
def State.pipeStart (s : State) (c : Nat) (t : Tu) : Tu :=
  let j := s.sampleAt (c / 2) 1 (.ofTu t)
  let q := (Ratio.mk (j + Config.pipePhase c) 16).ceil
  (s.sampleInstant (c / 2) 1 (16 * q - Config.pipePhase c)).tu

/-! ### Packing (R177, R178, Table ILV-7) -/

/-- A sample stored at a position, with its TRIG flag. -/
structure Placed where
  x : Sample
  trig : Bool
  deriving DecidableEq, Repr

/-- The 16 bits of WIDE16. -/
def wide16 (p : Placed) : Nat :=
  p.x.code.toNat * 64 + p.x.ovr.toNat + 2 * p.x.clkbad.toNat + 4 * p.trig.toNat + 16 * p.x.step.toNat

/-- The tag byte of a PACK10 word. -/
def packTag (ps : List Placed) (start : Bool) : Nat :=
  (ps.any fun p => p.x.ovr).toNat + 2 * (ps.any fun p => p.x.clkbad).toNat + 4 * (ps.any fun p => p.trig).toNat +
    16 * start.toNat + 32 * (ps.any fun p => p.x.step).toNat

/-- What stands at position p of a run: nothing new before the first written position `skip`, or after the last. -/
def placedAt (xs : List Placed) (skip p : Nat) : Option Placed := if p < skip then none else xs[p - skip]?

/-- One PACK10 word of a run: positions before the first written one keep what they held, positions after the last
sample read 0 (R177, R202, R218). -/
def packWord (old : List Byte) (xs : List Placed) (skip w : Nat) (seg : Bool) : List Byte :=
  let here := (List.range 12).filterMap fun i => placedAt xs skip (12 * w + i)
  if here.isEmpty then old
  else
    let o := leNat old
    let codes := ((List.range 12).map fun i =>
      (match placedAt xs skip (12 * w + i) with
        | some p => p.x.code.toNat
        | none => if 12 * w + i < skip then o / 2 ^ (10 * i) % 1024 else 0) * 2 ^ (10 * i)).sum
    leBytes 16 (codes + packTag here (seg && skip / 12 == w) * 2 ^ 120)

/-- The bytes of a run of `len` positions and `size` bytes, given what stands there: the samples `xs` from position
`skip` upward, and zeros as padding (R212). `seg`: the run belongs to a segment. -/
def packRun (old : List Byte) (wide : Bool) (size len skip : Nat) (xs : List Placed) (seg : Bool) : List Byte :=
  if wide then
    ((List.range len).flatMap fun p =>
      match placedAt xs skip p with
      | some x => leBytes 2 (wide16 x)
      | none => (old.drop (2 * p)).take 2) ++ List.replicate (size - 2 * len) 0
  else
    let words := ceilDiv len 12
    ((List.range words).flatMap fun w => packWord ((old.drop (16 * w)).take 16) xs skip w seg) ++
      List.replicate (size - 16 * words) 0

end Sys2Proof.Machine
end

