-- ==== Sys2Proof/Machine/Seg.lean ====
section
/-! DEFINITION. Record regions: arming, the judgement of fires, segments, blocks, the directory and release (chapters
08 and 09: R199 to R203, R211 to R230). -/

namespace Sys2Proof.Machine

/-! ### Registers of a region -/

/-- SEG_ARM.STATE: 0 DISARMED, 1 FILLING, 2 READY, 3 CAPTURE, 4 REARM, 5 STOPPED (Table TRG-7). -/
def State.segState (s : State) (m : Nat) : Nat := s.fld Fld.SEG_ARM_STATE m

/-- The state with a region's STATE changed. -/
def State.setSeg (s : State) (m x : Nat) : State := s.setFld Fld.SEG_ARM_STATE m x

/-- The image defines region m. -/
def State.hasRegion (s : State) (m : Nat) : Bool := regionDefined s.pitch.recs m

/-- The region's mode is continuous (Table SEG-1). -/
def State.continuous (s : State) (m : Nat) : Bool := decide (2 ≤ regionMode s.pitch.recs m)

/-- Channels of a region. -/
def State.segChans (s : State) (m : Nat) : List Nat := regionChans s.pitch.recs m

/-- The region is armed: neither DISARMED nor STOPPED. -/
def State.armed (s : State) (m : Nat) : Bool := s.segState m != 0 && s.segState m != 5

/-- Counts compared by their difference modulo 2³² (R215). -/
def ahead (a b : Nat) : Nat := (a + 2 ^ 32 - b % 2 ^ 32) % 2 ^ 32

/-- The region's event: cause bit 0 MISSED, 1 WMARK, 2 OVERRUN, 3 STOPPED (Table EVT-3). -/
def State.segEvent (s : State) (m bit stop miss : Nat) : State := s.raise (224 + m) (2 ^ bit) (stop + 4 * miss)

/-- SEG_STATUS.WMARK follows the counts; WMARK is raised when a write-back makes the difference reach LEVEL (R226). -/
def State.wmark (s : State) (m : Nat) (wb : Bool) : State :=
  let level := s.fld Fld.SEG_WMARK_LEVEL m
  let at_ := level != 0 && decide (level ≤ ahead (s.fld Fld.SEG_WB_COUNT_COUNT m) (s.fld Fld.SEG_RELEASE_COUNT m))
  let s1 := s.setFld Fld.SEG_STATUS_WMARK m at_.toNat
  if wb && at_ && !s.flag Fld.SEG_STATUS_WMARK m then s1.segEvent m 1 0 0 else s1

/-- The region enters STOPPED at an instant with a cause: 1 FULL, 2 MASK, 3 BUFFER (R225). -/
def State.stopRegion (s : State) (m cause : Nat) (x : Ratio) : State :=
  (((s.setSeg m 5).setFld Fld.SEG_STATUS_STOP_CAUSE m cause).modRegion m fun r =>
    { r with stopAfter := 0, stoppedAt := some x }).segEvent m 3 cause 0

/-- SEG_RELEASE as a decision at an instant finds it: a release of the same cycle counts from the next decision on (R221).
The cycle is that of the first recorded channel's cluster (DESIGN CHOICE, log 102). -/
def State.releaseSeen (s : State) (m : Nat) (x : Ratio) : Nat :=
  let c := (s.segChans m).headD 0 / 4
  let late := (s.region m).releases.filter fun r => decide (s.pipeCycle c x.tu ≤ s.pipeCycle c r.1)
  (late.getLast?.map Prod.snd).getD (s.fld Fld.SEG_RELEASE_COUNT m)

/-- A unit is opened at an instant: OPEN_COUNT rises, and in a wrapping region an unreleased unit that it overwrites is
reported (R224). -/
def State.openUnit (s : State) (m : Nat) (x : Ratio) : State :=
  let n := (s.region m).count
  let s1 := (s.bumpMod Fld.SEG_OPEN_COUNT_COUNT m 1).modRegion m fun r => { r with count := r.count + 1 }
  if regionMode s.pitch.recs m % 2 = 0 ∧ regionCap s.pitch.recs m ≤ ahead n (s.releaseSeen m x) then
    ((s1.setFld Fld.SEG_STATUS_OVERRUN m 1).bump Fld.SEG_OVERRUN_COUNT m 1).segEvent m 2 0 0
  else s1

/-! ### Stack addresses (R212 to R214) -/

/-- BAR2 address of the slot of unit n. -/
def State.slotAt (s : State) (m n : Nat) : Nat :=
  m / 16 * stackSpan + regionBase s.pitch.recs m + n % max 1 (regionCap s.pitch.recs m) * slotLen s.pitch.recs m

/-- Samples in a channel's run (Table SEG-2). -/
def State.runCount (s : State) (m ch : Nat) : Nat :=
  if s.continuous m then 3072 * s.ilv ch / refF s.pitch.recs m else regionLen s.pitch.recs m

/-- Writes the runs of a slot at address `a`: per channel its first written position, its samples and the positions
that carry TRIG. -/
def State.writeRuns (s : State) (m : Nat) (seg : Bool) :
    Nat → List (Nat × Nat × List Placed) → State
  | _, [] => s
  | a, (ch, skip, xs) :: rest =>
    let size := runLen s.pitch.recs m ch
    let bs := packRun (memRead s.mem a size) (regionWide s.pitch.recs m) size (s.runCount m ch) skip xs seg
    State.writeRuns { s with mem := memPutAll s.mem a bs } m seg (a + size) rest

/-! ### Stale channels (R173) -/

/-- The lowest stale lane of a channel's group. -/
def State.staleLane (s : State) (ch : Nat) : Option Nat := (s.groupOf ch).find? fun ln => s.stale ln

/-- A lane of a recorded channel is CAL_STALE. -/
def State.segStale (s : State) (m : Nat) : Bool := (s.segChans m).any fun ch => (s.staleLane ch).isSome

/-! ### Fires -/

/-- Fires in TTS order: of equal stamps, generators before XTRIG instances, and a stop after the fires (R200, R272). -/
def fireIns : List Fire → Fire → List Fire
  | [], f => [f]
  | g :: l, f =>
    if tuLt f.tts g.tts || (f.tts == g.tts && (f.src + 64 * f.stop.toNat) < (g.src + 64 * g.stop.toNat)) then
      f :: g :: l
    else g :: fireIns l f

/-- A fire reaches the regions of a mask (R182). -/
def State.fireRegions (s : State) (mask : Nat) (f : Fire) : State :=
  (bitsOf 32 mask).foldl (fun s m =>
    if s.hasRegion m then s.modRegion m fun r => { r with fires := fireIns r.fires f } else s) s

/-- The trigger sample of a stamp on a region's reference grid (R198, R199). -/
def State.trigOf (s : State) (m : Nat) (tts : Tu) : Int := s.sampleAt (m / 16) (refF s.pitch.recs m) (.ofTu tts)

/-- The instant of a sample of the reference grid. -/
def State.refInstant (s : State) (m : Nat) (j : Int) : Ratio := s.sampleInstant (m / 16) (refF s.pitch.recs m) j

/-- The instant of the trigger sample of the oldest waiting fire. -/
def State.headInstant (s : State) (m : Nat) : Option Ratio :=
  (s.region m).fires.head?.map fun f => s.refInstant m (s.trigOf m f.tts)

/-! ### Segments -/

/-- PRE in effect, at most SEG_LEN − 1 (R199). -/
def State.preNow (s : State) (m : Nat) : Nat := min (s.fld Fld.SEG_PRE_PRE m) (regionLen s.pitch.recs m - 1)

/-- ACCEPT_SHORT holds: with PRE above 65,535 the policy acts as IGNORE (R217). -/
def State.acceptShort (s : State) (m : Nat) : Bool :=
  s.flag Fld.SEG_PRE_PRE_POLICY m && decide (s.preNow m ≤ 65535)

/-- A missed group (R227): 1 BUSY, 2 REARM, 3 RATE, 4 WATERMARK, 5 PRE. -/
def State.miss (s : State) (m cause : Nat) : State :=
  let s1 := s.bump Fld.SEG_MISSED_REGION_MISSED m 1
  let s2 := (s1.setFld Fld.SEG_MISS_CAUSE_LAST m cause).setFld Fld.SEG_MISS_CAUSE_SEEN m
    (s.fld Fld.SEG_MISS_CAUSE_SEEN m ||| 2 ^ (cause - 1))
  if s.fld Fld.SEG_MISSED_REGION_MISSED m = 0 then s2.segEvent m 0 0 cause else s2

/-- A write buffer of a recorded channel's cluster stands above its high watermark (R230). -/
def State.aboveMark (s : State) (m : Nat) : Bool :=
  (s.segChans m).any fun ch => decide (196608 < s.fld Fld.MEM_WBUF_FILL (ch / 4))

/-- The start of FILLING: that of the state, or 8 ns after the last sample of the last segment. -/
def Region.filling (r : Region) : Ratio :=
  match r.last with
  | some l => l.add (.ofInt (ns 8))
  | none => r.fillFrom.getD (.ofInt 0)

/-- The region as a fire finds it whose trigger sample lies at `T`: the arm that a disarm has ended since, for a sample of
before it (R20, R40); with its STATE. -/
def State.regionAt (s : State) (m : Nat) (T : Ratio) : Region × Nat :=
  let r := s.region m
  match r.gone with
  | some g =>
    if T.lt (.ofTu g.at_) then
      ({ r with fillFrom := g.fillFrom, last := g.last, prevTrig := g.prevTrig, readyFrom := g.readyFrom, armNo := g.arm,
                count := g.count }, g.state)
    else (r, s.segState m)
  | none => (r, s.segState m)

/-- Whether a fire counts whose trigger sample lies at `T`: the region is armed, and its first FILLING has begun; of a
stopped one only up to its last sample (R201). -/
def State.counts (s : State) (m : Nat) (T : Ratio) : Bool :=
  let (r, st) := s.regionAt m T
  st != 0 && (st != 5 || r.stoppedAt.any fun x => T.le x) && !(r.last.isNone && T.lt r.filling)

/-- Why a fire group is missed, 0 where it is accepted (Table TRG-4). `T`: the instant of its trigger sample `j`. PRE is a
cause while the region is FILLING only. -/
def State.missCause (s : State) (m : Nat) (tts : Tu) (j : Int) (T : Ratio) : Nat :=
  let r := (s.regionAt m T).1
  let busy := match r.last with | some l => T.le l | none => false
  let rearm := match r.last with | some l => (Ratio.ofTu tts).lt (l.add (.ofInt (ns 8))) | none => false
  let fast := match r.prevTrig with
    | some p =>
      (Ratio.mk ((T.sub p).num * regionRate s.pitch.recs m) (T.sub p).den).lt (.ofInt 8192000000000)
    | none => false
  let avail := j - s.sampleAt (m / 16) (refF s.pitch.recs m) r.filling
  let ready := r.readyFrom.any fun x => x.le T
  let old := s.asOf T
  if busy then 1 else if rearm then 2 else if fast then 3 else if s.aboveMark m then 4
  else if avail < old.preNow m ∧ !old.acceptShort m ∧ !ready then 5 else 0

/-- The index of the trigger sample of a segment on the reference grid. -/
def State.refTrig (s : State) (m : Nat) (c : Capturing) : Int :=
  (((s.segChans m).zip c.trigs).find? fun x => s.ilv x.1 == refF s.pitch.recs m).elim 0 Prod.snd

/-- The positions of each run whose samples precede an instant (R218). -/
def State.cutCounts (s : State) (m : Nat) (c : Capturing) (x : Ratio) : List Nat :=
  ((s.segChans m).zip c.trigs).map fun (ch, j) =>
    min (regionLen s.pitch.recs m - c.skip) (s.sampleAt (m / 16) (s.ilv ch) x - (j - c.pre + c.skip)).toNat

/-- What an accepted group captures (R200, R202, R217). With fewer than PRE samples before the trigger sample every channel
holds as many as the reference channel has. -/
def State.capturing (s : State) (m : Nat) (group : List Fire) (tts : Tu) (j : Int) (T : Ratio) : Capturing :=
  let r := (s.regionAt m T).1
  let e := m / 16
  let pre := (s.asOf T).preNow m
  let len := regionLen s.pitch.recs m
  let avail := (j - s.sampleAt e (refF s.pitch.recs m) r.filling).toNat
  let skip := pre - min pre avail
  { arm := r.armNo, n := r.count, trigs := (s.segChans m).map fun ch => s.sampleAt e (s.ilv ch) (.ofTu tts), pre := pre,
    preActual := if avail < pre then avail else min pre 65535, short := decide (avail < pre), tts := tts,
    source := (group.filterMap fun f => if f.src < 16 then some f.src else none).foldl (fun a g => a ||| 2 ^ g) 0,
    ext := group.any fun f => decide (16 ≤ f.src), unaligned := !s.alignedAt e T, stale := false, stepped := false,
    skip := skip, counts := (s.segChans m).map fun _ => len - skip, ends := s.refInstant m (j - pre + len - 1),
    cut := none, known := none }

/-- An accepted group opens a segment. In an arm that a disarm has ended since, the disarm truncates it at once, and the
region's STATE stays (R229). -/
def State.openSegment (s : State) (m : Nat) (group : List Fire) (tts : Tu) (j : Int) (T : Ratio) : State :=
  let c := s.capturing m group tts j T
  let s0 := { s with gln := { s.gln with segOpened := s.gln.segOpened + 1 } }
  match (s.region m).gone.filter fun g => T.lt (.ofTu g.at_) with
  | none =>
    ((s0.openUnit m T).setSeg m 3).modRegion m fun r =>
      { r with cap := some c, prevTrig := some T, last := some c.ends, readyFrom := none }
  | some g =>
    let whole := c.ends.lt (.ofTu g.at_)
    let s1 := if (s.region m).armNo = g.arm then s0.openUnit m T else s0
    s1.modRegion m fun r =>
      { r with
        cap := some (if whole then c else
          { c with counts := s.cutCounts m c (.ofTu g.at_), cut := some g.frame, ends := .ofTu g.at_ }),
        gone := some { g with count := g.count + 1, prevTrig := some T, last := some (if whole then c.ends else .ofTu g.at_),
                              readyFrom := none } }

/-- A stop at a violating sample (R272): a segment in CAPTURE is completed first. -/
def State.stopAtSample (s : State) (m : Nat) (T : Ratio) : State :=
  if !s.armed m then s
  else if (s.region m).cap.isSome ∧ s.segState m = 3 then s.modRegion m fun r => { r with stopAfter := 2 }
  else s.stopRegion m 2 T

/-- Whether the oldest waiting fire must wait for the end of the open segment to be reported: its trigger sample lies
beyond the segment and its re-arm. -/
def State.blocked (s : State) (m : Nat) (tts : Tu) : Bool :=
  match (s.region m).cap with
  | none => false
  | some c => c.cut.isSome || (c.ends.add (.ofInt (ns 8))).le (.ofTu tts)

/-! ### The blocks of a continuous region (R214, R224, R225) -/

/-- The current block is whole: the next one begins, or the region stops where its slot holds an unreleased block. -/
def State.nextBlock (s : State) (m : Nat) : State :=
  match (s.region m).block with
  | none => s
  | some b =>
    let x := s.refInstant m (b + 3072)
    let r := s.region m
    let s1 := s.modRegion m fun r =>
      { r with block := none, ended := r.ended ++ [(⟨b, r.count - 1, r.armNo, x, none⟩ : Block)] }
    if regionMode s.pitch.recs m = 3 ∧ regionCap s.pitch.recs m ≤ ahead r.count (s.releaseSeen m x) then
      (s1.setFld Fld.SEG_CONT_FILL_SAMPLES m 3072).stopRegion m 1 x
    else (s1.openUnit m x).modRegion m fun r => { r with block := some (b + 3072) }

/-- The blocks that precede index k of the reference grid have passed; the one that ends there is still the current one. -/
def State.passBlocks (s : State) (m : Nat) (k : Int) : State :=
  match (s.region m).block with
  | none => s
  | some b => s.each ((k - b - 1) / 3072).toNat fun s _ => s.nextBlock m

/-- The blocks whose decision window is over by now have passed (R20). -/
def State.blocksNow (s : State) (m : Nat) : State :=
  s.passBlocks m (s.sampleAt (m / 16) (refF s.pitch.recs m) ((Ratio.ofTu s.time).sub (.ofInt (ns 72))))

/-- The block of a continuous region closes at an instant, with the samples before it (R225, R229, R272). -/
def State.cutBlock (s : State) (m : Nat) (x : Ratio) : State :=
  let f := refF s.pitch.recs m
  let k := s.sampleAt (m / 16) f x
  let s1 := s.passBlocks m k
  match (s1.region m).block with
  | none => s1
  | some b =>
    let counts := (s.segChans m).map fun ch =>
      min (s.runCount m ch) (s.sampleAt (m / 16) (s.ilv ch) x - b * (s.ilv ch / f : Nat)).toNat
    (s1.setFld Fld.SEG_CONT_FILL_SAMPLES m (min 3072 (k - b).toNat)).modRegion m fun r =>
      { r with block := none, ended := r.ended ++ [(⟨b, r.count - 1, r.armNo, x, some counts⟩ : Block)] }

/-- A continuous region stops at an instant with its current block cut there, unless a full slot has stopped it before
(R225). -/
def State.stopBlock (s : State) (m cause : Nat) (x : Ratio) : State :=
  let s1 := s.cutBlock m x
  if s1.segState m = 3 then s1.stopRegion m cause x else s1

/-! ### The judgement -/

/-- In a continuous region a fire only marks its trigger sample, and the first stop closes the block at its sample. -/
def State.judgeStop (s : State) (m : Nat) : State :=
  match (s.region m).fires.find? fun f => f.stop with
  | none => s
  | some v =>
    let s1 := s.modRegion m fun r => { r with fires := r.fires.filter fun f => !f.stop }
    if s.armed m then s1.stopBlock m 2 (.ofTu v.tts) else s1

/-- The oldest group of coincident fires is judged (R200, R201, R271, R272). -/
def State.judge (s : State) (m : Nat) : State :=
  match (s.region m).fires with
  | [] => s
  | f :: l =>
    let j := s.trigOf m f.tts
    let T := s.refInstant m j
    if s.continuous m then s.judgeStop m
    else if s.blocked m f.tts then s
    else
      let group := (f :: l).filter fun g => s.trigOf m g.tts == j
      let fires := group.filter fun g => !g.stop
      let s1 := s.modRegion m fun r => { r with fires := (f :: l).filter fun g => s.trigOf m g.tts != j }
      if !s1.counts m T then s1
      else
        let s2 := match fires with
          | [] => s1
          | g :: _ =>
            let cause := s1.missCause m g.tts j T
            if cause = 0 then s1.openSegment m fires g.tts j T else s1.miss m cause
        if group.any fun g => g.stop then s2.stopAtSample m T else s2

/-- Every group whose trigger sample lies before an instant is judged, as many as wait. -/
def State.judgeBefore (s : State) (m : Nat) (x : Ratio) : State :=
  (s.region m).fires.foldl (fun s _ =>
    match s.headInstant m with
    | some T => if T.lt x then s.judge m else s
    | none => s) s

/-- At a tick every group is judged whose decision window is over (R20). -/
def State.judgeDue (s : State) (m : Nat) : State :=
  (s.judgeBefore m ((Ratio.ofTu s.time).sub (.ofInt (ns 72)))).blocksNow m

/-! ### The end of a segment -/

/-- The samples of a run as they stand at positions skip, skip + 1, …; the trigger sample stands at position PRE. -/
def placeRun (pre skip : Nat) (xs : List Sample) : List Placed :=
  xs.zipIdx.map fun (x, i) => (⟨x, skip + i == pre⟩ : Placed)

/-- A lane of a recorded channel was CAL_STALE at a sample of the segment (Table SEG-4). -/
def State.staleSegment (s : State) (m : Nat) (c : Capturing) : Bool :=
  let a := s.refInstant m (s.refTrig m c - c.pre + c.skip)
  (s.segChans m).any fun ch => (s.groupOf ch).any fun ln => s.staleIn ln a c.ends

/-- The flags of a directory entry (Table SEG-4). -/
def State.entryFlags (s : State) (m : Nat) (c : Capturing) (frame : Frame) (xs : List Sample) : Nat :=
  c.cut.isSome.toNat + 2 * c.short.toNat + 4 * (xs.any fun x => x.clkbad).toNat +
    8 * (c.stepped || (xs.any fun x => x.step) || s.tick.stepFrames.contains frame).toNat +
    16 * (xs.any fun x => x.ovr).toNat + 32 * c.ext.toNat + 64 * (c.stale || s.staleSegment m c).toNat +
    128 * c.unaligned.toNat

/-- The frame that contains the end of a segment (R218); after a backward STEP the frame of the STEP stays current until
the next tick (R37). -/
def State.endFrame (s : State) (c : Capturing) : Frame :=
  match c.cut.or c.known with
  | some f => f
  | none =>
    let f := frameAt s.k s.frame c.ends.tu
    match s.tick.stepFrames.head? with
    | some g => if frameLe f g then g else f
    | none => f

/-- The samples and the directory entry of a segment that has ended (R212, R216 to R220). -/
def State.storeSegment (s : State) (m : Nat) (c : Capturing) (runs : List (List Sample)) : State :=
  let frame := s.endFrame c
  let cap := max 1 (regionCap s.pitch.recs m)
  let slot := m / 16 * 65536 + regionDirBase s.pitch.recs m + c.n % cap
  let seq := nextSeqNo (tget 0 s.dirSeq slot)
  let entry := entryWithSeq (dirEntry c.tts (s.slotAt m c.n % stackSpan) c.source c.preActual
    (s.entryFlags m c frame runs.flatten) frame) seq
  let placed := ((s.segChans m).zip runs).map fun (ch, xs) => (ch, c.skip, placeRun c.pre c.skip xs)
  let s1 := s.writeRuns m true (s.slotAt m c.n) placed
  ({ s1 with dir := tins s1.dir slot entry, dirSeq := tput 0 s1.dirSeq slot seq }).modRegion m fun r =>
    { r with cap := none, closed := r.closed ++ [(⟨c.arm, slot, entry⟩ : Closed)] }

/-- What the region enters when a segment has closed at an instant: STOPPED, or REARM (R199, R224, R225). -/
def State.afterSegment (s : State) (m : Nat) (x : Ratio) : State :=
  let cause := (s.region m).stopAfter
  if cause ≠ 0 then s.stopRegion m cause x
  else if regionMode s.pitch.recs m = 1 ∧ ahead (s.region m).count (s.releaseSeen m x) = regionCap s.pitch.recs m then
    s.stopRegion m 1 x
  else s.setSeg m 4

/-- The samples of a segment with the flags that the device gives them. -/
def State.flagSegment (s : State) (m : Nat) (c : Capturing) (runs : List (List Sample)) : List (List Sample) :=
  (((s.segChans m).zip c.trigs).zip runs).map fun ((ch, j), xs) => s.flagRun ch (j - c.pre + c.skip) xs

/-- A segment closes with the samples that were converted, one run for each recorded channel. -/
def State.closeSegment (s : State) (m : Nat) (runs : List (List Sample)) : State :=
  match (s.region m).cap with
  | none => s
  | some c =>
    if runs.map List.length ≠ c.counts then s
    else if c.cut.isNone ∧ !c.ends.le (.ofTu s.time) then s
    else
      let s1 := s.storeSegment m c (s.flagSegment m c runs)
      if c.cut.isNone ∧ s.segState m = 3 ∧ c.arm = (s.region m).armNo then s1.afterSegment m c.ends else s1

/-- An open segment is truncated at this instant, at which frame `f` begins (R218, R229, R100); `step`: by a STEP. -/
def State.truncate (s : State) (m : Nat) (step : Bool) (f : Frame) : State :=
  match (s.region m).cap with
  | none => s
  | some c =>
    if c.cut.isSome then s
    else if c.ends.lt (.ofTu s.time) then s
    else
      s.modRegion m fun r =>
        { r with cap := some { c with counts := s.cutCounts m c (.ofTu s.time), cut := some f, ends := .ofTu s.time,
                                      stepped := c.stepped || step },
                 last := some (.ofTu s.time) }

/-! ### Arming (R173, R199, R228, R229) -/

/-- The arm of a DISARMED region at the tick that begins frame `s.frame`. -/
def State.armNow (s : State) (m : Nat) : State :=
  let s1 := ((s.setFld Fld.SEG_OPEN_COUNT_COUNT m 0).setFld Fld.SEG_WB_COUNT_COUNT m 0).setFld
    Fld.SEG_RELEASE_COUNT m 0
  let s2 := ((s1.setFrame .SEG_ARM_FRAME_LO .SEG_ARM_FRAME_HI m s.frame).setFld Fld.SEG_STATUS_STOP_CAUSE m 0).wmark
    m false
  let s3 := s2.modRegion m fun r =>
    { r with fillFrom := some (.ofTu s.time), last := none, prevTrig := none, stopAfter := 0, block := none,
             armNo := r.armNo + 1, count := 0, readyFrom := none, stoppedAt := none, releases := [] }
  if s.continuous m then
    ((s3.openUnit m (.ofTu s.time)).setSeg m 3).modRegion m fun r => { r with block := some (s.trigOf m s.time) }
  else s3.setSeg m (if s.preNow m = 0 then 2 else 1)

/-- A unit of the region is under self-test: such a request acts on nothing of it (R430). -/
def State.regionTested (s : State) (m : Nat) : Bool :=
  s.dia.bist.isSome && (s.testing (8 + m / 16) || s.testing (10 + m / 16) ||
    (s.segChans m).any fun ch => s.testing (ch / 4) || s.testing (4 + ch / 4))

/-- A region of the image that is awake: its die is, and any of the clusters of its channels (DESIGN CHOICE, log 113: the
spec does not say how a region over an awake and a sleeping cluster counts). -/
def State.regionThere (s : State) (m : Nat) : Bool :=
  s.hasRegion m && !s.dieAsleep (m / 16) && (s.segChans m).any fun ch => !s.clusterAsleep (ch / 4)

/-- An arm that names regions (R173): a region with a stale channel is not armed, and each such channel raises
ILV_ARM_STALE once. A region that is absent or asleep is not acted on (R52). -/
def State.armRegions (s : State) (ms : List Nat) : State :=
  let named := ms.filter fun m => s.regionThere m && !s.regionTested m
  let chans := (List.range 16).filter fun ch => named.any fun m => (s.segChans m).contains ch
  let s1 := chans.foldl (fun s ch =>
    match s.staleLane ch with
    | some ln => s.raise (80 + 8 * ch + 5) 1 ln
    | none => s) s
  named.foldl (fun s m =>
    if s.segStale m then s
    else
      let s' := s.setFld Fld.SEG_ARM_ARM m 1
      if s.segState m = 0 then s'.armNow m else s') s1

/-- How a region stands at a disarm. -/
def State.goneNow (s : State) (m : Nat) : Gone :=
  let r := s.region m
  { at_ := s.time, frame := s.frame, state := s.segState m, arm := r.armNo, count := r.count, fillFrom := r.fillFrom,
    last := r.last, prevTrig := r.prevTrig, readyFrom := r.readyFrom }

/-- A disarm at this tick, from any state. -/
def State.disarm (s : State) (m : Nat) : State :=
  let s1 := s.setFld Fld.SEG_ARM_ARM m 0
  if s.segState m = 0 then s1
  else if s.continuous m then
    ((if s.segState m = 3 then s1.cutBlock m (.ofTu s.time) else s1).setSeg m 0).modRegion m fun r =>
      { r with stopAfter := 0 }
  else
    let s2 := s1.truncate m false s1.frame
    (s2.setSeg m 0).modRegion m fun r => { r with stopAfter := 0, gone := some (s2.goneNow m) }

/-- A disarm that names regions. -/
def State.disarmRegions (s : State) (ms : List Nat) : State :=
  (ms.filter fun m => s.hasRegion m).foldl State.disarm s

/-- A STEP, at which frame `f` begins, closes every open segment with PHASE_STEP; the region passes through REARM as after
any close (R100, R229). -/
def State.stepRegion (s : State) (m : Nat) (f : Frame) : State :=
  if s.segState m = 3 ∧ !s.continuous m then
    let s1 := s.truncate m true f
    if (s1.region m).cap.any (fun c => c.cut.isSome) then s1.afterSegment m (.ofTu s.time) else s1
  else s

/-- An entry with PHASE_STEP set. -/
def stepEntry (e : List Byte) : List Byte := e.set 17 (e.getD 17 0 ||| 8)

/-- Entries of the frame that has just contained a STEP carry PHASE_STEP, those that were complete before it too (Table
SEG-4). -/
def State.stepEntries (s : State) (f : Frame) : State :=
  let hit (e : List Byte) : Bool := leAt e 19 6 == f.toNat
  s.each 32 fun s m =>
    let cs := (s.region m).closed.filter fun c => hit c.entry
    ({ s with dir := cs.foldl (fun d (c : Closed) => tins d c.slot (stepEntry (tget [] d c.slot))) s.dir }).modRegion m fun r =>
      { r with closed := r.closed.map fun (c : Closed) => if hit c.entry then ⟨c.arm, c.slot, stepEntry c.entry⟩ else c }

/-- The instants that a region remembers, when a STEP moves local time by `d` tu; the frame of a segment that has ended
is settled first. -/
def State.shiftRegion (s : State) (m : Nat) (d : Int) : State :=
  s.modRegion m fun r =>
    { r with cap := r.cap.map fun c => { c with known := some (s.endFrame c), ends := c.ends.add (.ofInt d) },
             fillFrom := r.fillFrom.map (·.add (.ofInt d)), last := r.last.map (·.add (.ofInt d)),
             prevTrig := r.prevTrig.map (·.add (.ofInt d)), readyFrom := r.readyFrom.map (·.add (.ofInt d)),
             stoppedAt := r.stoppedAt.map (·.add (.ofInt d)), gone := none,
             releases := r.releases.map fun x => (x.1 + BitVec.ofInt 64 d, x.2),
             ended := r.ended.map fun b => { b with ends := b.ends.add (.ofInt d) } }

/-- A lane that is CAL_STALE at a tick marks the open segment (Table SEG-4). -/
def State.markStale (s : State) (m : Nat) : State :=
  if s.segStale m then s.modRegion m fun r => { r with cap := r.cap.map fun c => { c with stale := true } } else s

/-! ### The samples of blocks (R214, R221) -/

/-- The samples of a block's run, flagged, with TRIG where a waiting fire has its trigger sample. -/
def State.placeBlock (s : State) (m ch : Nat) (b : Int) (xs : List Sample) : List Placed :=
  let f := s.ilv ch
  let first := b * (f / refF s.pitch.recs m : Nat)
  let trigs := (s.region m).fires.filterMap fun x =>
    if x.stop then none else some (s.sampleAt (m / 16) f (.ofTu x.tts) - first)
  (s.flagRun ch first xs).zipIdx.map fun (x, i) => (⟨x, trigs.contains (i : Int)⟩ : Placed)

/-- The oldest block that has ended is stored with its samples and counts as written back; a whole one when its decision
window is over. -/
def State.closeBlock (s : State) (m : Nat) (runs : List (List Sample)) : State :=
  match (s.region m).ended with
  | [] => s
  | b :: rest =>
    let counts := b.counts.getD ((s.segChans m).map (s.runCount m))
    if runs.map List.length ≠ counts ∨ !(b.ends.add (.ofInt (ns 72))).le (.ofTu s.time) then s
    else
      let placed := ((s.segChans m).zip runs).map fun (ch, xs) => (ch, 0, s.placeBlock m ch b.first xs)
      let s1 := (s.writeRuns m false (s.slotAt m b.n) placed).modRegion m fun r =>
        { r with ended := rest, fires := r.fires.filter fun f => f.stop || decide (b.first + 3072 ≤ s.trigOf m f.tts) }
      if b.arm = (s.region m).armNo then (s1.bumpMod Fld.SEG_WB_COUNT_COUNT m 1).wmark m true else s1

/-! ### Write-back and release -/

/-- The entry of a frame that has ended goes to the mirror, and into the DIR_WRITEBACK streams of the region in this very
frame (R220, R39 step 8). -/
def State.writeEntry (s : State) (m : Nat) (c : Closed) : State :=
  let a := mirrorAt (c.slot / 65536) (c.slot % 65536)
  let s1 := { s with mem := memPutAll s.mem a c.entry,
                     dma := { s.dma with torn := some (s.time, a, memRead s.mem a 32) } }
  let s2 := s1.each 64 fun s q => if s.carries q 5 m then s.stage q c.entry else s
  if c.arm = (s.region m).armNo then (s2.bumpMod Fld.SEG_WB_COUNT_COUNT m 1).wmark m true else s2

/-- The oldest closed entry is written back, once its frame has ended. -/
def State.writeBack (s : State) (m : Nat) : State :=
  match (s.region m).closed with
  | [] => s
  | c :: rest =>
    if s.frame.toNat ≤ leAt c.entry 19 6 then s
    else (s.modRegion m fun r => { r with closed := rest }).writeEntry m c

/-- The tick that begins frame F + 1 finds the entries of frame F − 1 written back: those that are still to be are written
now, in the frame that the tick ends (R39 step 8). -/
def State.writeBackDue (s : State) : State :=
  s.each 32 fun s m => (s.region m).closed.foldl (fun s _ => s.writeBack m) s

/-- A write of SEG_RELEASE: ignored where it lowers the count or passes SEG_WB_COUNT (R221). -/
def State.release (s : State) (m n : Nat) : State :=
  let old := s.fld Fld.SEG_RELEASE_COUNT m
  let wb := s.fld Fld.SEG_WB_COUNT_COUNT m
  if ahead n old < 2 ^ 31 ∧ ahead wb n < 2 ^ 31 then
    ((s.setFld Fld.SEG_RELEASE_COUNT m n).modRegion m fun r => { r with releases := (s.time, old) :: r.releases }).wmark m
      false
  else s

/-! ### SEG_PRE (R199, R203) -/

/-- The PRE in effect has been met since FILLING began. -/
def State.preMet (s : State) (m : Nat) : Bool :=
  let j := s.sampleAt (m / 16) (refF s.pitch.recs m) (s.region m).filling + s.preNow m - 1
  s.preNow m == 0 || (s.refInstant m j).le (.ofTu s.time)

/-- SEG_PRE commits. A region that has reached READY stays READY under a higher PRE (DEDUCED, log 103). -/
def State.commitPre (s : State) (m : Nat) (v : Word) : State :=
  let ready := (s.segState m == 1 || s.segState m == 2) && !s.continuous m && s.preMet m
  let s1 := if ready then
      (s.setSeg m 2).modRegion m fun r => { r with readyFrom := r.readyFrom.or (some (.ofTu s.time)) }
    else s
  let s2 := s1.setReg .SEG_PRE m (v &&& 0x1FFFFFF#32)
  if s2.segState m = 1 ∧ s2.preNow m = 0 then s2.setSeg m 2 else s2

/-! ### Commands -/

/-- REGION_READY: PRE samples have been converted since FILLING began (R199). -/
def execRegionReady (m : Fin 32) (s : State) : Host.Outcome State Fault Refusal :=
  s.when s.time fun s => if s.segState m = 1 ∧ s.preMet m then s.setSeg m 2 else s

/-- SEGMENT_CLOSE (R218, R220, R224). -/
def execSegmentClose (m : Fin 32) (runs : List (List Sample)) (s : State) : Host.Outcome State Fault Refusal :=
  s.when s.time fun s => s.closeSegment m runs

/-- REARM_END: 8 ns after the last sample the region enters FILLING, or READY where PRE is 0 (R199). -/
def execRearmEnd (m : Fin 32) (s : State) : Host.Outcome State Fault Refusal :=
  s.when s.time fun s =>
    if s.segState m = 4 ∧ (s.region m).filling.le (.ofTu s.time) then s.setSeg m (if s.preNow m = 0 then 2 else 1)
    else s

/-- DIRECTORY_WRITEBACK (R220). -/
def execDirectoryWriteback (t : Tu) (m : Fin 32) (s : State) : Host.Outcome State Fault Refusal :=
  s.when t fun s => s.writeBack m

/-- SEG_RELEASE (R221); a die asleep discards the write (R34). -/
def execSegRelease (t : Tu) (m : Fin 32) (n : Word) (s : State) : Host.Outcome State Fault Refusal :=
  s.whenHost t fun s => if s.dieAsleep (m / 16) then s else s.release m n.toNat

end Sys2Proof.Machine
end

