-- ==== Sys2Proof/Machine/Mem.lean ====
section
/-! DEFINITION. The memory stacks and the host's window on them (chapter 09: R213, R230 to R233). -/

namespace Sys2Proof.Machine

/-- Continuous regions of a cluster that record (R230). -/
def State.contOf (s : State) (c : Nat) : List Nat :=
  (List.range 32).filter fun m =>
    s.hasRegion m && s.continuous m && s.segState m == 3 && (s.segChans m).any fun ch => ch / 4 == c

/-- The write buffer of a cluster stands at a fill (R230): a crossing above 192 KiB is reported once until MEM_WBUF is read;
full at 256 KiB it stops the continuous regions of the cluster with cause BUFFER. -/
def State.wbuf (s : State) (c fill : Nat) : State :=
  let s1 := s.setFld Fld.MEM_WBUF_FILL c fill
  let s2 :=
    if 196608 < fill then
      let s' := s1.setFld Fld.MEM_WBUF_HIGH_SEEN c 1
      if s.flag Fld.MEM_WBUF_HIGH_SEEN c || decide (196608 < s.fld Fld.MEM_WBUF_FILL c) then s' else s'.raise0 (272 + c)
    else s1
  if fill = 262144 then
    (s.contOf c).foldl (fun s m => s.stopBlock m 3 (.ofTu s.time)) s2
  else s2

/-- MEM_WBUF_HIGH (R230). -/
def execMemWbufHigh (t : Tu) (c : Fin 4) (fill : Fin 262145) (s : State) : Host.Outcome State Fault Refusal :=
  s.when t fun s => if s.clusterAsleep c then s else s.wbuf c fill

/-- A reading of a stack's temperature: doubled refresh above 85 °C, until below 83 °C (R232). -/
def State.stackTemp (s : State) (e : Nat) (temp : BitVec 16) : State :=
  let s1 := s.setFld Fld.MEM_STATUS_TEMP e temp.toNat
  let on := s.flag Fld.MEM_STATUS_REFRESH_2X e
  if !on && decide (850 < temp.toInt) then (s1.setFld Fld.MEM_STATUS_REFRESH_2X e 1).raise0 (280 + e)
  else if on && decide (temp.toInt < 830) then (s1.setFld Fld.MEM_STATUS_REFRESH_2X e 0).raise0 (280 + e)
  else s1

/-- STACK_TEMP_READ (R232). -/
def execStackTempRead (t : Tu) (e : Fin 2) (temp : BitVec 16) (s : State) : Host.Outcome State Fault Refusal :=
  s.when t fun s => if s.dieAsleep e then s else s.stackTemp e temp

/-- MEM_CE: a corrected error, raised at the first since the counter was read (R233). -/
def execMemCe (t : Tu) (e : Fin 2) (s : State) : Host.Outcome State Fault Refusal :=
  s.when t fun s => if s.dieAsleep e then s else s.bumpRaise Fld.MEM_CE_CNT_COUNT e (276 + e) 1 0

/-- An uncorrectable error: counted, its address logged when it is the first since the count was read, and raised. The
BAR2 read that met it completes with poisoned data, whose bytes are left open (R233; log 2). -/
def State.memUe (s : State) (e : Nat) (a : Nat) (bar2 : Option Nat) : State :=
  let s1 := s.bump Fld.MEM_UE_CNT_COUNT e 1
  let s2 := if s.fld Fld.MEM_UE_CNT_COUNT e = 0 then
      s1.setPair .MEM_UE_ADDR_LO .MEM_UE_ADDR_HI e (BitVec.ofNat 64 a) else s1
  let s3 := s2.raise0 (278 + e)
  match bar2 with
  | none => s3
  | some n =>
    ({ s3 with free := s3.free + n }).emit
      (.bar2Data ((List.range n).map fun i => BitVec.ofNat 8 (Config.freeNat (s3.free + i))) true)

/-- MEM_UE (R233). -/
def execMemUe (t : Tu) (e : Fin 2) (a : BitVec 34) (bar2 : Option Nat) (s : State) :
    Host.Outcome State Fault Refusal :=
  s.when t fun s => if s.dieAsleep e then s else s.memUe e a.toNat bar2

/-- MEM_SCRUB_DONE: a patrol pass is complete (R233). -/
def execMemScrubDone (t : Tu) (e : Fin 2) (s : State) : Host.Outcome State Fault Refusal :=
  s.when t fun s => if s.dieAsleep e then s else s.raise0 (284 + e)

/-- MEM_BRIDGE: a bridge retry, raised at the first since the counter was read (R17, Table SEG-8). -/
def execMemBridge (t : Tu) (e : Fin 2) (s : State) : Host.Outcome State Fault Refusal :=
  s.when t fun s => if s.dieAsleep e then s else s.bumpRaise Fld.MEM_BRIDGE_RETRY_COUNT e (282 + e) 1 0

/-- BAR2_READ (R213). -/
def execBar2Read (t : Tu) (a : BitVec 36) (len : Nat) (s : State) : Host.Outcome State Fault Refusal :=
  s.whenHost t fun s => s.emit (.bar2Data (s.bar2Bytes a.toNat len) false)

/-- BAR2_WRITE (R213). -/
def execBar2Write (t : Tu) (a : BitVec 36) (data : List Byte) (s : State) : Host.Outcome State Fault Refusal :=
  s.whenHost t fun s => s.bar2Put a.toNat data

end Sys2Proof.Machine
end

