-- ==== Sys2Proof/Machine/Tic.lean ====
section
/-! DEFINITION. The time-interval counters (chapter 12: R276 to R289). -/

namespace Sys2Proof.Machine

/-! ### Settings in effect -/

/-- The JPLL coasts: no source is active (R98). -/
def State.coasting (s : State) : Bool := s.fld Fld.CLK_SRC_STATUS_ACTIVE 0 == 2

/-- MODE of a counter; 5 to 7 act as 0 (Table TIC-3). -/
def State.ticMode (s : State) (i : Nat) : Nat := let x := s.fld Fld.TIC_CFG_MODE i; if x < 5 then x else 0

/-- INTERVAL under SIGNED, or SKEW: pairing by R282. -/
def State.ticSigned (s : State) (i : Nat) : Bool :=
  s.ticMode i == 3 || (s.ticMode i == 0 && s.flag Fld.TIC_CFG_SIGNED i)

/-- TIC_N; 0 acts as 1. -/
def State.ticN (s : State) (i : Nat) : Nat := max 1 (s.fld Fld.TIC_N_N i)

/-- The timeout in tu: 1 to 67,000,000 ns. -/
def State.ticTimeout (s : State) (i : Nat) : Nat := ns (clampN 1 67000000 (s.fld Fld.TIC_TIMEOUT_NS i))

/-- The pairing window in tu: at least 8. -/
def State.ticWindow (s : State) (i : Nat) : Nat := max 8 (s.fld Fld.TIC_WINDOW_TU i)

/-- The gate in tu: 256 to 67,000,000 ns, not below PACE (R280). -/
def State.ticGate (s : State) (i : Nat) : Nat :=
  ns (max (s.fld Fld.TIC_PACE_NS i) (clampN 256 67000000 (s.fld Fld.TIC_GATE_NS i)))

/-- The holdoff in tu, not below PACE (R280). -/
def State.ticHoldoff (s : State) (i : Nat) : Nat := ns (max (s.fld Fld.TIC_PACE_NS i) (s.fld Fld.TIC_HOLDOFF_NS i))

/-- A source that the mode needs is none (Table TIC-6). -/
def State.ticNoSource (s : State) (i : Nat) : Bool :=
  s.fld Fld.TIC_SRC_START i == 0xFF ||
    ((s.ticMode i == 0 || s.ticMode i == 3) && s.fld Fld.TIC_SRC_STOP i == 0xFF)

/-- RUN is in force. -/
def State.measuring (s : State) (i : Nat) : Bool := s.flag Fld.TIC_STATUS_MEASURING i

/-- An edge selection takes an edge: 0 and 3 rising, 1 falling, 2 both; an event without polarity always counts
(R277). -/
def edgeTaken (sel : Nat) (polar rise : Bool) : Bool :=
  !polar || (if sel = 1 then !rise else if sel = 2 then true else rise)

/-! ### Results (R283, R287, R289) -/

/-- STATUS bits of a record (Table TIC-5). -/
def tsTimeout : Nat := 1
def tsStep : Nat := 4
def tsAborted : Nat := 8

/-- The result record (Table TIC-5). -/
def ticRecord (tts : Tu) (value : Int) (status i mode : Nat) (signed : Bool) (count seq : Nat) : List Byte :=
  leBytes 8 tts.toNat ++ leBytes 5 (unsgn 40 value) ++ leBytes 1 status ++ leBytes 1 i ++
    leBytes 1 (mode + 8 * signed.toNat) ++ leBytes 4 count ++ leBytes 4 seq

/-- A result at a closing instant. `stop`: the end bit TIMEOUT, STEP or ABORTED, or 0; a result without one has a
value. The next measurement opens at least HOLDOFF after the closing instant; a single-shot counter stops. -/
def State.ticResult (s : State) (i : Nat) (tts : Tu) (value : Int) (stop count : Nat) (small coast stale : Bool)
    (closing : Tu) : State :=
  let t := s.ticOf i
  let status := stop + 2 * small.toNat + 16 * coast.toNat + 32 * stale.toNat
  let v := if stop = 0 then value else 0
  let bits := unsgn 40 v
  let s1 := s.setPair .TIC_LAST_TTS_LO .TIC_LAST_TTS_HI i tts
  let s2 := (((s1.setFld Fld.TIC_LAST_VALUE_LO_VALUE i (bits % 2 ^ 32)).setFld Fld.TIC_LAST_VALUE_HI_VALUE i
    (bits / 2 ^ 32)).setFld Fld.TIC_LAST_VALUE_HI_STATUS i status).setFld Fld.TIC_LAST_COUNT_COUNT i count
  let s3 := (s2.setFld Fld.TIC_LAST_SEQ_SEQ i t.seq).produce 4 i
    (ticRecord tts v status i (s.ticMode i) (s.flag Fld.TIC_CFG_SIGNED i) count t.seq) closing
  let s4 := s3.modTic i fun t =>
    { t with ready := tuAdd closing (s.ticHoldoff i), open_ := none, edges := 0, lastEdge := none, pairs := 0, sum := 0,
             subRes := false, stale := false, coast := false, starts := [], doom := none, seq := (t.seq + 1) % 2 ^ 32 }
  let s5 := if stop = tsTimeout then s4.bumpRaise Fld.TIC_TIMEOUT_CNT_COUNT i (424 + i) 2 0
    else if stop = 0 then s4 else s4.raise (424 + i) 4 0
  if s.flag Fld.TIC_CFG_REPEAT i || !s.flag Fld.TIC_CFG_RUN i then s5
  else
    (((s5.setFld Fld.TIC_CFG_RUN i 0).setFld Fld.TIC_STATUS_MEASURING i 0).setFld Fld.TIC_STATUS_DONE i 1).raise
      (424 + i) 1 0

/-- COUNT of a result without a value (Table TIC-3, R283). -/
def State.ticCount (s : State) (i : Nat) : Nat :=
  let m := s.ticMode i
  if m = 1 then s.ticN i else if m = 3 then (s.ticOf i).pairs else if m = 4 then (s.ticOf i).edges else 1

/-- The open measurement ends at an instant without a value. -/
def State.ticEnd (s : State) (i stop : Nat) (closing : Tu) : State :=
  let t := s.ticOf i
  match t.open_ with
  | some (o, _) =>
    s.ticResult i o.t 0 stop (s.ticCount i) (s.ticMode i == 3 && t.subRes) t.coast (t.stale || o.stale) closing
  | none => if s.ticMode i = 4 then s.ticResult i t.gate 0 stop 0 false t.coast false closing else s

/-! ### Pairing (R282) -/

/-- The stop with which a start pairs: of the earlier stop and the later one the nearer within the window, ties to the
earlier. -/
def pairOf (w : Nat) (ts : Stamp) (before after : Option Stamp) : Option Stamp :=
  let near (x : Stamp) : Option Nat := let d := (tuDiff ts.t x.t).natAbs; if d ≤ w then some d else none
  match before.filter (fun x => (near x).isSome), after.filter (fun x => (near x).isSome) with
  | some a, some b => if (tuDiff ts.t b.t).natAbs < (tuDiff ts.t a.t).natAbs then some b else some a
  | some a, none => some a
  | none, b => b

/-- A pair is found: INTERVAL ends, SKEW ends with its N-th pair. -/
def State.ticPair (s : State) (i : Nat) (ts stop : Stamp) (closing : Tu) : State :=
  let v := tuDiff ts.t stop.t
  let s1 := s.modTic i fun t =>
    { t with pairs := t.pairs + 1, sum := t.sum + v, subRes := t.subRes || decide (v.natAbs < 8),
             stale := t.stale || ts.stale || stop.stale, coast := t.coast || stop.coast,
             starts := t.starts.erase ts, stop := if t.stop = some stop then none else t.stop }
  let t := s1.ticOf i
  match t.open_ with
  | none => s1
  | some (o, _) =>
    if s.ticMode i = 0 then s1.ticResult i o.t v 0 1 (decide (v.natAbs < 8)) t.coast t.stale closing
    else if s.ticN i ≤ t.pairs then s1.ticResult i o.t t.sum 0 t.pairs t.subRes t.coast t.stale closing
    else s1

/-- A waiting start is decided at the first stop after it, `after` where that stop is still free: one that finds no stop to
pair with ends the measurement at the end of its window (R282; of a stop that went to an earlier start: DEDUCED, log
105). -/
def State.ticDecide (s : State) (i : Nat) (ts : Stamp) (after : Option Stamp) (closing : Tu) : State :=
  let t := s.ticOf i
  match pairOf (s.ticWindow i) ts t.stop after with
  | some p => s.ticPair i ts p closing
  | none =>
    s.modTic i fun t => { t with starts := t.starts.erase ts, doom := t.doom.or (some (tuAdd ts.t (s.ticWindow i))) }

/-- The end of the window of the oldest start that waits: it pairs with an earlier stop, or the measurement ends. -/
def State.ticWindowOver (s : State) (i : Nat) : State :=
  let t := s.ticOf i
  match t.doom, t.starts with
  | some w, _ => s.ticEnd i tsTimeout w
  | none, ts :: _ =>
    let w := tuAdd ts.t (s.ticWindow i)
    match pairOf (s.ticWindow i) ts t.stop none with
    | some p => s.ticPair i ts p w
    | none => s.ticEnd i tsTimeout w
  | none, [] => s

/-! ### Closings that come with time (R279, R282, R283) -/

/-- The end of the window of the oldest start that waits. -/
def State.ticWindowEnd (s : State) (i : Nat) : Option Tu :=
  (s.ticOf i).doom.or ((s.ticOf i).starts.head?.map fun x => tuAdd x.t (s.ticWindow i))

/-- The timeout of the open measurement: not under SIGNED in INTERVAL, nor in FREQUENCY. -/
def State.ticDeadline (s : State) (i : Nat) : Option Tu :=
  if s.ticMode i = 4 ∨ (s.ticMode i = 0 ∧ s.ticSigned i = true) then none
  else (s.ticOf i).open_.map fun x => tuAdd x.1.t (s.ticTimeout i)

/-- The gate ends (R279): its result, and the next gate. -/
def State.ticGateEnd (s : State) (i : Nat) : State :=
  let t := s.ticOf i
  let stop := tuAdd t.gate (s.ticGate i)
  let s1 := match t.open_, t.lastEdge with
    | some (o, _), some l =>
      if 2 ≤ t.edges then
        let v := tuDiff o.t l.t
        s.ticResult i o.t v 0 t.edges (decide (v.natAbs < 8)) t.coast (o.stale || l.stale) stop
      else s.ticResult i o.t 0 tsTimeout t.edges false t.coast o.stale stop
    | _, _ => s.ticResult i t.gate 0 tsTimeout 0 false t.coast false stop
  s1.modTic i fun t => { t with gate := stop }

/-- A counter runs and has its sources. -/
def State.ticLive (s : State) (i : Nat) : Bool := s.measuring i && !s.ticNoSource i && !s.clusterAsleep (i / 8)

/-- The gate under FREQUENCY is over at an instant. -/
def State.ticGateDue (s : State) (i : Nat) (x : Tu) : Bool :=
  s.ticLive i && s.ticMode i == 4 && tuLe (tuAdd (s.ticOf i).gate (s.ticGate i)) x

/-- Closings before an instant `x` come first; of the gates those that end by `g`. -/
def State.ticSettle (s : State) (i : Nat) (x g : Tu) : State :=
  let n := (tuDiff (s.ticOf i).gate g).toNat / max 1 (s.ticGate i)
  let s1 := if s.ticMode i = 4 then s.each n fun s _ => if s.ticGateDue i g then s.ticGateEnd i else s else s
  let s2 := s1.each ((s1.ticOf i).starts.length + 1) fun s _ =>
    match s.ticWindowEnd i with
    | some w => if s.ticLive i && tuLt w x then s.ticWindowOver i else s
    | none => s
  match s2.ticDeadline i with
  | some d => if s2.ticLive i && tuLt d x then s2.ticEnd i tsTimeout d else s2
  | none => s2

/-! ### Edges -/

/-- A start edge is ignored and counted (R281). -/
def State.ticIgnored (s : State) (i : Nat) : State := s.bump Fld.TIC_IGNORED_CNT_COUNT i 1

/-- A measurement opens. -/
def State.ticOpen (s : State) (i : Nat) (x : Stamp) (rise : Bool) : State :=
  s.modTic i fun t =>
    { t with open_ := some (x, rise), edges := 0, lastEdge := none, coast := x.coast,
             starts := if s.ticSigned i then [x] else [] }

/-- A stop edge of INTERVAL or SKEW: the state, and whether the edge served the measurement. Under R281 only a stop at or
after the start ends it. -/
def State.ticStopEdge (s : State) (i : Nat) (x : Stamp) : State × Bool :=
  if s.ticSigned i then
    let seq := (s.ticOf i).seq
    (s.ticOf i).starts.foldl (fun (s, used) y =>
      if tuLt y.t x.t && (s.ticOf i).seq == seq then
        let after := if used then none else some x
        let p := pairOf (s.ticWindow i) y (s.ticOf i).stop after
        (s.ticDecide i y after x.t, used || p == some x)
      else (s, used)) (s, false)
  else
    match (s.ticOf i).open_ with
    | some (o, _) =>
      let v := tuDiff o.t x.t
      if tuLe o.t x.t then
        (s.ticResult i o.t v 0 1 (decide (v.natAbs < 8)) ((s.ticOf i).coast || x.coast) (o.stale || x.stale) x.t, true)
      else (s, false)
    | none => (s, false)

/-- A start edge while a measurement is open. -/
def State.ticStartEdge (s : State) (i : Nat) (x : Stamp) (rise : Bool) (o : Stamp) : State :=
  let m := s.ticMode i
  let coast := (s.ticOf i).coast || x.coast
  if m = 0 then
    if s.ticSigned i then s
    else if s.flag Fld.TIC_CFG_START_POLICY i then s.ticOpen i x rise
    else s.ticIgnored i
  else if m = 1 then
    let n := (s.ticOf i).edges + 1
    if s.ticN i ≤ n then
      let v := tuDiff o.t x.t
      s.ticResult i o.t v 0 (s.ticN i) (decide (v.natAbs < 8)) coast (o.stale || x.stale) x.t
    else s.modTic i fun t => { t with edges := n, coast := coast }
  else if m = 2 then s
  else s.modTic i fun t => { t with starts := t.starts ++ [x], coast := coast }

/-- An edge of a counter's sources, at `x`. A single edge never serves as start and stop of one measurement (R277). -/
def State.ticEdge (s : State) (i : Nat) (x : Stamp) (start stop polar rise : Bool) : State :=
  let s0 := s.ticSettle i x.t x.t
  let mode := s0.ticMode i
  let isStart := start && edgeTaken (s0.fld Fld.TIC_CFG_START_EDGE i) polar rise
  let isStop := stop && (mode == 0 || mode == 3) && edgeTaken (s0.fld Fld.TIC_CFG_STOP_EDGE i) polar rise
  if !s0.ticLive i || tuLt x.t (s0.ticOf i).runAt then s0
  else if mode = 4 then
    if isStart && tuLe (s0.ticOf i).gate x.t then
      s0.modTic i fun t =>
        { t with open_ := some (t.open_.getD (x, rise)), edges := t.edges + 1, lastEdge := some x,
                 coast := t.coast || x.coast }
    else s0
  else if mode = 2 ∧ start ∧ polar ∧ (s0.ticOf i).open_.any (fun o => o.2 != rise) then
    match (s0.ticOf i).open_ with
    | some (o, _) =>
      let v := tuDiff o.t x.t
      let s1 := s0.ticResult i o.t v 0 1 (decide (v.natAbs < 8)) ((s0.ticOf i).coast || x.coast) (o.stale || x.stale) x.t
      if isStart && s1.ticLive i && tuLe (s1.ticOf i).ready x.t then s1.ticOpen i x rise else s1
    | none => s0
  else
    let (s1, served) := if isStop then s0.ticStopEdge i x else (s0, false)
    let wasOpen := (s1.ticOf i).open_
    let ended := (s1.ticOf i).seq != (s0.ticOf i).seq
    let takes := isStart && s1.ticLive i && (!served || ended)
    let s2 :=
      if takes then
        match wasOpen with
        | some (o, _) =>
          let s' := s1.ticStartEdge i x rise o
          if (s'.ticOf i).seq ≠ (s1.ticOf i).seq ∧ s'.ticLive i = true ∧ tuLe (s'.ticOf i).ready x.t = true then
            s'.ticOpen i x rise else s'
        | none => if tuLe (s1.ticOf i).ready x.t then s1.ticOpen i x rise else s1
      else s1
    let used := served || (takes && (s2.ticOf i).starts.contains x) ||
      (takes && wasOpen.isNone && (s2.ticOf i).open_.isSome)
    if isStop && s2.ticSigned i then s2.modTic i fun t => { t with stop := if used then none else some x }
    else if isStop && !used then s2.ticIgnored i
    else s2

/-- An event of a source reaches the counters of cluster c that are bound to it. -/
def State.ticSource (s : State) (c code : Nat) (t : Tu) (polar rise stale : Bool) : State :=
  (List.range 8).foldl (fun s k =>
    let i := 8 * c + k
    let start := s.fld Fld.TIC_SRC_START i == code
    let stop := s.fld Fld.TIC_SRC_STOP i == code
    if (start || stop) && s.measuring i then s.ticEdge i ⟨t, s.coasting, stale⟩ start stop polar rise else s) s

/-- An event of a source that reaches every cluster. -/
def State.ticAll (s : State) (code : Nat) (t : Tu) (polar rise : Bool) : State :=
  s.each 4 fun s c => s.ticSource c code t polar rise false

/-! ### Commits (R280, R285) -/

/-- The counter measures afresh from an instant. -/
def State.ticFresh (s : State) (i : Nat) (x : Tu) : State :=
  s.modTic i fun t =>
    { Tic.init with runAt := x, ready := x, gate := x, seq := t.seq }

/-- A measurement is open; under FREQUENCY a gate that began before now. -/
def State.ticIsOpen (s : State) (i : Nat) : Bool :=
  if s.ticMode i = 4 then (s.ticOf i).gate != s.time else (s.ticOf i).open_.isSome

/-- The open measurement ends with ABORTED. -/
def State.ticAbort (s : State) (i : Nat) : State :=
  if s.ticLive i && s.ticIsOpen i then s.ticEnd i tsAborted s.time else s

/-- NO_SOURCE follows the mode. -/
def State.ticNote (s : State) (i : Nat) : State := s.setFld Fld.TIC_STATUS_NO_SOURCE i (s.ticNoSource i).toNat

/-- TIC_CFG commits at this tick; a RUN commit acts on nothing of a cluster under self-test (R430). -/
def State.commitTicCfg (s : State) (i : Nat) (v : Word) : State :=
  let s0 := s.ticSettle i s.time (s.time - 1)
  let was := s0.measuring i
  let tested := s0.testing (i / 8) && v.getLsbD 0 && !was
  let run := v.getLsbD 0 && !tested
  let put (s : State) : State :=
    (s.setReg .TIC_CFG i (if tested then v &&& 0x7FE#32 else v &&& 0x7FF#32)).ticNote i
  if !was && run then
    ((put s0).setFld Fld.TIC_STATUS_MEASURING i 1).modTic i fun _ =>
      { Tic.init with runAt := s.time, ready := s.time, gate := s.time }
  else if was && !run then
    (((put ((s0.setFld Fld.TIC_CFG_RUN i 0).ticAbort i)).setFld Fld.TIC_STATUS_MEASURING i 0).modTic i fun t =>
      { Tic.init with seq := t.seq })
  else if was && s0.ticIsOpen i then
    let kept := s0.setFld Fld.TIC_CFG_REPEAT i 1
    ((put (kept.ticAbort i)).setFld Fld.TIC_STATUS_MEASURING i 1).ticFresh i s.time
  else if was then
    let s1 := put s0
    if s1.ticMode i = 4 ∧ s0.ticMode i ≠ 4 then s1.modTic i fun t => { t with gate := s.time } else s1
  else put s0

/-- Another TIC register with SH fields commits at this tick (R280); HOLDOFF and GATE take the floor of PACE. -/
def State.commitTic (s : State) (n : RegName) (i : Nat) (v : Word) : State :=
  let s0 := s.ticSettle i s.time (s.time - 1)
  let v' := match n with
    | .TIC_GATE | .TIC_HOLDOFF => BitVec.ofNat 32 (max (s.fld Fld.TIC_PACE_NS i) v.toNat)
    | .TIC_N => v &&& 0xFFFFFF#32
    | _ => v
  if s0.measuring i && s0.ticIsOpen i then
    let rep := s0.fld Fld.TIC_CFG_REPEAT i
    let s1 := (s0.setFld Fld.TIC_CFG_REPEAT i 1).ticAbort i
    ((s1.setFld Fld.TIC_CFG_REPEAT i rep).setReg n i v').ticFresh i s.time
  else s0.setReg n i v'

/-- A STEP: the open measurement ends at the step instant with STEP and no value; what follows is counted on the
corrected time, `x` (R285). -/
def State.ticStep (s : State) (i : Nat) (x : Tu) : State :=
  if s.measuring i then
    let s0 := s.ticSettle i s.time (s.time - 1)
    let s1 := if s0.ticLive i && s0.ticIsOpen i then s0.ticEnd i tsStep s.time else s0
    let wait := (tuDiff s.time (s1.ticOf i).ready).toNat
    s1.modTic i fun t =>
      { Tic.init with runAt := x, ready := tuAdd x wait, gate := x, seq := t.seq }
  else s

/-- T1 of a full pitch: the counter stops and the open measurement is discarded (R285). -/
def State.ticStopAll (s : State) : State :=
  s.each 32 fun s i => ((s.setFld Fld.TIC_CFG_RUN i 0).setFld Fld.TIC_STATUS_MEASURING i 0).modTic i fun _ => Tic.init

end Sys2Proof.Machine
end

