-- ==== Sys2Proof/Machine/Pmu.lean ====
section
/-! DEFINITION. The parametric section (chapter 13: R290 to R310), and the sending of Guyline messages (R365), which
its twin comparison uses. -/

namespace Sys2Proof.Machine

/-! ### Guyline (R365) -/

/-- A partner is attached: the role is not SOLO (Table GLN-1). -/
def State.attached (s : State) : Bool := s.flag Fld.GLN_STATUS_ROLE 0

/-- Guyline is up. -/
def State.glnUp (s : State) : Bool := s.flag Fld.GLN_STATUS_LINK_UP 0

/-- A message leaves with the next SEQ of its TYPE, while the link is up. -/
def State.glnSend (s : State) (typ sub : Nat) (payload : List Byte) (copies : Nat) : State :=
  if s.glnUp then
    let n := tget 0 s.gln.seqTx typ
    ({ s with gln := { s.gln with seqTx := tput 0 s.gln.seqTx typ ((n + 1) % 65536) } }).emit
      (.guyline typ sub n (payload ++ List.replicate (24 - payload.length) 0) copies)
  else s

/-! ### Force outputs (R290, R291) -/

/-- What output n drives, as a code of CODE's scale: 0 V while EN is 0, whatever CODE holds (R290). -/
def State.forceDrives (s : State) (n : Nat) : Nat :=
  if s.flag Fld.PMU_FORCE_CFG_EN n then s.fld Fld.PMU_FORCE_NOW_CODE n else 0

/-- What output n drives has changed from that of `s0`, at instant `t`. -/
def State.forceMoved (s0 s : State) (n : Nat) (t : Tu) : State :=
  if s.forceDrives n = s0.forceDrives n then s else s.emit (.force n t (s.forceDrives n))

/-- A code reaches its output at an instant: PMU_FORCE_NOW and PMU_FORCE_TTS follow. -/
def State.forceNow (s : State) (n code : Nat) (t : Tu) : State :=
  s.forceMoved (((s.setFld Fld.PMU_FORCE_NOW_CODE n code).setPair .PMU_FORCE_TTS_LO .PMU_FORCE_TTS_HI 0 t).setFld
    Fld.PMU_FORCE_OUT_OUT 0 n) n t

/-- A write of PMU_FORCE_CFG: EN switches the output between its code and 0 V (R290). -/
def State.writeForceCfg (s : State) (n : Nat) (v : Word) : State :=
  s.forceMoved (s.setReg .PMU_FORCE_CFG n (v &&& 7#32)) n s.time

/-- Pending codes of an output. -/
def State.forceOf (s : State) (n : Nat) : List ForcePend := tget [] s.pmu.force n

/-- The state with the pending codes of an output changed. -/
def State.setForce (s : State) (n : Nat) (l : List ForcePend) : State :=
  { s with pmu := { s.pmu with force := tput [] s.pmu.force n l } }

/-- The stamp of a write of CODE: that of an SH write where it waits for a tick, else the instant of the write (R291). -/
def State.forceStamp (s : State) (upd : Nat) : Tu := if upd = 1 then s.hubStamp else s.time

/-- A write of CODE: with UPD 0 or 3 it reaches the output within 100 ns (the instant is a free value), with 1 or 2
it waits; it acts as one with a code that waits for another instant, and the last write wins. -/
def State.writeForce (s : State) (n code : Nat) : State :=
  let s1 := s.setFld Fld.PMU_FORCE_CODE_CODE n code
  let upd := s.fld Fld.PMU_FORCE_CFG_UPD n
  if upd = 1 ∨ upd = 2 then
    s1.setForce n ((s.forceOf n).filter (fun p => p.upd == upd) ++ [⟨code, s.forceStamp upd, upd⟩])
  else (s1.used.setForce n []).forceNow n code (tuAdd s.time (s.freeBelow (ns 100 + 1)))

/-- The pending codes with this UPD whose instant has come, by `due` on their stamps: the last one takes effect. -/
def State.forceDue (s : State) (n upd : Nat) (t : Tu) (due : Tu → Bool) : State :=
  let hit := (s.forceOf n).filter fun p => p.upd == upd && due p.stamp
  match hit.getLast? with
  | none => s
  | some p => (s.setForce n ((s.forceOf n).filter fun p => !(p.upd == upd && due p.stamp))).forceNow n p.code t

/-- FORCE_CODE_WRITE (R291). -/
def execForceCodeWrite (t : Tu) (n : Fin 16) (code : BitVec 18) (s : State) : Host.Outcome State Fault Refusal :=
  s.whenHost t fun s => s.writeForce n code.toNat

/-- FORCE_ENABLE_WRITE: EN and UPD of an output (R290, R291). -/
def execForceEnableWrite (t : Tu) (n : Fin 16) (v : Word) (s : State) : Host.Outcome State Fault Refusal :=
  s.whenHost t fun s => s.writeForceCfg n v

/-! ### The modulator (R294 to R296) -/

/-- T_mod in tu: 80 ns, or 320 ns in low power. -/
def State.tMod (s : State) (x : Nat) : Nat := if s.flag Fld.PMU_MC_CFG_LP x then ns 320 else ns 80

/-- The first modulator edge at or after an instant. On the system reference the edges are multiples of T_mod from the
epoch; on REFIN their phase is left open (log 2). -/
def State.modEdge (s : State) (x : Nat) (t : Tu) : State × Tu :=
  let T := s.tMod x
  if tget 0 s.clk.muxNow 2 = 1 then (s.used, tuAdd t (s.freeBelow T))
  else (s, BitVec.ofNat 64 ((t.toNat + T - 1) / T * T))

/-- Order and OSR of a filter setting (Table PMU-7). -/
def State.filt (s : State) (x f : Nat) : Nat × Nat :=
  (clampN 1 5 (s.fld Fld.PMU_FILT_K (4 * x + f)), clampN 16 2097152 (s.fld Fld.PMU_FILT_OSR (4 * x + f)))

/-- Fields of a settings word (Table PMU-7). -/
def setInput (w : Word) : Nat := getBits w 0 6
def setGain (w : Word) : Nat := if getBits w 6 3 ≤ 4 then getBits w 6 3 else 0
def setFilt (w : Word) : Nat := getBits w 9 2
def setTwin (w : Word) : Bool := w.getLsbD 11
def setDelay (w : Word) : Nat := getBits w 12 10

/-- The input that a code selects; codes not in Table PMU-2 select the zero input. -/
def inputOf (c : Nat) : Nat := if c ≤ 0x17 ∨ (0x20 ≤ c ∧ c ≤ 0x33) then c else 0x30

/-- The wait of a conversion in tu (R295 item 2). -/
def State.convWait (s : State) (x : Nat) (w : Word) : Nat :=
  let T := s.tMod x
  (ns 1000 * max 2 (setDelay w) + T - 1) / T * T

/-- Integration and the 32 cycles after it, in tu (R295 items 4 and 5). -/
def State.convSpan (s : State) (x : Nat) (w : Word) : Nat :=
  let (k, osr) := s.filt x (setFilt w)
  (k * osr + 32) * s.tMod x

/-- The length of a calibration: ten conversions with K = 3 and OSR = 4,096 (R303). -/
def State.calSpan (s : State) (x : Nat) : Nat := 10 * (s.convWait x 0 + (3 * 4096 + 32) * s.tMod x)

/-- The sequence streams (R299). -/
def State.streams (s : State) (x : Nat) (w : Word) : Bool :=
  s.fld Fld.PMU_SEQ_CTRL_LEN x == 0 && s.flag Fld.PMU_SEQ_CTRL_REPEAT x && !s.flag Fld.PMU_SEQ_CTRL_START x &&
    decide (ns (s.fld Fld.PMU_PACE_NS x) ≤ (s.filt x (setFilt w)).2 * s.tMod x)

/-! ### What a converter does next (R298 to R302) -/

/-- MCB follows MCA (R304). -/
def State.xchk (s : State) : Bool := (s.mc 0).xchk

/-- PMU_SEQ_STATUS of a converter follows its queue and what it converts: MCB under XCHK converts what MCA does. -/
def State.pmuShowOne (s : State) (x : Nat) : State :=
  let m := if x = 1 ∧ s.xchk ∧ (s.mc 1).act.isNone then s.mc 0 else s.mc x
  let act := match m.act with | none => 0 | some c => c.kind
  let entry := match m.act with
    | some c => if c.kind = 1 then c.entry else m.next.getD 0
    | none => m.next.getD 0
  ((((s.setFld Fld.PMU_SEQ_STATUS_ACTIVITY x act).setFld Fld.PMU_SEQ_STATUS_ENTRY x entry).setFld
    Fld.PMU_SEQ_STATUS_INJ_QUEUED x (s.mc x).queue.length).setFld Fld.PMU_SEQ_STATUS_CAL_PENDING x m.cal.toNat).setFld
      Fld.PMU_SEQ_STATUS_STREAMING x (m.act.any fun c => c.streams).toNat

/-- PMU_SEQ_STATUS follows the converters. -/
def State.pmuShow (s : State) (x : Nat) : State :=
  if x = 0 ∧ s.xchk then (s.pmuShowOne 0).pmuShowOne 1 else s.pmuShowOne x

/-- The converter starts a conversion at the first modulator edge at or after `t`. A regular conversion waits longer
where PACE asks for it (R300). -/
def State.startConv (s : State) (x kind : Nat) (w : Word) (entry : Nat) (restarted : Bool) (t : Tu) : State :=
  let (s1, t0) := s.modEdge x t
  let T := s.tMod x
  let wait := s.convWait x w
  let span := s.convSpan x w
  let extra := match (s.mc x).lastReady with
    | some l =>
      if kind = 1 then
        (max 0 (tuDiff (tuAdd t0 (wait + span)) (tuAdd l (ns (s.fld Fld.PMU_PACE_NS x))))).toNat
      else 0
    | none => 0
  let tts := tuAdd t0 (wait + (extra + T - 1) / T * T)
  let c : Conv :=
    if kind = 3 then ⟨3, w, 0, t0, tuAdd t0 (s.calSpan x), false, false, false, false, s.calSpan x, false, false⟩
    else ⟨kind, w, entry, tts, tuAdd tts span, restarted, s.coasting, false, kind == 1 && s.streams x w, span,
      false, false⟩
  s1.modMc x fun m => { m with act := some c }

/-- The converter, idle at `t`, starts what comes next: waiting injected requests, at most four before a waiting
regular entry, then a pending calibration, then the aborted entry, then the next entry of the pass. -/
def State.pmuNext (s : State) (x : Nat) (t : Tu) : State :=
  let s0 := if x = 0 ∧ (s.mc 0).act.isNone then s.modMc 0 fun m => { m with xchk := s.flag Fld.PMU_MC_CFG_XCHK 0 } else s
  let m := s0.mc x
  let waits := m.restart || m.next.isSome
  let entry (e : Nat) : Word := s0.reg .PMU_SEQ_ENTRY (16 * x + e)
  if m.act.isSome || !s0.flag Fld.PMU_MC_CFG_EN x || (x == 1 && s0.xchk) || !s0.gateOpen 25 then s0.pmuShow x
  else
    (match m.queue with
    | w :: rest =>
      if !waits || m.served < 4 then
        (s0.startConv x 2 w 0 false t).modMc x fun m => { m with queue := rest, served := m.served + 1 }
      else if m.cal then (s0.startConv x 3 0 0 false t).modMc x fun m => { m with cal := false }
      else
        (s0.startConv x 1 (entry (m.next.getD 0)) (m.next.getD 0) m.restart t).modMc x fun m =>
          { m with restart := false, served := 0 }
    | [] =>
      if m.cal then (s0.startConv x 3 0 0 false t).modMc x fun m => { m with cal := false }
      else if waits then
        (s0.startConv x 1 (entry (m.next.getD 0)) (m.next.getD 0) m.restart t).modMc x fun m =>
          { m with restart := false, served := 0 }
      else s0).pmuShow x

/-- What comes next at a boundary between conversions. Where XCHK takes or leaves effect there, MCB's own sequence
stops, or runs again from entry 0 (R304). -/
def State.pmuGo (s : State) (x : Nat) (t : Tu) : State :=
  let s1 := s.pmuNext x t
  if x = 0 ∧ !s.xchk ∧ s1.xchk then s1.modMc 1 fun m => { m with next := none, restart := false }
  else if x = 0 ∧ s.xchk ∧ !s1.xchk then
    (if s1.flag Fld.PMU_SEQ_STATUS_RUNNING 1 && !s1.flag Fld.PMU_SEQ_CTRL_START 1 then
      s1.modMc 1 fun m => { m with next := some 0 } else s1).pmuNext 1 t
  else s1

/-- A regular conversion under way is aborted, unless it is a restarted one: its entry restarts, where its pass still
goes on (R302, R308). -/
def State.abortConv (s : State) (x : Nat) : State :=
  match (s.mc x).act with
  | some c =>
    if c.kind = 1 ∧ !c.restarted then
      (s.bump Fld.PMU_ABORT_CNT_COUNT x 1).modMc x fun m =>
        if c.ended then { m with act := none, served := 0 }
        else { m with act := none, restart := true, next := some c.entry, served := 0 }
    else s
  | none => s

/-- A request or result is dropped: EV376 with its cause, 0 refused, 1 discarded, 2 lost (Table EVT-3). -/
def State.injDrop (s : State) (x cause n : Nat) : State :=
  if n = 0 then s
  else
    let s1 := if cause = 0 then s.bump Fld.PMU_INJ_DROP_REFUSED x n else s.bump Fld.PMU_INJ_DROP_LOST x n
    s1.raise 376 (2 ^ cause) x

/-- An injected request is queued at instant `t` (R301, R302); it is refused where four wait, where the converter is
off, or where MCB follows MCA. -/
def State.inject (s : State) (x : Nat) (w : Word) (t : Tu) : State :=
  if 4 ≤ (s.mc x).queue.length ∨ !s.flag Fld.PMU_MC_CFG_EN x ∨ (x = 1 ∧ s.xchk) then s.injDrop x 0 1
  else
    ((s.modMc x fun m => { m with queue := m.queue ++ [w &&& 0x3FFFFF#32] }).abortConv x).pmuNext x t

/-- A calibration request; a second one while one is pending or running is ignored (R303). Under XCHK it calibrates
both converters, which then follow MCA. -/
def State.requestCal (s : State) (x : Nat) : State :=
  let y := if s.xchk then 0 else x
  let m := s.mc y
  if m.cal || (m.act.any fun c => c.kind == 3) || !s.flag Fld.PMU_MC_CFG_EN y then s
  else ((s.modMc y fun m => { m with cal := true }).abortConv y).pmuNext y s.time

/-! ### Results (R293, R305, R306) -/

/-- The 24-bit code of a measured value, sign-extended. -/
def pmuCode (v : Int) : Word := BitVec.ofInt 32 (satS 24 v)

/-- A result carries OVR. -/
def pmuOvr (v : Int) (overload : Bool) : Bool := decide (v < -8388608 ∨ 8388607 < v) || overload

/-- Bytes 12 to 15 of a record (Table PMU-5). -/
def pmuInfo (c : Conv) (x seq : Nat) (ovr clksw nocal fail : Bool) : Word :=
  BitVec.ofNat 32 (inputOf (setInput c.settings) +
    256 * (ovr.toNat + 2 * clksw.toNat + 4 * c.coast.toNat + 8 * c.restarted.toNat + 16 * nocal.toNat +
      32 * fail.toNat + 64 * c.step.toNat) +
    65536 * (c.entry + 16 * setGain c.settings + 128 * x) + 16777216 * (seq % 256))

/-- The bytes of a record. -/
def pmuBytes (r : PmuRec) : List Byte := leBytes 8 r.tts.toNat ++ leBytes 4 r.value.toNat ++ leBytes 4 r.info.toNat

/-- Two results differ by more than a limit. -/
def pmuDiffers (a b : Word) (lim : Nat) : Bool := decide (lim < (a.toInt - b.toInt).natAbs)

/-- A twin comparison of two results. -/
def State.twinCompare (s : State) (a b : TwinRes) : State :=
  if pmuDiffers a.value b.value (s.fld Fld.PMU_TWIN_LIMIT_LSB 0) then
    (s.bump Fld.PMU_TWIN_FAIL_CNT_COUNT 0 1).raise0 378
  else s

/-- The two results are of one conversion: same converter and entry, time stamps within WINDOW (R304). -/
def State.twinPair (s : State) (a b : TwinRes) : Bool :=
  a.conv == b.conv && a.entry == b.entry &&
    decide ((tuDiff a.tts b.tts).natAbs ≤ s.fld Fld.PMU_TWIN_CFG_WINDOW 0)

/-- The twin comparison is on and a partner is attached over a link that is up (R304, R380). -/
def State.twinOn (s : State) : Bool := s.flag Fld.PMU_TWIN_CFG_EN 0 && s.attached && s.glnUp

/-- A local result of an entry with TWIN = 1 is sent and compared, or waits for the partner's. -/
def State.twinLocal (s : State) (a : TwinRes) (r : PmuRec) : State :=
  if !s.twinOn then s
  else
    let s1 := s.glnSend 0xA (a.conv + 16 * a.entry) (pmuBytes r) 1
    match s.pmu.remote.find? (s.twinPair a) with
    | some b => { s1 with pmu := { s1.pmu with remote := s1.pmu.remote.erase b } }.twinCompare a b
    | none => { s1 with pmu := { s1.pmu with local_ := s1.pmu.local_ ++ [a] } }

/-- A result of the partner arrives. -/
def State.twinRemote (s : State) (b : TwinRes) : State :=
  if !s.twinOn then s
  else
    match s.pmu.local_.find? (s.twinPair b) with
    | some a => { s with pmu := { s.pmu with local_ := s.pmu.local_.erase a } }.twinCompare a b
    | none => { s with pmu := { s.pmu with remote := s.pmu.remote ++ [b] } }

/-- A result of converter x, of the conversion `c`; a regular one is accepted into its stream at its ready instant, or
up to 200 ns later (R305). -/
def State.pmuResult (s : State) (x : Nat) (c : Conv) (v : Int) (overload fail : Bool) : State :=
  let m := s.mc x
  let ovr := pmuOvr v overload
  let seq := if c.kind = 1 then m.seqReg else m.seqInj
  let r : PmuRec := ⟨c.tts, pmuCode v, pmuInfo c x seq ovr c.clksw (!s.flag Fld.PMU_SEQ_STATUS_CAL_VALID x) fail⟩
  let s1 :=
    if c.kind = 1 then
      let s' := ((s.setPair .PMU_LAST_TTS_LO .PMU_LAST_TTS_HI x r.tts).setReg .PMU_LAST_VALUE x r.value).setReg
        .PMU_LAST_INFO x r.info
      let s'' := (s'.produce 6 x (pmuBytes r) c.ready).modMc x fun m =>
        { m with seqReg := (m.seqReg + 1) % 256, lastReady := some c.ready }
      if setTwin c.settings then s''.twinLocal ⟨x, c.entry, c.tts, r.value, c.ready⟩ r else s''
    else
      let s' := if 4 ≤ m.fifo.length then s.injDrop x 2 1 else s
      (s'.modMc x fun m =>
        { m with seqInj := (m.seqInj + 1) % 256,
                 fifo := (if 4 ≤ m.fifo.length then m.fifo.drop 1 else m.fifo) ++ [r] }).raise0 (370 + x)
  if ovr then s1.raise0 (374 + x) else s1

/-- RUN of a converter clears. -/
def State.pmuStop (s : State) (x : Nat) : State :=
  ((s.setFld Fld.PMU_SEQ_CTRL_RUN x 0).setFld Fld.PMU_SEQ_STATUS_RUNNING x 0).modMc x fun m =>
    { m with next := none, restart := false }

/-- A regular entry has ended: the pass goes on, or is complete (R298). -/
def State.passOn (s : State) (x : Nat) (c : Conv) : State :=
  if !s.flag Fld.PMU_SEQ_STATUS_RUNNING x || c.ended then s
  else if c.entry < s.fld Fld.PMU_SEQ_CTRL_LEN x then s.modMc x fun m => { m with next := some (c.entry + 1) }
  else
    let s1 := (s.modMc x fun m => { m with next := none }).raise0 (368 + x)
    if !s.flag Fld.PMU_SEQ_CTRL_REPEAT x then s1.pmuStop x
    else if s.flag Fld.PMU_SEQ_CTRL_START x then s1
    else s1.modMc x fun m => { m with next := some 0 }

/-- A conversion of converter x is ready. -/
def State.convReady (s : State) (x : Nat) (c : Conv) (q : ConvMeas) : State :=
  let both := x == 0 && s.xchk
  let fail := both && pmuDiffers (pmuCode q.v) (pmuCode q.vB) (s.fld Fld.PMU_XCHK_LIMIT_LSB 0)
  let s1 := s.modMc x fun m => { m with act := none }
  let s2 := s1.pmuResult x c q.v q.overload fail
  let s3 := if both then s2.pmuResult 1 c q.vB q.overloadB fail else s2
  let s4 := if fail then (s3.bump Fld.PMU_XCHK_CNT_COUNT 0 1).raise0 377 else s3
  let s5 := if c.kind = 1 then s4.passOn x c else s4
  if (s.mc x).stopping then ((s5.pmuStop x).modMc x fun m => { m with stopping := false }).pmuShow x
  else
    let m := s5.mc x
    if c.streams && !c.ended && s5.streams x c.settings && s5.reg .PMU_SEQ_ENTRY (16 * x + c.entry) == c.settings &&
        s5.convSpan x c.settings == c.span && (x != 0 || s5.flag Fld.PMU_MC_CFG_XCHK 0 == s5.xchk) &&
        m.queue.isEmpty && !m.cal && m.next == some 0 then
      let d := (s5.filt x (setFilt c.settings)).2 * s5.tMod x
      (s5.modMc x fun m =>
        { m with act := some { c with tts := tuAdd (c.ready - BitVec.ofNat 64 c.span) d, ready := tuAdd c.ready d, restarted := false, step := false,
                                      coast := s5.coasting, clksw := false } }).pmuShow x
    else s5.pmuGo x c.ready

/-- The section has no running clock: multiplexer PMU is stuck, or gate node 25 is closed (R105, R108). -/
def State.pmuClockOff (s : State) : Bool := s.fld Fld.CLK_MUX_STATUS_STATE2 0 == 2 || !s.gateOpen 25

/-- Triggered requests whose instant is not after `t` are queued, in order (R301). -/
def State.pmuArrive (s : State) (t : Tu) : State :=
  s.each 2 fun s x =>
    let hit := (s.mc x).due.filter fun d => tuLe d.1 t
    if hit.isEmpty then s
    else hit.foldl (fun s d => s.inject x d.2 d.1)
      (s.modMc x fun m => { m with due := m.due.filter fun d => !tuLe d.1 t })

/-- CONVERSION_READY (R295, R305). A request that was queued before the ready instant has aborted the conversion. -/
def execConversionReady (t : Tu) (x : Fin 2) (m : ConvMeas) (s : State) : Host.Outcome State Fault Refusal :=
  s.when t fun s =>
    match (s.mc x).act with
    | some c =>
      if (c.kind = 1 ∨ c.kind = 2) ∧ tuLe c.ready s.time ∧ !s.pmuClockOff then
        let s1 := s.pmuArrive (c.ready - 1)
        if (s1.mc x).act = some c then s1.convReady x c m else s1
      else s
    | none => s

/-- PMU_INJ_REQ: a write with GO = 1 (R301). -/
def execPmuInjReq (t : Tu) (x : Fin 2) (v : Word) (s : State) : Host.Outcome State Fault Refusal :=
  s.whenHost t fun s => if v.getLsbD 22 then (s.pmuArrive s.time).inject x v s.time else s

/-- A rising edge of a TRIG_IN line requests an injected conversion where PMU_INJ_TRIG selects it, with the settings that
PMU_INJ_TMPL then holds; the request is queued within 100 ns of the edge, at a free instant (R301). -/
def State.pmuEdge (s : State) (i : Nat) (t : Tu) : State :=
  (s.each 2 fun s x =>
    if s.fld Fld.PMU_INJ_TRIG_SRC x = i then
      s.used.modMc x fun m => { m with due := m.due ++ [(tuAdd t (s.freeBelow (ns 100 + 1)), s.reg .PMU_INJ_TMPL x)] }
    else s).pmuArrive s.time

/-- PMU_CAL_REQ (R303). -/
def execPmuCalReq (t : Tu) (x : Fin 2) (s : State) : Host.Outcome State Fault Refusal :=
  s.whenHost t fun s => (s.pmuArrive s.time).requestCal x

/-- A calibration ends: CAL_VALID and its event, or PMU_CAL_FAIL with the previous values kept (R303). -/
def State.calDone (s : State) (x : Nat) (c : Conv) (good : Bool) : State :=
  let ok (s : State) (y : Nat) := (s.setFld Fld.PMU_SEQ_STATUS_CAL_VALID y 1).raise0 (372 + y)
  let s1 := s.modMc x fun m => { m with act := none }
  let s2 := if good then (if x = 0 ∧ s.xchk then ok (ok s1 0) 1 else ok s1 x) else s1.raise0 380
  if (s.mc x).stopping then ((s2.pmuStop x).modMc x fun m => { m with stopping := false }).pmuShow x
  else s2.pmuGo x c.ready

/-- PMU_CAL_DONE (R303). -/
def execPmuCalDone (t : Tu) (x : Fin 2) (good : Bool) (s : State) : Host.Outcome State Fault Refusal :=
  s.when t fun s =>
    match (s.mc x).act with
    | some c =>
      if c.kind = 3 ∧ tuLe c.ready s.time ∧ !s.pmuClockOff then (s.pmuArrive (c.ready - 1)).calDone x c good else s
    | none => s

/-- Multiplexer PMU is STUCK (R105). -/
def State.pmuStuck (s : State) : Bool := s.fld Fld.CLK_MUX_STATUS_STATE2 0 == 2

/-- A write of PMU_MC_CFG: EN 1 → 0 lets the conversion in progress complete and discards what waits (R308); while
multiplexer PMU is stuck it ends the conversion at once, without a result (R460). -/
def State.writeMcCfg (s : State) (x : Nat) (v : Word) : State :=
  let s0 := (s.pmuArrive s.time).setReg .PMU_MC_CFG x (v &&& (if x = 0 then 7#32 else 3#32))
  let s1 := if s.pmuStuck && s.flag Fld.PMU_MC_CFG_EN x && !v.getLsbD 0 then s0.modMc x fun m => { m with act := none }
    else s0
  let m := s1.mc x
  if s.flag Fld.PMU_MC_CFG_EN x && !v.getLsbD 0 then
    let s2 := (s1.modMc x fun m =>
      { m with queue := [], cal := false, next := none, restart := false, stopping := m.act.isSome }).injDrop x 1
        (m.queue.length + m.cal.toNat)
    (if m.act.isSome then s2 else s2.pmuStop x).pmuShow x
  else if m.act.isNone then s1.pmuGo x s.time
  else s1

/-- PMU_MC_CFG_WRITE (R308). -/
def execPmuMcCfgWrite (t : Tu) (x : Fin 2) (v : Word) (s : State) : Host.Outcome State Fault Refusal :=
  s.whenHost t fun s => s.writeMcCfg x v

/-- A read of PMU_INJ_RES_TTS_LO pops the oldest injected record (R306). -/
def State.injPop (s : State) (x : Nat) : State :=
  match (s.mc x).fifo with
  | [] =>
    (((s.setPair .PMU_INJ_RES_TTS_LO .PMU_INJ_RES_TTS_HI x 0).setReg .PMU_INJ_RES_VALUE x 0).setReg
      .PMU_INJ_RES_INFO x 0).emit (.readData 0)
  | r :: rest =>
    ((((s.setPair .PMU_INJ_RES_TTS_LO .PMU_INJ_RES_TTS_HI x r.tts).setReg .PMU_INJ_RES_VALUE x r.value).setReg
      .PMU_INJ_RES_INFO x ((r.info &&& 0x7FFFFFFF#32) ||| 0x80000000#32)).modMc x fun m =>
        { m with fifo := rest }).emit (.readData (r.tts.setWidth 32))

/-- PMU_INJ_RES_POP (R306). -/
def execPmuInjResPop (t : Tu) (x : Fin 2) (s : State) : Host.Outcome State Fault Refusal :=
  s.whenHost t fun s => (s.pmuArrive s.time).injPop x

/-- PMU_TWIN_MISS: the partner's result did not arrive within 100 µs of the oldest waiting one's ready instant
(R304). -/
def execPmuTwinMiss (t : Tu) (s : State) : Host.Outcome State Fault Refusal :=
  s.when t fun s =>
    match s.pmu.local_ with
    | a :: rest =>
      if tuLe (tuAdd a.ready (ns 100000)) s.time then
        ({ s with pmu := { s.pmu with local_ := rest } }.bump Fld.PMU_TWIN_MISS_CNT_COUNT 0 1).raise0 379
      else s
    | [] => s

/-! ### Ticks -/

/-- PMU_SEQ_CTRL commits at this tick (R298, R308). A sequence that runs on with START changed to 0 between passes
begins its first back-to-back pass there. -/
def State.commitSeqCtrl (s : State) (x : Nat) (v : Word) : State :=
  let was := s.flag Fld.PMU_SEQ_STATUS_RUNNING x
  let run := v.getLsbD 0 && s.flag Fld.PMU_MC_CFG_EN x && !(s.testing 0xC && !was)
  let s1 := (s.setReg .PMU_SEQ_CTRL x (v &&& 0xFF7#32)).setFld Fld.PMU_SEQ_CTRL_RUN x run.toNat
  let s2 := s1.setFld Fld.PMU_SEQ_STATUS_RUNNING x run.toNat
  if run && !was then
    if v.getLsbD 2 then s2.pmuShow x
    else (s2.modMc x fun m => { m with next := some 0 }).pmuNext x s.time
  else if was && !run then
    (s2.modMc x fun m =>
      { m with next := none, restart := false, act := m.act.map fun c => { c with ended := true } }).pmuShow x
  else if run && !v.getLsbD 2 && (s.mc x).next.isNone && !(s.mc x).restart && (s.mc x).act.all (fun c => c.kind != 1) then
    (s2.modMc x fun m => { m with next := some 0 }).pmuNext x s.time
  else s2

/-- A tick starts a pass of a tick-paced sequence (R298). -/
def State.pmuTick (s : State) (x : Nat) : State :=
  if s.flag Fld.PMU_SEQ_STATUS_RUNNING x && s.flag Fld.PMU_SEQ_CTRL_START x && !(x == 1 && s.xchk) &&
      s.frame.toNat % 2 ^ s.fld Fld.PMU_SEQ_CTRL_TDIV x == 0 then
    let m := s.mc x
    if m.next.isSome || m.restart || (m.act.any fun c => c.kind == 1) then s.bump Fld.PMU_SEQ_SKIP_COUNT x 1
    else (s.modMc x fun m => { m with next := some 0 }).pmuNext x s.time
  else s

/-- A STEP of local time by `d` tu: a conversion that contains it carries STEP, with its stamp in the old time (Table
PMU-5); the instants of waiting codes and requests move along. -/
def State.pmuStep (s : State) (d : Int) : State :=
  let m (t : Tu) : Tu := t + BitVec.ofInt 64 d
  let s1 := { s with pmu := { s.pmu with
    force := s.pmu.force.map fun (e : Nat × List ForcePend) =>
      (e.1, e.2.map fun (p : ForcePend) => { p with stamp := m p.stamp }) } }
  s1.each 2 fun s x => s.modMc x fun (y : Mc) =>
    { y with act := y.act.map fun (c : Conv) => { c with step := true, ready := m c.ready },
             lastReady := y.lastReady.map m, due := y.due.map fun (w : Tu × Word) => (m w.1, w.2) }

/-- Multiplexer PMU switches (Table PMU-5). -/
def State.pmuSwitched (s : State) : State :=
  s.each 2 fun s x => s.modMc x fun m => { m with act := m.act.map fun c => { c with clksw := true } }

/-- The source changed before a stamp was taken: the stamp of a conversion still in its wait is taken in the new state
(Table PMU-5). -/
def State.pmuCoast (s : State) : State :=
  s.each 2 fun s x => s.modMc x fun m =>
    { m with act := m.act.map fun c => if tuLt s.time c.tts then { c with coast := s.coasting } else c }

end Sys2Proof.Machine
end

