-- ==== Sys2Proof/Machine/Trg.lean ====
section
/-! DEFINITION. The trigger engine: comparators, generators, trigger inputs and outputs, and the wiring of fires
(chapter 08: R181 to R206, with R92 and R261 for what fires reach). -/

namespace Sys2Proof.Machine

/-! ### Generators and their lanes (R181, R189) -/

/-- SRC_CH of a generator. -/
def State.srcCh (s : State) (g : Nat) : Nat := s.fld Fld.TRG_GEN_SRC_SRC_CH g

/-- TYPE of a generator. -/
def State.genType (s : State) (g : Nat) : Nat := s.fld Fld.TRG_GEN_CFG_TYPE g

/-- SLOPE of a generator; 3 acts as 0. -/
def State.genSlope (s : State) (g : Nat) : Nat := s.fld Fld.TRG_GEN_CFG_SLOPE g % 3

/-- The lane whose comparators a generator reads: SET at or above the interleave factor acts as 0 (R181). -/
def State.genLane (s : State) (g : Nat) : Nat :=
  let ch := s.srcCh g
  let p := s.fld Fld.TRG_GEN_CFG_SET g
  if p < s.ilv (4 * (g / 4)) then ch + p else ch

/-- No output is possible (R14, R189): a disconnected channel, no channel and not EXTERNAL, or EXTERNAL without an
input. -/
def State.genNoSource (s : State) (g : Nat) : Bool :=
  let ch := s.srcCh g
  let ext := s.genType g == 5
  (ch == 0xFF && !ext) || (ch != 0xFF && s.chanOff ch) || (ext && decide (24 ≤ s.fld Fld.TRG_GEN_CFG_XSEL g))

/-- SEQ_MODE of a generator; 3 acts as 0 (R192). -/
def State.seqMode (s : State) (g : Nat) : Nat := s.fld Fld.TRG_GEN_CFG_SEQ_MODE g % 3

/-- The A generator of a generator. -/
def State.seqA (s : State) (g : Nat) : Nat := 4 * (g / 4) + s.fld Fld.TRG_GEN_CFG_SEQ_A g

/-- The A chain of a generator leads back to it within `n` links (R193). -/
def State.loops (s : State) (g : Nat) : Nat → Nat → Bool
  | 0, _ => false
  | n + 1, a => s.seqMode a != 0 && (s.seqA a == g || s.loops g n (s.seqA a))

/-- SEQ_LOOP of a generator. -/
def State.seqLoop (s : State) (g : Nat) : Bool := s.loops g 4 g

/-- SEQ_LOOP and NO_SOURCE of a cluster's generators follow the settings; SEQ_LOOP raises TRG_CLUSTER when it sets
(Table TRG-9). -/
def State.noteGens (s : State) (c : Nat) : State :=
  (List.range 4).foldl (fun s i =>
    let g := 4 * c + i
    let s1 := (s.setFld Fld.TRG_GEN_STATUS_NO_SOURCE g (s.genNoSource g).toNat).setFld
      Fld.TRG_GEN_STATUS_SEQ_LOOP g (s.seqLoop g).toNat
    if s.seqLoop g && !s.flag Fld.TRG_GEN_STATUS_SEQ_LOOP g then
      s1.raise (256 + c) 2 (g + 16 * (if s.srcCh g = 0xFF then 0 else s.genLane g))
    else s1) s

/-- The generator may produce output. -/
def State.genLive (s : State) (g : Nat) : Bool :=
  s.flag Fld.TRG_GEN_CFG_EN g && !s.genNoSource g && !s.seqLoop g && !s.clusterAsleep (g / 4)

/-! ### Where a fire goes (R182) -/

/-- A fire on the outputs of a mask: [3:0] TRIG_OUT, [4] the timing link with message type `typ` and number `n`. -/
def State.fireOut (s : State) (mask typ n : Nat) (tts : Tu) : State :=
  let s1 := (bitsOf 4 mask).foldl (fun s i =>
    if s.flag Fld.HUB_TRIG_OUT_CFG_EN i then s.firePulse i tts else s) s
  if mask.testBit 4 then s1.tlkSend (tlkMsg typ n (tts.toNat % 2 ^ 48)) else s1

/-- Time references in order of time, the latest first. -/
def refIns : List Tu → Tu → List Tu
  | [], x => [x]
  | r :: l, x => if tuLt x r then r :: refIns l x else x :: r :: l

/-- A fire becomes a time reference of the planes that name its generator; in WINDOW mode not one inside an open
window (R261). The latest 64 are kept. -/
def State.accRef (s : State) (g : Nat) (tts : Tu) : State :=
  (List.range 4).foldl (fun s i =>
    let p := 4 * (g / 4) + i
    if s.fld Fld.ACC_PLANE_SRC_CH p = 0xFF ∨ s.fld Fld.ACC_PLANE_CFG_REF p ≠ g % 4 then s
    else
      let pl := tget Plane.init s.planes p
      let xofs := max (-196608) (sgn 32 (s.fld Fld.ACC_PLANE_XOFS_XOFS p))
      let wide := 16 * clampN 1 128 (s.fld Fld.ACC_PLANE_X_XB p) * max 4 (s.fld Fld.ACC_PLANE_X_BIN p)
      let inside := match pl.refs.find? fun r => tuLe r tts with
        | none => false
        | some r => !s.flag Fld.ACC_PLANE_CFG_XMODE p && decide (tuDiff r tts < xofs + wide)
      if inside then s
      else
        ({ s with planes := tput Plane.init s.planes p { pl with refs := (refIns pl.refs tts).take 64 } }).setFld
          Fld.ACC_PLANE_STATUS_NOREF p 0) s

/-- Generator g fires at a time stamp: status, counter, stamp and holdoff; regions, outputs, counters and planes. A
sequence wait ends unless the fire is forced (R191, R192, R195). -/
def State.fire (s : State) (g : Nat) (tts : Tu) (forced : Bool) : State :=
  let s1 := (s.bump Fld.TRG_GEN_CNT_COUNT g 1).setPair .TRG_GEN_TTS_LO .TRG_GEN_TTS_HI g tts
  let s2 := s1.setFld Fld.TRG_GEN_STATUS_FIRED g 1
  let s3 := if s.flag Fld.TRG_GEN_STATUS_FIRED g then s2 else s2.raise0 (208 + g)
  let s4 := s3.modGen g fun x =>
    { x with fired := some tts, skip := s.fld Fld.TRG_GEN_HOLDCNT_COUNT g,
             waitA := if forced then x.waitA else none }
  let s5 := (s4.fireRegions (s.fld Fld.TRG_GEN_REGIONS_REGION_MASK g) ⟨tts, g, false⟩).fireOut
    (s.fld Fld.TRG_GEN_SRC_OUT_MASK g) 8 g tts
  let s6 := (s5.ticSource (g / 4) (0x10 + g % 4) tts false true false).accRef g tts
  { s6 with gln := { s6.gln with fires := s6.gln.fires + 1 } }

/-- An XTRIG instance fires under its record's wiring (R182). -/
def State.xfire (s : State) (x : Nat) (tts : Tu) : State :=
  (s.fireRegions (recFld s.pitch.recs 4 x 0 4 0) ⟨tts, 16 + x, false⟩).fireOut (recFld s.pitch.recs 4 x 4 1 0) 9 x tts

/-! ### Holdoff, sequence and rate (R191, R192, R194) -/

/-- A condition at `t` falls to the holdoff of the last fire; one stamped before that fire does not. -/
def State.heldOff (s : State) (g : Nat) (t : Tu) : Bool :=
  let x := s.gen g
  let mode := s.fld Fld.TRG_GEN_CFG_HO_MODE g
  match x.fired with
  | none => false
  | some f =>
    let time := tuLe f t && tuLt t (tuAdd f (ns (s.fld Fld.TRG_GEN_HOLDOFF_TIME g)))
    let count := x.skip != 0
    if mode = 1 then time else if mode = 2 then count else if mode = 3 then time || count else false

/-- SEQ_MAX has passed for a wait at `t`; 0 sets no limit. -/
def State.seqOver (s : State) (g : Nat) (ta t : Tu) : Bool :=
  let m := s.fld Fld.TRG_GEN_SEQ_MAX_MAX g
  m != 0 && tuLt (tuAdd ta m) t

/-- A generator that is due to fire fires, unless it has fired in this pipeline cycle: the condition is then lost and
counted, and the sequence wait stands (R194). -/
def State.fireOrLose (s : State) (g : Nat) (t : Tu) : State × Bool :=
  let c := g / 4
  if (s.gen g).fired.any fun f => s.pipeCycle c f == s.pipeCycle c t then
    let info := g + 16 * (if s.srcCh g = 0xFF then 0 else s.genLane g)
    (s.bumpRaise Fld.TRG_GEN_LOST_COUNT g (256 + c) 1 info, false)
  else (s.fire g t false, true)

/-- A condition of generator g at `t`: holdoff, then sequence, then rate. The second part tells whether it fired. -/
def State.condition (s : State) (g : Nat) (t : Tu) : State × Bool :=
  if s.heldOff g t then (s.modGen g fun x => { x with skip := x.skip - 1 }, false)
  else if s.seqMode g = 0 then s.fireOrLose g t
  else
    match (s.gen g).waitA with
    | none => (s, false)
    | some (ta, n) =>
      if !tuLt ta t then (s, false)
      else if s.seqOver g ta t then (s.modGen g fun x => { x with waitA := none }, false)
      else if s.seqMode g = 1 then
        if tuLe (tuAdd ta (s.fld Fld.TRG_GEN_SEQ_MIN_MIN g)) t then s.fireOrLose g t else (s, false)
      else if max 1 (s.fld Fld.TRG_GEN_SEQ_N_N g) ≤ n + 1 then s.fireOrLose g t
      else (s.modGen g fun x => { x with waitA := some (ta, n + 1) }, false)

/-- A fire of generator a starts, or restarts, the wait of every generator that names it as its A, but not of one in
holdoff (R192), nor of one that restarts only after it (R190). -/
def State.startWaits (s : State) (a : Nat) (t : Tu) : State :=
  (List.range 4).foldl (fun s i =>
    let g := 4 * (a / 4) + i
    if s.seqMode g ≠ 0 ∧ s.seqA g = a ∧ !s.heldOff g t ∧ tuLe (s.gen g).from_ t then
      s.modGen g fun x => { x with waitA := some (t, 0) }
    else s) s

/-- Conditions at one instant on the generators of a cluster that `p` picks: all are judged before their fires start
the waits of others. -/
def State.conditions (s : State) (c : Nat) (t : Tu) (p : Nat → Bool) : State :=
  let r := (List.range 4).foldl (fun (s, fired) i =>
    let g := 4 * c + i
    if s.genLive g && tuLe (s.gen g).from_ t && p g then
      let (s', b) := s.condition g t
      (s', if b then fired ++ [g] else fired)
    else (s, fired)) (s, ([] : List Nat))
  r.2.foldl (fun s a => s.startWaits a t) r.1

/-! ### Comparators (R183 to R188, R190) -/

/-- QUAL passes a width (R187). -/
def State.qualOk (s : State) (g : Nat) (w : Nat) : Bool :=
  let a := s.fld Fld.TRG_GEN_T1_T1 g
  let b := s.fld Fld.TRG_GEN_T2_T2 g
  let q := s.fld Fld.TRG_GEN_CFG_QUAL g
  if q = 1 then decide (w < a) else if q = 2 then decide (a < w) else if q = 3 then decide (a ≤ w ∧ w ≤ b)
  else if q = 4 then decide (w < a ∨ b < w) else true

/-- The width from an opening stamp that the generator has seen passes QUAL. -/
def State.widthOk (s : State) (g : Nat) (o : Option Tu) (t : Tu) : Bool :=
  match o with
  | none => false
  | some o => tuLe (s.gen g).from_ o && s.qualOk g (tuDiff o t).toNat

/-- Whether a stamp lies at or after another; none lies before every one. -/
def atOrAfter (x : Option Tu) (o : Option Tu) : Bool :=
  match x, o with
  | some x, some o => tuLe o x
  | _, _ => false

/-- The pattern inputs of a cluster, 8 bits (R188). -/
def State.patInputs (s : State) (c : Nat) : Nat :=
  ((List.range 4).map fun i => 4 ^ i * getBits (s.reg .TRG_COMP_STATE (4 * c + i)) 0 2).sum

/-- The pattern of a generator is true on these inputs. -/
def State.patTrue (s : State) (g inputs : Nat) : Bool :=
  let m := s.fld Fld.TRG_GEN_PAT_MASK g
  inputs &&& m == s.fld Fld.TRG_GEN_PAT_VALUE g &&& m

/-- SLOPE takes an entering (or rising, or positive) condition, or a leaving one. -/
def slopeTakes (slope : Nat) (up : Bool) : Bool := if slope = 0 then up else if slope = 1 then !up else true

/-- The crossing completes the condition of generator g (Table TRG-2). `s`: before the crossing is noted; `x`: the
lane's stamps before it; `i0`, `i1`: the pattern inputs before and after it. -/
def State.crossed (s : State) (g ln : Nat) (lo rise : Bool) (t : Tu) (x : Comp) (i0 i1 : Nat) : Bool :=
  let slope := s.genSlope g
  let own := s.genLane g == ln
  let hi0 := i0.testBit (2 * (ln % 4))
  let lo0 := i0.testBit (2 * (ln % 4) + 1)
  let hi1 := i1.testBit (2 * (ln % 4))
  let lo1 := i1.testBit (2 * (ln % 4) + 1)
  match s.genType g with
  | 0 => own && !lo && slopeTakes slope rise
  | 1 => own && ((lo0 && !hi0) != (lo1 && !hi1)) && slopeTakes slope (lo1 && !hi1)
  | 2 =>
    own && ((!lo && !rise && slopeTakes slope true && s.widthOk g x.hiRise t) ||
      (lo && rise && slopeTakes slope false && s.widthOk g x.loFall t))
  | 3 =>
    own && ((lo && !rise && slopeTakes slope true && !atOrAfter x.hiRise x.loRise && s.widthOk g x.loRise t) ||
      (!lo && rise && slopeTakes slope false && !atOrAfter x.loFall x.hiFall && s.widthOk g x.hiFall t))
  | 4 =>
    let was := s.patTrue g i0
    let is_ := s.patTrue g i1
    let q := s.fld Fld.TRG_GEN_CFG_QUAL g
    let leaves := was && !is_ && s.widthOk g (s.gen g).patSince t
    if 1 ≤ q ∧ q ≤ 4 then leaves
    else (!was && is_ && slopeTakes slope true) || (leaves && slopeTakes slope false)
  | _ => false

/-- The pattern span of a generator follows the inputs; a span begun before `from_` does not count (R190). -/
def State.notePattern (s : State) (g i0 i1 : Nat) (t : Tu) : State :=
  if s.patTrue g i1 then
    if !s.patTrue g i0 && tuLe (s.gen g).from_ t then s.modGen g fun x => { x with patSince := some t } else s
  else s.modGen g fun x => { x with patSince := none }

/-- The stamps of a lane's comparators after a crossing, which also tells the output. -/
def noteCrossing (x : Comp) (lo rise : Bool) (t : Tu) : Comp :=
  if lo then { (if rise then { x with loRise := some t } else { x with loFall := some t }) with loKnown := true }
  else { (if rise then { x with hiRise := some t } else { x with hiFall := some t }) with hiKnown := true }

/-- The comparator can make a stamped crossing at `t`: its output changes by it, and it lies 40 ps or more after the
comparator's last stamp, since crossings closer than that are merged and none of the two is stamped (R183, R185; log
41). -/
def State.crosses (s : State) (ln : Nat) (lo rise : Bool) (t : Tu) : Bool :=
  let x := s.comp ln
  let out := s.flag (if lo then Fld.TRG_COMP_STATE_LO else Fld.TRG_COMP_STATE_HI) ln
  let known := if lo then x.loKnown else x.hiKnown
  let last := if lo then [x.loRise, x.loFall] else [x.hiRise, x.hiFall]
  !(known && out == rise) && last.all fun o => o.all fun l => tuLe (tuAdd l 327) t

/-- A comparator crosses its level: output, generators of the cluster, counters (R184, R276). -/
def State.crossing (s : State) (ln : Nat) (lo rise : Bool) (t : Tu) : State :=
  let c := ln / 4
  let bit := 2 * (ln % 4) + lo.toNat
  let old := s.patInputs c
  let rest := old - (if old.testBit bit then 2 ^ bit else 0)
  let i0 := rest + (if rise then 0 else 2 ^ bit)
  let i1 := rest + (if rise then 2 ^ bit else 0)
  let x := s.comp ln
  let hit := (List.range 4).filter fun i => s.crossed (4 * c + i) ln lo rise t x i0 i1
  let s1 := (s.setFld (if lo then Fld.TRG_COMP_STATE_LO else Fld.TRG_COMP_STATE_HI) ln rise.toNat)
  let s2 := { s1 with comps := tput Comp.init s1.comps ln (noteCrossing x lo rise t) }
  let s3 := (List.range 4).foldl (fun s i => s.notePattern (4 * c + i) i0 i1 t) s2
  let s4 := s3.conditions c t fun g => hit.contains (g % 4)
  s4.ticSource c (2 * (ln % 4) + lo.toNat) t true rise (s.stale ln)

/-! ### Timing-link triggers (R92) -/

/-- A timing-link trigger takes place at the time that it names: XTRIG 8, the EXTERNAL generators of its line, and the
counters. -/
def State.trigLine (s : State) (line : Nat) (tts : Tu) : State :=
  let s1 := s.xfire 8 tts
  let s2 := s1.each 4 fun s c =>
    s.conditions c tts fun g => s.genType g == 5 && s.fld Fld.TRG_GEN_CFG_XSEL g == 8 + line
  s2.ticAll (0x28 + line) tts false true

/-- Triggers in order of time. -/
def trigIns : List (Nat × Tu) → Nat × Tu → List (Nat × Tu)
  | [], x => [x]
  | y :: l, x => if tuLt x.2 y.2 then x :: y :: l else y :: trigIns l x

/-! ### Forced fires (R195) -/

/-- A generator that a forced fire reaches: enabled, and neither in a sequence loop (R193), nor bound to a disconnected
channel (R14), nor without a channel where it is not EXTERNAL (R189), nor of a TYPE without a condition (Table TRG-2): each of
these produces no output. A forced fire ignores the condition, so it needs no input (R195; log 23). -/
def State.forceable (s : State) (g : Nat) : Bool :=
  let ch := s.srcCh g
  let ty := s.genType g
  s.flag Fld.TRG_GEN_CFG_EN g && !s.seqLoop g && !s.clusterAsleep (g / 4) && decide (ty < 6) &&
    (if ch = 0xFF then ty == 5 else !s.chanOff ch)

/-- TRG_FORCE: each enabled generator named is to fire at the start of the first pipeline cycle at least 40 ns later. -/
def State.force (s : State) (c bits : Nat) : State :=
  (bitsOf 4 bits).foldl (fun s i =>
    let g := 4 * c + i
    let tts := s.pipeStart c (tuAdd s.time (ns 40))
    if s.forceable g && !(s.gen g).forced.contains tts then
      s.modGen g fun x => { x with forced := x.forced ++ [tts] }
    else s) s

/-- The forced fires of a cluster at an instant: each fires, where it still produces output, and then starts the waits of
others. -/
def State.forceFires (s : State) (c : Nat) (t : Tu) : State :=
  let gs := ((List.range 4).map (4 * c + ·)).filter fun g => (s.gen g).forced.contains t
  let s1 := gs.foldl (fun s g => s.modGen g fun x => { x with forced := x.forced.filter (· != t) }) s
  let live := gs.filter s.forceable
  live.foldl (fun s g => s.startWaits g t) (live.foldl (fun s g => s.fire g t true) s1)

/-! ### What waits for its instant -/

/-- The timing-link triggers, as 4 + line, and the forced fires, as their cluster, that fall due by `t`, in order of
time. -/
def State.trigsDue (s : State) (t : Tu) : List (Nat × Tu) :=
  let links := (s.tlk.trigs.filter fun x => tuLe x.2 t).map fun x => (4 + x.1, x.2)
  let forced := (List.range 16).flatMap fun g => ((s.gen g).forced.filter fun f => tuLe f t).map fun f => (g / 4, f)
  forced.eraseDups.foldl trigIns links

/-- The waiting triggers that fall due by `t` take place, in order of time. -/
def State.placeTrigsTo (s : State) (t : Tu) : State :=
  (s.trigsDue t).foldl (fun s x => if x.1 < 4 then s.forceFires x.1 x.2 else s.trigLine (x.1 - 4) x.2)
    { s with tlk := { s.tlk with trigs := s.tlk.trigs.filter fun x => !tuLe x.2 t } }

/-- The waiting triggers whose time has come take place. -/
def State.placeTrigs (s : State) : State := s.placeTrigsTo s.time

/-! ### Commits (R183, R190) -/

/-- A generator restarts 2 ns after this tick: sequence and spans begun before do not qualify; holdoff is kept. -/
def State.restartGen (s : State) (g : Nat) : State :=
  s.modGen g fun x => { x with from_ := tuAdd s.time (ns 2), patSince := none, waitA := none }

/-- A TRG_GEN register commits. -/
def State.commitGen (s : State) (n : RegName) (g : Nat) (v : Word) : State :=
  let v' := match n with
    | .TRG_GEN_CFG => v &&& 0x3FFFFF#32
    | .TRG_GEN_PAT | .TRG_GEN_SEQ_N => v &&& 0xFFFF#32
    | .TRG_GEN_HOLDCNT => v &&& 0xFFFFFF#32
    | _ => v
  ((s.setReg n g v').restartGen g).noteGens (g / 4)

/-- The generator reads a lane's comparators. -/
def State.readsLane (s : State) (g ln : Nat) : Bool :=
  g / 4 == ln / 4 && (if s.genType g = 4 then getBits (s.reg .TRG_GEN_PAT g) (2 * (ln % 4)) 2 != 0
    else s.srcCh g != 0xFF && s.genLane g == ln)

/-- The comparators of a lane take their state from the input alone, which is a free value, and hold no stamp (R183);
pattern spans follow. -/
def State.freshComp (s : State) (ln : Nat) : State :=
  let i0 := s.patInputs (ln / 4)
  let s1 := { (s.used.setFld Fld.TRG_COMP_STATE_HI ln (s.freeBelow 2)).setFld Fld.TRG_COMP_STATE_LO ln
      (Config.freeNat (s.free + 1) % 2) with free := s.free + 2, comps := tput Comp.init s.comps ln Comp.init }
  (List.range 4).foldl (fun s i =>
    s.notePattern (4 * (ln / 4) + i) i0 (s1.patInputs (ln / 4)) s.time) s1

/-- TRG_LEVEL or TRG_HYST of a lane commits: its comparators start afresh, and the generators that read it restart. -/
def State.commitLevel (s : State) (n : RegName) (ln : Nat) (v : Word) : State :=
  let v' := match n with
    | .TRG_LEVEL => v &&& 0xFFF0FFF#32
    | _ => v &&& 0xFFFF#32
  let s1 := (s.setReg n ln v').freshComp ln
  (List.range 16).foldl (fun s g => if s.readsLane g ln then s.restartGen g else s) s1

/-! ### Commands -/

/-- `off`: an offset of a stamp beyond ±1 ps outside CAL_STALE. It raises the cluster's event (Table TRG-9); the manual names no
generator for this cause, so its number is a free value (log 48). -/
def State.tdcOffset (s : State) (ln : Nat) (off : Bool) : State :=
  if off then s.used.raise (256 + ln / 4) 4 (s.freeBelow 16 + 16 * ln) else s

/-- COMPARATOR_CROSSING (R184): a crossing that the TDC stamps. A lane without a clock sees none. -/
def execComparatorCrossing (t : Tu) (ln : Fin 16) (lo rise tdcOff : Bool) (s : State) :
    Host.Outcome State Fault Refusal :=
  s.when t fun s =>
    let x := s.stamp t
    let s1 := s.placeTrigsTo x
    if s1.laneOff ln || !s1.crosses ln lo rise x then s1
    else (s1.crossing ln lo rise x).tdcOffset ln (tdcOff && !s1.stale ln)

/-- TRG_FORCE (R195). -/
def execTrgForce (t : Tu) (c : Fin 4) (bits : BitVec 4) (s : State) : Host.Outcome State Fault Refusal :=
  s.whenHost t fun s => if s.clusterAsleep c then s else s.placeTrigs.force c bits.toNat

/-- HUB_TRIG_IN_CFG.EDGE selects an edge: 0 rising, 1 falling, 2 both, 3 off. -/
def trigInTakes (sel : Nat) (rise : Bool) : Bool := if sel = 0 then rise else if sel = 1 then !rise else sel == 2

/-- An edge that the TDC of TRIG_IN line i detects, so none of a pulse shorter than 1 ns (R205; log 41): one within 1 ns
of the previous detected edge is ignored. A detected edge counts and reaches the time-interval counters and the converters;
a selected one fires XTRIG i and feeds the EXTERNAL generators. -/
def State.trigInEdge (s : State) (i : Nat) (rise : Bool) (t : Tu) : State :=
  let prev := tget 0 s.trigIn i
  if prev ≠ 0 ∧ tuLt t (tuAdd prev (ns 1)) = true then s
  else
    let s1 := { s with trigIn := tput 0 s.trigIn i t }.bump Fld.HUB_TRIG_IN_CNT_COUNT i 1
    let s2 := if i < 4 then s1.raise0 (264 + i) else s1
    let s3 := if trigInTakes (s.fld Fld.HUB_TRIG_IN_CFG_EDGE i) rise then
        (s2.xfire i t).each 4 fun s c =>
          s.conditions c t fun g => s.genType g == 5 && s.fld Fld.TRG_GEN_CFG_XSEL g == i
      else s2
    let s4 := s3.ticAll (0x18 + i) t true rise
    if rise then s4.pmuEdge i t else s4

/-- TRIG_IN_EDGE (R205). -/
def execTrigInEdge (t : Tu) (i : Fin 8) (rise : Bool) (s : State) : Host.Outcome State Fault Refusal :=
  s.when t fun s => (s.placeTrigsTo (s.stamp t)).trigInEdge i rise (s.stamp t)

/-- The first waiting pulse of a line takes place at its edge time; one whose edge falls before the end of the current
pulse plus 4 ns merges into it (R206). A disabled output drives inactive. -/
def State.pulseOut (s : State) (i : Nat) : State :=
  let l := tget TrigLine.init s.trigOut i
  match l.waiting with
  | [] => s
  | p :: rest =>
    if !tuLe p.edge s.time then s
    else
      let stop := tuAdd p.edge (ns p.width)
      let put (l : TrigLine) : State := { s with trigOut := tput TrigLine.init s.trigOut i l }
      if !s.flag Fld.HUB_TRIG_OUT_CFG_EN i then put ⟨rest, none⟩
      else
        match l.stop.filter fun e => tuLt p.edge (tuAdd e (ns 4)) with
        | some e =>
          ((put ⟨rest, some stop⟩).emit (.trigOut i e stop p.low)).bump Fld.HUB_TRIG_OUT_MERGED_COUNT i 1
        | none => (put ⟨rest, some stop⟩).emit (.trigOut i p.edge stop p.low)

/-- TRIG_OUT_PULSE (R206): at the edge time of the first waiting pulse, or now where that has passed. -/
def execTrigOutPulse (i : Fin 4) (s : State) : Host.Outcome State Fault Refusal :=
  let t := match (tget TrigLine.init s.trigOut i).waiting.head? with
    | some p => if tuLe s.time p.edge then p.edge else s.time
    | none => s.time
  s.when t fun s => s.placeTrigs.pulseOut i

end Sys2Proof.Machine
end

