-- ==== Sys2Proof/Machine/Capture.lean ====
section
/-! DEFINITION. The commands of regions and time-interval counters that what the trigger engine still holds back may change:
fire decisions and continuous blocks (R201, R214), and the closings and the CLKIN edges of the counters (R278 to R283). -/

namespace Sys2Proof.Machine

/-! ### Regions -/

/-- REGION_FIRE_DECISION: the oldest group's trigger sample has left the decision window, 72 ns after its instant (R20,
R201). -/
def execRegionFireDecision (t : Tu) (m : Fin 32) (s : State) : Host.Outcome State Fault Refusal :=
  s.when t fun s =>
    let s1 := s.placeTrigs
    match s1.headInstant m with
    | none => s1
    | some T => if (T.add (.ofInt (ns 72))).le (.ofTu s1.time) then s1.judge m else s1

/-- CONTINUOUS_BLOCK (R214, R224, R225). -/
def execContinuousBlock (t : Tu) (m : Fin 32) (runs : List (List Sample)) (s : State) :
    Host.Outcome State Fault Refusal :=
  s.when t fun s => (s.placeTrigs.blocksNow m).closeBlock m runs

/-! ### Closings of measurements -/

/-- TIC_TIMEOUT (R283). -/
def execTicTimeout (i : Fin 32) (s : State) : Host.Outcome State Fault Refusal :=
  s.when s.time fun s =>
    let s := s.placeTrigs
    match s.ticDeadline i with
    | some d => if s.ticLive i && tuLe d s.time then s.ticEnd i tsTimeout d else s
    | none => s

/-- TIC_WINDOW_END (R282). -/
def execTicWindowEnd (i : Fin 32) (s : State) : Host.Outcome State Fault Refusal :=
  s.when s.time fun s =>
    let s := s.placeTrigs
    match s.ticWindowEnd i with
    | some w => if s.ticLive i && tuLe w s.time then s.ticWindowOver i else s
    | none => s

/-- TIC_GATE_END (R279). -/
def execTicGateEnd (i : Fin 32) (s : State) : Host.Outcome State Fault Refusal :=
  s.when s.time fun s => let s := s.placeTrigs; if s.ticGateDue i s.time then s.ticGateEnd i else s

/-! ### CLKIN (R278) -/

/-- The prescaler divides by 2^PS: 6 and 7 act as 5. -/
def State.clkinPs (s : State) : Nat := min 5 (s.fld Fld.CLK_CLKIN_CFG_PS 0)

/-- A prescaled edge is delivered; a rising one that lies less than 0.8 ns after the last, a rate above 1.25 GHz, sets
RATE_ERR instead (log 104). -/
def State.clkinOut (s : State) (t : Tu) (rise : Bool) : State :=
  if rise && s.clk.clkinAt.any (fun l => decide (5 * tuDiff l t < 32768)) then s.setFld Fld.CLK_CLKIN_CFG_RATE_ERR 0 1
  else
    (if rise then { s with clk := { s.clk with clkinAt := some t } } else s).ticAll 0x20 t true rise

/-- An edge at the ball: without division it is itself the prescaled edge. Otherwise rising edges are counted; the
prescaled signal rises with every 2^PS-th, and falls halfway between (log 104). -/
def State.clkinEdge (s : State) (t : Tu) (rise : Bool) : State :=
  if s.clkinPs = 0 then s.clkinOut t rise
  else if !rise then s
  else
    let n := s.clk.clkin + 1
    let full := 2 ^ s.clkinPs
    let put (n : Nat) : State := { s with clk := { s.clk with clkin := n } }
    if full ≤ n then (put 0).clkinOut t true else if n = full / 2 then (put n).clkinOut t false else put n

/-- CLKIN_EDGE: an edge at the ball; none is delivered while RATE_ERR is set or node 29 is closed (R278). -/
def execClkinEdge (t : Tu) (rise : Bool) (s : State) : Host.Outcome State Fault Refusal :=
  s.when t fun s =>
    let x := s.stamp t
    let s1 := s.placeTrigsTo x
    if s1.flag Fld.CLK_CLKIN_CFG_RATE_ERR 0 || !s1.gateOpen 29 then s1 else s1.clkinEdge x rise

end Sys2Proof.Machine
end

