-- ==== Sys2Proof/Machine/Acc.lean ====
section
/-! DEFINITION. Density accumulation and mask testing (chapter 11: R259 to R275). -/

namespace Sys2Proof.Machine

/-! ### Planes (R259, R260) -/

/-- The plane exists. -/
def State.hasPlane (s : State) (p : Nat) : Bool := s.fld Fld.ACC_PLANE_SRC_CH p != 0xFF

/-- YBINS: 5 to 7 act as 2. -/
def State.yBins (s : State) (p : Nat) : Nat :=
  let y := s.fld Fld.ACC_PLANE_Y_YB p
  64 * 2 ^ (if y < 5 then y else 2)

/-- XBINS, limited by the product of R260. -/
def State.xBins (s : State) (p : Nat) : Nat :=
  min (16 * max 1 (s.fld Fld.ACC_PLANE_X_XB p)) (131072 / s.yBins p)

/-- BIN in tu: at least 4. -/
def State.binTu (s : State) (p : Nat) : Nat := max 4 (s.fld Fld.ACC_PLANE_X_BIN p)

/-- XOFS in tu: at least −196,608. -/
def State.xOfs (s : State) (p : Nat) : Int := max (-196608) (sgn 32 (s.fld Fld.ACC_PLANE_XOFS_XOFS p))

/-- The fold period in 1/256 tu: at least 0x400. -/
def State.foldUi (s : State) (p : Nat) : Nat := max 0x400 (s.fld Fld.ACC_PLANE_UI_UI p)

/-- Planes of a cluster at EN = 1. -/
def State.planesOn (s : State) (c : Nat) : Nat :=
  ((List.range 4).filter fun i => s.hasPlane (4 * c + i) && s.flag Fld.ACC_PLANE_CFG_EN (4 * c + i)).length

/-- The stride of a cluster's planes (R265). -/
def State.stride (s : State) (c : Nat) : Nat := max 1 (ceilDiv (s.planesOn c * s.ilv (4 * c)) 4)

/-! ### Placing a sample (R261 to R263) -/

/-- The sample carries a flag that the plane excludes. -/
def State.excluded (s : State) (p : Nat) (x : Sample) : Bool :=
  (x.ovr && s.flag Fld.ACC_PLANE_CFG_EXCL_OVR p) || (x.clkbad && s.flag Fld.ACC_PLANE_CFG_EXCL_CLKBAD p) ||
    (x.step && s.flag Fld.ACC_PLANE_CFG_EXCL_STEP p)

/-- The instant of sample j of a plane's source. -/
def State.planeInstant (s : State) (p : Nat) (j : Int) : Ratio := s.sampleInstant (p / 8) (s.ilv (4 * (p / 4))) j

/-- The time reference of a sample: the latest fire at or before t − min(XOFS, 0). -/
def State.tRef (s : State) (p : Nat) (t : Ratio) : Option Tu :=
  (tget Plane.init s.planes p).refs.find? fun r => (Ratio.ofTu r).le (t.add (.ofInt (-(min (s.xOfs p) 0))))

/-- The column of a sample. -/
def State.column (s : State) (p : Nat) (t : Ratio) : Option Nat :=
  match s.tRef p t with
  | none => none
  | some r =>
    let d := t.sub (.ofInt (r.toNat + s.xOfs p))
    let past := t.sub (.ofTu r)
    let span := s.fld Fld.ACC_PLANE_SPAN_SPAN p
    if d.num < 0 then none
    else
      let x :=
        if s.flag Fld.ACC_PLANE_CFG_XMODE p then
          if span != 0 && !past.le (.ofInt span) then none
          else
            some (((d.num * 256) % (s.foldUi p * d.den : Nat)).toNat / (256 * d.den * s.binTu p))
        else some (d.num.toNat / (d.den * s.binTu p))
      x.filter (· < s.xBins p)

/-- The row of a code (R262). -/
def State.row (s : State) (p : Nat) (code : BitVec 10) : Option Nat :=
  let y := (code.toInt - sgn 10 (s.fld Fld.ACC_PLANE_Y_Y_BASE p)) / (2 ^ s.fld Fld.ACC_PLANE_Y_Y_SHIFT p : Nat)
  if 0 ≤ y ∧ y < s.yBins p then some y.toNat else none

/-- The bin of a sample at instant `t` that is not excluded; none where it is not placed. -/
def State.binOf (s : State) (p : Nat) (t : Ratio) (x : Sample) : Option Nat :=
  match s.column p t, s.row p x.code with
  | some c, some r => some (r * s.xBins p + c)
  | _, _ => none

/-- The count of a bin. -/
def State.bin (s : State) (p b : Nat) : Nat := tget 0 s.bins (131072 * p + b)

/-- Bytes with those from an offset on replaced. -/
def putAt (bs : List Byte) (o : Nat) (new : List Byte) : List Byte := bs.take o ++ new ++ bs.drop (o + new.length)

/-- A snapshot's bytes with one more sample in bin b (Table ACC-3). -/
def snapCount (bs : List Byte) (b : Nat) : List Byte :=
  let v := leAt bs (64 + 4 * b) 4
  let bs1 := putAt bs 28 (leBytes 8 (leAt bs 28 8 + 1))
  if v = 0xFFFFFFFF then putAt bs1 7 [bs1.getD 7 0 ||| 1] else putAt bs1 (64 + 4 * b) (leBytes 4 (v + 1))

/-- A snapshot of plane p holds every sample before its tick, one placed after the commit too (R267). -/
def State.snapLate (s : State) (p b : Nat) (t : Ratio) : State :=
  { s with snaps := s.snaps.map fun e =>
      if e.2.plane = p ∧ t.lt (.ofTu e.2.at_) then (e.1, { e.2 with bytes := snapCount e.2.bytes b }) else e }

/-- The sample lies before the plane's last clear (R266). -/
def State.beforeClear (s : State) (p : Nat) (t : Ratio) : Bool :=
  (tget Plane.init s.planes p).clearedAt.any fun x => t.lt (.ofTu x)

/-- A sample placed in bin b is counted; a saturated bin stays and sets SAT (R264). -/
def State.countBin (s : State) (p b : Nat) : State :=
  let v := s.bin p b
  let s1 := s.setPair .ACC_PLANE_TOTAL_LO .ACC_PLANE_TOTAL_HI p
    (s.pair .ACC_PLANE_TOTAL_LO .ACC_PLANE_TOTAL_HI p + 1)
  if v = 0xFFFFFFFF then s1.setFld Fld.ACC_PLANE_STATUS_SAT p 1
  else { s1 with bins := tput 0 s1.bins (131072 * p + b) (v + 1) }

/-! ### Masks (R268 to R270) -/

/-- The mask exists. -/
def State.hasMask (s : State) (k : Nat) : Bool := !s.flag Fld.ACC_MASK_CFG_ABSENT k

/-- The plane of a mask. -/
def State.maskPlane (s : State) (k : Nat) : Nat := 4 * (k / 8) + s.fld Fld.ACC_MASK_CFG_PLANE k

/-- An enabled mask tests the plane. -/
def State.maskOn (s : State) (p : Nat) : Bool :=
  (List.range 8).any fun i =>
    let k := 8 * (p / 4) + i
    s.hasMask k && s.flag Fld.ACC_MASK_CFG_EN k && s.maskPlane k == p

/-- A word of a bank of a mask. -/
def State.maskWord (s : State) (k bank w : Nat) : Word := tget 0#32 s.masks ((2 * k + bank) * 4096 + w)

/-- A write of a word of a mask's load bank (R269); an absent mask takes none (R259). -/
def State.putMaskWord (s : State) (k w : Nat) (v : Word) : State :=
  if !s.hasMask k then s
  else
    let bank := 1 - s.fld Fld.ACC_MASK_CFG_BANK k
    { s with masks := tput 0#32 s.masks ((2 * k + bank) * 4096 + w) v }

/-- The active bank marks a bin. -/
def State.marked (s : State) (k b : Nat) : Bool :=
  (s.maskWord k (s.fld Fld.ACC_MASK_CFG_BANK k) (b / 32)).getLsbD (b % 32)

/-- ACTIVE, STRIDE, ABSENT and NOPLANE of a cluster follow its settings. -/
def State.noteAcc (s : State) (c : Nat) : State :=
  let s1 := (List.range 4).foldl (fun s i =>
    let p := 4 * c + i
    let on := s.hasPlane p && (s.flag Fld.ACC_PLANE_CFG_EN p || s.maskOn p)
    ((s.setFld Fld.ACC_PLANE_STATUS_ACTIVE p on.toNat).setFld Fld.ACC_PLANE_STATUS_STRIDE p (s.stride c)).setFld
      Fld.ACC_PLANE_STATUS_ABSENT p (!s.hasPlane p).toNat) s
  (List.range 8).foldl (fun s i =>
    let k := 8 * c + i
    s.setFld Fld.ACC_MASK_CFG_NOPLANE k (!s.hasPlane (s.maskPlane k)).toNat) s1

/-! ### Clearing (R266, R267) -/

/-- A plane is cleared at this tick: bins, TOTAL and SAT, and the clearing frame. -/
def State.clearPlane (s : State) (p : Nat) : State :=
  let s1 := { s with
    bins := s.bins.filter fun e => e.1 / 131072 != p,
    planes := tmod Plane.init s.planes p fun x => { x with clearedAt := some s.time } }
  (((s1.setPair .ACC_PLANE_TOTAL_LO .ACC_PLANE_TOTAL_HI p 0).setFld Fld.ACC_PLANE_STATUS_SAT p 0)).setFrame
    .ACC_PLANE_CLR_LO .ACC_PLANE_CLR_HI p s.frameNow

/-- The violation counter and first time of a mask are cleared. -/
def State.clearViol (s : State) (k : Nat) : State :=
  (s.setFld Fld.ACC_VIOL_CNT_COUNT k 0).setPair .ACC_VIOL_FIRST_LO .ACC_VIOL_FIRST_HI k 0

/-- ACC_CLEAR names a cluster: its planes and its violation counters. -/
def State.accClear (s : State) (c : Nat) : State :=
  let s1 := (List.range 4).foldl (fun s i => s.clearPlane (4 * c + i)) s
  (List.range 8).foldl (fun s i => s.clearViol (8 * c + i)) s1

/-- Planes and bitmaps of a cluster are lost: a pitch, or a wake (R266). -/
def State.accLose (s : State) (c : Nat) : State :=
  let s1 := (List.range 4).foldl (fun s i => s.clearPlane (4 * c + i)) s
  { s1 with masks := s1.masks.filter fun e => e.1 / 65536 != c }

/-- The planes of a cluster have no time reference. -/
def State.dropRefs (s : State) (c : Nat) : State :=
  (List.range 4).foldl (fun s i =>
    ({ s with planes := tmod Plane.init s.planes (4 * c + i) fun x => { x with refs := [] } }).setFld Fld.ACC_PLANE_STATUS_NOREF
      (4 * c + i) 1) s

/-! ### Snapshots (R273) -/

/-- The bytes of a snapshot of plane p (Table ACC-3). -/
def State.snapBytes (s : State) (p : Nat) (clear : Bool) : List Byte :=
  let n := s.xBins p * s.yBins p
  leBytes 6 s.frameNow.toNat ++ leBytes 1 p ++ leBytes 1 (s.fld Fld.ACC_PLANE_STATUS_SAT p + 2 * clear.toNat) ++
    leBytes 2 (s.xBins p) ++ leBytes 2 (s.yBins p) ++ leBytes 2 (s.binTu p) ++
    leBytes 1 (s.fld Fld.ACC_PLANE_Y_Y_SHIFT p) ++ leBytes 1 (s.fld Fld.ACC_PLANE_CFG_XMODE p) ++
    leBytes 2 (unsgn 16 (sgn 10 (s.fld Fld.ACC_PLANE_Y_Y_BASE p))) ++ leBytes 2 0 ++
    leBytes 4 (unsgn 32 (s.xOfs p)) ++ leBytes 4 (s.foldUi p) ++
    leBytes 8 (s.pair .ACC_PLANE_TOTAL_LO .ACC_PLANE_TOTAL_HI p).toNat ++
    leBytes 6 (s.frameOf .ACC_PLANE_CLR_LO .ACC_PLANE_CLR_HI p).toNat ++ List.replicate 22 0 ++
    (List.range n).flatMap fun b => leBytes 4 (s.bin p b)

/-- Two byte ranges meet. -/
def meets (a n b m : Nat) : Bool := decide (a < b + m ∧ b < a + n)

/-- A range of a die's stack overlaps a region or a staging area of the image, or passes 0x3_FC00_0000. -/
def State.snapBlocked (s : State) (e a n : Nat) : Bool :=
  let rs := s.pitch.recs
  decide (0x3FC000000 < a + n) ||
    ((regionsOf rs).any fun m => m / 16 == e && meets a n (regionBase rs m) (regionSize rs m)) ||
    ((grantedQs rs).any fun q => streamDie rs q == some e && meets a n (stageBase rs q) (stageSize rs q))

/-- ACC_SNAP_CTRL commits at this tick. -/
def State.commitSnap (s : State) (c : Nat) (v : Word) : State :=
  let s1 := s.setReg .ACC_SNAP_CTRL c (v &&& 3#32)
  if !v.getLsbD 2 || s.clusterAsleep c then s1
  else
    let st := s.fld Fld.ACC_SNAP_STATUS_STATE c
    if st = 1 ∨ st = 2 then s1.setFld Fld.ACC_SNAP_STATUS_OVERRUN c 1
    else
      let p := 4 * c + getBits v 0 2
      let a := (s.pair .ACC_SNAP_ADDR_LO .ACC_SNAP_ADDR_HI c).toNat
      let clear := v.getLsbD 3
      if !s.hasPlane p || s.snapBlocked (c / 2) a (64 + 4 * (s.xBins p * s.yBins p)) then
        s1.setFld Fld.ACC_SNAP_STATUS_STATE c 4
      else
        let s2 := ({ s1 with snaps := tins s1.snaps c ⟨a, s.snapBytes p clear, p, s.time⟩ }).setFld Fld.ACC_SNAP_STATUS_STATE c 2
        let s3 := s2.setFrame .ACC_SNAP_FRAME_LO .ACC_SNAP_FRAME_HI c s.frameNow
        if clear then s3.clearPlane p else s3

/-! ### Commits -/

/-- A plane's t_ref begins with the most recent fire of the generator that REF now names (R261; log 34). -/
def State.takeRef (s : State) (p : Nat) : State :=
  let f := (s.gen (4 * (p / 4) + s.fld Fld.ACC_PLANE_CFG_REF p)).fired
  ({ s with planes := tmod Plane.init s.planes p fun x => { x with refs := f.toList } }).setFld
    Fld.ACC_PLANE_STATUS_NOREF p f.isNone.toNat

/-- The settings of one tick have committed: XB of a geometry with too many bins is what a read then returns (R260). -/
def State.limitPlanes (s : State) : State :=
  s.each 16 fun s p =>
    if 131072 < 16 * s.fld Fld.ACC_PLANE_X_XB p * s.yBins p then
      s.setFld Fld.ACC_PLANE_X_XB p (131072 / s.yBins p / 16)
    else s

/-- A register of a plane commits; a clear follows as R266 says. -/
def State.commitPlane (s : State) (n : RegName) (p : Nat) (v : Word) : State :=
  if !s.hasPlane p then s
  else
    let v' := match n with
      | .ACC_PLANE_CFG => v &&& 0x7F#32
      | .ACC_PLANE_X => v &&& 0xFFFFFF#32
      | .ACC_PLANE_Y => v &&& 0x7FFF#32
      | _ => v
    let old := s.reg n p
    let s1 := s.setReg n p v'
    let s2 :=
      if n = .ACC_PLANE_CFG then
        if getBits old 1 3 = getBits v' 1 3 then s1 else (s1.takeRef p).clearPlane p
      else s1.clearPlane p
    s2.noteAcc (p / 4)

/-- ACC_MASK_CFG commits. -/
def State.commitMask (s : State) (k : Nat) (v : Word) : State :=
  if !s.hasMask k then s
  else (s.setReg .ACC_MASK_CFG k ((s.reg .ACC_MASK_CFG k &&& 0x7000000#32) ||| (v &&& 0xFFFF1F#32))).noteAcc (k / 8)

/-- ACC_CTRL commits: clears, then bank swaps (R267). -/
def State.commitAccCtrl (s : State) (c : Nat) (v : Word) : State :=
  if s.clusterAsleep c then s
  else
    let s1 := (bitsOf 4 v.toNat).foldl (fun s i => s.clearPlane (4 * c + i)) s
    let s2 := (bitsOf 8 (getBits v 4 8)).foldl (fun s i => s.clearViol (8 * c + i)) s1
    (bitsOf 8 (getBits v 12 8)).foldl (fun s i =>
      let k := 8 * c + i
      if s.hasMask k then s.setFld Fld.ACC_MASK_CFG_BANK k (1 - s.fld Fld.ACC_MASK_CFG_BANK k) else s) s2

/-! ### Commands -/

/-- A sample of a plane's source, with the flags that the device sets. -/
def State.planeSample (s : State) (p : Nat) (t : Ratio) (x : Sample) : Sample :=
  s.flagged (s.fld Fld.ACC_PLANE_SRC_CH p) t x

/-- The sample has reached the accumulator, 32 ns after its instant (R20, R261). -/
def State.reached (s : State) (t : Ratio) : Bool := (t.add (.ofInt (ns 32))).le (.ofTu s.time)

/-- A sample of a plane's source at instant `t`, where placement runs: every sample where an enabled mask tests the plane,
else those that the stride takes. Only those that the stride takes of an enabled plane are accumulated (R263 to R265). The
settings are those at its instant, and one of before the last clear is in no bin (R40, R266). -/
def State.placeSample (s : State) (p : Nat) (j : Int) (t : Ratio) (x : Sample) : State :=
  let o := s.asOf t
  let taken := o.flag Fld.ACC_PLANE_CFG_EN p && j % (o.stride (p / 4) : Nat) == 0
  if !o.hasPlane p || (!taken && !o.maskOn p) then s
  else if o.excluded p x then s.bump Fld.ACC_PLANE_EXCL_COUNT p 1
  else
    match o.binOf p t x with
    | none => s.bump Fld.ACC_PLANE_OUTSIDE_COUNT p 1
    | some b =>
      if !taken then s
      else
        let s1 := s.snapLate p b t
        if s.beforeClear p t then s1 else s1.countBin p b

/-- SAMPLE_PLACEMENT (R261 to R265). -/
def execSamplePlacement (t : Tu) (p : Fin 16) (j : Int) (x : Sample) (s : State) :
    Host.Outcome State Fault Refusal :=
  s.when t fun s =>
    let T := s.planeInstant p j
    let s1 := s.placeTrigs
    if s1.clusterAsleep (p / 4) || !s1.reached T then s1 else s1.placeSample p j T (s1.planeSample p T x)

/-- A violation fires XTRIG 9 + c: not within the mask's HOLDOFF after its last fire, and once per pipeline cycle
(R271). -/
def State.maskTrigger (s : State) (k : Nat) (tts : Tu) : State :=
  let c := k / 8
  let cyc := s.pipeCycle c tts
  let held := match (s.maskFire.find? fun e => e.1 == k) with
    | some (_, f) => tuLt tts (tuAdd f (ns (s.fld Fld.ACC_MASK_CFG_HOLDOFF k)))
    | none => false
  let again := match (s.xtrigCycle.find? fun e => e.1 == c) with
    | some (_, f) => s.pipeCycle c f == cyc
    | none => false
  if held || again then s
  else
    (({ s with maskFire := tins s.maskFire k tts, xtrigCycle := tins s.xtrigCycle c tts }).xfire (9 + c) tts).ticSource
      c 0x38 tts false true false

/-- A sample at instant `t` violates mask k (R270 to R272), under the settings and the bank at its instant. -/
def State.violation (s : State) (k : Nat) (t : Ratio) (x : Sample) : State :=
  let o := s.asOf t
  let p := o.maskPlane k
  let hit := o.hasMask k && o.flag Fld.ACC_MASK_CFG_EN k && o.hasPlane p && !o.excluded p x &&
    (o.binOf p t x).any fun b => o.marked k b
  if !hit then s
  else
    let tts := t.tu
    let s1 := s.bump Fld.ACC_VIOL_CNT_COUNT k 1
    let s2 := if s.fld Fld.ACC_VIOL_CNT_COUNT k = 0 then
        s1.setPair .ACC_VIOL_FIRST_LO .ACC_VIOL_FIRST_HI k tts else s1
    let action := o.fld Fld.ACC_MASK_CFG_ACTION k
    let stop : Fire := ⟨tts, 16 + 9 + k / 8, true⟩
    if action = 1 then s2.maskTrigger k tts
    else if action = 2 then s2.fireRegions (recFld s.pitch.recs 4 (9 + k / 8) 0 4 0) stop
    else if action = 3 then s2.fireRegions (2 ^ 32 - 1) stop
    else s2

/-- MASK_VIOLATION (R270 to R272). -/
def execMaskViolation (t : Tu) (k : Fin 32) (j : Int) (x : Sample) (s : State) : Host.Outcome State Fault Refusal :=
  s.when t fun s =>
    let T := s.planeInstant (4 * (k / 8)) j
    let s1 := s.placeTrigs
    if s1.clusterAsleep (k / 8) || !s1.reached T then s1
    else s1.violation k T (s1.planeSample ((s1.asOf T).maskPlane k) T x)

/-- ACC_SNAPSHOT_DONE: the copy is in the stack, with every sample before its tick (R267, R273). -/
def execAccSnapshotDone (t : Tu) (c : Fin 4) (s : State) : Host.Outcome State Fault Refusal :=
  s.when t fun s =>
    match s.snaps.find? fun e => e.1 == c.val with
    | none => s
    | some (_, w) =>
      if s.fld Fld.ACC_SNAP_STATUS_STATE c = 2 ∧ s.reached (.ofTu w.at_) then
        ({ s with mem := memPutAll s.mem (c / 2 * stackSpan + w.addr) w.bytes,
                  snaps := s.snaps.filter fun e => e.1 != c.val }).setFld Fld.ACC_SNAP_STATUS_STATE c 3
      else s

end Sys2Proof.Machine
end

