-- ==== Sys2Proof/Machine/Red.lean ====
section
/-! DEFINITION. Reduction units (chapter 10: R237 to R248, R256, R257). -/

namespace Sys2Proof.Machine

/-! ### Settings in effect -/

/-- The reset value of RED_SRC.CH under the image in force (R237). -/
def State.redHome (s : State) (u : Nat) : Nat := u - u % 4 % s.ilv u

/-- L: 1 to 65,536. -/
def State.redL (s : State) (u : Nat) : Nat := clampN 1 65536 (s.fld Fld.RED_LEN_L u)

/-- Stages: NST + 1. -/
def State.redStages (s : State) (u : Nat) : Nat := s.fld Fld.RED_CFG_NST u + 1

/-- D in effect (R239). -/
def State.redD (s : State) (u : Nat) : Nat := max (s.fld Fld.RED_PACE_PACE u) (clampN 1 65536 (s.fld Fld.RED_DEC_D u))

/-- The decimation phase: PHASE mod D (R242). -/
def State.redPhase (s : State) (u : Nat) : Nat := s.fld Fld.RED_PHASE_PHASE u % s.redD u

/-- A written value as the unit takes it, and as a read returns it (R237, R239). -/
def State.redLimit (s : State) (n : RegName) (u : Nat) (v : Word) : Word :=
  match n with
  | .RED_CFG => v &&& 7#32
  | .RED_SRC =>
    let ch := getBits v 0 4
    BitVec.ofNat 32 (if ch / 4 = u / 4 ∧ !disconnected s.pitch.recs ch then ch else s.redHome u)
  | .RED_DEC => BitVec.ofNat 32 (max (s.fld Fld.RED_PACE_PACE u) (clampN 1 65536 (getBits v 0 17)))
  | .RED_LEN => v &&& 0x1FFFF#32
  | .RED_PHASE => v &&& 0xFFFF#32
  | _ => v

/-! ### Starting (R246 to R248) -/

/-- The index, on the grid of the unit's source, of the first sample at or after an instant. -/
def State.redIndex (s : State) (u : Nat) (t : Tu) : Int := s.sampleAt (u / 8) (s.ilv u) (.ofTu t)

/-- The instant of a sample of the unit's source. -/
def State.redInstant (s : State) (u : Nat) (j : Int) : Tu := (s.sampleInstant (u / 8) (s.ilv u) j).tu

/-- The registers that name S0: its instant, the count of kept instants, and the cause (1 SYNC, 2 commit, 3 anchor,
4 wake, 5 decimation-only commit). -/
def State.redMark (s : State) (u cause : Nat) (j : Int) : State :=
  ((s.setPair .RED_SYNC_TTS_LO .RED_SYNC_TTS_HI u (s.redInstant u j)).setFld Fld.RED_OUT_COUNT_COUNT u 0).setFld
    Fld.RED_STATUS_START u cause

/-- An enabled unit starts or restarts at the first sample at or after T (R246, R247). -/
def State.redStart (s : State) (u cause : Nat) (t : Tu) : State :=
  if !s.flag Fld.RED_CFG_EN u || s.clusterAsleep (u / 4) then s
  else
    let j := s.redIndex u t
    let n := s.redStages u * (s.redL u - 1)
    let s1 := s.modRed u fun _ => ⟨[], 0, 0, none, j, j + n⟩
    ((s1.redMark u cause j).setFld Fld.RED_STATUS_RUNNING u 1).setFld Fld.RED_STATUS_PRIME u (decide (0 < n)).toNat

/-- Every enabled unit of the listed ones restarts. -/
def State.redStartAll (s : State) (us : List Nat) (cause : Nat) (t : Tu) : State :=
  us.foldl (fun s u => s.redStart u cause t) s

/-- A commit of RED_DEC or RED_PHASE restarts the decimation phase and leaves the cascade (R247); a unit that starts
at this same sample has restarted already. -/
def State.redRephase (s : State) (u : Nat) : State :=
  if !s.flag Fld.RED_CFG_EN u then s
  else
    let j := s.redIndex u s.time
    if (s.redOf u).taken = 0 ∧ (s.redOf u).s0 = j then s
    else (s.modRed u fun r => { r with kept := 0, env := none, s0 := j }).redMark u 5 j

/-- A register of a unit commits at this tick (R247, R256). A write of RED_CFG restarts the unit where it sets EN or
changes NST. -/
def State.commitRed (s : State) (n : RegName) (u : Nat) (v : Word) : State :=
  let old := s.reg .RED_CFG u
  let s1 := s.setReg n u (s.redLimit n u v)
  match n with
  | .RED_CFG =>
    if !v.getLsbD 0 then
      ((s1.modRed u fun _ => Red.init).setFld Fld.RED_STATUS_RUNNING u 0).setFld Fld.RED_STATUS_PRIME u 0
    else if old.getLsbD 0 && getBits old 1 2 == getBits v 1 2 then s1
    else s1.redStart u 2 s.time
  | .RED_SRC | .RED_LEN => s1.redStart u 2 s.time
  | .RED_DEC | .RED_PHASE => s1.redRephase u
  | _ => s1

/-- RED_STATUS.PRIME ends with the last PRIME output. -/
def State.redSettle (s : State) : State :=
  s.each 16 fun s u =>
    if s.flag Fld.RED_STATUS_PRIME u && (s.redOf u).primeEnd < s.redIndex u (s.time + 1) then s.setFld Fld.RED_STATUS_PRIME u 0 else s

/-! ### The moving-average cascade (R240, R241, R248) -/

/-- One stage takes an input: its history with the input in front, and its output. `i`: inputs taken before;
`last`: the last stage, whose output is in 1/16 LSB. -/
def stageStep (l i : Nat) (last : Bool) (hist : List RedVal) (x : RedVal) : List RedVal × RedVal :=
  let h := (x :: hist).take l
  let acc := (h.map RedVal.v).sum
  (h, ⟨divRound acc (if last then 4 * l else l), h.any RedVal.bad, decide (i + 1 < l) || h.any RedVal.prime⟩)

/-- The cascade takes an input: the histories of its `n` remaining stages, and the output of the last. -/
def cascade (l i : Nat) : Nat → List (List RedVal) → RedVal → List (List RedVal) × RedVal
  | 0, hs, x => (hs, x)
  | n + 1, hs, x =>
    let (h, y) := stageStep l i (n == 0) (hs.headD []) x
    let (rest, z) := cascade l i n hs.tail y
    (h :: rest, z)

/-- A sample as the input of stage 1. -/
def redInput (x : Sample) : RedVal := ⟨x.code.toInt * 64, x.ovr || x.clkbad || x.step, false⟩

/-- The cascade over a run of samples: the unit after it, and the output at the last sample. -/
def redRun (l n : Nat) : Red → List Sample → RedVal → Red × RedVal
  | r, [], y => (r, y)
  | r, x :: xs, _ =>
    let (hs, y) := cascade l r.taken n r.stages (redInput x)
    redRun l n { r with stages := hs, taken := r.taken + 1 } xs y

/-! ### Output words (R243 to R245, Table RED-2) -/

/-- A MEAN word. -/
def meanWord (y : RedVal) : Nat := unsgn 14 y.v * 4 + 2 * y.prime.toNat + y.bad.toNat

/-- A PEAK or ENV word: the code, and the flags of its span. -/
def peakWord (x : Sample) (prime : Bool) : Nat :=
  x.code.toNat * 64 + x.ovr.toNat + 2 * x.clkbad.toNat + 8 * prime.toNat + 16 * x.step.toNat

/-- A sample with the flags that any sample of a span carries. -/
def spanFlags (xs : List Sample) (x : Sample) : Sample :=
  ⟨x.code, xs.any Sample.ovr, xs.any Sample.clkbad, xs.any Sample.step⟩

/-- The earliest sample of a span for which `key` is greatest. -/
def firstMax (key : Sample → Int) : Sample → List Sample → Sample
  | b, [] => b
  | b, x :: xs => firstMax key (if key b < key x then x else b) xs

/-- Magnitude, with |−512| = 512. -/
def codeMag (x : Sample) : Int := x.code.toInt.natAbs

/-! ### Commands -/

/-- A kept instant m of a unit, given the samples that lead up to it, the last of index `k`. -/
def State.redOutput (s : State) (u : Nat) (k : Int) (samples : List Sample) : State :=
  let r := s.redOf u
  let d := s.redD u
  let xs := s.flagRun (s.fld Fld.RED_SRC_CH u) (k - (samples.length - 1 : Nat)) samples
  let t := s.redInstant u k
  let m := r.kept
  let span := xs.drop (xs.length - (if m = 0 then s.redPhase u + 1 else d))
  match span with
  | [] => s
  | x0 :: rest =>
    let (r1, y) := redRun (s.redL u) (s.redStages u) r xs ⟨0, false, false⟩
    let peak := spanFlags span (firstMax codeMag x0 rest)
    let hi := spanFlags span (firstMax (fun x => x.code.toInt) x0 rest)
    let lo := spanFlags span (firstMax (fun x => -x.code.toInt) x0 rest)
    let pw := peakWord peak (decide (span.length < d))
    let s1 := (s.modRed u fun _ =>
      { r1 with kept := m + 1, env := if m % 2 = 0 then some (hi, lo, span.length) else none }).bumpMod
      Fld.RED_OUT_COUNT_COUNT u 1
    let s2 := (s1.setFld Fld.RED_LAST_MEAN u (meanWord y)).setFld Fld.RED_LAST_PEAK u pw
    let s3 := if y.bad then s2.bump Fld.RED_BAD_CNT_COUNT u 1 else s2
    let s4 := (s3.produce 1 u (leBytes 2 pw) t).produce 2 u (leBytes 2 (meanWord y)) t
    match r.env with
    | some (h0, l0, n0) =>
      let prime := decide (n0 + span.length < 2 * d)
      let h := spanFlags [h0, hi] (firstMax (fun x => x.code.toInt) h0 [hi])
      let l := spanFlags [l0, lo] (firstMax (fun x => -x.code.toInt) l0 [lo])
      s4.produce 3 u (leBytes 2 (peakWord h prime) ++ leBytes 2 (peakWord l prime)) t
    | none => s4

/-- The samples of the command lead up to the unit's next kept instant: PHASE + 1 samples from S0, then D each; after a
decimation-only commit the samples since the last kept instant stand before those from S0. -/
def State.redLenOk (s : State) (u n : Nat) : Bool :=
  let r := s.redOf u
  if r.kept ≠ 0 then n == s.redD u
  else if s.fld Fld.RED_STATUS_START u = 5 then decide (s.redPhase u < n)
  else n == s.redPhase u + 1

/-- The sample of the next kept instant: K(m) = S0 + PHASE + m × D (R242). -/
def State.redNext (s : State) (u : Nat) : Int := (s.redOf u).s0 + s.redPhase u + (s.redOf u).kept * s.redD u

/-- Its instant. -/
def State.redKept (s : State) (u : Nat) : Tu := s.redInstant u (s.redNext u)

/-- REDUCTION_OUTPUT (R238 to R245): at the unit's next kept instant. -/
def execReductionOutput (u : Fin 16) (xs : List Sample) (s : State) : Host.Outcome State Fault Refusal :=
  s.when (s.redKept u) fun s =>
    if s.flag Fld.RED_CFG_EN u && !s.clusterAsleep (u / 4) && s.redLenOk u xs.length && tuLe (s.redKept u) s.time then
      (s.redOutput u (s.redNext u) xs).redSettle
    else s

end Sys2Proof.Machine
end

