-- ==== Sys2Proof/Machine/Ras.lean ====
section
/-! DEFINITION. The Lantern raster engine (chapter 14: R311 to R330, R460). A change of the pixel clock itself is a
write of the clock registers and stands in Clk. -/

namespace Sys2Proof.Machine

/-! ### Settings (R315 to R317) -/

/-- Registers whose writes wait for a vertical blank (R317). -/
def rasPending : List RegName :=
  [.RAS_TIMING_H, .RAS_TIMING_V, .RAS_FMT, .RAS_REFRESH, .RAS_LAYER_CFG, .RAS_LAYER_POS, .RAS_LAYER_BUF]

/-- A field of the setting in force. -/
def State.rasFld (s : State) (f : Fld) (i : Nat) : Nat := getBits (rget s.ras.now ⟨f.reg, i⟩) f.lsb f.width

/-- The pixel clock as a fraction in kHz, from the input that multiplexer PIX has in effect (Table CLK-8, R125). -/
def State.fPix (s : State) : Nat × Nat :=
  if tget 0 s.clk.muxNow 1 = 0 then (s.fld Fld.PLL_APLL_FREQ_VCO_KHZ 0, max 1 (s.fld Fld.PLL_APLL_DIV_PIX_DIV 0))
  else (250000, 1)

/-- The tu that `n` pixel periods last, rounded up. -/
def State.pixels (s : State) (n : Nat) : Nat :=
  let (v, d) := s.fPix
  ceilDiv (n * d * 8192000000) (max 1 v)

/-- Pixels in a line of the mode in force. -/
def State.linePix (s : State) : Nat := s.rasFld Fld.RAS_TIMING_H_HACTIVE 0 + s.rasFld Fld.RAS_TIMING_H_HBLANK 0

/-- Pixels in a frame of the mode in force. -/
def State.framePix (s : State) : Nat :=
  s.linePix * (s.rasFld Fld.RAS_TIMING_V_VACTIVE 0 + s.rasFld Fld.RAS_TIMING_V_VBLANK 0)

/-- DSI lanes and rate in effect. -/
def dsiLanes (code : Nat) : Nat := if code = 0 then 1 else if code = 1 then 2 else 4
def dsiRate (x : Nat) : Nat := clampN 80 2500 x

/-- The rule of R316. -/
def timingOk (ha hb bpp lanes rate v d : Nat) : Bool :=
  let b := lanes * rate
  decide ((ha * bpp + 64 + b) * v ≤ (ha + hb) * 1000 * d * b)

/-- Bits per pixel. -/
def bppOf (x : Nat) : Nat := if x = 0 then 24 else 16

/-- The rule of R316 for the values last written. -/
def State.writtenOk (s : State) : Bool :=
  timingOk (s.fld Fld.RAS_TIMING_H_HACTIVE 0) (s.fld Fld.RAS_TIMING_H_HBLANK 0) (bppOf (s.fld Fld.RAS_FMT_BPP 0))
    (dsiLanes (s.fld Fld.RAS_DSI_CFG_LANES 0)) (dsiRate (s.fld Fld.RAS_DSI_CFG_RATE 0)) s.fPix.1 s.fPix.2

/-- The rule of R316 for the mode in force. -/
def State.inForceOk (s : State) : Bool :=
  timingOk (s.rasFld Fld.RAS_TIMING_H_HACTIVE 0) (s.rasFld Fld.RAS_TIMING_H_HBLANK 0)
    (bppOf (s.rasFld Fld.RAS_FMT_BPP 0)) (dsiLanes (s.fld Fld.RAS_DSI_CFG_LANES 0))
    (dsiRate (s.fld Fld.RAS_DSI_CFG_RATE 0)) s.fPix.1 s.fPix.2

/-- The state with the model of Lantern changed. -/
def State.modRas (s : State) (f : Ras → Ras) : State := { s with ras := f s.ras }

/-- A write of a setting that waits for a vertical blank; one of RAS_LAYER_BUF leases the buffer it names (R326). -/
def State.writeRasPending (s : State) (n : RegName) (i : Nat) (v : Word) : State :=
  let s1 := (s.writeRW n i v).modRas fun r => { r with pend := some s.time }
  if n = .RAS_LAYER_BUF then
    (s1.setFld Fld.RAS_BUF_STATUS_STATE (getBits v 0 4) 1).modRas fun r =>
      { r with named := i :: r.named.filter (· != i) }
  else s1

/-- The register of a checked write. -/
def rasTimingReg : RasTiming → RegName
  | .timingH => .RAS_TIMING_H
  | .timingV => .RAS_TIMING_V
  | .fmt => .RAS_FMT
  | .dsiCfg => .RAS_DSI_CFG

/-- A checked write: one that fails changes nothing but TIMING_ERR (R316). -/
def State.writeTiming (s : State) (r : RasTiming) (v : Word) : State :=
  let s1 := match r with
    | .dsiCfg => s.writeRW .RAS_DSI_CFG 0 v
    | _ => s.writeRasPending (rasTimingReg r) 0 v
  if s1.writtenOk then
    if s.ras.dsiStopped then (s1.setFld Fld.RAS_STATUS_TIMING_ERR 0 0).modRas fun r => { r with dsiStopped := false }
    else s1
  else s.setFld Fld.RAS_STATUS_TIMING_ERR 0 1

/-- A write of an entry of the look-up table that RAS_LUT_SEL shows (R317). -/
def State.writeLut (s : State) (k : Nat) (v : Word) : State :=
  s.modRas fun r =>
    { r with lut := tput 0#32 r.lut (256 * s.fld Fld.RAS_LUT_SEL_LAYER 0 + k) v, pend := some s.time }

/-- The pending set commits at this vertical blank: HOLD is 0 and the last write lies at least 1 µs back (R317). -/
def State.rasCommit (s : State) : State :=
  match s.ras.pend with
  | none => s.modRas fun r => { r with fresh := false }
  | some t =>
    if s.flag Fld.RAS_CTRL_HOLD 0 || !tuLe (tuAdd t (ns 1000)) s.time then s.modRas fun r => { r with fresh := false }
    else
      (s.modRas fun r =>
        { r with now := (r.now.filter fun e => e.1.n == .RAS_CTRL) ++
                   s.regs.filter (fun e => rasPending.contains e.1.n),
                 lutNow := r.lut, pend := none, fresh := true, namedNow := r.named }).raise0 401

/-! ### Layers (R311 to R314) -/

/-- The plane of a density-plane layer is absent. -/
def State.layerNoSrc (s : State) (n : Nat) : Bool :=
  s.fld Fld.RAS_LAYER_SRC_KIND n == 1 && !s.hasPlane (s.fld Fld.RAS_LAYER_SRC_UNIT n % 16)

/-- A layer is composed: it is in the image, enabled, has its source and has not run dry. -/
def State.layerOn (s : State) (n : Nat) : Bool :=
  s.fld Fld.RAS_LAYER_SRC_KIND n != 0 && s.rasFld Fld.RAS_LAYER_CFG_EN n != 0 && !s.layerNoSrc n &&
    !s.ras.dry.contains n

/-- The layers of an output in ascending Z: output 0 DSI, output 1 host frame. -/
def State.layersOf (s : State) (output : Nat) : List Nat :=
  (List.range 8).flatMap fun z => (List.range 8).filter fun n =>
    s.fld Fld.RAS_LAYER_SRC_Z n == z && s.rasFld Fld.RAS_LAYER_CFG_EN n != 0 &&
      s.fld Fld.RAS_LAYER_SRC_KIND n != 0 && !s.layerNoSrc n &&
      (s.fld Fld.RAS_LAYER_SRC_OUTPUTS n).testBit output

/-- The look-up index of a count (R313). -/
def lutIndex (log : Bool) (shift count : Nat) : Nat :=
  if log then
    if count = 0 then 0
    else
      let m := count.log2
      min 255 (1 + 8 * m + count * 8 / 2 ^ m % 8)
  else min 255 (count / 2 ^ shift)

/-- A colour: red, green and blue. -/
structure Rgb where
  r : Nat
  g : Nat
  b : Nat
  deriving DecidableEq, Repr

/-- The colour of 24 bits. -/
def rgbOf (x : Nat) : Rgb := ⟨x / 65536 % 256, x / 256 % 256, x % 256⟩

/-- The count of a bin that a layer shows: that of the live bin at the moment at which its line was fetched, which is some
moment since the last vertical blank began (R274, R313). A bin counts upward, so it is none outside what the bin held then and
what it holds now, unless the plane was cleared meanwhile. -/
def State.shownCount (s : State) (q b w : Nat) : Nat :=
  if (tget Plane.init s.planes q).clearedAt.any fun t => tuLe s.ras.vbAt t then w
  else clampN (tget 0 s.ras.binsAt (131072 * q + b)) (s.bin q b) w

/-- What a layer shows at a screen pixel: colour and pixel alpha; none where it does not cover the pixel. -/
def State.layerPixel (s : State) (p : Picture) (n px py : Nat) : Option (Rgb × Nat) :=
  let x0 := s.rasFld Fld.RAS_LAYER_POS_POSX n
  let y0 := s.rasFld Fld.RAS_LAYER_POS_POSY n
  let x := (px - x0) / (s.rasFld Fld.RAS_LAYER_CFG_SX n + 1)
  let y := (py - y0) / (s.rasFld Fld.RAS_LAYER_CFG_SY n + 1)
  match ((p.rows.getD n []).getD py [])[x]? with
  | none => none
  | some w =>
    if px < x0 ∨ py < y0 then none
    else if s.fld Fld.RAS_LAYER_SRC_KIND n = 1 then
      let q := s.fld Fld.RAS_LAYER_SRC_UNIT n % 16
      if x < s.xBins q ∧ y < s.yBins q then
        let count := s.shownCount q ((s.yBins q - 1 - y) * s.xBins q + x) w.toNat
        let i := lutIndex (s.rasFld Fld.RAS_LAYER_CFG_MAP n == 1) (s.rasFld Fld.RAS_LAYER_CFG_SHIFT n) count
        let e := (tget 0#32 s.ras.lutNow (256 * n + i)).toNat
        some (rgbOf e, e / 2 ^ 24)
      else none
    else
      let b := s.rasFld Fld.RAS_LAYER_BUF_BUF n
      if x < s.fld Fld.RAS_BUF_GEOM_W b ∧ y < s.fld Fld.RAS_BUF_GEOM_H b then
        if s.flag Fld.RAS_BUF_PITCH_FMT b then some (rgbOf (Config.rgb565 (w.toNat % 65536)), 255)
        else some (rgbOf w.toNat, w.toNat / 2 ^ 24)
      else none

/-- One colour component over another with weight w (R312). -/
def mix (w c out : Nat) : Nat := (c * w + out * (255 - w) + 127) / 255

/-- A screen pixel of an output: the layers in ascending Z over opaque black. -/
def State.pixelOf (s : State) (p : Picture) (layers : List Nat) (px py : Nat) : Rgb :=
  layers.foldl (fun o n =>
    match s.layerPixel p n px py with
    | none => o
    | some (c, a) =>
      let w := (a * s.rasFld Fld.RAS_LAYER_CFG_ALPHA n + 127) / 255
      ⟨mix w c.r o.r, mix w c.g o.g, mix w c.b o.b⟩) ⟨0, 0, 0⟩

/-- A rectangle of the picture of an output, its corners inclusive and clipped, in raster order. -/
def State.rectOf (s : State) (p : Picture) (layers : List Nat) (x0 y0 x1 y1 : Nat) : List Rgb :=
  let xe := min (x1 + 1) (s.rasFld Fld.RAS_TIMING_H_HACTIVE 0)
  let ye := min (y1 + 1) (s.rasFld Fld.RAS_TIMING_V_VACTIVE 0)
  (List.range (ye - y0)).flatMap fun y => (List.range (xe - x0)).map fun x => s.pixelOf p layers (x0 + x) (y0 + y)

/-- The whole picture of an output. -/
def State.pictureOf (s : State) (p : Picture) (output : Nat) : List Rgb :=
  s.rectOf p (s.layersOf output) 0 0 4095 4095

/-- Three bytes R, G, B per pixel (R325). -/
def rgbBytes (xs : List Rgb) : List Byte := xs.flatMap fun c => leBytes 1 c.r ++ leBytes 1 c.g ++ leBytes 1 c.b

/-- ARGB8888 with alpha 255 (R321). -/
def argbBytes (xs : List Rgb) : List Byte :=
  xs.flatMap fun c => leBytes 1 c.b ++ leBytes 1 c.g ++ leBytes 1 c.r ++ leBytes 1 255

/-! ### Completing a picture (R321, R324, R325, R327) -/

/-- The picture's rectangles: RAS_CRC_VAL, and the comparison where it is made (R325). -/
def State.rasRects (s : State) (p : Picture) : State :=
  let layers := s.layersOf 0
  s.each 8 fun s r =>
    if s.flag Fld.RAS_CRC_CFG_EN r then
      let c := crc32 (rgbBytes (s.rectOf p layers (s.fld Fld.RAS_CRC_TL_X0 r) (s.fld Fld.RAS_CRC_TL_Y0 r)
        (s.fld Fld.RAS_CRC_BR_X1 r) (s.fld Fld.RAS_CRC_BR_Y1 r)))
      let s1 := s.setReg .RAS_CRC_VAL r c
      if s.flag Fld.RAS_CRC_CFG_COMPARE r && !s.ras.underrun && c != s.reg .RAS_CRC_EXP r then
        (s1.bump Fld.RAS_CRC_FAIL_COUNT r 1).raise0 406
      else s1
    else s

/-- Whether a picture is sent, and the run of static frames after it (R324). -/
def staticSend (div run : Nat) (static : Bool) : Bool × Nat :=
  if !static then (true, 0) else if div ≠ 0 ∧ div ≤ run + 1 then (true, 0) else (false, run + 1)

/-- The write of a host-frame picture begins, or the picture is dropped (R321). -/
def State.hfoStart (s : State) (xs : List Rgb) : State :=
  if s.ras.hfoBusy.isSome then (s.bump Fld.RAS_HFO_DROP_COUNT 0 1).raise0 408
  else
    let w := s.rasFld Fld.RAS_TIMING_H_HACTIVE 0
    let h := s.rasFld Fld.RAS_TIMING_V_VACTIVE 0
    let i := s.ras.seq % (s.fld Fld.RAS_HFO_CFG_COUNT 0 + 1)
    let pitch := s.fld Fld.RAS_HFO_CFG_PITCH 0
    let base := (s.pair .RAS_HFO_ADDR_LO .RAS_HFO_ADDR_HI 0).toNat / 4096 * 4096 + i * pitch * h
    let lines := (List.range h).map fun y => (base + y * pitch, argbBytes ((xs.drop (y * w)).take w))
    s.modRas fun r => { r with hfoBusy := some (i, lines) }

/-- The pixels of a line in the format of RAS_FMT.BPP: three bytes R, G, B, or the two of RGB565 (R319; log 35). -/
def dsiPixels (bpp : Nat) (xs : List Rgb) : List Byte :=
  if bpp = 0 then rgbBytes xs else xs.flatMap fun c => leBytes 2 (Config.pack565 c.r c.g c.b)

/-- A picture leaves on the DSI output: write_memory_start for its first line and write_memory_continue for the others,
one long packet per line (R319). -/
def State.dsiFrame (s : State) (xs : List Rgb) : State :=
  let w := s.rasFld Fld.RAS_TIMING_H_HACTIVE 0
  s.each (s.rasFld Fld.RAS_TIMING_V_VACTIVE 0) fun s y =>
    s.emit (.dsiLine (if y = 0 then 0x2C else 0x3C) (dsiPixels (s.rasFld Fld.RAS_FMT_BPP 0) ((xs.drop (y * w)).take w)))

/-- Both outputs of a picture: its CRC, whether it is static, and its sending. Answers whether a transfer was skipped. -/
def State.rasOutputs (s : State) (p : Picture) : State × Bool :=
  let div := s.rasFld Fld.RAS_REFRESH_STATIC_DIV 0
  let dsi := s.pictureOf p 0
  let hfo := s.pictureOf p 1
  let cd := crc32 (rgbBytes dsi)
  let ch := crc32 (rgbBytes hfo)
  let (sendD, runD) := staticSend div s.ras.staticDsi (!s.ras.fresh && s.ras.crcDsi == some cd)
  let (sendH, runH) := staticSend div s.ras.staticHfo (!s.ras.fresh && s.ras.crcHfo == some ch)
  let s1 := s.modRas fun r =>
    { r with crcDsi := some cd, crcHfo := some ch, staticDsi := runD, staticHfo := runH }
  let onD := s.rasFld Fld.RAS_CTRL_OUT_DSI 0 != 0 && !s.ras.dsiStopped && s.gateOpen 27
  let onH := s.rasFld Fld.RAS_CTRL_OUT_HFO 0 != 0
  let s2 := if onD && sendD then s1.dsiFrame dsi else s1
  let s3 := if onH && sendH then s2.hfoStart hfo else s2
  (s3, (onD && !sendD) || (onH && !sendH))

/-- The sequence number and the flags of the picture just completed (R327). -/
def State.rasRecord (s : State) (skipped : Bool) : State :=
  ((s.setFld Fld.RAS_PIC_INFO_SEQ 0 s.ras.seq).setFld Fld.RAS_PIC_INFO_FLAGS 0
    (s.ras.underrun.toNat + 2 * skipped.toNat + 4 * s.ras.abandoned.toNat)).modRas fun r =>
      { r with seq := (r.seq + 1) % 2 ^ 24, underrun := false, abandoned := false }

/-- Some layer setting, pending or committed, names the buffer (R326). -/
def State.bufNamed (s : State) (b : Nat) : Bool :=
  s.ras.named.any (fun n => s.fld Fld.RAS_LAYER_BUF_BUF n == b) ||
    s.ras.namedNow.any (fun n => s.rasFld Fld.RAS_LAYER_BUF_BUF n == b)

/-- The frame that read them has scanned out: deferred buffers become free (R326). -/
def State.freeDeferred (s : State) : State :=
  s.each 16 fun s b =>
    if s.fld Fld.RAS_BUF_STATUS_STATE b = 2 then (s.setFld Fld.RAS_BUF_STATUS_STATE b 0).raise 405 1 b else s

/-- A vertical blank begins: the current frame number is recorded (R42, R327; log 115), the pending set commits, deferred
releases complete, and the next frame follows, at once or at an edge of TE_IN (R317, R320, R326). RAS_CTRL takes effect
here. -/
def State.rasBlank (s : State) : State :=
  let s0 := (s.setFrame .RAS_PIC_FRAME_LO .RAS_PIC_FRAME_HI 0 s.frameNow).raise0 400
  let s1 := s0.modRas fun r => { r with now := rput r.now ⟨.RAS_CTRL, 0⟩ (s.reg .RAS_CTRL 0) }
  let s2 := (s1.rasCommit).freeDeferred
  if s2.rasFld Fld.RAS_CTRL_EN 0 = 0 then
    (s2.setFld Fld.RAS_STATUS_STATE 0 0).modRas fun r =>
      { r with frame := false, teWait := false, reading := [], dry := [] }
  else
    let te := s2.flag Fld.RAS_CTRL_TE_MODE 0
    let s3 := (s2.setFld Fld.RAS_STATUS_STATE 0 1).modRas fun r =>
      { r with frame := !te, teWait := te, dry := [], vbAt := s.time, binsAt := s.bins,
               reading := ((List.range 8).filter fun n =>
                 s2.fld Fld.RAS_LAYER_SRC_KIND n == 2 && s2.rasFld Fld.RAS_LAYER_CFG_EN n != 0).map fun n =>
                   s2.rasFld Fld.RAS_LAYER_BUF_BUF n }
    s3.each 8 fun s n =>
      (s.setFld Fld.RAS_LAYER_STATUS_ACTIVE n (s.layerOn n).toNat).setFld Fld.RAS_LAYER_STATUS_NOSRC n
        (s.layerNoSrc n).toNat

/-- Active lines are being scanned out. -/
def State.inPicture (s : State) : Bool :=
  s.ras.frame && tuLe (tuAdd s.ras.vbAt (s.pixels (s.linePix * s.rasFld Fld.RAS_TIMING_V_VBLANK 0))) s.time

/-- RAS_CTRL is written: EN = 1 starts scanning with a full vertical blank; the other changes of the outputs take effect
at the next vertical blank, or at the write while multiplexer PIX is stuck (R460). -/
def State.writeRasCtrl (s : State) (v : Word) : State :=
  let s0 := s.writeRW .RAS_CTRL 0 v
  let s1 := if !s.flag Fld.RAS_CTRL_OUT_DSI 0 && s0.flag Fld.RAS_CTRL_OUT_DSI 0 then s0.diagClear [5, 6, 7, 8] else s0
  if s.fld Fld.RAS_STATUS_STATE 0 = 0 then
    if v.getLsbD 0 && s.gateOpen 26 && !s.standby then s1.rasBlank else s1
  else if s.fld Fld.CLK_MUX_STATUS_STATE1 0 = 2 then
    let now := rget s.ras.now ⟨.RAS_CTRL, 0⟩ &&& (v ||| 0xFFFFFFFC#32)
    let s2 := s1.modRas fun r => { r with now := rput r.now ⟨.RAS_CTRL, 0⟩ now }
    if v.getLsbD 0 then s2
    else (s2.setFld Fld.RAS_STATUS_STATE 0 0).modRas fun r => { r with frame := false, teWait := false, reading := [] }
  else s1

/-- The pixel clock changes at this instant: the picture in progress is abandoned, and the rule of R316 is checked again
(R316, R318). `runs`: the clock's feed runs. -/
def State.pixChange (s : State) (runs : Bool) : State :=
  let s1 :=
    if s.fld Fld.RAS_STATUS_STATE 0 = 0 then s
    else
      (s.setFld Fld.RAS_STATUS_STATE 0 2).modRas fun r =>
        { r with abandoned := r.abandoned || s.inPicture, frame := false, teWait := false,
                 restartFrom := if runs then some s.time else none }
  if s1.inForceOk then s1
  else (s1.setFld Fld.RAS_STATUS_TIMING_ERR 0 1).modRas fun r => { r with dsiStopped := true }

/-! ### Commands -/

/-- RAS_VBLANK (R312 to R314, R317, R321, R324 to R327): the picture is complete and a vertical blank begins. -/
def execRasVblank (t : Tu) (p : Picture) (s : State) : Host.Outcome State Fault Refusal :=
  s.when t fun s =>
    if s.fld Fld.RAS_STATUS_STATE 0 = 1 ∧ s.inPicture ∧ s.gateOpen 26 ∧ !s.standby then
      let (s1, skipped) := (s.rasRects p).rasOutputs p
      (s1.rasRecord skipped).rasBlank
    else s

/-- RAS_TIMING_WRITE (R316). -/
def execRasTimingWrite (t : Tu) (r : RasTiming) (v : Word) (s : State) : Host.Outcome State Fault Refusal :=
  s.whenHost t fun s => s.writeTiming r v

/-- RAS_PIXCLK_RESTART: two frame periods of the mode in force after the feed resumed (R318). The record of an abandoned
picture is written at the blank that begins. -/
def execRasPixclkRestart (t : Tu) (s : State) : Host.Outcome State Fault Refusal :=
  s.when t fun s =>
    match s.ras.restartFrom with
    | none => s
    | some t0 =>
      if s.fld Fld.RAS_STATUS_STATE 0 = 2 ∧ tuLe (tuAdd t0 (s.pixels (2 * s.framePix))) s.time ∧ s.gateOpen 26 then
        let s1 := if s.ras.abandoned then s.rasRecord false else s
        ((s1.rasBlank).modRas fun r => { r with restartFrom := none }).raise0 402
      else s

/-- The span, in tu, from the last vertical blank in which edges of TE_IN are ignored (R320). -/
def State.teFrom (s : State) : Nat := s.pixels (s.linePix * s.rasFld Fld.RAS_TIMING_V_VBLANK 0)

/-- TE_IN_EDGE: a rising edge of a pulse of at least 1 µs (R320). -/
def execTeInEdge (t : Tu) (s : State) : Host.Outcome State Fault Refusal :=
  s.when t fun s =>
    if s.ras.teWait && s.fld Fld.RAS_STATUS_STATE 0 == 1 && tuLe (tuAdd s.ras.vbAt s.teFrom) s.time then
      (s.modRas fun r => { r with frame := true, teWait := false }).setFld Fld.RAS_STATUS_TE_LOST 0 0
    else s

/-- RAS_TE_LOST: no edge arrived within one further frame period (R320). -/
def execRasTeLost (t : Tu) (s : State) : Host.Outcome State Fault Refusal :=
  s.when t fun s =>
    if s.ras.teWait && s.fld Fld.RAS_STATUS_STATE 0 == 1 &&
        tuLe (tuAdd s.ras.vbAt (s.teFrom + s.pixels s.framePix)) s.time then
      ((s.modRas fun r => { r with frame := true, teWait := false }).setFld Fld.RAS_STATUS_TE_LOST 0 1).raise0 403
    else s

/-- A write of RAS_DSI_CMD: with GO, the command leaves; one at a time (R319). -/
def State.dsiSend (s : State) (v : Word) : State :=
  let s1 := s.writeRW .RAS_DSI_CMD 0 v
  if v.getLsbD 7 && s.ras.dsiCmd.isNone && s.gateOpen 26 && s.gateOpen 27 && !s.standby then
    let bytes := ((List.range 4).flatMap fun k => leBytes 4 (s.reg .RAS_DSI_PAYLOAD k).toNat).take (getBits v 8 5)
    (s1.emit (.dsi (getBits v 0 6) bytes)).modRas fun r => { r with dsiCmd := some (v.getLsbD 6) }
  else s1

/-- DSI_CMD_SEND (R319). -/
def execDsiCmdSend (t : Tu) (v : Word) (s : State) : Host.Outcome State Fault Refusal :=
  s.whenHost t fun s => s.dsiSend v

/-- DSI_CMD_DONE (R319): only a read turns the bus around. -/
def execDsiCmdDone (t : Tu) (r : DsiResult) (s : State) : Host.Outcome State Fault Refusal :=
  s.when t fun s =>
    match s.ras.dsiCmd with
    | none => s
    | some rd =>
      let s1 := s.modRas fun r => { r with dsiCmd := none }
      match r with
      | .ok d =>
        let s2 := s1.setFld Fld.RAS_DSI_RESP_DONE 0 1
        if rd then s2.setFld Fld.RAS_DSI_RESP_DATA 0 d.toNat else s2
      | .noAck => (s1.setFld Fld.RAS_DSI_RESP_ERR 0 1).raise 409 1 0
      | .noAnswer => if rd then (s1.setFld Fld.RAS_DSI_RESP_ERR 0 1).raise 409 2 0 else s

/-- RAS_HFO_DONE: the last byte of a host-frame picture is written (R321). -/
def execRasHfoDone (t : Tu) (s : State) : Host.Outcome State Fault Refusal :=
  s.whenHost t fun s =>
    match s.ras.hfoBusy with
    | none => s
    | some (i, lines) =>
      let s1 := lines.foldl (fun s l => s.emit (.hostWrite l.1 l.2 false)) s
      ((s1.setFld Fld.RAS_HFO_STATUS_LAST 0 i).modRas fun r => { r with hfoBusy := none }).raise0 407

/-- RAS_UNDERRUN: a layer's line buffer runs dry during a frame (R323). -/
def State.layerDry (s : State) (n : Nat) : State :=
  if s.fld Fld.RAS_STATUS_STATE 0 = 1 ∧ s.inPicture ∧ s.layerOn n then
    (((s.modRas fun r => { r with dry := n :: r.dry, underrun := true }).bump Fld.RAS_UNDERRUN_COUNT n 1).setFld
      Fld.RAS_LAYER_STATUS_ACTIVE n 0).raise 404 1 n
  else s

/-- RAS_UNDERRUN. -/
def execRasUnderrun (t : Tu) (n : Fin 8) (s : State) : Host.Outcome State Fault Refusal :=
  s.when t fun s => s.layerDry n

/-- RAS_BUF_REL: RELEASED 0, DEFERRED 1, IN_USE 2, NOT_LEASED 3 (R326). -/
def State.bufRelease (s : State) (b : Nat) : State :=
  if s.fld Fld.RAS_BUF_STATUS_STATE b = 0 then s.setFld Fld.RAS_BUF_REL_RESULT_CODE 0 3
  else if s.bufNamed b then s.setFld Fld.RAS_BUF_REL_RESULT_CODE 0 2
  else if s.fld Fld.RAS_STATUS_STATE 0 ≠ 0 ∧ s.ras.reading.contains b then
    (s.setFld Fld.RAS_BUF_STATUS_STATE b 2).setFld Fld.RAS_BUF_REL_RESULT_CODE 0 1
  else (s.setFld Fld.RAS_BUF_STATUS_STATE b 0).setFld Fld.RAS_BUF_REL_RESULT_CODE 0 0

/-- RAS_BUF_REL. -/
def execRasBufRel (t : Tu) (b : Fin 16) (s : State) : Host.Outcome State Fault Refusal :=
  s.whenHost t fun s => s.bufRelease b

/-- Gate 26 closes: line buffers, CRC results and the static count are lost (R328). -/
def State.rasGateClosed (s : State) : State :=
  (s.resetRegs [.RAS_CRC_VAL] (fun _ => true)).modRas fun r =>
    { r with frame := false, teWait := false, crcDsi := none, crcHfo := none, staticDsi := 0, staticHfo := 0 }

/-- Gate 26 opens, or Lantern runs again: scanning resumes from a full vertical blank (R328). -/
def State.rasResume (s : State) : State :=
  if s.fld Fld.RAS_STATUS_STATE 0 = 1 ∨ s.flag Fld.RAS_CTRL_EN 0 then s.rasBlank else s

end Sys2Proof.Machine
end

