-- ==== Sys2Proof/Machine/Pll.lean ====
section
/-! DEFINITION. The sample PLLs, the APLL and the AUXCLK outputs (chapter 05: R111 to R115, R119 to R130). The JPLL stands
in Clk, beside the sources. -/

namespace Sys2Proof.Machine

/-! ### AUXCLK outputs (R125 to R128) -/

/-- a times n. -/
def Ratio.mul (a : Ratio) (n : Nat) : Ratio := ⟨a.num * n, a.den⟩

/-- How many whole `p` fit into `a`, rounded up. -/
def Ratio.periods (a p : Ratio) : Int := (Ratio.mk (a.num * p.den) (a.den * p.num.toNat)).ceil

/-- The period in tu of an output's source, none while it is held low or stopped: the JPLL's 1,000 MHz, a slice clock, or
the APLL's AUX feed (R126, Table PLL-1). -/
def State.auxSource (s : State) (i : Nat) : Option Ratio :=
  let m := tget 0 s.clk.muxNow (3 + i)
  if m = 0 then some ⟨8192, 1⟩
  else if m = 3 then
    if s.pll.feedsLow then none
    else some ⟨8192000000 * s.fld Fld.PLL_APLL_DIV_AUX_DIV 0, s.fld Fld.PLL_APLL_FREQ_VCO_KHZ 0⟩
  else if s.dieAsleep (m - 1) then none
  else some ⟨32768000000, s.rateNow (m - 1)⟩

/-- The period of an output and its high phase: of an odd divisor one source cycle longer than the low phase; an undivided
output has equal phases (R126; log 108). -/
def State.auxShape (s : State) (i : Nat) (src : Ratio) : Ratio × Ratio :=
  let n := s.fld Fld.PLL_AUX_CFG_DIV i + 1
  (src.mul n, if n = 1 then ⟨src.num, src.den * 2⟩ else src.mul ((n + 1) / 2))

/-- The programmed delay in tu: COARSE source cycles and FINE × 5 ps. -/
def State.auxDelay (s : State) (i : Nat) (src : Ratio) : Ratio :=
  (src.mul (s.fld Fld.PLL_AUX_DELAY_COARSE i)).add ⟨4096 * s.fld Fld.PLL_AUX_DELAY_FINE i, 100⟩

/-- AUXCLK output i. -/
def State.auxOf (s : State) (i : Nat) : Aux := tget Aux.init s.pll.aux i

/-- The output is enabled and its clock runs. -/
def State.auxOn (s : State) (i : Nat) : Bool := s.flag Fld.PLL_AUX_CFG_EN i && s.gateOpen (30 + i)

/-- The first rising edge at or after an instant. -/
def Aux.rise (a : Aux) (t : Ratio) : Ratio :=
  if t.le a.edge then a.edge else a.edge.add ⟨a.period.num * (t.sub a.edge).periods a.period, a.period.den⟩

/-- The end of the last high phase before a rising edge. -/
def Aux.fall (a : Aux) (r : Ratio) : Ratio :=
  if !a.on || r.le a.edge then a.low else (r.sub a.period).add a.high

/-- An output runs on as `a` says. -/
def State.auxPut (s : State) (i : Nat) (a : Aux) : State :=
  if a = s.auxOf i then s
  else
    ({ s with pll := { s.pll with aux := tput Aux.init s.pll.aux i a } }).emit
      (.auxClk i a.low (if a.on then some a.edge else none) a.period a.high)

/-- The output takes its settings over at its next rising edge, which comes `x` later than it would have: the current
cycle completes first, and so does the high phase of an output that ends (R127). -/
def State.auxOut (s : State) (i : Nat) (x : Ratio) : State :=
  let a := s.auxOf i
  let r := a.rise (.ofTu s.time)
  match s.auxSource i with
  | none => s
  | some src =>
    let (p, h) := s.auxShape i src
    s.auxPut i ⟨s.auxOn i, a.fall r, r.add x, p, h⟩

/-- The source of an output stops, held low at once (R125). -/
def State.auxCut (s : State) (i : Nat) : State :=
  let a := s.auxOf i
  let t := Ratio.ofTu s.time
  let e := a.fall (a.rise t)
  s.auxPut i { a with on := false, low := if t.lt e then t else e }

/-- The source of an output starts, or is another one: it runs from an instant `x` on, with a full high phase. -/
def State.auxStart (s : State) (i : Nat) (x : Ratio) : State :=
  let a := s.auxOf i
  match s.auxSource i with
  | none => s.auxCut i
  | some src =>
    let (p, h) := s.auxShape i src
    s.auxPut i ⟨s.auxOn i, a.fall (a.rise (.ofTu s.time)), x, p, h⟩

/-- The phase of a source that the output did not run from before is left open: its first rising edge comes within one
output period (log 108). -/
def State.auxFresh (s : State) (i : Nat) : State :=
  match s.auxSource i with
  | none => s.auxCut i
  | some src => s.used.auxStart i (.ofTu (tuAdd s.time (s.freeBelow (s.auxShape i src).1.ceil.toNat)))

/-- A write of PLL_AUX_CFG (R126, R127). -/
def State.writeAuxCfg (s : State) (i : Nat) (v : Word) : State := (s.writeRW .PLL_AUX_CFG i v).auxOut i (.ofInt 0)

/-- A write of PLL_AUX_DELAY: an increase by x stretches the low phase before the next rising edge by x, a decrease by x
is an increase by the period less x (R127). -/
def State.writeAuxDelay (s : State) (i : Nat) (v : Word) : State :=
  let s1 := s.writeRW .PLL_AUX_DELAY i v
  match s1.auxSource i with
  | none => s1
  | some src =>
    let x := (s1.auxDelay i src).sub (s.auxDelay i src)
    let p := (s.auxOf i).period
    s1.auxOut i (if x.num < 0 then x.add ⟨p.num * (Ratio.periods ⟨-x.num, x.den⟩ p), p.den⟩ else x)

/-- AUX_CFG_WRITE (R126, R127). -/
def execAuxCfgWrite (t : Tu) (i : Fin 4) (v : Word) (s : State) : Host.Outcome State Fault Refusal :=
  s.whenHost t fun s => s.writeAuxCfg i v

/-- AUX_DELAY_WRITE (R126, R127). -/
def execAuxDelayWrite (t : Tu) (i : Fin 4) (v : Word) (s : State) : Host.Outcome State Fault Refusal :=
  s.whenHost t fun s => s.writeAuxDelay i v

/-- A SYNC aligns an output that has ALIGN = 1: a rising edge falls at the SYNC time plus the delay, reached by a longer
low phase; an output that could reach it by a shorter one only has its edge whole periods later (R128). -/
def State.auxAlign (s : State) (i : Nat) (ts : Tu) : State :=
  let a := s.auxOf i
  match s.auxSource i with
  | none => s
  | some src =>
    let want := (Ratio.ofTu ts).add (s.auxDelay i src)
    let first := a.edge.add a.period
    let edge := if first.le want then want
      else want.add ⟨a.period.num * (first.sub want).periods a.period, a.period.den⟩
    let last := a.rise (edge.sub a.period)
    let last := if last.add a.period |>.le edge then last else last.sub a.period
    s.auxPut i { a with low := if a.on then last.add a.high else a.low, edge := edge }

/-- A SYNC aligns the outputs that have ALIGN = 1 (R128). -/
def State.auxSync (s : State) (ts : Tu) : State :=
  s.each 4 fun s i => if s.flag Fld.PLL_AUX_CFG_ALIGN i then s.auxAlign i ts else s

/-- The outputs whose source is input m of their multiplexer follow it. -/
def State.auxFollow (s : State) (m : Nat) (f : State → Nat → State) : State :=
  s.each 4 fun s i => if tget 0 s.clk.muxNow (3 + i) = m then f s i else s

/-! ### Sample PLLs: settings in effect -/

/-- PLL_SPLL_STATUS.STATE: 0 LOCKED, 1 FOLLOWING, 2 RAMPING, 3 UNLOCKED. -/
def State.spllState (s : State) (e : Nat) : Nat := s.fld Fld.PLL_SPLL_STATUS_STATE e

/-- LOCK of a sample PLL. -/
def State.spllLock (s : State) (e : Nat) : Bool := s.flag Fld.PLL_SPLL_STATUS_LOCK e

/-- REF_MODE as it acts: 0b11 as ×1 (Table PLL-4). -/
def refMode (x : Nat) : Nat := if x = 3 then 0 else x

/-- BW of a sample PLL as it acts: 0b11 as 2 MHz. -/
def spllBw (x : Nat) : Nat := if x = 3 then 1 else x

/-- A written rate as it is taken and read back (R122). -/
def State.rateLimit (s : State) (e x : Nat) : Nat :=
  clampN 6400000 (if s.pitched then rateMax s.pitch.recs e * 1000 else 8200000) x

/-- How far, in kS/s, the rate has moved since the FOLLOW or RAMP began: 1 ppm of the starting rate in each µs, or SLOPE
× 10 MHz/µs of the VCO, which is twice the lane rate (R122). -/
def State.rateMoved (s : State) (e : Nat) : Nat :=
  let dt := (s.time - (s.spllOf e).rampAt).toNat
  if s.spllState e = 1 then s.rateNow e * dt / (8192000 * 1000000)
  else if s.spllState e = 2 then 5000 * max 1 (s.fld Fld.PLL_SPLL_CFG_SLOPE e) * dt / 8192000
  else 0

/-- The instantaneous lane rate, in kS/s. -/
def State.rateInst (s : State) (e : Nat) : Nat :=
  let r := s.rateNow e
  let g := (s.spllOf e).target
  if r ≤ g then min g (r + s.rateMoved e) else max g (r - s.rateMoved e)

/-- A sample PLL's lock event (EV065, EV066) and rate event (EV068, EV069). -/
def State.spllLockEvent (s : State) (e bit : Nat) : State := s.raise (65 + e) (2 ^ bit) 0
def State.spllRateEvent (s : State) (e bit : Nat) : State := s.raise (68 + e) (2 ^ bit) 0

/-! ### Anchors (R119, R120) -/

/-- A new anchor falls due at the first tick at or after an instant; one already due is replaced. -/
def State.anchorLater (s : State) (e : Nat) (t : Tu) (fast : Bool) : State :=
  s.modSpll e fun p => { p with anchorDue := some (t, fast || (match p.anchorDue with | some (_, f) => f | none => false)) }

/-- The fine steps, in the shorter direction, from the grid to one with a sample at an instant plus the offset in effect:
at most 1,024 (R113, R120). -/
def State.stepsTo (s : State) (e : Nat) (t : Tu) : Nat :=
  let (a, b) := s.gridOrigin e
  let d := ((a - t.toNat) * s.rateNow e + b - s.ofsNow e * 4000000) % 8192000000
  ceilDiv (min d (8192000000 - d)).toNat 4000000

/-- The anchor is set at an instant: PLL_SPLL_ANCHOR holds its frame, and ALIGNED reads 0 until it is reached: 32 fine
steps in each 4 ns cycle by fast realignment, else one (R120). An anchor that is reached by fast realignment restarts the
die's reduction units (R247). -/
def State.setAnchor (s : State) (e : Nat) (frame : Frame) (fast : Bool) (t : Tu) : State :=
  let n := s.stepsTo e t
  let s1 := s.loseGrid e fun s =>
    (((s.endMove e).ofsHold e).setFrame .PLL_SPLL_ANCHOR_LO .PLL_SPLL_ANCHOR_HI e frame).modSpll e fun p =>
      { p with anchorDue := none, moving := true, fast := fast, anchor := t,
               moveEnd := tuAdd t (ns 4 * if fast then ceilDiv n 32 else n) }
  if fast then s1.redStartAll ((List.range 8).map (8 * e + ·)) 3 t else s1

/-- The realignment to the anchor is over (R119, R120); during a FOLLOW ALIGNED stays 0. -/
def State.anchorReached (s : State) (e : Nat) : State :=
  let p := s.spllOf e
  if p.moving && tuLe p.moveEnd s.time then
    s.onGrid e fun s =>
      let s1 := s.endMove e
      if s.spllState e = 0 then (s1.align e true).modSpll e fun q => { q with alignAt := p.moveEnd } else s1
  else s

/-- Anchors that fall due at this tick, or at this internal instant while UNPITCHED; one that fast realignment reaches, at a
STEP, also during a FOLLOW. -/
def State.anchorTick (s : State) (frame : Frame) : State :=
  s.each 2 fun s e =>
    match (s.spllOf e).anchorDue with
    | some (t, fast) =>
      if tuLe t s.time && s.spllLock e && (s.spllState e == 0 || (fast && s.spllState e == 1)) then s.setAnchor e frame fast s.time else s
    | none => s

/-- The grid loses its alignment, and a move toward an anchor ends. -/
def State.unalign (s : State) (e : Nat) : State :=
  s.loseGrid e fun s => (s.endMove e).modSpll e fun p => { p with anchorDue := none }

/-- The grid loses its alignment in a FOLLOW: a fast realignment that a lock still owes is made (R124). -/
def State.unalignSlow (s : State) (e : Nat) : State :=
  s.loseGrid e fun s =>
    (if (s.spllOf e).fast then s else s.endMove e).modSpll e fun p => { p with anchorDue := p.anchorDue.filter fun a => a.2 }

/-! ### Rate changes (R122, R123) -/

/-- The lane rate is another one: the grid, and the AUXCLK outputs on the slice clock, follow. -/
def State.setRate (s : State) (e rate : Nat) : State :=
  if rate = s.rateNow e then s
  else
    (s.loseGrid e fun s => s.setFld Fld.PLL_SPLL_RATE_NOW_RATE e rate).auxFollow (1 + e) fun s i => s.auxOut i (.ofInt 0)

/-- The rate reached so far becomes the rate that a new change starts from. -/
def State.rateHold (s : State) (e : Nat) : State :=
  (s.setRate e (s.rateInst e)).modSpll e fun p => { p with rampAt := s.time }

/-- A FOLLOW begins. -/
def State.startFollow (s : State) (e target : Nat) : State :=
  let s1 := (s.rateHold e).modSpll e fun p => { p with target := target, mode := .follow }
  (s1.unalignSlow e).setFld Fld.PLL_SPLL_STATUS_STATE e 1

/-- A RAMP begins: every sample carries CLKBAD, the loop unlocks, and calibration pauses. -/
def State.startRamp (s : State) (e target : Nat) : State :=
  let s1 := (s.rateHold e).modSpll e fun p =>
    { p with target := target, mode := .ramp, lockAt := none, bad := some (p.bad.getD s.time) }
  ((((s1.unalign e).setFld Fld.PLL_SPLL_STATUS_STATE e 2).setFld Fld.PLL_SPLL_STATUS_LOCK e 0).setFld
    Fld.PLL_SPLL_STATUS_SETTLED e 0).pauseLanes e

/-- The change to a target rate: none where it is in force with nothing under way, else FOLLOW or RAMP. Between the lock
and the settle instant of a RAMP the loop is LOCKED, so the choice is open again there (DEDUCED, log 53). -/
def State.changeRate (s : State) (e target : Nat) : State :=
  let p := s.spllOf e
  let r := s.rateInst e
  let d := ((target : Int) - r).natAbs
  if target = p.target ∧ p.mode = .none then s
  else if s.spllLock e ∧ s.spllState e < 2 ∧ d * 1000000 ≤ 200 * r ∧ !s.flag Fld.PLL_SPLL_CFG_FORCE_RAMP e then
    s.startFollow e target
  else s.startRamp e target

/-- PLL_SPLL_RATE commits at this tick. -/
def State.commitRate (s : State) (e : Nat) (v : Word) : State :=
  let r := s.rateLimit e (getBits v 0 23)
  (s.setFld Fld.PLL_SPLL_RATE_RATE e r).changeRate e r

/-- The SH fields of PLL_SPLL_CFG commit at this tick: a change of the effective REF_MODE or BW acts as a RAMP to the
current rate (R123). -/
def State.commitSpllCfg (s : State) (e : Nat) (v : Word) : State :=
  let p := s.spllOf e
  let m := refMode (getBits v 0 2)
  let b := spllBw (getBits v 2 2)
  let s1 := (s.setFld Fld.PLL_SPLL_CFG_REF_MODE e (getBits v 0 2)).setFld Fld.PLL_SPLL_CFG_BW e (getBits v 2 2)
  if m = p.refMode ∧ b = p.bw then s1
  else (s1.modSpll e fun p => { p with refMode := m, bw := b }).startRamp e p.target

/-- PLL_LOCK_CFG of p = 1, 2 commits (R129). -/
def State.commitLockCfg (s : State) (p : Nat) (v : Word) : State := s.setReg .PLL_LOCK_CFG p (v &&& 0xFFF#32)

/-- T2 of a full pitch: a rate above the new limit is set to it (R123). -/
def State.limitRate (s : State) (e : Nat) : State :=
  let r := s.rateLimit e (s.fld Fld.PLL_SPLL_RATE_RATE e)
  if r < s.fld Fld.PLL_SPLL_RATE_RATE e then (s.setFld Fld.PLL_SPLL_RATE_RATE e r).changeRate e r else s

/-! ### Lock (R115, R124) -/

/-- Lanes begin or resume their dwell at the next tick: the die's SPLL is settled and the factory tables are loaded
(R124, R165, R412). -/
def State.startLanes (s : State) (e : Nat) : State :=
  if !s.settled e || !s.pwr.tables then s
  else
    s.each 8 fun s i =>
      let ln := 8 * e + i
      if (s.paused ln || (s.lane ln).dwell.isNone) && !s.laneOff ln then
        (s.modLane ln fun l => { l with restart := true }).setFld Fld.ILV_LANE_STATUS_PAUSED ln 0
      else s

/-- SPLL_LOCK_LOSS (R124). A rate that was moving stays where it stands. -/
def State.spllLost (s : State) (e : Nat) (first : Tu) : State :=
  let s1 := (s.rateHold e).modSpll e fun p =>
    { p with lost := true, lockAt := none, bad := some (p.bad.getD first), tryAt := s.time, countAt := s.time }
  let s2 := ((((s1.unalign e).setFld Fld.PLL_SPLL_STATUS_LOCK e 0).setFld Fld.PLL_SPLL_STATUS_SETTLED e 0).setFld
    Fld.PLL_SPLL_STATUS_STATE e 3).setFld Fld.PLL_SPLL_STATUS_LOST e 1
  (s2.pauseLanes e).spllLockEvent e 0

/-- `n` periods, rounded up to whole tu, of a PFD whose period is given in tenths of a ns (Table PLL-1). -/
def pfdSpan (tenths n : Nat) : Nat := ceilDiv (n * tenths * 8192) 10

/-- The PFD period, in tenths of a ns, of a loop whose reference period is `tenths`, under REF_MODE ×1, ×2 or ÷2 (R111). -/
def pfdPeriod (tenths mode : Nat) : Nat := if mode = 1 then tenths / 2 else if mode = 2 then 2 * tenths else tenths

/-- The span of the 2^NEXP comparisons, one in each PFD cycle, that a lock of loop p takes; NEXP below 4 acts as 4. -/
def State.countSpan (s : State) (p tenths : Nat) : Nat :=
  pfdSpan tenths (2 ^ max 4 (s.fld Fld.PLL_LOCK_CFG_NEXP p))

/-- WINDOW of loop p in ps: 0 acts as 1. -/
def State.lockWindow (s : State) (p : Nat) : Nat := max 1 (s.fld Fld.PLL_LOCK_CFG_WINDOW p)

/-- A comparison now with a phase error of `err` ps, the first outside WINDOW having come at `first`, declares a loss:
the fourth in a row outside WINDOW, or one beyond 4 × WINDOW (R115). -/
def State.lossShown (s : State) (p tenths : Nat) (first : Tu) (err : Nat) : Bool :=
  let w := s.lockWindow p
  decide (4 * w < err) || (decide (w < err) && tuLe (tuAdd first (pfdSpan tenths 3)) s.time)

/-- The PFD period of a sample PLL, in tenths of a ns. -/
def State.spllPfd (s : State) (e : Nat) : Nat := pfdPeriod 40 (s.spllOf e).refMode

/-- SPLL_LOCK_LOSS: while lock is lost already, an excursion only restarts the count of comparisons (R124). -/
def execSpllLockLoss (t : Tu) (e : Fin 2) (first : Tu) (err : Nat) (s : State) : Host.Outcome State Fault Refusal :=
  s.when t fun s =>
    if s.dieAsleep e then s
    else if s.spllLock e then
      if s.lossShown (1 + e) (s.spllPfd e) (s.stamp first) err then s.spllLost e (s.stamp first) else s
    else if s.lockWindow (1 + e) < err then s.modSpll e fun p => { p with countAt := s.time } else s

/-- SPLL_LOCK: the lock declaration at the target rate; the anchor is the first tick at or after it (R119, R124). A
FOLLOW that a loss of lock cut short has reached its target. -/
def State.spllLocked (s : State) (e : Nat) : State :=
  let p := s.spllOf e
  let s1 := ((s.setRate e p.target).setFld Fld.PLL_SPLL_STATUS_LOCK e 1).setFld Fld.PLL_SPLL_STATUS_STATE e 0
  let s2 := (s1.modSpll e fun p =>
    { p with lockAt := some s.time, mode := if p.mode = .follow then .none else p.mode }).anchorLater e s.time true
  if p.mode = .follow then s2.spllRateEvent e 0 else s2

/-- The span of the comparisons that a sample PLL's lock takes (R115). -/
def State.lockSpan (s : State) (e : Nat) : Nat := s.countSpan (1 + e) (s.spllPfd e)

/-- The comparisons of a lock have been made: in a RAMP since the VCO reached the target rate, else within the 1 ms of the
attempt where lock had been lost (R115, R122, R124). -/
def State.lockThere (s : State) (e : Nat) : Bool :=
  let p := s.spllOf e
  let d := s.lockSpan e
  tuLe (tuAdd p.countAt d) s.time &&
    (if s.spllState e = 2 then
      tuLe (tuAdd p.rampAt d) s.time && ({ s with time := s.time - BitVec.ofNat 64 d }).rateInst e == p.target
    else !p.lost || tuLe s.time (tuAdd p.tryAt (ns 1000000)))

/-- SPLL_LOCK. -/
def execSpllLock (t : Tu) (e : Fin 2) (s : State) : Host.Outcome State Fault Refusal :=
  s.when t fun s => if !s.spllLock e && !s.dieAsleep e && !s.standby && s.lockThere e then s.spllLocked e else s

/-- The settle instant: the later of lock + 2 µs and the end of the fast realignment (R124). -/
def State.settleAt (s : State) (e : Nat) (lock : Tu) : Tu :=
  let a := tuAdd lock (ns 2000)
  let b := (s.spllOf e).moveEnd
  if tuLe a b then b else a

/-- SPLL_SETTLE: CLKBAD ends at the settle instant (R124). A FOLLOW that a commit after the lock began goes on. -/
def State.spllSettle (s : State) (e : Nat) (x : Tu) : State :=
  let p := s.spllOf e
  let s1 := (s.setFld Fld.PLL_SPLL_STATUS_SETTLED e 1).modSpll e fun p =>
    { p with bad := none, spans := p.spans ++ (p.bad.map fun b => (b, x)).toList, lost := false, lockAt := none,
             mode := if p.mode = .ramp then .none else p.mode }
  let s2 := (if p.mode = .ramp then s1.rampSettled e else s1).startLanes e
  let s3 := if p.lost then s2.spllLockEvent e 1 else s2
  if p.mode = .ramp then s3.spllRateEvent e 1 else s3

/-- SPLL_SETTLE. -/
def execSpllSettle (t : Tu) (e : Fin 2) (s : State) : Host.Outcome State Fault Refusal :=
  s.when t fun s =>
    let s1 := s.anchorReached e
    let p := s1.spllOf e
    match p.lockAt with
    | none => s1
    | some l =>
      let x := s1.settleAt e l
      if s1.spllLock e && tuLe x s1.time && p.anchorDue.isNone && !p.moving then s1.spllSettle e x else s1

/-- SPLL_RELOCK_RETRY: an attempt did not lock within 1 ms of its beginning, and a new one begins (R124). -/
def execSpllRelockRetry (t : Tu) (e : Fin 2) (s : State) : Host.Outcome State Fault Refusal :=
  s.when t fun s =>
    if s.spllState e = 3 ∧ !s.dieAsleep e ∧ tuLe (tuAdd (s.spllOf e).tryAt (ns 1000000)) s.time then
      (s.bump Fld.PLL_SPLL_RETRY_COUNT e 1).modSpll e fun p => { p with tryAt := s.time, countAt := s.time }
    else s

/-- FOLLOW_DONE: RATE_NOW has reached the target; the new anchor is the first tick at least 8 µs later (R119, R122). -/
def execFollowDone (t : Tu) (e : Fin 2) (s : State) : Host.Outcome State Fault Refusal :=
  s.when t fun s =>
    if s.spllState e = 1 && s.rateInst e == (s.spllOf e).target then
      let s1 := ((s.setRate e (s.spllOf e).target).setFld Fld.PLL_SPLL_STATUS_STATE e 0).modSpll e fun p =>
        { p with mode := .none }
      (s1.anchorLater e (tuAdd s.time (ns 8000)) false).spllRateEvent e 0
    else s

/-- SPLL_ANCHOR_REACHED (R119, R120). -/
def execSpllAnchorReached (t : Tu) (e : Fin 2) (s : State) : Host.Outcome State Fault Refusal :=
  s.when t fun s => s.anchorReached e

/-- A write of PLL_SPLL_PHASE: OFS_NOW moves toward it by one fine step in each 4 ns cycle (R120, R121). -/
def State.writePhase (s : State) (e x : Nat) : State :=
  (s.ofsHold e).setFld Fld.PLL_SPLL_PHASE_OFS e x

/-- SPLL_PHASE_WRITE (R120, R121). -/
def execSpllPhaseWrite (t : Tu) (e : Fin 2) (ofs : BitVec 11) (s : State) : Host.Outcome State Fault Refusal :=
  s.whenHost t fun s => s.writePhase e ofs.toNat

/-! ### What has come to pass by now -/

/-- The realignments that are over by now have reached their anchors. -/
def State.anchorsReached (s : State) : State := s.each 2 State.anchorReached

/-- The state as an access at this instant finds it: what waited for an instant that has come has taken place. -/
def State.upToNow (s : State) : State := (((s.anchorsReached).placeTrigs).pmuArrive s.time).redSettle

/-- The state as an access at instant `t` finds it, with the notes of what has come to pass (Tables TRG-9, MGT-10). -/
def State.nowAt (s : State) (t : Tu) : State :=
  let x := (s.at t).upToNow
  s.logNoteDrop (s.mergeNote 4 x)

/-- What a host access at instant `t` does in the state that it finds: nothing while the host link is in reset (R410). -/
def State.whenAccess (s : State) (t : Tu) (f : State → State) : Host.Outcome State Fault Refusal :=
  if s.hostUp then (s.nowAt t).done (f (s.nowAt t)) else .next s

/-! ### APLL (R125) -/

/-- Multiplexer PIX has the APLL in effect. -/
def State.pixFromApll (s : State) : Bool := tget 0 s.clk.muxNow 1 == 0

/-- The pixel clock runs. -/
def State.pixRuns (s : State) : Bool := !(s.pixFromApll && s.pll.feedsLow)

/-- VCO in range, dividers in range, and PIX at most 600 MHz. -/
def apllOk (khz pix aux : Nat) : Bool :=
  decide (4000000 ≤ khz ∧ khz ≤ 6000000 ∧ 2 ≤ pix ∧ 3 ≤ aux ∧ khz ≤ 600000 * pix)

/-- A write of the APLL that is ignored. -/
def State.apllRefuse (s : State) : State := (s.setFld Fld.PLL_APLL_STATUS_CFG_ERR 0 1).raise0 70

/-- The APLL retunes: its feeds are held low until lock + 2 µs. -/
def State.apllTune (s : State) : State :=
  ({ (s.setFld Fld.PLL_APLL_STATUS_LOCK 0 0) with
    pll := { s.pll with feedsLow := true, apllLockAt := none, apllFrom := s.time } }).auxFollow 3 State.auxCut

/-- A write that retunes the APLL; one that changes its register is a pixel-clock change (R318). -/
def State.apllRetune (s : State) (w : ApllWrite) : State :=
  match w with
  | .vcoKhz v =>
    if apllOk v.toNat (s.fld Fld.PLL_APLL_DIV_PIX_DIV 0) (s.fld Fld.PLL_APLL_DIV_AUX_DIV 0) then
      let s1 := (s.setFld Fld.PLL_APLL_FREQ_VCO_KHZ 0 v.toNat).apllTune
      if v.toNat = s.fld Fld.PLL_APLL_FREQ_VCO_KHZ 0 then s1 else s1.pixChange s1.pixRuns
    else s.apllRefuse
  | .refMode m =>
    let old := s.fld Fld.PLL_APLL_CFG_REF_MODE 0
    let s1 := s.setFld Fld.PLL_APLL_CFG_REF_MODE 0 m
    let s2 := s1.apllTune
    if m.val = old then s2 else s2.pixChange s2.pixRuns

/-- APLL_RETUNE (R125). -/
def execApllRetune (t : Tu) (w : ApllWrite) (s : State) : Host.Outcome State Fault Refusal :=
  s.whenHost t fun s => s.apllRetune w

/-- A write of PLL_APLL_DIV (R125, R127). -/
def State.apllDiv (s : State) (pix aux : Nat) : State :=
  if apllOk (s.fld Fld.PLL_APLL_FREQ_VCO_KHZ 0) pix aux then
    let s1 := (s.setFld Fld.PLL_APLL_DIV_PIX_DIV 0 pix).setFld Fld.PLL_APLL_DIV_AUX_DIV 0 aux
    let s2 := s1.auxFollow 3 fun s i => s.auxOut i (.ofInt 0)
    if pix = s.fld Fld.PLL_APLL_DIV_PIX_DIV 0 then s2 else s2.pixChange s2.pixRuns
  else s.apllRefuse

/-- APLL_DIV_WRITE (R125). -/
def execApllDivWrite (t : Tu) (pix aux : Byte) (s : State) : Host.Outcome State Fault Refusal :=
  s.whenHost t fun s => s.apllDiv pix.toNat aux.toNat

/-- The APLL loses lock: the feeds run on from the held VCO; with PIX on the APLL it is a pixel-clock change (R125,
R318). -/
def State.apllLoss (s : State) : State :=
  let s0 := { s with pll := { s.pll with apllFrom := s.time } }
  let s1 := ((s0.setFld Fld.PLL_APLL_STATUS_LOCK 0 0).setFld Fld.PLL_APLL_STATUS_LOST 0 1).raise0 67
  if s.pixFromApll then s1.pixChange s1.pixRuns else s1

/-- The PFD period of the APLL, in tenths of a ns. -/
def State.apllPfd (s : State) : Nat := pfdPeriod 40 (refMode (s.fld Fld.PLL_APLL_CFG_REF_MODE 0))

/-- The APLL is locked, and the comparison of an APLL_LOCK declares a loss. -/
def State.apllLosing (s : State) (first : Tu) (err : Nat) : Bool :=
  s.flag Fld.PLL_APLL_STATUS_LOCK 0 && s.lossShown 3 s.apllPfd (s.stamp first) err

/-- APLL_LOCK: `up`: the last of the comparisons of a lock, made since the loop began to tune; else the comparison that
declares a loss (R115, R125). -/
def execApllLock (t : Tu) (up : Bool) (first : Tu) (err : Nat) (s : State) : Host.Outcome State Fault Refusal :=
  s.when t fun s =>
    if s.standby then s
    else if !up then (if s.apllLosing first err then s.apllLoss else s)
    else if s.flag Fld.PLL_APLL_STATUS_LOCK 0 then s
    else if tuLe (tuAdd s.pll.apllFrom (s.countSpan 3 s.apllPfd)) s.time then
      ({ (s.setFld Fld.PLL_APLL_STATUS_LOCK 0 1) with pll := { s.pll with apllLockAt := some s.time } }).raise0 67
    else s

/-- APLL_FEED_RESUME: the feeds restart 2 µs after lock (R125), and Lantern's count begins (R318). -/
def execApllFeedResume (t : Tu) (s : State) : Host.Outcome State Fault Refusal :=
  s.when t fun s =>
    match s.pll.apllLockAt with
    | none => s
    | some l =>
      if s.pll.feedsLow && s.flag Fld.PLL_APLL_STATUS_LOCK 0 && tuLe (tuAdd l (ns 2000)) s.time then
        let s0 := { s with pll := { s.pll with feedsLow := false } }
        let s1 := s0.auxFollow 3 fun s i =>
          match s.auxSource i with
          | some src => s.auxStart i ((Ratio.ofTu s.time).add (s.auxDelay i src))
          | none => s
        if s1.fld Fld.RAS_STATUS_STATE 0 = 2 ∧ s1.pixFromApll ∧ s1.ras.restartFrom.isNone then
          s1.modRas fun r => { r with restartFrom := some s.time }
        else s1
      else s

end Sys2Proof.Machine
end

