-- ==== Sys2Proof/Machine/Clk.lean ====
section
/-! DEFINITION. The JPLL (R115 to R118), its reference sources (R82 to R84, R94 to R102), and the timing link (R85 to
R93, R413). -/

namespace Sys2Proof.Machine

/-! ### Instants that a move of local time takes along -/

/-- An instant moved by `d` tu. -/
def tuMove (d : Int) (t : Tu) : Tu := t + BitVec.ofInt 64 d

/-- Stamps and timers that name past or coming instants, when local time moves by `d` tu: they keep their place against
the running clocks (R37, R100, R413). -/
def State.shiftTimers (s : State) (d : Int) : State :=
  let m := tuMove d
  let mo (x : Option Tu) := x.map m
  { s with
    tick := { s.tick with
      sh := s.tick.sh.map fun w => { w with stamp := m w.stamp },
      hold := s.tick.hold.map fun h => (m h.1, h.2),
      caps := s.tick.caps.map fun c => (c.1, c.2.map fun x => { x with stamp := m x.stamp }),
      bcasts := s.tick.bcasts.map fun b => { b with stamp := m b.stamp },
      syncCmds := s.tick.syncCmds.map fun x => (m x.1, x.2),
      maps := s.tick.maps.map fun x => (x.1, x.2.1, m x.2.2),
      was := s.tick.was.map fun x => (m x.1, x.2),
      steps := s.tick.steps.map fun x => (m x.1, m x.2) },
    clk := { s.clk with
      noSrcFrom := mo s.clk.noSrcFrom,
      switching := s.clk.switching.map fun x => (x.1, m x.2.1, x.2.2),
      gate := s.clk.gate.map fun g => { g with at_ := m g.at_ },
      clkinAt := mo s.clk.clkinAt,
      qualAt := m s.clk.qualAt },
    tlk := { s.tlk with
      echo := s.tlk.echo.map fun e => (e.1, m e.2),
      mark := m s.tlk.mark,
      slew := s.tlk.slew.map fun x => (x.1, m x.2) },
    pll := { s.pll with
      apllLockAt := mo s.pll.apllLockAt,
      jpllFrom := m s.pll.jpllFrom,
      apllFrom := m s.pll.apllFrom,
      aux := s.pll.aux.map fun (x : Nat × Aux) =>
        (x.1, { x.2 with low := x.2.low.add (.ofInt d), edge := x.2.edge.add (.ofInt d) }) },
    dma := { s.dma with
      inbound := s.dma.inbound.map fun x => { x with due := m x.due },
      stalls := s.dma.stalls.map fun x => (m x.1, m x.2),
      blocked := mo s.dma.blocked,
      torn := s.dma.torn.map fun x => (m x.1, x.2) },
    gln := { s.gln with attach := s.gln.attach.map fun a => { a with at_ := m a.at_ } },
    mgt := { s.mgt with nonce := s.mgt.nonce.map fun n => (n.1, m n.2), trialFrom := mo s.mgt.trialFrom },
    pitch := { s.pitch with accepted := s.pitch.accepted.map fun a => { a with at_ := m a.at_ } },
    ras := { s.ras with vbAt := m s.ras.vbAt, pend := mo s.ras.pend, restartFrom := mo s.ras.restartFrom },
    pwr := { s.pwr with released := m s.pwr.released, entered := m s.pwr.entered } }

/-- The timers of the lanes, the front ends and the sample PLLs, when local time moves by `d` tu. -/
def State.shiftUnits (s : State) (d : Int) : State :=
  let m := tuMove d
  let mo (x : Option Tu) := x.map m
  let s1 := s.each 16 fun s i =>
    (s.modLane i fun l =>
      { l with dwell := mo l.dwell, restored := l.restored.map fun r => (m r.1, r.2), staleAt := m l.staleAt,
               freshAt := mo l.freshAt }).modAfe i fun a =>
        { a with settle := mo a.settle, cmIn := mo a.cmIn, cmOvr := mo a.cmOvr, hold := a.hold.map fun x => x.add (.ofInt d),
                 spans := a.spans.map fun x => (x.1.add (.ofInt d), x.2.add (.ofInt d)),
                 settles := a.settles.map fun x => (m x.1, m x.2) }
  s1.each 2 fun s e => s.modSpll e fun p =>
    { p with lockAt := mo p.lockAt, anchorDue := p.anchorDue.map fun a => (m a.1, a.2), rampAt := m p.rampAt,
             ofsAt := m p.ofsAt, bad := mo p.bad, spans := p.spans.map fun x => (m x.1, m x.2), anchor := m p.anchor,
             base := m p.base, alignAt := m p.alignAt, moveEnd := m p.moveEnd, tryAt := m p.tryAt, countAt := m p.countAt }

/-- The stamps of the trigger engine and of the pins, when local time moves by `d` tu. -/
def State.shiftTriggers (s : State) (d : Int) : State :=
  let m := tuMove d
  let mo (x : Option Tu) := x.map m
  let shiftGen (g : Gen) : Gen :=
    { g with from_ := m g.from_, fired := mo g.fired, waitA := g.waitA.map fun w => (m w.1, w.2),
             patSince := mo g.patSince, forced := g.forced.map m }
  let s1 := s.each 16 fun s i =>
    ({ s with
        comps := tmod Comp.init s.comps i fun c =>
          { c with hiRise := mo c.hiRise, hiFall := mo c.hiFall, loRise := mo c.loRise, loFall := mo c.loFall },
        planes := tmod Plane.init s.planes i fun p => { p with clearedAt := mo p.clearedAt } }).modGen i shiftGen
  let s2 := s1.each 8 fun s i => { s with trigIn := tmod 0 s.trigIn i fun t => if t = 0 then 0 else m t }
  let s3 := s2.each 4 fun s i =>
    { s with trigOut := tmod TrigLine.init s.trigOut i fun l =>
        { l with waiting := l.waiting.map (fun p => { p with edge := m p.edge }), stop := mo l.stop } }
  { s3 with maskFire := s3.maskFire.map fun x => (x.1, m x.2),
            xtrigCycle := s3.xtrigCycle.map fun x => (x.1, m x.2),
            snaps := s3.snaps.map fun x => (x.1, { x.2 with at_ := m x.2.at_ }),
            sync := { s3.sync with outStop := mo s3.sync.outStop } }

/-- Local time moves by `d` tu. -/
def State.moveTime (s : State) (d : Int) : State :=
  (({ s with time := tuMove d s.time }.shiftTimers d).shiftUnits d).shiftTriggers d

/-! ### The JPLL (R115 to R118) -/

/-- CLK_SRC_STATUS.ACTIVE: 0 LINK, 1 REFIN, 2 coast. -/
def State.active (s : State) : Nat := s.fld Fld.CLK_SRC_STATUS_ACTIVE 0

/-- LOCK of the JPLL clears: LOST sets, EV064 with cause LOSS (R118). -/
def State.jpllUnlock (s : State) : State :=
  if s.flag Fld.PLL_JPLL_STATUS_LOCK 0 then
    ((s.setFld Fld.PLL_JPLL_STATUS_LOCK 0 0).setFld Fld.PLL_JPLL_STATUS_LOST 0 1).raise 64 1 0
  else s

/-- ACTIVE changes, with COAST; a conversion whose stamp is still to be taken follows (Table PMU-5). -/
def State.setActive (s : State) (x : Nat) : State :=
  ((s.setFld Fld.CLK_SRC_STATUS_ACTIVE 0 x).setFld Fld.PLL_JPLL_STATUS_COAST 0 (x == 2).toNat).pmuCoast

/-- The PFD period of the JPLL in tenths of a ns, on LINK or REFIN, under the REF_MODE in effect (Table PLL-1, R116). -/
def State.jpllPfd (s : State) : Nat := pfdPeriod (if s.active = 0 then 64 else 100) s.pll.jpllRef

/-- JPLL_LOCK: the last comparison, with a phase error of `err` ps, of those that a lock takes; they count from the switch
to the source (R115, R118). -/
def execJpllLock (t : Tu) (err : BitVec 16) (s : State) : Host.Outcome State Fault Refusal :=
  s.when t fun s =>
    if s.active ≠ 2 ∧ !s.flag Fld.PLL_JPLL_STATUS_LOCK 0 ∧ err.toInt.natAbs ≤ s.lockWindow 0 ∧
        tuLe (tuAdd s.pll.jpllFrom (s.countSpan 0 s.jpllPfd)) s.time then
      (((s.setFld Fld.PLL_JPLL_STATUS_PHASE_ERR 0 err.toNat).setFld Fld.PLL_JPLL_STATUS_LOCK 0 1).setFld
        Fld.HUB_BOOT_STATUS_CLK_OK 0 1).raise 64 2 0
    else s

/-- JPLL_CFG_WRITE: BW acts at once, REF_MODE at the next source switch or coast exit (R116). -/
def execJpllCfgWrite (t : Tu) (v : Word) (s : State) : Host.Outcome State Fault Refusal :=
  s.whenHost t fun s => s.writeRW .PLL_JPLL_CFG 0 v

/-! ### Sources (R82 to R84) -/

/-- The fields of a source. -/
def qualFld (x : Nat) : Fld := if x = 0 then Fld.CLK_SRC_STATUS_LINK_QUAL else Fld.CLK_SRC_STATUS_REFIN_QUAL
def qcountFld (x : Nat) : Fld := if x = 0 then Fld.CLK_SRC_STATUS_LINK_QCOUNT else Fld.CLK_SRC_STATUS_REFIN_QCOUNT
def devFld (x : Nat) : Fld := if x = 0 then Fld.CLK_FREQ_DEV_LINK else Fld.CLK_FREQ_DEV_REFIN

/-- A source is qualified. -/
def State.qualified (s : State) (x : Nat) : Bool := s.flag (qualFld x) 0

/-- The sources that a code of PREF names, the preferred one first (R83). -/
def prefOrder (p : Nat) : List Nat := if p = 0 then [0, 1] else if p = 1 then [1, 0] else if p = 2 then [0] else [1]

/-- The sources that PREF allows; ENABLE = 0 excludes LINK (R83, R84). -/
def State.prefs (s : State) : List Nat :=
  (prefOrder (s.fld Fld.CLK_SRC_CFG_PREF 0)).filter fun x => x != 0 || s.flag Fld.TLK_CTRL_ENABLE 0

/-- RELOCK_STATE: 0 idle, 1 SLEWING, 2 HOLD. -/
def State.relockState (s : State) : Nat := s.fld Fld.TLK_STATUS_RELOCK_STATE 0

/-- The relock ends where it stands (R102). -/
def State.relockIdle (s : State) : State :=
  let s1 := s.setFld Fld.TLK_STATUS_RELOCK_STATE 0 0
  { s1 with tlk := { s1.tlk with fresh := false, actSlew := false, slew := none } }

/-- A source loses its qualification; for LINK, a HOLD ends (R102). -/
def State.unqualify (s : State) (x : Nat) : State :=
  let s1 := (s.setFld (qualFld x) 0 0).setFld (qcountFld x) 0 0
  if x = 0 ∧ s.relockState = 2 then s1.relockIdle else s1

/-- A switch to a qualified source (R95, R99, R102, R117). -/
def State.switchTo (s : State) (x : Nat) : State :=
  let s1 := (s.jpllUnlock).setActive x
  let s2 := { (s1.setFld Fld.CLK_SRC_STATUS_NO_SOURCE 0 0) with
    clk := { s1.clk with noSrcFrom := none },
    pll := { s1.pll with jpllRef := refMode (s1.fld Fld.PLL_JPLL_CFG_REF_MODE 0), jpllFrom := s1.time } }
  let s3 := s2.relockIdle
  (if x = 0 then { s3 with tlk := { s3.tlk with fresh := true, mark := s3.time } } else s3).raise0 2

/-- The source to switch to now, if any (R83, R97, R99). -/
def State.chosen (s : State) : Option Nat :=
  if s.active = 2 then
    match s.prefs.find? s.qualified with
    | some x => if x = 0 ∧ s.relockState = 2 then none else some x
    | none => none
  else
    match s.prefs.head? with
    | some x => if x ≠ s.active ∧ s.qualified x ∧ s.flag Fld.CLK_SRC_CFG_REVERT 0 then some x else none
    | none => none

/-- The device switches where the order of the sources asks for it. -/
def State.choose (s : State) : State := match s.chosen with | some x => s.switchTo x | none => s

/-- The JPLL enters coast (R96 step 1, R98); the span of CLK_QUAL.TIMEOUT begins where `timed` (R97). -/
def State.toCoast (s : State) (timed : Bool) : State :=
  let s1 := (s.jpllUnlock).setActive 2
  if timed then { s1 with clk := { s1.clk with noSrcFrom := some s1.time } } else s1

/-- The monitor trips the active source (R96, R97, R102). -/
def State.trip (s : State) : State :=
  if s.active = 2 then s
  else
    let x := s.active
    (((((s.toCoast true).raise0 0).raise0 1).unqualify x).relockIdle).choose

/-- The sources that PREF and ENABLE allow have changed (R84). -/
def State.prefChanged (s : State) : State :=
  let out := [0, 1].filter fun x => !s.prefs.contains x
  let a := s.active
  let s1 := out.foldl State.unqualify s
  if out.contains a then
    let s2 := s1.relockIdle
    match s2.prefs.find? s2.qualified with
    | some x => s2.switchTo x
    | none => (s2.toCoast true).raise0 1
  else s1.choose

/-- CLK_SRC_CFG_WRITE (R84). -/
def execClkSrcCfgWrite (t : Tu) (v : Word) (s : State) : Host.Outcome State Fault Refusal :=
  s.whenHost t fun s => (s.writeRW .CLK_SRC_CFG 0 v).prefChanged

/-- A write of TLK_CTRL.ENABLE. -/
def State.writeTlkEnable (s : State) (en : Bool) : State :=
  if en = s.flag Fld.TLK_CTRL_ENABLE 0 then s
  else
    let s1 := (s.setFld Fld.TLK_CTRL_ENABLE 0 en.toNat).prefChanged
    if en then s1.diagClear [0] else s1

/-- TLK_ENABLE_WRITE (R84). -/
def execTlkEnableWrite (t : Tu) (en : Bool) (s : State) : Host.Outcome State Fault Refusal :=
  s.whenHost t fun s => s.writeTlkEnable en

/-- JPLL_LOCK_LOSS: the comparison, with a phase error of `err` ps, that declares a loss while the source is within
limits: as a trip, with EV064 in addition (R115, R118). `first`: the first comparison of the excursion. -/
def execJpllLockLoss (t : Tu) (first : Tu) (err : BitVec 16) (s : State) : Host.Outcome State Fault Refusal :=
  s.when t fun s =>
    if s.active ≠ 2 ∧ s.flag Fld.PLL_JPLL_STATUS_LOCK 0 ∧ s.lossShown 0 s.jpllPfd (s.stamp first) err.toInt.natAbs then
      (s.setFld Fld.PLL_JPLL_STATUS_PHASE_ERR 0 err.toNat).trip
    else s

/-! ### Qualification and monitoring (R94 to R97) -/

/-- Block lock holds and hi_ber is clear. -/
def State.linkOk (s : State) : Bool := s.flag Fld.TLK_STATUS_BLOCK_LOCK 0 && !s.flag Fld.TLK_STATUS_HI_BER 0

/-- An interval of a source that is not active: it passes or fails. -/
def State.qualOne (s : State) (x : Nat) (m : QualMeas) : State :=
  let pass := decide (m.ppm.toInt.natAbs ≤ max 1 (s.fld Fld.CLK_QUAL_PPM 0)) && !m.broken &&
    (x != 0 || (s.linkOk && !s.clk.linkBroke))
  if pass then
    let n := min 255 (s.fld (qcountFld x) 0 + 1)
    (s.setFld (qcountFld x) 0 n).setFld (qualFld x) 0 (decide (max 1 (s.fld Fld.CLK_QUAL_COUNT 0) ≤ n)).toNat
  else s.unqualify x

/-- What an interval does to a source (R94, R96). -/
def State.qualSource (s : State) (x : Nat) (m : QualMeas) : State :=
  if !s.prefs.contains x then s
  else
    let s1 := s.setFld (devFld x) 0 m.ppm.toNat
    if s.active = x then s1 else s1.qualOne x m

/-- A deviation of the active source beyond CLK_MON.PPM. The spec gives 1 to 255; 0 acts as 1 (DESIGN CHOICE, log 111). -/
def State.beyondMon (s : State) (dev : BitVec 16) : Bool := decide (max 1 (s.fld Fld.CLK_MON_PPM 0) < dev.toInt.natAbs)

/-- The intervals last 10 µs, on one grid from reset (R94). -/
def qualSpan : Nat := ns 10000

/-- An interval of that grid has ended since the last one that was taken. -/
def State.qualDue (s : State) : Bool := tuLe (tuAdd s.clk.qualAt qualSpan) s.time

/-- The latest end of an interval becomes the last; the next one begins with LINK as it stands. -/
def State.qualNext (s : State) : State :=
  { s with clk := { s.clk with
      qualAt := tuAdd s.clk.qualAt ((s.time - s.clk.qualAt).toNat / qualSpan * qualSpan), linkBroke := !s.linkOk } }

/-- QUAL_INTERVAL (R94 to R97). -/
def State.qualInterval (s : State) (link refin : QualMeas) : State :=
  let s1 := (s.qualSource 0 link).qualSource 1 refin
  let s2 := if (s.active = 0 ∧ s.beyondMon link.ppm) ∨ (s.active = 1 ∧ s.beyondMon refin.ppm) then s1.trip else s1
  s2.choose

/-- QUAL_INTERVAL. -/
def execQualInterval (t : Tu) (link refin : QualMeas) (s : State) : Host.Outcome State Fault Refusal :=
  s.when t fun s => if s.standby || !s.qualDue then s else (s.qualInterval link refin).qualNext

/-- The condition of a trip holds (R96). The spec gives LOS_NS 20 to 255 and TLK_MARK.TIMEOUT 10 to 65,535; values below act
as 20 and 10 (DESIGN CHOICE, log 111). -/
def State.tripHolds (s : State) (c : TripCause) : Bool :=
  match c with
  | .edgeGap n => decide (max 20 (s.fld Fld.CLK_MON_LOS_NS 0) < n)
  | .ppm dev => s.beyondMon dev
  | .linkFault => s.active == 0 && !s.linkOk
  | .markerTimeout =>
    s.active == 0 && tuLe (tuAdd s.tlk.mark (ns (1000 * max 10 (s.fld Fld.TLK_MARK_TIMEOUT 0)))) s.time

/-- CLK_SRC_TRIP (R96). -/
def execClkSrcTrip (t : Tu) (cause : TripCause) (s : State) : Host.Outcome State Fault Refusal :=
  s.when t fun s =>
    if s.active ≠ 2 ∧ !s.standby ∧ s.tripHolds cause then
      let s1 := match cause with | .ppm dev => s.setFld (devFld s.active) 0 dev.toNat | _ => s
      s1.trip
    else s

/-- CLK_NO_SOURCE (R97): TIMEOUT ms from the trip, the exclusion or reset. -/
def execClkNoSource (t : Tu) (s : State) : Host.Outcome State Fault Refusal :=
  s.when t fun s =>
    match s.clk.noSrcFrom with
    | some t0 =>
      if s.active = 2 ∧ !s.standby ∧ tuLe (tuAdd t0 (ns (1000000 * max 1 (s.fld Fld.CLK_QUAL_TIMEOUT 0)))) s.time then
        let s1 := { s with clk := { s.clk with noSrcFrom := none } }
        (s1.setFld Fld.CLK_SRC_STATUS_NO_SOURCE 0 1).raise0 4
      else s
    | none => s

/-! ### The line (R85, R96) -/

/-- TLK_LOCK: block lock regained or lost. -/
def State.tlkLock (s : State) (up : Bool) : State :=
  if up = s.flag Fld.TLK_STATUS_BLOCK_LOCK 0 ∨ (up ∧ !s.flag Fld.TLK_CTRL_ENABLE 0) then s
  else
    let s0 := if up then s else { s with clk := { s.clk with linkBroke := true } }
    let s1 := (s0.setFld Fld.TLK_STATUS_BLOCK_LOCK 0 up.toNat).raise0 32
    if !up && s1.active == 0 then s1.trip else s1

/-- TLK_LOCK (R96, Table CLK-12). -/
def execTlkLock (t : Tu) (up : Bool) (s : State) : Host.Outcome State Fault Refusal :=
  s.when t fun s => if s.standby then s else s.tlkLock up

/-- hi_ber is set: EV043, and LINK trips where it is active. -/
def State.tlkHiBer (s : State) : State :=
  if s.flag Fld.TLK_STATUS_HI_BER 0 then s
  else
    let s0 := { s with clk := { s.clk with linkBroke := true } }
    let s1 := (s0.setFld Fld.TLK_STATUS_HI_BER 0 1).raise0 43
    if s1.active = 0 then s1.trip else s1

/-- TLK_HI_BER (R96). -/
def execTlkHiBer (t : Tu) (s : State) : Host.Outcome State Fault Refusal :=
  s.when t fun s => if s.standby then s else s.tlkHiBer

/-- TLK_HI_BER_CLEAR: hi_ber clears (Table CLK-7). -/
def execTlkHiBerClear (t : Tu) (s : State) : Host.Outcome State Fault Refusal :=
  s.when t fun s => s.setFld Fld.TLK_STATUS_HI_BER 0 0

/-! ### Link delay (R88) -/

/-- D in use, as 2 × n × D and 2 × n. -/
def State.delayFrac (s : State) : Nat × Nat :=
  if s.flag Fld.TLK_CTRL_DELAY_MODE 0 && !s.tlk.delays.isEmpty then (s.tlk.delays.sum, 2 * s.tlk.delays.length)
  else (s.fld Fld.TLK_DELAY_CFG_VALUE 0, 1)

/-- D in use, rounded up: what an arrival is corrected by, the marker instant being stamped to 1 tu (R87). -/
def State.delayUp (s : State) : Nat := let (a, b) := s.delayFrac; ceilDiv a b

/-- A message's arrival less the link delay. -/
def State.arrival (s : State) : Tu := s.time - BitVec.ofNat 64 s.delayUp

/-- D has changed from that of `s0`: TLK_DELAY_MEAS follows, and a change above 8,192 tu raises EV042, but for the first
value. -/
def State.delayChanged (s0 s : State) (first : Bool) : State :=
  let (a0, b0) := s0.delayFrac
  let (a, b) := s.delayFrac
  let s1 := s.setFld Fld.TLK_DELAY_MEAS_VALUE 0 (a / b)
  if !first && decide (8192 * b * b0 < ((a : Int) * b0 - a0 * b).natAbs) then s1.raise0 42 else s1

/-- A write of TLK_DELAY_CFG. -/
def State.writeDelayCfg (s : State) (v : Word) : State := s.delayChanged (s.writeRW .TLK_DELAY_CFG 0 v) false

/-- A write of TLK_CTRL.DELAY_MODE: measurement starts afresh, or D becomes VALUE. -/
def State.writeDelayMode (s : State) (on : Bool) : State :=
  if on = s.flag Fld.TLK_CTRL_DELAY_MODE 0 then s
  else
    let s1 := s.setFld Fld.TLK_CTRL_DELAY_MODE 0 on.toNat
    s.delayChanged { s1 with tlk := { s1.tlk with delays := [], echoOpen := false } } false

/-- ECHO_REQ: sent once at each tick whose frame number is a multiple of 1,024, or at each multiple of 2³³ tu while
UNPITCHED (R88, R93). The sequence begins at 0 and rises by 1 modulo 16 with each request (DESIGN CHOICE, log 112). -/
def State.echoReq (s : State) : State :=
  let start : Tu := if s.pitched then tickTime s.k s.frame else BitVec.ofNat 64 (s.time.toNat / 2 ^ 23 * 2 ^ 23)
  let due := if s.pitched then s.tick.issued && s.frame.toNat % 1024 == 0 else s.time.toNat / 2 ^ 23 % 1024 == 0
  let once := match s.tlk.echo with | some (_, x) => tuLt x start | none => true
  if due && once && s.flag Fld.TLK_CTRL_DELAY_MODE 0 && s.tlkTx then
    let q := s.tlk.echoSeq
    ({ s with tlk := { s.tlk with echo := some (q, s.time), echoOpen := true, echoSeq := (q + 1) % 16 } }).tlkSend
      (tlkMsg 6 q (s.time.toNat % 2 ^ 48))
  else s

/-- ECHO_REQ. -/
def execEchoReq (t : Tu) (s : State) : Host.Outcome State Fault Refusal := s.when t fun s => s.echoReq

/-- ECHO_RSP: a usable answer adds a value of the delay (R88). -/
def State.echoRsp (s : State) (seq turn : Nat) : State :=
  match s.tlk.echo with
  | some (q, tx) =>
    let d2 : Int := tuDiff tx s.time - turn
    if q = seq ∧ s.tlk.echoOpen then
      let s1 := { s with tlk := { s.tlk with echoOpen := false } }
      if 0 ≤ d2 ∧ d2 ≤ 2 * (2 ^ 24 - 1) ∧ s.flag Fld.TLK_CTRL_DELAY_MODE 0 then
        s.delayChanged { s1 with tlk := { s1.tlk with delays := (d2.toNat :: s.tlk.delays).take 16 } }
          s.tlk.delays.isEmpty
      else s1
    else s
  | none => s

/-! ### Relock and STEP (R89, R99 to R102, R369, R370, R413) -/

/-- A partner is attached and the epoch of the secondary follows the primary's (R369). -/
def State.epochFollows (s : State) : Bool :=
  s.attached && (s.flag Fld.GLN_CFG_ALIGN 0 || s.fld Fld.GLN_STATUS_MODE 0 != 0)

/-- The part is a secondary whose epoch follows the primary's. -/
def State.followsPartner (s : State) : Bool := s.epochFollows && decide (2 ≤ s.fld Fld.GLN_STATUS_ROLE 0)

/-- The first tick at least 2 µs from now: its frame number by R27. -/
def State.frameIn2us (s : State) : Frame :=
  let p := 2 ^ (s.k + 13)
  frameAt s.k s.frame (BitVec.ofNat 64 ((s.time.toNat + ns 2000 + p - 1) / p * p))

/-- A STEP by −e is decided: it is made at the next tick, or, with a partner that follows, at a tick that both know
(R99, R370). -/
def State.decideStep (s : State) (e : Int) : State :=
  if s.epochFollows && s.fld Fld.GLN_STATUS_ROLE 0 == 1 then
    let f := s.frameIn2us
    ({ s with tlk := { s.tlk with step := some e, stepFrame := some f } }).glnSend 7 0
      (leBytes 6 f.toNat ++ leBytes 8 (tuMove (-e) (tickTime s.k f)).toNat) 3
  else { s with tlk := { s.tlk with step := some e, stepFrame := none } }

/-- The epoch is set at the marker while UNPITCHED: no STEP, and the sample clocks do not move (R413, R119). -/
def State.setEpoch (s : State) (e : Int) : State :=
  let s1 := (s.moveTime (-e)).each 2 fun s x => s.loseGrid x fun s => s.endMove x
  let s1 := { s1 with tlk := { s1.tlk with fresh := false } }
  (s1.setFld Fld.TLK_STATUS_EPOCH_VALID 0 1).raise0 35

/-- TLK_MARK.TOL holds. -/
def State.withinTol (s : State) (e : Int) : Bool := decide (e.natAbs ≤ s.fld Fld.TLK_MARK_TOL 0)

/-- SLEW_RATE as it acts: 61 to 1,000 fs per tick (Table CLK-7). -/
def State.slewRate (s : State) : Nat := clampN 61 1000 (s.fld Fld.TLK_RELOCK_SLEW_RATE 0)

/-- What is left of the error of the slew under way, in 1/128 fs: in each tick period it has moved by SLEW_RATE, a tu being
15,625/128 fs (R99; log 110). -/
def State.slewLeft (s : State) : Nat :=
  match s.tlk.slew with
  | none => 0
  | some (e, t0) => e.natAbs * 15625 - 128 * s.slewRate * ((s.time - t0).toNat / s.period)

/-- The slew ends: EV038. -/
def State.slewDone (s : State) : State := (s.relockIdle).raise0 38

/-- A slew begins. -/
def State.slew (s : State) (e : Int) (act : Bool) : State :=
  let s1 := s.setFld Fld.TLK_STATUS_RELOCK_STATE 0 1
  let s2 := { s1 with tlk := { s1.tlk with actSlew := act, fresh := false, slew := some (e, s.time) } }
  if s.withinTol e then s2.slewDone else s2

/-- Table CLK-5 for a measured error. -/
def State.relock (s : State) (e : Int) : State :=
  let s1 := { s with tlk := { s.tlk with fresh := false, actSlew := false } }
  if e.natAbs ≤ s.fld Fld.TLK_RELOCK_WINDOW 0 then s1.slew e false
  else if s.flag Fld.TLK_RELOCK_POLICY 0 then
    let s2 := if s1.active = 0 then (s1.toCoast false).raise0 1 else s1
    (s2.setFld Fld.TLK_STATUS_RELOCK_STATE 0 2).raise0 37
  else (s1.setFld Fld.TLK_STATUS_RELOCK_STATE 0 0).decideStep e

/-- The snapshot of the tick at which a pending STEP is made is still to come (R102). -/
def State.stepOpen (s : State) : Bool := !s.pitched || decide (ns 64 ≤ (s.nextGrid - s.time).toNat)

/-- What a marker error does (R89, R99, R101, R102). -/
def State.markerAct (s : State) (e : Int) : State :=
  if s.followsPartner then s
  else if s.tlk.step.isSome then
    if s.tlk.stepFrame.isNone && s.stepOpen then { s with tlk := { s.tlk with step := some e } } else s
  else if !s.flag Fld.TLK_STATUS_EPOCH_VALID 0 then
    if !s.qualified 0 then s else if s.pitched then s.decideStep e else s.setEpoch e
  else if s.active ≠ 0 then s
  else if s.tlk.fresh then s.relock e
  else if e.natAbs ≤ s.fld Fld.TLK_RELOCK_WINDOW 0 then
    let s1 := { s with tlk := { s.tlk with actSlew := false } }
    if s1.relockState = 1 ∧ s1.withinTol e then s1.slewDone else s1
  else if s.tlk.actSlew ∧ s.relockState = 1 ∧ e.natAbs ≤ 8192000 then s
  else s.relock e

/-- TLK_STATUS.K_LINK and K_MATCH; EV040 on the change to mismatch (R90). -/
def State.noteK (s : State) (k : Nat) : State :=
  let was := s.fld Fld.TLK_STATUS_K_LINK 0 != 0 && !s.flag Fld.TLK_STATUS_K_MATCH 0
  let ok := k == s.k
  let s1 := (s.setFld Fld.TLK_STATUS_K_LINK 0 k).setFld Fld.TLK_STATUS_K_MATCH 0 ok.toNat
  if !ok && !was then s1.raise0 40 else s1

/-- The run of markers outside TOL; EV033 at its third (R89). -/
def State.markRun (s : State) (e : Int) : State :=
  let n := if s.withinTol e then 0 else s.tlk.run + 1
  let s1 := { s with tlk := { s.tlk with run := n } }
  if n = 3 then s1.raise0 33 else s1

/-- A valid TICK arrives (R87, R89). -/
def State.marker (s : State) (k : Nat) (f : Frame) : State :=
  let e := tuDiff (tickTime k f) s.arrival
  let lim : Int := 2 ^ 31 - 1
  let s1 := (s.noteK k).setFld Fld.TLK_RELOCK_OFS_OFS 0 (unsgn 32 (max (-lim) (min e lim)))
  let s2 := { s1 with tlk := { s1.tlk with mark := s1.time, lastE := e } }
  (s2.markRun e).markerAct e

/-- An accepted action in HOLD completes the switch to LINK (R101). -/
def State.relockAct (s : State) (step : Bool) : State :=
  let e := s.tlk.lastE
  if s.relockState = 2 ∧ (step ∨ e.natAbs ≤ 8192000) then
    let s1 := s.switchTo 0
    let s2 := { s1 with tlk := { s1.tlk with fresh := false } }
    if step then s2.decideStep e else s2.slew e true
  else s

/-- RELOCK_ACT_STEP (R101). -/
def execRelockActStep (t : Tu) (s : State) : Host.Outcome State Fault Refusal := s.whenHost t fun s => s.relockAct true

/-- RELOCK_ACT_SLEW (R101). -/
def execRelockActSlew (t : Tu) (s : State) : Host.Outcome State Fault Refusal := s.whenHost t fun s => s.relockAct false

/-- TLK_SLEW_DONE: what is left of the error is within TOL (R99). -/
def execTlkSlewDone (t : Tu) (s : State) : Host.Outcome State Fault Refusal :=
  s.when t fun s =>
    if s.relockState = 1 ∧ s.slewLeft ≤ 15625 * s.fld Fld.TLK_MARK_TOL 0 then s.slewDone else s

/-! ### Broadcasts and triggers (R90 to R92) -/

/-- A broadcast is discarded with EV039 (R91). -/
def State.dropBcast (s : State) : State := (s.bump Fld.TLK_BCAST_DROP_COUNT 0 1).raise0 39

/-- The current frame: that of R27 before the first tick. -/
def State.frameBase (s : State) : Frame :=
  if s.tick.issued then s.frame else BitVec.ofNat 48 (s.time.toNat / 2 ^ (s.k + 13))

/-- A broadcast cannot be held for its frame (R90, R91). -/
def State.bcastRefused (s : State) (f : Frame) : Bool :=
  let d := (f - s.frameBase).toNat
  !s.flag Fld.TLK_STATUS_K_MATCH 0 || d == 0 || decide (2 ^ 20 < d) ||
    !tuLe (tuAdd s.arrival (ns 64)) (tickTime s.k f) || decide (16 ≤ s.tick.bcasts.length) || s.relockState == 2 ||
    s.fld Fld.HUB_PITCH_STATUS_STATE 0 == 2

/-- A SYNC, ARM or DISARM arrives; a SYNC with SUB[0] = 1 is carried at once (R371). -/
def State.bcast (s : State) (typ sub : Nat) (f : Frame) : State :=
  if !s.pitched then s.bump Fld.TLK_BCAST_DROP_COUNT 0 1
  else if s.bcastRefused f then s.dropBcast
  else
    let s1 := { s with tick := { s.tick with bcasts := s.tick.bcasts ++ [⟨typ, sub, f, s.time⟩] } }
    if typ = 2 ∧ sub % 2 = 1 ∧ s.attached then s1.glnSend 6 2 (leBytes 8 (tickTime s.k f).toNat) 3 else s1

/-- A TRIG arrives: placed at its time, which may lie up to 8 ns back, or discarded with EV041 (R92). -/
def State.tlkTrig (s : State) (line arg : Nat) : State :=
  let near := BitVec.ofNat 48 arg - s.time.setWidth 48
  let x : Tu := s.time + BitVec.ofInt 64 near.toInt
  let c := s.arrival
  let inside := tuLe (c - BitVec.ofNat 64 (ns 8)) x && tuLe x (tuAdd c (2 ^ 30))
  if !inside || s.relockState == 2 || !(s.fld Fld.TLK_TRIG_EN_LINES 0).testBit line then
    (s.bump Fld.TLK_TRIG_DROP_COUNT 0 1).raise0 41
  else if tuLe x s.time then s.trigLine line x
  else if 16 ≤ s.tlk.trigs.length then (s.bump Fld.TLK_TRIG_DROP_COUNT 0 1).raise0 41
  else { s with tlk := { s.tlk with trigs := trigIns s.tlk.trigs (line, x) } }

/-! ### Reception (R85, R86) -/

/-- Fields of a message. -/
def tlkTyp (m : BitVec 64) : Nat := (m.extractLsb' 60 4).toNat
def tlkSub (m : BitVec 64) : Nat := (m.extractLsb' 56 4).toNat
def tlkArg (m : BitVec 64) : Nat := (m.extractLsb' 8 48).toNat

/-- The receiver takes blocks. -/
def State.tlkRx (s : State) : Bool :=
  !s.standby && s.flag Fld.TLK_CTRL_ENABLE 0 && s.flag Fld.TLK_STATUS_BLOCK_LOCK 0

/-- A message fails its CRC: EV034 at the first since TLK_ERR was read. -/
def State.tlkCrcErr (s : State) : State := s.bumpRaise Fld.TLK_ERR_CRC 0 34 1 0

/-- A message is discarded for another reason, or an unknown control block arrives. -/
def State.tlkUnknown (s : State) : State := s.bump Fld.TLK_ERR_UNKNOWN 0 1

/-- The message is discarded under R86 although its CRC holds. -/
def tlkBad (m : BitVec 64) : Bool :=
  let t := tlkTyp m
  t == 0 || t == 6 || (8 ≤ t && t ≤ 10) || 12 ≤ t || (t == 1 && !(8 ≤ tlkSub m && tlkSub m ≤ 14))

/-- A data block arrives: its CRC and TYPE are checked, and a message of TYPE `typ` acts. -/
def State.tlkBlock (s : State) (m : BitVec 64) (typ : Nat) (f : State → State) : State :=
  if !s.tlkRx then s
  else if !tlkCrcOk m then s.tlkCrcErr
  else if tlkTyp m ≠ typ then s
  else if tlkBad m then s.tlkUnknown
  else f s

/-- TLK_TICK (R87, R89). -/
def execTlkTick (t : Tu) (m : BitVec 64) (s : State) : Host.Outcome State Fault Refusal :=
  s.when t fun s => s.tlkBlock m 1 fun s => s.marker (tlkSub m) (BitVec.ofNat 48 (tlkArg m))

/-- TLK_SYNC_MSG (R91). -/
def execTlkSyncMsg (t : Tu) (m : BitVec 64) (s : State) : Host.Outcome State Fault Refusal :=
  s.when t fun s => s.tlkBlock m 2 fun s => s.bcast 2 (tlkSub m) (BitVec.ofNat 48 (tlkArg m))

/-- TLK_ARM_MSG (R91). -/
def execTlkArmMsg (t : Tu) (m : BitVec 64) (s : State) : Host.Outcome State Fault Refusal :=
  s.when t fun s => s.tlkBlock m 3 fun s => s.bcast 3 (tlkSub m) (BitVec.ofNat 48 (tlkArg m))

/-- TLK_DISARM_MSG (R91). -/
def execTlkDisarmMsg (t : Tu) (m : BitVec 64) (s : State) : Host.Outcome State Fault Refusal :=
  s.when t fun s => s.tlkBlock m 4 fun s => s.bcast 4 (tlkSub m) (BitVec.ofNat 48 (tlkArg m))

/-- TLK_TRIG_MSG (R92). -/
def execTlkTrigMsg (t : Tu) (m : BitVec 64) (s : State) : Host.Outcome State Fault Refusal :=
  s.when t fun s => s.tlkBlock m 5 fun s => s.tlkTrig (tlkSub m) (tlkArg m)

/-- ECHO_RSP (R88). -/
def execEchoRsp (t : Tu) (m : BitVec 64) (s : State) : Host.Outcome State Fault Refusal :=
  s.when t fun s => s.tlkBlock m 7 fun s => s.echoRsp (tlkSub m) (tlkArg m)

/-- TLK_STATUS_MSG (R86). -/
def execTlkStatusMsg (t : Tu) (m : BitVec 64) (s : State) : Host.Outcome State Fault Refusal :=
  s.when t fun s => s.tlkBlock m 11 fun s => s.setFld Fld.TLK_PEER_STATUS_STATUS 0 (tlkArg m % 2 ^ 32)

/-- TLK_MSG_DISCARD (R85, R86). -/
def execTlkMsgDiscard (t : Tu) (b : TlkBlock) (s : State) : Host.Outcome State Fault Refusal :=
  s.when t fun s =>
    match b with
    | .data m => s.tlkBlock m (tlkTyp m) fun s => s
    | .control typ => if s.tlkRx && typ != 0x1E then s.tlkUnknown else s

end Sys2Proof.Machine
end

