-- ==== Sys2Proof/Machine/Gate.lean ====
section
/-! DEFINITION. The glitch-free multiplexers (R104, R105) and the clock-gate tree (R106 to R109), with the state in which
a reopened block returns (R419). -/

namespace Sys2Proof.Machine

/-! ### Multiplexers (R104, R105) -/

/-- CLK_MUX_STATUS.STATE<m>: 0 IDLE, 1 SWITCHING, 2 STUCK. -/
def State.muxState (s : State) (m : Nat) : Nat := getBits (s.reg .CLK_MUX_STATUS 0) (2 * m) 2

/-- The state with STATE<m> changed. -/
def State.setMux (s : State) (m x : Nat) : State :=
  s.setReg .CLK_MUX_STATUS 0 (putBits (s.reg .CLK_MUX_STATUS 0) (2 * m) 2 x)

/-- Multiplexer m has this input (Table CLK-8). -/
def muxInput (m sel : Nat) : Bool := decide (1 ≤ m ∧ m ≤ 6 ∧ (sel < 2 ∨ 3 ≤ m))

/-- A write of CLK_MUX_SEL: ignored while a switch runs or is stuck. A change of input starts a switch, which for
multiplexer PIX is a pixel-clock change (R318); an input that Table CLK-8 does not have starts none (DEDUCED, log 63). -/
def State.writeMuxSel (s : State) (m sel : Nat) : State :=
  if m = 0 ∨ 6 < m ∨ s.muxState m ≠ 0 then s
  else
    let s0 := s.setFld Fld.CLK_MUX_SEL_SEL m sel
    if !muxInput m sel ∨ sel = tget 0 s.clk.muxNow m then s0
    else
      let s1 := s0.setMux m 1
      let s2 := { s1 with clk := { s1.clk with switching := tins s1.clk.switching m (s1.time, sel) } }
      if m = 1 then s2.pixChange false else s2

/-- CLK_MUX_SEL_WRITE (R104). -/
def execClkMuxSelWrite (t : Tu) (m : Fin 7) (sel : Fin 4) (s : State) : Host.Outcome State Fault Refusal :=
  s.whenHost t fun s => s.writeMuxSel m sel

/-- The domain of a multiplexer runs on its selection: AUXCLK outputs follow, conversions under way carry CLKSW (Table
PMU-5), and Lantern counts from there (R318). -/
def State.muxSettled (s : State) (m sel : Nat) : State :=
  let s1 := { (s.setMux m 0) with clk := { s.clk with
    switching := s.clk.switching.filter fun e => e.1 ≠ m, muxNow := tput 0 s.clk.muxNow m sel } }
  if m = 1 then
    if s1.fld Fld.RAS_STATUS_STATE 0 = 2 ∧ s1.pixRuns then s1.modRas fun r => { r with restartFrom := some s1.time }
    else s1
  else if m = 2 then s1.pmuSwitched
  else if 3 ≤ m then s1.auxFresh (m - 3)
  else s1

/-- CLK_MUX_SWITCH_DONE (R104). -/
def execClkMuxSwitchDone (t : Tu) (m : Fin 7) (s : State) : Host.Outcome State Fault Refusal :=
  s.when t fun s =>
    if s.muxState m = 1 ∧ m.val ≠ 0 then s.muxSettled m (s.fld Fld.CLK_MUX_SEL_SEL m) else s

/-- CLK_MUX_STUCK: 10 µs after the write the switch has not completed (R105). -/
def execClkMuxStuck (t : Tu) (m : Fin 7) (s : State) : Host.Outcome State Fault Refusal :=
  s.when t fun s =>
    match s.clk.switching.find? fun e => e.1 == m.val with
    | some (_, t0, _) =>
      if s.muxState m = 1 ∧ m.val ≠ 0 ∧ tuLe (tuAdd t0 (ns 10000)) s.time then
        let s1 := s.setMux m 2
        { s1 with clk := { s1.clk with switching := s1.clk.switching.filter fun e => e.1 ≠ m.val } }.raise0 5
      else s
    | none => s

/-- CTL_MUX_SWITCH: to the RC oscillator when the system reference has stopped, and back when the JPLL is locked or in
coast (R104). -/
def execCtlMuxSwitch (t : Tu) (toRc : Bool) (s : State) : Host.Outcome State Fault Refusal :=
  s.when t fun s =>
    if toRc then s.setMux 0 3
    else if s.flag Fld.PLL_JPLL_STATUS_LOCK 0 || s.flag Fld.PLL_JPLL_STATUS_COAST 0 then s.setMux 0 0
    else s

/-- PIXEL_CLOCK_CHANGE: each of the changes of R318. -/
def execPixelClockChange (t : Tu) (w : PixWrite) (s : State) : Host.Outcome State Fault Refusal :=
  match w with
  | .muxSel sel => s.whenHost t fun s => s.writeMuxSel 1 sel
  | .apllFreq v => s.whenHost t fun s => s.apllRetune (.vcoKhz v)
  | .apllRefMode m => s.whenHost t fun s => s.apllRetune (.refMode m)
  | .pixDiv v => s.whenHost t fun s => s.apllDiv v.toNat (s.fld Fld.PLL_APLL_DIV_AUX_DIV 0)
  | .apllLoss first err => s.when t fun s =>
    if !s.standby && s.pixFromApll && s.apllLosing first err then s.apllLoss else s

/-! ### What is in use (R107, R308, R328) -/

/-- The parent of a node: the table's, or for a routable node that of its GATE record (R106). -/
def State.parentOf (s : State) (n : Nat) : Nat :=
  if 29 ≤ n then recFld s.pitch.recs 0xA n 0 2 (gateParent n) else gateParent n

/-- The nodes of the lanes that serve active channel ch, and of its cluster and die. -/
def State.chanNodes (s : State) (ch : Nat) : List Nat :=
  (s.groupOf (s.firstLane ch)).map (7 + ·) ++ [3 + ch / 4, 1 + ch / 8]

/-- Nodes bound to an armed region. -/
def State.regionNodes (s : State) (m : Nat) : List Nat :=
  if s.armed m then (s.segChans m).flatMap s.chanNodes ++ [1 + m / 16, 23 + m / 16] else []

/-- Nodes bound to an enabled queue: its source, and the memory controller of the stack that stages it. -/
def State.queueNodes (s : State) (q : Nat) : List Nat :=
  let u := s.fld Fld.DMA_Q_KIND_UNIT q
  let k := s.qKind q
  if s.qState q = 0 ∨ 4 ≤ s.qState q then []
  else if 1 ≤ k ∧ k ≤ 3 then s.chanNodes (s.fld Fld.RED_SRC_CH u) ++ [3 + u / 4, 1 + u / 8, 23 + u / 8]
  else if k = 4 then [3 + u / 8, 1 + u / 16, 23 + u / 16]
  else if k = 5 then [1 + u / 16, 23 + u / 16]
  else if k = 6 then [25]
  else []

/-- The nodes of a counter's source code (Table TIC-1). -/
def ticNodes (c code : Nat) : List Nat := if code < 8 then [7 + 4 * c + code / 2] else if code = 0x20 then [29] else []

/-- Nodes bound to a measuring counter. -/
def State.counterNodes (s : State) (i : Nat) : List Nat :=
  if s.measuring i then
    [3 + i / 8, 1 + i / 16] ++ ticNodes (i / 8) (s.fld Fld.TIC_SRC_START i) ++ ticNodes (i / 8) (s.fld Fld.TIC_SRC_STOP i)
  else []

/-- Nodes bound to an enabled Lantern layer. -/
def State.layerNodes (s : State) (n : Nat) : List Nat :=
  if s.flag Fld.RAS_LAYER_CFG_EN n || s.rasFld Fld.RAS_LAYER_CFG_EN n != 0 then
    let p := s.fld Fld.RAS_LAYER_SRC_UNIT n
    [26, 27] ++ (if s.fld Fld.RAS_LAYER_SRC_KIND n = 1 then [3 + p / 4, 1 + p / 8] else [])
  else []

/-- A measure converter has RUN, a conversion, a queued request or a pending calibration (R308). -/
def State.pmuBusy (s : State) (x : Nat) : Bool :=
  s.flag Fld.PMU_SEQ_STATUS_RUNNING x || (s.mc x).act.isSome || !(s.mc x).queue.isEmpty || (s.mc x).cal

/-- The DSI output scans out. -/
def State.dsiScans (s : State) : Bool :=
  s.fld Fld.RAS_STATUS_STATE 0 != 0 && s.rasFld Fld.RAS_CTRL_OUT_DSI 0 != 0

/-- The block of a node is under self-test (R430). -/
def State.nodeTested (s : State) (n : Nat) : Bool :=
  match s.dia.bist with
  | none => false
  | some u =>
    if u < 8 then n == 3 + u % 4 || n == 1 + u % 4 / 2 || decide (7 + 4 * (u % 4) ≤ n ∧ n < 11 + 4 * (u % 4))
    else if u < 12 then n == 1 + u % 2 || n == 23 + u % 2
    else if u = 12 then n == 25
    else n == 26

/-- The block of a node is in use. -/
def State.inUse (s : State) (n : Nat) : Bool :=
  n == 0 || (List.range 32).any (fun m => (s.regionNodes m).contains n) ||
    (List.range 64).any (fun q => (s.queueNodes q).contains n) ||
    (List.range 32).any (fun i => (s.counterNodes i).contains n) ||
    (List.range 8).any (fun l => (s.layerNodes l).contains n) ||
    s.nodeTested n || (n == 25 && (s.pmuBusy 0 || s.pmuBusy 1)) || ((n == 26 || n == 27) && s.dsiScans) || (n == 28 && s.attached)

/-! ### Clocks stop and start -/

/-- The state with a node's bit in CLK_GATE_STATE changed. -/
def State.setGate (s : State) (n : Nat) (b : Bool) : State :=
  if n < 32 then s.setReg .CLK_GATE_STATE_LO 0 (putBits (s.reg .CLK_GATE_STATE_LO 0) n 1 b.toNat)
  else s.setReg .CLK_GATE_STATE_HI 0 (putBits (s.reg .CLK_GATE_STATE_HI 0) (n - 32) 1 b.toNat)

/-- The clock of a node stops (R108 item 3). -/
def State.stopNode (s : State) (n : Nat) : State :=
  if !s.gateOpen n then s
  else
    let s1 := s.setGate n false
    if n = 1 ∨ n = 2 then s1.auxFollow n State.auxCut
    else if 7 ≤ n ∧ n ≤ 22 then s1.abandonDwell (n - 7)
    else if n = 26 then s1.rasGateClosed
    else if 30 ≤ n ∧ n ≤ 33 then s1.auxOut (n - 30) (.ofInt 0)
    else s1

/-- A cluster's clock starts again: front ends settle, comparators start afresh, planes and masks read 0, its lanes are
stale, and reductions and dwells restart at the next tick (R419). -/
def State.clusterWoken (s : State) (c : Nat) : State :=
  let s1 := (List.range 4).foldl (fun s i =>
    (((s.settle (4 * c + i) (ns 1000)).freshComp (4 * c + i)).makeStale (4 * c + i))) (s.accLose c)
  { s1 with pwr := { s1.pwr with woken := s1.pwr.woken ||| (1#4 <<< c) } }

/-- A lane's clock starts again: its comparators start afresh (R183), it is CAL_STALE (R109), and its dwell starts at the
next tick once its die's SPLL is settled (R165, R419). -/
def State.laneStarted (s : State) (ln : Nat) : State :=
  ((s.freshComp ln).makeStale ln).startLanes (ln / 8)

/-- The clock of a node starts (R109). -/
def State.startNode (s : State) (n : Nat) : State :=
  if s.gateOpen n then s
  else
    let s1 := s.setGate n true
    if n = 1 ∨ n = 2 then (if s1.spllLock (n - 1) then s1.anchorLater (n - 1) s1.time true else s1).auxFollow n State.auxFresh
    else if 3 ≤ n ∧ n ≤ 6 then s1.clusterWoken (n - 3)
    else if 7 ≤ n ∧ n ≤ 22 then s1.laneStarted (n - 7)
    else if n = 25 then (s1.pmuGo 0 s1.time).pmuGo 1 s1.time
    else if n = 26 then s1.rasResume
    else if 30 ≤ n ∧ n ≤ 33 then s1.auxFresh (n - 30)
    else s1

/-- Reductions of woken clusters restart at this tick, or internal instant (R247, R419). -/
def State.wokenTick (s : State) : State :=
  let s1 := s.each 4 fun s c =>
    if s.pwr.woken.getLsbD c then s.redStartAll ((List.range 4).map (4 * c + ·)) 4 s.time else s
  { s1 with pwr := { s1.pwr with woken := 0 } }

/-! ### Requests (R107 to R109) -/

/-- CLK_GATE_RESULT of a request. -/
def State.gateResult (s : State) (n code : Nat) : State :=
  (s.setFld Fld.CLK_GATE_RESULT_NODE 0 n).setFld Fld.CLK_GATE_RESULT_CODE 0 code

/-- Why a close is refused, 0 where it is granted: 6 BAD_NODE, 3 REFUSED_CHILD, 5 REFUSED_IN_USE. -/
def State.closeRefused (s : State) (n : Nat) : Nat :=
  if 33 < n then 6
  else if (List.range 34).any fun c => c != 0 && s.parentOf c == n && s.gateOpen c then 3
  else if s.inUse n then 5 else 0

/-- FORCE is honoured: the node of a stuck multiplexer, or node 27 under a stuck PIX (R108). -/
def State.forceHonoured (s : State) (n : Nat) : Bool :=
  ((n == 26 || n == 27) && s.muxState 1 == 2) || (n == 25 && s.muxState 2 == 2) ||
    (decide (30 ≤ n ∧ n ≤ 33) && s.muxState (n - 27) == 2)

/-- A close is requested. -/
def State.requestClose (s : State) (n : Nat) (force : Bool) : State :=
  if s.clk.gate.isSome then s.setFld Fld.CLK_GATE_RESULT_OVERRUN 0 1
  else
    let r := s.closeRefused n
    if r ≠ 0 then (s.gateResult n r).raise 7 1 n
    else if !s.gateOpen n then s.gateResult n 0
    else if force && s.forceHonoured n then (s.stopNode n).gateResult n 0
    else ({ s with clk := { s.clk with gate := some ⟨n, s.time⟩ } }).gateResult n 1

/-- An open is requested. -/
def State.requestOpen (s : State) (n : Nat) : State :=
  if s.clk.gate.isSome then s.setFld Fld.CLK_GATE_RESULT_OVERRUN 0 1
  else if 33 < n then s.gateResult n 6
  else if n ≠ 0 ∧ !s.gateOpen (s.parentOf n) then s.gateResult n 4
  else (s.startNode n).gateResult n 0

/-- A write of CLK_GATE_REQ. -/
def State.gateRequest (s : State) (v : Word) : State :=
  if v.getLsbD 6 then s.requestOpen (getBits v 0 6) else s.requestClose (getBits v 0 6) (v.getLsbD 7)

/-- GATE_CLOSE (R107, R108). -/
def execGateClose (t : Tu) (node : Fin 64) (s : State) : Host.Outcome State Fault Refusal :=
  s.whenHost t fun s => s.requestClose node false

/-- GATE_FORCE_CLOSE (R108). -/
def execGateForceClose (t : Tu) (node : Fin 64) (s : State) : Host.Outcome State Fault Refusal :=
  s.whenHost t fun s => s.requestClose node true

/-- GATE_OPEN (R109). -/
def execGateOpen (t : Tu) (node : Fin 64) (s : State) : Host.Outcome State Fault Refusal :=
  s.whenHost t fun s => s.requestOpen node

/-- The gate node of a multiplexer (Table CLK-8). -/
def muxNode (m : Nat) : Nat := if m = 1 then 26 else if m = 2 then 25 else 27 + m

/-- MB_CLKMUX_FORCE (R105): ARG0 = m. -/
def clkmuxForce (s : State) (args : List Word) : MbEnd :=
  let m := argAt args 0
  if m = 0 ∨ 6 < m then mbFail s mbBadArg
  else if s.clk.gate.isSome then mbFail s mbBusy
  else if s.gateOpen (muxNode m) ∨ s.muxState m ≠ 2 then mbFail s mbRefused
  else ⟨s.muxSettled m (s.fld Fld.CLK_MUX_SEL_SEL m), mbOk, []⟩

/-- MB_CLKMUX_FORCE. -/
def execMbClkmuxForce (t : Tu) (tag : Byte) (s : State) : Host.Outcome State Fault Refusal :=
  s.mbWhen t tag 0x30 clkmuxForce

end Sys2Proof.Machine
end

