-- ==== Sys2Proof/Machine/Sync.lean ====
section
/-! DEFINITION. SYNC: its sources, its carrying to a twin partner, and its effects (R30, R128, R249 to R254, R291, R368,
R371). -/

namespace Sys2Proof.Machine

/-- The order in which coincident SYNCs act: register, timing link, schedule slot, SYNC_IN, partner (R252). The sources
are coded as HUB_SYNC_SRC: 1 schedule, 2 timing link, 3 register, 4 SYNC_IN, 5 partner. -/
def syncRank (src : Nat) : Nat := if src = 3 then 1 else if src = 2 then 2 else if src = 1 then 3 else src

/-- SYNCs in order of time stamp, and of rank at one stamp. -/
def syncIns : List SyncAt → SyncAt → List SyncAt
  | [], x => [x]
  | y :: l, x =>
    if tuLt x.ts y.ts || (x.ts == y.ts && decide (syncRank x.src < syncRank y.src)) then x :: y :: l
    else y :: syncIns l x

/-- A SYNC will act at its time stamp. -/
def State.syncAt (s : State) (ts : Tu) (src : Nat) (twin : Bool) : State :=
  { s with sync := { s.sync with waiting := syncIns s.sync.waiting ⟨ts, src, twin⟩ } }

/-- The lead of a register SYNC before its tick (R43, R371). -/
def syncLead (twin : Bool) : Nat := if twin then ns 1088 else ns 64

/-- A register SYNC is issued; one to be carried is sent ahead of its commit tick (R249, R371). From T1 to T2 of a full
pitch it is ignored (R76 item 3). -/
def State.issueSync (s : State) (twin : Bool) : State :=
  if s.fld Fld.HUB_PITCH_STATUS_STATE 0 = 2 then s
  else
  let p := s.period
  let t0 := (s.time.toNat + syncLead twin + p - 1) / p * p
  let s1 := { s with tick := { s.tick with syncCmds := s.tick.syncCmds ++ [(s.time, twin)] } }
  if twin && s.attached then
    { s1 with sync := { s1.sync with carry := s1.sync.carry ++ [⟨BitVec.ofNat 64 t0, 3, true⟩] } }
  else s1

/-- SYNC_CMD_ISSUE (R249, R254). -/
def execSyncCmdIssue (t : Tu) (twin : Bool) (s : State) : Host.Outcome State Fault Refusal :=
  s.whenHost t fun s => if s.standby then s else s.issueSync twin

/-- The delay from an edge of SYNC_IN to its SYNC, in ns (R251, R371). -/
def State.inDelay (s : State) : Nat :=
  max (if s.flag Fld.HUB_SYNC_CFG_IN_TWIN 0 then 1088 else 64) (s.fld Fld.HUB_SYNC_CFG_IN_DELAY 0)

/-- An edge of SYNC_IN stamped `t`. -/
def State.syncEdge (s : State) (rise : Bool) (t : Tu) : State :=
  if !s.flag Fld.HUB_SYNC_CFG_IN_EN 0 || rise == s.flag Fld.HUB_SYNC_CFG_IN_EDGE 0 then s
  else if s.sync.waiting.any fun x => x.src == 4 then s.bump Fld.HUB_SYNC_DROP_COUNT 0 1
  else
    let twin := s.flag Fld.HUB_SYNC_CFG_IN_TWIN 0
    let ts := tuAdd t (ns s.inDelay)
    let s1 := s.syncAt ts 4 twin
    if twin && s.attached then { s1 with sync := { s1.sync with carry := s1.sync.carry ++ [⟨ts, 4, true⟩] } } else s1

/-- SYNC_IN_EDGE (R251). -/
def execSyncInEdge (t : Tu) (rise : Bool) (s : State) : Host.Outcome State Fault Refusal :=
  s.when t fun s => if s.standby then s else s.syncEdge rise (s.stamp t)

/-- SYNC_OUT: 16 ns high from the time stamp, or an extension of the present pulse (R253). -/
def State.syncPulse (s : State) (ts : Tu) : State :=
  if !s.flag Fld.HUB_SYNC_CFG_OUT_EN 0 then s
  else
    let stop := tuAdd ts (ns 16)
    let start := match s.sync.outStop with
      | some e => if tuLe ts e then e else ts
      | none => ts
    ({ s with sync := { s.sync with outStop := some stop } }).emit (.syncOut start stop)

/-- A SYNC that acts on both parts lets a SECONDARY-IDLE part with an aligned epoch join (R368). -/
def State.syncJoin (s : State) : State :=
  if !s.attached || !s.glnUp then s
  else if s.fld Fld.GLN_STATUS_ROLE 0 = 3 ∧ s.flag Fld.GLN_STATUS_ALIGNED 0 then
    (s.setFld Fld.GLN_STATUS_ROLE 0 2).raise 51 1 2
  else { s with gln := { s.gln with partnerIdle := false } }

/-- Two SYNCs are one: the same time stamp, or the same S0 on an enabled unit (R252). -/
def State.syncSame (s : State) (x y : SyncAt) : Bool :=
  x.ts == y.ts || (List.range 16).any fun u => s.flag Fld.RED_CFG_EN u && s.redIndex u x.ts == s.redIndex u y.ts

/-- The effects of a SYNC at its time stamp: reductions restart (R246), AUXCLK outputs align (R128), force codes that
wait for a SYNC take effect (R291), SYNC_OUT pulses (R253). -/
def State.syncEffects (s : State) (ts : Tu) : State :=
  let s1 := (s.redStartAll (List.range 16) 1 ts).auxSync ts
  (s1.each 16 fun s n => s.forceDue n 2 ts fun stamp => tuLe (tuAdd stamp (ns 64)) ts).syncPulse ts

/-- SYNCs that are one act, and HUB_SYNC_LAST and HUB_SYNC_SRC record the one that acts first. -/
def State.syncGroup (s : State) (x : SyncAt) (xs : List SyncAt) : State :=
  let first := xs.foldl (fun a b => if syncRank b.src < syncRank a.src then b else a) x
  let s1 := (xs.map SyncAt.ts).eraseDups.foldl (fun s ts => if ts = x.ts then s else s.syncEffects ts)
    (s.syncEffects x.ts)
  let s2 := (s1.setPair .HUB_SYNC_LAST_LO .HUB_SYNC_LAST_HI 0 first.ts).setFld Fld.HUB_SYNC_SRC_SRC 0 first.src
  if (x :: xs).any SyncAt.twin then s2.syncJoin else s2

/-- The earliest waiting SYNC acts, with those that are one with it. -/
def State.syncNext (s : State) : State :=
  match s.sync.waiting with
  | [] => s
  | x :: rest =>
    let same := rest.filter (s.syncSame x)
    let s1 := { s with sync := { s.sync with waiting := rest.filter fun y => !s.syncSame x y } }
    s1.syncGroup x same

/-- SYNCs whose time stamp an instant has reached act in order, as many as wait. -/
def State.syncUpTo (s : State) (t : Tu) : State :=
  s.sync.waiting.foldl (fun s _ =>
    match s.sync.waiting with
    | x :: _ => if tuLe x.ts t then s.syncNext else s
    | [] => s) s

/-- SYNC_ACT (R30, R249): the earliest waiting SYNC acts at its time stamp. -/
def execSyncAct (t : Tu) (s : State) : Host.Outcome State Fault Refusal :=
  s.when t fun s =>
    match s.sync.waiting with
    | x :: _ => if tuLe x.ts s.time && !s.standby then s.syncNext else s
    | [] => s

/-! ### Carrying (R254, R371) -/

/-- The SYNC message of a carried SYNC. -/
def State.sendSync (s : State) (ts : Tu) (src : Nat) : State :=
  if s.attached then s.glnSend 6 src (leBytes 8 ts.toNat) 3 else s

/-- The capture carries a SYNC to the partner. -/
def Capture.carried (c : Capture) : Bool := c.cmd == 3 && c.arg.getLsbD 0

/-- The captures of a slot that stand `n` ns before an instant, oldest first. -/
def capsBefore (l : List Capture) (n : Nat) (t : Tu) : List Capture := l.filter fun c => tuLe (tuAdd c.stamp (ns n)) t

/-- The capture is for frame f: its target, or under LATE_POLICY = 1 a later frame (R50). -/
def Capture.dueAt (c : Capture) (f : Frame) : Bool := (c.frame == f && !c.notFuture) || (c.late && frameLe c.frame f)

/-- The schedule slots whose SYNC is to be sent now, 1,024 ns before its tick: slot and frame. -/
def State.carriedSlots (s : State) : List (Nat × Frame) :=
  let tick := tuAdd s.time (ns 1024)
  let f := frameAt s.k s.frame tick
  if !s.pitched || tick.toNat % s.period != 0 then []
  else
    s.tick.caps.filterMap fun (slot, l) =>
      match (capsBefore l 64 s.time).getLast? with
      | some c => if c.carried && !c.sent && c.dueAt f then some (slot, f) else none
      | none => none

/-- The captures in the list that carry a SYNC are marked as sent up to an instant. -/
def markSent (t : Tu) (l : List Capture) : List Capture :=
  l.map fun c => if c.carried && tuLe (tuAdd c.stamp (ns 64)) t then { c with sent := true } else c

/-- CARRIED_SYNC_SEND: what waits to be sent leaves, while its time stamp lies at least 1,024 ns ahead. -/
def State.carriedSend (s : State) : State :=
  let s1 := s.sync.carry.foldl (fun s x =>
    if tuLe (tuAdd s.time (ns 1024)) x.ts then s.sendSync x.ts x.src else s)
    { s with sync := { s.sync with carry := [] } }
  s.carriedSlots.foldl (fun s (slot, f) =>
    ({ s with tick := { s.tick with caps := tmod [] s.tick.caps slot (markSent s.time) } }).sendSync (tickTime s.k f) 1) s1

/-- CARRIED_SYNC_SEND (R371). -/
def execCarriedSyncSend (t : Tu) (s : State) : Host.Outcome State Fault Refusal :=
  s.when t fun s => if s.standby then s else s.carriedSend

end Sys2Proof.Machine
end

