-- ==== Sys2Proof/Machine/Gln.lean ====
section
/-! DEFINITION. Twin operation over Guyline: attach and roles, the epoch of the secondary, frame comparison, failover,
detach and link loss (chapter 17: R362 to R384). -/

namespace Sys2Proof.Machine

/-! ### Roles -/

/-- GLN_STATUS.ROLE: 0 SOLO, 1 PRIMARY, 2 SECONDARY, 3 SECONDARY-IDLE. -/
def State.role (s : State) : Nat := s.fld Fld.GLN_STATUS_ROLE 0

/-- GLN_STATUS.MODE: 0 INDEPENDENT, 1 MIRROR, 2 FAILOVER. -/
def State.glnMode (s : State) : Nat := s.fld Fld.GLN_STATUS_MODE 0

/-- The state with the twin link's model changed. -/
def State.modGln (s : State) (f : Gln → Gln) : State := { s with gln := f s.gln }

/-- PMU_TWIN_STATUS.NOPARTNER follows the attach and the link (R304, R380). -/
def State.notePartner (s : State) : State :=
  s.setFld Fld.PMU_TWIN_STATUS_NOPARTNER 0 (!(s.attached && s.glnUp)).toNat

/-- The queues of granted streams. -/
def State.streamQs (s : State) : List Nat := (List.range 64).filter s.isStream

/-- A queue is enabled. -/
def State.qEnabled (s : State) (q : Nat) : Bool := decide (1 ≤ s.qState q ∧ s.qState q ≤ 3)

/-- Held queues complete without delivering (R379): acceptance ends, and the count of 64 frames begins. -/
def State.releaseHeld (s : State) : State :=
  s.streamQs.foldl (fun s q =>
    if s.qEnabled q then
      (s.setQState q 2).modQueue q fun x => { x with accepting := false, gap := none, release := some 0 }
    else s) (s.setFld Fld.GLN_STATUS_HELD 0 0)

/-- The part becomes SOLO. -/
def State.becomeSolo (s : State) : State :=
  let s1 := if s.held then s.releaseHeld else s
  let s2 := ((s1.setFld Fld.GLN_STATUS_ROLE 0 0).setFld Fld.GLN_STATUS_MODE 0 0).setFld Fld.GLN_STATUS_ALIGNED 0 0
  (s2.modGln fun g =>
    { g with incumbent := true, soloNext := false, detachAt := none, rolePend := none, takeover := false,
             deposed := false, failCause := 0, declared := false, partnerIdle := false, own := [], partner := [],
             ofs := [], inRun := 0, outRun := 0 }).notePartner

/-! ### Messages (R364, R365) -/

/-- TYPE, SUB, SEQ and payload of a message. -/
def glnTyp (m : List Byte) : Nat := leAt m 0 1
def glnSub (m : List Byte) : Nat := leAt m 1 1
def glnSeq (m : List Byte) : Nat := leAt m 2 2

/-- The CRC-32 of a message holds. -/
def glnCrcOk (m : List Byte) : Bool := (crc32 (m.take 28)).toNat == leAt m 28 4

/-- The messages that are sent three times. -/
def glnTriple (typ : Nat) : Bool := [2, 6, 7, 0xB, 0xC].contains typ

/-- A reserved TYPE. -/
def glnReserved (typ : Nat) : Bool := typ == 0 || 0xD ≤ typ

/-- The receiver takes messages. -/
def State.glnRx (s : State) : Bool := s.glnUp && s.flag Fld.GLN_CFG_EN 0 && !s.standby

/-- A message arrives: its CRC and TYPE are checked, further copies are discarded by SEQ, and one of TYPE `typ`
acts. -/
def State.glnMsg (s : State) (m : List Byte) (typ : Nat) (f : State → State) : State :=
  if !s.glnRx then s
  else if !glnCrcOk m then s.bumpRaise Fld.GLN_ERR_CRC 0 61 1 0
  else if glnTyp m ≠ typ then s
  else if glnReserved typ then s.bump Fld.GLN_ERR_UNKNOWN 0 1
  else if glnTriple typ then
    if tget 0 s.gln.seqRx typ = glnSeq m + 1 then s
    else f (s.modGln fun g => { g with seqRx := tput 0 g.seqRx typ (glnSeq m + 1) })
  else f s

/-- GLN_MSG_DISCARD (R365). -/
def execGlnMsgDiscard (t : Tu) (m : List Byte) (s : State) : Host.Outcome State Fault Refusal :=
  s.when t fun s => s.glnMsg m (glnTyp m) fun s' => if glnReserved (glnTyp m) then s' else s

/-- The first tick at least 2 µs from now. -/
def State.roleFrame (s : State) : Frame := s.frameIn2us

/-! ### Attach (R366 to R368) -/

/-- Every staging area meets R375, by the formula of R67 item 5 with L + 6 + MISS frames. -/
def State.stagingOk (s : State) : Bool :=
  (grantedQs s.pitch.recs).all fun q =>
    decide (ceilDiv ((streamLat s.pitch.recs q + 6 + max 2 (s.fld Fld.GLN_FAIL_MISS 0)) *
      streamRateMB s.pitch.recs q * 2 ^ hdrK s.pitch.hdr) 1000 ≤ stageSize s.pitch.recs q)

/-- The role preference of a HELLO or command: 0 AUTO, 1 PRIMARY, 2 SECONDARY. -/
def State.sendHello (s : State) : State :=
  match s.gln.attach with
  | none => s
  | some a =>
    let bytes := leBytes 4 (s.reg .HUB_SERIAL_LO 0).toNat ++ leBytes 4 (s.reg .HUB_SERIAL_HI 0).toNat ++
      leBytes 4 (s.reg .HUB_PITCH_CRC 0).toNat ++ leBytes 1 s.k ++ leBytes 1 (s.fld Fld.HUB_REV_STEPPING 0) ++
      leBytes 1 a.pref ++ leBytes 1 s.stagingOk.toNat ++ leBytes 1 s.gln.incumbent.toNat
    (s.modGln fun g => { g with attach := some { a with hello := s.time } }).glnSend 1 a.mode bytes 1

/-- An attach under way ends with a status. -/
def State.attachEnd (s : State) (status : Nat) (res : List Word) : State :=
  match s.gln.attach with
  | none => s
  | some _ => (s.modGln fun g => { g with attach := none }).mbDone status res

/-- An attach is refused: EV062 with the status. -/
def State.attachRefuse (s : State) (status : Nat) : State := (s.attachEnd status []).raise 62 1 status

/-- MB_TWIN_ATTACH (R366, R367): the command stays under way until the role applies or the attach is refused. -/
def State.twinAttach (s : State) (tag : Byte) : State :=
  if s.fld Fld.MGT_MB_CMD_CMD 0 ≠ 0x40 ∨ s.mgt.run = 0 then s
  else if !s.mbTaken tag then s.setFld Fld.MGT_MB_STATE_OVERRUN 0 1
  else
    let s1 := s.mbRunning tag
    let mode := argAt s1.mbArgs 0
    let pref := argAt s1.mbArgs 1
    if s.mgt.run = 3 then s1.mbDone mbNotAllowed []
    else if 2 < mode ∨ 2 < pref then s1.mbDone mbBadArg []
    else if s.attached then s1.mbDone 0x20 []
    else if !(s.flag Fld.GLN_STATUS_PRESENT 0 && s.flag Fld.GLN_CFG_EN 0 && s.glnUp) then s1.mbDone 0x21 []
    else (s1.modGln fun g => { g with attach := some ⟨true, mode, pref, s.time, s.time⟩, ofs := [] }).sendHello

/-- MB_TWIN_ATTACH. -/
def execMbTwinAttach (t : Tu) (tag : Byte) (s : State) : Host.Outcome State Fault Refusal :=
  s.whenHost t fun s => s.twinAttach tag

/-- GLN_EPOCH_OFS: the mean of the last measurements, which are held as 2o; whole tu, toward −∞. -/
def State.epochOfs (s : State) : Int := s.gln.ofs.sum / (2 * s.gln.ofs.length : Nat)

/-- Why a HELLO refuses the attach under way, 0 where nothing does (R367). -/
def State.helloRefusal (s : State) (a : Attach) (m : List Byte) : Nat :=
  let crc := leAt m 12 4
  let own := (s.reg .HUB_PITCH_CRC 0).toNat
  if glnSub m ≠ a.mode then 0x22
  else if leAt m 16 1 ≠ s.k then 0x23
  else if a.mode ≠ 0 ∧ (crc ≠ own ∨ !s.pitched) then 0x24
  else if leAt m 17 1 ≠ s.fld Fld.HUB_REV_STEPPING 0 then 0x25
  else if a.mode = 2 ∧ (leAt m 19 1 ≠ 1 ∨ !s.stagingOk) then 0x26
  else if s.gln.ofs ≠ [] ∧ ns (1000 * s.fld Fld.GLN_ALIGN_MAX 0) < s.epochOfs.natAbs then 0x27
  else if a.pref ≠ 0 ∧ leAt m 18 1 = a.pref ∧ leAt m 20 1 = s.gln.incumbent.toNat then 0x28
  else 0

/-- The preference as a rank in the role choice: PRIMARY, AUTO, SECONDARY. -/
def prefRank (p : Nat) : Nat := if p = 1 then 2 else if p = 0 then 1 else 0

/-- This part wins the role choice (R368). -/
def State.winsRole (s : State) (a : Attach) (m : List Byte) : Bool :=
  let mine := s.gln.incumbent.toNat
  let serial := (s.reg .HUB_SERIAL_LO 0).toNat + 2 ^ 32 * (s.reg .HUB_SERIAL_HI 0).toNat
  let theirs := leAt m 20 1
  let p := prefRank a.pref
  let q := prefRank (leAt m 18 1)
  if mine ≠ theirs then decide (theirs < mine)
  else if p ≠ q then decide (q < p)
  else decide (serial < leAt m 4 8)

/-- HELLO (R367, R368). -/
def State.hello (s : State) (m : List Byte) : State :=
  match s.gln.attach with
  | none => s
  | some a =>
    if s.gln.rolePend.isSome then s
    else
      let r := s.helloRefusal a m
      if r ≠ 0 then s.attachRefuse r
      else if s.winsRole a m then
        let f := s.roleFrame
        (s.modGln fun g => { g with rolePend := some (f, 1, a.mode) }).glnSend 2 3 (leBytes 6 f.toNat ++ leBytes 1 a.mode) 3
      else s

/-- A message that Basecamp handles: it waits while Basecamp restarts, and the ROM alone takes none (Table MGT-1,
R386). -/
def State.forBasecamp (s : State) (m : List Byte) (f : State → State) : State :=
  if s.mgt.run = 1 then f s
  else if s.mgt.run = 3 then s
  else s.modGln fun g => { g with waiting := g.waiting ++ [m] }

/-- HELLO. -/
def execHello (t : Tu) (m : List Byte) (s : State) : Host.Outcome State Fault Refusal :=
  s.when t fun s => s.glnMsg m 1 fun s => s.forBasecamp m fun s => s.hello m

/-- ATTACH_TIMEOUT: no matching HELLO within 100 ms of the command (R367). -/
def execAttachTimeout (t : Tu) (s : State) : Host.Outcome State Fault Refusal :=
  s.when t fun s =>
    match s.gln.attach with
    | some a =>
      if s.mgt.run ≠ 2 ∧ s.gln.rolePend.isNone ∧ tuLe (tuAdd a.at_ (ns 100000000)) s.time then s.attachRefuse 0x29 else s
    | none => s

/-- ROLE: the receiver's new role and the frame at which it applies (R368). -/
def State.roleMsg (s : State) (m : List Byte) : State :=
  if s.gln.attach.isSome then
    s.modGln fun g => { g with rolePend := some (BitVec.ofNat 48 (leAt m 4 6), glnSub m % 4, leAt m 10 1 % 4) }
  else s

/-- ROLE (R368). -/
def execRole (t : Tu) (m : List Byte) (s : State) : Host.Outcome State Fault Refusal :=
  s.when t fun s => s.glnMsg m 2 fun s => s.forBasecamp m fun s => s.roleMsg m

/-- A role applies at this tick (R368). -/
def State.applyRole (s : State) (role mode : Nat) : State :=
  let s1 := (((s.setFld Fld.GLN_STATUS_ROLE 0 role).setFld Fld.GLN_STATUS_MODE 0 mode).setFld Fld.GLN_STATUS_HELD 0
    (mode == 2 && 2 ≤ role).toNat).setFld Fld.GLN_STATUS_ALIGNED 0 0
  let s2 := s1.modGln fun g =>
    { g with rolePend := none, incumbent := g.incumbent || role == 1, inRun := 0, outRun := 0, beatAge := 0,
             downAge := 0, failCause := 0, declared := false, partnerIdle := role == 1, own := [], partner := [] }
  ((s2.notePartner).raise 49 1 (role + 4 * mode)).attachEnd mbOk [w32 role, w32 mode]

/-! ### Epoch (R369, R370) -/

/-- The part measures its epoch offset: a following secondary, or a part whose attach is under way (R367, R369). -/
def State.measuresEpoch (s : State) : Bool := s.followsPartner || s.gln.attach.isSome

/-- TIME_REQ: the primary answers (R369). -/
def execTimeReq (t : Tu) (m : List Byte) (t3 : Tu) (s : State) : Host.Outcome State Fault Refusal :=
  s.when t fun s => s.glnMsg m 4 fun s =>
    if s.role = 1 ∨ s.gln.attach.isSome then
      s.glnSend 5 0 (leBytes 8 (leAt m 4 8) ++ leBytes 8 s.time.toNat ++ leBytes 8 t3.toNat) 1
    else s

/-- ALIGNED follows three measurements in a row inside or outside GLN_ALIGN.WINDOW. `o2`: 2o. -/
def State.noteAligned (s : State) (o2 : Int) : State :=
  let inside := decide (o2.natAbs ≤ 2 * s.fld Fld.GLN_ALIGN_WINDOW 0)
  let i := if inside then s.gln.inRun + 1 else 0
  let o := if inside then 0 else s.gln.outRun + 1
  let s1 := s.modGln fun g => { g with inRun := i, outRun := o }
  let al := s.flag Fld.GLN_STATUS_ALIGNED 0
  if !al && decide (3 ≤ i) then (s1.setFld Fld.GLN_STATUS_ALIGNED 0 1).raise 52 1 0
  else if al && decide (3 ≤ o) then (s1.setFld Fld.GLN_STATUS_ALIGNED 0 0).raise 52 2 0
  else s1

/-- A measurement 2o = (t2 − t1) − (t4 − t3): GLN_EPOCH_OFS, ALIGNED, and a STEP by it where it exceeds the window.
By this formula a positive o means that the primary's time is ahead (log 37). -/
def State.timeRsp (s : State) (t1 t2 t3 : Tu) : State :=
  if !s.measuresEpoch then s
  else
    let o2 : Int := tuDiff t1 t2 - tuDiff t3 s.time
    let lim : Int := 2 ^ 31 - 1
    let s1 := s.modGln fun g => { g with ofs := (o2 :: g.ofs).take 16 }
    let s2 := s1.setFld Fld.GLN_EPOCH_OFS_OFS 0 (unsgn 32 (max (-lim) (min s1.epochOfs lim)))
    if !s.followsPartner then s2
    else
      let s3 := s2.noteAligned o2
      if 2 * s.fld Fld.TLK_RELOCK_WINDOW 0 < o2.natAbs ∧ s.tlk.stepFrame.isNone then
        { s3 with tlk := { s3.tlk with step := some (-(o2 / 2)) } }
      else s3

/-- TIME_RSP (R369). -/
def execTimeRsp (t : Tu) (m : List Byte) (s : State) : Host.Outcome State Fault Refusal :=
  s.when t fun s => s.glnMsg m 5 fun s =>
    s.timeRsp (BitVec.ofNat 64 (leAt m 4 8)) (BitVec.ofNat 64 (leAt m 12 8)) (BitVec.ofNat 64 (leAt m 20 8))

/-- GLN_STEP: the secondary steps at the named frame, to the named time (R370). -/
def execGlnStep (t : Tu) (m : List Byte) (s : State) : Host.Outcome State Fault Refusal :=
  s.when t fun s => s.glnMsg m 7 fun s =>
    if s.followsPartner then
      let f : Frame := BitVec.ofNat 48 (leAt m 4 6)
      { s with tlk := { s.tlk with
          step := some (tuDiff (BitVec.ofNat 64 (leAt m 10 8)) (tickTime s.k f)), stepFrame := some f } }
    else s

/-- GLN_SYNC: the SYNC acts at its time stamp, or is discarded where it arrives less than 64 ns before it (R371). -/
def execGlnSync (t : Tu) (m : List Byte) (s : State) : Host.Outcome State Fault Refusal :=
  s.when t fun s => s.glnMsg m 6 fun s =>
    let ts : Tu := BitVec.ofNat 64 (leAt m 4 8)
    if !s.attached then s
    else if tuLe (tuAdd s.time (ns 64)) ts then s.syncAt ts 5 true
    else (s.bump Fld.GLN_SYNC_DROP_COUNT 0 1).raise0 53

/-- GLN_PMU (R304). -/
def execGlnPmu (t : Tu) (m : List Byte) (s : State) : Host.Outcome State Fault Refusal :=
  s.when t fun s => s.glnMsg m 0xA fun s =>
    s.twinRemote ⟨glnSub m % 2, glnSub m / 16, BitVec.ofNat 64 (leAt m 4 8), BitVec.ofNat 32 (leAt m 12 4), s.time⟩

/-! ### Frame comparison (R372, R373) -/

/-- The record of a frame in a list of records; an empty one where there is none. -/
def recOf (l : List FrameRec) (f : Frame) : FrameRec := (l.find? fun r => r.frame == f).getD ⟨f, none, []⟩

/-- A list of records with the record of a frame changed. -/
def recPut (l : List FrameRec) (r : FrameRec) : List FrameRec := r :: l.filter fun x => x.frame != r.frame

/-- A comparison failed in a frame: GLN_CMP_LAST. -/
def State.cmpLast (s : State) (f : Frame) : State := s.setFrame .GLN_CMP_LAST_LO .GLN_CMP_LAST_HI 0 f

/-- A value lies beyond its tolerance: GLN_CMP_VAL_CNT and EV055 with the field's bit and the channel. -/
def State.cmpValue (s : State) (f : Frame) (bit ch : Nat) (beyond : Bool) : State :=
  if beyond then ((s.bump Fld.GLN_CMP_VAL_CNT_COUNT 0 1).cmpLast f).raise 55 (2 ^ bit) ch else s

/-- Two DIGESTs of a frame are compared. -/
def State.cmpDigest (s : State) (f : Frame) (a b : Word × Nat × Nat) : State :=
  let s1 := if a.1 = b.1 then s else ((s.bump Fld.GLN_CMP_CTRL_CNT_COUNT 0 1).cmpLast f).raise0 54
  let far (x y lim : Nat) : Bool := decide (lim < ((x : Int) - y).natAbs)
  (s1.cmpValue f 0 0 (far a.2.1 b.2.1 (s.fld Fld.GLN_CMP_TOL_SEG 0))).cmpValue f 1 0
    (far a.2.2 b.2.2 (s.fld Fld.GLN_CMP_TOL_FIRES 0))

/-- Two CHSUMs of a cluster are compared, for the channels of CH_MASK. -/
def State.cmpChsum (s : State) (f : Frame) (c : Nat) (a b : List (Int × Nat)) : State :=
  (List.range 4).foldl (fun s i =>
    let ch := 4 * c + i
    let x := a.getD i (0, 0)
    let y := b.getD i (0, 0)
    if (s.fld Fld.GLN_CMP_CFG_CH_MASK 0).testBit ch then
      (s.cmpValue f 2 ch (decide (s.fld Fld.GLN_CMP_TOL_MEAN 0 < (x.1 - y.1).natAbs))).cmpValue f 3 ch
        (decide (s.fld Fld.GLN_CMP_TOL_OVR 0 < ((x.2 : Int) - y.2).natAbs))
    else s) s

/-- The comparison of a frame is made: EN, no STEP, neither part SECONDARY-IDLE, and no later than tick F + 4. -/
def State.compares (s : State) (f : Frame) : Bool :=
  s.flag Fld.GLN_CMP_CFG_EN 0 && s.glnUp && !s.gln.skip.contains f && decide ((s.frame - f).toNat ≤ 4)

/-- The parts of a frame's records that are present on both sides are compared, once: a part that has been compared
leaves both lists. -/
def State.cmpFrame (s : State) (f : Frame) : State :=
  let a := recOf s.gln.own f
  let b := recOf s.gln.partner f
  if !s.compares f then s
  else
    let s1 := match a.digest, b.digest with
      | some x, some y =>
        (s.modGln fun g => { g with own := recPut g.own { a with digest := none },
                                    partner := recPut g.partner { b with digest := none } }).cmpDigest f x y
      | _, _ => s
    (List.range 4).foldl (fun s c =>
      let a := recOf s.gln.own f
      let b := recOf s.gln.partner f
      match a.chsum.find? (fun e => e.1 == c), b.chsum.find? (fun e => e.1 == c) with
      | some x, some y =>
        (s.modGln fun g =>
          { g with own := recPut g.own { a with chsum := a.chsum.filter fun e => e.1 != c },
                   partner := recPut g.partner { b with chsum := b.chsum.filter fun e => e.1 != c } }).cmpChsum f c x.2 y.2
      | _, _ => s) s1

/-- DIGEST (R373). -/
def execDigest (t : Tu) (m : List Byte) (s : State) : Host.Outcome State Fault Refusal :=
  s.when t fun s => s.glnMsg m 8 fun s =>
    let f : Frame := BitVec.ofNat 48 (leAt m 4 6)
    let d := (BitVec.ofNat 32 (leAt m 10 4), leAt m 14 2, leAt m 16 2)
    if s.attached ∧ s.glnMode ≠ 0 then
      (s.modGln fun g => { g with partner := recPut g.partner { (recOf g.partner f) with digest := some d } }).cmpFrame f
    else s

/-- The frame number next to the current one that ends in these 32 bits. -/
def State.frameNear (s : State) (low : Nat) : Frame :=
  s.frame + (BitVec.ofNat 32 low - s.frame.setWidth 32).signExtend 48

/-- CHSUM (R373). -/
def execChsum (t : Tu) (m : List Byte) (s : State) : Host.Outcome State Fault Refusal :=
  s.when t fun s => s.glnMsg m 9 fun s =>
    let f := s.frameNear (leAt m 4 4)
    let v := (List.range 4).map fun i => (sgn 16 (leAt m (8 + 4 * i) 2), leAt m (10 + 4 * i) 2)
    if s.attached ∧ s.glnMode ≠ 0 ∧ glnSub m < 4 then
      let r := recOf s.gln.partner f
      let r1 : FrameRec := { r with chsum := tins r.chsum (glnSub m) v }
      (s.modGln fun g => { g with partner := recPut g.partner r1 }).cmpFrame f
    else s

/-- A partner's record is absent at tick F + 4: it is counted and raised, for each record. -/
def State.cmpMiss (s : State) : State :=
  match s.gln.own.find? fun r => decide (4 ≤ (s.frame - r.frame).toNat) && (r.digest.isSome || !r.chsum.isEmpty) with
  | none => s
  | some r =>
    let n := r.digest.isSome.toNat + r.chsum.length
    let s1 := s.modGln fun g => { g with own := g.own.filter fun x => x.frame != r.frame }
    if !s.flag Fld.GLN_CMP_CFG_EN 0 || !s.glnUp || s.gln.skip.contains r.frame then s1
    else (List.range n).foldl (fun s _ => (s.bump Fld.GLN_CMP_MISS_CNT_COUNT 0 1).raise0 56) (s1.cmpLast r.frame)

/-- GLN_CMP_MISS (R373). -/
def execGlnCmpMiss (t : Tu) (s : State) : Host.Outcome State Fault Refusal := s.when t fun s => s.cmpMiss

/-- Bits of a condition, bit i for i. -/
def bitSum (n : Nat) (p : Nat → Bool) : Nat := ((List.range n).map fun i => if p i then 2 ^ i else 0).sum

/-- CTRL of frame F at tick F + 1 (R372). -/
def State.ctrlCrc (s : State) (f : Frame) : Word :=
  crc32 (leBytes 6 f.toNat ++ leBytes 4 (s.reg .HUB_PITCH_CRC 0).toNat ++
    leBytes 4 (bitSum 32 fun m => s.flag Fld.SEG_ARM_ARM m) ++
    ((List.range 32).flatMap fun i => leBytes 1 (s.fld Fld.HUB_SCHED_STATUS_STATUS i)) ++
    leBytes 8 (s.pair .HUB_SYNC_LAST_LO .HUB_SYNC_LAST_HI 0).toNat ++ leBytes 4 (s.rateInst 0) ++
    leBytes 4 (s.rateInst 1) ++ leBytes 8 (bitSum 64 fun q => s.flag Fld.DMA_Q_CTRL_EN q) ++
    leBytes 2 (bitSum 16 s.stale))

/-- MEAN and OVR of a channel in the frame that ends. Where no sample of the frame was judged the mean is left open
(log 2). -/
def State.chanSum (s : State) (ch : Nat) : Int × Nat :=
  let x := tget ((0 : Int), 0, 0) s.gln.chan ch
  if s.chanOff ch then (0, 0)
  else if x.2.1 = 0 then (sgn 16 (Config.freeNat (s.free + ch)), 0)
  else (divRound (x.1 * 16) x.2.1, min 65535 x.2.2)

/-- The records of the frame that ends are built, sent and compared (R372, R373). -/
def State.glnRecords (s : State) : State :=
  let f := s.frame - 1
  let clear (s : State) := s.modGln fun g => { g with segOpened := 0, fires := 0, chan := [] }
  if !s.attached ∨ s.glnMode = 0 then clear s
  else
    let d := (s.ctrlCrc f, min 65535 s.gln.segOpened, min 65535 s.gln.fires)
    let sums := (List.range 4).map fun c => (c, (List.range 4).map fun i => s.chanSum (4 * c + i))
    let skip := s.role == 3 || s.gln.partnerIdle || s.tick.stepFrames.contains f
    let s1 := s.modGln fun g =>
      { g with own := recPut g.own ⟨f, some d, sums⟩, skip := if skip then (f :: g.skip).take 8 else g.skip }
    let s2 := s1.glnSend 8 0 (leBytes 6 f.toNat ++ leBytes 4 d.1.toNat ++ leBytes 2 d.2.1 ++ leBytes 2 d.2.2) 1
    let s3 := sums.foldl (fun s (c, v) =>
      s.glnSend 9 c (leBytes 4 f.toNat ++ v.flatMap fun x => leBytes 2 (unsgn 16 x.1) ++ leBytes 2 x.2) 1) s2
    clear (({ s3 with free := s3.free + 16 }).cmpFrame f)

/-! ### DELIVERED_THROUGH and BEAT (R374 to R376) -/

/-- The highest frame up to which every enabled granted queue has its completions written. -/
def State.deliveredThrough (s : State) : Frame :=
  s.streamQs.foldl (fun d q =>
    if s.qEnabled q then
      match (s.queue q).staged with
      | b :: _ => if frameLe b.frame d then b.frame - 1 else d
      | [] => d
    else d) (s.frame - 1)

/-- BEAT at this tick; on a primary GLN_DT shows DELIVERED_THROUGH. -/
def State.sendBeat (s : State) : State :=
  if !s.attached then s
  else
    let own := s.deliveredThrough
    let s1 := if s.role = 1 then s.setFrame .GLN_DT_LO .GLN_DT_HI 0 own else s
    s1.glnSend 3 (s.hostUp.toNat + 2 * s.held.toNat + 4 * s.pitched.toNat)
      (leBytes 6 s.frame.toNat ++ leBytes 6 (s1.frameOf .GLN_DT_LO .GLN_DT_HI 0).toNat) 1

/-- A BEAT of the partner: GLN_DT on a secondary, with the data that it covers discarded, and what it reports of the
primary (R374 to R376). -/
def State.beat (s : State) (m : List Byte) : State :=
  let s1 := s.modGln fun g => { g with beatAge := 0 }
  if s.role < 2 then s1
  else
    let s2 := if s.glnMode = 2 then
        s.streamQs.foldl (fun s q => if s.held then s.discardCovered q else s)
          (s1.setFrame .GLN_DT_LO .GLN_DT_HI 0 (BitVec.ofNat 48 (leAt m 10 6)))
      else s1
    let bad := (!(glnSub m).testBit 0).toNat * 2 + (!(glnSub m).testBit 2).toNat * 4
    s2.modGln fun g => { g with failCause := g.failCause ||| bad, declared := g.declared && bad != 0 }

/-- BEAT (R374). -/
def execBeat (t : Tu) (m : List Byte) (s : State) : Host.Outcome State Fault Refusal :=
  s.when t fun s => s.glnMsg m 3 fun s => if s.attached then s.beat m else s

/-! ### Failure and takeover (R376, R377) -/

/-- Ticks since the last BEAT, since the link went down and since TWIN_PRES was deasserted. -/
def State.glnAges (s : State) : State :=
  s.modGln fun g =>
    { g with beatAge := if s.glnUp then g.beatAge + 1 else 0,
             downAge := if s.glnUp then 0 else g.downAge + 1,
             absentAge := if s.flag Fld.GLN_STATUS_PRESENT 0 then 0 else g.absentAge + 1 }

/-- The causes of EV057 at this tick, the ages having been counted. -/
def State.failCauses (s : State) : Nat :=
  let miss := max 2 (s.fld Fld.GLN_FAIL_MISS 0)
  let present := s.flag Fld.GLN_STATUS_PRESENT 0
  s.gln.failCause ||| (s.glnUp && decide (miss < s.gln.beatAge)).toNat |||
    16 * (s.flag Fld.GLN_CFG_ON_LINK_LOSS 0 && !s.glnUp && present && decide (miss < s.gln.downAge)).toNat |||
    64 * (!present && decide (2 ≤ s.gln.absentAge)).toNat

/-- The failure of the primary is declared at this tick: EV057, and TAKE if the link is up. A SECONDARY-IDLE part only
raises. -/
def State.declareFail (s : State) : State :=
  let c := s.failCauses
  if s.glnMode ≠ 2 ∨ s.role < 2 ∨ c = 0 ∨ s.gln.declared then s
  else
    let s1 := (s.modGln fun g => { g with declared := true, failCause := 0 }).raise 57 c 0
    if s.role = 2 then
      (s1.modGln fun g => { g with takeover := true }).glnSend 0xB 0
        (leBytes 6 (s.frame + 1).toNat ++ leBytes 6 (s.frameOf .GLN_DT_LO .GLN_DT_HI 0 + 1).toNat) 3
    else s1

/-- The takeover at the next tick: PRIMARY with the link up, else SOLO; HELD clears (R377). -/
def State.takeOver (s : State) : State :=
  let up := s.glnUp
  let s1 := ((s.setFld Fld.GLN_STATUS_ROLE 0 up.toNat).setFld Fld.GLN_STATUS_HELD 0 0).setFld Fld.GLN_STATUS_MODE 0
    (if up then 2 else 0)
  let owed := if up then none else some (s.frame, s.frameOf .GLN_DT_LO .GLN_DT_HI 0 + 1)
  let s2 := s1.modGln fun g =>
    { g with takeover := false, incumbent := true, partnerIdle := up, takeOwed := owed, failCause := 0,
             declared := false, ofs := [], own := [], partner := [] }
  ((s2.notePartner).raise0 58).raise 51 1 up.toNat

/-- A former primary steps down at this tick: its queues drain without further completions (R377 item 4). -/
def State.depose (s : State) : State :=
  let s1 := s.streamQs.foldl (fun s q =>
    if s.qEnabled q then
      ((s.setQState q 2).modQueue q fun x =>
        { x with accepting := false, staged := [], gap := none }).syncStaged q
    else s) s
  let s2 := (s1.setFld Fld.GLN_STATUS_ROLE 0 3).setFld Fld.GLN_STATUS_HELD 0 1
  (s2.modGln fun g => { g with deposed := false, partnerIdle := false, beatAge := 0, inRun := 0, outRun := 0 }).raise 51
    1 3

/-- TAKE (R377 item 4). -/
def execTake (t : Tu) (m : List Byte) (s : State) : Host.Outcome State Fault Refusal :=
  s.when t fun s => s.glnMsg m 0xB fun s =>
    if s.role = 1 then (s.modGln fun g => { g with deposed := true }).raise0 59 else s

/-- MB_TWIN_TAKE (R376, Table GLN-5): the failure is declared at the next tick. -/
def twinTake (s : State) (_ : List Word) : MbEnd :=
  if s.role ≠ 2 then mbFail s 0x2B
  else if s.glnMode ≠ 2 then mbFail s 0x2C
  else if s.gln.takeover then mbFail s mbBusy
  else
    let T := (s.frame + 2).toNat
    let d := (s.frameOf .GLN_DT_LO .GLN_DT_HI 0 + 1).toNat
    ⟨s.modGln fun g => { g with failCause := g.failCause ||| 32, declared := false }, mbOk,
      [w32 T, w32 (T / 2 ^ 32), w32 d, w32 (d / 2 ^ 32)]⟩

/-- MB_TWIN_TAKE. -/
def execMbTwinTake (t : Tu) (tag : Byte) (s : State) : Host.Outcome State Fault Refusal := s.mbWhen t tag 0x42 twinTake

/-! ### Detach, link loss (R379, R380) -/

/-- MB_TWIN_DETACH: DETACH with cause ORDERLY, or locally while the link is down. -/
def twinDetach (s : State) (_ : List Word) : MbEnd :=
  if !s.attached then mbFail s 0x2A
  else if s.gln.detachAt.isSome then mbFail s mbBusy
  else if s.glnUp then
    let f := s.roleFrame
    ⟨(s.modGln fun g => { g with detachAt := some (f, 1) }).glnSend 0xC 0 (leBytes 6 f.toNat) 3, mbOk,
      [w32 f.toNat, w32 (f.toNat / 2 ^ 32)]⟩
  else
    let f := s.frame + 1
    ⟨s.modGln fun g => { g with detachAt := some (f, 1) }, mbOk, [w32 f.toNat, w32 (f.toNat / 2 ^ 32)]⟩

/-- MB_TWIN_DETACH. -/
def execMbTwinDetach (t : Tu) (tag : Byte) (s : State) : Host.Outcome State Fault Refusal :=
  s.mbWhen t tag 0x41 twinDetach

/-- DETACH: SOLO at the named frame; with cause FAILED (1, log 37) a following part of a FAILOVER pair declares the
failure (R376, R379). -/
def State.detachMsg (s : State) (m : List Byte) : State :=
  if !s.attached then s
  else if glnSub m = 1 ∧ s.glnMode = 2 ∧ 2 ≤ s.role then s.modGln fun g => { g with failCause := g.failCause ||| 8 }
  else s.modGln fun g => { g with detachAt := some (BitVec.ofNat 48 (leAt m 4 6), 2) }

/-- DETACH (R379). -/
def execDetach (t : Tu) (m : List Byte) (s : State) : Host.Outcome State Fault Refusal :=
  s.when t fun s => s.glnMsg m 0xC fun s => s.forBasecamp m fun s => s.detachMsg m

/-- The messages that waited are handled (Table MGT-1). -/
def State.handleWaiting (s : State) : State :=
  s.gln.waiting.foldl (fun s m =>
    if glnTyp m = 1 then s.hello m else if glnTyp m = 2 then s.roleMsg m else s.detachMsg m)
    (s.modGln fun g => { g with waiting := [] })

/-- A part becomes SOLO at its next tick where the link or the partner is lost (R380). -/
def State.loseLink (s : State) : State :=
  let gone := !s.flag Fld.GLN_STATUS_PRESENT 0
  if s.attached ∧ (s.glnMode ≠ 2 ∨ (gone ∧ s.role ≠ 2)) then s.modGln fun g => { g with soloNext := true } else s

/-- The link goes down. -/
def State.linkDown (s : State) : State :=
  if s.glnUp then
    let s1 := (s.setFld Fld.GLN_STATUS_LINK_UP 0 0).modGln fun g => { g with downAge := 0 }
    ((s1.notePartner).raise 48 2 0).loseLink
  else s.loseLink

/-- The link comes up: a TAKE that is owed is sent first (R377 item 5). -/
def State.linkUp (s : State) : State :=
  if s.glnUp || !s.flag Fld.GLN_STATUS_PRESENT 0 || !s.flag Fld.GLN_CFG_EN 0 then s
  else
    let s1 := (s.setFld Fld.GLN_STATUS_LINK_UP 0 1).modGln fun g =>
      { g with seqRx := [], beatAge := 0, downAge := 0, takeOwed := none }
    let s2 := (s1.notePartner).raise 48 1 0
    match s.gln.takeOwed with
    | some (f, d) => s2.glnSend 0xB 0 (leBytes 6 f.toNat ++ leBytes 6 d.toNat) 3
    | none => s2

/-- GLN_LINK (R364, R380). -/
def execGlnLink (t : Tu) (up : Bool) (s : State) : Host.Outcome State Fault Refusal :=
  s.when t fun s => if s.standby ∨ !s.gateOpen 28 then s else if up then s.linkUp else if s.glnUp then s.linkDown else s

/-- TWIN_PRES_CHANGE: a part that loses TWIN_PRES acts as for a link that goes down (R366, R380). -/
def execTwinPresChange (t : Tu) (present : Bool) (s : State) : Host.Outcome State Fault Refusal :=
  s.when t fun s =>
    let s1 := (s.setFld Fld.GLN_STATUS_PRESENT 0 present.toNat).modGln fun g => { g with absentAge := 0 }
    if present then s1 else s1.linkDown

/-- A write of GLN_CFG: EN = 0 holds the link idle, and the part becomes SOLO at its next tick. -/
def State.writeGlnCfg (s : State) (v : Word) : State :=
  let s0 := s.writeRW .GLN_CFG 0 v
  let s1 := if !s.flag Fld.GLN_CFG_EN 0 && v.getLsbD 0 then s0.diagClear [1, 2, 3, 4] else s0
  if s.flag Fld.GLN_CFG_EN 0 && !v.getLsbD 0 then
    let s2 := s1.linkDown
    if s2.attached then s2.modGln fun g => { g with soloNext := true } else s2
  else s1

/-- A held queue completes after a detach: covered data is discarded, the rest ends in one record with ABORTED and
LAST (R379). -/
def State.heldComplete (s : State) (q : Nat) : State :=
  let x := s.queue q
  let dt := s.frameOf .GLN_DT_LO .GLN_DT_HI 0
  match x.release with
  | none => s
  | some n =>
    if n < 64 ∧ !(x.staged.all fun b => frameLe b.frame dt) then s
    else
      let s1 := s.modQueue q fun x =>
        { x with staged := (x.staged.map fun b => { b with open_ := false }).filter (fun b => !frameLe b.frame dt),
                 release := none }
      let s2 := if (s1.queue q).staged.isEmpty then s1 else s1.abortRecord q
      (s2.qOff q).qEvent q 4

/-- HELD_QUEUE_COMPLETE (R379). -/
def execHeldQueueComplete (t : Tu) (q : Fin 64) (s : State) : Host.Outcome State Fault Refusal :=
  s.when t fun s => s.heldComplete q

/-! ### Ticks -/

/-- What the twin link does when a tick begins: roles that apply, then failures (R368, R376, R377, R379, R380). -/
def State.glnRoles (s : State) : State :=
  let s1 := match s.gln.rolePend with
    | some (f, r, m) => if frameLe f s.frame then s.applyRole r m else s
    | none => s
  let s2 := if s1.gln.deposed then s1.depose else s1
  let s3 := match s2.gln.detachAt with
    | some (f, c) => if frameLe f s2.frame then (s2.becomeSolo).raise 50 c 0 else s2
    | none => s2
  let s4 := if s3.gln.soloNext then (s3.becomeSolo).raise 51 1 0 else s3
  let s5 := if s4.gln.takeover then s4.takeOver else s4
  s5.glnAges.declareFail

/-- What it sends at a tick, or at an internal instant while UNPITCHED: HELLO every 10 µs of an attach, TIME_REQ,
BEAT (Table GLN-3). -/
def State.glnSends (s : State) : State :=
  let s1 := match s.gln.attach with
    | some a => if tuLe (tuAdd a.hello (ns 10000)) s.time then s.sendHello else s
    | none => s
  (if s1.measuresEpoch then s1.glnSend 4 0 (leBytes 8 s1.time.toNat) 1 else s1).sendBeat

/-- The part becomes SOLO at an internal instant where no tick comes (R380). -/
def State.glnUnpitched (s : State) : State :=
  (if s.gln.soloNext ∨ s.gln.detachAt.isSome then
    let c := s.gln.detachAt
    let s1 := s.becomeSolo
    match c with
    | some (_, c) => s1.raise 50 c 0
    | none => s1.raise 51 1 0
  else match s.gln.rolePend with
    | some (_, r, m) => s.applyRole r m
    | none => s).glnSends

end Sys2Proof.Machine
end

