-- ==== Sys2Proof/Machine/Mgt.lean ====
section
/-! DEFINITION. The Basecamp management subsystem (chapter 18: R385 to R405): start, restart and firmware banks,
sensors, the persistent log, fuses, the PMBus master, secure debug, and the SMBus target. -/

namespace Sys2Proof.Machine

/-- The state with Basecamp's model changed. -/
def State.modMgt (s : State) (f : Mgt → Mgt) : State := { s with mgt := f s.mgt }

/-- Basecamp has supply and is out of reset: it goes on after a thermal trip (R422). -/
def State.mgtUp (s : State) : Bool := s.pwr.on && !s.pwr.rstLow

/-- What Basecamp does at instant `t`, also after a thermal trip. -/
def State.whenMgt (s : State) (t : Tu) (f : State → State) : Host.Outcome State Fault Refusal :=
  if s.mgtUp then s.done (f (s.at t)) else .next s

/-! ### Fuses (R400) -/

/-- Width of a fuse field in bits (Table MGT-7). -/
def fuseWidth (id : Nat) : Nat :=
  [64, 8, 384, 384, 384, 384, 4, 1, 384, 384, 2, 64, 384, 1, 7, 1].getD id 0

/-- Value of a fuse field. -/
def State.fuse (s : State) (id : Nat) : Nat := tget 0 s.mgt.fuses id

/-- How many of the low `n` bits of a number are set. -/
def popCount (n x : Nat) : Nat := (bitsOf n x).length

/-- FW_SVN: the count of blown bits (R398). -/
def State.fwSvn (s : State) : Nat := popCount 64 (s.fuse 11)

/-- A word of a fuse field. -/
def fuseWord (v w : Nat) : Nat := v / 2 ^ (32 * w) % 2 ^ 32

/-- What registers show of the fuses: the SMBus address, 0x4A while SMB_ADDR is 0, DEBUG_LOCK (R401, R403), and SERIAL
(Table REG-2). -/
def State.showFuses (s : State) : State :=
  let s1 := s.setPair .HUB_SERIAL_LO .HUB_SERIAL_HI 0 (BitVec.ofNat 64 (s.fuse 0))
  (s1.setFld Fld.MGT_SMB_CFG_ADDR 0 (if s.fuse 14 = 0 then 0x4A else s.fuse 14)).setFld Fld.MGT_DEBUG_STATUS_LOCKED 0
    (s.fuse 13 % 2)

/-- The state with bits of a fuse field blown. -/
def State.blow (s : State) (id bits : Nat) : State :=
  (s.modMgt fun m => { m with fuses := tput 0 m.fuses id (tget 0 m.fuses id ||| bits) }).showFuses

/-- The ways in which a field may be programmed: 0 factory only or only through MB_FW_COMMIT, 1 until PROV_LOCK,
2 always. -/
def fuseRule (id : Nat) : Nat :=
  if id ≤ 1 ∨ id = 8 ∨ id = 9 ∨ id = 11 then 0 else if id ≤ 5 ∨ id = 12 ∨ id = 14 then 1 else 2

/-- MB_FUSE_READ: up to 32 bytes of a field from a word offset. -/
def fuseRead (s : State) (args : List Word) : MbEnd :=
  let id := argAt args 0
  let o := argAt args 1
  if 15 < id ∨ fuseWidth id ≤ 32 * o then mbFail s mbBadArg
  else ⟨s, mbOk, ((List.range 8).filter fun w => decide (32 * (o + w) < fuseWidth id)).map fun w =>
    w32 (fuseWord (s.fuse id) (o + w))⟩

/-- MB_FUSE_READ (R400). -/
def execMbFuseRead (t : Tu) (tag : Byte) (s : State) : Host.Outcome State Fault Refusal := s.mbWhen t tag 0x70 fuseRead

/-- Last sampled value of a sensor, signed (Table MGT-4). -/
def State.sense (s : State) (n : Nat) : Int := sgn 16 (s.fld Fld.MGT_SENSE_VALUE n)

/-- Nominal value of a supply sensor, mV. -/
def nominal (n : Nat) : Nat := [750, 900, 1800, 1800, 1100, 400, 1800, 750, 1200].getD (n - 5) 1

/-- The conditions for programming: VDD_ANAH within its WARN threshold and a hub Tj of 0 °C to 85 °C. -/
def State.fuseAllowed (s : State) : Bool :=
  decide ((s.sense 7 - nominal 7).natAbs * 1000 < s.fld Fld.MGT_THR_WARN 7 * nominal 7 ∧ 0 ≤ s.sense 0 ∧ s.sense 0 ≤ 850)

/-- MB_FUSE_PROG: the requested bits are blown and the word is read back; `stuck`: the requested bits that did not
set. -/
def fuseProg (stuck : Word) (s : State) (args : List Word) : MbEnd :=
  let id := argAt args 0
  let o := argAt args 1
  let bits := argAt args 2
  if 15 < id ∨ fuseWidth id ≤ 32 * o ∨ 2 ^ fuseWidth id ≤ bits * 2 ^ (32 * o) ∨ argAt args 3 ≠ 0x46555345 ∨ fuseRule id = 0
  then mbFail s mbBadArg
  else if fuseRule id = 1 ∧ s.fuse 15 = 1 then mbFail s 0x38
  else if !s.fuseAllowed then mbFail s mbRefused
  else
    let set := bits &&& (stuck.toNat ^^^ (2 ^ 32 - 1))
    let s1 := s.blow id (set * 2 ^ (32 * o))
    let s2 := if set = 0 then s1 else s1.raise 470 1 id
    let w := fuseWord (s1.fuse id) o
    ⟨s2, if w &&& bits = bits then mbOk else 0x39, [w32 w]⟩

/-- MB_FUSE_PROG (R400). -/
def execMbFuseProg (t : Tu) (tag : Byte) (stuck : Word) (s : State) : Host.Outcome State Fault Refusal :=
  s.mbWhen t tag 0x71 (fuseProg stuck)

/-! ### Firmware images and banks (R397 to R399) -/

/-- SVN, VERSION and SIG_OFF of a firmware image. -/
def fwSvnOf (b : List Byte) : Nat := leAt b 8 4
def fwVersion (b : List Byte) : Nat := leAt b 0xC 4
def fwSigOff (b : List Byte) : Nat := leAt b 0x14 4

/-- The header is well formed and the image has the length it states (R397). -/
def fwFormat (b : List Byte) : Bool :=
  leAt b 0 4 == 0x4D475446 && leAt b 4 2 == 1 && leAt b 6 2 == 0x1632 && decide (fwSvnOf b ≤ 64) &&
    fwSigOff b == 64 + leAt b 0x10 4 && ((b.drop 0x18).take 40).all (· == 0) &&
    decide (fwSigOff b + 208 ≤ b.length ∧ fwSigOff b + 208 ≤ 1040384)

/-- The signature passes as R70 states for the FW_KEY_HASH slot, and that slot is not revoked (R398). -/
def fwSigned (fuses : Tab Nat) (b : List Byte) : Bool :=
  let o := fwSigOff b
  let key := (b.drop (o + 8)).take 97
  let idx := leAt b (o + 2) 2
  leAt b o 2 == 1 && decide (idx ≤ 1) && leAt b (o + 4) 4 == 0 && leAt b (o + 105) 7 == 0 && Config.isP384Point key &&
    leAt key 0 1 == 4 && Config.sha384 key == tget 0 fuses (8 + idx) && !(tget 0 fuses 10).testBit idx &&
    Config.ecdsaP384 key (Config.sha384 (b.take o)) ((b.drop (o + 112)).take 96)

/-- Why an image does not verify, 0 where it does: FW_FORMAT, FW_SIG, FW_ROLLBACK. -/
def State.fwCheck (s : State) (b : List Byte) : Nat :=
  if !fwFormat b then 0x30 else if !fwSigned s.mgt.fuses b then 0x31 else if fwSvnOf b < s.fwSvn then 0x32 else 0

/-- Firmware bank b. -/
def State.bank (s : State) (b : Nat) : Bank := tget Bank.init s.mgt.flash.banks b

/-- The state with a firmware bank changed. -/
def State.setBank (s : State) (b : Nat) (x : Bank) : State :=
  s.modMgt fun m => { m with flash := { m.flash with banks := tput Bank.init m.flash.banks b x } }

/-- The bank verifies. -/
def State.bankGood (s : State) (b : Nat) : Bool := (s.bank b).state != 0 && s.fwCheck (s.bank b).image == 0

/-- The bank in which firmware runs; none while the ROM runs alone. -/
def State.runningBank (s : State) : Option Nat := if s.mgt.run = 1 then some (s.fld Fld.MGT_FW_STATUS_BANK 0) else none

/-- MB_INFO (Table MGT-3). -/
def mbInfo (s : State) (_ : List Word) : MbEnd :=
  let svn := if s.mgt.run = 1 then fwSvnOf (s.bank (s.fld Fld.MGT_FW_STATUS_BANK 0)).image % 256 else s.freeBelow 256
  ⟨s.used, mbOk, [s.reg .MGT_FW_VER 0,
    w32 (svn + 256 * s.fld Fld.MGT_FW_STATUS_BANK 0 + 512 * s.fld Fld.MGT_FW_STATUS_TRIAL 0),
    w32 (s.fld Fld.MGT_FW_STATUS_BOOT_COUNT 0), s.reg .HUB_SERIAL_LO 0, s.reg .HUB_SERIAL_HI 0,
    w32 (s.fld Fld.HUB_REV_STEPPING 0)]⟩

/-- MB_INFO. -/
def execMbInfo (t : Tu) (tag : Byte) (s : State) : Host.Outcome State Fault Refusal := s.mbWhen t tag 1 mbInfo

/-- MB_FW_INFO: state of a bank, and version, SVN and length of the image in it. -/
def fwInfo (s : State) (args : List Word) : MbEnd :=
  let b := argAt args 0
  if 1 < b then mbFail s mbBadArg
  else
    let x := s.bank b
    ⟨s, mbOk, w32 x.state :: (if x.image.isEmpty then []
      else [w32 (fwVersion x.image), w32 (fwSvnOf x.image), w32 (fwSigOff x.image + 208)])⟩

/-- MB_FW_INFO (R399). -/
def execMbFwInfo (t : Tu) (tag : Byte) (s : State) : Host.Outcome State Fault Refusal := s.mbWhen t tag 0x60 fwInfo

/-- A firmware command ends: EV458 with done or failed. -/
def fwEnd (s : State) (status : Nat) (res : List Word) : MbEnd :=
  ⟨s.raise 458 (if status = 0 then 1 else 2) 0, status, res⟩

/-- A flash operation fails: EV467 (Table MGT-10). -/
def State.flashFail (s : State) : State := s.raise0 467

/-- MB_FW_UPDATE: fetch, verify, write and read back; on a failure of these the bank is EMPTY (R398). -/
def fwUpdate (img : Option (List Byte)) (flashOk : Bool) (s : State) (args : List Word) : MbEnd :=
  let len := argAt args 2
  let b := 1 - s.fld Fld.MGT_FW_STATUS_BANK 0
  if argAt args 0 % 8 ≠ 0 ∨ 1040384 < len then fwEnd s mbBadArg []
  else
    match img with
    | none => fwEnd (s.setBank b Bank.init) mbFetch []
    | some x =>
      let y := x.take len
      let r := s.fwCheck y
      if r ≠ 0 then fwEnd (s.setBank b Bank.init) r []
      else if !flashOk then fwEnd (s.setBank b Bank.init).flashFail mbFlash []
      else fwEnd (s.setBank b ⟨1, y.take (fwSigOff y + 208), 0⟩) mbOk [w32 b]

/-- MB_FW_UPDATE (R398). -/
def execMbFwUpdate (t : Tu) (tag : Byte) (img : Option (List Byte)) (flashOk : Bool) (s : State) :
    Host.Outcome State Fault Refusal :=
  s.mbWhen t tag 0x61 (fwUpdate img flashOk)

/-- MB_FW_ACTIVATE: a verified bank becomes TRIAL (R398); with ARG1 = 1 the restart into it follows. -/
def fwActivate (s : State) (args : List Word) : MbEnd :=
  let b := argAt args 0
  if 1 < b ∨ 1 < argAt args 1 then fwEnd s mbBadArg []
  else if s.runningBank = some b then fwEnd s mbRefused []
  else
    let x := s.bank b
    let r := if x.state = 0 then 0x31 else s.fwCheck x.image
    if r ≠ 0 then fwEnd s (if r = 0x30 then 0x31 else r) []
    else
      let s1 := s.setBank b { x with state := 2 }
      fwEnd (if argAt args 1 = 1 then s1.modMgt fun m => { m with activate := some b } else s1) mbOk []

/-- Basecamp restarts (R385): a command in progress ends with RESTARTED, and the mailbox reads RESTARTING until the
restart ends. -/
def State.beginRestart (s : State) : State :=
  let s1 := if s.fld Fld.MGT_MB_STATE_STATE 0 = 1 then
      (s.modGln fun g => { g with attach := none }).pitchShown.mbDone mbRestarted []
    else s
  (s1.modMgt fun m => { m with run := 2, box := s1.fld Fld.MGT_MB_STATE_STATE 0, trialFrom := none }).setFld
    Fld.MGT_MB_STATE_STATE 0 3

/-- The restart of an activation begins when its command has completed (R398). -/
def State.activateNow (s : State) : State := if s.mgt.activate.isSome ∧ s.mgt.run ≠ 2 then s.beginRestart else s

/-- MB_FW_ACTIVATE (R398). -/
def execMbFwActivate (t : Tu) (tag : Byte) (s : State) : Host.Outcome State Fault Refusal :=
  s.whenHost t fun s => (s.mbIssue tag 0x62 fwActivate).activateNow

/-- MB_FW_COMMIT: the bank running on trial becomes COMMITTED, and FW_SVN bits are blown up to its SVN (R399). Where
some of them do not set, how many did is left open (log 2). -/
def fwCommit (flashOk fuseOk : Bool) (s : State) (_ : List Word) : MbEnd :=
  let b := s.fld Fld.MGT_FW_STATUS_BANK 0
  if !s.flag Fld.MGT_FW_STATUS_TRIAL 0 then fwEnd s 0x33 []
  else if !flashOk then fwEnd s.flashFail mbFlash []
  else
    let n := s.mgt.commits + 1
    let s1 := (((s.setBank b { s.bank b with state := 3, commitNo := n }).modMgt fun m =>
      { m with commits := n, trialFrom := none }).setFld Fld.MGT_FW_STATUS_TRIAL 0 0)
    let svn := fwSvnOf (s.bank b).image
    let old := s.fwSvn
    if svn ≤ old then fwEnd s1 mbOk [w32 old]
    else
      let got := if fuseOk then svn else old + s1.freeBelow (svn - old)
      let s2 := (if fuseOk then s1 else s1.used).blow 11 (2 ^ got - 1)
      let s3 := if got = old then s2 else s2.raise 470 1 11
      fwEnd s3 (if fuseOk then mbOk else 0x39) (if fuseOk then [w32 svn] else [])

/-- MB_FW_COMMIT (R399). -/
def execMbFwCommit (t : Tu) (tag : Byte) (flashOk fuseOk : Bool) (s : State) : Host.Outcome State Fault Refusal :=
  s.mbWhen t tag 0x63 (fwCommit flashOk fuseOk)

/-! ### Starting firmware (R385, R386, R399, R411) -/

/-- The bank that the ROM selects, whether it runs on trial, and whether under item 3 of R399. -/
def State.selectBank (s : State) : Option (Nat × Bool × Bool) :=
  let good (st b : Nat) : Bool := (s.bank b).state == st && s.bankGood b
  let late := if (s.bank 0).commitNo < (s.bank 1).commitNo then 1 else 0
  let trials := if s.mgt.trialBad then [] else s.mgt.activate.toList ++ [0, 1]
  match trials.find? (good 2) with
  | some b => some (b, true, false)
  | none =>
    if (s.bank late).state = 3 ∧ s.bankGood late then some (late, false, false)
    else if good 3 (1 - late) then some (1 - late, false, (s.bank late).state == 3) else none

/-- Raises that waited are recorded, and the sources routed to Basecamp are handled (Table MGT-1). -/
def State.handleHeld (s : State) : State :=
  let s1 := s.mgt.deferred.foldl (fun s d => s.logRaise d.1 d.2) (s.modMgt fun m => { m with deferred := [] })
  s1.evt.basecamp.foldl (fun s n => s.deliver n) { s1 with evt := { s1.evt with basecamp := [] } }

/-- Firmware starts in a bank, or the ROM runs the mailbox alone. `restart`: after a restart, else after a
whole-device reset. -/
def State.startFirmware (s : State) (restart : Bool) : State :=
  let base := (s.modMgt fun m => { m with activate := none, halted := false, trialBad := false }).setFld Fld.MGT_MB_STATE_STATE 0 s.mgt.box
  match s.selectBank with
  | none =>
    ((((base.modMgt fun m => { m with run := 3 }).setReg .MGT_FW_VER 0 0).setFld Fld.MGT_FW_STATUS_ROM_ONLY 0 1).setFld
      Fld.MGT_FW_STATUS_TRIAL 0 0).setFld Fld.HUB_BOOT_STATUS_PHASE 0
      (if s.fld Fld.HUB_BOOT_STATUS_PHASE 0 = 0 then 5 else s.fld Fld.HUB_BOOT_STATUS_PHASE 0)
  | some (b, trial, fb) =>
    let s1 := base.modMgt fun m => { m with run := 1, trialFrom := if trial then some s.time else none }
    let s2 := ((((s1.setReg .MGT_FW_VER 0 (w32 (fwVersion (s.bank b).image))).setFld Fld.MGT_FW_STATUS_BANK 0 b).setFld
      Fld.MGT_FW_STATUS_TRIAL 0 trial.toNat).setFld Fld.MGT_FW_STATUS_FALLBACK 0 fb.toNat).setFld
      Fld.MGT_FW_STATUS_ROM_ONLY 0 0
    let p := s.fld Fld.HUB_BOOT_STATUS_PHASE 0
    let s3 := if p = 0 ∨ p = 1 ∨ p = 5 then s2.setFld Fld.HUB_BOOT_STATUS_PHASE 0 2 else s2
    ((s3.handleHeld).handleWaiting).raise 457
      (1 * (!restart).toNat + 2 * restart.toNat + 4 * trial.toNat + 8 * fb.toNat) 0

/-- The ROM phase: fuses are read and the factory tables loaded, and background calibration may start (R411,
R412). The log resumes after its highest SEQ (R395). -/
def State.romPhase (s : State) : State :=
  let n := (s.mgt.flash.log.map LogEntry.seq).foldl max 0
  let c := min (s.mgt.flash.boots + 1) 65535
  let s1 := (s.showFuses).modMgt fun m => { m with nextSeq := n, flash := { m.flash with boots := c } }
  let s2 := ((s1.setFld Fld.MGT_LOG_SEQ_SEQ 0 n).setFld Fld.MGT_FW_STATUS_BOOT_COUNT 0 c)
  ({ s2 with pwr := { s2.pwr with tables := true } }.startLanes 0).startLanes 1

/-- MGT_BOOT (R399, R411): after a whole-device reset. -/
def execMgtBoot (t : Tu) (s : State) : Host.Outcome State Fault Refusal :=
  s.when t fun s => if s.mgt.run = 0 then (s.romPhase).startFirmware false else s

/-- MGT_WATCHDOG: 1 s without service; suspended while the processor is halted (R385, R403). -/
def execMgtWatchdog (t : Tu) (s : State) : Host.Outcome State Fault Refusal :=
  s.when t fun s =>
    if (s.mgt.run = 1 ∨ s.mgt.run = 3) ∧ !s.mgt.halted then (s.beginRestart).raise0 468 else s

/-- BASECAMP_RESTART_DONE (R385). -/
def execBasecampRestartDone (t : Tu) (s : State) : Host.Outcome State Fault Refusal :=
  s.when t fun s => if s.mgt.run = 2 then s.startFirmware true else s

/-- DEBUG_HALT: through a debug port that is open or unlocked (R385, R403). -/
def execDebugHalt (t : Tu) (s : State) : Host.Outcome State Fault Refusal :=
  s.when t fun s =>
    if (s.mgt.run = 1 ∨ s.mgt.run = 3) ∧ (s.fuse 13 = 0 ∨ s.flag Fld.MGT_DEBUG_STATUS_UNLOCKED 0) then
      (s.beginRestart).modMgt fun m => { m with halted := true }
    else s

/-- TRIAL_TIMEOUT: no health within 10 s: the watchdog returns control to the ROM, and the bank is FAILED (R399). -/
def execTrialTimeout (t : Tu) (s : State) : Host.Outcome State Fault Refusal :=
  s.when t fun s =>
    match s.mgt.trialFrom with
    | some t0 =>
      if s.mgt.run = 1 ∧ tuLe (tuAdd t0 (ns 10000000000)) s.time then
        let b := s.fld Fld.MGT_FW_STATUS_BANK 0
        ((((s.setBank b { s.bank b with state := 4 }).beginRestart).modMgt fun m => { m with trialBad := true }).raise0
          468).raise 458 4 0
      else s
    | none => s

/-! ### Sensors (R391, R392) -/

/-- A sensor's value has reached a threshold: the value itself for a temperature, its deviation from nominal in
units of 0.1 % for a supply. -/
def senseAt (n : Nat) (v : Int) (thr : Int) : Bool :=
  if n < 5 then decide (thr ≤ v) else decide (thr * nominal n ≤ (v - nominal n).natAbs * 1000)

/-- It has returned inside a threshold by 2.0 °C or by 1.0 % of nominal. -/
def senseBack (n : Nat) (v : Int) (thr : Int) : Bool :=
  if n < 5 then decide (v ≤ thr - 20) else decide (((v - nominal n).natAbs : Int) * 1000 ≤ (thr - 10) * nominal n)

/-- WARN or CRIT of a sensor follows a new value: a setting raises its event, and a clearing is logged (R392). -/
def State.senseLevel (s : State) (n : Nat) (v : Int) (crit : Bool) : State :=
  let f := if crit then Fld.MGT_SENSE_CRIT else Fld.MGT_SENSE_WARN
  let seen := if crit then Fld.MGT_SENSE_CRIT_SEEN else Fld.MGT_SENSE_WARN_SEEN
  let x := if crit then s.fld Fld.MGT_THR_CRIT n else s.fld Fld.MGT_THR_WARN n
  let thr : Int := if n < 5 then sgn 16 x else x
  if !s.flag f n then
    if senseAt n v thr then
      let s1 := (s.setFld f n 1).setFld seen n 1
      if 5 ≤ n then s1.raise 460 (if crit then 2 else 1) n else s1.raise (if crit then 463 else 459) 1 n
    else s
  else if senseBack n v thr then (s.setFld f n 0).logNote 9 n (w32 (s.reg .MGT_SENSE n).toNat) else s

/-- A sensor's new value. -/
def State.senseValue (s : State) (n : Nat) (v : BitVec 16) : State :=
  ((s.setFld Fld.MGT_SENSE_VALUE n v.toNat).senseLevel n v.toInt false).senseLevel n v.toInt true

/-- SENSOR_SAMPLE: every 1 ms while Basecamp's firmware runs (R391). -/
def execSensorSample (t : Tu) (v : List (BitVec 16)) (s : State) : Host.Outcome State Fault Refusal :=
  s.when t fun s =>
    if s.mgt.run = 1 then
      s.each 14 fun s n => match v[n]? with | some x => s.senseValue n x | none => s
    else s

/-! ### The persistent log (R393 to R395) -/

/-- A log entry in 32 bytes (Table MGT-5). -/
def LogEntry.bytes (e : LogEntry) : List Byte :=
  let b := leBytes 4 e.seq ++ leBytes 6 e.frame.toNat ++ leBytes 2 e.boot ++ leBytes 2 e.source ++ leBytes 1 e.kind ++
    leBytes 1 e.detail ++ leBytes 4 e.data.toNat ++ leBytes 8 e.time.toNat
  b ++ leBytes 4 (crc32 b).toNat

/-- The entries present, oldest first: in flash, then in the SRAM buffer. -/
def State.logAll (s : State) : List LogEntry := s.mgt.flash.log ++ s.mgt.sram.reverse

/-- An entry reaches flash; where it begins a 64 KiB sector of the ring, the 2,048 oldest entries go with the sector's
erasure (R393). -/
def logPut (l : List LogEntry) (e : LogEntry) : List LogEntry :=
  (if e.seq % 2048 = 1 then l.filter fun x => decide (e.seq ≤ x.seq + 260096) else l) ++ [e]

/-- MB_LOG_READ: entries from a SEQ on, or from the oldest present, to host memory. -/
def logRead (ok : Bool) (s : State) (args : List Word) : MbEnd :=
  let n := argAt args 1
  let a := argAt args 2 + 2 ^ 32 * argAt args 3
  if n = 0 ∨ 1024 < n ∨ a % 64 ≠ 0 then mbFail s mbBadArg
  else if !ok then mbFail s mbFetch
  else
    let l := (s.logAll.filter fun e => decide (argAt args 0 ≤ e.seq)).take n
    match l with
    | [] => ⟨s, mbOk, [0]⟩
    | e :: _ => ⟨s.emit (.hostWrite a (l.flatMap LogEntry.bytes) false), mbOk, [w32 l.length, w32 e.seq]⟩

/-- MB_LOG_READ (R395). -/
def execMbLogRead (t : Tu) (tag : Byte) (ok : Bool) (s : State) : Host.Outcome State Fault Refusal :=
  s.mbWhen t tag 0x50 (logRead ok)

/-- MB_LOG_MARK: an entry of KIND HOST with the note's bytes 0 to 3 in DATA and 4 to 7 in TIME, whose other bytes are
left open (log 2). -/
def logMark (s : State) (args : List Word) : MbEnd :=
  let n := s.mgt.sram.length
  let hi := s.freeBelow (2 ^ 32)
  let s1 := s.used.logAdd 0xFFFF 7 0 (args.getD 0 0)
  if n < 4096 then
    let s2 := s1.modMgt fun m =>
      { m with sram := match m.sram with
          | e :: l => { e with time := BitVec.ofNat 64 (argAt args 1 + 2 ^ 32 * hi) } :: l
          | [] => [] }
    ⟨s2, mbOk, [w32 s2.mgt.nextSeq]⟩
  else ⟨s1, mbOk, []⟩

/-- MB_LOG_MARK (R393). -/
def execMbLogMark (t : Tu) (tag : Byte) (s : State) : Host.Outcome State Fault Refusal := s.mbWhen t tag 0x51 logMark

/-- LOG_SUMMARY: at the end of a second, one entry with the count of a source's further raises (R395). -/
def execLogSummary (t : Tu) (s : State) : Host.Outcome State Fault Refusal :=
  s.when t fun s =>
    if s.mgt.run = 1 then
      s.mgt.logged.foldl (fun s e => if 16 < e.2 then s.logAdd e.1 1 0 (w32 (e.2 - 16)) else s)
        (s.modMgt fun m => { m with logged := [] })
    else s

/-- LOG_FLUSH: the waiting entries reach flash (R395). -/
def execLogFlush (t : Tu) (flashOk : Bool) (s : State) : Host.Outcome State Fault Refusal :=
  s.when t fun s =>
    if s.mgt.run ≠ 1 ∨ s.mgt.sram.isEmpty then s
    else if flashOk then
      s.modMgt fun m => { m with sram := [], flash := { m.flash with log := m.sram.reverse.foldl logPut m.flash.log } }
    else s.flashFail

/-! ### PMBus (R402) -/

/-- The fault bits of STATUS_WORD: all but BUSY, OFF and POWER_GOOD# (PMBus 1.3). -/
def statusFault (w : BitVec 16) : Bool := (w &&& 0xF73F#16) != 0

/-- One regulator has been polled. -/
def State.polled (s : State) (p : PmbusPoll) : State :=
  let r := p.r.val
  if !s.flag Fld.MGT_PMB_DEV_EN r then s
  else
    let page := s.fld Fld.MGT_PMB_DEV_PAGE r
    let s0 := if page = 0xFF then s else s.emit (.regulator (s.fld Fld.MGT_PMB_DEV_ADDR r) 0 [BitVec.ofNat 8 page])
    if p.failed then s0.raise 464 1 r
    else
      let s1 := (((s0.setFld Fld.MGT_PMB_VI_VOUT r p.vout.toNat).setFld Fld.MGT_PMB_VI_IOUT r p.iout.toNat).setFld
        Fld.MGT_PMB_TS_TEMP r p.temp.toNat).setFld Fld.MGT_PMB_TS_STATUS_WORD r p.status.toNat
      if statusFault p.status then s1.raise 464 1 r else s1

/-- PMBUS_POLL (R402). -/
def execPmbusPoll (t : Tu) (r : List PmbusPoll) (s : State) : Host.Outcome State Fault Refusal :=
  s.when t fun s => if s.mgt.run = 1 ∧ s.flag Fld.MGT_PMB_CFG_EN 0 then r.foldl State.polled s else s

/-- MB_PMBUS_XFER: one transaction with an enabled regulator. -/
def pmbusXfer (r : PmbusResult) (s : State) (args : List Word) : MbEnd :=
  let a := argAt args 0
  let dev := a % 8
  let wr := a / 2 ^ 16 % 256
  let rd := a / 2 ^ 24 % 256
  if 4 < wr ∨ 4 < rd then mbFail s mbBadArg
  else if !(s.flag Fld.MGT_PMB_CFG_EN 0 && s.flag Fld.MGT_PMB_DEV_EN dev) then mbFail s mbRefused
  else
    let s1 := s.emit (.regulator (s.fld Fld.MGT_PMB_DEV_ADDR dev) (a / 256 % 256) (leBytes wr (argAt args 1)))
    let bad (cause : Nat) : MbEnd :=
      let s2 := s1.raise 464 1 dev
      ⟨s2.used, mbRefused, [w32 (s2.freeBelow (2 ^ 32)), w32 cause]⟩
    match r with
    | .ok d => ⟨s1, mbOk, [w32 (d.toNat % 2 ^ (8 * rd))]⟩
    | .nack => bad 1
    | .pec => bad 2
    | .timeout => bad 3

/-- MB_PMBUS_XFER (R402). -/
def execMbPmbusXfer (t : Tu) (tag : Byte) (r : PmbusResult) (s : State) : Host.Outcome State Fault Refusal :=
  s.mbWhen t tag 0x80 (pmbusXfer r)

/-! ### Secure debug (R403) -/

/-- The word of four bytes at offset 4 × i. -/
def wordAt (b : List Byte) (i : Nat) : Word := w32 (leAt b (4 * i) 4)

/-- MB_DEBUG_CHALLENGE: a fresh nonce of 32 bytes. -/
def debugChallenge (nonce : List Byte) (s : State) (_ : List Word) : MbEnd :=
  if s.fuse 13 = 0 then mbFail s 0x3D
  else
    let n := leBytes 32 (leNat nonce)
    ⟨s.modMgt fun m => { m with nonce := some (n, s.time) }, mbOk, (List.range 8).map (wordAt n)⟩

/-- MB_DEBUG_CHALLENGE. -/
def execMbDebugChallenge (t : Tu) (tag : Byte) (nonce : List Byte) (s : State) : Host.Outcome State Fault Refusal :=
  s.mbWhen t tag 0x90 (debugChallenge nonce)

/-- A response unlocks the port: its key has the fused digest, and it signs the nonce followed by SERIAL. -/
def State.unlocks (s : State) (nonce resp : List Byte) : Bool :=
  let key := resp.take 97
  Config.sha384 key == s.fuse 12 &&
    Config.ecdsaP384 key (Config.sha384 (nonce ++ leBytes 8 (s.fuse 0))) ((resp.drop 97).take 96)

/-- MB_DEBUG_UNLOCK: the nonce is valid for 60 s and for one attempt. -/
def debugUnlock (resp : Option (List Byte)) (s : State) (_ : List Word) : MbEnd :=
  if s.fuse 13 = 0 then mbFail s 0x3D
  else
    match resp with
    | none => mbFail s mbFetch
    | some x =>
      let s1 := s.modMgt fun m => { m with nonce := none }
      let good := match s.mgt.nonce with
        | some (n, t0) => tuLe s.time (tuAdd t0 (ns 60000000000)) && s.unlocks n x
        | none => false
      if good then ⟨(s1.setFld Fld.MGT_DEBUG_STATUS_UNLOCKED 0 1).raise 469 1 0, mbOk, []⟩
      else ⟨s1.raise 469 2 0, 0x3C, []⟩

/-- MB_DEBUG_UNLOCK. -/
def execMbDebugUnlock (t : Tu) (tag : Byte) (resp : Option (List Byte)) (s : State) :
    Host.Outcome State Fault Refusal :=
  s.mbWhen t tag 0x91 (debugUnlock resp)

/-! ### The SMBus target (R401) -/

/-- Any sensor shows a bit. -/
def State.anySense (s : State) (f : Fld) : Bool := (List.range 14).any fun n => s.flag f n

/-- The STATUS word of Table MGT-8. -/
def State.smbStatus (s : State) : Nat :=
  (s.mgt.run == 1 || s.mgt.run == 3).toNat + 2 * s.pitched.toNat + 4 * (s.anySense Fld.MGT_SENSE_WARN).toNat +
    8 * (s.anySense Fld.MGT_SENSE_CRIT).toNat + 16 * (s.mgt.smb.state == 2).toNat +
    32 * (s.flag Fld.MGT_LOG_DROP_COUNT 0).toNat

/-- ALERT_N is asserted: a masked STATUS bit is 1, or a thermal trip has stopped the device (R401, R422). -/
def State.alertN (s : State) : Bool := s.pwr.tripped || (s.smbStatus &&& s.mgt.smb.alertMask.toNat) != 0

/-- A transaction of the target: refused without an acknowledge where the target is off or a PEC is missing, or,
except for STATUS, while Basecamp does not run. -/
def State.smbDo (s : State) (pec status : Bool) (f : State → State) : State :=
  if !s.flag Fld.MGT_SMB_CFG_EN 0 ∨ (s.flag Fld.MGT_SMB_CFG_PEC_REQ 0 ∧ !pec) ∨
      (!status ∧ s.mgt.run ≠ 1 ∧ s.mgt.run ≠ 3) then s.emit .smbusNack
  else f s

/-- SMB_STATUS. -/
def execSmbStatus (t : Tu) (pec : Bool) (s : State) : Host.Outcome State Fault Refusal :=
  s.whenMgt t fun s => s.smbDo pec true fun s => s.emit (.smbus (leBytes 2 s.smbStatus))

/-- SMB_ALERT_MASK. -/
def execSmbAlertMask (t : Tu) (pec : Bool) (w : Option (BitVec 16)) (s : State) : Host.Outcome State Fault Refusal :=
  s.whenMgt t fun s => s.smbDo pec false fun s =>
    match w with
    | some v => s.modMgt fun m => { m with smb := { m.smb with alertMask := v } }
    | none => s.emit (.smbus (leBytes 2 s.mgt.smb.alertMask.toNat))

/-- SMB_SENSE: a sensor that Table MGT-4 does not have is not acknowledged. -/
def execSmbSense (t : Tu) (pec : Bool) (n : Byte) (s : State) : Host.Outcome State Fault Refusal :=
  s.whenMgt t fun s => s.smbDo pec false fun s =>
    if n.toNat < 14 then s.emit (.smbus (leBytes 4 (s.reg .MGT_SENSE n.toNat).toNat)) else s.emit .smbusNack

/-- The run of a command that the SMBus mailbox may use. -/
def smbRun (cmd : Nat) (r : PmbusResult) : State → List Word → MbEnd :=
  if cmd = 0x01 then mbInfo
  else if cmd = 0x22 then fun s a => s.calInfo a
  else if cmd = 0x41 then twinDetach
  else if cmd = 0x42 then twinTake
  else if cmd = 0x51 then logMark
  else if cmd = 0x60 then fwInfo
  else if cmd = 0x70 then fuseRead
  else pmbusXfer r

/-- The SMBus mailbox ends its command: its DONE bit sets, and EV465 is raised. -/
def State.smbDone (s : State) (tag : Byte) (status : Nat) (res : List Word) : State :=
  let rs := s.mbResults res
  ({ s with free := s.free + 8, mgt := { s.mgt with smb :=
    { s.mgt.smb with state := 2, tag := tag, status := status, res := rs } } }).raise 465 1 status

/-- The host mailbox runs a command of the class of `cmd` (R388). -/
def State.classBusy (s : State) (cmd : Nat) : Bool :=
  s.fld Fld.MGT_MB_STATE_STATE 0 == 1 && mbClass (s.fld Fld.MGT_MB_CMD_CMD 0) == mbClass cmd

/-- A command of the SMBus mailbox (R387 to R389). -/
def State.smbRequest (s : State) (tag : Byte) (cmd : Nat) (args : List Word) (r : PmbusResult) : State :=
  if s.mgt.smb.state ≠ 0 then s
  else if s.mgt.run = 3 ∧ !romCmd cmd then s.smbDone tag mbNotAllowed []
  else if !knownCmd cmd then s.smbDone tag mbBadCmd []
  else if !smbusCmd cmd then s.smbDone tag mbNotAllowed []
  else if s.classBusy cmd then s.smbDone tag mbBusy []
  else
    let e := smbRun cmd r s args
    e.s.smbDone tag e.status e.res

/-- SMB_MB_REQ. -/
def execSmbMbReq (t : Tu) (pec : Bool) (tag : Byte) (cmd : BitVec 16) (args : List Word) (r : PmbusResult) (s : State) :
    Host.Outcome State Fault Refusal :=
  s.whenMgt t fun s => s.smbDo pec false fun s => s.smbRequest tag cmd.toNat args r

/-- SMB_MB_RESP: a read in DONE acts as ACK. -/
def execSmbMbResp (t : Tu) (pec : Bool) (s : State) : Host.Outcome State Fault Refusal :=
  s.whenMgt t fun s => s.smbDo pec false fun s =>
    let b := s.mgt.smb
    let s1 := s.emit (.smbus (leBytes 1 b.status ++ [b.tag] ++
      ((List.range 8).map fun a => leBytes 4 (b.res.getD a 0).toNat).flatten))
    if b.state = 2 then s1.modMgt fun m => { m with smb := { m.smb with state := 0 } } else s1

/-- SMB_LOG_ENTRY: the entry with a SEQ, or no bytes where it is not present. -/
def execSmbLogEntry (t : Tu) (pec : Bool) (seq : Word) (s : State) : Host.Outcome State Fault Refusal :=
  s.whenMgt t fun s => s.smbDo pec false fun s =>
    match s.logAll.find? fun e => e.seq == seq.toNat with
    | some e => s.emit (.smbus e.bytes)
    | none => s.emit (.smbus [])

end Sys2Proof.Machine
end

