-- ==== Sys2Proof/Machine/Pitch.lean ====
section
/-! DEFINITION. The pitch image: loading, storing and applying it (chapter 03: R61 to R81), with what a pitch changes in
every other block. -/

namespace Sys2Proof.Machine

/-- The state with the model of the pitch changed. -/
def State.modPitch (s : State) (f : Pitch → Pitch) : State := { s with pitch := f s.pitch }

/-! ### The check (R74, R79) -/

/-- The stack of die e has failed training (R414). -/
def State.stackFailed (s : State) (e : Nat) : Bool :=
  if e = 0 then s.flag Fld.HUB_BOOT_STATUS_M0_FAIL 0 else s.flag Fld.HUB_BOOT_STATUS_M1_FAIL 0

/-- The source of a granted queue's stream lies in cluster c: its unit's cluster, or for directory write-back a
cluster that its region records. -/
def sourceIn (rs : List ImgRec) (c q : Nat) : Bool :=
  granted rs q && (streamCluster (streamKind rs q) (streamUnit rs q) == some c ||
    (streamKind rs q == 5 && (regionChans rs (streamUnit rs q)).any fun ch => ch / 4 == c))

/-- The regions that count for the idleness of cluster c: they record a channel of it, or are wired to one of its
generators or to XTRIG 9 + c. -/
def regionOfCluster (rs : List ImgRec) (c m : Nat) : Bool :=
  ((regionChans rs m).any fun ch => ch / 4 == c) ||
    ((List.range 4).any fun i => (recFld rs 3 (4 * c + i) 4 4 0).testBit m) || (recFld rs 4 (9 + c) 0 4 0).testBit m

/-- The queue holds nothing and takes nothing. -/
def State.queueOff (s : State) (q : Nat) : Bool := s.qState q == 0 || s.qState q == 5

/-- Cluster c is idle for a partial image with these records (R79). -/
def State.clusterIdle (s : State) (c : Nat) (part : List ImgRec) : Bool :=
  let rs := s.pitch.recs
  (s.fld Fld.HUB_PWR_STATUS_CL_SLEEP 0).testBit c ||
    ((List.range 32).all (fun m => !(regionOfCluster rs c m && s.armed m)) &&
      (List.range 64).all (fun q => !sourceIn rs c q || s.queueOff q) &&
      part.all (fun r => !(r.typ == 6 && (leAt r.body 0 1 == 7 || streamKind rs r.inst == 7)) || s.queueOff r.inst) &&
      (List.range 8).all (fun i => !s.measuring (8 * c + i)) &&
      (List.range 8).all (fun n => !(s.fld Fld.RAS_LAYER_SRC_KIND n == 1 && s.fld Fld.RAS_LAYER_SRC_UNIT n / 4 == c &&
        (s.flag Fld.RAS_LAYER_CFG_EN n || s.rasFld Fld.RAS_LAYER_CFG_EN n != 0))))

/-- The image in force: header, records and CRC. -/
def State.inForce (s : State) : Option (List Byte × List ImgRec × Word) :=
  if s.pitched then some (s.pitch.hdr, s.pitch.recs, s.reg .HUB_PITCH_CRC 0) else none

/-- The verdict on an image in this state (R74). -/
def State.judgeImage (s : State) (b : List Byte) : Verdict :=
  checkImage s.mgt.fuses s.stackFailed s.inForce (fun part => s.clusterIdle (partCluster b) part) b

/-! ### Fields fixed by the image (R61, R64) -/

/-- The largest PACE of the granted streams that satisfy `p`. -/
def paceOf (rs : List ImgRec) (d : Nat) (p : Nat → Bool) : Nat :=
  ((grantedQs rs).filter p).foldl (fun m q => max m (streamPace rs q)) d

/-- The LK fields of the clusters and their sub-blocks. -/
def State.lkClusters (s : State) (rs : List ImgRec) : State :=
  let s1 := s.each 4 fun s c => s.setFld Fld.ILV_MODE_MODE c (recFld rs 2 c 0 1 0)
  let s2 := s1.each 16 fun s g =>
    ((s.setFld Fld.TRG_GEN_SRC_SRC_CH g (recFld rs 3 g 0 1 0xFF)).setFld Fld.TRG_GEN_SRC_OUT_MASK g
      (recFld rs 3 g 8 1 0)).setReg .TRG_GEN_REGIONS g (w32 (recFld rs 3 g 4 4 0))
  let s3 := s2.each 16 fun s u =>
    s.setFld Fld.RED_PACE_PACE u (paceOf rs 1 fun q => decide (streamKind rs q ≤ 3) && streamUnit rs q == u)
  let s4 := s3.each 16 fun s p => s.setFld Fld.ACC_PLANE_SRC_CH p (recFld rs 7 (p / 4) (p % 4) 1 0xFF)
  let s5 := s4.each 32 fun s k =>
    s.setFld Fld.ACC_MASK_CFG_ABSENT k (decide (recFld rs 7 (k / 8) 4 1 0 ≤ k % 8)).toNat
  s5.each 32 fun s i =>
    ((s.setFld Fld.TIC_SRC_START i (recFld rs 8 i 0 1 0xFF)).setFld Fld.TIC_SRC_STOP i (recFld rs 8 i 1 1 0xFF)).setReg
      .TIC_PACE i (w32 (paceOf rs 0 fun q => streamKind rs q == 4 && streamUnit rs q == i))

/-- The LK fields of the regions. -/
def State.lkRegions (s : State) (rs : List ImgRec) : State :=
  s.each 32 fun s m =>
    let s1 := ((s.setFld Fld.SEG_REGION_CFG_CH_MASK m (recFld rs 5 m 0 1 0)).setFld Fld.SEG_REGION_CFG_MODE m
      (regionMode rs m)).setFld Fld.SEG_REGION_CFG_FORMAT m (regionWide rs m).toNat
    let s2 := ((s1.setReg .SEG_LEN m (w32 (regionLen rs m))).setPair .SEG_BASE_LO .SEG_BASE_HI m
      (BitVec.ofNat 64 (regionBase rs m))).setPair .SEG_SIZE_LO .SEG_SIZE_HI m (BitVec.ofNat 64 (regionSize rs m))
    (((s2.setReg .SEG_DIR m (w32 (regionDirBase rs m))).setReg .SEG_DIR_COUNT m (w32 (regionDirCount rs m))).setReg
      .SEG_RATE_MAX m (w32 (regionRate rs m))).setReg .SEG_CAP m
      (w32 (if regionDefined rs m then regionCap rs m else 0))

/-- The LK fields of the queues, with their routes (R65, R354). -/
def State.lkQueues (s : State) (rs : List ImgRec) : State :=
  s.each 64 fun s q =>
    let s1 := ((s.setFld Fld.DMA_Q_KIND_KIND q (streamKind rs q)).setFld Fld.DMA_Q_KIND_UNIT q
      (if streamKind rs q = 0 then 0xFF else streamUnit rs q)).setFld Fld.DMA_Q_KIND_VECTOR q (streamVector rs q)
    let s2 := (s1.setFld Fld.DMA_Q_DELIV_LAT_CLASS q (streamLat rs q)).setFld Fld.DMA_Q_DELIV_FULL_POLICY q
      (streamPolicy rs q)
    (s2.setFld Fld.EVT_ROUTE_KIND (304 + q) 0).setFld Fld.EVT_ROUTE_TARGET (304 + q) (streamVector rs q)

/-- Every LK field takes its value from an image. -/
def State.setLK (s : State) (h : List Byte) (rs : List ImgRec) : State :=
  let s1 := ((((s.setFld Fld.HUB_TICK_CFG_K 0 (hdrK h)).setFld Fld.HUB_HOST_BUDGET_STALL_MAX 0 (hdrStallMax h)).setFld
    Fld.HUB_HOST_BUDGET_STALL_SHARE 0 (hdrStallShare h)).setFld Fld.HUB_HOST_BUDGET_LINK_GEN 0 (hdrGen h)).setFld
    Fld.HUB_HOST_BUDGET_LINK_WIDTH 0 (hdrWidth h)
  let s2 := s1.each 8 fun s n =>
    (((s.setFld Fld.RAS_LAYER_SRC_KIND n (recFld rs 9 n 0 1 0)).setFld Fld.RAS_LAYER_SRC_UNIT n
      (recFld rs 9 n 1 1 0)).setFld Fld.RAS_LAYER_SRC_Z n (recFld rs 9 n 2 1 0)).setFld Fld.RAS_LAYER_SRC_OUTPUTS n
      (recFld rs 9 n 3 1 0)
  let s3 := s2.each 2 fun s x =>
    s.setReg .PMU_PACE x (w32 (paceOf rs 0 fun q => streamKind rs q == 6 && streamUnit rs q == x))
  ((s3.lkClusters rs).lkRegions rs).lkQueues rs

/-! ### Registers that a pitch resets (R76, R80) -/

/-- Registers of the TRG sub-block by lane, by generator and by cluster. -/
def trgLaneNames : List RegName := [.TRG_LEVEL, .TRG_HYST, .TRG_COMP_STATE]
def trgGenNames : List RegName :=
  [.TRG_GEN_SRC, .TRG_GEN_REGIONS, .TRG_GEN_CFG, .TRG_GEN_T1, .TRG_GEN_T2, .TRG_GEN_PAT, .TRG_GEN_HOLDOFF,
    .TRG_GEN_HOLDCNT, .TRG_GEN_SEQ_MIN, .TRG_GEN_SEQ_MAX, .TRG_GEN_SEQ_N, .TRG_GEN_STATUS, .TRG_GEN_CNT,
    .TRG_GEN_LOST, .TRG_GEN_TTS_LO, .TRG_GEN_TTS_HI]
/-- Registers of the reduction units. -/
def redNames : List RegName :=
  [.RED_CFG, .RED_SRC, .RED_LEN, .RED_DEC, .RED_PHASE, .RED_PACE, .RED_STATUS, .RED_SYNC_TTS_LO, .RED_SYNC_TTS_HI,
    .RED_OUT_COUNT, .RED_BAD_CNT, .RED_LAST]
/-- Registers of the accumulator by plane, by mask and by cluster. -/
def accPlaneNames : List RegName :=
  [.ACC_PLANE_SRC, .ACC_PLANE_CFG, .ACC_PLANE_X, .ACC_PLANE_XOFS, .ACC_PLANE_UI, .ACC_PLANE_SPAN, .ACC_PLANE_Y,
    .ACC_PLANE_STATUS, .ACC_PLANE_TOTAL_LO, .ACC_PLANE_TOTAL_HI, .ACC_PLANE_OUTSIDE, .ACC_PLANE_EXCL,
    .ACC_PLANE_CLR_LO, .ACC_PLANE_CLR_HI]
def accMaskNames : List RegName := [.ACC_MASK_CFG, .ACC_VIOL_CNT, .ACC_VIOL_FIRST_LO, .ACC_VIOL_FIRST_HI]
def accNames : List RegName :=
  [.ACC_CTRL, .ACC_MASK_WSEL, .ACC_SNAP_ADDR_LO, .ACC_SNAP_ADDR_HI, .ACC_SNAP_CTRL, .ACC_SNAP_STATUS,
    .ACC_SNAP_FRAME_LO, .ACC_SNAP_FRAME_HI]
/-- Registers of the counters. -/
def ticNames : List RegName :=
  [.TIC_SRC, .TIC_CFG, .TIC_N, .TIC_TIMEOUT, .TIC_WINDOW, .TIC_GATE, .TIC_HOLDOFF, .TIC_PACE, .TIC_STATUS,
    .TIC_LAST_TTS_LO, .TIC_LAST_TTS_HI, .TIC_LAST_VALUE_LO, .TIC_LAST_VALUE_HI, .TIC_LAST_COUNT, .TIC_LAST_SEQ,
    .TIC_TIMEOUT_CNT, .TIC_IGNORED_CNT]
/-- Registers of a region. -/
def segNames : List RegName :=
  [.SEG_ARM, .SEG_PRE, .SEG_REGION_CFG, .SEG_LEN, .SEG_BASE_LO, .SEG_BASE_HI, .SEG_SIZE_LO, .SEG_SIZE_HI, .SEG_DIR,
    .SEG_DIR_COUNT, .SEG_RATE_MAX, .SEG_CAP, .SEG_OPEN_COUNT, .SEG_WB_COUNT, .SEG_RELEASE, .SEG_WMARK, .SEG_STATUS,
    .SEG_OVERRUN, .SEG_MISSED, .SEG_MISS_CAUSE, .SEG_ARM_FRAME_LO, .SEG_ARM_FRAME_HI, .SEG_CONT_FILL]
/-- Registers of a queue, but for the bytes lost, which only RST_N clears (R346). -/
def queueNames : List RegName :=
  [.DMA_Q_KIND, .DMA_Q_CTRL, .DMA_Q_ABORT, .DMA_Q_CFG, .DMA_Q_STATUS, .DMA_Q_DELIV, .DMA_Q_LATE, .DMA_Q_RING_LO,
    .DMA_Q_RING_HI, .DMA_Q_CPL_LO, .DMA_Q_CPL_HI, .DMA_Q_RING_SIZE, .DMA_Q_TAIL, .DMA_Q_HEAD, .DMA_Q_CPL_WR,
    .DMA_Q_CPL_RD, .DMA_Q_WR_OFS, .DMA_Q_STAGED]
/-- Registers of a Lantern layer. -/
def layerNames : List RegName :=
  [.RAS_LAYER_SRC, .RAS_LAYER_CFG, .RAS_LAYER_POS, .RAS_LAYER_BUF, .RAS_LAYER_URG, .RAS_LAYER_STATUS]

/-- Registers return to their reset values, and their pending SH values are discarded. -/
def State.pitchReset (s : State) (names : List RegName) (p : Nat → Bool) : State :=
  let s1 := s.resetRegs names p
  { s1 with tick := { s1.tick with sh := s1.tick.sh.filter fun w => !(names.contains w.reg.n && p w.reg.i) } }

/-- The TRG, RED, ACC and TIC sub-blocks of a cluster return to reset, and with them what stands behind their registers:
planes and bitmaps are lost (R266), and the comparators take their state from the input alone (R183). -/
def State.pitchCluster (s : State) (c : Nat) : State :=
  let four (i : Nat) : Bool := i / 4 == c
  let eight (i : Nat) : Bool := i / 8 == c
  let s1 := ((((s.pitchReset (trgLaneNames ++ trgGenNames ++ redNames ++ accPlaneNames) four).pitchReset
    (accMaskNames ++ ticNames) eight).pitchReset (.TRG_FORCE :: accNames) (· == c)).accLose c)
  { s1.each 4 (fun s i => s.freshComp (4 * c + i)) with
    gens := s1.gens.filter fun e => !four e.1,
    red := s1.red.filter fun e => !four e.1,
    planes := s1.planes.filter fun e => !four e.1,
    tic := s1.tic.filter fun e => !eight e.1,
    maskFire := s1.maskFire.filter fun e => !eight e.1,
    snaps := s1.snaps.filter fun e => e.1 != c,
    xtrigCycle := s1.xtrigCycle.filter fun e => e.1 != c }

/-- The registers of the regions that `p` picks return to reset, and those regions hold nothing. -/
def State.pitchRegions (s : State) (p : Nat → Bool) : State :=
  let s1 := s.pitchReset segNames p
  { s1 with regions := s1.regions.filter fun e => !p e.1 }

/-- The registers of the queues that `p` picks return to reset, and those queues hold nothing: OFF, or ABSENT where the
image has no queue of that number (Table HST-5). -/
def State.pitchQueues (s : State) (rs : List ImgRec) (p : Nat → Bool) : State :=
  let s1 := s.pitchReset queueNames p
  let s2 := { s1 with dma := { s1.dma with
    queues := s1.dma.queues.filter fun e => !p e.1, inbound := s1.dma.inbound.filter fun d => !p d.q } }
  (s2.each 64 fun s q => if p q then s.setQState q (if streamKind rs q = 0 then 5 else 0) else s).syncInflight

/-- The Lantern layers return to reset (R328). -/
def State.pitchLayers (s : State) : State :=
  (s.pitchReset layerNames fun _ => true).modRas fun r =>
    { r with now := r.now.filter fun e => !layerNames.contains e.1.n, dry := [], named := [], namedNow := [] }

/-! ### Lanes and channels (R146, R157, R158, R171) -/

/-- A lane takes its place in its group, under FREEZE of the group's first lane (R179; log 101): one that enters a ×2 or
×4 group that its coefficients do not belong to becomes CAL_STALE, and its dwell restarts. -/
def State.pitchLane (s0 : State) (ln : Nat) : State :=
  let s := s0.freezeLane ln (s0.flag Fld.ILV_CAL_CTRL_FREEZE (s0.firstLane ln))
  let f := s.ilv ln
  if f = 1 ∨ (s.lane ln).group = (f, ln % f) then s
  else
    ((s.modLane ln fun l => { l with group := (f, ln % f) }).makeStale ln).modLane ln fun l =>
      { l with restart := l.restart || l.dwell.isSome }

/-- A channel is connected or disconnected; a reconnected one starts a settle span of 300 ns. -/
def State.pitchChan (s : State) (ch : Nat) : State :=
  let was := s.flag Fld.AFE_STATUS_DISCONNECTED ch
  let off := s.chanOff ch
  let s1 := s.setFld Fld.AFE_STATUS_DISCONNECTED ch off.toNat
  if off then (s1.setFld Fld.AFE_OVR_CNT_COUNT ch 0).modAfe ch fun a => { a with exc := none, hold := none }
  else if was then s1.settle ch (ns 300) else s1

/-! ### Gates (R106) -/

/-- GATE.INIT sets each node at the boot pitch; the nodes of a die that is gated stay closed (R414). -/
def State.bootGates (s : State) : State :=
  s.each 34 fun s n =>
    if recFld s.pitch.recs 0xA n 2 1 1 = 0 then s.stopNode n
    else if (s.pwr.closed.contains n) then s else s.startNode n

/-- A routable node that is open under a closed new parent closes. -/
def State.routeGates (s : State) : State :=
  s.each 34 fun s n =>
    if 29 ≤ n ∧ s.gateOpen n ∧ !s.gateOpen (s.parentOf n) then (s.stopNode n).raise 7 2 n else s

/-! ### Applying (R76, R77, R80) -/

/-- What an image reports of itself (Table PIT-8). -/
def State.pitchReport (s : State) (b : List Byte) : State :=
  let signed := sigOff b != 0
  let s1 := (((s.setReg .HUB_PITCH_ID 0 (w32 (leAt b 0x10 4))).setReg .HUB_PITCH_VER 0 (w32 (leAt b 0x14 4))).setReg
    .HUB_PITCH_CRC 0 (imageCrc b)).setFld Fld.HUB_PITCH_PARTIAL_CL_MASK 0 0
  (s1.setFld Fld.HUB_PITCH_SIG_SIGNED 0 signed.toNat).setFld Fld.HUB_PITCH_SIG_KEY_INDEX 0
    (if signed then leAt b (sigOff b + 2) 2 else 0)

/-- What follows the new settings: generator, accumulator and counter status, and the home of each reduction unit. -/
def State.pitchNotes (s : State) (c : Nat) : State :=
  let s1 := (List.range 4).foldl (fun s i => s.setFld Fld.RED_SRC_CH (4 * c + i) (s.redHome (4 * c + i))) s
  let s2 := (s1.noteGens c).noteAcc c
  (List.range 8).foldl (fun s i => s.ticNote (8 * c + i)) s2

/-- MEM_CFG.ECC takes effect (R231). -/
def State.eccNow (s : State) : State :=
  s.each 2 fun s e => s.setFld Fld.MEM_STATUS_ECC_NOW e (s.fld Fld.MEM_CFG_ECC e)

/-- A full image takes force: T2 of R76, or the pitch of an UNPITCHED device, `boot` from flash. -/
def State.applyFull (s : State) (a : Accepted) (boot : Bool) : State :=
  let first := !s.pitched
  let oldK := s.k
  let s1 := (((s.each 4 fun s c => s.pitchCluster c).pitchRegions fun _ => true).pitchQueues a.recs fun _ => true).pitchLayers
  let s2 := s1.modPitch fun _ => { Pitch.init with hdr := a.hdr, recs := a.recs, bytes := a.bytes }
  let s3 := ((s2.setLK a.hdr a.recs).pitchReport a.bytes).setFld Fld.HUB_PITCH_STATUS_STATE 0 3
  let s4 := (s3.each 4 fun s c => s.pitchNotes c).eccNow
  let s5 := (s4.each 16 fun s n => (s.pitchLane n).pitchChan n).each 2 fun s e => s.limitRate e
  let s6 := if boot then s5.bootGates else s5.routeGates
  let s7 :=
    if first then
      (s6.each 16 fun s n => s.modLane n fun l => { l with restart := l.restart || l.dwell.isSome }).each 2 fun s e =>
        if s.spllLock e then s.anchorLater e s.time false else s
    else s6
  let s8 := if s7.k ≠ oldK ∧ s7.fld Fld.TLK_STATUS_K_LINK 0 ≠ 0 then s7.noteK (s7.fld Fld.TLK_STATUS_K_LINK 0) else s7
  s8.raise 461 1 0

/-- A partial image takes force (R80): the sub-blocks of its cluster and the regions and queues that it redefines return
to reset. -/
def State.applyPartial (s : State) (a : Accepted) (c : Nat) : State :=
  let rs := recMerge s.pitch.recs a.recs
  let names (t i : Nat) : Bool := a.recs.any fun r => r.typ == t && r.inst == i
  let s1 := ((s.pitchCluster c).pitchRegions (names 5)).pitchQueues rs (names 6)
  let s2 := s1.modPitch fun p => { p with recs := rs, accepted := none }
  let s3 := (s2.setLK s.pitch.hdr rs).setReg .HUB_PITCH_CRC 0 (imageCrc (combined s.pitch.hdr rs))
  let s4 := (s3.setFld Fld.HUB_PITCH_PARTIAL_CL_MASK 0 (s3.fld Fld.HUB_PITCH_PARTIAL_CL_MASK 0 ||| 2 ^ c)).pitchNotes c
  let s5 := (List.range 4).foldl (fun s i => (s.pitchLane (4 * c + i)).pitchChan (4 * c + i)) s4
  s5.raise 461 2 (s5.fld Fld.HUB_PITCH_PARTIAL_CL_MASK 0)

/-- A refusal is reported: RESULT, DETAIL and EV462 (R81). -/
def State.pitchRefuse (s : State) (code detail : Nat) : State :=
  ((s.setFld Fld.HUB_PITCH_STATUS_RESULT 0 code).setFld Fld.HUB_PITCH_STATUS_DETAIL 0 detail).raise 462 1 code

/-- Every PENDING slot becomes MISSED (R76 item 2); a command that waits behind one is dropped with it. -/
def State.missSlots (s : State) : State :=
  s.each 32 fun s i =>
    if s.fld Fld.HUB_SCHED_STATUS_STATUS i = 1 then
      (({ s with tick := { s.tick with caps := tput [] s.tick.caps i [] } }.setFld Fld.HUB_SCHED_STATUS_STATUS i 4).setFld
        Fld.HUB_SCHED_STATUS_LAST i 4).raise 11 1 i
    else s

/-- T1 of a full pitch, at the tick that begins `s.frame` (R76 item 2). -/
def State.pitchT1 (s : State) : State :=
  let s1 := s.each 32 fun s m => s.disarm m
  let s2 := (s1.streamQs).foldl (fun s q => s.modQueue q fun x => { x with accepting := false }) s1
  ((s2.missSlots).ticStopAll.modPitch fun p => { p with t1 := some s.frame }).setFld Fld.HUB_PITCH_STATUS_STATE 0 2

/-- Every granted queue is empty. -/
def State.drainedAll (s : State) : Bool := s.streamQs.all fun q => (s.queue q).staged.isEmpty

/-- The drain ends at its limit: what is left ends with ABORTED (R76 item 4). -/
def State.pitchCut (s : State) : State :=
  (List.range 64).foldl (fun s q =>
    let x := s.queue q
    if s.isStream q && !x.staged.isEmpty then
      ((s.abortRecord q).modQueue q fun x => { x with staged := [], gap := none }).syncStaged q
    else if !x.xfers.isEmpty then ((s.abortXfers q).modQueue q fun x => { x with xfers := [] }).syncInflight
    else s) s

/-- What a tick does for a pitch under way, before SH values commit: T2, the end of the drain, or a partial apply. -/
def State.pitchTick (s : State) : State :=
  match s.pitch.accepted with
  | none => s
  | some a =>
    match s.pitch.t1 with
    | some f =>
      if s.pitch.drained || s.drainedAll then (s.pitchCut).applyFull a false
      else if 64 ≤ (s.frame - f).toNat then (s.pitchCut).modPitch fun p => { p with drained := true }
      else s
    | none =>
      match a.cluster with
      | some c =>
        if tuLe (tuAdd a.at_ (ns 64)) s.time then
          if s.clusterIdle c a.recs then s.applyPartial a c
          else (s.modPitch fun p => { p with accepted := none }).pitchRefuse 0x15 0xFFFF
        else s
      | none => s

/-- T1, once SH values have committed (R76 item 2). -/
def State.pitchBegin (s : State) : State :=
  match s.pitch.accepted with
  | some a =>
    if a.cluster.isNone && s.pitch.t1.isNone && tuLe (tuAdd a.at_ (ns 64)) s.time then s.pitchT1 else s
  | none => s

/-- A full image accepted while UNPITCHED applies at the first internal commit instant at least 64 ns later. -/
def State.pitchUnpitched (s : State) : State :=
  match s.pitch.accepted with
  | some a => if tuLe (tuAdd a.at_ (ns 64)) s.time then s.applyFull a false else s
  | none => s

/-! ### Mailbox commands (R73 to R75, R390) -/

/-- An apply is in progress, or the image it will apply has been accepted. -/
def State.pitchBusy (s : State) : Bool := s.pitch.accepted.isSome || s.pitch.t1.isSome

/-- BUSY (R73, R74, R390): nothing but the report changes. -/
def pitchBusyEnd (s : State) : MbEnd :=
  ⟨(s.setFld Fld.HUB_PITCH_STATUS_RESULT 0 0x17).setFld Fld.HUB_PITCH_STATUS_DETAIL 0 0xFFFF, mbBusy, [0x17#32]⟩

/-- A refused pitch command: STATUS PITCH, the code and the detail. -/
def pitchFail (s : State) (code detail : Nat) : MbEnd :=
  ⟨s.pitchRefuse code detail, 0x40, [w32 (code + detail * 65536)]⟩

/-- MB_PITCH_LOAD: `img` is what the read of host memory returned. STATE leaves LOADING (Table PIT-8). -/
def pitchLoad (img : Option (List Byte)) (s0 : State) (args : List Word) : MbEnd :=
  let s := s0.pitchShown
  let len := argAt args 2
  if s.pitchBusy then pitchBusyEnd s
  else if len < 64 ∨ 1048576 < len then pitchFail s 3 0xFFFF
  else
    match img with
    | none => pitchFail s 0x16 0xFFFF
    | some x =>
      let b := x.take len
      match s.judgeImage b with
      | .refuse code detail => pitchFail s code detail
      | .accept h rs =>
        let s1 := s.setFld Fld.HUB_PITCH_STATUS_RESULT 0 0
        if argAt args 3 % 2 = 1 then ⟨s1, mbOk, []⟩
        else
          let a : Accepted :=
            ⟨h, rs, b.take (imgLen b), imageCrc b, if isPartial b then some (partCluster b) else none, s.time⟩
          ⟨s1.modPitch fun p => { p with accepted := some a }, mbOk, []⟩

/-- MB_PITCH_LOAD (R74). -/
def execMbPitchLoad (t : Tu) (tag : Byte) (img : Option (List Byte)) (s : State) : Host.Outcome State Fault Refusal :=
  s.mbWhen t tag 0x10 (pitchLoad img)

/-- DRY_RUN: MB_PITCH_LOAD with ARG3 bit 0 (R74). -/
def execDryRun (t : Tu) (tag : Byte) (img : Option (List Byte)) (s : State) : Host.Outcome State Fault Refusal :=
  if argAt s.mbArgs 3 % 2 = 1 then s.mbWhen t tag 0x10 (pitchLoad img) else s.whenHost t fun s => s

/-- The bytes that MB_PITCH_STORE writes: the full image's own, or the combined image unsigned (R75). -/
def State.storedImage (s : State) : List Byte :=
  if s.flag Fld.HUB_PITCH_PARTIAL_CL_MASK 0 then combined s.pitch.hdr s.pitch.recs else s.pitch.bytes

/-- A slot after a failed write: whatever bytes (log 2). -/
def State.openBytes (s : State) : List Byte :=
  (List.range (s.freeBelow 1048577)).map fun i => BitVec.ofNat 8 (Config.freeNat (s.free + 1 + i))

/-- The state with a pitch slot of flash changed. -/
def State.setSlot (s : State) (k : Nat) (b : List Byte) : State :=
  s.modMgt fun m => { m with flash := { m.flash with images := tput [] m.flash.images k b } }

/-- MB_PITCH_STORE (R75). -/
def pitchStore (flashOk : Bool) (s : State) (args : List Word) : MbEnd :=
  let k := argAt args 0
  if s.pitchBusy then pitchBusyEnd s
  else if 1 < k then pitchFail s 9 0xFFFF
  else if !s.pitched then pitchFail s 0x14 0xFFFF
  else if s.fuse 7 % 2 = 1 ∧ sigOff s.storedImage = 0 then pitchFail s 5 0xFFFF
  else if flashOk then
    ⟨(s.setSlot k s.storedImage).setFld Fld.HUB_PITCH_STATUS_RESULT 0 0, mbOk, []⟩
  else
    let s1 := { (s.setSlot k s.openBytes) with free := s.free + 1048577 }
    pitchFail s1.flashFail 0x18 0xFFFF

/-- MB_PITCH_STORE. -/
def execMbPitchStore (t : Tu) (tag : Byte) (flashOk : Bool) (s : State) : Host.Outcome State Fault Refusal :=
  s.mbWhen t tag 0x11 (pitchStore flashOk)

/-! ### The boot pitch (R72, R411) -/

/-- The bytes of a slot; an erased slot reads 0xFF. -/
def State.slotBytes (s : State) (k : Nat) : List Byte :=
  let b := tget [] s.mgt.flash.images k
  if b.isEmpty then List.replicate 64 0xFF else b

/-- A slot is tried: the state, and whether its image was granted. -/
def State.trySlot (s : State) (k : Nat) : State × Bool :=
  let b := s.slotBytes k
  match s.judgeImage b with
  | .refuse code detail => (s.pitchRefuse code detail, false)
  | .accept h rs =>
    ((s.setFld Fld.HUB_PITCH_STATUS_RESULT 0 0).applyFull ⟨h, rs, b.take (imgLen b), imageCrc b, none, s.time⟩ true, true)

/-- Boot reaches READY (Table PWR-6). -/
def State.bootReady (s : State) : State :=
  let ms := (s.time - s.pwr.released).toNat / ns 1000000
  (s.setFld Fld.HUB_BOOT_STATUS_PHASE 0 4).setFld Fld.HUB_BOOT_STATUS_BOOT_MS 0 (min ms 65535)

/-- BOOT_PITCH: slot 0, then slot 1. -/
def execBootPitch (t : Tu) (s : State) : Host.Outcome State Fault Refusal :=
  s.when t fun s =>
    if s.fld Fld.HUB_BOOT_STATUS_PHASE 0 = 3 ∧ s.mgt.run = 1 ∧ !s.pitched then
      let a := s.trySlot 0
      (if a.2 then a.1 else (a.1.trySlot 1).1).bootReady
    else s

end Sys2Proof.Machine
end

