-- ==== Sys2Proof/Machine/Pwr.lean ====
section
/-! DEFINITION. Supplies and resets (R406 to R410), stack training (R414), the power states (R416 to R420) and thermal
protection (R421, R422). -/

namespace Sys2Proof.Machine

/-- The state with the supplies and protection changed. -/
def State.modPwr (s : State) (f : Pwr → Pwr) : State := { s with pwr := f s.pwr }

/-! ### Resets (R408, R409) -/

/-- HUB_RESET_CAUSE of a power-on, RST_N, the supply monitor and a thermal trip (Table PWR-6). -/
def causePor : Nat := 1
def causeRstN : Nat := 2
def causeBrownout : Nat := 4
def causeTrip : Nat := 8

/-- A whole-device reset: flash and fuses keep their contents (R409), fuses are sampled, and everything else is as after
reset. Waiting commands, what has left the device, and levels of pins are no state that it clears; what it drives is as
R409 says. -/
def State.wholeReset (s : State) (cause : Nat) : State :=
  let base : State :=
    { State.reset with
      regs := [], pending := s.pending, out := s.out, free := s.free,
      mgt := { Mgt.init with flash := s.mgt.flash, fuses := s.mgt.fuses, commits := s.mgt.commits },
      pwr := { Pwr.init with on := s.pwr.on, rstLow := s.pwr.rstLow, perstLow := s.pwr.perstLow },
      dia := { Dia.init with jtag := s.dia.jtag } }
  (((base.showFuses).setReg .HUB_RESET_CAUSE 0 (w32 cause)).setFld Fld.GLN_STATUS_PRESENT 0
    (s.fld Fld.GLN_STATUS_PRESENT 0)).emit (.pinsReset s.time)

/-- POWER_ON: all rails become valid; RST_N is still low (R406, R408). -/
def execPowerOn (s : State) : Host.Outcome State Fault Refusal :=
  if s.pwr.on then .next s
  else .next ((s.modPwr fun p => { p with on := true, rstLow := true }).wholeReset causePor)

/-- POWER_OFF: everything but flash and fuses is lost (R416). -/
def execPowerOff (s : State) : Host.Outcome State Fault Refusal :=
  .next ((s.modPwr fun p => { p with on := false, rstLow := false }).wholeReset 0)

/-- RST_N_ASSERT (R408, R409): it ends a thermal trip (R422). -/
def execRstNAssert (s : State) : Host.Outcome State Fault Refusal :=
  if s.pwr.on && !s.pwr.rstLow then .next ((s.modPwr fun p => { p with rstLow := true }).wholeReset causeRstN)
  else .next s

/-- RESET_RELEASE (R411): t0 of the boot. -/
def execResetRelease (s : State) : Host.Outcome State Fault Refusal :=
  if s.pwr.on && s.pwr.rstLow then .next (s.modPwr fun p => { p with rstLow := false, released := s.time }) else .next s

/-- BROWNOUT (R407). A device stopped by a thermal trip stays stopped until RST_N. -/
def execBrownout (s : State) : Host.Outcome State Fault Refusal :=
  if s.pwr.on && !s.pwr.tripped then .next (s.wholeReset causeBrownout) else .next s

/-- PERST_N_RELEASE (R410): the endpoint leaves reset once both resets are high. -/
def execPerstNRelease (t : Tu) (s : State) : Host.Outcome State Fault Refusal :=
  .next ((if s.alive then s.at t else s).modPwr fun p => { p with perstLow := false })

/-! ### Nodes of a unit, in closing order (R418) -/

/-- Lanes of a cluster, highest first, then the cluster. -/
def clusterNodes (c : Nat) : List Nat := [7 + 4 * c + 3, 7 + 4 * c + 2, 7 + 4 * c + 1, 7 + 4 * c, 3 + c]

/-- The clusters of a die, its memory controller, then the die. -/
def dieNodes (e : Nat) : List Nat := clusterNodes (2 * e + 1) ++ clusterNodes (2 * e) ++ [23 + e, 1 + e]

/-- Both dies, then nodes 33 to 25. -/
def standbyNodes : List Nat := dieNodes 1 ++ dieNodes 0 ++ [33, 32, 31, 30, 29, 28, 27, 26, 25]

/-- Nodes close in the order given; the open ones among them are the ones that a wake opens again. -/
def State.closeAll (s : State) (ns : List Nat) : State :=
  ns.foldl (fun s n =>
    if s.gateOpen n then (s.stopNode n).modPwr fun p => { p with closed := n :: p.closed.filter (· ≠ n) } else s) s

/-- Nodes open in the order given. -/
def State.openAll (s : State) (ns : List Nat) : State :=
  ns.foldl (fun s n => (s.startNode n).modPwr fun p => { p with closed := p.closed.filter (· ≠ n) }) s

/-- Those of the nodes that a power sequence closed. -/
def State.closedOf (s : State) (ns : List Nat) : List Nat := ns.filter fun n => s.pwr.closed.contains n

/-! ### Sleep and wake -/

/-- The state with bits of HUB_PWR_STATUS.CL_SLEEP set or cleared. -/
def State.setClSleep (s : State) (mask : Nat) (b : Bool) : State :=
  let x := s.fld Fld.HUB_PWR_STATUS_CL_SLEEP 0
  s.setFld Fld.HUB_PWR_STATUS_CL_SLEEP 0 (if b then x ||| mask else x &&& (15 - mask))

/-- The state with a bit of HUB_PWR_STATUS.ENG_SLEEP set or cleared. -/
def State.setEngSleep (s : State) (e : Nat) (b : Bool) : State :=
  let x := s.fld Fld.HUB_PWR_STATUS_ENG_SLEEP 0
  s.setFld Fld.HUB_PWR_STATUS_ENG_SLEEP 0 (if b then x ||| 2 ^ e else x &&& (3 - 2 ^ e))

/-- Cluster c sleeps (Table PWR-4). -/
def State.clusterDown (s : State) (c : Nat) : State := (s.closeAll (clusterNodes c)).setClSleep (2 ^ c) true

/-- The sample PLL of a sleeping die has stopped: no lock, no alignment, samples flagged until it settles again. -/
def State.spllStop (s : State) (e : Nat) : State :=
  ((((((s.rateHold e).modSpll e fun p => { p with lockAt := none, bad := some (p.bad.getD s.time) }).unalign e).setFld
    Fld.PLL_SPLL_STATUS_LOCK e 0).setFld Fld.PLL_SPLL_STATUS_SETTLED e 0).setFld Fld.PLL_SPLL_STATUS_STATE e 3)

/-- Engine die e sleeps with its clusters; the stack goes into self-refresh at its present temperature (Table PWR-4,
Table PWR-5). -/
def State.dieDown (s : State) (e : Nat) : State :=
  let s1 := (((s.closeAll (dieNodes e)).setClSleep (3 * 4 ^ e) true).setEngSleep e true).spllStop e
  s1.modPwr fun p => { p with entryTemp := tput 0 p.entryTemp e (s.sense (3 + e)) }

/-- The hub enters STANDBY (Table PWR-4, R418): the JPLL's LOCK clears as at any entry to coast (R118). -/
def State.standbyDown (s : State) : State :=
  let s1 := [1, 0].foldl (fun s e => if (s.fld Fld.HUB_PWR_STATUS_ENG_SLEEP 0).testBit e then s else s.dieDown e) s
  let s2 := (s1.closeAll standbyNodes).linkDown
  let s3 := ((((s2.unqualify 0).unqualify 1).jpllUnlock).setActive 2).relockIdle
  let s4 := (((s3.setFld Fld.PLL_APLL_STATUS_LOCK 0 0).setFld
    Fld.TLK_STATUS_BLOCK_LOCK 0 0).setMux 0 3).setFld Fld.HUB_PWR_STATUS_DEVICE 0 1
  { s4 with
    pll := { s4.pll with feedsLow := true, apllLockAt := none },
    clk := { s4.clk with noSrcFrom := none },
    tlk := { s4.tlk with echoOpen := false, run := 0 },
    pwr := { s4.pwr with entered := s4.time } }

/-- Cluster c wakes (R419). -/
def State.clusterUp (s : State) (c : Nat) : State :=
  let lanes := (clusterNodes c).reverse.tail
  (s.setClSleep (2 ^ c) false).openAll ((3 + c) :: s.closedOf lanes)

/-- Die e wakes, its clusters stay asleep (R418). A stack whose temperature has moved by more than 10 °C is retrained
(Table PWR-5), which raises EV471. -/
def State.dieUp (s : State) (e : Nat) : State :=
  let moved := (s.sense (3 + e) - tget 0 s.pwr.entryTemp e).natAbs
  let s1 := ((s.setEngSleep e false).modSpll e fun p => { p with tryAt := s.time, countAt := s.time }).openAll [1 + e, 23 + e]
  if 100 < moved then s1.raise 471 1 e else s1

/-- The hub leaves STANDBY: local time resumes from its value at entry, advanced by the measured span; both dies stay
asleep (R418, R420). -/
def State.standbyUp (s : State) (span : Tu) : State :=
  let s1 := s.moveTime (tuDiff s.time (s.pwr.entered + span))
  let s2 := (s1.setFld Fld.HUB_PWR_STATUS_DEVICE 0 0).setFld Fld.TLK_STATUS_EPOCH_VALID 0 0
  let s3 := { s2 with
    clk := { s2.clk with noSrcFrom := some s2.time, qualAt := s2.time, linkBroke := true },
    pll := { s2.pll with jpllFrom := s2.time, apllFrom := s2.time } }
  s3.openAll (s3.closedOf [25, 26, 27, 28, 29, 30, 31, 32, 33])

/-! ### Requests (R417) -/

/-- Basecamp does not run, or a pitch is being loaded or applied: BUSY. -/
def State.pwrBusy (s : State) : Bool := s.mgt.run != 1 || s.fld Fld.HUB_PITCH_STATUS_STATE 0 == 1 ||
  s.fld Fld.HUB_PITCH_STATUS_STATE 0 == 2

/-- The target is in the requested state already, or cannot come to it: REFUSED_STATE. -/
def State.pwrWrong (s : State) (op x : Nat) : Bool :=
  match op with
  | 1 => s.standby || (s.fld Fld.HUB_PWR_STATUS_CL_SLEEP 0).testBit x
  | 2 => s.standby || !(s.fld Fld.HUB_PWR_STATUS_CL_SLEEP 0).testBit x || (s.fld Fld.HUB_PWR_STATUS_ENG_SLEEP 0).testBit (x / 2)
  | 3 => s.standby || (s.fld Fld.HUB_PWR_STATUS_ENG_SLEEP 0).testBit x
  | 4 => s.standby || !(s.fld Fld.HUB_PWR_STATUS_ENG_SLEEP 0).testBit x || s.stackFailed x
  | 5 => s.standby
  | _ => !s.standby

/-- A wake of a scope in thermal hold: THERMAL (R421). -/
def State.pwrHeld (s : State) (op x : Nat) : Bool :=
  let hold (z : Nat) : Bool := (s.fld Fld.HUB_PWR_STATUS_THERM_HOLD 0).testBit z
  match op with
  | 2 => hold (x / 2)
  | 4 => hold x
  | 6 => hold 2
  | _ => false

/-- The open nodes that a request would close. -/
def State.pwrNodes (s : State) (op x : Nat) : List Nat :=
  (match op with
    | 1 => clusterNodes x
    | 3 => dieNodes x
    | 5 => standbyNodes
    | _ => []).filter fun n => s.gateOpen n

/-- RESULT of a request that is refused at once, 0 where it is admitted (R417). -/
def State.pwrRefused (s : State) (r : PwrReq) : Nat :=
  if s.pwrBusy then 4
  else if s.pwrWrong r.op r.target then 3
  else if s.pwrHeld r.op r.target then 6
  else if (s.pwrNodes r.op r.target).any fun n => s.inUse n then 2
  else 0

/-- The transition itself (R418). -/
def State.pwrDo (s : State) (r : PwrReq) : State :=
  match r.op with
  | 1 => s.clusterDown r.target
  | 2 => s.clusterUp r.target
  | 3 => s.dieDown r.target
  | 4 => s.dieUp r.target
  | 5 => s.standbyDown
  | _ => s.standbyUp r.span

/-- HUB_PWR_STATUS.RESULT. -/
def State.pwrResult (s : State) (code : Nat) : State := s.setFld Fld.HUB_PWR_STATUS_RESULT 0 code

/-- The request is carried out. A sequence is cut short where a block does not acknowledge, the nodes already closed being
opened again (R108, R417); a block without a clock never acknowledges (R105). -/
def State.pwrRun (s : State) (r : PwrReq) : State :=
  let c := s.pwrRefused r
  if c ≠ 0 then s.pwrResult c
  else
    let act := s.pwrNodes r.op r.target
    let fails (n : Nat) : Bool := s.forceHonoured n || r.busy == some n
    if act.any fails then
      let before := act.takeWhile fun n => !fails n
      (((s.closeAll before).openAll before.reverse).pwrResult 5).raise0 6
    else (s.pwrDo r).pwrResult 0

/-- A request: refused at once, or carried out through the gate controller after the gate request that is pending there
(R107, R417). -/
def State.pwrAsk (s : State) (r : PwrReq) : State :=
  let s1 := s.setFld Fld.HUB_PWR_STATUS_LAST_OP 0 r.op
  if s1.pwr.wait.isSome then s1.pwrResult 4
  else if s1.clk.gate.isSome && s1.pwrRefused r == 0 then (s1.modPwr fun p => { p with wait := some r }).pwrResult 1
  else s1.pwrRun r

/-- The gate controller is free: the power request that waits is carried out. -/
def State.pwrNext (s : State) : State :=
  match s.pwr.wait with
  | some r => if s.clk.gate.isNone then (s.modPwr fun p => { p with wait := none }).pwrRun r else s
  | none => s

/-- A write of HUB_PWR_REQ; every block acknowledges in time. -/
def State.writePwrReq (s : State) (v : Word) : State :=
  let op := getBits v 0 3
  if 1 ≤ op ∧ op ≤ 6 then
    s.pwrAsk ⟨op, if op = 3 ∨ op = 4 then getBits v 3 2 % 2 else getBits v 3 2, none, s.time - s.pwr.entered⟩
  else s

/-- CLUSTER_SLEEP (R417, R418). -/
def execClusterSleep (t : Tu) (c : Fin 4) (busy : Option (Fin 34)) (s : State) : Host.Outcome State Fault Refusal :=
  s.whenHost t fun s => s.pwrAsk ⟨1, c, busy.map Fin.val, 0⟩

/-- CLUSTER_WAKE (R417 to R419). -/
def execClusterWake (t : Tu) (c : Fin 4) (s : State) : Host.Outcome State Fault Refusal :=
  s.whenHost t fun s => s.pwrAsk ⟨2, c, none, 0⟩

/-- ENGINE_SLEEP (R417, R418). -/
def execEngineSleep (t : Tu) (e : Fin 2) (busy : Option (Fin 34)) (s : State) : Host.Outcome State Fault Refusal :=
  s.whenHost t fun s => s.pwrAsk ⟨3, e, busy.map Fin.val, 0⟩

/-- ENGINE_WAKE (R417 to R419). -/
def execEngineWake (t : Tu) (e : Fin 2) (s : State) : Host.Outcome State Fault Refusal :=
  s.whenHost t fun s => s.pwrAsk ⟨4, e, none, 0⟩

/-- STANDBY (R417, R418). -/
def execStandby (t : Tu) (busy : Option (Fin 34)) (s : State) : Host.Outcome State Fault Refusal :=
  s.whenHost t fun s => s.pwrAsk ⟨5, 0, busy.map Fin.val, 0⟩

/-- EXIT_STANDBY (R417, R418, R420). -/
def execExitStandby (t : Tu) (span : Tu) (s : State) : Host.Outcome State Fault Refusal :=
  s.whenHost t fun s => s.pwrAsk ⟨6, 0, none, span⟩

/-- A pending gate request is over: the node closes, or stays open with BUSY; a power request that came after it follows. -/
def State.gateOver (s : State) (g : GateReq) (acked : Bool) : State :=
  let s1 := { s with clk := { s.clk with gate := none } }
  (if acked then (s1.stopNode g.node).gateResult g.node 0 else (s1.gateResult g.node 2).raise0 6).pwrNext

/-- GATE_QUIESCE_ACK: the block acknowledges within the 4 µs, after which the request has been withdrawn; a block without a
running clock cannot (R105, R108). -/
def execGateQuiesceAck (t : Tu) (s : State) : Host.Outcome State Fault Refusal :=
  s.when t fun s =>
    match s.clk.gate with
    | some g => if s.forceHonoured g.node || !tuLe s.time (tuAdd g.at_ (ns 4000)) then s else s.gateOver g true
    | none => s

/-- GATE_BUSY: no acknowledge by 4 µs after the request (R108 item 4). -/
def execGateBusy (t : Tu) (s : State) : Host.Outcome State Fault Refusal :=
  s.when t fun s =>
    match s.clk.gate with
    | some g => if tuLe (tuAdd g.at_ (ns 4000)) s.time then s.gateOver g false else s
    | none => s

/-! ### Stack training (R411, R414, R219) -/

/-- The training of stack e has an outcome. -/
def State.trained (s : State) (e : Nat) : Bool :=
  if e = 0 then s.flag Fld.HUB_BOOT_STATUS_M0_OK 0 || s.flag Fld.HUB_BOOT_STATUS_M0_FAIL 0
  else s.flag Fld.HUB_BOOT_STATUS_M1_OK 0 || s.flag Fld.HUB_BOOT_STATUS_M1_FAIL 0

/-- Directory and mirror of die e read zero (R219). -/
def State.zeroDir (s : State) (e : Nat) : State :=
  { s with
    dir := s.dir.filter fun x => x.1 / 65536 != e,
    dirSeq := s.dirSeq.filter fun x => x.1 / 65536 != e,
    mem := s.mem.filter fun x => !(inMirror x.1 && x.1 / stackSpan == e) }

/-- Stack e is trained, or has failed both attempts; after both stacks, PITCHING begins. -/
def State.stackTrained (s : State) (e : Nat) (ok : Bool) : State :=
  let s1 :=
    if ok then (s.setFld (if e = 0 then Fld.HUB_BOOT_STATUS_M0_OK else Fld.HUB_BOOT_STATUS_M1_OK) 0 1).zeroDir e
    else
      ((s.setFld (if e = 0 then Fld.HUB_BOOT_STATUS_M0_FAIL else Fld.HUB_BOOT_STATUS_M1_FAIL) 0 1).dieDown e).raise
        471 1 e
  if s1.trained 0 && s1.trained 1 then s1.setFld Fld.HUB_BOOT_STATUS_PHASE 0 3 else s1

/-- STACK_TRAINING_DONE. -/
def execStackTrainingDone (t : Tu) (e : Fin 2) (ok : Bool) (s : State) : Host.Outcome State Fault Refusal :=
  s.when t fun s =>
    if s.fld Fld.HUB_BOOT_STATUS_PHASE 0 = 2 ∧ !s.trained e then s.stackTrained e ok else s

/-! ### Thermal hold and trip (R421, R422) -/

/-- The scope of sensor n: die 0, die 1, or 2 for the device. -/
def scopeOf (n : Nat) : Nat := if n = 0 then 2 else (n - 1) % 2

/-- CRIT of a temperature sensor, signed 0.1 °C. -/
def State.critOf (s : State) (n : Nat) : Int := sgn 16 (s.fld Fld.MGT_THR_CRIT n)

/-- Bit of HUB_PWR_STATUS.THERM_HOLD. -/
def State.holdOf (s : State) (z : Nat) : Bool := (s.fld Fld.HUB_PWR_STATUS_THERM_HOLD 0).testBit z

/-- The stream source of queue q lies in scope z. -/
def State.queueIn (s : State) (z q : Nat) : Bool :=
  s.isStream q && (z == 2 || (s.queueNodes q).contains (1 + z) ||
    (let u := s.fld Fld.DMA_Q_KIND_UNIT q
     let k := s.qKind q
     (decide (1 ≤ k ∧ k ≤ 3) && u / 8 == z) || ((k == 4 || k == 5) && u / 16 == z)))

/-- The regions, counters and plane layers of scope z stop, and its queues drain, as items 1 to 4 of R421 say. -/
def State.holdStops (s : State) (z : Nat) : State :=
  let inDie (e : Nat) : Bool := z == 2 || e == z
  let s1 := s.disarmRegions ((List.range 32).filter fun m => inDie (m / 16))
  let s2 := (List.range 64).foldl (fun s q =>
    if s.queueIn z q && (s.qState q == 1 || s.qState q == 3) then s.beginDrain q else s) s1
  let s3 := (List.range 32).foldl (fun s i =>
    if inDie (i / 16) && s.measuring i then s.commitTicCfg i (s.reg .TIC_CFG i &&& ~~~1#32) else s) s2
  (List.range 8).foldl (fun s n =>
    if s.fld Fld.RAS_LAYER_SRC_KIND n = 1 ∧ inDie (s.fld Fld.RAS_LAYER_SRC_UNIT n / 8) then
      (s.setFld Fld.RAS_LAYER_CFG_EN n 0).modRas fun r =>
        { r with now := rput r.now ⟨.RAS_LAYER_CFG, n⟩ (putBits (rget r.now ⟨.RAS_LAYER_CFG, n⟩)
          Fld.RAS_LAYER_CFG_EN.lsb Fld.RAS_LAYER_CFG_EN.width 0) }
    else s) s3

/-- Scope z enters thermal hold (R421): EV463 for each of its hot sensors. -/
def State.enterHold (s : State) (z : Nat) : State :=
  let hot := (bitsOf 5 s.pwr.hot.toNat).filter fun n => scopeOf n == z
  if hot.isEmpty then s
  else
    let s1 := (s.holdStops z).setFld Fld.HUB_PWR_STATUS_THERM_HOLD 0 (s.fld Fld.HUB_PWR_STATUS_THERM_HOLD 0 ||| 2 ^ z)
    hot.foldl (fun s n => s.raise 463 1 n) (s1.modPwr fun p => { p with draining := p.draining ||| (1#3 <<< z) })

/-- Scope z sleeps once its drains have ended (R421 item 5). -/
def State.holdSleep (s : State) (z : Nat) : State :=
  if s.pwr.draining.getLsbD z && (List.range 64).all (fun q => !(s.queueIn z q) || s.queueOff q || s.qState q == 4) then
    let s1 := s.modPwr fun p => { p with draining := p.draining &&& ~~~(1#3 <<< z) }
    if z = 2 then (if s1.standby then s1 else s1.standbyDown)
    else if (s1.fld Fld.HUB_PWR_STATUS_ENG_SLEEP 0).testBit z then s1 else s1.dieDown z
  else s

/-- The thermal controller's part of a tick, or its action at once where no tick is issued (R421). -/
def State.thermalTick (s : State) : State :=
  let s1 := [0, 1, 2].foldl State.enterHold s
  [0, 1, 2].foldl State.holdSleep (s1.modPwr fun p => { p with hot := 0 })

/-- The comparison of sensors 0 to 4 with CRIT: scopes enter and leave thermal hold (R421). -/
def State.thermalCheck (s : State) (v : List (BitVec 16)) : State :=
  let temp (n : Nat) : Int := (v.getD n 0).toInt
  let hot := (List.range 5).foldl (fun (h : BitVec 5) n =>
    if s.critOf n ≤ temp n ∧ !s.holdOf (scopeOf n) then h ||| (1#5 <<< n) else h) s.pwr.hot
  let s1 := [0, 1, 2].foldl (fun s z =>
    if s.holdOf z ∧ (List.range 5).all (fun n => scopeOf n != z || decide (temp n ≤ s.critOf n - 100)) then
      s.setFld Fld.HUB_PWR_STATUS_THERM_HOLD 0 (s.fld Fld.HUB_PWR_STATUS_THERM_HOLD 0 &&& (7 - 2 ^ z))
    else s) s
  let s2 := s1.modPwr fun p => { p with hot := hot }
  if !s2.pitched || s2.standby then s2.thermalTick else s2

/-- THERMAL_CHECK, every 100 µs (R421). -/
def execThermalCheck (t : Tu) (v : List (BitVec 16)) (s : State) : Host.Outcome State Fault Refusal :=
  s.when t fun s => s.thermalCheck v

/-- The hardware trip's threshold of a sensor, 0.1 °C (R422). -/
def tripAt (n : Nat) : Int := if n < 3 then 1150 else 1000

/-- THERMAL_TRIP (R422): the device resets and stays stopped until RST_N; Basecamp keeps its own state, and its SMBus
target answers. -/
def execThermalTrip (t : Tu) (n : Fin 5) (v : BitVec 16) (s : State) : Host.Outcome State Fault Refusal :=
  s.when t fun s =>
    if tripAt n ≤ v.toInt then
      let s1 := s.wholeReset causeTrip
      { s1 with
        regs := (s.regs.filter fun e => e.1.n.place.block == .mgt).foldl (fun m e => rput m e.1 e.2) s1.regs,
        mgt := s.mgt, pwr := { s1.pwr with tripped := true, tables := s.pwr.tables } }
    else s

end Sys2Proof.Machine
end

