-- ==== Sys2Proof/Machine/Evt.lean ====
section
/-! DEFINITION. The event controller's commands (chapter 16: R349 to R358) and the host-link errors and resets of Table
HST-6 (R346). -/

namespace Sys2Proof.Machine

/-! ### Status, enable, data (R349 to R353) -/

/-- A source is cleared by a write of 1 to its STATUS bit; a raise in the same controller cycle leaves it at 1, and
counts as new for delivery (R351). -/
def State.clearStatus (s : State) (n : Nat) : State :=
  let m := tget ⟨0, false⟩ s.evt.raises n
  let raised := s.evt.raises.any fun e => e.1 == n
  if raised && m.cycle == s.evtCycle then
    if m.delivered || !s.evtEnable n then s
    else ({ s with evt := { s.evt with raises := tins s.evt.raises n ⟨m.cycle, true⟩ } }).deliver n
  else s.setStatus n false

/-- A write of EVT_STATUS<w>. -/
def State.writeEvtStatus (s : State) (w : Nat) (v : Word) : State :=
  (bitsOf 32 v.toNat).foldl (fun s b => if s.evtStatus (32 * w + b) then s.clearStatus (32 * w + b) else s) s

/-- EVT_STATUS_CLEAR. -/
def execEvtStatusClear (t : Tu) (w : Fin 16) (v : Word) (s : State) : Host.Outcome State Fault Refusal :=
  s.whenHost t fun s => s.writeEvtStatus w v

/-- A write of EVT_ENABLE<w>: a source with STATUS 1 is delivered at the moment its ENABLE is set (R353). -/
def State.writeEvtEnable (s : State) (w : Nat) (v : Word) : State :=
  let old := s.reg .EVT_ENABLE w
  let new := (bitsOf 32 v.toNat).foldl (fun (m : Word) b => if evtValid (32 * w + b) then m ||| (1#32 <<< b) else m) 0
  let s1 := s.setReg .EVT_ENABLE w new
  (bitsOf 32 (new &&& ~~~old).toNat).foldl (fun s b =>
    if s.evtStatus (32 * w + b) then s.deliver (32 * w + b) else s) s1

/-- EVT_ENABLE_WRITE. -/
def execEvtEnableWrite (t : Tu) (w : Fin 16) (v : Word) (s : State) : Host.Outcome State Fault Refusal :=
  s.whenHost t fun s => s.writeEvtEnable w v

/-- EVT_DATA_READ: DATA is returned and cleared (R350). -/
def execEvtDataRead (t : Tu) (n : Fin 512) (s : State) : Host.Outcome State Fault Refusal :=
  s.whenHost t fun s => (s.emit (.readData (s.reg .EVT_DATA n))).setReg .EVT_DATA n 0

/-! ### Vectors (R356, R357) -/

/-- A write of EVT_VEC_ACK. -/
def State.vecAck (s : State) (v : Nat) : State :=
  let s1 := s.setArmed v true
  if s1.vecActive v then s1.signal v else s1

/-- EVT_VEC_ACK. -/
def execEvtVecAck (t : Tu) (v : Fin 64) (s : State) : Host.Outcome State Fault Refusal :=
  s.whenHost t fun s => s.vecAck v

/-- A pending vector that is masked no more is signalled where a routed source is active, and else its pending bit
clears. -/
def State.vecUnmasked (s : State) (v : Nat) : State :=
  if s.evt.pba.getLsbD v && !s.vecMasked v then
    if s.vecActive v then s.signal v else s.setPba v false
  else s

/-- VECTOR_UNMASK. -/
def execVectorUnmask (t : Tu) (v : Option (Fin 64)) (s : State) : Host.Outcome State Fault Refusal :=
  s.whenHost t fun s =>
    match v with
    | some v => (s.setMsixWord (4 * v + 3) (s.msixWord (4 * v + 3) &&& ~~~1#32)).vecUnmasked v
    | none => ({ s with evt := { s.evt with funcMask := false } }).each 64 State.vecUnmasked

/-- A write of a word of the MSI-X table. -/
def State.writeMsix (s : State) (k : Nat) (v : Word) : State :=
  let s1 := s.setMsixWord k v
  if k % 4 = 3 then s1.vecUnmasked (k / 4) else s1

/-! ### Host-link errors (R346) -/

/-- HOST_READ_ERROR (Table HST-6). -/
def execHostReadError (t : Tu) (r : HostReader) (s : State) : Host.Outcome State Fault Refusal :=
  match r with
  | .refetch q => s.whenHost t fun s => s.refetch [⟨q, none⟩] q
  | .descFetch q => s.whenHost t fun s => if s.qKind q = 7 ∧ s.qState q = 1 then s.qError q 2 else s
  | .lantern n => s.whenHost t fun s => s.layerDry n
  | .imageFetch tag => s.mbWhen t tag 0x10 (pitchLoad none)

/-- Queue q is aborted without a record: what it has not delivered is counted in DMA_Q_LOST. -/
def State.linkCut (s : State) (q : Nat) : State :=
  if s.qState q = 0 ∨ s.qState q = 5 then s
  else
    let x := s.queue q
    let owed := match x.owed with | some (_, _, n) => n | none => 0
    ((s.addLost q (owed + (x.xfers.map Xfer.len).sum)).qOff q).qEvent q 4

/-- DMA registers that a host-link reset returns to reset. -/
def dmaResetNames : List RegName :=
  [.DMA_Q_CTRL, .DMA_Q_ABORT, .DMA_Q_CFG, .DMA_Q_RING_LO, .DMA_Q_RING_HI, .DMA_Q_CPL_LO, .DMA_Q_CPL_HI,
    .DMA_Q_RING_SIZE, .DMA_Q_TAIL, .DMA_Q_HEAD, .DMA_Q_CPL_WR, .DMA_Q_CPL_RD, .DMA_Q_WR_OFS, .DMA_Q_STAGED,
    .DMA_Q_LATE, .DMA_GLOBAL_STATUS, .DMA_LINK_STATUS]

/-- The host-link reset (Table HST-6, R357). -/
def State.linkReset (s : State) (k : LinkReset) : State :=
  let s0 := s.used.logNote 5 (s.freeBelow 256) (BitVec.ofNat 32 (Config.freeNat (s.free + 1) % 2 ^ 32))
  let s1 := (((s0.used.each 64 State.linkCut).bump Fld.DMA_LINK_RESET_CNT_COUNT 0 1).setFld
    Fld.HUB_RESET_CAUSE_PERST 0 1)
  let s2 := s1.pitchReset dmaResetNames fun _ => true
  let s3 := (s2.setReg .EVT_VEC_ARMED_LO 0 0xFFFFFFFF#32).setReg .EVT_VEC_ARMED_HI 0 0xFFFFFFFF#32
  let s4 := { s3 with
    evt := { s3.evt with msix := [], funcMask := false, pba := 0 },
    dma := { s3.dma with
      below := false, inbound := [],
      queues := [] } }
  if k = .perst then (s4.noteBlocked).modPwr fun p => { p with perstLow := true } else s4.noteBlocked

/-- HOST_LINK_RESET. -/
def execHostLinkReset (t : Tu) (k : LinkReset) (s : State) : Host.Outcome State Fault Refusal :=
  s.whenHost t fun s => s.linkReset k

end Sys2Proof.Machine
end

