-- ==== Sys2Proof/Machine/Dia.lean ====
section
/-! DEFINITION. Link patterns, checkers and loopbacks (R424 to R428), built-in self-test (R430) and boundary scan (R431,
R432). -/

namespace Sys2Proof.Machine

/-! ### Link diagnostics -/

/-- The link of an index is in service (R427). -/
def State.linkInService (s : State) (l : Nat) : Bool :=
  if l = 0 then s.flag Fld.TLK_CTRL_ENABLE 0
  else if l ≤ 4 then s.flag Fld.GLN_CFG_EN 0
  else s.flag Fld.RAS_CTRL_OUT_DSI 0

/-- A pattern code as it acts: 6 and 7 act as 0 (Table DIA-2). -/
def patActs (x : Nat) : Nat := if x < 6 then x else 0

/-- One bit of the generator's output is inverted; far-end loopback discards that output (R426, R428). -/
def State.injectError (s : State) (l : Nat) : State :=
  if patActs (s.fld Fld.HUB_LINK_DIAG_GEN_PAT l) ≠ 0 ∧ s.fld Fld.HUB_LINK_DIAG_LOOP l ≠ 3 then s.emit (.injectBit l) else s

/-- A write of HUB_LINK_DIAG<l>. -/
def State.writeDiag (s : State) (l : Nat) (v : Word) : State :=
  let gen := getBits v 0 3
  let chk := if l < 5 then getBits v 3 3 else 0
  let lp := if l < 5 then getBits v 6 2 else 0
  if (gen ≠ 0 ∨ chk ≠ 0 ∨ lp ≠ 0) ∧ s.linkInService l then s.setFld Fld.HUB_LINK_DIAG_STATE l 2
  else
    let act := decide (patActs gen ≠ 0 ∨ patActs chk ≠ 0 ∨ lp ≠ 0)
    let s1 := if chk ≠ s.fld Fld.HUB_LINK_DIAG_CHK_PAT l then s.setFld Fld.HUB_LINK_CHK_LOCK l 0 else s
    let s2 := (((s1.setFld Fld.HUB_LINK_DIAG_GEN_PAT l gen).setFld Fld.HUB_LINK_DIAG_CHK_PAT l chk).setFld
      Fld.HUB_LINK_DIAG_LOOP l lp).setFld Fld.HUB_LINK_DIAG_STATE l act.toNat
    if v.getLsbD 8 then s2.injectError l else s2

/-- LINK_DIAG_WRITE (R427). -/
def execLinkDiagWrite (t : Tu) (l : Fin 9) (v : Word) (s : State) : Host.Outcome State Fault Refusal :=
  s.whenHost t fun s => s.writeDiag l v

/-- INJECT (R428). -/
def execInject (t : Tu) (l : Fin 9) (s : State) : Host.Outcome State Fault Refusal :=
  s.whenHost t fun s => s.injectError l

/-- The 48-bit count of compared bits grows; a count past its width is left open (log 2). -/
def State.addBits (s : State) (l n : Nat) : State :=
  let sum := (s.pair .HUB_LINK_BITS_LO .HUB_LINK_BITS_HI l).toNat + n
  if sum < 2 ^ 48 then s.setPair .HUB_LINK_BITS_LO .HUB_LINK_BITS_HI l (BitVec.ofNat 64 sum)
  else s.used.setPair .HUB_LINK_BITS_LO .HUB_LINK_BITS_HI l (BitVec.ofNat 64 (s.freeBelow (2 ^ 48)))

/-- The checker's lock, and what it has counted while locked (R428). -/
def State.checkerLock (s : State) (l : Nat) (lock : Bool) (bits errs : Nat) : State :=
  if patActs (s.fld Fld.HUB_LINK_DIAG_CHK_PAT l) = 0 then s
  else if s.flag Fld.HUB_LINK_CHK_LOCK l then
    let s1 := (s.addBits l bits).bump Fld.HUB_LINK_ERR_COUNT l errs
    if lock then s1 else (s1.setFld Fld.HUB_LINK_CHK_LOCK l 0).setFld Fld.HUB_LINK_CHK_LOCK_LOST l 1
  else if lock then s.setFld Fld.HUB_LINK_CHK_LOCK l 1
  else s

/-- CHECKER_LOCK. -/
def execCheckerLock (t : Tu) (l : Fin 5) (lock : Bool) (bits : BitVec 48) (errs : Word) (s : State) :
    Host.Outcome State Fault Refusal :=
  s.when t fun s => s.checkerLock l lock bits.toNat errs.toNat

/-! ### Built-in self-test -/

/-- Start and length, in bytes, of the stack range of HUB_BIST_ARG. -/
def State.bistRange (s : State) : Nat × Nat :=
  (s.fld Fld.HUB_BIST_ARG_HI_ADDR 0 * 2 ^ 32 + s.fld Fld.HUB_BIST_ARG_LO_ADDR 0 * 4096,
    max 1 (s.fld Fld.HUB_BIST_ARG_HI_GIB 0) * 2 ^ 30)

/-- The unit is absent from the image, or asleep. -/
def State.bistAbsent (s : State) (u : Nat) : Bool :=
  if u < 8 then s.clusterAsleep (u % 4)
  else if u < 12 then s.dieAsleep (u % 2)
  else if u = 12 then !s.gateOpen 25 || s.standby
  else if u = 13 then !s.gateOpen 26 || s.standby
  else true

/-- The source of queue q lies on die e. -/
def State.queueOnDie (s : State) (e q : Nat) : Bool :=
  let u := s.fld Fld.DMA_Q_KIND_UNIT q
  let k := s.qKind q
  (decide (1 ≤ k ∧ k ≤ 3) && u / 8 == e) || ((k == 4 || k == 5) && u / 16 == e)

/-- The unit meets its condition in Table DIA-4 (that of a stack apart). -/
def State.bistIdle (s : State) (u : Nat) : Bool :=
  let c := u % 4
  let e := u % 2
  if u < 4 then
    s.clusterIdle c [] && (List.range 4).all fun i =>
      !s.flag Fld.TRG_GEN_CFG_EN (4 * c + i) && !s.flag Fld.RED_CFG_EN (4 * c + i)
  else if u < 8 then s.clusterIdle c []
  else if u < 10 then
    (List.range 16).all (fun m => !s.armed (16 * e + m)) && (List.range 64).all fun q => !s.queueOnDie e q || s.queueOff q
  else if u < 12 then true
  else if u = 12 then
    (List.range 16).all (fun n => !s.flag Fld.PMU_FORCE_CFG_EN n) && !s.pmuBusy 0 && !s.pmuBusy 1
  else !s.flag Fld.RAS_CTRL_EN 0

/-- Result codes of HUB_BIST_STATUS (Table DIA-5). -/
def bistBusy : Nat := 4
def bistNone : Nat := 5
def bistRefused : Nat := 6

/-- A write of HUB_BIST_REQ with GO. -/
def State.bistStart (s : State) (u : Nat) : State :=
  let s1 := s.setFld Fld.HUB_BIST_STATUS_UNIT 0 u
  if s.dia.bist.isSome then s1.setFld Fld.HUB_BIST_STATUS_RESULT 0 bistBusy
  else if s.bistAbsent u then s1.setFld Fld.HUB_BIST_STATUS_RESULT 0 bistNone
  else if !s.bistIdle u then s1.setFld Fld.HUB_BIST_STATUS_RESULT 0 bistBusy
  else if (u = 10 ∨ u = 11) ∧ s.snapBlocked (u % 2) s.bistRange.1 s.bistRange.2 then
    s1.setFld Fld.HUB_BIST_STATUS_RESULT 0 bistRefused
  else ({ s1 with dia := { s1.dia with bist := some u, range := s.bistRange, since := s.time } }).setFld Fld.HUB_BIST_STATUS_RESULT 0 1

/-- BIST_START (R430). -/
def execBistStart (t : Tu) (unit : Fin 16) (s : State) : Host.Outcome State Fault Refusal :=
  s.whenHost t fun s => s.bistStart unit

/-- Contents after a test (Table DIA-4). -/
def State.bistContents (s : State) (u : Nat) : State :=
  if 4 ≤ u ∧ u < 8 then s.accLose (u - 4)
  else if u = 10 ∨ u = 11 then
    let a := (u % 2) * stackSpan + s.dia.range.1
    { s with mem := s.mem.filter fun x => !decide (a ≤ x.1 ∧ x.1 < a + s.dia.range.2) }
  else if u = 13 then s.modRas fun r => { r with lut := [], lutNow := [] }
  else s

/-- BIST_DONE (R430). -/
def execBistDone (t : Tu) (pass : Bool) (detail : BitVec 16) (s : State) : Host.Outcome State Fault Refusal :=
  s.when t fun s =>
    match s.dia.bist with
    | none => s
    | some u =>
      let span := if u < 4 then tput (0#64, 0#64) s.dia.spans u (s.dia.since, s.time) else s.dia.spans
      let s1 := ({ s with dia := { s.dia with bist := none, spans := span } }).bistContents u
      (s1.setFld Fld.HUB_BIST_STATUS_RESULT 0 (if pass then 2 else 3)).setFld Fld.HUB_BIST_STATUS_DETAIL 0
        (if pass then 0 else detail.toNat)

/-! ### Boundary scan -/

/-- The boundary cells drive the pins under this instruction (R432). -/
def jtagDrives (i : JtagIns) : Bool :=
  match i with
  | .extest | .extestPulse | .extestTrain | .clamp | .highz => true
  | _ => false

/-- JTAG_INSTRUCTION: the first instruction under which the boundary cells no longer drive the pins makes a whole-device
reset (R432; log 85). -/
def execJtagInstruction (t : Tu) (ins : JtagIns) (s : State) : Host.Outcome State Fault Refusal :=
  if !s.pwr.on then .next s
  else
    let leaves := jtagDrives s.dia.jtag && !jtagDrives ins
    let s1 := if s.alive then s.at t else s
    let s2 := { s1 with dia := { s1.dia with jtag := ins } }
    .next (if leaves && s.alive then s2.wholeReset causeRstN else s2)

end Sys2Proof.Machine
end

