-- ==== Sys2Proof/Machine/Tick.lean ====
section
/-! DEFINITION. The frame tick (chapter 02: R35 to R52), the STEP of local time (R37, R100), the internal commit instant
(R47), shadowed registers and schedule slots, and the rows that name what happens at a tick. -/

namespace Sys2Proof.Machine

/-! ### Registers of sleeping units (R34, R46) -/

/-- The register belongs to a sleeping cluster or engine die. -/
def State.regAsleep (s : State) (r : Reg) : Bool :=
  let p := r.n.place
  match p.block with
  | .cluster => s.clusterAsleep (r.i / p.per)
  | .dieGlobal | .seg => s.dieAsleep (r.i / p.per)
  | _ => false

/-! ### Shadowed registers (R43 to R47) -/

/-- A write stamped `x` is in the snapshot of a tick that is now (R43). -/
def State.inSnapshot (s : State) (x : Tu) : Bool := tuLe (tuAdd x (ns 64)) s.time

/-- HOLD as the snapshot of a tick that is now finds it (R45). -/
def State.holdSeen (s : State) : Bool :=
  match s.tick.hold.find? fun h => s.inSnapshot h.1 with
  | some h => h.2
  | none => false

/-- A write of HUB_SH_CTRL.HOLD. -/
def State.writeHold (s : State) (on : Bool) : State :=
  if on = s.flag Fld.HUB_SH_CTRL_HOLD 0 then s
  else
    let s1 := s.setFld Fld.HUB_SH_CTRL_HOLD 0 on.toNat
    { s1 with tick := { s1.tick with hold := (s.hubStamp, on) :: s1.tick.hold } }

/-- The last write of each register, in order of those writes: the last write wins (R44). -/
def lastWrites (l : List ShWrite) : List ShWrite :=
  l.foldl (fun acc w => acc.filter (fun x => x.reg ≠ w.reg) ++ [w]) []

/-- Registers whose commit starts something; the settings that commit with them are in force first, but for a snapshot. -/
def startsWork (n : RegName) : Bool :=
  n == .TIC_CFG || n == .PMU_SEQ_CTRL || n == .DMA_Q_CTRL || n == .ACC_CTRL || n == .ACC_SNAP_CTRL

/-- The commit of one register at this tick. SEG_ARM is committed for all regions together. -/
def State.commitReg (host : List HostRead) (s : State) (w : ShWrite) : State :=
  let i := w.reg.i
  match w.reg.n with
  | .PLL_LOCK_CFG => s.commitLockCfg i w.val
  | .PLL_SPLL_CFG => s.commitSpllCfg i w.val
  | .PLL_SPLL_RATE => s.commitRate i w.val
  | .DMA_Q_CTRL =>
    let en := w.val.getLsbD 0 && !s.queueTested i
    (s.setFld Fld.DMA_Q_CTRL_EN i en.toNat).commitEn host i en
  | .PMU_SEQ_CTRL => s.commitSeqCtrl i w.val
  | .AFE_CFG => s.commitAfeCfg i w.val
  | .AFE_OFFSET => s.commitAfeOffset i w.val
  | .TRG_LEVEL | .TRG_HYST => s.commitLevel w.reg.n i w.val
  | .TRG_GEN_CFG | .TRG_GEN_T1 | .TRG_GEN_T2 | .TRG_GEN_PAT | .TRG_GEN_HOLDOFF | .TRG_GEN_HOLDCNT | .TRG_GEN_SEQ_MIN
  | .TRG_GEN_SEQ_MAX | .TRG_GEN_SEQ_N => s.commitGen w.reg.n i w.val
  | .RED_CFG | .RED_SRC | .RED_LEN | .RED_DEC | .RED_PHASE => s.commitRed w.reg.n i w.val
  | .ACC_PLANE_CFG | .ACC_PLANE_X | .ACC_PLANE_XOFS | .ACC_PLANE_UI | .ACC_PLANE_SPAN | .ACC_PLANE_Y =>
    s.commitPlane w.reg.n i w.val
  | .ACC_MASK_CFG => s.commitMask i w.val
  | .ACC_CTRL => s.commitAccCtrl i w.val
  | .ACC_SNAP_CTRL => s.commitSnap i w.val
  | .TIC_CFG => s.commitTicCfg i w.val
  | .TIC_N | .TIC_TIMEOUT | .TIC_WINDOW | .TIC_GATE | .TIC_HOLDOFF => s.commitTic w.reg.n i w.val
  | .SEG_PRE => s.commitPre i w.val
  | _ => s

/-- Arms and disarms among committed writes (R228, R229), each write an arm of its own (R173); an arm is ignored while a full
pitch is applied (R76 item 3). -/
def State.commitArms (s : State) (ws : List ShWrite) : State :=
  let arms := ws.filter fun w => w.reg.n == .SEG_ARM
  let off := (arms.filter fun w => !w.val.getLsbD 0).map fun w => w.reg.i
  let on := (arms.filter fun w => w.val.getLsbD 0).map fun w => w.reg.i
  let s1 := s.disarmRegions off
  if s.fld Fld.HUB_PITCH_STATUS_STATE 0 = 2 then s1 else on.foldl (fun s m => s.armRegions [m]) s1

/-- The commits of the writes that `p` picks. -/
def State.commitRegs (host : List HostRead) (ws : List ShWrite) (p : RegName → Bool) (s : State) : State :=
  (ws.filter fun w => p w.reg.n).foldl (State.commitReg host) s

/-- The SH values in the snapshot commit: snapshots of planes first (R267), then settings, then what starts work. A value
written while its unit was awake commits although the unit sleeps by now, where it starts nothing; such a tick is one at which
SH values committed (DESIGN CHOICE, log 90). -/
def State.commitSh (host : List HostRead) (s : State) : State :=
  let due := s.tick.sh.filter fun w => s.inSnapshot w.stamp
  if due.isEmpty then s
  else
    let s1 := { s with tick := { s.tick with sh := s.tick.sh.filter fun w => !s.inSnapshot w.stamp } }
    let ws := lastWrites due
    let s2 := s1.commitRegs host ws fun n => n == .ACC_SNAP_CTRL
    let s3 := (s2.commitRegs host ws fun n => !startsWork n).limitPlanes
    let s4 := (s3.commitRegs host ws fun n => startsWork n && n != .ACC_SNAP_CTRL).commitArms ws
    s4.setFrame .HUB_SH_COMMIT_LO .HUB_SH_COMMIT_HI 0 s4.frameNow

/-- What commits at a tick, HOLD apart: SH values, and force codes with UPD = 1 (R291). -/
def State.commitNow (host : List HostRead) (s : State) : State :=
  (s.commitSh host).each 16 fun s n => s.forceDue n 1 s.time fun x => s.inSnapshot x

/-- Step 3 of Table TCK-2. -/
def State.commitStep (host : List HostRead) (s : State) : State := if s.holdSeen then s else s.commitNow host

/-! ### Broadcasts (R91) -/

/-- TLK_ARM_MAP<g> as the snapshot of this tick read it. -/
def State.mapSeen (s : State) (g : Nat) : Word :=
  match (s.tick.maps.filter fun x => x.1 == g && !s.inSnapshot x.2.2).getLast? with
  | some x => x.2.1
  | none => s.reg .TLK_ARM_MAP g

/-- A broadcast executes at its tick. -/
def State.runBcast (s : State) (b : Bcast) : State :=
  if b.typ = 2 then s.syncAt s.time 2 (b.sub % 2 == 1)
  else if b.typ = 3 then
    (if s.fld Fld.HUB_PITCH_STATUS_STATE 0 = 2 then s else s.armRegions (bitsOf 32 (s.mapSeen b.sub).toNat))
  else s.disarmRegions (bitsOf 32 (s.mapSeen b.sub).toNat)

/-- Step 4: broadcasts that name this frame execute in the order of their arrival; those whose frame was skipped are
discarded. -/
def State.bcastStep (s : State) : State :=
  let f := s.frame
  let past := s.tick.bcasts.filter fun b => frameLe b.frame f && b.frame != f
  let now := s.tick.bcasts.filter fun b => b.frame == f
  let s1 := { s with tick := { s.tick with bcasts := s.tick.bcasts.filter fun b => !frameLe b.frame f } }
  now.foldl State.runBcast (past.foldl (fun s _ => s.dropBcast) s1)

/-! ### Schedule slots (R48 to R52) -/

/-- The image gives cluster c an accumulator, and the cluster is awake. -/
def State.hasAcc (s : State) (c : Nat) : Bool := (s.pitch.recs.any fun r => r.typ == 7 && r.inst == c) && !s.clusterAsleep c

/-- The command's action, and whether it is refused: it names objects, and all of them are asleep or absent (R52). -/
def State.runSlot (host : List HostRead) (s : State) (i : Nat) (c : Capture) : State × Bool :=
  let regions := bitsOf 32 c.arg.toNat
  let clusters := bitsOf 4 c.arg.toNat
  match c.cmd with
  | 1 =>
    let there := regions.filter s.regionThere
    (s.armRegions there, !regions.isEmpty && there.isEmpty)
  | 2 =>
    let there := regions.filter s.regionThere
    (s.disarmRegions there, !regions.isEmpty && there.isEmpty)
  | 3 => (s.syncAt s.time 1 (c.arg.getLsbD 0), false)
  | 4 =>
    let s1 := (s.commitNow host).setFld Fld.HUB_SH_CTRL_HOLD 0 0
    ({ s1 with tick := { s1.tick with hold := (s.time, false) :: s1.tick.hold } }, false)
  | 5 =>
    let there := clusters.filter s.hasAcc
    (there.foldl State.accClear s, !clusters.isEmpty && there.isEmpty)
  | 6 => (s.raise 12 1 (getBits c.arg 0 8 + 256 * i), false)
  | _ => (s, false)

/-- The captures of a slot after its outcome: LAST records it, and STATUS unless a newer CMD write set it (R51). -/
def State.slotEnd (s : State) (i : Nat) (later : List Capture) (outcome : Nat) : State :=
  let s1 := { s with tick := { s.tick with caps := tput [] s.tick.caps i later } }
  let s2 := s1.setFld Fld.HUB_SCHED_STATUS_LAST i outcome
  if later.isEmpty then s2.setFld Fld.HUB_SCHED_STATUS_STATUS i outcome else s2

/-- The capture that stands at the snapshot, with those written after it. A carried SYNC that was sent stands from
1,088 ns before its tick (R49, R371). -/
def State.slotSeen (s : State) (i : Nat) : Option (Capture × List Capture) :=
  let l := tget [] s.tick.caps i
  let early := capsBefore l 1088 s.time
  match early.getLast? with
  | some c =>
    if c.carried && c.frame == s.frame then some (c, l.drop early.length)
    else
      let snap := capsBefore l 64 s.time
      snap.getLast?.map fun c => (c, l.drop snap.length)
  | none =>
    let snap := capsBefore l 64 s.time
    snap.getLast?.map fun c => (c, l.drop snap.length)

/-- A slot at this tick (step 5). `first`: no tick was issued before. A slot whose CMD write misses the snapshot of its target
F is late from F on: it stays PENDING at F, whose snapshot does not hold it, and its outcome falls at the first tick whose
snapshot does (DESIGN CHOICE, log 114). A late slot that executes is DONE_LATE whatever its objects are: REFUSED is an outcome
of the target tick (Table TCK-6). -/
def State.slotTick (host : List HostRead) (first : Bool) (s : State) (i : Nat) : State :=
  match s.slotSeen i with
  | none => s
  | some (c, later) =>
    let lead := tuLe (tuAdd c.stamp (ns 1088)) s.time
    let keep (l : List Capture) : State := { s with tick := { s.tick with caps := tput [] s.tick.caps i l } }
    if c.cmd = 0 ∨ 7 ≤ c.cmd then keep later
    else
      let due := c.frame == s.frame && !c.notFuture && !(c.unpitched && first) && !(c.carried && !lead)
      if due then
        let (s1, refused) := s.runSlot host i c
        s1.slotEnd i later (if refused then 5 else 2)
      else if !(c.notFuture || frameLe c.frame s.frame) then keep (c :: later)
      else if !c.late then (s.slotEnd i later 4).raise 11 1 i
      else if c.carried && !lead then keep (c :: later)
      else (((s.runSlot host i c).1).slotEnd i later 3).raise 11 2 i

/-- A write of HUB_SCHED_CMD<s> captures the slot (R49, R50). -/
def State.writeSched (s : State) (i cmd : Nat) (late : Bool) : State :=
  let f := s.frameOf .HUB_SCHED_FRAME_LO .HUB_SCHED_FRAME_HI i
  let c : Capture :=
    { cmd := cmd, late := late, frame := f, arg := s.reg .HUB_SCHED_ARG i, stamp := s.hubStamp,
      notFuture := s.tick.issued && !frameFuture s.frame f, unpitched := !s.tick.issued, sent := false }
  let s1 := (s.setReg .HUB_SCHED_CMD i (w32 (cmd + 16 * late.toNat))).setFld Fld.HUB_SCHED_STATUS_STATUS i
    (if cmd = 0 then 0 else if cmd < 7 then 1 else 5)
  { s1 with tick := { s1.tick with caps := tmod [] s1.tick.caps i fun l => l ++ [c] } }

/-! ### STEP (R37, R100) -/

/-- A STEP is pending and this tick is the one at which it is made. -/
def State.stepDue (s : State) : Bool :=
  s.tlk.step.isSome &&
    (match s.tlk.stepFrame with
     | none => true
     | some f => frameLe f (frameAt s.k s.frame s.time))

/-- The anchor that a die realigns to at a STEP by `d` tu, made now: the tick of a forward STEP; for a backward one the
first whole multiple of the tick period at or after the corrected time, with the frame that R27 gives it (R119). -/
def State.stepAnchor (s : State) (e : Nat) (d : Int) : State :=
  if 0 ≤ d then (s.unalign e).anchorLater e s.time true
  else
    let t : Tu := BitVec.ofNat 64 ((s.time.toNat + s.period - 1) / s.period * s.period)
    (s.unalign e).setAnchor e (frameAt s.k s.frame t) true t

/-- The effects of a STEP by `d` tu at the step instant, which is now. A forward STEP begins the frame of the corrected
time; for a backward one no tick is issued, and the frame stays (R37). -/
def State.stepNow (s : State) (d : Int) : State :=
  let x := tuMove d s.time
  let f := if 0 ≤ d then frameAt s.k s.frame x else s.frame
  let s1 := s.each 32 fun s m =>
    (((s.judgeBefore m (.ofTu s.time)).passBlocks m (s.trigOf m s.time)).stepRegion m f).shiftRegion m d
  let s2 := (s1.each 32 fun s i => s.ticStep i x).pmuStep d
  let s3 := ((s2.each 4 State.dropRefs).moveTime d).stepLanes
  let s4 := s3.each 2 fun s e => if s.spllLock e then s.stepAnchor e d else s
  let s5 := (s4.relockIdle).setFld Fld.HUB_TICK_STATUS_STEPPED 0 1
  let s6 := { s5 with tlk := { s5.tlk with step := none, stepFrame := none },
                      tick := { s5.tick with steps := (s5.time, tuAdd s5.time s5.period) :: s5.tick.steps } }
  let s7 := if s6.flag Fld.TLK_STATUS_EPOCH_VALID 0 then s6 else (s6.setFld Fld.TLK_STATUS_EPOCH_VALID 0 1).raise0 35
  s7.raise0 36

/-- The frame that contains a STEP is marked, in the entries that name it already too (R37, Table SEG-4). -/
def State.markStep (s : State) (f : Frame) : State :=
  ({ s with tick := { s.tick with stepFrames := f :: s.tick.stepFrames } }).stepEntries f

/-! ### The tick (R39) -/

/-- The STATUS message of each tick (R86, R93). -/
def State.statusMsg (s : State) : State :=
  s.tlkSend (tlkMsg 0xB (s.fld Fld.HUB_PITCH_STATUS_STATE 0)
    (s.fld Fld.TLK_SITE_SITE_ID 0 * 2 ^ 32 + s.fld Fld.CLK_SRC_STATUS_ACTIVE 0 +
      4 * s.fld Fld.TLK_STATUS_EPOCH_VALID 0 + 8 * s.fld Fld.TLK_STATUS_RELOCK_STATE 0))

/-- EV010 at every frame that is a multiple of 2^MARK_EXP. -/
def State.tickMark (s : State) : State :=
  let m := s.fld Fld.HUB_TICK_CFG_MARK_EXP 0
  if m ≠ 0 ∧ s.frame.toNat % 2 ^ m = 0 then s.raise0 10 else s

/-- Register SYNCs that commit at this tick (R249). -/
def State.syncCommit (s : State) : State :=
  let due := s.tick.syncCmds.filter fun x => tuLe (tuAdd x.1 (syncLead x.2)) s.time
  let s1 := { s with tick := { s.tick with
    syncCmds := s.tick.syncCmds.filter fun x => !tuLe (tuAdd x.1 (syncLead x.2)) s.time } }
  due.foldl (fun s x => s.syncAt s.time 3 x.2) s1

/-- What the snapshots of later ticks no longer need is dropped. -/
def State.pruneTick (s : State) : State :=
  let later := s.tick.hold.takeWhile fun h => !s.inSnapshot h.1
  let seen := (s.tick.hold.drop later.length).take 1
  { s with tick := { s.tick with hold := later ++ seen, maps := [] } }

/-- The lanes at a tick or at an internal instant: restarts, updates, and the handovers that are due (step 6). -/
def State.laneStep (s : State) : State := (s.each 16 State.laneTick).handovers

/-- What has come to pass before this tick or internal instant. -/
def State.beforeTick (s : State) : State :=
  ((((s.anchorsReached).placeTrigsTo (s.time - 1)).pmuArrive (s.time - 1)).syncUpTo (s.time - 1)).redSettle

/-- What the frame that ends at this tick still owes: the data that it accepts, its part of the write-backs (R39 step 8), and
the fires whose decision window is over (R20). -/
def State.endFrameWork (s : State) : State := ((s.stageDue).writeBackDue).each 32 State.judgeDue

/-- The tick that begins frame F, at the present instant, in the order of Table TCK-2. -/
def State.issueTick (host : List HostRead) (s : State) (f : Frame) : State :=
  let first := !s.tick.issued
  let s0 := (s.endFrameWork).keepWas
  let s1 := ({ s0 with frame := f, tick := { s0.tick with issued := true } }.setFld Fld.HUB_TICK_STATUS_SOURCE 0
    (s0.fld Fld.CLK_SRC_STATUS_ACTIVE 0)).glnRoles
  let s2 := (s1.pitchTick).anchorTick f
  let off := (List.range 64).filter fun q => s2.qState q == 0
  let s3 := ((s2.commitStep host).pitchBegin).thermalTick
  let s4 := (s3.bcastStep).each 32 (State.slotTick host first)
  let s5 := ((s4.syncCommit).syncUpTo s4.time).ticAll 0x21 s4.time false true
  let s6 := ((s5.wokenTick).laneStep).each 32 State.markStale
  let s7 := (s6.pmuTick 0).pmuTick 1
  let fresh := off.filter fun q => s7.qState q == 1
  let s8 := s7.each 64 fun s q => s.queueTick host fresh q
  let s9 := ((((s8.stallTick).noteBlocked).glnRecords).glnSends).tickMark
  (s9.statusMsg).pruneTick

/-- The master time counter reaches the next tick time: a pending STEP is made, and the tick is issued, unless a backward
STEP has it wait (R37). -/
def State.frameTick (host : List HostRead) (s : State) : State :=
  if !s.pitched || s.standby then s
  else
    let s0 := { s with time := s.nextGrid }
    let s1 := s0.beforeTick
    match (if s1.stepDue then s1.tlk.step else none) with
    | some e =>
      if 0 < e then (s1.stepNow (-e)).markStep s1.frame
      else
        let s2 := s1.stepNow (-e)
        let f := frameAt s2.k s2.frame s2.time
        (s2.markStep f).issueTick host f
    | none =>
      let f := if s1.tick.issued then frameAt s1.k s1.frame s1.time else BitVec.ofNat 48 (s1.time.toNat / s1.period)
      if s1.tick.issued && !frameFuture s1.frame f then (s1.anchorTick f).pruneTick else s1.issueTick host f

/-- The device runs, so that what a tick brings takes place. -/
def State.ticks (s : State) (f : State → State) : Host.Outcome State Fault Refusal :=
  if s.alive then s.done (f s) else .next s

/-- FRAME_TICK (R35, R39). -/
def execFrameTick (host : List HostRead) (s : State) : Host.Outcome State Fault Refusal :=
  s.ticks fun s => s.frameTick host

/-- The instant at which the first of the running dwells is over while UNPITCHED (R157). -/
def State.dwellEnd (s : State) : Option Tu :=
  (List.range 16).foldl (fun m ln =>
    match (s.lane ln).dwell with
    | none => m
    | some d =>
      let e := tuAdd d (ns 4000000)
      if s.handoverDue ln e then (match m with | none => some e | some x => some (if tuLt e x then e else x)) else m) none

/-- The next handover while UNPITCHED, exactly 4 ms after its dwell began, where that lies before the next internal instant
`g` (R41, R157). -/
def State.handoverNext (s : State) (g : Tu) : State :=
  match s.dwellEnd with
  | some e => if !s.standby && tuLt e g then (s.at e).handovers else s
  | none => s

/-- The next internal commit instant while UNPITCHED (R47); the handovers of before it have taken place. -/
def State.internalTick (s : State) : State :=
  if s.pitched || s.standby then s
  else
    let s0 := { s.each 16 fun a _ => a.handoverNext s.nextGrid with time := s.nextGrid }
    let s1 := (s0.beforeTick).keepWas
    let s2 := (s1.anchorTick (BitVec.ofNat 48 (s1.time.toNat / 2 ^ 23))).commitStep []
    let s3 := ((s2.syncCommit).syncUpTo s2.time).wokenTick
    (((s3.laneStep).glnUnpitched).pruneTick).pitchUnpitched

/-- INTERNAL_COMMIT_INSTANT (R47). -/
def execInternalCommitInstant (s : State) : Host.Outcome State Fault Refusal := s.ticks State.internalTick

/-! ### Rows that name what a tick brings about -/

/-- The tick, if it brings about what the row names; else the row is no occurrence. -/
def State.tickThat (host : List HostRead) (s : State) (p : State → State → Bool) : Host.Outcome State Fault Refusal :=
  s.ticks fun s => if p s (s.frameTick host) then s.frameTick host else s

/-- TLK_PHASE_STEP (R100): the tick at which the pending STEP is made. -/
def execTlkPhaseStep (host : List HostRead) (s : State) : Host.Outcome State Fault Refusal :=
  s.tickThat host fun a b => a.tlk.step.isSome && b.tlk.step.isNone

/-- HANDOVER (R155): at the tick; while UNPITCHED at the internal boundary (R157). -/
def execHandover (host : List HostRead) (s : State) : Host.Outcome State Fault Refusal :=
  if s.pitched then
    s.tickThat host fun a b => (List.range 16).any fun ln => (a.lane ln).handovers != (b.lane ln).handovers
  else s.ticks fun s => s.handoverNext s.nextGrid

/-- PITCH_APPLY_T1 (R76). -/
def execPitchApplyT1 (host : List HostRead) (s : State) : Host.Outcome State Fault Refusal :=
  s.tickThat host fun a b => a.pitch.t1.isNone && b.pitch.t1.isSome

/-- PITCH_DRAIN_TIMEOUT (R76 item 4). -/
def execPitchDrainTimeout (host : List HostRead) (s : State) : Host.Outcome State Fault Refusal :=
  s.tickThat host fun a b => !a.pitch.drained && b.pitch.drained

/-- PITCH_APPLY_T2 (R76 item 5). -/
def execPitchApplyT2 (host : List HostRead) (s : State) : Host.Outcome State Fault Refusal :=
  s.tickThat host fun a b => a.pitch.t1.isSome && b.pitch.t1.isNone

/-- PARTIAL_PITCH_APPLY (R80). -/
def execPartialPitchApply (host : List HostRead) (s : State) : Host.Outcome State Fault Refusal :=
  s.tickThat host fun a b => (a.pitch.accepted.any fun x => x.cluster.isSome) && b.pitch.accepted.isNone

/-- GLN_FAIL_DETECT (R376). -/
def execGlnFailDetect (host : List HostRead) (s : State) : Host.Outcome State Fault Refusal :=
  s.tickThat host fun a b => !a.gln.declared && b.gln.declared

/-- GLN_TAKEOVER (R377). -/
def execGlnTakeover (host : List HostRead) (s : State) : Host.Outcome State Fault Refusal :=
  s.tickThat host fun a b => a.gln.takeover && !b.gln.takeover

/-! ### Command writes of the shadow logic and of the slots -/

/-- SH_HOLD_SET (R45). -/
def execShHoldSet (t : Tu) (s : State) : Host.Outcome State Fault Refusal := s.whenHost t fun s => s.writeHold true

/-- SH_HOLD_CLEAR (R45). -/
def execShHoldClear (t : Tu) (s : State) : Host.Outcome State Fault Refusal := s.whenHost t fun s => s.writeHold false

/-- SCHED_NONE (R49): a cancel. -/
def execSchedNone (t : Tu) (slot : Fin 32) (late : Bool) (s : State) : Host.Outcome State Fault Refusal :=
  s.whenHost t fun s => s.writeSched slot 0 late

/-- SCHED_ARM (R49). -/
def execSchedArm (t : Tu) (slot : Fin 32) (late : Bool) (s : State) : Host.Outcome State Fault Refusal :=
  s.whenHost t fun s => s.writeSched slot 1 late

/-- SCHED_DISARM (R49). -/
def execSchedDisarm (t : Tu) (slot : Fin 32) (late : Bool) (s : State) : Host.Outcome State Fault Refusal :=
  s.whenHost t fun s => s.writeSched slot 2 late

/-- SCHED_SYNC (R49, R371). -/
def execSchedSync (t : Tu) (slot : Fin 32) (late : Bool) (s : State) : Host.Outcome State Fault Refusal :=
  s.whenHost t fun s => s.writeSched slot 3 late

/-- SCHED_SH_RELEASE (R45). -/
def execSchedShRelease (t : Tu) (slot : Fin 32) (late : Bool) (s : State) : Host.Outcome State Fault Refusal :=
  s.whenHost t fun s => s.writeSched slot 4 late

/-- SCHED_ACC_CLEAR (R49). -/
def execSchedAccClear (t : Tu) (slot : Fin 32) (late : Bool) (s : State) : Host.Outcome State Fault Refusal :=
  s.whenHost t fun s => s.writeSched slot 5 late

/-- SCHED_MARK (R49). -/
def execSchedMark (t : Tu) (slot : Fin 32) (late : Bool) (s : State) : Host.Outcome State Fault Refusal :=
  s.whenHost t fun s => s.writeSched slot 6 late

/-- SCHED_RESERVED (R50): commands 0x7 to 0xF. -/
def execSchedReserved (t : Tu) (slot : Fin 32) (late : Bool) (k : Fin 9) (s : State) : Host.Outcome State Fault Refusal :=
  s.whenHost t fun s => s.writeSched slot (7 + k) late

end Sys2Proof.Machine
end

