-- ==== Sys2Proof/Machine/Access.lean ====
section
/-! DEFINITION. Access to BAR0 (chapters 00 and 21: R4 to R6, R33, R34, R333, R433 to R440; shadowed fields R43 to R46):
which register an offset names, what a write of each register does, and what a read returns. -/

namespace Sys2Proof.Machine

/-! ### Writes -/

/-- The SH bits of a register; PLL_LOCK_CFG<0> and <3> are RW (Table REG-5). -/
def shMask (r : Reg) : Word :=
  if r.n = .PLL_LOCK_CFG ∧ (r.i = 0 ∨ r.i = 3) then 0 else accMask r.n .SH

/-- A written value of SH fields as the unit takes it and as a read returns it (R61, R122, R237, R239, R280). -/
def State.shLimit (s : State) (r : Reg) (v : Word) : Word :=
  match r.n with
  | .PLL_SPLL_RATE => w32 (s.rateLimit r.i (getBits v 0 23))
  | .RED_CFG | .RED_SRC | .RED_LEN | .RED_DEC | .RED_PHASE => s.redLimit r.n r.i v
  | .TIC_GATE | .TIC_HOLDOFF => w32 (max (s.fld Fld.TIC_PACE_NS r.i) v.toNat)
  | _ => v

/-- A write of a register's SH fields waits for its commit, with the hub's time stamp (R43). From T1 to T2 of a full
pitch a write of SEG_ARM is ignored (R76 item 3). -/
def State.shWrite (s : State) (r : Reg) (v : Word) : State :=
  if shMask r = 0 ∨ (r.n = .SEG_ARM ∧ s.fld Fld.HUB_PITCH_STATUS_STATE 0 = 2) then s
  else
    { s with tick := { s.tick with sh := s.tick.sh ++ [⟨r, s.shLimit r v &&& shMask r, s.hubStamp⟩] } }

/-- The bits of W1C fields that are written with 1 clear (R4). -/
def State.w1c (s : State) (r : Reg) (v : Word) : State :=
  let m := accMask r.n .W1C &&& v
  if m = 0 then s else s.setReg r.n r.i (s.reg r.n r.i &&& ~~~m)

/-- A register of a queue, a plane or a mask that the image does not have (R61, R259, R335). -/
def State.unitAbsent (s : State) (r : Reg) : Bool :=
  match r.n with
  | .ACC_PLANE_CFG | .ACC_PLANE_X | .ACC_PLANE_XOFS | .ACC_PLANE_UI | .ACC_PLANE_SPAN | .ACC_PLANE_Y => !s.hasPlane r.i
  | .ACC_MASK_CFG => !s.hasMask r.i
  | n => n.place.block == .dma && decide (2 ≤ n.place.per) && s.qKind r.i == 0

/-- A write of TLK_CTRL. -/
def State.writeTlkCtrl (s : State) (v : Word) : State :=
  let s1 := ((s.writeTlkEnable (v.getLsbD 0)).setFld Fld.TLK_CTRL_TX_ENABLE 0 (getBits v 1 1)).writeDelayMode (v.getLsbD 2)
  match getBits v 3 2 with
  | 1 => s1.relockAct true
  | 2 => s1.relockAct false
  | _ => s1

/-- A write of TLK_ARM_MAP<g>; a snapshot already taken keeps the value before it (R91). -/
def State.writeArmMap (s : State) (g : Nat) (v : Word) : State :=
  { s with tick := { s.tick with maps := (g, s.reg .TLK_ARM_MAP g, s.hubStamp) :: s.tick.maps } }.writeRW .TLK_ARM_MAP g v

/-- A write of CLK_CLKIN_CFG: RATE_ERR holds until PS is raised (R278); a prescaler with another factor counts afresh (log
104). -/
def State.writeClkin (s : State) (v : Word) : State :=
  let s1 := s.writeRW .CLK_CLKIN_CFG 0 v
  if s1.clkinPs = s.clkinPs then s1
  else
    let s2 := { s1 with clk := { s1.clk with clkin := 0, clkinAt := none } }
    if s.clkinPs < s1.clkinPs then s2.setFld Fld.CLK_CLKIN_CFG_RATE_ERR 0 0 else s2

/-- A write of MGT_MB_DOORBELL: taken while IDLE, else ignored with OVERRUN (R387). -/
def State.doorbell (s : State) (tag : Byte) : State :=
  if s.mgt.run = 0 then s
  else if s.fld Fld.MGT_MB_STATE_STATE 0 = 0 then s.mbRunning tag
  else s.setFld Fld.MGT_MB_STATE_OVERRUN 0 1

/-- A write of MGT_THR<s>: CRIT above its ceiling, its reset value, takes the ceiling (R392, Table MGT-4). -/
def State.writeThr (s : State) (n : Nat) (v : Word) : State :=
  let top := getBits (Reg.resetVal ⟨.MGT_THR, n⟩) 16 16
  let x := getBits v 16 16
  let above := if n < 5 then decide (sgn 16 top < sgn 16 x) else decide (top < x)
  s.setReg .MGT_THR n (putBits v 16 16 (if above then top else x))

/-- A write of PLL_SPLL_CFG<e>: its RW fields act at once, SLOPE on the rest of a RAMP under way (Table PLL-4). -/
def State.writeSpllCfg (s : State) (e : Nat) (v : Word) : State :=
  (if s.spllState e = 2 then s.rateHold e else s).writeRW .PLL_SPLL_CFG e v

/-- A write of DMA_Q_RING_SIZE<q>: only while the queue is OFF (R336). -/
def State.writeRingSize (s : State) (q : Nat) (v : Word) : State :=
  if s.qState q = 0 then s.writeRW .DMA_Q_RING_SIZE q v else s

/-- A write of the RW and WO fields of a register, with what the chapter of the register gives the write. -/
def State.writeNow (s : State) (r : Reg) (v : Word) : State :=
  let i := r.i
  match r.n with
  | .HUB_PWR_REQ => s.writePwrReq v
  | .HUB_SH_CTRL => s.writeHold (v.getLsbD 0)
  | .HUB_SYNC_CMD => if v.getLsbD 0 && !s.standby then s.issueSync (v.getLsbD 1) else s
  | .HUB_BIST_REQ => if v.getLsbD 4 then s.bistStart (getBits v 0 4) else s
  | .HUB_SCHED_CMD => s.writeSched i (getBits v 0 4) (v.getLsbD 4)
  | .HUB_LINK_DIAG => s.writeDiag i v
  | .CLK_SRC_CFG => (s.writeRW .CLK_SRC_CFG 0 v).prefChanged
  | .CLK_CLKIN_CFG => s.writeClkin v
  | .CLK_MUX_SEL => s.writeMuxSel i (getBits v 0 2)
  | .CLK_GATE_REQ => s.gateRequest v
  | .PLL_LOCK_CFG => if i = 0 ∨ i = 3 then s.commitLockCfg i v else s
  | .PLL_APLL_CFG => s.apllRetune (.refMode (Fin.ofNat 4 (getBits v 0 2)))
  | .PLL_APLL_FREQ => s.apllRetune (.vcoKhz (v.setWidth 23))
  | .PLL_APLL_DIV => s.apllDiv (getBits v 0 8) (getBits v 8 8)
  | .PLL_SPLL_CFG => s.writeSpllCfg i v
  | .PLL_SPLL_PHASE => s.writePhase i (getBits v 0 11)
  | .PLL_AUX_CFG => s.writeAuxCfg i v
  | .PLL_AUX_DELAY => s.writeAuxDelay i v
  | .TLK_CTRL => s.writeTlkCtrl v
  | .TLK_DELAY_CFG => s.writeDelayCfg v
  | .TLK_ARM_MAP => s.writeArmMap i v
  | .GLN_CFG => s.writeGlnCfg v
  | .EVT_ENABLE => s.writeEvtEnable i v
  | .EVT_VEC_ACK => s.vecAck (getBits v 0 6)
  | .EVT_ROUTE => if (304 ≤ i ∧ i ≤ 367) ∨ evtValid i = false then s else s.writeRW .EVT_ROUTE i v
  | .DMA_Q_ABORT => if v.getLsbD 0 then s.abortQueue i else s
  | .DMA_Q_RING_LO => s.writeRingBase i .ringLo v
  | .DMA_Q_RING_HI => s.writeRingBase i .ringHi v
  | .DMA_Q_CPL_LO => s.writeRingBase i .cplLo v
  | .DMA_Q_CPL_HI => s.writeRingBase i .cplHi v
  | .DMA_Q_RING_SIZE => s.writeRingSize i v
  | .DMA_Q_TAIL => s.postDesc i (getBits v 0 13)
  | .DMA_Q_CPL_RD => (s.writeRW .DMA_Q_CPL_RD i v).noteBlocked
  | .MGT_MB_DOORBELL => s.doorbell (v.setWidth 8)
  | .MGT_MB_ACK => if v.getLsbD 0 then s.mbAck else s
  | .MGT_THR => s.writeThr i v
  | .PMU_FORCE_CFG => s.writeForceCfg i v
  | .PMU_FORCE_CODE => s.writeForce i (getBits v 0 18)
  | .PMU_MC_CFG => s.writeMcCfg i v
  | .PMU_INJ_REQ => if v.getLsbD 22 then s.inject i v s.time else s
  | .PMU_CAL_CTRL => if v.getLsbD 0 then s.requestCal i else s
  | .RAS_CTRL => s.writeRasCtrl v
  | .RAS_TIMING_H => s.writeTiming .timingH v
  | .RAS_TIMING_V => s.writeTiming .timingV v
  | .RAS_FMT => s.writeTiming .fmt v
  | .RAS_DSI_CFG => s.writeTiming .dsiCfg v
  | .RAS_DSI_CMD => s.dsiSend v
  | .RAS_BUF_REL => s.bufRelease (getBits v 0 4)
  | .RAS_REFRESH | .RAS_LAYER_CFG | .RAS_LAYER_POS | .RAS_LAYER_BUF => s.writeRasPending r.n i v
  | .RAS_BUF_ADDR_LO | .RAS_BUF_ADDR_HI | .RAS_BUF_GEOM | .RAS_BUF_PITCH =>
    if s.fld Fld.RAS_BUF_STATUS_STATE i = 0 then s.writeRW r.n i v else s
  | .AFE_CFG => (s.writeTerm i (getBits v 4 1)).writeRW .AFE_CFG i v
  | .AFE_VTT => s.writeVtt i (getBits v 0 12)
  | .ILV_CAL_CTRL => s.writeCalCtrl i v
  | .TRG_FORCE => s.force i (getBits v 0 4)
  | .SEG_RELEASE => s.release i v.toNat
  | .SEG_WMARK => (s.writeRW .SEG_WMARK i v).wmark i false
  | .MEM_CFG => let s1 := s.writeRW .MEM_CFG i v; if s1.pitched then s1 else s1.eccNow
  | n => if accMask n .RW = 0 then s else s.writeRW n i v

/-- A write of a register: one of a sleeping or an absent unit changes nothing (R34, R46, R259, R335). -/
def State.writeReg (s : State) (r : Reg) (v : Word) : State :=
  if s.regAsleep r || s.unitAbsent r then s
  else if r.n = .EVT_STATUS then s.writeEvtStatus r.i v
  else ((s.w1c r v).writeNow r v).shWrite r v

/-- The windows of BAR0 that are no registers: the load bank of a mask (cluster, word), an entry of the look-up table, a
word of the MSI-X table, a word of the pending-bit array (R269, R317, R360). -/
inductive Window where
  | mask (c w : Nat)
  | lut (k : Nat)
  | msix (k : Nat)
  | pba (k : Nat)
  deriving DecidableEq, Repr

/-- The window word at a BAR0 offset. -/
def windowAt (a : Nat) : Option Window :=
  if a % 4 ≠ 0 then none
  else if 0x804000 ≤ a ∧ a < 0x804400 then some (.lut ((a - 0x804000) / 4))
  else if 0x40F000 ≤ a ∧ a < 0x40F400 then some (.msix ((a - 0x40F000) / 4))
  else if 0x40F800 ≤ a ∧ a < 0x40F808 then some (.pba ((a - 0x40F800) / 4))
  else
    ((List.range 4).find? fun c => decide (Block.base c .cluster + 0x48000 ≤ a ∧ a < Block.base c .cluster + 0x4C000)).map
      fun c => .mask c ((a - Block.base c .cluster - 0x48000) / 4)

/-- The mask that the load window of cluster c shows (R269). -/
def State.windowMask (s : State) (c : Nat) : Nat := 8 * c + s.fld Fld.ACC_MASK_WSEL_MASK c

/-- A 32-bit write of BAR0: an offset that nothing names takes no effect (R6, R433). -/
def State.bar0Write (s : State) (a : Nat) (v : Word) : State :=
  match regAt a, windowAt a with
  | some r, _ => s.writeReg r v
  | none, some (.mask c w) => if s.clusterAsleep c then s else s.putMaskWord (s.windowMask c) w v
  | none, some (.lut k) => s.writeLut k v
  | none, some (.msix k) => s.writeMsix k v
  | none, _ => s

/-! ### Reads -/

/-- The latest pending value of a register's SH fields (R44). -/
def State.pendingSh (s : State) (r : Reg) : Option Word :=
  ((s.tick.sh.filter fun w => w.reg == r).getLast?).map ShWrite.val

/-- A lane of a connected channel is CAL_STALE (Table REG-3). -/
def State.staleAny (s : State) : Bool := (List.range 16).any fun n => s.stale n && !s.chanOff (s.firstLane n)

/-- HUB_GLOBAL_STATUS (R438). -/
def State.globalStatus (s : State) : Word :=
  let f (x lsb : Nat) : Word := BitVec.ofNat 32 (x * 2 ^ lsb)
  f (s.fld Fld.HUB_PITCH_STATUS_STATE 0) 0 ||| f (s.fld Fld.HUB_BOOT_STATUS_PHASE 0) 3 |||
  f (s.fld Fld.CLK_SRC_STATUS_ACTIVE 0) 6 ||| f (s.fld Fld.CLK_SRC_STATUS_NO_SOURCE 0) 8 |||
  f (s.fld Fld.TLK_STATUS_EPOCH_VALID 0) 9 ||| f (s.fld Fld.TLK_STATUS_RELOCK_STATE 0) 10 |||
  f (s.fld Fld.HUB_PWR_STATUS_DEVICE 0) 12 ||| f (s.fld Fld.HUB_PWR_STATUS_THERM_HOLD 0) 14 |||
  f (s.fld Fld.GLN_STATUS_ROLE 0) 17 ||| f (s.fld Fld.GLN_STATUS_HELD 0) 19 |||
  f (!s.tick.sh.isEmpty).toNat 20 |||
  f ((List.range 16).any fun w => (s.reg .EVT_STATUS w &&& s.reg .EVT_ENABLE w) != 0).toNat 21 |||
  f s.staleAny.toNat 22 |||
  f (s.flag Fld.HUB_BOOT_STATUS_M0_FAIL 0 || s.flag Fld.HUB_BOOT_STATUS_M1_FAIL 0).toNat 23 |||
  f (s.fld Fld.DMA_LINK_STATUS_GEN 0) 24 ||| f (s.fld Fld.DMA_LINK_STATUS_WIDTH 0) 28

/-- HUB_DIE_STATUS<e> (R438, Table REG-3). -/
def State.dieStatus (s : State) (e : Nat) : Word :=
  BitVec.ofNat 32 (1 + 2 * s.fld Fld.PLL_SPLL_STATUS_SETTLED e +
    4 * (if e = 0 then s.fld Fld.HUB_BOOT_STATUS_M0_OK 0 else s.fld Fld.HUB_BOOT_STATUS_M1_OK 0) +
    8 * (getBits (s.reg .HUB_PWR_STATUS 0) (8 + e) 1) + 65536 * s.fld Fld.MGT_SENSE_VALUE (1 + e))

/-- The live value of a register: what its bits stand at now, the bits that follow other state among them. -/
def State.liveReg (s : State) (r : Reg) : Word :=
  match r.n with
  | .HUB_GLOBAL_STATUS => s.globalStatus
  | .HUB_DIE_STATUS => s.dieStatus r.i
  | .HUB_TIME_LO => s.hubStamp.extractLsb' 0 32
  | .HUB_TIME_HI => s.hubStamp.extractLsb' 32 32
  | .HUB_FRAME_LO => s.frame.extractLsb' 0 32
  | .HUB_FRAME_HI => (s.frame.extractLsb' 32 16).setWidth 32
  | .HUB_SH_STATUS =>
    BitVec.ofNat 32 ((!s.tick.sh.isEmpty).toNat + 2 * (s.flag Fld.HUB_SH_CTRL_HOLD 0 && !s.tick.sh.isEmpty).toNat)
  | .EVT_ACTIVE => s.reg .EVT_STATUS r.i &&& s.reg .EVT_ENABLE r.i
  | .PLL_SPLL_RATE_NOW => w32 (s.rateInst r.i)
  | .TIC_GATE => w32 (max (s.fld Fld.TIC_PACE_NS r.i) (s.fld Fld.TIC_GATE_NS r.i))
  | .TIC_HOLDOFF => w32 (max (s.fld Fld.TIC_PACE_NS r.i) (s.fld Fld.TIC_HOLDOFF_NS r.i))
  | .PLL_SPLL_STATUS => putBits (s.reg .PLL_SPLL_STATUS r.i) 16 11 (unsgn 11 (s.ofsNow r.i))
  | n => s.reg n r.i

/-- What a latch holds (R436); 0 before the first read that loads it. -/
def latchGet : List (Reg × Word) → Reg → Word
  | [], _ => 0
  | (q, v) :: l, r => if q = r then v else latchGet l r

/-- What a read of a register returns: 0 for a sleeping unit (R34, R435), the latch for a register that a _LO read latches
(R436), the pending value for SH fields (R4, R44), 0 for WO fields. -/
def State.readVal (s : State) (r : Reg) : Word :=
  if s.regAsleep r then 0
  else if r.n.latched then latchGet s.latch r
  else
    let v := match s.pendingSh r with
      | some p => (s.liveReg r &&& ~~~(shMask r)) ||| (p &&& shMask r)
      | none => s.liveReg r
    v &&& ~~~(accMask r.n .WO)

/-- The state after a read of a register: a _LO read loads its latch, RC fields clear in the same access (R4, R436), and
the 48-bit count of HUB_LINK_BITS clears with its low half (Table DIA-3). -/
def State.afterRead (s : State) (r : Reg) : State :=
  if s.regAsleep r then s
  else
    let load (s : State) (n : RegName) : State :=
      let q : Reg := ⟨n, r.i⟩
      { s with latch := (q, s.liveReg q) :: s.latch.filter fun e => e.1 ≠ q }
    let s1 := r.n.latches.foldl load s
    let m := accMask r.n .RC
    let s2 := if m = 0 then s1 else s1.setReg r.n r.i (s1.reg r.n r.i &&& ~~~m)
    if r.n = .HUB_LINK_BITS_LO then s2.setReg .HUB_LINK_BITS_HI r.i 0 else s2

/-- A read of a register. A read of PMU_INJ_RES_TTS_LO takes the oldest record out first (R306). -/
def State.readReg (s : State) (r : Reg) : State :=
  if r.n = .PMU_INJ_RES_TTS_LO then (s.injPop r.i).afterRead r
  else (s.emit (.readData (s.readVal r))).afterRead r

/-- A word of a window, as a read returns it. -/
def State.windowVal (s : State) (w : Window) : Word :=
  match w with
  | .mask c k =>
    let m := s.windowMask c
    if s.clusterAsleep c then 0 else s.maskWord m (1 - s.fld Fld.ACC_MASK_CFG_BANK m) k
  | .lut k => tget 0#32 s.ras.lut (256 * s.fld Fld.RAS_LUT_SEL_LAYER 0 + k)
  | .msix k => s.msixWord k
  | .pba k => s.evt.pba.extractLsb' (32 * k) 32

/-- A 32-bit read of BAR0: an offset that nothing names reads 0 (R6). -/
def State.bar0Read (s : State) (a : Nat) : State :=
  match regAt a, windowAt a with
  | some r, _ => s.readReg r
  | none, some w => s.emit (.readData (s.windowVal w))
  | none, none => s.emit (.readData 0)

/-! ### Commands -/

/-- SH_WRITE (R43 to R47): a whole 32-bit write of BAR0, whose SH fields wait for their commit. -/
def execShWrite (t : Tu) (a : Bar0) (v : Word) (s : State) : Host.Outcome State Fault Refusal :=
  s.whenAccess t fun s => s.bar0Write a.toNat v

/-- REGISTER_WRITE: a write with partial byte enables is discarded (R333). -/
def execRegisterWrite (t : Tu) (a : Bar0) (be : BitVec 4) (v : Word) (s : State) : Host.Outcome State Fault Refusal :=
  s.whenAccess t fun s => if be = 15#4 then s.bar0Write a.toNat v else s

/-- W1C_CLEAR (R4): a whole 32-bit write of BAR0, whose W1C bits written with 1 clear. -/
def execW1cClear (t : Tu) (a : Bar0) (v : Word) (s : State) : Host.Outcome State Fault Refusal :=
  s.whenAccess t fun s => s.bar0Write a.toNat v

/-- READ_CLEAR (R4): a 32-bit read of BAR0; RC fields clear in the same access. -/
def execReadClear (t : Tu) (a : Bar0) (s : State) : Host.Outcome State Fault Refusal :=
  s.whenAccess t fun s => s.bar0Read a.toNat

/-- LATCHING_READ (R436): a 32-bit read, or a 64-bit read as two, low address first (R333). -/
def execLatchingRead (t : Tu) (a : Bar0) (wide : Bool) (s : State) : Host.Outcome State Fault Refusal :=
  s.whenAccess t fun s =>
    let s1 := s.bar0Read a.toNat
    if wide then s1.bar0Read (a.toNat + 4) else s1

end Sys2Proof.Machine
end

