-- ==== Sys2Proof/Machine/Dispatch.lean ====
section
/-! DEFINITION. What each command does: one arm for each constructor of `Instr`, each one direct call of the command's
meaning. -/

namespace Sys2Proof.Machine

/-- The effect of a command on everything but the queue of waiting commands. -/
def exec (i : Instr) (s : State) : Host.Outcome State Fault Refusal :=
  match i with
  | .frameTick host => Sys2Proof.Machine.execFrameTick host s
  | .internalCommitInstant => Sys2Proof.Machine.execInternalCommitInstant s
  | .shWrite t a v => Sys2Proof.Machine.execShWrite t a v s
  | .shHoldSet t => Sys2Proof.Machine.execShHoldSet t s
  | .shHoldClear t => Sys2Proof.Machine.execShHoldClear t s
  | .registerWrite t a be v => Sys2Proof.Machine.execRegisterWrite t a be v s
  | .w1cClear t a v => Sys2Proof.Machine.execW1cClear t a v s
  | .readClear t a => Sys2Proof.Machine.execReadClear t a s
  | .latchingRead t a wide => Sys2Proof.Machine.execLatchingRead t a wide s
  | .schedNone t slot late => Sys2Proof.Machine.execSchedNone t slot late s
  | .schedArm t slot late => Sys2Proof.Machine.execSchedArm t slot late s
  | .schedDisarm t slot late => Sys2Proof.Machine.execSchedDisarm t slot late s
  | .schedSync t slot late => Sys2Proof.Machine.execSchedSync t slot late s
  | .schedShRelease t slot late => Sys2Proof.Machine.execSchedShRelease t slot late s
  | .schedAccClear t slot late => Sys2Proof.Machine.execSchedAccClear t slot late s
  | .schedMark t slot late => Sys2Proof.Machine.execSchedMark t slot late s
  | .schedReserved t slot late k => Sys2Proof.Machine.execSchedReserved t slot late k s
  | .hostBudget t stall => Sys2Proof.Machine.execHostBudget t stall s
  | .streamAccept t q => Sys2Proof.Machine.execStreamAccept t q s
  | .linkBelowBudget t gen width => Sys2Proof.Machine.execLinkBelowBudget t gen width s
  | .stagedDelivery t q ue => Sys2Proof.Machine.execStagedDelivery t q ue s
  | .bootPitch t => Sys2Proof.Machine.execBootPitch t s
  | .mbPitchLoad t tag img => Sys2Proof.Machine.execMbPitchLoad t tag img s
  | .dryRun t tag img => Sys2Proof.Machine.execDryRun t tag img s
  | .mbPitchStore t tag flashOk => Sys2Proof.Machine.execMbPitchStore t tag flashOk s
  | .pitchApplyT1 host => Sys2Proof.Machine.execPitchApplyT1 host s
  | .pitchDrainTimeout host => Sys2Proof.Machine.execPitchDrainTimeout host s
  | .pitchApplyT2 host => Sys2Proof.Machine.execPitchApplyT2 host s
  | .partialPitchApply host => Sys2Proof.Machine.execPartialPitchApply host s
  | .clkSrcCfgWrite t v => Sys2Proof.Machine.execClkSrcCfgWrite t v s
  | .tlkEnableWrite t en => Sys2Proof.Machine.execTlkEnableWrite t en s
  | .relockActStep t => Sys2Proof.Machine.execRelockActStep t s
  | .relockActSlew t => Sys2Proof.Machine.execRelockActSlew t s
  | .tlkTick t m => Sys2Proof.Machine.execTlkTick t m s
  | .tlkSyncMsg t m => Sys2Proof.Machine.execTlkSyncMsg t m s
  | .tlkArmMsg t m => Sys2Proof.Machine.execTlkArmMsg t m s
  | .tlkDisarmMsg t m => Sys2Proof.Machine.execTlkDisarmMsg t m s
  | .tlkTrigMsg t m => Sys2Proof.Machine.execTlkTrigMsg t m s
  | .echoRsp t m => Sys2Proof.Machine.execEchoRsp t m s
  | .tlkStatusMsg t m => Sys2Proof.Machine.execTlkStatusMsg t m s
  | .tlkMsgDiscard t b => Sys2Proof.Machine.execTlkMsgDiscard t b s
  | .echoReq t => Sys2Proof.Machine.execEchoReq t s
  | .tlkLock t up => Sys2Proof.Machine.execTlkLock t up s
  | .tlkHiBer t => Sys2Proof.Machine.execTlkHiBer t s
  | .qualInterval t link refin => Sys2Proof.Machine.execQualInterval t link refin s
  | .clkSrcTrip t cause => Sys2Proof.Machine.execClkSrcTrip t cause s
  | .clkNoSource t => Sys2Proof.Machine.execClkNoSource t s
  | .tlkPhaseStep host => Sys2Proof.Machine.execTlkPhaseStep host s
  | .tlkSlewDone t => Sys2Proof.Machine.execTlkSlewDone t s
  | .clkMuxSelWrite t m sel => Sys2Proof.Machine.execClkMuxSelWrite t m sel s
  | .clkMuxSwitchDone t m => Sys2Proof.Machine.execClkMuxSwitchDone t m s
  | .clkMuxStuck t m => Sys2Proof.Machine.execClkMuxStuck t m s
  | .ctlMuxSwitch t toRc => Sys2Proof.Machine.execCtlMuxSwitch t toRc s
  | .mbClkmuxForce t tag => Sys2Proof.Machine.execMbClkmuxForce t tag s
  | .gateClose t node => Sys2Proof.Machine.execGateClose t node s
  | .gateForceClose t node => Sys2Proof.Machine.execGateForceClose t node s
  | .gateOpen t node => Sys2Proof.Machine.execGateOpen t node s
  | .gateQuiesceAck t => Sys2Proof.Machine.execGateQuiesceAck t s
  | .gateBusy t => Sys2Proof.Machine.execGateBusy t s
  | .jpllLock t err => Sys2Proof.Machine.execJpllLock t err s
  | .jpllLockLoss t first err => Sys2Proof.Machine.execJpllLockLoss t first err s
  | .jpllCfgWrite t v => Sys2Proof.Machine.execJpllCfgWrite t v s
  | .spllLockLoss t e first err => Sys2Proof.Machine.execSpllLockLoss t e first err s
  | .spllLock t e => Sys2Proof.Machine.execSpllLock t e s
  | .spllSettle t e => Sys2Proof.Machine.execSpllSettle t e s
  | .spllRelockRetry t e => Sys2Proof.Machine.execSpllRelockRetry t e s
  | .followDone t e => Sys2Proof.Machine.execFollowDone t e s
  | .spllAnchorReached t e => Sys2Proof.Machine.execSpllAnchorReached t e s
  | .spllPhaseWrite t e ofs => Sys2Proof.Machine.execSpllPhaseWrite t e ofs s
  | .apllRetune t w => Sys2Proof.Machine.execApllRetune t w s
  | .apllDivWrite t pix aux => Sys2Proof.Machine.execApllDivWrite t pix aux s
  | .apllLock t up first err => Sys2Proof.Machine.execApllLock t up first err s
  | .auxCfgWrite t n v => Sys2Proof.Machine.execAuxCfgWrite t n v s
  | .auxDelayWrite t n v => Sys2Proof.Machine.execAuxDelayWrite t n v s
  | .afeTermWrite t ch w => Sys2Proof.Machine.execAfeTermWrite t ch w s
  | .afeSettleEnd t ch => Sys2Proof.Machine.execAfeSettleEnd t ch s
  | .afeOvr t ch v core => Sys2Proof.Machine.execAfeOvr t ch v core s
  | .afeOverdrive t ch over4 => Sys2Proof.Machine.execAfeOverdrive t ch over4 s
  | .ovrHoldEnd t ch => Sys2Proof.Machine.execOvrHoldEnd t ch s
  | .afeCmWindow t ch cm => Sys2Proof.Machine.execAfeCmWindow t ch cm s
  | .calShadowStart t ln ofs gain => Sys2Proof.Machine.execCalShadowStart t ln ofs gain s
  | .shadowWindowEnd t ln m => Sys2Proof.Machine.execShadowWindowEnd t ln m s
  | .calPreloadStart t ln fit => Sys2Proof.Machine.execCalPreloadStart t ln fit s
  | .handover host => Sys2Proof.Machine.execHandover host s
  | .ilvCalCtrlWrite t ln v => Sys2Proof.Machine.execIlvCalCtrlWrite t ln v s
  | .mbCalSave t tag flashOk => Sys2Proof.Machine.execMbCalSave t tag flashOk s
  | .mbCalRestore t tag => Sys2Proof.Machine.execMbCalRestore t tag s
  | .mbCalInfo t tag => Sys2Proof.Machine.execMbCalInfo t tag s
  | .comparatorCrossing t ln lo rise tdcOff => Sys2Proof.Machine.execComparatorCrossing t ln lo rise tdcOff s
  | .trgForce t c bits => Sys2Proof.Machine.execTrgForce t c bits s
  | .trigInEdge t n rise => Sys2Proof.Machine.execTrigInEdge t n rise s
  | .trigOutPulse n => Sys2Proof.Machine.execTrigOutPulse n s
  | .regionReady m => Sys2Proof.Machine.execRegionReady m s
  | .regionFireDecision t m => Sys2Proof.Machine.execRegionFireDecision t m s
  | .segmentClose m runs => Sys2Proof.Machine.execSegmentClose m runs s
  | .rearmEnd m => Sys2Proof.Machine.execRearmEnd m s
  | .continuousBlock t m runs => Sys2Proof.Machine.execContinuousBlock t m runs s
  | .directoryWriteback t m => Sys2Proof.Machine.execDirectoryWriteback t m s
  | .segRelease t m n => Sys2Proof.Machine.execSegRelease t m n s
  | .memWbufHigh t c fill => Sys2Proof.Machine.execMemWbufHigh t c fill s
  | .stackTempRead t e temp => Sys2Proof.Machine.execStackTempRead t e temp s
  | .memUe t e a bar2 => Sys2Proof.Machine.execMemUe t e a bar2 s
  | .memScrubDone t e => Sys2Proof.Machine.execMemScrubDone t e s
  | .memBridge t e => Sys2Proof.Machine.execMemBridge t e s
  | .bar2Read t a len => Sys2Proof.Machine.execBar2Read t a len s
  | .bar2Write t a data => Sys2Proof.Machine.execBar2Write t a data s
  | .reductionOutput u xs => Sys2Proof.Machine.execReductionOutput u xs s
  | .syncCmdIssue t twin => Sys2Proof.Machine.execSyncCmdIssue t twin s
  | .syncInEdge t rise => Sys2Proof.Machine.execSyncInEdge t rise s
  | .syncAct t => Sys2Proof.Machine.execSyncAct t s
  | .maskViolation t k j x => Sys2Proof.Machine.execMaskViolation t k j x s
  | .accSnapshotDone t c => Sys2Proof.Machine.execAccSnapshotDone t c s
  | .ticTimeout n => Sys2Proof.Machine.execTicTimeout n s
  | .ticWindowEnd n => Sys2Proof.Machine.execTicWindowEnd n s
  | .ticGateEnd n => Sys2Proof.Machine.execTicGateEnd n s
  | .forceCodeWrite t n code => Sys2Proof.Machine.execForceCodeWrite t n code s
  | .forceEnableWrite t n v => Sys2Proof.Machine.execForceEnableWrite t n v s
  | .conversionReady t x m => Sys2Proof.Machine.execConversionReady t x m s
  | .pmuInjReq t x v => Sys2Proof.Machine.execPmuInjReq t x v s
  | .pmuCalReq t x => Sys2Proof.Machine.execPmuCalReq t x s
  | .pmuCalDone t x good => Sys2Proof.Machine.execPmuCalDone t x good s
  | .pmuMcCfgWrite t x v => Sys2Proof.Machine.execPmuMcCfgWrite t x v s
  | .pmuInjResPop t x => Sys2Proof.Machine.execPmuInjResPop t x s
  | .pmuTwinMiss t => Sys2Proof.Machine.execPmuTwinMiss t s
  | .rasVblank t p => Sys2Proof.Machine.execRasVblank t p s
  | .rasTimingWrite t r v => Sys2Proof.Machine.execRasTimingWrite t r v s
  | .pixelClockChange t w => Sys2Proof.Machine.execPixelClockChange t w s
  | .rasPixclkRestart t => Sys2Proof.Machine.execRasPixclkRestart t s
  | .teInEdge t => Sys2Proof.Machine.execTeInEdge t s
  | .rasTeLost t => Sys2Proof.Machine.execRasTeLost t s
  | .dsiCmdSend t v => Sys2Proof.Machine.execDsiCmdSend t v s
  | .dsiCmdDone t r => Sys2Proof.Machine.execDsiCmdDone t r s
  | .rasHfoDone t => Sys2Proof.Machine.execRasHfoDone t s
  | .rasUnderrun t n => Sys2Proof.Machine.execRasUnderrun t n s
  | .rasBufRel t b => Sys2Proof.Machine.execRasBufRel t b s
  | .descriptorPost t q idx => Sys2Proof.Machine.execDescriptorPost t q idx s
  | .ringBaseWrite t q r v => Sys2Proof.Machine.execRingBaseWrite t q r v s
  | .descriptorFetch t q ds => Sys2Proof.Machine.execDescriptorFetch t q ds s
  | .xferComplete t q ue => Sys2Proof.Machine.execXferComplete t q ue s
  | .queueDrained t q => Sys2Proof.Machine.execQueueDrained t q s
  | .queueAbort t q => Sys2Proof.Machine.execQueueAbort t q s
  | .hostReadError t r => Sys2Proof.Machine.execHostReadError t r s
  | .hostLinkReset t k => Sys2Proof.Machine.execHostLinkReset t k s
  | .evtStatusClear t w v => Sys2Proof.Machine.execEvtStatusClear t w v s
  | .evtEnableWrite t w v => Sys2Proof.Machine.execEvtEnableWrite t w v s
  | .evtDataRead t n => Sys2Proof.Machine.execEvtDataRead t n s
  | .evtVecAck t v => Sys2Proof.Machine.execEvtVecAck t v s
  | .vectorUnmask t v => Sys2Proof.Machine.execVectorUnmask t v s
  | .mbTwinAttach t tag => Sys2Proof.Machine.execMbTwinAttach t tag s
  | .mbTwinDetach t tag => Sys2Proof.Machine.execMbTwinDetach t tag s
  | .mbTwinTake t tag => Sys2Proof.Machine.execMbTwinTake t tag s
  | .hello t m => Sys2Proof.Machine.execHello t m s
  | .attachTimeout t => Sys2Proof.Machine.execAttachTimeout t s
  | .role t m => Sys2Proof.Machine.execRole t m s
  | .beat t m => Sys2Proof.Machine.execBeat t m s
  | .timeReq t m t3 => Sys2Proof.Machine.execTimeReq t m t3 s
  | .timeRsp t m => Sys2Proof.Machine.execTimeRsp t m s
  | .glnSync t m => Sys2Proof.Machine.execGlnSync t m s
  | .glnStep t m => Sys2Proof.Machine.execGlnStep t m s
  | .digest t m => Sys2Proof.Machine.execDigest t m s
  | .chsum t m => Sys2Proof.Machine.execChsum t m s
  | .glnPmu t m => Sys2Proof.Machine.execGlnPmu t m s
  | .take t m => Sys2Proof.Machine.execTake t m s
  | .detach t m => Sys2Proof.Machine.execDetach t m s
  | .glnMsgDiscard t m => Sys2Proof.Machine.execGlnMsgDiscard t m s
  | .glnCmpMiss t => Sys2Proof.Machine.execGlnCmpMiss t s
  | .glnLink t up => Sys2Proof.Machine.execGlnLink t up s
  | .twinPresChange t present => Sys2Proof.Machine.execTwinPresChange t present s
  | .glnFailDetect host => Sys2Proof.Machine.execGlnFailDetect host s
  | .glnTakeover host => Sys2Proof.Machine.execGlnTakeover host s
  | .heldQueueComplete t q => Sys2Proof.Machine.execHeldQueueComplete t q s
  | .mbInfo t tag => Sys2Proof.Machine.execMbInfo t tag s
  | .badCmd t tag => Sys2Proof.Machine.execBadCmd t tag s
  | .mbAck t => Sys2Proof.Machine.execMbAck t s
  | .mbLogRead t tag ok => Sys2Proof.Machine.execMbLogRead t tag ok s
  | .mbLogMark t tag => Sys2Proof.Machine.execMbLogMark t tag s
  | .mbFwInfo t tag => Sys2Proof.Machine.execMbFwInfo t tag s
  | .mbFwUpdate t tag img flashOk => Sys2Proof.Machine.execMbFwUpdate t tag img flashOk s
  | .mbFwActivate t tag => Sys2Proof.Machine.execMbFwActivate t tag s
  | .mbFwCommit t tag flashOk fuseOk => Sys2Proof.Machine.execMbFwCommit t tag flashOk fuseOk s
  | .mbFuseRead t tag => Sys2Proof.Machine.execMbFuseRead t tag s
  | .mbFuseProg t tag stuck => Sys2Proof.Machine.execMbFuseProg t tag stuck s
  | .mbPmbusXfer t tag r => Sys2Proof.Machine.execMbPmbusXfer t tag r s
  | .mbDebugChallenge t tag nonce => Sys2Proof.Machine.execMbDebugChallenge t tag nonce s
  | .mbDebugUnlock t tag resp => Sys2Proof.Machine.execMbDebugUnlock t tag resp s
  | .mgtWatchdog t => Sys2Proof.Machine.execMgtWatchdog t s
  | .basecampRestartDone t => Sys2Proof.Machine.execBasecampRestartDone t s
  | .trialTimeout t => Sys2Proof.Machine.execTrialTimeout t s
  | .sensorSample t v => Sys2Proof.Machine.execSensorSample t v s
  | .logSummary t => Sys2Proof.Machine.execLogSummary t s
  | .logFlush t flashOk => Sys2Proof.Machine.execLogFlush t flashOk s
  | .pmbusPoll t r => Sys2Proof.Machine.execPmbusPoll t r s
  | .smbStatus t pec => Sys2Proof.Machine.execSmbStatus t pec s
  | .smbAlertMask t pec w => Sys2Proof.Machine.execSmbAlertMask t pec w s
  | .smbSense t pec n => Sys2Proof.Machine.execSmbSense t pec n s
  | .smbMbReq t pec tag cmd args r => Sys2Proof.Machine.execSmbMbReq t pec tag cmd args r s
  | .smbMbResp t pec => Sys2Proof.Machine.execSmbMbResp t pec s
  | .smbLogEntry t pec seq => Sys2Proof.Machine.execSmbLogEntry t pec seq s
  | .powerOn => Sys2Proof.Machine.execPowerOn s
  | .rstNAssert => Sys2Proof.Machine.execRstNAssert s
  | .resetRelease => Sys2Proof.Machine.execResetRelease s
  | .brownout => Sys2Proof.Machine.execBrownout s
  | .stackTrainingDone t e ok => Sys2Proof.Machine.execStackTrainingDone t e ok s
  | .clusterSleep t c busy => Sys2Proof.Machine.execClusterSleep t c busy s
  | .clusterWake t c => Sys2Proof.Machine.execClusterWake t c s
  | .engineSleep t e busy => Sys2Proof.Machine.execEngineSleep t e busy s
  | .engineWake t e => Sys2Proof.Machine.execEngineWake t e s
  | .standby t busy => Sys2Proof.Machine.execStandby t busy s
  | .exitStandby t span => Sys2Proof.Machine.execExitStandby t span s
  | .thermalCheck t v => Sys2Proof.Machine.execThermalCheck t v s
  | .thermalTrip t n v => Sys2Proof.Machine.execThermalTrip t n v s
  | .linkDiagWrite t l v => Sys2Proof.Machine.execLinkDiagWrite t l v s
  | .inject t l => Sys2Proof.Machine.execInject t l s
  | .checkerLock t l lock bits errs => Sys2Proof.Machine.execCheckerLock t l lock bits errs s
  | .bistStart t unit => Sys2Proof.Machine.execBistStart t unit s
  | .bistDone t pass detail => Sys2Proof.Machine.execBistDone t pass detail s
  | .jtagInstruction t ins => Sys2Proof.Machine.execJtagInstruction t ins s
  | .clkinEdge t rise => Sys2Proof.Machine.execClkinEdge t rise s
  | .samplePlacement t p j x => Sys2Proof.Machine.execSamplePlacement t p j x s
  | .memCe t e => Sys2Proof.Machine.execMemCe t e s
  | .debugHalt t => Sys2Proof.Machine.execDebugHalt t s
  | .mgtBoot t => Sys2Proof.Machine.execMgtBoot t s
  | .powerOff => Sys2Proof.Machine.execPowerOff s
  | .perstNRelease t => Sys2Proof.Machine.execPerstNRelease t s
  | .linkBackToBudget t gen width => Sys2Proof.Machine.execLinkBackToBudget t gen width s
  | .apllFeedResume t => Sys2Proof.Machine.execApllFeedResume t s
  | .tlkHiBerClear t => Sys2Proof.Machine.execTlkHiBerClear t s
  | .carriedSyncSend t => Sys2Proof.Machine.execCarriedSyncSend t s

end Sys2Proof.Machine
end

