-- ==== Sys2Proof/Safety.lean ====
section
/-! DEFINITION. What claims about the device are stated with: the invariant that every step keeps, and what it means
that a command leaves the rest of the device alone. -/

namespace Sys2Proof.Machine

/-- The registers whose every bit the manual fixes: identity and capabilities (Table REG-2). -/
def hardWired : RegName → Bool
  | .HUB_ID | .HUB_REV | .HUB_JTAG_ID | .HUB_CAPS | .HUB_DIE_ID => true
  | _ => false

/-- The invariant: the register file and the memory of the stacks are in canonical form, and no hard-wired register
differs from the value the manual gives it. -/
def State.Inv (s : State) : Prop :=
  (regsWf s.regs = true ∧ (s.regs.all fun e => !hardWired e.1.n) = true) ∧ Memory.wf s.mem = true

/-- Memory reads as before at every address. -/
def sameMem (s t : State) : Prop := ∀ a, memGet t.mem a = memGet s.mem a

/-- Every register but the named ones reads as before. -/
def sameRegs (s t : State) (but : List Reg) : Prop := ∀ n i, (⟨n, i⟩ : Reg) ∉ but → t.reg n i = s.reg n i

/-- A command changes no register but the named ones, and no byte of memory. -/
def onlyRegs (s t : State) (but : List Reg) : Prop := sameRegs s t but ∧ sameMem s t

/-- The registers that raising and delivering events may change: status, data and counts of the sources, the armed
vectors, the log's numbers and the merge counts of TRIG_OUT (R206, R350, R356, R395). -/
def eventReg : RegName → Bool
  | .EVT_STATUS | .EVT_DATA | .EVT_CNT | .EVT_VEC_ARMED_LO | .EVT_VEC_ARMED_HI | .MGT_LOG_SEQ | .MGT_LOG_DROP
  | .HUB_TRIG_OUT_MERGED => true
  | _ => false

/-- STATUS, data and count of a source are as before. -/
def sameSource (s t : State) (k : Nat) : Prop :=
  t.evtStatus k = s.evtStatus k ∧ t.reg .EVT_DATA k = s.reg .EVT_DATA k ∧ t.reg .EVT_CNT k = s.reg .EVT_CNT k

/-- The sources that a raise may itself raise: EV260 to EV263, which tell that pulses of a TRIG_OUT line have begun to merge
(R206, Table TRG-9), and EV466, which tells that the log has begun to drop entries (Table MGT-10). -/
def followsRaise (k : Nat) : Bool := (260 ≤ k && k ≤ 263) || k == 466

/-- A command changes no register but the named ones and those of the events it raises, no source but the named ones
(and those that a raise may itself raise), and no byte of memory. -/
def onlyRaising (s t : State) (but : List Reg) (srcs : List Nat) : Prop :=
  (∀ n i, (⟨n, i⟩ : Reg) ∉ but → eventReg n = false → t.reg n i = s.reg n i) ∧
    (∀ k, k ∉ srcs → followsRaise k = false → sameSource s t k) ∧ sameMem s t

end Sys2Proof.Machine
end

