-- ==== Sys2Proof/Certificates/Slice0/Obligations.lean ====
section
/-! DEFINITION. The statements for the provers. A clause about a command says, for every state and operands that meet
its hypotheses, that the command answers a next state, what that state holds, and what it leaves alone. `s.at t` is the
state at the instant of the command, `s.nowAt t` that state as a BAR0 access finds it: what waited for an instant that has
come has taken place. -/

open Sys2Proof Sys2Proof.Machine

/-! ### The machine -/

/-- A step runs the command at the front of the queue on the rest of it, and idles on an empty queue (the model's
choice, log 9). -/
def Obligations.StepRunsFrontCommand : Prop :=
  (∀ (c : Instr) (rest : List Instr) (s : State), s.pending = c :: rest → step s = exec c { s with pending := rest }) ∧
    ∀ s : State, s.pending = [] → step s = .next s

/-- The invariant holds at reset. -/
def Obligations.ResetMeetsInvariant : Prop := State.reset.Inv

/-- Every step keeps the invariant: register file and memory in canonical form, identification registers at the values
of Table REG-2 (R437). -/
def Obligations.EveryStepKeepsInvariant : Prop := ∀ s t : State, s.Inv → step s = .next t → t.Inv

/-- Every command answers a next state, from every state that meets the invariant, and leaves the queue of waiting
commands as it is. -/
def Obligations.EveryCommandCompletes : Prop :=
  ∀ (c : Instr) (s : State), s.Inv → ∃ t, exec c s = .next t ∧ t.pending = s.pending

/-- Reset (R26, R347, R349, R356, R387, R407, R435, R439): local time 0, no image (UNPITCHED, K 10), an empty queue,
nothing that waits for a tick, HUB_SCRATCH 0, HUB_RESET_CAUSE telling a power-on reset, the JTAG identification, no STATUS
and no ENABLE bit of a source, every vector armed, the mailbox IDLE, every queue of the host link disabled, and memory
that reads 0 (the model's choice, log 7). -/
def Obligations.ResetLeaves : Prop :=
  let s := State.reset
  s.time = 0 ∧ s.pitched = false ∧ s.pending = [] ∧ s.tick.sh = [] ∧ s.tick.caps = [] ∧ s.tick.bcasts = [] ∧
    s.tick.syncCmds = [] ∧ s.pitch.accepted = none ∧ s.tlk.step = none ∧
    s.fld Fld.HUB_PITCH_STATUS_STATE 0 = 0 ∧ s.fld Fld.HUB_TICK_CFG_K 0 = 10 ∧ s.reg .HUB_SCRATCH 0 = 0 ∧
    s.fld Fld.HUB_RESET_CAUSE_POR 0 = 1 ∧ s.reg .HUB_JTAG_ID 0 = 0x51632967#32 ∧
    (∀ w, w < 16 → s.reg .EVT_STATUS w = 0 ∧ s.reg .EVT_ENABLE w = 0) ∧
    (∀ v, v < 64 → s.vecArmed v = true) ∧ s.fld Fld.MGT_MB_STATE_STATE 0 = 0 ∧
    (∀ q, q < 64 → s.fld Fld.DMA_Q_CTRL_EN q = 0) ∧ ∀ a, memGet s.mem a = 0

/-! ### Access to registers, shadowed registers, schedule slots (chapters 00, 02, 21) -/

/-- The hub registers that a write changes by their RW bits alone: nothing else follows from it. -/
def storedOnly : List RegName :=
  [.HUB_SCRATCH, .HUB_SYNC_CFG, .HUB_TRIG_IN_CFG, .HUB_TRIG_OUT_CFG, .HUB_SCHED_FRAME_LO, .HUB_SCHED_FRAME_HI,
   .HUB_SCHED_ARG, .CLK_QUAL, .CLK_MON, .PLL_JPLL_CFG, .TLK_RELOCK, .TLK_MARK, .TLK_TRIG_EN, .TLK_SITE, .TLK_PHY,
   .GLN_ALIGN, .GLN_FAIL, .GLN_CMP_CFG, .GLN_CMP_TOL, .MGT_MB_CMD, .MGT_MB_ARG]

/-- REGISTER_WRITE (R4, R333): a write of a register that only stores changes its RW bits and nothing else; one whose
byte enables do not name the whole word changes nothing. -/
def Obligations.RegisterWriteStores : Prop :=
  ∀ (s : State) (t : Tu) (a : Bar0) (be : BitVec 4) (v : Word), s.hostUp = true →
    (∀ r, regAt a.toNat = some r → r.n ∈ storedOnly → be = 15#4 →
      ∃ u, exec (.registerWrite t a be v) s = .next u ∧
        u.reg r.n r.i = ((s.nowAt t).reg r.n r.i &&& ~~~(accMask r.n .RW)) ||| (v &&& accMask r.n .RW) ∧
        onlyRegs (s.nowAt t) u [r]) ∧
    (be ≠ 15#4 → exec (.registerWrite t a be v) s = .next (s.nowAt t))

/-- The register has SH fields and no field that a write changes at once. -/
def shadowedOnly (r : Reg) : Prop :=
  shMask r ≠ 0 ∧ accMask r.n .RW = 0 ∧ accMask r.n .W1C = 0 ∧ accMask r.n .WO = 0

/-- SH_WRITE (R43, R44, R46, R76): the value waits, a read returns it, and the register's value in force is unchanged; a
write to a sleeping or an absent unit is ignored, and so is one of SEG_ARM from T1 to T2 of a full pitch. -/
def shadowedWriteWaits : Prop :=
  ∀ (s : State) (t : Tu) (a : Bar0) (v : Word) (r : Reg), s.hostUp = true → regAt a.toNat = some r → shadowedOnly r →
    let x := s.nowAt t
    (x.regAsleep r = false → x.unitAbsent r = false →
      (r.n ≠ .SEG_ARM ∨ x.fld Fld.HUB_PITCH_STATUS_STATE 0 ≠ 2) →
      ∃ u, exec (.shWrite t a v) s = .next u ∧ u.pendingSh r = some (x.shLimit r v &&& shMask r) ∧
        u.readVal r &&& shMask r = x.shLimit r v &&& shMask r ∧ onlyRegs x u []) ∧
    (x.regAsleep r = true ∨ x.unitAbsent r = true ∨ (r.n = .SEG_ARM ∧ x.fld Fld.HUB_PITCH_STATUS_STATE 0 = 2) →
      exec (.shWrite t a v) s = .next x)

/-- SH_HOLD_SET, SH_HOLD_CLEAR (R45): HOLD is as written, and nothing waiting commits or is dropped by the write. -/
def holdIsWritten : Prop :=
  ∀ (s : State) (t : Tu), s.hostUp = true →
    (∃ u, exec (.shHoldSet t) s = .next u ∧ u.fld Fld.HUB_SH_CTRL_HOLD 0 = 1 ∧ u.tick.sh = s.tick.sh ∧
      onlyRegs s u [⟨.HUB_SH_CTRL, 0⟩]) ∧
    ∃ u, exec (.shHoldClear t) s = .next u ∧ u.fld Fld.HUB_SH_CTRL_HOLD 0 = 0 ∧ u.tick.sh = s.tick.sh ∧
      onlyRegs s u [⟨.HUB_SH_CTRL, 0⟩]

/-- Shadowed values wait, and HOLD is written, as the rules say. -/
def Obligations.ShadowedValuesWait : Prop := shadowedWriteWaits ∧ holdIsWritten

/-- The register has W1C fields and none that a write changes otherwise. -/
def clearedOnly (n : RegName) : Prop :=
  n ≠ .EVT_STATUS ∧ accMask n .W1C ≠ 0 ∧ accMask n .RW = 0 ∧ accMask n .WO = 0 ∧ accMask n .SH = 0

/-- W1C_CLEAR and READ_CLEAR (R4): a W1C bit written with 1 clears, and the others keep their value; a read of a register
with RC fields returns them and clears them in the same access. -/
def writeOneAndReadClear : Prop :=
  ∀ (s : State) (t : Tu) (a : Bar0) (r : Reg), s.hostUp = true → regAt a.toNat = some r →
    let x := s.nowAt t
    x.regAsleep r = false →
    (∀ v : Word, clearedOnly r.n → x.unitAbsent r = false → ∃ u, exec (.w1cClear t a v) s = .next u ∧
      u.reg r.n r.i = x.reg r.n r.i &&& ~~~(accMask r.n .W1C &&& v) ∧ onlyRegs x u [r]) ∧
    (accMask r.n .RC ≠ 0 → r.n.latches = [] →
      ∃ u, exec (.readClear t a) s = .next u ∧ u.out = .readData (x.reg r.n r.i) :: x.out ∧
        u.reg r.n r.i = x.reg r.n r.i &&& ~~~(accMask r.n .RC) ∧ onlyRegs x u [r])

/-- LATCHING_READ (R436, R439): a read of HUB_TIME_LO returns the low half of local time, truncated to a multiple of
32,768 tu, and latches its high half; a read of HUB_TIME_HI at any later instant returns that latched half. HUB_FRAME_LO
and HUB_FRAME_HI are read alike. -/
def latchedReadsMatch : Prop :=
  ∀ (s : State) (t t' : Tu), s.Inv → s.hostUp = true →
    (∃ x : Tu, x.toNat = (s.at t).time.toNat / 32768 * 32768 ∧
      ∃ u, exec (.latchingRead t 0x24#26 false) s = .next u ∧
        u.out = .readData (x.extractLsb' 0 32) :: (s.nowAt t).out ∧ onlyRegs (s.nowAt t) u [] ∧
        ∃ w, exec (.latchingRead t' 0x28#26 false) u = .next w ∧
          w.out = .readData (x.extractLsb' 32 32) :: (u.nowAt t').out ∧ onlyRegs (u.nowAt t') w []) ∧
    ∃ u, exec (.latchingRead t 0x104#26 false) s = .next u ∧
      u.out = .readData (s.frame.extractLsb' 0 32) :: (s.nowAt t).out ∧ onlyRegs (s.nowAt t) u [] ∧
      ∃ w, exec (.latchingRead t' 0x108#26 false) u = .next w ∧
        w.out = .readData ((s.frame.extractLsb' 32 16).setWidth 32) :: (u.nowAt t').out ∧ onlyRegs (u.nowAt t') w []

/-- Accesses clear and latch as the rules say. -/
def Obligations.AccessesClearAndLatch : Prop := writeOneAndReadClear ∧ latchedReadsMatch

/-- No field of the register takes a write: each is RO, RC or LK (R4). -/
def takesNoWrite (n : RegName) : Prop :=
  accMask n .RW = 0 ∧ accMask n .W1C = 0 ∧ accMask n .WO = 0 ∧ accMask n .SH = 0

/-- Nothing lies at a BAR0 offset: no register, and no word of a window. -/
def unmapped (a : Bar0) : Prop := regAt a.toNat = none ∧ windowAt a.toNat = none

/-- The writes of R6 (REGISTER_WRITE, SH_WRITE, W1C_CLEAR): a write of a register that takes none, of the pending-bit array
(R360) or of an offset at which nothing lies completes and changes nothing of the state that it finds; a read of such an
offset returns 0. -/
def Obligations.FixedLocationsIgnoreWrites : Prop :=
  ∀ (s : State) (t : Tu) (a : Bar0) (v : Word), s.hostUp = true →
    ((∃ r, regAt a.toNat = some r ∧ takesNoWrite r.n) ∨ (regAt a.toNat = none ∧ ∃ k, windowAt a.toNat = some (.pba k)) ∨
        unmapped a →
      exec (.registerWrite t a 15#4 v) s = .next (s.nowAt t) ∧ exec (.shWrite t a v) s = .next (s.nowAt t) ∧
        exec (.w1cClear t a v) s = .next (s.nowAt t)) ∧
    (unmapped a →
      (∃ u, exec (.readClear t a) s = .next u ∧ u.out = .readData 0 :: (s.nowAt t).out ∧ onlyRegs (s.nowAt t) u []) ∧
      ∃ u, exec (.latchingRead t a false) s = .next u ∧ u.out = .readData 0 :: (s.nowAt t).out ∧
        onlyRegs (s.nowAt t) u [])

/-- A write of a register with SH fields of a sleeping cluster or engine die (R46): it changes nothing of the state that it
finds, so nothing waits for it, and HOLD holds nothing of it. -/
def Obligations.SleepingUnitsDropShadowedWrites : Prop :=
  ∀ (s : State) (t : Tu) (a : Bar0) (v : Word) (r : Reg), s.hostUp = true → regAt a.toNat = some r → shMask r ≠ 0 →
    (r.n.place.block = .cluster ∧ (s.nowAt t).clusterAsleep (r.i / r.n.place.per) = true) ∨
        (r.n.place.block = .seg ∧ (s.nowAt t).dieAsleep (r.i / r.n.place.per) = true) →
      exec (.shWrite t a v) s = .next (s.nowAt t) ∧ exec (.registerWrite t a 15#4 v) s = .next (s.nowAt t)

/-- What a write of HUB_SCHED_CMD<slot> captures, and the slot's STATUS after it (R49, R50). -/
def slotWritten (s u : State) (t : Tu) (slot : Fin 32) (cmd status : Nat) (late : Bool) : Prop :=
  (∃ c, (tget [] u.tick.caps slot.val).getLast? = some c ∧ c.cmd = cmd ∧ c.late = late ∧
    c.frame = s.frameOf .HUB_SCHED_FRAME_LO .HUB_SCHED_FRAME_HI slot ∧ c.arg = s.reg .HUB_SCHED_ARG slot ∧
    c.stamp = (s.at t).hubStamp) ∧
  u.fld Fld.HUB_SCHED_STATUS_STATUS slot = status ∧ u.fld Fld.HUB_SCHED_CMD_CMD slot = cmd ∧
  onlyRegs s u [⟨.HUB_SCHED_CMD, slot⟩, ⟨.HUB_SCHED_STATUS, slot⟩]

/-- SCHED_NONE to SCHED_MARK and SCHED_RESERVED (R49, R50): the write captures command, policy, frame and argument, and
the slot's STATUS shows EMPTY, PENDING or REFUSED. -/
def Obligations.SlotCapturesCommand : Prop :=
  ∀ (s : State) (t : Tu) (slot : Fin 32) (late : Bool), s.hostUp = true →
    (∃ u, exec (.schedNone t slot late) s = .next u ∧ slotWritten s u t slot 0 0 late) ∧
    (∃ u, exec (.schedArm t slot late) s = .next u ∧ slotWritten s u t slot 1 1 late) ∧
    (∃ u, exec (.schedDisarm t slot late) s = .next u ∧ slotWritten s u t slot 2 1 late) ∧
    (∃ u, exec (.schedSync t slot late) s = .next u ∧ slotWritten s u t slot 3 1 late) ∧
    (∃ u, exec (.schedShRelease t slot late) s = .next u ∧ slotWritten s u t slot 4 1 late) ∧
    (∃ u, exec (.schedAccClear t slot late) s = .next u ∧ slotWritten s u t slot 5 1 late) ∧
    (∃ u, exec (.schedMark t slot late) s = .next u ∧ slotWritten s u t slot 6 1 late) ∧
    ∀ k : Fin 9, ∃ u, exec (.schedReserved t slot late k) s = .next u ∧ slotWritten s u t slot (7 + k) 5 late

/-! ### Ticks and the pitch image (chapters 02, 03) -/

/-- The device runs with an image in force and no STEP pending, and the tick that comes next is issued and begins frame
`f` (R35, R37, R38). -/
def plainTick (s : State) (f : Frame) : Prop :=
  s.alive = true ∧ s.pitched = true ∧ s.standby = false ∧ s.tlk.step = none ∧
    ((s.tick.issued = true ∧ f = frameAt s.k s.frame s.nextGrid ∧ frameFuture s.frame f = true) ∨
      (s.tick.issued = false ∧ f = BitVec.ofNat 48 (s.nextGrid.toNat / s.period)))

/-- After the instant no SH value waits that its snapshot holds: none that was written 64 ns or more before it (R43). -/
def snapshotCommitted (u : State) : Prop := ∀ w ∈ u.tick.sh, tuLe (tuAdd w.stamp (ns 64)) u.time = false

/-- FRAME_TICK, INTERNAL_COMMIT_INSTANT (R35, R37, R43, R47): local time reaches the next multiple of the tick period, and
the frame of the tick that R27 gives it begins; without an image it reaches the next multiple of 2²³ tu, and no frame
begins. At either, where HOLD has been 0, no SH value of the instant's snapshot waits any longer. -/
def ticksFollowTheGrid : Prop :=
  (∀ (s : State) (f : Frame) (host : List HostRead), s.Inv → plainTick s f →
    ∃ u, exec (.frameTick host) s = .next u ∧ u.time = s.nextGrid ∧ u.frame = f ∧ u.tick.issued = true ∧
      s.nextGrid.toNat % 2 ^ (s.k + 13) = 0 ∧ ((∀ x ∈ s.tick.hold, x.2 = false) → snapshotCommitted u)) ∧
  ∀ s : State, s.Inv → s.alive = true → s.pitched = false → s.standby = false → s.pitch.accepted = none →
    ∃ u, exec .internalCommitInstant s = .next u ∧ u.time = s.nextGrid ∧ u.frame = s.frame ∧ u.pitched = false ∧
      s.nextGrid.toNat % 2 ^ 23 = 0 ∧ ((∀ x ∈ s.tick.hold, x.2 = false) → snapshotCommitted u)

/-- TLK_PHASE_STEP (R37, R100): a pending STEP is made at the tick. Forward, the time base jumps on and a new frame
begins there; backward, it jumps back and the frame goes on. HUB_TICK_STATUS.STEPPED is set and EV036 raised. -/
def stepMovesTheTimeBase : Prop :=
  ∀ (s : State) (host : List HostRead) (e : Int), s.Inv → s.alive = true → s.pitched = true → s.standby = false →
    s.tlk.step = some e → s.tlk.stepFrame = none → s.fld Fld.EVT_ROUTE_KIND 36 ≠ 1 →
    ∃ u, exec (.tlkPhaseStep host) s = .next u ∧ u.tlk.step = none ∧ u.time = tuMove (-e) s.nextGrid ∧
      u.fld Fld.HUB_TICK_STATUS_STEPPED 0 = 1 ∧ u.evtStatus 36 = true ∧
      (0 < e → u.frame = s.frame) ∧ (e ≤ 0 → u.frame = frameAt s.k s.frame (tuMove (-e) s.nextGrid))

/-- Local time follows the grid of ticks, and a STEP moves it. -/
def Obligations.TimeFollowsTheGrid : Prop := ticksFollowTheGrid ∧ stepMovesTheTimeBase

/-- PITCH_APPLY_T1, PITCH_DRAIN_TIMEOUT, PITCH_APPLY_T2, PARTIAL_PITCH_APPLY (R76, R80): the ticks at which the apply of an
accepted full image begins, at which the drain ends at its limit of 64 frames, and at which the image takes force; and the
tick at which a partial image takes force on an idle cluster. -/
def Obligations.ImagesApplyAtTicks : Prop :=
  ∀ (s : State) (f : Frame) (host : List HostRead) (a : Accepted), s.Inv → plainTick s f → s.pitch.accepted = some a →
    (a.cluster = none → s.pitch.t1 = none → tuLe (tuAdd a.at_ (ns 64)) s.nextGrid = true →
      ∃ u, exec (.pitchApplyT1 host) s = .next u ∧ u.pitch.t1 = some f ∧ u.fld Fld.HUB_PITCH_STATUS_STATE 0 = 2 ∧
        u.pitch.recs = s.pitch.recs ∧ u.frame = f ∧ u.time = s.nextGrid) ∧
    (∀ f0, s.pitch.t1 = some f0 → s.pitch.drained = false → s.drainedAll = false → s.gln.deposed = false →
      64 ≤ (f - f0).toNat →
      ∃ u, exec (.pitchDrainTimeout host) s = .next u ∧ u.pitch.drained = true ∧ u.pitch.t1 = some f0 ∧
        u.pitch.recs = s.pitch.recs ∧ u.frame = f ∧ u.time = s.nextGrid) ∧
    (∀ f0, s.pitch.t1 = some f0 → s.pitch.drained = true → a.hdr ≠ [] →
      ∃ u, exec (.pitchApplyT2 host) s = .next u ∧ u.pitch.t1 = none ∧ u.pitch.accepted = none ∧
        u.pitch.recs = a.recs ∧ u.pitch.hdr = a.hdr ∧ u.fld Fld.HUB_PITCH_STATUS_STATE 0 = 3 ∧
        u.fld Fld.HUB_TICK_CFG_K 0 = hdrK a.hdr % 16 ∧ u.frame = f ∧ u.time = s.nextGrid) ∧
    ∀ c, a.cluster = some c → c < 4 → s.pitch.t1 = none → tuLe (tuAdd a.at_ (ns 64)) s.nextGrid = true →
      s.clusterIdle c a.recs = true →
      ∃ u, exec (.partialPitchApply host) s = .next u ∧ u.pitch.accepted = none ∧
        u.pitch.recs = recMerge s.pitch.recs a.recs ∧ u.pitch.hdr = s.pitch.hdr ∧
        (u.fld Fld.HUB_PITCH_PARTIAL_CL_MASK 0).testBit c = true ∧ u.frame = f ∧ u.time = s.nextGrid

/-- The host mailbox is IDLE, Basecamp runs, and MGT_MB_CMD holds the code (R387). -/
def boxReady (s : State) (cmd : Nat) : Prop :=
  s.hostUp = true ∧ s.mgt.run = 1 ∧ s.fld Fld.MGT_MB_CMD_CMD 0 = cmd ∧ s.fld Fld.MGT_MB_STATE_STATE 0 = 0

/-- The command of the host mailbox has ended: DONE, its tag, its status, and EV456 where Basecamp does not take it
itself (R387 item 3). -/
def boxDone (s u : State) (tag : Byte) (status : Nat) : Prop :=
  u.fld Fld.MGT_MB_STATE_STATE 0 = 2 ∧ u.fld Fld.MGT_MB_STATE_TAG 0 = tag.toNat ∧
    u.fld Fld.MGT_MB_STATE_STATUS 0 = status ∧ (s.fld Fld.EVT_ROUTE_KIND 456 ≠ 1 → u.evtStatus 456 = true)

/-- The registers of the host mailbox that a command changes. -/
def boxRegs : List Reg := ⟨.MGT_MB_STATE, 0⟩ :: (List.range 8).map fun a => ⟨.MGT_MB_RES, a⟩

/-- MB_PITCH_LOAD, DRY_RUN, MB_PITCH_STORE (R74, R75, R81): an image that passes the checks is accepted, and nothing of
the image in force changes yet; a dry run stops at the verdict; a refusal reports its code and detail and raises EV462;
a store writes the slot of flash. -/
def pitchCommandsReport : Prop :=
  ∀ (s : State) (t : Tu) (tag : Byte) (x : List Byte),
    (boxReady s 0x10 → s.pitchBusy = false → 64 ≤ argAt s.mbArgs 2 → argAt s.mbArgs 2 ≤ 1048576 →
      (∀ h rs, s.judgeImage (x.take (argAt s.mbArgs 2)) = .accept h rs →
        (argAt s.mbArgs 3 % 2 = 0 → ∃ u a, exec (.mbPitchLoad t tag (some x)) s = .next u ∧
          u.pitch = { s.pitch with accepted := some a } ∧ a.hdr = h ∧ a.recs = rs ∧ a.at_ = (s.at t).time ∧
          u.fld Fld.HUB_PITCH_STATUS_RESULT 0 = 0 ∧ boxDone s u tag mbOk ∧
          onlyRaising s u (⟨.HUB_PITCH_STATUS, 0⟩ :: boxRegs) [456]) ∧
        (argAt s.mbArgs 3 % 2 = 1 → ∃ u, exec (.dryRun t tag (some x)) s = .next u ∧ u.pitch = s.pitch ∧
          u.fld Fld.HUB_PITCH_STATUS_RESULT 0 = 0 ∧ boxDone s u tag mbOk ∧
          onlyRaising s u (⟨.HUB_PITCH_STATUS, 0⟩ :: boxRegs) [456])) ∧
      ∀ code detail, s.judgeImage (x.take (argAt s.mbArgs 2)) = .refuse code detail →
        ∃ u, exec (.mbPitchLoad t tag (some x)) s = .next u ∧ u.pitch = s.pitch ∧
          u.fld Fld.HUB_PITCH_STATUS_RESULT 0 = code % 256 ∧ u.fld Fld.HUB_PITCH_STATUS_DETAIL 0 = detail % 65536 ∧
          u.reg .MGT_MB_RES 0 = w32 (code + detail * 65536) ∧ boxDone s u tag 0x40 ∧
          (s.fld Fld.EVT_ROUTE_KIND 462 ≠ 1 → u.evtStatus 462 = true) ∧
          onlyRaising s u (⟨.HUB_PITCH_STATUS, 0⟩ :: boxRegs) [456, 462]) ∧
    (boxReady s 0x11 → s.pitchBusy = false → argAt s.mbArgs 0 ≤ 1 → s.pitched = true → s.fuse 7 % 2 = 0 →
      ∃ u, exec (.mbPitchStore t tag true) s = .next u ∧
        tget [] u.mgt.flash.images (argAt s.mbArgs 0) = s.storedImage ∧ u.pitch = s.pitch ∧
        u.fld Fld.HUB_PITCH_STATUS_RESULT 0 = 0 ∧ boxDone s u tag mbOk ∧
        onlyRaising s u (⟨.HUB_PITCH_STATUS, 0⟩ :: boxRegs) [456])

/-- BOOT_PITCH (R72, R411): the image of slot 0 takes force if it passes, else that of slot 1; where neither does, the
device stays UNPITCHED; boot is READY in either case. -/
def bootPitchTriesBothSlots : Prop :=
  ∀ (s : State) (t : Tu), s.alive = true → s.fld Fld.HUB_BOOT_STATUS_PHASE 0 = 3 → s.mgt.run = 1 → s.pitched = false →
    (∀ h rs, s.judgeImage (s.slotBytes 0) = .accept h rs → h ≠ [] →
      ∃ u, exec (.bootPitch t) s = .next u ∧ u.pitch.recs = rs ∧ u.pitch.hdr = h ∧
        u.fld Fld.HUB_PITCH_STATUS_STATE 0 = 3 ∧ u.fld Fld.HUB_PITCH_STATUS_RESULT 0 = 0 ∧
        u.fld Fld.HUB_BOOT_STATUS_PHASE 0 = 4) ∧
    ∀ c d c' d', s.judgeImage (s.slotBytes 0) = .refuse c d → s.judgeImage (s.slotBytes 1) = .refuse c' d' →
      ∃ u, exec (.bootPitch t) s = .next u ∧ u.pitch = s.pitch ∧ u.fld Fld.HUB_PITCH_STATUS_RESULT 0 = c' % 256 ∧
        u.fld Fld.HUB_BOOT_STATUS_PHASE 0 = 4 ∧
        onlyRaising s u [⟨.HUB_PITCH_STATUS, 0⟩, ⟨.HUB_BOOT_STATUS, 0⟩] [462]

/-- Images are judged, loaded and stored by command, and pitched at boot, as the rules say. -/
def Obligations.ImagesAreLoaded : Prop := pitchCommandsReport ∧ bootPitchTriesBothSlots

/-! ### Clock sources, the timing link, multiplexers, gates (chapter 04) -/

/-- The registers that a change of source may change. -/
def sourceRegs : List Reg := [⟨.CLK_SRC_STATUS, 0⟩, ⟨.PLL_JPLL_STATUS, 0⟩, ⟨.TLK_STATUS, 0⟩, ⟨.CLK_FREQ_DEV, 0⟩]

/-- CLK_SRC_CFG_WRITE, TLK_ENABLE_WRITE (R83, R84): a source that the new settings exclude loses its qualification; where
it was active, the device switches to the other one with EV002 if that is allowed and qualified, and coasts with EV001 if
not; one that stays allowed stays active while REVERT = 0. -/
def Obligations.SourceSettingsAct : Prop :=
  ∀ (s : State) (t : Tu), s.hostUp = true → s.fld Fld.EVT_ROUTE_KIND 1 ≠ 1 → s.fld Fld.EVT_ROUTE_KIND 2 ≠ 1 →
    (∀ v : Word, s.active = 0 → getBits v 0 2 = 3 →
      ∃ u, exec (.clkSrcCfgWrite t v) s = .next u ∧ u.fld Fld.CLK_SRC_CFG_PREF 0 = 3 ∧
        u.flag Fld.CLK_SRC_CFG_REVERT 0 = v.getLsbD 2 ∧ u.qualified 0 = false ∧
        (s.qualified 1 = true → u.active = 1 ∧ u.evtStatus 2 = true) ∧
        (s.qualified 1 = false → u.active = 2 ∧ u.flag Fld.PLL_JPLL_STATUS_COAST 0 = true ∧ u.evtStatus 1 = true ∧
          u.clk.noSrcFrom = some (s.at t).time) ∧
        u.flag Fld.PLL_JPLL_STATUS_LOCK 0 = false ∧ onlyRaising s u (⟨.CLK_SRC_CFG, 0⟩ :: sourceRegs) [1, 2, 64]) ∧
    (∀ v : Word, s.active = 1 → getBits v 0 2 = 1 ∨ getBits v 0 2 = 3 → v.getLsbD 2 = false →
      ∃ u, exec (.clkSrcCfgWrite t v) s = .next u ∧ u.fld Fld.CLK_SRC_CFG_PREF 0 = getBits v 0 2 ∧
        u.flag Fld.CLK_SRC_CFG_REVERT 0 = false ∧ u.active = 1 ∧ u.qualified 1 = s.qualified 1 ∧
        onlyRegs s u (⟨.CLK_SRC_CFG, 0⟩ :: sourceRegs)) ∧
    (s.flag Fld.TLK_CTRL_ENABLE 0 = true → s.active = 0 → s.fld Fld.CLK_SRC_CFG_PREF 0 ≠ 2 → s.qualified 1 = true →
      ∃ u, exec (.tlkEnableWrite t false) s = .next u ∧ u.flag Fld.TLK_CTRL_ENABLE 0 = false ∧ u.active = 1 ∧
        u.qualified 0 = false ∧ u.evtStatus 2 = true ∧
        onlyRaising s u (⟨.TLK_CTRL, 0⟩ :: sourceRegs) [2, 64]) ∧
    (s.flag Fld.TLK_CTRL_ENABLE 0 = false → s.active = 1 → s.flag Fld.CLK_SRC_CFG_REVERT 0 = false →
      s.fld Fld.CLK_SRC_CFG_PREF 0 ≠ 2 →
      ∃ u, exec (.tlkEnableWrite t true) s = .next u ∧ u.flag Fld.TLK_CTRL_ENABLE 0 = true ∧ u.active = 1 ∧
        u.reg .HUB_LINK_DIAG 0 = 0 ∧
        onlyRegs s u (⟨.TLK_CTRL, 0⟩ :: ⟨.HUB_LINK_DIAG, 0⟩ :: ⟨.HUB_LINK_CHK, 0⟩ :: sourceRegs))

/-- QUAL_INTERVAL, CLK_SRC_TRIP, CLK_NO_SOURCE (R94 to R97): at the end of an interval of the 10 µs grid, one within
CLK_QUAL.PPM counts toward the qualification of a source that is not active, for LINK with the line in order throughout, and
any other ends it; a source that trips loses its qualification, with EV000 and EV001, and the device switches to the first
one that is allowed and qualified, or coasts; TIMEOUT later, without a source, NO_SOURCE is set and EV004 raised. -/
def Obligations.SourcesAreMonitored : Prop :=
  ∀ (s : State) (t : Tu), s.alive = true → s.standby = false →
    (∀ (x : Nat) (link refin : QualMeas), x < 2 → s.active = 1 - x → s.prefs.contains x = true →
      s.beyondMon (if x = 0 then refin else link).ppm = false → s.flag Fld.CLK_SRC_CFG_REVERT 0 = false →
      (s.at t).qualDue = true →
      let m := if x = 0 then link else refin
      (m.ppm.toInt.natAbs ≤ max 1 (s.fld Fld.CLK_QUAL_PPM 0) → m.broken = false →
        (x = 0 → s.linkOk = true ∧ s.clk.linkBroke = false) →
        ∃ u, exec (.qualInterval t link refin) s = .next u ∧ u.active = 1 - x ∧
          u.fld (qcountFld x) 0 = min 255 (s.fld (qcountFld x) 0 + 1) ∧
          (u.qualified x = true ↔ max 1 (s.fld Fld.CLK_QUAL_COUNT 0) ≤ min 255 (s.fld (qcountFld x) 0 + 1)) ∧
          u.fld (devFld x) 0 = m.ppm.toNat ∧ onlyRegs s u [⟨.CLK_SRC_STATUS, 0⟩, ⟨.CLK_FREQ_DEV, 0⟩]) ∧
      (max 1 (s.fld Fld.CLK_QUAL_PPM 0) < m.ppm.toInt.natAbs ∨ m.broken = true ∨
          (x = 0 ∧ (s.linkOk = false ∨ s.clk.linkBroke = true)) →
        ∃ u, exec (.qualInterval t link refin) s = .next u ∧ u.active = 1 - x ∧ u.qualified x = false ∧
          u.fld (qcountFld x) 0 = 0 ∧ (s.relockState ≠ 2 → u.reg .TLK_STATUS 0 = s.reg .TLK_STATUS 0) ∧
          onlyRegs s u [⟨.CLK_SRC_STATUS, 0⟩, ⟨.CLK_FREQ_DEV, 0⟩, ⟨.TLK_STATUS, 0⟩])) ∧
    (∀ cause : TripCause, s.active < 2 → (s.at t).tripHolds cause = true →
      ∃ u, exec (.clkSrcTrip t cause) s = .next u ∧ u.qualified s.active = false ∧
        (s.prefs.contains (1 - s.active) = true ∧ s.qualified (1 - s.active) = true → u.active = 1 - s.active) ∧
        (s.prefs.contains (1 - s.active) = false ∨ s.qualified (1 - s.active) = false →
          u.active = 2 ∧ u.clk.noSrcFrom = some (s.at t).time) ∧
        (s.fld Fld.EVT_ROUTE_KIND 0 ≠ 1 → u.evtStatus 0 = true) ∧
        (s.fld Fld.EVT_ROUTE_KIND 1 ≠ 1 → u.evtStatus 1 = true) ∧
        u.flag Fld.PLL_JPLL_STATUS_LOCK 0 = false ∧ onlyRaising s u sourceRegs [0, 1, 2, 64]) ∧
    ∀ t0, s.clk.noSrcFrom = some t0 → s.active = 2 →
      tuLe (tuAdd t0 (ns (1000000 * max 1 (s.fld Fld.CLK_QUAL_TIMEOUT 0)))) (s.at t).time = true →
      ∃ u, exec (.clkNoSource t) s = .next u ∧ u.fld Fld.CLK_SRC_STATUS_NO_SOURCE 0 = 1 ∧
        (s.fld Fld.EVT_ROUTE_KIND 4 ≠ 1 → u.evtStatus 4 = true) ∧ onlyRaising s u [⟨.CLK_SRC_STATUS, 0⟩] [4]

/-- A data block reaches a receiver that takes it, with its CRC in order. -/
def blockIn (s : State) (m : BitVec 64) : Prop := s.alive = true ∧ s.tlkRx = true ∧ tlkCrcOk m = true

/-- TLK_LOCK, TLK_HI_BER, TLK_HI_BER_CLEAR, TLK_STATUS_MSG, TLK_MSG_DISCARD, ECHO_REQ, ECHO_RSP (R85, R86, R88, R96): the
line's state is shown and raises EV032 and EV043; the partner's status is kept; what is discarded is counted; an echo
request carries its transmit time, and its answer adds a value of twice the link delay. -/
def Obligations.TimingLinkIsReceived : Prop :=
  (∀ (s : State) (t : Tu), s.alive = true → s.standby = false → s.active ≠ 0 →
    (∀ up : Bool, up ≠ s.flag Fld.TLK_STATUS_BLOCK_LOCK 0 → (up = true → s.flag Fld.TLK_CTRL_ENABLE 0 = true) →
      ∃ u, exec (.tlkLock t up) s = .next u ∧ u.flag Fld.TLK_STATUS_BLOCK_LOCK 0 = up ∧
        (s.fld Fld.EVT_ROUTE_KIND 32 ≠ 1 → u.evtStatus 32 = true) ∧ onlyRaising s u [⟨.TLK_STATUS, 0⟩] [32]) ∧
    (s.flag Fld.TLK_STATUS_HI_BER 0 = false →
      ∃ u, exec (.tlkHiBer t) s = .next u ∧ u.flag Fld.TLK_STATUS_HI_BER 0 = true ∧
        (s.fld Fld.EVT_ROUTE_KIND 43 ≠ 1 → u.evtStatus 43 = true) ∧ onlyRaising s u [⟨.TLK_STATUS, 0⟩] [43]) ∧
    ∃ u, exec (.tlkHiBerClear t) s = .next u ∧ u.flag Fld.TLK_STATUS_HI_BER 0 = false ∧
      onlyRegs s u [⟨.TLK_STATUS, 0⟩]) ∧
  (∀ (s : State) (t : Tu) (m : BitVec 64), blockIn s m → tlkTyp m = 11 →
    ∃ u, exec (.tlkStatusMsg t m) s = .next u ∧ u.fld Fld.TLK_PEER_STATUS_STATUS 0 = tlkArg m % 2 ^ 32 ∧
      onlyRegs s u [⟨.TLK_PEER_STATUS, 0⟩]) ∧
  (∀ (s : State) (t : Tu), s.alive = true → s.tlkRx = true →
    (∀ typ, typ ≠ 0x1E → s.fld Fld.TLK_ERR_UNKNOWN 0 < 65535 →
      ∃ u, exec (.tlkMsgDiscard t (.control typ)) s = .next u ∧
        u.fld Fld.TLK_ERR_UNKNOWN 0 = s.fld Fld.TLK_ERR_UNKNOWN 0 + 1 ∧ onlyRegs s u [⟨.TLK_ERR, 0⟩]) ∧
    (∀ m : BitVec 64, tlkCrcOk m = true → tlkTyp m = 0 ∨ tlkTyp m = 8 ∨ 12 ≤ tlkTyp m →
      s.fld Fld.TLK_ERR_UNKNOWN 0 < 65535 →
      ∃ u, exec (.tlkMsgDiscard t (.data m)) s = .next u ∧
        u.fld Fld.TLK_ERR_UNKNOWN 0 = s.fld Fld.TLK_ERR_UNKNOWN 0 + 1 ∧ onlyRegs s u [⟨.TLK_ERR, 0⟩]) ∧
    ∀ m : BitVec 64, tlkCrcOk m = false → s.fld Fld.TLK_ERR_CRC 0 < 65535 →
      ∃ u, exec (.tlkMsgDiscard t (.data m)) s = .next u ∧ u.fld Fld.TLK_ERR_CRC 0 = s.fld Fld.TLK_ERR_CRC 0 + 1 ∧
        (s.fld Fld.TLK_ERR_CRC 0 = 0 → s.fld Fld.EVT_ROUTE_KIND 34 ≠ 1 → u.evtStatus 34 = true) ∧
        onlyRaising s u [⟨.TLK_ERR, 0⟩] [34]) ∧
  (∀ (s : State) (t : Tu), s.alive = true → s.pitched = true → s.tick.issued = true → s.frame.toNat % 1024 = 0 →
    s.tlk.echo = none → s.flag Fld.TLK_CTRL_DELAY_MODE 0 = true → s.tlkTx = true →
    ∃ u, exec (.echoReq t) s = .next u ∧ u.tlk.echo = some (s.tlk.echoSeq, (s.at t).time) ∧ u.tlk.echoOpen = true ∧
      u.out = .timingLink (tlkMsg 6 s.tlk.echoSeq ((s.at t).time.toNat % 2 ^ 48)) :: s.out ∧ onlyRegs s u []) ∧
  ∀ (s : State) (t tx : Tu) (m : BitVec 64), blockIn s m → tlkTyp m = 7 → s.tlk.echo = some (tlkSub m, tx) →
    (∀ d ∈ s.tlk.delays, d ≤ 2 * (2 ^ 24 - 1)) → s.tlk.echoOpen = true → s.flag Fld.TLK_CTRL_DELAY_MODE 0 = true →
    (tlkArg m : Int) ≤ tuDiff tx (s.at t).time →
    tuDiff tx (s.at t).time - tlkArg m ≤ 2 * (2 ^ 24 - 1) →
    ∃ u, exec (.echoRsp t m) s = .next u ∧
      u.tlk.delays = ((tuDiff tx (s.at t).time - tlkArg m).toNat :: s.tlk.delays).take 16 ∧ u.tlk.echoOpen = false ∧
      u.fld Fld.TLK_DELAY_MEAS_VALUE 0 = u.tlk.delays.sum / (2 * u.tlk.delays.length) ∧
      onlyRaising s u [⟨.TLK_DELAY_MEAS, 0⟩] [42]

/-- The error e of a marker: the time it names less its arrival, corrected by the link delay (R89). -/
def markerError (s : State) (t : Tu) (m : BitVec 64) : Int :=
  tuDiff (tickTime (tlkSub m) (BitVec.ofNat 48 (tlkArg m))) (s.at t).arrival

/-- A valid TICK arrives at a part that follows no partner and has no STEP pending. -/
def tickIn (s : State) (m : BitVec 64) : Prop :=
  blockIn s m ∧ tlkTyp m = 1 ∧ 8 ≤ tlkSub m ∧ tlkSub m ≤ 14 ∧ s.epochFollows = false ∧ s.tlk.step = none

/-- TLK_TICK (R87, R89, R90, R99, R100, R413): a marker shows its K and its error; while UNPITCHED the first one of a
qualified link sets the epoch; with an image it decides a STEP; later an error beyond WINDOW decides a STEP under policy 0
and holds under policy 1; the first marker after a switch to LINK starts a slew where the error is within WINDOW. -/
def markersSteerTime : Prop :=
  ∀ (s : State) (t : Tu) (m : BitVec 64), tickIn s m →
    (∃ u, exec (.tlkTick t m) s = .next u ∧ u.fld Fld.TLK_STATUS_K_LINK 0 = tlkSub m ∧
      (u.flag Fld.TLK_STATUS_K_MATCH 0 = true ↔ tlkSub m = s.k) ∧ u.tlk.lastE = markerError s t m ∧
      u.fld Fld.TLK_RELOCK_OFS_OFS 0 = unsgn 32 (max (-(2 ^ 31 - 1)) (min (markerError s t m) (2 ^ 31 - 1)))) ∧
    (s.flag Fld.TLK_STATUS_EPOCH_VALID 0 = false → s.qualified 0 = true → s.pitched = true →
      ∃ u, exec (.tlkTick t m) s = .next u ∧ u.tlk.step = some (markerError s t m) ∧ u.tlk.stepFrame = none ∧
        u.time = (s.at t).time ∧ onlyRaising s u [⟨.TLK_STATUS, 0⟩, ⟨.TLK_RELOCK_OFS, 0⟩] [33, 40]) ∧
    (s.flag Fld.TLK_STATUS_EPOCH_VALID 0 = false → s.qualified 0 = true → s.pitched = false →
      ∃ u, exec (.tlkTick t m) s = .next u ∧ u.time = tuMove (-markerError s t m) (s.at t).time ∧
        u.flag Fld.TLK_STATUS_EPOCH_VALID 0 = true ∧ u.tlk.step = none ∧
        (s.fld Fld.EVT_ROUTE_KIND 35 ≠ 1 → u.evtStatus 35 = true) ∧
        onlyRaising s u [⟨.TLK_STATUS, 0⟩, ⟨.TLK_RELOCK_OFS, 0⟩, ⟨.PLL_SPLL_STATUS, 0⟩, ⟨.PLL_SPLL_STATUS, 1⟩]
          [33, 35, 40]) ∧
    (s.flag Fld.TLK_STATUS_EPOCH_VALID 0 = true → s.active = 0 → s.tlk.fresh = false →
      s.fld Fld.TLK_RELOCK_WINDOW 0 < (markerError s t m).natAbs → s.tlk.actSlew = false →
      (s.flag Fld.TLK_RELOCK_POLICY 0 = false →
        ∃ u, exec (.tlkTick t m) s = .next u ∧ u.tlk.step = some (markerError s t m) ∧ u.relockState = 0 ∧
          u.active = 0 ∧ onlyRaising s u [⟨.TLK_STATUS, 0⟩, ⟨.TLK_RELOCK_OFS, 0⟩] [33, 40]) ∧
      (s.flag Fld.TLK_RELOCK_POLICY 0 = true →
        ∃ u, exec (.tlkTick t m) s = .next u ∧ u.tlk.step = none ∧ u.relockState = 2 ∧ u.active = 2 ∧
          (s.fld Fld.EVT_ROUTE_KIND 37 ≠ 1 → u.evtStatus 37 = true) ∧
          onlyRaising s u (⟨.TLK_RELOCK_OFS, 0⟩ :: sourceRegs) [1, 33, 37, 40, 64])) ∧
    (s.flag Fld.TLK_STATUS_EPOCH_VALID 0 = true → s.active = 0 → s.tlk.fresh = true →
      (markerError s t m).natAbs ≤ s.fld Fld.TLK_RELOCK_WINDOW 0 → s.fld Fld.TLK_MARK_TOL 0 < (markerError s t m).natAbs →
      ∃ u, exec (.tlkTick t m) s = .next u ∧ u.tlk.step = none ∧ u.relockState = 1 ∧ u.tlk.fresh = false ∧
        onlyRaising s u [⟨.TLK_STATUS, 0⟩, ⟨.TLK_RELOCK_OFS, 0⟩] [33, 40])

/-- RELOCK_ACT_STEP, RELOCK_ACT_SLEW, TLK_SLEW_DONE (R99, R101, R102): in HOLD the host's action completes the switch to
LINK and steps or slews; outside HOLD it changes nothing; a slew ends, with EV038, once the error is within TOL. -/
def relockActions : Prop :=
  ∀ (s : State) (t : Tu), s.hostUp = true →
    (s.relockState = 2 → s.epochFollows = false →
      ∃ u, exec (.relockActStep t) s = .next u ∧ u.active = 0 ∧ u.relockState = 0 ∧ u.tlk.step = some s.tlk.lastE ∧
        (s.fld Fld.EVT_ROUTE_KIND 2 ≠ 1 → u.evtStatus 2 = true) ∧ onlyRaising s u sourceRegs [2, 64]) ∧
    (s.relockState = 2 → s.tlk.lastE.natAbs ≤ 8192000 → s.fld Fld.TLK_MARK_TOL 0 < s.tlk.lastE.natAbs →
      ∃ u, exec (.relockActSlew t) s = .next u ∧ u.active = 0 ∧ u.relockState = 1 ∧ u.tlk.step = s.tlk.step ∧
        (s.fld Fld.EVT_ROUTE_KIND 2 ≠ 1 → u.evtStatus 2 = true) ∧ onlyRaising s u sourceRegs [2, 64]) ∧
    (s.relockState = 2 → 8192000 < s.tlk.lastE.natAbs → ∃ u, exec (.relockActSlew t) s = .next u ∧ u.tlk = s.tlk ∧
      onlyRegs s u []) ∧
    (s.relockState ≠ 2 → (∃ u, exec (.relockActStep t) s = .next u ∧ u.tlk = s.tlk ∧ onlyRegs s u []) ∧
      ∃ u, exec (.relockActSlew t) s = .next u ∧ u.tlk = s.tlk ∧ onlyRegs s u []) ∧
    (s.relockState = 1 → (s.at t).slewLeft ≤ 15625 * s.fld Fld.TLK_MARK_TOL 0 →
      ∃ u, exec (.tlkSlewDone t) s = .next u ∧ u.relockState = 0 ∧
        (s.fld Fld.EVT_ROUTE_KIND 38 ≠ 1 → u.evtStatus 38 = true) ∧ onlyRaising s u [⟨.TLK_STATUS, 0⟩] [38]) ∧
    (15625 * s.fld Fld.TLK_MARK_TOL 0 < (s.at t).slewLeft → exec (.tlkSlewDone t) s = .next (s.at t))

/-- Markers steer local time, and the host's actions end a HOLD. -/
def Obligations.MarkersSteerTime : Prop := markersSteerTime ∧ relockActions

/-- TLK_SYNC_MSG, TLK_ARM_MSG, TLK_DISARM_MSG, TLK_TRIG_MSG (R90 to R92): a broadcast waits for its frame, or is
discarded with EV039; a trigger of an enabled line waits for its time, or is discarded with EV041. -/
def Obligations.BroadcastsWait : Prop :=
  ∀ (s : State) (t : Tu) (m : BitVec 64), blockIn s m → s.pitched = true →
    ((s.at t).bcastRefused (BitVec.ofNat 48 (tlkArg m)) = false →
      (tlkTyp m = 2 → ∃ u, exec (.tlkSyncMsg t m) s = .next u ∧ onlyRegs s u [] ∧
        u.tick.bcasts = s.tick.bcasts ++ [⟨2, tlkSub m, BitVec.ofNat 48 (tlkArg m), (s.at t).time⟩]) ∧
      (tlkTyp m = 3 → ∃ u, exec (.tlkArmMsg t m) s = .next u ∧ onlyRegs s u [] ∧
        u.tick.bcasts = s.tick.bcasts ++ [⟨3, tlkSub m, BitVec.ofNat 48 (tlkArg m), (s.at t).time⟩]) ∧
      (tlkTyp m = 4 → ∃ u, exec (.tlkDisarmMsg t m) s = .next u ∧ onlyRegs s u [] ∧
        u.tick.bcasts = s.tick.bcasts ++ [⟨4, tlkSub m, BitVec.ofNat 48 (tlkArg m), (s.at t).time⟩])) ∧
    ((s.at t).bcastRefused (BitVec.ofNat 48 (tlkArg m)) = true → tlkTyp m = 3 →
      s.fld Fld.TLK_BCAST_DROP_COUNT 0 < 2 ^ 32 - 1 →
      ∃ u, exec (.tlkArmMsg t m) s = .next u ∧ u.tick.bcasts = s.tick.bcasts ∧
        u.fld Fld.TLK_BCAST_DROP_COUNT 0 = s.fld Fld.TLK_BCAST_DROP_COUNT 0 + 1 ∧
        (s.fld Fld.EVT_ROUTE_KIND 39 ≠ 1 → u.evtStatus 39 = true) ∧ onlyRaising s u [⟨.TLK_BCAST_DROP, 0⟩] [39]) ∧
    (tlkTyp m = 5 → s.relockState ≠ 2 → (s.fld Fld.TLK_TRIG_EN_LINES 0).testBit (tlkSub m) = true →
      s.tlk.trigs.length < 16 →
      ∀ x : Tu, x.setWidth 48 = BitVec.ofNat 48 (tlkArg m) → 0 < (x - (s.at t).time).toNat →
        (x - (s.at t).time).toNat + (s.at t).delayUp ≤ 2 ^ 30 →
        ∃ u, exec (.tlkTrigMsg t m) s = .next u ∧ u.tlk.trigs = trigIns s.tlk.trigs (tlkSub m, x) ∧ onlyRegs s u []) ∧
    (tlkTyp m = 5 → s.relockState = 2 ∨ (s.fld Fld.TLK_TRIG_EN_LINES 0).testBit (tlkSub m) = false →
      s.fld Fld.TLK_TRIG_DROP_COUNT 0 < 2 ^ 32 - 1 →
      ∃ u, exec (.tlkTrigMsg t m) s = .next u ∧ u.tlk.trigs = s.tlk.trigs ∧
        u.fld Fld.TLK_TRIG_DROP_COUNT 0 = s.fld Fld.TLK_TRIG_DROP_COUNT 0 + 1 ∧
        (s.fld Fld.EVT_ROUTE_KIND 41 ≠ 1 → u.evtStatus 41 = true) ∧ onlyRaising s u [⟨.TLK_TRIG_DROP, 0⟩] [41])

/-- CLK_MUX_SEL_WRITE, CLK_MUX_SWITCH_DONE, CLK_MUX_STUCK, MB_CLKMUX_FORCE, CTL_MUX_SWITCH (R104, R105): the selection of
another input starts a switch, which completes, or is stuck after 10 µs with EV005; one of the input in effect, or of one
that the multiplexer does not have (the model's reading, log 63), is stored; a selection while a switch runs is ignored; a
stuck multiplexer whose gate node is closed takes its selection by force; the control multiplexer shows the RC oscillator. -/
def Obligations.MultiplexersSwitch : Prop :=
  ∀ (s : State) (t : Tu),
    (∀ (m : Fin 7) (sel : Fin 4), s.hostUp = true → m.val ≠ 0 →
      (s.muxState m = 0 → muxInput m sel = true → sel.val ≠ tget 0 s.clk.muxNow m →
        ∃ u, exec (.clkMuxSelWrite t m sel) s = .next u ∧ u.fld Fld.CLK_MUX_SEL_SEL m = sel ∧
          u.muxState m = 1 ∧ tget 0 u.clk.muxNow m = tget 0 s.clk.muxNow m ∧
          onlyRegs s u ([⟨.CLK_MUX_SEL, m⟩, ⟨.CLK_MUX_STATUS, 0⟩] ++ if m.val = 1 then [⟨.RAS_STATUS, 0⟩] else [])) ∧
      (s.muxState m = 0 → muxInput m sel = false ∨ sel.val = tget 0 s.clk.muxNow m →
        ∃ u, exec (.clkMuxSelWrite t m sel) s = .next u ∧ u.fld Fld.CLK_MUX_SEL_SEL m = sel ∧ u.clk = s.clk ∧
          onlyRegs s u [⟨.CLK_MUX_SEL, m⟩]) ∧
      (s.muxState m ≠ 0 → ∃ u, exec (.clkMuxSelWrite t m sel) s = .next u ∧ u.clk = s.clk ∧ onlyRegs s u [])) ∧
    (∀ m : Fin 7, s.alive = true → m.val ≠ 0 → s.muxState m = 1 →
      (∃ u, exec (.clkMuxSwitchDone t m) s = .next u ∧ u.muxState m = 0 ∧
        tget 0 u.clk.muxNow m = s.fld Fld.CLK_MUX_SEL_SEL m ∧ onlyRegs s u [⟨.CLK_MUX_STATUS, 0⟩]) ∧
      ∀ e, s.clk.switching.find? (fun e => e.1 == m.val) = some e → tuLe (tuAdd e.2.1 (ns 10000)) (s.at t).time = true →
        ∃ u, exec (.clkMuxStuck t m) s = .next u ∧ u.muxState m = 2 ∧
          (s.fld Fld.EVT_ROUTE_KIND 5 ≠ 1 → u.evtStatus 5 = true) ∧ onlyRaising s u [⟨.CLK_MUX_STATUS, 0⟩] [5]) ∧
    (∀ tag : Byte, boxReady s 0x30 → 1 ≤ argAt s.mbArgs 0 → argAt s.mbArgs 0 ≤ 6 → s.clk.gate = none →
      s.muxState (argAt s.mbArgs 0) = 2 → s.gateOpen (muxNode (argAt s.mbArgs 0)) = false →
      ∃ u, exec (.mbClkmuxForce t tag) s = .next u ∧ u.muxState (argAt s.mbArgs 0) = 0 ∧
        tget 0 u.clk.muxNow (argAt s.mbArgs 0) = s.fld Fld.CLK_MUX_SEL_SEL (argAt s.mbArgs 0) ∧ boxDone s u tag mbOk ∧
        onlyRaising s u (⟨.CLK_MUX_STATUS, 0⟩ :: boxRegs) [456]) ∧
    (s.alive = true →
      (∃ u, exec (.ctlMuxSwitch t true) s = .next u ∧ u.muxState 0 = 3 ∧ onlyRegs s u [⟨.CLK_MUX_STATUS, 0⟩]) ∧
      (s.flag Fld.PLL_JPLL_STATUS_LOCK 0 = true ∨ s.flag Fld.PLL_JPLL_STATUS_COAST 0 = true →
        ∃ u, exec (.ctlMuxSwitch t false) s = .next u ∧ u.muxState 0 = 0 ∧ onlyRegs s u [⟨.CLK_MUX_STATUS, 0⟩]))

/-- GATE_CLOSE, GATE_FORCE_CLOSE, GATE_OPEN, GATE_QUIESCE_ACK, GATE_BUSY (R107 to R109): a close of a block in use is
refused with EV007; one that may close waits for its acknowledge, and the clock stops then, or the request ends BUSY
after 4 µs with EV006; a second request meanwhile is an OVERRUN; a forced close of a block behind a stuck multiplexer
stops it at once; an open under an open parent starts the clock. -/
def Obligations.GatesCloseAndOpen : Prop :=
  (∀ (s : State) (t : Tu) (n : Fin 64), s.hostUp = true → s.clk.gate = none →
    ((s.at t).closeRefused n ≠ 0 →
      ∃ u, exec (.gateClose t n) s = .next u ∧ u.fld Fld.CLK_GATE_RESULT_CODE 0 = (s.at t).closeRefused n ∧
        u.fld Fld.CLK_GATE_RESULT_NODE 0 = n ∧ u.clk.gate = none ∧
        (s.fld Fld.EVT_ROUTE_KIND 7 ≠ 1 → u.evtStatus 7 = true) ∧ onlyRaising s u [⟨.CLK_GATE_RESULT, 0⟩] [7]) ∧
    ((s.at t).closeRefused n = 0 → s.gateOpen n = true →
      (∃ u, exec (.gateClose t n) s = .next u ∧ u.fld Fld.CLK_GATE_RESULT_CODE 0 = 1 ∧
        u.clk.gate = some ⟨n, (s.at t).time⟩ ∧ u.gateOpen n = true ∧ onlyRegs s u [⟨.CLK_GATE_RESULT, 0⟩]) ∧
      (s.forceHonoured n = true → ∃ u, exec (.gateForceClose t n) s = .next u ∧
        u.fld Fld.CLK_GATE_RESULT_CODE 0 = 0 ∧ u.clk.gate = none ∧ u.gateOpen n = false ∧
        (n.val ≠ 26 → onlyRegs s u [⟨.CLK_GATE_RESULT, 0⟩, ⟨.CLK_GATE_STATE_LO, 0⟩, ⟨.CLK_GATE_STATE_HI, 0⟩])) ∧
      (s.forceHonoured n = false → ∃ u, exec (.gateForceClose t n) s = .next u ∧
        u.fld Fld.CLK_GATE_RESULT_CODE 0 = 1 ∧ u.clk.gate = some ⟨n, (s.at t).time⟩ ∧ u.gateOpen n = true ∧
        onlyRegs s u [⟨.CLK_GATE_RESULT, 0⟩])) ∧
    (n.val < 34 → n.val ≠ 0 → s.gateOpen (s.parentOf n) = false →
      ∃ u, exec (.gateOpen t n) s = .next u ∧ u.fld Fld.CLK_GATE_RESULT_CODE 0 = 4 ∧
        onlyRegs s u [⟨.CLK_GATE_RESULT, 0⟩]) ∧
    (n.val < 34 → n.val = 0 ∨ s.gateOpen (s.parentOf n) = true →
      ∃ u, exec (.gateOpen t n) s = .next u ∧ u.fld Fld.CLK_GATE_RESULT_CODE 0 = 0 ∧ u.gateOpen n = true ∧
        (∀ m, m < 34 → m ≠ n → u.gateOpen m = s.gateOpen m) ∧
        (n.val = 23 ∨ n.val = 24 ∨ 27 ≤ n.val →
          onlyRegs s u [⟨.CLK_GATE_RESULT, 0⟩, ⟨.CLK_GATE_STATE_LO, 0⟩, ⟨.CLK_GATE_STATE_HI, 0⟩]) ∧ sameMem s u)) ∧
  (∀ (s : State) (t : Tu) (n : Fin 64), s.hostUp = true → s.clk.gate.isSome = true →
    (∃ u, exec (.gateClose t n) s = .next u ∧ u.fld Fld.CLK_GATE_RESULT_OVERRUN 0 = 1 ∧ u.clk = s.clk ∧
      onlyRegs s u [⟨.CLK_GATE_RESULT, 0⟩]) ∧
    (∃ u, exec (.gateForceClose t n) s = .next u ∧ u.fld Fld.CLK_GATE_RESULT_OVERRUN 0 = 1 ∧ u.clk = s.clk ∧
      onlyRegs s u [⟨.CLK_GATE_RESULT, 0⟩]) ∧
    ∃ u, exec (.gateOpen t n) s = .next u ∧ u.fld Fld.CLK_GATE_RESULT_OVERRUN 0 = 1 ∧ u.clk = s.clk ∧
      onlyRegs s u [⟨.CLK_GATE_RESULT, 0⟩]) ∧
  ∀ (s : State) (t : Tu) (g : GateReq), s.alive = true → s.clk.gate = some g → g.node < 34 →
    (s.forceHonoured g.node = false → tuLe (s.at t).time (tuAdd g.at_ (ns 4000)) = true → s.pwr.wait = none →
      ∃ u, exec (.gateQuiesceAck t) s = .next u ∧ u.gateOpen g.node = false ∧ u.clk.gate = none ∧
        u.fld Fld.CLK_GATE_RESULT_CODE 0 = 0 ∧ u.fld Fld.CLK_GATE_RESULT_NODE 0 = g.node ∧ sameMem s u) ∧
    (s.forceHonoured g.node = true ∨ tuLe (s.at t).time (tuAdd g.at_ (ns 4000)) = false →
      ∃ u, exec (.gateQuiesceAck t) s = .next u ∧ u.clk = s.clk ∧ onlyRegs s u []) ∧
    (tuLe (tuAdd g.at_ (ns 4000)) (s.at t).time = true → s.pwr.wait = none →
      ∃ u, exec (.gateBusy t) s = .next u ∧ u.gateOpen g.node = s.gateOpen g.node ∧ u.clk.gate = none ∧
        u.fld Fld.CLK_GATE_RESULT_CODE 0 = 2 ∧ (s.fld Fld.EVT_ROUTE_KIND 6 ≠ 1 → u.evtStatus 6 = true) ∧
        onlyRaising s u [⟨.CLK_GATE_RESULT, 0⟩] [6]) ∧
    ∀ r, s.pwr.wait = some r → s.mgt.run ≠ 1 →
      (s.forceHonoured g.node = false → tuLe (s.at t).time (tuAdd g.at_ (ns 4000)) = true →
        ∃ u, exec (.gateQuiesceAck t) s = .next u ∧ u.clk.gate = none ∧ u.pwr.wait = none ∧
          u.fld Fld.HUB_PWR_STATUS_RESULT 0 = 4) ∧
      (tuLe (tuAdd g.at_ (ns 4000)) (s.at t).time = true →
        ∃ u, exec (.gateBusy t) s = .next u ∧ u.clk.gate = none ∧ u.pwr.wait = none ∧
          u.fld Fld.HUB_PWR_STATUS_RESULT 0 = 4)

/-! ### PLLs (chapter 05) -/

/-- JPLL_LOCK, JPLL_LOCK_LOSS, JPLL_CFG_WRITE (R115, R116, R118): after its comparisons the lock is declared with EV064, cause
bit 1; a comparison beyond the limits is its loss, a trip with EV064 and LOST; a written setting is stored. -/
def jpllFollowsItsSource : Prop :=
  ∀ (s : State) (t : Tu), s.hostUp = true →
    (∀ err : BitVec 16, s.active ≠ 2 → s.flag Fld.PLL_JPLL_STATUS_LOCK 0 = false →
      err.toInt.natAbs ≤ s.lockWindow 0 → tuLe (tuAdd s.pll.jpllFrom (s.countSpan 0 s.jpllPfd)) (s.at t).time = true →
      ∃ u, exec (.jpllLock t err) s = .next u ∧ u.flag Fld.PLL_JPLL_STATUS_LOCK 0 = true ∧
        u.fld Fld.PLL_JPLL_STATUS_PHASE_ERR 0 = err.toNat ∧ u.fld Fld.HUB_BOOT_STATUS_CLK_OK 0 = 1 ∧
        (s.fld Fld.EVT_ROUTE_KIND 64 ≠ 1 → u.evtStatus 64 = true ∧ (u.fld Fld.EVT_DATA_CAUSES 64).testBit 1 = true) ∧
        onlyRaising s u [⟨.PLL_JPLL_STATUS, 0⟩, ⟨.HUB_BOOT_STATUS, 0⟩] [64]) ∧
    (∀ (first : Tu) (err : BitVec 16), s.active < 2 → s.flag Fld.PLL_JPLL_STATUS_LOCK 0 = true →
      (s.at t).lossShown 0 s.jpllPfd ((s.at t).stamp first) err.toInt.natAbs = true →
      ∃ u, exec (.jpllLockLoss t first err) s = .next u ∧ u.flag Fld.PLL_JPLL_STATUS_LOCK 0 = false ∧
        u.flag Fld.PLL_JPLL_STATUS_LOST 0 = true ∧ u.fld Fld.PLL_JPLL_STATUS_PHASE_ERR 0 = err.toNat ∧
        u.qualified s.active = false ∧ u.active ≠ s.active ∧
        (s.fld Fld.EVT_ROUTE_KIND 64 ≠ 1 → u.evtStatus 64 = true) ∧
        (s.fld Fld.EVT_ROUTE_KIND 0 ≠ 1 → u.evtStatus 0 = true) ∧
        (s.fld Fld.EVT_ROUTE_KIND 1 ≠ 1 → u.evtStatus 1 = true) ∧ onlyRaising s u sourceRegs [0, 1, 2, 64]) ∧
    ∀ v : Word, ∃ u, exec (.jpllCfgWrite t v) s = .next u ∧ u.fld Fld.PLL_JPLL_CFG_REF_MODE 0 = getBits v 0 2 ∧
      u.fld Fld.PLL_JPLL_CFG_BW 0 = getBits v 2 2 ∧ u.pll = s.pll ∧ onlyRegs s u [⟨.PLL_JPLL_CFG, 0⟩]

/-- The registers of the lanes of a die that a pause or a restart of their calibration changes. -/
def laneStates (e : Nat) : List Reg := (List.range 8).map fun i => ⟨.ILV_LANE_STATUS, 8 * e + i⟩

/-- SPLL_LOCK_LOSS, SPLL_LOCK, SPLL_SETTLE, SPLL_RELOCK_RETRY, FOLLOW_DONE, SPLL_ANCHOR_REACHED, SPLL_PHASE_WRITE (R115,
R119 to R124): a loss clears LOCK and SETTLED, sets LOST and pauses the die's lanes; after its comparisons lock is declared
at the target rate, and the anchor is the first tick after it; 2 µs later, or when the grid has reached its anchor, the PLL
settles; an attempt that fails within 1 ms is counted; a FOLLOW that has reached its target asks for an anchor 8 µs later;
an anchor that is reached sets ALIGNED; a written offset is approached from the one in effect. -/
def Obligations.SamplePllsLockAndSettle : Prop :=
  ∀ (s : State) (t : Tu) (e : Fin 2), s.hostUp = true →
    (∀ (first : Tu) (err : Nat), s.spllLock e = true → s.dieAsleep e = false →
      ((s.at t).lossShown (1 + e) (s.spllPfd e) ((s.at t).stamp first) err = true →
        ∃ u, exec (.spllLockLoss t e first err) s = .next u ∧ u.spllLock e = false ∧ u.spllState e = 3 ∧
          u.fld Fld.PLL_SPLL_STATUS_SETTLED e = 0 ∧ u.fld Fld.PLL_SPLL_STATUS_LOST e = 1 ∧
          u.fld Fld.PLL_SPLL_STATUS_ALIGNED e = 0 ∧ (u.spllOf e).lost = true ∧ (u.spllOf e).tryAt = (s.at t).time ∧
          (∀ i, i < 8 → s.clusterAsleep ((8 * e + i) / 4) = false → u.fld Fld.ILV_LANE_STATUS_PAUSED (8 * e + i) = 1) ∧
          (s.fld Fld.EVT_ROUTE_KIND (65 + e) ≠ 1 → u.evtStatus (65 + e) = true) ∧
          onlyRaising s u (⟨.PLL_SPLL_STATUS, e⟩ :: ⟨.PLL_SPLL_RATE_NOW, e⟩ :: laneStates e) [65 + e]) ∧
      ((s.at t).lossShown (1 + e) (s.spllPfd e) ((s.at t).stamp first) err = false →
        exec (.spllLockLoss t e first err) s = .next (s.at t))) ∧
    (s.spllLock e = false → s.dieAsleep e = false → s.standby = false → (s.at t).lockThere e = true →
      ∃ u, exec (.spllLock t e) s = .next u ∧ u.spllLock e = true ∧ u.spllState e = 0 ∧
        u.fld Fld.PLL_SPLL_RATE_NOW_RATE e = (s.spllOf e).target % 2 ^ 23 ∧ (u.spllOf e).lockAt = some (s.at t).time ∧
        (u.spllOf e).anchorDue = some ((s.at t).time, true) ∧
        onlyRaising s u [⟨.PLL_SPLL_STATUS, e⟩, ⟨.PLL_SPLL_RATE_NOW, e⟩] [68 + e]) ∧
    (∀ l, s.spllLock e = true → (s.spllOf e).lockAt = some l → tuLe (tuAdd l (ns 2000)) (s.at t).time = true →
      tuLe (s.spllOf e).moveEnd (s.at t).time = true → (s.spllOf e).anchorDue = none → (s.spllOf e).moving = false →
      ((s.spllOf e).mode ≠ .ramp →
        ∃ u, exec (.spllSettle t e) s = .next u ∧ u.fld Fld.PLL_SPLL_STATUS_SETTLED e = 1 ∧ (u.spllOf e).bad = none ∧
          (u.spllOf e).spans =
            (s.spllOf e).spans ++ ((s.spllOf e).bad.map fun b => (b, (s.at t).settleAt e l)).toList ∧
          ((s.spllOf e).lost = true → s.fld Fld.EVT_ROUTE_KIND (65 + e) ≠ 1 → u.evtStatus (65 + e) = true) ∧
          ((s.spllOf e).lost = false → sameSource s u (65 + e)) ∧
          onlyRaising s u (⟨.PLL_SPLL_STATUS, e⟩ :: laneStates e) [65 + e]) ∧
      ((s.spllOf e).mode = .ramp →
        ∃ u, exec (.spllSettle t e) s = .next u ∧ u.fld Fld.PLL_SPLL_STATUS_SETTLED e = 1 ∧ (u.spllOf e).bad = none ∧
          (u.spllOf e).mode = .none ∧
          (s.fld Fld.EVT_ROUTE_KIND (68 + e) ≠ 1 → u.evtStatus (68 + e) = true) ∧ sameMem s u)) ∧
    (s.spllState e = 3 → s.dieAsleep e = false → tuLe (tuAdd (s.spllOf e).tryAt (ns 1000000)) (s.at t).time = true →
      s.fld Fld.PLL_SPLL_RETRY_COUNT e < 65535 →
      ∃ u, exec (.spllRelockRetry t e) s = .next u ∧ (u.spllOf e).tryAt = (s.at t).time ∧
        u.fld Fld.PLL_SPLL_RETRY_COUNT e = s.fld Fld.PLL_SPLL_RETRY_COUNT e + 1 ∧ onlyRegs s u [⟨.PLL_SPLL_RETRY, e⟩]) ∧
    (s.spllState e = 1 → (s.at t).rateInst e = (s.spllOf e).target → (s.spllOf e).anchorDue = none →
      ∃ u, exec (.followDone t e) s = .next u ∧ u.spllState e = 0 ∧
        (u.spllOf e).anchorDue = some (tuAdd (s.at t).time (ns 8000), false) ∧
        (s.fld Fld.EVT_ROUTE_KIND (68 + e) ≠ 1 → u.evtStatus (68 + e) = true) ∧
        onlyRaising s u [⟨.PLL_SPLL_STATUS, e⟩, ⟨.PLL_SPLL_RATE_NOW, e⟩] [68 + e]) ∧
    ((s.spllOf e).moving = true → tuLe (s.spllOf e).moveEnd (s.at t).time = true →
      ∃ u, exec (.spllAnchorReached t e) s = .next u ∧ (u.spllOf e).moving = false ∧
        (s.spllState e = 0 → u.aligned e = true) ∧ (s.spllState e ≠ 0 → u.aligned e = s.aligned e) ∧
        onlyRegs s u [⟨.PLL_SPLL_STATUS, e⟩]) ∧
    ((s.spllOf e).moving = true → tuLe (s.spllOf e).moveEnd (s.at t).time = false →
      exec (.spllAnchorReached t e) s = .next (s.at t)) ∧
    ∀ ofs : BitVec 11, ∃ u, exec (.spllPhaseWrite t e ofs) s = .next u ∧ u.fld Fld.PLL_SPLL_PHASE_OFS e = ofs.toNat ∧
      u.fld Fld.PLL_SPLL_STATUS_OFS_NOW e = unsgn 11 ((s.at t).ofsNow e) ∧
      onlyRegs s u [⟨.PLL_SPLL_PHASE, e⟩, ⟨.PLL_SPLL_STATUS, e⟩]

/-- The registers that a pixel-clock change may change. -/
def pixRegs : List Reg := [⟨.PLL_APLL_STATUS, 0⟩, ⟨.RAS_STATUS, 0⟩]

/-- APLL_RETUNE, APLL_DIV_WRITE, APLL_LOCK, APLL_FEED_RESUME, PIXEL_CLOCK_CHANGE (R115, R125, R318): a frequency in range
retunes the APLL, whose feeds stay low until 2 µs after its lock, and so does REF_MODE; a frequency out of range is ignored,
with CFG_ERR and EV070; a change of the divisor runs at once; a comparison beyond the limits is a loss of lock; Lantern
restarts where it was scanning. -/
def Obligations.ApllFeedsThePixelClock : Prop :=
  ∀ (s : State) (t : Tu), s.hostUp = true →
    (∀ v : BitVec 23, apllOk v.toNat (s.fld Fld.PLL_APLL_DIV_PIX_DIV 0) (s.fld Fld.PLL_APLL_DIV_AUX_DIV 0) = true →
      (∃ u, exec (.apllRetune t (.vcoKhz v)) s = .next u ∧ u.fld Fld.PLL_APLL_FREQ_VCO_KHZ 0 = v.toNat ∧
        u.flag Fld.PLL_APLL_STATUS_LOCK 0 = false ∧ u.pll.feedsLow = true ∧ u.pll.apllLockAt = none ∧
        u.pll.apllFrom = (s.at t).time ∧ onlyRegs s u (⟨.PLL_APLL_FREQ, 0⟩ :: pixRegs)) ∧
      (v.toNat ≠ s.fld Fld.PLL_APLL_FREQ_VCO_KHZ 0 → s.fld Fld.RAS_STATUS_STATE 0 = 1 →
        ∃ u, exec (.pixelClockChange t (.apllFreq v)) s = .next u ∧ u.fld Fld.RAS_STATUS_STATE 0 = 2 ∧
          u.fld Fld.PLL_APLL_FREQ_VCO_KHZ 0 = v.toNat ∧ onlyRegs s u (⟨.PLL_APLL_FREQ, 0⟩ :: pixRegs))) ∧
    (∀ v : BitVec 23, apllOk v.toNat (s.fld Fld.PLL_APLL_DIV_PIX_DIV 0) (s.fld Fld.PLL_APLL_DIV_AUX_DIV 0) = false →
      ∃ u, exec (.apllRetune t (.vcoKhz v)) s = .next u ∧ u.flag Fld.PLL_APLL_STATUS_CFG_ERR 0 = true ∧ u.pll = s.pll ∧
        (s.fld Fld.EVT_ROUTE_KIND 70 ≠ 1 → u.evtStatus 70 = true) ∧ onlyRaising s u [⟨.PLL_APLL_STATUS, 0⟩] [70]) ∧
    (∀ pix aux : Byte, apllOk (s.fld Fld.PLL_APLL_FREQ_VCO_KHZ 0) pix.toNat aux.toNat = true →
      ∃ u, exec (.apllDivWrite t pix aux) s = .next u ∧ u.fld Fld.PLL_APLL_DIV_PIX_DIV 0 = pix.toNat ∧
        u.fld Fld.PLL_APLL_DIV_AUX_DIV 0 = aux.toNat ∧ u.pll = { s.pll with aux := u.pll.aux } ∧
        (pix.toNat ≠ s.fld Fld.PLL_APLL_DIV_PIX_DIV 0 → s.fld Fld.RAS_STATUS_STATE 0 = 1 →
          u.fld Fld.RAS_STATUS_STATE 0 = 2) ∧
        (pix.toNat = s.fld Fld.PLL_APLL_DIV_PIX_DIV 0 → u.reg .RAS_STATUS 0 = s.reg .RAS_STATUS 0) ∧
        onlyRegs s u [⟨.PLL_APLL_DIV, 0⟩, ⟨.RAS_STATUS, 0⟩]) ∧
    (∀ m : Fin 4, ∃ u, exec (.apllRetune t (.refMode m)) s = .next u ∧ u.fld Fld.PLL_APLL_CFG_REF_MODE 0 = m ∧
      u.flag Fld.PLL_APLL_STATUS_LOCK 0 = false ∧ u.pll.feedsLow = true ∧ u.pll.apllFrom = (s.at t).time ∧
      onlyRegs s u (⟨.PLL_APLL_CFG, 0⟩ :: pixRegs)) ∧
    (∀ (m sel : Fin 4) (pix : Byte) (first : Tu) (err : Nat),
      exec (.pixelClockChange t (.muxSel sel)) s = exec (.clkMuxSelWrite t 1 sel) s ∧
      exec (.pixelClockChange t (.apllRefMode m)) s = exec (.apllRetune t (.refMode m)) s ∧
      exec (.pixelClockChange t (.pixDiv pix)) s =
        exec (.apllDivWrite t pix (BitVec.ofNat 8 (s.fld Fld.PLL_APLL_DIV_AUX_DIV 0))) s ∧
      (s.standby = false → s.pixFromApll = true →
        exec (.pixelClockChange t (.apllLoss first err)) s = exec (.apllLock t false first err) s)) ∧
    (∀ (first : Tu) (err : Nat), s.standby = false →
      (s.flag Fld.PLL_APLL_STATUS_LOCK 0 = false →
        tuLe (tuAdd s.pll.apllFrom (s.countSpan 3 s.apllPfd)) (s.at t).time = true →
        ∃ u, exec (.apllLock t true first err) s = .next u ∧ u.flag Fld.PLL_APLL_STATUS_LOCK 0 = true ∧
          u.pll.apllLockAt = some (s.at t).time ∧ (s.fld Fld.EVT_ROUTE_KIND 67 ≠ 1 → u.evtStatus 67 = true) ∧
          onlyRaising s u [⟨.PLL_APLL_STATUS, 0⟩] [67]) ∧
      ((s.at t).apllLosing first err = true →
        ∃ u, exec (.apllLock t false first err) s = .next u ∧ u.flag Fld.PLL_APLL_STATUS_LOCK 0 = false ∧
          u.flag Fld.PLL_APLL_STATUS_LOST 0 = true ∧ u.pll = { s.pll with apllFrom := (s.at t).time } ∧
          (s.fld Fld.EVT_ROUTE_KIND 67 ≠ 1 → u.evtStatus 67 = true) ∧ onlyRaising s u pixRegs [67])) ∧
    ∀ l, s.pll.apllLockAt = some l → s.pll.feedsLow = true → s.flag Fld.PLL_APLL_STATUS_LOCK 0 = true →
      tuLe (tuAdd l (ns 2000)) (s.at t).time = true →
      ∃ u, exec (.apllFeedResume t) s = .next u ∧ u.pll.feedsLow = false ∧ onlyRegs s u []

/-- Two fractions are the same number. -/
def sameRatio (a b : Ratio) : Prop := a.num * b.den = b.num * a.den

/-- AUX_CFG_WRITE, AUX_DELAY_WRITE (R126, R127): the written setting is stored, and from its next rising edge on the output
runs with it: on while EN is 1 and its gate is open, from the source in effect, at its divisor; a longer delay moves that
edge by the difference, a shorter one by whole periods less the difference. Where the source is held low or stopped, the
setting is stored. -/
def auxOutputsFollow : Prop :=
  ∀ (s : State) (t : Tu) (i : Fin 4) (v : Word), s.hostUp = true →
    let x := s.at t
    let rise := (s.auxOf i).rise (.ofTu x.time)
    (∃ u, exec (.auxCfgWrite t i v) s = .next u ∧ u.fld Fld.PLL_AUX_CFG_DIV i = getBits v 2 12 ∧
      u.flag Fld.PLL_AUX_CFG_ALIGN i = v.getLsbD 1 ∧ u.flag Fld.PLL_AUX_CFG_EN i = v.getLsbD 0 ∧
      (∀ src, x.auxSource i = some src →
        (u.auxOf i).on = (v.getLsbD 0 && s.gateOpen (30 + i)) ∧ (u.auxOf i).period = src.mul (getBits v 2 12 + 1) ∧
          sameRatio (u.auxOf i).edge rise) ∧
      (x.auxSource i = none → u.pll = s.pll) ∧ onlyRegs s u [⟨.PLL_AUX_CFG, i⟩]) ∧
    ∃ u, exec (.auxDelayWrite t i v) s = .next u ∧ u.fld Fld.PLL_AUX_DELAY_COARSE i = getBits v 0 12 ∧
      u.fld Fld.PLL_AUX_DELAY_FINE i = getBits v 12 8 ∧
      (∀ src, x.auxSource i = some src →
        let d := (u.auxDelay i src).sub (s.auxDelay i src)
        (u.auxOf i).on = s.auxOn i ∧ (u.auxOf i).period = src.mul (s.fld Fld.PLL_AUX_CFG_DIV i + 1) ∧
          (0 ≤ d.num → sameRatio (u.auxOf i).edge (rise.add d)) ∧
          (d.num < 0 → sameRatio (u.auxOf i).edge ((rise.add d).add
            ⟨(s.auxOf i).period.num * Ratio.periods ⟨-d.num, d.den⟩ (s.auxOf i).period, (s.auxOf i).period.den⟩))) ∧
      (x.auxSource i = none → u.pll = s.pll) ∧ onlyRegs s u [⟨.PLL_AUX_DELAY, i⟩]

/-- The JPLL follows its source, and the AUX outputs their settings. -/
def Obligations.JpllAndAuxFollow : Prop := jpllFollowsItsSource ∧ auxOutputsFollow

/-! ### Front end and calibration (chapters 06, 07) -/

/-- AFE_TERM_WRITE, AFE_SETTLE_END (R141): a change of TERM starts a settle span of 1 µs and a change of VTT one of
10 µs; a write that changes nothing starts none; a sleeping cluster discards it; SETTLING clears at the end of the
span. -/
def frontEndsSettle : Prop :=
  ∀ (s : State) (t : Tu) (ch : Fin 16), s.hostUp = true →
    (∀ b : Bool, s.clusterAsleep (ch / 4) = false → b.toNat ≠ s.fld Fld.AFE_CFG_TERM ch → (s.afeOf ch).settle = none →
      ∃ u, exec (.afeTermWrite t ch (.term b)) s = .next u ∧ u.fld Fld.AFE_CFG_TERM ch = b.toNat ∧
        u.fld Fld.AFE_STATUS_SETTLING ch = 1 ∧ (u.afeOf ch).settle = some (tuAdd (s.at t).time (ns 1000)) ∧
        onlyRegs s u [⟨.AFE_CFG, ch⟩, ⟨.AFE_STATUS, ch⟩]) ∧
    (∀ mv : BitVec 12, s.clusterAsleep (ch / 4) = false → vttEff (s.fld Fld.AFE_VTT_MV ch) ≠ vttEff mv.toNat →
      (s.afeOf ch).settle = none →
      ∃ u, exec (.afeTermWrite t ch (.vtt mv)) s = .next u ∧ u.fld Fld.AFE_VTT_MV ch = mv.toNat ∧
        u.fld Fld.AFE_STATUS_SETTLING ch = 1 ∧ (u.afeOf ch).settle = some (tuAdd (s.at t).time (ns 10000)) ∧
        onlyRegs s u [⟨.AFE_VTT, ch⟩, ⟨.AFE_STATUS, ch⟩]) ∧
    (s.clusterAsleep (ch / 4) = false →
      ∃ u, exec (.afeTermWrite t ch (.term (s.flag Fld.AFE_CFG_TERM ch))) s = .next u ∧ u.afe = s.afe ∧
        sameRegs s u [] ∧ sameMem s u) ∧
    (∀ w : TermWrite, s.clusterAsleep (ch / 4) = true → ∃ u, exec (.afeTermWrite t ch w) s = .next u ∧ u.afe = s.afe ∧
      onlyRegs s u []) ∧
    ∀ e, (s.afeOf ch).settle = some e → tuLe e (s.at t).time = true →
      ∃ u, exec (.afeSettleEnd t ch) s = .next u ∧ (u.afeOf ch).settle = none ∧ u.fld Fld.AFE_STATUS_SETTLING ch = 0 ∧
        onlyRegs s u [⟨.AFE_STATUS, ch⟩]

/-- AFE_OVR, AFE_OVERDRIVE, OVR_HOLD_END, AFE_CM_WINDOW (R142 to R145): a sample whose corrected value lies beyond the
range, or that carries OVR for another reason, is counted, and the first one since OVR was cleared raises the channel's
event; the first value back inside begins the hold of the excursion's class; an overdrive raises PEAK to its class, with its
event; the hold ends after its span; a common mode beyond −520 to +1,520 mV sets CM_ERR with its event, and one within −500
to +1,500 mV clears it. -/
def overrangeIsWatched : Prop :=
  ∀ (s : State) (t : Tu) (ch : Fin 16), s.alive = true → s.clusterAsleep (ch / 4) = false → s.chanOff ch = false →
    (∀ (raw : List (BitVec 16)) (core : Bool),
      let x := s.at t
      let now := Ratio.ofTu x.time
      let v := x.corrected ch (x.sampleAt (ch / 8) (s.ilv ch) now) raw
      let held := s.flag Fld.AFE_CFG_OVR_HOLD ch = true ∧ (s.afeOf ch).exc.isSome = true
      (outOfRange v = true ∨ core = true ∨ s.ovrAt ch now = true ∨ held → s.fld Fld.AFE_OVR_CNT_COUNT ch < 2 ^ 32 - 1 →
        ∃ u, exec (.afeOvr t ch raw core) s = .next u ∧
          u.fld Fld.AFE_OVR_CNT_COUNT ch = s.fld Fld.AFE_OVR_CNT_COUNT ch + 1 ∧ u.flag Fld.AFE_STATUS_OVR ch = true ∧
          (outOfRange v = true → 1 ≤ u.fld Fld.AFE_STATUS_PEAK ch ∧ (u.afeOf ch).exc.isSome = true) ∧
          (outOfRange v = false → (u.afeOf ch).exc = none ∧
            (held → (u.afeOf ch).hold = some (now.add (holdSpan ((s.afeOf ch).exc.getD 0))))) ∧
          (s.flag Fld.AFE_STATUS_OVR ch = false → s.fld Fld.EVT_ROUTE_KIND (80 + 8 * ch) ≠ 1 →
            u.evtStatus (80 + 8 * ch) = true) ∧
          onlyRaising s u [⟨.AFE_OVR_CNT, ch⟩, ⟨.AFE_STATUS, ch⟩] [80 + 8 * ch]) ∧
      (outOfRange v = false → core = false → s.ovrAt ch now = false → ¬held →
        ∃ u, exec (.afeOvr t ch raw core) s = .next u ∧ (u.afeOf ch).exc = none ∧ onlyRegs s u [])) ∧
    (∀ over4 : Bool, ∃ u, exec (.afeOverdrive t ch over4) s = .next u ∧
      u.fld Fld.AFE_STATUS_PEAK ch = max (if over4 then 3 else 2) (s.fld Fld.AFE_STATUS_PEAK ch) ∧
      (s.fld Fld.AFE_STATUS_PEAK ch < (if over4 then 3 else 2) → s.fld Fld.EVT_ROUTE_KIND (81 + 8 * ch) ≠ 1 →
        u.evtStatus (81 + 8 * ch) = true) ∧ onlyRaising s u [⟨.AFE_STATUS, ch⟩] [81 + 8 * ch]) ∧
    (∀ e, (s.afeOf ch).hold = some e → e.le (.ofTu (s.at t).time) = true →
      ∃ u, exec (.ovrHoldEnd t ch) s = .next u ∧ (u.afeOf ch).hold = none ∧ onlyRegs s u []) ∧
    ∀ cm : BitVec 16, ∃ u, exec (.afeCmWindow t ch cm) s = .next u ∧ u.fld Fld.AFE_CM_MEAS_CM ch = cm.toNat ∧
      (cm.toInt < -520 ∨ 1520 < cm.toInt → u.flag Fld.AFE_STATUS_CM_ERR ch = true ∧ (u.afeOf ch).cmOvr.isSome = true ∧
        (s.flag Fld.AFE_STATUS_CM_ERR ch = false → s.fld Fld.EVT_ROUTE_KIND (82 + 8 * ch) ≠ 1 →
          u.evtStatus (82 + 8 * ch) = true)) ∧
      (-500 ≤ cm.toInt → cm.toInt ≤ 1500 → u.flag Fld.AFE_STATUS_CM_ERR ch = false ∧ sameSource s u (82 + 8 * ch)) ∧
      onlyRaising s u [⟨.AFE_CM_MEAS, ch⟩, ⟨.AFE_STATUS, ch⟩] [82 + 8 * ch]

/-- The front ends settle, and their ranges are watched. -/
def Obligations.FrontEndsAreWatched : Prop := frontEndsSettle ∧ overrangeIsWatched

/-- CAL_SHADOW_START, SHADOW_WINDOW_END, CAL_PRELOAD_START, HANDOVER, ILV_CAL_CTRL_WRITE (R154, R155, R157, R160, R162,
R163, R165): the phases of the dwell; REFERENCE fixes the spare's offset and gain; a window makes one step toward its
measurement, and one without activity is counted as skipped; at the handover the spare takes the position that has been
active longest, and the next dwell begins exactly 4 ms after the last while UNPITCHED; with a pitch in force the row is the tick
that makes a handover, and no occurrence at any other; FREEZE takes effect on the whole group. -/
def Obligations.SpareRotates : Prop :=
  (∀ (s : State) (t : Tu) (ln : Fin 16) (d : Tu), s.alive = true → (s.lane ln).dwell = some d →
    (∀ ofs gain : BitVec 16, s.fld Fld.ILV_LANE_STATUS_PHASE ln = 0 → tuLe (tuAdd d (ns 1000000)) (s.at t).time = true →
      ∃ u, exec (.calShadowStart t ln ofs gain) s = .next u ∧ u.fld Fld.ILV_LANE_STATUS_PHASE ln = 1 ∧
        (u.lane ln).window = 0 ∧
        (let slice := s.fld Fld.ILV_LANE_STATUS_SPARE ln
         (s.frozen ln = false → u.setOf ln slice (s.combo ln) =
           { s.setOf ln slice (s.combo ln) with ofs := ofs.toInt, gain := gain.toInt }) ∧
         (s.frozen ln = true → (u.lane ln).sets = (s.lane ln).sets)) ∧
        onlyRegs s u [⟨.ILV_LANE_STATUS, ln⟩]) ∧
    (∀ m : ShadowMeas, s.fld Fld.ILV_LANE_STATUS_PHASE ln = 1 → s.frozen ln = false →
      (s.lane ln).window < (s.shadowWindows ln).1 →
      tuLe (tuAdd d (ns 1000000 + ((s.lane ln).window + 1) * (s.shadowWindows ln).2)) (s.at t).time = true →
      ∃ u, exec (.shadowWindowEnd t ln m) s = .next u ∧ (u.lane ln).window = (s.lane ln).window + 1 ∧
        (let tgt := s.shadowTarget ln (s.lane ln).window
         let slice := s.fld (posFld tgt.2) tgt.1
         (s.goodPairs ln m ≠ [] → (u.lane tgt.1).updates = (s.lane tgt.1).updates ++ [(9 * slice + s.combo tgt.1,
           moveCorr (s.setOf tgt.1 slice (s.combo tgt.1)) m (u.meanSkew ln) (s.windowActive ln m))]) ∧
         (s.goodPairs ln m = [] → (u.lane tgt.1).updates = (s.lane tgt.1).updates)) ∧
        (s.windowActive ln m = false → s.fld Fld.ILV_CAL_SKIP_COUNT ln < 2 ^ Fld.ILV_CAL_SKIP_COUNT.width - 1 →
          u.fld Fld.ILV_CAL_SKIP_COUNT ln = s.fld Fld.ILV_CAL_SKIP_COUNT ln + 1) ∧
        (s.windowActive ln m = true → u.fld Fld.ILV_CAL_SKIP_COUNT ln = s.fld Fld.ILV_CAL_SKIP_COUNT ln ∧
          u.fld Fld.ILV_CAL_SKIP_RUN ln = 0) ∧
        onlyRaising s u [⟨.ILV_CAL_DEV, ln⟩, ⟨.ILV_CAL_SKIP, ln⟩]
          [86 + 8 * s.firstLane ln, 87 + 8 * s.firstLane ln]) ∧
    (∀ fit : Corr, s.fld Fld.ILV_LANE_STATUS_PHASE ln = 1 → (s.lane ln).window = (s.shadowWindows ln).1 →
      s.frozen ln = false → tuLe (tuAdd d (ns 3000000)) (s.at t).time = true →
      ∃ u, exec (.calPreloadStart t ln fit) s = .next u ∧ u.fld Fld.ILV_LANE_STATUS_PHASE ln = 2 ∧
        (u.lane ln).preload = some fit ∧ onlyRegs s u [⟨.ILV_LANE_STATUS, ln⟩])) ∧
  (∀ (s : State) (ln : Fin 16) (host : List HostRead) (e : Tu), s.alive = true → s.pitched = false →
    s.standby = false → s.dwellEnd = some e → tuLe s.time e = true → tuLt e s.nextGrid = true →
    s.handoverDue ln e = true →
    ∃ u, exec (.handover host) s = .next u ∧ u.time = e ∧
      u.fld (posFld ((s.lane ln).order.headD 0)) ln = s.fld Fld.ILV_LANE_STATUS_SPARE ln ∧
      u.fld Fld.ILV_LANE_STATUS_SPARE ln = s.fld (posFld ((s.lane ln).order.headD 0)) ln ∧
      (u.lane ln).order = (s.lane ln).order.drop 1 ++ [(s.lane ln).order.headD 0] ∧
      (u.lane ln).handovers = (s.lane ln).handovers + 1 ∧ (u.lane ln).dwell = some (s.dwellOver ln) ∧
      u.fld Fld.ILV_LANE_STATUS_PHASE ln = 0 ∧ u.frameOf .ILV_HANDOVER_LO .ILV_HANDOVER_HI ln = 0) ∧
  (∀ (s : State) (host : List HostRead), s.pitched = true →
    (∀ ln : Fin 16, ((s.frameTick host).lane ln).handovers ≠ (s.lane ln).handovers →
      exec (.handover host) s = exec (.frameTick host) s) ∧
    ((∀ ln : Fin 16, ((s.frameTick host).lane ln).handovers = (s.lane ln).handovers) →
      exec (.handover host) s = .next s)) ∧
  ∀ (s : State) (t : Tu) (ln : Fin 16) (v : Word), s.hostUp = true → s.clusterAsleep (ln / 4) = false →
    (s.firstLane ln = ln.val → ∃ u, exec (.ilvCalCtrlWrite t ln v) s = .next u ∧
      u.flag Fld.ILV_CAL_CTRL_FREEZE ln = v.getLsbD 0 ∧ u.fld Fld.ILV_CAL_CTRL_ACT_MIN ln = getBits v 4 8 ∧
      (∀ k ∈ s.groupOf ln, u.frozen k = v.getLsbD 0) ∧
      onlyRegs s u (⟨.ILV_CAL_CTRL, ln⟩ :: (s.groupOf ln).map fun k => ⟨.ILV_LANE_STATUS, k⟩)) ∧
    (s.firstLane ln ≠ ln.val → ∃ u, exec (.ilvCalCtrlWrite t ln v) s = .next u ∧
      u.flag Fld.ILV_CAL_CTRL_FREEZE ln = v.getLsbD 0 ∧ u.lanes = s.lanes ∧ onlyRegs s u [⟨.ILV_CAL_CTRL, ln⟩])

/-- MB_CAL_SAVE, MB_CAL_RESTORE, MB_CAL_INFO (R175, R176): a save writes the named lanes that are settled and not stale
to their slot and tells which; a restore loads the lanes that pass and tells which and which not; the information is that
of the entry. -/
def Obligations.CalibrationSlotsHold : Prop :=
  ∀ (s : State) (t : Tu) (tag : Byte), argAt s.mbArgs 0 ≤ 7 →
    (∀ saved, saved = ((bitsOf 16 (argAt s.mbArgs 1)).filter fun ln => !s.stale ln && s.settled (ln / 8)) →
      boxReady s 0x20 →
      (∃ u, exec (.mbCalSave t tag true) s = .next u ∧
        (∀ ln ∈ saved, u.calAt (argAt s.mbArgs 0) ln = some (s.calEntry ln true)) ∧
        u.reg .MGT_MB_RES 0 = w32 (saved.map fun ln => 2 ^ ln).sum ∧ boxDone s u tag mbOk ∧
        onlyRaising s u boxRegs [456]) ∧
      ∃ u, exec (.mbCalSave t tag false) s = .next u ∧ boxDone s u tag mbFlash ∧
        (s.fld Fld.EVT_ROUTE_KIND 467 ≠ 1 → u.evtStatus 467 = true) ∧ onlyRaising s u boxRegs [456, 467]) ∧
    (boxReady s 0x21 → ∃ u, exec (.mbCalRestore t tag) s = .next u ∧ boxDone s u tag mbOk ∧
      (∀ ln ∈ bitsOf 16 (argAt s.mbArgs 1 % 2 ^ 16), ∀ c, s.calAt (argAt s.mbArgs 0) ln = some c →
        (s.groupReason (argAt s.mbArgs 0) (argAt s.mbArgs 1 % 2 ^ 16) ln = 0 →
          (u.lane ln).restored = some ((s.at t).time, 3 * c.range + c.filter, c.sets)) ∧
        (s.groupReason (argAt s.mbArgs 0) (argAt s.mbArgs 1 % 2 ^ 16) ln ≠ 0 → u.lane ln = s.lane ln)) ∧
      u.reg .MGT_MB_RES 0 = w32 (((bitsOf 16 (argAt s.mbArgs 1 % 2 ^ 16)).filter fun ln =>
        s.groupReason (argAt s.mbArgs 0) (argAt s.mbArgs 1 % 2 ^ 16) ln == 0).map fun ln => 2 ^ ln).sum ∧
      u.reg .MGT_MB_RES 1 = w32 (((bitsOf 16 (argAt s.mbArgs 1 % 2 ^ 16)).filter fun ln =>
        s.groupReason (argAt s.mbArgs 0) (argAt s.mbArgs 1 % 2 ^ 16) ln != 0).map fun ln => 2 ^ ln).sum ∧
      onlyRaising s u boxRegs [456]) ∧
    ∀ c, boxReady s 0x22 → argAt s.mbArgs 1 ≤ 15 → s.calAt (argAt s.mbArgs 0) (argAt s.mbArgs 1) = some c →
      c.crcOk = true →
      ∃ u, exec (.mbCalInfo t tag) s = .next u ∧ boxDone s u tag mbOk ∧ u.reg .MGT_MB_RES 0 = 1 ∧
        u.reg .MGT_MB_RES 1 = w32 c.range ∧ u.reg .MGT_MB_RES 2 = w32 c.filter ∧ u.reg .MGT_MB_RES 3 = w32 c.rate ∧
        u.reg .MGT_MB_RES 4 = w32 (Nat.log2 c.ilv) ∧
        u.reg .MGT_MB_RES 5 = w32 (unsgn 32 c.temp) ∧ onlyRaising s u boxRegs [456]

/-! ### The trigger engine (chapter 08) -/

/-- A condition at `x` makes generator `g` fire: it runs, has no holdoff and no sequence, and has not fired in this
pipeline cycle (R190 to R194). -/
def readyToFire (s : State) (g : Nat) (x : Tu) : Prop :=
  s.genLive g = true ∧ tuLe (s.gen g).from_ x = true ∧ s.fld Fld.TRG_GEN_CFG_HO_MODE g = 0 ∧ s.seqMode g = 0 ∧
    (∀ f, (s.gen g).fired = some f → s.pipeCycle (g / 4) f ≠ s.pipeCycle (g / 4) x) ∧
    s.fld Fld.TRG_GEN_CNT_COUNT g < 2 ^ 32 - 1

/-- Generator `g` has fired at `x`: its counter, stamp and status tell it, and the fire waits at every region that the
generator is wired to (R182, R195). -/
def hasFired (s u : State) (g : Nat) (x : Tu) : Prop :=
  u.fld Fld.TRG_GEN_CNT_COUNT g = s.fld Fld.TRG_GEN_CNT_COUNT g + 1 ∧ u.pair .TRG_GEN_TTS_LO .TRG_GEN_TTS_HI g = x ∧
    u.fld Fld.TRG_GEN_STATUS_FIRED g = 1 ∧
    ∀ m, m < 32 → (s.fld Fld.TRG_GEN_REGIONS_REGION_MASK g).testBit m = true → s.hasRegion m = true →
      (⟨x, g, false⟩ : Fire) ∈ (u.region m).fires

/-- COMPARATOR_CROSSING, TRG_FORCE (R184, R186, R190 to R195): a crossing that changes its comparator's output, 40 ps or more
after the last one, is noted, and fires the EDGE generators of its slope on its lane at its stamp; one that no generator and no
counter watches does nothing else, but that an offset of the stamp beyond ±1 ps outside CAL_STALE raises the cluster's event.
A write of TRG_FORCE makes each generator that it names, and that a force reaches, wait for the first pipeline cycle that
begins at least 40 ns later, and changes nothing else; a generator whose forced fire is due has fired at that instant when a
write of TRG_FORCE finds it. -/
def generatorsFire : Prop :=
  (∀ (s : State) (t : Tu) (ln : Fin 16) (lo rise off : Bool), s.alive = true → s.laneOff ln = false →
    s.trigsDue ((s.at t).stamp t) = [] → s.crosses ln lo rise ((s.at t).stamp t) = true →
    (∃ u, exec (.comparatorCrossing t ln lo rise off) s = .next u ∧
      u.fld (if lo then Fld.TRG_COMP_STATE_LO else Fld.TRG_COMP_STATE_HI) ln = rise.toNat ∧
      u.comp ln = noteCrossing (s.comp ln) lo rise ((s.at t).stamp t) ∧ sameMem s u ∧
      ((∀ g, g < 16 → s.genLive g = false) → (∀ i, i < 32 → s.measuring i = false) →
        (off = false ∨ s.stale ln = true → onlyRegs s u [⟨.TRG_COMP_STATE, ln⟩]) ∧
        (off = true → s.stale ln = false →
          onlyRaising s u [⟨.TRG_COMP_STATE, ln⟩] [256 + ln.val / 4] ∧
            (s.fld Fld.EVT_ROUTE_KIND (256 + ln.val / 4) ≠ 1 → u.evtStatus (256 + ln.val / 4) = true)))) ∧
    ∀ g, g / 4 = ln.val / 4 → readyToFire (s.at t) g ((s.at t).stamp t) → s.genType g = 0 → s.genLane g = ln.val →
      lo = false → (rise = true ∧ s.genSlope g = 0) ∨ (rise = false ∧ s.genSlope g = 1) ∨ s.genSlope g = 2 →
      ∃ u, exec (.comparatorCrossing t ln lo rise off) s = .next u ∧ hasFired s u g ((s.at t).stamp t)) ∧
  ∀ (s : State) (t : Tu) (c : Fin 4) (bits : BitVec 4), s.hostUp = true → s.clusterAsleep c = false →
    (s.trigsDue (s.at t).time = [] →
      ∃ u, exec (.trgForce t c bits) s = .next u ∧ onlyRegs s u [] ∧
        (∀ i, i < 4 → bits.getLsbD i = true → s.forceable (4 * c + i) = true →
          (s.at t).pipeStart c (tuAdd (s.at t).time (ns 40)) ∈ (u.gen (4 * c + i)).forced) ∧
        ∀ g, g / 4 ≠ c.val ∨ bits.getLsbD (g % 4) = false ∨ s.forceable g = false → u.gen g = s.gen g) ∧
    ∀ (g : Nat) (tts : Tu), g < 16 → s.trigsDue (s.at t).time = [(g / 4, tts)] → tts ∈ (s.gen g).forced →
      s.forceable g = true → s.fld Fld.TRG_GEN_CNT_COUNT g < 2 ^ 32 - 1 →
      ∃ u, exec (.trgForce t c bits) s = .next u ∧ hasFired s u g tts ∧ sameMem s u

/-- TRIG_IN_EDGE, TRIG_OUT_PULSE (R205, R206): an edge on a TRIG_IN line is counted, raises the event of lines 0 to 3, and
fires its XTRIG record where the line selects it; one within 1 ns of the last is ignored; a pulse leaves a TRIG_OUT line
at its edge time with its width, and one that comes before the end of the current pulse plus 4 ns merges into it. -/
def triggerPinsAct : Prop :=
  (∀ (s : State) (t : Tu) (i : Fin 8) (rise : Bool), s.alive = true → s.trigsDue ((s.at t).stamp t) = [] →
    (tget 0 s.trigIn i = 0 ∨ tuLt ((s.at t).stamp t) (tuAdd (tget 0 s.trigIn i) (ns 1)) = false →
      s.fld Fld.HUB_TRIG_IN_CNT_COUNT i < 2 ^ 32 - 1 →
      ∃ u, exec (.trigInEdge t i rise) s = .next u ∧
        u.fld Fld.HUB_TRIG_IN_CNT_COUNT i = s.fld Fld.HUB_TRIG_IN_CNT_COUNT i + 1 ∧
        tget 0 u.trigIn i = (s.at t).stamp t ∧
        (i.val < 4 → s.fld Fld.EVT_ROUTE_KIND (264 + i) ≠ 1 → u.evtStatus (264 + i) = true) ∧
        (trigInTakes (s.fld Fld.HUB_TRIG_IN_CFG_EDGE i) rise = true → ∀ m, m < 32 →
          (recFld s.pitch.recs 4 i 0 4 0).testBit m = true → s.hasRegion m = true →
          (⟨(s.at t).stamp t, 16 + i, false⟩ : Fire) ∈ (u.region m).fires) ∧ sameMem s u) ∧
    (tget 0 s.trigIn i ≠ 0 → tuLt ((s.at t).stamp t) (tuAdd (tget 0 s.trigIn i) (ns 1)) = true →
      ∃ u, exec (.trigInEdge t i rise) s = .next u ∧ u.trigIn = s.trigIn ∧ onlyRegs s u [])) ∧
  ∀ (s : State) (i : Fin 4) (p : Pulse) (rest : List Pulse), s.alive = true →
    (tget TrigLine.init s.trigOut i).waiting = p :: rest → tuLe s.time p.edge = true →
    s.standby = true ∨ tuLt p.edge s.nextGrid = true → s.flag Fld.HUB_TRIG_OUT_CFG_EN i = true →
    s.trigsDue p.edge = [] →
    ((tget TrigLine.init s.trigOut i).stop = none →
      ∃ u, exec (.trigOutPulse i) s = .next u ∧ u.time = p.edge ∧
        u.out = .trigOut i p.edge (tuAdd p.edge (ns p.width)) p.low :: s.out ∧
        tget TrigLine.init u.trigOut i = ⟨rest, some (tuAdd p.edge (ns p.width))⟩ ∧ onlyRegs s u []) ∧
    ∀ e, (tget TrigLine.init s.trigOut i).stop = some e → tuLt p.edge (tuAdd e (ns 4)) = true →
      s.fld Fld.HUB_TRIG_OUT_MERGED_COUNT i < 2 ^ 32 - 1 →
      ∃ u, exec (.trigOutPulse i) s = .next u ∧ Out.trigOut i e (tuAdd p.edge (ns p.width)) p.low ∈ u.out ∧
        s.fld Fld.HUB_TRIG_OUT_MERGED_COUNT i < u.fld Fld.HUB_TRIG_OUT_MERGED_COUNT i ∧
        (s.fld Fld.HUB_TRIG_OUT_MERGED_COUNT i = 0 → s.fld Fld.EVT_ROUTE_KIND (260 + i) ≠ 1 →
          u.evtStatus (260 + i) = true) ∧ onlyRaising s u [] [260 + i]

/-- Triggers fire, and the trigger pins act, as the rules say. -/
def Obligations.TriggersFire : Prop := generatorsFire ∧ triggerPinsAct

/-! ### Record regions and memory (chapters 08, 09) -/

/-- REGION_READY, REGION_FIRE_DECISION, REARM_END (R199 to R201, R216, R224, R227): a region is READY once PRE samples have
been converted; when its trigger sample has left the decision window, a single waiting fire that counts and that Table TRG-4
does not turn away opens a segment with its stamp as TTS, one that it turns away is counted with its cause, and one whose
trigger sample lies where the region is not armed is dropped; 8 ns after the segment the region fills again. -/
def Obligations.RegionsDecideFires : Prop :=
  (∀ (s : State) (m : Fin 32), s.alive = true → s.segState m = 1 →
    s.preNow m = 0 ∨ ((s.at s.time).refInstant m ((s.at s.time).sampleAt (m / 16) (refF s.pitch.recs m)
      (s.region m).filling + s.preNow m - 1)).le (.ofTu (s.at s.time).time) = true →
    ∃ u, exec (.regionReady m) s = .next u ∧ u.segState m = 2 ∧ onlyRegs s u [⟨.SEG_ARM, m⟩]) ∧
  (∀ (s : State) (t : Tu) (m : Fin 32) (f : Fire) (j : Int) (x : Ratio), s.alive = true →
    s.trigsDue (s.at t).time = [] → (s.region m).fires = [f] → f.stop = false → s.continuous m = false →
    s.blocked m f.tts = false → j = (s.at t).trigOf m f.tts → x = (s.at t).refInstant m j → (s.region m).gone = none →
    (x.add (.ofInt (ns 72))).le (.ofTu (s.at t).time) = true →
    ((s.at t).counts m x = true → (s.at t).missCause m f.tts j x = 0 →
      ∃ u c, exec (.regionFireDecision t m) s = .next u ∧ u.segState m = 3 ∧ (u.region m).cap = some c ∧ c.tts = f.tts ∧
        c.trigs = (s.segChans m).map (fun ch => (s.at t).sampleAt (m / 16) (s.ilv ch) (.ofTu f.tts)) ∧
        c.n = (s.region m).count ∧ c.arm = (s.region m).armNo ∧ c.pre = ((s.at t).asOf x).preNow m ∧ c.cut = none ∧
        (u.region m).fires = [] ∧ (u.region m).count = (s.region m).count + 1 ∧
        u.fld Fld.SEG_OPEN_COUNT_COUNT m = (s.fld Fld.SEG_OPEN_COUNT_COUNT m + 1) % 2 ^ 32 ∧
        onlyRaising s u [⟨.SEG_ARM, m⟩, ⟨.SEG_OPEN_COUNT, m⟩, ⟨.SEG_STATUS, m⟩, ⟨.SEG_OVERRUN, m⟩] [224 + m]) ∧
    ((s.at t).counts m x = true → (s.at t).missCause m f.tts j x ≠ 0 →
      s.fld Fld.SEG_MISSED_REGION_MISSED m < 2 ^ 32 - 1 →
      ∃ u, exec (.regionFireDecision t m) s = .next u ∧ u.segState m = s.segState m ∧ (u.region m).cap = (s.region m).cap ∧
        u.fld Fld.SEG_MISSED_REGION_MISSED m = s.fld Fld.SEG_MISSED_REGION_MISSED m + 1 ∧
        u.fld Fld.SEG_MISS_CAUSE_LAST m = (s.at t).missCause m f.tts j x ∧
        (s.fld Fld.SEG_MISSED_REGION_MISSED m = 0 → s.dieAsleep (m / 16) = false → s.fld Fld.EVT_ROUTE_KIND (224 + m) ≠ 1 →
          u.evtStatus (224 + m) = true) ∧
        onlyRaising s u [⟨.SEG_MISSED, m⟩, ⟨.SEG_MISS_CAUSE, m⟩] [224 + m]) ∧
    ((s.at t).counts m x = false →
      ∃ u, exec (.regionFireDecision t m) s = .next u ∧ (u.region m).fires = [] ∧ (u.region m).cap = (s.region m).cap ∧
        onlyRegs s u [])) ∧
  ∀ (s : State) (m : Fin 32), s.alive = true → s.segState m = 4 →
    (s.region m).filling.le (.ofTu (s.at s.time).time) = true →
    ∃ u, exec (.rearmEnd m) s = .next u ∧ u.segState m = (if s.preNow m = 0 then 2 else 1) ∧
      onlyRegs s u [⟨.SEG_ARM, m⟩]

/-- Memory outside the slot of unit `n` of region `m` reads as before. -/
def onlySlot (s u : State) (m n : Nat) : Prop :=
  ∀ a, a < s.slotAt m n ∨ s.slotAt m n + slotLen s.pitch.recs m ≤ a → memGet u.mem a = memGet s.mem a

/-- SEGMENT_CLOSE, CONTINUOUS_BLOCK (R211 to R214, R216, R219, R224, R225): a segment that has ended is stored in its slot
and in no other memory, its directory entry is made, and the region re-arms, or stops with FULL where a fixed region has
no slot left; of a WIDE16 segment of one channel every sample stands at its place, with the flags that the device gives it
and TRIG on the trigger sample; a block of a continuous region that has ended is stored in its slot and counted, and with
the end of a wrapping region's block the next one opens. -/
def Obligations.UnitsAreStored : Prop :=
  (∀ (s : State) (m : Fin 32) (c : Capturing) (runs : List (List Sample)), s.alive = true → (s.region m).cap = some c →
    c.cut = none → c.arm = (s.region m).armNo → s.segState m = 3 → s.continuous m = false →
    runs.map List.length = c.counts → c.ends.le (.ofTu (s.at s.time).time) = true → (s.region m).stopAfter = 0 →
    ∃ u e, exec (.segmentClose m runs) s = .next u ∧ (u.region m).cap = none ∧
      (u.region m).closed = (s.region m).closed ++ [e] ∧ e.arm = c.arm ∧ leAt e.entry 0 8 = c.tts.toNat ∧
      tget [] u.dir e.slot = e.entry ∧ onlySlot s u m c.n ∧
      (regionMode s.pitch.recs m = 0 → u.segState m = 4) ∧
      (regionMode s.pitch.recs m = 1 → ahead (s.region m).count ((s.at s.time).releaseSeen m c.ends) =
        regionCap s.pitch.recs m → u.segState m = 5 ∧ u.fld Fld.SEG_STATUS_STOP_CAUSE m = 1) ∧
      (∀ (ch : Nat) (xs : List Sample) (j : Int), s.segChans m = [ch] → regionWide s.pitch.recs m = true → runs = [xs] →
        c.skip = 0 → c.trigs = [j] → xs.length = regionLen s.pitch.recs m → ∀ (p : Nat) (y : Sample), xs[p]? = some y →
          memRead u.mem (s.slotAt m c.n + 2 * p) 2 = leBytes 2 (wide16 ⟨(s.at s.time).flagged ch
            ((s.at s.time).sampleInstant (ch / 8) (s.ilv ch) (j - c.pre + p)) y, p == c.pre⟩))) ∧
  ∀ (s : State) (t : Tu) (m : Fin 32) (runs : List (List Sample)), s.alive = true → s.trigsDue (s.at t).time = [] →
    (∀ (b : Machine.Block) (rest : List Machine.Block), (((s.at t).blocksNow m).region m).ended = b :: rest → b.arm = (s.region m).armNo →
      runs.map List.length = b.counts.getD ((s.segChans m).map (s.runCount m)) →
      (b.ends.add (.ofInt (ns 72))).le (.ofTu (s.at t).time) = true →
      ∃ u, exec (.continuousBlock t m runs) s = .next u ∧ (u.region m).ended = rest ∧
        u.fld Fld.SEG_WB_COUNT_COUNT m = (s.fld Fld.SEG_WB_COUNT_COUNT m + 1) % 2 ^ 32 ∧ onlySlot s u m b.n) ∧
    ∀ (b k : Int), (s.region m).block = some b → (s.region m).ended = [] → regionMode s.pitch.recs m = 2 →
      runs.map List.length = (s.segChans m).map (s.runCount m) →
      k = (s.at t).sampleAt (m / 16) (refF s.pitch.recs m) ((Ratio.ofTu (s.at t).time).sub (.ofInt (ns 72))) →
      (k - b - 1) / 3072 = 1 →
      (((s.at t).refInstant m (b + 3072)).add (.ofInt (ns 72))).le (.ofTu (s.at t).time) = true →
      ∃ u, exec (.continuousBlock t m runs) s = .next u ∧ (u.region m).block = some (b + 3072) ∧
        (u.region m).count = (s.region m).count + 1 ∧ onlySlot s u m ((s.region m).count - 1) ∧
        u.fld Fld.SEG_WB_COUNT_COUNT m = (s.fld Fld.SEG_WB_COUNT_COUNT m + 1) % 2 ^ 32 ∧
        u.fld Fld.SEG_OPEN_COUNT_COUNT m = (s.fld Fld.SEG_OPEN_COUNT_COUNT m + 1) % 2 ^ 32 ∧
        ∀ n i, (⟨n, i⟩ : Reg) ∉ [(⟨.SEG_WB_COUNT, m⟩ : Reg), ⟨.SEG_OPEN_COUNT, m⟩, ⟨.SEG_STATUS, m⟩, ⟨.SEG_OVERRUN, m⟩] →
          eventReg n = false → u.reg n i = s.reg n i

/-- DIRECTORY_WRITEBACK, SEG_RELEASE (R220, R221, R226): the oldest closed entry of a frame that has ended goes to its
place in the mirror, where no queue carries the directory of the region to no other memory, and is counted where it is of the
present arm; a queue that carries it, is running and has the room takes the entry in; a release that does not lower the count
or pass SEG_WB_COUNT is taken, and any other is ignored. -/
def entriesAreWrittenBack : Prop :=
  (∀ (s : State) (t : Tu) (m : Fin 32) (c : Closed) (rest : List Closed), s.alive = true →
    (s.region m).closed = c :: rest → leAt c.entry 19 6 < s.frame.toNat →
    ∃ u, exec (.directoryWriteback t m) s = .next u ∧ (u.region m).closed = rest ∧
      ((∀ q, q < 64 → s.carries q 5 m = false) →
        memRead u.mem (mirrorAt (c.slot / 65536) (c.slot % 65536)) c.entry.length = c.entry ∧
        ∀ a, a < mirrorAt (c.slot / 65536) (c.slot % 65536) ∨
          mirrorAt (c.slot / 65536) (c.slot % 65536) + c.entry.length ≤ a → memGet u.mem a = memGet s.mem a) ∧
      (∀ q, q < 64 → s.carries q 5 m = true → s.qState q = 1 → (s.queue q).accepting = true →
        (s.queue q).bytes + c.entry.length ≤ stageSize s.pitch.recs q →
        (u.queue q).bytes = (s.queue q).bytes + c.entry.length) ∧
      (c.arm = (s.region m).armNo →
        u.fld Fld.SEG_WB_COUNT_COUNT m = (s.fld Fld.SEG_WB_COUNT_COUNT m + 1) % 2 ^ 32) ∧
      (c.arm ≠ (s.region m).armNo → u.reg .SEG_WB_COUNT m = s.reg .SEG_WB_COUNT m) ∧
      ∀ n i, (⟨n, i⟩ : Reg) ∉ [(⟨.SEG_WB_COUNT, m⟩ : Reg), ⟨.SEG_STATUS, m⟩] → n ≠ .DMA_Q_STAGED → eventReg n = false →
        u.reg n i = s.reg n i) ∧
  ∀ (s : State) (t : Tu) (m : Fin 32) (n : Word), s.hostUp = true → s.dieAsleep (m / 16) = false →
    (ahead n.toNat (s.fld Fld.SEG_RELEASE_COUNT m) < 2 ^ 31 → ahead (s.fld Fld.SEG_WB_COUNT_COUNT m) n.toNat < 2 ^ 31 →
      ∃ u, exec (.segRelease t m n) s = .next u ∧ u.fld Fld.SEG_RELEASE_COUNT m = n.toNat ∧
        onlyRegs s u [⟨.SEG_RELEASE, m⟩, ⟨.SEG_STATUS, m⟩]) ∧
    (2 ^ 31 ≤ ahead n.toNat (s.fld Fld.SEG_RELEASE_COUNT m) ∨ 2 ^ 31 ≤ ahead (s.fld Fld.SEG_WB_COUNT_COUNT m) n.toNat →
      ∃ u, exec (.segRelease t m n) s = .next u ∧ onlyRegs s u [])

/-- MEM_WBUF_HIGH, STACK_TEMP_READ, MEM_CE, MEM_UE, MEM_SCRUB_DONE, MEM_BRIDGE (R17, R230, R232, R233): the fill of a
write buffer is shown, and a full one stops its continuous regions, the wrapping ones with BUFFER; the temperature of a stack is shown, and
the limits and the errors raise their events; the first uncorrectable error leaves its address. -/
def Obligations.StacksAreWatched : Prop :=
  (∀ (s : State) (t : Tu) (c : Fin 4) (fill : Fin 262145), s.alive = true → s.clusterAsleep c = false →
    fill.val < 262144 →
    ∃ u, exec (.memWbufHigh t c fill) s = .next u ∧ u.fld Fld.MEM_WBUF_FILL c = fill ∧
      (196608 < fill.val → s.flag Fld.MEM_WBUF_HIGH_SEEN c = false → s.fld Fld.MEM_WBUF_FILL c ≤ 196608 → s.fld Fld.EVT_ROUTE_KIND (272 + c) ≠ 1 →
        u.evtStatus (272 + c) = true) ∧
      (fill.val ≤ 196608 → sameSource s u (272 + c)) ∧ onlyRaising s u [⟨.MEM_WBUF, c⟩] [272 + c]) ∧
  (∀ (s : State) (t : Tu) (c : Fin 4), s.alive = true → s.clusterAsleep c = false →
    ∃ u, exec (.memWbufHigh t c 262144) s = .next u ∧ u.fld Fld.MEM_WBUF_FILL c = 262144 ∧
      (∀ m ∈ s.contOf c, u.segState m = 5 ∧
        (regionMode s.pitch.recs m = 2 → u.fld Fld.SEG_STATUS_STOP_CAUSE m = 3)) ∧ sameMem s u) ∧
  ∀ (s : State) (t : Tu) (e : Fin 2), s.alive = true → s.dieAsleep e = false →
    (∀ temp : BitVec 16, ∃ u, exec (.stackTempRead t e temp) s = .next u ∧ u.fld Fld.MEM_STATUS_TEMP e = temp.toNat ∧
      (s.flag Fld.MEM_STATUS_REFRESH_2X e = false →
        (u.flag Fld.MEM_STATUS_REFRESH_2X e = true ↔ 850 < temp.toInt) ∧
        (850 < temp.toInt → s.fld Fld.EVT_ROUTE_KIND (280 + e) ≠ 1 → u.evtStatus (280 + e) = true)) ∧
      (s.flag Fld.MEM_STATUS_REFRESH_2X e = true →
        (u.flag Fld.MEM_STATUS_REFRESH_2X e = true ↔ 830 ≤ temp.toInt)) ∧
      onlyRaising s u [⟨.MEM_STATUS, e⟩] [280 + e]) ∧
    (s.fld Fld.MEM_CE_CNT_COUNT e < 2 ^ 32 - 1 →
      ∃ u, exec (.memCe t e) s = .next u ∧ u.fld Fld.MEM_CE_CNT_COUNT e = s.fld Fld.MEM_CE_CNT_COUNT e + 1 ∧
        (s.fld Fld.MEM_CE_CNT_COUNT e = 0 → s.fld Fld.EVT_ROUTE_KIND (276 + e) ≠ 1 → u.evtStatus (276 + e) = true) ∧
        onlyRaising s u [⟨.MEM_CE_CNT, e⟩] [276 + e]) ∧
    (∀ (a : BitVec 34) (bar2 : Option Nat), s.fld Fld.MEM_UE_CNT_COUNT e < 2 ^ 32 - 1 →
      ∃ u, exec (.memUe t e a bar2) s = .next u ∧ u.fld Fld.MEM_UE_CNT_COUNT e = s.fld Fld.MEM_UE_CNT_COUNT e + 1 ∧
        (s.fld Fld.MEM_UE_CNT_COUNT e = 0 → u.pair .MEM_UE_ADDR_LO .MEM_UE_ADDR_HI e = a.setWidth 64) ∧
        (s.fld Fld.MEM_UE_CNT_COUNT e ≠ 0 →
          u.pair .MEM_UE_ADDR_LO .MEM_UE_ADDR_HI e = s.pair .MEM_UE_ADDR_LO .MEM_UE_ADDR_HI e) ∧
        (s.fld Fld.EVT_ROUTE_KIND (278 + e) ≠ 1 → u.evtStatus (278 + e) = true) ∧
        onlyRaising s u [⟨.MEM_UE_CNT, e⟩, ⟨.MEM_UE_ADDR_LO, e⟩, ⟨.MEM_UE_ADDR_HI, e⟩] [278 + e]) ∧
    (∃ u, exec (.memScrubDone t e) s = .next u ∧
      (s.fld Fld.EVT_ROUTE_KIND (284 + e) ≠ 1 → u.evtStatus (284 + e) = true) ∧ onlyRaising s u [] [284 + e]) ∧
    (s.fld Fld.MEM_BRIDGE_RETRY_COUNT e < 2 ^ 32 - 1 →
      ∃ u, exec (.memBridge t e) s = .next u ∧ u.fld Fld.MEM_BRIDGE_RETRY_COUNT e = s.fld Fld.MEM_BRIDGE_RETRY_COUNT e + 1 ∧
        (s.fld Fld.MEM_BRIDGE_RETRY_COUNT e = 0 → s.fld Fld.EVT_ROUTE_KIND (282 + e) ≠ 1 →
          u.evtStatus (282 + e) = true) ∧ onlyRaising s u [⟨.MEM_BRIDGE_RETRY, e⟩] [282 + e])

/-- BAR2_READ, BAR2_WRITE (R213, R222): a read returns the bytes of the stacks, and 0 for a byte that is not populated, is
reserved, or belongs to a sleeping die; of an entry that is written back at that instant it returns for each byte the old one
or the new one; a write stores the bytes at addresses that the host may write, and at no other. -/
def hostReachesTheStacks : Prop :=
  ∀ (s : State) (t : Tu) (a : BitVec 36), s.hostUp = true →
    (∀ len : Nat, ∃ u bs, exec (.bar2Read t a len) s = .next u ∧ u.out = .bar2Data bs false :: s.out ∧ bs.length = len ∧
      onlyRegs s u [] ∧
      ∀ k, k < len →
        ((2 * stackSpan ≤ a.toNat + k ∨ inReserved (a.toNat + k) = true ∨ s.dieAsleep ((a.toNat + k) / stackSpan) = true →
          bs[k]? = some 0) ∧
        (a.toNat + k < 2 * stackSpan → inReserved (a.toNat + k) = false → s.dieAsleep ((a.toNat + k) / stackSpan) = false →
          bs[k]? = some (memGet s.mem (a.toNat + k)) ∨
            ∃ base old, s.dma.torn = some ((s.at t).time, base, old) ∧ base ≤ a.toNat + k ∧ a.toNat + k < base + 32 ∧
              bs[k]? = some (old.getD (a.toNat + k - base) 0)))) ∧
    ∀ data : List Byte, ∃ u, exec (.bar2Write t a data) s = .next u ∧ sameRegs s u [] ∧
      (∀ x, x < a.toNat ∨ a.toNat + data.length ≤ x ∨ s.bar2Writable x = false → memGet u.mem x = memGet s.mem x) ∧
      ∀ (k : Nat) (b : Byte), data[k]? = some b → s.bar2Writable (a.toNat + k) = true →
        memGet u.mem (a.toNat + k) = b

/-- Entries are written back and released, and the host reaches the stacks. -/
def Obligations.StacksAreRead : Prop := entriesAreWrittenBack ∧ hostReachesTheStacks

/-! ### Reductions, density accumulation, time interval (chapters 10 to 12) -/

/-- REDUCTION_OUTPUT (R238, R240 to R245): at its next kept instant a unit puts out the mean of its cascade and the peak of
the samples since the last one, with the flags that the device gives them, counts the output, and counts a bad one; with one
stage of length 1 and D = 1 the output is the sample itself. -/
def Obligations.ReductionsPutOut : Prop :=
  ∀ (s : State) (u : Fin 16) (xs ys : List Sample) (s' : State), s.alive = true → s' = s.at (s.redKept u) →
    s.flag Fld.RED_CFG_EN u = true → s.clusterAsleep (u / 4) = false → s.redLenOk u xs.length = true →
    tuLe (s'.redKept u) s'.time = true →
    ys = s'.flagRun (s.fld Fld.RED_SRC_CH u) (s'.redNext u - (xs.length - 1 : Nat)) xs →
    (∃ w r y, exec (.reductionOutput u xs) s = .next w ∧
      redRun (s.redL u) (s.redStages u) (s.redOf u) ys ⟨0, false, false⟩ = (r, y) ∧
      w.fld Fld.RED_LAST_MEAN u = meanWord y ∧ (w.redOf u).kept = (s.redOf u).kept + 1 ∧
      (w.redOf u).stages = r.stages ∧ w.fld Fld.RED_OUT_COUNT_COUNT u = (s.fld Fld.RED_OUT_COUNT_COUNT u + 1) % 2 ^ 32 ∧
      (y.bad = true → s.fld Fld.RED_BAD_CNT_COUNT u < 2 ^ 32 - 1 →
        w.fld Fld.RED_BAD_CNT_COUNT u = s.fld Fld.RED_BAD_CNT_COUNT u + 1) ∧
      (y.bad = false → w.reg .RED_BAD_CNT u = s.reg .RED_BAD_CNT u) ∧
      onlyRegs s w (⟨.RED_OUT_COUNT, u⟩ :: ⟨.RED_LAST, u⟩ :: ⟨.RED_BAD_CNT, u⟩ ::
        (List.range 16).map fun v => ⟨.RED_STATUS, v⟩)) ∧
    ∀ x : Sample, ys = [x] → s.redL u = 1 → s.redStages u = 1 → s.redD u = 1 →
      ∃ w, exec (.reductionOutput u xs) s = .next w ∧
        w.fld Fld.RED_LAST_MEAN u = unsgn 14 (16 * x.code.toInt) * 4 + (x.ovr || x.clkbad || x.step).toNat ∧
        w.fld Fld.RED_LAST_PEAK u = x.code.toNat * 64 + x.ovr.toNat + 2 * x.clkbad.toNat + 16 * x.step.toNat

/-- SAMPLE_PLACEMENT (R261 to R266): 32 ns after its instant, under the settings that held at it, a sample that the stride
takes is counted in its bin and in TOTAL; one without a place is counted as outside, and one with an excluded flag as
excluded; one of before the plane's last clear is in no bin. -/
def samplesArePlaced : Prop :=
  ∀ (s o : State) (t : Tu) (T : Ratio) (p : Fin 16) (j : Int) (x y : Sample), s.alive = true →
    s.trigsDue (s.at t).time = [] → s.clusterAsleep (p / 4) = false → T = (s.at t).planeInstant p j →
    (s.at t).reached T = true → o = (s.at t).asOf T → y = (s.at t).planeSample p T x →
    o.hasPlane p = true → o.flag Fld.ACC_PLANE_CFG_EN p = true → j % (o.stride (p / 4) : Nat) = 0 →
    (∀ b, o.excluded p y = false → o.binOf p T y = some b → s.beforeClear p T = false → s.bin p b < 0xFFFFFFFF →
      ∃ u, exec (.samplePlacement t p j x) s = .next u ∧ u.bin p b = s.bin p b + 1 ∧
        (∀ b', b' ≠ b → u.bin p b' = s.bin p b') ∧
        u.pair .ACC_PLANE_TOTAL_LO .ACC_PLANE_TOTAL_HI p = s.pair .ACC_PLANE_TOTAL_LO .ACC_PLANE_TOTAL_HI p + 1 ∧
        onlyRegs s u [⟨.ACC_PLANE_TOTAL_LO, p⟩, ⟨.ACC_PLANE_TOTAL_HI, p⟩]) ∧
    (∀ b, o.excluded p y = false → o.binOf p T y = some b → s.beforeClear p T = false → s.bin p b = 0xFFFFFFFF →
      ∃ u, exec (.samplePlacement t p j x) s = .next u ∧ u.bins = s.bins ∧ u.fld Fld.ACC_PLANE_STATUS_SAT p = 1 ∧
        onlyRegs s u [⟨.ACC_PLANE_TOTAL_LO, p⟩, ⟨.ACC_PLANE_TOTAL_HI, p⟩, ⟨.ACC_PLANE_STATUS, p⟩]) ∧
    (∀ b, o.excluded p y = false → o.binOf p T y = some b → s.beforeClear p T = true →
      ∃ u, exec (.samplePlacement t p j x) s = .next u ∧ u.bins = s.bins ∧ onlyRegs s u []) ∧
    (o.excluded p y = false → o.binOf p T y = none → s.fld Fld.ACC_PLANE_OUTSIDE_COUNT p < 2 ^ 32 - 1 →
      ∃ u, exec (.samplePlacement t p j x) s = .next u ∧ u.bins = s.bins ∧
        u.fld Fld.ACC_PLANE_OUTSIDE_COUNT p = s.fld Fld.ACC_PLANE_OUTSIDE_COUNT p + 1 ∧
        onlyRegs s u [⟨.ACC_PLANE_OUTSIDE, p⟩]) ∧
    (o.excluded p y = true → s.fld Fld.ACC_PLANE_EXCL_COUNT p < 2 ^ 32 - 1 →
      ∃ u, exec (.samplePlacement t p j x) s = .next u ∧ u.bins = s.bins ∧
        u.fld Fld.ACC_PLANE_EXCL_COUNT p = s.fld Fld.ACC_PLANE_EXCL_COUNT p + 1 ∧ onlyRegs s u [⟨.ACC_PLANE_EXCL, p⟩])

/-- MASK_VIOLATION, ACC_SNAPSHOT_DONE (R267, R270 to R273): 32 ns after its instant, under the settings that held at it, a
sample whose bin an enabled mask marks counts as a violation, the first one leaves its time, and with ACTION 2 or 3 it stops
regions; a sample that violates nothing changes nothing; a snapshot that is done stands in the stack at its address, and
nowhere else. -/
def masksAndSnapshots : Prop :=
  (∀ (s o : State) (t : Tu) (T : Ratio) (k : Fin 32) (j : Int) (x y : Sample) (b : Nat), s.alive = true →
    s.clusterAsleep (k / 8) = false → s.trigsDue (s.at t).time = [] → T = (s.at t).planeInstant (4 * (k / 8)) j →
    (s.at t).reached T = true → o = (s.at t).asOf T → y = (s.at t).planeSample (o.maskPlane k) T x →
    o.hasMask k = true → o.flag Fld.ACC_MASK_CFG_EN k = true → o.hasPlane (o.maskPlane k) = true →
    o.excluded (o.maskPlane k) y = false → o.binOf (o.maskPlane k) T y = some b →
    (o.marked k b = true → s.fld Fld.ACC_VIOL_CNT_COUNT k < 2 ^ 32 - 1 →
      ∃ u, exec (.maskViolation t k j x) s = .next u ∧
        u.fld Fld.ACC_VIOL_CNT_COUNT k = s.fld Fld.ACC_VIOL_CNT_COUNT k + 1 ∧
        (s.fld Fld.ACC_VIOL_CNT_COUNT k = 0 → u.pair .ACC_VIOL_FIRST_LO .ACC_VIOL_FIRST_HI k = T.tu) ∧
        (o.fld Fld.ACC_MASK_CFG_ACTION k = 3 → ∀ m, m < 32 → s.hasRegion m = true →
          (⟨T.tu, 25 + k / 8, true⟩ : Fire) ∈ (u.region m).fires) ∧
        (o.fld Fld.ACC_MASK_CFG_ACTION k = 2 → ∀ m, m < 32 → s.hasRegion m = true →
          (recFld s.pitch.recs 4 (9 + k / 8) 0 4 0).testBit m = true →
          (⟨T.tu, 25 + k / 8, true⟩ : Fire) ∈ (u.region m).fires) ∧
        (o.fld Fld.ACC_MASK_CFG_ACTION k ≠ 1 →
          onlyRegs s u [⟨.ACC_VIOL_CNT, k⟩, ⟨.ACC_VIOL_FIRST_LO, k⟩, ⟨.ACC_VIOL_FIRST_HI, k⟩]) ∧ sameMem s u) ∧
    (o.marked k b = false → ∃ u, exec (.maskViolation t k j x) s = .next u ∧ onlyRegs s u [])) ∧
  ∀ (s : State) (t : Tu) (c : Fin 4) (w : Snap), s.alive = true →
    s.snaps.find? (fun e => e.1 == c.val) = some (c.val, w) → s.fld Fld.ACC_SNAP_STATUS_STATE c = 2 →
    (s.at t).reached (.ofTu w.at_) = true →
    ∃ u, exec (.accSnapshotDone t c) s = .next u ∧ u.fld Fld.ACC_SNAP_STATUS_STATE c = 3 ∧
      memRead u.mem (c / 2 * stackSpan + w.addr) w.bytes.length = w.bytes ∧
      (∀ a, a < c / 2 * stackSpan + w.addr ∨ c / 2 * stackSpan + w.addr + w.bytes.length ≤ a →
        memGet u.mem a = memGet s.mem a) ∧ sameRegs s u [⟨.ACC_SNAP_STATUS, c⟩]

/-- Planes count samples, masks judge them, and snapshots copy planes. -/
def Obligations.PlanesAccumulate : Prop := samplesArePlaced ∧ masksAndSnapshots

/-- The registers that a result of counter `i` changes. -/
def ticRegs (i : Nat) : List Reg :=
  [⟨.TIC_LAST_TTS_LO, i⟩, ⟨.TIC_LAST_TTS_HI, i⟩, ⟨.TIC_LAST_VALUE_LO, i⟩, ⟨.TIC_LAST_VALUE_HI, i⟩, ⟨.TIC_LAST_COUNT, i⟩,
   ⟨.TIC_LAST_SEQ, i⟩, ⟨.TIC_TIMEOUT_CNT, i⟩, ⟨.TIC_CFG, i⟩, ⟨.TIC_STATUS, i⟩]

/-- Counter `i` shows a result with this opening time and value, whose STATUS tells (or not) a timeout. -/
def ticShows (u : State) (i : Nat) (tts : Tu) (v : Int) (timeout : Bool) : Prop :=
  u.pair .TIC_LAST_TTS_LO .TIC_LAST_TTS_HI i = tts ∧
    u.fld Fld.TIC_LAST_VALUE_LO_VALUE i + 2 ^ 32 * u.fld Fld.TIC_LAST_VALUE_HI_VALUE i = unsgn 40 v ∧
    (u.fld Fld.TIC_LAST_VALUE_HI_STATUS i).testBit 0 = timeout ∧ (u.ticOf i).open_ = none

/-- An edge at the CLKIN ball is an edge of the prescaled signal, a rising one or a falling one (R278, log 104). -/
def prescaled (s : State) (rise edge : Bool) : Prop :=
  (s.clkinPs = 0 ∧ edge = rise) ∨ (s.clkinPs ≠ 0 ∧ rise = true ∧ ((2 ^ s.clkinPs ≤ s.clk.clkin + 1 ∧ edge = true) ∨
    (s.clk.clkin + 1 < 2 ^ s.clkinPs ∧ s.clk.clkin + 1 = 2 ^ s.clkinPs / 2 ∧ edge = false)))

/-- TIC_TIMEOUT, TIC_WINDOW_END, TIC_GATE_END, CLKIN_EDGE (R278, R279, R282, R283): a measurement that runs out of time ends
with TIMEOUT; at the end of its window a start pairs with the stop that lies within it, or ends with TIMEOUT; a gate gives
the span from its first to its last edge; an edge of CLKIN is divided by 2^PS; a prescaled edge opens a measurement of a
counter that waits for it, one that comes too fast sets RATE_ERR, and none is delivered while RATE_ERR is set or node 29 is
closed. -/
def Obligations.CountersClose : Prop :=
  (∀ (s : State) (i : Fin 32) (o : Stamp) (r : Bool), s.alive = true → s.trigsDue (s.at s.time).time = [] →
    s.ticLive i = true →
    (s.ticOf i).open_ = some (o, r) →
    (∀ d, s.ticDeadline i = some d → tuLe d (s.at s.time).time = true →
      ∃ u, exec (.ticTimeout i) s = .next u ∧ ticShows u i o.t 0 true ∧
        (u.ticOf i).seq = ((s.ticOf i).seq + 1) % 2 ^ 32 ∧
        (s.fld Fld.TIC_TIMEOUT_CNT_COUNT i < 2 ^ 32 - 1 →
          u.fld Fld.TIC_TIMEOUT_CNT_COUNT i = s.fld Fld.TIC_TIMEOUT_CNT_COUNT i + 1) ∧
        (s.fld Fld.TIC_TIMEOUT_CNT_COUNT i = 0 → s.fld Fld.EVT_ROUTE_KIND (424 + i) ≠ 1 → u.evtStatus (424 + i) = true) ∧
        onlyRaising s u (ticRegs i) [424 + i]) ∧
    (∀ (x : Stamp) (rest : List Stamp), (s.ticOf i).starts = x :: rest → (s.ticOf i).doom = none →
      tuLe (tuAdd x.t (s.ticWindow i)) (s.at s.time).time = true →
      ((s.ticOf i).stop = none →
        ∃ u, exec (.ticWindowEnd i) s = .next u ∧ ticShows u i o.t 0 true ∧ onlyRaising s u (ticRegs i) [424 + i]) ∧
      ∀ p, (s.ticOf i).stop = some p → (tuDiff x.t p.t).natAbs ≤ s.ticWindow i → s.ticMode i = 0 →
        ∃ u, exec (.ticWindowEnd i) s = .next u ∧ ticShows u i o.t (tuDiff x.t p.t) false ∧
          onlyRaising s u (ticRegs i) [424 + i]) ∧
    ∀ l : Stamp, s.ticMode i = 4 → (s.ticOf i).lastEdge = some l → 2 ≤ (s.ticOf i).edges →
      tuLe (tuAdd (s.ticOf i).gate (s.ticGate i)) (s.at s.time).time = true →
      ∃ u, exec (.ticGateEnd i) s = .next u ∧ ticShows u i o.t (tuDiff o.t l.t) false ∧
        u.fld Fld.TIC_LAST_COUNT_COUNT i = (s.ticOf i).edges % 2 ^ 32 ∧
        (u.ticOf i).gate = tuAdd (s.ticOf i).gate (s.ticGate i) ∧ onlyRaising s u (ticRegs i) [424 + i]) ∧
  ∀ (s : State) (t : Tu) (rise : Bool), s.alive = true → s.trigsDue ((s.at t).stamp t) = [] →
    (s.flag Fld.CLK_CLKIN_CFG_RATE_ERR 0 = true ∨ s.gateOpen 29 = false →
      ∃ u, exec (.clkinEdge t rise) s = .next u ∧ u.tic = s.tic ∧ u.clk = s.clk ∧ onlyRegs s u []) ∧
    (s.flag Fld.CLK_CLKIN_CFG_RATE_ERR 0 = false → s.gateOpen 29 = true →
      ((∀ e, ¬ prescaled s rise e) →
        ∃ u, exec (.clkinEdge t rise) s = .next u ∧ u.tic = s.tic ∧ u.clk.clkin = s.clk.clkin + rise.toNat ∧
          onlyRegs s u []) ∧
      (∀ l, prescaled s rise true → s.clk.clkinAt = some l → 5 * tuDiff l ((s.at t).stamp t) < 32768 →
        ∃ u, exec (.clkinEdge t rise) s = .next u ∧ u.fld Fld.CLK_CLKIN_CFG_RATE_ERR 0 = 1 ∧ u.tic = s.tic ∧
          onlyRegs s u [⟨.CLK_CLKIN_CFG, 0⟩]) ∧
      ∀ edge, prescaled s rise edge →
        (edge = true → ∀ l, s.clk.clkinAt = some l → 32768 ≤ 5 * tuDiff l ((s.at t).stamp t)) →
        ∀ i, i < 32 → s.ticLive i = true → s.fld Fld.TIC_SRC_START i = 0x20 → s.fld Fld.TIC_SRC_STOP i ≠ 0x20 →
        s.ticMode i < 4 → edgeTaken (s.fld Fld.TIC_CFG_START_EDGE i) true edge = true → (s.ticOf i).open_ = none →
        (s.ticOf i).starts = [] → tuLe (s.ticOf i).runAt ((s.at t).stamp t) = true →
        tuLe (s.ticOf i).ready ((s.at t).stamp t) = true →
        ∃ u, exec (.clkinEdge t rise) s = .next u ∧
          (u.ticOf i).open_ = some (⟨(s.at t).stamp t, s.coasting, false⟩, edge) ∧ sameMem s u)

/-! ### SYNC (chapter 10) -/

/-- The SYNC waits to act at the stamp. -/
def syncWaits (s : State) (ts : Tu) (src : Nat) (twin : Bool) : Prop := (⟨ts, src, twin⟩ : SyncAt) ∈ s.sync.waiting

/-- SYNC_CMD_ISSUE, SYNC_IN_EDGE, SYNC_ACT, CARRIED_SYNC_SEND (R249, R251, R371): a register SYNC waits for its commit
tick, unless a full pitch is between T1 and T2; an edge of SYNC_IN of the selected polarity is a SYNC IN_DELAY later, at
least 64 ns and at least 1,088 ns where it is carried, and one while an earlier one waits is dropped and counted; the earliest SYNC whose stamp is reached acts and
is shown by HUB_SYNC_LAST and HUB_SYNC_SRC, every enabled reduction starts at it, and SYNC_OUT, where it is enabled, pulses
for 16 ns; a SYNC that is carried leaves for the partner at least 1,024 ns ahead. -/
def Obligations.SyncsAreIssuedAndAct : Prop :=
  ∀ (s : State) (t : Tu), s.hostUp = true → s.standby = false →
    (∀ twin : Bool, s.fld Fld.HUB_PITCH_STATUS_STATE 0 ≠ 2 →
      ∃ u, exec (.syncCmdIssue t twin) s = .next u ∧ u.tick.syncCmds = s.tick.syncCmds ++ [((s.at t).time, twin)] ∧
        (twin = false ∨ s.attached = false → u.sync = s.sync) ∧
        (twin = true → s.attached = true → ∃ x : SyncAt, u.sync.carry = s.sync.carry ++ [x] ∧ x.src = 3 ∧
          (x.ts - tuAdd (s.at t).time (ns 1088)).toNat < s.period) ∧ onlyRegs s u []) ∧
    (∀ twin : Bool, s.fld Fld.HUB_PITCH_STATUS_STATE 0 = 2 →
      ∃ u, exec (.syncCmdIssue t twin) s = .next u ∧ u.tick = s.tick ∧ u.sync = s.sync ∧ onlyRegs s u []) ∧
    (∀ rise : Bool, s.flag Fld.HUB_SYNC_CFG_IN_EN 0 = true → rise = !(s.flag Fld.HUB_SYNC_CFG_IN_EDGE 0) →
      ((∀ x ∈ s.sync.waiting, x.src ≠ 4) → ∃ u, exec (.syncInEdge t rise) s = .next u ∧
        syncWaits u (tuAdd ((s.at t).stamp t) (ns (max (if s.flag Fld.HUB_SYNC_CFG_IN_TWIN 0 then 1088 else 64)
          (s.fld Fld.HUB_SYNC_CFG_IN_DELAY 0)))) 4 (s.flag Fld.HUB_SYNC_CFG_IN_TWIN 0) ∧
        onlyRegs s u []) ∧
      ((∃ x ∈ s.sync.waiting, x.src = 4) → s.fld Fld.HUB_SYNC_DROP_COUNT 0 < 255 →
        ∃ u, exec (.syncInEdge t rise) s = .next u ∧ u.sync = s.sync ∧
          u.fld Fld.HUB_SYNC_DROP_COUNT 0 = s.fld Fld.HUB_SYNC_DROP_COUNT 0 + 1 ∧
          onlyRegs s u [⟨.HUB_SYNC_DROP, 0⟩])) ∧
    (∀ x : SyncAt, s.sync.waiting = [x] → tuLe x.ts (s.at t).time = true →
      ∃ u, exec (.syncAct t) s = .next u ∧ u.sync.waiting = [] ∧
        u.pair .HUB_SYNC_LAST_LO .HUB_SYNC_LAST_HI 0 = x.ts ∧ u.fld Fld.HUB_SYNC_SRC_SRC 0 = x.src % 8 ∧
        (∀ v, v < 16 → s.flag Fld.RED_CFG_EN v = true → s.clusterAsleep (v / 4) = false →
          u.fld Fld.RED_STATUS_START v = 1 ∧ u.fld Fld.RED_STATUS_RUNNING v = 1 ∧ u.fld Fld.RED_OUT_COUNT_COUNT v = 0) ∧
        (s.flag Fld.HUB_SYNC_CFG_OUT_EN 0 = false → u.sync.outStop = s.sync.outStop) ∧
        (s.flag Fld.HUB_SYNC_CFG_OUT_EN 0 = true → u.sync.outStop = some (tuAdd x.ts (ns 16))) ∧ sameMem s u) ∧
    ∀ x : SyncAt, s.sync.carry = [x] → s.tick.caps = [] → s.attached = true → s.glnUp = true →
      tuLe (tuAdd (s.at t).time (ns 1024)) x.ts = true →
      ∃ u, exec (.carriedSyncSend t) s = .next u ∧ u.sync.carry = [] ∧
        u.out = .guyline 6 x.src (tget 0 s.gln.seqTx 6) (leBytes 8 x.ts.toNat ++ List.replicate 16 0) 3 :: s.out ∧
        onlyRegs s u []

/-! ### The parametric section (chapter 13) -/

/-- FORCE_CODE_WRITE, FORCE_ENABLE_WRITE (R290, R291): with UPD 1 or 2 a written code waits, after the codes that wait for
the same kind of instant; with UPD 0 or 3 it reaches its output within 100 ns of the write, nothing waits any longer, and
PMU_FORCE_NOW, PMU_FORCE_TTS and PMU_FORCE_OUT tell it; an output that is enabled goes from 0 V to its code, and one that is
disabled to 0 V. -/
def forceOutputsFollow : Prop :=
  ∀ (s : State) (t : Tu) (n : Fin 16), s.hostUp = true →
    (∀ code : BitVec 18, s.fld Fld.PMU_FORCE_CFG_UPD n = 1 ∨ s.fld Fld.PMU_FORCE_CFG_UPD n = 2 →
      ∃ u, exec (.forceCodeWrite t n code) s = .next u ∧ u.fld Fld.PMU_FORCE_CODE_CODE n = code.toNat ∧
        u.forceOf n = (s.forceOf n).filter (fun p => p.upd == s.fld Fld.PMU_FORCE_CFG_UPD n) ++
          [⟨code.toNat, if s.fld Fld.PMU_FORCE_CFG_UPD n = 1 then (s.at t).hubStamp else (s.at t).time,
            s.fld Fld.PMU_FORCE_CFG_UPD n⟩] ∧
        onlyRegs s u [⟨.PMU_FORCE_CODE, n⟩]) ∧
    (∀ code : BitVec 18, s.fld Fld.PMU_FORCE_CFG_UPD n ≠ 1 → s.fld Fld.PMU_FORCE_CFG_UPD n ≠ 2 →
      ∃ u d, exec (.forceCodeWrite t n code) s = .next u ∧ u.fld Fld.PMU_FORCE_CODE_CODE n = code.toNat ∧
        u.fld Fld.PMU_FORCE_NOW_CODE n = code.toNat ∧ u.fld Fld.PMU_FORCE_OUT_OUT 0 = n ∧
        u.forceOf n = [] ∧ d ≤ ns 100 ∧ u.pair .PMU_FORCE_TTS_LO .PMU_FORCE_TTS_HI 0 = tuAdd (s.at t).time d ∧
        onlyRegs s u [⟨.PMU_FORCE_CODE, n⟩, ⟨.PMU_FORCE_NOW, n⟩, ⟨.PMU_FORCE_OUT, 0⟩, ⟨.PMU_FORCE_TTS_LO, 0⟩,
          ⟨.PMU_FORCE_TTS_HI, 0⟩]) ∧
    ∀ v : Word, ∃ u, exec (.forceEnableWrite t n v) s = .next u ∧ u.reg .PMU_FORCE_CFG n = v &&& 7#32 ∧
      (s.flag Fld.PMU_FORCE_CFG_EN n = false → u.flag Fld.PMU_FORCE_CFG_EN n = true → s.fld Fld.PMU_FORCE_NOW_CODE n ≠ 0 →
        u.out = .force n (s.at t).time (s.fld Fld.PMU_FORCE_NOW_CODE n) :: s.out) ∧
      (s.flag Fld.PMU_FORCE_CFG_EN n = true → u.flag Fld.PMU_FORCE_CFG_EN n = false → s.fld Fld.PMU_FORCE_NOW_CODE n ≠ 0 →
        u.out = .force n (s.at t).time 0 :: s.out) ∧
      onlyRegs s u [⟨.PMU_FORCE_CFG, n⟩]

/-- No triggered request has reached a converter by an instant. -/
def noneTriggered (s : State) (x : Tu) : Prop := ∀ y, y < 2 → ∀ d ∈ (s.mc y).due, tuLe d.1 x = false

/-- What a converter shows of its state. -/
def seqStatus : List Reg := [⟨.PMU_SEQ_STATUS, 0⟩, ⟨.PMU_SEQ_STATUS, 1⟩]

/-- CONVERSION_READY (R295, R304, R305): a regular result stands in PMU_LAST, saturated to 24 bits; an injected one
joins the converter's FIFO and raises its event; a regular result of an entry with TWIN = 1 waits for the partner's where
that has not come; under XCHK both converters have their result, and two that differ by more than PMU_XCHK_LIMIT raise
EV377. -/
def Obligations.ConversionsGiveResults : Prop :=
  ∀ (s : State) (t : Tu) (x : Fin 2) (m : ConvMeas) (c : Conv), s.alive = true → (s.mc x).act = some c →
    tuLe c.ready (s.at t).time = true → s.pmuClockOff = false → noneTriggered s (c.ready - 1) →
    (c.kind = 1 → s.xchk = false →
      ∃ u, exec (.conversionReady t x m) s = .next u ∧ u.reg .PMU_LAST_VALUE x = BitVec.ofInt 32 (satS 24 m.v) ∧
        u.pair .PMU_LAST_TTS_LO .PMU_LAST_TTS_HI x = c.tts ∧ (u.mc x).lastReady = some c.ready ∧
        (u.mc x).seqReg = ((s.mc x).seqReg + 1) % 256 ∧ (u.mc x).fifo = (s.mc x).fifo ∧
        (setTwin c.settings = false ∨ s.twinOn = false → u.pmu.local_ = s.pmu.local_) ∧
        (setTwin c.settings = true → s.twinOn = true →
          s.pmu.remote.find? (s.twinPair ⟨x, c.entry, c.tts, BitVec.ofInt 32 (satS 24 m.v), c.ready⟩) = none →
          u.pmu.local_ = s.pmu.local_ ++ [⟨x, c.entry, c.tts, BitVec.ofInt 32 (satS 24 m.v), c.ready⟩]) ∧
        onlyRaising s u (⟨.PMU_LAST_VALUE, x⟩ :: ⟨.PMU_LAST_TTS_LO, x⟩ :: ⟨.PMU_LAST_TTS_HI, x⟩ :: ⟨.PMU_LAST_INFO, x⟩ ::
          ⟨.PMU_SEQ_CTRL, x⟩ :: ⟨.PMU_TWIN_FAIL_CNT, 0⟩ :: seqStatus) [368 + x, 374 + x, 378]) ∧
    (c.kind = 2 → s.xchk = false → (s.mc x).fifo.length < 4 →
      ∃ u r, exec (.conversionReady t x m) s = .next u ∧ (u.mc x).fifo = (s.mc x).fifo ++ [r] ∧ r.tts = c.tts ∧
        r.value = BitVec.ofInt 32 (satS 24 m.v) ∧ (s.fld Fld.EVT_ROUTE_KIND (370 + x) ≠ 1 → u.evtStatus (370 + x) = true) ∧
        onlyRaising s u (⟨.PMU_SEQ_CTRL, x⟩ :: seqStatus) [370 + x, 374 + x]) ∧
    (c.kind = 2 → x = 0 → s.xchk = true → (s.mc 0).fifo.length < 4 → (s.mc 1).fifo.length < 4 →
      ∃ u r r', exec (.conversionReady t x m) s = .next u ∧ (u.mc 0).fifo = (s.mc 0).fifo ++ [r] ∧
        (u.mc 1).fifo = (s.mc 1).fifo ++ [r'] ∧ r.value = BitVec.ofInt 32 (satS 24 m.v) ∧
        r'.value = BitVec.ofInt 32 (satS 24 m.vB) ∧ r.tts = c.tts ∧ r'.tts = c.tts) ∧
    (c.kind = 1 → x = 0 → s.xchk = true →
      ∃ u, exec (.conversionReady t x m) s = .next u ∧ u.reg .PMU_LAST_VALUE 0 = BitVec.ofInt 32 (satS 24 m.v) ∧
        u.reg .PMU_LAST_VALUE 1 = BitVec.ofInt 32 (satS 24 m.vB) ∧
        (s.fld Fld.PMU_XCHK_LIMIT_LSB 0 < (satS 24 m.v - satS 24 m.vB).natAbs → s.fld Fld.EVT_ROUTE_KIND 377 ≠ 1 →
          u.evtStatus 377 = true) ∧
        ((satS 24 m.v - satS 24 m.vB).natAbs ≤ s.fld Fld.PMU_XCHK_LIMIT_LSB 0 → sameSource s u 377 ∧
          u.reg .PMU_XCHK_CNT 0 = s.reg .PMU_XCHK_CNT 0))

/-- PMU_INJ_REQ, PMU_INJ_RES_POP (R301, R302, R304, R306): a request that finds four waiting, a converter that is off, or
MCB following MCA is refused with EV376; one that meets an idle converter is converted at once; a regular conversion under
way is aborted for it, and its entry restarts where its pass goes on; behind any other conversion it waits; a write without
GO does nothing. A read of PMU_INJ_RES_TTS_LO takes out the oldest record, or reads 0 where there is none. -/
def Obligations.RequestsAreInjected : Prop :=
  ∀ (s : State) (t : Tu) (x : Fin 2), s.hostUp = true → noneTriggered s (s.at t).time →
    (∀ v : Word, v.getLsbD 22 = false → ∃ u, exec (.pmuInjReq t x v) s = .next u ∧ u.pmu = s.pmu ∧ onlyRegs s u []) ∧
    (∀ v : Word, v.getLsbD 22 = true →
      4 ≤ (s.mc x).queue.length ∨ s.flag Fld.PMU_MC_CFG_EN x = false ∨ (x = 1 ∧ s.xchk = true) → s.fld Fld.PMU_INJ_DROP_REFUSED x < 2 ^ 16 - 1 →
      ∃ u, exec (.pmuInjReq t x v) s = .next u ∧ u.fld Fld.PMU_INJ_DROP_REFUSED x = s.fld Fld.PMU_INJ_DROP_REFUSED x + 1 ∧
        (s.fld Fld.EVT_ROUTE_KIND 376 ≠ 1 → u.evtStatus 376 = true) ∧ (u.mc x).queue = (s.mc x).queue ∧
        onlyRaising s u [⟨.PMU_INJ_DROP, x⟩] [376]) ∧
    (∀ v : Word, v.getLsbD 22 = true → (s.mc x).queue = [] → (s.mc x).act = none → (s.mc x).cal = false →
      (s.mc x).restart = false → (s.mc x).next = none → s.flag Fld.PMU_MC_CFG_EN x = true → s.gateOpen 25 = true →
      (x = 1 → s.xchk = false) →
      ∃ u c, exec (.pmuInjReq t x v) s = .next u ∧ (u.mc x).act = some c ∧ c.kind = 2 ∧ c.settings = v &&& 0x3FFFFF#32 ∧
        (u.mc x).queue = [] ∧ u.fld Fld.PMU_SEQ_STATUS_ACTIVITY x = 2 ∧ onlyRegs s u seqStatus) ∧
    (∀ (v : Word) (c : Conv), v.getLsbD 22 = true → (s.mc x).queue.length < 4 → (s.mc x).act = some c →
      c.kind ≠ 1 ∨ c.restarted = true → s.flag Fld.PMU_MC_CFG_EN x = true → (x = 1 → s.xchk = false) →
      ∃ u, exec (.pmuInjReq t x v) s = .next u ∧ (u.mc x).queue = (s.mc x).queue ++ [v &&& 0x3FFFFF#32] ∧
        (u.mc x).act = some c ∧ u.fld Fld.PMU_SEQ_STATUS_INJ_QUEUED x = (s.mc x).queue.length + 1 ∧
        onlyRegs s u seqStatus) ∧
    (∀ (v : Word) (c : Conv), v.getLsbD 22 = true → (s.mc x).queue = [] → (s.mc x).act = some c → c.kind = 1 →
      c.restarted = false → s.flag Fld.PMU_MC_CFG_EN x = true → s.gateOpen 25 = true → (x = 1 → s.xchk = false) →
      s.fld Fld.PMU_ABORT_CNT_COUNT x < 2 ^ 32 - 1 →
      ∃ u c', exec (.pmuInjReq t x v) s = .next u ∧ (u.mc x).act = some c' ∧ c'.kind = 2 ∧
        c'.settings = v &&& 0x3FFFFF#32 ∧
        (c.ended = false → (u.mc x).restart = true ∧ (u.mc x).next = some c.entry) ∧
        (c.ended = true → (u.mc x).restart = (s.mc x).restart ∧ (u.mc x).next = (s.mc x).next) ∧
        u.fld Fld.PMU_ABORT_CNT_COUNT x = s.fld Fld.PMU_ABORT_CNT_COUNT x + 1 ∧
        onlyRegs s u (⟨.PMU_ABORT_CNT, x⟩ :: seqStatus)) ∧
    (∀ (r : PmuRec) (rest : List PmuRec), (s.mc x).fifo = r :: rest →
      ∃ u, exec (.pmuInjResPop t x) s = .next u ∧ (u.mc x).fifo = rest ∧
        u.out = .readData (r.tts.setWidth 32) :: s.out ∧
        u.pair .PMU_INJ_RES_TTS_LO .PMU_INJ_RES_TTS_HI x = r.tts ∧ u.reg .PMU_INJ_RES_VALUE x = r.value ∧
        (u.reg .PMU_INJ_RES_INFO x).getLsbD 31 = true ∧
        onlyRegs s u [⟨.PMU_INJ_RES_TTS_LO, x⟩, ⟨.PMU_INJ_RES_TTS_HI, x⟩, ⟨.PMU_INJ_RES_VALUE, x⟩,
          ⟨.PMU_INJ_RES_INFO, x⟩]) ∧
    ((s.mc x).fifo = [] → ∃ u, exec (.pmuInjResPop t x) s = .next u ∧ u.out = .readData 0 :: s.out ∧
      u.reg .PMU_INJ_RES_INFO x = 0 ∧
      onlyRegs s u [⟨.PMU_INJ_RES_TTS_LO, x⟩, ⟨.PMU_INJ_RES_TTS_HI, x⟩, ⟨.PMU_INJ_RES_VALUE, x⟩,
        ⟨.PMU_INJ_RES_INFO, x⟩])

/-- PMU_CAL_REQ, PMU_CAL_DONE, PMU_MC_CFG_WRITE, PMU_TWIN_MISS (R303, R304, R308): an idle converter starts its
calibration, under XCHK that of both; one that succeeds sets CAL_VALID and raises the converter's event, of both under XCHK,
one that fails raises EV380 and leaves CAL_VALID; a converter disabled while a conversion runs drops what waits and stops
after it, and any other write while one runs is stored; a local result whose partner never came counts as missed. -/
def convertersAreCalibratedAndStopped : Prop :=
  ∀ (s : State) (t : Tu) (x : Fin 2),
    (∀ y, y = (if s.xchk then 0 else x.val) → s.hostUp = true → noneTriggered s (s.at t).time → (s.mc y).queue = [] →
      (s.mc y).act = none → (s.mc y).cal = false → s.flag Fld.PMU_MC_CFG_EN y = true → s.gateOpen 25 = true →
      ∃ u c, exec (.pmuCalReq t x) s = .next u ∧ (u.mc y).act = some c ∧ c.kind = 3 ∧ (u.mc y).cal = false ∧
        u.fld Fld.PMU_SEQ_STATUS_ACTIVITY y = 3 ∧ onlyRegs s u seqStatus) ∧
    (∀ c, s.alive = true → (s.mc x).act = some c → c.kind = 3 → tuLe c.ready (s.at t).time = true →
      s.pmuClockOff = false → noneTriggered s (c.ready - 1) →
      (∃ u, exec (.pmuCalDone t x true) s = .next u ∧ u.fld Fld.PMU_SEQ_STATUS_CAL_VALID x = 1 ∧
        (s.fld Fld.EVT_ROUTE_KIND (372 + x) ≠ 1 → u.evtStatus (372 + x) = true) ∧
        (x = 0 → s.xchk = true → u.fld Fld.PMU_SEQ_STATUS_CAL_VALID 1 = 1 ∧
          (s.fld Fld.EVT_ROUTE_KIND 373 ≠ 1 → u.evtStatus 373 = true)) ∧
        (x = 1 ∨ s.xchk = false → sameSource s u (373 - x)) ∧
        onlyRaising s u (⟨.PMU_SEQ_CTRL, x⟩ :: seqStatus) [372, 373]) ∧
      ∃ u, exec (.pmuCalDone t x false) s = .next u ∧
        u.fld Fld.PMU_SEQ_STATUS_CAL_VALID x = s.fld Fld.PMU_SEQ_STATUS_CAL_VALID x ∧
        (s.fld Fld.EVT_ROUTE_KIND 380 ≠ 1 → u.evtStatus 380 = true) ∧
        onlyRaising s u (⟨.PMU_SEQ_CTRL, x⟩ :: seqStatus) [380]) ∧
    (∀ (v : Word) (c : Conv), s.hostUp = true → noneTriggered s (s.at t).time → (s.mc x).act = some c →
      s.flag Fld.PMU_MC_CFG_EN x = false ∨ v.getLsbD 0 = true →
      ∃ u, exec (.pmuMcCfgWrite t x v) s = .next u ∧ u.reg .PMU_MC_CFG x = v &&& (if x = 0 then 7#32 else 3#32) ∧
        u.pmu = s.pmu ∧ onlyRegs s u [⟨.PMU_MC_CFG, x⟩]) ∧
    (∀ (v : Word) (c : Conv), s.hostUp = true → noneTriggered s (s.at t).time → s.flag Fld.PMU_MC_CFG_EN x = true →
      v.getLsbD 0 = false → s.pmuStuck = false → (s.mc x).act = some c →
      ∃ u, exec (.pmuMcCfgWrite t x v) s = .next u ∧ u.flag Fld.PMU_MC_CFG_EN x = false ∧ (u.mc x).act = some c ∧
        (u.mc x).stopping = true ∧ (u.mc x).queue = [] ∧ (u.mc x).cal = false ∧
        ((s.mc x).queue ≠ [] → s.fld Fld.EVT_ROUTE_KIND 376 ≠ 1 → u.evtStatus 376 = true) ∧
        onlyRaising s u (⟨.PMU_MC_CFG, x⟩ :: ⟨.PMU_INJ_DROP, x⟩ :: seqStatus) [376]) ∧
    ∀ (a : TwinRes) (rest : List TwinRes), s.alive = true → s.pmu.local_ = a :: rest →
      tuLe (tuAdd a.ready (ns 100000)) (s.at t).time = true → s.fld Fld.PMU_TWIN_MISS_CNT_COUNT 0 < 2 ^ 32 - 1 →
      ∃ u, exec (.pmuTwinMiss t) s = .next u ∧ u.pmu.local_ = rest ∧
        u.fld Fld.PMU_TWIN_MISS_CNT_COUNT 0 = s.fld Fld.PMU_TWIN_MISS_CNT_COUNT 0 + 1 ∧
        (s.fld Fld.EVT_ROUTE_KIND 379 ≠ 1 → u.evtStatus 379 = true) ∧
        onlyRaising s u [⟨.PMU_TWIN_MISS_CNT, 0⟩] [379]

/-- Force outputs follow their codes; converters are calibrated and stopped. -/
def Obligations.ParametricUnitsAct : Prop := forceOutputsFollow ∧ convertersAreCalibratedAndStopped

/-! ### The raster engine (chapter 14) -/

/-- The registers that a picture's completion and a vertical blank may change. -/
def pictureRegs : List Reg :=
  [⟨.RAS_PIC_FRAME_LO, 0⟩, ⟨.RAS_PIC_FRAME_HI, 0⟩, ⟨.RAS_PIC_INFO, 0⟩, ⟨.RAS_STATUS, 0⟩, ⟨.RAS_HFO_DROP, 0⟩] ++
    ((List.range 8).flatMap fun n => [⟨.RAS_CRC_VAL, n⟩, ⟨.RAS_CRC_FAIL, n⟩, ⟨.RAS_LAYER_STATUS, n⟩]) ++
    (List.range 16).map fun b => ⟨.RAS_BUF_STATUS, b⟩

/-- RAS_VBLANK (R317, R320, R325, R327): at the vertical blank the picture's record and CRCs are shown and EV400 is
raised; what was written 1 µs before commits, with EV401, unless HOLD is set; and the next frame begins, or waits for
TE_IN, or scanning stops. -/
def pictureCompletes : Prop :=
  ∀ (s : State) (t : Tu) (p : Picture), s.alive = true → s.fld Fld.RAS_STATUS_STATE 0 = 1 → (s.at t).inPicture = true →
    s.gateOpen 26 = true → s.standby = false →
    ∃ u, exec (.rasVblank t p) s = .next u ∧ u.fld Fld.RAS_PIC_INFO_SEQ 0 = s.ras.seq % 2 ^ 24 ∧
      u.ras.seq = (s.ras.seq + 1) % 2 ^ 24 ∧ u.frameOf .RAS_PIC_FRAME_LO .RAS_PIC_FRAME_HI 0 = s.frameNow ∧
      (u.fld Fld.RAS_PIC_INFO_FLAGS 0).testBit 0 = s.ras.underrun ∧
      (u.fld Fld.RAS_PIC_INFO_FLAGS 0).testBit 2 = s.ras.abandoned ∧ u.ras.underrun = false ∧
      (s.fld Fld.EVT_ROUTE_KIND 400 ≠ 1 → u.evtStatus 400 = true) ∧
      (∀ r, r < 8 → s.flag Fld.RAS_CRC_CFG_EN r = true → u.reg .RAS_CRC_VAL r =
        crc32 (rgbBytes (s.rectOf p (s.layersOf 0) (s.fld Fld.RAS_CRC_TL_X0 r) (s.fld Fld.RAS_CRC_TL_Y0 r)
          (s.fld Fld.RAS_CRC_BR_X1 r) (s.fld Fld.RAS_CRC_BR_Y1 r)))) ∧
      (∀ t0, s.ras.pend = some t0 → s.flag Fld.RAS_CTRL_HOLD 0 = false → tuLe (tuAdd t0 (ns 1000)) (s.at t).time = true →
        u.ras.pend = none ∧ u.ras.lutNow = s.ras.lut ∧ (s.fld Fld.EVT_ROUTE_KIND 401 ≠ 1 → u.evtStatus 401 = true) ∧
        ∀ n ∈ rasPending, ∀ i, rget u.ras.now ⟨n, i⟩ = s.reg n i) ∧
      (s.flag Fld.RAS_CTRL_HOLD 0 = true → u.ras.pend = s.ras.pend ∧ u.ras.lutNow = s.ras.lutNow ∧
        ∀ n ∈ rasPending, ∀ i, rget u.ras.now ⟨n, i⟩ = rget s.ras.now ⟨n, i⟩) ∧
      (s.flag Fld.RAS_CTRL_EN 0 = false → u.fld Fld.RAS_STATUS_STATE 0 = 0 ∧ u.ras.frame = false) ∧
      (s.flag Fld.RAS_CTRL_EN 0 = true → u.fld Fld.RAS_STATUS_STATE 0 = 1 ∧
        u.ras.frame = !(s.flag Fld.RAS_CTRL_TE_MODE 0) ∧ u.ras.teWait = s.flag Fld.RAS_CTRL_TE_MODE 0) ∧
      onlyRaising s u pictureRegs [400, 401, 405, 406, 408]

/-- RAS_PIXCLK_RESTART, TE_IN_EDGE, RAS_TE_LOST (R318, R320, R327): two frame periods after the pixel clock is back
scanning restarts with EV402, and an abandoned picture has its record; an edge of TE_IN after the vertical blank begins
the frame that waits for it, and one without a frame waiting changes nothing; a frame period later the frame begins
without it, with TE_LOST and EV403. -/
def framesBegin : Prop :=
  ∀ (s : State) (t : Tu), s.alive = true →
    (∀ t0, s.ras.restartFrom = some t0 → s.fld Fld.RAS_STATUS_STATE 0 = 2 → s.gateOpen 26 = true →
      tuLe (tuAdd t0 (s.pixels (2 * s.framePix))) (s.at t).time = true →
      ∃ u, exec (.rasPixclkRestart t) s = .next u ∧ u.ras.restartFrom = none ∧
        (s.fld Fld.EVT_ROUTE_KIND 402 ≠ 1 → u.evtStatus 402 = true) ∧
        (s.ras.abandoned = true → u.fld Fld.RAS_PIC_INFO_SEQ 0 = s.ras.seq % 2 ^ 24 ∧
          (u.fld Fld.RAS_PIC_INFO_FLAGS 0).testBit 2 = true ∧ u.ras.abandoned = false) ∧
        (s.flag Fld.RAS_CTRL_EN 0 = true → u.fld Fld.RAS_STATUS_STATE 0 = 1 ∧ u.ras.vbAt = (s.at t).time) ∧
        onlyRaising s u pictureRegs [400, 401, 402, 405]) ∧
    (s.ras.teWait = true → s.fld Fld.RAS_STATUS_STATE 0 = 1 →
      (tuLe (tuAdd s.ras.vbAt s.teFrom) (s.at t).time = true →
        ∃ u, exec (.teInEdge t) s = .next u ∧ u.ras.frame = true ∧ u.ras.teWait = false ∧
          u.fld Fld.RAS_STATUS_TE_LOST 0 = 0 ∧ onlyRegs s u [⟨.RAS_STATUS, 0⟩]) ∧
      (tuLe (tuAdd s.ras.vbAt s.teFrom) (s.at t).time = false →
        ∃ u, exec (.teInEdge t) s = .next u ∧ u.ras = s.ras ∧ onlyRegs s u []) ∧
      (tuLe (tuAdd s.ras.vbAt (s.teFrom + s.pixels s.framePix)) (s.at t).time = true →
        ∃ u, exec (.rasTeLost t) s = .next u ∧ u.ras.frame = true ∧ u.ras.teWait = false ∧
          u.fld Fld.RAS_STATUS_TE_LOST 0 = 1 ∧ (s.fld Fld.EVT_ROUTE_KIND 403 ≠ 1 → u.evtStatus 403 = true) ∧
          onlyRaising s u [⟨.RAS_STATUS, 0⟩] [403])) ∧
    (s.ras.teWait = false → ∃ u, exec (.teInEdge t) s = .next u ∧ u.ras = s.ras ∧ onlyRegs s u [])

/-- Pictures complete and frames begin as the rules say. -/
def Obligations.LanternScans : Prop := pictureCompletes ∧ framesBegin

/-- RAS_TIMING_WRITE (R316): a value that the rule of R316 takes is stored, and waits for a vertical blank; one that it
does not take changes nothing but TIMING_ERR. -/
def timingIsChecked : Prop :=
  ∀ (s : State) (t : Tu) (r : RasTiming) (v : Word), s.hostUp = true →
    ((s.writeRW (rasTimingReg r) 0 v).writtenOk = true →
      ∃ u, exec (.rasTimingWrite t r v) s = .next u ∧
        u.reg (rasTimingReg r) 0 = (s.writeRW (rasTimingReg r) 0 v).reg (rasTimingReg r) 0 ∧ u.ras.now = s.ras.now ∧
        (r ≠ .dsiCfg → u.ras.pend = some (s.at t).time) ∧ (r = .dsiCfg → u.ras.pend = s.ras.pend) ∧
        (s.ras.dsiStopped = true → u.fld Fld.RAS_STATUS_TIMING_ERR 0 = 0) ∧
        onlyRegs s u [⟨rasTimingReg r, 0⟩, ⟨.RAS_STATUS, 0⟩]) ∧
    ((s.writeRW (rasTimingReg r) 0 v).writtenOk = false →
      ∃ u, exec (.rasTimingWrite t r v) s = .next u ∧ u.fld Fld.RAS_STATUS_TIMING_ERR 0 = 1 ∧ u.ras = s.ras ∧
        onlyRegs s u [⟨.RAS_STATUS, 0⟩])

/-- DSI_CMD_SEND, DSI_CMD_DONE (R319): a write with GO sends the command with its payload bytes, unless one is under way;
its end is shown by RAS_DSI_RESP, a failure with EV409. -/
def dsiCommandsRun : Prop :=
  ∀ (s : State) (t : Tu),
    (∀ v : Word, s.hostUp = true → s.ras.dsiCmd = none → v.getLsbD 7 = true → s.gateOpen 26 = true →
      s.gateOpen 27 = true → s.standby = false →
      ∃ u, exec (.dsiCmdSend t v) s = .next u ∧ u.ras.dsiCmd = some (v.getLsbD 6) ∧
        u.out = .dsi (getBits v 0 6) (((List.range 4).flatMap fun k =>
          leBytes 4 (s.reg .RAS_DSI_PAYLOAD k).toNat).take (getBits v 8 5)) :: s.out ∧
        onlyRegs s u [⟨.RAS_DSI_CMD, 0⟩]) ∧
    (∀ v : Word, s.hostUp = true → s.ras.dsiCmd.isSome = true →
      ∃ u, exec (.dsiCmdSend t v) s = .next u ∧ u.ras.dsiCmd = s.ras.dsiCmd ∧ u.out = s.out ∧
        onlyRegs s u [⟨.RAS_DSI_CMD, 0⟩]) ∧
    ∀ rd : Bool, s.alive = true → s.ras.dsiCmd = some rd →
      (∀ d : BitVec 16, ∃ u, exec (.dsiCmdDone t (.ok d)) s = .next u ∧ u.ras.dsiCmd = none ∧
        u.fld Fld.RAS_DSI_RESP_DONE 0 = 1 ∧ (rd = true → u.fld Fld.RAS_DSI_RESP_DATA 0 = d.toNat) ∧
        onlyRegs s u [⟨.RAS_DSI_RESP, 0⟩]) ∧
      (∃ u, exec (.dsiCmdDone t .noAck) s = .next u ∧ u.ras.dsiCmd = none ∧ u.fld Fld.RAS_DSI_RESP_ERR 0 = 1 ∧
        (s.fld Fld.EVT_ROUTE_KIND 409 ≠ 1 → u.evtStatus 409 = true ∧ (u.fld Fld.EVT_DATA_CAUSES 409).testBit 0 = true) ∧
        onlyRaising s u [⟨.RAS_DSI_RESP, 0⟩] [409]) ∧
      (rd = true → ∃ u, exec (.dsiCmdDone t .noAnswer) s = .next u ∧ u.ras.dsiCmd = none ∧
        u.fld Fld.RAS_DSI_RESP_ERR 0 = 1 ∧
        (s.fld Fld.EVT_ROUTE_KIND 409 ≠ 1 → u.evtStatus 409 = true ∧ (u.fld Fld.EVT_DATA_CAUSES 409).testBit 1 = true) ∧
        onlyRaising s u [⟨.RAS_DSI_RESP, 0⟩] [409])

/-- RAS_HFO_DONE, RAS_UNDERRUN, RAS_BUF_REL (R321, R323, R326): a host-frame picture that is written shows its buffer and
raises EV407; a layer that runs dry is counted, left out and raises EV404; a buffer that is released is free at once,
after the frame that reads it, or not at all while a layer names it. -/
def buffersAreUsed : Prop :=
  ∀ (s : State) (t : Tu),
    (∀ i lines, s.hostUp = true → s.ras.hfoBusy = some (i, lines) →
      ∃ u xs, exec (.rasHfoDone t) s = .next u ∧ u.ras.hfoBusy = none ∧ u.fld Fld.RAS_HFO_STATUS_LAST 0 = i % 4 ∧
        u.out = xs ++ ((lines.map fun l => Out.hostWrite l.1 l.2 false).reverse ++ s.out) ∧
        (s.fld Fld.EVT_ROUTE_KIND 407 ≠ 1 → u.evtStatus 407 = true) ∧
        onlyRaising s u [⟨.RAS_HFO_STATUS, 0⟩] [407]) ∧
    (∀ n : Fin 8, s.alive = true → s.fld Fld.RAS_STATUS_STATE 0 = 1 → (s.at t).inPicture = true → s.layerOn n = true →
      s.fld Fld.RAS_UNDERRUN_COUNT n < 2 ^ 32 - 1 →
      ∃ u, exec (.rasUnderrun t n) s = .next u ∧ u.fld Fld.RAS_UNDERRUN_COUNT n = s.fld Fld.RAS_UNDERRUN_COUNT n + 1 ∧
        u.fld Fld.RAS_LAYER_STATUS_ACTIVE n = 0 ∧ u.layerOn n = false ∧ u.ras.underrun = true ∧
        (s.fld Fld.EVT_ROUTE_KIND 404 ≠ 1 → u.evtStatus 404 = true) ∧
        onlyRaising s u [⟨.RAS_UNDERRUN, n⟩, ⟨.RAS_LAYER_STATUS, n⟩] [404]) ∧
    ∀ b : Fin 16, s.hostUp = true →
      (s.fld Fld.RAS_BUF_STATUS_STATE b = 0 → ∃ u, exec (.rasBufRel t b) s = .next u ∧
        u.fld Fld.RAS_BUF_REL_RESULT_CODE 0 = 3 ∧ onlyRegs s u [⟨.RAS_BUF_REL_RESULT, 0⟩]) ∧
      (s.fld Fld.RAS_BUF_STATUS_STATE b ≠ 0 → s.bufNamed b = true → ∃ u, exec (.rasBufRel t b) s = .next u ∧
        u.fld Fld.RAS_BUF_REL_RESULT_CODE 0 = 2 ∧ onlyRegs s u [⟨.RAS_BUF_REL_RESULT, 0⟩]) ∧
      (s.fld Fld.RAS_BUF_STATUS_STATE b ≠ 0 → s.bufNamed b = false →
        s.fld Fld.RAS_STATUS_STATE 0 ≠ 0 → s.ras.reading.contains b.val = true →
        ∃ u, exec (.rasBufRel t b) s = .next u ∧ u.fld Fld.RAS_BUF_STATUS_STATE b = 2 ∧
          u.fld Fld.RAS_BUF_REL_RESULT_CODE 0 = 1 ∧ onlyRegs s u [⟨.RAS_BUF_REL_RESULT, 0⟩, ⟨.RAS_BUF_STATUS, b⟩]) ∧
      (s.fld Fld.RAS_BUF_STATUS_STATE b ≠ 0 → s.bufNamed b = false →
        s.fld Fld.RAS_STATUS_STATE 0 = 0 ∨ s.ras.reading.contains b.val = false →
        ∃ u, exec (.rasBufRel t b) s = .next u ∧ u.fld Fld.RAS_BUF_STATUS_STATE b = 0 ∧
          u.fld Fld.RAS_BUF_REL_RESULT_CODE 0 = 0 ∧ onlyRegs s u [⟨.RAS_BUF_REL_RESULT, 0⟩, ⟨.RAS_BUF_STATUS, b⟩])

/-- Lantern's settings are checked, its display commands run, and its buffers are used, as the rules say. -/
def Obligations.LanternIsOperated : Prop := timingIsChecked ∧ dsiCommandsRun ∧ buffersAreUsed

/-! ### Streams, queues, the host link (chapters 02 and 15) -/

/-- HOST_BUDGET, LINK_BELOW_BUDGET, LINK_BACK_TO_BUDGET (R57, R60): the longest stall since the register was read is kept,
and one beyond STALL_MAX raises EV013 where none was before; a stall that no tick falls in counts as no breach; of a first
stall that lasts from inside one frame into the next, the window of 64 frames that ended in it is counted, with EV013 at the
first, where the stall takes more than STALL_SHARE per cent of it, and is not counted where it does not; the trained link is
shown, and EV014 is raised once for an episode below the budget, and nothing on the return to it. -/
def budgetIsWatched : Prop :=
  (∀ (s : State) (t a : Tu) (stall : Word), s.alive = true → a = (s.at t).time - BitVec.ofNat 64 (ns stall.toNat) →
    ∃ u, exec (.hostBudget t stall) s = .next u ∧
      u.fld Fld.HUB_HOST_STALL_MAX_NS 0 = max (s.fld Fld.HUB_HOST_STALL_MAX_NS 0) stall.toNat ∧
      (s.pitched = false ∨ (s.at t).time.toNat / s.period ≤ a.toNat / s.period →
        u.reg .HUB_HOST_STALL_VIOL 0 = s.reg .HUB_HOST_STALL_VIOL 0) ∧
      (s.pitched = true → s.dma.stalls = [] → ns stall.toNat ≤ (s.at t).time.toNat →
        (s.at t).time.toNat / s.period = a.toNat / s.period + 1 →
        (100 * ((a.toNat / s.period + 1) * s.period - a.toNat) ≤
            s.fld Fld.HUB_HOST_BUDGET_STALL_SHARE 0 * (64 * s.period) →
          u.reg .HUB_HOST_STALL_VIOL 0 = s.reg .HUB_HOST_STALL_VIOL 0) ∧
        (s.fld Fld.HUB_HOST_BUDGET_STALL_SHARE 0 * (64 * s.period) <
            100 * ((a.toNat / s.period + 1) * s.period - a.toNat) → s.fld Fld.HUB_HOST_STALL_VIOL_COUNT 0 < 2 ^ 32 - 1 →
          u.fld Fld.HUB_HOST_STALL_VIOL_COUNT 0 = s.fld Fld.HUB_HOST_STALL_VIOL_COUNT 0 + 1 ∧
          (s.fld Fld.HUB_HOST_STALL_VIOL_COUNT 0 = 0 → s.fld Fld.EVT_ROUTE_KIND 13 ≠ 1 → u.evtStatus 13 = true))) ∧
      (s.fld Fld.HUB_HOST_STALL_MAX_NS 0 ≤ s.fld Fld.HUB_HOST_BUDGET_STALL_MAX 0 →
        s.fld Fld.HUB_HOST_BUDGET_STALL_MAX 0 < stall.toNat → s.fld Fld.EVT_ROUTE_KIND 13 ≠ 1 →
          u.evtStatus 13 = true) ∧
      onlyRaising s u [⟨.HUB_HOST_STALL_MAX, 0⟩, ⟨.HUB_HOST_STALL_VIOL, 0⟩] [13]) ∧
  ∀ (s : State) (t : Tu) (gen : Fin 6) (width : Fin 9), s.hostUp = true →
    (gen.val < s.fld Fld.HUB_HOST_BUDGET_LINK_GEN 0 ∨ width.val < s.fld Fld.HUB_HOST_BUDGET_LINK_WIDTH 0 →
      ∃ u, exec (.linkBelowBudget t gen width) s = .next u ∧ u.fld Fld.DMA_LINK_STATUS_GEN 0 = gen ∧
        u.fld Fld.DMA_LINK_STATUS_WIDTH 0 = width ∧ u.dma.below = true ∧
        (s.dma.below = false → s.fld Fld.EVT_ROUTE_KIND 14 ≠ 1 → u.evtStatus 14 = true) ∧
        (s.dma.below = true → sameSource s u 14) ∧ onlyRaising s u [⟨.DMA_LINK_STATUS, 0⟩] [14]) ∧
    (s.fld Fld.HUB_HOST_BUDGET_LINK_GEN 0 ≤ gen.val → s.fld Fld.HUB_HOST_BUDGET_LINK_WIDTH 0 ≤ width.val →
      ∃ u, exec (.linkBackToBudget t gen width) s = .next u ∧ u.fld Fld.DMA_LINK_STATUS_GEN 0 = gen ∧
        u.fld Fld.DMA_LINK_STATUS_WIDTH 0 = width ∧ u.dma.below = false ∧ onlyRegs s u [⟨.DMA_LINK_STATUS, 0⟩])

/-- The place in a stack of byte `i` that queue `q` stages next, in the area of the image that begins at `base` (R21, log 49). -/
def stagePlace (s : State) (q base i : Nat) : Nat := base + ((s.queue q).pos + i) % max 1 (stageSize s.pitch.recs q)

/-- STREAM_ACCEPT (R21, R54, R59): the oldest datum on its way to a running queue joins the staged data where it fits, and
stands in the staging area of its die's stack, and in no other memory; one that does not fit is dropped and joins the gap that
the next GAP record tells, and a queue that stops accepts nothing of it. -/
def dataAreStaged : Prop :=
  ∀ (s : State) (t : Tu) (q : Fin 64) (d : Datum), s.alive = true →
    s.dma.inbound.find? (fun x => x.q == q.val) = some d →
    (s.qState q = 1 → (s.queue q).accepting = true →
      (s.queue q).bytes + d.bytes.length ≤ stageSize s.pitch.recs q →
      ∃ u, exec (.streamAccept t q) s = .next u ∧ u.dma.inbound = s.dma.inbound.erase d ∧
        (u.queue q).bytes = (s.queue q).bytes + d.bytes.length ∧ (u.queue q).gap = none ∧
        u.fld Fld.DMA_Q_STAGED_BYTES q = min ((s.queue q).bytes + d.bytes.length) (2 ^ 32 - 1) ∧
        (streamDie s.pitch.recs q = none → sameMem s u) ∧
        (∀ e, streamDie s.pitch.recs q = some e →
          (∀ (i : Nat) (b : Byte), d.bytes[i]? = some b →
            memGet u.mem (stagePlace s q (e * stackSpan + stageBase s.pitch.recs q) i) = b) ∧
          ∀ a, (∀ i, i < d.bytes.length → a ≠ stagePlace s q (e * stackSpan + stageBase s.pitch.recs q) i) →
            memGet u.mem a = memGet s.mem a) ∧
        sameRegs s u [⟨.DMA_Q_STAGED, q⟩]) ∧
    (s.qState q = 1 → (s.queue q).accepting = true →
      stageSize s.pitch.recs q < (s.queue q).bytes + d.bytes.length →
      ∃ u, exec (.streamAccept t q) s = .next u ∧ u.dma.inbound = s.dma.inbound.erase d ∧
        (u.queue q).staged = (s.queue q).staged ∧
        (u.queue q).gap = some (gapAdd (s.queue q).gap s.frame d.bytes.length) ∧
        (s.fld Fld.DMA_Q_DELIV_FULL_POLICY q = 0 → (u.queue q).full = true) ∧
        (s.held = true → s.fld Fld.EVT_ROUTE_KIND 60 ≠ 1 → u.evtStatus 60 = true) ∧
        onlyRaising s u [] [60, 304 + q]) ∧
    (s.qState q ≠ 1 ∨ (s.queue q).accepting = false →
      ∃ u, exec (.streamAccept t q) s = .next u ∧ u.dma.inbound = s.dma.inbound.erase d ∧
        u.dma.queues = s.dma.queues ∧ onlyRegs s u [])

/-- A completion record for queue `q` goes to the place in its ring that DMA_Q_CPL_WR names, as the front of what has left the
device, with `before` below it (R336, R342). -/
def completes (s u : State) (q : Nat) (rec : List Byte) (more before : List Out) : Prop :=
  u.out = more ++ .hostWrite ((s.pair .DMA_Q_CPL_LO .DMA_Q_CPL_HI q).toNat / 4096 * 4096 +
    32 * (s.fld Fld.DMA_Q_CPL_WR_INDEX q % 2 ^ s.cplExp q)) rec false :: before ∧
  u.fld Fld.DMA_Q_CPL_WR_INDEX q = (s.fld Fld.DMA_Q_CPL_WR_INDEX q % 2 ^ s.cplExp q + 1) % 2 ^ s.cplExp q

/-- The registers of queue `q` that a delivery may change, and those of the stall that it may end. -/
def deliveryRegs (q : Nat) : List Reg :=
  [⟨.DMA_Q_WR_OFS, q⟩, ⟨.DMA_Q_CPL_WR, q⟩, ⟨.DMA_Q_STAGED, q⟩, ⟨.DMA_Q_LATE, q⟩, ⟨.HUB_HOST_STALL_MAX, 0⟩,
   ⟨.HUB_HOST_STALL_VIOL, 0⟩]

/-- STAGED_DELIVERY (R341, R342, R345): the data of the oldest closed frame are written to the host buffer at WR_OFS, past its
end from its base, and their completion record follows them; a gap before them has its own record first; WR_OFS and the
completion index move on. A frame that finds no room, or a full completion ring, stays. -/
def dataAreDelivered : Prop :=
  ∀ (s : State) (t : Tu) (q : Fin 64) (ue : Bool) (c : Circ) (b : Batch) (rest : List Batch), s.hostUp = true →
    (s.queue q).circ = some c → (s.queue q).staged = b :: rest → s.qState q = 1 ∨ s.qState q = 2 ∨ s.qState q = 3 →
    s.held = false → (s.queue q).release = none → b.open_ = false →
    let ofs := s.fld Fld.DMA_Q_WR_OFS_OFS q
    (b.gap = none → s.cplFull q = false → b.bytes.length ≤ s.freeSpace q c → 0 < c.size → c.size < 2 ^ 32 →
      b.bytes ≠ [] →
      ∃ u st more, exec (.stagedDelivery t q ue) s = .next u ∧ (u.queue q).staged = rest ∧
        completes s u q (cplRecord b.frame s.frame b.bytes.length ofs st q (s.queue q).phase 0) more
          (if ofs + b.bytes.length ≤ c.size then .hostWrite (c.base + ofs) b.bytes ue :: s.out
          else if c.size ≤ ofs then .hostWrite c.base (b.bytes.drop (c.size - ofs)) ue :: s.out
          else .hostWrite c.base (b.bytes.drop (c.size - ofs)) ue ::
            .hostWrite (c.base + ofs) (b.bytes.take (c.size - ofs)) ue :: s.out) ∧
        (s.dma.blocked = none → more = []) ∧
        u.fld Fld.DMA_Q_WR_OFS_OFS q = (ofs + b.bytes.length) % c.size ∧ onlyRaising s u (deliveryRegs q) [13]) ∧
    (∀ g, b.gap = some g → s.cplFull q = false →
      ∃ u st more, exec (.stagedDelivery t q ue) s = .next u ∧ (u.queue q).staged = { b with gap := none } :: rest ∧
        completes s u q (cplRecord g.first s.frame g.bytes ofs st q (s.queue q).phase g.last) more s.out ∧
        st.testBit 1 = true ∧ (s.dma.blocked = none → more = []) ∧ onlyRaising s u (deliveryRegs q) [13]) ∧
    (s.cplFull q = true ∨ (b.gap = none ∧ s.freeSpace q c < b.bytes.length) →
      ∃ u, exec (.stagedDelivery t q ue) s = .next u ∧ (u.queue q).staged = (s.queue q).staged ∧
        onlyRaising s u [⟨.HUB_HOST_STALL_MAX, 0⟩, ⟨.HUB_HOST_STALL_VIOL, 0⟩] [13])

/-- The data of streams are staged, and delivered to the host. -/
def Obligations.StreamDataAreStagedAndDelivered : Prop := dataAreStaged ∧ dataAreDelivered

/-- DESCRIPTOR_POST, RING_BASE_WRITE (R336): a post moves TAIL; a ring base is written only while the queue is OFF, and
the indexes of its ring return to 0 with it. -/
def ringsArePosted : Prop :=
  ∀ (s : State) (t : Tu) (q : Fin 64), s.hostUp = true → s.qKind q ≠ 0 →
    (∀ idx : BitVec 13, ∃ u, exec (.descriptorPost t q idx) s = .next u ∧
      u.fld Fld.DMA_Q_TAIL_INDEX q = idx.toNat ∧ onlyRegs s u [⟨.DMA_Q_TAIL, q⟩]) ∧
    (∀ (r : RingReg) (v : Word), s.qState q = 0 → ∃ u, exec (.ringBaseWrite t q r v) s = .next u ∧
      u.reg (ringRegName r) q = v ∧
      (r = .ringLo ∨ r = .ringHi → u.fld Fld.DMA_Q_HEAD_INDEX q = 0 ∧ u.fld Fld.DMA_Q_TAIL_INDEX q = 0 ∧
        onlyRegs s u [⟨ringRegName r, q⟩, ⟨.DMA_Q_HEAD, q⟩, ⟨.DMA_Q_TAIL, q⟩]) ∧
      (r = .cplLo ∨ r = .cplHi → u.fld Fld.DMA_Q_CPL_WR_INDEX q = 0 ∧ u.fld Fld.DMA_Q_CPL_RD_INDEX q = 0 ∧
        (u.queue q).phase = true ∧ onlyRegs s u [⟨ringRegName r, q⟩, ⟨.DMA_Q_CPL_WR, q⟩, ⟨.DMA_Q_CPL_RD, q⟩])) ∧
    ∀ (r : RingReg) (v : Word), s.qState q ≠ 0 → ∃ u, exec (.ringBaseWrite t q r v) s = .next u ∧ onlyRegs s u []

/-- DESCRIPTOR_FETCH, XFER_COMPLETE (R338, R339, R342): a posted descriptor of a READOUT queue enters execution and HEAD
moves past it; the oldest one in execution completes, its bytes written to the host before its record, or with BAD_DESC and
no bytes where it is not valid. -/
def Obligations.ReadoutDescriptorsExecute : Prop :=
  ∀ (s : State) (t : Tu) (q : Fin 64), s.hostUp = true → s.qKind q = 7 →
    (∀ d : List Byte, s.qState q = 1 → 1 ≤ s.posted q → 1 ≤ s.readoutSlots →
      (s.queue q).xfers.length < max 1 (s.fld Fld.DMA_Q_CFG_DEPTH q) →
      ∃ u x, exec (.descriptorFetch t q [d]) s = .next u ∧ (u.queue q).xfers = (s.queue q).xfers ++ [x] ∧
        x.frame = s.frame ∧ x.bad = (xferOf d).isNone ∧
        u.fld Fld.DMA_Q_HEAD_INDEX q = (s.fld Fld.DMA_Q_HEAD_INDEX q + 1) % 2 ^ s.ringExp q ∧
        onlyRegs s u [⟨.DMA_Q_HEAD, q⟩, ⟨.DMA_GLOBAL_STATUS, 0⟩]) ∧
    ∀ (ue : Bool) (d : Xfer) (rest : List Xfer), (s.queue q).xfers = d :: rest → s.cplFull q = false →
      ∃ u st more, exec (.xferComplete t q ue) s = .next u ∧ (u.queue q).xfers = rest ∧
        completes s u q (cplRecord d.frame s.frame d.len d.idx st q (s.queue q).phase 0) more
          (if d.bad then s.out else .hostWrite d.dst ((s.at t).bar2Bytes d.src d.len) ue :: s.out) ∧
        (d.event = false → more = []) ∧ (d.bad = true → st.testBit 6 = true) ∧
        (d.event = true → s.fld Fld.EVT_ROUTE_KIND (304 + q) ≠ 1 → u.evtStatus (304 + q) = true) ∧
        onlyRaising s u [⟨.DMA_Q_CPL_WR, q⟩, ⟨.DMA_GLOBAL_STATUS, 0⟩] (if d.event then [304 + q] else [])

/-- QUEUE_DRAINED, QUEUE_ABORT (R344, R345, R347): a queue that has drained, or that is aborted, is OFF and holds
nothing, and raises its event; an abort of a queue that is OFF or ABSENT changes nothing. -/
def queuesEnd : Prop :=
  ∀ (s : State) (t : Tu) (q : Fin 64), s.hostUp = true → s.qKind q ≠ 0 →
    (s.qState q = 2 → (s.queue q).staged = [] → (s.queue q).xfers = [] → (s.queue q).release = none →
      ∃ u, exec (.queueDrained t q) s = .next u ∧ u.qState q = 0 ∧ (u.queue q).circ = none ∧
        (s.fld Fld.EVT_ROUTE_KIND (304 + q) ≠ 1 → u.evtStatus (304 + q) = true) ∧
        onlyRaising s u [⟨.DMA_Q_STATUS, q⟩, ⟨.DMA_Q_STAGED, q⟩, ⟨.DMA_GLOBAL_STATUS, 0⟩] [304 + q]) ∧
    (s.qState q ≠ 0 → s.qState q ≠ 5 →
      ∃ u, exec (.queueAbort t q) s = .next u ∧ u.qState q = 0 ∧ (u.queue q).staged = [] ∧ (u.queue q).xfers = [] ∧
        u.fld Fld.DMA_Q_STAGED_BYTES q = 0 ∧
        (s.fld Fld.EVT_ROUTE_KIND (304 + q) ≠ 1 → u.evtStatus (304 + q) = true) ∧
        onlyRaising s u [⟨.DMA_Q_STATUS, q⟩, ⟨.DMA_Q_STAGED, q⟩, ⟨.DMA_GLOBAL_STATUS, 0⟩, ⟨.DMA_Q_CPL_WR, q⟩,
          ⟨.DMA_Q_LATE, q⟩, ⟨.DMA_Q_LOST_LO, q⟩, ⟨.DMA_Q_LOST_HI, q⟩] [304 + q]) ∧
    (s.qState q = 0 ∨ s.qState q = 5 → ∃ u, exec (.queueAbort t q) s = .next u ∧ onlyRegs s u [])

/-- Rings are set up and posted to, and queues end. -/
def Obligations.QueuesStartAndEnd : Prop := ringsArePosted ∧ queuesEnd

/-- HOST_READ_ERROR, HOST_LINK_RESET (Table HST-6, R357, R439): a failed descriptor read of a READOUT queue ends it in
ERROR; a failed refresh of a CIRC descriptor keeps the ring; a host-link reset turns every queue off, arms every vector,
is counted, and keeps the pitch image and HUB_SCRATCH. -/
def hostLinkErrors : Prop :=
  ∀ (s : State) (t : Tu), s.hostUp = true →
    (∀ q : Fin 64, s.qKind q = 7 → s.qState q = 1 →
      ∃ u, exec (.hostReadError t (.descFetch q)) s = .next u ∧ u.qState q = 4 ∧ u.fld Fld.DMA_Q_STATUS_CAUSE q = 2 ∧
        (s.fld Fld.EVT_ROUTE_KIND (304 + q) ≠ 1 → u.evtStatus (304 + q) = true) ∧
        onlyRaising s u [⟨.DMA_Q_STATUS, q⟩] [304 + q]) ∧
    (∀ (q : Fin 64) (c : Circ), (s.queue q).circ = some c →
      ∃ u, exec (.hostReadError t (.refetch q)) s = .next u ∧ (u.queue q).circ = some c ∧
        ((s.queue q).quiet = 0 → s.qKind q ≠ 0 → s.fld Fld.EVT_ROUTE_KIND (304 + q) ≠ 1 →
          u.evtStatus (304 + q) = true) ∧ onlyRaising s u [] [304 + q]) ∧
    ∀ k : LinkReset, s.fld Fld.DMA_LINK_RESET_CNT_COUNT 0 = 0 →
      ∃ u, exec (.hostLinkReset t k) s = .next u ∧ u.fld Fld.HUB_RESET_CAUSE_PERST 0 = 1 ∧
        u.fld Fld.DMA_LINK_RESET_CNT_COUNT 0 = 1 ∧ (∀ q, q < 64 → u.fld Fld.DMA_Q_CTRL_EN q = 0 ∧ u.reg .DMA_Q_TAIL q = 0) ∧
        (∀ q, q < 64 → s.qState q ≠ 5 → u.qState q = 0) ∧ (∀ v, v < 64 → u.vecArmed v = true) ∧
        u.pitch = s.pitch ∧ u.reg .HUB_SCRATCH 0 = s.reg .HUB_SCRATCH 0

/-- The host link is watched, and its errors and resets are handled. -/
def Obligations.HostLinkIsWatched : Prop := budgetIsWatched ∧ hostLinkErrors

/-! ### Events (chapter 16) -/

/-- A raise (R349, R350): STATUS sets whatever ENABLE holds, the causes accumulate, the information of the first raise
stays, and the counter counts; every other source stays as it is. -/
def Obligations.RaiseSetsStatus : Prop :=
  ∀ (s : State) (n causes info : Nat), n < 512 → evtValid n = true → s.evtAsleep n = false → s.evtAbsent n = false →
    s.fld Fld.EVT_ROUTE_KIND n ≠ 1 →
    (s.raise n causes info).evtStatus n = true ∧
    (s.raise n causes info).fld Fld.EVT_DATA_CAUSES n = s.fld Fld.EVT_DATA_CAUSES n ||| causes % 2 ^ 16 ∧
    (s.fld Fld.EVT_DATA_CAUSES n = 0 → (s.raise n causes info).fld Fld.EVT_DATA_INFO n = info % 2 ^ 16) ∧
    (s.fld Fld.EVT_DATA_CAUSES n ≠ 0 →
      (s.raise n causes info).fld Fld.EVT_DATA_INFO n = s.fld Fld.EVT_DATA_INFO n) ∧
    (s.raise n causes info).fld Fld.EVT_CNT_COUNT n =
      min (s.fld Fld.EVT_CNT_COUNT n + 1) (2 ^ Fld.EVT_CNT_COUNT.width - 1) ∧
    ∀ k, k ≠ n → sameSource s (s.raise n causes info) k

/-- EVT_STATUS_CLEAR (R349, R351): STATUS bits written with 1 clear, unless the source was raised in the same controller
cycle; the other bits keep their value. -/
def statusClears : Prop :=
  ∀ (s : State) (t : Tu) (w : Fin 16) (v : Word), s.hostUp = true →
    (∀ b, b < 32 → v.getLsbD b = true → (s.evt.raises.any fun e => e.1 == 32 * w.val + b) = true →
      (tget ⟨0, false⟩ s.evt.raises (32 * w.val + b)).cycle ≠ (s.at t).evtCycle) →
    ∃ u, exec (.evtStatusClear t w v) s = .next u ∧ u.reg .EVT_STATUS w = s.reg .EVT_STATUS w &&& ~~~v ∧
      onlyRegs s u [⟨.EVT_STATUS, w⟩]

/-- EVT_ENABLE_WRITE, EVT_DATA_READ (R350, R353): ENABLE takes the written bits of the allocated sources, and a write
that enables no source with STATUS 1 delivers nothing; a read of EVT_DATA returns DATA and clears it. -/
def enableAndData : Prop :=
  ∀ (s : State) (t : Tu), s.hostUp = true →
    (∀ (w : Fin 16) (v : Word), ∃ u, exec (.evtEnableWrite t w v) s = .next u ∧
      (∀ b, b < 32 → u.evtEnable (32 * w + b) = (v.getLsbD b && evtValid (32 * w + b))) ∧
      onlyRaising s u [⟨.EVT_ENABLE, w⟩] ((List.range 32).map fun b => 32 * w + b) ∧
      (s.reg .EVT_STATUS w &&& v = 0 → u.out = s.out ∧ onlyRegs s u [⟨.EVT_ENABLE, w⟩])) ∧
    ∀ n : Fin 512, ∃ u, exec (.evtDataRead t n) s = .next u ∧ u.out = .readData (s.reg .EVT_DATA n) :: s.out ∧
      u.reg .EVT_DATA n = 0 ∧ onlyRegs s u [⟨.EVT_DATA, n⟩]

/-- The event registers are written and read as the rules say. -/
def Obligations.EventRegistersAct : Prop := statusClears ∧ enableAndData

/-- EVT_VEC_ACK, VECTOR_UNMASK (R356, R357): an acknowledge arms the vector, and signals it at once where a routed source
is active: one message, and the vector is disarmed. An unmasked vector that is pending is signalled where a routed source
is active, and else its pending bit clears. -/
def Obligations.VectorsSignalOnce : Prop :=
  ∀ (s : State) (t : Tu) (v : Fin 64), s.hostUp = true →
    (s.vecActive v = false → ∃ u, exec (.evtVecAck t v) s = .next u ∧ u.vecArmed v = true ∧ u.out = s.out ∧
      onlyRegs s u [⟨.EVT_VEC_ARMED_LO, 0⟩, ⟨.EVT_VEC_ARMED_HI, 0⟩]) ∧
    (s.vecActive v = true → s.vecMasked v = false → ∃ u a b d, exec (.evtVecAck t v) s = .next u ∧
      u.vecArmed v = false ∧ u.out = .msix v a b d :: s.out ∧
      onlyRegs s u [⟨.EVT_VEC_ARMED_LO, 0⟩, ⟨.EVT_VEC_ARMED_HI, 0⟩]) ∧
    (s.vecActive v = true → s.vecMasked v = true → ∃ u, exec (.evtVecAck t v) s = .next u ∧
      u.vecArmed v = true ∧ u.evt.pba.getLsbD v = true ∧ u.out = s.out) ∧
    (s.evt.funcMask = false → s.evt.pba.getLsbD v = true → s.vecActive v = false →
      ∃ u, exec (.vectorUnmask t (some v)) s = .next u ∧ u.evt.pba.getLsbD v = false ∧ u.vecMasked v = false ∧
        u.out = s.out ∧ onlyRegs s u []) ∧
    (s.evt.funcMask = false → s.evt.pba.getLsbD v = true → s.vecActive v = true → s.vecArmed v = true →
      ∃ u a b d, exec (.vectorUnmask t (some v)) s = .next u ∧ u.out = .msix v a b d :: s.out ∧
        u.vecArmed v = false ∧ u.evt.pba.getLsbD v = false) ∧
    (s.evt.pba = 0 → ∃ u, exec (.vectorUnmask t none) s = .next u ∧ u.evt.funcMask = false ∧ onlyRegs s u [])

/-! ### Twin operation over Guyline (chapter 17) -/

/-- The message arrives intact at a part that takes messages, is of this TYPE, and is no further copy (R364, R365). -/
def arrives (s : State) (m : List Byte) (typ : Nat) : Prop :=
  s.alive = true ∧ s.glnRx = true ∧ glnCrcOk m = true ∧ glnTyp m = typ ∧
    (glnTriple typ = true → tget 0 s.gln.seqRx typ ≠ glnSeq m + 1)

/-- HELLO, ROLE, ATTACH_TIMEOUT, MB_TWIN_ATTACH (R366 to R368): a matching HELLO that this part wins makes it name the
tick of its role, with its partner's, in a ROLE message; one that does not match refuses the attach with its code and
EV062; a ROLE message names the receiver's role and tick; 100 ms without a match end the attach; the command starts an
attach, or is refused at once. -/
def Obligations.AttachSettlesRoles : Prop :=
  (∀ (s : State) (t : Tu) (m : List Byte) (a : Attach), arrives s m 1 → s.mgt.run = 1 → s.gln.attach = some a →
    s.gln.rolePend = none →
    (s.helloRefusal a m = 0 → s.winsRole a m = true →
      ∃ u, exec (.hello t m) s = .next u ∧ u.gln.rolePend = some ((s.at t).roleFrame, 1, a.mode) ∧
        u.gln.attach = some a ∧ onlyRegs s u []) ∧
    (s.helloRefusal a m = 0 → s.winsRole a m = false → ∃ u, exec (.hello t m) s = .next u ∧ u.gln = s.gln ∧ onlyRegs s u []) ∧
    (s.helloRefusal a m ≠ 0 → s.fld Fld.EVT_ROUTE_KIND 62 ≠ 1 →
      ∃ u, exec (.hello t m) s = .next u ∧ u.gln.attach = none ∧ u.fld Fld.MGT_MB_STATE_STATE 0 = 2 ∧
        u.fld Fld.MGT_MB_STATE_STATUS 0 = s.helloRefusal a m ∧ u.evtStatus 62 = true ∧
        onlyRaising s u boxRegs [62, 456])) ∧
  (∀ (s : State) (t : Tu) (m : List Byte), arrives s m 2 → s.mgt.run = 1 → s.gln.attach.isSome = true →
    ∃ u, exec (.role t m) s = .next u ∧
      u.gln.rolePend = some (BitVec.ofNat 48 (leAt m 4 6), glnSub m % 4, leAt m 10 1 % 4) ∧ onlyRegs s u []) ∧
  (∀ (s : State) (t : Tu) (a : Attach), s.alive = true → s.gln.attach = some a → s.mgt.run = 1 →
    s.gln.rolePend = none → tuLe (tuAdd a.at_ (ns 100000000)) (s.at t).time = true → s.fld Fld.EVT_ROUTE_KIND 62 ≠ 1 →
    ∃ u, exec (.attachTimeout t) s = .next u ∧ u.gln.attach = none ∧ u.fld Fld.MGT_MB_STATE_STATE 0 = 2 ∧
      u.fld Fld.MGT_MB_STATE_STATUS 0 = 0x29 ∧ u.evtStatus 62 = true ∧ onlyRaising s u boxRegs [62, 456]) ∧
  ∀ (s : State) (t : Tu) (tag : Byte), boxReady s 0x40 → argAt s.mbArgs 0 ≤ 2 → argAt s.mbArgs 1 ≤ 2 →
    (s.attached = false → s.flag Fld.GLN_STATUS_PRESENT 0 = true → s.flag Fld.GLN_CFG_EN 0 = true → s.glnUp = true →
      ∃ u a, exec (.mbTwinAttach t tag) s = .next u ∧ u.gln.attach = some a ∧ a.mode = argAt s.mbArgs 0 ∧
        a.pref = argAt s.mbArgs 1 ∧ a.at_ = (s.at t).time ∧ u.fld Fld.MGT_MB_STATE_STATE 0 = 1 ∧
        onlyRegs s u [⟨.MGT_MB_STATE, 0⟩]) ∧
    (s.attached = true → ∃ u, exec (.mbTwinAttach t tag) s = .next u ∧ u.gln = s.gln ∧ boxDone s u tag 0x20 ∧
      onlyRaising s u boxRegs [456])

/-- TIME_REQ, TIME_RSP, GLN_STEP, GLN_SYNC (R369 to R371): the primary answers with its receive and transmit times; a
measurement enters the mean of the last 16; a following secondary takes the named STEP; a carried SYNC waits for its
stamp, or is dropped and counted with EV053 where it comes less than 64 ns before it. -/
def Obligations.TwinTimeIsFollowed : Prop :=
  (∀ (s : State) (t t3 : Tu) (m : List Byte), arrives s m 4 → s.role = 1 →
    ∃ u, exec (.timeReq t m t3) s = .next u ∧
      u.out = .guyline 5 0 (tget 0 s.gln.seqTx 5)
        (leBytes 8 (leAt m 4 8) ++ leBytes 8 (s.at t).time.toNat ++ leBytes 8 t3.toNat) 1 :: s.out ∧ onlyRegs s u []) ∧
  (∀ (s : State) (t : Tu) (m : List Byte), arrives s m 5 → s.measuresEpoch = true →
    ∃ u, exec (.timeRsp t m) s = .next u ∧
      u.gln.ofs = ((tuDiff (BitVec.ofNat 64 (leAt m 4 8)) (BitVec.ofNat 64 (leAt m 12 8)) -
        tuDiff (BitVec.ofNat 64 (leAt m 20 8)) (s.at t).time) :: s.gln.ofs).take 16 ∧
      onlyRaising s u [⟨.GLN_EPOCH_OFS, 0⟩, ⟨.GLN_STATUS, 0⟩] [52]) ∧
  (∀ (s : State) (t : Tu) (m : List Byte), arrives s m 7 → s.followsPartner = true →
    ∃ u, exec (.glnStep t m) s = .next u ∧ u.tlk.stepFrame = some (BitVec.ofNat 48 (leAt m 4 6)) ∧
      u.tlk.step = some (tuDiff (BitVec.ofNat 64 (leAt m 10 8)) (tickTime s.k (BitVec.ofNat 48 (leAt m 4 6)))) ∧
      onlyRegs s u []) ∧
  ∀ (s : State) (t : Tu) (m : List Byte), arrives s m 6 → s.attached = true →
    (tuLe (tuAdd (s.at t).time (ns 64)) (BitVec.ofNat 64 (leAt m 4 8)) = true →
      ∃ u, exec (.glnSync t m) s = .next u ∧ syncWaits u (BitVec.ofNat 64 (leAt m 4 8)) 5 true ∧ onlyRegs s u []) ∧
    (tuLe (tuAdd (s.at t).time (ns 64)) (BitVec.ofNat 64 (leAt m 4 8)) = false →
      s.fld Fld.GLN_SYNC_DROP_COUNT 0 < 2 ^ 32 - 1 → s.fld Fld.EVT_ROUTE_KIND 53 ≠ 1 →
      ∃ u, exec (.glnSync t m) s = .next u ∧ u.sync = s.sync ∧
        u.fld Fld.GLN_SYNC_DROP_COUNT 0 = s.fld Fld.GLN_SYNC_DROP_COUNT 0 + 1 ∧ u.evtStatus 53 = true ∧
        onlyRaising s u [⟨.GLN_SYNC_DROP, 0⟩] [53])

/-- DIGEST, CHSUM, GLN_CMP_MISS (R373): records of the two parts are compared once both are there. Equal DIGESTs change
nothing; a differing CRC is counted, shown by GLN_CMP_LAST and raised as EV054; a CHSUM without a record of its own
frame waits; a record that misses its counterpart is counted and raised as EV056. -/
def Obligations.TwinRecordsAreCompared : Prop :=
  (∀ (s : State) (t : Tu) (m : List Byte) (r : FrameRec) (crc : Word), arrives s m 8 → s.attached = true →
    s.glnMode ≠ 0 → r.frame = BitVec.ofNat 48 (leAt m 4 6) → s.gln.own = [r] → s.gln.partner = [] → r.chsum = [] →
    r.digest = some (crc, leAt m 14 2, leAt m 16 2) → s.compares r.frame = true →
    (crc = BitVec.ofNat 32 (leAt m 10 4) → ∃ u, exec (.digest t m) s = .next u ∧ onlyRegs s u []) ∧
    (crc ≠ BitVec.ofNat 32 (leAt m 10 4) → s.fld Fld.GLN_CMP_CTRL_CNT_COUNT 0 < 255 →
      s.fld Fld.EVT_ROUTE_KIND 54 ≠ 1 →
      ∃ u, exec (.digest t m) s = .next u ∧
        u.fld Fld.GLN_CMP_CTRL_CNT_COUNT 0 = s.fld Fld.GLN_CMP_CTRL_CNT_COUNT 0 + 1 ∧
        u.frameOf .GLN_CMP_LAST_LO .GLN_CMP_LAST_HI 0 = r.frame ∧ u.evtStatus 54 = true ∧
        onlyRaising s u [⟨.GLN_CMP_CTRL_CNT, 0⟩, ⟨.GLN_CMP_LAST_LO, 0⟩, ⟨.GLN_CMP_LAST_HI, 0⟩] [54])) ∧
  (∀ (s : State) (t : Tu) (m : List Byte), arrives s m 9 → s.attached = true → s.glnMode ≠ 0 → glnSub m < 4 →
    s.gln.own = [] →
    ∃ u, exec (.chsum t m) s = .next u ∧
      tget [] (recOf u.gln.partner (s.frameNear (leAt m 4 4))).chsum (glnSub m) =
        ((List.range 4).map fun i => (sgn 16 (leAt m (8 + 4 * i) 2), leAt m (10 + 4 * i) 2)) ∧ onlyRegs s u []) ∧
  ∀ (s : State) (t : Tu) (r : FrameRec), s.alive = true → s.gln.own = [r] → r.digest.isSome = true → r.chsum = [] →
    4 ≤ (s.frame - r.frame).toNat → s.flag Fld.GLN_CMP_CFG_EN 0 = true → s.glnUp = true →
    s.gln.skip.contains r.frame = false → s.fld Fld.GLN_CMP_MISS_CNT_COUNT 0 < 255 → s.fld Fld.EVT_ROUTE_KIND 56 ≠ 1 →
    ∃ u, exec (.glnCmpMiss t) s = .next u ∧ u.gln.own = [] ∧
      u.fld Fld.GLN_CMP_MISS_CNT_COUNT 0 = s.fld Fld.GLN_CMP_MISS_CNT_COUNT 0 + 1 ∧ u.evtStatus 56 = true ∧
      onlyRaising s u [⟨.GLN_CMP_MISS_CNT, 0⟩, ⟨.GLN_CMP_LAST_LO, 0⟩, ⟨.GLN_CMP_LAST_HI, 0⟩] [56]

/-- BEAT, TAKE, GLN_MSG_DISCARD, GLN_PMU (R304, R365, R374, R375, R377): a BEAT restarts the count of missed ones, and
on a FAILOVER standby shows what the primary has delivered; a TAKE makes the former primary step down at its next tick
and raises EV059; a message with a bad CRC or a reserved TYPE is counted, and
nothing else comes of it; a partner's conversion is compared with the local one that it pairs with, or waits. -/
def Obligations.TwinMessagesAct : Prop :=
  (∀ (s : State) (t : Tu) (m : List Byte), arrives s m 3 → s.attached = true →
    (s.role < 2 → ∃ u, exec (.beat t m) s = .next u ∧ u.gln.beatAge = 0 ∧ onlyRegs s u []) ∧
    (2 ≤ s.role → s.glnMode = 2 → ∃ u, exec (.beat t m) s = .next u ∧ u.gln.beatAge = 0 ∧
      u.frameOf .GLN_DT_LO .GLN_DT_HI 0 = BitVec.ofNat 48 (leAt m 10 6) ∧
      onlyRegs s u (⟨.GLN_DT_LO, 0⟩ :: ⟨.GLN_DT_HI, 0⟩ :: (List.range 64).map fun q => ⟨.DMA_Q_STAGED, q⟩))) ∧
  (∀ (s : State) (t : Tu) (m : List Byte), arrives s m 0xB → s.role = 1 → s.fld Fld.EVT_ROUTE_KIND 59 ≠ 1 →
    ∃ u, exec (.take t m) s = .next u ∧ u.gln.deposed = true ∧ u.role = 1 ∧ u.evtStatus 59 = true ∧
      onlyRaising s u [] [59]) ∧
  (∀ (s : State) (t : Tu) (m : List Byte), s.alive = true → s.glnRx = true →
    (glnCrcOk m = false → s.fld Fld.GLN_ERR_CRC 0 < 2 ^ 16 - 1 →
      ∃ u, exec (.glnMsgDiscard t m) s = .next u ∧ u.fld Fld.GLN_ERR_CRC 0 = s.fld Fld.GLN_ERR_CRC 0 + 1 ∧
        u.gln = s.gln ∧ (s.fld Fld.GLN_ERR_CRC 0 = 0 → s.fld Fld.EVT_ROUTE_KIND 61 ≠ 1 → u.evtStatus 61 = true) ∧
        onlyRaising s u [⟨.GLN_ERR, 0⟩] [61]) ∧
    (glnCrcOk m = true → glnReserved (glnTyp m) = true → s.fld Fld.GLN_ERR_UNKNOWN 0 < 2 ^ 16 - 1 →
      ∃ u, exec (.glnMsgDiscard t m) s = .next u ∧ u.fld Fld.GLN_ERR_UNKNOWN 0 = s.fld Fld.GLN_ERR_UNKNOWN 0 + 1 ∧
        u.gln = s.gln ∧ onlyRegs s u [⟨.GLN_ERR, 0⟩])) ∧
  ∀ (s : State) (t : Tu) (m : List Byte) (b : TwinRes), arrives s m 0xA → s.twinOn = true →
    b = ⟨glnSub m % 2, glnSub m / 16, BitVec.ofNat 64 (leAt m 4 8), BitVec.ofNat 32 (leAt m 12 4), (s.at t).time⟩ →
    (s.pmu.local_ = [] → ∃ u, exec (.glnPmu t m) s = .next u ∧ u.pmu.remote = s.pmu.remote ++ [b] ∧ onlyRegs s u []) ∧
    ∀ a : TwinRes, s.pmu.local_ = [a] → s.twinPair b a = true →
      (pmuDiffers a.value b.value (s.fld Fld.PMU_TWIN_LIMIT_LSB 0) = false →
        ∃ u, exec (.glnPmu t m) s = .next u ∧ u.pmu.local_ = [] ∧ onlyRegs s u []) ∧
      (pmuDiffers a.value b.value (s.fld Fld.PMU_TWIN_LIMIT_LSB 0) = true → s.fld Fld.EVT_ROUTE_KIND 378 ≠ 1 →
        s.fld Fld.PMU_TWIN_FAIL_CNT_COUNT 0 < 2 ^ Fld.PMU_TWIN_FAIL_CNT_COUNT.width - 1 →
        ∃ u, exec (.glnPmu t m) s = .next u ∧ u.pmu.local_ = [] ∧
          u.fld Fld.PMU_TWIN_FAIL_CNT_COUNT 0 = s.fld Fld.PMU_TWIN_FAIL_CNT_COUNT 0 + 1 ∧ u.evtStatus 378 = true ∧
          onlyRaising s u [⟨.PMU_TWIN_FAIL_CNT, 0⟩] [378])

/-- GLN_FAIL_DETECT, GLN_TAKEOVER, MB_TWIN_TAKE (R376, R377): the tick at which a following standby part finds the
primary failed declares it with EV057 and prepares the takeover; at the next tick the part is PRIMARY while the link is
up, else SOLO, its queues are held no more, and EV058 is raised; the command declares the failure at the next tick. -/
def Obligations.FailoverTakesOver : Prop :=
  (∀ (s : State) (f : Frame) (host : List HostRead), s.Inv → plainTick s f → s.gln.rolePend = none →
    s.gln.deposed = false → s.gln.detachAt = none → s.gln.soloNext = false →
    (s.role = 2 → s.glnMode = 2 → s.gln.takeover = false → s.gln.declared = false → s.glnAges.failCauses ≠ 0 →
      s.fld Fld.EVT_ROUTE_KIND 57 ≠ 1 →
      ∃ u, exec (.glnFailDetect host) s = .next u ∧ u.gln.declared = true ∧ u.gln.takeover = true ∧ u.role = 2 ∧
        u.evtStatus 57 = true ∧ u.frame = f) ∧
    (s.gln.takeover = true → s.fld Fld.EVT_ROUTE_KIND 58 ≠ 1 →
      ∃ u, exec (.glnTakeover host) s = .next u ∧ u.gln.takeover = false ∧ u.role = (s.glnUp).toNat ∧
        u.glnMode = (if s.glnUp then 2 else 0) ∧ u.held = false ∧ u.evtStatus 58 = true ∧ u.frame = f)) ∧
  ∀ (s : State) (t : Tu) (tag : Byte), boxReady s 0x42 →
    (s.role = 2 → s.glnMode = 2 → s.gln.takeover = false →
      ∃ u, exec (.mbTwinTake t tag) s = .next u ∧ u.gln.failCause = s.gln.failCause ||| 32 ∧ u.gln.declared = false ∧
        u.reg .MGT_MB_RES 0 = w32 (s.frame + 2).toNat ∧ boxDone s u tag mbOk ∧ onlyRaising s u boxRegs [456]) ∧
    (s.role ≠ 2 → ∃ u, exec (.mbTwinTake t tag) s = .next u ∧ u.gln = s.gln ∧ boxDone s u tag 0x2B ∧
      onlyRaising s u boxRegs [456])

/-- DETACH, MB_TWIN_DETACH, GLN_LINK, TWIN_PRES_CHANGE, HELD_QUEUE_COMPLETE (R364, R366, R379, R380): a DETACH names the
tick at which the part becomes SOLO; the command sends one; the link and the presence pin are shown, EV048 tells of the
link, and a pair other than FAILOVER ends when the link goes; a queue that was held ends, its covered data discarded. -/
def Obligations.TwinEnds : Prop :=
  (∀ (s : State) (t : Tu) (m : List Byte), arrives s m 0xC → s.attached = true → s.mgt.run = 1 → glnSub m = 0 →
    ∃ u, exec (.detach t m) s = .next u ∧ u.gln.detachAt = some (BitVec.ofNat 48 (leAt m 4 6), 2) ∧
      onlyRegs s u []) ∧
  (∀ (s : State) (t : Tu) (tag : Byte), boxReady s 0x41 → s.attached = true → s.gln.detachAt = none → s.glnUp = true →
    ∃ u, exec (.mbTwinDetach t tag) s = .next u ∧ u.gln.detachAt = some ((s.at t).roleFrame, 1) ∧
      boxDone s u tag mbOk ∧ onlyRaising s u boxRegs [456]) ∧
  (∀ (s : State) (t : Tu), s.alive = true → s.standby = false → s.gateOpen 28 = true →
    (s.glnUp = false → s.flag Fld.GLN_STATUS_PRESENT 0 = true → s.flag Fld.GLN_CFG_EN 0 = true →
      s.fld Fld.EVT_ROUTE_KIND 48 ≠ 1 →
      ∃ u, exec (.glnLink t true) s = .next u ∧ u.glnUp = true ∧ u.gln.beatAge = 0 ∧ u.gln.seqRx = [] ∧
        u.evtStatus 48 = true ∧ onlyRaising s u [⟨.GLN_STATUS, 0⟩, ⟨.PMU_TWIN_STATUS, 0⟩] [48]) ∧
    (s.glnUp = true → s.fld Fld.EVT_ROUTE_KIND 48 ≠ 1 →
      ∃ u, exec (.glnLink t false) s = .next u ∧ u.glnUp = false ∧ u.evtStatus 48 = true ∧
        (s.attached = true → s.glnMode ≠ 2 → u.gln.soloNext = true) ∧
        onlyRaising s u [⟨.GLN_STATUS, 0⟩, ⟨.PMU_TWIN_STATUS, 0⟩] [48])) ∧
  (∀ (s : State) (t : Tu), s.alive = true →
    (∃ u, exec (.twinPresChange t true) s = .next u ∧ u.flag Fld.GLN_STATUS_PRESENT 0 = true ∧
      onlyRegs s u [⟨.GLN_STATUS, 0⟩]) ∧
    ∃ u, exec (.twinPresChange t false) s = .next u ∧ u.flag Fld.GLN_STATUS_PRESENT 0 = false ∧ u.glnUp = false ∧
      onlyRaising s u [⟨.GLN_STATUS, 0⟩, ⟨.PMU_TWIN_STATUS, 0⟩] [48]) ∧
  ∀ (s : State) (t : Tu) (q : Fin 64) (n : Nat), s.alive = true → s.qKind q ≠ 0 → (s.queue q).release = some n →
    (∀ b ∈ (s.queue q).staged, frameLe b.frame (s.frameOf .GLN_DT_LO .GLN_DT_HI 0) = true) →
    ∃ u, exec (.heldQueueComplete t q) s = .next u ∧ u.qState q = 0 ∧ (u.queue q).staged = [] ∧
      (u.queue q).release = none ∧ (s.fld Fld.EVT_ROUTE_KIND (304 + q) ≠ 1 → u.evtStatus (304 + q) = true) ∧
      onlyRaising s u [⟨.DMA_Q_STATUS, q⟩, ⟨.DMA_Q_STAGED, q⟩, ⟨.DMA_GLOBAL_STATUS, 0⟩] [304 + q]

/-! ### Management (chapter 18) -/

/-- MB_INFO, BAD_CMD, MB_ACK (R387, R389): the information of the part; an unknown code ends with BAD_CMD; an ACK returns a
mailbox in DONE to IDLE, and changes nothing in another state. -/
def mailboxIsUsed : Prop :=
  ∀ (s : State) (t : Tu) (tag : Byte),
    (boxReady s 0x01 → ∃ u, exec (.mbInfo t tag) s = .next u ∧ boxDone s u tag mbOk ∧
      u.reg .MGT_MB_RES 0 = s.reg .MGT_FW_VER 0 ∧ u.reg .MGT_MB_RES 2 = w32 (s.fld Fld.MGT_FW_STATUS_BOOT_COUNT 0) ∧
      u.reg .MGT_MB_RES 3 = s.reg .HUB_SERIAL_LO 0 ∧ u.reg .MGT_MB_RES 4 = s.reg .HUB_SERIAL_HI 0 ∧
      onlyRaising s u boxRegs [456]) ∧
    (∀ cmd, knownCmd cmd = false → boxReady s cmd →
      ∃ u, exec (.badCmd t tag) s = .next u ∧ boxDone s u tag mbBadCmd ∧ onlyRaising s u boxRegs [456]) ∧
    (s.hostUp = true → s.fld Fld.MGT_MB_STATE_STATE 0 = 2 →
      ∃ u, exec (.mbAck t) s = .next u ∧ u.fld Fld.MGT_MB_STATE_STATE 0 = 0 ∧ onlyRegs s u [⟨.MGT_MB_STATE, 0⟩]) ∧
    (s.hostUp = true → s.fld Fld.MGT_MB_STATE_STATE 0 ≠ 2 → ∃ u, exec (.mbAck t) s = .next u ∧ onlyRegs s u [])

/-- MB_LOG_READ, MB_LOG_MARK (R393, R395): entries from a SEQ on go to host memory, and how many and from which is
answered; a mark enters the log with the host's note. -/
def logIsRead : Prop :=
  ∀ (s : State) (t : Tu) (tag : Byte),
    (boxReady s 0x50 → 1 ≤ argAt s.mbArgs 1 → argAt s.mbArgs 1 ≤ 1024 →
      (argAt s.mbArgs 2 + 2 ^ 32 * argAt s.mbArgs 3) % 64 = 0 →
      (∃ u, exec (.mbLogRead t tag false) s = .next u ∧ boxDone s u tag mbFetch ∧ onlyRaising s u boxRegs [456]) ∧
      ∀ l, l = (s.logAll.filter fun e => decide (argAt s.mbArgs 0 ≤ e.seq)).take (argAt s.mbArgs 1) →
        (l = [] → ∃ u, exec (.mbLogRead t tag true) s = .next u ∧ boxDone s u tag mbOk ∧ u.reg .MGT_MB_RES 0 = 0 ∧
          onlyRaising s u boxRegs [456]) ∧
        ∀ e l', l = e :: l' → ∃ u xs, exec (.mbLogRead t tag true) s = .next u ∧ boxDone s u tag mbOk ∧
          u.reg .MGT_MB_RES 0 = w32 l.length ∧ u.reg .MGT_MB_RES 1 = w32 e.seq ∧
          u.out = xs ++ .hostWrite (argAt s.mbArgs 2 + 2 ^ 32 * argAt s.mbArgs 3) (l.flatMap LogEntry.bytes) false ::
            s.out ∧ onlyRaising s u boxRegs [456]) ∧
    (boxReady s 0x51 → s.mgt.sram.length < 4096 →
      ∃ u, exec (.mbLogMark t tag) s = .next u ∧ boxDone s u tag mbOk ∧
        (∃ e ∈ u.mgt.sram, e.seq = s.mgt.nextSeq + 1 ∧ e.kind = 7 ∧ e.source = 0xFFFF ∧ e.data = s.reg .MGT_MB_ARG 0 ∧
          e.frame = s.frameNow) ∧
        u.reg .MGT_MB_RES 0 = w32 (s.mgt.nextSeq + 1) ∧ onlyRaising s u boxRegs [456])

/-- MB_FUSE_READ, MB_FUSE_PROG (R400): the words of a field; the bits given are blown, and no other bit of any field. -/
def fusesAreBlown : Prop :=
  ∀ (s : State) (t : Tu) (tag : Byte),
    (boxReady s 0x70 → argAt s.mbArgs 0 ≤ 15 → 32 * argAt s.mbArgs 1 < fuseWidth (argAt s.mbArgs 0) →
      ∃ u, exec (.mbFuseRead t tag) s = .next u ∧ boxDone s u tag mbOk ∧
        (∀ w, w < 8 → 32 * (argAt s.mbArgs 1 + w) < fuseWidth (argAt s.mbArgs 0) →
          u.reg .MGT_MB_RES w = w32 (fuseWord (s.fuse (argAt s.mbArgs 0)) (argAt s.mbArgs 1 + w))) ∧
        onlyRaising s u boxRegs [456]) ∧
    (boxReady s 0x70 → 15 < argAt s.mbArgs 0 ∨ fuseWidth (argAt s.mbArgs 0) ≤ 32 * argAt s.mbArgs 1 →
      ∃ u, exec (.mbFuseRead t tag) s = .next u ∧ boxDone s u tag mbBadArg ∧ onlyRaising s u boxRegs [456]) ∧
    (boxReady s 0x71 → argAt s.mbArgs 0 ≤ 15 → 32 * argAt s.mbArgs 1 < fuseWidth (argAt s.mbArgs 0) →
      argAt s.mbArgs 2 * 2 ^ (32 * argAt s.mbArgs 1) < 2 ^ fuseWidth (argAt s.mbArgs 0) →
      argAt s.mbArgs 3 = 0x46555345 → fuseRule (argAt s.mbArgs 0) ≠ 0 →
      (fuseRule (argAt s.mbArgs 0) = 1 → s.fuse 15 = 1 →
        ∃ u, exec (.mbFuseProg t tag 0) s = .next u ∧ boxDone s u tag 0x38 ∧ u.mgt.fuses = s.mgt.fuses ∧
          onlyRaising s u boxRegs [456]) ∧
      (fuseRule (argAt s.mbArgs 0) = 2 ∨ s.fuse 15 ≠ 1 →
        (s.fuseAllowed = false → ∃ u, exec (.mbFuseProg t tag 0) s = .next u ∧ boxDone s u tag mbRefused ∧
          u.mgt.fuses = s.mgt.fuses ∧ onlyRaising s u boxRegs [456]) ∧
        (s.fuseAllowed = true → ∃ u, exec (.mbFuseProg t tag 0) s = .next u ∧ boxDone s u tag mbOk ∧
          u.fuse (argAt s.mbArgs 0) =
            s.fuse (argAt s.mbArgs 0) ||| argAt s.mbArgs 2 * 2 ^ (32 * argAt s.mbArgs 1) ∧
          (∀ id, id ≠ argAt s.mbArgs 0 → u.fuse id = s.fuse id) ∧
          u.reg .MGT_MB_RES 0 = w32 (fuseWord (u.fuse (argAt s.mbArgs 0)) (argAt s.mbArgs 1)) ∧
          onlyRaising s u (boxRegs ++ [⟨.HUB_SERIAL_LO, 0⟩, ⟨.HUB_SERIAL_HI, 0⟩, ⟨.MGT_SMB_CFG, 0⟩,
            ⟨.MGT_DEBUG_STATUS, 0⟩]) [456, 470])))

/-- MB_PMBUS_XFER, MB_DEBUG_CHALLENGE, MB_DEBUG_UNLOCK (R402, R403): one transaction with an enabled regulator; a fresh
nonce; a response to it that is in time and well signed unlocks the port, any other does not, and uses up the nonce. -/
def portsAreReached : Prop :=
  ∀ (s : State) (t : Tu) (tag : Byte),
    (boxReady s 0x80 → argAt s.mbArgs 0 / 2 ^ 16 % 256 ≤ 4 → argAt s.mbArgs 0 / 2 ^ 24 % 256 ≤ 4 →
      (s.flag Fld.MGT_PMB_CFG_EN 0 = true → s.flag Fld.MGT_PMB_DEV_EN (argAt s.mbArgs 0 % 8) = true →
        (∀ d : Word, ∃ u xs, exec (.mbPmbusXfer t tag (.ok d)) s = .next u ∧ boxDone s u tag mbOk ∧
          u.reg .MGT_MB_RES 0 = w32 (d.toNat % 2 ^ (8 * (argAt s.mbArgs 0 / 2 ^ 24 % 256))) ∧
          u.out = xs ++ .regulator (s.fld Fld.MGT_PMB_DEV_ADDR (argAt s.mbArgs 0 % 8)) (argAt s.mbArgs 0 / 256 % 256)
            (leBytes (argAt s.mbArgs 0 / 2 ^ 16 % 256) (argAt s.mbArgs 1)) :: s.out ∧ onlyRaising s u boxRegs [456]) ∧
        ∃ u, exec (.mbPmbusXfer t tag .nack) s = .next u ∧ boxDone s u tag mbRefused ∧ u.reg .MGT_MB_RES 1 = 1 ∧
          (s.fld Fld.EVT_ROUTE_KIND 464 ≠ 1 → u.evtStatus 464 = true) ∧ onlyRaising s u boxRegs [456, 464]) ∧
      (s.flag Fld.MGT_PMB_CFG_EN 0 = false ∨ s.flag Fld.MGT_PMB_DEV_EN (argAt s.mbArgs 0 % 8) = false →
        ∀ r : PmbusResult, ∃ u, exec (.mbPmbusXfer t tag r) s = .next u ∧ boxDone s u tag mbRefused ∧
          onlyRaising s u boxRegs [456])) ∧
    (boxReady s 0x90 → s.fuse 13 ≠ 0 → ∀ nonce : List Byte,
      ∃ u, exec (.mbDebugChallenge t tag nonce) s = .next u ∧ boxDone s u tag mbOk ∧
        u.mgt.nonce = some (leBytes 32 (leNat nonce), (s.at t).time) ∧
        (∀ w, w < 8 → u.reg .MGT_MB_RES w = wordAt (leBytes 32 (leNat nonce)) w) ∧ onlyRaising s u boxRegs [456]) ∧
    (boxReady s 0x90 → s.fuse 13 = 0 → ∀ nonce : List Byte,
      ∃ u, exec (.mbDebugChallenge t tag nonce) s = .next u ∧ boxDone s u tag 0x3D ∧ u.mgt.nonce = s.mgt.nonce ∧
        onlyRaising s u boxRegs [456]) ∧
    ∀ (resp n : List Byte) (t0 : Tu), boxReady s 0x91 → s.fuse 13 ≠ 0 → s.mgt.nonce = some (n, t0) →
      (tuLe (s.at t).time (tuAdd t0 (ns 60000000000)) = true → s.unlocks n resp = true →
        ∃ u, exec (.mbDebugUnlock t tag (some resp)) s = .next u ∧ boxDone s u tag mbOk ∧ u.mgt.nonce = none ∧
          u.fld Fld.MGT_DEBUG_STATUS_UNLOCKED 0 = 1 ∧ (s.fld Fld.EVT_ROUTE_KIND 469 ≠ 1 → u.evtStatus 469 = true) ∧
          onlyRaising s u (⟨.MGT_DEBUG_STATUS, 0⟩ :: boxRegs) [456, 469]) ∧
      (tuLe (s.at t).time (tuAdd t0 (ns 60000000000)) = false ∨ s.unlocks n resp = false →
        ∃ u, exec (.mbDebugUnlock t tag (some resp)) s = .next u ∧ boxDone s u tag 0x3C ∧ u.mgt.nonce = none ∧
          (s.fld Fld.EVT_ROUTE_KIND 469 ≠ 1 → u.evtStatus 469 = true) ∧ onlyRaising s u boxRegs [456, 469])

/-- Basecamp's mailbox answers its commands as the rules say. -/
def Obligations.MailboxAnswers : Prop := mailboxIsUsed ∧ logIsRead ∧ fusesAreBlown ∧ portsAreReached

/-- MB_FW_INFO, MB_FW_UPDATE, MB_FW_ACTIVATE, MB_FW_COMMIT (R398, R399): what is in a bank; an image that verifies is
written to the bank that does not run, and one that does not leaves it EMPTY; a verified bank becomes TRIAL, with a restart
into it where the host asks for one; a commit makes the running bank COMMITTED and blows FW_SVN up to its SVN. -/
def firmwareIsReplaced : Prop :=
  ∀ (s : State) (t : Tu) (tag : Byte),
    (boxReady s 0x60 → argAt s.mbArgs 0 ≤ 1 →
      ∃ u, exec (.mbFwInfo t tag) s = .next u ∧ boxDone s u tag mbOk ∧
        u.reg .MGT_MB_RES 0 = w32 (s.bank (argAt s.mbArgs 0)).state ∧
        ((s.bank (argAt s.mbArgs 0)).image ≠ [] →
          u.reg .MGT_MB_RES 1 = w32 (fwVersion (s.bank (argAt s.mbArgs 0)).image) ∧
          u.reg .MGT_MB_RES 2 = w32 (fwSvnOf (s.bank (argAt s.mbArgs 0)).image)) ∧ onlyRaising s u boxRegs [456]) ∧
    (∀ x y : List Byte, boxReady s 0x61 → argAt s.mbArgs 0 % 8 = 0 → argAt s.mbArgs 2 ≤ 1040384 →
      y = x.take (argAt s.mbArgs 2) →
      (s.fwCheck y = 0 → ∃ u, exec (.mbFwUpdate t tag (some x) true) s = .next u ∧ boxDone s u tag mbOk ∧
        u.bank (1 - s.fld Fld.MGT_FW_STATUS_BANK 0) = ⟨1, y.take (fwSigOff y + 208), 0⟩ ∧
        u.bank (s.fld Fld.MGT_FW_STATUS_BANK 0) = s.bank (s.fld Fld.MGT_FW_STATUS_BANK 0) ∧
        u.reg .MGT_MB_RES 0 = w32 (1 - s.fld Fld.MGT_FW_STATUS_BANK 0) ∧
        (s.fld Fld.EVT_ROUTE_KIND 458 ≠ 1 → u.evtStatus 458 = true ∧ (u.fld Fld.EVT_DATA_CAUSES 458).testBit 0 = true) ∧
        onlyRaising s u boxRegs [456, 458]) ∧
      (s.fwCheck y ≠ 0 → ∃ u, exec (.mbFwUpdate t tag (some x) true) s = .next u ∧ boxDone s u tag (s.fwCheck y) ∧
        u.bank (1 - s.fld Fld.MGT_FW_STATUS_BANK 0) = Bank.init ∧
        (s.fld Fld.EVT_ROUTE_KIND 458 ≠ 1 → u.evtStatus 458 = true ∧ (u.fld Fld.EVT_DATA_CAUSES 458).testBit 1 = true) ∧
        onlyRaising s u boxRegs [456, 458])) ∧
    (∀ b : Nat, boxReady s 0x62 → argAt s.mbArgs 0 = b → b ≤ 1 → b ≠ s.fld Fld.MGT_FW_STATUS_BANK 0 →
      (s.bank b).state ≠ 0 → s.fwCheck (s.bank b).image = 0 →
      (argAt s.mbArgs 1 = 0 → s.mgt.activate = none →
        ∃ u, exec (.mbFwActivate t tag) s = .next u ∧ boxDone s u tag mbOk ∧ (u.bank b).state = 2 ∧ u.mgt.run = 1 ∧
          onlyRaising s u boxRegs [456, 458]) ∧
      (argAt s.mbArgs 1 = 1 →
        ∃ u, exec (.mbFwActivate t tag) s = .next u ∧ (u.bank b).state = 2 ∧ u.mgt.run = 2 ∧ u.mgt.activate = some b ∧
          u.fld Fld.MGT_MB_STATE_STATE 0 = 3 ∧ u.fld Fld.MGT_MB_STATE_STATUS 0 = mbOk ∧ u.mgt.box = 2 ∧
          onlyRaising s u boxRegs [456, 458])) ∧
    (boxReady s 0x63 → s.flag Fld.MGT_FW_STATUS_TRIAL 0 = true →
      ∀ b svn, b = s.fld Fld.MGT_FW_STATUS_BANK 0 → svn = fwSvnOf (s.bank b).image →
        ∃ u, exec (.mbFwCommit t tag true true) s = .next u ∧ boxDone s u tag mbOk ∧ (u.bank b).state = 3 ∧
          u.fld Fld.MGT_FW_STATUS_TRIAL 0 = 0 ∧ u.mgt.trialFrom = none ∧
          u.fuse 11 = (if svn ≤ s.fwSvn then s.fuse 11 else s.fuse 11 ||| (2 ^ svn - 1)) ∧
          u.reg .MGT_MB_RES 0 = w32 (max svn s.fwSvn) ∧
          onlyRaising s u (boxRegs ++ [⟨.MGT_FW_STATUS, 0⟩, ⟨.HUB_SERIAL_LO, 0⟩, ⟨.HUB_SERIAL_HI, 0⟩,
            ⟨.MGT_SMB_CFG, 0⟩, ⟨.MGT_DEBUG_STATUS, 0⟩]) [456, 458, 470]) ∧
    (boxReady s 0x63 → s.flag Fld.MGT_FW_STATUS_TRIAL 0 = false → ∀ flashOk fuseOk : Bool,
      ∃ u, exec (.mbFwCommit t tag flashOk fuseOk) s = .next u ∧ boxDone s u tag 0x33 ∧ u.mgt.flash = s.mgt.flash ∧
        u.mgt.fuses = s.mgt.fuses ∧ onlyRaising s u boxRegs [456, 458])

/-- MGT_BOOT, MGT_WATCHDOG, DEBUG_HALT, TRIAL_TIMEOUT, BASECAMP_RESTART_DONE (R385, R386, R399, R403, R411): the bank that
is selected runs, with EV457, or the ROM alone; a restart shows RESTARTING and ends a running command with RESTARTED; a
trial without a commit fails its bank. -/
def firmwareIsRun : Prop :=
  ∀ (s : State) (t : Tu), s.alive = true →
    (s.mgt.run = 0 → ∀ b trial fb, s.selectBank = some (b, trial, fb) →
      ∃ u, exec (.mgtBoot t) s = .next u ∧ u.mgt.run = 1 ∧ u.fld Fld.MGT_FW_STATUS_BANK 0 = b % 2 ∧
        u.flag Fld.MGT_FW_STATUS_TRIAL 0 = trial ∧ u.reg .MGT_FW_VER 0 = w32 (fwVersion (s.bank b).image) ∧
        u.fld Fld.MGT_FW_STATUS_BOOT_COUNT 0 = min (s.mgt.flash.boots + 1) 65535 ∧ u.pwr.tables = true ∧
        (s.fld Fld.HUB_BOOT_STATUS_PHASE 0 = 0 → u.fld Fld.HUB_BOOT_STATUS_PHASE 0 = 2) ∧
        (s.fld Fld.EVT_ROUTE_KIND 457 ≠ 1 → u.evtStatus 457 = true)) ∧
    (s.mgt.run = 2 → ∀ b trial fb, s.selectBank = some (b, trial, fb) →
      ∃ u, exec (.basecampRestartDone t) s = .next u ∧ u.mgt.run = 1 ∧ u.fld Fld.MGT_FW_STATUS_BANK 0 = b % 2 ∧
        u.flag Fld.MGT_FW_STATUS_TRIAL 0 = trial ∧ u.flag Fld.MGT_FW_STATUS_FALLBACK 0 = fb ∧
        u.reg .MGT_FW_VER 0 = w32 (fwVersion (s.bank b).image) ∧
        (s.gln.waiting = [] → s.mgt.deferred = [] → s.evt.basecamp = [] →
          u.fld Fld.MGT_MB_STATE_STATE 0 = s.mgt.box % 4 ∧ onlyRaising s u [⟨.MGT_FW_VER, 0⟩, ⟨.MGT_FW_STATUS, 0⟩,
            ⟨.MGT_MB_STATE, 0⟩, ⟨.HUB_BOOT_STATUS, 0⟩] [457]) ∧
        (s.fld Fld.EVT_ROUTE_KIND 457 ≠ 1 → u.evtStatus 457 = true)) ∧
    (s.mgt.run = 2 → s.selectBank = none →
      ∃ u, exec (.basecampRestartDone t) s = .next u ∧ u.mgt.run = 3 ∧ u.fld Fld.MGT_FW_STATUS_ROM_ONLY 0 = 1 ∧
        u.reg .MGT_FW_VER 0 = 0 ∧ u.fld Fld.MGT_MB_STATE_STATE 0 = s.mgt.box % 4 ∧
        onlyRegs s u [⟨.MGT_FW_VER, 0⟩, ⟨.MGT_FW_STATUS, 0⟩, ⟨.MGT_MB_STATE, 0⟩, ⟨.HUB_BOOT_STATUS, 0⟩]) ∧
    (s.mgt.run = 1 ∨ s.mgt.run = 3 → s.mgt.halted = false →
      ∃ u, exec (.mgtWatchdog t) s = .next u ∧ u.mgt.run = 2 ∧ u.fld Fld.MGT_MB_STATE_STATE 0 = 3 ∧
        (s.fld Fld.MGT_MB_STATE_STATE 0 = 1 → u.mgt.box = 2 ∧ u.fld Fld.MGT_MB_STATE_STATUS 0 = mbRestarted) ∧
        (s.fld Fld.MGT_MB_STATE_STATE 0 ≠ 1 → u.mgt.box = s.fld Fld.MGT_MB_STATE_STATE 0) ∧
        (s.fld Fld.EVT_ROUTE_KIND 468 ≠ 1 → u.evtStatus 468 = true) ∧ onlyRaising s u boxRegs [456, 468]) ∧
    (s.mgt.halted = true → ∃ u, exec (.mgtWatchdog t) s = .next u ∧ u.mgt = s.mgt ∧ onlyRegs s u []) ∧
    (s.mgt.run = 1 ∨ s.mgt.run = 3 → s.fuse 13 = 0 ∨ s.flag Fld.MGT_DEBUG_STATUS_UNLOCKED 0 = true →
      ∃ u, exec (.debugHalt t) s = .next u ∧ u.mgt.run = 2 ∧ u.mgt.halted = true ∧
        u.fld Fld.MGT_MB_STATE_STATE 0 = 3 ∧ onlyRaising s u boxRegs [456]) ∧
    (s.fuse 13 ≠ 0 → s.flag Fld.MGT_DEBUG_STATUS_UNLOCKED 0 = false →
      ∃ u, exec (.debugHalt t) s = .next u ∧ u.mgt = s.mgt ∧ onlyRegs s u []) ∧
    ∀ t0, s.mgt.trialFrom = some t0 → s.mgt.run = 1 → tuLe (tuAdd t0 (ns 10000000000)) (s.at t).time = true →
      ∃ u, exec (.trialTimeout t) s = .next u ∧ (u.bank (s.fld Fld.MGT_FW_STATUS_BANK 0)).state = 4 ∧ u.mgt.run = 2 ∧
        u.mgt.trialFrom = none ∧ u.mgt.trialBad = true ∧ (s.fld Fld.EVT_ROUTE_KIND 468 ≠ 1 → u.evtStatus 468 = true) ∧
        (s.fld Fld.EVT_ROUTE_KIND 458 ≠ 1 → u.evtStatus 458 = true ∧ (u.fld Fld.EVT_DATA_CAUSES 458).testBit 2 = true) ∧
        onlyRaising s u boxRegs [456, 458, 468]

/-- Firmware is replaced and run as the rules say. -/
def Obligations.FirmwareIsManaged : Prop := firmwareIsReplaced ∧ firmwareIsRun

/-- WARN or CRIT of a sensor after a sample: set at the threshold, cleared once the value has returned inside it, and as
before in between (R392). -/
def levelAfter (now : Bool) (n : Nat) (v : Int) (thr : Int) : Bool :=
  if now then !(senseBack n v thr) else senseAt n v thr

/-- The threshold of a sensor, signed for a temperature (Table MGT-4). -/
def threshold (s : State) (f : Fld) (n : Nat) : Int := if n < 5 then sgn 16 (s.fld f n) else s.fld f n

/-- SENSOR_SAMPLE, PMBUS_POLL, LOG_SUMMARY, LOG_FLUSH (R391, R392, R395, R402): samples and the levels that follow them; a
regulator's readings, its fault with EV464; one entry for what a source raised beyond 16 in a second; the entries that
wait reach flash, or stay with EV467. -/
def sensorsAndLog : Prop :=
  ∀ (s : State) (t : Tu), s.alive = true → s.mgt.run = 1 →
    (∀ v : List (BitVec 16), ∃ u, exec (.sensorSample t v) s = .next u ∧
      (∀ n x, n < 14 → v[n]? = some x → u.fld Fld.MGT_SENSE_VALUE n = x.toNat ∧
        u.flag Fld.MGT_SENSE_WARN n =
          levelAfter (s.flag Fld.MGT_SENSE_WARN n) n x.toInt (threshold s Fld.MGT_THR_WARN n) ∧
        u.flag Fld.MGT_SENSE_CRIT n =
          levelAfter (s.flag Fld.MGT_SENSE_CRIT n) n x.toInt (threshold s Fld.MGT_THR_CRIT n) ∧
        (s.flag Fld.MGT_SENSE_WARN n = false → u.flag Fld.MGT_SENSE_WARN n = true →
          u.flag Fld.MGT_SENSE_WARN_SEEN n = true ∧
          (s.fld Fld.EVT_ROUTE_KIND (if n < 5 then 459 else 460) ≠ 1 →
            u.evtStatus (if n < 5 then 459 else 460) = true))) ∧
      onlyRaising s u ((List.range 14).map fun n => ⟨.MGT_SENSE, n⟩) [459, 460, 463]) ∧
    (∀ p : PmbusPoll, s.flag Fld.MGT_PMB_CFG_EN 0 = true → s.flag Fld.MGT_PMB_DEV_EN p.r = true →
      (p.failed = false → ∃ u, exec (.pmbusPoll t [p]) s = .next u ∧ u.fld Fld.MGT_PMB_VI_VOUT p.r = p.vout.toNat ∧
        u.fld Fld.MGT_PMB_VI_IOUT p.r = p.iout.toNat ∧ u.fld Fld.MGT_PMB_TS_TEMP p.r = p.temp.toNat ∧
        u.fld Fld.MGT_PMB_TS_STATUS_WORD p.r = p.status.toNat ∧
        (statusFault p.status = true → s.fld Fld.EVT_ROUTE_KIND 464 ≠ 1 → u.evtStatus 464 = true) ∧
        (statusFault p.status = false → sameSource s u 464) ∧
        onlyRaising s u [⟨.MGT_PMB_VI, p.r⟩, ⟨.MGT_PMB_TS, p.r⟩] [464]) ∧
      (p.failed = true → ∃ u, exec (.pmbusPoll t [p]) s = .next u ∧
        (s.fld Fld.EVT_ROUTE_KIND 464 ≠ 1 → u.evtStatus 464 = true) ∧ onlyRaising s u [] [464])) ∧
    (∃ u, exec (.logSummary t) s = .next u ∧
      (s.mgt.sram.length + s.mgt.logged.length ≤ 4096 → u.mgt.logged = []) ∧
      (∀ k c, s.mgt.logged = [(k, c)] → 16 < c → s.mgt.sram.length < 4096 →
        ∃ e, u.mgt.sram = e :: s.mgt.sram ∧ e.source = k ∧ e.kind = 1 ∧ e.data = w32 (c - 16) ∧
          e.seq = s.mgt.nextSeq + 1) ∧ onlyRaising s u [] []) ∧
    (s.mgt.sram ≠ [] →
      (∃ u, exec (.logFlush t true) s = .next u ∧ u.mgt.sram = [] ∧
        u.mgt.flash.log = s.mgt.sram.reverse.foldl logPut s.mgt.flash.log ∧ onlyRegs s u []) ∧
      ∃ u, exec (.logFlush t false) s = .next u ∧ u.mgt.flash = s.mgt.flash ∧ (∀ e ∈ s.mgt.sram, e ∈ u.mgt.sram) ∧
        (s.fld Fld.EVT_ROUTE_KIND 467 ≠ 1 → u.evtStatus 467 = true) ∧ onlyRaising s u [] [467])

/-- The SMBus target takes a transaction (R401). -/
def smbTakes (s : State) (pec : Bool) : Prop :=
  s.mgtUp = true ∧ s.flag Fld.MGT_SMB_CFG_EN 0 = true ∧ (s.flag Fld.MGT_SMB_CFG_PEC_REQ 0 = true → pec = true)

/-- SMB_STATUS, SMB_ALERT_MASK, SMB_SENSE, SMB_MB_REQ, SMB_MB_RESP, SMB_LOG_ENTRY (R387, R401): what the target answers; a
request runs on the SMBus mailbox and ends with EV465, one that it may not use with NOT_ALLOWED, one while the host mailbox
runs a command of its class with BUSY, and one while the mailbox is not IDLE is ignored; a response that is read in DONE makes it IDLE. -/
def smbusAnswers : Prop :=
  ∀ (s : State) (t : Tu) (pec : Bool),
    (s.mgtUp = true → s.flag Fld.MGT_SMB_CFG_EN 0 = false →
      ∃ u, exec (.smbStatus t pec) s = .next u ∧ u.out = .smbusNack :: s.out ∧ onlyRegs s u []) ∧
    (smbTakes s pec →
      (∃ u, exec (.smbStatus t pec) s = .next u ∧ u.out = .smbus (leBytes 2 s.smbStatus) :: s.out ∧ onlyRegs s u []) ∧
      (s.mgt.run = 2 → ∃ u, exec (.smbAlertMask t pec none) s = .next u ∧ u.out = .smbusNack :: s.out ∧
        onlyRegs s u [])) ∧
    (smbTakes s pec → s.mgt.run = 1 →
      (∃ u, exec (.smbAlertMask t pec none) s = .next u ∧
        u.out = .smbus (leBytes 2 s.mgt.smb.alertMask.toNat) :: s.out ∧ onlyRegs s u []) ∧
      (∀ w : BitVec 16, ∃ u, exec (.smbAlertMask t pec (some w)) s = .next u ∧ u.mgt.smb.alertMask = w ∧ u.out = s.out ∧
        onlyRegs s u []) ∧
      (∀ n : Byte, n.toNat < 14 → ∃ u, exec (.smbSense t pec n) s = .next u ∧
        u.out = .smbus (leBytes 4 (s.reg .MGT_SENSE n.toNat).toNat) :: s.out ∧ onlyRegs s u []) ∧
      (∀ (tag : Byte) (cmd : BitVec 16) (args : List Word) (r : PmbusResult), s.mgt.smb.state = 0 →
        (knownCmd cmd.toNat = true → smbusCmd cmd.toNat = false → ∃ u, exec (.smbMbReq t pec tag cmd args r) s = .next u ∧
          u.mgt.smb.state = 2 ∧ u.mgt.smb.tag = tag ∧ u.mgt.smb.status = mbNotAllowed ∧
          (s.fld Fld.EVT_ROUTE_KIND 465 ≠ 1 → u.evtStatus 465 = true) ∧ onlyRaising s u [] [465]) ∧
        (cmd = 1 → s.classBusy 1 = true → ∃ u, exec (.smbMbReq t pec tag cmd args r) s = .next u ∧
          u.mgt.smb.state = 2 ∧ u.mgt.smb.tag = tag ∧ u.mgt.smb.status = mbBusy ∧
          (s.fld Fld.EVT_ROUTE_KIND 465 ≠ 1 → u.evtStatus 465 = true) ∧ onlyRaising s u [] [465]) ∧
        (cmd = 1 → s.classBusy 1 = false → ∃ u, exec (.smbMbReq t pec tag cmd args r) s = .next u ∧
          u.mgt.smb.state = 2 ∧ u.mgt.smb.tag = tag ∧ u.mgt.smb.status = mbOk ∧ u.mgt.smb.res.head? = some (s.reg .MGT_FW_VER 0) ∧
          (s.fld Fld.EVT_ROUTE_KIND 465 ≠ 1 → u.evtStatus 465 = true) ∧ onlyRaising s u [] [465])) ∧
      (∀ (tag : Byte) (cmd : BitVec 16) (args : List Word) (r : PmbusResult), s.mgt.smb.state ≠ 0 →
        ∃ u, exec (.smbMbReq t pec tag cmd args r) s = .next u ∧ u.mgt = s.mgt ∧ onlyRegs s u []) ∧
      (s.mgt.smb.state = 2 → ∃ u bs, exec (.smbMbResp t pec) s = .next u ∧ u.mgt.smb.state = 0 ∧
        u.out = .smbus (leBytes 1 s.mgt.smb.status ++ [s.mgt.smb.tag] ++ bs) :: s.out ∧ bs.length = 32 ∧
        onlyRegs s u []) ∧
      ∀ (seq : Word) (e : LogEntry), s.logAll.find? (fun e => e.seq == seq.toNat) = some e →
        ∃ u, exec (.smbLogEntry t pec seq) s = .next u ∧ u.out = .smbus e.bytes :: s.out ∧ onlyRegs s u [])

/-- Sensors, regulators, the log and the SMBus target work as the rules say. -/
def Obligations.ManagementWatches : Prop := sensorsAndLog ∧ smbusAnswers

/-! ### Power, resets, thermal protection (chapter 19) -/

/-- The registers that a whole-device reset does not leave at their reset value: its cause, what shows the fuses, and the
level of a pin. -/
def afterReset : List RegName :=
  [.HUB_RESET_CAUSE, .HUB_SERIAL_LO, .HUB_SERIAL_HI, .MGT_SMB_CFG, .MGT_DEBUG_STATUS, .GLN_STATUS]

/-- A whole-device reset has been made: HUB_RESET_CAUSE tells why; flash, fuses and the waiting commands stay; every other
register is at its reset value, no image is in force, and no memory is kept (R409). -/
def resetMade (s u : State) (cause : Word) : Prop :=
  u.reg .HUB_RESET_CAUSE 0 = cause ∧ (∀ n i, n ∉ afterReset → u.reg n i = (⟨n, i⟩ : Reg).resetVal) ∧
    u.pair .HUB_SERIAL_LO .HUB_SERIAL_HI 0 = BitVec.ofNat 64 (s.fuse 0) ∧
    u.time = 0 ∧ u.frame = 0 ∧ u.pitched = false ∧ u.tick.sh = [] ∧ u.mgt.run = 0 ∧ u.mgt.flash = s.mgt.flash ∧
    u.mgt.fuses = s.mgt.fuses ∧ u.pending = s.pending ∧ ∀ a, memGet u.mem a = 0

/-- POWER_ON, POWER_OFF, RST_N_ASSERT, RESET_RELEASE, BROWNOUT, PERST_N_RELEASE, THERMAL_TRIP (R406 to R411, R416, R422):
which of them reset the device, with which cause, and when it runs afterwards; that the stacks read 0 after it is the
model's choice (log 7); a trip leaves Basecamp's own state and holds the device until RST_N. -/
def resetsAreMade : Prop :=
  ∀ s : State,
    (s.pwr.on = false → ∃ u, exec .powerOn s = .next u ∧ resetMade s u 1 ∧ u.pwr.on = true ∧ u.alive = false) ∧
    (∃ u, exec .powerOff s = .next u ∧ resetMade s u 0 ∧ u.pwr.on = false ∧ u.alive = false) ∧
    (s.pwr.on = true → s.pwr.rstLow = false → ∃ u, exec .rstNAssert s = .next u ∧ resetMade s u 2 ∧
      u.pwr.rstLow = true ∧ u.pwr.tripped = false ∧ u.alive = false) ∧
    (s.pwr.on = true → s.pwr.rstLow = true → s.pwr.tripped = false →
      ∃ u, exec .resetRelease s = .next u ∧ u.alive = true ∧ u.time = s.time ∧ onlyRegs s u []) ∧
    (s.pwr.on = true → s.pwr.tripped = false → ∃ u, exec .brownout s = .next u ∧ resetMade s u 4 ∧ u.alive = s.alive) ∧
    (∀ t, s.alive = true → ∃ u, exec (.perstNRelease t) s = .next u ∧ u.hostUp = true ∧ onlyRegs s u []) ∧
    ∀ (t : Tu) (n : Fin 5) (v : BitVec 16), s.alive = true →
      (tripAt n ≤ v.toInt → s.Inv → ∃ u, exec (.thermalTrip t n v) s = .next u ∧ u.pwr.tripped = true ∧ u.alive = false ∧
        u.reg .HUB_RESET_CAUSE 0 = 8 ∧ u.mgt = s.mgt ∧ (∀ a, memGet u.mem a = 0) ∧ u.pitched = false ∧
        (∀ n i, n.place.block = .mgt → n ∉ afterReset → u.reg n i = s.reg n i) ∧
        ∀ n i, n.place.block ≠ .mgt → n ∉ afterReset → u.reg n i = (⟨n, i⟩ : Reg).resetVal) ∧
      (v.toInt < tripAt n → ∃ u, exec (.thermalTrip t n v) s = .next u ∧ u.pwr = s.pwr ∧ onlyRegs s u [])

/-- STACK_TRAINING_DONE (R219, R411, R414): a stack that trains is shown, and its directory and mirror read zero; one that
fails is shown, its die sleeps, and EV471 is raised; boot goes on to PITCHING after both. -/
def stacksAreTrained : Prop :=
  ∀ (s : State) (t : Tu) (e : Fin 2), s.alive = true → s.fld Fld.HUB_BOOT_STATUS_PHASE 0 = 2 → s.trained e = false →
    (∃ u, exec (.stackTrainingDone t e true) s = .next u ∧ u.trained e = true ∧ u.trained (1 - e) = s.trained (1 - e) ∧
      u.fld Fld.HUB_BOOT_STATUS_PHASE 0 = (if s.trained (1 - e) then 3 else 2) ∧
      (∀ a, inMirror a = true → a / stackSpan = e.val → memGet u.mem a = 0) ∧
      (∀ a, inMirror a = false ∨ a / stackSpan ≠ e.val → memGet u.mem a = memGet s.mem a) ∧
      sameRegs s u [⟨.HUB_BOOT_STATUS, 0⟩]) ∧
    ∃ u, exec (.stackTrainingDone t e false) s = .next u ∧ u.trained e = true ∧ u.dieAsleep e = true ∧
      u.fld Fld.HUB_BOOT_STATUS_PHASE 0 = (if s.trained (1 - e) then 3 else 2) ∧
      (s.fld Fld.EVT_ROUTE_KIND 471 ≠ 1 → u.evtStatus 471 = true) ∧ sameMem s u

/-- Resets and stack training leave what the rules say. -/
def Obligations.ResetsAndTraining : Prop := resetsAreMade ∧ stacksAreTrained

/-- The registers of HUB_PWR_STATUS after a request: RESULT and LAST_OP (R417). -/
def pwrShows (u : State) (op code : Nat) : Prop :=
  u.fld Fld.HUB_PWR_STATUS_RESULT 0 = code ∧ u.fld Fld.HUB_PWR_STATUS_LAST_OP 0 = op

/-- Every open node of the list may close: none is in use, and every block acknowledges. -/
def mayClose (s : State) (ns : List Nat) : Prop :=
  ∀ n ∈ ns, s.gateOpen n = true → s.inUse n = false ∧ s.forceHonoured n = false

/-- The command asks for this transition of the power state (Table PWR-3). -/
def powerRequest (t : Tu) (i : Instr) (r : PwrReq) : Prop :=
  (∃ c busy, i = .clusterSleep t c busy ∧ r = ⟨1, c.val, busy.map Fin.val, 0⟩) ∨
  (∃ c, i = .clusterWake t c ∧ r = ⟨2, c.val, none, 0⟩) ∨
  (∃ e busy, i = .engineSleep t e busy ∧ r = ⟨3, e.val, busy.map Fin.val, 0⟩) ∨
  (∃ e, i = .engineWake t e ∧ r = ⟨4, e.val, none, 0⟩) ∨
  (∃ busy, i = .standby t busy ∧ r = ⟨5, 0, busy.map Fin.val, 0⟩) ∨
  ∃ span, i = .exitStandby t span ∧ r = ⟨6, 0, none, span⟩

/-- The gate controller is free (R107): no gate request is pending, and no power request waits for it. -/
def controllerFree (s : State) : Prop := s.clk.gate = none ∧ s.pwr.wait = none

/-- The six power requests (R107, R417): one that comes while another waits is BUSY; one that is not refused and finds a gate
request pending waits for the controller, and is PENDING. -/
def requestsWait : Prop :=
  ∀ (s : State) (t : Tu) (i : Instr) (r : PwrReq), s.hostUp = true → powerRequest t i r →
    (s.pwr.wait.isSome = true → ∃ u, exec i s = .next u ∧ pwrShows u r.op 4 ∧ u.pwr = s.pwr ∧
      onlyRegs s u [⟨.HUB_PWR_STATUS, 0⟩]) ∧
    (s.pwr.wait = none → s.clk.gate.isSome = true → (s.at t).pwrRefused r = 0 →
      ∃ u, exec i s = .next u ∧ pwrShows u r.op 1 ∧ u.pwr.wait = some r ∧ u.clk = s.clk ∧
        onlyRegs s u [⟨.HUB_PWR_STATUS, 0⟩])

/-- CLUSTER_SLEEP, CLUSTER_WAKE, ENGINE_SLEEP, ENGINE_WAKE (R417 to R419): with the gate controller free, a unit that may close
sleeps; a node in use, a block that does not acknowledge, a state that the request does not fit, a busy Basecamp, a thermal
hold: each has its result, and the unit stays as it is; a unit that wakes has its clock again, a die's clusters staying
asleep. -/
def unitsSleepAndWake : Prop :=
  ∀ (s : State) (t : Tu), s.hostUp = true → controllerFree s →
    (∀ (c : Fin 4) (busy : Option (Fin 34)),
      (s.pwrBusy = true → ∃ u, exec (.clusterSleep t c busy) s = .next u ∧ pwrShows u 1 4 ∧
        onlyRegs s u [⟨.HUB_PWR_STATUS, 0⟩]) ∧
      (s.pwrBusy = false → s.standby = true ∨ (s.fld Fld.HUB_PWR_STATUS_CL_SLEEP 0).testBit c = true →
        ∃ u, exec (.clusterSleep t c busy) s = .next u ∧ pwrShows u 1 3 ∧ onlyRegs s u [⟨.HUB_PWR_STATUS, 0⟩]) ∧
      (s.pwrBusy = false → s.standby = false → (s.fld Fld.HUB_PWR_STATUS_CL_SLEEP 0).testBit c = false →
        ((∃ n ∈ clusterNodes c, s.gateOpen n = true ∧ (s.at t).inUse n = true) →
          ∃ u, exec (.clusterSleep t c busy) s = .next u ∧ pwrShows u 1 2 ∧ onlyRegs s u [⟨.HUB_PWR_STATUS, 0⟩]) ∧
        (mayClose (s.at t) (clusterNodes c) → busy = none →
          ∃ u, exec (.clusterSleep t c busy) s = .next u ∧ pwrShows u 1 0 ∧ u.clusterAsleep c = true ∧
            (u.fld Fld.HUB_PWR_STATUS_CL_SLEEP 0).testBit c = true ∧ (∀ n ∈ clusterNodes c, u.gateOpen n = false) ∧
            (∀ n, n < 34 → n ∉ clusterNodes c → u.gateOpen n = s.gateOpen n) ∧ sameMem s u) ∧
        (∀ b : Fin 34, mayClose (s.at t) (clusterNodes c) → busy = some b → b.val ∈ clusterNodes c →
          s.gateOpen b = true →
          ∃ u, exec (.clusterSleep t c busy) s = .next u ∧ pwrShows u 1 5 ∧
            (u.fld Fld.HUB_PWR_STATUS_CL_SLEEP 0).testBit c = false ∧
            (s.fld Fld.EVT_ROUTE_KIND 6 ≠ 1 → u.evtStatus 6 = true) ∧ sameMem s u))) ∧
    (∀ c : Fin 4, s.pwrBusy = false → s.standby = false → (s.fld Fld.HUB_PWR_STATUS_CL_SLEEP 0).testBit c = true →
      (s.fld Fld.HUB_PWR_STATUS_ENG_SLEEP 0).testBit (c / 2) = false →
      ((s.fld Fld.HUB_PWR_STATUS_THERM_HOLD 0).testBit (c / 2) = true →
        ∃ u, exec (.clusterWake t c) s = .next u ∧ pwrShows u 2 6 ∧ onlyRegs s u [⟨.HUB_PWR_STATUS, 0⟩]) ∧
      ((s.fld Fld.HUB_PWR_STATUS_THERM_HOLD 0).testBit (c / 2) = false →
        ∃ u, exec (.clusterWake t c) s = .next u ∧ pwrShows u 2 0 ∧ u.gateOpen (3 + c) = true ∧
          (u.fld Fld.HUB_PWR_STATUS_CL_SLEEP 0).testBit c = false ∧ sameMem s u)) ∧
    (∀ e : Fin 2, s.pwrBusy = false → s.standby = false → (s.fld Fld.HUB_PWR_STATUS_ENG_SLEEP 0).testBit e = false →
      mayClose (s.at t) (dieNodes e) →
      ∃ u, exec (.engineSleep t e none) s = .next u ∧ pwrShows u 3 0 ∧ u.dieAsleep e = true ∧
        (u.fld Fld.HUB_PWR_STATUS_ENG_SLEEP 0).testBit e = true ∧
        (∀ c, c / 2 = e.val → (u.fld Fld.HUB_PWR_STATUS_CL_SLEEP 0).testBit c = true) ∧
        (∀ n ∈ dieNodes e, u.gateOpen n = false) ∧ sameMem s u) ∧
    ∀ e : Fin 2, s.pwrBusy = false → s.standby = false → (s.fld Fld.HUB_PWR_STATUS_ENG_SLEEP 0).testBit e = true →
      s.stackFailed e = false → (s.fld Fld.HUB_PWR_STATUS_THERM_HOLD 0).testBit e = false →
      ∃ u, exec (.engineWake t e) s = .next u ∧ pwrShows u 4 0 ∧ u.dieAsleep e = false ∧
        u.fld Fld.HUB_PWR_STATUS_CL_SLEEP 0 = s.fld Fld.HUB_PWR_STATUS_CL_SLEEP 0 ∧ sameMem s u

/-- STANDBY, EXIT_STANDBY, THERMAL_CHECK (R418, R420, R421): the hub sleeps with both dies, coasting; it wakes with local
time advanced by the measured span, and without a valid epoch; a sensor at CRIT puts its scope into thermal hold, at the
next tick or, where none is issued, at once; a scope whose sensors have cooled by 10 °C leaves it. -/
def hubSleepsAndHolds : Prop :=
  ∀ (s : State) (t : Tu),
    (s.hostUp = true → controllerFree s → s.pwrBusy = false → s.standby = false → mayClose (s.at t) standbyNodes →
      ∃ u, exec (.standby t none) s = .next u ∧ pwrShows u 5 0 ∧ u.standby = true ∧ u.active = 2 ∧
        u.pwr.entered = (s.at t).time ∧ u.fld Fld.HUB_PWR_STATUS_ENG_SLEEP 0 = 3 ∧ sameMem s u) ∧
    (∀ span : Tu, s.hostUp = true → controllerFree s → s.pwrBusy = false → s.standby = true →
      ((s.fld Fld.HUB_PWR_STATUS_THERM_HOLD 0).testBit 2 = false →
        ∃ u, exec (.exitStandby t span) s = .next u ∧ pwrShows u 6 0 ∧ u.standby = false ∧
          u.time = s.pwr.entered + span ∧ u.flag Fld.TLK_STATUS_EPOCH_VALID 0 = false ∧
          u.fld Fld.HUB_PWR_STATUS_ENG_SLEEP 0 = s.fld Fld.HUB_PWR_STATUS_ENG_SLEEP 0 ∧ sameMem s u) ∧
      ((s.fld Fld.HUB_PWR_STATUS_THERM_HOLD 0).testBit 2 = true →
        ∃ u, exec (.exitStandby t span) s = .next u ∧ pwrShows u 6 6 ∧ onlyRegs s u [⟨.HUB_PWR_STATUS, 0⟩])) ∧
    ∀ v : List (BitVec 16), s.alive = true → s.standby = false →
      (s.pitched = true → ∃ u, exec (.thermalCheck t v) s = .next u ∧
        (∀ n, n < 5 → s.critOf n ≤ (v.getD n 0).toInt → s.holdOf (scopeOf n) = false → u.pwr.hot.getLsbD n = true) ∧
        (∀ n, n < 5 → (v.getD n 0).toInt < s.critOf n → u.pwr.hot.getLsbD n = s.pwr.hot.getLsbD n) ∧
        (∀ z, z < 3 → s.holdOf z = true →
          u.holdOf z = !((List.range 5).all fun n => scopeOf n != z || decide ((v.getD n 0).toInt ≤ s.critOf n - 100))) ∧
        (∀ z, z < 3 → s.holdOf z = false → u.holdOf z = false) ∧ onlyRegs s u [⟨.HUB_PWR_STATUS, 0⟩]) ∧
      ∀ n, n < 5 → s.pitched = false → s.critOf n ≤ (v.getD n 0).toInt → s.holdOf (scopeOf n) = false →
        ∃ u, exec (.thermalCheck t v) s = .next u ∧ u.holdOf (scopeOf n) = true ∧
          (s.fld Fld.EVT_ROUTE_KIND 463 ≠ 1 → u.evtStatus 463 = true)

/-- Power states change, and thermal hold is entered and left, as the rules say. -/
def Obligations.PowerStatesChange : Prop := requestsWait ∧ unitsSleepAndWake ∧ hubSleepsAndHolds

/-! ### Diagnostics (chapter 20) -/

/-- LINK_DIAG_WRITE, INJECT, CHECKER_LOCK (R424 to R428): a pattern, a checker or a loopback of a link in service is
refused; else the setting is stored; an injected error leaves with a running pattern; a checker shows its lock, counts
while it is locked, and keeps that its lock was lost. -/
def linksAreDiagnosed : Prop :=
  ∀ (s : State) (t : Tu),
    (∀ (l : Fin 9) (v : Word), s.hostUp = true →
      (getBits v 0 3 ≠ 0 → s.linkInService l = true →
        ∃ u, exec (.linkDiagWrite t l v) s = .next u ∧ u.fld Fld.HUB_LINK_DIAG_STATE l = 2 ∧
          u.fld Fld.HUB_LINK_DIAG_GEN_PAT l = s.fld Fld.HUB_LINK_DIAG_GEN_PAT l ∧ u.out = s.out ∧
          onlyRegs s u [⟨.HUB_LINK_DIAG, l⟩]) ∧
      (s.linkInService l = false → v.getLsbD 8 = false →
        ∃ u, exec (.linkDiagWrite t l v) s = .next u ∧ u.fld Fld.HUB_LINK_DIAG_GEN_PAT l = getBits v 0 3 ∧
          (l.val < 5 → u.fld Fld.HUB_LINK_DIAG_CHK_PAT l = getBits v 3 3 ∧
            u.fld Fld.HUB_LINK_DIAG_LOOP l = getBits v 6 2) ∧
          (patActs (getBits v 0 3) ≠ 0 → u.fld Fld.HUB_LINK_DIAG_STATE l = 1) ∧ u.out = s.out ∧
          onlyRegs s u [⟨.HUB_LINK_DIAG, l⟩, ⟨.HUB_LINK_CHK, l⟩]) ∧
      (patActs (s.fld Fld.HUB_LINK_DIAG_GEN_PAT l) ≠ 0 → s.fld Fld.HUB_LINK_DIAG_LOOP l ≠ 3 →
        ∃ u, exec (.inject t l) s = .next u ∧ u.out = .injectBit l :: s.out ∧ onlyRegs s u []) ∧
      (patActs (s.fld Fld.HUB_LINK_DIAG_GEN_PAT l) = 0 ∨ s.fld Fld.HUB_LINK_DIAG_LOOP l = 3 →
        ∃ u, exec (.inject t l) s = .next u ∧ u.out = s.out ∧ onlyRegs s u [])) ∧
    ∀ (l : Fin 5) (bits : BitVec 48) (errs : Word), s.alive = true →
      patActs (s.fld Fld.HUB_LINK_DIAG_CHK_PAT l) ≠ 0 →
      (s.flag Fld.HUB_LINK_CHK_LOCK l = false → ∃ u, exec (.checkerLock t l true bits errs) s = .next u ∧
        u.flag Fld.HUB_LINK_CHK_LOCK l = true ∧ onlyRegs s u [⟨.HUB_LINK_CHK, l⟩]) ∧
      (s.flag Fld.HUB_LINK_CHK_LOCK l = true →
        (s.pair .HUB_LINK_BITS_LO .HUB_LINK_BITS_HI l).toNat + bits.toNat < 2 ^ 48 →
        s.fld Fld.HUB_LINK_ERR_COUNT l + errs.toNat < 2 ^ 32 →
        ∀ lock : Bool, ∃ u, exec (.checkerLock t l lock bits errs) s = .next u ∧
          (u.pair .HUB_LINK_BITS_LO .HUB_LINK_BITS_HI l).toNat =
            (s.pair .HUB_LINK_BITS_LO .HUB_LINK_BITS_HI l).toNat + bits.toNat ∧
          u.fld Fld.HUB_LINK_ERR_COUNT l = s.fld Fld.HUB_LINK_ERR_COUNT l + errs.toNat ∧
          u.flag Fld.HUB_LINK_CHK_LOCK l = lock ∧ (lock = false → u.flag Fld.HUB_LINK_CHK_LOCK_LOST l = true) ∧
          onlyRegs s u [⟨.HUB_LINK_CHK, l⟩, ⟨.HUB_LINK_ERR, l⟩, ⟨.HUB_LINK_BITS_LO, l⟩, ⟨.HUB_LINK_BITS_HI, l⟩])

/-- BIST_START, BIST_DONE, JTAG_INSTRUCTION (R430 to R432): a self-test runs on a unit that is idle, and is refused with its
result on one that is absent or busy, or on a range of a stack that the image uses; its end shows the verdict, and leaves the
range of a stack, and the planes and masks of an accumulator, at 0; the first instruction under which the boundary cells no
longer drive the pins resets the device. -/
def selfTestsRun : Prop :=
  ∀ (s : State) (t : Tu),
    (∀ n : Fin 16, s.hostUp = true →
      (s.dia.bist = none → s.bistAbsent n = true → ∃ u, exec (.bistStart t n) s = .next u ∧ u.dia.bist = none ∧
        u.fld Fld.HUB_BIST_STATUS_RESULT 0 = 5 ∧ u.fld Fld.HUB_BIST_STATUS_UNIT 0 = n ∧
        onlyRegs s u [⟨.HUB_BIST_STATUS, 0⟩]) ∧
      (s.dia.bist = none → s.bistAbsent n = false → (s.at t).bistIdle n = false →
        ∃ u, exec (.bistStart t n) s = .next u ∧ u.dia.bist = none ∧ u.fld Fld.HUB_BIST_STATUS_RESULT 0 = 4 ∧
          onlyRegs s u [⟨.HUB_BIST_STATUS, 0⟩]) ∧
      (s.dia.bist = none → s.bistAbsent n = false → (s.at t).bistIdle n = true → n.val = 10 ∨ n.val = 11 →
        s.snapBlocked (n % 2) s.bistRange.1 s.bistRange.2 = true →
        ∃ u, exec (.bistStart t n) s = .next u ∧ u.dia.bist = none ∧ u.fld Fld.HUB_BIST_STATUS_RESULT 0 = 6 ∧
          onlyRegs s u [⟨.HUB_BIST_STATUS, 0⟩]) ∧
      (s.dia.bist = none → s.bistAbsent n = false → (s.at t).bistIdle n = true →
        n.val ≠ 10 ∧ n.val ≠ 11 ∨ s.snapBlocked (n % 2) s.bistRange.1 s.bistRange.2 = false →
        ∃ u, exec (.bistStart t n) s = .next u ∧ u.dia.bist = some n.val ∧ u.fld Fld.HUB_BIST_STATUS_RESULT 0 = 1 ∧
          u.fld Fld.HUB_BIST_STATUS_UNIT 0 = n ∧ onlyRegs s u [⟨.HUB_BIST_STATUS, 0⟩]) ∧
      (∀ b, s.dia.bist = some b → ∃ u, exec (.bistStart t n) s = .next u ∧ u.dia.bist = some b ∧
        u.fld Fld.HUB_BIST_STATUS_RESULT 0 = 4 ∧ onlyRegs s u [⟨.HUB_BIST_STATUS, 0⟩])) ∧
    (∀ (b : Nat) (pass : Bool) (detail : BitVec 16), s.alive = true → s.dia.bist = some b →
      (∃ u, exec (.bistDone t pass detail) s = .next u ∧ u.dia.bist = none ∧
        u.fld Fld.HUB_BIST_STATUS_RESULT 0 = (if pass then 2 else 3) ∧
        u.fld Fld.HUB_BIST_STATUS_DETAIL 0 = (if pass then 0 else detail.toNat) ∧
        (b < 4 ∨ 8 ≤ b → b ≠ 10 → b ≠ 11 → onlyRegs s u [⟨.HUB_BIST_STATUS, 0⟩])) ∧
      (4 ≤ b → b < 8 → ∃ u, exec (.bistDone t pass detail) s = .next u ∧ sameMem s u ∧
        (∀ p x, p / 4 = b - 4 → x < 131072 → u.bin p x = 0) ∧
        ∀ k bank w, k / 8 = b - 4 → bank < 2 → w < 4096 → u.maskWord k bank w = 0#32) ∧
      (b = 10 ∨ b = 11 → ∃ u, exec (.bistDone t pass detail) s = .next u ∧
        (∀ a, b % 2 * stackSpan + s.dia.range.1 ≤ a → a < b % 2 * stackSpan + s.dia.range.1 + s.dia.range.2 →
          memGet u.mem a = 0) ∧
        (∀ a, a < b % 2 * stackSpan + s.dia.range.1 ∨ b % 2 * stackSpan + s.dia.range.1 + s.dia.range.2 ≤ a →
          memGet u.mem a = memGet s.mem a) ∧ sameRegs s u [⟨.HUB_BIST_STATUS, 0⟩])) ∧
    ∀ i : JtagIns, s.alive = true →
      (jtagDrives s.dia.jtag = false ∨ jtagDrives i = true →
        ∃ u, exec (.jtagInstruction t i) s = .next u ∧ u.dia.jtag = i ∧ onlyRegs s u []) ∧
      (jtagDrives s.dia.jtag = true → jtagDrives i = false →
        ∃ u, exec (.jtagInstruction t i) s = .next u ∧ u.dia.jtag = i ∧ resetMade s u 2 ∧ u.alive = true)

/-- Links are diagnosed and self-tests run as the rules say. -/
def Obligations.DiagnosticsRun : Prop := linksAreDiagnosed ∧ selfTestsRun
end

