-- ==== Sys2Proof/Laws/Tab.lean ====
section
/-! SUPPORT. Laws of the tables in canonical form, and of stack memory, which is one of them. -/

namespace Sys2Proof.Machine

/-! ### Reading what was written -/

theorem tget_tins {α : Type} (d : α) (m : Tab α) (k : Nat) (v : α) (j : Nat) :
    tget d (tins m k v) j = if j = k then v else tget d m j := by
  induction m with
  | nil => simp [tins, tget, eq_comm]
  | cons e m ih =>
    obtain ⟨i, w⟩ := e
    simp only [tins]
    by_cases h1 : k < i
    · rw [if_pos h1]
      simp only [tget, eq_comm (a := k) (b := j)]
    · rw [if_neg h1]
      by_cases h2 : k = i
      · rw [if_pos h2]; subst h2
        simp only [tget]
        by_cases h3 : j = k
        · simp [h3]
        · simp [h3, Ne.symm h3]
      · rw [if_neg h2]
        simp only [tget, ih]
        by_cases h3 : j = k
        · subst h3
          have : ¬ i = j := fun h => h2 h.symm
          simp [this]
        · simp [h3]

theorem tget_filter_ne {α : Type} (d : α) (m : Tab α) (k j : Nat) :
    tget d (m.filter fun e => e.1 ≠ k) j = if j = k then d else tget d m j := by
  induction m with
  | nil => simp [tget]
  | cons e m ih =>
    obtain ⟨i, w⟩ := e
    simp only [ne_eq, List.filter_cons, decide_not]
    by_cases h : i = k
    · subst h
      simp only [decide_true, Bool.not_true, Bool.false_eq_true, if_false]
      simp only [ne_eq, decide_not] at ih
      rw [ih]
      by_cases h3 : j = i
      · simp [h3]
      · simp only [h3, if_false, tget]
        rw [if_neg (fun h => h3 h.symm)]
    · simp only [h, decide_false, Bool.not_false, if_true, tget]
      simp only [ne_eq, decide_not] at ih
      rw [ih]
      by_cases h3 : j = k
      · subst h3; simp [h]
      · simp [h3]

/-- A table reads the value written at the key written, and what it read before elsewhere. -/
theorem tget_tput {α : Type} [DecidableEq α] (d : α) (m : Tab α) (k : Nat) (v : α) (j : Nat) :
    tget d (tput d m k v) j = if j = k then v else tget d m j := by
  unfold tput
  split
  · next h => rw [tget_filter_ne]; split <;> simp_all
  · exact tget_tins d m k v j

@[simp] theorem tget_tput_same {α : Type} [DecidableEq α] (d : α) (m : Tab α) (k : Nat) (v : α) :
    tget d (tput d m k v) k = v := by simp [tget_tput]

theorem tget_tput_other {α : Type} [DecidableEq α] (d : α) (m : Tab α) {k j : Nat} (v : α) (h : j ≠ k) :
    tget d (tput d m k v) j = tget d m j := by simp [tget_tput, h]

@[simp] theorem tget_tmod_same {α : Type} [DecidableEq α] (d : α) (m : Tab α) (k : Nat) (f : α → α) :
    tget d (tmod d m k f) k = f (tget d m k) := by simp [tmod]

theorem tget_tmod_other {α : Type} [DecidableEq α] (d : α) (m : Tab α) {k j : Nat} (f : α → α) (h : j ≠ k) :
    tget d (tmod d m k f) j = tget d m j := tget_tput_other d m _ h

/-! ### The canonical form is kept -/

theorem Tab.wf_cons {α : Type} [DecidableEq α] (d : α) (e : Nat × α) (m : Tab α) :
    Tab.wf d (e :: m) = true ↔ e.2 ≠ d ∧ (∀ x ∈ m, e.1 < x.1) ∧ Tab.wf d m = true := by
  obtain ⟨k, v⟩ := e
  simp [Tab.wf, and_assoc]

theorem tins_keys {α : Type} (m : Tab α) (k : Nat) (v : α) (e : Nat × α) (h : e ∈ tins m k v) :
    e = (k, v) ∨ e ∈ m := by
  induction m with
  | nil => simpa [tins] using h
  | cons x m ih =>
    obtain ⟨i, w⟩ := x
    simp only [tins] at h
    split at h
    · simpa using h
    · split at h
      · rcases List.mem_cons.1 h with h | h
        · exact .inl h
        · exact .inr (List.mem_cons_of_mem _ h)
      · rcases List.mem_cons.1 h with h | h
        · exact .inr (by simp [h])
        · rcases ih h with h | h
          · exact .inl h
          · exact .inr (List.mem_cons_of_mem _ h)

theorem Tab.wf_tins {α : Type} [DecidableEq α] (d : α) (m : Tab α) (k : Nat) (v : α) (hv : v ≠ d)
    (h : Tab.wf d m = true) : Tab.wf d (tins m k v) = true := by
  induction m with
  | nil => simp [tins, Tab.wf, hv]
  | cons x m ih =>
    obtain ⟨i, w⟩ := x
    rw [Tab.wf_cons] at h
    obtain ⟨hw, hm, ht⟩ := h
    simp only [tins]
    split
    · next hlt =>
      rw [Tab.wf_cons]
      refine ⟨hv, ?_, (Tab.wf_cons d _ _).2 ⟨hw, hm, ht⟩⟩
      intro y hy
      rcases List.mem_cons.1 hy with rfl | hy
      · exact hlt
      · exact Nat.lt_trans hlt (hm y hy)
    · split
      · next hlt heq =>
        subst heq
        exact (Tab.wf_cons d _ _).2 ⟨hv, hm, ht⟩
      · next hlt hne =>
        refine (Tab.wf_cons d _ _).2 ⟨hw, ?_, ih ht⟩
        intro y hy
        rcases tins_keys m k v y hy with rfl | hy
        · simp only at *; omega
        · exact hm y hy

theorem Tab.wf_filter {α : Type} [DecidableEq α] (d : α) (m : Tab α) (p : Nat × α → Bool)
    (h : Tab.wf d m = true) : Tab.wf d (m.filter p) = true := by
  induction m with
  | nil => simpa using h
  | cons x m ih =>
    rw [Tab.wf_cons] at h
    simp only [List.filter_cons]
    split
    · exact (Tab.wf_cons d _ _).2 ⟨h.1, fun y hy => h.2.1 y (List.mem_filter.1 hy).1, ih h.2.2⟩
    · exact ih h.2.2

/-- A write keeps the canonical form of a table. -/
theorem Tab.wf_tput {α : Type} [DecidableEq α] (d : α) (m : Tab α) (k : Nat) (v : α) (h : Tab.wf d m = true) :
    Tab.wf d (tput d m k v) = true := by
  unfold tput
  split
  · exact Tab.wf_filter d m _ h
  · next hv => exact Tab.wf_tins d m k v hv h

theorem Tab.wf_tmod {α : Type} [DecidableEq α] (d : α) (m : Tab α) (k : Nat) (f : α → α) (h : Tab.wf d m = true) :
    Tab.wf d (tmod d m k f) = true := Tab.wf_tput d m k _ h

theorem tab_ext {α : Type} [DecidableEq α] (d : α) {m n : Tab α} (hm : Tab.wf d m = true) (hn : Tab.wf d n = true)
    (h : ∀ k, tget d m k = tget d n k) : m = n := by
  induction m generalizing n with
  | nil =>
    cases n with
    | nil => rfl
    | cons y n =>
      have := h y.1
      rw [Tab.wf_cons] at hn
      obtain ⟨j, w⟩ := y
      simp only [tget, if_true] at this
      exact absurd this.symm hn.1
  | cons x m ih =>
    obtain ⟨i, v⟩ := x
    have hm' := (Tab.wf_cons d _ _).1 hm
    cases n with
    | nil =>
      have := h i
      simp only [tget, if_true] at this
      exact absurd this hm'.1
    | cons y n =>
      obtain ⟨j, w⟩ := y
      have hn' := (Tab.wf_cons d _ _).1 hn
      have tgt : ∀ (l : Tab α) (k : Nat), (∀ e ∈ l, k < e.1) → tget d l k = d := by
        intro l k hl
        induction l with
        | nil => rfl
        | cons e l ihl =>
          obtain ⟨a, b⟩ := e
          have : k < a := hl (a, b) (by simp)
          simp only [tget]
          rw [if_neg (by omega)]
          exact ihl fun e he => hl e (List.mem_cons_of_mem _ he)
      have hij : i = j := by
        rcases Nat.lt_trichotomy i j with hlt | heq | hgt
        · have h1 := h i
          simp only [tget, if_true] at h1
          rw [if_neg (by omega), tgt n i (fun e he => Nat.lt_trans hlt (hn'.2.1 e he))] at h1
          exact absurd h1 hm'.1
        · exact heq
        · have h1 := h j
          simp only [tget, if_true] at h1
          rw [if_neg (by omega), tgt m j (fun e he => Nat.lt_trans hgt (hm'.2.1 e he))] at h1
          exact absurd h1.symm hn'.1
      subst hij
      have hvw : v = w := by have := h i; simpa [tget] using this
      subst hvw
      congr 1
      refine ih hm'.2.2 hn'.2.2 fun k => ?_
      by_cases hk : i = k
      · subst hk
        rw [tgt m i hm'.2.1, tgt n i hn'.2.1]
      · have := h k
        simpa [tget, hk] using this

/-! ### Stack memory -/

theorem memGet_memPut (m : List Host.Cell) (a : Nat) (b : Byte) (x : Nat) :
    memGet (memPut m a b) x = if x = a then b else memGet m x := tget_tput _ m a b x

theorem Memory.wf_memPut (m : List Host.Cell) (a : Nat) (b : Byte) (h : Memory.wf m = true) :
    Memory.wf (memPut m a b) = true := Tab.wf_tput _ m a b h

theorem Memory.wf_filter (m : List Host.Cell) (p : Host.Cell → Bool) (h : Memory.wf m = true) :
    Memory.wf (m.filter p) = true := Tab.wf_filter _ m p h

/-- A write of bytes keeps the canonical form of memory. -/
theorem Memory.wf_memPutAll (m : List Host.Cell) (a : Nat) (bs : List Byte) (h : Memory.wf m = true) :
    Memory.wf (memPutAll m a bs) = true := by
  induction bs generalizing m a with
  | nil => exact h
  | cons b bs ih => exact ih _ _ (Memory.wf_memPut m a b h)

/-- After a write of bytes from `a` upward, a byte within them reads as written. -/
theorem memGet_memPutAll (m : List Host.Cell) (a : Nat) (bs : List Byte) (x : Nat) :
    memGet (memPutAll m a bs) x = if a ≤ x ∧ x < a + bs.length then bs.getD (x - a) 0 else memGet m x := by
  induction bs generalizing m a with
  | nil => simp [memPutAll]
  | cons b bs ih =>
    simp only [memPutAll, ih, memGet_memPut, List.length_cons]
    by_cases h1 : a + 1 ≤ x ∧ x < a + 1 + bs.length
    · have h2 : a ≤ x ∧ x < a + (bs.length + 1) := by omega
      rw [if_pos h1, if_pos h2]
      obtain ⟨n, hn⟩ : ∃ n, x - a = n + 1 := ⟨x - a - 1, by omega⟩
      rw [hn, show x - (a + 1) = n by omega]
      simp
    · rw [if_neg h1]
      by_cases h3 : x = a
      · subst h3; simp
      · rw [if_neg h3, if_neg (by omega)]

/-- Bytes outside a write read as before. -/
theorem memGet_memPutAll_other (m : List Host.Cell) (a : Nat) (bs : List Byte) {x : Nat}
    (h : x < a ∨ a + bs.length ≤ x) : memGet (memPutAll m a bs) x = memGet m x := by
  rw [memGet_memPutAll, if_neg (by omega)]

/-- Memories in canonical form that read alike are equal. -/
theorem memory_ext {m n : List Host.Cell} (hm : Memory.wf m = true) (hn : Memory.wf n = true)
    (h : ∀ a, memGet m a = memGet n a) : m = n := tab_ext _ hm hn h

end Sys2Proof.Machine
end

