-- ==== Sys2Proof/Laws/Regs.lean ====
section
/-! SUPPORT. Laws of the register file, and of the fields of a register. -/

namespace Sys2Proof.Machine

/-! ### The order of the register file -/

theorem RegName_ctorIdx_lt (n : RegName) : n.ctorIdx < 512 := by cases n <;> decide

theorem RegName_ctorIdx_inj {a b : RegName} (h : a.ctorIdx = b.ctorIdx) : a = b := by
  have ha := RegName.ofNat_ctorIdx a
  have hb := RegName.ofNat_ctorIdx b
  rw [← ha, ← hb, h]

theorem Reg_code_inj {a b : Reg} (h : a.code = b.code) : a = b := by
  obtain ⟨n, i⟩ := a
  obtain ⟨m, j⟩ := b
  have h1 := RegName_ctorIdx_lt n
  have h2 := RegName_ctorIdx_lt m
  simp only [Reg.code] at h
  have hi : i = j := by omega
  subst hi
  have : n.ctorIdx = m.ctorIdx := by omega
  rw [RegName_ctorIdx_inj this]

/-! ### Reading what was written -/

theorem rget_filter_ne (m : List (Reg × Word)) (r q : Reg) :
    rget (m.filter fun e => e.1 ≠ r) q = if q = r then r.resetVal else rget m q := by
  induction m with
  | nil => simp only [List.filter_nil, rget]; split <;> simp_all
  | cons e m ih =>
    obtain ⟨i, w⟩ := e
    simp only [ne_eq, decide_not] at ih
    simp only [ne_eq, decide_not, List.filter_cons]
    by_cases h : i = r
    · subst h
      simp only [decide_true, Bool.not_true, Bool.false_eq_true, if_false, ih, rget]
      by_cases h3 : q = i
      · simp [h3]
      · simp [h3, Ne.symm h3]
    · simp only [h, decide_false, Bool.not_false, if_true, rget, ih]
      by_cases h3 : q = r
      · subst h3; simp [h]
      · simp [h3]

theorem rget_rins (m : List (Reg × Word)) (r : Reg) (v : Word) (q : Reg) :
    rget (rins m r v) q = if q = r then v else rget m q := by
  induction m with
  | nil => simp [rins, rget, eq_comm]
  | cons e m ih =>
    obtain ⟨i, w⟩ := e
    simp only [rins]
    by_cases h1 : r.code < i.code
    · rw [if_pos h1]
      simp only [rget, eq_comm (a := r) (b := q)]
    · rw [if_neg h1]
      by_cases h2 : r = i
      · rw [if_pos h2]; subst h2
        simp only [rget]
        by_cases h3 : q = r
        · simp [h3]
        · simp [h3, Ne.symm h3]
      · rw [if_neg h2]
        simp only [rget, ih]
        by_cases h3 : q = r
        · subst h3
          have : ¬ i = q := fun h => h2 h.symm
          simp [this]
        · simp [h3]

/-- A register file reads the value written in the register written, and what it read before in every other. -/
theorem rget_rput (m : List (Reg × Word)) (r : Reg) (v : Word) (q : Reg) :
    rget (rput m r v) q = if q = r then v else rget m q := by
  unfold rput
  split
  · next h => rw [rget_filter_ne]; split <;> simp_all
  · exact rget_rins m r v q

/-! ### The canonical form is kept -/

theorem regsWf_cons (e : Reg × Word) (m : List (Reg × Word)) :
    regsWf (e :: m) = true ↔ e.2 ≠ e.1.resetVal ∧ (∀ x ∈ m, e.1.code < x.1.code) ∧ regsWf m = true := by
  obtain ⟨k, v⟩ := e
  simp only [regsWf, Bool.and_eq_true, decide_eq_true_eq, List.all_eq_true, and_assoc, ne_eq]

theorem rins_keys (m : List (Reg × Word)) (r : Reg) (v : Word) (e : Reg × Word) (h : e ∈ rins m r v) :
    e = (r, v) ∨ e ∈ m := by
  induction m with
  | nil => simpa [rins] using h
  | cons x m ih =>
    obtain ⟨i, w⟩ := x
    simp only [rins] at h
    split at h
    · exact List.mem_cons.1 h
    · split at h
      · rcases List.mem_cons.1 h with h | h
        · exact .inl h
        · exact .inr (List.mem_cons_of_mem _ h)
      · rcases List.mem_cons.1 h with h | h
        · exact .inr (h ▸ List.mem_cons_self)
        · rcases ih h with h | h
          · exact .inl h
          · exact .inr (List.mem_cons_of_mem _ h)

theorem regsWf_filter (m : List (Reg × Word)) (p : Reg × Word → Bool) (h : regsWf m = true) :
    regsWf (m.filter p) = true := by
  induction m with
  | nil => simpa using h
  | cons x m ih =>
    rw [regsWf_cons] at h
    simp only [List.filter_cons]
    split
    · exact (regsWf_cons _ _).2 ⟨h.1, fun y hy => h.2.1 y (List.mem_filter.1 hy).1, ih h.2.2⟩
    · exact ih h.2.2

theorem regsWf_rins (m : List (Reg × Word)) (r : Reg) (v : Word) (hv : v ≠ r.resetVal) (h : regsWf m = true) :
    regsWf (rins m r v) = true := by
  induction m with
  | nil => exact (regsWf_cons _ _).2 ⟨hv, by simp, rfl⟩
  | cons x m ih =>
    obtain ⟨i, w⟩ := x
    have h' := (regsWf_cons _ _).1 h
    simp only [rins]
    split
    · next hlt =>
      refine (regsWf_cons _ _).2 ⟨hv, fun y hy => ?_, h⟩
      rcases List.mem_cons.1 hy with rfl | hy
      · exact hlt
      · exact Nat.lt_trans hlt (h'.2.1 y hy)
    · split
      · next hlt heq =>
        subst heq
        exact (regsWf_cons _ _).2 ⟨hv, h'.2.1, h'.2.2⟩
      · next hlt hne =>
        refine (regsWf_cons _ _).2 ⟨h'.1, fun y hy => ?_, ih h'.2.2⟩
        rcases rins_keys m r v y hy with rfl | hy
        · have : r.code ≠ i.code := fun hc => hne (Reg_code_inj hc)
          simp only at *
          omega
        · exact h'.2.1 y hy

/-- A write of a register keeps the canonical form of the register file. -/
theorem regsWf_rput (m : List (Reg × Word)) (r : Reg) (v : Word) (h : regsWf m = true) :
    regsWf (rput m r v) = true := by
  unfold rput
  split
  · exact regsWf_filter m _ h
  · next hv => exact regsWf_rins m r v hv h

/-! ### Registers of a state -/

/-- After a write of a register, it reads the value written, and every other register what it read before. -/
theorem State.reg_setReg (s : State) (n : RegName) (i : Nat) (v : Word) (n' : RegName) (i' : Nat) :
    (s.setReg n i v).reg n' i' = if n' = n ∧ i' = i then v else s.reg n' i' := by
  simp only [State.reg, State.setReg, rget_rput, Reg.mk.injEq]

@[simp] theorem State.reg_setReg_same (s : State) (n : RegName) (i : Nat) (v : Word) :
    (s.setReg n i v).reg n i = v := by simp [State.reg_setReg]

theorem State.reg_setReg_other (s : State) (n : RegName) (i : Nat) (v : Word) {n' : RegName} {i' : Nat}
    (h : ¬(n' = n ∧ i' = i)) : (s.setReg n i v).reg n' i' = s.reg n' i' := by simp [State.reg_setReg, h]

/-! ### Fields -/

theorem getBits_lt (v : Word) (lsb w : Nat) : getBits v lsb w < 2 ^ w := (v.extractLsb' lsb w).isLt

theorem getBits_testBit (v : Word) (lsb w j : Nat) :
    (getBits v lsb w).testBit j = (decide (j < w) && v.getLsbD (lsb + j)) := by
  simp only [getBits, BitVec.testBit_toNat, BitVec.getLsbD_extractLsb']

theorem putBits_getLsbD (v : Word) (lsb w x j : Nat) :
    (putBits v lsb w x).getLsbD j =
      (decide (j < 32) && (if lsb ≤ j ∧ j < lsb + w then x.testBit (j - lsb) else v.getLsbD j)) := by
  simp only [putBits, BitVec.getLsbD_or, BitVec.getLsbD_and, BitVec.getLsbD_not, BitVec.getLsbD_shiftLeft,
    BitVec.getLsbD_setWidth, BitVec.getLsbD_allOnes, BitVec.getLsbD_ofNat]
  by_cases hj : j < 32
  · by_cases h : lsb ≤ j ∧ j < lsb + w
    · have h1 : ¬ j < lsb := by omega
      have h2 : j - lsb < w := by omega
      have h3 : j - lsb < 32 := by omega
      simp [hj, h, h1, h2, h3]
    · by_cases h1 : j < lsb
      · simp [hj, h1, h]
      · have h2 : ¬ j - lsb < w := by omega
        simp [hj, h1, h2, h]
  · simp [hj]

/-- A field reads the value put into it, modulo its width. -/
theorem getBits_putBits_same (v : Word) (lsb w x : Nat) (h : lsb + w ≤ 32) :
    getBits (putBits v lsb w x) lsb w = x % 2 ^ w := by
  apply Nat.eq_of_testBit_eq
  intro j
  rw [getBits_testBit, putBits_getLsbD, Nat.testBit_mod_two_pow]
  by_cases hj : j < w
  · have h1 : lsb ≤ lsb + j ∧ lsb + j < lsb + w := by omega
    have h2 : lsb + j < 32 := by omega
    simp [hj, h1, h2]
  · simp [hj]

/-- A field that does not overlap the one changed reads as before. -/
theorem getBits_putBits_other (v : Word) (lsb w x l k : Nat) (h : l + k ≤ lsb ∨ lsb + w ≤ l) :
    getBits (putBits v lsb w x) l k = getBits v l k := by
  apply Nat.eq_of_testBit_eq
  intro j
  rw [getBits_testBit, getBits_testBit, putBits_getLsbD]
  by_cases hj : j < k
  · have h1 : ¬(lsb ≤ l + j ∧ l + j < lsb + w) := by omega
    by_cases h2 : l + j < 32
    · simp [hj, h1, h2]
    · have : v.getLsbD (l + j) = false := BitVec.getLsbD_of_ge v _ (by omega)
      simp [hj, h2, this]
  · simp [hj]

/-- Registers after a change of a field. -/
theorem State.reg_setFld (s : State) (f : Fld) (i x : Nat) (n' : RegName) (i' : Nat) :
    (s.setFld f i x).reg n' i' =
      if n' = f.reg ∧ i' = i then putBits (s.reg f.reg i) f.lsb f.width x else s.reg n' i' :=
  State.reg_setReg _ _ _ _ _ _

theorem State.reg_setFld_other (s : State) (f : Fld) (i x : Nat) {n' : RegName} {i' : Nat}
    (h : ¬(n' = f.reg ∧ i' = i)) : (s.setFld f i x).reg n' i' = s.reg n' i' := State.reg_setReg_other _ _ _ _ h

/-- A field reads the value set. -/
theorem State.fld_setFld_same (s : State) (f : Fld) (i x : Nat) (h : f.lsb + f.width ≤ 32) :
    (s.setFld f i x).fld f i = x % 2 ^ f.width := by
  simp [State.fld, State.setFld, getBits_putBits_same _ _ _ _ h]

/-- A field of another register, or one that does not overlap, reads as before. -/
theorem State.fld_setFld_other (s : State) (f g : Fld) (i j x : Nat)
    (h : ¬(g.reg = f.reg ∧ j = i) ∨ g.lsb + g.width ≤ f.lsb ∨ f.lsb + f.width ≤ g.lsb) :
    (s.setFld f i x).fld g j = s.fld g j := by
  simp only [State.fld, State.reg_setFld]
  split
  · next hc =>
    rcases h with h | h
    · exact absurd hc h
    · rw [getBits_putBits_other _ _ _ _ _ _ h, hc.1, hc.2]
  · rfl

theorem State.fld_setReg_other (s : State) (n : RegName) (i : Nat) (v : Word) (g : Fld) (j : Nat)
    (h : ¬(g.reg = n ∧ j = i)) : (s.setReg n i v).fld g j = s.fld g j := by
  simp [State.fld, State.reg_setReg_other _ _ _ _ h]

theorem State.fld_lt (s : State) (f : Fld) (i : Nat) : s.fld f i < 2 ^ f.width := getBits_lt _ _ _

/-- A field of `w` bits, put back as it was read, changes nothing. -/
theorem putBits_getBits (v : Word) (lsb w : Nat) : putBits v lsb w (getBits v lsb w) = v := by
  apply BitVec.eq_of_getLsbD_eq
  intro j hj
  rw [putBits_getLsbD, getBits_testBit]
  by_cases hc : lsb ≤ j ∧ j < lsb + w
  · have h1 : j - lsb < w := by omega
    have h2 : lsb + (j - lsb) = j := by omega
    simp [hj, hc, h1, h2]
  · simp [hj, hc]

/-- What every register reads as decides the register file, where both files are in canonical form. -/
theorem regs_ext {m n : List (Reg × Word)} (hm : regsWf m = true) (hn : regsWf n = true)
    (h : ∀ r, rget m r = rget n r) : m = n := by
  have tgt : ∀ (l : List (Reg × Word)) (k : Reg), (∀ e ∈ l, k.code < e.1.code) → rget l k = k.resetVal := by
    intro l k hl
    induction l with
    | nil => rfl
    | cons e l ihl =>
      obtain ⟨a, b⟩ := e
      have hlt : k.code < a.code := hl (a, b) (by simp)
      simp only [rget]
      rw [if_neg (fun hc => by subst hc; omega)]
      exact ihl fun e he => hl e (List.mem_cons_of_mem _ he)
  induction m generalizing n with
  | nil =>
    cases n with
    | nil => rfl
    | cons y n =>
      have := h y.1
      rw [regsWf_cons] at hn
      obtain ⟨j, w⟩ := y
      simp only [rget, if_true] at this
      exact absurd this.symm hn.1
  | cons x m ih =>
    obtain ⟨i, v⟩ := x
    have hm' := (regsWf_cons _ _).1 hm
    cases n with
    | nil =>
      have := h i
      simp only [rget, if_true] at this
      exact absurd this hm'.1
    | cons y n =>
      obtain ⟨j, w⟩ := y
      have hn' := (regsWf_cons _ _).1 hn
      have hij : i = j := by
        rcases Nat.lt_trichotomy i.code j.code with hlt | heq | hgt
        · have h1 := h i
          simp only [rget, if_true] at h1
          rw [if_neg (fun hc => by subst hc; omega),
            tgt n i (fun e he => Nat.lt_trans hlt (hn'.2.1 e he))] at h1
          exact absurd h1 hm'.1
        · exact Reg_code_inj heq
        · have h1 := h j
          simp only [rget, if_true] at h1
          rw [if_neg (fun hc => by subst hc; omega),
            tgt m j (fun e he => Nat.lt_trans hgt (hm'.2.1 e he))] at h1
          exact absurd h1.symm hn'.1
      subst hij
      have hvw : v = w := by have := h i; simpa [rget] using this
      subst hvw
      congr 1
      refine ih hm'.2.2 hn'.2.2 fun k => ?_
      by_cases hk : i = k
      · subst hk
        rw [tgt m i hm'.2.1, tgt n i hn'.2.1]
      · have := h k
        simpa [rget, hk] using this

end Sys2Proof.Machine
end

