-- ==== Sys2Proof/Laws/State.lean ====
section
/-! SUPPORT. One lemma for each field of the state and each named update of it: what the update leaves alone. -/

namespace Sys2Proof.Machine

/-! ### setReg -/

@[simp] theorem State.setReg_latch (s : State) (n : RegName) (i : Nat) (v : Word) : (s.setReg n i v).latch = s.latch := rfl
@[simp] theorem State.setReg_time (s : State) (n : RegName) (i : Nat) (v : Word) : (s.setReg n i v).time = s.time := rfl
@[simp] theorem State.setReg_frame (s : State) (n : RegName) (i : Nat) (v : Word) : (s.setReg n i v).frame = s.frame := rfl
@[simp] theorem State.setReg_mem (s : State) (n : RegName) (i : Nat) (v : Word) : (s.setReg n i v).mem = s.mem := rfl
@[simp] theorem State.setReg_masks (s : State) (n : RegName) (i : Nat) (v : Word) : (s.setReg n i v).masks = s.masks := rfl
@[simp] theorem State.setReg_bins (s : State) (n : RegName) (i : Nat) (v : Word) : (s.setReg n i v).bins = s.bins := rfl
@[simp] theorem State.setReg_dir (s : State) (n : RegName) (i : Nat) (v : Word) : (s.setReg n i v).dir = s.dir := rfl
@[simp] theorem State.setReg_dirSeq (s : State) (n : RegName) (i : Nat) (v : Word) : (s.setReg n i v).dirSeq = s.dirSeq := rfl
@[simp] theorem State.setReg_tick (s : State) (n : RegName) (i : Nat) (v : Word) : (s.setReg n i v).tick = s.tick := rfl
@[simp] theorem State.setReg_pitch (s : State) (n : RegName) (i : Nat) (v : Word) : (s.setReg n i v).pitch = s.pitch := rfl
@[simp] theorem State.setReg_clk (s : State) (n : RegName) (i : Nat) (v : Word) : (s.setReg n i v).clk = s.clk := rfl
@[simp] theorem State.setReg_tlk (s : State) (n : RegName) (i : Nat) (v : Word) : (s.setReg n i v).tlk = s.tlk := rfl
@[simp] theorem State.setReg_spll (s : State) (n : RegName) (i : Nat) (v : Word) : (s.setReg n i v).spll = s.spll := rfl
@[simp] theorem State.setReg_pll (s : State) (n : RegName) (i : Nat) (v : Word) : (s.setReg n i v).pll = s.pll := rfl
@[simp] theorem State.setReg_afe (s : State) (n : RegName) (i : Nat) (v : Word) : (s.setReg n i v).afe = s.afe := rfl
@[simp] theorem State.setReg_lanes (s : State) (n : RegName) (i : Nat) (v : Word) : (s.setReg n i v).lanes = s.lanes := rfl
@[simp] theorem State.setReg_comps (s : State) (n : RegName) (i : Nat) (v : Word) : (s.setReg n i v).comps = s.comps := rfl
@[simp] theorem State.setReg_gens (s : State) (n : RegName) (i : Nat) (v : Word) : (s.setReg n i v).gens = s.gens := rfl
@[simp] theorem State.setReg_trigOut (s : State) (n : RegName) (i : Nat) (v : Word) : (s.setReg n i v).trigOut = s.trigOut := rfl
@[simp] theorem State.setReg_trigIn (s : State) (n : RegName) (i : Nat) (v : Word) : (s.setReg n i v).trigIn = s.trigIn := rfl
@[simp] theorem State.setReg_regions (s : State) (n : RegName) (i : Nat) (v : Word) : (s.setReg n i v).regions = s.regions := rfl
@[simp] theorem State.setReg_red (s : State) (n : RegName) (i : Nat) (v : Word) : (s.setReg n i v).red = s.red := rfl
@[simp] theorem State.setReg_sync (s : State) (n : RegName) (i : Nat) (v : Word) : (s.setReg n i v).sync = s.sync := rfl
@[simp] theorem State.setReg_planes (s : State) (n : RegName) (i : Nat) (v : Word) : (s.setReg n i v).planes = s.planes := rfl
@[simp] theorem State.setReg_maskFire (s : State) (n : RegName) (i : Nat) (v : Word) : (s.setReg n i v).maskFire = s.maskFire := rfl
@[simp] theorem State.setReg_xtrigCycle (s : State) (n : RegName) (i : Nat) (v : Word) : (s.setReg n i v).xtrigCycle = s.xtrigCycle := rfl
@[simp] theorem State.setReg_snaps (s : State) (n : RegName) (i : Nat) (v : Word) : (s.setReg n i v).snaps = s.snaps := rfl
@[simp] theorem State.setReg_tic (s : State) (n : RegName) (i : Nat) (v : Word) : (s.setReg n i v).tic = s.tic := rfl
@[simp] theorem State.setReg_pmu (s : State) (n : RegName) (i : Nat) (v : Word) : (s.setReg n i v).pmu = s.pmu := rfl
@[simp] theorem State.setReg_ras (s : State) (n : RegName) (i : Nat) (v : Word) : (s.setReg n i v).ras = s.ras := rfl
@[simp] theorem State.setReg_dma (s : State) (n : RegName) (i : Nat) (v : Word) : (s.setReg n i v).dma = s.dma := rfl
@[simp] theorem State.setReg_evt (s : State) (n : RegName) (i : Nat) (v : Word) : (s.setReg n i v).evt = s.evt := rfl
@[simp] theorem State.setReg_gln (s : State) (n : RegName) (i : Nat) (v : Word) : (s.setReg n i v).gln = s.gln := rfl
@[simp] theorem State.setReg_mgt (s : State) (n : RegName) (i : Nat) (v : Word) : (s.setReg n i v).mgt = s.mgt := rfl
@[simp] theorem State.setReg_pwr (s : State) (n : RegName) (i : Nat) (v : Word) : (s.setReg n i v).pwr = s.pwr := rfl
@[simp] theorem State.setReg_dia (s : State) (n : RegName) (i : Nat) (v : Word) : (s.setReg n i v).dia = s.dia := rfl
@[simp] theorem State.setReg_free (s : State) (n : RegName) (i : Nat) (v : Word) : (s.setReg n i v).free = s.free := rfl
@[simp] theorem State.setReg_out (s : State) (n : RegName) (i : Nat) (v : Word) : (s.setReg n i v).out = s.out := rfl
@[simp] theorem State.setReg_pending (s : State) (n : RegName) (i : Nat) (v : Word) : (s.setReg n i v).pending = s.pending := rfl

/-! ### setFld -/

@[simp] theorem State.setFld_latch (s : State) (f : Fld) (i x : Nat) : (s.setFld f i x).latch = s.latch := rfl
@[simp] theorem State.setFld_time (s : State) (f : Fld) (i x : Nat) : (s.setFld f i x).time = s.time := rfl
@[simp] theorem State.setFld_frame (s : State) (f : Fld) (i x : Nat) : (s.setFld f i x).frame = s.frame := rfl
@[simp] theorem State.setFld_mem (s : State) (f : Fld) (i x : Nat) : (s.setFld f i x).mem = s.mem := rfl
@[simp] theorem State.setFld_masks (s : State) (f : Fld) (i x : Nat) : (s.setFld f i x).masks = s.masks := rfl
@[simp] theorem State.setFld_bins (s : State) (f : Fld) (i x : Nat) : (s.setFld f i x).bins = s.bins := rfl
@[simp] theorem State.setFld_dir (s : State) (f : Fld) (i x : Nat) : (s.setFld f i x).dir = s.dir := rfl
@[simp] theorem State.setFld_dirSeq (s : State) (f : Fld) (i x : Nat) : (s.setFld f i x).dirSeq = s.dirSeq := rfl
@[simp] theorem State.setFld_tick (s : State) (f : Fld) (i x : Nat) : (s.setFld f i x).tick = s.tick := rfl
@[simp] theorem State.setFld_pitch (s : State) (f : Fld) (i x : Nat) : (s.setFld f i x).pitch = s.pitch := rfl
@[simp] theorem State.setFld_clk (s : State) (f : Fld) (i x : Nat) : (s.setFld f i x).clk = s.clk := rfl
@[simp] theorem State.setFld_tlk (s : State) (f : Fld) (i x : Nat) : (s.setFld f i x).tlk = s.tlk := rfl
@[simp] theorem State.setFld_spll (s : State) (f : Fld) (i x : Nat) : (s.setFld f i x).spll = s.spll := rfl
@[simp] theorem State.setFld_pll (s : State) (f : Fld) (i x : Nat) : (s.setFld f i x).pll = s.pll := rfl
@[simp] theorem State.setFld_afe (s : State) (f : Fld) (i x : Nat) : (s.setFld f i x).afe = s.afe := rfl
@[simp] theorem State.setFld_lanes (s : State) (f : Fld) (i x : Nat) : (s.setFld f i x).lanes = s.lanes := rfl
@[simp] theorem State.setFld_comps (s : State) (f : Fld) (i x : Nat) : (s.setFld f i x).comps = s.comps := rfl
@[simp] theorem State.setFld_gens (s : State) (f : Fld) (i x : Nat) : (s.setFld f i x).gens = s.gens := rfl
@[simp] theorem State.setFld_trigOut (s : State) (f : Fld) (i x : Nat) : (s.setFld f i x).trigOut = s.trigOut := rfl
@[simp] theorem State.setFld_trigIn (s : State) (f : Fld) (i x : Nat) : (s.setFld f i x).trigIn = s.trigIn := rfl
@[simp] theorem State.setFld_regions (s : State) (f : Fld) (i x : Nat) : (s.setFld f i x).regions = s.regions := rfl
@[simp] theorem State.setFld_red (s : State) (f : Fld) (i x : Nat) : (s.setFld f i x).red = s.red := rfl
@[simp] theorem State.setFld_sync (s : State) (f : Fld) (i x : Nat) : (s.setFld f i x).sync = s.sync := rfl
@[simp] theorem State.setFld_planes (s : State) (f : Fld) (i x : Nat) : (s.setFld f i x).planes = s.planes := rfl
@[simp] theorem State.setFld_maskFire (s : State) (f : Fld) (i x : Nat) : (s.setFld f i x).maskFire = s.maskFire := rfl
@[simp] theorem State.setFld_xtrigCycle (s : State) (f : Fld) (i x : Nat) : (s.setFld f i x).xtrigCycle = s.xtrigCycle := rfl
@[simp] theorem State.setFld_snaps (s : State) (f : Fld) (i x : Nat) : (s.setFld f i x).snaps = s.snaps := rfl
@[simp] theorem State.setFld_tic (s : State) (f : Fld) (i x : Nat) : (s.setFld f i x).tic = s.tic := rfl
@[simp] theorem State.setFld_pmu (s : State) (f : Fld) (i x : Nat) : (s.setFld f i x).pmu = s.pmu := rfl
@[simp] theorem State.setFld_ras (s : State) (f : Fld) (i x : Nat) : (s.setFld f i x).ras = s.ras := rfl
@[simp] theorem State.setFld_dma (s : State) (f : Fld) (i x : Nat) : (s.setFld f i x).dma = s.dma := rfl
@[simp] theorem State.setFld_evt (s : State) (f : Fld) (i x : Nat) : (s.setFld f i x).evt = s.evt := rfl
@[simp] theorem State.setFld_gln (s : State) (f : Fld) (i x : Nat) : (s.setFld f i x).gln = s.gln := rfl
@[simp] theorem State.setFld_mgt (s : State) (f : Fld) (i x : Nat) : (s.setFld f i x).mgt = s.mgt := rfl
@[simp] theorem State.setFld_pwr (s : State) (f : Fld) (i x : Nat) : (s.setFld f i x).pwr = s.pwr := rfl
@[simp] theorem State.setFld_dia (s : State) (f : Fld) (i x : Nat) : (s.setFld f i x).dia = s.dia := rfl
@[simp] theorem State.setFld_free (s : State) (f : Fld) (i x : Nat) : (s.setFld f i x).free = s.free := rfl
@[simp] theorem State.setFld_out (s : State) (f : Fld) (i x : Nat) : (s.setFld f i x).out = s.out := rfl
@[simp] theorem State.setFld_pending (s : State) (f : Fld) (i x : Nat) : (s.setFld f i x).pending = s.pending := rfl

/-! ### setPair -/

@[simp] theorem State.setPair_latch (s : State) (lo hi : RegName) (i : Nat) (v : Tu) : (s.setPair lo hi i v).latch = s.latch := rfl
@[simp] theorem State.setPair_time (s : State) (lo hi : RegName) (i : Nat) (v : Tu) : (s.setPair lo hi i v).time = s.time := rfl
@[simp] theorem State.setPair_frame (s : State) (lo hi : RegName) (i : Nat) (v : Tu) : (s.setPair lo hi i v).frame = s.frame := rfl
@[simp] theorem State.setPair_mem (s : State) (lo hi : RegName) (i : Nat) (v : Tu) : (s.setPair lo hi i v).mem = s.mem := rfl
@[simp] theorem State.setPair_masks (s : State) (lo hi : RegName) (i : Nat) (v : Tu) : (s.setPair lo hi i v).masks = s.masks := rfl
@[simp] theorem State.setPair_bins (s : State) (lo hi : RegName) (i : Nat) (v : Tu) : (s.setPair lo hi i v).bins = s.bins := rfl
@[simp] theorem State.setPair_dir (s : State) (lo hi : RegName) (i : Nat) (v : Tu) : (s.setPair lo hi i v).dir = s.dir := rfl
@[simp] theorem State.setPair_dirSeq (s : State) (lo hi : RegName) (i : Nat) (v : Tu) : (s.setPair lo hi i v).dirSeq = s.dirSeq := rfl
@[simp] theorem State.setPair_tick (s : State) (lo hi : RegName) (i : Nat) (v : Tu) : (s.setPair lo hi i v).tick = s.tick := rfl
@[simp] theorem State.setPair_pitch (s : State) (lo hi : RegName) (i : Nat) (v : Tu) : (s.setPair lo hi i v).pitch = s.pitch := rfl
@[simp] theorem State.setPair_clk (s : State) (lo hi : RegName) (i : Nat) (v : Tu) : (s.setPair lo hi i v).clk = s.clk := rfl
@[simp] theorem State.setPair_tlk (s : State) (lo hi : RegName) (i : Nat) (v : Tu) : (s.setPair lo hi i v).tlk = s.tlk := rfl
@[simp] theorem State.setPair_spll (s : State) (lo hi : RegName) (i : Nat) (v : Tu) : (s.setPair lo hi i v).spll = s.spll := rfl
@[simp] theorem State.setPair_pll (s : State) (lo hi : RegName) (i : Nat) (v : Tu) : (s.setPair lo hi i v).pll = s.pll := rfl
@[simp] theorem State.setPair_afe (s : State) (lo hi : RegName) (i : Nat) (v : Tu) : (s.setPair lo hi i v).afe = s.afe := rfl
@[simp] theorem State.setPair_lanes (s : State) (lo hi : RegName) (i : Nat) (v : Tu) : (s.setPair lo hi i v).lanes = s.lanes := rfl
@[simp] theorem State.setPair_comps (s : State) (lo hi : RegName) (i : Nat) (v : Tu) : (s.setPair lo hi i v).comps = s.comps := rfl
@[simp] theorem State.setPair_gens (s : State) (lo hi : RegName) (i : Nat) (v : Tu) : (s.setPair lo hi i v).gens = s.gens := rfl
@[simp] theorem State.setPair_trigOut (s : State) (lo hi : RegName) (i : Nat) (v : Tu) : (s.setPair lo hi i v).trigOut = s.trigOut := rfl
@[simp] theorem State.setPair_trigIn (s : State) (lo hi : RegName) (i : Nat) (v : Tu) : (s.setPair lo hi i v).trigIn = s.trigIn := rfl
@[simp] theorem State.setPair_regions (s : State) (lo hi : RegName) (i : Nat) (v : Tu) : (s.setPair lo hi i v).regions = s.regions := rfl
@[simp] theorem State.setPair_red (s : State) (lo hi : RegName) (i : Nat) (v : Tu) : (s.setPair lo hi i v).red = s.red := rfl
@[simp] theorem State.setPair_sync (s : State) (lo hi : RegName) (i : Nat) (v : Tu) : (s.setPair lo hi i v).sync = s.sync := rfl
@[simp] theorem State.setPair_planes (s : State) (lo hi : RegName) (i : Nat) (v : Tu) : (s.setPair lo hi i v).planes = s.planes := rfl
@[simp] theorem State.setPair_maskFire (s : State) (lo hi : RegName) (i : Nat) (v : Tu) : (s.setPair lo hi i v).maskFire = s.maskFire := rfl
@[simp] theorem State.setPair_xtrigCycle (s : State) (lo hi : RegName) (i : Nat) (v : Tu) : (s.setPair lo hi i v).xtrigCycle = s.xtrigCycle := rfl
@[simp] theorem State.setPair_snaps (s : State) (lo hi : RegName) (i : Nat) (v : Tu) : (s.setPair lo hi i v).snaps = s.snaps := rfl
@[simp] theorem State.setPair_tic (s : State) (lo hi : RegName) (i : Nat) (v : Tu) : (s.setPair lo hi i v).tic = s.tic := rfl
@[simp] theorem State.setPair_pmu (s : State) (lo hi : RegName) (i : Nat) (v : Tu) : (s.setPair lo hi i v).pmu = s.pmu := rfl
@[simp] theorem State.setPair_ras (s : State) (lo hi : RegName) (i : Nat) (v : Tu) : (s.setPair lo hi i v).ras = s.ras := rfl
@[simp] theorem State.setPair_dma (s : State) (lo hi : RegName) (i : Nat) (v : Tu) : (s.setPair lo hi i v).dma = s.dma := rfl
@[simp] theorem State.setPair_evt (s : State) (lo hi : RegName) (i : Nat) (v : Tu) : (s.setPair lo hi i v).evt = s.evt := rfl
@[simp] theorem State.setPair_gln (s : State) (lo hi : RegName) (i : Nat) (v : Tu) : (s.setPair lo hi i v).gln = s.gln := rfl
@[simp] theorem State.setPair_mgt (s : State) (lo hi : RegName) (i : Nat) (v : Tu) : (s.setPair lo hi i v).mgt = s.mgt := rfl
@[simp] theorem State.setPair_pwr (s : State) (lo hi : RegName) (i : Nat) (v : Tu) : (s.setPair lo hi i v).pwr = s.pwr := rfl
@[simp] theorem State.setPair_dia (s : State) (lo hi : RegName) (i : Nat) (v : Tu) : (s.setPair lo hi i v).dia = s.dia := rfl
@[simp] theorem State.setPair_free (s : State) (lo hi : RegName) (i : Nat) (v : Tu) : (s.setPair lo hi i v).free = s.free := rfl
@[simp] theorem State.setPair_out (s : State) (lo hi : RegName) (i : Nat) (v : Tu) : (s.setPair lo hi i v).out = s.out := rfl
@[simp] theorem State.setPair_pending (s : State) (lo hi : RegName) (i : Nat) (v : Tu) : (s.setPair lo hi i v).pending = s.pending := rfl

/-! ### setFrame -/

@[simp] theorem State.setFrame_latch (s : State) (lo hi : RegName) (i : Nat) (v : Frame) : (s.setFrame lo hi i v).latch = s.latch := rfl
@[simp] theorem State.setFrame_time (s : State) (lo hi : RegName) (i : Nat) (v : Frame) : (s.setFrame lo hi i v).time = s.time := rfl
@[simp] theorem State.setFrame_frame (s : State) (lo hi : RegName) (i : Nat) (v : Frame) : (s.setFrame lo hi i v).frame = s.frame := rfl
@[simp] theorem State.setFrame_mem (s : State) (lo hi : RegName) (i : Nat) (v : Frame) : (s.setFrame lo hi i v).mem = s.mem := rfl
@[simp] theorem State.setFrame_masks (s : State) (lo hi : RegName) (i : Nat) (v : Frame) : (s.setFrame lo hi i v).masks = s.masks := rfl
@[simp] theorem State.setFrame_bins (s : State) (lo hi : RegName) (i : Nat) (v : Frame) : (s.setFrame lo hi i v).bins = s.bins := rfl
@[simp] theorem State.setFrame_dir (s : State) (lo hi : RegName) (i : Nat) (v : Frame) : (s.setFrame lo hi i v).dir = s.dir := rfl
@[simp] theorem State.setFrame_dirSeq (s : State) (lo hi : RegName) (i : Nat) (v : Frame) : (s.setFrame lo hi i v).dirSeq = s.dirSeq := rfl
@[simp] theorem State.setFrame_tick (s : State) (lo hi : RegName) (i : Nat) (v : Frame) : (s.setFrame lo hi i v).tick = s.tick := rfl
@[simp] theorem State.setFrame_pitch (s : State) (lo hi : RegName) (i : Nat) (v : Frame) : (s.setFrame lo hi i v).pitch = s.pitch := rfl
@[simp] theorem State.setFrame_clk (s : State) (lo hi : RegName) (i : Nat) (v : Frame) : (s.setFrame lo hi i v).clk = s.clk := rfl
@[simp] theorem State.setFrame_tlk (s : State) (lo hi : RegName) (i : Nat) (v : Frame) : (s.setFrame lo hi i v).tlk = s.tlk := rfl
@[simp] theorem State.setFrame_spll (s : State) (lo hi : RegName) (i : Nat) (v : Frame) : (s.setFrame lo hi i v).spll = s.spll := rfl
@[simp] theorem State.setFrame_pll (s : State) (lo hi : RegName) (i : Nat) (v : Frame) : (s.setFrame lo hi i v).pll = s.pll := rfl
@[simp] theorem State.setFrame_afe (s : State) (lo hi : RegName) (i : Nat) (v : Frame) : (s.setFrame lo hi i v).afe = s.afe := rfl
@[simp] theorem State.setFrame_lanes (s : State) (lo hi : RegName) (i : Nat) (v : Frame) : (s.setFrame lo hi i v).lanes = s.lanes := rfl
@[simp] theorem State.setFrame_comps (s : State) (lo hi : RegName) (i : Nat) (v : Frame) : (s.setFrame lo hi i v).comps = s.comps := rfl
@[simp] theorem State.setFrame_gens (s : State) (lo hi : RegName) (i : Nat) (v : Frame) : (s.setFrame lo hi i v).gens = s.gens := rfl
@[simp] theorem State.setFrame_trigOut (s : State) (lo hi : RegName) (i : Nat) (v : Frame) : (s.setFrame lo hi i v).trigOut = s.trigOut := rfl
@[simp] theorem State.setFrame_trigIn (s : State) (lo hi : RegName) (i : Nat) (v : Frame) : (s.setFrame lo hi i v).trigIn = s.trigIn := rfl
@[simp] theorem State.setFrame_regions (s : State) (lo hi : RegName) (i : Nat) (v : Frame) : (s.setFrame lo hi i v).regions = s.regions := rfl
@[simp] theorem State.setFrame_red (s : State) (lo hi : RegName) (i : Nat) (v : Frame) : (s.setFrame lo hi i v).red = s.red := rfl
@[simp] theorem State.setFrame_sync (s : State) (lo hi : RegName) (i : Nat) (v : Frame) : (s.setFrame lo hi i v).sync = s.sync := rfl
@[simp] theorem State.setFrame_planes (s : State) (lo hi : RegName) (i : Nat) (v : Frame) : (s.setFrame lo hi i v).planes = s.planes := rfl
@[simp] theorem State.setFrame_maskFire (s : State) (lo hi : RegName) (i : Nat) (v : Frame) : (s.setFrame lo hi i v).maskFire = s.maskFire := rfl
@[simp] theorem State.setFrame_xtrigCycle (s : State) (lo hi : RegName) (i : Nat) (v : Frame) : (s.setFrame lo hi i v).xtrigCycle = s.xtrigCycle := rfl
@[simp] theorem State.setFrame_snaps (s : State) (lo hi : RegName) (i : Nat) (v : Frame) : (s.setFrame lo hi i v).snaps = s.snaps := rfl
@[simp] theorem State.setFrame_tic (s : State) (lo hi : RegName) (i : Nat) (v : Frame) : (s.setFrame lo hi i v).tic = s.tic := rfl
@[simp] theorem State.setFrame_pmu (s : State) (lo hi : RegName) (i : Nat) (v : Frame) : (s.setFrame lo hi i v).pmu = s.pmu := rfl
@[simp] theorem State.setFrame_ras (s : State) (lo hi : RegName) (i : Nat) (v : Frame) : (s.setFrame lo hi i v).ras = s.ras := rfl
@[simp] theorem State.setFrame_dma (s : State) (lo hi : RegName) (i : Nat) (v : Frame) : (s.setFrame lo hi i v).dma = s.dma := rfl
@[simp] theorem State.setFrame_evt (s : State) (lo hi : RegName) (i : Nat) (v : Frame) : (s.setFrame lo hi i v).evt = s.evt := rfl
@[simp] theorem State.setFrame_gln (s : State) (lo hi : RegName) (i : Nat) (v : Frame) : (s.setFrame lo hi i v).gln = s.gln := rfl
@[simp] theorem State.setFrame_mgt (s : State) (lo hi : RegName) (i : Nat) (v : Frame) : (s.setFrame lo hi i v).mgt = s.mgt := rfl
@[simp] theorem State.setFrame_pwr (s : State) (lo hi : RegName) (i : Nat) (v : Frame) : (s.setFrame lo hi i v).pwr = s.pwr := rfl
@[simp] theorem State.setFrame_dia (s : State) (lo hi : RegName) (i : Nat) (v : Frame) : (s.setFrame lo hi i v).dia = s.dia := rfl
@[simp] theorem State.setFrame_free (s : State) (lo hi : RegName) (i : Nat) (v : Frame) : (s.setFrame lo hi i v).free = s.free := rfl
@[simp] theorem State.setFrame_out (s : State) (lo hi : RegName) (i : Nat) (v : Frame) : (s.setFrame lo hi i v).out = s.out := rfl
@[simp] theorem State.setFrame_pending (s : State) (lo hi : RegName) (i : Nat) (v : Frame) : (s.setFrame lo hi i v).pending = s.pending := rfl

/-! ### bump -/

@[simp] theorem State.bump_latch (s : State) (f : Fld) (i n : Nat) : (s.bump f i n).latch = s.latch := rfl
@[simp] theorem State.bump_time (s : State) (f : Fld) (i n : Nat) : (s.bump f i n).time = s.time := rfl
@[simp] theorem State.bump_frame (s : State) (f : Fld) (i n : Nat) : (s.bump f i n).frame = s.frame := rfl
@[simp] theorem State.bump_mem (s : State) (f : Fld) (i n : Nat) : (s.bump f i n).mem = s.mem := rfl
@[simp] theorem State.bump_masks (s : State) (f : Fld) (i n : Nat) : (s.bump f i n).masks = s.masks := rfl
@[simp] theorem State.bump_bins (s : State) (f : Fld) (i n : Nat) : (s.bump f i n).bins = s.bins := rfl
@[simp] theorem State.bump_dir (s : State) (f : Fld) (i n : Nat) : (s.bump f i n).dir = s.dir := rfl
@[simp] theorem State.bump_dirSeq (s : State) (f : Fld) (i n : Nat) : (s.bump f i n).dirSeq = s.dirSeq := rfl
@[simp] theorem State.bump_tick (s : State) (f : Fld) (i n : Nat) : (s.bump f i n).tick = s.tick := rfl
@[simp] theorem State.bump_pitch (s : State) (f : Fld) (i n : Nat) : (s.bump f i n).pitch = s.pitch := rfl
@[simp] theorem State.bump_clk (s : State) (f : Fld) (i n : Nat) : (s.bump f i n).clk = s.clk := rfl
@[simp] theorem State.bump_tlk (s : State) (f : Fld) (i n : Nat) : (s.bump f i n).tlk = s.tlk := rfl
@[simp] theorem State.bump_spll (s : State) (f : Fld) (i n : Nat) : (s.bump f i n).spll = s.spll := rfl
@[simp] theorem State.bump_pll (s : State) (f : Fld) (i n : Nat) : (s.bump f i n).pll = s.pll := rfl
@[simp] theorem State.bump_afe (s : State) (f : Fld) (i n : Nat) : (s.bump f i n).afe = s.afe := rfl
@[simp] theorem State.bump_lanes (s : State) (f : Fld) (i n : Nat) : (s.bump f i n).lanes = s.lanes := rfl
@[simp] theorem State.bump_comps (s : State) (f : Fld) (i n : Nat) : (s.bump f i n).comps = s.comps := rfl
@[simp] theorem State.bump_gens (s : State) (f : Fld) (i n : Nat) : (s.bump f i n).gens = s.gens := rfl
@[simp] theorem State.bump_trigOut (s : State) (f : Fld) (i n : Nat) : (s.bump f i n).trigOut = s.trigOut := rfl
@[simp] theorem State.bump_trigIn (s : State) (f : Fld) (i n : Nat) : (s.bump f i n).trigIn = s.trigIn := rfl
@[simp] theorem State.bump_regions (s : State) (f : Fld) (i n : Nat) : (s.bump f i n).regions = s.regions := rfl
@[simp] theorem State.bump_red (s : State) (f : Fld) (i n : Nat) : (s.bump f i n).red = s.red := rfl
@[simp] theorem State.bump_sync (s : State) (f : Fld) (i n : Nat) : (s.bump f i n).sync = s.sync := rfl
@[simp] theorem State.bump_planes (s : State) (f : Fld) (i n : Nat) : (s.bump f i n).planes = s.planes := rfl
@[simp] theorem State.bump_maskFire (s : State) (f : Fld) (i n : Nat) : (s.bump f i n).maskFire = s.maskFire := rfl
@[simp] theorem State.bump_xtrigCycle (s : State) (f : Fld) (i n : Nat) : (s.bump f i n).xtrigCycle = s.xtrigCycle := rfl
@[simp] theorem State.bump_snaps (s : State) (f : Fld) (i n : Nat) : (s.bump f i n).snaps = s.snaps := rfl
@[simp] theorem State.bump_tic (s : State) (f : Fld) (i n : Nat) : (s.bump f i n).tic = s.tic := rfl
@[simp] theorem State.bump_pmu (s : State) (f : Fld) (i n : Nat) : (s.bump f i n).pmu = s.pmu := rfl
@[simp] theorem State.bump_ras (s : State) (f : Fld) (i n : Nat) : (s.bump f i n).ras = s.ras := rfl
@[simp] theorem State.bump_dma (s : State) (f : Fld) (i n : Nat) : (s.bump f i n).dma = s.dma := rfl
@[simp] theorem State.bump_evt (s : State) (f : Fld) (i n : Nat) : (s.bump f i n).evt = s.evt := rfl
@[simp] theorem State.bump_gln (s : State) (f : Fld) (i n : Nat) : (s.bump f i n).gln = s.gln := rfl
@[simp] theorem State.bump_mgt (s : State) (f : Fld) (i n : Nat) : (s.bump f i n).mgt = s.mgt := rfl
@[simp] theorem State.bump_pwr (s : State) (f : Fld) (i n : Nat) : (s.bump f i n).pwr = s.pwr := rfl
@[simp] theorem State.bump_dia (s : State) (f : Fld) (i n : Nat) : (s.bump f i n).dia = s.dia := rfl
@[simp] theorem State.bump_free (s : State) (f : Fld) (i n : Nat) : (s.bump f i n).free = s.free := rfl
@[simp] theorem State.bump_out (s : State) (f : Fld) (i n : Nat) : (s.bump f i n).out = s.out := rfl
@[simp] theorem State.bump_pending (s : State) (f : Fld) (i n : Nat) : (s.bump f i n).pending = s.pending := rfl

/-! ### bumpMod -/

@[simp] theorem State.bumpMod_latch (s : State) (f : Fld) (i n : Nat) : (s.bumpMod f i n).latch = s.latch := rfl
@[simp] theorem State.bumpMod_time (s : State) (f : Fld) (i n : Nat) : (s.bumpMod f i n).time = s.time := rfl
@[simp] theorem State.bumpMod_frame (s : State) (f : Fld) (i n : Nat) : (s.bumpMod f i n).frame = s.frame := rfl
@[simp] theorem State.bumpMod_mem (s : State) (f : Fld) (i n : Nat) : (s.bumpMod f i n).mem = s.mem := rfl
@[simp] theorem State.bumpMod_masks (s : State) (f : Fld) (i n : Nat) : (s.bumpMod f i n).masks = s.masks := rfl
@[simp] theorem State.bumpMod_bins (s : State) (f : Fld) (i n : Nat) : (s.bumpMod f i n).bins = s.bins := rfl
@[simp] theorem State.bumpMod_dir (s : State) (f : Fld) (i n : Nat) : (s.bumpMod f i n).dir = s.dir := rfl
@[simp] theorem State.bumpMod_dirSeq (s : State) (f : Fld) (i n : Nat) : (s.bumpMod f i n).dirSeq = s.dirSeq := rfl
@[simp] theorem State.bumpMod_tick (s : State) (f : Fld) (i n : Nat) : (s.bumpMod f i n).tick = s.tick := rfl
@[simp] theorem State.bumpMod_pitch (s : State) (f : Fld) (i n : Nat) : (s.bumpMod f i n).pitch = s.pitch := rfl
@[simp] theorem State.bumpMod_clk (s : State) (f : Fld) (i n : Nat) : (s.bumpMod f i n).clk = s.clk := rfl
@[simp] theorem State.bumpMod_tlk (s : State) (f : Fld) (i n : Nat) : (s.bumpMod f i n).tlk = s.tlk := rfl
@[simp] theorem State.bumpMod_spll (s : State) (f : Fld) (i n : Nat) : (s.bumpMod f i n).spll = s.spll := rfl
@[simp] theorem State.bumpMod_pll (s : State) (f : Fld) (i n : Nat) : (s.bumpMod f i n).pll = s.pll := rfl
@[simp] theorem State.bumpMod_afe (s : State) (f : Fld) (i n : Nat) : (s.bumpMod f i n).afe = s.afe := rfl
@[simp] theorem State.bumpMod_lanes (s : State) (f : Fld) (i n : Nat) : (s.bumpMod f i n).lanes = s.lanes := rfl
@[simp] theorem State.bumpMod_comps (s : State) (f : Fld) (i n : Nat) : (s.bumpMod f i n).comps = s.comps := rfl
@[simp] theorem State.bumpMod_gens (s : State) (f : Fld) (i n : Nat) : (s.bumpMod f i n).gens = s.gens := rfl
@[simp] theorem State.bumpMod_trigOut (s : State) (f : Fld) (i n : Nat) : (s.bumpMod f i n).trigOut = s.trigOut := rfl
@[simp] theorem State.bumpMod_trigIn (s : State) (f : Fld) (i n : Nat) : (s.bumpMod f i n).trigIn = s.trigIn := rfl
@[simp] theorem State.bumpMod_regions (s : State) (f : Fld) (i n : Nat) : (s.bumpMod f i n).regions = s.regions := rfl
@[simp] theorem State.bumpMod_red (s : State) (f : Fld) (i n : Nat) : (s.bumpMod f i n).red = s.red := rfl
@[simp] theorem State.bumpMod_sync (s : State) (f : Fld) (i n : Nat) : (s.bumpMod f i n).sync = s.sync := rfl
@[simp] theorem State.bumpMod_planes (s : State) (f : Fld) (i n : Nat) : (s.bumpMod f i n).planes = s.planes := rfl
@[simp] theorem State.bumpMod_maskFire (s : State) (f : Fld) (i n : Nat) : (s.bumpMod f i n).maskFire = s.maskFire := rfl
@[simp] theorem State.bumpMod_xtrigCycle (s : State) (f : Fld) (i n : Nat) : (s.bumpMod f i n).xtrigCycle = s.xtrigCycle := rfl
@[simp] theorem State.bumpMod_snaps (s : State) (f : Fld) (i n : Nat) : (s.bumpMod f i n).snaps = s.snaps := rfl
@[simp] theorem State.bumpMod_tic (s : State) (f : Fld) (i n : Nat) : (s.bumpMod f i n).tic = s.tic := rfl
@[simp] theorem State.bumpMod_pmu (s : State) (f : Fld) (i n : Nat) : (s.bumpMod f i n).pmu = s.pmu := rfl
@[simp] theorem State.bumpMod_ras (s : State) (f : Fld) (i n : Nat) : (s.bumpMod f i n).ras = s.ras := rfl
@[simp] theorem State.bumpMod_dma (s : State) (f : Fld) (i n : Nat) : (s.bumpMod f i n).dma = s.dma := rfl
@[simp] theorem State.bumpMod_evt (s : State) (f : Fld) (i n : Nat) : (s.bumpMod f i n).evt = s.evt := rfl
@[simp] theorem State.bumpMod_gln (s : State) (f : Fld) (i n : Nat) : (s.bumpMod f i n).gln = s.gln := rfl
@[simp] theorem State.bumpMod_mgt (s : State) (f : Fld) (i n : Nat) : (s.bumpMod f i n).mgt = s.mgt := rfl
@[simp] theorem State.bumpMod_pwr (s : State) (f : Fld) (i n : Nat) : (s.bumpMod f i n).pwr = s.pwr := rfl
@[simp] theorem State.bumpMod_dia (s : State) (f : Fld) (i n : Nat) : (s.bumpMod f i n).dia = s.dia := rfl
@[simp] theorem State.bumpMod_free (s : State) (f : Fld) (i n : Nat) : (s.bumpMod f i n).free = s.free := rfl
@[simp] theorem State.bumpMod_out (s : State) (f : Fld) (i n : Nat) : (s.bumpMod f i n).out = s.out := rfl
@[simp] theorem State.bumpMod_pending (s : State) (f : Fld) (i n : Nat) : (s.bumpMod f i n).pending = s.pending := rfl

/-! ### writeRW -/

@[simp] theorem State.writeRW_latch (s : State) (n : RegName) (i : Nat) (v : Word) : (s.writeRW n i v).latch = s.latch := rfl
@[simp] theorem State.writeRW_time (s : State) (n : RegName) (i : Nat) (v : Word) : (s.writeRW n i v).time = s.time := rfl
@[simp] theorem State.writeRW_frame (s : State) (n : RegName) (i : Nat) (v : Word) : (s.writeRW n i v).frame = s.frame := rfl
@[simp] theorem State.writeRW_mem (s : State) (n : RegName) (i : Nat) (v : Word) : (s.writeRW n i v).mem = s.mem := rfl
@[simp] theorem State.writeRW_masks (s : State) (n : RegName) (i : Nat) (v : Word) : (s.writeRW n i v).masks = s.masks := rfl
@[simp] theorem State.writeRW_bins (s : State) (n : RegName) (i : Nat) (v : Word) : (s.writeRW n i v).bins = s.bins := rfl
@[simp] theorem State.writeRW_dir (s : State) (n : RegName) (i : Nat) (v : Word) : (s.writeRW n i v).dir = s.dir := rfl
@[simp] theorem State.writeRW_dirSeq (s : State) (n : RegName) (i : Nat) (v : Word) : (s.writeRW n i v).dirSeq = s.dirSeq := rfl
@[simp] theorem State.writeRW_tick (s : State) (n : RegName) (i : Nat) (v : Word) : (s.writeRW n i v).tick = s.tick := rfl
@[simp] theorem State.writeRW_pitch (s : State) (n : RegName) (i : Nat) (v : Word) : (s.writeRW n i v).pitch = s.pitch := rfl
@[simp] theorem State.writeRW_clk (s : State) (n : RegName) (i : Nat) (v : Word) : (s.writeRW n i v).clk = s.clk := rfl
@[simp] theorem State.writeRW_tlk (s : State) (n : RegName) (i : Nat) (v : Word) : (s.writeRW n i v).tlk = s.tlk := rfl
@[simp] theorem State.writeRW_spll (s : State) (n : RegName) (i : Nat) (v : Word) : (s.writeRW n i v).spll = s.spll := rfl
@[simp] theorem State.writeRW_pll (s : State) (n : RegName) (i : Nat) (v : Word) : (s.writeRW n i v).pll = s.pll := rfl
@[simp] theorem State.writeRW_afe (s : State) (n : RegName) (i : Nat) (v : Word) : (s.writeRW n i v).afe = s.afe := rfl
@[simp] theorem State.writeRW_lanes (s : State) (n : RegName) (i : Nat) (v : Word) : (s.writeRW n i v).lanes = s.lanes := rfl
@[simp] theorem State.writeRW_comps (s : State) (n : RegName) (i : Nat) (v : Word) : (s.writeRW n i v).comps = s.comps := rfl
@[simp] theorem State.writeRW_gens (s : State) (n : RegName) (i : Nat) (v : Word) : (s.writeRW n i v).gens = s.gens := rfl
@[simp] theorem State.writeRW_trigOut (s : State) (n : RegName) (i : Nat) (v : Word) : (s.writeRW n i v).trigOut = s.trigOut := rfl
@[simp] theorem State.writeRW_trigIn (s : State) (n : RegName) (i : Nat) (v : Word) : (s.writeRW n i v).trigIn = s.trigIn := rfl
@[simp] theorem State.writeRW_regions (s : State) (n : RegName) (i : Nat) (v : Word) : (s.writeRW n i v).regions = s.regions := rfl
@[simp] theorem State.writeRW_red (s : State) (n : RegName) (i : Nat) (v : Word) : (s.writeRW n i v).red = s.red := rfl
@[simp] theorem State.writeRW_sync (s : State) (n : RegName) (i : Nat) (v : Word) : (s.writeRW n i v).sync = s.sync := rfl
@[simp] theorem State.writeRW_planes (s : State) (n : RegName) (i : Nat) (v : Word) : (s.writeRW n i v).planes = s.planes := rfl
@[simp] theorem State.writeRW_maskFire (s : State) (n : RegName) (i : Nat) (v : Word) : (s.writeRW n i v).maskFire = s.maskFire := rfl
@[simp] theorem State.writeRW_xtrigCycle (s : State) (n : RegName) (i : Nat) (v : Word) : (s.writeRW n i v).xtrigCycle = s.xtrigCycle := rfl
@[simp] theorem State.writeRW_snaps (s : State) (n : RegName) (i : Nat) (v : Word) : (s.writeRW n i v).snaps = s.snaps := rfl
@[simp] theorem State.writeRW_tic (s : State) (n : RegName) (i : Nat) (v : Word) : (s.writeRW n i v).tic = s.tic := rfl
@[simp] theorem State.writeRW_pmu (s : State) (n : RegName) (i : Nat) (v : Word) : (s.writeRW n i v).pmu = s.pmu := rfl
@[simp] theorem State.writeRW_ras (s : State) (n : RegName) (i : Nat) (v : Word) : (s.writeRW n i v).ras = s.ras := rfl
@[simp] theorem State.writeRW_dma (s : State) (n : RegName) (i : Nat) (v : Word) : (s.writeRW n i v).dma = s.dma := rfl
@[simp] theorem State.writeRW_evt (s : State) (n : RegName) (i : Nat) (v : Word) : (s.writeRW n i v).evt = s.evt := rfl
@[simp] theorem State.writeRW_gln (s : State) (n : RegName) (i : Nat) (v : Word) : (s.writeRW n i v).gln = s.gln := rfl
@[simp] theorem State.writeRW_mgt (s : State) (n : RegName) (i : Nat) (v : Word) : (s.writeRW n i v).mgt = s.mgt := rfl
@[simp] theorem State.writeRW_pwr (s : State) (n : RegName) (i : Nat) (v : Word) : (s.writeRW n i v).pwr = s.pwr := rfl
@[simp] theorem State.writeRW_dia (s : State) (n : RegName) (i : Nat) (v : Word) : (s.writeRW n i v).dia = s.dia := rfl
@[simp] theorem State.writeRW_free (s : State) (n : RegName) (i : Nat) (v : Word) : (s.writeRW n i v).free = s.free := rfl
@[simp] theorem State.writeRW_out (s : State) (n : RegName) (i : Nat) (v : Word) : (s.writeRW n i v).out = s.out := rfl
@[simp] theorem State.writeRW_pending (s : State) (n : RegName) (i : Nat) (v : Word) : (s.writeRW n i v).pending = s.pending := rfl

/-! ### resetRegs -/

@[simp] theorem State.resetRegs_latch (s : State) (ns : List RegName) (p : Nat → Bool) : (s.resetRegs ns p).latch = s.latch := rfl
@[simp] theorem State.resetRegs_time (s : State) (ns : List RegName) (p : Nat → Bool) : (s.resetRegs ns p).time = s.time := rfl
@[simp] theorem State.resetRegs_frame (s : State) (ns : List RegName) (p : Nat → Bool) : (s.resetRegs ns p).frame = s.frame := rfl
@[simp] theorem State.resetRegs_mem (s : State) (ns : List RegName) (p : Nat → Bool) : (s.resetRegs ns p).mem = s.mem := rfl
@[simp] theorem State.resetRegs_masks (s : State) (ns : List RegName) (p : Nat → Bool) : (s.resetRegs ns p).masks = s.masks := rfl
@[simp] theorem State.resetRegs_bins (s : State) (ns : List RegName) (p : Nat → Bool) : (s.resetRegs ns p).bins = s.bins := rfl
@[simp] theorem State.resetRegs_dir (s : State) (ns : List RegName) (p : Nat → Bool) : (s.resetRegs ns p).dir = s.dir := rfl
@[simp] theorem State.resetRegs_dirSeq (s : State) (ns : List RegName) (p : Nat → Bool) : (s.resetRegs ns p).dirSeq = s.dirSeq := rfl
@[simp] theorem State.resetRegs_tick (s : State) (ns : List RegName) (p : Nat → Bool) : (s.resetRegs ns p).tick = s.tick := rfl
@[simp] theorem State.resetRegs_pitch (s : State) (ns : List RegName) (p : Nat → Bool) : (s.resetRegs ns p).pitch = s.pitch := rfl
@[simp] theorem State.resetRegs_clk (s : State) (ns : List RegName) (p : Nat → Bool) : (s.resetRegs ns p).clk = s.clk := rfl
@[simp] theorem State.resetRegs_tlk (s : State) (ns : List RegName) (p : Nat → Bool) : (s.resetRegs ns p).tlk = s.tlk := rfl
@[simp] theorem State.resetRegs_spll (s : State) (ns : List RegName) (p : Nat → Bool) : (s.resetRegs ns p).spll = s.spll := rfl
@[simp] theorem State.resetRegs_pll (s : State) (ns : List RegName) (p : Nat → Bool) : (s.resetRegs ns p).pll = s.pll := rfl
@[simp] theorem State.resetRegs_afe (s : State) (ns : List RegName) (p : Nat → Bool) : (s.resetRegs ns p).afe = s.afe := rfl
@[simp] theorem State.resetRegs_lanes (s : State) (ns : List RegName) (p : Nat → Bool) : (s.resetRegs ns p).lanes = s.lanes := rfl
@[simp] theorem State.resetRegs_comps (s : State) (ns : List RegName) (p : Nat → Bool) : (s.resetRegs ns p).comps = s.comps := rfl
@[simp] theorem State.resetRegs_gens (s : State) (ns : List RegName) (p : Nat → Bool) : (s.resetRegs ns p).gens = s.gens := rfl
@[simp] theorem State.resetRegs_trigOut (s : State) (ns : List RegName) (p : Nat → Bool) : (s.resetRegs ns p).trigOut = s.trigOut := rfl
@[simp] theorem State.resetRegs_trigIn (s : State) (ns : List RegName) (p : Nat → Bool) : (s.resetRegs ns p).trigIn = s.trigIn := rfl
@[simp] theorem State.resetRegs_regions (s : State) (ns : List RegName) (p : Nat → Bool) : (s.resetRegs ns p).regions = s.regions := rfl
@[simp] theorem State.resetRegs_red (s : State) (ns : List RegName) (p : Nat → Bool) : (s.resetRegs ns p).red = s.red := rfl
@[simp] theorem State.resetRegs_sync (s : State) (ns : List RegName) (p : Nat → Bool) : (s.resetRegs ns p).sync = s.sync := rfl
@[simp] theorem State.resetRegs_planes (s : State) (ns : List RegName) (p : Nat → Bool) : (s.resetRegs ns p).planes = s.planes := rfl
@[simp] theorem State.resetRegs_maskFire (s : State) (ns : List RegName) (p : Nat → Bool) : (s.resetRegs ns p).maskFire = s.maskFire := rfl
@[simp] theorem State.resetRegs_xtrigCycle (s : State) (ns : List RegName) (p : Nat → Bool) : (s.resetRegs ns p).xtrigCycle = s.xtrigCycle := rfl
@[simp] theorem State.resetRegs_snaps (s : State) (ns : List RegName) (p : Nat → Bool) : (s.resetRegs ns p).snaps = s.snaps := rfl
@[simp] theorem State.resetRegs_tic (s : State) (ns : List RegName) (p : Nat → Bool) : (s.resetRegs ns p).tic = s.tic := rfl
@[simp] theorem State.resetRegs_pmu (s : State) (ns : List RegName) (p : Nat → Bool) : (s.resetRegs ns p).pmu = s.pmu := rfl
@[simp] theorem State.resetRegs_ras (s : State) (ns : List RegName) (p : Nat → Bool) : (s.resetRegs ns p).ras = s.ras := rfl
@[simp] theorem State.resetRegs_dma (s : State) (ns : List RegName) (p : Nat → Bool) : (s.resetRegs ns p).dma = s.dma := rfl
@[simp] theorem State.resetRegs_evt (s : State) (ns : List RegName) (p : Nat → Bool) : (s.resetRegs ns p).evt = s.evt := rfl
@[simp] theorem State.resetRegs_gln (s : State) (ns : List RegName) (p : Nat → Bool) : (s.resetRegs ns p).gln = s.gln := rfl
@[simp] theorem State.resetRegs_mgt (s : State) (ns : List RegName) (p : Nat → Bool) : (s.resetRegs ns p).mgt = s.mgt := rfl
@[simp] theorem State.resetRegs_pwr (s : State) (ns : List RegName) (p : Nat → Bool) : (s.resetRegs ns p).pwr = s.pwr := rfl
@[simp] theorem State.resetRegs_dia (s : State) (ns : List RegName) (p : Nat → Bool) : (s.resetRegs ns p).dia = s.dia := rfl
@[simp] theorem State.resetRegs_free (s : State) (ns : List RegName) (p : Nat → Bool) : (s.resetRegs ns p).free = s.free := rfl
@[simp] theorem State.resetRegs_out (s : State) (ns : List RegName) (p : Nat → Bool) : (s.resetRegs ns p).out = s.out := rfl
@[simp] theorem State.resetRegs_pending (s : State) (ns : List RegName) (p : Nat → Bool) : (s.resetRegs ns p).pending = s.pending := rfl

/-! ### setStatus -/

@[simp] theorem State.setStatus_latch (s : State) (n : Nat) (b : Bool) : (s.setStatus n b).latch = s.latch := rfl
@[simp] theorem State.setStatus_time (s : State) (n : Nat) (b : Bool) : (s.setStatus n b).time = s.time := rfl
@[simp] theorem State.setStatus_frame (s : State) (n : Nat) (b : Bool) : (s.setStatus n b).frame = s.frame := rfl
@[simp] theorem State.setStatus_mem (s : State) (n : Nat) (b : Bool) : (s.setStatus n b).mem = s.mem := rfl
@[simp] theorem State.setStatus_masks (s : State) (n : Nat) (b : Bool) : (s.setStatus n b).masks = s.masks := rfl
@[simp] theorem State.setStatus_bins (s : State) (n : Nat) (b : Bool) : (s.setStatus n b).bins = s.bins := rfl
@[simp] theorem State.setStatus_dir (s : State) (n : Nat) (b : Bool) : (s.setStatus n b).dir = s.dir := rfl
@[simp] theorem State.setStatus_dirSeq (s : State) (n : Nat) (b : Bool) : (s.setStatus n b).dirSeq = s.dirSeq := rfl
@[simp] theorem State.setStatus_tick (s : State) (n : Nat) (b : Bool) : (s.setStatus n b).tick = s.tick := rfl
@[simp] theorem State.setStatus_pitch (s : State) (n : Nat) (b : Bool) : (s.setStatus n b).pitch = s.pitch := rfl
@[simp] theorem State.setStatus_clk (s : State) (n : Nat) (b : Bool) : (s.setStatus n b).clk = s.clk := rfl
@[simp] theorem State.setStatus_tlk (s : State) (n : Nat) (b : Bool) : (s.setStatus n b).tlk = s.tlk := rfl
@[simp] theorem State.setStatus_spll (s : State) (n : Nat) (b : Bool) : (s.setStatus n b).spll = s.spll := rfl
@[simp] theorem State.setStatus_pll (s : State) (n : Nat) (b : Bool) : (s.setStatus n b).pll = s.pll := rfl
@[simp] theorem State.setStatus_afe (s : State) (n : Nat) (b : Bool) : (s.setStatus n b).afe = s.afe := rfl
@[simp] theorem State.setStatus_lanes (s : State) (n : Nat) (b : Bool) : (s.setStatus n b).lanes = s.lanes := rfl
@[simp] theorem State.setStatus_comps (s : State) (n : Nat) (b : Bool) : (s.setStatus n b).comps = s.comps := rfl
@[simp] theorem State.setStatus_gens (s : State) (n : Nat) (b : Bool) : (s.setStatus n b).gens = s.gens := rfl
@[simp] theorem State.setStatus_trigOut (s : State) (n : Nat) (b : Bool) : (s.setStatus n b).trigOut = s.trigOut := rfl
@[simp] theorem State.setStatus_trigIn (s : State) (n : Nat) (b : Bool) : (s.setStatus n b).trigIn = s.trigIn := rfl
@[simp] theorem State.setStatus_regions (s : State) (n : Nat) (b : Bool) : (s.setStatus n b).regions = s.regions := rfl
@[simp] theorem State.setStatus_red (s : State) (n : Nat) (b : Bool) : (s.setStatus n b).red = s.red := rfl
@[simp] theorem State.setStatus_sync (s : State) (n : Nat) (b : Bool) : (s.setStatus n b).sync = s.sync := rfl
@[simp] theorem State.setStatus_planes (s : State) (n : Nat) (b : Bool) : (s.setStatus n b).planes = s.planes := rfl
@[simp] theorem State.setStatus_maskFire (s : State) (n : Nat) (b : Bool) : (s.setStatus n b).maskFire = s.maskFire := rfl
@[simp] theorem State.setStatus_xtrigCycle (s : State) (n : Nat) (b : Bool) : (s.setStatus n b).xtrigCycle = s.xtrigCycle := rfl
@[simp] theorem State.setStatus_snaps (s : State) (n : Nat) (b : Bool) : (s.setStatus n b).snaps = s.snaps := rfl
@[simp] theorem State.setStatus_tic (s : State) (n : Nat) (b : Bool) : (s.setStatus n b).tic = s.tic := rfl
@[simp] theorem State.setStatus_pmu (s : State) (n : Nat) (b : Bool) : (s.setStatus n b).pmu = s.pmu := rfl
@[simp] theorem State.setStatus_ras (s : State) (n : Nat) (b : Bool) : (s.setStatus n b).ras = s.ras := rfl
@[simp] theorem State.setStatus_dma (s : State) (n : Nat) (b : Bool) : (s.setStatus n b).dma = s.dma := rfl
@[simp] theorem State.setStatus_evt (s : State) (n : Nat) (b : Bool) : (s.setStatus n b).evt = s.evt := rfl
@[simp] theorem State.setStatus_gln (s : State) (n : Nat) (b : Bool) : (s.setStatus n b).gln = s.gln := rfl
@[simp] theorem State.setStatus_mgt (s : State) (n : Nat) (b : Bool) : (s.setStatus n b).mgt = s.mgt := rfl
@[simp] theorem State.setStatus_pwr (s : State) (n : Nat) (b : Bool) : (s.setStatus n b).pwr = s.pwr := rfl
@[simp] theorem State.setStatus_dia (s : State) (n : Nat) (b : Bool) : (s.setStatus n b).dia = s.dia := rfl
@[simp] theorem State.setStatus_free (s : State) (n : Nat) (b : Bool) : (s.setStatus n b).free = s.free := rfl
@[simp] theorem State.setStatus_out (s : State) (n : Nat) (b : Bool) : (s.setStatus n b).out = s.out := rfl
@[simp] theorem State.setStatus_pending (s : State) (n : Nat) (b : Bool) : (s.setStatus n b).pending = s.pending := rfl

/-! ### emit -/

@[simp] theorem State.emit_regs (s : State) (o : Out) : (s.emit o).regs = s.regs := rfl
@[simp] theorem State.emit_latch (s : State) (o : Out) : (s.emit o).latch = s.latch := rfl
@[simp] theorem State.emit_time (s : State) (o : Out) : (s.emit o).time = s.time := rfl
@[simp] theorem State.emit_frame (s : State) (o : Out) : (s.emit o).frame = s.frame := rfl
@[simp] theorem State.emit_mem (s : State) (o : Out) : (s.emit o).mem = s.mem := rfl
@[simp] theorem State.emit_masks (s : State) (o : Out) : (s.emit o).masks = s.masks := rfl
@[simp] theorem State.emit_bins (s : State) (o : Out) : (s.emit o).bins = s.bins := rfl
@[simp] theorem State.emit_dir (s : State) (o : Out) : (s.emit o).dir = s.dir := rfl
@[simp] theorem State.emit_dirSeq (s : State) (o : Out) : (s.emit o).dirSeq = s.dirSeq := rfl
@[simp] theorem State.emit_tick (s : State) (o : Out) : (s.emit o).tick = s.tick := rfl
@[simp] theorem State.emit_pitch (s : State) (o : Out) : (s.emit o).pitch = s.pitch := rfl
@[simp] theorem State.emit_clk (s : State) (o : Out) : (s.emit o).clk = s.clk := rfl
@[simp] theorem State.emit_tlk (s : State) (o : Out) : (s.emit o).tlk = s.tlk := rfl
@[simp] theorem State.emit_spll (s : State) (o : Out) : (s.emit o).spll = s.spll := rfl
@[simp] theorem State.emit_pll (s : State) (o : Out) : (s.emit o).pll = s.pll := rfl
@[simp] theorem State.emit_afe (s : State) (o : Out) : (s.emit o).afe = s.afe := rfl
@[simp] theorem State.emit_lanes (s : State) (o : Out) : (s.emit o).lanes = s.lanes := rfl
@[simp] theorem State.emit_comps (s : State) (o : Out) : (s.emit o).comps = s.comps := rfl
@[simp] theorem State.emit_gens (s : State) (o : Out) : (s.emit o).gens = s.gens := rfl
@[simp] theorem State.emit_trigOut (s : State) (o : Out) : (s.emit o).trigOut = s.trigOut := rfl
@[simp] theorem State.emit_trigIn (s : State) (o : Out) : (s.emit o).trigIn = s.trigIn := rfl
@[simp] theorem State.emit_regions (s : State) (o : Out) : (s.emit o).regions = s.regions := rfl
@[simp] theorem State.emit_red (s : State) (o : Out) : (s.emit o).red = s.red := rfl
@[simp] theorem State.emit_sync (s : State) (o : Out) : (s.emit o).sync = s.sync := rfl
@[simp] theorem State.emit_planes (s : State) (o : Out) : (s.emit o).planes = s.planes := rfl
@[simp] theorem State.emit_maskFire (s : State) (o : Out) : (s.emit o).maskFire = s.maskFire := rfl
@[simp] theorem State.emit_xtrigCycle (s : State) (o : Out) : (s.emit o).xtrigCycle = s.xtrigCycle := rfl
@[simp] theorem State.emit_snaps (s : State) (o : Out) : (s.emit o).snaps = s.snaps := rfl
@[simp] theorem State.emit_tic (s : State) (o : Out) : (s.emit o).tic = s.tic := rfl
@[simp] theorem State.emit_pmu (s : State) (o : Out) : (s.emit o).pmu = s.pmu := rfl
@[simp] theorem State.emit_ras (s : State) (o : Out) : (s.emit o).ras = s.ras := rfl
@[simp] theorem State.emit_dma (s : State) (o : Out) : (s.emit o).dma = s.dma := rfl
@[simp] theorem State.emit_evt (s : State) (o : Out) : (s.emit o).evt = s.evt := rfl
@[simp] theorem State.emit_gln (s : State) (o : Out) : (s.emit o).gln = s.gln := rfl
@[simp] theorem State.emit_mgt (s : State) (o : Out) : (s.emit o).mgt = s.mgt := rfl
@[simp] theorem State.emit_pwr (s : State) (o : Out) : (s.emit o).pwr = s.pwr := rfl
@[simp] theorem State.emit_dia (s : State) (o : Out) : (s.emit o).dia = s.dia := rfl
@[simp] theorem State.emit_free (s : State) (o : Out) : (s.emit o).free = s.free := rfl
@[simp] theorem State.emit_pending (s : State) (o : Out) : (s.emit o).pending = s.pending := rfl
@[simp] theorem State.emit_reg (s : State) (o : Out) (r : RegName) (j : Nat) : (s.emit o).reg r j = s.reg r j := rfl
@[simp] theorem State.emit_fld (s : State) (o : Out) (g : Fld) (j : Nat) : (s.emit o).fld g j = s.fld g j := rfl
@[simp] theorem State.emit_flag (s : State) (o : Out) (g : Fld) (j : Nat) : (s.emit o).flag g j = s.flag g j := rfl

/-! ### used -/

@[simp] theorem State.used_regs (s : State) : s.used.regs = s.regs := rfl
@[simp] theorem State.used_latch (s : State) : s.used.latch = s.latch := rfl
@[simp] theorem State.used_time (s : State) : s.used.time = s.time := rfl
@[simp] theorem State.used_frame (s : State) : s.used.frame = s.frame := rfl
@[simp] theorem State.used_mem (s : State) : s.used.mem = s.mem := rfl
@[simp] theorem State.used_masks (s : State) : s.used.masks = s.masks := rfl
@[simp] theorem State.used_bins (s : State) : s.used.bins = s.bins := rfl
@[simp] theorem State.used_dir (s : State) : s.used.dir = s.dir := rfl
@[simp] theorem State.used_dirSeq (s : State) : s.used.dirSeq = s.dirSeq := rfl
@[simp] theorem State.used_tick (s : State) : s.used.tick = s.tick := rfl
@[simp] theorem State.used_pitch (s : State) : s.used.pitch = s.pitch := rfl
@[simp] theorem State.used_clk (s : State) : s.used.clk = s.clk := rfl
@[simp] theorem State.used_tlk (s : State) : s.used.tlk = s.tlk := rfl
@[simp] theorem State.used_spll (s : State) : s.used.spll = s.spll := rfl
@[simp] theorem State.used_pll (s : State) : s.used.pll = s.pll := rfl
@[simp] theorem State.used_afe (s : State) : s.used.afe = s.afe := rfl
@[simp] theorem State.used_lanes (s : State) : s.used.lanes = s.lanes := rfl
@[simp] theorem State.used_comps (s : State) : s.used.comps = s.comps := rfl
@[simp] theorem State.used_gens (s : State) : s.used.gens = s.gens := rfl
@[simp] theorem State.used_trigOut (s : State) : s.used.trigOut = s.trigOut := rfl
@[simp] theorem State.used_trigIn (s : State) : s.used.trigIn = s.trigIn := rfl
@[simp] theorem State.used_regions (s : State) : s.used.regions = s.regions := rfl
@[simp] theorem State.used_red (s : State) : s.used.red = s.red := rfl
@[simp] theorem State.used_sync (s : State) : s.used.sync = s.sync := rfl
@[simp] theorem State.used_planes (s : State) : s.used.planes = s.planes := rfl
@[simp] theorem State.used_maskFire (s : State) : s.used.maskFire = s.maskFire := rfl
@[simp] theorem State.used_xtrigCycle (s : State) : s.used.xtrigCycle = s.xtrigCycle := rfl
@[simp] theorem State.used_snaps (s : State) : s.used.snaps = s.snaps := rfl
@[simp] theorem State.used_tic (s : State) : s.used.tic = s.tic := rfl
@[simp] theorem State.used_pmu (s : State) : s.used.pmu = s.pmu := rfl
@[simp] theorem State.used_ras (s : State) : s.used.ras = s.ras := rfl
@[simp] theorem State.used_dma (s : State) : s.used.dma = s.dma := rfl
@[simp] theorem State.used_evt (s : State) : s.used.evt = s.evt := rfl
@[simp] theorem State.used_gln (s : State) : s.used.gln = s.gln := rfl
@[simp] theorem State.used_mgt (s : State) : s.used.mgt = s.mgt := rfl
@[simp] theorem State.used_pwr (s : State) : s.used.pwr = s.pwr := rfl
@[simp] theorem State.used_dia (s : State) : s.used.dia = s.dia := rfl
@[simp] theorem State.used_out (s : State) : s.used.out = s.out := rfl
@[simp] theorem State.used_pending (s : State) : s.used.pending = s.pending := rfl
@[simp] theorem State.used_reg (s : State) (r : RegName) (j : Nat) : s.used.reg r j = s.reg r j := rfl
@[simp] theorem State.used_fld (s : State) (g : Fld) (j : Nat) : s.used.fld g j = s.fld g j := rfl
@[simp] theorem State.used_flag (s : State) (g : Fld) (j : Nat) : s.used.flag g j = s.flag g j := rfl

/-! ### modQueue -/

@[simp] theorem State.modQueue_regs (s : State) (q : Nat) (f : Queue → Queue) : (s.modQueue q f).regs = s.regs := rfl
@[simp] theorem State.modQueue_latch (s : State) (q : Nat) (f : Queue → Queue) : (s.modQueue q f).latch = s.latch := rfl
@[simp] theorem State.modQueue_time (s : State) (q : Nat) (f : Queue → Queue) : (s.modQueue q f).time = s.time := rfl
@[simp] theorem State.modQueue_frame (s : State) (q : Nat) (f : Queue → Queue) : (s.modQueue q f).frame = s.frame := rfl
@[simp] theorem State.modQueue_mem (s : State) (q : Nat) (f : Queue → Queue) : (s.modQueue q f).mem = s.mem := rfl
@[simp] theorem State.modQueue_masks (s : State) (q : Nat) (f : Queue → Queue) : (s.modQueue q f).masks = s.masks := rfl
@[simp] theorem State.modQueue_bins (s : State) (q : Nat) (f : Queue → Queue) : (s.modQueue q f).bins = s.bins := rfl
@[simp] theorem State.modQueue_dir (s : State) (q : Nat) (f : Queue → Queue) : (s.modQueue q f).dir = s.dir := rfl
@[simp] theorem State.modQueue_dirSeq (s : State) (q : Nat) (f : Queue → Queue) : (s.modQueue q f).dirSeq = s.dirSeq := rfl
@[simp] theorem State.modQueue_tick (s : State) (q : Nat) (f : Queue → Queue) : (s.modQueue q f).tick = s.tick := rfl
@[simp] theorem State.modQueue_pitch (s : State) (q : Nat) (f : Queue → Queue) : (s.modQueue q f).pitch = s.pitch := rfl
@[simp] theorem State.modQueue_clk (s : State) (q : Nat) (f : Queue → Queue) : (s.modQueue q f).clk = s.clk := rfl
@[simp] theorem State.modQueue_tlk (s : State) (q : Nat) (f : Queue → Queue) : (s.modQueue q f).tlk = s.tlk := rfl
@[simp] theorem State.modQueue_spll (s : State) (q : Nat) (f : Queue → Queue) : (s.modQueue q f).spll = s.spll := rfl
@[simp] theorem State.modQueue_pll (s : State) (q : Nat) (f : Queue → Queue) : (s.modQueue q f).pll = s.pll := rfl
@[simp] theorem State.modQueue_afe (s : State) (q : Nat) (f : Queue → Queue) : (s.modQueue q f).afe = s.afe := rfl
@[simp] theorem State.modQueue_lanes (s : State) (q : Nat) (f : Queue → Queue) : (s.modQueue q f).lanes = s.lanes := rfl
@[simp] theorem State.modQueue_comps (s : State) (q : Nat) (f : Queue → Queue) : (s.modQueue q f).comps = s.comps := rfl
@[simp] theorem State.modQueue_gens (s : State) (q : Nat) (f : Queue → Queue) : (s.modQueue q f).gens = s.gens := rfl
@[simp] theorem State.modQueue_trigOut (s : State) (q : Nat) (f : Queue → Queue) : (s.modQueue q f).trigOut = s.trigOut := rfl
@[simp] theorem State.modQueue_trigIn (s : State) (q : Nat) (f : Queue → Queue) : (s.modQueue q f).trigIn = s.trigIn := rfl
@[simp] theorem State.modQueue_regions (s : State) (q : Nat) (f : Queue → Queue) : (s.modQueue q f).regions = s.regions := rfl
@[simp] theorem State.modQueue_red (s : State) (q : Nat) (f : Queue → Queue) : (s.modQueue q f).red = s.red := rfl
@[simp] theorem State.modQueue_sync (s : State) (q : Nat) (f : Queue → Queue) : (s.modQueue q f).sync = s.sync := rfl
@[simp] theorem State.modQueue_planes (s : State) (q : Nat) (f : Queue → Queue) : (s.modQueue q f).planes = s.planes := rfl
@[simp] theorem State.modQueue_maskFire (s : State) (q : Nat) (f : Queue → Queue) : (s.modQueue q f).maskFire = s.maskFire := rfl
@[simp] theorem State.modQueue_xtrigCycle (s : State) (q : Nat) (f : Queue → Queue) : (s.modQueue q f).xtrigCycle = s.xtrigCycle := rfl
@[simp] theorem State.modQueue_snaps (s : State) (q : Nat) (f : Queue → Queue) : (s.modQueue q f).snaps = s.snaps := rfl
@[simp] theorem State.modQueue_tic (s : State) (q : Nat) (f : Queue → Queue) : (s.modQueue q f).tic = s.tic := rfl
@[simp] theorem State.modQueue_pmu (s : State) (q : Nat) (f : Queue → Queue) : (s.modQueue q f).pmu = s.pmu := rfl
@[simp] theorem State.modQueue_ras (s : State) (q : Nat) (f : Queue → Queue) : (s.modQueue q f).ras = s.ras := rfl
@[simp] theorem State.modQueue_evt (s : State) (q : Nat) (f : Queue → Queue) : (s.modQueue q f).evt = s.evt := rfl
@[simp] theorem State.modQueue_gln (s : State) (q : Nat) (f : Queue → Queue) : (s.modQueue q f).gln = s.gln := rfl
@[simp] theorem State.modQueue_mgt (s : State) (q : Nat) (f : Queue → Queue) : (s.modQueue q f).mgt = s.mgt := rfl
@[simp] theorem State.modQueue_pwr (s : State) (q : Nat) (f : Queue → Queue) : (s.modQueue q f).pwr = s.pwr := rfl
@[simp] theorem State.modQueue_dia (s : State) (q : Nat) (f : Queue → Queue) : (s.modQueue q f).dia = s.dia := rfl
@[simp] theorem State.modQueue_free (s : State) (q : Nat) (f : Queue → Queue) : (s.modQueue q f).free = s.free := rfl
@[simp] theorem State.modQueue_out (s : State) (q : Nat) (f : Queue → Queue) : (s.modQueue q f).out = s.out := rfl
@[simp] theorem State.modQueue_pending (s : State) (q : Nat) (f : Queue → Queue) : (s.modQueue q f).pending = s.pending := rfl
@[simp] theorem State.modQueue_reg (s : State) (q : Nat) (f : Queue → Queue) (r : RegName) (j : Nat) : (s.modQueue q f).reg r j = s.reg r j := rfl
@[simp] theorem State.modQueue_fld (s : State) (q : Nat) (f : Queue → Queue) (g : Fld) (j : Nat) : (s.modQueue q f).fld g j = s.fld g j := rfl
@[simp] theorem State.modQueue_flag (s : State) (q : Nat) (f : Queue → Queue) (g : Fld) (j : Nat) : (s.modQueue q f).flag g j = s.flag g j := rfl

/-! ### modLane -/

@[simp] theorem State.modLane_regs (s : State) (n : Nat) (f : Lane → Lane) : (s.modLane n f).regs = s.regs := rfl
@[simp] theorem State.modLane_latch (s : State) (n : Nat) (f : Lane → Lane) : (s.modLane n f).latch = s.latch := rfl
@[simp] theorem State.modLane_time (s : State) (n : Nat) (f : Lane → Lane) : (s.modLane n f).time = s.time := rfl
@[simp] theorem State.modLane_frame (s : State) (n : Nat) (f : Lane → Lane) : (s.modLane n f).frame = s.frame := rfl
@[simp] theorem State.modLane_mem (s : State) (n : Nat) (f : Lane → Lane) : (s.modLane n f).mem = s.mem := rfl
@[simp] theorem State.modLane_masks (s : State) (n : Nat) (f : Lane → Lane) : (s.modLane n f).masks = s.masks := rfl
@[simp] theorem State.modLane_bins (s : State) (n : Nat) (f : Lane → Lane) : (s.modLane n f).bins = s.bins := rfl
@[simp] theorem State.modLane_dir (s : State) (n : Nat) (f : Lane → Lane) : (s.modLane n f).dir = s.dir := rfl
@[simp] theorem State.modLane_dirSeq (s : State) (n : Nat) (f : Lane → Lane) : (s.modLane n f).dirSeq = s.dirSeq := rfl
@[simp] theorem State.modLane_tick (s : State) (n : Nat) (f : Lane → Lane) : (s.modLane n f).tick = s.tick := rfl
@[simp] theorem State.modLane_pitch (s : State) (n : Nat) (f : Lane → Lane) : (s.modLane n f).pitch = s.pitch := rfl
@[simp] theorem State.modLane_clk (s : State) (n : Nat) (f : Lane → Lane) : (s.modLane n f).clk = s.clk := rfl
@[simp] theorem State.modLane_tlk (s : State) (n : Nat) (f : Lane → Lane) : (s.modLane n f).tlk = s.tlk := rfl
@[simp] theorem State.modLane_spll (s : State) (n : Nat) (f : Lane → Lane) : (s.modLane n f).spll = s.spll := rfl
@[simp] theorem State.modLane_pll (s : State) (n : Nat) (f : Lane → Lane) : (s.modLane n f).pll = s.pll := rfl
@[simp] theorem State.modLane_afe (s : State) (n : Nat) (f : Lane → Lane) : (s.modLane n f).afe = s.afe := rfl
@[simp] theorem State.modLane_comps (s : State) (n : Nat) (f : Lane → Lane) : (s.modLane n f).comps = s.comps := rfl
@[simp] theorem State.modLane_gens (s : State) (n : Nat) (f : Lane → Lane) : (s.modLane n f).gens = s.gens := rfl
@[simp] theorem State.modLane_trigOut (s : State) (n : Nat) (f : Lane → Lane) : (s.modLane n f).trigOut = s.trigOut := rfl
@[simp] theorem State.modLane_trigIn (s : State) (n : Nat) (f : Lane → Lane) : (s.modLane n f).trigIn = s.trigIn := rfl
@[simp] theorem State.modLane_regions (s : State) (n : Nat) (f : Lane → Lane) : (s.modLane n f).regions = s.regions := rfl
@[simp] theorem State.modLane_red (s : State) (n : Nat) (f : Lane → Lane) : (s.modLane n f).red = s.red := rfl
@[simp] theorem State.modLane_sync (s : State) (n : Nat) (f : Lane → Lane) : (s.modLane n f).sync = s.sync := rfl
@[simp] theorem State.modLane_planes (s : State) (n : Nat) (f : Lane → Lane) : (s.modLane n f).planes = s.planes := rfl
@[simp] theorem State.modLane_maskFire (s : State) (n : Nat) (f : Lane → Lane) : (s.modLane n f).maskFire = s.maskFire := rfl
@[simp] theorem State.modLane_xtrigCycle (s : State) (n : Nat) (f : Lane → Lane) : (s.modLane n f).xtrigCycle = s.xtrigCycle := rfl
@[simp] theorem State.modLane_snaps (s : State) (n : Nat) (f : Lane → Lane) : (s.modLane n f).snaps = s.snaps := rfl
@[simp] theorem State.modLane_tic (s : State) (n : Nat) (f : Lane → Lane) : (s.modLane n f).tic = s.tic := rfl
@[simp] theorem State.modLane_pmu (s : State) (n : Nat) (f : Lane → Lane) : (s.modLane n f).pmu = s.pmu := rfl
@[simp] theorem State.modLane_ras (s : State) (n : Nat) (f : Lane → Lane) : (s.modLane n f).ras = s.ras := rfl
@[simp] theorem State.modLane_dma (s : State) (n : Nat) (f : Lane → Lane) : (s.modLane n f).dma = s.dma := rfl
@[simp] theorem State.modLane_evt (s : State) (n : Nat) (f : Lane → Lane) : (s.modLane n f).evt = s.evt := rfl
@[simp] theorem State.modLane_gln (s : State) (n : Nat) (f : Lane → Lane) : (s.modLane n f).gln = s.gln := rfl
@[simp] theorem State.modLane_mgt (s : State) (n : Nat) (f : Lane → Lane) : (s.modLane n f).mgt = s.mgt := rfl
@[simp] theorem State.modLane_pwr (s : State) (n : Nat) (f : Lane → Lane) : (s.modLane n f).pwr = s.pwr := rfl
@[simp] theorem State.modLane_dia (s : State) (n : Nat) (f : Lane → Lane) : (s.modLane n f).dia = s.dia := rfl
@[simp] theorem State.modLane_free (s : State) (n : Nat) (f : Lane → Lane) : (s.modLane n f).free = s.free := rfl
@[simp] theorem State.modLane_out (s : State) (n : Nat) (f : Lane → Lane) : (s.modLane n f).out = s.out := rfl
@[simp] theorem State.modLane_pending (s : State) (n : Nat) (f : Lane → Lane) : (s.modLane n f).pending = s.pending := rfl
@[simp] theorem State.modLane_reg (s : State) (n : Nat) (f : Lane → Lane) (r : RegName) (j : Nat) : (s.modLane n f).reg r j = s.reg r j := rfl
@[simp] theorem State.modLane_fld (s : State) (n : Nat) (f : Lane → Lane) (g : Fld) (j : Nat) : (s.modLane n f).fld g j = s.fld g j := rfl
@[simp] theorem State.modLane_flag (s : State) (n : Nat) (f : Lane → Lane) (g : Fld) (j : Nat) : (s.modLane n f).flag g j = s.flag g j := rfl

/-! ### modAfe -/

@[simp] theorem State.modAfe_regs (s : State) (n : Nat) (f : Afe → Afe) : (s.modAfe n f).regs = s.regs := rfl
@[simp] theorem State.modAfe_latch (s : State) (n : Nat) (f : Afe → Afe) : (s.modAfe n f).latch = s.latch := rfl
@[simp] theorem State.modAfe_time (s : State) (n : Nat) (f : Afe → Afe) : (s.modAfe n f).time = s.time := rfl
@[simp] theorem State.modAfe_frame (s : State) (n : Nat) (f : Afe → Afe) : (s.modAfe n f).frame = s.frame := rfl
@[simp] theorem State.modAfe_mem (s : State) (n : Nat) (f : Afe → Afe) : (s.modAfe n f).mem = s.mem := rfl
@[simp] theorem State.modAfe_masks (s : State) (n : Nat) (f : Afe → Afe) : (s.modAfe n f).masks = s.masks := rfl
@[simp] theorem State.modAfe_bins (s : State) (n : Nat) (f : Afe → Afe) : (s.modAfe n f).bins = s.bins := rfl
@[simp] theorem State.modAfe_dir (s : State) (n : Nat) (f : Afe → Afe) : (s.modAfe n f).dir = s.dir := rfl
@[simp] theorem State.modAfe_dirSeq (s : State) (n : Nat) (f : Afe → Afe) : (s.modAfe n f).dirSeq = s.dirSeq := rfl
@[simp] theorem State.modAfe_tick (s : State) (n : Nat) (f : Afe → Afe) : (s.modAfe n f).tick = s.tick := rfl
@[simp] theorem State.modAfe_pitch (s : State) (n : Nat) (f : Afe → Afe) : (s.modAfe n f).pitch = s.pitch := rfl
@[simp] theorem State.modAfe_clk (s : State) (n : Nat) (f : Afe → Afe) : (s.modAfe n f).clk = s.clk := rfl
@[simp] theorem State.modAfe_tlk (s : State) (n : Nat) (f : Afe → Afe) : (s.modAfe n f).tlk = s.tlk := rfl
@[simp] theorem State.modAfe_spll (s : State) (n : Nat) (f : Afe → Afe) : (s.modAfe n f).spll = s.spll := rfl
@[simp] theorem State.modAfe_pll (s : State) (n : Nat) (f : Afe → Afe) : (s.modAfe n f).pll = s.pll := rfl
@[simp] theorem State.modAfe_lanes (s : State) (n : Nat) (f : Afe → Afe) : (s.modAfe n f).lanes = s.lanes := rfl
@[simp] theorem State.modAfe_comps (s : State) (n : Nat) (f : Afe → Afe) : (s.modAfe n f).comps = s.comps := rfl
@[simp] theorem State.modAfe_gens (s : State) (n : Nat) (f : Afe → Afe) : (s.modAfe n f).gens = s.gens := rfl
@[simp] theorem State.modAfe_trigOut (s : State) (n : Nat) (f : Afe → Afe) : (s.modAfe n f).trigOut = s.trigOut := rfl
@[simp] theorem State.modAfe_trigIn (s : State) (n : Nat) (f : Afe → Afe) : (s.modAfe n f).trigIn = s.trigIn := rfl
@[simp] theorem State.modAfe_regions (s : State) (n : Nat) (f : Afe → Afe) : (s.modAfe n f).regions = s.regions := rfl
@[simp] theorem State.modAfe_red (s : State) (n : Nat) (f : Afe → Afe) : (s.modAfe n f).red = s.red := rfl
@[simp] theorem State.modAfe_sync (s : State) (n : Nat) (f : Afe → Afe) : (s.modAfe n f).sync = s.sync := rfl
@[simp] theorem State.modAfe_planes (s : State) (n : Nat) (f : Afe → Afe) : (s.modAfe n f).planes = s.planes := rfl
@[simp] theorem State.modAfe_maskFire (s : State) (n : Nat) (f : Afe → Afe) : (s.modAfe n f).maskFire = s.maskFire := rfl
@[simp] theorem State.modAfe_xtrigCycle (s : State) (n : Nat) (f : Afe → Afe) : (s.modAfe n f).xtrigCycle = s.xtrigCycle := rfl
@[simp] theorem State.modAfe_snaps (s : State) (n : Nat) (f : Afe → Afe) : (s.modAfe n f).snaps = s.snaps := rfl
@[simp] theorem State.modAfe_tic (s : State) (n : Nat) (f : Afe → Afe) : (s.modAfe n f).tic = s.tic := rfl
@[simp] theorem State.modAfe_pmu (s : State) (n : Nat) (f : Afe → Afe) : (s.modAfe n f).pmu = s.pmu := rfl
@[simp] theorem State.modAfe_ras (s : State) (n : Nat) (f : Afe → Afe) : (s.modAfe n f).ras = s.ras := rfl
@[simp] theorem State.modAfe_dma (s : State) (n : Nat) (f : Afe → Afe) : (s.modAfe n f).dma = s.dma := rfl
@[simp] theorem State.modAfe_evt (s : State) (n : Nat) (f : Afe → Afe) : (s.modAfe n f).evt = s.evt := rfl
@[simp] theorem State.modAfe_gln (s : State) (n : Nat) (f : Afe → Afe) : (s.modAfe n f).gln = s.gln := rfl
@[simp] theorem State.modAfe_mgt (s : State) (n : Nat) (f : Afe → Afe) : (s.modAfe n f).mgt = s.mgt := rfl
@[simp] theorem State.modAfe_pwr (s : State) (n : Nat) (f : Afe → Afe) : (s.modAfe n f).pwr = s.pwr := rfl
@[simp] theorem State.modAfe_dia (s : State) (n : Nat) (f : Afe → Afe) : (s.modAfe n f).dia = s.dia := rfl
@[simp] theorem State.modAfe_free (s : State) (n : Nat) (f : Afe → Afe) : (s.modAfe n f).free = s.free := rfl
@[simp] theorem State.modAfe_out (s : State) (n : Nat) (f : Afe → Afe) : (s.modAfe n f).out = s.out := rfl
@[simp] theorem State.modAfe_pending (s : State) (n : Nat) (f : Afe → Afe) : (s.modAfe n f).pending = s.pending := rfl
@[simp] theorem State.modAfe_reg (s : State) (n : Nat) (f : Afe → Afe) (r : RegName) (j : Nat) : (s.modAfe n f).reg r j = s.reg r j := rfl
@[simp] theorem State.modAfe_fld (s : State) (n : Nat) (f : Afe → Afe) (g : Fld) (j : Nat) : (s.modAfe n f).fld g j = s.fld g j := rfl
@[simp] theorem State.modAfe_flag (s : State) (n : Nat) (f : Afe → Afe) (g : Fld) (j : Nat) : (s.modAfe n f).flag g j = s.flag g j := rfl

/-! ### modSpll -/

@[simp] theorem State.modSpll_regs (s : State) (n : Nat) (f : Spll → Spll) : (s.modSpll n f).regs = s.regs := rfl
@[simp] theorem State.modSpll_latch (s : State) (n : Nat) (f : Spll → Spll) : (s.modSpll n f).latch = s.latch := rfl
@[simp] theorem State.modSpll_time (s : State) (n : Nat) (f : Spll → Spll) : (s.modSpll n f).time = s.time := rfl
@[simp] theorem State.modSpll_frame (s : State) (n : Nat) (f : Spll → Spll) : (s.modSpll n f).frame = s.frame := rfl
@[simp] theorem State.modSpll_mem (s : State) (n : Nat) (f : Spll → Spll) : (s.modSpll n f).mem = s.mem := rfl
@[simp] theorem State.modSpll_masks (s : State) (n : Nat) (f : Spll → Spll) : (s.modSpll n f).masks = s.masks := rfl
@[simp] theorem State.modSpll_bins (s : State) (n : Nat) (f : Spll → Spll) : (s.modSpll n f).bins = s.bins := rfl
@[simp] theorem State.modSpll_dir (s : State) (n : Nat) (f : Spll → Spll) : (s.modSpll n f).dir = s.dir := rfl
@[simp] theorem State.modSpll_dirSeq (s : State) (n : Nat) (f : Spll → Spll) : (s.modSpll n f).dirSeq = s.dirSeq := rfl
@[simp] theorem State.modSpll_tick (s : State) (n : Nat) (f : Spll → Spll) : (s.modSpll n f).tick = s.tick := rfl
@[simp] theorem State.modSpll_pitch (s : State) (n : Nat) (f : Spll → Spll) : (s.modSpll n f).pitch = s.pitch := rfl
@[simp] theorem State.modSpll_clk (s : State) (n : Nat) (f : Spll → Spll) : (s.modSpll n f).clk = s.clk := rfl
@[simp] theorem State.modSpll_tlk (s : State) (n : Nat) (f : Spll → Spll) : (s.modSpll n f).tlk = s.tlk := rfl
@[simp] theorem State.modSpll_pll (s : State) (n : Nat) (f : Spll → Spll) : (s.modSpll n f).pll = s.pll := rfl
@[simp] theorem State.modSpll_afe (s : State) (n : Nat) (f : Spll → Spll) : (s.modSpll n f).afe = s.afe := rfl
@[simp] theorem State.modSpll_lanes (s : State) (n : Nat) (f : Spll → Spll) : (s.modSpll n f).lanes = s.lanes := rfl
@[simp] theorem State.modSpll_comps (s : State) (n : Nat) (f : Spll → Spll) : (s.modSpll n f).comps = s.comps := rfl
@[simp] theorem State.modSpll_gens (s : State) (n : Nat) (f : Spll → Spll) : (s.modSpll n f).gens = s.gens := rfl
@[simp] theorem State.modSpll_trigOut (s : State) (n : Nat) (f : Spll → Spll) : (s.modSpll n f).trigOut = s.trigOut := rfl
@[simp] theorem State.modSpll_trigIn (s : State) (n : Nat) (f : Spll → Spll) : (s.modSpll n f).trigIn = s.trigIn := rfl
@[simp] theorem State.modSpll_regions (s : State) (n : Nat) (f : Spll → Spll) : (s.modSpll n f).regions = s.regions := rfl
@[simp] theorem State.modSpll_red (s : State) (n : Nat) (f : Spll → Spll) : (s.modSpll n f).red = s.red := rfl
@[simp] theorem State.modSpll_sync (s : State) (n : Nat) (f : Spll → Spll) : (s.modSpll n f).sync = s.sync := rfl
@[simp] theorem State.modSpll_planes (s : State) (n : Nat) (f : Spll → Spll) : (s.modSpll n f).planes = s.planes := rfl
@[simp] theorem State.modSpll_maskFire (s : State) (n : Nat) (f : Spll → Spll) : (s.modSpll n f).maskFire = s.maskFire := rfl
@[simp] theorem State.modSpll_xtrigCycle (s : State) (n : Nat) (f : Spll → Spll) : (s.modSpll n f).xtrigCycle = s.xtrigCycle := rfl
@[simp] theorem State.modSpll_snaps (s : State) (n : Nat) (f : Spll → Spll) : (s.modSpll n f).snaps = s.snaps := rfl
@[simp] theorem State.modSpll_tic (s : State) (n : Nat) (f : Spll → Spll) : (s.modSpll n f).tic = s.tic := rfl
@[simp] theorem State.modSpll_pmu (s : State) (n : Nat) (f : Spll → Spll) : (s.modSpll n f).pmu = s.pmu := rfl
@[simp] theorem State.modSpll_ras (s : State) (n : Nat) (f : Spll → Spll) : (s.modSpll n f).ras = s.ras := rfl
@[simp] theorem State.modSpll_dma (s : State) (n : Nat) (f : Spll → Spll) : (s.modSpll n f).dma = s.dma := rfl
@[simp] theorem State.modSpll_evt (s : State) (n : Nat) (f : Spll → Spll) : (s.modSpll n f).evt = s.evt := rfl
@[simp] theorem State.modSpll_gln (s : State) (n : Nat) (f : Spll → Spll) : (s.modSpll n f).gln = s.gln := rfl
@[simp] theorem State.modSpll_mgt (s : State) (n : Nat) (f : Spll → Spll) : (s.modSpll n f).mgt = s.mgt := rfl
@[simp] theorem State.modSpll_pwr (s : State) (n : Nat) (f : Spll → Spll) : (s.modSpll n f).pwr = s.pwr := rfl
@[simp] theorem State.modSpll_dia (s : State) (n : Nat) (f : Spll → Spll) : (s.modSpll n f).dia = s.dia := rfl
@[simp] theorem State.modSpll_free (s : State) (n : Nat) (f : Spll → Spll) : (s.modSpll n f).free = s.free := rfl
@[simp] theorem State.modSpll_out (s : State) (n : Nat) (f : Spll → Spll) : (s.modSpll n f).out = s.out := rfl
@[simp] theorem State.modSpll_pending (s : State) (n : Nat) (f : Spll → Spll) : (s.modSpll n f).pending = s.pending := rfl
@[simp] theorem State.modSpll_reg (s : State) (n : Nat) (f : Spll → Spll) (r : RegName) (j : Nat) : (s.modSpll n f).reg r j = s.reg r j := rfl
@[simp] theorem State.modSpll_fld (s : State) (n : Nat) (f : Spll → Spll) (g : Fld) (j : Nat) : (s.modSpll n f).fld g j = s.fld g j := rfl
@[simp] theorem State.modSpll_flag (s : State) (n : Nat) (f : Spll → Spll) (g : Fld) (j : Nat) : (s.modSpll n f).flag g j = s.flag g j := rfl

/-! ### modGen -/

@[simp] theorem State.modGen_regs (s : State) (n : Nat) (f : Gen → Gen) : (s.modGen n f).regs = s.regs := rfl
@[simp] theorem State.modGen_latch (s : State) (n : Nat) (f : Gen → Gen) : (s.modGen n f).latch = s.latch := rfl
@[simp] theorem State.modGen_time (s : State) (n : Nat) (f : Gen → Gen) : (s.modGen n f).time = s.time := rfl
@[simp] theorem State.modGen_frame (s : State) (n : Nat) (f : Gen → Gen) : (s.modGen n f).frame = s.frame := rfl
@[simp] theorem State.modGen_mem (s : State) (n : Nat) (f : Gen → Gen) : (s.modGen n f).mem = s.mem := rfl
@[simp] theorem State.modGen_masks (s : State) (n : Nat) (f : Gen → Gen) : (s.modGen n f).masks = s.masks := rfl
@[simp] theorem State.modGen_bins (s : State) (n : Nat) (f : Gen → Gen) : (s.modGen n f).bins = s.bins := rfl
@[simp] theorem State.modGen_dir (s : State) (n : Nat) (f : Gen → Gen) : (s.modGen n f).dir = s.dir := rfl
@[simp] theorem State.modGen_dirSeq (s : State) (n : Nat) (f : Gen → Gen) : (s.modGen n f).dirSeq = s.dirSeq := rfl
@[simp] theorem State.modGen_tick (s : State) (n : Nat) (f : Gen → Gen) : (s.modGen n f).tick = s.tick := rfl
@[simp] theorem State.modGen_pitch (s : State) (n : Nat) (f : Gen → Gen) : (s.modGen n f).pitch = s.pitch := rfl
@[simp] theorem State.modGen_clk (s : State) (n : Nat) (f : Gen → Gen) : (s.modGen n f).clk = s.clk := rfl
@[simp] theorem State.modGen_tlk (s : State) (n : Nat) (f : Gen → Gen) : (s.modGen n f).tlk = s.tlk := rfl
@[simp] theorem State.modGen_spll (s : State) (n : Nat) (f : Gen → Gen) : (s.modGen n f).spll = s.spll := rfl
@[simp] theorem State.modGen_pll (s : State) (n : Nat) (f : Gen → Gen) : (s.modGen n f).pll = s.pll := rfl
@[simp] theorem State.modGen_afe (s : State) (n : Nat) (f : Gen → Gen) : (s.modGen n f).afe = s.afe := rfl
@[simp] theorem State.modGen_lanes (s : State) (n : Nat) (f : Gen → Gen) : (s.modGen n f).lanes = s.lanes := rfl
@[simp] theorem State.modGen_comps (s : State) (n : Nat) (f : Gen → Gen) : (s.modGen n f).comps = s.comps := rfl
@[simp] theorem State.modGen_trigOut (s : State) (n : Nat) (f : Gen → Gen) : (s.modGen n f).trigOut = s.trigOut := rfl
@[simp] theorem State.modGen_trigIn (s : State) (n : Nat) (f : Gen → Gen) : (s.modGen n f).trigIn = s.trigIn := rfl
@[simp] theorem State.modGen_regions (s : State) (n : Nat) (f : Gen → Gen) : (s.modGen n f).regions = s.regions := rfl
@[simp] theorem State.modGen_red (s : State) (n : Nat) (f : Gen → Gen) : (s.modGen n f).red = s.red := rfl
@[simp] theorem State.modGen_sync (s : State) (n : Nat) (f : Gen → Gen) : (s.modGen n f).sync = s.sync := rfl
@[simp] theorem State.modGen_planes (s : State) (n : Nat) (f : Gen → Gen) : (s.modGen n f).planes = s.planes := rfl
@[simp] theorem State.modGen_maskFire (s : State) (n : Nat) (f : Gen → Gen) : (s.modGen n f).maskFire = s.maskFire := rfl
@[simp] theorem State.modGen_xtrigCycle (s : State) (n : Nat) (f : Gen → Gen) : (s.modGen n f).xtrigCycle = s.xtrigCycle := rfl
@[simp] theorem State.modGen_snaps (s : State) (n : Nat) (f : Gen → Gen) : (s.modGen n f).snaps = s.snaps := rfl
@[simp] theorem State.modGen_tic (s : State) (n : Nat) (f : Gen → Gen) : (s.modGen n f).tic = s.tic := rfl
@[simp] theorem State.modGen_pmu (s : State) (n : Nat) (f : Gen → Gen) : (s.modGen n f).pmu = s.pmu := rfl
@[simp] theorem State.modGen_ras (s : State) (n : Nat) (f : Gen → Gen) : (s.modGen n f).ras = s.ras := rfl
@[simp] theorem State.modGen_dma (s : State) (n : Nat) (f : Gen → Gen) : (s.modGen n f).dma = s.dma := rfl
@[simp] theorem State.modGen_evt (s : State) (n : Nat) (f : Gen → Gen) : (s.modGen n f).evt = s.evt := rfl
@[simp] theorem State.modGen_gln (s : State) (n : Nat) (f : Gen → Gen) : (s.modGen n f).gln = s.gln := rfl
@[simp] theorem State.modGen_mgt (s : State) (n : Nat) (f : Gen → Gen) : (s.modGen n f).mgt = s.mgt := rfl
@[simp] theorem State.modGen_pwr (s : State) (n : Nat) (f : Gen → Gen) : (s.modGen n f).pwr = s.pwr := rfl
@[simp] theorem State.modGen_dia (s : State) (n : Nat) (f : Gen → Gen) : (s.modGen n f).dia = s.dia := rfl
@[simp] theorem State.modGen_free (s : State) (n : Nat) (f : Gen → Gen) : (s.modGen n f).free = s.free := rfl
@[simp] theorem State.modGen_out (s : State) (n : Nat) (f : Gen → Gen) : (s.modGen n f).out = s.out := rfl
@[simp] theorem State.modGen_pending (s : State) (n : Nat) (f : Gen → Gen) : (s.modGen n f).pending = s.pending := rfl
@[simp] theorem State.modGen_reg (s : State) (n : Nat) (f : Gen → Gen) (r : RegName) (j : Nat) : (s.modGen n f).reg r j = s.reg r j := rfl
@[simp] theorem State.modGen_fld (s : State) (n : Nat) (f : Gen → Gen) (g : Fld) (j : Nat) : (s.modGen n f).fld g j = s.fld g j := rfl
@[simp] theorem State.modGen_flag (s : State) (n : Nat) (f : Gen → Gen) (g : Fld) (j : Nat) : (s.modGen n f).flag g j = s.flag g j := rfl

/-! ### modRegion -/

@[simp] theorem State.modRegion_regs (s : State) (n : Nat) (f : Region → Region) : (s.modRegion n f).regs = s.regs := rfl
@[simp] theorem State.modRegion_latch (s : State) (n : Nat) (f : Region → Region) : (s.modRegion n f).latch = s.latch := rfl
@[simp] theorem State.modRegion_time (s : State) (n : Nat) (f : Region → Region) : (s.modRegion n f).time = s.time := rfl
@[simp] theorem State.modRegion_frame (s : State) (n : Nat) (f : Region → Region) : (s.modRegion n f).frame = s.frame := rfl
@[simp] theorem State.modRegion_mem (s : State) (n : Nat) (f : Region → Region) : (s.modRegion n f).mem = s.mem := rfl
@[simp] theorem State.modRegion_masks (s : State) (n : Nat) (f : Region → Region) : (s.modRegion n f).masks = s.masks := rfl
@[simp] theorem State.modRegion_bins (s : State) (n : Nat) (f : Region → Region) : (s.modRegion n f).bins = s.bins := rfl
@[simp] theorem State.modRegion_dir (s : State) (n : Nat) (f : Region → Region) : (s.modRegion n f).dir = s.dir := rfl
@[simp] theorem State.modRegion_dirSeq (s : State) (n : Nat) (f : Region → Region) : (s.modRegion n f).dirSeq = s.dirSeq := rfl
@[simp] theorem State.modRegion_tick (s : State) (n : Nat) (f : Region → Region) : (s.modRegion n f).tick = s.tick := rfl
@[simp] theorem State.modRegion_pitch (s : State) (n : Nat) (f : Region → Region) : (s.modRegion n f).pitch = s.pitch := rfl
@[simp] theorem State.modRegion_clk (s : State) (n : Nat) (f : Region → Region) : (s.modRegion n f).clk = s.clk := rfl
@[simp] theorem State.modRegion_tlk (s : State) (n : Nat) (f : Region → Region) : (s.modRegion n f).tlk = s.tlk := rfl
@[simp] theorem State.modRegion_spll (s : State) (n : Nat) (f : Region → Region) : (s.modRegion n f).spll = s.spll := rfl
@[simp] theorem State.modRegion_pll (s : State) (n : Nat) (f : Region → Region) : (s.modRegion n f).pll = s.pll := rfl
@[simp] theorem State.modRegion_afe (s : State) (n : Nat) (f : Region → Region) : (s.modRegion n f).afe = s.afe := rfl
@[simp] theorem State.modRegion_lanes (s : State) (n : Nat) (f : Region → Region) : (s.modRegion n f).lanes = s.lanes := rfl
@[simp] theorem State.modRegion_comps (s : State) (n : Nat) (f : Region → Region) : (s.modRegion n f).comps = s.comps := rfl
@[simp] theorem State.modRegion_gens (s : State) (n : Nat) (f : Region → Region) : (s.modRegion n f).gens = s.gens := rfl
@[simp] theorem State.modRegion_trigOut (s : State) (n : Nat) (f : Region → Region) : (s.modRegion n f).trigOut = s.trigOut := rfl
@[simp] theorem State.modRegion_trigIn (s : State) (n : Nat) (f : Region → Region) : (s.modRegion n f).trigIn = s.trigIn := rfl
@[simp] theorem State.modRegion_red (s : State) (n : Nat) (f : Region → Region) : (s.modRegion n f).red = s.red := rfl
@[simp] theorem State.modRegion_sync (s : State) (n : Nat) (f : Region → Region) : (s.modRegion n f).sync = s.sync := rfl
@[simp] theorem State.modRegion_planes (s : State) (n : Nat) (f : Region → Region) : (s.modRegion n f).planes = s.planes := rfl
@[simp] theorem State.modRegion_maskFire (s : State) (n : Nat) (f : Region → Region) : (s.modRegion n f).maskFire = s.maskFire := rfl
@[simp] theorem State.modRegion_xtrigCycle (s : State) (n : Nat) (f : Region → Region) : (s.modRegion n f).xtrigCycle = s.xtrigCycle := rfl
@[simp] theorem State.modRegion_snaps (s : State) (n : Nat) (f : Region → Region) : (s.modRegion n f).snaps = s.snaps := rfl
@[simp] theorem State.modRegion_tic (s : State) (n : Nat) (f : Region → Region) : (s.modRegion n f).tic = s.tic := rfl
@[simp] theorem State.modRegion_pmu (s : State) (n : Nat) (f : Region → Region) : (s.modRegion n f).pmu = s.pmu := rfl
@[simp] theorem State.modRegion_ras (s : State) (n : Nat) (f : Region → Region) : (s.modRegion n f).ras = s.ras := rfl
@[simp] theorem State.modRegion_dma (s : State) (n : Nat) (f : Region → Region) : (s.modRegion n f).dma = s.dma := rfl
@[simp] theorem State.modRegion_evt (s : State) (n : Nat) (f : Region → Region) : (s.modRegion n f).evt = s.evt := rfl
@[simp] theorem State.modRegion_gln (s : State) (n : Nat) (f : Region → Region) : (s.modRegion n f).gln = s.gln := rfl
@[simp] theorem State.modRegion_mgt (s : State) (n : Nat) (f : Region → Region) : (s.modRegion n f).mgt = s.mgt := rfl
@[simp] theorem State.modRegion_pwr (s : State) (n : Nat) (f : Region → Region) : (s.modRegion n f).pwr = s.pwr := rfl
@[simp] theorem State.modRegion_dia (s : State) (n : Nat) (f : Region → Region) : (s.modRegion n f).dia = s.dia := rfl
@[simp] theorem State.modRegion_free (s : State) (n : Nat) (f : Region → Region) : (s.modRegion n f).free = s.free := rfl
@[simp] theorem State.modRegion_out (s : State) (n : Nat) (f : Region → Region) : (s.modRegion n f).out = s.out := rfl
@[simp] theorem State.modRegion_pending (s : State) (n : Nat) (f : Region → Region) : (s.modRegion n f).pending = s.pending := rfl
@[simp] theorem State.modRegion_reg (s : State) (n : Nat) (f : Region → Region) (r : RegName) (j : Nat) : (s.modRegion n f).reg r j = s.reg r j := rfl
@[simp] theorem State.modRegion_fld (s : State) (n : Nat) (f : Region → Region) (g : Fld) (j : Nat) : (s.modRegion n f).fld g j = s.fld g j := rfl
@[simp] theorem State.modRegion_flag (s : State) (n : Nat) (f : Region → Region) (g : Fld) (j : Nat) : (s.modRegion n f).flag g j = s.flag g j := rfl

/-! ### modRed -/

@[simp] theorem State.modRed_regs (s : State) (n : Nat) (f : Red → Red) : (s.modRed n f).regs = s.regs := rfl
@[simp] theorem State.modRed_latch (s : State) (n : Nat) (f : Red → Red) : (s.modRed n f).latch = s.latch := rfl
@[simp] theorem State.modRed_time (s : State) (n : Nat) (f : Red → Red) : (s.modRed n f).time = s.time := rfl
@[simp] theorem State.modRed_frame (s : State) (n : Nat) (f : Red → Red) : (s.modRed n f).frame = s.frame := rfl
@[simp] theorem State.modRed_mem (s : State) (n : Nat) (f : Red → Red) : (s.modRed n f).mem = s.mem := rfl
@[simp] theorem State.modRed_masks (s : State) (n : Nat) (f : Red → Red) : (s.modRed n f).masks = s.masks := rfl
@[simp] theorem State.modRed_bins (s : State) (n : Nat) (f : Red → Red) : (s.modRed n f).bins = s.bins := rfl
@[simp] theorem State.modRed_dir (s : State) (n : Nat) (f : Red → Red) : (s.modRed n f).dir = s.dir := rfl
@[simp] theorem State.modRed_dirSeq (s : State) (n : Nat) (f : Red → Red) : (s.modRed n f).dirSeq = s.dirSeq := rfl
@[simp] theorem State.modRed_tick (s : State) (n : Nat) (f : Red → Red) : (s.modRed n f).tick = s.tick := rfl
@[simp] theorem State.modRed_pitch (s : State) (n : Nat) (f : Red → Red) : (s.modRed n f).pitch = s.pitch := rfl
@[simp] theorem State.modRed_clk (s : State) (n : Nat) (f : Red → Red) : (s.modRed n f).clk = s.clk := rfl
@[simp] theorem State.modRed_tlk (s : State) (n : Nat) (f : Red → Red) : (s.modRed n f).tlk = s.tlk := rfl
@[simp] theorem State.modRed_spll (s : State) (n : Nat) (f : Red → Red) : (s.modRed n f).spll = s.spll := rfl
@[simp] theorem State.modRed_pll (s : State) (n : Nat) (f : Red → Red) : (s.modRed n f).pll = s.pll := rfl
@[simp] theorem State.modRed_afe (s : State) (n : Nat) (f : Red → Red) : (s.modRed n f).afe = s.afe := rfl
@[simp] theorem State.modRed_lanes (s : State) (n : Nat) (f : Red → Red) : (s.modRed n f).lanes = s.lanes := rfl
@[simp] theorem State.modRed_comps (s : State) (n : Nat) (f : Red → Red) : (s.modRed n f).comps = s.comps := rfl
@[simp] theorem State.modRed_gens (s : State) (n : Nat) (f : Red → Red) : (s.modRed n f).gens = s.gens := rfl
@[simp] theorem State.modRed_trigOut (s : State) (n : Nat) (f : Red → Red) : (s.modRed n f).trigOut = s.trigOut := rfl
@[simp] theorem State.modRed_trigIn (s : State) (n : Nat) (f : Red → Red) : (s.modRed n f).trigIn = s.trigIn := rfl
@[simp] theorem State.modRed_regions (s : State) (n : Nat) (f : Red → Red) : (s.modRed n f).regions = s.regions := rfl
@[simp] theorem State.modRed_sync (s : State) (n : Nat) (f : Red → Red) : (s.modRed n f).sync = s.sync := rfl
@[simp] theorem State.modRed_planes (s : State) (n : Nat) (f : Red → Red) : (s.modRed n f).planes = s.planes := rfl
@[simp] theorem State.modRed_maskFire (s : State) (n : Nat) (f : Red → Red) : (s.modRed n f).maskFire = s.maskFire := rfl
@[simp] theorem State.modRed_xtrigCycle (s : State) (n : Nat) (f : Red → Red) : (s.modRed n f).xtrigCycle = s.xtrigCycle := rfl
@[simp] theorem State.modRed_snaps (s : State) (n : Nat) (f : Red → Red) : (s.modRed n f).snaps = s.snaps := rfl
@[simp] theorem State.modRed_tic (s : State) (n : Nat) (f : Red → Red) : (s.modRed n f).tic = s.tic := rfl
@[simp] theorem State.modRed_pmu (s : State) (n : Nat) (f : Red → Red) : (s.modRed n f).pmu = s.pmu := rfl
@[simp] theorem State.modRed_ras (s : State) (n : Nat) (f : Red → Red) : (s.modRed n f).ras = s.ras := rfl
@[simp] theorem State.modRed_dma (s : State) (n : Nat) (f : Red → Red) : (s.modRed n f).dma = s.dma := rfl
@[simp] theorem State.modRed_evt (s : State) (n : Nat) (f : Red → Red) : (s.modRed n f).evt = s.evt := rfl
@[simp] theorem State.modRed_gln (s : State) (n : Nat) (f : Red → Red) : (s.modRed n f).gln = s.gln := rfl
@[simp] theorem State.modRed_mgt (s : State) (n : Nat) (f : Red → Red) : (s.modRed n f).mgt = s.mgt := rfl
@[simp] theorem State.modRed_pwr (s : State) (n : Nat) (f : Red → Red) : (s.modRed n f).pwr = s.pwr := rfl
@[simp] theorem State.modRed_dia (s : State) (n : Nat) (f : Red → Red) : (s.modRed n f).dia = s.dia := rfl
@[simp] theorem State.modRed_free (s : State) (n : Nat) (f : Red → Red) : (s.modRed n f).free = s.free := rfl
@[simp] theorem State.modRed_out (s : State) (n : Nat) (f : Red → Red) : (s.modRed n f).out = s.out := rfl
@[simp] theorem State.modRed_pending (s : State) (n : Nat) (f : Red → Red) : (s.modRed n f).pending = s.pending := rfl
@[simp] theorem State.modRed_reg (s : State) (n : Nat) (f : Red → Red) (r : RegName) (j : Nat) : (s.modRed n f).reg r j = s.reg r j := rfl
@[simp] theorem State.modRed_fld (s : State) (n : Nat) (f : Red → Red) (g : Fld) (j : Nat) : (s.modRed n f).fld g j = s.fld g j := rfl
@[simp] theorem State.modRed_flag (s : State) (n : Nat) (f : Red → Red) (g : Fld) (j : Nat) : (s.modRed n f).flag g j = s.flag g j := rfl

/-! ### modTic -/

@[simp] theorem State.modTic_regs (s : State) (n : Nat) (f : Tic → Tic) : (s.modTic n f).regs = s.regs := rfl
@[simp] theorem State.modTic_latch (s : State) (n : Nat) (f : Tic → Tic) : (s.modTic n f).latch = s.latch := rfl
@[simp] theorem State.modTic_time (s : State) (n : Nat) (f : Tic → Tic) : (s.modTic n f).time = s.time := rfl
@[simp] theorem State.modTic_frame (s : State) (n : Nat) (f : Tic → Tic) : (s.modTic n f).frame = s.frame := rfl
@[simp] theorem State.modTic_mem (s : State) (n : Nat) (f : Tic → Tic) : (s.modTic n f).mem = s.mem := rfl
@[simp] theorem State.modTic_masks (s : State) (n : Nat) (f : Tic → Tic) : (s.modTic n f).masks = s.masks := rfl
@[simp] theorem State.modTic_bins (s : State) (n : Nat) (f : Tic → Tic) : (s.modTic n f).bins = s.bins := rfl
@[simp] theorem State.modTic_dir (s : State) (n : Nat) (f : Tic → Tic) : (s.modTic n f).dir = s.dir := rfl
@[simp] theorem State.modTic_dirSeq (s : State) (n : Nat) (f : Tic → Tic) : (s.modTic n f).dirSeq = s.dirSeq := rfl
@[simp] theorem State.modTic_tick (s : State) (n : Nat) (f : Tic → Tic) : (s.modTic n f).tick = s.tick := rfl
@[simp] theorem State.modTic_pitch (s : State) (n : Nat) (f : Tic → Tic) : (s.modTic n f).pitch = s.pitch := rfl
@[simp] theorem State.modTic_clk (s : State) (n : Nat) (f : Tic → Tic) : (s.modTic n f).clk = s.clk := rfl
@[simp] theorem State.modTic_tlk (s : State) (n : Nat) (f : Tic → Tic) : (s.modTic n f).tlk = s.tlk := rfl
@[simp] theorem State.modTic_spll (s : State) (n : Nat) (f : Tic → Tic) : (s.modTic n f).spll = s.spll := rfl
@[simp] theorem State.modTic_pll (s : State) (n : Nat) (f : Tic → Tic) : (s.modTic n f).pll = s.pll := rfl
@[simp] theorem State.modTic_afe (s : State) (n : Nat) (f : Tic → Tic) : (s.modTic n f).afe = s.afe := rfl
@[simp] theorem State.modTic_lanes (s : State) (n : Nat) (f : Tic → Tic) : (s.modTic n f).lanes = s.lanes := rfl
@[simp] theorem State.modTic_comps (s : State) (n : Nat) (f : Tic → Tic) : (s.modTic n f).comps = s.comps := rfl
@[simp] theorem State.modTic_gens (s : State) (n : Nat) (f : Tic → Tic) : (s.modTic n f).gens = s.gens := rfl
@[simp] theorem State.modTic_trigOut (s : State) (n : Nat) (f : Tic → Tic) : (s.modTic n f).trigOut = s.trigOut := rfl
@[simp] theorem State.modTic_trigIn (s : State) (n : Nat) (f : Tic → Tic) : (s.modTic n f).trigIn = s.trigIn := rfl
@[simp] theorem State.modTic_regions (s : State) (n : Nat) (f : Tic → Tic) : (s.modTic n f).regions = s.regions := rfl
@[simp] theorem State.modTic_red (s : State) (n : Nat) (f : Tic → Tic) : (s.modTic n f).red = s.red := rfl
@[simp] theorem State.modTic_sync (s : State) (n : Nat) (f : Tic → Tic) : (s.modTic n f).sync = s.sync := rfl
@[simp] theorem State.modTic_planes (s : State) (n : Nat) (f : Tic → Tic) : (s.modTic n f).planes = s.planes := rfl
@[simp] theorem State.modTic_maskFire (s : State) (n : Nat) (f : Tic → Tic) : (s.modTic n f).maskFire = s.maskFire := rfl
@[simp] theorem State.modTic_xtrigCycle (s : State) (n : Nat) (f : Tic → Tic) : (s.modTic n f).xtrigCycle = s.xtrigCycle := rfl
@[simp] theorem State.modTic_snaps (s : State) (n : Nat) (f : Tic → Tic) : (s.modTic n f).snaps = s.snaps := rfl
@[simp] theorem State.modTic_pmu (s : State) (n : Nat) (f : Tic → Tic) : (s.modTic n f).pmu = s.pmu := rfl
@[simp] theorem State.modTic_ras (s : State) (n : Nat) (f : Tic → Tic) : (s.modTic n f).ras = s.ras := rfl
@[simp] theorem State.modTic_dma (s : State) (n : Nat) (f : Tic → Tic) : (s.modTic n f).dma = s.dma := rfl
@[simp] theorem State.modTic_evt (s : State) (n : Nat) (f : Tic → Tic) : (s.modTic n f).evt = s.evt := rfl
@[simp] theorem State.modTic_gln (s : State) (n : Nat) (f : Tic → Tic) : (s.modTic n f).gln = s.gln := rfl
@[simp] theorem State.modTic_mgt (s : State) (n : Nat) (f : Tic → Tic) : (s.modTic n f).mgt = s.mgt := rfl
@[simp] theorem State.modTic_pwr (s : State) (n : Nat) (f : Tic → Tic) : (s.modTic n f).pwr = s.pwr := rfl
@[simp] theorem State.modTic_dia (s : State) (n : Nat) (f : Tic → Tic) : (s.modTic n f).dia = s.dia := rfl
@[simp] theorem State.modTic_free (s : State) (n : Nat) (f : Tic → Tic) : (s.modTic n f).free = s.free := rfl
@[simp] theorem State.modTic_out (s : State) (n : Nat) (f : Tic → Tic) : (s.modTic n f).out = s.out := rfl
@[simp] theorem State.modTic_pending (s : State) (n : Nat) (f : Tic → Tic) : (s.modTic n f).pending = s.pending := rfl
@[simp] theorem State.modTic_reg (s : State) (n : Nat) (f : Tic → Tic) (r : RegName) (j : Nat) : (s.modTic n f).reg r j = s.reg r j := rfl
@[simp] theorem State.modTic_fld (s : State) (n : Nat) (f : Tic → Tic) (g : Fld) (j : Nat) : (s.modTic n f).fld g j = s.fld g j := rfl
@[simp] theorem State.modTic_flag (s : State) (n : Nat) (f : Tic → Tic) (g : Fld) (j : Nat) : (s.modTic n f).flag g j = s.flag g j := rfl

/-! ### modMc -/

@[simp] theorem State.modMc_regs (s : State) (n : Nat) (f : Mc → Mc) : (s.modMc n f).regs = s.regs := rfl
@[simp] theorem State.modMc_latch (s : State) (n : Nat) (f : Mc → Mc) : (s.modMc n f).latch = s.latch := rfl
@[simp] theorem State.modMc_time (s : State) (n : Nat) (f : Mc → Mc) : (s.modMc n f).time = s.time := rfl
@[simp] theorem State.modMc_frame (s : State) (n : Nat) (f : Mc → Mc) : (s.modMc n f).frame = s.frame := rfl
@[simp] theorem State.modMc_mem (s : State) (n : Nat) (f : Mc → Mc) : (s.modMc n f).mem = s.mem := rfl
@[simp] theorem State.modMc_masks (s : State) (n : Nat) (f : Mc → Mc) : (s.modMc n f).masks = s.masks := rfl
@[simp] theorem State.modMc_bins (s : State) (n : Nat) (f : Mc → Mc) : (s.modMc n f).bins = s.bins := rfl
@[simp] theorem State.modMc_dir (s : State) (n : Nat) (f : Mc → Mc) : (s.modMc n f).dir = s.dir := rfl
@[simp] theorem State.modMc_dirSeq (s : State) (n : Nat) (f : Mc → Mc) : (s.modMc n f).dirSeq = s.dirSeq := rfl
@[simp] theorem State.modMc_tick (s : State) (n : Nat) (f : Mc → Mc) : (s.modMc n f).tick = s.tick := rfl
@[simp] theorem State.modMc_pitch (s : State) (n : Nat) (f : Mc → Mc) : (s.modMc n f).pitch = s.pitch := rfl
@[simp] theorem State.modMc_clk (s : State) (n : Nat) (f : Mc → Mc) : (s.modMc n f).clk = s.clk := rfl
@[simp] theorem State.modMc_tlk (s : State) (n : Nat) (f : Mc → Mc) : (s.modMc n f).tlk = s.tlk := rfl
@[simp] theorem State.modMc_spll (s : State) (n : Nat) (f : Mc → Mc) : (s.modMc n f).spll = s.spll := rfl
@[simp] theorem State.modMc_pll (s : State) (n : Nat) (f : Mc → Mc) : (s.modMc n f).pll = s.pll := rfl
@[simp] theorem State.modMc_afe (s : State) (n : Nat) (f : Mc → Mc) : (s.modMc n f).afe = s.afe := rfl
@[simp] theorem State.modMc_lanes (s : State) (n : Nat) (f : Mc → Mc) : (s.modMc n f).lanes = s.lanes := rfl
@[simp] theorem State.modMc_comps (s : State) (n : Nat) (f : Mc → Mc) : (s.modMc n f).comps = s.comps := rfl
@[simp] theorem State.modMc_gens (s : State) (n : Nat) (f : Mc → Mc) : (s.modMc n f).gens = s.gens := rfl
@[simp] theorem State.modMc_trigOut (s : State) (n : Nat) (f : Mc → Mc) : (s.modMc n f).trigOut = s.trigOut := rfl
@[simp] theorem State.modMc_trigIn (s : State) (n : Nat) (f : Mc → Mc) : (s.modMc n f).trigIn = s.trigIn := rfl
@[simp] theorem State.modMc_regions (s : State) (n : Nat) (f : Mc → Mc) : (s.modMc n f).regions = s.regions := rfl
@[simp] theorem State.modMc_red (s : State) (n : Nat) (f : Mc → Mc) : (s.modMc n f).red = s.red := rfl
@[simp] theorem State.modMc_sync (s : State) (n : Nat) (f : Mc → Mc) : (s.modMc n f).sync = s.sync := rfl
@[simp] theorem State.modMc_planes (s : State) (n : Nat) (f : Mc → Mc) : (s.modMc n f).planes = s.planes := rfl
@[simp] theorem State.modMc_maskFire (s : State) (n : Nat) (f : Mc → Mc) : (s.modMc n f).maskFire = s.maskFire := rfl
@[simp] theorem State.modMc_xtrigCycle (s : State) (n : Nat) (f : Mc → Mc) : (s.modMc n f).xtrigCycle = s.xtrigCycle := rfl
@[simp] theorem State.modMc_snaps (s : State) (n : Nat) (f : Mc → Mc) : (s.modMc n f).snaps = s.snaps := rfl
@[simp] theorem State.modMc_tic (s : State) (n : Nat) (f : Mc → Mc) : (s.modMc n f).tic = s.tic := rfl
@[simp] theorem State.modMc_ras (s : State) (n : Nat) (f : Mc → Mc) : (s.modMc n f).ras = s.ras := rfl
@[simp] theorem State.modMc_dma (s : State) (n : Nat) (f : Mc → Mc) : (s.modMc n f).dma = s.dma := rfl
@[simp] theorem State.modMc_evt (s : State) (n : Nat) (f : Mc → Mc) : (s.modMc n f).evt = s.evt := rfl
@[simp] theorem State.modMc_gln (s : State) (n : Nat) (f : Mc → Mc) : (s.modMc n f).gln = s.gln := rfl
@[simp] theorem State.modMc_mgt (s : State) (n : Nat) (f : Mc → Mc) : (s.modMc n f).mgt = s.mgt := rfl
@[simp] theorem State.modMc_pwr (s : State) (n : Nat) (f : Mc → Mc) : (s.modMc n f).pwr = s.pwr := rfl
@[simp] theorem State.modMc_dia (s : State) (n : Nat) (f : Mc → Mc) : (s.modMc n f).dia = s.dia := rfl
@[simp] theorem State.modMc_free (s : State) (n : Nat) (f : Mc → Mc) : (s.modMc n f).free = s.free := rfl
@[simp] theorem State.modMc_out (s : State) (n : Nat) (f : Mc → Mc) : (s.modMc n f).out = s.out := rfl
@[simp] theorem State.modMc_pending (s : State) (n : Nat) (f : Mc → Mc) : (s.modMc n f).pending = s.pending := rfl
@[simp] theorem State.modMc_reg (s : State) (n : Nat) (f : Mc → Mc) (r : RegName) (j : Nat) : (s.modMc n f).reg r j = s.reg r j := rfl
@[simp] theorem State.modMc_fld (s : State) (n : Nat) (f : Mc → Mc) (g : Fld) (j : Nat) : (s.modMc n f).fld g j = s.fld g j := rfl
@[simp] theorem State.modMc_flag (s : State) (n : Nat) (f : Mc → Mc) (g : Fld) (j : Nat) : (s.modMc n f).flag g j = s.flag g j := rfl

/-! ### setMsixWord -/

@[simp] theorem State.setMsixWord_regs (s : State) (k : Nat) (v : Word) : (s.setMsixWord k v).regs = s.regs := rfl
@[simp] theorem State.setMsixWord_latch (s : State) (k : Nat) (v : Word) : (s.setMsixWord k v).latch = s.latch := rfl
@[simp] theorem State.setMsixWord_time (s : State) (k : Nat) (v : Word) : (s.setMsixWord k v).time = s.time := rfl
@[simp] theorem State.setMsixWord_frame (s : State) (k : Nat) (v : Word) : (s.setMsixWord k v).frame = s.frame := rfl
@[simp] theorem State.setMsixWord_mem (s : State) (k : Nat) (v : Word) : (s.setMsixWord k v).mem = s.mem := rfl
@[simp] theorem State.setMsixWord_masks (s : State) (k : Nat) (v : Word) : (s.setMsixWord k v).masks = s.masks := rfl
@[simp] theorem State.setMsixWord_bins (s : State) (k : Nat) (v : Word) : (s.setMsixWord k v).bins = s.bins := rfl
@[simp] theorem State.setMsixWord_dir (s : State) (k : Nat) (v : Word) : (s.setMsixWord k v).dir = s.dir := rfl
@[simp] theorem State.setMsixWord_dirSeq (s : State) (k : Nat) (v : Word) : (s.setMsixWord k v).dirSeq = s.dirSeq := rfl
@[simp] theorem State.setMsixWord_tick (s : State) (k : Nat) (v : Word) : (s.setMsixWord k v).tick = s.tick := rfl
@[simp] theorem State.setMsixWord_pitch (s : State) (k : Nat) (v : Word) : (s.setMsixWord k v).pitch = s.pitch := rfl
@[simp] theorem State.setMsixWord_clk (s : State) (k : Nat) (v : Word) : (s.setMsixWord k v).clk = s.clk := rfl
@[simp] theorem State.setMsixWord_tlk (s : State) (k : Nat) (v : Word) : (s.setMsixWord k v).tlk = s.tlk := rfl
@[simp] theorem State.setMsixWord_spll (s : State) (k : Nat) (v : Word) : (s.setMsixWord k v).spll = s.spll := rfl
@[simp] theorem State.setMsixWord_pll (s : State) (k : Nat) (v : Word) : (s.setMsixWord k v).pll = s.pll := rfl
@[simp] theorem State.setMsixWord_afe (s : State) (k : Nat) (v : Word) : (s.setMsixWord k v).afe = s.afe := rfl
@[simp] theorem State.setMsixWord_lanes (s : State) (k : Nat) (v : Word) : (s.setMsixWord k v).lanes = s.lanes := rfl
@[simp] theorem State.setMsixWord_comps (s : State) (k : Nat) (v : Word) : (s.setMsixWord k v).comps = s.comps := rfl
@[simp] theorem State.setMsixWord_gens (s : State) (k : Nat) (v : Word) : (s.setMsixWord k v).gens = s.gens := rfl
@[simp] theorem State.setMsixWord_trigOut (s : State) (k : Nat) (v : Word) : (s.setMsixWord k v).trigOut = s.trigOut := rfl
@[simp] theorem State.setMsixWord_trigIn (s : State) (k : Nat) (v : Word) : (s.setMsixWord k v).trigIn = s.trigIn := rfl
@[simp] theorem State.setMsixWord_regions (s : State) (k : Nat) (v : Word) : (s.setMsixWord k v).regions = s.regions := rfl
@[simp] theorem State.setMsixWord_red (s : State) (k : Nat) (v : Word) : (s.setMsixWord k v).red = s.red := rfl
@[simp] theorem State.setMsixWord_sync (s : State) (k : Nat) (v : Word) : (s.setMsixWord k v).sync = s.sync := rfl
@[simp] theorem State.setMsixWord_planes (s : State) (k : Nat) (v : Word) : (s.setMsixWord k v).planes = s.planes := rfl
@[simp] theorem State.setMsixWord_maskFire (s : State) (k : Nat) (v : Word) : (s.setMsixWord k v).maskFire = s.maskFire := rfl
@[simp] theorem State.setMsixWord_xtrigCycle (s : State) (k : Nat) (v : Word) : (s.setMsixWord k v).xtrigCycle = s.xtrigCycle := rfl
@[simp] theorem State.setMsixWord_snaps (s : State) (k : Nat) (v : Word) : (s.setMsixWord k v).snaps = s.snaps := rfl
@[simp] theorem State.setMsixWord_tic (s : State) (k : Nat) (v : Word) : (s.setMsixWord k v).tic = s.tic := rfl
@[simp] theorem State.setMsixWord_pmu (s : State) (k : Nat) (v : Word) : (s.setMsixWord k v).pmu = s.pmu := rfl
@[simp] theorem State.setMsixWord_ras (s : State) (k : Nat) (v : Word) : (s.setMsixWord k v).ras = s.ras := rfl
@[simp] theorem State.setMsixWord_dma (s : State) (k : Nat) (v : Word) : (s.setMsixWord k v).dma = s.dma := rfl
@[simp] theorem State.setMsixWord_gln (s : State) (k : Nat) (v : Word) : (s.setMsixWord k v).gln = s.gln := rfl
@[simp] theorem State.setMsixWord_mgt (s : State) (k : Nat) (v : Word) : (s.setMsixWord k v).mgt = s.mgt := rfl
@[simp] theorem State.setMsixWord_pwr (s : State) (k : Nat) (v : Word) : (s.setMsixWord k v).pwr = s.pwr := rfl
@[simp] theorem State.setMsixWord_dia (s : State) (k : Nat) (v : Word) : (s.setMsixWord k v).dia = s.dia := rfl
@[simp] theorem State.setMsixWord_free (s : State) (k : Nat) (v : Word) : (s.setMsixWord k v).free = s.free := rfl
@[simp] theorem State.setMsixWord_out (s : State) (k : Nat) (v : Word) : (s.setMsixWord k v).out = s.out := rfl
@[simp] theorem State.setMsixWord_pending (s : State) (k : Nat) (v : Word) : (s.setMsixWord k v).pending = s.pending := rfl
@[simp] theorem State.setMsixWord_reg (s : State) (k : Nat) (v : Word) (r : RegName) (j : Nat) : (s.setMsixWord k v).reg r j = s.reg r j := rfl
@[simp] theorem State.setMsixWord_fld (s : State) (k : Nat) (v : Word) (g : Fld) (j : Nat) : (s.setMsixWord k v).fld g j = s.fld g j := rfl
@[simp] theorem State.setMsixWord_flag (s : State) (k : Nat) (v : Word) (g : Fld) (j : Nat) : (s.setMsixWord k v).flag g j = s.flag g j := rfl

/-! ### setPba -/

@[simp] theorem State.setPba_regs (s : State) (v : Nat) (b : Bool) : (s.setPba v b).regs = s.regs := rfl
@[simp] theorem State.setPba_latch (s : State) (v : Nat) (b : Bool) : (s.setPba v b).latch = s.latch := rfl
@[simp] theorem State.setPba_time (s : State) (v : Nat) (b : Bool) : (s.setPba v b).time = s.time := rfl
@[simp] theorem State.setPba_frame (s : State) (v : Nat) (b : Bool) : (s.setPba v b).frame = s.frame := rfl
@[simp] theorem State.setPba_mem (s : State) (v : Nat) (b : Bool) : (s.setPba v b).mem = s.mem := rfl
@[simp] theorem State.setPba_masks (s : State) (v : Nat) (b : Bool) : (s.setPba v b).masks = s.masks := rfl
@[simp] theorem State.setPba_bins (s : State) (v : Nat) (b : Bool) : (s.setPba v b).bins = s.bins := rfl
@[simp] theorem State.setPba_dir (s : State) (v : Nat) (b : Bool) : (s.setPba v b).dir = s.dir := rfl
@[simp] theorem State.setPba_dirSeq (s : State) (v : Nat) (b : Bool) : (s.setPba v b).dirSeq = s.dirSeq := rfl
@[simp] theorem State.setPba_tick (s : State) (v : Nat) (b : Bool) : (s.setPba v b).tick = s.tick := rfl
@[simp] theorem State.setPba_pitch (s : State) (v : Nat) (b : Bool) : (s.setPba v b).pitch = s.pitch := rfl
@[simp] theorem State.setPba_clk (s : State) (v : Nat) (b : Bool) : (s.setPba v b).clk = s.clk := rfl
@[simp] theorem State.setPba_tlk (s : State) (v : Nat) (b : Bool) : (s.setPba v b).tlk = s.tlk := rfl
@[simp] theorem State.setPba_spll (s : State) (v : Nat) (b : Bool) : (s.setPba v b).spll = s.spll := rfl
@[simp] theorem State.setPba_pll (s : State) (v : Nat) (b : Bool) : (s.setPba v b).pll = s.pll := rfl
@[simp] theorem State.setPba_afe (s : State) (v : Nat) (b : Bool) : (s.setPba v b).afe = s.afe := rfl
@[simp] theorem State.setPba_lanes (s : State) (v : Nat) (b : Bool) : (s.setPba v b).lanes = s.lanes := rfl
@[simp] theorem State.setPba_comps (s : State) (v : Nat) (b : Bool) : (s.setPba v b).comps = s.comps := rfl
@[simp] theorem State.setPba_gens (s : State) (v : Nat) (b : Bool) : (s.setPba v b).gens = s.gens := rfl
@[simp] theorem State.setPba_trigOut (s : State) (v : Nat) (b : Bool) : (s.setPba v b).trigOut = s.trigOut := rfl
@[simp] theorem State.setPba_trigIn (s : State) (v : Nat) (b : Bool) : (s.setPba v b).trigIn = s.trigIn := rfl
@[simp] theorem State.setPba_regions (s : State) (v : Nat) (b : Bool) : (s.setPba v b).regions = s.regions := rfl
@[simp] theorem State.setPba_red (s : State) (v : Nat) (b : Bool) : (s.setPba v b).red = s.red := rfl
@[simp] theorem State.setPba_sync (s : State) (v : Nat) (b : Bool) : (s.setPba v b).sync = s.sync := rfl
@[simp] theorem State.setPba_planes (s : State) (v : Nat) (b : Bool) : (s.setPba v b).planes = s.planes := rfl
@[simp] theorem State.setPba_maskFire (s : State) (v : Nat) (b : Bool) : (s.setPba v b).maskFire = s.maskFire := rfl
@[simp] theorem State.setPba_xtrigCycle (s : State) (v : Nat) (b : Bool) : (s.setPba v b).xtrigCycle = s.xtrigCycle := rfl
@[simp] theorem State.setPba_snaps (s : State) (v : Nat) (b : Bool) : (s.setPba v b).snaps = s.snaps := rfl
@[simp] theorem State.setPba_tic (s : State) (v : Nat) (b : Bool) : (s.setPba v b).tic = s.tic := rfl
@[simp] theorem State.setPba_pmu (s : State) (v : Nat) (b : Bool) : (s.setPba v b).pmu = s.pmu := rfl
@[simp] theorem State.setPba_ras (s : State) (v : Nat) (b : Bool) : (s.setPba v b).ras = s.ras := rfl
@[simp] theorem State.setPba_dma (s : State) (v : Nat) (b : Bool) : (s.setPba v b).dma = s.dma := rfl
@[simp] theorem State.setPba_gln (s : State) (v : Nat) (b : Bool) : (s.setPba v b).gln = s.gln := rfl
@[simp] theorem State.setPba_mgt (s : State) (v : Nat) (b : Bool) : (s.setPba v b).mgt = s.mgt := rfl
@[simp] theorem State.setPba_pwr (s : State) (v : Nat) (b : Bool) : (s.setPba v b).pwr = s.pwr := rfl
@[simp] theorem State.setPba_dia (s : State) (v : Nat) (b : Bool) : (s.setPba v b).dia = s.dia := rfl
@[simp] theorem State.setPba_free (s : State) (v : Nat) (b : Bool) : (s.setPba v b).free = s.free := rfl
@[simp] theorem State.setPba_out (s : State) (v : Nat) (b : Bool) : (s.setPba v b).out = s.out := rfl
@[simp] theorem State.setPba_pending (s : State) (v : Nat) (b : Bool) : (s.setPba v b).pending = s.pending := rfl
@[simp] theorem State.setPba_reg (s : State) (v : Nat) (b : Bool) (r : RegName) (j : Nat) : (s.setPba v b).reg r j = s.reg r j := rfl
@[simp] theorem State.setPba_fld (s : State) (v : Nat) (b : Bool) (g : Fld) (j : Nat) : (s.setPba v b).fld g j = s.fld g j := rfl
@[simp] theorem State.setPba_flag (s : State) (v : Nat) (b : Bool) (g : Fld) (j : Nat) : (s.setPba v b).flag g j = s.flag g j := rfl

/-! ### The instant -/

@[simp] theorem State.at_regs (s : State) (t : Tu) : (s.at t).regs = s.regs := by
  unfold State.at; split <;> [split <;> rfl; rfl]
@[simp] theorem State.at_latch (s : State) (t : Tu) : (s.at t).latch = s.latch := by
  unfold State.at; split <;> [split <;> rfl; rfl]
@[simp] theorem State.at_frame (s : State) (t : Tu) : (s.at t).frame = s.frame := by
  unfold State.at; split <;> [split <;> rfl; rfl]
@[simp] theorem State.at_mem (s : State) (t : Tu) : (s.at t).mem = s.mem := by
  unfold State.at; split <;> [split <;> rfl; rfl]
@[simp] theorem State.at_masks (s : State) (t : Tu) : (s.at t).masks = s.masks := by
  unfold State.at; split <;> [split <;> rfl; rfl]
@[simp] theorem State.at_bins (s : State) (t : Tu) : (s.at t).bins = s.bins := by
  unfold State.at; split <;> [split <;> rfl; rfl]
@[simp] theorem State.at_dir (s : State) (t : Tu) : (s.at t).dir = s.dir := by
  unfold State.at; split <;> [split <;> rfl; rfl]
@[simp] theorem State.at_dirSeq (s : State) (t : Tu) : (s.at t).dirSeq = s.dirSeq := by
  unfold State.at; split <;> [split <;> rfl; rfl]
@[simp] theorem State.at_tick (s : State) (t : Tu) : (s.at t).tick = s.tick := by
  unfold State.at; split <;> [split <;> rfl; rfl]
@[simp] theorem State.at_pitch (s : State) (t : Tu) : (s.at t).pitch = s.pitch := by
  unfold State.at; split <;> [split <;> rfl; rfl]
@[simp] theorem State.at_clk (s : State) (t : Tu) : (s.at t).clk = s.clk := by
  unfold State.at; split <;> [split <;> rfl; rfl]
@[simp] theorem State.at_tlk (s : State) (t : Tu) : (s.at t).tlk = s.tlk := by
  unfold State.at; split <;> [split <;> rfl; rfl]
@[simp] theorem State.at_spll (s : State) (t : Tu) : (s.at t).spll = s.spll := by
  unfold State.at; split <;> [split <;> rfl; rfl]
@[simp] theorem State.at_pll (s : State) (t : Tu) : (s.at t).pll = s.pll := by
  unfold State.at; split <;> [split <;> rfl; rfl]
@[simp] theorem State.at_afe (s : State) (t : Tu) : (s.at t).afe = s.afe := by
  unfold State.at; split <;> [split <;> rfl; rfl]
@[simp] theorem State.at_lanes (s : State) (t : Tu) : (s.at t).lanes = s.lanes := by
  unfold State.at; split <;> [split <;> rfl; rfl]
@[simp] theorem State.at_comps (s : State) (t : Tu) : (s.at t).comps = s.comps := by
  unfold State.at; split <;> [split <;> rfl; rfl]
@[simp] theorem State.at_gens (s : State) (t : Tu) : (s.at t).gens = s.gens := by
  unfold State.at; split <;> [split <;> rfl; rfl]
@[simp] theorem State.at_trigOut (s : State) (t : Tu) : (s.at t).trigOut = s.trigOut := by
  unfold State.at; split <;> [split <;> rfl; rfl]
@[simp] theorem State.at_trigIn (s : State) (t : Tu) : (s.at t).trigIn = s.trigIn := by
  unfold State.at; split <;> [split <;> rfl; rfl]
@[simp] theorem State.at_regions (s : State) (t : Tu) : (s.at t).regions = s.regions := by
  unfold State.at; split <;> [split <;> rfl; rfl]
@[simp] theorem State.at_red (s : State) (t : Tu) : (s.at t).red = s.red := by
  unfold State.at; split <;> [split <;> rfl; rfl]
@[simp] theorem State.at_sync (s : State) (t : Tu) : (s.at t).sync = s.sync := by
  unfold State.at; split <;> [split <;> rfl; rfl]
@[simp] theorem State.at_planes (s : State) (t : Tu) : (s.at t).planes = s.planes := by
  unfold State.at; split <;> [split <;> rfl; rfl]
@[simp] theorem State.at_maskFire (s : State) (t : Tu) : (s.at t).maskFire = s.maskFire := by
  unfold State.at; split <;> [split <;> rfl; rfl]
@[simp] theorem State.at_xtrigCycle (s : State) (t : Tu) : (s.at t).xtrigCycle = s.xtrigCycle := by
  unfold State.at; split <;> [split <;> rfl; rfl]
@[simp] theorem State.at_snaps (s : State) (t : Tu) : (s.at t).snaps = s.snaps := by
  unfold State.at; split <;> [split <;> rfl; rfl]
@[simp] theorem State.at_tic (s : State) (t : Tu) : (s.at t).tic = s.tic := by
  unfold State.at; split <;> [split <;> rfl; rfl]
@[simp] theorem State.at_pmu (s : State) (t : Tu) : (s.at t).pmu = s.pmu := by
  unfold State.at; split <;> [split <;> rfl; rfl]
@[simp] theorem State.at_ras (s : State) (t : Tu) : (s.at t).ras = s.ras := by
  unfold State.at; split <;> [split <;> rfl; rfl]
@[simp] theorem State.at_dma (s : State) (t : Tu) : (s.at t).dma = s.dma := by
  unfold State.at; split <;> [split <;> rfl; rfl]
@[simp] theorem State.at_evt (s : State) (t : Tu) : (s.at t).evt = s.evt := by
  unfold State.at; split <;> [split <;> rfl; rfl]
@[simp] theorem State.at_gln (s : State) (t : Tu) : (s.at t).gln = s.gln := by
  unfold State.at; split <;> [split <;> rfl; rfl]
@[simp] theorem State.at_mgt (s : State) (t : Tu) : (s.at t).mgt = s.mgt := by
  unfold State.at; split <;> [split <;> rfl; rfl]
@[simp] theorem State.at_pwr (s : State) (t : Tu) : (s.at t).pwr = s.pwr := by
  unfold State.at; split <;> [split <;> rfl; rfl]
@[simp] theorem State.at_dia (s : State) (t : Tu) : (s.at t).dia = s.dia := by
  unfold State.at; split <;> [split <;> rfl; rfl]
@[simp] theorem State.at_free (s : State) (t : Tu) : (s.at t).free = s.free := by
  unfold State.at; split <;> [split <;> rfl; rfl]
@[simp] theorem State.at_out (s : State) (t : Tu) : (s.at t).out = s.out := by
  unfold State.at; split <;> [split <;> rfl; rfl]
@[simp] theorem State.at_pending (s : State) (t : Tu) : (s.at t).pending = s.pending := by
  unfold State.at; split <;> [split <;> rfl; rfl]
@[simp] theorem State.at_reg (s : State) (t : Tu) (n : RegName) (i : Nat) : (s.at t).reg n i = s.reg n i := by
  simp [State.reg, State.fld, State.flag]
@[simp] theorem State.at_fld (s : State) (t : Tu) (f : Fld) (i : Nat) : (s.at t).fld f i = s.fld f i := by
  simp [State.reg, State.fld, State.flag]
@[simp] theorem State.at_flag (s : State) (t : Tu) (f : Fld) (i : Nat) : (s.at t).flag f i = s.flag f i := by
  simp [State.reg, State.fld, State.flag]

end Sys2Proof.Machine
end

