-- ==== Sys2Proof/Laws/Keep.lean ====
section
/-! SUPPORT. What every operation keeps: the invariant, and the queue of waiting commands. Each operation of the machine
has one lemma `…_ok` that says so; this file holds those of the primitive operations and of the forms they stand in. -/

namespace Sys2Proof.Machine

/-- Something said of local time, the frame number, the pending STEP, the latches of the register pairs, whether accesses
of the host reach the device, and of lists that hold every waiting SH value and every recorded 1 of HOLD. -/
abbrev Saying : Type :=
  Tu → Frame → Option Int → List (Reg × Word) → Bool → List ShWrite → List (Tu × Bool) → Prop

/-- The invariant holds, the queue is `que`, and the rest is as `Q` says. -/
def Ok (que : List Instr) (Q : Saying) (s : State) : Prop :=
  s.Inv ∧ s.pending = que ∧ ∃ l h, s.tick.sh ⊆ l ∧ (∀ x ∈ s.tick.hold, x.2 = true → x ∈ h) ∧ Q s.time s.frame s.tlk.step s.latch s.hostUp l h

/-- Nothing is said of them. -/
def AnyTime : Saying := fun _ _ _ _ _ _ _ => True

/-- What is said of time, frame, STEP, latches and host link holds. -/
theorem Ok.says {que : List Instr} {s : State} {P : Tu → Frame → Option Int → List (Reg × Word) → Bool → Prop}
    (h : Ok que (fun t f x l u _ _ => P t f x l u) s) : P s.time s.frame s.tlk.step s.latch s.hostUp := by
  obtain ⟨-, -, -, -, -, -, h⟩ := h
  exact h

/-- More is said of them. -/
theorem Ok.mono {que : List Instr} {s : State} {Q Q' : Saying} (h : Ok que Q s)
    (hq : ∀ t f x l u w k, Q t f x l u w k → Q' t f x l u w k) : Ok que Q' s := by
  obtain ⟨h1, h2, l, k, h3, h4, h5⟩ := h
  exact ⟨h1, h2, l, k, h3, h4, hq _ _ _ _ _ _ _ h5⟩

/-- The command answers a next state, in which the invariant holds and the queue is `que`. -/
def OkOut (que : List Instr) (o : Host.Outcome State Fault Refusal) : Prop := ∃ t, o = .next t ∧ Ok que AnyTime t

variable {que : List Instr} {Q : Saying} {s : State}

theorem Ok.of (hi : s.Inv) (hp : s.pending = que)
    (hq : Q s.time s.frame s.tlk.step s.latch s.hostUp s.tick.sh s.tick.hold) : Ok que Q s :=
  ⟨hi, hp, _, _, fun _ h => h, fun _ h _ => h, hq⟩

theorem Ok.any (h : Ok que Q s) : Ok que AnyTime s := Ok.of h.1 h.2.1 trivial

theorem regs_ok {m : List (Reg × Word)} (r : Reg) (v : Word) (hr : hardWired r.n = false)
    (h : regsWf m = true ∧ (m.all fun e => !hardWired e.1.n) = true) :
    regsWf (rput m r v) = true ∧ ((rput m r v).all fun e => !hardWired e.1.n) = true := by
  refine ⟨regsWf_rput m r v h.1, ?_⟩
  have h2 := h.2
  rw [List.all_eq_true] at h2 ⊢
  intro e he
  unfold rput at he
  split at he
  · exact h2 e (List.mem_filter.1 he).1
  · rcases rins_keys m r v e he with rfl | he
    · simp [hr]
    · exact h2 e he

theorem regs_filter_ok {m : List (Reg × Word)} (p : Reg × Word → Bool)
    (h : regsWf m = true ∧ (m.all fun e => !hardWired e.1.n) = true) :
    regsWf (m.filter p) = true ∧ ((m.filter p).all fun e => !hardWired e.1.n) = true := by
  refine ⟨regsWf_filter m p h.1, ?_⟩
  have h2 := h.2
  rw [List.all_eq_true] at h2 ⊢
  exact fun e he => h2 e (List.mem_filter.1 he).1

/-! ### Forms -/

/-- What `Ok` looks at. -/
def Core (que : List Instr) (Q : Saying) (regs : List (Reg × Word)) (mem : List Host.Cell)
    (pending : List Instr) (time : Tu) (frame : Frame)
    (step : Option Int) (latch : List (Reg × Word)) (up : Bool) (sh : List ShWrite) (hold : List (Tu × Bool)) : Prop :=
  ((regsWf regs = true ∧ (regs.all fun e => !hardWired e.1.n) = true) ∧ Memory.wf mem = true) ∧ pending = que ∧
    ∃ l h, sh ⊆ l ∧ (∀ x ∈ hold, x.2 = true → x ∈ h) ∧ Q time frame step latch up l h

theorem ok_mk (regs latch time frame mem masks bins dir dirSeq tick pitch clk tlk spll pll afe lanes comps gens
    trigOut trigIn regions red sync planes maskFire xtrigCycle snaps tic pmu ras dma evt gln mgt pwr dia free out
    pending) :
    Ok que Q (State.mk regs latch time frame mem masks bins dir dirSeq tick pitch clk tlk spll pll afe lanes comps gens
      trigOut trigIn regions red sync planes maskFire xtrigCycle snaps tic pmu ras dma evt gln mgt pwr dia free out
      pending) ↔ Core que Q regs mem pending time frame tlk.step latch
        (pwr.on && !pwr.rstLow && !pwr.tripped && !pwr.perstLow) tick.sh tick.hold := Iff.rfl

theorem core_ok (h : Ok que Q s) : Core que Q s.regs s.mem s.pending s.time s.frame s.tlk.step s.latch
      (s.pwr.on && !s.pwr.rstLow && !s.pwr.tripped && !s.pwr.perstLow) s.tick.sh s.tick.hold := h

/-- A change of what is spoken of, where nothing is said of them. -/
theorem core_any_ok {time : Tu} {frame : Frame} {step : Option Int} {latch : List (Reg × Word)} {up : Bool}
    {sh : List ShWrite} {hold : List (Tu × Bool)} (h : Ok que AnyTime s) :
    Core que AnyTime s.regs s.mem s.pending time frame step latch up sh hold :=
  ⟨h.1, h.2.1, _, _, fun _ h => h, fun _ h _ => h, trivial⟩

/-- Waiting SH values and recorded 1s of HOLD are dropped. -/
theorem core_sub_ok {sh : List ShWrite} {hold : List (Tu × Bool)} (hw : sh ⊆ s.tick.sh) (hh : ∀ x ∈ hold, x.2 = true → x ∈ s.tick.hold)
    (h : Ok que Q s) : Core que Q s.regs s.mem s.pending s.time s.frame s.tlk.step s.latch
      (s.pwr.on && !s.pwr.rstLow && !s.pwr.tripped && !s.pwr.perstLow) sh hold := by
  obtain ⟨h1, h2, l, m, hl, hm, hq⟩ := h
  exact ⟨h1, h2, l, m, fun _ x => hl (hw x), fun _ x hx => hm _ (hh _ x hx) hx, hq⟩

/-- A change of memory that keeps its canonical form. -/
theorem core_mem_ok {mem : List Host.Cell} (hm : Memory.wf s.mem = true → Memory.wf mem = true) (h : Ok que Q s) :
    Core que Q s.regs mem s.pending s.time s.frame s.tlk.step s.latch
      (s.pwr.on && !s.pwr.rstLow && !s.pwr.tripped && !s.pwr.perstLow) s.tick.sh s.tick.hold := ⟨⟨h.1.1, hm h.1.2⟩, h.2⟩

theorem ite_ok {c : Prop} [Decidable c] {a b : State} (ha : Ok que Q a) (hb : Ok que Q b) : Ok que Q (if c then a else b) := by
  split <;> assumption

theorem ite_fst_ok {α : Type} {c : Prop} [Decidable c] {a b : State × α} (ha : Ok que Q a.1) (hb : Ok que Q b.1) :
    Ok que Q (if c then a else b).1 := by split <;> assumption

theorem ite_mb_ok {c : Prop} [Decidable c] {a b : MbEnd} (ha : Ok que Q a.s) (hb : Ok que Q b.s) :
    Ok que Q (if c then a else b).s := by split <;> assumption

theorem ite_out_ok {c : Prop} [Decidable c] {a b : Host.Outcome State Fault Refusal} (ha : OkOut que a)
    (hb : OkOut que b) : OkOut que (if c then a else b) := by split <;> assumption

theorem next_ok (h : Ok que AnyTime s) : OkOut que (.next s) := ⟨s, rfl, h⟩

theorem foldl_ok {α : Type} {f : State → α → State} (hf : ∀ s x, Ok que Q s → Ok que Q (f s x)) (l : List α) (h : Ok que Q s) :
    Ok que Q (l.foldl f s) := by
  induction l generalizing s with
  | nil => exact h
  | cons x l ih => exact ih (hf s x h)

theorem foldl_fst_ok {α β : Type} {f : State × β → α → State × β} {b : β}
    (hf : ∀ s b x, Ok que Q s → Ok que Q (f (s, b) x).1) (l : List α) (h : Ok que Q s) : Ok que Q (l.foldl f (s, b)).1 := by
  induction l generalizing s b with
  | nil => exact h
  | cons x l ih => exact ih (s := (f (s, b) x).1) (b := (f (s, b) x).2) (hf s b x h)

theorem State.each_ok {n : Nat} {f : State → Nat → State} (hf : ∀ s x, Ok que Q s → Ok que Q (f s x)) (h : Ok que Q s) :
    Ok que Q (s.each n f) := foldl_ok hf _ h

/-! ### Registers -/

theorem State.setReg_ok {n : RegName} (hn : hardWired n = false) (i : Nat) (v : Word) (h : Ok que Q s) :
    Ok que Q (s.setReg n i v) := ⟨⟨regs_ok ⟨n, i⟩ v hn h.1.1, h.1.2⟩, h.2⟩

theorem State.setFld_ok {f : Fld} (hn : hardWired f.reg = false) (i x : Nat) (h : Ok que Q s) : Ok que Q (s.setFld f i x) :=
  State.setReg_ok hn _ _ h

theorem hardWired_not_listed {m : List (Reg × Word)} {r : Reg} (hr : hardWired r.n = true)
    (h : (m.all fun e => !hardWired e.1.n) = true) : rget m r = r.resetVal := by
  induction m with
  | nil => rfl
  | cons e m ih =>
    rw [List.all_cons, Bool.and_eq_true] at h
    have hne : e.1 ≠ r := fun he => by simp [he, hr] at h
    rw [show e = (e.1, e.2) from rfl, rget, if_neg hne]
    exact ih h.2

/-- A hard-wired register reads its reset value. -/
theorem Ok.reg_hardWired {n : RegName} (hn : hardWired n = true) (i : Nat) (h : Ok que Q s) :
    s.reg n i = Reg.resetVal ⟨n, i⟩ := hardWired_not_listed hn h.1.1.2

theorem State.setReg_same_ok {n : RegName} (hn : hardWired n = true) (i : Nat) {v : Word} (hv : v = s.reg n i)
    (h : Ok que Q s) : Ok que Q (s.setReg n i v) := by
  rw [hv, h.reg_hardWired hn]
  unfold State.setReg rput
  rw [if_pos rfl]
  exact ⟨⟨regs_filter_ok _ h.1.1, h.1.2⟩, h.2⟩

theorem accMask_hardWired {n : RegName} (hn : hardWired n = true) (a : Access) (ha : a ≠ .RO) : accMask n a = 0#32 := by
  cases n <;> simp only [hardWired, Bool.false_eq_true] at hn <;> cases a <;> first | exact absurd rfl ha | rfl

theorem State.writeRW_ok (n : RegName) (i : Nat) (v : Word) (h : Ok que Q s) : Ok que Q (s.writeRW n i v) := by
  rcases hn : hardWired n with _ | _
  · exact State.setReg_ok hn _ _ h
  · refine State.setReg_same_ok hn i ?_ h
    rw [accMask_hardWired hn .RW (by decide), show ~~~(0#32) = BitVec.allOnes 32 from rfl, BitVec.and_allOnes,
      BitVec.and_zero, BitVec.or_zero]

theorem State.bump_ok {f : Fld} (hn : hardWired f.reg = false) (i x : Nat) (h : Ok que Q s) : Ok que Q (s.bump f i x) :=
  State.setReg_ok hn _ _ h

theorem State.bumpMod_ok {f : Fld} (hn : hardWired f.reg = false) (i x : Nat) (h : Ok que Q s) :
    Ok que Q (s.bumpMod f i x) := State.setReg_ok hn _ _ h

theorem State.setPair_ok {lo hi : RegName} (hl : hardWired lo = false) (hh : hardWired hi = false) (i : Nat) (v : Tu)
    (h : Ok que Q s) : Ok que Q (s.setPair lo hi i v) := State.setReg_ok hh _ _ (State.setReg_ok hl _ _ h)

theorem State.setFrame_ok {lo hi : RegName} (hl : hardWired lo = false) (hh : hardWired hi = false) (i : Nat)
    (v : Frame) (h : Ok que Q s) : Ok que Q (s.setFrame lo hi i v) := State.setPair_ok hl hh i _ h

theorem State.resetRegs_ok (ns : List RegName) (p : Nat → Bool) (h : Ok que Q s) : Ok que Q (s.resetRegs ns p) :=
  ⟨⟨regs_filter_ok _ h.1.1, h.1.2⟩, h.2⟩

theorem State.at_ok (t : Tu) (h : Ok que AnyTime s) : Ok que AnyTime (s.at t) := by
  unfold State.at; split
  · split <;> exact Ok.of h.1 h.2.1 trivial
  · exact h

/-! ### Raising events -/

theorem State.emit_ok (o : Out) (h : Ok que Q s) : Ok que Q (s.emit o) := h
theorem State.used_ok (h : Ok que Q s) : Ok que Q s.used := h
theorem State.modQueue_ok (n : Nat) (f : Queue → Queue) (h : Ok que Q s) : Ok que Q (s.modQueue n f) := h
theorem State.modLane_ok (n : Nat) (f : Lane → Lane) (h : Ok que Q s) : Ok que Q (s.modLane n f) := h
theorem State.modAfe_ok (n : Nat) (f : Afe → Afe) (h : Ok que Q s) : Ok que Q (s.modAfe n f) := h
theorem State.modSpll_ok (n : Nat) (f : Spll → Spll) (h : Ok que Q s) : Ok que Q (s.modSpll n f) := h
theorem State.modGen_ok (n : Nat) (f : Gen → Gen) (h : Ok que Q s) : Ok que Q (s.modGen n f) := h
theorem State.modRegion_ok (n : Nat) (f : Region → Region) (h : Ok que Q s) : Ok que Q (s.modRegion n f) := h
theorem State.modRed_ok (n : Nat) (f : Red → Red) (h : Ok que Q s) : Ok que Q (s.modRed n f) := h
theorem State.modTic_ok (n : Nat) (f : Tic → Tic) (h : Ok que Q s) : Ok que Q (s.modTic n f) := h
theorem State.modMc_ok (n : Nat) (f : Mc → Mc) (h : Ok que Q s) : Ok que Q (s.modMc n f) := h

theorem State.addPulse_ok (i : Nat) (edge : Tu) (h : Ok que Q s) : Ok que Q (s.addPulse i edge) := by
  unfold State.addPulse
  exact ite_ok h (State.bump_ok rfl _ _ h)

end Sys2Proof.Machine
end

