-- ==== Sys2Proof/Laws/KeepOps.lean ====
section
/-! SUPPORT. What every operation of Machine/Ops.lean keeps: the invariant, and the queue of waiting commands. -/

set_option linter.unusedTactic false
set_option linter.unreachableTactic false
set_option linter.unusedSimpArgs false

namespace Sys2Proof.Machine

variable {que : List Instr} {Q : Saying} {s : State}

theorem State.diagClear_ok (ls : List Nat) (hs : Ok que Q s) :
    Ok que Q (s.diagClear ls) := by
  unfold State.diagClear
  repeat' first
    | with_reducible first | assumption | intro _ | apply State.setReg_ok | apply State.setFld_ok | apply foldl_ok | apply foldl_fst_ok
    | exact rfl
    | (simp only [ok_mk]; with_reducible apply core_ok)
    | (try dsimp only); split

end Sys2Proof.Machine
end

