-- ==== Sys2Proof/Laws/KeepFlags.lean ====
section
/-! SUPPORT. What every operation of Machine/Flags.lean keeps: the invariant, and the queue of waiting commands. -/

set_option linter.unusedTactic false
set_option linter.unreachableTactic false
set_option linter.unusedSimpArgs false

namespace Sys2Proof.Machine

variable {que : List Instr} {Q : Saying} {s : State}

theorem State.logAdd_ok (source kind detail : Nat) (data : Word) (hs : Ok que Q s) :
    Ok que Q (s.logAdd source kind detail data) := by
  unfold State.logAdd
  repeat' first
    | with_reducible first | assumption | intro _ | apply State.setFld_ok | apply State.bump_ok | apply ite_ok
    | exact rfl
    | (simp only [ok_mk]; with_reducible apply core_ok)
    | (try dsimp only); split

theorem State.logNote_ok (kind detail : Nat) (data : Word) (hs : Ok que Q s) :
    Ok que Q (s.logNote kind detail data) := by
  unfold State.logNote
  repeat' first
    | with_reducible first | assumption | intro _ | apply State.logAdd_ok | apply ite_ok
    | exact rfl
    | (simp only [ok_mk]; with_reducible apply core_ok)
    | (try dsimp only); split

theorem State.logRaise_ok (n : Nat) (data : Word) (hs : Ok que Q s) :
    Ok que Q (s.logRaise n data) := by
  unfold State.logRaise
  repeat' first
    | with_reducible first | assumption | intro _ | apply State.logAdd_ok | apply ite_ok
    | exact rfl
    | (simp only [ok_mk]; with_reducible apply core_ok)
    | (try dsimp only); split

theorem State.firePulse_ok (i : Nat) (tts : Tu) (hs : Ok que Q s) :
    Ok que Q (s.firePulse i tts) := by
  unfold State.firePulse
  repeat' first
    | with_reducible first | assumption | intro _ | apply State.addPulse_ok
    | exact rfl
    | (simp only [ok_mk]; with_reducible apply core_ok)
    | (try dsimp only); split

theorem State.setStatus_ok (n : Nat) (b : Bool) (hs : Ok que Q s) :
    Ok que Q (s.setStatus n b) := by
  unfold State.setStatus
  repeat' first
    | with_reducible first | assumption | intro _ | apply State.setReg_ok
    | exact rfl
    | (simp only [ok_mk]; with_reducible apply core_ok)
    | (try dsimp only); split

theorem State.setMsixWord_ok (k : Nat) (v : Word) (hs : Ok que Q s) :
    Ok que Q (s.setMsixWord k v) := by
  unfold State.setMsixWord
  repeat' first
    | with_reducible first | assumption | intro _ | apply ite_ok
    | exact rfl
    | (simp only [ok_mk]; with_reducible apply core_ok)
    | (try dsimp only); split

theorem State.setArmed_ok (v : Nat) (b : Bool) (hs : Ok que Q s) :
    Ok que Q (s.setArmed v b) := by
  unfold State.setArmed
  repeat' first
    | with_reducible first | assumption | intro _ | apply State.setReg_ok | apply ite_ok
    | exact rfl
    | (simp only [ok_mk]; with_reducible apply core_ok)
    | (try dsimp only); split

theorem State.setPba_ok (v : Nat) (b : Bool) (hs : Ok que Q s) :
    Ok que Q (s.setPba v b) := by
  unfold State.setPba
  repeat' first
    | with_reducible first | assumption | intro _ | apply ite_ok
    | exact rfl
    | (simp only [ok_mk]; with_reducible apply core_ok)
    | (try dsimp only); split

theorem State.signal_ok (v : Nat) (hs : Ok que Q s) :
    Ok que Q (s.signal v) := by
  unfold State.signal
  repeat' first
    | with_reducible first | assumption | intro _ | apply State.setPba_ok | apply State.emit_ok | apply State.setArmed_ok | apply ite_ok
    | exact rfl
    | (simp only [ok_mk]; with_reducible apply core_ok)
    | (try dsimp only); split

theorem State.tlkSend_ok (m : BitVec 64) (hs : Ok que Q s) :
    Ok que Q (s.tlkSend m) := by
  unfold State.tlkSend
  repeat' first
    | with_reducible first | assumption | intro _ | apply State.emit_ok | apply ite_ok
    | exact rfl
    | (simp only [ok_mk]; with_reducible apply core_ok)
    | (try dsimp only); split

theorem State.deliver_ok (n : Nat) (hs : Ok que Q s) :
    Ok que Q (s.deliver n) := by
  unfold State.deliver
  repeat' first
    | with_reducible first | assumption | intro _ | apply State.signal_ok | apply State.logRaise_ok | apply State.setStatus_ok | apply State.setReg_ok | apply State.used_ok | apply State.addPulse_ok | apply State.tlkSend_ok | apply ite_ok
    | exact rfl
    | (simp only [ok_mk]; with_reducible apply core_ok)
    | (try dsimp only); split

theorem State.raise_ok (n causes info : Nat) (hs : Ok que Q s) :
    Ok que Q (s.raise n causes info) := by
  unfold State.raise
  repeat' first
    | with_reducible first | assumption | intro _ | apply State.setStatus_ok | apply State.setFld_ok | apply State.bump_ok | apply State.logRaise_ok | apply State.deliver_ok | apply ite_ok
    | exact rfl
    | (simp only [ok_mk]; with_reducible apply core_ok)
    | (try dsimp only); split

theorem State.raise0_ok (n : Nat) (hs : Ok que Q s) :
    Ok que Q (s.raise0 n) := by
  unfold State.raise0
  repeat' first
    | with_reducible first | assumption | intro _ | apply State.raise_ok
    | exact rfl
    | (simp only [ok_mk]; with_reducible apply core_ok)
    | (try dsimp only); split

theorem State.bumpRaise_ok (f : Fld) (i n causes info : Nat) (hs : Ok que Q s) (hf : hardWired f.reg = false) :
    Ok que Q (s.bumpRaise f i n causes info) := by
  unfold State.bumpRaise
  repeat' first
    | with_reducible first | assumption | intro _ | apply State.bump_ok | apply State.raise_ok | apply ite_ok
    | exact rfl
    | (simp only [ok_mk]; with_reducible apply core_ok)
    | (try dsimp only); split

theorem State.logNoteDrop_ok (s0 s : State) (hs : Ok que Q s) :
    Ok que Q (State.logNoteDrop s0 s) := by
  unfold State.logNoteDrop
  repeat' first
    | with_reducible first | assumption | intro _ | apply State.raise0_ok | apply ite_ok
    | exact rfl
    | (simp only [ok_mk]; with_reducible apply core_ok)
    | (try dsimp only); split

theorem State.mergeNote_ok (n : Nat) (s0 : State) (hs : Ok que Q s) : Ok que Q (State.mergeNote n s0 s) := by
  induction n generalizing s0 s with
  | zero => exact hs
  | succ n ih => exact ih _ (State.each_ok (fun _ _ h => ite_ok (State.raise0_ok _ h) h) hs)

theorem State.done_ok (s0 s : State) (hs : Ok que AnyTime s) :
    OkOut que (State.done s0 s) := by
  unfold State.done
  repeat' first
    | with_reducible first | assumption | intro _ | apply State.logNoteDrop_ok | apply State.mergeNote_ok | apply ite_ok | apply next_ok | apply ite_out_ok
    | exact rfl
    | (simp only [ok_mk]; with_reducible apply core_any_ok)
    | (try dsimp only); split

theorem State.when_ok (t : Tu) (f : State → State) (hs : Ok que AnyTime s) (hf : ∀ s, Ok que AnyTime s → Ok que AnyTime (f s)) :
    OkOut que (s.when t f) := by
  unfold State.when
  repeat' first
    | with_reducible first | assumption | intro _ | apply State.done_ok | apply State.at_ok | apply hf | apply ite_ok | apply next_ok | apply ite_out_ok
    | exact rfl
    | (simp only [ok_mk]; with_reducible apply core_any_ok)
    | (try dsimp only); split

theorem State.whenHost_ok (t : Tu) (f : State → State) (hs : Ok que AnyTime s) (hf : ∀ s, Ok que AnyTime s → Ok que AnyTime (f s)) :
    OkOut que (s.whenHost t f) := by
  unfold State.whenHost
  repeat' first
    | with_reducible first | assumption | intro _ | apply State.done_ok | apply State.at_ok | apply hf | apply ite_ok | apply next_ok | apply ite_out_ok
    | exact rfl
    | (simp only [ok_mk]; with_reducible apply core_any_ok)
    | (try dsimp only); split

end Sys2Proof.Machine
end

