-- ==== Sys2Proof/Laws/KeepOperands.lean ====
section
/-! SUPPORT. What every operation of Machine/Operands.lean keeps: the invariant, and the queue of waiting commands. -/

set_option linter.unusedTactic false
set_option linter.unreachableTactic false
set_option linter.unusedSimpArgs false

namespace Sys2Proof.Machine

variable {que : List Instr} {Q : Saying} {s : State}

theorem State.bar2Put_ok (a : Nat) (bs : List Byte) (h : Ok que Q s) : Ok que Q (s.bar2Put a bs) := by
  induction bs generalizing s a with
  | nil => exact h
  | cons b bs ih =>
    refine ih _ (ite_ok ?_ h)
    exact ⟨⟨h.1.1, Memory.wf_memPut _ _ _ h.1.2⟩, h.2⟩

end Sys2Proof.Machine
end

