-- ==== Sys2Proof/Laws/KeepDma.lean ====
section
/-! SUPPORT. What every operation of Machine/Dma.lean keeps: the invariant, and the queue of waiting commands. -/

set_option linter.unusedTactic false
set_option linter.unreachableTactic false
set_option linter.unusedSimpArgs false

namespace Sys2Proof.Machine

variable {que : List Instr} {Q : Saying} {s : State}

theorem State.setQState_ok (q x : Nat) (hs : Ok que Q s) :
    Ok que Q (s.setQState q x) := by
  unfold State.setQState
  repeat' first
    | with_reducible first | assumption | intro _ | apply State.setFld_ok
    | exact rfl
    | (simp only [ok_mk]; with_reducible apply core_ok)
    | (try dsimp only); split

theorem State.qEvent_ok (q bit : Nat) (hs : Ok que Q s) :
    Ok que Q (s.qEvent q bit) := by
  unfold State.qEvent
  repeat' first
    | with_reducible first | assumption | intro _ | apply State.raise_ok
    | exact rfl
    | (simp only [ok_mk]; with_reducible apply core_ok)
    | (try dsimp only); split

theorem State.complete_ok (q : Nat) (accept : Frame) (bytes ofs status : Nat) (last : Frame) (hs : Ok que Q s) :
    Ok que Q (s.complete q accept bytes ofs status last) := by
  unfold State.complete
  repeat' first
    | with_reducible first | assumption | intro _ | apply State.emit_ok | apply State.setFld_ok | apply State.modQueue_ok | apply State.bump_ok | apply ite_ok
    | exact rfl
    | (simp only [ok_mk]; with_reducible apply core_ok)
    | (try dsimp only); split

theorem State.addLost_ok (q n : Nat) (hs : Ok que Q s) :
    Ok que Q (s.addLost q n) := by
  unfold State.addLost
  repeat' first
    | with_reducible first | assumption | intro _ | apply State.setPair_ok
    | exact rfl
    | (simp only [ok_mk]; with_reducible apply core_ok)
    | (try dsimp only); split

theorem State.recordOrLose_ok (q : Nat) (accept : Frame) (bytes ofs status : Nat) (last : Frame) (hs : Ok que Q s) :
    Ok que Q (s.recordOrLose q accept bytes ofs status last) := by
  unfold State.recordOrLose
  repeat' first
    | with_reducible first | assumption | intro _ | apply State.addLost_ok | apply State.complete_ok | apply ite_ok
    | exact rfl
    | (simp only [ok_mk]; with_reducible apply core_ok)
    | (try dsimp only); split

theorem State.syncStaged_ok (q : Nat) (hs : Ok que Q s) :
    Ok que Q (s.syncStaged q) := by
  unfold State.syncStaged
  repeat' first
    | with_reducible first | assumption | intro _ | apply State.setFld_ok
    | exact rfl
    | (simp only [ok_mk]; with_reducible apply core_ok)
    | (try dsimp only); split

theorem State.syncInflight_ok (hs : Ok que Q s) :
    Ok que Q (s.syncInflight) := by
  unfold State.syncInflight
  repeat' first
    | with_reducible first | assumption | intro _ | apply State.setFld_ok
    | exact rfl
    | (simp only [ok_mk]; with_reducible apply core_ok)
    | (try dsimp only); split

theorem State.qError_ok (q cause : Nat) (hs : Ok que Q s) :
    Ok que Q (s.qError q cause) := by
  unfold State.qError
  repeat' first
    | with_reducible first | assumption | intro _ | apply State.setQState_ok | apply State.setFld_ok | apply State.modQueue_ok | apply State.qEvent_ok
    | exact rfl
    | (simp only [ok_mk]; with_reducible apply core_ok)
    | (try dsimp only); split

theorem State.qOff_ok (q : Nat) (hs : Ok que Q s) :
    Ok que Q (s.qOff q) := by
  unfold State.qOff
  repeat' first
    | with_reducible first | assumption | intro _ | apply State.setQState_ok | apply State.modQueue_ok | apply State.syncStaged_ok | apply State.syncInflight_ok
    | exact rfl
    | (simp only [ok_mk]; with_reducible apply core_ok)
    | (try dsimp only); split

theorem State.enableStream_ok (host : List HostRead) (q : Nat) (hs : Ok que Q s) :
    Ok que Q (s.enableStream host q) := by
  unfold State.enableStream
  repeat' first
    | with_reducible first | assumption | intro _ | apply State.qError_ok | apply State.recordOrLose_ok | apply State.setQState_ok | apply State.setFld_ok | apply State.modQueue_ok | apply State.syncInflight_ok | apply ite_ok
    | exact rfl
    | (simp only [ok_mk]; with_reducible apply core_ok)
    | (try dsimp only); split

theorem State.beginDrain_ok (q : Nat) (hs : Ok que Q s) :
    Ok que Q (s.beginDrain q) := by
  unfold State.beginDrain
  repeat' first
    | with_reducible first | assumption | intro _ | apply State.setQState_ok | apply State.modQueue_ok | apply ite_ok
    | exact rfl
    | (simp only [ok_mk]; with_reducible apply core_ok)
    | (try dsimp only); split

theorem State.commitEn_ok (host : List HostRead) (q : Nat) (en : Bool) (hs : Ok que Q s) :
    Ok que Q (s.commitEn host q en) := by
  unfold State.commitEn
  repeat' first
    | with_reducible first | assumption | intro _ | apply State.enableStream_ok | apply State.setQState_ok | apply State.setFld_ok | apply State.modQueue_ok | apply State.beginDrain_ok | apply ite_ok
    | exact rfl
    | (simp only [ok_mk]; with_reducible apply core_ok)
    | (try dsimp only); split

theorem State.produce_ok (kind unit : Nat) (bytes : List Byte) (t : Tu) (hs : Ok que Q s) :
    Ok que Q (State.produce s kind unit bytes t) := by
  unfold State.produce
  repeat' first
    | with_reducible first | assumption | intro _ | apply State.each_ok | apply ite_ok
    | exact rfl
    | (simp only [ok_mk]; with_reducible apply core_ok)
    | (try dsimp only); split

theorem State.stageMem_ok (q : Nat) (bytes : List Byte) (hs : Ok que Q s) :
    Ok que Q (State.stageMem s q bytes) := by
  unfold State.stageMem
  repeat' first
    | with_reducible first | assumption | intro _ | apply State.modQueue_ok
    | exact rfl
    | (simp only [ok_mk]; with_reducible first | apply core_ok | apply core_mem_ok (Memory.wf_memPutAll _ _ _) | apply core_mem_ok (Memory.wf_filter _ _) | exact core_mem_ok (fun hm => Memory.wf_memPutAll _ _ _ (Memory.wf_memPutAll _ _ _ hm)) (by assumption))
    | (try dsimp only); split

theorem State.stage_ok (q : Nat) (bytes : List Byte) (hs : Ok que Q s) :
    Ok que Q (s.stage q bytes) := by
  unfold State.stage
  repeat' first
    | with_reducible first | assumption | intro _ | apply State.raise_ok | apply State.modQueue_ok | apply State.qEvent_ok | apply State.stageMem_ok | apply State.syncStaged_ok | apply ite_ok
    | exact rfl
    | (simp only [ok_mk]; with_reducible apply core_ok)
    | (try dsimp only); split

theorem State.stageDue_ok (hs : Ok que Q s) :
    Ok que Q (State.stageDue s) := by
  unfold State.stageDue
  repeat' first
    | with_reducible first | assumption | intro _ | apply State.stage_ok | apply foldl_ok | apply foldl_fst_ok
    | exact rfl
    | (simp only [ok_mk]; with_reducible apply core_ok)
    | (try dsimp only); split

theorem State.shareViol_ok (n : Nat) (hs : Ok que Q s) :
    Ok que Q (State.shareViol s n) := by
  unfold State.shareViol
  repeat' first
    | with_reducible first | assumption | intro _ | apply State.bump_ok | apply State.raise_ok | apply ite_ok
    | exact rfl
    | (simp only [ok_mk]; with_reducible apply core_ok)
    | (try dsimp only); split

theorem State.stallMax_ok (n : Nat) (hs : Ok que Q s) :
    Ok que Q (State.stallMax s n) := by
  unfold State.stallMax
  repeat' first
    | with_reducible first | assumption | intro _ | apply State.setFld_ok | apply State.raise_ok | apply ite_ok
    | exact rfl
    | (simp only [ok_mk]; with_reducible apply core_ok)
    | (try dsimp only); split

theorem State.stalled_ok (a : Tu) (hs : Ok que Q s) :
    Ok que Q (State.stalled s a) := by
  unfold State.stalled
  repeat' first
    | with_reducible first | assumption | intro _ | apply State.stallMax_ok | apply State.shareViol_ok | apply ite_ok
    | exact rfl
    | (simp only [ok_mk]; with_reducible apply core_ok)
    | (try dsimp only); split

theorem State.noteBlocked_ok (hs : Ok que Q s) :
    Ok que Q (State.noteBlocked s) := by
  unfold State.noteBlocked
  repeat' first
    | with_reducible first | assumption | intro _ | apply State.stalled_ok
    | exact rfl
    | (simp only [ok_mk]; with_reducible apply core_ok)
    | (try dsimp only); split

theorem State.stallTick_ok (hs : Ok que Q s) :
    Ok que Q (State.stallTick s) := by
  unfold State.stallTick
  repeat' first
    | with_reducible first | assumption | intro _ | apply State.stallMax_ok | apply State.shareViol_ok | apply ite_ok
    | exact rfl
    | (simp only [ok_mk]; with_reducible apply core_ok)
    | (try dsimp only); split

theorem State.writeCirc_ok (q : Nat) (c : Circ) (bytes : List Byte) (poison : Bool) (hs : Ok que Q s) :
    Ok que Q (s.writeCirc q c bytes poison) := by
  unfold State.writeCirc
  repeat' first
    | with_reducible first | assumption | intro _ | apply State.emit_ok | apply State.setFld_ok | apply ite_ok
    | exact rfl
    | (simp only [ok_mk]; with_reducible apply core_ok)
    | (try dsimp only); split

theorem State.deliverOldest_ok (q : Nat) (ue : Bool) (hs : Ok que Q s) :
    Ok que Q (s.deliverOldest q ue) := by
  unfold State.deliverOldest
  repeat' first
    | with_reducible first | assumption | intro _ | apply State.complete_ok | apply State.modQueue_ok | apply State.writeCirc_ok | apply State.syncStaged_ok | apply ite_ok
    | exact rfl
    | (simp only [ok_mk]; with_reducible apply core_ok)
    | (try dsimp only); split

theorem State.fetchDescs_ok (q : Nat) (ds : List (List Byte)) (hs : Ok que Q s) :
    Ok que Q (s.fetchDescs q ds) := by
  unfold State.fetchDescs
  repeat' first
    | with_reducible first | assumption | intro _ | apply State.modQueue_ok | apply State.setFld_ok | apply State.syncInflight_ok | apply ite_ok
    | exact rfl
    | (simp only [ok_mk]; with_reducible apply core_ok)
    | (try dsimp only); split

theorem State.finishXfer_ok (q : Nat) (ue : Bool) (hs : Ok que Q s) :
    Ok que Q (s.finishXfer q ue) := by
  unfold State.finishXfer
  repeat' first
    | with_reducible first | assumption | intro _ | apply State.emit_ok | apply State.complete_ok | apply State.modQueue_ok | apply State.syncInflight_ok | apply State.qEvent_ok | apply ite_ok
    | exact rfl
    | (simp only [ok_mk]; with_reducible apply core_ok)
    | (try dsimp only); split

theorem State.abortRecord_ok (q : Nat) (hs : Ok que Q s) :
    Ok que Q (s.abortRecord q) := by
  unfold State.abortRecord
  repeat' first
    | with_reducible first | assumption | intro _ | apply State.recordOrLose_ok | apply State.used_ok
    | exact rfl
    | (simp only [ok_mk]; with_reducible apply core_ok)
    | (try dsimp only); split

theorem State.abortXfers_ok (q : Nat) (hs : Ok que Q s) :
    Ok que Q (s.abortXfers q) := by
  unfold State.abortXfers
  repeat' first
    | with_reducible first | assumption | intro _ | apply State.recordOrLose_ok | apply foldl_ok | apply foldl_fst_ok
    | exact rfl
    | (simp only [ok_mk]; with_reducible apply core_ok)
    | (try dsimp only); split

theorem State.abortQueue_ok (q : Nat) (hs : Ok que Q s) :
    Ok que Q (s.abortQueue q) := by
  unfold State.abortQueue
  repeat' first
    | with_reducible first | assumption | intro _ | apply State.abortRecord_ok | apply State.abortXfers_ok | apply State.qOff_ok | apply State.qEvent_ok | apply ite_ok
    | exact rfl
    | (simp only [ok_mk]; with_reducible apply core_ok)
    | (try dsimp only); split

theorem State.drained_ok (q : Nat) (hs : Ok que Q s) :
    Ok que Q (s.drained q) := by
  unfold State.drained
  repeat' first
    | with_reducible first | assumption | intro _ | apply State.qOff_ok | apply State.qEvent_ok | apply ite_ok
    | exact rfl
    | (simp only [ok_mk]; with_reducible apply core_ok)
    | (try dsimp only); split

theorem State.refetch_ok (host : List HostRead) (q : Nat) (hs : Ok que Q s) :
    Ok que Q (s.refetch host q) := by
  unfold State.refetch
  repeat' first
    | with_reducible first | assumption | intro _ | apply State.modQueue_ok | apply State.qEvent_ok | apply ite_ok
    | exact rfl
    | (simp only [ok_mk]; with_reducible apply core_ok)
    | (try dsimp only); split

theorem State.closeFrame_ok (q : Nat) (hs : Ok que Q s) :
    Ok que Q (s.closeFrame q) := by
  unfold State.closeFrame
  repeat' first
    | with_reducible first | assumption | intro _ | apply State.modQueue_ok
    | exact rfl
    | (simp only [ok_mk]; with_reducible apply core_ok)
    | (try dsimp only); split

theorem State.discardCovered_ok (q : Nat) (hs : Ok que Q s) :
    Ok que Q (s.discardCovered q) := by
  unfold State.discardCovered
  repeat' first
    | with_reducible first | assumption | intro _ | apply State.modQueue_ok | apply State.syncStaged_ok
    | exact rfl
    | (simp only [ok_mk]; with_reducible apply core_ok)
    | (try dsimp only); split

theorem State.lateCheck_ok (q : Nat) (hs : Ok que Q s) :
    Ok que Q (s.lateCheck q) := by
  unfold State.lateCheck
  repeat' first
    | with_reducible first | assumption | intro _ | apply State.qEvent_ok | apply ite_ok
    | exact rfl
    | (simp only [ok_mk]; with_reducible apply core_ok)
    | (try dsimp only); split

theorem State.fullCheck_ok (q : Nat) (hs : Ok que Q s) :
    Ok que Q (s.fullCheck q) := by
  unfold State.fullCheck
  repeat' first
    | with_reducible first | assumption | intro _ | apply State.setQState_ok | apply State.modQueue_ok | apply State.qEvent_ok | apply ite_ok
    | exact rfl
    | (simp only [ok_mk]; with_reducible apply core_ok)
    | (try dsimp only); split

theorem State.cplCheck_ok (q : Nat) (hs : Ok que Q s) :
    Ok que Q (s.cplCheck q) := by
  unfold State.cplCheck
  repeat' first
    | with_reducible first | assumption | intro _ | apply State.qEvent_ok | apply State.modQueue_ok | apply ite_ok
    | exact rfl
    | (simp only [ok_mk]; with_reducible apply core_ok)
    | (try dsimp only); split

theorem State.queueTick_ok (host : List HostRead) (fresh : List Nat) (q : Nat) (hs : Ok que Q s) :
    Ok que Q (s.queueTick host fresh q) := by
  unfold State.queueTick
  repeat' first
    | with_reducible first | assumption | intro _ | apply State.refetch_ok | apply State.closeFrame_ok | apply State.discardCovered_ok | apply State.fullCheck_ok | apply State.lateCheck_ok | apply State.cplCheck_ok | apply ite_ok
    | exact rfl
    | (simp only [ok_mk]; with_reducible apply core_ok)
    | (try dsimp only); split

theorem execHostBudget_ok (t : Tu) (stall : Word) (hs : Ok que AnyTime s) :
    OkOut que (execHostBudget t stall s) := by
  unfold execHostBudget
  repeat' first
    | with_reducible first | assumption | intro _ | apply State.when_ok | apply State.stalled_ok | apply ite_ok | apply next_ok | apply ite_out_ok
    | exact rfl
    | (simp only [ok_mk]; with_reducible apply core_any_ok)
    | (try dsimp only); split

theorem execStreamAccept_ok (t : Tu) (q : Fin 64) (hs : Ok que AnyTime s) :
    OkOut que (execStreamAccept t q s) := by
  unfold execStreamAccept
  repeat' first
    | with_reducible first | assumption | intro _ | apply State.when_ok | apply State.stage_ok | apply ite_ok | apply next_ok | apply ite_out_ok
    | exact rfl
    | (simp only [ok_mk]; with_reducible apply core_any_ok)
    | (try dsimp only); split

theorem State.linkTrained_ok (gen width : Nat) (hs : Ok que Q s) :
    Ok que Q (s.linkTrained gen width) := by
  unfold State.linkTrained
  repeat' first
    | with_reducible first | assumption | intro _ | apply State.setFld_ok | apply State.raise0_ok | apply ite_ok
    | exact rfl
    | (simp only [ok_mk]; with_reducible apply core_ok)
    | (try dsimp only); split

theorem execLinkBelowBudget_ok (t : Tu) (gen : Fin 6) (width : Fin 9) (hs : Ok que AnyTime s) :
    OkOut que (execLinkBelowBudget t gen width s) := by
  unfold execLinkBelowBudget
  repeat' first
    | with_reducible first | assumption | intro _ | apply State.whenHost_ok | apply State.linkTrained_ok | apply ite_ok | apply next_ok | apply ite_out_ok
    | exact rfl
    | (simp only [ok_mk]; with_reducible apply core_any_ok)
    | (try dsimp only); split

theorem execLinkBackToBudget_ok (t : Tu) (gen : Fin 6) (width : Fin 9) (hs : Ok que AnyTime s) :
    OkOut que (execLinkBackToBudget t gen width s) := by
  unfold execLinkBackToBudget
  repeat' first
    | with_reducible first | assumption | intro _ | apply State.whenHost_ok | apply State.linkTrained_ok | apply ite_ok | apply next_ok | apply ite_out_ok
    | exact rfl
    | (simp only [ok_mk]; with_reducible apply core_any_ok)
    | (try dsimp only); split

theorem execStagedDelivery_ok (t : Tu) (q : Fin 64) (ue : Bool) (hs : Ok que AnyTime s) :
    OkOut que (execStagedDelivery t q ue s) := by
  unfold execStagedDelivery
  repeat' first
    | with_reducible first | assumption | intro _ | apply State.whenHost_ok | apply State.deliverOldest_ok | apply State.noteBlocked_ok | apply ite_ok | apply next_ok | apply ite_out_ok
    | exact rfl
    | (simp only [ok_mk]; with_reducible apply core_any_ok)
    | (try dsimp only); split

theorem State.postDesc_ok (q idx : Nat) (hs : Ok que Q s) :
    Ok que Q (s.postDesc q idx) := by
  unfold State.postDesc
  repeat' first
    | with_reducible first | assumption | intro _ | apply State.setFld_ok | apply ite_ok
    | exact rfl
    | (simp only [ok_mk]; with_reducible apply core_ok)
    | (try dsimp only); split

theorem execDescriptorPost_ok (t : Tu) (q : Fin 64) (idx : BitVec 13) (hs : Ok que AnyTime s) :
    OkOut que (execDescriptorPost t q idx s) := by
  unfold execDescriptorPost
  repeat' first
    | with_reducible first | assumption | intro _ | apply State.whenHost_ok | apply State.postDesc_ok | apply ite_ok | apply next_ok | apply ite_out_ok
    | exact rfl
    | (simp only [ok_mk]; with_reducible apply core_any_ok)
    | (try dsimp only); split

theorem State.writeRingBase_ok (q : Nat) (r : RingReg) (v : Word) (hs : Ok que Q s) :
    Ok que Q (s.writeRingBase q r v) := by
  unfold State.writeRingBase
  repeat' first
    | with_reducible first | assumption | intro _ | apply State.setReg_ok | apply State.setFld_ok | apply State.modQueue_ok | apply ite_ok
    | exact rfl
    | (simp only [ok_mk]; with_reducible apply core_ok)
    | (try dsimp only); split

theorem execRingBaseWrite_ok (t : Tu) (q : Fin 64) (r : RingReg) (v : Word) (hs : Ok que AnyTime s) :
    OkOut que (execRingBaseWrite t q r v s) := by
  unfold execRingBaseWrite
  repeat' first
    | with_reducible first | assumption | intro _ | apply State.whenHost_ok | apply State.writeRingBase_ok | apply ite_ok | apply next_ok | apply ite_out_ok
    | exact rfl
    | (simp only [ok_mk]; with_reducible apply core_any_ok)
    | (try dsimp only); split

theorem execDescriptorFetch_ok (t : Tu) (q : Fin 64) (ds : List (List Byte)) (hs : Ok que AnyTime s) :
    OkOut que (execDescriptorFetch t q ds s) := by
  unfold execDescriptorFetch
  repeat' first
    | with_reducible first | assumption | intro _ | apply State.whenHost_ok | apply State.fetchDescs_ok | apply ite_ok | apply next_ok | apply ite_out_ok
    | exact rfl
    | (simp only [ok_mk]; with_reducible apply core_any_ok)
    | (try dsimp only); split

theorem execXferComplete_ok (t : Tu) (q : Fin 64) (ue : Bool) (hs : Ok que AnyTime s) :
    OkOut que (execXferComplete t q ue s) := by
  unfold execXferComplete
  repeat' first
    | with_reducible first | assumption | intro _ | apply State.whenHost_ok | apply State.finishXfer_ok | apply ite_ok | apply next_ok | apply ite_out_ok
    | exact rfl
    | (simp only [ok_mk]; with_reducible apply core_any_ok)
    | (try dsimp only); split

theorem execQueueDrained_ok (t : Tu) (q : Fin 64) (hs : Ok que AnyTime s) :
    OkOut que (execQueueDrained t q s) := by
  unfold execQueueDrained
  repeat' first
    | with_reducible first | assumption | intro _ | apply State.when_ok | apply State.drained_ok | apply ite_ok | apply next_ok | apply ite_out_ok
    | exact rfl
    | (simp only [ok_mk]; with_reducible apply core_any_ok)
    | (try dsimp only); split

theorem execQueueAbort_ok (t : Tu) (q : Fin 64) (hs : Ok que AnyTime s) :
    OkOut que (execQueueAbort t q s) := by
  unfold execQueueAbort
  repeat' first
    | with_reducible first | assumption | intro _ | apply State.whenHost_ok | apply State.abortQueue_ok | apply ite_ok | apply next_ok | apply ite_out_ok
    | exact rfl
    | (simp only [ok_mk]; with_reducible apply core_any_ok)
    | (try dsimp only); split

end Sys2Proof.Machine
end

