-- ==== Sys2Proof/Laws/KeepAfe.lean ====
section
/-! SUPPORT. What every operation of Machine/Afe.lean keeps: the invariant, and the queue of waiting commands. -/

set_option linter.unusedTactic false
set_option linter.unreachableTactic false
set_option linter.unusedSimpArgs false

namespace Sys2Proof.Machine

variable {que : List Instr} {Q : Saying} {s : State}

theorem State.afeEvent_ok (ch k : Nat) (hs : Ok que Q s) :
    Ok que Q (s.afeEvent ch k) := by
  unfold State.afeEvent
  repeat' first
    | with_reducible first | assumption | intro _ | apply State.raise0_ok | apply ite_ok
    | exact rfl
    | (simp only [ok_mk]; with_reducible apply core_ok)
    | (try dsimp only); split

theorem State.settle_ok (ch n : Nat) (hs : Ok que Q s) :
    Ok que Q (s.settle ch n) := by
  unfold State.settle
  repeat' first
    | with_reducible first | assumption | intro _ | apply State.modAfe_ok | apply State.setFld_ok | apply ite_ok
    | exact rfl
    | (simp only [ok_mk]; with_reducible apply core_ok)
    | (try dsimp only); split

theorem State.writeTerm_ok (ch : Nat) (x : Nat) (hs : Ok que Q s) :
    Ok que Q (s.writeTerm ch x) := by
  unfold State.writeTerm
  repeat' first
    | with_reducible first | assumption | intro _ | apply State.setFld_ok | apply State.settle_ok | apply ite_ok
    | exact rfl
    | (simp only [ok_mk]; with_reducible apply core_ok)
    | (try dsimp only); split

theorem State.writeVtt_ok (ch : Nat) (x : Nat) (hs : Ok que Q s) :
    Ok que Q (s.writeVtt ch x) := by
  unfold State.writeVtt
  repeat' first
    | with_reducible first | assumption | intro _ | apply State.setFld_ok | apply State.settle_ok | apply ite_ok
    | exact rfl
    | (simp only [ok_mk]; with_reducible apply core_ok)
    | (try dsimp only); split

theorem execAfeTermWrite_ok (t : Tu) (ch : Fin 16) (w : TermWrite) (hs : Ok que AnyTime s) :
    OkOut que (execAfeTermWrite t ch w s) := by
  unfold execAfeTermWrite
  repeat' first
    | with_reducible first | assumption | intro _ | apply State.whenHost_ok | apply State.writeTerm_ok | apply State.writeVtt_ok | apply ite_ok | apply next_ok | apply ite_out_ok
    | exact rfl
    | (simp only [ok_mk]; with_reducible apply core_any_ok)
    | (try dsimp only); split

theorem execAfeSettleEnd_ok (t : Tu) (ch : Fin 16) (hs : Ok que AnyTime s) :
    OkOut que (execAfeSettleEnd t ch s) := by
  unfold execAfeSettleEnd
  repeat' first
    | with_reducible first | assumption | intro _ | apply State.when_ok | apply State.settle_ok | apply State.modAfe_ok | apply State.setFld_ok | apply ite_ok | apply next_ok | apply ite_out_ok
    | exact rfl
    | (simp only [ok_mk]; with_reducible apply core_any_ok)
    | (try dsimp only); split

theorem State.peak_ok (ch cls : Nat) (hs : Ok que Q s) :
    Ok que Q (s.peak ch cls) := by
  unfold State.peak
  repeat' first
    | with_reducible first | assumption | intro _ | apply State.setFld_ok
    | exact rfl
    | (simp only [ok_mk]; with_reducible apply core_ok)
    | (try dsimp only); split

theorem State.ovrSample_ok (ch : Nat) (hs : Ok que Q s) :
    Ok que Q (s.ovrSample ch) := by
  unfold State.ovrSample
  repeat' first
    | with_reducible first | assumption | intro _ | apply State.bump_ok | apply State.setFld_ok | apply State.afeEvent_ok | apply ite_ok
    | exact rfl
    | (simp only [ok_mk]; with_reducible apply core_ok)
    | (try dsimp only); split

theorem State.noteSample_ok (ch : Nat) (code : Int) (ovr : Bool) (hs : Ok que Q s) :
    Ok que Q (s.noteSample ch code ovr) := by
  unfold State.noteSample
  repeat' first
    | with_reducible first | assumption | intro _
    | exact rfl
    | (simp only [ok_mk]; with_reducible apply core_ok)
    | (try dsimp only); split

theorem State.backInside_ok (ch : Nat) (hs : Ok que Q s) :
    Ok que Q (State.backInside s ch) := by
  unfold State.backInside
  repeat' first
    | with_reducible first | assumption | intro _ | apply State.modAfe_ok | apply ite_ok
    | exact rfl
    | (simp only [ok_mk]; with_reducible apply core_ok)
    | (try dsimp only); split

theorem State.outside_ok (ch : Nat) (hs : Ok que Q s) :
    Ok que Q (State.outside s ch) := by
  unfold State.outside
  repeat' first
    | with_reducible first | assumption | intro _ | apply State.modAfe_ok | apply State.peak_ok
    | exact rfl
    | (simp only [ok_mk]; with_reducible apply core_ok)
    | (try dsimp only); split

theorem execAfeOverdrive_ok (t : Tu) (ch : Fin 16) (over4 : Bool) (hs : Ok que AnyTime s) :
    OkOut que (execAfeOverdrive t ch over4 s) := by
  unfold execAfeOverdrive
  repeat' first
    | with_reducible first | assumption | intro _ | apply State.when_ok | apply State.modAfe_ok | apply State.peak_ok | apply State.afeEvent_ok | apply ite_ok | apply next_ok | apply ite_out_ok
    | exact rfl
    | (simp only [ok_mk]; with_reducible apply core_any_ok)
    | (try dsimp only); split

theorem execOvrHoldEnd_ok (t : Tu) (ch : Fin 16) (hs : Ok que AnyTime s) :
    OkOut que (execOvrHoldEnd t ch s) := by
  unfold execOvrHoldEnd
  repeat' first
    | with_reducible first | assumption | intro _ | apply State.when_ok | apply State.modAfe_ok | apply ite_ok | apply next_ok | apply ite_out_ok
    | exact rfl
    | (simp only [ok_mk]; with_reducible apply core_any_ok)
    | (try dsimp only); split

theorem execAfeCmWindow_ok (t : Tu) (ch : Fin 16) (cm : BitVec 16) (hs : Ok que AnyTime s) :
    OkOut que (execAfeCmWindow t ch cm s) := by
  unfold execAfeCmWindow
  repeat' first
    | with_reducible first | assumption | intro _ | apply State.when_ok | apply State.setFld_ok | apply State.modAfe_ok | apply State.afeEvent_ok | apply ite_ok | apply next_ok | apply ite_out_ok
    | exact rfl
    | (simp only [ok_mk]; with_reducible apply core_any_ok)
    | (try dsimp only); split

end Sys2Proof.Machine
end

