-- ==== Sys2Proof/Laws/KeepMail.lean ====
section
/-! SUPPORT. What every operation of Machine/Mail.lean keeps: the invariant, and the queue of waiting commands. -/

set_option linter.unusedTactic false
set_option linter.unreachableTactic false
set_option linter.unusedSimpArgs false

namespace Sys2Proof.Machine

variable {que : List Instr} {Q : Saying} {s : State}

theorem State.logCmd_ok (cmd status : Nat) (hs : Ok que Q s) :
    Ok que Q (s.logCmd cmd status) := by
  unfold State.logCmd
  repeat' first
    | with_reducible first | assumption | intro _ | apply State.used_ok | apply State.logNote_ok | apply ite_ok
    | exact rfl
    | (simp only [ok_mk]; with_reducible apply core_ok)
    | (try dsimp only); split

theorem State.mbDone_ok (status : Nat) (res : List Word) (hs : Ok que Q s) :
    Ok que Q (s.mbDone status res) := by
  unfold State.mbDone
  repeat' first
    | with_reducible first | assumption | intro _ | apply State.each_ok | apply State.setReg_ok | apply State.setFld_ok | apply State.raise_ok
    | exact rfl
    | (simp only [ok_mk]; with_reducible apply core_ok)
    | (try dsimp only); split

theorem State.pitchLoading_ok (hs : Ok que Q s) :
    Ok que Q (State.pitchLoading s) := by
  unfold State.pitchLoading
  repeat' first
    | with_reducible first | assumption | intro _ | apply State.setFld_ok | apply ite_ok
    | exact rfl
    | (simp only [ok_mk]; with_reducible apply core_ok)
    | (try dsimp only); split

theorem State.pitchShown_ok (hs : Ok que Q s) :
    Ok que Q (State.pitchShown s) := by
  unfold State.pitchShown
  repeat' first
    | with_reducible first | assumption | intro _ | apply State.setFld_ok | apply ite_ok
    | exact rfl
    | (simp only [ok_mk]; with_reducible apply core_ok)
    | (try dsimp only); split

theorem State.mbRunning_ok (tag : Byte) (hs : Ok que Q s) :
    Ok que Q (s.mbRunning tag) := by
  unfold State.mbRunning
  repeat' first
    | with_reducible first | assumption | intro _ | apply State.setFld_ok | apply State.pitchLoading_ok
    | exact rfl
    | (simp only [ok_mk]; with_reducible apply core_ok)
    | (try dsimp only); split

theorem State.mbIssue_ok (tag : Byte) (cmd : Nat) (f : State → List Word → MbEnd) (hs : Ok que Q s) (hf : ∀ s a, Ok que Q s → Ok que Q (f s a).s) :
    Ok que Q (s.mbIssue tag cmd f) := by
  unfold State.mbIssue
  repeat' first
    | with_reducible first | assumption | intro _ | apply State.setFld_ok | apply State.mbRunning_ok | apply State.pitchShown_ok | apply State.mbDone_ok | apply State.logCmd_ok | apply ite_ok | apply hf
    | exact rfl
    | (simp only [ok_mk]; with_reducible apply core_ok)
    | (try dsimp only); split

theorem State.mbWhen_ok (t : Tu) (tag : Byte) (cmd : Nat) (f : State → List Word → MbEnd) (hs : Ok que AnyTime s) (hf : ∀ s a, Ok que AnyTime s → Ok que AnyTime (f s a).s) :
    OkOut que (s.mbWhen t tag cmd f) := by
  unfold State.mbWhen
  repeat' first
    | with_reducible first | assumption | intro _ | apply State.whenHost_ok | apply State.mbIssue_ok | apply ite_ok | apply next_ok | apply ite_out_ok | apply hf
    | exact rfl
    | (simp only [ok_mk]; with_reducible apply core_any_ok)
    | (try dsimp only); split

theorem mbFail_ok (status : Nat) (hs : Ok que Q s) :
    Ok que Q (mbFail s status).s := by
  unfold mbFail
  repeat' first
    | with_reducible first | assumption | intro _ | apply ite_mb_ok | apply ite_ok
    | exact rfl
    | (simp only [ok_mk]; with_reducible apply core_ok)
    | (try dsimp only); split

theorem State.mbAck_ok (hs : Ok que Q s) :
    Ok que Q (s.mbAck) := by
  unfold State.mbAck
  repeat' first
    | with_reducible first | assumption | intro _ | apply State.setFld_ok | apply ite_ok
    | exact rfl
    | (simp only [ok_mk]; with_reducible apply core_ok)
    | (try dsimp only); split

theorem execMbAck_ok (t : Tu) (hs : Ok que AnyTime s) :
    OkOut que (execMbAck t s) := by
  unfold execMbAck
  repeat' first
    | with_reducible first | assumption | intro _ | apply State.whenHost_ok | apply State.mbAck_ok | apply ite_ok | apply next_ok | apply ite_out_ok
    | exact rfl
    | (simp only [ok_mk]; with_reducible apply core_any_ok)
    | (try dsimp only); split

theorem execBadCmd_ok (t : Tu) (tag : Byte) (hs : Ok que AnyTime s) :
    OkOut que (execBadCmd t tag s) := by
  unfold execBadCmd
  repeat' first
    | with_reducible first | assumption | intro _ | apply State.whenHost_ok | apply State.mbWhen_ok | apply mbFail_ok | apply ite_ok | apply next_ok | apply ite_out_ok
    | exact rfl
    | (simp only [ok_mk]; with_reducible apply core_any_ok)
    | (try dsimp only); split

end Sys2Proof.Machine
end

