-- ==== Sys2Proof/Laws/KeepIlv.lean ====
section
/-! SUPPORT. What every operation of Machine/Ilv.lean keeps: the invariant, and the queue of waiting commands. -/

set_option linter.unusedTactic false
set_option linter.unreachableTactic false
set_option linter.unusedSimpArgs false

namespace Sys2Proof.Machine

variable {que : List Instr} {Q : Saying} {s : State}

theorem hardWired_posFld (p : Nat) : hardWired (posFld p).reg = false := by
  unfold posFld; (repeat' split) <;> rfl

theorem State.ilvEvent_ok (ln k : Nat) (hs : Ok que Q s) :
    Ok que Q (s.ilvEvent ln k) := by
  unfold State.ilvEvent
  repeat' first
    | with_reducible first | assumption | intro _ | apply State.raise_ok
    | exact rfl
    | (simp only [ok_mk]; with_reducible apply core_ok)
    | (try dsimp only); split

theorem State.startDwell_ok (ln : Nat) (t : Tu) (hs : Ok que Q s) :
    Ok que Q (State.startDwell s ln t) := by
  unfold State.startDwell
  repeat' first
    | with_reducible first | assumption | intro _ | apply State.modLane_ok | apply State.setFld_ok
    | exact rfl
    | (simp only [ok_mk]; with_reducible apply core_ok)
    | (try dsimp only); split

theorem State.restartDwell_ok (ln : Nat) (hs : Ok que Q s) :
    Ok que Q (s.restartDwell ln) := by
  unfold State.restartDwell
  repeat' first
    | with_reducible first | assumption | intro _ | apply State.startDwell_ok
    | exact rfl
    | (simp only [ok_mk]; with_reducible apply core_ok)
    | (try dsimp only); split

theorem State.abandonDwell_ok (ln : Nat) (hs : Ok que Q s) :
    Ok que Q (s.abandonDwell ln) := by
  unfold State.abandonDwell
  repeat' first
    | with_reducible first | assumption | intro _ | apply State.modLane_ok | apply State.setFld_ok
    | exact rfl
    | (simp only [ok_mk]; with_reducible apply core_ok)
    | (try dsimp only); split

theorem State.pauseLanes_ok (e : Nat) (hs : Ok que Q s) :
    Ok que Q (s.pauseLanes e) := by
  unfold State.pauseLanes
  repeat' first
    | with_reducible first | assumption | intro _ | apply State.each_ok | apply State.abandonDwell_ok | apply ite_ok
    | exact rfl
    | (simp only [ok_mk]; with_reducible apply core_ok)
    | (try dsimp only); split

theorem State.resumeLanes_ok (e : Nat) (hs : Ok que Q s) :
    Ok que Q (s.resumeLanes e) := by
  unfold State.resumeLanes
  repeat' first
    | with_reducible first | assumption | intro _ | apply State.each_ok | apply State.modLane_ok | apply State.setFld_ok | apply ite_ok
    | exact rfl
    | (simp only [ok_mk]; with_reducible apply core_ok)
    | (try dsimp only); split

theorem State.stepLanes_ok (hs : Ok que Q s) :
    Ok que Q (s.stepLanes) := by
  unfold State.stepLanes
  repeat' first
    | with_reducible first | assumption | intro _ | apply State.each_ok | apply State.setFld_ok | apply State.restartDwell_ok | apply ite_ok
    | exact rfl
    | (simp only [ok_mk]; with_reducible apply core_ok)
    | (try dsimp only); split

theorem State.makeStale_ok (ln : Nat) (hs : Ok que Q s) :
    Ok que Q (s.makeStale ln) := by
  unfold State.makeStale
  repeat' first
    | with_reducible first | assumption | intro _ | apply State.modLane_ok | apply State.setFld_ok | apply ite_ok
    | exact rfl
    | (simp only [ok_mk]; with_reducible apply core_ok)
    | (try dsimp only); split

theorem State.clearStale_ok (ln : Nat) (hs : Ok que Q s) :
    Ok que Q (s.clearStale ln) := by
  unfold State.clearStale
  repeat' first
    | with_reducible first | assumption | intro _ | apply State.modLane_ok | apply State.setFld_ok | apply State.ilvEvent_ok | apply ite_ok
    | exact rfl
    | (simp only [ok_mk]; with_reducible apply core_ok)
    | (try dsimp only); split

theorem State.refitTaps_ok (ln : Nat) (hs : Ok que Q s) :
    Ok que Q (s.refitTaps ln) := by
  unfold State.refitTaps
  repeat' first
    | with_reducible first | assumption | intro _ | apply State.modLane_ok
    | exact rfl
    | (simp only [ok_mk]; with_reducible apply core_ok)
    | (try dsimp only); split

theorem State.rampSettled_ok (e : Nat) (hs : Ok que Q s) :
    Ok que Q (s.rampSettled e) := by
  unfold State.rampSettled
  repeat' first
    | with_reducible first | assumption | intro _ | apply State.each_ok | apply State.makeStale_ok | apply State.refitTaps_ok | apply ite_ok
    | exact rfl
    | (simp only [ok_mk]; with_reducible apply core_ok)
    | (try dsimp only); split

theorem State.handover_ok (ln : Nat) (frame : Frame) (t : Tu) (hs : Ok que Q s) :
    Ok que Q (State.handover s ln frame t) := by
  unfold State.handover
  repeat' first
    | with_reducible first | assumption | intro _ | apply State.setFld_ok | apply State.setFrame_ok | apply State.modLane_ok | apply State.startDwell_ok | apply State.clearStale_ok | apply ite_ok | apply hardWired_posFld
    | exact rfl
    | (simp only [ok_mk]; with_reducible apply core_ok)
    | (try dsimp only); split

theorem State.applyUpdates_ok (ln : Nat) (hs : Ok que Q s) :
    Ok que Q (s.applyUpdates ln) := by
  unfold State.applyUpdates
  repeat' first
    | with_reducible first | assumption | intro _ | apply State.modLane_ok | apply foldl_ok | apply foldl_fst_ok
    | exact rfl
    | (simp only [ok_mk]; with_reducible apply core_ok)
    | (try dsimp only); split

theorem State.applyRestore_ok (ln : Nat) (hs : Ok que Q s) :
    Ok que Q (s.applyRestore ln) := by
  unfold State.applyRestore
  repeat' first
    | with_reducible first | assumption | intro _ | apply State.modLane_ok | apply State.clearStale_ok | apply ite_ok | apply foldl_ok | apply foldl_fst_ok
    | exact rfl
    | (simp only [ok_mk]; with_reducible apply core_ok)
    | (try dsimp only); split

theorem State.laneTick_ok (ln : Nat) (hs : Ok que Q s) :
    Ok que Q (s.laneTick ln) := by
  unfold State.laneTick
  repeat' first
    | with_reducible first | assumption | intro _ | apply State.applyUpdates_ok | apply State.applyRestore_ok | apply State.restartDwell_ok | apply ite_ok
    | exact rfl
    | (simp only [ok_mk]; with_reducible apply core_ok)
    | (try dsimp only); split

theorem State.handovers_ok (hs : Ok que Q s) :
    Ok que Q (s.handovers) := by
  unfold State.handovers
  repeat' first
    | with_reducible first | assumption | intro _ | apply State.each_ok | apply State.handover_ok | apply ite_ok
    | exact rfl
    | (simp only [ok_mk]; with_reducible apply core_ok)
    | (try dsimp only); split

theorem State.referenced_ok (ln : Nat) (ofs gain : Int) (hs : Ok que Q s) :
    Ok que Q (State.referenced s ln ofs gain) := by
  unfold State.referenced
  repeat' first
    | with_reducible first | assumption | intro _ | apply State.modLane_ok | apply ite_ok
    | exact rfl
    | (simp only [ok_mk]; with_reducible apply core_ok)
    | (try dsimp only); split

theorem execCalShadowStart_ok (t : Tu) (ln : Fin 16) (ofs gain : BitVec 16) (hs : Ok que AnyTime s) :
    OkOut que (execCalShadowStart t ln ofs gain s) := by
  unfold execCalShadowStart
  repeat' first
    | with_reducible first | assumption | intro _ | apply State.when_ok | apply State.referenced_ok | apply State.modLane_ok | apply State.setFld_ok | apply ite_ok | apply next_ok | apply ite_out_ok
    | exact rfl
    | (simp only [ok_mk]; with_reducible apply core_any_ok)
    | (try dsimp only); split

theorem State.calDev_ok (ln : Nat) (m : ShadowMeas) (active : Bool) (hs : Ok que Q s) :
    Ok que Q (s.calDev ln m active) := by
  unfold State.calDev
  repeat' first
    | with_reducible first | assumption | intro _ | apply State.setFld_ok | apply ite_ok
    | exact rfl
    | (simp only [ok_mk]; with_reducible apply core_ok)
    | (try dsimp only); split

theorem State.calSkip_ok (ln : Nat) (active : Bool) (hs : Ok que Q s) :
    Ok que Q (s.calSkip ln active) := by
  unfold State.calSkip
  repeat' first
    | with_reducible first | assumption | intro _ | apply State.setFld_ok | apply State.bump_ok | apply State.ilvEvent_ok | apply ite_ok
    | exact rfl
    | (simp only [ok_mk]; with_reducible apply core_ok)
    | (try dsimp only); split

theorem State.shadowEnd_ok (ln : Nat) (m : ShadowMeas) (hs : Ok que Q s) :
    Ok que Q (s.shadowEnd ln m) := by
  unfold State.shadowEnd
  repeat' first
    | with_reducible first | assumption | intro _ | apply State.modLane_ok | apply State.calDev_ok | apply State.calSkip_ok | apply State.ilvEvent_ok | apply State.restartDwell_ok | apply ite_ok | apply hardWired_posFld
    | exact rfl
    | (simp only [ok_mk]; with_reducible apply core_ok)
    | (try dsimp only); split

theorem execShadowWindowEnd_ok (t : Tu) (ln : Fin 16) (m : ShadowMeas) (hs : Ok que AnyTime s) :
    OkOut que (execShadowWindowEnd t ln m s) := by
  unfold execShadowWindowEnd
  repeat' first
    | with_reducible first | assumption | intro _ | apply State.when_ok | apply State.shadowEnd_ok | apply ite_ok | apply next_ok | apply ite_out_ok
    | exact rfl
    | (simp only [ok_mk]; with_reducible apply core_any_ok)
    | (try dsimp only); split

theorem execCalPreloadStart_ok (t : Tu) (ln : Fin 16) (fit : Corr) (hs : Ok que AnyTime s) :
    OkOut que (execCalPreloadStart t ln fit s) := by
  unfold execCalPreloadStart
  repeat' first
    | with_reducible first | assumption | intro _ | apply State.when_ok | apply State.modLane_ok | apply State.setFld_ok | apply ite_ok | apply next_ok | apply ite_out_ok
    | exact rfl
    | (simp only [ok_mk]; with_reducible apply core_any_ok)
    | (try dsimp only); split

theorem State.freezeLane_ok (ln : Nat) (on : Bool) (hs : Ok que Q s) :
    Ok que Q (s.freezeLane ln on) := by
  unfold State.freezeLane
  repeat' first
    | with_reducible first | assumption | intro _ | apply State.setFld_ok | apply State.modLane_ok | apply State.restartDwell_ok | apply ite_ok
    | exact rfl
    | (simp only [ok_mk]; with_reducible apply core_ok)
    | (try dsimp only); split

theorem State.writeCalCtrl_ok (ln : Nat) (v : Word) (hs : Ok que Q s) :
    Ok que Q (s.writeCalCtrl ln v) := by
  unfold State.writeCalCtrl
  repeat' first
    | with_reducible first | assumption | intro _ | apply State.setFld_ok | apply State.freezeLane_ok | apply ite_ok | apply foldl_ok | apply foldl_fst_ok
    | exact rfl
    | (simp only [ok_mk]; with_reducible apply core_ok)
    | (try dsimp only); split

theorem execIlvCalCtrlWrite_ok (t : Tu) (ln : Fin 16) (v : Word) (hs : Ok que AnyTime s) :
    OkOut que (execIlvCalCtrlWrite t ln v s) := by
  unfold execIlvCalCtrlWrite
  repeat' first
    | with_reducible first | assumption | intro _ | apply State.whenHost_ok | apply State.writeCalCtrl_ok | apply ite_ok | apply next_ok | apply ite_out_ok
    | exact rfl
    | (simp only [ok_mk]; with_reducible apply core_any_ok)
    | (try dsimp only); split

theorem State.commitAfeCfg_ok (ch : Nat) (v : Word) (hs : Ok que Q s) :
    Ok que Q (s.commitAfeCfg ch v) := by
  unfold State.commitAfeCfg
  repeat' first
    | with_reducible first | assumption | intro _ | apply State.setFld_ok | apply State.settle_ok | apply State.restartDwell_ok | apply ite_ok | apply foldl_ok | apply foldl_fst_ok
    | exact rfl
    | (simp only [ok_mk]; with_reducible apply core_ok)
    | (try dsimp only); split

theorem State.commitAfeOffset_ok (ch : Nat) (v : Word) (hs : Ok que Q s) :
    Ok que Q (s.commitAfeOffset ch v) := by
  unfold State.commitAfeOffset
  repeat' first
    | with_reducible first | assumption | intro _ | apply State.setFld_ok | apply State.settle_ok | apply ite_ok
    | exact rfl
    | (simp only [ok_mk]; with_reducible apply core_ok)
    | (try dsimp only); split

theorem State.calSave_ok (args : List Word) (flashOk : Bool) (hs : Ok que Q s) :
    Ok que Q (s.calSave args flashOk).s := by
  unfold State.calSave
  repeat' first
    | with_reducible first | assumption | intro _ | apply mbFail_ok | apply State.used_ok | apply State.raise0_ok | apply ite_mb_ok | apply ite_ok | apply foldl_ok | apply foldl_fst_ok
    | exact rfl
    | (simp only [ok_mk]; with_reducible apply core_ok)
    | (try dsimp only); split

theorem execMbCalSave_ok (t : Tu) (tag : Byte) (flashOk : Bool) (hs : Ok que AnyTime s) :
    OkOut que (execMbCalSave t tag flashOk s) := by
  unfold execMbCalSave
  repeat' first
    | with_reducible first | assumption | intro _ | apply State.mbWhen_ok | apply State.calSave_ok | apply ite_ok | apply next_ok | apply ite_out_ok
    | exact rfl
    | (simp only [ok_mk]; with_reducible apply core_any_ok)
    | (try dsimp only); split

theorem State.calRestore_ok (args : List Word) (hs : Ok que Q s) :
    Ok que Q (s.calRestore args).s := by
  unfold State.calRestore
  repeat' first
    | with_reducible first | assumption | intro _ | apply mbFail_ok | apply State.modLane_ok | apply ite_mb_ok | apply ite_ok | apply foldl_ok | apply foldl_fst_ok
    | exact rfl
    | (simp only [ok_mk]; with_reducible apply core_ok)
    | (try dsimp only); split

theorem execMbCalRestore_ok (t : Tu) (tag : Byte) (hs : Ok que AnyTime s) :
    OkOut que (execMbCalRestore t tag s) := by
  unfold execMbCalRestore
  repeat' first
    | with_reducible first | assumption | intro _ | apply State.mbWhen_ok | apply State.calRestore_ok | apply ite_ok | apply next_ok | apply ite_out_ok
    | exact rfl
    | (simp only [ok_mk]; with_reducible apply core_any_ok)
    | (try dsimp only); split

theorem State.calInfo_ok (args : List Word) (hs : Ok que Q s) :
    Ok que Q (s.calInfo args).s := by
  unfold State.calInfo
  repeat' first
    | with_reducible first | assumption | intro _ | apply mbFail_ok | apply ite_mb_ok | apply ite_ok
    | exact rfl
    | (simp only [ok_mk]; with_reducible apply core_ok)
    | (try dsimp only); split

theorem execMbCalInfo_ok (t : Tu) (tag : Byte) (hs : Ok que AnyTime s) :
    OkOut que (execMbCalInfo t tag s) := by
  unfold execMbCalInfo
  repeat' first
    | with_reducible first | assumption | intro _ | apply State.mbWhen_ok | apply State.calInfo_ok | apply ite_ok | apply next_ok | apply ite_out_ok
    | exact rfl
    | (simp only [ok_mk]; with_reducible apply core_any_ok)
    | (try dsimp only); split

end Sys2Proof.Machine
end

