-- ==== Sys2Proof/Laws/KeepGrid.lean ====
section
/-! SUPPORT. What every operation of Machine/Grid.lean keeps: the invariant, and the queue of waiting commands. -/

set_option linter.unusedTactic false
set_option linter.unreachableTactic false
set_option linter.unusedSimpArgs false

namespace Sys2Proof.Machine

variable {que : List Instr} {Q : Saying} {s : State}

theorem State.ofsHold_ok (e : Nat) (hs : Ok que Q s) :
    Ok que Q (s.ofsHold e) := by
  unfold State.ofsHold
  repeat' first
    | with_reducible first | assumption | intro _ | apply State.setFld_ok | apply State.modSpll_ok
    | exact rfl
    | (simp only [ok_mk]; with_reducible apply core_ok)
    | (try dsimp only); split

theorem State.endMove_ok (e : Nat) (hs : Ok que Q s) :
    Ok que Q (s.endMove e) := by
  unfold State.endMove
  repeat' first
    | with_reducible first | assumption | intro _ | apply State.modSpll_ok | apply ite_ok
    | exact rfl
    | (simp only [ok_mk]; with_reducible apply core_ok)
    | (try dsimp only); split

theorem State.align_ok (e : Nat) (on : Bool) (hs : Ok que Q s) :
    Ok que Q (State.align s e on) := by
  unfold State.align
  repeat' first
    | with_reducible first | assumption | intro _ | apply State.modSpll_ok | apply State.setFld_ok | apply ite_ok
    | exact rfl
    | (simp only [ok_mk]; with_reducible apply core_ok)
    | (try dsimp only); split

theorem State.freshGrid_ok (e : Nat) (hs : Ok que Q s) :
    Ok que Q (State.freshGrid s e) := by
  unfold State.freshGrid
  repeat' first
    | with_reducible first | assumption | intro _ | apply State.modSpll_ok
    | exact rfl
    | (simp only [ok_mk]; with_reducible apply core_ok)
    | (try dsimp only); split

theorem State.regrid_ok (s0 : State) (e : Nat) (hs : Ok que Q s) :
    Ok que Q (State.regrid s0 s e) := by
  unfold State.regrid
  repeat' first
    | with_reducible first | assumption | intro _ | apply State.modRegion_ok | apply State.modRed_ok | apply ite_ok | apply foldl_ok | apply foldl_fst_ok
    | exact rfl
    | (simp only [ok_mk]; with_reducible apply core_ok)
    | (try dsimp only); split

theorem State.onGrid_ok (e : Nat) (f : State → State) (hs : Ok que Q s) (hf : ∀ s , Ok que Q s → Ok que Q (f s )) :
    Ok que Q (State.onGrid s e f) := by
  unfold State.onGrid
  repeat' first
    | with_reducible first | assumption | intro _ | apply State.regrid_ok | apply hf
    | exact rfl
    | (simp only [ok_mk]; with_reducible apply core_ok)
    | (try dsimp only); split

theorem State.loseGrid_ok (e : Nat) (f : State → State) (hs : Ok que Q s) (hf : ∀ s , Ok que Q s → Ok que Q (f s )) :
    Ok que Q (State.loseGrid s e f) := by
  unfold State.loseGrid
  repeat' first
    | with_reducible first | assumption | intro _ | apply State.onGrid_ok | apply State.align_ok | apply State.freshGrid_ok | apply hf
    | exact rfl
    | (simp only [ok_mk]; with_reducible apply core_ok)
    | (try dsimp only); split

theorem State.judgeSample_ok (ch : Nat) (v : Int) (core : Bool) (hs : Ok que Q s) :
    Ok que Q (State.judgeSample s ch v core) := by
  unfold State.judgeSample
  repeat' first
    | with_reducible first | assumption | intro _ | apply State.outside_ok | apply State.backInside_ok | apply State.noteSample_ok | apply State.ovrSample_ok | apply ite_ok
    | exact rfl
    | (simp only [ok_mk]; with_reducible apply core_ok)
    | (try dsimp only); split

theorem execAfeOvr_ok (t : Tu) (ch : Fin 16) (raw : List (BitVec 16)) (core : Bool) (hs : Ok que AnyTime s) :
    OkOut que (execAfeOvr t ch raw core s) := by
  unfold execAfeOvr
  repeat' first
    | with_reducible first | assumption | intro _ | apply State.when_ok | apply State.judgeSample_ok | apply ite_ok | apply next_ok | apply ite_out_ok
    | exact rfl
    | (simp only [ok_mk]; with_reducible apply core_any_ok)
    | (try dsimp only); split

theorem State.keepWas_ok (hs : Ok que Q s) :
    Ok que Q (State.keepWas s) := by
  unfold State.keepWas
  repeat' first
    | with_reducible first | assumption | intro _
    | exact rfl
    | (simp only [ok_mk]; with_reducible apply core_ok)
    | (try dsimp only); split

end Sys2Proof.Machine
end

