-- ==== Sys2Proof/Laws/KeepSeg.lean ====
section
/-! SUPPORT. What every operation of Machine/Seg.lean keeps: the invariant, and the queue of waiting commands. -/

set_option linter.unusedTactic false
set_option linter.unreachableTactic false
set_option linter.unusedSimpArgs false

namespace Sys2Proof.Machine

variable {que : List Instr} {Q : Saying} {s : State}

theorem State.setSeg_ok (m x : Nat) (hs : Ok que Q s) :
    Ok que Q (s.setSeg m x) := by
  unfold State.setSeg
  repeat' first
    | with_reducible first | assumption | intro _ | apply State.setFld_ok
    | exact rfl
    | (simp only [ok_mk]; with_reducible apply core_ok)
    | (try dsimp only); split

theorem State.segEvent_ok (m bit stop miss : Nat) (hs : Ok que Q s) :
    Ok que Q (s.segEvent m bit stop miss) := by
  unfold State.segEvent
  repeat' first
    | with_reducible first | assumption | intro _ | apply State.raise_ok
    | exact rfl
    | (simp only [ok_mk]; with_reducible apply core_ok)
    | (try dsimp only); split

theorem State.wmark_ok (m : Nat) (wb : Bool) (hs : Ok que Q s) :
    Ok que Q (s.wmark m wb) := by
  unfold State.wmark
  repeat' first
    | with_reducible first | assumption | intro _ | apply State.setFld_ok | apply State.segEvent_ok | apply ite_ok
    | exact rfl
    | (simp only [ok_mk]; with_reducible apply core_ok)
    | (try dsimp only); split

theorem State.stopRegion_ok (m cause : Nat) (x : Ratio) (hs : Ok que Q s) :
    Ok que Q (State.stopRegion s m cause x) := by
  unfold State.stopRegion
  repeat' first
    | with_reducible first | assumption | intro _ | apply State.setSeg_ok | apply State.setFld_ok | apply State.modRegion_ok | apply State.segEvent_ok
    | exact rfl
    | (simp only [ok_mk]; with_reducible apply core_ok)
    | (try dsimp only); split

theorem State.openUnit_ok (m : Nat) (x : Ratio) (hs : Ok que Q s) :
    Ok que Q (State.openUnit s m x) := by
  unfold State.openUnit
  repeat' first
    | with_reducible first | assumption | intro _ | apply State.bumpMod_ok | apply State.modRegion_ok | apply State.setFld_ok | apply State.bump_ok | apply State.segEvent_ok | apply ite_ok
    | exact rfl
    | (simp only [ok_mk]; with_reducible apply core_ok)
    | (try dsimp only); split

theorem State.writeRuns_ok (m : Nat) (seg : Bool) (a : Nat) (rs : List (Nat × Nat × List Placed)) (h : Ok que Q s) :
    Ok que Q (s.writeRuns m seg a rs) := by
  induction rs generalizing s a with
  | nil => exact h
  | cons r rs ih =>
    obtain ⟨ch, skip, xs⟩ := r
    exact ih _ ⟨⟨h.1.1, Memory.wf_memPutAll _ _ _ h.1.2⟩, h.2⟩

theorem State.fireRegions_ok (mask : Nat) (f : Fire) (hs : Ok que Q s) :
    Ok que Q (s.fireRegions mask f) := by
  unfold State.fireRegions
  repeat' first
    | with_reducible first | assumption | intro _ | apply State.modRegion_ok | apply ite_ok | apply foldl_ok | apply foldl_fst_ok
    | exact rfl
    | (simp only [ok_mk]; with_reducible apply core_ok)
    | (try dsimp only); split

theorem State.miss_ok (m cause : Nat) (hs : Ok que Q s) :
    Ok que Q (s.miss m cause) := by
  unfold State.miss
  repeat' first
    | with_reducible first | assumption | intro _ | apply State.bump_ok | apply State.setFld_ok | apply State.segEvent_ok | apply ite_ok
    | exact rfl
    | (simp only [ok_mk]; with_reducible apply core_ok)
    | (try dsimp only); split

theorem State.openSegment_ok (m : Nat) (group : List Fire) (tts : Tu) (j : Int) (T : Ratio) (hs : Ok que Q s) :
    Ok que Q (s.openSegment m group tts j T) := by
  unfold State.openSegment
  repeat' first
    | with_reducible first | assumption | intro _ | apply State.openUnit_ok | apply State.setSeg_ok | apply State.modRegion_ok | apply ite_ok
    | exact rfl
    | (simp only [ok_mk]; with_reducible apply core_ok)
    | (try dsimp only); split

theorem State.stopAtSample_ok (m : Nat) (T : Ratio) (hs : Ok que Q s) :
    Ok que Q (State.stopAtSample s m T) := by
  unfold State.stopAtSample
  repeat' first
    | with_reducible first | assumption | intro _ | apply State.modRegion_ok | apply State.stopRegion_ok | apply ite_ok
    | exact rfl
    | (simp only [ok_mk]; with_reducible apply core_ok)
    | (try dsimp only); split

theorem State.nextBlock_ok (m : Nat) (hs : Ok que Q s) :
    Ok que Q (State.nextBlock s m) := by
  unfold State.nextBlock
  repeat' first
    | with_reducible first | assumption | intro _ | apply State.modRegion_ok | apply State.setFld_ok | apply State.stopRegion_ok | apply State.openUnit_ok | apply ite_ok
    | exact rfl
    | (simp only [ok_mk]; with_reducible apply core_ok)
    | (try dsimp only); split

theorem State.passBlocks_ok (m : Nat) (k : Int) (hs : Ok que Q s) :
    Ok que Q (State.passBlocks s m k) := by
  unfold State.passBlocks
  repeat' first
    | with_reducible first | assumption | intro _ | apply State.each_ok | apply State.nextBlock_ok
    | exact rfl
    | (simp only [ok_mk]; with_reducible apply core_ok)
    | (try dsimp only); split

theorem State.blocksNow_ok (m : Nat) (hs : Ok que Q s) :
    Ok que Q (State.blocksNow s m) := by
  unfold State.blocksNow
  repeat' first
    | with_reducible first | assumption | intro _ | apply State.passBlocks_ok
    | exact rfl
    | (simp only [ok_mk]; with_reducible apply core_ok)
    | (try dsimp only); split

theorem State.cutBlock_ok (m : Nat) (x : Ratio) (hs : Ok que Q s) :
    Ok que Q (s.cutBlock m x) := by
  unfold State.cutBlock
  repeat' first
    | with_reducible first | assumption | intro _ | apply State.passBlocks_ok | apply State.setFld_ok | apply State.modRegion_ok
    | exact rfl
    | (simp only [ok_mk]; with_reducible apply core_ok)
    | (try dsimp only); split

theorem State.stopBlock_ok (m cause : Nat) (x : Ratio) (hs : Ok que Q s) :
    Ok que Q (State.stopBlock s m cause x) := by
  unfold State.stopBlock
  repeat' first
    | with_reducible first | assumption | intro _ | apply State.cutBlock_ok | apply State.stopRegion_ok | apply ite_ok
    | exact rfl
    | (simp only [ok_mk]; with_reducible apply core_ok)
    | (try dsimp only); split

theorem State.judgeStop_ok (m : Nat) (hs : Ok que Q s) :
    Ok que Q (State.judgeStop s m) := by
  unfold State.judgeStop
  repeat' first
    | with_reducible first | assumption | intro _ | apply State.modRegion_ok | apply State.stopBlock_ok | apply ite_ok
    | exact rfl
    | (simp only [ok_mk]; with_reducible apply core_ok)
    | (try dsimp only); split

theorem State.judge_ok (m : Nat) (hs : Ok que Q s) :
    Ok que Q (s.judge m) := by
  unfold State.judge
  repeat' first
    | with_reducible first | assumption | intro _ | apply State.judgeStop_ok | apply State.modRegion_ok | apply State.openSegment_ok | apply State.miss_ok | apply State.stopAtSample_ok | apply ite_ok
    | exact rfl
    | (simp only [ok_mk]; with_reducible apply core_ok)
    | (try dsimp only); split

theorem State.judgeBefore_ok (m : Nat) (x : Ratio) (hs : Ok que Q s) :
    Ok que Q (s.judgeBefore m x) := by
  unfold State.judgeBefore
  repeat' first
    | with_reducible first | assumption | intro _ | apply State.judge_ok | apply ite_ok | apply foldl_ok | apply foldl_fst_ok
    | exact rfl
    | (simp only [ok_mk]; with_reducible apply core_ok)
    | (try dsimp only); split

theorem State.judgeDue_ok (m : Nat) (hs : Ok que Q s) :
    Ok que Q (State.judgeDue s m) := by
  unfold State.judgeDue
  repeat' first
    | with_reducible first | assumption | intro _ | apply State.judgeBefore_ok | apply State.blocksNow_ok
    | exact rfl
    | (simp only [ok_mk]; with_reducible apply core_ok)
    | (try dsimp only); split

theorem State.storeSegment_ok (m : Nat) (c : Capturing) (runs : List (List Sample)) (hs : Ok que Q s) :
    Ok que Q (s.storeSegment m c runs) := by
  unfold State.storeSegment
  repeat' first
    | with_reducible first | assumption | intro _ | apply State.writeRuns_ok | apply State.modRegion_ok
    | exact rfl
    | (simp only [ok_mk]; with_reducible apply core_ok)
    | (try dsimp only); split

theorem State.afterSegment_ok (m : Nat) (x : Ratio) (hs : Ok que Q s) :
    Ok que Q (State.afterSegment s m x) := by
  unfold State.afterSegment
  repeat' first
    | with_reducible first | assumption | intro _ | apply State.stopRegion_ok | apply State.setSeg_ok | apply ite_ok
    | exact rfl
    | (simp only [ok_mk]; with_reducible apply core_ok)
    | (try dsimp only); split

theorem State.closeSegment_ok (m : Nat) (runs : List (List Sample)) (hs : Ok que Q s) :
    Ok que Q (s.closeSegment m runs) := by
  unfold State.closeSegment
  repeat' first
    | with_reducible first | assumption | intro _ | apply State.storeSegment_ok | apply State.afterSegment_ok | apply ite_ok
    | exact rfl
    | (simp only [ok_mk]; with_reducible apply core_ok)
    | (try dsimp only); split

theorem State.truncate_ok (m : Nat) (step : Bool) (f : Frame) (hs : Ok que Q s) :
    Ok que Q (s.truncate m step f) := by
  unfold State.truncate
  repeat' first
    | with_reducible first | assumption | intro _ | apply State.modRegion_ok | apply ite_ok
    | exact rfl
    | (simp only [ok_mk]; with_reducible apply core_ok)
    | (try dsimp only); split

theorem State.armNow_ok (m : Nat) (hs : Ok que Q s) :
    Ok que Q (s.armNow m) := by
  unfold State.armNow
  repeat' first
    | with_reducible first | assumption | intro _ | apply State.setFld_ok | apply State.setFrame_ok | apply State.wmark_ok | apply State.modRegion_ok | apply State.openUnit_ok | apply State.setSeg_ok | apply ite_ok
    | exact rfl
    | (simp only [ok_mk]; with_reducible apply core_ok)
    | (try dsimp only); split

theorem State.armRegions_ok (ms : List Nat) (hs : Ok que Q s) :
    Ok que Q (s.armRegions ms) := by
  unfold State.armRegions
  repeat' first
    | with_reducible first | assumption | intro _ | apply State.raise_ok | apply State.setFld_ok | apply State.armNow_ok | apply ite_ok | apply foldl_ok | apply foldl_fst_ok
    | exact rfl
    | (simp only [ok_mk]; with_reducible apply core_ok)
    | (try dsimp only); split

theorem State.disarm_ok (m : Nat) (hs : Ok que Q s) :
    Ok que Q (s.disarm m) := by
  unfold State.disarm
  repeat' first
    | with_reducible first | assumption | intro _ | apply State.setFld_ok | apply State.cutBlock_ok | apply State.setSeg_ok | apply State.modRegion_ok | apply State.truncate_ok | apply ite_ok
    | exact rfl
    | (simp only [ok_mk]; with_reducible apply core_ok)
    | (try dsimp only); split

theorem State.disarmRegions_ok (ms : List Nat) (hs : Ok que Q s) :
    Ok que Q (s.disarmRegions ms) := by
  unfold State.disarmRegions
  repeat' first
    | with_reducible first | assumption | intro _ | apply State.disarm_ok | apply foldl_ok | apply foldl_fst_ok
    | exact rfl
    | (simp only [ok_mk]; with_reducible apply core_ok)
    | (try dsimp only); split

theorem State.stepRegion_ok (m : Nat) (f : Frame) (hs : Ok que Q s) :
    Ok que Q (s.stepRegion m f) := by
  unfold State.stepRegion
  repeat' first
    | with_reducible first | assumption | intro _ | apply State.truncate_ok | apply State.afterSegment_ok | apply ite_ok
    | exact rfl
    | (simp only [ok_mk]; with_reducible apply core_ok)
    | (try dsimp only); split

theorem State.stepEntries_ok (f : Frame) (hs : Ok que Q s) :
    Ok que Q (State.stepEntries s f) := by
  unfold State.stepEntries
  repeat' first
    | with_reducible first | assumption | intro _ | apply State.each_ok | apply State.modRegion_ok | apply ite_ok | apply foldl_ok | apply foldl_fst_ok
    | exact rfl
    | (simp only [ok_mk]; with_reducible apply core_ok)
    | (try dsimp only); split

theorem State.shiftRegion_ok (m : Nat) (d : Int) (hs : Ok que Q s) :
    Ok que Q (s.shiftRegion m d) := by
  unfold State.shiftRegion
  repeat' first
    | with_reducible first | assumption | intro _ | apply State.modRegion_ok
    | exact rfl
    | (simp only [ok_mk]; with_reducible apply core_ok)
    | (try dsimp only); split

theorem State.markStale_ok (m : Nat) (hs : Ok que Q s) :
    Ok que Q (s.markStale m) := by
  unfold State.markStale
  repeat' first
    | with_reducible first | assumption | intro _ | apply State.modRegion_ok | apply ite_ok
    | exact rfl
    | (simp only [ok_mk]; with_reducible apply core_ok)
    | (try dsimp only); split

theorem State.closeBlock_ok (m : Nat) (runs : List (List Sample)) (hs : Ok que Q s) :
    Ok que Q (s.closeBlock m runs) := by
  unfold State.closeBlock
  repeat' first
    | with_reducible first | assumption | intro _ | apply State.writeRuns_ok | apply State.modRegion_ok | apply State.bumpMod_ok | apply State.wmark_ok | apply ite_ok
    | exact rfl
    | (simp only [ok_mk]; with_reducible apply core_ok)
    | (try dsimp only); split

theorem State.writeEntry_ok (m : Nat) (c : Closed) (hs : Ok que Q s) :
    Ok que Q (State.writeEntry s m c) := by
  unfold State.writeEntry
  repeat' first
    | with_reducible first | assumption | intro _ | apply State.each_ok | apply State.stage_ok | apply State.bumpMod_ok | apply State.wmark_ok | apply ite_ok
    | exact rfl
    | (simp only [ok_mk]; with_reducible first | apply core_ok | apply core_mem_ok (Memory.wf_memPutAll _ _ _) | apply core_mem_ok (Memory.wf_filter _ _))
    | (try dsimp only); split

theorem State.writeBack_ok (m : Nat) (hs : Ok que Q s) :
    Ok que Q (s.writeBack m) := by
  unfold State.writeBack
  repeat' first
    | with_reducible first | assumption | intro _ | apply State.modRegion_ok | apply State.writeEntry_ok | apply ite_ok
    | exact rfl
    | (simp only [ok_mk]; with_reducible apply core_ok)
    | (simp only [ok_mk]; with_reducible first | apply core_ok | apply core_mem_ok (Memory.wf_memPutAll _ _ _))
    | (try dsimp only); split

theorem State.writeBackDue_ok (hs : Ok que Q s) :
    Ok que Q (State.writeBackDue s) := by
  unfold State.writeBackDue
  repeat' first
    | with_reducible first | assumption | intro _ | apply State.each_ok | apply State.writeBack_ok | apply foldl_ok | apply foldl_fst_ok
    | exact rfl
    | (simp only [ok_mk]; with_reducible apply core_ok)
    | (try dsimp only); split

theorem State.release_ok (m n : Nat) (hs : Ok que Q s) :
    Ok que Q (s.release m n) := by
  unfold State.release
  repeat' first
    | with_reducible first | assumption | intro _ | apply State.setFld_ok | apply State.modRegion_ok | apply State.wmark_ok | apply ite_ok
    | exact rfl
    | (simp only [ok_mk]; with_reducible apply core_ok)
    | (try dsimp only); split

theorem State.commitPre_ok (m : Nat) (v : Word) (hs : Ok que Q s) :
    Ok que Q (State.commitPre s m v) := by
  unfold State.commitPre
  repeat' first
    | with_reducible first | assumption | intro _ | apply State.setSeg_ok | apply State.modRegion_ok | apply State.setReg_ok | apply ite_ok
    | exact rfl
    | (simp only [ok_mk]; with_reducible apply core_ok)
    | (try dsimp only); split

theorem execRegionReady_ok (m : Fin 32) (hs : Ok que AnyTime s) :
    OkOut que (execRegionReady m s) := by
  unfold execRegionReady
  repeat' first
    | with_reducible first | assumption | intro _ | apply State.when_ok | apply State.setSeg_ok | apply ite_ok | apply next_ok | apply ite_out_ok
    | exact rfl
    | (simp only [ok_mk]; with_reducible apply core_any_ok)
    | (try dsimp only); split

theorem execSegmentClose_ok (m : Fin 32) (runs : List (List Sample)) (hs : Ok que AnyTime s) :
    OkOut que (execSegmentClose m runs s) := by
  unfold execSegmentClose
  repeat' first
    | with_reducible first | assumption | intro _ | apply State.when_ok | apply State.closeSegment_ok | apply ite_ok | apply next_ok | apply ite_out_ok
    | exact rfl
    | (simp only [ok_mk]; with_reducible apply core_any_ok)
    | (try dsimp only); split

theorem execRearmEnd_ok (m : Fin 32) (hs : Ok que AnyTime s) :
    OkOut que (execRearmEnd m s) := by
  unfold execRearmEnd
  repeat' first
    | with_reducible first | assumption | intro _ | apply State.when_ok | apply State.setSeg_ok | apply ite_ok | apply next_ok | apply ite_out_ok
    | exact rfl
    | (simp only [ok_mk]; with_reducible apply core_any_ok)
    | (try dsimp only); split

theorem execDirectoryWriteback_ok (t : Tu) (m : Fin 32) (hs : Ok que AnyTime s) :
    OkOut que (execDirectoryWriteback t m s) := by
  unfold execDirectoryWriteback
  repeat' first
    | with_reducible first | assumption | intro _ | apply State.when_ok | apply State.writeBack_ok | apply ite_ok | apply next_ok | apply ite_out_ok
    | exact rfl
    | (simp only [ok_mk]; with_reducible apply core_any_ok)
    | (try dsimp only); split

theorem execSegRelease_ok (t : Tu) (m : Fin 32) (n : Word) (hs : Ok que AnyTime s) :
    OkOut que (execSegRelease t m n s) := by
  unfold execSegRelease
  repeat' first
    | with_reducible first | assumption | intro _ | apply State.whenHost_ok | apply State.release_ok | apply ite_ok | apply next_ok | apply ite_out_ok
    | exact rfl
    | (simp only [ok_mk]; with_reducible apply core_any_ok)
    | (try dsimp only); split

end Sys2Proof.Machine
end

