-- ==== Sys2Proof/Laws/KeepMem.lean ====
section
/-! SUPPORT. What every operation of Machine/Mem.lean keeps: the invariant, and the queue of waiting commands. -/

set_option linter.unusedTactic false
set_option linter.unreachableTactic false
set_option linter.unusedSimpArgs false

namespace Sys2Proof.Machine

variable {que : List Instr} {Q : Saying} {s : State}

theorem State.wbuf_ok (c fill : Nat) (hs : Ok que Q s) :
    Ok que Q (s.wbuf c fill) := by
  unfold State.wbuf
  repeat' first
    | with_reducible first | assumption | intro _ | apply State.setFld_ok | apply State.raise0_ok | apply State.stopBlock_ok | apply ite_ok | apply foldl_ok | apply foldl_fst_ok
    | exact rfl
    | (simp only [ok_mk]; with_reducible apply core_ok)
    | (try dsimp only); split

theorem execMemWbufHigh_ok (t : Tu) (c : Fin 4) (fill : Fin 262145) (hs : Ok que AnyTime s) :
    OkOut que (execMemWbufHigh t c fill s) := by
  unfold execMemWbufHigh
  repeat' first
    | with_reducible first | assumption | intro _ | apply State.when_ok | apply State.wbuf_ok | apply ite_ok | apply next_ok | apply ite_out_ok
    | exact rfl
    | (simp only [ok_mk]; with_reducible apply core_any_ok)
    | (try dsimp only); split

theorem State.stackTemp_ok (e : Nat) (temp : BitVec 16) (hs : Ok que Q s) :
    Ok que Q (s.stackTemp e temp) := by
  unfold State.stackTemp
  repeat' first
    | with_reducible first | assumption | intro _ | apply State.setFld_ok | apply State.raise0_ok | apply ite_ok
    | exact rfl
    | (simp only [ok_mk]; with_reducible apply core_ok)
    | (try dsimp only); split

theorem execStackTempRead_ok (t : Tu) (e : Fin 2) (temp : BitVec 16) (hs : Ok que AnyTime s) :
    OkOut que (execStackTempRead t e temp s) := by
  unfold execStackTempRead
  repeat' first
    | with_reducible first | assumption | intro _ | apply State.when_ok | apply State.stackTemp_ok | apply ite_ok | apply next_ok | apply ite_out_ok
    | exact rfl
    | (simp only [ok_mk]; with_reducible apply core_any_ok)
    | (try dsimp only); split

theorem execMemCe_ok (t : Tu) (e : Fin 2) (hs : Ok que AnyTime s) :
    OkOut que (execMemCe t e s) := by
  unfold execMemCe
  repeat' first
    | with_reducible first | assumption | intro _ | apply State.when_ok | apply State.bumpRaise_ok | apply ite_ok | apply next_ok | apply ite_out_ok
    | exact rfl
    | (simp only [ok_mk]; with_reducible apply core_any_ok)
    | (try dsimp only); split

theorem State.memUe_ok (e : Nat) (a : Nat) (bar2 : Option Nat) (hs : Ok que Q s) :
    Ok que Q (s.memUe e a bar2) := by
  unfold State.memUe
  repeat' first
    | with_reducible first | assumption | intro _ | apply State.bump_ok | apply State.setPair_ok | apply State.raise0_ok | apply State.emit_ok | apply ite_ok
    | exact rfl
    | (simp only [ok_mk]; with_reducible apply core_ok)
    | (try dsimp only); split

theorem execMemUe_ok (t : Tu) (e : Fin 2) (a : BitVec 34) (bar2 : Option Nat) (hs : Ok que AnyTime s) :
    OkOut que (execMemUe t e a bar2 s) := by
  unfold execMemUe
  repeat' first
    | with_reducible first | assumption | intro _ | apply State.when_ok | apply State.memUe_ok | apply ite_ok | apply next_ok | apply ite_out_ok
    | exact rfl
    | (simp only [ok_mk]; with_reducible apply core_any_ok)
    | (try dsimp only); split

theorem execMemScrubDone_ok (t : Tu) (e : Fin 2) (hs : Ok que AnyTime s) :
    OkOut que (execMemScrubDone t e s) := by
  unfold execMemScrubDone
  repeat' first
    | with_reducible first | assumption | intro _ | apply State.when_ok | apply State.raise0_ok | apply ite_ok | apply next_ok | apply ite_out_ok
    | exact rfl
    | (simp only [ok_mk]; with_reducible apply core_any_ok)
    | (try dsimp only); split

theorem execMemBridge_ok (t : Tu) (e : Fin 2) (hs : Ok que AnyTime s) :
    OkOut que (execMemBridge t e s) := by
  unfold execMemBridge
  repeat' first
    | with_reducible first | assumption | intro _ | apply State.when_ok | apply State.bumpRaise_ok | apply ite_ok | apply next_ok | apply ite_out_ok
    | exact rfl
    | (simp only [ok_mk]; with_reducible apply core_any_ok)
    | (try dsimp only); split

theorem execBar2Read_ok (t : Tu) (a : BitVec 36) (len : Nat) (hs : Ok que AnyTime s) :
    OkOut que (execBar2Read t a len s) := by
  unfold execBar2Read
  repeat' first
    | with_reducible first | assumption | intro _ | apply State.whenHost_ok | apply State.emit_ok | apply ite_ok | apply next_ok | apply ite_out_ok
    | exact rfl
    | (simp only [ok_mk]; with_reducible apply core_any_ok)
    | (try dsimp only); split

theorem execBar2Write_ok (t : Tu) (a : BitVec 36) (data : List Byte) (hs : Ok que AnyTime s) :
    OkOut que (execBar2Write t a data s) := by
  unfold execBar2Write
  repeat' first
    | with_reducible first | assumption | intro _ | apply State.whenHost_ok | apply State.bar2Put_ok | apply ite_ok | apply next_ok | apply ite_out_ok
    | exact rfl
    | (simp only [ok_mk]; with_reducible apply core_any_ok)
    | (try dsimp only); split

end Sys2Proof.Machine
end

