-- ==== Sys2Proof/Laws/KeepTic.lean ====
section
/-! SUPPORT. What every operation of Machine/Tic.lean keeps: the invariant, and the queue of waiting commands. -/

set_option linter.unusedTactic false
set_option linter.unreachableTactic false
set_option linter.unusedSimpArgs false

namespace Sys2Proof.Machine

variable {que : List Instr} {Q : Saying} {s : State}

theorem State.ticResult_ok (i : Nat) (tts : Tu) (value : Int) (stop count : Nat) (small coast stale : Bool) (closing : Tu) (hs : Ok que Q s) :
    Ok que Q (s.ticResult i tts value stop count small coast stale closing) := by
  unfold State.ticResult
  repeat' first
    | with_reducible first | assumption | intro _ | apply State.setPair_ok | apply State.setFld_ok | apply State.produce_ok | apply State.modTic_ok | apply State.bumpRaise_ok | apply State.raise_ok | apply ite_ok
    | exact rfl
    | (simp only [ok_mk]; with_reducible apply core_ok)
    | (try dsimp only); split

theorem State.ticEnd_ok (i stop : Nat) (closing : Tu) (hs : Ok que Q s) :
    Ok que Q (s.ticEnd i stop closing) := by
  unfold State.ticEnd
  repeat' first
    | with_reducible first | assumption | intro _ | apply State.ticResult_ok | apply ite_ok
    | exact rfl
    | (simp only [ok_mk]; with_reducible apply core_ok)
    | (try dsimp only); split

theorem State.ticPair_ok (i : Nat) (ts stop : Stamp) (closing : Tu) (hs : Ok que Q s) :
    Ok que Q (s.ticPair i ts stop closing) := by
  unfold State.ticPair
  repeat' first
    | with_reducible first | assumption | intro _ | apply State.modTic_ok | apply State.ticResult_ok | apply ite_ok
    | exact rfl
    | (simp only [ok_mk]; with_reducible apply core_ok)
    | (try dsimp only); split

theorem State.ticDecide_ok (i : Nat) (ts : Stamp) (after : Option Stamp) (closing : Tu) (hs : Ok que Q s) :
    Ok que Q (State.ticDecide s i ts after closing) := by
  unfold State.ticDecide
  repeat' first
    | with_reducible first | assumption | intro _ | apply State.ticPair_ok | apply State.modTic_ok
    | exact rfl
    | (simp only [ok_mk]; with_reducible apply core_ok)
    | (try dsimp only); split

theorem State.ticWindowOver_ok (i : Nat) (hs : Ok que Q s) :
    Ok que Q (State.ticWindowOver s i) := by
  unfold State.ticWindowOver
  repeat' first
    | with_reducible first | assumption | intro _ | apply State.ticEnd_ok | apply State.ticPair_ok
    | exact rfl
    | (simp only [ok_mk]; with_reducible apply core_ok)
    | (try dsimp only); split

theorem State.ticGateEnd_ok (i : Nat) (hs : Ok que Q s) :
    Ok que Q (s.ticGateEnd i) := by
  unfold State.ticGateEnd
  repeat' first
    | with_reducible first | assumption | intro _ | apply State.ticResult_ok | apply State.modTic_ok | apply ite_ok
    | exact rfl
    | (simp only [ok_mk]; with_reducible apply core_ok)
    | (try dsimp only); split

theorem State.ticSettle_ok (i : Nat) (x g : Tu) (hs : Ok que Q s) :
    Ok que Q (State.ticSettle s i x g) := by
  unfold State.ticSettle
  repeat' first
    | with_reducible first | assumption | intro _ | apply State.each_ok | apply State.ticGateEnd_ok | apply State.ticWindowOver_ok | apply State.ticEnd_ok | apply ite_ok
    | exact rfl
    | (simp only [ok_mk]; with_reducible apply core_ok)
    | (try dsimp only); split

theorem State.ticIgnored_ok (i : Nat) (hs : Ok que Q s) :
    Ok que Q (s.ticIgnored i) := by
  unfold State.ticIgnored
  repeat' first
    | with_reducible first | assumption | intro _ | apply State.bump_ok
    | exact rfl
    | (simp only [ok_mk]; with_reducible apply core_ok)
    | (try dsimp only); split

theorem State.ticOpen_ok (i : Nat) (x : Stamp) (rise : Bool) (hs : Ok que Q s) :
    Ok que Q (s.ticOpen i x rise) := by
  unfold State.ticOpen
  repeat' first
    | with_reducible first | assumption | intro _ | apply State.modTic_ok | apply ite_ok
    | exact rfl
    | (simp only [ok_mk]; with_reducible apply core_ok)
    | (try dsimp only); split

theorem State.ticStopEdge_ok (i : Nat) (x : Stamp) (hs : Ok que Q s) :
    Ok que Q (s.ticStopEdge i x).1 := by
  unfold State.ticStopEdge
  repeat' first
    | with_reducible first | assumption | intro _ | apply State.ticDecide_ok | apply State.ticResult_ok | apply ite_fst_ok | apply ite_ok | apply foldl_ok | apply foldl_fst_ok
    | exact rfl
    | (simp only [ok_mk]; with_reducible apply core_ok)
    | (try dsimp only); split

theorem State.ticStartEdge_ok (i : Nat) (x : Stamp) (rise : Bool) (o : Stamp) (hs : Ok que Q s) :
    Ok que Q (s.ticStartEdge i x rise o) := by
  unfold State.ticStartEdge
  repeat' first
    | with_reducible first | assumption | intro _ | apply State.ticOpen_ok | apply State.ticIgnored_ok | apply State.ticResult_ok | apply State.modTic_ok | apply ite_ok
    | exact rfl
    | (simp only [ok_mk]; with_reducible apply core_ok)
    | (try dsimp only); split

theorem State.ticEdge_ok (i : Nat) (x : Stamp) (start stop polar rise : Bool) (hs : Ok que Q s) :
    Ok que Q (s.ticEdge i x start stop polar rise) := by
  unfold State.ticEdge
  repeat' first
    | with_reducible first | assumption | intro _ | apply State.ticSettle_ok | apply State.modTic_ok | apply State.ticResult_ok | apply State.ticOpen_ok | apply State.ticStopEdge_ok | apply State.ticStartEdge_ok | apply State.ticIgnored_ok | apply ite_ok
    | exact rfl
    | (simp only [ok_mk]; with_reducible apply core_ok)
    | (try dsimp only); split

theorem State.ticSource_ok (c code : Nat) (t : Tu) (polar rise stale : Bool) (hs : Ok que Q s) :
    Ok que Q (s.ticSource c code t polar rise stale) := by
  unfold State.ticSource
  repeat' first
    | with_reducible first | assumption | intro _ | apply State.ticEdge_ok | apply ite_ok | apply foldl_ok | apply foldl_fst_ok
    | exact rfl
    | (simp only [ok_mk]; with_reducible apply core_ok)
    | (try dsimp only); split

theorem State.ticAll_ok (code : Nat) (t : Tu) (polar rise : Bool) (hs : Ok que Q s) :
    Ok que Q (s.ticAll code t polar rise) := by
  unfold State.ticAll
  repeat' first
    | with_reducible first | assumption | intro _ | apply State.each_ok | apply State.ticSource_ok
    | exact rfl
    | (simp only [ok_mk]; with_reducible apply core_ok)
    | (try dsimp only); split

theorem State.ticFresh_ok (i : Nat) (x : Tu) (hs : Ok que Q s) :
    Ok que Q (s.ticFresh i x) := by
  unfold State.ticFresh
  repeat' first
    | with_reducible first | assumption | intro _ | apply State.modTic_ok
    | exact rfl
    | (simp only [ok_mk]; with_reducible apply core_ok)
    | (try dsimp only); split

theorem State.ticAbort_ok (i : Nat) (hs : Ok que Q s) :
    Ok que Q (s.ticAbort i) := by
  unfold State.ticAbort
  repeat' first
    | with_reducible first | assumption | intro _ | apply State.ticEnd_ok | apply ite_ok
    | exact rfl
    | (simp only [ok_mk]; with_reducible apply core_ok)
    | (try dsimp only); split

theorem State.ticNote_ok (i : Nat) (hs : Ok que Q s) :
    Ok que Q (s.ticNote i) := by
  unfold State.ticNote
  repeat' first
    | with_reducible first | assumption | intro _ | apply State.setFld_ok
    | exact rfl
    | (simp only [ok_mk]; with_reducible apply core_ok)
    | (try dsimp only); split

theorem State.commitTicCfg_ok (i : Nat) (v : Word) (hs : Ok que Q s) :
    Ok que Q (s.commitTicCfg i v) := by
  unfold State.commitTicCfg
  repeat' first
    | with_reducible first | assumption | intro _ | apply State.ticSettle_ok | apply State.setReg_ok | apply State.ticNote_ok | apply State.setFld_ok | apply State.modTic_ok | apply State.ticAbort_ok | apply State.ticFresh_ok | apply ite_ok
    | exact rfl
    | (simp only [ok_mk]; with_reducible apply core_ok)
    | (try dsimp only); split

theorem State.commitTic_ok (n : RegName) (i : Nat) (v : Word) (hs : Ok que Q s) (hn : hardWired n = false) :
    Ok que Q (s.commitTic n i v) := by
  unfold State.commitTic
  repeat' first
    | with_reducible first | assumption | intro _ | apply State.ticSettle_ok | apply State.setFld_ok | apply State.ticAbort_ok | apply State.setReg_ok | apply State.ticFresh_ok | apply ite_ok
    | exact rfl
    | (simp only [ok_mk]; with_reducible apply core_ok)
    | (try dsimp only); split

theorem State.ticStep_ok (i : Nat) (x : Tu) (hs : Ok que Q s) :
    Ok que Q (s.ticStep i x) := by
  unfold State.ticStep
  repeat' first
    | with_reducible first | assumption | intro _ | apply State.ticSettle_ok | apply State.ticEnd_ok | apply State.modTic_ok | apply ite_ok
    | exact rfl
    | (simp only [ok_mk]; with_reducible apply core_ok)
    | (try dsimp only); split

theorem State.ticStopAll_ok (hs : Ok que Q s) :
    Ok que Q (s.ticStopAll) := by
  unfold State.ticStopAll
  repeat' first
    | with_reducible first | assumption | intro _ | apply State.each_ok | apply State.setFld_ok | apply State.modTic_ok
    | exact rfl
    | (simp only [ok_mk]; with_reducible apply core_ok)
    | (try dsimp only); split

end Sys2Proof.Machine
end

