-- ==== Sys2Proof/Laws/KeepPmu.lean ====
section
/-! SUPPORT. What every operation of Machine/Pmu.lean keeps: the invariant, and the queue of waiting commands. -/

set_option linter.unusedTactic false
set_option linter.unreachableTactic false
set_option linter.unusedSimpArgs false

namespace Sys2Proof.Machine

variable {que : List Instr} {Q : Saying} {s : State}

theorem State.glnSend_ok (typ sub : Nat) (payload : List Byte) (copies : Nat) (hs : Ok que Q s) :
    Ok que Q (s.glnSend typ sub payload copies) := by
  unfold State.glnSend
  repeat' first
    | with_reducible first | assumption | intro _ | apply State.emit_ok | apply ite_ok
    | exact rfl
    | (simp only [ok_mk]; with_reducible apply core_ok)
    | (try dsimp only); split

theorem State.forceMoved_ok (s0 : State) (n : Nat) (t : Tu) (hs : Ok que Q s) :
    Ok que Q (State.forceMoved s0 s n t) := by
  unfold State.forceMoved
  repeat' first
    | with_reducible first | assumption | intro _ | apply State.emit_ok | apply ite_ok
    | exact rfl
    | (simp only [ok_mk]; with_reducible apply core_ok)
    | (try dsimp only); split

theorem State.forceNow_ok (n code : Nat) (t : Tu) (hs : Ok que Q s) :
    Ok que Q (s.forceNow n code t) := by
  unfold State.forceNow
  repeat' first
    | with_reducible first | assumption | intro _ | apply State.forceMoved_ok | apply State.setFld_ok | apply State.setPair_ok
    | exact rfl
    | (simp only [ok_mk]; with_reducible apply core_ok)
    | (try dsimp only); split

theorem State.writeForceCfg_ok (n : Nat) (v : Word) (hs : Ok que Q s) :
    Ok que Q (State.writeForceCfg s n v) := by
  unfold State.writeForceCfg
  repeat' first
    | with_reducible first | assumption | intro _ | apply State.forceMoved_ok | apply State.setReg_ok
    | exact rfl
    | (simp only [ok_mk]; with_reducible apply core_ok)
    | (try dsimp only); split

theorem State.setForce_ok (n : Nat) (l : List ForcePend) (hs : Ok que Q s) :
    Ok que Q (s.setForce n l) := by
  unfold State.setForce
  repeat' first
    | with_reducible first | assumption | intro _
    | exact rfl
    | (simp only [ok_mk]; with_reducible apply core_ok)
    | (try dsimp only); split

theorem State.writeForce_ok (n code : Nat) (hs : Ok que Q s) :
    Ok que Q (s.writeForce n code) := by
  unfold State.writeForce
  repeat' first
    | with_reducible first | assumption | intro _ | apply State.setFld_ok | apply State.setForce_ok | apply State.used_ok | apply State.forceNow_ok | apply ite_ok
    | exact rfl
    | (simp only [ok_mk]; with_reducible apply core_ok)
    | (try dsimp only); split

theorem State.forceDue_ok (n upd : Nat) (t : Tu) (due : Tu → Bool) (hs : Ok que Q s) :
    Ok que Q (s.forceDue n upd t due) := by
  unfold State.forceDue
  repeat' first
    | with_reducible first | assumption | intro _ | apply State.setForce_ok | apply State.forceNow_ok
    | exact rfl
    | (simp only [ok_mk]; with_reducible apply core_ok)
    | (try dsimp only); split

theorem execForceCodeWrite_ok (t : Tu) (n : Fin 16) (code : BitVec 18) (hs : Ok que AnyTime s) :
    OkOut que (execForceCodeWrite t n code s) := by
  unfold execForceCodeWrite
  repeat' first
    | with_reducible first | assumption | intro _ | apply State.whenHost_ok | apply State.writeForce_ok | apply ite_ok | apply next_ok | apply ite_out_ok
    | exact rfl
    | (simp only [ok_mk]; with_reducible apply core_any_ok)
    | (try dsimp only); split

theorem execForceEnableWrite_ok (t : Tu) (n : Fin 16) (v : Word) (hs : Ok que AnyTime s) :
    OkOut que (execForceEnableWrite t n v s) := by
  unfold execForceEnableWrite
  repeat' first
    | with_reducible first | assumption | intro _ | apply State.whenHost_ok | apply State.writeForceCfg_ok | apply ite_ok | apply next_ok | apply ite_out_ok
    | exact rfl
    | (simp only [ok_mk]; with_reducible apply core_any_ok)
    | (try dsimp only); split

theorem State.modEdge_ok (x : Nat) (t : Tu) (hs : Ok que Q s) :
    Ok que Q (s.modEdge x t).1 := by
  unfold State.modEdge
  repeat' first
    | with_reducible first | assumption | intro _ | apply State.used_ok | apply ite_fst_ok | apply ite_ok
    | exact rfl
    | (simp only [ok_mk]; with_reducible apply core_ok)
    | (try dsimp only); split

theorem State.pmuShowOne_ok (x : Nat) (hs : Ok que Q s) :
    Ok que Q (State.pmuShowOne s x) := by
  unfold State.pmuShowOne
  repeat' first
    | with_reducible first | assumption | intro _ | apply State.setFld_ok | apply ite_ok
    | exact rfl
    | (simp only [ok_mk]; with_reducible apply core_ok)
    | (try dsimp only); split

theorem State.pmuShow_ok (x : Nat) (hs : Ok que Q s) :
    Ok que Q (s.pmuShow x) := by
  unfold State.pmuShow
  repeat' first
    | with_reducible first | assumption | intro _ | apply State.pmuShowOne_ok | apply ite_ok
    | exact rfl
    | (simp only [ok_mk]; with_reducible apply core_ok)
    | (try dsimp only); split

theorem State.startConv_ok (x kind : Nat) (w : Word) (entry : Nat) (restarted : Bool) (t : Tu) (hs : Ok que Q s) :
    Ok que Q (s.startConv x kind w entry restarted t) := by
  unfold State.startConv
  repeat' first
    | with_reducible first | assumption | intro _ | apply State.modEdge_ok | apply State.modMc_ok | apply ite_ok
    | exact rfl
    | (simp only [ok_mk]; with_reducible apply core_ok)
    | (try dsimp only); split

theorem State.pmuNext_ok (x : Nat) (t : Tu) (hs : Ok que Q s) :
    Ok que Q (s.pmuNext x t) := by
  unfold State.pmuNext
  repeat' first
    | with_reducible first | assumption | intro _ | apply State.modMc_ok | apply State.pmuShow_ok | apply State.startConv_ok | apply ite_ok
    | exact rfl
    | (simp only [ok_mk]; with_reducible apply core_ok)
    | (try dsimp only); split

theorem State.pmuGo_ok (x : Nat) (t : Tu) (hs : Ok que Q s) :
    Ok que Q (s.pmuGo x t) := by
  unfold State.pmuGo
  repeat' first
    | with_reducible first | assumption | intro _ | apply State.pmuNext_ok | apply State.modMc_ok | apply ite_ok
    | exact rfl
    | (simp only [ok_mk]; with_reducible apply core_ok)
    | (try dsimp only); split

theorem State.abortConv_ok (x : Nat) (hs : Ok que Q s) :
    Ok que Q (s.abortConv x) := by
  unfold State.abortConv
  repeat' first
    | with_reducible first | assumption | intro _ | apply State.bump_ok | apply State.modMc_ok | apply ite_ok
    | exact rfl
    | (simp only [ok_mk]; with_reducible apply core_ok)
    | (try dsimp only); split

theorem State.injDrop_ok (x cause n : Nat) (hs : Ok que Q s) :
    Ok que Q (s.injDrop x cause n) := by
  unfold State.injDrop
  repeat' first
    | with_reducible first | assumption | intro _ | apply State.bump_ok | apply State.raise_ok | apply ite_ok
    | exact rfl
    | (simp only [ok_mk]; with_reducible apply core_ok)
    | (try dsimp only); split

theorem State.inject_ok (x : Nat) (w : Word) (t : Tu) (hs : Ok que Q s) :
    Ok que Q (s.inject x w t) := by
  unfold State.inject
  repeat' first
    | with_reducible first | assumption | intro _ | apply State.injDrop_ok | apply State.modMc_ok | apply State.abortConv_ok | apply State.pmuNext_ok | apply ite_ok
    | exact rfl
    | (simp only [ok_mk]; with_reducible apply core_ok)
    | (try dsimp only); split

theorem State.requestCal_ok (x : Nat) (hs : Ok que Q s) :
    Ok que Q (s.requestCal x) := by
  unfold State.requestCal
  repeat' first
    | with_reducible first | assumption | intro _ | apply State.modMc_ok | apply State.abortConv_ok | apply State.pmuNext_ok | apply ite_ok
    | exact rfl
    | (simp only [ok_mk]; with_reducible apply core_ok)
    | (try dsimp only); split

theorem State.twinCompare_ok (a b : TwinRes) (hs : Ok que Q s) :
    Ok que Q (s.twinCompare a b) := by
  unfold State.twinCompare
  repeat' first
    | with_reducible first | assumption | intro _ | apply State.bump_ok | apply State.raise0_ok | apply ite_ok
    | exact rfl
    | (simp only [ok_mk]; with_reducible apply core_ok)
    | (try dsimp only); split

theorem State.twinLocal_ok (a : TwinRes) (r : PmuRec) (hs : Ok que Q s) :
    Ok que Q (s.twinLocal a r) := by
  unfold State.twinLocal
  repeat' first
    | with_reducible first | assumption | intro _ | apply State.glnSend_ok | apply State.twinCompare_ok | apply ite_ok
    | exact rfl
    | (simp only [ok_mk]; with_reducible apply core_ok)
    | (try dsimp only); split

theorem State.twinRemote_ok (b : TwinRes) (hs : Ok que Q s) :
    Ok que Q (s.twinRemote b) := by
  unfold State.twinRemote
  repeat' first
    | with_reducible first | assumption | intro _ | apply State.twinCompare_ok | apply ite_ok
    | exact rfl
    | (simp only [ok_mk]; with_reducible apply core_ok)
    | (try dsimp only); split

theorem State.pmuResult_ok (x : Nat) (c : Conv) (v : Int) (overload fail : Bool) (hs : Ok que Q s) :
    Ok que Q (State.pmuResult s x c v overload fail) := by
  unfold State.pmuResult
  repeat' first
    | with_reducible first | assumption | intro _ | apply State.setPair_ok | apply State.setReg_ok | apply State.produce_ok | apply State.modMc_ok | apply State.twinLocal_ok | apply State.injDrop_ok | apply State.raise0_ok | apply ite_ok
    | exact rfl
    | (simp only [ok_mk]; with_reducible apply core_ok)
    | (try dsimp only); split

theorem State.pmuStop_ok (x : Nat) (hs : Ok que Q s) :
    Ok que Q (s.pmuStop x) := by
  unfold State.pmuStop
  repeat' first
    | with_reducible first | assumption | intro _ | apply State.setFld_ok | apply State.modMc_ok
    | exact rfl
    | (simp only [ok_mk]; with_reducible apply core_ok)
    | (try dsimp only); split

theorem State.passOn_ok (x : Nat) (c : Conv) (hs : Ok que Q s) :
    Ok que Q (s.passOn x c) := by
  unfold State.passOn
  repeat' first
    | with_reducible first | assumption | intro _ | apply State.modMc_ok | apply State.raise0_ok | apply State.pmuStop_ok | apply ite_ok
    | exact rfl
    | (simp only [ok_mk]; with_reducible apply core_ok)
    | (try dsimp only); split

theorem State.convReady_ok (x : Nat) (c : Conv) (q : ConvMeas) (hs : Ok que Q s) :
    Ok que Q (s.convReady x c q) := by
  unfold State.convReady
  repeat' first
    | with_reducible first | assumption | intro _ | apply State.modMc_ok | apply State.pmuResult_ok | apply State.bump_ok | apply State.raise0_ok | apply State.passOn_ok | apply State.pmuStop_ok | apply State.pmuShow_ok | apply State.pmuGo_ok | apply ite_ok
    | exact rfl
    | (simp only [ok_mk]; with_reducible apply core_ok)
    | (try dsimp only); split

theorem State.pmuArrive_ok (t : Tu) (hs : Ok que Q s) :
    Ok que Q (State.pmuArrive s t) := by
  unfold State.pmuArrive
  repeat' first
    | with_reducible first | assumption | intro _ | apply State.each_ok | apply State.inject_ok | apply State.modMc_ok | apply ite_ok | apply foldl_ok | apply foldl_fst_ok
    | exact rfl
    | (simp only [ok_mk]; with_reducible apply core_ok)
    | (try dsimp only); split

theorem execConversionReady_ok (t : Tu) (x : Fin 2) (m : ConvMeas) (hs : Ok que AnyTime s) :
    OkOut que (execConversionReady t x m s) := by
  unfold execConversionReady
  repeat' first
    | with_reducible first | assumption | intro _ | apply State.when_ok | apply State.pmuArrive_ok | apply State.convReady_ok | apply ite_ok | apply next_ok | apply ite_out_ok
    | exact rfl
    | (simp only [ok_mk]; with_reducible apply core_any_ok)
    | (try dsimp only); split

theorem execPmuInjReq_ok (t : Tu) (x : Fin 2) (v : Word) (hs : Ok que AnyTime s) :
    OkOut que (execPmuInjReq t x v s) := by
  unfold execPmuInjReq
  repeat' first
    | with_reducible first | assumption | intro _ | apply State.whenHost_ok | apply State.pmuArrive_ok | apply State.inject_ok | apply ite_ok | apply next_ok | apply ite_out_ok
    | exact rfl
    | (simp only [ok_mk]; with_reducible apply core_any_ok)
    | (try dsimp only); split

theorem State.pmuEdge_ok (i : Nat) (t : Tu) (hs : Ok que Q s) :
    Ok que Q (s.pmuEdge i t) := by
  unfold State.pmuEdge
  repeat' first
    | with_reducible first | assumption | intro _ | apply State.each_ok | apply State.used_ok | apply State.modMc_ok | apply State.pmuArrive_ok | apply ite_ok
    | exact rfl
    | (simp only [ok_mk]; with_reducible apply core_ok)
    | (try dsimp only); split

theorem execPmuCalReq_ok (t : Tu) (x : Fin 2) (hs : Ok que AnyTime s) :
    OkOut que (execPmuCalReq t x s) := by
  unfold execPmuCalReq
  repeat' first
    | with_reducible first | assumption | intro _ | apply State.whenHost_ok | apply State.pmuArrive_ok | apply State.requestCal_ok | apply ite_ok | apply next_ok | apply ite_out_ok
    | exact rfl
    | (simp only [ok_mk]; with_reducible apply core_any_ok)
    | (try dsimp only); split

theorem State.calDone_ok (x : Nat) (c : Conv) (good : Bool) (hs : Ok que Q s) :
    Ok que Q (s.calDone x c good) := by
  unfold State.calDone
  repeat' first
    | with_reducible first | assumption | intro _ | apply State.setFld_ok | apply State.raise0_ok | apply State.modMc_ok | apply State.pmuStop_ok | apply State.pmuShow_ok | apply State.pmuGo_ok | apply ite_ok
    | exact rfl
    | (simp only [ok_mk]; with_reducible apply core_ok)
    | (try dsimp only); split

theorem execPmuCalDone_ok (t : Tu) (x : Fin 2) (good : Bool) (hs : Ok que AnyTime s) :
    OkOut que (execPmuCalDone t x good s) := by
  unfold execPmuCalDone
  repeat' first
    | with_reducible first | assumption | intro _ | apply State.when_ok | apply State.pmuArrive_ok | apply State.calDone_ok | apply ite_ok | apply next_ok | apply ite_out_ok
    | exact rfl
    | (simp only [ok_mk]; with_reducible apply core_any_ok)
    | (try dsimp only); split

theorem State.writeMcCfg_ok (x : Nat) (v : Word) (hs : Ok que Q s) :
    Ok que Q (s.writeMcCfg x v) := by
  unfold State.writeMcCfg
  repeat' first
    | with_reducible first | assumption | intro _ | apply State.pmuArrive_ok | apply State.setReg_ok | apply State.modMc_ok | apply State.injDrop_ok | apply State.pmuStop_ok | apply State.pmuShow_ok | apply State.pmuGo_ok | apply ite_ok
    | exact rfl
    | (simp only [ok_mk]; with_reducible apply core_ok)
    | (try dsimp only); split

theorem execPmuMcCfgWrite_ok (t : Tu) (x : Fin 2) (v : Word) (hs : Ok que AnyTime s) :
    OkOut que (execPmuMcCfgWrite t x v s) := by
  unfold execPmuMcCfgWrite
  repeat' first
    | with_reducible first | assumption | intro _ | apply State.whenHost_ok | apply State.writeMcCfg_ok | apply ite_ok | apply next_ok | apply ite_out_ok
    | exact rfl
    | (simp only [ok_mk]; with_reducible apply core_any_ok)
    | (try dsimp only); split

theorem State.injPop_ok (x : Nat) (hs : Ok que Q s) :
    Ok que Q (s.injPop x) := by
  unfold State.injPop
  repeat' first
    | with_reducible first | assumption | intro _ | apply State.setPair_ok | apply State.setReg_ok | apply State.emit_ok | apply State.modMc_ok
    | exact rfl
    | (simp only [ok_mk]; with_reducible apply core_ok)
    | (try dsimp only); split

theorem execPmuInjResPop_ok (t : Tu) (x : Fin 2) (hs : Ok que AnyTime s) :
    OkOut que (execPmuInjResPop t x s) := by
  unfold execPmuInjResPop
  repeat' first
    | with_reducible first | assumption | intro _ | apply State.whenHost_ok | apply State.pmuArrive_ok | apply State.injPop_ok | apply ite_ok | apply next_ok | apply ite_out_ok
    | exact rfl
    | (simp only [ok_mk]; with_reducible apply core_any_ok)
    | (try dsimp only); split

theorem execPmuTwinMiss_ok (t : Tu) (hs : Ok que AnyTime s) :
    OkOut que (execPmuTwinMiss t s) := by
  unfold execPmuTwinMiss
  repeat' first
    | with_reducible first | assumption | intro _ | apply State.when_ok | apply State.bump_ok | apply State.raise0_ok | apply ite_ok | apply next_ok | apply ite_out_ok
    | exact rfl
    | (simp only [ok_mk]; with_reducible apply core_any_ok)
    | (try dsimp only); split

theorem State.commitSeqCtrl_ok (x : Nat) (v : Word) (hs : Ok que Q s) :
    Ok que Q (s.commitSeqCtrl x v) := by
  unfold State.commitSeqCtrl
  repeat' first
    | with_reducible first | assumption | intro _ | apply State.setReg_ok | apply State.setFld_ok | apply State.pmuShow_ok | apply State.modMc_ok | apply State.pmuNext_ok | apply ite_ok
    | exact rfl
    | (simp only [ok_mk]; with_reducible apply core_ok)
    | (try dsimp only); split

theorem State.pmuTick_ok (x : Nat) (hs : Ok que Q s) :
    Ok que Q (s.pmuTick x) := by
  unfold State.pmuTick
  repeat' first
    | with_reducible first | assumption | intro _ | apply State.bump_ok | apply State.modMc_ok | apply State.pmuNext_ok | apply ite_ok
    | exact rfl
    | (simp only [ok_mk]; with_reducible apply core_ok)
    | (try dsimp only); split

theorem State.pmuStep_ok (d : Int) (hs : Ok que Q s) :
    Ok que Q (s.pmuStep d) := by
  unfold State.pmuStep
  repeat' first
    | with_reducible first | assumption | intro _ | apply State.each_ok | apply State.modMc_ok
    | exact rfl
    | (simp only [ok_mk]; with_reducible apply core_ok)
    | (try dsimp only); split

theorem State.pmuSwitched_ok (hs : Ok que Q s) :
    Ok que Q (State.pmuSwitched s) := by
  unfold State.pmuSwitched
  repeat' first
    | with_reducible first | assumption | intro _ | apply State.each_ok | apply State.modMc_ok
    | exact rfl
    | (simp only [ok_mk]; with_reducible apply core_ok)
    | (try dsimp only); split

theorem State.pmuCoast_ok (hs : Ok que Q s) :
    Ok que Q (s.pmuCoast) := by
  unfold State.pmuCoast
  repeat' first
    | with_reducible first | assumption | intro _ | apply State.each_ok | apply State.modMc_ok | apply ite_ok
    | exact rfl
    | (simp only [ok_mk]; with_reducible apply core_ok)
    | (try dsimp only); split

end Sys2Proof.Machine
end

