-- ==== Sys2Proof/Laws/KeepTrg.lean ====
section
/-! SUPPORT. What every operation of Machine/Trg.lean keeps: the invariant, and the queue of waiting commands. -/

set_option linter.unusedTactic false
set_option linter.unreachableTactic false
set_option linter.unusedSimpArgs false

namespace Sys2Proof.Machine

variable {que : List Instr} {Q : Saying} {s : State}

theorem State.noteGens_ok (c : Nat) (hs : Ok que Q s) :
    Ok que Q (s.noteGens c) := by
  unfold State.noteGens
  repeat' first
    | with_reducible first | assumption | intro _ | apply State.setFld_ok | apply State.raise_ok | apply ite_ok | apply foldl_ok | apply foldl_fst_ok
    | exact rfl
    | (simp only [ok_mk]; with_reducible apply core_ok)
    | (try dsimp only); split

theorem State.fireOut_ok (mask typ n : Nat) (tts : Tu) (hs : Ok que Q s) :
    Ok que Q (s.fireOut mask typ n tts) := by
  unfold State.fireOut
  repeat' first
    | with_reducible first | assumption | intro _ | apply State.firePulse_ok | apply State.tlkSend_ok | apply ite_ok | apply foldl_ok | apply foldl_fst_ok
    | exact rfl
    | (simp only [ok_mk]; with_reducible apply core_ok)
    | (try dsimp only); split

theorem State.accRef_ok (g : Nat) (tts : Tu) (hs : Ok que Q s) :
    Ok que Q (s.accRef g tts) := by
  unfold State.accRef
  repeat' first
    | with_reducible first | assumption | intro _ | apply State.setFld_ok | apply ite_ok | apply foldl_ok | apply foldl_fst_ok
    | exact rfl
    | (simp only [ok_mk]; with_reducible apply core_ok)
    | (try dsimp only); split

theorem State.fire_ok (g : Nat) (tts : Tu) (forced : Bool) (hs : Ok que Q s) :
    Ok que Q (s.fire g tts forced) := by
  unfold State.fire
  repeat' first
    | with_reducible first | assumption | intro _ | apply State.bump_ok | apply State.setPair_ok | apply State.setFld_ok | apply State.raise0_ok | apply State.modGen_ok | apply State.fireRegions_ok | apply State.fireOut_ok | apply State.ticSource_ok | apply State.accRef_ok | apply ite_ok
    | exact rfl
    | (simp only [ok_mk]; with_reducible apply core_ok)
    | (try dsimp only); split

theorem State.xfire_ok (x : Nat) (tts : Tu) (hs : Ok que Q s) :
    Ok que Q (s.xfire x tts) := by
  unfold State.xfire
  repeat' first
    | with_reducible first | assumption | intro _ | apply State.fireRegions_ok | apply State.fireOut_ok
    | exact rfl
    | (simp only [ok_mk]; with_reducible apply core_ok)
    | (try dsimp only); split

theorem State.fireOrLose_ok (g : Nat) (t : Tu) (hs : Ok que Q s) :
    Ok que Q (s.fireOrLose g t).1 := by
  unfold State.fireOrLose
  repeat' first
    | with_reducible first | assumption | intro _ | apply State.bumpRaise_ok | apply State.fire_ok | apply ite_fst_ok | apply ite_ok
    | exact rfl
    | (simp only [ok_mk]; with_reducible apply core_ok)
    | (try dsimp only); split

theorem State.condition_ok (g : Nat) (t : Tu) (hs : Ok que Q s) :
    Ok que Q (s.condition g t).1 := by
  unfold State.condition
  repeat' first
    | with_reducible first | assumption | intro _ | apply State.modGen_ok | apply State.fireOrLose_ok | apply ite_fst_ok | apply ite_ok
    | exact rfl
    | (simp only [ok_mk]; with_reducible apply core_ok)
    | (try dsimp only); split

theorem State.startWaits_ok (a : Nat) (t : Tu) (hs : Ok que Q s) :
    Ok que Q (s.startWaits a t) := by
  unfold State.startWaits
  repeat' first
    | with_reducible first | assumption | intro _ | apply State.modGen_ok | apply ite_ok | apply foldl_ok | apply foldl_fst_ok
    | exact rfl
    | (simp only [ok_mk]; with_reducible apply core_ok)
    | (try dsimp only); split

theorem State.conditions_ok (c : Nat) (t : Tu) (p : Nat → Bool) (hs : Ok que Q s) :
    Ok que Q (s.conditions c t p) := by
  unfold State.conditions
  repeat' first
    | with_reducible first | assumption | intro _ | apply State.condition_ok | apply State.startWaits_ok | apply ite_ok | apply foldl_ok | apply foldl_fst_ok
    | exact rfl
    | (simp only [ok_mk]; with_reducible apply core_ok)
    | (try dsimp only); split

theorem State.notePattern_ok (g i0 i1 : Nat) (t : Tu) (hs : Ok que Q s) :
    Ok que Q (s.notePattern g i0 i1 t) := by
  unfold State.notePattern
  repeat' first
    | with_reducible first | assumption | intro _ | apply State.modGen_ok | apply ite_ok
    | exact rfl
    | (simp only [ok_mk]; with_reducible apply core_ok)
    | (try dsimp only); split

theorem State.crossing_ok (ln : Nat) (lo rise : Bool) (t : Tu) (hs : Ok que Q s) :
    Ok que Q (s.crossing ln lo rise t) := by
  unfold State.crossing
  repeat' first
    | with_reducible first | assumption | intro _ | apply State.setFld_ok | apply State.notePattern_ok | apply State.conditions_ok | apply State.ticSource_ok | apply ite_ok | apply foldl_ok | apply foldl_fst_ok
    | exact rfl
    | (simp only [ok_mk]; with_reducible apply core_ok)
    | (try dsimp only); split

theorem State.trigLine_ok (line : Nat) (tts : Tu) (hs : Ok que Q s) :
    Ok que Q (s.trigLine line tts) := by
  unfold State.trigLine
  repeat' first
    | with_reducible first | assumption | intro _ | apply State.xfire_ok | apply State.each_ok | apply State.conditions_ok | apply State.ticAll_ok
    | exact rfl
    | (simp only [ok_mk]; with_reducible apply core_ok)
    | (try dsimp only); split

theorem State.force_ok (c bits : Nat) (hs : Ok que Q s) :
    Ok que Q (s.force c bits) := by
  unfold State.force
  repeat' first
    | with_reducible first | assumption | intro _ | apply State.modGen_ok | apply ite_ok | apply foldl_ok | apply foldl_fst_ok
    | exact rfl
    | (simp only [ok_mk]; with_reducible apply core_ok)
    | (try dsimp only); split

theorem State.forceFires_ok (c : Nat) (t : Tu) (hs : Ok que Q s) :
    Ok que Q (State.forceFires s c t) := by
  unfold State.forceFires
  repeat' first
    | with_reducible first | assumption | intro _ | apply State.modGen_ok | apply State.startWaits_ok | apply State.fire_ok | apply foldl_ok | apply foldl_fst_ok
    | exact rfl
    | (simp only [ok_mk]; with_reducible apply core_ok)
    | (try dsimp only); split

theorem State.placeTrigsTo_ok (t : Tu) (hs : Ok que Q s) :
    Ok que Q (State.placeTrigsTo s t) := by
  unfold State.placeTrigsTo
  repeat' first
    | with_reducible first | assumption | intro _ | apply State.forceFires_ok | apply State.trigLine_ok | apply ite_ok | apply foldl_ok | apply foldl_fst_ok
    | exact rfl
    | (simp only [ok_mk]; with_reducible apply core_ok)
    | (try dsimp only); split

theorem State.placeTrigs_ok (hs : Ok que Q s) :
    Ok que Q (s.placeTrigs) := by
  unfold State.placeTrigs
  repeat' first
    | with_reducible first | assumption | intro _ | apply State.placeTrigsTo_ok
    | exact rfl
    | (simp only [ok_mk]; with_reducible apply core_ok)
    | (try dsimp only); split

theorem State.restartGen_ok (g : Nat) (hs : Ok que Q s) :
    Ok que Q (s.restartGen g) := by
  unfold State.restartGen
  repeat' first
    | with_reducible first | assumption | intro _ | apply State.modGen_ok
    | exact rfl
    | (simp only [ok_mk]; with_reducible apply core_ok)
    | (try dsimp only); split

theorem State.commitGen_ok (n : RegName) (g : Nat) (v : Word) (hs : Ok que Q s) (hn : hardWired n = false) :
    Ok que Q (s.commitGen n g v) := by
  unfold State.commitGen
  repeat' first
    | with_reducible first | assumption | intro _ | apply State.setReg_ok | apply State.restartGen_ok | apply State.noteGens_ok
    | exact rfl
    | (simp only [ok_mk]; with_reducible apply core_ok)
    | (try dsimp only); split

theorem State.freshComp_ok (ln : Nat) (hs : Ok que Q s) :
    Ok que Q (s.freshComp ln) := by
  unfold State.freshComp
  repeat' first
    | with_reducible first | assumption | intro _ | apply State.used_ok | apply State.setFld_ok | apply State.notePattern_ok | apply foldl_ok | apply foldl_fst_ok
    | exact rfl
    | (simp only [ok_mk]; with_reducible apply core_ok)
    | (try dsimp only); split

theorem State.commitLevel_ok (n : RegName) (ln : Nat) (v : Word) (hs : Ok que Q s) (hn : hardWired n = false) :
    Ok que Q (s.commitLevel n ln v) := by
  unfold State.commitLevel
  repeat' first
    | with_reducible first | assumption | intro _ | apply State.setReg_ok | apply State.freshComp_ok | apply State.restartGen_ok | apply ite_ok | apply foldl_ok | apply foldl_fst_ok
    | exact rfl
    | (simp only [ok_mk]; with_reducible apply core_ok)
    | (try dsimp only); split

theorem State.tdcOffset_ok (ln : Nat) (off : Bool) (hs : Ok que Q s) :
    Ok que Q (s.tdcOffset ln off) := by
  unfold State.tdcOffset
  repeat' first
    | with_reducible first | assumption | intro _ | apply State.used_ok | apply State.raise_ok | apply ite_ok
    | exact rfl
    | (simp only [ok_mk]; with_reducible apply core_ok)
    | (try dsimp only); split

theorem execComparatorCrossing_ok (t : Tu) (ln : Fin 16) (lo rise tdcOff : Bool) (hs : Ok que AnyTime s) :
    OkOut que (execComparatorCrossing t ln lo rise tdcOff s) := by
  unfold execComparatorCrossing
  repeat' first
    | with_reducible first | assumption | intro _ | apply State.when_ok | apply State.placeTrigsTo_ok | apply State.crossing_ok | apply State.tdcOffset_ok | apply ite_ok | apply next_ok | apply ite_out_ok
    | exact rfl
    | (simp only [ok_mk]; with_reducible apply core_any_ok)
    | (try dsimp only); split

theorem execTrgForce_ok (t : Tu) (c : Fin 4) (bits : BitVec 4) (hs : Ok que AnyTime s) :
    OkOut que (execTrgForce t c bits s) := by
  unfold execTrgForce
  repeat' first
    | with_reducible first | assumption | intro _ | apply State.whenHost_ok | apply State.placeTrigs_ok | apply State.force_ok | apply ite_ok | apply next_ok | apply ite_out_ok
    | exact rfl
    | (simp only [ok_mk]; with_reducible apply core_any_ok)
    | (try dsimp only); split

theorem State.trigInEdge_ok (i : Nat) (rise : Bool) (t : Tu) (hs : Ok que Q s) :
    Ok que Q (s.trigInEdge i rise t) := by
  unfold State.trigInEdge
  repeat' first
    | with_reducible first | assumption | intro _ | apply State.bump_ok | apply State.raise0_ok | apply State.xfire_ok | apply State.each_ok | apply State.conditions_ok | apply State.ticAll_ok | apply State.pmuEdge_ok | apply ite_ok
    | exact rfl
    | (simp only [ok_mk]; with_reducible apply core_ok)
    | (try dsimp only); split

theorem execTrigInEdge_ok (t : Tu) (i : Fin 8) (rise : Bool) (hs : Ok que AnyTime s) :
    OkOut que (execTrigInEdge t i rise s) := by
  unfold execTrigInEdge
  repeat' first
    | with_reducible first | assumption | intro _ | apply State.when_ok | apply State.placeTrigsTo_ok | apply State.trigInEdge_ok | apply ite_ok | apply next_ok | apply ite_out_ok
    | exact rfl
    | (simp only [ok_mk]; with_reducible apply core_any_ok)
    | (try dsimp only); split

theorem State.pulseOut_ok (i : Nat) (hs : Ok que Q s) :
    Ok que Q (s.pulseOut i) := by
  unfold State.pulseOut
  repeat' first
    | with_reducible first | assumption | intro _ | apply State.emit_ok | apply State.bump_ok | apply ite_ok
    | exact rfl
    | (simp only [ok_mk]; with_reducible apply core_ok)
    | (try dsimp only); split

theorem execTrigOutPulse_ok (i : Fin 4) (hs : Ok que AnyTime s) :
    OkOut que (execTrigOutPulse i s) := by
  unfold execTrigOutPulse
  repeat' first
    | with_reducible first | assumption | intro _ | apply State.when_ok | apply State.placeTrigs_ok | apply State.pulseOut_ok | apply ite_ok | apply next_ok | apply ite_out_ok
    | exact rfl
    | (simp only [ok_mk]; with_reducible apply core_any_ok)
    | (try dsimp only); split

end Sys2Proof.Machine
end

