-- ==== Sys2Proof/Laws/KeepCapture.lean ====
section
/-! SUPPORT. What every operation of Machine/Capture.lean keeps: the invariant, and the queue of waiting commands. -/

set_option linter.unusedTactic false
set_option linter.unreachableTactic false
set_option linter.unusedSimpArgs false

namespace Sys2Proof.Machine

variable {que : List Instr} {Q : Saying} {s : State}

theorem execRegionFireDecision_ok (t : Tu) (m : Fin 32) (hs : Ok que AnyTime s) :
    OkOut que (execRegionFireDecision t m s) := by
  unfold execRegionFireDecision
  repeat' first
    | with_reducible first | assumption | intro _ | apply State.when_ok | apply State.placeTrigs_ok | apply State.judge_ok | apply ite_ok | apply next_ok | apply ite_out_ok
    | exact rfl
    | (simp only [ok_mk]; with_reducible apply core_any_ok)
    | (try dsimp only); split

theorem execContinuousBlock_ok (t : Tu) (m : Fin 32) (runs : List (List Sample)) (hs : Ok que AnyTime s) :
    OkOut que (execContinuousBlock t m runs s) := by
  unfold execContinuousBlock
  repeat' first
    | with_reducible first | assumption | intro _ | apply State.when_ok | apply State.placeTrigs_ok | apply State.blocksNow_ok | apply State.closeBlock_ok | apply ite_ok | apply next_ok | apply ite_out_ok
    | exact rfl
    | (simp only [ok_mk]; with_reducible apply core_any_ok)
    | (try dsimp only); split

theorem execTicTimeout_ok (i : Fin 32) (hs : Ok que AnyTime s) :
    OkOut que (execTicTimeout i s) := by
  unfold execTicTimeout
  repeat' first
    | with_reducible first | assumption | intro _ | apply State.when_ok | apply State.placeTrigs_ok | apply State.ticEnd_ok | apply ite_ok | apply next_ok | apply ite_out_ok
    | exact rfl
    | (simp only [ok_mk]; with_reducible apply core_any_ok)
    | (try dsimp only); split

theorem execTicWindowEnd_ok (i : Fin 32) (hs : Ok que AnyTime s) :
    OkOut que (execTicWindowEnd i s) := by
  unfold execTicWindowEnd
  repeat' first
    | with_reducible first | assumption | intro _ | apply State.when_ok | apply State.placeTrigs_ok | apply State.ticWindowOver_ok | apply ite_ok | apply next_ok | apply ite_out_ok
    | exact rfl
    | (simp only [ok_mk]; with_reducible apply core_any_ok)
    | (try dsimp only); split

theorem execTicGateEnd_ok (i : Fin 32) (hs : Ok que AnyTime s) :
    OkOut que (execTicGateEnd i s) := by
  unfold execTicGateEnd
  repeat' first
    | with_reducible first | assumption | intro _ | apply State.when_ok | apply State.placeTrigs_ok | apply State.ticGateEnd_ok | apply ite_ok | apply next_ok | apply ite_out_ok
    | exact rfl
    | (simp only [ok_mk]; with_reducible apply core_any_ok)
    | (try dsimp only); split

theorem State.clkinOut_ok (t : Tu) (rise : Bool) (hs : Ok que Q s) :
    Ok que Q (State.clkinOut s t rise) := by
  unfold State.clkinOut
  repeat' first
    | with_reducible first | assumption | intro _ | apply State.setFld_ok | apply State.ticAll_ok | apply ite_ok
    | exact rfl
    | (simp only [ok_mk]; with_reducible apply core_ok)
    | (try dsimp only); split

theorem State.clkinEdge_ok (t : Tu) (rise : Bool) (hs : Ok que Q s) :
    Ok que Q (State.clkinEdge s t rise) := by
  unfold State.clkinEdge
  repeat' first
    | with_reducible first | assumption | intro _ | apply State.clkinOut_ok | apply ite_ok
    | exact rfl
    | (simp only [ok_mk]; with_reducible apply core_ok)
    | (try dsimp only); split

theorem execClkinEdge_ok (t : Tu) (rise : Bool) (hs : Ok que AnyTime s) :
    OkOut que (execClkinEdge t rise s) := by
  unfold execClkinEdge
  repeat' first
    | with_reducible first | assumption | intro _ | apply State.when_ok | apply State.placeTrigsTo_ok | apply State.clkinEdge_ok | apply ite_ok | apply next_ok | apply ite_out_ok
    | exact rfl
    | (simp only [ok_mk]; with_reducible apply core_any_ok)
    | (try dsimp only); split

end Sys2Proof.Machine
end

