-- ==== Sys2Proof/Laws/KeepAcc.lean ====
section
/-! SUPPORT. What every operation of Machine/Acc.lean keeps: the invariant, and the queue of waiting commands. -/

set_option linter.unusedTactic false
set_option linter.unreachableTactic false
set_option linter.unusedSimpArgs false

namespace Sys2Proof.Machine

variable {que : List Instr} {Q : Saying} {s : State}

theorem State.snapLate_ok (p b : Nat) (t : Ratio) (hs : Ok que Q s) :
    Ok que Q (State.snapLate s p b t) := by
  unfold State.snapLate
  repeat' first
    | with_reducible first | assumption | intro _ | apply ite_ok
    | exact rfl
    | (simp only [ok_mk]; with_reducible apply core_ok)
    | (try dsimp only); split

theorem State.countBin_ok (p b : Nat) (hs : Ok que Q s) :
    Ok que Q (s.countBin p b) := by
  unfold State.countBin
  repeat' first
    | with_reducible first | assumption | intro _ | apply State.setPair_ok | apply State.setFld_ok | apply ite_ok
    | exact rfl
    | (simp only [ok_mk]; with_reducible apply core_ok)
    | (try dsimp only); split

theorem State.putMaskWord_ok (k w : Nat) (v : Word) (hs : Ok que Q s) :
    Ok que Q (s.putMaskWord k w v) := by
  unfold State.putMaskWord
  repeat' first
    | with_reducible first | assumption | intro _ | apply ite_ok
    | exact rfl
    | (simp only [ok_mk]; with_reducible apply core_ok)
    | (try dsimp only); split

theorem State.noteAcc_ok (c : Nat) (hs : Ok que Q s) :
    Ok que Q (s.noteAcc c) := by
  unfold State.noteAcc
  repeat' first
    | with_reducible first | assumption | intro _ | apply State.setFld_ok | apply foldl_ok | apply foldl_fst_ok
    | exact rfl
    | (simp only [ok_mk]; with_reducible apply core_ok)
    | (try dsimp only); split

theorem State.clearPlane_ok (p : Nat) (hs : Ok que Q s) :
    Ok que Q (s.clearPlane p) := by
  unfold State.clearPlane
  repeat' first
    | with_reducible first | assumption | intro _ | apply State.setPair_ok | apply State.setFld_ok | apply State.setFrame_ok
    | exact rfl
    | (simp only [ok_mk]; with_reducible apply core_ok)
    | (try dsimp only); split

theorem State.clearViol_ok (k : Nat) (hs : Ok que Q s) :
    Ok que Q (s.clearViol k) := by
  unfold State.clearViol
  repeat' first
    | with_reducible first | assumption | intro _ | apply State.setFld_ok | apply State.setPair_ok
    | exact rfl
    | (simp only [ok_mk]; with_reducible apply core_ok)
    | (try dsimp only); split

theorem State.accClear_ok (c : Nat) (hs : Ok que Q s) :
    Ok que Q (s.accClear c) := by
  unfold State.accClear
  repeat' first
    | with_reducible first | assumption | intro _ | apply State.clearPlane_ok | apply State.clearViol_ok | apply foldl_ok | apply foldl_fst_ok
    | exact rfl
    | (simp only [ok_mk]; with_reducible apply core_ok)
    | (try dsimp only); split

theorem State.accLose_ok (c : Nat) (hs : Ok que Q s) :
    Ok que Q (s.accLose c) := by
  unfold State.accLose
  repeat' first
    | with_reducible first | assumption | intro _ | apply State.clearPlane_ok | apply foldl_ok | apply foldl_fst_ok
    | exact rfl
    | (simp only [ok_mk]; with_reducible apply core_ok)
    | (try dsimp only); split

theorem State.dropRefs_ok (c : Nat) (hs : Ok que Q s) :
    Ok que Q (s.dropRefs c) := by
  unfold State.dropRefs
  repeat' first
    | with_reducible first | assumption | intro _ | apply State.setFld_ok | apply foldl_ok | apply foldl_fst_ok
    | exact rfl
    | (simp only [ok_mk]; with_reducible apply core_ok)
    | (try dsimp only); split

theorem State.commitSnap_ok (c : Nat) (v : Word) (hs : Ok que Q s) :
    Ok que Q (s.commitSnap c v) := by
  unfold State.commitSnap
  repeat' first
    | with_reducible first | assumption | intro _ | apply State.setReg_ok | apply State.setFld_ok | apply State.setFrame_ok | apply State.clearPlane_ok | apply ite_ok
    | exact rfl
    | (simp only [ok_mk]; with_reducible apply core_ok)
    | (try dsimp only); split

theorem State.takeRef_ok (p : Nat) (hs : Ok que Q s) :
    Ok que Q (State.takeRef s p) := by
  unfold State.takeRef
  repeat' first
    | with_reducible first | assumption | intro _ | apply State.setFld_ok
    | exact rfl
    | (simp only [ok_mk]; with_reducible apply core_ok)
    | (try dsimp only); split

theorem State.limitPlanes_ok (hs : Ok que Q s) :
    Ok que Q (State.limitPlanes s) := by
  unfold State.limitPlanes
  repeat' first
    | with_reducible first | assumption | intro _ | apply State.each_ok | apply State.setFld_ok | apply ite_ok
    | exact rfl
    | (simp only [ok_mk]; with_reducible apply core_ok)
    | (try dsimp only); split

theorem State.commitPlane_ok (n : RegName) (p : Nat) (v : Word) (hs : Ok que Q s) (hn : hardWired n = false) :
    Ok que Q (s.commitPlane n p v) := by
  unfold State.commitPlane
  repeat' first
    | with_reducible first | assumption | intro _ | apply State.setReg_ok | apply State.takeRef_ok | apply State.clearPlane_ok | apply State.noteAcc_ok | apply ite_ok
    | exact rfl
    | (simp only [ok_mk]; with_reducible apply core_ok)
    | (try dsimp only); split

theorem State.commitMask_ok (k : Nat) (v : Word) (hs : Ok que Q s) :
    Ok que Q (s.commitMask k v) := by
  unfold State.commitMask
  repeat' first
    | with_reducible first | assumption | intro _ | apply State.setReg_ok | apply State.noteAcc_ok | apply ite_ok
    | exact rfl
    | (simp only [ok_mk]; with_reducible apply core_ok)
    | (try dsimp only); split

theorem State.commitAccCtrl_ok (c : Nat) (v : Word) (hs : Ok que Q s) :
    Ok que Q (s.commitAccCtrl c v) := by
  unfold State.commitAccCtrl
  repeat' first
    | with_reducible first | assumption | intro _ | apply State.clearPlane_ok | apply State.clearViol_ok | apply State.setFld_ok | apply ite_ok | apply foldl_ok | apply foldl_fst_ok
    | exact rfl
    | (simp only [ok_mk]; with_reducible apply core_ok)
    | (try dsimp only); split

theorem State.placeSample_ok (p : Nat) (j : Int) (t : Ratio) (x : Sample) (hs : Ok que Q s) :
    Ok que Q (State.placeSample s p j t x) := by
  unfold State.placeSample
  repeat' first
    | with_reducible first | assumption | intro _ | apply State.bump_ok | apply State.snapLate_ok | apply State.countBin_ok | apply ite_ok
    | exact rfl
    | (simp only [ok_mk]; with_reducible apply core_ok)
    | (try dsimp only); split

theorem execSamplePlacement_ok (t : Tu) (p : Fin 16) (j : Int) (x : Sample) (hs : Ok que AnyTime s) :
    OkOut que (execSamplePlacement t p j x s) := by
  unfold execSamplePlacement
  repeat' first
    | with_reducible first | assumption | intro _ | apply State.when_ok | apply State.placeTrigs_ok | apply State.placeSample_ok | apply ite_ok | apply next_ok | apply ite_out_ok
    | exact rfl
    | (simp only [ok_mk]; with_reducible apply core_any_ok)
    | (try dsimp only); split

theorem State.maskTrigger_ok (k : Nat) (tts : Tu) (hs : Ok que Q s) :
    Ok que Q (s.maskTrigger k tts) := by
  unfold State.maskTrigger
  repeat' first
    | with_reducible first | assumption | intro _ | apply State.xfire_ok | apply State.ticSource_ok | apply ite_ok
    | exact rfl
    | (simp only [ok_mk]; with_reducible apply core_ok)
    | (try dsimp only); split

theorem State.violation_ok (k : Nat) (t : Ratio) (x : Sample) (hs : Ok que Q s) :
    Ok que Q (State.violation s k t x) := by
  unfold State.violation
  repeat' first
    | with_reducible first | assumption | intro _ | apply State.bump_ok | apply State.setPair_ok | apply State.maskTrigger_ok | apply State.fireRegions_ok | apply ite_ok
    | exact rfl
    | (simp only [ok_mk]; with_reducible apply core_ok)
    | (try dsimp only); split

theorem execMaskViolation_ok (t : Tu) (k : Fin 32) (j : Int) (x : Sample) (hs : Ok que AnyTime s) :
    OkOut que (execMaskViolation t k j x s) := by
  unfold execMaskViolation
  repeat' first
    | with_reducible first | assumption | intro _ | apply State.when_ok | apply State.placeTrigs_ok | apply State.violation_ok | apply ite_ok | apply next_ok | apply ite_out_ok
    | exact rfl
    | (simp only [ok_mk]; with_reducible apply core_any_ok)
    | (try dsimp only); split

theorem execAccSnapshotDone_ok (t : Tu) (c : Fin 4) (hs : Ok que AnyTime s) :
    OkOut que (execAccSnapshotDone t c s) := by
  unfold execAccSnapshotDone
  repeat' first
    | with_reducible first | assumption | intro _ | apply State.when_ok | apply State.setFld_ok | apply ite_ok | apply next_ok | apply ite_out_ok
    | exact rfl
    | (simp only [ok_mk]; with_reducible first | apply core_any_ok | apply core_mem_ok (Memory.wf_memPutAll _ _ _) | apply core_mem_ok (Memory.wf_filter _ _))
    | (simp only [ok_mk]; with_reducible first | apply core_ok | apply core_mem_ok (Memory.wf_memPutAll _ _ _))
    | (try dsimp only); split

end Sys2Proof.Machine
end

