-- ==== Sys2Proof/Laws/KeepRed.lean ====
section
/-! SUPPORT. What every operation of Machine/Red.lean keeps: the invariant, and the queue of waiting commands. -/

set_option linter.unusedTactic false
set_option linter.unreachableTactic false
set_option linter.unusedSimpArgs false

namespace Sys2Proof.Machine

variable {que : List Instr} {Q : Saying} {s : State}

theorem State.redMark_ok (u cause : Nat) (j : Int) (hs : Ok que Q s) :
    Ok que Q (s.redMark u cause j) := by
  unfold State.redMark
  repeat' first
    | with_reducible first | assumption | intro _ | apply State.setPair_ok | apply State.setFld_ok
    | exact rfl
    | (simp only [ok_mk]; with_reducible apply core_ok)
    | (try dsimp only); split

theorem State.redStart_ok (u cause : Nat) (t : Tu) (hs : Ok que Q s) :
    Ok que Q (s.redStart u cause t) := by
  unfold State.redStart
  repeat' first
    | with_reducible first | assumption | intro _ | apply State.modRed_ok | apply State.redMark_ok | apply State.setFld_ok | apply ite_ok
    | exact rfl
    | (simp only [ok_mk]; with_reducible apply core_ok)
    | (try dsimp only); split

theorem State.redStartAll_ok (us : List Nat) (cause : Nat) (t : Tu) (hs : Ok que Q s) :
    Ok que Q (s.redStartAll us cause t) := by
  unfold State.redStartAll
  repeat' first
    | with_reducible first | assumption | intro _ | apply State.redStart_ok | apply foldl_ok | apply foldl_fst_ok
    | exact rfl
    | (simp only [ok_mk]; with_reducible apply core_ok)
    | (try dsimp only); split

theorem State.redRephase_ok (u : Nat) (hs : Ok que Q s) :
    Ok que Q (s.redRephase u) := by
  unfold State.redRephase
  repeat' first
    | with_reducible first | assumption | intro _ | apply State.modRed_ok | apply State.redMark_ok | apply ite_ok
    | exact rfl
    | (simp only [ok_mk]; with_reducible apply core_ok)
    | (try dsimp only); split

theorem State.commitRed_ok (n : RegName) (u : Nat) (v : Word) (hs : Ok que Q s) (hn : hardWired n = false) :
    Ok que Q (s.commitRed n u v) := by
  unfold State.commitRed
  repeat' first
    | with_reducible first | assumption | intro _ | apply State.setReg_ok | apply State.modRed_ok | apply State.setFld_ok | apply State.redStart_ok | apply State.redRephase_ok | apply ite_ok
    | exact rfl
    | (simp only [ok_mk]; with_reducible apply core_ok)
    | (try dsimp only); split

theorem State.redSettle_ok (hs : Ok que Q s) :
    Ok que Q (s.redSettle) := by
  unfold State.redSettle
  repeat' first
    | with_reducible first | assumption | intro _ | apply State.each_ok | apply State.setFld_ok | apply ite_ok
    | exact rfl
    | (simp only [ok_mk]; with_reducible apply core_ok)
    | (try dsimp only); split

theorem State.redOutput_ok (u : Nat) (k : Int) (samples : List Sample) (hs : Ok que Q s) :
    Ok que Q (State.redOutput s u k samples) := by
  unfold State.redOutput
  repeat' first
    | with_reducible first | assumption | intro _ | apply State.modRed_ok | apply State.bumpMod_ok | apply State.setFld_ok | apply State.bump_ok | apply State.produce_ok | apply ite_ok
    | exact rfl
    | (simp only [ok_mk]; with_reducible apply core_ok)
    | (try dsimp only); split

theorem execReductionOutput_ok (u : Fin 16) (xs : List Sample) (hs : Ok que AnyTime s) :
    OkOut que (execReductionOutput u xs s) := by
  unfold execReductionOutput
  repeat' first
    | with_reducible first | assumption | intro _ | apply State.when_ok | apply State.redOutput_ok | apply State.redSettle_ok | apply ite_ok | apply next_ok | apply ite_out_ok
    | exact rfl
    | (simp only [ok_mk]; with_reducible apply core_any_ok)
    | (try dsimp only); split

end Sys2Proof.Machine
end

