-- ==== Sys2Proof/Laws/KeepRas.lean ====
section
/-! SUPPORT. What every operation of Machine/Ras.lean keeps: the invariant, and the queue of waiting commands. -/

set_option linter.unusedTactic false
set_option linter.unreachableTactic false
set_option linter.unusedSimpArgs false

namespace Sys2Proof.Machine

variable {que : List Instr} {Q : Saying} {s : State}

theorem State.modRas_ok (f : Ras → Ras) (hs : Ok que Q s) :
    Ok que Q (s.modRas f) := by
  unfold State.modRas
  repeat' first
    | with_reducible first | assumption | intro _
    | exact rfl
    | (simp only [ok_mk]; with_reducible apply core_ok)
    | (try dsimp only); split

theorem State.writeRasPending_ok (n : RegName) (i : Nat) (v : Word) (hs : Ok que Q s) :
    Ok que Q (s.writeRasPending n i v) := by
  unfold State.writeRasPending
  repeat' first
    | with_reducible first | assumption | intro _ | apply State.writeRW_ok | apply State.modRas_ok | apply State.setFld_ok | apply ite_ok
    | exact rfl
    | (simp only [ok_mk]; with_reducible apply core_ok)
    | (try dsimp only); split

theorem State.writeTiming_ok (r : RasTiming) (v : Word) (hs : Ok que Q s) :
    Ok que Q (s.writeTiming r v) := by
  unfold State.writeTiming
  repeat' first
    | with_reducible first | assumption | intro _ | apply State.writeRW_ok | apply State.writeRasPending_ok | apply State.setFld_ok | apply State.modRas_ok | apply ite_ok
    | exact rfl
    | (simp only [ok_mk]; with_reducible apply core_ok)
    | (try dsimp only); split

theorem State.writeLut_ok (k : Nat) (v : Word) (hs : Ok que Q s) :
    Ok que Q (s.writeLut k v) := by
  unfold State.writeLut
  repeat' first
    | with_reducible first | assumption | intro _ | apply State.modRas_ok
    | exact rfl
    | (simp only [ok_mk]; with_reducible apply core_ok)
    | (try dsimp only); split

theorem State.rasCommit_ok (hs : Ok que Q s) :
    Ok que Q (s.rasCommit) := by
  unfold State.rasCommit
  repeat' first
    | with_reducible first | assumption | intro _ | apply State.modRas_ok | apply State.raise0_ok | apply ite_ok
    | exact rfl
    | (simp only [ok_mk]; with_reducible apply core_ok)
    | (try dsimp only); split

theorem State.rasRects_ok (p : Picture) (hs : Ok que Q s) :
    Ok que Q (s.rasRects p) := by
  unfold State.rasRects
  repeat' first
    | with_reducible first | assumption | intro _ | apply State.each_ok | apply State.setReg_ok | apply State.bump_ok | apply State.raise0_ok | apply ite_ok
    | exact rfl
    | (simp only [ok_mk]; with_reducible apply core_ok)
    | (try dsimp only); split

theorem State.hfoStart_ok (xs : List Rgb) (hs : Ok que Q s) :
    Ok que Q (s.hfoStart xs) := by
  unfold State.hfoStart
  repeat' first
    | with_reducible first | assumption | intro _ | apply State.bump_ok | apply State.raise0_ok | apply State.modRas_ok | apply ite_ok
    | exact rfl
    | (simp only [ok_mk]; with_reducible apply core_ok)
    | (try dsimp only); split

theorem State.dsiFrame_ok (xs : List Rgb) (hs : Ok que Q s) :
    Ok que Q (State.dsiFrame s xs) := by
  unfold State.dsiFrame
  repeat' first
    | with_reducible first | assumption | intro _ | apply State.each_ok | apply State.emit_ok | apply ite_ok
    | exact rfl
    | (simp only [ok_mk]; with_reducible apply core_ok)
    | (try dsimp only); split

theorem State.rasOutputs_ok (p : Picture) (hs : Ok que Q s) :
    Ok que Q (s.rasOutputs p).1 := by
  unfold State.rasOutputs
  repeat' first
    | with_reducible first | assumption | intro _ | apply State.modRas_ok | apply State.dsiFrame_ok | apply State.hfoStart_ok | apply ite_fst_ok | apply ite_ok
    | exact rfl
    | (simp only [ok_mk]; with_reducible apply core_ok)
    | (try dsimp only); split

theorem State.rasRecord_ok (skipped : Bool) (hs : Ok que Q s) :
    Ok que Q (s.rasRecord skipped) := by
  unfold State.rasRecord
  repeat' first
    | with_reducible first | assumption | intro _ | apply State.setFld_ok | apply State.modRas_ok
    | exact rfl
    | (simp only [ok_mk]; with_reducible apply core_ok)
    | (try dsimp only); split

theorem State.freeDeferred_ok (hs : Ok que Q s) :
    Ok que Q (s.freeDeferred) := by
  unfold State.freeDeferred
  repeat' first
    | with_reducible first | assumption | intro _ | apply State.each_ok | apply State.setFld_ok | apply State.raise_ok | apply ite_ok
    | exact rfl
    | (simp only [ok_mk]; with_reducible apply core_ok)
    | (try dsimp only); split

theorem State.rasBlank_ok (hs : Ok que Q s) :
    Ok que Q (s.rasBlank) := by
  unfold State.rasBlank
  repeat' first
    | with_reducible first | assumption | intro _ | apply State.setFrame_ok | apply State.raise0_ok | apply State.modRas_ok | apply State.rasCommit_ok | apply State.freeDeferred_ok | apply State.setFld_ok | apply State.each_ok | apply ite_ok
    | exact rfl
    | (simp only [ok_mk]; with_reducible apply core_ok)
    | (try dsimp only); split

theorem State.writeRasCtrl_ok (v : Word) (hs : Ok que Q s) :
    Ok que Q (s.writeRasCtrl v) := by
  unfold State.writeRasCtrl
  repeat' first
    | with_reducible first | assumption | intro _ | apply State.writeRW_ok | apply State.diagClear_ok | apply State.rasBlank_ok | apply State.modRas_ok | apply State.setFld_ok | apply ite_ok
    | exact rfl
    | (simp only [ok_mk]; with_reducible apply core_ok)
    | (try dsimp only); split

theorem State.pixChange_ok (runs : Bool) (hs : Ok que Q s) :
    Ok que Q (s.pixChange runs) := by
  unfold State.pixChange
  repeat' first
    | with_reducible first | assumption | intro _ | apply State.setFld_ok | apply State.modRas_ok | apply ite_ok
    | exact rfl
    | (simp only [ok_mk]; with_reducible apply core_ok)
    | (try dsimp only); split

theorem execRasVblank_ok (t : Tu) (p : Picture) (hs : Ok que AnyTime s) :
    OkOut que (execRasVblank t p s) := by
  unfold execRasVblank
  repeat' first
    | with_reducible first | assumption | intro _ | apply State.when_ok | apply State.rasRects_ok | apply State.rasOutputs_ok | apply State.rasRecord_ok | apply State.rasBlank_ok | apply ite_ok | apply next_ok | apply ite_out_ok
    | exact rfl
    | (simp only [ok_mk]; with_reducible apply core_any_ok)
    | (try dsimp only); split

theorem execRasTimingWrite_ok (t : Tu) (r : RasTiming) (v : Word) (hs : Ok que AnyTime s) :
    OkOut que (execRasTimingWrite t r v s) := by
  unfold execRasTimingWrite
  repeat' first
    | with_reducible first | assumption | intro _ | apply State.whenHost_ok | apply State.writeTiming_ok | apply ite_ok | apply next_ok | apply ite_out_ok
    | exact rfl
    | (simp only [ok_mk]; with_reducible apply core_any_ok)
    | (try dsimp only); split

theorem execRasPixclkRestart_ok (t : Tu) (hs : Ok que AnyTime s) :
    OkOut que (execRasPixclkRestart t s) := by
  unfold execRasPixclkRestart
  repeat' first
    | with_reducible first | assumption | intro _ | apply State.when_ok | apply State.rasRecord_ok | apply State.rasBlank_ok | apply State.modRas_ok | apply State.raise0_ok | apply ite_ok | apply next_ok | apply ite_out_ok
    | exact rfl
    | (simp only [ok_mk]; with_reducible apply core_any_ok)
    | (try dsimp only); split

theorem execTeInEdge_ok (t : Tu) (hs : Ok que AnyTime s) :
    OkOut que (execTeInEdge t s) := by
  unfold execTeInEdge
  repeat' first
    | with_reducible first | assumption | intro _ | apply State.when_ok | apply State.modRas_ok | apply State.setFld_ok | apply ite_ok | apply next_ok | apply ite_out_ok
    | exact rfl
    | (simp only [ok_mk]; with_reducible apply core_any_ok)
    | (try dsimp only); split

theorem execRasTeLost_ok (t : Tu) (hs : Ok que AnyTime s) :
    OkOut que (execRasTeLost t s) := by
  unfold execRasTeLost
  repeat' first
    | with_reducible first | assumption | intro _ | apply State.when_ok | apply State.modRas_ok | apply State.setFld_ok | apply State.raise0_ok | apply ite_ok | apply next_ok | apply ite_out_ok
    | exact rfl
    | (simp only [ok_mk]; with_reducible apply core_any_ok)
    | (try dsimp only); split

theorem State.dsiSend_ok (v : Word) (hs : Ok que Q s) :
    Ok que Q (s.dsiSend v) := by
  unfold State.dsiSend
  repeat' first
    | with_reducible first | assumption | intro _ | apply State.writeRW_ok | apply State.emit_ok | apply State.modRas_ok | apply ite_ok
    | exact rfl
    | (simp only [ok_mk]; with_reducible apply core_ok)
    | (try dsimp only); split

theorem execDsiCmdSend_ok (t : Tu) (v : Word) (hs : Ok que AnyTime s) :
    OkOut que (execDsiCmdSend t v s) := by
  unfold execDsiCmdSend
  repeat' first
    | with_reducible first | assumption | intro _ | apply State.whenHost_ok | apply State.dsiSend_ok | apply ite_ok | apply next_ok | apply ite_out_ok
    | exact rfl
    | (simp only [ok_mk]; with_reducible apply core_any_ok)
    | (try dsimp only); split

theorem execDsiCmdDone_ok (t : Tu) (r : DsiResult) (hs : Ok que AnyTime s) :
    OkOut que (execDsiCmdDone t r s) := by
  unfold execDsiCmdDone
  repeat' first
    | with_reducible first | assumption | intro _ | apply State.when_ok | apply State.modRas_ok | apply State.setFld_ok | apply State.raise_ok | apply ite_ok | apply next_ok | apply ite_out_ok
    | exact rfl
    | (simp only [ok_mk]; with_reducible apply core_any_ok)
    | (try dsimp only); split

theorem execRasHfoDone_ok (t : Tu) (hs : Ok que AnyTime s) :
    OkOut que (execRasHfoDone t s) := by
  unfold execRasHfoDone
  repeat' first
    | with_reducible first | assumption | intro _ | apply State.whenHost_ok | apply State.emit_ok | apply State.setFld_ok | apply State.modRas_ok | apply State.raise0_ok | apply ite_ok | apply next_ok | apply ite_out_ok | apply foldl_ok | apply foldl_fst_ok
    | exact rfl
    | (simp only [ok_mk]; with_reducible apply core_any_ok)
    | (try dsimp only); split

theorem State.layerDry_ok (n : Nat) (hs : Ok que Q s) :
    Ok que Q (s.layerDry n) := by
  unfold State.layerDry
  repeat' first
    | with_reducible first | assumption | intro _ | apply State.modRas_ok | apply State.bump_ok | apply State.setFld_ok | apply State.raise_ok | apply ite_ok
    | exact rfl
    | (simp only [ok_mk]; with_reducible apply core_ok)
    | (try dsimp only); split

theorem execRasUnderrun_ok (t : Tu) (n : Fin 8) (hs : Ok que AnyTime s) :
    OkOut que (execRasUnderrun t n s) := by
  unfold execRasUnderrun
  repeat' first
    | with_reducible first | assumption | intro _ | apply State.when_ok | apply State.layerDry_ok | apply ite_ok | apply next_ok | apply ite_out_ok
    | exact rfl
    | (simp only [ok_mk]; with_reducible apply core_any_ok)
    | (try dsimp only); split

theorem State.bufRelease_ok (b : Nat) (hs : Ok que Q s) :
    Ok que Q (s.bufRelease b) := by
  unfold State.bufRelease
  repeat' first
    | with_reducible first | assumption | intro _ | apply State.setFld_ok | apply ite_ok
    | exact rfl
    | (simp only [ok_mk]; with_reducible apply core_ok)
    | (try dsimp only); split

theorem execRasBufRel_ok (t : Tu) (b : Fin 16) (hs : Ok que AnyTime s) :
    OkOut que (execRasBufRel t b s) := by
  unfold execRasBufRel
  repeat' first
    | with_reducible first | assumption | intro _ | apply State.whenHost_ok | apply State.bufRelease_ok | apply ite_ok | apply next_ok | apply ite_out_ok
    | exact rfl
    | (simp only [ok_mk]; with_reducible apply core_any_ok)
    | (try dsimp only); split

theorem State.rasGateClosed_ok (hs : Ok que Q s) :
    Ok que Q (s.rasGateClosed) := by
  unfold State.rasGateClosed
  repeat' first
    | with_reducible first | assumption | intro _ | apply State.resetRegs_ok | apply State.modRas_ok
    | exact rfl
    | (simp only [ok_mk]; with_reducible apply core_ok)
    | (try dsimp only); split

theorem State.rasResume_ok (hs : Ok que Q s) :
    Ok que Q (s.rasResume) := by
  unfold State.rasResume
  repeat' first
    | with_reducible first | assumption | intro _ | apply State.rasBlank_ok | apply ite_ok
    | exact rfl
    | (simp only [ok_mk]; with_reducible apply core_ok)
    | (try dsimp only); split

end Sys2Proof.Machine
end

