-- ==== Sys2Proof/Laws/KeepPll.lean ====
section
/-! SUPPORT. What every operation of Machine/Pll.lean keeps: the invariant, and the queue of waiting commands. -/

set_option linter.unusedTactic false
set_option linter.unreachableTactic false
set_option linter.unusedSimpArgs false

namespace Sys2Proof.Machine

variable {que : List Instr} {Q : Saying} {s : State}

theorem State.auxPut_ok (i : Nat) (a : Aux) (hs : Ok que Q s) :
    Ok que Q (State.auxPut s i a) := by
  unfold State.auxPut
  repeat' first
    | with_reducible first | assumption | intro _ | apply State.emit_ok | apply ite_ok
    | exact rfl
    | (simp only [ok_mk]; with_reducible apply core_ok)
    | (try dsimp only); split

theorem State.auxOut_ok (i : Nat) (x : Ratio) (hs : Ok que Q s) :
    Ok que Q (State.auxOut s i x) := by
  unfold State.auxOut
  repeat' first
    | with_reducible first | assumption | intro _ | apply State.auxPut_ok
    | exact rfl
    | (simp only [ok_mk]; with_reducible apply core_ok)
    | (try dsimp only); split

theorem State.auxCut_ok (i : Nat) (hs : Ok que Q s) :
    Ok que Q (State.auxCut s i) := by
  unfold State.auxCut
  repeat' first
    | with_reducible first | assumption | intro _ | apply State.auxPut_ok | apply ite_ok
    | exact rfl
    | (simp only [ok_mk]; with_reducible apply core_ok)
    | (try dsimp only); split

theorem State.auxStart_ok (i : Nat) (x : Ratio) (hs : Ok que Q s) :
    Ok que Q (State.auxStart s i x) := by
  unfold State.auxStart
  repeat' first
    | with_reducible first | assumption | intro _ | apply State.auxCut_ok | apply State.auxPut_ok
    | exact rfl
    | (simp only [ok_mk]; with_reducible apply core_ok)
    | (try dsimp only); split

theorem State.auxFresh_ok (i : Nat) (hs : Ok que Q s) :
    Ok que Q (State.auxFresh s i) := by
  unfold State.auxFresh
  repeat' first
    | with_reducible first | assumption | intro _ | apply State.auxCut_ok | apply State.used_ok | apply State.auxStart_ok
    | exact rfl
    | (simp only [ok_mk]; with_reducible apply core_ok)
    | (try dsimp only); split

theorem State.writeAuxCfg_ok (i : Nat) (v : Word) (hs : Ok que Q s) :
    Ok que Q (State.writeAuxCfg s i v) := by
  unfold State.writeAuxCfg
  repeat' first
    | with_reducible first | assumption | intro _ | apply State.writeRW_ok | apply State.auxOut_ok
    | exact rfl
    | (simp only [ok_mk]; with_reducible apply core_ok)
    | (try dsimp only); split

theorem State.writeAuxDelay_ok (i : Nat) (v : Word) (hs : Ok que Q s) :
    Ok que Q (State.writeAuxDelay s i v) := by
  unfold State.writeAuxDelay
  repeat' first
    | with_reducible first | assumption | intro _ | apply State.writeRW_ok | apply State.auxOut_ok | apply ite_ok
    | exact rfl
    | (simp only [ok_mk]; with_reducible apply core_ok)
    | (try dsimp only); split

theorem execAuxCfgWrite_ok (t : Tu) (i : Fin 4) (v : Word) (hs : Ok que AnyTime s) :
    OkOut que (execAuxCfgWrite t i v s) := by
  unfold execAuxCfgWrite
  repeat' first
    | with_reducible first | assumption | intro _ | apply State.whenHost_ok | apply State.writeAuxCfg_ok | apply ite_ok | apply next_ok | apply ite_out_ok
    | exact rfl
    | (simp only [ok_mk]; with_reducible apply core_any_ok)
    | (try dsimp only); split

theorem execAuxDelayWrite_ok (t : Tu) (i : Fin 4) (v : Word) (hs : Ok que AnyTime s) :
    OkOut que (execAuxDelayWrite t i v s) := by
  unfold execAuxDelayWrite
  repeat' first
    | with_reducible first | assumption | intro _ | apply State.whenHost_ok | apply State.writeAuxDelay_ok | apply ite_ok | apply next_ok | apply ite_out_ok
    | exact rfl
    | (simp only [ok_mk]; with_reducible apply core_any_ok)
    | (try dsimp only); split

theorem State.auxAlign_ok (i : Nat) (ts : Tu) (hs : Ok que Q s) :
    Ok que Q (State.auxAlign s i ts) := by
  unfold State.auxAlign
  repeat' first
    | with_reducible first | assumption | intro _ | apply State.auxPut_ok | apply ite_ok
    | exact rfl
    | (simp only [ok_mk]; with_reducible apply core_ok)
    | (try dsimp only); split

theorem State.auxSync_ok (ts : Tu) (hs : Ok que Q s) :
    Ok que Q (s.auxSync ts) := by
  unfold State.auxSync
  repeat' first
    | with_reducible first | assumption | intro _ | apply State.each_ok | apply State.auxAlign_ok | apply ite_ok
    | exact rfl
    | (simp only [ok_mk]; with_reducible apply core_ok)
    | (try dsimp only); split

theorem State.auxFollow_ok (m : Nat) (f : State → Nat → State) (hs : Ok que Q s) (hf : ∀ s x0, Ok que Q s → Ok que Q (f s x0)) :
    Ok que Q (State.auxFollow s m f) := by
  unfold State.auxFollow
  repeat' first
    | with_reducible first | assumption | intro _ | apply State.each_ok | apply hf | apply ite_ok
    | exact rfl
    | (simp only [ok_mk]; with_reducible apply core_ok)
    | (try dsimp only); split

theorem State.spllLockEvent_ok (e bit : Nat) (hs : Ok que Q s) :
    Ok que Q (s.spllLockEvent e bit) := by
  unfold State.spllLockEvent
  repeat' first
    | with_reducible first | assumption | intro _ | apply State.raise_ok
    | exact rfl
    | (simp only [ok_mk]; with_reducible apply core_ok)
    | (try dsimp only); split

theorem State.spllRateEvent_ok (e bit : Nat) (hs : Ok que Q s) :
    Ok que Q (s.spllRateEvent e bit) := by
  unfold State.spllRateEvent
  repeat' first
    | with_reducible first | assumption | intro _ | apply State.raise_ok
    | exact rfl
    | (simp only [ok_mk]; with_reducible apply core_ok)
    | (try dsimp only); split

theorem State.anchorLater_ok (e : Nat) (t : Tu) (fast : Bool) (hs : Ok que Q s) :
    Ok que Q (s.anchorLater e t fast) := by
  unfold State.anchorLater
  repeat' first
    | with_reducible first | assumption | intro _ | apply State.modSpll_ok
    | exact rfl
    | (simp only [ok_mk]; with_reducible apply core_ok)
    | (try dsimp only); split

theorem State.setAnchor_ok (e : Nat) (frame : Frame) (fast : Bool) (t : Tu) (hs : Ok que Q s) :
    Ok que Q (s.setAnchor e frame fast t) := by
  unfold State.setAnchor
  repeat' first
    | with_reducible first | assumption | intro _ | apply State.loseGrid_ok | apply State.endMove_ok | apply State.ofsHold_ok | apply State.setFrame_ok | apply State.modSpll_ok | apply State.redStartAll_ok | apply ite_ok
    | exact rfl
    | (simp only [ok_mk]; with_reducible apply core_ok)
    | (try dsimp only); split

theorem State.anchorReached_ok (e : Nat) (hs : Ok que Q s) :
    Ok que Q (State.anchorReached s e) := by
  unfold State.anchorReached
  repeat' first
    | with_reducible first | assumption | intro _ | apply State.onGrid_ok | apply State.endMove_ok | apply State.align_ok | apply State.modSpll_ok | apply ite_ok
    | exact rfl
    | (simp only [ok_mk]; with_reducible apply core_ok)
    | (try dsimp only); split

theorem State.anchorTick_ok (frame : Frame) (hs : Ok que Q s) :
    Ok que Q (s.anchorTick frame) := by
  unfold State.anchorTick
  repeat' first
    | with_reducible first | assumption | intro _ | apply State.each_ok | apply State.setAnchor_ok | apply ite_ok
    | exact rfl
    | (simp only [ok_mk]; with_reducible apply core_ok)
    | (try dsimp only); split

theorem State.unalign_ok (e : Nat) (hs : Ok que Q s) :
    Ok que Q (s.unalign e) := by
  unfold State.unalign
  repeat' first
    | with_reducible first | assumption | intro _ | apply State.loseGrid_ok | apply State.endMove_ok | apply State.modSpll_ok
    | exact rfl
    | (simp only [ok_mk]; with_reducible apply core_ok)
    | (try dsimp only); split

theorem State.unalignSlow_ok (e : Nat) (hs : Ok que Q s) :
    Ok que Q (State.unalignSlow s e) := by
  unfold State.unalignSlow
  repeat' first
    | with_reducible first | assumption | intro _ | apply State.loseGrid_ok | apply State.endMove_ok | apply State.modSpll_ok | apply ite_ok
    | exact rfl
    | (simp only [ok_mk]; with_reducible apply core_ok)
    | (try dsimp only); split

theorem State.setRate_ok (e rate : Nat) (hs : Ok que Q s) :
    Ok que Q (State.setRate s e rate) := by
  unfold State.setRate
  repeat' first
    | with_reducible first | assumption | intro _ | apply State.loseGrid_ok | apply State.setFld_ok | apply State.auxFollow_ok | apply State.auxOut_ok | apply ite_ok
    | exact rfl
    | (simp only [ok_mk]; with_reducible apply core_ok)
    | (try dsimp only); split

theorem State.rateHold_ok (e : Nat) (hs : Ok que Q s) :
    Ok que Q (s.rateHold e) := by
  unfold State.rateHold
  repeat' first
    | with_reducible first | assumption | intro _ | apply State.setRate_ok | apply State.modSpll_ok
    | exact rfl
    | (simp only [ok_mk]; with_reducible apply core_ok)
    | (try dsimp only); split

theorem State.startFollow_ok (e target : Nat) (hs : Ok que Q s) :
    Ok que Q (s.startFollow e target) := by
  unfold State.startFollow
  repeat' first
    | with_reducible first | assumption | intro _ | apply State.rateHold_ok | apply State.modSpll_ok | apply State.unalignSlow_ok | apply State.setFld_ok
    | exact rfl
    | (simp only [ok_mk]; with_reducible apply core_ok)
    | (try dsimp only); split

theorem State.startRamp_ok (e target : Nat) (hs : Ok que Q s) :
    Ok que Q (s.startRamp e target) := by
  unfold State.startRamp
  repeat' first
    | with_reducible first | assumption | intro _ | apply State.rateHold_ok | apply State.modSpll_ok | apply State.unalign_ok | apply State.setFld_ok | apply State.pauseLanes_ok
    | exact rfl
    | (simp only [ok_mk]; with_reducible apply core_ok)
    | (try dsimp only); split

theorem State.changeRate_ok (e target : Nat) (hs : Ok que Q s) :
    Ok que Q (s.changeRate e target) := by
  unfold State.changeRate
  repeat' first
    | with_reducible first | assumption | intro _ | apply State.startFollow_ok | apply State.startRamp_ok | apply ite_ok
    | exact rfl
    | (simp only [ok_mk]; with_reducible apply core_ok)
    | (try dsimp only); split

theorem State.commitRate_ok (e : Nat) (v : Word) (hs : Ok que Q s) :
    Ok que Q (s.commitRate e v) := by
  unfold State.commitRate
  repeat' first
    | with_reducible first | assumption | intro _ | apply State.setFld_ok | apply State.changeRate_ok
    | exact rfl
    | (simp only [ok_mk]; with_reducible apply core_ok)
    | (try dsimp only); split

theorem State.commitSpllCfg_ok (e : Nat) (v : Word) (hs : Ok que Q s) :
    Ok que Q (s.commitSpllCfg e v) := by
  unfold State.commitSpllCfg
  repeat' first
    | with_reducible first | assumption | intro _ | apply State.setFld_ok | apply State.modSpll_ok | apply State.startRamp_ok | apply ite_ok
    | exact rfl
    | (simp only [ok_mk]; with_reducible apply core_ok)
    | (try dsimp only); split

theorem State.commitLockCfg_ok (p : Nat) (v : Word) (hs : Ok que Q s) :
    Ok que Q (s.commitLockCfg p v) := by
  unfold State.commitLockCfg
  repeat' first
    | with_reducible first | assumption | intro _ | apply State.setReg_ok
    | exact rfl
    | (simp only [ok_mk]; with_reducible apply core_ok)
    | (try dsimp only); split

theorem State.limitRate_ok (e : Nat) (hs : Ok que Q s) :
    Ok que Q (s.limitRate e) := by
  unfold State.limitRate
  repeat' first
    | with_reducible first | assumption | intro _ | apply State.setFld_ok | apply State.changeRate_ok | apply ite_ok
    | exact rfl
    | (simp only [ok_mk]; with_reducible apply core_ok)
    | (try dsimp only); split

theorem State.startLanes_ok (e : Nat) (hs : Ok que Q s) :
    Ok que Q (s.startLanes e) := by
  unfold State.startLanes
  repeat' first
    | with_reducible first | assumption | intro _ | apply State.each_ok | apply State.modLane_ok | apply State.setFld_ok | apply ite_ok
    | exact rfl
    | (simp only [ok_mk]; with_reducible apply core_ok)
    | (try dsimp only); split

theorem State.spllLost_ok (e : Nat) (first : Tu) (hs : Ok que Q s) :
    Ok que Q (s.spllLost e first) := by
  unfold State.spllLost
  repeat' first
    | with_reducible first | assumption | intro _ | apply State.rateHold_ok | apply State.modSpll_ok | apply State.unalign_ok | apply State.setFld_ok | apply State.pauseLanes_ok | apply State.spllLockEvent_ok
    | exact rfl
    | (simp only [ok_mk]; with_reducible apply core_ok)
    | (try dsimp only); split

theorem execSpllLockLoss_ok (t : Tu) (e : Fin 2) (first : Tu) (err : Nat) (hs : Ok que AnyTime s) :
    OkOut que (execSpllLockLoss t e first err s) := by
  unfold execSpllLockLoss
  repeat' first
    | with_reducible first | assumption | intro _ | apply State.when_ok | apply State.spllLost_ok | apply State.modSpll_ok | apply ite_ok | apply next_ok | apply ite_out_ok
    | exact rfl
    | (simp only [ok_mk]; with_reducible apply core_any_ok)
    | (try dsimp only); split

theorem State.spllLocked_ok (e : Nat) (hs : Ok que Q s) :
    Ok que Q (s.spllLocked e) := by
  unfold State.spllLocked
  repeat' first
    | with_reducible first | assumption | intro _ | apply State.setRate_ok | apply State.setFld_ok | apply State.modSpll_ok | apply State.anchorLater_ok | apply State.spllRateEvent_ok | apply ite_ok
    | exact rfl
    | (simp only [ok_mk]; with_reducible apply core_ok)
    | (try dsimp only); split

theorem execSpllLock_ok (t : Tu) (e : Fin 2) (hs : Ok que AnyTime s) :
    OkOut que (execSpllLock t e s) := by
  unfold execSpllLock
  repeat' first
    | with_reducible first | assumption | intro _ | apply State.when_ok | apply State.spllLocked_ok | apply ite_ok | apply next_ok | apply ite_out_ok
    | exact rfl
    | (simp only [ok_mk]; with_reducible apply core_any_ok)
    | (try dsimp only); split

theorem State.spllSettle_ok (e : Nat) (x : Tu) (hs : Ok que Q s) :
    Ok que Q (State.spllSettle s e x) := by
  unfold State.spllSettle
  repeat' first
    | with_reducible first | assumption | intro _ | apply State.setFld_ok | apply State.modSpll_ok | apply State.rampSettled_ok | apply State.startLanes_ok | apply State.spllLockEvent_ok | apply State.spllRateEvent_ok | apply ite_ok
    | exact rfl
    | (simp only [ok_mk]; with_reducible apply core_ok)
    | (try dsimp only); split

theorem execSpllSettle_ok (t : Tu) (e : Fin 2) (hs : Ok que AnyTime s) :
    OkOut que (execSpllSettle t e s) := by
  unfold execSpllSettle
  repeat' first
    | with_reducible first | assumption | intro _ | apply State.when_ok | apply State.anchorReached_ok | apply State.spllSettle_ok | apply ite_ok | apply next_ok | apply ite_out_ok
    | exact rfl
    | (simp only [ok_mk]; with_reducible apply core_any_ok)
    | (try dsimp only); split

theorem execSpllRelockRetry_ok (t : Tu) (e : Fin 2) (hs : Ok que AnyTime s) :
    OkOut que (execSpllRelockRetry t e s) := by
  unfold execSpllRelockRetry
  repeat' first
    | with_reducible first | assumption | intro _ | apply State.when_ok | apply State.bump_ok | apply State.modSpll_ok | apply ite_ok | apply next_ok | apply ite_out_ok
    | exact rfl
    | (simp only [ok_mk]; with_reducible apply core_any_ok)
    | (try dsimp only); split

theorem execFollowDone_ok (t : Tu) (e : Fin 2) (hs : Ok que AnyTime s) :
    OkOut que (execFollowDone t e s) := by
  unfold execFollowDone
  repeat' first
    | with_reducible first | assumption | intro _ | apply State.when_ok | apply State.setRate_ok | apply State.setFld_ok | apply State.modSpll_ok | apply State.anchorLater_ok | apply State.spllRateEvent_ok | apply ite_ok | apply next_ok | apply ite_out_ok
    | exact rfl
    | (simp only [ok_mk]; with_reducible apply core_any_ok)
    | (try dsimp only); split

theorem execSpllAnchorReached_ok (t : Tu) (e : Fin 2) (hs : Ok que AnyTime s) :
    OkOut que (execSpllAnchorReached t e s) := by
  unfold execSpllAnchorReached
  repeat' first
    | with_reducible first | assumption | intro _ | apply State.when_ok | apply State.anchorReached_ok | apply ite_ok | apply next_ok | apply ite_out_ok
    | exact rfl
    | (simp only [ok_mk]; with_reducible apply core_any_ok)
    | (try dsimp only); split

theorem State.writePhase_ok (e x : Nat) (hs : Ok que Q s) :
    Ok que Q (s.writePhase e x) := by
  unfold State.writePhase
  repeat' first
    | with_reducible first | assumption | intro _ | apply State.ofsHold_ok | apply State.setFld_ok
    | exact rfl
    | (simp only [ok_mk]; with_reducible apply core_ok)
    | (try dsimp only); split

theorem execSpllPhaseWrite_ok (t : Tu) (e : Fin 2) (ofs : BitVec 11) (hs : Ok que AnyTime s) :
    OkOut que (execSpllPhaseWrite t e ofs s) := by
  unfold execSpllPhaseWrite
  repeat' first
    | with_reducible first | assumption | intro _ | apply State.whenHost_ok | apply State.writePhase_ok | apply ite_ok | apply next_ok | apply ite_out_ok
    | exact rfl
    | (simp only [ok_mk]; with_reducible apply core_any_ok)
    | (try dsimp only); split

theorem State.anchorsReached_ok (hs : Ok que Q s) :
    Ok que Q (State.anchorsReached s) := by
  unfold State.anchorsReached
  repeat' first
    | with_reducible first | assumption | intro _ | apply State.each_ok | apply State.anchorReached_ok
    | exact rfl
    | (simp only [ok_mk]; with_reducible apply core_ok)
    | (try dsimp only); split

theorem State.upToNow_ok (hs : Ok que Q s) :
    Ok que Q (State.upToNow s) := by
  unfold State.upToNow
  repeat' first
    | with_reducible first | assumption | intro _ | apply State.anchorsReached_ok | apply State.placeTrigs_ok | apply State.pmuArrive_ok | apply State.redSettle_ok
    | exact rfl
    | (simp only [ok_mk]; with_reducible apply core_ok)
    | (try dsimp only); split

theorem State.nowAt_ok (t : Tu) (hs : Ok que AnyTime s) :
    Ok que AnyTime (State.nowAt s t) := by
  unfold State.nowAt
  repeat' first
    | with_reducible first | assumption | intro _ | apply State.at_ok | apply State.upToNow_ok | apply State.logNoteDrop_ok | apply State.mergeNote_ok
    | exact rfl
    | (simp only [ok_mk]; with_reducible apply core_any_ok)
    | (try dsimp only); split

theorem State.whenAccess_ok (t : Tu) (f : State → State) (hs : Ok que AnyTime s) (hf : ∀ s , Ok que AnyTime s → Ok que AnyTime (f s )) :
    OkOut que (State.whenAccess s t f) := by
  unfold State.whenAccess
  repeat' first
    | with_reducible first | assumption | intro _ | apply State.nowAt_ok | apply State.done_ok | apply hf | apply ite_ok | apply next_ok | apply ite_out_ok
    | exact rfl
    | (simp only [ok_mk]; with_reducible apply core_any_ok)
    | (try dsimp only); split

theorem State.apllRefuse_ok (hs : Ok que Q s) :
    Ok que Q (s.apllRefuse) := by
  unfold State.apllRefuse
  repeat' first
    | with_reducible first | assumption | intro _ | apply State.setFld_ok | apply State.raise0_ok
    | exact rfl
    | (simp only [ok_mk]; with_reducible apply core_ok)
    | (try dsimp only); split

theorem State.apllTune_ok (hs : Ok que Q s) :
    Ok que Q (s.apllTune) := by
  unfold State.apllTune
  repeat' first
    | with_reducible first | assumption | intro _ | apply State.setFld_ok | apply State.auxFollow_ok | apply State.auxCut_ok
    | exact rfl
    | (simp only [ok_mk]; with_reducible apply core_ok)
    | (try dsimp only); split

theorem State.apllRetune_ok (w : ApllWrite) (hs : Ok que Q s) :
    Ok que Q (s.apllRetune w) := by
  unfold State.apllRetune
  repeat' first
    | with_reducible first | assumption | intro _ | apply State.setFld_ok | apply State.apllTune_ok | apply State.pixChange_ok | apply State.apllRefuse_ok | apply ite_ok
    | exact rfl
    | (simp only [ok_mk]; with_reducible apply core_ok)
    | (try dsimp only); split

theorem execApllRetune_ok (t : Tu) (w : ApllWrite) (hs : Ok que AnyTime s) :
    OkOut que (execApllRetune t w s) := by
  unfold execApllRetune
  repeat' first
    | with_reducible first | assumption | intro _ | apply State.whenHost_ok | apply State.apllRetune_ok | apply ite_ok | apply next_ok | apply ite_out_ok
    | exact rfl
    | (simp only [ok_mk]; with_reducible apply core_any_ok)
    | (try dsimp only); split

theorem State.apllDiv_ok (pix aux : Nat) (hs : Ok que Q s) :
    Ok que Q (s.apllDiv pix aux) := by
  unfold State.apllDiv
  repeat' first
    | with_reducible first | assumption | intro _ | apply State.setFld_ok | apply State.auxFollow_ok | apply State.auxOut_ok | apply State.pixChange_ok | apply State.apllRefuse_ok | apply ite_ok
    | exact rfl
    | (simp only [ok_mk]; with_reducible apply core_ok)
    | (try dsimp only); split

theorem execApllDivWrite_ok (t : Tu) (pix aux : Byte) (hs : Ok que AnyTime s) :
    OkOut que (execApllDivWrite t pix aux s) := by
  unfold execApllDivWrite
  repeat' first
    | with_reducible first | assumption | intro _ | apply State.whenHost_ok | apply State.apllDiv_ok | apply ite_ok | apply next_ok | apply ite_out_ok
    | exact rfl
    | (simp only [ok_mk]; with_reducible apply core_any_ok)
    | (try dsimp only); split

theorem State.apllLoss_ok (hs : Ok que Q s) :
    Ok que Q (s.apllLoss) := by
  unfold State.apllLoss
  repeat' first
    | with_reducible first | assumption | intro _ | apply State.setFld_ok | apply State.raise0_ok | apply State.pixChange_ok | apply ite_ok
    | exact rfl
    | (simp only [ok_mk]; with_reducible apply core_ok)
    | (try dsimp only); split

theorem execApllLock_ok (t : Tu) (up : Bool) (first : Tu) (err : Nat) (hs : Ok que AnyTime s) :
    OkOut que (execApllLock t up first err s) := by
  unfold execApllLock
  repeat' first
    | with_reducible first | assumption | intro _ | apply State.when_ok | apply State.apllLoss_ok | apply State.setFld_ok | apply State.raise0_ok | apply ite_ok | apply next_ok | apply ite_out_ok
    | exact rfl
    | (simp only [ok_mk]; with_reducible apply core_any_ok)
    | (try dsimp only); split

theorem execApllFeedResume_ok (t : Tu) (hs : Ok que AnyTime s) :
    OkOut que (execApllFeedResume t s) := by
  unfold execApllFeedResume
  repeat' first
    | with_reducible first | assumption | intro _ | apply State.when_ok | apply State.auxFollow_ok | apply State.auxStart_ok | apply State.modRas_ok | apply ite_ok | apply next_ok | apply ite_out_ok
    | exact rfl
    | (simp only [ok_mk]; with_reducible apply core_any_ok)
    | (try dsimp only); split

end Sys2Proof.Machine
end

