-- ==== Sys2Proof/Laws/KeepClk.lean ====
section
/-! SUPPORT. What every operation of Machine/Clk.lean keeps: the invariant, and the queue of waiting commands. -/

set_option linter.unusedTactic false
set_option linter.unreachableTactic false
set_option linter.unusedSimpArgs false

namespace Sys2Proof.Machine

variable {que : List Instr} {Q : Saying} {s : State}

theorem State.shiftTimers_ok (d : Int) (hs : Ok que AnyTime s) :
    Ok que AnyTime (s.shiftTimers d) := by
  unfold State.shiftTimers
  repeat' first
    | with_reducible first | assumption | intro _
    | exact rfl
    | (simp only [ok_mk]; with_reducible apply core_any_ok)
    | (try dsimp only); split

theorem State.shiftUnits_ok (d : Int) (hs : Ok que Q s) :
    Ok que Q (s.shiftUnits d) := by
  unfold State.shiftUnits
  repeat' first
    | with_reducible first | assumption | intro _ | apply State.each_ok | apply State.modLane_ok | apply State.modAfe_ok | apply State.settle_ok | apply State.modSpll_ok
    | exact rfl
    | (simp only [ok_mk]; with_reducible apply core_ok)
    | (try dsimp only); split

theorem State.shiftTriggers_ok (d : Int) (hs : Ok que Q s) :
    Ok que Q (s.shiftTriggers d) := by
  unfold State.shiftTriggers
  repeat' first
    | with_reducible first | assumption | intro _ | apply State.each_ok | apply State.modGen_ok | apply ite_ok
    | exact rfl
    | (simp only [ok_mk]; with_reducible apply core_ok)
    | (try dsimp only); split

theorem State.moveTime_ok (d : Int) (hs : Ok que AnyTime s) :
    Ok que AnyTime (s.moveTime d) := by
  unfold State.moveTime
  repeat' first
    | with_reducible first | assumption | intro _ | apply State.shiftTimers_ok | apply State.shiftUnits_ok | apply State.shiftTriggers_ok
    | exact rfl
    | (simp only [ok_mk]; with_reducible apply core_any_ok)
    | (try dsimp only); split

theorem State.jpllUnlock_ok (hs : Ok que Q s) :
    Ok que Q (s.jpllUnlock) := by
  unfold State.jpllUnlock
  repeat' first
    | with_reducible first | assumption | intro _ | apply State.setFld_ok | apply State.raise_ok | apply ite_ok
    | exact rfl
    | (simp only [ok_mk]; with_reducible apply core_ok)
    | (try dsimp only); split

theorem State.setActive_ok (x : Nat) (hs : Ok que Q s) :
    Ok que Q (s.setActive x) := by
  unfold State.setActive
  repeat' first
    | with_reducible first | assumption | intro _ | apply State.setFld_ok | apply State.pmuCoast_ok
    | exact rfl
    | (simp only [ok_mk]; with_reducible apply core_ok)
    | (try dsimp only); split

theorem execJpllLock_ok (t : Tu) (err : BitVec 16) (hs : Ok que AnyTime s) :
    OkOut que (execJpllLock t err s) := by
  unfold execJpllLock
  repeat' first
    | with_reducible first | assumption | intro _ | apply State.when_ok | apply State.setFld_ok | apply State.raise_ok | apply ite_ok | apply next_ok | apply ite_out_ok
    | exact rfl
    | (simp only [ok_mk]; with_reducible apply core_any_ok)
    | (try dsimp only); split

theorem execJpllCfgWrite_ok (t : Tu) (v : Word) (hs : Ok que AnyTime s) :
    OkOut que (execJpllCfgWrite t v s) := by
  unfold execJpllCfgWrite
  repeat' first
    | with_reducible first | assumption | intro _ | apply State.whenHost_ok | apply State.writeRW_ok | apply ite_ok | apply next_ok | apply ite_out_ok
    | exact rfl
    | (simp only [ok_mk]; with_reducible apply core_any_ok)
    | (try dsimp only); split

theorem hardWired_qualFld (x : Nat) : hardWired (qualFld x).reg = false := by
  unfold qualFld; (repeat' split) <;> rfl

theorem hardWired_qcountFld (x : Nat) : hardWired (qcountFld x).reg = false := by
  unfold qcountFld; (repeat' split) <;> rfl

theorem hardWired_devFld (x : Nat) : hardWired (devFld x).reg = false := by
  unfold devFld; (repeat' split) <;> rfl

theorem State.relockIdle_ok (hs : Ok que Q s) :
    Ok que Q (s.relockIdle) := by
  unfold State.relockIdle
  repeat' first
    | with_reducible first | assumption | intro _ | apply State.setFld_ok
    | exact rfl
    | (simp only [ok_mk]; with_reducible apply core_ok)
    | (try dsimp only); split

theorem State.unqualify_ok (x : Nat) (hs : Ok que Q s) :
    Ok que Q (s.unqualify x) := by
  unfold State.unqualify
  repeat' first
    | with_reducible first | assumption | intro _ | apply State.setFld_ok | apply State.relockIdle_ok | apply ite_ok | apply hardWired_qualFld | apply hardWired_qcountFld
    | exact rfl
    | (simp only [ok_mk]; with_reducible apply core_ok)
    | (try dsimp only); split

theorem State.switchTo_ok (x : Nat) (hs : Ok que Q s) :
    Ok que Q (s.switchTo x) := by
  unfold State.switchTo
  repeat' first
    | with_reducible first | assumption | intro _ | apply State.jpllUnlock_ok | apply State.setActive_ok | apply State.setFld_ok | apply State.relockIdle_ok | apply State.raise0_ok | apply ite_ok
    | exact rfl
    | (simp only [ok_mk]; with_reducible apply core_ok)
    | (try dsimp only); split

theorem State.choose_ok (hs : Ok que Q s) :
    Ok que Q (s.choose) := by
  unfold State.choose
  repeat' first
    | with_reducible first | assumption | intro _ | apply State.switchTo_ok
    | exact rfl
    | (simp only [ok_mk]; with_reducible apply core_ok)
    | (try dsimp only); split

theorem State.toCoast_ok (timed : Bool) (hs : Ok que Q s) :
    Ok que Q (s.toCoast timed) := by
  unfold State.toCoast
  repeat' first
    | with_reducible first | assumption | intro _ | apply State.jpllUnlock_ok | apply State.setActive_ok | apply ite_ok
    | exact rfl
    | (simp only [ok_mk]; with_reducible apply core_ok)
    | (try dsimp only); split

theorem State.trip_ok (hs : Ok que Q s) :
    Ok que Q (s.trip) := by
  unfold State.trip
  repeat' first
    | with_reducible first | assumption | intro _ | apply State.toCoast_ok | apply State.raise0_ok | apply State.unqualify_ok | apply State.relockIdle_ok | apply State.choose_ok | apply ite_ok
    | exact rfl
    | (simp only [ok_mk]; with_reducible apply core_ok)
    | (try dsimp only); split

theorem State.prefChanged_ok (hs : Ok que Q s) :
    Ok que Q (s.prefChanged) := by
  unfold State.prefChanged
  repeat' first
    | with_reducible first | assumption | intro _ | apply State.unqualify_ok | apply State.relockIdle_ok | apply State.switchTo_ok | apply State.toCoast_ok | apply State.raise0_ok | apply State.choose_ok | apply ite_ok | apply foldl_ok | apply foldl_fst_ok
    | exact rfl
    | (simp only [ok_mk]; with_reducible apply core_ok)
    | (try dsimp only); split

theorem execClkSrcCfgWrite_ok (t : Tu) (v : Word) (hs : Ok que AnyTime s) :
    OkOut que (execClkSrcCfgWrite t v s) := by
  unfold execClkSrcCfgWrite
  repeat' first
    | with_reducible first | assumption | intro _ | apply State.whenHost_ok | apply State.writeRW_ok | apply State.prefChanged_ok | apply ite_ok | apply next_ok | apply ite_out_ok
    | exact rfl
    | (simp only [ok_mk]; with_reducible apply core_any_ok)
    | (try dsimp only); split

theorem State.writeTlkEnable_ok (en : Bool) (hs : Ok que Q s) :
    Ok que Q (s.writeTlkEnable en) := by
  unfold State.writeTlkEnable
  repeat' first
    | with_reducible first | assumption | intro _ | apply State.setFld_ok | apply State.prefChanged_ok | apply State.diagClear_ok | apply ite_ok
    | exact rfl
    | (simp only [ok_mk]; with_reducible apply core_ok)
    | (try dsimp only); split

theorem execTlkEnableWrite_ok (t : Tu) (en : Bool) (hs : Ok que AnyTime s) :
    OkOut que (execTlkEnableWrite t en s) := by
  unfold execTlkEnableWrite
  repeat' first
    | with_reducible first | assumption | intro _ | apply State.whenHost_ok | apply State.writeTlkEnable_ok | apply ite_ok | apply next_ok | apply ite_out_ok
    | exact rfl
    | (simp only [ok_mk]; with_reducible apply core_any_ok)
    | (try dsimp only); split

theorem execJpllLockLoss_ok (t : Tu) (first : Tu) (err : BitVec 16) (hs : Ok que AnyTime s) :
    OkOut que (execJpllLockLoss t first err s) := by
  unfold execJpllLockLoss
  repeat' first
    | with_reducible first | assumption | intro _ | apply State.when_ok | apply State.setFld_ok | apply State.trip_ok | apply ite_ok | apply next_ok | apply ite_out_ok
    | exact rfl
    | (simp only [ok_mk]; with_reducible apply core_any_ok)
    | (try dsimp only); split

theorem State.qualOne_ok (x : Nat) (m : QualMeas) (hs : Ok que Q s) :
    Ok que Q (s.qualOne x m) := by
  unfold State.qualOne
  repeat' first
    | with_reducible first | assumption | intro _ | apply State.setFld_ok | apply State.unqualify_ok | apply ite_ok | apply hardWired_qcountFld | apply hardWired_qualFld
    | exact rfl
    | (simp only [ok_mk]; with_reducible apply core_ok)
    | (try dsimp only); split

theorem State.qualSource_ok (x : Nat) (m : QualMeas) (hs : Ok que Q s) :
    Ok que Q (s.qualSource x m) := by
  unfold State.qualSource
  repeat' first
    | with_reducible first | assumption | intro _ | apply State.setFld_ok | apply State.qualOne_ok | apply ite_ok | apply hardWired_devFld
    | exact rfl
    | (simp only [ok_mk]; with_reducible apply core_ok)
    | (try dsimp only); split

theorem State.qualNext_ok (hs : Ok que Q s) :
    Ok que Q (State.qualNext s) := by
  unfold State.qualNext
  repeat' first
    | with_reducible first | assumption | intro _
    | exact rfl
    | (simp only [ok_mk]; with_reducible apply core_ok)
    | (try dsimp only); split

theorem State.qualInterval_ok (link refin : QualMeas) (hs : Ok que Q s) :
    Ok que Q (s.qualInterval link refin) := by
  unfold State.qualInterval
  repeat' first
    | with_reducible first | assumption | intro _ | apply State.qualSource_ok | apply State.trip_ok | apply State.choose_ok | apply ite_ok
    | exact rfl
    | (simp only [ok_mk]; with_reducible apply core_ok)
    | (try dsimp only); split

theorem execQualInterval_ok (t : Tu) (link refin : QualMeas) (hs : Ok que AnyTime s) :
    OkOut que (execQualInterval t link refin s) := by
  unfold execQualInterval
  repeat' first
    | with_reducible first | assumption | intro _ | apply State.when_ok | apply State.qualInterval_ok | apply State.qualNext_ok | apply ite_ok | apply next_ok | apply ite_out_ok
    | exact rfl
    | (simp only [ok_mk]; with_reducible apply core_any_ok)
    | (try dsimp only); split

theorem execClkSrcTrip_ok (t : Tu) (cause : TripCause) (hs : Ok que AnyTime s) :
    OkOut que (execClkSrcTrip t cause s) := by
  unfold execClkSrcTrip
  repeat' first
    | with_reducible first | assumption | intro _ | apply State.when_ok | apply State.setFld_ok | apply State.trip_ok | apply ite_ok | apply next_ok | apply ite_out_ok | apply hardWired_devFld
    | exact rfl
    | (simp only [ok_mk]; with_reducible apply core_any_ok)
    | (try dsimp only); split

theorem execClkNoSource_ok (t : Tu) (hs : Ok que AnyTime s) :
    OkOut que (execClkNoSource t s) := by
  unfold execClkNoSource
  repeat' first
    | with_reducible first | assumption | intro _ | apply State.when_ok | apply State.setFld_ok | apply State.raise0_ok | apply ite_ok | apply next_ok | apply ite_out_ok
    | exact rfl
    | (simp only [ok_mk]; with_reducible apply core_any_ok)
    | (try dsimp only); split

theorem State.tlkLock_ok (up : Bool) (hs : Ok que Q s) :
    Ok que Q (s.tlkLock up) := by
  unfold State.tlkLock
  repeat' first
    | with_reducible first | assumption | intro _ | apply State.setFld_ok | apply State.raise0_ok | apply State.trip_ok | apply ite_ok
    | exact rfl
    | (simp only [ok_mk]; with_reducible apply core_ok)
    | (try dsimp only); split

theorem execTlkLock_ok (t : Tu) (up : Bool) (hs : Ok que AnyTime s) :
    OkOut que (execTlkLock t up s) := by
  unfold execTlkLock
  repeat' first
    | with_reducible first | assumption | intro _ | apply State.when_ok | apply State.tlkLock_ok | apply ite_ok | apply next_ok | apply ite_out_ok
    | exact rfl
    | (simp only [ok_mk]; with_reducible apply core_any_ok)
    | (try dsimp only); split

theorem State.tlkHiBer_ok (hs : Ok que Q s) :
    Ok que Q (s.tlkHiBer) := by
  unfold State.tlkHiBer
  repeat' first
    | with_reducible first | assumption | intro _ | apply State.setFld_ok | apply State.raise0_ok | apply State.trip_ok | apply ite_ok
    | exact rfl
    | (simp only [ok_mk]; with_reducible apply core_ok)
    | (try dsimp only); split

theorem execTlkHiBer_ok (t : Tu) (hs : Ok que AnyTime s) :
    OkOut que (execTlkHiBer t s) := by
  unfold execTlkHiBer
  repeat' first
    | with_reducible first | assumption | intro _ | apply State.when_ok | apply State.tlkHiBer_ok | apply ite_ok | apply next_ok | apply ite_out_ok
    | exact rfl
    | (simp only [ok_mk]; with_reducible apply core_any_ok)
    | (try dsimp only); split

theorem execTlkHiBerClear_ok (t : Tu) (hs : Ok que AnyTime s) :
    OkOut que (execTlkHiBerClear t s) := by
  unfold execTlkHiBerClear
  repeat' first
    | with_reducible first | assumption | intro _ | apply State.when_ok | apply State.setFld_ok | apply ite_ok | apply next_ok | apply ite_out_ok
    | exact rfl
    | (simp only [ok_mk]; with_reducible apply core_any_ok)
    | (try dsimp only); split

theorem State.delayChanged_ok (s0 s : State) (first : Bool) (hs : Ok que Q s) :
    Ok que Q (State.delayChanged s0 s first) := by
  unfold State.delayChanged
  repeat' first
    | with_reducible first | assumption | intro _ | apply State.setFld_ok | apply State.raise0_ok | apply ite_ok
    | exact rfl
    | (simp only [ok_mk]; with_reducible apply core_ok)
    | (try dsimp only); split

theorem State.writeDelayCfg_ok (v : Word) (hs : Ok que Q s) :
    Ok que Q (s.writeDelayCfg v) := by
  unfold State.writeDelayCfg
  repeat' first
    | with_reducible first | assumption | intro _ | apply State.delayChanged_ok | apply State.writeRW_ok
    | exact rfl
    | (simp only [ok_mk]; with_reducible apply core_ok)
    | (try dsimp only); split

theorem State.writeDelayMode_ok (on : Bool) (hs : Ok que Q s) :
    Ok que Q (s.writeDelayMode on) := by
  unfold State.writeDelayMode
  repeat' first
    | with_reducible first | assumption | intro _ | apply State.setFld_ok | apply State.delayChanged_ok | apply ite_ok
    | exact rfl
    | (simp only [ok_mk]; with_reducible apply core_ok)
    | (try dsimp only); split

theorem State.echoReq_ok (hs : Ok que Q s) :
    Ok que Q (s.echoReq) := by
  unfold State.echoReq
  repeat' first
    | with_reducible first | assumption | intro _ | apply State.tlkSend_ok | apply ite_ok
    | exact rfl
    | (simp only [ok_mk]; with_reducible apply core_ok)
    | (try dsimp only); split

theorem execEchoReq_ok (t : Tu) (hs : Ok que AnyTime s) :
    OkOut que (execEchoReq t s) := by
  unfold execEchoReq
  repeat' first
    | with_reducible first | assumption | intro _ | apply State.when_ok | apply State.echoReq_ok | apply ite_ok | apply next_ok | apply ite_out_ok
    | exact rfl
    | (simp only [ok_mk]; with_reducible apply core_any_ok)
    | (try dsimp only); split

theorem State.echoRsp_ok (seq turn : Nat) (hs : Ok que Q s) :
    Ok que Q (s.echoRsp seq turn) := by
  unfold State.echoRsp
  repeat' first
    | with_reducible first | assumption | intro _ | apply State.delayChanged_ok | apply ite_ok
    | exact rfl
    | (simp only [ok_mk]; with_reducible apply core_ok)
    | (try dsimp only); split

theorem State.decideStep_ok (e : Int) (hs : Ok que AnyTime s) :
    Ok que AnyTime (s.decideStep e) := by
  unfold State.decideStep
  repeat' first
    | with_reducible first | assumption | intro _ | apply State.glnSend_ok | apply ite_ok
    | exact rfl
    | (simp only [ok_mk]; with_reducible apply core_any_ok)
    | (try dsimp only); split

theorem State.setEpoch_ok (e : Int) (hs : Ok que AnyTime s) :
    Ok que AnyTime (s.setEpoch e) := by
  unfold State.setEpoch
  repeat' first
    | with_reducible first | assumption | intro _ | apply State.moveTime_ok | apply State.each_ok | apply State.loseGrid_ok | apply State.endMove_ok | apply State.setFld_ok | apply State.raise0_ok
    | exact rfl
    | (simp only [ok_mk]; with_reducible apply core_any_ok)
    | (try dsimp only); split

theorem State.slewDone_ok (hs : Ok que Q s) :
    Ok que Q (s.slewDone) := by
  unfold State.slewDone
  repeat' first
    | with_reducible first | assumption | intro _ | apply State.relockIdle_ok | apply State.raise0_ok
    | exact rfl
    | (simp only [ok_mk]; with_reducible apply core_ok)
    | (try dsimp only); split

theorem State.slew_ok (e : Int) (act : Bool) (hs : Ok que Q s) :
    Ok que Q (s.slew e act) := by
  unfold State.slew
  repeat' first
    | with_reducible first | assumption | intro _ | apply State.setFld_ok | apply State.slewDone_ok | apply ite_ok
    | exact rfl
    | (simp only [ok_mk]; with_reducible apply core_ok)
    | (try dsimp only); split

theorem State.relock_ok (e : Int) (hs : Ok que AnyTime s) :
    Ok que AnyTime (s.relock e) := by
  unfold State.relock
  repeat' first
    | with_reducible first | assumption | intro _ | apply State.slew_ok | apply State.toCoast_ok | apply State.raise0_ok | apply State.setFld_ok | apply State.decideStep_ok | apply ite_ok
    | exact rfl
    | (simp only [ok_mk]; with_reducible apply core_any_ok)
    | (try dsimp only); split

theorem State.markerAct_ok (e : Int) (hs : Ok que AnyTime s) :
    Ok que AnyTime (s.markerAct e) := by
  unfold State.markerAct
  repeat' first
    | with_reducible first | assumption | intro _ | apply State.decideStep_ok | apply State.setEpoch_ok | apply State.relock_ok | apply State.slewDone_ok | apply ite_ok
    | exact rfl
    | (simp only [ok_mk]; with_reducible apply core_any_ok)
    | (try dsimp only); split

theorem State.noteK_ok (k : Nat) (hs : Ok que Q s) :
    Ok que Q (s.noteK k) := by
  unfold State.noteK
  repeat' first
    | with_reducible first | assumption | intro _ | apply State.setFld_ok | apply State.raise0_ok | apply ite_ok
    | exact rfl
    | (simp only [ok_mk]; with_reducible apply core_ok)
    | (try dsimp only); split

theorem State.markRun_ok (e : Int) (hs : Ok que Q s) :
    Ok que Q (s.markRun e) := by
  unfold State.markRun
  repeat' first
    | with_reducible first | assumption | intro _ | apply State.raise0_ok | apply ite_ok
    | exact rfl
    | (simp only [ok_mk]; with_reducible apply core_ok)
    | (try dsimp only); split

theorem State.marker_ok (k : Nat) (f : Frame) (hs : Ok que AnyTime s) :
    Ok que AnyTime (s.marker k f) := by
  unfold State.marker
  repeat' first
    | with_reducible first | assumption | intro _ | apply State.noteK_ok | apply State.setFld_ok | apply State.markRun_ok | apply State.markerAct_ok
    | exact rfl
    | (simp only [ok_mk]; with_reducible apply core_any_ok)
    | (try dsimp only); split

theorem State.relockAct_ok (step : Bool) (hs : Ok que AnyTime s) :
    Ok que AnyTime (s.relockAct step) := by
  unfold State.relockAct
  repeat' first
    | with_reducible first | assumption | intro _ | apply State.switchTo_ok | apply State.decideStep_ok | apply State.slew_ok | apply ite_ok
    | exact rfl
    | (simp only [ok_mk]; with_reducible apply core_any_ok)
    | (try dsimp only); split

theorem execRelockActStep_ok (t : Tu) (hs : Ok que AnyTime s) :
    OkOut que (execRelockActStep t s) := by
  unfold execRelockActStep
  repeat' first
    | with_reducible first | assumption | intro _ | apply State.whenHost_ok | apply State.relockAct_ok | apply ite_ok | apply next_ok | apply ite_out_ok
    | exact rfl
    | (simp only [ok_mk]; with_reducible apply core_any_ok)
    | (try dsimp only); split

theorem execRelockActSlew_ok (t : Tu) (hs : Ok que AnyTime s) :
    OkOut que (execRelockActSlew t s) := by
  unfold execRelockActSlew
  repeat' first
    | with_reducible first | assumption | intro _ | apply State.whenHost_ok | apply State.relockAct_ok | apply ite_ok | apply next_ok | apply ite_out_ok
    | exact rfl
    | (simp only [ok_mk]; with_reducible apply core_any_ok)
    | (try dsimp only); split

theorem execTlkSlewDone_ok (t : Tu) (hs : Ok que AnyTime s) :
    OkOut que (execTlkSlewDone t s) := by
  unfold execTlkSlewDone
  repeat' first
    | with_reducible first | assumption | intro _ | apply State.when_ok | apply State.slewDone_ok | apply ite_ok | apply next_ok | apply ite_out_ok
    | exact rfl
    | (simp only [ok_mk]; with_reducible apply core_any_ok)
    | (try dsimp only); split

theorem State.dropBcast_ok (hs : Ok que Q s) :
    Ok que Q (s.dropBcast) := by
  unfold State.dropBcast
  repeat' first
    | with_reducible first | assumption | intro _ | apply State.bump_ok | apply State.raise0_ok
    | exact rfl
    | (simp only [ok_mk]; with_reducible apply core_ok)
    | (try dsimp only); split

theorem State.bcast_ok (typ sub : Nat) (f : Frame) (hs : Ok que Q s) :
    Ok que Q (s.bcast typ sub f) := by
  unfold State.bcast
  repeat' first
    | with_reducible first | assumption | intro _ | apply State.bump_ok | apply State.dropBcast_ok | apply State.glnSend_ok | apply ite_ok
    | exact rfl
    | (simp only [ok_mk]; with_reducible apply core_ok)
    | (try dsimp only); split

theorem State.tlkTrig_ok (line arg : Nat) (hs : Ok que Q s) :
    Ok que Q (s.tlkTrig line arg) := by
  unfold State.tlkTrig
  repeat' first
    | with_reducible first | assumption | intro _ | apply State.bump_ok | apply State.raise0_ok | apply State.trigLine_ok | apply ite_ok
    | exact rfl
    | (simp only [ok_mk]; with_reducible apply core_ok)
    | (try dsimp only); split

theorem State.tlkCrcErr_ok (hs : Ok que Q s) :
    Ok que Q (s.tlkCrcErr) := by
  unfold State.tlkCrcErr
  repeat' first
    | with_reducible first | assumption | intro _ | apply State.bumpRaise_ok
    | exact rfl
    | (simp only [ok_mk]; with_reducible apply core_ok)
    | (try dsimp only); split

theorem State.tlkUnknown_ok (hs : Ok que Q s) :
    Ok que Q (s.tlkUnknown) := by
  unfold State.tlkUnknown
  repeat' first
    | with_reducible first | assumption | intro _ | apply State.bump_ok
    | exact rfl
    | (simp only [ok_mk]; with_reducible apply core_ok)
    | (try dsimp only); split

theorem State.tlkBlock_ok (m : BitVec 64) (typ : Nat) (f : State → State) (hs : Ok que Q s) (hf : ∀ s, Ok que Q s → Ok que Q (f s)) :
    Ok que Q (s.tlkBlock m typ f) := by
  unfold State.tlkBlock
  repeat' first
    | with_reducible first | assumption | intro _ | apply State.tlkCrcErr_ok | apply State.tlkUnknown_ok | apply hf | apply ite_ok
    | exact rfl
    | (simp only [ok_mk]; with_reducible apply core_ok)
    | (try dsimp only); split

theorem execTlkTick_ok (t : Tu) (m : BitVec 64) (hs : Ok que AnyTime s) :
    OkOut que (execTlkTick t m s) := by
  unfold execTlkTick
  repeat' first
    | with_reducible first | assumption | intro _ | apply State.when_ok | apply State.tlkBlock_ok | apply State.marker_ok | apply ite_ok | apply next_ok | apply ite_out_ok
    | exact rfl
    | (simp only [ok_mk]; with_reducible apply core_any_ok)
    | (try dsimp only); split

theorem execTlkSyncMsg_ok (t : Tu) (m : BitVec 64) (hs : Ok que AnyTime s) :
    OkOut que (execTlkSyncMsg t m s) := by
  unfold execTlkSyncMsg
  repeat' first
    | with_reducible first | assumption | intro _ | apply State.when_ok | apply State.tlkBlock_ok | apply State.bcast_ok | apply ite_ok | apply next_ok | apply ite_out_ok
    | exact rfl
    | (simp only [ok_mk]; with_reducible apply core_any_ok)
    | (try dsimp only); split

theorem execTlkArmMsg_ok (t : Tu) (m : BitVec 64) (hs : Ok que AnyTime s) :
    OkOut que (execTlkArmMsg t m s) := by
  unfold execTlkArmMsg
  repeat' first
    | with_reducible first | assumption | intro _ | apply State.when_ok | apply State.tlkBlock_ok | apply State.bcast_ok | apply ite_ok | apply next_ok | apply ite_out_ok
    | exact rfl
    | (simp only [ok_mk]; with_reducible apply core_any_ok)
    | (try dsimp only); split

theorem execTlkDisarmMsg_ok (t : Tu) (m : BitVec 64) (hs : Ok que AnyTime s) :
    OkOut que (execTlkDisarmMsg t m s) := by
  unfold execTlkDisarmMsg
  repeat' first
    | with_reducible first | assumption | intro _ | apply State.when_ok | apply State.tlkBlock_ok | apply State.bcast_ok | apply ite_ok | apply next_ok | apply ite_out_ok
    | exact rfl
    | (simp only [ok_mk]; with_reducible apply core_any_ok)
    | (try dsimp only); split

theorem execTlkTrigMsg_ok (t : Tu) (m : BitVec 64) (hs : Ok que AnyTime s) :
    OkOut que (execTlkTrigMsg t m s) := by
  unfold execTlkTrigMsg
  repeat' first
    | with_reducible first | assumption | intro _ | apply State.when_ok | apply State.tlkBlock_ok | apply State.tlkTrig_ok | apply ite_ok | apply next_ok | apply ite_out_ok
    | exact rfl
    | (simp only [ok_mk]; with_reducible apply core_any_ok)
    | (try dsimp only); split

theorem execEchoRsp_ok (t : Tu) (m : BitVec 64) (hs : Ok que AnyTime s) :
    OkOut que (execEchoRsp t m s) := by
  unfold execEchoRsp
  repeat' first
    | with_reducible first | assumption | intro _ | apply State.when_ok | apply State.tlkBlock_ok | apply State.echoRsp_ok | apply ite_ok | apply next_ok | apply ite_out_ok
    | exact rfl
    | (simp only [ok_mk]; with_reducible apply core_any_ok)
    | (try dsimp only); split

theorem execTlkStatusMsg_ok (t : Tu) (m : BitVec 64) (hs : Ok que AnyTime s) :
    OkOut que (execTlkStatusMsg t m s) := by
  unfold execTlkStatusMsg
  repeat' first
    | with_reducible first | assumption | intro _ | apply State.when_ok | apply State.tlkBlock_ok | apply State.setFld_ok | apply ite_ok | apply next_ok | apply ite_out_ok
    | exact rfl
    | (simp only [ok_mk]; with_reducible apply core_any_ok)
    | (try dsimp only); split

theorem execTlkMsgDiscard_ok (t : Tu) (b : TlkBlock) (hs : Ok que AnyTime s) :
    OkOut que (execTlkMsgDiscard t b s) := by
  unfold execTlkMsgDiscard
  repeat' first
    | with_reducible first | assumption | intro _ | apply State.when_ok | apply State.tlkBlock_ok | apply State.tlkUnknown_ok | apply ite_ok | apply next_ok | apply ite_out_ok
    | exact rfl
    | (simp only [ok_mk]; with_reducible apply core_any_ok)
    | (try dsimp only); split

end Sys2Proof.Machine
end

