-- ==== Sys2Proof/Laws/KeepGate.lean ====
section
/-! SUPPORT. What every operation of Machine/Gate.lean keeps: the invariant, and the queue of waiting commands. -/

set_option linter.unusedTactic false
set_option linter.unreachableTactic false
set_option linter.unusedSimpArgs false

namespace Sys2Proof.Machine

variable {que : List Instr} {Q : Saying} {s : State}

theorem State.setMux_ok (m x : Nat) (hs : Ok que Q s) :
    Ok que Q (s.setMux m x) := by
  unfold State.setMux
  repeat' first
    | with_reducible first | assumption | intro _ | apply State.setReg_ok
    | exact rfl
    | (simp only [ok_mk]; with_reducible apply core_ok)
    | (try dsimp only); split

theorem State.writeMuxSel_ok (m sel : Nat) (hs : Ok que Q s) :
    Ok que Q (s.writeMuxSel m sel) := by
  unfold State.writeMuxSel
  repeat' first
    | with_reducible first | assumption | intro _ | apply State.setFld_ok | apply State.setMux_ok | apply State.pixChange_ok | apply ite_ok
    | exact rfl
    | (simp only [ok_mk]; with_reducible apply core_ok)
    | (try dsimp only); split

theorem execClkMuxSelWrite_ok (t : Tu) (m : Fin 7) (sel : Fin 4) (hs : Ok que AnyTime s) :
    OkOut que (execClkMuxSelWrite t m sel s) := by
  unfold execClkMuxSelWrite
  repeat' first
    | with_reducible first | assumption | intro _ | apply State.whenHost_ok | apply State.writeMuxSel_ok | apply ite_ok | apply next_ok | apply ite_out_ok
    | exact rfl
    | (simp only [ok_mk]; with_reducible apply core_any_ok)
    | (try dsimp only); split

theorem State.muxSettled_ok (m sel : Nat) (hs : Ok que Q s) :
    Ok que Q (s.muxSettled m sel) := by
  unfold State.muxSettled
  repeat' first
    | with_reducible first | assumption | intro _ | apply State.setMux_ok | apply State.modRas_ok | apply State.pmuSwitched_ok | apply State.auxFresh_ok | apply ite_ok
    | exact rfl
    | (simp only [ok_mk]; with_reducible apply core_ok)
    | (try dsimp only); split

theorem execClkMuxSwitchDone_ok (t : Tu) (m : Fin 7) (hs : Ok que AnyTime s) :
    OkOut que (execClkMuxSwitchDone t m s) := by
  unfold execClkMuxSwitchDone
  repeat' first
    | with_reducible first | assumption | intro _ | apply State.when_ok | apply State.muxSettled_ok | apply ite_ok | apply next_ok | apply ite_out_ok
    | exact rfl
    | (simp only [ok_mk]; with_reducible apply core_any_ok)
    | (try dsimp only); split

theorem execClkMuxStuck_ok (t : Tu) (m : Fin 7) (hs : Ok que AnyTime s) :
    OkOut que (execClkMuxStuck t m s) := by
  unfold execClkMuxStuck
  repeat' first
    | with_reducible first | assumption | intro _ | apply State.when_ok | apply State.setMux_ok | apply State.raise0_ok | apply ite_ok | apply next_ok | apply ite_out_ok
    | exact rfl
    | (simp only [ok_mk]; with_reducible apply core_any_ok)
    | (try dsimp only); split

theorem execCtlMuxSwitch_ok (t : Tu) (toRc : Bool) (hs : Ok que AnyTime s) :
    OkOut que (execCtlMuxSwitch t toRc s) := by
  unfold execCtlMuxSwitch
  repeat' first
    | with_reducible first | assumption | intro _ | apply State.when_ok | apply State.setMux_ok | apply ite_ok | apply next_ok | apply ite_out_ok
    | exact rfl
    | (simp only [ok_mk]; with_reducible apply core_any_ok)
    | (try dsimp only); split

theorem execPixelClockChange_ok (t : Tu) (w : PixWrite) (hs : Ok que AnyTime s) :
    OkOut que (execPixelClockChange t w s) := by
  unfold execPixelClockChange
  repeat' first
    | with_reducible first | assumption | intro _ | apply State.whenHost_ok | apply State.writeMuxSel_ok | apply State.apllRetune_ok | apply State.apllDiv_ok | apply State.apllLoss_ok | apply State.when_ok | apply ite_ok | apply next_ok | apply ite_out_ok
    | exact rfl
    | (simp only [ok_mk]; with_reducible apply core_any_ok)
    | (try dsimp only); split

theorem State.setGate_ok (n : Nat) (b : Bool) (hs : Ok que Q s) :
    Ok que Q (s.setGate n b) := by
  unfold State.setGate
  repeat' first
    | with_reducible first | assumption | intro _ | apply State.setReg_ok | apply ite_ok
    | exact rfl
    | (simp only [ok_mk]; with_reducible apply core_ok)
    | (try dsimp only); split

theorem State.stopNode_ok (n : Nat) (hs : Ok que Q s) :
    Ok que Q (s.stopNode n) := by
  unfold State.stopNode
  repeat' first
    | with_reducible first | assumption | intro _ | apply State.setGate_ok | apply State.auxFollow_ok | apply State.auxCut_ok | apply State.abandonDwell_ok | apply State.rasGateClosed_ok | apply State.auxOut_ok | apply ite_ok
    | exact rfl
    | (simp only [ok_mk]; with_reducible apply core_ok)
    | (try dsimp only); split

theorem State.clusterWoken_ok (c : Nat) (hs : Ok que Q s) :
    Ok que Q (s.clusterWoken c) := by
  unfold State.clusterWoken
  repeat' first
    | with_reducible first | assumption | intro _ | apply State.settle_ok | apply State.freshComp_ok | apply State.makeStale_ok | apply State.accLose_ok | apply foldl_ok | apply foldl_fst_ok
    | exact rfl
    | (simp only [ok_mk]; with_reducible apply core_ok)
    | (try dsimp only); split

theorem State.laneStarted_ok (ln : Nat) (hs : Ok que Q s) :
    Ok que Q (s.laneStarted ln) := by
  unfold State.laneStarted
  repeat' first
    | with_reducible first | assumption | intro _ | apply State.freshComp_ok | apply State.makeStale_ok | apply State.startLanes_ok
    | exact rfl
    | (simp only [ok_mk]; with_reducible apply core_ok)
    | (try dsimp only); split

theorem State.startNode_ok (n : Nat) (hs : Ok que Q s) :
    Ok que Q (s.startNode n) := by
  unfold State.startNode
  repeat' first
    | with_reducible first | assumption | intro _ | apply State.setGate_ok | apply State.anchorLater_ok | apply State.auxFollow_ok | apply State.auxFresh_ok | apply State.clusterWoken_ok | apply State.laneStarted_ok | apply State.pmuGo_ok | apply State.rasResume_ok | apply ite_ok
    | exact rfl
    | (simp only [ok_mk]; with_reducible apply core_ok)
    | (try dsimp only); split

theorem State.wokenTick_ok (hs : Ok que Q s) :
    Ok que Q (s.wokenTick) := by
  unfold State.wokenTick
  repeat' first
    | with_reducible first | assumption | intro _ | apply State.each_ok | apply State.redStartAll_ok | apply ite_ok
    | exact rfl
    | (simp only [ok_mk]; with_reducible apply core_ok)
    | (try dsimp only); split

theorem State.gateResult_ok (n code : Nat) (hs : Ok que Q s) :
    Ok que Q (s.gateResult n code) := by
  unfold State.gateResult
  repeat' first
    | with_reducible first | assumption | intro _ | apply State.setFld_ok
    | exact rfl
    | (simp only [ok_mk]; with_reducible apply core_ok)
    | (try dsimp only); split

theorem State.requestClose_ok (n : Nat) (force : Bool) (hs : Ok que Q s) :
    Ok que Q (s.requestClose n force) := by
  unfold State.requestClose
  repeat' first
    | with_reducible first | assumption | intro _ | apply State.setFld_ok | apply State.gateResult_ok | apply State.raise_ok | apply State.stopNode_ok | apply ite_ok
    | exact rfl
    | (simp only [ok_mk]; with_reducible apply core_ok)
    | (try dsimp only); split

theorem State.requestOpen_ok (n : Nat) (hs : Ok que Q s) :
    Ok que Q (s.requestOpen n) := by
  unfold State.requestOpen
  repeat' first
    | with_reducible first | assumption | intro _ | apply State.setFld_ok | apply State.gateResult_ok | apply State.startNode_ok | apply ite_ok
    | exact rfl
    | (simp only [ok_mk]; with_reducible apply core_ok)
    | (try dsimp only); split

theorem State.gateRequest_ok (v : Word) (hs : Ok que Q s) :
    Ok que Q (s.gateRequest v) := by
  unfold State.gateRequest
  repeat' first
    | with_reducible first | assumption | intro _ | apply State.requestOpen_ok | apply State.requestClose_ok | apply ite_ok
    | exact rfl
    | (simp only [ok_mk]; with_reducible apply core_ok)
    | (try dsimp only); split

theorem execGateClose_ok (t : Tu) (node : Fin 64) (hs : Ok que AnyTime s) :
    OkOut que (execGateClose t node s) := by
  unfold execGateClose
  repeat' first
    | with_reducible first | assumption | intro _ | apply State.whenHost_ok | apply State.requestClose_ok | apply ite_ok | apply next_ok | apply ite_out_ok
    | exact rfl
    | (simp only [ok_mk]; with_reducible apply core_any_ok)
    | (try dsimp only); split

theorem execGateForceClose_ok (t : Tu) (node : Fin 64) (hs : Ok que AnyTime s) :
    OkOut que (execGateForceClose t node s) := by
  unfold execGateForceClose
  repeat' first
    | with_reducible first | assumption | intro _ | apply State.whenHost_ok | apply State.requestClose_ok | apply ite_ok | apply next_ok | apply ite_out_ok
    | exact rfl
    | (simp only [ok_mk]; with_reducible apply core_any_ok)
    | (try dsimp only); split

theorem execGateOpen_ok (t : Tu) (node : Fin 64) (hs : Ok que AnyTime s) :
    OkOut que (execGateOpen t node s) := by
  unfold execGateOpen
  repeat' first
    | with_reducible first | assumption | intro _ | apply State.whenHost_ok | apply State.requestOpen_ok | apply ite_ok | apply next_ok | apply ite_out_ok
    | exact rfl
    | (simp only [ok_mk]; with_reducible apply core_any_ok)
    | (try dsimp only); split

theorem clkmuxForce_ok (args : List Word) (hs : Ok que Q s) :
    Ok que Q (clkmuxForce s args).s := by
  unfold clkmuxForce
  repeat' first
    | with_reducible first | assumption | intro _ | apply mbFail_ok | apply State.muxSettled_ok | apply ite_mb_ok | apply ite_ok
    | exact rfl
    | (simp only [ok_mk]; with_reducible apply core_ok)
    | (try dsimp only); split

theorem execMbClkmuxForce_ok (t : Tu) (tag : Byte) (hs : Ok que AnyTime s) :
    OkOut que (execMbClkmuxForce t tag s) := by
  unfold execMbClkmuxForce
  repeat' first
    | with_reducible first | assumption | intro _ | apply State.mbWhen_ok | apply clkmuxForce_ok | apply ite_ok | apply next_ok | apply ite_out_ok
    | exact rfl
    | (simp only [ok_mk]; with_reducible apply core_any_ok)
    | (try dsimp only); split

end Sys2Proof.Machine
end

