-- ==== Sys2Proof/Laws/KeepSync.lean ====
section
/-! SUPPORT. What every operation of Machine/Sync.lean keeps: the invariant, and the queue of waiting commands. -/

set_option linter.unusedTactic false
set_option linter.unreachableTactic false
set_option linter.unusedSimpArgs false

namespace Sys2Proof.Machine

variable {que : List Instr} {Q : Saying} {s : State}

theorem State.syncAt_ok (ts : Tu) (src : Nat) (twin : Bool) (hs : Ok que Q s) :
    Ok que Q (s.syncAt ts src twin) := by
  unfold State.syncAt
  repeat' first
    | with_reducible first | assumption | intro _
    | exact rfl
    | (simp only [ok_mk]; with_reducible apply core_ok)
    | (try dsimp only); split

theorem State.issueSync_ok (twin : Bool) (hs : Ok que Q s) :
    Ok que Q (s.issueSync twin) := by
  unfold State.issueSync
  repeat' first
    | with_reducible first | assumption | intro _ | apply ite_ok
    | exact rfl
    | (simp only [ok_mk]; with_reducible apply core_ok)
    | (try dsimp only); split

theorem execSyncCmdIssue_ok (t : Tu) (twin : Bool) (hs : Ok que AnyTime s) :
    OkOut que (execSyncCmdIssue t twin s) := by
  unfold execSyncCmdIssue
  repeat' first
    | with_reducible first | assumption | intro _ | apply State.whenHost_ok | apply State.issueSync_ok | apply ite_ok | apply next_ok | apply ite_out_ok
    | exact rfl
    | (simp only [ok_mk]; with_reducible apply core_any_ok)
    | (try dsimp only); split

theorem State.syncEdge_ok (rise : Bool) (t : Tu) (hs : Ok que Q s) :
    Ok que Q (s.syncEdge rise t) := by
  unfold State.syncEdge
  repeat' first
    | with_reducible first | assumption | intro _ | apply State.bump_ok | apply State.syncAt_ok | apply ite_ok
    | exact rfl
    | (simp only [ok_mk]; with_reducible apply core_ok)
    | (try dsimp only); split

theorem execSyncInEdge_ok (t : Tu) (rise : Bool) (hs : Ok que AnyTime s) :
    OkOut que (execSyncInEdge t rise s) := by
  unfold execSyncInEdge
  repeat' first
    | with_reducible first | assumption | intro _ | apply State.when_ok | apply State.syncEdge_ok | apply ite_ok | apply next_ok | apply ite_out_ok
    | exact rfl
    | (simp only [ok_mk]; with_reducible apply core_any_ok)
    | (try dsimp only); split

theorem State.syncPulse_ok (ts : Tu) (hs : Ok que Q s) :
    Ok que Q (s.syncPulse ts) := by
  unfold State.syncPulse
  repeat' first
    | with_reducible first | assumption | intro _ | apply State.emit_ok | apply ite_ok
    | exact rfl
    | (simp only [ok_mk]; with_reducible apply core_ok)
    | (try dsimp only); split

theorem State.syncJoin_ok (hs : Ok que Q s) :
    Ok que Q (s.syncJoin) := by
  unfold State.syncJoin
  repeat' first
    | with_reducible first | assumption | intro _ | apply State.setFld_ok | apply State.raise_ok | apply ite_ok
    | exact rfl
    | (simp only [ok_mk]; with_reducible apply core_ok)
    | (try dsimp only); split

theorem State.syncEffects_ok (ts : Tu) (hs : Ok que Q s) :
    Ok que Q (s.syncEffects ts) := by
  unfold State.syncEffects
  repeat' first
    | with_reducible first | assumption | intro _ | apply State.redStartAll_ok | apply State.auxSync_ok | apply State.each_ok | apply State.forceDue_ok | apply State.syncPulse_ok
    | exact rfl
    | (simp only [ok_mk]; with_reducible apply core_ok)
    | (try dsimp only); split

theorem State.syncGroup_ok (x : SyncAt) (xs : List SyncAt) (hs : Ok que Q s) :
    Ok que Q (s.syncGroup x xs) := by
  unfold State.syncGroup
  repeat' first
    | with_reducible first | assumption | intro _ | apply State.syncEffects_ok | apply State.setPair_ok | apply State.setFld_ok | apply State.syncJoin_ok | apply ite_ok | apply foldl_ok | apply foldl_fst_ok
    | exact rfl
    | (simp only [ok_mk]; with_reducible apply core_ok)
    | (try dsimp only); split

theorem State.syncNext_ok (hs : Ok que Q s) :
    Ok que Q (s.syncNext) := by
  unfold State.syncNext
  repeat' first
    | with_reducible first | assumption | intro _ | apply State.syncGroup_ok
    | exact rfl
    | (simp only [ok_mk]; with_reducible apply core_ok)
    | (try dsimp only); split

theorem State.syncUpTo_ok (t : Tu) (hs : Ok que Q s) :
    Ok que Q (s.syncUpTo t) := by
  unfold State.syncUpTo
  repeat' first
    | with_reducible first | assumption | intro _ | apply State.syncNext_ok | apply ite_ok | apply foldl_ok | apply foldl_fst_ok
    | exact rfl
    | (simp only [ok_mk]; with_reducible apply core_ok)
    | (try dsimp only); split

theorem execSyncAct_ok (t : Tu) (hs : Ok que AnyTime s) :
    OkOut que (execSyncAct t s) := by
  unfold execSyncAct
  repeat' first
    | with_reducible first | assumption | intro _ | apply State.when_ok | apply State.syncNext_ok | apply ite_ok | apply next_ok | apply ite_out_ok
    | exact rfl
    | (simp only [ok_mk]; with_reducible apply core_any_ok)
    | (try dsimp only); split

theorem State.sendSync_ok (ts : Tu) (src : Nat) (hs : Ok que Q s) :
    Ok que Q (s.sendSync ts src) := by
  unfold State.sendSync
  repeat' first
    | with_reducible first | assumption | intro _ | apply State.glnSend_ok | apply ite_ok
    | exact rfl
    | (simp only [ok_mk]; with_reducible apply core_ok)
    | (try dsimp only); split

theorem State.carriedSend_ok (hs : Ok que Q s) :
    Ok que Q (s.carriedSend) := by
  unfold State.carriedSend
  repeat' first
    | with_reducible first | assumption | intro _ | apply State.sendSync_ok | apply ite_ok | apply foldl_ok | apply foldl_fst_ok
    | exact rfl
    | (simp only [ok_mk]; with_reducible apply core_ok)
    | (try dsimp only); split

theorem execCarriedSyncSend_ok (t : Tu) (hs : Ok que AnyTime s) :
    OkOut que (execCarriedSyncSend t s) := by
  unfold execCarriedSyncSend
  repeat' first
    | with_reducible first | assumption | intro _ | apply State.when_ok | apply State.carriedSend_ok | apply ite_ok | apply next_ok | apply ite_out_ok
    | exact rfl
    | (simp only [ok_mk]; with_reducible apply core_any_ok)
    | (try dsimp only); split

end Sys2Proof.Machine
end

