-- ==== Sys2Proof/Laws/KeepGln.lean ====
section
/-! SUPPORT. What every operation of Machine/Gln.lean keeps: the invariant, and the queue of waiting commands. -/

set_option linter.unusedTactic false
set_option linter.unreachableTactic false
set_option linter.unusedSimpArgs false

namespace Sys2Proof.Machine

variable {que : List Instr} {Q : Saying} {s : State}

theorem State.modGln_ok (f : Gln → Gln) (hs : Ok que Q s) :
    Ok que Q (s.modGln f) := by
  unfold State.modGln
  repeat' first
    | with_reducible first | assumption | intro _
    | exact rfl
    | (simp only [ok_mk]; with_reducible apply core_ok)
    | (try dsimp only); split

theorem State.notePartner_ok (hs : Ok que Q s) :
    Ok que Q (s.notePartner) := by
  unfold State.notePartner
  repeat' first
    | with_reducible first | assumption | intro _ | apply State.setFld_ok
    | exact rfl
    | (simp only [ok_mk]; with_reducible apply core_ok)
    | (try dsimp only); split

theorem State.releaseHeld_ok (hs : Ok que Q s) :
    Ok que Q (s.releaseHeld) := by
  unfold State.releaseHeld
  repeat' first
    | with_reducible first | assumption | intro _ | apply State.setQState_ok | apply State.modQueue_ok | apply State.setFld_ok | apply ite_ok | apply foldl_ok | apply foldl_fst_ok
    | exact rfl
    | (simp only [ok_mk]; with_reducible apply core_ok)
    | (try dsimp only); split

theorem State.becomeSolo_ok (hs : Ok que Q s) :
    Ok que Q (s.becomeSolo) := by
  unfold State.becomeSolo
  repeat' first
    | with_reducible first | assumption | intro _ | apply State.releaseHeld_ok | apply State.setFld_ok | apply State.modGln_ok | apply State.notePartner_ok | apply ite_ok
    | exact rfl
    | (simp only [ok_mk]; with_reducible apply core_ok)
    | (try dsimp only); split

theorem State.glnMsg_ok (m : List Byte) (typ : Nat) (f : State → State) (hs : Ok que Q s) (hf : ∀ s, Ok que Q s → Ok que Q (f s)) :
    Ok que Q (s.glnMsg m typ f) := by
  unfold State.glnMsg
  repeat' first
    | with_reducible first | assumption | intro _ | apply State.bumpRaise_ok | apply State.bump_ok | apply State.modGln_ok | apply hf | apply ite_ok
    | exact rfl
    | (simp only [ok_mk]; with_reducible apply core_ok)
    | (try dsimp only); split

theorem execGlnMsgDiscard_ok (t : Tu) (m : List Byte) (hs : Ok que AnyTime s) :
    OkOut que (execGlnMsgDiscard t m s) := by
  unfold execGlnMsgDiscard
  repeat' first
    | with_reducible first | assumption | intro _ | apply State.when_ok | apply State.glnMsg_ok | apply ite_ok | apply next_ok | apply ite_out_ok
    | exact rfl
    | (simp only [ok_mk]; with_reducible apply core_any_ok)
    | (try dsimp only); split

theorem State.sendHello_ok (hs : Ok que Q s) :
    Ok que Q (s.sendHello) := by
  unfold State.sendHello
  repeat' first
    | with_reducible first | assumption | intro _ | apply State.modGln_ok | apply State.glnSend_ok
    | exact rfl
    | (simp only [ok_mk]; with_reducible apply core_ok)
    | (try dsimp only); split

theorem State.attachEnd_ok (status : Nat) (res : List Word) (hs : Ok que Q s) :
    Ok que Q (s.attachEnd status res) := by
  unfold State.attachEnd
  repeat' first
    | with_reducible first | assumption | intro _ | apply State.modGln_ok | apply State.mbDone_ok
    | exact rfl
    | (simp only [ok_mk]; with_reducible apply core_ok)
    | (try dsimp only); split

theorem State.attachRefuse_ok (status : Nat) (hs : Ok que Q s) :
    Ok que Q (s.attachRefuse status) := by
  unfold State.attachRefuse
  repeat' first
    | with_reducible first | assumption | intro _ | apply State.attachEnd_ok | apply State.raise_ok
    | exact rfl
    | (simp only [ok_mk]; with_reducible apply core_ok)
    | (try dsimp only); split

theorem State.twinAttach_ok (tag : Byte) (hs : Ok que Q s) :
    Ok que Q (s.twinAttach tag) := by
  unfold State.twinAttach
  repeat' first
    | with_reducible first | assumption | intro _ | apply State.setFld_ok | apply State.mbRunning_ok | apply State.mbDone_ok | apply State.modGln_ok | apply State.sendHello_ok | apply ite_ok
    | exact rfl
    | (simp only [ok_mk]; with_reducible apply core_ok)
    | (try dsimp only); split

theorem execMbTwinAttach_ok (t : Tu) (tag : Byte) (hs : Ok que AnyTime s) :
    OkOut que (execMbTwinAttach t tag s) := by
  unfold execMbTwinAttach
  repeat' first
    | with_reducible first | assumption | intro _ | apply State.whenHost_ok | apply State.twinAttach_ok | apply ite_ok | apply next_ok | apply ite_out_ok
    | exact rfl
    | (simp only [ok_mk]; with_reducible apply core_any_ok)
    | (try dsimp only); split

theorem State.hello_ok (m : List Byte) (hs : Ok que Q s) :
    Ok que Q (s.hello m) := by
  unfold State.hello
  repeat' first
    | with_reducible first | assumption | intro _ | apply State.attachRefuse_ok | apply State.modGln_ok | apply State.glnSend_ok | apply ite_ok
    | exact rfl
    | (simp only [ok_mk]; with_reducible apply core_ok)
    | (try dsimp only); split

theorem State.forBasecamp_ok (m : List Byte) (f : State → State) (hs : Ok que Q s) (hf : ∀ s, Ok que Q s → Ok que Q (f s)) :
    Ok que Q (s.forBasecamp m f) := by
  unfold State.forBasecamp
  repeat' first
    | with_reducible first | assumption | intro _ | apply State.modGln_ok | apply hf | apply ite_ok
    | exact rfl
    | (simp only [ok_mk]; with_reducible apply core_ok)
    | (try dsimp only); split

theorem execHello_ok (t : Tu) (m : List Byte) (hs : Ok que AnyTime s) :
    OkOut que (execHello t m s) := by
  unfold execHello
  repeat' first
    | with_reducible first | assumption | intro _ | apply State.when_ok | apply State.glnMsg_ok | apply State.forBasecamp_ok | apply State.hello_ok | apply ite_ok | apply next_ok | apply ite_out_ok
    | exact rfl
    | (simp only [ok_mk]; with_reducible apply core_any_ok)
    | (try dsimp only); split

theorem execAttachTimeout_ok (t : Tu) (hs : Ok que AnyTime s) :
    OkOut que (execAttachTimeout t s) := by
  unfold execAttachTimeout
  repeat' first
    | with_reducible first | assumption | intro _ | apply State.when_ok | apply State.attachRefuse_ok | apply ite_ok | apply next_ok | apply ite_out_ok
    | exact rfl
    | (simp only [ok_mk]; with_reducible apply core_any_ok)
    | (try dsimp only); split

theorem State.roleMsg_ok (m : List Byte) (hs : Ok que Q s) :
    Ok que Q (s.roleMsg m) := by
  unfold State.roleMsg
  repeat' first
    | with_reducible first | assumption | intro _ | apply State.modGln_ok | apply ite_ok
    | exact rfl
    | (simp only [ok_mk]; with_reducible apply core_ok)
    | (try dsimp only); split

theorem execRole_ok (t : Tu) (m : List Byte) (hs : Ok que AnyTime s) :
    OkOut que (execRole t m s) := by
  unfold execRole
  repeat' first
    | with_reducible first | assumption | intro _ | apply State.when_ok | apply State.glnMsg_ok | apply State.forBasecamp_ok | apply State.roleMsg_ok | apply ite_ok | apply next_ok | apply ite_out_ok
    | exact rfl
    | (simp only [ok_mk]; with_reducible apply core_any_ok)
    | (try dsimp only); split

theorem State.applyRole_ok (role mode : Nat) (hs : Ok que Q s) :
    Ok que Q (s.applyRole role mode) := by
  unfold State.applyRole
  repeat' first
    | with_reducible first | assumption | intro _ | apply State.setFld_ok | apply State.modGln_ok | apply State.notePartner_ok | apply State.raise_ok | apply State.attachEnd_ok
    | exact rfl
    | (simp only [ok_mk]; with_reducible apply core_ok)
    | (try dsimp only); split

theorem execTimeReq_ok (t : Tu) (m : List Byte) (t3 : Tu) (hs : Ok que AnyTime s) :
    OkOut que (execTimeReq t m t3 s) := by
  unfold execTimeReq
  repeat' first
    | with_reducible first | assumption | intro _ | apply State.when_ok | apply State.glnMsg_ok | apply State.glnSend_ok | apply ite_ok | apply next_ok | apply ite_out_ok
    | exact rfl
    | (simp only [ok_mk]; with_reducible apply core_any_ok)
    | (try dsimp only); split

theorem State.noteAligned_ok (o2 : Int) (hs : Ok que Q s) :
    Ok que Q (s.noteAligned o2) := by
  unfold State.noteAligned
  repeat' first
    | with_reducible first | assumption | intro _ | apply State.modGln_ok | apply State.setFld_ok | apply State.raise_ok | apply ite_ok
    | exact rfl
    | (simp only [ok_mk]; with_reducible apply core_ok)
    | (try dsimp only); split

theorem State.timeRsp_ok (t1 t2 t3 : Tu) (hs : Ok que AnyTime s) :
    Ok que AnyTime (s.timeRsp t1 t2 t3) := by
  unfold State.timeRsp
  repeat' first
    | with_reducible first | assumption | intro _ | apply State.modGln_ok | apply State.setFld_ok | apply State.noteAligned_ok | apply ite_ok
    | exact rfl
    | (simp only [ok_mk]; with_reducible apply core_any_ok)
    | (try dsimp only); split

theorem execTimeRsp_ok (t : Tu) (m : List Byte) (hs : Ok que AnyTime s) :
    OkOut que (execTimeRsp t m s) := by
  unfold execTimeRsp
  repeat' first
    | with_reducible first | assumption | intro _ | apply State.when_ok | apply State.glnMsg_ok | apply State.timeRsp_ok | apply ite_ok | apply next_ok | apply ite_out_ok
    | exact rfl
    | (simp only [ok_mk]; with_reducible apply core_any_ok)
    | (try dsimp only); split

theorem execGlnStep_ok (t : Tu) (m : List Byte) (hs : Ok que AnyTime s) :
    OkOut que (execGlnStep t m s) := by
  unfold execGlnStep
  repeat' first
    | with_reducible first | assumption | intro _ | apply State.when_ok | apply State.glnMsg_ok | apply ite_ok | apply next_ok | apply ite_out_ok
    | exact rfl
    | (simp only [ok_mk]; with_reducible apply core_any_ok)
    | (try dsimp only); split

theorem execGlnSync_ok (t : Tu) (m : List Byte) (hs : Ok que AnyTime s) :
    OkOut que (execGlnSync t m s) := by
  unfold execGlnSync
  repeat' first
    | with_reducible first | assumption | intro _ | apply State.when_ok | apply State.glnMsg_ok | apply State.syncAt_ok | apply State.bump_ok | apply State.raise0_ok | apply ite_ok | apply next_ok | apply ite_out_ok
    | exact rfl
    | (simp only [ok_mk]; with_reducible apply core_any_ok)
    | (try dsimp only); split

theorem execGlnPmu_ok (t : Tu) (m : List Byte) (hs : Ok que AnyTime s) :
    OkOut que (execGlnPmu t m s) := by
  unfold execGlnPmu
  repeat' first
    | with_reducible first | assumption | intro _ | apply State.when_ok | apply State.glnMsg_ok | apply State.twinRemote_ok | apply ite_ok | apply next_ok | apply ite_out_ok
    | exact rfl
    | (simp only [ok_mk]; with_reducible apply core_any_ok)
    | (try dsimp only); split

theorem State.cmpLast_ok (f : Frame) (hs : Ok que Q s) :
    Ok que Q (s.cmpLast f) := by
  unfold State.cmpLast
  repeat' first
    | with_reducible first | assumption | intro _ | apply State.setFrame_ok
    | exact rfl
    | (simp only [ok_mk]; with_reducible apply core_ok)
    | (try dsimp only); split

theorem State.cmpValue_ok (f : Frame) (bit ch : Nat) (beyond : Bool) (hs : Ok que Q s) :
    Ok que Q (s.cmpValue f bit ch beyond) := by
  unfold State.cmpValue
  repeat' first
    | with_reducible first | assumption | intro _ | apply State.bump_ok | apply State.cmpLast_ok | apply State.raise_ok | apply ite_ok
    | exact rfl
    | (simp only [ok_mk]; with_reducible apply core_ok)
    | (try dsimp only); split

theorem State.cmpDigest_ok (f : Frame) (a b : Word × Nat × Nat) (hs : Ok que Q s) :
    Ok que Q (s.cmpDigest f a b) := by
  unfold State.cmpDigest
  repeat' first
    | with_reducible first | assumption | intro _ | apply State.bump_ok | apply State.cmpLast_ok | apply State.raise0_ok | apply State.cmpValue_ok | apply ite_ok
    | exact rfl
    | (simp only [ok_mk]; with_reducible apply core_ok)
    | (try dsimp only); split

theorem State.cmpChsum_ok (f : Frame) (c : Nat) (a b : List (Int × Nat)) (hs : Ok que Q s) :
    Ok que Q (s.cmpChsum f c a b) := by
  unfold State.cmpChsum
  repeat' first
    | with_reducible first | assumption | intro _ | apply State.cmpValue_ok | apply ite_ok | apply foldl_ok | apply foldl_fst_ok
    | exact rfl
    | (simp only [ok_mk]; with_reducible apply core_ok)
    | (try dsimp only); split

theorem State.cmpFrame_ok (f : Frame) (hs : Ok que Q s) :
    Ok que Q (s.cmpFrame f) := by
  unfold State.cmpFrame
  repeat' first
    | with_reducible first | assumption | intro _ | apply State.modGln_ok | apply State.cmpDigest_ok | apply State.cmpChsum_ok | apply ite_ok | apply foldl_ok | apply foldl_fst_ok
    | exact rfl
    | (simp only [ok_mk]; with_reducible apply core_ok)
    | (try dsimp only); split

theorem execDigest_ok (t : Tu) (m : List Byte) (hs : Ok que AnyTime s) :
    OkOut que (execDigest t m s) := by
  unfold execDigest
  repeat' first
    | with_reducible first | assumption | intro _ | apply State.when_ok | apply State.glnMsg_ok | apply State.modGln_ok | apply State.cmpFrame_ok | apply ite_ok | apply next_ok | apply ite_out_ok
    | exact rfl
    | (simp only [ok_mk]; with_reducible apply core_any_ok)
    | (try dsimp only); split

theorem execChsum_ok (t : Tu) (m : List Byte) (hs : Ok que AnyTime s) :
    OkOut que (execChsum t m s) := by
  unfold execChsum
  repeat' first
    | with_reducible first | assumption | intro _ | apply State.when_ok | apply State.glnMsg_ok | apply State.modGln_ok | apply State.cmpFrame_ok | apply ite_ok | apply next_ok | apply ite_out_ok
    | exact rfl
    | (simp only [ok_mk]; with_reducible apply core_any_ok)
    | (try dsimp only); split

theorem State.cmpMiss_ok (hs : Ok que Q s) :
    Ok que Q (s.cmpMiss) := by
  unfold State.cmpMiss
  repeat' first
    | with_reducible first | assumption | intro _ | apply State.modGln_ok | apply State.bump_ok | apply State.raise0_ok | apply State.cmpLast_ok | apply ite_ok | apply foldl_ok | apply foldl_fst_ok
    | exact rfl
    | (simp only [ok_mk]; with_reducible apply core_ok)
    | (try dsimp only); split

theorem execGlnCmpMiss_ok (t : Tu) (hs : Ok que AnyTime s) :
    OkOut que (execGlnCmpMiss t s) := by
  unfold execGlnCmpMiss
  repeat' first
    | with_reducible first | assumption | intro _ | apply State.when_ok | apply State.cmpMiss_ok | apply ite_ok | apply next_ok | apply ite_out_ok
    | exact rfl
    | (simp only [ok_mk]; with_reducible apply core_any_ok)
    | (try dsimp only); split

theorem State.glnRecords_ok (hs : Ok que Q s) :
    Ok que Q (s.glnRecords) := by
  unfold State.glnRecords
  repeat' first
    | with_reducible first | assumption | intro _ | apply State.modGln_ok | apply State.glnSend_ok | apply State.cmpFrame_ok | apply ite_ok | apply foldl_ok | apply foldl_fst_ok
    | exact rfl
    | (simp only [ok_mk]; with_reducible apply core_ok)
    | (try dsimp only); split

theorem State.sendBeat_ok (hs : Ok que Q s) :
    Ok que Q (s.sendBeat) := by
  unfold State.sendBeat
  repeat' first
    | with_reducible first | assumption | intro _ | apply State.setFrame_ok | apply State.glnSend_ok | apply ite_ok
    | exact rfl
    | (simp only [ok_mk]; with_reducible apply core_ok)
    | (try dsimp only); split

theorem State.beat_ok (m : List Byte) (hs : Ok que Q s) :
    Ok que Q (s.beat m) := by
  unfold State.beat
  repeat' first
    | with_reducible first | assumption | intro _ | apply State.modGln_ok | apply State.discardCovered_ok | apply State.setFrame_ok | apply ite_ok | apply foldl_ok | apply foldl_fst_ok
    | exact rfl
    | (simp only [ok_mk]; with_reducible apply core_ok)
    | (try dsimp only); split

theorem execBeat_ok (t : Tu) (m : List Byte) (hs : Ok que AnyTime s) :
    OkOut que (execBeat t m s) := by
  unfold execBeat
  repeat' first
    | with_reducible first | assumption | intro _ | apply State.when_ok | apply State.glnMsg_ok | apply State.beat_ok | apply ite_ok | apply next_ok | apply ite_out_ok
    | exact rfl
    | (simp only [ok_mk]; with_reducible apply core_any_ok)
    | (try dsimp only); split

theorem State.glnAges_ok (hs : Ok que Q s) :
    Ok que Q (s.glnAges) := by
  unfold State.glnAges
  repeat' first
    | with_reducible first | assumption | intro _ | apply State.modGln_ok | apply ite_ok
    | exact rfl
    | (simp only [ok_mk]; with_reducible apply core_ok)
    | (try dsimp only); split

theorem State.declareFail_ok (hs : Ok que Q s) :
    Ok que Q (s.declareFail) := by
  unfold State.declareFail
  repeat' first
    | with_reducible first | assumption | intro _ | apply State.modGln_ok | apply State.raise_ok | apply State.glnSend_ok | apply ite_ok
    | exact rfl
    | (simp only [ok_mk]; with_reducible apply core_ok)
    | (try dsimp only); split

theorem State.takeOver_ok (hs : Ok que Q s) :
    Ok que Q (s.takeOver) := by
  unfold State.takeOver
  repeat' first
    | with_reducible first | assumption | intro _ | apply State.setFld_ok | apply State.modGln_ok | apply State.notePartner_ok | apply State.raise0_ok | apply State.raise_ok | apply ite_ok
    | exact rfl
    | (simp only [ok_mk]; with_reducible apply core_ok)
    | (try dsimp only); split

theorem State.depose_ok (hs : Ok que Q s) :
    Ok que Q (s.depose) := by
  unfold State.depose
  repeat' first
    | with_reducible first | assumption | intro _ | apply State.setQState_ok | apply State.modQueue_ok | apply State.syncStaged_ok | apply State.setFld_ok | apply State.modGln_ok | apply State.raise_ok | apply ite_ok | apply foldl_ok | apply foldl_fst_ok
    | exact rfl
    | (simp only [ok_mk]; with_reducible apply core_ok)
    | (try dsimp only); split

theorem execTake_ok (t : Tu) (m : List Byte) (hs : Ok que AnyTime s) :
    OkOut que (execTake t m s) := by
  unfold execTake
  repeat' first
    | with_reducible first | assumption | intro _ | apply State.when_ok | apply State.glnMsg_ok | apply State.modGln_ok | apply State.raise0_ok | apply ite_ok | apply next_ok | apply ite_out_ok
    | exact rfl
    | (simp only [ok_mk]; with_reducible apply core_any_ok)
    | (try dsimp only); split

theorem twinTake_ok (x0 : List Word) (hs : Ok que Q s) :
    Ok que Q (twinTake s x0).s := by
  unfold twinTake
  repeat' first
    | with_reducible first | assumption | intro _ | apply mbFail_ok | apply State.modGln_ok | apply ite_mb_ok | apply ite_ok
    | exact rfl
    | (simp only [ok_mk]; with_reducible apply core_ok)
    | (try dsimp only); split

theorem execMbTwinTake_ok (t : Tu) (tag : Byte) (hs : Ok que AnyTime s) :
    OkOut que (execMbTwinTake t tag s) := by
  unfold execMbTwinTake
  repeat' first
    | with_reducible first | assumption | intro _ | apply State.mbWhen_ok | apply twinTake_ok | apply ite_ok | apply next_ok | apply ite_out_ok
    | exact rfl
    | (simp only [ok_mk]; with_reducible apply core_any_ok)
    | (try dsimp only); split

theorem twinDetach_ok (x0 : List Word) (hs : Ok que Q s) :
    Ok que Q (twinDetach s x0).s := by
  unfold twinDetach
  repeat' first
    | with_reducible first | assumption | intro _ | apply mbFail_ok | apply State.modGln_ok | apply State.glnSend_ok | apply ite_mb_ok | apply ite_ok
    | exact rfl
    | (simp only [ok_mk]; with_reducible apply core_ok)
    | (try dsimp only); split

theorem execMbTwinDetach_ok (t : Tu) (tag : Byte) (hs : Ok que AnyTime s) :
    OkOut que (execMbTwinDetach t tag s) := by
  unfold execMbTwinDetach
  repeat' first
    | with_reducible first | assumption | intro _ | apply State.mbWhen_ok | apply twinDetach_ok | apply ite_ok | apply next_ok | apply ite_out_ok
    | exact rfl
    | (simp only [ok_mk]; with_reducible apply core_any_ok)
    | (try dsimp only); split

theorem State.detachMsg_ok (m : List Byte) (hs : Ok que Q s) :
    Ok que Q (s.detachMsg m) := by
  unfold State.detachMsg
  repeat' first
    | with_reducible first | assumption | intro _ | apply State.modGln_ok | apply ite_ok
    | exact rfl
    | (simp only [ok_mk]; with_reducible apply core_ok)
    | (try dsimp only); split

theorem execDetach_ok (t : Tu) (m : List Byte) (hs : Ok que AnyTime s) :
    OkOut que (execDetach t m s) := by
  unfold execDetach
  repeat' first
    | with_reducible first | assumption | intro _ | apply State.when_ok | apply State.glnMsg_ok | apply State.forBasecamp_ok | apply State.detachMsg_ok | apply ite_ok | apply next_ok | apply ite_out_ok
    | exact rfl
    | (simp only [ok_mk]; with_reducible apply core_any_ok)
    | (try dsimp only); split

theorem State.handleWaiting_ok (hs : Ok que Q s) :
    Ok que Q (s.handleWaiting) := by
  unfold State.handleWaiting
  repeat' first
    | with_reducible first | assumption | intro _ | apply State.hello_ok | apply State.roleMsg_ok | apply State.detachMsg_ok | apply State.modGln_ok | apply ite_ok | apply foldl_ok | apply foldl_fst_ok
    | exact rfl
    | (simp only [ok_mk]; with_reducible apply core_ok)
    | (try dsimp only); split

theorem State.loseLink_ok (hs : Ok que Q s) :
    Ok que Q (s.loseLink) := by
  unfold State.loseLink
  repeat' first
    | with_reducible first | assumption | intro _ | apply State.modGln_ok | apply ite_ok
    | exact rfl
    | (simp only [ok_mk]; with_reducible apply core_ok)
    | (try dsimp only); split

theorem State.linkDown_ok (hs : Ok que Q s) :
    Ok que Q (s.linkDown) := by
  unfold State.linkDown
  repeat' first
    | with_reducible first | assumption | intro _ | apply State.setFld_ok | apply State.modGln_ok | apply State.notePartner_ok | apply State.raise_ok | apply State.loseLink_ok | apply ite_ok
    | exact rfl
    | (simp only [ok_mk]; with_reducible apply core_ok)
    | (try dsimp only); split

theorem State.linkUp_ok (hs : Ok que Q s) :
    Ok que Q (s.linkUp) := by
  unfold State.linkUp
  repeat' first
    | with_reducible first | assumption | intro _ | apply State.setFld_ok | apply State.modGln_ok | apply State.notePartner_ok | apply State.raise_ok | apply State.glnSend_ok | apply ite_ok
    | exact rfl
    | (simp only [ok_mk]; with_reducible apply core_ok)
    | (try dsimp only); split

theorem execGlnLink_ok (t : Tu) (up : Bool) (hs : Ok que AnyTime s) :
    OkOut que (execGlnLink t up s) := by
  unfold execGlnLink
  repeat' first
    | with_reducible first | assumption | intro _ | apply State.when_ok | apply State.linkUp_ok | apply State.linkDown_ok | apply ite_ok | apply next_ok | apply ite_out_ok
    | exact rfl
    | (simp only [ok_mk]; with_reducible apply core_any_ok)
    | (try dsimp only); split

theorem execTwinPresChange_ok (t : Tu) (present : Bool) (hs : Ok que AnyTime s) :
    OkOut que (execTwinPresChange t present s) := by
  unfold execTwinPresChange
  repeat' first
    | with_reducible first | assumption | intro _ | apply State.when_ok | apply State.setFld_ok | apply State.modGln_ok | apply State.linkDown_ok | apply ite_ok | apply next_ok | apply ite_out_ok
    | exact rfl
    | (simp only [ok_mk]; with_reducible apply core_any_ok)
    | (try dsimp only); split

theorem State.writeGlnCfg_ok (v : Word) (hs : Ok que Q s) :
    Ok que Q (s.writeGlnCfg v) := by
  unfold State.writeGlnCfg
  repeat' first
    | with_reducible first | assumption | intro _ | apply State.writeRW_ok | apply State.diagClear_ok | apply State.linkDown_ok | apply State.modGln_ok | apply ite_ok
    | exact rfl
    | (simp only [ok_mk]; with_reducible apply core_ok)
    | (try dsimp only); split

theorem State.heldComplete_ok (q : Nat) (hs : Ok que Q s) :
    Ok que Q (s.heldComplete q) := by
  unfold State.heldComplete
  repeat' first
    | with_reducible first | assumption | intro _ | apply State.release_ok | apply State.modQueue_ok | apply State.abortRecord_ok | apply State.qOff_ok | apply State.qEvent_ok | apply ite_ok
    | exact rfl
    | (simp only [ok_mk]; with_reducible apply core_ok)
    | (try dsimp only); split

theorem execHeldQueueComplete_ok (t : Tu) (q : Fin 64) (hs : Ok que AnyTime s) :
    OkOut que (execHeldQueueComplete t q s) := by
  unfold execHeldQueueComplete
  repeat' first
    | with_reducible first | assumption | intro _ | apply State.when_ok | apply State.heldComplete_ok | apply ite_ok | apply next_ok | apply ite_out_ok
    | exact rfl
    | (simp only [ok_mk]; with_reducible apply core_any_ok)
    | (try dsimp only); split

theorem State.glnRoles_ok (hs : Ok que Q s) :
    Ok que Q (s.glnRoles) := by
  unfold State.glnRoles
  repeat' first
    | with_reducible first | assumption | intro _ | apply State.applyRole_ok | apply State.depose_ok | apply State.becomeSolo_ok | apply State.raise_ok | apply State.takeOver_ok | apply State.glnAges_ok | apply State.declareFail_ok | apply ite_ok
    | exact rfl
    | (simp only [ok_mk]; with_reducible apply core_ok)
    | (try dsimp only); split

theorem State.glnSends_ok (hs : Ok que Q s) :
    Ok que Q (s.glnSends) := by
  unfold State.glnSends
  repeat' first
    | with_reducible first | assumption | intro _ | apply State.hello_ok | apply State.sendHello_ok | apply State.glnSend_ok | apply State.sendBeat_ok | apply ite_ok
    | exact rfl
    | (simp only [ok_mk]; with_reducible apply core_ok)
    | (try dsimp only); split

theorem State.glnUnpitched_ok (hs : Ok que Q s) :
    Ok que Q (s.glnUnpitched) := by
  unfold State.glnUnpitched
  repeat' first
    | with_reducible first | assumption | intro _ | apply State.becomeSolo_ok | apply State.raise_ok | apply State.applyRole_ok | apply State.glnSends_ok | apply ite_ok
    | exact rfl
    | (simp only [ok_mk]; with_reducible apply core_ok)
    | (try dsimp only); split

end Sys2Proof.Machine
end

