-- ==== Sys2Proof/Laws/KeepMgt.lean ====
section
/-! SUPPORT. What every operation of Machine/Mgt.lean keeps: the invariant, and the queue of waiting commands. -/

set_option linter.unusedTactic false
set_option linter.unreachableTactic false
set_option linter.unusedSimpArgs false

namespace Sys2Proof.Machine

variable {que : List Instr} {Q : Saying} {s : State}

theorem State.modMgt_ok (f : Mgt → Mgt) (hs : Ok que Q s) :
    Ok que Q (s.modMgt f) := by
  unfold State.modMgt
  repeat' first
    | with_reducible first | assumption | intro _
    | exact rfl
    | (simp only [ok_mk]; with_reducible apply core_ok)
    | (try dsimp only); split

theorem State.whenMgt_ok (t : Tu) (f : State → State) (hs : Ok que AnyTime s) (hf : ∀ s, Ok que AnyTime s → Ok que AnyTime (f s)) :
    OkOut que (s.whenMgt t f) := by
  unfold State.whenMgt
  repeat' first
    | with_reducible first | assumption | intro _ | apply State.done_ok | apply State.at_ok | apply hf | apply ite_ok | apply next_ok | apply ite_out_ok
    | exact rfl
    | (simp only [ok_mk]; with_reducible apply core_any_ok)
    | (try dsimp only); split

theorem State.showFuses_ok (hs : Ok que Q s) :
    Ok que Q (s.showFuses) := by
  unfold State.showFuses
  repeat' first
    | with_reducible first | assumption | intro _ | apply State.setPair_ok | apply State.setFld_ok | apply ite_ok
    | exact rfl
    | (simp only [ok_mk]; with_reducible apply core_ok)
    | (try dsimp only); split

theorem State.blow_ok (id bits : Nat) (hs : Ok que Q s) :
    Ok que Q (s.blow id bits) := by
  unfold State.blow
  repeat' first
    | with_reducible first | assumption | intro _ | apply State.modMgt_ok | apply State.showFuses_ok
    | exact rfl
    | (simp only [ok_mk]; with_reducible apply core_ok)
    | (try dsimp only); split

theorem fuseRead_ok (args : List Word) (hs : Ok que Q s) :
    Ok que Q (fuseRead s args).s := by
  unfold fuseRead
  repeat' first
    | with_reducible first | assumption | intro _ | apply mbFail_ok | apply ite_mb_ok | apply ite_ok
    | exact rfl
    | (simp only [ok_mk]; with_reducible apply core_ok)
    | (try dsimp only); split

theorem execMbFuseRead_ok (t : Tu) (tag : Byte) (hs : Ok que AnyTime s) :
    OkOut que (execMbFuseRead t tag s) := by
  unfold execMbFuseRead
  repeat' first
    | with_reducible first | assumption | intro _ | apply State.mbWhen_ok | apply fuseRead_ok | apply ite_ok | apply next_ok | apply ite_out_ok
    | exact rfl
    | (simp only [ok_mk]; with_reducible apply core_any_ok)
    | (try dsimp only); split

theorem fuseProg_ok (stuck : Word) (args : List Word) (hs : Ok que Q s) :
    Ok que Q (fuseProg stuck s args).s := by
  unfold fuseProg
  repeat' first
    | with_reducible first | assumption | intro _ | apply mbFail_ok | apply State.blow_ok | apply State.raise_ok | apply ite_mb_ok | apply ite_ok
    | exact rfl
    | (simp only [ok_mk]; with_reducible apply core_ok)
    | (try dsimp only); split

theorem execMbFuseProg_ok (t : Tu) (tag : Byte) (stuck : Word) (hs : Ok que AnyTime s) :
    OkOut que (execMbFuseProg t tag stuck s) := by
  unfold execMbFuseProg
  repeat' first
    | with_reducible first | assumption | intro _ | apply State.mbWhen_ok | apply fuseProg_ok | apply ite_ok | apply next_ok | apply ite_out_ok
    | exact rfl
    | (simp only [ok_mk]; with_reducible apply core_any_ok)
    | (try dsimp only); split

theorem State.setBank_ok (b : Nat) (x : Bank) (hs : Ok que Q s) :
    Ok que Q (s.setBank b x) := by
  unfold State.setBank
  repeat' first
    | with_reducible first | assumption | intro _ | apply State.modMgt_ok
    | exact rfl
    | (simp only [ok_mk]; with_reducible apply core_ok)
    | (try dsimp only); split

theorem mbInfo_ok (x0 : List Word) (hs : Ok que Q s) :
    Ok que Q (mbInfo s x0).s := by
  unfold mbInfo
  repeat' first
    | with_reducible first | assumption | intro _ | apply State.used_ok | apply ite_mb_ok | apply ite_ok
    | exact rfl
    | (simp only [ok_mk]; with_reducible apply core_ok)
    | (try dsimp only); split

theorem execMbInfo_ok (t : Tu) (tag : Byte) (hs : Ok que AnyTime s) :
    OkOut que (execMbInfo t tag s) := by
  unfold execMbInfo
  repeat' first
    | with_reducible first | assumption | intro _ | apply State.mbWhen_ok | apply mbInfo_ok | apply ite_ok | apply next_ok | apply ite_out_ok
    | exact rfl
    | (simp only [ok_mk]; with_reducible apply core_any_ok)
    | (try dsimp only); split

theorem fwInfo_ok (args : List Word) (hs : Ok que Q s) :
    Ok que Q (fwInfo s args).s := by
  unfold fwInfo
  repeat' first
    | with_reducible first | assumption | intro _ | apply mbFail_ok | apply ite_mb_ok | apply ite_ok
    | exact rfl
    | (simp only [ok_mk]; with_reducible apply core_ok)
    | (try dsimp only); split

theorem execMbFwInfo_ok (t : Tu) (tag : Byte) (hs : Ok que AnyTime s) :
    OkOut que (execMbFwInfo t tag s) := by
  unfold execMbFwInfo
  repeat' first
    | with_reducible first | assumption | intro _ | apply State.mbWhen_ok | apply fwInfo_ok | apply ite_ok | apply next_ok | apply ite_out_ok
    | exact rfl
    | (simp only [ok_mk]; with_reducible apply core_any_ok)
    | (try dsimp only); split

theorem fwEnd_ok (status : Nat) (res : List Word) (hs : Ok que Q s) :
    Ok que Q (fwEnd s status res).s := by
  unfold fwEnd
  repeat' first
    | with_reducible first | assumption | intro _ | apply State.raise_ok | apply ite_mb_ok | apply ite_ok
    | exact rfl
    | (simp only [ok_mk]; with_reducible apply core_ok)
    | (try dsimp only); split

theorem State.flashFail_ok (hs : Ok que Q s) :
    Ok que Q (s.flashFail) := by
  unfold State.flashFail
  repeat' first
    | with_reducible first | assumption | intro _ | apply State.raise0_ok
    | exact rfl
    | (simp only [ok_mk]; with_reducible apply core_ok)
    | (try dsimp only); split

theorem fwUpdate_ok (img : Option (List Byte)) (flashOk : Bool) (args : List Word) (hs : Ok que Q s) :
    Ok que Q (fwUpdate img flashOk s args).s := by
  unfold fwUpdate
  repeat' first
    | with_reducible first | assumption | intro _ | apply fwEnd_ok | apply State.setBank_ok | apply State.flashFail_ok | apply ite_mb_ok | apply ite_ok
    | exact rfl
    | (simp only [ok_mk]; with_reducible apply core_ok)
    | (try dsimp only); split

theorem execMbFwUpdate_ok (t : Tu) (tag : Byte) (img : Option (List Byte)) (flashOk : Bool) (hs : Ok que AnyTime s) :
    OkOut que (execMbFwUpdate t tag img flashOk s) := by
  unfold execMbFwUpdate
  repeat' first
    | with_reducible first | assumption | intro _ | apply State.mbWhen_ok | apply fwUpdate_ok | apply ite_ok | apply next_ok | apply ite_out_ok
    | exact rfl
    | (simp only [ok_mk]; with_reducible apply core_any_ok)
    | (try dsimp only); split

theorem fwActivate_ok (args : List Word) (hs : Ok que Q s) :
    Ok que Q (fwActivate s args).s := by
  unfold fwActivate
  repeat' first
    | with_reducible first | assumption | intro _ | apply fwEnd_ok | apply State.setBank_ok | apply State.modMgt_ok | apply ite_mb_ok | apply ite_ok
    | exact rfl
    | (simp only [ok_mk]; with_reducible apply core_ok)
    | (try dsimp only); split

theorem State.beginRestart_ok (hs : Ok que Q s) :
    Ok que Q (s.beginRestart) := by
  unfold State.beginRestart
  repeat' first
    | with_reducible first | assumption | intro _ | apply State.modGln_ok | apply State.pitchShown_ok | apply State.mbDone_ok | apply State.modMgt_ok | apply State.setFld_ok | apply ite_ok
    | exact rfl
    | (simp only [ok_mk]; with_reducible apply core_ok)
    | (try dsimp only); split

theorem State.activateNow_ok (hs : Ok que Q s) :
    Ok que Q (s.activateNow) := by
  unfold State.activateNow
  repeat' first
    | with_reducible first | assumption | intro _ | apply State.beginRestart_ok | apply ite_ok
    | exact rfl
    | (simp only [ok_mk]; with_reducible apply core_ok)
    | (try dsimp only); split

theorem execMbFwActivate_ok (t : Tu) (tag : Byte) (hs : Ok que AnyTime s) :
    OkOut que (execMbFwActivate t tag s) := by
  unfold execMbFwActivate
  repeat' first
    | with_reducible first | assumption | intro _ | apply State.whenHost_ok | apply State.mbIssue_ok | apply fwActivate_ok | apply State.activateNow_ok | apply ite_ok | apply next_ok | apply ite_out_ok
    | exact rfl
    | (simp only [ok_mk]; with_reducible apply core_any_ok)
    | (try dsimp only); split

theorem fwCommit_ok (flashOk fuseOk : Bool) (x0 : List Word) (hs : Ok que Q s) :
    Ok que Q (fwCommit flashOk fuseOk s x0).s := by
  unfold fwCommit
  repeat' first
    | with_reducible first | assumption | intro _ | apply fwEnd_ok | apply State.flashFail_ok | apply State.setBank_ok | apply State.modMgt_ok | apply State.setFld_ok | apply State.used_ok | apply State.blow_ok | apply State.raise_ok | apply ite_mb_ok | apply ite_ok
    | exact rfl
    | (simp only [ok_mk]; with_reducible apply core_ok)
    | (try dsimp only); split

theorem execMbFwCommit_ok (t : Tu) (tag : Byte) (flashOk fuseOk : Bool) (hs : Ok que AnyTime s) :
    OkOut que (execMbFwCommit t tag flashOk fuseOk s) := by
  unfold execMbFwCommit
  repeat' first
    | with_reducible first | assumption | intro _ | apply State.mbWhen_ok | apply fwCommit_ok | apply ite_ok | apply next_ok | apply ite_out_ok
    | exact rfl
    | (simp only [ok_mk]; with_reducible apply core_any_ok)
    | (try dsimp only); split

theorem State.handleHeld_ok (hs : Ok que Q s) :
    Ok que Q (s.handleHeld) := by
  unfold State.handleHeld
  repeat' first
    | with_reducible first | assumption | intro _ | apply State.logRaise_ok | apply State.modMgt_ok | apply State.deliver_ok | apply foldl_ok | apply foldl_fst_ok
    | exact rfl
    | (simp only [ok_mk]; with_reducible apply core_ok)
    | (try dsimp only); split

theorem State.startFirmware_ok (restart : Bool) (hs : Ok que Q s) :
    Ok que Q (s.startFirmware restart) := by
  unfold State.startFirmware
  repeat' first
    | with_reducible first | assumption | intro _ | apply State.modMgt_ok | apply State.setFld_ok | apply State.setReg_ok | apply State.handleHeld_ok | apply State.handleWaiting_ok | apply State.raise_ok | apply ite_ok
    | exact rfl
    | (simp only [ok_mk]; with_reducible apply core_ok)
    | (try dsimp only); split

theorem State.romPhase_ok (hs : Ok que Q s) :
    Ok que Q (s.romPhase) := by
  unfold State.romPhase
  repeat' first
    | with_reducible first | assumption | intro _ | apply State.showFuses_ok | apply State.modMgt_ok | apply State.setFld_ok | apply State.startLanes_ok | apply foldl_ok | apply foldl_fst_ok
    | exact rfl
    | (simp only [ok_mk]; with_reducible apply core_ok)
    | (try dsimp only); split

theorem execMgtBoot_ok (t : Tu) (hs : Ok que AnyTime s) :
    OkOut que (execMgtBoot t s) := by
  unfold execMgtBoot
  repeat' first
    | with_reducible first | assumption | intro _ | apply State.when_ok | apply State.romPhase_ok | apply State.startFirmware_ok | apply ite_ok | apply next_ok | apply ite_out_ok
    | exact rfl
    | (simp only [ok_mk]; with_reducible apply core_any_ok)
    | (try dsimp only); split

theorem execMgtWatchdog_ok (t : Tu) (hs : Ok que AnyTime s) :
    OkOut que (execMgtWatchdog t s) := by
  unfold execMgtWatchdog
  repeat' first
    | with_reducible first | assumption | intro _ | apply State.when_ok | apply State.beginRestart_ok | apply State.raise0_ok | apply ite_ok | apply next_ok | apply ite_out_ok
    | exact rfl
    | (simp only [ok_mk]; with_reducible apply core_any_ok)
    | (try dsimp only); split

theorem execBasecampRestartDone_ok (t : Tu) (hs : Ok que AnyTime s) :
    OkOut que (execBasecampRestartDone t s) := by
  unfold execBasecampRestartDone
  repeat' first
    | with_reducible first | assumption | intro _ | apply State.when_ok | apply State.startFirmware_ok | apply ite_ok | apply next_ok | apply ite_out_ok
    | exact rfl
    | (simp only [ok_mk]; with_reducible apply core_any_ok)
    | (try dsimp only); split

theorem execDebugHalt_ok (t : Tu) (hs : Ok que AnyTime s) :
    OkOut que (execDebugHalt t s) := by
  unfold execDebugHalt
  repeat' first
    | with_reducible first | assumption | intro _ | apply State.when_ok | apply State.beginRestart_ok | apply State.modMgt_ok | apply ite_ok | apply next_ok | apply ite_out_ok
    | exact rfl
    | (simp only [ok_mk]; with_reducible apply core_any_ok)
    | (try dsimp only); split

theorem execTrialTimeout_ok (t : Tu) (hs : Ok que AnyTime s) :
    OkOut que (execTrialTimeout t s) := by
  unfold execTrialTimeout
  repeat' first
    | with_reducible first | assumption | intro _ | apply State.when_ok | apply State.setBank_ok | apply State.beginRestart_ok | apply State.modMgt_ok | apply State.raise0_ok | apply State.raise_ok | apply ite_ok | apply next_ok | apply ite_out_ok
    | exact rfl
    | (simp only [ok_mk]; with_reducible apply core_any_ok)
    | (try dsimp only); split

theorem State.senseLevel_ok (n : Nat) (v : Int) (crit : Bool) (hs : Ok que Q s) :
    Ok que Q (s.senseLevel n v crit) := by
  unfold State.senseLevel
  repeat' first
    | with_reducible first | assumption | intro _ | apply State.setFld_ok | apply State.raise_ok | apply State.logNote_ok | apply ite_ok
    | exact rfl
    | (simp only [ok_mk]; with_reducible apply core_ok)
    | (try dsimp only); split

theorem State.senseValue_ok (n : Nat) (v : BitVec 16) (hs : Ok que Q s) :
    Ok que Q (s.senseValue n v) := by
  unfold State.senseValue
  repeat' first
    | with_reducible first | assumption | intro _ | apply State.setFld_ok | apply State.senseLevel_ok
    | exact rfl
    | (simp only [ok_mk]; with_reducible apply core_ok)
    | (try dsimp only); split

theorem execSensorSample_ok (t : Tu) (v : List (BitVec 16)) (hs : Ok que AnyTime s) :
    OkOut que (execSensorSample t v s) := by
  unfold execSensorSample
  repeat' first
    | with_reducible first | assumption | intro _ | apply State.when_ok | apply State.each_ok | apply State.senseValue_ok | apply ite_ok | apply next_ok | apply ite_out_ok
    | exact rfl
    | (simp only [ok_mk]; with_reducible apply core_any_ok)
    | (try dsimp only); split

theorem logRead_ok (ok : Bool) (args : List Word) (hs : Ok que Q s) :
    Ok que Q (logRead ok s args).s := by
  unfold logRead
  repeat' first
    | with_reducible first | assumption | intro _ | apply mbFail_ok | apply State.emit_ok | apply ite_mb_ok | apply ite_ok
    | exact rfl
    | (simp only [ok_mk]; with_reducible apply core_ok)
    | (try dsimp only); split

theorem execMbLogRead_ok (t : Tu) (tag : Byte) (ok : Bool) (hs : Ok que AnyTime s) :
    OkOut que (execMbLogRead t tag ok s) := by
  unfold execMbLogRead
  repeat' first
    | with_reducible first | assumption | intro _ | apply State.mbWhen_ok | apply logRead_ok | apply ite_ok | apply next_ok | apply ite_out_ok
    | exact rfl
    | (simp only [ok_mk]; with_reducible apply core_any_ok)
    | (try dsimp only); split

theorem logMark_ok (args : List Word) (hs : Ok que Q s) :
    Ok que Q (logMark s args).s := by
  unfold logMark
  repeat' first
    | with_reducible first | assumption | intro _ | apply State.used_ok | apply State.logAdd_ok | apply State.modMgt_ok | apply ite_mb_ok | apply ite_ok
    | exact rfl
    | (simp only [ok_mk]; with_reducible apply core_ok)
    | (try dsimp only); split

theorem execMbLogMark_ok (t : Tu) (tag : Byte) (hs : Ok que AnyTime s) :
    OkOut que (execMbLogMark t tag s) := by
  unfold execMbLogMark
  repeat' first
    | with_reducible first | assumption | intro _ | apply State.mbWhen_ok | apply logMark_ok | apply ite_ok | apply next_ok | apply ite_out_ok
    | exact rfl
    | (simp only [ok_mk]; with_reducible apply core_any_ok)
    | (try dsimp only); split

theorem execLogSummary_ok (t : Tu) (hs : Ok que AnyTime s) :
    OkOut que (execLogSummary t s) := by
  unfold execLogSummary
  repeat' first
    | with_reducible first | assumption | intro _ | apply State.when_ok | apply State.logAdd_ok | apply State.modMgt_ok | apply ite_ok | apply next_ok | apply ite_out_ok | apply foldl_ok | apply foldl_fst_ok
    | exact rfl
    | (simp only [ok_mk]; with_reducible apply core_any_ok)
    | (try dsimp only); split

theorem execLogFlush_ok (t : Tu) (flashOk : Bool) (hs : Ok que AnyTime s) :
    OkOut que (execLogFlush t flashOk s) := by
  unfold execLogFlush
  repeat' first
    | with_reducible first | assumption | intro _ | apply State.when_ok | apply State.modMgt_ok | apply State.flashFail_ok | apply ite_ok | apply next_ok | apply ite_out_ok | apply foldl_ok | apply foldl_fst_ok
    | exact rfl
    | (simp only [ok_mk]; with_reducible apply core_any_ok)
    | (try dsimp only); split

theorem State.polled_ok (p : PmbusPoll) (hs : Ok que Q s) :
    Ok que Q (s.polled p) := by
  unfold State.polled
  repeat' first
    | with_reducible first | assumption | intro _ | apply State.emit_ok | apply State.raise_ok | apply State.setFld_ok | apply ite_ok
    | exact rfl
    | (simp only [ok_mk]; with_reducible apply core_ok)
    | (try dsimp only); split

theorem execPmbusPoll_ok (t : Tu) (r : List PmbusPoll) (hs : Ok que AnyTime s) :
    OkOut que (execPmbusPoll t r s) := by
  unfold execPmbusPoll
  repeat' first
    | with_reducible first | assumption | intro _ | apply State.when_ok | apply State.polled_ok | apply ite_ok | apply next_ok | apply ite_out_ok | apply foldl_ok | apply foldl_fst_ok
    | exact rfl
    | (simp only [ok_mk]; with_reducible apply core_any_ok)
    | (try dsimp only); split

theorem pmbusXfer_ok (r : PmbusResult) (args : List Word) (hs : Ok que Q s) :
    Ok que Q (pmbusXfer r s args).s := by
  unfold pmbusXfer
  repeat' first
    | with_reducible first | assumption | intro _ | apply mbFail_ok | apply State.emit_ok | apply State.raise_ok | apply State.used_ok | apply ite_mb_ok | apply ite_ok
    | exact rfl
    | (simp only [ok_mk]; with_reducible apply core_ok)
    | (try dsimp only); split

theorem execMbPmbusXfer_ok (t : Tu) (tag : Byte) (r : PmbusResult) (hs : Ok que AnyTime s) :
    OkOut que (execMbPmbusXfer t tag r s) := by
  unfold execMbPmbusXfer
  repeat' first
    | with_reducible first | assumption | intro _ | apply State.mbWhen_ok | apply pmbusXfer_ok | apply ite_ok | apply next_ok | apply ite_out_ok
    | exact rfl
    | (simp only [ok_mk]; with_reducible apply core_any_ok)
    | (try dsimp only); split

theorem debugChallenge_ok (nonce : List Byte) (x0 : List Word) (hs : Ok que Q s) :
    Ok que Q (debugChallenge nonce s x0).s := by
  unfold debugChallenge
  repeat' first
    | with_reducible first | assumption | intro _ | apply mbFail_ok | apply State.modMgt_ok | apply ite_mb_ok | apply ite_ok
    | exact rfl
    | (simp only [ok_mk]; with_reducible apply core_ok)
    | (try dsimp only); split

theorem execMbDebugChallenge_ok (t : Tu) (tag : Byte) (nonce : List Byte) (hs : Ok que AnyTime s) :
    OkOut que (execMbDebugChallenge t tag nonce s) := by
  unfold execMbDebugChallenge
  repeat' first
    | with_reducible first | assumption | intro _ | apply State.mbWhen_ok | apply debugChallenge_ok | apply ite_ok | apply next_ok | apply ite_out_ok
    | exact rfl
    | (simp only [ok_mk]; with_reducible apply core_any_ok)
    | (try dsimp only); split

theorem debugUnlock_ok (resp : Option (List Byte)) (x0 : List Word) (hs : Ok que Q s) :
    Ok que Q (debugUnlock resp s x0).s := by
  unfold debugUnlock
  repeat' first
    | with_reducible first | assumption | intro _ | apply mbFail_ok | apply State.modMgt_ok | apply State.setFld_ok | apply State.raise_ok | apply ite_mb_ok | apply ite_ok
    | exact rfl
    | (simp only [ok_mk]; with_reducible apply core_ok)
    | (try dsimp only); split

theorem execMbDebugUnlock_ok (t : Tu) (tag : Byte) (resp : Option (List Byte)) (hs : Ok que AnyTime s) :
    OkOut que (execMbDebugUnlock t tag resp s) := by
  unfold execMbDebugUnlock
  repeat' first
    | with_reducible first | assumption | intro _ | apply State.mbWhen_ok | apply debugUnlock_ok | apply ite_ok | apply next_ok | apply ite_out_ok
    | exact rfl
    | (simp only [ok_mk]; with_reducible apply core_any_ok)
    | (try dsimp only); split

theorem State.smbDo_ok (pec status : Bool) (f : State → State) (hs : Ok que Q s) (hf : ∀ s, Ok que Q s → Ok que Q (f s)) :
    Ok que Q (s.smbDo pec status f) := by
  unfold State.smbDo
  repeat' first
    | with_reducible first | assumption | intro _ | apply State.emit_ok | apply hf | apply ite_ok
    | exact rfl
    | (simp only [ok_mk]; with_reducible apply core_ok)
    | (try dsimp only); split

theorem execSmbStatus_ok (t : Tu) (pec : Bool) (hs : Ok que AnyTime s) :
    OkOut que (execSmbStatus t pec s) := by
  unfold execSmbStatus
  repeat' first
    | with_reducible first | assumption | intro _ | apply State.whenMgt_ok | apply State.smbDo_ok | apply State.emit_ok | apply ite_ok | apply next_ok | apply ite_out_ok
    | exact rfl
    | (simp only [ok_mk]; with_reducible apply core_any_ok)
    | (try dsimp only); split

theorem execSmbAlertMask_ok (t : Tu) (pec : Bool) (w : Option (BitVec 16)) (hs : Ok que AnyTime s) :
    OkOut que (execSmbAlertMask t pec w s) := by
  unfold execSmbAlertMask
  repeat' first
    | with_reducible first | assumption | intro _ | apply State.whenMgt_ok | apply State.smbDo_ok | apply State.modMgt_ok | apply State.emit_ok | apply ite_ok | apply next_ok | apply ite_out_ok
    | exact rfl
    | (simp only [ok_mk]; with_reducible apply core_any_ok)
    | (try dsimp only); split

theorem execSmbSense_ok (t : Tu) (pec : Bool) (n : Byte) (hs : Ok que AnyTime s) :
    OkOut que (execSmbSense t pec n s) := by
  unfold execSmbSense
  repeat' first
    | with_reducible first | assumption | intro _ | apply State.whenMgt_ok | apply State.smbDo_ok | apply State.emit_ok | apply ite_ok | apply next_ok | apply ite_out_ok
    | exact rfl
    | (simp only [ok_mk]; with_reducible apply core_any_ok)
    | (try dsimp only); split

theorem smbRun_ok (cmd : Nat) (r : PmbusResult) (args : List Word) (hs : Ok que Q s) : Ok que Q (smbRun cmd r s args).s := by
  unfold smbRun
  repeat' first
    | with_reducible first | assumption | intro _ | apply mbInfo_ok | apply State.calInfo_ok | apply twinDetach_ok | apply twinTake_ok | apply logMark_ok | apply fwInfo_ok | apply fuseRead_ok | apply pmbusXfer_ok | apply ite_ok
    | exact rfl
    | (simp only [ok_mk]; with_reducible apply core_ok)
    | exact hs
    | split
    | (try dsimp only); split

theorem State.smbDone_ok (tag : Byte) (status : Nat) (res : List Word) (hs : Ok que Q s) :
    Ok que Q (s.smbDone tag status res) := by
  unfold State.smbDone
  repeat' first
    | with_reducible first | assumption | intro _ | apply State.raise_ok
    | exact rfl
    | (simp only [ok_mk]; with_reducible apply core_ok)
    | (try dsimp only); split

theorem State.smbRequest_ok (tag : Byte) (cmd : Nat) (args : List Word) (r : PmbusResult) (hs : Ok que Q s) :
    Ok que Q (s.smbRequest tag cmd args r) := by
  unfold State.smbRequest
  repeat' first
    | with_reducible first | assumption | intro _ | apply State.smbDone_ok | apply smbRun_ok | apply ite_ok
    | exact rfl
    | (simp only [ok_mk]; with_reducible apply core_ok)
    | (try dsimp only); split

theorem execSmbMbReq_ok (t : Tu) (pec : Bool) (tag : Byte) (cmd : BitVec 16) (args : List Word) (r : PmbusResult) (hs : Ok que AnyTime s) :
    OkOut que (execSmbMbReq t pec tag cmd args r s) := by
  unfold execSmbMbReq
  repeat' first
    | with_reducible first | assumption | intro _ | apply State.whenMgt_ok | apply State.smbDo_ok | apply State.smbRequest_ok | apply ite_ok | apply next_ok | apply ite_out_ok
    | exact rfl
    | (simp only [ok_mk]; with_reducible apply core_any_ok)
    | (try dsimp only); split

theorem execSmbMbResp_ok (t : Tu) (pec : Bool) (hs : Ok que AnyTime s) :
    OkOut que (execSmbMbResp t pec s) := by
  unfold execSmbMbResp
  repeat' first
    | with_reducible first | assumption | intro _ | apply State.whenMgt_ok | apply State.smbDo_ok | apply State.emit_ok | apply State.modMgt_ok | apply ite_ok | apply next_ok | apply ite_out_ok
    | exact rfl
    | (simp only [ok_mk]; with_reducible apply core_any_ok)
    | (try dsimp only); split

theorem execSmbLogEntry_ok (t : Tu) (pec : Bool) (seq : Word) (hs : Ok que AnyTime s) :
    OkOut que (execSmbLogEntry t pec seq s) := by
  unfold execSmbLogEntry
  repeat' first
    | with_reducible first | assumption | intro _ | apply State.whenMgt_ok | apply State.smbDo_ok | apply State.emit_ok | apply ite_ok | apply next_ok | apply ite_out_ok
    | exact rfl
    | (simp only [ok_mk]; with_reducible apply core_any_ok)
    | (try dsimp only); split

end Sys2Proof.Machine
end

