-- ==== Sys2Proof/Laws/KeepPitch.lean ====
section
/-! SUPPORT. What every operation of Machine/Pitch.lean keeps: the invariant, and the queue of waiting commands. -/

set_option linter.unusedTactic false
set_option linter.unreachableTactic false
set_option linter.unusedSimpArgs false

namespace Sys2Proof.Machine

variable {que : List Instr} {Q : Saying} {s : State}

theorem State.modPitch_ok (f : Pitch → Pitch) (hs : Ok que Q s) :
    Ok que Q (s.modPitch f) := by
  unfold State.modPitch
  repeat' first
    | with_reducible first | assumption | intro _
    | exact rfl
    | (simp only [ok_mk]; with_reducible apply core_ok)
    | (try dsimp only); split

theorem State.lkClusters_ok (rs : List ImgRec) (hs : Ok que Q s) :
    Ok que Q (s.lkClusters rs) := by
  unfold State.lkClusters
  repeat' first
    | with_reducible first | assumption | intro _ | apply State.each_ok | apply State.setFld_ok | apply State.setReg_ok
    | exact rfl
    | (simp only [ok_mk]; with_reducible apply core_ok)
    | (try dsimp only); split

theorem State.lkRegions_ok (rs : List ImgRec) (hs : Ok que Q s) :
    Ok que Q (s.lkRegions rs) := by
  unfold State.lkRegions
  repeat' first
    | with_reducible first | assumption | intro _ | apply State.each_ok | apply State.setFld_ok | apply State.setReg_ok | apply State.setPair_ok | apply ite_ok
    | exact rfl
    | (simp only [ok_mk]; with_reducible apply core_ok)
    | (try dsimp only); split

theorem State.lkQueues_ok (rs : List ImgRec) (hs : Ok que Q s) :
    Ok que Q (s.lkQueues rs) := by
  unfold State.lkQueues
  repeat' first
    | with_reducible first | assumption | intro _ | apply State.each_ok | apply State.setFld_ok | apply ite_ok
    | exact rfl
    | (simp only [ok_mk]; with_reducible apply core_ok)
    | (try dsimp only); split

theorem State.setLK_ok (h : List Byte) (rs : List ImgRec) (hs : Ok que Q s) :
    Ok que Q (s.setLK h rs) := by
  unfold State.setLK
  repeat' first
    | with_reducible first | assumption | intro _ | apply State.setFld_ok | apply State.each_ok | apply State.setReg_ok | apply State.lkClusters_ok | apply State.lkRegions_ok | apply State.lkQueues_ok
    | exact rfl
    | (simp only [ok_mk]; with_reducible apply core_ok)
    | (try dsimp only); split

theorem State.pitchReset_ok (names : List RegName) (p : Nat → Bool) (hs : Ok que Q s) :
    Ok que Q (s.pitchReset names p) := by
  unfold State.pitchReset
  repeat' first
    | with_reducible first | assumption | intro _ | apply State.resetRegs_ok
    | exact rfl
    | (simp only [ok_mk]; with_reducible apply core_ok)
    | (simp only [ok_mk]; refine core_sub_ok (fun _ h => (List.mem_filter.1 h).1) (fun _ h _ => h) ?_)
    | (try dsimp only); split

theorem State.pitchCluster_ok (c : Nat) (hs : Ok que Q s) :
    Ok que Q (s.pitchCluster c) := by
  unfold State.pitchCluster
  repeat' first
    | with_reducible first | assumption | intro _ | apply State.pitchReset_ok | apply State.accLose_ok | apply State.each_ok | apply State.freshComp_ok
    | exact rfl
    | (simp only [ok_mk]; with_reducible apply core_ok)
    | (try dsimp only); split

theorem State.pitchRegions_ok (p : Nat → Bool) (hs : Ok que Q s) :
    Ok que Q (s.pitchRegions p) := by
  unfold State.pitchRegions
  repeat' first
    | with_reducible first | assumption | intro _ | apply State.pitchReset_ok
    | exact rfl
    | (simp only [ok_mk]; with_reducible apply core_ok)
    | (try dsimp only); split

theorem State.pitchQueues_ok (rs : List ImgRec) (p : Nat → Bool) (hs : Ok que Q s) :
    Ok que Q (s.pitchQueues rs p) := by
  unfold State.pitchQueues
  repeat' first
    | with_reducible first | assumption | intro _ | apply State.pitchReset_ok | apply State.each_ok | apply State.setQState_ok | apply State.syncInflight_ok | apply ite_ok
    | exact rfl
    | (simp only [ok_mk]; with_reducible apply core_ok)
    | (try dsimp only); split

theorem State.pitchLayers_ok (hs : Ok que Q s) :
    Ok que Q (s.pitchLayers) := by
  unfold State.pitchLayers
  repeat' first
    | with_reducible first | assumption | intro _ | apply State.pitchReset_ok | apply State.modRas_ok
    | exact rfl
    | (simp only [ok_mk]; with_reducible apply core_ok)
    | (try dsimp only); split

theorem State.pitchLane_ok (ln : Nat) (hs : Ok que Q s) :
    Ok que Q (State.pitchLane s ln) := by
  unfold State.pitchLane
  repeat' first
    | with_reducible first | assumption | intro _ | apply State.freezeLane_ok | apply State.modLane_ok | apply State.makeStale_ok | apply ite_ok
    | exact rfl
    | (simp only [ok_mk]; with_reducible apply core_ok)
    | (try dsimp only); split

theorem State.pitchChan_ok (ch : Nat) (hs : Ok que Q s) :
    Ok que Q (s.pitchChan ch) := by
  unfold State.pitchChan
  repeat' first
    | with_reducible first | assumption | intro _ | apply State.setFld_ok | apply State.modAfe_ok | apply State.settle_ok | apply ite_ok
    | exact rfl
    | (simp only [ok_mk]; with_reducible apply core_ok)
    | (try dsimp only); split

theorem State.bootGates_ok (hs : Ok que Q s) :
    Ok que Q (s.bootGates) := by
  unfold State.bootGates
  repeat' first
    | with_reducible first | assumption | intro _ | apply State.each_ok | apply State.stopNode_ok | apply State.startNode_ok | apply ite_ok
    | exact rfl
    | (simp only [ok_mk]; with_reducible apply core_ok)
    | (try dsimp only); split

theorem State.routeGates_ok (hs : Ok que Q s) :
    Ok que Q (s.routeGates) := by
  unfold State.routeGates
  repeat' first
    | with_reducible first | assumption | intro _ | apply State.each_ok | apply State.stopNode_ok | apply State.raise_ok | apply ite_ok
    | exact rfl
    | (simp only [ok_mk]; with_reducible apply core_ok)
    | (try dsimp only); split

theorem State.pitchReport_ok (b : List Byte) (hs : Ok que Q s) :
    Ok que Q (s.pitchReport b) := by
  unfold State.pitchReport
  repeat' first
    | with_reducible first | assumption | intro _ | apply State.setReg_ok | apply State.setFld_ok | apply ite_ok
    | exact rfl
    | (simp only [ok_mk]; with_reducible apply core_ok)
    | (try dsimp only); split

theorem State.pitchNotes_ok (c : Nat) (hs : Ok que Q s) :
    Ok que Q (s.pitchNotes c) := by
  unfold State.pitchNotes
  repeat' first
    | with_reducible first | assumption | intro _ | apply State.setFld_ok | apply State.noteGens_ok | apply State.noteAcc_ok | apply State.ticNote_ok | apply foldl_ok | apply foldl_fst_ok
    | exact rfl
    | (simp only [ok_mk]; with_reducible apply core_ok)
    | (try dsimp only); split

theorem State.eccNow_ok (hs : Ok que Q s) :
    Ok que Q (s.eccNow) := by
  unfold State.eccNow
  repeat' first
    | with_reducible first | assumption | intro _ | apply State.each_ok | apply State.setFld_ok
    | exact rfl
    | (simp only [ok_mk]; with_reducible apply core_ok)
    | (try dsimp only); split

theorem State.applyFull_ok (a : Accepted) (boot : Bool) (hs : Ok que Q s) :
    Ok que Q (s.applyFull a boot) := by
  unfold State.applyFull
  repeat' first
    | with_reducible first | assumption | intro _ | apply State.each_ok | apply State.pitchCluster_ok | apply State.pitchRegions_ok | apply State.pitchQueues_ok | apply State.pitchLayers_ok | apply State.modPitch_ok | apply State.setLK_ok | apply State.pitchReport_ok | apply State.setFld_ok | apply State.pitchNotes_ok | apply State.eccNow_ok | apply State.pitchLane_ok | apply State.pitchChan_ok | apply State.limitRate_ok | apply State.bootGates_ok | apply State.routeGates_ok | apply State.modLane_ok | apply State.anchorLater_ok | apply State.noteK_ok | apply State.raise_ok | apply ite_ok
    | exact rfl
    | (simp only [ok_mk]; with_reducible apply core_ok)
    | (try dsimp only); split

theorem State.applyPartial_ok (a : Accepted) (c : Nat) (hs : Ok que Q s) :
    Ok que Q (s.applyPartial a c) := by
  unfold State.applyPartial
  repeat' first
    | with_reducible first | assumption | intro _ | apply State.pitchCluster_ok | apply State.pitchRegions_ok | apply State.pitchQueues_ok | apply State.modPitch_ok | apply State.setLK_ok | apply State.setReg_ok | apply State.setFld_ok | apply State.pitchNotes_ok | apply State.pitchLane_ok | apply State.pitchChan_ok | apply State.raise_ok | apply foldl_ok | apply foldl_fst_ok
    | exact rfl
    | (simp only [ok_mk]; with_reducible apply core_ok)
    | (try dsimp only); split

theorem State.pitchRefuse_ok (code detail : Nat) (hs : Ok que Q s) :
    Ok que Q (s.pitchRefuse code detail) := by
  unfold State.pitchRefuse
  repeat' first
    | with_reducible first | assumption | intro _ | apply State.setFld_ok | apply State.raise_ok
    | exact rfl
    | (simp only [ok_mk]; with_reducible apply core_ok)
    | (try dsimp only); split

theorem State.missSlots_ok (hs : Ok que Q s) :
    Ok que Q (s.missSlots) := by
  unfold State.missSlots
  repeat' first
    | with_reducible first | assumption | intro _ | apply State.each_ok | apply State.setFld_ok | apply State.raise_ok | apply ite_ok
    | exact rfl
    | (simp only [ok_mk]; with_reducible apply core_ok)
    | (try dsimp only); split

theorem State.pitchT1_ok (hs : Ok que Q s) :
    Ok que Q (s.pitchT1) := by
  unfold State.pitchT1
  repeat' first
    | with_reducible first | assumption | intro _ | apply State.each_ok | apply State.disarm_ok | apply State.modQueue_ok | apply State.missSlots_ok | apply State.ticStopAll_ok | apply State.modPitch_ok | apply State.setFld_ok | apply foldl_ok | apply foldl_fst_ok
    | exact rfl
    | (simp only [ok_mk]; with_reducible apply core_ok)
    | (try dsimp only); split

theorem State.pitchCut_ok (hs : Ok que Q s) :
    Ok que Q (s.pitchCut) := by
  unfold State.pitchCut
  repeat' first
    | with_reducible first | assumption | intro _ | apply State.abortRecord_ok | apply State.modQueue_ok | apply State.syncStaged_ok | apply State.abortXfers_ok | apply State.syncInflight_ok | apply ite_ok | apply foldl_ok | apply foldl_fst_ok
    | exact rfl
    | (simp only [ok_mk]; with_reducible apply core_ok)
    | (try dsimp only); split

theorem State.pitchTick_ok (hs : Ok que Q s) :
    Ok que Q (s.pitchTick) := by
  unfold State.pitchTick
  repeat' first
    | with_reducible first | assumption | intro _ | apply State.drained_ok | apply State.pitchCut_ok | apply State.applyFull_ok | apply State.modPitch_ok | apply State.applyPartial_ok | apply State.pitchRefuse_ok | apply ite_ok
    | exact rfl
    | (simp only [ok_mk]; with_reducible apply core_ok)
    | (try dsimp only); split

theorem State.pitchBegin_ok (hs : Ok que Q s) :
    Ok que Q (s.pitchBegin) := by
  unfold State.pitchBegin
  repeat' first
    | with_reducible first | assumption | intro _ | apply State.pitchT1_ok | apply ite_ok
    | exact rfl
    | (simp only [ok_mk]; with_reducible apply core_ok)
    | (try dsimp only); split

theorem State.pitchUnpitched_ok (hs : Ok que Q s) :
    Ok que Q (s.pitchUnpitched) := by
  unfold State.pitchUnpitched
  repeat' first
    | with_reducible first | assumption | intro _ | apply State.applyFull_ok | apply ite_ok
    | exact rfl
    | (simp only [ok_mk]; with_reducible apply core_ok)
    | (try dsimp only); split

theorem pitchBusyEnd_ok (hs : Ok que Q s) :
    Ok que Q (pitchBusyEnd s).s := by
  unfold pitchBusyEnd
  repeat' first
    | with_reducible first | assumption | intro _ | apply State.setFld_ok | apply ite_mb_ok | apply ite_ok
    | exact rfl
    | (simp only [ok_mk]; with_reducible apply core_ok)
    | (try dsimp only); split

theorem pitchFail_ok (code detail : Nat) (hs : Ok que Q s) :
    Ok que Q (pitchFail s code detail).s := by
  unfold pitchFail
  repeat' first
    | with_reducible first | assumption | intro _ | apply State.pitchRefuse_ok | apply ite_mb_ok | apply ite_ok
    | exact rfl
    | (simp only [ok_mk]; with_reducible apply core_ok)
    | (try dsimp only); split

theorem pitchLoad_ok (img : Option (List Byte)) (args : List Word) (hs : Ok que Q s) :
    Ok que Q (pitchLoad img s args).s := by
  unfold pitchLoad
  repeat' first
    | with_reducible first | assumption | intro _ | apply State.pitchShown_ok | apply pitchBusyEnd_ok | apply pitchFail_ok | apply State.setFld_ok | apply State.modPitch_ok | apply ite_mb_ok | apply ite_ok
    | exact rfl
    | (simp only [ok_mk]; with_reducible apply core_ok)
    | (try dsimp only); split

theorem execMbPitchLoad_ok (t : Tu) (tag : Byte) (img : Option (List Byte)) (hs : Ok que AnyTime s) :
    OkOut que (execMbPitchLoad t tag img s) := by
  unfold execMbPitchLoad
  repeat' first
    | with_reducible first | assumption | intro _ | apply State.mbWhen_ok | apply pitchLoad_ok | apply ite_ok | apply next_ok | apply ite_out_ok
    | exact rfl
    | (simp only [ok_mk]; with_reducible apply core_any_ok)
    | (try dsimp only); split

theorem execDryRun_ok (t : Tu) (tag : Byte) (img : Option (List Byte)) (hs : Ok que AnyTime s) :
    OkOut que (execDryRun t tag img s) := by
  unfold execDryRun
  repeat' first
    | with_reducible first | assumption | intro _ | apply State.mbWhen_ok | apply pitchLoad_ok | apply State.whenHost_ok | apply ite_ok | apply next_ok | apply ite_out_ok
    | exact rfl
    | (simp only [ok_mk]; with_reducible apply core_any_ok)
    | (try dsimp only); split

theorem State.setSlot_ok (k : Nat) (b : List Byte) (hs : Ok que Q s) :
    Ok que Q (s.setSlot k b) := by
  unfold State.setSlot
  repeat' first
    | with_reducible first | assumption | intro _ | apply State.modMgt_ok
    | exact rfl
    | (simp only [ok_mk]; with_reducible apply core_ok)
    | (try dsimp only); split

theorem pitchStore_ok (flashOk : Bool) (args : List Word) (hs : Ok que Q s) :
    Ok que Q (pitchStore flashOk s args).s := by
  unfold pitchStore
  repeat' first
    | with_reducible first | assumption | intro _ | apply pitchBusyEnd_ok | apply pitchFail_ok | apply State.setSlot_ok | apply State.setFld_ok | apply State.flashFail_ok | apply ite_mb_ok | apply ite_ok
    | exact rfl
    | (simp only [ok_mk]; with_reducible apply core_ok)
    | (try dsimp only); split

theorem execMbPitchStore_ok (t : Tu) (tag : Byte) (flashOk : Bool) (hs : Ok que AnyTime s) :
    OkOut que (execMbPitchStore t tag flashOk s) := by
  unfold execMbPitchStore
  repeat' first
    | with_reducible first | assumption | intro _ | apply State.mbWhen_ok | apply pitchStore_ok | apply ite_ok | apply next_ok | apply ite_out_ok
    | exact rfl
    | (simp only [ok_mk]; with_reducible apply core_any_ok)
    | (try dsimp only); split

theorem State.trySlot_ok (k : Nat) (hs : Ok que Q s) :
    Ok que Q (s.trySlot k).1 := by
  unfold State.trySlot
  repeat' first
    | with_reducible first | assumption | intro _ | apply State.pitchRefuse_ok | apply State.setFld_ok | apply State.applyFull_ok | apply ite_fst_ok | apply ite_ok
    | exact rfl
    | (simp only [ok_mk]; with_reducible apply core_ok)
    | (try dsimp only); split

theorem State.bootReady_ok (hs : Ok que Q s) :
    Ok que Q (s.bootReady) := by
  unfold State.bootReady
  repeat' first
    | with_reducible first | assumption | intro _ | apply State.setFld_ok
    | exact rfl
    | (simp only [ok_mk]; with_reducible apply core_ok)
    | (try dsimp only); split

theorem execBootPitch_ok (t : Tu) (hs : Ok que AnyTime s) :
    OkOut que (execBootPitch t s) := by
  unfold execBootPitch
  repeat' first
    | with_reducible first | assumption | intro _ | apply State.when_ok | apply State.trySlot_ok | apply State.bootReady_ok | apply ite_ok | apply next_ok | apply ite_out_ok
    | exact rfl
    | (simp only [ok_mk]; with_reducible apply core_any_ok)
    | (try dsimp only); split

end Sys2Proof.Machine
end

