-- ==== Sys2Proof/Laws/KeepPwr.lean ====
section
/-! SUPPORT. What every operation of Machine/Pwr.lean keeps: the invariant, and the queue of waiting commands. -/

set_option linter.unusedTactic false
set_option linter.unreachableTactic false
set_option linter.unusedSimpArgs false

namespace Sys2Proof.Machine

variable {que : List Instr} {Q : Saying} {s : State}

/-- A change that leaves the host link as it is. -/
theorem State.modPwr_ok (f : Pwr → Pwr) (h1 : ∀ p, (f p).on = p.on) (h2 : ∀ p, (f p).rstLow = p.rstLow)
    (h3 : ∀ p, (f p).tripped = p.tripped) (h4 : ∀ p, (f p).perstLow = p.perstLow) (hs : Ok que Q s) :
    Ok que Q (s.modPwr f) := by
  refine ⟨hs.1, hs.2.1, ?_⟩
  have h : (s.modPwr f).hostUp = s.hostUp := by
    simp only [State.hostUp, State.alive, State.modPwr, h1, h2, h3, h4]
  rw [h]
  exact hs.2.2

theorem State.modPwr_any_ok (f : Pwr → Pwr) (hs : Ok que AnyTime s) : Ok que AnyTime (s.modPwr f) :=
  Ok.of hs.1 hs.2.1 trivial

theorem State.wholeReset_ok (cause : Nat) (hs : Ok que AnyTime s) : Ok que AnyTime (s.wholeReset cause) := by
  unfold State.wholeReset
  refine State.setFld_ok rfl _ _ (State.setReg_ok rfl _ _ (State.showFuses_ok ?_))
  exact Ok.of ⟨⟨rfl, rfl⟩, rfl⟩ hs.2.1 trivial

theorem execPowerOn_ok (hs : Ok que AnyTime s) :
    OkOut que (execPowerOn s) := by
  unfold execPowerOn
  repeat' first
    | with_reducible first | assumption | intro _ | apply State.modPwr_any_ok | apply State.wholeReset_ok | apply ite_ok | apply next_ok | apply ite_out_ok
    | exact rfl
    | (simp only [ok_mk]; with_reducible apply core_any_ok)
    | (try dsimp only); split

theorem execPowerOff_ok (hs : Ok que AnyTime s) :
    OkOut que (execPowerOff s) := by
  unfold execPowerOff
  repeat' first
    | with_reducible first | assumption | intro _ | apply State.modPwr_any_ok | apply State.wholeReset_ok | apply ite_ok | apply next_ok | apply ite_out_ok
    | exact rfl
    | (simp only [ok_mk]; with_reducible apply core_any_ok)
    | (try dsimp only); split

theorem execRstNAssert_ok (hs : Ok que AnyTime s) :
    OkOut que (execRstNAssert s) := by
  unfold execRstNAssert
  repeat' first
    | with_reducible first | assumption | intro _ | apply State.modPwr_any_ok | apply State.wholeReset_ok | apply ite_ok | apply next_ok | apply ite_out_ok
    | exact rfl
    | (simp only [ok_mk]; with_reducible apply core_any_ok)
    | (try dsimp only); split

theorem execResetRelease_ok (hs : Ok que AnyTime s) :
    OkOut que (execResetRelease s) := by
  unfold execResetRelease
  repeat' first
    | with_reducible first | assumption | intro _ | apply State.modPwr_any_ok | apply ite_ok | apply next_ok | apply ite_out_ok
    | exact rfl
    | (simp only [ok_mk]; with_reducible apply core_any_ok)
    | (try dsimp only); split

theorem execBrownout_ok (hs : Ok que AnyTime s) :
    OkOut que (execBrownout s) := by
  unfold execBrownout
  repeat' first
    | with_reducible first | assumption | intro _ | apply State.wholeReset_ok | apply ite_ok | apply next_ok | apply ite_out_ok
    | exact rfl
    | (simp only [ok_mk]; with_reducible apply core_any_ok)
    | (try dsimp only); split

theorem execPerstNRelease_ok (t : Tu) (hs : Ok que AnyTime s) :
    OkOut que (execPerstNRelease t s) := by
  unfold execPerstNRelease
  repeat' first
    | with_reducible first | assumption | intro _ | apply State.modPwr_any_ok | apply State.at_ok | apply ite_ok | apply next_ok | apply ite_out_ok
    | exact rfl
    | (simp only [ok_mk]; with_reducible apply core_any_ok)
    | (try dsimp only); split

theorem State.closeAll_ok (ns : List Nat) (hs : Ok que Q s) :
    Ok que Q (s.closeAll ns) := by
  unfold State.closeAll
  repeat' first
    | with_reducible first | assumption | intro _ | apply State.modPwr_ok | apply State.stopNode_ok | apply ite_ok | apply foldl_ok | apply foldl_fst_ok
    | exact rfl
    | (simp only [ok_mk]; with_reducible apply core_ok)
    | (try dsimp only); split

theorem State.openAll_ok (ns : List Nat) (hs : Ok que Q s) :
    Ok que Q (s.openAll ns) := by
  unfold State.openAll
  repeat' first
    | with_reducible first | assumption | intro _ | apply State.modPwr_ok | apply State.startNode_ok | apply foldl_ok | apply foldl_fst_ok
    | exact rfl
    | (simp only [ok_mk]; with_reducible apply core_ok)
    | (try dsimp only); split

theorem State.setClSleep_ok (mask : Nat) (b : Bool) (hs : Ok que Q s) :
    Ok que Q (s.setClSleep mask b) := by
  unfold State.setClSleep
  repeat' first
    | with_reducible first | assumption | intro _ | apply State.setFld_ok | apply ite_ok
    | exact rfl
    | (simp only [ok_mk]; with_reducible apply core_ok)
    | (try dsimp only); split

theorem State.setEngSleep_ok (e : Nat) (b : Bool) (hs : Ok que Q s) :
    Ok que Q (s.setEngSleep e b) := by
  unfold State.setEngSleep
  repeat' first
    | with_reducible first | assumption | intro _ | apply State.setFld_ok | apply ite_ok
    | exact rfl
    | (simp only [ok_mk]; with_reducible apply core_ok)
    | (try dsimp only); split

theorem State.clusterDown_ok (c : Nat) (hs : Ok que Q s) :
    Ok que Q (s.clusterDown c) := by
  unfold State.clusterDown
  repeat' first
    | with_reducible first | assumption | intro _ | apply State.closeAll_ok | apply State.setClSleep_ok
    | exact rfl
    | (simp only [ok_mk]; with_reducible apply core_ok)
    | (try dsimp only); split

theorem State.spllStop_ok (e : Nat) (hs : Ok que Q s) :
    Ok que Q (s.spllStop e) := by
  unfold State.spllStop
  repeat' first
    | with_reducible first | assumption | intro _ | apply State.rateHold_ok | apply State.modSpll_ok | apply State.unalign_ok | apply State.setFld_ok
    | exact rfl
    | (simp only [ok_mk]; with_reducible apply core_ok)
    | (try dsimp only); split

theorem State.dieDown_ok (e : Nat) (hs : Ok que Q s) :
    Ok que Q (s.dieDown e) := by
  unfold State.dieDown
  repeat' first
    | with_reducible first | assumption | intro _ | apply State.modPwr_ok | apply State.closeAll_ok | apply State.setClSleep_ok | apply State.setEngSleep_ok | apply State.spllStop_ok
    | exact rfl
    | (simp only [ok_mk]; with_reducible apply core_ok)
    | (try dsimp only); split

theorem State.standbyDown_ok (hs : Ok que Q s) :
    Ok que Q (s.standbyDown) := by
  unfold State.standbyDown
  repeat' first
    | with_reducible first | assumption | intro _ | apply State.dieDown_ok | apply State.closeAll_ok | apply State.linkDown_ok | apply State.unqualify_ok | apply State.jpllUnlock_ok | apply State.setActive_ok | apply State.relockIdle_ok | apply State.setFld_ok | apply State.setMux_ok | apply ite_ok | apply foldl_ok | apply foldl_fst_ok
    | exact rfl
    | (simp only [ok_mk]; with_reducible apply core_ok)
    | (try dsimp only); split

theorem State.clusterUp_ok (c : Nat) (hs : Ok que Q s) :
    Ok que Q (s.clusterUp c) := by
  unfold State.clusterUp
  repeat' first
    | with_reducible first | assumption | intro _ | apply State.setClSleep_ok | apply State.openAll_ok
    | exact rfl
    | (simp only [ok_mk]; with_reducible apply core_ok)
    | (try dsimp only); split

theorem State.dieUp_ok (e : Nat) (hs : Ok que Q s) :
    Ok que Q (s.dieUp e) := by
  unfold State.dieUp
  repeat' first
    | with_reducible first | assumption | intro _ | apply State.setEngSleep_ok | apply State.modSpll_ok | apply State.openAll_ok | apply State.raise_ok | apply ite_ok
    | exact rfl
    | (simp only [ok_mk]; with_reducible apply core_ok)
    | (try dsimp only); split

theorem State.standbyUp_ok (span : Tu) (hs : Ok que AnyTime s) :
    Ok que AnyTime (s.standbyUp span) := by
  unfold State.standbyUp
  repeat' first
    | with_reducible first | assumption | intro _ | apply State.moveTime_ok | apply State.setFld_ok | apply State.openAll_ok
    | exact rfl
    | (simp only [ok_mk]; with_reducible apply core_any_ok)
    | (try dsimp only); split

theorem State.pwrDo_ok (r : PwrReq) (hs : Ok que AnyTime s) :
    Ok que AnyTime (State.pwrDo s r) := by
  unfold State.pwrDo
  repeat' first
    | with_reducible first | assumption | intro _ | apply State.clusterDown_ok | apply State.clusterUp_ok | apply State.dieDown_ok | apply State.dieUp_ok | apply State.standbyDown_ok | apply State.standbyUp_ok
    | exact rfl
    | (simp only [ok_mk]; with_reducible apply core_any_ok)
    | (try dsimp only); split

theorem State.pwrResult_ok (code : Nat) (hs : Ok que Q s) :
    Ok que Q (State.pwrResult s code) := by
  unfold State.pwrResult
  repeat' first
    | with_reducible first | assumption | intro _ | apply State.setFld_ok
    | exact rfl
    | (simp only [ok_mk]; with_reducible apply core_ok)
    | (try dsimp only); split

theorem State.pwrRun_ok (r : PwrReq) (hs : Ok que AnyTime s) :
    Ok que AnyTime (State.pwrRun s r) := by
  unfold State.pwrRun
  repeat' first
    | with_reducible first | assumption | intro _ | apply State.pwrResult_ok | apply State.closeAll_ok | apply State.openAll_ok | apply State.raise0_ok | apply State.pwrDo_ok | apply ite_ok
    | exact rfl
    | (simp only [ok_mk]; with_reducible apply core_any_ok)
    | (try dsimp only); split

theorem State.pwrAsk_ok (r : PwrReq) (hs : Ok que AnyTime s) :
    Ok que AnyTime (State.pwrAsk s r) := by
  unfold State.pwrAsk
  repeat' first
    | with_reducible first | assumption | intro _ | apply State.modPwr_any_ok | apply State.setFld_ok | apply State.pwrResult_ok | apply State.pwrRun_ok | apply ite_ok
    | exact rfl
    | (simp only [ok_mk]; with_reducible apply core_any_ok)
    | (try dsimp only); split

theorem State.pwrNext_ok (hs : Ok que AnyTime s) :
    Ok que AnyTime (State.pwrNext s) := by
  unfold State.pwrNext
  repeat' first
    | with_reducible first | assumption | intro _ | apply State.modPwr_any_ok | apply State.pwrRun_ok | apply ite_ok
    | exact rfl
    | (simp only [ok_mk]; with_reducible apply core_any_ok)
    | (try dsimp only); split

theorem State.writePwrReq_ok (v : Word) (hs : Ok que AnyTime s) :
    Ok que AnyTime (s.writePwrReq v) := by
  unfold State.writePwrReq
  repeat' first
    | with_reducible first | assumption | intro _ | apply State.pwrAsk_ok | apply ite_ok
    | exact rfl
    | (simp only [ok_mk]; with_reducible apply core_any_ok)
    | (try dsimp only); split

theorem execClusterSleep_ok (t : Tu) (c : Fin 4) (busy : Option (Fin 34)) (hs : Ok que AnyTime s) :
    OkOut que (execClusterSleep t c busy s) := by
  unfold execClusterSleep
  repeat' first
    | with_reducible first | assumption | intro _ | apply State.whenHost_ok | apply State.pwrAsk_ok | apply ite_ok | apply next_ok | apply ite_out_ok
    | exact rfl
    | (simp only [ok_mk]; with_reducible apply core_any_ok)
    | (try dsimp only); split

theorem execClusterWake_ok (t : Tu) (c : Fin 4) (hs : Ok que AnyTime s) :
    OkOut que (execClusterWake t c s) := by
  unfold execClusterWake
  repeat' first
    | with_reducible first | assumption | intro _ | apply State.whenHost_ok | apply State.pwrAsk_ok | apply ite_ok | apply next_ok | apply ite_out_ok
    | exact rfl
    | (simp only [ok_mk]; with_reducible apply core_any_ok)
    | (try dsimp only); split

theorem execEngineSleep_ok (t : Tu) (e : Fin 2) (busy : Option (Fin 34)) (hs : Ok que AnyTime s) :
    OkOut que (execEngineSleep t e busy s) := by
  unfold execEngineSleep
  repeat' first
    | with_reducible first | assumption | intro _ | apply State.whenHost_ok | apply State.pwrAsk_ok | apply ite_ok | apply next_ok | apply ite_out_ok
    | exact rfl
    | (simp only [ok_mk]; with_reducible apply core_any_ok)
    | (try dsimp only); split

theorem execEngineWake_ok (t : Tu) (e : Fin 2) (hs : Ok que AnyTime s) :
    OkOut que (execEngineWake t e s) := by
  unfold execEngineWake
  repeat' first
    | with_reducible first | assumption | intro _ | apply State.whenHost_ok | apply State.pwrAsk_ok | apply ite_ok | apply next_ok | apply ite_out_ok
    | exact rfl
    | (simp only [ok_mk]; with_reducible apply core_any_ok)
    | (try dsimp only); split

theorem execStandby_ok (t : Tu) (busy : Option (Fin 34)) (hs : Ok que AnyTime s) :
    OkOut que (execStandby t busy s) := by
  unfold execStandby
  repeat' first
    | with_reducible first | assumption | intro _ | apply State.whenHost_ok | apply State.pwrAsk_ok | apply ite_ok | apply next_ok | apply ite_out_ok
    | exact rfl
    | (simp only [ok_mk]; with_reducible apply core_any_ok)
    | (try dsimp only); split

theorem execExitStandby_ok (t : Tu) (span : Tu) (hs : Ok que AnyTime s) :
    OkOut que (execExitStandby t span s) := by
  unfold execExitStandby
  repeat' first
    | with_reducible first | assumption | intro _ | apply State.whenHost_ok | apply State.pwrAsk_ok | apply ite_ok | apply next_ok | apply ite_out_ok
    | exact rfl
    | (simp only [ok_mk]; with_reducible apply core_any_ok)
    | (try dsimp only); split

theorem State.gateOver_ok (g : GateReq) (acked : Bool) (hs : Ok que AnyTime s) :
    Ok que AnyTime (State.gateOver s g acked) := by
  unfold State.gateOver
  repeat' first
    | with_reducible first | assumption | intro _ | apply State.stopNode_ok | apply State.gateResult_ok | apply State.raise0_ok | apply State.pwrNext_ok | apply ite_ok
    | exact rfl
    | (simp only [ok_mk]; with_reducible apply core_any_ok)
    | (try dsimp only); split

theorem execGateQuiesceAck_ok (t : Tu) (hs : Ok que AnyTime s) :
    OkOut que (execGateQuiesceAck t s) := by
  unfold execGateQuiesceAck
  repeat' first
    | with_reducible first | assumption | intro _ | apply State.when_ok | apply State.gateOver_ok | apply ite_ok | apply next_ok | apply ite_out_ok
    | exact rfl
    | (simp only [ok_mk]; with_reducible apply core_any_ok)
    | (try dsimp only); split

theorem execGateBusy_ok (t : Tu) (hs : Ok que AnyTime s) :
    OkOut que (execGateBusy t s) := by
  unfold execGateBusy
  repeat' first
    | with_reducible first | assumption | intro _ | apply State.when_ok | apply State.gateOver_ok | apply ite_ok | apply next_ok | apply ite_out_ok
    | exact rfl
    | (simp only [ok_mk]; with_reducible apply core_any_ok)
    | (try dsimp only); split

theorem State.zeroDir_ok (e : Nat) (hs : Ok que Q s) :
    Ok que Q (s.zeroDir e) := by
  unfold State.zeroDir
  repeat' first
    | with_reducible first | assumption | intro _
    | exact rfl
    | (simp only [ok_mk]; with_reducible first | apply core_ok | apply core_mem_ok (Memory.wf_memPutAll _ _ _) | apply core_mem_ok (Memory.wf_filter _ _))
    | (simp only [ok_mk]; with_reducible first | apply core_ok | apply core_mem_ok (Memory.wf_filter _ _))
    | (try dsimp only); split

theorem State.stackTrained_ok (e : Nat) (ok : Bool) (hs : Ok que Q s) :
    Ok que Q (s.stackTrained e ok) := by
  unfold State.stackTrained
  repeat' first
    | with_reducible first | assumption | intro _ | apply State.setFld_ok | apply State.zeroDir_ok | apply State.dieDown_ok | apply State.raise_ok | apply ite_ok
    | exact rfl
    | (simp only [ok_mk]; with_reducible apply core_ok)
    | (try dsimp only); split

theorem execStackTrainingDone_ok (t : Tu) (e : Fin 2) (ok : Bool) (hs : Ok que AnyTime s) :
    OkOut que (execStackTrainingDone t e ok s) := by
  unfold execStackTrainingDone
  repeat' first
    | with_reducible first | assumption | intro _ | apply State.when_ok | apply State.stackTrained_ok | apply ite_ok | apply next_ok | apply ite_out_ok
    | exact rfl
    | (simp only [ok_mk]; with_reducible apply core_any_ok)
    | (try dsimp only); split

theorem State.holdStops_ok (z : Nat) (hs : Ok que Q s) :
    Ok que Q (s.holdStops z) := by
  unfold State.holdStops
  repeat' first
    | with_reducible first | assumption | intro _ | apply State.disarmRegions_ok | apply State.beginDrain_ok | apply State.commitTicCfg_ok | apply State.setFld_ok | apply State.modRas_ok | apply ite_ok | apply foldl_ok | apply foldl_fst_ok
    | exact rfl
    | (simp only [ok_mk]; with_reducible apply core_ok)
    | (try dsimp only); split

theorem State.enterHold_ok (z : Nat) (hs : Ok que Q s) :
    Ok que Q (s.enterHold z) := by
  unfold State.enterHold
  repeat' first
    | with_reducible first | assumption | intro _ | apply State.modPwr_ok | apply State.holdStops_ok | apply State.setFld_ok | apply State.raise_ok | apply ite_ok | apply foldl_ok | apply foldl_fst_ok
    | exact rfl
    | (simp only [ok_mk]; with_reducible apply core_ok)
    | (try dsimp only); split

theorem State.holdSleep_ok (z : Nat) (hs : Ok que Q s) :
    Ok que Q (s.holdSleep z) := by
  unfold State.holdSleep
  repeat' first
    | with_reducible first | assumption | intro _ | apply State.modPwr_ok | apply State.standbyDown_ok | apply State.dieDown_ok | apply ite_ok
    | exact rfl
    | (simp only [ok_mk]; with_reducible apply core_ok)
    | (try dsimp only); split

theorem State.thermalTick_ok (hs : Ok que Q s) :
    Ok que Q (s.thermalTick) := by
  unfold State.thermalTick
  repeat' first
    | with_reducible first | assumption | intro _ | apply State.modPwr_ok | apply State.enterHold_ok | apply State.holdSleep_ok | apply foldl_ok | apply foldl_fst_ok
    | exact rfl
    | (simp only [ok_mk]; with_reducible apply core_ok)
    | (try dsimp only); split

theorem State.thermalCheck_ok (v : List (BitVec 16)) (hs : Ok que Q s) :
    Ok que Q (s.thermalCheck v) := by
  unfold State.thermalCheck
  repeat' first
    | with_reducible first | assumption | intro _ | apply State.modPwr_ok | apply State.setFld_ok | apply State.thermalTick_ok | apply ite_ok | apply foldl_ok | apply foldl_fst_ok
    | exact rfl
    | (simp only [ok_mk]; with_reducible apply core_ok)
    | (try dsimp only); split

theorem execThermalCheck_ok (t : Tu) (v : List (BitVec 16)) (hs : Ok que AnyTime s) :
    OkOut que (execThermalCheck t v s) := by
  unfold execThermalCheck
  repeat' first
    | with_reducible first | assumption | intro _ | apply State.when_ok | apply State.thermalCheck_ok | apply ite_ok | apply next_ok | apply ite_out_ok
    | exact rfl
    | (simp only [ok_mk]; with_reducible apply core_any_ok)
    | (try dsimp only); split

theorem regs_foldl_ok (l : List (Reg × Word)) {m : List (Reg × Word)} (hl : (l.all fun e => !hardWired e.1.n) = true)
    (h : regsWf m = true ∧ (m.all fun e => !hardWired e.1.n) = true) :
    regsWf (l.foldl (fun m e => rput m e.1 e.2) m) = true ∧
      ((l.foldl (fun m e => rput m e.1 e.2) m).all fun e => !hardWired e.1.n) = true := by
  induction l generalizing m with
  | nil => exact h
  | cons e l ih =>
    rw [List.all_cons, Bool.and_eq_true] at hl
    exact ih hl.2 (regs_ok e.1 e.2 (by simpa using hl.1) h)

theorem execThermalTrip_ok (t : Tu) (n : Fin 5) (v : BitVec 16) (hs : Ok que AnyTime s) :
    OkOut que (execThermalTrip t n v s) := by
  unfold execThermalTrip
  refine State.when_ok _ _ hs fun s hs => ite_ok ?_ hs
  have h1 := State.wholeReset_ok causeTrip hs
  exact ⟨⟨regs_foldl_ok _ (regs_filter_ok _ hs.1.1).2 h1.1.1, h1.1.2⟩, h1.2⟩

end Sys2Proof.Machine
end

