-- ==== Sys2Proof/Laws/KeepEvt.lean ====
section
/-! SUPPORT. What every operation of Machine/Evt.lean keeps: the invariant, and the queue of waiting commands. -/

set_option linter.unusedTactic false
set_option linter.unreachableTactic false
set_option linter.unusedSimpArgs false

namespace Sys2Proof.Machine

variable {que : List Instr} {Q : Saying} {s : State}

theorem State.clearStatus_ok (n : Nat) (hs : Ok que Q s) :
    Ok que Q (s.clearStatus n) := by
  unfold State.clearStatus
  repeat' first
    | with_reducible first | assumption | intro _ | apply State.deliver_ok | apply State.setStatus_ok | apply ite_ok
    | exact rfl
    | (simp only [ok_mk]; with_reducible apply core_ok)
    | (try dsimp only); split

theorem State.writeEvtStatus_ok (w : Nat) (v : Word) (hs : Ok que Q s) :
    Ok que Q (s.writeEvtStatus w v) := by
  unfold State.writeEvtStatus
  repeat' first
    | with_reducible first | assumption | intro _ | apply State.clearStatus_ok | apply ite_ok | apply foldl_ok | apply foldl_fst_ok
    | exact rfl
    | (simp only [ok_mk]; with_reducible apply core_ok)
    | (try dsimp only); split

theorem execEvtStatusClear_ok (t : Tu) (w : Fin 16) (v : Word) (hs : Ok que AnyTime s) :
    OkOut que (execEvtStatusClear t w v s) := by
  unfold execEvtStatusClear
  repeat' first
    | with_reducible first | assumption | intro _ | apply State.whenHost_ok | apply State.writeEvtStatus_ok | apply ite_ok | apply next_ok | apply ite_out_ok
    | exact rfl
    | (simp only [ok_mk]; with_reducible apply core_any_ok)
    | (try dsimp only); split

theorem State.writeEvtEnable_ok (w : Nat) (v : Word) (hs : Ok que Q s) :
    Ok que Q (s.writeEvtEnable w v) := by
  unfold State.writeEvtEnable
  repeat' first
    | with_reducible first | assumption | intro _ | apply State.setReg_ok | apply State.deliver_ok | apply ite_ok | apply foldl_ok | apply foldl_fst_ok
    | exact rfl
    | (simp only [ok_mk]; with_reducible apply core_ok)
    | (try dsimp only); split

theorem execEvtEnableWrite_ok (t : Tu) (w : Fin 16) (v : Word) (hs : Ok que AnyTime s) :
    OkOut que (execEvtEnableWrite t w v s) := by
  unfold execEvtEnableWrite
  repeat' first
    | with_reducible first | assumption | intro _ | apply State.whenHost_ok | apply State.writeEvtEnable_ok | apply ite_ok | apply next_ok | apply ite_out_ok
    | exact rfl
    | (simp only [ok_mk]; with_reducible apply core_any_ok)
    | (try dsimp only); split

theorem execEvtDataRead_ok (t : Tu) (n : Fin 512) (hs : Ok que AnyTime s) :
    OkOut que (execEvtDataRead t n s) := by
  unfold execEvtDataRead
  repeat' first
    | with_reducible first | assumption | intro _ | apply State.whenHost_ok | apply State.emit_ok | apply State.setReg_ok | apply ite_ok | apply next_ok | apply ite_out_ok
    | exact rfl
    | (simp only [ok_mk]; with_reducible apply core_any_ok)
    | (try dsimp only); split

theorem State.vecAck_ok (v : Nat) (hs : Ok que Q s) :
    Ok que Q (s.vecAck v) := by
  unfold State.vecAck
  repeat' first
    | with_reducible first | assumption | intro _ | apply State.setArmed_ok | apply State.signal_ok | apply ite_ok
    | exact rfl
    | (simp only [ok_mk]; with_reducible apply core_ok)
    | (try dsimp only); split

theorem execEvtVecAck_ok (t : Tu) (v : Fin 64) (hs : Ok que AnyTime s) :
    OkOut que (execEvtVecAck t v s) := by
  unfold execEvtVecAck
  repeat' first
    | with_reducible first | assumption | intro _ | apply State.whenHost_ok | apply State.vecAck_ok | apply ite_ok | apply next_ok | apply ite_out_ok
    | exact rfl
    | (simp only [ok_mk]; with_reducible apply core_any_ok)
    | (try dsimp only); split

theorem State.vecUnmasked_ok (v : Nat) (hs : Ok que Q s) :
    Ok que Q (s.vecUnmasked v) := by
  unfold State.vecUnmasked
  repeat' first
    | with_reducible first | assumption | intro _ | apply State.signal_ok | apply State.setPba_ok | apply ite_ok
    | exact rfl
    | (simp only [ok_mk]; with_reducible apply core_ok)
    | (try dsimp only); split

theorem execVectorUnmask_ok (t : Tu) (v : Option (Fin 64)) (hs : Ok que AnyTime s) :
    OkOut que (execVectorUnmask t v s) := by
  unfold execVectorUnmask
  repeat' first
    | with_reducible first | assumption | intro _ | apply State.whenHost_ok | apply State.setMsixWord_ok | apply State.vecUnmasked_ok | apply State.each_ok | apply ite_ok | apply next_ok | apply ite_out_ok
    | exact rfl
    | (simp only [ok_mk]; with_reducible apply core_any_ok)
    | (try dsimp only); split

theorem State.writeMsix_ok (k : Nat) (v : Word) (hs : Ok que Q s) :
    Ok que Q (s.writeMsix k v) := by
  unfold State.writeMsix
  repeat' first
    | with_reducible first | assumption | intro _ | apply State.setMsixWord_ok | apply State.vecUnmasked_ok | apply ite_ok
    | exact rfl
    | (simp only [ok_mk]; with_reducible apply core_ok)
    | (try dsimp only); split

theorem execHostReadError_ok (t : Tu) (r : HostReader) (hs : Ok que AnyTime s) :
    OkOut que (execHostReadError t r s) := by
  unfold execHostReadError
  repeat' first
    | with_reducible first | assumption | intro _ | apply State.refetch_ok | apply State.whenHost_ok | apply State.qError_ok | apply State.layerDry_ok | apply State.mbWhen_ok | apply pitchLoad_ok | apply ite_ok | apply next_ok | apply ite_out_ok
    | exact rfl
    | (simp only [ok_mk]; with_reducible apply core_any_ok)
    | (try dsimp only); split

theorem State.linkCut_ok (q : Nat) (hs : Ok que Q s) :
    Ok que Q (s.linkCut q) := by
  unfold State.linkCut
  repeat' first
    | with_reducible first | assumption | intro _ | apply State.addLost_ok | apply State.qOff_ok | apply State.qEvent_ok | apply ite_ok
    | exact rfl
    | (simp only [ok_mk]; with_reducible apply core_ok)
    | (try dsimp only); split

theorem State.linkReset_ok (k : LinkReset) (hs : Ok que AnyTime s) :
    Ok que AnyTime (s.linkReset k) := by
  unfold State.linkReset
  repeat' first
    | with_reducible first | assumption | intro _ | apply State.modPwr_any_ok | apply State.used_ok | apply State.logNote_ok | apply State.each_ok | apply State.linkCut_ok | apply State.bump_ok | apply State.setFld_ok | apply State.pitchReset_ok | apply State.setReg_ok | apply State.noteBlocked_ok | apply ite_ok
    | exact rfl
    | (simp only [ok_mk]; with_reducible apply core_any_ok)
    | (try dsimp only); split

theorem execHostLinkReset_ok (t : Tu) (k : LinkReset) (hs : Ok que AnyTime s) :
    OkOut que (execHostLinkReset t k s) := by
  unfold execHostLinkReset
  repeat' first
    | with_reducible first | assumption | intro _ | apply State.whenHost_ok | apply State.linkReset_ok | apply ite_ok | apply next_ok | apply ite_out_ok
    | exact rfl
    | (simp only [ok_mk]; with_reducible apply core_any_ok)
    | (try dsimp only); split

end Sys2Proof.Machine
end

