-- ==== Sys2Proof/Laws/KeepDia.lean ====
section
/-! SUPPORT. What every operation of Machine/Dia.lean keeps: the invariant, and the queue of waiting commands. -/

set_option linter.unusedTactic false
set_option linter.unreachableTactic false
set_option linter.unusedSimpArgs false

namespace Sys2Proof.Machine

variable {que : List Instr} {Q : Saying} {s : State}

theorem State.injectError_ok (l : Nat) (hs : Ok que Q s) :
    Ok que Q (s.injectError l) := by
  unfold State.injectError
  repeat' first
    | with_reducible first | assumption | intro _ | apply State.emit_ok | apply ite_ok
    | exact rfl
    | (simp only [ok_mk]; with_reducible apply core_ok)
    | (try dsimp only); split

theorem State.writeDiag_ok (l : Nat) (v : Word) (hs : Ok que Q s) :
    Ok que Q (s.writeDiag l v) := by
  unfold State.writeDiag
  repeat' first
    | with_reducible first | assumption | intro _ | apply State.setFld_ok | apply State.injectError_ok | apply ite_ok
    | exact rfl
    | (simp only [ok_mk]; with_reducible apply core_ok)
    | (try dsimp only); split

theorem execLinkDiagWrite_ok (t : Tu) (l : Fin 9) (v : Word) (hs : Ok que AnyTime s) :
    OkOut que (execLinkDiagWrite t l v s) := by
  unfold execLinkDiagWrite
  repeat' first
    | with_reducible first | assumption | intro _ | apply State.whenHost_ok | apply State.writeDiag_ok | apply ite_ok | apply next_ok | apply ite_out_ok
    | exact rfl
    | (simp only [ok_mk]; with_reducible apply core_any_ok)
    | (try dsimp only); split

theorem execInject_ok (t : Tu) (l : Fin 9) (hs : Ok que AnyTime s) :
    OkOut que (execInject t l s) := by
  unfold execInject
  repeat' first
    | with_reducible first | assumption | intro _ | apply State.whenHost_ok | apply State.injectError_ok | apply ite_ok | apply next_ok | apply ite_out_ok
    | exact rfl
    | (simp only [ok_mk]; with_reducible apply core_any_ok)
    | (try dsimp only); split

theorem State.addBits_ok (l n : Nat) (hs : Ok que Q s) :
    Ok que Q (s.addBits l n) := by
  unfold State.addBits
  repeat' first
    | with_reducible first | assumption | intro _ | apply State.setPair_ok | apply State.used_ok | apply ite_ok
    | exact rfl
    | (simp only [ok_mk]; with_reducible apply core_ok)
    | (try dsimp only); split

theorem State.checkerLock_ok (l : Nat) (lock : Bool) (bits errs : Nat) (hs : Ok que Q s) :
    Ok que Q (s.checkerLock l lock bits errs) := by
  unfold State.checkerLock
  repeat' first
    | with_reducible first | assumption | intro _ | apply State.addBits_ok | apply State.bump_ok | apply State.setFld_ok | apply ite_ok
    | exact rfl
    | (simp only [ok_mk]; with_reducible apply core_ok)
    | (try dsimp only); split

theorem execCheckerLock_ok (t : Tu) (l : Fin 5) (lock : Bool) (bits : BitVec 48) (errs : Word) (hs : Ok que AnyTime s) :
    OkOut que (execCheckerLock t l lock bits errs s) := by
  unfold execCheckerLock
  repeat' first
    | with_reducible first | assumption | intro _ | apply State.when_ok | apply State.checkerLock_ok | apply ite_ok | apply next_ok | apply ite_out_ok
    | exact rfl
    | (simp only [ok_mk]; with_reducible apply core_any_ok)
    | (try dsimp only); split

theorem State.bistStart_ok (u : Nat) (hs : Ok que Q s) :
    Ok que Q (s.bistStart u) := by
  unfold State.bistStart
  repeat' first
    | with_reducible first | assumption | intro _ | apply State.setFld_ok | apply ite_ok
    | exact rfl
    | (simp only [ok_mk]; with_reducible apply core_ok)
    | (try dsimp only); split

theorem execBistStart_ok (t : Tu) (unit : Fin 16) (hs : Ok que AnyTime s) :
    OkOut que (execBistStart t unit s) := by
  unfold execBistStart
  repeat' first
    | with_reducible first | assumption | intro _ | apply State.whenHost_ok | apply State.bistStart_ok | apply ite_ok | apply next_ok | apply ite_out_ok
    | exact rfl
    | (simp only [ok_mk]; with_reducible apply core_any_ok)
    | (try dsimp only); split

theorem State.bistContents_ok (u : Nat) (hs : Ok que Q s) :
    Ok que Q (s.bistContents u) := by
  unfold State.bistContents
  repeat' first
    | with_reducible first | assumption | intro _ | apply State.accLose_ok | apply State.modRas_ok | apply ite_ok
    | exact rfl
    | (simp only [ok_mk]; with_reducible first | apply core_ok | apply core_mem_ok (Memory.wf_memPutAll _ _ _) | apply core_mem_ok (Memory.wf_filter _ _))
    | (simp only [ok_mk]; with_reducible first | apply core_ok | apply core_mem_ok (Memory.wf_filter _ _))
    | (try dsimp only); split

theorem execBistDone_ok (t : Tu) (pass : Bool) (detail : BitVec 16) (hs : Ok que AnyTime s) :
    OkOut que (execBistDone t pass detail s) := by
  unfold execBistDone
  repeat' first
    | with_reducible first | assumption | intro _ | apply State.when_ok | apply State.bistContents_ok | apply State.setFld_ok | apply ite_ok | apply next_ok | apply ite_out_ok
    | exact rfl
    | (simp only [ok_mk]; with_reducible apply core_any_ok)
    | (try dsimp only); split

theorem execJtagInstruction_ok (t : Tu) (ins : JtagIns) (hs : Ok que AnyTime s) :
    OkOut que (execJtagInstruction t ins s) := by
  unfold execJtagInstruction
  repeat' first
    | with_reducible first | assumption | intro _ | apply State.at_ok | apply State.wholeReset_ok | apply ite_ok | apply next_ok | apply ite_out_ok
    | exact rfl
    | (simp only [ok_mk]; with_reducible apply core_any_ok)
    | (try dsimp only); split

end Sys2Proof.Machine
end

