-- ==== Sys2Proof/Laws/KeepTick.lean ====
section
/-! SUPPORT. What every operation of Machine/Tick.lean keeps: the invariant, and the queue of waiting commands. -/

set_option linter.unusedTactic false
set_option linter.unreachableTactic false
set_option linter.unusedSimpArgs false

namespace Sys2Proof.Machine

variable {que : List Instr} {Q : Saying} {s : State}

theorem State.writeHold_ok (on : Bool) (hs : Ok que AnyTime s) :
    Ok que AnyTime (s.writeHold on) := by
  unfold State.writeHold
  repeat' first
    | with_reducible first | assumption | intro _ | apply State.setFld_ok | apply ite_ok
    | exact rfl
    | (simp only [ok_mk]; with_reducible apply core_any_ok)
    | (try dsimp only); split

theorem State.commitReg_ok (host : List HostRead) (w : ShWrite) (hs : Ok que Q s) :
    Ok que Q (State.commitReg host s w) := by
  unfold State.commitReg
  repeat' first
    | with_reducible first | assumption | intro _ | apply State.commitLockCfg_ok | apply State.commitSpllCfg_ok | apply State.commitRate_ok | apply State.setFld_ok | apply State.commitEn_ok | apply State.commitSeqCtrl_ok | apply State.commitAfeCfg_ok | apply State.commitAfeOffset_ok | apply State.commitLevel_ok | apply State.commitGen_ok | apply State.commitRed_ok | apply State.commitPlane_ok | apply State.commitMask_ok | apply State.commitAccCtrl_ok | apply State.commitSnap_ok | apply State.commitTicCfg_ok | apply State.commitTic_ok | apply State.commitPre_ok
    | exact rfl
    | (simp only [ok_mk]; with_reducible apply core_ok)
    | (rename_i heq; exact (congrArg hardWired heq).trans rfl)
    | (try dsimp only); split

theorem State.commitArms_ok (ws : List ShWrite) (hs : Ok que Q s) :
    Ok que Q (s.commitArms ws) := by
  unfold State.commitArms
  repeat' first
    | with_reducible first | assumption | intro _ | apply State.disarmRegions_ok | apply State.armRegions_ok | apply ite_ok | apply foldl_ok | apply foldl_fst_ok
    | exact rfl
    | (simp only [ok_mk]; with_reducible apply core_ok)
    | (try dsimp only); split

theorem State.commitRegs_ok (host : List HostRead) (ws : List ShWrite) (p : RegName → Bool) (hs : Ok que Q s) :
    Ok que Q (State.commitRegs host ws p s) := by
  unfold State.commitRegs
  repeat' first
    | with_reducible first | assumption | intro _ | apply State.commitReg_ok | apply foldl_ok | apply foldl_fst_ok
    | exact rfl
    | (simp only [ok_mk]; with_reducible apply core_ok)
    | (try dsimp only); split

theorem State.commitSh_ok (host : List HostRead) (hs : Ok que Q s) :
    Ok que Q (State.commitSh host s) := by
  unfold State.commitSh
  repeat' first
    | with_reducible first | assumption | intro _ | apply State.commitRegs_ok | apply State.limitPlanes_ok | apply State.commitArms_ok | apply State.setFrame_ok | apply ite_ok
    | exact rfl
    | (simp only [ok_mk]; with_reducible apply core_ok)
    | (simp only [ok_mk]; refine core_sub_ok (fun _ h => (List.mem_filter.1 h).1) (fun _ h _ => h) ?_)
    | (try dsimp only); split

theorem State.commitNow_ok (host : List HostRead) (hs : Ok que Q s) :
    Ok que Q (State.commitNow host s) := by
  unfold State.commitNow
  repeat' first
    | with_reducible first | assumption | intro _ | apply State.commitSh_ok | apply State.each_ok | apply State.forceDue_ok
    | exact rfl
    | (simp only [ok_mk]; with_reducible apply core_ok)
    | (try dsimp only); split

theorem State.commitStep_ok (host : List HostRead) (hs : Ok que Q s) :
    Ok que Q (State.commitStep host s) := by
  unfold State.commitStep
  repeat' first
    | with_reducible first | assumption | intro _ | apply State.commitNow_ok | apply ite_ok
    | exact rfl
    | (simp only [ok_mk]; with_reducible apply core_ok)
    | (try dsimp only); split

theorem State.runBcast_ok (b : Bcast) (hs : Ok que Q s) :
    Ok que Q (s.runBcast b) := by
  unfold State.runBcast
  repeat' first
    | with_reducible first | assumption | intro _ | apply State.syncAt_ok | apply State.armRegions_ok | apply State.disarmRegions_ok | apply ite_ok
    | exact rfl
    | (simp only [ok_mk]; with_reducible apply core_ok)
    | (try dsimp only); split

theorem State.bcastStep_ok (hs : Ok que Q s) :
    Ok que Q (s.bcastStep) := by
  unfold State.bcastStep
  repeat' first
    | with_reducible first | assumption | intro _ | apply State.runBcast_ok | apply State.dropBcast_ok | apply foldl_ok | apply foldl_fst_ok
    | exact rfl
    | (simp only [ok_mk]; with_reducible apply core_ok)
    | (try dsimp only); split

theorem State.runSlot_ok (host : List HostRead) (i : Nat) (c : Capture) (hs : Ok que Q s) :
    Ok que Q (State.runSlot host s i c).1 := by
  unfold State.runSlot
  repeat' first
    | with_reducible first | assumption | intro _ | apply State.armRegions_ok | apply State.disarmRegions_ok | apply State.syncAt_ok | apply State.commitNow_ok | apply State.setFld_ok | apply State.accClear_ok | apply State.raise_ok | apply ite_fst_ok | apply ite_ok | apply foldl_ok | apply foldl_fst_ok
    | exact rfl
    | (simp only [ok_mk]; with_reducible apply core_ok)
    | (simp only [ok_mk]; refine core_sub_ok (fun _ h => h) (fun _ h hx => (List.mem_cons.1 h).resolve_left fun he => Bool.noConfusion ((congrArg Prod.snd he).symm.trans hx)) ?_)
    | (try dsimp only); split

theorem State.slotEnd_ok (i : Nat) (later : List Capture) (outcome : Nat) (hs : Ok que Q s) :
    Ok que Q (s.slotEnd i later outcome) := by
  unfold State.slotEnd
  repeat' first
    | with_reducible first | assumption | intro _ | apply State.setFld_ok | apply ite_ok
    | exact rfl
    | (simp only [ok_mk]; with_reducible apply core_ok)
    | (try dsimp only); split

theorem State.slotTick_ok (host : List HostRead) (first : Bool) (i : Nat) (hs : Ok que Q s) :
    Ok que Q (State.slotTick host first s i) := by
  unfold State.slotTick
  repeat' first
    | with_reducible first | assumption | intro _ | apply State.runSlot_ok | apply State.slotEnd_ok | apply State.raise_ok | apply ite_ok
    | exact rfl
    | (simp only [ok_mk]; with_reducible apply core_ok)
    | (try dsimp only); split

theorem State.writeSched_ok (i cmd : Nat) (late : Bool) (hs : Ok que Q s) :
    Ok que Q (s.writeSched i cmd late) := by
  unfold State.writeSched
  repeat' first
    | with_reducible first | assumption | intro _ | apply State.setReg_ok | apply State.setFld_ok | apply ite_ok
    | exact rfl
    | (simp only [ok_mk]; with_reducible apply core_ok)
    | (try dsimp only); split

theorem State.stepAnchor_ok (e : Nat) (d : Int) (hs : Ok que Q s) :
    Ok que Q (s.stepAnchor e d) := by
  unfold State.stepAnchor
  repeat' first
    | with_reducible first | assumption | intro _ | apply State.unalign_ok | apply State.anchorLater_ok | apply State.setAnchor_ok | apply ite_ok
    | exact rfl
    | (simp only [ok_mk]; with_reducible apply core_ok)
    | (try dsimp only); split

theorem State.stepNow_ok (d : Int) (hs : Ok que AnyTime s) :
    Ok que AnyTime (s.stepNow d) := by
  unfold State.stepNow
  repeat' first
    | with_reducible first | assumption | intro _ | apply State.each_ok | apply State.judgeBefore_ok | apply State.passBlocks_ok | apply State.stepRegion_ok | apply State.shiftRegion_ok | apply State.ticStep_ok | apply State.pmuStep_ok | apply State.dropRefs_ok | apply State.moveTime_ok | apply State.stepLanes_ok | apply State.stepAnchor_ok | apply State.relockIdle_ok | apply State.setFld_ok | apply State.raise0_ok | apply ite_ok
    | exact rfl
    | (simp only [ok_mk]; with_reducible apply core_any_ok)
    | (try dsimp only); split

theorem State.markStep_ok (f : Frame) (hs : Ok que Q s) :
    Ok que Q (s.markStep f) := by
  unfold State.markStep
  repeat' first
    | with_reducible first | assumption | intro _ | apply State.stepEntries_ok
    | exact rfl
    | (simp only [ok_mk]; with_reducible apply core_ok)
    | (try dsimp only); split

theorem State.statusMsg_ok (hs : Ok que Q s) :
    Ok que Q (s.statusMsg) := by
  unfold State.statusMsg
  repeat' first
    | with_reducible first | assumption | intro _ | apply State.tlkSend_ok
    | exact rfl
    | (simp only [ok_mk]; with_reducible apply core_ok)
    | (try dsimp only); split

theorem State.tickMark_ok (hs : Ok que Q s) :
    Ok que Q (s.tickMark) := by
  unfold State.tickMark
  repeat' first
    | with_reducible first | assumption | intro _ | apply State.raise0_ok | apply ite_ok
    | exact rfl
    | (simp only [ok_mk]; with_reducible apply core_ok)
    | (try dsimp only); split

theorem State.syncCommit_ok (hs : Ok que Q s) :
    Ok que Q (s.syncCommit) := by
  unfold State.syncCommit
  repeat' first
    | with_reducible first | assumption | intro _ | apply State.syncAt_ok | apply foldl_ok | apply foldl_fst_ok
    | exact rfl
    | (simp only [ok_mk]; with_reducible apply core_ok)
    | (try dsimp only); split

theorem State.pruneTick_ok (hs : Ok que Q s) :
    Ok que Q (s.pruneTick) := by
  unfold State.pruneTick
  repeat' first
    | with_reducible first | assumption | intro _
    | exact rfl
    | (simp only [ok_mk]; with_reducible apply core_ok)
    | (simp only [ok_mk]; refine core_sub_ok (fun _ h => h) (fun _ h _ => ?_) hs; rcases List.mem_append.1 h with h | h; exact List.takeWhile_subset _ h; exact List.drop_subset _ _ (List.take_subset _ _ h))
    | (try dsimp only); split

theorem State.laneStep_ok (hs : Ok que Q s) :
    Ok que Q (s.laneStep) := by
  unfold State.laneStep
  repeat' first
    | with_reducible first | assumption | intro _ | apply State.each_ok | apply State.laneTick_ok | apply State.handovers_ok
    | exact rfl
    | (simp only [ok_mk]; with_reducible apply core_ok)
    | (try dsimp only); split

theorem State.beforeTick_ok (hs : Ok que Q s) :
    Ok que Q (State.beforeTick s) := by
  unfold State.beforeTick
  repeat' first
    | with_reducible first | assumption | intro _ | apply State.anchorsReached_ok | apply State.placeTrigsTo_ok | apply State.pmuArrive_ok | apply State.syncUpTo_ok | apply State.redSettle_ok
    | exact rfl
    | (simp only [ok_mk]; with_reducible apply core_ok)
    | (try dsimp only); split

theorem State.endFrameWork_ok (hs : Ok que Q s) :
    Ok que Q (State.endFrameWork s) := by
  unfold State.endFrameWork
  repeat' first
    | with_reducible first | assumption | intro _ | apply State.stageDue_ok | apply State.writeBackDue_ok | apply State.each_ok | apply State.judgeDue_ok
    | exact rfl
    | (simp only [ok_mk]; with_reducible apply core_ok)
    | (try dsimp only); split

theorem State.issueTick_ok (host : List HostRead) (f : Frame) (hs : Ok que AnyTime s) :
    Ok que AnyTime (State.issueTick host s f) := by
  unfold State.issueTick
  repeat' first
    | with_reducible first | assumption | intro _ | apply State.endFrameWork_ok | apply State.keepWas_ok | apply State.setFld_ok | apply State.glnRoles_ok | apply State.pitchTick_ok | apply State.anchorTick_ok | apply State.commitStep_ok | apply State.pitchBegin_ok | apply State.thermalTick_ok | apply State.bcastStep_ok | apply State.each_ok | apply State.slotTick_ok | apply State.syncCommit_ok | apply State.syncUpTo_ok | apply State.ticAll_ok | apply State.wokenTick_ok | apply State.laneStep_ok | apply State.markStale_ok | apply State.pmuTick_ok | apply State.queueTick_ok | apply State.stallTick_ok | apply State.noteBlocked_ok | apply State.glnRecords_ok | apply State.glnSends_ok | apply State.tickMark_ok | apply State.statusMsg_ok | apply State.pruneTick_ok
    | exact rfl
    | (simp only [ok_mk]; with_reducible apply core_any_ok)
    | (try dsimp only); split

theorem State.frameTick_ok (host : List HostRead) (hs : Ok que AnyTime s) :
    Ok que AnyTime (State.frameTick host s) := by
  unfold State.frameTick
  repeat' first
    | with_reducible first | assumption | intro _ | apply State.beforeTick_ok | apply State.stepNow_ok | apply State.markStep_ok | apply State.issueTick_ok | apply State.anchorTick_ok | apply State.pruneTick_ok | apply ite_ok
    | exact rfl
    | (simp only [ok_mk]; with_reducible apply core_any_ok)
    | (try dsimp only); split

theorem State.ticks_ok (f : State → State) (hs : Ok que AnyTime s) (hf : ∀ s, Ok que AnyTime s → Ok que AnyTime (f s)) :
    OkOut que (s.ticks f) := by
  unfold State.ticks
  repeat' first
    | with_reducible first | assumption | intro _ | apply State.done_ok | apply hf | apply ite_ok | apply next_ok | apply ite_out_ok
    | exact rfl
    | (simp only [ok_mk]; with_reducible apply core_any_ok)
    | (try dsimp only); split

theorem execFrameTick_ok (host : List HostRead) (hs : Ok que AnyTime s) :
    OkOut que (execFrameTick host s) := by
  unfold execFrameTick
  repeat' first
    | with_reducible first | assumption | intro _ | apply State.ticks_ok | apply State.frameTick_ok | apply ite_ok | apply next_ok | apply ite_out_ok
    | exact rfl
    | (simp only [ok_mk]; with_reducible apply core_any_ok)
    | (try dsimp only); split

theorem State.handoverNext_ok (g : Tu) (hs : Ok que AnyTime s) :
    Ok que AnyTime (State.handoverNext s g) := by
  unfold State.handoverNext
  repeat' first
    | with_reducible first | assumption | intro _ | apply State.at_ok | apply State.handovers_ok | apply ite_ok
    | exact rfl
    | (simp only [ok_mk]; with_reducible apply core_any_ok)
    | (try dsimp only); split

theorem State.internalTick_ok (hs : Ok que AnyTime s) :
    Ok que AnyTime (s.internalTick) := by
  unfold State.internalTick
  repeat' first
    | with_reducible first | assumption | intro _ | apply State.each_ok | apply State.handoverNext_ok | apply State.beforeTick_ok | apply State.keepWas_ok | apply State.anchorTick_ok | apply State.commitStep_ok | apply State.syncCommit_ok | apply State.syncUpTo_ok | apply State.wokenTick_ok | apply State.laneStep_ok | apply State.glnUnpitched_ok | apply State.pruneTick_ok | apply State.pitchUnpitched_ok | apply ite_ok
    | exact rfl
    | (simp only [ok_mk]; with_reducible apply core_any_ok)
    | (try dsimp only); split

theorem execInternalCommitInstant_ok (hs : Ok que AnyTime s) :
    OkOut que (execInternalCommitInstant s) := by
  unfold execInternalCommitInstant
  repeat' first
    | with_reducible first | assumption | intro _ | apply State.ticks_ok | apply State.internalTick_ok | apply ite_ok | apply next_ok | apply ite_out_ok
    | exact rfl
    | (simp only [ok_mk]; with_reducible apply core_any_ok)
    | (try dsimp only); split

theorem State.tickThat_ok (host : List HostRead) (p : State → State → Bool) (hs : Ok que AnyTime s) :
    OkOut que (State.tickThat host s p) := by
  unfold State.tickThat
  repeat' first
    | with_reducible first | assumption | intro _ | apply State.ticks_ok | apply State.frameTick_ok | apply ite_ok | apply next_ok | apply ite_out_ok
    | exact rfl
    | (simp only [ok_mk]; with_reducible apply core_any_ok)
    | (try dsimp only); split

theorem execTlkPhaseStep_ok (host : List HostRead) (hs : Ok que AnyTime s) :
    OkOut que (execTlkPhaseStep host s) := by
  unfold execTlkPhaseStep
  repeat' first
    | with_reducible first | assumption | intro _ | apply State.tickThat_ok | apply ite_ok | apply next_ok | apply ite_out_ok
    | exact rfl
    | (simp only [ok_mk]; with_reducible apply core_any_ok)
    | (try dsimp only); split

theorem execHandover_ok (host : List HostRead) (hs : Ok que AnyTime s) :
    OkOut que (execHandover host s) := by
  unfold execHandover
  repeat' first
    | with_reducible first | assumption | intro _ | apply State.tickThat_ok | apply State.handovers_ok | apply State.ticks_ok | apply State.handoverNext_ok | apply ite_ok | apply next_ok | apply ite_out_ok
    | exact rfl
    | (simp only [ok_mk]; with_reducible apply core_any_ok)
    | (try dsimp only); split

theorem execPitchApplyT1_ok (host : List HostRead) (hs : Ok que AnyTime s) :
    OkOut que (execPitchApplyT1 host s) := by
  unfold execPitchApplyT1
  repeat' first
    | with_reducible first | assumption | intro _ | apply State.tickThat_ok | apply ite_ok | apply next_ok | apply ite_out_ok
    | exact rfl
    | (simp only [ok_mk]; with_reducible apply core_any_ok)
    | (try dsimp only); split

theorem execPitchDrainTimeout_ok (host : List HostRead) (hs : Ok que AnyTime s) :
    OkOut que (execPitchDrainTimeout host s) := by
  unfold execPitchDrainTimeout
  repeat' first
    | with_reducible first | assumption | intro _ | apply State.tickThat_ok | apply State.drained_ok | apply ite_ok | apply next_ok | apply ite_out_ok
    | exact rfl
    | (simp only [ok_mk]; with_reducible apply core_any_ok)
    | (try dsimp only); split

theorem execPitchApplyT2_ok (host : List HostRead) (hs : Ok que AnyTime s) :
    OkOut que (execPitchApplyT2 host s) := by
  unfold execPitchApplyT2
  repeat' first
    | with_reducible first | assumption | intro _ | apply State.tickThat_ok | apply ite_ok | apply next_ok | apply ite_out_ok
    | exact rfl
    | (simp only [ok_mk]; with_reducible apply core_any_ok)
    | (try dsimp only); split

theorem execPartialPitchApply_ok (host : List HostRead) (hs : Ok que AnyTime s) :
    OkOut que (execPartialPitchApply host s) := by
  unfold execPartialPitchApply
  repeat' first
    | with_reducible first | assumption | intro _ | apply State.tickThat_ok | apply ite_ok | apply next_ok | apply ite_out_ok
    | exact rfl
    | (simp only [ok_mk]; with_reducible apply core_any_ok)
    | (try dsimp only); split

theorem execGlnFailDetect_ok (host : List HostRead) (hs : Ok que AnyTime s) :
    OkOut que (execGlnFailDetect host s) := by
  unfold execGlnFailDetect
  repeat' first
    | with_reducible first | assumption | intro _ | apply State.tickThat_ok | apply ite_ok | apply next_ok | apply ite_out_ok
    | exact rfl
    | (simp only [ok_mk]; with_reducible apply core_any_ok)
    | (try dsimp only); split

theorem execGlnTakeover_ok (host : List HostRead) (hs : Ok que AnyTime s) :
    OkOut que (execGlnTakeover host s) := by
  unfold execGlnTakeover
  repeat' first
    | with_reducible first | assumption | intro _ | apply State.tickThat_ok | apply ite_ok | apply next_ok | apply ite_out_ok
    | exact rfl
    | (simp only [ok_mk]; with_reducible apply core_any_ok)
    | (try dsimp only); split

theorem execShHoldSet_ok (t : Tu) (hs : Ok que AnyTime s) :
    OkOut que (execShHoldSet t s) := by
  unfold execShHoldSet
  repeat' first
    | with_reducible first | assumption | intro _ | apply State.whenHost_ok | apply State.writeHold_ok | apply ite_ok | apply next_ok | apply ite_out_ok
    | exact rfl
    | (simp only [ok_mk]; with_reducible apply core_any_ok)
    | (try dsimp only); split

theorem execShHoldClear_ok (t : Tu) (hs : Ok que AnyTime s) :
    OkOut que (execShHoldClear t s) := by
  unfold execShHoldClear
  repeat' first
    | with_reducible first | assumption | intro _ | apply State.whenHost_ok | apply State.writeHold_ok | apply ite_ok | apply next_ok | apply ite_out_ok
    | exact rfl
    | (simp only [ok_mk]; with_reducible apply core_any_ok)
    | (try dsimp only); split

theorem execSchedNone_ok (t : Tu) (slot : Fin 32) (late : Bool) (hs : Ok que AnyTime s) :
    OkOut que (execSchedNone t slot late s) := by
  unfold execSchedNone
  repeat' first
    | with_reducible first | assumption | intro _ | apply State.whenHost_ok | apply State.writeSched_ok | apply ite_ok | apply next_ok | apply ite_out_ok
    | exact rfl
    | (simp only [ok_mk]; with_reducible apply core_any_ok)
    | (try dsimp only); split

theorem execSchedArm_ok (t : Tu) (slot : Fin 32) (late : Bool) (hs : Ok que AnyTime s) :
    OkOut que (execSchedArm t slot late s) := by
  unfold execSchedArm
  repeat' first
    | with_reducible first | assumption | intro _ | apply State.whenHost_ok | apply State.writeSched_ok | apply ite_ok | apply next_ok | apply ite_out_ok
    | exact rfl
    | (simp only [ok_mk]; with_reducible apply core_any_ok)
    | (try dsimp only); split

theorem execSchedDisarm_ok (t : Tu) (slot : Fin 32) (late : Bool) (hs : Ok que AnyTime s) :
    OkOut que (execSchedDisarm t slot late s) := by
  unfold execSchedDisarm
  repeat' first
    | with_reducible first | assumption | intro _ | apply State.whenHost_ok | apply State.writeSched_ok | apply ite_ok | apply next_ok | apply ite_out_ok
    | exact rfl
    | (simp only [ok_mk]; with_reducible apply core_any_ok)
    | (try dsimp only); split

theorem execSchedSync_ok (t : Tu) (slot : Fin 32) (late : Bool) (hs : Ok que AnyTime s) :
    OkOut que (execSchedSync t slot late s) := by
  unfold execSchedSync
  repeat' first
    | with_reducible first | assumption | intro _ | apply State.whenHost_ok | apply State.writeSched_ok | apply ite_ok | apply next_ok | apply ite_out_ok
    | exact rfl
    | (simp only [ok_mk]; with_reducible apply core_any_ok)
    | (try dsimp only); split

theorem execSchedShRelease_ok (t : Tu) (slot : Fin 32) (late : Bool) (hs : Ok que AnyTime s) :
    OkOut que (execSchedShRelease t slot late s) := by
  unfold execSchedShRelease
  repeat' first
    | with_reducible first | assumption | intro _ | apply State.whenHost_ok | apply State.writeSched_ok | apply ite_ok | apply next_ok | apply ite_out_ok
    | exact rfl
    | (simp only [ok_mk]; with_reducible apply core_any_ok)
    | (try dsimp only); split

theorem execSchedAccClear_ok (t : Tu) (slot : Fin 32) (late : Bool) (hs : Ok que AnyTime s) :
    OkOut que (execSchedAccClear t slot late s) := by
  unfold execSchedAccClear
  repeat' first
    | with_reducible first | assumption | intro _ | apply State.whenHost_ok | apply State.writeSched_ok | apply ite_ok | apply next_ok | apply ite_out_ok
    | exact rfl
    | (simp only [ok_mk]; with_reducible apply core_any_ok)
    | (try dsimp only); split

theorem execSchedMark_ok (t : Tu) (slot : Fin 32) (late : Bool) (hs : Ok que AnyTime s) :
    OkOut que (execSchedMark t slot late s) := by
  unfold execSchedMark
  repeat' first
    | with_reducible first | assumption | intro _ | apply State.whenHost_ok | apply State.writeSched_ok | apply ite_ok | apply next_ok | apply ite_out_ok
    | exact rfl
    | (simp only [ok_mk]; with_reducible apply core_any_ok)
    | (try dsimp only); split

theorem execSchedReserved_ok (t : Tu) (slot : Fin 32) (late : Bool) (k : Fin 9) (hs : Ok que AnyTime s) :
    OkOut que (execSchedReserved t slot late k s) := by
  unfold execSchedReserved
  repeat' first
    | with_reducible first | assumption | intro _ | apply State.whenHost_ok | apply State.writeSched_ok | apply ite_ok | apply next_ok | apply ite_out_ok
    | exact rfl
    | (simp only [ok_mk]; with_reducible apply core_any_ok)
    | (try dsimp only); split

end Sys2Proof.Machine
end

