-- ==== Sys2Proof/Laws/KeepAccess.lean ====
section
/-! SUPPORT. What every operation of Machine/Access.lean keeps: the invariant, and the queue of waiting commands. -/

set_option linter.unusedTactic false
set_option linter.unreachableTactic false
set_option linter.unusedSimpArgs false

namespace Sys2Proof.Machine

variable {que : List Instr} {Q : Saying} {s : State}

theorem State.shWrite_ok (r : Reg) (v : Word) (hs : Ok que AnyTime s) :
    Ok que AnyTime (s.shWrite r v) := by
  unfold State.shWrite
  repeat' first
    | with_reducible first | assumption | intro _ | apply ite_ok
    | exact rfl
    | (simp only [ok_mk]; with_reducible apply core_any_ok)
    | (try dsimp only); split

theorem hardWired_of_mask {n : RegName} {a : Access} (ha : a ≠ .RO) (h : accMask n a ≠ 0#32) : hardWired n = false := by
  rcases hn : hardWired n with _ | _
  · rfl
  · exact absurd (accMask_hardWired hn a ha) h

theorem State.w1c_ok (r : Reg) (v : Word) (hs : Ok que Q s) : Ok que Q (s.w1c r v) := by
  unfold State.w1c
  dsimp only
  split
  · exact hs
  · next h =>
    refine State.setReg_ok (hardWired_of_mask (a := .W1C) (by decide) fun h0 => h ?_) _ _ hs
    rw [h0, BitVec.zero_and]; rfl

theorem State.writeTlkCtrl_ok (v : Word) (hs : Ok que AnyTime s) :
    Ok que AnyTime (s.writeTlkCtrl v) := by
  unfold State.writeTlkCtrl
  repeat' first
    | with_reducible first | assumption | intro _ | apply State.writeTlkEnable_ok | apply State.setFld_ok | apply State.writeDelayMode_ok | apply State.relockAct_ok
    | exact rfl
    | (simp only [ok_mk]; with_reducible apply core_any_ok)
    | (try dsimp only); split

theorem State.writeArmMap_ok (g : Nat) (v : Word) (hs : Ok que Q s) :
    Ok que Q (s.writeArmMap g v) := by
  unfold State.writeArmMap
  repeat' first
    | with_reducible first | assumption | intro _ | apply State.writeRW_ok
    | exact rfl
    | (simp only [ok_mk]; with_reducible apply core_ok)
    | (try dsimp only); split

theorem State.writeClkin_ok (v : Word) (hs : Ok que Q s) :
    Ok que Q (s.writeClkin v) := by
  unfold State.writeClkin
  repeat' first
    | with_reducible first | assumption | intro _ | apply State.writeRW_ok | apply State.setFld_ok | apply ite_ok
    | exact rfl
    | (simp only [ok_mk]; with_reducible apply core_ok)
    | (try dsimp only); split

theorem State.doorbell_ok (tag : Byte) (hs : Ok que Q s) :
    Ok que Q (s.doorbell tag) := by
  unfold State.doorbell
  repeat' first
    | with_reducible first | assumption | intro _ | apply State.mbRunning_ok | apply State.setFld_ok | apply ite_ok
    | exact rfl
    | (simp only [ok_mk]; with_reducible apply core_ok)
    | (try dsimp only); split

theorem State.writeThr_ok (n : Nat) (v : Word) (hs : Ok que Q s) :
    Ok que Q (s.writeThr n v) := by
  unfold State.writeThr
  repeat' first
    | with_reducible first | assumption | intro _ | apply State.setReg_ok | apply ite_ok
    | exact rfl
    | (simp only [ok_mk]; with_reducible apply core_ok)
    | (try dsimp only); split

theorem State.writeSpllCfg_ok (e : Nat) (v : Word) (hs : Ok que Q s) :
    Ok que Q (s.writeSpllCfg e v) := by
  unfold State.writeSpllCfg
  repeat' first
    | with_reducible first | assumption | intro _ | apply State.rateHold_ok | apply State.writeRW_ok | apply ite_ok
    | exact rfl
    | (simp only [ok_mk]; with_reducible apply core_ok)
    | (try dsimp only); split

theorem State.writeRingSize_ok (q : Nat) (v : Word) (hs : Ok que Q s) :
    Ok que Q (s.writeRingSize q v) := by
  unfold State.writeRingSize
  repeat' first
    | with_reducible first | assumption | intro _ | apply State.writeRW_ok | apply ite_ok
    | exact rfl
    | (simp only [ok_mk]; with_reducible apply core_ok)
    | (try dsimp only); split

theorem State.writeNow_ok (r : Reg) (v : Word) (hs : Ok que AnyTime s) :
    Ok que AnyTime (s.writeNow r v) := by
  unfold State.writeNow
  repeat' first
    | with_reducible first | assumption | intro _ | apply State.writePwrReq_ok | apply State.writeHold_ok | apply State.issueSync_ok | apply State.bistStart_ok | apply State.writeSched_ok | apply State.writeDiag_ok | apply State.writeRW_ok | apply State.prefChanged_ok | apply State.writeClkin_ok | apply State.writeMuxSel_ok | apply State.gateRequest_ok | apply State.commitLockCfg_ok | apply State.apllRetune_ok | apply State.apllDiv_ok | apply State.writeSpllCfg_ok | apply State.writePhase_ok | apply State.writeAuxCfg_ok | apply State.writeAuxDelay_ok | apply State.writeTlkCtrl_ok | apply State.writeDelayCfg_ok | apply State.writeArmMap_ok | apply State.writeGlnCfg_ok | apply State.writeEvtEnable_ok | apply State.vecAck_ok | apply State.abortQueue_ok | apply State.writeRingBase_ok | apply State.writeRingSize_ok | apply State.postDesc_ok | apply State.noteBlocked_ok | apply State.doorbell_ok | apply State.mbAck_ok | apply State.writeThr_ok | apply State.writeForceCfg_ok | apply State.writeForce_ok | apply State.writeMcCfg_ok | apply State.inject_ok | apply State.requestCal_ok | apply State.writeRasCtrl_ok | apply State.writeTiming_ok | apply State.dsiSend_ok | apply State.bufRelease_ok | apply State.writeRasPending_ok | apply State.writeTerm_ok | apply State.writeVtt_ok | apply State.writeCalCtrl_ok | apply State.force_ok | apply State.release_ok | apply State.wmark_ok | apply State.eccNow_ok | apply ite_ok
    | exact rfl
    | (simp only [ok_mk]; with_reducible apply core_any_ok)
    | (try dsimp only); split

theorem State.writeReg_ok (r : Reg) (v : Word) (hs : Ok que AnyTime s) :
    Ok que AnyTime (s.writeReg r v) := by
  unfold State.writeReg
  repeat' first
    | with_reducible first | assumption | intro _ | apply State.writeEvtStatus_ok | apply State.w1c_ok | apply State.writeNow_ok | apply State.shWrite_ok | apply ite_ok
    | exact rfl
    | (simp only [ok_mk]; with_reducible apply core_any_ok)
    | (try dsimp only); split

theorem State.bar0Write_ok (a : Nat) (v : Word) (hs : Ok que AnyTime s) :
    Ok que AnyTime (s.bar0Write a v) := by
  unfold State.bar0Write
  repeat' first
    | with_reducible first | assumption | intro _ | apply State.writeReg_ok | apply State.putMaskWord_ok | apply State.writeLut_ok | apply State.writeMsix_ok | apply ite_ok
    | exact rfl
    | (simp only [ok_mk]; with_reducible apply core_any_ok)
    | (try dsimp only); split

theorem State.afterRead_ok (r : Reg) (hs : Ok que AnyTime s) : Ok que AnyTime (s.afterRead r) := by
  have h1 : ∀ s : State, Ok que AnyTime s → ∀ load : State → RegName → State,
      (∀ s n, Ok que AnyTime s → Ok que AnyTime (load s n)) →
      Ok que AnyTime (if accMask r.n .RC = 0 then r.n.latches.foldl load s
        else (r.n.latches.foldl load s).setReg r.n r.i ((r.n.latches.foldl load s).reg r.n r.i &&& ~~~accMask r.n .RC)) := by
    intro s hs load hl
    split
    · exact foldl_ok hl _ hs
    · next h => exact State.setReg_ok (hardWired_of_mask (a := .RC) (by decide) h) _ _ (foldl_ok hl _ hs)
  unfold State.afterRead
  refine ite_ok hs (ite_ok (State.setReg_ok rfl _ _ ?_) ?_) <;> exact h1 s hs _ fun _ _ h => Ok.of h.1 h.2.1 trivial

theorem State.readReg_ok (r : Reg) (hs : Ok que AnyTime s) :
    Ok que AnyTime (s.readReg r) := by
  unfold State.readReg
  repeat' first
    | with_reducible first | assumption | intro _ | apply State.injPop_ok | apply State.afterRead_ok | apply State.emit_ok | apply ite_ok
    | exact rfl
    | (simp only [ok_mk]; with_reducible apply core_any_ok)
    | (try dsimp only); split

theorem State.bar0Read_ok (a : Nat) (hs : Ok que AnyTime s) :
    Ok que AnyTime (s.bar0Read a) := by
  unfold State.bar0Read
  repeat' first
    | with_reducible first | assumption | intro _ | apply State.readReg_ok | apply State.emit_ok
    | exact rfl
    | (simp only [ok_mk]; with_reducible apply core_any_ok)
    | (try dsimp only); split

theorem execShWrite_ok (t : Tu) (a : Bar0) (v : Word) (hs : Ok que AnyTime s) :
    OkOut que (execShWrite t a v s) := by
  unfold execShWrite
  repeat' first
    | with_reducible first | assumption | intro _ | apply State.whenAccess_ok | apply State.bar0Write_ok | apply ite_ok | apply next_ok | apply ite_out_ok
    | exact rfl
    | (simp only [ok_mk]; with_reducible apply core_any_ok)
    | (try dsimp only); split

theorem execRegisterWrite_ok (t : Tu) (a : Bar0) (be : BitVec 4) (v : Word) (hs : Ok que AnyTime s) :
    OkOut que (execRegisterWrite t a be v s) := by
  unfold execRegisterWrite
  repeat' first
    | with_reducible first | assumption | intro _ | apply State.whenAccess_ok | apply State.bar0Write_ok | apply ite_ok | apply next_ok | apply ite_out_ok
    | exact rfl
    | (simp only [ok_mk]; with_reducible apply core_any_ok)
    | (try dsimp only); split

theorem execW1cClear_ok (t : Tu) (a : Bar0) (v : Word) (hs : Ok que AnyTime s) :
    OkOut que (execW1cClear t a v s) := by
  unfold execW1cClear
  repeat' first
    | with_reducible first | assumption | intro _ | apply State.whenAccess_ok | apply State.bar0Write_ok | apply ite_ok | apply next_ok | apply ite_out_ok
    | exact rfl
    | (simp only [ok_mk]; with_reducible apply core_any_ok)
    | (try dsimp only); split

theorem execReadClear_ok (t : Tu) (a : Bar0) (hs : Ok que AnyTime s) :
    OkOut que (execReadClear t a s) := by
  unfold execReadClear
  repeat' first
    | with_reducible first | assumption | intro _ | apply State.whenAccess_ok | apply State.bar0Read_ok | apply ite_ok | apply next_ok | apply ite_out_ok
    | exact rfl
    | (simp only [ok_mk]; with_reducible apply core_any_ok)
    | (try dsimp only); split

theorem execLatchingRead_ok (t : Tu) (a : Bar0) (wide : Bool) (hs : Ok que AnyTime s) :
    OkOut que (execLatchingRead t a wide s) := by
  unfold execLatchingRead
  repeat' first
    | with_reducible first | assumption | intro _ | apply State.whenAccess_ok | apply State.bar0Read_ok | apply ite_ok | apply next_ok | apply ite_out_ok
    | exact rfl
    | (simp only [ok_mk]; with_reducible apply core_any_ok)
    | (try dsimp only); split

end Sys2Proof.Machine
end

