-- ==== Sys2Proof/Laws/Raise.lean ====
section
/-! SUPPORT. Everything that raising, delivering and logging an event can do, said once: it touches the registers of the
events, the sources it names, and the state of the log, of the vectors and of the trigger outputs. -/

namespace Sys2Proof.Machine

/-- From `s` to `t` nothing has changed but what raising the sources `ns` changes. -/
structure Raises (s t : State) (ns : List Nat) : Prop where
  reg : ∀ n i, eventReg n = false → t.reg n i = s.reg n i
  src : ∀ k, k ∉ ns → sameSource s t k
  rest : ∃ regs sram nextSeq logged deferred trigOut raises pba basecamp out free,
    t = { s with
      regs := regs, trigOut := trigOut, out := out, free := free
      mgt := { s.mgt with sram := sram, nextSeq := nextSeq, logged := logged, deferred := deferred }
      evt := { s.evt with raises := raises, pba := pba, basecamp := basecamp } }

variable {s t u : State} {ns ms : List Nat}

theorem sameSource.refl (s : State) (k : Nat) : sameSource s s k := ⟨rfl, rfl, rfl⟩

theorem sameSource.trans {k : Nat} (h : sameSource s t k) (g : sameSource t u k) : sameSource s u k :=
  ⟨g.1.trans h.1, g.2.1.trans h.2.1, g.2.2.trans h.2.2⟩

theorem Raises.refl (s : State) (ns : List Nat) : Raises s s ns :=
  ⟨fun _ _ _ => rfl, fun k _ => sameSource.refl s k, _, _, _, _, _, _, _, _, _, _, _, rfl⟩

theorem Raises.trans (h : Raises s t ns) (g : Raises t u ns) : Raises s u ns := by
  refine ⟨fun n i hn => (g.reg n i hn).trans (h.reg n i hn), fun k hk => (h.src k hk).trans (g.src k hk), ?_⟩
  obtain ⟨_, _, _, _, _, _, _, _, _, _, _, rfl⟩ := h.rest
  obtain ⟨_, _, _, _, _, _, _, _, _, _, _, rfl⟩ := g.rest
  exact ⟨_, _, _, _, _, _, _, _, _, _, _, rfl⟩

theorem Raises.mono (h : Raises s t ns) (hs : ∀ k ∈ ns, k ∈ ms) : Raises s t ms :=
  ⟨h.reg, fun k hk => h.src k fun hn => hk (hs k hn), h.rest⟩

theorem Raises.ite {c : Prop} [Decidable c] {a b : State} (ha : Raises s a ns) (hb : Raises s b ns) :
    Raises s (if c then a else b) ns := by split <;> assumption

/-- A change of an event register that holds nothing of another source. -/
theorem Raises.setReg {n : RegName} (i : Nat) (v : Word) (he : eventReg n = true)
    (h : ∀ k, k ∉ ns → sameSource s (s.setReg n i v) k) : Raises s (s.setReg n i v) ns := by
  refine ⟨fun n' i' hn => s.reg_setReg_other n i v fun hh => ?_, h, _, _, _, _, _, _, _, _, _, _, _, rfl⟩
  have : n' = n := hh.1
  rw [this, he] at hn; exact Bool.noConfusion hn

theorem sameSource.setReg_other {n : RegName} (i : Nat) (v : Word) (k : Nat) (h1 : n ≠ .EVT_STATUS)
    (h2 : n ≠ .EVT_DATA) (h3 : n ≠ .EVT_CNT) : sameSource s (s.setReg n i v) k := by
  refine ⟨?_, s.reg_setReg_other _ _ _ fun h => h2 h.1.symm,
    s.reg_setReg_other _ _ _ fun h => h3 h.1.symm⟩
  unfold State.evtStatus
  rw [s.reg_setReg_other _ _ _ fun h => h1 h.1.symm]

theorem Raises.setReg_other {n : RegName} (i : Nat) (v : Word) (he : eventReg n = true) (h1 : n ≠ .EVT_STATUS)
    (h2 : n ≠ .EVT_DATA) (h3 : n ≠ .EVT_CNT) : Raises s (s.setReg n i v) ns :=
  Raises.setReg i v he fun k _ => sameSource.setReg_other i v k h1 h2 h3

theorem Raises.setStatus (n : Nat) (b : Bool) : Raises s (s.setStatus n b) [n] := by
  refine Raises.setReg _ _ rfl fun k hk => ⟨?_, s.reg_setReg_other _ _ _ (by simp), s.reg_setReg_other _ _ _ (by simp)⟩
  rw [List.mem_singleton] at hk
  unfold State.evtStatus
  rw [State.reg_setReg]
  split
  · next h =>
    have h0 : k / 32 = n / 32 := h.2
    rw [putBits_getLsbD, h0, if_neg (by omega), decide_eq_true (Nat.mod_lt _ (by decide)), Bool.true_and]
  · rfl

theorem Raises.setData (n : Nat) (v : Word) : Raises s (s.setReg .EVT_DATA n v) [n] := by
  refine Raises.setReg _ _ rfl fun k hk => ⟨?_, s.reg_setReg_other _ _ _ ?_, s.reg_setReg_other _ _ _ (by simp)⟩
  · unfold State.evtStatus
    rw [s.reg_setReg_other _ _ _ (by simp)]
  · intro h; exact hk (List.mem_singleton.2 h.2)

theorem Raises.setCnt (n : Nat) (v : Word) : Raises s (s.setReg .EVT_CNT n v) [n] := by
  refine Raises.setReg _ _ rfl fun k hk => ⟨?_, s.reg_setReg_other _ _ _ (by simp), s.reg_setReg_other _ _ _ ?_⟩
  · unfold State.evtStatus
    rw [s.reg_setReg_other _ _ _ (by simp)]
  · intro h; exact hk (List.mem_singleton.2 h.2)

/-! ### The log -/

theorem State.logAdd_raises (n k d : Nat) (v : Word) : Raises s (s.logAdd n k d v) ns := by
  unfold State.logAdd
  refine Raises.ite (Raises.trans (t := { s with mgt := _ }) ?_ (Raises.setReg_other _ _ rfl (by decide) (by decide)
    (by decide))) (Raises.setReg_other _ _ rfl (by decide) (by decide) (by decide))
  exact ⟨fun _ _ _ => rfl, fun _ _ => ⟨rfl, rfl, rfl⟩, _, _, _, _, _, _, _, _, _, _, _, rfl⟩

theorem State.logRaise_raises (n : Nat) (v : Word) : Raises s (s.logRaise n v) ns := by
  unfold State.logRaise
  dsimp only
  have h : ∀ l, Raises s { s with mgt := { s.mgt with logged := l } } ns := fun l =>
    ⟨fun _ _ _ => rfl, fun _ _ => ⟨rfl, rfl, rfl⟩, _, _, _, _, _, _, _, _, _, _, _, rfl⟩
  refine Raises.ite (Raises.ite ((h _).trans (State.logAdd_raises _ _ _ _)) (h _)) (Raises.ite (Raises.refl _ _) ?_)
  exact ⟨fun _ _ _ => rfl, fun _ _ => ⟨rfl, rfl, rfl⟩, _, _, _, _, _, _, _, _, _, _, _, rfl⟩

theorem State.logNote_raises (k d : Nat) (v : Word) : Raises s (s.logNote k d v) ns := by
  unfold State.logNote
  exact Raises.ite (State.logAdd_raises _ _ _ _) (Raises.refl _ _)

/-! ### Vectors and pulses -/

theorem State.setArmed_raises (v : Nat) (b : Bool) : Raises s (s.setArmed v b) ns := by
  unfold State.setArmed
  exact Raises.ite (Raises.setReg_other _ _ rfl (by decide) (by decide) (by decide))
    (Raises.setReg_other _ _ rfl (by decide) (by decide) (by decide))

theorem State.setPba_raises (v : Nat) (b : Bool) : Raises s (s.setPba v b) ns :=
  ⟨fun _ _ _ => rfl, fun _ _ => ⟨rfl, rfl, rfl⟩, _, _, _, _, _, _, _, _, _, _, _, rfl⟩

theorem State.emit_raises (o : Out) : Raises s (s.emit o) ns :=
  ⟨fun _ _ _ => rfl, fun _ _ => ⟨rfl, rfl, rfl⟩, _, _, _, _, _, _, _, _, _, _, _, rfl⟩

theorem State.used_raises : Raises s s.used ns :=
  ⟨fun _ _ _ => rfl, fun _ _ => ⟨rfl, rfl, rfl⟩, _, _, _, _, _, _, _, _, _, _, _, rfl⟩

theorem State.signal_raises (v : Nat) : Raises s (s.signal v) ns := by
  unfold State.signal
  exact Raises.ite (Raises.ite (State.setPba_raises _ _) (((State.emit_raises _).trans (State.setPba_raises _ _)).trans
    (State.setArmed_raises _ _))) (Raises.refl _ _)

theorem State.tlkSend_raises (m : BitVec 64) : Raises s (s.tlkSend m) ns := by
  unfold State.tlkSend
  exact Raises.ite (State.emit_raises _) (Raises.refl _ _)

theorem State.addPulse_raises (i : Nat) (edge : Tu) : Raises s (s.addPulse i edge) ns := by
  unfold State.addPulse
  dsimp only
  refine Raises.ite ?_ (Raises.setReg_other _ _ rfl (by decide) (by decide) (by decide))
  exact ⟨fun _ _ _ => rfl, fun _ _ => ⟨rfl, rfl, rfl⟩, _, _, _, _, _, _, _, _, _, _, _, rfl⟩

/-! ### Raising -/

theorem State.deliver_raises (n : Nat) : Raises s (s.deliver n) [n] := by
  unfold State.deliver
  dsimp only
  refine Raises.ite (State.signal_raises _) (Raises.ite (Raises.ite ?_ (Raises.ite (Raises.refl _ _) ?_)) (Raises.ite
    (Raises.ite ?_ (Raises.refl _ _)) (State.tlkSend_raises _)))
  · exact ((Raises.ite (Raises.refl _ _) (State.logRaise_raises _ _)).trans (Raises.setStatus n false)).trans
      (Raises.setData n 0)
  · exact ⟨fun _ _ _ => rfl, fun _ _ => ⟨rfl, rfl, rfl⟩, _, _, _, _, _, _, _, _, _, _, _, rfl⟩
  · exact State.used_raises.trans (State.addPulse_raises _ _)

/-- What a raise can do. -/
theorem State.raise_raises (n causes info : Nat) : Raises s (s.raise n causes info) [n] := by
  unfold State.raise
  dsimp only
  refine Raises.ite (Raises.refl _ _) ?_
  have h1 := (Raises.setStatus (s := s) n true).trans
    (Raises.setData n (putBits ((s.setStatus n true).reg .EVT_DATA n) 0 16 (s.fld Fld.EVT_DATA_CAUSES n ||| (causes % 2 ^ 16))))
  have h2 := fun t => Raises.setData (s := t) n
  have h3 := fun t => Raises.setCnt (s := t) n
  have h4 : ∀ (t : State) (r : Tab RaiseMark), Raises t { t with evt := { t.evt with raises := r } } [n] := fun t r =>
    ⟨fun _ _ _ => rfl, fun _ _ => ⟨rfl, rfl, rfl⟩, _, _, _, _, _, _, _, _, _, _, _, rfl⟩
  have h5 : ∀ (t : State) (v : Word), Raises t (if loggedSource n then t.logRaise n v else t) [n] := fun t v =>
    Raises.ite (State.logRaise_raises _ _) (Raises.refl _ _)
  have h6 : ∀ (t : State) (c : Bool), Raises t (if c then t.deliver n else t) [n] := fun t c =>
    Raises.ite (State.deliver_raises _) (Raises.refl _ _)
  exact ((((h1.trans (Raises.ite (h2 _ _) (Raises.refl _ _))).trans (h3 _ _)).trans (h4 _ _)).trans (h5 _ _)).trans
    (h6 _ _)

theorem State.raise0_raises (n : Nat) : Raises s (s.raise0 n) [n] := State.raise_raises n 1 0

theorem State.logNoteDrop_raises (s0 : State) : Raises s (s0.logNoteDrop s) [466] := by
  unfold State.logNoteDrop
  exact Raises.ite (State.raise0_raises _) (Raises.refl _ _)

theorem Raises.foldl {α : Type} {f : State → α → State} (hf : ∀ s x, Raises s (f s x) ns) (l : List α) :
    Raises s (l.foldl f s) ns := by
  induction l generalizing s with
  | nil => exact Raises.refl _ _
  | cons x l ih => exact (hf s x).trans ih

theorem State.mergeNote_raises (n : Nat) (s0 : State) : Raises s (State.mergeNote n s0 s) [260, 261, 262, 263] := by
  induction n generalizing s0 s with
  | zero => exact Raises.refl _ _
  | succ n ih =>
    refine Raises.trans ?_ (ih s)
    unfold State.each
    suffices h : ∀ (l : List Nat) (a : State), (∀ i ∈ l, i < 4) → Raises a (l.foldl (fun x i =>
        if s0.fld Fld.HUB_TRIG_OUT_MERGED_COUNT i = 0 ∧ s.fld Fld.HUB_TRIG_OUT_MERGED_COUNT i ≠ 0 then x.raise0 (260 + i)
        else x) a) [260, 261, 262, 263] from h _ _ fun i hi => List.mem_range.1 hi
    intro l
    induction l with
    | nil => exact fun a _ => Raises.refl _ _
    | cons i l ihl =>
      intro a h
      have hi := h i (List.mem_cons_self ..)
      refine Raises.trans (Raises.ite ?_ (Raises.refl _ _)) (ihl _ fun j hj => h j (List.mem_cons_of_mem _ hj))
      refine (State.raise0_raises (260 + i)).mono fun k hk => ?_
      rw [List.mem_singleton.1 hk]
      simp only [List.mem_cons, List.not_mem_nil, or_false]
      omega

/-- What a command's end can do beyond the command: it raises sources that follow a raise. -/
theorem State.notes_raises (s0 : State) : Raises s (s0.logNoteDrop (State.mergeNote 4 s0 s)) [260, 261, 262, 263, 466] :=
  ((State.mergeNote_raises 4 s0).mono (by decide)).trans ((State.logNoteDrop_raises s0).mono (by decide))

/-- No note is due where the merge counts are as before. -/
theorem State.mergeNote_same (n : Nat) {s0 s : State}
    (h : ∀ i, s.reg .HUB_TRIG_OUT_MERGED i = s0.reg .HUB_TRIG_OUT_MERGED i) : State.mergeNote n s0 s = s := by
  have hf : ∀ (s0 s : State), (∀ i, s.reg .HUB_TRIG_OUT_MERGED i = s0.reg .HUB_TRIG_OUT_MERGED i) →
      ∀ i, s.fld Fld.HUB_TRIG_OUT_MERGED_COUNT i = s0.fld Fld.HUB_TRIG_OUT_MERGED_COUNT i := fun s0 s h i => by
    unfold State.fld
    rw [show Fld.HUB_TRIG_OUT_MERGED_COUNT.reg = RegName.HUB_TRIG_OUT_MERGED from rfl, h i]
  have he : ∀ (s0 s a : State), (∀ i, s.reg .HUB_TRIG_OUT_MERGED i = s0.reg .HUB_TRIG_OUT_MERGED i) → ∀ l : List Nat,
      l.foldl (fun x i => if s0.fld Fld.HUB_TRIG_OUT_MERGED_COUNT i = 0 ∧ s.fld Fld.HUB_TRIG_OUT_MERGED_COUNT i ≠ 0
        then x.raise0 (260 + i) else x) a = a := fun s0 s a h l => by
    induction l generalizing a with
    | nil => rfl
    | cons i l ih =>
      rw [List.foldl_cons, if_neg fun hh => hh.2 ((hf s0 s h i).trans hh.1)]
      exact ih a
  induction n generalizing s0 s with
  | zero => rfl
  | succ n ih =>
    show State.mergeNote n s (s.each 4 _) = s
    rw [show s.each 4 _ = s from he s0 s s h _]
    exact ih fun _ => rfl

/-- The outcome of a command that leaves the merge counts and the count of dropped log entries as they are. -/
theorem State.done_quiet {s0 s : State} (hm : ∀ i, s.reg .HUB_TRIG_OUT_MERGED i = s0.reg .HUB_TRIG_OUT_MERGED i)
    (hl : s.reg .MGT_LOG_DROP 0 = s0.reg .MGT_LOG_DROP 0) : s0.done s = .next s := by
  unfold State.done
  rw [State.mergeNote_same 4 hm]
  unfold State.logNoteDrop
  rw [if_neg]
  intro h
  refine h.2 (Eq.trans ?_ h.1)
  unfold State.fld
  rw [show Fld.MGT_LOG_DROP_COUNT.reg = RegName.MGT_LOG_DROP from rfl, hl]

/-! ### What a raise leaves alone -/

theorem Raises.latch (h : Raises s t ns) : t.latch = s.latch := by
  obtain ⟨_, _, _, _, _, _, _, _, _, _, _, rfl⟩ := h.rest; rfl
theorem Raises.time (h : Raises s t ns) : t.time = s.time := by
  obtain ⟨_, _, _, _, _, _, _, _, _, _, _, rfl⟩ := h.rest; rfl
theorem Raises.frame (h : Raises s t ns) : t.frame = s.frame := by
  obtain ⟨_, _, _, _, _, _, _, _, _, _, _, rfl⟩ := h.rest; rfl
theorem Raises.mem (h : Raises s t ns) : t.mem = s.mem := by
  obtain ⟨_, _, _, _, _, _, _, _, _, _, _, rfl⟩ := h.rest; rfl
theorem Raises.masks (h : Raises s t ns) : t.masks = s.masks := by
  obtain ⟨_, _, _, _, _, _, _, _, _, _, _, rfl⟩ := h.rest; rfl
theorem Raises.bins (h : Raises s t ns) : t.bins = s.bins := by
  obtain ⟨_, _, _, _, _, _, _, _, _, _, _, rfl⟩ := h.rest; rfl
theorem Raises.dir (h : Raises s t ns) : t.dir = s.dir := by
  obtain ⟨_, _, _, _, _, _, _, _, _, _, _, rfl⟩ := h.rest; rfl
theorem Raises.dirSeq (h : Raises s t ns) : t.dirSeq = s.dirSeq := by
  obtain ⟨_, _, _, _, _, _, _, _, _, _, _, rfl⟩ := h.rest; rfl
theorem Raises.tick (h : Raises s t ns) : t.tick = s.tick := by
  obtain ⟨_, _, _, _, _, _, _, _, _, _, _, rfl⟩ := h.rest; rfl
theorem Raises.pitch (h : Raises s t ns) : t.pitch = s.pitch := by
  obtain ⟨_, _, _, _, _, _, _, _, _, _, _, rfl⟩ := h.rest; rfl
theorem Raises.clk (h : Raises s t ns) : t.clk = s.clk := by
  obtain ⟨_, _, _, _, _, _, _, _, _, _, _, rfl⟩ := h.rest; rfl
theorem Raises.tlk (h : Raises s t ns) : t.tlk = s.tlk := by
  obtain ⟨_, _, _, _, _, _, _, _, _, _, _, rfl⟩ := h.rest; rfl
theorem Raises.spll (h : Raises s t ns) : t.spll = s.spll := by
  obtain ⟨_, _, _, _, _, _, _, _, _, _, _, rfl⟩ := h.rest; rfl
theorem Raises.pll (h : Raises s t ns) : t.pll = s.pll := by
  obtain ⟨_, _, _, _, _, _, _, _, _, _, _, rfl⟩ := h.rest; rfl
theorem Raises.afe (h : Raises s t ns) : t.afe = s.afe := by
  obtain ⟨_, _, _, _, _, _, _, _, _, _, _, rfl⟩ := h.rest; rfl
theorem Raises.lanes (h : Raises s t ns) : t.lanes = s.lanes := by
  obtain ⟨_, _, _, _, _, _, _, _, _, _, _, rfl⟩ := h.rest; rfl
theorem Raises.comps (h : Raises s t ns) : t.comps = s.comps := by
  obtain ⟨_, _, _, _, _, _, _, _, _, _, _, rfl⟩ := h.rest; rfl
theorem Raises.gens (h : Raises s t ns) : t.gens = s.gens := by
  obtain ⟨_, _, _, _, _, _, _, _, _, _, _, rfl⟩ := h.rest; rfl
theorem Raises.trigIn (h : Raises s t ns) : t.trigIn = s.trigIn := by
  obtain ⟨_, _, _, _, _, _, _, _, _, _, _, rfl⟩ := h.rest; rfl
theorem Raises.regions (h : Raises s t ns) : t.regions = s.regions := by
  obtain ⟨_, _, _, _, _, _, _, _, _, _, _, rfl⟩ := h.rest; rfl
theorem Raises.red (h : Raises s t ns) : t.red = s.red := by
  obtain ⟨_, _, _, _, _, _, _, _, _, _, _, rfl⟩ := h.rest; rfl
theorem Raises.sync (h : Raises s t ns) : t.sync = s.sync := by
  obtain ⟨_, _, _, _, _, _, _, _, _, _, _, rfl⟩ := h.rest; rfl
theorem Raises.planes (h : Raises s t ns) : t.planes = s.planes := by
  obtain ⟨_, _, _, _, _, _, _, _, _, _, _, rfl⟩ := h.rest; rfl
theorem Raises.maskFire (h : Raises s t ns) : t.maskFire = s.maskFire := by
  obtain ⟨_, _, _, _, _, _, _, _, _, _, _, rfl⟩ := h.rest; rfl
theorem Raises.xtrigCycle (h : Raises s t ns) : t.xtrigCycle = s.xtrigCycle := by
  obtain ⟨_, _, _, _, _, _, _, _, _, _, _, rfl⟩ := h.rest; rfl
theorem Raises.snaps (h : Raises s t ns) : t.snaps = s.snaps := by
  obtain ⟨_, _, _, _, _, _, _, _, _, _, _, rfl⟩ := h.rest; rfl
theorem Raises.tic (h : Raises s t ns) : t.tic = s.tic := by
  obtain ⟨_, _, _, _, _, _, _, _, _, _, _, rfl⟩ := h.rest; rfl
theorem Raises.pmu (h : Raises s t ns) : t.pmu = s.pmu := by
  obtain ⟨_, _, _, _, _, _, _, _, _, _, _, rfl⟩ := h.rest; rfl
theorem Raises.ras (h : Raises s t ns) : t.ras = s.ras := by
  obtain ⟨_, _, _, _, _, _, _, _, _, _, _, rfl⟩ := h.rest; rfl
theorem Raises.dma (h : Raises s t ns) : t.dma = s.dma := by
  obtain ⟨_, _, _, _, _, _, _, _, _, _, _, rfl⟩ := h.rest; rfl
theorem Raises.gln (h : Raises s t ns) : t.gln = s.gln := by
  obtain ⟨_, _, _, _, _, _, _, _, _, _, _, rfl⟩ := h.rest; rfl
theorem Raises.pwr (h : Raises s t ns) : t.pwr = s.pwr := by
  obtain ⟨_, _, _, _, _, _, _, _, _, _, _, rfl⟩ := h.rest; rfl
theorem Raises.dia (h : Raises s t ns) : t.dia = s.dia := by
  obtain ⟨_, _, _, _, _, _, _, _, _, _, _, rfl⟩ := h.rest; rfl
theorem Raises.pending (h : Raises s t ns) : t.pending = s.pending := by
  obtain ⟨_, _, _, _, _, _, _, _, _, _, _, rfl⟩ := h.rest; rfl
theorem Raises.mgt_run (h : Raises s t ns) : t.mgt.run = s.mgt.run := by
  obtain ⟨_, _, _, _, _, _, _, _, _, _, _, rfl⟩ := h.rest; rfl
theorem Raises.mgt_halted (h : Raises s t ns) : t.mgt.halted = s.mgt.halted := by
  obtain ⟨_, _, _, _, _, _, _, _, _, _, _, rfl⟩ := h.rest; rfl
theorem Raises.mgt_activate (h : Raises s t ns) : t.mgt.activate = s.mgt.activate := by
  obtain ⟨_, _, _, _, _, _, _, _, _, _, _, rfl⟩ := h.rest; rfl
theorem Raises.mgt_box (h : Raises s t ns) : t.mgt.box = s.mgt.box := by
  obtain ⟨_, _, _, _, _, _, _, _, _, _, _, rfl⟩ := h.rest; rfl
theorem Raises.mgt_smb (h : Raises s t ns) : t.mgt.smb = s.mgt.smb := by
  obtain ⟨_, _, _, _, _, _, _, _, _, _, _, rfl⟩ := h.rest; rfl
theorem Raises.mgt_flash (h : Raises s t ns) : t.mgt.flash = s.mgt.flash := by
  obtain ⟨_, _, _, _, _, _, _, _, _, _, _, rfl⟩ := h.rest; rfl
theorem Raises.mgt_fuses (h : Raises s t ns) : t.mgt.fuses = s.mgt.fuses := by
  obtain ⟨_, _, _, _, _, _, _, _, _, _, _, rfl⟩ := h.rest; rfl
theorem Raises.mgt_nonce (h : Raises s t ns) : t.mgt.nonce = s.mgt.nonce := by
  obtain ⟨_, _, _, _, _, _, _, _, _, _, _, rfl⟩ := h.rest; rfl
theorem Raises.mgt_trialFrom (h : Raises s t ns) : t.mgt.trialFrom = s.mgt.trialFrom := by
  obtain ⟨_, _, _, _, _, _, _, _, _, _, _, rfl⟩ := h.rest; rfl
theorem Raises.mgt_trialBad (h : Raises s t ns) : t.mgt.trialBad = s.mgt.trialBad := by
  obtain ⟨_, _, _, _, _, _, _, _, _, _, _, rfl⟩ := h.rest; rfl
theorem Raises.mgt_commits (h : Raises s t ns) : t.mgt.commits = s.mgt.commits := by
  obtain ⟨_, _, _, _, _, _, _, _, _, _, _, rfl⟩ := h.rest; rfl
theorem Raises.evt_msix (h : Raises s t ns) : t.evt.msix = s.evt.msix := by
  obtain ⟨_, _, _, _, _, _, _, _, _, _, _, rfl⟩ := h.rest; rfl
theorem Raises.evt_funcMask (h : Raises s t ns) : t.evt.funcMask = s.evt.funcMask := by
  obtain ⟨_, _, _, _, _, _, _, _, _, _, _, rfl⟩ := h.rest; rfl
theorem Raises.fld (h : Raises s t ns) (f : Fld) (i : Nat) (hf : eventReg f.reg = false) : t.fld f i = s.fld f i := by
  unfold State.fld; rw [h.reg _ _ hf]

/-! ### raise -/

@[simp] theorem State.raise_latch (s : State) (a b c : Nat) : (s.raise a b c).latch = s.latch := Raises.latch (State.raise_raises (s := s) a b c)
@[simp] theorem State.raise_time (s : State) (a b c : Nat) : (s.raise a b c).time = s.time := Raises.time (State.raise_raises (s := s) a b c)
@[simp] theorem State.raise_frame (s : State) (a b c : Nat) : (s.raise a b c).frame = s.frame := Raises.frame (State.raise_raises (s := s) a b c)
@[simp] theorem State.raise_mem (s : State) (a b c : Nat) : (s.raise a b c).mem = s.mem := Raises.mem (State.raise_raises (s := s) a b c)
@[simp] theorem State.raise_masks (s : State) (a b c : Nat) : (s.raise a b c).masks = s.masks := Raises.masks (State.raise_raises (s := s) a b c)
@[simp] theorem State.raise_bins (s : State) (a b c : Nat) : (s.raise a b c).bins = s.bins := Raises.bins (State.raise_raises (s := s) a b c)
@[simp] theorem State.raise_dir (s : State) (a b c : Nat) : (s.raise a b c).dir = s.dir := Raises.dir (State.raise_raises (s := s) a b c)
@[simp] theorem State.raise_dirSeq (s : State) (a b c : Nat) : (s.raise a b c).dirSeq = s.dirSeq := Raises.dirSeq (State.raise_raises (s := s) a b c)
@[simp] theorem State.raise_tick (s : State) (a b c : Nat) : (s.raise a b c).tick = s.tick := Raises.tick (State.raise_raises (s := s) a b c)
@[simp] theorem State.raise_pitch (s : State) (a b c : Nat) : (s.raise a b c).pitch = s.pitch := Raises.pitch (State.raise_raises (s := s) a b c)
@[simp] theorem State.raise_clk (s : State) (a b c : Nat) : (s.raise a b c).clk = s.clk := Raises.clk (State.raise_raises (s := s) a b c)
@[simp] theorem State.raise_tlk (s : State) (a b c : Nat) : (s.raise a b c).tlk = s.tlk := Raises.tlk (State.raise_raises (s := s) a b c)
@[simp] theorem State.raise_spll (s : State) (a b c : Nat) : (s.raise a b c).spll = s.spll := Raises.spll (State.raise_raises (s := s) a b c)
@[simp] theorem State.raise_pll (s : State) (a b c : Nat) : (s.raise a b c).pll = s.pll := Raises.pll (State.raise_raises (s := s) a b c)
@[simp] theorem State.raise_afe (s : State) (a b c : Nat) : (s.raise a b c).afe = s.afe := Raises.afe (State.raise_raises (s := s) a b c)
@[simp] theorem State.raise_lanes (s : State) (a b c : Nat) : (s.raise a b c).lanes = s.lanes := Raises.lanes (State.raise_raises (s := s) a b c)
@[simp] theorem State.raise_comps (s : State) (a b c : Nat) : (s.raise a b c).comps = s.comps := Raises.comps (State.raise_raises (s := s) a b c)
@[simp] theorem State.raise_gens (s : State) (a b c : Nat) : (s.raise a b c).gens = s.gens := Raises.gens (State.raise_raises (s := s) a b c)
@[simp] theorem State.raise_trigIn (s : State) (a b c : Nat) : (s.raise a b c).trigIn = s.trigIn := Raises.trigIn (State.raise_raises (s := s) a b c)
@[simp] theorem State.raise_regions (s : State) (a b c : Nat) : (s.raise a b c).regions = s.regions := Raises.regions (State.raise_raises (s := s) a b c)
@[simp] theorem State.raise_red (s : State) (a b c : Nat) : (s.raise a b c).red = s.red := Raises.red (State.raise_raises (s := s) a b c)
@[simp] theorem State.raise_sync (s : State) (a b c : Nat) : (s.raise a b c).sync = s.sync := Raises.sync (State.raise_raises (s := s) a b c)
@[simp] theorem State.raise_planes (s : State) (a b c : Nat) : (s.raise a b c).planes = s.planes := Raises.planes (State.raise_raises (s := s) a b c)
@[simp] theorem State.raise_maskFire (s : State) (a b c : Nat) : (s.raise a b c).maskFire = s.maskFire := Raises.maskFire (State.raise_raises (s := s) a b c)
@[simp] theorem State.raise_xtrigCycle (s : State) (a b c : Nat) : (s.raise a b c).xtrigCycle = s.xtrigCycle := Raises.xtrigCycle (State.raise_raises (s := s) a b c)
@[simp] theorem State.raise_snaps (s : State) (a b c : Nat) : (s.raise a b c).snaps = s.snaps := Raises.snaps (State.raise_raises (s := s) a b c)
@[simp] theorem State.raise_tic (s : State) (a b c : Nat) : (s.raise a b c).tic = s.tic := Raises.tic (State.raise_raises (s := s) a b c)
@[simp] theorem State.raise_pmu (s : State) (a b c : Nat) : (s.raise a b c).pmu = s.pmu := Raises.pmu (State.raise_raises (s := s) a b c)
@[simp] theorem State.raise_ras (s : State) (a b c : Nat) : (s.raise a b c).ras = s.ras := Raises.ras (State.raise_raises (s := s) a b c)
@[simp] theorem State.raise_dma (s : State) (a b c : Nat) : (s.raise a b c).dma = s.dma := Raises.dma (State.raise_raises (s := s) a b c)
@[simp] theorem State.raise_gln (s : State) (a b c : Nat) : (s.raise a b c).gln = s.gln := Raises.gln (State.raise_raises (s := s) a b c)
@[simp] theorem State.raise_pwr (s : State) (a b c : Nat) : (s.raise a b c).pwr = s.pwr := Raises.pwr (State.raise_raises (s := s) a b c)
@[simp] theorem State.raise_dia (s : State) (a b c : Nat) : (s.raise a b c).dia = s.dia := Raises.dia (State.raise_raises (s := s) a b c)
@[simp] theorem State.raise_pending (s : State) (a b c : Nat) : (s.raise a b c).pending = s.pending := Raises.pending (State.raise_raises (s := s) a b c)
@[simp] theorem State.raise_run (s : State) (a b c : Nat) : (s.raise a b c).mgt.run = s.mgt.run := Raises.mgt_run (State.raise_raises (s := s) a b c)
theorem State.raise_reg (s : State) (a b c : Nat) (n : RegName) (i : Nat) (hn : eventReg n = false) : (s.raise a b c).reg n i = s.reg n i :=
  Raises.reg (State.raise_raises (s := s) a b c) n i hn
theorem State.raise_fld (s : State) (a b c : Nat) (f : Fld) (i : Nat) (hf : eventReg f.reg = false) : (s.raise a b c).fld f i = s.fld f i :=
  Raises.fld (State.raise_raises (s := s) a b c) f i hf

/-! ### raise0 -/

@[simp] theorem State.raise0_latch (s : State) (a : Nat) : (s.raise0 a).latch = s.latch := Raises.latch (State.raise0_raises (s := s) a)
@[simp] theorem State.raise0_time (s : State) (a : Nat) : (s.raise0 a).time = s.time := Raises.time (State.raise0_raises (s := s) a)
@[simp] theorem State.raise0_frame (s : State) (a : Nat) : (s.raise0 a).frame = s.frame := Raises.frame (State.raise0_raises (s := s) a)
@[simp] theorem State.raise0_mem (s : State) (a : Nat) : (s.raise0 a).mem = s.mem := Raises.mem (State.raise0_raises (s := s) a)
@[simp] theorem State.raise0_masks (s : State) (a : Nat) : (s.raise0 a).masks = s.masks := Raises.masks (State.raise0_raises (s := s) a)
@[simp] theorem State.raise0_bins (s : State) (a : Nat) : (s.raise0 a).bins = s.bins := Raises.bins (State.raise0_raises (s := s) a)
@[simp] theorem State.raise0_dir (s : State) (a : Nat) : (s.raise0 a).dir = s.dir := Raises.dir (State.raise0_raises (s := s) a)
@[simp] theorem State.raise0_dirSeq (s : State) (a : Nat) : (s.raise0 a).dirSeq = s.dirSeq := Raises.dirSeq (State.raise0_raises (s := s) a)
@[simp] theorem State.raise0_tick (s : State) (a : Nat) : (s.raise0 a).tick = s.tick := Raises.tick (State.raise0_raises (s := s) a)
@[simp] theorem State.raise0_pitch (s : State) (a : Nat) : (s.raise0 a).pitch = s.pitch := Raises.pitch (State.raise0_raises (s := s) a)
@[simp] theorem State.raise0_clk (s : State) (a : Nat) : (s.raise0 a).clk = s.clk := Raises.clk (State.raise0_raises (s := s) a)
@[simp] theorem State.raise0_tlk (s : State) (a : Nat) : (s.raise0 a).tlk = s.tlk := Raises.tlk (State.raise0_raises (s := s) a)
@[simp] theorem State.raise0_spll (s : State) (a : Nat) : (s.raise0 a).spll = s.spll := Raises.spll (State.raise0_raises (s := s) a)
@[simp] theorem State.raise0_pll (s : State) (a : Nat) : (s.raise0 a).pll = s.pll := Raises.pll (State.raise0_raises (s := s) a)
@[simp] theorem State.raise0_afe (s : State) (a : Nat) : (s.raise0 a).afe = s.afe := Raises.afe (State.raise0_raises (s := s) a)
@[simp] theorem State.raise0_lanes (s : State) (a : Nat) : (s.raise0 a).lanes = s.lanes := Raises.lanes (State.raise0_raises (s := s) a)
@[simp] theorem State.raise0_comps (s : State) (a : Nat) : (s.raise0 a).comps = s.comps := Raises.comps (State.raise0_raises (s := s) a)
@[simp] theorem State.raise0_gens (s : State) (a : Nat) : (s.raise0 a).gens = s.gens := Raises.gens (State.raise0_raises (s := s) a)
@[simp] theorem State.raise0_trigIn (s : State) (a : Nat) : (s.raise0 a).trigIn = s.trigIn := Raises.trigIn (State.raise0_raises (s := s) a)
@[simp] theorem State.raise0_regions (s : State) (a : Nat) : (s.raise0 a).regions = s.regions := Raises.regions (State.raise0_raises (s := s) a)
@[simp] theorem State.raise0_red (s : State) (a : Nat) : (s.raise0 a).red = s.red := Raises.red (State.raise0_raises (s := s) a)
@[simp] theorem State.raise0_sync (s : State) (a : Nat) : (s.raise0 a).sync = s.sync := Raises.sync (State.raise0_raises (s := s) a)
@[simp] theorem State.raise0_planes (s : State) (a : Nat) : (s.raise0 a).planes = s.planes := Raises.planes (State.raise0_raises (s := s) a)
@[simp] theorem State.raise0_maskFire (s : State) (a : Nat) : (s.raise0 a).maskFire = s.maskFire := Raises.maskFire (State.raise0_raises (s := s) a)
@[simp] theorem State.raise0_xtrigCycle (s : State) (a : Nat) : (s.raise0 a).xtrigCycle = s.xtrigCycle := Raises.xtrigCycle (State.raise0_raises (s := s) a)
@[simp] theorem State.raise0_snaps (s : State) (a : Nat) : (s.raise0 a).snaps = s.snaps := Raises.snaps (State.raise0_raises (s := s) a)
@[simp] theorem State.raise0_tic (s : State) (a : Nat) : (s.raise0 a).tic = s.tic := Raises.tic (State.raise0_raises (s := s) a)
@[simp] theorem State.raise0_pmu (s : State) (a : Nat) : (s.raise0 a).pmu = s.pmu := Raises.pmu (State.raise0_raises (s := s) a)
@[simp] theorem State.raise0_ras (s : State) (a : Nat) : (s.raise0 a).ras = s.ras := Raises.ras (State.raise0_raises (s := s) a)
@[simp] theorem State.raise0_dma (s : State) (a : Nat) : (s.raise0 a).dma = s.dma := Raises.dma (State.raise0_raises (s := s) a)
@[simp] theorem State.raise0_gln (s : State) (a : Nat) : (s.raise0 a).gln = s.gln := Raises.gln (State.raise0_raises (s := s) a)
@[simp] theorem State.raise0_pwr (s : State) (a : Nat) : (s.raise0 a).pwr = s.pwr := Raises.pwr (State.raise0_raises (s := s) a)
@[simp] theorem State.raise0_dia (s : State) (a : Nat) : (s.raise0 a).dia = s.dia := Raises.dia (State.raise0_raises (s := s) a)
@[simp] theorem State.raise0_pending (s : State) (a : Nat) : (s.raise0 a).pending = s.pending := Raises.pending (State.raise0_raises (s := s) a)
@[simp] theorem State.raise0_run (s : State) (a : Nat) : (s.raise0 a).mgt.run = s.mgt.run := Raises.mgt_run (State.raise0_raises (s := s) a)
theorem State.raise0_reg (s : State) (a : Nat) (n : RegName) (i : Nat) (hn : eventReg n = false) : (s.raise0 a).reg n i = s.reg n i :=
  Raises.reg (State.raise0_raises (s := s) a) n i hn
theorem State.raise0_fld (s : State) (a : Nat) (f : Fld) (i : Nat) (hf : eventReg f.reg = false) : (s.raise0 a).fld f i = s.fld f i :=
  Raises.fld (State.raise0_raises (s := s) a) f i hf

/-! ### logNoteDrop -/

@[simp] theorem State.logNoteDrop_latch (s0 s : State) : (s0.logNoteDrop s).latch = s.latch := Raises.latch (State.logNoteDrop_raises (s := s) s0)
@[simp] theorem State.logNoteDrop_time (s0 s : State) : (s0.logNoteDrop s).time = s.time := Raises.time (State.logNoteDrop_raises (s := s) s0)
@[simp] theorem State.logNoteDrop_frame (s0 s : State) : (s0.logNoteDrop s).frame = s.frame := Raises.frame (State.logNoteDrop_raises (s := s) s0)
@[simp] theorem State.logNoteDrop_mem (s0 s : State) : (s0.logNoteDrop s).mem = s.mem := Raises.mem (State.logNoteDrop_raises (s := s) s0)
@[simp] theorem State.logNoteDrop_masks (s0 s : State) : (s0.logNoteDrop s).masks = s.masks := Raises.masks (State.logNoteDrop_raises (s := s) s0)
@[simp] theorem State.logNoteDrop_bins (s0 s : State) : (s0.logNoteDrop s).bins = s.bins := Raises.bins (State.logNoteDrop_raises (s := s) s0)
@[simp] theorem State.logNoteDrop_dir (s0 s : State) : (s0.logNoteDrop s).dir = s.dir := Raises.dir (State.logNoteDrop_raises (s := s) s0)
@[simp] theorem State.logNoteDrop_dirSeq (s0 s : State) : (s0.logNoteDrop s).dirSeq = s.dirSeq := Raises.dirSeq (State.logNoteDrop_raises (s := s) s0)
@[simp] theorem State.logNoteDrop_tick (s0 s : State) : (s0.logNoteDrop s).tick = s.tick := Raises.tick (State.logNoteDrop_raises (s := s) s0)
@[simp] theorem State.logNoteDrop_pitch (s0 s : State) : (s0.logNoteDrop s).pitch = s.pitch := Raises.pitch (State.logNoteDrop_raises (s := s) s0)
@[simp] theorem State.logNoteDrop_clk (s0 s : State) : (s0.logNoteDrop s).clk = s.clk := Raises.clk (State.logNoteDrop_raises (s := s) s0)
@[simp] theorem State.logNoteDrop_tlk (s0 s : State) : (s0.logNoteDrop s).tlk = s.tlk := Raises.tlk (State.logNoteDrop_raises (s := s) s0)
@[simp] theorem State.logNoteDrop_spll (s0 s : State) : (s0.logNoteDrop s).spll = s.spll := Raises.spll (State.logNoteDrop_raises (s := s) s0)
@[simp] theorem State.logNoteDrop_pll (s0 s : State) : (s0.logNoteDrop s).pll = s.pll := Raises.pll (State.logNoteDrop_raises (s := s) s0)
@[simp] theorem State.logNoteDrop_afe (s0 s : State) : (s0.logNoteDrop s).afe = s.afe := Raises.afe (State.logNoteDrop_raises (s := s) s0)
@[simp] theorem State.logNoteDrop_lanes (s0 s : State) : (s0.logNoteDrop s).lanes = s.lanes := Raises.lanes (State.logNoteDrop_raises (s := s) s0)
@[simp] theorem State.logNoteDrop_comps (s0 s : State) : (s0.logNoteDrop s).comps = s.comps := Raises.comps (State.logNoteDrop_raises (s := s) s0)
@[simp] theorem State.logNoteDrop_gens (s0 s : State) : (s0.logNoteDrop s).gens = s.gens := Raises.gens (State.logNoteDrop_raises (s := s) s0)
@[simp] theorem State.logNoteDrop_trigIn (s0 s : State) : (s0.logNoteDrop s).trigIn = s.trigIn := Raises.trigIn (State.logNoteDrop_raises (s := s) s0)
@[simp] theorem State.logNoteDrop_regions (s0 s : State) : (s0.logNoteDrop s).regions = s.regions := Raises.regions (State.logNoteDrop_raises (s := s) s0)
@[simp] theorem State.logNoteDrop_red (s0 s : State) : (s0.logNoteDrop s).red = s.red := Raises.red (State.logNoteDrop_raises (s := s) s0)
@[simp] theorem State.logNoteDrop_sync (s0 s : State) : (s0.logNoteDrop s).sync = s.sync := Raises.sync (State.logNoteDrop_raises (s := s) s0)
@[simp] theorem State.logNoteDrop_planes (s0 s : State) : (s0.logNoteDrop s).planes = s.planes := Raises.planes (State.logNoteDrop_raises (s := s) s0)
@[simp] theorem State.logNoteDrop_maskFire (s0 s : State) : (s0.logNoteDrop s).maskFire = s.maskFire := Raises.maskFire (State.logNoteDrop_raises (s := s) s0)
@[simp] theorem State.logNoteDrop_xtrigCycle (s0 s : State) : (s0.logNoteDrop s).xtrigCycle = s.xtrigCycle := Raises.xtrigCycle (State.logNoteDrop_raises (s := s) s0)
@[simp] theorem State.logNoteDrop_snaps (s0 s : State) : (s0.logNoteDrop s).snaps = s.snaps := Raises.snaps (State.logNoteDrop_raises (s := s) s0)
@[simp] theorem State.logNoteDrop_tic (s0 s : State) : (s0.logNoteDrop s).tic = s.tic := Raises.tic (State.logNoteDrop_raises (s := s) s0)
@[simp] theorem State.logNoteDrop_pmu (s0 s : State) : (s0.logNoteDrop s).pmu = s.pmu := Raises.pmu (State.logNoteDrop_raises (s := s) s0)
@[simp] theorem State.logNoteDrop_ras (s0 s : State) : (s0.logNoteDrop s).ras = s.ras := Raises.ras (State.logNoteDrop_raises (s := s) s0)
@[simp] theorem State.logNoteDrop_dma (s0 s : State) : (s0.logNoteDrop s).dma = s.dma := Raises.dma (State.logNoteDrop_raises (s := s) s0)
@[simp] theorem State.logNoteDrop_gln (s0 s : State) : (s0.logNoteDrop s).gln = s.gln := Raises.gln (State.logNoteDrop_raises (s := s) s0)
@[simp] theorem State.logNoteDrop_pwr (s0 s : State) : (s0.logNoteDrop s).pwr = s.pwr := Raises.pwr (State.logNoteDrop_raises (s := s) s0)
@[simp] theorem State.logNoteDrop_dia (s0 s : State) : (s0.logNoteDrop s).dia = s.dia := Raises.dia (State.logNoteDrop_raises (s := s) s0)
@[simp] theorem State.logNoteDrop_pending (s0 s : State) : (s0.logNoteDrop s).pending = s.pending := Raises.pending (State.logNoteDrop_raises (s := s) s0)
@[simp] theorem State.logNoteDrop_run (s0 s : State) : (s0.logNoteDrop s).mgt.run = s.mgt.run := Raises.mgt_run (State.logNoteDrop_raises (s := s) s0)
theorem State.logNoteDrop_reg (s0 s : State) (n : RegName) (i : Nat) (hn : eventReg n = false) : (s0.logNoteDrop s).reg n i = s.reg n i :=
  Raises.reg (State.logNoteDrop_raises (s := s) s0) n i hn
theorem State.logNoteDrop_fld (s0 s : State) (f : Fld) (i : Nat) (hf : eventReg f.reg = false) : (s0.logNoteDrop s).fld f i = s.fld f i :=
  Raises.fld (State.logNoteDrop_raises (s := s) s0) f i hf

/-! ### mergeNote -/

@[simp] theorem State.mergeNote_latch (n : Nat) (s0 s : State) : (State.mergeNote n s0 s).latch = s.latch := Raises.latch (State.mergeNote_raises (s := s) n s0)
@[simp] theorem State.mergeNote_time (n : Nat) (s0 s : State) : (State.mergeNote n s0 s).time = s.time := Raises.time (State.mergeNote_raises (s := s) n s0)
@[simp] theorem State.mergeNote_frame (n : Nat) (s0 s : State) : (State.mergeNote n s0 s).frame = s.frame := Raises.frame (State.mergeNote_raises (s := s) n s0)
@[simp] theorem State.mergeNote_mem (n : Nat) (s0 s : State) : (State.mergeNote n s0 s).mem = s.mem := Raises.mem (State.mergeNote_raises (s := s) n s0)
@[simp] theorem State.mergeNote_masks (n : Nat) (s0 s : State) : (State.mergeNote n s0 s).masks = s.masks := Raises.masks (State.mergeNote_raises (s := s) n s0)
@[simp] theorem State.mergeNote_bins (n : Nat) (s0 s : State) : (State.mergeNote n s0 s).bins = s.bins := Raises.bins (State.mergeNote_raises (s := s) n s0)
@[simp] theorem State.mergeNote_dir (n : Nat) (s0 s : State) : (State.mergeNote n s0 s).dir = s.dir := Raises.dir (State.mergeNote_raises (s := s) n s0)
@[simp] theorem State.mergeNote_dirSeq (n : Nat) (s0 s : State) : (State.mergeNote n s0 s).dirSeq = s.dirSeq := Raises.dirSeq (State.mergeNote_raises (s := s) n s0)
@[simp] theorem State.mergeNote_tick (n : Nat) (s0 s : State) : (State.mergeNote n s0 s).tick = s.tick := Raises.tick (State.mergeNote_raises (s := s) n s0)
@[simp] theorem State.mergeNote_pitch (n : Nat) (s0 s : State) : (State.mergeNote n s0 s).pitch = s.pitch := Raises.pitch (State.mergeNote_raises (s := s) n s0)
@[simp] theorem State.mergeNote_clk (n : Nat) (s0 s : State) : (State.mergeNote n s0 s).clk = s.clk := Raises.clk (State.mergeNote_raises (s := s) n s0)
@[simp] theorem State.mergeNote_tlk (n : Nat) (s0 s : State) : (State.mergeNote n s0 s).tlk = s.tlk := Raises.tlk (State.mergeNote_raises (s := s) n s0)
@[simp] theorem State.mergeNote_spll (n : Nat) (s0 s : State) : (State.mergeNote n s0 s).spll = s.spll := Raises.spll (State.mergeNote_raises (s := s) n s0)
@[simp] theorem State.mergeNote_pll (n : Nat) (s0 s : State) : (State.mergeNote n s0 s).pll = s.pll := Raises.pll (State.mergeNote_raises (s := s) n s0)
@[simp] theorem State.mergeNote_afe (n : Nat) (s0 s : State) : (State.mergeNote n s0 s).afe = s.afe := Raises.afe (State.mergeNote_raises (s := s) n s0)
@[simp] theorem State.mergeNote_lanes (n : Nat) (s0 s : State) : (State.mergeNote n s0 s).lanes = s.lanes := Raises.lanes (State.mergeNote_raises (s := s) n s0)
@[simp] theorem State.mergeNote_comps (n : Nat) (s0 s : State) : (State.mergeNote n s0 s).comps = s.comps := Raises.comps (State.mergeNote_raises (s := s) n s0)
@[simp] theorem State.mergeNote_gens (n : Nat) (s0 s : State) : (State.mergeNote n s0 s).gens = s.gens := Raises.gens (State.mergeNote_raises (s := s) n s0)
@[simp] theorem State.mergeNote_trigIn (n : Nat) (s0 s : State) : (State.mergeNote n s0 s).trigIn = s.trigIn := Raises.trigIn (State.mergeNote_raises (s := s) n s0)
@[simp] theorem State.mergeNote_regions (n : Nat) (s0 s : State) : (State.mergeNote n s0 s).regions = s.regions := Raises.regions (State.mergeNote_raises (s := s) n s0)
@[simp] theorem State.mergeNote_red (n : Nat) (s0 s : State) : (State.mergeNote n s0 s).red = s.red := Raises.red (State.mergeNote_raises (s := s) n s0)
@[simp] theorem State.mergeNote_sync (n : Nat) (s0 s : State) : (State.mergeNote n s0 s).sync = s.sync := Raises.sync (State.mergeNote_raises (s := s) n s0)
@[simp] theorem State.mergeNote_planes (n : Nat) (s0 s : State) : (State.mergeNote n s0 s).planes = s.planes := Raises.planes (State.mergeNote_raises (s := s) n s0)
@[simp] theorem State.mergeNote_maskFire (n : Nat) (s0 s : State) : (State.mergeNote n s0 s).maskFire = s.maskFire := Raises.maskFire (State.mergeNote_raises (s := s) n s0)
@[simp] theorem State.mergeNote_xtrigCycle (n : Nat) (s0 s : State) : (State.mergeNote n s0 s).xtrigCycle = s.xtrigCycle := Raises.xtrigCycle (State.mergeNote_raises (s := s) n s0)
@[simp] theorem State.mergeNote_snaps (n : Nat) (s0 s : State) : (State.mergeNote n s0 s).snaps = s.snaps := Raises.snaps (State.mergeNote_raises (s := s) n s0)
@[simp] theorem State.mergeNote_tic (n : Nat) (s0 s : State) : (State.mergeNote n s0 s).tic = s.tic := Raises.tic (State.mergeNote_raises (s := s) n s0)
@[simp] theorem State.mergeNote_pmu (n : Nat) (s0 s : State) : (State.mergeNote n s0 s).pmu = s.pmu := Raises.pmu (State.mergeNote_raises (s := s) n s0)
@[simp] theorem State.mergeNote_ras (n : Nat) (s0 s : State) : (State.mergeNote n s0 s).ras = s.ras := Raises.ras (State.mergeNote_raises (s := s) n s0)
@[simp] theorem State.mergeNote_dma (n : Nat) (s0 s : State) : (State.mergeNote n s0 s).dma = s.dma := Raises.dma (State.mergeNote_raises (s := s) n s0)
@[simp] theorem State.mergeNote_gln (n : Nat) (s0 s : State) : (State.mergeNote n s0 s).gln = s.gln := Raises.gln (State.mergeNote_raises (s := s) n s0)
@[simp] theorem State.mergeNote_pwr (n : Nat) (s0 s : State) : (State.mergeNote n s0 s).pwr = s.pwr := Raises.pwr (State.mergeNote_raises (s := s) n s0)
@[simp] theorem State.mergeNote_dia (n : Nat) (s0 s : State) : (State.mergeNote n s0 s).dia = s.dia := Raises.dia (State.mergeNote_raises (s := s) n s0)
@[simp] theorem State.mergeNote_pending (n : Nat) (s0 s : State) : (State.mergeNote n s0 s).pending = s.pending := Raises.pending (State.mergeNote_raises (s := s) n s0)
@[simp] theorem State.mergeNote_run (n : Nat) (s0 s : State) : (State.mergeNote n s0 s).mgt.run = s.mgt.run := Raises.mgt_run (State.mergeNote_raises (s := s) n s0)
theorem State.mergeNote_reg (k : Nat) (s0 s : State) (n : RegName) (i : Nat) (hn : eventReg n = false) : (State.mergeNote k s0 s).reg n i = s.reg n i :=
  Raises.reg (State.mergeNote_raises (s := s) k s0) n i hn
theorem State.mergeNote_fld (k : Nat) (s0 s : State) (f : Fld) (i : Nat) (hf : eventReg f.reg = false) : (State.mergeNote k s0 s).fld f i = s.fld f i :=
  Raises.fld (State.mergeNote_raises (s := s) k s0) f i hf

/-! ### The status of a raised source -/

theorem State.evtStatus_setStatus (n : Nat) (b : Bool) : (s.setStatus n b).evtStatus n = b := by
  unfold State.evtStatus
  rw [State.setStatus, State.reg_setReg_same, putBits_getLsbD, if_pos (by omega),
    decide_eq_true (Nat.mod_lt _ (by decide)), Bool.true_and]
  cases b <;> simp

/-- A source of an awake unit whose route does not name Basecamp has STATUS 1 after a raise (R349). -/
theorem State.raise_status (n causes info : Nat) (hv : evtValid n = true) (ha : s.evtAsleep n = false)
    (hq : s.evtAbsent n = false) (hk : s.fld Fld.EVT_ROUTE_KIND n ≠ 1) : (s.raise n causes info).evtStatus n = true := by
  have keep : ∀ (a b : State), (∀ ks, Raises a b ks) → a.evtStatus n = true → b.evtStatus n = true := fun a b h h1 =>
    ((h []).src n List.not_mem_nil).1.trans h1
  have dat : ∀ (a : State) (r : RegName) (v : Word), r ≠ .EVT_STATUS → a.evtStatus n = true →
      (a.setReg r n v).evtStatus n = true := fun a r v hr h1 => by
    unfold State.evtStatus at h1 ⊢
    rw [a.reg_setReg_other _ _ _ fun h => hr h.1.symm]; exact h1
  have del : ∀ a : State, a.fld Fld.EVT_ROUTE_KIND n ≠ 1 → a.evtStatus n = true → (a.deliver n).evtStatus n = true := by
    intro a hk h1
    unfold State.deliver
    dsimp only
    split
    · exact keep _ _ (fun _ => State.signal_raises _) h1
    · split
      · split
        · exact keep _ _ (fun _ => State.used_raises.trans (State.addPulse_raises _ _)) h1
        · exact h1
      · exact keep _ _ (fun _ => State.tlkSend_raises _) h1
  have log : ∀ (a : State) (v : Word), a.evtStatus n = true →
      (if loggedSource n then a.logRaise n v else a).evtStatus n = true := fun a v h1 => by
    split
    · exact keep _ _ (fun _ => State.logRaise_raises _ _) h1
    · exact h1
  have fin : ∀ (c : Bool) (a : State), Raises s a [n] → a.evtStatus n = true →
      (if c then a.deliver n else a).evtStatus n = true := fun c a hr h1 => by
    split
    · exact del a (by rw [hr.fld _ _ rfl]; exact hk) h1
    · exact h1
  have ev : ∀ (a : State) (e : Evt), a.evtStatus n = true → ({ a with evt := e } : State).evtStatus n = true :=
    fun _ _ h1 => h1
  have h1 := (Raises.setStatus (s := s) n true).trans
    (Raises.setData n (putBits ((s.setStatus n true).reg .EVT_DATA n) 0 16 (s.fld Fld.EVT_DATA_CAUSES n ||| (causes % 2 ^ 16))))
  have h2 := fun t => Raises.setData (s := t) n
  have h3 := fun t => Raises.setCnt (s := t) n
  have h4 : ∀ (t : State) (r : Tab RaiseMark), Raises t { t with evt := { t.evt with raises := r } } [n] := fun t r =>
    ⟨fun _ _ _ => rfl, fun _ _ => ⟨rfl, rfl, rfl⟩, _, _, _, _, _, _, _, _, _, _, _, rfl⟩
  have h5 : ∀ (t : State) (v : Word), Raises t (if loggedSource n then t.logRaise n v else t) [n] := fun t v =>
    Raises.ite (State.logRaise_raises _ _) (Raises.refl _ _)
  unfold State.raise
  rw [hv, ha, hq]
  dsimp only [Bool.not_true, Bool.or_false]
  rw [if_neg (by decide)]
  refine fin _ _ (((((h1.trans (Raises.ite (h2 _ _) (Raises.refl _ _))).trans (h3 _ _)).trans (h4 _ _)).trans (h5 _ _)))
    (log _ _ (ev _ _ (dat _ _ _ (by decide) ?_)))
  split
  · exact dat _ _ _ (by decide) (dat _ _ _ (by decide) (State.evtStatus_setStatus n true))
  · exact dat _ _ _ (by decide) (State.evtStatus_setStatus n true)

end Sys2Proof.Machine
end

