-- ==== Sys2Proof/Laws/Tick.lean ====
section
/-! SUPPORT. What a tick leaves of local time, the frame number and the waiting SH values, and what a BAR0 access finds. -/

set_option linter.unusedTactic false
set_option linter.unreachableTactic false
set_option linter.unusedSimpArgs false

namespace Sys2Proof.Machine

variable {que : List Instr} {Q : Saying} {s : State}

/-- No value waits that the snapshot of a tick at `t` holds. -/
def noneDue (t : Tu) (l : List ShWrite) : Prop := ∀ w ∈ l, tuLe (tuAdd w.stamp (ns 64)) t = false

/-- HOLD has been 0 all along. -/
def neverHeld (l : List (Tu × Bool)) : Prop := ∀ x ∈ l, x.2 = false

theorem State.holdSeen_of (h : neverHeld s.tick.hold) : s.holdSeen = false := by
  unfold State.holdSeen
  split
  · next x hx => exact h x (List.mem_of_find?_eq_some hx)
  · rfl

/-- The commits of a tick at which HOLD is 0 leave no value waiting that its snapshot holds (R43, R45). -/
theorem State.commitStep_waits (host : List HostRead) (hs : Ok que Q s) (hh : neverHeld s.tick.hold) :
    Ok que (fun t f x l u w _ => (∃ w' k', Q t f x l u w' k') ∧ noneDue s.time w ∧ t = s.time) (s.commitStep host) := by
  obtain ⟨h1, h2, l, k, -, -, hq⟩ := hs
  unfold State.commitStep
  rw [State.holdSeen_of hh, if_neg (by decide)]
  unfold State.commitNow
  refine State.each_ok (fun s n h => State.forceDue_ok _ _ _ _ h) ?_
  unfold State.commitSh
  dsimp only
  split
  · next hd =>
    refine Ok.of h1 h2 ⟨⟨l, k, hq⟩, fun w hw => ?_, rfl⟩
    rw [List.isEmpty_iff, List.filter_eq_nil_iff] at hd
    exact Bool.not_eq_true _ ▸ hd w hw
  · refine State.setFrame_ok rfl rfl _ _ (State.commitArms_ok _ (State.commitRegs_ok _ _ _ (State.limitPlanes_ok
      (State.commitRegs_ok _ _ _ (State.commitRegs_ok _ _ _ ?_)))))
    refine Ok.of h1 h2 ⟨⟨l, k, hq⟩, fun w hw => ?_, rfl⟩
    have := (List.mem_filter.1 hw).2
    simpa only [State.inSnapshot, Bool.not_eq_true'] using this

theorem Ok.neverHeld (h : Ok que (fun _ _ _ _ _ _ k => Machine.neverHeld k) s) : Machine.neverHeld s.tick.hold := by
  obtain ⟨-, -, -, k, -, h4, h5⟩ := h
  intro x hx
  cases hb : x.2 with
  | false => rfl
  | true => exact hb.symm.trans (h5 x (h4 x hx hb))

/-- A state whose time is `x`, with another frame and a tick issued. -/
theorem ok_frame {x : Tu} {P : List (Tu × Bool) → Prop} (h : Ok que (fun t _ _ _ _ _ k => t = x ∧ P k) s) (f : Frame) :
    Ok que (fun t g _ _ _ _ k => (t = x ∧ g = f) ∧ P k) { s with frame := f, tick := { s.tick with issued := true } } := by
  obtain ⟨h1, h2, l, k, h3, h4, h5, h6⟩ := h
  exact ⟨h1, h2, l, k, h3, h4, ⟨h5, rfl⟩, h6⟩

/-- A tick that is issued leaves time where it is, and its frame is the current one. -/
theorem State.issueTick_now (host : List HostRead) (f : Frame) (hs : Ok que AnyTime s) :
    Ok que (fun t g _ _ _ _ _ => t = s.time ∧ g = f) (s.issueTick host f) := by
  have h0 : Ok que (fun t _ _ _ _ _ _ => t = s.time ∧ True) (s.endFrameWork).keepWas :=
    State.keepWas_ok (State.endFrameWork_ok (Ok.of hs.1 hs.2.1 ⟨rfl, trivial⟩))
  have h1 := (ok_frame (P := fun _ => True) h0 f).mono (Q' := fun t g _ _ _ _ _ => t = s.time ∧ g = f) fun _ _ _ _ _ _ _ h => h.1
  unfold State.issueTick
  repeat' first
    | with_reducible first | exact h1 | assumption | intro _ | apply State.setFld_ok | apply State.glnRoles_ok | apply State.pitchTick_ok | apply State.anchorTick_ok | apply State.commitStep_ok | apply State.pitchBegin_ok | apply State.thermalTick_ok | apply State.bcastStep_ok | apply State.each_ok | apply State.slotTick_ok | apply State.syncCommit_ok | apply State.syncUpTo_ok | apply State.ticAll_ok | apply State.wokenTick_ok | apply State.laneStep_ok | apply State.markStale_ok | apply State.pmuTick_ok | apply State.queueTick_ok | apply State.stallTick_ok | apply State.noteBlocked_ok | apply State.glnRecords_ok | apply State.glnSends_ok | apply State.tickMark_ok | apply State.statusMsg_ok | apply State.pruneTick_ok
    | exact rfl
    | (try dsimp only); split

/-- A tick that is issued while HOLD is 0 leaves no value waiting that its snapshot holds. -/
theorem State.issueTick_waits (host : List HostRead) (f : Frame) (hs : Ok que AnyTime s) (hh : Machine.neverHeld s.tick.hold) :
    Ok que (fun t g _ _ _ w _ => (t = s.time ∧ g = f) ∧ noneDue s.time w) (s.issueTick host f) := by
  have h0 : Ok que (fun t _ _ _ _ _ k => t = s.time ∧ Machine.neverHeld k) (s.endFrameWork).keepWas :=
    State.keepWas_ok (State.endFrameWork_ok (Ok.of hs.1 hs.2.1 ⟨rfl, hh⟩))
  have h1 := ok_frame h0 f
  have h2 : ∀ a : State, Ok que (fun t g _ _ _ _ k => (t = s.time ∧ g = f) ∧ Machine.neverHeld k) a →
      Ok que (fun t g _ _ _ w _ => (t = s.time ∧ g = f) ∧ noneDue s.time w) (a.commitStep host) := fun a ha => by
    have h3 := State.commitStep_waits host ha (ha.mono fun _ _ _ _ _ _ _ h => h.2).neverHeld
    have ht : a.time = s.time := (ha.mono (Q' := fun t _ _ _ _ _ _ => t = s.time) fun _ _ _ _ _ _ _ h => h.1.1).says
    rw [ht] at h3
    refine h3.mono fun _ _ _ _ _ _ _ h => ?_
    obtain ⟨⟨_, _, hq⟩, hn, -⟩ := h
    exact ⟨hq.1, hn⟩
  unfold State.issueTick
  repeat' first
    | with_reducible first | exact h1 | assumption | intro _ | apply h2 | apply State.setFld_ok | apply State.glnRoles_ok | apply State.pitchTick_ok | apply State.anchorTick_ok | apply State.pitchBegin_ok | apply State.thermalTick_ok | apply State.bcastStep_ok | apply State.each_ok | apply State.slotTick_ok | apply State.syncCommit_ok | apply State.syncUpTo_ok | apply State.ticAll_ok | apply State.wokenTick_ok | apply State.laneStep_ok | apply State.markStale_ok | apply State.pmuTick_ok | apply State.queueTick_ok | apply State.stallTick_ok | apply State.noteBlocked_ok | apply State.glnRecords_ok | apply State.glnSends_ok | apply State.tickMark_ok | apply State.statusMsg_ok | apply State.pruneTick_ok
    | exact rfl
    | (try dsimp only); split

/-- A tick without a STEP: local time reaches the next tick. -/
theorem State.frameTick_time (host : List HostRead) (hs : Ok que AnyTime s) (hp : s.pitched = true)
    (hb : s.standby = false) (hd : s.tlk.step = none) : Ok que (fun t _ _ _ _ _ _ => t = s.nextGrid) (s.frameTick host) := by
  have h1 : Ok que (fun t _ x _ _ _ _ => t = s.nextGrid ∧ x = none) (({ s with time := s.nextGrid } : State).beforeTick) :=
    State.beforeTick_ok (Ok.of hs.1 hs.2.1 ⟨rfl, hd⟩)
  have h2 := h1.says.2
  have h3 : Ok que (fun t _ _ _ _ _ _ => t = s.nextGrid) (({ s with time := s.nextGrid } : State).beforeTick) :=
    h1.mono fun _ _ _ _ _ _ _ h => h.1
  have h4 : ∀ f, Ok que (fun t _ _ _ _ _ _ => t = s.nextGrid)
      ((({ s with time := s.nextGrid } : State).beforeTick).issueTick host f) := fun f =>
    (State.issueTick_now host f h3.any).mono fun _ _ _ _ _ _ _ h => h.1.trans h3.says
  unfold State.frameTick
  rw [hp, hb, if_neg (by decide)]
  dsimp only
  rw [h2]
  rw [show ∀ c : Bool, (if c = true then (none : Option Int) else none) = none from fun c => by split <;> rfl]
  dsimp only
  exact ite_ok (State.pruneTick_ok (State.anchorTick_ok _ h3)) (h4 _)

/-- The state that a BAR0 access finds: local time is that of the access, and frame, latches and host link are as before. -/
theorem State.nowAt_keeps (t : Tu) (h : s.Inv) :
    Ok s.pending (fun x f _ l u _ _ => x = (s.at t).time ∧ f = s.frame ∧ l = s.latch ∧ u = s.hostUp) (s.nowAt t) := by
  have h0 : Ok s.pending AnyTime (s.at t) := State.at_ok t (Ok.of h rfl trivial)
  have h1 : (s.at t).frame = s.frame ∧ (s.at t).latch = s.latch ∧ (s.at t).hostUp = s.hostUp := by
    unfold State.at
    split
    · split <;> exact ⟨rfl, rfl, rfl⟩
    · exact ⟨rfl, rfl, rfl⟩
  unfold State.nowAt
  dsimp only
  exact State.logNoteDrop_ok _ _ (State.mergeNote_ok _ _ (State.upToNow_ok (Ok.of h0.1 h0.2.1 ⟨rfl, h1⟩)))

end Sys2Proof.Machine
end

