-- ==== Sys2Proof/WellFormed.lean ====
section
/-! DEFINITION. Which commands are well formed: the lengths that the manual gives the lists among their operands
(descriptors, messages, sensor values, taps, pictures), and the ranges of the numbers that a type does not bound. -/

namespace Sys2Proof

/-- A CIRC descriptor is 32 bytes (R337). -/
def HostRead.wf (h : HostRead) : Bool :=
  match h.desc with
  | none => true
  | some d => d.length == 32

/-- Every queue is answered once, with a descriptor of 32 bytes or an error. -/
def hostWf (l : List HostRead) : Bool := l.all HostRead.wf && decide (l.map HostRead.q).Nodup

/-- A set has seven taps (R159). -/
def Corr.wf (c : Corr) : Bool := c.taps.length == 7

/-- A twin-link message is 32 bytes (R364). -/
def glnWf (m : List Byte) : Bool := m.length == 32

/-- The form of a command. -/
def Instr.wf : Instr → Bool
  | .frameTick h | .pitchApplyT1 h | .pitchDrainTimeout h | .pitchApplyT2 h | .partialPitchApply h | .handover h
  | .glnFailDetect h | .glnTakeover h | .tlkPhaseStep h => hostWf h
  | .registerWrite _ a _ _ | .shWrite _ a _ | .w1cClear _ a _ | .readClear _ a => a.toNat % 4 == 0
  | .latchingRead _ a wide => if wide then a.toNat % 8 == 0 else a.toNat % 4 == 0
  | .shadowWindowEnd _ _ m => m.taps.length == 7
  | .afeOvr _ _ raw _ => raw.length == 7
  | .calPreloadStart _ _ fit => fit.wf
  | .bar2Read _ a len => decide (1 ≤ len ∧ a.toNat + len ≤ 2 ^ 36)
  | .bar2Write _ a data => decide (1 ≤ data.length ∧ a.toNat + data.length ≤ 2 ^ 36)
  | .rasVblank _ p => p.rows.length == 8
  | .descriptorFetch _ _ ds => decide (1 ≤ ds.length ∧ ds.length ≤ 32) && ds.all (fun d => d.length == 32)
  | .hello _ m | .role _ m | .beat _ m | .timeReq _ m _ | .timeRsp _ m | .glnSync _ m | .glnStep _ m | .digest _ m
  | .chsum _ m | .glnPmu _ m | .take _ m | .detach _ m | .glnMsgDiscard _ m => glnWf m
  | .sensorSample _ v => v.length == 14
  | .thermalCheck _ v => v.length == 5
  | .mbDebugChallenge _ _ nonce => nonce.length == 32
  | .pmbusPoll _ r => decide (r.map PmbusPoll.r).Nodup
  | .segmentClose _ runs | .continuousBlock _ _ runs => decide (runs.length ≤ 8)
  | _ => true

end Sys2Proof
end

