-- ==== Sys2Proof/Tests/Slice0.lean ====
section
/-! SUPPORT. Tests: what WellFormed refuses, the examples of the manual, and for each obligation states and operands
that meet the hypotheses of each of its clauses (`witness_<obligation>`). -/

namespace Sys2Proof.Tests

open Sys2Proof.Machine
set_option Elab.async false

/-! ### States that the tests start from -/

/-- A header: k = 10, Gen 4 ×8, stalls of 4,000 ns and 10 % (Table PIT-1). -/
def hdr : List Byte :=
  leBytes 4 0x544E4554 ++ leBytes 2 1 ++ leBytes 2 64 ++ leBytes 2 0x1632 ++ leBytes 2 0x21 ++ leBytes 20 0 ++
    leBytes 1 10 ++ leBytes 1 4 ++ leBytes 1 8 ++ leBytes 1 0xFF ++ leBytes 2 4000 ++ leBytes 2 10 ++ leBytes 24 0

/-- The records of an image that defines no region and no stream. -/
def bareRecs : List ImgRec :=
  let rs : List ImgRec :=
    [⟨1, 0, leBytes 8 6400⟩, ⟨1, 1, leBytes 8 6400⟩] ++ (List.range 4).map (fun c => ⟨2, c, leBytes 8 0⟩) ++
      (List.range 34).map fun n => ⟨0xA, n, leBytes 8 (if 29 ≤ n then 0 else gateParent n)⟩
  rs ++ [(0x10, 0), (0x10, 1), (0x11, 0), (0x11, 1), (0x12, 0)].filterMap fun k =>
    (budgetWant hdr rs k.1 k.2).map fun b => ⟨k.1, k.2, b⟩

/-- The image as bytes. -/
def image : List Byte := combined hdr bareRecs

/-- Reset with this image in force and its first tick issued. -/
def run : State :=
  { State.reset with
    pitch := { Pitch.init with hdr := hdr, recs := bareRecs }, tick := { Tick.init with issued := true } }

/-- Reset with a header in force that no tick has followed. -/
def pitchedOnly : State := { State.reset with pitch := { Pitch.init with hdr := List.replicate 128 0 } }

/-- A REGION body (Table PIT-4). -/
def regionBody (mask mode fmt len base size dirBase dirCount rate : Nat) : List Byte :=
  leBytes 1 mask ++ leBytes 1 mode ++ leBytes 2 fmt ++ leBytes 4 len ++ leBytes 8 base ++ leBytes 8 size ++
    leBytes 4 dirBase ++ leBytes 4 dirCount ++ leBytes 8 rate

/-- A STREAM body (Table PIT-4). -/
def streamBody (kind unit lat policy pace vec : Nat) : List Byte :=
  leBytes 1 kind ++ leBytes 1 unit ++ leBytes 1 lat ++ leBytes 1 policy ++ leBytes 4 pace ++ leBytes 8 vec ++
    leBytes 8 0x100000 ++ leBytes 8 0x10000

/-- Records with regions, streams and an interleaved cluster 2. -/
def richRecs : List ImgRec :=
  [⟨2, 2, leBytes 8 1⟩, ⟨5, 0, regionBody 1 0 1 64 0 4096 0 32 1000000⟩,
   ⟨5, 1, regionBody 1 1 1 16 8192 64 64 1 1000000⟩, ⟨5, 2, regionBody 1 2 1 0 16384 61440 128 0 0⟩,
   ⟨5, 3, regionBody 1 3 1 0 98304 61440 0 0 0⟩, ⟨5, 17, regionBody 1 0 0 64 0 4096 0 32 1000000⟩,
   ⟨4, 2, leBytes 4 3 ++ leBytes 4 1⟩, ⟨4, 8, leBytes 4 3 ++ leBytes 4 1⟩, ⟨6, 0, streamBody 1 0 3 0 1 0⟩,
   ⟨6, 1, streamBody 4 0 3 1 1 2⟩, ⟨6, 2, streamBody 6 0 3 1 1 0⟩, ⟨6, 5, streamBody 7 0 3 1 1 0⟩] ++ bareRecs

/-- The same device with those records in force. -/
def rich : State := { run with pitch := { run.pitch with recs := richRecs } }

/-- Both sample PLLs settled and on their anchors. -/
def onGrid (s : State) : State :=
  { ((s.setFld Fld.PLL_SPLL_STATUS_ALIGNED 0 1).setFld Fld.PLL_SPLL_STATUS_ALIGNED 1 1) with
    spll := [(0, { Spll.init with bad := none }), (1, { Spll.init with bad := none })] }

/-- The state at an instant. -/
def atTime (n : Nat) (s : State) : State := { s with time := BitVec.ofNat 64 n }

/-- The state after a step. -/
def after (s : State) : State :=
  match step s with
  | .next t => t
  | .fault _ => s
  | .refused _ => s

theorem step_after (s : State) (h : (match step s with | .next _ => true | _ => false) = true) :
    step s = .next (after s) := by
  unfold after
  split at h
  · next e => rw [e]
  · cases h

/-- An accepted full image, and an accepted partial one for cluster 1. -/
def acceptedFull : Accepted := ⟨hdr, bareRecs, hdr, 0, none, 0⟩
def acceptedPart : Accepted := ⟨[], [], [], 0, some 1, 0⟩

/-- `run` with an image accepted, T1 passed at a frame, and the drain ended or not. -/
def applying (a : Accepted) (t1 : Option Frame) (drained : Bool) : State :=
  { run with pitch := { run.pitch with accepted := some a, t1 := t1, drained := drained } }

/-- A running Basecamp whose host mailbox holds a command and its arguments. -/
def mailbox (cmd : Nat) (args : List Nat) (s : State) : State :=
  args.zipIdx.foldl (fun s x => s.setReg .MGT_MB_ARG x.2 (BitVec.ofNat 32 x.1))
    (({ s with mgt := { s.mgt with run := 1 } }).setReg .MGT_MB_CMD 0 (BitVec.ofNat 32 cmd))

/-- Basecamp in a given state. -/
def basecamp (m : Mgt) : State := { State.reset with mgt := m }

/-- The timing link is locked; LINK is the active source; the epoch is valid. -/
def locked (s : State) : State := s.setFld Fld.TLK_STATUS_BLOCK_LOCK 0 1
def linkActive (s : State) : State := ((locked s).setFld Fld.CLK_SRC_STATUS_ACTIVE 0 0).setFld Fld.TLK_STATUS_EPOCH_VALID 0 1

/-- Lane n in a state, in a phase of its dwell, at an instant. -/
def laneIn (n : Nat) (l : Lane) (phase tm : Nat) (s : State) : State :=
  { (s.setFld Fld.ILV_LANE_STATUS_PHASE n phase) with lanes := [(n, l)], time := BitVec.ofNat 64 tm }
def lane0 : Lane := { Lane.init with dwell := some 0, order := [0, 1, 2, 3] }
def fitSet : Corr := ⟨3, 2, 1, 0, [0, 0, 0, 16384, 0, 0, 0]⟩

/-- Lanes 3 and 9 are CAL_STALE; both dies are settled; slot 2 holds entries, of which lane 9's fails its CRC. -/
def staleLanes (s : State) : State :=
  (s.setFld Fld.ILV_LANE_STATUS_CAL_STALE 3 1).setFld Fld.ILV_LANE_STATUS_CAL_STALE 9 1
def diesSettled (s : State) : State :=
  (s.setFld Fld.PLL_SPLL_STATUS_SETTLED 0 1).setFld Fld.PLL_SPLL_STATUS_SETTLED 1 1
def calSaved (s : State) : State :=
  { s with mgt := { s.mgt with flash := { s.mgt.flash with
    cal := (List.range 16).map fun i => (32 + i, s.calEntry i (i != 9)) } } }

/-- Generator 0 fires on rising HI crossings of lane 0 and serves regions 0 and 1. -/
def genOn (s : State) : State :=
  ((s.setFld Fld.TRG_GEN_CFG_EN 0 1).setFld Fld.TRG_GEN_SRC_SRC_CH 0 0).setReg .TRG_GEN_REGIONS 0 3

/-- A TRIG_OUT line in a state. -/
def trigOutIs (n : Nat) (l : TrigLine) (s : State) : State :=
  ({ s with trigOut := [(n, l)] }).setFld Fld.HUB_TRIG_OUT_CFG_EN n 1

/-- A region in a state, with PRE. -/
def regionIn (n st pre : Nat) (r : Region) (s : State) : State :=
  (({ s with regions := [(n, r)] }).setFld Fld.SEG_ARM_STATE n st).setFld Fld.SEG_PRE_PRE n pre
def filling : Region := { Region.init with fillFrom := some (.ofInt 0) }

/-- A sample; a segment under way whose one channel gets `len` samples; a directory entry of a frame. -/
def smp (code : Nat) (ovr : Bool) : Sample := ⟨BitVec.ofNat 10 code, ovr, false, false⟩
def capturing (len : Nat) : Capturing :=
  { arm := 0, n := 0, trigs := [5], pre := 3, preActual := 3, short := false, tts := 5000, source := 1, ext := false,
    unaligned := false, stale := false, stepped := false, skip := 0, counts := [len], ends := .ofInt 60000,
    cut := none, known := none }
def entryOf (n : Nat) : List Byte := dirEntry 5000 4096 1 3 0 (BitVec.ofNat 48 n)

/-- Plane p accumulates with a reference at instant 0; one of its bins is full; mask k tests plane 0. -/
def planeOn (p : Nat) (s : State) : State :=
  { ((s.setFld Fld.ACC_PLANE_SRC_CH p (p / 4 * 4)).setFld Fld.ACC_PLANE_CFG_EN p 1) with planes := [(p, ⟨[0], none⟩)] }
def binFull (p : Nat) (s : State) : State := { s with bins := [(131072 * p + 70144, 0xFFFFFFFF)] }
def maskOn (k action : Nat) (s : State) : State :=
  { (((s.setFld Fld.ACC_MASK_CFG_ABSENT k 0).setFld Fld.ACC_MASK_CFG_EN k 1).setFld Fld.ACC_MASK_CFG_ACTION k action)
    with masks := [(2 * k * 4096 + 2192, 0xFFFFFFFF#32)] }

/-- Counter i runs in a mode; a stamp; a counter with an open measurement. -/
def ticRuns (i mode : Nat) (t : Tic) (s : State) : State :=
  { (((((s.setFld Fld.TIC_STATUS_MEASURING i 1).setFld Fld.TIC_CFG_RUN i 1).setFld Fld.TIC_CFG_MODE i mode).setFld
      Fld.TIC_SRC_START i 0x20).setFld Fld.TIC_SRC_STOP i 1) with tic := [(i, t)] }
def stampAt (n : Nat) : Stamp := ⟨BitVec.ofNat 64 n, false, false⟩
def ticOpen : Tic := { Tic.init with open_ := some (stampAt 100, true) }

/-- SYNC_IN is enabled; a SYNC waits. -/
def syncInOn (s : State) : State := s.setFld Fld.HUB_SYNC_CFG_IN_EN 0 1
def syncWaits (x : SyncAt) (s : State) : State := { syncInOn s with sync := { Sync.init with waiting := [x] } }

/-- A conversion of a kind, ready at 500,000,000 tu; converter x enabled in a state. -/
def convOf (kind : Nat) : Conv := ⟨kind, 3#32, 2, 50, 500000000, false, false, false, false, 499999950, false, false⟩
def converter (x : Nat) (m : Mc) : State :=
  { run.setFld Fld.PMU_MC_CFG_EN x 1 with pmu := { run.pmu with mc := [(x, m)] }, time := 890000000 }

/-- Lantern in a state, with its timing; enabled; layer 3 shows host buffers. -/
def rasIn (st : Nat) (r : Ras) (s : State) : State := { s.setFld Fld.RAS_STATUS_STATE 0 st with ras := r }
def timed (r : Ras) : Ras :=
  { r with now := [(⟨.RAS_TIMING_H, 0⟩, 0x00100010#32), (⟨.RAS_TIMING_V, 0⟩, 0x00020002#32), (⟨.RAS_LAYER_CFG, 3⟩, 1)] }
def rasOn (s : State) : State := s.setFld Fld.RAS_CTRL_EN 0 1
def hostLayer (s : State) : State := s.setFld Fld.RAS_LAYER_SRC_KIND 3 2

/-- Queue n of a kind in a state; staged data; a CIRC descriptor; an XFER descriptor's bytes; one in execution. -/
def queueIn (n kind st : Nat) (x : Queue) (s : State) : State :=
  { (s.setFld Fld.DMA_Q_KIND_KIND n kind).setFld Fld.DMA_Q_STATUS_STATE n st with
    dma := { s.dma with queues := [(n, x)] } }
def batchOf (n : Nat) (bs : List Byte) : Batch := ⟨BitVec.ofNat 48 n, bs, 1, false, none⟩
def circ0 : Circ := ⟨0x10000, 8192, 0, 0⟩
def xferDesc (typ ev len dst src : Nat) : List Byte :=
  leBytes 1 typ ++ leBytes 1 ev ++ leBytes 2 0 ++ leBytes 4 len ++ leBytes 8 dst ++ leBytes 8 src ++ leBytes 8 0
def xferRuns (ev : Bool) : Xfer := ⟨3, 2, 4, 4096, 64, ev, false⟩

/-- Source n is set and enabled for vector v; vector v is unmasked; its bit in the pending-bit array is set. -/
def routed (n v : Nat) (s : State) : State :=
  ((s.setReg .EVT_STATUS (n / 32) (BitVec.ofNat 32 (2 ^ (n % 32)))).setReg .EVT_ENABLE (n / 32)
    (BitVec.ofNat 32 (2 ^ (n % 32)))).setFld Fld.EVT_ROUTE_TARGET n v
def unmasked (v : Nat) (s : State) : State :=
  { s with evt := { s.evt with msix := [(4 * v, 0x1000#32), (4 * v + 1, 7#32), (4 * v + 2, 5#32), (4 * v + 3, 0#32)] } }
def pendingVec (v : Nat) (s : State) : State := { s with evt := { s.evt with pba := 1#64 <<< v } }

/-- A Guyline message (R365) and the messages HELLO and DIGEST. -/
def glnMessage (typ sub seq : Nat) (p : List Byte) : List Byte :=
  let b := leBytes 1 typ ++ leBytes 1 sub ++ leBytes 2 seq ++ (p ++ List.replicate 24 0).take 24
  b ++ leBytes 4 (crc32 b).toNat
def helloMsg (mode serial crc k step pref cap inc : Nat) : List Byte :=
  glnMessage 1 mode 0 (leBytes 8 serial ++ leBytes 4 crc ++ leBytes 1 k ++ leBytes 1 step ++ leBytes 1 pref ++
    leBytes 1 cap ++ leBytes 1 inc)
def digestMsg (f crc opened fires : Nat) : List Byte :=
  glnMessage 8 0 0 (leBytes 6 f ++ leBytes 4 crc ++ leBytes 2 opened ++ leBytes 2 fires)

/-- A part in a role and mode with its link up; its twin link in a state, with Basecamp running. -/
def twinIs (role mode : Nat) (s : State) : State :=
  ((((s.setFld Fld.GLN_STATUS_ROLE 0 role).setFld Fld.GLN_STATUS_MODE 0 mode).setFld Fld.GLN_STATUS_LINK_UP 0 1).setFld
    Fld.GLN_CFG_EN 0 1).setFld Fld.GLN_STATUS_PRESENT 0 1
def glnIs (x : Gln) (s : State) : State := { s with gln := x, mgt := { Mgt.init with run := 1 } }
def attach0 : Attach := ⟨true, 0, 0, 0, 0⟩
def attaching (s : State) : State := glnIs { Gln.init with attach := some attach0 } (twinIs 0 0 s)
def frameRec (f crc : Nat) : FrameRec := ⟨BitVec.ofNat 48 f, some (BitVec.ofNat 32 crc, 1, 2), []⟩
def comparing (r : FrameRec) : State :=
  glnIs { Gln.init with own := [r] } ((twinIs 1 1 run).setFld Fld.GLN_CMP_CFG_EN 0 1)

/-- A firmware image of SVN `svn`, with a signature block by `key`; a debug response by it (Tables MGT-6, PIT-7). -/
def key : List Byte := 4 :: List.replicate 96 1
def sig : List Byte := List.replicate 96 2
def fwBody (svn : Nat) : List Byte :=
  leBytes 4 0x4D475446 ++ leBytes 2 1 ++ leBytes 2 0x1632 ++ leBytes 4 svn ++ leBytes 4 0x1234 ++ leBytes 4 8 ++
    leBytes 4 72 ++ List.replicate 40 0 ++ List.replicate 8 0xAA
def fwImage (svn : Nat) : List Byte :=
  fwBody svn ++ (leBytes 2 1 ++ leBytes 2 0 ++ leBytes 4 0 ++ key ++ List.replicate 7 0 ++ sig)
def response : List Byte := key ++ sig

/-- Basecamp running from bank 0 with a good image in bank 1; the fuses hold the digest of `key`. -/
def twoBanks : Mgt :=
  { Mgt.init with
    run := 1, fuses := [(8, Config.sha384 key), (12, Config.sha384 key)]
    flash := { Flash.init with banks := [(0, ⟨3, fwImage 1, 1⟩), (1, ⟨1, fwImage 2, 1⟩)] } }

/-- A log entry, and Basecamp with a log of four. -/
def logEntry (n : Nat) : LogEntry := ⟨n, 5, 1, 2, 3, 4, 5, 6⟩
def withLog : State :=
  basecamp { Mgt.init with
    run := 1, sram := [logEntry 5, logEntry 4], nextSeq := 5, flash := { Flash.init with log := [logEntry 2, logEntry 3] } }

/-- Basecamp with a result in the SMBus mailbox, the target enabled. -/
def smbResult : State :=
  (basecamp { Mgt.init with run := 1, smb := { Smb.init with state := 2, tag := 5, status := 1, res := [1, 2, 3, 4] } }).setFld
    Fld.MGT_SMB_CFG_EN 0 1

/-- Basecamp running, seven boots counted; clusters and dies asleep; gate nodes that a power sequence closed. -/
def upWith (s : State) : State := { s with mgt := { Mgt.init with run := 1, flash := { Flash.init with boots := 7 } } }
def asleep (clusters dies : Nat) (s : State) : State :=
  (s.setFld Fld.HUB_PWR_STATUS_CL_SLEEP 0 clusters).setFld Fld.HUB_PWR_STATUS_ENG_SLEEP 0 dies
def nodesClosed (l : List Nat) (s : State) : State :=
  l.foldl (fun s n => s.setGate n false) { s with pwr := { s.pwr with closed := l } }
def stackBytes : State := { State.reset with mem := memPutAll (memPutAll [] 4096 [1, 2, 3]) 0x400001000 [9] }

/-- Link 1 sends and checks patterns. -/
def linkTested : State := (State.reset.setFld Fld.HUB_LINK_DIAG_GEN_PAT 1 3).setFld Fld.HUB_LINK_DIAG_CHK_PAT 1 2

/-! ### What WellFormed refuses: one term for each check -/

theorem wf_accepts : (Instr.registerWrite 0 0x1A20000 15 1).wf = true ∧ (Instr.schedNone 0 3 0).wf = true := by decide
theorem wf_refuses_short_descriptor : (Instr.frameTick [⟨3, some [1]⟩]).wf = false := by decide
theorem wf_refuses_second_answer : (Instr.pitchApplyT2 [⟨3, none⟩, ⟨3, none⟩]).wf = false := by decide
theorem wf_refuses_unaligned_write : (Instr.registerWrite 0 2 15 1).wf = false := by decide
theorem wf_refuses_unaligned_read : (Instr.latchingRead 0 6 false).wf = false := by decide
theorem wf_refuses_wide_read_off_8 : (Instr.latchingRead 0 4 true).wf = false := by decide
theorem wf_refuses_six_taps : (Instr.shadowWindowEnd 0 0 ⟨[], 0, 0, 0, 0, [1, 2, 3, 4, 5, 6]⟩).wf = false := by decide
theorem wf_refuses_six_values : (Instr.afeOvr 0 0 [1, 2, 3, 4, 5, 6] false).wf = false := by decide
theorem wf_refuses_fit_without_taps : (Instr.calPreloadStart 0 0 ⟨0, 0, 0, 0, []⟩).wf = false := by decide
theorem wf_refuses_empty_read : (Instr.bar2Read 0 0 0).wf = false := by decide
theorem wf_refuses_read_past_end : (Instr.bar2Read 0 0xFFFFFFFFF 2).wf = false := by decide +kernel
theorem wf_refuses_empty_write : (Instr.bar2Write 0 0 []).wf = false := by decide
theorem wf_refuses_seven_layers : (Instr.rasVblank 0 ⟨List.replicate 7 []⟩).wf = false := by decide
theorem wf_refuses_no_descriptor : (Instr.descriptorFetch 0 0 []).wf = false := by decide
theorem wf_refuses_short_xfer : (Instr.descriptorFetch 0 0 [[1, 2]]).wf = false := by decide
theorem wf_refuses_short_message : (Instr.hello 0 [1, 2, 3]).wf = false := by decide
theorem wf_refuses_thirteen_sensors : (Instr.sensorSample 0 (List.replicate 13 0)).wf = false := by decide
theorem wf_refuses_four_temperatures : (Instr.thermalCheck 0 [1, 2, 3, 4]).wf = false := by decide
theorem wf_refuses_short_nonce : (Instr.mbDebugChallenge 0 0 [1]).wf = false := by decide
theorem wf_refuses_second_reading :
    (Instr.pmbusPoll 0 [⟨1, false, 0, 0, 0, 0⟩, ⟨1, true, 0, 0, 0, 0⟩]).wf = false := by decide
theorem wf_refuses_nine_runs : (Instr.segmentClose 0 (List.replicate 9 [])).wf = false := by decide

/-! ### Examples that the manual works out -/

/-- 00_scope.md: TTS 0x8000_1200 lies in frame 256, 4,608 tu after its tick. -/
theorem test_frame_of_tts :
    frameAt 10 0 0x80001200 = 256 ∧ (0x80001200 : Tu) - tickTime 10 256 = 4608 := by decide +kernel

/-- 01_architecture.md, 16_events.md, 21_register_reference.md: where registers lie. -/
theorem test_offsets :
    regAt 0x1A20000 = some ⟨.TRG_LEVEL, 12⟩ ∧ regAt 0x1E00538 = some ⟨.SEG_RELEASE, 21⟩ ∧
      regAt 0x12402A4 = some ⟨.ACC_VIOL_CNT, 13⟩ ∧ regAt 0x400024 = some ⟨.EVT_STATUS, 9⟩ ∧
      regAt 0x40001C = some ⟨.EVT_STATUS, 7⟩ := by decide +kernel

/-- 02_frame_tick.md: of two writes 68 ns and 56 ns before tick 5,001, the first commits at it. -/
theorem test_snapshot :
    (atTime (ns 5121024) State.reset).inSnapshot (BitVec.ofNat 64 (ns 5120956)) = true ∧
      (atTime (ns 5121024) State.reset).inSnapshot (BitVec.ofNat 64 (ns 5120968)) = false := by decide +kernel

/-- 03_pitch_image.md: CAP at Gen1 ×1 and at Gen5 ×8, with STALL_SHARE 10. -/
def hdrOf (gen width : Nat) : List Byte :=
  hdr.take 33 ++ leBytes 1 gen ++ leBytes 1 width ++ hdr.drop 35
theorem test_cap : linkCap (hdrOf 1 1) = -786 ∧ linkCap (hdrOf 5 8) = 26000 := by decide +kernel

/-- 04_clock_sources.md: the echo of the example gives D = 4,090,400 tu. -/
def echoed : State :=
  atTime 1009000000 { State.reset with tlk := { State.reset.tlk with echo := some (3, 1000000000), echoOpen := true } }
theorem test_echo :
    ((echoed.setFld Fld.TLK_CTRL_DELAY_MODE 0 1).echoRsp 3 819200).fld Fld.TLK_DELAY_MEAS_VALUE 0 = 4090400 := by
  decide +kernel

/-- 04_clock_sources.md: the TICK of frame 5,001 at 41,955,519,020 tu then has e = +12 tu. -/
def marked : State :=
  atTime 41955519020 { State.reset with tlk := { State.reset.tlk with delays := [2 * 4090400] } }
theorem test_marker :
    tuDiff (tickTime 10 5001) (marked.setFld Fld.TLK_CTRL_DELAY_MODE 0 1).arrival = 12 := by decide +kernel

/-- 05_plls.md: from 8,000,000 kS/s, a move to 8,001,000 is a FOLLOW and one to 7,000,000 a RAMP. -/
def tuned : State :=
  { (((State.reset.setFld Fld.PLL_SPLL_RATE_NOW_RATE 0 8000000).setFld Fld.PLL_SPLL_STATUS_LOCK 0 1).setFld
      Fld.PLL_SPLL_STATUS_STATE 0 0) with
    spll := [(0, { Spll.init with target := 8000000 })] }
theorem test_follow_or_ramp :
    (tuned.commitRate 0 8001000).spllState 0 = 1 ∧ (tuned.commitRate 0 7000000).spllState 0 = 2 := by decide +kernel

/-- 07_interleaved_conversion.md: three samples in PACK10 and in WIDE16. -/
def threeSamples : List Placed :=
  [⟨smp 511 true, false⟩, ⟨smp 0x3F0 false, false⟩, ⟨smp 5 false, true⟩]
theorem test_pack10 :
    let w := packWord [] threeSamples 0 0 false
    w.take 4 = [0xFF, 0xC1, 0x5F, 0x00] ∧ w.drop 15 = [0x05] := by decide +kernel
theorem test_wide16 : threeSamples.map wide16 = [0x7FC1, 0xFC00, 0x0144] := by decide +kernel

/-- 08_trigger.md: the first sample at or after TTS 335,569,490,824 has index 24,005. -/
def example8 : State :=
  { ((((State.reset.setFld Fld.PLL_SPLL_STATUS_ALIGNED 1 1).setFld Fld.PLL_SPLL_RATE_NOW_RATE 1 7812500).setFld
      Fld.PLL_SPLL_STATUS_OFS_NOW 1 16).setFld Fld.PLL_SPLL_PHASE_OFS 1 16) with
    spll := [(1, { Spll.init with target := 7812500, anchor := tickTime 10 40000 })] }
theorem test_sample_index : example8.sampleAt 1 1 (.ofTu 335569490824) = 24005 := by decide +kernel

/-- 10_reduction_and_filtering.md: 2.5 and 1.5 both round to the even value 2. -/
theorem test_convergent_rounding : divRound 1280 512 = 2 ∧ divRound 768 512 = 2 := by decide

/-- 11_accumulation_and_masks.md: a sample 1,000 tu after its reference, of code +100, lies in bin (90, 153). -/
def eyePlane : State :=
  { ((((((State.reset.setFld Fld.ACC_PLANE_CFG_XMODE 4 1).setFld Fld.ACC_PLANE_UI_UI 4 0x50000).setFld
      Fld.ACC_PLANE_XOFS_XOFS 4 0xFFFFFD80).setFld Fld.ACC_PLANE_SPAN_SPAN 4 2560).setFld Fld.ACC_PLANE_X_BIN 4 4).setFld
      Fld.ACC_PLANE_X_XB 4 20) with planes := [(4, ⟨[7000], none⟩)] }
theorem test_bin :
    eyePlane.column 4 (.ofInt 8000) = some 90 ∧ eyePlane.row 4 100 = some 153 ∧
      153 * eyePlane.xBins 4 + 90 = 49050 := by decide +kernel

/-- 14_raster_engine.md: the timing checks of the panel, and two look-up entries. -/
theorem test_raster_timing :
    timingOk 1280 160 24 4 500 72000 1 = true ∧ timingOk 1280 160 24 4 500 76800 1 = true := by decide +kernel
theorem test_lut : lutIndex true 0 1000000 = 160 ∧ lutIndex true 0 0xFFFFFFFF = 255 := by decide +kernel

/-- 15_host_interface_dma.md: the staging minimum of a stream of 250 MB/s with L = 8 is 4,096 bytes. -/
theorem test_staging_minimum :
    stageMin hdr [⟨6, 5, streamBody 1 10 8 0 64 3⟩, ⟨2, 2, leBytes 8 0⟩, ⟨1, 1, leBytes 8 8000⟩] 5 = 4096 := by
  decide +kernel

/-- No row of the command table has bits. -/
theorem test_no_word_is_a_command : decodeTableWord 32 0x1234 = none := by decide

/-! ### States and operands that meet the hypotheses of each obligation, clause by clause -/

/-- What holds for every value of an absent option. -/
theorem none_all {α : Type} {P : α → Prop} {o : Option α} (h : o = none) : ∀ x, o = some x → P x := by
  rintro x rfl
  cases h

/-- Where nothing triggered is on its way, nothing has reached a converter. -/
theorem none_triggered {s : State} {x : Tu} (h : ∀ y, y < 2 → (s.mc y).due = []) : noneTriggered s x := by
  intro y hy d hd
  rw [h y hy] at hd
  cases hd

theorem witness_StepRunsFrontCommand :
    (∃ (c : Instr) (rest : List Instr) (s : State),
      s.pending = c :: rest) ∧
    (∃ (s : State),
      s.pending = []) :=
  ⟨⟨.mgtBoot 100, [.powerOff], { State.reset with pending := [.mgtBoot 100, .powerOff] }, by decide +kernel⟩,
    ⟨State.reset, by decide +kernel⟩⟩

theorem witness_EveryStepKeepsInvariant :
    ∃ (s : State) (t : State),
      (regsWf s.regs = true ∧ (s.regs.all fun e => !hardWired e.1.n) = true) ∧ Memory.wf s.mem = true ∧
      step s = Host.Outcome.next t :=
  ⟨{ rich with pending := [.frameTick []] }, after { rich with pending := [.frameTick []] }, by decide +kernel,
  by decide +kernel, step_after _ (by decide +kernel)⟩

theorem witness_EveryCommandCompletes :
    ∃ (s : State),
      (regsWf s.regs = true ∧ (s.regs.all fun e => !hardWired e.1.n) = true) ∧ Memory.wf s.mem = true :=
  ⟨rich, by decide +kernel⟩

theorem witness_ResetLeaves :
    (∃ (w : ℕ),
      w < 16) ∧
    (∃ (v : ℕ),
      v < 64) ∧
    (∃ (q : ℕ),
      q < 64) :=
  ⟨⟨15, by decide +kernel⟩,
    ⟨63, by decide +kernel⟩,
    ⟨63, by decide +kernel⟩⟩

theorem witness_RegisterWriteStores :
    (∃ (s : State) (a : Bar0) (be : BitVec 4) (r : Reg),
      s.hostUp = true ∧ regAt (BitVec.toNat a) = some r ∧ r.n ∈ storedOnly ∧ be = 15#4) ∧
    (∃ (s : State) (be : BitVec 4),
      s.hostUp = true ∧ be ≠ 15#4) :=
  ⟨⟨State.reset, 24#26, 15#4, { n := Sys2Proof.RegName.HUB_SCRATCH, i := 0 }, by decide +kernel⟩,
    ⟨State.reset, 3#4, by decide +kernel⟩⟩

theorem witness_ShadowedValuesWait :
    (∃ (s : State) (t : Tu) (a : Bar0) (r : Reg),
      s.hostUp = true ∧ regAt (BitVec.toNat a) = some r ∧ shMask r ≠ 0 ∧ accMask r.n Access.RW = 0 ∧
      accMask r.n Access.W1C = 0 ∧ accMask r.n Access.WO = 0 ∧ (s.nowAt t).regAsleep r = false ∧
      (s.nowAt t).unitAbsent r = false ∧ (r.n ≠ RegName.SEG_ARM ∨ (s.nowAt t).fld Fld.HUB_PITCH_STATUS_STATE 0 ≠ 2)) ∧
    (∃ (s : State) (t : Tu) (a : Bar0) (r : Reg),
      s.hostUp = true ∧ regAt (BitVec.toNat a) = some r ∧ shMask r ≠ 0 ∧ accMask r.n Access.RW = 0 ∧
      accMask r.n Access.W1C = 0 ∧ accMask r.n Access.WO = 0 ∧
      ((s.nowAt t).regAsleep r = true ∨ (s.nowAt t).unitAbsent r = true ∨ r.n = RegName.SEG_ARM ∧
      (s.nowAt t).fld Fld.HUB_PITCH_STATUS_STATE 0 = 2)) ∧
    (∃ (s : State),
      s.hostUp = true) :=
  ⟨⟨State.reset, 100, 1081668#26, ⟨.PLL_SPLL_RATE, 1⟩, by decide +kernel⟩,
    ⟨State.reset.setReg .HUB_PWR_STATUS 0 4, 100, 17826564#26, ⟨.AFE_OFFSET, 3⟩, by decide +kernel⟩,
    ⟨State.reset, by decide +kernel⟩⟩

theorem witness_AccessesClearAndLatch :
    (∃ (s : State) (t : Tu) (a : Bar0) (r : Reg),
      s.hostUp = true ∧ regAt (BitVec.toNat a) = some r ∧ (s.nowAt t).regAsleep r = false ∧ r.n ≠ RegName.EVT_STATUS ∧
      accMask r.n Access.W1C ≠ 0 ∧ accMask r.n Access.RW = 0 ∧ accMask r.n Access.WO = 0 ∧ accMask r.n Access.SH = 0 ∧
      (s.nowAt t).unitAbsent r = false) ∧
    (∃ (s : State) (t : Tu) (a : Bar0) (r : Reg),
      s.hostUp = true ∧ regAt (BitVec.toNat a) = some r ∧ (s.nowAt t).regAsleep r = false ∧ accMask r.n Access.RC ≠ 0 ∧
      r.n.latches = []) ∧
    (∃ (s : State),
      (regsWf s.regs = true ∧ (s.regs.all fun e => !hardWired e.1.n) = true) ∧ Memory.wf s.mem = true ∧ s.hostUp = true) :=
  ⟨⟨State.reset, 100, 48#26, ⟨.HUB_RESET_CAUSE, 0⟩, by decide +kernel⟩,
    ⟨State.reset, 100, 292#26, ⟨.HUB_HOST_STALL_MAX, 0⟩, by decide +kernel⟩,
    ⟨State.reset, by decide +kernel⟩⟩

theorem witness_SlotCapturesCommand :
    ∃ (s : State),
      s.hostUp = true :=
  ⟨State.reset, by decide +kernel⟩

theorem witness_TimeFollowsTheGrid :
    (∃ (s : State) (f : Frame),
      (regsWf s.regs = true ∧ (s.regs.all fun e => !hardWired e.1.n) = true) ∧ Memory.wf s.mem = true ∧ s.alive = true ∧
      s.pitched = true ∧ s.standby = false ∧ s.tlk.step = none ∧ (s.tick.issued = true ∧
      f = frameAt s.k s.frame s.nextGrid ∧ frameFuture s.frame f = true ∨ s.tick.issued = false ∧
      f = BitVec.ofNat 48 (BitVec.toNat s.nextGrid / s.period))) ∧
    (∃ (s : State),
      (regsWf s.regs = true ∧ (s.regs.all fun e => !hardWired e.1.n) = true) ∧ Memory.wf s.mem = true ∧ s.alive = true ∧
      s.pitched = false ∧ s.standby = false ∧ s.pitch.accepted = none) ∧
    (∃ (s : State) (e : ℤ),
      (regsWf s.regs = true ∧ (s.regs.all fun e => !hardWired e.1.n) = true) ∧ Memory.wf s.mem = true ∧ s.alive = true ∧
      s.pitched = true ∧ s.standby = false ∧ s.tlk.step = some e ∧ s.tlk.stepFrame = none ∧
      s.fld Fld.EVT_ROUTE_KIND 36 ≠ 1) :=
  ⟨⟨pitchedOnly, 1, by decide +kernel⟩,
    ⟨State.reset, by decide +kernel⟩,
    ⟨{ pitchedOnly with tlk := { Tlk.init with step := some (-20000) } }, -20000, by decide +kernel⟩⟩

theorem witness_ImagesApplyAtTicks :
    (∃ (s : State) (f : Frame) (a : Accepted),
      (regsWf s.regs = true ∧ (s.regs.all fun e => !hardWired e.1.n) = true) ∧ Memory.wf s.mem = true ∧ s.alive = true ∧
      s.pitched = true ∧ s.standby = false ∧ s.tlk.step = none ∧ (s.tick.issued = true ∧
      f = frameAt s.k s.frame s.nextGrid ∧ frameFuture s.frame f = true ∨ s.tick.issued = false ∧
      f = BitVec.ofNat 48 (BitVec.toNat s.nextGrid / s.period)) ∧ s.pitch.accepted = some a ∧ a.cluster = none ∧
      s.pitch.t1 = none ∧ tuLe (tuAdd a.at_ (ns 64)) s.nextGrid = true) ∧
    (∃ (s : State) (f : Frame) (a : Accepted) (f0 : Frame),
      (regsWf s.regs = true ∧ (s.regs.all fun e => !hardWired e.1.n) = true) ∧ Memory.wf s.mem = true ∧ s.alive = true ∧
      s.pitched = true ∧ s.standby = false ∧ s.tlk.step = none ∧ (s.tick.issued = true ∧
      f = frameAt s.k s.frame s.nextGrid ∧ frameFuture s.frame f = true ∨ s.tick.issued = false ∧
      f = BitVec.ofNat 48 (BitVec.toNat s.nextGrid / s.period)) ∧ s.pitch.accepted = some a ∧ s.pitch.t1 = some f0 ∧
      s.pitch.drained = false ∧ s.drainedAll = false ∧ s.gln.deposed = false ∧ 64 ≤ BitVec.toNat (f - f0)) ∧
    (∃ (s : State) (f : Frame) (a : Accepted) (f0 : Frame),
      (regsWf s.regs = true ∧ (s.regs.all fun e => !hardWired e.1.n) = true) ∧ Memory.wf s.mem = true ∧ s.alive = true ∧
      s.pitched = true ∧ s.standby = false ∧ s.tlk.step = none ∧ (s.tick.issued = true ∧
      f = frameAt s.k s.frame s.nextGrid ∧ frameFuture s.frame f = true ∨ s.tick.issued = false ∧
      f = BitVec.ofNat 48 (BitVec.toNat s.nextGrid / s.period)) ∧ s.pitch.accepted = some a ∧ s.pitch.t1 = some f0 ∧
      s.pitch.drained = true ∧ a.hdr ≠ []) ∧
    (∃ (s : State) (f : Frame) (a : Accepted) (c : ℕ),
      (regsWf s.regs = true ∧ (s.regs.all fun e => !hardWired e.1.n) = true) ∧ Memory.wf s.mem = true ∧ s.alive = true ∧
      s.pitched = true ∧ s.standby = false ∧ s.tlk.step = none ∧ (s.tick.issued = true ∧
      f = frameAt s.k s.frame s.nextGrid ∧ frameFuture s.frame f = true ∨ s.tick.issued = false ∧
      f = BitVec.ofNat 48 (BitVec.toNat s.nextGrid / s.period)) ∧ s.pitch.accepted = some a ∧ a.cluster = some c ∧
      c < 4 ∧ s.pitch.t1 = none ∧ tuLe (tuAdd a.at_ (ns 64)) s.nextGrid = true ∧ s.clusterIdle c a.recs = true) :=
  ⟨⟨applying acceptedFull none false, 1, acceptedFull, by decide +kernel⟩,
    ⟨(let s := applying acceptedFull (some 0) false; queueIn 0 1 2 { Queue.init with staged := [batchOf 3 [1]] } { s with frame := 63, time := BitVec.ofNat 64 (63 * 2 ^ 23) }),
      64, acceptedFull, 0, by decide +kernel⟩,
    ⟨applying acceptedFull (some 0) true, 1, acceptedFull, 0, by decide +kernel⟩,
    ⟨applying acceptedPart none false, 1, acceptedPart, 1, by decide +kernel⟩⟩

set_option maxRecDepth 100000 in
theorem witness_ImagesAreLoaded :
    (∃ (s : State) (x : List Byte) (h : List Byte) (rs : List ImgRec),
      s.hostUp = true ∧ s.mgt.run = 1 ∧ s.fld Fld.MGT_MB_CMD_CMD 0 = 16 ∧ s.fld Fld.MGT_MB_STATE_STATE 0 = 0 ∧
      s.pitchBusy = false ∧ 64 ≤ argAt s.mbArgs 2 ∧ argAt s.mbArgs 2 ≤ 1048576 ∧
      s.judgeImage (List.take (argAt s.mbArgs 2) x) = Verdict.accept h rs ∧ argAt s.mbArgs 3 % 2 = 0) ∧
    (∃ (s : State) (x : List Byte) (h : List Byte) (rs : List ImgRec),
      s.hostUp = true ∧ s.mgt.run = 1 ∧ s.fld Fld.MGT_MB_CMD_CMD 0 = 16 ∧ s.fld Fld.MGT_MB_STATE_STATE 0 = 0 ∧
      s.pitchBusy = false ∧ 64 ≤ argAt s.mbArgs 2 ∧ argAt s.mbArgs 2 ≤ 1048576 ∧
      s.judgeImage (List.take (argAt s.mbArgs 2) x) = Verdict.accept h rs ∧ argAt s.mbArgs 3 % 2 = 1) ∧
    (∃ (s : State) (x : List Byte) (code : ℕ) (detail : ℕ),
      s.hostUp = true ∧ s.mgt.run = 1 ∧ s.fld Fld.MGT_MB_CMD_CMD 0 = 16 ∧ s.fld Fld.MGT_MB_STATE_STATE 0 = 0 ∧
      s.pitchBusy = false ∧ 64 ≤ argAt s.mbArgs 2 ∧ argAt s.mbArgs 2 ≤ 1048576 ∧
      s.judgeImage (List.take (argAt s.mbArgs 2) x) = Verdict.refuse code detail) ∧
    (∃ (s : State),
      s.hostUp = true ∧ s.mgt.run = 1 ∧ s.fld Fld.MGT_MB_CMD_CMD 0 = 17 ∧ s.fld Fld.MGT_MB_STATE_STATE 0 = 0 ∧
      s.pitchBusy = false ∧ argAt s.mbArgs 0 ≤ 1 ∧ s.pitched = true ∧ s.fuse 7 % 2 = 0) ∧
    (∃ (s : State) (h : List Byte) (rs : List ImgRec),
      s.alive = true ∧ s.fld Fld.HUB_BOOT_STATUS_PHASE 0 = 3 ∧ s.mgt.run = 1 ∧ s.pitched = false ∧
      s.judgeImage (s.slotBytes 0) = Verdict.accept h rs ∧ h ≠ []) ∧
    (∃ (s : State) (c : ℕ) (d : ℕ) (c' : ℕ) (d' : ℕ),
      s.alive = true ∧ s.fld Fld.HUB_BOOT_STATUS_PHASE 0 = 3 ∧ s.mgt.run = 1 ∧ s.pitched = false ∧
      s.judgeImage (s.slotBytes 0) = Verdict.refuse c d ∧ s.judgeImage (s.slotBytes 1) = Verdict.refuse c' d') :=
  ⟨⟨mailbox 0x10 [0, 0, 816, 0] State.reset, image, image.take 64, bareRecs, by decide +kernel⟩,
    ⟨mailbox 0x10 [0, 0, 816, 1] State.reset, image, image.take 64, bareRecs, by decide +kernel⟩,
    ⟨mailbox 0x10 [0, 0, 816, 0] State.reset, image.drop 1, 1, 0xFFFF, by decide +kernel⟩,
    ⟨mailbox 0x11 [] run, by decide +kernel⟩,
    ⟨{ (State.reset.setFld Fld.HUB_BOOT_STATUS_PHASE 0 3) with mgt := { Mgt.init with run := 1, flash := { Flash.init with images := [(0, image)] } } },
      image.take 64, bareRecs, by decide +kernel⟩,
    ⟨{ (State.reset.setFld Fld.HUB_BOOT_STATUS_PHASE 0 3) with mgt := { Mgt.init with run := 1 } }, 1, 0xFFFF, 1,
      0xFFFF, by decide +kernel⟩⟩

theorem witness_SourceSettingsAct :
    (∃ (s : State) (v : Word),
      s.hostUp = true ∧ s.fld Fld.EVT_ROUTE_KIND 1 ≠ 1 ∧ s.fld Fld.EVT_ROUTE_KIND 2 ≠ 1 ∧ s.active = 0 ∧
      getBits v 0 2 = 3) ∧
    (∃ (s : State) (v : Word),
      s.hostUp = true ∧ s.fld Fld.EVT_ROUTE_KIND 1 ≠ 1 ∧ s.fld Fld.EVT_ROUTE_KIND 2 ≠ 1 ∧ s.active = 1 ∧
      (getBits v 0 2 = 1 ∨ getBits v 0 2 = 3) ∧ BitVec.getLsbD v 2 = false) ∧
    (∃ (s : State),
      s.hostUp = true ∧ s.fld Fld.EVT_ROUTE_KIND 1 ≠ 1 ∧ s.fld Fld.EVT_ROUTE_KIND 2 ≠ 1 ∧
      s.flag Fld.TLK_CTRL_ENABLE 0 = true ∧ s.active = 0 ∧ s.fld Fld.CLK_SRC_CFG_PREF 0 ≠ 2 ∧ s.qualified 1 = true) ∧
    (∃ (s : State),
      s.hostUp = true ∧ s.fld Fld.EVT_ROUTE_KIND 1 ≠ 1 ∧ s.fld Fld.EVT_ROUTE_KIND 2 ≠ 1 ∧
      s.flag Fld.TLK_CTRL_ENABLE 0 = false ∧ s.active = 1 ∧ s.flag Fld.CLK_SRC_CFG_REVERT 0 = false ∧
      s.fld Fld.CLK_SRC_CFG_PREF 0 ≠ 2) :=
  ⟨⟨(State.reset.setFld Fld.CLK_SRC_STATUS_ACTIVE 0 0), 3, by decide +kernel⟩,
    ⟨(State.reset.setFld Fld.CLK_SRC_STATUS_ACTIVE 0 1), 1, by decide +kernel⟩,
    ⟨((State.reset.setFld Fld.CLK_SRC_STATUS_ACTIVE 0 0).setFld Fld.CLK_SRC_STATUS_REFIN_QUAL 0 1), by decide +kernel⟩,
    ⟨(((State.reset.setFld Fld.CLK_SRC_STATUS_ACTIVE 0 1).setFld Fld.TLK_CTRL_ENABLE 0 0).setFld Fld.CLK_SRC_CFG_REVERT 0 0),
      by decide +kernel⟩⟩

theorem witness_SourcesAreMonitored :
    (∃ (s : State) (t : Tu) (x : ℕ) (link : QualMeas) (refin : QualMeas),
      s.alive = true ∧ s.standby = false ∧ x < 2 ∧ s.active = 1 - x ∧ s.prefs.contains x = true ∧
      s.beyondMon (if x = 0 then refin else link).ppm = false ∧ s.flag Fld.CLK_SRC_CFG_REVERT 0 = false ∧
      (s.at t).qualDue = true ∧ (if x = 0 then link else refin).ppm.toInt.natAbs ≤ max 1 (s.fld Fld.CLK_QUAL_PPM 0) ∧
      (if x = 0 then link else refin).broken = false ∧ (x = 0 → s.linkOk = true ∧ s.clk.linkBroke = false)) ∧
    (∃ (s : State) (t : Tu) (x : ℕ) (link : QualMeas) (refin : QualMeas),
      s.alive = true ∧ s.standby = false ∧ x < 2 ∧ s.active = 1 - x ∧ s.prefs.contains x = true ∧
      s.beyondMon (if x = 0 then refin else link).ppm = false ∧ s.flag Fld.CLK_SRC_CFG_REVERT 0 = false ∧
      (s.at t).qualDue = true ∧
      (max 1 (s.fld Fld.CLK_QUAL_PPM 0) < (if x = 0 then link else refin).ppm.toInt.natAbs ∨ (if x = 0 then link else refin).broken = true ∨ x = 0 ∧
      (s.linkOk = false ∨ s.clk.linkBroke = true))) ∧
    (∃ (s : State) (t : Tu) (cause : TripCause),
      s.alive = true ∧ s.standby = false ∧ s.active < 2 ∧ (s.at t).tripHolds cause = true) ∧
    (∃ (s : State) (t : Tu) (t0 : Tu),
      s.alive = true ∧ s.standby = false ∧ s.clk.noSrcFrom = some t0 ∧ s.active = 2 ∧
      tuLe (tuAdd t0 (ns (1000000 * max 1 (s.fld Fld.CLK_QUAL_TIMEOUT 0)))) (s.at t).time = true) :=
  ⟨⟨atTime 81920000 ((State.reset.setFld Fld.CLK_SRC_STATUS_ACTIVE 0 0).setFld Fld.CLK_SRC_CFG_REVERT 0 0), 100, 1,
      ⟨3, false⟩, ⟨3, false⟩, by decide +kernel⟩,
    ⟨atTime 81920000 ((State.reset.setFld Fld.CLK_SRC_STATUS_ACTIVE 0 0).setFld Fld.CLK_SRC_CFG_REVERT 0 0), 100, 1,
      ⟨3, false⟩, ⟨1000, false⟩, by decide +kernel⟩,
    ⟨(State.reset.setFld Fld.CLK_SRC_STATUS_ACTIVE 0 1), 100, .edgeGap 1000, by decide +kernel⟩,
    ⟨({ State.reset with time := 10000000000000 }), 100, 0, by decide +kernel⟩⟩

theorem witness_TimingLinkIsReceived :
    (∃ (s : State) (up : Bool),
      s.alive = true ∧ s.standby = false ∧ s.active ≠ 0 ∧ up ≠ s.flag Fld.TLK_STATUS_BLOCK_LOCK 0 ∧
      (up = true → s.flag Fld.TLK_CTRL_ENABLE 0 = true)) ∧
    (∃ (s : State),
      s.alive = true ∧ s.standby = false ∧ s.active ≠ 0 ∧ s.flag Fld.TLK_STATUS_HI_BER 0 = false) ∧
    (∃ (s : State),
      s.alive = true ∧ s.standby = false ∧ s.active ≠ 0) ∧
    (∃ (s : State) (m : BitVec 64),
      s.alive = true ∧ s.tlkRx = true ∧ tlkCrcOk m = true ∧ tlkTyp m = 11) ∧
    (∃ (s : State) (typ : Byte),
      s.alive = true ∧ s.tlkRx = true ∧ typ ≠ 30 ∧ s.fld Fld.TLK_ERR_UNKNOWN 0 < 65535) ∧
    (∃ (s : State) (m : BitVec 64),
      s.alive = true ∧ s.tlkRx = true ∧ tlkCrcOk m = true ∧ (tlkTyp m = 0 ∨ tlkTyp m = 8 ∨ 12 ≤ tlkTyp m) ∧
      s.fld Fld.TLK_ERR_UNKNOWN 0 < 65535) ∧
    (∃ (s : State) (m : BitVec 64),
      s.alive = true ∧ s.tlkRx = true ∧ tlkCrcOk m = false ∧ s.fld Fld.TLK_ERR_CRC 0 < 65535) ∧
    (∃ (s : State),
      s.alive = true ∧ s.pitched = true ∧ s.tick.issued = true ∧ BitVec.toNat s.frame % 1024 = 0 ∧ s.tlk.echo = none ∧
      s.flag Fld.TLK_CTRL_DELAY_MODE 0 = true ∧ s.tlkTx = true) ∧
    (∃ (s : State) (t : Tu) (tx : Tu) (m : BitVec 64),
      s.alive = true ∧ s.tlkRx = true ∧ tlkCrcOk m = true ∧ tlkTyp m = 7 ∧ s.tlk.echo = some (tlkSub m, tx) ∧
      (∀ d ∈ s.tlk.delays, d ≤ 2 * (2 ^ 24 - 1)) ∧ s.tlk.echoOpen = true ∧ s.flag Fld.TLK_CTRL_DELAY_MODE 0 = true ∧
      ↑(tlkArg m) ≤ tuDiff tx (s.at t).time ∧ tuDiff tx (s.at t).time - ↑(tlkArg m) ≤ 2 * (2 ^ 24 - 1)) :=
  ⟨⟨State.reset, true, by decide +kernel⟩,
    ⟨State.reset, by decide +kernel⟩,
    ⟨State.reset, by decide +kernel⟩,
    ⟨(State.reset.setFld Fld.TLK_STATUS_BLOCK_LOCK 0 1), tlkMsg 11 0 77, by decide +kernel⟩,
    ⟨(State.reset.setFld Fld.TLK_STATUS_BLOCK_LOCK 0 1), 0#8, by decide +kernel⟩,
    ⟨(State.reset.setFld Fld.TLK_STATUS_BLOCK_LOCK 0 1), tlkMsg 0 0 5, by decide +kernel⟩,
    ⟨(State.reset.setFld Fld.TLK_STATUS_BLOCK_LOCK 0 1), 100, by decide +kernel⟩,
    ⟨({ State.reset with pitch := run.pitch, tick := run.tick }), by decide +kernel⟩,
    ⟨({ (State.reset.setFld Fld.TLK_STATUS_BLOCK_LOCK 0 1) with tlk := { Tlk.init with echo := some (0, 100), echoOpen := true } }),
      3000000, 100, tlkMsg 7 0 100, by decide +kernel⟩⟩

theorem witness_MarkersSteerTime :
    (∃ (s : State) (m : BitVec 64),
      s.alive = true ∧ s.tlkRx = true ∧ tlkCrcOk m = true ∧ tlkTyp m = 1 ∧ 8 ≤ tlkSub m ∧ tlkSub m ≤ 14 ∧
      s.epochFollows = false ∧ s.tlk.step = none) ∧
    (∃ (s : State) (m : BitVec 64),
      s.alive = true ∧ s.tlkRx = true ∧ tlkCrcOk m = true ∧ tlkTyp m = 1 ∧ 8 ≤ tlkSub m ∧ tlkSub m ≤ 14 ∧
      s.epochFollows = false ∧ s.tlk.step = none ∧ s.flag Fld.TLK_STATUS_EPOCH_VALID 0 = false ∧ s.qualified 0 = true ∧
      s.pitched = true) ∧
    (∃ (s : State) (m : BitVec 64),
      s.alive = true ∧ s.tlkRx = true ∧ tlkCrcOk m = true ∧ tlkTyp m = 1 ∧ 8 ≤ tlkSub m ∧ tlkSub m ≤ 14 ∧
      s.epochFollows = false ∧ s.tlk.step = none ∧ s.flag Fld.TLK_STATUS_EPOCH_VALID 0 = false ∧ s.qualified 0 = true ∧
      s.pitched = false) ∧
    (∃ (s : State) (t : Tu) (m : BitVec 64),
      s.alive = true ∧ s.tlkRx = true ∧ tlkCrcOk m = true ∧ tlkTyp m = 1 ∧ 8 ≤ tlkSub m ∧ tlkSub m ≤ 14 ∧
      s.epochFollows = false ∧ s.tlk.step = none ∧ s.flag Fld.TLK_STATUS_EPOCH_VALID 0 = true ∧ s.active = 0 ∧
      s.tlk.fresh = false ∧ s.fld Fld.TLK_RELOCK_WINDOW 0 < (markerError s t m).natAbs ∧ s.tlk.actSlew = false ∧
      s.flag Fld.TLK_RELOCK_POLICY 0 = false) ∧
    (∃ (s : State) (t : Tu) (m : BitVec 64),
      s.alive = true ∧ s.tlkRx = true ∧ tlkCrcOk m = true ∧ tlkTyp m = 1 ∧ 8 ≤ tlkSub m ∧ tlkSub m ≤ 14 ∧
      s.epochFollows = false ∧ s.tlk.step = none ∧ s.flag Fld.TLK_STATUS_EPOCH_VALID 0 = true ∧ s.active = 0 ∧
      s.tlk.fresh = false ∧ s.fld Fld.TLK_RELOCK_WINDOW 0 < (markerError s t m).natAbs ∧ s.tlk.actSlew = false ∧
      s.flag Fld.TLK_RELOCK_POLICY 0 = true) ∧
    (∃ (s : State) (t : Tu) (m : BitVec 64),
      s.alive = true ∧ s.tlkRx = true ∧ tlkCrcOk m = true ∧ tlkTyp m = 1 ∧ 8 ≤ tlkSub m ∧ tlkSub m ≤ 14 ∧
      s.epochFollows = false ∧ s.tlk.step = none ∧ s.flag Fld.TLK_STATUS_EPOCH_VALID 0 = true ∧ s.active = 0 ∧
      s.tlk.fresh = true ∧ (markerError s t m).natAbs ≤ s.fld Fld.TLK_RELOCK_WINDOW 0 ∧
      s.fld Fld.TLK_MARK_TOL 0 < (markerError s t m).natAbs) ∧
    (∃ (s : State),
      s.hostUp = true ∧ s.relockState = 2 ∧ s.epochFollows = false) ∧
    (∃ (s : State),
      s.hostUp = true ∧ s.relockState = 2 ∧ s.tlk.lastE.natAbs ≤ 8192000 ∧ s.fld Fld.TLK_MARK_TOL 0 < s.tlk.lastE.natAbs) ∧
    (∃ (s : State),
      s.hostUp = true ∧ s.relockState = 2 ∧ 8192000 < s.tlk.lastE.natAbs) ∧
    (∃ (s : State),
      s.hostUp = true ∧ s.relockState ≠ 2) ∧
    (∃ (s : State) (t : Tu),
      s.hostUp = true ∧ s.relockState = 1 ∧ (s.at t).slewLeft ≤ 15625 * s.fld Fld.TLK_MARK_TOL 0) ∧
    (∃ (s : State) (t : Tu),
      s.hostUp = true ∧ 15625 * s.fld Fld.TLK_MARK_TOL 0 < (s.at t).slewLeft) :=
  ⟨⟨(State.reset.setFld Fld.TLK_STATUS_BLOCK_LOCK 0 1), tlkMsg 1 10 0, by decide +kernel⟩,
    ⟨({ ((State.reset.setFld Fld.TLK_STATUS_BLOCK_LOCK 0 1).setFld Fld.CLK_SRC_STATUS_LINK_QUAL 0 1) with pitch := run.pitch, tick := run.tick }),
      tlkMsg 1 10 0, by decide +kernel⟩,
    ⟨((State.reset.setFld Fld.TLK_STATUS_BLOCK_LOCK 0 1).setFld Fld.CLK_SRC_STATUS_LINK_QUAL 0 1), tlkMsg 1 10 0,
      by decide +kernel⟩,
    ⟨(((State.reset.setFld Fld.TLK_STATUS_BLOCK_LOCK 0 1).setFld Fld.CLK_SRC_STATUS_ACTIVE 0 0).setFld Fld.TLK_STATUS_EPOCH_VALID 0 1),
      100, tlkMsg 1 10 1, by decide +kernel⟩,
    ⟨(linkActive State.reset).setFld Fld.TLK_RELOCK_POLICY 0 1, 100, tlkMsg 1 10 100000000, by decide +kernel⟩,
    ⟨{ linkActive State.reset with tlk := { Tlk.init with fresh := true } }, 200, tlkMsg 1 10 0, by decide +kernel⟩,
    ⟨(State.reset.setFld Fld.TLK_STATUS_RELOCK_STATE 0 2), by decide +kernel⟩,
    ⟨({ (State.reset.setFld Fld.TLK_STATUS_RELOCK_STATE 0 2) with tlk := { Tlk.init with fresh := false, lastE := 900000 } }),
      by decide +kernel⟩,
    ⟨({ (State.reset.setFld Fld.TLK_STATUS_RELOCK_STATE 0 2) with tlk := { Tlk.init with fresh := true, lastE := 9000000 } }),
      by decide +kernel⟩,
    ⟨State.reset, by decide +kernel⟩,
    ⟨State.reset.setFld Fld.TLK_STATUS_RELOCK_STATE 0 1, 100, by decide +kernel⟩,
    ⟨{ State.reset with tlk := { Tlk.init with slew := some (900000, 0) } }, 100, by decide +kernel⟩⟩

theorem witness_BroadcastsWait :
    (∃ (s : State) (t : Tu) (m : BitVec 64),
      s.alive = true ∧ s.tlkRx = true ∧ tlkCrcOk m = true ∧ s.pitched = true ∧
      (s.at t).bcastRefused (BitVec.ofNat 48 (tlkArg m)) = false ∧ tlkTyp m = 2) ∧
    (∃ (s : State) (t : Tu) (m : BitVec 64),
      s.alive = true ∧ s.tlkRx = true ∧ tlkCrcOk m = true ∧ s.pitched = true ∧
      (s.at t).bcastRefused (BitVec.ofNat 48 (tlkArg m)) = false ∧ tlkTyp m = 3) ∧
    (∃ (s : State) (t : Tu) (m : BitVec 64),
      s.alive = true ∧ s.tlkRx = true ∧ tlkCrcOk m = true ∧ s.pitched = true ∧
      (s.at t).bcastRefused (BitVec.ofNat 48 (tlkArg m)) = false ∧ tlkTyp m = 4) ∧
    (∃ (s : State) (t : Tu) (m : BitVec 64),
      s.alive = true ∧ s.tlkRx = true ∧ tlkCrcOk m = true ∧ s.pitched = true ∧
      (s.at t).bcastRefused (BitVec.ofNat 48 (tlkArg m)) = true ∧ tlkTyp m = 3 ∧
      s.fld Fld.TLK_BCAST_DROP_COUNT 0 < 2 ^ 32 - 1) ∧
    (∃ (s : State) (t : Tu) (m : BitVec 64) (x : Tu),
      s.alive = true ∧ s.tlkRx = true ∧ tlkCrcOk m = true ∧ s.pitched = true ∧ tlkTyp m = 5 ∧ s.relockState ≠ 2 ∧
      (s.fld Fld.TLK_TRIG_EN_LINES 0).testBit (tlkSub m) = true ∧ s.tlk.trigs.length < 16 ∧
      BitVec.setWidth 48 x = BitVec.ofNat 48 (tlkArg m) ∧ 0 < BitVec.toNat (x - (s.at t).time) ∧
      BitVec.toNat (x - (s.at t).time) + (s.at t).delayUp ≤ 2 ^ 30) ∧
    (∃ (s : State) (m : BitVec 64),
      s.alive = true ∧ s.tlkRx = true ∧ tlkCrcOk m = true ∧ s.pitched = true ∧ tlkTyp m = 5 ∧
      (s.relockState = 2 ∨ (s.fld Fld.TLK_TRIG_EN_LINES 0).testBit (tlkSub m) = false) ∧
      s.fld Fld.TLK_TRIG_DROP_COUNT 0 < 2 ^ 32 - 1) :=
  ⟨⟨(locked run).setFld Fld.TLK_STATUS_K_MATCH 0 1, 100, tlkMsg 2 0 9, by decide +kernel⟩,
    ⟨(locked run).setFld Fld.TLK_STATUS_K_MATCH 0 1, 100, tlkMsg 3 5 9, by decide +kernel⟩,
    ⟨(locked run).setFld Fld.TLK_STATUS_K_MATCH 0 1, 100, tlkMsg 4 5 9, by decide +kernel⟩,
    ⟨locked run, 100, tlkMsg 3 5 0, by decide +kernel⟩,
    ⟨((run.setFld Fld.TLK_STATUS_BLOCK_LOCK 0 1).setFld Fld.TLK_TRIG_EN_LINES 0 6), 100, tlkMsg 5 1 800000, 800000,
      by decide +kernel⟩,
    ⟨(run.setFld Fld.TLK_STATUS_BLOCK_LOCK 0 1), tlkMsg 5 1 800000, by decide +kernel⟩⟩

theorem witness_MultiplexersSwitch :
    (∃ (s : State) (m : Fin 7) (sel : Fin 4),
      s.hostUp = true ∧ ↑m ≠ 0 ∧ s.muxState ↑m = 0 ∧ muxInput ↑m ↑sel = true ∧ ↑sel ≠ tget 0 s.clk.muxNow ↑m) ∧
    (∃ (s : State) (m : Fin 7) (sel : Fin 4),
      s.hostUp = true ∧ ↑m ≠ 0 ∧ s.muxState ↑m = 0 ∧ (muxInput ↑m ↑sel = false ∨ ↑sel = tget 0 s.clk.muxNow ↑m)) ∧
    (∃ (s : State) (m : Fin 7),
      s.hostUp = true ∧ ↑m ≠ 0 ∧ s.muxState ↑m ≠ 0) ∧
    (∃ (s : State) (m : Fin 7),
      s.alive = true ∧ ↑m ≠ 0 ∧ s.muxState ↑m = 1) ∧
    (∃ (s : State) (t : Tu) (m : Fin 7) (e : ℕ × Tu × ℕ),
      s.alive = true ∧ ↑m ≠ 0 ∧ s.muxState ↑m = 1 ∧ List.find? (fun e => e.1 == ↑m) s.clk.switching = some e ∧
      tuLe (tuAdd e.2.1 (ns 10000)) (s.at t).time = true) ∧
    (∃ (s : State),
      s.hostUp = true ∧ s.mgt.run = 1 ∧ s.fld Fld.MGT_MB_CMD_CMD 0 = 48 ∧ s.fld Fld.MGT_MB_STATE_STATE 0 = 0 ∧
      1 ≤ argAt s.mbArgs 0 ∧ argAt s.mbArgs 0 ≤ 6 ∧ s.clk.gate = none ∧ s.muxState (argAt s.mbArgs 0) = 2 ∧
      s.gateOpen (muxNode (argAt s.mbArgs 0)) = false) ∧
    (∃ (s : State),
      s.alive = true) ∧
    (∃ (s : State),
      s.alive = true ∧ (s.flag Fld.PLL_JPLL_STATUS_LOCK 0 = true ∨ s.flag Fld.PLL_JPLL_STATUS_COAST 0 = true)) :=
  ⟨⟨State.reset, 1, 1, by decide +kernel⟩,
    ⟨State.reset, 1, 2, by decide +kernel⟩,
    ⟨State.reset.setMux 6 1, 6, by decide +kernel⟩,
    ⟨(State.reset.setMux 6 1), 6, by decide +kernel⟩,
    ⟨atTime 81920001 { (State.reset.setMux 6 1) with clk := { Clk.init with switching := [(1, 0, 0), (6, 0, 1)] } },
      100, 6, (6, 0, 1), by decide +kernel⟩,
    ⟨((mailbox 0x30 [2] State.reset).setMux 2 2).setGate (muxNode 2) false, by decide +kernel⟩,
    ⟨State.reset, by decide +kernel⟩,
    ⟨State.reset, by decide +kernel⟩⟩

theorem witness_GatesCloseAndOpen :
    (∃ (s : State) (t : Tu) (n : Fin 64),
      s.hostUp = true ∧ s.clk.gate = none ∧ (s.at t).closeRefused ↑n ≠ 0) ∧
    (∃ (s : State) (t : Tu) (n : Fin 64),
      s.hostUp = true ∧ s.clk.gate = none ∧ (s.at t).closeRefused ↑n = 0 ∧ s.gateOpen ↑n = true) ∧
    (∃ (s : State) (t : Tu) (n : Fin 64),
      s.hostUp = true ∧ s.clk.gate = none ∧ (s.at t).closeRefused ↑n = 0 ∧ s.gateOpen ↑n = true ∧
      s.forceHonoured ↑n = true) ∧
    (∃ (s : State) (t : Tu) (n : Fin 64),
      s.hostUp = true ∧ s.clk.gate = none ∧ (s.at t).closeRefused ↑n = 0 ∧ s.gateOpen ↑n = true ∧
      s.forceHonoured ↑n = false) ∧
    (∃ (s : State) (n : Fin 64),
      s.hostUp = true ∧ s.clk.gate = none ∧ ↑n < 34 ∧ ↑n ≠ 0 ∧ s.gateOpen (s.parentOf ↑n) = false) ∧
    (∃ (s : State) (n : Fin 64),
      s.hostUp = true ∧ s.clk.gate = none ∧ ↑n < 34 ∧ (↑n = 0 ∨ s.gateOpen (s.parentOf ↑n) = true)) ∧
    (∃ (s : State),
      s.hostUp = true ∧ s.clk.gate.isSome = true) ∧
    (∃ (s : State) (t : Tu) (g : GateReq),
      s.alive = true ∧ s.clk.gate = some g ∧ g.node < 34 ∧ s.forceHonoured g.node = false ∧
      tuLe (s.at t).time (tuAdd g.at_ (ns 4000)) = true ∧ s.pwr.wait = none) ∧
    (∃ (s : State) (t : Tu) (g : GateReq),
      s.alive = true ∧ s.clk.gate = some g ∧ g.node < 34 ∧
      (s.forceHonoured g.node = true ∨ tuLe (s.at t).time (tuAdd g.at_ (ns 4000)) = false)) ∧
    (∃ (s : State) (t : Tu) (g : GateReq),
      s.alive = true ∧ s.clk.gate = some g ∧ g.node < 34 ∧ tuLe (tuAdd g.at_ (ns 4000)) (s.at t).time = true ∧
      s.pwr.wait = none) ∧
    (∃ (s : State) (t : Tu) (g : GateReq) (r : PwrReq),
      s.alive = true ∧ s.clk.gate = some g ∧ g.node < 34 ∧ s.pwr.wait = some r ∧ s.mgt.run ≠ 1 ∧
      s.forceHonoured g.node = false ∧ tuLe (s.at t).time (tuAdd g.at_ (ns 4000)) = true) ∧
    (∃ (s : State) (t : Tu) (g : GateReq) (r : PwrReq),
      s.alive = true ∧ s.clk.gate = some g ∧ g.node < 34 ∧ s.pwr.wait = some r ∧ s.mgt.run ≠ 1 ∧
      tuLe (tuAdd g.at_ (ns 4000)) (s.at t).time = true) :=
  ⟨⟨State.reset, 100, 0, by decide +kernel⟩,
    ⟨State.reset, 100, 7, by decide +kernel⟩,
    ⟨(State.reset.setMux 6 2), 100, 33, by decide +kernel⟩,
    ⟨State.reset, 100, 7, by decide +kernel⟩,
    ⟨(State.reset.setGate 1 false), 3, by decide +kernel⟩,
    ⟨State.reset, 0, by decide +kernel⟩,
    ⟨({ State.reset with clk := { Clk.init with gate := some ⟨25, 0⟩ } }), by decide +kernel⟩,
    ⟨{ State.reset with clk := { Clk.init with gate := some ⟨25, 0⟩ } }, 100, ⟨25, 0⟩, by decide +kernel⟩,
    ⟨{ State.reset with time := 32768001, clk := { Clk.init with gate := some ⟨25, 0⟩ } }, 100, ⟨25, 0⟩,
      by decide +kernel⟩,
    ⟨{ State.reset with time := 32768001, clk := { Clk.init with gate := some ⟨25, 0⟩ } }, 100, ⟨25, 0⟩,
      by decide +kernel⟩,
    ⟨{ State.reset with clk := { Clk.init with gate := some ⟨25, 0⟩ }, pwr := { State.reset.pwr with wait := some ⟨1, 0, none, 0⟩ } },
      100, ⟨25, 0⟩, ⟨1, 0, none, 0⟩, by decide +kernel⟩,
    ⟨{ State.reset with time := 32768001, clk := { Clk.init with gate := some ⟨25, 0⟩ }, pwr := { State.reset.pwr with wait := some ⟨1, 0, none, 0⟩ } },
      100, ⟨25, 0⟩, ⟨1, 0, none, 0⟩, by decide +kernel⟩⟩

theorem witness_SamplePllsLockAndSettle :
    (∃ (s : State) (t : Tu) (e : Fin 2) (first : Tu) (err : ℕ),
      s.hostUp = true ∧ s.spllLock ↑e = true ∧ s.dieAsleep ↑e = false ∧
      (s.at t).lossShown (1 + ↑e) (s.spllPfd ↑e) ((s.at t).stamp first) err = true) ∧
    (∃ (s : State) (t : Tu) (e : Fin 2) (first : Tu) (err : ℕ),
      s.hostUp = true ∧ s.spllLock ↑e = true ∧ s.dieAsleep ↑e = false ∧
      (s.at t).lossShown (1 + ↑e) (s.spllPfd ↑e) ((s.at t).stamp first) err = false) ∧
    (∃ (s : State) (t : Tu) (e : Fin 2),
      s.hostUp = true ∧ s.spllLock ↑e = false ∧ s.dieAsleep ↑e = false ∧ s.standby = false ∧
      (s.at t).lockThere ↑e = true) ∧
    (∃ (s : State) (t : Tu) (e : Fin 2) (l : Tu),
      s.hostUp = true ∧ s.spllLock ↑e = true ∧ (s.spllOf ↑e).lockAt = some l ∧
      tuLe (tuAdd l (ns 2000)) (s.at t).time = true ∧ tuLe (s.spllOf ↑e).moveEnd (s.at t).time = true ∧
      (s.spllOf ↑e).anchorDue = none ∧ (s.spllOf ↑e).moving = false ∧ (s.spllOf ↑e).mode ≠ RateMode.ramp) ∧
    (∃ (s : State) (t : Tu) (e : Fin 2) (l : Tu),
      s.hostUp = true ∧ s.spllLock ↑e = true ∧ (s.spllOf ↑e).lockAt = some l ∧
      tuLe (tuAdd l (ns 2000)) (s.at t).time = true ∧ tuLe (s.spllOf ↑e).moveEnd (s.at t).time = true ∧
      (s.spllOf ↑e).anchorDue = none ∧ (s.spllOf ↑e).moving = false ∧ (s.spllOf ↑e).mode = RateMode.ramp) ∧
    (∃ (s : State) (t : Tu) (e : Fin 2),
      s.hostUp = true ∧ s.spllState ↑e = 3 ∧ s.dieAsleep ↑e = false ∧
      tuLe (tuAdd (s.spllOf ↑e).tryAt (ns 1000000)) (s.at t).time = true ∧ s.fld Fld.PLL_SPLL_RETRY_COUNT ↑e < 65535) ∧
    (∃ (s : State) (t : Tu) (e : Fin 2),
      s.hostUp = true ∧ s.spllState ↑e = 1 ∧ (s.at t).rateInst ↑e = (s.spllOf ↑e).target ∧
      (s.spllOf ↑e).anchorDue = none) ∧
    (∃ (s : State) (t : Tu) (e : Fin 2),
      s.hostUp = true ∧ (s.spllOf ↑e).moving = true ∧ tuLe (s.spllOf ↑e).moveEnd (s.at t).time = true) ∧
    (∃ (s : State) (t : Tu) (e : Fin 2),
      s.hostUp = true ∧ (s.spllOf ↑e).moving = true ∧ tuLe (s.spllOf ↑e).moveEnd (s.at t).time = false) ∧
    (∃ (s : State),
      s.hostUp = true) :=
  ⟨⟨State.reset.setFld Fld.PLL_SPLL_STATUS_LOCK 1 1, 100, 1, 0, 1000000, by decide +kernel⟩,
    ⟨State.reset.setFld Fld.PLL_SPLL_STATUS_LOCK 1 1, 100, 1, 0, 0, by decide +kernel⟩,
    ⟨atTime 80000000 State.reset, 100, 0, by decide +kernel⟩,
    ⟨{ State.reset.setFld Fld.PLL_SPLL_STATUS_LOCK 1 1 with time := 20000000, spll := [(1, { Spll.init with lockAt := some 0, lost := true })] },
      100, 1, 0, by decide +kernel⟩,
    ⟨{ State.reset.setFld Fld.PLL_SPLL_STATUS_LOCK 1 1 with time := 20000000, spll := [(1, { Spll.init with lockAt := some 0, mode := .ramp })] },
      100, 1, 0, by decide +kernel⟩,
    ⟨atTime 8192000000 State.reset, 100, 0, by decide +kernel⟩,
    ⟨(State.reset.setFld Fld.PLL_SPLL_STATUS_STATE 1 1), 100, 1, by decide +kernel⟩,
    ⟨{ State.reset with time := 20000000, spll := [(1, { Spll.init with moving := true, moveEnd := 20000000 })] },
      100, 1, by decide +kernel⟩,
    ⟨{ State.reset with time := 20000000, spll := [(1, { Spll.init with moving := true, moveEnd := 20000001 })] },
      100, 1, by decide +kernel⟩,
    ⟨State.reset, by decide +kernel⟩⟩

theorem witness_ApllFeedsThePixelClock :
    (∃ (s : State) (v : BitVec 23),
      s.hostUp = true ∧ apllOk v.toNat (s.fld Fld.PLL_APLL_DIV_PIX_DIV 0) (s.fld Fld.PLL_APLL_DIV_AUX_DIV 0) = true) ∧
    (∃ (s : State) (v : BitVec 23),
      s.hostUp = true ∧ apllOk v.toNat (s.fld Fld.PLL_APLL_DIV_PIX_DIV 0) (s.fld Fld.PLL_APLL_DIV_AUX_DIV 0) = true ∧
      v.toNat ≠ s.fld Fld.PLL_APLL_FREQ_VCO_KHZ 0 ∧ s.fld Fld.RAS_STATUS_STATE 0 = 1) ∧
    (∃ (s : State) (v : BitVec 23),
      s.hostUp = true ∧ apllOk v.toNat (s.fld Fld.PLL_APLL_DIV_PIX_DIV 0) (s.fld Fld.PLL_APLL_DIV_AUX_DIV 0) = false) ∧
    (∃ (s : State) (pix : Byte) (aux : Byte),
      s.hostUp = true ∧ apllOk (s.fld Fld.PLL_APLL_FREQ_VCO_KHZ 0) (BitVec.toNat pix) (BitVec.toNat aux) = true) ∧
    (∃ (s : State),
      s.hostUp = true) ∧
    (∃ (s : State),
      s.hostUp = true ∧ s.standby = false ∧ s.pixFromApll = true) ∧
    (∃ (s : State) (t : Tu),
      s.hostUp = true ∧ s.standby = false ∧ s.flag Fld.PLL_APLL_STATUS_LOCK 0 = false ∧
      tuLe (tuAdd s.pll.apllFrom (s.countSpan 3 s.apllPfd)) (s.at t).time = true) ∧
    (∃ (s : State) (t : Tu) (first : Tu) (err : ℕ),
      s.hostUp = true ∧ s.standby = false ∧ (s.at t).apllLosing first err = true) ∧
    (∃ (s : State) (t : Tu) (l : Tu),
      s.hostUp = true ∧ s.pll.apllLockAt = some l ∧ s.pll.feedsLow = true ∧ s.flag Fld.PLL_APLL_STATUS_LOCK 0 = true ∧
      tuLe (tuAdd l (ns 2000)) (s.at t).time = true) :=
  ⟨⟨State.reset, 4000000, by decide +kernel⟩,
    ⟨(State.reset.setFld Fld.RAS_STATUS_STATE 0 1), 4000000, by decide +kernel⟩,
    ⟨State.reset, 0, by decide +kernel⟩,
    ⟨State.reset, 128#8, 5#8, by decide +kernel⟩,
    ⟨State.reset, by decide +kernel⟩,
    ⟨State.reset, by decide +kernel⟩,
    ⟨atTime 80000000 State.reset, 100, by decide +kernel⟩,
    ⟨State.reset.setFld Fld.PLL_APLL_STATUS_LOCK 0 1, 100, 0, 1000000, by decide +kernel⟩,
    ⟨({ ({ (State.reset.setFld Fld.PLL_APLL_STATUS_LOCK 0 1) with pll := { Pll.init with apllLockAt := some 0, feedsLow := true } }) with time := 20000000}),
      100, 0, by decide +kernel⟩⟩

theorem witness_JpllAndAuxFollow :
    (∃ (s : State) (t : Tu) (err : BitVec 16),
      s.hostUp = true ∧ s.active ≠ 2 ∧ s.flag Fld.PLL_JPLL_STATUS_LOCK 0 = false ∧ err.toInt.natAbs ≤ s.lockWindow 0 ∧
      tuLe (tuAdd s.pll.jpllFrom (s.countSpan 0 s.jpllPfd)) (s.at t).time = true) ∧
    (∃ (s : State) (t : Tu) (first : Tu) (err : BitVec 16),
      s.hostUp = true ∧ s.active < 2 ∧ s.flag Fld.PLL_JPLL_STATUS_LOCK 0 = true ∧
      (s.at t).lossShown 0 s.jpllPfd ((s.at t).stamp first) err.toInt.natAbs = true) ∧
    (∃ (s : State),
      s.hostUp = true) :=
  ⟨⟨atTime 1000000000000 (State.reset.setFld Fld.CLK_SRC_STATUS_ACTIVE 0 1), 100, 0, by decide +kernel⟩,
    ⟨(State.reset.setFld Fld.CLK_SRC_STATUS_ACTIVE 0 1).setFld Fld.PLL_JPLL_STATUS_LOCK 0 1, 100, 0, 0x7FFF,
      by decide +kernel⟩,
    ⟨State.reset, by decide +kernel⟩⟩

theorem witness_FrontEndsAreWatched :
    (∃ (s : State) (ch : Fin 16) (b : Bool),
      s.hostUp = true ∧ s.clusterAsleep (↑ch / 4) = false ∧ b.toNat ≠ s.fld Fld.AFE_CFG_TERM ↑ch ∧
      (s.afeOf ↑ch).settle = none) ∧
    (∃ (s : State) (ch : Fin 16) (mv : BitVec 12),
      s.hostUp = true ∧ s.clusterAsleep (↑ch / 4) = false ∧ vttEff (s.fld Fld.AFE_VTT_MV ↑ch) ≠ vttEff mv.toNat ∧
      (s.afeOf ↑ch).settle = none) ∧
    (∃ (s : State) (ch : Fin 16),
      s.hostUp = true ∧ s.clusterAsleep (↑ch / 4) = false) ∧
    (∃ (s : State) (ch : Fin 16),
      s.hostUp = true ∧ s.clusterAsleep (↑ch / 4) = true) ∧
    (∃ (s : State) (t : Tu) (ch : Fin 16) (e : Tu),
      s.hostUp = true ∧ (s.afeOf ↑ch).settle = some e ∧ tuLe e (s.at t).time = true) ∧
    (∃ (s : State) (t : Tu) (ch : Fin 16) (raw : List (BitVec 16)) (core : Bool),
      s.alive = true ∧ s.clusterAsleep (↑ch / 4) = false ∧ s.chanOff ↑ch = false ∧
      (outOfRange ((s.at t).corrected (↑ch) ((s.at t).sampleAt (↑ch / 8) (s.ilv ↑ch) (Ratio.ofTu (s.at t).time)) raw) = true ∨ core = true ∨ s.ovrAt (↑ch) (Ratio.ofTu (s.at t).time) = true ∨ s.flag Fld.AFE_CFG_OVR_HOLD ↑ch = true ∧
      (s.afeOf ↑ch).exc.isSome = true) ∧ s.fld Fld.AFE_OVR_CNT_COUNT ↑ch < 2 ^ 32 - 1) ∧
    (∃ (s : State) (t : Tu) (ch : Fin 16) (raw : List (BitVec 16)) (core : Bool),
      s.alive = true ∧ s.clusterAsleep (↑ch / 4) = false ∧ s.chanOff ↑ch = false ∧
      outOfRange ((s.at t).corrected (↑ch) ((s.at t).sampleAt (↑ch / 8) (s.ilv ↑ch) (Ratio.ofTu (s.at t).time)) raw) = false ∧
      core = false ∧ s.ovrAt (↑ch) (Ratio.ofTu (s.at t).time) = false ∧ ¬(s.flag Fld.AFE_CFG_OVR_HOLD ↑ch = true ∧
      (s.afeOf ↑ch).exc.isSome = true)) ∧
    (∃ (s : State) (ch : Fin 16),
      s.alive = true ∧ s.clusterAsleep (↑ch / 4) = false ∧ s.chanOff ↑ch = false) ∧
    (∃ (s : State) (t : Tu) (ch : Fin 16) (e : Ratio),
      s.alive = true ∧ s.clusterAsleep (↑ch / 4) = false ∧ s.chanOff ↑ch = false ∧ (s.afeOf ↑ch).hold = some e ∧
      e.le (Ratio.ofTu (s.at t).time) = true) :=
  ⟨⟨State.reset, 0, true, by decide +kernel⟩,
    ⟨State.reset, 0, 100#12, by decide +kernel⟩,
    ⟨State.reset, 0, by decide +kernel⟩,
    ⟨(State.reset.setGate 3 false), 0, by decide +kernel⟩,
    ⟨({ State.reset with afe := [(13, { Afe.init with settle := some 100 })] }), 100, 13, 100, by decide +kernel⟩,
    ⟨onGrid State.reset, 100, 0, [1, 2, 3, 4, 5, 6, 7], true, by decide +kernel⟩,
    ⟨onGrid State.reset, 100, 0, [1, 2, 3, 4, 5, 6, 7], false, by decide +kernel⟩,
    ⟨State.reset, 0, by decide +kernel⟩,
    ⟨{ State.reset with afe := [(13, { Afe.init with exc := some 2, hold := some (.ofInt 100) })] }, 200, 13,
      .ofInt 100, by decide +kernel⟩⟩

set_option maxRecDepth 100000 in
theorem witness_SpareRotates :
    (∃ (s : State) (t : Tu) (ln : Fin 16) (d : Tu),
      s.alive = true ∧ (s.lane ↑ln).dwell = some d ∧ s.fld Fld.ILV_LANE_STATUS_PHASE ↑ln = 0 ∧
      tuLe (tuAdd d (ns 1000000)) (s.at t).time = true) ∧
    (∃ (s : State) (t : Tu) (ln : Fin 16) (d : Tu),
      s.alive = true ∧ (s.lane ↑ln).dwell = some d ∧ s.fld Fld.ILV_LANE_STATUS_PHASE ↑ln = 1 ∧ s.frozen ↑ln = false ∧
      (s.lane ↑ln).window < (s.shadowWindows ↑ln).1 ∧
      tuLe (tuAdd d (ns 1000000 + ((s.lane ↑ln).window + 1) * (s.shadowWindows ↑ln).2)) (s.at t).time = true) ∧
    (∃ (s : State) (t : Tu) (ln : Fin 16) (d : Tu),
      s.alive = true ∧ (s.lane ↑ln).dwell = some d ∧ s.fld Fld.ILV_LANE_STATUS_PHASE ↑ln = 1 ∧
      (s.lane ↑ln).window = (s.shadowWindows ↑ln).1 ∧ s.frozen ↑ln = false ∧
      tuLe (tuAdd d (ns 3000000)) (s.at t).time = true) ∧
    (∃ (s : State) (ln : Fin 16) (e : Tu),
      s.alive = true ∧ s.pitched = false ∧ s.standby = false ∧ s.dwellEnd = some e ∧ tuLe s.time e = true ∧
      tuLt e s.nextGrid = true ∧ s.handoverDue (↑ln) e = true) ∧
    (∃ (s : State) (host : List HostRead) (ln : Fin 16),
      s.pitched = true ∧ ((State.frameTick host s).lane ↑ln).handovers ≠ (s.lane ↑ln).handovers) ∧
    (∃ (s : State) (host : List HostRead),
      s.pitched = true ∧ (∀ (ln : Fin 16), ((State.frameTick host s).lane ↑ln).handovers = (s.lane ↑ln).handovers)) ∧
    (∃ (s : State) (ln : Fin 16),
      s.hostUp = true ∧ s.clusterAsleep (↑ln / 4) = false ∧ s.firstLane ↑ln = ↑ln) ∧
    (∃ (s : State) (ln : Fin 16),
      s.hostUp = true ∧ s.clusterAsleep (↑ln / 4) = false ∧ s.firstLane ↑ln ≠ ↑ln) :=
  ⟨⟨laneIn 0 lane0 0 8192000000 State.reset, 100, 0, 0, by decide +kernel⟩,
    ⟨laneIn 0 lane0 1 13107200000 State.reset, 100, 0, 0, by decide +kernel⟩,
    ⟨laneIn 13 { lane0 with window := 4 } 1 24576008192 State.reset, 100, 13, 0, by decide +kernel⟩,
    ⟨laneIn 0 { lane0 with order := [1, 2, 3, 0] } 0 32767999995 State.reset, 0, 32768000000, by decide +kernel⟩,
    ⟨laneIn 13 lane0 2 32767999995 run, [], 13, by decide +kernel⟩,
    ⟨run.setFld Fld.HUB_PWR_STATUS_DEVICE 0 1, [], by decide +kernel⟩,
    ⟨State.reset, 0, by decide +kernel⟩,
    ⟨rich, 9, by decide +kernel⟩⟩

theorem witness_CalibrationSlotsHold :
    (∃ (s : State) (saved : List ℕ),
      argAt s.mbArgs 0 ≤ 7 ∧
      saved = List.filter (fun ln => !s.stale ln && s.settled (ln / 8)) (bitsOf 16 (argAt s.mbArgs 1)) ∧
      s.hostUp = true ∧ s.mgt.run = 1 ∧ s.fld Fld.MGT_MB_CMD_CMD 0 = 32 ∧ s.fld Fld.MGT_MB_STATE_STATE 0 = 0) ∧
    (∃ (s : State),
      argAt s.mbArgs 0 ≤ 7 ∧ s.hostUp = true ∧ s.mgt.run = 1 ∧ s.fld Fld.MGT_MB_CMD_CMD 0 = 33 ∧
      s.fld Fld.MGT_MB_STATE_STATE 0 = 0) ∧
    (∃ (s : State) (c : CalEntry),
      argAt s.mbArgs 0 ≤ 7 ∧ s.hostUp = true ∧ s.mgt.run = 1 ∧ s.fld Fld.MGT_MB_CMD_CMD 0 = 34 ∧
      s.fld Fld.MGT_MB_STATE_STATE 0 = 0 ∧ argAt s.mbArgs 1 ≤ 15 ∧
      s.calAt (argAt s.mbArgs 0) (argAt s.mbArgs 1) = some c ∧ c.crcOk = true) :=
  ⟨⟨mailbox 0x20 [] State.reset, [], by decide +kernel⟩,
    ⟨calSaved (diesSettled (staleLanes (mailbox 0x21 [2, 0xFFFF] run))), by decide +kernel⟩,
    ⟨calSaved (diesSettled (staleLanes (mailbox 0x22 [2, 3] State.reset))),
      (calSaved (diesSettled (staleLanes (mailbox 0x22 [2, 3] State.reset)))).calEntry 3 true, by decide +kernel⟩⟩

theorem witness_TriggersFire :
    (∃ (s : State) (t : Tu) (ln : Fin 16) (lo : Bool) (rise : Bool),
      s.alive = true ∧ s.laneOff ↑ln = false ∧ s.trigsDue ((s.at t).stamp t) = [] ∧
      s.crosses (↑ln) lo rise ((s.at t).stamp t) = true) ∧
    (∃ (s : State) (t : Tu) (ln : Fin 16) (lo : Bool) (rise : Bool) (g : ℕ),
      s.alive = true ∧ s.laneOff ↑ln = false ∧ s.trigsDue ((s.at t).stamp t) = [] ∧
      s.crosses (↑ln) lo rise ((s.at t).stamp t) = true ∧ g / 4 = ↑ln / 4 ∧ (s.at t).genLive g = true ∧
      tuLe ((s.at t).gen g).from_ ((s.at t).stamp t) = true ∧ (s.at t).fld Fld.TRG_GEN_CFG_HO_MODE g = 0 ∧
      (s.at t).seqMode g = 0 ∧ (∀ (f : Tu),
      ((s.at t).gen g).fired = some f → (s.at t).pipeCycle (g / 4) f ≠ (s.at t).pipeCycle (g / 4) ((s.at t).stamp t)) ∧
      (s.at t).fld Fld.TRG_GEN_CNT_COUNT g < 2 ^ 32 - 1 ∧ s.genType g = 0 ∧ s.genLane g = ↑ln ∧ lo = false ∧
      (rise = true ∧ s.genSlope g = 0 ∨ rise = false ∧ s.genSlope g = 1 ∨ s.genSlope g = 2)) ∧
    (∃ (s : State) (t : Tu) (c : Fin 4),
      s.hostUp = true ∧ s.clusterAsleep ↑c = false ∧ s.trigsDue (s.at t).time = []) ∧
    (∃ (s : State) (t : Tu) (c : Fin 4) (g : ℕ) (tts : Tu),
      s.hostUp = true ∧ s.clusterAsleep ↑c = false ∧ g < 16 ∧ s.trigsDue (s.at t).time = [(g / 4, tts)] ∧
      tts ∈ (s.gen g).forced ∧ s.forceable g = true ∧ s.fld Fld.TRG_GEN_CNT_COUNT g < 2 ^ 32 - 1) ∧
    (∃ (s : State) (t : Tu) (i : Fin 8),
      s.alive = true ∧ s.trigsDue ((s.at t).stamp t) = [] ∧
      (tget 0 s.trigIn ↑i = 0 ∨ tuLt ((s.at t).stamp t) (tuAdd (tget 0 s.trigIn ↑i) (ns 1)) = false) ∧
      s.fld Fld.HUB_TRIG_IN_CNT_COUNT ↑i < 2 ^ 32 - 1) ∧
    (∃ (s : State) (t : Tu) (i : Fin 8),
      s.alive = true ∧ s.trigsDue ((s.at t).stamp t) = [] ∧ tget 0 s.trigIn ↑i ≠ 0 ∧
      tuLt ((s.at t).stamp t) (tuAdd (tget 0 s.trigIn ↑i) (ns 1)) = true) ∧
    (∃ (s : State) (i : Fin 4) (p : Pulse) (rest : List Pulse),
      s.alive = true ∧ (tget TrigLine.init s.trigOut ↑i).waiting = p :: rest ∧ tuLe s.time p.edge = true ∧
      (s.standby = true ∨ tuLt p.edge s.nextGrid = true) ∧ s.flag Fld.HUB_TRIG_OUT_CFG_EN ↑i = true ∧
      s.trigsDue p.edge = [] ∧ (tget TrigLine.init s.trigOut ↑i).stop = none) ∧
    (∃ (s : State) (i : Fin 4) (p : Pulse) (rest : List Pulse) (e : Tu),
      s.alive = true ∧ (tget TrigLine.init s.trigOut ↑i).waiting = p :: rest ∧ tuLe s.time p.edge = true ∧
      (s.standby = true ∨ tuLt p.edge s.nextGrid = true) ∧ s.flag Fld.HUB_TRIG_OUT_CFG_EN ↑i = true ∧
      s.trigsDue p.edge = [] ∧ (tget TrigLine.init s.trigOut ↑i).stop = some e ∧ tuLt p.edge (tuAdd e (ns 4)) = true ∧
      s.fld Fld.HUB_TRIG_OUT_MERGED_COUNT ↑i < 2 ^ 32 - 1) :=
  ⟨⟨State.reset, 100, 0, false, true, by decide +kernel⟩,
    ⟨genOn rich, 100, 0, false, true, 0, by decide +kernel, by decide +kernel, by decide +kernel, by decide +kernel,
      by decide +kernel, by decide +kernel, by decide +kernel, by decide +kernel, by decide +kernel,
      none_all (by decide +kernel), by decide +kernel, by decide +kernel, by decide +kernel, by decide +kernel,
      by decide +kernel⟩,
    ⟨State.reset, 100, 0, by decide +kernel⟩,
    ⟨{ genOn rich with gens := [(0, { Gen.init with forced := [50] })] }, 100, 0, 0, 50, by decide +kernel⟩,
    ⟨State.reset, 100, 2, by decide +kernel⟩,
    ⟨{ rich with trigIn := [(2, 50)] }, 100, 2, by decide +kernel⟩,
    ⟨trigOutIs 0 ⟨[⟨100, 20, false⟩], none⟩ run, 0, ⟨100, 20, false⟩, [], by decide +kernel⟩,
    ⟨trigOutIs 0 ⟨[⟨100, 20, true⟩, ⟨50000, 20, true⟩], some 90⟩ rich, 0, ⟨100, 20, true⟩, [⟨50000, 20, true⟩], 90,
      by decide +kernel⟩⟩

theorem witness_RegionsDecideFires :
    (∃ (s : State) (m : Fin 32),
      s.alive = true ∧ s.segState ↑m = 1 ∧
      (s.preNow ↑m = 0 ∨ ((s.at s.time).refInstant (↑m) ((s.at s.time).sampleAt (↑m / 16) (refF s.pitch.recs ↑m) (s.region ↑m).filling + ↑(s.preNow ↑m) - 1)).le (Ratio.ofTu (s.at s.time).time) = true)) ∧
    (∃ (s : State) (t : Tu) (m : Fin 32) (f : Fire) (j : ℤ) (x : Ratio),
      s.alive = true ∧ s.trigsDue (s.at t).time = [] ∧ (s.region ↑m).fires = [f] ∧ f.stop = false ∧
      s.continuous ↑m = false ∧ s.blocked (↑m) f.tts = false ∧ j = (s.at t).trigOf (↑m) f.tts ∧
      x = (s.at t).refInstant (↑m) j ∧ (s.region ↑m).gone = none ∧
      (x.add (Ratio.ofInt ↑(ns 72))).le (Ratio.ofTu (s.at t).time) = true ∧ (s.at t).counts (↑m) x = true ∧
      (s.at t).missCause (↑m) f.tts j x = 0) ∧
    (∃ (s : State) (t : Tu) (m : Fin 32) (f : Fire) (j : ℤ) (x : Ratio),
      s.alive = true ∧ s.trigsDue (s.at t).time = [] ∧ (s.region ↑m).fires = [f] ∧ f.stop = false ∧
      s.continuous ↑m = false ∧ s.blocked (↑m) f.tts = false ∧ j = (s.at t).trigOf (↑m) f.tts ∧
      x = (s.at t).refInstant (↑m) j ∧ (s.region ↑m).gone = none ∧
      (x.add (Ratio.ofInt ↑(ns 72))).le (Ratio.ofTu (s.at t).time) = true ∧ (s.at t).counts (↑m) x = true ∧
      (s.at t).missCause (↑m) f.tts j x ≠ 0 ∧ s.fld Fld.SEG_MISSED_REGION_MISSED ↑m < 2 ^ 32 - 1) ∧
    (∃ (s : State) (t : Tu) (m : Fin 32) (f : Fire) (j : ℤ) (x : Ratio),
      s.alive = true ∧ s.trigsDue (s.at t).time = [] ∧ (s.region ↑m).fires = [f] ∧ f.stop = false ∧
      s.continuous ↑m = false ∧ s.blocked (↑m) f.tts = false ∧ j = (s.at t).trigOf (↑m) f.tts ∧
      x = (s.at t).refInstant (↑m) j ∧ (s.region ↑m).gone = none ∧
      (x.add (Ratio.ofInt ↑(ns 72))).le (Ratio.ofTu (s.at t).time) = true ∧ (s.at t).counts (↑m) x = false) ∧
    (∃ (s : State) (m : Fin 32),
      s.alive = true ∧ s.segState ↑m = 4 ∧ (s.region ↑m).filling.le (Ratio.ofTu (s.at s.time).time) = true) :=
  ⟨⟨regionIn 0 1 0 filling rich, 0, by decide +kernel⟩,
    ⟨regionIn 0 2 3 { filling with fires := [⟨5000, 0, false⟩] } (onGrid rich), 700000, 0, ⟨5000, 0, false⟩, 5,
      (onGrid rich).refInstant 0 5, by decide +kernel⟩,
    ⟨regionIn 1 2 3 { filling with fires := [⟨5000, 0, false⟩], fillFrom := some (.ofInt 4500), last := some (.ofInt 4400) } (onGrid rich),
      700000, 1, ⟨5000, 0, false⟩, 5, (onGrid rich).refInstant 1 5, by decide +kernel⟩,
    ⟨regionIn 0 0 3 { filling with fires := [⟨5000, 0, false⟩] } (onGrid rich), 700000, 0, ⟨5000, 0, false⟩, 5,
      (onGrid rich).refInstant 0 5, by decide +kernel⟩,
    ⟨atTime 20000 (regionIn 0 4 0 filling rich), 0, by decide +kernel⟩⟩

set_option maxRecDepth 100000 in
theorem witness_UnitsAreStored :
    (∃ (s : State) (m : Fin 32) (c : Capturing) (runs : List (List Sample)),
      s.alive = true ∧ (s.region ↑m).cap = some c ∧ c.cut = none ∧ c.arm = (s.region ↑m).armNo ∧ s.segState ↑m = 3 ∧
      s.continuous ↑m = false ∧ List.map List.length runs = c.counts ∧
      c.ends.le (Ratio.ofTu (s.at s.time).time) = true ∧ (s.region ↑m).stopAfter = 0) ∧
    (∃ (s : State) (t : Tu) (m : Fin 32) (runs : List (List Sample)) (b : Machine.Block) (rest : List Machine.Block),
      s.alive = true ∧ s.trigsDue (s.at t).time = [] ∧ (((s.at t).blocksNow ↑m).region ↑m).ended = b :: rest ∧
      b.arm = (s.region ↑m).armNo ∧
      List.map List.length runs = b.counts.getD (List.map (s.runCount ↑m) (s.segChans ↑m)) ∧
      (b.ends.add (Ratio.ofInt ↑(ns 72))).le (Ratio.ofTu (s.at t).time) = true) ∧
    (∃ (s : State) (t : Tu) (m : Fin 32) (runs : List (List Sample)) (b : ℤ) (k : ℤ),
      s.alive = true ∧ s.trigsDue (s.at t).time = [] ∧ (s.region ↑m).block = some b ∧ (s.region ↑m).ended = [] ∧
      regionMode s.pitch.recs ↑m = 2 ∧ List.map List.length runs = List.map (s.runCount ↑m) (s.segChans ↑m) ∧
      k = (s.at t).sampleAt (↑m / 16) (refF s.pitch.recs ↑m) ((Ratio.ofTu (s.at t).time).sub (Ratio.ofInt ↑(ns 72))) ∧
      (k - b - 1) / 3072 = 1 ∧
      (((s.at t).refInstant (↑m) (b + 3072)).add (Ratio.ofInt ↑(ns 72))).le (Ratio.ofTu (s.at t).time) = true) :=
  ⟨⟨atTime 70000 (regionIn 0 3 3 { filling with cap := some (capturing 64) } (onGrid rich)), 0, capturing 64,
      [(List.range 64).map fun i => smp (i * 37) (i = 5)], by decide +kernel⟩,
    ⟨atTime 8000000 (regionIn 2 3 3 { filling with ended := [⟨0, 0, 0, .ofInt 2048, some [2]⟩] } (onGrid rich)), 100,
      2, [[smp 1 false, smp 2 true]], ⟨0, 0, 0, .ofInt 2048, some [2]⟩, [], by decide +kernel⟩,
    ⟨atTime 3800000 (regionIn 2 3 3 { filling with block := some 0, count := 1 } ((onGrid rich).setFld Fld.SEG_OPEN_COUNT_COUNT 2 1)),
      100, 2, [List.replicate 3072 (smp 513 true)], 0, 3135, by decide +kernel⟩⟩

theorem witness_StacksAreWatched :
    (∃ (s : State) (c : Fin 4) (fill : Fin 262145),
      s.alive = true ∧ s.clusterAsleep ↑c = false ∧ ↑fill < 262144) ∧
    (∃ (s : State) (c : Fin 4),
      s.alive = true ∧ s.clusterAsleep ↑c = false) ∧
    (∃ (s : State) (e : Fin 2),
      s.alive = true ∧ s.dieAsleep ↑e = false) ∧
    (∃ (s : State) (e : Fin 2),
      s.alive = true ∧ s.dieAsleep ↑e = false ∧ s.fld Fld.MEM_CE_CNT_COUNT ↑e < 2 ^ 32 - 1) ∧
    (∃ (s : State) (e : Fin 2),
      s.alive = true ∧ s.dieAsleep ↑e = false ∧ s.fld Fld.MEM_UE_CNT_COUNT ↑e < 2 ^ 32 - 1) ∧
    (∃ (s : State) (e : Fin 2),
      s.alive = true ∧ s.dieAsleep ↑e = false ∧ s.fld Fld.MEM_BRIDGE_RETRY_COUNT ↑e < 2 ^ 32 - 1) :=
  ⟨⟨State.reset, 3, 262143, by decide +kernel⟩,
    ⟨State.reset, 0, by decide +kernel⟩,
    ⟨State.reset, 1, by decide +kernel⟩,
    ⟨State.reset, 0, by decide +kernel⟩,
    ⟨State.reset, 1, by decide +kernel⟩,
    ⟨State.reset, 0, by decide +kernel⟩⟩

theorem witness_StacksAreRead :
    (∃ (s : State) (m : Fin 32) (c : Closed) (rest : List Closed),
      s.alive = true ∧ (s.region ↑m).closed = c :: rest ∧ leAt c.entry 19 6 < BitVec.toNat s.frame) ∧
    (∃ (s : State) (m : Fin 32) (n : Word),
      s.hostUp = true ∧ s.dieAsleep (↑m / 16) = false ∧
      ahead (BitVec.toNat n) (s.fld Fld.SEG_RELEASE_COUNT ↑m) < 2 ^ 31 ∧
      ahead (s.fld Fld.SEG_WB_COUNT_COUNT ↑m) (BitVec.toNat n) < 2 ^ 31) ∧
    (∃ (s : State) (m : Fin 32) (n : Word),
      s.hostUp = true ∧ s.dieAsleep (↑m / 16) = false ∧
      (2 ^ 31 ≤ ahead (BitVec.toNat n) (s.fld Fld.SEG_RELEASE_COUNT ↑m) ∨ 2 ^ 31 ≤ ahead (s.fld Fld.SEG_WB_COUNT_COUNT ↑m) (BitVec.toNat n))) ∧
    (∃ (s : State),
      s.hostUp = true) :=
  ⟨⟨{ rich with frame := 4, regions := [(0, { Region.init with closed := [⟨0, 4096, entryOf 3⟩, ⟨0, 4097, entryOf 4⟩] })] },
      0, ⟨0, 4096, entryOf 3⟩, [⟨0, 4097, entryOf 4⟩], by decide +kernel⟩,
    ⟨State.reset, 0, 0, by decide +kernel⟩,
    ⟨State.reset, 31, 1, by decide +kernel⟩,
    ⟨State.reset, by decide +kernel⟩⟩

theorem witness_ReductionsPutOut :
    (∃ (s : State) (u : Fin 16) (xs : List Sample) (ys : List Sample) (s' : State),
      s.alive = true ∧ s' = s.at (s.redKept ↑u) ∧ s.flag Fld.RED_CFG_EN ↑u = true ∧ s.clusterAsleep (↑u / 4) = false ∧
      s.redLenOk (↑u) xs.length = true ∧ tuLe (s'.redKept ↑u) s'.time = true ∧
      ys = s'.flagRun (s.fld Fld.RED_SRC_CH ↑u) (s'.redNext ↑u - ↑(xs.length - 1)) xs) ∧
    (∃ (s : State) (u : Fin 16) (xs : List Sample) (ys : List Sample) (s' : State) (x : Sample),
      s.alive = true ∧ s' = s.at (s.redKept ↑u) ∧ s.flag Fld.RED_CFG_EN ↑u = true ∧ s.clusterAsleep (↑u / 4) = false ∧
      s.redLenOk (↑u) xs.length = true ∧ tuLe (s'.redKept ↑u) s'.time = true ∧
      ys = s'.flagRun (s.fld Fld.RED_SRC_CH ↑u) (s'.redNext ↑u - ↑(xs.length - 1)) xs ∧ ys = [x] ∧ s.redL ↑u = 1 ∧
      s.redStages ↑u = 1 ∧ s.redD ↑u = 1) :=
  ⟨⟨onGrid (rich.setFld Fld.RED_CFG_EN 0 1), 0, [smp 37 false], [smp 37 false],
      (onGrid (rich.setFld Fld.RED_CFG_EN 0 1)).at ((onGrid (rich.setFld Fld.RED_CFG_EN 0 1)).redKept 0),
      by decide +kernel⟩,
    ⟨onGrid (rich.setFld Fld.RED_CFG_EN 0 1), 0, [smp 37 false], [smp 37 false],
      (onGrid (rich.setFld Fld.RED_CFG_EN 0 1)).at ((onGrid (rich.setFld Fld.RED_CFG_EN 0 1)).redKept 0), smp 37 false,
      by decide +kernel⟩⟩

theorem witness_PlanesAccumulate :
    (∃ (s : State) (o : State) (t : Tu) (T : Ratio) (p : Fin 16) (j : ℤ) (x : Sample) (y : Sample) (b : ℕ),
      s.alive = true ∧ s.trigsDue (s.at t).time = [] ∧ s.clusterAsleep (↑p / 4) = false ∧
      T = (s.at t).planeInstant (↑p) j ∧ (s.at t).reached T = true ∧ o = (s.at t).asOf T ∧
      y = (s.at t).planeSample (↑p) T x ∧ o.hasPlane ↑p = true ∧ o.flag Fld.ACC_PLANE_CFG_EN ↑p = true ∧
      j % ↑(o.stride (↑p / 4)) = 0 ∧ o.excluded (↑p) y = false ∧ o.binOf (↑p) T y = some b ∧
      s.beforeClear (↑p) T = false ∧ s.bin (↑p) b < 4294967295) ∧
    (∃ (s : State) (o : State) (t : Tu) (T : Ratio) (p : Fin 16) (j : ℤ) (x : Sample) (y : Sample) (b : ℕ),
      s.alive = true ∧ s.trigsDue (s.at t).time = [] ∧ s.clusterAsleep (↑p / 4) = false ∧
      T = (s.at t).planeInstant (↑p) j ∧ (s.at t).reached T = true ∧ o = (s.at t).asOf T ∧
      y = (s.at t).planeSample (↑p) T x ∧ o.hasPlane ↑p = true ∧ o.flag Fld.ACC_PLANE_CFG_EN ↑p = true ∧
      j % ↑(o.stride (↑p / 4)) = 0 ∧ o.excluded (↑p) y = false ∧ o.binOf (↑p) T y = some b ∧
      s.beforeClear (↑p) T = false ∧ s.bin (↑p) b = 4294967295) ∧
    (∃ (s : State) (o : State) (t : Tu) (T : Ratio) (p : Fin 16) (j : ℤ) (x : Sample) (y : Sample) (b : ℕ),
      s.alive = true ∧ s.trigsDue (s.at t).time = [] ∧ s.clusterAsleep (↑p / 4) = false ∧
      T = (s.at t).planeInstant (↑p) j ∧ (s.at t).reached T = true ∧ o = (s.at t).asOf T ∧
      y = (s.at t).planeSample (↑p) T x ∧ o.hasPlane ↑p = true ∧ o.flag Fld.ACC_PLANE_CFG_EN ↑p = true ∧
      j % ↑(o.stride (↑p / 4)) = 0 ∧ o.excluded (↑p) y = false ∧ o.binOf (↑p) T y = some b ∧ s.beforeClear (↑p) T = true) ∧
    (∃ (s : State) (o : State) (t : Tu) (T : Ratio) (p : Fin 16) (j : ℤ) (x : Sample) (y : Sample),
      s.alive = true ∧ s.trigsDue (s.at t).time = [] ∧ s.clusterAsleep (↑p / 4) = false ∧
      T = (s.at t).planeInstant (↑p) j ∧ (s.at t).reached T = true ∧ o = (s.at t).asOf T ∧
      y = (s.at t).planeSample (↑p) T x ∧ o.hasPlane ↑p = true ∧ o.flag Fld.ACC_PLANE_CFG_EN ↑p = true ∧
      j % ↑(o.stride (↑p / 4)) = 0 ∧ o.excluded (↑p) y = false ∧ o.binOf (↑p) T y = none ∧
      s.fld Fld.ACC_PLANE_OUTSIDE_COUNT ↑p < 2 ^ 32 - 1) ∧
    (∃ (s : State) (o : State) (t : Tu) (T : Ratio) (p : Fin 16) (j : ℤ) (x : Sample) (y : Sample),
      s.alive = true ∧ s.trigsDue (s.at t).time = [] ∧ s.clusterAsleep (↑p / 4) = false ∧
      T = (s.at t).planeInstant (↑p) j ∧ (s.at t).reached T = true ∧ o = (s.at t).asOf T ∧
      y = (s.at t).planeSample (↑p) T x ∧ o.hasPlane ↑p = true ∧ o.flag Fld.ACC_PLANE_CFG_EN ↑p = true ∧
      j % ↑(o.stride (↑p / 4)) = 0 ∧ o.excluded (↑p) y = true ∧ s.fld Fld.ACC_PLANE_EXCL_COUNT ↑p < 2 ^ 32 - 1) ∧
    (∃ (s : State) (o : State) (t : Tu) (T : Ratio) (k : Fin 32) (j : ℤ) (x : Sample) (y : Sample) (b : ℕ),
      s.alive = true ∧ s.clusterAsleep (↑k / 8) = false ∧ s.trigsDue (s.at t).time = [] ∧
      T = (s.at t).planeInstant (4 * (↑k / 8)) j ∧ (s.at t).reached T = true ∧ o = (s.at t).asOf T ∧
      y = (s.at t).planeSample (o.maskPlane ↑k) T x ∧ o.hasMask ↑k = true ∧ o.flag Fld.ACC_MASK_CFG_EN ↑k = true ∧
      o.hasPlane (o.maskPlane ↑k) = true ∧ o.excluded (o.maskPlane ↑k) y = false ∧
      o.binOf (o.maskPlane ↑k) T y = some b ∧ o.marked (↑k) b = true ∧ s.fld Fld.ACC_VIOL_CNT_COUNT ↑k < 2 ^ 32 - 1) ∧
    (∃ (s : State) (o : State) (t : Tu) (T : Ratio) (k : Fin 32) (j : ℤ) (x : Sample) (y : Sample) (b : ℕ),
      s.alive = true ∧ s.clusterAsleep (↑k / 8) = false ∧ s.trigsDue (s.at t).time = [] ∧
      T = (s.at t).planeInstant (4 * (↑k / 8)) j ∧ (s.at t).reached T = true ∧ o = (s.at t).asOf T ∧
      y = (s.at t).planeSample (o.maskPlane ↑k) T x ∧ o.hasMask ↑k = true ∧ o.flag Fld.ACC_MASK_CFG_EN ↑k = true ∧
      o.hasPlane (o.maskPlane ↑k) = true ∧ o.excluded (o.maskPlane ↑k) y = false ∧
      o.binOf (o.maskPlane ↑k) T y = some b ∧ o.marked (↑k) b = false) ∧
    (∃ (s : State) (t : Tu) (c : Fin 4) (w : Snap),
      s.alive = true ∧ List.find? (fun e => e.1 == ↑c) s.snaps = some (↑c, w) ∧ s.fld Fld.ACC_SNAP_STATUS_STATE ↑c = 2 ∧
      (s.at t).reached (Ratio.ofTu w.at_) = true) :=
  ⟨⟨planeOn 0 (onGrid rich), (atTime 300000 (planeOn 0 (onGrid rich))), 300000, (onGrid rich).planeInstant 0 0, 0, 0,
      smp 37 false, smp 37 false, 70144, by decide +kernel⟩,
    ⟨binFull 0 (planeOn 0 (onGrid rich)), (atTime 300000 (binFull 0 (planeOn 0 (onGrid rich)))), 300000,
      (onGrid rich).planeInstant 0 0, 0, 0, smp 37 false, smp 37 false, 70144, by decide +kernel⟩,
    ⟨{ planeOn 0 (onGrid rich) with planes := [(0, ⟨[0], some 200000⟩)] },
      (atTime 300000 ({ planeOn 0 (onGrid rich) with planes := [(0, ⟨[0], some 200000⟩)] })), 300000,
      (onGrid rich).planeInstant 0 0, 0, 0, smp 37 false, smp 37 false, 70144, by decide +kernel⟩,
    ⟨planeOn 0 (onGrid rich), (atTime 300000 (planeOn 0 (onGrid rich))), 300000, (onGrid rich).planeInstant 0 5, 0, 5,
      smp 37 false, smp 37 false, by decide +kernel⟩,
    ⟨(planeOn 0 (onGrid rich)).setFld Fld.ACC_PLANE_CFG_EXCL_OVR 0 1,
      (atTime 300000 ((planeOn 0 (onGrid rich)).setFld Fld.ACC_PLANE_CFG_EXCL_OVR 0 1)), 300000,
      (onGrid rich).planeInstant 0 0, 0, 0, smp 999 true, smp 999 true, by decide +kernel⟩,
    ⟨maskOn 0 1 (planeOn 0 (onGrid rich)), (atTime 300000 (maskOn 0 1 (planeOn 0 (onGrid rich)))), 300000,
      (onGrid rich).planeInstant 0 0, 0, 0, smp 37 false, smp 37 false, 70144, by decide +kernel⟩,
    ⟨maskOn 0 1 (planeOn 0 (onGrid rich)), (atTime 300000 (maskOn 0 1 (planeOn 0 (onGrid rich)))), 300000,
      (onGrid rich).planeInstant 0 0, 0, 0, smp 999 true, smp 999 true, 61952, by decide +kernel⟩,
    ⟨({ rich with snaps := [(2, ⟨4096, [1, 2, 3], 8, 50⟩)] }).setFld Fld.ACC_SNAP_STATUS_STATE 2 2, 300000, 2, ⟨4096,
      [1, 2, 3], 8, 50⟩, by decide +kernel⟩⟩

theorem witness_CountersClose :
    (∃ (s : State) (i : Fin 32) (o : Stamp) (r : Bool) (d : Tu),
      s.alive = true ∧ s.trigsDue (s.at s.time).time = [] ∧ s.ticLive ↑i = true ∧ (s.ticOf ↑i).open_ = some (o, r) ∧
      s.ticDeadline ↑i = some d ∧ tuLe d (s.at s.time).time = true) ∧
    (∃ (s : State) (i : Fin 32) (o : Stamp) (r : Bool) (x : Stamp) (rest : List Stamp),
      s.alive = true ∧ s.trigsDue (s.at s.time).time = [] ∧ s.ticLive ↑i = true ∧ (s.ticOf ↑i).open_ = some (o, r) ∧
      (s.ticOf ↑i).starts = x :: rest ∧ (s.ticOf ↑i).doom = none ∧
      tuLe (tuAdd x.t (s.ticWindow ↑i)) (s.at s.time).time = true ∧ (s.ticOf ↑i).stop = none) ∧
    (∃ (s : State) (i : Fin 32) (o : Stamp) (r : Bool) (x : Stamp) (rest : List Stamp) (p : Stamp),
      s.alive = true ∧ s.trigsDue (s.at s.time).time = [] ∧ s.ticLive ↑i = true ∧ (s.ticOf ↑i).open_ = some (o, r) ∧
      (s.ticOf ↑i).starts = x :: rest ∧ (s.ticOf ↑i).doom = none ∧
      tuLe (tuAdd x.t (s.ticWindow ↑i)) (s.at s.time).time = true ∧ (s.ticOf ↑i).stop = some p ∧
      (tuDiff x.t p.t).natAbs ≤ s.ticWindow ↑i ∧ s.ticMode ↑i = 0) ∧
    (∃ (s : State) (i : Fin 32) (o : Stamp) (r : Bool) (l : Stamp),
      s.alive = true ∧ s.trigsDue (s.at s.time).time = [] ∧ s.ticLive ↑i = true ∧ (s.ticOf ↑i).open_ = some (o, r) ∧
      s.ticMode ↑i = 4 ∧ (s.ticOf ↑i).lastEdge = some l ∧ 2 ≤ (s.ticOf ↑i).edges ∧
      tuLe (tuAdd (s.ticOf ↑i).gate (s.ticGate ↑i)) (s.at s.time).time = true) ∧
    (∃ (s : State) (t : Tu),
      s.alive = true ∧ s.trigsDue ((s.at t).stamp t) = [] ∧
      (s.flag Fld.CLK_CLKIN_CFG_RATE_ERR 0 = true ∨ s.gateOpen 29 = false)) ∧
    (∃ (s : State) (t : Tu) (rise : Bool),
      s.alive = true ∧ s.trigsDue ((s.at t).stamp t) = [] ∧ s.flag Fld.CLK_CLKIN_CFG_RATE_ERR 0 = false ∧
      s.gateOpen 29 = true ∧ (∀ (e : Bool), ¬prescaled s rise e)) ∧
    (∃ (s : State) (t : Tu) (rise : Bool) (l : Tu),
      s.alive = true ∧ s.trigsDue ((s.at t).stamp t) = [] ∧ s.flag Fld.CLK_CLKIN_CFG_RATE_ERR 0 = false ∧
      s.gateOpen 29 = true ∧ prescaled s rise true ∧ s.clk.clkinAt = some l ∧ 5 * tuDiff l ((s.at t).stamp t) < 32768) ∧
    (∃ (s : State) (t : Tu) (rise : Bool) (edge : Bool) (i : ℕ),
      s.alive = true ∧ s.trigsDue ((s.at t).stamp t) = [] ∧ s.flag Fld.CLK_CLKIN_CFG_RATE_ERR 0 = false ∧
      s.gateOpen 29 = true ∧ prescaled s rise edge ∧ (edge = true → ∀ (l : Tu),
      s.clk.clkinAt = some l → 32768 ≤ 5 * tuDiff l ((s.at t).stamp t)) ∧ i < 32 ∧ s.ticLive i = true ∧
      s.fld Fld.TIC_SRC_START i = 32 ∧ s.fld Fld.TIC_SRC_STOP i ≠ 32 ∧ s.ticMode i < 4 ∧
      edgeTaken (s.fld Fld.TIC_CFG_START_EDGE i) true edge = true ∧ (s.ticOf i).open_ = none ∧ (s.ticOf i).starts = [] ∧
      tuLe (s.ticOf i).runAt ((s.at t).stamp t) = true ∧ tuLe (s.ticOf i).ready ((s.at t).stamp t) = true) :=
  ⟨⟨atTime 8192000000000 (ticRuns 0 0 ticOpen rich), 0, stampAt 100, true, 81920100, by decide +kernel⟩,
    ⟨atTime 1000000 (ticRuns 0 0 { ticOpen with starts := [stampAt 100] } (rich.setFld Fld.TIC_CFG_SIGNED 0 1)), 0,
      stampAt 100, true, stampAt 100, [], by decide +kernel⟩,
    ⟨atTime 1000000 (ticRuns 9 0 { ticOpen with starts := [stampAt 100, stampAt 500], stop := some (stampAt 98) } (rich.setFld Fld.TIC_CFG_SIGNED 9 1)),
      9, stampAt 100, true, stampAt 100, [stampAt 500], stampAt 98, by decide +kernel⟩,
    ⟨atTime 8192000000000 (ticRuns 9 4 { ticOpen with edges := 3, lastEdge := some (stampAt 900), gate := 100 } rich),
      9, stampAt 100, true, stampAt 900, by decide +kernel⟩,
    ⟨State.reset.setFld Fld.CLK_CLKIN_CFG_RATE_ERR 0 1, 100, by decide +kernel⟩,
    ⟨(rich.setGate 29 true).setFld Fld.CLK_CLKIN_CFG_PS 0 2, 100, false, by unfold prescaled; decide +kernel⟩,
    ⟨{ rich.setGate 29 true with clk := { Clk.init with clkinAt := some 50 } }, 100, true, 50,
      by unfold prescaled; decide +kernel⟩,
    ⟨(rich.setGate 29 true |> ticRuns 3 0 Tic.init), 100, true, true, 3, by decide +kernel, by decide +kernel,
      by decide +kernel, by decide +kernel, by unfold prescaled; decide +kernel, fun _ => none_all (by decide +kernel),
      by decide +kernel, by decide +kernel, by decide +kernel, by decide +kernel, by decide +kernel, by decide +kernel,
      by decide +kernel, by decide +kernel, by decide +kernel, by decide +kernel⟩⟩

theorem witness_SyncsAreIssuedAndAct :
    (∃ (s : State),
      s.hostUp = true ∧ s.standby = false ∧ s.fld Fld.HUB_PITCH_STATUS_STATE 0 ≠ 2) ∧
    (∃ (s : State),
      s.hostUp = true ∧ s.standby = false ∧ s.fld Fld.HUB_PITCH_STATUS_STATE 0 = 2) ∧
    (∃ (s : State) (rise : Bool),
      s.hostUp = true ∧ s.standby = false ∧ s.flag Fld.HUB_SYNC_CFG_IN_EN 0 = true ∧
      rise = !s.flag Fld.HUB_SYNC_CFG_IN_EDGE 0 ∧ (∀ x ∈ s.sync.waiting, x.src ≠ 4)) ∧
    (∃ (s : State) (rise : Bool),
      s.hostUp = true ∧ s.standby = false ∧ s.flag Fld.HUB_SYNC_CFG_IN_EN 0 = true ∧
      rise = !s.flag Fld.HUB_SYNC_CFG_IN_EDGE 0 ∧ (∃ x ∈ s.sync.waiting, x.src = 4) ∧
      s.fld Fld.HUB_SYNC_DROP_COUNT 0 < 255) ∧
    (∃ (s : State) (t : Tu) (x : SyncAt),
      s.hostUp = true ∧ s.standby = false ∧ s.sync.waiting = [x] ∧ tuLe x.ts (s.at t).time = true) ∧
    (∃ (s : State) (t : Tu) (x : SyncAt),
      s.hostUp = true ∧ s.standby = false ∧ s.sync.carry = [x] ∧ s.tick.caps = [] ∧ s.attached = true ∧ s.glnUp = true ∧
      tuLe (tuAdd (s.at t).time (ns 1024)) x.ts = true) :=
  ⟨⟨State.reset, by decide +kernel⟩,
    ⟨run.setFld Fld.HUB_PITCH_STATUS_STATE 0 2, by decide +kernel⟩,
    ⟨syncInOn State.reset, true, by decide +kernel⟩,
    ⟨syncWaits ⟨5, 4, false⟩ State.reset, true, by decide +kernel⟩,
    ⟨syncWaits ⟨600000, 4, false⟩ run, 700000, ⟨600000, 4, false⟩, by decide +kernel⟩,
    ⟨{ twinIs 1 0 run with sync := { Sync.init with carry := [⟨9000000, 3, true⟩] } }, 100, ⟨9000000, 3, true⟩,
      by decide +kernel⟩⟩

theorem witness_ConversionsGiveResults :
    (∃ (s : State) (t : Tu) (x : Fin 2) (c : Conv),
      s.alive = true ∧ (s.mc ↑x).act = some c ∧ tuLe c.ready (s.at t).time = true ∧ s.pmuClockOff = false ∧
      noneTriggered s (c.ready - 1) ∧ c.kind = 1 ∧ s.xchk = false) ∧
    (∃ (s : State) (t : Tu) (x : Fin 2) (c : Conv),
      s.alive = true ∧ (s.mc ↑x).act = some c ∧ tuLe c.ready (s.at t).time = true ∧ s.pmuClockOff = false ∧
      noneTriggered s (c.ready - 1) ∧ c.kind = 2 ∧ s.xchk = false ∧ (s.mc ↑x).fifo.length < 4) ∧
    (∃ (s : State) (t : Tu) (x : Fin 2) (c : Conv),
      s.alive = true ∧ (s.mc ↑x).act = some c ∧ tuLe c.ready (s.at t).time = true ∧ s.pmuClockOff = false ∧
      noneTriggered s (c.ready - 1) ∧ c.kind = 2 ∧ x = 0 ∧ s.xchk = true ∧ (s.mc 0).fifo.length < 4 ∧
      (s.mc 1).fifo.length < 4) ∧
    (∃ (s : State) (t : Tu) (x : Fin 2) (c : Conv),
      s.alive = true ∧ (s.mc ↑x).act = some c ∧ tuLe c.ready (s.at t).time = true ∧ s.pmuClockOff = false ∧
      noneTriggered s (c.ready - 1) ∧ c.kind = 1 ∧ x = 0 ∧ s.xchk = true) :=
  ⟨⟨converter 0 { Mc.init with act := some (convOf 1) }, 100, 0, convOf 1, by decide +kernel, by decide +kernel,
      by decide +kernel, by decide +kernel, none_triggered (by decide +kernel), by decide +kernel⟩,
    ⟨converter 1 { Mc.init with act := some (convOf 2), fifo := [⟨1, 2, 3⟩] }, 100, 1, convOf 2, by decide +kernel,
      by decide +kernel, by decide +kernel, by decide +kernel, none_triggered (by decide +kernel), by decide +kernel⟩,
    ⟨converter 0 { Mc.init with act := some (convOf 2), xchk := true }, 100, 0, convOf 2, by decide +kernel,
      by decide +kernel, by decide +kernel, by decide +kernel, none_triggered (by decide +kernel), by decide +kernel⟩,
    ⟨converter 0 { Mc.init with act := some (convOf 1), xchk := true }, 100, 0, convOf 1, by decide +kernel,
      by decide +kernel, by decide +kernel, by decide +kernel, none_triggered (by decide +kernel), by decide +kernel⟩⟩

theorem witness_RequestsAreInjected :
    (∃ (s : State) (t : Tu) (v : Word),
      s.hostUp = true ∧ noneTriggered s (s.at t).time ∧ BitVec.getLsbD v 22 = false) ∧
    (∃ (s : State) (t : Tu) (x : Fin 2) (v : Word),
      s.hostUp = true ∧ noneTriggered s (s.at t).time ∧ BitVec.getLsbD v 22 = true ∧
      (4 ≤ (s.mc ↑x).queue.length ∨ s.flag Fld.PMU_MC_CFG_EN ↑x = false ∨ x = 1 ∧ s.xchk = true) ∧
      s.fld Fld.PMU_INJ_DROP_REFUSED ↑x < 2 ^ 16 - 1) ∧
    (∃ (s : State) (t : Tu) (x : Fin 2) (v : Word),
      s.hostUp = true ∧ noneTriggered s (s.at t).time ∧ BitVec.getLsbD v 22 = true ∧ (s.mc ↑x).queue = [] ∧
      (s.mc ↑x).act = none ∧ (s.mc ↑x).cal = false ∧ (s.mc ↑x).restart = false ∧ (s.mc ↑x).next = none ∧
      s.flag Fld.PMU_MC_CFG_EN ↑x = true ∧ s.gateOpen 25 = true ∧ (x = 1 → s.xchk = false)) ∧
    (∃ (s : State) (t : Tu) (x : Fin 2) (v : Word) (c : Conv),
      s.hostUp = true ∧ noneTriggered s (s.at t).time ∧ BitVec.getLsbD v 22 = true ∧ (s.mc ↑x).queue.length < 4 ∧
      (s.mc ↑x).act = some c ∧ (c.kind ≠ 1 ∨ c.restarted = true) ∧ s.flag Fld.PMU_MC_CFG_EN ↑x = true ∧
      (x = 1 → s.xchk = false)) ∧
    (∃ (s : State) (t : Tu) (x : Fin 2) (v : Word) (c : Conv),
      s.hostUp = true ∧ noneTriggered s (s.at t).time ∧ BitVec.getLsbD v 22 = true ∧ (s.mc ↑x).queue = [] ∧
      (s.mc ↑x).act = some c ∧ c.kind = 1 ∧ c.restarted = false ∧ s.flag Fld.PMU_MC_CFG_EN ↑x = true ∧
      s.gateOpen 25 = true ∧ (x = 1 → s.xchk = false) ∧ s.fld Fld.PMU_ABORT_CNT_COUNT ↑x < 2 ^ 32 - 1) ∧
    (∃ (s : State) (t : Tu) (x : Fin 2) (r : PmuRec) (rest : List PmuRec),
      s.hostUp = true ∧ noneTriggered s (s.at t).time ∧ (s.mc ↑x).fifo = r :: rest) ∧
    (∃ (s : State) (t : Tu) (x : Fin 2),
      s.hostUp = true ∧ noneTriggered s (s.at t).time ∧ (s.mc ↑x).fifo = []) :=
  ⟨⟨run, 100, 0, by decide +kernel, none_triggered (by decide +kernel), by decide +kernel⟩,
    ⟨converter 0 { Mc.init with queue := [1, 2, 3, 4] }, 100, 0, 0x400003, by decide +kernel,
      none_triggered (by decide +kernel), by decide +kernel⟩,
    ⟨converter 1 Mc.init, 100, 1, 0x400003, by decide +kernel, none_triggered (by decide +kernel), by decide +kernel⟩,
    ⟨converter 1 { Mc.init with act := some (convOf 2), fifo := [⟨1, 2, 3⟩] }, 100, 1, 0x400003, convOf 2,
      by decide +kernel, none_triggered (by decide +kernel), by decide +kernel⟩,
    ⟨converter 0 { Mc.init with act := some (convOf 1) }, 100, 0, 0x400003, convOf 1, by decide +kernel,
      none_triggered (by decide +kernel), by decide +kernel⟩,
    ⟨converter 1 { Mc.init with act := some (convOf 2), fifo := [⟨1, 2, 3⟩] }, 100, 1, ⟨1, 2, 3⟩, [],
      by decide +kernel, none_triggered (by decide +kernel), by decide +kernel⟩,
    ⟨converter 0 { Mc.init with act := some (convOf 1) }, 100, 0, by decide +kernel,
      none_triggered (by decide +kernel), by decide +kernel⟩⟩

theorem witness_ParametricUnitsAct :
    (∃ (s : State) (n : Fin 16),
      s.hostUp = true ∧ (s.fld Fld.PMU_FORCE_CFG_UPD ↑n = 1 ∨ s.fld Fld.PMU_FORCE_CFG_UPD ↑n = 2)) ∧
    (∃ (s : State) (n : Fin 16),
      s.hostUp = true ∧ s.fld Fld.PMU_FORCE_CFG_UPD ↑n ≠ 1 ∧ s.fld Fld.PMU_FORCE_CFG_UPD ↑n ≠ 2) ∧
    (∃ (s : State),
      s.hostUp = true) ∧
    (∃ (s : State) (t : Tu) (x : Fin 2) (y : ℕ),
      (y = if s.xchk = true then 0 else ↑x) ∧ s.hostUp = true ∧ noneTriggered s (s.at t).time ∧ (s.mc y).queue = [] ∧
      (s.mc y).act = none ∧ (s.mc y).cal = false ∧ s.flag Fld.PMU_MC_CFG_EN y = true ∧ s.gateOpen 25 = true) ∧
    (∃ (s : State) (t : Tu) (x : Fin 2) (c : Conv),
      s.alive = true ∧ (s.mc ↑x).act = some c ∧ c.kind = 3 ∧ tuLe c.ready (s.at t).time = true ∧ s.pmuClockOff = false ∧
      noneTriggered s (c.ready - 1)) ∧
    (∃ (s : State) (t : Tu) (x : Fin 2) (v : Word) (c : Conv),
      s.hostUp = true ∧ noneTriggered s (s.at t).time ∧ (s.mc ↑x).act = some c ∧
      (s.flag Fld.PMU_MC_CFG_EN ↑x = false ∨ BitVec.getLsbD v 0 = true)) ∧
    (∃ (s : State) (t : Tu) (x : Fin 2) (v : Word) (c : Conv),
      s.hostUp = true ∧ noneTriggered s (s.at t).time ∧ s.flag Fld.PMU_MC_CFG_EN ↑x = true ∧
      BitVec.getLsbD v 0 = false ∧ s.pmuStuck = false ∧ (s.mc ↑x).act = some c) ∧
    (∃ (s : State) (t : Tu) (a : TwinRes) (rest : List TwinRes),
      s.alive = true ∧ s.pmu.local_ = a :: rest ∧ tuLe (tuAdd a.ready (ns 100000)) (s.at t).time = true ∧
      s.fld Fld.PMU_TWIN_MISS_CNT_COUNT 0 < 2 ^ 32 - 1) :=
  ⟨⟨(run.setFld Fld.PMU_FORCE_CFG_UPD 0 1).setFld Fld.PMU_FORCE_CFG_UPD 9 2, 0, by decide +kernel⟩,
    ⟨run, 0, by decide +kernel⟩,
    ⟨run, by decide +kernel⟩,
    ⟨run, 100, 1, 1, by decide +kernel, by decide +kernel, none_triggered (by decide +kernel), by decide +kernel⟩,
    ⟨converter 0 { Mc.init with act := some (convOf 3) }, 100, 0, convOf 3, by decide +kernel, by decide +kernel,
      by decide +kernel, by decide +kernel, by decide +kernel, none_triggered (by decide +kernel)⟩,
    ⟨converter 0 { Mc.init with act := some (convOf 1) }, 100, 0, 1, convOf 1, by decide +kernel,
      none_triggered (by decide +kernel), by decide +kernel⟩,
    ⟨converter 0 { Mc.init with act := some (convOf 1) }, 100, 0, 0, convOf 1, by decide +kernel,
      none_triggered (by decide +kernel), by decide +kernel⟩,
    ⟨{ run with time := 890000000, pmu := { Pmu.init with local_ := [⟨1, 2, 3, 4, 5⟩] } }, 100, ⟨1, 2, 3, 4, 5⟩, [],
      by decide +kernel⟩⟩

theorem witness_LanternScans :
    (∃ (s : State) (t : Tu),
      s.alive = true ∧ s.fld Fld.RAS_STATUS_STATE 0 = 1 ∧ (s.at t).inPicture = true ∧ s.gateOpen 26 = true ∧
      s.standby = false) ∧
    (∃ (s : State) (t : Tu) (t0 : Tu),
      s.alive = true ∧ s.ras.restartFrom = some t0 ∧ s.fld Fld.RAS_STATUS_STATE 0 = 2 ∧ s.gateOpen 26 = true ∧
      tuLe (tuAdd t0 (s.pixels (2 * s.framePix))) (s.at t).time = true) ∧
    (∃ (s : State) (t : Tu),
      s.alive = true ∧ s.ras.teWait = true ∧ s.fld Fld.RAS_STATUS_STATE 0 = 1 ∧
      tuLe (tuAdd s.ras.vbAt s.teFrom) (s.at t).time = true) ∧
    (∃ (s : State) (t : Tu),
      s.alive = true ∧ s.ras.teWait = true ∧ s.fld Fld.RAS_STATUS_STATE 0 = 1 ∧
      tuLe (tuAdd s.ras.vbAt s.teFrom) (s.at t).time = false) ∧
    (∃ (s : State) (t : Tu),
      s.alive = true ∧ s.ras.teWait = true ∧ s.fld Fld.RAS_STATUS_STATE 0 = 1 ∧
      tuLe (tuAdd s.ras.vbAt (s.teFrom + s.pixels s.framePix)) (s.at t).time = true) ∧
    (∃ (s : State),
      s.alive = true ∧ s.ras.teWait = false) :=
  ⟨⟨atTime 890000000 (hostLayer (rasIn 1 { timed Ras.init with frame := true } State.reset)), 100, by decide +kernel⟩,
    ⟨atTime 890000000 (rasOn (rasIn 2 { timed Ras.init with restartFrom := some 5, abandoned := true } State.reset)),
      100, 5, by decide +kernel⟩,
    ⟨atTime 890000000 (rasOn (rasIn 1 { timed Ras.init with teWait := true } State.reset)), 100, by decide +kernel⟩,
    ⟨rasIn 1 { timed Ras.init with teWait := true, vbAt := 4000000 } State.reset, 100, by decide +kernel⟩,
    ⟨atTime 890000000 (rasOn (rasIn 1 { timed Ras.init with teWait := true } State.reset)), 100, by decide +kernel⟩,
    ⟨State.reset, by decide +kernel⟩⟩

theorem witness_LanternIsOperated :
    (∃ (s : State) (r : RasTiming) (v : Word),
      s.hostUp = true ∧ (s.writeRW (rasTimingReg r) 0 v).writtenOk = true) ∧
    (∃ (s : State) (r : RasTiming) (v : Word),
      s.hostUp = true ∧ (s.writeRW (rasTimingReg r) 0 v).writtenOk = false) ∧
    (∃ (s : State) (v : Word),
      s.hostUp = true ∧ s.ras.dsiCmd = none ∧ BitVec.getLsbD v 7 = true ∧ s.gateOpen 26 = true ∧ s.gateOpen 27 = true ∧
      s.standby = false) ∧
    (∃ (s : State),
      s.hostUp = true ∧ s.ras.dsiCmd.isSome = true) ∧
    (∃ (s : State) (rd : Bool),
      s.alive = true ∧ s.ras.dsiCmd = some rd) ∧
    (∃ (s : State) (rd : Bool),
      s.alive = true ∧ s.ras.dsiCmd = some rd ∧ rd = true) ∧
    (∃ (s : State) (i : ℕ) (lines : List (ℕ × List Byte)),
      s.hostUp = true ∧ s.ras.hfoBusy = some (i, lines)) ∧
    (∃ (s : State) (t : Tu) (n : Fin 8),
      s.alive = true ∧ s.fld Fld.RAS_STATUS_STATE 0 = 1 ∧ (s.at t).inPicture = true ∧ s.layerOn ↑n = true ∧
      s.fld Fld.RAS_UNDERRUN_COUNT ↑n < 2 ^ 32 - 1) ∧
    (∃ (s : State) (b : Fin 16),
      s.hostUp = true ∧ s.fld Fld.RAS_BUF_STATUS_STATE ↑b = 0) ∧
    (∃ (s : State) (b : Fin 16),
      s.hostUp = true ∧ s.fld Fld.RAS_BUF_STATUS_STATE ↑b ≠ 0 ∧ s.bufNamed ↑b = true) ∧
    (∃ (s : State) (b : Fin 16),
      s.hostUp = true ∧ s.fld Fld.RAS_BUF_STATUS_STATE ↑b ≠ 0 ∧ s.bufNamed ↑b = false ∧
      s.fld Fld.RAS_STATUS_STATE 0 ≠ 0 ∧ s.ras.reading.contains ↑b = true) ∧
    (∃ (s : State) (b : Fin 16),
      s.hostUp = true ∧ s.fld Fld.RAS_BUF_STATUS_STATE ↑b ≠ 0 ∧ s.bufNamed ↑b = false ∧
      (s.fld Fld.RAS_STATUS_STATE 0 = 0 ∨ s.ras.reading.contains ↑b = false)) :=
  ⟨⟨State.reset, .timingH, 0xFFFFFFFF, by decide +kernel⟩,
    ⟨State.reset, .timingH, 0, by decide +kernel⟩,
    ⟨State.reset, 0xC0, by decide +kernel⟩,
    ⟨rasIn 0 { Ras.init with dsiCmd := some true } State.reset, by decide +kernel⟩,
    ⟨rasIn 0 { Ras.init with dsiCmd := some true } State.reset, true, by decide +kernel⟩,
    ⟨rasIn 0 { Ras.init with dsiCmd := some true } State.reset, true, by decide +kernel⟩,
    ⟨rasIn 0 { Ras.init with hfoBusy := some (2, [(4096, [1, 2]), (8192, [3])]) } State.reset, 2, [(4096, [1, 2]),
      (8192, [3])], by decide +kernel⟩,
    ⟨atTime 890000000 (hostLayer (rasIn 1 { timed Ras.init with frame := true } State.reset)), 100, 3,
      by decide +kernel⟩,
    ⟨State.reset, 0, by decide +kernel⟩,
    ⟨rasIn 1 { timed Ras.init with named := [2] } ((State.reset.setFld Fld.RAS_BUF_STATUS_STATE 9 1).setFld Fld.RAS_LAYER_BUF_BUF 2 9),
      9, by decide +kernel⟩,
    ⟨rasIn 1 { timed Ras.init with reading := [9] } (State.reset.setFld Fld.RAS_BUF_STATUS_STATE 9 1), 9,
      by decide +kernel⟩,
    ⟨State.reset.setFld Fld.RAS_BUF_STATUS_STATE 9 1, 9, by decide +kernel⟩⟩

theorem witness_StreamDataAreStagedAndDelivered :
    (∃ (s : State) (q : Fin 64) (d : Datum),
      s.alive = true ∧ List.find? (fun x => x.q == ↑q) s.dma.inbound = some d ∧ s.qState ↑q = 1 ∧
      (s.queue ↑q).accepting = true ∧ (s.queue ↑q).bytes + d.bytes.length ≤ stageSize s.pitch.recs ↑q) ∧
    (∃ (s : State) (q : Fin 64) (d : Datum),
      s.alive = true ∧ List.find? (fun x => x.q == ↑q) s.dma.inbound = some d ∧ s.qState ↑q = 1 ∧
      (s.queue ↑q).accepting = true ∧ stageSize s.pitch.recs ↑q < (s.queue ↑q).bytes + d.bytes.length) ∧
    (∃ (s : State) (q : Fin 64) (d : Datum),
      s.alive = true ∧ List.find? (fun x => x.q == ↑q) s.dma.inbound = some d ∧
      (s.qState ↑q ≠ 1 ∨ (s.queue ↑q).accepting = false)) ∧
    (∃ (s : State) (q : Fin 64) (c : Circ) (b : Batch) (rest : List Batch),
      s.hostUp = true ∧ (s.queue ↑q).circ = some c ∧ (s.queue ↑q).staged = b :: rest ∧
      (s.qState ↑q = 1 ∨ s.qState ↑q = 2 ∨ s.qState ↑q = 3) ∧ s.held = false ∧ (s.queue ↑q).release = none ∧
      b.open_ = false ∧ b.gap = none ∧ s.cplFull ↑q = false ∧ b.bytes.length ≤ s.freeSpace (↑q) c ∧ 0 < c.size ∧
      c.size < 2 ^ 32 ∧ b.bytes ≠ []) ∧
    (∃ (s : State) (q : Fin 64) (c : Circ) (b : Batch) (rest : List Batch) (g : Gap),
      s.hostUp = true ∧ (s.queue ↑q).circ = some c ∧ (s.queue ↑q).staged = b :: rest ∧
      (s.qState ↑q = 1 ∨ s.qState ↑q = 2 ∨ s.qState ↑q = 3) ∧ s.held = false ∧ (s.queue ↑q).release = none ∧
      b.open_ = false ∧ b.gap = some g ∧ s.cplFull ↑q = false) ∧
    (∃ (s : State) (q : Fin 64) (c : Circ) (b : Batch) (rest : List Batch),
      s.hostUp = true ∧ (s.queue ↑q).circ = some c ∧ (s.queue ↑q).staged = b :: rest ∧
      (s.qState ↑q = 1 ∨ s.qState ↑q = 2 ∨ s.qState ↑q = 3) ∧ s.held = false ∧ (s.queue ↑q).release = none ∧
      b.open_ = false ∧ (s.cplFull ↑q = true ∨ b.gap = none ∧ s.freeSpace (↑q) c < b.bytes.length)) :=
  ⟨⟨{ queueIn 0 1 1 Queue.init rich with dma := { Dma.init with queues := [(0, { Queue.init with accepting := true })], inbound := [⟨0, [1, 2], 0⟩] } },
      0, ⟨0, [1, 2], 0⟩, by decide +kernel⟩,
    ⟨{ queueIn 3 1 1 Queue.init rich with dma := { Dma.init with queues := [(3, { Queue.init with accepting := true })], inbound := [⟨3, [1, 2], 0⟩] } },
      3, ⟨3, [1, 2], 0⟩, by decide +kernel⟩,
    ⟨{ queueIn 0 1 1 Queue.init rich with dma := { Dma.init with queues := [(0, { Queue.init with accepting := false })], inbound := [⟨0, [1, 2], 0⟩] } },
      0, ⟨0, [1, 2], 0⟩, by decide +kernel⟩,
    ⟨queueIn 0 1 1 { Queue.init with circ := some circ0, staged := [batchOf 3 [1, 2, 3]] } rich, 0, circ0,
      batchOf 3 [1, 2, 3], [], by decide +kernel⟩,
    ⟨queueIn 0 1 1 { Queue.init with circ := some circ0, staged := [{ batchOf 3 [1] with gap := some ⟨1, 2, 30⟩ }] } rich,
      0, circ0, { batchOf 3 [1] with gap := some ⟨1, 2, 30⟩ }, [], ⟨1, 2, 30⟩, by decide +kernel⟩,
    ⟨queueIn 0 1 1 { Queue.init with circ := some { circ0 with size := 2 }, staged := [batchOf 3 [1, 2, 3]] } rich, 0,
      { circ0 with size := 2 }, batchOf 3 [1, 2, 3], [], by decide +kernel⟩⟩

theorem witness_ReadoutDescriptorsExecute :
    (∃ (s : State) (q : Fin 64),
      s.hostUp = true ∧ s.qKind ↑q = 7 ∧ s.qState ↑q = 1 ∧ 1 ≤ s.posted ↑q ∧ 1 ≤ s.readoutSlots ∧
      (s.queue ↑q).xfers.length < max 1 (s.fld Fld.DMA_Q_CFG_DEPTH ↑q)) ∧
    (∃ (s : State) (q : Fin 64) (d : Xfer) (rest : List Xfer),
      s.hostUp = true ∧ s.qKind ↑q = 7 ∧ (s.queue ↑q).xfers = d :: rest ∧ s.cplFull ↑q = false) :=
  ⟨⟨queueIn 5 7 1 Queue.init (rich.setFld Fld.DMA_Q_TAIL_INDEX 5 3), 5, by decide +kernel⟩,
    ⟨queueIn 5 7 1 { Queue.init with xfers := [xferRuns true, xferRuns false] } rich, 5, xferRuns true,
      [xferRuns false], by decide +kernel⟩⟩

theorem witness_QueuesStartAndEnd :
    (∃ (s : State) (q : Fin 64),
      s.hostUp = true ∧ s.qKind ↑q ≠ 0) ∧
    (∃ (s : State) (q : Fin 64),
      s.hostUp = true ∧ s.qKind ↑q ≠ 0 ∧ s.qState ↑q = 0) ∧
    (∃ (s : State) (q : Fin 64),
      s.hostUp = true ∧ s.qKind ↑q ≠ 0 ∧ s.qState ↑q ≠ 0) ∧
    (∃ (s : State) (q : Fin 64),
      s.hostUp = true ∧ s.qKind ↑q ≠ 0 ∧ s.qState ↑q = 2 ∧ (s.queue ↑q).staged = [] ∧ (s.queue ↑q).xfers = [] ∧
      (s.queue ↑q).release = none) ∧
    (∃ (s : State) (q : Fin 64),
      s.hostUp = true ∧ s.qKind ↑q ≠ 0 ∧ s.qState ↑q ≠ 0 ∧ s.qState ↑q ≠ 5) ∧
    (∃ (s : State) (q : Fin 64),
      s.hostUp = true ∧ s.qKind ↑q ≠ 0 ∧ (s.qState ↑q = 0 ∨ s.qState ↑q = 5)) :=
  ⟨⟨queueIn 0 1 1 { Queue.init with accepting := true } rich, 0, by decide +kernel⟩,
    ⟨queueIn 5 7 0 Queue.init rich, 5, by decide +kernel⟩,
    ⟨{queueIn 0 1 1 {Queue.init with accepting := true} rich with dma := {Dma.init with queues := [(0, {Queue.init with accepting := true})], inbound := [⟨0, [1, 2], 0⟩] }},
      0, by decide +kernel⟩,
    ⟨queueIn 5 7 2 Queue.init rich, 5, by decide +kernel⟩,
    ⟨{queueIn 0 1 1 {Queue.init with accepting := true} rich with dma := {Dma.init with queues := [(0, {Queue.init with accepting := true})], inbound := [⟨0, [1, 2], 0⟩] }},
      0, by decide +kernel⟩,
    ⟨queueIn 5 7 0 Queue.init rich, 5, by decide +kernel⟩⟩

theorem witness_HostLinkIsWatched :
    (∃ (s : State) (t : Tu) (a : Tu) (stall : Word),
      s.alive = true ∧ a = (s.at t).time - BitVec.ofNat 64 (ns (BitVec.toNat stall))) ∧
    (∃ (s : State) (gen : Fin 6) (width : Fin 9),
      s.hostUp = true ∧ (↑gen < s.fld Fld.HUB_HOST_BUDGET_LINK_GEN 0 ∨ ↑width < s.fld Fld.HUB_HOST_BUDGET_LINK_WIDTH 0)) ∧
    (∃ (s : State) (gen : Fin 6) (width : Fin 9),
      s.hostUp = true ∧ s.fld Fld.HUB_HOST_BUDGET_LINK_GEN 0 ≤ ↑gen ∧ s.fld Fld.HUB_HOST_BUDGET_LINK_WIDTH 0 ≤ ↑width) ∧
    (∃ (s : State) (q : Fin 64),
      s.hostUp = true ∧ s.qKind ↑q = 7 ∧ s.qState ↑q = 1) ∧
    (∃ (s : State) (q : Fin 64) (c : Circ),
      s.hostUp = true ∧ (s.queue ↑q).circ = some c) ∧
    (∃ (s : State),
      s.hostUp = true ∧ s.fld Fld.DMA_LINK_RESET_CNT_COUNT 0 = 0) :=
  ⟨⟨State.reset, 100, 100, 0, by decide +kernel⟩,
    ⟨State.reset, 1, 1, by decide +kernel⟩,
    ⟨(rich.setFld Fld.HUB_HOST_BUDGET_LINK_GEN 0 4).setFld Fld.HUB_HOST_BUDGET_LINK_WIDTH 0 8, 4, 8,
      by decide +kernel⟩,
    ⟨queueIn 5 7 1 Queue.init (rich.setFld Fld.DMA_Q_TAIL_INDEX 5 3), 5, by decide +kernel⟩,
    ⟨queueIn 0 1 1 {Queue.init with circ := some circ0, staged := [batchOf 3 [1,2,3], batchOf 4 [5]]} rich, 0,
      { base := 65536, size := 8192, rd := 0, idx := 0 }, by decide +kernel⟩,
    ⟨State.reset, by decide +kernel⟩⟩

theorem witness_RaiseSetsStatus :
    (∃ (s : State) (n : ℕ),
      n < 512 ∧ evtValid n = true ∧ s.evtAsleep n = false ∧ s.evtAbsent n = false ∧ s.fld Fld.EVT_ROUTE_KIND n ≠ 1) ∧
    (∃ (s : State) (n : ℕ),
      n < 512 ∧ evtValid n = true ∧ s.evtAsleep n = false ∧ s.evtAbsent n = false ∧ s.fld Fld.EVT_ROUTE_KIND n ≠ 1 ∧
      s.fld Fld.EVT_DATA_CAUSES n = 0) ∧
    (∃ (s : State) (n : ℕ),
      n < 512 ∧ evtValid n = true ∧ s.evtAsleep n = false ∧ s.evtAbsent n = false ∧ s.fld Fld.EVT_ROUTE_KIND n ≠ 1 ∧
      s.fld Fld.EVT_DATA_CAUSES n ≠ 0) ∧
    (∃ (s : State) (n : ℕ) (k : ℕ),
      n < 512 ∧ evtValid n = true ∧ s.evtAsleep n = false ∧ s.evtAbsent n = false ∧ s.fld Fld.EVT_ROUTE_KIND n ≠ 1 ∧
      k ≠ n) :=
  ⟨⟨rich, 471, by decide +kernel⟩,
    ⟨rich, 471, by decide +kernel⟩,
    ⟨rich.setReg .EVT_DATA 471 0x10005, 471, by decide +kernel⟩,
    ⟨rich, 471, 470, by decide +kernel⟩⟩

theorem witness_EventRegistersAct :
    (∃ (s : State) (t : Tu) (w : Fin 16) (v : Word),
      s.hostUp = true ∧ (∀ b < 32,
      BitVec.getLsbD v b = true → (List.any s.evt.raises fun e => e.1 == 32 * ↑w + b) = true → (tget { cycle := 0, delivered := false } s.evt.raises (32 * ↑w + b)).cycle ≠ (s.at t).evtCycle)) ∧
    (∃ (s : State),
      s.hostUp = true) :=
  ⟨⟨State.reset, 100, 0, 0, by decide +kernel⟩,
    ⟨State.reset, by decide +kernel⟩⟩

theorem witness_VectorsSignalOnce :
    (∃ (s : State) (v : Fin 64),
      s.hostUp = true ∧ s.vecActive ↑v = false) ∧
    (∃ (s : State) (v : Fin 64),
      s.hostUp = true ∧ s.vecActive ↑v = true ∧ s.vecMasked ↑v = false) ∧
    (∃ (s : State) (v : Fin 64),
      s.hostUp = true ∧ s.vecActive ↑v = true ∧ s.vecMasked ↑v = true) ∧
    (∃ (s : State) (v : Fin 64),
      s.hostUp = true ∧ s.evt.funcMask = false ∧ s.evt.pba.getLsbD ↑v = true ∧ s.vecActive ↑v = false) ∧
    (∃ (s : State) (v : Fin 64),
      s.hostUp = true ∧ s.evt.funcMask = false ∧ s.evt.pba.getLsbD ↑v = true ∧ s.vecActive ↑v = true ∧
      s.vecArmed ↑v = true) ∧
    (∃ (s : State),
      s.hostUp = true ∧ s.evt.pba = 0) :=
  ⟨⟨State.reset, 0, by decide +kernel⟩,
    ⟨unmasked 35 (routed 3 35 rich), 35, by decide +kernel⟩,
    ⟨routed 3 35 rich, 35, by decide +kernel⟩,
    ⟨pendingVec 35 rich, 35, by decide +kernel⟩,
    ⟨pendingVec 35 (routed 3 35 rich), 35, by decide +kernel⟩,
    ⟨State.reset, by decide +kernel⟩⟩

theorem witness_AttachSettlesRoles :
    (∃ (s : State) (m : List Byte) (a : Attach),
      s.alive = true ∧ s.glnRx = true ∧ glnCrcOk m = true ∧ glnTyp m = 1 ∧
      (glnTriple 1 = true → tget 0 s.gln.seqRx 1 ≠ glnSeq m + 1) ∧ s.mgt.run = 1 ∧ s.gln.attach = some a ∧
      s.gln.rolePend = none ∧ s.helloRefusal a m = 0 ∧ s.winsRole a m = true) ∧
    (∃ (s : State) (m : List Byte) (a : Attach),
      s.alive = true ∧ s.glnRx = true ∧ glnCrcOk m = true ∧ glnTyp m = 1 ∧
      (glnTriple 1 = true → tget 0 s.gln.seqRx 1 ≠ glnSeq m + 1) ∧ s.mgt.run = 1 ∧ s.gln.attach = some a ∧
      s.gln.rolePend = none ∧ s.helloRefusal a m = 0 ∧ s.winsRole a m = false) ∧
    (∃ (s : State) (m : List Byte) (a : Attach),
      s.alive = true ∧ s.glnRx = true ∧ glnCrcOk m = true ∧ glnTyp m = 1 ∧
      (glnTriple 1 = true → tget 0 s.gln.seqRx 1 ≠ glnSeq m + 1) ∧ s.mgt.run = 1 ∧ s.gln.attach = some a ∧
      s.gln.rolePend = none ∧ s.helloRefusal a m ≠ 0 ∧ s.fld Fld.EVT_ROUTE_KIND 62 ≠ 1) ∧
    (∃ (s : State) (m : List Byte),
      s.alive = true ∧ s.glnRx = true ∧ glnCrcOk m = true ∧ glnTyp m = 2 ∧
      (glnTriple 2 = true → tget 0 s.gln.seqRx 2 ≠ glnSeq m + 1) ∧ s.mgt.run = 1 ∧ s.gln.attach.isSome = true) ∧
    (∃ (s : State) (t : Tu) (a : Attach),
      s.alive = true ∧ s.gln.attach = some a ∧ s.mgt.run = 1 ∧ s.gln.rolePend = none ∧
      tuLe (tuAdd a.at_ (ns 100000000)) (s.at t).time = true ∧ s.fld Fld.EVT_ROUTE_KIND 62 ≠ 1) ∧
    (∃ (s : State),
      s.hostUp = true ∧ s.mgt.run = 1 ∧ s.fld Fld.MGT_MB_CMD_CMD 0 = 64 ∧ s.fld Fld.MGT_MB_STATE_STATE 0 = 0 ∧
      argAt s.mbArgs 0 ≤ 2 ∧ argAt s.mbArgs 1 ≤ 2 ∧ s.attached = false ∧ s.flag Fld.GLN_STATUS_PRESENT 0 = true ∧
      s.flag Fld.GLN_CFG_EN 0 = true ∧ s.glnUp = true) ∧
    (∃ (s : State),
      s.hostUp = true ∧ s.mgt.run = 1 ∧ s.fld Fld.MGT_MB_CMD_CMD 0 = 64 ∧ s.fld Fld.MGT_MB_STATE_STATE 0 = 0 ∧
      argAt s.mbArgs 0 ≤ 2 ∧ argAt s.mbArgs 1 ≤ 2 ∧ s.attached = true) :=
  ⟨⟨attaching run, helloMsg 0 5 0 10 33 0 1 0, attach0, by decide +kernel⟩,
    ⟨attaching run, helloMsg 0 5 0 10 33 1 1 1, attach0, by decide +kernel⟩,
    ⟨attaching run, helloMsg 0 5 0 10 0 0 1 0, attach0, by decide +kernel⟩,
    ⟨attaching run, glnMessage 2 2 1 (leBytes 6 77 ++ [1]), by decide +kernel⟩,
    ⟨atTime 820000000000 (attaching State.reset), 100, attach0, by decide +kernel⟩,
    ⟨mailbox 0x40 [0, 0] (twinIs 0 0 run), by decide +kernel⟩,
    ⟨mailbox 0x40 [1, 1] (twinIs 2 0 run), by decide +kernel⟩⟩

theorem witness_TwinTimeIsFollowed :
    (∃ (s : State) (m : List Byte),
      s.alive = true ∧ s.glnRx = true ∧ glnCrcOk m = true ∧ glnTyp m = 4 ∧
      (glnTriple 4 = true → tget 0 s.gln.seqRx 4 ≠ glnSeq m + 1) ∧ s.role = 1) ∧
    (∃ (s : State) (m : List Byte),
      s.alive = true ∧ s.glnRx = true ∧ glnCrcOk m = true ∧ glnTyp m = 5 ∧
      (glnTriple 5 = true → tget 0 s.gln.seqRx 5 ≠ glnSeq m + 1) ∧ s.measuresEpoch = true) ∧
    (∃ (s : State) (m : List Byte),
      s.alive = true ∧ s.glnRx = true ∧ glnCrcOk m = true ∧ glnTyp m = 7 ∧
      (glnTriple 7 = true → tget 0 s.gln.seqRx 7 ≠ glnSeq m + 1) ∧ s.followsPartner = true) ∧
    (∃ (s : State) (t : Tu) (m : List Byte),
      s.alive = true ∧ s.glnRx = true ∧ glnCrcOk m = true ∧ glnTyp m = 6 ∧
      (glnTriple 6 = true → tget 0 s.gln.seqRx 6 ≠ glnSeq m + 1) ∧ s.attached = true ∧
      tuLe (tuAdd (s.at t).time (ns 64)) (BitVec.ofNat 64 (leAt m 4 8)) = true) ∧
    (∃ (s : State) (t : Tu) (m : List Byte),
      s.alive = true ∧ s.glnRx = true ∧ glnCrcOk m = true ∧ glnTyp m = 6 ∧
      (glnTriple 6 = true → tget 0 s.gln.seqRx 6 ≠ glnSeq m + 1) ∧ s.attached = true ∧
      tuLe (tuAdd (s.at t).time (ns 64)) (BitVec.ofNat 64 (leAt m 4 8)) = false ∧
      s.fld Fld.GLN_SYNC_DROP_COUNT 0 < 2 ^ 32 - 1 ∧ s.fld Fld.EVT_ROUTE_KIND 53 ≠ 1) :=
  ⟨⟨twinIs 1 0 run, glnMessage 4 0 0 (leBytes 8 55), by decide +kernel⟩,
    ⟨twinIs 2 0 run, glnMessage 5 0 0 (leBytes 8 10 ++ leBytes 8 40 ++ leBytes 8 60), by decide +kernel⟩,
    ⟨twinIs 2 0 run, glnMessage 7 0 2 (leBytes 6 5 ++ leBytes 8 100000), by decide +kernel⟩,
    ⟨twinIs 1 0 run, 100, glnMessage 6 0 3 (leBytes 8 9000000), by decide +kernel⟩,
    ⟨twinIs 1 0 run, 100, glnMessage 6 0 3 (leBytes 8 900), by decide +kernel⟩⟩

theorem witness_TwinRecordsAreCompared :
    (∃ (s : State) (m : List Byte) (r : FrameRec) (crc : Word),
      s.alive = true ∧ s.glnRx = true ∧ glnCrcOk m = true ∧ glnTyp m = 8 ∧
      (glnTriple 8 = true → tget 0 s.gln.seqRx 8 ≠ glnSeq m + 1) ∧ s.attached = true ∧ s.glnMode ≠ 0 ∧
      r.frame = BitVec.ofNat 48 (leAt m 4 6) ∧ s.gln.own = [r] ∧ s.gln.partner = [] ∧ r.chsum = [] ∧
      r.digest = some (crc, leAt m 14 2, leAt m 16 2) ∧ s.compares r.frame = true ∧ crc = BitVec.ofNat 32 (leAt m 10 4)) ∧
    (∃ (s : State) (m : List Byte) (r : FrameRec) (crc : Word),
      s.alive = true ∧ s.glnRx = true ∧ glnCrcOk m = true ∧ glnTyp m = 8 ∧
      (glnTriple 8 = true → tget 0 s.gln.seqRx 8 ≠ glnSeq m + 1) ∧ s.attached = true ∧ s.glnMode ≠ 0 ∧
      r.frame = BitVec.ofNat 48 (leAt m 4 6) ∧ s.gln.own = [r] ∧ s.gln.partner = [] ∧ r.chsum = [] ∧
      r.digest = some (crc, leAt m 14 2, leAt m 16 2) ∧ s.compares r.frame = true ∧
      crc ≠ BitVec.ofNat 32 (leAt m 10 4) ∧ s.fld Fld.GLN_CMP_CTRL_CNT_COUNT 0 < 255 ∧ s.fld Fld.EVT_ROUTE_KIND 54 ≠ 1) ∧
    (∃ (s : State) (m : List Byte),
      s.alive = true ∧ s.glnRx = true ∧ glnCrcOk m = true ∧ glnTyp m = 9 ∧
      (glnTriple 9 = true → tget 0 s.gln.seqRx 9 ≠ glnSeq m + 1) ∧ s.attached = true ∧ s.glnMode ≠ 0 ∧ glnSub m < 4 ∧
      s.gln.own = []) ∧
    (∃ (s : State) (r : FrameRec),
      s.alive = true ∧ s.gln.own = [r] ∧ r.digest.isSome = true ∧ r.chsum = [] ∧ 4 ≤ BitVec.toNat (s.frame - r.frame) ∧
      s.flag Fld.GLN_CMP_CFG_EN 0 = true ∧ s.glnUp = true ∧ s.gln.skip.contains r.frame = false ∧
      s.fld Fld.GLN_CMP_MISS_CNT_COUNT 0 < 255 ∧ s.fld Fld.EVT_ROUTE_KIND 56 ≠ 1) :=
  ⟨⟨{ comparing (frameRec 6 0x1234) with frame := 7 }, digestMsg 6 0x1234 1 2, frameRec 6 0x1234, 0x1234,
      by decide +kernel⟩,
    ⟨{ comparing (frameRec 6 0x1235) with frame := 7 }, digestMsg 6 0x1234 1 2, frameRec 6 0x1235, 0x1235,
      by decide +kernel⟩,
    ⟨twinIs 2 2 run, glnMessage 9 1 0 (leBytes 4 5 ++ leBytes 4 0x30005), by decide +kernel⟩,
    ⟨{ comparing (frameRec 6 0x1235) with frame := 12 }, frameRec 6 0x1235, by decide +kernel⟩⟩

theorem witness_TwinMessagesAct :
    (∃ (s : State) (m : List Byte),
      s.alive = true ∧ s.glnRx = true ∧ glnCrcOk m = true ∧ glnTyp m = 3 ∧
      (glnTriple 3 = true → tget 0 s.gln.seqRx 3 ≠ glnSeq m + 1) ∧ s.attached = true ∧ s.role < 2) ∧
    (∃ (s : State) (m : List Byte),
      s.alive = true ∧ s.glnRx = true ∧ glnCrcOk m = true ∧ glnTyp m = 3 ∧
      (glnTriple 3 = true → tget 0 s.gln.seqRx 3 ≠ glnSeq m + 1) ∧ s.attached = true ∧ 2 ≤ s.role ∧ s.glnMode = 2) ∧
    (∃ (s : State) (m : List Byte),
      s.alive = true ∧ s.glnRx = true ∧ glnCrcOk m = true ∧ glnTyp m = 11 ∧
      (glnTriple 11 = true → tget 0 s.gln.seqRx 11 ≠ glnSeq m + 1) ∧ s.role = 1 ∧ s.fld Fld.EVT_ROUTE_KIND 59 ≠ 1) ∧
    (∃ (s : State) (m : List Byte),
      s.alive = true ∧ s.glnRx = true ∧ glnCrcOk m = false ∧ s.fld Fld.GLN_ERR_CRC 0 < 2 ^ 16 - 1) ∧
    (∃ (s : State) (m : List Byte),
      s.alive = true ∧ s.glnRx = true ∧ glnCrcOk m = true ∧ glnReserved (glnTyp m) = true ∧
      s.fld Fld.GLN_ERR_UNKNOWN 0 < 2 ^ 16 - 1) ∧
    (∃ (s : State) (t : Tu) (m : List Byte) (b : TwinRes),
      s.alive = true ∧ s.glnRx = true ∧ glnCrcOk m = true ∧ glnTyp m = 10 ∧
      (glnTriple 10 = true → tget 0 s.gln.seqRx 10 ≠ glnSeq m + 1) ∧ s.twinOn = true ∧
      b = { conv := glnSub m % 2, entry := glnSub m / 16, tts := BitVec.ofNat 64 (leAt m 4 8), value := BitVec.ofNat 32 (leAt m 12 4), ready := (s.at t).time } ∧
      s.pmu.local_ = []) ∧
    (∃ (s : State) (t : Tu) (m : List Byte) (b : TwinRes) (a : TwinRes),
      s.alive = true ∧ s.glnRx = true ∧ glnCrcOk m = true ∧ glnTyp m = 10 ∧
      (glnTriple 10 = true → tget 0 s.gln.seqRx 10 ≠ glnSeq m + 1) ∧ s.twinOn = true ∧
      b = { conv := glnSub m % 2, entry := glnSub m / 16, tts := BitVec.ofNat 64 (leAt m 4 8), value := BitVec.ofNat 32 (leAt m 12 4), ready := (s.at t).time } ∧
      s.pmu.local_ = [a] ∧ s.twinPair b a = true ∧ pmuDiffers a.value b.value (s.fld Fld.PMU_TWIN_LIMIT_LSB 0) = false) ∧
    (∃ (s : State) (t : Tu) (m : List Byte) (b : TwinRes) (a : TwinRes),
      s.alive = true ∧ s.glnRx = true ∧ glnCrcOk m = true ∧ glnTyp m = 10 ∧
      (glnTriple 10 = true → tget 0 s.gln.seqRx 10 ≠ glnSeq m + 1) ∧ s.twinOn = true ∧
      b = { conv := glnSub m % 2, entry := glnSub m / 16, tts := BitVec.ofNat 64 (leAt m 4 8), value := BitVec.ofNat 32 (leAt m 12 4), ready := (s.at t).time } ∧
      s.pmu.local_ = [a] ∧ s.twinPair b a = true ∧ pmuDiffers a.value b.value (s.fld Fld.PMU_TWIN_LIMIT_LSB 0) = true ∧
      s.fld Fld.EVT_ROUTE_KIND 378 ≠ 1 ∧ s.fld Fld.PMU_TWIN_FAIL_CNT_COUNT 0 < 2 ^ Fld.PMU_TWIN_FAIL_CNT_COUNT.width - 1) :=
  ⟨⟨twinIs 1 0 run, glnMessage 3 0 0 (leBytes 6 5 ++ leBytes 6 9), by decide +kernel⟩,
    ⟨twinIs 2 2 run, glnMessage 3 0 0 (leBytes 6 5 ++ leBytes 6 9), by decide +kernel⟩,
    ⟨twinIs 1 0 run, glnMessage 0xB 0 1 [], by decide +kernel⟩,
    ⟨twinIs 0 0 run, List.replicate 32 7, by decide +kernel⟩,
    ⟨twinIs 0 0 run, glnMessage 0 0 0 [], by decide +kernel⟩,
    ⟨(twinIs 1 0 run).setFld Fld.PMU_TWIN_CFG_EN 0 1, 100, glnMessage 0xA 1 0 (leBytes 8 55 ++ leBytes 4 9), ⟨1, 0,
      55, 9, 100⟩, by decide +kernel⟩,
    ⟨{ (twinIs 1 0 run).setFld Fld.PMU_TWIN_CFG_EN 0 1 with pmu := { Pmu.init with local_ := [⟨1, 0, 55, 9, 3⟩] } },
      100, glnMessage 0xA 1 0 (leBytes 8 55 ++ leBytes 4 9), ⟨1, 0, 55, 9, 100⟩, ⟨1, 0, 55, 9, 3⟩, by decide +kernel⟩,
    ⟨{ (twinIs 1 0 run).setFld Fld.PMU_TWIN_CFG_EN 0 1 with pmu := { Pmu.init with local_ := [⟨1, 0, 55, 900, 3⟩] } },
      100, glnMessage 0xA 1 0 (leBytes 8 55 ++ leBytes 4 9), ⟨1, 0, 55, 9, 100⟩, ⟨1, 0, 55, 900, 3⟩, by decide +kernel⟩⟩

theorem witness_FailoverTakesOver :
    (∃ (s : State) (f : Frame),
      (regsWf s.regs = true ∧ (s.regs.all fun e => !hardWired e.1.n) = true) ∧ Memory.wf s.mem = true ∧ s.alive = true ∧
      s.pitched = true ∧ s.standby = false ∧ s.tlk.step = none ∧ (s.tick.issued = true ∧
      f = frameAt s.k s.frame s.nextGrid ∧ frameFuture s.frame f = true ∨ s.tick.issued = false ∧
      f = BitVec.ofNat 48 (BitVec.toNat s.nextGrid / s.period)) ∧ s.gln.rolePend = none ∧ s.gln.deposed = false ∧
      s.gln.detachAt = none ∧ s.gln.soloNext = false ∧ s.role = 2 ∧ s.glnMode = 2 ∧ s.gln.takeover = false ∧
      s.gln.declared = false ∧ s.glnAges.failCauses ≠ 0 ∧ s.fld Fld.EVT_ROUTE_KIND 57 ≠ 1) ∧
    (∃ (s : State) (f : Frame),
      (regsWf s.regs = true ∧ (s.regs.all fun e => !hardWired e.1.n) = true) ∧ Memory.wf s.mem = true ∧ s.alive = true ∧
      s.pitched = true ∧ s.standby = false ∧ s.tlk.step = none ∧ (s.tick.issued = true ∧
      f = frameAt s.k s.frame s.nextGrid ∧ frameFuture s.frame f = true ∨ s.tick.issued = false ∧
      f = BitVec.ofNat 48 (BitVec.toNat s.nextGrid / s.period)) ∧ s.gln.rolePend = none ∧ s.gln.deposed = false ∧
      s.gln.detachAt = none ∧ s.gln.soloNext = false ∧ s.gln.takeover = true ∧ s.fld Fld.EVT_ROUTE_KIND 58 ≠ 1) ∧
    (∃ (s : State),
      s.hostUp = true ∧ s.mgt.run = 1 ∧ s.fld Fld.MGT_MB_CMD_CMD 0 = 66 ∧ s.fld Fld.MGT_MB_STATE_STATE 0 = 0 ∧
      s.role = 2 ∧ s.glnMode = 2 ∧ s.gln.takeover = false) ∧
    (∃ (s : State),
      s.hostUp = true ∧ s.mgt.run = 1 ∧ s.fld Fld.MGT_MB_CMD_CMD 0 = 66 ∧ s.fld Fld.MGT_MB_STATE_STATE 0 = 0 ∧
      s.role ≠ 2) :=
  ⟨⟨glnIs { Gln.init with failCause := 3 } (twinIs 2 2 run), 1, by decide +kernel⟩,
    ⟨glnIs { Gln.init with takeover := true } (twinIs 2 2 run), 1, by decide +kernel⟩,
    ⟨mailbox 0x42 [] (twinIs 2 2 run), by decide +kernel⟩,
    ⟨mailbox 0x42 [] (twinIs 1 2 run), by decide +kernel⟩⟩

theorem witness_TwinEnds :
    (∃ (s : State) (m : List Byte),
      s.alive = true ∧ s.glnRx = true ∧ glnCrcOk m = true ∧ glnTyp m = 12 ∧
      (glnTriple 12 = true → tget 0 s.gln.seqRx 12 ≠ glnSeq m + 1) ∧ s.attached = true ∧ s.mgt.run = 1 ∧ glnSub m = 0) ∧
    (∃ (s : State),
      s.hostUp = true ∧ s.mgt.run = 1 ∧ s.fld Fld.MGT_MB_CMD_CMD 0 = 65 ∧ s.fld Fld.MGT_MB_STATE_STATE 0 = 0 ∧
      s.attached = true ∧ s.gln.detachAt = none ∧ s.glnUp = true) ∧
    (∃ (s : State),
      s.alive = true ∧ s.standby = false ∧ s.gateOpen 28 = true ∧ s.glnUp = false ∧
      s.flag Fld.GLN_STATUS_PRESENT 0 = true ∧ s.flag Fld.GLN_CFG_EN 0 = true ∧ s.fld Fld.EVT_ROUTE_KIND 48 ≠ 1) ∧
    (∃ (s : State),
      s.alive = true ∧ s.standby = false ∧ s.gateOpen 28 = true ∧ s.glnUp = true ∧ s.fld Fld.EVT_ROUTE_KIND 48 ≠ 1) ∧
    (∃ (s : State),
      s.alive = true) ∧
    (∃ (s : State) (q : Fin 64) (n : ℕ),
      s.alive = true ∧ s.qKind ↑q ≠ 0 ∧ (s.queue ↑q).release = some n ∧ (∀ b ∈ (s.queue ↑q).staged,
      frameLe b.frame (s.frameOf RegName.GLN_DT_LO RegName.GLN_DT_HI 0) = true)) :=
  ⟨⟨mailbox 0x40 [1, 1] (twinIs 2 0 run), glnMessage 0xC 0 9 (leBytes 6 90), by decide +kernel⟩,
    ⟨mailbox 0x41 [] (twinIs 1 0 run), by decide +kernel⟩,
    ⟨(run.setFld Fld.GLN_CFG_EN 0 1).setFld Fld.GLN_STATUS_PRESENT 0 1, by decide +kernel⟩,
    ⟨twinIs 0 0 run, by decide +kernel⟩,
    ⟨State.reset, by decide +kernel⟩,
    ⟨queueIn 0 1 1 { Queue.init with release := some 4 } rich, 0, 4, by decide +kernel⟩⟩

theorem witness_MailboxAnswers :
    (∃ (s : State),
      s.hostUp = true ∧ s.mgt.run = 1 ∧ s.fld Fld.MGT_MB_CMD_CMD 0 = 1 ∧ s.fld Fld.MGT_MB_STATE_STATE 0 = 0) ∧
    (∃ (s : State) (cmd : ℕ),
      knownCmd cmd = false ∧ s.hostUp = true ∧ s.mgt.run = 1 ∧ s.fld Fld.MGT_MB_CMD_CMD 0 = cmd ∧
      s.fld Fld.MGT_MB_STATE_STATE 0 = 0) ∧
    (∃ (s : State),
      s.hostUp = true ∧ s.fld Fld.MGT_MB_STATE_STATE 0 = 2) ∧
    (∃ (s : State),
      s.hostUp = true ∧ s.fld Fld.MGT_MB_STATE_STATE 0 ≠ 2) ∧
    (∃ (s : State),
      s.hostUp = true ∧ s.mgt.run = 1 ∧ s.fld Fld.MGT_MB_CMD_CMD 0 = 80 ∧ s.fld Fld.MGT_MB_STATE_STATE 0 = 0 ∧
      1 ≤ argAt s.mbArgs 1 ∧ argAt s.mbArgs 1 ≤ 1024 ∧ (argAt s.mbArgs 2 + 2 ^ 32 * argAt s.mbArgs 3) % 64 = 0) ∧
    (∃ (s : State) (l : List LogEntry),
      s.hostUp = true ∧ s.mgt.run = 1 ∧ s.fld Fld.MGT_MB_CMD_CMD 0 = 80 ∧ s.fld Fld.MGT_MB_STATE_STATE 0 = 0 ∧
      1 ≤ argAt s.mbArgs 1 ∧ argAt s.mbArgs 1 ≤ 1024 ∧ (argAt s.mbArgs 2 + 2 ^ 32 * argAt s.mbArgs 3) % 64 = 0 ∧
      l = List.take (argAt s.mbArgs 1) (List.filter (fun e => decide (argAt s.mbArgs 0 ≤ e.seq)) s.logAll) ∧ l = []) ∧
    (∃ (s : State) (l : List LogEntry) (e : LogEntry) (l' : List LogEntry),
      s.hostUp = true ∧ s.mgt.run = 1 ∧ s.fld Fld.MGT_MB_CMD_CMD 0 = 80 ∧ s.fld Fld.MGT_MB_STATE_STATE 0 = 0 ∧
      1 ≤ argAt s.mbArgs 1 ∧ argAt s.mbArgs 1 ≤ 1024 ∧ (argAt s.mbArgs 2 + 2 ^ 32 * argAt s.mbArgs 3) % 64 = 0 ∧
      l = List.take (argAt s.mbArgs 1) (List.filter (fun e => decide (argAt s.mbArgs 0 ≤ e.seq)) s.logAll) ∧ l = e :: l') ∧
    (∃ (s : State),
      s.hostUp = true ∧ s.mgt.run = 1 ∧ s.fld Fld.MGT_MB_CMD_CMD 0 = 81 ∧ s.fld Fld.MGT_MB_STATE_STATE 0 = 0 ∧
      s.mgt.sram.length < 4096) ∧
    (∃ (s : State),
      s.hostUp = true ∧ s.mgt.run = 1 ∧ s.fld Fld.MGT_MB_CMD_CMD 0 = 112 ∧ s.fld Fld.MGT_MB_STATE_STATE 0 = 0 ∧
      argAt s.mbArgs 0 ≤ 15 ∧ 32 * argAt s.mbArgs 1 < fuseWidth (argAt s.mbArgs 0)) ∧
    (∃ (s : State),
      s.hostUp = true ∧ s.mgt.run = 1 ∧ s.fld Fld.MGT_MB_CMD_CMD 0 = 112 ∧ s.fld Fld.MGT_MB_STATE_STATE 0 = 0 ∧
      (15 < argAt s.mbArgs 0 ∨ fuseWidth (argAt s.mbArgs 0) ≤ 32 * argAt s.mbArgs 1)) ∧
    (∃ (s : State),
      s.hostUp = true ∧ s.mgt.run = 1 ∧ s.fld Fld.MGT_MB_CMD_CMD 0 = 113 ∧ s.fld Fld.MGT_MB_STATE_STATE 0 = 0 ∧
      argAt s.mbArgs 0 ≤ 15 ∧ 32 * argAt s.mbArgs 1 < fuseWidth (argAt s.mbArgs 0) ∧
      argAt s.mbArgs 2 * 2 ^ (32 * argAt s.mbArgs 1) < 2 ^ fuseWidth (argAt s.mbArgs 0) ∧
      argAt s.mbArgs 3 = 1179996997 ∧ fuseRule (argAt s.mbArgs 0) ≠ 0 ∧ fuseRule (argAt s.mbArgs 0) = 1 ∧ s.fuse 15 = 1) ∧
    (∃ (s : State),
      s.hostUp = true ∧ s.mgt.run = 1 ∧ s.fld Fld.MGT_MB_CMD_CMD 0 = 113 ∧ s.fld Fld.MGT_MB_STATE_STATE 0 = 0 ∧
      argAt s.mbArgs 0 ≤ 15 ∧ 32 * argAt s.mbArgs 1 < fuseWidth (argAt s.mbArgs 0) ∧
      argAt s.mbArgs 2 * 2 ^ (32 * argAt s.mbArgs 1) < 2 ^ fuseWidth (argAt s.mbArgs 0) ∧
      argAt s.mbArgs 3 = 1179996997 ∧ fuseRule (argAt s.mbArgs 0) ≠ 0 ∧
      (fuseRule (argAt s.mbArgs 0) = 2 ∨ s.fuse 15 ≠ 1) ∧ s.fuseAllowed = false) ∧
    (∃ (s : State),
      s.hostUp = true ∧ s.mgt.run = 1 ∧ s.fld Fld.MGT_MB_CMD_CMD 0 = 113 ∧ s.fld Fld.MGT_MB_STATE_STATE 0 = 0 ∧
      argAt s.mbArgs 0 ≤ 15 ∧ 32 * argAt s.mbArgs 1 < fuseWidth (argAt s.mbArgs 0) ∧
      argAt s.mbArgs 2 * 2 ^ (32 * argAt s.mbArgs 1) < 2 ^ fuseWidth (argAt s.mbArgs 0) ∧
      argAt s.mbArgs 3 = 1179996997 ∧ fuseRule (argAt s.mbArgs 0) ≠ 0 ∧
      (fuseRule (argAt s.mbArgs 0) = 2 ∨ s.fuse 15 ≠ 1) ∧ s.fuseAllowed = true) ∧
    (∃ (s : State),
      s.hostUp = true ∧ s.mgt.run = 1 ∧ s.fld Fld.MGT_MB_CMD_CMD 0 = 128 ∧ s.fld Fld.MGT_MB_STATE_STATE 0 = 0 ∧
      argAt s.mbArgs 0 / 2 ^ 16 % 256 ≤ 4 ∧ argAt s.mbArgs 0 / 2 ^ 24 % 256 ≤ 4 ∧ s.flag Fld.MGT_PMB_CFG_EN 0 = true ∧
      s.flag Fld.MGT_PMB_DEV_EN (argAt s.mbArgs 0 % 8) = true) ∧
    (∃ (s : State),
      s.hostUp = true ∧ s.mgt.run = 1 ∧ s.fld Fld.MGT_MB_CMD_CMD 0 = 128 ∧ s.fld Fld.MGT_MB_STATE_STATE 0 = 0 ∧
      argAt s.mbArgs 0 / 2 ^ 16 % 256 ≤ 4 ∧ argAt s.mbArgs 0 / 2 ^ 24 % 256 ≤ 4 ∧
      (s.flag Fld.MGT_PMB_CFG_EN 0 = false ∨ s.flag Fld.MGT_PMB_DEV_EN (argAt s.mbArgs 0 % 8) = false)) ∧
    (∃ (s : State),
      s.hostUp = true ∧ s.mgt.run = 1 ∧ s.fld Fld.MGT_MB_CMD_CMD 0 = 144 ∧ s.fld Fld.MGT_MB_STATE_STATE 0 = 0 ∧
      s.fuse 13 ≠ 0) ∧
    (∃ (s : State),
      s.hostUp = true ∧ s.mgt.run = 1 ∧ s.fld Fld.MGT_MB_CMD_CMD 0 = 144 ∧ s.fld Fld.MGT_MB_STATE_STATE 0 = 0 ∧
      s.fuse 13 = 0) ∧
    (∃ (s : State) (t : Tu) (resp : List Byte) (n : List Byte) (t0 : Tu),
      s.hostUp = true ∧ s.mgt.run = 1 ∧ s.fld Fld.MGT_MB_CMD_CMD 0 = 145 ∧ s.fld Fld.MGT_MB_STATE_STATE 0 = 0 ∧
      s.fuse 13 ≠ 0 ∧ s.mgt.nonce = some (n, t0) ∧
      (tuLe (s.at t).time (tuAdd t0 (ns 60000000000)) = false ∨ s.unlocks n resp = false)) :=
  ⟨⟨mailbox 1 [] State.reset, by decide +kernel⟩,
    ⟨basecamp { Mgt.init with run := 1 }, 0, by decide +kernel⟩,
    ⟨(basecamp { Mgt.init with run := 1 }).setFld Fld.MGT_MB_STATE_STATE 0 2, by decide +kernel⟩,
    ⟨State.reset, by decide +kernel⟩,
    ⟨mailbox 0x50 [3, 9, 4096, 0] withLog, by decide +kernel⟩,
    ⟨mailbox 0x50 [9, 9, 4096, 0] withLog, [], by decide +kernel⟩,
    ⟨mailbox 0x50 [3, 9, 4096, 0] withLog, [logEntry 3, logEntry 4, logEntry 5], logEntry 3, [logEntry 4, logEntry 5],
      by decide +kernel⟩,
    ⟨mailbox 0x51 [0x55] withLog, by decide +kernel⟩,
    ⟨mailbox 0x70 [2, 1] State.reset, by decide +kernel⟩,
    ⟨mailbox 0x70 [16, 1] State.reset, by decide +kernel⟩,
    ⟨mailbox 0x71 [2, 1, 0xF0, 0x46555345] { State.reset with mgt := { Mgt.init with fuses := [(15, 1)] } },
      by decide +kernel⟩,
    ⟨mailbox 0x71 [2, 1, 0xF0, 0x46555345] State.reset, by decide +kernel⟩,
    ⟨((mailbox 0x71 [2, 1, 0xF0,
      0x46555345] State.reset).setFld Fld.MGT_SENSE_VALUE 0 300).setFld Fld.MGT_SENSE_VALUE 7 1800, by decide +kernel⟩,
    ⟨((mailbox 0x80 [0x04020301, 77] State.reset).setFld Fld.MGT_PMB_CFG_EN 0 1).setFld Fld.MGT_PMB_DEV_EN 1 1,
      by decide +kernel⟩,
    ⟨mailbox 0x80 [0x04020301, 77] State.reset, by decide +kernel⟩,
    ⟨mailbox 0x90 [] { State.reset with mgt := { Mgt.init with fuses := [(13, 1)] } }, by decide +kernel⟩,
    ⟨mailbox 0x90 [] State.reset, by decide +kernel⟩,
    ⟨atTime 900000000000000 (mailbox 0x91 [] (basecamp { Mgt.init with fuses := [(13, 1)], nonce := some ([1, 2], 0) })),
      100, [], [1, 2], 0, by decide +kernel⟩⟩

theorem witness_FirmwareIsManaged :
    (∃ (s : State),
      s.hostUp = true ∧ s.mgt.run = 1 ∧ s.fld Fld.MGT_MB_CMD_CMD 0 = 96 ∧ s.fld Fld.MGT_MB_STATE_STATE 0 = 0 ∧
      argAt s.mbArgs 0 ≤ 1) ∧
    (∃ (s : State) (x : List Byte) (y : List Byte),
      s.hostUp = true ∧ s.mgt.run = 1 ∧ s.fld Fld.MGT_MB_CMD_CMD 0 = 97 ∧ s.fld Fld.MGT_MB_STATE_STATE 0 = 0 ∧
      argAt s.mbArgs 0 % 8 = 0 ∧ argAt s.mbArgs 2 ≤ 1040384 ∧ y = List.take (argAt s.mbArgs 2) x ∧ s.fwCheck y ≠ 0) ∧
    (∃ (s : State) (b : ℕ) (svn : ℕ),
      s.hostUp = true ∧ s.mgt.run = 1 ∧ s.fld Fld.MGT_MB_CMD_CMD 0 = 99 ∧ s.fld Fld.MGT_MB_STATE_STATE 0 = 0 ∧
      s.flag Fld.MGT_FW_STATUS_TRIAL 0 = true ∧ b = s.fld Fld.MGT_FW_STATUS_BANK 0 ∧ svn = fwSvnOf (s.bank b).image) ∧
    (∃ (s : State),
      s.hostUp = true ∧ s.mgt.run = 1 ∧ s.fld Fld.MGT_MB_CMD_CMD 0 = 99 ∧ s.fld Fld.MGT_MB_STATE_STATE 0 = 0 ∧
      s.flag Fld.MGT_FW_STATUS_TRIAL 0 = false) ∧
    (∃ (s : State),
      s.alive = true ∧ s.mgt.run = 2 ∧ s.selectBank = none) ∧
    (∃ (s : State),
      s.alive = true ∧ (s.mgt.run = 1 ∨ s.mgt.run = 3) ∧ s.mgt.halted = false) ∧
    (∃ (s : State),
      s.alive = true ∧ s.mgt.halted = true) ∧
    (∃ (s : State),
      s.alive = true ∧ (s.mgt.run = 1 ∨ s.mgt.run = 3) ∧ (s.fuse 13 = 0 ∨ s.flag Fld.MGT_DEBUG_STATUS_UNLOCKED 0 = true)) ∧
    (∃ (s : State),
      s.alive = true ∧ s.fuse 13 ≠ 0 ∧ s.flag Fld.MGT_DEBUG_STATUS_UNLOCKED 0 = false) ∧
    (∃ (s : State) (t : Tu) (t0 : Tu),
      s.alive = true ∧ s.mgt.trialFrom = some t0 ∧ s.mgt.run = 1 ∧ tuLe (tuAdd t0 (ns 10000000000)) (s.at t).time = true) :=
  ⟨⟨mailbox 0x60 [1] State.reset, by decide +kernel⟩,
    ⟨mailbox 0x61 [0, 0, 280, 0] (basecamp twoBanks), [], [], by decide +kernel⟩,
    ⟨(mailbox 0x63 [] (basecamp twoBanks)).setFld Fld.MGT_FW_STATUS_TRIAL 0 1, 0, 1, by decide +kernel⟩,
    ⟨mailbox 0x63 [] (basecamp twoBanks), by decide +kernel⟩,
    ⟨basecamp { Mgt.init with run := 2 }, by decide +kernel⟩,
    ⟨basecamp { Mgt.init with run := 1 }, by decide +kernel⟩,
    ⟨basecamp { Mgt.init with run := 1, halted := true }, by decide +kernel⟩,
    ⟨basecamp { Mgt.init with run := 1 }, by decide +kernel⟩,
    ⟨basecamp { Mgt.init with run := 1, fuses := [(13, 1)] }, by decide +kernel⟩,
    ⟨atTime 90000000000000 (basecamp { twoBanks with trialFrom := some 4 }), 100, 4, by decide +kernel⟩⟩

theorem witness_ManagementWatches :
    (∃ (s : State),
      s.alive = true ∧ s.mgt.run = 1) ∧
    (∃ (s : State) (p : PmbusPoll),
      s.alive = true ∧ s.mgt.run = 1 ∧ s.flag Fld.MGT_PMB_CFG_EN 0 = true ∧ s.flag Fld.MGT_PMB_DEV_EN ↑p.r = true ∧
      p.failed = false) ∧
    (∃ (s : State) (p : PmbusPoll),
      s.alive = true ∧ s.mgt.run = 1 ∧ s.flag Fld.MGT_PMB_CFG_EN 0 = true ∧ s.flag Fld.MGT_PMB_DEV_EN ↑p.r = true ∧
      p.failed = true) ∧
    (∃ (s : State),
      s.alive = true ∧ s.mgt.run = 1 ∧ s.mgt.sram ≠ []) ∧
    (∃ (s : State),
      s.mgtUp = true ∧ s.flag Fld.MGT_SMB_CFG_EN 0 = false) ∧
    (∃ (s : State) (pec : Bool),
      s.mgtUp = true ∧ s.flag Fld.MGT_SMB_CFG_EN 0 = true ∧ (s.flag Fld.MGT_SMB_CFG_PEC_REQ 0 = true → pec = true)) ∧
    (∃ (s : State) (pec : Bool),
      s.mgtUp = true ∧ s.flag Fld.MGT_SMB_CFG_EN 0 = true ∧ (s.flag Fld.MGT_SMB_CFG_PEC_REQ 0 = true → pec = true) ∧
      s.mgt.run = 2) ∧
    (∃ (s : State) (pec : Bool),
      s.mgtUp = true ∧ s.flag Fld.MGT_SMB_CFG_EN 0 = true ∧ (s.flag Fld.MGT_SMB_CFG_PEC_REQ 0 = true → pec = true) ∧
      s.mgt.run = 1) ∧
    (∃ (s : State) (pec : Bool) (n : Byte),
      s.mgtUp = true ∧ s.flag Fld.MGT_SMB_CFG_EN 0 = true ∧ (s.flag Fld.MGT_SMB_CFG_PEC_REQ 0 = true → pec = true) ∧
      s.mgt.run = 1 ∧ BitVec.toNat n < 14) ∧
    (∃ (s : State) (pec : Bool) (cmd : BitVec 16),
      s.mgtUp = true ∧ s.flag Fld.MGT_SMB_CFG_EN 0 = true ∧ (s.flag Fld.MGT_SMB_CFG_PEC_REQ 0 = true → pec = true) ∧
      s.mgt.run = 1 ∧ s.mgt.smb.state = 0 ∧ knownCmd cmd.toNat = true ∧ smbusCmd cmd.toNat = false) ∧
    (∃ (s : State) (pec : Bool) (cmd : BitVec 16),
      s.mgtUp = true ∧ s.flag Fld.MGT_SMB_CFG_EN 0 = true ∧ (s.flag Fld.MGT_SMB_CFG_PEC_REQ 0 = true → pec = true) ∧
      s.mgt.run = 1 ∧ s.mgt.smb.state = 0 ∧ cmd = 1 ∧ s.classBusy 1 = true) ∧
    (∃ (s : State) (pec : Bool) (cmd : BitVec 16),
      s.mgtUp = true ∧ s.flag Fld.MGT_SMB_CFG_EN 0 = true ∧ (s.flag Fld.MGT_SMB_CFG_PEC_REQ 0 = true → pec = true) ∧
      s.mgt.run = 1 ∧ s.mgt.smb.state = 0 ∧ cmd = 1 ∧ s.classBusy 1 = false) ∧
    (∃ (s : State) (pec : Bool),
      s.mgtUp = true ∧ s.flag Fld.MGT_SMB_CFG_EN 0 = true ∧ (s.flag Fld.MGT_SMB_CFG_PEC_REQ 0 = true → pec = true) ∧
      s.mgt.run = 1 ∧ s.mgt.smb.state ≠ 0) ∧
    (∃ (s : State) (pec : Bool),
      s.mgtUp = true ∧ s.flag Fld.MGT_SMB_CFG_EN 0 = true ∧ (s.flag Fld.MGT_SMB_CFG_PEC_REQ 0 = true → pec = true) ∧
      s.mgt.run = 1 ∧ s.mgt.smb.state = 2) ∧
    (∃ (s : State) (pec : Bool) (seq : Word) (e : LogEntry),
      s.mgtUp = true ∧ s.flag Fld.MGT_SMB_CFG_EN 0 = true ∧ (s.flag Fld.MGT_SMB_CFG_PEC_REQ 0 = true → pec = true) ∧
      s.mgt.run = 1 ∧ List.find? (fun e => e.seq == BitVec.toNat seq) s.logAll = some e) :=
  ⟨⟨basecamp { Mgt.init with run := 1 }, by decide +kernel⟩,
    ⟨((basecamp { Mgt.init with run := 1 }).setFld Fld.MGT_PMB_CFG_EN 0 1).setFld Fld.MGT_PMB_DEV_EN 1 1, ⟨1, false,
      5, 6, 7, 0⟩, by decide +kernel⟩,
    ⟨((basecamp { Mgt.init with run := 1 }).setFld Fld.MGT_PMB_CFG_EN 0 1).setFld Fld.MGT_PMB_DEV_EN 1 1, ⟨1, true, 5,
      6, 7, 0⟩, by decide +kernel⟩,
    ⟨withLog, by decide +kernel⟩,
    ⟨(basecamp { Mgt.init with run := 1 }).setFld Fld.MGT_SMB_CFG_EN 0 0, by decide +kernel⟩,
    ⟨State.reset, false, by decide +kernel⟩,
    ⟨basecamp { Mgt.init with run := 2, box := 2 }, false, by decide +kernel⟩,
    ⟨basecamp { Mgt.init with run := 1 }, false, by decide +kernel⟩,
    ⟨basecamp { Mgt.init with run := 1 }, false, 7, by decide +kernel⟩,
    ⟨basecamp { Mgt.init with run := 1 }, false, 0x91, by decide +kernel⟩,
    ⟨{ (smbResult.setFld Fld.MGT_MB_STATE_STATE 0 1).setFld Fld.MGT_MB_CMD_CMD 0 1 with mgt := { Mgt.init with run := 1 } },
      false, 1, by decide +kernel⟩,
    ⟨{ smbResult with mgt := { Mgt.init with run := 1 } }, false, 1, by decide +kernel⟩,
    ⟨smbResult, false, by decide +kernel⟩,
    ⟨smbResult, false, by decide +kernel⟩,
    ⟨withLog, false, 3, logEntry 3, by decide +kernel⟩⟩

theorem witness_ResetsAndTraining :
    (∃ (s : State),
      s.pwr.on = false) ∧
    (∃ (s : State),
      s.pwr.on = true ∧ s.pwr.rstLow = false) ∧
    (∃ (s : State),
      s.pwr.on = true ∧ s.pwr.rstLow = true ∧ s.pwr.tripped = false) ∧
    (∃ (s : State),
      s.pwr.on = true ∧ s.pwr.tripped = false) ∧
    (∃ (s : State),
      s.alive = true) ∧
    (∃ (s : State) (n : Fin 5) (v : BitVec 16),
      s.alive = true ∧ tripAt ↑n ≤ v.toInt ∧ (regsWf s.regs = true ∧ (s.regs.all fun e => !hardWired e.1.n) = true) ∧
      Memory.wf s.mem = true) ∧
    (∃ (s : State) (n : Fin 5) (v : BitVec 16),
      s.alive = true ∧ v.toInt < tripAt ↑n) ∧
    (∃ (s : State) (e : Fin 2),
      s.alive = true ∧ s.fld Fld.HUB_BOOT_STATUS_PHASE 0 = 2 ∧ s.trained ↑e = false) :=
  ⟨⟨{ upWith State.reset with pwr := { Pwr.init with on := false } }, by decide +kernel⟩,
    ⟨State.reset, by decide +kernel⟩,
    ⟨{ upWith run with pwr := { Pwr.init with rstLow := true } }, by decide +kernel⟩,
    ⟨State.reset, by decide +kernel⟩,
    ⟨State.reset, by decide +kernel⟩,
    ⟨State.reset, 0, 1150, by decide +kernel⟩,
    ⟨State.reset, 0, 1149, by decide +kernel⟩,
    ⟨stackBytes.setFld Fld.HUB_BOOT_STATUS_PHASE 0 2, 0, by decide +kernel⟩⟩

theorem witness_PowerStatesChange :
    (∃ (s : State) (t : Tu) (i : Instr) (r : PwrReq),
      s.hostUp = true ∧ powerRequest t i r ∧ s.pwr.wait.isSome = true) ∧
    (∃ (s : State) (t : Tu) (i : Instr) (r : PwrReq),
      s.hostUp = true ∧ powerRequest t i r ∧ s.pwr.wait = none ∧ s.clk.gate.isSome = true ∧ (s.at t).pwrRefused r = 0) ∧
    (∃ (s : State),
      s.hostUp = true ∧ s.clk.gate = none ∧ s.pwr.wait = none ∧ s.pwrBusy = true) ∧
    (∃ (s : State) (c : Fin 4),
      s.hostUp = true ∧ s.clk.gate = none ∧ s.pwr.wait = none ∧ s.pwrBusy = false ∧
      (s.standby = true ∨ (s.fld Fld.HUB_PWR_STATUS_CL_SLEEP 0).testBit ↑c = true)) ∧
    (∃ (s : State) (t : Tu) (c : Fin 4),
      s.hostUp = true ∧ s.clk.gate = none ∧ s.pwr.wait = none ∧ s.pwrBusy = false ∧ s.standby = false ∧
      (s.fld Fld.HUB_PWR_STATUS_CL_SLEEP 0).testBit ↑c = false ∧ (∃ n ∈ clusterNodes ↑c, s.gateOpen n = true ∧
      (s.at t).inUse n = true)) ∧
    (∃ (s : State) (t : Tu) (c : Fin 4) (busy : Option (Fin 34)),
      s.hostUp = true ∧ s.clk.gate = none ∧ s.pwr.wait = none ∧ s.pwrBusy = false ∧ s.standby = false ∧
      (s.fld Fld.HUB_PWR_STATUS_CL_SLEEP 0).testBit ↑c = false ∧ mayClose (s.at t) (clusterNodes ↑c) ∧ busy = none) ∧
    (∃ (s : State) (t : Tu) (c : Fin 4) (busy : Option (Fin 34)) (b : Fin 34),
      s.hostUp = true ∧ s.clk.gate = none ∧ s.pwr.wait = none ∧ s.pwrBusy = false ∧ s.standby = false ∧
      (s.fld Fld.HUB_PWR_STATUS_CL_SLEEP 0).testBit ↑c = false ∧ mayClose (s.at t) (clusterNodes ↑c) ∧ busy = some b ∧
      ↑b ∈ clusterNodes ↑c ∧ s.gateOpen ↑b = true) ∧
    (∃ (s : State) (c : Fin 4),
      s.hostUp = true ∧ s.clk.gate = none ∧ s.pwr.wait = none ∧ s.pwrBusy = false ∧ s.standby = false ∧
      (s.fld Fld.HUB_PWR_STATUS_CL_SLEEP 0).testBit ↑c = true ∧
      (s.fld Fld.HUB_PWR_STATUS_ENG_SLEEP 0).testBit (↑c / 2) = false ∧
      (s.fld Fld.HUB_PWR_STATUS_THERM_HOLD 0).testBit (↑c / 2) = true) ∧
    (∃ (s : State) (c : Fin 4),
      s.hostUp = true ∧ s.clk.gate = none ∧ s.pwr.wait = none ∧ s.pwrBusy = false ∧ s.standby = false ∧
      (s.fld Fld.HUB_PWR_STATUS_CL_SLEEP 0).testBit ↑c = true ∧
      (s.fld Fld.HUB_PWR_STATUS_ENG_SLEEP 0).testBit (↑c / 2) = false ∧
      (s.fld Fld.HUB_PWR_STATUS_THERM_HOLD 0).testBit (↑c / 2) = false) ∧
    (∃ (s : State) (t : Tu) (e : Fin 2),
      s.hostUp = true ∧ s.clk.gate = none ∧ s.pwr.wait = none ∧ s.pwrBusy = false ∧ s.standby = false ∧
      (s.fld Fld.HUB_PWR_STATUS_ENG_SLEEP 0).testBit ↑e = false ∧ mayClose (s.at t) (dieNodes ↑e)) ∧
    (∃ (s : State) (e : Fin 2),
      s.hostUp = true ∧ s.clk.gate = none ∧ s.pwr.wait = none ∧ s.pwrBusy = false ∧ s.standby = false ∧
      (s.fld Fld.HUB_PWR_STATUS_ENG_SLEEP 0).testBit ↑e = true ∧ s.stackFailed ↑e = false ∧
      (s.fld Fld.HUB_PWR_STATUS_THERM_HOLD 0).testBit ↑e = false) ∧
    (∃ (s : State) (t : Tu),
      s.hostUp = true ∧ s.clk.gate = none ∧ s.pwr.wait = none ∧ s.pwrBusy = false ∧ s.standby = false ∧
      mayClose (s.at t) standbyNodes) ∧
    (∃ (s : State),
      s.hostUp = true ∧ s.clk.gate = none ∧ s.pwr.wait = none ∧ s.pwrBusy = false ∧ s.standby = true ∧
      (s.fld Fld.HUB_PWR_STATUS_THERM_HOLD 0).testBit 2 = false) ∧
    (∃ (s : State),
      s.hostUp = true ∧ s.clk.gate = none ∧ s.pwr.wait = none ∧ s.pwrBusy = false ∧ s.standby = true ∧
      (s.fld Fld.HUB_PWR_STATUS_THERM_HOLD 0).testBit 2 = true) ∧
    (∃ (s : State),
      s.alive = true ∧ s.standby = false ∧ s.pitched = true) ∧
    (∃ (s : State) (v : List (BitVec 16)) (n : ℕ),
      s.alive = true ∧ s.standby = false ∧ n < 5 ∧ s.pitched = false ∧ s.critOf n ≤ (v.getD n 0).toInt ∧
      s.holdOf (scopeOf n) = false) :=
  ⟨⟨{ upWith run with pwr := { run.pwr with wait := some ⟨1, 0, none, 0⟩ } }, 100, .clusterSleep 100 3 none, ⟨1, 3,
      none, 0⟩, by decide +kernel, .inl ⟨3, none, rfl, rfl⟩, by decide +kernel⟩,
    ⟨{ upWith run with clk := { Clk.init with gate := some ⟨25, 0⟩ } }, 100, .clusterSleep 100 3 none, ⟨1, 3, none,
      0⟩, by decide +kernel, .inl ⟨3, none, rfl, rfl⟩, by decide +kernel⟩,
    ⟨State.reset, by decide +kernel⟩,
    ⟨nodesClosed (clusterNodes 1) (asleep 2 0 (upWith run)), 1, by decide +kernel⟩,
    ⟨(upWith rich).setFld Fld.SEG_ARM_STATE 0 2, 100, 0, by decide +kernel⟩,
    ⟨upWith rich, 100, 0, none, by unfold mayClose; decide +kernel⟩,
    ⟨upWith rich, 100, 0, some 7, 7, by unfold mayClose; decide +kernel⟩,
    ⟨(nodesClosed (clusterNodes 1) (asleep 2 0 (upWith run))).setFld Fld.HUB_PWR_STATUS_THERM_HOLD 0 1, 1,
      by decide +kernel⟩,
    ⟨nodesClosed (clusterNodes 1) (asleep 2 0 (upWith run)), 1, by decide +kernel⟩,
    ⟨upWith rich, 100, 0, by unfold mayClose; decide +kernel⟩,
    ⟨nodesClosed (dieNodes 0) (asleep 3 1 (upWith run)), 0, by decide +kernel⟩,
    ⟨upWith rich, 100, by unfold mayClose; decide +kernel⟩,
    ⟨(upWith run).setFld Fld.HUB_PWR_STATUS_DEVICE 0 1, by decide +kernel⟩,
    ⟨((upWith run).setFld Fld.HUB_PWR_STATUS_DEVICE 0 1).setFld Fld.HUB_PWR_STATUS_THERM_HOLD 0 4, by decide +kernel⟩,
    ⟨upWith rich, by decide +kernel⟩,
    ⟨State.reset, [1050, 1049, 1050, 950, 949], 0, by decide +kernel⟩⟩

theorem witness_DiagnosticsRun :
    (∃ (s : State) (l : Fin 9) (v : Word),
      s.hostUp = true ∧ getBits v 0 3 ≠ 0 ∧ s.linkInService ↑l = true) ∧
    (∃ (s : State) (l : Fin 9) (v : Word),
      s.hostUp = true ∧ s.linkInService ↑l = false ∧ BitVec.getLsbD v 8 = false) ∧
    (∃ (s : State) (l : Fin 9),
      s.hostUp = true ∧ patActs (s.fld Fld.HUB_LINK_DIAG_GEN_PAT ↑l) ≠ 0 ∧ s.fld Fld.HUB_LINK_DIAG_LOOP ↑l ≠ 3) ∧
    (∃ (s : State) (l : Fin 9),
      s.hostUp = true ∧ (patActs (s.fld Fld.HUB_LINK_DIAG_GEN_PAT ↑l) = 0 ∨ s.fld Fld.HUB_LINK_DIAG_LOOP ↑l = 3)) ∧
    (∃ (s : State) (l : Fin 5),
      s.alive = true ∧ patActs (s.fld Fld.HUB_LINK_DIAG_CHK_PAT ↑l) ≠ 0 ∧ s.flag Fld.HUB_LINK_CHK_LOCK ↑l = false) ∧
    (∃ (s : State) (l : Fin 5) (bits : BitVec 48) (errs : Word),
      s.alive = true ∧ patActs (s.fld Fld.HUB_LINK_DIAG_CHK_PAT ↑l) ≠ 0 ∧ s.flag Fld.HUB_LINK_CHK_LOCK ↑l = true ∧
      BitVec.toNat (s.pair RegName.HUB_LINK_BITS_LO RegName.HUB_LINK_BITS_HI ↑l) + bits.toNat < 2 ^ 48 ∧
      s.fld Fld.HUB_LINK_ERR_COUNT ↑l + BitVec.toNat errs < 2 ^ 32) ∧
    (∃ (s : State) (n : Fin 16),
      s.hostUp = true ∧ s.dia.bist = none ∧ s.bistAbsent ↑n = true) ∧
    (∃ (s : State) (t : Tu) (n : Fin 16),
      s.hostUp = true ∧ s.dia.bist = none ∧ s.bistAbsent ↑n = false ∧ (s.at t).bistIdle ↑n = false) ∧
    (∃ (s : State) (t : Tu) (n : Fin 16),
      s.hostUp = true ∧ s.dia.bist = none ∧ s.bistAbsent ↑n = false ∧ (s.at t).bistIdle ↑n = true ∧
      (↑n = 10 ∨ ↑n = 11) ∧ s.snapBlocked (↑n % 2) s.bistRange.1 s.bistRange.2 = true) ∧
    (∃ (s : State) (t : Tu) (n : Fin 16),
      s.hostUp = true ∧ s.dia.bist = none ∧ s.bistAbsent ↑n = false ∧ (s.at t).bistIdle ↑n = true ∧ (↑n ≠ 10 ∧
      ↑n ≠ 11 ∨ s.snapBlocked (↑n % 2) s.bistRange.1 s.bistRange.2 = false)) ∧
    (∃ (s : State) (b : ℕ),
      s.hostUp = true ∧ s.dia.bist = some b) ∧
    (∃ (s : State) (b : ℕ),
      s.alive = true ∧ s.dia.bist = some b) ∧
    (∃ (s : State) (b : ℕ),
      s.alive = true ∧ s.dia.bist = some b ∧ 4 ≤ b ∧ b < 8) ∧
    (∃ (s : State) (b : ℕ),
      s.alive = true ∧ s.dia.bist = some b ∧ (b = 10 ∨ b = 11)) ∧
    (∃ (s : State) (i : JtagIns),
      s.alive = true ∧ (jtagDrives s.dia.jtag = false ∨ jtagDrives i = true)) ∧
    (∃ (s : State) (i : JtagIns),
      s.alive = true ∧ jtagDrives s.dia.jtag = true ∧ jtagDrives i = false) :=
  ⟨⟨State.reset, 0, 5#32, by decide +kernel⟩,
    ⟨State.reset, 5, 0, by decide +kernel⟩,
    ⟨linkTested, 1, by decide +kernel⟩,
    ⟨State.reset, 0, by decide +kernel⟩,
    ⟨linkTested, 1, by decide +kernel⟩,
    ⟨linkTested.setFld Fld.HUB_LINK_CHK_LOCK 1 1, 1, 0, 0, by decide +kernel⟩,
    ⟨State.reset, 14, by decide +kernel⟩,
    ⟨State.reset.setFld Fld.TRG_GEN_CFG_EN 0 1, 100, 0, by decide +kernel⟩,
    ⟨(State.reset.setFld Fld.HUB_BIST_ARG_HI_ADDR 0 3).setFld Fld.HUB_BIST_ARG_HI_GIB 0 4, 100, 10, by decide +kernel⟩,
    ⟨State.reset, 100, 0, by decide +kernel⟩,
    ⟨{ stackBytes with dia := ⟨some 11, (4096, 256), .idcode, 0, []⟩ }, 11, by decide +kernel⟩,
    ⟨{ State.reset with dia := ⟨some 3, (0, 0), .idcode, 0, []⟩ }, 3, by decide +kernel⟩,
    ⟨{ State.reset with dia := ⟨some 5, (0, 0), .idcode, 0, []⟩ }, 5, by decide +kernel⟩,
    ⟨{ stackBytes with dia := ⟨some 11, (4096, 256), .idcode, 0, []⟩ }, 11, by decide +kernel⟩,
    ⟨State.reset, .bypass, by decide +kernel⟩,
    ⟨{State.reset with dia := ⟨none, (0, 0), .extest, 0, []⟩}, .bypass, by decide +kernel⟩⟩

/-! ### Witnesses of the statements about locations and sleeping units -/

theorem witness_FixedLocationsIgnoreWrites :
    (∃ (s : State) (a : Bar0) (r : Reg), s.hostUp = true ∧ regAt a.toNat = some r ∧ takesNoWrite r.n) ∧
    (∃ (s : State) (a : Bar0) (k : Nat),
      s.hostUp = true ∧ regAt a.toNat = none ∧ windowAt a.toNat = some (.pba k)) ∧
    (∃ (s : State) (a : Bar0), s.hostUp = true ∧ unmapped a) :=
  ⟨⟨State.reset, 0, ⟨.HUB_ID, 0⟩, by unfold takesNoWrite; decide +kernel⟩,
    ⟨State.reset, 0x40F804, 1, by decide +kernel⟩, ⟨State.reset, 0x3FFFFFC, by unfold unmapped; decide +kernel⟩⟩

theorem witness_SleepingUnitsDropShadowedWrites :
    (∃ (s : State) (t : Tu) (a : Bar0) (r : Reg), s.hostUp = true ∧ regAt a.toNat = some r ∧ shMask r ≠ 0 ∧
      r.n.place.block = .cluster ∧ (s.nowAt t).clusterAsleep (r.i / r.n.place.per) = true) ∧
    (∃ (s : State) (t : Tu) (a : Bar0) (r : Reg), s.hostUp = true ∧ regAt a.toNat = some r ∧ shMask r ≠ 0 ∧
      r.n.place.block = .seg ∧ (s.nowAt t).dieAsleep (r.i / r.n.place.per) = true) :=
  ⟨⟨asleep 8 0 run, 100, 0x1A20000, ⟨.TRG_LEVEL, 12⟩, by decide +kernel⟩,
    ⟨asleep 15 2 run, 100, 0x1E00504, ⟨.SEG_PRE, 21⟩, by decide +kernel⟩⟩

/-! ### Witnesses that rest on the open cryptographic functions

No value of `Config.isP384Point` or `Config.ecdsaP384` can be computed (log 30), so these witnesses say: where `key` is a
point and `sig` verifies, the hypotheses are met. -/

/-- `key` is a point of the curve and `sig` its signature over the body of an image. -/
def keySigns (svn : Nat) : Prop :=
  Config.isP384Point key = true ∧ Config.ecdsaP384 key (Config.sha384 (fwBody svn)) sig = true

theorem image1_sig : fwSigOff (fwImage 1) = 72 := by decide +kernel
theorem image1_parts :
    ((fwImage 1).drop 80).take 97 = key ∧ leAt (fwImage 1) 74 2 = 0 ∧ leAt (fwImage 1) 72 2 = 1 ∧
      leAt (fwImage 1) 76 4 = 0 ∧ leAt (fwImage 1) 177 7 = 0 ∧ (fwImage 1).take 72 = fwBody 1 ∧
      ((fwImage 1).drop 184).take 96 = sig := by decide +kernel
theorem image2_sig : fwSigOff (fwImage 2) = 72 := by decide +kernel
theorem image2_parts :
    ((fwImage 2).drop 80).take 97 = key ∧ leAt (fwImage 2) 74 2 = 0 ∧ leAt (fwImage 2) 72 2 = 1 ∧
      leAt (fwImage 2) 76 4 = 0 ∧ leAt (fwImage 2) 177 7 = 0 ∧ (fwImage 2).take 72 = fwBody 2 ∧
      ((fwImage 2).drop 184).take 96 = sig := by decide +kernel
theorem key_first : leAt key 0 1 = 4 := by decide +kernel
theorem fuse_hash : tget 0 twoBanks.fuses 8 = Config.sha384 key := rfl
theorem fuse_revoked : tget 0 twoBanks.fuses 10 = 0 := by decide +kernel

theorem image1_signed (h : keySigns 1) : fwSigned twoBanks.fuses (fwImage 1) = true := by
  obtain ⟨h1, h2, h3, h4, h5, h6, h7⟩ := image1_parts
  simp [fwSigned, image1_sig, h1, h2, h3, h4, h5, h6, h7, key_first, fuse_hash, fuse_revoked, h.1, h.2]
theorem image2_signed (h : keySigns 2) : fwSigned twoBanks.fuses (fwImage 2) = true := by
  obtain ⟨h1, h2, h3, h4, h5, h6, h7⟩ := image2_parts
  simp [fwSigned, image2_sig, h1, h2, h3, h4, h5, h6, h7, key_first, fuse_hash, fuse_revoked, h.1, h.2]

theorem image1_format : fwFormat (fwImage 1) = true := by decide +kernel
theorem image2_format : fwFormat (fwImage 2) = true := by decide +kernel

/-- An image verifies where its format and signature do and its SVN is not below the floor. -/
theorem fwCheck_ok (s : State) (b : List Byte) (hf : fwFormat b = true) (hs : fwSigned s.mgt.fuses b = true)
    (hv : ¬ fwSvnOf b < s.fwSvn) : s.fwCheck b = 0 := by
  simp [State.fwCheck, hf, hs, hv]

def writes2 : State := mailbox 0x61 [0, 0, 280, 0] (basecamp twoBanks)
def activates (now : Nat) : State := mailbox 0x62 [1, now] (basecamp twoBanks)

theorem witness_FirmwareIsManaged_fwWrite (h : keySigns 2) :
    ∃ (s : State) (x y : List Byte),
      s.hostUp = true ∧ s.mgt.run = 1 ∧ s.fld Fld.MGT_MB_CMD_CMD 0 = 97 ∧ s.fld Fld.MGT_MB_STATE_STATE 0 = 0 ∧
      argAt s.mbArgs 0 % 8 = 0 ∧ argAt s.mbArgs 2 ≤ 1040384 ∧ y = List.take (argAt s.mbArgs 2) x ∧ s.fwCheck y = 0 :=
  ⟨writes2, fwImage 2 ++ [1, 2], fwImage 2, by decide +kernel, by decide +kernel, by decide +kernel, by decide +kernel,
    by decide +kernel, by decide +kernel, by decide +kernel,
    fwCheck_ok _ _ image2_format (image2_signed h) (by decide +kernel)⟩

theorem witness_FirmwareIsManaged_activateLater (h : keySigns 2) :
    ∃ (s : State) (b : Nat),
      s.hostUp = true ∧ s.mgt.run = 1 ∧ s.fld Fld.MGT_MB_CMD_CMD 0 = 98 ∧ s.fld Fld.MGT_MB_STATE_STATE 0 = 0 ∧
      argAt s.mbArgs 0 = b ∧ b ≤ 1 ∧ b ≠ s.fld Fld.MGT_FW_STATUS_BANK 0 ∧ (s.bank b).state ≠ 0 ∧
      s.fwCheck (s.bank b).image = 0 ∧ argAt s.mbArgs 1 = 0 ∧ s.mgt.activate = none :=
  ⟨activates 0, 1, by decide +kernel, by decide +kernel, by decide +kernel, by decide +kernel, by decide +kernel,
    by decide +kernel, by decide +kernel, by decide +kernel,
    fwCheck_ok _ _ image2_format (image2_signed h) (by decide +kernel), by decide +kernel, by decide +kernel⟩

theorem witness_FirmwareIsManaged_activateNow (h : keySigns 2) :
    ∃ (s : State) (b : Nat),
      s.hostUp = true ∧ s.mgt.run = 1 ∧ s.fld Fld.MGT_MB_CMD_CMD 0 = 98 ∧ s.fld Fld.MGT_MB_STATE_STATE 0 = 0 ∧
      argAt s.mbArgs 0 = b ∧ b ≤ 1 ∧ b ≠ s.fld Fld.MGT_FW_STATUS_BANK 0 ∧ (s.bank b).state ≠ 0 ∧
      s.fwCheck (s.bank b).image = 0 ∧ argAt s.mbArgs 1 = 1 :=
  ⟨activates 1, 1, by decide +kernel, by decide +kernel, by decide +kernel, by decide +kernel, by decide +kernel,
    by decide +kernel, by decide +kernel, by decide +kernel,
    fwCheck_ok _ _ image2_format (image2_signed h) (by decide +kernel), by decide +kernel⟩

/-- Where a bank of `twoBanks` is good, the ROM selects bank 0, the committed one. -/
theorem selects_committed (s : State) (h : keySigns 1) (hf : s.mgt.fuses = twoBanks.fuses)
    (hb : s.mgt.flash.banks = twoBanks.flash.banks) (ha : s.mgt.activate = none) (hv : ¬ 1 < s.fwSvn) :
    s.selectBank = some (0, false, false) := by
  have b0 : s.bank 0 = ⟨3, fwImage 1, 1⟩ := by rw [State.bank, hb]; rfl
  have b1 : s.bank 1 = ⟨1, fwImage 2, 1⟩ := by rw [State.bank, hb]; rfl
  have g : s.fwCheck (fwImage 1) = 0 :=
    fwCheck_ok _ _ image1_format (by rw [hf]; exact image1_signed h) (by
      rw [show fwSvnOf (fwImage 1) = 1 by decide +kernel]; exact hv)
  cases ht : s.mgt.trialBad <;> simp [State.selectBank, State.bankGood, b0, b1, ha, g, ht]

theorem witness_FirmwareIsManaged_boot (h : keySigns 1) :
    ∃ (s : State) (b : Nat) (trial fb : Bool),
      s.alive = true ∧ s.mgt.run = 0 ∧ s.selectBank = some (b, trial, fb) :=
  ⟨basecamp { twoBanks with run := 0 }, 0, false, false, by decide +kernel, rfl,
    selects_committed _ h rfl rfl rfl (by decide +kernel)⟩

theorem witness_FirmwareIsManaged_restart (h : keySigns 1) :
    ∃ (s : State) (b : Nat) (trial fb : Bool),
      s.alive = true ∧ s.mgt.run = 2 ∧ s.selectBank = some (b, trial, fb) :=
  ⟨basecamp { twoBanks with run := 2, box := 2 }, 0, false, false, by decide +kernel, rfl,
    selects_committed _ h rfl rfl rfl (by decide +kernel)⟩

/-- A locked part whose nonce waits for a response. -/
def challenged : State :=
  mailbox 0x91 [] (basecamp { twoBanks with fuses := [(12, Config.sha384 key), (13, 1)], nonce := some ([1, 2], 0) })

theorem response_parts : response.take 97 = key ∧ (response.drop 97).take 96 = sig := by decide +kernel

theorem challenged_unlocks
    (h : Config.ecdsaP384 key (Config.sha384 ([1, 2] ++ leBytes 8 0)) sig = true) :
    challenged.unlocks [1, 2] response = true := by
  have f12 : challenged.fuse 12 = Config.sha384 key := rfl
  have f0 : challenged.fuse 0 = 0 := rfl
  simp only [State.unlocks, response_parts.1, response_parts.2, f12, f0, h, beq_self_eq_true, Bool.and_self]

theorem witness_MailboxAnswers_unlock
    (h : Config.ecdsaP384 key (Config.sha384 ([1, 2] ++ leBytes 8 0)) sig = true) :
    ∃ (s : State) (t t0 : Tu) (n resp : List Byte),
      s.hostUp = true ∧ s.mgt.run = 1 ∧ s.fld Fld.MGT_MB_CMD_CMD 0 = 145 ∧ s.fld Fld.MGT_MB_STATE_STATE 0 = 0 ∧
      s.fuse 13 ≠ 0 ∧ s.mgt.nonce = some (n, t0) ∧ tuLe (s.at t).time (tuAdd t0 (ns 60000000000)) = true ∧
      s.unlocks n resp = true :=
  ⟨challenged, 100, 0, [1, 2], response, by decide +kernel, by decide +kernel, by decide +kernel, by decide +kernel,
    by decide +kernel, rfl, by decide +kernel, challenged_unlocks h⟩

end Sys2Proof.Tests
end

section
/-! SUPPORT. Accesses to BAR0 locations that no write changes (R6): a register without a writable field, a word of the
pending-bit array, and an offset at which nothing lies. Such an access is the identity on the state that it finds, but for
the answer of a read, so the notes that end a command have nothing to tell. -/

namespace Sys2Proof.Machine

variable {s : State} {t : Tu} {a : Bar0} {r : Reg}

/-! ### An access that leaves the registers alone -/

/-- An access that changes no register ends without a note (Tables TRG-9, MGT-10). -/
theorem State.whenAccess_of_regs_eq {f : State → State} (hup : s.hostUp = true)
    (hf : (f (s.nowAt t)).regs = (s.nowAt t).regs) : s.whenAccess t f = .next (f (s.nowAt t)) := by
  have hreg : ∀ n i, (f (s.nowAt t)).reg n i = (s.nowAt t).reg n i := fun n i => by
    rw [State.reg, State.reg, hf]
  rw [State.whenAccess, if_pos hup]
  exact State.done_quiet (hreg _) (hreg _ 0)

theorem State.whenAccess_of_eq {f : State → State} (hup : s.hostUp = true) (hf : f (s.nowAt t) = s.nowAt t) :
    s.whenAccess t f = .next (s.nowAt t) := by
  rw [State.whenAccess_of_regs_eq hup (congrArg State.regs hf), hf]

/-- A sent answer is no change of a register or of memory. -/
theorem onlyRegs_emit (s : State) (o : Out) (but : List Reg) : onlyRegs s (s.emit o) but :=
  ⟨fun _ _ _ => rfl, fun _ => rfl⟩

/-! ### Writes of a register that takes none -/

theorem ne_of_takesNoWrite {n m : RegName} (hn : takesNoWrite n) (hm : ¬ takesNoWrite m) : n ≠ m :=
  fun h => hm (h ▸ hn)

theorem State.w1c_of_takesNoWrite (s : State) (hr : takesNoWrite r.n) (v : Word) : s.w1c r v = s := by
  obtain ⟨-, hw1c, -, -⟩ := hr
  rw [State.w1c, hw1c]
  exact if_pos BitVec.zero_and

theorem shMask_of_takesNoWrite (hr : takesNoWrite r.n) : shMask r = 0 := by
  obtain ⟨-, -, -, hsh⟩ := hr
  rw [shMask, hsh, ite_self]

theorem State.shWrite_of_takesNoWrite (s : State) (hr : takesNoWrite r.n) (v : Word) : s.shWrite r v = s := by
  rw [State.shWrite, if_pos (.inl (shMask_of_takesNoWrite hr))]

/-- Every register to which `writeNow` gives an arm of its own has a writable field, so only the last arm is left, which
stores RW fields. -/
theorem State.writeNow_of_takesNoWrite (s : State) (hr : takesNoWrite r.n) (v : Word) : s.writeNow r v = s := by
  unfold State.writeNow
  dsimp only
  split
  case h_64 =>
    obtain ⟨hrw, -, -, -⟩ := hr
    exact if_pos hrw
  all_goals
    next hn => exact absurd hn (ne_of_takesNoWrite hr (by unfold takesNoWrite; decide))

/-- Awake or asleep, such a register keeps what it holds. -/
theorem State.writeReg_of_takesNoWrite (s : State) (hr : takesNoWrite r.n) (v : Word) : s.writeReg r v = s := by
  have hevt : r.n ≠ .EVT_STATUS := ne_of_takesNoWrite hr (by unfold takesNoWrite; decide)
  rw [State.writeReg, if_neg hevt, s.w1c_of_takesNoWrite hr, s.writeNow_of_takesNoWrite hr,
    s.shWrite_of_takesNoWrite hr, ite_self]

/-! ### BAR0 offsets -/

/-- No write changes what lies at the offset: the three kinds of location that R6 and R360 name. -/
def ignoresWrites (a : Bar0) : Prop :=
  (∃ r, regAt a.toNat = some r ∧ takesNoWrite r.n) ∨ (regAt a.toNat = none ∧ ∃ k, windowAt a.toNat = some (.pba k)) ∨
    unmapped a

theorem State.bar0Write_of_ignoresWrites (s : State) (ha : ignoresWrites a) (v : Word) :
    s.bar0Write a.toNat v = s := by
  unfold State.bar0Write
  obtain ⟨r, hreg, hr⟩ | ⟨hreg, k, hwin⟩ | ⟨hreg, hwin⟩ := ha
  · rw [hreg]
    exact s.writeReg_of_takesNoWrite hr v
  · rw [hreg, hwin]
  · rw [hreg, hwin]

theorem State.bar0Read_of_unmapped (s : State) (ha : unmapped a) : s.bar0Read a.toNat = s.emit (.readData 0) := by
  obtain ⟨hreg, hwin⟩ := ha
  rw [State.bar0Read, hreg, hwin]

/-! ### The commands -/

theorem whenAccess_bar0Write_of_ignoresWrites (hup : s.hostUp = true) (ha : ignoresWrites a) (v : Word) :
    s.whenAccess t (fun x => x.bar0Write a.toNat v) = .next (s.nowAt t) :=
  State.whenAccess_of_eq hup (State.bar0Write_of_ignoresWrites _ ha v)

theorem whenAccess_bar0Read_of_unmapped (hup : s.hostUp = true) (ha : unmapped a) :
    s.whenAccess t (fun x => x.bar0Read a.toNat) = .next ((s.nowAt t).emit (.readData 0)) := by
  have hread := (s.nowAt t).bar0Read_of_unmapped ha
  rw [State.whenAccess_of_regs_eq hup (by rw [hread, State.emit_regs]), hread]

/-- Settles O9: each of the three writes is the write of the offset, which is the identity there, and each of the two
reads sends 0. -/
theorem fixedLocationsIgnoreWrites : Obligations.FixedLocationsIgnoreWrites := by
  intro s t a v hup
  refine ⟨fun ha => ?_, fun ha => ?_⟩
  · have hwrite := whenAccess_bar0Write_of_ignoresWrites (t := t) hup ha v
    exact ⟨hwrite, hwrite, hwrite⟩
  · have hread := whenAccess_bar0Read_of_unmapped (t := t) hup ha
    exact ⟨⟨_, hread, rfl, onlyRegs_emit _ _ _⟩, ⟨_, hread, rfl, onlyRegs_emit _ _ _⟩⟩

end Sys2Proof.Machine
end

section
/-! SUPPORT. Writes of registers of sleeping clusters and engine dies (R34, R46): the unit takes no register write at all,
so a write of its SH fields enters no pending set and HOLD has nothing to hold. -/

namespace Sys2Proof.Machine

variable {s : State} {t : Tu} {a : Bar0} {r : Reg}

/-! ### Which registers sleep with their unit -/

theorem State.regAsleep_of_cluster (hblock : r.n.place.block = .cluster) :
    s.regAsleep r = s.clusterAsleep (r.i / r.n.place.per) := by
  simp only [State.regAsleep, hblock]

theorem State.regAsleep_of_seg (hblock : r.n.place.block = .seg) :
    s.regAsleep r = s.dieAsleep (r.i / r.n.place.per) := by
  simp only [State.regAsleep, hblock]

/-! ### A write of a sleeping unit's register -/

theorem State.writeReg_of_regAsleep (hasleep : s.regAsleep r = true) (v : Word) : s.writeReg r v = s := by
  rw [State.writeReg, hasleep, Bool.true_or, if_pos rfl]

theorem State.bar0Write_of_regAt (s : State) (hreg : regAt a.toNat = some r) (v : Word) :
    s.bar0Write a.toNat v = s.writeReg r v := by
  rw [State.bar0Write, hreg]

/-- The access ends in the state that it finds, pending set and HOLD included. -/
theorem whenAccess_bar0Write_of_regAsleep (hup : s.hostUp = true) (hreg : regAt a.toNat = some r)
    (hasleep : (s.nowAt t).regAsleep r = true) (v : Word) :
    s.whenAccess t (fun x => x.bar0Write a.toNat v) = .next (s.nowAt t) :=
  State.whenAccess_of_eq hup (by rw [State.bar0Write_of_regAt _ hreg, State.writeReg_of_regAsleep hasleep])

/-- Settles O10: a register of a sleeping cluster, or of a region of a sleeping engine die, is asleep in the state that
the access finds, so both commands are the write of the offset, which is the identity there. -/
theorem sleepingUnitsDropShadowedWrites : Obligations.SleepingUnitsDropShadowedWrites := by
  intro s t a v r hup hreg _ hunit
  have hasleep : (s.nowAt t).regAsleep r = true := by
    obtain ⟨hblock, hcluster⟩ | ⟨hblock, hdie⟩ := hunit
    · rw [State.regAsleep_of_cluster hblock, hcluster]
    · rw [State.regAsleep_of_seg hblock, hdie]
  have hwrite := whenAccess_bar0Write_of_regAsleep hup hreg hasleep v
  exact ⟨hwrite, hwrite⟩

end Sys2Proof.Machine
end

section
/-! SUPPORT. One step of the machine: every command answers a next state that keeps the invariant and the queue, and so
does the step that runs it; and what holds at reset. -/

namespace Sys2Proof.Machine

variable {que : List Instr} {s : State}

/-- Every command answers a next state, in which the invariant holds and the queue is as before: one case for each
command, by what that command keeps. -/
theorem exec_ok (c : Instr) (hs : Ok que AnyTime s) : OkOut que (exec c s) :=
  match c with
  | .frameTick host => execFrameTick_ok host hs
  | .internalCommitInstant => execInternalCommitInstant_ok hs
  | .shWrite t a v => execShWrite_ok t a v hs
  | .shHoldSet t => execShHoldSet_ok t hs
  | .shHoldClear t => execShHoldClear_ok t hs
  | .registerWrite t a be v => execRegisterWrite_ok t a be v hs
  | .w1cClear t a v => execW1cClear_ok t a v hs
  | .readClear t a => execReadClear_ok t a hs
  | .latchingRead t a wide => execLatchingRead_ok t a wide hs
  | .schedNone t slot late => execSchedNone_ok t slot late hs
  | .schedArm t slot late => execSchedArm_ok t slot late hs
  | .schedDisarm t slot late => execSchedDisarm_ok t slot late hs
  | .schedSync t slot late => execSchedSync_ok t slot late hs
  | .schedShRelease t slot late => execSchedShRelease_ok t slot late hs
  | .schedAccClear t slot late => execSchedAccClear_ok t slot late hs
  | .schedMark t slot late => execSchedMark_ok t slot late hs
  | .schedReserved t slot late k => execSchedReserved_ok t slot late k hs
  | .hostBudget t stall => execHostBudget_ok t stall hs
  | .streamAccept t q => execStreamAccept_ok t q hs
  | .linkBelowBudget t gen width => execLinkBelowBudget_ok t gen width hs
  | .stagedDelivery t q ue => execStagedDelivery_ok t q ue hs
  | .bootPitch t => execBootPitch_ok t hs
  | .mbPitchLoad t tag img => execMbPitchLoad_ok t tag img hs
  | .dryRun t tag img => execDryRun_ok t tag img hs
  | .mbPitchStore t tag flashOk => execMbPitchStore_ok t tag flashOk hs
  | .pitchApplyT1 host => execPitchApplyT1_ok host hs
  | .pitchDrainTimeout host => execPitchDrainTimeout_ok host hs
  | .pitchApplyT2 host => execPitchApplyT2_ok host hs
  | .partialPitchApply host => execPartialPitchApply_ok host hs
  | .clkSrcCfgWrite t v => execClkSrcCfgWrite_ok t v hs
  | .tlkEnableWrite t en => execTlkEnableWrite_ok t en hs
  | .relockActStep t => execRelockActStep_ok t hs
  | .relockActSlew t => execRelockActSlew_ok t hs
  | .tlkTick t m => execTlkTick_ok t m hs
  | .tlkSyncMsg t m => execTlkSyncMsg_ok t m hs
  | .tlkArmMsg t m => execTlkArmMsg_ok t m hs
  | .tlkDisarmMsg t m => execTlkDisarmMsg_ok t m hs
  | .tlkTrigMsg t m => execTlkTrigMsg_ok t m hs
  | .echoRsp t m => execEchoRsp_ok t m hs
  | .tlkStatusMsg t m => execTlkStatusMsg_ok t m hs
  | .tlkMsgDiscard t b => execTlkMsgDiscard_ok t b hs
  | .echoReq t => execEchoReq_ok t hs
  | .tlkLock t up => execTlkLock_ok t up hs
  | .tlkHiBer t => execTlkHiBer_ok t hs
  | .qualInterval t link refin => execQualInterval_ok t link refin hs
  | .clkSrcTrip t cause => execClkSrcTrip_ok t cause hs
  | .clkNoSource t => execClkNoSource_ok t hs
  | .tlkPhaseStep host => execTlkPhaseStep_ok host hs
  | .tlkSlewDone t => execTlkSlewDone_ok t hs
  | .clkMuxSelWrite t m sel => execClkMuxSelWrite_ok t m sel hs
  | .clkMuxSwitchDone t m => execClkMuxSwitchDone_ok t m hs
  | .clkMuxStuck t m => execClkMuxStuck_ok t m hs
  | .ctlMuxSwitch t toRc => execCtlMuxSwitch_ok t toRc hs
  | .mbClkmuxForce t tag => execMbClkmuxForce_ok t tag hs
  | .gateClose t node => execGateClose_ok t node hs
  | .gateForceClose t node => execGateForceClose_ok t node hs
  | .gateOpen t node => execGateOpen_ok t node hs
  | .gateQuiesceAck t => execGateQuiesceAck_ok t hs
  | .gateBusy t => execGateBusy_ok t hs
  | .jpllLock t err => execJpllLock_ok t err hs
  | .jpllLockLoss t first err => execJpllLockLoss_ok t first err hs
  | .jpllCfgWrite t v => execJpllCfgWrite_ok t v hs
  | .spllLockLoss t e first err => execSpllLockLoss_ok t e first err hs
  | .spllLock t e => execSpllLock_ok t e hs
  | .spllSettle t e => execSpllSettle_ok t e hs
  | .spllRelockRetry t e => execSpllRelockRetry_ok t e hs
  | .followDone t e => execFollowDone_ok t e hs
  | .spllAnchorReached t e => execSpllAnchorReached_ok t e hs
  | .spllPhaseWrite t e ofs => execSpllPhaseWrite_ok t e ofs hs
  | .apllRetune t w => execApllRetune_ok t w hs
  | .apllDivWrite t pix aux => execApllDivWrite_ok t pix aux hs
  | .apllLock t up first err => execApllLock_ok t up first err hs
  | .auxCfgWrite t n v => execAuxCfgWrite_ok t n v hs
  | .auxDelayWrite t n v => execAuxDelayWrite_ok t n v hs
  | .afeTermWrite t ch w => execAfeTermWrite_ok t ch w hs
  | .afeSettleEnd t ch => execAfeSettleEnd_ok t ch hs
  | .afeOvr t ch v core => execAfeOvr_ok t ch v core hs
  | .afeOverdrive t ch over4 => execAfeOverdrive_ok t ch over4 hs
  | .ovrHoldEnd t ch => execOvrHoldEnd_ok t ch hs
  | .afeCmWindow t ch cm => execAfeCmWindow_ok t ch cm hs
  | .calShadowStart t ln ofs gain => execCalShadowStart_ok t ln ofs gain hs
  | .shadowWindowEnd t ln m => execShadowWindowEnd_ok t ln m hs
  | .calPreloadStart t ln fit => execCalPreloadStart_ok t ln fit hs
  | .handover host => execHandover_ok host hs
  | .ilvCalCtrlWrite t ln v => execIlvCalCtrlWrite_ok t ln v hs
  | .mbCalSave t tag flashOk => execMbCalSave_ok t tag flashOk hs
  | .mbCalRestore t tag => execMbCalRestore_ok t tag hs
  | .mbCalInfo t tag => execMbCalInfo_ok t tag hs
  | .comparatorCrossing t ln lo rise tdcOff => execComparatorCrossing_ok t ln lo rise tdcOff hs
  | .trgForce t c bits => execTrgForce_ok t c bits hs
  | .trigInEdge t n rise => execTrigInEdge_ok t n rise hs
  | .trigOutPulse n => execTrigOutPulse_ok n hs
  | .regionReady m => execRegionReady_ok m hs
  | .regionFireDecision t m => execRegionFireDecision_ok t m hs
  | .segmentClose m runs => execSegmentClose_ok m runs hs
  | .rearmEnd m => execRearmEnd_ok m hs
  | .continuousBlock t m runs => execContinuousBlock_ok t m runs hs
  | .directoryWriteback t m => execDirectoryWriteback_ok t m hs
  | .segRelease t m n => execSegRelease_ok t m n hs
  | .memWbufHigh t c fill => execMemWbufHigh_ok t c fill hs
  | .stackTempRead t e temp => execStackTempRead_ok t e temp hs
  | .memUe t e a bar2 => execMemUe_ok t e a bar2 hs
  | .memScrubDone t e => execMemScrubDone_ok t e hs
  | .memBridge t e => execMemBridge_ok t e hs
  | .bar2Read t a len => execBar2Read_ok t a len hs
  | .bar2Write t a data => execBar2Write_ok t a data hs
  | .reductionOutput u xs => execReductionOutput_ok u xs hs
  | .syncCmdIssue t twin => execSyncCmdIssue_ok t twin hs
  | .syncInEdge t rise => execSyncInEdge_ok t rise hs
  | .syncAct t => execSyncAct_ok t hs
  | .maskViolation t k j x => execMaskViolation_ok t k j x hs
  | .accSnapshotDone t c => execAccSnapshotDone_ok t c hs
  | .ticTimeout n => execTicTimeout_ok n hs
  | .ticWindowEnd n => execTicWindowEnd_ok n hs
  | .ticGateEnd n => execTicGateEnd_ok n hs
  | .forceCodeWrite t n code => execForceCodeWrite_ok t n code hs
  | .forceEnableWrite t n v => execForceEnableWrite_ok t n v hs
  | .conversionReady t x m => execConversionReady_ok t x m hs
  | .pmuInjReq t x v => execPmuInjReq_ok t x v hs
  | .pmuCalReq t x => execPmuCalReq_ok t x hs
  | .pmuCalDone t x good => execPmuCalDone_ok t x good hs
  | .pmuMcCfgWrite t x v => execPmuMcCfgWrite_ok t x v hs
  | .pmuInjResPop t x => execPmuInjResPop_ok t x hs
  | .pmuTwinMiss t => execPmuTwinMiss_ok t hs
  | .rasVblank t p => execRasVblank_ok t p hs
  | .rasTimingWrite t r v => execRasTimingWrite_ok t r v hs
  | .pixelClockChange t w => execPixelClockChange_ok t w hs
  | .rasPixclkRestart t => execRasPixclkRestart_ok t hs
  | .teInEdge t => execTeInEdge_ok t hs
  | .rasTeLost t => execRasTeLost_ok t hs
  | .dsiCmdSend t v => execDsiCmdSend_ok t v hs
  | .dsiCmdDone t r => execDsiCmdDone_ok t r hs
  | .rasHfoDone t => execRasHfoDone_ok t hs
  | .rasUnderrun t n => execRasUnderrun_ok t n hs
  | .rasBufRel t b => execRasBufRel_ok t b hs
  | .descriptorPost t q idx => execDescriptorPost_ok t q idx hs
  | .ringBaseWrite t q r v => execRingBaseWrite_ok t q r v hs
  | .descriptorFetch t q ds => execDescriptorFetch_ok t q ds hs
  | .xferComplete t q ue => execXferComplete_ok t q ue hs
  | .queueDrained t q => execQueueDrained_ok t q hs
  | .queueAbort t q => execQueueAbort_ok t q hs
  | .hostReadError t r => execHostReadError_ok t r hs
  | .hostLinkReset t k => execHostLinkReset_ok t k hs
  | .evtStatusClear t w v => execEvtStatusClear_ok t w v hs
  | .evtEnableWrite t w v => execEvtEnableWrite_ok t w v hs
  | .evtDataRead t n => execEvtDataRead_ok t n hs
  | .evtVecAck t v => execEvtVecAck_ok t v hs
  | .vectorUnmask t v => execVectorUnmask_ok t v hs
  | .mbTwinAttach t tag => execMbTwinAttach_ok t tag hs
  | .mbTwinDetach t tag => execMbTwinDetach_ok t tag hs
  | .mbTwinTake t tag => execMbTwinTake_ok t tag hs
  | .hello t m => execHello_ok t m hs
  | .attachTimeout t => execAttachTimeout_ok t hs
  | .role t m => execRole_ok t m hs
  | .beat t m => execBeat_ok t m hs
  | .timeReq t m t3 => execTimeReq_ok t m t3 hs
  | .timeRsp t m => execTimeRsp_ok t m hs
  | .glnSync t m => execGlnSync_ok t m hs
  | .glnStep t m => execGlnStep_ok t m hs
  | .digest t m => execDigest_ok t m hs
  | .chsum t m => execChsum_ok t m hs
  | .glnPmu t m => execGlnPmu_ok t m hs
  | .take t m => execTake_ok t m hs
  | .detach t m => execDetach_ok t m hs
  | .glnMsgDiscard t m => execGlnMsgDiscard_ok t m hs
  | .glnCmpMiss t => execGlnCmpMiss_ok t hs
  | .glnLink t up => execGlnLink_ok t up hs
  | .twinPresChange t present => execTwinPresChange_ok t present hs
  | .glnFailDetect host => execGlnFailDetect_ok host hs
  | .glnTakeover host => execGlnTakeover_ok host hs
  | .heldQueueComplete t q => execHeldQueueComplete_ok t q hs
  | .mbInfo t tag => execMbInfo_ok t tag hs
  | .badCmd t tag => execBadCmd_ok t tag hs
  | .mbAck t => execMbAck_ok t hs
  | .mbLogRead t tag ok => execMbLogRead_ok t tag ok hs
  | .mbLogMark t tag => execMbLogMark_ok t tag hs
  | .mbFwInfo t tag => execMbFwInfo_ok t tag hs
  | .mbFwUpdate t tag img flashOk => execMbFwUpdate_ok t tag img flashOk hs
  | .mbFwActivate t tag => execMbFwActivate_ok t tag hs
  | .mbFwCommit t tag flashOk fuseOk => execMbFwCommit_ok t tag flashOk fuseOk hs
  | .mbFuseRead t tag => execMbFuseRead_ok t tag hs
  | .mbFuseProg t tag stuck => execMbFuseProg_ok t tag stuck hs
  | .mbPmbusXfer t tag r => execMbPmbusXfer_ok t tag r hs
  | .mbDebugChallenge t tag nonce => execMbDebugChallenge_ok t tag nonce hs
  | .mbDebugUnlock t tag resp => execMbDebugUnlock_ok t tag resp hs
  | .mgtWatchdog t => execMgtWatchdog_ok t hs
  | .basecampRestartDone t => execBasecampRestartDone_ok t hs
  | .trialTimeout t => execTrialTimeout_ok t hs
  | .sensorSample t v => execSensorSample_ok t v hs
  | .logSummary t => execLogSummary_ok t hs
  | .logFlush t flashOk => execLogFlush_ok t flashOk hs
  | .pmbusPoll t r => execPmbusPoll_ok t r hs
  | .smbStatus t pec => execSmbStatus_ok t pec hs
  | .smbAlertMask t pec w => execSmbAlertMask_ok t pec w hs
  | .smbSense t pec n => execSmbSense_ok t pec n hs
  | .smbMbReq t pec tag cmd args r => execSmbMbReq_ok t pec tag cmd args r hs
  | .smbMbResp t pec => execSmbMbResp_ok t pec hs
  | .smbLogEntry t pec seq => execSmbLogEntry_ok t pec seq hs
  | .powerOn => execPowerOn_ok hs
  | .rstNAssert => execRstNAssert_ok hs
  | .resetRelease => execResetRelease_ok hs
  | .brownout => execBrownout_ok hs
  | .stackTrainingDone t e ok => execStackTrainingDone_ok t e ok hs
  | .clusterSleep t c busy => execClusterSleep_ok t c busy hs
  | .clusterWake t c => execClusterWake_ok t c hs
  | .engineSleep t e busy => execEngineSleep_ok t e busy hs
  | .engineWake t e => execEngineWake_ok t e hs
  | .standby t busy => execStandby_ok t busy hs
  | .exitStandby t span => execExitStandby_ok t span hs
  | .thermalCheck t v => execThermalCheck_ok t v hs
  | .thermalTrip t n v => execThermalTrip_ok t n v hs
  | .linkDiagWrite t l v => execLinkDiagWrite_ok t l v hs
  | .inject t l => execInject_ok t l hs
  | .checkerLock t l lock bits errs => execCheckerLock_ok t l lock bits errs hs
  | .bistStart t unit => execBistStart_ok t unit hs
  | .bistDone t pass detail => execBistDone_ok t pass detail hs
  | .jtagInstruction t ins => execJtagInstruction_ok t ins hs
  | .clkinEdge t rise => execClkinEdge_ok t rise hs
  | .samplePlacement t p j x => execSamplePlacement_ok t p j x hs
  | .memCe t e => execMemCe_ok t e hs
  | .debugHalt t => execDebugHalt_ok t hs
  | .mgtBoot t => execMgtBoot_ok t hs
  | .powerOff => execPowerOff_ok hs
  | .perstNRelease t => execPerstNRelease_ok t hs
  | .linkBackToBudget t gen width => execLinkBackToBudget_ok t gen width hs
  | .apllFeedResume t => execApllFeedResume_ok t hs
  | .tlkHiBerClear t => execTlkHiBerClear_ok t hs
  | .carriedSyncSend t => execCarriedSyncSend_ok t hs

theorem State.Inv.ok (hs : s.Inv) : Ok s.pending AnyTime s := Ok.of hs rfl trivial

/-- Settles O4: each command answers a next state that keeps the queue. -/
theorem everyCommandCompletes : Obligations.EveryCommandCompletes := by
  intro c s hs
  obtain ⟨t, hnext, hok⟩ := exec_ok c hs.ok
  obtain ⟨-, hpending, -⟩ := hok
  exact ⟨t, hnext, hpending⟩

/-- A step with a command at the front of the queue is that command on the rest of the queue. -/
theorem step_of_cons {c : Instr} {rest : List Instr} (h : s.pending = c :: rest) :
    step s = exec c { s with pending := rest } := by
  rw [step, h]

/-- A step with an empty queue idles. -/
theorem step_of_nil (h : s.pending = []) : step s = .next s := by
  rw [step, h]

/-- Settles O1. -/
theorem stepRunsFrontCommand : Obligations.StepRunsFrontCommand :=
  ⟨fun _ _ _ h => step_of_cons h, fun _ h => step_of_nil h⟩

/-- Settles O3: an idle step changes nothing, and the command that a step runs keeps the invariant. -/
theorem everyStepKeepsInvariant : Obligations.EveryStepKeepsInvariant := by
  intro s t hs hstep
  cases hq : s.pending with
  | nil =>
    rw [step_of_nil hq] at hstep
    cases hstep
    exact hs
  | cons c rest =>
    rw [step_of_cons hq] at hstep
    obtain ⟨u, hnext, hinv, -⟩ := exec_ok (que := rest) c (s := { s with pending := rest }) (Ok.of hs rfl trivial)
    rw [hnext] at hstep
    cases hstep
    exact hinv

/-- Settles O2: the register file lists one register, which is not hard-wired, and the memory nothing. -/
theorem resetMeetsInvariant : Obligations.ResetMeetsInvariant :=
  ⟨⟨by decide, by decide⟩, by decide⟩

/-- Settles O5. -/
theorem resetLeaves : Obligations.ResetLeaves := by
  refine ⟨rfl, rfl, rfl, rfl, rfl, rfl, rfl, rfl, rfl, by decide, by decide, by decide, by decide, by decide, ?_, ?_,
    by decide, by decide, fun _ => rfl⟩
  · intro w _
    exact ⟨rfl, rfl⟩
  · decide

end Sys2Proof.Machine
end

section
/-! SUPPORT. Rules for reading a state after named updates of it, for what an update leaves alone (`onlyRegs`,
`onlyRaising`), and for the outcome of a command: what `when`, `whenHost` and `whenAccess` answer. -/

namespace Sys2Proof.Machine

variable {s t u : State} {but : List Reg} {srcs : List Nat}

/-! ### Registers and fields after an update -/

@[simp] theorem State.reg_setReg_ne (s : State) (n : RegName) (i : Nat) (v : Word) (n' : RegName) (i' : Nat)
    (h : n' ≠ n) : (s.setReg n i v).reg n' i' = s.reg n' i' := s.reg_setReg_other n i v fun hh => h hh.1

@[simp] theorem State.reg_setFld_ne (s : State) (f : Fld) (i x : Nat) (n' : RegName) (i' : Nat) (h : n' ≠ f.reg) :
    (s.setFld f i x).reg n' i' = s.reg n' i' := s.reg_setFld_other f i x fun hh => h hh.1

@[simp] theorem State.fld_setReg_ne (s : State) (n : RegName) (i : Nat) (v : Word) (g : Fld) (j : Nat)
    (h : g.reg ≠ n) : (s.setReg n i v).fld g j = s.fld g j := s.fld_setReg_other n i v g j fun hh => h hh.1

@[simp] theorem State.fld_setReg_eq (s : State) (g : Fld) (n : RegName) (i : Nat) (v : Word) (h : g.reg = n) :
    (s.setReg n i v).fld g i = getBits v g.lsb g.width := by
  subst h; rw [State.fld, State.reg_setReg_same]

@[simp] theorem State.fld_setFld_ne (s : State) (f g : Fld) (i j x : Nat) (h : g.reg ≠ f.reg) :
    (s.setFld f i x).fld g j = s.fld g j := s.fld_setFld_other f g i j x (.inl fun hh => h hh.1)

/-- A field apart from the one set reads as before, in the same register too. -/
@[simp] theorem State.fld_setFld_apart (s : State) (f g : Fld) (i j x : Nat)
    (h : g.lsb + g.width ≤ f.lsb ∨ f.lsb + f.width ≤ g.lsb) : (s.setFld f i x).fld g j = s.fld g j :=
  s.fld_setFld_other f g i j x (.inr h)

/-- A field of the same register at another index reads as before. -/
@[simp] theorem State.fld_setFld_index (s : State) (f g : Fld) (i j x : Nat) (h : j ≠ i) :
    (s.setFld f i x).fld g j = s.fld g j := s.fld_setFld_other f g i j x (.inl fun hh => h hh.2)

@[simp] theorem State.reg_setReg_index (s : State) (n : RegName) (i : Nat) (v : Word) (n' : RegName) (i' : Nat)
    (h : i' ≠ i) : (s.setReg n i v).reg n' i' = s.reg n' i' := s.reg_setReg_other n i v fun hh => h hh.2

@[simp] theorem State.reg_setFld_index (s : State) (f : Fld) (i x : Nat) (n' : RegName) (i' : Nat) (h : i' ≠ i) :
    (s.setFld f i x).reg n' i' = s.reg n' i' := s.reg_setFld_other f i x fun hh => h hh.2

@[simp] theorem State.fld_setReg_index (s : State) (n : RegName) (i : Nat) (v : Word) (g : Fld) (j : Nat)
    (h : j ≠ i) : (s.setReg n i v).fld g j = s.fld g j := s.fld_setReg_other n i v g j fun hh => h hh.2

@[simp] theorem State.fld_setFld_eq (s : State) (f : Fld) (i x : Nat) (h : f.lsb + f.width ≤ 32) :
    (s.setFld f i x).fld f i = x % 2 ^ f.width := s.fld_setFld_same f i x h

/-- What a field reads as in a register file. -/
def fldIn (m : List (Reg × Word)) (f : Fld) (i : Nat) : Nat := getBits (rget m ⟨f.reg, i⟩) f.lsb f.width

@[simp] theorem fldIn_regs (s : State) (f : Fld) (i : Nat) : fldIn s.regs f i = s.fld f i := rfl
/-- A field of a register file, as a flag. -/
def flagIn (m : List (Reg × Word)) (f : Fld) (i : Nat) : Bool := fldIn m f i != 0

@[simp] theorem flagIn_regs (s : State) (f : Fld) (i : Nat) : flagIn s.regs f i = s.flag f i := rfl

/-- STATUS of a source in a register file. -/
def statusIn (m : List (Reg × Word)) (k : Nat) : Bool := (rget m ⟨.EVT_STATUS, k / 32⟩).getLsbD (k % 32)

@[simp] theorem statusIn_regs (s : State) (k : Nat) : statusIn s.regs k = s.evtStatus k := rfl
@[simp] theorem rget_regs (s : State) (n : RegName) (i : Nat) : rget s.regs ⟨n, i⟩ = s.reg n i := rfl

section mk
variable (regs : List (Reg × Word)) (latch : List (Reg × Word)) (time : Tu) (frame : Frame) (mem : List Host.Cell)
  (masks : Tab Word) (bins : Tab Nat) (dir : Tab (List Byte)) (dirSeq : Tab Nat) (tick : Tick) (pitch : Pitch)
  (clk : Clk) (tlk : Tlk) (spll : Tab Spll) (pll : Pll) (afe : Tab Afe) (lanes : Tab Lane) (comps : Tab Comp)
  (gens : Tab Gen) (trigOut : Tab TrigLine) (trigIn : Tab Tu) (regions : Tab Region) (red : Tab Red) (sync : Sync)
  (planes : Tab Plane) (maskFire xtrigCycle : Tab Tu) (snaps : Tab Snap) (tic : Tab Tic) (pmu : Pmu) (ras : Ras)
  (dma : Dma) (evt : Evt) (gln : Gln) (mgt : Mgt) (pwr : Pwr) (dia : Dia) (free : Nat) (out : List Out)
  (pending : List Instr)

/-- A register of a state after a change of other components is that of its register file. -/
@[simp] theorem State.reg_mk (n : RegName) (i : Nat) :
    (State.mk regs latch time frame mem masks bins dir dirSeq tick pitch clk tlk spll pll afe lanes comps gens trigOut
      trigIn regions red sync planes maskFire xtrigCycle snaps tic pmu ras dma evt gln mgt pwr dia free out
      pending).reg n i = rget regs ⟨n, i⟩ := rfl

@[simp] theorem State.fld_mk (f : Fld) (i : Nat) :
    (State.mk regs latch time frame mem masks bins dir dirSeq tick pitch clk tlk spll pll afe lanes comps gens trigOut
      trigIn regions red sync planes maskFire xtrigCycle snaps tic pmu ras dma evt gln mgt pwr dia free out
      pending).fld f i = fldIn regs f i := rfl

@[simp] theorem State.flag_mk (f : Fld) (i : Nat) :
    (State.mk regs latch time frame mem masks bins dir dirSeq tick pitch clk tlk spll pll afe lanes comps gens trigOut
      trigIn regions red sync planes maskFire xtrigCycle snaps tic pmu ras dma evt gln mgt pwr dia free out
      pending).flag f i = flagIn regs f i := rfl

@[simp] theorem State.evtStatus_mk (k : Nat) :
    (State.mk regs latch time frame mem masks bins dir dirSeq tick pitch clk tlk spll pll afe lanes comps gens trigOut
      trigIn regions red sync planes maskFire xtrigCycle snaps tic pmu ras dma evt gln mgt pwr dia free out
      pending).evtStatus k = statusIn regs k := rfl
end mk

/-- Field reads that hang on the register alone. -/
theorem State.fld_of_reg {f : Fld} {i : Nat} (h : t.reg f.reg i = s.reg f.reg i) : t.fld f i = s.fld f i := by
  rw [State.fld, State.fld, h]

theorem State.flag_of_reg {f : Fld} {i : Nat} (h : t.reg f.reg i = s.reg f.reg i) : t.flag f i = s.flag f i := by
  rw [State.flag, State.flag, State.fld_of_reg h]

theorem State.flag_eq (s : State) (f : Fld) (i : Nat) : s.flag f i = (s.fld f i != 0) := rfl

@[simp] theorem State.at_alive (s : State) (t : Tu) : (s.at t).alive = s.alive := by
  rw [State.alive, State.alive, State.at_pwr]
@[simp] theorem State.at_hostUp (s : State) (t : Tu) : (s.at t).hostUp = s.hostUp := by
  rw [State.hostUp, State.hostUp, State.at_alive, State.at_pwr]
@[simp] theorem State.at_pitched (s : State) (t : Tu) : (s.at t).pitched = s.pitched := by
  rw [State.pitched, State.pitched, State.at_pitch]
@[simp] theorem State.at_standby (s : State) (t : Tu) : (s.at t).standby = s.standby := by
  rw [State.standby, State.standby, State.at_fld]
@[simp] theorem State.at_k (s : State) (t : Tu) : (s.at t).k = s.k := by rw [State.k, State.k, State.at_fld]
@[simp] theorem State.at_gateOpen (s : State) (t : Tu) (n : Nat) : (s.at t).gateOpen n = s.gateOpen n := by
  rw [State.gateOpen, State.gateOpen, State.at_reg, State.at_reg]
@[simp] theorem State.at_dieAsleep (s : State) (t : Tu) (n : Nat) : (s.at t).dieAsleep n = s.dieAsleep n := by
  rw [State.dieAsleep, State.dieAsleep, State.at_fld, State.at_gateOpen]
@[simp] theorem State.at_clusterAsleep (s : State) (t : Tu) (n : Nat) :
    (s.at t).clusterAsleep n = s.clusterAsleep n := by
  rw [State.clusterAsleep, State.clusterAsleep, State.at_fld, State.at_gateOpen, State.at_dieAsleep]
@[simp] theorem State.at_evtStatus (s : State) (t : Tu) (k : Nat) : (s.at t).evtStatus k = s.evtStatus k := by
  rw [State.evtStatus, State.evtStatus, State.at_reg]

theorem State.alive_of_hostUp (h : s.hostUp = true) : s.alive = true := by
  rw [State.hostUp, Bool.and_eq_true] at h
  exact h.1

/-! ### STATUS of a source after an update -/

theorem State.evtStatus_of_reg {k : Nat} (h : ∀ i, t.reg .EVT_STATUS i = s.reg .EVT_STATUS i) :
    t.evtStatus k = s.evtStatus k := by rw [State.evtStatus, State.evtStatus, h]

@[simp] theorem State.evtStatus_setReg (s : State) (n : RegName) (i : Nat) (v : Word) (k : Nat) (h : n ≠ .EVT_STATUS) :
    (s.setReg n i v).evtStatus k = s.evtStatus k := State.evtStatus_of_reg fun _ => s.reg_setReg_ne _ _ _ _ _ h.symm

@[simp] theorem State.evtStatus_setFld (s : State) (f : Fld) (i x : Nat) (k : Nat) (h : f.reg ≠ .EVT_STATUS) :
    (s.setFld f i x).evtStatus k = s.evtStatus k := s.evtStatus_setReg _ _ _ _ h

/-- Raising other sources leaves STATUS of a source. -/
theorem Raises.evtStatus {ns : List Nat} (h : Raises s t ns) {k : Nat} (hk : k ∉ ns) :
    t.evtStatus k = s.evtStatus k := (h.src k hk).1

@[simp] theorem State.evtStatus_raise_ne (s : State) (k causes info n : Nat) (h : n ≠ k) :
    (s.raise k causes info).evtStatus n = s.evtStatus n :=
  (State.raise_raises k causes info).evtStatus (List.mem_singleton.not.2 h)

@[simp] theorem State.evtStatus_raise0_ne (s : State) (k n : Nat) (h : n ≠ k) :
    (s.raise0 k).evtStatus n = s.evtStatus n := s.evtStatus_raise_ne k 1 0 n h

/-- A source of no unit that sleeps and of no queue (Table EVT-5). -/
def hubSource (n : Nat) : Bool :=
  evtValid n && !(decide (80 ≤ n ∧ n ≤ 259) || decide (272 ≤ n ∧ n ≤ 285) || decide (304 ≤ n ∧ n ≤ 367) ||
    decide (424 ≤ n ∧ n ≤ 455))

/-- A raise of such a source whose route does not name Basecamp leaves STATUS 1 (R349). -/
theorem State.raise_hubSource {k : Nat} (causes info : Nat) (hh : hubSource k = true)
    (hk : s.fld Fld.EVT_ROUTE_KIND k ≠ 1) : (s.raise k causes info).evtStatus k = true := by
  simp only [hubSource, Bool.and_eq_true, Bool.not_eq_true', Bool.or_eq_false_iff, decide_eq_false_iff_not] at hh
  obtain ⟨hv, ⟨⟨h1, h2⟩, h3⟩, h4⟩ := hh
  refine State.raise_status k causes info hv ?_ ?_ hk
  · unfold State.evtAsleep
    repeat rw [if_neg (by omega)]
  · rw [State.evtAbsent, decide_eq_false h3, Bool.false_and]

theorem State.raise0_hubSource {k : Nat} (hh : hubSource k = true) (hk : s.fld Fld.EVT_ROUTE_KIND k ≠ 1) :
    (s.raise0 k).evtStatus k = true := State.raise_hubSource 1 0 hh hk

@[simp] theorem eventReg_eq_false (n : RegName) :
    eventReg n = false ↔ n ∉ [RegName.EVT_STATUS, .EVT_DATA, .EVT_CNT, .EVT_VEC_ARMED_LO, .EVT_VEC_ARMED_HI,
      .MGT_LOG_SEQ, .MGT_LOG_DROP, .HUB_TRIG_OUT_MERGED] := by
  unfold eventReg
  split <;> simp_all

@[simp] theorem State.raise_fld_of (s : State) (k causes info : Nat) (f : Fld) (i : Nat)
    (he : eventReg f.reg = false) : (s.raise k causes info).fld f i = s.fld f i := s.raise_fld k causes info f i he
@[simp] theorem State.raise0_fld_of (s : State) (k : Nat) (f : Fld) (i : Nat) (he : eventReg f.reg = false) :
    (s.raise0 k).fld f i = s.fld f i := s.raise_fld k 1 0 f i he
@[simp] theorem State.raise_reg_of (s : State) (k causes info : Nat) (n : RegName) (i : Nat)
    (he : eventReg n = false) : (s.raise k causes info).reg n i = s.reg n i := s.raise_reg k causes info n i he
@[simp] theorem State.raise0_reg_of (s : State) (k : Nat) (n : RegName) (i : Nat) (he : eventReg n = false) :
    (s.raise0 k).reg n i = s.reg n i := s.raise_reg k 1 0 n i he

/-! ### Choices between states -/

@[simp] theorem State.reg_ite (c : Prop) [Decidable c] (a b : State) (n : RegName) (i : Nat) :
    (if c then a else b).reg n i = if c then a.reg n i else b.reg n i := by split <;> rfl
@[simp] theorem State.fld_ite (c : Prop) [Decidable c] (a b : State) (f : Fld) (i : Nat) :
    (if c then a else b).fld f i = if c then a.fld f i else b.fld f i := by split <;> rfl
@[simp] theorem State.evtStatus_ite (c : Prop) [Decidable c] (a b : State) (k : Nat) :
    (if c then a else b).evtStatus k = if c then a.evtStatus k else b.evtStatus k := by split <;> rfl

/-! ### What an update leaves alone -/

theorem onlyRegs.refl (s : State) (but : List Reg) : onlyRegs s s but := ⟨fun _ _ _ => rfl, fun _ => rfl⟩

theorem onlyRegs.trans (h : onlyRegs s t but) (g : onlyRegs t u but) : onlyRegs s u but :=
  ⟨fun n i hn => (g.1 n i hn).trans (h.1 n i hn), fun a => (g.2 a).trans (h.2 a)⟩

theorem onlyRegs.mono {but' : List Reg} (h : onlyRegs s t but) (hb : but ⊆ but') : onlyRegs s t but' :=
  ⟨fun n i hn => h.1 n i fun hm => hn (hb hm), h.2⟩

/-- A change of neither registers nor memory. -/
theorem onlyRegs.of_eq (hr : u.regs = t.regs) (hm : u.mem = t.mem) (h : onlyRegs s t but) : onlyRegs s u but :=
  h.trans ⟨fun _ _ _ => by rw [State.reg, State.reg, hr], fun _ => by rw [hm]⟩

theorem onlyRegs.setReg {n : RegName} {i : Nat} {v : Word} (hn : ⟨n, i⟩ ∈ but) (h : onlyRegs s t but) :
    onlyRegs s (t.setReg n i v) but :=
  h.trans ⟨fun _ _ hn' => t.reg_setReg_other n i v fun hh => hn' (hh.1 ▸ hh.2 ▸ hn), fun _ => rfl⟩

theorem onlyRegs.setFld {f : Fld} {i x : Nat} (hn : ⟨f.reg, i⟩ ∈ but) (h : onlyRegs s t but) :
    onlyRegs s (t.setFld f i x) but := .setReg hn h

theorem onlyRegs.emit {o : Out} (h : onlyRegs s t but) : onlyRegs s (t.emit o) but := .of_eq rfl rfl h

theorem onlyRegs.ite {c : Prop} [Decidable c] {a b : State} (ha : onlyRegs s a but) (hb : onlyRegs s b but) :
    onlyRegs s (if c then a else b) but := by split <;> assumption

theorem onlyRegs.at {x : Tu} (h : onlyRegs (s.at x) t but) : onlyRegs s t but :=
  (onlyRegs.of_eq (State.at_regs _ _) (State.at_mem _ _) (.refl s but)).trans h

theorem onlyRegs.foldl {α : Type} {f : State → α → State} (l : List α)
    (hf : ∀ a x, x ∈ l → onlyRegs s a but → onlyRegs s (f a x) but) (h : onlyRegs s t but) :
    onlyRegs s (l.foldl f t) but := by
  induction l generalizing t with
  | nil => exact h
  | cons x l ih =>
    exact ih (fun a y hy => hf a y (List.mem_cons_of_mem _ hy)) (hf t x (List.mem_cons_self ..) h)

theorem sameMem.refl (s : State) : sameMem s s := fun _ => rfl
theorem sameMem.trans (h : sameMem s t) (g : sameMem t u) : sameMem s u := fun a => (g a).trans (h a)

theorem onlyRaising.refl (s : State) (but : List Reg) (srcs : List Nat) : onlyRaising s s but srcs :=
  ⟨fun _ _ _ _ => rfl, fun _ _ _ => sameSource.refl s _, fun _ => rfl⟩

theorem onlyRaising.trans (h : onlyRaising s t but srcs) (g : onlyRaising t u but srcs) : onlyRaising s u but srcs :=
  ⟨fun n i hn he => (g.1 n i hn he).trans (h.1 n i hn he), fun k hk hf => (h.2.1 k hk hf).trans (g.2.1 k hk hf),
    h.2.2.trans g.2.2⟩

theorem onlyRaising.mono {but' : List Reg} {srcs' : List Nat} (h : onlyRaising s t but srcs) (hb : but ⊆ but')
    (hs : srcs ⊆ srcs') : onlyRaising s t but' srcs' :=
  ⟨fun n i hn => h.1 n i fun hm => hn (hb hm), fun k hk => h.2.1 k fun hm => hk (hs hm), h.2.2⟩

theorem onlyRaising.of_eq (hr : u.regs = t.regs) (hm : u.mem = t.mem) (h : onlyRaising s t but srcs) :
    onlyRaising s u but srcs := by
  have hreg : ∀ n i, u.reg n i = t.reg n i := fun n i => by rw [State.reg, State.reg, hr]
  exact h.trans ⟨fun _ _ _ _ => hreg _ _, fun _ _ _ => ⟨State.evtStatus_of_reg fun _ => hreg _ _, hreg _ _, hreg _ _⟩,
    fun _ => by rw [hm]⟩

theorem onlyRaising.setReg {n : RegName} {i : Nat} {v : Word} (hn : ⟨n, i⟩ ∈ but) (he : eventReg n = false)
    (h : onlyRaising s t but srcs) : onlyRaising s (t.setReg n i v) but srcs := by
  refine h.trans ⟨fun n' i' hn' _ => t.reg_setReg_other n i v fun hh => hn' (hh.1 ▸ hh.2 ▸ hn), fun k _ _ =>
    sameSource.setReg_other i v k ?_ ?_ ?_, fun _ => rfl⟩ <;>
  · rintro rfl
    cases he

theorem onlyRaising.setFld {f : Fld} {i x : Nat} (hn : ⟨f.reg, i⟩ ∈ but) (he : eventReg f.reg = false)
    (h : onlyRaising s t but srcs) : onlyRaising s (t.setFld f i x) but srcs := .setReg hn he h

theorem onlyRaising.emit {o : Out} (h : onlyRaising s t but srcs) : onlyRaising s (t.emit o) but srcs :=
  .of_eq rfl rfl h

theorem onlyRaising.ite {c : Prop} [Decidable c] {a b : State} (ha : onlyRaising s a but srcs)
    (hb : onlyRaising s b but srcs) : onlyRaising s (if c then a else b) but srcs := by split <;> assumption

/-- A raise of sources that are named, or that follow a raise. -/
theorem Raises.only {ns : List Nat} (h : Raises s t ns) (hn : ∀ k ∈ ns, k ∈ srcs ∨ followsRaise k = true) :
    onlyRaising s t but srcs := by
  refine ⟨fun n i _ he => h.reg n i he, fun k hk hf => h.src k fun hm => ?_, fun _ => by rw [h.mem]⟩
  rcases hn k hm with h' | h'
  · exact hk h'
  · rw [hf] at h'; cases h'

theorem onlyRaising.raise {k causes info : Nat} (hk : k ∈ srcs) (h : onlyRaising s t but srcs) :
    onlyRaising s (t.raise k causes info) but srcs :=
  h.trans ((State.raise_raises k causes info).only fun _ hj => .inl (List.mem_singleton.1 hj ▸ hk))

theorem onlyRaising.raise0 {k : Nat} (hk : k ∈ srcs) (h : onlyRaising s t but srcs) :
    onlyRaising s (t.raise0 k) but srcs := .raise hk h

theorem onlyRaising.at {x : Tu} (h : onlyRaising (s.at x) t but srcs) : onlyRaising s t but srcs :=
  (onlyRaising.of_eq (State.at_regs _ _) (State.at_mem _ _) (.refl s but srcs)).trans h

theorem onlyRaising.foldl {α : Type} {f : State → α → State} (l : List α)
    (hf : ∀ a x, x ∈ l → onlyRaising s a but srcs → onlyRaising s (f a x) but srcs) (h : onlyRaising s t but srcs) :
    onlyRaising s (l.foldl f t) but srcs := by
  induction l generalizing t with
  | nil => exact h
  | cons x l ih =>
    exact ih (fun a y hy => hf a y (List.mem_cons_of_mem _ hy)) (hf t x (List.mem_cons_self ..) h)

/-- No register of the list is one that raising and delivering events changes. -/
def noEventReg (but : List Reg) : Bool := but.all fun r => !eventReg r.n

theorem onlyRegs.raising (h : onlyRegs s t but) (hb : noEventReg but = true) : onlyRaising s t but srcs := by
  have hreg : ∀ n i, eventReg n = true → t.reg n i = s.reg n i := fun n i he => h.1 n i fun hm => by
    have := List.all_eq_true.1 hb _ hm
    simp only [he, Bool.not_true] at this
    cases this
  exact ⟨fun n i hn _ => h.1 n i hn, fun k _ _ => ⟨State.evtStatus_of_reg fun _ => hreg _ _ rfl, hreg _ _ rfl,
    hreg _ _ rfl⟩, h.2⟩

/-- An operation after others: what it leaves alone of their outcome. -/
theorem onlyRegs.step {b : List Reg} (g : onlyRegs t u b) (hb : b ⊆ but) (h : onlyRegs s t but) : onlyRegs s u but :=
  h.trans (g.mono hb)

theorem onlyRaising.step {b : List Reg} (g : onlyRegs t u b) (hb : b ⊆ but) (he : noEventReg b = true)
    (h : onlyRaising s t but srcs) : onlyRaising s u but srcs := h.trans ((g.raising he).mono hb (fun _ h => h))

theorem onlyRaising.and_then {b : List Reg} {ss : List Nat} (g : onlyRaising t u b ss) (hb : b ⊆ but) (hs : ss ⊆ srcs)
    (h : onlyRaising s t but srcs) : onlyRaising s u but srcs := h.trans (g.mono hb hs)

/-! ### What a command answers -/

/-- The notes that end a command: sources that follow a raise. -/
def noteSrcs : List Nat := [260, 261, 262, 263, 466]

theorem State.done_notes (s0 s : State) : ∃ u, s0.done s = .next u ∧ Raises s u noteSrcs :=
  ⟨_, rfl, State.notes_raises s0⟩

theorem Raises.onlyNotes (h : Raises s t noteSrcs) : onlyRaising s t but srcs :=
  h.only fun k hk => .inr (by
    simp only [noteSrcs, List.mem_cons, List.not_mem_nil, or_false] at hk
    rcases hk with rfl | rfl | rfl | rfl | rfl <;> rfl)

/-- A command that changes no register of the events ends without a note. -/
theorem State.done_of_sameRegs {s0 : State} (h : sameRegs s0 s but) (hb : noEventReg but = true) :
    s0.done s = .next s := by
  have hreg : ∀ n i, eventReg n = true → s.reg n i = s0.reg n i := fun n i he => h n i fun hm => by
    have := List.all_eq_true.1 hb _ hm
    simp only [he, Bool.not_true] at this
    cases this
  exact State.done_quiet (fun i => hreg _ i rfl) (hreg _ 0 rfl)

theorem State.when_eq {x : Tu} {f : State → State} (ha : s.alive = true) : s.when x f = s.done (f (s.at x)) :=
  if_pos ha

theorem State.whenHost_eq {x : Tu} {f : State → State} (ha : s.hostUp = true) : s.whenHost x f = s.done (f (s.at x)) :=
  if_pos ha

theorem State.whenAccess_eq {x : Tu} {f : State → State} (ha : s.hostUp = true) :
    s.whenAccess x f = (s.nowAt x).done (f (s.nowAt x)) := if_pos ha

/-- A command that changes registers other than those of the events. -/
theorem State.done_onlyRegs {x : Tu} (h : onlyRegs (s.at x) t but) (hb : noEventReg but = true) :
    s.done t = .next t ∧ onlyRegs s t but := ⟨State.done_of_sameRegs h.at.1 hb, h.at⟩

theorem onlyRaising.fld {f : Fld} {i : Nat} (h : onlyRaising s t but srcs) (hf : ⟨f.reg, i⟩ ∉ but)
    (he : eventReg f.reg = false) : t.fld f i = s.fld f i := State.fld_of_reg (h.1 _ _ hf he)

theorem onlyRaising.evtStatus {k : Nat} (h : onlyRaising s t but srcs) (hk : k ∉ srcs) (hf : followsRaise k = false) :
    t.evtStatus k = s.evtStatus k := (h.2.1 k hk hf).1

/-- A command that raises events. -/
theorem State.done_onlyRaising {x : Tu} (h : onlyRaising (s.at x) t but srcs) :
    ∃ u, s.done t = .next u ∧ Raises t u noteSrcs ∧ onlyRaising s u but srcs := by
  obtain ⟨u, hu, hr⟩ := s.done_notes t
  exact ⟨u, hu, hr, h.at.trans hr.onlyNotes⟩

end Sys2Proof.Machine
end

section
/-! SUPPORT. The reference sources and the timing link (chapter 04): what each operation on the sources leaves alone, and
what its fields read afterwards; the statements about source settings and monitoring. -/

namespace Sys2Proof.Machine

variable {s t u : State} {but : List Reg} {srcs : List Nat}

/-! ### ACTIVE and the JPLL's lock -/

@[simp] theorem State.pmuCoast_regs (s : State) : s.pmuCoast.regs = s.regs := rfl
@[simp] theorem State.pmuCoast_reg (s : State) (n : RegName) (i : Nat) : s.pmuCoast.reg n i = s.reg n i := rfl
@[simp] theorem State.pmuCoast_fld (s : State) (f : Fld) (i : Nat) : s.pmuCoast.fld f i = s.fld f i := rfl
@[simp] theorem State.pmuCoast_evtStatus (s : State) (k : Nat) : s.pmuCoast.evtStatus k = s.evtStatus k := rfl
@[simp] theorem State.pmuCoast_tlk (s : State) : s.pmuCoast.tlk = s.tlk := rfl
@[simp] theorem State.pmuCoast_clk (s : State) : s.pmuCoast.clk = s.clk := rfl
@[simp] theorem State.pmuCoast_time (s : State) : s.pmuCoast.time = s.time := rfl

theorem State.jpllUnlock_only (h64 : 64 ∈ srcs) (hj : ⟨.PLL_JPLL_STATUS, 0⟩ ∈ but) (h : onlyRaising s t but srcs) :
    onlyRaising s t.jpllUnlock but srcs :=
  .ite (.raise h64 (.setFld hj rfl (.setFld hj rfl h))) h

@[simp] theorem State.jpllUnlock_fld (s : State) (f : Fld) (i : Nat) (hf : f.reg ≠ .PLL_JPLL_STATUS)
    (he : eventReg f.reg = false) : s.jpllUnlock.fld f i = s.fld f i := by
  simp [State.jpllUnlock, hf, he]
@[simp] theorem State.jpllUnlock_lock (s : State) : s.jpllUnlock.fld Fld.PLL_JPLL_STATUS_LOCK 0 = 0 := by
  unfold State.jpllUnlock
  split
  · simp
  · next h => simpa [State.flag_eq] using h
@[simp] theorem State.jpllUnlock_evtStatus (s : State) (k : Nat) (hk : k ≠ 64) :
    s.jpllUnlock.evtStatus k = s.evtStatus k := by
  simp [State.jpllUnlock, hk]

/-! ### RW fields -/

/-- A field whose bits are all RW reads what was written. -/
theorem State.fld_writeRW (s : State) (f : Fld) (i : Nat) (v : Word)
    (h : ∀ j, j < f.width → (accMask f.reg .RW).getLsbD (f.lsb + j) = true) :
    (s.writeRW f.reg i v).fld f i = getBits v f.lsb f.width := by
  rw [State.writeRW, State.fld, State.reg_setReg_same]
  apply Nat.eq_of_testBit_eq
  intro j
  rw [getBits_testBit, getBits_testBit]
  by_cases hj : j < f.width
  · have hm := h j hj
    simp only [BitVec.getLsbD_or, BitVec.getLsbD_and, BitVec.getLsbD_not, hm, hj, decide_true]
    simp
  · simp [hj]

@[simp] theorem State.fld_writeRW_ne (s : State) (n : RegName) (i : Nat) (v : Word) (g : Fld) (j : Nat)
    (h : g.reg ≠ n) : (s.writeRW n i v).fld g j = s.fld g j := s.fld_setReg_ne n i _ g j h

@[simp] theorem State.evtStatus_writeRW (s : State) (n : RegName) (i : Nat) (v : Word) (k : Nat) (h : n ≠ .EVT_STATUS) :
    (s.writeRW n i v).evtStatus k = s.evtStatus k := s.evtStatus_setReg n i _ k h

/-- A field of one bit, as a flag. -/
theorem getBits_one (v : Word) (l : Nat) : (getBits v l 1 != 0) = v.getLsbD l := by
  have h := getBits_testBit v l 1 0
  have hlt := getBits_lt v l 1
  obtain h0 | h1 : getBits v l 1 = 0 ∨ getBits v l 1 = 1 := by omega
  · rw [h0] at h ⊢; simpa using h
  · rw [h1] at h ⊢; simpa using h

/-! ### Qualification, relock and switches -/

theorem qualFld_reg (x : Nat) : (qualFld x).reg = .CLK_SRC_STATUS := by unfold qualFld; split <;> rfl
theorem qcountFld_reg (x : Nat) : (qcountFld x).reg = .CLK_SRC_STATUS := by unfold qcountFld; split <;> rfl
theorem devFld_reg (x : Nat) : (devFld x).reg = .CLK_FREQ_DEV := by unfold devFld; split <;> rfl

theorem State.relockIdle_only (hk : ⟨.TLK_STATUS, 0⟩ ∈ but) (h : onlyRaising s t but srcs) :
    onlyRaising s t.relockIdle but srcs := .of_eq rfl rfl (.setFld (t := t) (f := Fld.TLK_STATUS_RELOCK_STATE) hk rfl h)

theorem State.unqualify_regs (s : State) (x : Nat) :
    onlyRegs s (s.unqualify x) [⟨.CLK_SRC_STATUS, 0⟩, ⟨.TLK_STATUS, 0⟩] := by
  have hq : onlyRegs s ((s.setFld (qualFld x) 0 0).setFld (qcountFld x) 0 0)
      [⟨.CLK_SRC_STATUS, 0⟩, ⟨.TLK_STATUS, 0⟩] := by
    refine .setFld ?_ (.setFld ?_ (.refl s _)) <;> simp [qualFld_reg, qcountFld_reg]
  exact .ite (.of_eq rfl rfl (.setFld (f := Fld.TLK_STATUS_RELOCK_STATE) (by simp) hq)) hq

theorem State.toCoast_only {b : Bool} (h64 : 64 ∈ srcs) (hc : ⟨.CLK_SRC_STATUS, 0⟩ ∈ but)
    (hj : ⟨.PLL_JPLL_STATUS, 0⟩ ∈ but) (h : onlyRaising s t but srcs) : onlyRaising s (t.toCoast b) but srcs := by
  have ha : onlyRaising s (t.jpllUnlock.setActive 2) but srcs :=
    .of_eq rfl rfl (.setFld (f := Fld.PLL_JPLL_STATUS_COAST) hj rfl (.setFld (f := Fld.CLK_SRC_STATUS_ACTIVE) hc rfl
      (State.jpllUnlock_only h64 hj h)))
  exact .ite (.of_eq rfl rfl ha) ha

theorem State.switchTo_only {x : Nat} (h2 : 2 ∈ srcs) (h64 : 64 ∈ srcs) (hc : ⟨.CLK_SRC_STATUS, 0⟩ ∈ but)
    (hj : ⟨.PLL_JPLL_STATUS, 0⟩ ∈ but) (hk : ⟨.TLK_STATUS, 0⟩ ∈ but) (h : onlyRaising s t but srcs) :
    onlyRaising s (t.switchTo x) but srcs := by
  have ha : onlyRaising s (t.jpllUnlock.setActive x) but srcs :=
    .of_eq rfl rfl (.setFld (f := Fld.PLL_JPLL_STATUS_COAST) hj rfl (.setFld (f := Fld.CLK_SRC_STATUS_ACTIVE) hc rfl
      (State.jpllUnlock_only h64 hj h)))
  refine .raise0 h2 (.ite (.of_eq rfl rfl (State.relockIdle_only hk ?_)) (State.relockIdle_only hk ?_)) <;>
    exact .of_eq rfl rfl (.setFld (f := Fld.CLK_SRC_STATUS_NO_SOURCE) hc rfl ha)

/-- The device has switched to source `x`. -/
theorem State.switchTo_reads (s : State) {x : Nat} (hx : x < 2) :
    (s.switchTo x).active = x ∧ (s.switchTo x).fld Fld.PLL_JPLL_STATUS_LOCK 0 = 0 ∧ (s.switchTo x).relockState = 0 ∧
      (∀ y, (s.switchTo x).qualified y = s.qualified y) ∧
      (s.fld Fld.EVT_ROUTE_KIND 2 ≠ 1 → (s.switchTo x).evtStatus 2 = true) := by
  refine ⟨?_, ?_, ?_, fun y => ?_, fun hk => State.raise0_hubSource rfl ?_⟩
  · simp [State.switchTo, State.active, State.setActive, State.relockIdle]
    omega
  · simp [State.switchTo, State.setActive, State.relockIdle]
  · simp [State.switchTo, State.relockState, State.setActive, State.relockIdle]
  · unfold State.qualified qualFld State.flag
    split <;> simp [State.switchTo, State.setActive, State.relockIdle]
  · simpa [State.setActive, State.relockIdle] using hk

/-- The JPLL coasts. -/
theorem State.toCoast_reads (s : State) (b : Bool) :
    (s.toCoast b).active = 2 ∧ (s.toCoast b).fld Fld.PLL_JPLL_STATUS_LOCK 0 = 0 ∧
      (s.toCoast b).fld Fld.PLL_JPLL_STATUS_COAST 0 = 1 ∧ (s.toCoast b).relockState = s.relockState ∧
      (∀ y, (s.toCoast b).qualified y = s.qualified y) ∧
      (b = true → (s.toCoast b).clk.noSrcFrom = some s.time) := by
  refine ⟨?_, ?_, ?_, ?_, fun y => ?_, fun hb => ?_⟩
  · simp [State.toCoast, State.active, State.setActive]
  · simp [State.toCoast, State.setActive]
  · simp [State.toCoast, State.setActive]
  · simp [State.toCoast, State.relockState, State.setActive]
  · unfold State.qualified qualFld State.flag
    split <;> simp [State.toCoast, State.setActive]
  · subst hb
    show some _ = some _
    simp [State.setActive, State.jpllUnlock]
    split <;> simp

end Sys2Proof.Machine
end

section
/-! SUPPORT. Writes of the source settings (R83, R84): what `prefChanged` does where the active source is excluded, and
where it stays allowed. -/

namespace Sys2Proof.Machine

variable {s t u : State} {but : List Reg} {srcs : List Nat}

/-- What a loss of qualification leaves: the source is not qualified, and the other keeps its qualification. -/
theorem State.unqualify_reads (s : State) {x : Nat} (hx : x < 2) :
    (s.unqualify x).qualified x = false ∧ (s.unqualify x).qualified (1 - x) = s.qualified (1 - x) ∧
      (s.unqualify x).active = s.active ∧ (s.unqualify x).fld (qcountFld x) 0 = 0 := by
  obtain rfl | rfl : x = 0 ∨ x = 1 := by omega
  all_goals
    simp [State.unqualify, State.qualified, State.active, qualFld, qcountFld, State.flag_eq, State.relockIdle]

@[simp] theorem State.unqualify_fld_ne (s : State) (x : Nat) (f : Fld) (i : Nat) (h : f.reg ≠ .CLK_SRC_STATUS)
    (h' : f.reg ≠ .TLK_STATUS) : (s.unqualify x).fld f i = s.fld f i := by
  simp [State.unqualify, State.relockIdle, qualFld_reg, qcountFld_reg, h, h']

@[simp] theorem State.unqualify_time (s : State) (x : Nat) : (s.unqualify x).time = s.time := by
  unfold State.unqualify; dsimp only; split <;> rfl

@[simp] theorem State.relockIdle_fld_ne (s : State) (f : Fld) (i : Nat) (h : f.reg ≠ .TLK_STATUS) :
    s.relockIdle.fld f i = s.fld f i := by
  simp [State.relockIdle, h]

@[simp] theorem State.relockIdle_time (s : State) : s.relockIdle.time = s.time := rfl

theorem State.prefs_of_fld (hp : t.fld Fld.CLK_SRC_CFG_PREF 0 = s.fld Fld.CLK_SRC_CFG_PREF 0)
    (he : t.fld Fld.TLK_CTRL_ENABLE 0 = s.fld Fld.TLK_CTRL_ENABLE 0) : t.prefs = s.prefs := by
  unfold State.prefs State.flag
  rw [hp, he]

theorem State.relockIdle_qualified (s : State) (x : Nat) : s.relockIdle.qualified x = s.qualified x := by
  unfold State.qualified State.flag
  rw [State.relockIdle_fld_ne]
  simp [qualFld_reg]

/-- Where the settings leave one source and the active one is the other, which they exclude: the device switches, or
coasts. -/
theorem State.prefChanged_excluded (s : State) {a : Nat} (ha : a < 2) (hact : s.active = a) (hp : s.prefs = [1 - a]) :
    s.prefChanged = if s.qualified (1 - a) then ((s.unqualify a).relockIdle).switchTo (1 - a)
      else (((s.unqualify a).relockIdle).toCoast true).raise0 1 := by
  have hout : ([0, 1].filter fun x => !s.prefs.contains x) = [a] := by
    obtain rfl | rfl : a = 0 ∨ a = 1 := by omega
    all_goals rw [hp]; decide
  have hprefs : ((s.unqualify a).relockIdle).prefs = [1 - a] := by
    rw [← hp]
    exact State.prefs_of_fld (by simp) (by simp)
  have hq : ((s.unqualify a).relockIdle).qualified (1 - a) = s.qualified (1 - a) := by
    rw [State.relockIdle_qualified, (s.unqualify_reads ha).2.1]
  unfold State.prefChanged
  simp only [hout, hact, List.contains_cons, beq_self_eq_true, Bool.true_or, if_true, List.foldl_cons,
    List.foldl_nil, hprefs, List.find?_cons, List.find?_nil, hq]
  cases s.qualified (1 - a) <;> rfl


/-- What that leaves. -/
theorem State.prefChanged_excluded_reads (s : State) {a : Nat} (ha : a < 2) (hact : s.active = a)
    (hp : s.prefs = [1 - a]) :
    s.prefChanged.qualified a = false ∧ s.prefChanged.flag Fld.PLL_JPLL_STATUS_LOCK 0 = false ∧
      (s.qualified (1 - a) = true → s.prefChanged.active = 1 - a ∧
        (s.fld Fld.EVT_ROUTE_KIND 2 ≠ 1 → s.prefChanged.evtStatus 2 = true)) ∧
      (s.qualified (1 - a) = false → s.prefChanged.active = 2 ∧
        s.prefChanged.flag Fld.PLL_JPLL_STATUS_COAST 0 = true ∧
        (s.fld Fld.EVT_ROUTE_KIND 1 ≠ 1 → s.prefChanged.evtStatus 1 = true) ∧
        s.prefChanged.clk.noSrcFrom = some s.time) := by
  rw [State.prefChanged_excluded s ha hact hp]
  have hqa : ((s.unqualify a).relockIdle).qualified a = false := by
    rw [State.relockIdle_qualified, (s.unqualify_reads ha).1]
  by_cases hq : s.qualified (1 - a) = true
  · obtain ⟨hactive, hlock, -, hqual, hstat⟩ := State.switchTo_reads ((s.unqualify a).relockIdle) (x := 1 - a) (by omega)
    rw [if_pos hq]
    refine ⟨by rw [hqual, hqa], by rw [State.flag, hlock]; rfl, fun _ => ⟨hactive, fun hk => hstat ?_⟩, fun h => ?_⟩
    · simpa using hk
    · rw [hq] at h; cases h
  · obtain ⟨hactive, hlock, hcoast, -, hqual, hfrom⟩ := State.toCoast_reads ((s.unqualify a).relockIdle) true
    have hfld : ∀ f i, eventReg f.reg = false → ((((s.unqualify a).relockIdle).toCoast true).raise0 1).fld f i =
        (((s.unqualify a).relockIdle).toCoast true).fld f i := fun f i he => State.raise0_fld_of _ _ _ _ he
    rw [if_neg hq]
    refine ⟨?_, ?_, fun h => absurd h hq, fun _ => ⟨?_, ?_, fun hk => State.raise0_hubSource rfl ?_, ?_⟩⟩
    · rw [State.qualified, State.flag, hfld _ _ (by simp [qualFld_reg])]
      exact (hqual a).trans hqa
    · rw [State.flag, hfld _ _ rfl, hlock]; rfl
    · rw [State.active, hfld _ _ rfl]; exact hactive
    · rw [State.flag, hfld _ _ rfl, hcoast]; rfl
    · simpa [State.toCoast, State.setActive] using hk
    · rw [show ∀ x : State, (x.raise0 1).clk = x.clk from fun x => State.raise_clk x 1 1 0, hfrom rfl]
      simp

/-- The device stays on its source while REVERT is 0. -/
theorem State.choose_of_no_revert (s : State) (hact : s.active ≠ 2)
    (hrev : s.flag Fld.CLK_SRC_CFG_REVERT 0 = false) : s.choose = s := by
  have hnone : s.chosen = none := by
    unfold State.chosen
    rw [if_neg hact, hrev]
    cases s.prefs <;> simp
  rw [State.choose, hnone]

/-- Where REFIN is active and stays allowed, with REVERT 0, at most LINK loses its qualification. -/
theorem State.prefChanged_refin (s : State) (hact : s.active = 1) (hrev : s.flag Fld.CLK_SRC_CFG_REVERT 0 = false)
    (hp : s.prefs.contains 1 = true) :
    s.prefChanged = if s.prefs.contains 0 then s else s.unqualify 0 := by
  unfold State.prefChanged
  by_cases h0 : s.prefs.contains 0 = true
  · have hout : ([0, 1].filter fun x => !s.prefs.contains x) = [] := by
      simp only [List.filter_cons, hp, h0, Bool.not_true, Bool.false_eq_true, if_false, List.filter_nil]
    rw [hout, if_pos h0]
    exact State.choose_of_no_revert s (by omega) hrev
  · have hout : ([0, 1].filter fun x => !s.prefs.contains x) = [0] := by
      simp only [List.filter_cons, hp, h0, Bool.not_true, Bool.not_false, Bool.false_eq_true, if_false, if_true,
        List.filter_nil]
    rw [hout, if_neg h0]
    simp only [hact]
    rw [if_neg (by decide)]
    exact State.choose_of_no_revert _ (by
      rw [List.foldl_cons, List.foldl_nil, (s.unqualify_reads (x := 0) (by decide)).2.2.1]; omega) (by
      simpa [State.flag_eq] using hrev)

theorem State.prefChanged_only (s : State) {a : Nat} (ha : a < 2) (hact : s.active = a) (hp : s.prefs = [1 - a])
    (h1 : s.qualified (1 - a) = false → 1 ∈ srcs) (h2 : 2 ∈ srcs) (h64 : 64 ∈ srcs) (hb : sourceRegs ⊆ but) :
    onlyRaising s s.prefChanged but srcs := by
  have hc : ⟨.CLK_SRC_STATUS, 0⟩ ∈ but := hb (by simp [sourceRegs])
  have hj : ⟨.PLL_JPLL_STATUS, 0⟩ ∈ but := hb (by simp [sourceRegs])
  have hk : ⟨.TLK_STATUS, 0⟩ ∈ but := hb (by simp [sourceRegs])
  have h0 := State.relockIdle_only hk (.step (s.unqualify_regs a) (by simp [hc, hk]) rfl (.refl s but srcs))
  rw [State.prefChanged_excluded s ha hact hp]
  split
  · exact State.switchTo_only h2 h64 hc hj hk h0
  · next hq => exact .raise0 (h1 (Bool.not_eq_true _ ▸ hq)) (State.toCoast_only h64 hc hj h0)

theorem State.prefs_eq_refin (hp : s.fld Fld.CLK_SRC_CFG_PREF 0 = 3) : s.prefs = [1] := by
  rw [State.prefs, hp]
  rfl

/-- Without LINK enabled, every order that names REFIN is REFIN alone. -/
theorem State.prefs_without_link (hp : s.fld Fld.CLK_SRC_CFG_PREF 0 ≠ 2) (he : s.flag Fld.TLK_CTRL_ENABLE 0 = false) :
    s.prefs = [1] := by
  have hlt : s.fld Fld.CLK_SRC_CFG_PREF 0 < 4 := s.fld_lt _ _
  rw [State.prefs, he]
  obtain h | h | h : s.fld Fld.CLK_SRC_CFG_PREF 0 = 0 ∨ s.fld Fld.CLK_SRC_CFG_PREF 0 = 1 ∨
      s.fld Fld.CLK_SRC_CFG_PREF 0 = 3 := by omega
  all_goals rw [h]; rfl

theorem State.prefs_contains_refin (hp : s.fld Fld.CLK_SRC_CFG_PREF 0 ≠ 2) : s.prefs.contains 1 = true := by
  have hlt : s.fld Fld.CLK_SRC_CFG_PREF 0 < 4 := s.fld_lt _ _
  unfold State.prefs
  obtain h | h | h : s.fld Fld.CLK_SRC_CFG_PREF 0 = 0 ∨ s.fld Fld.CLK_SRC_CFG_PREF 0 = 1 ∨
      s.fld Fld.CLK_SRC_CFG_PREF 0 = 3 := by omega
  all_goals
    rw [h]
    cases s.flag Fld.TLK_CTRL_ENABLE 0 <;> rfl

/-! ### The writes -/

/-- The settings that a write of CLK_SRC_CFG stores. -/
theorem State.writeSrcCfg_pref (s : State) (v : Word) :
    (s.writeRW .CLK_SRC_CFG 0 v).fld Fld.CLK_SRC_CFG_PREF 0 = getBits v 0 2 :=
  s.fld_writeRW Fld.CLK_SRC_CFG_PREF 0 v (by decide)

theorem State.writeSrcCfg_revert (s : State) (v : Word) :
    (s.writeRW .CLK_SRC_CFG 0 v).flag Fld.CLK_SRC_CFG_REVERT 0 = v.getLsbD 2 := by
  rw [State.flag, s.fld_writeRW Fld.CLK_SRC_CFG_REVERT 0 v (by decide)]
  exact getBits_one v 2

theorem State.writeRW_regs (s : State) (n : RegName) (i : Nat) (v : Word) : onlyRegs s (s.writeRW n i v) [⟨n, i⟩] :=
  .setReg (List.mem_singleton_self _) (.refl s _)

/-- The outcome of a write that leaves settings `w`, which exclude the active source `a` (R84). -/
theorem State.done_prefChanged {w : State} {x : Tu} {b : List Reg} {a : Nat} (hb : noEventReg b = true)
    (hw : onlyRegs (s.at x) w b) (ha : a < 2) (hact : w.active = a) (hp : w.prefs = [1 - a])
    (h1 : w.qualified (1 - a) = false → 1 ∈ srcs) (h2 : 2 ∈ srcs) (h64 : 64 ∈ srcs) :
    ∃ u, s.done w.prefChanged = .next u ∧ onlyRaising s u (b ++ sourceRegs) srcs ∧ u.qualified a = false ∧
      (∀ f i, (⟨f.reg, i⟩ : Reg) ∉ sourceRegs → eventReg f.reg = false → u.fld f i = w.fld f i) ∧
      u.flag Fld.PLL_JPLL_STATUS_LOCK 0 = false ∧
      (w.qualified (1 - a) = true → u.active = 1 - a ∧ (w.fld Fld.EVT_ROUTE_KIND 2 ≠ 1 → u.evtStatus 2 = true)) ∧
      (w.qualified (1 - a) = false → u.active = 2 ∧ u.flag Fld.PLL_JPLL_STATUS_COAST 0 = true ∧
        (w.fld Fld.EVT_ROUTE_KIND 1 ≠ 1 → u.evtStatus 1 = true) ∧ u.clk.noSrcFrom = some w.time) := by
  have hone := w.prefChanged_only (but := sourceRegs) ha hact hp h1 h2 h64 fun _ h => h
  obtain ⟨hqa, hlock, hsw, hco⟩ := w.prefChanged_excluded_reads ha hact hp
  have hall : onlyRaising (s.at x) w.prefChanged (b ++ sourceRegs) srcs :=
    .and_then hone (List.subset_append_right _ _) (fun _ h => h)
      (.step hw (List.subset_append_left _ _) hb (.refl _ _ _))
  obtain ⟨u, hu, hr, ho⟩ := s.done_onlyRaising hall
  have hf : ∀ f i, eventReg f.reg = false → u.fld f i = w.prefChanged.fld f i := hr.fld
  refine ⟨u, hu, ho, ?_, fun f i hn he => (hf f i he).trans (hone.fld hn he), ?_, fun h => ?_, fun h => ?_⟩
  · rw [State.qualified, State.flag, hf _ _ (by simp [qualFld_reg])]
    exact hqa
  · rw [State.flag, hf _ _ rfl]
    exact hlock
  · obtain ⟨hactive, hstat⟩ := hsw h
    exact ⟨by rw [State.active, hf _ _ rfl]; exact hactive, fun hk => by rw [hr.evtStatus (by decide)]; exact hstat hk⟩
  · obtain ⟨hactive, hcoast, hstat, hfrom⟩ := hco h
    exact ⟨by rw [State.active, hf _ _ rfl]; exact hactive, by rw [State.flag, hf _ _ rfl]; exact hcoast,
      fun hk => by rw [hr.evtStatus (by decide)]; exact hstat hk, by rw [hr.clk, hfrom]⟩

/-- Settings that exclude LINK while it is active (R84). -/
theorem clkSrcCfgWrite_excludes_link (t : Tu) (v : Word) (hup : s.hostUp = true)
    (hk1 : s.fld Fld.EVT_ROUTE_KIND 1 ≠ 1) (hk2 : s.fld Fld.EVT_ROUTE_KIND 2 ≠ 1) (hact : s.active = 0)
    (hv : getBits v 0 2 = 3) :
    ∃ u, exec (.clkSrcCfgWrite t v) s = .next u ∧ u.fld Fld.CLK_SRC_CFG_PREF 0 = 3 ∧
        u.flag Fld.CLK_SRC_CFG_REVERT 0 = v.getLsbD 2 ∧ u.qualified 0 = false ∧
        (s.qualified 1 = true → u.active = 1 ∧ u.evtStatus 2 = true) ∧
        (s.qualified 1 = false → u.active = 2 ∧ u.flag Fld.PLL_JPLL_STATUS_COAST 0 = true ∧ u.evtStatus 1 = true ∧
          u.clk.noSrcFrom = some (s.at t).time) ∧
        u.flag Fld.PLL_JPLL_STATUS_LOCK 0 = false ∧ onlyRaising s u (⟨.CLK_SRC_CFG, 0⟩ :: sourceRegs) [1, 2, 64] := by
  have hpref := State.writeSrcCfg_pref (s.at t) v
  have hrev := State.writeSrcCfg_revert (s.at t) v
  have hw1 : ((s.at t).writeRW .CLK_SRC_CFG 0 v).qualified 1 = s.qualified 1 := by
    simp [State.qualified, State.flag, qualFld]
  obtain ⟨u, hu, ho, hq0, hf, hlock, hsw, hco⟩ := State.done_prefChanged (srcs := [1, 2, 64]) (a := 0) rfl
    (State.writeRW_regs (s.at t) .CLK_SRC_CFG 0 v) (by decide) (by simpa [State.active] using hact)
    (State.prefs_eq_refin (hpref.trans hv)) (by simp) (by simp) (by simp)
  refine ⟨u, by rw [exec, execClkSrcCfgWrite, State.whenHost_eq hup, hu], ?_, ?_, hq0, fun h => ?_, fun h => ?_, hlock, ho⟩
  · rw [hf _ _ (by decide) rfl, hpref, hv]
  · rw [State.flag, hf _ _ (by decide) rfl]
    exact hrev
  · obtain ⟨hactive, hstat⟩ := hsw (hw1.trans h)
    exact ⟨hactive, hstat (by simpa using hk2)⟩
  · obtain ⟨hactive, hcoast, hstat, hfrom⟩ := hco (hw1.trans h)
    exact ⟨hactive, hcoast, hstat (by simpa using hk1), hfrom⟩

/-- REFIN stays active where the new settings allow it and REVERT is 0 (R84). -/
theorem State.prefChanged_refin_reads (s : State) (hact : s.active = 1)
    (hrev : s.flag Fld.CLK_SRC_CFG_REVERT 0 = false) (hp : s.prefs.contains 1 = true) :
    s.prefChanged.active = 1 ∧ s.prefChanged.qualified 1 = s.qualified 1 ∧
      onlyRegs s s.prefChanged [⟨.CLK_SRC_STATUS, 0⟩, ⟨.TLK_STATUS, 0⟩] := by
  rw [State.prefChanged_refin s hact hrev hp]
  split
  · exact ⟨hact, rfl, .refl _ _⟩
  · obtain ⟨-, hq1, hactive, -⟩ := s.unqualify_reads (x := 0) (by decide)
    exact ⟨hactive.trans hact, hq1, s.unqualify_regs 0⟩

theorem clkSrcCfgWrite_keeps_refin (t : Tu) (v : Word) (hup : s.hostUp = true) (hact : s.active = 1)
    (hv : getBits v 0 2 = 1 ∨ getBits v 0 2 = 3) (hv2 : v.getLsbD 2 = false) :
    ∃ u, exec (.clkSrcCfgWrite t v) s = .next u ∧ u.fld Fld.CLK_SRC_CFG_PREF 0 = getBits v 0 2 ∧
        u.flag Fld.CLK_SRC_CFG_REVERT 0 = false ∧ u.active = 1 ∧ u.qualified 1 = s.qualified 1 ∧
        onlyRegs s u (⟨.CLK_SRC_CFG, 0⟩ :: sourceRegs) := by
  have hpref := State.writeSrcCfg_pref (s.at t) v
  have hrev := (State.writeSrcCfg_revert (s.at t) v).trans hv2
  obtain ⟨hactive, hq1, hregs⟩ := State.prefChanged_refin_reads ((s.at t).writeRW .CLK_SRC_CFG 0 v)
    (by simpa [State.active] using hact) hrev (State.prefs_contains_refin (by rw [hpref]; omega))
  obtain ⟨hdone, honly⟩ := s.done_onlyRegs (x := t) (but := ⟨.CLK_SRC_CFG, 0⟩ :: sourceRegs)
    (.step hregs (by decide) (.step (State.writeRW_regs _ _ _ v) (by simp) (.refl _ _))) rfl
  have hf : ∀ f i, (⟨f.reg, i⟩ : Reg) ∉ [(⟨.CLK_SRC_STATUS, 0⟩ : Reg), ⟨.TLK_STATUS, 0⟩] →
    ((s.at t).writeRW .CLK_SRC_CFG 0 v).prefChanged.fld f i = ((s.at t).writeRW .CLK_SRC_CFG 0 v).fld f i :=
    fun f i h => State.fld_of_reg (hregs.1 _ _ h)
  refine ⟨_, by rw [exec, execClkSrcCfgWrite, State.whenHost_eq hup, hdone], ?_, ?_, hactive, hq1.trans ?_, honly⟩
  · rw [hf _ _ (by decide), hpref]
  · rw [State.flag, hf _ _ (by decide)]
    exact hrev
  · simp [State.qualified, State.flag, qualFld]

/-- LINK is disabled while it is active (R84). -/
theorem tlkEnableWrite_excludes_link (t : Tu) (hup : s.hostUp = true) (hk2 : s.fld Fld.EVT_ROUTE_KIND 2 ≠ 1)
    (hen : s.flag Fld.TLK_CTRL_ENABLE 0 = true) (hact : s.active = 0) (hp : s.fld Fld.CLK_SRC_CFG_PREF 0 ≠ 2)
    (hq : s.qualified 1 = true) :
    ∃ u, exec (.tlkEnableWrite t false) s = .next u ∧ u.flag Fld.TLK_CTRL_ENABLE 0 = false ∧ u.active = 1 ∧
        u.qualified 0 = false ∧ u.evtStatus 2 = true ∧
        onlyRaising s u (⟨.TLK_CTRL, 0⟩ :: sourceRegs) [2, 64] := by
  have hwrite : (s.at t).writeTlkEnable false = ((s.at t).setFld Fld.TLK_CTRL_ENABLE 0 0).prefChanged := by
    simp [State.writeTlkEnable, hen]
  have hw0 : ((s.at t).setFld Fld.TLK_CTRL_ENABLE 0 0).flag Fld.TLK_CTRL_ENABLE 0 = false := by simp [State.flag]
  have hw1 : ((s.at t).setFld Fld.TLK_CTRL_ENABLE 0 0).qualified 1 = true := by
    simpa [State.qualified, State.flag, qualFld] using hq
  obtain ⟨u, hu, ho, hq0, hf, -, hsw, -⟩ := State.done_prefChanged (srcs := [2, 64]) (a := 0) (x := t)
    (b := [⟨.TLK_CTRL, 0⟩]) rfl (.setFld (f := Fld.TLK_CTRL_ENABLE) (x := 0) (by simp) (.refl (s.at t) _)) (by decide)
    (by simpa [State.active] using hact) (State.prefs_without_link (by simpa using hp) hw0)
    (fun h => by rw [hw1] at h; cases h) (by simp) (by simp)
  obtain ⟨hactive, hstat⟩ := hsw hw1
  refine ⟨u, by rw [exec, execTlkEnableWrite, State.whenHost_eq hup, hwrite, hu], ?_, hactive, hq0,
    hstat (by simpa using hk2), ho⟩
  rw [State.flag, hf _ _ (by decide) rfl]
  exact hw0

/-- LINK is enabled while REFIN is active and REVERT is 0 (R84, R427). -/
theorem tlkEnableWrite_keeps_refin (t : Tu) (hup : s.hostUp = true) (hen : s.flag Fld.TLK_CTRL_ENABLE 0 = false)
    (hact : s.active = 1) (hrev : s.flag Fld.CLK_SRC_CFG_REVERT 0 = false) (hp : s.fld Fld.CLK_SRC_CFG_PREF 0 ≠ 2) :
    ∃ u, exec (.tlkEnableWrite t true) s = .next u ∧ u.flag Fld.TLK_CTRL_ENABLE 0 = true ∧ u.active = 1 ∧
        u.reg .HUB_LINK_DIAG 0 = 0 ∧
        onlyRegs s u (⟨.TLK_CTRL, 0⟩ :: ⟨.HUB_LINK_DIAG, 0⟩ :: ⟨.HUB_LINK_CHK, 0⟩ :: sourceRegs) := by
  have hwrite : (s.at t).writeTlkEnable true =
      (((s.at t).setFld Fld.TLK_CTRL_ENABLE 0 1).prefChanged.setReg .HUB_LINK_DIAG 0 0).setFld
        Fld.HUB_LINK_CHK_LOCK 0 0 := by
    simp [State.writeTlkEnable, hen, State.diagClear]
  obtain ⟨hactive, -, hregs⟩ := State.prefChanged_refin_reads ((s.at t).setFld Fld.TLK_CTRL_ENABLE 0 1)
    (by simpa [State.active] using hact) (by simpa [State.flag] using hrev)
    (State.prefs_contains_refin (by simpa using hp))
  obtain ⟨hdone, honly⟩ := s.done_onlyRegs (x := t)
    (but := ⟨.TLK_CTRL, 0⟩ :: ⟨.HUB_LINK_DIAG, 0⟩ :: ⟨.HUB_LINK_CHK, 0⟩ :: sourceRegs)
    (.setFld (f := Fld.HUB_LINK_CHK_LOCK) (i := 0) (x := 0) (by simp) (.setReg (n := .HUB_LINK_DIAG) (i := 0) (v := 0)
      (by simp) (.step hregs (by decide)
        (.setFld (f := Fld.TLK_CTRL_ENABLE) (i := 0) (x := 1) (by simp) (.refl (s.at t) _))))) rfl
  refine ⟨_, by rw [exec, execTlkEnableWrite, State.whenHost_eq hup, hwrite, hdone], ?_, ?_, ?_, honly⟩
  · have h : ((s.at t).setFld Fld.TLK_CTRL_ENABLE 0 1).prefChanged.fld Fld.TLK_CTRL_ENABLE 0 = 1 := by
      rw [State.fld_of_reg (hregs.1 _ _ (by decide))]
      simp
    simp [State.flag, h]
  · simpa [State.active] using hactive
  · simp

/-- Settles O15, write by write. -/
theorem sourceSettingsAct : Obligations.SourceSettingsAct := by
  intro s t hup hk1 hk2
  exact ⟨fun v hact hv => clkSrcCfgWrite_excludes_link t v hup hk1 hk2 hact hv,
    fun v hact hv hv2 => clkSrcCfgWrite_keeps_refin t v hup hact hv hv2,
    fun hen hact hp hq => tlkEnableWrite_excludes_link t hup hk2 hen hact hp hq,
    fun hen hact hrev hp => tlkEnableWrite_keeps_refin t hup hen hact hrev hp⟩

end Sys2Proof.Machine
end

section
/-! SUPPORT. The monitors of the reference sources (R94 to R97): qualification intervals, the trip of the active source,
and the end of the span without a source. -/

namespace Sys2Proof.Machine

variable {s t u : State} {but : List Reg} {srcs : List Nat}

/-! ### The trip -/

/-- The device coasts, without a HOLD: it switches to the only source that may be qualified, if that is so and it is
allowed. -/
theorem State.choose_of_coast (s : State) {y : Nat} (hy : y < 2) (hact : s.active = 2) (hrel : s.relockState ≠ 2)
    (hq : s.qualified (1 - y) = false) :
    s.choose = if s.prefs.contains y = true ∧ s.qualified y = true then s.switchTo y else s := by
  have hsub : ∀ z ∈ s.prefs, z = 0 ∨ z = 1 := fun z hz => by
    have hz' := (List.mem_filter.1 hz).1
    unfold prefOrder at hz'
    split at hz' <;> [skip; split at hz' <;> [skip; split at hz']] <;> simp at hz' <;> omega
  have hchosen : s.chosen = if s.prefs.contains y = true ∧ s.qualified y = true then some y else none := by
    unfold State.chosen
    rw [if_pos hact]
    split
    · next x hx =>
      have hxq := List.find?_some hx
      have hxp := List.mem_of_find?_eq_some hx
      have hxy : x = y := by
        rcases hsub x hxp with rfl | rfl
        · by_contra hne
          rw [show (0 : Nat) = 1 - y by omega, hq] at hxq
          cases hxq
        · by_contra hne
          rw [show (1 : Nat) = 1 - y by omega, hq] at hxq
          cases hxq
      subst hxy
      rw [if_neg (fun h => hrel h.2), if_pos ⟨List.contains_iff_mem.2 hxp, hxq⟩]
    · next hx =>
      rw [if_neg]
      rintro ⟨hc, hqy⟩
      exact absurd hqy (List.find?_eq_none.1 hx y (List.contains_iff_mem.1 hc))
  by_cases hc : s.prefs.contains y = true ∧ s.qualified y = true
  · rw [if_pos hc] at hchosen ⊢
    rw [State.choose, hchosen]
  · rw [if_neg hc] at hchosen ⊢
    rw [State.choose, hchosen]

@[simp] theorem State.toCoast_fld (s : State) (b : Bool) (f : Fld) (i : Nat) (h : f.reg ≠ .CLK_SRC_STATUS)
    (h' : f.reg ≠ .PLL_JPLL_STATUS) (he : eventReg f.reg = false) : (s.toCoast b).fld f i = s.fld f i := by
  simp [State.toCoast, State.setActive, h, h', he]

/-- What a trip does before the choice of the next source. -/
def State.tripped (s : State) : State :=
  ((((s.toCoast true).raise0 0).raise0 1).unqualify s.active).relockIdle

theorem State.trip_eq (s : State) (h : s.active < 2) : s.trip = s.tripped.choose := by
  rw [State.trip, if_neg (by omega)]
  rfl

theorem State.tripped_reads (s : State) (h : s.active < 2) :
    s.tripped.qualified s.active = false ∧ s.tripped.qualified (1 - s.active) = s.qualified (1 - s.active) ∧
      s.tripped.active = 2 ∧ s.tripped.relockState = 0 ∧ s.tripped.prefs = s.prefs ∧
      s.tripped.fld Fld.PLL_JPLL_STATUS_LOCK 0 = 0 ∧ s.tripped.clk.noSrcFrom = some s.time := by
  obtain ⟨hco, hlock, -, -, hqual, hfrom⟩ := s.toCoast_reads true
  have hf : ∀ f i, eventReg f.reg = false →
      (((s.toCoast true).raise0 0).raise0 1).fld f i = (s.toCoast true).fld f i := fun f i he => by
    rw [State.raise0_fld_of _ _ _ _ he, State.raise0_fld_of _ _ _ _ he]
  obtain ⟨hq, hq', hact, -⟩ := State.unqualify_reads (((s.toCoast true).raise0 0).raise0 1) h
  have hqf : ∀ x, (((s.toCoast true).raise0 0).raise0 1).qualified x = s.qualified x := fun x => by
    rw [← hqual x, State.qualified, State.qualified, State.flag, State.flag, hf _ _ (by simp [qualFld_reg])]
  refine ⟨?_, ?_, ?_, ?_, State.prefs_of_fld ?_ ?_, ?_, ?_⟩
  · rw [State.tripped, State.relockIdle_qualified, hq]
  · rw [State.tripped, State.relockIdle_qualified, hq', hqf]
  · rw [State.tripped, State.active, State.relockIdle_fld_ne _ _ _ (by simp)]
    exact hact.trans ((hf _ _ rfl).trans hco)
  · simp [State.tripped, State.relockState, State.relockIdle]
  · simp [State.tripped]
  · simp [State.tripped]
  · rw [State.tripped, State.relockIdle_fld_ne _ _ _ (by simp), State.unqualify_fld_ne _ _ _ _ (by simp) (by simp),
      hf _ _ rfl, hlock]
  · have hclk : ∀ (x : State) (y : Nat), (x.unqualify y).relockIdle.clk = x.clk := fun x y => by
      unfold State.unqualify; dsimp only; split <;> rfl
    rw [State.tripped, hclk]
    simpa [State.raise0] using hfrom rfl

theorem State.tripped_evtStatus (s : State) (k : Nat) (h0 : k ≠ 0) (h1 : k ≠ 1) (h64 : k ≠ 64) :
    s.tripped.evtStatus k = s.evtStatus k := by
  simp [State.tripped, State.relockIdle, State.unqualify, qualFld_reg, qcountFld_reg, h0, h1, h64, State.toCoast,
    State.setActive]

theorem State.tripped_raises (s : State) :
    (s.fld Fld.EVT_ROUTE_KIND 0 ≠ 1 → s.tripped.evtStatus 0 = true) ∧
      (s.fld Fld.EVT_ROUTE_KIND 1 ≠ 1 → s.tripped.evtStatus 1 = true) := by
  have h : ∀ k, s.tripped.evtStatus k = (((s.toCoast true).raise0 0).raise0 1).evtStatus k := fun k => by
    simp [State.tripped, State.relockIdle, State.unqualify, qualFld_reg, qcountFld_reg]
  constructor
  · intro hk
    rw [h, State.evtStatus_raise0_ne _ _ _ (by decide)]
    exact State.raise0_hubSource rfl (by simpa using hk)
  · intro hk
    rw [h]
    exact State.raise0_hubSource rfl (by simpa using hk)

theorem State.tripped_only (s : State) (h0 : 0 ∈ srcs) (h1 : 1 ∈ srcs) (h64 : 64 ∈ srcs) (hb : sourceRegs ⊆ but) :
    onlyRaising s s.tripped but srcs := by
  have hc : ⟨.CLK_SRC_STATUS, 0⟩ ∈ but := hb (by simp [sourceRegs])
  have hj : ⟨.PLL_JPLL_STATUS, 0⟩ ∈ but := hb (by simp [sourceRegs])
  have hk : ⟨.TLK_STATUS, 0⟩ ∈ but := hb (by simp [sourceRegs])
  exact State.relockIdle_only hk (.step (State.unqualify_regs _ _) (by simp [hc, hk]) rfl
    (.raise0 h1 (.raise0 h0 (State.toCoast_only h64 hc hj (.refl s but srcs)))))

/-- What a trip of the active source leaves (R96, R97, R102). -/
theorem State.trip_reads (s : State) (h : s.active < 2) :
    s.trip.qualified s.active = false ∧ s.trip.fld Fld.PLL_JPLL_STATUS_LOCK 0 = 0 ∧
      (s.prefs.contains (1 - s.active) = true ∧ s.qualified (1 - s.active) = true → s.trip.active = 1 - s.active) ∧
      (s.prefs.contains (1 - s.active) = false ∨ s.qualified (1 - s.active) = false →
        s.trip.active = 2 ∧ s.trip.clk.noSrcFrom = some s.time) ∧
      (s.fld Fld.EVT_ROUTE_KIND 0 ≠ 1 → s.trip.evtStatus 0 = true) ∧
      (s.fld Fld.EVT_ROUTE_KIND 1 ≠ 1 → s.trip.evtStatus 1 = true) := by
  obtain ⟨hq, hq', hact, hrel, hprefs, hlock, hfrom⟩ := s.tripped_reads h
  obtain ⟨hs0, hs1⟩ := s.tripped_raises
  have hy : 1 - s.active < 2 := by omega
  have hyy : 1 - (1 - s.active) = s.active := by omega
  rw [s.trip_eq h, s.tripped.choose_of_coast hy hact (by omega) (by rw [hyy]; exact hq), hprefs, hq']
  split
  · next hc =>
    obtain ⟨hactive, hlock', -, hqual, -⟩ := s.tripped.switchTo_reads hy
    have hst : ∀ k, k ≠ 2 → k ≠ 64 → (s.tripped.switchTo (1 - s.active)).evtStatus k = s.tripped.evtStatus k :=
      fun k h2 h64 => by simp [State.switchTo, State.setActive, State.relockIdle, h2, h64]
    refine ⟨by rw [hqual, hq], hlock', fun _ => hactive, fun hn => ?_, fun hk => ?_, fun hk => ?_⟩
    · rcases hn with hn | hn
      · rw [hc.1] at hn; cases hn
      · rw [hc.2] at hn; cases hn
    · rw [hst _ (by decide) (by decide)]; exact hs0 hk
    · rw [hst _ (by decide) (by decide)]; exact hs1 hk
  · next hc => exact ⟨hq, hlock, fun hp => absurd hp hc, fun _ => ⟨hact, hfrom⟩, hs0, hs1⟩

theorem State.trip_only (s : State) (h : s.active < 2) (h0 : 0 ∈ srcs) (h1 : 1 ∈ srcs) (h2 : 2 ∈ srcs)
    (h64 : 64 ∈ srcs) (hb : sourceRegs ⊆ but) : onlyRaising s s.trip but srcs := by
  obtain ⟨hq, -, hact, hrel, -⟩ := s.tripped_reads h
  have hyy : 1 - (1 - s.active) = s.active := by omega
  have ht := s.tripped_only (but := but) h0 h1 h64 hb
  rw [s.trip_eq h, s.tripped.choose_of_coast (y := 1 - s.active) (by omega) hact (by omega) (by rw [hyy]; exact hq)]
  exact .ite (State.switchTo_only h2 h64 (hb (by simp [sourceRegs])) (hb (by simp [sourceRegs]))
    (hb (by simp [sourceRegs])) ht) ht

/-- The outcome of a trip of the active source, after a change `w` of registers that do not choose the source. -/
theorem State.done_trip {w : State} {x : Tu} {b : List Reg} (hb : noEventReg b = true) (hw : onlyRegs (s.at x) w b)
    (hn : ∀ r ∈ b, r.n ≠ .CLK_SRC_STATUS ∧ r.n ≠ .CLK_SRC_CFG ∧ r.n ≠ .TLK_CTRL ∧ r.n ≠ .EVT_ROUTE)
    (ht : w.time = (s.at x).time) (hact : s.active < 2) :
    ∃ u, s.done w.trip = .next u ∧ onlyRaising s u (b ++ sourceRegs) [0, 1, 2, 64] ∧ Raises w.trip u noteSrcs ∧
      u.qualified s.active = false ∧
      (s.prefs.contains (1 - s.active) = true ∧ s.qualified (1 - s.active) = true → u.active = 1 - s.active) ∧
      (s.prefs.contains (1 - s.active) = false ∨ s.qualified (1 - s.active) = false →
        u.active = 2 ∧ u.clk.noSrcFrom = some (s.at x).time) ∧
      (s.fld Fld.EVT_ROUTE_KIND 0 ≠ 1 → u.evtStatus 0 = true) ∧
      (s.fld Fld.EVT_ROUTE_KIND 1 ≠ 1 → u.evtStatus 1 = true) ∧ u.flag Fld.PLL_JPLL_STATUS_LOCK 0 = false := by
  have hf : ∀ f i, f.reg = .CLK_SRC_STATUS ∨ f.reg = .CLK_SRC_CFG ∨ f.reg = .TLK_CTRL ∨ f.reg = .EVT_ROUTE →
      w.fld f i = s.fld f i := fun f i h => by
    refine (State.fld_of_reg (hw.1 _ _ fun hm => ?_)).trans (State.at_fld _ _ _ _)
    obtain ⟨h1, h2, h3, h4⟩ := hn _ hm
    rcases h with h | h | h | h <;> contradiction
  have hwact : w.active = s.active := hf _ _ (by simp)
  have hwq : ∀ x, w.qualified x = s.qualified x := fun x => by
    rw [State.qualified, State.qualified, State.flag, State.flag, hf _ _ (.inl (qualFld_reg x))]
  have hwp : w.prefs = s.prefs := State.prefs_of_fld (hf _ _ (by simp)) (hf _ _ (by simp))
  obtain ⟨hq, hlock, hsw, hco, h0, h1⟩ := w.trip_reads (by rw [hwact]; exact hact)
  have hone := w.trip_only (but := sourceRegs) (srcs := [0, 1, 2, 64]) (by rw [hwact]; exact hact) (by simp) (by simp)
    (by simp) (by simp) fun _ h => h
  rw [hwact, hwq, hwp] at hsw hco
  rw [hwact] at hq
  obtain ⟨u, hu, hr, ho⟩ := s.done_onlyRaising (x := x) (.and_then hone (List.subset_append_right b _) (fun _ h => h)
    (.step hw (List.subset_append_left _ _) hb (.refl _ _ _)))
  have huf : ∀ f i, eventReg f.reg = false → u.fld f i = w.trip.fld f i := hr.fld
  refine ⟨u, hu, ho, hr, ?_, fun h => ?_, fun h => ?_, fun h => ?_, fun h => ?_, ?_⟩
  · rw [State.qualified, State.flag, huf _ _ (by simp [qualFld_reg])]
    exact hq
  · rw [State.active, huf _ _ rfl]
    exact hsw h
  · obtain ⟨ha2, hfrom⟩ := hco h
    exact ⟨by rw [State.active, huf _ _ rfl]; exact ha2, by rw [hr.clk, hfrom, ht]⟩
  · rw [hr.evtStatus (by decide)]
    exact h0 (by rw [hf _ _ (by simp)]; exact h)
  · rw [hr.evtStatus (by decide)]
    exact h1 (by rw [hf _ _ (by simp)]; exact h)
  · rw [State.flag, huf _ _ rfl, hlock]
    rfl

/-- CLK_SRC_TRIP (R96): the trip, after the deviation that trips is shown, if it is one. -/
theorem execClkSrcTrip_eq (t : Tu) (cause : TripCause) (ha : s.alive = true) (hst : s.standby = false)
    (hact : s.active < 2) (hc : (s.at t).tripHolds cause = true) :
    ∃ w, exec (.clkSrcTrip t cause) s = s.done w.trip ∧ onlyRegs (s.at t) w [⟨.CLK_FREQ_DEV, 0⟩] ∧
      w.time = (s.at t).time := by
  have hcond : (s.at t).active ≠ 2 ∧ (!(s.at t).standby) = true ∧ (s.at t).tripHolds cause = true := by
    refine ⟨?_, by simp [hst], hc⟩
    rw [State.active, State.at_fld]
    exact Nat.ne_of_lt hact
  rw [exec, execClkSrcTrip, State.when_eq ha, if_pos hcond]
  cases cause
  case ppm dev => exact ⟨_, rfl, .setFld (by simp [devFld_reg]) (.refl _ _), rfl⟩
  all_goals exact ⟨_, rfl, .refl _ _, rfl⟩

/-- CLK_NO_SOURCE (R97). -/
theorem clkNoSource_shows (t : Tu) (ha : s.alive = true) (hst : s.standby = false) {t0 : Tu}
    (hfrom : s.clk.noSrcFrom = some t0) (hact : s.active = 2)
    (hdue : tuLe (tuAdd t0 (ns (1000000 * max 1 (s.fld Fld.CLK_QUAL_TIMEOUT 0)))) (s.at t).time = true) :
    ∃ u, exec (.clkNoSource t) s = .next u ∧ u.fld Fld.CLK_SRC_STATUS_NO_SOURCE 0 = 1 ∧
        (s.fld Fld.EVT_ROUTE_KIND 4 ≠ 1 → u.evtStatus 4 = true) ∧ onlyRaising s u [⟨.CLK_SRC_STATUS, 0⟩] [4] := by
  have hexec : exec (.clkNoSource t) s = s.done (({ s.at t with
      clk := { (s.at t).clk with noSrcFrom := none } } : State).setFld Fld.CLK_SRC_STATUS_NO_SOURCE 0 1 |>.raise0 4) := by
    rw [exec, execClkNoSource, State.when_eq ha]
    simp only [State.at_clk, hfrom]
    rw [if_pos]
    simpa [State.active, hst, hdue] using hact
  obtain ⟨u, hu, hr, ho⟩ := s.done_onlyRaising (x := t) (but := [⟨.CLK_SRC_STATUS, 0⟩]) (srcs := [4])
    (.raise0 (k := 4) (by simp) (.setFld (f := Fld.CLK_SRC_STATUS_NO_SOURCE) (i := 0) (x := 1)
      (t := { s.at t with clk := { (s.at t).clk with noSrcFrom := none } }) (by simp) rfl
      (.of_eq rfl rfl (.refl (s.at t) _ _))))
  refine ⟨u, hexec.trans hu, ?_, fun hk => ?_, ho⟩
  · rw [hr.fld _ _ rfl]
    simp
  · rw [hr.evtStatus (by decide)]
    exact State.raise0_hubSource rfl (by simpa using hk)

/-! ### Qualification intervals -/

theorem State.qualSource_of_active (s : State) {y : Nat} (m : QualMeas) (h : s.active = y) :
    s.qualSource y m = if s.prefs.contains y then s.setFld (devFld y) 0 m.ppm.toNat else s := by
  have hact : (s.setFld (devFld y) 0 m.ppm.toNat).active = y := by
    rw [State.active, State.fld_setFld_ne _ _ _ _ _ _ (by simp [devFld_reg])]
    exact h
  unfold State.qualSource
  cases s.prefs.contains y <;> simp [h]

theorem State.qualSource_of_inactive (s : State) {x : Nat} (m : QualMeas) (h : s.active ≠ x)
    (hp : s.prefs.contains x = true) :
    s.qualSource x m = (s.setFld (devFld x) 0 m.ppm.toNat).qualOne x m := by
  unfold State.qualSource
  rw [hp]
  simp [h]

/-- A passing interval of source `x`. -/
def State.qualPasses (s : State) (x : Nat) (m : QualMeas) : Prop :=
  m.ppm.toInt.natAbs ≤ max 1 (s.fld Fld.CLK_QUAL_PPM 0) ∧ m.broken = false ∧
    (x = 0 → s.linkOk = true ∧ s.clk.linkBroke = false)

theorem State.qualOne_of_passes (s : State) {x : Nat} {m : QualMeas} (h : s.qualPasses x m) :
    s.qualOne x m = (s.setFld (qcountFld x) 0 (min 255 (s.fld (qcountFld x) 0 + 1))).setFld (qualFld x) 0
      (decide (max 1 (s.fld Fld.CLK_QUAL_COUNT 0) ≤ min 255 (s.fld (qcountFld x) 0 + 1))).toNat := by
  obtain ⟨hppm, hbroken, hlink⟩ := h
  have hlast : (x != 0 || (s.linkOk && !s.clk.linkBroke)) = true := by
    by_cases hx : x = 0
    · obtain ⟨hok, hbr⟩ := hlink hx
      rw [hok, hbr]; simp
    · simp [hx]
  rw [State.qualOne, decide_eq_true hppm, hbroken, hlast]
  rfl

theorem State.qualOne_of_fails (s : State) {x : Nat} {m : QualMeas} (h : ¬ s.qualPasses x m) :
    s.qualOne x m = s.unqualify x := by
  unfold State.qualOne
  rw [if_neg]
  intro hc
  simp only [Bool.and_eq_true, decide_eq_true_eq, Bool.not_eq_true', Bool.or_eq_true, bne_iff_ne] at hc
  exact h ⟨hc.1.1, hc.1.2, fun hx => hc.2.resolve_left fun hne => hne hx⟩

/-- A state that differs in CLK_FREQ_DEV alone. -/
def devOnly (s t : State) : Prop := onlyRegs s t [⟨.CLK_FREQ_DEV, 0⟩] ∧ t.clk = s.clk

theorem devOnly.fld {f : Fld} {i : Nat} (h : devOnly s t) (hf : f.reg ≠ .CLK_FREQ_DEV) : t.fld f i = s.fld f i :=
  State.fld_of_reg (h.1.1 _ _ (by simp [hf]))

theorem devOnly.qualified (h : devOnly s t) (x : Nat) : t.qualified x = s.qualified x := by
  rw [State.qualified, State.qualified, State.flag, State.flag, h.fld (by simp [qualFld_reg])]

theorem devOnly.setFld (s : State) (y v : Nat) : devOnly s (s.setFld (devFld y) 0 v) :=
  ⟨.setFld (by simp [devFld_reg]) (.refl _ _), rfl⟩

theorem devOnly.qualSource (s : State) {y : Nat} (m : QualMeas) (h : s.active = y) : devOnly s (s.qualSource y m) := by
  rw [s.qualSource_of_active m h]
  split
  · exact devOnly.setFld s y _
  · exact ⟨.refl _ _, rfl⟩

theorem State.qualOne_regs (s : State) (x : Nat) (m : QualMeas) :
    onlyRegs s (s.qualOne x m) [⟨.CLK_SRC_STATUS, 0⟩, ⟨.TLK_STATUS, 0⟩] := by
  by_cases h : s.qualPasses x m
  · rw [s.qualOne_of_passes h]
    refine .setFld ?_ (.setFld ?_ (.refl _ _)) <;> simp [qualFld_reg, qcountFld_reg]
  · rw [s.qualOne_of_fails h]
    exact s.unqualify_regs x

theorem State.qualOne_fld (s : State) (x : Nat) (m : QualMeas) (f : Fld) (i : Nat) (h : f.reg ≠ .CLK_SRC_STATUS)
    (h' : f.reg ≠ .TLK_STATUS) : (s.qualOne x m).fld f i = s.fld f i :=
  State.fld_of_reg ((s.qualOne_regs x m).1 _ _ (by simp [h, h']))

theorem State.qualOne_active (s : State) {x : Nat} (m : QualMeas) (hx : x < 2) :
    (s.qualOne x m).active = s.active := by
  by_cases h : s.qualPasses x m
  · rw [s.qualOne_of_passes h]
    obtain rfl | rfl : x = 0 ∨ x = 1 := by omega
    all_goals simp [State.active, qualFld, qcountFld]
  · rw [s.qualOne_of_fails h, (s.unqualify_reads hx).2.2.1]

/-- An interval at which the other source is active and within limits: source `x` alone is counted, in a state whose
deviations are those measured. -/
theorem State.qualInterval_eq (s : State) {x : Nat} (link refin : QualMeas) (hx : x < 2) (hact : s.active = 1 - x)
    (hp : s.prefs.contains x = true) (hmon : s.beyondMon (if x = 0 then refin else link).ppm = false)
    (hrev : s.flag Fld.CLK_SRC_CFG_REVERT 0 = false) :
    ∃ a, devOnly s a ∧ a.fld (devFld x) 0 = (if x = 0 then link else refin).ppm.toNat ∧
      devOnly (a.qualOne x (if x = 0 then link else refin)) (s.qualInterval link refin) ∧
      (s.qualInterval link refin).fld (devFld x) 0 = a.fld (devFld x) 0 := by
  have hstay : ∀ w : State, w.active = 1 - x → w.flag Fld.CLK_SRC_CFG_REVERT 0 = false → w.choose = w :=
    fun w hw hr => w.choose_of_no_revert (by omega) hr
  obtain rfl | rfl : x = 0 ∨ x = 1 := by omega
  · have h0 := s.qualSource_of_inactive link (by omega) hp
    have ha : devOnly s (s.setFld (devFld 0) 0 link.ppm.toNat) := devOnly.setFld s 0 _
    have hq1 : (s.qualSource 0 link).active = 1 := by
      rw [h0, State.qualOne_active _ _ hx]
      exact (ha.fld (by simp)).trans hact
    have hd := devOnly.qualSource (s.qualSource 0 link) refin hq1
    have hw : s.qualInterval link refin = (s.qualSource 0 link).qualSource 1 refin := by
      unfold State.qualInterval
      dsimp only
      rw [if_neg (by simpa [hact] using hmon)]
      refine hstay _ ((hd.fld (by simp)).trans hq1) ?_
      rw [State.flag, hd.fld (by simp), h0, State.qualOne_fld _ _ _ _ _ (by simp) (by simp), ha.fld (by simp)]
      exact hrev
    refine ⟨_, ha, ?_, ?_, ?_⟩
    · simp [devFld]
      exact link.ppm.isLt
    · rw [hw, if_pos rfl, ← h0]; exact hd
    · rw [hw, (s.qualSource 0 link).qualSource_of_active refin hq1, h0]
      simp [devFld, State.qualOne_fld]
  · have hd := devOnly.qualSource s link (y := 0) hact
    have hd0 : (s.qualSource 0 link).active = 0 := (hd.fld (by simp)).trans hact
    have hp1 : (s.qualSource 0 link).prefs = s.prefs := State.prefs_of_fld (hd.fld (by simp)) (hd.fld (by simp))
    have h1 := (s.qualSource 0 link).qualSource_of_inactive refin (x := 1) (by omega) (by rw [hp1]; exact hp)
    have ha := devOnly.setFld (s.qualSource 0 link) 1 refin.ppm.toNat
    have hw : s.qualInterval link refin = (s.qualSource 0 link).qualSource 1 refin := by
      unfold State.qualInterval
      dsimp only
      rw [if_neg (by simpa [hact] using hmon)]
      refine hstay _ ?_ ?_
      · rw [h1, State.qualOne_active _ _ hx]
        exact (ha.fld (by simp)).trans hd0
      · rw [h1, State.flag, State.qualOne_fld _ _ _ _ _ (by simp) (by simp), ha.fld (by simp), hd.fld (by simp)]
        exact hrev
    refine ⟨_, ⟨hd.1.trans ha.1, ha.2.trans hd.2⟩, ?_, ?_, ?_⟩
    · simp [devFld]
      exact refin.ppm.isLt
    · rw [hw, h1]; exact ⟨.refl _ _, rfl⟩
    · rw [hw, h1]
      simp [devFld, State.qualOne_fld]

theorem State.qualNext_regs (s : State) : s.qualNext.regs = s.regs := by unfold State.qualNext; rfl
theorem State.qualNext_mem (s : State) : s.qualNext.mem = s.mem := by unfold State.qualNext; rfl
theorem State.qualNext_reg (s : State) (n : RegName) (i : Nat) : s.qualNext.reg n i = s.reg n i := by
  rw [State.reg, State.qualNext_regs, State.reg]
theorem State.qualNext_fld (s : State) (f : Fld) (i : Nat) : s.qualNext.fld f i = s.fld f i :=
  State.fld_of_reg (s.qualNext_reg _ _)
theorem State.qualNext_qualified (s : State) (x : Nat) : s.qualNext.qualified x = s.qualified x := by
  rw [State.qualified, State.qualified, State.flag, State.flag, s.qualNext_fld]

@[simp] theorem State.at_active (s : State) (t : Tu) : (s.at t).active = s.active := State.at_fld _ _ _ _
@[simp] theorem State.at_linkOk (s : State) (t : Tu) : (s.at t).linkOk = s.linkOk := by
  simp [State.linkOk]
@[simp] theorem State.at_prefs (s : State) (t : Tu) : (s.at t).prefs = s.prefs :=
  State.prefs_of_fld (State.at_fld _ _ _ _) (State.at_fld _ _ _ _)

/-- QUAL_INTERVAL, where the other source is active and within limits. -/
theorem execQualInterval_eq (t : Tu) {x : Nat} (link refin : QualMeas) (ha : s.alive = true) (hst : s.standby = false)
    (hx : x < 2) (hact : s.active = 1 - x) (hp : s.prefs.contains x = true)
    (hmon : s.beyondMon (if x = 0 then refin else link).ppm = false) (hrev : s.flag Fld.CLK_SRC_CFG_REVERT 0 = false)
    (hdue : (s.at t).qualDue = true) :
    ∃ a w, exec (.qualInterval t link refin) s = s.done w ∧ devOnly (s.at t) a ∧
      onlyRegs (a.qualOne x (if x = 0 then link else refin)) w [⟨.CLK_FREQ_DEV, 0⟩] ∧
      w.fld (devFld x) 0 = (if x = 0 then link else refin).ppm.toNat := by
  obtain ⟨a, hda, hdev, hdw, hdevw⟩ := (s.at t).qualInterval_eq link refin hx ((State.at_active s t).trans hact)
    (by rw [State.at_prefs]; exact hp) (by simpa [State.beyondMon] using hmon) (by simpa using hrev)
  refine ⟨a, ((s.at t).qualInterval link refin).qualNext, ?_, hda, ?_, ?_⟩
  · rw [exec, execQualInterval, State.when_eq ha, if_neg]
    simp [hst, hdue]
  · exact .of_eq (State.qualNext_regs _) (State.qualNext_mem _) hdw.1
  · rw [State.qualNext_fld, hdevw, hdev]

/-- What an interval leaves, by what it does to the source that it counts. -/
theorem State.qualInterval_reads {a w : State} {x : Nat} {m : QualMeas} (t : Tu) (hx : x < 2) (hda : devOnly (s.at t) a)
    (hw : onlyRegs (a.qualOne x m) w [⟨.CLK_FREQ_DEV, 0⟩]) :
    w.active = s.active ∧ w.qualified x = (a.qualOne x m).qualified x ∧
      w.fld (qcountFld x) 0 = (a.qualOne x m).fld (qcountFld x) 0 ∧
      (a.qualPasses x m ↔ m.ppm.toInt.natAbs ≤ max 1 (s.fld Fld.CLK_QUAL_PPM 0) ∧ m.broken = false ∧
        (x = 0 → s.linkOk = true ∧ s.clk.linkBroke = false)) ∧
      a.fld (qcountFld x) 0 = s.fld (qcountFld x) 0 ∧ a.fld Fld.CLK_QUAL_COUNT 0 = s.fld Fld.CLK_QUAL_COUNT 0 ∧
      ((a.qualOne x m).reg .TLK_STATUS 0 = a.reg .TLK_STATUS 0 → w.reg .TLK_STATUS 0 = s.reg .TLK_STATUS 0) ∧
      s.done w = .next w ∧ onlyRegs s w [⟨.CLK_SRC_STATUS, 0⟩, ⟨.CLK_FREQ_DEV, 0⟩, ⟨.TLK_STATUS, 0⟩] := by
  have hf : ∀ f i, f.reg ≠ .CLK_FREQ_DEV → w.fld f i = (a.qualOne x m).fld f i := fun f i h =>
    State.fld_of_reg (hw.1 _ _ (by simp [h]))
  have haf : ∀ f i, f.reg ≠ .CLK_FREQ_DEV → a.fld f i = s.fld f i := fun f i h => (hda.fld h).trans (State.at_fld _ _ _ _)
  have hregs : onlyRegs (s.at t) w [⟨.CLK_SRC_STATUS, 0⟩, ⟨.CLK_FREQ_DEV, 0⟩, ⟨.TLK_STATUS, 0⟩] :=
    .step hw (by simp) (.step (a.qualOne_regs x m) (by simp) (.step hda.1 (by simp) (.refl _ _)))
  have hlink : a.linkOk = s.linkOk := by
    unfold State.linkOk State.flag
    rw [haf _ _ (by simp), haf _ _ (by simp)]
  obtain ⟨hdone, honly⟩ := s.done_onlyRegs hregs rfl
  refine ⟨?_, ?_, hf _ _ (by simp [qcountFld_reg]), ?_, haf _ _ (by simp [qcountFld_reg]), haf _ _ (by simp),
    fun h => ?_, hdone, honly⟩
  · rw [State.active, hf _ _ (by simp)]
    exact (a.qualOne_active m hx).trans (haf _ _ (by simp))
  · rw [State.qualified, State.flag, hf _ _ (by simp [qualFld_reg])]
    rfl
  · rw [State.qualPasses, haf _ _ (by simp), hlink, hda.2, State.at_clk]
  · rw [hw.1 _ _ (by simp), h, hda.1.1 _ _ (by simp), State.at_reg]

theorem qualInterval_passes (t : Tu) {x : Nat} (link refin : QualMeas) (ha : s.alive = true) (hst : s.standby = false)
    (hx : x < 2) (hact : s.active = 1 - x) (hp : s.prefs.contains x = true)
    (hmon : s.beyondMon (if x = 0 then refin else link).ppm = false) (hrev : s.flag Fld.CLK_SRC_CFG_REVERT 0 = false)
    (hdue : (s.at t).qualDue = true) {m : QualMeas} (hm : m = if x = 0 then link else refin)
    (h : m.ppm.toInt.natAbs ≤ max 1 (s.fld Fld.CLK_QUAL_PPM 0) ∧ m.broken = false ∧
        (x = 0 → s.linkOk = true ∧ s.clk.linkBroke = false)) :
    ∃ u, exec (.qualInterval t link refin) s = .next u ∧ u.active = 1 - x ∧
          u.fld (qcountFld x) 0 = min 255 (s.fld (qcountFld x) 0 + 1) ∧
          (u.qualified x = true ↔ max 1 (s.fld Fld.CLK_QUAL_COUNT 0) ≤ min 255 (s.fld (qcountFld x) 0 + 1)) ∧
          u.fld (devFld x) 0 = m.ppm.toNat ∧ onlyRegs s u [⟨.CLK_SRC_STATUS, 0⟩, ⟨.CLK_FREQ_DEV, 0⟩] := by
  obtain ⟨a, w, hexec, hda, hw, hdev⟩ := execQualInterval_eq t link refin ha hst hx hact hp hmon hrev hdue
  rw [← hm] at hw hdev
  obtain ⟨hactive, hq, hc, hpass, hac, haq, htlk, hdone, honly⟩ := State.qualInterval_reads t hx hda hw
  have hone := a.qualOne_of_passes (hpass.2 h)
  rw [hac, haq] at hone
  refine ⟨w, hexec.trans hdone, hactive.trans hact, ?_, ?_, hdev, fun n i hn => ?_, honly.2⟩
  · rw [hc, hone]
    obtain rfl | rfl : x = 0 ∨ x = 1 := by omega
    all_goals simp [qcountFld, qualFld]
  · rw [hq, hone]
    by_cases hcount : max 1 (s.fld Fld.CLK_QUAL_COUNT 0) ≤ min 255 (s.fld (qcountFld x) 0 + 1)
    · rw [decide_eq_true hcount, iff_true_right hcount]
      obtain rfl | rfl : x = 0 ∨ x = 1 := by omega
      all_goals simp [State.qualified, State.flag, qualFld]
    · rw [decide_eq_false hcount, iff_false_right hcount]
      obtain rfl | rfl : x = 0 ∨ x = 1 := by omega
      all_goals simp [State.qualified, State.flag, qualFld]
  · by_cases hn' : (⟨n, i⟩ : Reg) = ⟨.TLK_STATUS, 0⟩
    · obtain ⟨rfl, rfl⟩ := Reg.mk.inj hn'
      refine htlk ?_
      rw [hone]
      simp [qcountFld_reg, qualFld_reg]
    · exact honly.1 n i (by simp_all)

theorem qualInterval_fails (t : Tu) {x : Nat} (link refin : QualMeas) (ha : s.alive = true) (hst : s.standby = false)
    (hx : x < 2) (hact : s.active = 1 - x) (hp : s.prefs.contains x = true)
    (hmon : s.beyondMon (if x = 0 then refin else link).ppm = false) (hrev : s.flag Fld.CLK_SRC_CFG_REVERT 0 = false)
    (hdue : (s.at t).qualDue = true) {m : QualMeas} (hm : m = if x = 0 then link else refin)
    (h : max 1 (s.fld Fld.CLK_QUAL_PPM 0) < m.ppm.toInt.natAbs ∨ m.broken = true ∨
          (x = 0 ∧ (s.linkOk = false ∨ s.clk.linkBroke = true))) :
    ∃ u, exec (.qualInterval t link refin) s = .next u ∧ u.active = 1 - x ∧ u.qualified x = false ∧
          u.fld (qcountFld x) 0 = 0 ∧ (s.relockState ≠ 2 → u.reg .TLK_STATUS 0 = s.reg .TLK_STATUS 0) ∧
          onlyRegs s u [⟨.CLK_SRC_STATUS, 0⟩, ⟨.CLK_FREQ_DEV, 0⟩, ⟨.TLK_STATUS, 0⟩] := by
  obtain ⟨a, w, hexec, hda, hw, -⟩ := execQualInterval_eq t link refin ha hst hx hact hp hmon hrev hdue
  rw [← hm] at hw
  obtain ⟨hactive, hq, hc, hpass, -, -, htlk, hdone, honly⟩ := State.qualInterval_reads t hx hda hw
  have hfail : ¬ a.qualPasses x m := fun hpa => by
    obtain ⟨h1, h2, h3⟩ := hpass.1 hpa
    rcases h with h | h | ⟨hx0, h⟩
    · exact absurd h1 (Nat.not_le.2 h)
    · rw [h] at h2; cases h2
    · obtain ⟨h4, h5⟩ := h3 hx0
      rcases h with h | h
      · rw [h] at h4; cases h4
      · rw [h] at h5; cases h5
  have hone := a.qualOne_of_fails hfail
  obtain ⟨hqa, -, -, hca⟩ := a.unqualify_reads hx
  refine ⟨w, hexec.trans hdone, hactive.trans hact, ?_, ?_, fun hrel => htlk ?_, honly⟩
  · rw [hq, hone, hqa]
  · rw [hc, hone, hca]
  · have har : a.relockState ≠ 2 := by
      rw [State.relockState, hda.fld (by simp), State.at_fld]
      exact hrel
    rw [hone, State.unqualify, if_neg fun h => har h.2]
    simp [qcountFld_reg, qualFld_reg]

/-- Settles O16. -/
theorem sourcesAreMonitored : Obligations.SourcesAreMonitored := by
  intro s t ha hst
  refine ⟨fun x link refin hx hact hp hmon hrev hdue => ⟨fun h1 h2 h3 => ?_, fun h => ?_⟩, fun cause hact hc => ?_,
    fun t0 hfrom hact hdue => clkNoSource_shows t ha hst hfrom hact hdue⟩
  · exact qualInterval_passes t link refin ha hst hx hact hp hmon hrev hdue rfl ⟨h1, h2, h3⟩
  · exact qualInterval_fails t link refin ha hst hx hact hp hmon hrev hdue rfl h
  · obtain ⟨w, hexec, hw, ht⟩ := execClkSrcTrip_eq t cause ha hst hact hc
    obtain ⟨u, hu, ho, -, hq, hsw, hco, h0, h1, hlock⟩ := State.done_trip rfl hw (by simp) ht hact
    exact ⟨u, hexec.trans hu, hq, hsw, hco, h0, h1, hlock, ho.mono (by simp [sourceRegs]) fun _ h => h⟩

end Sys2Proof.Machine
end

section
/-! SUPPORT. The timing link (R85 to R88, R96): the state of the line, the partner's status, discarded messages, and the
echo. -/

namespace Sys2Proof.Machine

variable {s t u : State} {but : List Reg} {srcs : List Nat}

/-! ### Counters -/

/-- A counter field after a count, saturated. -/
@[simp] theorem State.fld_bump (s : State) (f : Fld) (i n : Nat) (h : f.lsb + f.width ≤ 32) :
    (s.bump f i n).fld f i = min (s.fld f i + n) (2 ^ f.width - 1) := by
  have hpos : 0 < 2 ^ f.width := Nat.two_pow_pos _
  rw [State.bump, State.fld_setFld_eq _ _ _ _ h, Nat.mod_eq_of_lt (by omega)]

@[simp] theorem State.fld_bump_ne (s : State) (f g : Fld) (i j n : Nat) (h : g.reg ≠ f.reg) :
    (s.bump f i n).fld g j = s.fld g j := s.fld_setFld_ne f g i j _ h

@[simp] theorem State.evtStatus_bump (s : State) (f : Fld) (i n k : Nat) (h : f.reg ≠ .EVT_STATUS) :
    (s.bump f i n).evtStatus k = s.evtStatus k := s.evtStatus_setFld f i _ k h

theorem onlyRegs.bump {f : Fld} {i n : Nat} (hn : ⟨f.reg, i⟩ ∈ but) (h : onlyRegs s t but) :
    onlyRegs s (t.bump f i n) but := .setFld hn h

theorem onlyRaising.bump {f : Fld} {i n : Nat} (hn : ⟨f.reg, i⟩ ∈ but) (he : eventReg f.reg = false)
    (h : onlyRaising s t but srcs) : onlyRaising s (t.bump f i n) but srcs := .setFld hn he h

/-! ### The line -/

theorem tlkLock_shows (t : Tu) {up : Bool} (ha : s.alive = true) (hst : s.standby = false) (hact : s.active ≠ 0)
    (hup : up ≠ s.flag Fld.TLK_STATUS_BLOCK_LOCK 0) (hen : up = true → s.flag Fld.TLK_CTRL_ENABLE 0 = true) :
    ∃ u, exec (.tlkLock t up) s = .next u ∧ u.flag Fld.TLK_STATUS_BLOCK_LOCK 0 = up ∧
        (s.fld Fld.EVT_ROUTE_KIND 32 ≠ 1 → u.evtStatus 32 = true) ∧ onlyRaising s u [⟨.TLK_STATUS, 0⟩] [32] := by
  obtain ⟨w, hw, hwr⟩ : ∃ w : State, (if up then s.at t else { s.at t with
      clk := { (s.at t).clk with linkBroke := true } }) = w ∧ w.regs = (s.at t).regs ∧ w.mem = (s.at t).mem := by
    refine ⟨_, rfl, ?_⟩
    split <;> exact ⟨rfl, rfl⟩
  have hreg : ∀ n i, w.reg n i = s.reg n i := fun n i => by rw [State.reg, hwr.1, State.at_regs, State.reg]
  have hexec : exec (.tlkLock t up) s = s.done ((w.setFld Fld.TLK_STATUS_BLOCK_LOCK 0 up.toNat).raise0 32) := by
    have hlast : ((w.setFld Fld.TLK_STATUS_BLOCK_LOCK 0 up.toNat).raise0 32).active ≠ 0 := by
      rw [State.active, State.raise0_fld_of _ _ _ _ rfl, State.fld_setFld_ne _ _ _ _ _ _ (by simp),
        State.fld_of_reg (hreg _ _)]
      exact hact
    rw [exec, execTlkLock, State.when_eq ha, if_neg (by simp [hst]), State.tlkLock, if_neg, hw]
    · dsimp only
      rw [if_neg (by simp [hlast])]
    · rw [State.at_flag, State.at_flag]
      rintro (h | ⟨h1, h2⟩)
      · exact hup h
      · rw [hen h1] at h2; cases h2
  obtain ⟨u, hu, hr, ho⟩ := s.done_onlyRaising (x := t) (but := [⟨.TLK_STATUS, 0⟩]) (srcs := [32])
    (.raise0 (k := 32) (by simp) (.setFld (f := Fld.TLK_STATUS_BLOCK_LOCK) (i := 0) (x := up.toNat) (by simp) rfl
      (.of_eq hwr.1 hwr.2 (.refl (s.at t) _ _))))
  refine ⟨u, hexec.trans hu, ?_, fun hk => ?_, ho⟩
  · rw [State.flag, hr.fld _ _ rfl]
    cases up <;> simp
  · rw [hr.evtStatus (by decide)]
    refine State.raise0_hubSource rfl ?_
    rw [State.fld_setFld_ne _ _ _ _ _ _ (by simp), State.fld_of_reg (hreg _ _)]
    exact hk

theorem tlkHiBer_shows (t : Tu) (ha : s.alive = true) (hst : s.standby = false) (hact : s.active ≠ 0)
    (hber : s.flag Fld.TLK_STATUS_HI_BER 0 = false) :
    ∃ u, exec (.tlkHiBer t) s = .next u ∧ u.flag Fld.TLK_STATUS_HI_BER 0 = true ∧
        (s.fld Fld.EVT_ROUTE_KIND 43 ≠ 1 → u.evtStatus 43 = true) ∧ onlyRaising s u [⟨.TLK_STATUS, 0⟩] [43] := by
  have hexec : exec (.tlkHiBer t) s = s.done (({ s.at t with
      clk := { (s.at t).clk with linkBroke := true } } : State).setFld Fld.TLK_STATUS_HI_BER 0 1 |>.raise0 43) := by
    rw [exec, execTlkHiBer, State.when_eq ha, if_neg (by simp [hst]), State.tlkHiBer, if_neg (by simp [hber])]
    dsimp only
    rw [if_neg (by simpa [State.active] using hact)]
  obtain ⟨u, hu, hr, ho⟩ := s.done_onlyRaising (x := t) (but := [⟨.TLK_STATUS, 0⟩]) (srcs := [43])
    (.raise0 (k := 43) (by simp) (.setFld (f := Fld.TLK_STATUS_HI_BER) (i := 0) (x := 1)
      (t := { s.at t with clk := { (s.at t).clk with linkBroke := true } }) (by simp) rfl
      (.of_eq rfl rfl (.refl (s.at t) _ _))))
  refine ⟨u, hexec.trans hu, ?_, fun hk => ?_, ho⟩
  · rw [State.flag, hr.fld _ _ rfl]
    simp
  · rw [hr.evtStatus (by decide)]
    exact State.raise0_hubSource rfl (by simpa using hk)

theorem tlkHiBerClear_clears (t : Tu) (ha : s.alive = true) :
    ∃ u, exec (.tlkHiBerClear t) s = .next u ∧ u.flag Fld.TLK_STATUS_HI_BER 0 = false ∧
      onlyRegs s u [⟨.TLK_STATUS, 0⟩] := by
  obtain ⟨hdone, honly⟩ := s.done_onlyRegs (x := t) (but := [⟨.TLK_STATUS, 0⟩])
    (.setFld (f := Fld.TLK_STATUS_HI_BER) (i := 0) (x := 0) (by simp) (.refl (s.at t) _)) rfl
  exact ⟨_, by rw [exec, execTlkHiBerClear, State.when_eq ha, hdone], by simp [State.flag], honly⟩

/-! ### Messages -/

@[simp] theorem State.at_tlkRx (s : State) (t : Tu) : (s.at t).tlkRx = s.tlkRx := by
  simp [State.tlkRx]

/-- A message that the receiver takes acts. -/
theorem State.tlkBlock_of_blockIn {m : BitVec 64} {typ : Nat} {f : State → State} {t : Tu} (h : blockIn s m)
    (ht : tlkTyp m = typ) (hgood : tlkBad m = false) : (s.at t).tlkBlock m typ f = f (s.at t) := by
  obtain ⟨-, hrx, hcrc⟩ := h
  simp [State.tlkBlock, hrx, hcrc, ht, hgood]

theorem tlkStatusMsg_keeps (t : Tu) {m : BitVec 64} (h : blockIn s m) (ht : tlkTyp m = 11) :
    ∃ u, exec (.tlkStatusMsg t m) s = .next u ∧ u.fld Fld.TLK_PEER_STATUS_STATUS 0 = tlkArg m % 2 ^ 32 ∧
      onlyRegs s u [⟨.TLK_PEER_STATUS, 0⟩] := by
  obtain ⟨hdone, honly⟩ := s.done_onlyRegs (x := t) (but := [⟨.TLK_PEER_STATUS, 0⟩])
    (.setFld (f := Fld.TLK_PEER_STATUS_STATUS) (i := 0) (x := tlkArg m % 2 ^ 32) (by simp) (.refl (s.at t) _)) rfl
  refine ⟨_, ?_, ?_, honly⟩
  · rw [exec, execTlkStatusMsg, State.when_eq h.1, State.tlkBlock_of_blockIn h ht (by simp [tlkBad, ht]), hdone]
  · simp

/-- A discard for another reason than the CRC is counted. -/
theorem done_tlkUnknown (t : Tu) (h : s.fld Fld.TLK_ERR_UNKNOWN 0 < 65535) :
    s.done (s.at t).tlkUnknown = .next (s.at t).tlkUnknown ∧
      (s.at t).tlkUnknown.fld Fld.TLK_ERR_UNKNOWN 0 = s.fld Fld.TLK_ERR_UNKNOWN 0 + 1 ∧
      onlyRegs s (s.at t).tlkUnknown [⟨.TLK_ERR, 0⟩] := by
  obtain ⟨hdone, honly⟩ := s.done_onlyRegs (x := t) (but := [⟨.TLK_ERR, 0⟩])
    (.bump (f := Fld.TLK_ERR_UNKNOWN) (i := 0) (n := 1) (by simp) (.refl (s.at t) _)) rfl
  refine ⟨hdone, ?_, honly⟩
  simp [State.tlkUnknown]
  omega

theorem tlkMsgDiscard_badCrc (t : Tu) {m : BitVec 64} (ha : s.alive = true) (hrx : s.tlkRx = true)
    (hcrc : tlkCrcOk m = false) (hcnt : s.fld Fld.TLK_ERR_CRC 0 < 65535) :
    ∃ u, exec (.tlkMsgDiscard t (.data m)) s = .next u ∧ u.fld Fld.TLK_ERR_CRC 0 = s.fld Fld.TLK_ERR_CRC 0 + 1 ∧
        (s.fld Fld.TLK_ERR_CRC 0 = 0 → s.fld Fld.EVT_ROUTE_KIND 34 ≠ 1 → u.evtStatus 34 = true) ∧
        onlyRaising s u [⟨.TLK_ERR, 0⟩] [34] := by
  have hexec : exec (.tlkMsgDiscard t (.data m)) s = s.done (s.at t).tlkCrcErr := by
    rw [exec, execTlkMsgDiscard, State.when_eq ha]
    simp [State.tlkBlock, hrx, hcrc]
  have hb : onlyRaising (s.at t) ((s.at t).bump Fld.TLK_ERR_CRC 0 1) [⟨.TLK_ERR, 0⟩] [34] :=
    .bump (by simp) rfl (.refl _ _ _)
  obtain ⟨u, hu, hr, ho⟩ := s.done_onlyRaising (x := t) (t := (s.at t).tlkCrcErr) (.ite (.raise (by simp) hb) hb)
  refine ⟨u, hexec.trans hu, ?_, fun h0 hk => ?_, ho⟩
  · rw [hr.fld _ _ rfl]
    simp [State.tlkCrcErr, State.bumpRaise]
    omega
  · rw [hr.evtStatus (by decide), State.tlkCrcErr, State.bumpRaise, if_pos (by simpa using h0)]
    exact State.raise_hubSource 1 0 rfl (by simpa using hk)

/-! ### The echo -/

theorem echoReq_sends (t : Tu) (ha : s.alive = true) (hp : s.pitched = true) (hi : s.tick.issued = true)
    (hf : s.frame.toNat % 1024 = 0) (he : s.tlk.echo = none) (hm : s.flag Fld.TLK_CTRL_DELAY_MODE 0 = true)
    (htx : s.tlkTx = true) :
    ∃ u, exec (.echoReq t) s = .next u ∧ u.tlk.echo = some (s.tlk.echoSeq, (s.at t).time) ∧ u.tlk.echoOpen = true ∧
      u.out = .timingLink (tlkMsg 6 s.tlk.echoSeq ((s.at t).time.toNat % 2 ^ 48)) :: s.out ∧ onlyRegs s u [] := by
  have htx' := htx
  simp only [State.tlkTx, State.standby, Bool.and_eq_true, Bool.not_eq_true', decide_eq_true_eq] at htx'
  obtain ⟨⟨hen, hst⟩, hrole⟩ := htx'
  have hexec : (s.at t).echoReq = ({ s.at t with tlk := { (s.at t).tlk with
      echo := some (s.tlk.echoSeq, (s.at t).time), echoOpen := true,
      echoSeq := (s.tlk.echoSeq + 1) % 16 } } : State).emit
        (.timingLink (tlkMsg 6 s.tlk.echoSeq ((s.at t).time.toNat % 2 ^ 48))) := by
    simp [State.echoReq, hp, hi, hf, he, hm, State.tlkTx, State.standby, State.tlkSend, hen, hst, hrole]
  obtain ⟨hdone, honly⟩ := s.done_onlyRegs (x := t) (t := (s.at t).echoReq) (but := [])
    (by rw [hexec]; exact .of_eq rfl rfl (.refl _ _)) rfl
  refine ⟨_, ?_, ?_, ?_, ?_, honly⟩
  · rw [exec, execEchoReq, State.when_eq ha, hdone]
  all_goals rw [hexec]
  · simp
  · simp
  · simp [State.emit]

/-- The mean of delays in range is in range. -/
theorem sum_div_lt {l : List Nat} {b : Nat} (hb : ∀ d ∈ l, d ≤ 2 * b) : l.sum / (2 * l.length) ≤ b := by
  have hsum : l.sum ≤ l.length * (2 * b) := by
    simpa [Nat.mul_comm] using List.sum_le_card_nsmul l (2 * b) hb
  rcases Nat.eq_zero_or_pos l.length with h0 | h0
  · simp [h0]
  · exact Nat.div_le_of_le_mul (by linarith [Nat.mul_comm (2 * l.length) b, Nat.mul_left_comm l.length 2 b])

theorem echoRsp_measures (t tx : Tu) {m : BitVec 64} (h : blockIn s m) (ht : tlkTyp m = 7)
    (he : s.tlk.echo = some (tlkSub m, tx)) (hd : ∀ d ∈ s.tlk.delays, d ≤ 2 * (2 ^ 24 - 1))
    (hopen : s.tlk.echoOpen = true) (hm : s.flag Fld.TLK_CTRL_DELAY_MODE 0 = true)
    (hlo : (tlkArg m : Int) ≤ tuDiff tx (s.at t).time)
    (hhi : tuDiff tx (s.at t).time - tlkArg m ≤ 2 * (2 ^ 24 - 1)) :
    ∃ u, exec (.echoRsp t m) s = .next u ∧
      u.tlk.delays = ((tuDiff tx (s.at t).time - tlkArg m).toNat :: s.tlk.delays).take 16 ∧ u.tlk.echoOpen = false ∧
      u.fld Fld.TLK_DELAY_MEAS_VALUE 0 = u.tlk.delays.sum / (2 * u.tlk.delays.length) ∧
      onlyRaising s u [⟨.TLK_DELAY_MEAS, 0⟩] [42] := by
  obtain ⟨w, hw, hwr, hwm, hwd, hwo⟩ : ∃ w : State, w = { s.at t with tlk := { (s.at t).tlk with
      delays := ((tuDiff tx (s.at t).time - tlkArg m).toNat :: s.tlk.delays).take 16, echoOpen := false } } ∧
      w.regs = (s.at t).regs ∧ w.mem = (s.at t).mem ∧
      w.tlk.delays = ((tuDiff tx (s.at t).time - tlkArg m).toNat :: s.tlk.delays).take 16 ∧
      w.tlk.echoOpen = false := ⟨_, rfl, rfl, rfl, rfl, rfl⟩
  have hfrac : w.delayFrac = (w.tlk.delays.sum, 2 * w.tlk.delays.length) := by
    have hmode : w.flag Fld.TLK_CTRL_DELAY_MODE 0 = true := by rw [hw, ← hm]; simp [State.flag]
    have hne : w.tlk.delays.isEmpty = false := by rw [hwd]; rfl
    rw [State.delayFrac, hmode, hne]
    rfl
  have hrsp : (s.at t).echoRsp (tlkSub m) (tlkArg m) = (s.at t).delayChanged w s.tlk.delays.isEmpty := by
    rw [hw]
    simp only [State.echoRsp, State.at_tlk, he, hopen, State.at_flag, hm]
    rw [if_pos (by simp), if_pos ⟨by omega, hhi, trivial⟩]
  have hbig : ∀ d ∈ w.tlk.delays, d ≤ 2 * (2 ^ 24 - 1) := fun d hmem => by
    rw [hwd] at hmem
    rcases List.mem_cons.1 (List.mem_of_mem_take hmem) with rfl | hmem
    · omega
    · exact hd d hmem
  have hchanged : ∀ b : Bool, onlyRaising (s.at t) ((s.at t).delayChanged w b) [⟨.TLK_DELAY_MEAS, 0⟩] [42] ∧
      ((s.at t).delayChanged w b).tlk = w.tlk ∧
      ((s.at t).delayChanged w b).fld Fld.TLK_DELAY_MEAS_VALUE 0 =
        w.tlk.delays.sum / (2 * w.tlk.delays.length) := fun b => by
    have hle := sum_div_lt hbig
    have hset : onlyRaising (s.at t) (w.setFld Fld.TLK_DELAY_MEAS_VALUE 0 (w.tlk.delays.sum / (2 * w.tlk.delays.length)))
        [⟨.TLK_DELAY_MEAS, 0⟩] [42] := .setFld (by simp) rfl (.of_eq hwr hwm (.refl _ _ _))
    have hread : (w.setFld Fld.TLK_DELAY_MEAS_VALUE 0 (w.tlk.delays.sum / (2 * w.tlk.delays.length))).fld
        Fld.TLK_DELAY_MEAS_VALUE 0 = w.tlk.delays.sum / (2 * w.tlk.delays.length) := by
      rw [State.fld_setFld_eq _ _ _ _ (by decide)]
      exact Nat.mod_eq_of_lt (Nat.lt_of_le_of_lt hle (by decide))
    unfold State.delayChanged
    rw [hfrac]
    dsimp only
    split
    · exact ⟨.raise0 (by simp) hset, State.raise_tlk _ _ _ _, (State.raise0_fld_of _ _ _ _ rfl).trans hread⟩
    · exact ⟨hset, rfl, hread⟩
  obtain ⟨hone, htlk, hval⟩ := hchanged s.tlk.delays.isEmpty
  obtain ⟨u, hu, hr, ho⟩ := s.done_onlyRaising (x := t) hone
  have hut : u.tlk = w.tlk := hr.tlk.trans htlk
  refine ⟨u, ?_, by rw [hut, hwd], by rw [hut, hwo], ?_, ho⟩
  · rw [exec, execEchoRsp, State.when_eq h.1, State.tlkBlock_of_blockIn h ht (by simp [tlkBad, ht]), hrsp, hu]
  · rw [hr.fld _ _ rfl, hval, hut]

/-- Settles O17. -/
theorem timingLinkIsReceived : Obligations.TimingLinkIsReceived := by
  refine ⟨fun s t ha hst hact => ⟨fun up hup hen => tlkLock_shows t ha hst hact hup hen,
      fun hber => tlkHiBer_shows t ha hst hact hber, tlkHiBerClear_clears t ha⟩,
    fun s t m h ht => tlkStatusMsg_keeps t h ht, fun s t ha hrx => ⟨fun typ htyp hcnt => ?_,
      fun m hcrc htyp hcnt => ?_, fun m hcrc hcnt => tlkMsgDiscard_badCrc t ha hrx hcrc hcnt⟩,
    fun s t ha hp hi hf he hm htx => echoReq_sends t ha hp hi hf he hm htx,
    fun s t tx m h ht he hd hopen hm hlo hhi => echoRsp_measures t tx h ht he hd hopen hm hlo hhi⟩
  · obtain ⟨hdone, hfld, honly⟩ := done_tlkUnknown t hcnt
    refine ⟨_, ?_, hfld, honly⟩
    rw [exec, execTlkMsgDiscard, State.when_eq ha]
    dsimp only
    rw [if_pos (by rw [State.at_tlkRx, hrx, bne_iff_ne.2 htyp]; rfl), hdone]
  · obtain ⟨hdone, hfld, honly⟩ := done_tlkUnknown t hcnt
    have hbad : tlkBad m = true := by
      unfold tlkBad
      rcases htyp with h | h | h <;> simp [h]
    refine ⟨_, ?_, hfld, honly⟩
    rw [exec, execTlkMsgDiscard, State.when_eq ha]
    simpa [State.tlkBlock, hrx, hcrc, hbad] using hdone

end Sys2Proof.Machine
end

section
/-! SUPPORT. Tick markers, the relock and a move of the epoch (R87 to R90, R99 to R102, R413). -/

namespace Sys2Proof.Machine

variable {s t u : State} {but : List Reg} {srcs : List Nat}

/-! ### A move of local time -/

/-- What every step of a fold keeps, the fold keeps. -/
theorem foldl_keeps {α β : Type} (p : State → β) {f : State → α → State} (hf : ∀ a x, p (f a x) = p a) (l : List α)
    (s : State) : p (l.foldl f s) = p s := by
  induction l generalizing s with
  | nil => rfl
  | cons x l ih => exact (ih _).trans (hf s x)

theorem State.each_keeps {β : Type} (p : State → β) {f : State → Nat → State} (hf : ∀ a x, p (f a x) = p a) (n : Nat)
    (s : State) : p (s.each n f) = p s := foldl_keeps p hf _ s

theorem State.each_regs {n : Nat} {f : State → Nat → State} (s : State) (hf : ∀ a x, (f a x).regs = a.regs) :
    (s.each n f).regs = s.regs := foldl_keeps State.regs hf _ s
theorem State.each_mem {n : Nat} {f : State → Nat → State} (s : State) (hf : ∀ a x, (f a x).mem = a.mem) :
    (s.each n f).mem = s.mem := foldl_keeps State.mem hf _ s
theorem State.each_time {n : Nat} {f : State → Nat → State} (s : State) (hf : ∀ a x, (f a x).time = a.time) :
    (s.each n f).time = s.time := foldl_keeps State.time hf _ s
theorem State.each_tlk {n : Nat} {f : State → Nat → State} (s : State) (hf : ∀ a x, (f a x).tlk = a.tlk) :
    (s.each n f).tlk = s.tlk := foldl_keeps State.tlk hf _ s

theorem State.shiftTriggers_reads (s : State) (d : Int) :
    (s.shiftTriggers d).regs = s.regs ∧ (s.shiftTriggers d).mem = s.mem ∧ (s.shiftTriggers d).time = s.time ∧
      (s.shiftTriggers d).tlk = s.tlk := by
  unfold State.shiftTriggers
  dsimp only
  refine ⟨?_, ?_, ?_, ?_⟩
  · refine (State.each_regs _ fun _ _ => ?_).trans ((State.each_regs _ fun _ _ => ?_).trans
      (State.each_regs _ fun _ _ => ?_)) <;> rfl
  · refine (State.each_mem _ fun _ _ => ?_).trans ((State.each_mem _ fun _ _ => ?_).trans
      (State.each_mem _ fun _ _ => ?_)) <;> rfl
  · refine (State.each_time _ fun _ _ => ?_).trans ((State.each_time _ fun _ _ => ?_).trans
      (State.each_time _ fun _ _ => ?_)) <;> rfl
  · refine (State.each_tlk _ fun _ _ => ?_).trans ((State.each_tlk _ fun _ _ => ?_).trans
      (State.each_tlk _ fun _ _ => ?_)) <;> rfl

theorem State.shiftUnits_reads (s : State) (d : Int) :
    (s.shiftUnits d).regs = s.regs ∧ (s.shiftUnits d).mem = s.mem ∧ (s.shiftUnits d).time = s.time ∧
      (s.shiftUnits d).tlk = s.tlk := by
  unfold State.shiftUnits
  dsimp only
  refine ⟨?_, ?_, ?_, ?_⟩
  · refine (State.each_regs _ fun _ _ => ?_).trans (State.each_regs _ fun _ _ => ?_) <;> rfl
  · refine (State.each_mem _ fun _ _ => ?_).trans (State.each_mem _ fun _ _ => ?_) <;> rfl
  · refine (State.each_time _ fun _ _ => ?_).trans (State.each_time _ fun _ _ => ?_) <;> rfl
  · refine (State.each_tlk _ fun _ _ => ?_).trans (State.each_tlk _ fun _ _ => ?_) <;> rfl

theorem State.moveTime_reads (s : State) (d : Int) :
    (s.moveTime d).regs = s.regs ∧ (s.moveTime d).mem = s.mem ∧ (s.moveTime d).time = tuMove d s.time ∧
      (s.moveTime d).tlk.step = s.tlk.step ∧ (s.moveTime d).tlk.lastE = s.tlk.lastE := by
  obtain ⟨hr, hm, ht, hk⟩ := State.shiftTriggers_reads (({ s with time := tuMove d s.time }.shiftTimers d).shiftUnits d) d
  obtain ⟨hr', hm', ht', hk'⟩ := State.shiftUnits_reads ({ s with time := tuMove d s.time }.shiftTimers d) d
  rw [State.moveTime, hr, hm, ht, hk, hr', hm', ht', hk']
  exact ⟨rfl, rfl, rfl, rfl, rfl⟩

theorem State.regrid_reads (s0 s : State) (e : Nat) :
    (State.regrid s0 s e).regs = s.regs ∧ (State.regrid s0 s e).mem = s.mem ∧ (State.regrid s0 s e).time = s.time ∧
      (State.regrid s0 s e).tlk = s.tlk := by
  unfold State.regrid
  dsimp only
  refine ⟨?_, ?_, ?_, ?_⟩
  · refine (foldl_keeps State.regs (fun _ _ => ?_) _ _).trans (foldl_keeps State.regs (fun _ _ => ?_) _ s)
    · split <;> rfl
    · rfl
  · refine (foldl_keeps State.mem (fun _ _ => ?_) _ _).trans (foldl_keeps State.mem (fun _ _ => ?_) _ s)
    · split <;> rfl
    · rfl
  · refine (foldl_keeps State.time (fun _ _ => ?_) _ _).trans (foldl_keeps State.time (fun _ _ => ?_) _ s)
    · split <;> rfl
    · rfl
  · refine (foldl_keeps State.tlk (fun _ _ => ?_) _ _).trans (foldl_keeps State.tlk (fun _ _ => ?_) _ s)
    · split <;> rfl
    · rfl

/-- A grid that loses its phase by an operation that keeps registers and time: ALIGNED of its die clears. -/
theorem State.loseGrid_reads (s : State) (e : Nat) {f : State → State} (hr : (f s).regs = s.regs)
    (hm : (f s).mem = s.mem) (ht : (f s).time = s.time) (hk : (f s).tlk = s.tlk) :
    onlyRegs s (s.loseGrid e f) [⟨.PLL_SPLL_STATUS, e⟩] ∧ (s.loseGrid e f).time = s.time ∧
      (s.loseGrid e f).tlk = s.tlk := by
  have halign : ∀ x : State, onlyRegs x ((x.align e false).freshGrid e) [⟨.PLL_SPLL_STATUS, e⟩] ∧
      ((x.align e false).freshGrid e).time = x.time ∧ ((x.align e false).freshGrid e).tlk = x.tlk := fun x => by
    unfold State.align State.freshGrid
    refine ⟨.of_eq rfl rfl (.setFld (f := Fld.PLL_SPLL_STATUS_ALIGNED) (by simp) (.ite (.refl _ _)
      (.of_eq rfl rfl (.refl _ _)))), ?_, ?_⟩ <;> dsimp only <;> split <;> rfl
  obtain ⟨hg1, hg2, hg3, hg4⟩ := State.regrid_reads s (((f s).align e false).freshGrid e) e
  obtain ⟨ha1, ha2, ha3⟩ := halign (f s)
  exact ⟨.of_eq hg1 hg2 (.step ha1 (by simp) (.of_eq hr hm (.refl _ _))), hg3.trans (ha2.trans ht),
    hg4.trans (ha3.trans hk)⟩

theorem State.each_two (s : State) (f : State → Nat → State) : s.each 2 f = f (f s 0) 1 := rfl

@[simp] theorem State.endMove_regs (s : State) (e : Nat) : (s.endMove e).regs = s.regs := rfl
@[simp] theorem State.endMove_mem (s : State) (e : Nat) : (s.endMove e).mem = s.mem := rfl
@[simp] theorem State.endMove_time (s : State) (e : Nat) : (s.endMove e).time = s.time := rfl
@[simp] theorem State.endMove_tlk (s : State) (e : Nat) : (s.endMove e).tlk = s.tlk := rfl

/-- The state of a new epoch, before EPOCH_VALID is shown. -/
theorem State.setEpoch_eq (s : State) (e : Int) : ∃ w : State, s.setEpoch e =
      (w.setFld Fld.TLK_STATUS_EPOCH_VALID 0 1).raise0 35 ∧
    onlyRegs s w [⟨.PLL_SPLL_STATUS, 0⟩, ⟨.PLL_SPLL_STATUS, 1⟩] ∧ w.time = tuMove (-e) s.time ∧
    w.tlk.step = s.tlk.step ∧ w.tlk.lastE = s.tlk.lastE := by
  obtain ⟨hr, hm, ht, hstep, hlast⟩ := s.moveTime_reads (-e)
  obtain ⟨ha1, ha2, ha3⟩ := State.loseGrid_reads (s.moveTime (-e)) 0 (f := fun s => s.endMove 0)
    (State.endMove_regs _ _) (State.endMove_mem _ _) (State.endMove_time _ _) (State.endMove_tlk _ _)
  obtain ⟨hb1, hb2, hb3⟩ := State.loseGrid_reads ((s.moveTime (-e)).loseGrid 0 fun s => s.endMove 0) 1
    (f := fun s => s.endMove 1)
    (State.endMove_regs _ _) (State.endMove_mem _ _) (State.endMove_time _ _) (State.endMove_tlk _ _)
  obtain ⟨b, hb, hbr, hbt, hbk⟩ : ∃ b : State, (s.moveTime (-e)).each 2 (fun s x => s.loseGrid x fun s => s.endMove x) = b ∧
      onlyRegs s b [⟨.PLL_SPLL_STATUS, 0⟩, ⟨.PLL_SPLL_STATUS, 1⟩] ∧ b.time = tuMove (-e) s.time ∧
      b.tlk = (s.moveTime (-e)).tlk :=
    ⟨_, State.each_two _ _, .step hb1 (by simp) (.step ha1 (by simp) (.of_eq hr hm (.refl _ _))),
      (hb2.trans ha2).trans ht, hb3.trans ha3⟩
  refine ⟨{ b with tlk := { b.tlk with fresh := false } }, ?_, .of_eq rfl rfl hbr, hbt, ?_, ?_⟩
  · rw [State.setEpoch, hb]
  · exact (congrArg Tlk.step hbk).trans hstep
  · exact (congrArg Tlk.lastE hbk).trans hlast

/-! ### What a marker shows -/

/-- What a marker shows is as in `s`. -/
structure KeepsMark (s t : State) : Prop where
  kLink : t.fld Fld.TLK_STATUS_K_LINK 0 = s.fld Fld.TLK_STATUS_K_LINK 0
  kMatch : t.fld Fld.TLK_STATUS_K_MATCH 0 = s.fld Fld.TLK_STATUS_K_MATCH 0
  ofs : t.fld Fld.TLK_RELOCK_OFS_OFS 0 = s.fld Fld.TLK_RELOCK_OFS_OFS 0
  lastE : t.tlk.lastE = s.tlk.lastE

theorem KeepsMark.refl (s : State) : KeepsMark s s := ⟨rfl, rfl, rfl, rfl⟩

theorem KeepsMark.trans (h : KeepsMark s t) (g : KeepsMark t u) : KeepsMark s u :=
  ⟨g.kLink.trans h.kLink, g.kMatch.trans h.kMatch, g.ofs.trans h.ofs, g.lastE.trans h.lastE⟩

theorem State.slewDone_keepsMark (s : State) : KeepsMark s s.slewDone := by
  constructor <;> simp [State.slewDone, State.relockIdle, State.raise0]

theorem State.slew_keepsMark (s : State) (e : Int) (act : Bool) : KeepsMark s (s.slew e act) := by
  have h : KeepsMark s { s.setFld Fld.TLK_STATUS_RELOCK_STATE 0 1 with
      tlk := { s.tlk with actSlew := act, fresh := false, slew := some (e, s.time) } } := by
    constructor <;> simp
  unfold State.slew
  dsimp only
  split
  · exact h.trans (State.slewDone_keepsMark _)
  · exact h

@[simp] theorem State.toCoast_tlk (s : State) (b : Bool) : (s.toCoast b).tlk = s.tlk := by
  have h : (s.jpllUnlock.setActive 2).tlk = s.tlk := by
    simp only [State.setActive, State.jpllUnlock, State.pmuCoast_tlk, State.setFld_tlk]
    split <;> simp
  unfold State.toCoast
  dsimp only
  split <;> exact h

theorem State.toCoast_keepsMark (s : State) (b : Bool) : KeepsMark s (s.toCoast b) := by
  constructor <;> simp

/-- A STEP of a part that follows no partner waits for the next tick. -/
theorem State.decideStep_alone (s : State) (e : Int) (h : s.epochFollows = false) :
    s.decideStep e = { s with tlk := { s.tlk with step := some e, stepFrame := none } } := by
  rw [State.decideStep, h]
  rfl

theorem State.epochFollows_of_fld (hr : t.fld Fld.GLN_STATUS_ROLE 0 = s.fld Fld.GLN_STATUS_ROLE 0)
    (ha : t.fld Fld.GLN_CFG_ALIGN 0 = s.fld Fld.GLN_CFG_ALIGN 0)
    (hm : t.fld Fld.GLN_STATUS_MODE 0 = s.fld Fld.GLN_STATUS_MODE 0) : t.epochFollows = s.epochFollows := by
  unfold State.epochFollows State.attached State.flag
  rw [hr, ha, hm]

theorem State.relock_keepsMark (s : State) (e : Int) (h : s.epochFollows = false) : KeepsMark s (s.relock e) := by
  have h1 : KeepsMark s { s with tlk := { s.tlk with fresh := false, actSlew := false } } := by
    constructor <;> simp
  unfold State.relock
  dsimp only
  split
  · exact h1.trans (State.slew_keepsMark _ _ _)
  · split
    · split
      · exact h1.trans ((State.toCoast_keepsMark _ false).trans (by constructor <;> simp [State.raise0]))
      · exact h1.trans (by constructor <;> simp [State.raise0])
    · rw [State.decideStep_alone]
      · constructor <;> simp
      · rw [← h]
        exact State.epochFollows_of_fld (by simp) (by simp) (by simp)

theorem State.markerAct_keepsMark (s : State) (e : Int) (h : s.epochFollows = false) (hstep : s.tlk.step = none) :
    KeepsMark s (s.markerAct e) := by
  unfold State.markerAct
  rw [hstep]
  split
  · exact .refl s
  · dsimp only [Option.isSome]
    rw [if_neg (by decide)]
    split
    · split
      · exact .refl s
      · split
        · rw [s.decideStep_alone e h]
          constructor <;> simp
        · obtain ⟨w, hw, hr, -, -, hl⟩ := s.setEpoch_eq e
          have hf : ∀ f i, f.reg ≠ .PLL_SPLL_STATUS → w.fld f i = s.fld f i := fun f i hf =>
            State.fld_of_reg (hr.1 _ _ (by simp [hf]))
          rw [hw]
          constructor <;> simp [State.raise0, hf, hl]
    · split
      · exact .refl s
      · split
        · exact s.relock_keepsMark e h
        · split
          · have h1 : KeepsMark s { s with tlk := { s.tlk with actSlew := false } } := by constructor <;> simp
            split
            · exact h1.trans (State.slewDone_keepsMark _)
            · exact h1
          · split
            · exact .refl s
            · exact s.relock_keepsMark e h

/-- The state in which a marker acts: its K, its error and the run of errors are noted. -/
def State.markNoted (s : State) (k : Nat) (e : Int) : State :=
  let s1 := (s.noteK k).setFld Fld.TLK_RELOCK_OFS_OFS 0 (unsgn 32 (max (-(2 ^ 31 - 1)) (min e (2 ^ 31 - 1))))
  ({ s1 with tlk := { s1.tlk with mark := s1.time, lastE := e } } : State).markRun e

theorem State.marker_eq (s : State) (k : Nat) (f : Frame) :
    s.marker k f = (s.markNoted k (tuDiff (tickTime k f) s.arrival)).markerAct (tuDiff (tickTime k f) s.arrival) := rfl

theorem State.noteK_reads (s : State) (k : Nat) (hk : k < 16) :
    onlyRaising s (s.noteK k) [⟨.TLK_STATUS, 0⟩] [40] ∧ (s.noteK k).fld Fld.TLK_STATUS_K_LINK 0 = k ∧
      (s.noteK k).fld Fld.TLK_STATUS_K_MATCH 0 = (k == s.k).toNat ∧ (s.noteK k).tlk = s.tlk ∧
      (s.noteK k).time = s.time ∧ (s.noteK k).pitch = s.pitch ∧
      (∀ f, f.reg = .TLK_STATUS → f.lsb + f.width ≤ 5 → (s.noteK k).fld f 0 = s.fld f 0) := by
  have hmod : (k == s.k).toNat % 2 = (k == s.k).toNat := by cases k == s.k <;> rfl
  obtain ⟨w, hw⟩ : ∃ w, (s.setFld Fld.TLK_STATUS_K_LINK 0 k).setFld Fld.TLK_STATUS_K_MATCH 0 (k == s.k).toNat = w :=
    ⟨_, rfl⟩
  have hw1 : onlyRegs s w [⟨.TLK_STATUS, 0⟩] := hw ▸ .setFld (by simp) (.setFld (by simp) (.refl _ _))
  have hw2 : w.fld Fld.TLK_STATUS_K_LINK 0 = k := by rw [← hw]; simp; omega
  have hw3 : w.fld Fld.TLK_STATUS_K_MATCH 0 = (k == s.k).toNat := by rw [← hw]; simp [hmod]
  have hw4 : ∀ f, f.reg = .TLK_STATUS → f.lsb + f.width ≤ 5 → w.fld f 0 = s.fld f 0 := fun f _ hl => by
    rw [← hw, State.fld_setFld_apart _ _ _ _ _ _ (.inl (Nat.le_trans hl (by decide))),
      State.fld_setFld_apart _ _ _ _ _ _ (.inl hl)]
  have hw5 : w.tlk = s.tlk ∧ w.time = s.time ∧ w.pitch = s.pitch := by rw [← hw]; exact ⟨rfl, rfl, rfl⟩
  obtain ⟨hw5, hw6, hw7⟩ := hw5
  unfold State.noteK
  dsimp only
  rw [hw]
  split
  · refine ⟨.raise0 (by simp) (hw1.raising rfl), ?_, ?_, by simp [State.raise0, hw5], by simp [State.raise0, hw6],
      by simp [State.raise0, hw7], fun f hf hl => ?_⟩
    · rw [State.raise0_fld_of _ _ _ _ rfl, hw2]
    · rw [State.raise0_fld_of _ _ _ _ rfl, hw3]
    · rw [State.raise0_fld_of _ _ _ _ (by rw [hf]; rfl), hw4 f hf hl]
  · exact ⟨hw1.raising rfl, hw2, hw3, hw5, hw6, hw7, hw4⟩

end Sys2Proof.Machine
end

section
/-! SUPPORT. What a marker does to local time (R89, R90, R99, R100, R413), and how a HOLD and a slew end (R99, R101,
R102). -/

namespace Sys2Proof.Machine

variable {s t u : State} {but : List Reg} {srcs : List Nat}

/-- What the state in which a marker acts has in common with the one before. -/
structure MarkNoted (s w : State) (k : Nat) (e : Int) : Prop where
  only : onlyRaising s w [⟨.TLK_STATUS, 0⟩, ⟨.TLK_RELOCK_OFS, 0⟩] [33, 40]
  kLink : w.fld Fld.TLK_STATUS_K_LINK 0 = k
  kMatch : w.fld Fld.TLK_STATUS_K_MATCH 0 = (k == s.k).toNat
  ofs : w.fld Fld.TLK_RELOCK_OFS_OFS 0 = unsgn 32 (max (-(2 ^ 31 - 1)) (min e (2 ^ 31 - 1)))
  low : ∀ f, f.reg = .TLK_STATUS → f.lsb + f.width ≤ 5 → w.fld f 0 = s.fld f 0
  tlk : w.tlk.lastE = e ∧ w.tlk.step = s.tlk.step ∧ w.tlk.fresh = s.tlk.fresh ∧ w.tlk.actSlew = s.tlk.actSlew
  time : w.time = s.time
  pitch : w.pitch = s.pitch

theorem unsgn_lt (w : Nat) (v : Int) : unsgn w v < 2 ^ w := by
  unfold unsgn
  have h := Int.emod_lt_of_pos v (show (0 : Int) < (2 ^ w : Nat) by exact_mod_cast Nat.two_pow_pos w)
  have h' := Int.emod_nonneg v (show ((2 ^ w : Nat) : Int) ≠ 0 by exact_mod_cast (Nat.two_pow_pos w).ne')
  omega

theorem State.markNoted_of (s : State) {k : Nat} (e : Int) (hk : k < 16) : MarkNoted s (s.markNoted k e) k e := by
  obtain ⟨ho, h1, h2, htlk, htime, hpitch, hlow⟩ := s.noteK_reads k hk
  obtain ⟨w, hw⟩ : ∃ w : State, w = { (s.noteK k).setFld Fld.TLK_RELOCK_OFS_OFS 0
      (unsgn 32 (max (-(2 ^ 31 - 1)) (min e (2 ^ 31 - 1)))) with
        tlk := { (s.noteK k).tlk with mark := (s.noteK k).time, lastE := e } } := ⟨_, rfl⟩
  obtain ⟨x, hx⟩ : ∃ x : State, x = { w with tlk := { w.tlk with run := if w.withinTol e then 0 else w.tlk.run + 1 } } :=
    ⟨_, rfl⟩
  have hf : ∀ f i, f.reg ≠ .TLK_RELOCK_OFS → x.fld f i = (s.noteK k).fld f i := fun f i hf => by
    rw [hx, hw]
    simp [hf]
  have hxo : onlyRaising s x [⟨.TLK_STATUS, 0⟩, ⟨.TLK_RELOCK_OFS, 0⟩] [33, 40] := by
    rw [hx, hw]
    exact .of_eq rfl rfl (.setFld (f := Fld.TLK_RELOCK_OFS_OFS) (t := s.noteK k) (by simp) rfl
      (ho.mono (by simp) (by simp)))
  have hall : MarkNoted s x k e := by
    refine ⟨hxo, ?_, ?_, ?_, fun f hr hl => ?_, ?_, ?_, ?_⟩
    · rw [hf _ _ (by simp), h1]
    · rw [hf _ _ (by simp), h2]
    · have hofs : x.fld Fld.TLK_RELOCK_OFS_OFS 0 =
          unsgn 32 (max (-(2 ^ 31 - 1)) (min e (2 ^ 31 - 1))) % 2 ^ 32 := by
        rw [hx, hw]
        simp
      rw [hofs, Nat.mod_eq_of_lt (unsgn_lt 32 _)]
    · rw [hf _ _ (by rw [hr]; decide), hlow f hr hl]
    · rw [hx, hw]
      simp [htlk]
    · rw [hx, hw]
      simp [htime]
    · rw [hx, hw]
      simp [hpitch]
  have hrun : s.markNoted k e = if x.tlk.run = 3 then x.raise0 33 else x := by rw [hx, hw]; rfl
  rw [hrun]
  split
  · have hr : ∀ f i, eventReg f.reg = false → (x.raise0 33).fld f i = x.fld f i := fun f i he =>
      State.raise0_fld_of _ _ _ _ he
    exact ⟨.raise0 (by simp) hall.only, (hr _ _ rfl).trans hall.kLink, (hr _ _ rfl).trans hall.kMatch,
      (hr _ _ rfl).trans hall.ofs, fun f hf hl => (hr _ _ (by rw [hf]; rfl)).trans (hall.low f hf hl),
      by simpa [State.raise0] using hall.tlk, by simpa [State.raise0] using hall.time,
      by simpa [State.raise0] using hall.pitch⟩
  · exact hall

theorem MarkNoted.fld {w : State} {k : Nat} {e : Int} (h : MarkNoted s w k e) {f : Fld} {i : Nat}
    (h1 : f.reg ≠ .TLK_STATUS) (h2 : f.reg ≠ .TLK_RELOCK_OFS) (he : eventReg f.reg = false) : w.fld f i = s.fld f i :=
  h.only.fld (by simp [h1, h2]) he

/-- What a valid marker finds: the state in which it acts, and that the part is alone. -/
theorem tlkTick_eq (t : Tu) {m : BitVec 64} (h : tickIn s m) :
    ∃ w, exec (.tlkTick t m) s = s.done (w.markerAct (markerError s t m)) ∧
      MarkNoted (s.at t) w (tlkSub m) (markerError s t m) ∧ w.epochFollows = false ∧ w.tlk.step = none := by
  obtain ⟨hin, htyp, hlo, hhi, hfol, hstep⟩ := h
  have hnoted := (s.at t).markNoted_of (markerError s t m) (show tlkSub m < 16 by omega)
  refine ⟨_, ?_, hnoted, ?_, hnoted.tlk.2.1.trans ((congrArg Tlk.step (State.at_tlk s t)).trans hstep)⟩
  · rw [exec, execTlkTick, State.when_eq hin.1, State.tlkBlock_of_blockIn hin htyp (by simp [tlkBad, htyp, hlo, hhi])]
    rw [State.marker_eq]
    rfl
  · rw [State.epochFollows_of_fld (s := s) ?_ ?_ ?_, hfol]
    all_goals
      rw [hnoted.fld (by simp) (by simp) (by simp), State.at_fld]

theorem State.followsPartner_of_alone (h : s.epochFollows = false) : s.followsPartner = false := by
  rw [State.followsPartner, h]
  rfl

/-- A marker shows its K and its error (R89, R90). -/
theorem tlkTick_shows (t : Tu) {m : BitVec 64} (h : tickIn s m) :
    ∃ u, exec (.tlkTick t m) s = .next u ∧ u.fld Fld.TLK_STATUS_K_LINK 0 = tlkSub m ∧
      (u.flag Fld.TLK_STATUS_K_MATCH 0 = true ↔ tlkSub m = s.k) ∧ u.tlk.lastE = markerError s t m ∧
      u.fld Fld.TLK_RELOCK_OFS_OFS 0 = unsgn 32 (max (-(2 ^ 31 - 1)) (min (markerError s t m) (2 ^ 31 - 1))) := by
  obtain ⟨w, hexec, hw, hfol, hstep⟩ := tlkTick_eq t h
  have hk := w.markerAct_keepsMark (markerError s t m) hfol hstep
  obtain ⟨u, hu, hr⟩ := s.done_notes (w.markerAct (markerError s t m))
  refine ⟨u, hexec.trans hu, ?_, ?_, ?_, ?_⟩
  · rw [hr.fld _ _ rfl, hk.kLink, hw.kLink]
  · rw [State.flag, hr.fld _ _ rfl, hk.kMatch, hw.kMatch, State.at_k]
    cases hb : tlkSub m == s.k <;> simp_all
  · rw [hr.tlk, hk.lastE, hw.tlk.1]
  · rw [hr.fld _ _ rfl, hk.ofs, hw.ofs]

/-- The registers of the marker, named in the order of the statements. -/
theorem MarkNoted.only_at {w : State} {k : Nat} {e : Int} {x : Tu} {b : List Reg} {ss : List Nat}
    (h : MarkNoted (s.at x) w k e) (hb : [(⟨.TLK_STATUS, 0⟩ : Reg), ⟨.TLK_RELOCK_OFS, 0⟩] ⊆ b) (hs : [33, 40] ⊆ ss) :
    onlyRaising (s.at x) w b ss := h.only.mono hb hs

/-- A STEP is decided for the epoch (R413). -/
theorem tlkTick_epoch_step (t : Tu) {m : BitVec 64} (h : tickIn s m) (he : s.flag Fld.TLK_STATUS_EPOCH_VALID 0 = false)
    (hq : s.qualified 0 = true) (hp : s.pitched = true) :
    ∃ u, exec (.tlkTick t m) s = .next u ∧ u.tlk.step = some (markerError s t m) ∧ u.tlk.stepFrame = none ∧
        u.time = (s.at t).time ∧ onlyRaising s u [⟨.TLK_STATUS, 0⟩, ⟨.TLK_RELOCK_OFS, 0⟩] [33, 40] := by
  obtain ⟨w, hexec, hw, hfol, hstep⟩ := tlkTick_eq t h
  have hwe : w.flag Fld.TLK_STATUS_EPOCH_VALID 0 = false := by
    rw [State.flag, hw.low _ rfl (by decide), State.at_fld]; exact he
  have hwq : w.qualified 0 = true := by
    rw [State.qualified, State.flag, hw.fld (by simp [qualFld_reg]) (by simp [qualFld_reg]) (by simp [qualFld_reg]),
      State.at_fld]
    exact hq
  have hwp : w.pitched = true := by rw [State.pitched, hw.pitch, State.at_pitch]; exact hp
  have hact : w.markerAct (markerError s t m) =
      { w with tlk := { w.tlk with step := some (markerError s t m), stepFrame := none } } := by
    rw [State.markerAct, State.followsPartner_of_alone hfol, hstep, hwe, hwq, hwp]
    exact w.decideStep_alone _ hfol
  obtain ⟨u, hu, hr, ho⟩ := s.done_onlyRaising (x := t) (t := w.markerAct (markerError s t m))
    (by rw [hact]; exact .of_eq rfl rfl hw.only)
  refine ⟨u, hexec.trans hu, ?_, ?_, ?_, ho⟩
  · rw [hr.tlk, hact]
  · rw [hr.tlk, hact]
  · rw [hr.time, hact]
    exact hw.time

/-- The epoch is set at once while UNPITCHED (R413). -/
theorem tlkTick_epoch_set (t : Tu) {m : BitVec 64} (h : tickIn s m) (he : s.flag Fld.TLK_STATUS_EPOCH_VALID 0 = false)
    (hq : s.qualified 0 = true) (hp : s.pitched = false) :
    ∃ u, exec (.tlkTick t m) s = .next u ∧ u.time = tuMove (-markerError s t m) (s.at t).time ∧
        u.flag Fld.TLK_STATUS_EPOCH_VALID 0 = true ∧ u.tlk.step = none ∧
        (s.fld Fld.EVT_ROUTE_KIND 35 ≠ 1 → u.evtStatus 35 = true) ∧
        onlyRaising s u [⟨.TLK_STATUS, 0⟩, ⟨.TLK_RELOCK_OFS, 0⟩, ⟨.PLL_SPLL_STATUS, 0⟩, ⟨.PLL_SPLL_STATUS, 1⟩]
          [33, 35, 40] := by
  obtain ⟨w, hexec, hw, hfol, hstep⟩ := tlkTick_eq t h
  have hwe : w.flag Fld.TLK_STATUS_EPOCH_VALID 0 = false := by
    rw [State.flag, hw.low _ rfl (by decide), State.at_fld]; exact he
  have hwq : w.qualified 0 = true := by
    rw [State.qualified, State.flag, hw.fld (by simp [qualFld_reg]) (by simp [qualFld_reg]) (by simp [qualFld_reg]),
      State.at_fld]
    exact hq
  have hwp : w.pitched = false := by rw [State.pitched, hw.pitch, State.at_pitch]; exact hp
  obtain ⟨x, hx, hxr, hxt, hxs, -⟩ := w.setEpoch_eq (markerError s t m)
  have hact : w.markerAct (markerError s t m) = (x.setFld Fld.TLK_STATUS_EPOCH_VALID 0 1).raise0 35 := by
    rw [State.markerAct, State.followsPartner_of_alone hfol, hstep, hwe, hwq, hwp, ← hx]
    rfl
  obtain ⟨u, hu, hr, ho⟩ := s.done_onlyRaising (x := t) (t := w.markerAct (markerError s t m))
    (but := [⟨.TLK_STATUS, 0⟩, ⟨.TLK_RELOCK_OFS, 0⟩, ⟨.PLL_SPLL_STATUS, 0⟩, ⟨.PLL_SPLL_STATUS, 1⟩])
    (srcs := [33, 35, 40])
    (by rw [hact]; exact .raise0 (by simp) (.setFld (by simp) rfl (.step hxr (by simp) rfl (hw.only_at (by simp) (by simp)))))
  refine ⟨u, hexec.trans hu, ?_, ?_, ?_, fun hk => ?_, ho⟩
  · rw [hr.time, hact, State.raise0, State.raise_time, State.setFld_time, hxt, hw.time]
  · rw [State.flag, hr.fld _ _ rfl, hact]
    simp
  · rw [hr.tlk, hact, State.raise0, State.raise_tlk, State.setFld_tlk, hxs, hstep]
  · rw [hr.evtStatus (by decide), hact]
    refine State.raise0_hubSource rfl ?_
    rw [State.fld_setFld_ne _ _ _ _ _ _ (by simp), State.fld_of_reg (hxr.1 _ _ (by simp)),
      hw.fld (by simp) (by simp) (by simp), State.at_fld]
    exact hk

/-- Where LINK is active and the epoch is valid, a marker that is the first, or whose error lies beyond WINDOW, decides the
relock (R99). -/
theorem State.markerAct_relock (w : State) (e : Int) (hfol : w.epochFollows = false) (hstep : w.tlk.step = none)
    (he : w.flag Fld.TLK_STATUS_EPOCH_VALID 0 = true) (hact : w.active = 0)
    (h : w.tlk.fresh = true ∨ w.tlk.fresh = false ∧ w.fld Fld.TLK_RELOCK_WINDOW 0 < e.natAbs ∧ w.tlk.actSlew = false) :
    w.markerAct e = w.relock e := by
  rw [State.markerAct, State.followsPartner_of_alone hfol, hstep, he]
  rcases h with h | ⟨h1, h2, h3⟩
  · simp [hact, h]
  · simp [hact, h1, h3, Nat.not_le.2 h2]

theorem State.relock_step (w : State) (e : Int) (hfol : w.epochFollows = false)
    (hwin : w.fld Fld.TLK_RELOCK_WINDOW 0 < e.natAbs) (hpol : w.flag Fld.TLK_RELOCK_POLICY 0 = false) :
    ∃ x, w.relock e = { x with tlk := { x.tlk with step := some e, stepFrame := none } } ∧
      onlyRegs w x [⟨.TLK_STATUS, 0⟩] ∧ x.fld Fld.TLK_STATUS_RELOCK_STATE 0 = 0 := by
  have hf : (({ w with tlk := { w.tlk with fresh := false, actSlew := false } } : State).setFld
      Fld.TLK_STATUS_RELOCK_STATE 0 0).epochFollows = false := by
    rw [← hfol]
    exact State.epochFollows_of_fld (by simp) (by simp) (by simp)
  refine ⟨({ w with tlk := { w.tlk with fresh := false, actSlew := false } } : State).setFld
      Fld.TLK_STATUS_RELOCK_STATE 0 0, ?_, .setFld (by simp) (.of_eq rfl rfl (.refl _ _)), by simp⟩
  rw [State.relock, if_neg (Nat.not_le.2 hwin), hpol, ← State.decideStep_alone _ _ hf]
  rfl

theorem State.relock_hold (w : State) (e : Int) (hact : w.active = 0)
    (hwin : w.fld Fld.TLK_RELOCK_WINDOW 0 < e.natAbs) (hpol : w.flag Fld.TLK_RELOCK_POLICY 0 = true) :
    ∃ x : State, w.relock e = (x.setFld Fld.TLK_STATUS_RELOCK_STATE 0 2).raise0 37 ∧
      onlyRaising w x sourceRegs [1, 64] ∧ x.tlk.step = w.tlk.step ∧ x.active = 2 := by
  obtain ⟨y, hy⟩ : ∃ y : State, y = { w with tlk := { w.tlk with fresh := false, actSlew := false } } := ⟨_, rfl⟩
  have hyo : onlyRaising w y sourceRegs [1, 64] := hy ▸ .of_eq rfl rfl (.refl _ _ _)
  have hya : y.active = 0 := by rw [hy, State.active]; simpa [State.active] using hact
  refine ⟨(y.toCoast false).raise0 1, ?_, .raise0 (by simp) (State.toCoast_only (by simp) (by simp [sourceRegs])
    (by simp [sourceRegs]) hyo), ?_, ?_⟩
  · rw [State.relock, if_neg (Nat.not_le.2 hwin), hpol, if_pos rfl, ← hy, if_pos hya]
  · rw [State.raise0, State.raise_tlk, State.toCoast_tlk, hy]
  · rw [State.active, State.raise0_fld_of _ _ _ _ rfl]
    exact (y.toCoast_reads false).1

theorem State.slew_beyondTol (w : State) (e : Int) (act : Bool) (htol : w.fld Fld.TLK_MARK_TOL 0 < e.natAbs) :
    w.slew e act = { w.setFld Fld.TLK_STATUS_RELOCK_STATE 0 1 with
      tlk := { w.tlk with actSlew := act, fresh := false, slew := some (e, w.time) } } := by
  rw [State.slew, State.withinTol, decide_eq_false (Nat.not_le.2 htol)]
  rfl

/-- An error beyond WINDOW decides a STEP under policy 0 (R99). -/
theorem tlkTick_policy_step (t : Tu) {m : BitVec 64} (h : tickIn s m) (he : s.flag Fld.TLK_STATUS_EPOCH_VALID 0 = true)
    (hact : s.active = 0) (hfresh : s.tlk.fresh = false)
    (hwin : s.fld Fld.TLK_RELOCK_WINDOW 0 < (markerError s t m).natAbs) (hslew : s.tlk.actSlew = false)
    (hpol : s.flag Fld.TLK_RELOCK_POLICY 0 = false) :
    ∃ u, exec (.tlkTick t m) s = .next u ∧ u.tlk.step = some (markerError s t m) ∧ u.relockState = 0 ∧
          u.active = 0 ∧ onlyRaising s u [⟨.TLK_STATUS, 0⟩, ⟨.TLK_RELOCK_OFS, 0⟩] [33, 40] := by
  obtain ⟨w, hexec, hw, hfol, hstep⟩ := tlkTick_eq t h
  obtain ⟨-, -, hwf, hws⟩ := hw.tlk
  have hf : ∀ f i, f.reg ≠ .TLK_STATUS → f.reg ≠ .TLK_RELOCK_OFS → eventReg f.reg = false → w.fld f i = s.fld f i :=
    fun f i h1 h2 h3 => (hw.fld h1 h2 h3).trans (State.at_fld _ _ _ _)
  have hwe : w.flag Fld.TLK_STATUS_EPOCH_VALID 0 = true := by
    rw [State.flag, hw.low _ rfl (by decide), State.at_fld]; exact he
  have hwa : w.active = 0 := (hf _ _ (by simp) (by simp) (by simp)).trans hact
  have hww : w.fld Fld.TLK_RELOCK_WINDOW 0 < (markerError s t m).natAbs := by
    rw [hf _ _ (by simp) (by simp) (by simp)]; exact hwin
  obtain ⟨x, hx, hxr, hx0⟩ := w.relock_step (markerError s t m) hfol hww (by
    rw [State.flag, hf _ _ (by simp) (by simp) (by simp)]; exact hpol)
  have hacts := (w.markerAct_relock (markerError s t m) hfol hstep hwe hwa
    (.inr ⟨by rw [hwf, State.at_tlk, hfresh], hww, by rw [hws, State.at_tlk, hslew]⟩)).trans hx
  obtain ⟨u, hu, hr, ho⟩ := s.done_onlyRaising (x := t) (t := w.markerAct (markerError s t m))
    (by rw [hacts]; exact .of_eq rfl rfl (.step hxr (by simp) rfl hw.only))
  refine ⟨u, hexec.trans hu, ?_, ?_, ?_, ho⟩
  · rw [hr.tlk, hacts]
  · rw [State.relockState, hr.fld _ _ rfl, hacts]
    exact hx0
  · rw [State.active, hr.fld _ _ rfl, hacts]
    exact (State.fld_of_reg (hxr.1 _ _ (by simp))).trans hwa

/-- An error beyond WINDOW holds under policy 1 (R99). -/
theorem tlkTick_policy_hold (t : Tu) {m : BitVec 64} (h : tickIn s m) (he : s.flag Fld.TLK_STATUS_EPOCH_VALID 0 = true)
    (hact : s.active = 0) (hfresh : s.tlk.fresh = false)
    (hwin : s.fld Fld.TLK_RELOCK_WINDOW 0 < (markerError s t m).natAbs) (hslew : s.tlk.actSlew = false)
    (hpol : s.flag Fld.TLK_RELOCK_POLICY 0 = true) :
    ∃ u, exec (.tlkTick t m) s = .next u ∧ u.tlk.step = none ∧ u.relockState = 2 ∧ u.active = 2 ∧
          (s.fld Fld.EVT_ROUTE_KIND 37 ≠ 1 → u.evtStatus 37 = true) ∧
          onlyRaising s u (⟨.TLK_RELOCK_OFS, 0⟩ :: sourceRegs) [1, 33, 37, 40, 64] := by
  obtain ⟨w, hexec, hw, hfol, hstep⟩ := tlkTick_eq t h
  obtain ⟨-, -, hwf, hws⟩ := hw.tlk
  have hf : ∀ f i, f.reg ≠ .TLK_STATUS → f.reg ≠ .TLK_RELOCK_OFS → eventReg f.reg = false → w.fld f i = s.fld f i :=
    fun f i h1 h2 h3 => (hw.fld h1 h2 h3).trans (State.at_fld _ _ _ _)
  have hwe : w.flag Fld.TLK_STATUS_EPOCH_VALID 0 = true := by
    rw [State.flag, hw.low _ rfl (by decide), State.at_fld]; exact he
  have hwa : w.active = 0 := (hf _ _ (by simp) (by simp) (by simp)).trans hact
  have hww : w.fld Fld.TLK_RELOCK_WINDOW 0 < (markerError s t m).natAbs := by
    rw [hf _ _ (by simp) (by simp) (by simp)]; exact hwin
  obtain ⟨x, hx, hxo, hxs, hxa⟩ := w.relock_hold (markerError s t m) hwa hww (by
    rw [State.flag, hf _ _ (by simp) (by simp) (by simp)]; exact hpol)
  have hacts := (w.markerAct_relock (markerError s t m) hfol hstep hwe hwa
    (.inr ⟨by rw [hwf, State.at_tlk, hfresh], hww, by rw [hws, State.at_tlk, hslew]⟩)).trans hx
  obtain ⟨u, hu, hr, ho⟩ := s.done_onlyRaising (x := t) (t := w.markerAct (markerError s t m))
    (but := ⟨.TLK_RELOCK_OFS, 0⟩ :: sourceRegs) (srcs := [1, 33, 37, 40, 64])
    (by rw [hacts]; exact .raise0 (by simp) (.setFld (by simp [sourceRegs]) rfl (.and_then hxo (by simp) (by simp)
      (hw.only_at (by simp [sourceRegs]) (by simp)))))
  refine ⟨u, hexec.trans hu, ?_, ?_, ?_, fun hk => ?_, ho⟩
  · rw [hr.tlk, hacts, State.raise0, State.raise_tlk, State.setFld_tlk, hxs, hstep]
  · rw [State.relockState, hr.fld _ _ rfl, hacts]
    simp
  · rw [State.active, hr.fld _ _ rfl, hacts, State.raise0_fld_of _ _ _ _ rfl, State.fld_setFld_ne _ _ _ _ _ _ (by simp)]
    exact hxa
  · rw [hr.evtStatus (by decide), hacts]
    refine State.raise0_hubSource rfl ?_
    rw [State.fld_setFld_ne _ _ _ _ _ _ (by simp), hxo.fld (by simp [sourceRegs]) rfl,
      hf _ _ (by simp) (by simp) (by simp)]
    exact hk

/-- The first marker after a switch to LINK starts a slew where its error is within WINDOW (R99). -/
theorem tlkTick_slews (t : Tu) {m : BitVec 64} (h : tickIn s m) (he : s.flag Fld.TLK_STATUS_EPOCH_VALID 0 = true)
    (hact : s.active = 0) (hfresh : s.tlk.fresh = true)
    (hwin : (markerError s t m).natAbs ≤ s.fld Fld.TLK_RELOCK_WINDOW 0)
    (htol : s.fld Fld.TLK_MARK_TOL 0 < (markerError s t m).natAbs) :
    ∃ u, exec (.tlkTick t m) s = .next u ∧ u.tlk.step = none ∧ u.relockState = 1 ∧ u.tlk.fresh = false ∧
        onlyRaising s u [⟨.TLK_STATUS, 0⟩, ⟨.TLK_RELOCK_OFS, 0⟩] [33, 40] := by
  obtain ⟨w, hexec, hw, hfol, hstep⟩ := tlkTick_eq t h
  obtain ⟨-, -, hwf, -⟩ := hw.tlk
  have hf : ∀ f i, f.reg ≠ .TLK_STATUS → f.reg ≠ .TLK_RELOCK_OFS → eventReg f.reg = false → w.fld f i = s.fld f i :=
    fun f i h1 h2 h3 => (hw.fld h1 h2 h3).trans (State.at_fld _ _ _ _)
  have hwe : w.flag Fld.TLK_STATUS_EPOCH_VALID 0 = true := by
    rw [State.flag, hw.low _ rfl (by decide), State.at_fld]; exact he
  have hwa : w.active = 0 := (hf _ _ (by simp) (by simp) (by simp)).trans hact
  obtain ⟨y, hy⟩ : ∃ y : State, y = { w with tlk := { w.tlk with fresh := false, actSlew := false } } := ⟨_, rfl⟩
  have hyf : ∀ f i, y.fld f i = w.fld f i := fun f i => by rw [hy]; simp
  have hyo : onlyRaising (s.at t) y [⟨.TLK_STATUS, 0⟩, ⟨.TLK_RELOCK_OFS, 0⟩] [33, 40] := by
    rw [hy]
    exact .of_eq rfl rfl hw.only
  have hacts : w.markerAct (markerError s t m) = { y.setFld Fld.TLK_STATUS_RELOCK_STATE 0 1 with
      tlk := { y.tlk with actSlew := false, fresh := false, slew := some (markerError s t m, y.time) } } := by
    rw [w.markerAct_relock (markerError s t m) hfol hstep hwe hwa (.inl (by rw [hwf, State.at_tlk, hfresh])),
      State.relock, if_pos (by rw [hf _ _ (by simp) (by simp) (by simp)]; exact hwin), ← hy, State.slew_beyondTol]
    rw [hyf, hf _ _ (by simp) (by simp) (by simp)]
    exact htol
  obtain ⟨u, hu, hr, ho⟩ := s.done_onlyRaising (x := t) (t := w.markerAct (markerError s t m))
    (but := [⟨.TLK_STATUS, 0⟩, ⟨.TLK_RELOCK_OFS, 0⟩]) (srcs := [33, 40])
    (by rw [hacts]; exact .of_eq rfl rfl (.setFld (f := Fld.TLK_STATUS_RELOCK_STATE) (x := 1) (t := y) (by simp) rfl hyo))
  refine ⟨u, hexec.trans hu, ?_, ?_, ?_, ho⟩
  · rw [hr.tlk, hacts, hy]
    exact hstep
  · rw [State.relockState, hr.fld _ _ rfl, hacts]
    simp
  · rw [hr.tlk, hacts]

end Sys2Proof.Machine
end

section
/-! SUPPORT. The host's actions in HOLD, the end of a slew, and what markers do (R89, R99, R101, R102). -/

namespace Sys2Proof.Machine

variable {s t u : State} {but : List Reg} {srcs : List Nat}

@[simp] theorem State.at_relockState (s : State) (t : Tu) : (s.at t).relockState = s.relockState := State.at_fld _ _ _ _

theorem State.switchTo_link_tlk (s : State) :
    (s.switchTo 0).tlk.step = s.tlk.step ∧ (s.switchTo 0).tlk.lastE = s.tlk.lastE := by
  simp [State.switchTo, State.relockIdle, State.setActive, State.jpllUnlock, State.raise0]
  split <;> simp

/-- The switch to LINK that the host's action completes: LINK is active, and no relock is under way. -/
def State.linkTaken (s : State) : State :=
  { s.switchTo 0 with tlk := { (s.switchTo 0).tlk with fresh := false } }

theorem State.linkTaken_reads (s : State) :
    s.linkTaken.active = 0 ∧ s.linkTaken.relockState = 0 ∧ s.linkTaken.tlk.step = s.tlk.step ∧
      (s.fld Fld.EVT_ROUTE_KIND 2 ≠ 1 → s.linkTaken.evtStatus 2 = true) := by
  obtain ⟨h1, -, h3, -, h5⟩ := s.switchTo_reads (x := 0) (by decide)
  exact ⟨h1, h3, s.switchTo_link_tlk.1, h5⟩

theorem State.linkTaken_only (s : State) : onlyRaising s s.linkTaken sourceRegs [2, 64] :=
  .of_eq rfl rfl (State.switchTo_only (by simp) (by simp) (by simp [sourceRegs]) (by simp [sourceRegs])
    (by simp [sourceRegs]) (.refl s _ _))

theorem State.linkTaken_fld (s : State) {f : Fld} {i : Nat} (hf : ⟨f.reg, i⟩ ∉ sourceRegs)
    (he : eventReg f.reg = false) : s.linkTaken.fld f i = s.fld f i := s.linkTaken_only.fld hf he

theorem State.linkTaken_follows (s : State) : s.linkTaken.epochFollows = s.epochFollows :=
  State.epochFollows_of_fld (s.linkTaken_fld (by simp [sourceRegs]) rfl) (s.linkTaken_fld (by simp [sourceRegs]) rfl)
    (s.linkTaken_fld (by simp [sourceRegs]) rfl)

/-- In HOLD an action that is taken completes the switch, and steps or slews (R101). -/
theorem State.relockAct_eq (step : Bool) (hr : s.relockState = 2) (hs : step = true ∨ s.tlk.lastE.natAbs ≤ 8192000) :
    s.relockAct step =
      if step then s.linkTaken.decideStep s.tlk.lastE else s.linkTaken.slew s.tlk.lastE true := by
  rw [State.relockAct, if_pos ⟨hr, hs⟩]
  rfl

theorem State.relockAct_refused (step : Bool) (h : ¬ (s.relockState = 2 ∧ (step = true ∨ s.tlk.lastE.natAbs ≤ 8192000))) :
    s.relockAct step = s := if_neg h

/-- In HOLD the host's STEP (R101). -/
theorem relockActStep_steps (t : Tu) (hup : s.hostUp = true) (hr : s.relockState = 2) (hfol : s.epochFollows = false) :
    ∃ u, exec (.relockActStep t) s = .next u ∧ u.active = 0 ∧ u.relockState = 0 ∧ u.tlk.step = some s.tlk.lastE ∧
      (s.fld Fld.EVT_ROUTE_KIND 2 ≠ 1 → u.evtStatus 2 = true) ∧ onlyRaising s u sourceRegs [2, 64] := by
  obtain ⟨h1, h2, -, h4⟩ := (s.at t).linkTaken_reads
  have hfol' : (s.at t).linkTaken.epochFollows = false := by
    rw [State.linkTaken_follows, State.epochFollows_of_fld (s := s) (State.at_fld ..) (State.at_fld ..) (State.at_fld ..),
      hfol]
  have hacts : (s.at t).relockAct true = { (s.at t).linkTaken with
      tlk := { (s.at t).linkTaken.tlk with step := some s.tlk.lastE, stepFrame := none } } := by
    rw [State.relockAct_eq true (by rw [State.at_relockState, hr]) (.inl rfl), if_pos rfl,
      State.decideStep_alone _ _ hfol', State.at_tlk]
  obtain ⟨u, hu, hn, ho⟩ := s.done_onlyRaising (x := t) (t := (s.at t).relockAct true) (but := sourceRegs)
    (srcs := [2, 64]) (by rw [hacts]; exact .of_eq rfl rfl (s.at t).linkTaken_only)
  refine ⟨u, ?_, ?_, ?_, ?_, fun hk => ?_, ho⟩
  · rw [exec, execRelockActStep, State.whenHost_eq hup]
    exact hu
  · rw [State.active, hn.fld _ _ rfl, hacts]
    exact h1
  · rw [State.relockState, hn.fld _ _ rfl, hacts]
    exact h2
  · rw [hn.tlk, hacts]
  · rw [hn.evtStatus (by decide), hacts]
    exact h4 (by rw [State.at_fld]; exact hk)

/-- In HOLD the host's SLEW (R101). -/
theorem relockActSlew_slews (t : Tu) (hup : s.hostUp = true) (hr : s.relockState = 2)
    (he : s.tlk.lastE.natAbs ≤ 8192000) (htol : s.fld Fld.TLK_MARK_TOL 0 < s.tlk.lastE.natAbs) :
    ∃ u, exec (.relockActSlew t) s = .next u ∧ u.active = 0 ∧ u.relockState = 1 ∧ u.tlk.step = s.tlk.step ∧
      (s.fld Fld.EVT_ROUTE_KIND 2 ≠ 1 → u.evtStatus 2 = true) ∧ onlyRaising s u sourceRegs [2, 64] := by
  obtain ⟨h1, -, h3, h4⟩ := (s.at t).linkTaken_reads
  have hacts : (s.at t).relockAct false = { (s.at t).linkTaken.setFld Fld.TLK_STATUS_RELOCK_STATE 0 1 with
      tlk := { (s.at t).linkTaken.tlk with
        actSlew := true, fresh := false, slew := some (s.tlk.lastE, (s.at t).linkTaken.time) } } := by
    rw [State.relockAct_eq false (by rw [State.at_relockState, hr]) (.inr (by rw [State.at_tlk]; exact he)),
      if_neg Bool.false_ne_true, State.at_tlk, State.slew_beyondTol]
    rw [State.linkTaken_fld _ (by simp [sourceRegs]) rfl, State.at_fld]
    exact htol
  obtain ⟨u, hu, hn, ho⟩ := s.done_onlyRaising (x := t) (t := (s.at t).relockAct false) (but := sourceRegs)
    (srcs := [2, 64]) (by
      rw [hacts]
      exact .of_eq rfl rfl (.setFld (f := Fld.TLK_STATUS_RELOCK_STATE) (x := 1) (t := (s.at t).linkTaken)
        (by simp [sourceRegs]) rfl (s.at t).linkTaken_only))
  refine ⟨u, ?_, ?_, ?_, ?_, fun hk => ?_, ho⟩
  · rw [exec, execRelockActSlew, State.whenHost_eq hup]
    exact hu
  · rw [State.active, hn.fld _ _ rfl, hacts]
    simpa [State.active] using h1
  · rw [State.relockState, hn.fld _ _ rfl, hacts]
    simp
  · rw [hn.tlk, hacts]
    exact h3.trans (congrArg Tlk.step (State.at_tlk s t))
  · rw [hn.evtStatus (by decide), hacts]
    simpa using h4 (by rw [State.at_fld]; exact hk)

/-- Nothing but time changes. -/
theorem State.done_at (s : State) (t : Tu) :
    s.done (s.at t) = .next (s.at t) ∧ (s.at t).tlk = s.tlk ∧ onlyRegs s (s.at t) [] :=
  ⟨(State.done_onlyRegs (.refl _ []) rfl).1, State.at_tlk _ _, .at (.refl _ _)⟩

theorem relockActStep_refused (t : Tu) (hup : s.hostUp = true) (hr : s.relockState ≠ 2) :
    ∃ u, exec (.relockActStep t) s = .next u ∧ u.tlk = s.tlk ∧ onlyRegs s u [] := by
  refine ⟨_, ?_, (s.done_at t).2⟩
  rw [exec, execRelockActStep, State.whenHost_eq hup, State.relockAct_refused, (s.done_at t).1]
  rw [State.at_relockState]
  exact fun h => hr h.1

theorem relockActSlew_refused (t : Tu) (hup : s.hostUp = true)
    (hr : ¬ (s.relockState = 2 ∧ s.tlk.lastE.natAbs ≤ 8192000)) :
    ∃ u, exec (.relockActSlew t) s = .next u ∧ u.tlk = s.tlk ∧ onlyRegs s u [] := by
  refine ⟨_, ?_, (s.done_at t).2⟩
  rw [exec, execRelockActSlew, State.whenHost_eq hup, State.relockAct_refused, (s.done_at t).1]
  rw [State.at_relockState, State.at_tlk]
  simpa using hr

/-- A slew ends once the error is within TOL (R99). -/
theorem tlkSlewDone_ends (t : Tu) (ha : s.alive = true) (hr : s.relockState = 1)
    (hl : (s.at t).slewLeft ≤ 15625 * s.fld Fld.TLK_MARK_TOL 0) :
    ∃ u, exec (.tlkSlewDone t) s = .next u ∧ u.relockState = 0 ∧
      (s.fld Fld.EVT_ROUTE_KIND 38 ≠ 1 → u.evtStatus 38 = true) ∧ onlyRaising s u [⟨.TLK_STATUS, 0⟩] [38] := by
  obtain ⟨u, hu, hn, ho⟩ := s.done_onlyRaising (x := t) (t := (s.at t).slewDone) (but := [⟨.TLK_STATUS, 0⟩])
    (srcs := [38]) (.raise0 (by simp) (State.relockIdle_only (by simp) (.refl _ _ _)))
  refine ⟨u, ?_, ?_, fun hk => ?_, ho⟩
  · rw [exec, execTlkSlewDone, State.when_eq ha, State.at_relockState, State.at_fld, if_pos ⟨hr, hl⟩]
    exact hu
  · rw [State.relockState, hn.fld _ _ rfl, State.slewDone]
    simp [State.relockIdle]
  · rw [hn.evtStatus (by decide)]
    refine State.raise0_hubSource rfl ?_
    rw [State.relockIdle_fld_ne _ _ _ (by simp), State.at_fld]
    exact hk

theorem tlkSlewDone_waits (t : Tu) (ha : s.alive = true) (hl : 15625 * s.fld Fld.TLK_MARK_TOL 0 < (s.at t).slewLeft) :
    exec (.tlkSlewDone t) s = .next (s.at t) := by
  rw [exec, execTlkSlewDone, State.when_eq ha, State.at_fld, if_neg fun h => absurd h.2 (Nat.not_le.2 hl),
    (s.done_at t).1]

theorem relockActions_hold : relockActions := by
  intro s t hup
  have ha := State.alive_of_hostUp hup
  exact ⟨relockActStep_steps t hup, relockActSlew_slews t hup,
    fun _ he => relockActSlew_refused t hup fun h => absurd h.2 (Nat.not_le.2 he),
    fun hr => ⟨relockActStep_refused t hup hr, relockActSlew_refused t hup fun h => hr h.1⟩,
    tlkSlewDone_ends t ha, tlkSlewDone_waits t ha⟩

theorem markersSteerTime_hold : markersSteerTime := by
  intro s t m h
  exact ⟨tlkTick_shows t h, tlkTick_epoch_step t h, tlkTick_epoch_set t h,
    fun he hact hfresh hwin hslew => ⟨tlkTick_policy_step t h he hact hfresh hwin hslew,
      tlkTick_policy_hold t h he hact hfresh hwin hslew⟩,
    tlkTick_slews t h⟩

/-- Settles O18: each kind of marker and each action by its own theorem. -/
theorem markersSteerTime : Obligations.MarkersSteerTime := ⟨markersSteerTime_hold, relockActions_hold⟩

end Sys2Proof.Machine
end

section
/-! SUPPORT. What a raise leaves of its own source, and the event registers (R349 to R358). -/

namespace Sys2Proof.Machine

variable {s t u : State} {but : List Reg} {srcs : List Nat}

/-! ### A raise -/

/-- STATUS, DATA and CNT of a source that is raised, before the log and the delivery. -/
def State.raiseMarks (s : State) (n causes info : Nat) : State :=
  let s1 := (s.setStatus n true).setFld Fld.EVT_DATA_CAUSES n (s.fld Fld.EVT_DATA_CAUSES n ||| (causes % 2 ^ 16))
  (if s.fld Fld.EVT_DATA_CAUSES n = 0 then s1.setFld Fld.EVT_DATA_INFO n info else s1).bump Fld.EVT_CNT_COUNT n 1

theorem State.deliver_keeps (n : Nat) (hk : s.fld Fld.EVT_ROUTE_KIND n ≠ 1) : Raises s (s.deliver n) [] := by
  unfold State.deliver
  dsimp only
  rw [if_neg hk]
  exact .ite (State.signal_raises _) (.ite (.ite (State.used_raises.trans (State.addPulse_raises _ _)) (.refl _ _))
    (State.tlkSend_raises _))

theorem State.setStatus_fld (s : State) (n : Nat) (b : Bool) (f : Fld) (i : Nat) (h : f.reg ≠ .EVT_STATUS) :
    (s.setStatus n b).fld f i = s.fld f i := s.fld_setReg_ne _ _ _ _ _ h

/-- The marks of a raise: the causes accumulate, the first information stays, the counter counts. -/
theorem State.raiseMarks_reads (s : State) (n causes info : Nat) :
    (s.raiseMarks n causes info).evtStatus n = true ∧
    (s.raiseMarks n causes info).fld Fld.EVT_DATA_CAUSES n = s.fld Fld.EVT_DATA_CAUSES n ||| causes % 2 ^ 16 ∧
    (s.raiseMarks n causes info).fld Fld.EVT_DATA_INFO n =
      (if s.fld Fld.EVT_DATA_CAUSES n = 0 then info % 2 ^ 16 else s.fld Fld.EVT_DATA_INFO n) ∧
    (s.raiseMarks n causes info).fld Fld.EVT_CNT_COUNT n =
      min (s.fld Fld.EVT_CNT_COUNT n + 1) (2 ^ Fld.EVT_CNT_COUNT.width - 1) ∧
    (s.raiseMarks n causes info).fld Fld.EVT_ROUTE_KIND n = s.fld Fld.EVT_ROUTE_KIND n := by
  have hor : (s.fld Fld.EVT_DATA_CAUSES n ||| causes % 65536) % 65536 =
      s.fld Fld.EVT_DATA_CAUSES n ||| causes % 65536 :=
    Nat.mod_eq_of_lt (Nat.or_lt_two_pow (n := 16) (s.fld_lt _ _) (Nat.mod_lt _ (by decide)))
  have hst := State.evtStatus_setStatus (s := s) n true
  unfold State.raiseMarks
  split <;> simp [State.setStatus_fld, hor, hst]

/-- After its marks a raise of a source that Basecamp does not take changes nothing of the sources. -/
theorem State.raise_raiseMarks {n : Nat} (causes info : Nat) (hv : evtValid n = true) (ha : s.evtAsleep n = false)
    (hq : s.evtAbsent n = false) (hk : s.fld Fld.EVT_ROUTE_KIND n ≠ 1) :
    Raises (s.raiseMarks n causes info) (s.raise n causes info) [] := by
  obtain ⟨-, -, -, -, hkm⟩ := s.raiseMarks_reads n causes info
  unfold State.raise
  rw [hv, ha, hq]
  dsimp only
  rw [if_neg (by decide : ¬ (!true || false || false) = true)]
  have hnote : ∀ (x : State) (c : Bool) (v : Word) (r : Tab RaiseMark), x.fld Fld.EVT_ROUTE_KIND n ≠ 1 →
      Raises x (if c then (if loggedSource n then ({ x with evt := { x.evt with raises := r } } : State).logRaise n v
        else { x with evt := { x.evt with raises := r } }).deliver n
        else if loggedSource n then ({ x with evt := { x.evt with raises := r } } : State).logRaise n v
        else { x with evt := { x.evt with raises := r } }) [] := by
    intro x c v r hx
    have h1 : Raises x { x with evt := { x.evt with raises := r } } [] :=
      ⟨fun _ _ _ => rfl, fun _ _ => ⟨rfl, rfl, rfl⟩, _, _, _, _, _, _, _, _, _, _, _, rfl⟩
    have h2 := h1.trans (.ite (c := loggedSource n = true) (State.logRaise_raises n v) (.refl _ _))
    exact .ite (h2.trans (State.deliver_keeps n (by rw [h2.fld _ _ rfl]; exact hx))) h2
  exact hnote (s.raiseMarks n causes info) _ _ _ (by rw [hkm]; exact hk)

theorem Raises.sameSource_fld {f : Fld} {n : Nat} (h : sameSource s t n) (hf : f.reg = .EVT_DATA ∨ f.reg = .EVT_CNT) :
    t.fld f n = s.fld f n := by
  obtain ⟨-, h2, h3⟩ := h
  rcases hf with hf | hf
  · exact State.fld_of_reg (by rw [hf]; exact h2)
  · exact State.fld_of_reg (by rw [hf]; exact h3)

/-- Settles O46: what the marks of the raise show, no delivery changes. -/
theorem raiseSetsStatus : Obligations.RaiseSetsStatus := by
  intro s n causes info _ hv ha hq hk
  obtain ⟨h1, h2, h3, h4, -⟩ := s.raiseMarks_reads n causes info
  have hr := (State.raise_raiseMarks causes info hv ha hq hk).src n List.not_mem_nil
  have hinfo : (s.raise n causes info).fld Fld.EVT_DATA_INFO n = (s.raiseMarks n causes info).fld Fld.EVT_DATA_INFO n :=
    Raises.sameSource_fld hr (.inl rfl)
  refine ⟨hr.1.trans h1, (Raises.sameSource_fld hr (.inl rfl)).trans h2, fun h0 => ?_, fun h0 => ?_,
    (Raises.sameSource_fld hr (.inr rfl)).trans h4,
    fun k hkn => (State.raise_raises n causes info).src k (List.mem_singleton.not.2 hkn)⟩
  · rw [hinfo, h3, if_pos h0]
  · rw [hinfo, h3, if_neg h0]

/-! ### STATUS and ENABLE (R349, R351, R353) -/

theorem mem_bitsOf {n x b : Nat} : b ∈ bitsOf n x ↔ b < n ∧ x.testBit b = true := by
  simp [bitsOf]

/-- A command that changes neither a merge count nor the count of dropped log entries ends without a note. -/
theorem State.done_of_counts {x : Tu} (h : onlyRegs (s.at x) t but)
    (hb : (but.all fun r => r.n ≠ .HUB_TRIG_OUT_MERGED && r.n ≠ .MGT_LOG_DROP) = true) :
    s.done t = .next t ∧ onlyRegs s t but := by
  have hreg : ∀ n i, (n = .HUB_TRIG_OUT_MERGED ∨ n = .MGT_LOG_DROP) → t.reg n i = s.reg n i := fun n i hn => by
    refine h.at.1 n i fun hm => ?_
    have := List.all_eq_true.1 hb _ hm
    rcases hn with rfl | rfl <;> simp at this
  exact ⟨State.done_quiet (fun i => hreg _ i (.inl rfl)) (hreg _ 0 (.inr rfl)), h.at⟩

/-- The source was not raised in the controller cycle that contains now. -/
def State.notJustRaised (s : State) (n : Nat) : Prop :=
  (s.evt.raises.any fun e => e.1 == n) = true → (tget ⟨0, false⟩ s.evt.raises n).cycle ≠ s.evtCycle

theorem State.clearStatus_eq {n : Nat} (h : s.notJustRaised n) : s.clearStatus n = s.setStatus n false := by
  unfold State.clearStatus
  dsimp only
  rw [if_neg]
  rw [Bool.and_eq_true, beq_iff_eq]
  exact fun hh => h hh.1 hh.2

theorem State.setStatus_word (s : State) (w b : Nat) (v : Bool) (hb : b < 32) :
    s.setStatus (32 * w + b) v = s.setReg .EVT_STATUS w (putBits (s.reg .EVT_STATUS w) b 1 v.toNat) := by
  rw [State.setStatus, show (32 * w + b) / 32 = w by omega, show (32 * w + b) % 32 = b by omega]

theorem State.evtStatus_word (s : State) (w b : Nat) (hb : b < 32) :
    s.evtStatus (32 * w + b) = (s.reg .EVT_STATUS w).getLsbD b := by
  rw [State.evtStatus, show (32 * w + b) / 32 = w by omega, show (32 * w + b) % 32 = b by omega]

/-- Clearing the STATUS bits of a word one after the other. -/
theorem State.foldl_clear (w : Nat) (l : List Nat) (hl : ∀ b ∈ l, b < 32 ∧ s.notJustRaised (32 * w + b)) :
    let x := l.foldl (fun s b => if s.evtStatus (32 * w + b) then s.clearStatus (32 * w + b) else s) s
    onlyRegs s x [⟨.EVT_STATUS, w⟩] ∧
      ∀ j, j < 32 → (x.reg .EVT_STATUS w).getLsbD j = ((s.reg .EVT_STATUS w).getLsbD j && !l.contains j) := by
  induction l generalizing s with
  | nil => exact ⟨.refl _ _, fun j _ => by simp⟩
  | cons b l ih =>
    obtain ⟨hb, hn⟩ := hl b (List.mem_cons_self ..)
    obtain ⟨y, hy⟩ : ∃ y, y = if s.evtStatus (32 * w + b) then s.clearStatus (32 * w + b) else s := ⟨_, rfl⟩
    have hyo : onlyRegs s y [⟨.EVT_STATUS, w⟩] ∧ y.evt = s.evt ∧ y.time = s.time ∧
        ∀ j, j < 32 → (y.reg .EVT_STATUS w).getLsbD j = ((s.reg .EVT_STATUS w).getLsbD j && j != b) := by
      rw [hy, State.clearStatus_eq hn, State.setStatus_word _ _ _ _ hb, State.evtStatus_word _ _ _ hb]
      split
      · refine ⟨.setReg (by simp) (.refl _ _), by simp, by simp, fun j hj => ?_⟩
        rw [State.reg_setReg_same, putBits_getLsbD, decide_eq_true hj, Bool.true_and]
        split
        · next h => obtain rfl : j = b := by omega
                    simp
        · next h => have : j ≠ b := by omega
                    simp [this]
      · next h =>
        refine ⟨.refl _ _, rfl, rfl, fun j hj => ?_⟩
        by_cases hjb : j = b
        · subst hjb; simp [h]
        · simp [hjb]
    obtain ⟨h1, h2, h3, h4⟩ := hyo
    have hcyc : y.evtCycle = s.evtCycle := by
      rw [State.evtCycle, State.evtCycle, h3, State.fld_of_reg (h1.1 _ _ (by simp))]
    obtain ⟨g1, g2⟩ := ih (s := y) fun j hj => by
      obtain ⟨hj1, hj2⟩ := hl j (List.mem_cons_of_mem _ hj)
      exact ⟨hj1, by unfold State.notJustRaised at hj2 ⊢; rw [h2, hcyc]; exact hj2⟩
    rw [List.foldl_cons, ← hy]
    refine ⟨h1.trans g1, fun j hj => ?_⟩
    rw [g2 j hj, h4 j hj, List.contains_cons]
    cases hb : (j == b) <;> simp [bne, hb]

theorem statusClears_holds : statusClears := by
  intro s t w v hup hnew
  obtain ⟨ho, hbit⟩ := (s.at t).foldl_clear w (bitsOf 32 v.toNat) fun b hb => by
    obtain ⟨h1, h2⟩ := mem_bitsOf.1 hb
    refine ⟨h1, fun hr => ?_⟩
    rw [State.at_evt] at hr ⊢
    exact hnew b h1 h2 hr
  obtain ⟨hd, ho⟩ := State.done_of_counts ho (by simp)
  refine ⟨_, ?_, BitVec.eq_of_getLsbD_eq fun j hj => ?_, ho⟩
  · rw [exec, execEvtStatusClear, State.whenHost_eq hup]
    exact hd
  · rw [hbit j hj]
    have : (bitsOf 32 v.toNat).contains j = v.getLsbD j := by
      rw [Bool.eq_iff_iff, List.contains_iff_mem, mem_bitsOf, BitVec.testBit_toNat]
      exact ⟨fun h => h.2, fun h => ⟨hj, h⟩⟩
    rw [this]
    simp [hj]

/-- The allocated bits of a written ENABLE word. -/
theorem enableBits (w : Nat) (l : List Nat) (hl : ∀ b ∈ l, b < 32) (m : Word) (j : Nat) (hj : j < 32) :
    (l.foldl (fun (m : Word) b => if evtValid (32 * w + b) then m ||| (1#32 <<< b) else m) m).getLsbD j =
      (m.getLsbD j || (l.contains j && evtValid (32 * w + j))) := by
  induction l generalizing m with
  | nil => simp
  | cons b l ih =>
    rw [List.foldl_cons, ih fun x hx => hl x (List.mem_cons_of_mem _ hx), List.contains_cons]
    have hbit : (1#32 <<< b).getLsbD j = (j == b) := by
      rw [BitVec.getLsbD_shiftLeft, BitVec.getLsbD_one, Bool.eq_iff_iff, beq_iff_eq]
      simp
      omega
    cases hjb : (j == b)
    · split <;> simp [hbit, hjb]
    · obtain rfl := beq_iff_eq.1 hjb
      split <;> simp_all

theorem State.writeEvtEnable_only (s : State) (w : Nat) (v : Word) :
    onlyRaising s (s.writeEvtEnable w v) [⟨.EVT_ENABLE, w⟩] ((List.range 32).map fun b => 32 * w + b) ∧
      ∀ b, b < 32 → (s.writeEvtEnable w v).evtEnable (32 * w + b) = (v.getLsbD b && evtValid (32 * w + b)) := by
  obtain ⟨new, hnew⟩ : ∃ new : Word, new = (bitsOf 32 v.toNat).foldl (fun (m : Word) b =>
      if evtValid (32 * w + b) then m ||| (1#32 <<< b) else m) 0 := ⟨_, rfl⟩
  have hbits : ∀ b, b < 32 → new.getLsbD b = (v.getLsbD b && evtValid (32 * w + b)) := fun b hb => by
    have hc : (bitsOf 32 v.toNat).contains b = v.getLsbD b := by
      rw [Bool.eq_iff_iff, List.contains_iff_mem, mem_bitsOf, BitVec.testBit_toNat]
      exact ⟨fun h => h.2, fun h => ⟨hb, h⟩⟩
    rw [hnew, enableBits w _ (fun x hx => (mem_bitsOf.1 hx).1) 0 b hb, hc]
    simp
  obtain ⟨l, hl, hlb⟩ : ∃ l, l = bitsOf 32 (new &&& ~~~s.reg .EVT_ENABLE w).toNat ∧ ∀ b ∈ l, b < 32 :=
    ⟨_, rfl, fun b hb => (mem_bitsOf.1 hb).1⟩
  have heq : s.writeEvtEnable w v = l.foldl (fun s b =>
      if s.evtStatus (32 * w + b) then s.deliver (32 * w + b) else s) (s.setReg .EVT_ENABLE w new) := by
    rw [hl, hnew]
    rfl
  have hr : Raises (s.setReg .EVT_ENABLE w new) (s.writeEvtEnable w v) (l.map fun b => 32 * w + b) := by
    rw [heq]
    clear heq hl
    generalize s.setReg .EVT_ENABLE w new = x
    induction l generalizing x with
    | nil => exact .refl _ _
    | cons b l ih =>
      refine .trans (.ite ((State.deliver_raises _).mono (by simp)) (.refl _ _))
        ((ih (fun y hy => hlb y (List.mem_cons_of_mem _ hy)) _).mono fun k hk => ?_)
      exact List.mem_cons_of_mem _ hk
  refine ⟨(onlyRaising.setReg (by simp) rfl (.refl s _ _)).trans (hr.only fun k hk => .inl ?_), fun b hb => ?_⟩
  · obtain ⟨b, hb, rfl⟩ := List.mem_map.1 hk
    exact List.mem_map.2 ⟨b, List.mem_range.2 (hlb b hb), rfl⟩
  · rw [State.evtEnable, show (32 * w + b) / 32 = w by omega, show (32 * w + b) % 32 = b by omega, hr.reg _ _ rfl,
      State.reg_setReg_same, hbits b hb]

/-- No source is delivered where none of the written bits has STATUS 1. -/
theorem State.writeEvtEnable_quiet (s : State) (w : Nat) (v : Word) (h : s.reg .EVT_STATUS w &&& v = 0) :
    ∃ new, s.writeEvtEnable w v = s.setReg .EVT_ENABLE w new := by
  obtain ⟨new, hnew⟩ : ∃ new : Word, new = (bitsOf 32 v.toNat).foldl (fun (m : Word) b =>
      if evtValid (32 * w + b) then m ||| (1#32 <<< b) else m) 0 := ⟨_, rfl⟩
  refine ⟨new, ?_⟩
  have hskip : ∀ l : List Nat, (∀ b ∈ l, b < 32 ∧ v.getLsbD b = true) → l.foldl (fun s b =>
      if s.evtStatus (32 * w + b) then s.deliver (32 * w + b) else s) (s.setReg .EVT_ENABLE w new) =
        s.setReg .EVT_ENABLE w new := by
    intro l hl
    induction l with
    | nil => rfl
    | cons b l ih =>
      obtain ⟨hb, hv⟩ := hl b (List.mem_cons_self ..)
      have hbit : (s.reg .EVT_STATUS w).getLsbD b = false := by
        have := congrArg (fun x : Word => x.getLsbD b) h
        simpa [hv] using this
      rw [List.foldl_cons, if_neg]
      · exact ih fun x hx => hl x (List.mem_cons_of_mem _ hx)
      · rw [State.evtStatus_setReg _ _ _ _ _ (by decide), State.evtStatus_word _ _ _ hb, hbit]
        exact Bool.false_ne_true
  have heq : s.writeEvtEnable w v = (bitsOf 32 (new &&& ~~~s.reg .EVT_ENABLE w).toNat).foldl (fun s b =>
      if s.evtStatus (32 * w + b) then s.deliver (32 * w + b) else s) (s.setReg .EVT_ENABLE w new) := by
    rw [hnew]
    rfl
  rw [heq]
  refine hskip _ fun b hb => ?_
  obtain ⟨h1, h2⟩ := mem_bitsOf.1 hb
  refine ⟨h1, ?_⟩
  rw [BitVec.testBit_toNat, BitVec.getLsbD_and, Bool.and_eq_true, hnew,
    enableBits w _ (fun x hx => (mem_bitsOf.1 hx).1) 0 b h1] at h2
  have hm : b ∈ bitsOf 32 v.toNat := by
    have := h2.1
    simp at this
    exact this.1
  exact (mem_bitsOf.1 hm).2

theorem enableAndData_holds : enableAndData := by
  intro s t hup
  refine ⟨fun w v => ?_, fun n => ?_⟩
  · obtain ⟨hon, hen⟩ := (s.at t).writeEvtEnable_only w v
    obtain ⟨u, hu, hr, ho⟩ := s.done_onlyRaising hon
    have hexec : exec (.evtEnableWrite t w v) s = s.done ((s.at t).writeEvtEnable w v) := by
      rw [exec, execEvtEnableWrite, State.whenHost_eq hup]
    refine ⟨u, hexec.trans hu, fun b hb => ?_, ho, fun h0 => ?_⟩
    · rw [State.evtEnable, hr.reg _ _ rfl]
      exact hen b hb
    · obtain ⟨new, hq⟩ := (s.at t).writeEvtEnable_quiet w v (by rw [State.at_reg]; exact h0)
      have hon' : onlyRegs (s.at t) ((s.at t).setReg .EVT_ENABLE w new) [⟨.EVT_ENABLE, w⟩] :=
        .setReg (by simp) (.refl _ _)
      obtain ⟨hd, ho'⟩ := State.done_onlyRegs hon' rfl
      rw [hq, hd] at hu
      cases hu
      exact ⟨by simp, ho'⟩
  · have hon : onlyRegs (s.at t) (((s.at t).emit (.readData (s.reg .EVT_DATA n))).setReg .EVT_DATA n 0)
        [⟨.EVT_DATA, n⟩] := .setReg (by simp) (.emit (.refl _ _))
    obtain ⟨hd, ho⟩ := State.done_of_counts hon (by simp)
    refine ⟨_, ?_, ?_, ?_, ho⟩
    · rw [exec, execEvtDataRead, State.whenHost_eq hup, State.at_reg]
      exact hd
    · simp [State.emit]
    · simp

/-- Settles O47: bit by bit for STATUS and ENABLE. -/
theorem eventRegistersAct : Obligations.EventRegistersAct := ⟨statusClears_holds, enableAndData_holds⟩

end Sys2Proof.Machine
end

section
/-! SUPPORT. The MSI-X vectors: arming, signalling, the pending bits (R356, R357). -/

namespace Sys2Proof.Machine

variable {s t u : State} {but : List Reg} {srcs : List Nat}

/-- Whether a vector is active hangs on STATUS, ENABLE and the routes. -/
theorem State.vecActive_of_reg {v : Nat}
    (h : ∀ n i, (n = .EVT_STATUS ∨ n = .EVT_ENABLE ∨ n = .EVT_ROUTE) → t.reg n i = s.reg n i) :
    t.vecActive v = s.vecActive v := by
  unfold State.vecActive
  congr 1
  funext n
  rw [State.evtStatus, State.evtStatus, State.evtEnable, State.evtEnable, h _ _ (by simp), h _ _ (by simp),
    State.fld_of_reg (h _ _ (.inr (.inr rfl))), State.fld_of_reg (h _ _ (.inr (.inr rfl)))]

theorem State.setArmed_only (s : State) (v : Nat) (b : Bool) :
    onlyRegs s (s.setArmed v b) [⟨.EVT_VEC_ARMED_LO, 0⟩, ⟨.EVT_VEC_ARMED_HI, 0⟩] :=
  .ite (.setReg (by simp) (.refl _ _)) (.setReg (by simp) (.refl _ _))

@[simp] theorem State.vecArmed_setArmed (s : State) {v : Nat} (b : Bool) (hv : v < 64) :
    (s.setArmed v b).vecArmed v = b := by
  unfold State.vecArmed State.setArmed
  split
  · next h =>
    rw [State.reg_setReg_same, putBits_getLsbD, decide_eq_true h, if_pos (by omega)]
    cases b <;> simp
  · next h =>
    rw [State.reg_setReg_same, putBits_getLsbD, decide_eq_true (by omega), if_pos (by omega)]
    cases b <;> simp

@[simp] theorem State.vecActive_setArmed (s : State) (v w : Nat) (b : Bool) :
    (s.setArmed w b).vecActive v = s.vecActive v :=
  State.vecActive_of_reg fun n i hn => (s.setArmed_only w b).1 n i (by rcases hn with rfl | rfl | rfl <;> simp)

@[simp] theorem State.setArmed_pba (s : State) (v : Nat) (b : Bool) : (s.setArmed v b).evt = s.evt := by
  unfold State.setArmed; split <;> rfl
@[simp] theorem State.setArmed_outs (s : State) (v : Nat) (b : Bool) : (s.setArmed v b).out = s.out := by
  unfold State.setArmed; split <;> rfl

theorem State.vecMasked_of_evt {v : Nat} (hf : t.evt.funcMask = s.evt.funcMask) (hm : t.evt.msix = s.evt.msix) :
    t.vecMasked v = s.vecMasked v := by
  rw [State.vecMasked, State.vecMasked, hf, State.msixWord, State.msixWord, hm]

theorem State.setPba_bit (s : State) {v : Nat} (b : Bool) (hv : v < 64) : (s.setPba v b).evt.pba.getLsbD v = b := by
  unfold State.setPba
  cases b
  · simp [hv]
  · simp [hv]

/-- An armed vector that is not masked: one message, and the vector is disarmed. -/
theorem State.signal_sends (s : State) {v : Nat} (hv : v < 64) (ha : s.vecArmed v = true) (hm : s.vecMasked v = false) :
    (s.signal v).vecArmed v = false ∧
      (s.signal v).out = .msix v (s.msixWord (4 * v)) (s.msixWord (4 * v + 1)) (s.msixWord (4 * v + 2)) :: s.out ∧
      (s.signal v).evt.pba.getLsbD v = false ∧
      onlyRegs s (s.signal v) [⟨.EVT_VEC_ARMED_LO, 0⟩, ⟨.EVT_VEC_ARMED_HI, 0⟩] := by
  obtain ⟨x, hx⟩ : ∃ x : State, x = (s.emit (.msix v (s.msixWord (4 * v)) (s.msixWord (4 * v + 1))
      (s.msixWord (4 * v + 2)))).setPba v false := ⟨_, rfl⟩
  have hs : s.signal v = x.setArmed v false := by
    rw [State.signal, ha, hm, hx]
    rfl
  rw [hs]
  refine ⟨x.vecArmed_setArmed false hv, ?_, ?_, .step (x.setArmed_only v false) (fun _ h => h) ?_⟩
  · rw [State.setArmed_outs, hx]
    rfl
  · rw [State.setArmed_pba, hx, State.setPba_bit _ _ hv]
  · rw [hx]
    exact .of_eq rfl rfl (.refl _ _)

theorem State.signal_masked (s : State) {v : Nat} (ha : s.vecArmed v = true) (hm : s.vecMasked v = true) :
    s.signal v = s.setPba v true := by
  rw [State.signal, if_pos ha, if_pos hm]

theorem execEvtVecAck_eq (t : Tu) (v : Fin 64) (hup : s.hostUp = true) :
    exec (.evtVecAck t v) s = s.done ((s.at t).vecAck v) := by
  rw [exec, execEvtVecAck, State.whenHost_eq hup]

theorem State.vecAck_eq (s : State) (v : Nat) :
    s.vecAck v = if s.vecActive v then (s.setArmed v true).signal v else s.setArmed v true := by
  rw [State.vecAck, State.vecActive_setArmed]

theorem State.vecActive_at (s : State) (t : Tu) (v : Nat) : (s.at t).vecActive v = s.vecActive v :=
  State.vecActive_of_reg fun _ _ _ => State.at_reg _ _ _ _

theorem evtVecAck_arms (t : Tu) (v : Fin 64) (hup : s.hostUp = true) (hact : s.vecActive v = false) :
    ∃ u, exec (.evtVecAck t v) s = .next u ∧ u.vecArmed v = true ∧ u.out = s.out ∧
      onlyRegs s u [⟨.EVT_VEC_ARMED_LO, 0⟩, ⟨.EVT_VEC_ARMED_HI, 0⟩] := by
  obtain ⟨hd, ho⟩ := State.done_of_counts ((s.at t).setArmed_only v true) (by simp)
  refine ⟨_, ?_, State.vecArmed_setArmed _ _ v.isLt, by simp, ho⟩
  rw [execEvtVecAck_eq t v hup, State.vecAck_eq, State.vecActive_at, hact, if_neg Bool.false_ne_true]
  exact hd

theorem evtVecAck_sends (t : Tu) (v : Fin 64) (hup : s.hostUp = true) (hact : s.vecActive v = true)
    (hm : s.vecMasked v = false) :
    ∃ u a b d, exec (.evtVecAck t v) s = .next u ∧ u.vecArmed v = false ∧ u.out = .msix v a b d :: s.out ∧
      onlyRegs s u [⟨.EVT_VEC_ARMED_LO, 0⟩, ⟨.EVT_VEC_ARMED_HI, 0⟩] := by
  obtain ⟨h1, h2, -, h4⟩ := ((s.at t).setArmed v true).signal_sends v.isLt (State.vecArmed_setArmed _ _ v.isLt)
    ((State.vecMasked_of_evt (by simp) (by simp)).trans hm)
  obtain ⟨hd, ho⟩ := State.done_of_counts (((s.at t).setArmed_only v true).trans h4) (by simp)
  refine ⟨_, _, _, _, ?_, h1, by rw [h2, State.setArmed_outs, State.at_out], ho⟩
  rw [execEvtVecAck_eq t v hup, State.vecAck_eq, State.vecActive_at, hact, if_pos rfl]
  exact hd

theorem evtVecAck_pends (t : Tu) (v : Fin 64) (hup : s.hostUp = true) (hact : s.vecActive v = true)
    (hm : s.vecMasked v = true) :
    ∃ u, exec (.evtVecAck t v) s = .next u ∧ u.vecArmed v = true ∧ u.evt.pba.getLsbD v = true ∧ u.out = s.out := by
  have hsig : ((s.at t).setArmed v true).signal v = ((s.at t).setArmed v true).setPba v true :=
    State.signal_masked _ (State.vecArmed_setArmed _ _ v.isLt) ((State.vecMasked_of_evt (by simp) (by simp)).trans hm)
  obtain ⟨hd, -⟩ := State.done_of_counts (x := t) (t := ((s.at t).setArmed v true).setPba v true)
    (but := [⟨.EVT_VEC_ARMED_LO, 0⟩, ⟨.EVT_VEC_ARMED_HI, 0⟩]) (.of_eq rfl rfl ((s.at t).setArmed_only v true)) (by simp)
  refine ⟨((s.at t).setArmed v true).setPba v true, ?_, ?_, State.setPba_bit _ _ v.isLt, ?_⟩
  · rw [execEvtVecAck_eq t v hup, State.vecAck_eq, State.vecActive_at, hact, if_pos rfl, hsig]
    exact hd
  · exact State.vecArmed_setArmed (s.at t) true v.isLt
  · exact (State.setArmed_outs _ _ _).trans (State.at_out _ _)

/-! ### Unmasking -/

/-- The table's mask bit of a vector cleared. -/
def State.unmasked (s : State) (v : Nat) : State := s.setMsixWord (4 * v + 3) (s.msixWord (4 * v + 3) &&& ~~~1#32)

theorem State.unmasked_reads (s : State) (v : Nat) (hf : s.evt.funcMask = false) :
    (s.unmasked v).vecMasked v = false ∧ (s.unmasked v).evt.pba = s.evt.pba ∧ (s.unmasked v).out = s.out ∧
      (s.unmasked v).regs = s.regs ∧ (s.unmasked v).mem = s.mem := by
  refine ⟨?_, rfl, rfl, rfl, rfl⟩
  have hw : (s.unmasked v).msixWord (4 * v + 3) = s.msixWord (4 * v + 3) &&& ~~~1#32 := by
    simp only [State.unmasked, State.setMsixWord, State.msixWord, tget_tput_same]
  rw [State.vecMasked, hw, show (s.unmasked v).evt.funcMask = s.evt.funcMask from rfl, hf]
  simp

theorem execVectorUnmask_eq (t : Tu) (v : Fin 64) (hup : s.hostUp = true) :
    exec (.vectorUnmask t (some v)) s = s.done (((s.at t).unmasked v).vecUnmasked v) := by
  rw [exec, execVectorUnmask, State.whenHost_eq hup]
  rfl

theorem vectorUnmask_clears (t : Tu) (v : Fin 64) (hup : s.hostUp = true) (hf : s.evt.funcMask = false)
    (hp : s.evt.pba.getLsbD v = true) (hact : s.vecActive v = false) :
    ∃ u, exec (.vectorUnmask t (some v)) s = .next u ∧ u.evt.pba.getLsbD v = false ∧ u.vecMasked v = false ∧
      u.out = s.out ∧ onlyRegs s u [] := by
  obtain ⟨h1, h2, h3, h4, h5⟩ := (s.at t).unmasked_reads v (by rw [State.at_evt]; exact hf)
  obtain ⟨x, hx⟩ : ∃ x, x = (s.at t).unmasked v := ⟨_, rfl⟩
  rw [← hx] at h1 h2 h3 h4 h5
  have ha : x.vecActive v = false := by
    rw [← hact, ← State.vecActive_at s t]
    exact State.vecActive_of_reg fun _ _ _ => by rw [State.reg, State.reg, h4]
  have heq : x.vecUnmasked v = x.setPba v false := by
    rw [State.vecUnmasked, h2, State.at_evt, hp, h1, ha]
    rfl
  obtain ⟨hd, ho⟩ := State.done_onlyRegs (s := s) (x := t) (t := x.setPba v false) (but := [])
    (.of_eq rfl rfl (.of_eq h4 h5 (.refl _ _))) rfl
  refine ⟨_, ?_, State.setPba_bit _ _ v.isLt, ?_, ?_, ho⟩
  · rw [execVectorUnmask_eq t v hup, ← hx, heq, hd]
  · rw [← h1]
    exact State.vecMasked_of_evt rfl rfl
  · exact h3.trans (State.at_out _ _)

theorem vectorUnmask_sends (t : Tu) (v : Fin 64) (hup : s.hostUp = true) (hf : s.evt.funcMask = false)
    (hp : s.evt.pba.getLsbD v = true) (hact : s.vecActive v = true) (harm : s.vecArmed v = true) :
    ∃ u a b d, exec (.vectorUnmask t (some v)) s = .next u ∧ u.out = .msix v a b d :: s.out ∧
      u.vecArmed v = false ∧ u.evt.pba.getLsbD v = false := by
  obtain ⟨h1, h2, h3, h4, h5⟩ := (s.at t).unmasked_reads v (by rw [State.at_evt]; exact hf)
  obtain ⟨x, hx⟩ : ∃ x, x = (s.at t).unmasked v := ⟨_, rfl⟩
  rw [← hx] at h1 h2 h3 h4 h5
  have hreg : ∀ n i, x.reg n i = s.reg n i := fun n i => by rw [State.reg, State.reg, h4, State.at_regs]
  have ha : x.vecActive v = true := by
    rw [← hact]
    exact State.vecActive_of_reg fun n i _ => hreg n i
  have hr : x.vecArmed v = true := by
    rw [← harm, State.vecArmed, State.vecArmed, hreg, hreg]
  obtain ⟨g1, g2, g3, g4⟩ := x.signal_sends v.isLt hr h1
  have heq : x.vecUnmasked v = x.signal v := by
    rw [State.vecUnmasked, h2, State.at_evt, hp, h1, ha]
    rfl
  obtain ⟨hd, -⟩ := State.done_of_counts (s := s) (x := t) ((onlyRegs.of_eq h4 h5 (.refl _ _)).trans g4) (by simp)
  rw [h3, State.at_out] at g2
  refine ⟨_, _, _, _, ?_, g2, g1, g3⟩
  rw [execVectorUnmask_eq t v hup, ← hx, heq]
  exact hd

/-- Clearing the function mask, with nothing pending. -/
theorem vectorUnmask_function (t : Tu) (hup : s.hostUp = true) (hp : s.evt.pba = 0) :
    ∃ u, exec (.vectorUnmask t none) s = .next u ∧ u.evt.funcMask = false ∧ onlyRegs s u [] := by
  obtain ⟨x, hx⟩ : ∃ x : State, x = { s.at t with evt := { (s.at t).evt with funcMask := false } } := ⟨_, rfl⟩
  have hxp : x.evt.pba = 0 := by rw [hx]; simpa using hp
  have hsame : ∀ l : List Nat, l.foldl State.vecUnmasked x = x := by
    intro l
    induction l with
    | nil => rfl
    | cons v l ih =>
      have hv : x.vecUnmasked v = x := by
        rw [State.vecUnmasked, hxp]
        simp
      rw [List.foldl_cons, hv, ih]
  obtain ⟨hd, ho⟩ := State.done_onlyRegs (s := s) (x := t) (t := x) (but := [])
    (by rw [hx]; exact .of_eq rfl rfl (.refl _ _)) rfl
  refine ⟨x, ?_, by rw [hx], ho⟩
  rw [exec, execVectorUnmask, State.whenHost_eq hup, ← hd]
  congr 1
  rw [← hx, State.each, hsame]

/-- Settles O48: an acknowledge and an unmask, each by what the vector finds. -/
theorem vectorsSignalOnce : Obligations.VectorsSignalOnce := by
  intro s t v hup
  exact ⟨evtVecAck_arms t v hup, evtVecAck_sends t v hup, evtVecAck_pends t v hup, vectorUnmask_clears t v hup,
    vectorUnmask_sends t v hup, vectorUnmask_function t hup⟩

end Sys2Proof.Machine
end

section
/-! SUPPORT. Writes of HOLD, of the slots of the schedule, and of shadowed registers (R43 to R50). -/

namespace Sys2Proof.Machine

variable {s t u : State} {but : List Reg} {srcs : List Nat} {r : Reg}

@[simp] theorem State.at_hubFrameOf (s : State) (t : Tu) (lo hi : RegName) (i : Nat) :
    (s.at t).frameOf lo hi i = s.frameOf lo hi i := by
  rw [State.frameOf, State.frameOf, State.pair, State.pair, State.at_reg, State.at_reg]

/-! ### Slots of the schedule -/

/-- A slot captures what was written, and its STATUS follows the command (R49, R50). -/
theorem State.writeSched_slot (s : State) (t : Tu) (slot : Fin 32) {cmd : Nat} (late : Bool) (hc : cmd < 16) :
    s.done ((s.at t).writeSched slot cmd late) = .next ((s.at t).writeSched slot cmd late) ∧
      slotWritten s ((s.at t).writeSched slot cmd late) t slot cmd (if cmd = 0 then 0 else if cmd < 7 then 1 else 5)
        late := by
  obtain ⟨v, hv⟩ : ∃ v, v = (if cmd = 0 then 0 else if cmd < 7 then 1 else 5) := ⟨_, rfl⟩
  have hv8 : v < 8 := by rw [hv]; split <;> [skip; split] <;> omega
  have ho : onlyRegs (s.at t) ((s.at t).writeSched slot cmd late) [⟨.HUB_SCHED_CMD, slot⟩, ⟨.HUB_SCHED_STATUS, slot⟩] :=
    .of_eq rfl rfl (.setFld (f := Fld.HUB_SCHED_STATUS_STATUS) (i := slot)
      (x := if cmd = 0 then 0 else if cmd < 7 then 1 else 5)
      (t := (s.at t).setReg .HUB_SCHED_CMD slot (w32 (cmd + 16 * late.toNat))) (by simp)
      (.setReg (by simp) (.refl _ _)))
  obtain ⟨hd, ho'⟩ := State.done_onlyRegs ho rfl
  refine ⟨hd, ?_, ?_, ?_, ho'⟩
  · unfold State.writeSched
    simp
  · unfold State.writeSched
    rw [← hv]
    simp
    omega
  · unfold State.writeSched
    simp
    have : (w32 (cmd + 16 * late.toNat)).toNat = cmd + 16 * late.toNat := by
      rw [w32, BitVec.toNat_ofNat]
      have := late.toNat_le
      omega
    rw [getBits, BitVec.extractLsb'_toNat, this]
    simp
    omega

/-- Settles O11: every command is the write of its code. -/
theorem slotCapturesCommand : Obligations.SlotCapturesCommand := by
  intro s t slot late hup
  have h : ∀ cmd, cmd < 16 → ∃ u, s.whenHost t (fun s => s.writeSched slot cmd late) = .next u ∧
      slotWritten s u t slot cmd (if cmd = 0 then 0 else if cmd < 7 then 1 else 5) late := fun cmd hc => by
    obtain ⟨hd, hw⟩ := s.writeSched_slot t slot late hc
    exact ⟨_, (State.whenHost_eq hup).trans hd, hw⟩
  refine ⟨h 0 (by decide), h 1 (by decide), h 2 (by decide), h 3 (by decide), h 4 (by decide), h 5 (by decide),
    h 6 (by decide), fun k => ?_⟩
  obtain ⟨u, hu, hw⟩ := h (7 + k) (by omega)
  rw [if_neg (by omega), if_neg (by omega)] at hw
  exact ⟨u, hu, hw⟩

/-! ### HOLD -/

/-- HOLD is as written, and nothing that waits is touched (R45). -/
theorem State.writeHold_written (s : State) (t : Tu) (on : Bool) :
    s.done ((s.at t).writeHold on) = .next ((s.at t).writeHold on) ∧
      ((s.at t).writeHold on).fld Fld.HUB_SH_CTRL_HOLD 0 = on.toNat ∧ ((s.at t).writeHold on).tick.sh = s.tick.sh ∧
      onlyRegs s ((s.at t).writeHold on) [⟨.HUB_SH_CTRL, 0⟩] := by
  have ho : onlyRegs (s.at t) ((s.at t).writeHold on) [⟨.HUB_SH_CTRL, 0⟩] :=
    .ite (.refl _ _) (.of_eq rfl rfl (.setFld (f := Fld.HUB_SH_CTRL_HOLD) (by simp) (.refl _ _)))
  obtain ⟨hd, ho'⟩ := State.done_onlyRegs ho rfl
  refine ⟨hd, ?_, ?_, ho'⟩
  · unfold State.writeHold
    split
    · next h =>
      have hlt := (s.at t).fld_lt Fld.HUB_SH_CTRL_HOLD 0
      rw [State.flag] at h
      rw [h]
      obtain h0 | h1 : (s.at t).fld Fld.HUB_SH_CTRL_HOLD 0 = 0 ∨ (s.at t).fld Fld.HUB_SH_CTRL_HOLD 0 = 1 := by
        simp at hlt ⊢; omega
      · rw [h0]; rfl
      · rw [h1]; rfl
    · cases on <;> simp
  · unfold State.writeHold
    split <;> simp

theorem holdIsWritten_holds : holdIsWritten := by
  intro s t hup
  obtain ⟨hd1, hw1⟩ := s.writeHold_written t true
  obtain ⟨hd0, hw0⟩ := s.writeHold_written t false
  refine ⟨⟨_, ?_, hw1⟩, ⟨_, ?_, hw0⟩⟩
  · rw [exec, execShHoldSet, State.whenHost_eq hup]
    exact hd1
  · rw [exec, execShHoldClear, State.whenHost_eq hup]
    exact hd0

/-! ### Writes of shadowed registers -/

/-- A register of which no field is changed at once keeps what it holds until a commit. -/
theorem State.writeNow_of_noneAtOnce (s : State) (hrw : accMask r.n .RW = 0) (hwo : accMask r.n .WO = 0)
    (hl : r.n ≠ .PLL_LOCK_CFG ∨ shMask r ≠ 0) (v : Word) : s.writeNow r v = s := by
  have hne : ∀ m : RegName, ¬ (accMask m .RW = 0 ∧ accMask m .WO = 0) → r.n ≠ m :=
    fun m hm h => hm (h ▸ ⟨hrw, hwo⟩)
  unfold State.writeNow
  dsimp only
  split
  case h_64 => exact if_pos hrw
  case h_11 hn =>
    rcases hl with hl | hl
    · exact absurd hn hl
    · refine if_neg fun h => hl ?_
      rw [shMask, if_pos ⟨hn, h⟩]
  all_goals
    next hn => exact absurd hn (hne _ (by decide))

end Sys2Proof.Machine
end

section
/-! SUPPORT. Accesses to BAR0: shadowed writes, W1C bits, RC fields and latched reads (R4, R43 to R47, R436). -/

namespace Sys2Proof.Machine

variable {s t u : State} {but : List Reg} {srcs : List Nat} {r : Reg}

/-! ### Shadowed writes -/

theorem State.w1c_of_noW1c (s : State) (h : accMask r.n .W1C = 0) (v : Word) : s.w1c r v = s := by
  rw [State.w1c, h]
  exact if_pos BitVec.zero_and

/-- A write of a register with SH fields alone, awake and present (R43). -/
theorem State.writeReg_of_shadowedOnly (s : State) (hr : shadowedOnly r) (hs : s.regAsleep r = false)
    (ha : s.unitAbsent r = false) (v : Word) : s.writeReg r v = s.shWrite r v := by
  obtain ⟨hsh, hrw, hw1c, hwo⟩ := hr
  have hne : r.n ≠ .EVT_STATUS := fun h => absurd hw1c (by rw [h]; decide)
  rw [State.writeReg, hs, ha, if_neg (by decide), if_neg hne, s.w1c_of_noW1c hw1c,
    s.writeNow_of_noneAtOnce hrw hwo (.inr hsh)]

theorem latched_noShadow (n : RegName) (h : n.latched = true) : accMask n .SH = 0 := by
  have hall : ∀ m ∈ [RegName.HUB_SERIAL_HI, .HUB_TIME_HI, .HUB_FRAME_HI, .HUB_SH_COMMIT_HI, .HUB_SYNC_LAST_HI,
      .HUB_SYNC_SRC, .HUB_LINK_BITS_HI, .PLL_SPLL_ANCHOR_HI, .ILV_HANDOVER_HI, .TRG_GEN_TTS_HI, .SEG_ARM_FRAME_HI,
      .MEM_UE_ADDR_HI, .RED_SYNC_TTS_HI, .ACC_PLANE_TOTAL_HI, .ACC_PLANE_CLR_HI, .ACC_VIOL_FIRST_HI,
      .ACC_SNAP_FRAME_HI, .TIC_LAST_TTS_HI, .TIC_LAST_VALUE_LO, .TIC_LAST_VALUE_HI, .TIC_LAST_COUNT, .TIC_LAST_SEQ,
      .PMU_FORCE_TTS_HI, .PMU_FORCE_OUT, .PMU_LAST_TTS_HI, .PMU_LAST_VALUE, .PMU_LAST_INFO, .PMU_INJ_RES_TTS_HI,
      .PMU_INJ_RES_VALUE, .PMU_INJ_RES_INFO, .RAS_PIC_FRAME_HI, .RAS_PIC_INFO, .GLN_DT_HI, .GLN_CMP_LAST_HI],
      accMask m .SH = 0 := by decide
  exact hall n (by simpa [RegName.latched] using h)

theorem shMask_of_latched (h : r.n.latched = true) : shMask r = 0 := by
  rw [shMask, latched_noShadow _ h, ite_self]

theorem maskedChoice (l p m : Word) : ((l &&& ~~~m ||| p &&& m &&& m) &&& ~~~0#32) &&& m = p &&& m := by
  rw [show ~~~0#32 = BitVec.allOnes 32 from rfl, BitVec.and_allOnes]
  ext j hj
  cases hm : m[j] <;> simp [hm]

/-- A shadowed value that waits is the one that a read returns (R44). -/
theorem State.shWrite_waits (s : State) (hr : shadowedOnly r) (hs : s.regAsleep r = false) (v : Word)
    (hnot : r.n ≠ .SEG_ARM ∨ s.fld Fld.HUB_PITCH_STATUS_STATE 0 ≠ 2) :
    (s.shWrite r v).pendingSh r = some (s.shLimit r v &&& shMask r) ∧
      (s.shWrite r v).readVal r &&& shMask r = s.shLimit r v &&& shMask r ∧ (s.shWrite r v).regs = s.regs ∧
      (s.shWrite r v).mem = s.mem := by
  obtain ⟨hsh, -, -, hwo⟩ := hr
  have hw : s.shWrite r v = { s with tick := { s.tick with
      sh := s.tick.sh ++ [⟨r, s.shLimit r v &&& shMask r, s.hubStamp⟩] } } := by
    rw [State.shWrite, if_neg]
    rintro (h | ⟨h1, h2⟩)
    · exact hsh h
    · exact hnot.elim (fun h => h h1) fun h => h h2
  obtain ⟨u, hu⟩ : ∃ u, u = s.shWrite r v := ⟨_, rfl⟩
  have hp : u.pendingSh r = some (s.shLimit r v &&& shMask r) := by
    rw [hu, hw]
    simp [State.pendingSh, List.filter_append]
  have hasleep : u.regAsleep r = false := by rw [← hs, hu, hw]; rfl
  have hl : r.n.latched = false := by
    cases h : r.n.latched with
    | false => rfl
    | true => exact absurd (shMask_of_latched h) hsh
  rw [← hu]
  refine ⟨hp, ?_, by rw [hu, hw], by rw [hu, hw]⟩
  rw [State.readVal, hasleep, hl, hp, hwo]
  exact maskedChoice _ _ _

theorem shadowedWriteWaits_holds : shadowedWriteWaits := by
  intro s t a v r hup hreg hr x
  have hexec : ∀ u, x.writeReg r v = u → u.regs = x.regs → exec (.shWrite t a v) s = .next u := fun u hu hregs => by
    have hb : x.bar0Write a.toNat v = u := (x.bar0Write_of_regAt hreg v).trans hu
    rw [exec, execShWrite, State.whenAccess_of_regs_eq hup (by rw [← hregs, ← hb]), ← hb]
  refine ⟨fun hs ha hnot => ?_, fun h => hexec x ?_ rfl⟩
  · obtain ⟨h1, h2, h3, h4⟩ := x.shWrite_waits hr hs v hnot
    exact ⟨_, hexec _ (x.writeReg_of_shadowedOnly hr hs ha v) h3, h1, h2, .of_eq h3 h4 (.refl _ _)⟩
  · by_cases hs : x.regAsleep r = true
    · exact State.writeReg_of_regAsleep hs v
    by_cases ha : x.unitAbsent r = true
    · rw [State.writeReg, ha, Bool.or_true, if_pos rfl]
    rw [x.writeReg_of_shadowedOnly hr (by simpa using hs) (by simpa using ha), State.shWrite, if_pos]
    exact .inr (h.elim (absurd · hs) fun h => h.elim (absurd · ha) id)

/-- Settles O7: a shadowed write by what it finds, and HOLD. -/
theorem shadowedValuesWait : Obligations.ShadowedValuesWait := ⟨shadowedWriteWaits_holds, holdIsWritten_holds⟩

/-! ### W1C bits and RC fields -/

/-- No note is due where the merge counts and the count of dropped log entries are what they were, or 0. -/
theorem State.done_of_cleared {s0 s : State}
    (hm : ∀ i, s.fld Fld.HUB_TRIG_OUT_MERGED_COUNT i ≠ 0 → s0.fld Fld.HUB_TRIG_OUT_MERGED_COUNT i ≠ 0)
    (hl : s.fld Fld.MGT_LOG_DROP_COUNT 0 ≠ 0 → s0.fld Fld.MGT_LOG_DROP_COUNT 0 ≠ 0) : s0.done s = .next s := by
  have hsame : ∀ l : List Nat, l.foldl (fun x i => if s0.fld Fld.HUB_TRIG_OUT_MERGED_COUNT i = 0 ∧
      s.fld Fld.HUB_TRIG_OUT_MERGED_COUNT i ≠ 0 then x.raise0 (260 + i) else x) s = s := fun l => by
    induction l with
    | nil => rfl
    | cons i l ih =>
      rw [List.foldl_cons, if_neg fun h => hm i h.2 h.1]
      exact ih
  have hmerge : State.mergeNote 4 s0 s = s := by
    rw [State.mergeNote, State.each, hsame]
    exact State.mergeNote_same 3 fun _ => rfl
  rw [State.done, hmerge, State.logNoteDrop, if_neg fun h => hl h.2 h.1]

theorem getBits_and_eq_zero {a m : Word} {l w : Nat} (h : getBits a l w = 0) : getBits (a &&& m) l w = 0 := by
  apply Nat.eq_of_testBit_eq
  intro j
  have := congrArg (fun x => x.testBit j) h
  simp only [getBits_testBit, Nat.zero_testBit, BitVec.getLsbD_and] at this ⊢
  cases hj : decide (j < w) <;> simp_all

/-- Clearing bits of a register leaves every field 0 that was 0. -/
theorem State.fld_cleared (s : State) (n : RegName) (i : Nat) (m : Word) (f : Fld) (j : Nat)
    (h : (s.setReg n i (s.reg n i &&& m)).fld f j ≠ 0) : s.fld f j ≠ 0 := by
  intro h0
  refine h ?_
  rw [State.fld, State.reg_setReg]
  split
  · next hh => rw [← hh.1, ← hh.2]; exact getBits_and_eq_zero h0
  · exact h0

/-- An access that clears bits of one register ends without a note. -/
theorem State.whenAccess_clears {f : State → State} {x : Tu} {n : RegName} {i : Nat} {m : Word} (hup : s.hostUp = true)
    (hr : ∀ n' i', (f (s.nowAt x)).reg n' i' = ((s.nowAt x).setReg n i ((s.nowAt x).reg n i &&& m)).reg n' i') :
    s.whenAccess x f = .next (f (s.nowAt x)) := by
  have hfld : ∀ g j, (f (s.nowAt x)).fld g j ≠ 0 → (s.nowAt x).fld g j ≠ 0 := fun g j h => by
    refine (s.nowAt x).fld_cleared n i m g j ?_
    rwa [State.fld, ← hr]
  rw [State.whenAccess_eq hup]
  exact State.done_of_cleared (fun i => hfld _ i) (hfld _ 0)

theorem shMask_of_noShadow (h : accMask r.n .SH = 0) : shMask r = 0 := by
  rw [shMask, h, ite_self]

theorem State.w1c_reg (s : State) (r : Reg) (v : Word) (n : RegName) (i : Nat) :
    (s.w1c r v).reg n i = (s.setReg r.n r.i (s.reg r.n r.i &&& ~~~(accMask r.n .W1C &&& v))).reg n i := by
  unfold State.w1c
  dsimp only
  split
  · next h =>
    rw [h, State.reg_setReg]
    split
    · next hh =>
      rw [hh.1, hh.2, show ~~~(0 : Word) = BitVec.allOnes 32 from rfl, BitVec.and_allOnes]
    · rfl
  · rfl

theorem State.w1c_mem (s : State) (r : Reg) (v : Word) : (s.w1c r v).mem = s.mem := by
  unfold State.w1c
  dsimp only
  split <;> rfl

/-- A write of a register with W1C fields alone clears the bits written with 1 (R4). -/
theorem State.writeReg_of_clearedOnly (s : State) (hr : clearedOnly r.n) (hs : s.regAsleep r = false)
    (ha : s.unitAbsent r = false) (v : Word) : s.writeReg r v = s.w1c r v := by
  obtain ⟨hne, hw1c, hrw, hwo, hsh⟩ := hr
  have hl : r.n ≠ .PLL_LOCK_CFG := fun h => hw1c (by rw [h]; decide)
  rw [State.writeReg, hs, ha, if_neg (by decide), if_neg hne, State.writeNow_of_noneAtOnce _ hrw hwo (.inl hl),
    State.shWrite, if_pos (.inl (shMask_of_noShadow hsh))]

/-- Reads of the register return what it stores, and do nothing else than clear its RC fields: neither its value follows
other state, nor is it latched, shadowed or write-only. -/
def plainRead (n : RegName) : Bool :=
  !([RegName.HUB_GLOBAL_STATUS, .HUB_DIE_STATUS, .HUB_TIME_LO, .HUB_TIME_HI, .HUB_FRAME_LO, .HUB_FRAME_HI,
    .HUB_SH_STATUS, .EVT_ACTIVE, .PLL_SPLL_RATE_NOW, .TIC_GATE, .TIC_HOLDOFF, .PLL_SPLL_STATUS, .PMU_INJ_RES_TTS_LO,
    .HUB_LINK_BITS_LO].contains n) && !n.latched && decide (accMask n .WO = 0) && decide (accMask n .SH = 0)

theorem plainRead_of_readClear : ∀ n ∈ RegName.all, accMask n .RC ≠ 0 → n.latches = [] → plainRead n = true := by
  have h0 : ∀ n ∈ RegName.part0, accMask n .RC ≠ 0 → n.latches = [] → plainRead n = true := by decide
  have h1 : ∀ n ∈ RegName.part1, accMask n .RC ≠ 0 → n.latches = [] → plainRead n = true := by decide
  have h2 : ∀ n ∈ RegName.part2, accMask n .RC ≠ 0 → n.latches = [] → plainRead n = true := by decide
  have h3 : ∀ n ∈ RegName.part3, accMask n .RC ≠ 0 → n.latches = [] → plainRead n = true := by decide
  have h4 : ∀ n ∈ RegName.part4, accMask n .RC ≠ 0 → n.latches = [] → plainRead n = true := by decide
  have h5 : ∀ n ∈ RegName.part5, accMask n .RC ≠ 0 → n.latches = [] → plainRead n = true := by decide
  have h6 : ∀ n ∈ RegName.part6, accMask n .RC ≠ 0 → n.latches = [] → plainRead n = true := by decide
  intro n hn
  simp only [RegName.all, List.mem_append] at hn
  rcases hn with (((((hn | hn) | hn) | hn) | hn) | hn) | hn
  · exact h0 n hn
  · exact h1 n hn
  · exact h2 n hn
  · exact h3 n hn
  · exact h4 n hn
  · exact h5 n hn
  · exact h6 n hn

theorem mem_all_of_regAt {a : Nat} (h : regAt a = some r) : r.n ∈ RegName.all := by
  obtain ⟨n, hn, hi⟩ := List.exists_of_findSome?_eq_some h
  obtain ⟨i, -, rfl⟩ := Option.map_eq_some_iff.1 hi
  exact hn

/-- What a read returns of a register that is neither latched, shadowed nor write-only. -/
theorem State.readVal_live (s : State) (hs : s.regAsleep r = false) (hl : r.n.latched = false)
    (hwo : accMask r.n .WO = 0) (hsh : shMask r = 0) : s.readVal r = s.liveReg r := by
  have hkeep : ∀ v : Word, v &&& ~~~0#32 = v := fun v => by
    rw [show ~~~0#32 = BitVec.allOnes 32 from rfl, BitVec.and_allOnes]
  rw [State.readVal, hs, hl, hwo, hsh]
  cases s.pendingSh r with
  | none => exact hkeep _
  | some p =>
    show (s.liveReg r &&& ~~~0#32 ||| p &&& 0#32) &&& ~~~0#32 = s.liveReg r
    rw [hkeep, hkeep, BitVec.and_zero, BitVec.or_zero]

theorem State.liveReg_plain (s : State) (h : plainRead r.n = true) : s.liveReg r = s.reg r.n r.i := by
  unfold State.liveReg
  split
  case h_13 => rfl
  all_goals
    next hn => rw [hn] at h; exact absurd h (by decide)

/-- A read of a register with RC fields clears them in the same access (R4). -/
theorem State.readReg_clears (s : State) (h : plainRead r.n = true) (hlat : r.n.latches = []) (hrc : accMask r.n .RC ≠ 0)
    (hs : s.regAsleep r = false) :
    s.readReg r = (s.emit (.readData (s.reg r.n r.i))).setReg r.n r.i (s.reg r.n r.i &&& ~~~(accMask r.n .RC)) := by
  have hne : ∀ m, plainRead m = false → r.n ≠ m := fun m hm hn => by rw [hn, hm] at h; cases h
  have hp := h
  simp only [plainRead, Bool.and_eq_true, Bool.not_eq_true', decide_eq_true_eq] at hp
  obtain ⟨⟨⟨-, hl⟩, hwo⟩, hsh⟩ := hp
  have hasleep : (s.emit (.readData (s.reg r.n r.i))).regAsleep r = false := hs
  rw [State.readReg, if_neg (hne _ (by decide)), s.readVal_live hs hl hwo (shMask_of_noShadow hsh), s.liveReg_plain h,
    State.afterRead, hasleep, hlat, if_neg (by decide)]
  dsimp only [List.foldl_nil]
  rw [if_neg hrc, if_neg (hne _ (by decide))]
  rfl

theorem writeOneAndReadClear_holds : writeOneAndReadClear := by
  intro s t a r hup hreg x hs
  refine ⟨fun v hr ha => ?_, fun hrc hlat => ?_⟩
  · have hb : x.bar0Write a.toNat v = x.w1c r v :=
      (x.bar0Write_of_regAt hreg v).trans (x.writeReg_of_clearedOnly hr hs ha v)
    refine ⟨x.w1c r v, ?_, ?_, fun n i hn => ?_, fun _ => by rw [State.w1c_mem]⟩
    · rw [exec, execW1cClear, State.whenAccess_clears (n := r.n) (i := r.i) (m := ~~~(accMask r.n .W1C &&& v)) hup, hb]
      intro n i
      rw [hb]
      exact x.w1c_reg r v n i
    · rw [State.w1c_reg, State.reg_setReg_same]
    · rw [State.w1c_reg]
      exact State.reg_setReg_other _ _ _ _ fun h => hn (by rw [h.1, h.2]; exact List.mem_singleton_self _)
  · have hb : x.bar0Read a.toNat = (x.emit (.readData (x.reg r.n r.i))).setReg r.n r.i
        (x.reg r.n r.i &&& ~~~(accMask r.n .RC)) := by
      rw [State.bar0Read, hreg]
      exact x.readReg_clears (plainRead_of_readClear _ (mem_all_of_regAt hreg) hrc hlat) hlat hrc hs
    have hexec : exec (.readClear t a) s = .next ((x.emit (.readData (x.reg r.n r.i))).setReg r.n r.i
        (x.reg r.n r.i &&& ~~~(accMask r.n .RC))) := by
      rw [exec, execReadClear, State.whenAccess_clears (n := r.n) (i := r.i) (m := ~~~(accMask r.n .RC)) hup, hb]
      intro n i
      rw [hb]
      rfl
    exact ⟨_, hexec, rfl, State.reg_setReg_same _ _ _ _, .setReg (by simp) (.emit (.refl _ _))⟩

/-! ### Latching reads -/

theorem State.hubStamp_toNat (s : State) : s.hubStamp.toNat = s.time.toNat / 32768 * 32768 := by
  rw [State.hubStamp, BitVec.toNat_ofNat]
  have := s.time.isLt
  omega

/-- A read of a register of the hub that latches another one (R436). -/
theorem State.readReg_latching (s : State) {lo hi : RegName} (hb : lo.place.block = .hub) (hl : lo.latches = [hi])
    (hlat : lo.latched = false) (hwo : accMask lo .WO = 0) (hsh : accMask lo .SH = 0) (hrc : accMask lo .RC = 0)
    (h1 : lo ≠ .PMU_INJ_RES_TTS_LO) (h2 : lo ≠ .HUB_LINK_BITS_LO) :
    s.readReg ⟨lo, 0⟩ = { s.emit (.readData (s.liveReg ⟨lo, 0⟩)) with
      latch := (⟨hi, 0⟩, (s.emit (.readData (s.liveReg ⟨lo, 0⟩))).liveReg ⟨hi, 0⟩) ::
        s.latch.filter fun e => e.1 ≠ ⟨hi, 0⟩ } := by
  have hs : ∀ x : State, x.regAsleep ⟨lo, 0⟩ = false := fun x => by
    unfold State.regAsleep
    dsimp only
    rw [hb]
  rw [State.readReg, if_neg h1, s.readVal_live (hs _) hlat hwo (shMask_of_noShadow hsh), State.afterRead, hs,
    if_neg (by decide)]
  dsimp only
  rw [hl, hrc, if_pos rfl, if_neg h2]
  rfl

/-- A read of a latched register of the hub returns what the latch holds. -/
theorem State.readReg_latched (s : State) {hi : RegName} (hb : hi.place.block = .hub) (hl : hi.latches = [])
    (hlat : hi.latched = true) (hrc : accMask hi .RC = 0) (h1 : hi ≠ .PMU_INJ_RES_TTS_LO) (h2 : hi ≠ .HUB_LINK_BITS_LO) :
    s.readReg ⟨hi, 0⟩ = s.emit (.readData (latchGet s.latch ⟨hi, 0⟩)) := by
  have hs : ∀ x : State, x.regAsleep ⟨hi, 0⟩ = false := fun x => by
    unfold State.regAsleep
    dsimp only
    rw [hb]
  have hv : s.readVal ⟨hi, 0⟩ = latchGet s.latch ⟨hi, 0⟩ := by
    rw [State.readVal, hs, hlat, if_neg Bool.false_ne_true, if_pos rfl]
  rw [State.readReg, if_neg h1, hv, State.afterRead, hs, if_neg Bool.false_ne_true]
  dsimp only
  rw [hl, hrc, if_pos rfl, if_neg h2]
  rfl

/-- A read that latches, and a later read of what it latched. -/
theorem latchingRead_pair {lo hi : RegName} {a b : Bar0} (t t' : Tu) (hinv : s.Inv) (hup : s.hostUp = true)
    (ha : regAt a.toNat = some ⟨lo, 0⟩) (hb : regAt b.toNat = some ⟨hi, 0⟩) {v w : Word}
    (hlo : ∀ x : State, x.readReg ⟨lo, 0⟩ = { x.emit (.readData (x.liveReg ⟨lo, 0⟩)) with
      latch := (⟨hi, 0⟩, (x.emit (.readData (x.liveReg ⟨lo, 0⟩))).liveReg ⟨hi, 0⟩) ::
        x.latch.filter fun e => e.1 ≠ ⟨hi, 0⟩ })
    (hhi : ∀ x : State, x.readReg ⟨hi, 0⟩ = x.emit (.readData (latchGet x.latch ⟨hi, 0⟩)))
    (hv : (s.nowAt t).liveReg ⟨lo, 0⟩ = v) (hw : ∀ o, ((s.nowAt t).emit o).liveReg ⟨hi, 0⟩ = w) :
    ∃ u, exec (.latchingRead t a false) s = .next u ∧ u.out = .readData v :: (s.nowAt t).out ∧
      onlyRegs (s.nowAt t) u [] ∧ ∃ w', exec (.latchingRead t' b false) u = .next w' ∧
        w'.out = .readData w :: (u.nowAt t').out ∧ onlyRegs (u.nowAt t') w' [] := by
  obtain ⟨x, hx⟩ : ∃ x, x = s.nowAt t := ⟨_, rfl⟩
  rw [← hx] at hv hw ⊢
  obtain ⟨u, hu⟩ : ∃ u : State, u = { x.emit (.readData v) with
      latch := (⟨hi, 0⟩, w) :: x.latch.filter fun e => e.1 ≠ ⟨hi, 0⟩ } := ⟨_, rfl⟩
  have hread : x.bar0Read a.toNat = u := by
    rw [State.bar0Read, ha, hu]
    dsimp only
    rw [hlo, hv, hw]
  have hexec : exec (.latchingRead t a false) s = .next u := by
    rw [exec, execLatchingRead, State.whenAccess_of_regs_eq hup]
    · dsimp only
      rw [← hx, hread, if_neg Bool.false_ne_true]
    · dsimp only
      rw [← hx, hread, if_neg Bool.false_ne_true, hu]
      rfl
  have hinvu : u.Inv := by
    obtain ⟨u', hnext, hok⟩ := exec_ok (.latchingRead t a false) hinv.ok
    rw [hexec] at hnext
    cases hnext
    exact hok.1
  have hupu : u.hostUp = true := by
    have := (State.nowAt_keeps t hinv).says.2.2.2
    rw [← hx] at this
    rw [hu]
    exact this.trans hup
  have hlatch : latchGet (u.nowAt t').latch ⟨hi, 0⟩ = w := by
    rw [(State.nowAt_keeps t' hinvu).says.2.2.1, hu]
    simp [latchGet]
  have hread' : (u.nowAt t').bar0Read b.toNat = (u.nowAt t').emit (.readData w) := by
    rw [State.bar0Read, hb]
    dsimp only
    rw [hhi, hlatch]
  refine ⟨u, hexec, by rw [hu]; rfl, by rw [hu]; exact .of_eq rfl rfl (.refl _ _), _, ?_, rfl, onlyRegs_emit _ _ _⟩
  rw [exec, execLatchingRead, State.whenAccess_of_regs_eq hupu]
  · dsimp only
    rw [hread', if_neg Bool.false_ne_true]
  · dsimp only
    rw [hread', if_neg Bool.false_ne_true, State.emit_regs]

theorem latchedReadsMatch_holds : latchedReadsMatch := by
  intro s t t' hinv hup
  have hnow := (State.nowAt_keeps t hinv).says
  obtain ⟨htime, hframe, -, -⟩ := hnow
  refine ⟨⟨(s.nowAt t).hubStamp, by rw [State.hubStamp_toNat, htime], ?_⟩, ?_⟩
  · exact latchingRead_pair t t' hinv hup (lo := .HUB_TIME_LO) (hi := .HUB_TIME_HI) (by decide) (by decide)
      (fun x => x.readReg_latching rfl rfl (by decide) (by decide) (by decide) (by decide) (by decide) (by decide))
      (fun x => x.readReg_latched rfl rfl (by decide) (by decide) (by decide) (by decide)) rfl fun _ => rfl
  · rw [← hframe]
    exact latchingRead_pair t t' hinv hup (lo := .HUB_FRAME_LO) (hi := .HUB_FRAME_HI) (by decide) (by decide)
      (fun x => x.readReg_latching rfl rfl (by decide) (by decide) (by decide) (by decide) (by decide) (by decide))
      (fun x => x.readReg_latched rfl rfl (by decide) (by decide) (by decide) (by decide)) rfl fun _ => rfl

/-- Settles O8: writes of W1C bits, reads of RC fields, and the two pairs of registers that latch. -/
theorem accessesClearAndLatch : Obligations.AccessesClearAndLatch := ⟨writeOneAndReadClear_holds, latchedReadsMatch_holds⟩

end Sys2Proof.Machine
end

section
/-! SUPPORT. Broadcasts and triggers of the timing link (R90 to R92). -/

namespace Sys2Proof.Machine

variable {s t u : State} {but : List Reg} {srcs : List Nat}

theorem State.glnSend_same (s : State) (typ sub : Nat) (payload : List Byte) (copies : Nat) :
    (s.glnSend typ sub payload copies).regs = s.regs ∧ (s.glnSend typ sub payload copies).mem = s.mem ∧
      (s.glnSend typ sub payload copies).tick = s.tick := by
  unfold State.glnSend
  split <;> exact ⟨rfl, rfl, rfl⟩

/-- A broadcast that is not refused waits for its frame (R90, R91, R371). -/
theorem State.bcast_waits (t : Tu) (typ sub : Nat) (f : Frame) (hp : s.pitched = true)
    (hr : (s.at t).bcastRefused f = false) :
    s.done ((s.at t).bcast typ sub f) = .next ((s.at t).bcast typ sub f) ∧
      onlyRegs s ((s.at t).bcast typ sub f) [] ∧
      ((s.at t).bcast typ sub f).tick.bcasts = s.tick.bcasts ++ [⟨typ, sub, f, (s.at t).time⟩] := by
  have hb : ((s.at t).bcast typ sub f).regs = (s.at t).regs ∧ ((s.at t).bcast typ sub f).mem = (s.at t).mem ∧
      ((s.at t).bcast typ sub f).tick.bcasts = s.tick.bcasts ++ [⟨typ, sub, f, (s.at t).time⟩] := by
    rw [State.bcast, State.at_pitched, hp, hr]
    dsimp only
    rw [if_neg (by decide : ¬ (!true) = true), if_neg Bool.false_ne_true, ← State.at_tick s t]
    split
    · obtain ⟨h1, h2, h3⟩ := State.glnSend_same { s.at t with
        tick := { (s.at t).tick with bcasts := (s.at t).tick.bcasts ++ [⟨typ, sub, f, (s.at t).time⟩] } } 6 2
        (leBytes 8 (tickTime (s.at t).k f).toNat) 3
      exact ⟨h1, h2, congrArg Tick.bcasts h3⟩
    · exact ⟨rfl, rfl, rfl⟩
  obtain ⟨hd, ho⟩ := State.done_onlyRegs (s := s) (x := t) (but := []) (.of_eq hb.1 hb.2.1 (.refl _ _)) rfl
  exact ⟨hd, ho, hb.2.2⟩

/-- A broadcast that is refused is counted and raises EV039 (R91). -/
theorem tlkArmMsg_drops (t : Tu) {m : BitVec 64} (h : blockIn s m) (ht : tlkTyp m = 3) (hp : s.pitched = true)
    (hr : (s.at t).bcastRefused (BitVec.ofNat 48 (tlkArg m)) = true)
    (hcnt : s.fld Fld.TLK_BCAST_DROP_COUNT 0 < 2 ^ 32 - 1) :
    ∃ u, exec (.tlkArmMsg t m) s = .next u ∧ u.tick.bcasts = s.tick.bcasts ∧
      u.fld Fld.TLK_BCAST_DROP_COUNT 0 = s.fld Fld.TLK_BCAST_DROP_COUNT 0 + 1 ∧
      (s.fld Fld.EVT_ROUTE_KIND 39 ≠ 1 → u.evtStatus 39 = true) ∧ onlyRaising s u [⟨.TLK_BCAST_DROP, 0⟩] [39] := by
  have hb : (s.at t).bcast 3 (tlkSub m) (BitVec.ofNat 48 (tlkArg m)) = (s.at t).dropBcast := by
    rw [State.bcast, State.at_pitched, hp, hr]
    rfl
  obtain ⟨u, hu, hn, ho⟩ := s.done_onlyRaising (x := t) (t := (s.at t).dropBcast) (but := [⟨.TLK_BCAST_DROP, 0⟩])
    (srcs := [39]) (.raise0 (by simp) (.bump (by simp) rfl (.refl _ _ _)))
  refine ⟨u, ?_, ?_, ?_, fun hk => ?_, ho⟩
  · rw [exec, execTlkArmMsg, State.when_eq h.1, State.tlkBlock_of_blockIn h ht (by simp [tlkBad, ht]), hb]
    exact hu
  · rw [hn.tick, State.dropBcast, State.raise0, State.raise_tick, State.bump_tick, State.at_tick]
  · rw [hn.fld _ _ rfl, State.dropBcast]
    simp at hcnt ⊢
    omega
  · rw [hn.evtStatus (by decide)]
    exact State.raise0_hubSource rfl (by simpa using hk)

/-! ### Triggers -/

/-- The instant that a trigger names, found again from its low 48 bits (R92). -/
theorem tuNear (T x : Tu) (arg : Nat) (hx : x.setWidth 48 = BitVec.ofNat 48 arg) (hd : (x - T).toNat < 2 ^ 47) :
    T + BitVec.ofInt 64 (BitVec.ofNat 48 arg - T.setWidth 48).toInt = x := by
  have hnear : BitVec.ofNat 48 arg - T.setWidth 48 = (x - T).setWidth 48 := by
    rw [← hx]
    apply BitVec.eq_of_toNat_eq
    simp only [BitVec.toNat_sub, BitVec.toNat_setWidth]
    omega
  have hint : ((x - T).setWidth 48).toInt = ((x - T).toNat : Int) := by
    rw [BitVec.toInt_eq_toNat_of_lt]
    · rw [BitVec.toNat_setWidth, Nat.mod_eq_of_lt (by omega)]
    · rw [BitVec.toNat_setWidth, Nat.mod_eq_of_lt (by omega)]
      omega
  rw [hnear, hint, BitVec.ofInt_natCast, BitVec.ofNat_toNat, BitVec.setWidth_eq, BitVec.add_comm, BitVec.sub_add_cancel]

/-- A trigger of an enabled line waits for its time (R92). -/
theorem tlkTrigMsg_waits (t : Tu) {m : BitVec 64} (h : blockIn s m) (ht : tlkTyp m = 5) (hrel : s.relockState ≠ 2)
    (hline : (s.fld Fld.TLK_TRIG_EN_LINES 0).testBit (tlkSub m) = true) (hlen : s.tlk.trigs.length < 16) (x : Tu)
    (hx : x.setWidth 48 = BitVec.ofNat 48 (tlkArg m)) (hpos : 0 < (x - (s.at t).time).toNat)
    (hle : (x - (s.at t).time).toNat + (s.at t).delayUp ≤ 2 ^ 30) :
    ∃ u, exec (.tlkTrigMsg t m) s = .next u ∧ u.tlk.trigs = trigIns s.tlk.trigs (tlkSub m, x) ∧ onlyRegs s u [] := by
  have hnear := tuNear (s.at t).time x (tlkArg m) hx (by omega)
  have hlate : tuLe ((s.at t).arrival - BitVec.ofNat 64 (ns 8)) x = true := by
    rw [tuLe, State.arrival, decide_eq_true_eq]
    generalize (s.at t).time = T at *
    generalize (s.at t).delayUp = D at *
    have : x - (T - BitVec.ofNat 64 D - BitVec.ofNat 64 (ns 8)) = (x - T) + BitVec.ofNat 64 (D + ns 8) := by
      rw [BitVec.ofNat_add]; ring
    rw [this, BitVec.toNat_add, BitVec.toNat_ofNat, ns]
    omega
  have hsoon : tuLe x (tuAdd (s.at t).arrival (2 ^ 30)) = true := by
    rw [tuLe, State.arrival, tuAdd, decide_eq_true_eq]
    generalize (s.at t).time = T at *
    generalize (s.at t).delayUp = D at *
    have : T - BitVec.ofNat 64 D + BitVec.ofNat 64 (2 ^ 30) - x = BitVec.ofNat 64 (2 ^ 30 - D) - (x - T) := by
      rw [show 2 ^ 30 = 2 ^ 30 - D + D by omega, BitVec.ofNat_add, Nat.add_sub_cancel]; ring
    rw [this, BitVec.toNat_sub, BitVec.toNat_ofNat]
    omega
  have hnow : tuLe x (s.at t).time = false := by
    rw [tuLe, decide_eq_false_iff_not]
    generalize (s.at t).time = T at *
    have : T - x = -(x - T) := by ring
    rw [this, BitVec.toNat_neg]
    omega
  have hact : (s.at t).tlkTrig (tlkSub m) (tlkArg m) =
      { s.at t with tlk := { (s.at t).tlk with trigs := trigIns s.tlk.trigs (tlkSub m, x) } } := by
    rw [State.tlkTrig, hnear, hlate, hsoon, hnow, State.at_relockState, State.at_fld, hline, State.at_tlk]
    simp [hrel, Nat.not_le.2 hlen]
  obtain ⟨hd, ho⟩ := State.done_onlyRegs (s := s) (x := t) (t := (s.at t).tlkTrig (tlkSub m) (tlkArg m)) (but := [])
    (by rw [hact]; exact .of_eq rfl rfl (.refl _ _)) rfl
  refine ⟨_, ?_, ?_, ho⟩
  · rw [exec, execTlkTrigMsg, State.when_eq h.1, State.tlkBlock_of_blockIn h ht (by simp [tlkBad, ht])]
    exact hd
  · rw [hact]

/-- A trigger of a line that is not enabled, or in HOLD, is discarded (R92). -/
theorem tlkTrigMsg_drops (t : Tu) {m : BitVec 64} (h : blockIn s m) (ht : tlkTyp m = 5)
    (hno : s.relockState = 2 ∨ (s.fld Fld.TLK_TRIG_EN_LINES 0).testBit (tlkSub m) = false)
    (hcnt : s.fld Fld.TLK_TRIG_DROP_COUNT 0 < 2 ^ 32 - 1) :
    ∃ u, exec (.tlkTrigMsg t m) s = .next u ∧ u.tlk.trigs = s.tlk.trigs ∧
      u.fld Fld.TLK_TRIG_DROP_COUNT 0 = s.fld Fld.TLK_TRIG_DROP_COUNT 0 + 1 ∧
      (s.fld Fld.EVT_ROUTE_KIND 41 ≠ 1 → u.evtStatus 41 = true) ∧ onlyRaising s u [⟨.TLK_TRIG_DROP, 0⟩] [41] := by
  have hact : (s.at t).tlkTrig (tlkSub m) (tlkArg m) = ((s.at t).bump Fld.TLK_TRIG_DROP_COUNT 0 1).raise0 41 := by
    rw [State.tlkTrig]
    dsimp only
    rw [if_pos]
    rcases hno with hno | hno
    · simp [hno]
    · rw [State.at_fld, hno, Bool.not_false, Bool.or_true]
  obtain ⟨u, hu, hn, ho⟩ := s.done_onlyRaising (x := t) (t := ((s.at t).bump Fld.TLK_TRIG_DROP_COUNT 0 1).raise0 41)
    (but := [⟨.TLK_TRIG_DROP, 0⟩]) (srcs := [41]) (.raise0 (by simp) (.bump (by simp) rfl (.refl _ _ _)))
  refine ⟨u, ?_, ?_, ?_, fun hk => ?_, ho⟩
  · rw [exec, execTlkTrigMsg, State.when_eq h.1, State.tlkBlock_of_blockIn h ht (by simp [tlkBad, ht]), hact]
    exact hu
  · rw [hn.tlk, State.raise0, State.raise_tlk, State.bump_tlk, State.at_tlk]
  · rw [hn.fld _ _ rfl]
    simp at hcnt ⊢
    omega
  · rw [hn.evtStatus (by decide)]
    exact State.raise0_hubSource rfl (by simpa using hk)

/-- Settles O19: a broadcast by whether it is refused, a trigger by whether its line is enabled. -/
theorem broadcastsWait : Obligations.BroadcastsWait := by
  intro s t m h hp
  refine ⟨fun hr => ⟨fun ht => ?_, fun ht => ?_, fun ht => ?_⟩, fun hr ht => tlkArmMsg_drops t h ht hp hr,
    fun ht hrel hline hlen x => tlkTrigMsg_waits t h ht hrel hline hlen x, fun ht => tlkTrigMsg_drops t h ht⟩
  · obtain ⟨hd, hw⟩ := State.bcast_waits t 2 (tlkSub m) _ hp hr
    refine ⟨_, ?_, hw⟩
    rw [exec, execTlkSyncMsg, State.when_eq h.1, State.tlkBlock_of_blockIn h ht (by simp [tlkBad, ht])]
    exact hd
  · obtain ⟨hd, hw⟩ := State.bcast_waits t 3 (tlkSub m) _ hp hr
    refine ⟨_, ?_, hw⟩
    rw [exec, execTlkArmMsg, State.when_eq h.1, State.tlkBlock_of_blockIn h ht (by simp [tlkBad, ht])]
    exact hd
  · obtain ⟨hd, hw⟩ := State.bcast_waits t 4 (tlkSub m) _ hp hr
    refine ⟨_, ?_, hw⟩
    rw [exec, execTlkDisarmMsg, State.when_eq h.1, State.tlkBlock_of_blockIn h ht (by simp [tlkBad, ht])]
    exact hd

end Sys2Proof.Machine
end

section
/-! SUPPORT. The commands of the host mailbox: what a command finds when it runs, and what its end shows (R387). -/

namespace Sys2Proof.Machine

variable {s t u : State} {but : List Reg} {srcs : List Nat}

/-! ### Changes of registers and of what raising events changes -/

/-- From `s` to `t` nothing has changed but registers and what raising sources changes. -/
def keepsRest (s t : State) : Prop :=
  ∃ regs sram nextSeq logged deferred trigOut raises pba basecamp out free,
    t = { s with
      regs := regs, trigOut := trigOut, out := out, free := free
      mgt := { s.mgt with sram := sram, nextSeq := nextSeq, logged := logged, deferred := deferred }
      evt := { s.evt with raises := raises, pba := pba, basecamp := basecamp } }

theorem keepsRest.refl (s : State) : keepsRest s s := ⟨_, _, _, _, _, _, _, _, _, _, _, rfl⟩

theorem Raises.keepsRest {ns : List Nat} (h : Raises s t ns) : keepsRest s t := h.rest

theorem keepsRest.trans (h : keepsRest s t) (g : keepsRest t u) : keepsRest s u := by
  obtain ⟨_, _, _, _, _, _, _, _, _, _, _, rfl⟩ := h
  obtain ⟨_, _, _, _, _, _, _, _, _, _, _, rfl⟩ := g
  exact ⟨_, _, _, _, _, _, _, _, _, _, _, rfl⟩

/-- But for its registers the state is as a raise leaves it. -/
theorem keepsRest.raises (h : keepsRest s t) : Raises s { t with regs := s.regs } [] := by
  obtain ⟨_, _, _, _, _, _, _, _, _, _, _, rfl⟩ := h
  exact ⟨fun _ _ _ => rfl, fun _ _ => ⟨rfl, rfl, rfl⟩, _, _, _, _, _, _, _, _, _, _, _, rfl⟩

theorem keepsRest.setReg {n : RegName} {i : Nat} {v : Word} (h : keepsRest s t) : keepsRest s (t.setReg n i v) :=
  h.trans ⟨_, _, _, _, _, _, _, _, _, _, _, rfl⟩

theorem keepsRest.setFld {f : Fld} {i x : Nat} (h : keepsRest s t) : keepsRest s (t.setFld f i x) := h.setReg

theorem keepsRest.step {ns : List Nat} (g : Raises t u ns) (h : keepsRest s t) : keepsRest s u := h.trans g.keepsRest

theorem keepsRest.ite {c : Prop} [Decidable c] {a b : State} (ha : keepsRest s a) (hb : keepsRest s b) :
    keepsRest s (if c then a else b) := by split <;> assumption

theorem keepsRest.foldl {α : Type} {f : State → α → State} (l : List α) (hf : ∀ a x, keepsRest a (f a x))
    (h : keepsRest s t) : keepsRest s (l.foldl f t) := by
  induction l generalizing t with
  | nil => exact h
  | cons x l ih => exact ih (h.trans (hf t x))

theorem keepsRest.mem (h : keepsRest s t) : t.mem = s.mem := h.raises.mem
theorem keepsRest.time (h : keepsRest s t) : t.time = s.time := h.raises.time
theorem keepsRest.pitch (h : keepsRest s t) : t.pitch = s.pitch := h.raises.pitch
theorem keepsRest.clk (h : keepsRest s t) : t.clk = s.clk := h.raises.clk
theorem keepsRest.gln (h : keepsRest s t) : t.gln = s.gln := h.raises.gln
theorem keepsRest.lanes (h : keepsRest s t) : t.lanes = s.lanes := h.raises.lanes
theorem keepsRest.flash (h : keepsRest s t) : t.mgt.flash = s.mgt.flash := h.raises.mgt_flash

/-! ### The end of a command -/

/-- The result registers after the results have been written. -/
theorem State.mbRes_foldl (s : State) (rs : List Word) (l : List Nat) (hl : l.Nodup) :
    let u := l.foldl (fun x a => x.setReg .MGT_MB_RES a (rs.getD a 0)) s
    (∀ a ∈ l, u.reg .MGT_MB_RES a = rs.getD a 0) ∧
      onlyRegs s u (l.map fun a => ⟨.MGT_MB_RES, a⟩) ∧ keepsRest s u := by
  induction l generalizing s with
  | nil => exact ⟨fun _ h => absurd h List.not_mem_nil, .refl _ _, .refl _⟩
  | cons b l ih =>
    obtain ⟨hb, hl⟩ := List.nodup_cons.1 hl
    obtain ⟨h1, h2, h3⟩ := ih (s.setReg .MGT_MB_RES b (rs.getD b 0)) hl
    refine ⟨fun a ha => ?_, .trans (.setReg (by simp) (.refl _ _)) (h2.mono (by simp)), .trans (.setReg (.refl _)) h3⟩
    rw [List.foldl_cons]
    rcases List.mem_cons.1 ha with rfl | ha
    · rw [h2.1 _ _ (by simpa using hb), State.reg_setReg_same]
    · exact h1 a ha

/-- What the end of a command shows (R387 item 3). -/
theorem State.mbDone_reads (s : State) {status : Nat} (res : List Word) (hs : status < 256) :
    (s.mbDone status res).fld Fld.MGT_MB_STATE_STATE 0 = 2 ∧
      (s.mbDone status res).fld Fld.MGT_MB_STATE_STATUS 0 = status ∧
      (s.mbDone status res).fld Fld.MGT_MB_STATE_TAG 0 = s.fld Fld.MGT_MB_STATE_TAG 0 ∧
      (∀ a (h : a < res.length), a < 8 → (s.mbDone status res).reg .MGT_MB_RES a = res[a]) ∧
      (s.fld Fld.EVT_ROUTE_KIND 456 ≠ 1 → (s.mbDone status res).evtStatus 456 = true) ∧
      onlyRaising s (s.mbDone status res) boxRegs [456] ∧ keepsRest s (s.mbDone status res) := by
  obtain ⟨h1, h2, h3⟩ := ({ s with free := s.free + 8 } : State).mbRes_foldl (s.mbResults res) (List.range 8)
    List.nodup_range
  obtain ⟨x, hx⟩ : ∃ x, x = (List.range 8).foldl (fun x a => x.setReg .MGT_MB_RES a ((s.mbResults res).getD a 0))
      ({ s with free := s.free + 8 } : State) := ⟨_, rfl⟩
  obtain ⟨y, hy⟩ : ∃ y, y = (x.setFld Fld.MGT_MB_STATE_STATUS 0 status).setFld Fld.MGT_MB_STATE_STATE 0 2 := ⟨_, rfl⟩
  rw [← hx] at h1 h2 h3
  have hu : s.mbDone status res = y.raise 456 1 status := by rw [hy, hx]; rfl
  have hxf : ∀ f : Fld, f.reg ≠ .MGT_MB_RES → ∀ i, x.fld f i = s.fld f i := fun f hf i => by
    have : x.fld f i = ({ s with free := s.free + 8 } : State).fld f i :=
      State.fld_of_reg (h2.1 _ _ (by simp [Ne.symm hf]))
    exact this
  have hsx : keepsRest s x := .trans ⟨_, _, _, _, _, _, _, _, _, _, _, rfl⟩ h3
  have hox : onlyRegs s x boxRegs :=
    .trans (.of_eq (t := s) rfl rfl (.refl _ _)) (h2.mono (List.subset_cons_self _ _))
  rw [hu]
  refine ⟨?_, ?_, ?_, fun a ha ha8 => ?_, fun hk => ?_, ?_, ?_⟩
  · rw [hy]; simp
  · rw [hy]; simp; omega
  · rw [hy]; simp; exact hxf _ (by simp) _
  · rw [State.raise_reg_of _ _ _ _ _ _ (by simp), hy, State.reg_setFld_ne _ _ _ _ _ _ (by simp),
      State.reg_setFld_ne _ _ _ _ _ _ (by simp), h1 a (List.mem_range.2 ha8)]
    simp [State.mbResults, ha8, ha]
  · refine State.raise_hubSource 1 status rfl ?_
    rw [hy, State.fld_setFld_ne _ _ _ _ _ _ (by simp), State.fld_setFld_ne _ _ _ _ _ _ (by simp), hxf _ (by simp)]
    exact hk
  · rw [hy]
    exact .raise (by simp) (.setFld (by simp [boxRegs]) rfl (.setFld (by simp [boxRegs]) rfl (hox.raising rfl)))
  · rw [hy]
    exact .step (State.raise_raises _ _ _) (hsx.setFld.setFld)

/-! ### A command that runs -/

theorem State.mbArgs_of_reg (h : ∀ a, t.reg .MGT_MB_ARG a = s.reg .MGT_MB_ARG a) : t.mbArgs = s.mbArgs := by
  rw [State.mbArgs, State.mbArgs]
  exact List.map_congr_left fun a _ => h a

/-- The state in which a command runs. -/
theorem State.mbRunning_reads (s : State) (tag : Byte) :
    (s.mbRunning tag).fld Fld.MGT_MB_STATE_TAG 0 = tag.toNat ∧
      onlyRegs s (s.mbRunning tag) [⟨.MGT_MB_STATE, 0⟩, ⟨.HUB_PITCH_STATUS, 0⟩] ∧ keepsRest s (s.mbRunning tag) ∧
      (s.fld Fld.MGT_MB_CMD_CMD 0 ≠ 0x10 → onlyRegs s (s.mbRunning tag) [⟨.MGT_MB_STATE, 0⟩]) := by
  obtain ⟨x, hx⟩ : ∃ x, x = (s.setFld Fld.MGT_MB_STATE_STATE 0 1).setFld Fld.MGT_MB_STATE_TAG 0 tag.toNat := ⟨_, rfl⟩
  have hu : s.mbRunning tag = x.pitchLoading := by rw [hx]; rfl
  have hxo : onlyRegs s x [⟨.MGT_MB_STATE, 0⟩] := by
    rw [hx]
    exact .setFld (by simp) (.setFld (by simp) (.refl _ _))
  have hxk : keepsRest s x := by
    rw [hx]
    exact (keepsRest.refl s).setFld.setFld
  have htag : x.fld Fld.MGT_MB_STATE_TAG 0 = tag.toNat := by
    rw [hx]
    simp
    exact tag.isLt
  rw [hu]
  unfold State.pitchLoading
  refine ⟨?_, .ite (.setFld (by simp) (hxo.mono (by simp))) (hxo.mono (by simp)), .ite hxk.setFld hxk, fun hc => ?_⟩
  · split
    · simp [htag]
    · exact htag
  · rw [if_neg]
    · exact hxo
    · rintro ⟨h, -⟩
      rw [State.fld_of_reg (hxo.1 _ _ (by simp))] at h
      exact hc h

theorem State.logCmd_raises (s : State) (cmd status : Nat) : Raises s (s.logCmd cmd status) [] := by
  unfold State.logCmd
  exact .ite (State.used_raises.trans (State.logNote_raises _ _ _)) (.refl _ _)

/-- A mailbox that is IDLE runs the command to its end, whose state is `e.s`. -/
theorem mbWhen_ends {cmd : Nat} (x : Tu) (tag : Byte) (h : boxReady s cmd) {f : State → List Word → MbEnd} {e : MbEnd}
    (he : f ((s.at x).mbRunning tag) s.mbArgs = e) (ho : onlyRaising ((s.at x).mbRunning tag) e.s but srcs)
    (hb : ∀ r ∈ but, r.n ≠ .MGT_MB_STATE ∧ r.n ≠ .EVT_ROUTE) (hst : e.status < 256) :
    ∃ u, s.mbWhen x tag cmd f = .next u ∧ boxDone s u tag e.status ∧ keepsRest e.s u ∧
      onlyRaising e.s u boxRegs [456] ∧ ∀ a (h : a < e.res.length), a < 8 → u.reg .MGT_MB_RES a = e.res[a] := by
  obtain ⟨hup, hrun, hcmd, hidle⟩ := h
  obtain ⟨hrt, hro, -, -⟩ := (s.at x).mbRunning_reads tag
  have hargs : ((s.at x).mbRunning tag).mbArgs = s.mbArgs :=
    State.mbArgs_of_reg fun a => (hro.1 _ _ (by simp)).trans (State.at_reg _ _ _ _)
  have hissue : (s.at x).mbIssue tag cmd f = (e.s.logCmd cmd e.status).mbDone e.status e.res := by
    rw [State.mbIssue, State.at_fld, State.at_mgt, hcmd, hrun, if_neg (by simp), State.mbTaken, State.at_fld, hidle]
    dsimp only
    rw [if_neg (by simp), if_neg (by simp), hargs, he]
  have hl := e.s.logCmd_raises cmd e.status
  obtain ⟨h1, h2, h3, h4, h5, h6, h7⟩ := (e.s.logCmd cmd e.status).mbDone_reads e.res hst
  obtain ⟨u, hu, hn⟩ := s.done_notes ((s.at x).mbIssue tag cmd f)
  rw [hissue] at hn
  have hfld : ∀ g i, (∀ r ∈ but, g.reg ≠ r.n) → eventReg g.reg = false → (e.s.logCmd cmd e.status).fld g i =
      ((s.at x).mbRunning tag).fld g i := fun g i hg he => by
    rw [hl.fld _ _ he]
    exact ho.fld (fun hm => hg _ hm rfl) he
  refine ⟨u, ?_, ⟨?_, ?_, ?_, fun hk => ?_⟩, ?_, ?_, fun a ha ha8 => ?_⟩
  · rw [State.mbWhen, State.whenHost_eq hup]
    exact hu
  · rw [hn.fld _ _ rfl, h1]
  · rw [hn.fld _ _ rfl, h3, hfld _ _ (fun r hr => (hb r hr).1.symm) rfl, hrt]
  · rw [hn.fld _ _ rfl, h2]
  · rw [hn.evtStatus (by decide)]
    refine h5 ?_
    rw [hfld _ _ (fun r hr => (hb r hr).2.symm) rfl, State.fld_of_reg (hro.1 _ _ (by simp)), State.at_fld]
    exact hk
  · exact .trans hl.keepsRest (.trans h7 hn.keepsRest)
  · exact .trans (hl.only fun _ h => absurd h List.not_mem_nil) (.trans h6 hn.onlyNotes)
  · rw [hn.reg _ _ rfl, h4 a ha ha8]

/-- A command that is not a load of an image: what it leaves alone, from before it was issued. -/
theorem mbRunning_only {cmd : Nat} {x : Tu} {tag : Byte} {w : State} (h : boxReady s cmd) (hc : cmd ≠ 0x10)
    (g : onlyRaising ((s.at x).mbRunning tag) w but srcs) (hu : onlyRaising w u boxRegs [456]) (hb : boxRegs ⊆ but)
    (hs : 456 ∈ srcs) : onlyRaising s u but srcs := by
  obtain ⟨-, -, hcmd, -⟩ := h
  have hrun := ((s.at x).mbRunning_reads tag).2.2.2 (by rw [State.at_fld, hcmd]; exact hc)
  refine .at (x := x) (.and_then hu hb (by simpa using hs) (.trans (hrun.raising rfl |>.mono ?_ fun _ h => h) g))
  exact fun r hr => hb (List.mem_cons.2 (.inl (List.mem_singleton.1 hr)))

end Sys2Proof.Machine
end

section
/-! SUPPORT. The multiplexers of the clocks, and what follows the source of an AUXCLK output (R104, R105, R126). -/

namespace Sys2Proof.Machine

variable {s t u : State} {but : List Reg} {srcs : List Nat}

/-! ### AUXCLK outputs -/

/-- Only the AUXCLK outputs, the PLL's table of them and what leaves the device have changed. -/
def auxOnly (s t : State) : Prop := ∃ aux out free, t = { s with pll := { s.pll with aux := aux }, out := out, free := free }

theorem auxOnly.refl (s : State) : auxOnly s s := ⟨_, _, _, rfl⟩

theorem auxOnly.trans (h : auxOnly s t) (g : auxOnly t u) : auxOnly s u := by
  obtain ⟨_, _, _, rfl⟩ := h
  obtain ⟨_, _, _, rfl⟩ := g
  exact ⟨_, _, _, rfl⟩

theorem auxOnly.regs (h : auxOnly s t) : t.regs = s.regs := by obtain ⟨_, _, _, rfl⟩ := h; rfl
theorem auxOnly.mem (h : auxOnly s t) : t.mem = s.mem := by obtain ⟨_, _, _, rfl⟩ := h; rfl
theorem auxOnly.clk (h : auxOnly s t) : t.clk = s.clk := by obtain ⟨_, _, _, rfl⟩ := h; rfl
theorem auxOnly.time (h : auxOnly s t) : t.time = s.time := by obtain ⟨_, _, _, rfl⟩ := h; rfl
theorem auxOnly.feedsLow (h : auxOnly s t) : t.pll.feedsLow = s.pll.feedsLow := by obtain ⟨_, _, _, rfl⟩ := h; rfl

theorem auxOnly.onlyRegs (g : auxOnly t u) (h : onlyRegs s t but) : onlyRegs s u but := .of_eq g.regs g.mem h

theorem State.auxPut_only (s : State) (i : Nat) (a : Aux) : auxOnly s (s.auxPut i a) := by
  unfold State.auxPut
  split
  · exact .refl _
  · exact ⟨_, _, _, rfl⟩

theorem State.auxOut_only (s : State) (i : Nat) (x : Ratio) : auxOnly s (s.auxOut i x) := by
  unfold State.auxOut
  dsimp only
  split
  · exact .refl _
  · exact s.auxPut_only _ _

theorem State.auxCut_only (s : State) (i : Nat) : auxOnly s (s.auxCut i) := s.auxPut_only _ _

theorem State.auxStart_only (s : State) (i : Nat) (x : Ratio) : auxOnly s (s.auxStart i x) := by
  unfold State.auxStart
  dsimp only
  split
  · exact s.auxCut_only i
  · exact s.auxPut_only _ _

theorem State.auxFresh_only (s : State) (i : Nat) : auxOnly s (s.auxFresh i) := by
  unfold State.auxFresh
  split
  · exact s.auxCut_only i
  · exact .trans ⟨_, _, _, rfl⟩ (s.used.auxStart_only _ _)

theorem State.auxFollow_only (s : State) (m : Nat) {f : State → Nat → State} (hf : ∀ a i, auxOnly a (f a i)) :
    auxOnly s (s.auxFollow m f) := by
  unfold State.auxFollow State.each
  generalize List.range 4 = l
  induction l generalizing s with
  | nil => exact .refl _
  | cons i l ih =>
    refine .trans ?_ (ih _)
    dsimp only
    split
    · exact hf _ _
    · exact .refl _

/-! ### Multiplexers -/

theorem State.pmuSwitched_same (s : State) :
    s.pmuSwitched.regs = s.regs ∧ s.pmuSwitched.mem = s.mem ∧ s.pmuSwitched.clk = s.clk := ⟨rfl, rfl, rfl⟩

@[simp] theorem State.muxState_setMux (s : State) {m : Nat} (x : Nat) (hm : m < 16) :
    (s.setMux m x).muxState m = x % 4 := by
  rw [State.muxState, State.setMux, State.reg_setReg_same, getBits_putBits_same _ _ _ _ (by omega)]
  rfl

theorem State.muxState_of_reg {m : Nat} (h : t.reg .CLK_MUX_STATUS 0 = s.reg .CLK_MUX_STATUS 0) :
    t.muxState m = s.muxState m := by rw [State.muxState, State.muxState, h]

theorem State.setMux_only (s : State) (m x : Nat) : onlyRegs s (s.setMux m x) [⟨.CLK_MUX_STATUS, 0⟩] :=
  .setReg (by simp) (.refl _ _)

@[simp] theorem State.at_muxState (s : State) (t : Tu) (m : Nat) : (s.at t).muxState m = s.muxState m :=
  State.muxState_of_reg (State.at_reg _ _ _ _)

/-- A change of the pixel clock shows in RAS_STATUS alone. -/
theorem State.pixChange_only (s : State) (runs : Bool) :
    onlyRegs s (s.pixChange runs) [⟨.RAS_STATUS, 0⟩] ∧ (s.pixChange runs).clk = s.clk := by
  obtain ⟨x, hx⟩ : ∃ x, x = if s.fld Fld.RAS_STATUS_STATE 0 = 0 then s else
      (s.setFld Fld.RAS_STATUS_STATE 0 2).modRas fun r =>
        { r with abandoned := r.abandoned || s.inPicture, frame := false, teWait := false,
                 restartFrom := if runs then some s.time else none } := ⟨_, rfl⟩
  have hxo : onlyRegs s x [⟨.RAS_STATUS, 0⟩] ∧ x.clk = s.clk := by
    rw [hx]
    split
    · exact ⟨.refl _ _, rfl⟩
    · exact ⟨.of_eq rfl rfl (.setFld (f := Fld.RAS_STATUS_STATE) (t := s) (i := 0) (x := 2) (by simp) (.refl _ _)), rfl⟩
  have hu : s.pixChange runs = if x.inForceOk then x else
      (x.setFld Fld.RAS_STATUS_TIMING_ERR 0 1).modRas fun r => { r with dsiStopped := true } := by rw [hx]; rfl
  rw [hu]
  split
  · exact hxo
  · exact ⟨.of_eq rfl rfl (.setFld (f := Fld.RAS_STATUS_TIMING_ERR) (t := x) (i := 0) (x := 1) (by simp) hxo.1), hxo.2⟩

/-- A multiplexer that has settled: IDLE, with the selection in effect, and nothing else of its registers. -/
theorem State.muxSettled_reads (s : State) {m : Nat} (sel : Nat) (hm : m < 7) :
    (s.muxSettled m sel).muxState m = 0 ∧ tget 0 (s.muxSettled m sel).clk.muxNow m = sel ∧
      onlyRegs s (s.muxSettled m sel) [⟨.CLK_MUX_STATUS, 0⟩] := by
  obtain ⟨x, hx⟩ : ∃ x : State, x = { (s.setMux m 0) with clk := { s.clk with
    switching := s.clk.switching.filter fun e => e.1 ≠ m, muxNow := tput 0 s.clk.muxNow m sel } } := ⟨_, rfl⟩
  have hxo : onlyRegs s x [⟨.CLK_MUX_STATUS, 0⟩] := by
    rw [hx]
    exact .of_eq rfl rfl (s.setMux_only m 0)
  have hxm : x.muxState m = 0 := by
    have h : x.muxState m = (s.setMux m 0).muxState m := State.muxState_of_reg (by rw [hx]; rfl)
    rw [h, State.muxState_setMux _ _ (by omega)]
  have hxn : tget 0 x.clk.muxNow m = sel := by rw [hx]; exact tget_tput_same _ _ _ _
  have hkeep : ∀ y : State, y.regs = x.regs → y.mem = x.mem → y.clk = x.clk →
      y.muxState m = 0 ∧ tget 0 y.clk.muxNow m = sel ∧ Machine.onlyRegs s y [⟨.CLK_MUX_STATUS, 0⟩] := fun y h1 h2 h3 =>
    ⟨by rw [← hxm]; exact State.muxState_of_reg (by rw [State.reg, State.reg, h1]), by rw [h3]; exact hxn,
      .of_eq h1 h2 hxo⟩
  have hu : s.muxSettled m sel = if m = 1 then
        if x.fld Fld.RAS_STATUS_STATE 0 = 2 ∧ x.pixRuns then x.modRas fun r => { r with restartFrom := some x.time } else x
      else if m = 2 then x.pmuSwitched
      else if 3 ≤ m then x.auxFresh (m - 3)
      else x := by rw [hx]; rfl
  rw [hu]
  split
  · split
    · exact hkeep _ rfl rfl rfl
    · exact hkeep _ rfl rfl rfl
  · split
    · exact hkeep _ rfl rfl rfl
    · split
      · have ha := x.auxFresh_only (m - 3)
        exact hkeep _ ha.regs ha.mem ha.clk
      · exact hkeep _ rfl rfl rfl

/-! ### The commands -/

theorem execClkMuxSelWrite_eq (t : Tu) (m : Fin 7) (sel : Fin 4) (hup : s.hostUp = true) :
    exec (.clkMuxSelWrite t m sel) s = s.done ((s.at t).writeMuxSel m sel) := by
  rw [exec, execClkMuxSelWrite, State.whenHost_eq hup]

/-- The selection of another input starts a switch (R104). -/
theorem clkMuxSelWrite_starts (t : Tu) (m : Fin 7) (sel : Fin 4) (hup : s.hostUp = true) (hm : m.val ≠ 0)
    (hidle : s.muxState m = 0) (hin : muxInput m sel = true) (hne : sel.val ≠ tget 0 s.clk.muxNow m) :
    ∃ u, exec (.clkMuxSelWrite t m sel) s = .next u ∧ u.fld Fld.CLK_MUX_SEL_SEL m = sel ∧
      u.muxState m = 1 ∧ tget 0 u.clk.muxNow m = tget 0 s.clk.muxNow m ∧
      onlyRegs s u ([⟨.CLK_MUX_SEL, m⟩, ⟨.CLK_MUX_STATUS, 0⟩] ++ if m.val = 1 then [⟨.RAS_STATUS, 0⟩] else []) := by
  obtain ⟨x, hx⟩ : ∃ x : State, x = { ((s.at t).setFld Fld.CLK_MUX_SEL_SEL m sel).setMux m 1 with
      clk := { (s.at t).clk with switching := tins (s.at t).clk.switching m ((s.at t).time, sel) } } := ⟨_, rfl⟩
  have hw : (s.at t).writeMuxSel m sel = if m.val = 1 then x.pixChange false else x := by
    rw [State.writeMuxSel, State.at_muxState, hidle, if_neg (by omega), hin, hx]
    dsimp only
    rw [if_neg (by simpa using hne)]
    rfl
  have hxo : onlyRegs (s.at t) x [⟨.CLK_MUX_SEL, m⟩, ⟨.CLK_MUX_STATUS, 0⟩] := by
    rw [hx]
    exact .of_eq rfl rfl (.trans (.setFld (f := Fld.CLK_MUX_SEL_SEL) (by simp) (.refl _ _))
      ((State.setMux_only _ m 1).mono (by simp)))
  have hsel : x.fld Fld.CLK_MUX_SEL_SEL m = sel := by
    rw [hx]
    simp [State.setMux]
  have hst : x.muxState m = 1 := by
    have h : x.muxState m = (((s.at t).setFld Fld.CLK_MUX_SEL_SEL m sel).setMux m 1).muxState m :=
      State.muxState_of_reg (by rw [hx]; rfl)
    rw [h, State.muxState_setMux _ _ (by omega)]
  have hnow : tget 0 x.clk.muxNow m = tget 0 s.clk.muxNow m := by
    rw [hx]
    show tget 0 (s.at t).clk.muxNow m = _
    rw [State.at_clk]
  rw [execClkMuxSelWrite_eq t m sel hup, hw]
  by_cases h1 : m.val = 1
  · obtain ⟨hpo, hpc⟩ := x.pixChange_only false
    obtain ⟨hd, ho⟩ := State.done_onlyRegs (s := s) (x := t) (t := x.pixChange false)
      (but := [⟨.CLK_MUX_SEL, m⟩, ⟨.CLK_MUX_STATUS, 0⟩, ⟨.RAS_STATUS, 0⟩])
      ((hxo.mono (by simp)).trans (hpo.mono (by simp))) rfl
    rw [if_pos h1, if_pos h1]
    refine ⟨_, hd, ?_, ?_, ?_, ho⟩
    · rw [State.fld_of_reg (hpo.1 _ _ (by simp)), hsel]
    · rw [State.muxState_of_reg (hpo.1 _ _ (by simp)), hst]
    · rw [hpc, hnow]
  · obtain ⟨hd, ho⟩ := State.done_onlyRegs hxo rfl
    rw [if_neg h1, if_neg h1]
    exact ⟨_, hd, hsel, hst, hnow, ho⟩

/-- The selection of the input in effect, or of one that there is not, is stored (log 63). -/
theorem clkMuxSelWrite_stores (t : Tu) (m : Fin 7) (sel : Fin 4) (hup : s.hostUp = true) (hm : m.val ≠ 0)
    (hidle : s.muxState m = 0) (hno : muxInput m sel = false ∨ sel.val = tget 0 s.clk.muxNow m) :
    ∃ u, exec (.clkMuxSelWrite t m sel) s = .next u ∧ u.fld Fld.CLK_MUX_SEL_SEL m = sel ∧ u.clk = s.clk ∧
      onlyRegs s u [⟨.CLK_MUX_SEL, m⟩] := by
  have hw : (s.at t).writeMuxSel m sel = (s.at t).setFld Fld.CLK_MUX_SEL_SEL m sel := by
    rw [State.writeMuxSel, State.at_muxState, hidle, if_neg (by omega), State.at_clk]
    dsimp only
    rw [if_pos (by simpa using hno)]
  obtain ⟨hd, ho⟩ := State.done_onlyRegs (s := s) (x := t) (but := [⟨.CLK_MUX_SEL, m⟩])
    (.setFld (f := Fld.CLK_MUX_SEL_SEL) (i := m) (x := sel) (by simp) (.refl _ _)) rfl
  rw [execClkMuxSelWrite_eq t m sel hup, hw]
  exact ⟨_, hd, by simp, by simp, ho⟩

theorem clkMuxSelWrite_ignored (t : Tu) (m : Fin 7) (sel : Fin 4) (hup : s.hostUp = true) (hrun : s.muxState m ≠ 0) :
    ∃ u, exec (.clkMuxSelWrite t m sel) s = .next u ∧ u.clk = s.clk ∧ onlyRegs s u [] := by
  have hw : (s.at t).writeMuxSel m sel = s.at t := by
    rw [State.writeMuxSel, State.at_muxState, if_pos (.inr (.inr hrun))]
  obtain ⟨hd, -, ho⟩ := s.done_at t
  rw [execClkMuxSelWrite_eq t m sel hup, hw]
  exact ⟨_, hd, State.at_clk _ _, ho⟩

theorem clkMuxSwitchDone_settles (t : Tu) (m : Fin 7) (ha : s.alive = true) (hm : m.val ≠ 0) (hrun : s.muxState m = 1) :
    ∃ u, exec (.clkMuxSwitchDone t m) s = .next u ∧ u.muxState m = 0 ∧
      tget 0 u.clk.muxNow m = s.fld Fld.CLK_MUX_SEL_SEL m ∧ onlyRegs s u [⟨.CLK_MUX_STATUS, 0⟩] := by
  obtain ⟨h1, h2, h3⟩ := (s.at t).muxSettled_reads (s.fld Fld.CLK_MUX_SEL_SEL m) m.isLt
  obtain ⟨hd, ho⟩ := State.done_onlyRegs h3 rfl
  refine ⟨_, ?_, h1, h2, ho⟩
  rw [exec, execClkMuxSwitchDone, State.when_eq ha, State.at_muxState, if_pos ⟨hrun, hm⟩, State.at_fld, hd]

/-- 10 µs after the write a switch that has not completed is stuck (R105). -/
theorem clkMuxStuck_shows (t : Tu) (m : Fin 7) (ha : s.alive = true) (hm : m.val ≠ 0) (hrun : s.muxState m = 1)
    {e : Nat × Tu × Nat} (he : s.clk.switching.find? (fun e => e.1 == m.val) = some e)
    (hle : tuLe (tuAdd e.2.1 (ns 10000)) (s.at t).time = true) :
    ∃ u, exec (.clkMuxStuck t m) s = .next u ∧ u.muxState m = 2 ∧
      (s.fld Fld.EVT_ROUTE_KIND 5 ≠ 1 → u.evtStatus 5 = true) ∧ onlyRaising s u [⟨.CLK_MUX_STATUS, 0⟩] [5] := by
  obtain ⟨k, t0, sel⟩ := e
  obtain ⟨x, hx⟩ : ∃ x : State, x = { (s.at t).setMux m 2 with clk := { s.clk with
      switching := s.clk.switching.filter fun e => e.1 ≠ m.val } } := ⟨_, rfl⟩
  have hxo : onlyRegs (s.at t) x [⟨.CLK_MUX_STATUS, 0⟩] := by
    rw [hx]
    exact .of_eq rfl rfl ((s.at t).setMux_only m 2)
  have hexec : exec (.clkMuxStuck t m) s = s.done (x.raise0 5) := by
    rw [exec, execClkMuxStuck, State.when_eq ha, State.at_clk, he, State.at_muxState]
    dsimp only
    rw [if_pos ⟨hrun, hm, hle⟩, hx]
    rw [show ((s.at t).setMux m 2).clk = s.clk from State.at_clk s t]
  have hst : x.muxState m = 2 := by
    have h : x.muxState m = ((s.at t).setMux m 2).muxState m := State.muxState_of_reg (by rw [hx]; rfl)
    rw [h, State.muxState_setMux _ _ (by omega)]
  obtain ⟨u, hu, hn, ho⟩ := s.done_onlyRaising (x := t) (t := x.raise0 5) (but := [⟨.CLK_MUX_STATUS, 0⟩]) (srcs := [5])
    (.raise0 (by simp) (hxo.raising rfl))
  refine ⟨u, hexec.trans hu, ?_, fun hk => ?_, ho⟩
  · rw [State.muxState_of_reg ((hn.reg _ _ rfl).trans (State.raise0_reg_of _ _ _ _ rfl)), hst]
  · rw [hn.evtStatus (by decide)]
    refine State.raise0_hubSource rfl ?_
    rw [State.fld_of_reg (hxo.1 _ _ (by simp)), State.at_fld]
    exact hk

/-- A stuck multiplexer behind a closed gate takes its selection by force (R105). -/
theorem mbClkmuxForce_settles (t : Tu) (tag : Byte) (hb : boxReady s 0x30) (h1 : 1 ≤ argAt s.mbArgs 0)
    (h6 : argAt s.mbArgs 0 ≤ 6) (hg : s.clk.gate = none) (hst : s.muxState (argAt s.mbArgs 0) = 2)
    (hopen : s.gateOpen (muxNode (argAt s.mbArgs 0)) = false) :
    ∃ u, exec (.mbClkmuxForce t tag) s = .next u ∧ u.muxState (argAt s.mbArgs 0) = 0 ∧
      tget 0 u.clk.muxNow (argAt s.mbArgs 0) = s.fld Fld.CLK_MUX_SEL_SEL (argAt s.mbArgs 0) ∧ boxDone s u tag mbOk ∧
      onlyRaising s u (⟨.CLK_MUX_STATUS, 0⟩ :: boxRegs) [456] := by
  obtain ⟨-, hro, hrk, -⟩ := (s.at t).mbRunning_reads tag
  obtain ⟨w, hw⟩ : ∃ w, w = (s.at t).mbRunning tag := ⟨_, rfl⟩
  rw [← hw] at hro hrk
  have hreg : ∀ n i, n ≠ .MGT_MB_STATE → n ≠ .HUB_PITCH_STATUS → w.reg n i = s.reg n i := fun n i h1 h2 =>
    (hro.1 _ _ (by simp [h1, h2])).trans (State.at_reg _ _ _ _)
  have hsel : w.fld Fld.CLK_MUX_SEL_SEL (argAt s.mbArgs 0) = s.fld Fld.CLK_MUX_SEL_SEL (argAt s.mbArgs 0) :=
    State.fld_of_reg (hreg _ _ (by simp) (by simp))
  have hf : clkmuxForce w s.mbArgs = ⟨w.muxSettled (argAt s.mbArgs 0) (s.fld Fld.CLK_MUX_SEL_SEL (argAt s.mbArgs 0)),
      mbOk, []⟩ := by
    have hgo : w.gateOpen (muxNode (argAt s.mbArgs 0)) = false := by
      rw [← hopen, State.gateOpen, State.gateOpen, hreg _ _ (by simp) (by simp), hreg _ _ (by simp) (by simp)]
    have hms : w.muxState (argAt s.mbArgs 0) = 2 := by
      rw [State.muxState_of_reg (hreg _ _ (by simp) (by simp)), hst]
    rw [clkmuxForce, hrk.clk, State.at_clk, hg, hgo, hms, hsel, if_neg (by omega), if_neg (by simp), if_neg (by simp)]
  obtain ⟨g1, g2, g3⟩ := w.muxSettled_reads (s.fld Fld.CLK_MUX_SEL_SEL (argAt s.mbArgs 0)) (show argAt s.mbArgs 0 < 7 by omega)
  have hwo : onlyRaising w (w.muxSettled (argAt s.mbArgs 0) (s.fld Fld.CLK_MUX_SEL_SEL (argAt s.mbArgs 0)))
      [⟨.CLK_MUX_STATUS, 0⟩] [] := g3.raising rfl
  rw [hw] at hf hwo
  obtain ⟨u, hu, hdone, hk, huo, -⟩ := mbWhen_ends t tag hb hf hwo (by simp) (show mbOk < 256 by decide)
  rw [← hw] at hk huo
  refine ⟨u, ?_, ?_, ?_, hdone, mbRunning_only hb (by decide) (hwo.mono (by simp) (by simp)) (by rw [← hw]; exact huo)
    (by simp) (by simp)⟩
  · rw [exec, execMbClkmuxForce]
    exact hu
  · rw [State.muxState_of_reg (huo.1 _ _ (by simp [boxRegs]) rfl)]
    exact g1
  · rw [hk.clk]
    exact g2

/-- The control multiplexer shows the RC oscillator (R104). -/
theorem ctlMuxSwitch_shows (t : Tu) {toRc : Bool} (ha : s.alive = true) (h : toRc = true ∨
    (s.flag Fld.PLL_JPLL_STATUS_LOCK 0 = true ∨ s.flag Fld.PLL_JPLL_STATUS_COAST 0 = true)) :
    ∃ u, exec (.ctlMuxSwitch t toRc) s = .next u ∧ u.muxState 0 = (if toRc then 3 else 0) ∧
      onlyRegs s u [⟨.CLK_MUX_STATUS, 0⟩] := by
  obtain ⟨hd, ho⟩ := State.done_onlyRegs ((s.at t).setMux_only 0 (if toRc then 3 else 0)) rfl
  refine ⟨_, ?_, ?_, ho⟩
  · rw [exec, execCtlMuxSwitch, State.when_eq ha, State.at_flag, State.at_flag]
    cases toRc with
    | true => exact hd
    | false => rw [if_neg Bool.false_ne_true, if_pos (by simpa using h)]; exact hd
  · rw [State.muxState_setMux _ _ (by decide)]
    cases toRc <;> rfl

/-- Settles O20. -/
theorem multiplexersSwitch : Obligations.MultiplexersSwitch := by
  intro s t
  refine ⟨fun m sel hup hm => ⟨clkMuxSelWrite_starts t m sel hup hm, clkMuxSelWrite_stores t m sel hup hm,
      clkMuxSelWrite_ignored t m sel hup⟩,
    fun m ha hm hrun => ⟨clkMuxSwitchDone_settles t m ha hm hrun, fun e he => clkMuxStuck_shows t m ha hm hrun he⟩,
    fun tag => mbClkmuxForce_settles t tag, fun ha => ⟨ctlMuxSwitch_shows t ha (.inl rfl), fun h =>
      ctlMuxSwitch_shows t ha (.inr h)⟩⟩

end Sys2Proof.Machine
end

section
/-! SUPPORT. What stopping and starting the clock of a node changes: registers and settings of the units, and none of the
hub's registers that tell of clocks, power and boot (R108, R109, R419). -/

namespace Sys2Proof.Machine

variable {s t u : State} {but : List Reg} {srcs : List Nat}

/-- Registers of the hub that no unit's stop or start changes. -/
def keptHere (n : RegName) : Bool :=
  [RegName.CLK_GATE_STATE_LO, .CLK_GATE_STATE_HI, .CLK_GATE_RESULT, .CLK_SRC_STATUS, .CLK_MUX_STATUS, .HUB_PWR_STATUS,
    .HUB_PITCH_STATUS, .HUB_BOOT_STATUS, .TLK_STATUS, .EVT_ROUTE].contains n

/-- Only units have changed. -/
structure UnitsOnly (s t : State) : Prop where
  reg : ∀ n i, keptHere n = true → t.reg n i = s.reg n i
  mem : t.mem = s.mem
  clk : t.clk = s.clk
  pwr : ∃ w, t.pwr = { s.pwr with woken := w }
  time : t.time = s.time
  run : t.mgt.run = s.mgt.run
  status : ∀ k, 410 ≤ k → t.evtStatus k = s.evtStatus k

/-- Neither kept here, nor the STATUS bits of the events. -/
def unitReg (n : RegName) : Bool := !keptHere n && n != .EVT_STATUS

theorem UnitsOnly.refl (s : State) : UnitsOnly s s := ⟨fun _ _ _ => rfl, rfl, rfl, ⟨_, rfl⟩, rfl, rfl, fun _ _ => rfl⟩

theorem UnitsOnly.trans (h : UnitsOnly s t) (g : UnitsOnly t u) : UnitsOnly s u := by
  refine ⟨fun n i hn => (g.reg n i hn).trans (h.reg n i hn), g.mem.trans h.mem, g.clk.trans h.clk, ?_,
    g.time.trans h.time, g.run.trans h.run, fun k hk => (g.status k hk).trans (h.status k hk)⟩
  obtain ⟨w, hw⟩ := h.pwr
  obtain ⟨w', hw'⟩ := g.pwr
  exact ⟨w', by rw [hw', hw]⟩

/-- A change of components that no statement about clocks and power speaks of. -/
theorem UnitsOnly.of_eq (h : UnitsOnly s t) (hr : u.regs = t.regs) (hm : u.mem = t.mem) (hc : u.clk = t.clk)
    (hp : u.pwr = t.pwr) (ht : u.time = t.time) (hg : u.mgt = t.mgt) : UnitsOnly s u :=
  h.trans ⟨fun n i _ => by rw [State.reg, State.reg, hr], hm, hc, ⟨t.pwr.woken, hp⟩, ht, by rw [hg],
    fun _ _ => State.evtStatus_of_reg fun _ => by rw [State.reg, State.reg, hr]⟩

theorem UnitsOnly.setReg {n : RegName} {i : Nat} {v : Word} (h : UnitsOnly s t) (hn : unitReg n = true) :
    UnitsOnly s (t.setReg n i v) := by
  obtain ⟨hk, he⟩ := (Bool.and_eq_true _ _).mp hn
  refine h.trans ⟨fun n' i' hn' => t.reg_setReg_ne _ _ _ _ _ ?_, rfl, rfl, ⟨_, rfl⟩, rfl, rfl,
    fun _ _ => State.evtStatus_of_reg fun _ => t.reg_setReg_ne _ _ _ _ _ ?_⟩
  · rintro rfl
    rw [hn'] at hk
    cases hk
  · rintro rfl
    cases he

theorem UnitsOnly.setFld {f : Fld} {i x : Nat} (h : UnitsOnly s t) (hn : unitReg f.reg = true) :
    UnitsOnly s (t.setFld f i x) := h.setReg hn

theorem UnitsOnly.setPair {lo hi : RegName} {i : Nat} {v : Tu} (h : UnitsOnly s t) (hl : unitReg lo = true)
    (hh : unitReg hi = true) : UnitsOnly s (t.setPair lo hi i v) := (h.setReg hl).setReg hh

theorem UnitsOnly.setFrame {lo hi : RegName} {i : Nat} {v : Frame} (h : UnitsOnly s t) (hl : unitReg lo = true)
    (hh : unitReg hi = true) : UnitsOnly s (t.setFrame lo hi i v) := h.setPair hl hh

theorem eventReg_of_keptHere {n : RegName} (h : keptHere n = true) : eventReg n = false := by
  have hall : ∀ m ∈ [RegName.CLK_GATE_STATE_LO, .CLK_GATE_STATE_HI, .CLK_GATE_RESULT, .CLK_SRC_STATUS, .CLK_MUX_STATUS,
    .HUB_PWR_STATUS, .HUB_PITCH_STATUS, .HUB_BOOT_STATUS, .TLK_STATUS, .EVT_ROUTE], eventReg m = false := by decide
  exact hall n (List.contains_iff_mem.1 h)

theorem UnitsOnly.raises {ns : List Nat} (h : UnitsOnly s t) (g : Raises t u ns) (hns : ∀ k ∈ ns, k < 410) : UnitsOnly s u :=
  h.trans ⟨fun n i hn => g.reg n i (eventReg_of_keptHere hn), g.mem, g.clk, ⟨_, g.pwr⟩, g.time, g.mgt_run,
    fun k hk => (g.src k fun hm => Nat.lt_irrefl _ (Nat.lt_of_lt_of_le (hns k hm) hk)).1⟩

theorem UnitsOnly.ite {c : Prop} [Decidable c] {a b : State} (ha : UnitsOnly s a) (hb : UnitsOnly s b) :
    UnitsOnly s (if c then a else b) := by split <;> assumption

theorem UnitsOnly.foldl {α : Type} {f : State → α → State} (h : UnitsOnly s t) (l : List α)
    (hf : ∀ a x, UnitsOnly a (f a x)) : UnitsOnly s (l.foldl f t) := by
  induction l generalizing t with
  | nil => exact h
  | cons x l ih => exact ih (h.trans (hf t x))

theorem UnitsOnly.fld (h : UnitsOnly s t) {f : Fld} {i : Nat} (hf : keptHere f.reg = true) : t.fld f i = s.fld f i :=
  State.fld_of_reg (h.reg _ _ hf)

theorem UnitsOnly.gateOpen (h : UnitsOnly s t) (n : Nat) : t.gateOpen n = s.gateOpen n := by
  rw [State.gateOpen, State.gateOpen, h.reg _ _ rfl, h.reg _ _ rfl]

theorem auxOnly.units (h : auxOnly s t) : UnitsOnly s t := by
  obtain ⟨_, _, _, rfl⟩ := h
  exact .of_eq (.refl s) rfl rfl rfl rfl rfl rfl

/-! ### Units that start -/

theorem State.clearPlane_units (s : State) (p : Nat) : UnitsOnly s (s.clearPlane p) :=
  .setFrame (.setFld (f := Fld.ACC_PLANE_STATUS_SAT) (.setPair (.of_eq (.refl s) rfl rfl rfl rfl rfl rfl) rfl rfl) rfl)
    rfl rfl

theorem State.accLose_units (s : State) (c : Nat) : UnitsOnly s (s.accLose c) :=
  .of_eq (t := (List.range 4).foldl (fun s i => s.clearPlane (4 * c + i)) s)
    (.foldl (.refl s) (List.range 4) fun a _ => a.clearPlane_units _) rfl rfl rfl rfl rfl rfl

theorem State.notePattern_units (s : State) (g i0 i1 : Nat) (t : Tu) : UnitsOnly s (s.notePattern g i0 i1 t) := by
  unfold State.notePattern
  exact .ite (.ite (.of_eq (.refl s) rfl rfl rfl rfl rfl rfl) (.refl s)) (.of_eq (.refl s) rfl rfl rfl rfl rfl rfl)

theorem State.freshComp_units (s : State) (ln : Nat) : UnitsOnly s (s.freshComp ln) := by
  obtain ⟨x, hx⟩ : ∃ x, x = (s.used.setFld Fld.TRG_COMP_STATE_HI ln (s.freeBelow 2)).setFld Fld.TRG_COMP_STATE_LO ln
    (Config.freeNat (s.free + 1) % 2) := ⟨_, rfl⟩
  have h : UnitsOnly s x := by
    rw [hx]
    exact .setFld (.setFld (.of_eq (.refl s) rfl rfl rfl rfl rfl rfl) rfl) rfl
  unfold State.freshComp
  dsimp only
  rw [← hx]
  refine .foldl ?_ _ fun a _ => a.notePattern_units _ _ _ _
  exact .of_eq h rfl rfl rfl rfl rfl rfl

theorem State.makeStale_units (s : State) (ln : Nat) : UnitsOnly s (s.makeStale ln) :=
  .setFld (.setFld (.ite (.refl s) (.of_eq (.refl s) rfl rfl rfl rfl rfl rfl)) rfl) rfl

theorem State.settle_units (s : State) (ch n : Nat) : UnitsOnly s (s.settle ch n) :=
  .setFld (.of_eq (.refl s) rfl rfl rfl rfl rfl rfl) rfl

theorem State.startLanes_units (s : State) (e : Nat) : UnitsOnly s (s.startLanes e) := by
  unfold State.startLanes
  refine .ite (.refl s) (.foldl (.refl s) _ fun a i => ?_)
  exact .ite (.setFld (.of_eq (.refl a) rfl rfl rfl rfl rfl rfl) rfl) (.refl a)

theorem State.laneStarted_units (s : State) (ln : Nat) : UnitsOnly s (s.laneStarted ln) :=
  .trans (.trans (s.freshComp_units ln) (State.makeStale_units _ _)) (State.startLanes_units _ _)

theorem State.clusterWoken_units (s : State) (c : Nat) : UnitsOnly s (s.clusterWoken c) := by
  have h : UnitsOnly s ((List.range 4).foldl (fun s i =>
      (((s.settle (4 * c + i) (ns 1000)).freshComp (4 * c + i)).makeStale (4 * c + i))) (s.accLose c)) :=
    .foldl (s.accLose_units c) _ fun a i => .trans (.trans (a.settle_units _ _) (State.freshComp_units _ _))
      (State.makeStale_units _ _)
  exact h.trans ⟨fun _ _ _ => rfl, rfl, rfl, ⟨_, rfl⟩, rfl, rfl, fun _ _ => rfl⟩

theorem State.anchorLater_units (s : State) (e : Nat) (t : Tu) (fast : Bool) : UnitsOnly s (s.anchorLater e t fast) :=
  .of_eq (.refl s) rfl rfl rfl rfl rfl rfl

/-! ### The parametric units -/

theorem State.pmuShowOne_units (s : State) (x : Nat) : UnitsOnly s (s.pmuShowOne x) :=
  .setFld (.setFld (.setFld (.setFld (.setFld (.refl s) rfl) rfl) rfl) rfl) rfl

theorem State.pmuShow_units (s : State) (x : Nat) : UnitsOnly s (s.pmuShow x) :=
  .ite (.trans (s.pmuShowOne_units 0) (State.pmuShowOne_units _ 1)) (s.pmuShowOne_units x)

theorem UnitsOnly.modMc {x : Nat} {f : Mc → Mc} (h : UnitsOnly s t) : UnitsOnly s (t.modMc x f) :=
  .of_eq h rfl rfl rfl rfl rfl rfl

theorem State.modEdge_units (s : State) (x : Nat) (t : Tu) : UnitsOnly s (s.modEdge x t).1 := by
  unfold State.modEdge
  dsimp only
  split
  · exact .of_eq (.refl s) rfl rfl rfl rfl rfl rfl
  · exact .refl s

theorem State.startConv_units (s : State) (x kind : Nat) (w : Word) (entry : Nat) (restarted : Bool) (t : Tu) :
    UnitsOnly s (s.startConv x kind w entry restarted t) := (s.modEdge_units x t).modMc

theorem State.pmuNext_units (s : State) (x : Nat) (t : Tu) : UnitsOnly s (s.pmuNext x t) := by
  unfold State.pmuNext
  dsimp only
  generalize hs0 : (if x = 0 ∧ (s.mc 0).act.isNone then
    s.modMc 0 fun m => { m with xchk := s.flag Fld.PMU_MC_CFG_XCHK 0 } else s) = s0
  have h0 : UnitsOnly s s0 := hs0 ▸ .ite (.modMc (.refl s)) (.refl s)
  have hstart : ∀ kind w e r, UnitsOnly s (s0.startConv x kind w e r t) := fun _ _ _ _ =>
    h0.trans (s0.startConv_units _ _ _ _ _ _)
  refine .ite (h0.trans (s0.pmuShow_units x)) (.trans ?_ (State.pmuShow_units _ x))
  split
  · exact .ite (hstart _ _ _ _).modMc (.ite (hstart _ _ _ _).modMc (hstart _ _ _ _).modMc)
  · exact .ite (hstart _ _ _ _).modMc (.ite (hstart _ _ _ _).modMc h0)

theorem State.pmuGo_units (s : State) (x : Nat) (t : Tu) : UnitsOnly s (s.pmuGo x t) := by
  have h := s.pmuNext_units x t
  exact .ite h.modMc (.ite (.trans (.ite h.modMc h) (State.pmuNext_units _ _ _)) h)

/-! ### Lantern -/

theorem UnitsOnly.modRas {f : Ras → Ras} (h : UnitsOnly s t) : UnitsOnly s (t.modRas f) :=
  .of_eq h rfl rfl rfl rfl rfl rfl

theorem State.rasCommit_units (s : State) : UnitsOnly s s.rasCommit := by
  unfold State.rasCommit
  split
  · exact .modRas (.refl s)
  · exact .ite (.modRas (.refl s)) (.raises (.modRas (.refl s)) (State.raise0_raises _) (by decide))

theorem State.freeDeferred_units (s : State) : UnitsOnly s s.freeDeferred :=
  .foldl (.refl s) _ fun a _ => .ite (.raises (.setFld (.refl a) (f := Fld.RAS_BUF_STATUS_STATE) rfl) (State.raise_raises _ _ _) (by decide)) (.refl a)

theorem State.rasBlank_units (s : State) : UnitsOnly s s.rasBlank := by
  obtain ⟨x, hx⟩ : ∃ x, x = ((((s.setFrame .RAS_PIC_FRAME_LO .RAS_PIC_FRAME_HI 0 s.frameNow).raise0 400).modRas fun r =>
      { r with now := rput r.now ⟨.RAS_CTRL, 0⟩ (s.reg .RAS_CTRL 0) }).rasCommit).freeDeferred := ⟨_, rfl⟩
  have h : UnitsOnly s x := by
    rw [hx]
    exact .trans (.trans (.modRas (.raises (.setFrame (.refl s) rfl rfl) (State.raise0_raises _) (by decide)))
      (State.rasCommit_units _)) (State.freeDeferred_units _)
  unfold State.rasBlank
  dsimp only
  rw [← hx]
  exact .ite (.modRas (.setFld h rfl)) (.foldl (.modRas (.setFld h rfl)) _ fun a i => .setFld (.setFld (.refl a) rfl) rfl)

theorem State.rasResume_units (s : State) : UnitsOnly s s.rasResume := .ite s.rasBlank_units (.refl s)

theorem State.resetRegs_reg (s : State) {ns : List RegName} (p : Nat → Bool) {n : RegName} (i : Nat) (h : n ∉ ns) :
    (s.resetRegs ns p).reg n i = s.reg n i := by
  unfold State.reg State.resetRegs
  dsimp only
  generalize s.regs = m
  induction m with
  | nil => rfl
  | cons e m ih =>
    obtain ⟨q, v⟩ := e
    rw [List.filter_cons]
    split
    · rw [rget, rget, ih]
    · next hq =>
      rw [ih, rget, if_neg]
      rintro rfl
      simp [h] at hq

theorem State.rasGateClosed_units (s : State) : UnitsOnly s s.rasGateClosed := by
  refine .modRas (t := s.resetRegs [.RAS_CRC_VAL] fun _ => true) ⟨fun n i hn => s.resetRegs_reg _ _ fun h => ?_, rfl, rfl,
    ⟨_, rfl⟩, rfl, rfl, fun _ _ => State.evtStatus_of_reg fun _ => s.resetRegs_reg _ _ (by decide)⟩
  rw [List.mem_singleton.1 h] at hn
  cases hn

theorem State.abandonDwell_units (s : State) (ln : Nat) : UnitsOnly s (s.abandonDwell ln) :=
  .setFld (.setFld (.of_eq (.refl s) rfl rfl rfl rfl rfl rfl) rfl) rfl

/-! ### Nodes -/

/-- What follows in the units from the stop of a node's clock. -/
theorem State.stopNode_units (s : State) (n : Nat) (h : s.gateOpen n = true) :
    UnitsOnly (s.setGate n false) (s.stopNode n) := by
  unfold State.stopNode
  rw [h]
  dsimp only
  rw [if_neg (by decide)]
  exact .ite (State.auxFollow_only _ _ fun a i => a.auxCut_only i).units (.ite (State.abandonDwell_units _ _) (.ite
    (State.rasGateClosed_units _) (.ite (State.auxOut_only _ _ _).units (.refl _))))

/-- What follows in the units from the start of a node's clock. -/
theorem State.startNode_units (s : State) (n : Nat) (h : s.gateOpen n = false) :
    UnitsOnly (s.setGate n true) (s.startNode n) := by
  unfold State.startNode
  rw [h]
  dsimp only
  rw [if_neg Bool.false_ne_true]
  refine .ite (.trans (.ite (State.anchorLater_units _ _ _ _) (.refl _))
    (State.auxFollow_only _ _ fun a i => a.auxFresh_only i).units) (.ite (State.clusterWoken_units _ _) (.ite
    (State.laneStarted_units _ _) (.ite (.trans (State.pmuGo_units _ _ _) (State.pmuGo_units _ _ _)) (.ite
    (State.rasResume_units _) (.ite (State.auxFresh_only _ _).units (.refl _))))))

theorem State.gateOpen_setGate (s : State) {n : Nat} (b : Bool) (hn : n < 64) (m : Nat) :
    (s.setGate n b).gateOpen m = if m = n then b else s.gateOpen m := by
  by_cases hnl : n < 32
  · have hset : s.setGate n b = s.setReg .CLK_GATE_STATE_LO 0 (putBits (s.reg .CLK_GATE_STATE_LO 0) n 1 b.toNat) :=
      if_pos hnl
    rw [hset, State.gateOpen, State.gateOpen, State.reg_setReg_same, State.reg_setReg_ne _ _ _ _ _ _ (by decide)]
    split
    · next hm =>
      rw [putBits_getLsbD, decide_eq_true hm, Bool.true_and]
      split
      · have : m = n := by omega
        cases b <;> simp [this]
      · rw [if_neg (by omega)]
    · rw [if_neg (by omega)]
  · have hset : s.setGate n b = s.setReg .CLK_GATE_STATE_HI 0
        (putBits (s.reg .CLK_GATE_STATE_HI 0) (n - 32) 1 b.toNat) := if_neg hnl
    rw [hset, State.gateOpen, State.gateOpen, State.reg_setReg_same, State.reg_setReg_ne _ _ _ _ _ _ (by decide)]
    split
    · rw [if_neg (by omega)]
    · next hm =>
      by_cases hmn : m = n
      · subst hmn
        rw [putBits_getLsbD, decide_eq_true (by omega), if_pos (by omega), if_pos rfl]
        cases b <;> simp
      · rw [if_neg hmn, putBits_getLsbD, if_neg (by omega)]
        by_cases h32 : m - 32 < 32
        · rw [decide_eq_true h32, Bool.true_and]
        · rw [BitVec.getLsbD_of_ge _ _ (by omega), Bool.and_false]

theorem State.setGate_only (s : State) (n : Nat) (b : Bool) :
    onlyRegs s (s.setGate n b) [⟨.CLK_GATE_STATE_LO, 0⟩, ⟨.CLK_GATE_STATE_HI, 0⟩] :=
  .ite (.setReg (by simp) (.refl _ _)) (.setReg (by simp) (.refl _ _))

theorem State.setGate_same (s : State) (n : Nat) (b : Bool) :
    (s.setGate n b).mem = s.mem ∧ (s.setGate n b).clk = s.clk ∧ (s.setGate n b).pwr = s.pwr ∧
      (s.setGate n b).time = s.time ∧ (s.setGate n b).mgt = s.mgt := by
  unfold State.setGate
  split <;> exact ⟨rfl, rfl, rfl, rfl, rfl⟩

theorem State.evtStatus_setGate (s : State) (n : Nat) (b : Bool) (k : Nat) : (s.setGate n b).evtStatus k = s.evtStatus k :=
  State.evtStatus_of_reg fun i => (s.setGate_only n b).1 _ _ (by simp)

end Sys2Proof.Machine
end

section
/-! SUPPORT. The gate controller: requests to close and to open, and how they end (R107 to R109). -/

namespace Sys2Proof.Machine

variable {s t u : State} {but : List Reg} {srcs : List Nat}

/-! ### A node stops or starts -/

/-- Units and gates have changed, and no other register of the hub. -/
structure NodesOnly (s t : State) : Prop where
  reg : ∀ n i, keptHere n = true → n ≠ .CLK_GATE_STATE_LO → n ≠ .CLK_GATE_STATE_HI → t.reg n i = s.reg n i
  mem : t.mem = s.mem
  clk : t.clk = s.clk
  pwr : ∃ w, t.pwr = { s.pwr with woken := w }
  time : t.time = s.time
  run : t.mgt.run = s.mgt.run
  status : ∀ k, 410 ≤ k → t.evtStatus k = s.evtStatus k

theorem NodesOnly.refl (s : State) : NodesOnly s s := ⟨fun _ _ _ _ _ => rfl, rfl, rfl, ⟨_, rfl⟩, rfl, rfl, fun _ _ => rfl⟩

theorem NodesOnly.fld (h : NodesOnly s t) {f : Fld} {i : Nat} (hf : keptHere f.reg = true)
    (hl : f.reg ≠ .CLK_GATE_STATE_LO) (hh : f.reg ≠ .CLK_GATE_STATE_HI) : t.fld f i = s.fld f i :=
  State.fld_of_reg (h.reg _ _ hf hl hh)

theorem NodesOnly.wait (h : NodesOnly s t) : t.pwr.wait = s.pwr.wait := by
  obtain ⟨w, hw⟩ := h.pwr
  rw [hw]

theorem State.setGate_nodes {n : Nat} {b : Bool} (h : UnitsOnly (s.setGate n b) t) : NodesOnly s t := by
  obtain ⟨hm, hc, hp, ht, hg⟩ := s.setGate_same n b
  have hr := s.setGate_only n b
  refine ⟨fun n' i hn hl hh => (h.reg n' i hn).trans (hr.1 _ _ (by simp [hl, hh])), h.mem.trans hm, h.clk.trans hc, ?_,
    h.time.trans ht, h.run.trans (by rw [hg]), fun k hk => (h.status k hk).trans (s.evtStatus_setGate n b k)⟩
  rw [← hp]
  exact h.pwr

/-- The clock of a node has stopped: its gate is closed, and no other. -/
theorem State.stopNode_reads (s : State) {n : Nat} (hn : n < 64) :
    (∀ m, (s.stopNode n).gateOpen m = if m = n then false else s.gateOpen m) ∧ NodesOnly s (s.stopNode n) := by
  cases h : s.gateOpen n with
  | false =>
    have hs : s.stopNode n = s := by
      rw [State.stopNode, h]
      rfl
    rw [hs]
    refine ⟨fun m => ?_, .refl s⟩
    split
    · next hm => rw [hm, h]
    · rfl
  | true =>
    have hu := s.stopNode_units n h
    exact ⟨fun m => (hu.gateOpen m).trans (s.gateOpen_setGate false hn m), State.setGate_nodes hu⟩

/-- The clock of a node has started: its gate is open, and no other has changed. -/
theorem State.startNode_reads (s : State) {n : Nat} (hn : n < 64) :
    (∀ m, (s.startNode n).gateOpen m = if m = n then true else s.gateOpen m) ∧ NodesOnly s (s.startNode n) := by
  cases h : s.gateOpen n with
  | true =>
    have hs : s.startNode n = s := by
      rw [State.startNode, h]
      rfl
    rw [hs]
    refine ⟨fun m => ?_, .refl s⟩
    split
    · next hm => rw [hm, h]
    · rfl
  | false =>
    have hu := s.startNode_units n h
    exact ⟨fun m => (hu.gateOpen m).trans (s.gateOpen_setGate true hn m), State.setGate_nodes hu⟩

/-- Nodes whose stop changes no register but the gates. -/
theorem State.stopNode_only (s : State) {n : Nat} (hn : n = 25 ∨ n = 27 ∨ 30 ≤ n) :
    onlyRegs s (s.stopNode n) [⟨.CLK_GATE_STATE_LO, 0⟩, ⟨.CLK_GATE_STATE_HI, 0⟩] := by
  unfold State.stopNode
  split
  · exact .refl _ _
  · dsimp only
    rw [if_neg (by omega), if_neg (by omega), if_neg (by omega)]
    exact .ite ((State.auxOut_only _ _ _).onlyRegs (s.setGate_only n false)) (s.setGate_only n false)

/-- Nodes whose start changes no register but the gates. -/
theorem State.startNode_only (s : State) {n : Nat} (hn : n = 23 ∨ n = 24 ∨ 27 ≤ n) :
    onlyRegs s (s.startNode n) [⟨.CLK_GATE_STATE_LO, 0⟩, ⟨.CLK_GATE_STATE_HI, 0⟩] := by
  unfold State.startNode
  split
  · exact .refl _ _
  · dsimp only
    rw [if_neg (by omega), if_neg (by omega), if_neg (by omega), if_neg (by omega), if_neg (by omega)]
    exact .ite ((State.auxFresh_only _ _).onlyRegs (s.setGate_only n true)) (s.setGate_only n true)

/-! ### Results -/

theorem State.gateOpen_of_reg {n : Nat} (hl : t.reg .CLK_GATE_STATE_LO 0 = s.reg .CLK_GATE_STATE_LO 0)
    (hh : t.reg .CLK_GATE_STATE_HI 0 = s.reg .CLK_GATE_STATE_HI 0) : t.gateOpen n = s.gateOpen n := by
  rw [State.gateOpen, State.gateOpen, hl, hh]

/-- CLK_GATE_RESULT shows the node and the result. -/
theorem State.gateResult_reads (s : State) {n code : Nat} (hn : n < 64) (hc : code < 8) :
    (s.gateResult n code).fld Fld.CLK_GATE_RESULT_CODE 0 = code ∧ (s.gateResult n code).fld Fld.CLK_GATE_RESULT_NODE 0 = n ∧
      (∀ m, (s.gateResult n code).gateOpen m = s.gateOpen m) ∧
      onlyRegs s (s.gateResult n code) [⟨.CLK_GATE_RESULT, 0⟩] := by
  refine ⟨?_, ?_, fun m => ?_, .setFld (f := Fld.CLK_GATE_RESULT_CODE) (by simp)
    (.setFld (f := Fld.CLK_GATE_RESULT_NODE) (by simp) (.refl s _))⟩
  · simp [State.gateResult]; omega
  · simp [State.gateResult]; omega
  · exact State.gateOpen_of_reg (by simp [State.gateResult]) (by simp [State.gateResult])

theorem State.closeRefused_lt (s : State) (n : Nat) : s.closeRefused n < 8 := by
  unfold State.closeRefused
  repeat' split
  all_goals decide

theorem Raises.gateOpen {ns : List Nat} (h : Raises s t ns) (n : Nat) : t.gateOpen n = s.gateOpen n :=
  State.gateOpen_of_reg (h.reg _ _ rfl) (h.reg _ _ rfl)

/-! ### Closing -/

theorem execGateClose_eq (t : Tu) (n : Fin 64) (hup : s.hostUp = true) :
    exec (.gateClose t n) s = s.done ((s.at t).requestClose n false) := by
  rw [exec, execGateClose, State.whenHost_eq hup]

theorem execGateForceClose_eq (t : Tu) (n : Fin 64) (hup : s.hostUp = true) :
    exec (.gateForceClose t n) s = s.done ((s.at t).requestClose n true) := by
  rw [exec, execGateForceClose, State.whenHost_eq hup]

theorem execGateOpen_eq (t : Tu) (n : Fin 64) (hup : s.hostUp = true) :
    exec (.gateOpen t n) s = s.done ((s.at t).requestOpen n) := by
  rw [exec, execGateOpen, State.whenHost_eq hup]

/-- A close of a block in use is refused with EV007 (R107). -/
theorem gateClose_refused (t : Tu) (n : Fin 64) (hup : s.hostUp = true) (hg : s.clk.gate = none)
    (hr : (s.at t).closeRefused n ≠ 0) :
    ∃ u, exec (.gateClose t n) s = .next u ∧ u.fld Fld.CLK_GATE_RESULT_CODE 0 = (s.at t).closeRefused n ∧
      u.fld Fld.CLK_GATE_RESULT_NODE 0 = n ∧ u.clk.gate = none ∧
      (s.fld Fld.EVT_ROUTE_KIND 7 ≠ 1 → u.evtStatus 7 = true) ∧ onlyRaising s u [⟨.CLK_GATE_RESULT, 0⟩] [7] := by
  obtain ⟨h1, h2, -, h4⟩ := (s.at t).gateResult_reads n.isLt ((s.at t).closeRefused_lt n)
  obtain ⟨x, hx⟩ : ∃ x, x = (s.at t).gateResult n ((s.at t).closeRefused n) := ⟨_, rfl⟩
  have hxc : x.clk = s.clk := by rw [hx, State.gateResult, State.setFld_clk, State.setFld_clk, State.at_clk]
  rw [← hx] at h1 h2 h4
  have hreq : (s.at t).requestClose n false = x.raise 7 1 n := by
    rw [State.requestClose, State.at_clk, hg, if_neg (by decide), hx]
    exact if_pos hr
  obtain ⟨u, hu, hn, ho⟩ := s.done_onlyRaising (x := t) (t := x.raise 7 1 n) (but := [⟨.CLK_GATE_RESULT, 0⟩]) (srcs := [7])
    (.raise (by simp) (h4.raising rfl))
  refine ⟨u, ?_, ?_, ?_, ?_, fun hk => ?_, ho⟩
  · rw [execGateClose_eq t n hup, hreq]
    exact hu
  · rw [hn.fld _ _ rfl, State.raise_fld_of _ _ _ _ _ _ rfl, h1]
  · rw [hn.fld _ _ rfl, State.raise_fld_of _ _ _ _ _ _ rfl, h2]
  · rw [hn.clk, State.raise_clk, hxc, hg]
  · rw [hn.evtStatus (by decide)]
    refine State.raise_hubSource 1 n rfl ?_
    rw [State.fld_of_reg (h4.1 _ _ (by simp)), State.at_fld]
    exact hk

/-- A close that waits for the acknowledge (R108). -/
theorem State.requestClose_waits (t : Tu) (n : Fin 64) (force : Bool) (hg : s.clk.gate = none)
    (hr : (s.at t).closeRefused n = 0) (hopen : s.gateOpen n = true) (hf : force = false ∨ s.forceHonoured n = false) :
    ∃ u, s.done ((s.at t).requestClose n force) = .next u ∧ u.fld Fld.CLK_GATE_RESULT_CODE 0 = 1 ∧
      u.clk.gate = some ⟨n, (s.at t).time⟩ ∧ u.gateOpen n = true ∧ onlyRegs s u [⟨.CLK_GATE_RESULT, 0⟩] := by
  obtain ⟨x, hx⟩ : ∃ x : State, x = { s.at t with clk := { (s.at t).clk with gate := some ⟨n, (s.at t).time⟩ } } := ⟨_, rfl⟩
  have hxo : onlyRegs (s.at t) x [⟨.CLK_GATE_RESULT, 0⟩] := by rw [hx]; exact .of_eq rfl rfl (.refl _ _)
  have hxf : (s.at t).forceHonoured n = s.forceHonoured n := by
    simp only [State.forceHonoured, State.at_muxState]
  have hreq : (s.at t).requestClose n force = x.gateResult n 1 := by
    rw [State.requestClose, State.at_clk, hg, if_neg (by decide), hr, State.at_gateOpen, hopen, hxf, hx]
    dsimp only
    rw [if_neg (by decide), if_neg (by decide), if_neg, State.at_clk]
    rcases hf with hf | hf <;> simp [hf]
  obtain ⟨h1, -, h3, h4⟩ := x.gateResult_reads (code := 1) n.isLt (by decide)
  obtain ⟨hd, ho⟩ := State.done_onlyRegs (hxo.trans h4) rfl
  rw [hreq]
  refine ⟨_, hd, h1, ?_, ?_, ho⟩
  · rw [State.gateResult, State.setFld_clk, State.setFld_clk, hx]
  · rw [h3, State.gateOpen_of_reg (hxo.1 _ _ (by simp)) (hxo.1 _ _ (by simp)), State.at_gateOpen, hopen]

/-- A forced close of a block behind a stuck multiplexer stops it at once (R108). -/
theorem gateForceClose_stops (t : Tu) (n : Fin 64) (hup : s.hostUp = true) (hg : s.clk.gate = none)
    (hr : (s.at t).closeRefused n = 0) (hopen : s.gateOpen n = true) (hf : s.forceHonoured n = true) :
    ∃ u, exec (.gateForceClose t n) s = .next u ∧ u.fld Fld.CLK_GATE_RESULT_CODE 0 = 0 ∧ u.clk.gate = none ∧
      u.gateOpen n = false ∧
      (n.val ≠ 26 → onlyRegs s u [⟨.CLK_GATE_RESULT, 0⟩, ⟨.CLK_GATE_STATE_LO, 0⟩, ⟨.CLK_GATE_STATE_HI, 0⟩]) := by
  have hxf : (s.at t).forceHonoured n = s.forceHonoured n := by
    simp only [State.forceHonoured, State.at_muxState]
  obtain ⟨hs, hnode⟩ := (s.at t).stopNode_reads n.isLt
  obtain ⟨x, hx⟩ : ∃ x, x = (s.at t).stopNode n := ⟨_, rfl⟩
  rw [← hx] at hs hnode
  have hreq : (s.at t).requestClose n true = x.gateResult n 0 := by
    rw [State.requestClose, State.at_clk, hg, if_neg (by decide), hr, State.at_gateOpen, hopen, hxf, hf, hx]
    rfl
  obtain ⟨h1, -, h3, h4⟩ := x.gateResult_reads (code := 0) n.isLt (by decide)
  obtain ⟨y, hy⟩ : ∃ y, y = x.gateResult n 0 := ⟨_, rfl⟩
  have hyc : y.clk.gate = none := by
    rw [hy, State.gateResult, State.setFld_clk, State.setFld_clk, hnode.clk, State.at_clk, hg]
  rw [← hy] at hreq h1 h3 h4
  obtain ⟨u, hu, hn⟩ := s.done_notes y
  refine ⟨u, ?_, ?_, ?_, ?_, fun hne => ?_⟩
  · rw [execGateForceClose_eq t n hup, hreq]
    exact hu
  · rw [hn.fld _ _ rfl, h1]
  · rw [hn.clk, hyc]
  · rw [hn.gateOpen, h3, hs, if_pos rfl]
  · have hwhich : n.val = 25 ∨ n.val = 27 ∨ 30 ≤ n.val := by
      simp [State.forceHonoured] at hf
      omega
    have hxo := (s.at t).stopNode_only hwhich
    rw [← hx] at hxo
    obtain ⟨hd, ho⟩ := State.done_onlyRegs (s := s) (x := t) (t := y)
      (but := [⟨.CLK_GATE_RESULT, 0⟩, ⟨.CLK_GATE_STATE_LO, 0⟩, ⟨.CLK_GATE_STATE_HI, 0⟩])
      ((hxo.mono (by simp)).trans (h4.mono (by simp))) rfl
    rw [hd] at hu
    cases hu
    exact ho

/-! ### Opening -/

/-- An open under a closed parent is refused (R109). -/
theorem gateOpen_refused (t : Tu) (n : Fin 64) (hup : s.hostUp = true) (hg : s.clk.gate = none) (hn : n.val < 34)
    (hn0 : n.val ≠ 0) (hp : s.gateOpen (s.parentOf n) = false) :
    ∃ u, exec (.gateOpen t n) s = .next u ∧ u.fld Fld.CLK_GATE_RESULT_CODE 0 = 4 ∧
      onlyRegs s u [⟨.CLK_GATE_RESULT, 0⟩] := by
  have hpar : (s.at t).parentOf n = s.parentOf n := by rw [State.parentOf, State.parentOf, State.at_pitch]
  have hreq : (s.at t).requestOpen n = (s.at t).gateResult n 4 := by
    rw [State.requestOpen, State.at_clk, hg, if_neg (by decide), if_neg (by omega), hpar, State.at_gateOpen, hp,
      if_pos ⟨hn0, rfl⟩]
  obtain ⟨h1, -, -, h4⟩ := (s.at t).gateResult_reads (code := 4) n.isLt (by decide)
  obtain ⟨hd, ho⟩ := State.done_onlyRegs h4 rfl
  refine ⟨_, ?_, h1, ho⟩
  rw [execGateOpen_eq t n hup, hreq, hd]

/-- An open under an open parent starts the clock (R109). -/
theorem gateOpen_starts (t : Tu) (n : Fin 64) (hup : s.hostUp = true) (hg : s.clk.gate = none) (hn : n.val < 34)
    (hp : n.val = 0 ∨ s.gateOpen (s.parentOf n) = true) :
    ∃ u, exec (.gateOpen t n) s = .next u ∧ u.fld Fld.CLK_GATE_RESULT_CODE 0 = 0 ∧ u.gateOpen n = true ∧
      (∀ m, m < 34 → m ≠ n → u.gateOpen m = s.gateOpen m) ∧
      (n.val = 23 ∨ n.val = 24 ∨ 27 ≤ n.val →
        onlyRegs s u [⟨.CLK_GATE_RESULT, 0⟩, ⟨.CLK_GATE_STATE_LO, 0⟩, ⟨.CLK_GATE_STATE_HI, 0⟩]) ∧ sameMem s u := by
  have hpar : (s.at t).parentOf n = s.parentOf n := by rw [State.parentOf, State.parentOf, State.at_pitch]
  obtain ⟨hs, hnode⟩ := (s.at t).startNode_reads n.isLt
  obtain ⟨x, hx⟩ : ∃ x, x = (s.at t).startNode n := ⟨_, rfl⟩
  rw [← hx] at hs hnode
  have hreq : (s.at t).requestOpen n = x.gateResult n 0 := by
    rw [State.requestOpen, State.at_clk, hg, if_neg (by decide), if_neg (by omega), hpar, State.at_gateOpen, if_neg, hx]
    rcases hp with hp | hp <;> simp [hp]
  obtain ⟨h1, -, h3, h4⟩ := x.gateResult_reads (code := 0) n.isLt (by decide)
  obtain ⟨y, hy⟩ : ∃ y, y = x.gateResult n 0 := ⟨_, rfl⟩
  have hym : y.mem = s.mem := by
    rw [hy, State.gateResult, State.setFld_mem, State.setFld_mem, hnode.mem, State.at_mem]
  rw [← hy] at hreq h1 h3 h4
  obtain ⟨u, hu, hr⟩ := s.done_notes y
  refine ⟨u, ?_, ?_, ?_, fun m _ hm => ?_, fun hwhich => ?_, fun a => by rw [hr.mem, hym]⟩
  · rw [execGateOpen_eq t n hup, hreq]
    exact hu
  · rw [hr.fld _ _ rfl, h1]
  · rw [hr.gateOpen, h3, hs, if_pos rfl]
  · rw [hr.gateOpen, h3, hs, if_neg fun h => hm (Fin.ext h), State.at_gateOpen]
  · have hxo := (s.at t).startNode_only hwhich
    rw [← hx] at hxo
    obtain ⟨hd, ho⟩ := State.done_onlyRegs (s := s) (x := t) (t := y)
      (but := [⟨.CLK_GATE_RESULT, 0⟩, ⟨.CLK_GATE_STATE_LO, 0⟩, ⟨.CLK_GATE_STATE_HI, 0⟩])
      ((hxo.mono (by simp)).trans (h4.mono (by simp))) rfl
    rw [hd] at hu
    cases hu
    exact ho

/-! ### A second request -/

/-- A request while another is pending is an OVERRUN (R107). -/
theorem State.overrun_shows (t : Tu) :
    s.done ((s.at t).setFld Fld.CLK_GATE_RESULT_OVERRUN 0 1) = .next ((s.at t).setFld Fld.CLK_GATE_RESULT_OVERRUN 0 1) ∧
      ((s.at t).setFld Fld.CLK_GATE_RESULT_OVERRUN 0 1).fld Fld.CLK_GATE_RESULT_OVERRUN 0 = 1 ∧
      ((s.at t).setFld Fld.CLK_GATE_RESULT_OVERRUN 0 1).clk = s.clk ∧
      onlyRegs s ((s.at t).setFld Fld.CLK_GATE_RESULT_OVERRUN 0 1) [⟨.CLK_GATE_RESULT, 0⟩] := by
  obtain ⟨hd, ho⟩ := State.done_onlyRegs (s := s) (x := t) (but := [⟨.CLK_GATE_RESULT, 0⟩])
    (.setFld (f := Fld.CLK_GATE_RESULT_OVERRUN) (i := 0) (x := 1) (by simp) (.refl _ _)) rfl
  exact ⟨hd, by simp, by simp, ho⟩

theorem gateRequests_overrun (t : Tu) (n : Fin 64) (hup : s.hostUp = true) (hg : s.clk.gate.isSome = true) :
    (∃ u, exec (.gateClose t n) s = .next u ∧ u.fld Fld.CLK_GATE_RESULT_OVERRUN 0 = 1 ∧ u.clk = s.clk ∧
      onlyRegs s u [⟨.CLK_GATE_RESULT, 0⟩]) ∧
    (∃ u, exec (.gateForceClose t n) s = .next u ∧ u.fld Fld.CLK_GATE_RESULT_OVERRUN 0 = 1 ∧ u.clk = s.clk ∧
      onlyRegs s u [⟨.CLK_GATE_RESULT, 0⟩]) ∧
    ∃ u, exec (.gateOpen t n) s = .next u ∧ u.fld Fld.CLK_GATE_RESULT_OVERRUN 0 = 1 ∧ u.clk = s.clk ∧
      onlyRegs s u [⟨.CLK_GATE_RESULT, 0⟩] := by
  obtain ⟨hd, hw⟩ := s.overrun_shows t
  refine ⟨⟨_, ?_, hw⟩, ⟨_, ?_, hw⟩, ⟨_, ?_, hw⟩⟩
  · rw [execGateClose_eq t n hup, State.requestClose, State.at_clk, if_pos hg, hd]
  · rw [execGateForceClose_eq t n hup, State.requestClose, State.at_clk, if_pos hg, hd]
  · rw [execGateOpen_eq t n hup, State.requestOpen, State.at_clk, if_pos hg, hd]

end Sys2Proof.Machine
end

section
/-! SUPPORT. How a gate request ends: acknowledged, or BUSY (R108, R417). -/

namespace Sys2Proof.Machine

variable {s t u : State} {but : List Reg} {srcs : List Nat}

theorem State.at_forceHonoured (s : State) (t : Tu) (n : Nat) : (s.at t).forceHonoured n = s.forceHonoured n := by
  simp only [State.forceHonoured, State.at_muxState]

theorem State.pwrNext_of_none (h : s.pwr.wait = none) : s.pwrNext = s := by rw [State.pwrNext, h]

/-- A power request that waits ends BUSY where Basecamp does not run (R417). -/
theorem State.pwrNext_busy {r : PwrReq} (h : s.pwr.wait = some r) (hg : s.clk.gate = none) (hrun : s.mgt.run ≠ 1) :
    s.pwrNext = (s.modPwr fun p => { p with wait := none }).pwrResult 4 := by
  have hb : (s.modPwr fun p => { p with wait := none }).pwrBusy = true := by
    have : (s.modPwr fun p => { p with wait := none }).mgt.run ≠ 1 := hrun
    simp [State.pwrBusy, this]
  rw [State.pwrNext, h, hg]
  dsimp only
  rw [if_pos (by rfl : (none : Option GateReq).isNone = true), State.pwrRun, State.pwrRefused, hb]
  rfl

/-- The request has ended in the gate controller, before a waiting power request follows. -/
def State.gateEnded (s : State) (g : GateReq) (acked : Bool) : State :=
  let s1 := { s with clk := { s.clk with gate := none } }
  if acked then (s1.stopNode g.node).gateResult g.node 0 else (s1.gateResult g.node 2).raise0 6

/-- An acknowledged request: the clock has stopped. -/
theorem State.gateEnded_acked (s : State) {g : GateReq} (hn : g.node < 64) :
    (s.gateEnded g true).gateOpen g.node = false ∧ (s.gateEnded g true).clk.gate = none ∧
      (s.gateEnded g true).fld Fld.CLK_GATE_RESULT_CODE 0 = 0 ∧
      (s.gateEnded g true).fld Fld.CLK_GATE_RESULT_NODE 0 = g.node ∧ (s.gateEnded g true).mem = s.mem ∧
      (s.gateEnded g true).pwr.wait = s.pwr.wait ∧ (s.gateEnded g true).mgt.run = s.mgt.run := by
  obtain ⟨x, hx⟩ : ∃ x : State, x = { s with clk := { s.clk with gate := none } } := ⟨_, rfl⟩
  obtain ⟨hs, hnode⟩ := x.stopNode_reads hn
  obtain ⟨y, hy⟩ : ∃ y, y = x.stopNode g.node := ⟨_, rfl⟩
  rw [← hy] at hs hnode
  obtain ⟨h1, h2, h3, -⟩ := y.gateResult_reads (code := 0) hn (by decide)
  have he : s.gateEnded g true = y.gateResult g.node 0 := by rw [hy, hx]; rfl
  rw [he]
  refine ⟨?_, ?_, h1, h2, ?_, ?_, ?_⟩
  · rw [h3, hs, if_pos rfl]
  · rw [State.gateResult, State.setFld_clk, State.setFld_clk, hnode.clk, hx]
  · rw [State.gateResult, State.setFld_mem, State.setFld_mem, hnode.mem, hx]
  · rw [State.gateResult, State.setFld_pwr, State.setFld_pwr, hnode.wait, hx]
  · rw [State.gateResult, State.setFld_mgt, State.setFld_mgt, hnode.run, hx]

/-- A request that no block acknowledged: BUSY, and the clock runs on. -/
theorem State.gateEnded_busy (s : State) {g : GateReq} (hn : g.node < 64) :
    (s.gateEnded g false).gateOpen g.node = s.gateOpen g.node ∧ (s.gateEnded g false).clk.gate = none ∧
      (s.gateEnded g false).fld Fld.CLK_GATE_RESULT_CODE 0 = 2 ∧
      (s.fld Fld.EVT_ROUTE_KIND 6 ≠ 1 → (s.gateEnded g false).evtStatus 6 = true) ∧
      (s.gateEnded g false).pwr.wait = s.pwr.wait ∧ (s.gateEnded g false).mgt.run = s.mgt.run ∧
      onlyRaising s (s.gateEnded g false) [⟨.CLK_GATE_RESULT, 0⟩] [6] := by
  obtain ⟨x, hx⟩ : ∃ x : State, x = { s with clk := { s.clk with gate := none } } := ⟨_, rfl⟩
  obtain ⟨h1, -, h3, h4⟩ := x.gateResult_reads (code := 2) hn (by decide)
  have hxo : onlyRegs s x [⟨.CLK_GATE_RESULT, 0⟩] := by rw [hx]; exact .of_eq rfl rfl (.refl _ _)
  obtain ⟨y, hy⟩ : ∃ y, y = x.gateResult g.node 2 := ⟨_, rfl⟩
  rw [← hy] at h1 h3 h4
  have he : s.gateEnded g false = y.raise0 6 := by rw [hy, hx]; rfl
  have hr : Raises y (y.raise0 6) [6] := State.raise0_raises 6
  rw [he]
  refine ⟨?_, ?_, ?_, fun hk => ?_, ?_, ?_, .raise0 (by simp) ((hxo.trans h4).raising rfl)⟩
  · rw [hr.gateOpen, h3]
    exact State.gateOpen_of_reg (hxo.1 _ _ (by simp)) (hxo.1 _ _ (by simp))
  · rw [hr.clk, hy, State.gateResult, State.setFld_clk, State.setFld_clk, hx]
  · rw [hr.fld _ _ rfl, h1]
  · refine State.raise0_hubSource rfl ?_
    rw [State.fld_of_reg ((hxo.trans h4).1 _ _ (by simp))]
    exact hk
  · rw [hr.pwr, hy, State.gateResult, State.setFld_pwr, State.setFld_pwr, hx]
  · rw [hr.mgt_run, hy, State.gateResult, State.setFld_mgt, State.setFld_mgt, hx]

/-- What follows the end of a gate request: nothing, or the BUSY of a power request. -/
theorem State.pwrNext_reads (r : PwrReq) (h : s.pwr.wait = some r) (hg : s.clk.gate = none) (hrun : s.mgt.run ≠ 1) :
    s.pwrNext.clk.gate = none ∧ s.pwrNext.pwr.wait = none ∧ s.pwrNext.fld Fld.HUB_PWR_STATUS_RESULT 0 = 4 := by
  rw [State.pwrNext_busy h hg hrun]
  refine ⟨?_, ?_, ?_⟩
  · rw [State.pwrResult, State.setFld_clk]
    exact hg
  · rw [State.pwrResult, State.setFld_pwr]
    rfl
  · simp [State.pwrResult]

section acknowledged
variable {g : GateReq} (t : Tu) (ha : s.alive = true) (hg : s.clk.gate = some g)
include ha hg

theorem execGateQuiesceAck_eq (hf : s.forceHonoured g.node = false)
    (hle : tuLe (s.at t).time (tuAdd g.at_ (ns 4000)) = true) :
    exec (.gateQuiesceAck t) s = s.done ((s.at t).gateEnded g true).pwrNext := by
  rw [exec, execGateQuiesceAck, State.when_eq ha, State.at_clk, hg]
  dsimp only
  rw [State.at_forceHonoured, hf, hle, if_neg (by decide)]
  rfl

theorem execGateBusy_eq (hle : tuLe (tuAdd g.at_ (ns 4000)) (s.at t).time = true) :
    exec (.gateBusy t) s = s.done ((s.at t).gateEnded g false).pwrNext := by
  rw [exec, execGateBusy, State.when_eq ha, State.at_clk, hg]
  dsimp only
  rw [hle, if_pos rfl]
  rfl

/-- The clock stops at the acknowledge (R108). -/
theorem gateQuiesceAck_stops (hn : g.node < 34) (hf : s.forceHonoured g.node = false)
    (hle : tuLe (s.at t).time (tuAdd g.at_ (ns 4000)) = true) (hw : s.pwr.wait = none) :
    ∃ u, exec (.gateQuiesceAck t) s = .next u ∧ u.gateOpen g.node = false ∧ u.clk.gate = none ∧
      u.fld Fld.CLK_GATE_RESULT_CODE 0 = 0 ∧ u.fld Fld.CLK_GATE_RESULT_NODE 0 = g.node ∧ sameMem s u := by
  obtain ⟨h1, h2, h3, h4, h5, h6, -⟩ := (s.at t).gateEnded_acked (g := g) (by omega)
  obtain ⟨u, hu, hr⟩ := s.done_notes ((s.at t).gateEnded g true)
  refine ⟨u, ?_, ?_, ?_, ?_, ?_, fun a => by rw [hr.mem, h5, State.at_mem]⟩
  · rw [execGateQuiesceAck_eq t ha hg hf hle, State.pwrNext_of_none (h6.trans (by rw [State.at_pwr, hw]))]
    exact hu
  · rw [hr.gateOpen, h1]
  · rw [hr.clk, h2]
  · rw [hr.fld _ _ rfl, h3]
  · rw [hr.fld _ _ rfl, h4]

/-- No acknowledge comes of a block without a running clock, or after the 4 µs (R105, R108). -/
theorem gateQuiesceAck_ignored (h : s.forceHonoured g.node = true ∨ tuLe (s.at t).time (tuAdd g.at_ (ns 4000)) = false) :
    ∃ u, exec (.gateQuiesceAck t) s = .next u ∧ u.clk = s.clk ∧ onlyRegs s u [] := by
  obtain ⟨hd, -, ho⟩ := s.done_at t
  refine ⟨s.at t, ?_, State.at_clk _ _, ho⟩
  rw [exec, execGateQuiesceAck, State.when_eq ha, State.at_clk, hg]
  dsimp only
  rw [State.at_forceHonoured, if_pos (by rcases h with h | h <;> simp [h]), hd]

/-- The request ends BUSY after 4 µs (R108). -/
theorem gateBusy_shows (hn : g.node < 34) (hle : tuLe (tuAdd g.at_ (ns 4000)) (s.at t).time = true)
    (hw : s.pwr.wait = none) :
    ∃ u, exec (.gateBusy t) s = .next u ∧ u.gateOpen g.node = s.gateOpen g.node ∧ u.clk.gate = none ∧
      u.fld Fld.CLK_GATE_RESULT_CODE 0 = 2 ∧ (s.fld Fld.EVT_ROUTE_KIND 6 ≠ 1 → u.evtStatus 6 = true) ∧
      onlyRaising s u [⟨.CLK_GATE_RESULT, 0⟩] [6] := by
  obtain ⟨h1, h2, h3, h4, h5, -, h7⟩ := (s.at t).gateEnded_busy (g := g) (by omega)
  obtain ⟨u, hu, hr, ho⟩ := s.done_onlyRaising h7
  refine ⟨u, ?_, ?_, ?_, ?_, fun hk => ?_, ho⟩
  · rw [execGateBusy_eq t ha hg hle, State.pwrNext_of_none (h5.trans (by rw [State.at_pwr, hw]))]
    exact hu
  · rw [hr.gateOpen, h1, State.at_gateOpen]
  · rw [hr.clk, h2]
  · rw [hr.fld _ _ rfl, h3]
  · rw [hr.evtStatus (by decide)]
    exact h4 (by rw [State.at_fld]; exact hk)

/-- A power request that waits is carried out then, and ends BUSY where Basecamp does not run (R417). -/
theorem gateEnds_powerBusy (hn : g.node < 34) {r : PwrReq} (hw : s.pwr.wait = some r) (hrun : s.mgt.run ≠ 1) :
    (s.forceHonoured g.node = false → tuLe (s.at t).time (tuAdd g.at_ (ns 4000)) = true →
      ∃ u, exec (.gateQuiesceAck t) s = .next u ∧ u.clk.gate = none ∧ u.pwr.wait = none ∧
        u.fld Fld.HUB_PWR_STATUS_RESULT 0 = 4) ∧
    (tuLe (tuAdd g.at_ (ns 4000)) (s.at t).time = true →
      ∃ u, exec (.gateBusy t) s = .next u ∧ u.clk.gate = none ∧ u.pwr.wait = none ∧
        u.fld Fld.HUB_PWR_STATUS_RESULT 0 = 4) := by
  have hends : ∀ x : State, x.pwr.wait = (s.at t).pwr.wait → x.clk.gate = none → x.mgt.run = (s.at t).mgt.run →
      ∃ u, s.done x.pwrNext = .next u ∧ u.clk.gate = none ∧ u.pwr.wait = none ∧
        u.fld Fld.HUB_PWR_STATUS_RESULT 0 = 4 := fun x h1 h2 h3 => by
    obtain ⟨g1, g2, g3⟩ := State.pwrNext_reads r (h1.trans (by rw [State.at_pwr, hw])) h2
      (by rw [h3, State.at_mgt]; exact hrun)
    obtain ⟨u, hu, hr⟩ := s.done_notes x.pwrNext
    exact ⟨u, hu, by rw [hr.clk, g1], by rw [hr.pwr, g2], by rw [hr.fld _ _ rfl, g3]⟩
  refine ⟨fun hf hle => ?_, fun hle => ?_⟩
  · obtain ⟨-, h2, -, -, -, h6, h7⟩ := (s.at t).gateEnded_acked (g := g) (by omega)
    rw [execGateQuiesceAck_eq t ha hg hf hle]
    exact hends _ h6 h2 h7
  · obtain ⟨-, h2, -, -, h5, h6, -⟩ := (s.at t).gateEnded_busy (g := g) (by omega)
    rw [execGateBusy_eq t ha hg hle]
    exact hends _ h5 h2 h6

end acknowledged

/-- Settles O21: the requests, a second request, and the ends of a request. -/
theorem gatesCloseAndOpen : Obligations.GatesCloseAndOpen := by
  refine ⟨fun s t n hup hg => ⟨gateClose_refused t n hup hg, fun hr hopen => ⟨?_, gateForceClose_stops t n hup hg hr hopen,
      fun hf => ?_⟩, gateOpen_refused t n hup hg, gateOpen_starts t n hup hg⟩,
    fun s t n => gateRequests_overrun t n,
    fun s t g ha hg hn => ⟨gateQuiesceAck_stops t ha hg hn, gateQuiesceAck_ignored t ha hg, gateBusy_shows t ha hg hn,
      fun r => gateEnds_powerBusy t ha hg hn⟩⟩
  · rw [execGateClose_eq t n hup]
    exact State.requestClose_waits t n false hg hr hopen (.inl rfl)
  · rw [execGateForceClose_eq t n hup]
    exact State.requestClose_waits t n true hg hr hopen (.inr hf)

end Sys2Proof.Machine
end

section
/-! SUPPORT. The JPLL and the AUXCLK outputs (R115 to R118, R126, R127). -/

namespace Sys2Proof.Machine

variable {s t u : State} {but : List Reg} {srcs : List Nat}

/-! ### A loss of lock of the JPLL -/

theorem State.jpllUnlock_of_unlocked (h : s.fld Fld.PLL_JPLL_STATUS_LOCK 0 = 0) : s.jpllUnlock = s := by
  rw [State.jpllUnlock, State.flag_eq, h]
  rfl

/-- A trip of a source on which the JPLL is locked is a loss of its lock (R118). -/
theorem State.tripped_of_lock (s : State) (hl : s.flag Fld.PLL_JPLL_STATUS_LOCK 0 = true) :
    s.tripped.flag Fld.PLL_JPLL_STATUS_LOST 0 = true ∧
      s.tripped.fld Fld.PLL_JPLL_STATUS_PHASE_ERR 0 = s.fld Fld.PLL_JPLL_STATUS_PHASE_ERR 0 ∧
      (s.fld Fld.EVT_ROUTE_KIND 64 ≠ 1 → s.tripped.evtStatus 64 = true) := by
  refine ⟨?_, ?_, fun hk => ?_⟩
  · simp [State.tripped, State.toCoast, State.setActive, State.jpllUnlock, hl, State.flag_eq]
  · simp [State.tripped, State.toCoast, State.setActive, State.jpllUnlock, hl]
  · have h : s.tripped.evtStatus 64 = (((s.setFld Fld.PLL_JPLL_STATUS_LOCK 0 0).setFld
        Fld.PLL_JPLL_STATUS_LOST 0 1).raise 64 1 0).evtStatus 64 := by
      simp [State.tripped, State.relockIdle, State.unqualify, qualFld_reg, qcountFld_reg, State.toCoast,
        State.setActive, State.jpllUnlock, hl]
    rw [h]
    exact State.raise_hubSource 1 0 rfl (by simpa using hk)

/-- A switch of a JPLL that is not locked leaves what a loss of lock told. -/
theorem State.switchTo_of_unlocked (s : State) (x : Nat) (h : s.fld Fld.PLL_JPLL_STATUS_LOCK 0 = 0) :
    (s.switchTo x).flag Fld.PLL_JPLL_STATUS_LOST 0 = s.flag Fld.PLL_JPLL_STATUS_LOST 0 ∧
      (s.switchTo x).fld Fld.PLL_JPLL_STATUS_PHASE_ERR 0 = s.fld Fld.PLL_JPLL_STATUS_PHASE_ERR 0 ∧
      (s.switchTo x).evtStatus 64 = s.evtStatus 64 := by
  simp [State.switchTo, State.setActive, State.jpllUnlock_of_unlocked h, State.relockIdle, State.flag_eq]

theorem State.trip_of_lock (s : State) (ha : s.active < 2) (hl : s.flag Fld.PLL_JPLL_STATUS_LOCK 0 = true) :
    s.trip.flag Fld.PLL_JPLL_STATUS_LOST 0 = true ∧
      s.trip.fld Fld.PLL_JPLL_STATUS_PHASE_ERR 0 = s.fld Fld.PLL_JPLL_STATUS_PHASE_ERR 0 ∧
      (s.fld Fld.EVT_ROUTE_KIND 64 ≠ 1 → s.trip.evtStatus 64 = true) := by
  obtain ⟨hq, -, hact, hrel, -, hlock, -⟩ := s.tripped_reads ha
  have h := s.tripped_of_lock hl
  rw [s.trip_eq ha, s.tripped.choose_of_coast (y := 1 - s.active) (by omega) hact (by omega)
    (by rw [show 1 - (1 - s.active) = s.active by omega]; exact hq)]
  split
  · obtain ⟨h1, h2, h3⟩ := s.tripped.switchTo_of_unlocked (1 - s.active) hlock
    rw [h1, h2, h3]
    exact h
  · exact h

/-- What a raise of a source of the hub leaves in its causes. -/
theorem State.raise_causes_hub {k : Nat} (causes info : Nat) (hh : hubSource k = true)
    (hk : s.fld Fld.EVT_ROUTE_KIND k ≠ 1) :
    (s.raise k causes info).fld Fld.EVT_DATA_CAUSES k = s.fld Fld.EVT_DATA_CAUSES k ||| causes % 2 ^ 16 := by
  simp only [hubSource, Bool.and_eq_true, Bool.not_eq_true', Bool.or_eq_false_iff, decide_eq_false_iff_not] at hh
  obtain ⟨hv, ⟨⟨h1, h2⟩, h3⟩, h4⟩ := hh
  have ha : s.evtAsleep k = false := by
    unfold State.evtAsleep
    repeat rw [if_neg (by omega)]
  have hq : s.evtAbsent k = false := by rw [State.evtAbsent, decide_eq_false h3, Bool.false_and]
  exact (Raises.sameSource_fld ((State.raise_raiseMarks causes info hv ha hq hk).src k List.not_mem_nil)
    (.inl rfl)).trans (s.raiseMarks_reads k causes info).2.1

/-! ### The commands of the JPLL -/

theorem jpllLock_declares (t : Tu) (err : BitVec 16) (ha : s.alive = true) (hact : s.active ≠ 2)
    (hl : s.flag Fld.PLL_JPLL_STATUS_LOCK 0 = false) (hw : err.toInt.natAbs ≤ s.lockWindow 0)
    (hle : tuLe (tuAdd s.pll.jpllFrom (s.countSpan 0 s.jpllPfd)) (s.at t).time = true) :
    ∃ u, exec (.jpllLock t err) s = .next u ∧ u.flag Fld.PLL_JPLL_STATUS_LOCK 0 = true ∧
      u.fld Fld.PLL_JPLL_STATUS_PHASE_ERR 0 = err.toNat ∧ u.fld Fld.HUB_BOOT_STATUS_CLK_OK 0 = 1 ∧
      (s.fld Fld.EVT_ROUTE_KIND 64 ≠ 1 → u.evtStatus 64 = true ∧ (u.fld Fld.EVT_DATA_CAUSES 64).testBit 1 = true) ∧
      onlyRaising s u [⟨.PLL_JPLL_STATUS, 0⟩, ⟨.HUB_BOOT_STATUS, 0⟩] [64] := by
  obtain ⟨w, hw0⟩ : ∃ w, w = (((s.at t).setFld Fld.PLL_JPLL_STATUS_PHASE_ERR 0 err.toNat).setFld
      Fld.PLL_JPLL_STATUS_LOCK 0 1).setFld Fld.HUB_BOOT_STATUS_CLK_OK 0 1 := ⟨_, rfl⟩
  have hexec : exec (.jpllLock t err) s = s.done (w.raise 64 2 0) := by
    have h : (s.at t).active ≠ 2 ∧ !(s.at t).flag Fld.PLL_JPLL_STATUS_LOCK 0 ∧
        err.toInt.natAbs ≤ (s.at t).lockWindow 0 ∧
        tuLe (tuAdd (s.at t).pll.jpllFrom ((s.at t).countSpan 0 (s.at t).jpllPfd)) (s.at t).time := by
      simp only [State.active, State.lockWindow, State.countSpan, State.jpllPfd, State.at_fld, State.at_flag,
        State.at_pll] at hact hw hle ⊢
      exact ⟨hact, by simp [hl], hw, hle⟩
    rw [exec, execJpllLock, State.when_eq ha, if_pos h, hw0]
  have hwo : onlyRegs (s.at t) w [⟨.PLL_JPLL_STATUS, 0⟩, ⟨.HUB_BOOT_STATUS, 0⟩] := by
    rw [hw0]
    exact .setFld (by simp) (.setFld (by simp) (.setFld (by simp) (.refl _ _)))
  have hk : w.fld Fld.EVT_ROUTE_KIND 64 = s.fld Fld.EVT_ROUTE_KIND 64 :=
    (State.fld_of_reg (hwo.1 _ _ (by simp))).trans (State.at_fld _ _ _ _)
  obtain ⟨u, hu, hn, ho⟩ := s.done_onlyRaising (x := t) (t := w.raise 64 2 0) (srcs := [64])
    (.raise (by simp) (hwo.raising rfl))
  have hf : ∀ f : Fld, eventReg f.reg = false → u.fld f 0 = w.fld f 0 := fun f he =>
    (hn.fld _ _ he).trans (State.raise_fld_of _ _ _ _ _ _ he)
  refine ⟨u, hexec.trans hu, ?_, ?_, ?_, fun h => ⟨?_, ?_⟩, ho⟩
  · rw [State.flag, hf _ rfl, hw0]
    simp
  · rw [hf _ rfl, hw0]
    have hlt : err.toNat < 65536 := err.isLt
    simpa using Nat.mod_eq_of_lt hlt
  · rw [hf _ rfl, hw0]
    simp
  · rw [hn.evtStatus (by decide)]
    exact State.raise_hubSource 2 0 rfl (by rw [hk]; exact h)
  · have hd : u.fld Fld.EVT_DATA_CAUSES 64 = (w.raise 64 2 0).fld Fld.EVT_DATA_CAUSES 64 :=
      Raises.sameSource_fld (hn.src 64 (by decide)) (.inl rfl)
    rw [hd, State.raise_causes_hub 2 0 rfl (by rw [hk]; exact h)]
    rw [Nat.testBit_or, show Nat.testBit (2 % 2 ^ 16) 1 = true from rfl, Bool.or_true]

theorem jpllLockLoss_trips (t first : Tu) (err : BitVec 16) (ha : s.alive = true) (hact : s.active < 2)
    (hl : s.flag Fld.PLL_JPLL_STATUS_LOCK 0 = true)
    (hloss : (s.at t).lossShown 0 s.jpllPfd ((s.at t).stamp first) err.toInt.natAbs = true) :
    ∃ u, exec (.jpllLockLoss t first err) s = .next u ∧ u.flag Fld.PLL_JPLL_STATUS_LOCK 0 = false ∧
      u.flag Fld.PLL_JPLL_STATUS_LOST 0 = true ∧ u.fld Fld.PLL_JPLL_STATUS_PHASE_ERR 0 = err.toNat ∧
      u.qualified s.active = false ∧ u.active ≠ s.active ∧
      (s.fld Fld.EVT_ROUTE_KIND 64 ≠ 1 → u.evtStatus 64 = true) ∧
      (s.fld Fld.EVT_ROUTE_KIND 0 ≠ 1 → u.evtStatus 0 = true) ∧
      (s.fld Fld.EVT_ROUTE_KIND 1 ≠ 1 → u.evtStatus 1 = true) ∧ onlyRaising s u sourceRegs [0, 1, 2, 64] := by
  obtain ⟨w, hw0⟩ : ∃ w, w = (s.at t).setFld Fld.PLL_JPLL_STATUS_PHASE_ERR 0 err.toNat := ⟨_, rfl⟩
  have hexec : exec (.jpllLockLoss t first err) s = s.done w.trip := by
    have hp : (s.at t).jpllPfd = s.jpllPfd := by
      simp only [State.jpllPfd, State.active, State.at_fld, State.at_pll]
      rfl
    have hact' : (s.at t).active = s.active := State.at_fld _ _ _ _
    rw [exec, execJpllLockLoss, State.when_eq ha, if_pos ⟨by omega, by simpa using hl, by rw [hp]; exact hloss⟩, hw0]
  have hwo : onlyRegs (s.at t) w [⟨.PLL_JPLL_STATUS, 0⟩] := by
    rw [hw0]
    exact .setFld (by simp) (.refl _ _)
  have hwa : w.active = s.active := by rw [hw0, State.active, State.active]; simp
  have hwl : w.flag Fld.PLL_JPLL_STATUS_LOCK 0 = true := by rw [hw0]; simpa [State.flag_eq] using hl
  obtain ⟨u, hu, ho, hn, hq, hsw, hco, h0, h1, hlock⟩ := State.done_trip rfl hwo (by simp) (by rw [hw0]; rfl) hact
  obtain ⟨hlost, hpe, h64⟩ := w.trip_of_lock (by omega) hwl
  refine ⟨u, hexec.trans hu, hlock, ?_, ?_, hq, ?_, fun h => ?_, h0, h1, ho.mono (by simp [sourceRegs]) fun _ h => h⟩
  · rw [State.flag, hn.fld _ _ rfl]
    exact hlost
  · rw [hn.fld _ _ rfl, hpe, hw0]
    have hlt : err.toNat < 65536 := err.isLt
    simpa using Nat.mod_eq_of_lt hlt
  · by_cases hc : s.prefs.contains (1 - s.active) = true ∧ s.qualified (1 - s.active) = true
    · rw [hsw hc]
      omega
    · rw [(hco (by simpa only [not_and_or, Bool.not_eq_true] using hc)).1]
      omega
  · rw [hn.evtStatus (by decide)]
    refine h64 ?_
    rw [hw0]
    simpa using h

theorem jpllCfgWrite_stores (t : Tu) (v : Word) (hup : s.hostUp = true) :
    ∃ u, exec (.jpllCfgWrite t v) s = .next u ∧ u.fld Fld.PLL_JPLL_CFG_REF_MODE 0 = getBits v 0 2 ∧
      u.fld Fld.PLL_JPLL_CFG_BW 0 = getBits v 2 2 ∧ u.pll = s.pll ∧ onlyRegs s u [⟨.PLL_JPLL_CFG, 0⟩] := by
  obtain ⟨hd, ho⟩ := State.done_onlyRegs ((s.at t).writeRW_regs .PLL_JPLL_CFG 0 v) rfl
  refine ⟨(s.at t).writeRW .PLL_JPLL_CFG 0 v, ?_, State.fld_writeRW _ Fld.PLL_JPLL_CFG_REF_MODE 0 v (by decide),
    State.fld_writeRW _ Fld.PLL_JPLL_CFG_BW 0 v (by decide), s.at_pll t, ho⟩
  rw [exec, execJpllCfgWrite, State.whenHost_eq hup]
  exact hd

/-! ### Writes of the settings of an AUXCLK output -/

theorem State.auxOf_auxPut (s : State) (i : Nat) (a : Aux) : (s.auxPut i a).auxOf i = a := by
  unfold State.auxPut
  split
  · next h => exact h.symm
  · exact tget_tput_same _ _ _ _

/-- The source of an output hangs on the multiplexers, the feeds, and on registers other than its settings. -/
theorem State.auxSource_of_reg (hc : t.clk = s.clk) (hp : t.pll = s.pll)
    (hr : ∀ n i, n ≠ .PLL_AUX_CFG → n ≠ .PLL_AUX_DELAY → t.reg n i = s.reg n i) (i : Nat) :
    t.auxSource i = s.auxSource i := by
  have hf : ∀ (f : Fld) i, f.reg ≠ .PLL_AUX_CFG → f.reg ≠ .PLL_AUX_DELAY → t.fld f i = s.fld f i :=
    fun f i h1 h2 => State.fld_of_reg (hr _ _ h1 h2)
  have hd : ∀ e, t.dieAsleep e = s.dieAsleep e := fun e => by
    rw [State.dieAsleep, State.dieAsleep, State.gateOpen, State.gateOpen, hf _ _ (by simp) (by simp),
      hr _ _ (by simp) (by simp), hr _ _ (by simp) (by simp)]
  have hn : ∀ e, t.rateNow e = s.rateNow e := fun e => hf _ _ (by simp) (by simp)
  unfold State.auxSource
  dsimp only
  rw [hc, hp, hf _ _ (by simp) (by simp), hf _ _ (by simp) (by simp), hd, hn]

/-- What an output does that takes its settings over at an edge moved by `x`. -/
theorem State.auxOut_reads (s : State) (i : Nat) (x : Ratio) {src : Ratio} (h : s.auxSource i = some src) :
    ((s.auxOut i x).auxOf i).on = s.auxOn i ∧
      ((s.auxOut i x).auxOf i).period = src.mul (s.fld Fld.PLL_AUX_CFG_DIV i + 1) ∧
      ((s.auxOut i x).auxOf i).edge = ((s.auxOf i).rise (.ofTu s.time)).add x := by
  unfold State.auxOut
  rw [h]
  dsimp only
  rw [State.auxOf_auxPut]
  exact ⟨rfl, rfl, rfl⟩

theorem State.auxOut_of_none (s : State) (i : Nat) (x : Ratio) (h : s.auxSource i = none) : s.auxOut i x = s := by
  unfold State.auxOut
  rw [h]

theorem sameRatio.refl (a : Ratio) : sameRatio a a := rfl

theorem sameRatio_add_zero (a : Ratio) : sameRatio (a.add (.ofInt 0)) a := by
  simp [sameRatio, Ratio.add, Ratio.ofInt]

theorem sameRatio_add_assoc (a b c : Ratio) : sameRatio (a.add (b.add c)) ((a.add b).add c) := by
  simp only [sameRatio, Ratio.add]
  push_cast
  ring

theorem auxCfgWrite_follows (t : Tu) (i : Fin 4) (v : Word) (hup : s.hostUp = true) :
    ∃ u, exec (.auxCfgWrite t i v) s = .next u ∧ u.fld Fld.PLL_AUX_CFG_DIV i = getBits v 2 12 ∧
      u.flag Fld.PLL_AUX_CFG_ALIGN i = v.getLsbD 1 ∧ u.flag Fld.PLL_AUX_CFG_EN i = v.getLsbD 0 ∧
      (∀ src, (s.at t).auxSource i = some src →
        (u.auxOf i).on = (v.getLsbD 0 && s.gateOpen (30 + i)) ∧ (u.auxOf i).period = src.mul (getBits v 2 12 + 1) ∧
          sameRatio (u.auxOf i).edge ((s.auxOf i).rise (.ofTu (s.at t).time))) ∧
      ((s.at t).auxSource i = none → u.pll = s.pll) ∧ onlyRegs s u [⟨.PLL_AUX_CFG, i⟩] := by
  obtain ⟨w, hw⟩ : ∃ w, w = (s.at t).writeRW .PLL_AUX_CFG i v := ⟨_, rfl⟩
  have hwo : onlyRegs (s.at t) w [⟨.PLL_AUX_CFG, i⟩] := by rw [hw]; exact State.writeRW_regs _ _ _ v
  have hwp : w.pll = s.pll := by rw [hw]; exact s.at_pll t
  have hsrc : w.auxSource i = (s.at t).auxSource i :=
    State.auxSource_of_reg (by rw [hw]; rfl) (by rw [hw]; rfl) (fun n j h _ => hwo.1 _ _ (by simp [h])) i
  have hwt : w.time = (s.at t).time := by rw [hw]; rfl
  have hdiv : w.fld Fld.PLL_AUX_CFG_DIV i = getBits v 2 12 := by
    rw [hw]; exact State.fld_writeRW _ Fld.PLL_AUX_CFG_DIV i v (by decide)
  have halign : w.flag Fld.PLL_AUX_CFG_ALIGN i = v.getLsbD 1 := by
    rw [hw, State.flag, State.fld_writeRW _ Fld.PLL_AUX_CFG_ALIGN i v (by decide)]; exact getBits_one v 1
  have hen : w.flag Fld.PLL_AUX_CFG_EN i = v.getLsbD 0 := by
    rw [hw, State.flag, State.fld_writeRW _ Fld.PLL_AUX_CFG_EN i v (by decide)]; exact getBits_one v 0
  have hgate : w.gateOpen (30 + i) = s.gateOpen (30 + i) :=
    (State.gateOpen_of_reg (hwo.1 _ _ (by simp)) (hwo.1 _ _ (by simp))).trans (State.at_gateOpen _ _ _)
  have ha := w.auxOut_only i (.ofInt 0)
  obtain ⟨hd, ho⟩ := State.done_onlyRegs (ha.onlyRegs hwo) rfl
  refine ⟨w.auxOut i (.ofInt 0), ?_, ?_, ?_, ?_, fun src h => ?_, fun h => ?_, ho⟩
  · rw [exec, execAuxCfgWrite, State.whenHost_eq hup, State.writeAuxCfg, ← hw]
    exact hd
  · rw [State.fld, State.reg, ha.regs]; exact hdiv
  · rw [State.flag, State.fld, State.reg, ha.regs]; exact halign
  · rw [State.flag, State.fld, State.reg, ha.regs]; exact hen
  · obtain ⟨h1, h2, h3⟩ := w.auxOut_reads i (.ofInt 0) (hsrc.trans h)
    refine ⟨by rw [h1, State.auxOn, hen, hgate], by rw [h2, hdiv], ?_⟩
    rw [h3, hwt, State.auxOf, State.auxOf, hwp]
    exact sameRatio_add_zero _
  · rw [w.auxOut_of_none i _ (hsrc.trans h), hwp]

theorem auxDelayWrite_moves (t : Tu) (i : Fin 4) (v : Word) (hup : s.hostUp = true) :
    ∃ u, exec (.auxDelayWrite t i v) s = .next u ∧ u.fld Fld.PLL_AUX_DELAY_COARSE i = getBits v 0 12 ∧
      u.fld Fld.PLL_AUX_DELAY_FINE i = getBits v 12 8 ∧
      (∀ src, (s.at t).auxSource i = some src →
        let d := (u.auxDelay i src).sub (s.auxDelay i src)
        let rise := (s.auxOf i).rise (.ofTu (s.at t).time)
        (u.auxOf i).on = s.auxOn i ∧ (u.auxOf i).period = src.mul (s.fld Fld.PLL_AUX_CFG_DIV i + 1) ∧
          (0 ≤ d.num → sameRatio (u.auxOf i).edge (rise.add d)) ∧
          (d.num < 0 → sameRatio (u.auxOf i).edge ((rise.add d).add
            ⟨(s.auxOf i).period.num * Ratio.periods ⟨-d.num, d.den⟩ (s.auxOf i).period, (s.auxOf i).period.den⟩))) ∧
      ((s.at t).auxSource i = none → u.pll = s.pll) ∧ onlyRegs s u [⟨.PLL_AUX_DELAY, i⟩] := by
  obtain ⟨w, hw⟩ : ∃ w, w = (s.at t).writeRW .PLL_AUX_DELAY i v := ⟨_, rfl⟩
  have hwo : onlyRegs (s.at t) w [⟨.PLL_AUX_DELAY, i⟩] := by rw [hw]; exact State.writeRW_regs _ _ _ v
  have hwp : w.pll = s.pll := by rw [hw]; exact s.at_pll t
  have hsrc : w.auxSource i = (s.at t).auxSource i :=
    State.auxSource_of_reg (by rw [hw]; rfl) (by rw [hw]; rfl) (fun n j _ h => hwo.1 _ _ (by simp [h])) i
  have hwt : w.time = (s.at t).time := by rw [hw]; rfl
  have hcoarse : w.fld Fld.PLL_AUX_DELAY_COARSE i = getBits v 0 12 := by
    rw [hw]; exact State.fld_writeRW _ Fld.PLL_AUX_DELAY_COARSE i v (by decide)
  have hfine : w.fld Fld.PLL_AUX_DELAY_FINE i = getBits v 12 8 := by
    rw [hw]; exact State.fld_writeRW _ Fld.PLL_AUX_DELAY_FINE i v (by decide)
  have hcfg : ∀ f : Fld, f.reg = .PLL_AUX_CFG → w.fld f i = s.fld f i := fun f hf =>
    (State.fld_of_reg (hwo.1 _ _ (by simp [hf]))).trans (State.at_fld _ _ _ _)
  have hgate : w.gateOpen (30 + i) = s.gateOpen (30 + i) :=
    (State.gateOpen_of_reg (hwo.1 _ _ (by simp)) (hwo.1 _ _ (by simp))).trans (State.at_gateOpen _ _ _)
  have hdelay : ∀ src, (s.at t).auxDelay i src = s.auxDelay i src := fun src => by
    rw [State.auxDelay, State.auxDelay, State.at_fld, State.at_fld]
  have hper : (s.at t).auxOf i = s.auxOf i := by rw [State.auxOf, State.auxOf, State.at_pll]
  cases h : (s.at t).auxSource i with
  | none =>
    obtain ⟨hd, ho⟩ := State.done_onlyRegs hwo rfl
    refine ⟨w, ?_, hcoarse, hfine, fun _ h' => (by cases h'), fun _ => hwp, ho⟩
    rw [exec, execAuxDelayWrite, State.whenHost_eq hup, State.writeAuxDelay, ← hw]
    dsimp only
    rw [hsrc, h]
    exact hd
  | some src =>
    obtain ⟨d, hd0⟩ : ∃ d, d = (w.auxDelay i src).sub (s.auxDelay i src) := ⟨_, rfl⟩
    obtain ⟨p, hp0⟩ : ∃ p, p = (s.auxOf i).period := ⟨_, rfl⟩
    obtain ⟨x, hx⟩ : ∃ x, x = if d.num < 0 then d.add ⟨p.num * Ratio.periods ⟨-d.num, d.den⟩ p, p.den⟩ else d := ⟨_, rfl⟩
    have ha := w.auxOut_only i x
    obtain ⟨hd, ho⟩ := State.done_onlyRegs (ha.onlyRegs hwo) rfl
    have hf : ∀ f j, (w.auxOut i x).fld f j = w.fld f j := fun f j => by
      rw [State.fld, State.fld, State.reg, State.reg, ha.regs]
    have hdu : ((w.auxOut i x).auxDelay i src) = w.auxDelay i src := by
      rw [State.auxDelay, State.auxDelay, hf, hf]
    obtain ⟨h1, h2, h3⟩ := w.auxOut_reads i x (hsrc.trans h)
    have hon : w.auxOn i = s.auxOn i := by rw [State.auxOn, State.auxOn, State.flag, State.flag, hcfg _ rfl, hgate]
    have hedge : ((w.auxOut i x).auxOf i).edge = ((s.auxOf i).rise (.ofTu (s.at t).time)).add x := by
      rw [h3, hwt, State.auxOf, hwp]
      rfl
    refine ⟨w.auxOut i x, ?_, (hf _ _).trans hcoarse, (hf _ _).trans hfine, fun src' hs => ?_,
      fun h' => (by cases h'), ho⟩
    · rw [exec, execAuxDelayWrite, State.whenHost_eq hup, State.writeAuxDelay, ← hw]
      dsimp only
      rw [hsrc, h]
      dsimp only
      rw [hper, hdelay, ← hd0, ← hp0, ← hx]
      exact hd
    · cases hs
      dsimp only
      rw [hdu, ← hd0, ← hp0]
      refine ⟨h1.trans hon, by rw [h2, hcfg _ rfl], fun h0 => ?_, fun h0 => ?_⟩
      · rw [hedge, hx, if_neg (by omega)]
        exact .refl _
      · rw [hedge, hx, if_pos h0]
        exact sameRatio_add_assoc _ _ _

/-- Settles O24: the JPLL clause by clause, and the two settings of an AUXCLK output. -/
theorem jpllAndAuxFollow : Obligations.JpllAndAuxFollow := by
  refine ⟨fun s t hup => ?_, fun s t i v hup => ⟨auxCfgWrite_follows t i v hup, auxDelayWrite_moves t i v hup⟩⟩
  have ha := State.alive_of_hostUp hup
  exact ⟨fun err hact hl hw hle => jpllLock_declares t err ha hact hl hw hle,
    fun first err hact hl hloss => jpllLockLoss_trips t first err ha hact hl hloss, fun v => jpllCfgWrite_stores t v hup⟩

end Sys2Proof.Machine
end

section
/-! SUPPORT. The APLL, its feeds and the pixel clock (R115, R125, R318). -/

namespace Sys2Proof.Machine

variable {s t u : State} {but : List Reg} {srcs : List Nat}

theorem auxOnly.pll (h : auxOnly s t) : t.pll = { s.pll with aux := t.pll.aux } := by obtain ⟨_, _, _, rfl⟩ := h; rfl
theorem auxOnly.fld (h : auxOnly s t) (f : Fld) (i : Nat) : t.fld f i = s.fld f i := by
  rw [State.fld, State.fld, State.reg, State.reg, h.regs]

/-! ### A change of the pixel clock -/

/-- What a change of the pixel clock does before the rule of R316 is checked again. -/
theorem State.pixChange_halts (s : State) (runs : Bool) :
    ∃ x : State, x.pll = s.pll ∧ (s.fld Fld.RAS_STATUS_STATE 0 ≠ 0 → x.fld Fld.RAS_STATUS_STATE 0 = 2) ∧
      s.pixChange runs = if x.inForceOk then x else
        (x.setFld Fld.RAS_STATUS_TIMING_ERR 0 1).modRas fun r => { r with dsiStopped := true } := by
  refine ⟨if s.fld Fld.RAS_STATUS_STATE 0 = 0 then s else
      (s.setFld Fld.RAS_STATUS_STATE 0 2).modRas fun r =>
        { r with abandoned := r.abandoned || s.inPicture, frame := false, teWait := false,
                 restartFrom := if runs then some s.time else none }, ?_, fun h => ?_, rfl⟩
  · split <;> rfl
  · rw [if_neg h]
    exact s.fld_setFld_eq Fld.RAS_STATUS_STATE 0 2 (by decide)

theorem State.pixChange_pll (s : State) (runs : Bool) : (s.pixChange runs).pll = s.pll := by
  obtain ⟨x, hp, -, hx⟩ := s.pixChange_halts runs
  rw [hx]
  split
  · exact hp
  · exact hp

theorem State.pixChange_scanning (s : State) (runs : Bool) (h : s.fld Fld.RAS_STATUS_STATE 0 ≠ 0) :
    (s.pixChange runs).fld Fld.RAS_STATUS_STATE 0 = 2 := by
  obtain ⟨x, -, hs, hx⟩ := s.pixChange_halts runs
  rw [hx]
  split
  · exact hs h
  · exact (x.fld_setFld_apart Fld.RAS_STATUS_TIMING_ERR Fld.RAS_STATUS_STATE 0 0 1 (by decide)).trans (hs h)

/-- A change that is a change of the pixel clock unless `c`. -/
def State.pixUnless (s : State) (c : Prop) [Decidable c] : State := if c then s else s.pixChange s.pixRuns

theorem State.pixUnless_reads (s : State) (c : Prop) [Decidable c] :
    onlyRegs s (s.pixUnless c) [⟨.RAS_STATUS, 0⟩] ∧ (s.pixUnless c).pll = s.pll ∧
      (¬ c → s.fld Fld.RAS_STATUS_STATE 0 = 1 → (s.pixUnless c).fld Fld.RAS_STATUS_STATE 0 = 2) ∧
      (c → s.pixUnless c = s) := by
  unfold State.pixUnless
  split
  · next h => exact ⟨.refl _ _, rfl, fun hn => absurd h hn, fun _ => rfl⟩
  · next h =>
    exact ⟨(s.pixChange_only _).1, s.pixChange_pll _, fun _ h1 => s.pixChange_scanning _ (by omega), fun hc => absurd hc h⟩

/-! ### Retuning -/

theorem State.apllTune_reads (s : State) :
    s.apllTune.flag Fld.PLL_APLL_STATUS_LOCK 0 = false ∧ s.apllTune.pll.feedsLow = true ∧
      s.apllTune.pll.apllLockAt = none ∧ s.apllTune.pll.apllFrom = s.time ∧
      onlyRegs s s.apllTune [⟨.PLL_APLL_STATUS, 0⟩] := by
  obtain ⟨x, hx⟩ : ∃ x : State, x = { (s.setFld Fld.PLL_APLL_STATUS_LOCK 0 0) with
    pll := { s.pll with feedsLow := true, apllLockAt := none, apllFrom := s.time } } := ⟨_, rfl⟩
  have hu : s.apllTune = x.auxFollow 3 State.auxCut := by rw [hx]; rfl
  have ha := x.auxFollow_only 3 State.auxCut_only
  have hxo : onlyRegs s x [⟨.PLL_APLL_STATUS, 0⟩] := by
    rw [hx]
    exact .of_eq rfl rfl (.setFld (f := Fld.PLL_APLL_STATUS_LOCK) (t := s) (i := 0) (x := 0) (by simp) (.refl _ _))
  have hp : x.pll = { s.pll with feedsLow := true, apllLockAt := none, apllFrom := s.time } := by rw [hx]
  rw [hu, ha.pll, hp]
  refine ⟨?_, rfl, rfl, rfl, ha.onlyRegs hxo⟩
  have hl : x.fld Fld.PLL_APLL_STATUS_LOCK 0 = (s.setFld Fld.PLL_APLL_STATUS_LOCK 0 0).fld Fld.PLL_APLL_STATUS_LOCK 0 := by
    rw [hx]; rfl
  rw [State.flag, ha.fld, hl]
  simp

/-- A write that retunes the APLL: what it leaves, after the change `x` of its register. -/
theorem retune_reads {x : State} {b : List Reg} {c : Prop} [Decidable c] {t : Tu} (hx : onlyRegs (s.at t) x b)
    (ht : x.time = (s.at t).time) (hb : noEventReg b = true) (hras : ⟨.RAS_STATUS, 0⟩ ∉ b) :
    ∃ u, s.done (x.apllTune.pixUnless c) = .next u ∧ u.flag Fld.PLL_APLL_STATUS_LOCK 0 = false ∧
      u.pll.feedsLow = true ∧ u.pll.apllLockAt = none ∧ u.pll.apllFrom = (s.at t).time ∧
      (∀ f i, (⟨f.reg, i⟩ : Reg) ∉ pixRegs → u.fld f i = x.fld f i) ∧
      (¬ c → s.fld Fld.RAS_STATUS_STATE 0 = 1 → u.fld Fld.RAS_STATUS_STATE 0 = 2) ∧ onlyRegs s u (b ++ pixRegs) := by
  obtain ⟨hl, hf, ha, hfrom, hto⟩ := x.apllTune_reads
  obtain ⟨hpo, hpp, hscan, -⟩ := x.apllTune.pixUnless_reads c
  have hxu : onlyRegs x (x.apllTune.pixUnless c) pixRegs := .step hpo (by simp [pixRegs]) (hto.mono (by simp [pixRegs]))
  obtain ⟨hd, ho⟩ := State.done_onlyRegs ((hx.mono (List.subset_append_left b pixRegs)).trans
    (hxu.mono (List.subset_append_right b pixRegs))) (by
      simp only [noEventReg, List.all_append, Bool.and_eq_true] at hb ⊢
      exact ⟨hb, rfl⟩)
  refine ⟨_, hd, ?_, by rw [hpp, hf], by rw [hpp, ha], by rw [hpp, hfrom, ht],
    fun f i h => State.fld_of_reg (hxu.1 _ _ h), fun hc h1 => hscan hc ?_, ho⟩
  · rw [State.flag_of_reg (hpo.1 _ _ (by simp)), hl]
  · rw [State.fld_of_reg (hto.1 _ _ (by simp)), State.fld_of_reg (hx.1 _ _ hras), State.at_fld, h1]

/-! ### The commands -/

theorem State.apllRetune_vco (s : State) (v : BitVec 23)
    (h : apllOk v.toNat (s.fld Fld.PLL_APLL_DIV_PIX_DIV 0) (s.fld Fld.PLL_APLL_DIV_AUX_DIV 0) = true) :
    s.apllRetune (.vcoKhz v) =
      (s.setFld Fld.PLL_APLL_FREQ_VCO_KHZ 0 v.toNat).apllTune.pixUnless (v.toNat = s.fld Fld.PLL_APLL_FREQ_VCO_KHZ 0) := by
  rw [State.apllRetune]
  dsimp only
  rw [if_pos h]
  rfl

theorem apllRetune_tunes (t : Tu) (v : BitVec 23) (hup : s.hostUp = true)
    (hok : apllOk v.toNat (s.fld Fld.PLL_APLL_DIV_PIX_DIV 0) (s.fld Fld.PLL_APLL_DIV_AUX_DIV 0) = true) :
    ∃ u, exec (.apllRetune t (.vcoKhz v)) s = .next u ∧ exec (.pixelClockChange t (.apllFreq v)) s = .next u ∧
      u.fld Fld.PLL_APLL_FREQ_VCO_KHZ 0 = v.toNat ∧ u.flag Fld.PLL_APLL_STATUS_LOCK 0 = false ∧
      u.pll.feedsLow = true ∧ u.pll.apllLockAt = none ∧ u.pll.apllFrom = (s.at t).time ∧
      (v.toNat ≠ s.fld Fld.PLL_APLL_FREQ_VCO_KHZ 0 → s.fld Fld.RAS_STATUS_STATE 0 = 1 →
        u.fld Fld.RAS_STATUS_STATE 0 = 2) ∧ onlyRegs s u (⟨.PLL_APLL_FREQ, 0⟩ :: pixRegs) := by
  have hr := (s.at t).apllRetune_vco v (by simpa using hok)
  obtain ⟨u, hu, h1, h2, h3, h4, hf, hscan, ho⟩ := retune_reads (s := s) (t := t) (b := [⟨.PLL_APLL_FREQ, 0⟩])
    (x := (s.at t).setFld Fld.PLL_APLL_FREQ_VCO_KHZ 0 v.toNat) (c := v.toNat = (s.at t).fld Fld.PLL_APLL_FREQ_VCO_KHZ 0)
    (.setFld (by simp) (.refl _ _)) rfl rfl (by simp)
  refine ⟨u, ?_, ?_, ?_, h1, h2, h3, h4, fun hne => hscan (by simpa using hne), ho⟩
  · rw [exec, execApllRetune, State.whenHost_eq hup, hr]
    exact hu
  · rw [exec, execPixelClockChange, State.whenHost_eq hup, hr]
    exact hu
  · rw [hf _ _ (by simp [pixRegs])]
    simpa using Nat.mod_eq_of_lt v.isLt

theorem apllRetune_refuses (t : Tu) (v : BitVec 23) (hup : s.hostUp = true)
    (hok : apllOk v.toNat (s.fld Fld.PLL_APLL_DIV_PIX_DIV 0) (s.fld Fld.PLL_APLL_DIV_AUX_DIV 0) = false) :
    ∃ u, exec (.apllRetune t (.vcoKhz v)) s = .next u ∧ u.flag Fld.PLL_APLL_STATUS_CFG_ERR 0 = true ∧ u.pll = s.pll ∧
      (s.fld Fld.EVT_ROUTE_KIND 70 ≠ 1 → u.evtStatus 70 = true) ∧ onlyRaising s u [⟨.PLL_APLL_STATUS, 0⟩] [70] := by
  obtain ⟨w, hw⟩ : ∃ w, w = (s.at t).setFld Fld.PLL_APLL_STATUS_CFG_ERR 0 1 := ⟨_, rfl⟩
  have hwo : onlyRegs (s.at t) w [⟨.PLL_APLL_STATUS, 0⟩] := by rw [hw]; exact .setFld (by simp) (.refl _ _)
  obtain ⟨u, hu, hn, ho⟩ := s.done_onlyRaising (x := t) (t := w.raise0 70) (srcs := [70])
    (.raise0 (by simp) (hwo.raising rfl))
  refine ⟨u, ?_, ?_, ?_, fun hk => ?_, ho⟩
  · rw [exec, execApllRetune, State.whenHost_eq hup, State.apllRetune]
    dsimp only
    rw [State.at_fld, State.at_fld, if_neg (by rw [hok]; exact Bool.false_ne_true), State.apllRefuse, ← hw]
    exact hu
  · rw [State.flag, hn.fld _ _ rfl, State.raise0_fld_of _ _ _ _ rfl, hw]
    simp
  · rw [hn.pll, State.raise0, (State.raise_raises 70 1 0).pll, hw]
    exact s.at_pll t
  · rw [hn.evtStatus (by decide)]
    refine State.raise0_hubSource rfl ?_
    rw [State.fld_of_reg (hwo.1 _ _ (by simp)), State.at_fld]
    exact hk

theorem apllRetune_refMode (t : Tu) (m : Fin 4) (hup : s.hostUp = true) :
    ∃ u, exec (.apllRetune t (.refMode m)) s = .next u ∧ u.fld Fld.PLL_APLL_CFG_REF_MODE 0 = m ∧
      u.flag Fld.PLL_APLL_STATUS_LOCK 0 = false ∧ u.pll.feedsLow = true ∧ u.pll.apllFrom = (s.at t).time ∧
      onlyRegs s u (⟨.PLL_APLL_CFG, 0⟩ :: pixRegs) := by
  obtain ⟨u, hu, h1, h2, -, h4, hf, -, ho⟩ := retune_reads (s := s) (t := t) (b := [⟨.PLL_APLL_CFG, 0⟩])
    (x := (s.at t).setFld Fld.PLL_APLL_CFG_REF_MODE 0 m) (c := m.val = (s.at t).fld Fld.PLL_APLL_CFG_REF_MODE 0)
    (.setFld (by simp) (.refl _ _)) rfl rfl (by simp)
  refine ⟨u, ?_, ?_, h1, h2, h4, ho⟩
  · rw [exec, execApllRetune, State.whenHost_eq hup]
    exact hu
  · rw [hf _ _ (by simp [pixRegs])]
    simp

theorem apllDivWrite_runs (t : Tu) (pix aux : Byte) (hup : s.hostUp = true)
    (hok : apllOk (s.fld Fld.PLL_APLL_FREQ_VCO_KHZ 0) pix.toNat aux.toNat = true) :
    ∃ u, exec (.apllDivWrite t pix aux) s = .next u ∧ u.fld Fld.PLL_APLL_DIV_PIX_DIV 0 = pix.toNat ∧
      u.fld Fld.PLL_APLL_DIV_AUX_DIV 0 = aux.toNat ∧ u.pll = { s.pll with aux := u.pll.aux } ∧
      (pix.toNat ≠ s.fld Fld.PLL_APLL_DIV_PIX_DIV 0 → s.fld Fld.RAS_STATUS_STATE 0 = 1 →
        u.fld Fld.RAS_STATUS_STATE 0 = 2) ∧
      (pix.toNat = s.fld Fld.PLL_APLL_DIV_PIX_DIV 0 → u.reg .RAS_STATUS 0 = s.reg .RAS_STATUS 0) ∧
      onlyRegs s u [⟨.PLL_APLL_DIV, 0⟩, ⟨.RAS_STATUS, 0⟩] := by
  obtain ⟨w, hw⟩ : ∃ w, w = ((s.at t).setFld Fld.PLL_APLL_DIV_PIX_DIV 0 pix.toNat).setFld
      Fld.PLL_APLL_DIV_AUX_DIV 0 aux.toNat := ⟨_, rfl⟩
  have hwo : onlyRegs (s.at t) w [⟨.PLL_APLL_DIV, 0⟩] := by
    rw [hw]; exact .setFld (by simp) (.setFld (by simp) (.refl _ _))
  obtain ⟨x, hx⟩ : ∃ x, x = w.auxFollow 3 fun s i => s.auxOut i (.ofInt 0) := ⟨_, rfl⟩
  have ha : auxOnly w x := by rw [hx]; exact w.auxFollow_only 3 fun a i => a.auxOut_only i _
  have hxo := ha.onlyRegs hwo
  have hdiv : (s.at t).apllDiv pix.toNat aux.toNat = x.pixUnless (pix.toNat = s.fld Fld.PLL_APLL_DIV_PIX_DIV 0) := by
    rw [State.apllDiv, State.at_fld, if_pos hok]
    dsimp only
    rw [State.at_fld, ← hw, ← hx]
    rfl
  obtain ⟨hpo, hpp, hscan, hsame⟩ := x.pixUnless_reads (pix.toNat = s.fld Fld.PLL_APLL_DIV_PIX_DIV 0)
  obtain ⟨hd, ho⟩ := State.done_onlyRegs (but := [⟨.PLL_APLL_DIV, 0⟩, ⟨.RAS_STATUS, 0⟩])
    ((hxo.mono (by simp)).trans (hpo.mono (by simp))) rfl
  have hf : ∀ f : Fld, f.reg = .PLL_APLL_DIV → (x.pixUnless (pix.toNat = s.fld Fld.PLL_APLL_DIV_PIX_DIV 0)).fld f 0 =
      w.fld f 0 := fun f h => (State.fld_of_reg (hpo.1 _ _ (by simp [h]))).trans (ha.fld _ _)
  refine ⟨_, ?_, ?_, ?_, ?_, fun hne h1 => hscan hne ?_, fun he => ?_, ho⟩
  · rw [exec, execApllDivWrite, State.whenHost_eq hup, hdiv]
    exact hd
  · rw [hf _ rfl, hw]
    simpa using Nat.mod_eq_of_lt pix.isLt
  · rw [hf _ rfl, hw]
    simpa using Nat.mod_eq_of_lt aux.isLt
  · rw [hpp, ha.pll, hw]
    show ({ (s.at t).pll with aux := _ } : Pll) = _
    rw [State.at_pll]
  · rw [State.fld_of_reg (hxo.1 _ _ (by simp)), State.at_fld, h1]
  · rw [hsame he, hxo.1 _ _ (by simp), State.at_reg]

theorem apllLock_declares (t first : Tu) (err : Nat) (ha : s.alive = true) (hsb : s.standby = false)
    (hl : s.flag Fld.PLL_APLL_STATUS_LOCK 0 = false)
    (hle : tuLe (tuAdd s.pll.apllFrom (s.countSpan 3 s.apllPfd)) (s.at t).time = true) :
    ∃ u, exec (.apllLock t true first err) s = .next u ∧ u.flag Fld.PLL_APLL_STATUS_LOCK 0 = true ∧
      u.pll.apllLockAt = some (s.at t).time ∧ (s.fld Fld.EVT_ROUTE_KIND 67 ≠ 1 → u.evtStatus 67 = true) ∧
      onlyRaising s u [⟨.PLL_APLL_STATUS, 0⟩] [67] := by
  obtain ⟨w, hw⟩ : ∃ w : State, w = { ((s.at t).setFld Fld.PLL_APLL_STATUS_LOCK 0 1) with
      pll := { (s.at t).pll with apllLockAt := some (s.at t).time } } := ⟨_, rfl⟩
  have hwo : onlyRegs (s.at t) w [⟨.PLL_APLL_STATUS, 0⟩] := by
    rw [hw]
    exact .of_eq rfl rfl (.setFld (t := s.at t) (f := Fld.PLL_APLL_STATUS_LOCK) (i := 0) (x := 1) (by simp) (.refl _ _))
  obtain ⟨u, hu, hn, ho⟩ := s.done_onlyRaising (x := t) (t := w.raise0 67) (srcs := [67])
    (.raise0 (by simp) (hwo.raising rfl))
  have hle' : tuLe (tuAdd (s.at t).pll.apllFrom ((s.at t).countSpan 3 (s.at t).apllPfd)) (s.at t).time = true := by
    simpa only [State.countSpan, State.apllPfd, State.at_fld, State.at_pll] using hle
  refine ⟨u, ?_, ?_, ?_, fun hk => ?_, ho⟩
  · rw [exec, execApllLock, State.when_eq ha, State.at_standby, hsb, if_neg Bool.false_ne_true, if_neg (by simp),
      State.at_flag, hl, if_neg Bool.false_ne_true, if_pos hle', ← hu, hw]
  · have hl1 : w.fld Fld.PLL_APLL_STATUS_LOCK 0 =
        ((s.at t).setFld Fld.PLL_APLL_STATUS_LOCK 0 1).fld Fld.PLL_APLL_STATUS_LOCK 0 := by rw [hw]; rfl
    rw [State.flag, hn.fld _ _ rfl, State.raise0_fld_of _ _ _ _ rfl, hl1]
    simp
  · rw [hn.pll, State.raise0, (State.raise_raises 67 1 0).pll, hw]
  · rw [hn.evtStatus (by decide)]
    refine State.raise0_hubSource rfl ?_
    rw [State.fld_of_reg (hwo.1 _ _ (by simp)), State.at_fld]
    exact hk

theorem apllLock_loses (t first : Tu) (err : Nat) (ha : s.alive = true) (hsb : s.standby = false)
    (hlose : (s.at t).apllLosing first err = true) :
    ∃ u, exec (.apllLock t false first err) s = .next u ∧ u.flag Fld.PLL_APLL_STATUS_LOCK 0 = false ∧
      u.flag Fld.PLL_APLL_STATUS_LOST 0 = true ∧ u.pll = { s.pll with apllFrom := (s.at t).time } ∧
      (s.fld Fld.EVT_ROUTE_KIND 67 ≠ 1 → u.evtStatus 67 = true) ∧ onlyRaising s u pixRegs [67] := by
  obtain ⟨w, hw⟩ : ∃ w, w = (({ s.at t with pll := { (s.at t).pll with apllFrom := (s.at t).time } } : State).setFld
      Fld.PLL_APLL_STATUS_LOCK 0 0).setFld Fld.PLL_APLL_STATUS_LOST 0 1 := ⟨_, rfl⟩
  have hwo : onlyRegs (s.at t) w [⟨.PLL_APLL_STATUS, 0⟩] := by
    rw [hw]
    refine .setFld (by simp) (.setFld (by simp) ?_)
    exact .of_eq rfl rfl (.refl (s.at t) _)
  have hwl : w.flag Fld.PLL_APLL_STATUS_LOCK 0 = false ∧ w.flag Fld.PLL_APLL_STATUS_LOST 0 = true := by
    rw [hw]
    simp [State.flag_eq]
  have hwp : w.pll = { s.pll with apllFrom := (s.at t).time } := by
    rw [hw, ← s.at_pll t]
    rfl
  obtain ⟨hpo, hpp, -, -⟩ := (w.raise0 67).pixUnless_reads ((s.at t).pixFromApll = false)
  have hloss : (s.at t).apllLoss = (w.raise0 67).pixUnless ((s.at t).pixFromApll = false) := by
    rw [State.apllLoss, State.pixUnless, ← hw]
    cases (s.at t).pixFromApll <;> rfl
  obtain ⟨u, hu, hn, ho⟩ := s.done_onlyRaising (x := t) (t := (w.raise0 67).pixUnless ((s.at t).pixFromApll = false))
    (srcs := [67]) (but := pixRegs) (.step hpo (by simp [pixRegs]) rfl
      (.raise0 (by simp) ((hwo.mono (by simp [pixRegs])).raising rfl)))
  have hf : ∀ f : Fld, f.reg = .PLL_APLL_STATUS → u.flag f 0 = w.flag f 0 := fun f h => by
    rw [State.flag, State.flag, hn.fld _ _ (by simp [h]), State.fld_of_reg (hpo.1 _ _ (by simp [h])),
      State.raise0_fld_of _ _ _ _ (by simp [h])]
  refine ⟨u, ?_, (hf _ rfl).trans hwl.1, (hf _ rfl).trans hwl.2, ?_, fun hk => ?_, ho⟩
  · rw [exec, execApllLock, State.when_eq ha, State.at_standby, hsb, if_neg Bool.false_ne_true, if_pos (by rfl),
      if_pos hlose, hloss]
    exact hu
  · rw [hn.pll, hpp, State.raise0, (State.raise_raises 67 1 0).pll, hwp]
  · rw [hn.evtStatus (by decide), State.evtStatus_of_reg fun i => hpo.1 _ _ (by simp)]
    refine State.raise0_hubSource rfl ?_
    rw [State.fld_of_reg (hwo.1 _ _ (by simp)), State.at_fld]
    exact hk

/-- The feeds start: an AUXCLK output on them runs from now, and Lantern's count begins. -/
theorem apllFeedResume_eq (t : Tu) {l : Tu} (ha : s.alive = true) (hl : s.pll.apllLockAt = some l)
    (hlow : s.pll.feedsLow = true) (hlock : s.flag Fld.PLL_APLL_STATUS_LOCK 0 = true)
    (hle : tuLe (tuAdd l (ns 2000)) (s.at t).time = true) :
    ∃ f : State → Nat → State, (∀ a i, auxOnly a (f a i)) ∧ ∀ x : State,
      x = ({ s.at t with pll := { (s.at t).pll with feedsLow := false } } : State).auxFollow 3 f →
      exec (.apllFeedResume t) s =
        s.done (if x.fld Fld.RAS_STATUS_STATE 0 = 2 ∧ x.pixFromApll ∧ x.ras.restartFrom.isNone then
          x.modRas fun r => { r with restartFrom := some (s.at t).time } else x) := by
  refine ⟨fun s i => match s.auxSource i with
      | some src => s.auxStart i ((Ratio.ofTu s.time).add (s.auxDelay i src))
      | none => s, fun a i => ?_, fun x hx => ?_⟩
  · dsimp only
    split
    · exact a.auxStart_only _ _
    · exact .refl _
  · rw [exec, execApllFeedResume, State.when_eq ha]
    generalize hat : s.at t = a at hx hle
    have hla : a.pll.apllLockAt = some l := by rw [← hat, State.at_pll, hl]
    have hc : (a.pll.feedsLow && a.flag Fld.PLL_APLL_STATUS_LOCK 0 && tuLe (tuAdd l (ns 2000)) a.time) = true := by
      rw [hle, ← hat, State.at_pll, State.at_flag, hlow, hlock]
      rfl
    split
    · next h => rw [hla] at h; cases h
    · next l' h =>
      rw [hla] at h
      cases h
      rw [if_pos hc, hx] <;> rfl

theorem apllFeedResume_starts (t : Tu) {l : Tu} (ha : s.alive = true) (hl : s.pll.apllLockAt = some l)
    (hlow : s.pll.feedsLow = true) (hlock : s.flag Fld.PLL_APLL_STATUS_LOCK 0 = true)
    (hle : tuLe (tuAdd l (ns 2000)) (s.at t).time = true) :
    ∃ u, exec (.apllFeedResume t) s = .next u ∧ u.pll.feedsLow = false ∧ onlyRegs s u [] := by
  obtain ⟨f, hf, hexec⟩ := apllFeedResume_eq t ha hl hlow hlock hle
  obtain ⟨w, hw⟩ : ∃ w : State, w = { s.at t with pll := { (s.at t).pll with feedsLow := false } } := ⟨_, rfl⟩
  obtain ⟨x, hx⟩ : ∃ x, x = w.auxFollow 3 f := ⟨_, rfl⟩
  have haux : auxOnly w x := by rw [hx]; exact w.auxFollow_only 3 hf
  have hxo : onlyRegs (s.at t) x [] := haux.onlyRegs (by rw [hw]; exact .of_eq rfl rfl (.refl (s.at t) []))
  have hxl : x.pll.feedsLow = false := by rw [haux.feedsLow, hw]
  have hu := hexec x (by rw [hx, hw])
  have hro : onlyRegs (s.at t) (x.modRas fun r => { r with restartFrom := some (s.at t).time }) [] := .of_eq rfl rfl hxo
  split at hu
  · obtain ⟨hd, ho⟩ := State.done_onlyRegs hro rfl
    exact ⟨_, hu.trans hd, hxl, ho⟩
  · obtain ⟨hd, ho⟩ := State.done_onlyRegs hxo rfl
    exact ⟨x, hu.trans hd, hxl, ho⟩

/-- Settles O23. -/
theorem apllFeedsThePixelClock : Obligations.ApllFeedsThePixelClock := by
  intro s t hup
  have ha := State.alive_of_hostUp hup
  refine ⟨fun v hok => ?_, fun v hok => apllRetune_refuses t v hup hok, fun pix aux hok => apllDivWrite_runs t pix aux hup hok,
    fun m => apllRetune_refMode t m hup, fun m sel pix first err => ⟨rfl, rfl, ?_, fun hsb hpix => ?_⟩,
    fun first err hsb => ⟨fun hl hle => apllLock_declares t first err ha hsb hl hle,
      fun hlose => apllLock_loses t first err ha hsb hlose⟩,
    fun l hl hlow hlock hle => apllFeedResume_starts t ha hl hlow hlock hle⟩
  · obtain ⟨u, hu, hu', h1, h2, h3, h4, h5, hscan, ho⟩ := apllRetune_tunes t v hup hok
    exact ⟨⟨u, hu, h1, h2, h3, h4, h5, ho⟩, fun hne hst => ⟨u, hu', hscan hne hst, h1, ho⟩⟩
  · have hlt : s.fld Fld.PLL_APLL_DIV_AUX_DIV 0 < 256 := s.fld_lt _ _
    rw [exec, exec, execPixelClockChange, execApllDivWrite, State.whenHost_eq hup, State.whenHost_eq hup, State.at_fld,
      BitVec.toNat_ofNat, Nat.mod_eq_of_lt hlt]
  · have hp : (s.at t).pixFromApll = true := by rw [State.pixFromApll, State.at_clk]; exact hpix
    rw [exec, exec, execPixelClockChange, execApllLock, State.when_eq ha, State.when_eq ha, State.at_standby, hsb, hp,
      if_neg Bool.false_ne_true, if_pos (by rfl : (!false) = true)]
    rfl

end Sys2Proof.Machine
end

section
/-! SUPPORT. The sample PLLs: how a grid loses its phase, how a rate changes, and what losing and gaining lock does
(R115, R119 to R124). -/

namespace Sys2Proof.Machine

variable {s t u : State} {but : List Reg} {srcs : List Nat}

/-! ### One unit after another -/

/-- What the step of unit `i` leaves of a quantity that the steps of the others keep. -/
theorem State.each_at {β : Type} (p : State → β) {P : State → Prop} {f : State → Nat → State} {i n : Nat} (hi : i < n)
    (hP : ∀ a j, j ≠ i → P a → P (f a j)) (ho : ∀ a j, j ≠ i → p (f a j) = p a) (h : P s) :
    ∃ a, P a ∧ p (s.each n f) = p (f a i) := by
  have hall : P (s.each i f) := by
    have hne : ∀ x ∈ List.range i, x ≠ i := fun x hx => by have := List.mem_range.1 hx; omega
    unfold State.each
    generalize List.range i = l at hne
    induction l generalizing s with
    | nil => exact h
    | cons x l ih =>
      exact ih (hP _ _ (hne x (List.mem_cons_self ..)) h) fun y hy => hne y (List.mem_cons_of_mem _ hy)
  induction n with
  | zero => omega
  | succ n ih =>
    have hn : s.each (n + 1) f = f (s.each n f) n := by
      rw [State.each, State.each, List.range_succ, List.foldl_append]
      rfl
    rw [hn]
    by_cases hin : i = n
    · subst hin
      exact ⟨s.each i f, hall, rfl⟩
    · obtain ⟨a, ha, hp⟩ := ih (by omega)
      exact ⟨a, ha, (ho _ _ (Ne.symm hin)).trans hp⟩

/-! ### The record of a sample PLL -/

@[simp] theorem State.spllOf_modSpll (s : State) (e : Nat) (f : Spll → Spll) :
    (s.modSpll e f).spllOf e = f (s.spllOf e) := tget_tmod_same _ _ _ _

/-- A sample PLL but for the phase of its grid and the start of its rate's move. -/
def Spll.bare (p : Spll) : Spll := { p with alignAt := 0, base := 0, grids := 0, rampAt := 0 }

/-- `t` is `s` with the grid of die e of unknown phase, ALIGNED 0. -/
structure GridLost (e : Nat) (s t : State) : Prop where
  regs : t.regs = (s.setFld Fld.PLL_SPLL_STATUS_ALIGNED e 0).regs
  mem : t.mem = s.mem
  time : t.time = s.time
  bare : (t.spllOf e).bare = (s.spllOf e).bare

theorem GridLost.reg {e : Nat} (h : GridLost e s t) (n : RegName) (i : Nat) :
    t.reg n i = (s.setFld Fld.PLL_SPLL_STATUS_ALIGNED e 0).reg n i := by rw [State.reg, h.regs]; rfl

theorem GridLost.fld {e : Nat} (h : GridLost e s t) (f : Fld) (i : Nat) :
    t.fld f i = (s.setFld Fld.PLL_SPLL_STATUS_ALIGNED e 0).fld f i := State.fld_of_reg (h.reg _ _)

theorem GridLost.only {e : Nat} (h : GridLost e s t) : onlyRegs s t [⟨.PLL_SPLL_STATUS, e⟩] :=
  .of_eq h.regs h.mem (.setFld (f := Fld.PLL_SPLL_STATUS_ALIGNED) (t := s) (i := e) (x := 0) (by simp) (.refl _ _))

theorem State.regrid_spll (s0 s : State) (e : Nat) : (State.regrid s0 s e).spll = s.spll := by
  unfold State.regrid
  dsimp only
  refine (foldl_keeps State.spll (fun _ _ => ?_) _ _).trans (foldl_keeps State.spll (fun _ _ => ?_) _ s)
  · split <;> rfl
  · rfl

theorem State.align_spll (s : State) (e : Nat) (on : Bool) :
    ((s.align e on).spllOf e).bare = (s.spllOf e).bare := by
  unfold State.align
  dsimp only
  show ((if _ then s else _ : State).spllOf e).bare = _
  split
  · rfl
  · rw [State.spllOf_modSpll]
    rfl

theorem State.align_regs (s : State) (e : Nat) (on : Bool) :
    (s.align e on).regs = (s.setFld Fld.PLL_SPLL_STATUS_ALIGNED e on.toNat).regs ∧ (s.align e on).mem = s.mem ∧
      (s.align e on).time = s.time := by
  unfold State.align
  dsimp only
  split <;> exact ⟨rfl, rfl, rfl⟩

theorem State.loseGrid_lost (s : State) (e : Nat) (f : State → State) : GridLost e (f s) (s.loseGrid e f) := by
  obtain ⟨h1, h2, h3, -⟩ := State.regrid_reads s (((f s).align e false).freshGrid e) e
  obtain ⟨g1, g2, g3⟩ := (f s).align_regs e false
  refine ⟨h1.trans g1, h2.trans g2, h3.trans g3, ?_⟩
  have h : (s.loseGrid e f).spllOf e = (((f s).align e false).freshGrid e).spllOf e := by
    rw [State.spllOf, State.spllOf, ← State.regrid_spll s (((f s).align e false).freshGrid e) e]
    rfl
  rw [h, State.freshGrid, State.spllOf_modSpll]
  exact (f s).align_spll e false

/-! ### Changes of the rate -/

/-- The rate of die e may have changed, with the grid; nothing else of the PLL. -/
structure RateSet (e : Nat) (s t : State) : Prop where
  only : onlyRegs s t [⟨.PLL_SPLL_STATUS, e⟩, ⟨.PLL_SPLL_RATE_NOW, e⟩]
  time : t.time = s.time
  bare : (t.spllOf e).bare = (s.spllOf e).bare

theorem State.setRate_reads (s : State) (e rate : Nat) :
    RateSet e s (s.setRate e rate) ∧ (s.setRate e rate).rateNow e = rate % 2 ^ 23 := by
  unfold State.setRate
  split
  · next h =>
    have hlt : s.rateNow e < 2 ^ 23 := s.fld_lt _ _
    exact ⟨⟨.refl _ _, rfl, rfl⟩, by rw [h, Nat.mod_eq_of_lt hlt]⟩
  · obtain ⟨w, hw⟩ : ∃ w, w = s.loseGrid e fun s => s.setFld Fld.PLL_SPLL_RATE_NOW_RATE e rate := ⟨_, rfl⟩
    have hg := s.loseGrid_lost e fun s => s.setFld Fld.PLL_SPLL_RATE_NOW_RATE e rate
    rw [← hw] at hg ⊢
    have ha := w.auxFollow_only (1 + e) (f := fun s i => s.auxOut i (.ofInt 0)) fun a i => a.auxOut_only i _
    have hspll : (w.auxFollow (1 + e) fun s i => s.auxOut i (.ofInt 0)).spll = w.spll := by
      obtain ⟨_, _, _, h⟩ := ha
      rw [h]
    refine ⟨⟨ha.onlyRegs ?_, ha.time.trans hg.time, ?_⟩, ?_⟩
    · exact .step hg.only (by simp) (.setFld (f := Fld.PLL_SPLL_RATE_NOW_RATE) (by simp) (.refl _ _))
    · rw [State.spllOf, hspll]
      exact hg.bare
    · rw [State.rateNow, ha.fld, hg.fld]
      simp

theorem State.rateHold_reads (s : State) (e : Nat) : RateSet e s (s.rateHold e) := by
  obtain ⟨h, -⟩ := s.setRate_reads e (s.rateInst e)
  refine ⟨.of_eq rfl rfl h.only, h.time, ?_⟩
  rw [State.rateHold, State.spllOf_modSpll]
  exact h.bare

/-! ### The lanes of a die -/

theorem mem_laneStates {e i : Nat} (hi : i < 8) : (⟨.ILV_LANE_STATUS, 8 * e + i⟩ : Reg) ∈ laneStates e :=
  List.mem_map_of_mem (List.mem_range.2 hi)

theorem State.abandonDwell_only (s : State) (ln : Nat) : onlyRegs s (s.abandonDwell ln) [⟨.ILV_LANE_STATUS, ln⟩] := by
  refine .setFld (by simp) (.setFld (by simp) ?_)
  exact .of_eq rfl rfl (.refl s _)

theorem State.pauseLanes_only (s : State) (e : Nat) : onlyRegs s (s.pauseLanes e) (laneStates e) := by
  refine .foldl _ (fun a i hi h => ?_) (.refl s _)
  split
  · exact h
  · exact .step (State.abandonDwell_only _ _) (by simpa using mem_laneStates (List.mem_range.1 hi)) h

theorem State.pauseLanes_same (s : State) (e : Nat) :
    (s.pauseLanes e).spll = s.spll ∧ (s.pauseLanes e).time = s.time := by
  refine ⟨State.each_keeps State.spll (fun a i => ?_) 8 s, State.each_keeps State.time (fun a i => ?_) 8 s⟩ <;>
  · split <;> rfl

theorem State.clusterAsleep_of_reg (hp : ∀ i, t.reg .HUB_PWR_STATUS i = s.reg .HUB_PWR_STATUS i)
    (hl : t.reg .CLK_GATE_STATE_LO 0 = s.reg .CLK_GATE_STATE_LO 0)
    (hh : t.reg .CLK_GATE_STATE_HI 0 = s.reg .CLK_GATE_STATE_HI 0) (c : Nat) :
    t.clusterAsleep c = s.clusterAsleep c := by
  simp only [State.clusterAsleep, State.dieAsleep, State.gateOpen_of_reg hl hh, State.fld, hp]

/-- A lane whose cluster is awake is paused. -/
theorem State.pauseLanes_paused (s : State) {e i : Nat} (hi : i < 8)
    (hc : s.clusterAsleep ((8 * e + i) / 4) = false) :
    (s.pauseLanes e).fld Fld.ILV_LANE_STATUS_PAUSED (8 * e + i) = 1 := by
  obtain ⟨a, ha, hp⟩ := State.each_at (s := s) (n := 8) (i := i)
    (f := fun s i => if s.clusterAsleep ((8 * e + i) / 4) then s else s.abandonDwell (8 * e + i))
    (fun s => s.fld Fld.ILV_LANE_STATUS_PAUSED (8 * e + i)) (P := fun a => a.clusterAsleep ((8 * e + i) / 4) = false) hi
    (fun a j _ h => by
      split
      · exact h
      · have ho := a.abandonDwell_only (8 * e + j)
        rw [State.clusterAsleep_of_reg (fun _ => ho.1 _ _ (by simp)) (ho.1 _ _ (by simp)) (ho.1 _ _ (by simp))]
        exact h)
    (fun a j hj => by
      split
      · rfl
      · exact State.fld_of_reg ((a.abandonDwell_only (8 * e + j)).1 _ _ (by simp; omega))) hc
  refine hp.trans ?_
  rw [ha, if_neg Bool.false_ne_true]
  exact State.fld_setFld_eq _ Fld.ILV_LANE_STATUS_PAUSED _ _ (by decide)

theorem State.startLanes_only (s : State) (e : Nat) : onlyRegs s (s.startLanes e) (laneStates e) := by
  unfold State.startLanes
  refine .ite (.refl _ _) (.foldl _ (fun a i hi h => ?_) (.refl s _))
  dsimp only
  split
  · refine .setFld (mem_laneStates (List.mem_range.1 hi)) ?_
    exact .of_eq rfl rfl h
  · exact h

theorem State.startLanes_spll (s : State) (e : Nat) : (s.startLanes e).spll = s.spll := by
  unfold State.startLanes
  split
  · rfl
  · refine State.each_keeps State.spll (fun a i => ?_) 8 s
    dsimp only
    split <;> rfl

/-! ### Loss of lock -/

/-- The events of a sample PLL are the hub's. -/
theorem spllSource (e : Fin 2) : hubSource (65 + e) = true ∧ hubSource (68 + e) = true ∧ (65 + e.val) ∉ noteSrcs ∧
    (68 + e.val) ∉ noteSrcs := by
  fin_cases e <;> decide

theorem State.spllLost_reads (s : State) (e : Nat) (first : Tu) :
    ∃ w, s.spllLost e first = w.spllLockEvent e 0 ∧
      onlyRegs s w (⟨.PLL_SPLL_STATUS, e⟩ :: ⟨.PLL_SPLL_RATE_NOW, e⟩ :: laneStates e) ∧
      w.spllLock e = false ∧ w.spllState e = 3 ∧ w.fld Fld.PLL_SPLL_STATUS_SETTLED e = 0 ∧
      w.fld Fld.PLL_SPLL_STATUS_LOST e = 1 ∧ w.fld Fld.PLL_SPLL_STATUS_ALIGNED e = 0 ∧ (w.spllOf e).lost = true ∧
      (w.spllOf e).tryAt = s.time ∧
      ∀ i, i < 8 → s.clusterAsleep ((8 * e + i) / 4) = false → w.fld Fld.ILV_LANE_STATUS_PAUSED (8 * e + i) = 1 := by
  obtain ⟨r, hr⟩ : ∃ r, r = (s.rateHold e).modSpll e fun p =>
    { p with lost := true, lockAt := none, bad := some (p.bad.getD first), tryAt := s.time, countAt := s.time } := ⟨_, rfl⟩
  obtain ⟨g, hg⟩ : ∃ g, g = r.unalign e := ⟨_, rfl⟩
  obtain ⟨x, hx⟩ : ∃ x, x = (((g.setFld Fld.PLL_SPLL_STATUS_LOCK e 0).setFld Fld.PLL_SPLL_STATUS_SETTLED e 0).setFld
    Fld.PLL_SPLL_STATUS_STATE e 3).setFld Fld.PLL_SPLL_STATUS_LOST e 1 := ⟨_, rfl⟩
  have hhold := s.rateHold_reads e
  have hro : onlyRegs s r [⟨.PLL_SPLL_STATUS, e⟩, ⟨.PLL_SPLL_RATE_NOW, e⟩] := by
    rw [hr]; exact .of_eq rfl rfl hhold.only
  have hgl := r.loseGrid_lost e fun s => (s.endMove e).modSpll e fun p => { p with anchorDue := none }
  have hgr : g = r.loseGrid e fun s => (s.endMove e).modSpll e fun p => { p with anchorDue := none } := hg
  rw [← hgr] at hgl
  have hgo : onlyRegs s g [⟨.PLL_SPLL_STATUS, e⟩, ⟨.PLL_SPLL_RATE_NOW, e⟩] :=
    .step hgl.only (by simp) (.of_eq rfl rfl hro)
  have hxo : onlyRegs s x [⟨.PLL_SPLL_STATUS, e⟩, ⟨.PLL_SPLL_RATE_NOW, e⟩] := by
    rw [hx]
    exact .setFld (by simp) (.setFld (by simp) (.setFld (by simp) (.setFld (by simp) hgo)))
  have hga : g.fld Fld.PLL_SPLL_STATUS_ALIGNED e = 0 := by rw [hgl.fld]; simp
  have hspll : (g.spllOf e).lost = true ∧ (g.spllOf e).tryAt = s.time := by
    have hb := hgl.bare
    rw [State.spllOf_modSpll] at hb
    have h1 : (g.spllOf e).lost = (r.spllOf e).lost := by
      have := congrArg Spll.lost hb
      simpa [Spll.bare, State.endMove] using this
    have h2 : (g.spllOf e).tryAt = (r.spllOf e).tryAt := by
      have := congrArg Spll.tryAt hb
      simpa [Spll.bare, State.endMove] using this
    rw [h1, h2, hr, State.spllOf_modSpll]
    exact ⟨rfl, rfl⟩
  have hxs : x.spll = g.spll := by rw [hx]; rfl
  have hpo := x.pauseLanes_only e
  have hf : ∀ f : Fld, f.reg = .PLL_SPLL_STATUS → (x.pauseLanes e).fld f e = x.fld f e := fun f hf =>
    State.fld_of_reg (hpo.1 _ _ (by simp [hf, laneStates]))
  have hps : (x.pauseLanes e).spllOf e = g.spllOf e := by
    rw [State.spllOf, State.spllOf, (x.pauseLanes_same e).1, hxs]
  refine ⟨x.pauseLanes e, by rw [hx, hg, hr]; rfl, ?_, ?_, ?_, ?_, ?_, ?_, ?_, ?_, fun i hi hc => ?_⟩
  · exact .step hpo (fun _ h => by simp [h]) (hxo.mono (by simp))
  · rw [State.spllLock, State.flag, hf _ rfl, hx]
    simp
  · rw [State.spllState, hf _ rfl, hx]
    simp
  · rw [hf _ rfl, hx]
    simp
  · rw [hf _ rfl, hx]
    simp
  · rw [hf _ rfl, hx]
    simp [hga]
  · rw [hps, hspll.1]
  · rw [hps, hspll.2]
  · refine x.pauseLanes_paused hi ?_
    rw [State.clusterAsleep_of_reg (fun _ => hxo.1 _ _ (by simp)) (hxo.1 _ _ (by simp)) (hxo.1 _ _ (by simp))]
    exact hc

theorem spllLockLoss_loses (t : Tu) (e : Fin 2) (first : Tu) (err : Nat) (ha : s.alive = true)
    (hl : s.spllLock e = true) (hd : s.dieAsleep e = false)
    (hloss : (s.at t).lossShown (1 + e) (s.spllPfd e) ((s.at t).stamp first) err = true) :
    ∃ u, exec (.spllLockLoss t e first err) s = .next u ∧ u.spllLock e = false ∧ u.spllState e = 3 ∧
      u.fld Fld.PLL_SPLL_STATUS_SETTLED e = 0 ∧ u.fld Fld.PLL_SPLL_STATUS_LOST e = 1 ∧
      u.fld Fld.PLL_SPLL_STATUS_ALIGNED e = 0 ∧ (u.spllOf e).lost = true ∧ (u.spllOf e).tryAt = (s.at t).time ∧
      (∀ i, i < 8 → s.clusterAsleep ((8 * e + i) / 4) = false → u.fld Fld.ILV_LANE_STATUS_PAUSED (8 * e + i) = 1) ∧
      (s.fld Fld.EVT_ROUTE_KIND (65 + e) ≠ 1 → u.evtStatus (65 + e) = true) ∧
      onlyRaising s u (⟨.PLL_SPLL_STATUS, e⟩ :: ⟨.PLL_SPLL_RATE_NOW, e⟩ :: laneStates e) [65 + e] := by
  obtain ⟨w, hw, hwo, h1, h2, h3, h4, h5, h6, h7, h8⟩ := (s.at t).spllLost_reads e ((s.at t).stamp first)
  have hpfd : (s.at t).spllPfd e = s.spllPfd e := by rw [State.spllPfd, State.spllOf, State.at_spll]; rfl
  have hlk : (s.at t).spllLock e = true := by rw [State.spllLock, State.at_flag]; exact hl
  have hexec : exec (.spllLockLoss t e first err) s = s.done (w.raise (65 + e) 1 0) := by
    rw [exec, execSpllLockLoss, State.when_eq ha, State.at_dieAsleep, hd, if_neg Bool.false_ne_true, hlk, if_pos rfl, hpfd,
      if_pos hloss, hw]
    rfl
  obtain ⟨u, hu, hn, ho⟩ := s.done_onlyRaising (x := t) (t := w.raise (65 + e) 1 0) (srcs := [65 + e])
    (.raise (by simp) (hwo.raising (by simp [noEventReg, laneStates])))
  have hf : ∀ f i, eventReg f.reg = false → u.fld f i = w.fld f i := fun f i he =>
    (hn.fld _ _ he).trans (State.raise_fld_of _ _ _ _ _ _ he)
  have hs : u.spllOf e = w.spllOf e := by
    rw [State.spllOf, hn.spll, (State.raise_raises (65 + e) 1 0).spll]
    rfl
  refine ⟨u, hexec.trans hu, ?_, ?_, ?_, ?_, ?_, ?_, ?_, fun i hi hc => ?_, fun hk => ?_, ho⟩
  · rw [State.spllLock, State.flag, hf _ _ rfl]; exact h1
  · rw [State.spllState, hf _ _ rfl]; exact h2
  · rw [hf _ _ rfl, h3]
  · rw [hf _ _ rfl, h4]
  · rw [hf _ _ rfl, h5]
  · rw [hs, h6]
  · rw [hs, h7]
  · rw [hf _ _ rfl]; exact h8 i hi (by rw [State.at_clusterAsleep]; exact hc)
  · rw [hn.evtStatus (spllSource e).2.2.1]
    refine State.raise_hubSource 1 0 (spllSource e).1 ?_
    rw [State.fld_of_reg (hwo.1 _ _ (by simp [laneStates])), State.at_fld]
    exact hk

theorem spllLockLoss_keeps (t : Tu) (e : Fin 2) (first : Tu) (err : Nat) (ha : s.alive = true)
    (hl : s.spllLock e = true) (hd : s.dieAsleep e = false)
    (hloss : (s.at t).lossShown (1 + e) (s.spllPfd e) ((s.at t).stamp first) err = false) :
    exec (.spllLockLoss t e first err) s = .next (s.at t) := by
  have hpfd : (s.at t).spllPfd e = s.spllPfd e := by rw [State.spllPfd, State.spllOf, State.at_spll]; rfl
  have hlk : (s.at t).spllLock e = true := by rw [State.spllLock, State.at_flag]; exact hl
  rw [exec, execSpllLockLoss, State.when_eq ha, State.at_dieAsleep, hd, if_neg Bool.false_ne_true, hlk, if_pos rfl, hpfd,
    hloss, if_neg Bool.false_ne_true]
  exact (s.done_at t).1

/-! ### Lock -/

theorem spllLock_declares (t : Tu) (e : Fin 2) (ha : s.alive = true) (hl : s.spllLock e = false)
    (hd : s.dieAsleep e = false) (hsb : s.standby = false) (hthere : (s.at t).lockThere e = true) :
    ∃ u, exec (.spllLock t e) s = .next u ∧ u.spllLock e = true ∧ u.spllState e = 0 ∧
      u.fld Fld.PLL_SPLL_RATE_NOW_RATE e = (s.spllOf e).target % 2 ^ 23 ∧ (u.spllOf e).lockAt = some (s.at t).time ∧
      (u.spllOf e).anchorDue = some ((s.at t).time, true) ∧
      onlyRaising s u [⟨.PLL_SPLL_STATUS, e⟩, ⟨.PLL_SPLL_RATE_NOW, e⟩] [68 + e] := by
  have hsp : (s.at t).spllOf e = s.spllOf e := by rw [State.spllOf, State.at_spll]; rfl
  obtain ⟨r, hr⟩ : ∃ r, r = (s.at t).setRate e (s.spllOf e).target := ⟨_, rfl⟩
  obtain ⟨x, hx⟩ : ∃ x, x = (r.setFld Fld.PLL_SPLL_STATUS_LOCK e 1).setFld Fld.PLL_SPLL_STATUS_STATE e 0 := ⟨_, rfl⟩
  obtain ⟨w, hw⟩ : ∃ w, w = (x.modSpll e fun p =>
    { p with lockAt := some (s.at t).time, mode := if p.mode = .follow then .none else p.mode }).anchorLater e
      (s.at t).time true := ⟨_, rfl⟩
  obtain ⟨⟨hro, -, -⟩, hrate⟩ := (s.at t).setRate_reads e (s.spllOf e).target
  rw [← hr] at hro hrate
  have hwr : w.regs = x.regs := by rw [hw]; rfl
  have hwo : onlyRegs (s.at t) w [⟨.PLL_SPLL_STATUS, e⟩, ⟨.PLL_SPLL_RATE_NOW, e⟩] := by
    refine .of_eq hwr (by rw [hw]; rfl) ?_
    rw [hx]
    exact .setFld (by simp) (.setFld (by simp) hro)
  have hf : ∀ f i, w.fld f i = x.fld f i := fun f i => by rw [State.fld, State.fld, State.reg, State.reg, hwr]
  have hspll : (w.spllOf e).lockAt = some (s.at t).time ∧ (w.spllOf e).anchorDue = some ((s.at t).time, true) := by
    rw [hw, State.anchorLater, State.spllOf_modSpll, State.spllOf_modSpll]
    exact ⟨rfl, rfl⟩
  obtain ⟨v, hv⟩ : ∃ v, v = if (s.spllOf e).mode = .follow then w.raise (68 + e) 1 0 else w := ⟨_, rfl⟩
  have hwv : Raises w v [68 + e.val] := by
    rw [hv]
    split
    · exact State.raise_raises _ _ _
    · exact .refl _ _
  have hexec : exec (.spllLock t e) s = s.done v := by
    have hlk : (s.at t).spllLock e = false := by rw [State.spllLock, State.at_flag]; exact hl
    rw [exec, execSpllLock, State.when_eq ha, State.at_dieAsleep, State.at_standby, hlk, hd, hsb, hthere,
      if_pos (by rfl : (!false && !false && !false && true) = true), State.spllLocked, hsp, hv, hw, hx, hr]
    rfl
  obtain ⟨u, hu, hn, ho⟩ := s.done_onlyRaising (x := t) (t := v) (srcs := [68 + e.val])
    (.and_then (hwv.only fun _ h => .inl h) (fun _ h => h) (fun _ h => h) (hwo.raising (by simp [noEventReg])))
  have hfu : ∀ f i, eventReg f.reg = false → u.fld f i = x.fld f i := fun f i he =>
    ((hn.fld _ _ he).trans (hwv.fld _ _ he)).trans (hf f i)
  have hsu : u.spllOf e = w.spllOf e := by rw [State.spllOf, hn.spll, hwv.spll]; rfl
  refine ⟨u, hexec.trans hu, ?_, ?_, ?_, ?_, ?_, ho⟩
  · rw [State.spllLock, State.flag, hfu _ _ rfl, hx]; simp
  · rw [State.spllState, hfu _ _ rfl, hx]; simp
  · rw [hfu _ _ rfl, hx]
    rw [State.fld_setFld_ne _ _ _ _ _ _ (by decide), State.fld_setFld_ne _ _ _ _ _ _ (by decide)]
    exact hrate
  · rw [hsu, hspll.1]
  · rw [hsu, hspll.2]

/-! ### The settle instant -/

theorem State.anchorReached_of_idle (s : State) (e : Nat) (h : (s.spllOf e).moving = false) : s.anchorReached e = s := by
  rw [State.anchorReached]
  dsimp only
  rw [h]
  rfl

theorem State.anchorReached_of_later (s : State) (e : Nat) (h : tuLe (s.spllOf e).moveEnd s.time = false) :
    s.anchorReached e = s := by
  rw [State.anchorReached]
  dsimp only
  rw [h, Bool.and_false]
  rfl

/-- What a change of a lane's tables leaves alone: the PLL, the memory, and the registers of both PLL and routes. -/
structure PllKept (s t : State) : Prop where
  spll : t.spll = s.spll
  mem : t.mem = s.mem
  status : ∀ i, t.reg .PLL_SPLL_STATUS i = s.reg .PLL_SPLL_STATUS i
  route : ∀ i, t.reg .EVT_ROUTE i = s.reg .EVT_ROUTE i

theorem PllKept.refl (s : State) : PllKept s s := ⟨rfl, rfl, fun _ => rfl, fun _ => rfl⟩

theorem PllKept.trans (h : PllKept s t) (g : PllKept t u) : PllKept s u :=
  ⟨g.spll.trans h.spll, g.mem.trans h.mem, fun i => (g.status i).trans (h.status i), fun i => (g.route i).trans (h.route i)⟩

theorem PllKept.of_eq (hs : t.spll = s.spll) (hm : t.mem = s.mem) (hr : t.regs = s.regs) : PllKept s t :=
  ⟨hs, hm, fun _ => by rw [State.reg, State.reg, hr], fun _ => by rw [State.reg, State.reg, hr]⟩

theorem PllKept.setFld (s : State) (f : Fld) (i x : Nat) (h : f.reg ≠ .PLL_SPLL_STATUS) (h' : f.reg ≠ .EVT_ROUTE) :
    PllKept s (s.setFld f i x) :=
  ⟨rfl, rfl, fun _ => s.reg_setFld_ne _ _ _ _ _ h.symm, fun _ => s.reg_setFld_ne _ _ _ _ _ h'.symm⟩

theorem State.makeStale_pllKept (s : State) (ln : Nat) : PllKept s (s.makeStale ln) := by
  obtain ⟨x, hx⟩ : ∃ x, x = if s.stale ln then s else s.modLane ln fun l => { l with staleAt := s.time } := ⟨_, rfl⟩
  have h : PllKept s x := by
    rw [hx]
    split
    · exact .refl s
    · exact .of_eq rfl rfl rfl
  rw [State.makeStale, ← hx]
  exact (h.trans (.setFld _ _ _ _ (by decide) (by decide))).trans (.setFld _ _ _ _ (by decide) (by decide))

theorem State.refitTaps_pllKept (s : State) (ln : Nat) : PllKept s (s.refitTaps ln) := .of_eq rfl rfl rfl

/-- Tables that a RAMP made stale are refitted; the PLL stays as it is. -/
theorem State.rampSettled_pllKept (s : State) (e : Nat) : PllKept s (s.rampSettled e) := by
  unfold State.rampSettled State.each
  generalize List.range 8 = l
  induction l generalizing s with
  | nil => exact .refl s
  | cons i l ih =>
    refine .trans ?_ (ih _)
    dsimp only
    split
    · exact (s.makeStale_pllKept _).trans (State.refitTaps_pllKept _ _)
    · exact .refl s

theorem tuLe_settleAt {l : Tu} {e : Nat} (h1 : tuLe (tuAdd l (ns 2000)) s.time = true)
    (h2 : tuLe (s.spllOf e).moveEnd s.time = true) : tuLe (s.settleAt e l) s.time = true := by
  unfold State.settleAt
  dsimp only
  split
  · exact h2
  · exact h1

/-- The state of a sample PLL that has settled, before its events. -/
def State.spllSettled (s : State) (e : Nat) (x : Tu) : State :=
  (s.setFld Fld.PLL_SPLL_STATUS_SETTLED e 1).modSpll e fun p =>
    { p with bad := none, spans := p.spans ++ (p.bad.map fun b => (b, x)).toList, lost := false, lockAt := none,
             mode := if p.mode = .ramp then .none else p.mode }

theorem spllSettle_eq (t : Tu) (e : Fin 2) {l : Tu} (ha : s.alive = true) (hl : s.spllLock e = true)
    (hlock : (s.spllOf e).lockAt = some l) (h1 : tuLe (tuAdd l (ns 2000)) (s.at t).time = true)
    (h2 : tuLe (s.spllOf e).moveEnd (s.at t).time = true) (hdue : (s.spllOf e).anchorDue = none)
    (hmove : (s.spllOf e).moving = false) :
    exec (.spllSettle t e) s = s.done ((s.at t).spllSettle e ((s.at t).settleAt e l)) := by
  have hsp : (s.at t).spllOf e = s.spllOf e := by rw [State.spllOf, State.at_spll]; rfl
  have hlk : (s.at t).spllLock e = true := by rw [State.spllLock, State.at_flag]; exact hl
  have hle : tuLe ((s.at t).settleAt e l) (s.at t).time = true := tuLe_settleAt h1 (by rw [hsp]; exact h2)
  rw [exec, execSpllSettle, State.when_eq ha]
  dsimp only
  rw [State.anchorReached_of_idle _ _ (by rw [hsp]; exact hmove), hsp, hlock]
  dsimp only
  rw [hlk, hle, hdue, hmove, if_pos (by rfl : (true && true && (none : Option (Tu × Bool)).isNone && !false) = true)]

theorem spllSettle_settles (t : Tu) (e : Fin 2) {l : Tu} (ha : s.alive = true) (hl : s.spllLock e = true)
    (hlock : (s.spllOf e).lockAt = some l) (h1 : tuLe (tuAdd l (ns 2000)) (s.at t).time = true)
    (h2 : tuLe (s.spllOf e).moveEnd (s.at t).time = true) (hdue : (s.spllOf e).anchorDue = none)
    (hmove : (s.spllOf e).moving = false) (hmode : (s.spllOf e).mode ≠ .ramp) :
    ∃ u, exec (.spllSettle t e) s = .next u ∧ u.fld Fld.PLL_SPLL_STATUS_SETTLED e = 1 ∧ (u.spllOf e).bad = none ∧
      (u.spllOf e).spans = (s.spllOf e).spans ++ ((s.spllOf e).bad.map fun b => (b, (s.at t).settleAt e l)).toList ∧
      ((s.spllOf e).lost = true → s.fld Fld.EVT_ROUTE_KIND (65 + e) ≠ 1 → u.evtStatus (65 + e) = true) ∧
      ((s.spllOf e).lost = false → sameSource s u (65 + e)) ∧
      onlyRaising s u (⟨.PLL_SPLL_STATUS, e⟩ :: laneStates e) [65 + e] := by
  have hsp : (s.at t).spllOf e = s.spllOf e := by rw [State.spllOf, State.at_spll]; rfl
  obtain ⟨x, hx⟩ : ∃ x, x = (s.at t).spllSettled e ((s.at t).settleAt e l) := ⟨_, rfl⟩
  obtain ⟨w, hw⟩ : ∃ w, w = x.startLanes e := ⟨_, rfl⟩
  have hxo : onlyRegs (s.at t) x [⟨.PLL_SPLL_STATUS, e⟩] := by
    rw [hx]
    exact .of_eq rfl rfl (.setFld (f := Fld.PLL_SPLL_STATUS_SETTLED) (t := s.at t) (i := e) (x := 1) (by simp) (.refl _ _))
  have hwx := x.startLanes_only e
  rw [← hw] at hwx
  have hwo : onlyRegs (s.at t) w (⟨.PLL_SPLL_STATUS, e⟩ :: laneStates e) :=
    .step hwx (fun _ h => by simp [h]) (hxo.mono (by simp))
  have hset : w.fld Fld.PLL_SPLL_STATUS_SETTLED e = 1 := by
    have h : x.fld Fld.PLL_SPLL_STATUS_SETTLED e =
        ((s.at t).setFld Fld.PLL_SPLL_STATUS_SETTLED e 1).fld Fld.PLL_SPLL_STATUS_SETTLED e := by rw [hx]; rfl
    rw [State.fld_of_reg (hwx.1 _ _ (by simp [laneStates])), h]
    simp
  have hspll : (w.spllOf e).bad = none ∧ (w.spllOf e).spans =
      (s.spllOf e).spans ++ ((s.spllOf e).bad.map fun b => (b, (s.at t).settleAt e l)).toList := by
    have h : w.spllOf e = x.spllOf e := by rw [State.spllOf, hw, x.startLanes_spll e]; rfl
    rw [h, hx, State.spllSettled, State.spllOf_modSpll,
      show ((s.at t).setFld Fld.PLL_SPLL_STATUS_SETTLED e 1).spllOf e = s.spllOf e from hsp]
    exact ⟨rfl, rfl⟩
  have hexec : exec (.spllSettle t e) s = s.done (if (s.spllOf e).lost then w.raise (65 + e) 2 0 else w) := by
    rw [spllSettle_eq t e ha hl hlock h1 h2 hdue hmove, State.spllSettle, hsp, hw, hx]
    rw [if_neg hmode, if_neg hmode]
    rfl
  have hcases : ∀ b : Bool, (s.spllOf e).lost = b → ∃ u, exec (.spllSettle t e) s = .next u ∧
      Raises (if b then w.raise (65 + e) 2 0 else w) u noteSrcs ∧
      onlyRaising s u (⟨.PLL_SPLL_STATUS, e⟩ :: laneStates e) (if b then [65 + e.val] else []) := fun b hb => by
    have hr : onlyRaising (s.at t) (if b then w.raise (65 + e) 2 0 else w) (⟨.PLL_SPLL_STATUS, e⟩ :: laneStates e)
        (if b then [65 + e.val] else []) := by
      cases b with
      | true => exact .raise (by simp) (hwo.raising (by simp [noEventReg, laneStates]))
      | false => exact hwo.raising (by simp [noEventReg, laneStates])
    obtain ⟨u, hu, hn, ho⟩ := s.done_onlyRaising hr
    exact ⟨u, by rw [hexec, hb]; exact hu, hn, ho⟩
  have hv : ∀ b : Bool, Raises w (if b then w.raise (65 + e) 2 0 else w) [65 + e.val] := fun b => by
    cases b with
    | true => exact State.raise_raises _ _ _
    | false => exact .refl _ _
  obtain ⟨u, hu, hn, ho⟩ := hcases _ rfl
  have hsu : u.spllOf e = w.spllOf e := by rw [State.spllOf, hn.spll, (hv _).spll]; rfl
  refine ⟨u, hu, ?_, by rw [hsu, hspll.1], by rw [hsu, hspll.2], fun hlost hk => ?_, fun hlost => ?_,
    ho.mono (fun _ h => h) fun k hk => ?_⟩
  · rw [hn.fld _ _ rfl, (hv _).fld _ _ rfl, hset]
  · rw [hlost] at hn
    rw [hn.evtStatus (spllSource e).2.2.1]
    refine State.raise_hubSource 2 0 (spllSource e).1 ?_
    rw [State.fld_of_reg (hwo.1 _ _ (by simp [laneStates])), State.at_fld]
    exact hk
  · rw [hlost] at ho
    exact ho.2.1 _ (by simp) (by fin_cases e <;> rfl)
  · split at hk
    · exact hk
    · cases hk

theorem spllSettle_ends_ramp (t : Tu) (e : Fin 2) {l : Tu} (ha : s.alive = true) (hl : s.spllLock e = true)
    (hlock : (s.spllOf e).lockAt = some l) (h1 : tuLe (tuAdd l (ns 2000)) (s.at t).time = true)
    (h2 : tuLe (s.spllOf e).moveEnd (s.at t).time = true) (hdue : (s.spllOf e).anchorDue = none)
    (hmove : (s.spllOf e).moving = false) (hmode : (s.spllOf e).mode = .ramp) :
    ∃ u, exec (.spllSettle t e) s = .next u ∧ u.fld Fld.PLL_SPLL_STATUS_SETTLED e = 1 ∧ (u.spllOf e).bad = none ∧
      (u.spllOf e).mode = .none ∧ (s.fld Fld.EVT_ROUTE_KIND (68 + e) ≠ 1 → u.evtStatus (68 + e) = true) ∧
      sameMem s u := by
  have hsp : (s.at t).spllOf e = s.spllOf e := by rw [State.spllOf, State.at_spll]; rfl
  obtain ⟨x, hx⟩ : ∃ x, x = (s.at t).spllSettled e ((s.at t).settleAt e l) := ⟨_, rfl⟩
  obtain ⟨y, hy⟩ : ∃ y, y = x.rampSettled e := ⟨_, rfl⟩
  obtain ⟨w, hw⟩ : ∃ w, w = y.startLanes e := ⟨_, rfl⟩
  obtain ⟨v, hv⟩ : ∃ v, v = if (s.spllOf e).lost then w.raise (65 + e) 2 0 else w := ⟨_, rfl⟩
  obtain ⟨hys, hym, hyr, hye⟩ := x.rampSettled_pllKept e
  rw [← hy] at hys hym hyr hye
  have hwy := y.startLanes_only e
  rw [← hw] at hwy
  have hwv : Raises w v [65 + e.val] := by
    rw [hv]
    split
    · exact State.raise_raises _ _ _
    · exact .refl _ _
  have hexec : exec (.spllSettle t e) s = s.done (v.raise (68 + e) 2 0) := by
    rw [spllSettle_eq t e ha hl hlock h1 h2 hdue hmove, State.spllSettle, hsp, hv, hw, hy, hx]
    rw [if_pos hmode, if_pos hmode]
    rfl
  obtain ⟨u, hu, hn⟩ := s.done_notes (v.raise (68 + e) 2 0)
  have hvr := State.raise_raises (s := v) (68 + e) 2 0
  have hroute : v.fld Fld.EVT_ROUTE_KIND (68 + e) = s.fld Fld.EVT_ROUTE_KIND (68 + e) := by
    have hxr : x.reg .EVT_ROUTE (68 + e) = s.reg .EVT_ROUTE (68 + e) := by
      rw [hx]
      show ((s.at t).setFld Fld.PLL_SPLL_STATUS_SETTLED e 1).reg .EVT_ROUTE (68 + e) = _
      simp
    rw [hwv.fld _ _ rfl, State.fld_of_reg (hwy.1 _ _ (by simp [laneStates]))]
    exact State.fld_of_reg ((hye _).trans hxr)
  have hset : x.fld Fld.PLL_SPLL_STATUS_SETTLED e =
      ((s.at t).setFld Fld.PLL_SPLL_STATUS_SETTLED e 1).fld Fld.PLL_SPLL_STATUS_SETTLED e := by rw [hx]; rfl
  have hsu : u.spllOf e = x.spllOf e := by
    rw [State.spllOf, hn.spll, hvr.spll, hwv.spll, hw, y.startLanes_spll e, hys]
    rfl
  have hmem : u.mem = s.mem := by
    have hxm : x.mem = s.mem := by rw [hx]; exact s.at_mem t
    have hwm : w.mem = y.mem := by
      rw [hw]
      unfold State.startLanes
      split
      · rfl
      · refine State.each_mem _ fun a i => ?_
        dsimp only
        split <;> rfl
    rw [hn.mem, hvr.mem, hwv.mem, hwm, hym, hxm]
  refine ⟨u, hexec.trans hu, ?_, ?_, ?_, fun hk => ?_, fun a => by rw [hmem]⟩
  · rw [hn.fld _ _ rfl, hvr.fld _ _ rfl, hwv.fld _ _ rfl, State.fld_of_reg (hwy.1 _ _ (by simp [laneStates])),
      State.fld_of_reg (hyr _), hset]
    simp
  · rw [hsu, hx, State.spllSettled, State.spllOf_modSpll]
  · rw [hsu, hx, State.spllSettled, State.spllOf_modSpll,
      show ((s.at t).setFld Fld.PLL_SPLL_STATUS_SETTLED e 1).spllOf e = s.spllOf e from hsp]
    exact if_pos hmode
  · rw [hn.evtStatus (spllSource e).2.2.2]
    exact State.raise_hubSource 2 0 (spllSource e).2.1 (by rw [hroute]; exact hk)

/-! ### Retries, FOLLOW, anchors and phase -/

theorem spllRelockRetry_counts (t : Tu) (e : Fin 2) (ha : s.alive = true) (hst : s.spllState e = 3)
    (hd : s.dieAsleep e = false) (hle : tuLe (tuAdd (s.spllOf e).tryAt (ns 1000000)) (s.at t).time = true)
    (hlt : s.fld Fld.PLL_SPLL_RETRY_COUNT e < 65535) :
    ∃ u, exec (.spllRelockRetry t e) s = .next u ∧ (u.spllOf e).tryAt = (s.at t).time ∧
      u.fld Fld.PLL_SPLL_RETRY_COUNT e = s.fld Fld.PLL_SPLL_RETRY_COUNT e + 1 ∧
      onlyRegs s u [⟨.PLL_SPLL_RETRY, e⟩] := by
  obtain ⟨w, hw⟩ : ∃ w, w = ((s.at t).bump Fld.PLL_SPLL_RETRY_COUNT e 1).modSpll e fun p =>
    { p with tryAt := (s.at t).time, countAt := (s.at t).time } := ⟨_, rfl⟩
  have hwo : onlyRegs (s.at t) w [⟨.PLL_SPLL_RETRY, e⟩] := by
    rw [hw]
    exact .of_eq rfl rfl (.setFld (f := Fld.PLL_SPLL_RETRY_COUNT) (t := s.at t) (i := e) (by simp) (.refl _ _))
  obtain ⟨hdn, ho⟩ := State.done_onlyRegs hwo rfl
  have hc : (s.at t).spllState e = 3 ∧ !(s.at t).dieAsleep e ∧
      tuLe (tuAdd ((s.at t).spllOf e).tryAt (ns 1000000)) (s.at t).time := by
    refine ⟨by rw [State.spllState, State.at_fld]; exact hst, by rw [State.at_dieAsleep, hd]; rfl, ?_⟩
    rw [State.spllOf, State.at_spll]
    exact hle
  refine ⟨w, ?_, ?_, ?_, ho⟩
  · rw [exec, execSpllRelockRetry, State.when_eq ha, if_pos hc, ← hdn, hw]
  · rw [hw, State.spllOf_modSpll]
  · have h : w.fld Fld.PLL_SPLL_RETRY_COUNT e =
        ((s.at t).bump Fld.PLL_SPLL_RETRY_COUNT e 1).fld Fld.PLL_SPLL_RETRY_COUNT e := by rw [hw]; rfl
    rw [h, State.fld_bump _ _ _ _ (by decide), State.at_fld]
    exact Nat.min_eq_left (by simp; omega)

theorem followDone_reaches (t : Tu) (e : Fin 2) (ha : s.alive = true) (hst : s.spllState e = 1)
    (hrate : (s.at t).rateInst e = (s.spllOf e).target) (hdue : (s.spllOf e).anchorDue = none) :
    ∃ u, exec (.followDone t e) s = .next u ∧ u.spllState e = 0 ∧
      (u.spllOf e).anchorDue = some (tuAdd (s.at t).time (ns 8000), false) ∧
      (s.fld Fld.EVT_ROUTE_KIND (68 + e) ≠ 1 → u.evtStatus (68 + e) = true) ∧
      onlyRaising s u [⟨.PLL_SPLL_STATUS, e⟩, ⟨.PLL_SPLL_RATE_NOW, e⟩] [68 + e] := by
  have hsp : (s.at t).spllOf e = s.spllOf e := by rw [State.spllOf, State.at_spll]; rfl
  obtain ⟨r, hr⟩ : ∃ r, r = (s.at t).setRate e (s.spllOf e).target := ⟨_, rfl⟩
  obtain ⟨x, hx⟩ : ∃ x, x = (r.setFld Fld.PLL_SPLL_STATUS_STATE e 0).modSpll e fun p => { p with mode := .none } := ⟨_, rfl⟩
  obtain ⟨w, hw⟩ : ∃ w, w = x.anchorLater e (tuAdd (s.at t).time (ns 8000)) false := ⟨_, rfl⟩
  obtain ⟨⟨hro, -, hbare⟩, -⟩ := (s.at t).setRate_reads e (s.spllOf e).target
  rw [← hr] at hro hbare
  have hwr : w.regs = (r.setFld Fld.PLL_SPLL_STATUS_STATE e 0).regs := by rw [hw, hx]; rfl
  have hwo : onlyRegs (s.at t) w [⟨.PLL_SPLL_STATUS, e⟩, ⟨.PLL_SPLL_RATE_NOW, e⟩] := by
    refine .of_eq (t := r.setFld Fld.PLL_SPLL_STATUS_STATE e 0) hwr (by rw [hw, hx]; rfl) ?_
    exact .setFld (by simp) hro
  have hxdue : (x.spllOf e).anchorDue = none := by
    have h := congrArg Spll.anchorDue hbare
    have h' : (r.spllOf e).anchorDue = ((s.at t).spllOf e).anchorDue := h
    rw [hx, State.spllOf_modSpll]
    show (r.spllOf e).anchorDue = none
    rw [h', hsp, hdue]
  have hwdue : (w.spllOf e).anchorDue = some (tuAdd (s.at t).time (ns 8000), false) := by
    rw [hw, State.anchorLater, State.spllOf_modSpll]
    dsimp only
    rw [hxdue]
    rfl
  have hexec : exec (.followDone t e) s = s.done (w.raise (68 + e) 1 0) := by
    have hs1 : (s.at t).spllState e = 1 := by rw [State.spllState, State.at_fld]; exact hst
    rw [exec, execFollowDone, State.when_eq ha, hsp, hrate, hs1, if_pos (by simp), hw, hx, hr]
    rfl
  obtain ⟨u, hu, hn, ho⟩ := s.done_onlyRaising (x := t) (t := w.raise (68 + e) 1 0) (srcs := [68 + e.val])
    (.raise (by simp) (hwo.raising (by simp [noEventReg])))
  have hvr := State.raise_raises (s := w) (68 + e) 1 0
  refine ⟨u, hexec.trans hu, ?_, ?_, fun hk => ?_, ho⟩
  · rw [State.spllState, hn.fld _ _ rfl, hvr.fld _ _ rfl, State.fld, State.reg, hwr]
    exact State.fld_setFld_eq r Fld.PLL_SPLL_STATUS_STATE e 0 (by decide)
  · rw [State.spllOf, hn.spll, hvr.spll]
    exact hwdue
  · rw [hn.evtStatus (spllSource e).2.2.2]
    refine State.raise_hubSource 1 0 (spllSource e).2.1 ?_
    rw [State.fld_of_reg (hwo.1 _ _ (by simp)), State.at_fld]
    exact hk

theorem spllAnchorReached_ends (t : Tu) (e : Fin 2) (ha : s.alive = true) (hmove : (s.spllOf e).moving = true)
    (hle : tuLe (s.spllOf e).moveEnd (s.at t).time = true) :
    ∃ u, exec (.spllAnchorReached t e) s = .next u ∧ (u.spllOf e).moving = false ∧
      (s.spllState e = 0 → u.aligned e = true) ∧ (s.spllState e ≠ 0 → u.aligned e = s.aligned e) ∧
      onlyRegs s u [⟨.PLL_SPLL_STATUS, e⟩] := by
  have hsp : (s.at t).spllOf e = s.spllOf e := by rw [State.spllOf, State.at_spll]; rfl
  obtain ⟨m, hm⟩ : ∃ m, m = (s.at t).endMove e := ⟨_, rfl⟩
  obtain ⟨x, hx⟩ : ∃ x, x = if s.spllState e = 0 then
    (m.align e true).modSpll e fun q => { q with alignAt := (s.spllOf e).moveEnd } else m := ⟨_, rfl⟩
  have hmv : (m.spllOf e).moving = false := by rw [hm, State.endMove, State.spllOf_modSpll]
  have hmr : m.regs = (s.at t).regs ∧ m.mem = (s.at t).mem := by rw [hm]; exact ⟨rfl, rfl⟩
  have hal : ∀ y : State, y.regs = (m.align e true).regs → y.aligned e = true := fun y h => by
    rw [State.aligned, State.flag, State.fld, State.reg, h, (m.align_regs e true).1]
    show ((m.setFld Fld.PLL_SPLL_STATUS_ALIGNED e 1).fld Fld.PLL_SPLL_STATUS_ALIGNED e != 0) = true
    simp
  have hxp : (x.spllOf e).moving = false ∧ (s.spllState e = 0 → x.aligned e = true) ∧
      (s.spllState e ≠ 0 → x.aligned e = s.aligned e) ∧ onlyRegs (s.at t) x [⟨.PLL_SPLL_STATUS, e⟩] := by
    rw [hx]
    split
    · next h0 =>
      obtain ⟨g1, g2, -⟩ := m.align_regs e true
      refine ⟨?_, fun _ => hal _ rfl, fun h => absurd h0 h, .of_eq (t := m.setFld Fld.PLL_SPLL_STATUS_ALIGNED e 1) g1 g2 ?_⟩
      · rw [State.spllOf_modSpll]
        have h := congrArg Spll.moving (m.align_spll e true)
        exact h.trans hmv
      · exact .setFld (by simp) (.of_eq hmr.1 hmr.2 (.refl _ _))
    · next h0 =>
      refine ⟨hmv, fun h => absurd h h0, fun _ => ?_, .of_eq hmr.1 hmr.2 (.refl _ _)⟩
      rw [State.aligned, State.flag, State.fld, State.reg, hmr.1, State.at_regs]
      rfl
  obtain ⟨u, hu⟩ : ∃ u, u = State.regrid (s.at t) x e := ⟨_, rfl⟩
  obtain ⟨hr1, hr2, -, -⟩ := State.regrid_reads (s.at t) x e
  have hr3 := State.regrid_spll (s.at t) x e
  rw [← hu] at hr1 hr2 hr3
  obtain ⟨h1, h2, h3, h4⟩ := hxp
  have hual : u.aligned e = x.aligned e := by rw [State.aligned, State.flag, State.fld, State.reg, hr1]; rfl
  obtain ⟨hd, ho⟩ := State.done_onlyRegs (.of_eq hr1 hr2 h4) (by simp [noEventReg])
  have hexec : exec (.spllAnchorReached t e) s = s.done u := by
    have hst : (s.at t).spllState e = s.spllState e := by rw [State.spllState, State.at_fld]; rfl
    rw [exec, execSpllAnchorReached, State.when_eq ha, State.anchorReached]
    dsimp only
    rw [hsp, hmove, hle, if_pos (by rfl : (true && true) = true), State.onGrid, hu, hx, hm, hst]
  refine ⟨u, hexec.trans hd, ?_, fun h => hual.trans (h2 h), fun h => hual.trans (h3 h), ho⟩
  rw [State.spllOf, hr3]
  exact h1

theorem spllPhaseWrite_moves (t : Tu) (e : Fin 2) (ofs : BitVec 11) (hup : s.hostUp = true) :
    ∃ u, exec (.spllPhaseWrite t e ofs) s = .next u ∧ u.fld Fld.PLL_SPLL_PHASE_OFS e = ofs.toNat ∧
      u.fld Fld.PLL_SPLL_STATUS_OFS_NOW e = unsgn 11 ((s.at t).ofsNow e) ∧
      onlyRegs s u [⟨.PLL_SPLL_PHASE, e⟩, ⟨.PLL_SPLL_STATUS, e⟩] := by
  obtain ⟨h, hh⟩ : ∃ h, h = (s.at t).ofsHold e := ⟨_, rfl⟩
  have hho : onlyRegs (s.at t) h [⟨.PLL_SPLL_PHASE, e⟩, ⟨.PLL_SPLL_STATUS, e⟩] := by
    rw [hh]
    exact .of_eq rfl rfl (.setFld (f := Fld.PLL_SPLL_STATUS_OFS_NOW) (t := s.at t) (i := e)
      (x := unsgn 11 ((s.at t).ofsNow e)) (by simp) (.refl _ _))
  have hofs : h.fld Fld.PLL_SPLL_STATUS_OFS_NOW e = unsgn 11 ((s.at t).ofsNow e) := by
    have h1 : h.fld Fld.PLL_SPLL_STATUS_OFS_NOW e = ((s.at t).setFld Fld.PLL_SPLL_STATUS_OFS_NOW e
        (unsgn 11 ((s.at t).ofsNow e))).fld Fld.PLL_SPLL_STATUS_OFS_NOW e := by rw [hh]; rfl
    rw [h1, State.fld_setFld_eq _ _ _ _ (by decide), Nat.mod_eq_of_lt (unsgn_lt 11 _)]
  obtain ⟨hd, ho⟩ := State.done_onlyRegs (t := h.setFld Fld.PLL_SPLL_PHASE_OFS e ofs.toNat)
    (.setFld (by simp) hho) (by simp [noEventReg])
  refine ⟨h.setFld Fld.PLL_SPLL_PHASE_OFS e ofs.toNat, ?_, ?_, ?_, ho⟩
  · rw [exec, execSpllPhaseWrite, State.whenHost_eq hup, State.writePhase, ← hh]
    exact hd
  · rw [State.fld_setFld_eq _ _ _ _ (by decide)]
    exact Nat.mod_eq_of_lt ofs.isLt
  · rw [State.fld_setFld_ne _ _ _ _ _ _ (by decide), hofs]

/-- Settles O22, clause by clause. -/
theorem samplePllsLockAndSettle : Obligations.SamplePllsLockAndSettle := by
  intro s t e hup
  have ha := State.alive_of_hostUp hup
  refine ⟨fun first err hl hd => ⟨fun h => spllLockLoss_loses t e first err ha hl hd h,
      fun h => spllLockLoss_keeps t e first err ha hl hd h⟩,
    fun hl hd hsb hthere => spllLock_declares t e ha hl hd hsb hthere,
    fun l hl hlock h1 h2 hdue hmove => ⟨fun hm => spllSettle_settles t e ha hl hlock h1 h2 hdue hmove hm,
      fun hm => spllSettle_ends_ramp t e ha hl hlock h1 h2 hdue hmove hm⟩,
    fun hst hd hle hlt => spllRelockRetry_counts t e ha hst hd hle hlt,
    fun hst hrate hdue => followDone_reaches t e ha hst hrate hdue,
    fun hmove hle => spllAnchorReached_ends t e ha hmove hle, fun _ hle => ?_, fun ofs => spllPhaseWrite_moves t e ofs hup⟩
  rw [exec, execSpllAnchorReached, State.when_eq ha, State.anchorReached_of_later]
  · exact (s.done_at t).1
  · rw [State.spllOf, State.at_spll]
    exact hle

end Sys2Proof.Machine
end

section
/-! SUPPORT. The outcome of a command that changes registers and then raises an event, or does not. -/

namespace Sys2Proof.Machine

variable {s t u w : State} {but : List Reg} {srcs : List Nat}

/-- A field that takes a value it has room for. -/
theorem State.fld_setFld_of_lt (s : State) (f : Fld) (i : Nat) {x : Nat} (h : f.lsb + f.width ≤ 32) (hx : x < 2 ^ f.width) :
    (s.setFld f i x).fld f i = x := by rw [State.fld_setFld_eq _ _ _ _ h, Nat.mod_eq_of_lt hx]

/-- The registers that decide which sources can be raised. -/
def awakeRegs : List RegName := [.HUB_PWR_STATUS, .CLK_GATE_STATE_LO, .CLK_GATE_STATE_HI, .EVT_ROUTE, .DMA_Q_KIND]

/-- None of the registers is one of the events, or one that decides which source can be raised. -/
def plainRegs (but : List Reg) : Bool :=
  but.all fun r => !eventReg r.n && !awakeRegs.contains r.n

theorem noEventReg_of_plain (h : plainRegs but = true) : noEventReg but = true := by
  simp only [plainRegs, noEventReg, List.all_eq_true, Bool.and_eq_true] at h ⊢
  exact fun r hr => (h r hr).1

theorem onlyRegs.kept (h : onlyRegs s t but) (hb : plainRegs but = true) {n : RegName}
    (hn : n ∈ awakeRegs) (i : Nat) :
    t.reg n i = s.reg n i := h.1 n i fun hm => by
  have := List.all_eq_true.1 hb _ hm
  simp only [Bool.and_eq_true, Bool.not_eq_true'] at this
  rw [List.contains_iff_mem.2 hn] at this
  exact Bool.noConfusion this.2

/-- The source is allocated, its unit is there and awake, and its route does not name Basecamp alone. -/
def State.raisable (s : State) (k : Nat) : Prop :=
  evtValid k = true ∧ s.evtAsleep k = false ∧ s.evtAbsent k = false ∧ s.fld Fld.EVT_ROUTE_KIND k ≠ 1

theorem State.raisable.of_only {k : Nat} (hr : s.raisable k) (h : onlyRegs s t but) (hb : plainRegs but = true) :
    t.raisable k := by
  obtain ⟨h1, h2, h3, h4⟩ := hr
  have hg : ∀ n, t.gateOpen n = s.gateOpen n := fun n =>
    State.gateOpen_of_reg (h.kept hb (by simp [awakeRegs]) 0) (h.kept hb (by simp [awakeRegs]) 0)
  have hd : ∀ e, t.dieAsleep e = s.dieAsleep e := fun e => by
    rw [State.dieAsleep, State.dieAsleep, hg, State.fld_of_reg (h.kept hb (by simp [awakeRegs]) 0)]
  have hc : ∀ c, t.clusterAsleep c = s.clusterAsleep c := fun c => by
    rw [State.clusterAsleep, State.clusterAsleep, hg, hd, State.fld_of_reg (h.kept hb (by simp [awakeRegs]) 0)]
  refine ⟨h1, ?_, ?_, ?_⟩
  · rw [← h2, State.evtAsleep, State.evtAsleep]
    simp only [hc, hd]
  · rw [← h3, State.evtAbsent, State.evtAbsent, State.fld_of_reg (h.kept hb (by simp [awakeRegs]) _)]
  · rwa [State.fld_of_reg (h.kept hb (by simp [awakeRegs]) _)]

theorem State.raisable.at {k : Nat} (hr : s.raisable k) (x : Tu) : (s.at x).raisable k :=
  hr.of_only (but := []) (.of_eq (State.at_regs _ _) (State.at_mem _ _) (.refl s _)) rfl

theorem State.raisable_hub {k : Nat} (hh : hubSource k = true) (hk : s.fld Fld.EVT_ROUTE_KIND k ≠ 1) :
    s.raisable k := by
  simp only [hubSource, Bool.and_eq_true, Bool.not_eq_true', Bool.or_eq_false_iff, decide_eq_false_iff_not] at hh
  obtain ⟨hv, ⟨⟨h1, h2⟩, h3⟩, h4⟩ := hh
  refine ⟨hv, ?_, ?_, hk⟩
  · unfold State.evtAsleep
    repeat rw [if_neg (by omega)]
  · rw [State.evtAbsent, decide_eq_false h3, Bool.false_and]

/-- What a command answers that leaves `w` and raises source `k` if `c`. -/
structure RaisedIf (s w u : State) (c : Prop) (k : Nat) (but : List Reg) : Prop where
  fld : ∀ f i, eventReg f.reg = false → u.fld f i = w.fld f i
  status : c → s.raisable k → u.evtStatus k = true
  quiet : ¬ c → sameSource s u k
  raises : Raises w u (k :: noteSrcs)
  only : onlyRaising s u but [k]

theorem State.done_raisedIf {x : Tu} {k causes info : Nat} {c : Prop} [Decidable c] (hw : onlyRegs (s.at x) w but)
    (hb : plainRegs but = true) (hk : followsRaise k = false) :
    ∃ u, s.done (if c then w.raise k causes info else w) = .next u ∧ RaisedIf s w u c k but := by
  have hkn : k ∉ noteSrcs := fun h => by
    simp only [noteSrcs, List.mem_cons, List.not_mem_nil, or_false] at h
    rcases h with rfl | rfl | rfl | rfl | rfl <;> cases hk
  have hv : Raises w (if c then w.raise k causes info else w) [k] := by
    split
    · exact State.raise_raises _ _ _
    · exact .refl _ _
  have hwr : onlyRaising (s.at x) w but [] := hw.raising (noEventReg_of_plain hb)
  have hsame : ∀ k', followsRaise k' = false → sameSource s w k' := fun k' h' => hwr.at.2.1 k' (by simp) h'
  obtain ⟨u, hu, hn, ho⟩ := s.done_onlyRaising (x := x) (t := if c then w.raise k causes info else w) (but := but)
    (srcs := [k]) (.and_then (hv.only fun _ h => .inl h) (fun _ h => h) (fun _ h => h) (hwr.mono (fun _ h => h) (by simp)))
  refine ⟨u, hu, fun f i he => (hn.fld f i he).trans (hv.fld f i he), fun hc hr => ?_, fun hc => ?_,
    (hv.mono (by simp)).trans (hn.mono fun _ h => List.mem_cons_of_mem _ h), ho⟩
  · rw [hn.evtStatus hkn, if_pos hc]
    obtain ⟨h1, h2, h3, h4⟩ := (hr.at x).of_only hw hb
    exact State.raise_status k causes info h1 h2 h3 h4
  · rw [if_neg hc] at hn
    exact (hsame k hk).trans (hn.src k hkn)

end Sys2Proof.Machine
end

section
/-! SUPPORT. The front ends: settle spans, and the watch over their ranges (R141 to R145). -/

namespace Sys2Proof.Machine

variable {s t u w : State} {but : List Reg} {srcs : List Nat}

@[simp] theorem State.afeOf_modAfe (s : State) (ch : Nat) (f : Afe → Afe) : (s.modAfe ch f).afeOf ch = f (s.afeOf ch) :=
  tget_tmod_same _ _ _ _
@[simp] theorem State.at_afeOf (s : State) (t : Tu) (ch : Nat) : (s.at t).afeOf ch = s.afeOf ch := by
  rw [State.afeOf, State.at_afe]; rfl
@[simp] theorem State.at_chanOff (s : State) (t : Tu) (ch : Nat) : (s.at t).chanOff ch = s.chanOff ch := by
  rw [State.chanOff, State.at_pitch]; rfl
@[simp] theorem State.at_ovrAt (s : State) (t : Tu) (ch : Nat) (x : Ratio) : (s.at t).ovrAt ch x = s.ovrAt ch x := by
  rw [State.ovrAt, State.at_afeOf]; rfl
@[simp] theorem State.at_ilv (s : State) (t : Tu) (ch : Nat) : (s.at t).ilv ch = s.ilv ch := by
  rw [State.ilv, State.at_pitch]; rfl

theorem State.afeOf_of_eq (h : t.afe = s.afe) (ch : Nat) : t.afeOf ch = s.afeOf ch := by rw [State.afeOf, h]; rfl

/-! ### Settle spans -/

theorem State.settle_reads (s : State) (ch n : Nat) (h : (s.afeOf ch).settle = none) :
    (s.settle ch n).fld Fld.AFE_STATUS_SETTLING ch = 1 ∧
      ((s.settle ch n).afeOf ch).settle = some (tuAdd s.time n) ∧ onlyRegs s (s.settle ch n) [⟨.AFE_STATUS, ch⟩] := by
  obtain ⟨x, hx⟩ : ∃ x, x = s.modAfe ch fun a =>
    { a with settle := some (match a.settle with
        | none => tuAdd s.time n
        | some e => if tuLe e (tuAdd s.time n) then tuAdd s.time n else e),
             settles := (s.time, tuAdd s.time n) :: a.settles } := ⟨_, rfl⟩
  have hu : s.settle ch n = x.setFld Fld.AFE_STATUS_SETTLING ch 1 := by rw [hx]; rfl
  have hxo : onlyRegs s x [⟨.AFE_STATUS, ch⟩] := by rw [hx]; exact .of_eq rfl rfl (.refl s _)
  rw [hu]
  refine ⟨by simp, ?_, .setFld (by simp) hxo⟩
  show (x.afeOf ch).settle = _
  rw [hx, State.afeOf_modAfe]
  dsimp only
  rw [h]

/-- A write of a setting whose change starts a settle span of `n` tu. -/
theorem settled_reads {f : Fld} (x : Nat) (ch n : Nat) (t : Tu) (hf : f.reg ≠ .AFE_STATUS) (hl : f.lsb + f.width ≤ 32)
    (hb : noEventReg [⟨f.reg, ch⟩, ⟨.AFE_STATUS, ch⟩] = true) (h : (s.afeOf ch).settle = none) :
    s.done (((s.at t).setFld f ch x).settle ch n) = .next (((s.at t).setFld f ch x).settle ch n) ∧
      (((s.at t).setFld f ch x).settle ch n).fld f ch = x % 2 ^ f.width ∧
      (((s.at t).setFld f ch x).settle ch n).fld Fld.AFE_STATUS_SETTLING ch = 1 ∧
      ((((s.at t).setFld f ch x).settle ch n).afeOf ch).settle = some (tuAdd (s.at t).time n) ∧
      onlyRegs s (((s.at t).setFld f ch x).settle ch n) [⟨f.reg, ch⟩, ⟨.AFE_STATUS, ch⟩] := by
  have ha : ((s.at t).setFld f ch x).afeOf ch = s.afeOf ch := s.at_afeOf t ch
  obtain ⟨h1, h2, h3⟩ := ((s.at t).setFld f ch x).settle_reads ch n (by rw [ha]; exact h)
  obtain ⟨hd, ho⟩ := State.done_onlyRegs (but := [⟨f.reg, ch⟩, ⟨.AFE_STATUS, ch⟩])
    (.step h3 (by simp) (.setFld (by simp) (.refl (s.at t) _))) hb
  refine ⟨hd, ?_, h1, h2, ho⟩
  rw [State.fld_of_reg (h3.1 _ _ (by simp [hf])), State.fld_setFld_eq _ _ _ _ hl]

theorem execAfeTermWrite_awake (t : Tu) (ch : Fin 16) (w : TermWrite) (hup : s.hostUp = true)
    (hc : s.clusterAsleep (ch / 4) = false) :
    exec (.afeTermWrite t ch w) s = s.done (match w with
      | .term b => (s.at t).writeTerm ch b.toNat
      | .vtt mv => (s.at t).writeVtt ch mv.toNat) := by
  rw [exec, execAfeTermWrite, State.whenHost_eq hup, State.at_clusterAsleep, hc, if_neg Bool.false_ne_true] <;> rfl

/-- A field that is written with its value keeps the register. -/
theorem State.setFld_self (s : State) (f : Fld) (i : Nat) : ∀ n j, (s.setFld f i (s.fld f i)).reg n j = s.reg n j := by
  intro n j
  rw [State.setFld, State.reg_setReg]
  split
  · next h =>
    obtain ⟨rfl, rfl⟩ := h
    rw [State.fld, putBits_getBits]
  · rfl

theorem frontEndsSettle_holds : frontEndsSettle := by
  intro s t ch hup
  have ha := State.alive_of_hostUp hup
  refine ⟨fun b hc hne hset => ?_, fun mv hc hne hset => ?_, fun hc => ?_, fun w hc => ?_, fun e he hle => ?_⟩
  · obtain ⟨hd, h1, h2, h3, ho⟩ := settled_reads (s := s) (f := Fld.AFE_CFG_TERM) b.toNat ch (ns 1000) t (by simp) (by decide)
      rfl hset
    have hlt : b.toNat % 2 = b.toNat := by cases b <;> rfl
    refine ⟨_, ?_, h1.trans hlt, h2, h3, ho⟩
    rw [execAfeTermWrite_awake t ch _ hup hc]
    dsimp only
    rw [State.writeTerm, State.at_fld, hlt, if_neg (Ne.symm hne)]
    exact hd
  · obtain ⟨hd, h1, h2, h3, ho⟩ := settled_reads (s := s) (f := Fld.AFE_VTT_MV) mv.toNat ch (ns 10000) t (by simp) (by decide)
      rfl hset
    refine ⟨_, ?_, h1.trans (Nat.mod_eq_of_lt mv.isLt), h2, h3, ho⟩
    rw [execAfeTermWrite_awake t ch _ hup hc]
    dsimp only
    rw [State.writeVtt, State.at_fld, if_neg hne]
    exact hd
  · have hlt : s.fld Fld.AFE_CFG_TERM ch < 2 := s.fld_lt _ _
    have hb : (s.flag Fld.AFE_CFG_TERM ch).toNat = s.fld Fld.AFE_CFG_TERM ch := by
      rw [State.flag]
      obtain h | h : s.fld Fld.AFE_CFG_TERM ch = 0 ∨ s.fld Fld.AFE_CFG_TERM ch = 1 := by omega
      all_goals rw [h]; rfl
    have hw : (s.at t).writeTerm ch (s.fld Fld.AFE_CFG_TERM ch) =
        (s.at t).setFld Fld.AFE_CFG_TERM ch ((s.at t).fld Fld.AFE_CFG_TERM ch) := by
      rw [State.writeTerm, State.at_fld, if_pos (Nat.mod_eq_of_lt hlt).symm]
    have hsame : onlyRegs (s.at t) ((s.at t).setFld Fld.AFE_CFG_TERM ch ((s.at t).fld Fld.AFE_CFG_TERM ch)) [] :=
      ⟨fun n i _ => State.setFld_self _ _ _ n i, fun _ => rfl⟩
    obtain ⟨hd, ho⟩ := State.done_onlyRegs hsame rfl
    refine ⟨(s.at t).setFld Fld.AFE_CFG_TERM ch ((s.at t).fld Fld.AFE_CFG_TERM ch), ?_, s.at_afe t, ho.1, ho.2⟩
    rw [execAfeTermWrite_awake t ch _ hup hc]
    dsimp only
    rw [hb, hw]
    exact hd
  · obtain ⟨hd, -, ho⟩ := s.done_at t
    refine ⟨_, ?_, s.at_afe t, ho⟩
    rw [exec, execAfeTermWrite, State.whenHost_eq hup, State.at_clusterAsleep, hc, if_pos rfl]
    exact hd
  · obtain ⟨x, hx⟩ : ∃ x, x = (s.at t).modAfe ch fun a => { a with settle := none } := ⟨_, rfl⟩
    have hxo : onlyRegs (s.at t) x [⟨.AFE_STATUS, ch⟩] := by rw [hx]; exact .of_eq rfl rfl (.refl _ _)
    obtain ⟨hd, ho⟩ := State.done_onlyRegs (t := x.setFld Fld.AFE_STATUS_SETTLING ch 0) (.setFld (by simp) hxo) rfl
    refine ⟨_, ?_, ?_, by simp, ho⟩
    · rw [exec, execAfeSettleEnd, State.when_eq ha, State.at_afeOf, he]
      dsimp only
      rw [if_pos hle, ← hx]
      exact hd
    · show (x.afeOf ch).settle = none
      rw [hx, State.afeOf_modAfe]

/-! ### Over-range -/

/-- The events of a channel whose cluster is awake. -/
theorem State.raisable_chan {ch : Fin 16} {k : Nat} (hk : k < 3) (hc : s.clusterAsleep (ch / 4) = false)
    (hr : s.fld Fld.EVT_ROUTE_KIND (80 + 8 * ch + k) ≠ 1) : s.raisable (80 + 8 * ch + k) := by
  have hv : ∀ (ch : Fin 16) (k : Fin 3), evtValid (80 + 8 * ch + k) = true := by decide
  refine ⟨hv ch ⟨k, hk⟩, ?_, ?_, hr⟩
  · rw [State.evtAsleep, if_pos (by omega), show (80 + 8 * ch.val + k - 80) / 32 = ch / 4 by omega, hc]
  · rw [State.evtAbsent, decide_eq_false (by omega), Bool.false_and]

theorem followsRaise_chan (ch : Fin 16) {k : Nat} (hk : k < 3) : followsRaise (80 + 8 * ch + k) = false := by
  have hv : ∀ (ch : Fin 16) (k : Fin 3), followsRaise (80 + 8 * ch + k) = false := by decide
  exact hv ch ⟨k, hk⟩

/-- A front-end event of a connected channel. -/
theorem State.afeEvent_eq (s : State) (ch k : Nat) (h : s.chanOff ch = false) :
    s.afeEvent ch k = s.raise (80 + 8 * ch + k) 1 0 := by
  rw [State.afeEvent, h, if_neg Bool.false_ne_true]
  rfl

theorem Ratio.le_self (a : Ratio) : a.le a = true := decide_eq_true (le_refl _)

theorem Ratio.lt_add_holdSpan (x : Tu) (cls : Nat) : (Ratio.ofTu x).lt ((Ratio.ofTu x).add (holdSpan cls)) = true := by
  have hpos : 0 < (holdSpan cls).num := by
    unfold holdSpan ns Ratio.ofInt
    split
    · decide
    · split <;> decide
  refine decide_eq_true ?_
  simp only [Ratio.ofTu, Ratio.add]
  push_cast
  nlinarith

/-- The first sample back inside the range: the excursion is over, and its hold begins where OVR_HOLD asks for it. -/
theorem State.backInside_reads (s : State) (ch : Nat) :
    (s.backInside ch).regs = s.regs ∧ (s.backInside ch).mem = s.mem ∧ (s.backInside ch).time = s.time ∧
      (s.backInside ch).pitch = s.pitch ∧ ((s.backInside ch).afeOf ch).exc = none ∧
      (s.flag Fld.AFE_CFG_OVR_HOLD ch = true ∧ (s.afeOf ch).exc.isSome = true →
        ((s.backInside ch).afeOf ch).hold = some ((Ratio.ofTu s.time).add (holdSpan ((s.afeOf ch).exc.getD 0))) ∧
        (s.backInside ch).ovrAt ch (.ofTu s.time) = true) ∧
      (¬ (s.flag Fld.AFE_CFG_OVR_HOLD ch = true ∧ (s.afeOf ch).exc.isSome = true) →
        (s.backInside ch).ovrAt ch (.ofTu s.time) = s.ovrAt ch (.ofTu s.time)) := by
  unfold State.backInside
  cases he : (s.afeOf ch).exc with
  | none => exact ⟨rfl, rfl, rfl, rfl, he, fun h => absurd h.2 Bool.false_ne_true, fun _ => rfl⟩
  | some cls =>
    refine ⟨rfl, rfl, rfl, rfl, ?_, fun h => ?_, fun h => ?_⟩
    · rw [State.afeOf_modAfe]
      split <;> rfl
    · rw [State.ovrAt, State.afeOf_modAfe, h.1]
      refine ⟨rfl, ?_⟩
      simp only [if_true, List.any_cons, inSpan, Ratio.le_self, Ratio.lt_add_holdSpan, Bool.and_self, Bool.true_or,
        Bool.or_true]
    · have hf : s.flag Fld.AFE_CFG_OVR_HOLD ch = false := by
        cases hb : s.flag Fld.AFE_CFG_OVR_HOLD ch
        · rfl
        · exact absurd ⟨hb, rfl⟩ h
      rw [State.ovrAt, State.ovrAt, State.afeOf_modAfe, hf]
      rfl

/-- A sample that carries OVR: what it leaves, from the state `x` in which it is judged. -/
theorem ovrSample_reads {x : State} (t : Tu) (ch : Fin 16) (hc : s.clusterAsleep (ch / 4) = false)
    (hoff : x.chanOff ch = false) (hx : onlyRegs (s.at t) x [⟨.AFE_STATUS, ch⟩])
    (hovr : x.flag Fld.AFE_STATUS_OVR ch = s.flag Fld.AFE_STATUS_OVR ch)
    (hcnt : s.fld Fld.AFE_OVR_CNT_COUNT ch < 2 ^ 32 - 1) :
    ∃ u, s.done (x.ovrSample ch) = .next u ∧ u.fld Fld.AFE_OVR_CNT_COUNT ch = s.fld Fld.AFE_OVR_CNT_COUNT ch + 1 ∧
      u.flag Fld.AFE_STATUS_OVR ch = true ∧ u.fld Fld.AFE_STATUS_PEAK ch = x.fld Fld.AFE_STATUS_PEAK ch ∧
      u.afe = x.afe ∧
      (s.flag Fld.AFE_STATUS_OVR ch = false → s.fld Fld.EVT_ROUTE_KIND (80 + 8 * ch) ≠ 1 →
        u.evtStatus (80 + 8 * ch) = true) ∧
      onlyRaising s u [⟨.AFE_OVR_CNT, ch⟩, ⟨.AFE_STATUS, ch⟩] [80 + 8 * ch] := by
  obtain ⟨w, hw⟩ : ∃ w, w = (x.bump Fld.AFE_OVR_CNT_COUNT ch 1).setFld Fld.AFE_STATUS_OVR ch 1 := ⟨_, rfl⟩
  have hwo : onlyRegs (s.at t) w [⟨.AFE_OVR_CNT, ch⟩, ⟨.AFE_STATUS, ch⟩] := by
    rw [hw]
    exact .setFld (by simp) (.setFld (f := Fld.AFE_OVR_CNT_COUNT) (by simp) (hx.mono (by simp)))
  have heq : x.ovrSample ch = if s.flag Fld.AFE_STATUS_OVR ch = false then w.raise (80 + 8 * ch + 0) 1 0 else w := by
    have hoffw : w.chanOff ch = false := by rw [hw]; exact hoff
    rw [State.ovrSample, ← hw, hovr, State.afeEvent_eq _ _ _ hoffw]
    cases s.flag Fld.AFE_STATUS_OVR ch <;> rfl
  obtain ⟨u, hu, hr⟩ := State.done_raisedIf (c := s.flag Fld.AFE_STATUS_OVR ch = false) (causes := 1) (info := 0) hwo
    (by rfl) (followsRaise_chan ch (k := 0) (by decide))
  refine ⟨u, by rw [heq]; exact hu, ?_, ?_, ?_, ?_, fun h hk => hr.status h (State.raisable_chan (by decide) hc hk), hr.only⟩
  · rw [hr.fld _ _ rfl, hw, State.fld_setFld_ne _ _ _ _ _ _ (by decide), State.fld_bump _ _ _ _ (by decide),
      State.fld_of_reg (hx.1 _ _ (by simp)), State.at_fld]
    exact Nat.min_eq_left (by simp; omega)
  · rw [State.flag, hr.fld _ _ rfl, hw]
    simp
  · rw [hr.fld _ _ rfl, hw, State.fld_setFld_apart _ _ _ _ _ _ (by decide), State.fld_bump_ne _ _ _ _ _ _ (by decide)]
  · rw [hr.raises.afe, hw]
    rfl

theorem execAfeOvr_eq (t : Tu) (ch : Fin 16) (raw : List (BitVec 16)) (core : Bool) (ha : s.alive = true)
    (hc : s.clusterAsleep (ch / 4) = false) (hoff : s.chanOff ch = false) :
    exec (.afeOvr t ch raw core) s = s.done ((s.at t).judgeSample ch ((s.at t).corrected ch
      ((s.at t).sampleAt (ch / 8) (s.ilv ch) (.ofTu (s.at t).time)) raw) core) := by
  rw [exec, execAfeOvr, State.when_eq ha, State.at_chanOff, State.at_clusterAsleep, hoff, hc, State.at_ilv,
    if_neg (by simp)]

/-- A sample outside the range. -/
theorem afeOvr_outside (t : Tu) (ch : Fin 16) (core : Bool) {v : Int} (hc : s.clusterAsleep (ch / 4) = false)
    (hoff : s.chanOff ch = false) (hv : outOfRange v = true) (hcnt : s.fld Fld.AFE_OVR_CNT_COUNT ch < 2 ^ 32 - 1) :
    ∃ u, s.done ((s.at t).judgeSample ch v core) = .next u ∧
      u.fld Fld.AFE_OVR_CNT_COUNT ch = s.fld Fld.AFE_OVR_CNT_COUNT ch + 1 ∧ u.flag Fld.AFE_STATUS_OVR ch = true ∧
      1 ≤ u.fld Fld.AFE_STATUS_PEAK ch ∧ (u.afeOf ch).exc.isSome = true ∧
      (s.flag Fld.AFE_STATUS_OVR ch = false → s.fld Fld.EVT_ROUTE_KIND (80 + 8 * ch) ≠ 1 →
        u.evtStatus (80 + 8 * ch) = true) ∧
      onlyRaising s u [⟨.AFE_OVR_CNT, ch⟩, ⟨.AFE_STATUS, ch⟩] [80 + 8 * ch] := by
  obtain ⟨a, ha⟩ : ∃ a, a = (s.at t).modAfe ch fun a => { a with exc := some (max 1 (a.exc.getD 1)) } := ⟨_, rfl⟩
  obtain ⟨p, hp⟩ : ∃ p, p = a.setFld Fld.AFE_STATUS_PEAK ch (max 1 (a.fld Fld.AFE_STATUS_PEAK ch)) := ⟨_, rfl⟩
  obtain ⟨x, hx⟩ : ∃ x, x = p.noteSample ch (max (-512) (min v 511)) true := ⟨_, rfl⟩
  have hj : (s.at t).judgeSample ch v core = x.ovrSample ch := by
    have hovr : p.ovrOf ch v core = true := by rw [State.ovrOf, hv]; rfl
    rw [State.judgeSample, hv, if_pos rfl, State.outside, State.peak, ← ha, ← hp, hovr, if_pos rfl, hx]
  have hao : onlyRegs (s.at t) a [⟨.AFE_STATUS, ch⟩] := by rw [ha]; exact .of_eq rfl rfl (.refl _ _)
  have hpo : onlyRegs (s.at t) p [⟨.AFE_STATUS, ch⟩] := by rw [hp]; exact .setFld (by simp) hao
  have hxo : onlyRegs (s.at t) x [⟨.AFE_STATUS, ch⟩] := by rw [hx]; exact .of_eq rfl rfl hpo
  have hxf : ∀ f, x.fld f ch = p.fld f ch := fun f => by rw [hx]; rfl
  obtain ⟨u, hu, h1, h2, h3, h4, h5, ho⟩ := ovrSample_reads (x := x) t ch hc
    (by rw [hx, hp, ha]; exact (s.at_chanOff t ch).trans hoff) hxo (by
      have haf : a.fld Fld.AFE_STATUS_OVR ch = s.fld Fld.AFE_STATUS_OVR ch := by rw [ha]; exact State.at_fld _ _ _ _
      rw [State.flag, State.flag, hxf, hp, State.fld_setFld_apart _ _ _ _ _ _ (by decide), haf]) hcnt
  refine ⟨u, by rw [hj]; exact hu, h1, h2, ?_, ?_, h5, ho⟩
  · have hlt : a.fld Fld.AFE_STATUS_PEAK ch < 4 := a.fld_lt _ _
    rw [h3, hxf, hp, State.fld_setFld_of_lt _ _ _ (by decide) (show _ < 4 by omega)]
    omega
  · have hau : u.afeOf ch = a.afeOf ch := State.afeOf_of_eq (by rw [h4, hx, hp]; rfl) ch
    rw [hau, ha, State.afeOf_modAfe]
    rfl

/-- A sample inside the range: one that carries OVR, and one that does not. -/
theorem afeOvr_inside (t : Tu) (ch : Fin 16) (core : Bool) {v : Int} (hc : s.clusterAsleep (ch / 4) = false)
    (hoff : s.chanOff ch = false) (hv : outOfRange v = false) {held : Prop}
    (hheld : held ↔ s.flag Fld.AFE_CFG_OVR_HOLD ch = true ∧ (s.afeOf ch).exc.isSome = true) :
    (core = true ∨ s.ovrAt ch (.ofTu (s.at t).time) = true ∨ held → s.fld Fld.AFE_OVR_CNT_COUNT ch < 2 ^ 32 - 1 →
      ∃ u, s.done ((s.at t).judgeSample ch v core) = .next u ∧
        u.fld Fld.AFE_OVR_CNT_COUNT ch = s.fld Fld.AFE_OVR_CNT_COUNT ch + 1 ∧ u.flag Fld.AFE_STATUS_OVR ch = true ∧
        (u.afeOf ch).exc = none ∧ (held → (u.afeOf ch).hold =
          some ((Ratio.ofTu (s.at t).time).add (holdSpan ((s.afeOf ch).exc.getD 0)))) ∧
        (s.flag Fld.AFE_STATUS_OVR ch = false → s.fld Fld.EVT_ROUTE_KIND (80 + 8 * ch) ≠ 1 →
          u.evtStatus (80 + 8 * ch) = true) ∧
        onlyRaising s u [⟨.AFE_OVR_CNT, ch⟩, ⟨.AFE_STATUS, ch⟩] [80 + 8 * ch]) ∧
    (core = false → s.ovrAt ch (.ofTu (s.at t).time) = false → ¬ held →
      ∃ u, s.done ((s.at t).judgeSample ch v core) = .next u ∧ (u.afeOf ch).exc = none ∧ onlyRegs s u []) := by
  obtain ⟨b, hb⟩ : ∃ b, b = (s.at t).backInside ch := ⟨_, rfl⟩
  obtain ⟨hr, hm, ht, hp, hexc, hhold, hnot⟩ := (s.at t).backInside_reads ch
  rw [← hb] at hr hm ht hp hexc hhold hnot
  rw [State.at_flag, State.at_afeOf, State.at_ovrAt, ← hheld] at *
  have hovr : b.ovrOf ch v core = (core || b.ovrAt ch (.ofTu (s.at t).time)) := by
    rw [State.ovrOf, hv, Bool.false_or, ht]
  have hj : (s.at t).judgeSample ch v core = if b.ovrOf ch v core = true then
      (b.noteSample ch (max (-512) (min v 511)) (b.ovrOf ch v core)).ovrSample ch
      else b.noteSample ch (max (-512) (min v 511)) (b.ovrOf ch v core) := by
    rw [State.judgeSample, hv, if_neg Bool.false_ne_true, ← hb]
  obtain ⟨x, hx⟩ : ∃ x, x = b.noteSample ch (max (-512) (min v 511)) (b.ovrOf ch v core) := ⟨_, rfl⟩
  rw [hj, ← hx]
  have hxr : x.regs = (s.at t).regs := by rw [hx]; exact hr
  have hxm : x.mem = (s.at t).mem := by rw [hx]; exact hm
  have hxa : x.afe = b.afe := by rw [hx]; rfl
  constructor
  · intro h hcnt
    have hyes : b.ovrOf ch v core = true := by
      rw [hovr, Bool.or_eq_true]
      rcases h with h | h | h
      · exact .inl h
      · by_cases hh : held
        · exact .inr (hhold hh).2
        · exact .inr ((hnot hh).trans h)
      · exact .inr (hhold h).2
    obtain ⟨u, hu, h1, h2, -, h4, h5, ho⟩ := ovrSample_reads (x := x) t ch hc
      (by rw [State.chanOff, show x.pitch = s.pitch by rw [hx]; exact hp.trans (s.at_pitch t)]; exact hoff)
      (.of_eq hxr hxm (.refl _ _))
      (by rw [State.flag, State.fld, State.reg, hxr, State.at_regs]; rfl) hcnt
    have hau : u.afeOf ch = b.afeOf ch := State.afeOf_of_eq (by rw [h4, hxa]) ch
    exact ⟨u, by rw [hyes, if_pos rfl]; exact hu, h1, h2, by rw [hau]; exact hexc,
      fun h => by rw [hau]; exact (hhold h).1, h5, ho⟩
  · intro hcore hat hno
    have hn : b.ovrOf ch v core = false := by rw [hovr, hcore, hnot hno, hat]; rfl
    obtain ⟨hd, ho⟩ := State.done_onlyRegs (.of_eq hxr hxm (.refl (s.at t) [])) rfl
    refine ⟨x, by rw [hn, if_neg Bool.false_ne_true]; exact hd, ?_, ho⟩
    rw [State.afeOf_of_eq hxa]
    exact hexc

theorem afeOverdrive_peaks (t : Tu) (ch : Fin 16) (over4 : Bool) (ha : s.alive = true)
    (hc : s.clusterAsleep (ch / 4) = false) (hoff : s.chanOff ch = false) :
    ∃ u, exec (.afeOverdrive t ch over4) s = .next u ∧
      u.fld Fld.AFE_STATUS_PEAK ch = max (if over4 then 3 else 2) (s.fld Fld.AFE_STATUS_PEAK ch) ∧
      (s.fld Fld.AFE_STATUS_PEAK ch < (if over4 then 3 else 2) → s.fld Fld.EVT_ROUTE_KIND (81 + 8 * ch) ≠ 1 →
        u.evtStatus (81 + 8 * ch) = true) ∧ onlyRaising s u [⟨.AFE_STATUS, ch⟩] [81 + 8 * ch] := by
  obtain ⟨cls, hcls⟩ : ∃ cls, cls = if over4 then 3 else 2 := ⟨_, rfl⟩
  have hcl : cls < 4 := by rw [hcls]; split <;> decide
  obtain ⟨a, haf⟩ : ∃ a, a = (s.at t).modAfe ch fun a => { a with exc := some (max cls (a.exc.getD 0)) } := ⟨_, rfl⟩
  have hap : a.fld Fld.AFE_STATUS_PEAK ch = s.fld Fld.AFE_STATUS_PEAK ch := by rw [haf]; exact State.at_fld _ _ _ _
  obtain ⟨w, hw⟩ : ∃ w, w = a.setFld Fld.AFE_STATUS_PEAK ch (max cls (s.fld Fld.AFE_STATUS_PEAK ch)) := ⟨_, rfl⟩
  have hwo : onlyRegs (s.at t) w [⟨.AFE_STATUS, ch⟩] := by
    rw [hw, haf]
    exact .setFld (by simp) (.of_eq rfl rfl (.refl _ _))
  have hexec : exec (.afeOverdrive t ch over4) s =
      s.done (if s.fld Fld.AFE_STATUS_PEAK ch < cls then w.raise (80 + 8 * ch + 1) 1 0 else w) := by
    have hpk : a.peak ch cls = w := by rw [State.peak, hap, hw]
    have hoffw : w.chanOff ch = false := by rw [hw, haf]; exact (s.at_chanOff t ch).trans hoff
    rw [exec, execAfeOverdrive, State.when_eq ha, State.at_chanOff, State.at_clusterAsleep, hoff, hc, if_neg (by simp)]
    dsimp only
    rw [← hcls, State.at_fld, ← haf, hpk, State.afeEvent_eq _ _ _ hoffw]
  obtain ⟨u, hu, hr⟩ := State.done_raisedIf (c := s.fld Fld.AFE_STATUS_PEAK ch < cls) (causes := 1) (info := 0) hwo
    (by rfl) (followsRaise_chan ch (k := 1) (by decide))
  have hk : 81 + 8 * ch.val = 80 + 8 * ch + 1 := by omega
  rw [← hcls, hk]
  refine ⟨u, hexec.trans hu, ?_, fun h hkind => hr.status h (State.raisable_chan (by decide) hc hkind), hr.only⟩
  have hlt : s.fld Fld.AFE_STATUS_PEAK ch < 4 := s.fld_lt _ _
  rw [hr.fld _ _ rfl, hw, State.fld_setFld_of_lt _ _ _ (by decide) (show _ < 4 by omega)]

theorem ovrHoldEnd_ends (t : Tu) (ch : Fin 16) {e : Ratio} (ha : s.alive = true) (he : (s.afeOf ch).hold = some e)
    (hle : e.le (.ofTu (s.at t).time) = true) :
    ∃ u, exec (.ovrHoldEnd t ch) s = .next u ∧ (u.afeOf ch).hold = none ∧ onlyRegs s u [] := by
  obtain ⟨w, hw⟩ : ∃ w, w = (s.at t).modAfe ch fun a => { a with hold := none } := ⟨_, rfl⟩
  obtain ⟨hd, ho⟩ := State.done_onlyRegs (s := s) (x := t) (t := w) (but := [])
    (by rw [hw]; exact .of_eq rfl rfl (.refl _ _)) rfl
  refine ⟨w, ?_, ?_, ho⟩
  · rw [exec, execOvrHoldEnd, State.when_eq ha, State.at_afeOf, he]
    dsimp only
    rw [if_pos hle, ← hw]
    exact hd
  · rw [hw, State.afeOf_modAfe]

/-! ### The common mode -/

/-- What a common mode inside its window leaves of a front end, `since` being the end of the first such window. -/
def Afe.cmInside (since now : Tu) (a : Afe) : Afe :=
  match a.cmOvr with
  | none => a
  | some b =>
    if tuLe (tuAdd since (ns 1000)) now then
      { a with cmIn := none, cmOvr := none, spans := (.ofTu b, .ofTu now) :: a.spans }
    else { a with cmIn := some since }

theorem afeCmWindow_judges (t : Tu) (ch : Fin 16) (cm : BitVec 16) (ha : s.alive = true)
    (hc : s.clusterAsleep (ch / 4) = false) (hoff : s.chanOff ch = false) :
    ∃ u, exec (.afeCmWindow t ch cm) s = .next u ∧ u.fld Fld.AFE_CM_MEAS_CM ch = cm.toNat ∧
      (cm.toInt < -520 ∨ 1520 < cm.toInt → u.flag Fld.AFE_STATUS_CM_ERR ch = true ∧ (u.afeOf ch).cmOvr.isSome = true ∧
        (s.flag Fld.AFE_STATUS_CM_ERR ch = false → s.fld Fld.EVT_ROUTE_KIND (82 + 8 * ch) ≠ 1 →
          u.evtStatus (82 + 8 * ch) = true)) ∧
      (-500 ≤ cm.toInt → cm.toInt ≤ 1500 → u.flag Fld.AFE_STATUS_CM_ERR ch = false ∧ sameSource s u (82 + 8 * ch)) ∧
      onlyRaising s u [⟨.AFE_CM_MEAS, ch⟩, ⟨.AFE_STATUS, ch⟩] [82 + 8 * ch] := by
  have hk : 82 + 8 * ch.val = 80 + 8 * ch + 2 := by omega
  rw [hk]
  obtain ⟨m, hm⟩ : ∃ m, m = (s.at t).setFld Fld.AFE_CM_MEAS_CM ch cm.toNat := ⟨_, rfl⟩
  have hmo : onlyRegs (s.at t) m [⟨.AFE_CM_MEAS, ch⟩, ⟨.AFE_STATUS, ch⟩] := by rw [hm]; exact .setFld (by simp) (.refl _ _)
  have hmcm : m.fld Fld.AFE_CM_MEAS_CM ch = cm.toNat := by
    rw [hm, State.fld_setFld_eq _ _ _ _ (by decide)]
    exact Nat.mod_eq_of_lt cm.isLt
  by_cases hbad : cm.toInt < -520 ∨ 1520 < cm.toInt
  · obtain ⟨w, hw⟩ : ∃ w, w = ((m.setFld Fld.AFE_STATUS_CM_ERR ch 1).setFld Fld.AFE_STATUS_CM_SEEN ch 1).modAfe ch fun a =>
      { a with cmIn := none, cmOvr := some (a.cmOvr.getD (s.at t).time) } := ⟨_, rfl⟩
    have hwr : w.regs = ((m.setFld Fld.AFE_STATUS_CM_ERR ch 1).setFld Fld.AFE_STATUS_CM_SEEN ch 1).regs := by rw [hw]; rfl
    have hwf : ∀ f, w.fld f ch =
        ((m.setFld Fld.AFE_STATUS_CM_ERR ch 1).setFld Fld.AFE_STATUS_CM_SEEN ch 1).fld f ch := fun f => by
      rw [State.fld, State.reg, hwr]; rfl
    have hwo : onlyRegs (s.at t) w [⟨.AFE_CM_MEAS, ch⟩, ⟨.AFE_STATUS, ch⟩] := by
      refine .of_eq hwr (by rw [hw]; rfl) ?_
      exact .setFld (by simp) (.setFld (by simp) hmo)
    have hexec : exec (.afeCmWindow t ch cm) s = s.done (if s.flag Fld.AFE_STATUS_CM_ERR ch = false then
        w.raise (80 + 8 * ch + 2) 1 0 else w) := by
      have hoffw : w.chanOff ch = false := by rw [hw, hm]; exact (s.at_chanOff t ch).trans hoff
      rw [exec, execAfeCmWindow, State.when_eq ha, State.at_clusterAsleep, hc, if_neg Bool.false_ne_true]
      dsimp only
      rw [if_pos hbad, ← hm, ← hw, State.afeEvent_eq _ _ _ hoffw, State.at_flag]
      cases s.flag Fld.AFE_STATUS_CM_ERR ch <;> rfl
    obtain ⟨u, hu, hr⟩ := State.done_raisedIf (c := s.flag Fld.AFE_STATUS_CM_ERR ch = false) (causes := 1) (info := 0) hwo
      (by rfl) (followsRaise_chan ch (k := 2) (by decide))
    refine ⟨u, hexec.trans hu, ?_, fun _ => ⟨?_, ?_, fun h hkind => hr.status h (State.raisable_chan (by decide) hc hkind)⟩,
      fun _ _ => by omega, hr.only⟩
    · rw [hr.fld _ _ rfl, hwf]
      simp [hmcm]
    · rw [State.flag, hr.fld _ _ rfl, hwf]
      simp
    · rw [State.afeOf_of_eq hr.raises.afe, hw, State.afeOf_modAfe]
      rfl
  · by_cases hin : -500 ≤ cm.toInt ∧ cm.toInt ≤ 1500
    · obtain ⟨g, hgd⟩ : ∃ g, g = Afe.cmInside ((((s.at t).afeOf ch).cmIn).getD ((s.at t).time - BitVec.ofNat 64 (ns 100)))
        (s.at t).time := ⟨_, rfl⟩
      have hg : exec (.afeCmWindow t ch cm) s = s.done ((m.setFld Fld.AFE_STATUS_CM_ERR ch 0).modAfe ch g) := by
        rw [exec, execAfeCmWindow, State.when_eq ha, State.at_clusterAsleep, hc, if_neg Bool.false_ne_true]
        dsimp only
        rw [if_neg hbad, if_pos hin, hgd, hm]
        rfl
      obtain ⟨w, hw⟩ : ∃ w, w = (m.setFld Fld.AFE_STATUS_CM_ERR ch 0).modAfe ch g := ⟨_, rfl⟩
      have hwo : onlyRegs (s.at t) w [⟨.AFE_CM_MEAS, ch⟩, ⟨.AFE_STATUS, ch⟩] := by
        rw [hw]
        exact .of_eq rfl rfl (.setFld (t := m) (f := Fld.AFE_STATUS_CM_ERR) (i := ch) (x := 0) (by simp) hmo)
      have hwf : ∀ f, w.fld f ch = (m.setFld Fld.AFE_STATUS_CM_ERR ch 0).fld f ch := fun f => by rw [hw]; rfl
      obtain ⟨hd, ho⟩ := State.done_onlyRegs hwo rfl
      have hor : onlyRaising s w [⟨.AFE_CM_MEAS, ch⟩, ⟨.AFE_STATUS, ch⟩] [] := ho.raising rfl
      refine ⟨w, by rw [hg, ← hw]; exact hd, ?_, fun h => absurd h hbad, fun _ _ => ⟨?_, ?_⟩, hor.mono (fun _ h => h) (by simp)⟩
      · rw [hwf]
        simp [hmcm]
      · rw [State.flag, hwf]
        simp
      · exact hor.2.1 _ (by simp) (followsRaise_chan ch (k := 2) (by decide))
    · obtain ⟨w, hw⟩ : ∃ w, w = m.modAfe ch fun a => { a with cmIn := none } := ⟨_, rfl⟩
      have hwo : onlyRegs (s.at t) w [⟨.AFE_CM_MEAS, ch⟩, ⟨.AFE_STATUS, ch⟩] := by
        rw [hw]
        exact .of_eq rfl rfl hmo
      obtain ⟨hd, ho⟩ := State.done_onlyRegs hwo rfl
      refine ⟨w, ?_, ?_, fun h => absurd h hbad, fun h1 h2 => absurd ⟨h1, h2⟩ hin, ho.raising rfl⟩
      · rw [exec, execAfeCmWindow, State.when_eq ha, State.at_clusterAsleep, hc, if_neg Bool.false_ne_true]
        dsimp only
        rw [if_neg hbad, if_neg hin, ← hm, ← hw]
        exact hd
      · rw [← hmcm, hw]
        rfl

theorem overrangeIsWatched_holds : overrangeIsWatched := by
  intro s t ch ha hc hoff
  refine ⟨fun raw core => ?_, fun over4 => afeOverdrive_peaks t ch over4 ha hc hoff,
    fun e he hle => ovrHoldEnd_ends t ch ha he hle, fun cm => afeCmWindow_judges t ch cm ha hc hoff⟩
  dsimp only
  rw [execAfeOvr_eq t ch raw core ha hc hoff]
  generalize (s.at t).corrected ch ((s.at t).sampleAt (ch / 8) (s.ilv ch) (.ofTu (s.at t).time)) raw = v
  cases hv : outOfRange v with
  | true =>
    refine ⟨fun _ hcnt => ?_, fun h => by cases h⟩
    obtain ⟨u, hu, h1, h2, h3, h4, h5, ho⟩ := afeOvr_outside t ch core hc hoff hv hcnt
    exact ⟨u, hu, h1, h2, fun _ => ⟨h3, h4⟩, fun h => (by cases h), h5, ho⟩
  | false =>
    obtain ⟨hyes, hno⟩ := afeOvr_inside t ch core hc hoff hv Iff.rfl
    refine ⟨fun h hcnt => ?_, fun _ => hno⟩
    obtain ⟨u, hu, h1, h2, h3, h4, h5, ho⟩ := hyes (by simpa using h) hcnt
    exact ⟨u, hu, h1, h2, fun h => (by cases h), fun _ => ⟨h3, h4⟩, h5, ho⟩

/-- Settles O25. -/
theorem frontEndsAreWatched : Obligations.FrontEndsAreWatched := ⟨frontEndsSettle_holds, overrangeIsWatched_holds⟩

end Sys2Proof.Machine
end

section
/-! SUPPORT. The calibration slots of flash: saves, restores and their information (R175, R176). -/

namespace Sys2Proof.Machine

variable {s t u w : State} {but : List Reg} {srcs : List Nat}

/-! ### Entries of a table -/

theorem find?_tins {α : Type} (m : Tab α) (k : Nat) (v : α) (j : Nat) :
    (tins m k v).find? (fun e => e.1 == j) = if j = k then some (k, v) else m.find? fun e => e.1 == j := by
  induction m with
  | nil =>
    by_cases h : j = k
    · simp [tins, h]
    · simp [tins, h, show (k == j) = false by simp; omega]
  | cons x m ih =>
    obtain ⟨i, y⟩ := x
    rw [tins]
    by_cases h : j = k
    · subst h
      by_cases h1 : j < i
      · simp [h1]
      · by_cases h2 : j = i
        · simp [h2]
        · simp [h1, h2, show (i == j) = false by simp; omega, ih]
    · have hkj : (k == j) = false := by simp; omega
      by_cases h1 : k < i
      · simp [h1, h, hkj]
      · by_cases h2 : k = i
        · simp [h2, show (i == j) = false by simp; omega, show ¬ j = i by omega]
        · simp only [h1, h2, if_false, List.find?_cons, ih, h]

/-- The entries of a table after one has been inserted for each member of a list. -/
theorem find?_foldl_tins {α : Type} (κ : Nat → Nat) (hκ : ∀ a b, κ a = κ b → a = b) (g : Nat → α) (l : List Nat)
    (m : Tab α) {a : Nat} (ha : a ∈ l) :
    (l.foldl (fun m x => tins m (κ x) (g x)) m).find? (fun e => e.1 == κ a) = some (κ a, g a) := by
  have hkeep : ∀ (l : List Nat) (m : Tab α), m.find? (fun e => e.1 == κ a) = some (κ a, g a) →
      (l.foldl (fun m x => tins m (κ x) (g x)) m).find? (fun e => e.1 == κ a) = some (κ a, g a) := fun l => by
    induction l with
    | nil => exact fun m h => h
    | cons b l ih =>
      intro m h
      refine ih _ ?_
      rw [find?_tins]
      split
      · next hab => rw [hκ _ _ hab]
      · exact h
  induction l generalizing m with
  | nil => exact absurd ha List.not_mem_nil
  | cons b l ih =>
    rw [List.foldl_cons]
    rcases List.mem_cons.1 ha with rfl | ha
    · exact hkeep l _ (by rw [find?_tins, if_pos rfl])
    · exact ih _ ha

/-! ### What a running command finds of the lanes -/

/-- The registers and components that calibration reads are as in `s`. -/
structure CalSame (s t : State) : Prop where
  reg : ∀ n i, n ≠ .MGT_MB_STATE → n ≠ .HUB_PITCH_STATUS → t.reg n i = s.reg n i
  pitch : t.pitch = s.pitch
  lanes : t.lanes = s.lanes
  flash : t.mgt.flash = s.mgt.flash

theorem State.mbRunning_cal (s : State) (x : Tu) (tag : Byte) : CalSame s ((s.at x).mbRunning tag) := by
  obtain ⟨-, hro, hrk, -⟩ := (s.at x).mbRunning_reads tag
  refine ⟨fun n i h1 h2 => (hro.1 _ _ (by simp [h1, h2])).trans (State.at_reg _ _ _ _), ?_, ?_, ?_⟩
  · rw [hrk.pitch, State.at_pitch]
  · rw [hrk.lanes, State.at_lanes]
  · rw [hrk.flash, State.at_mgt]

theorem CalSame.fld (h : CalSame s t) (f : Fld) (i : Nat) (h1 : f.reg ≠ .MGT_MB_STATE) (h2 : f.reg ≠ .HUB_PITCH_STATUS) :
    t.fld f i = s.fld f i := State.fld_of_reg (h.reg _ _ h1 h2)

theorem CalSame.ilv (h : CalSame s t) (ln : Nat) : t.ilv ln = s.ilv ln := by rw [State.ilv, h.pitch]; rfl
theorem CalSame.firstLane (h : CalSame s t) (ln : Nat) : t.firstLane ln = s.firstLane ln := by
  rw [State.firstLane, h.ilv]; rfl
theorem CalSame.groupOf (h : CalSame s t) (ln : Nat) : t.groupOf ln = s.groupOf ln := by rw [State.groupOf, h.ilv]; rfl
theorem CalSame.combo (h : CalSame s t) (ln : Nat) : t.combo ln = s.combo ln := by
  rw [State.combo, h.firstLane, h.fld _ _ (by simp) (by simp), h.fld _ _ (by simp) (by simp)]; rfl
theorem CalSame.rateNow (h : CalSame s t) (e : Nat) : t.rateNow e = s.rateNow e := h.fld _ _ (by simp) (by simp)
theorem CalSame.dieTemp (h : CalSame s t) (e : Nat) : t.dieTemp e = s.dieTemp e := by
  rw [State.dieTemp, h.fld _ _ (by simp) (by simp)]; rfl
theorem CalSame.stale (h : CalSame s t) (ln : Nat) : t.stale ln = s.stale ln :=
  State.flag_of_reg (h.reg _ _ (by simp) (by simp))
theorem CalSame.settled (h : CalSame s t) (e : Nat) : t.settled e = s.settled e :=
  State.flag_of_reg (h.reg _ _ (by simp) (by simp))
theorem CalSame.setOf (h : CalSame s t) (ln i c : Nat) : t.setOf ln i c = s.setOf ln i c := by
  rw [State.setOf, h.flash, State.lane, h.lanes]; rfl
theorem CalSame.calAt (h : CalSame s t) (slot ln : Nat) : t.calAt slot ln = s.calAt slot ln := by
  rw [State.calAt, h.flash]; rfl

theorem CalSame.calEntry (h : CalSame s t) (ln : Nat) (ok : Bool) : t.calEntry ln ok = s.calEntry ln ok := by
  simp only [State.calEntry, h.setOf, h.combo, h.rateNow, h.ilv, h.firstLane, h.dieTemp]

theorem CalSame.calReason (h : CalSame s t) (slot ln : Nat) : t.calReason slot ln = s.calReason slot ln := by
  simp only [State.calReason, h.stale, h.settled, h.calAt, h.combo, h.rateNow, h.ilv, h.firstLane, h.dieTemp]

theorem CalSame.groupReason (h : CalSame s t) (slot mask ln : Nat) :
    t.groupReason slot mask ln = s.groupReason slot mask ln := by
  have hc : t.calReason slot = s.calReason slot := funext fun ln => h.calReason slot ln
  simp only [State.groupReason, hc, h.groupOf, h.firstLane]

/-! ### Saves -/

theorem State.calAt_of_flash (h : t.mgt.flash = s.mgt.flash) (slot ln : Nat) : t.calAt slot ln = s.calAt slot ln := by
  rw [State.calAt, h]; rfl

/-- The state after a save of lanes. -/
def State.calSaved (s : State) (slot : Nat) (lanes : List Nat) (good : Bool) : State :=
  { s.used with mgt := { s.mgt with flash := { s.mgt.flash with
      cal := lanes.foldl (fun m ln => tins m (16 * slot + ln) (s.calEntry ln good)) s.mgt.flash.cal } } }

theorem State.calSaved_calAt (s : State) (slot : Nat) (lanes : List Nat) (good : Bool) {ln : Nat} (h : ln ∈ lanes) :
    (s.calSaved slot lanes good).calAt slot ln = some (s.calEntry ln good) := by
  rw [State.calAt, State.calSaved]
  dsimp only
  rw [find?_foldl_tins (fun ln => 16 * slot + ln) (fun a b h => by omega) (fun ln => s.calEntry ln good) lanes _ h]
  rfl

/-- The lanes that a save writes. -/
def State.savable (s : State) (mask : Nat) : List Nat :=
  (bitsOf 16 mask).filter fun ln => !s.stale ln && s.settled (ln / 8)

theorem CalSame.savable (h : CalSame s t) (mask : Nat) : t.savable mask = s.savable mask := by
  simp only [State.savable, h.stale, h.settled]

theorem State.calSave_writes (s : State) (args : List Word) (h : argAt args 0 ≤ 7) :
    s.calSave args true = ⟨s.calSaved (argAt args 0) (s.savable (argAt args 1)) true, mbOk,
      [w32 (((s.savable (argAt args 1)).map fun ln => 2 ^ ln).sum)]⟩ := by
  rw [State.calSave, if_neg (by omega)]
  rfl

theorem State.calSave_fails (s : State) (args : List Word) (h : argAt args 0 ≤ 7) :
    ∃ good, s.calSave args false =
      mbFail ((s.calSaved (argAt args 0) (s.savable (argAt args 1)) good).raise0 467) mbFlash := by
  refine ⟨s.freeBelow 2 == 0, ?_⟩
  rw [State.calSave, if_neg (by omega)]
  rfl

theorem mbCalSave_saves (t : Tu) (tag : Byte) (h7 : argAt s.mbArgs 0 ≤ 7) (hb : boxReady s 0x20) :
    ∃ u, exec (.mbCalSave t tag true) s = .next u ∧
      (∀ ln ∈ s.savable (argAt s.mbArgs 1), u.calAt (argAt s.mbArgs 0) ln = some (s.calEntry ln true)) ∧
      u.reg .MGT_MB_RES 0 = w32 ((s.savable (argAt s.mbArgs 1)).map fun ln => 2 ^ ln).sum ∧ boxDone s u tag mbOk ∧
      onlyRaising s u boxRegs [456] := by
  have hcal := s.mbRunning_cal t tag
  obtain ⟨r, hr⟩ : ∃ r, r = (s.at t).mbRunning tag := ⟨_, rfl⟩
  rw [← hr] at hcal
  obtain ⟨x, hx⟩ : ∃ x, x = r.calSaved (argAt s.mbArgs 0) (s.savable (argAt s.mbArgs 1)) true := ⟨_, rfl⟩
  have he : r.calSave s.mbArgs true = ⟨x, mbOk, [w32 (((s.savable (argAt s.mbArgs 1)).map fun ln => 2 ^ ln).sum)]⟩ := by
    rw [r.calSave_writes _ h7, hcal.savable, hx]
  have hro : onlyRaising r x [] [] := by rw [hx]; exact .of_eq rfl rfl (.refl r [] [])
  rw [hr] at he hro
  obtain ⟨u, hu, hdone, hk, huo, hres⟩ := mbWhen_ends t tag hb (f := fun s a => s.calSave a true) he hro (by simp)
    (show mbOk < 256 by decide)
  refine ⟨u, ?_, fun ln hln => ?_, hres 0 (by simp) (by decide), hdone,
    mbRunning_only hb (by decide) (hro.mono (by simp) (by simp)) huo (fun _ h => h) (by simp)⟩
  · rw [exec, execMbCalSave]
    exact hu
  · rw [State.calAt_of_flash hk.flash, hx, State.calSaved_calAt _ _ _ _ hln, hcal.calEntry]

theorem mbCalSave_fails (t : Tu) (tag : Byte) (h7 : argAt s.mbArgs 0 ≤ 7) (hb : boxReady s 0x20) :
    ∃ u, exec (.mbCalSave t tag false) s = .next u ∧ boxDone s u tag mbFlash ∧
      (s.fld Fld.EVT_ROUTE_KIND 467 ≠ 1 → u.evtStatus 467 = true) ∧ onlyRaising s u boxRegs [456, 467] := by
  have hcal := s.mbRunning_cal t tag
  obtain ⟨r, hr⟩ : ∃ r, r = (s.at t).mbRunning tag := ⟨_, rfl⟩
  rw [← hr] at hcal
  obtain ⟨good, he⟩ := r.calSave_fails s.mbArgs h7
  obtain ⟨x, hx⟩ : ∃ x, x = r.calSaved (argAt s.mbArgs 0) (r.savable (argAt s.mbArgs 1)) good := ⟨_, rfl⟩
  rw [← hx] at he
  have hrx : onlyRaising r x [] [467] := by rw [hx]; exact .of_eq rfl rfl (.refl r [] _)
  have hro : onlyRaising r (x.raise0 467) [] [467] := .raise0 (by simp) hrx
  have hk467 : x.fld Fld.EVT_ROUTE_KIND 467 = s.fld Fld.EVT_ROUTE_KIND 467 :=
    (hrx.fld (by simp) rfl).trans (hcal.fld _ _ (by simp) (by simp))
  rw [hr] at he hro
  obtain ⟨u, hu, hdone, hk, huo, -⟩ := mbWhen_ends t tag hb (f := fun s a => s.calSave a false) he hro (by simp)
    (show mbFlash < 256 by decide)
  refine ⟨u, ?_, hdone, fun h => ?_, mbRunning_only hb (by decide) (hro.mono (by simp) (by simp))
    huo (fun _ h => h) (by simp)⟩
  · rw [exec, execMbCalSave]
    exact hu
  · rw [huo.evtStatus (by decide) (by rfl)]
    exact State.raise0_hubSource rfl (by rw [hk467]; exact h)

/-! ### Restores -/

@[simp] theorem State.lane_modLane (s : State) (ln : Nat) (f : Lane → Lane) : (s.modLane ln f).lane ln = f (s.lane ln) :=
  tget_tmod_same _ _ _ _
@[simp] theorem State.lane_modLane_ne (s : State) {ln j : Nat} (f : Lane → Lane) (h : j ≠ ln) :
    (s.modLane ln f).lane j = s.lane j := tget_tmod_other _ _ _ h

/-- One lane is loaded from a slot: its table waits for a tick. -/
def State.laneLoaded (s0 : State) (slot : Nat) (x : State) (ln : Nat) : State :=
  match s0.calAt slot ln with
  | none => x
  | some c => x.modLane ln fun l => { l with restored := some (s0.time, 3 * c.range + c.filter, c.sets) }

theorem State.laneLoaded_other (s0 : State) (slot : Nat) (x : State) {ln j : Nat} (h : j ≠ ln) :
    (s0.laneLoaded slot x ln).lane j = x.lane j := by
  unfold State.laneLoaded
  split
  · rfl
  · exact x.lane_modLane_ne _ h

theorem State.lanesLoaded_other (s0 : State) (slot : Nat) (l : List Nat) (x : State) {j : Nat} (h : j ∉ l) :
    (l.foldl (s0.laneLoaded slot) x).lane j = x.lane j := by
  induction l generalizing x with
  | nil => rfl
  | cons a l ih =>
    rw [List.foldl_cons, ih _ fun hm => h (List.mem_cons_of_mem _ hm)]
    exact s0.laneLoaded_other slot x fun hm => h (by simp [hm])

theorem State.lanesLoaded_restored (s0 : State) (slot : Nat) (l : List Nat) (x : State) {j : Nat} {c : CalEntry}
    (hc : s0.calAt slot j = some c) (h : j ∈ l) :
    ((l.foldl (s0.laneLoaded slot) x).lane j).restored = some (s0.time, 3 * c.range + c.filter, c.sets) := by
  induction l generalizing x with
  | nil => exact absurd h List.not_mem_nil
  | cons a l ih =>
    rw [List.foldl_cons]
    by_cases hj : j ∈ l
    · exact ih _ hj
    · rcases List.mem_cons.1 h with rfl | h
      · rw [s0.lanesLoaded_other slot l _ hj, State.laneLoaded, hc]
        dsimp only
        rw [State.lane_modLane]
      · exact absurd h hj

theorem State.lanesLoaded_same (s0 : State) (slot : Nat) (l : List Nat) (x : State) :
    (l.foldl (s0.laneLoaded slot) x).regs = x.regs ∧ (l.foldl (s0.laneLoaded slot) x).mem = x.mem := by
  refine ⟨foldl_keeps State.regs (fun a i => ?_) l x, foldl_keeps State.mem (fun a i => ?_) l x⟩ <;>
  · unfold State.laneLoaded
    split <;> rfl

/-- The lanes named that pass, or do not. -/
def State.loadable (s : State) (slot mask : Nat) : List Nat :=
  (bitsOf 16 mask).filter fun ln => s.groupReason slot mask ln == 0
def State.unloadable (s : State) (slot mask : Nat) : List Nat :=
  (bitsOf 16 mask).filter fun ln => s.groupReason slot mask ln != 0

theorem State.calRestore_eq (s : State) (args : List Word) (h : argAt args 0 ≤ 7) :
    s.calRestore args =
      ⟨(s.loadable (argAt args 0) (argAt args 1 % 2 ^ 16)).foldl (s.laneLoaded (argAt args 0)) s, mbOk,
        [w32 (((s.loadable (argAt args 0) (argAt args 1 % 2 ^ 16)).map fun ln => 2 ^ ln).sum),
          w32 (((s.unloadable (argAt args 0) (argAt args 1 % 2 ^ 16)).map fun ln => 2 ^ ln).sum),
          w32 (match (s.unloadable (argAt args 0) (argAt args 1 % 2 ^ 16)).head? with
            | none => 0
            | some ln => s.groupReason (argAt args 0) (argAt args 1 % 2 ^ 16) ln)]⟩ := by
  rw [State.calRestore, if_neg (by omega)]
  rfl

theorem mbCalRestore_loads (t : Tu) (tag : Byte) (h7 : argAt s.mbArgs 0 ≤ 7) (hb : boxReady s 0x21) :
    ∃ u, exec (.mbCalRestore t tag) s = .next u ∧ boxDone s u tag mbOk ∧
      (∀ ln ∈ bitsOf 16 (argAt s.mbArgs 1 % 2 ^ 16), ∀ c, s.calAt (argAt s.mbArgs 0) ln = some c →
        (s.groupReason (argAt s.mbArgs 0) (argAt s.mbArgs 1 % 2 ^ 16) ln = 0 →
          (u.lane ln).restored = some ((s.at t).time, 3 * c.range + c.filter, c.sets)) ∧
        (s.groupReason (argAt s.mbArgs 0) (argAt s.mbArgs 1 % 2 ^ 16) ln ≠ 0 → u.lane ln = s.lane ln)) ∧
      u.reg .MGT_MB_RES 0 =
        w32 ((s.loadable (argAt s.mbArgs 0) (argAt s.mbArgs 1 % 2 ^ 16)).map fun ln => 2 ^ ln).sum ∧
      u.reg .MGT_MB_RES 1 =
        w32 ((s.unloadable (argAt s.mbArgs 0) (argAt s.mbArgs 1 % 2 ^ 16)).map fun ln => 2 ^ ln).sum ∧
      onlyRaising s u boxRegs [456] := by
  have hcal := s.mbRunning_cal t tag
  have htime : ((s.at t).mbRunning tag).time = (s.at t).time := ((s.at t).mbRunning_reads tag).2.2.1.time
  obtain ⟨r, hr⟩ : ∃ r, r = (s.at t).mbRunning tag := ⟨_, rfl⟩
  rw [← hr] at hcal htime
  have hload : ∀ slot mask, r.loadable slot mask = s.loadable slot mask := fun slot mask => by
    simp only [State.loadable, hcal.groupReason]
  have hunload : ∀ slot mask, r.unloadable slot mask = s.unloadable slot mask := fun slot mask => by
    simp only [State.unloadable, hcal.groupReason]
  obtain ⟨x, hx⟩ : ∃ x, x = (s.loadable (argAt s.mbArgs 0) (argAt s.mbArgs 1 % 2 ^ 16)).foldl
    (r.laneLoaded (argAt s.mbArgs 0)) r := ⟨_, rfl⟩
  have he := r.calRestore_eq s.mbArgs h7
  rw [hload, hunload, ← hx] at he
  obtain ⟨hxr, hxm⟩ := r.lanesLoaded_same (argAt s.mbArgs 0)
    (s.loadable (argAt s.mbArgs 0) (argAt s.mbArgs 1 % 2 ^ 16)) r
  rw [← hx] at hxr hxm
  have hro : onlyRaising r x [] [] := .of_eq hxr hxm (.refl r [] [])
  rw [hr] at he hro
  obtain ⟨u, hu, hdone, hk, huo, hres⟩ := mbWhen_ends t tag hb (f := fun s a => s.calRestore a) he hro (by simp)
    (show mbOk < 256 by decide)
  have hlane : ∀ ln, u.lane ln = x.lane ln := fun ln => by rw [State.lane, hk.lanes]; rfl
  refine ⟨u, ?_, hdone, fun ln hln c hc => ⟨fun h0 => ?_, fun h0 => ?_⟩, hres 0 (by simp) (by decide),
    hres 1 (by simp) (by decide), mbRunning_only hb (by decide) (hro.mono (by simp) (by simp)) huo (fun _ h => h) (by simp)⟩
  · rw [exec, execMbCalRestore]
    exact hu
  · rw [hlane, hx, r.lanesLoaded_restored _ _ _ (by rw [hcal.calAt]; exact hc)
      (show ln ∈ s.loadable _ _ from List.mem_filter.2 ⟨hln, by rw [h0]; rfl⟩), htime]
  · rw [hlane, hx, r.lanesLoaded_other _ _ _ fun hm => h0 (by simpa using (List.mem_filter.1 hm).2), State.lane, hcal.lanes]
    rfl

theorem mbCalInfo_tells (t : Tu) (tag : Byte) {c : CalEntry} (h7 : argAt s.mbArgs 0 ≤ 7) (hb : boxReady s 0x22)
    (h15 : argAt s.mbArgs 1 ≤ 15) (hc : s.calAt (argAt s.mbArgs 0) (argAt s.mbArgs 1) = some c) (hok : c.crcOk = true) :
    ∃ u, exec (.mbCalInfo t tag) s = .next u ∧ boxDone s u tag mbOk ∧ u.reg .MGT_MB_RES 0 = 1 ∧
      u.reg .MGT_MB_RES 1 = w32 c.range ∧ u.reg .MGT_MB_RES 2 = w32 c.filter ∧ u.reg .MGT_MB_RES 3 = w32 c.rate ∧
      u.reg .MGT_MB_RES 4 = w32 (Nat.log2 c.ilv) ∧
      u.reg .MGT_MB_RES 5 = w32 (unsgn 32 c.temp) ∧ onlyRaising s u boxRegs [456] := by
  have hcal := s.mbRunning_cal t tag
  have he : ((s.at t).mbRunning tag).calInfo s.mbArgs = ⟨(s.at t).mbRunning tag, mbOk,
      [1#32, w32 c.range, w32 c.filter, w32 c.rate, w32 (Nat.log2 c.ilv), w32 (unsgn 32 c.temp)]⟩ := by
    rw [State.calInfo, if_neg (by omega), hcal.calAt, hc]
    dsimp only
    rw [hok, if_neg (by simp)]
  obtain ⟨u, hu, hdone, -, huo, hres⟩ := mbWhen_ends t tag hb (f := fun s a => s.calInfo a) he
    (onlyRaising.refl _ [] []) (by simp) (show mbOk < 256 by decide)
  refine ⟨u, ?_, hdone, hres 0 (by simp) (by decide), hres 1 (by simp) (by decide), hres 2 (by simp) (by decide),
    hres 3 (by simp) (by decide), hres 4 (by simp) (by decide), hres 5 (by simp) (by decide),
    mbRunning_only hb (by decide) (.refl _ _ _) huo (fun _ h => h) (by simp)⟩
  rw [exec, execMbCalInfo]
  exact hu

/-- Settles O27. -/
theorem calibrationSlotsHold : Obligations.CalibrationSlotsHold := by
  intro s t tag h7
  refine ⟨fun saved hsaved hb => ?_, fun hb => mbCalRestore_loads t tag h7 hb,
    fun c hb h15 hc hok => mbCalInfo_tells t tag h7 hb h15 hc hok⟩
  rw [hsaved]
  exact ⟨mbCalSave_saves t tag h7 hb, mbCalSave_fails t tag h7 hb⟩

end Sys2Proof.Machine
end

section
/-! SUPPORT. The spare lane: the phases of its dwell, its measurements, the handover, and FREEZE (R154 to R165). -/

namespace Sys2Proof.Machine

variable {s t u w : State} {but : List Reg} {srcs : List Nat}

@[simp] theorem State.at_lane (s : State) (t : Tu) (ln : Nat) : (s.at t).lane ln = s.lane ln := by
  rw [State.lane, State.at_lanes]; rfl
@[simp] theorem State.at_frozen (s : State) (t : Tu) (ln : Nat) : (s.at t).frozen ln = s.frozen ln := State.at_flag _ _ _ _
@[simp] theorem State.at_firstLane (s : State) (t : Tu) (ln : Nat) : (s.at t).firstLane ln = s.firstLane ln := by
  rw [State.firstLane, State.at_ilv]; rfl
@[simp] theorem State.at_groupOf (s : State) (t : Tu) (ln : Nat) : (s.at t).groupOf ln = s.groupOf ln := by
  rw [State.groupOf, State.at_ilv]; rfl
@[simp] theorem State.at_combo (s : State) (t : Tu) (ln : Nat) : (s.at t).combo ln = s.combo ln := by
  rw [State.combo, State.at_firstLane, State.at_fld, State.at_fld]; rfl
@[simp] theorem State.at_setOf (s : State) (t : Tu) (ln i c : Nat) : (s.at t).setOf ln i c = s.setOf ln i c := by
  rw [State.setOf, State.at_mgt, State.at_lane]; rfl
@[simp] theorem State.at_shadowWindows (s : State) (t : Tu) (ln : Nat) : (s.at t).shadowWindows ln = s.shadowWindows ln := by
  rw [State.shadowWindows, State.at_ilv]; rfl
@[simp] theorem State.at_shadowTarget (s : State) (t : Tu) (ln w : Nat) :
    (s.at t).shadowTarget ln w = s.shadowTarget ln w := by
  rw [State.shadowTarget, State.at_firstLane, State.at_ilv, State.at_lane]; rfl
@[simp] theorem State.at_goodPairs (s : State) (t : Tu) (ln : Nat) (m : ShadowMeas) :
    (s.at t).goodPairs ln m = s.goodPairs ln m := by
  have ht : ∀ c x, (s.at t).inTest c x = s.inTest c x := fun c x => by
    simp only [State.inTest, State.testing, State.at_dia]
  have hs : ∀ e, (s.at t).spllOf e = s.spllOf e := fun e => by rw [State.spllOf, State.at_spll]; rfl
  simp only [State.goodPairs, ht, hs, State.at_afeOf, State.at_firstLane]
@[simp] theorem State.at_windowActive (s : State) (t : Tu) (ln : Nat) (m : ShadowMeas) :
    (s.at t).windowActive ln m = s.windowActive ln m := by
  simp only [State.windowActive, State.at_goodPairs, State.at_fld, State.at_firstLane]

theorem State.lane_of_eq (h : t.lanes = s.lanes) (ln : Nat) : t.lane ln = s.lane ln := by rw [State.lane, h]; rfl

/-! ### REFERENCE and PRELOAD -/

theorem State.setOf_tins (s : State) (ln slice combo : Nat) (c : Corr) (f : Lane → Lane)
    (hf : ∀ l, (f l).sets = tins l.sets (9 * slice + combo) c) : (s.modLane ln f).setOf ln slice combo = c := by
  rw [State.setOf, State.lane_modLane, hf, tget_tins, if_pos rfl]

theorem calShadowStart_references (t : Tu) (ln : Fin 16) {d : Tu} (ofs gain : BitVec 16) (ha : s.alive = true)
    (hd : (s.lane ln).dwell = some d) (hph : s.fld Fld.ILV_LANE_STATUS_PHASE ln = 0)
    (hle : tuLe (tuAdd d (ns 1000000)) (s.at t).time = true) :
    ∃ u, exec (.calShadowStart t ln ofs gain) s = .next u ∧ u.fld Fld.ILV_LANE_STATUS_PHASE ln = 1 ∧
      (u.lane ln).window = 0 ∧
      (let slice := s.fld Fld.ILV_LANE_STATUS_SPARE ln
       (s.frozen ln = false → u.setOf ln slice (s.combo ln) =
         { s.setOf ln slice (s.combo ln) with ofs := ofs.toInt, gain := gain.toInt }) ∧
       (s.frozen ln = true → (u.lane ln).sets = (s.lane ln).sets)) ∧
      onlyRegs s u [⟨.ILV_LANE_STATUS, ln⟩] := by
  obtain ⟨r, hr⟩ : ∃ r, r = (s.at t).referenced ln ofs.toInt gain.toInt := ⟨_, rfl⟩
  obtain ⟨x, hx⟩ : ∃ x, x = r.modLane ln fun l => { l with window := 0 } := ⟨_, rfl⟩
  have hrs : r.regs = (s.at t).regs ∧ r.mem = (s.at t).mem ∧
      (s.frozen ln = false → r.setOf ln (s.fld Fld.ILV_LANE_STATUS_SPARE ln) (s.combo ln) =
        { s.setOf ln (s.fld Fld.ILV_LANE_STATUS_SPARE ln) (s.combo ln) with ofs := ofs.toInt, gain := gain.toInt }) ∧
      (s.frozen ln = true → (r.lane ln).sets = (s.lane ln).sets) := by
    rw [hr, State.referenced]
    dsimp only
    rw [State.at_frozen, State.at_fld, State.at_combo, State.at_setOf]
    cases hf : s.frozen ln with
    | true => exact ⟨rfl, rfl, fun h => (by cases h), fun _ => by rw [if_pos rfl, State.at_lane]⟩
    | false =>
      refine ⟨rfl, rfl, fun _ => ?_, fun h => (by cases h)⟩
      rw [if_neg Bool.false_ne_true]
      exact State.setOf_tins _ _ _ _ _ _ fun _ => rfl
  obtain ⟨hrr, hrm, hset, hfro⟩ := hrs
  have hxo : onlyRegs (s.at t) x [⟨.ILV_LANE_STATUS, ln⟩] := by
    rw [hx]
    exact .of_eq hrr hrm (.refl _ _)
  obtain ⟨hdn, ho⟩ := State.done_onlyRegs (t := x.setFld Fld.ILV_LANE_STATUS_PHASE ln 1) (.setFld (by simp) hxo) rfl
  have hxl : x.lane ln = { r.lane ln with window := 0 } := by rw [hx, State.lane_modLane]
  refine ⟨_, ?_, by simp, ?_, ⟨fun h => ?_, fun h => ?_⟩, ho⟩
  · rw [exec, execCalShadowStart, State.when_eq ha, State.at_lane, hd]
    dsimp only
    rw [if_pos ⟨by rw [State.at_fld]; exact hph, hle⟩, ← hr, ← hx]
    exact hdn
  · show (x.lane ln).window = 0
    rw [hxl]
  · rw [← hset h]
    show tget _ (x.lane ln).sets _ = _
    rw [hxl, hx]
    rfl
  · show (x.lane ln).sets = _
    rw [hxl]
    exact hfro h

theorem calPreloadStart_preloads (t : Tu) (ln : Fin 16) {d : Tu} (fit : Corr) (ha : s.alive = true)
    (hd : (s.lane ln).dwell = some d) (hph : s.fld Fld.ILV_LANE_STATUS_PHASE ln = 1)
    (hw : (s.lane ln).window = (s.shadowWindows ln).1) (hf : s.frozen ln = false)
    (hle : tuLe (tuAdd d (ns 3000000)) (s.at t).time = true) :
    ∃ u, exec (.calPreloadStart t ln fit) s = .next u ∧ u.fld Fld.ILV_LANE_STATUS_PHASE ln = 2 ∧
      (u.lane ln).preload = some fit ∧ onlyRegs s u [⟨.ILV_LANE_STATUS, ln⟩] := by
  obtain ⟨x, hx⟩ : ∃ x, x = (s.at t).modLane ln fun l => { l with preload := some fit } := ⟨_, rfl⟩
  have hxo : onlyRegs (s.at t) x [⟨.ILV_LANE_STATUS, ln⟩] := by rw [hx]; exact .of_eq rfl rfl (.refl _ _)
  obtain ⟨hdn, ho⟩ := State.done_onlyRegs (t := x.setFld Fld.ILV_LANE_STATUS_PHASE ln 2) (.setFld (by simp) hxo) rfl
  refine ⟨_, ?_, by simp, ?_, ho⟩
  · have hc : (s.at t).fld Fld.ILV_LANE_STATUS_PHASE ln = 1 ∧ (s.lane ln).window = ((s.at t).shadowWindows ln).1 ∧
        !(s.at t).frozen ln ∧ tuLe (tuAdd d (ns 3000000)) (s.at t).time := by
      rw [State.at_fld, State.at_shadowWindows, State.at_frozen, hf]
      exact ⟨hph, hw, rfl, hle⟩
    rw [exec, execCalPreloadStart, State.when_eq ha, State.at_lane, hd]
    dsimp only
    rw [if_pos hc, ← hx]
    exact hdn
  · show (x.lane ln).preload = _
    rw [hx, State.lane_modLane]

/-! ### SHADOW windows -/

theorem State.calDev_only (s : State) (ln : Nat) (m : ShadowMeas) (active : Bool) :
    onlyRegs s (s.calDev ln m active) [⟨.ILV_CAL_DEV, ln⟩] ∧ (s.calDev ln m active).lanes = s.lanes := by
  unfold State.calDev
  cases active with
  | true => exact ⟨.setFld (by simp) (.setFld (by simp) (.setFld (by simp) (.refl s _))), rfl⟩
  | false => exact ⟨.setFld (by simp) (.refl s _), rfl⟩

/-- The numbers of a channel's interleave events. -/
theorem followsRaise_ilv (n k : Nat) (hn : n < 16) (hk : k < 8) : followsRaise (80 + 8 * n + k) = false := by
  have hv : ∀ (n : Fin 16) (k : Fin 8), followsRaise (80 + 8 * n + k) = false := by decide
  exact hv ⟨n, hn⟩ ⟨k, hk⟩

theorem State.calSkip_reads (s : State) (ln : Nat) (active : Bool) {k : Nat} (hk : k = 87 + 8 * s.firstLane ln) :
    onlyRaising s (s.calSkip ln active) [⟨.ILV_CAL_SKIP, ln⟩] [k] ∧ (s.calSkip ln active).lanes = s.lanes ∧
      (active = false → s.fld Fld.ILV_CAL_SKIP_COUNT ln < 2 ^ Fld.ILV_CAL_SKIP_COUNT.width - 1 →
        (s.calSkip ln active).fld Fld.ILV_CAL_SKIP_COUNT ln = s.fld Fld.ILV_CAL_SKIP_COUNT ln + 1) ∧
      (active = true → (s.calSkip ln active).fld Fld.ILV_CAL_SKIP_COUNT ln = s.fld Fld.ILV_CAL_SKIP_COUNT ln ∧
        (s.calSkip ln active).fld Fld.ILV_CAL_SKIP_RUN ln = 0) := by
  unfold State.calSkip
  cases active with
  | true =>
    refine ⟨.setFld (by simp) rfl (.refl s _ _), rfl, fun h => (by cases h), fun _ => ⟨?_, ?_⟩⟩
    · exact State.fld_setFld_apart _ _ _ _ _ _ (by decide)
    · exact State.fld_setFld_eq _ _ _ _ (by decide)
  | false =>
    obtain ⟨x, hx⟩ : ∃ x, x = (s.bump Fld.ILV_CAL_SKIP_COUNT ln 1).bump Fld.ILV_CAL_SKIP_RUN ln 1 := ⟨_, rfl⟩
    have hxo : onlyRaising s x [⟨.ILV_CAL_SKIP, ln⟩] [k] := by
      rw [hx]
      exact .setFld (f := Fld.ILV_CAL_SKIP_RUN) (by simp) rfl (.setFld (f := Fld.ILV_CAL_SKIP_COUNT) (by simp) rfl (.refl s _ _))
    have hxf : s.fld Fld.ILV_CAL_SKIP_COUNT ln < 2 ^ Fld.ILV_CAL_SKIP_COUNT.width - 1 →
        x.fld Fld.ILV_CAL_SKIP_COUNT ln = s.fld Fld.ILV_CAL_SKIP_COUNT ln + 1 := fun h => by
      rw [hx, State.bump, State.fld_setFld_apart _ _ _ _ _ _ (by decide), State.fld_bump _ _ _ _ (by decide)]
      exact Nat.min_eq_left (by omega)
    have hfirst : x.firstLane ln = s.firstLane ln := by rw [hx]; rfl
    have hxl : x.lanes = s.lanes := by rw [hx]; rfl
    have hev : x.ilvEvent ln 7 = x.raise k 1 ln := by
      rw [State.ilvEvent, hfirst, hk]
      congr 1
      omega
    rw [if_neg Bool.false_ne_true, ← hx]
    dsimp only
    refine ⟨.ite (by rw [hev]; exact .raise (by simp) hxo) hxo, ?_, fun _ h => ?_, fun h => (by cases h)⟩
    · split
      · rw [hev, (State.raise_raises k 1 ln).lanes, hxl]
      · exact hxl
    · split
      · rw [hev, State.raise_fld_of _ _ _ _ _ _ rfl, hxf h]
      · exact hxf h

theorem State.meanSkew_of (hp : t.pitch = s.pitch) (hs : ∀ l, (t.lane l).skews = (s.lane l).skews) (ln : Nat) :
    t.meanSkew ln = s.meanSkew ln := by
  have hi : ∀ n, t.ilv n = s.ilv n := fun n => by rw [State.ilv, hp]; rfl
  have hf : ∀ n, t.firstLane n = s.firstLane n := fun n => by rw [State.firstLane, hi]; rfl
  have hg : ∀ n, t.groupOf n = s.groupOf n := fun n => by rw [State.groupOf, hi]; rfl
  simp only [State.meanSkew, hg, hf, hs]

theorem State.modLane_skews (s : State) (ln : Nat) (f : Lane → Lane) (hf : ∀ l, (f l).skews = l.skews) (l : Nat) :
    ((s.modLane ln f).lane l).skews = (s.lane l).skews := by
  by_cases h : l = ln
  · subst h
    rw [State.lane_modLane, hf]
  · rw [State.lane_modLane_ne _ _ h]

/-- The state of a window's end before it counts: what was measured of skews, deviations and activity. -/
theorem shadowWindowEnd_judges (t : Tu) (ln : Fin 16) {d : Tu} (m : ShadowMeas) (ha : s.alive = true)
    (hd : (s.lane ln).dwell = some d) (hph : s.fld Fld.ILV_LANE_STATUS_PHASE ln = 1) (hf : s.frozen ln = false)
    (hw : (s.lane ln).window < (s.shadowWindows ln).1)
    (hle : tuLe (tuAdd d (ns 1000000 + ((s.lane ln).window + 1) * (s.shadowWindows ln).2)) (s.at t).time = true) :
    ∃ u, exec (.shadowWindowEnd t ln m) s = .next u ∧ (u.lane ln).window = (s.lane ln).window + 1 ∧
      (let tgt := s.shadowTarget ln (s.lane ln).window
       let slice := s.fld (posFld tgt.2) tgt.1
       (s.goodPairs ln m ≠ [] → (u.lane tgt.1).updates = (s.lane tgt.1).updates ++ [(9 * slice + s.combo tgt.1,
         moveCorr (s.setOf tgt.1 slice (s.combo tgt.1)) m (u.meanSkew ln) (s.windowActive ln m))]) ∧
       (s.goodPairs ln m = [] → (u.lane tgt.1).updates = (s.lane tgt.1).updates)) ∧
      (s.windowActive ln m = false → s.fld Fld.ILV_CAL_SKIP_COUNT ln < 2 ^ Fld.ILV_CAL_SKIP_COUNT.width - 1 →
        u.fld Fld.ILV_CAL_SKIP_COUNT ln = s.fld Fld.ILV_CAL_SKIP_COUNT ln + 1) ∧
      (s.windowActive ln m = true → u.fld Fld.ILV_CAL_SKIP_COUNT ln = s.fld Fld.ILV_CAL_SKIP_COUNT ln ∧
        u.fld Fld.ILV_CAL_SKIP_RUN ln = 0) ∧
      onlyRaising s u [⟨.ILV_CAL_DEV, ln⟩, ⟨.ILV_CAL_SKIP, ln⟩]
        [86 + 8 * s.firstLane ln, 87 + 8 * s.firstLane ln] := by
  obtain ⟨tgt, htgt⟩ : ∃ tgt, tgt = s.shadowTarget ln (s.lane ln).window := ⟨_, rfl⟩
  obtain ⟨act, hact⟩ : ∃ act, act = s.windowActive ln m := ⟨_, rfl⟩
  obtain ⟨meas, hmeas⟩ : ∃ meas, meas = !(s.goodPairs ln m).isEmpty := ⟨_, rfl⟩
  obtain ⟨slice, hslice⟩ : ∃ slice, slice = s.fld (posFld tgt.2) tgt.1 := ⟨_, rfl⟩
  obtain ⟨s0, h0⟩ : ∃ s0, s0 = if act then (s.at t).modLane tgt.1 fun l => { l with skews := tput 0 l.skews tgt.2 m.skew }
    else s.at t := ⟨_, rfl⟩
  obtain ⟨sd, hsd⟩ : ∃ sd, sd = if meas then s0.calDev ln m act else s0 := ⟨_, rfl⟩
  obtain ⟨s1, h1⟩ : ∃ s1, s1 = sd.calSkip ln act := ⟨_, rfl⟩
  obtain ⟨s2, h2⟩ : ∃ s2, s2 = if meas && drifts m act then s1.ilvEvent ln 6 else s1 := ⟨_, rfl⟩
  obtain ⟨s3, h3⟩ : ∃ s3, s3 = if !meas then s2 else s2.modLane tgt.1 fun l =>
    { l with updates := l.updates ++ [(9 * slice + s.combo tgt.1,
        moveCorr (s.setOf tgt.1 slice (s.combo tgt.1)) m (s0.meanSkew ln) act)] } := ⟨_, rfl⟩
  obtain ⟨s4, h4⟩ : ∃ s4, s4 = s3.modLane ln fun l => { l with window := (s.lane ln).window + 1 } := ⟨_, rfl⟩
  have hexec : exec (.shadowWindowEnd t ln m) s = s.done s4 := by
    have hc : (s.at t).fld Fld.ILV_LANE_STATUS_PHASE ln = 1 ∧ (s.lane ln).window < (s.shadowWindows ln).1 ∧
        tuLe (tuAdd d (ns 1000000 + ((s.lane ln).window + 1) * (s.shadowWindows ln).2)) (s.at t).time :=
      ⟨by rw [State.at_fld]; exact hph, hw, hle⟩
    rw [exec, execShadowWindowEnd, State.when_eq ha, State.shadowEnd, State.at_shadowWindows, State.at_lane, hd]
    dsimp only
    rw [if_pos hc, State.at_frozen, hf, State.at_shadowTarget, ← htgt, State.at_fld, ← hslice, State.at_goodPairs,
      ← hmeas, State.at_windowActive, ← hact, ← h0, ← hsd, ← h1, ← h2, Bool.false_or, State.at_combo, State.at_setOf,
      ← h3, ← h4, if_neg (fun h => Bool.false_ne_true h.1)]
  -- the registers and what is raised
  have h0r : s0.regs = (s.at t).regs ∧ s0.mem = (s.at t).mem ∧ s0.pitch = s.pitch := by
    rw [h0]
    split <;> exact ⟨rfl, rfl, s.at_pitch t⟩
  obtain ⟨h0r, h0m, h0p⟩ := h0r
  have hdd : onlyRegs s0 sd [⟨.ILV_CAL_DEV, ln⟩] ∧ sd.lanes = s0.lanes := by
    rw [hsd]
    split
    · exact s0.calDev_only ln m act
    · exact ⟨.refl _ _, rfl⟩
  obtain ⟨hdo, hdl⟩ := hdd
  have hdp : sd.pitch = s.pitch := by
    rw [hsd]
    split
    · rw [State.calDev]
      split <;> exact h0p
    · exact h0p
  have hfirst : ∀ x : State, x.pitch = s.pitch → x.firstLane ln = s.firstLane ln := fun x hx => by
    rw [State.firstLane, State.ilv, hx]; rfl
  obtain ⟨hso, hsl, hskip, hrun⟩ := sd.calSkip_reads ln act (k := 87 + 8 * s.firstLane ln) (by rw [hfirst sd hdp])
  rw [← h1] at hso hsl hskip hrun
  have h1p : s1.pitch = s.pitch := by
    rw [h1, State.calSkip]
    split
    · exact hdp
    · dsimp only
      split
      · exact ((State.raise_raises _ 1 _).pitch).trans hdp
      · exact hdp
  have h12 : Raises s1 s2 [86 + 8 * s.firstLane ln] := by
    have hk : 80 + 8 * s.firstLane ln + 6 = 86 + 8 * s.firstLane ln := by omega
    rw [h2, State.ilvEvent, hfirst s1 h1p, hk]
    split
    · exact State.raise_raises _ _ _
    · exact .refl _ _
  have h24 : s4.regs = s2.regs ∧ s4.mem = s2.mem := by
    rw [h4, h3]
    split <;> exact ⟨rfl, rfl⟩
  obtain ⟨h4r, h4m⟩ := h24
  have hall : onlyRaising (s.at t) s4 [⟨.ILV_CAL_DEV, ln⟩, ⟨.ILV_CAL_SKIP, ln⟩]
      [86 + 8 * s.firstLane ln, 87 + 8 * s.firstLane ln] := by
    refine .of_eq h4r h4m (.and_then (h12.only (but := []) fun _ h => .inl h) (by simp) (by simp) (.and_then hso (by simp) (by simp)
      (.step hdo (by simp) rfl (.of_eq h0r h0m (.refl _ _ _)))))
  obtain ⟨u, hu, hn, ho⟩ := s.done_onlyRaising hall
  -- the skip counts
  have hcnt : ∀ f : Fld, f.reg = .ILV_CAL_SKIP → u.fld f ln = s1.fld f ln := fun f hf => by
    rw [hn.fld _ _ (by rw [hf]; rfl), State.fld, State.reg, h4r]
    exact h12.fld f ln (by rw [hf]; rfl)
  have hd0 : sd.fld Fld.ILV_CAL_SKIP_COUNT ln = s.fld Fld.ILV_CAL_SKIP_COUNT ln := by
    rw [State.fld_of_reg (hdo.1 _ _ (by simp)), State.fld, State.reg, h0r, State.at_regs]
    rfl
  -- the lanes
  have hul : u.lanes = s4.lanes := hn.lanes
  have h2l : ∀ l, s2.lane l = s0.lane l := fun l => State.lane_of_eq (by rw [h12.lanes, hsl, hdl]) l
  have h0u : ∀ l, (s0.lane l).updates = (s.lane l).updates := fun l => by
    rw [h0]
    split
    · by_cases hl : l = tgt.1
      · subst hl
        rw [State.lane_modLane, State.at_lane]
      · rw [State.lane_modLane_ne _ _ hl, State.at_lane]
    · rw [State.at_lane]
  have h4u : ∀ l, (s4.lane l).updates = (s3.lane l).updates := fun l => by
    rw [h4]
    by_cases hl : l = ln
    · subst hl
      rw [State.lane_modLane]
    · rw [State.lane_modLane_ne _ _ hl]
  have hmean : u.meanSkew ln = s0.meanSkew ln := by
    refine State.meanSkew_of ?_ (fun l => ?_) ln
    · have h4p : s4.pitch = s2.pitch := by rw [h4, h3]; split <;> rfl
      rw [hn.pitch, h4p, h12.pitch, h1p, h0p]
    · rw [State.lane_of_eq hul, h4]
      refine (State.modLane_skews _ _ _ (by intro _; rfl) l).trans ?_
      rw [h3]
      split
      · rw [h2l]
      · exact (State.modLane_skews _ _ _ (by intro _; rfl) l).trans (by rw [h2l])
  refine ⟨u, hexec.trans hu, ?_, ?_, fun h hlt => ?_, fun h => ?_, ho⟩
  · rw [State.lane_of_eq hul, h4, State.lane_modLane]
  · dsimp only
    rw [← htgt, ← hslice, ← hact, hmean]
    refine ⟨fun h => ?_, fun h => ?_⟩
    · have hm : meas = true := by rw [hmeas]; simpa using h
      rw [State.lane_of_eq hul, h4u, h3, hm, if_neg (by simp), State.lane_modLane]
      dsimp only
      rw [h2l, h0u]
    · have hm : meas = false := by rw [hmeas, h]; rfl
      rw [State.lane_of_eq hul, h4u, h3, hm, if_pos (by rfl : (!false) = true), h2l, h0u]
  · rw [hcnt _ rfl, hskip (hact.trans h) (by rw [hd0]; exact hlt), hd0]
  · obtain ⟨g1, g2⟩ := hrun (hact.trans h)
    exact ⟨by rw [hcnt _ rfl, g1, hd0], by rw [hcnt _ rfl, g2]⟩

end Sys2Proof.Machine
end

section
/-! SUPPORT. The handover of a lane, at a tick and while UNPITCHED (R155, R157), and FREEZE (R165, R179). -/

namespace Sys2Proof.Machine

variable {s t u w : State} {but : List Reg} {srcs : List Nat}

/-! ### One lane's handover -/

theorem posFld_reg (p : Nat) : (posFld p).reg = .ILV_SLICE_MAP := by
  unfold posFld
  split
  · rfl
  · split
    · rfl
    · split <;> rfl

theorem posFld_bits (p : Nat) : (posFld p).lsb + (posFld p).width ≤ 32 ∧ (posFld p).width = 3 := by
  unfold posFld
  split
  · exact ⟨by decide, rfl⟩
  · split
    · exact ⟨by decide, rfl⟩
    · split <;> exact ⟨by decide, rfl⟩

/-- The registers of a lane that its handover changes. -/
def handoverRegs (ln : Nat) : List Reg :=
  [⟨.ILV_SLICE_MAP, ln⟩, ⟨.ILV_LANE_STATUS, ln⟩, ⟨.ILV_HANDOVER_LO, ln⟩, ⟨.ILV_HANDOVER_HI, ln⟩, ⟨.ILV_CAL_RATE, ln⟩]

/-- A lane that has made a handover may leave CAL_STALE: what that leaves. -/
structure LaneFreshened (ln : Nat) (s t : State) : Prop where
  only : onlyRaising s t [⟨.ILV_LANE_STATUS, ln⟩] [84 + 8 * s.firstLane ln]
  phase : ∀ f : Fld, f.reg = .ILV_LANE_STATUS → 1 ≤ f.lsb → f.lsb + f.width ≤ 8 → t.fld f ln = s.fld f ln
  order : (t.lane ln).order = (s.lane ln).order
  handovers : (t.lane ln).handovers = (s.lane ln).handovers
  dwell : (t.lane ln).dwell = (s.lane ln).dwell
  others : ∀ k, k ≠ ln → t.lane k = s.lane k
  time : t.time = s.time
  pitch : t.pitch = s.pitch

theorem LaneFreshened.refl (ln : Nat) (s : State) : LaneFreshened ln s s :=
  ⟨.refl _ _ _, fun _ _ _ _ => rfl, rfl, rfl, rfl, fun _ _ => rfl, rfl, rfl⟩

theorem LaneFreshened.trans {ln : Nat} (h : LaneFreshened ln s t) (g : LaneFreshened ln t u) : LaneFreshened ln s u := by
  have hf : t.firstLane ln = s.firstLane ln := by rw [State.firstLane, State.ilv, h.pitch]; rfl
  have go := g.only
  rw [hf] at go
  exact ⟨h.only.trans go, fun f hf h1 h8 => (g.phase f hf h1 h8).trans (h.phase f hf h1 h8), g.order.trans h.order,
    g.handovers.trans h.handovers, g.dwell.trans h.dwell, fun k hk => (g.others k hk).trans (h.others k hk),
    g.time.trans h.time, g.pitch.trans h.pitch⟩

theorem State.setFld_freshened (s : State) (ln x : Nat) (f : Fld) (hr : f.reg = .ILV_LANE_STATUS)
    (hb : f.lsb + f.width ≤ 1 ∨ 8 ≤ f.lsb) : LaneFreshened ln s (s.setFld f ln x) :=
  ⟨.setFld (by simp [hr]) (by rw [hr]; rfl) (.refl _ _ _),
    fun g _ h1 h8 => State.fld_setFld_apart _ _ _ _ _ _ (by omega), rfl, rfl, rfl, fun _ _ => rfl, rfl, rfl⟩

theorem State.clearStale_freshened (s : State) (ln : Nat) : LaneFreshened ln s (s.clearStale ln) := by
  unfold State.clearStale
  split
  · obtain ⟨x, hx⟩ : ∃ x, x = s.modLane ln fun l => { l with freshAt := some s.time } := ⟨_, rfl⟩
    obtain ⟨y, hy⟩ : ∃ y, y = x.setFld Fld.ILV_LANE_STATUS_CAL_STALE ln 0 := ⟨_, rfl⟩
    have hsx : LaneFreshened ln s x := by
      rw [hx]
      exact ⟨.of_eq rfl rfl (.refl _ _ _), fun _ _ _ _ => rfl, by rw [State.lane_modLane], by rw [State.lane_modLane],
        by rw [State.lane_modLane], fun k hk => State.lane_modLane_ne _ _ hk, rfl, rfl⟩
    have hxy : LaneFreshened ln x y := by
      rw [hy]
      exact x.setFld_freshened ln 0 Fld.ILV_LANE_STATUS_CAL_STALE rfl (.inl (by decide))
    have hraise := State.raise_raises (s := y) (80 + 8 * y.firstLane ln + 4) 1 ln
    have hk : 80 + 8 * y.firstLane ln + 4 = 84 + 8 * y.firstLane ln := by omega
    refine (hsx.trans hxy).trans (t := y) ?_
    rw [← hx, ← hy, State.ilvEvent]
    refine ⟨hraise.only fun _ h => .inl ?_, fun f hf _ _ => hraise.fld f ln (by rw [hf]; rfl), ?_, ?_, ?_, fun k _ => ?_,
      hraise.time, hraise.pitch⟩
    · rw [← hk]
      exact h
    · rw [State.lane_of_eq hraise.lanes]
    · rw [State.lane_of_eq hraise.lanes]
    · rw [State.lane_of_eq hraise.lanes]
    · rw [State.lane_of_eq hraise.lanes]
  · exact .refl ln s

theorem State.pair_setPair (s : State) {lo hi : RegName} (i : Nat) (v : Tu) (h : lo ≠ hi) :
    (s.setPair lo hi i v).pair lo hi i = v := by
  rw [State.pair, State.setPair, State.reg_setReg_same, State.reg_setReg_ne _ _ _ _ _ _ h, State.reg_setReg_same]
  apply BitVec.eq_of_getLsbD_eq
  intro j hj
  rw [BitVec.getLsbD_append]
  split
  · next hlt => rw [BitVec.getLsbD_extractLsb', decide_eq_true hlt, Bool.true_and, Nat.zero_add]
  · next hge =>
    have h32 : j - 32 < 32 := by omega
    rw [BitVec.getLsbD_extractLsb', decide_eq_true h32, Bool.true_and, Nat.add_sub_cancel' (by omega)]

theorem State.frameOf_setFrame (s : State) {lo hi : RegName} (i : Nat) (v : Frame) (h : lo ≠ hi) :
    (s.setFrame lo hi i v).frameOf lo hi i = v := by
  rw [State.frameOf, State.setFrame, State.pair_setPair _ _ _ h]
  exact BitVec.setWidth_setWidth_of_le v (by decide)

/-- What a handover at instant `x` leaves. -/
structure HandedOver (ln : Nat) (frame : Frame) (x : Tu) (s t : State) : Prop where
  only : onlyRaising s t (handoverRegs ln) [84 + 8 * s.firstLane ln]
  pos : t.fld (posFld ((s.lane ln).order.headD 0)) ln = s.fld Fld.ILV_LANE_STATUS_SPARE ln
  spare : t.fld Fld.ILV_LANE_STATUS_SPARE ln = s.fld (posFld ((s.lane ln).order.headD 0)) ln
  order : (t.lane ln).order = (s.lane ln).order.drop 1 ++ [(s.lane ln).order.headD 0]
  handovers : (t.lane ln).handovers = (s.lane ln).handovers + 1
  dwell : (t.lane ln).dwell = some x
  phase : t.fld Fld.ILV_LANE_STATUS_PHASE ln = 0
  frame : t.frameOf .ILV_HANDOVER_LO .ILV_HANDOVER_HI ln = frame
  others : ∀ k, k ≠ ln → t.lane k = s.lane k
  time : t.time = s.time
  pitch : t.pitch = s.pitch

theorem State.lane_setFld (s : State) (f : Fld) (i x k : Nat) : (s.setFld f i x).lane k = s.lane k := rfl

theorem State.lane_startDwell (s : State) (ln : Nat) (x : Tu) : (s.startDwell ln x).lane ln =
    { s.lane ln with dwell := some x, restart := false, window := 0, preload := none } := by
  rw [State.startDwell, State.lane_setFld, State.lane_modLane]

theorem State.lane_startDwell_ne (s : State) {ln k : Nat} (x : Tu) (h : k ≠ ln) :
    (s.startDwell ln x).lane k = s.lane k := by
  rw [State.startDwell, State.lane_setFld, State.lane_modLane_ne _ _ h]

/-- The handover of a lane, but for what it does to a stale lane. -/
def State.rotated (s : State) (ln : Nat) (frame : Frame) (x : Tu) : State :=
  let l := s.lane ln
  let p := l.order.headD 0
  let spare := s.fld Fld.ILV_LANE_STATUS_SPARE ln
  (((((s.setFld (posFld p) ln spare).setFld Fld.ILV_LANE_STATUS_SPARE ln (s.fld (posFld p) ln)).setFrame
    .ILV_HANDOVER_LO .ILV_HANDOVER_HI ln frame).setFld Fld.ILV_CAL_RATE_RATE ln (s.rateNow (ln / 8))).modLane ln fun l =>
    { l with order := l.order.drop 1 ++ [p], handovers := l.handovers + 1,
             sets := match l.preload with
               | none => l.sets
               | some c => tins l.sets (9 * spare + s.combo ln) c }).startDwell ln x

theorem State.handover_eq (s : State) (ln : Nat) (frame : Frame) (x : Tu) :
    s.handover ln frame x =
      if s.stale ln then
        (let n := min 5 (s.fld Fld.ILV_LANE_STATUS_ROT_COUNT ln + 1)
         let s4 := (s.rotated ln frame x).setFld Fld.ILV_LANE_STATUS_ROT_COUNT ln n
         if n = 5 then s4.clearStale ln else s4)
      else s.rotated ln frame x := rfl

theorem State.handover_freshened (s : State) (ln : Nat) (frame : Frame) (x : Tu) :
    LaneFreshened ln (s.rotated ln frame x) (s.handover ln frame x) := by
  rw [State.handover_eq]
  have h4 (n : Nat) : LaneFreshened ln (s.rotated ln frame x)
      ((s.rotated ln frame x).setFld Fld.ILV_LANE_STATUS_ROT_COUNT ln n) :=
    State.setFld_freshened _ _ _ _ rfl (.inr (by decide))
  split
  · dsimp only
    split
    · exact (h4 _).trans (State.clearStale_freshened _ _)
    · exact h4 _
  · exact .refl _ _

theorem State.rotated_handedOver (s : State) (ln : Nat) (frame : Frame) (x : Tu) :
    HandedOver ln frame x s (s.rotated ln frame x) := by
  obtain ⟨p, hp⟩ : ∃ p, p = (s.lane ln).order.headD 0 := ⟨_, rfl⟩
  obtain ⟨a, ha⟩ : ∃ a, a = (s.setFld (posFld p) ln (s.fld Fld.ILV_LANE_STATUS_SPARE ln)).setFld
    Fld.ILV_LANE_STATUS_SPARE ln (s.fld (posFld p) ln) := ⟨_, rfl⟩
  obtain ⟨b, hb⟩ : ∃ b, b = (a.setFrame .ILV_HANDOVER_LO .ILV_HANDOVER_HI ln frame).setFld Fld.ILV_CAL_RATE_RATE ln
    (s.rateNow (ln / 8)) := ⟨_, rfl⟩
  have hab : b.lanes = s.lanes := by rw [hb, ha]; rfl
  have hu : s.rotated ln frame x = ((b.modLane ln fun l =>
    { l with order := l.order.drop 1 ++ [p], handovers := l.handovers + 1,
             sets := match l.preload with
               | none => l.sets
               | some c => tins l.sets (9 * s.fld Fld.ILV_LANE_STATUS_SPARE ln + s.combo ln) c }).startDwell ln x) := by
    rw [hb, ha, hp]
    rfl
  have hbl : b.lane ln = s.lane ln := State.lane_of_eq hab ln
  have hbf (g : Fld) (hne : g.reg ≠ .ILV_HANDOVER_LO ∧ g.reg ≠ .ILV_HANDOVER_HI ∧ g.reg ≠ .ILV_CAL_RATE) :
      b.fld g ln = a.fld g ln := by
    rw [hb, State.fld_setFld_ne _ _ _ _ _ _ hne.2.2, State.setFrame, State.setPair,
      State.fld_setReg_ne _ _ _ _ _ _ hne.2.1, State.fld_setReg_ne _ _ _ _ _ _ hne.1]
  have hbh : b.frameOf .ILV_HANDOVER_LO .ILV_HANDOVER_HI ln = frame := by
    rw [hb, State.frameOf, State.pair, State.reg_setFld_ne _ _ _ _ _ _ (by decide),
      State.reg_setFld_ne _ _ _ _ _ _ (by decide)]
    exact State.frameOf_setFrame _ _ _ (by decide)
  obtain ⟨hbits, hw⟩ := posFld_bits p
  have hpw : 2 ^ (posFld p).width = 2 ^ Fld.ILV_LANE_STATUS_SPARE.width := by rw [hw]
  rw [hu]
  obtain ⟨l, hl⟩ : ∃ l : Lane, l = { s.lane ln with
      order := (s.lane ln).order.drop 1 ++ [p], handovers := (s.lane ln).handovers + 1,
      sets := match (s.lane ln).preload with
        | none => (s.lane ln).sets
        | some c => tins (s.lane ln).sets (9 * s.fld Fld.ILV_LANE_STATUS_SPARE ln + s.combo ln) c } := ⟨_, rfl⟩
  obtain ⟨c, hc⟩ : ∃ c, c = b.modLane ln fun l =>
    { l with order := l.order.drop 1 ++ [p], handovers := l.handovers + 1,
             sets := match l.preload with
               | none => l.sets
               | some c => tins l.sets (9 * s.fld Fld.ILV_LANE_STATUS_SPARE ln + s.combo ln) c } := ⟨_, rfl⟩
  have hcl : c.lane ln = l := by rw [hc, State.lane_modLane, hbl, hl]
  rw [← hc]
  have hul : (c.startDwell ln x).lane ln = { l with dwell := some x, restart := false, window := 0, preload := none } := by
    rw [State.lane_startDwell, hcl]
  have hcf (g : Fld) : c.fld g ln = b.fld g ln := by rw [hc]; rfl
  exact
    { only := by
        have hreg := posFld_reg p
        have h1 : onlyRegs s b (handoverRegs ln) := by
          rw [hb, ha]
          exact .setFld (by simp [handoverRegs]) (.setReg (by simp [handoverRegs]) (.setReg (by simp [handoverRegs])
            (.setFld (by simp [handoverRegs]) (.setFld (by simp [handoverRegs, hreg]) (.refl _ _)))))
        have h2 : onlyRegs s (c.startDwell ln x) (handoverRegs ln) :=
          .setFld (by simp [handoverRegs]) (.of_eq (by rw [hc]; rfl) (by rw [hc]; rfl) h1)
        exact h2.raising rfl
      pos := by
        have hne : (posFld p).reg ≠ Fld.ILV_LANE_STATUS_PHASE.reg := by rw [posFld_reg]; decide
        have hne' : (posFld p).reg ≠ Fld.ILV_LANE_STATUS_SPARE.reg := by rw [posFld_reg]; decide
        rw [← hp, State.startDwell, State.fld_setFld_ne _ _ _ _ _ _ hne]
        show c.fld _ _ = _
        rw [hcf, hbf _ (by rw [posFld_reg]; decide), ha, State.fld_setFld_ne _ _ _ _ _ _ hne']
        exact State.fld_setFld_of_lt _ _ _ hbits (hpw ▸ s.fld_lt _ _)
      spare := by
        rw [← hp, State.startDwell, State.fld_setFld_apart _ _ _ _ _ _ (by decide)]
        show c.fld _ _ = _
        rw [hcf, hbf _ (by decide), ha]
        exact State.fld_setFld_of_lt _ _ _ (by decide) (hpw ▸ s.fld_lt _ _)
      order := by rw [hul, hl, hp]
      handovers := by rw [hul, hl]
      dwell := by rw [hul]
      phase := by rw [State.startDwell, State.fld_setFld_eq _ _ _ _ (by decide)]; rfl
      frame := by
        rw [← hbh, State.frameOf, State.pair, State.startDwell, State.reg_setFld_ne _ _ _ _ _ _ (by decide),
          State.reg_setFld_ne _ _ _ _ _ _ (by decide), hc]
        rfl
      others := fun k hk => by
        rw [State.lane_startDwell_ne _ _ hk, hc, State.lane_modLane_ne _ _ hk, State.lane_of_eq hab]
      time := by rw [hc, hb, ha]; rfl
      pitch := by rw [hc, hb, ha]; rfl }

theorem State.handover_handedOver (s : State) (ln : Nat) (frame : Frame) (x : Tu) :
    HandedOver ln frame x s (s.handover ln frame x) := by
  have h := s.rotated_handedOver ln frame x
  have g := s.handover_freshened ln frame x
  have hf : (s.rotated ln frame x).firstLane ln = s.firstLane ln := by rw [State.firstLane, State.ilv, h.pitch]; rfl
  have go := g.only
  rw [hf] at go
  have hreg (n : RegName) (hn : n ≠ .ILV_LANE_STATUS) (he : eventReg n = false) :
      (s.handover ln frame x).reg n ln = (s.rotated ln frame x).reg n ln :=
    go.1 n ln (fun hm => hn (congrArg Reg.n (List.mem_singleton.1 hm))) he
  exact
    { only := h.only.trans (go.mono (by simp [handoverRegs]) (fun _ h => h))
      pos := by
        rw [← h.pos]
        exact State.fld_of_reg (hreg _ (by rw [posFld_reg]; decide) (by rw [posFld_reg]; rfl))
      spare := by rw [← h.spare]; exact g.phase _ rfl (by decide) (by decide)
      order := g.order.trans h.order
      handovers := g.handovers.trans h.handovers
      dwell := g.dwell.trans h.dwell
      phase := by rw [← h.phase]; exact g.phase _ rfl (by decide) (by decide)
      frame := by
        refine Eq.trans ?_ h.frame
        rw [State.frameOf, State.frameOf, State.pair, State.pair, hreg _ (by decide) rfl, hreg _ (by decide) rfl]
      others := fun k hk => (g.others k hk).trans (h.others k hk)
      time := g.time.trans h.time
      pitch := g.pitch.trans h.pitch }

end Sys2Proof.Machine
end

section
/-! The handover while UNPITCHED and at a tick (R155, R157), and FREEZE (R165, R179). -/

namespace Sys2Proof.Machine

variable {s t u w : State} {but : List Reg} {srcs : List Nat}

/-! ### The handover while UNPITCHED -/

/-- The registers of the lanes that handovers change. -/
def handoverNames : List RegName := [.ILV_SLICE_MAP, .ILV_LANE_STATUS, .ILV_HANDOVER_LO, .ILV_HANDOVER_HI, .ILV_CAL_RATE]

/-- What the handovers of other lanes leave of lane `ln`. -/
structure LaneWaits (ln : Nat) (s t : State) : Prop where
  lane : t.lane ln = s.lane ln
  time : t.time = s.time
  pitch : t.pitch = s.pitch
  reg : ∀ n i, eventReg n = false → n ∉ handoverNames ∨ i = ln → t.reg n i = s.reg n i

theorem LaneWaits.refl (ln : Nat) (s : State) : LaneWaits ln s s := ⟨rfl, rfl, rfl, fun _ _ _ _ => rfl⟩

theorem LaneWaits.trans {ln : Nat} (h : LaneWaits ln s t) (g : LaneWaits ln t u) : LaneWaits ln s u :=
  ⟨g.lane.trans h.lane, g.time.trans h.time, g.pitch.trans h.pitch, fun n i he hn => (g.reg n i he hn).trans (h.reg n i he hn)⟩

theorem LaneWaits.fld {ln : Nat} (h : LaneWaits ln s t) (f : Fld) (he : eventReg f.reg = false) : t.fld f ln = s.fld f ln :=
  State.fld_of_reg (h.reg _ _ he (.inr rfl))

theorem LaneWaits.laneOff {ln : Nat} (h : LaneWaits ln s t) : t.laneOff ln = s.laneOff ln := by
  have hl := h.reg .CLK_GATE_STATE_LO 0 rfl (.inl (by decide))
  have hh := h.reg .CLK_GATE_STATE_HI 0 rfl (.inl (by decide))
  rw [State.laneOff, State.laneOff, State.gateOpen_of_reg hl hh,
    State.clusterAsleep_of_reg (fun i => h.reg .HUB_PWR_STATUS i rfl (.inl (by decide))) hl hh]

theorem LaneWaits.handoverDue {ln : Nat} (h : LaneWaits ln s t) (x : Tu) : t.handoverDue ln x = s.handoverDue ln x := by
  have hfr : t.frozen ln = s.frozen ln := State.flag_of_reg (h.reg _ _ rfl (.inr rfl))
  have hpa : t.paused ln = s.paused ln := State.flag_of_reg (h.reg _ _ rfl (.inr rfl))
  simp only [State.handoverDue, h.lane, hfr, hpa, h.laneOff]

theorem HandedOver.waits {ln j : Nat} {frame : Frame} {x : Tu} (h : HandedOver j frame x s t) (hj : j ≠ ln) :
    LaneWaits ln s t :=
  ⟨h.others ln (Ne.symm hj), h.time, h.pitch, fun n i he hn => h.only.1 n i (fun hm => by
    rcases hn with hn | rfl
    · refine hn ?_
      have := List.mem_map_of_mem (f := Reg.n) hm
      exact this
    · have : i = j := by
        have := List.mem_map_of_mem (f := Reg.i) hm
        simpa [handoverRegs] using this
      exact hj this.symm) he⟩

/-- What `handovers` does for one lane. -/
def State.handoverOf (s : State) (ln : Nat) : State :=
  if s.handoverDue ln s.time then s.handover ln s.frameNow (if s.pitched then s.time else s.dwellOver ln) else s

theorem State.each_succ (s : State) (n : Nat) (f : State → Nat → State) : s.each (n + 1) f = f (s.each n f) n := by
  rw [State.each, State.each, List.range_succ, List.foldl_append]
  rfl

/-- The step of unit `i`, between those of the others. -/
theorem State.each_between {R : State → State → Prop} {f : State → Nat → State} {i n : Nat} (hi : i < n)
    (hr : ∀ a, R a a) (htr : ∀ {a b c}, R a b → R b c → R a c) (ho : ∀ a j, j ≠ i → R a (f a j)) (s : State) :
    ∃ a, R s a ∧ R (f a i) (s.each n f) := by
  have hbefore : ∀ m, m ≤ i → R s (s.each m f) := by
    intro m hm
    induction m with
    | zero => exact hr s
    | succ m ih =>
      rw [State.each_succ]
      exact htr (ih (by omega)) (ho _ _ (by omega))
  induction n with
  | zero => omega
  | succ n ih =>
    rw [State.each_succ]
    by_cases hin : i = n
    · subst hin
      exact ⟨_, hbefore _ (Nat.le_refl _), hr _⟩
    · obtain ⟨a, ha, hp⟩ := ih (by omega)
      exact ⟨a, ha, htr hp (ho _ _ (Ne.symm hin))⟩

/-- What lane `ln` is left with once it has made its handover, whatever the other lanes do. -/
theorem State.handovers_of {ln : Nat} (hln : ln < 16) (hdue : s.handoverDue ln s.time = true) :
    ∃ a b, LaneWaits ln s a ∧ HandedOver ln a.frameNow (if a.pitched then a.time else a.dwellOver ln) a b ∧
      LaneWaits ln b s.handovers := by
  have hw (a : State) (j : Nat) (hj : j ≠ ln) : LaneWaits ln a (a.handoverOf j) := by
    unfold State.handoverOf
    split
    · exact (State.handover_handedOver _ _ _ _).waits hj
    · exact .refl _ _
  obtain ⟨a, ha, hb⟩ := State.each_between hln (LaneWaits.refl ln) LaneWaits.trans hw s
  have hd : a.handoverDue ln a.time = true := by rw [ha.handoverDue, ha.time, hdue]
  refine ⟨a, a.handoverOf ln, ha, ?_, hb⟩
  rw [State.handoverOf, if_pos hd]
  exact State.handover_handedOver _ _ _ _

theorem handover_unpitched (host : List HostRead) (ln : Fin 16) {e : Tu} (ha : s.alive = true) (hpi : s.pitched = false)
    (hsb : s.standby = false) (hde : s.dwellEnd = some e) (hle : tuLe s.time e = true) (hlt : tuLt e s.nextGrid = true)
    (hdue : s.handoverDue ln e = true) :
    ∃ u, exec (.handover host) s = .next u ∧ u.time = e ∧
      u.fld (posFld ((s.lane ln).order.headD 0)) ln = s.fld Fld.ILV_LANE_STATUS_SPARE ln ∧
      u.fld Fld.ILV_LANE_STATUS_SPARE ln = s.fld (posFld ((s.lane ln).order.headD 0)) ln ∧
      (u.lane ln).order = (s.lane ln).order.drop 1 ++ [(s.lane ln).order.headD 0] ∧
      (u.lane ln).handovers = (s.lane ln).handovers + 1 ∧ (u.lane ln).dwell = some (s.dwellOver ln) ∧
      u.fld Fld.ILV_LANE_STATUS_PHASE ln = 0 ∧ u.frameOf .ILV_HANDOVER_LO .ILV_HANDOVER_HI ln = 0 := by
  have hat : s.at e = { s with time := e } := by rw [State.at, if_pos hle, hlt, Bool.or_true, if_pos rfl]
  have hte : (s.at e).time = e := by rw [hat]
  have hdue' : (s.at e).handoverDue ln (s.at e).time = true := by
    rw [hte, hat]
    exact hdue
  obtain ⟨a, b, hsa, hab, hbc⟩ := State.handovers_of ln.isLt hdue'
  have hap : a.pitched = false := by rw [State.pitched, hsa.pitch, State.at_pitch]; exact hpi
  have hf0 : a.frameNow = 0 := by rw [State.frameNow, hap]; rfl
  have hal : a.lane ln = s.lane ln := by rw [hsa.lane, State.at_lane]
  have hx : (if a.pitched then a.time else a.dwellOver ln) = s.dwellOver ln := by
    rw [hap, State.dwellOver, hal]
    rfl
  rw [hf0, hx] at hab
  have haf (f : Fld) (he : eventReg f.reg = false) : a.fld f ln = s.fld f ln := by rw [hsa.fld f he, State.at_fld]
  have hp : eventReg (posFld ((s.lane ln).order.headD 0)).reg = false := by rw [posFld_reg]; rfl
  have hpos := hab.pos
  have hspare := hab.spare
  have hord := hab.order
  have hcnt := hab.handovers
  rw [hal] at hpos hspare hord hcnt
  obtain ⟨u, hu, hr⟩ := s.done_notes (s.at e).handovers
  have hreg (n : RegName) (he : eventReg n = false) : u.reg n ln = b.reg n ln := by
    rw [hr.reg n ln he, hbc.reg n ln he (.inr rfl)]
  have hlane : u.lane ln = b.lane ln := by rw [State.lane_of_eq hr.lanes, hbc.lane]
  refine ⟨u, ?_, ?_, ?_, ?_, ?_, ?_, ?_, ?_, ?_⟩
  · rw [exec, execHandover, hpi, if_neg Bool.false_ne_true, State.ticks, if_pos ha, State.handoverNext, hde]
    dsimp only
    rw [hsb, hlt, if_pos (by rfl : (!false && true) = true)]
    exact hu
  · rw [hr.time, hbc.time, hab.time, hsa.time, hte]
  · rw [State.fld_of_reg (hreg _ hp), hpos, haf _ rfl]
  · rw [State.fld_of_reg (hreg _ rfl), hspare, haf _ hp]
  · rw [hlane, hord]
  · rw [hlane, hcnt]
  · rw [hlane, hab.dwell]
  · rw [State.fld_of_reg (hreg _ rfl), hab.phase]
  · rw [← hab.frame, State.frameOf, State.frameOf, State.pair, State.pair, hreg _ rfl, hreg _ rfl]

/-! ### The handover at a tick -/

theorem handover_pitched (host : List HostRead) (hpi : s.pitched = true) :
    (∀ ln : Fin 16, ((s.frameTick host).lane ln).handovers ≠ (s.lane ln).handovers →
      exec (.handover host) s = exec (.frameTick host) s) ∧
    ((∀ ln : Fin 16, ((s.frameTick host).lane ln).handovers = (s.lane ln).handovers) →
      exec (.handover host) s = .next s) := by
  have he : exec (.handover host) s = s.ticks fun s =>
      if (List.range 16).any (fun ln => (s.lane ln).handovers != ((s.frameTick host).lane ln).handovers) then
        s.frameTick host else s := by
    rw [exec, execHandover, hpi, if_pos rfl]
    rfl
  rw [he]
  constructor
  · intro ln hne
    have hany : (List.range 16).any (fun ln => (s.lane ln).handovers != ((s.frameTick host).lane ln).handovers) = true :=
      List.any_eq_true.2 ⟨ln, List.mem_range.2 ln.isLt, bne_iff_ne.2 (Ne.symm hne)⟩
    rw [exec, execFrameTick, State.ticks, State.ticks, hany, if_pos rfl]
  · intro hall
    have hany : (List.range 16).any (fun ln => (s.lane ln).handovers != ((s.frameTick host).lane ln).handovers) = false := by
      rw [List.any_eq_false]
      intro k hk
      rw [hall ⟨k, List.mem_range.1 hk⟩]
      simp
    rw [State.ticks, hany, if_neg Bool.false_ne_true]
    split
    · exact State.done_of_sameRegs (but := []) (fun _ _ _ => rfl) rfl
    · rfl

/-! ### FREEZE -/

theorem State.freezeLane_freezes (s : State) (k : Nat) (on : Bool) :
    onlyRegs s (s.freezeLane k on) [⟨.ILV_LANE_STATUS, k⟩] ∧ (s.freezeLane k on).frozen k = on := by
  obtain ⟨x, hx⟩ : ∃ x, x = s.setFld Fld.ILV_LANE_STATUS_FROZEN k on.toNat := ⟨_, rfl⟩
  have ho : onlyRegs s x [⟨.ILV_LANE_STATUS, k⟩] := by rw [hx]; exact .setFld (by simp) (.refl _ _)
  have hf : x.frozen k = on := by
    rw [hx, State.frozen, State.flag_eq, State.fld_setFld_eq _ _ _ _ (by decide)]
    cases on <;> rfl
  have hmod (f : Lane → Lane) : onlyRegs s (x.modLane k f) [⟨.ILV_LANE_STATUS, k⟩] ∧ (x.modLane k f).frozen k = on :=
    ⟨.of_eq rfl rfl ho, hf⟩
  unfold State.freezeLane
  split
  · next h => exact ⟨.refl _ _, h.symm⟩
  · rw [← hx]
    dsimp only
    split
    · obtain ⟨y, hy⟩ : ∃ y, y = x.modLane k fun l => { l with preload := none, updates := [] } := ⟨_, rfl⟩
      obtain ⟨hyo, hyf⟩ := hmod fun l => { l with preload := none, updates := [] }
      rw [← hy] at hyo hyf ⊢
      split
      · obtain ⟨z, hz⟩ : ∃ z, z = y.modLane k fun l =>
          { l with dwell := some y.time, restart := false, window := 0, preload := none } := ⟨_, rfl⟩
        have hzo : onlyRegs s z [⟨.ILV_LANE_STATUS, k⟩] := by rw [hz]; exact .of_eq rfl rfl hyo
        have hzf : z.frozen k = on := by rw [hz]; exact hyf
        rw [State.restartDwell, State.startDwell, ← hz]
        refine ⟨.setFld (by simp) hzo, ?_⟩
        rw [State.frozen, State.flag_eq, State.fld_setFld_apart _ _ _ _ _ _ (by decide)]
        exact hzf
      · exact ⟨hyo, hyf⟩
    · split
      · exact ⟨ho, hf⟩
      · exact hmod _

theorem State.foldl_freezeLane (l : List Nat) (on : Bool) (s : State) :
    onlyRegs s (l.foldl (fun s k => s.freezeLane k on) s) (l.map fun k => ⟨.ILV_LANE_STATUS, k⟩) ∧
      (∀ k, s.frozen k = on → (l.foldl (fun s k => s.freezeLane k on) s).frozen k = on) ∧
      ∀ k ∈ l, (l.foldl (fun s k => s.freezeLane k on) s).frozen k = on := by
  induction l generalizing s with
  | nil => exact ⟨.refl _ _, fun _ h => h, fun _ h => (by cases h)⟩
  | cons x l ih =>
    obtain ⟨ho, hkeep, hall⟩ := ih (s.freezeLane x on)
    obtain ⟨hxo, hxf⟩ := s.freezeLane_freezes x on
    refine ⟨(hxo.mono (by simp)).trans (ho.mono (by simp)), fun k hk => hkeep k ?_, fun k hk => ?_⟩
    · by_cases hkx : k = x
      · rw [hkx, hxf]
      · have hkeeps : (s.freezeLane x on).frozen k = s.frozen k :=
          State.flag_of_reg (f := Fld.ILV_LANE_STATUS_FROZEN) (hxo.1 _ _ (by simp [hkx]))
        rw [hkeeps, hk]
    · rcases List.mem_cons.1 hk with rfl | hk
      · exact hkeep k hxf
      · exact hall k hk

theorem ilvCalCtrlWrite_freezes (t : Tu) (ln : Fin 16) (v : Word) (hup : s.hostUp = true)
    (haw : s.clusterAsleep (ln / 4) = false) :
    (s.firstLane ln = ln.val → ∃ u, exec (.ilvCalCtrlWrite t ln v) s = .next u ∧
      u.flag Fld.ILV_CAL_CTRL_FREEZE ln = v.getLsbD 0 ∧ u.fld Fld.ILV_CAL_CTRL_ACT_MIN ln = getBits v 4 8 ∧
      (∀ k ∈ s.groupOf ln, u.frozen k = v.getLsbD 0) ∧
      onlyRegs s u (⟨.ILV_CAL_CTRL, ln⟩ :: (s.groupOf ln).map fun k => ⟨.ILV_LANE_STATUS, k⟩)) ∧
    (s.firstLane ln ≠ ln.val → ∃ u, exec (.ilvCalCtrlWrite t ln v) s = .next u ∧
      u.flag Fld.ILV_CAL_CTRL_FREEZE ln = v.getLsbD 0 ∧ u.lanes = s.lanes ∧ onlyRegs s u [⟨.ILV_CAL_CTRL, ln⟩]) := by
  obtain ⟨x, hx⟩ : ∃ x, x = ((s.at t).setFld Fld.ILV_CAL_CTRL_FREEZE ln (getBits v 0 1)).setFld
    Fld.ILV_CAL_CTRL_ACT_MIN ln (getBits v 4 8) := ⟨_, rfl⟩
  have hxo : onlyRegs (s.at t) x [⟨.ILV_CAL_CTRL, ln⟩] := by
    rw [hx]
    exact .setFld (by simp) (.setFld (by simp) (.refl _ _))
  have hxl : x.lanes = s.lanes := by rw [hx]; exact State.at_lanes _ _
  have hfr : x.flag Fld.ILV_CAL_CTRL_FREEZE ln = v.getLsbD 0 := by
    rw [hx, State.flag_eq, State.fld_setFld_apart _ _ _ _ _ _ (by decide),
      State.fld_setFld_of_lt _ _ _ (by decide) (getBits_lt _ _ _)]
    exact getBits_one v 0
  have hac : x.fld Fld.ILV_CAL_CTRL_ACT_MIN ln = getBits v 4 8 := by
    rw [hx, State.fld_setFld_of_lt _ _ _ (by decide) (getBits_lt _ _ _)]
  have hasl : (s.at t).clusterAsleep (ln / 4) = s.clusterAsleep (ln / 4) :=
    State.clusterAsleep_of_reg (fun _ => State.at_reg _ _ _ _) (State.at_reg _ _ _ _) (State.at_reg _ _ _ _) _
  have hex : exec (.ilvCalCtrlWrite t ln v) s = s.done (if s.firstLane ln = ln then
      (s.groupOf ln).foldl (fun s k => s.freezeLane k (v.getLsbD 0)) x else x) := by
    rw [exec, execIlvCalCtrlWrite, State.whenHost_eq hup, hasl, haw, if_neg Bool.false_ne_true,
      State.writeCalCtrl, State.at_firstLane, State.at_groupOf, ← hx]
  rw [hex]
  constructor
  · intro hfl
    obtain ⟨ho, -, hall⟩ := State.foldl_freezeLane (s.groupOf ln) (v.getLsbD 0) x
    rw [if_pos hfl]
    obtain ⟨u, hu⟩ : ∃ u, u = (s.groupOf ln).foldl (fun s k => s.freezeLane k (v.getLsbD 0)) x := ⟨_, rfl⟩
    rw [← hu] at ho hall ⊢
    have huo : onlyRegs (s.at t) u (⟨.ILV_CAL_CTRL, ln⟩ :: (s.groupOf ln).map fun k => ⟨.ILV_LANE_STATUS, k⟩) :=
      (hxo.mono (by simp)).trans (ho.mono (by simp))
    have hev : noEventReg (⟨.ILV_CAL_CTRL, ln⟩ :: (s.groupOf ln).map fun k => ⟨.ILV_LANE_STATUS, k⟩) = true := by
      simp [noEventReg, eventReg]
    obtain ⟨hd, hso⟩ := State.done_onlyRegs huo hev
    have hk : u.reg .ILV_CAL_CTRL ln = x.reg .ILV_CAL_CTRL ln := ho.1 _ _ (by simp)
    exact ⟨u, hd, by rw [State.flag_of_reg hk, hfr], by rw [State.fld_of_reg hk, hac], hall, hso⟩
  · intro hfl
    rw [if_neg hfl]
    obtain ⟨hd, hso⟩ := State.done_onlyRegs hxo rfl
    exact ⟨x, hd, hfr, hxl, hso⟩

/-- Settles O26: the phases of the dwell are those of `calShadowStart_references`, `shadowWindowEnd_judges` and
`calPreloadStart_preloads`; a handover touches one lane only, so that each lane's is found between those of the others. -/
theorem spareRotates : Obligations.SpareRotates := by
  refine ⟨fun s t ln d ha hd => ⟨fun ofs gain hph hle => ?_, fun m hph hf hw hle => ?_, fun fit hph hw hf hle => ?_⟩,
    fun s ln host e ha hpi hsb hde hle hlt hdue => ?_, fun s host hpi => ?_, fun s t ln v hup haw => ?_⟩
  · exact calShadowStart_references t ln ofs gain ha hd hph hle
  · exact shadowWindowEnd_judges t ln m ha hd hph hf hw hle
  · exact calPreloadStart_preloads t ln fit ha hd hph hw hf hle
  · exact handover_unpitched host ln ha hpi hsb hde hle hlt hdue
  · exact handover_pitched host hpi
  · exact ilvCalCtrlWrite_freezes t ln v hup haw

end Sys2Proof.Machine
end

section
/-! SUPPORT. What an operation on one record region leaves of the rest (chapters 08 and 09). -/

namespace Sys2Proof.Machine

variable {s t u w : State} {but : List Reg} {srcs : List Nat} {m : Nat}

/-- `t` is `s` after work on region `m`: its record, its listed registers and its event. -/
structure RegionWork (m : Nat) (but : List Reg) (s t : State) : Prop where
  only : onlyRaising s t but [224 + m]
  others : ∀ k, k ≠ m → t.region k = s.region k
  rest : ∃ regs regions sram nextSeq logged deferred trigOut raises pba basecamp out free seg,
    t = { s with
      regs := regs, regions := regions, trigOut := trigOut, out := out, free := free
      mgt := { s.mgt with sram := sram, nextSeq := nextSeq, logged := logged, deferred := deferred }
      evt := { s.evt with raises := raises, pba := pba, basecamp := basecamp }
      gln := { s.gln with segOpened := seg } }

theorem RegionWork.refl (m : Nat) (but : List Reg) (s : State) : RegionWork m but s s :=
  ⟨.refl _ _ _, fun _ _ => rfl, _, _, _, _, _, _, _, _, _, _, _, _, _, rfl⟩

theorem RegionWork.trans (h : RegionWork m but s t) (g : RegionWork m but t u) : RegionWork m but s u := by
  refine ⟨h.only.trans g.only, fun k hk => (g.others k hk).trans (h.others k hk), ?_⟩
  obtain ⟨_, _, _, _, _, _, _, _, _, _, _, _, _, rfl⟩ := h.rest
  obtain ⟨_, _, _, _, _, _, _, _, _, _, _, _, _, rfl⟩ := g.rest
  exact ⟨_, _, _, _, _, _, _, _, _, _, _, _, _, rfl⟩

theorem RegionWork.mono {but' : List Reg} (h : RegionWork m but s t) (hb : but ⊆ but') : RegionWork m but' s t :=
  ⟨h.only.mono hb (fun _ h => h), h.others, h.rest⟩

theorem RegionWork.ite {c : Prop} [Decidable c] {a b : State} (ha : RegionWork m but s a) (hb : RegionWork m but s b) :
    RegionWork m but s (if c then a else b) := by split <;> assumption

theorem RegionWork.time (h : RegionWork m but s t) : t.time = s.time := by
  obtain ⟨_, _, _, _, _, _, _, _, _, _, _, _, _, rfl⟩ := h.rest; rfl
theorem RegionWork.pitch (h : RegionWork m but s t) : t.pitch = s.pitch := by
  obtain ⟨_, _, _, _, _, _, _, _, _, _, _, _, _, rfl⟩ := h.rest; rfl
theorem RegionWork.spll (h : RegionWork m but s t) : t.spll = s.spll := by
  obtain ⟨_, _, _, _, _, _, _, _, _, _, _, _, _, rfl⟩ := h.rest; rfl
theorem RegionWork.tick (h : RegionWork m but s t) : t.tick = s.tick := by
  obtain ⟨_, _, _, _, _, _, _, _, _, _, _, _, _, rfl⟩ := h.rest; rfl
theorem RegionWork.mem (h : RegionWork m but s t) : t.mem = s.mem := by
  obtain ⟨_, _, _, _, _, _, _, _, _, _, _, _, _, rfl⟩ := h.rest; rfl

theorem RegionWork.fld (h : RegionWork m but s t) {f : Fld} {i : Nat} (hf : (⟨f.reg, i⟩ : Reg) ∉ but)
    (he : eventReg f.reg = false) : t.fld f i = s.fld f i := h.only.fld hf he

theorem State.setFld_regionWork (s : State) (f : Fld) (x : Nat) (hb : (⟨f.reg, m⟩ : Reg) ∈ but)
    (he : eventReg f.reg = false) : RegionWork m but s (s.setFld f m x) :=
  ⟨.setFld hb he (.refl _ _ _), fun _ _ => rfl, _, _, _, _, _, _, _, _, _, _, _, _, _, rfl⟩

theorem State.region_modRegion (s : State) (m : Nat) (f : Region → Region) :
    (s.modRegion m f).region m = f (s.region m) := tget_tmod_same _ _ _ _

theorem State.region_modRegion_ne (s : State) {m k : Nat} (f : Region → Region) (h : k ≠ m) :
    (s.modRegion m f).region k = s.region k := tget_tmod_other _ _ _ h

theorem State.region_setFld (s : State) (f : Fld) (i x m : Nat) : (s.setFld f i x).region m = s.region m := rfl

theorem State.region_of_eq (h : t.regions = s.regions) (k : Nat) : t.region k = s.region k := by
  rw [State.region, h]; rfl

theorem State.modRegion_regionWork (s : State) (m : Nat) (f : Region → Region) : RegionWork m but s (s.modRegion m f) :=
  ⟨.of_eq rfl rfl (.refl _ _ _), fun _ hk => State.region_modRegion_ne _ _ hk, _, _, _, _, _, _, _, _, _, _, _, _, _, rfl⟩

theorem Raises.regionWork (h : Raises s t [224 + m]) : RegionWork m but s t := by
  refine ⟨h.only fun _ hk => .inl hk, fun k _ => State.region_of_eq h.regions k, ?_⟩
  obtain ⟨_, _, _, _, _, _, _, _, _, _, _, rfl⟩ := h.rest
  exact ⟨_, _, _, _, _, _, _, _, _, _, _, _, _, rfl⟩

theorem State.segEvent_raises (s : State) (m bit stop miss : Nat) : Raises s (s.segEvent m bit stop miss) [224 + m] :=
  State.raise_raises _ _ _

/-! ### Stops and opened units -/

/-- The registers of a region that its units change. -/
def unitRegs (m : Nat) : List Reg := [⟨.SEG_ARM, m⟩, ⟨.SEG_OPEN_COUNT, m⟩, ⟨.SEG_STATUS, m⟩, ⟨.SEG_OVERRUN, m⟩]

/-- A stop of region `m`. -/
theorem State.stopRegion_reads (s : State) (m cause : Nat) (x : Ratio) :
    RegionWork m [⟨.SEG_ARM, m⟩, ⟨.SEG_STATUS, m⟩] s (s.stopRegion m cause x) ∧ (s.stopRegion m cause x).segState m = 5 ∧
      (s.stopRegion m cause x).fld Fld.SEG_STATUS_STOP_CAUSE m = cause % 4 ∧
      (s.stopRegion m cause x).region m = { s.region m with stopAfter := 0, stoppedAt := some x } := by
  obtain ⟨y, hy⟩ : ∃ y, y = ((s.setSeg m 5).setFld Fld.SEG_STATUS_STOP_CAUSE m cause).modRegion m fun r =>
    { r with stopAfter := 0, stoppedAt := some x } := ⟨_, rfl⟩
  have hw : RegionWork m [⟨.SEG_ARM, m⟩, ⟨.SEG_STATUS, m⟩] s y := by
    rw [hy]
    exact ((s.setFld_regionWork Fld.SEG_ARM_STATE 5 (by simp) rfl).trans
      (State.setFld_regionWork _ Fld.SEG_STATUS_STOP_CAUSE _ (by simp) rfl)).trans (State.modRegion_regionWork _ _ _)
  have hr : Raises y (s.stopRegion m cause x) [224 + m] := by
    rw [hy]
    exact State.segEvent_raises _ _ _ _ _
  refine ⟨hw.trans hr.regionWork, ?_, ?_, ?_⟩
  · rw [State.segState, hr.fld _ _ rfl, hy]
    exact (State.fld_setFld_ne _ _ _ _ _ _ (by decide)).trans (State.fld_setFld_of_lt _ _ _ (by decide) (by decide))
  · rw [hr.fld _ _ rfl, hy]
    exact State.fld_setFld_eq _ _ _ _ (by decide)
  · rw [State.region_of_eq hr.regions, hy, State.region_modRegion]
    rfl

/-- A unit of region `m` opens. -/
theorem State.openUnit_reads (s : State) (m : Nat) (x : Ratio) :
    RegionWork m [⟨.SEG_OPEN_COUNT, m⟩, ⟨.SEG_STATUS, m⟩, ⟨.SEG_OVERRUN, m⟩] s (s.openUnit m x) ∧
      (s.openUnit m x).fld Fld.SEG_OPEN_COUNT_COUNT m = (s.fld Fld.SEG_OPEN_COUNT_COUNT m + 1) % 2 ^ 32 ∧
      (s.openUnit m x).region m = { s.region m with count := (s.region m).count + 1 } := by
  obtain ⟨y, hy⟩ : ∃ y, y = (s.bumpMod Fld.SEG_OPEN_COUNT_COUNT m 1).modRegion m fun r =>
    { r with count := r.count + 1 } := ⟨_, rfl⟩
  have hw : RegionWork m [⟨.SEG_OPEN_COUNT, m⟩, ⟨.SEG_STATUS, m⟩, ⟨.SEG_OVERRUN, m⟩] s y := by
    rw [hy]
    exact (s.setFld_regionWork Fld.SEG_OPEN_COUNT_COUNT _ (by simp) rfl).trans (State.modRegion_regionWork _ _ _)
  have hyf : y.fld Fld.SEG_OPEN_COUNT_COUNT m = (s.fld Fld.SEG_OPEN_COUNT_COUNT m + 1) % 2 ^ 32 := by
    rw [hy]
    exact State.fld_setFld_of_lt _ _ _ (by decide) (Nat.mod_lt _ (by decide))
  have hyr : y.region m = { s.region m with count := (s.region m).count + 1 } := by
    rw [hy, State.region_modRegion]
    rfl
  obtain ⟨z, hz⟩ : ∃ z, z = (y.setFld Fld.SEG_STATUS_OVERRUN m 1).bump Fld.SEG_OVERRUN_COUNT m 1 := ⟨_, rfl⟩
  have hzw : RegionWork m [⟨.SEG_OPEN_COUNT, m⟩, ⟨.SEG_STATUS, m⟩, ⟨.SEG_OVERRUN, m⟩] s z := by
    rw [hz]
    exact (hw.trans (State.setFld_regionWork _ Fld.SEG_STATUS_OVERRUN _ (by simp) rfl)).trans
      (State.setFld_regionWork _ Fld.SEG_OVERRUN_COUNT _ (by simp) rfl)
  have hzf : z.fld Fld.SEG_OPEN_COUNT_COUNT m = y.fld Fld.SEG_OPEN_COUNT_COUNT m := by
    rw [hz]
    exact (State.fld_setFld_ne _ _ _ _ _ _ (by decide)).trans (State.fld_setFld_ne _ _ _ _ _ _ (by decide))
  have hzr : z.region m = y.region m := by rw [hz]; rfl
  have hr := z.segEvent_raises m 2 0 0
  unfold State.openUnit
  dsimp only
  rw [← hy]
  split
  · rw [← hz]
    refine ⟨hzw.trans hr.regionWork, ?_, ?_⟩
    · rw [hr.fld _ _ rfl, hzf, hyf]
    · rw [State.region_of_eq hr.regions, hzr, hyr]
  · exact ⟨hw, hyf, hyr⟩

end Sys2Proof.Machine
end

section
/-! The blocks of continuous regions, and the stacks' fill, temperature and errors (R17, R214, R224, R225, R230 to R233). -/

namespace Sys2Proof.Machine

variable {s t u w : State} {but : List Reg} {srcs : List Nat} {m : Nat}

/-! ### Blocks -/

/-- The registers of a region that its blocks change. -/
def blockRegs (m : Nat) : List Reg := ⟨.SEG_CONT_FILL, m⟩ :: unitRegs m

/-- What the end of blocks of region `m` leaves: it goes on, or it has stopped, a wrapping one never. -/
structure BlockWork (m : Nat) (s t : State) : Prop where
  work : RegionWork m (blockRegs m) s t
  state : t.segState m = s.segState m ∨ t.segState m = 5
  wraps : regionMode s.pitch.recs m = 2 → t.segState m = s.segState m
  arm : (t.region m).armNo = (s.region m).armNo

theorem BlockWork.refl (m : Nat) (s : State) : BlockWork m s s := ⟨.refl _ _ _, .inl rfl, fun _ => rfl, rfl⟩

theorem BlockWork.trans (h : BlockWork m s t) (g : BlockWork m t u) : BlockWork m s u := by
  refine ⟨h.work.trans g.work, ?_, fun hm => ?_, g.arm.trans h.arm⟩
  · rcases g.state with hg | hg
    · rw [hg]
      exact h.state
    · exact .inr hg
  · rw [g.wraps (by rw [h.work.pitch]; exact hm), h.wraps hm]

theorem State.modRegion_blockWork (s : State) (m : Nat) (f : Region → Region) (hf : ∀ r, (f r).armNo = r.armNo) :
    BlockWork m s (s.modRegion m f) :=
  ⟨State.modRegion_regionWork _ _ _, .inl rfl, fun _ => rfl, by rw [State.region_modRegion, hf]⟩

theorem State.contFill_blockWork (s : State) (m x : Nat) : BlockWork m s (s.setFld Fld.SEG_CONT_FILL_SAMPLES m x) := by
  have h : (s.setFld Fld.SEG_CONT_FILL_SAMPLES m x).segState m = s.segState m := State.fld_setFld_ne _ _ _ _ _ _ (by decide)
  exact ⟨State.setFld_regionWork _ _ _ (by simp [blockRegs]) rfl, .inl h, fun _ => h, rfl⟩

theorem State.openUnit_blockWork (s : State) (m : Nat) (x : Ratio) : BlockWork m s (s.openUnit m x) := by
  obtain ⟨hw, -, hr⟩ := s.openUnit_reads m x
  have h : (s.openUnit m x).segState m = s.segState m := hw.fld (by simp) rfl
  exact ⟨hw.mono (by simp [blockRegs, unitRegs]), .inl h, fun _ => h, by rw [hr]⟩

theorem State.nextBlock_blockWork (s : State) (m : Nat) : BlockWork m s (s.nextBlock m) := by
  unfold State.nextBlock
  split
  · exact .refl _ _
  · next b _ =>
    dsimp only
    obtain ⟨y, hy⟩ : ∃ y, y = s.modRegion m fun r =>
      { r with block := none,
               ended := r.ended ++ [(⟨b, r.count - 1, r.armNo, s.refInstant m (b + 3072), none⟩ : Block)] } := ⟨_, rfl⟩
    have hsy : BlockWork m s y := by rw [hy]; exact State.modRegion_blockWork _ _ _ (by intro _; rfl)
    rw [← hy]
    split
    · next h =>
      obtain ⟨hw, h5, -, hr⟩ := (y.setFld Fld.SEG_CONT_FILL_SAMPLES m 3072).stopRegion_reads m 1 (s.refInstant m (b + 3072))
      refine ⟨(hsy.trans (y.contFill_blockWork m 3072)).work.trans (hw.mono (by simp [blockRegs, unitRegs])), .inr h5,
        fun h2 => ?_, ?_⟩
      · rw [h2] at h
        exact absurd h.1 (by decide)
      · rw [hr]
        exact hsy.arm
    · exact (hsy.trans (y.openUnit_blockWork m _)).trans (State.modRegion_blockWork _ _ _ (by intro _; rfl))

theorem State.passBlocks_blockWork (s : State) (m : Nat) (k : Int) : BlockWork m s (s.passBlocks m k) := by
  unfold State.passBlocks
  split
  · exact .refl _ _
  · next b hb =>
    clear hb
    unfold State.each
    generalize List.range _ = l
    induction l generalizing s with
    | nil => exact .refl _ _
    | cons x l ih => exact (s.nextBlock_blockWork m).trans (ih _)

theorem State.cutBlock_blockWork (s : State) (m : Nat) (x : Ratio) : BlockWork m s (s.cutBlock m x) := by
  have h := s.passBlocks_blockWork m (s.sampleAt (m / 16) (refF s.pitch.recs m) x)
  unfold State.cutBlock
  dsimp only
  split
  · exact h
  · exact (h.trans (State.contFill_blockWork _ _ _)).trans (State.modRegion_blockWork _ _ _ (by intro _; rfl))

/-- A continuous region that records stops: a wrapping one with the cause given. -/
theorem State.stopBlock_stops (s : State) (m cause : Nat) (x : Ratio) (h3 : s.segState m = 3) :
    RegionWork m (blockRegs m) s (s.stopBlock m cause x) ∧ (s.stopBlock m cause x).segState m = 5 ∧
      (regionMode s.pitch.recs m = 2 → (s.stopBlock m cause x).fld Fld.SEG_STATUS_STOP_CAUSE m = cause % 4) := by
  have hc := s.cutBlock_blockWork m x
  unfold State.stopBlock
  dsimp only
  split
  · obtain ⟨hw, h5, hcause, -⟩ := (s.cutBlock m x).stopRegion_reads m cause x
    exact ⟨hc.work.trans (hw.mono (by simp [blockRegs, unitRegs])), h5, fun _ => hcause⟩
  · next hn =>
    refine ⟨hc.work, ?_, fun h2 => absurd ((hc.wraps h2).trans h3) hn⟩
    rcases hc.state with h | h
    · exact absurd (h.trans h3) hn
    · exact h

/-! ### A full write buffer -/

/-- What the work on other regions leaves of region `m`. -/
structure RegionKept (m : Nat) (s t : State) : Prop where
  region : t.region m = s.region m
  fld : ∀ f : Fld, f.reg ∈ [RegName.SEG_ARM, .SEG_STATUS] → t.fld f m = s.fld f m
  pitch : t.pitch = s.pitch
  mem : ∀ a, memGet t.mem a = memGet s.mem a

theorem RegionKept.refl (m : Nat) (s : State) : RegionKept m s s := ⟨rfl, fun _ _ => rfl, rfl, fun _ => rfl⟩

theorem RegionKept.trans (h : RegionKept m s t) (g : RegionKept m t u) : RegionKept m s u :=
  ⟨g.region.trans h.region, fun f hf => (g.fld f hf).trans (h.fld f hf), g.pitch.trans h.pitch,
    fun a => (g.mem a).trans (h.mem a)⟩

theorem segReg_plain {n : RegName} (h : n ∈ [RegName.SEG_ARM, .SEG_STATUS]) : eventReg n = false := by
  simp only [List.mem_cons, List.not_mem_nil, or_false] at h
  rcases h with rfl | rfl <;> rfl

theorem RegionWork.keeps {k : Nat} (h : RegionWork k (blockRegs k) s t) (hk : m ≠ k) : RegionKept m s t :=
  ⟨h.others m hk, fun f hf => h.fld (by simp [blockRegs, unitRegs, hk]) (segReg_plain hf), h.pitch, fun a => by rw [h.mem]⟩

/-- The step of one member of a list, between those of the others. -/
theorem foldl_between {α σ : Type} {R : σ → σ → Prop} {f : σ → α → σ} {x : α} (hr : ∀ a, R a a)
    (htr : ∀ {a b c}, R a b → R b c → R a c) (ho : ∀ a y, y ≠ x → R a (f a y)) :
    ∀ (l : List α) (s : σ), l.Nodup → x ∈ l → ∃ a, R s a ∧ R (f a x) (l.foldl f s) := by
  have hothers : ∀ (l : List α) (s : σ), x ∉ l → R s (l.foldl f s) := by
    intro l
    induction l with
    | nil => exact fun s _ => hr s
    | cons y l ih =>
      intro s hx
      exact htr (ho s y fun h => hx (h ▸ List.mem_cons_self ..)) (ih _ fun h => hx (List.mem_cons_of_mem _ h))
  intro l
  induction l with
  | nil => exact fun s _ hx => absurd hx (by simp)
  | cons y l ih =>
    intro s hd hx
    obtain ⟨hy, hd⟩ := List.nodup_cons.1 hd
    by_cases hyx : y = x
    · subst hyx
      exact ⟨s, hr s, hothers l _ hy⟩
    · obtain ⟨a, ha, hb⟩ := ih (f s y) hd ((List.mem_cons.1 hx).resolve_left (Ne.symm hyx))
      exact ⟨a, htr (ho s y hyx) ha, hb⟩

theorem State.stopBlock_work (s : State) (m cause : Nat) (x : Ratio) :
    RegionWork m (blockRegs m) s (s.stopBlock m cause x) := by
  have hc := s.cutBlock_blockWork m x
  unfold State.stopBlock
  dsimp only
  split
  · exact hc.work.trans (((s.cutBlock m x).stopRegion_reads m cause x).1.mono (by simp [blockRegs, unitRegs]))
  · exact hc.work

/-- Continuous regions stop one after the other. -/
def State.stopBlocks (s : State) (l : List Nat) (cause : Nat) : State :=
  l.foldl (fun s m => s.stopBlock m cause (.ofTu s.time)) s

theorem State.stopBlocks_stop (l : List Nat) (cause : Nat) (s : State) (hd : l.Nodup) (h3 : ∀ m ∈ l, s.segState m = 3) :
    ∀ m ∈ l, (s.stopBlocks l cause).segState m = 5 ∧ (regionMode s.pitch.recs m = 2 →
      (s.stopBlocks l cause).fld Fld.SEG_STATUS_STOP_CAUSE m = cause % 4) := by
  intro m hm
  have hstep (a : State) (k : Nat) (hk : k ≠ m) : RegionKept m a (a.stopBlock k cause (.ofTu a.time)) :=
    (a.stopBlock_work k cause _).keeps (Ne.symm hk)
  obtain ⟨a, hsa, hab⟩ := foldl_between (f := fun (s : State) m => s.stopBlock m cause (.ofTu s.time))
    (RegionKept.refl m) RegionKept.trans hstep l s hd hm
  have ha3 : a.segState m = 3 := (hsa.fld Fld.SEG_ARM_STATE (by decide)).trans (h3 m hm)
  obtain ⟨-, h5, hcause⟩ := a.stopBlock_stops m cause (.ofTu a.time) ha3
  refine ⟨(hab.fld Fld.SEG_ARM_STATE (by decide)).trans h5, fun h2 => ?_⟩
  exact (hab.fld Fld.SEG_STATUS_STOP_CAUSE (by decide)).trans (hcause (by rw [hsa.pitch]; exact h2))

theorem State.stopBlocks_keeps (l : List Nat) (cause : Nat) (s : State) :
    (∀ a, memGet (s.stopBlocks l cause).mem a = memGet s.mem a) ∧
      ∀ f i, f.reg = .MEM_WBUF → (s.stopBlocks l cause).fld f i = s.fld f i := by
  unfold State.stopBlocks
  induction l generalizing s with
  | nil => exact ⟨fun _ => rfl, fun _ _ _ => rfl⟩
  | cons m l ih =>
    obtain ⟨hmem, hfld⟩ := ih (s.stopBlock m cause (.ofTu s.time))
    have hw := s.stopBlock_work m cause (.ofTu s.time)
    refine ⟨fun a => (hmem a).trans (by rw [hw.mem]), fun f i hf => (hfld f i hf).trans (hw.fld ?_ (by rw [hf]; rfl))⟩
    simp [blockRegs, unitRegs, hf]

theorem State.contOf_nodup (s : State) (c : Nat) : (s.contOf c).Nodup := (List.nodup_range).filter _

theorem State.segState_of_contOf {c : Nat} (h : m ∈ s.contOf c) : s.segState m = 3 := by
  simp only [State.contOf, List.mem_filter, Bool.and_eq_true, beq_iff_eq] at h
  exact h.2.1.2

/-- The fill of a write buffer is shown, and may raise HIGH. -/
def State.fillNoted (s : State) (c fill : Nat) : State :=
  let s1 := s.setFld Fld.MEM_WBUF_FILL c fill
  if 196608 < fill then
    let s' := s1.setFld Fld.MEM_WBUF_HIGH_SEEN c 1
    if s.flag Fld.MEM_WBUF_HIGH_SEEN c || decide (196608 < s.fld Fld.MEM_WBUF_FILL c) then s' else s'.raise0 (272 + c)
  else s1

theorem State.wbuf_eq (s : State) (c fill : Nat) :
    s.wbuf c fill = if fill = 262144 then (s.fillNoted c fill).stopBlocks (s.contOf c) 3 else s.fillNoted c fill := rfl

end Sys2Proof.Machine
end

section
/-! The stacks: fill of the write buffers, temperature, errors (R17, R230, R232, R233). -/

namespace Sys2Proof.Machine

variable {s t u w : State} {but : List Reg} {srcs : List Nat} {m : Nat}

/-! ### Counters that raise at their first count -/

theorem State.fld_bump_lt (s : State) (f : Fld) (i : Nat) (h : f.lsb + f.width ≤ 32) (hlt : s.fld f i < 2 ^ f.width - 1) :
    (s.bump f i 1).fld f i = s.fld f i + 1 := by
  rw [State.bump, Nat.min_eq_left (by omega), State.fld_setFld_of_lt _ _ _ h (by omega)]

/-- A command that counts in a counter and raises at the first count since it was read. -/
theorem State.done_bumpRaise {x : Tu} {f : Fld} {i k causes info : Nat} (h : f.lsb + f.width ≤ 32)
    (hb : plainRegs [⟨f.reg, i⟩] = true) (hk : followsRaise k = false) (hlt : s.fld f i < 2 ^ f.width - 1) :
    ∃ u, s.done ((s.at x).bumpRaise f i k causes info) = .next u ∧ u.fld f i = s.fld f i + 1 ∧
      (s.fld f i = 0 → s.raisable k → u.evtStatus k = true) ∧ onlyRaising s u [⟨f.reg, i⟩] [k] := by
  have hwo : onlyRegs (s.at x) ((s.at x).bump f i 1) [⟨f.reg, i⟩] := .bump (by simp) (.refl _ _)
  obtain ⟨u, hu, hr⟩ := State.done_raisedIf (c := s.fld f i = 0) (causes := causes) (info := info) hwo hb hk
  have he : eventReg f.reg = false := by
    simp only [plainRegs, List.all_cons, List.all_nil, Bool.and_true, Bool.and_eq_true, Bool.not_eq_true'] at hb
    exact hb.1
  refine ⟨u, ?_, ?_, hr.status, hr.only⟩
  · rw [State.bumpRaise, State.at_fld]
    exact hu
  · rw [hr.fld _ _ he, State.fld_bump_lt _ _ _ h (by rw [State.at_fld]; exact hlt), State.at_fld]

/-! ### Events of a cluster's and of a die's memory -/

theorem State.raisable_wbuf {c : Fin 4} (hc : s.clusterAsleep c = false) (hr : s.fld Fld.EVT_ROUTE_KIND (272 + c) ≠ 1) :
    s.raisable (272 + c) := by
  have hv : ∀ c : Fin 4, evtValid (272 + c) = true := by decide
  refine ⟨hv c, ?_, ?_, hr⟩
  · have hlt := c.isLt
    rw [State.evtAsleep, if_neg (by omega), if_neg (by omega), if_neg (by omega), if_neg (by omega), if_pos (by omega),
      Nat.add_sub_cancel_left, hc]
  · rw [State.evtAbsent, decide_eq_false (by omega), Bool.false_and]

theorem followsRaise_mem {k : Nat} (h1 : 272 ≤ k) (h2 : k ≤ 285) : followsRaise k = false := by
  rw [followsRaise, decide_eq_false (by omega : ¬ k ≤ 263), Bool.and_false, Bool.false_or, beq_eq_false_iff_ne]
  omega

/-- The events 276 to 285 of die e. -/
theorem State.raisable_stack {e : Fin 2} {k : Nat} (hk : k < 5) (hd : s.dieAsleep e = false)
    (hr : s.fld Fld.EVT_ROUTE_KIND (276 + 2 * k + e) ≠ 1) : s.raisable (276 + 2 * k + e) := by
  have hv : ∀ (e : Fin 2) (k : Fin 5), evtValid (276 + 2 * k + e) = true := by decide
  have hlt := e.isLt
  refine ⟨hv e ⟨k, hk⟩, ?_, ?_, hr⟩
  · rw [State.evtAsleep, if_neg (by omega), if_neg (by omega), if_neg (by omega), if_neg (by omega), if_neg (by omega),
      if_pos (by omega), show (276 + 2 * k + e.val) % 2 = e by omega, hd]
  · rw [State.evtAbsent, decide_eq_false (by omega), Bool.false_and]

/-! ### The write buffers -/

/-- The write buffer's register with a fill noted. -/
def State.fillShown (s : State) (c fill : Nat) : State :=
  if 196608 < fill then (s.setFld Fld.MEM_WBUF_FILL c fill).setFld Fld.MEM_WBUF_HIGH_SEEN c 1
  else s.setFld Fld.MEM_WBUF_FILL c fill

theorem State.fillNoted_eq (s : State) (c fill : Nat) :
    s.fillNoted c fill =
      if 196608 < fill ∧ s.flag Fld.MEM_WBUF_HIGH_SEEN c = false ∧ s.fld Fld.MEM_WBUF_FILL c ≤ 196608 then
        (s.fillShown c fill).raise (272 + c) 1 0
      else s.fillShown c fill := by
  unfold State.fillNoted State.fillShown
  by_cases h : 196608 < fill
  · rw [if_pos h, if_pos h]
    dsimp only
    by_cases hq : s.flag Fld.MEM_WBUF_HIGH_SEEN c = false ∧ s.fld Fld.MEM_WBUF_FILL c ≤ 196608
    · rw [hq.1, Bool.false_or, decide_eq_false (by omega), if_neg Bool.false_ne_true, if_pos ⟨h, rfl, hq.2⟩]
      rfl
    · have hor : (s.flag Fld.MEM_WBUF_HIGH_SEEN c || decide (196608 < s.fld Fld.MEM_WBUF_FILL c)) = true := by
        by_contra hn
        simp only [Bool.or_eq_true, decide_eq_true_eq, not_or, Bool.not_eq_true] at hn
        exact hq ⟨hn.1, by omega⟩
      rw [hor, if_pos rfl, if_neg fun hh => hq hh.2]
  · rw [if_neg h, if_neg h, if_neg fun hh => h hh.1]

theorem State.fillShown_shows (s : State) (c : Nat) {fill : Nat} (hlt : fill < 2 ^ 19) :
    onlyRegs s (s.fillShown c fill) [⟨.MEM_WBUF, c⟩] ∧ (s.fillShown c fill).fld Fld.MEM_WBUF_FILL c = fill := by
  have h : (s.setFld Fld.MEM_WBUF_FILL c fill).fld Fld.MEM_WBUF_FILL c = fill := State.fld_setFld_of_lt _ _ _ (by decide) hlt
  unfold State.fillShown
  split
  · exact ⟨.setFld (by simp) (.setFld (by simp) (.refl _ _)), (State.fld_setFld_apart _ _ _ _ _ _ (by decide)).trans h⟩
  · exact ⟨.setFld (by simp) (.refl _ _), h⟩

theorem execMemWbufHigh_awake (t : Tu) (c : Fin 4) (fill : Fin 262145) (ha : s.alive = true)
    (hc : s.clusterAsleep c = false) : exec (.memWbufHigh t c fill) s = s.done ((s.at t).wbuf c fill) := by
  rw [exec, execMemWbufHigh, State.when_eq ha, State.at_clusterAsleep, hc, if_neg Bool.false_ne_true]

theorem memWbufHigh_shows (t : Tu) (c : Fin 4) (fill : Fin 262145) (ha : s.alive = true)
    (hc : s.clusterAsleep c = false) (hfill : fill.val < 262144) :
    ∃ u, exec (.memWbufHigh t c fill) s = .next u ∧ u.fld Fld.MEM_WBUF_FILL c = fill ∧
      (196608 < fill.val → s.flag Fld.MEM_WBUF_HIGH_SEEN c = false → s.fld Fld.MEM_WBUF_FILL c ≤ 196608 →
        s.fld Fld.EVT_ROUTE_KIND (272 + c) ≠ 1 → u.evtStatus (272 + c) = true) ∧
      (fill.val ≤ 196608 → sameSource s u (272 + c)) ∧ onlyRaising s u [⟨.MEM_WBUF, c⟩] [272 + c] := by
  obtain ⟨hwo, hwf⟩ := (s.at t).fillShown_shows c (fill := fill) (by omega)
  obtain ⟨u, hu, hr⟩ := State.done_raisedIf (k := 272 + c) (causes := 1) (info := 0)
    (c := 196608 < fill.val ∧ s.flag Fld.MEM_WBUF_HIGH_SEEN c = false ∧ s.fld Fld.MEM_WBUF_FILL c ≤ 196608) hwo (by rfl)
    (followsRaise_mem (by omega) (by omega))
  refine ⟨u, ?_, ?_, fun h1 h2 h3 h4 => hr.status ⟨h1, h2, h3⟩ (State.raisable_wbuf hc h4),
    fun h => hr.quiet (by omega), hr.only⟩
  · rw [execMemWbufHigh_awake t c fill ha hc, State.wbuf_eq, if_neg (by omega), State.fillNoted_eq, State.at_flag,
      State.at_fld]
    exact hu
  · rw [hr.fld _ _ rfl, hwf]

theorem memWbufHigh_full (t : Tu) (c : Fin 4) (ha : s.alive = true) (hc : s.clusterAsleep c = false) :
    ∃ u, exec (.memWbufHigh t c 262144) s = .next u ∧ u.fld Fld.MEM_WBUF_FILL c = 262144 ∧
      (∀ m ∈ s.contOf c, u.segState m = 5 ∧
        (regionMode s.pitch.recs m = 2 → u.fld Fld.SEG_STATUS_STOP_CAUSE m = 3)) ∧ sameMem s u := by
  obtain ⟨hwo, hwf⟩ := (s.at t).fillShown_shows c (fill := 262144) (by decide)
  obtain ⟨x, hx⟩ : ∃ x, x = (s.at t).fillNoted c 262144 := ⟨_, rfl⟩
  have hxr : Raises ((s.at t).fillShown c 262144) x [272 + c] := by
    rw [hx, State.fillNoted_eq]
    split
    · exact State.raise_raises _ _ _
    · exact .refl _ _
  have hxs (k : Nat) : x.segState k = s.segState k := by
    rw [State.segState, hxr.fld _ _ rfl, State.fld_of_reg (hwo.1 _ _ (by simp)), State.at_fld]
    rfl
  have hxp : x.pitch = s.pitch := by
    rw [hxr.pitch, State.fillShown]
    split <;> exact State.at_pitch _ _
  have hxm : sameMem s x := fun a => by rw [hxr.mem, hwo.2, State.at_mem]
  have hcont : (s.at t).contOf c = s.contOf c := by
    have hseg (k : Nat) : (s.at t).segState k = s.segState k := State.at_fld _ _ _ _
    simp only [State.contOf, State.hasRegion, State.continuous, State.segChans, State.at_pitch, hseg]
  have hstop := State.stopBlocks_stop (s.contOf c) 3 x (s.contOf_nodup c) fun m hm => by
    rw [hxs, State.segState_of_contOf hm]
  obtain ⟨hmem, hfill⟩ := State.stopBlocks_keeps (s.contOf c) 3 x
  obtain ⟨u, hu, hr⟩ := s.done_notes (x.stopBlocks (s.contOf c) 3)
  refine ⟨u, ?_, ?_, fun m hm => ?_, fun a => ?_⟩
  · rw [execMemWbufHigh_awake t c 262144 ha hc, State.wbuf_eq, if_pos (by rfl), hcont]
    rw [hx] at hu
    exact hu
  · rw [hr.fld _ _ rfl, hfill _ _ rfl, hxr.fld _ _ rfl, hwf]
  · obtain ⟨h5, hcause⟩ := hstop m hm
    refine ⟨?_, fun h2 => ?_⟩
    · rw [State.segState, hr.fld _ _ rfl]
      exact h5
    · rw [hr.fld _ _ rfl]
      exact hcause (by rw [hxp]; exact h2)
  · rw [hr.mem, hmem, hxm]

/-! ### Temperature and errors of a stack -/

/-- REFRESH_2X of a stack is set or cleared with its event, where a condition holds. -/
theorem State.done_refreshIf (x : Tu) (e : Fin 2) (temp : BitVec 16) (b : Bool) (c : Prop) [Decidable c]
    (hd : s.dieAsleep e = false) :
    ∃ u, s.done (if c then (((s.at x).setFld Fld.MEM_STATUS_TEMP e temp.toNat).setFld Fld.MEM_STATUS_REFRESH_2X e
        b.toNat).raise0 (280 + e) else (s.at x).setFld Fld.MEM_STATUS_TEMP e temp.toNat) = .next u ∧
      u.fld Fld.MEM_STATUS_TEMP e = temp.toNat ∧
      u.flag Fld.MEM_STATUS_REFRESH_2X e = (if c then b else s.flag Fld.MEM_STATUS_REFRESH_2X e) ∧
      (c → s.fld Fld.EVT_ROUTE_KIND (280 + e) ≠ 1 → u.evtStatus (280 + e) = true) ∧
      onlyRaising s u [⟨.MEM_STATUS, e⟩] [280 + e] := by
  obtain ⟨y, hy⟩ : ∃ y, y = (s.at x).setFld Fld.MEM_STATUS_TEMP e temp.toNat := ⟨_, rfl⟩
  obtain ⟨z, hz⟩ : ∃ z, z = y.setFld Fld.MEM_STATUS_REFRESH_2X e b.toNat := ⟨_, rfl⟩
  have hyo : onlyRegs (s.at x) y [⟨.MEM_STATUS, e⟩] := by rw [hy]; exact .setFld (by simp) (.refl _ _)
  have hyt : y.fld Fld.MEM_STATUS_TEMP e = temp.toNat := by
    rw [hy, State.fld_setFld_of_lt _ _ _ (by decide) temp.isLt]
  have hyf : y.fld Fld.MEM_STATUS_REFRESH_2X e = s.fld Fld.MEM_STATUS_REFRESH_2X e := by
    rw [hy, State.fld_setFld_apart _ _ _ _ _ _ (by decide), State.at_fld]
  have hk : followsRaise (280 + e) = false := followsRaise_mem (by omega) (by omega)
  rw [← hy, ← hz]
  by_cases hc : c
  · have hzo : onlyRegs (s.at x) z [⟨.MEM_STATUS, e⟩] := by rw [hz]; exact .setFld (by simp) hyo
    have hzt : z.fld Fld.MEM_STATUS_TEMP e = temp.toNat := by
      rw [hz, State.fld_setFld_apart _ _ _ _ _ _ (by decide), hyt]
    have hzf : z.flag Fld.MEM_STATUS_REFRESH_2X e = b := by
      rw [hz, State.flag_eq, State.fld_setFld_of_lt _ _ _ (by decide) (by cases b <;> decide)]
      cases b <;> rfl
    obtain ⟨u, hu, hr⟩ := State.done_raisedIf (c := True) (causes := 1) (info := 0) hzo (by rfl) hk
    rw [if_pos hc, if_pos hc]
    refine ⟨u, hu, by rw [hr.fld _ _ rfl, hzt], by rw [← hzf, State.flag, State.flag, hr.fld _ _ rfl], fun _ hkind => ?_,
      hr.only⟩
    exact hr.status trivial (State.raisable_stack (k := 2) (by decide) hd hkind)
  · obtain ⟨hdn, ho⟩ := State.done_onlyRegs hyo rfl
    rw [if_neg hc, if_neg hc]
    exact ⟨y, hdn, hyt, by rw [State.flag, hyf]; rfl, fun h => absurd h hc, (onlyRegs.raising ho rfl)⟩

theorem stackTempRead_watches (t : Tu) (e : Fin 2) (temp : BitVec 16) (ha : s.alive = true) (hd : s.dieAsleep e = false) :
    ∃ u, exec (.stackTempRead t e temp) s = .next u ∧ u.fld Fld.MEM_STATUS_TEMP e = temp.toNat ∧
      (s.flag Fld.MEM_STATUS_REFRESH_2X e = false →
        (u.flag Fld.MEM_STATUS_REFRESH_2X e = true ↔ 850 < temp.toInt) ∧
        (850 < temp.toInt → s.fld Fld.EVT_ROUTE_KIND (280 + e) ≠ 1 → u.evtStatus (280 + e) = true)) ∧
      (s.flag Fld.MEM_STATUS_REFRESH_2X e = true →
        (u.flag Fld.MEM_STATUS_REFRESH_2X e = true ↔ 830 ≤ temp.toInt)) ∧
      onlyRaising s u [⟨.MEM_STATUS, e⟩] [280 + e] := by
  have hex : exec (.stackTempRead t e temp) s = s.done ((s.at t).stackTemp e temp) := by
    rw [exec, execStackTempRead, State.when_eq ha, State.at_dieAsleep, hd, if_neg Bool.false_ne_true]
  rw [hex, State.stackTemp, State.at_flag]
  cases hon : s.flag Fld.MEM_STATUS_REFRESH_2X e with
  | false =>
    obtain ⟨u, hu, ht, hf, hst, ho⟩ := State.done_refreshIf (s := s) t e temp true (850 < temp.toInt) hd
    refine ⟨u, ?_, ht, fun _ => ⟨?_, hst⟩, fun h => (by cases h), ho⟩
    · simpa only [Bool.not_false, Bool.true_and, Bool.false_and, decide_eq_true_eq, Bool.false_eq_true, if_false,
        Bool.toNat_true] using hu
    · rw [hf, hon]
      split <;> simp_all
  | true =>
    obtain ⟨u, hu, ht, hf, hst, ho⟩ := State.done_refreshIf (s := s) t e temp false (temp.toInt < 830) hd
    refine ⟨u, ?_, ht, fun h => (by cases h), fun _ => ?_, ho⟩
    · simpa only [Bool.not_true, Bool.true_and, Bool.false_and, decide_eq_true_eq, Bool.false_eq_true, if_false,
        Bool.toNat_false] using hu
    · rw [hf, hon]
      split
      · next h => simp only [Bool.false_eq_true, false_iff]; omega
      · next h => simp only [true_iff]; omega

theorem memUe_logs (t : Tu) (e : Fin 2) (a : BitVec 34) (bar2 : Option Nat) (ha : s.alive = true)
    (hd : s.dieAsleep e = false) (hlt : s.fld Fld.MEM_UE_CNT_COUNT e < 2 ^ 32 - 1) :
    ∃ u, exec (.memUe t e a bar2) s = .next u ∧ u.fld Fld.MEM_UE_CNT_COUNT e = s.fld Fld.MEM_UE_CNT_COUNT e + 1 ∧
      (s.fld Fld.MEM_UE_CNT_COUNT e = 0 → u.pair .MEM_UE_ADDR_LO .MEM_UE_ADDR_HI e = a.setWidth 64) ∧
      (s.fld Fld.MEM_UE_CNT_COUNT e ≠ 0 →
        u.pair .MEM_UE_ADDR_LO .MEM_UE_ADDR_HI e = s.pair .MEM_UE_ADDR_LO .MEM_UE_ADDR_HI e) ∧
      (s.fld Fld.EVT_ROUTE_KIND (278 + e) ≠ 1 → u.evtStatus (278 + e) = true) ∧
      onlyRaising s u [⟨.MEM_UE_CNT, e⟩, ⟨.MEM_UE_ADDR_LO, e⟩, ⟨.MEM_UE_ADDR_HI, e⟩] [278 + e] := by
  obtain ⟨y, hy⟩ : ∃ y, y = (s.at t).bump Fld.MEM_UE_CNT_COUNT e 1 := ⟨_, rfl⟩
  obtain ⟨w, hw⟩ : ∃ w, w = if s.fld Fld.MEM_UE_CNT_COUNT e = 0 then
    y.setPair .MEM_UE_ADDR_LO .MEM_UE_ADDR_HI e (BitVec.ofNat 64 a.toNat) else y := ⟨_, rfl⟩
  have hwo : onlyRegs (s.at t) w [⟨.MEM_UE_CNT, e⟩, ⟨.MEM_UE_ADDR_LO, e⟩, ⟨.MEM_UE_ADDR_HI, e⟩] := by
    rw [hw, hy]
    exact .ite (.setReg (by simp) (.setReg (by simp) (.bump (by simp) (.refl _ _)))) (.bump (by simp) (.refl _ _))
  have hyc : y.fld Fld.MEM_UE_CNT_COUNT e = s.fld Fld.MEM_UE_CNT_COUNT e + 1 := by
    rw [hy, State.fld_bump_lt _ _ _ (by decide) (by rw [State.at_fld]; exact hlt), State.at_fld]
  have hwc : w.fld Fld.MEM_UE_CNT_COUNT e = s.fld Fld.MEM_UE_CNT_COUNT e + 1 := by
    rw [hw, ← hyc]
    split
    · exact (State.fld_setReg_ne _ _ _ _ _ _ (by decide)).trans (State.fld_setReg_ne _ _ _ _ _ _ (by decide))
    · rfl
  have hraise := State.raise_raises (s := w) (278 + e) 1 0
  obtain ⟨x, hx, hxw⟩ : ∃ x, (s.at t).memUe e a.toNat bar2 = x ∧ x.regs = (w.raise (278 + e) 1 0).regs ∧
      x.mem = (w.raise (278 + e) 1 0).mem := by
    refine ⟨_, rfl, ?_⟩
    have hcount : (s.at t).fld Fld.MEM_UE_CNT_COUNT e = s.fld Fld.MEM_UE_CNT_COUNT e := State.at_fld _ _ _ _
    unfold State.memUe
    dsimp only
    rw [hcount, ← hy, ← hw]
    split <;> exact ⟨rfl, rfl⟩
  have hstatus (hk : s.fld Fld.EVT_ROUTE_KIND (278 + e) ≠ 1) : x.evtStatus (278 + e) = true := by
    obtain ⟨h1, h2, h3, h4⟩ := ((State.raisable_stack (k := 1) (by decide) hd hk).at t).of_only hwo (by rfl)
    rw [← State.raise_status (s := w) (278 + e) 1 0 h1 h2 h3 h4, State.evtStatus, State.evtStatus, State.reg, State.reg,
      hxw.1]
  have hreg (n : RegName) (he : eventReg n = false) : x.reg n e = w.reg n e := by
    rw [← hraise.reg n e he, State.reg, State.reg, hxw.1]
  obtain ⟨u, hu, hr, ho⟩ := s.done_onlyRaising (x := t) (t := x)
    (but := [⟨.MEM_UE_CNT, e⟩, ⟨.MEM_UE_ADDR_LO, e⟩, ⟨.MEM_UE_ADDR_HI, e⟩]) (srcs := [278 + e])
    (.of_eq hxw.1 hxw.2 (.raise (by simp) (hwo.raising rfl)))
  have hur (n : RegName) (he : eventReg n = false) : u.reg n e = w.reg n e := (hr.reg n e he).trans (hreg n he)
  have hkn : 278 + e.val ∉ noteSrcs := by
    have hlt := e.isLt
    simp only [noteSrcs, List.mem_cons, List.not_mem_nil, or_false]
    omega
  refine ⟨u, ?_, ?_, fun h0 => ?_, fun h0 => ?_, fun hk => ?_, ho⟩
  · rw [exec, execMemUe, State.when_eq ha, State.at_dieAsleep, hd, if_neg Bool.false_ne_true, hx]
    exact hu
  · rw [State.fld_of_reg (hur _ rfl), hwc]
  · rw [State.pair, hur _ rfl, hur _ rfl, hw, if_pos h0]
    refine (State.pair_setPair y e _ (by decide)).trans ?_
    exact (BitVec.ofNat_toNat 64 a)
  · rw [State.pair, State.pair, hur _ rfl, hur _ rfl, hw, if_neg h0, hy, State.bump, State.reg_setFld_ne _ _ _ _ _ _ (by decide),
      State.reg_setFld_ne _ _ _ _ _ _ (by decide), State.at_reg, State.at_reg]
  · rw [hr.evtStatus hkn]
    exact hstatus hk

/-- Settles O31: a fill is shown and judged on its own; a full buffer stops its regions one after the other, each of which
touches its own record only. -/
theorem stacksAreWatched : Obligations.StacksAreWatched := by
  refine ⟨fun s t c fill ha hc hf => memWbufHigh_shows t c fill ha hc hf, fun s t c ha hc => memWbufHigh_full t c ha hc,
    fun s t e ha hd => ⟨fun temp => stackTempRead_watches t e temp ha hd, fun hlt => ?_,
      fun a bar2 hlt => memUe_logs t e a bar2 ha hd hlt, ?_, fun hlt => ?_⟩⟩
  · obtain ⟨u, hu, hf, hst, ho⟩ := State.done_bumpRaise (x := t) (f := Fld.MEM_CE_CNT_COUNT) (i := e) (k := 276 + e)
      (causes := 1) (info := 0) (by decide) (by rfl) (followsRaise_mem (by omega) (by omega)) hlt
    refine ⟨u, ?_, hf, fun h0 hk => hst h0 (State.raisable_stack (k := 0) (by decide) hd hk), ho⟩
    rw [exec, execMemCe, State.when_eq ha, State.at_dieAsleep, hd, if_neg Bool.false_ne_true]
    exact hu
  · obtain ⟨u, hu, hr⟩ := State.done_raisedIf (s := s) (x := t) (w := s.at t) (k := 284 + e) (causes := 1) (info := 0) (c := True)
      (.refl _ []) (by rfl) (followsRaise_mem (by omega) (by omega))
    refine ⟨u, ?_, fun hk => hr.status trivial (State.raisable_stack (k := 4) (by decide) hd hk), hr.only⟩
    rw [exec, execMemScrubDone, State.when_eq ha, State.at_dieAsleep, hd, if_neg Bool.false_ne_true]
    exact hu
  · obtain ⟨u, hu, hf, hst, ho⟩ := State.done_bumpRaise (x := t) (f := Fld.MEM_BRIDGE_RETRY_COUNT) (i := e) (k := 282 + e)
      (causes := 1) (info := 0) (by decide) (by rfl) (followsRaise_mem (by omega) (by omega)) hlt
    refine ⟨u, ?_, hf, fun h0 hk => hst h0 (State.raisable_stack (k := 3) (by decide) hd hk), ho⟩
    rw [exec, execMemBridge, State.when_eq ha, State.at_dieAsleep, hd, if_neg Bool.false_ne_true]
    exact hu

end Sys2Proof.Machine
end

section
/-! Regions: READY, the decision of fires, REARM (R199 to R201, R216, R224, R227). -/

namespace Sys2Proof.Machine

variable {s t u w : State} {but : List Reg} {srcs : List Nat} {m : Nat}

/-! ### No waiting trigger is due -/

theorem trigIns_ne_nil (l : List (Nat × Tu)) (x : Nat × Tu) : trigIns l x ≠ [] := by
  cases l with
  | nil => exact List.cons_ne_nil _ _
  | cons y l =>
    rw [trigIns]
    split <;> exact List.cons_ne_nil _ _

theorem foldl_trigIns_eq_nil {l links : List (Nat × Tu)} (h : l.foldl trigIns links = []) : links = [] ∧ l = [] := by
  induction l generalizing links with
  | nil => exact ⟨h, rfl⟩
  | cons x l ih => exact absurd (ih h).1 (trigIns_ne_nil _ _)

/-- With no trigger due, placing the triggers that are due changes nothing. -/
theorem State.placeTrigsTo_none {x : Tu} (h : s.trigsDue x = []) : s.placeTrigsTo x = s := by
  have hl := (foldl_trigIns_eq_nil (show _ = [] from h)).1
  have hf : s.tlk.trigs.filter (fun y => !tuLe y.2 x) = s.tlk.trigs := by
    rw [List.filter_eq_self]
    intro y hy
    cases hle : tuLe y.2 x with
    | false => rfl
    | true =>
      have hmem : y ∈ s.tlk.trigs.filter fun x' => tuLe x'.2 x := List.mem_filter.2 ⟨hy, hle⟩
      rw [List.map_eq_nil_iff.1 hl] at hmem
      cases hmem
  rw [State.placeTrigsTo, h, hf]
  rfl

theorem State.placeTrigs_none (h : s.trigsDue s.time = []) : s.placeTrigs = s := State.placeTrigsTo_none h

/-! ### Reads of a state at an instant -/

@[simp] theorem State.at_region (s : State) (t : Tu) (m : Nat) : (s.at t).region m = s.region m :=
  State.region_of_eq (State.at_regions _ _) m
@[simp] theorem State.at_gen (s : State) (t : Tu) (g : Nat) : (s.at t).gen g = s.gen g := by
  rw [State.gen, State.at_gens]; rfl
@[simp] theorem State.at_trigsDue (s : State) (t x : Tu) : (s.at t).trigsDue x = s.trigsDue x := by
  simp only [State.trigsDue, State.at_tlk, State.at_gen]
@[simp] theorem State.at_segState (s : State) (t : Tu) (m : Nat) : (s.at t).segState m = s.segState m := State.at_fld _ _ _ _
@[simp] theorem State.at_preNow (s : State) (t : Tu) (m : Nat) : (s.at t).preNow m = s.preNow m := by
  rw [State.preNow, State.at_fld, State.at_pitch]; rfl
@[simp] theorem State.at_continuous (s : State) (t : Tu) (m : Nat) : (s.at t).continuous m = s.continuous m := by
  rw [State.continuous, State.at_pitch]; rfl
@[simp] theorem State.at_blocked (s : State) (t : Tu) (m : Nat) (x : Tu) : (s.at t).blocked m x = s.blocked m x := by
  rw [State.blocked, State.at_region]; rfl

theorem State.setSeg_only (s : State) (m : Nat) {x : Nat} (hx : x < 8) :
    onlyRegs s (s.setSeg m x) [⟨.SEG_ARM, m⟩] ∧ (s.setSeg m x).segState m = x :=
  ⟨.setFld (by simp) (.refl _ _), State.fld_setFld_of_lt _ _ _ (by decide) hx⟩

theorem regionReady_readies (m : Fin 32) (ha : s.alive = true) (h1 : s.segState m = 1)
    (hp : s.preNow m = 0 ∨ ((s.at s.time).refInstant m ((s.at s.time).sampleAt (m / 16) (refF s.pitch.recs m)
      (s.region m).filling + s.preNow m - 1)).le (.ofTu (s.at s.time).time) = true) :
    ∃ u, exec (.regionReady m) s = .next u ∧ u.segState m = 2 ∧ onlyRegs s u [⟨.SEG_ARM, m⟩] := by
  obtain ⟨ho, h2⟩ := (s.at s.time).setSeg_only m (x := 2) (by decide)
  obtain ⟨hd, hso⟩ := State.done_onlyRegs ho rfl
  refine ⟨_, ?_, h2, hso⟩
  have hmet : (s.at s.time).preMet m = true := by
    rw [State.preMet, State.at_preNow, State.at_region, State.at_pitch, Bool.or_eq_true, beq_iff_eq]
    exact hp
  rw [exec, execRegionReady, State.when_eq ha, State.at_segState, if_pos ⟨h1, hmet⟩]
  exact hd

theorem rearmEnd_fills (m : Fin 32) (ha : s.alive = true) (h4 : s.segState m = 4)
    (hf : (s.region m).filling.le (.ofTu (s.at s.time).time) = true) :
    ∃ u, exec (.rearmEnd m) s = .next u ∧ u.segState m = (if s.preNow m = 0 then 2 else 1) ∧
      onlyRegs s u [⟨.SEG_ARM, m⟩] := by
  obtain ⟨ho, hst⟩ := (s.at s.time).setSeg_only m (x := if s.preNow m = 0 then 2 else 1) (by split <;> decide)
  obtain ⟨hd, hso⟩ := State.done_onlyRegs ho rfl
  refine ⟨_, ?_, hst, hso⟩
  rw [exec, execRearmEnd, State.when_eq ha, State.at_segState, State.at_region, State.at_preNow, if_pos ⟨h4, hf⟩]
  exact hd

/-! ### The decision of a single fire -/

/-- The region with its single fire taken out. -/
def State.fireTaken (s : State) (m : Nat) : State := s.modRegion m fun r => { r with fires := [] }

theorem State.judge_single {f : Fire} (hf : (s.region m).fires = [f]) (hstop : f.stop = false)
    (hc : s.continuous m = false) (hb : s.blocked m f.tts = false) :
    s.judge m =
      if (s.fireTaken m).counts m (s.refInstant m (s.trigOf m f.tts)) then
        if (s.fireTaken m).missCause m f.tts (s.trigOf m f.tts) (s.refInstant m (s.trigOf m f.tts)) = 0 then
          (s.fireTaken m).openSegment m [f] f.tts (s.trigOf m f.tts) (s.refInstant m (s.trigOf m f.tts))
        else (s.fireTaken m).miss m
          ((s.fireTaken m).missCause m f.tts (s.trigOf m f.tts) (s.refInstant m (s.trigOf m f.tts)))
      else s.fireTaken m := by
  have hgroup : [f].filter (fun g => s.trigOf m g.tts == s.trigOf m f.tts) = [f] := by simp
  have hleft : [f].filter (fun g => s.trigOf m g.tts != s.trigOf m f.tts) = [] := by simp
  have hfires : [f].filter (fun g => !g.stop) = [f] := by simp [hstop]
  rw [State.judge, hf]
  dsimp only
  rw [hc, if_neg Bool.false_ne_true, hb, if_neg Bool.false_ne_true, hgroup, hleft, hfires]
  have hany : ([f].any fun g => g.stop) = false := by simp [hstop]
  dsimp only
  rw [hany, if_neg Bool.false_ne_true]
  change (if (!(s.fireTaken m).counts m _) = true then s.fireTaken m else _) = _
  cases (s.fireTaken m).counts m (s.refInstant m (s.trigOf m f.tts)) <;> rfl

theorem State.regionAt_taken (h : (s.region m).gone = none) (x : Ratio) :
    (s.fireTaken m).regionAt m x = ({ s.region m with fires := [] }, s.segState m) ∧
      s.regionAt m x = (s.region m, s.segState m) := by
  have hr : (s.fireTaken m).region m = { s.region m with fires := [] } := State.region_modRegion _ _ _
  constructor
  · simp only [State.regionAt, hr, h]
    rfl
  · simp only [State.regionAt, h]

theorem State.counts_taken (h : (s.region m).gone = none) (x : Ratio) :
    (s.fireTaken m).counts m x = s.counts m x := by
  rw [State.counts, State.counts, (State.regionAt_taken h x).1, (State.regionAt_taken h x).2]
  rfl

theorem State.asOf_taken (s : State) (m : Nat) (x : Ratio) : (s.fireTaken m).asOf x = (s.asOf x).fireTaken m := by
  have ht : (s.fireTaken m).tick = s.tick := rfl
  rw [State.asOf, State.asOf, ht]
  split
  · split <;> rfl
  · rfl

theorem State.missCause_taken (h : (s.region m).gone = none) (tts : Tu) (j : Int) (x : Ratio) :
    (s.fireTaken m).missCause m tts j x = s.missCause m tts j x := by
  rw [State.missCause, State.missCause, (State.regionAt_taken h x).1, (State.regionAt_taken h x).2, State.asOf_taken]
  rfl

/-- An accepted fire in a region that no disarm has ended opens a segment. -/
theorem State.openSegment_opens (s : State) (group : List Fire) (tts : Tu) (j : Int) (x : Ratio)
    (h : (s.region m).gone = none) :
    RegionWork m (unitRegs m) s (s.openSegment m group tts j x) ∧ (s.openSegment m group tts j x).segState m = 3 ∧
      (s.openSegment m group tts j x).fld Fld.SEG_OPEN_COUNT_COUNT m = (s.fld Fld.SEG_OPEN_COUNT_COUNT m + 1) % 2 ^ 32 ∧
      ((s.openSegment m group tts j x).region m).cap = some (s.capturing m group tts j x) ∧
      ((s.openSegment m group tts j x).region m).fires = (s.region m).fires ∧
      ((s.openSegment m group tts j x).region m).count = (s.region m).count + 1 := by
  obtain ⟨c, hc⟩ : ∃ c, c = s.capturing m group tts j x := ⟨_, rfl⟩
  obtain ⟨a, ha⟩ : ∃ a, a = { s with gln := { s.gln with segOpened := s.gln.segOpened + 1 } } := ⟨_, rfl⟩
  have hsa : RegionWork m (unitRegs m) s a := by
    rw [ha]
    exact ⟨.of_eq rfl rfl (.refl _ _ _), fun _ _ => rfl, _, _, _, _, _, _, _, _, _, _, _, _, _, rfl⟩
  have har : a.region m = s.region m := by rw [ha]; rfl
  have haf : a.fld Fld.SEG_OPEN_COUNT_COUNT m = s.fld Fld.SEG_OPEN_COUNT_COUNT m := by rw [ha]; rfl
  obtain ⟨hab, hn, hr⟩ := a.openUnit_reads m x
  obtain ⟨b, hb⟩ : ∃ b, b = (a.openUnit m x).setSeg m 3 := ⟨_, rfl⟩
  have hbw : RegionWork m (unitRegs m) s b := by
    rw [hb]
    exact (hsa.trans (hab.mono (by simp [unitRegs]))).trans (State.setFld_regionWork _ _ _ (by simp [unitRegs]) rfl)
  have hb3 : b.segState m = 3 := by rw [hb]; exact State.fld_setFld_of_lt _ _ _ (by decide) (by decide)
  have hbn : b.fld Fld.SEG_OPEN_COUNT_COUNT m = (s.fld Fld.SEG_OPEN_COUNT_COUNT m + 1) % 2 ^ 32 := by
    rw [hb, ← haf, ← hn]
    exact State.fld_setFld_ne _ _ _ _ _ _ (by decide)
  have hbr : b.region m = { s.region m with count := (s.region m).count + 1 } := by
    rw [hb, ← har, ← hr]
    rfl
  have heq : s.openSegment m group tts j x = b.modRegion m fun r =>
      { r with cap := some c, prevTrig := some x, last := some c.ends, readyFrom := none } := by
    unfold State.openSegment
    dsimp only
    rw [h, hb, ha, hc]
    rfl
  rw [heq, ← hc]
  refine ⟨hbw.trans (State.modRegion_regionWork _ _ _), hb3, hbn, ?_, ?_, ?_⟩
  · rw [State.region_modRegion]
  · rw [State.region_modRegion, hbr]
  · rw [State.region_modRegion, hbr]

/-- The events of a region whose die is awake. -/
theorem State.raisable_seg {m : Fin 32} (hd : s.dieAsleep (m / 16) = false)
    (hr : s.fld Fld.EVT_ROUTE_KIND (224 + m) ≠ 1) : s.raisable (224 + m) := by
  have hv : ∀ m : Fin 32, evtValid (224 + m) = true := by decide
  have hlt := m.isLt
  refine ⟨hv m, ?_, ?_, hr⟩
  · rw [State.evtAsleep, if_neg (by omega), if_neg (by omega), if_pos (by omega), Nat.add_sub_cancel_left, hd]
  · rw [State.evtAbsent, decide_eq_false (by omega), Bool.false_and]

theorem followsRaise_seg (m : Fin 32) : followsRaise (224 + m) = false := by
  have hv : ∀ m : Fin 32, followsRaise (224 + m) = false := by decide
  exact hv m

theorem not_noteSrc_seg (m : Fin 32) : 224 + m.val ∉ noteSrcs := by
  have hlt := m.isLt
  simp only [noteSrcs, List.mem_cons, List.not_mem_nil, or_false]
  omega

/-- A missed fire is counted with its cause. -/
def State.missed (s : State) (m cause : Nat) : State :=
  ((s.bump Fld.SEG_MISSED_REGION_MISSED m 1).setFld Fld.SEG_MISS_CAUSE_LAST m cause).setFld Fld.SEG_MISS_CAUSE_SEEN m
    (s.fld Fld.SEG_MISS_CAUSE_SEEN m ||| 2 ^ (cause - 1))

theorem State.miss_eq (s : State) (m cause : Nat) :
    s.miss m cause = if s.fld Fld.SEG_MISSED_REGION_MISSED m = 0 then (s.missed m cause).raise (224 + m) (2 ^ 0) (0 + 4 * cause)
      else s.missed m cause := rfl

theorem causes_le (a b c d e : Prop) [Decidable a] [Decidable b] [Decidable c] [Decidable d] [Decidable e] :
    (if a then 1 else if b then 2 else if c then 3 else if d then 4 else if e then 5 else 0) ≤ 5 := by
  split_ifs <;> decide

theorem State.missCause_le (s : State) (m : Nat) (tts : Tu) (j : Int) (x : Ratio) : s.missCause m tts j x ≤ 5 :=
  causes_le _ _ _ _ _

theorem execRegionFireDecision_single (t : Tu) (m : Fin 32) {f : Fire} {j : Int} {x : Ratio} (ha : s.alive = true)
    (hdue : s.trigsDue (s.at t).time = []) (hf : (s.region m).fires = [f]) (hj : j = (s.at t).trigOf m f.tts)
    (hx : x = (s.at t).refInstant m j) (hle : (x.add (.ofInt (ns 72))).le (.ofTu (s.at t).time) = true) :
    exec (.regionFireDecision t m) s = s.done ((s.at t).judge m) := by
  have hdue' : (s.at t).trigsDue (s.at t).time = [] := by rw [State.at_trigsDue]; exact hdue
  have hhead : (s.at t).headInstant m = some x := by
    rw [State.headInstant, State.at_region, hf, hx, hj]
    rfl
  rw [exec, execRegionFireDecision, State.when_eq ha, State.placeTrigs_none hdue']
  dsimp only
  rw [hhead]
  dsimp only
  rw [if_pos hle]

/-- Settles O29: with no trigger due and no earlier disarm a single fire is judged by itself. -/
theorem regionsDecideFires : Obligations.RegionsDecideFires := by
  refine ⟨fun s m ha h1 hp => regionReady_readies m ha h1 hp, fun s t m f j x ha hdue hf hstop hc hb hj hx hg hle => ?_,
    fun s m ha h4 hle => rearmEnd_fills m ha h4 hle⟩
  have hex := execRegionFireDecision_single t m ha hdue hf hj hx hle
  have hj1 := State.judge_single (s := s.at t) (m := m) (f := f) (by rw [State.at_region]; exact hf) hstop
    (by rw [State.at_continuous]; exact hc) (by rw [State.at_blocked]; exact hb)
  have hg1 : ((s.at t).region m).gone = none := by rw [State.at_region]; exact hg
  rw [← hj, ← hx, State.counts_taken hg1, State.missCause_taken hg1] at hj1
  obtain ⟨a, haeq⟩ : ∃ a, a = (s.at t).fireTaken m := ⟨_, rfl⟩
  have hao : onlyRegs (s.at t) a [] := by rw [haeq]; exact .of_eq rfl rfl (.refl _ _)
  have har : a.region m = { s.region m with fires := [] } := by
    rw [haeq, State.fireTaken, State.region_modRegion, State.at_region]
  have hafld (f : Fld) : a.fld f m = s.fld f m := by rw [haeq]; exact State.at_fld _ _ _ _
  have hat : (a.regionAt m x).1 = { s.region m with fires := [] } := by
    rw [haeq, (State.regionAt_taken hg1 x).1, State.at_region]
  rw [hex, hj1, ← haeq]
  refine ⟨fun hcnt h0 => ?_, fun hcnt h0 hlt => ?_, fun hcnt => ?_⟩
  · rw [if_pos hcnt, if_pos h0]
    obtain ⟨hw, h3, hn, hcap, hfires, hcount⟩ := a.openSegment_opens (m := m) [f] f.tts j x (by rw [har]; exact hg)
    obtain ⟨u, hu, hr, ho⟩ := s.done_onlyRaising (x := t) ((hao.raising rfl).mono (by simp) (fun _ h => h) |>.trans hw.only)
    have hur : u.region m = (a.openSegment m [f] f.tts j x).region m := State.region_of_eq hr.regions m
    refine ⟨u, a.capturing m [f] f.tts j x, hu, ?_, ?_, rfl, ?_, ?_, ?_, ?_, rfl, ?_, ?_, ?_, ho⟩
    · rw [State.segState, hr.fld _ _ rfl]
      exact h3
    · rw [hur, hcap]
    · rw [haeq]
      show (regionChans (s.at t).pitch.recs m).map (fun ch => (s.at t).sampleAt (m / 16) ((s.at t).ilv ch) (.ofTu f.tts)) = _
      simp only [State.at_ilv, State.at_pitch]
      rfl
    · show (a.regionAt m x).1.count = _
      rw [hat]
    · show (a.regionAt m x).1.armNo = _
      rw [hat]
    · show (a.asOf x).preNow m = _
      rw [haeq, State.asOf_taken]
      rfl
    · rw [hur, hfires, har]
    · rw [hur, hcount, har]
    · rw [hr.fld _ _ rfl, hn, hafld]
  · rw [if_pos hcnt, if_neg h0, State.miss_eq]
    obtain ⟨cause, hcause⟩ : ∃ c, c = (s.at t).missCause m f.tts j x := ⟨_, rfl⟩
    have hc5 : cause ≤ 5 := hcause ▸ State.missCause_le _ _ _ _ _
    rw [← hcause]
    have hwo : onlyRegs (s.at t) (a.missed m cause) [⟨.SEG_MISSED, m⟩, ⟨.SEG_MISS_CAUSE, m⟩] :=
      .setFld (by simp) (.setFld (by simp) (.bump (by simp) (hao.mono (by simp))))
    obtain ⟨u, hu, hr⟩ := State.done_raisedIf (c := a.fld Fld.SEG_MISSED_REGION_MISSED m = 0) (causes := 2 ^ 0)
      (info := 0 + 4 * cause) hwo (by rfl) (followsRaise_seg m)
    have hur : u.region m = a.region m := by rw [State.region_of_eq hr.raises.regions]; rfl
    refine ⟨u, hu, ?_, ?_, ?_, ?_, fun hz hd hk => hr.status (by rw [hafld, hz]) (State.raisable_seg hd hk), hr.only⟩
    · rw [State.segState, hr.fld _ _ rfl, State.fld_of_reg (hwo.1 _ _ (by simp)), State.at_fld]
      rfl
    · rw [hur, har]
    · rw [hr.fld _ _ rfl, State.missed, State.fld_setFld_ne _ _ _ _ _ _ (by decide),
        State.fld_setFld_ne _ _ _ _ _ _ (by decide),
        State.fld_bump_lt _ _ _ (by decide) (by rw [hafld]; exact hlt), hafld]
    · rw [hr.fld _ _ rfl, State.missed, State.fld_setFld_apart _ _ _ _ _ _ (by decide),
        State.fld_setFld_of_lt _ _ _ (by decide) (show cause < 8 by omega)]
  · rw [if_neg (by rw [hcnt]; exact Bool.false_ne_true)]
    obtain ⟨hd, ho⟩ := State.done_onlyRegs hao rfl
    exact ⟨a, hd, by rw [har], by rw [har], ho⟩

end Sys2Proof.Machine
end

section
/-! SUPPORT. What a slot holds after its runs are written (R177, R178, R212). -/

namespace Sys2Proof.Machine

variable {s t u w : State} {but : List Reg} {srcs : List Nat} {m : Nat}

/-! ### Bytes of numbers -/

theorem length_leBytes (n x : Nat) : (leBytes n x).length = n := by
  induction n generalizing x with
  | zero => rfl
  | succ n ih => rw [leBytes, List.length_cons, ih]

theorem leNat_leBytes (n x : Nat) : leNat (leBytes n x) = x % 256 ^ n := by
  induction n generalizing x with
  | zero => rw [Nat.pow_zero, Nat.mod_one]; rfl
  | succ n ih =>
    have h := Nat.mod_mul (x := x) (a := 256) (b := 256 ^ n)
    rw [leBytes, leNat, ih, BitVec.toNat_ofNat, Nat.pow_succ 256 n, Nat.mul_comm (256 ^ n), h]

theorem length_memRead (mem : List Host.Cell) (a n : Nat) : (memRead mem a n).length = n := by
  rw [memRead, List.length_map, List.length_range]

theorem memRead_eq {mem : List Host.Cell} {a n : Nat} {bs : List Byte} (hl : bs.length = n)
    (h : ∀ k, k < n → memGet mem (a + k) = bs.getD k 0) : memRead mem a n = bs := by
  refine List.ext_getElem (by rw [length_memRead, hl]) fun k h1 h2 => ?_
  rw [length_memRead] at h1
  simp only [memRead, List.getElem_map, List.getElem_range]
  rw [h k h1, List.getD_eq_getElem _ _ h2]

/-- What a write of bytes leaves reads back. -/
theorem memRead_memPutAll (mem : List Host.Cell) (a : Nat) (bs : List Byte) :
    memRead (memPutAll mem a bs) a bs.length = bs :=
  memRead_eq rfl fun k hk => by rw [memGet_memPutAll, if_pos ⟨by omega, by omega⟩, Nat.add_sub_cancel_left]

/-! ### Packed runs -/

theorem length_packWord (old : List Byte) (xs : List Placed) (skip w : Nat) (seg : Bool) (h : old.length = 16) :
    (packWord old xs skip w seg).length = 16 := by
  unfold packWord
  dsimp only
  split
  · exact h
  · exact length_leBytes _ _

theorem length_flatMap_const {α β : Type} (l : List α) (f : α → List β) (n : Nat) (h : ∀ x ∈ l, (f x).length = n) :
    (l.flatMap f).length = l.length * n := by
  induction l with
  | nil => simp
  | cons x l ih =>
    rw [List.flatMap_cons, List.length_append, h x (List.mem_cons_self ..), ih fun y hy => h y (List.mem_cons_of_mem _ hy),
      List.length_cons]
    ring

/-- A packed run fills its size, where its samples fit. -/
theorem length_packRun (old : List Byte) (wide : Bool) (size len skip : Nat) (xs : List Placed) (seg : Bool)
    (hold : old.length = size) (hw : wide = true → 2 * len ≤ size) (hn : wide = false → 16 * ceilDiv len 12 ≤ size) :
    (packRun old wide size len skip xs seg).length = size := by
  unfold packRun
  cases wide with
  | true =>
    have h2 := hw rfl
    rw [if_pos rfl, List.length_append, List.length_replicate, length_flatMap_const _ _ 2, List.length_range]
    · omega
    · intro p hp
      have hlt := List.mem_range.1 hp
      split
      · exact length_leBytes _ _
      · rw [List.length_take, List.length_drop, hold]
        omega
  | false =>
    have h16 := hn rfl
    rw [if_neg Bool.false_ne_true]
    dsimp only
    rw [List.length_append, List.length_replicate, length_flatMap_const _ _ 16, List.length_range]
    · omega
    · intro p hp
      have hlt := List.mem_range.1 hp
      refine length_packWord _ _ _ _ _ ?_
      rw [List.length_take, List.length_drop, hold]
      omega

theorem le_ceilDiv_mul (n : Nat) : n ≤ ceilDiv n 64 * 64 := by
  unfold ceilDiv
  omega

theorem ilvF_cases (rs : List ImgRec) (c : Nat) : ilvF rs c = 1 ∨ ilvF rs c = 2 ∨ ilvF rs c = 4 := by
  unfold ilvF
  have h : min 2 (recFld rs 2 c 0 1 0) = 0 ∨ min 2 (recFld rs 2 c 0 1 0) = 1 ∨ min 2 (recFld rs 2 c 0 1 0) = 2 := by omega
  rcases h with h | h | h <;> rw [h] <;> decide

theorem refF_cases (rs : List ImgRec) (m : Nat) : refF rs m = 1 ∨ refF rs m = 2 ∨ refF rs m = 4 := by
  have h : ∀ (l : List Nat) (a : Nat), (a = 1 ∨ a = 2 ∨ a = 4) → (∀ x ∈ l, x = 1 ∨ x = 2 ∨ x = 4) →
      l.foldl min a = 1 ∨ l.foldl min a = 2 ∨ l.foldl min a = 4 := by
    intro l
    induction l with
    | nil => exact fun a ha _ => ha
    | cons x l ih =>
      intro a ha hl
      have hx := hl x (List.mem_cons_self ..)
      exact ih _ (by omega) fun y hy => hl y (List.mem_cons_of_mem _ hy)
  refine h _ 4 (by decide) fun x hx => ?_
  obtain ⟨ch, -, rfl⟩ := List.mem_map.1 hx
  exact ilvF_cases rs _

theorem block_fits {f r : Nat} (hf : f = 1 ∨ f = 2 ∨ f = 4) (hr : r = 1 ∨ r = 2 ∨ r = 4) :
    2 * (3072 * f / r) ≤ 6144 * f / r ∧ 16 * ceilDiv (3072 * f / r) 12 ≤ 4096 * f / r := by
  rcases hf with rfl | rfl | rfl <;> rcases hr with rfl | rfl | rfl <;> decide

/-- The samples of a run fit into its place. -/
theorem State.run_fits (s : State) (m ch : Nat) :
    (regionWide s.pitch.recs m = true → 2 * s.runCount m ch ≤ runLen s.pitch.recs m ch) ∧
      (regionWide s.pitch.recs m = false → 16 * ceilDiv (s.runCount m ch) 12 ≤ runLen s.pitch.recs m ch) := by
  unfold State.runCount runLen State.continuous State.ilv
  by_cases hm : 2 ≤ regionMode s.pitch.recs m
  · rw [decide_eq_true hm, if_pos rfl, if_neg (by omega)]
    obtain ⟨hwide, hpacked⟩ := block_fits (ilvF_cases s.pitch.recs (ch / 4)) (refF_cases s.pitch.recs m)
    constructor
    · intro hw
      rw [hw, if_pos rfl]
      exact hwide
    · intro hw
      rw [hw, if_neg Bool.false_ne_true]
      exact hpacked
  · rw [decide_eq_false hm, if_neg Bool.false_ne_true, if_pos (by omega)]
    constructor
    · intro hw
      rw [hw, if_pos rfl, Nat.mul_comm]
      exact le_ceilDiv_mul _
    · intro hw
      rw [hw, if_neg Bool.false_ne_true, Nat.mul_comm]
      exact le_ceilDiv_mul _

/-! ### Runs of a slot -/

/-- The bytes of one run as it is written. -/
def State.runBytes (s : State) (m a ch skip : Nat) (xs : List Placed) (seg : Bool) : List Byte :=
  packRun (memRead s.mem a (runLen s.pitch.recs m ch)) (regionWide s.pitch.recs m) (runLen s.pitch.recs m ch)
    (s.runCount m ch) skip xs seg

theorem State.length_runBytes (s : State) (m a ch skip : Nat) (xs : List Placed) (seg : Bool) :
    (s.runBytes m a ch skip xs seg).length = runLen s.pitch.recs m ch :=
  length_packRun _ _ _ _ _ _ _ (length_memRead _ _ _) (s.run_fits m ch).1 (s.run_fits m ch).2

/-- Runs change memory only, within their places. -/
theorem State.writeRuns_mem (m : Nat) (seg : Bool) (l : List (Nat × Nat × List Placed)) (s : State) (a : Nat) :
    ∃ mem, s.writeRuns m seg a l = { s with mem := mem } ∧
      ∀ x, x < a ∨ a + (l.map fun y => runLen s.pitch.recs m y.1).sum ≤ x → memGet mem x = memGet s.mem x := by
  induction l generalizing s a with
  | nil => exact ⟨s.mem, rfl, fun _ _ => rfl⟩
  | cons y l ih =>
    obtain ⟨ch, skip, xs⟩ := y
    obtain ⟨mem, he, hk⟩ := ih { s with mem := memPutAll s.mem a (s.runBytes m a ch skip xs seg) }
      (a + runLen s.pitch.recs m ch)
    refine ⟨mem, he, fun x hx => ?_⟩
    have hout : x < a + runLen s.pitch.recs m ch ∧ x < a ∨
        a + runLen s.pitch.recs m ch + (l.map fun y => runLen s.pitch.recs m y.1).sum ≤ x := by
      rw [List.map_cons, List.sum_cons, ← Nat.add_assoc] at hx
      exact hx.imp (fun h => ⟨Nat.lt_add_right _ h, h⟩) id
    refine (hk x (hout.imp And.left id)).trans (memGet_memPutAll_other _ _ _ ?_)
    rw [State.length_runBytes]
    exact hout.imp And.right (Nat.le_trans (Nat.le_add_right _ _))

theorem sum_map_zip_le (l : List Nat) (r : List (List Sample)) (f : Nat → Nat) :
    ((l.zip r).map fun y => f y.1).sum ≤ (l.map f).sum := by
  induction l generalizing r with
  | nil => simp
  | cons x l ih =>
    cases r with
    | nil => simp
    | cons y r =>
      rw [List.zip_cons_cons, List.map_cons, List.sum_cons, List.map_cons, List.sum_cons]
      exact Nat.add_le_add_left (ih r) _

/-! ### The samples of a WIDE16 run -/

theorem getElem?_flatMap_range (len n : Nat) (f : Nat → List Byte) (h : ∀ p, p < len → (f p).length = n) {p i : Nat}
    (hp : p < len) (hi : i < n) : ((List.range len).flatMap f)[n * p + i]? = (f p)[i]? := by
  induction len with
  | zero => omega
  | succ len ih =>
    have hlen : ((List.range len).flatMap f).length = len * n := by
      rw [length_flatMap_const _ _ n fun x hx => h x (Nat.lt_succ_of_lt (List.mem_range.1 hx)), List.length_range]
    rw [List.range_succ, List.flatMap_append]
    by_cases hpl : p < len
    · have hlt : n * p + i < len * n := by
        calc n * p + i < n * p + n := by omega
          _ = n * (p + 1) := by ring
          _ ≤ n * len := Nat.mul_le_mul_left _ hpl
          _ = len * n := Nat.mul_comm _ _
      rw [List.getElem?_append_left (by rw [hlen]; exact hlt)]
      exact ih (fun q hq => h q (Nat.lt_succ_of_lt hq)) hpl
    · have hpe : p = len := by omega
      subst hpe
      rw [List.getElem?_append_right (by rw [hlen, Nat.mul_comm]; omega), hlen, Nat.mul_comm p n, Nat.add_sub_cancel_left]
      simp

/-- A sample of a WIDE16 run whose samples are all written stands at its place. -/
theorem packRun_wide_at (old : List Byte) (size len : Nat) (xs : List Placed) (seg : Bool) (hold : old.length = size)
    (hsize : 2 * len ≤ size) {p k : Nat} (hk : k < 2) (hp : p < len) {y : Placed} (hy : xs[p]? = some y) :
    (packRun old true size len 0 xs seg).getD (2 * p + k) 0 = (leBytes 2 (wide16 y)).getD k 0 := by
  obtain ⟨f, hf⟩ : ∃ f : Nat → List Byte, f = fun p => match placedAt xs 0 p with
      | some x => leBytes 2 (wide16 x)
      | none => (old.drop (2 * p)).take 2 := ⟨_, rfl⟩
  have hlen : ∀ q, q < len → (f q).length = 2 := by
    intro q hq
    rw [hf]
    dsimp only
    split
    · exact length_leBytes _ _
    · rw [List.length_take, List.length_drop, hold]
      omega
  have hfp : f p = leBytes 2 (wide16 y) := by
    have hpl : placedAt xs 0 p = some y := by rw [placedAt, if_neg (by omega), Nat.sub_zero, hy]
    rw [hf]
    dsimp only
    rw [hpl]
  have heq : packRun old true size len 0 xs seg = (List.range len).flatMap f ++ List.replicate (size - 2 * len) 0 := by
    rw [hf, packRun, if_pos rfl] <;> rfl
  have htot : ((List.range len).flatMap f).length = len * 2 := by
    rw [length_flatMap_const _ _ 2 fun x hx => hlen x (List.mem_range.1 hx), List.length_range]
  rw [heq, List.getD_eq_getElem?_getD, List.getElem?_append_left (by rw [htot]; omega),
    getElem?_flatMap_range len 2 f hlen hp hk, hfp, List.getD_eq_getElem?_getD]

end Sys2Proof.Machine
end

section
/-! Segments and blocks are stored (R211 to R214, R216, R219, R224, R225). -/

namespace Sys2Proof.Machine

variable {s t u w : State} {but : List Reg} {srcs : List Nat} {m : Nat}

/-! ### A segment -/

/-- The runs of a segment with their places. -/
def State.placedRuns (s : State) (m : Nat) (c : Capturing) (runs : List (List Sample)) : List (Nat × Nat × List Placed) :=
  ((s.segChans m).zip runs).map fun y => (y.1, c.skip, placeRun c.pre c.skip y.2)

/-- What the store of a segment leaves: memory outside its slot, and all but the region's record and the directory. -/
structure SegmentStored (m : Nat) (c : Capturing) (s t : State) (e : Closed) : Prop where
  regs : t.regs = s.regs
  cap : (t.region m).cap = none
  closed : (t.region m).closed = (s.region m).closed ++ [e]
  rest : ∃ x, t.region m = { s.region m with cap := none, closed := x }
  arm : e.arm = c.arm
  tts : leAt e.entry 0 8 = c.tts.toNat
  dir : tget [] t.dir e.slot = e.entry
  slot : onlySlot s t m c.n
  kept : ∃ mem dir dirSeq regions, t = { s with mem := mem, dir := dir, dirSeq := dirSeq, regions := regions }

theorem leAt_entryWithSeq (tts : Tu) (start source pre flags : Nat) (frame : Frame) (seq : Nat) :
    leAt (entryWithSeq (dirEntry tts start source pre flags frame) seq) 0 8 = tts.toNat := by
  have h : (entryWithSeq (dirEntry tts start source pre flags frame) seq).take 8 = leBytes 8 tts.toNat := rfl
  rw [leAt, List.drop_zero, h, leNat_leBytes]
  exact Nat.mod_eq_of_lt tts.isLt

/-- The directory slot and the entry of a segment. -/
def State.entrySlot (s : State) (m : Nat) (c : Capturing) : Nat :=
  m / 16 * 65536 + regionDirBase s.pitch.recs m + c.n % max 1 (regionCap s.pitch.recs m)

def State.entryOf (s : State) (m : Nat) (c : Capturing) (runs : List (List Sample)) : List Byte :=
  entryWithSeq (dirEntry c.tts (s.slotAt m c.n % stackSpan) c.source c.preActual
    (s.entryFlags m c (s.endFrame c) runs.flatten) (s.endFrame c)) (nextSeqNo (tget 0 s.dirSeq (s.entrySlot m c)))

theorem State.storeSegment_eq (s : State) (m : Nat) (c : Capturing) (runs : List (List Sample)) :
    s.storeSegment m c runs =
      ({ s.writeRuns m true (s.slotAt m c.n) (s.placedRuns m c runs) with
        dir := tins (s.writeRuns m true (s.slotAt m c.n) (s.placedRuns m c runs)).dir (s.entrySlot m c) (s.entryOf m c runs)
        dirSeq := tput 0 (s.writeRuns m true (s.slotAt m c.n) (s.placedRuns m c runs)).dirSeq (s.entrySlot m c)
          (nextSeqNo (tget 0 s.dirSeq (s.entrySlot m c))) } : State).modRegion m fun r =>
        { r with cap := none, closed := r.closed ++ [(⟨c.arm, s.entrySlot m c, s.entryOf m c runs⟩ : Closed)] } := rfl

theorem State.storeSegment_stores (s : State) (m : Nat) (c : Capturing) (runs : List (List Sample)) :
    ∃ e, SegmentStored m c s (s.storeSegment m c runs) e ∧
      (s.storeSegment m c runs).mem = (s.writeRuns m true (s.slotAt m c.n) (s.placedRuns m c runs)).mem := by
  obtain ⟨mem, hm, hk⟩ := State.writeRuns_mem m true (s.placedRuns m c runs) s (s.slotAt m c.n)
  obtain ⟨d, heq⟩ : ∃ d, s.storeSegment m c runs =
      ({ s with mem := mem, dir := tins s.dir (s.entrySlot m c) (s.entryOf m c runs), dirSeq := d } : State).modRegion m
        fun r => { r with cap := none, closed := r.closed ++ [(⟨c.arm, s.entrySlot m c, s.entryOf m c runs⟩ : Closed)] } := by
    rw [State.storeSegment_eq, hm]
    exact ⟨_, rfl⟩
  have htts : leAt (s.entryOf m c runs) 0 8 = c.tts.toNat := leAt_entryWithSeq _ _ _ _ _ _ _
  generalize s.entrySlot m c = slot at heq
  generalize s.entryOf m c runs = entry at heq htts
  have hr := State.region_modRegion ({ s with mem := mem, dir := tins s.dir slot entry, dirSeq := d } : State) m fun r =>
    { r with cap := none, closed := r.closed ++ [(⟨c.arm, slot, entry⟩ : Closed)] }
  rw [← heq] at hr
  refine ⟨⟨c.arm, slot, entry⟩, ⟨by rw [heq]; rfl, by rw [hr], by rw [hr]; rfl, ⟨_, hr⟩, rfl, htts, ?_, fun a ha => ?_,
    ⟨_, _, _, _, heq⟩⟩, by rw [heq, hm]; rfl⟩
  · rw [heq]
    exact (tget_tins _ _ _ _ _).trans (if_pos rfl)
  · rw [heq]
    refine hk a (ha.imp id fun h => Nat.le_trans (Nat.add_le_add_left ?_ _) h)
    rw [State.placedRuns, List.map_map]
    exact sum_map_zip_le (s.segChans m) runs (runLen s.pitch.recs m)

theorem State.releaseSeen_stored {c : Capturing} {e : Closed} (h : SegmentStored m c s t e) (x : Ratio) :
    t.releaseSeen m x = s.releaseSeen m x ∧ t.pitch = s.pitch := by
  obtain ⟨y, hr⟩ := h.rest
  obtain ⟨mem, dir, dirSeq, regions, heq⟩ := h.kept
  have hrel : (t.region m).releases = (s.region m).releases := by rw [hr]
  refine ⟨?_, by rw [heq]⟩
  unfold State.releaseSeen
  dsimp only
  rw [hrel, heq]
  rfl

/-- What the end of a segment leaves of its region: REARM, or STOPPED where a fixed region is full. -/
theorem State.afterSegment_ends (s : State) (m : Nat) (x : Ratio) (h0 : (s.region m).stopAfter = 0) :
    RegionWork m [⟨.SEG_ARM, m⟩, ⟨.SEG_STATUS, m⟩] s (s.afterSegment m x) ∧ (s.afterSegment m x).dir = s.dir ∧
      ((s.afterSegment m x).region m).cap = (s.region m).cap ∧
      ((s.afterSegment m x).region m).closed = (s.region m).closed ∧
      (regionMode s.pitch.recs m = 0 → (s.afterSegment m x).segState m = 4) ∧
      (regionMode s.pitch.recs m = 1 → ahead (s.region m).count (s.releaseSeen m x) = regionCap s.pitch.recs m →
        (s.afterSegment m x).segState m = 5 ∧ (s.afterSegment m x).fld Fld.SEG_STATUS_STOP_CAUSE m = 1) := by
  obtain ⟨hw, h5, hcause, hr⟩ := s.stopRegion_reads m 1 x
  have hdir : (s.stopRegion m 1 x).dir = s.dir := by
    obtain ⟨_, _, _, _, _, _, _, _, _, _, _, _, _, heq⟩ := hw.rest
    rw [heq]
  rw [State.afterSegment, h0]
  rw [if_neg (by simp)]
  split
  · next h => exact ⟨hw, hdir, by rw [hr], by rw [hr], fun hm => absurd (hm.symm.trans h.1) (by decide),
      fun _ _ => ⟨h5, hcause⟩⟩
  · next h => exact ⟨s.setFld_regionWork _ _ (by simp) rfl, rfl, rfl, rfl,
      fun _ => State.fld_setFld_of_lt _ _ _ (by decide) (by decide), fun hm ha => absurd ⟨hm, ha⟩ h⟩

theorem State.slotAt_of_pitch (h : t.pitch = s.pitch) (m n : Nat) : t.slotAt m n = s.slotAt m n := by
  rw [State.slotAt, h]; rfl

theorem onlySlot_of_pitch {m n : Nat} (h : onlySlot t u m n) (hp : t.pitch = s.pitch)
    (hm : ∀ a, memGet t.mem a = memGet s.mem a) : onlySlot s u m n := fun a ha => by
  rw [← hm a]
  refine h a ?_
  rwa [State.slotAt_of_pitch hp, hp]

/-- A WIDE16 segment of one channel stands sample for sample in its slot. -/
theorem State.storedSample_at (s : State) (m : Nat) (c : Capturing) (ch : Nat) (zs : List Sample)
    (hch : s.segChans m = [ch]) (hw : regionWide s.pitch.recs m = true) (hc : s.continuous m = false) (hsk : c.skip = 0)
    (hlen : zs.length = regionLen s.pitch.recs m) (p : Nat) (z : Sample) (hz : zs[p]? = some z) :
    memRead (s.storeSegment m c [zs]).mem (s.slotAt m c.n + 2 * p) 2 = leBytes 2 (wide16 ⟨z, p == c.pre⟩) := by
  obtain ⟨e, -, hmem⟩ := s.storeSegment_stores m c [zs]
  obtain ⟨bs, hbs⟩ : ∃ bs, bs = s.runBytes m (s.slotAt m c.n) ch 0 (placeRun c.pre 0 zs) true := ⟨_, rfl⟩
  have hmem' : (s.storeSegment m c [zs]).mem = memPutAll s.mem (s.slotAt m c.n) bs := by
    rw [hmem, State.placedRuns, hch, hsk, hbs]
    rfl
  have hplt : p < zs.length := by
    rw [List.getElem?_eq_some_iff] at hz
    exact hz.1
  have hrun : s.runCount m ch = regionLen s.pitch.recs m := by rw [State.runCount, hc, if_neg Bool.false_ne_true]
  have hfit := (s.run_fits m ch).1 hw
  have hlbs : bs.length = runLen s.pitch.recs m ch := by rw [hbs, State.length_runBytes]
  have hplaced : (placeRun c.pre 0 zs)[p]? = some ⟨z, p == c.pre⟩ := by
    rw [placeRun, List.getElem?_map, List.getElem?_zipIdx, hz]
    simp
  refine memRead_eq (length_leBytes _ _) fun k hk => ?_
  rw [hmem', Nat.add_assoc, memGet_memPutAll, if_pos ⟨by omega, by rw [hlbs]; rw [hrun] at hfit; omega⟩, Nat.add_sub_cancel_left,
    hbs, State.runBytes, hw]
  exact packRun_wide_at _ _ _ _ _ (length_memRead _ _ _) hfit hk (by rw [hrun]; omega) hplaced

/-- A waiting segment of the present arm is stored once it has ended. -/
theorem State.closeSegment_ended (s : State) (m : Nat) (c : Capturing) (runs : List (List Sample))
    (hcap : (s.region m).cap = some c) (hcut : c.cut = none) (harm : c.arm = (s.region m).armNo) (h3 : s.segState m = 3)
    (hl : runs.map List.length = c.counts) (hle : c.ends.le (.ofTu s.time) = true) :
    s.closeSegment m runs = (s.storeSegment m c (s.flagSegment m c runs)).afterSegment m c.ends := by
  rw [State.closeSegment, hcap]
  dsimp only
  rw [if_neg (not_not_intro hl), hcut, hle, if_neg (by simp), if_pos ⟨rfl, h3, harm⟩]

theorem segmentClose_stores (m : Fin 32) (c : Capturing) (runs : List (List Sample)) (ha : s.alive = true)
    (hcap : (s.region m).cap = some c) (hcut : c.cut = none) (harm : c.arm = (s.region m).armNo) (h3 : s.segState m = 3)
    (hc : s.continuous m = false) (hl : runs.map List.length = c.counts)
    (hle : c.ends.le (.ofTu (s.at s.time).time) = true) (h0 : (s.region m).stopAfter = 0) :
    ∃ u e, exec (.segmentClose m runs) s = .next u ∧ (u.region m).cap = none ∧
      (u.region m).closed = (s.region m).closed ++ [e] ∧ e.arm = c.arm ∧ leAt e.entry 0 8 = c.tts.toNat ∧
      tget [] u.dir e.slot = e.entry ∧ onlySlot s u m c.n ∧
      (regionMode s.pitch.recs m = 0 → u.segState m = 4) ∧
      (regionMode s.pitch.recs m = 1 → ahead (s.region m).count ((s.at s.time).releaseSeen m c.ends) =
        regionCap s.pitch.recs m → u.segState m = 5 ∧ u.fld Fld.SEG_STATUS_STOP_CAUSE m = 1) ∧
      (∀ (ch : Nat) (xs : List Sample) (j : Int), s.segChans m = [ch] → regionWide s.pitch.recs m = true → runs = [xs] →
        c.skip = 0 → c.trigs = [j] → xs.length = regionLen s.pitch.recs m → ∀ (p : Nat) (y : Sample), xs[p]? = some y →
          memRead u.mem (s.slotAt m c.n + 2 * p) 2 = leBytes 2 (wide16 ⟨(s.at s.time).flagged ch
            ((s.at s.time).sampleInstant (ch / 8) (s.ilv ch) (j - c.pre + p)) y, p == c.pre⟩)) := by
  obtain ⟨a, haeq⟩ : ∃ a, a = s.at s.time := ⟨_, rfl⟩
  have hap : a.pitch = s.pitch := by rw [haeq]; exact State.at_pitch _ _
  have har : a.region m = s.region m := by rw [haeq]; exact State.at_region _ _ _
  have ham : ∀ x, memGet a.mem x = memGet s.mem x := fun x => by rw [haeq, State.at_mem]
  rw [← haeq] at hle ⊢
  obtain ⟨e, hst, -⟩ := a.storeSegment_stores m c (a.flagSegment m c runs)
  obtain ⟨b, hb⟩ : ∃ b, b = a.storeSegment m c (a.flagSegment m c runs) := ⟨_, rfl⟩
  rw [← hb] at hst
  obtain ⟨y, hbr⟩ := hst.rest
  obtain ⟨hrel, hbp⟩ := State.releaseSeen_stored hst c.ends
  obtain ⟨hw, hdir, hcap', hclosed, h4, h5⟩ := b.afterSegment_ends m c.ends (by rw [hbr, har]; exact h0)
  obtain ⟨u, hu, hr⟩ := s.done_notes (b.afterSegment m c.ends)
  have hur : u.region m = (b.afterSegment m c.ends).region m := State.region_of_eq hr.regions m
  have hum : u.mem = b.mem := by rw [hr.mem, hw.mem]
  have hap' : b.pitch.recs = s.pitch.recs := by rw [hbp, hap]
  refine ⟨u, e, ?_, ?_, ?_, hst.arm, hst.tts, ?_, ?_, fun hm => ?_, fun hm hfull => ?_, fun ch xs j hch hwide hruns hsk htr hlen p z hz => ?_⟩
  · rw [exec, execSegmentClose, State.when_eq ha, ← haeq, State.closeSegment_ended a m c runs (by rw [har]; exact hcap) hcut
      (by rw [har]; exact harm) (by rw [haeq, State.at_segState]; exact h3) hl hle, ← hb]
    exact hu
  · rw [hur, hcap', hst.cap]
  · rw [hur, hclosed, hst.closed, har]
  · rw [hr.dir, hdir, hst.dir]
  · exact onlySlot_of_pitch (fun x hx => by rw [hum]; exact hst.slot x hx) hap ham
  · rw [State.segState, hr.fld _ _ rfl]
    exact h4 (by rw [hap']; exact hm)
  · obtain ⟨h5, hcause⟩ := h5 (by rw [hap']; exact hm) (by rw [hap', hrel, hbr, har]; exact hfull)
    exact ⟨by rw [State.segState, hr.fld _ _ rfl]; exact h5, by rw [hr.fld _ _ rfl]; exact hcause⟩
  · have hchans : a.segChans m = [ch] := by rw [State.segChans, hap]; exact hch
    obtain ⟨zs, hzs⟩ : ∃ zs, zs = a.flagRun ch (j - c.pre) xs := ⟨_, rfl⟩
    have hflag : a.flagSegment m c runs = [zs] := by
      rw [State.flagSegment, hchans, htr, hruns, hsk, hzs]
      show [a.flagRun ch (j - c.pre + (0 : Nat)) xs] = _
      rw [Int.natCast_zero, Int.add_zero]
    have hlz : zs.length = xs.length := by rw [hzs, State.flagRun, List.length_map, List.length_zipIdx]
    have hzp : zs[p]? = some (a.flagged ch (a.sampleInstant (ch / 8) (a.ilv ch) (j - c.pre + p)) z) := by
      rw [hzs, State.flagRun, List.getElem?_map, List.getElem?_zipIdx, hz]
      simp
    have hilv : a.ilv ch = s.ilv ch := by rw [State.ilv, hap]; rfl
    rw [hum, hb, hflag, ← hilv, ← State.slotAt_of_pitch hap]
    exact a.storedSample_at m c ch zs hchans (by rw [hap]; exact hwide) (by rw [State.continuous, hap]; exact hc) hsk
      (by rw [hlz, hap]; exact hlen) p _ hzp

end Sys2Proof.Machine
end

section
/-! The blocks of continuous regions are stored (R214, R221, R224, R225). -/

namespace Sys2Proof.Machine

variable {s t u w : State} {but : List Reg} {srcs : List Nat} {m : Nat}

/-- SEG_STATUS.WMARK follows the counts. -/
theorem State.wmark_work (s : State) (m : Nat) (wb : Bool) :
    RegionWork m [⟨.SEG_STATUS, m⟩] s (s.wmark m wb) ∧ (s.wmark m wb).region m = s.region m := by
  unfold State.wmark
  dsimp only
  split
  · have hr := State.segEvent_raises (s.setFld Fld.SEG_STATUS_WMARK m
      (s.fld Fld.SEG_WMARK_LEVEL m != 0 && decide (s.fld Fld.SEG_WMARK_LEVEL m ≤
        ahead (s.fld Fld.SEG_WB_COUNT_COUNT m) (s.fld Fld.SEG_RELEASE_COUNT m))).toNat) m 1 0 0
    exact ⟨(s.setFld_regionWork _ _ (by simp) rfl).trans hr.regionWork, State.region_of_eq hr.regions m⟩
  · exact ⟨s.setFld_regionWork _ _ (by simp) rfl, rfl⟩

/-- What the store of a block leaves. -/
structure BlockStored (m n : Nat) (s t : State) : Prop where
  reg : ∀ r i, (⟨r, i⟩ : Reg) ∉ [(⟨.SEG_WB_COUNT, m⟩ : Reg), ⟨.SEG_STATUS, m⟩] → eventReg r = false → t.reg r i = s.reg r i
  count : t.fld Fld.SEG_WB_COUNT_COUNT m = (s.fld Fld.SEG_WB_COUNT_COUNT m + 1) % 2 ^ 32
  slot : onlySlot s t m n
  ended : (t.region m).ended = (s.region m).ended.drop 1
  block : (t.region m).block = (s.region m).block
  opened : (t.region m).count = (s.region m).count

theorem State.closeBlock_stores (s : State) (m : Nat) (runs : List (List Sample)) {b : Machine.Block}
    {rest : List Machine.Block} (he : (s.region m).ended = b :: rest) (harm : b.arm = (s.region m).armNo)
    (hl : runs.map List.length = b.counts.getD ((s.segChans m).map (s.runCount m)))
    (hle : (b.ends.add (.ofInt (ns 72))).le (.ofTu s.time) = true) :
    BlockStored m b.n s (s.closeBlock m runs) := by
  obtain ⟨mem, hm, hk⟩ := State.writeRuns_mem m false
    (((s.segChans m).zip runs).map fun y => (y.1, 0, s.placeBlock m y.1 b.first y.2)) s (s.slotAt m b.n)
  obtain ⟨g, hg⟩ : ∃ g : Region → Region, g = fun r => { r with
      ended := rest, fires := r.fires.filter fun f => f.stop || decide (b.first + 3072 ≤ s.trigOf m f.tts) } := ⟨_, rfl⟩
  obtain ⟨x, hx⟩ : ∃ x, x = ({ s with mem := mem } : State).modRegion m g := ⟨_, rfl⟩
  obtain ⟨y, hy⟩ : ∃ y, y = x.bumpMod Fld.SEG_WB_COUNT_COUNT m 1 := ⟨_, rfl⟩
  have heq : s.closeBlock m runs = y.wmark m true := by
    unfold State.closeBlock
    rw [he]
    dsimp only
    rw [if_neg (by rw [hle]; simp [hl]), if_pos harm]
    change ((((s.writeRuns m false (s.slotAt m b.n) (((s.segChans m).zip runs).map fun y =>
      (y.1, 0, s.placeBlock m y.1 b.first y.2))).modRegion m _).bumpMod _ m 1).wmark m true) = _
    rw [hm, hy, hx, hg]
  obtain ⟨hw, hwr⟩ := y.wmark_work m true
  have hyr : y.region m = g (s.region m) := by
    rw [hy, hx]
    exact State.region_modRegion ({ s with mem := mem } : State) m g
  have hyo : onlyRegs x y [⟨.SEG_WB_COUNT, m⟩] := by rw [hy]; exact .setFld (by simp) (.refl _ _)
  have hxreg (r : RegName) (i : Nat) : x.reg r i = s.reg r i := by rw [hx]; rfl
  rw [heq]
  refine ⟨fun r i hn he' => ?_, ?_, fun a ha => ?_, ?_, ?_, ?_⟩
  · rw [hw.only.1 r i (fun h => hn (by simp_all)) he', hyo.1 r i (fun h => hn (by simp_all)), hxreg]
  · rw [hw.fld (by simp) rfl, hy, State.bumpMod, State.fld_setFld_of_lt _ _ _ (by decide) (Nat.mod_lt _ (by decide)),
      State.fld_of_reg (hxreg _ _)]
  · have hmem : y.mem = mem := by rw [hy, hx]; rfl
    rw [hw.mem, hmem]
    refine hk a (ha.imp id fun h => Nat.le_trans (Nat.add_le_add_left ?_ _) h)
    rw [List.map_map]
    exact sum_map_zip_le (s.segChans m) runs (runLen s.pitch.recs m)
  · rw [hwr, hyr, hg, he]
    rfl
  · rw [hwr, hyr, hg]
  · rw [hwr, hyr, hg]

theorem execContinuousBlock_due (t : Tu) (m : Fin 32) (runs : List (List Sample)) (ha : s.alive = true)
    (hdue : s.trigsDue (s.at t).time = []) :
    exec (.continuousBlock t m runs) s = s.done (((s.at t).blocksNow m).closeBlock m runs) := by
  rw [exec, execContinuousBlock, State.when_eq ha, State.placeTrigs_none (by rw [State.at_trigsDue]; exact hdue)]

theorem State.blocksNow_blockWork (s : State) (m : Nat) : BlockWork m s (s.blocksNow m) := State.passBlocks_blockWork _ _ _

theorem State.runCounts_of_pitch (h : t.pitch = s.pitch) (m : Nat) :
    (t.segChans m).map (t.runCount m) = (s.segChans m).map (s.runCount m) := by
  have hr (ch : Nat) : t.runCount m ch = s.runCount m ch := by
    rw [State.runCount, State.continuous, State.ilv, h]
    rfl
  rw [State.segChans, h]
  exact List.map_congr_left fun ch _ => hr ch

theorem continuousBlock_stores (t : Tu) (m : Fin 32) (runs : List (List Sample)) (ha : s.alive = true)
    (hdue : s.trigsDue (s.at t).time = []) (b : Machine.Block) (rest : List Machine.Block)
    (he : (((s.at t).blocksNow m).region m).ended = b :: rest) (harm : b.arm = (s.region m).armNo)
    (hl : runs.map List.length = b.counts.getD ((s.segChans m).map (s.runCount m)))
    (hle : (b.ends.add (.ofInt (ns 72))).le (.ofTu (s.at t).time) = true) :
    ∃ u, exec (.continuousBlock t m runs) s = .next u ∧ (u.region m).ended = rest ∧
      u.fld Fld.SEG_WB_COUNT_COUNT m = (s.fld Fld.SEG_WB_COUNT_COUNT m + 1) % 2 ^ 32 ∧ onlySlot s u m b.n := by
  have hb := (s.at t).blocksNow_blockWork m
  have hp : ((s.at t).blocksNow m).pitch = s.pitch := hb.work.pitch.trans (State.at_pitch _ _)
  have hst := ((s.at t).blocksNow m).closeBlock_stores m runs he (by rw [hb.arm, State.at_region]; exact harm)
    (by rw [State.runCounts_of_pitch hp]; exact hl) (by rw [hb.work.time]; exact hle)
  obtain ⟨u, hu, hr⟩ := s.done_notes (((s.at t).blocksNow m).closeBlock m runs)
  refine ⟨u, (execContinuousBlock_due t m runs ha hdue).trans hu, ?_, ?_, ?_⟩
  · rw [State.region_of_eq hr.regions, hst.ended, he]
    rfl
  · rw [hr.fld _ _ rfl, hst.count, hb.work.fld (by simp [blockRegs, unitRegs]) rfl, State.at_fld]
  · exact onlySlot_of_pitch (fun a ha => by rw [hr.mem]; exact hst.slot a ha) hp
      fun a => by rw [hb.work.mem, State.at_mem]

/-- The block of a wrapping region that ends now, and the next one that opens. -/
theorem State.nextBlock_wraps (s : State) (m : Nat) {b : Int} (hb : (s.region m).block = some b)
    (h2 : regionMode s.pitch.recs m = 2) (he : (s.region m).ended = []) :
    RegionWork m [⟨.SEG_OPEN_COUNT, m⟩, ⟨.SEG_STATUS, m⟩, ⟨.SEG_OVERRUN, m⟩] s (s.nextBlock m) ∧
      (s.nextBlock m).fld Fld.SEG_OPEN_COUNT_COUNT m = (s.fld Fld.SEG_OPEN_COUNT_COUNT m + 1) % 2 ^ 32 ∧
      ((s.nextBlock m).region m).block = some (b + 3072) ∧
      ((s.nextBlock m).region m).count = (s.region m).count + 1 ∧
      ((s.nextBlock m).region m).armNo = (s.region m).armNo ∧
      ((s.nextBlock m).region m).ended =
        [(⟨b, (s.region m).count - 1, (s.region m).armNo, s.refInstant m (b + 3072), none⟩ : Machine.Block)] := by
  obtain ⟨y, hy⟩ : ∃ y, y = s.modRegion m fun r =>
    { r with block := none, ended := r.ended ++ [(⟨b, r.count - 1, r.armNo, s.refInstant m (b + 3072), none⟩ : Block)] } :=
    ⟨_, rfl⟩
  have hyw : RegionWork m [⟨.SEG_OPEN_COUNT, m⟩, ⟨.SEG_STATUS, m⟩, ⟨.SEG_OVERRUN, m⟩] s y := by
    rw [hy]
    exact State.modRegion_regionWork _ _ _
  have hyr : y.region m = { s.region m with
      block := none
      ended := [(⟨b, (s.region m).count - 1, (s.region m).armNo, s.refInstant m (b + 3072), none⟩ : Machine.Block)] } := by
    rw [hy, State.region_modRegion, he]
    rfl
  have hyf : y.fld Fld.SEG_OPEN_COUNT_COUNT m = s.fld Fld.SEG_OPEN_COUNT_COUNT m := by rw [hy]; rfl
  obtain ⟨hw, hn, hr⟩ := y.openUnit_reads m (s.refInstant m (b + 3072))
  have heq : s.nextBlock m = (y.openUnit m (s.refInstant m (b + 3072))).modRegion m fun r =>
      { r with block := some (b + 3072) } := by
    unfold State.nextBlock
    rw [hb]
    dsimp only
    rw [if_neg (by rw [h2]; simp), hy]
  have hru := State.region_modRegion (y.openUnit m (s.refInstant m (b + 3072))) m fun r =>
    { r with block := some (b + 3072) }
  rw [← heq, hr, hyr] at hru
  refine ⟨?_, ?_, by rw [hru], by rw [hru], by rw [hru], by rw [hru]⟩
  · rw [heq]
    exact (hyw.trans hw).trans (State.modRegion_regionWork _ _ _)
  · rw [heq]
    exact hn.trans (by rw [hyf])

/-- With one block over by now, that block has passed. -/
theorem State.blocksNow_one (s : State) (m : Nat) {b k : Int} (hb : (s.region m).block = some b)
    (hk : k = s.sampleAt (m / 16) (refF s.pitch.recs m) ((Ratio.ofTu s.time).sub (.ofInt (ns 72))))
    (h1 : (k - b - 1) / 3072 = 1) : s.blocksNow m = s.nextBlock m := by
  rw [State.blocksNow, State.passBlocks, hb]
  dsimp only
  rw [← hk, h1]
  rfl

theorem continuousBlock_opens (t : Tu) (m : Fin 32) (runs : List (List Sample)) (ha : s.alive = true)
    (hdue : s.trigsDue (s.at t).time = []) (b k : Int) (hb : (s.region m).block = some b) (he : (s.region m).ended = [])
    (h2 : regionMode s.pitch.recs m = 2) (hl : runs.map List.length = (s.segChans m).map (s.runCount m))
    (hk : k = (s.at t).sampleAt (m / 16) (refF s.pitch.recs m) ((Ratio.ofTu (s.at t).time).sub (.ofInt (ns 72))))
    (h1 : (k - b - 1) / 3072 = 1)
    (hle : (((s.at t).refInstant m (b + 3072)).add (.ofInt (ns 72))).le (.ofTu (s.at t).time) = true) :
    ∃ u, exec (.continuousBlock t m runs) s = .next u ∧ (u.region m).block = some (b + 3072) ∧
      (u.region m).count = (s.region m).count + 1 ∧ onlySlot s u m ((s.region m).count - 1) ∧
      u.fld Fld.SEG_WB_COUNT_COUNT m = (s.fld Fld.SEG_WB_COUNT_COUNT m + 1) % 2 ^ 32 ∧
      u.fld Fld.SEG_OPEN_COUNT_COUNT m = (s.fld Fld.SEG_OPEN_COUNT_COUNT m + 1) % 2 ^ 32 ∧
      ∀ n i, (⟨n, i⟩ : Reg) ∉ [(⟨.SEG_WB_COUNT, m⟩ : Reg), ⟨.SEG_OPEN_COUNT, m⟩, ⟨.SEG_STATUS, m⟩, ⟨.SEG_OVERRUN, m⟩] →
        eventReg n = false → u.reg n i = s.reg n i := by
  obtain ⟨a, haeq⟩ : ∃ a, a = s.at t := ⟨_, rfl⟩
  have hap : a.pitch = s.pitch := by rw [haeq]; exact State.at_pitch _ _
  have har : a.region m = s.region m := by rw [haeq]; exact State.at_region _ _ _
  have hareg (n : RegName) (i : Nat) : a.reg n i = s.reg n i := by rw [haeq]; exact State.at_reg _ _ _ _
  have hex := execContinuousBlock_due t m runs ha hdue
  rw [← haeq] at hk hle hex
  rw [State.blocksNow_one a m (by rw [har]; exact hb) (by rw [hap]; exact hk) h1] at hex
  obtain ⟨hw, hn, hblock, hcount, harm, hended⟩ := a.nextBlock_wraps m (by rw [har]; exact hb) (by rw [hap]; exact h2)
    (by rw [har]; exact he)
  obtain ⟨y, hy⟩ : ∃ y, y = a.nextBlock m := ⟨_, rfl⟩
  rw [← hy] at hex hw hn hblock hcount harm hended
  have hp : y.pitch = s.pitch := hw.pitch.trans hap
  have hst := y.closeBlock_stores m runs hended (by rw [harm]) (by rw [State.runCounts_of_pitch hp]; exact hl)
    (by rw [hw.time]; exact hle)
  obtain ⟨u, hu, hr⟩ := s.done_notes (y.closeBlock m runs)
  have hur : u.region m = (y.closeBlock m runs).region m := State.region_of_eq hr.regions m
  rw [har] at hst
  refine ⟨u, hex.trans hu, ?_, ?_, ?_, ?_, ?_, fun n i hni he' => ?_⟩
  · rw [hur, hst.block, hblock]
  · rw [hur, hst.opened, hcount, har]
  · exact onlySlot_of_pitch (fun x hx => by rw [hr.mem]; exact hst.slot x hx) hp fun x => by
      rw [hw.mem, haeq, State.at_mem]
  · rw [hr.fld _ _ rfl, hst.count, hw.fld (by simp) rfl, State.fld_of_reg (hareg _ _)]
  · rw [hr.fld _ _ rfl, State.fld_of_reg (hst.reg _ _ (by simp) rfl), hn, State.fld_of_reg (hareg _ _)]
  · have hsub1 : [(⟨.SEG_WB_COUNT, m⟩ : Reg), ⟨.SEG_STATUS, m⟩] ⊆
        [(⟨.SEG_WB_COUNT, m⟩ : Reg), ⟨.SEG_OPEN_COUNT, m⟩, ⟨.SEG_STATUS, m⟩, ⟨.SEG_OVERRUN, m⟩] := by simp
    have hsub2 : [(⟨.SEG_OPEN_COUNT, m⟩ : Reg), ⟨.SEG_STATUS, m⟩, ⟨.SEG_OVERRUN, m⟩] ⊆
        [(⟨.SEG_WB_COUNT, m⟩ : Reg), ⟨.SEG_OPEN_COUNT, m⟩, ⟨.SEG_STATUS, m⟩, ⟨.SEG_OVERRUN, m⟩] := by simp
    rw [hr.reg n i he', hst.reg n i (fun h => hni (hsub1 h)) he', hw.only.1 n i (fun h => hni (hsub2 h)) he', hareg]

/-- Settles O30: a segment is written inside its slot, and `packRun` puts each sample of a WIDE16 run at its place; a block
is written inside its slot, after the block that ends with it has given way to the next. -/
theorem unitsAreStored : Obligations.UnitsAreStored :=
  ⟨fun _ m c runs ha hcap hcut harm h3 hc hl hle h0 => segmentClose_stores m c runs ha hcap hcut harm h3 hc hl hle h0,
    fun _ t m runs ha hdue => ⟨fun b rest he harm hl hle => continuousBlock_stores t m runs ha hdue b rest he harm hl hle,
      fun b k hb he h2 hl hk h1 hle => continuousBlock_opens t m runs ha hdue b k hb he h2 hl hk h1 hle⟩⟩

end Sys2Proof.Machine
end

section
/-! SUPPORT. What an operation on one DMA queue leaves of the rest (R21, R54, R59). -/

namespace Sys2Proof.Machine

variable {s t u w : State} {but : List Reg} {srcs : List Nat} {m q : Nat}

/-- A relation that every step keeps. -/
theorem foldl_rel {α σ : Type} {R : σ → σ → Prop} {f : σ → α → σ} (hr : ∀ a, R a a)
    (htr : ∀ {a b c}, R a b → R b c → R a c) (hf : ∀ a x, R a (f a x)) (l : List α) (s : σ) : R s (l.foldl f s) := by
  induction l generalizing s with
  | nil => exact hr s
  | cons x l ih => exact htr (hf s x) (ih _)

theorem foldl_rel_mem {α σ : Type} {R : σ → σ → Prop} {f : σ → α → σ} {l : List α} (hr : ∀ a, R a a)
    (htr : ∀ {a b c}, R a b → R b c → R a c) (hf : ∀ a x, x ∈ l → R a (f a x)) (s : σ) : R s (l.foldl f s) := by
  induction l generalizing s with
  | nil => exact hr s
  | cons x l ih =>
    exact htr (hf s x (List.mem_cons_self ..)) (ih (fun a y hy => hf a y (List.mem_cons_of_mem _ hy)) _)

theorem State.queue_modQueue (s : State) (q : Nat) (f : Queue → Queue) : (s.modQueue q f).queue q = f (s.queue q) :=
  tget_tmod_same _ _ _ _

theorem State.queue_modQueue_ne (s : State) {q k : Nat} (f : Queue → Queue) (h : k ≠ q) :
    (s.modQueue q f).queue k = s.queue k := tget_tmod_other _ _ _ h

theorem State.queue_setFld (s : State) (f : Fld) (i x k : Nat) : (s.setFld f i x).queue k = s.queue k := rfl

theorem State.queue_of_eq (h : t.dma = s.dma) (k : Nat) : t.queue k = s.queue k := by
  rw [State.queue, h]; rfl

/-- `t` is `s` after data entered the stager of queue `q`, or were dropped: its record, STAGED, memory, and events. -/
structure StageWork (q : Nat) (s t : State) : Prop where
  reg : ∀ n i, n ≠ .DMA_Q_STAGED → eventReg n = false → t.reg n i = s.reg n i
  others : ∀ k, k ≠ q → t.queue k = s.queue k
  rest : ∃ regs mem queues sram nextSeq logged deferred trigOut raises pba basecamp out free,
    t = { s with
      regs := regs, mem := mem, trigOut := trigOut, out := out, free := free
      dma := { s.dma with queues := queues }
      mgt := { s.mgt with sram := sram, nextSeq := nextSeq, logged := logged, deferred := deferred }
      evt := { s.evt with raises := raises, pba := pba, basecamp := basecamp } }

theorem StageWork.refl (q : Nat) (s : State) : StageWork q s s :=
  ⟨fun _ _ _ _ => rfl, fun _ _ => rfl, _, _, _, _, _, _, _, _, _, _, _, _, _, rfl⟩

theorem StageWork.trans (h : StageWork q s t) (g : StageWork q t u) : StageWork q s u := by
  refine ⟨fun n i hn he => (g.reg n i hn he).trans (h.reg n i hn he), fun k hk => (g.others k hk).trans (h.others k hk), ?_⟩
  obtain ⟨_, _, _, _, _, _, _, _, _, _, _, _, _, rfl⟩ := h.rest
  obtain ⟨_, _, _, _, _, _, _, _, _, _, _, _, _, rfl⟩ := g.rest
  exact ⟨_, _, _, _, _, _, _, _, _, _, _, _, _, rfl⟩

theorem StageWork.regions (h : StageWork q s t) : t.regions = s.regions := by
  obtain ⟨_, _, _, _, _, _, _, _, _, _, _, _, _, rfl⟩ := h.rest; rfl
theorem StageWork.pitch (h : StageWork q s t) : t.pitch = s.pitch := by
  obtain ⟨_, _, _, _, _, _, _, _, _, _, _, _, _, rfl⟩ := h.rest; rfl
theorem StageWork.time (h : StageWork q s t) : t.time = s.time := by
  obtain ⟨_, _, _, _, _, _, _, _, _, _, _, _, _, rfl⟩ := h.rest; rfl
theorem StageWork.inbound (h : StageWork q s t) : t.dma.inbound = s.dma.inbound := by
  obtain ⟨_, _, _, _, _, _, _, _, _, _, _, _, _, rfl⟩ := h.rest; rfl

theorem State.modQueue_stageWork (s : State) (q : Nat) (f : Queue → Queue) : StageWork q s (s.modQueue q f) :=
  ⟨fun _ _ _ _ => rfl, fun _ hk => State.queue_modQueue_ne _ _ hk, _, _, _, _, _, _, _, _, _, _, _, _, _, rfl⟩

theorem Raises.stageWork {ns : List Nat} (h : Raises s t ns) : StageWork q s t := by
  refine ⟨fun n i _ he => h.reg n i he, fun k _ => State.queue_of_eq h.dma k, ?_⟩
  obtain ⟨_, _, _, _, _, _, _, _, _, _, _, rfl⟩ := h.rest
  exact ⟨_, _, _, _, _, _, _, _, _, _, _, _, _, rfl⟩

theorem State.syncStaged_stageWork (s : State) (q : Nat) : StageWork q s (s.syncStaged q) :=
  ⟨fun _ _ hn _ => State.reg_setFld_ne _ _ _ _ _ _ hn, fun _ _ => rfl, _, _, _, _, _, _, _, _, _, _, _, _, _, rfl⟩

theorem State.stageMem_stageWork (s : State) (q : Nat) (bytes : List Byte) : StageWork q s (s.stageMem q bytes) := by
  unfold State.stageMem
  split
  · exact .refl _ _
  · exact ⟨fun _ _ _ _ => rfl, fun _ hk => State.queue_modQueue_ne _ _ hk, _, _, _, _, _, _, _, _, _, _, _, _, _, rfl⟩

/-- The staged data of a queue with one datum more, in the frame `f`. -/
def stagedWith (x : Queue) (f : Frame) (bytes : List Byte) : List Batch :=
  match x.staged.getLast? with
  | some b =>
    if b.open_ then x.staged.dropLast ++ [{ b with bytes := b.bytes ++ bytes, gap := gapJoin b.gap x.gap }]
    else x.staged ++ [⟨f, bytes, 0, true, x.gap⟩]
  | none => [⟨f, bytes, 0, true, x.gap⟩]

theorem bytes_stagedWith (x : Queue) (f : Frame) (bytes : List Byte) :
    ((stagedWith x f bytes).map fun b => b.bytes.length).sum = x.bytes + bytes.length := by
  unfold stagedWith Queue.bytes
  rcases List.eq_nil_or_concat x.staged with h | ⟨l, b, h⟩
  · rw [h]
    simp
  · rw [h, List.concat_eq_append, List.getLast?_concat]
    dsimp only
    split
    · simp [Nat.add_assoc]
    · simp [Nat.add_assoc]

/-- A datum that the stager takes in. -/
theorem State.stage_takes (s : State) (q : Nat) (bytes : List Byte) (h1 : s.qState q = 1)
    (ha : (s.queue q).accepting = true) (hroom : (s.queue q).bytes + bytes.length ≤ stageSize s.pitch.recs q) :
    s.stage q bytes = ((s.stageMem q bytes).modQueue q fun x =>
      { x with staged := stagedWith x s.frame bytes, gap := none }).syncStaged q := by
  unfold State.stage
  dsimp only
  rw [if_neg (by simp [h1, ha]), if_neg (by omega)]
  rfl

theorem State.stage_stageWork (s : State) (q : Nat) (bytes : List Byte) : StageWork q s (s.stage q bytes) := by
  unfold State.stage
  dsimp only
  split
  · exact .refl _ _
  · split
    · have hheld : StageWork q s (if s.held then s.raise 60 1 q else s) := by
        split
        · exact (State.raise_raises _ _ _).stageWork
        · exact .refl _ _
      split
      · exact (hheld.trans (State.modQueue_stageWork _ _ _)).trans (State.raise_raises _ _ _).stageWork
      · exact hheld.trans (State.modQueue_stageWork _ _ _)
    · exact ((State.stageMem_stageWork _ _ _).trans (State.modQueue_stageWork _ _ _)).trans
        (State.syncStaged_stageWork _ _)

theorem State.stageMem_queue (s : State) (q : Nat) (bytes : List Byte) :
    ∃ p, (s.stageMem q bytes).queue q = { s.queue q with pos := p } := by
  unfold State.stageMem
  split
  · exact ⟨_, rfl⟩
  · exact ⟨_, State.queue_modQueue _ _ _⟩

theorem State.stage_bytes (s : State) (q : Nat) (bytes : List Byte) (h1 : s.qState q = 1)
    (ha : (s.queue q).accepting = true) (hroom : (s.queue q).bytes + bytes.length ≤ stageSize s.pitch.recs q) :
    ((s.stage q bytes).queue q).bytes = (s.queue q).bytes + bytes.length := by
  obtain ⟨p, hp⟩ := s.stageMem_queue q bytes
  rw [s.stage_takes q bytes h1 ha hroom, State.syncStaged, State.queue_setFld, State.queue_modQueue, hp]
  exact bytes_stagedWith _ _ _

end Sys2Proof.Machine
end

section
/-! Directory entries are written back and released; the host's accesses to the stacks (R213, R220 to R222, R226). -/

namespace Sys2Proof.Machine

variable {s t u w : State} {but : List Reg} {srcs : List Nat} {m q : Nat}

/-! ### Write-back -/

/-- The entry goes into every queue that carries the directory of the region. -/
def State.stageEntry (s : State) (m : Nat) (e : List Byte) : State :=
  s.each 64 fun s q => if s.carries q 5 m then s.stage q e else s

/-- A state with an entry in the mirror. -/
def State.mirrored (s : State) (c : Closed) : State :=
  { s with mem := memPutAll s.mem (mirrorAt (c.slot / 65536) (c.slot % 65536)) c.entry
           dma := { s.dma with torn := some (s.time, mirrorAt (c.slot / 65536) (c.slot % 65536),
             memRead s.mem (mirrorAt (c.slot / 65536) (c.slot % 65536)) 32) } }

theorem State.writeEntry_eq (s : State) (m : Nat) (c : Closed) :
    s.writeEntry m c = if c.arm = (s.region m).armNo then
      (((s.mirrored c).stageEntry m c.entry).bumpMod Fld.SEG_WB_COUNT_COUNT m 1).wmark m true
      else (s.mirrored c).stageEntry m c.entry := rfl

/-- What the stagers of all queues leave. -/
structure EntryStaged (s t : State) : Prop where
  reg : ∀ n i, n ≠ .DMA_Q_STAGED → eventReg n = false → t.reg n i = s.reg n i
  regions : t.regions = s.regions

theorem EntryStaged.refl (s : State) : EntryStaged s s := ⟨fun _ _ _ _ => rfl, rfl⟩

theorem EntryStaged.trans (h : EntryStaged s t) (g : EntryStaged t u) : EntryStaged s u :=
  ⟨fun n i hn he => (g.reg n i hn he).trans (h.reg n i hn he), g.regions.trans h.regions⟩

theorem State.stageEntry_staged (s : State) (m : Nat) (e : List Byte) : EntryStaged s (s.stageEntry m e) :=
  foldl_rel EntryStaged.refl EntryStaged.trans (fun a q => by
    split
    · exact ⟨(a.stage_stageWork q e).reg, (a.stage_stageWork q e).regions⟩
    · exact .refl _) _ _

theorem State.stageEntry_none (s : State) (m : Nat) (e : List Byte) (h : ∀ q, q < 64 → s.carries q 5 m = false) :
    s.stageEntry m e = s := by
  have hl : ∀ l : List Nat, (∀ q ∈ l, q < 64) →
      l.foldl (fun s q => if s.carries q 5 m then s.stage q e else s) s = s := by
    intro l
    induction l with
    | nil => exact fun _ => rfl
    | cons q l ih =>
      intro hq
      rw [List.foldl_cons, h q (hq q (List.mem_cons_self ..)), if_neg Bool.false_ne_true]
      exact ih fun x hx => hq x (List.mem_cons_of_mem _ hx)
  exact hl _ fun q hq => List.mem_range.1 hq

/-- What the stagers of other queues leave of a queue. -/
structure QueueKept (q : Nat) (s t : State) : Prop where
  queue : t.queue q = s.queue q
  reg : ∀ n i, n ≠ .DMA_Q_STAGED → eventReg n = false → t.reg n i = s.reg n i
  pitch : t.pitch = s.pitch

theorem QueueKept.refl (q : Nat) (s : State) : QueueKept q s s := ⟨rfl, fun _ _ _ _ => rfl, rfl⟩

theorem QueueKept.trans (h : QueueKept q s t) (g : QueueKept q t u) : QueueKept q s u :=
  ⟨g.queue.trans h.queue, fun n i hn he => (g.reg n i hn he).trans (h.reg n i hn he), g.pitch.trans h.pitch⟩

theorem QueueKept.carries (h : QueueKept q s t) (k m : Nat) : t.carries q k m = s.carries q k m := by
  have hk : ∀ f : Fld, f.reg = .DMA_Q_KIND → t.fld f q = s.fld f q := fun f hf =>
    State.fld_of_reg (h.reg _ _ (by rw [hf]; decide) (by rw [hf]; rfl))
  rw [State.carries, State.carries, State.qKind, State.qKind, hk _ rfl, hk _ rfl]

theorem QueueKept.qState (h : QueueKept q s t) : t.qState q = s.qState q := h.reg _ _ (by decide) rfl |> State.fld_of_reg

/-- A running queue that carries the directory and has room takes the entry in. -/
theorem State.stageEntry_bytes (s : State) (m : Nat) (e : List Byte) {q : Nat} (hq : q < 64)
    (hc : s.carries q 5 m = true) (h1 : s.qState q = 1) (ha : (s.queue q).accepting = true)
    (hroom : (s.queue q).bytes + e.length ≤ stageSize s.pitch.recs q) :
    ((s.stageEntry m e).queue q).bytes = (s.queue q).bytes + e.length := by
  have hother (a : State) (k : Nat) (hk : k ≠ q) :
      QueueKept q a (if a.carries k 5 m then a.stage k e else a) := by
    split
    · have hw := a.stage_stageWork k e
      exact ⟨hw.others q (Ne.symm hk), hw.reg, hw.pitch⟩
    · exact .refl _ _
  obtain ⟨a, hsa, hab⟩ := State.each_between hq (QueueKept.refl q) QueueKept.trans hother s
  have hac : a.carries q 5 m = true := by rw [hsa.carries]; exact hc
  rw [if_pos hac] at hab
  have hb := a.stage_bytes q e (by rw [hsa.qState]; exact h1) (by rw [hsa.queue]; exact ha)
    (by rw [hsa.queue, hsa.pitch]; exact hroom)
  rw [State.stageEntry, hab.queue, hb, hsa.queue]

theorem directoryWriteback_writes (t : Tu) (m : Fin 32) (c : Closed) (rest : List Closed) (ha : s.alive = true)
    (hcl : (s.region m).closed = c :: rest) (hf : leAt c.entry 19 6 < s.frame.toNat) :
    ∃ u, exec (.directoryWriteback t m) s = .next u ∧ (u.region m).closed = rest ∧
      ((∀ q, q < 64 → s.carries q 5 m = false) →
        memRead u.mem (mirrorAt (c.slot / 65536) (c.slot % 65536)) c.entry.length = c.entry ∧
        ∀ a, a < mirrorAt (c.slot / 65536) (c.slot % 65536) ∨
          mirrorAt (c.slot / 65536) (c.slot % 65536) + c.entry.length ≤ a → memGet u.mem a = memGet s.mem a) ∧
      (∀ q, q < 64 → s.carries q 5 m = true → s.qState q = 1 → (s.queue q).accepting = true →
        (s.queue q).bytes + c.entry.length ≤ stageSize s.pitch.recs q →
        (u.queue q).bytes = (s.queue q).bytes + c.entry.length) ∧
      (c.arm = (s.region m).armNo →
        u.fld Fld.SEG_WB_COUNT_COUNT m = (s.fld Fld.SEG_WB_COUNT_COUNT m + 1) % 2 ^ 32) ∧
      (c.arm ≠ (s.region m).armNo → u.reg .SEG_WB_COUNT m = s.reg .SEG_WB_COUNT m) ∧
      ∀ n i, (⟨n, i⟩ : Reg) ∉ [(⟨.SEG_WB_COUNT, m⟩ : Reg), ⟨.SEG_STATUS, m⟩] → n ≠ .DMA_Q_STAGED → eventReg n = false →
        u.reg n i = s.reg n i := by
  obtain ⟨x, hx⟩ : ∃ x, x = ((s.at t).modRegion m fun r => { r with closed := rest }).mirrored c := ⟨_, rfl⟩
  have hxr : x.region m = { s.region m with closed := rest } := by
    rw [hx]
    refine (State.region_modRegion (s.at t) m fun r => { r with closed := rest }).trans ?_
    rw [State.at_region]
  have hxreg (n : RegName) (i : Nat) : x.reg n i = s.reg n i := by rw [hx]; exact State.at_reg _ _ _ _
  have hxq (q : Nat) : x.queue q = s.queue q := by
    rw [hx]
    exact (State.queue_of_eq (State.at_dma s t) q)
  have hxp : x.pitch = s.pitch := by rw [hx]; exact State.at_pitch _ _
  have hxm : x.mem = memPutAll s.mem (mirrorAt (c.slot / 65536) (c.slot % 65536)) c.entry := by
    rw [hx]
    show memPutAll (s.at t).mem _ _ = _
    rw [State.at_mem]
  have hxk (q k : Nat) : x.carries q k m = s.carries q k m := by
    rw [State.carries, State.carries, State.qKind, State.qKind, State.fld_of_reg (hxreg _ _), State.fld_of_reg (hxreg _ _)]
  obtain ⟨y, hy⟩ : ∃ y, y = x.stageEntry m c.entry := ⟨_, rfl⟩
  have hst := x.stageEntry_staged m c.entry
  rw [← hy] at hst
  obtain ⟨z, hz⟩ : ∃ z, z = if c.arm = (s.region m).armNo then
    (y.bumpMod Fld.SEG_WB_COUNT_COUNT m 1).wmark m true else y := ⟨_, rfl⟩
  -- the count of the entry, which is of the present arm or not
  have hzy : z.region m = y.region m ∧ z.mem = y.mem ∧ z.dma = y.dma ∧
      (∀ n i, (⟨n, i⟩ : Reg) ∉ [(⟨.SEG_WB_COUNT, m⟩ : Reg), ⟨.SEG_STATUS, m⟩] → eventReg n = false → z.reg n i = y.reg n i) ∧
      (c.arm = (s.region m).armNo →
        z.fld Fld.SEG_WB_COUNT_COUNT m = (y.fld Fld.SEG_WB_COUNT_COUNT m + 1) % 2 ^ 32) ∧
      (c.arm ≠ (s.region m).armNo → z = y) := by
    rw [hz]
    split
    · next h =>
      obtain ⟨v, hv⟩ : ∃ v, v = y.bumpMod Fld.SEG_WB_COUNT_COUNT m 1 := ⟨_, rfl⟩
      have hvy : onlyRegs y v [⟨.SEG_WB_COUNT, m⟩] := by rw [hv]; exact .setFld (by simp) (.refl _ _)
      obtain ⟨hw, hwr⟩ := v.wmark_work m true
      have hdma : (v.wmark m true).dma = v.dma := by
        obtain ⟨_, _, _, _, _, _, _, _, _, _, _, _, _, heq⟩ := hw.rest
        rw [heq]
      rw [← hv]
      refine ⟨by rw [hwr, hv]; rfl, by rw [hw.mem, hv]; rfl, by rw [hdma, hv]; rfl, fun n i hn he => ?_, fun _ => ?_,
        fun hne => absurd h hne⟩
      · rw [hw.only.1 n i (fun h => hn (List.mem_cons_of_mem _ h)) he,
          hvy.1 n i fun h => hn (by rw [List.mem_singleton.1 h]; exact List.mem_cons_self ..)]
      · rw [hw.fld (by simp) rfl, hv, State.bumpMod, State.fld_setFld_of_lt _ _ _ (by decide) (Nat.mod_lt _ (by decide))]
    · next h => exact ⟨rfl, rfl, rfl, fun _ _ _ _ => rfl, fun hh => absurd hh h, fun _ => rfl⟩
  obtain ⟨hzr, hzm, hzd, hzreg, hzc, hzn⟩ := hzy
  obtain ⟨u, hu, hr⟩ := s.done_notes z
  refine ⟨u, ?_, ?_, fun hnone => ?_, fun q hq hc h1 hac hroom => ?_, fun h => ?_, fun h => ?_, fun n i hn hns he => ?_⟩
  · have harm : x.region m = { s.region m with closed := rest } := hxr
    have hframe : ¬ (s.at t).frame.toNat ≤ leAt c.entry 19 6 := by rw [State.at_frame]; omega
    have hwe : ((s.at t).modRegion m fun r => { r with closed := rest }).writeEntry m c = z := by
      rw [State.writeEntry_eq, State.region_modRegion, State.at_region, ← hx, ← hy, hz]
    rw [exec, execDirectoryWriteback, State.when_eq ha, State.writeBack, State.at_region, hcl]
    dsimp only
    rw [if_neg hframe, hwe]
    exact hu
  · rw [State.region_of_eq hr.regions, hzr, State.region_of_eq hst.regions, hxr]
  · have hyx : y = x := by rw [hy]; exact x.stageEntry_none m c.entry fun q hq => by rw [hxk]; exact hnone q hq
    rw [hr.mem, hzm, hyx, hxm]
    exact ⟨memRead_memPutAll _ _ _, fun a ha => memGet_memPutAll_other _ _ _ ha⟩
  · rw [State.queue_of_eq hr.dma, State.queue_of_eq hzd, hy,
      x.stageEntry_bytes m c.entry hq (by rw [hxk]; exact hc) (by rw [State.qState, State.fld_of_reg (hxreg _ _)]; exact h1)
        (by rw [hxq]; exact hac) (by rw [hxq, hxp]; exact hroom), hxq]
  · rw [hr.fld _ _ rfl, hzc h, State.fld_of_reg (hst.reg _ _ (by decide) rfl), State.fld_of_reg (hxreg _ _)]
  · rw [hr.reg _ _ rfl, hzn h, hst.reg _ _ (by decide) rfl, hxreg]
  · rw [hr.reg n i he, hzreg n i hn he, hst.reg n i hns he, hxreg]

/-! ### Release -/

theorem segRelease_releases (t : Tu) (m : Fin 32) (n : Word) (hup : s.hostUp = true) (hd : s.dieAsleep (m / 16) = false) :
    (ahead n.toNat (s.fld Fld.SEG_RELEASE_COUNT m) < 2 ^ 31 → ahead (s.fld Fld.SEG_WB_COUNT_COUNT m) n.toNat < 2 ^ 31 →
      ∃ u, exec (.segRelease t m n) s = .next u ∧ u.fld Fld.SEG_RELEASE_COUNT m = n.toNat ∧
        onlyRegs s u [⟨.SEG_RELEASE, m⟩, ⟨.SEG_STATUS, m⟩]) ∧
    (2 ^ 31 ≤ ahead n.toNat (s.fld Fld.SEG_RELEASE_COUNT m) ∨ 2 ^ 31 ≤ ahead (s.fld Fld.SEG_WB_COUNT_COUNT m) n.toNat →
      ∃ u, exec (.segRelease t m n) s = .next u ∧ onlyRegs s u []) := by
  have hex : exec (.segRelease t m n) s = s.done ((s.at t).release m n.toNat) := by
    rw [exec, execSegRelease, State.whenHost_eq hup, State.at_dieAsleep, hd, if_neg Bool.false_ne_true]
  rw [hex, State.release, State.at_fld, State.at_fld]
  constructor
  · intro h1 h2
    rw [if_pos ⟨h1, h2⟩]
    obtain ⟨x, hx⟩ : ∃ x, x = ((s.at t).setFld Fld.SEG_RELEASE_COUNT m n.toNat).modRegion m fun r =>
      { r with releases := ((s.at t).time, s.fld Fld.SEG_RELEASE_COUNT m) :: r.releases } := ⟨_, rfl⟩
    have hxo : onlyRegs (s.at t) x [⟨.SEG_RELEASE, m⟩, ⟨.SEG_STATUS, m⟩] := by
      rw [hx]
      exact .of_eq rfl rfl (.setFld (by simp) (.refl _ _))
    have hxf : x.fld Fld.SEG_RELEASE_COUNT m = n.toNat := by
      rw [hx]
      exact State.fld_setFld_of_lt _ _ _ (by decide) n.isLt
    have hwm : ∃ b : Nat, x.wmark m false = x.setFld Fld.SEG_STATUS_WMARK m b := ⟨_, rfl⟩
    obtain ⟨b, hwm⟩ := hwm
    rw [← hx, hwm]
    obtain ⟨hdn, ho⟩ := State.done_onlyRegs (t := x.setFld Fld.SEG_STATUS_WMARK m b) (.setFld (by simp) hxo) rfl
    exact ⟨_, hdn, (State.fld_setFld_ne _ _ _ _ _ _ (by decide)).trans hxf, ho⟩
  · intro h
    rw [if_neg (by omega)]
    obtain ⟨hdn, -, ho⟩ := s.done_at t
    exact ⟨_, hdn, ho⟩

/-! ### The host's window on the stacks -/

theorem bar2Read_reads (t : Tu) (a : BitVec 36) (len : Nat) (hup : s.hostUp = true) :
    ∃ u bs, exec (.bar2Read t a len) s = .next u ∧ u.out = .bar2Data bs false :: s.out ∧ bs.length = len ∧
      onlyRegs s u [] ∧
      ∀ k, k < len →
        ((2 * stackSpan ≤ a.toNat + k ∨ inReserved (a.toNat + k) = true ∨ s.dieAsleep ((a.toNat + k) / stackSpan) = true →
          bs[k]? = some 0) ∧
        (a.toNat + k < 2 * stackSpan → inReserved (a.toNat + k) = false → s.dieAsleep ((a.toNat + k) / stackSpan) = false →
          bs[k]? = some (memGet s.mem (a.toNat + k)) ∨
            ∃ base old, s.dma.torn = some ((s.at t).time, base, old) ∧ base ≤ a.toNat + k ∧ a.toNat + k < base + 32 ∧
              bs[k]? = some (old.getD (a.toNat + k - base) 0))) := by
  obtain ⟨x, hx⟩ : ∃ x, x = (s.at t).emit (.bar2Data ((s.at t).bar2Bytes a.toNat len) false) := ⟨_, rfl⟩
  have hxo : onlyRegs (s.at t) x [] := by rw [hx]; exact .emit (.refl _ _)
  obtain ⟨hd, ho⟩ := State.done_onlyRegs hxo rfl
  refine ⟨x, (s.at t).bar2Bytes a.toNat len, ?_, ?_, ?_, ho, fun k hk => ?_⟩
  · rw [exec, execBar2Read, State.whenHost_eq hup, ← hx]
    exact hd
  · rw [hx]
    show _ :: (s.at t).out = _
    rw [State.at_out]
  · rw [State.bar2Bytes, List.length_map, List.length_range]
  · have hb : ((s.at t).bar2Bytes a.toNat len)[k]? = some ((s.at t).bar2Byte (a.toNat + k)) := by
      rw [State.bar2Bytes, List.getElem?_map, List.getElem?_range hk]
      rfl
    rw [hb, State.bar2Byte, State.at_dieAsleep]
    constructor
    · intro h
      rw [if_pos h]
    · intro h1 h2 h3
      rw [if_neg (by rw [h2, h3]; simp [h1]), State.stackByte, State.at_dma]
      split
      · next x base old htorn =>
        split
        · next hc =>
          obtain ⟨ht, h4, h5, -⟩ := hc
          exact .inr ⟨base, old, by rw [htorn, ht], h4, h5, rfl⟩
        · exact .inl (by rw [State.at_mem])
      · exact .inl (by rw [State.at_mem])

theorem State.bar2Writable_of_regs (h : t.regs = s.regs) (x : Nat) : t.bar2Writable x = s.bar2Writable x := by
  have hd (e : Nat) : t.dieAsleep e = s.dieAsleep e := by
    have hreg (n : RegName) (i : Nat) : t.reg n i = s.reg n i := by rw [State.reg, State.reg, h]
    rw [State.dieAsleep, State.dieAsleep, State.fld_of_reg (hreg _ _), State.gateOpen_of_reg (hreg _ _) (hreg _ _)]
  rw [State.bar2Writable, State.bar2Writable, hd]

/-- What a host write of bytes leaves. -/
theorem State.bar2Put_puts (bs : List Byte) (s : State) (a : Nat) :
    (s.bar2Put a bs).regs = s.regs ∧
      (∀ x, x < a ∨ a + bs.length ≤ x ∨ s.bar2Writable x = false → memGet (s.bar2Put a bs).mem x = memGet s.mem x) ∧
      ∀ (k : Nat) (b : Byte), bs[k]? = some b → s.bar2Writable (a + k) = true → memGet (s.bar2Put a bs).mem (a + k) = b := by
  induction bs generalizing s a with
  | nil => exact ⟨rfl, fun _ _ => rfl, fun k b h => by cases h⟩
  | cons c bs ih =>
    obtain ⟨x, hx⟩ : ∃ x, x = if s.bar2Writable a then { s with mem := memPut s.mem a c } else s := ⟨_, rfl⟩
    have hxr : x.regs = s.regs := by rw [hx]; split <;> rfl
    have hxm (y : Nat) : memGet x.mem y = if y = a ∧ s.bar2Writable a = true then c else memGet s.mem y := by
      rw [hx]
      split
      · next h =>
        show memGet (memPut s.mem a c) y = _
        rw [memGet_memPut]
        simp [h]
      · next h => simp [h]
    obtain ⟨hregs, hout, hin⟩ := ih x (a + 1)
    have hw (y : Nat) : x.bar2Writable y = s.bar2Writable y := State.bar2Writable_of_regs hxr y
    rw [State.bar2Put, ← hx]
    refine ⟨hregs.trans hxr, fun y hy => ?_, fun k b hk hwk => ?_⟩
    · rw [List.length_cons] at hy
      have hkeep : memGet x.mem y = memGet s.mem y := by
        rw [hxm, if_neg]
        rintro ⟨rfl, hwy⟩
        rcases hy with hy | hy | hy
        · omega
        · omega
        · rw [hwy] at hy
          cases hy
      rw [← hkeep]
      refine hout y ?_
      rcases hy with hy | hy | hy
      · exact .inl (by omega)
      · exact .inr (.inl (by omega))
      · exact .inr (.inr (by rw [hw]; exact hy))
    · cases k with
      | zero =>
        have hcb : c = b := by simpa using hk
        rw [Nat.add_zero] at hwk
        change memGet (x.bar2Put (a + 1) bs).mem a = b
        rw [hout a (.inl (by omega)), hxm, if_pos ⟨rfl, hwk⟩, hcb]
      | succ k =>
        have h := hin k b (by simpa using hk) (by rw [hw, Nat.add_assoc, Nat.add_comm 1 k]; exact hwk)
        rw [Nat.add_assoc, Nat.add_comm 1 k] at h
        exact h

theorem bar2Write_writes (t : Tu) (a : BitVec 36) (data : List Byte) (hup : s.hostUp = true) :
    ∃ u, exec (.bar2Write t a data) s = .next u ∧ sameRegs s u [] ∧
      (∀ x, x < a.toNat ∨ a.toNat + data.length ≤ x ∨ s.bar2Writable x = false → memGet u.mem x = memGet s.mem x) ∧
      ∀ (k : Nat) (b : Byte), data[k]? = some b → s.bar2Writable (a.toNat + k) = true →
        memGet u.mem (a.toNat + k) = b := by
  obtain ⟨hregs, hout, hin⟩ := State.bar2Put_puts data (s.at t) a.toNat
  obtain ⟨x, hx⟩ : ∃ x, x = (s.at t).bar2Put a.toNat data := ⟨_, rfl⟩
  rw [← hx] at hregs hout hin
  have hw (y : Nat) : (s.at t).bar2Writable y = s.bar2Writable y := State.bar2Writable_of_regs (State.at_regs _ _) y
  have hsame : sameRegs s x [] := fun n i _ => by rw [State.reg, State.reg, hregs, State.at_regs]
  refine ⟨x, ?_, hsame, fun y hy => ?_, fun k b hk hwk => hin k b hk (by rw [hw]; exact hwk)⟩
  · rw [exec, execBar2Write, State.whenHost_eq hup, ← hx]
    exact State.done_of_sameRegs hsame rfl
  · rw [hout y (by rw [hw]; exact hy), State.at_mem]

/-- Settles O32: a stager touches its own queue only, so that the entry is found in each queue that carries it; the bytes of
BAR2 are read and written one by one. -/
theorem stacksAreRead : Obligations.StacksAreRead :=
  ⟨⟨fun _ t m c rest ha hcl hf => directoryWriteback_writes t m c rest ha hcl hf,
    fun _ t m n hup hd => segRelease_releases t m n hup hd⟩,
    fun _ t a hup => ⟨fun len => bar2Read_reads t a len hup, fun data => bar2Write_writes t a data hup⟩⟩

end Sys2Proof.Machine
end

section
/-! SUPPORT. What a result of one time-interval counter leaves (R283, R287, R289). -/

namespace Sys2Proof.Machine

variable {s t u w : State} {but : List Reg} {srcs : List Nat} {i : Nat}

/-- `t` is `s` after work on counter `i`: its record, its listed registers, its event, and what it streams. -/
structure TicWork (i : Nat) (but : List Reg) (s t : State) : Prop where
  only : onlyRaising s t but [424 + i]
  others : ∀ k, k ≠ i → t.ticOf k = s.ticOf k
  rest : ∃ regs tic inbound sram nextSeq logged deferred trigOut raises pba basecamp out free,
    t = { s with
      regs := regs, tic := tic, trigOut := trigOut, out := out, free := free
      dma := { s.dma with inbound := inbound }
      mgt := { s.mgt with sram := sram, nextSeq := nextSeq, logged := logged, deferred := deferred }
      evt := { s.evt with raises := raises, pba := pba, basecamp := basecamp } }

theorem TicWork.refl (i : Nat) (but : List Reg) (s : State) : TicWork i but s s :=
  ⟨.refl _ _ _, fun _ _ => rfl, _, _, _, _, _, _, _, _, _, _, _, _, _, rfl⟩

theorem TicWork.trans (h : TicWork i but s t) (g : TicWork i but t u) : TicWork i but s u := by
  refine ⟨h.only.trans g.only, fun k hk => (g.others k hk).trans (h.others k hk), ?_⟩
  obtain ⟨_, _, _, _, _, _, _, _, _, _, _, _, _, rfl⟩ := h.rest
  obtain ⟨_, _, _, _, _, _, _, _, _, _, _, _, _, rfl⟩ := g.rest
  exact ⟨_, _, _, _, _, _, _, _, _, _, _, _, _, rfl⟩

theorem TicWork.mono {but' : List Reg} (h : TicWork i but s t) (hb : but ⊆ but') : TicWork i but' s t :=
  ⟨h.only.mono hb (fun _ h => h), h.others, h.rest⟩

theorem TicWork.mem (h : TicWork i but s t) : t.mem = s.mem := by
  obtain ⟨_, _, _, _, _, _, _, _, _, _, _, _, _, rfl⟩ := h.rest; rfl
theorem TicWork.time (h : TicWork i but s t) : t.time = s.time := by
  obtain ⟨_, _, _, _, _, _, _, _, _, _, _, _, _, rfl⟩ := h.rest; rfl
theorem TicWork.pitch (h : TicWork i but s t) : t.pitch = s.pitch := by
  obtain ⟨_, _, _, _, _, _, _, _, _, _, _, _, _, rfl⟩ := h.rest; rfl
theorem TicWork.regions (h : TicWork i but s t) : t.regions = s.regions := by
  obtain ⟨_, _, _, _, _, _, _, _, _, _, _, _, _, rfl⟩ := h.rest; rfl
theorem TicWork.clk (h : TicWork i but s t) : t.clk = s.clk := by
  obtain ⟨_, _, _, _, _, _, _, _, _, _, _, _, _, rfl⟩ := h.rest; rfl
theorem TicWork.gens (h : TicWork i but s t) : t.gens = s.gens := by
  obtain ⟨_, _, _, _, _, _, _, _, _, _, _, _, _, rfl⟩ := h.rest; rfl

theorem State.ticOf_modTic (s : State) (i : Nat) (f : Tic → Tic) : (s.modTic i f).ticOf i = f (s.ticOf i) :=
  tget_tmod_same _ _ _ _

theorem State.ticOf_modTic_ne (s : State) {i k : Nat} (f : Tic → Tic) (h : k ≠ i) :
    (s.modTic i f).ticOf k = s.ticOf k := tget_tmod_other _ _ _ h

theorem State.ticOf_of_eq (h : t.tic = s.tic) (k : Nat) : t.ticOf k = s.ticOf k := by
  rw [State.ticOf, h]; rfl

theorem State.modTic_work (s : State) (i : Nat) (f : Tic → Tic) : TicWork i but s (s.modTic i f) :=
  ⟨.of_eq rfl rfl (.refl _ _ _), fun _ hk => State.ticOf_modTic_ne _ _ hk, _, _, _, _, _, _, _, _, _, _, _, _, _, rfl⟩

theorem State.setFld_ticWork (s : State) (f : Fld) (x : Nat) (hb : (⟨f.reg, i⟩ : Reg) ∈ but)
    (he : eventReg f.reg = false) : TicWork i but s (s.setFld f i x) :=
  ⟨.setFld hb he (.refl _ _ _), fun _ _ => rfl, _, _, _, _, _, _, _, _, _, _, _, _, _, rfl⟩

theorem State.setReg_ticWork (s : State) (n : RegName) (v : Word) (hb : (⟨n, i⟩ : Reg) ∈ but)
    (he : eventReg n = false) : TicWork i but s (s.setReg n i v) :=
  ⟨.setReg hb he (.refl _ _ _), fun _ _ => rfl, _, _, _, _, _, _, _, _, _, _, _, _, _, rfl⟩

theorem Raises.ticWork (h : Raises s t [424 + i]) : TicWork i but s t := by
  refine ⟨h.only fun _ hk => .inl hk, fun k _ => State.ticOf_of_eq h.tic k, ?_⟩
  obtain ⟨_, _, _, _, _, _, _, _, _, _, _, rfl⟩ := h.rest
  exact ⟨_, _, _, _, _, _, _, _, _, _, _, _, _, rfl⟩

/-- A datum leaves for the stagers: nothing but what is on its way changes. -/
theorem State.produce_inbound (s : State) (kind unit : Nat) (bytes : List Byte) (x : Tu) :
    ∃ inbound, s.produce kind unit bytes x = { s with dma := { s.dma with inbound := inbound } } := by
  have h : ∀ (l : List Nat) (a : State), ∃ inbound, l.foldl (fun s q => if s.carries q kind unit then
      { s with dma := { s.dma with inbound := s.dma.inbound ++ [⟨q, bytes, tuAdd x (ns 200)⟩] } } else s) a =
      { a with dma := { a.dma with inbound := inbound } } := by
    intro l
    induction l with
    | nil => exact fun a => ⟨_, rfl⟩
    | cons q l ih =>
      intro a
      rw [List.foldl_cons]
      obtain ⟨y, hy⟩ := ih (if a.carries q kind unit then
        { a with dma := { a.dma with inbound := a.dma.inbound ++ [⟨q, bytes, tuAdd x (ns 200)⟩] } } else a)
      refine ⟨y, hy.trans ?_⟩
      split <;> rfl
  exact h _ s

/-! ### A result -/

/-- The registers and the record of a counter after a result, before what it raises. -/
def State.ticShown (s : State) (i : Nat) (tts : Tu) (value : Int) (stop count : Nat) (small coast stale : Bool)
    (closing : Tu) : State :=
  let status := stop + 2 * small.toNat + 16 * coast.toNat + 32 * stale.toNat
  let v := if stop = 0 then value else 0
  let s2 := ((((s.setPair .TIC_LAST_TTS_LO .TIC_LAST_TTS_HI i tts).setFld Fld.TIC_LAST_VALUE_LO_VALUE i
    (unsgn 40 v % 2 ^ 32)).setFld Fld.TIC_LAST_VALUE_HI_VALUE i (unsgn 40 v / 2 ^ 32)).setFld Fld.TIC_LAST_VALUE_HI_STATUS i
    status).setFld Fld.TIC_LAST_COUNT_COUNT i count
  ((s2.setFld Fld.TIC_LAST_SEQ_SEQ i (s.ticOf i).seq).produce 4 i
    (ticRecord tts v status i (s.ticMode i) (s.flag Fld.TIC_CFG_SIGNED i) count (s.ticOf i).seq) closing).modTic i fun t =>
    { t with ready := tuAdd closing (s.ticHoldoff i), open_ := none, edges := 0, lastEdge := none, pairs := 0, sum := 0,
             subRes := false, stale := false, coast := false, starts := [], doom := none, seq := (t.seq + 1) % 2 ^ 32 }

/-- What a result raises first. -/
def State.ticTold (s : State) (i stop : Nat) : State :=
  if stop = tsTimeout then s.bumpRaise Fld.TIC_TIMEOUT_CNT_COUNT i (424 + i) 2 0
  else if stop = 0 then s else s.raise (424 + i) 4 0

/-- A single-shot counter stops after its result. -/
def State.ticDone (s : State) (i : Nat) (on : Bool) : State :=
  if on then s
  else (((s.setFld Fld.TIC_CFG_RUN i 0).setFld Fld.TIC_STATUS_MEASURING i 0).setFld Fld.TIC_STATUS_DONE i 1).raise
    (424 + i) 1 0

theorem State.ticResult_eq (s : State) (i : Nat) (tts : Tu) (value : Int) (stop count : Nat) (small coast stale : Bool)
    (closing : Tu) : s.ticResult i tts value stop count small coast stale closing =
      ((s.ticShown i tts value stop count small coast stale closing).ticTold i stop).ticDone i
        (s.flag Fld.TIC_CFG_REPEAT i || !s.flag Fld.TIC_CFG_RUN i) := rfl

/-- What a counter shows of its result. -/
structure TicShows (i : Nat) (tts : Tu) (v : Int) (status count : Nat) (s t : State) : Prop where
  work : TicWork i (ticRegs i) s t
  tts : t.pair .TIC_LAST_TTS_LO .TIC_LAST_TTS_HI i = tts
  value : t.fld Fld.TIC_LAST_VALUE_LO_VALUE i + 2 ^ 32 * t.fld Fld.TIC_LAST_VALUE_HI_VALUE i = unsgn 40 v
  status : t.fld Fld.TIC_LAST_VALUE_HI_STATUS i = status
  count : t.fld Fld.TIC_LAST_COUNT_COUNT i = count % 2 ^ 32
  timeouts : t.fld Fld.TIC_TIMEOUT_CNT_COUNT i = s.fld Fld.TIC_TIMEOUT_CNT_COUNT i
  tic : t.ticOf i = { s.ticOf i with
    ready := (t.ticOf i).ready, open_ := none, edges := 0, lastEdge := none, pairs := 0, sum := 0, subRes := false,
    stale := false, coast := false, starts := [], doom := none, seq := ((s.ticOf i).seq + 1) % 2 ^ 32 }

theorem unsgn_split (v : Int) : unsgn 40 v % 2 ^ 32 + 2 ^ 32 * (unsgn 40 v / 2 ^ 32) = unsgn 40 v := Nat.mod_add_div _ _

theorem State.ticShown_shows (s : State) (i : Nat) (tts : Tu) (value : Int) (stop count : Nat) (small coast stale : Bool)
    (closing : Tu) (hstop : stop ≤ 8) :
    TicShows i tts (if stop = 0 then value else 0) (stop + 2 * small.toNat + 16 * coast.toNat + 32 * stale.toNat) count s
      (s.ticShown i tts value stop count small coast stale closing) := by
  obtain ⟨v, hv⟩ : ∃ v, v = if stop = 0 then value else 0 := ⟨_, rfl⟩
  obtain ⟨st, hst⟩ : ∃ st, st = stop + 2 * small.toNat + 16 * coast.toNat + 32 * stale.toNat := ⟨_, rfl⟩
  have hst256 : st < 2 ^ 8 := by
    have := Bool.toNat_le small
    have := Bool.toNat_le coast
    have := Bool.toNat_le stale
    omega
  have h40 : unsgn 40 v < 2 ^ 40 := unsgn_lt _ _
  obtain ⟨a, ha⟩ : ∃ a, a = ((((s.setPair .TIC_LAST_TTS_LO .TIC_LAST_TTS_HI i tts).setFld Fld.TIC_LAST_VALUE_LO_VALUE i
    (unsgn 40 v % 2 ^ 32)).setFld Fld.TIC_LAST_VALUE_HI_VALUE i (unsgn 40 v / 2 ^ 32)).setFld Fld.TIC_LAST_VALUE_HI_STATUS i
    st).setFld Fld.TIC_LAST_COUNT_COUNT i count := ⟨_, rfl⟩
  obtain ⟨b, hb⟩ : ∃ b, b = a.setFld Fld.TIC_LAST_SEQ_SEQ i (s.ticOf i).seq := ⟨_, rfl⟩
  obtain ⟨inbound, hc⟩ := b.produce_inbound 4 i
    (ticRecord tts v st i (s.ticMode i) (s.flag Fld.TIC_CFG_SIGNED i) count (s.ticOf i).seq) closing
  obtain ⟨f, hf⟩ : ∃ f : Tic → Tic, f = fun t =>
    { t with ready := tuAdd closing (s.ticHoldoff i), open_ := none, edges := 0, lastEdge := none, pairs := 0, sum := 0,
             subRes := false, stale := false, coast := false, starts := [], doom := none, seq := (t.seq + 1) % 2 ^ 32 } :=
    ⟨_, rfl⟩
  have heq : s.ticShown i tts value stop count small coast stale closing =
      ({ b with dma := { b.dma with inbound := inbound } } : State).modTic i f := by
    rw [← hc, hb, ha, hf, hv, hst]
    rfl
  have hmem (r : RegName) (h : r ∈ [RegName.TIC_LAST_TTS_LO, .TIC_LAST_TTS_HI, .TIC_LAST_VALUE_LO, .TIC_LAST_VALUE_HI,
      .TIC_LAST_COUNT, .TIC_LAST_SEQ]) : (⟨r, i⟩ : Reg) ∈ ticRegs i := by
    simp only [List.mem_cons, List.not_mem_nil, or_false] at h
    rcases h with rfl | rfl | rfl | rfl | rfl | rfl <;> simp [ticRegs]
  have hbw : TicWork i (ticRegs i) s b := by
    rw [hb, ha]
    exact ((((((s.setReg_ticWork _ _ (hmem _ (by decide)) rfl).trans (State.setReg_ticWork _ _ _ (hmem _ (by decide)) rfl)).trans
      (State.setFld_ticWork _ _ _ (hmem _ (by decide)) rfl)).trans (State.setFld_ticWork _ _ _ (hmem _ (by decide)) rfl)).trans
      (State.setFld_ticWork _ _ _ (hmem _ (by decide)) rfl)).trans (State.setFld_ticWork _ _ _ (hmem _ (by decide)) rfl)).trans
      (State.setFld_ticWork _ _ _ (hmem _ (by decide)) rfl)
  have hdw : TicWork i (ticRegs i) b ({ b with dma := { b.dma with inbound := inbound } } : State) :=
    ⟨.of_eq rfl rfl (.refl _ _ _), fun _ _ => rfl, _, _, _, _, _, _, _, _, _, _, _, _, _, rfl⟩
  have hfld (g : Fld) : (s.ticShown i tts value stop count small coast stale closing).fld g i = b.fld g i := by
    rw [heq]
    rfl
  have hbt : b.ticOf i = s.ticOf i := by rw [hb, ha]; rfl
  rw [← hv, ← hst]
  refine ⟨?_, ?_, ?_, ?_, ?_, ?_, ?_⟩
  · rw [heq]
    exact (hbw.trans hdw).trans (State.modTic_work _ _ _)
  · have hpair : (s.ticShown i tts value stop count small coast stale closing).pair .TIC_LAST_TTS_LO .TIC_LAST_TTS_HI i =
        b.pair .TIC_LAST_TTS_LO .TIC_LAST_TTS_HI i := by rw [heq]; rfl
    have hkeep (r : RegName) (h1 : r ≠ .TIC_LAST_VALUE_LO) (h2 : r ≠ .TIC_LAST_VALUE_HI) (h3 : r ≠ .TIC_LAST_COUNT)
        (h4 : r ≠ .TIC_LAST_SEQ) : b.reg r i = (s.setPair .TIC_LAST_TTS_LO .TIC_LAST_TTS_HI i tts).reg r i := by
      rw [hb, ha, State.reg_setFld_ne _ _ _ _ _ _ h4, State.reg_setFld_ne _ _ _ _ _ _ h3,
        State.reg_setFld_ne _ _ _ _ _ _ h2, State.reg_setFld_ne _ _ _ _ _ _ h2, State.reg_setFld_ne _ _ _ _ _ _ h1]
    rw [hpair, State.pair, hkeep _ (by decide) (by decide) (by decide) (by decide),
      hkeep _ (by decide) (by decide) (by decide) (by decide)]
    exact State.pair_setPair s i tts (by decide)
  · rw [hfld, hfld, hb, State.fld_setFld_ne _ _ _ _ _ _ (by decide), State.fld_setFld_ne _ _ _ _ _ _ (by decide), ha,
      State.fld_setFld_ne _ _ _ _ _ _ (by decide), State.fld_setFld_ne _ _ _ _ _ _ (by decide),
      State.fld_setFld_ne _ _ _ _ _ _ (by decide), State.fld_setFld_of_lt _ _ _ (by decide) (Nat.mod_lt _ (by decide)),
      State.fld_setFld_ne _ _ _ _ _ _ (by decide), State.fld_setFld_apart _ _ _ _ _ _ (by decide),
      State.fld_setFld_of_lt _ _ _ (by decide) (show unsgn 40 v / 2 ^ 32 < 2 ^ 8 by omega)]
    exact unsgn_split v
  · rw [hfld, hb, State.fld_setFld_ne _ _ _ _ _ _ (by decide), ha, State.fld_setFld_ne _ _ _ _ _ _ (by decide),
      State.fld_setFld_of_lt _ _ _ (by decide) hst256]
  · rw [hfld, hb, State.fld_setFld_ne _ _ _ _ _ _ (by decide), ha, State.fld_setFld_eq _ _ _ _ (by decide)]
  · rw [hfld, hb, ha]
    rw [State.fld_setFld_ne _ _ _ _ _ _ (by decide), State.fld_setFld_ne _ _ _ _ _ _ (by decide),
      State.fld_setFld_ne _ _ _ _ _ _ (by decide), State.fld_setFld_ne _ _ _ _ _ _ (by decide),
      State.fld_setFld_ne _ _ _ _ _ _ (by decide), State.setPair, State.fld_setReg_ne _ _ _ _ _ _ (by decide),
      State.fld_setReg_ne _ _ _ _ _ _ (by decide)]
  · rw [heq, State.ticOf_modTic]
    show f (b.ticOf i) = _
    rw [hbt, hf]

end Sys2Proof.Machine
end

section
/-! Results of time-interval counters: timeouts, windows, gates (R279, R282, R283). -/

namespace Sys2Proof.Machine

variable {s t u w : State} {but : List Reg} {srcs : List Nat} {i : Nat}

/-- A source stays raisable over changes of other registers. -/
theorem State.raisable.of_raising {k : Nat} (hr : s.raisable k) (h : onlyRaising s t but srcs) (hb : plainRegs but = true) :
    t.raisable k := by
  have hkept (n : RegName) (hn : n ∈ awakeRegs) (he : eventReg n = false) (i : Nat) : t.reg n i = s.reg n i :=
    h.1 n i (fun hm => by
      have := List.all_eq_true.1 hb _ hm
      simp only [Bool.and_eq_true, Bool.not_eq_true'] at this
      rw [List.contains_iff_mem.2 hn] at this
      exact Bool.noConfusion this.2) he
  obtain ⟨h1, h2, h3, h4⟩ := hr
  have hg : ∀ n, t.gateOpen n = s.gateOpen n := fun n =>
    State.gateOpen_of_reg (hkept _ (by simp [awakeRegs]) rfl 0) (hkept _ (by simp [awakeRegs]) rfl 0)
  have hd : ∀ e, t.dieAsleep e = s.dieAsleep e := fun e => by
    rw [State.dieAsleep, State.dieAsleep, hg, State.fld_of_reg (hkept _ (by simp [awakeRegs]) rfl 0)]
  have hc : ∀ c, t.clusterAsleep c = s.clusterAsleep c := fun c => by
    rw [State.clusterAsleep, State.clusterAsleep, hg, hd, State.fld_of_reg (hkept _ (by simp [awakeRegs]) rfl 0)]
  refine ⟨h1, ?_, ?_, ?_⟩
  · rw [← h2, State.evtAsleep, State.evtAsleep]
    simp only [hc, hd]
  · rw [← h3, State.evtAbsent, State.evtAbsent, State.fld_of_reg (hkept _ (by simp [awakeRegs]) rfl _)]
  · rwa [State.fld_of_reg (hkept _ (by simp [awakeRegs]) rfl _)]

theorem State.raise_raisable {k causes info : Nat} (h : s.raisable k) : (s.raise k causes info).evtStatus k = true := by
  obtain ⟨h1, h2, h3, h4⟩ := h
  exact State.raise_status k causes info h1 h2 h3 h4

/-! ### What a result raises -/

/-- The registers of a counter that show its last result stay, and its record. -/
structure ResultKept (i : Nat) (s t : State) : Prop where
  work : TicWork i (ticRegs i) s t
  reg : ∀ n, n ∈ [RegName.TIC_LAST_TTS_LO, .TIC_LAST_TTS_HI, .TIC_LAST_VALUE_LO, .TIC_LAST_VALUE_HI, .TIC_LAST_COUNT] →
    t.reg n i = s.reg n i
  tic : t.ticOf i = s.ticOf i

theorem ResultKept.refl (i : Nat) (s : State) : ResultKept i s s := ⟨.refl _ _ _, fun _ _ => rfl, rfl⟩

theorem ResultKept.trans (h : ResultKept i s t) (g : ResultKept i t u) : ResultKept i s u :=
  ⟨h.work.trans g.work, fun n hn => (g.reg n hn).trans (h.reg n hn), g.tic.trans h.tic⟩

theorem resultReg_plain {n : RegName}
    (h : n ∈ [RegName.TIC_LAST_TTS_LO, .TIC_LAST_TTS_HI, .TIC_LAST_VALUE_LO, .TIC_LAST_VALUE_HI, .TIC_LAST_COUNT]) :
    eventReg n = false ∧ n ≠ .TIC_TIMEOUT_CNT ∧ n ≠ .TIC_CFG ∧ n ≠ .TIC_STATUS := by
  simp only [List.mem_cons, List.not_mem_nil, or_false] at h
  rcases h with rfl | rfl | rfl | rfl | rfl <;> exact ⟨rfl, by decide, by decide, by decide⟩

theorem Raises.resultKept (h : Raises s t [424 + i]) : ResultKept i s t :=
  ⟨h.ticWork, fun n hn => h.reg n i (resultReg_plain hn).1, State.ticOf_of_eq h.tic i⟩

theorem State.setFld_resultKept (s : State) (f : Fld) (i x : Nat)
    (hf : f.reg = .TIC_TIMEOUT_CNT ∨ f.reg = .TIC_CFG ∨ f.reg = .TIC_STATUS) : ResultKept i s (s.setFld f i x) := by
  refine ⟨s.setFld_ticWork f x ?_ ?_, fun n hn => State.reg_setFld_ne _ _ _ _ _ _ ?_, rfl⟩
  · rcases hf with h | h | h <;> rw [h] <;> simp [ticRegs]
  · rcases hf with h | h | h <;> rw [h] <;> rfl
  · obtain ⟨-, h1, h2, h3⟩ := resultReg_plain hn
    rcases hf with h | h | h <;> rw [h] <;> assumption

theorem State.ticTold_keeps (s : State) (i stop : Nat) :
    ResultKept i s (s.ticTold i stop) ∧
      (stop = tsTimeout → s.fld Fld.TIC_TIMEOUT_CNT_COUNT i < 2 ^ 32 - 1 →
        (s.ticTold i stop).fld Fld.TIC_TIMEOUT_CNT_COUNT i = s.fld Fld.TIC_TIMEOUT_CNT_COUNT i + 1) ∧
      (stop = tsTimeout → s.fld Fld.TIC_TIMEOUT_CNT_COUNT i = 0 → s.raisable (424 + i) →
        (s.ticTold i stop).evtStatus (424 + i) = true) := by
  unfold State.ticTold
  split
  · obtain ⟨y, hy⟩ : ∃ y, y = s.bump Fld.TIC_TIMEOUT_CNT_COUNT i 1 := ⟨_, rfl⟩
    have hk : ResultKept i s y := by rw [hy]; exact s.setFld_resultKept _ _ _ (.inl rfl)
    have hr : Raises y (y.raise (424 + i) 2 0) [424 + i] := State.raise_raises _ _ _
    have hc (h : s.fld Fld.TIC_TIMEOUT_CNT_COUNT i < 2 ^ 32 - 1) :
        y.fld Fld.TIC_TIMEOUT_CNT_COUNT i = s.fld Fld.TIC_TIMEOUT_CNT_COUNT i + 1 := by
      rw [hy]
      exact State.fld_bump_lt _ _ _ (by decide) h
    rw [State.bumpRaise]
    rw [← hy]
    split
    · exact ⟨hk.trans hr.resultKept, fun _ h => (hr.fld _ _ rfl).trans (hc h),
        fun _ _ h => State.raise_raisable (h.of_raising hk.work.only (by rfl))⟩
    · next h0 => exact ⟨hk, fun _ h => hc h, fun _ h => absurd h h0⟩
  · next hne =>
    split
    · exact ⟨.refl _ _, fun h => absurd h hne, fun h => absurd h hne⟩
    · exact ⟨(State.raise_raises _ _ _).resultKept, fun h => absurd h hne, fun h => absurd h hne⟩

theorem State.ticDone_keeps (s : State) (i : Nat) (on : Bool) :
    ResultKept i s (s.ticDone i on) ∧
      (s.ticDone i on).fld Fld.TIC_TIMEOUT_CNT_COUNT i = s.fld Fld.TIC_TIMEOUT_CNT_COUNT i ∧
      (s.raisable (424 + i) → s.evtStatus (424 + i) = true → (s.ticDone i on).evtStatus (424 + i) = true) := by
  unfold State.ticDone
  split
  · exact ⟨.refl _ _, rfl, fun _ h => h⟩
  · obtain ⟨y, hy⟩ : ∃ y, y = ((s.setFld Fld.TIC_CFG_RUN i 0).setFld Fld.TIC_STATUS_MEASURING i 0).setFld
      Fld.TIC_STATUS_DONE i 1 := ⟨_, rfl⟩
    have hk : ResultKept i s y := by
      rw [hy]
      exact ((s.setFld_resultKept _ _ _ (.inr (.inl rfl))).trans (State.setFld_resultKept _ _ _ _ (.inr (.inr rfl)))).trans
        (State.setFld_resultKept _ _ _ _ (.inr (.inr rfl)))
    have hr : Raises y (y.raise (424 + i) 1 0) [424 + i] := State.raise_raises _ _ _
    rw [← hy]
    refine ⟨hk.trans hr.resultKept, (hr.fld _ _ rfl).trans ?_, fun h _ =>
      State.raise_raisable (h.of_raising hk.work.only (by rfl))⟩
    rw [hy, State.fld_setFld_ne _ _ _ _ _ _ (by decide), State.fld_setFld_ne _ _ _ _ _ _ (by decide),
      State.fld_setFld_ne _ _ _ _ _ _ (by decide)]

/-- What a counter shows and raises with a result. -/
structure TicResult (i : Nat) (tts : Tu) (v : Int) (status count : Nat) (s t : State) : Prop where
  work : TicWork i (ticRegs i) s t
  tts : t.pair .TIC_LAST_TTS_LO .TIC_LAST_TTS_HI i = tts
  value : t.fld Fld.TIC_LAST_VALUE_LO_VALUE i + 2 ^ 32 * t.fld Fld.TIC_LAST_VALUE_HI_VALUE i = unsgn 40 v
  status : t.fld Fld.TIC_LAST_VALUE_HI_STATUS i = status
  count : t.fld Fld.TIC_LAST_COUNT_COUNT i = count % 2 ^ 32
  tic : t.ticOf i = { s.ticOf i with
    ready := (t.ticOf i).ready, open_ := none, edges := 0, lastEdge := none, pairs := 0, sum := 0, subRes := false,
    stale := false, coast := false, starts := [], doom := none, seq := ((s.ticOf i).seq + 1) % 2 ^ 32 }

theorem TicShows.kept {tts : Tu} {v : Int} {status count : Nat} (h : TicShows i tts v status count s t)
    (k : ResultKept i t u) : TicResult i tts v status count s u := by
  have hf (f : Fld) (hf : f.reg ∈ [RegName.TIC_LAST_TTS_LO, .TIC_LAST_TTS_HI, .TIC_LAST_VALUE_LO, .TIC_LAST_VALUE_HI,
      .TIC_LAST_COUNT]) : u.fld f i = t.fld f i := State.fld_of_reg (k.reg _ hf)
  refine ⟨h.work.trans k.work, ?_, ?_, ?_, ?_, ?_⟩
  · rw [← h.tts, State.pair, State.pair, k.reg _ (by decide), k.reg _ (by decide)]
  · rw [hf _ (by decide), hf _ (by decide), h.value]
  · rw [hf _ (by decide), h.status]
  · rw [hf _ (by decide), h.count]
  · rw [k.tic]
    exact h.tic

theorem State.ticResult_results (s : State) (i : Nat) (tts : Tu) (value : Int) (stop count : Nat)
    (small coast stale : Bool) (closing : Tu) (hstop : stop ≤ 8) :
    TicResult i tts (if stop = 0 then value else 0) (stop + 2 * small.toNat + 16 * coast.toNat + 32 * stale.toNat) count s
        (s.ticResult i tts value stop count small coast stale closing) ∧
      (stop = tsTimeout → s.fld Fld.TIC_TIMEOUT_CNT_COUNT i < 2 ^ 32 - 1 →
        (s.ticResult i tts value stop count small coast stale closing).fld Fld.TIC_TIMEOUT_CNT_COUNT i =
          s.fld Fld.TIC_TIMEOUT_CNT_COUNT i + 1) ∧
      (stop = tsTimeout → s.fld Fld.TIC_TIMEOUT_CNT_COUNT i = 0 → s.raisable (424 + i) →
        (s.ticResult i tts value stop count small coast stale closing).evtStatus (424 + i) = true) := by
  have hsh := s.ticShown_shows i tts value stop count small coast stale closing hstop
  rw [State.ticResult_eq]
  obtain ⟨a, ha⟩ : ∃ a, a = s.ticShown i tts value stop count small coast stale closing := ⟨_, rfl⟩
  rw [← ha] at hsh ⊢
  obtain ⟨htold, hcnt, hev⟩ := a.ticTold_keeps i stop
  obtain ⟨hdone, hsame, hstay⟩ := (a.ticTold i stop).ticDone_keeps i (s.flag Fld.TIC_CFG_REPEAT i || !s.flag Fld.TIC_CFG_RUN i)
  refine ⟨hsh.kept (htold.trans hdone), fun h1 hlt => ?_, fun h1 h0 hr => ?_⟩
  · rw [hsame, hcnt h1 (by rw [hsh.timeouts]; exact hlt), hsh.timeouts]
  · have hra : a.raisable (424 + i) := hr.of_raising hsh.work.only (by rfl)
    exact hstay (hra.of_raising htold.work.only (by rfl)) (hev h1 (by rw [hsh.timeouts]; exact h0) hra)

theorem TicResult.shows {tts : Tu} {v : Int} {status count : Nat} (h : TicResult i tts v status count s t)
    {timeout : Bool} (hb : status.testBit 0 = timeout) : ticShows t i tts v timeout := by
  refine ⟨h.tts, h.value, by rw [h.status, hb], ?_⟩
  rw [h.tic]

end Sys2Proof.Machine
end

section
/-! SUPPORT. The edges of one time-interval counter leave the others as they are (R276 to R283). -/

namespace Sys2Proof.Machine

variable {s t u w : State} {but : List Reg} {srcs : List Nat} {i : Nat}

/-- The registers of a counter that its edges and closings change. -/
def edgeRegs (i : Nat) : List Reg := ⟨.TIC_IGNORED_CNT, i⟩ :: ticRegs i

theorem State.ticResult_work (s : State) (i : Nat) (tts : Tu) (value : Int) (stop count : Nat) (small coast stale : Bool)
    (closing : Tu) (hstop : stop ≤ 8) : TicWork i (edgeRegs i) s (s.ticResult i tts value stop count small coast stale closing) :=
  (s.ticResult_results i tts value stop count small coast stale closing hstop).1.work.mono (List.subset_cons_self _ _)

theorem State.ticEnd_work (s : State) (i stop : Nat) (closing : Tu) (hstop : stop ≤ 8) :
    TicWork i (edgeRegs i) s (s.ticEnd i stop closing) := by
  unfold State.ticEnd
  dsimp only
  split
  · exact s.ticResult_work _ _ _ _ _ _ _ _ _ hstop
  · split
    · exact s.ticResult_work _ _ _ _ _ _ _ _ _ hstop
    · exact .refl _ _ _

theorem State.ticPair_work (s : State) (i : Nat) (ts stop : Stamp) (closing : Tu) :
    TicWork i (edgeRegs i) s (s.ticPair i ts stop closing) := by
  unfold State.ticPair
  dsimp only
  split
  · exact State.modTic_work _ _ _
  · split
    · exact (State.modTic_work _ _ _).trans (State.ticResult_work _ _ _ _ _ _ _ _ _ _ (by decide))
    · split
      · exact (State.modTic_work _ _ _).trans (State.ticResult_work _ _ _ _ _ _ _ _ _ _ (by decide))
      · exact State.modTic_work _ _ _

theorem State.ticDecide_work (s : State) (i : Nat) (ts : Stamp) (after : Option Stamp) (closing : Tu) :
    TicWork i (edgeRegs i) s (s.ticDecide i ts after closing) := by
  unfold State.ticDecide
  dsimp only
  split
  · exact s.ticPair_work _ _ _ _
  · exact State.modTic_work _ _ _

theorem State.ticWindowOver_work (s : State) (i : Nat) : TicWork i (edgeRegs i) s (s.ticWindowOver i) := by
  unfold State.ticWindowOver
  dsimp only
  split
  · exact s.ticEnd_work _ _ _ (by decide)
  · split
    · exact s.ticPair_work _ _ _ _
    · exact s.ticEnd_work _ _ _ (by decide)
  · exact .refl _ _ _

theorem State.ticGateEnd_work (s : State) (i : Nat) : TicWork i (edgeRegs i) s (s.ticGateEnd i) := by
  unfold State.ticGateEnd
  dsimp only
  refine TicWork.trans ?_ (State.modTic_work _ _ _)
  split
  · split
    · exact s.ticResult_work _ _ _ _ _ _ _ _ _ (by decide)
    · exact s.ticResult_work _ _ _ _ _ _ _ _ _ (by decide)
  · exact s.ticResult_work _ _ _ _ _ _ _ _ _ (by decide)

/-- The gates of a counter that end by `g`, and the windows that end before `x`. -/
def State.ticGates (s : State) (i : Nat) (g : Tu) : State :=
  if s.ticMode i = 4 then
    s.each ((tuDiff (s.ticOf i).gate g).toNat / max 1 (s.ticGate i)) fun s _ => if s.ticGateDue i g then s.ticGateEnd i else s
  else s

def State.ticWindowDue (s : State) (i : Nat) (x : Tu) : State :=
  match s.ticWindowEnd i with
  | some w => if s.ticLive i && tuLt w x then s.ticWindowOver i else s
  | none => s

def State.ticWindows (s : State) (i : Nat) (x : Tu) : State :=
  s.each ((s.ticOf i).starts.length + 1) fun s _ => s.ticWindowDue i x

theorem State.ticSettle_eq (s : State) (i : Nat) (x g : Tu) :
    s.ticSettle i x g =
      (match ((s.ticGates i g).ticWindows i x).ticDeadline i with
       | some d => if ((s.ticGates i g).ticWindows i x).ticLive i && tuLt d x then
           ((s.ticGates i g).ticWindows i x).ticEnd i tsTimeout d else (s.ticGates i g).ticWindows i x
       | none => (s.ticGates i g).ticWindows i x) := rfl

theorem State.ticGates_work (s : State) (i : Nat) (g : Tu) : TicWork i (edgeRegs i) s (s.ticGates i g) := by
  unfold State.ticGates
  split
  · exact foldl_rel (TicWork.refl i _) TicWork.trans (fun b _ => by
      split
      · exact b.ticGateEnd_work i
      · exact .refl _ _ _) _ _
  · exact .refl _ _ _

theorem State.ticWindows_work (s : State) (i : Nat) (x : Tu) : TicWork i (edgeRegs i) s (s.ticWindows i x) :=
  foldl_rel (TicWork.refl i _) TicWork.trans (fun b _ => by
    unfold State.ticWindowDue
    split
    · split
      · exact b.ticWindowOver_work i
      · exact .refl _ _ _
    · exact .refl _ _ _) _ _

theorem State.ticSettle_work (s : State) (i : Nat) (x g : Tu) : TicWork i (edgeRegs i) s (s.ticSettle i x g) := by
  have h := (s.ticGates_work i g).trans ((s.ticGates i g).ticWindows_work i x)
  rw [State.ticSettle_eq]
  split
  · split
    · exact h.trans (State.ticEnd_work _ _ _ _ (by decide))
    · exact h
  · exact h

theorem State.ticStopEdge_work (s : State) (i : Nat) (x : Stamp) : TicWork i (edgeRegs i) s (s.ticStopEdge i x).1 := by
  unfold State.ticStopEdge
  split
  · exact foldl_rel (R := fun a b : State × Bool => TicWork i (edgeRegs i) a.1 b.1) (fun a => .refl _ _ a.1) TicWork.trans
      (fun a y => by
        obtain ⟨a, used⟩ := a
        dsimp only
        split
        · exact State.ticDecide_work _ _ _ _ _
        · exact .refl _ _ _) _ (s, false)
  · split
    · dsimp only
      split
      · exact s.ticResult_work _ _ _ _ _ _ _ _ _ (by decide)
      · exact .refl _ _ _
    · exact .refl _ _ _

theorem State.ticIgnored_work (s : State) (i : Nat) : TicWork i (edgeRegs i) s (s.ticIgnored i) :=
  s.setFld_ticWork _ _ (by simp [edgeRegs]) rfl

theorem State.ticOpen_work (s : State) (i : Nat) (x : Stamp) (rise : Bool) : TicWork i but s (s.ticOpen i x rise) :=
  State.modTic_work _ _ _

theorem State.ticStartEdge_work (s : State) (i : Nat) (x : Stamp) (rise : Bool) (o : Stamp) :
    TicWork i (edgeRegs i) s (s.ticStartEdge i x rise o) := by
  unfold State.ticStartEdge
  dsimp only
  split
  · split
    · exact .refl _ _ _
    · split
      · exact s.ticOpen_work _ _ _
      · exact s.ticIgnored_work _
  · split
    · split
      · exact s.ticResult_work _ _ _ _ _ _ _ _ _ (by decide)
      · exact State.modTic_work _ _ _
    · split
      · exact .refl _ _ _
      · exact State.modTic_work _ _ _

/-- The stop of an edge is served, under INTERVAL and SKEW. -/
def State.ticServed (s : State) (i : Nat) (x : Stamp) (isStop : Bool) : State × Bool :=
  if isStop then s.ticStopEdge i x else (s, false)

/-- The start of an edge is taken: it meets an open measurement, or opens one. -/
def State.ticTaken (s : State) (i : Nat) (x : Stamp) (rise takes : Bool) : State :=
  if takes then
    match (s.ticOf i).open_ with
    | some (o, _) =>
      let s' := s.ticStartEdge i x rise o
      if (s'.ticOf i).seq ≠ (s.ticOf i).seq ∧ s'.ticLive i = true ∧ tuLe (s'.ticOf i).ready x.t = true then
        s'.ticOpen i x rise else s'
    | none => if tuLe (s.ticOf i).ready x.t then s.ticOpen i x rise else s
  else s

/-- What a stop leaves that did not serve, or that waits for the starts of before it. -/
def State.ticStopLeft (s : State) (i : Nat) (x : Stamp) (isStop used : Bool) : State :=
  if isStop && s.ticSigned i then s.modTic i fun t => { t with stop := if used then none else some x }
  else if isStop && !used then s.ticIgnored i
  else s

/-- An edge under WIDTH that closes an open measurement. -/
def State.ticWidth (s : State) (i : Nat) (x : Stamp) (rise isStart : Bool) : State :=
  match (s.ticOf i).open_ with
  | some (o, _) =>
    let v := tuDiff o.t x.t
    let s1 := s.ticResult i o.t v 0 1 (decide (v.natAbs < 8)) ((s.ticOf i).coast || x.coast) (o.stale || x.stale) x.t
    if isStart && s1.ticLive i && tuLe (s1.ticOf i).ready x.t then s1.ticOpen i x rise else s1
  | none => s

/-- An edge that meets a counter whose earlier closings have taken place. -/
def State.ticMeets (s0 : State) (i : Nat) (x : Stamp) (start polar rise isStart isStop : Bool) : State :=
  if !s0.ticLive i || tuLt x.t (s0.ticOf i).runAt then s0
  else if s0.ticMode i = 4 then
    if isStart && tuLe (s0.ticOf i).gate x.t then
      s0.modTic i fun t =>
        { t with open_ := some (t.open_.getD (x, rise)), edges := t.edges + 1, lastEdge := some x,
                 coast := t.coast || x.coast }
    else s0
  else if s0.ticMode i = 2 ∧ start ∧ polar ∧ (s0.ticOf i).open_.any (fun o => o.2 != rise) then
    s0.ticWidth i x rise isStart
  else
    let a := s0.ticServed i x isStop
    let ended := (a.1.ticOf i).seq != (s0.ticOf i).seq
    let takes := isStart && a.1.ticLive i && (!a.2 || ended)
    let b := a.1.ticTaken i x rise takes
    b.ticStopLeft i x isStop (a.2 || (takes && (b.ticOf i).starts.contains x) ||
      (takes && (a.1.ticOf i).open_.isNone && (b.ticOf i).open_.isSome))

theorem State.ticEdge_eq (s : State) (i : Nat) (x : Stamp) (start stop polar rise : Bool) :
    s.ticEdge i x start stop polar rise = (s.ticSettle i x.t x.t).ticMeets i x start polar rise
      (start && edgeTaken ((s.ticSettle i x.t x.t).fld Fld.TIC_CFG_START_EDGE i) polar rise)
      (stop && ((s.ticSettle i x.t x.t).ticMode i == 0 || (s.ticSettle i x.t x.t).ticMode i == 3) &&
        edgeTaken ((s.ticSettle i x.t x.t).fld Fld.TIC_CFG_STOP_EDGE i) polar rise) := rfl

theorem State.ticServed_work (s : State) (i : Nat) (x : Stamp) (isStop : Bool) :
    TicWork i (edgeRegs i) s (s.ticServed i x isStop).1 := by
  unfold State.ticServed
  split
  · exact s.ticStopEdge_work i x
  · exact .refl _ _ _

theorem State.ticTaken_work (s : State) (i : Nat) (x : Stamp) (rise takes : Bool) :
    TicWork i (edgeRegs i) s (s.ticTaken i x rise takes) := by
  unfold State.ticTaken
  split
  · split
    · dsimp only
      split
      · exact (s.ticStartEdge_work _ _ _ _).trans (State.ticOpen_work _ _ _ _)
      · exact s.ticStartEdge_work _ _ _ _
    · split
      · exact s.ticOpen_work _ _ _
      · exact .refl _ _ _
  · exact .refl _ _ _

theorem State.ticStopLeft_work (s : State) (i : Nat) (x : Stamp) (isStop used : Bool) :
    TicWork i (edgeRegs i) s (s.ticStopLeft i x isStop used) := by
  unfold State.ticStopLeft
  split
  · exact State.modTic_work _ _ _
  · split
    · exact s.ticIgnored_work _
    · exact .refl _ _ _

theorem State.ticWidth_work (s : State) (i : Nat) (x : Stamp) (rise isStart : Bool) :
    TicWork i (edgeRegs i) s (s.ticWidth i x rise isStart) := by
  unfold State.ticWidth
  split
  · dsimp only
    split
    · exact (s.ticResult_work _ _ _ _ _ _ _ _ _ (by decide)).trans (State.ticOpen_work _ _ _ _)
    · exact s.ticResult_work _ _ _ _ _ _ _ _ _ (by decide)
  · exact .refl _ _ _

theorem State.ticMeets_work (s : State) (i : Nat) (x : Stamp) (start polar rise isStart isStop : Bool) :
    TicWork i (edgeRegs i) s (s.ticMeets i x start polar rise isStart isStop) := by
  unfold State.ticMeets
  split
  · exact .refl _ _ _
  · split
    · split
      · exact State.modTic_work _ _ _
      · exact .refl _ _ _
    · split
      · exact s.ticWidth_work _ _ _ _
      · exact ((s.ticServed_work _ _ _).trans (State.ticTaken_work _ _ _ _ _)).trans (State.ticStopLeft_work _ _ _ _ _)

theorem State.ticEdge_work (s : State) (i : Nat) (x : Stamp) (start stop polar rise : Bool) :
    TicWork i (edgeRegs i) s (s.ticEdge i x start stop polar rise) := by
  rw [State.ticEdge_eq]
  exact (s.ticSettle_work i x.t x.t).trans (State.ticMeets_work _ _ _ _ _ _ _ _)

end Sys2Proof.Machine
end

section
/-! Time-interval counters close their measurements, and CLKIN (R278, R279, R282, R283). -/

namespace Sys2Proof.Machine

variable {s t u w : State} {but : List Reg} {srcs : List Nat} {i : Nat}

/-! ### Edges of a source at the counters -/

/-- The registers of counters that edges change. -/
def ticEdgeNames : List RegName := [.TIC_LAST_TTS_LO, .TIC_LAST_TTS_HI, .TIC_LAST_VALUE_LO, .TIC_LAST_VALUE_HI, .TIC_LAST_COUNT,
  .TIC_LAST_SEQ, .TIC_TIMEOUT_CNT, .TIC_CFG, .TIC_STATUS, .TIC_IGNORED_CNT]

theorem edgeRegs_names {i : Nat} {r : Reg} (h : r ∈ edgeRegs i) : r.n ∈ ticEdgeNames ∧ r.i = i := by
  simp only [edgeRegs, ticRegs, List.mem_cons, List.not_mem_nil, or_false] at h
  rcases h with rfl | rfl | rfl | rfl | rfl | rfl | rfl | rfl | rfl | rfl <;> exact ⟨by simp [ticEdgeNames], rfl⟩

/-- What edges at other counters leave of counter `i`, and of the rest. -/
structure TicKept (i : Nat) (s t : State) : Prop where
  tic : t.ticOf i = s.ticOf i
  reg : ∀ n k, eventReg n = false → n ∉ ticEdgeNames ∨ k = i → t.reg n k = s.reg n k
  mem : ∀ a, memGet t.mem a = memGet s.mem a

theorem TicKept.refl (i : Nat) (s : State) : TicKept i s s := ⟨rfl, fun _ _ _ _ => rfl, fun _ => rfl⟩

theorem TicKept.trans (h : TicKept i s t) (g : TicKept i t u) : TicKept i s u :=
  ⟨g.tic.trans h.tic, fun n k he hn => (g.reg n k he hn).trans (h.reg n k he hn), fun a => (g.mem a).trans (h.mem a)⟩

theorem TicWork.keeps {j : Nat} (h : TicWork j (edgeRegs j) s t) (hj : j ≠ i) : TicKept i s t :=
  ⟨h.others i (Ne.symm hj), fun n k he hn => h.only.1 n k (fun hm => by
    obtain ⟨h1, h2⟩ := edgeRegs_names hm
    rcases hn with hn | hn
    · exact hn h1
    · exact hj (h2.symm.trans hn)) he, fun a => by rw [h.mem]⟩

/-- What edges leave of all but the counters. -/
structure TicOnly (s t : State) : Prop where
  reg : ∀ n k, eventReg n = false → n ∉ ticEdgeNames → t.reg n k = s.reg n k
  status : ∀ k, k < 424 → followsRaise k = false → t.evtStatus k = s.evtStatus k
  rest : ∃ regs tic inbound sram nextSeq logged deferred trigOut raises pba basecamp out free,
    t = { s with
      regs := regs, tic := tic, trigOut := trigOut, out := out, free := free
      dma := { s.dma with inbound := inbound }
      mgt := { s.mgt with sram := sram, nextSeq := nextSeq, logged := logged, deferred := deferred }
      evt := { s.evt with raises := raises, pba := pba, basecamp := basecamp } }

theorem TicOnly.refl (s : State) : TicOnly s s :=
  ⟨fun _ _ _ _ => rfl, fun _ _ _ => rfl, _, _, _, _, _, _, _, _, _, _, _, _, _, rfl⟩

theorem TicOnly.trans (h : TicOnly s t) (g : TicOnly t u) : TicOnly s u := by
  refine ⟨fun n k he hn => (g.reg n k he hn).trans (h.reg n k he hn),
    fun k hk hf => (g.status k hk hf).trans (h.status k hk hf), ?_⟩
  obtain ⟨_, _, _, _, _, _, _, _, _, _, _, _, _, rfl⟩ := h.rest
  obtain ⟨_, _, _, _, _, _, _, _, _, _, _, _, _, rfl⟩ := g.rest
  exact ⟨_, _, _, _, _, _, _, _, _, _, _, _, _, rfl⟩

theorem TicOnly.mem (h : TicOnly s t) : t.mem = s.mem := by
  obtain ⟨_, _, _, _, _, _, _, _, _, _, _, _, _, rfl⟩ := h.rest; rfl

theorem TicWork.onlyTic {j : Nat} (h : TicWork j (edgeRegs j) s t) : TicOnly s t :=
  ⟨fun n k he hn => h.only.1 n k (fun hm => hn (edgeRegs_names hm).1) he,
    fun _ hk hf => h.only.evtStatus (by rw [List.mem_singleton]; omega) hf, h.rest⟩

/-- An event of a source at one counter. -/
def State.ticSourceAt (s : State) (code : Nat) (t : Tu) (polar rise stale : Bool) (i : Nat) : State :=
  if (s.fld Fld.TIC_SRC_START i == code || s.fld Fld.TIC_SRC_STOP i == code) && s.measuring i then
    s.ticEdge i ⟨t, s.coasting, stale⟩ (s.fld Fld.TIC_SRC_START i == code) (s.fld Fld.TIC_SRC_STOP i == code) polar rise
  else s

theorem State.ticSource_eq (s : State) (c code : Nat) (t : Tu) (polar rise stale : Bool) :
    s.ticSource c code t polar rise stale =
      s.each 8 fun s k => s.ticSourceAt code t polar rise stale (8 * c + k) := rfl

theorem State.ticSourceAt_work (s : State) (code : Nat) (t : Tu) (polar rise stale : Bool) (i : Nat) :
    TicWork i (edgeRegs i) s (s.ticSourceAt code t polar rise stale i) := by
  unfold State.ticSourceAt
  split
  · exact s.ticEdge_work _ _ _ _ _ _
  · exact .refl _ _ _

theorem State.ticSource_only (s : State) (c code : Nat) (t : Tu) (polar rise stale : Bool) :
    TicOnly s (s.ticSource c code t polar rise stale) := by
  rw [State.ticSource_eq]
  exact foldl_rel TicOnly.refl TicOnly.trans (fun a k => (a.ticSourceAt_work code t polar rise stale (8 * c + k)).onlyTic) _ _

theorem State.ticAll_only (s : State) (code : Nat) (t : Tu) (polar rise : Bool) : TicOnly s (s.ticAll code t polar rise) :=
  foldl_rel TicOnly.refl TicOnly.trans (fun a c => a.ticSource_only c code t polar rise false) _ _

/-- The edge at one counter, between those at the others. -/
theorem State.ticAll_at (s : State) (code : Nat) (t : Tu) (polar rise : Bool) (hi : i < 32) :
    ∃ a, TicKept i s a ∧ TicKept i (a.ticSourceAt code t polar rise false i) (s.ticAll code t polar rise) := by
  have hcluster (a : State) (c : Nat) (hc : c ≠ i / 8) : TicKept i a (a.ticSource c code t polar rise false) := by
    rw [State.ticSource_eq]
    refine foldl_rel_mem (TicKept.refl i) TicKept.trans (fun b k hk => ?_) a
    have hk8 := List.mem_range.1 hk
    exact (b.ticSourceAt_work code t polar rise false (8 * c + k)).keeps (by omega)
  obtain ⟨a, hsa, hab⟩ := State.each_between (n := 4) (show i / 8 < 4 by omega) (TicKept.refl i) TicKept.trans hcluster s
  have hcounter (b : State) (k : Nat) (hk : k ≠ i % 8) :
      TicKept i b (b.ticSourceAt code t polar rise false (8 * (i / 8) + k)) :=
    (b.ticSourceAt_work code t polar rise false (8 * (i / 8) + k)).keeps (by omega)
  rw [State.ticSource_eq] at hab
  obtain ⟨b, hab', hbc⟩ := State.each_between (n := 8) (Nat.mod_lt i (by decide)) (TicKept.refl i) TicKept.trans hcounter a
  rw [show 8 * (i / 8) + i % 8 = i by omega] at hbc
  exact ⟨b, hsa.trans hab', hbc.trans hab⟩

/-! ### An edge that opens a measurement -/

theorem tuLt_of_tuLe {a b : Tu} (h : tuLe a b = true) : tuLt b a = false := by
  rw [tuLe, decide_eq_true_eq] at h
  rw [tuLt, tuLe, Bool.and_eq_false_iff, decide_eq_false_iff_not, bne_eq_false_iff_eq]
  by_cases hab : b = a
  · exact .inr hab
  · left
    bv_omega

theorem TicKept.fld (h : TicKept i s t) (f : Fld) (he : eventReg f.reg = false) : t.fld f i = s.fld f i :=
  State.fld_of_reg (h.reg _ _ he (.inr rfl))

theorem TicKept.live (h : TicKept i s t) : t.ticLive i = s.ticLive i ∧ t.ticMode i = s.ticMode i := by
  have hl := h.reg .CLK_GATE_STATE_LO 0 rfl (.inl (by decide))
  have hh := h.reg .CLK_GATE_STATE_HI 0 rfl (.inl (by decide))
  have hm : t.ticMode i = s.ticMode i := by rw [State.ticMode, State.ticMode, h.fld _ rfl]
  refine ⟨?_, hm⟩
  rw [State.ticLive, State.ticLive, State.measuring, State.measuring, State.ticNoSource, State.ticNoSource, hm, State.flag,
    State.flag, h.fld _ rfl, h.fld _ rfl, h.fld _ rfl,
    State.clusterAsleep_of_reg (fun k => h.reg .HUB_PWR_STATUS k rfl (.inl (by decide))) hl hh]

/-- A counter that waits for its start has nothing to settle. -/
theorem State.ticSettle_idle (s : State) (i : Nat) (x g : Tu) (ho : (s.ticOf i).open_ = none)
    (hst : (s.ticOf i).starts = []) (hm : s.ticMode i ≠ 4) : s.ticSettle i x g = s := by
  have hend (w : Tu) : s.ticEnd i tsTimeout w = s := by
    rw [State.ticEnd, ho]
    exact if_neg hm
  have hover : s.ticWindowOver i = s := by
    rw [State.ticWindowOver, hst]
    split
    · exact hend _
    · next h => cases h
    · rfl
  have hdue : s.ticWindowDue i x = s := by
    unfold State.ticWindowDue
    split
    · rw [hover, ite_self]
    · rfl
  have hgates : s.ticGates i g = s := if_neg hm
  have hwin : s.ticWindows i x = s := by
    rw [State.ticWindows, hst]
    exact hdue
  have hdl : s.ticDeadline i = none := by
    rw [State.ticDeadline, ho, Option.map_none, ite_self]
  rw [State.ticSettle_eq, hgates, hwin, hdl]

/-- A start edge at a counter that waits for it opens a measurement. -/
theorem State.ticEdge_opens (s : State) (i : Nat) (x : Stamp) (rise : Bool) (hm : s.ticMode i < 4)
    (he : edgeTaken (s.fld Fld.TIC_CFG_START_EDGE i) true rise = true) (ho : (s.ticOf i).open_ = none)
    (hst : (s.ticOf i).starts = []) (hl : s.ticLive i = true) (hrun : tuLe (s.ticOf i).runAt x.t = true)
    (hrd : tuLe (s.ticOf i).ready x.t = true) :
    ((s.ticEdge i x true false true rise).ticOf i).open_ = some (x, rise) := by
  have hnlt : tuLt x.t (s.ticOf i).runAt = false := tuLt_of_tuLe hrun
  have hw : (s.ticOf i).open_.any (fun o => o.2 != rise) = false := by rw [ho]; rfl
  rw [State.ticEdge_eq, State.ticSettle_idle s i _ _ ho hst (by omega), he, Bool.false_and, Bool.and_self, State.ticMeets, hl,
    hnlt, if_neg (by simp), if_neg (by omega), hw, if_neg (by simp)]
  have htk : s.ticTaken i x rise true = s.ticOpen i x rise := by
    rw [State.ticTaken, if_pos rfl, ho]
    exact if_pos hrd
  have hall : (true && s.ticLive i && (!false || (s.ticOf i).seq != (s.ticOf i).seq)) = true := by rw [hl]; rfl
  change ((s.ticTaken i x rise (true && s.ticLive i && (!false || (s.ticOf i).seq != (s.ticOf i).seq))).ticOf i).open_ = _
  rw [hall, htk, State.ticOpen, State.ticOf_modTic]

end Sys2Proof.Machine
end

section
/-! Time-interval counters close their measurements; edges of CLKIN (R278, R279, R282, R283). -/

namespace Sys2Proof.Machine

variable {s t u w : State} {but : List Reg} {srcs : List Nat} {i : Nat}

@[simp] theorem State.at_ticOf (s : State) (t : Tu) (i : Nat) : (s.at t).ticOf i = s.ticOf i :=
  State.ticOf_of_eq (State.at_tic _ _) i
@[simp] theorem State.at_ticMode (s : State) (t : Tu) (i : Nat) : (s.at t).ticMode i = s.ticMode i := by
  rw [State.ticMode, State.at_fld]; rfl
@[simp] theorem State.at_ticSigned (s : State) (t : Tu) (i : Nat) : (s.at t).ticSigned i = s.ticSigned i := by
  rw [State.ticSigned, State.at_ticMode, State.at_flag]; rfl
@[simp] theorem State.at_ticTimeout (s : State) (t : Tu) (i : Nat) : (s.at t).ticTimeout i = s.ticTimeout i := by
  rw [State.ticTimeout, State.at_fld]; rfl
@[simp] theorem State.at_ticWindow (s : State) (t : Tu) (i : Nat) : (s.at t).ticWindow i = s.ticWindow i := by
  rw [State.ticWindow, State.at_fld]; rfl
@[simp] theorem State.at_ticGate (s : State) (t : Tu) (i : Nat) : (s.at t).ticGate i = s.ticGate i := by
  rw [State.ticGate, State.at_fld, State.at_fld]; rfl
@[simp] theorem State.at_ticDeadline (s : State) (t : Tu) (i : Nat) : (s.at t).ticDeadline i = s.ticDeadline i := by
  rw [State.ticDeadline, State.at_ticMode, State.at_ticSigned, State.at_ticOf, State.at_ticTimeout]; rfl
@[simp] theorem State.at_ticLive (s : State) (t : Tu) (i : Nat) : (s.at t).ticLive i = s.ticLive i := by
  have hk : TicKept i s (s.at t) := ⟨State.at_ticOf _ _ _, fun _ _ _ _ => State.at_reg _ _ _ _, fun a => by rw [State.at_mem]⟩
  exact hk.live.1
@[simp] theorem State.at_ticWindowEnd (s : State) (t : Tu) (i : Nat) : (s.at t).ticWindowEnd i = s.ticWindowEnd i := by
  rw [State.ticWindowEnd, State.at_ticOf, State.at_ticWindow]; rfl

/-- The events of a counter that runs. -/
theorem State.raisable_tic {i : Fin 32} (hl : s.ticLive i = true) (hr : s.fld Fld.EVT_ROUTE_KIND (424 + i) ≠ 1) :
    s.raisable (424 + i) := by
  have hv : ∀ i : Fin 32, evtValid (424 + i) = true := by decide
  have hlt := i.isLt
  have hc : s.clusterAsleep (i / 8) = false := by
    simp only [State.ticLive, Bool.and_eq_true, Bool.not_eq_true'] at hl
    exact hl.2
  refine ⟨hv i, ?_, ?_, hr⟩
  · rw [State.evtAsleep, if_neg (by omega), if_neg (by omega), if_neg (by omega), if_neg (by omega), if_neg (by omega),
      if_neg (by omega), if_pos (by omega), Nat.add_sub_cancel_left, hc]
  · rw [State.evtAbsent, decide_eq_false (by omega), Bool.false_and]

theorem followsRaise_tic (i : Fin 32) : followsRaise (424 + i) = false := by
  have hv : ∀ i : Fin 32, followsRaise (424 + i) = false := by decide
  exact hv i

theorem not_noteSrc_tic (i : Fin 32) : 424 + i.val ∉ noteSrcs := by
  have hv : ∀ i : Fin 32, 424 + i.val ∉ noteSrcs := by decide
  exact hv i

theorem timeout_testBit (a b c : Bool) : (tsTimeout + 2 * a.toNat + 16 * b.toNat + 32 * c.toNat).testBit 0 = true := by
  cases a <;> cases b <;> cases c <;> rfl

theorem value_testBit (a b c : Bool) : (0 + 2 * a.toNat + 16 * b.toNat + 32 * c.toNat).testBit 0 = false := by
  cases a <;> cases b <;> cases c <;> rfl

/-- What a command leaves that ends in a result of counter `i`. -/
theorem State.done_ticResult {x : Tu} {tts : Tu} {v : Int} {status count : Nat} {timeout : Bool} {i : Nat}
    (h : TicResult i tts v status count (s.at x) t) (hb : status.testBit 0 = timeout) :
    ∃ u, s.done t = .next u ∧ Raises t u noteSrcs ∧ ticShows u i tts v timeout ∧ u.ticOf i = t.ticOf i ∧
      onlyRaising s u (ticRegs i) [424 + i] := by
  obtain ⟨u, hu, hr, ho⟩ := s.done_onlyRaising h.work.only
  have hut : u.ticOf i = t.ticOf i := State.ticOf_of_eq hr.tic i
  obtain ⟨h1, h2, h3, h4⟩ := h.shows hb
  refine ⟨u, hu, hr, ⟨?_, ?_, ?_, ?_⟩, hut, ho⟩
  · rw [← h1, State.pair, State.pair, hr.reg _ _ rfl, hr.reg _ _ rfl]
  · rw [hr.fld _ _ rfl, hr.fld _ _ rfl, h2]
  · rw [hr.fld _ _ rfl, h3]
  · rw [hut, h4]

theorem State.ticEnd_open (s : State) (i stop : Nat) (closing : Tu) {o : Stamp} {r : Bool}
    (ho : (s.ticOf i).open_ = some (o, r)) :
    s.ticEnd i stop closing = s.ticResult i o.t 0 stop (s.ticCount i) (s.ticMode i == 3 && (s.ticOf i).subRes)
      (s.ticOf i).coast ((s.ticOf i).stale || o.stale) closing := by
  rw [State.ticEnd, ho]

theorem ticTimeout_ends (i : Fin 32) (o : Stamp) (r : Bool) (ha : s.alive = true)
    (hdue : s.trigsDue (s.at s.time).time = []) (hl : s.ticLive i = true) (ho : (s.ticOf i).open_ = some (o, r)) (d : Tu)
    (hd : s.ticDeadline i = some d) (hle : tuLe d (s.at s.time).time = true) :
    ∃ u, exec (.ticTimeout i) s = .next u ∧ ticShows u i o.t 0 true ∧
      (u.ticOf i).seq = ((s.ticOf i).seq + 1) % 2 ^ 32 ∧
      (s.fld Fld.TIC_TIMEOUT_CNT_COUNT i < 2 ^ 32 - 1 →
        u.fld Fld.TIC_TIMEOUT_CNT_COUNT i = s.fld Fld.TIC_TIMEOUT_CNT_COUNT i + 1) ∧
      (s.fld Fld.TIC_TIMEOUT_CNT_COUNT i = 0 → s.fld Fld.EVT_ROUTE_KIND (424 + i) ≠ 1 → u.evtStatus (424 + i) = true) ∧
      onlyRaising s u (ticRegs i) [424 + i] := by
  obtain ⟨a, haeq⟩ : ∃ a, a = s.at s.time := ⟨_, rfl⟩
  have hao : (a.ticOf i).open_ = some (o, r) := by rw [haeq, State.at_ticOf, ho]
  have hex : exec (.ticTimeout i) s = s.done (a.ticEnd i tsTimeout d) := by
    rw [exec, execTicTimeout, State.when_eq ha, State.placeTrigs_none (by rw [State.at_trigsDue]; exact hdue)]
    dsimp only
    rw [State.at_ticDeadline, hd]
    dsimp only
    rw [State.at_ticLive, hl, hle, if_pos (by rfl : (true && true) = true), haeq]
  rw [State.ticEnd_open a i _ _ hao] at hex
  obtain ⟨hres, hcnt, hev⟩ := a.ticResult_results i o.t 0 tsTimeout (a.ticCount i)
    (a.ticMode i == 3 && (a.ticOf i).subRes) (a.ticOf i).coast ((a.ticOf i).stale || o.stale) d (by decide)
  rw [haeq] at hres hcnt hev hex
  obtain ⟨u, hu, hr, hsh, htic, hon⟩ := State.done_ticResult hres (timeout_testBit _ _ _)
  refine ⟨u, hex.trans hu, hsh, ?_, fun hlt => ?_, fun h0 hk => ?_, hon⟩
  · rw [htic, hres.tic, State.at_ticOf]
  · rw [hr.fld _ _ rfl, hcnt rfl (by rw [State.at_fld]; exact hlt), State.at_fld]
  · rw [hr.evtStatus (not_noteSrc_tic i)]
    exact hev rfl (by rw [State.at_fld]; exact h0) ((State.raisable_tic hl hk).at _)

theorem pairOf_none (w : Nat) (x : Stamp) : pairOf w x none none = none := rfl

theorem pairOf_before {w : Nat} {x p : Stamp} (h : (tuDiff x.t p.t).natAbs ≤ w) : pairOf w x (some p) none = some p := by
  unfold pairOf
  dsimp only
  rw [Option.filter_some, if_pos h]
  rfl

theorem ticWindowEnd_ends (i : Fin 32) (o : Stamp) (r : Bool) (ha : s.alive = true)
    (hdue : s.trigsDue (s.at s.time).time = []) (hl : s.ticLive i = true) (ho : (s.ticOf i).open_ = some (o, r))
    (x : Stamp) (rest : List Stamp) (hst : (s.ticOf i).starts = x :: rest) (hdoom : (s.ticOf i).doom = none)
    (hle : tuLe (tuAdd x.t (s.ticWindow i)) (s.at s.time).time = true) :
    ((s.ticOf i).stop = none →
      ∃ u, exec (.ticWindowEnd i) s = .next u ∧ ticShows u i o.t 0 true ∧ onlyRaising s u (ticRegs i) [424 + i]) ∧
    ∀ p, (s.ticOf i).stop = some p → (tuDiff x.t p.t).natAbs ≤ s.ticWindow i → s.ticMode i = 0 →
      ∃ u, exec (.ticWindowEnd i) s = .next u ∧ ticShows u i o.t (tuDiff x.t p.t) false ∧
        onlyRaising s u (ticRegs i) [424 + i] := by
  obtain ⟨a, haeq⟩ : ∃ a, a = s.at s.time := ⟨_, rfl⟩
  have hat : a.ticOf i = s.ticOf i := by rw [haeq, State.at_ticOf]
  have haw : a.ticWindow i = s.ticWindow i := by rw [haeq, State.at_ticWindow]
  have hend : s.ticWindowEnd i = some (tuAdd x.t (s.ticWindow i)) := by rw [State.ticWindowEnd, hdoom, hst]; rfl
  have hex : exec (.ticWindowEnd i) s = s.done (a.ticWindowOver i) := by
    rw [exec, execTicWindowEnd, State.when_eq ha, State.placeTrigs_none (by rw [State.at_trigsDue]; exact hdue)]
    dsimp only
    rw [State.at_ticWindowEnd, hend]
    dsimp only
    rw [State.at_ticLive, hl, hle, if_pos (by rfl : (true && true) = true), haeq]
  rw [State.ticWindowOver, hat, hdoom, hst] at hex
  dsimp only at hex
  rw [haw] at hex
  constructor
  · intro hstop
    rw [hstop, pairOf_none] at hex
    dsimp only at hex
    rw [State.ticEnd_open a i _ _ (by rw [hat]; exact ho), haeq] at hex
    obtain ⟨hres, -, -⟩ := (s.at s.time).ticResult_results i o.t 0 tsTimeout ((s.at s.time).ticCount i)
      ((s.at s.time).ticMode i == 3 && ((s.at s.time).ticOf i).subRes) ((s.at s.time).ticOf i).coast
      (((s.at s.time).ticOf i).stale || o.stale) (tuAdd x.t (s.ticWindow i)) (by decide)
    obtain ⟨u, hu, -, hsh, -, hon⟩ := State.done_ticResult hres (timeout_testBit _ _ _)
    exact ⟨u, hex.trans hu, hsh, hon⟩
  · intro p hp hnear hm
    rw [hp, pairOf_before hnear] at hex
    dsimp only at hex
    obtain ⟨b, hb⟩ : ∃ b, b = a.modTic i fun t =>
        { t with pairs := t.pairs + 1, sum := t.sum + tuDiff x.t p.t, subRes := t.subRes || decide ((tuDiff x.t p.t).natAbs < 8),
                 stale := t.stale || x.stale || p.stale, coast := t.coast || p.coast,
                 starts := t.starts.erase x, stop := if t.stop = some p then none else t.stop } := ⟨_, rfl⟩
    have hbo : (b.ticOf i).open_ = some (o, r) := by
      rw [hb, State.ticOf_modTic, hat]
      exact ho
    have hbw : TicWork i (ticRegs i) (s.at s.time) b := by
      rw [hb, haeq]
      exact State.modTic_work _ _ _
    have ham : a.ticMode i = 0 := by rw [haeq, State.at_ticMode, hm]
    have hpair : a.ticPair i x p (tuAdd x.t (s.ticWindow i)) = b.ticResult i o.t (tuDiff x.t p.t) 0 1
        (decide ((tuDiff x.t p.t).natAbs < 8)) (b.ticOf i).coast (b.ticOf i).stale (tuAdd x.t (s.ticWindow i)) := by
      rw [State.ticPair, ← hb, hbo]
      exact if_pos ham
    obtain ⟨hres, -, -⟩ := b.ticResult_results i o.t (tuDiff x.t p.t) 0 1 (decide ((tuDiff x.t p.t).natAbs < 8))
      (b.ticOf i).coast (b.ticOf i).stale (tuAdd x.t (s.ticWindow i)) (by decide)
    rw [hpair] at hex
    obtain ⟨y, hy⟩ : ∃ y, y = b.ticResult i o.t (tuDiff x.t p.t) 0 1 (decide ((tuDiff x.t p.t).natAbs < 8))
      (b.ticOf i).coast (b.ticOf i).stale (tuAdd x.t (s.ticWindow i)) := ⟨_, rfl⟩
    rw [← hy] at hres hex
    obtain ⟨u, hu, hr, hon⟩ := s.done_onlyRaising (hbw.trans hres.work).only
    obtain ⟨h1, h2, h3, h4⟩ := hres.shows (value_testBit _ _ _)
    refine ⟨u, hex.trans hu, ⟨?_, ?_, ?_, ?_⟩, hon⟩
    · rw [← h1, State.pair, State.pair, hr.reg _ _ rfl, hr.reg _ _ rfl]
    · rw [hr.fld _ _ rfl, hr.fld _ _ rfl, h2]
      rfl
    · rw [hr.fld _ _ rfl, h3]
    · rw [State.ticOf_of_eq hr.tic, h4]

end Sys2Proof.Machine
end

section
/-! The end of a gate, and edges of CLKIN (R278, R279, log 104). -/

namespace Sys2Proof.Machine

variable {s t u w : State} {but : List Reg} {srcs : List Nat} {i : Nat}

theorem ticGateEnd_ends (i : Fin 32) (o l : Stamp) (r : Bool) (ha : s.alive = true)
    (hdue : s.trigsDue (s.at s.time).time = []) (hl : s.ticLive i = true) (ho : (s.ticOf i).open_ = some (o, r))
    (hm : s.ticMode i = 4) (hlast : (s.ticOf i).lastEdge = some l) (hed : 2 ≤ (s.ticOf i).edges)
    (hle : tuLe (tuAdd (s.ticOf i).gate (s.ticGate i)) (s.at s.time).time = true) :
    ∃ u, exec (.ticGateEnd i) s = .next u ∧ ticShows u i o.t (tuDiff o.t l.t) false ∧
      u.fld Fld.TIC_LAST_COUNT_COUNT i = (s.ticOf i).edges % 2 ^ 32 ∧
      (u.ticOf i).gate = tuAdd (s.ticOf i).gate (s.ticGate i) ∧ onlyRaising s u (ticRegs i) [424 + i] := by
  obtain ⟨a, haeq⟩ : ∃ a, a = s.at s.time := ⟨_, rfl⟩
  obtain ⟨stop, hstop⟩ : ∃ stop, stop = tuAdd (s.ticOf i).gate (s.ticGate i) := ⟨_, rfl⟩
  have hat : a.ticOf i = s.ticOf i := by rw [haeq, State.at_ticOf]
  have hag : a.ticGate i = s.ticGate i := by rw [haeq, State.at_ticGate]
  have hgd : (s.at s.time).ticGateDue i (s.at s.time).time = true := by
    rw [State.ticGateDue, State.at_ticLive, State.at_ticMode, State.at_ticOf, State.at_ticGate, hl, hm, hle]
    rfl
  have hex : exec (.ticGateEnd i) s = s.done (a.ticGateEnd i) := by
    rw [exec, execTicGateEnd, State.when_eq ha, State.placeTrigs_none (by rw [State.at_trigsDue]; exact hdue)]
    dsimp only
    rw [if_pos hgd, haeq]
  obtain ⟨b, hb⟩ : ∃ b, b = a.ticResult i o.t (tuDiff o.t l.t) 0 (s.ticOf i).edges
      (decide ((tuDiff o.t l.t).natAbs < 8)) (s.ticOf i).coast (o.stale || l.stale) stop := ⟨_, rfl⟩
  have hgate : a.ticGateEnd i = b.modTic i fun t => { t with gate := stop } := by
    rw [State.ticGateEnd]
    dsimp only
    rw [hat, hag, ← hstop, ho, hlast]
    dsimp only
    rw [if_pos hed, hb]
  obtain ⟨hres, -, -⟩ := a.ticResult_results i o.t (tuDiff o.t l.t) 0 (s.ticOf i).edges
    (decide ((tuDiff o.t l.t).natAbs < 8)) (s.ticOf i).coast (o.stale || l.stale) stop (by decide)
  rw [← hb, haeq] at hres
  obtain ⟨c, hc⟩ : ∃ c, c = b.modTic i fun t => { t with gate := stop } := ⟨_, rfl⟩
  have hcw : TicWork i (ticRegs i) b c := by
    rw [hc]
    exact State.modTic_work _ _ _
  have hcreg : ∀ n k, c.reg n k = b.reg n k := fun n k => by rw [hc]; rfl
  have hcfld : ∀ f k, c.fld f k = b.fld f k := fun f k => by rw [hc]; rfl
  have hctic : c.ticOf i = { b.ticOf i with gate := stop } := by rw [hc, State.ticOf_modTic]
  rw [hgate, ← hc] at hex
  obtain ⟨u, hu, hr, hon⟩ := s.done_onlyRaising (hres.work.trans hcw).only
  obtain ⟨h1, h2, h3, h4⟩ := hres.shows (value_testBit _ _ _)
  refine ⟨u, hex.trans hu, ⟨?_, ?_, ?_, ?_⟩, ?_, ?_, hon⟩
  · rw [← h1, State.pair, State.pair, hr.reg _ _ rfl, hr.reg _ _ rfl, hcreg, hcreg]
  · rw [hr.fld _ _ rfl, hr.fld _ _ rfl, hcfld, hcfld, h2]
    rfl
  · rw [hr.fld _ _ rfl, hcfld, h3]
  · rw [State.ticOf_of_eq hr.tic, hctic]
    exact h4
  · rw [hr.fld _ _ rfl, hcfld, hres.count]
  · rw [State.ticOf_of_eq hr.tic, hctic, hstop]

/-! ### Edges of CLKIN -/

theorem clkinEdge_closed {t : Tu} {rise : Bool} (ha : s.alive = true) (hdue : s.trigsDue ((s.at t).stamp t) = [])
    (hc : s.flag Fld.CLK_CLKIN_CFG_RATE_ERR 0 = true ∨ s.gateOpen 29 = false) :
    ∃ u, exec (.clkinEdge t rise) s = .next u ∧ u.tic = s.tic ∧ u.clk = s.clk ∧ onlyRegs s u [] := by
  obtain ⟨hd, ho⟩ := State.done_onlyRegs (x := t) (.refl (s.at t) []) rfl
  refine ⟨s.at t, ?_, State.at_tic _ _, State.at_clk _ _, ho⟩
  rw [exec, execClkinEdge, State.when_eq ha]
  dsimp only
  rw [State.placeTrigsTo_none (by rw [State.at_trigsDue]; exact hdue), State.at_flag, State.at_gateOpen, if_pos]
  · exact hd
  · rcases hc with h | h <;> simp [h]

/-- An edge at the ball while the edges are delivered. -/
theorem exec_clkinEdge {t : Tu} {rise : Bool} (ha : s.alive = true) (hdue : s.trigsDue ((s.at t).stamp t) = [])
    (he : s.flag Fld.CLK_CLKIN_CFG_RATE_ERR 0 = false) (hg : s.gateOpen 29 = true) :
    exec (.clkinEdge t rise) s = s.done ((s.at t).clkinEdge ((s.at t).stamp t) rise) := by
  rw [exec, execClkinEdge, State.when_eq ha]
  dsimp only
  rw [State.placeTrigsTo_none (by rw [State.at_trigsDue]; exact hdue), State.at_flag, State.at_gateOpen, he, hg,
    if_neg (by simp)]

/-- The state with this count of rising edges. -/
def State.clkinCount (s : State) (n : Nat) : State := { s with clk := { s.clk with clkin := n } }

/-- A prescaled edge is delivered on the state of some count. -/
theorem State.clkinEdge_prescaled {x : Tu} {rise edge : Bool} (h : prescaled s rise edge) :
    ∃ n, s.clkinEdge x rise = (s.clkinCount n).clkinOut x edge := by
  rw [State.clkinEdge]
  rcases h with ⟨h0, rfl⟩ | ⟨h0, rfl, ⟨hfull, rfl⟩ | ⟨hn, hhalf, rfl⟩⟩
  · exact ⟨s.clk.clkin, by rw [if_pos h0]; rfl⟩
  · refine ⟨0, ?_⟩
    rw [if_neg h0, if_neg (by simp)]
    exact if_pos hfull
  · refine ⟨s.clk.clkin + 1, ?_⟩
    rw [if_neg h0, if_neg (by simp)]
    dsimp only
    rw [if_neg (Nat.not_le.2 hn), if_pos hhalf]
    rfl

/-- An edge at the ball that is no prescaled edge is counted where it rises. -/
theorem State.clkinEdge_counts {x : Tu} {rise : Bool} (h : ∀ e, ¬ prescaled s rise e) :
    s.clkinEdge x rise = s.clkinCount (s.clk.clkin + rise.toNat) := by
  have h0 : s.clkinPs ≠ 0 := fun h0 => h rise (.inl ⟨h0, rfl⟩)
  rw [State.clkinEdge, if_neg h0]
  cases rise with
  | false => rfl
  | true =>
    have hn : ¬ 2 ^ s.clkinPs ≤ s.clk.clkin + 1 := fun hf => h true (.inr ⟨h0, rfl, .inl ⟨hf, rfl⟩⟩)
    have hh : ¬ s.clk.clkin + 1 = 2 ^ s.clkinPs / 2 := fun hf =>
      h false (.inr ⟨h0, rfl, .inr ⟨Nat.not_le.1 hn, hf, rfl⟩⟩)
    rw [if_neg (by simp)]
    dsimp only
    rw [if_neg hn, if_neg hh]
    rfl

theorem prescaled_at {t : Tu} {rise edge : Bool} : prescaled (s.at t) rise edge ↔ prescaled s rise edge := by
  rw [prescaled, prescaled, State.clkinPs, State.at_fld, State.at_clk]
  rfl

theorem clkinEdge_counts {t : Tu} {rise : Bool} (ha : s.alive = true) (hdue : s.trigsDue ((s.at t).stamp t) = [])
    (he : s.flag Fld.CLK_CLKIN_CFG_RATE_ERR 0 = false) (hg : s.gateOpen 29 = true) (h : ∀ e, ¬ prescaled s rise e) :
    ∃ u, exec (.clkinEdge t rise) s = .next u ∧ u.tic = s.tic ∧ u.clk.clkin = s.clk.clkin + rise.toNat ∧
      onlyRegs s u [] := by
  rw [exec_clkinEdge ha hdue he hg, State.clkinEdge_counts (fun e hp => h e (prescaled_at.1 hp))]
  obtain ⟨hd, hon⟩ := State.done_onlyRegs (x := t) (t := (s.at t).clkinCount ((s.at t).clk.clkin + rise.toNat))
    (.of_eq rfl rfl (.refl _ [])) rfl
  refine ⟨_, hd, State.at_tic _ _, ?_, hon⟩
  rw [State.at_clk]
  rfl

theorem clkinEdge_tooFast {t : Tu} {rise : Bool} {l : Tu} (ha : s.alive = true)
    (hdue : s.trigsDue ((s.at t).stamp t) = []) (he : s.flag Fld.CLK_CLKIN_CFG_RATE_ERR 0 = false)
    (hg : s.gateOpen 29 = true) (h : prescaled s rise true) (hl : s.clk.clkinAt = some l)
    (hfast : 5 * tuDiff l ((s.at t).stamp t) < 32768) :
    ∃ u, exec (.clkinEdge t rise) s = .next u ∧ u.fld Fld.CLK_CLKIN_CFG_RATE_ERR 0 = 1 ∧ u.tic = s.tic ∧
      onlyRegs s u [⟨.CLK_CLKIN_CFG, 0⟩] := by
  obtain ⟨n, hn⟩ := State.clkinEdge_prescaled (x := (s.at t).stamp t) (prescaled_at (t := t) |>.2 h)
  have hout : ((s.at t).clkinCount n).clkinOut ((s.at t).stamp t) true =
      ((s.at t).clkinCount n).setFld Fld.CLK_CLKIN_CFG_RATE_ERR 0 1 := by
    rw [State.clkinOut, if_pos]
    have hcl : ((s.at t).clkinCount n).clk.clkinAt = some l := by
      rw [← hl, ← State.at_clk s t]
      rfl
    rw [hcl]
    simpa using hfast
  rw [exec_clkinEdge ha hdue he hg, hn, hout]
  obtain ⟨hd, hon⟩ := State.done_onlyRegs (x := t) (but := [⟨.CLK_CLKIN_CFG, 0⟩])
    (t := ((s.at t).clkinCount n).setFld Fld.CLK_CLKIN_CFG_RATE_ERR 0 1)
    (.setFld (List.mem_singleton.2 rfl) (.of_eq rfl rfl (.refl _ _))) rfl
  exact ⟨_, hd, State.fld_setFld_of_lt _ _ _ (by decide) (by decide), State.at_tic _ _, hon⟩

/-- A delivered edge opens the measurement of a counter that waits for it. -/
theorem State.clkinOut_opens {x : Tu} {edge : Bool} {i : Nat} (hi : i < 32)
    (hrate : edge = true → ∀ l, s.clk.clkinAt = some l → 32768 ≤ 5 * tuDiff l x) (hl : s.ticLive i = true)
    (hstart : s.fld Fld.TIC_SRC_START i = 0x20) (hstop : s.fld Fld.TIC_SRC_STOP i ≠ 0x20) (hm : s.ticMode i < 4)
    (he : edgeTaken (s.fld Fld.TIC_CFG_START_EDGE i) true edge = true) (ho : (s.ticOf i).open_ = none)
    (hst : (s.ticOf i).starts = []) (hrun : tuLe (s.ticOf i).runAt x = true) (hrd : tuLe (s.ticOf i).ready x = true) :
    ((s.clkinOut x edge).ticOf i).open_ = some (⟨x, s.coasting, false⟩, edge) ∧ (s.clkinOut x edge).mem = s.mem := by
  have hslow : ¬ (edge && s.clk.clkinAt.any fun l => decide (5 * tuDiff l x < 32768)) = true := by
    intro hb
    rw [Bool.and_eq_true] at hb
    obtain ⟨hedge, hany⟩ := hb
    obtain ⟨l, hl', hlt⟩ := (Option.any_eq_true _ _).1 hany
    have := hrate hedge l hl'
    have := of_decide_eq_true hlt
    omega
  rw [State.clkinOut, if_neg hslow]
  obtain ⟨b, hb⟩ : ∃ b, b = if edge = true then { s with clk := { s.clk with clkinAt := some x } } else s := ⟨_, rfl⟩
  have hbk : TicKept i s b ∧ b.mem = s.mem := by
    rw [hb]
    cases edge <;> exact ⟨⟨rfl, fun _ _ _ _ => rfl, fun _ => rfl⟩, rfl⟩
  rw [← hb]
  obtain ⟨a, hsa, hak⟩ := b.ticAll_at 0x20 x true edge hi
  have hk := hbk.1.trans hsa
  have hco : a.coasting = s.coasting := by
    rw [State.coasting, State.coasting, State.fld_of_reg (hk.reg _ 0 rfl (.inl (by decide)))]
  have hat : a.ticOf i = s.ticOf i := hk.tic
  have hli := hk.live
  have hmeas : a.measuring i = true := by
    rw [← hli.1, State.ticLive, Bool.and_eq_true, Bool.and_eq_true] at hl
    exact hl.1.1
  have hsrc : a.ticSourceAt 0x20 x true edge false i = a.ticEdge i ⟨x, a.coasting, false⟩ true false true edge := by
    rw [State.ticSourceAt, hk.fld _ rfl, hk.fld _ rfl, hstart, hmeas, beq_false_of_ne hstop]
    rfl
  refine ⟨?_, (State.ticAll_only _ _ _ _ _).mem.trans hbk.2⟩
  rw [hak.tic, hsrc, hco, a.ticEdge_opens i _ edge (by rw [hli.2]; exact hm) (by rw [hk.fld _ rfl]; exact he)
    (by rw [hat]; exact ho) (by rw [hat]; exact hst) (by rw [hli.1]; exact hl) (by rw [hat]; exact hrun)
    (by rw [hat]; exact hrd)]

theorem clkinEdge_opens {t : Tu} {rise edge : Bool} {i : Nat} (ha : s.alive = true)
    (hdue : s.trigsDue ((s.at t).stamp t) = []) (hre : s.flag Fld.CLK_CLKIN_CFG_RATE_ERR 0 = false)
    (hg : s.gateOpen 29 = true) (h : prescaled s rise edge)
    (hrate : edge = true → ∀ l, s.clk.clkinAt = some l → 32768 ≤ 5 * tuDiff l ((s.at t).stamp t)) (hi : i < 32)
    (hl : s.ticLive i = true) (hstart : s.fld Fld.TIC_SRC_START i = 0x20) (hstop : s.fld Fld.TIC_SRC_STOP i ≠ 0x20)
    (hm : s.ticMode i < 4) (he : edgeTaken (s.fld Fld.TIC_CFG_START_EDGE i) true edge = true)
    (ho : (s.ticOf i).open_ = none) (hst : (s.ticOf i).starts = [])
    (hrun : tuLe (s.ticOf i).runAt ((s.at t).stamp t) = true) (hrd : tuLe (s.ticOf i).ready ((s.at t).stamp t) = true) :
    ∃ u, exec (.clkinEdge t rise) s = .next u ∧
      (u.ticOf i).open_ = some (⟨(s.at t).stamp t, s.coasting, false⟩, edge) ∧ sameMem s u := by
  obtain ⟨n, hn⟩ := State.clkinEdge_prescaled (x := (s.at t).stamp t) (prescaled_at (t := t) |>.2 h)
  have hk : TicKept i s ((s.at t).clkinCount n) :=
    ⟨State.at_ticOf _ _ _, fun _ _ _ _ => State.at_reg _ _ _ _, fun a => by rw [← State.at_mem s t]; rfl⟩
  have hat : ((s.at t).clkinCount n).ticOf i = s.ticOf i := hk.tic
  have hco : ((s.at t).clkinCount n).coasting = s.coasting := by
    rw [State.coasting, State.coasting, ← State.at_fld s t]
    rfl
  have hca : ((s.at t).clkinCount n).clk.clkinAt = s.clk.clkinAt := by
    rw [← State.at_clk s t]
    rfl
  obtain ⟨hopen, hmem⟩ := ((s.at t).clkinCount n).clkinOut_opens (x := (s.at t).stamp t) (edge := edge) hi
    (by rw [hca]; exact hrate) (by rw [hk.live.1]; exact hl) (by rw [hk.fld _ rfl]; exact hstart)
    (by rw [hk.fld _ rfl]; exact hstop) (by rw [hk.live.2]; exact hm) (by rw [hk.fld _ rfl]; exact he)
    (by rw [hat]; exact ho) (by rw [hat]; exact hst) (by rw [hat]; exact hrun) (by rw [hat]; exact hrd)
  obtain ⟨u, hu, hr⟩ := State.done_notes s (((s.at t).clkinCount n).clkinOut ((s.at t).stamp t) edge)
  refine ⟨u, ?_, ?_, fun a => ?_⟩
  · rw [exec_clkinEdge ha hdue hre hg, hn]
    exact hu
  · rw [State.ticOf_of_eq hr.tic, hopen, hco]
  · rw [hr.mem, hmem]
    exact hk.mem a

/-- Settles O35: a result of a counter shows its value, status and count and leaves everything else (`State.ticResult_results`);
an edge at the ball meets the counters one by one (`State.ticAll_at`), and a waiting one opens (`State.ticEdge_opens`). -/
theorem countersClose : Obligations.CountersClose := by
  unfold Obligations.CountersClose
  refine ⟨fun s i o r ha hdue hl ho => ⟨fun d hd hle => ticTimeout_ends i o r ha hdue hl ho d hd hle,
    fun x rest hst hdoom hle => ticWindowEnd_ends i o r ha hdue hl ho x rest hst hdoom hle,
    fun l hm hlast hed hle => ticGateEnd_ends i o l r ha hdue hl ho hm hlast hed hle⟩, ?_⟩
  intro s t rise ha hdue
  refine ⟨fun hc => clkinEdge_closed ha hdue hc, fun he hg => ⟨fun h => clkinEdge_counts ha hdue he hg h,
    fun l h hl hfast => clkinEdge_tooFast ha hdue he hg h hl hfast, ?_⟩⟩
  intro edge h hrate i hi hl hstart hstop hm hedge ho hst hrun hrd
  exact clkinEdge_opens ha hdue he hg h hrate hi hl hstart hstop hm hedge ho hst hrun hrd

end Sys2Proof.Machine
end

section
/-! SUPPORT. What work of the trigger engine leaves: fires, conditions and their targets (R182, R190 to R195). -/

namespace Sys2Proof.Machine

variable {s t u w : State} {but : List Reg} {srcs : List Nat} {g : Nat}

/-- The registers of counters and planes that a fire may change. -/
def fireNames : List RegName := ticEdgeNames ++ [.ACC_PLANE_STATUS]

/-- The registers of a generator that a condition may change. -/
def genNames : List RegName := [.TRG_GEN_CNT, .TRG_GEN_TTS_LO, .TRG_GEN_TTS_HI, .TRG_GEN_STATUS, .TRG_GEN_LOST]

/-- The sources that fires and conditions may raise: generators, clusters and counters. -/
def trigSrc (k : Nat) : Prop := (208 ≤ k ∧ k ≤ 223) ∨ (256 ≤ k ∧ k ≤ 259) ∨ 424 ≤ k

/-- `t` is `s` after work of the trigger engine in which generator `g` did not fire. -/
structure TrigWork (g : Nat) (s t : State) : Prop where
  reg : ∀ n k, eventReg n = false → n ∉ fireNames → n ∉ genNames ∨ k = g → t.reg n k = s.reg n k
  status : ∀ k, followsRaise k = false → ¬ trigSrc k → t.evtStatus k = s.evtStatus k
  gen : (t.gen g).from_ = (s.gen g).from_ ∧ (t.gen g).fired = (s.gen g).fired
  fires : ∀ m f, f ∈ (s.region m).fires → f ∈ (t.region m).fires
  rest : ∃ regs gens regions planes maskFire xtrigCycle fires tic inbound sram nextSeq logged deferred trigOut raises pba
      basecamp out free,
    t = { s with
      regs := regs, gens := gens, regions := regions, planes := planes, maskFire := maskFire, xtrigCycle := xtrigCycle
      tic := tic, trigOut := trigOut, out := out, free := free
      gln := { s.gln with fires := fires }
      dma := { s.dma with inbound := inbound }
      mgt := { s.mgt with sram := sram, nextSeq := nextSeq, logged := logged, deferred := deferred }
      evt := { s.evt with raises := raises, pba := pba, basecamp := basecamp } }

theorem TrigWork.refl (g : Nat) (s : State) : TrigWork g s s :=
  ⟨fun _ _ _ _ _ => rfl, fun _ _ _ => rfl, ⟨rfl, rfl⟩, fun _ _ h => h,
    _, _, _, _, _, _, _, _, _, _, _, _, _, _, _, _, _, _, _, rfl⟩

theorem TrigWork.trans (h : TrigWork g s t) (k : TrigWork g t u) : TrigWork g s u := by
  refine ⟨fun n i he hf hn => (k.reg n i he hf hn).trans (h.reg n i he hf hn),
    fun i hf hs => (k.status i hf hs).trans (h.status i hf hs), ⟨k.gen.1.trans h.gen.1, k.gen.2.trans h.gen.2⟩,
    fun m f hm => k.fires m f (h.fires m f hm), ?_⟩
  obtain ⟨_, _, _, _, _, _, _, _, _, _, _, _, _, _, _, _, _, _, _, rfl⟩ := h.rest
  obtain ⟨_, _, _, _, _, _, _, _, _, _, _, _, _, _, _, _, _, _, _, rfl⟩ := k.rest
  exact ⟨_, _, _, _, _, _, _, _, _, _, _, _, _, _, _, _, _, _, _, rfl⟩

theorem TrigWork.ite {c : Prop} [Decidable c] {a b : State} (ha : TrigWork g s a) (hb : TrigWork g s b) :
    TrigWork g s (if c then a else b) := by split <;> assumption

theorem TrigWork.mem (h : TrigWork g s t) : t.mem = s.mem := by
  obtain ⟨_, _, _, _, _, _, _, _, _, _, _, _, _, _, _, _, _, _, _, rfl⟩ := h.rest; rfl
theorem TrigWork.pitch (h : TrigWork g s t) : t.pitch = s.pitch := by
  obtain ⟨_, _, _, _, _, _, _, _, _, _, _, _, _, _, _, _, _, _, _, rfl⟩ := h.rest; rfl
theorem TrigWork.spll (h : TrigWork g s t) : t.spll = s.spll := by
  obtain ⟨_, _, _, _, _, _, _, _, _, _, _, _, _, _, _, _, _, _, _, rfl⟩ := h.rest; rfl
theorem TrigWork.comps (h : TrigWork g s t) : t.comps = s.comps := by
  obtain ⟨_, _, _, _, _, _, _, _, _, _, _, _, _, _, _, _, _, _, _, rfl⟩ := h.rest; rfl
theorem TrigWork.trigIn (h : TrigWork g s t) : t.trigIn = s.trigIn := by
  obtain ⟨_, _, _, _, _, _, _, _, _, _, _, _, _, _, _, _, _, _, _, rfl⟩ := h.rest; rfl
theorem TrigWork.time (h : TrigWork g s t) : t.time = s.time := by
  obtain ⟨_, _, _, _, _, _, _, _, _, _, _, _, _, _, _, _, _, _, _, rfl⟩ := h.rest; rfl
theorem TrigWork.fld (h : TrigWork g s t) (f : Fld) (i : Nat) (he : eventReg f.reg = false) (hf : f.reg ∉ fireNames)
    (hn : f.reg ∉ genNames ∨ i = g) : t.fld f i = s.fld f i := State.fld_of_reg (h.reg _ _ he hf hn)
theorem TrigWork.hasRegion (h : TrigWork g s t) (m : Nat) : t.hasRegion m = s.hasRegion m := by
  rw [State.hasRegion, State.hasRegion, h.pitch]

theorem State.gen_of_eq (h : t.gens = s.gens) (k : Nat) : t.gen k = s.gen k := by rw [State.gen, h]; rfl

theorem State.gen_modGen (s : State) (k : Nat) (f : Gen → Gen) : (s.modGen k f).gen k = f (s.gen k) :=
  tget_tmod_same _ _ _ _

theorem State.gen_modGen_ne (s : State) {k j : Nat} (f : Gen → Gen) (h : j ≠ k) : (s.modGen k f).gen j = s.gen j :=
  tget_tmod_other _ _ _ h

/-! ### The parts -/

theorem Raises.trigWork {ns : List Nat} (h : Raises s t ns) (hn : ∀ k ∈ ns, trigSrc k ∨ followsRaise k = true) :
    TrigWork g s t := by
  refine ⟨fun n i he _ _ => h.reg n i he, fun k hf hs => ?_, ?_, fun m f hm => ?_, ?_⟩
  · refine (h.src k fun hk => ?_).1
    rcases hn k hk with h' | h'
    · exact hs h'
    · rw [hf] at h'
      cases h'
  · have hg : t.gens = s.gens := by
      obtain ⟨_, _, _, _, _, _, _, _, _, _, _, rfl⟩ := h.rest; rfl
    rw [State.gen_of_eq hg g]
    exact ⟨rfl, rfl⟩
  · rw [State.region_of_eq h.regions]
    exact hm
  · obtain ⟨_, _, _, _, _, _, _, _, _, _, _, rfl⟩ := h.rest
    exact ⟨_, _, _, _, _, _, _, _, _, _, _, _, _, _, _, _, _, _, _, rfl⟩

theorem Raises.notes_trigWork (h : Raises s t noteSrcs) : TrigWork g s t :=
  h.trigWork fun k hk => .inr (by
    simp only [noteSrcs, List.mem_cons, List.not_mem_nil, or_false] at hk
    rcases hk with rfl | rfl | rfl | rfl | rfl <;> rfl)

theorem TicOnly.trigWork (h : TicOnly s t) : TrigWork g s t := by
  have hreg : t.regions = s.regions ∧ t.gens = s.gens := by
    obtain ⟨_, _, _, _, _, _, _, _, _, _, _, _, _, rfl⟩ := h.rest
    exact ⟨rfl, rfl⟩
  refine ⟨fun n i he hf _ => h.reg n i he fun hm => hf (List.mem_append_left _ hm), fun k hf hs => h.status k ?_ hf, ?_,
    fun m f hm => ?_, ?_⟩
  · exact Nat.lt_of_not_le fun hk => hs (.inr (.inr hk))
  · rw [State.gen_of_eq hreg.2]
    exact ⟨rfl, rfl⟩
  · rw [State.region_of_eq hreg.1]
    exact hm
  · obtain ⟨_, _, _, _, _, _, _, _, _, _, _, _, _, rfl⟩ := h.rest
    exact ⟨_, _, _, _, _, _, _, _, _, _, _, _, _, _, _, _, _, _, _, rfl⟩

/-- A register of a plane's status, or one of another generator, is written. -/
theorem State.setReg_trigWork (s : State) (n : RegName) (i : Nat) (v : Word)
    (hn : n ∈ fireNames ∨ (n ∈ genNames ∧ i ≠ g)) : TrigWork g s (s.setReg n i v) := by
  have he : ∀ n ∈ fireNames ++ genNames, eventReg n = false := by decide
  have hen : eventReg n = false := he n (List.mem_append.2 (hn.imp_right (·.1)))
  have hon : onlyRaising s (s.setReg n i v) [⟨n, i⟩] [] := .setReg (List.mem_singleton.2 rfl) hen (.refl _ _ _)
  refine ⟨fun n' k he' hf hg => hon.1 n' k (fun hm => ?_) he', fun k hf _ => hon.evtStatus List.not_mem_nil hf,
    ⟨rfl, rfl⟩, fun _ _ h => h, _, _, _, _, _, _, _, _, _, _, _, _, _, _, _, _, _, _, _, rfl⟩
  obtain ⟨rfl, rfl⟩ := Reg.mk.inj (List.mem_singleton.1 hm)
  rcases hn with hn | ⟨hn, hi⟩
  · exact hf hn
  · rcases hg with hg | hg
    · exact hg hn
    · exact hi hg

theorem State.setFld_trigWork (s : State) (f : Fld) (i x : Nat)
    (hn : f.reg ∈ fireNames ∨ (f.reg ∈ genNames ∧ i ≠ g)) : TrigWork g s (s.setFld f i x) :=
  s.setReg_trigWork _ _ _ hn

theorem State.bump_trigWork (s : State) (f : Fld) (i x : Nat)
    (hn : f.reg ∈ fireNames ∨ (f.reg ∈ genNames ∧ i ≠ g)) : TrigWork g s (s.bump f i x) :=
  s.setReg_trigWork _ _ _ hn

/-- A generator's record changes; that of `g` in nothing that a later condition reads. -/
theorem State.modGen_trigWork (s : State) (k : Nat) (f : Gen → Gen)
    (h : k = g → (f (s.gen g)).from_ = (s.gen g).from_ ∧ (f (s.gen g)).fired = (s.gen g).fired) :
    TrigWork g s (s.modGen k f) := by
  refine ⟨fun _ _ _ _ _ => rfl, fun _ _ _ => rfl, ?_, fun _ _ h => h,
    _, _, _, _, _, _, _, _, _, _, _, _, _, _, _, _, _, _, _, rfl⟩
  rcases eq_or_ne k g with rfl | hk
  · rw [State.gen_modGen]
    exact h rfl
  · rw [State.gen_modGen_ne _ _ (Ne.symm hk)]
    exact ⟨rfl, rfl⟩

/-! ### Where a fire goes -/

theorem mem_fireIns {f x : Fire} : ∀ l : List Fire, f ∈ fireIns l x ↔ f = x ∨ f ∈ l
  | [] => by simp [fireIns]
  | y :: l => by
    rw [fireIns]
    split
    · simp
    · rw [List.mem_cons, List.mem_cons, mem_fireIns l]
      exact or_left_comm

/-- A fire reaches a region: what waits there waits on. -/
theorem State.fireRegion_trigWork (s : State) (m : Nat) (f : Fire) :
    TrigWork g s (s.modRegion m fun r => { r with fires := fireIns r.fires f }) := by
  refine ⟨fun _ _ _ _ _ => rfl, fun _ _ _ => rfl, ⟨rfl, rfl⟩, fun k x hx => ?_,
    _, _, _, _, _, _, _, _, _, _, _, _, _, _, _, _, _, _, _, rfl⟩
  rcases eq_or_ne k m with rfl | hk
  · rw [State.region_modRegion]
    exact (mem_fireIns _).2 (.inr hx)
  · rw [State.region_modRegion_ne _ _ hk]
    exact hx

/-- A fire at one region of its mask. -/
def State.fireRegion (s : State) (f : Fire) (m : Nat) : State :=
  if s.hasRegion m then s.modRegion m fun r => { r with fires := fireIns r.fires f } else s

theorem State.fireRegions_eq (s : State) (mask : Nat) (f : Fire) :
    s.fireRegions mask f = (bitsOf 32 mask).foldl (fun s m => s.fireRegion f m) s := rfl

theorem State.fireRegion_work (s : State) (f : Fire) (m : Nat) : TrigWork g s (s.fireRegion f m) := by
  unfold State.fireRegion
  split
  · exact s.fireRegion_trigWork m f
  · exact .refl _ _

theorem State.fireRegions_work (s : State) (mask : Nat) (f : Fire) : TrigWork g s (s.fireRegions mask f) :=
  foldl_rel (TrigWork.refl g) TrigWork.trans (fun a m => a.fireRegion_work f m) _ _

/-- The fire waits at every region of its mask. -/
theorem State.fireRegions_mem (s : State) {mask m : Nat} (f : Fire) (hm : m < 32) (hb : mask.testBit m = true)
    (hr : s.hasRegion m = true) : f ∈ ((s.fireRegions mask f).region m).fires := by
  obtain ⟨a, hsa, hau⟩ := foldl_between (TrigWork.refl 16) TrigWork.trans
    (fun (a : State) k (_ : k ≠ m) => a.fireRegion_work f k) (bitsOf 32 mask) s
    (List.Nodup.filter _ List.nodup_range) (mem_bitsOf.2 ⟨hm, hb⟩)
  refine hau.fires m f ?_
  rw [State.fireRegion, if_pos (by rw [hsa.hasRegion]; exact hr), State.region_modRegion]
  exact (mem_fireIns _).2 (.inl rfl)

theorem State.emit_trigWork (s : State) (o : Out) : TrigWork g s (s.emit o) :=
  ⟨fun _ _ _ _ _ => rfl, fun _ _ _ => rfl, ⟨rfl, rfl⟩, fun _ _ h => h,
    _, _, _, _, _, _, _, _, _, _, _, _, _, _, _, _, _, _, _, rfl⟩

theorem State.tlkSend_work (s : State) (m : BitVec 64) : TrigWork g s (s.tlkSend m) := by
  unfold State.tlkSend
  split
  · exact s.emit_trigWork _
  · exact .refl _ _

theorem State.addPulse_work (s : State) (i : Nat) (edge : Tu) : TrigWork g s (s.addPulse i edge) := by
  rw [State.addPulse]
  split
  · exact ⟨fun _ _ _ _ _ => rfl, fun _ _ _ => rfl, ⟨rfl, rfl⟩, fun _ _ h => h,
      _, _, _, _, _, _, _, _, _, _, _, _, _, _, _, _, _, _, _, rfl⟩
  · refine ⟨fun n k he _ _ => ?_, fun k _ _ => ?_, ⟨rfl, rfl⟩, fun _ _ h => h,
      _, _, _, _, _, _, _, _, _, _, _, _, _, _, _, _, _, _, _, rfl⟩
    · refine State.reg_setReg_other _ _ _ _ fun h => ?_
      rw [h.1] at he
      cases he
    · have hr : (s.bump Fld.HUB_TRIG_OUT_MERGED_COUNT i 1).reg .EVT_STATUS (k / 32) = s.reg .EVT_STATUS (k / 32) :=
        State.reg_setReg_other _ _ _ _ fun h => nomatch h.1
      rw [State.evtStatus, hr]
      rfl

theorem State.fireOut_work (s : State) (mask typ n : Nat) (tts : Tu) : TrigWork g s (s.fireOut mask typ n tts) := by
  have hpulses : TrigWork g s ((bitsOf 4 mask).foldl (fun s i =>
      if s.flag Fld.HUB_TRIG_OUT_CFG_EN i then s.firePulse i tts else s) s) :=
    foldl_rel (TrigWork.refl g) TrigWork.trans (fun a i => by
      split
      · exact a.addPulse_work i _
      · exact .refl _ _) _ _
  rw [State.fireOut]
  split
  · exact hpulses.trans (State.tlkSend_work _ _)
  · exact hpulses

theorem State.xfire_work (s : State) (x : Nat) (tts : Tu) : TrigWork g s (s.xfire x tts) :=
  (s.fireRegions_work _ _).trans (State.fireOut_work _ _ _ _ _)

theorem State.ticSource_work (s : State) (c code : Nat) (t : Tu) (polar rise stale : Bool) :
    TrigWork g s (s.ticSource c code t polar rise stale) := (s.ticSource_only c code t polar rise stale).trigWork

/-- A plane has one more time reference. -/
def State.addRef (s : State) (p : Nat) (refs : List Tu) : State :=
  { s with planes := tput Plane.init s.planes p { tget Plane.init s.planes p with refs := refs } }

theorem State.addRef_work (s : State) (p : Nat) (refs : List Tu) : TrigWork g s (s.addRef p refs) :=
  ⟨fun _ _ _ _ _ => rfl, fun _ _ _ => rfl, ⟨rfl, rfl⟩, fun _ _ h => h,
    _, _, _, _, _, _, _, _, _, _, _, _, _, _, _, _, _, _, _, rfl⟩

theorem State.accRef_work (s : State) (k : Nat) (tts : Tu) : TrigWork g s (s.accRef k tts) := by
  refine foldl_rel (TrigWork.refl g) TrigWork.trans (fun a i => ?_) _ _
  exact .ite (.refl _ _) (.ite (.refl _ _)
    ((a.addRef_work _ _).trans (State.setFld_trigWork _ Fld.ACC_PLANE_STATUS_NOREF _ _ (.inl (by decide)))))

end Sys2Proof.Machine
end

section
/-! Planes count samples, masks judge them, snapshots copy planes (R261 to R273). -/

namespace Sys2Proof.Machine

variable {s o t u w : State} {but : List Reg} {srcs : List Nat} {p b : Nat} {T : Ratio} {x y : Sample}

/-! ### Placing a sample -/

/-- A sample that an enabled plane's stride takes: it is excluded, outside, or in a bin. -/
theorem State.placeSample_taken {j : Int} (ho : o = s.asOf T) (hp : o.hasPlane p = true)
    (hen : o.flag Fld.ACC_PLANE_CFG_EN p = true) (hj : j % (o.stride (p / 4) : Nat) = 0) :
    s.placeSample p j T y = if o.excluded p y = true then s.bump Fld.ACC_PLANE_EXCL_COUNT p 1 else
      match o.binOf p T y with
      | none => s.bump Fld.ACC_PLANE_OUTSIDE_COUNT p 1
      | some b => if s.beforeClear p T = true then s.snapLate p b T else (s.snapLate p b T).countBin p b := by
  rw [State.placeSample, ← ho, hp, hen, hj]
  exact if_neg Bool.false_ne_true

theorem exec_samplePlacement {st : State} {t : Tu} {p : Fin 16} {j : Int} (ha : st.alive = true)
    (hdue : st.trigsDue (st.at t).time = []) (hc : st.clusterAsleep (p / 4) = false)
    (hT : T = (st.at t).planeInstant p j) (hr : (st.at t).reached T = true) (hy : y = (st.at t).planeSample p T x) :
    exec (.samplePlacement t p j x) st = st.done ((st.at t).placeSample p j T y) := by
  rw [exec, execSamplePlacement, State.when_eq ha]
  dsimp only
  rw [State.placeTrigs_none (by rw [State.at_trigsDue]; exact hdue), ← hT, State.at_clusterAsleep, hc, hr,
    if_neg (by decide), hy]

theorem State.snapLate_only (s : State) (p b : Nat) (T : Ratio) : onlyRegs s (s.snapLate p b T) but :=
  .of_eq rfl rfl (.refl _ _)

theorem State.pair_at (s : State) (t : Tu) (lo hi : RegName) (i : Nat) : (s.at t).pair lo hi i = s.pair lo hi i := by
  rw [State.pair, State.at_reg, State.at_reg]
  rfl

theorem State.bin_at (s : State) (t : Tu) (p b : Nat) : (s.at t).bin p b = s.bin p b := by
  rw [State.bin, State.at_bins]
  rfl

theorem State.beforeClear_at (s : State) (t : Tu) (p : Nat) (T : Ratio) : (s.at t).beforeClear p T = s.beforeClear p T := by
  rw [State.beforeClear, State.at_planes]
  rfl

/-- A sample is counted in its bin, that is not full, and in TOTAL. -/
theorem State.countBin_counts (s : State) (p b : Nat) (h : s.bin p b < 0xFFFFFFFF) :
    (s.countBin p b).bin p b = s.bin p b + 1 ∧ (∀ b', b' ≠ b → (s.countBin p b).bin p b' = s.bin p b') ∧
      (s.countBin p b).pair .ACC_PLANE_TOTAL_LO .ACC_PLANE_TOTAL_HI p =
        s.pair .ACC_PLANE_TOTAL_LO .ACC_PLANE_TOTAL_HI p + 1 ∧
      onlyRegs s (s.countBin p b) [⟨.ACC_PLANE_TOTAL_LO, p⟩, ⟨.ACC_PLANE_TOTAL_HI, p⟩] := by
  obtain ⟨a, ha⟩ : ∃ a, a = s.setPair .ACC_PLANE_TOTAL_LO .ACC_PLANE_TOTAL_HI p
    (s.pair .ACC_PLANE_TOTAL_LO .ACC_PLANE_TOTAL_HI p + 1) := ⟨_, rfl⟩
  have hc : s.countBin p b = { a with bins := tput 0 a.bins (131072 * p + b) (s.bin p b + 1) } := by
    rw [State.countBin, ← ha]
    exact if_neg (by omega)
  have hab : a.bins = s.bins := by rw [ha]; rfl
  rw [hc]
  refine ⟨?_, fun b' hb => ?_, ?_, ?_⟩
  · rw [State.bin, tget_tput_same]
  · rw [State.bin, tget_tput_other _ _ _ (by omega), hab]
    rfl
  · change a.pair _ _ _ = _
    rw [ha, State.pair_setPair _ _ _ (by decide)]
  · refine .of_eq rfl rfl ?_
    rw [ha]
    exact .setReg (by simp) (.setReg (by simp) (.refl _ _))

/-- A full bin stays, and SAT tells it. -/
theorem State.countBin_full (s : State) (p b : Nat) (h : s.bin p b = 0xFFFFFFFF) :
    (s.countBin p b).bins = s.bins ∧ (s.countBin p b).fld Fld.ACC_PLANE_STATUS_SAT p = 1 ∧
      onlyRegs s (s.countBin p b) [⟨.ACC_PLANE_TOTAL_LO, p⟩, ⟨.ACC_PLANE_TOTAL_HI, p⟩, ⟨.ACC_PLANE_STATUS, p⟩] := by
  have hc : s.countBin p b = (s.setPair .ACC_PLANE_TOTAL_LO .ACC_PLANE_TOTAL_HI p
      (s.pair .ACC_PLANE_TOTAL_LO .ACC_PLANE_TOTAL_HI p + 1)).setFld Fld.ACC_PLANE_STATUS_SAT p 1 := if_pos h
  rw [hc]
  exact ⟨rfl, State.fld_setFld_of_lt _ _ _ (by decide) (by decide),
    .setFld (by simp) (.setReg (by simp) (.setReg (by simp) (.refl _ _)))⟩

/-- A sample without a bin is counted. -/
theorem samplePlacement_counts {st : State} {t : Tu} {p : Fin 16} {j : Int} (f : Fld) (he : noEventReg [⟨f.reg, p⟩] = true)
    (hw : f.lsb + f.width ≤ 32) (hlt : st.fld f p < 2 ^ f.width - 1)
    (hex : exec (.samplePlacement t p j x) st = st.done ((st.at t).bump f p 1)) :
    ∃ u, exec (.samplePlacement t p j x) st = .next u ∧ u.bins = st.bins ∧ u.fld f p = st.fld f p + 1 ∧
      onlyRegs st u [⟨f.reg, p⟩] := by
  obtain ⟨hd, hon⟩ := State.done_onlyRegs (x := t) (t := (st.at t).bump f p 1) (but := [⟨f.reg, p⟩])
    (.bump (List.mem_singleton.2 rfl) (.refl _ _)) he
  refine ⟨_, hex.trans hd, State.at_bins _ _, ?_, hon⟩
  rw [State.fld_bump_lt _ _ _ hw (by rw [State.at_fld]; exact hlt), State.at_fld]

theorem samplesArePlaced_holds : samplesArePlaced := by
  unfold samplesArePlaced
  intro s o t T p j x y ha hdue hc hT hr ho hy hp hen hj
  have hex := (exec_samplePlacement ha hdue hc hT hr hy).trans
    (congrArg s.done (State.placeSample_taken (y := y) ho hp hen hj))
  refine ⟨fun b hx hb hclr hlt => ?_, fun b hx hb hclr hfull => ?_, fun b hx hb hclr => ?_, fun hx hb hlt => ?_,
    fun hx hlt => ?_⟩
  · rw [if_neg (by rw [hx]; exact Bool.false_ne_true), hb] at hex
    dsimp only at hex
    rw [State.beforeClear_at, hclr, if_neg Bool.false_ne_true] at hex
    have hbin : ∀ b, ((s.at t).snapLate p b T).bin p b = s.bin p b := fun b => State.bin_at s t p b
    obtain ⟨h1, h2, h3, h4⟩ := ((s.at t).snapLate p b T).countBin_counts p b (by rw [hbin]; exact hlt)
    obtain ⟨hd, hon⟩ := State.done_onlyRegs (x := t) (((s.at t).snapLate_only p b T).trans h4) rfl
    refine ⟨_, hex.trans hd, h1.trans (by rw [hbin]), fun b' hb' => (h2 b' hb').trans (State.bin_at s t p b'), ?_, hon⟩
    rw [h3]
    exact congrArg (· + 1) (State.pair_at s t _ _ _)
  · rw [if_neg (by rw [hx]; exact Bool.false_ne_true), hb] at hex
    dsimp only at hex
    rw [State.beforeClear_at, hclr, if_neg Bool.false_ne_true] at hex
    obtain ⟨h1, h2, h3⟩ := ((s.at t).snapLate p b T).countBin_full p b ((State.bin_at s t p b).trans hfull)
    obtain ⟨hd, hon⟩ := State.done_onlyRegs (x := t) (((s.at t).snapLate_only p b T).trans h3) rfl
    exact ⟨_, hex.trans hd, h1.trans (State.at_bins s t), h2, hon⟩
  · rw [if_neg (by rw [hx]; exact Bool.false_ne_true), hb] at hex
    dsimp only at hex
    rw [State.beforeClear_at, hclr, if_pos rfl] at hex
    obtain ⟨hd, hon⟩ := State.done_onlyRegs (x := t) (but := []) ((s.at t).snapLate_only p b T) rfl
    exact ⟨_, hex.trans hd, State.at_bins s t, hon⟩
  · rw [if_neg (by rw [hx]; exact Bool.false_ne_true), hb] at hex
    exact samplePlacement_counts Fld.ACC_PLANE_OUTSIDE_COUNT rfl (by decide) hlt hex
  · rw [if_pos hx] at hex
    exact samplePlacement_counts Fld.ACC_PLANE_EXCL_COUNT rfl (by decide) hlt hex

/-! ### Masks -/

/-- The registers of a violation. -/
def violRegs (k : Nat) : List Reg := [⟨.ACC_VIOL_CNT, k⟩, ⟨.ACC_VIOL_FIRST_LO, k⟩, ⟨.ACC_VIOL_FIRST_HI, k⟩]

/-- A violation is counted, and the first one leaves its time. -/
def State.violNoted (s : State) (k : Nat) (tts : Tu) : State :=
  if s.fld Fld.ACC_VIOL_CNT_COUNT k = 0 then
    (s.bump Fld.ACC_VIOL_CNT_COUNT k 1).setPair .ACC_VIOL_FIRST_LO .ACC_VIOL_FIRST_HI k tts
  else s.bump Fld.ACC_VIOL_CNT_COUNT k 1

/-- What a violation does besides: it triggers, or stops regions. -/
def State.violActs (s : State) (k action mask : Nat) (tts : Tu) : State :=
  if action = 1 then s.maskTrigger k tts
  else if action = 2 then s.fireRegions mask ⟨tts, 16 + 9 + k / 8, true⟩
  else if action = 3 then s.fireRegions (2 ^ 32 - 1) ⟨tts, 16 + 9 + k / 8, true⟩
  else s

/-- The sample violates the mask. -/
def State.violates (o : State) (k : Nat) (T : Ratio) (x : Sample) : Bool :=
  o.hasMask k && o.flag Fld.ACC_MASK_CFG_EN k && o.hasPlane (o.maskPlane k) && !o.excluded (o.maskPlane k) x &&
    (o.binOf (o.maskPlane k) T x).any fun b => o.marked k b

theorem State.violation_eq (s : State) (k : Nat) (T : Ratio) (x : Sample) :
    s.violation k T x = if !(s.asOf T).violates k T x then s else
      (s.violNoted k T.tu).violActs k ((s.asOf T).fld Fld.ACC_MASK_CFG_ACTION k)
        (recFld s.pitch.recs 4 (9 + k / 8) 0 4 0) T.tu := rfl

theorem State.violNoted_reads (s : State) (k : Nat) (tts : Tu) (h : s.fld Fld.ACC_VIOL_CNT_COUNT k < 2 ^ 32 - 1) :
    (s.violNoted k tts).fld Fld.ACC_VIOL_CNT_COUNT k = s.fld Fld.ACC_VIOL_CNT_COUNT k + 1 ∧
      (s.fld Fld.ACC_VIOL_CNT_COUNT k = 0 → (s.violNoted k tts).pair .ACC_VIOL_FIRST_LO .ACC_VIOL_FIRST_HI k = tts) ∧
      (s.violNoted k tts).pitch = s.pitch ∧ onlyRegs s (s.violNoted k tts) (violRegs k) := by
  have hb : onlyRegs s (s.bump Fld.ACC_VIOL_CNT_COUNT k 1) (violRegs k) := .bump (by simp [violRegs]) (.refl _ _)
  have hf := s.fld_bump_lt Fld.ACC_VIOL_CNT_COUNT k (by decide) h
  unfold State.violNoted
  split
  · refine ⟨?_, fun _ => State.pair_setPair _ _ _ (by decide), rfl, .setReg (by simp [violRegs]) (.setReg (by simp [violRegs]) hb)⟩
    rw [← hf]
    exact (State.fld_setReg_ne _ _ _ _ Fld.ACC_VIOL_CNT_COUNT _ (by decide)).trans
      (State.fld_setReg_ne _ _ _ _ Fld.ACC_VIOL_CNT_COUNT _ (by decide))
  · next h0 => exact ⟨hf, fun h => absurd h h0, rfl, hb⟩

theorem State.maskTrigger_work (s : State) (k : Nat) (tts : Tu) : TrigWork 16 s (s.maskTrigger k tts) := by
  rw [State.maskTrigger]
  refine .ite (.refl _ _) ?_
  have hm : TrigWork 16 s { s with maskFire := tins s.maskFire k tts, xtrigCycle := tins s.xtrigCycle (k / 8) tts } :=
    ⟨fun _ _ _ _ _ => rfl, fun _ _ _ => rfl, ⟨rfl, rfl⟩, fun _ _ h => h,
      _, _, _, _, _, _, _, _, _, _, _, _, _, _, _, _, _, _, _, rfl⟩
  exact (hm.trans (State.xfire_work _ _ _)).trans (State.ticSource_work _ _ _ _ _ _ _)

theorem State.violActs_work (s : State) (k action mask : Nat) (tts : Tu) : TrigWork 16 s (s.violActs k action mask tts) :=
  .ite (s.maskTrigger_work k tts) (.ite (s.fireRegions_work _ _) (.ite (s.fireRegions_work _ _) (.refl _ _)))

theorem State.fireRegions_only (s : State) (mask : Nat) (f : Fire) : onlyRegs s (s.fireRegions mask f) but :=
  .foldl _ (fun _ _ _ h => .ite (.of_eq rfl rfl h) h) (.refl _ _)

theorem exec_maskViolation {st o : State} {t : Tu} {k : Fin 32} {j : Int} (ha : st.alive = true)
    (hc : st.clusterAsleep (k / 8) = false) (hdue : st.trigsDue (st.at t).time = [])
    (hT : T = (st.at t).planeInstant (4 * (k / 8)) j) (hr : (st.at t).reached T = true) (ho : o = (st.at t).asOf T)
    (hy : y = (st.at t).planeSample (o.maskPlane k) T x) :
    exec (.maskViolation t k j x) st = st.done ((st.at t).violation k T y) := by
  rw [exec, execMaskViolation, State.when_eq ha]
  dsimp only
  rw [State.placeTrigs_none (by rw [State.at_trigsDue]; exact hdue), ← hT, State.at_clusterAsleep, hc, hr,
    if_neg (by decide), hy, ho]

/-- A mask that marks the sample's bin is violated. -/
theorem State.violates_of {o : State} {k b : Nat} (hm : o.hasMask k = true) (hen : o.flag Fld.ACC_MASK_CFG_EN k = true)
    (hp : o.hasPlane (o.maskPlane k) = true) (hx : o.excluded (o.maskPlane k) y = false)
    (hb : o.binOf (o.maskPlane k) T y = some b) : o.violates k T y = o.marked k b := by
  rw [State.violates, hm, hen, hp, hx, hb]
  rfl

theorem masksAct (s o : State) (t : Tu) (T : Ratio) (k : Fin 32) (j : Int) (x y : Sample) (b : Nat) (ha : s.alive = true)
    (hc : s.clusterAsleep (k / 8) = false) (hdue : s.trigsDue (s.at t).time = [])
    (hT : T = (s.at t).planeInstant (4 * (k / 8)) j) (hr : (s.at t).reached T = true) (ho : o = (s.at t).asOf T)
    (hy : y = (s.at t).planeSample (o.maskPlane k) T x) (hm : o.hasMask k = true)
    (hen : o.flag Fld.ACC_MASK_CFG_EN k = true) (hp : o.hasPlane (o.maskPlane k) = true)
    (hx : o.excluded (o.maskPlane k) y = false) (hb : o.binOf (o.maskPlane k) T y = some b) :
    (o.marked k b = true → s.fld Fld.ACC_VIOL_CNT_COUNT k < 2 ^ 32 - 1 →
      ∃ u, exec (.maskViolation t k j x) s = .next u ∧
        u.fld Fld.ACC_VIOL_CNT_COUNT k = s.fld Fld.ACC_VIOL_CNT_COUNT k + 1 ∧
        (s.fld Fld.ACC_VIOL_CNT_COUNT k = 0 → u.pair .ACC_VIOL_FIRST_LO .ACC_VIOL_FIRST_HI k = T.tu) ∧
        (o.fld Fld.ACC_MASK_CFG_ACTION k = 3 → ∀ m, m < 32 → s.hasRegion m = true →
          (⟨T.tu, 25 + k / 8, true⟩ : Fire) ∈ (u.region m).fires) ∧
        (o.fld Fld.ACC_MASK_CFG_ACTION k = 2 → ∀ m, m < 32 → s.hasRegion m = true →
          (recFld s.pitch.recs 4 (9 + k / 8) 0 4 0).testBit m = true →
          (⟨T.tu, 25 + k / 8, true⟩ : Fire) ∈ (u.region m).fires) ∧
        (o.fld Fld.ACC_MASK_CFG_ACTION k ≠ 1 →
          onlyRegs s u [⟨.ACC_VIOL_CNT, k⟩, ⟨.ACC_VIOL_FIRST_LO, k⟩, ⟨.ACC_VIOL_FIRST_HI, k⟩]) ∧ sameMem s u) ∧
    (o.marked k b = false → ∃ u, exec (.maskViolation t k j x) s = .next u ∧ onlyRegs s u []) := by
  have hex := (exec_maskViolation ha hc hdue hT hr ho hy).trans (congrArg s.done (State.violation_eq _ _ _ _))
  rw [← ho, State.violates_of hm hen hp hx hb] at hex
  refine ⟨fun hmark hlt => ?_, fun hmark => ?_⟩
  · rw [hmark, if_neg (by decide), State.at_pitch] at hex
    obtain ⟨a, haeq⟩ : ∃ a, a = (s.at t).violNoted k T.tu := ⟨_, rfl⟩
    obtain ⟨hcnt, hfirst, hpitch, hon⟩ := (s.at t).violNoted_reads k T.tu (by rw [State.at_fld]; exact hlt)
    rw [← haeq] at hcnt hfirst hpitch hon hex
    have hreg : ∀ m, a.hasRegion m = s.hasRegion m := fun m => by
      rw [State.hasRegion, hpitch, State.at_pitch]
      rfl
    obtain ⟨c, hceq⟩ : ∃ c, c = a.violActs k (o.fld Fld.ACC_MASK_CFG_ACTION k)
      (recFld s.pitch.recs 4 (9 + k / 8) 0 4 0) T.tu := ⟨_, rfl⟩
    have hw : TrigWork 16 a c := hceq ▸ a.violActs_work _ _ _ _
    rw [← hceq] at hex
    obtain ⟨u, hu, hru⟩ := State.done_notes s c
    have hwu : TrigWork 16 a u := hw.trans hru.notes_trigWork
    refine ⟨u, hex.trans hu, ?_, fun h0 => ?_, fun h3 m hm hrm => ?_, fun h2 m hm hrm hbit => ?_, fun h1 => ?_, fun e => ?_⟩
    · rw [hwu.fld _ _ rfl (by decide) (.inl (by decide)), hcnt, State.at_fld]
    · rw [State.pair, hwu.reg _ _ rfl (by decide) (.inl (by decide)), hwu.reg _ _ rfl (by decide) (.inl (by decide))]
      exact hfirst (by rw [State.at_fld]; exact h0)
    · refine (hru.notes_trigWork (g := 16)).fires _ _ ?_
      rw [hceq, h3]
      exact State.fireRegions_mem _ _ hm (by rw [Nat.testBit_two_pow_sub_one, decide_eq_true hm]) ((hreg m).trans hrm)
    · refine (hru.notes_trigWork (g := 16)).fires _ _ ?_
      rw [hceq, h2]
      exact State.fireRegions_mem _ _ hm hbit ((hreg m).trans hrm)
    · have hac : onlyRegs a c (violRegs k) := by
        rw [hceq, State.violActs, if_neg h1]
        exact .ite (State.fireRegions_only _ _ _) (.ite (State.fireRegions_only _ _ _) (.refl _ _))
      obtain ⟨hd, hsu⟩ := State.done_onlyRegs (x := t) (hon.trans hac) rfl
      obtain rfl : u = c := by simpa using hu.symm.trans hd
      exact hsu
    · rw [hwu.mem, hon.2 e, State.at_mem]
  · rw [hmark, if_pos (by decide)] at hex
    obtain ⟨hd, hon⟩ := State.done_onlyRegs (x := t) (.refl (s.at t) []) rfl
    exact ⟨_, hex.trans hd, hon⟩

/-! ### Snapshots -/

theorem accSnapshotDone_stored (s : State) (t : Tu) (c : Fin 4) (w : Snap) (ha : s.alive = true)
    (hw : s.snaps.find? (fun e => e.1 == c.val) = some (c.val, w)) (hst : s.fld Fld.ACC_SNAP_STATUS_STATE c = 2)
    (hr : (s.at t).reached (.ofTu w.at_) = true) :
    ∃ u, exec (.accSnapshotDone t c) s = .next u ∧ u.fld Fld.ACC_SNAP_STATUS_STATE c = 3 ∧
      memRead u.mem (c / 2 * stackSpan + w.addr) w.bytes.length = w.bytes ∧
      (∀ a, a < c / 2 * stackSpan + w.addr ∨ c / 2 * stackSpan + w.addr + w.bytes.length ≤ a →
        memGet u.mem a = memGet s.mem a) ∧ sameRegs s u [⟨.ACC_SNAP_STATUS, c⟩] := by
  obtain ⟨a, haeq⟩ : ∃ a, a = { s.at t with
    mem := memPutAll (s.at t).mem (c / 2 * stackSpan + w.addr) w.bytes,
    snaps := s.snaps.filter fun e => e.1 != c.val } := ⟨_, rfl⟩
  have hex : exec (.accSnapshotDone t c) s = s.done (a.setFld Fld.ACC_SNAP_STATUS_STATE c 3) := by
    rw [exec, execAccSnapshotDone, State.when_eq ha]
    rw [State.at_snaps, hw]
    dsimp only
    rw [State.at_fld, if_pos ⟨hst, hr⟩, haeq]
  have hmem : a.mem = memPutAll s.mem (c / 2 * stackSpan + w.addr) w.bytes := by
    rw [haeq, ← State.at_mem s t]
  have hsame : sameRegs s (a.setFld Fld.ACC_SNAP_STATUS_STATE c 3) [⟨.ACC_SNAP_STATUS, c⟩] := by
    intro n i hn
    rw [State.setFld, State.reg_setReg_other _ _ _ _ (fun h => hn (by
      rw [h.1, h.2]
      exact List.mem_singleton.2 rfl)), haeq, ← State.at_reg s t]
    rfl
  refine ⟨_, hex.trans (State.done_of_sameRegs hsame rfl), State.fld_setFld_of_lt _ _ _ (by decide) (by decide), ?_,
    fun e he => ?_, hsame⟩
  · change memRead a.mem _ _ = _
    rw [hmem, memRead_memPutAll]
  · change memGet a.mem e = _
    rw [hmem, memGet_memPutAll_other _ _ _ he]

/-- Settles O34: a taken sample is excluded, outside or in a bin (`State.placeSample_taken`); what a violation does besides
being counted is work of the trigger engine (`State.violActs_work`), which leaves the counter and all memory. -/
theorem planesAccumulate : Obligations.PlanesAccumulate := by
  unfold Obligations.PlanesAccumulate masksAndSnapshots
  exact ⟨samplesArePlaced_holds, masksAct, accSnapshotDone_stored⟩

end Sys2Proof.Machine
end

section
/-! SUPPORT. Fires and conditions of generators (R182, R190 to R195). -/

namespace Sys2Proof.Machine

variable {s t u w : State} {but : List Reg} {srcs : List Nat} {g k : Nat}

/-- The work on one member of a list, between that on the others. -/
theorem foldl_between_mem {α σ : Type} {R : σ → σ → Prop} {f : σ → α → σ} {x : α} {l : List α} (hr : ∀ a, R a a)
    (htr : ∀ {a b c}, R a b → R b c → R a c) (ho : ∀ a y, y ∈ l → y ≠ x → R a (f a y)) (s : σ) (hl : l.Nodup)
    (hx : x ∈ l) : ∃ a, R s a ∧ R (f a x) (l.foldl f s) := by
  obtain ⟨l1, l2, rfl⟩ := List.append_of_mem hx
  obtain ⟨-, h2, h12⟩ := List.nodup_append.1 hl
  have hx2 := (List.nodup_cons.1 h2).1
  refine ⟨l1.foldl f s, foldl_rel_mem hr htr (fun a y hy => ho a y (List.mem_append_left _ hy) ?_) s, ?_⟩
  · exact h12 y hy x (List.mem_cons_self ..)
  · rw [List.foldl_append, List.foldl_cons]
    refine foldl_rel_mem hr htr (fun a y hy => ho a y ?_ fun h => hx2 (h ▸ hy)) _
    exact List.mem_append_right _ (List.mem_cons_of_mem _ hy)

/-! ### What generators read -/

/-- What generators read is the same in both states. -/
structure TrigReads (s t : State) : Prop where
  reg : ∀ n i, eventReg n = false → n ∉ fireNames → n ∉ genNames → n ≠ .TRG_COMP_STATE → t.reg n i = s.reg n i
  pitch : t.pitch = s.pitch
  spll : t.spll = s.spll
  time : t.time = s.time

theorem TrigReads.refl (s : State) : TrigReads s s := ⟨fun _ _ _ _ _ _ => rfl, rfl, rfl, rfl⟩

theorem TrigReads.trans (h : TrigReads s t) (k : TrigReads t u) : TrigReads s u :=
  ⟨fun n i he hf hg hc => (k.reg n i he hf hg hc).trans (h.reg n i he hf hg hc), k.pitch.trans h.pitch,
    k.spll.trans h.spll, k.time.trans h.time⟩

theorem TrigWork.reads (h : TrigWork g s t) : TrigReads s t :=
  ⟨fun n i he hf hg _ => h.reg n i he hf (.inl hg), h.pitch, h.spll, h.time⟩

section Reads
variable (h : TrigReads s t)
include h

theorem TrigReads.fld (f : Fld) (i : Nat) (he : eventReg f.reg = false) (hf : f.reg ∉ fireNames) (hg : f.reg ∉ genNames)
    (hc : f.reg ≠ .TRG_COMP_STATE) : t.fld f i = s.fld f i := State.fld_of_reg (h.reg _ _ he hf hg hc)

theorem TrigReads.seqMode (g : Nat) : t.seqMode g = s.seqMode g := by
  rw [State.seqMode, h.fld Fld.TRG_GEN_CFG_SEQ_MODE g rfl (by decide) (by decide) (by decide)]
  rfl

theorem TrigReads.seqA (g : Nat) : t.seqA g = s.seqA g := by
  rw [State.seqA, h.fld Fld.TRG_GEN_CFG_SEQ_A g rfl (by decide) (by decide) (by decide)]
  rfl

theorem TrigReads.seqLoop (g : Nat) : t.seqLoop g = s.seqLoop g := by
  have hl : ∀ n a, t.loops g n a = s.loops g n a := by
    intro n
    induction n with
    | zero => exact fun _ => rfl
    | succ n ih =>
      intro a
      rw [State.loops, State.loops, h.seqMode, h.seqA, ih]
  rw [State.seqLoop, State.seqLoop, hl]

theorem TrigReads.genType (g : Nat) : t.genType g = s.genType g :=
  h.fld Fld.TRG_GEN_CFG_TYPE g rfl (by decide) (by decide) (by decide)

theorem TrigReads.srcCh (g : Nat) : t.srcCh g = s.srcCh g :=
  h.fld Fld.TRG_GEN_SRC_SRC_CH g rfl (by decide) (by decide) (by decide)

theorem TrigReads.chanOff (ch : Nat) : t.chanOff ch = s.chanOff ch := by
  rw [State.chanOff, h.pitch]
  rfl

theorem TrigReads.clusterAsleep (c : Nat) : t.clusterAsleep c = s.clusterAsleep c :=
  State.clusterAsleep_of_reg (fun k => h.reg .HUB_PWR_STATUS k rfl (by decide) (by decide) (by decide))
    (h.reg .CLK_GATE_STATE_LO 0 rfl (by decide) (by decide) (by decide))
    (h.reg .CLK_GATE_STATE_HI 0 rfl (by decide) (by decide) (by decide)) c

theorem TrigReads.genLive (g : Nat) : t.genLive g = s.genLive g := by
  rw [State.genLive, State.genLive, State.genNoSource, State.genNoSource, h.seqLoop, h.genType, h.srcCh, h.chanOff,
    h.clusterAsleep, State.flag, State.flag,
    h.fld Fld.TRG_GEN_CFG_EN g rfl (by decide) (by decide) (by decide),
    h.fld Fld.TRG_GEN_CFG_XSEL g rfl (by decide) (by decide) (by decide)]

theorem TrigReads.gridOrigin (e : Nat) : t.gridOrigin e = s.gridOrigin e := by
  rw [State.gridOrigin, State.gridOrigin, State.aligned, State.aligned, State.ofsNow, State.ofsNow, State.spllOf,
    State.spllOf, State.flag, State.flag, h.spll, h.time,
    h.fld Fld.PLL_SPLL_STATUS_ALIGNED e rfl (by decide) (by decide) (by decide),
    h.fld Fld.PLL_SPLL_STATUS_OFS_NOW e rfl (by decide) (by decide) (by decide),
    h.fld Fld.PLL_SPLL_PHASE_OFS e rfl (by decide) (by decide) (by decide)]

theorem TrigReads.sampleAt (e f : Nat) (x : Ratio) : t.sampleAt e f x = s.sampleAt e f x := by
  rw [State.sampleAt, State.sampleAt, State.rateNow, State.rateNow, h.gridOrigin,
    h.fld Fld.PLL_SPLL_RATE_NOW_RATE e rfl (by decide) (by decide) (by decide)]

theorem TrigReads.sampleInstant (e f : Nat) (j : Int) : t.sampleInstant e f j = s.sampleInstant e f j := by
  rw [State.sampleInstant, State.sampleInstant, State.rateNow, State.rateNow, h.gridOrigin,
    h.fld Fld.PLL_SPLL_RATE_NOW_RATE e rfl (by decide) (by decide) (by decide)]

theorem TrigReads.pipeCycle (c : Nat) (x : Tu) : t.pipeCycle c x = s.pipeCycle c x := by
  rw [State.pipeCycle, State.pipeCycle, h.sampleAt, h.sampleInstant]

theorem TrigReads.pipeStart (c : Nat) (x : Tu) : t.pipeStart c x = s.pipeStart c x := by
  rw [State.pipeStart, State.pipeStart, h.sampleAt, h.sampleInstant]

theorem TrigReads.forceable (g : Nat) : t.forceable g = s.forceable g := by
  rw [State.forceable, State.forceable, h.seqLoop, h.genType, h.srcCh, h.chanOff, h.clusterAsleep, State.flag, State.flag,
    h.fld Fld.TRG_GEN_CFG_EN g rfl (by decide) (by decide) (by decide)]

theorem TrigReads.readyToFire {x : Tu} (hgen : (t.gen g).from_ = (s.gen g).from_ ∧ (t.gen g).fired = (s.gen g).fired)
    (hcnt : t.reg .TRG_GEN_CNT g = s.reg .TRG_GEN_CNT g) (hr : readyToFire s g x) : readyToFire t g x := by
  obtain ⟨hlive, hfrom, hho, hseq, hcyc, hlt⟩ := hr
  refine ⟨by rw [h.genLive]; exact hlive, by rw [hgen.1]; exact hfrom, ?_, by rw [h.seqMode]; exact hseq, ?_, ?_⟩
  · rw [h.fld Fld.TRG_GEN_CFG_HO_MODE g rfl (by decide) (by decide) (by decide)]
    exact hho
  · intro f hf
    rw [h.pipeCycle, h.pipeCycle]
    exact hcyc f (by rw [← hgen.2]; exact hf)
  · rw [State.fld_of_reg hcnt]
    exact hlt

end Reads

/-! ### A fire -/

/-- A generator tells its fire: counter, stamp, status and record. -/
def State.fireNoted (s : State) (g : Nat) (tts : Tu) (forced : Bool) : State :=
  let s1 := (s.bump Fld.TRG_GEN_CNT_COUNT g 1).setPair .TRG_GEN_TTS_LO .TRG_GEN_TTS_HI g tts
  let s2 := s1.setFld Fld.TRG_GEN_STATUS_FIRED g 1
  let s3 := if s.flag Fld.TRG_GEN_STATUS_FIRED g then s2 else s2.raise0 (208 + g)
  s3.modGen g fun x =>
    { x with fired := some tts, skip := s.fld Fld.TRG_GEN_HOLDCNT_COUNT g,
             waitA := if forced then x.waitA else none }

/-- One more fire in the digest. -/
def State.countFire (s : State) : State := { s with gln := { s.gln with fires := s.gln.fires + 1 } }

theorem State.countFire_eq (s : State) : { s with gln := { s.gln with fires := s.gln.fires + 1 } } = s.countFire := rfl

theorem State.fire_eq (s : State) (g : Nat) (tts : Tu) (forced : Bool) :
    s.fire g tts forced = (((((s.fireNoted g tts forced).fireRegions (s.fld Fld.TRG_GEN_REGIONS_REGION_MASK g)
      ⟨tts, g, false⟩).fireOut (s.fld Fld.TRG_GEN_SRC_OUT_MASK g) 8 g tts).ticSource (g / 4) (0x10 + g % 4) tts false true
        false).accRef g tts).countFire := by
  rw [State.fire, ← State.countFire_eq, State.fireNoted]

theorem State.countFire_work (s : State) : TrigWork g s s.countFire :=
  ⟨fun _ _ _ _ _ => rfl, fun _ _ _ => rfl, ⟨rfl, rfl⟩, fun _ _ h => h,
    _, _, _, _, _, _, _, _, _, _, _, _, _, _, _, _, _, _, _, rfl⟩

/-- The targets of a fire leave every generator. -/
theorem State.fireGoes_work (s : State) (k out : Nat) (tts : Tu) :
    TrigWork g s (((s.fireOut out 8 k tts).ticSource (k / 4) (0x10 + k % 4) tts false true false).accRef k tts).countFire :=
  (((s.fireOut_work out 8 k tts).trans (State.ticSource_work _ _ _ _ _ _ _)).trans (State.accRef_work _ _ _)).trans
    (State.countFire_work _)

theorem State.setPair_trigWork (s : State) (lo hi : RegName) (i : Nat) (v : Tu)
    (hlo : lo ∈ fireNames ∨ (lo ∈ genNames ∧ i ≠ g)) (hhi : hi ∈ fireNames ∨ (hi ∈ genNames ∧ i ≠ g)) :
    TrigWork g s (s.setPair lo hi i v) :=
  (s.setReg_trigWork lo i _ hlo).trans (State.setReg_trigWork _ hi i _ hhi)

theorem State.fireNoted_work (s : State) (hk : k < 16) (hkg : k ≠ g) (tts : Tu) (forced : Bool) :
    TrigWork g s (s.fireNoted k tts forced) := by
  have hb : TrigWork g s (((s.bump Fld.TRG_GEN_CNT_COUNT k 1).setPair .TRG_GEN_TTS_LO .TRG_GEN_TTS_HI k tts).setFld
      Fld.TRG_GEN_STATUS_FIRED k 1) :=
    ((s.bump_trigWork Fld.TRG_GEN_CNT_COUNT k 1 (.inr ⟨by decide, hkg⟩)).trans
      (State.setPair_trigWork _ _ _ k tts (.inr ⟨by decide, hkg⟩) (.inr ⟨by decide, hkg⟩))).trans
      (State.setFld_trigWork _ Fld.TRG_GEN_STATUS_FIRED k 1 (.inr ⟨by decide, hkg⟩))
  have hr : TrigWork g s _ := .ite (c := s.flag Fld.TRG_GEN_STATUS_FIRED k = true) hb
    (hb.trans ((State.raise0_raises (208 + k)).trigWork fun j hj => .inl (.inl (by
      rw [List.mem_singleton.1 hj]; omega))))
  exact hr.trans (State.modGen_trigWork _ _ _ fun h => absurd h hkg)

theorem State.fire_work (s : State) (hk : k < 16) (hkg : k ≠ g) (tts : Tu) (forced : Bool) :
    TrigWork g s (s.fire k tts forced) := by
  rw [State.fire_eq]
  exact ((s.fireNoted_work hk hkg tts forced).trans (State.fireRegions_work _ _ _)).trans (State.fireGoes_work _ _ _ _)

/-- What the fire's record tells. -/
theorem State.fireNoted_reads (s : State) (g : Nat) (tts : Tu) (forced : Bool)
    (h : s.fld Fld.TRG_GEN_CNT_COUNT g < 2 ^ 32 - 1) :
    (s.fireNoted g tts forced).fld Fld.TRG_GEN_CNT_COUNT g = s.fld Fld.TRG_GEN_CNT_COUNT g + 1 ∧
      (s.fireNoted g tts forced).pair .TRG_GEN_TTS_LO .TRG_GEN_TTS_HI g = tts ∧
      (s.fireNoted g tts forced).fld Fld.TRG_GEN_STATUS_FIRED g = 1 ∧ (s.fireNoted g tts forced).pitch = s.pitch := by
  obtain ⟨a, ha⟩ : ∃ a, a = ((s.bump Fld.TRG_GEN_CNT_COUNT g 1).setPair .TRG_GEN_TTS_LO .TRG_GEN_TTS_HI g tts).setFld
    Fld.TRG_GEN_STATUS_FIRED g 1 := ⟨_, rfl⟩
  obtain ⟨b, hb⟩ : ∃ b, b = if s.flag Fld.TRG_GEN_STATUS_FIRED g then a else a.raise0 (208 + g) := ⟨_, rfl⟩
  have hab : Raises a b [208 + g] := by
    rw [hb]
    exact .ite (.refl _ _) (State.raise0_raises _)
  have hcnt : a.fld Fld.TRG_GEN_CNT_COUNT g = s.fld Fld.TRG_GEN_CNT_COUNT g + 1 := by
    rw [ha, ← s.fld_bump_lt Fld.TRG_GEN_CNT_COUNT g (by decide) h]
    exact (State.fld_setReg_ne _ _ _ _ Fld.TRG_GEN_CNT_COUNT _ (by decide)).trans
      ((State.fld_setReg_ne _ _ _ _ Fld.TRG_GEN_CNT_COUNT _ (by decide)).trans
        (State.fld_setReg_ne _ _ _ _ Fld.TRG_GEN_CNT_COUNT _ (by decide)))
  have hpair : a.pair .TRG_GEN_TTS_LO .TRG_GEN_TTS_HI g = tts := by
    rw [ha, State.pair, State.reg_setFld_ne _ _ _ _ _ _ (by decide), State.reg_setFld_ne _ _ _ _ _ _ (by decide)]
    exact State.pair_setPair _ _ _ (by decide)
  have hst : a.fld Fld.TRG_GEN_STATUS_FIRED g = 1 := by
    rw [ha]
    exact State.fld_setFld_of_lt _ _ _ (by decide) (by decide)
  have hp : a.pitch = s.pitch := by rw [ha]; rfl
  obtain ⟨f, hbn⟩ : ∃ f : Gen → Gen, s.fireNoted g tts forced = b.modGen g f := ⟨_, by rw [hb, ha]; rfl⟩
  rw [hbn]
  refine ⟨(hab.fld _ _ rfl).trans hcnt, ?_, (hab.fld _ _ rfl).trans hst, hab.pitch.trans hp⟩
  rw [← hpair]
  change b.pair _ _ _ = _
  rw [State.pair, State.pair, hab.reg _ _ rfl, hab.reg _ _ rfl]

theorem State.fire_fires (s : State) (g : Nat) (tts : Tu) (forced : Bool)
    (h : s.fld Fld.TRG_GEN_CNT_COUNT g < 2 ^ 32 - 1) : hasFired s (s.fire g tts forced) g tts := by
  obtain ⟨hcnt, hpair, hst, hpitch⟩ := s.fireNoted_reads g tts forced h
  rw [State.fire_eq]
  obtain ⟨a, ha⟩ : ∃ a, a = s.fireNoted g tts forced := ⟨_, rfl⟩
  rw [← ha] at hcnt hpair hst hpitch ⊢
  obtain ⟨b, hb⟩ : ∃ b, b = a.fireRegions (s.fld Fld.TRG_GEN_REGIONS_REGION_MASK g) ⟨tts, g, false⟩ := ⟨_, rfl⟩
  have hab : TrigWork g a b := hb ▸ a.fireRegions_work _ _
  rw [← hb]
  have hbc := b.fireGoes_work (g := g) g (s.fld Fld.TRG_GEN_SRC_OUT_MASK g) tts
  have hac := hab.trans hbc
  refine ⟨?_, ?_, ?_, fun m hm hmask hr => hbc.fires m _ ?_⟩
  · rw [hac.fld _ _ rfl (by decide) (.inr rfl), hcnt]
  · rw [State.pair, hac.reg _ _ rfl (by decide) (.inr rfl), hac.reg _ _ rfl (by decide) (.inr rfl)]
    exact hpair
  · rw [hac.fld _ _ rfl (by decide) (.inr rfl), hst]
  · rw [hb]
    refine State.fireRegions_mem _ _ hm hmask ?_
    rw [State.hasRegion, hpitch]
    exact hr

theorem hasFired_then {x : Tu} (h : hasFired s t g x) (k : TrigWork g t u) : hasFired s u g x := by
  obtain ⟨hcnt, hpair, hst, hm⟩ := h
  refine ⟨?_, ?_, ?_, fun m hlt hmask hr => k.fires m _ (hm m hlt hmask hr)⟩
  · rw [k.fld _ _ rfl (by decide) (.inr rfl), hcnt]
  · rw [State.pair, k.reg _ _ rfl (by decide) (.inr rfl), k.reg _ _ rfl (by decide) (.inr rfl)]
    exact hpair
  · rw [k.fld _ _ rfl (by decide) (.inr rfl), hst]

theorem hasFired_of_reads {x : Tu} (h : hasFired t u g x) (k : TrigReads s t)
    (hc : t.reg .TRG_GEN_CNT g = s.reg .TRG_GEN_CNT g) : hasFired s u g x := by
  obtain ⟨hcnt, hpair, hst, hm⟩ := h
  refine ⟨?_, hpair, hst, fun m hlt hmask hr => hm m hlt ?_ ?_⟩
  · rw [hcnt, State.fld_of_reg hc]
  · rw [k.fld _ _ rfl (by decide) (by decide) (by decide)]
    exact hmask
  · rw [State.hasRegion, k.pitch]
    exact hr

/-! ### Conditions -/

theorem State.fireOrLose_work (s : State) (hk : k < 16) (hkg : k ≠ g) (x : Tu) : TrigWork g s (s.fireOrLose k x).1 := by
  rw [State.fireOrLose]
  split
  · have hb := s.bump_trigWork (g := g) Fld.TRG_GEN_LOST_COUNT k 1 (.inr ⟨by decide, hkg⟩)
    unfold State.bumpRaise
    refine .ite (hb.trans ((State.raise_raises _ _ _).trigWork fun j hj => .inl (.inr (.inl ?_)))) hb
    rw [List.mem_singleton.1 hj]
    omega
  · exact s.fire_work hk hkg x false

theorem State.condition_work (s : State) (hk : k < 16) (hkg : k ≠ g) (x : Tu) : TrigWork g s (s.condition k x).1 := by
  have hmod : ∀ f : Gen → Gen, TrigWork g s (s.modGen k f) := fun f => s.modGen_trigWork k f fun h => absurd h hkg
  have hfire := s.fireOrLose_work hk hkg x
  rw [State.condition]
  split
  · exact hmod _
  · split
    · exact hfire
    · split
      · exact .refl _ _
      · split
        · exact .refl _ _
        · split
          · exact hmod _
          · split
            · split
              · exact hfire
              · exact .refl _ _
            · split
              · exact hfire
              · exact hmod _

theorem State.startWaits_work (s : State) (a : Nat) (x : Tu) : TrigWork g s (s.startWaits a x) :=
  foldl_rel (TrigWork.refl g) TrigWork.trans
    (fun b _ => .ite (b.modGen_trigWork _ _ fun _ => ⟨rfl, rfl⟩) (.refl _ _)) _ _

/-- A condition of one generator of a cluster, with the generators that have fired. -/
def State.conditionStep (c : Nat) (x : Tu) (p : Nat → Bool) (r : State × List Nat) (i : Nat) : State × List Nat :=
  if r.1.genLive (4 * c + i) && tuLe (r.1.gen (4 * c + i)).from_ x && p (4 * c + i) then
    ((r.1.condition (4 * c + i) x).1, if (r.1.condition (4 * c + i) x).2 then r.2 ++ [4 * c + i] else r.2)
  else r

theorem State.conditions_eq (s : State) (c : Nat) (x : Tu) (p : Nat → Bool) :
    s.conditions c x p = ((List.range 4).foldl (State.conditionStep c x p) (s, [])).2.foldl (fun s a => s.startWaits a x)
      ((List.range 4).foldl (State.conditionStep c x p) (s, [])).1 := rfl

theorem State.conditionStep_work {c : Nat} {x : Tu} {p : Nat → Bool} (r : State × List Nat) {i : Nat} (hk : 4 * c + i < 16)
    (hg : 4 * c + i ≠ g ∨ p (4 * c + i) = false) : TrigWork g r.1 (State.conditionStep c x p r i).1 := by
  unfold State.conditionStep
  split
  · next hp =>
    rw [Bool.and_eq_true] at hp
    rcases hg with hg | hg
    · exact r.1.condition_work hk hg x
    · exact absurd hp.2 (by rw [hg]; exact Bool.false_ne_true)
  · exact .refl _ _

/-- Conditions that generator `g` has none of leave it. -/
theorem State.conditions_work (s : State) {c : Nat} (hc : c < 4) (x : Tu) {p : Nat → Bool} (hg : g / 4 ≠ c ∨ p g = false) :
    TrigWork g s (s.conditions c x p) := by
  rw [State.conditions_eq]
  have hfold : TrigWork g s ((List.range 4).foldl (State.conditionStep c x p) (s, [])).1 :=
    foldl_rel_mem (R := fun a b : State × List Nat => TrigWork g a.1 b.1) (fun a => .refl _ _) TrigWork.trans
      (fun a i hi => by
        have hi4 := List.mem_range.1 hi
        refine State.conditionStep_work a (by omega) ?_
        rcases hg with hg | hg
        · exact .inl (by omega)
        · rcases eq_or_ne (4 * c + i) g with h | h
          · exact .inr (by rw [h]; exact hg)
          · exact .inl h) (s, [])
  exact hfold.trans (foldl_rel (TrigWork.refl g) TrigWork.trans (fun a y => a.startWaits_work y x) _ _)

/-- A condition makes a ready generator fire. -/
theorem State.condition_fires {x : Tu} (h : readyToFire s g x) : hasFired s (s.condition g x).1 g x := by
  obtain ⟨-, -, hho, hseq, hcyc, hlt⟩ := h
  have hheld : s.heldOff g x = false := by
    rw [State.heldOff]
    dsimp only
    rw [hho]
    split <;> rfl
  have hrate : ((s.gen g).fired.any fun f => s.pipeCycle (g / 4) f == s.pipeCycle (g / 4) x) = false := by
    rw [Option.any_eq_false]
    intro f hf
    exact beq_false_of_ne (hcyc f hf)
  rw [State.condition, hheld, if_neg Bool.false_ne_true, if_pos hseq, State.fireOrLose]
  dsimp only
  rw [hrate, if_neg Bool.false_ne_true]
  exact s.fire_fires g x false hlt

/-- Among the conditions of a cluster, that of a ready generator makes it fire. -/
theorem State.conditions_fires {c : Nat} {x : Tu} {p : Nat → Bool} (hc : c < 4) (hgc : g / 4 = c) (hp : p g = true)
    (h : readyToFire s g x) : hasFired s (s.conditions c x p) g x := by
  rw [State.conditions_eq]
  have hi : 4 * c + g % 4 = g := by omega
  obtain ⟨a, hsa, hau⟩ := foldl_between_mem (R := fun a b : State × List Nat => TrigWork g a.1 b.1)
    (f := State.conditionStep c x p) (x := g % 4) (fun a => .refl _ _) TrigWork.trans
    (fun a y hy hne => by
      have hy4 := List.mem_range.1 hy
      exact State.conditionStep_work a (by omega) (.inl (by omega))) (s, [])
    List.nodup_range (List.mem_range.2 (Nat.mod_lt _ (by decide)))
  have hready := hsa.reads.readyToFire hsa.gen (hsa.reg _ _ rfl (by decide) (.inr rfl)) h
  have hstep : State.conditionStep c x p a (g % 4) = ((a.1.condition g x).1,
      if (a.1.condition g x).2 then a.2 ++ [g] else a.2) := by
    rw [State.conditionStep, hi, hready.1, hready.2.1, hp]
    exact if_pos rfl
  rw [hstep] at hau
  have hfired : hasFired s (a.1.condition g x).1 g x :=
    hasFired_of_reads (State.condition_fires hready) hsa.reads (hsa.reg _ _ rfl (by decide) (.inr rfl))
  exact hasFired_then (hasFired_then hfired hau) (foldl_rel (TrigWork.refl g) TrigWork.trans (fun a y => a.startWaits_work y x) _ _)

end Sys2Proof.Machine
end

section
/-! Comparator crossings and forced fires (R184, R190 to R195). -/

namespace Sys2Proof.Machine

variable {s t u w : State} {but : List Reg} {srcs : List Nat} {g k : Nat}

theorem foldl_fixed_mem {α σ : Type} {f : σ → α → σ} {s : σ} : ∀ {l : List α}, (∀ x ∈ l, f s x = s) → l.foldl f s = s
  | [], _ => rfl
  | x :: l, h => by
    rw [List.foldl_cons, h x (List.mem_cons_self ..)]
    exact foldl_fixed_mem fun y hy => h y (List.mem_cons_of_mem _ hy)

/-! ### What is read at the instant of a command -/

theorem TrigReads.at_ (s : State) (t : Tu) : TrigReads { s with time := (s.at t).time } (s.at t) :=
  ⟨fun n i _ _ _ _ => State.at_reg s t n i, State.at_pitch s t, State.at_spll s t, rfl⟩

theorem State.at_genLive (s : State) (t : Tu) (g : Nat) : (s.at t).genLive g = s.genLive g := (TrigReads.at_ s t).genLive g

theorem State.at_genType (s : State) (t : Tu) (g : Nat) : (s.at t).genType g = s.genType g := (TrigReads.at_ s t).genType g

theorem State.at_forceable (s : State) (t : Tu) (g : Nat) : (s.at t).forceable g = s.forceable g :=
  (TrigReads.at_ s t).forceable g

theorem State.at_genLane (s : State) (t : Tu) (g : Nat) : (s.at t).genLane g = s.genLane g := by
  rw [State.genLane, State.genLane, (TrigReads.at_ s t).srcCh g, State.ilv, State.ilv, State.at_fld, State.at_pitch]
  rfl

theorem State.at_comp (s : State) (t : Tu) (ln : Nat) : (s.at t).comp ln = s.comp ln := by
  rw [State.comp, State.at_comps]
  rfl

theorem State.at_crosses (s : State) (t : Tu) (ln : Nat) (lo rise : Bool) (x : Tu) :
    (s.at t).crosses ln lo rise x = s.crosses ln lo rise x := by
  rw [State.crosses, State.crosses, State.at_comp, State.at_flag]

theorem State.at_laneOff (s : State) (t : Tu) (ln : Nat) : (s.at t).laneOff ln = s.laneOff ln := by
  rw [State.laneOff, State.at_gateOpen, State.at_clusterAsleep]
  rfl

theorem hasFired_at {u : State} {t : Tu} {x : Tu} (h : hasFired (s.at t) u g x) : hasFired s u g x := by
  obtain ⟨hcnt, hpair, hst, hm⟩ := h
  refine ⟨?_, hpair, hst, fun m hlt hmask hr => hm m hlt ?_ ?_⟩
  · rw [hcnt, State.at_fld]
  · rw [State.at_fld]
    exact hmask
  · rw [State.hasRegion, State.at_pitch]
    exact hr

/-! ### A crossing -/

/-- A crossing is noted: the comparator's output and stamps. -/
def State.crossNoted (s : State) (ln : Nat) (lo rise : Bool) (x : Tu) : State :=
  let s1 := s.setFld (if lo then Fld.TRG_COMP_STATE_LO else Fld.TRG_COMP_STATE_HI) ln rise.toNat
  { s1 with comps := tput Comp.init s1.comps ln (noteCrossing (s.comp ln) lo rise x) }

/-- The pattern inputs before and after a crossing. -/
def State.crossInputs (s : State) (ln : Nat) (lo rise : Bool) : Nat × Nat :=
  let bit := 2 * (ln % 4) + lo.toNat
  let rest := s.patInputs (ln / 4) - (if (s.patInputs (ln / 4)).testBit bit then 2 ^ bit else 0)
  (rest + (if rise then 0 else 2 ^ bit), rest + (if rise then 2 ^ bit else 0))

/-- The generators of the cluster whose condition the crossing completes. -/
def State.crossHits (s : State) (ln : Nat) (lo rise : Bool) (x : Tu) : List Nat :=
  (List.range 4).filter fun i => s.crossed (4 * (ln / 4) + i) ln lo rise x (s.comp ln) (s.crossInputs ln lo rise).1
    (s.crossInputs ln lo rise).2

/-- The pattern spans of the cluster follow the inputs. -/
def State.crossPatterns (s : State) (ln : Nat) (i0 i1 : Nat) (x : Tu) : State :=
  (List.range 4).foldl (fun s i => s.notePattern (4 * (ln / 4) + i) i0 i1 x) s

theorem State.crossing_eq (s : State) (ln : Nat) (lo rise : Bool) (x : Tu) :
    s.crossing ln lo rise x =
      ((((s.crossNoted ln lo rise x).crossPatterns ln (s.crossInputs ln lo rise).1 (s.crossInputs ln lo rise).2 x).conditions
        (ln / 4) x fun g => (s.crossHits ln lo rise x).contains (g % 4)).ticSource (ln / 4) (2 * (ln % 4) + lo.toNat) x
          true rise (s.stale ln)) := by
  rw [State.crossing, State.crossHits, State.crossPatterns, State.crossNoted, State.crossInputs]

theorem State.crossNoted_reads (s : State) (ln : Nat) (lo rise : Bool) (x : Tu) :
    (s.crossNoted ln lo rise x).fld (if lo then Fld.TRG_COMP_STATE_LO else Fld.TRG_COMP_STATE_HI) ln = rise.toNat ∧
      (s.crossNoted ln lo rise x).comp ln = noteCrossing (s.comp ln) lo rise x ∧
      TrigReads s (s.crossNoted ln lo rise x) ∧ onlyRegs s (s.crossNoted ln lo rise x) [⟨.TRG_COMP_STATE, ln⟩] := by
  have hreg : (if lo then Fld.TRG_COMP_STATE_LO else Fld.TRG_COMP_STATE_HI).reg = .TRG_COMP_STATE := by cases lo <;> rfl
  have hon : onlyRegs s (s.crossNoted ln lo rise x) [⟨.TRG_COMP_STATE, ln⟩] :=
    .of_eq rfl rfl (.setFld (f := if lo then Fld.TRG_COMP_STATE_LO else Fld.TRG_COMP_STATE_HI)
      (by rw [hreg]; exact List.mem_singleton.2 rfl) (.refl _ _))
  refine ⟨?_, tget_tput_same _ _ _ _, ⟨fun n i _ _ _ hn => hon.1 n i fun hm => ?_, rfl, rfl, rfl⟩, hon⟩
  · cases lo
    · exact State.fld_setFld_of_lt s Fld.TRG_COMP_STATE_HI ln (by decide) (by cases rise <;> decide)
    · exact State.fld_setFld_of_lt s Fld.TRG_COMP_STATE_LO ln (by decide) (by cases rise <;> decide)
  · exact hn (Reg.mk.inj (List.mem_singleton.1 hm)).1

theorem State.notePattern_work (s : State) (k i0 i1 : Nat) (x : Tu) : TrigWork g s (s.notePattern k i0 i1 x) :=
  .ite (.ite (s.modGen_trigWork k _ fun _ => ⟨rfl, rfl⟩) (.refl _ _)) (s.modGen_trigWork k _ fun _ => ⟨rfl, rfl⟩)

theorem State.crossPatterns_work (s : State) (ln i0 i1 : Nat) (x : Tu) : TrigWork g s (s.crossPatterns ln i0 i1 x) :=
  foldl_rel (TrigWork.refl g) TrigWork.trans (fun a _ => a.notePattern_work _ i0 i1 x) _ _

theorem State.crossPatterns_only (s : State) (ln i0 i1 : Nat) (x : Tu) : onlyRegs s (s.crossPatterns ln i0 i1 x) but :=
  .foldl _ (fun _ _ _ h => h.trans (.ite (.ite (.of_eq rfl rfl (.refl _ _)) (.refl _ _)) (.of_eq rfl rfl (.refl _ _))))
    (.refl _ _)

/-- Where no generator of the cluster runs, there is no condition. -/
theorem State.conditions_idle {c : Nat} {x : Tu} {p : Nat → Bool} (h : ∀ i, i < 4 → s.genLive (4 * c + i) = false) :
    s.conditions c x p = s := by
  have hfold : (List.range 4).foldl (State.conditionStep c x p) (s, []) = (s, []) :=
    foldl_fixed_mem fun i hi => by
      rw [State.conditionStep]
      dsimp only
      rw [h i (List.mem_range.1 hi)]
      rfl
  rw [State.conditions_eq, hfold]
  rfl

/-- Where no counter runs, no edge is taken. -/
theorem State.ticSource_idle {c code : Nat} {x : Tu} {polar rise stale : Bool}
    (h : ∀ i, i < 8 → s.measuring (8 * c + i) = false) : s.ticSource c code x polar rise stale = s := by
  rw [State.ticSource_eq]
  refine foldl_fixed_mem fun i hi => ?_
  rw [State.ticSourceAt, h i (List.mem_range.1 hi), Bool.and_false]
  rfl

theorem State.tdcOffset_raises (s : State) {ln : Nat} (off : Bool) : Raises s (s.tdcOffset ln off) [256 + ln / 4] := by
  have hused : Raises s s.used [256 + ln / 4] :=
    ⟨fun _ _ _ => rfl, fun k _ => sameSource.refl s k, _, _, _, _, _, _, _, _, _, _, _, rfl⟩
  exact .ite (hused.trans (State.raise_raises _ _ _)) (.refl _ _)

theorem State.raisable_cluster {c : Nat} (hc4 : c < 4) (hc : s.clusterAsleep c = false)
    (hr : s.fld Fld.EVT_ROUTE_KIND (256 + c) ≠ 1) : s.raisable (256 + c) := by
  have hv : ∀ c : Fin 4, evtValid (256 + c) = true := by decide
  refine ⟨hv ⟨c, hc4⟩, ?_, ?_, hr⟩
  · rw [State.evtAsleep, if_neg (by omega), if_neg (by omega), if_neg (by omega), if_pos (by omega),
      Nat.add_sub_cancel_left, hc]
  · rw [State.evtAbsent, decide_eq_false (by omega), Bool.false_and]

theorem exec_comparatorCrossing {t : Tu} {ln : Fin 16} {lo rise off : Bool} (ha : s.alive = true)
    (hoff : s.laneOff ln = false) (hdue : s.trigsDue ((s.at t).stamp t) = [])
    (hx : s.crosses ln lo rise ((s.at t).stamp t) = true) :
    exec (.comparatorCrossing t ln lo rise off) s =
      s.done (((s.at t).crossing ln lo rise ((s.at t).stamp t)).tdcOffset ln (off && !s.stale ln)) := by
  have hst : (s.at t).stale ln = s.stale ln := by
    rw [State.stale, State.at_flag]
    rfl
  rw [exec, execComparatorCrossing, State.when_eq ha]
  dsimp only
  rw [State.placeTrigsTo_none (by rw [State.at_trigsDue]; exact hdue), State.at_laneOff, hoff, State.at_crosses, hx,
    if_neg (by decide), hst]

/-- What a crossing leaves where nothing watches it. -/
theorem State.crossing_quiet {ln : Nat} {lo rise : Bool} {x : Tu} (hln : ln < 16)
    (hg : ∀ g, g < 16 → s.genLive g = false) (hm : ∀ i, i < 32 → s.measuring i = false) :
    onlyRegs s (s.crossing ln lo rise x) [⟨.TRG_COMP_STATE, ln⟩] := by
  obtain ⟨-, -, hreads, hon⟩ := s.crossNoted_reads ln lo rise x
  obtain ⟨a, ha⟩ : ∃ a, a = (s.crossNoted ln lo rise x).crossPatterns ln (s.crossInputs ln lo rise).1
    (s.crossInputs ln lo rise).2 x := ⟨_, rfl⟩
  have haw : TrigWork 16 (s.crossNoted ln lo rise x) a := ha ▸ State.crossPatterns_work _ _ _ _ _
  have hao : onlyRegs s a [⟨.TRG_COMP_STATE, ln⟩] := ha ▸ hon.trans (State.crossPatterns_only _ _ _ _ _)
  have hlive : ∀ i, i < 4 → a.genLive (4 * (ln / 4) + i) = false := fun i hi =>
    ((hreads.trans haw.reads).genLive _).trans (hg _ (by omega))
  have hmeas : ∀ i, i < 8 → a.measuring (8 * (ln / 4) + i) = false := fun i hi => by
    rw [State.measuring, State.flag_of_reg (hao.1 _ _ (by simp))]
    exact hm _ (by omega)
  rw [State.crossing_eq, ← ha, State.conditions_idle hlive, State.ticSource_idle hmeas]
  exact hao

/-- What a crossing shows, and that it leaves all memory. -/
theorem State.crossing_shows (s : State) {ln : Nat} (lo rise : Bool) (x : Tu) (hln : ln < 16) :
    TrigWork 16 (s.crossNoted ln lo rise x) (s.crossing ln lo rise x) := by
  rw [State.crossing_eq]
  exact ((State.crossPatterns_work _ _ _ _ _).trans
    (State.conditions_work _ (by omega) _ (.inl (by omega)))).trans (State.ticSource_work _ _ _ _ _ _ _)

/-- A crossing that completes the condition of a ready generator makes it fire. -/
theorem State.crossing_fires {ln : Nat} {lo rise : Bool} {x : Tu} (hln : ln < 16) (hgc : g / 4 = ln / 4)
    (hr : readyToFire s g x) (hh : g % 4 ∈ s.crossHits ln lo rise x) : hasFired s (s.crossing ln lo rise x) g x := by
  obtain ⟨-, -, hreads, hon⟩ := s.crossNoted_reads ln lo rise x
  obtain ⟨a, ha⟩ : ∃ a, a = (s.crossNoted ln lo rise x).crossPatterns ln (s.crossInputs ln lo rise).1
    (s.crossInputs ln lo rise).2 x := ⟨_, rfl⟩
  have haw : TrigWork g (s.crossNoted ln lo rise x) a := ha ▸ State.crossPatterns_work _ _ _ _ _
  have hcnt : a.reg .TRG_GEN_CNT g = s.reg .TRG_GEN_CNT g :=
    (haw.reg _ _ rfl (by decide) (.inr rfl)).trans (hon.1 _ _ (by simp))
  rw [State.crossing_eq, ← ha]
  have hfired := State.conditions_fires (s := a) (by omega) hgc (p := fun g => (s.crossHits ln lo rise x).contains (g % 4))
    (List.contains_iff_mem.2 hh) ((hreads.trans haw.reads).readyToFire haw.gen hcnt hr)
  exact hasFired_then (hasFired_of_reads hfired (hreads.trans haw.reads) hcnt) (State.ticSource_work _ _ _ _ _ _ _)

theorem State.crossHits_edge {ln : Nat} {rise : Bool} {x : Tu} (hgc : g / 4 = ln / 4) (hty : s.genType g = 0)
    (hlane : s.genLane g = ln)
    (hsl : (rise = true ∧ s.genSlope g = 0) ∨ (rise = false ∧ s.genSlope g = 1) ∨ s.genSlope g = 2) :
    g % 4 ∈ s.crossHits ln false rise x := by
  have hi : 4 * (ln / 4) + g % 4 = g := by omega
  refine List.mem_filter.2 ⟨List.mem_range.2 (Nat.mod_lt _ (by decide)), ?_⟩
  rw [hi, State.crossed, hty]
  dsimp only
  rw [hlane, beq_self_eq_true]
  rcases hsl with ⟨rfl, h⟩ | ⟨rfl, h⟩ | h
  · rw [h]; rfl
  · rw [h]; rfl
  · rw [h]; rfl

theorem comparatorCrossing_noted (s : State) (t : Tu) (ln : Fin 16) (lo rise off : Bool) (ha : s.alive = true)
    (hoff : s.laneOff ln = false) (hdue : s.trigsDue ((s.at t).stamp t) = [])
    (hx : s.crosses ln lo rise ((s.at t).stamp t) = true) :
    ∃ u, exec (.comparatorCrossing t ln lo rise off) s = .next u ∧
      u.fld (if lo then Fld.TRG_COMP_STATE_LO else Fld.TRG_COMP_STATE_HI) ln = rise.toNat ∧
      u.comp ln = noteCrossing (s.comp ln) lo rise ((s.at t).stamp t) ∧ sameMem s u ∧
      ((∀ g, g < 16 → s.genLive g = false) → (∀ i, i < 32 → s.measuring i = false) →
        (off = false ∨ s.stale ln = true → onlyRegs s u [⟨.TRG_COMP_STATE, ln⟩]) ∧
        (off = true → s.stale ln = false →
          onlyRaising s u [⟨.TRG_COMP_STATE, ln⟩] [256 + ln.val / 4] ∧
            (s.fld Fld.EVT_ROUTE_KIND (256 + ln.val / 4) ≠ 1 → u.evtStatus (256 + ln.val / 4) = true))) := by
  obtain ⟨x, hxeq⟩ : ∃ x, x = (s.at t).stamp t := ⟨_, rfl⟩
  have hex := exec_comparatorCrossing (off := off) ha hoff hdue hx
  rw [← hxeq] at hex ⊢
  obtain ⟨b, hb⟩ : ∃ b, b = (s.at t).crossing ln lo rise x := ⟨_, rfl⟩
  obtain ⟨hfld, hcomp, -, hon⟩ := (s.at t).crossNoted_reads ln lo rise x
  have hwb : TrigWork 16 ((s.at t).crossNoted ln lo rise x) b := hb ▸ (s.at t).crossing_shows lo rise x ln.isLt
  rw [← hb] at hex
  have hoffs := b.tdcOffset_raises (ln := ln) (off && !s.stale ln)
  obtain ⟨u, hu, hru⟩ := State.done_notes s (b.tdcOffset ln (off && !s.stale ln))
  have hwu : TrigWork 16 ((s.at t).crossNoted ln lo rise x) u := (hwb.trans (hoffs.trigWork fun j hj =>
    .inl (.inr (.inl (by rw [List.mem_singleton.1 hj]; omega))))).trans hru.notes_trigWork
  have hreg : (if lo then Fld.TRG_COMP_STATE_LO else Fld.TRG_COMP_STATE_HI).reg = .TRG_COMP_STATE := by cases lo <;> rfl
  refine ⟨u, hex.trans hu, ?_, ?_, fun e => ?_, fun hg hm => ?_⟩
  · rw [← hfld]
    exact hwu.fld _ _ (by rw [hreg]; rfl) (by rw [hreg]; decide) (.inl (by rw [hreg]; decide))
  · rw [State.comp, hwu.comps, ← State.at_comp s t]
    exact hcomp
  · rw [hwu.mem, hon.2 e, State.at_mem]
  · have hbo : onlyRegs (s.at t) b [⟨.TRG_COMP_STATE, ln.val⟩] := hb ▸ State.crossing_quiet ln.isLt
      (fun g h => (State.at_genLive s t g).trans (hg g h))
      (fun i h => (State.at_flag s t _ i).trans (hm i h))
    refine ⟨fun hq => ?_, fun ht hs => ?_⟩
    · have hq' : (off && !s.stale ln) = false := by rcases hq with h | h <;> simp [h]
      rw [hq'] at hu
      obtain ⟨hd, hsu⟩ := State.done_onlyRegs (x := t) hbo rfl
      obtain rfl : u = b := Host.Outcome.next.inj (hu.symm.trans hd)
      exact hsu
    · have hcl : s.clusterAsleep (ln / 4) = false := by
        rw [State.laneOff, Bool.or_eq_false_iff] at hoff
        exact hoff.2
      have hlt := ln.isLt
      have hfol : ∀ ln : Fin 16, followsRaise (256 + ln / 4) = false := by decide
      obtain ⟨v, hv, hvr⟩ := State.done_raisedIf (s := s) (x := t) (w := b.used) (c := True)
        (causes := 4) (info := b.freeBelow 16 + 16 * ln) (.of_eq rfl rfl hbo) rfl (hfol ln)
      have hbu : b.tdcOffset ln (off && !s.stale ln) =
          if True then b.used.raise (256 + ln / 4) 4 (b.freeBelow 16 + 16 * ln) else b.used := by
        rw [ht, hs]
        rfl
      rw [hbu] at hu
      obtain rfl : u = v := Host.Outcome.next.inj (hu.symm.trans hv)
      exact ⟨hvr.only, fun hk => hvr.status trivial (State.raisable_cluster (by omega) hcl hk)⟩

theorem comparatorCrossing_fires (s : State) (t : Tu) (ln : Fin 16) (lo rise off : Bool) (ha : s.alive = true)
    (hoff : s.laneOff ln = false) (hdue : s.trigsDue ((s.at t).stamp t) = [])
    (hx : s.crosses ln lo rise ((s.at t).stamp t) = true) (g : Nat) (hgc : g / 4 = ln.val / 4)
    (hr : readyToFire (s.at t) g ((s.at t).stamp t)) (hty : s.genType g = 0) (hlane : s.genLane g = ln.val)
    (hlo : lo = false)
    (hsl : (rise = true ∧ s.genSlope g = 0) ∨ (rise = false ∧ s.genSlope g = 1) ∨ s.genSlope g = 2) :
    ∃ u, exec (.comparatorCrossing t ln lo rise off) s = .next u ∧ hasFired s u g ((s.at t).stamp t) := by
  subst hlo
  have hslope : (s.at t).genSlope g = s.genSlope g := by
    rw [State.genSlope, State.at_fld]
    rfl
  have hfired := (s.at t).crossing_fires (lo := false) (rise := rise) ln.isLt hgc hr (State.crossHits_edge hgc
    ((State.at_genType s t g).trans hty) ((State.at_genLane s t g).trans hlane) (by rw [hslope]; exact hsl))
  obtain ⟨u, hu, hru⟩ := State.done_notes s
    (((s.at t).crossing ln false rise ((s.at t).stamp t)).tdcOffset ln (off && !s.stale ln))
  refine ⟨u, (exec_comparatorCrossing ha hoff hdue hx).trans hu, hasFired_at (hasFired_then (hasFired_then hfired
    ((State.tdcOffset_raises _ _).trigWork fun j hj => .inl (.inr (.inl ?_)))) hru.notes_trigWork)⟩
  have hlt := ln.isLt
  rw [List.mem_singleton.1 hj]
  omega

end Sys2Proof.Machine
end

section
/-! Writes of TRG_FORCE, and the forced fires that they find due (R195). -/

namespace Sys2Proof.Machine

variable {s t u w : State} {but : List Reg} {srcs : List Nat} {g k : Nat}

/-! ### What a write of TRG_FORCE leaves -/

/-- `t` is `s` after forced fires were asked for, of generators other than `g`. -/
structure ForceWork (g : Nat) (s t : State) : Prop where
  gen : t.gen g = s.gen g
  rest : ∃ gens, t = { s with gens := gens }

theorem ForceWork.refl (g : Nat) (s : State) : ForceWork g s s := ⟨rfl, _, rfl⟩

theorem ForceWork.trans (h : ForceWork g s t) (k : ForceWork g t u) : ForceWork g s u := by
  refine ⟨k.gen.trans h.gen, ?_⟩
  obtain ⟨_, rfl⟩ := h.rest
  obtain ⟨_, rfl⟩ := k.rest
  exact ⟨_, rfl⟩

theorem ForceWork.reads (h : ForceWork g s t) : TrigReads s t := by
  obtain ⟨_, rfl⟩ := h.rest
  exact ⟨fun _ _ _ _ _ _ => rfl, rfl, rfl, rfl⟩

/-- One generator of a cluster is asked for a forced fire. -/
def State.forceOne (s : State) (c i : Nat) : State :=
  if s.forceable (4 * c + i) && !(s.gen (4 * c + i)).forced.contains (s.pipeStart c (tuAdd s.time (ns 40))) then
    s.modGen (4 * c + i) fun x => { x with forced := x.forced ++ [s.pipeStart c (tuAdd s.time (ns 40))] }
  else s

theorem State.force_eq (s : State) (c bits : Nat) :
    s.force c bits = (bitsOf 4 bits).foldl (fun s i => s.forceOne c i) s := rfl

theorem State.forceOne_work (s : State) (c i : Nat) (h : 4 * c + i ≠ g ∨ s.forceable g = false) :
    ForceWork g s (s.forceOne c i) := by
  unfold State.forceOne
  split
  · next hf =>
    refine ⟨State.gen_modGen_ne _ _ fun hg => ?_, _, rfl⟩
    rw [← hg] at hf
    rcases h with h | h
    · exact h hg.symm
    · rw [h] at hf
      cases hf
  · exact .refl _ _

/-- A generator that the write does not name, or that no force reaches, is as before. -/
theorem State.force_others (s : State) (c bits : Nat) (h : g / 4 ≠ c ∨ bits.testBit (g % 4) = false ∨ s.forceable g = false) :
    ForceWork g s (s.force c bits) := by
  rw [State.force_eq]
  suffices ∀ l : List Nat, l ⊆ bitsOf 4 bits → ∀ a, ForceWork g s a → ForceWork g s (l.foldl (fun s i => s.forceOne c i) a) from
    this _ (fun _ h => h) s (.refl _ _)
  intro l
  induction l with
  | nil => exact fun _ a ha => ha
  | cons i l ih =>
    intro hl a ha
    obtain ⟨hi, hbit⟩ := mem_bitsOf.1 (hl (List.mem_cons_self ..))
    refine ih (fun _ h => hl (List.mem_cons_of_mem _ h)) _ (ha.trans (a.forceOne_work c i ?_))
    rcases h with h | h | h
    · exact .inl (by omega)
    · refine .inl fun hg => ?_
      rw [show g % 4 = i by omega, hbit] at h
      cases h
    · exact .inr ((ha.reads.forceable g).trans h)

/-- A generator that the write names, and that a force reaches, waits for its pipeline cycle. -/
theorem State.force_waits (s : State) {c bits i : Nat} (hi : i < 4) (hb : bits.testBit i = true)
    (hf : s.forceable (4 * c + i) = true) :
    s.pipeStart c (tuAdd s.time (ns 40)) ∈ ((s.force c bits).gen (4 * c + i)).forced := by
  rw [State.force_eq]
  obtain ⟨a, hsa, hau⟩ := foldl_between_mem (ForceWork.refl (4 * c + i)) ForceWork.trans
    (f := fun (a : State) i => a.forceOne c i) (x := i) (l := bitsOf 4 bits)
    (fun a y _ hne => a.forceOne_work c y (.inl (by omega))) s (List.Nodup.filter _ List.nodup_range) (mem_bitsOf.2 ⟨hi, hb⟩)
  rw [hau.gen, State.forceOne, hsa.reads.forceable, hf, hsa.reads.pipeStart, hsa.reads.time]
  split
  · rw [State.gen_modGen]
    exact List.mem_append_right _ (List.mem_singleton.2 rfl)
  · next hc => simpa using hc

theorem State.force_work (s : State) (c bits : Nat) : TrigWork g s (s.force c bits) :=
  foldl_rel (TrigWork.refl g) TrigWork.trans
    (fun a i => .ite (a.modGen_trigWork (4 * c + i) _ fun _ => ⟨rfl, rfl⟩) (.refl _ _)) _ _

theorem State.force_only (s : State) (c bits : Nat) : onlyRegs s (s.force c bits) but := by
  obtain ⟨-, gens, hg⟩ := s.force_others (g := 4 * c + 4) c bits (.inl (by omega))
  rw [hg]
  exact .of_eq rfl rfl (.refl _ _)

/-! ### Forced fires that are due -/

/-- The generators of a cluster whose forced fire is due at an instant. -/
def State.forcedAt (s : State) (c : Nat) (x : Tu) : List Nat :=
  ((List.range 4).map (4 * c + ·)).filter fun g => (s.gen g).forced.contains x

/-- Their wait ends. -/
def State.dropForced (s : State) (c : Nat) (x : Tu) : State :=
  (s.forcedAt c x).foldl (fun s g => s.modGen g fun y => { y with forced := y.forced.filter (· != x) }) s

theorem State.forceFires_eq (s : State) (c : Nat) (x : Tu) :
    s.forceFires c x = (((s.forcedAt c x).filter s.forceable).foldl (fun s g => s.startWaits g x)
      (((s.forcedAt c x).filter s.forceable).foldl (fun s g => s.fire g x true) (s.dropForced c x))) := rfl

theorem State.dropForced_work (s : State) (c : Nat) (x : Tu) : TrigWork g s (s.dropForced c x) :=
  foldl_rel (TrigWork.refl g) TrigWork.trans (fun a k => a.modGen_trigWork k _ fun _ => ⟨rfl, rfl⟩) _ _

theorem mem_forcedAt {c : Nat} {x : Tu} (h : k ∈ s.forcedAt c x) : k / 4 = c := by
  obtain ⟨i, hi, rfl⟩ := List.mem_map.1 (List.mem_filter.1 h).1
  have := List.mem_range.1 hi
  omega

/-- What forced fires of a cluster leave of the generators of others. -/
theorem State.forceFires_work (s : State) {c : Nat} (hc : c < 4) (hgc : g / 4 ≠ c) (x : Tu) :
    TrigWork g s (s.forceFires c x) := by
  rw [State.forceFires_eq]
  refine ((s.dropForced_work c x).trans (foldl_rel_mem (TrigWork.refl g) TrigWork.trans (fun a k hk => ?_) _)).trans
    (foldl_rel (TrigWork.refl g) TrigWork.trans (fun a y => a.startWaits_work y x) _ _)
  have hkc := mem_forcedAt (List.mem_filter.1 hk).1
  exact a.fire_work (by omega) (fun h => hgc (by rw [← h]; exact hkc)) x true

theorem State.forceFires_fires (s : State) {x : Tu} (hg : g < 16) (hmem : x ∈ (s.gen g).forced)
    (hf : s.forceable g = true) (hlt : s.fld Fld.TRG_GEN_CNT_COUNT g < 2 ^ 32 - 1) :
    hasFired s (s.forceFires (g / 4) x) g x := by
  have hlive : g ∈ (s.forcedAt (g / 4) x).filter s.forceable := by
    refine List.mem_filter.2 ⟨List.mem_filter.2 ⟨List.mem_map.2 ⟨g % 4, List.mem_range.2 (by omega), by omega⟩, ?_⟩, hf⟩
    simpa using hmem
  have hnodup : ((s.forcedAt (g / 4) x).filter s.forceable).Nodup :=
    .filter _ (.filter _ (List.nodup_range.map fun a b h => by simpa using h))
  have hdrop := s.dropForced_work (g := g) (g / 4) x
  obtain ⟨a, hsa, hau⟩ := foldl_between_mem (TrigWork.refl g) TrigWork.trans (f := fun (a : State) k => a.fire k x true)
    (x := g) (fun a y hy hne => by
      have hyc := mem_forcedAt (List.mem_filter.1 hy).1
      exact a.fire_work (by omega) hne x true) (s.dropForced (g / 4) x) hnodup hlive
  have hda := hdrop.trans hsa
  have hcnt := hda.reg .TRG_GEN_CNT g rfl (by decide) (.inr rfl)
  rw [State.forceFires_eq]
  exact hasFired_then (hasFired_then (hasFired_of_reads (a.fire_fires g x true (by rw [State.fld_of_reg hcnt]; exact hlt))
    hda.reads hcnt) hau) (foldl_rel (TrigWork.refl g) TrigWork.trans (fun b y => b.startWaits_work y x) _ _)

theorem trgForce_waits (s : State) (t : Tu) (c : Fin 4) (bits : BitVec 4) (hup : s.hostUp = true)
    (hc : s.clusterAsleep c = false) (hdue : s.trigsDue (s.at t).time = []) :
    ∃ u, exec (.trgForce t c bits) s = .next u ∧ onlyRegs s u [] ∧
      (∀ i, i < 4 → bits.getLsbD i = true → s.forceable (4 * c + i) = true →
        (s.at t).pipeStart c (tuAdd (s.at t).time (ns 40)) ∈ (u.gen (4 * c + i)).forced) ∧
      ∀ g, g / 4 ≠ c.val ∨ bits.getLsbD (g % 4) = false ∨ s.forceable g = false → u.gen g = s.gen g := by
  have hex : exec (.trgForce t c bits) s = s.done ((s.at t).force c bits.toNat) := by
    rw [exec, execTrgForce, State.whenHost_eq hup, State.at_clusterAsleep, hc, if_neg Bool.false_ne_true, State.placeTrigs_none (by rw [State.at_trigsDue]; exact hdue)]
  obtain ⟨hd, hon⟩ := State.done_onlyRegs (x := t) ((s.at t).force_only c bits.toNat) (but := []) rfl
  refine ⟨_, hex.trans hd, hon, fun i hi hb hf => ?_, fun g hg => ?_⟩
  · exact (s.at t).force_waits hi hb (by rw [State.at_forceable]; exact hf)
  · rw [((s.at t).force_others c bits.toNat (by rw [State.at_forceable]; exact hg)).gen, State.at_gen]

theorem trgForce_fires (s : State) (t : Tu) (c : Fin 4) (bits : BitVec 4) (hup : s.hostUp = true)
    (hc : s.clusterAsleep c = false) (g : Nat) (tts : Tu) (hg : g < 16)
    (hdue : s.trigsDue (s.at t).time = [(g / 4, tts)]) (hmem : tts ∈ (s.gen g).forced) (hf : s.forceable g = true)
    (hlt : s.fld Fld.TRG_GEN_CNT_COUNT g < 2 ^ 32 - 1) :
    ∃ u, exec (.trgForce t c bits) s = .next u ∧ hasFired s u g tts ∧ sameMem s u := by
  obtain ⟨a, ha⟩ : ∃ a, a = { s.at t with tlk := { (s.at t).tlk with
    trigs := (s.at t).tlk.trigs.filter fun x => !tuLe x.2 (s.at t).time } } := ⟨_, rfl⟩
  have hplace : (s.at t).placeTrigs = a.forceFires (g / 4) tts := by
    rw [State.placeTrigs, State.placeTrigsTo, State.at_trigsDue, hdue, ← ha]
    exact if_pos (by omega : g / 4 < 4)
  have hex : exec (.trgForce t c bits) s = s.done ((a.forceFires (g / 4) tts).force c bits.toNat) := by
    rw [exec, execTrgForce, State.whenHost_eq hup, State.at_clusterAsleep, hc, if_neg Bool.false_ne_true, hplace]
  have hreg : ∀ n i, a.reg n i = s.reg n i := fun n i => by
    rw [← State.at_reg s t, ha]
    rfl
  have hgen : a.gen g = s.gen g := by
    rw [← State.at_gen s t, ha]
    rfl
  have hmema : a.mem = s.mem := by rw [← State.at_mem s t, ha]
  have hpitch : a.pitch = s.pitch := by rw [← State.at_pitch s t, ha]
  have hfa : a.forceable g = true := by
    rw [← hf, ← State.at_forceable s t, ha]
    rfl
  have hfired := a.forceFires_fires hg (hgen ▸ hmem) hfa (by rw [State.fld_of_reg (hreg _ _)]; exact hlt)
  obtain ⟨u, hu, hru⟩ := State.done_notes s ((a.forceFires (g / 4) tts).force c bits.toNat)
  have hfu : hasFired a u g tts := hasFired_then (hasFired_then hfired (State.force_work _ _ _)) hru.notes_trigWork
  have hwu : TrigWork 16 a u := ((a.forceFires_work (by omega) (by omega) tts).trans (State.force_work _ _ _)).trans
    hru.notes_trigWork
  obtain ⟨hcnt, hpair, hst, hregions⟩ := hfu
  refine ⟨u, hex.trans hu, ⟨?_, hpair, hst, fun m hm hmask hr => hregions m hm ?_ ?_⟩, fun e => ?_⟩
  · rw [hcnt, State.fld_of_reg (hreg _ _)]
  · rw [State.fld_of_reg (hreg _ _)]
    exact hmask
  · rw [State.hasRegion, hpitch]
    exact hr
  · rw [hwu.mem, hmema]

end Sys2Proof.Machine
end

section
/-! SUPPORT. What a converter's next conversion and its display leave (R295, R298 to R302). -/

namespace Sys2Proof.Machine

variable {s t u w : State} {but : List Reg} {srcs : List Nat} {x y : Nat}

/-! ### Converters -/

theorem State.mc_modMc (s : State) (x : Nat) (f : Mc → Mc) : (s.modMc x f).mc x = f (s.mc x) := tget_tmod_same _ _ _ _

theorem State.mc_modMc_ne (s : State) (f : Mc → Mc) (h : y ≠ x) : (s.modMc x f).mc y = s.mc y := tget_tmod_other _ _ _ h

theorem State.mc_of_eq (h : t.pmu = s.pmu) (y : Nat) : t.mc y = s.mc y := by rw [State.mc, h]; rfl

theorem State.at_mc (s : State) (t : Tu) (y : Nat) : (s.at t).mc y = s.mc y := State.mc_of_eq (State.at_pmu s t) y

theorem State.at_xchk (s : State) (t : Tu) : (s.at t).xchk = s.xchk := by rw [State.xchk, State.at_mc]; rfl

/-- The results of a converter are the same in both. -/
def sameResults (a b : Mc) : Prop :=
  b.fifo = a.fifo ∧ b.seqReg = a.seqReg ∧ b.seqInj = a.seqInj ∧ b.lastReady = a.lastReady

theorem sameResults.refl (a : Mc) : sameResults a a := ⟨rfl, rfl, rfl, rfl⟩

theorem sameResults.trans {a b c : Mc} (h : sameResults a b) (k : sameResults b c) : sameResults a c :=
  ⟨k.1.trans h.1, k.2.1.trans h.2.1, k.2.2.1.trans h.2.2.1, k.2.2.2.trans h.2.2.2⟩

/-- `t` is `s` after the converters went on: their records but not their results, and the listed registers. -/
structure McWork (but : List Reg) (s t : State) : Prop where
  only : onlyRegs s t but
  results : ∀ y, sameResults (s.mc y) (t.mc y)
  cal : ∀ y, t.fld Fld.PMU_SEQ_STATUS_CAL_VALID y = s.fld Fld.PMU_SEQ_STATUS_CAL_VALID y
  rest : ∃ regs mc free, t = { s with regs := regs, pmu := { s.pmu with mc := mc }, free := free }

theorem McWork.refl (but : List Reg) (s : State) : McWork but s s :=
  ⟨.refl _ _, fun _ => .refl _, fun _ => rfl, _, _, _, rfl⟩

theorem McWork.trans (h : McWork but s t) (k : McWork but t u) : McWork but s u := by
  refine ⟨h.only.trans k.only, fun y => (h.results y).trans (k.results y), fun y => (k.cal y).trans (h.cal y), ?_⟩
  obtain ⟨_, _, _, rfl⟩ := h.rest
  obtain ⟨_, _, _, rfl⟩ := k.rest
  exact ⟨_, _, _, rfl⟩

theorem McWork.mono {but' : List Reg} (h : McWork but s t) (hb : but ⊆ but') : McWork but' s t :=
  ⟨h.only.mono hb, h.results, h.cal, h.rest⟩

theorem McWork.ite {c : Prop} [Decidable c] {a b : State} (ha : McWork but s a) (hb : McWork but s b) :
    McWork but s (if c then a else b) := by split <;> assumption

theorem McWork.local_ (h : McWork but s t) : t.pmu.local_ = s.pmu.local_ ∧ t.pmu.remote = s.pmu.remote := by
  obtain ⟨_, _, _, rfl⟩ := h.rest
  exact ⟨rfl, rfl⟩

theorem McWork.out (h : McWork but s t) : t.out = s.out := by
  obtain ⟨_, _, _, rfl⟩ := h.rest; rfl

theorem State.modMc_work (s : State) (x : Nat) (f : Mc → Mc) (h : sameResults (s.mc x) (f (s.mc x))) :
    McWork but s (s.modMc x f) := by
  refine ⟨.of_eq rfl rfl (.refl _ _), fun y => ?_, fun _ => rfl, _, _, _, rfl⟩
  rcases eq_or_ne y x with rfl | hy
  · rw [State.mc_modMc]
    exact h
  · rw [State.mc_modMc_ne _ _ hy]
    exact .refl _

theorem State.used_mcWork (s : State) : McWork but s s.used :=
  ⟨.of_eq rfl rfl (.refl _ _), fun _ => .refl _, fun _ => rfl, _, _, _, rfl⟩

theorem State.setReg_mcWork (s : State) (n : RegName) (i : Nat) (v : Word) (hb : (⟨n, i⟩ : Reg) ∈ but)
    (hn : n ≠ .PMU_SEQ_STATUS) : McWork but s (s.setReg n i v) :=
  ⟨.setReg hb (.refl _ _), fun _ => .refl _,
    fun _ => State.fld_setReg_ne _ _ _ _ Fld.PMU_SEQ_STATUS_CAL_VALID _ (Ne.symm hn), _, _, _, rfl⟩

/-- A field of PMU_SEQ_STATUS but CAL_VALID is written. -/
theorem State.setStatusFld_mcWork (s : State) (f : Fld) (i v : Nat) (hb : (⟨f.reg, i⟩ : Reg) ∈ but)
    (hf : f.lsb + f.width ≤ 11 ∨ 12 ≤ f.lsb) : McWork but s (s.setFld f i v) :=
  ⟨.setFld hb (.refl _ _), fun _ => .refl _, fun _ => State.fld_setFld_apart _ _ Fld.PMU_SEQ_STATUS_CAL_VALID _ _ _ hf.symm,
    _, _, _, rfl⟩

/-- The status registers of the two converters. -/
theorem mem_seqStatus (hx : x < 2) : (⟨.PMU_SEQ_STATUS, x⟩ : Reg) ∈ seqStatus := by
  rcases (by omega : x = 0 ∨ x = 1) with rfl | rfl <;> simp [seqStatus]

/-! ### What a converter shows -/

/-- What the converter shows is its own conversion, or for MCB under XCHK that of MCA. -/
def State.shownMc (s : State) (x : Nat) : Mc := if x = 1 ∧ s.xchk ∧ (s.mc 1).act.isNone then s.mc 0 else s.mc x

/-- The kind of conversion that a record shows. -/
def Mc.activity (m : Mc) : Nat := match m.act with | none => 0 | some c => c.kind

/-- The entry that a record shows. -/
def Mc.entryShown (m : Mc) : Nat :=
  match m.act with
  | some c => if c.kind = 1 then c.entry else m.next.getD 0
  | none => m.next.getD 0

theorem State.pmuShowOne_eq (s : State) (x : Nat) :
    s.pmuShowOne x = ((((s.setFld Fld.PMU_SEQ_STATUS_ACTIVITY x (s.shownMc x).activity).setFld Fld.PMU_SEQ_STATUS_ENTRY x
      (s.shownMc x).entryShown).setFld Fld.PMU_SEQ_STATUS_INJ_QUEUED x (s.mc x).queue.length).setFld
        Fld.PMU_SEQ_STATUS_CAL_PENDING x (s.shownMc x).cal.toNat).setFld
      Fld.PMU_SEQ_STATUS_STREAMING x ((s.shownMc x).act.any fun c => c.streams).toNat := rfl

theorem State.pmuShowOne_work (s : State) (hx : x < 2) : McWork seqStatus s (s.pmuShowOne x) := by
  have hm := mem_seqStatus hx
  rw [State.pmuShowOne_eq]
  exact ((((s.setStatusFld_mcWork Fld.PMU_SEQ_STATUS_ACTIVITY x _ hm (by decide)).trans
    (State.setStatusFld_mcWork _ Fld.PMU_SEQ_STATUS_ENTRY x _ hm (by decide))).trans
    (State.setStatusFld_mcWork _ Fld.PMU_SEQ_STATUS_INJ_QUEUED x _ hm (by decide))).trans
    (State.setStatusFld_mcWork _ Fld.PMU_SEQ_STATUS_CAL_PENDING x _ hm (by decide))).trans
    (State.setStatusFld_mcWork _ Fld.PMU_SEQ_STATUS_STREAMING x _ hm (by decide))

theorem State.pmuShowOne_pmu (s : State) (x : Nat) : (s.pmuShowOne x).pmu = s.pmu := rfl

/-- The display tells the conversion under way and the requests that wait. -/
theorem State.pmuShowOne_shows (s : State) (x : Nat) :
    (s.pmuShowOne x).fld Fld.PMU_SEQ_STATUS_ACTIVITY x = (s.shownMc x).activity % 4 ∧
      (s.pmuShowOne x).fld Fld.PMU_SEQ_STATUS_INJ_QUEUED x = (s.mc x).queue.length % 8 := by
  rw [State.pmuShowOne_eq]
  constructor
  · rw [State.fld_setFld_apart _ _ _ _ _ _ (by decide), State.fld_setFld_apart _ _ _ _ _ _ (by decide),
      State.fld_setFld_apart _ _ _ _ _ _ (by decide), State.fld_setFld_apart _ _ _ _ _ _ (by decide)]
    exact State.fld_setFld_eq _ _ _ _ (by decide)
  · rw [State.fld_setFld_apart _ _ _ _ _ _ (by decide), State.fld_setFld_apart _ _ _ _ _ _ (by decide)]
    exact State.fld_setFld_eq _ _ _ _ (by decide)

theorem State.pmuShow_work (s : State) (hx : x < 2) : McWork seqStatus s (s.pmuShow x) :=
  .ite ((s.pmuShowOne_work (by decide)).trans (State.pmuShowOne_work _ (by decide))) (s.pmuShowOne_work hx)

theorem State.pmuShow_pmu (s : State) (x : Nat) : (s.pmuShow x).pmu = s.pmu := by
  unfold State.pmuShow
  split <;> rfl

theorem State.pmuShow_shows (s : State) (x : Nat) :
    (s.pmuShow x).fld Fld.PMU_SEQ_STATUS_ACTIVITY x = (s.shownMc x).activity % 4 ∧
      (s.pmuShow x).fld Fld.PMU_SEQ_STATUS_INJ_QUEUED x = (s.mc x).queue.length % 8 := by
  unfold State.pmuShow
  split
  · next h =>
    obtain ⟨rfl, -⟩ := h
    obtain ⟨h1, h2⟩ := s.pmuShowOne_shows 0
    have hother : ∀ (a : State) (f : Fld), (a.pmuShowOne 1).fld f 0 = a.fld f 0 := fun a f => by
      rw [State.pmuShowOne_eq, State.fld_setFld_index _ _ _ _ _ _ (by decide), State.fld_setFld_index _ _ _ _ _ _ (by decide),
        State.fld_setFld_index _ _ _ _ _ _ (by decide), State.fld_setFld_index _ _ _ _ _ _ (by decide),
        State.fld_setFld_index _ _ _ _ _ _ (by decide)]
    rw [hother, hother]
    exact ⟨h1, h2⟩
  · exact s.pmuShowOne_shows x

/-! ### Conversions start -/

/-- A conversion starts: the record tells its kind and settings, and nothing else changes but the count of free values. -/
theorem State.startConv_eq (s : State) (x kind : Nat) (v : Word) (entry : Nat) (restarted : Bool) (t : Tu) :
    ∃ (b : State) (c : Conv), (b = s ∨ b = s.used) ∧ c.kind = kind ∧ c.settings = v ∧
      s.startConv x kind v entry restarted t = b.modMc x fun m => { m with act := some c } := by
  have hedge : (s.modEdge x t).1 = s ∨ (s.modEdge x t).1 = s.used := by
    unfold State.modEdge
    split
    · exact .inr rfl
    · exact .inl rfl
  refine ⟨(s.modEdge x t).1, _, hedge, ?_, ?_, rfl⟩
  · dsimp only
    split
    · next h => exact h.symm
    · rfl
  · dsimp only
    split <;> rfl

theorem State.startConv_mc (s : State) (x kind : Nat) (v : Word) (entry : Nat) (restarted : Bool) (t : Tu) :
    ∃ c : Conv, c.kind = kind ∧ c.settings = v ∧
      (s.startConv x kind v entry restarted t).mc x = { s.mc x with act := some c } ∧
      ∀ y, y ≠ x → (s.startConv x kind v entry restarted t).mc y = s.mc y := by
  obtain ⟨b, c, hb, hk, hv, heq⟩ := s.startConv_eq x kind v entry restarted t
  have hbm : ∀ y, b.mc y = s.mc y := by rcases hb with rfl | rfl <;> exact fun _ => rfl
  rw [heq]
  exact ⟨c, hk, hv, by rw [State.mc_modMc, hbm], fun y hy => by rw [State.mc_modMc_ne _ _ hy, hbm]⟩

theorem State.startConv_work (s : State) (x kind : Nat) (v : Word) (entry : Nat) (restarted : Bool) (t : Tu) :
    McWork but s (s.startConv x kind v entry restarted t) := by
  obtain ⟨b, c, hb, -, -, heq⟩ := s.startConv_eq x kind v entry restarted t
  rw [heq]
  have hsb : McWork but s b := by
    rcases hb with rfl | rfl
    · exact .refl _ _
    · exact s.used_mcWork
  exact hsb.trans (State.modMc_work _ _ _ ⟨rfl, rfl, rfl, rfl⟩)

/-- The state in which converter `x` chooses what comes next: MCA takes XCHK over where it is idle. -/
def State.xchkTaken (s : State) (x : Nat) : State :=
  if x = 0 ∧ (s.mc 0).act.isNone then s.modMc 0 fun m => { m with xchk := s.flag Fld.PMU_MC_CFG_XCHK 0 } else s

/-- The converter starts what comes next, where it can. -/
def State.pmuStarts (s0 : State) (x : Nat) (t : Tu) : State :=
  let m := s0.mc x
  let waits := m.restart || m.next.isSome
  let entry (e : Nat) : Word := s0.reg .PMU_SEQ_ENTRY (16 * x + e)
  match m.queue with
  | w :: rest =>
    if !waits || m.served < 4 then
      (s0.startConv x 2 w 0 false t).modMc x fun m => { m with queue := rest, served := m.served + 1 }
    else if m.cal then (s0.startConv x 3 0 0 false t).modMc x fun m => { m with cal := false }
    else
      (s0.startConv x 1 (entry (m.next.getD 0)) (m.next.getD 0) m.restart t).modMc x fun m =>
        { m with restart := false, served := 0 }
  | [] =>
    if m.cal then (s0.startConv x 3 0 0 false t).modMc x fun m => { m with cal := false }
    else if waits then
      (s0.startConv x 1 (entry (m.next.getD 0)) (m.next.getD 0) m.restart t).modMc x fun m =>
        { m with restart := false, served := 0 }
    else s0

theorem State.pmuNext_eq (s : State) (x : Nat) (t : Tu) :
    s.pmuNext x t = if ((s.xchkTaken x).mc x).act.isSome || !(s.xchkTaken x).flag Fld.PMU_MC_CFG_EN x ||
      (x == 1 && (s.xchkTaken x).xchk) || !(s.xchkTaken x).gateOpen 25 then (s.xchkTaken x).pmuShow x
    else ((s.xchkTaken x).pmuStarts x t).pmuShow x := rfl

theorem State.xchkTaken_work (s : State) (x : Nat) : McWork but s (s.xchkTaken x) :=
  .ite (s.modMc_work _ _ ⟨rfl, rfl, rfl, rfl⟩) (.refl _ _)

theorem State.pmuStarts_work (s : State) (x : Nat) (t : Tu) : McWork but s (s.pmuStarts x t) := by
  have hstart : ∀ kind v entry restarted (f : Mc → Mc), (∀ m, sameResults m (f m)) →
      McWork but s ((s.startConv x kind v entry restarted t).modMc x f) := fun kind v entry restarted f hf =>
    (s.startConv_work x kind v entry restarted t).trans (State.modMc_work _ _ _ (hf _))
  unfold State.pmuStarts
  dsimp only
  split
  · split
    · exact hstart _ _ _ _ _ fun _ => ⟨rfl, rfl, rfl, rfl⟩
    · split
      · exact hstart _ _ _ _ _ fun _ => ⟨rfl, rfl, rfl, rfl⟩
      · exact hstart _ _ _ _ _ fun _ => ⟨rfl, rfl, rfl, rfl⟩
  · split
    · exact hstart _ _ _ _ _ fun _ => ⟨rfl, rfl, rfl, rfl⟩
    · split
      · exact hstart _ _ _ _ _ fun _ => ⟨rfl, rfl, rfl, rfl⟩
      · exact .refl _ _

theorem State.pmuNext_work (s : State) (hx : x < 2) (t : Tu) : McWork seqStatus s (s.pmuNext x t) := by
  rw [State.pmuNext_eq]
  exact (s.xchkTaken_work x).trans (.ite (State.pmuShow_work _ hx)
    ((State.pmuStarts_work _ x t).trans (State.pmuShow_work _ hx)))

theorem State.pmuGo_work (s : State) (hx : x < 2) (t : Tu) : McWork seqStatus s (s.pmuGo x t) := by
  have hn := s.pmuNext_work hx t
  unfold State.pmuGo
  refine .ite (hn.trans (State.modMc_work _ _ _ ⟨rfl, rfl, rfl, rfl⟩)) (.ite (hn.trans ?_) hn)
  exact (McWork.ite (State.modMc_work _ 1 _ ⟨rfl, rfl, rfl, rfl⟩) (.refl _ _)).trans (State.pmuNext_work _ (by decide) t)

/-! ### Requests on their way -/

theorem State.pmuArrive_none {z : Tu} (h : noneTriggered s z) : s.pmuArrive z = s := by
  refine foldl_fixed_mem fun y hy => ?_
  have hf : ((s.mc y).due.filter fun d => tuLe d.1 z) = [] := by
    rw [List.filter_eq_nil_iff]
    exact fun d hd => by rw [h y (List.mem_range.1 hy) d hd]; exact Bool.false_ne_true
  dsimp only
  rw [hf]
  rfl

theorem noneTriggered_at {z z' : Tu} (h : noneTriggered s z) : noneTriggered (s.at z') z := fun y hy d hd =>
  h y hy d (by rw [State.at_mc] at hd; exact hd)

end Sys2Proof.Machine
end

section
/-! Injected conversions (R301, R302, R304, R306). -/

namespace Sys2Proof.Machine

variable {s t u w : State} {but : List Reg} {srcs : List Nat} {x y : Nat}

/-- A write of PMU_INJ_REQ with GO is a request. -/
theorem exec_pmuInjReq {t : Tu} {x : Fin 2} {v : Word} (hup : s.hostUp = true) (hn : noneTriggered s (s.at t).time)
    (hgo : v.getLsbD 22 = true) : exec (.pmuInjReq t x v) s = s.done ((s.at t).inject x v (s.at t).time) := by
  rw [exec, execPmuInjReq, State.whenHost_eq hup]
  rw [if_pos hgo, State.pmuArrive_none (noneTriggered_at hn)]

theorem pmuInjReq_idle (t : Tu) (x : Fin 2) (v : Word) (hup : s.hostUp = true) (hgo : v.getLsbD 22 = false) :
    ∃ u, exec (.pmuInjReq t x v) s = .next u ∧ u.pmu = s.pmu ∧ onlyRegs s u [] := by
  obtain ⟨hd, -, hon⟩ := s.done_at t
  refine ⟨_, ?_, State.at_pmu _ _, hon⟩
  rw [exec, execPmuInjReq, State.whenHost_eq hup]
  rw [if_neg (by rw [hgo]; exact Bool.false_ne_true)]
  exact hd

theorem pmuInjReq_refused (t : Tu) (x : Fin 2) (v : Word) (hup : s.hostUp = true) (hn : noneTriggered s (s.at t).time)
    (hgo : v.getLsbD 22 = true)
    (hoff : 4 ≤ (s.mc x).queue.length ∨ s.flag Fld.PMU_MC_CFG_EN x = false ∨ (x = 1 ∧ s.xchk = true))
    (hlt : s.fld Fld.PMU_INJ_DROP_REFUSED x < 2 ^ 16 - 1) :
    ∃ u, exec (.pmuInjReq t x v) s = .next u ∧ u.fld Fld.PMU_INJ_DROP_REFUSED x = s.fld Fld.PMU_INJ_DROP_REFUSED x + 1 ∧
      (s.fld Fld.EVT_ROUTE_KIND 376 ≠ 1 → u.evtStatus 376 = true) ∧ (u.mc x).queue = (s.mc x).queue ∧
      onlyRaising s u [⟨.PMU_INJ_DROP, x⟩] [376] := by
  have hc : 4 ≤ ((s.at t).mc x).queue.length ∨ (!(s.at t).flag Fld.PMU_MC_CFG_EN x) = true ∨ (x.val = 1 ∧ (s.at t).xchk = true) := by
    rw [State.at_mc, State.at_flag, State.at_xchk, Bool.not_eq_true']
    exact hoff.imp_right (Or.imp_right fun h => ⟨congrArg Fin.val h.1, h.2⟩)
  have hex := exec_pmuInjReq (x := x) hup hn hgo
  rw [State.inject, if_pos hc] at hex
  have hwo : onlyRegs (s.at t) ((s.at t).bump Fld.PMU_INJ_DROP_REFUSED x 1) [⟨.PMU_INJ_DROP, x⟩] :=
    .bump (by simp) (.refl _ _)
  obtain ⟨u, hu, hr⟩ := State.done_raisedIf (s := s) (x := t) (k := 376) (c := True) (causes := 2 ^ 0) (info := x) hwo
    rfl rfl
  refine ⟨u, hex.trans hu, ?_, fun hk => hr.status trivial (State.raisable_hub rfl hk), ?_, hr.only⟩
  · rw [hr.fld _ _ rfl, State.fld_bump_lt _ _ _ (by decide) (by rw [State.at_fld]; exact hlt), State.at_fld]
  · rw [State.mc_of_eq hr.raises.pmu, ← State.at_mc s t]
    rfl

/-- An idle converter that may run starts what comes next. -/
theorem State.pmuNext_idle {z : Tu} (ha : (s.mc x).act = none) (hen : s.flag Fld.PMU_MC_CFG_EN x = true)
    (hx : x = 1 → s.xchk = false) (hg : s.gateOpen 25 = true) :
    s.pmuNext x z = ((s.xchkTaken x).pmuStarts x z).pmuShow x ∧ ∃ k, (s.xchkTaken x).mc x = { s.mc x with xchk := k } := by
  obtain ⟨a, haeq⟩ : ∃ a, a = s.xchkTaken x := ⟨_, rfl⟩
  obtain ⟨k, hk⟩ : ∃ k, a.mc x = { s.mc x with xchk := k } := by
    rw [haeq, State.xchkTaken]
    split
    · next h =>
      obtain ⟨rfl, -⟩ := h
      exact ⟨_, State.mc_modMc _ _ _⟩
    · exact ⟨_, rfl⟩
  have hregs : a.regs = s.regs := by
    rw [haeq, State.xchkTaken]
    split <;> rfl
  have hax : (x == 1 && a.xchk) = false := by
    rcases eq_or_ne x 1 with rfl | h1
    · have : a = s := by rw [haeq, State.xchkTaken, if_neg (fun h => absurd h.1 (by decide))]
      rw [this, hx rfl]
      rfl
    · rw [beq_false_of_ne h1, Bool.false_and]
  have haen : a.flag Fld.PMU_MC_CFG_EN x = true := by
    rw [← hen]
    exact State.flag_of_reg (by rw [State.reg, State.reg, hregs])
  have hag : a.gateOpen 25 = true := by
    rw [← hg]
    exact State.gateOpen_of_reg (by rw [State.reg, State.reg, hregs]) (by rw [State.reg, State.reg, hregs])
  refine ⟨?_, k, haeq ▸ hk⟩
  rw [State.pmuNext_eq, ← haeq, haen, hax, hag, hk, ha]
  exact if_neg (by decide)

/-- The display of a converter that converts. -/
theorem State.pmuShow_active {c : Conv} (h : (s.mc x).act = some c) :
    (s.pmuShow x).mc x = s.mc x ∧ (s.pmuShow x).fld Fld.PMU_SEQ_STATUS_ACTIVITY x = c.kind % 4 := by
  have hshown : s.shownMc x = s.mc x := by
    unfold State.shownMc
    refine if_neg fun h' => ?_
    obtain ⟨rfl, -, h2⟩ := h'
    rw [h] at h2
    cases h2
  refine ⟨State.mc_of_eq (State.pmuShow_pmu _ _) _, ?_⟩
  rw [(s.pmuShow_shows x).1, hshown, Mc.activity, h]

/-- What starts where nothing but one injected request waits. -/
theorem State.pmuNext_starts {v : Word} {z : Tu} (ha : (s.mc x).act = none) (hen : s.flag Fld.PMU_MC_CFG_EN x = true)
    (hx : x = 1 → s.xchk = false) (hg : s.gateOpen 25 = true) (hq : (s.mc x).queue = [v])
    (hserve : ((s.mc x).restart = false ∧ (s.mc x).next = none) ∨ (s.mc x).served < 4) :
    ∃ c : Conv, c.kind = 2 ∧ c.settings = v ∧ ((s.pmuNext x z).mc x).act = some c ∧ ((s.pmuNext x z).mc x).queue = [] ∧
      ((s.pmuNext x z).mc x).restart = (s.mc x).restart ∧ ((s.pmuNext x z).mc x).next = (s.mc x).next ∧
      (s.pmuNext x z).fld Fld.PMU_SEQ_STATUS_ACTIVITY x = 2 := by
  obtain ⟨hnext, k, hk⟩ := s.pmuNext_idle (z := z) ha hen hx hg
  obtain ⟨a, haeq⟩ : ∃ a, a = s.xchkTaken x := ⟨_, rfl⟩
  rw [← haeq] at hnext hk
  have hserves : (!((a.mc x).restart || (a.mc x).next.isSome) || decide ((a.mc x).served < 4)) = true := by
    rw [hk]
    rcases hserve with ⟨h1, h2⟩ | h
    · simp [h1, h2]
    · simp [h]
  obtain ⟨c, hck, hcs, hcm, -⟩ := a.startConv_mc x 2 v 0 false z
  have hstart : a.pmuStarts x z = (a.startConv x 2 v 0 false z).modMc x fun m => { m with queue := [], served := m.served + 1 } := by
    unfold State.pmuStarts
    dsimp only
    rw [show (a.mc x).queue = [v] by rw [hk]; exact hq]
    exact if_pos hserves
  obtain ⟨b, hb⟩ : ∃ b, b = a.pmuStarts x z := ⟨_, rfl⟩
  have hbm : b.mc x = { s.mc x with xchk := k, act := some c, queue := [], served := (s.mc x).served + 1 } := by
    rw [hb, hstart, State.mc_modMc, hcm, hk]
  obtain ⟨hmc, hshow⟩ := b.pmuShow_active (x := x) (c := c) (by rw [hbm])
  rw [hnext, ← hb, hmc]
  exact ⟨c, hck, hcs, by rw [hbm], by rw [hbm], by rw [hbm], by rw [hbm], hshow.trans (by rw [hck])⟩

/-- What starts where nothing but a calibration waits. -/
theorem State.pmuNext_calibrates {z : Tu} (ha : (s.mc x).act = none) (hen : s.flag Fld.PMU_MC_CFG_EN x = true)
    (hx : x = 1 → s.xchk = false) (hg : s.gateOpen 25 = true) (hq : (s.mc x).queue = []) (hc : (s.mc x).cal = true) :
    ∃ c : Conv, c.kind = 3 ∧ ((s.pmuNext x z).mc x).act = some c ∧ ((s.pmuNext x z).mc x).cal = false ∧
      (s.pmuNext x z).fld Fld.PMU_SEQ_STATUS_ACTIVITY x = 3 := by
  obtain ⟨hnext, k, hk⟩ := s.pmuNext_idle (z := z) ha hen hx hg
  obtain ⟨a, haeq⟩ : ∃ a, a = s.xchkTaken x := ⟨_, rfl⟩
  rw [← haeq] at hnext hk
  obtain ⟨c, hck, -, hcm, -⟩ := a.startConv_mc x 3 0 0 false z
  have hstart : a.pmuStarts x z = (a.startConv x 3 0 0 false z).modMc x fun m => { m with cal := false } := by
    unfold State.pmuStarts
    dsimp only
    rw [show (a.mc x).queue = [] by rw [hk]; exact hq]
    exact if_pos (by rw [hk]; exact hc)
  obtain ⟨b, hb⟩ : ∃ b, b = a.pmuStarts x z := ⟨_, rfl⟩
  have hbm : b.mc x = { s.mc x with xchk := k, act := some c, cal := false } := by
    rw [hb, hstart, State.mc_modMc, hcm, hk]
  obtain ⟨hmc, hshow⟩ := b.pmuShow_active (x := x) (c := c) (by rw [hbm])
  rw [hnext, ← hb, hmc]
  exact ⟨c, hck, by rw [hbm], by rw [hbm], hshow.trans (by rw [hck])⟩

/-- A request joins the queue. -/
def State.queued (s : State) (x : Nat) (v : Word) : State :=
  s.modMc x fun m => { m with queue := m.queue ++ [v &&& 0x3FFFFF#32] }

theorem State.inject_takes {v : Word} {z : Tu} (hq : (s.mc x).queue.length < 4) (hen : s.flag Fld.PMU_MC_CFG_EN x = true)
    (hx : x = 1 → s.xchk = false) : s.inject x v z = ((s.queued x v).abortConv x).pmuNext x z := by
  rw [State.inject, State.queued]
  refine if_neg fun h => ?_
  rcases h with h | h | ⟨h, h'⟩
  · omega
  · rw [hen] at h
    cases h
  · rw [hx h] at h'
    cases h'

theorem State.queued_mc (s : State) (x : Nat) (v : Word) :
    (s.queued x v).mc x = { s.mc x with queue := (s.mc x).queue ++ [v &&& 0x3FFFFF#32] } := State.mc_modMc _ _ _

/-- The request leaves XCHK and everything but the queue. -/
theorem State.queued_xchk (s : State) (x : Nat) (v : Word) : (s.queued x v).xchk = s.xchk := by
  rw [State.xchk, State.xchk]
  rcases eq_or_ne 0 x with rfl | hx
  · rw [State.queued_mc]
  · rw [State.queued, State.mc_modMc_ne _ _ hx]

theorem State.queued_work (s : State) (x : Nat) (v : Word) : McWork but s (s.queued x v) :=
  s.modMc_work x _ ⟨rfl, rfl, rfl, rfl⟩

theorem State.abortConv_other (h : ∀ c, (s.mc x).act = some c → c.kind ≠ 1 ∨ c.restarted = true) : s.abortConv x = s := by
  unfold State.abortConv
  split
  · next c hc =>
    refine if_neg fun hk => ?_
    rcases h c hc with h | h
    · exact h hk.1
    · rw [h] at hk
      exact absurd hk.2 (by decide)
  · rfl

/-- What is read at the instant of a command is what the state holds. -/
theorem at_converter {t : Tu} {x : Nat} (hen : s.flag Fld.PMU_MC_CFG_EN x = true) (hx : x = 1 → s.xchk = false) :
    (s.at t).flag Fld.PMU_MC_CFG_EN x = true ∧ (x = 1 → (s.at t).xchk = false) :=
  ⟨by rw [State.at_flag]; exact hen, fun h => by rw [State.at_xchk]; exact hx h⟩

theorem pmuInjReq_converted (t : Tu) (x : Fin 2) (v : Word) (hup : s.hostUp = true) (hn : noneTriggered s (s.at t).time)
    (hgo : v.getLsbD 22 = true) (hq : (s.mc x).queue = []) (ha : (s.mc x).act = none) (hr : (s.mc x).restart = false)
    (hnx : (s.mc x).next = none) (hen : s.flag Fld.PMU_MC_CFG_EN x = true) (hg : s.gateOpen 25 = true)
    (hx : x.val = 1 → s.xchk = false) :
    ∃ u c, exec (.pmuInjReq t x v) s = .next u ∧ (u.mc x).act = some c ∧ c.kind = 2 ∧ c.settings = v &&& 0x3FFFFF#32 ∧
      (u.mc x).queue = [] ∧ u.fld Fld.PMU_SEQ_STATUS_ACTIVITY x = 2 ∧ onlyRegs s u seqStatus := by
  obtain ⟨hen', hx'⟩ := at_converter (t := t) hen hx
  have hmc : ((s.at t).queued x v).mc x = { s.mc x with queue := [v &&& 0x3FFFFF#32] } := by
    rw [State.queued_mc, State.at_mc, hq]
    rfl
  have hex := exec_pmuInjReq (x := x) hup hn hgo
  rw [State.inject_takes (by rw [State.at_mc, hq]; decide) hen' hx', State.abortConv_other (fun c hc => by
    rw [hmc] at hc
    exact absurd (hc.symm.trans ha) (by simp))] at hex
  obtain ⟨c, hck, hcs, hact, hqu, -, -, hshow⟩ := ((s.at t).queued x v).pmuNext_starts (x := x) (z := (s.at t).time)
    (by rw [hmc]; exact ha) hen' (fun h => ((s.at t).queued_xchk x v).trans (hx' h)) ((State.at_gateOpen s t 25).trans hg)
    (by rw [hmc]) (.inl ⟨by rw [hmc]; exact hr, by rw [hmc]; exact hnx⟩)
  obtain ⟨hd, hon⟩ := State.done_onlyRegs (x := t)
    (((s.at t).queued_work x v).trans (State.pmuNext_work _ x.isLt (s.at t).time)).only rfl
  exact ⟨_, c, hex.trans hd, hact, hck, hcs, hqu, hshow, hon⟩

theorem pmuInjReq_waits (t : Tu) (x : Fin 2) (v : Word) (c : Conv) (hup : s.hostUp = true)
    (hn : noneTriggered s (s.at t).time) (hgo : v.getLsbD 22 = true) (hq : (s.mc x).queue.length < 4)
    (ha : (s.mc x).act = some c) (hc : c.kind ≠ 1 ∨ c.restarted = true) (hen : s.flag Fld.PMU_MC_CFG_EN x = true)
    (hx : x.val = 1 → s.xchk = false) :
    ∃ u, exec (.pmuInjReq t x v) s = .next u ∧ (u.mc x).queue = (s.mc x).queue ++ [v &&& 0x3FFFFF#32] ∧
      (u.mc x).act = some c ∧ u.fld Fld.PMU_SEQ_STATUS_INJ_QUEUED x = (s.mc x).queue.length + 1 ∧
      onlyRegs s u seqStatus := by
  obtain ⟨hen', hx'⟩ := at_converter (t := t) hen hx
  obtain ⟨a, haeq⟩ : ∃ a, a = (s.at t).queued x v := ⟨_, rfl⟩
  have hmc : a.mc x = { s.mc x with queue := (s.mc x).queue ++ [v &&& 0x3FFFFF#32] } := by
    rw [haeq, State.queued_mc, State.at_mc]
  have hact : (a.mc x).act = some c := by rw [hmc]; exact ha
  have htaken : a.xchkTaken x = a := by
    refine if_neg fun h => ?_
    obtain ⟨h0, h1⟩ := h
    rw [← h0, hact] at h1
    cases h1
  have hnext : a.pmuNext x (s.at t).time = a.pmuShow x := by
    rw [State.pmuNext_eq, htaken, hact]
    exact if_pos rfl
  have hex := exec_pmuInjReq (x := x) hup hn hgo
  rw [State.inject_takes (by rw [State.at_mc]; exact hq) hen' hx', ← haeq, State.abortConv_other (fun d hd => by
    rw [hact] at hd
    exact Option.some.inj hd ▸ hc), hnext] at hex
  obtain ⟨hd, hon⟩ := State.done_onlyRegs (x := t)
    ((haeq ▸ (s.at t).queued_work x v : McWork seqStatus _ a).trans (State.pmuShow_work _ x.isLt)).only rfl
  have hmcu : (a.pmuShow x).mc x = a.mc x := State.mc_of_eq (State.pmuShow_pmu _ _) _
  refine ⟨_, hex.trans hd, by rw [hmcu, hmc], by rw [hmcu, hact], ?_, hon⟩
  rw [(a.pmuShow_shows x).2, hmc]
  change ((s.mc x).queue ++ [v &&& 0x3FFFFF#32]).length % 8 = _
  rw [List.length_append, List.length_singleton, Nat.mod_eq_of_lt (by omega)]

/-- The record of a converter whose regular conversion is aborted. -/
def Mc.aborted (m : Mc) (c : Conv) : Mc :=
  if c.ended then { m with act := none, served := 0 }
  else { m with act := none, restart := true, next := some c.entry, served := 0 }

theorem State.abortConv_regular {c : Conv} (ha : (s.mc x).act = some c) (hk : c.kind = 1) (hr : c.restarted = false) :
    s.abortConv x = (s.bump Fld.PMU_ABORT_CNT_COUNT x 1).modMc x fun m => m.aborted c := by
  unfold State.abortConv
  rw [ha]
  exact if_pos ⟨hk, by rw [hr]; rfl⟩

theorem Mc.aborted_reads (m : Mc) (c : Conv) :
    (m.aborted c).act = none ∧ (m.aborted c).served = 0 ∧ (m.aborted c).queue = m.queue ∧
      (c.ended = false → (m.aborted c).restart = true ∧ (m.aborted c).next = some c.entry) ∧
      (c.ended = true → (m.aborted c).restart = m.restart ∧ (m.aborted c).next = m.next) ∧
      sameResults m (m.aborted c) ∧ (m.aborted c).xchk = m.xchk := by
  unfold Mc.aborted
  split
  · next h => exact ⟨rfl, rfl, rfl, fun h' => absurd (h.symm.trans h') (by decide), fun _ => ⟨rfl, rfl⟩, ⟨rfl, rfl, rfl, rfl⟩, rfl⟩
  · next h => exact ⟨rfl, rfl, rfl, fun _ => ⟨rfl, rfl⟩, fun h' => absurd h' h, ⟨rfl, rfl, rfl, rfl⟩, rfl⟩

theorem pmuInjReq_aborts (t : Tu) (x : Fin 2) (v : Word) (c : Conv) (hup : s.hostUp = true)
    (hn : noneTriggered s (s.at t).time) (hgo : v.getLsbD 22 = true) (hq : (s.mc x).queue = [])
    (ha : (s.mc x).act = some c) (hk : c.kind = 1) (hr : c.restarted = false) (hen : s.flag Fld.PMU_MC_CFG_EN x = true)
    (hg : s.gateOpen 25 = true) (hx : x.val = 1 → s.xchk = false) (hlt : s.fld Fld.PMU_ABORT_CNT_COUNT x < 2 ^ 32 - 1) :
    ∃ u c', exec (.pmuInjReq t x v) s = .next u ∧ (u.mc x).act = some c' ∧ c'.kind = 2 ∧
      c'.settings = v &&& 0x3FFFFF#32 ∧
      (c.ended = false → (u.mc x).restart = true ∧ (u.mc x).next = some c.entry) ∧
      (c.ended = true → (u.mc x).restart = (s.mc x).restart ∧ (u.mc x).next = (s.mc x).next) ∧
      u.fld Fld.PMU_ABORT_CNT_COUNT x = s.fld Fld.PMU_ABORT_CNT_COUNT x + 1 ∧
      onlyRegs s u (⟨.PMU_ABORT_CNT, x⟩ :: seqStatus) := by
  obtain ⟨hen', hx'⟩ := at_converter (t := t) hen hx
  obtain ⟨a, haeq⟩ : ∃ a, a = (s.at t).queued x v := ⟨_, rfl⟩
  have hmc : a.mc x = { s.mc x with queue := [v &&& 0x3FFFFF#32] } := by
    rw [haeq, State.queued_mc, State.at_mc, hq]
    rfl
  obtain ⟨b, hb⟩ : ∃ b, b = (a.bump Fld.PMU_ABORT_CNT_COUNT x 1).modMc x fun m => m.aborted c := ⟨_, rfl⟩
  obtain ⟨hact, hserved, hqueue, hgoes, hended, hres, hxchk⟩ := Mc.aborted_reads (a.mc x) c
  have hbm : b.mc x = (a.mc x).aborted c := by rw [hb, State.mc_modMc]; rfl
  have hex := exec_pmuInjReq (x := x) hup hn hgo
  rw [State.inject_takes (by rw [State.at_mc, hq]; decide) hen' hx', ← haeq,
    State.abortConv_regular (by rw [hmc]; exact ha) hk hr, ← hb] at hex
  have hab : onlyRegs a b [⟨.PMU_ABORT_CNT, x⟩] := by
    rw [hb]
    exact .of_eq rfl rfl (.bump (by simp) (.refl _ _))
  have hsb : onlyRegs (s.at t) b [⟨.PMU_ABORT_CNT, x⟩] := (haeq ▸ (s.at t).queued_work x v :
    McWork [⟨.PMU_ABORT_CNT, x.val⟩] _ a).only.trans hab
  have hbx : b.xchk = s.xchk := by
    have hax : a.xchk = s.xchk := by rw [haeq, State.queued_xchk, State.at_xchk]
    rw [← hax, State.xchk, State.xchk, hb]
    rcases eq_or_ne 0 x.val with h | h
    · rw [h, State.mc_modMc]
      exact hxchk
    · rw [State.mc_modMc_ne _ _ h]
      rfl
  have hreg : ∀ n i, n ≠ .PMU_ABORT_CNT → b.reg n i = s.reg n i := fun n i h => by
    rw [hsb.1 n i (fun hm => h (Reg.mk.inj (List.mem_singleton.1 hm)).1), State.at_reg]
  obtain ⟨c', hck, hcs, hact', -, hrs, hnx, -⟩ := b.pmuNext_starts (x := x) (z := (s.at t).time)
    (v := v &&& 0x3FFFFF#32) (by rw [hbm]; exact hact)
    (by rw [State.flag_of_reg (hreg _ _ (by decide))]; exact hen) (fun h => hbx.trans (hx h))
    (by rw [State.gateOpen_of_reg (hreg _ _ (by decide)) (hreg _ _ (by decide))]; exact hg)
    (by rw [hbm, hqueue, hmc]) (.inr (by rw [hbm, hserved]; decide))
  have hnw := b.pmuNext_work x.isLt (s.at t).time
  obtain ⟨hd, hon⟩ := State.done_onlyRegs (x := t) ((hsb.mono (by simp)).trans (hnw.only.mono
    (but := seqStatus) (but' := ⟨.PMU_ABORT_CNT, x.val⟩ :: seqStatus) (by simp))) rfl
  refine ⟨_, c', hex.trans hd, hact', hck, hcs, fun h => ?_, fun h => ?_, ?_, hon⟩
  · rw [hrs, hnx, hbm]
    exact hgoes h
  · rw [hrs, hnx, hbm, (hended h).1, (hended h).2, hmc]
    exact ⟨rfl, rfl⟩
  · have hbc : b.fld Fld.PMU_ABORT_CNT_COUNT x = s.fld Fld.PMU_ABORT_CNT_COUNT x + 1 := by
      have haf : a.fld Fld.PMU_ABORT_CNT_COUNT x = s.fld Fld.PMU_ABORT_CNT_COUNT x := by
        rw [← State.at_fld s t, haeq]
        rfl
      rw [← haf, ← State.fld_bump_lt a _ _ (by decide) (by rw [haf]; exact hlt), hb]
      rfl
    rw [← hbc]
    exact State.fld_of_reg (hnw.only.1 _ _ (by simp [seqStatus]))

/-! ### Records are taken out -/

/-- The registers in which a record is read. -/
def popRegs (x : Nat) : List Reg := [⟨.PMU_INJ_RES_TTS_LO, x⟩, ⟨.PMU_INJ_RES_TTS_HI, x⟩, ⟨.PMU_INJ_RES_VALUE, x⟩,
  ⟨.PMU_INJ_RES_INFO, x⟩]

/-- The registers show a record. -/
def State.showRecord (s : State) (x : Nat) (tts : Tu) (value info : Word) : State :=
  ((s.setPair .PMU_INJ_RES_TTS_LO .PMU_INJ_RES_TTS_HI x tts).setReg .PMU_INJ_RES_VALUE x value).setReg
    .PMU_INJ_RES_INFO x info

theorem State.showRecord_reads (s : State) (x : Nat) (tts : Tu) (value info : Word) :
    (s.showRecord x tts value info).pair .PMU_INJ_RES_TTS_LO .PMU_INJ_RES_TTS_HI x = tts ∧
      (s.showRecord x tts value info).reg .PMU_INJ_RES_VALUE x = value ∧
      (s.showRecord x tts value info).reg .PMU_INJ_RES_INFO x = info ∧
      onlyRegs s (s.showRecord x tts value info) (popRegs x) := by
  refine ⟨?_, ?_, State.reg_setReg_same _ _ _ _, .setReg (by simp [popRegs]) (.setReg (by simp [popRegs])
    (.setReg (by simp [popRegs]) (.setReg (by simp [popRegs]) (.refl _ _))))⟩
  · rw [State.showRecord, State.pair, State.reg_setReg_ne _ _ _ _ _ _ (by decide),
      State.reg_setReg_ne _ _ _ _ _ _ (by decide), State.reg_setReg_ne _ _ _ _ _ _ (by decide),
      State.reg_setReg_ne _ _ _ _ _ _ (by decide)]
    exact State.pair_setPair _ _ _ (by decide)
  · rw [State.showRecord, State.reg_setReg_ne _ _ _ _ _ _ (by decide), State.reg_setReg_same]

theorem exec_pmuInjResPop {t : Tu} {x : Fin 2} (hup : s.hostUp = true) (hn : noneTriggered s (s.at t).time) :
    exec (.pmuInjResPop t x) s = s.done ((s.at t).injPop x) := by
  rw [exec, execPmuInjResPop, State.whenHost_eq hup, State.pmuArrive_none (noneTriggered_at hn)]

theorem pmuInjResPop_takes (t : Tu) (x : Fin 2) (hup : s.hostUp = true) (hn : noneTriggered s (s.at t).time)
    (r : PmuRec) (rest : List PmuRec) (hf : (s.mc x).fifo = r :: rest) :
    ∃ u, exec (.pmuInjResPop t x) s = .next u ∧ (u.mc x).fifo = rest ∧
      u.out = .readData (r.tts.setWidth 32) :: s.out ∧
      u.pair .PMU_INJ_RES_TTS_LO .PMU_INJ_RES_TTS_HI x = r.tts ∧ u.reg .PMU_INJ_RES_VALUE x = r.value ∧
      (u.reg .PMU_INJ_RES_INFO x).getLsbD 31 = true ∧ onlyRegs s u (popRegs x) := by
  obtain ⟨a, ha⟩ : ∃ a, a = (s.at t).showRecord x r.tts r.value ((r.info &&& 0x7FFFFFFF#32) ||| 0x80000000#32) := ⟨_, rfl⟩
  obtain ⟨h1, h2, h3, h4⟩ := (s.at t).showRecord_reads x r.tts r.value ((r.info &&& 0x7FFFFFFF#32) ||| 0x80000000#32)
  rw [← ha] at h1 h2 h3 h4
  obtain ⟨b, hb⟩ : ∃ b, b = (a.modMc x fun m => { m with fifo := rest }).emit (.readData (r.tts.setWidth 32)) := ⟨_, rfl⟩
  have hex : exec (.pmuInjResPop t x) s = s.done b := by
    rw [exec_pmuInjResPop hup hn, State.injPop, State.at_mc, hf, hb, ha]
    rfl
  obtain ⟨hd, hon⟩ := State.done_onlyRegs (x := t) (t := b) (but := popRegs x)
    (by rw [hb]; exact .of_eq rfl rfl h4) rfl
  have hreg : ∀ n i, b.reg n i = a.reg n i := fun n i => by rw [hb]; rfl
  refine ⟨b, hex.trans hd, ?_, ?_, ?_, ?_, ?_, hon⟩
  · have : b.mc x = { a.mc x with fifo := rest } := by
      rw [hb]
      exact State.mc_modMc _ _ _
    rw [this]
  · have hout : a.out = s.out := by rw [← State.at_out s t, ha]; rfl
    rw [← hout, hb]
    rfl
  · rw [State.pair, hreg, hreg]
    exact h1
  · rw [hreg, h2]
  · rw [hreg, h3]
    simp

theorem pmuInjResPop_empty (t : Tu) (x : Fin 2) (hup : s.hostUp = true) (hn : noneTriggered s (s.at t).time)
    (hf : (s.mc x).fifo = []) :
    ∃ u, exec (.pmuInjResPop t x) s = .next u ∧ u.out = .readData 0 :: s.out ∧ u.reg .PMU_INJ_RES_INFO x = 0 ∧
      onlyRegs s u (popRegs x) := by
  obtain ⟨-, -, h3, h4⟩ := (s.at t).showRecord_reads x 0 0 0
  have hex : exec (.pmuInjResPop t x) s = s.done (((s.at t).showRecord x 0 0 0).emit (.readData 0)) := by
    rw [exec_pmuInjResPop hup hn, State.injPop, State.at_mc, hf]
    rfl
  obtain ⟨hd, hon⟩ := State.done_onlyRegs (x := t) (.emit (o := .readData 0) h4) rfl
  refine ⟨_, hex.trans hd, ?_, h3, hon⟩
  rw [← State.at_out s t]
  rfl

/-- Settles O38: a request that is taken joins the queue (`State.inject_takes`), and what then starts at an idle converter is
the request (`State.pmuNext_starts`); a regular conversion under way is aborted for it (`State.abortConv_regular`). -/
theorem requestsAreInjected : Obligations.RequestsAreInjected := by
  unfold Obligations.RequestsAreInjected
  intro s t x hup hn
  have hfin : (x = 1 → s.xchk = false) → x.val = 1 → s.xchk = false := fun h hx => h (Fin.ext hx)
  exact ⟨fun v hgo => pmuInjReq_idle t x v hup hgo, fun v hgo hoff hlt => pmuInjReq_refused t x v hup hn hgo hoff hlt,
    fun v hgo hq ha hc hr hnx hen hg hx => pmuInjReq_converted t x v hup hn hgo hq ha hr hnx hen hg (hfin hx),
    fun v c hgo hq ha hc hen hx => pmuInjReq_waits t x v c hup hn hgo hq ha hc hen (hfin hx),
    fun v c hgo hq ha hk hr hen hg hx hlt => pmuInjReq_aborts t x v c hup hn hgo hq ha hk hr hen hg (hfin hx) hlt,
    fun r rest hf => pmuInjResPop_takes t x hup hn r rest hf, fun hf => pmuInjResPop_empty t x hup hn hf⟩

end Sys2Proof.Machine
end

section
/-! Force outputs, calibrations, and converters that are stopped (R290, R291, R303, R304, R308). -/

namespace Sys2Proof.Machine

variable {s t u w : State} {but : List Reg} {srcs : List Nat} {x y : Nat}

/-! ### Force outputs -/

theorem State.at_forceOf (s : State) (t : Tu) (n : Nat) : (s.at t).forceOf n = s.forceOf n := by
  rw [State.forceOf, State.at_pmu]
  rfl

theorem State.fld_writeForceCode (s : State) (n : Nat) (code : BitVec 18) :
    (s.setFld Fld.PMU_FORCE_CODE_CODE n code.toNat).fld Fld.PMU_FORCE_CODE_CODE n = code.toNat :=
  State.fld_setFld_of_lt _ _ _ (by decide) code.isLt

theorem State.forceMoved_eq (s0 s : State) (n : Nat) (z : Tu) : ∃ out, s0.forceMoved s n z = { s with out := out } := by
  unfold State.forceMoved
  split
  · exact ⟨_, rfl⟩
  · exact ⟨_, rfl⟩

theorem forceCodeWrite_waits (t : Tu) (n : Fin 16) (hup : s.hostUp = true) (code : BitVec 18)
    (hu : s.fld Fld.PMU_FORCE_CFG_UPD n = 1 ∨ s.fld Fld.PMU_FORCE_CFG_UPD n = 2) :
    ∃ u, exec (.forceCodeWrite t n code) s = .next u ∧ u.fld Fld.PMU_FORCE_CODE_CODE n = code.toNat ∧
      u.forceOf n = (s.forceOf n).filter (fun p => p.upd == s.fld Fld.PMU_FORCE_CFG_UPD n) ++
        [⟨code.toNat, if s.fld Fld.PMU_FORCE_CFG_UPD n = 1 then (s.at t).hubStamp else (s.at t).time,
          s.fld Fld.PMU_FORCE_CFG_UPD n⟩] ∧
      onlyRegs s u [⟨.PMU_FORCE_CODE, n⟩] := by
  obtain ⟨l, hl⟩ : ∃ l, l = (s.forceOf n).filter (fun p => p.upd == s.fld Fld.PMU_FORCE_CFG_UPD n) ++
    [⟨code.toNat, (s.at t).forceStamp (s.fld Fld.PMU_FORCE_CFG_UPD n), s.fld Fld.PMU_FORCE_CFG_UPD n⟩] := ⟨_, rfl⟩
  have hex : exec (.forceCodeWrite t n code) s =
      s.done (((s.at t).setFld Fld.PMU_FORCE_CODE_CODE n code.toNat).setForce n l) := by
    rw [exec, execForceCodeWrite, State.whenHost_eq hup, State.writeForce]
    rw [State.at_fld, State.at_forceOf, if_pos hu, hl]
  obtain ⟨hd, hon⟩ := State.done_onlyRegs (x := t)
    (t := ((s.at t).setFld Fld.PMU_FORCE_CODE_CODE n code.toNat).setForce n l) (but := [⟨.PMU_FORCE_CODE, n.val⟩])
    (.of_eq rfl rfl (.setFld (by simp) (.refl _ _))) rfl
  refine ⟨_, hex.trans hd, State.fld_writeForceCode _ _ _, ?_, hon⟩
  rw [State.forceOf, State.setForce]
  rw [tget_tput_same, hl]
  rfl

theorem State.forceNow_reads (s : State) (n code : Nat) (z : Tu) (hn : n < 16) (hc : code < 2 ^ 18) :
    (s.forceNow n code z).fld Fld.PMU_FORCE_NOW_CODE n = code ∧ (s.forceNow n code z).fld Fld.PMU_FORCE_OUT_OUT 0 = n ∧
      (s.forceNow n code z).pair .PMU_FORCE_TTS_LO .PMU_FORCE_TTS_HI 0 = z ∧ (s.forceNow n code z).pmu = s.pmu ∧
      onlyRegs s (s.forceNow n code z) [⟨.PMU_FORCE_NOW, n⟩, ⟨.PMU_FORCE_OUT, 0⟩, ⟨.PMU_FORCE_TTS_LO, 0⟩,
        ⟨.PMU_FORCE_TTS_HI, 0⟩] := by
  obtain ⟨a, ha⟩ : ∃ a, a = ((s.setFld Fld.PMU_FORCE_NOW_CODE n code).setPair .PMU_FORCE_TTS_LO .PMU_FORCE_TTS_HI 0 z).setFld
    Fld.PMU_FORCE_OUT_OUT 0 n := ⟨_, rfl⟩
  obtain ⟨out, hout⟩ := s.forceMoved_eq a n z
  have heq : s.forceNow n code z = { a with out := out } := by rw [State.forceNow, ← ha, hout]
  have hnow : a.fld Fld.PMU_FORCE_NOW_CODE n = code := by
    rw [ha]
    exact (State.fld_setFld_ne _ _ Fld.PMU_FORCE_NOW_CODE _ _ _ (by decide)).trans
      ((State.fld_setReg_ne _ _ _ _ Fld.PMU_FORCE_NOW_CODE _ (by decide)).trans
        ((State.fld_setReg_ne _ _ _ _ Fld.PMU_FORCE_NOW_CODE _ (by decide)).trans
          (State.fld_setFld_of_lt _ _ _ (by decide) hc)))
  have hno : a.fld Fld.PMU_FORCE_OUT_OUT 0 = n := by
    rw [ha]
    exact State.fld_setFld_of_lt _ _ _ (by decide) hn
  have htts : a.pair .PMU_FORCE_TTS_LO .PMU_FORCE_TTS_HI 0 = z := by
    rw [ha, State.pair, State.reg_setFld_ne _ _ _ _ _ _ (by decide), State.reg_setFld_ne _ _ _ _ _ _ (by decide)]
    exact State.pair_setPair _ _ _ (by decide)
  have hon : onlyRegs s a [⟨.PMU_FORCE_NOW, n⟩, ⟨.PMU_FORCE_OUT, 0⟩, ⟨.PMU_FORCE_TTS_LO, 0⟩, ⟨.PMU_FORCE_TTS_HI, 0⟩] := by
    rw [ha]
    exact .setFld (by simp) (.setReg (by simp) (.setReg (by simp) (.setFld (by simp) (.refl _ _))))
  rw [heq]
  refine ⟨hnow, hno, htts, ?_, .of_eq rfl rfl hon⟩
  rw [ha]
  rfl

theorem forceCodeWrite_drives (t : Tu) (n : Fin 16) (hup : s.hostUp = true) (code : BitVec 18)
    (h1 : s.fld Fld.PMU_FORCE_CFG_UPD n ≠ 1) (h2 : s.fld Fld.PMU_FORCE_CFG_UPD n ≠ 2) :
    ∃ u d, exec (.forceCodeWrite t n code) s = .next u ∧ u.fld Fld.PMU_FORCE_CODE_CODE n = code.toNat ∧
      u.fld Fld.PMU_FORCE_NOW_CODE n = code.toNat ∧ u.fld Fld.PMU_FORCE_OUT_OUT 0 = n ∧
      u.forceOf n = [] ∧ d ≤ ns 100 ∧ u.pair .PMU_FORCE_TTS_LO .PMU_FORCE_TTS_HI 0 = tuAdd (s.at t).time d ∧
      onlyRegs s u [⟨.PMU_FORCE_CODE, n⟩, ⟨.PMU_FORCE_NOW, n⟩, ⟨.PMU_FORCE_OUT, 0⟩, ⟨.PMU_FORCE_TTS_LO, 0⟩,
        ⟨.PMU_FORCE_TTS_HI, 0⟩] := by
  obtain ⟨a, ha⟩ : ∃ a, a = ((s.at t).setFld Fld.PMU_FORCE_CODE_CODE n code.toNat).used.setForce n [] := ⟨_, rfl⟩
  have hex : exec (.forceCodeWrite t n code) s =
      s.done (a.forceNow n code.toNat (tuAdd (s.at t).time ((s.at t).freeBelow (ns 100 + 1)))) := by
    rw [exec, execForceCodeWrite, State.whenHost_eq hup, State.writeForce]
    rw [State.at_fld, if_neg (by rintro (h | h) <;> contradiction), ha]
  obtain ⟨hnow, hno, htts, hpmu, hon⟩ := a.forceNow_reads n code.toNat
    (tuAdd (s.at t).time ((s.at t).freeBelow (ns 100 + 1))) n.isLt code.isLt
  have hsa : onlyRegs (s.at t) a [⟨.PMU_FORCE_CODE, n.val⟩] := by
    rw [ha]
    exact .of_eq rfl rfl (.setFld (by simp) (.refl _ _))
  obtain ⟨hd, hou⟩ := State.done_onlyRegs (x := t) (but := [⟨.PMU_FORCE_CODE, n.val⟩, ⟨.PMU_FORCE_NOW, n⟩,
    ⟨.PMU_FORCE_OUT, 0⟩, ⟨.PMU_FORCE_TTS_LO, 0⟩, ⟨.PMU_FORCE_TTS_HI, 0⟩])
    ((hsa.mono (by simp)).trans (hon.mono (by simp))) rfl
  refine ⟨_, _, hex.trans hd, ?_, hnow, hno, ?_, ?_, htts, hou⟩
  · rw [State.fld_of_reg (hon.1 _ _ (by simp)), ha]
    exact State.fld_writeForceCode _ _ _
  · rw [State.forceOf, hpmu, ha, State.setForce]
    rw [tget_tput_same]
  · rw [State.freeBelow]
    exact Nat.le_of_lt_succ (Nat.mod_lt _ (by decide))

theorem State.forceDrives_of_on (h : s.flag Fld.PMU_FORCE_CFG_EN x = true) :
    s.forceDrives x = s.fld Fld.PMU_FORCE_NOW_CODE x := if_pos h

theorem State.forceDrives_of_off (h : s.flag Fld.PMU_FORCE_CFG_EN x = false) : s.forceDrives x = 0 :=
  if_neg (by rw [h]; exact Bool.false_ne_true)

theorem forceEnableWrite_switches (t : Tu) (n : Fin 16) (hup : s.hostUp = true) (v : Word) :
    ∃ u, exec (.forceEnableWrite t n v) s = .next u ∧ u.reg .PMU_FORCE_CFG n = v &&& 7#32 ∧
      (s.flag Fld.PMU_FORCE_CFG_EN n = false → u.flag Fld.PMU_FORCE_CFG_EN n = true → s.fld Fld.PMU_FORCE_NOW_CODE n ≠ 0 →
        u.out = .force n (s.at t).time (s.fld Fld.PMU_FORCE_NOW_CODE n) :: s.out) ∧
      (s.flag Fld.PMU_FORCE_CFG_EN n = true → u.flag Fld.PMU_FORCE_CFG_EN n = false → s.fld Fld.PMU_FORCE_NOW_CODE n ≠ 0 →
        u.out = .force n (s.at t).time 0 :: s.out) ∧
      onlyRegs s u [⟨.PMU_FORCE_CFG, n⟩] := by
  obtain ⟨a, ha⟩ : ∃ a, a = (s.at t).setReg .PMU_FORCE_CFG n (v &&& 7#32) := ⟨_, rfl⟩
  obtain ⟨b, hb⟩ : ∃ b, b = (s.at t).forceMoved a n (s.at t).time := ⟨_, rfl⟩
  have hex : exec (.forceEnableWrite t n v) s = s.done b := by
    rw [exec, execForceEnableWrite, State.whenHost_eq hup, State.writeForceCfg, ← ha, hb]
  obtain ⟨out, hout⟩ := (s.at t).forceMoved_eq a n (s.at t).time
  have hreg : ∀ m i, b.reg m i = a.reg m i := fun m i => by rw [hb, hout]; rfl
  have hab : onlyRegs (s.at t) b [⟨.PMU_FORCE_CFG, n⟩] := by
    rw [hb, hout, ha]
    exact .of_eq rfl rfl (.setReg (by simp) (.refl _ _))
  obtain ⟨hd, hon⟩ := State.done_onlyRegs (x := t) hab rfl
  have hnow : a.fld Fld.PMU_FORCE_NOW_CODE n = s.fld Fld.PMU_FORCE_NOW_CODE n := by
    rw [← State.at_fld s t, ha]
    exact State.fld_setReg_ne _ _ _ _ Fld.PMU_FORCE_NOW_CODE _ (by decide)
  have hmoved : a.forceDrives n ≠ (s.at t).forceDrives n → b.out = .force n (s.at t).time (a.forceDrives n) :: s.out :=
    fun h => by
      rw [hb, State.forceMoved, if_neg h, ← State.at_out s t, ha]
      rfl
  refine ⟨b, hex.trans hd, ?_, fun hoff hon' hne => ?_, fun hon' hoff hne => ?_, hon⟩
  · rw [hreg, ha, State.reg_setReg_same]
  · have haon : a.flag Fld.PMU_FORCE_CFG_EN n = true := (State.flag_of_reg (hreg _ _)).symm.trans hon'
    have hd1 := State.forceDrives_of_on haon
    have hd0 := State.forceDrives_of_off ((State.at_flag s t _ _).trans hoff)
    rw [hmoved (by rw [hd1, hd0, hnow]; exact hne), hd1, hnow]
  · have haoff : a.flag Fld.PMU_FORCE_CFG_EN n = false := (State.flag_of_reg (hreg _ _)).symm.trans hoff
    have hd1 := State.forceDrives_of_on ((State.at_flag s t _ _).trans hon')
    have hd0 := State.forceDrives_of_off haoff
    rw [hmoved (by rw [hd1, hd0, State.at_fld]; exact hne.symm), hd0]

theorem forceOutputsFollow_holds : forceOutputsFollow := fun _ t n hup =>
  ⟨fun code hu => forceCodeWrite_waits t n hup code hu, fun code h1 h2 => forceCodeWrite_drives t n hup code h1 h2,
    fun v => forceEnableWrite_switches t n hup v⟩

/-! ### Calibrations -/

theorem pmuCalReq_starts (t : Tu) (x : Fin 2) (y : Nat) (hy : y = (if s.xchk then 0 else x.val)) (hup : s.hostUp = true)
    (hn : noneTriggered s (s.at t).time) (hq : (s.mc y).queue = []) (ha : (s.mc y).act = none) (hc : (s.mc y).cal = false)
    (hen : s.flag Fld.PMU_MC_CFG_EN y = true) (hg : s.gateOpen 25 = true) :
    ∃ u c, exec (.pmuCalReq t x) s = .next u ∧ (u.mc y).act = some c ∧ c.kind = 3 ∧ (u.mc y).cal = false ∧
      u.fld Fld.PMU_SEQ_STATUS_ACTIVITY y = 3 ∧ onlyRegs s u seqStatus := by
  have hy2 : y < 2 := by
    rw [hy]
    split
    · decide
    · exact x.isLt
  have hyx : y = 1 → s.xchk = false := fun h => by
    rw [hy] at h
    split at h
    · cases h
    · next hx => simpa using hx
  obtain ⟨a, haeq⟩ : ∃ a, a = (s.at t).modMc y fun m => { m with cal := true } := ⟨_, rfl⟩
  have hmc : a.mc y = { s.mc y with cal := true } := by rw [haeq, State.mc_modMc, State.at_mc]
  have hax : a.xchk = s.xchk := by
    rw [State.xchk, State.xchk, haeq]
    rcases eq_or_ne 0 y with rfl | h
    · rw [State.mc_modMc, State.at_mc]
    · rw [State.mc_modMc_ne _ _ h, State.at_mc]
  have hex : exec (.pmuCalReq t x) s = s.done (a.pmuNext y (s.at t).time) := by
    rw [exec, execPmuCalReq, State.whenHost_eq hup, State.pmuArrive_none (noneTriggered_at hn), State.requestCal]
    rw [State.at_xchk, ← hy, State.at_mc, hc, ha, State.at_flag, hen, if_neg (by decide), ← haeq,
      State.abortConv_other fun c h => by
        rw [hmc] at h
        exact absurd (h.symm.trans ha) (by simp)]
  have hreg : ∀ n i, a.reg n i = s.reg n i := fun n i => by
    rw [← State.at_reg s t, haeq]
    rfl
  obtain ⟨c, hck, hact, hcal, hshow⟩ := a.pmuNext_calibrates (x := y) (z := (s.at t).time) (by rw [hmc]; exact ha)
    (by rw [State.flag_of_reg (hreg _ _)]; exact hen) (fun h => hax.trans (hyx h))
    (by rw [State.gateOpen_of_reg (hreg _ _) (hreg _ _)]; exact hg) (by rw [hmc]; exact hq) (by rw [hmc])
  have hw : McWork seqStatus (s.at t) a := by
    rw [haeq]
    exact State.modMc_work _ _ _ ⟨rfl, rfl, rfl, rfl⟩
  obtain ⟨hd, hon⟩ := State.done_onlyRegs (x := t) (hw.trans (a.pmuNext_work hy2 _)).only rfl
  exact ⟨_, c, hex.trans hd, hact, hck, hcal, hshow, hon⟩

/-- The registers of a converter that stops, or goes on. -/
def stopRegs (x : Nat) : List Reg := ⟨.PMU_SEQ_CTRL, x⟩ :: seqStatus

theorem State.pmuStop_work (s : State) (hx : x < 2) : McWork (stopRegs x) s (s.pmuStop x) := by
  have hc : McWork (stopRegs x) s (s.setFld Fld.PMU_SEQ_CTRL_RUN x 0) :=
    s.setReg_mcWork .PMU_SEQ_CTRL x _ (by simp [stopRegs]) (by decide)
  exact (hc.trans (State.setStatusFld_mcWork _ Fld.PMU_SEQ_STATUS_RUNNING x 0
    (List.mem_cons_of_mem _ (mem_seqStatus hx)) (by decide))).trans (State.modMc_work _ _ _ ⟨rfl, rfl, rfl, rfl⟩)

/-- After its last conversion a converter stops. -/
theorem State.pmuStopped_work (s : State) (hx : x < 2) :
    McWork (stopRegs x) s (((s.pmuStop x).modMc x fun m => { m with stopping := false }).pmuShow x) :=
  ((s.pmuStop_work hx).trans (State.modMc_work _ _ _ ⟨rfl, rfl, rfl, rfl⟩)).trans
    ((State.pmuShow_work _ hx).mono (by simp [stopRegs]))

/-- What follows the end of a calibration. -/
def State.calGoesOn (s0 s : State) (x : Nat) (z : Tu) : State :=
  if (s0.mc x).stopping then ((s.pmuStop x).modMc x fun m => { m with stopping := false }).pmuShow x else s.pmuGo x z

theorem State.calGoesOn_work (s0 s : State) (hx : x < 2) (z : Tu) : McWork (stopRegs x) s (s0.calGoesOn s x z) :=
  .ite (s.pmuStopped_work hx) ((s.pmuGo_work hx z).mono (by simp [stopRegs]))

/-- A calibration of converter `y` has succeeded. -/
def State.calGood (s : State) (y : Nat) : State := (s.setFld Fld.PMU_SEQ_STATUS_CAL_VALID y 1).raise0 (372 + y)

theorem State.calDone_eq (s : State) (x : Nat) (c : Conv) (good : Bool) :
    s.calDone x c good = s.calGoesOn (if good then (if x = 0 ∧ s.xchk then ((s.modMc x fun m => { m with act := none }).calGood
      0).calGood 1 else (s.modMc x fun m => { m with act := none }).calGood x) else
      (s.modMc x fun m => { m with act := none }).raise0 380) x c.ready := rfl

theorem exec_pmuCalDone {t : Tu} {x : Fin 2} {good : Bool} {c : Conv} (ha : s.alive = true) (hact : (s.mc x).act = some c)
    (hk : c.kind = 3) (hr : tuLe c.ready (s.at t).time = true) (hoff : s.pmuClockOff = false)
    (hn : noneTriggered s (c.ready - 1)) : exec (.pmuCalDone t x good) s = s.done ((s.at t).calDone x c good) := by
  have hoff' : (s.at t).pmuClockOff = false := by
    rw [← hoff, State.pmuClockOff, State.at_fld, State.at_gateOpen]
    rfl
  rw [exec, execPmuCalDone, State.when_eq ha, State.at_mc, hact]
  dsimp only
  rw [if_pos ⟨hk, hr, by rw [hoff']; rfl⟩, State.pmuArrive_none (noneTriggered_at hn)]

theorem State.calGood_reads (s : State) {y : Nat} (srcs : List Nat) (hs : 372 + y ∈ srcs)
    (hb : (⟨.PMU_SEQ_STATUS, y⟩ : Reg) ∈ but) :
    onlyRaising s (s.calGood y) but srcs ∧ (s.calGood y).fld Fld.PMU_SEQ_STATUS_CAL_VALID y = 1 ∧
      (s.raisable (372 + y) → (s.calGood y).evtStatus (372 + y) = true) := by
  have hset : onlyRaising s (s.setFld Fld.PMU_SEQ_STATUS_CAL_VALID y 1) but srcs := .setFld hb rfl (.refl _ _ _)
  have hr := State.raise0_raises (s := s.setFld Fld.PMU_SEQ_STATUS_CAL_VALID y 1) (372 + y)
  refine ⟨hset.trans (hr.only fun k hk => .inl (by rw [List.mem_singleton.1 hk]; exact hs)), ?_, fun hra => ?_⟩
  · rw [State.calGood, hr.fld _ _ rfl]
    exact State.fld_setFld_of_lt _ _ _ (by decide) (by decide)
  · refine State.raise_raisable (hra.of_raising (but := [⟨.PMU_SEQ_STATUS, y⟩]) (srcs := []) ?_ rfl)
    exact .setFld (by simp) rfl (.refl _ _ _)

/-- A command that ends in converter `x` going on after a calibration. -/
theorem State.done_calGoesOn {z : Tu} {x : Nat} {b : State} {q : Tu} (hx : x < 2)
    (h : onlyRaising (s.at z) b (stopRegs x) srcs) :
    ∃ u, s.done ((s.at z).calGoesOn b x q) = .next u ∧ onlyRaising s u (stopRegs x) srcs ∧
      (∀ y, u.fld Fld.PMU_SEQ_STATUS_CAL_VALID y = b.fld Fld.PMU_SEQ_STATUS_CAL_VALID y) ∧
      ∀ k, k ∉ noteSrcs → u.evtStatus k = b.evtStatus k := by
  have hw := (s.at z).calGoesOn_work b hx q
  have hon : onlyRaising b ((s.at z).calGoesOn b x q) (stopRegs x) srcs := hw.only.raising rfl
  obtain ⟨u, hu, hr, hou⟩ := s.done_onlyRaising (h.trans hon)
  refine ⟨u, hu, hou, fun y => (hr.fld _ _ rfl).trans (hw.cal y), fun k hk => (hr.evtStatus hk).trans ?_⟩
  exact State.evtStatus_of_reg fun i => hw.only.1 _ _ (by simp [stopRegs, seqStatus])

theorem pmuCalDone_good (t : Tu) (x : Fin 2) (c : Conv) (ha : s.alive = true) (hact : (s.mc x).act = some c)
    (hk : c.kind = 3) (hr : tuLe c.ready (s.at t).time = true) (hoff : s.pmuClockOff = false)
    (hn : noneTriggered s (c.ready - 1)) :
    ∃ u, exec (.pmuCalDone t x true) s = .next u ∧ u.fld Fld.PMU_SEQ_STATUS_CAL_VALID x = 1 ∧
      (s.fld Fld.EVT_ROUTE_KIND (372 + x) ≠ 1 → u.evtStatus (372 + x) = true) ∧
      (x = 0 → s.xchk = true → u.fld Fld.PMU_SEQ_STATUS_CAL_VALID 1 = 1 ∧
        (s.fld Fld.EVT_ROUTE_KIND 373 ≠ 1 → u.evtStatus 373 = true)) ∧
      (x = 1 ∨ s.xchk = false → sameSource s u (373 - x)) ∧
      onlyRaising s u (⟨.PMU_SEQ_CTRL, x⟩ :: seqStatus) [372, 373] := by
  obtain ⟨a, haeq⟩ : ∃ a, a = (s.at t).modMc x fun m => { m with act := none } := ⟨_, rfl⟩
  have hsa : ∀ srcs, onlyRaising (s.at t) a (stopRegs x) srcs := fun srcs => by
    rw [haeq]
    exact .of_eq rfl rfl (.refl _ _ _)
  have hra : ∀ k, s.raisable k → a.raisable k := fun k h =>
    (h.at t).of_raising (but := stopRegs x) (srcs := []) (hsa []) rfl
  have hval : ∀ x : Fin 2, hubSource (372 + x) = true := by decide
  have hnote : ∀ x : Fin 2, 372 + x.val ∉ noteSrcs := by decide
  have hsrc : ∀ x : Fin 2, 372 + x.val ∈ [372, 373] := by decide
  have hex := exec_pmuCalDone (good := true) ha hact hk hr hoff hn
  rw [State.calDone_eq, if_pos rfl, ← haeq, State.at_xchk] at hex
  by_cases hboth : x.val = 0 ∧ s.xchk = true
  · obtain ⟨hx0, hxc⟩ := hboth
    obtain rfl : x = 0 := Fin.ext hx0
    rw [if_pos ⟨rfl, hxc⟩] at hex
    obtain ⟨h1, hc1, he1⟩ := a.calGood_reads (but := stopRegs 0) (y := 0) [372, 373] (by decide) (by decide)
    obtain ⟨h2, hc2, he2⟩ := (a.calGood 0).calGood_reads (but := stopRegs 0) (y := 1) [372, 373] (by decide) (by decide)
    obtain ⟨u, hu, hou, hcal, hst⟩ := State.done_calGoesOn (s := s) (z := t) (q := c.ready) (x := 0) (by decide)
      (((hsa [372, 373]).trans h1).trans h2)
    have hkeep : ((a.calGood 0).calGood 1).fld Fld.PMU_SEQ_STATUS_CAL_VALID 0 = 1 := by
      rw [State.calGood, (State.raise0_raises _).fld _ _ rfl, State.fld_setFld_index _ _ _ _ _ _ (by decide), hc1]
    obtain ⟨h2', -, -⟩ := (a.calGood 0).calGood_reads (but := stopRegs 0) (y := 1) [373] (by decide) (by decide)
    refine ⟨u, hex.trans hu, (hcal 0).trans hkeep, fun hroute => ?_, fun _ _ => ⟨(hcal 1).trans hc2, fun hroute => ?_⟩,
      fun h => ?_, hou⟩
    · rw [hst _ (by decide)]
      exact (h2'.evtStatus (by decide) rfl).trans (he1 (hra _ (State.raisable_hub rfl hroute)))
    · rw [hst _ (by decide)]
      refine he2 ((hra 373 (State.raisable_hub rfl hroute)).of_raising h1 rfl)
    · rcases h with h | h
      · exact absurd h (by decide)
      · rw [h] at hxc
        cases hxc
  · rw [if_neg hboth] at hex
    obtain ⟨h1, hc1, he1⟩ := a.calGood_reads (but := stopRegs x) (y := x) [372 + x] (by simp)
      (List.mem_cons_of_mem _ (mem_seqStatus x.isLt))
    obtain ⟨u, hu, hou, hcal, hst⟩ := State.done_calGoesOn (s := s) (z := t) (q := c.ready) x.isLt ((hsa [372 + x]).trans h1)
    have hother : ∀ x : Fin 2, 373 - x.val ∉ [372 + x.val] ∧ followsRaise (373 - x) = false := by decide
    refine ⟨u, hex.trans hu, (hcal x).trans hc1, fun hroute => ?_, fun h0 hxc => absurd ⟨congrArg Fin.val h0, hxc⟩ hboth,
      fun _ => hou.2.1 _ (hother x).1 (hother x).2, hou.mono (fun _ h => h) (fun k hk => ?_)⟩
    · rw [hst _ (hnote x)]
      exact he1 (hra _ (State.raisable_hub (hval x) hroute))
    · rw [List.mem_singleton.1 hk]
      exact hsrc x

theorem pmuCalDone_bad (t : Tu) (x : Fin 2) (c : Conv) (ha : s.alive = true) (hact : (s.mc x).act = some c)
    (hk : c.kind = 3) (hr : tuLe c.ready (s.at t).time = true) (hoff : s.pmuClockOff = false)
    (hn : noneTriggered s (c.ready - 1)) :
    ∃ u, exec (.pmuCalDone t x false) s = .next u ∧
      u.fld Fld.PMU_SEQ_STATUS_CAL_VALID x = s.fld Fld.PMU_SEQ_STATUS_CAL_VALID x ∧
      (s.fld Fld.EVT_ROUTE_KIND 380 ≠ 1 → u.evtStatus 380 = true) ∧
      onlyRaising s u (⟨.PMU_SEQ_CTRL, x⟩ :: seqStatus) [380] := by
  obtain ⟨a, haeq⟩ : ∃ a, a = (s.at t).modMc x fun m => { m with act := none } := ⟨_, rfl⟩
  have hsa : onlyRaising (s.at t) a (stopRegs x) [380] := by
    rw [haeq]
    exact .of_eq rfl rfl (.refl _ _ _)
  have hex := exec_pmuCalDone (good := false) ha hact hk hr hoff hn
  rw [State.calDone_eq, if_neg Bool.false_ne_true, ← haeq] at hex
  have hraise := State.raise0_raises (s := a) 380
  obtain ⟨u, hu, hou, hcal, hst⟩ := State.done_calGoesOn (s := s) (z := t) (q := c.ready) x.isLt
    (hsa.trans (hraise.only fun k h => .inl h))
  refine ⟨u, hex.trans hu, ?_, fun hroute => ?_, hou⟩
  · rw [hcal, hraise.fld _ _ rfl, ← State.at_fld s t, haeq]
    rfl
  · rw [hst _ (by decide)]
    exact State.raise_raisable (((State.raisable_hub rfl hroute).at t).of_raising (srcs := [380]) hsa rfl)

/-! ### Settings of a converter -/

theorem exec_pmuMcCfgWrite {t : Tu} {x : Fin 2} {v : Word} (hup : s.hostUp = true) (hn : noneTriggered s (s.at t).time) :
    exec (.pmuMcCfgWrite t x v) s = s.done ((s.at t).writeMcCfg x v) ∧ (s.at t).pmuArrive (s.at t).time = s.at t :=
  ⟨by rw [exec, execPmuMcCfgWrite, State.whenHost_eq hup], State.pmuArrive_none (noneTriggered_at hn)⟩

/-- The bits of PMU_MC_CFG that a write stores. -/
def mcCfgMask (x : Nat) : Word := if x = 0 then 7#32 else 3#32

theorem mcCfg_en (s : State) (x : Nat) (v : Word) :
    (s.setReg .PMU_MC_CFG x (v &&& mcCfgMask x)).flag Fld.PMU_MC_CFG_EN x = v.getLsbD 0 := by
  rw [State.flag, State.fld_setReg_eq _ Fld.PMU_MC_CFG_EN _ _ _ rfl, getBits_one, BitVec.getLsbD_and]
  unfold mcCfgMask
  split
  · exact Bool.and_true _
  · exact Bool.and_true _

/-- A converter that is disabled drops what waits for it. -/
def Mc.dropped (m : Mc) : Mc :=
  { m with queue := [], cal := false, next := none, restart := false, stopping := m.act.isSome }

/-- The converter stops: at once, or after the conversion under way. -/
def State.mcDrops (s : State) (x : Nat) : State :=
  let s2 := (s.modMc x Mc.dropped).injDrop x 1 ((s.mc x).queue.length + (s.mc x).cal.toNat)
  (if (s.mc x).act.isSome then s2 else s2.pmuStop x).pmuShow x

/-- The settings after a write, and what goes on or stops with them. -/
def State.mcGoes (s s1 : State) (x : Nat) (v : Word) : State :=
  if s.flag Fld.PMU_MC_CFG_EN x && !v.getLsbD 0 then s1.mcDrops x
  else if (s1.mc x).act.isNone then s1.pmuGo x s.time
  else s1

theorem State.writeMcCfg_eq (s : State) (x : Nat) (v : Word) :
    s.writeMcCfg x v = s.mcGoes
      (if s.pmuStuck && s.flag Fld.PMU_MC_CFG_EN x && !v.getLsbD 0 then
        ((s.pmuArrive s.time).setReg .PMU_MC_CFG x (v &&& mcCfgMask x)).modMc x fun m => { m with act := none }
      else (s.pmuArrive s.time).setReg .PMU_MC_CFG x (v &&& mcCfgMask x)) x v := rfl

theorem pmuMcCfgWrite_stored (t : Tu) (x : Fin 2) (v : Word) (c : Conv) (hup : s.hostUp = true)
    (hn : noneTriggered s (s.at t).time) (hact : (s.mc x).act = some c)
    (hen : s.flag Fld.PMU_MC_CFG_EN x = false ∨ v.getLsbD 0 = true) :
    ∃ u, exec (.pmuMcCfgWrite t x v) s = .next u ∧ u.reg .PMU_MC_CFG x = v &&& mcCfgMask x ∧
      u.pmu = s.pmu ∧ onlyRegs s u [⟨.PMU_MC_CFG, x⟩] := by
  obtain ⟨hex, harr⟩ := exec_pmuMcCfgWrite (x := x) (v := v) hup hn
  have hoff : (s.flag Fld.PMU_MC_CFG_EN x && !v.getLsbD 0) = false := by
    rcases hen with h | h <;> rw [h] <;> simp
  have hact' : (((s.at t).setReg .PMU_MC_CFG x (v &&& mcCfgMask x)).mc x).act = some c := by
    rw [← hact, ← State.at_mc s t]
    rfl
  have hw : (s.at t).writeMcCfg x v = (s.at t).setReg .PMU_MC_CFG x (v &&& mcCfgMask x) := by
    rw [State.writeMcCfg_eq, harr, State.at_flag, Bool.and_assoc, hoff, Bool.and_false, if_neg Bool.false_ne_true,
      State.mcGoes, State.at_flag, hoff, if_neg Bool.false_ne_true, hact']
    exact if_neg Bool.false_ne_true
  obtain ⟨hd, hon⟩ := State.done_onlyRegs (x := t) (but := [⟨.PMU_MC_CFG, x.val⟩])
    (.setReg (n := .PMU_MC_CFG) (i := x) (v := v &&& mcCfgMask x) (List.mem_singleton.2 rfl) (.refl (s.at t) _)) rfl
  rw [hw] at hex
  exact ⟨_, hex.trans hd, State.reg_setReg_same _ _ _ _, State.at_pmu s t, hon⟩

theorem pmuMcCfgWrite_stops (t : Tu) (x : Fin 2) (v : Word) (c : Conv) (hup : s.hostUp = true)
    (hn : noneTriggered s (s.at t).time) (hen : s.flag Fld.PMU_MC_CFG_EN x = true) (hv : v.getLsbD 0 = false)
    (hstuck : s.pmuStuck = false) (hact : (s.mc x).act = some c) :
    ∃ u, exec (.pmuMcCfgWrite t x v) s = .next u ∧ u.flag Fld.PMU_MC_CFG_EN x = false ∧ (u.mc x).act = some c ∧
      (u.mc x).stopping = true ∧ (u.mc x).queue = [] ∧ (u.mc x).cal = false ∧
      ((s.mc x).queue ≠ [] → s.fld Fld.EVT_ROUTE_KIND 376 ≠ 1 → u.evtStatus 376 = true) ∧
      onlyRaising s u (⟨.PMU_MC_CFG, x⟩ :: ⟨.PMU_INJ_DROP, x⟩ :: seqStatus) [376] := by
  obtain ⟨hex, harr⟩ := exec_pmuMcCfgWrite (x := x) (v := v) hup hn
  have hst : (s.at t).pmuStuck = false := by
    rw [← hstuck, State.pmuStuck, State.at_fld]
    rfl
  obtain ⟨a, ha⟩ : ∃ a, a = (s.at t).setReg .PMU_MC_CFG x (v &&& mcCfgMask x) := ⟨_, rfl⟩
  have hmc : a.mc x = s.mc x := by rw [← State.at_mc s t, ha]; rfl
  obtain ⟨b, hb⟩ : ∃ b, b = a.modMc x Mc.dropped := ⟨_, rfl⟩
  obtain ⟨n, hndef⟩ : ∃ n, n = (s.mc x).queue.length + (s.mc x).cal.toNat := ⟨_, rfl⟩
  have hbm : b.mc x = (s.mc x).dropped := by rw [hb, State.mc_modMc, hmc]
  have hw : (s.at t).writeMcCfg x v = (b.injDrop x 1 n).pmuShow x := by
    rw [State.writeMcCfg_eq, harr, hst, Bool.false_and, Bool.false_and, if_neg Bool.false_ne_true, State.mcGoes,
      State.at_flag, hen, hv, if_pos (by decide), State.mcDrops, ← ha, ← hb, hmc, ← hndef, hact]
    rfl
  obtain ⟨d, hd⟩ : ∃ d, d = b.injDrop x 1 n := ⟨_, rfl⟩
  rw [hw, ← hd] at hex
  have hsa : onlyRaising (s.at t) a [⟨.PMU_MC_CFG, x⟩] [376] := by
    rw [ha]
    exact .setReg (by simp) rfl (.refl _ _ _)
  have hab : onlyRaising a b (⟨.PMU_INJ_DROP, x⟩ :: seqStatus) [376] := by
    rw [hb]
    exact .of_eq rfl rfl (.refl _ _ _)
  have hdo : onlyRaising b d (⟨.PMU_INJ_DROP, x⟩ :: seqStatus) [376] ∧ d.pmu = b.pmu ∧
      (n ≠ 0 → b.raisable 376 → d.evtStatus 376 = true) := by
    rw [hd, State.injDrop]
    split
    · next h0 => exact ⟨.refl _ _ _, rfl, fun h => absurd h0 h⟩
    · have hbump : onlyRaising b (b.bump Fld.PMU_INJ_DROP_LOST x n) (⟨.PMU_INJ_DROP, x⟩ :: seqStatus) [376] :=
        .bump (by simp) rfl (.refl _ _ _)
      have hr := State.raise_raises (s := b.bump Fld.PMU_INJ_DROP_LOST x n) 376 (2 ^ 1) x
      exact ⟨hbump.trans (hr.only fun k hk => .inl hk), hr.pmu, fun _ hra => State.raise_raisable (hra.of_raising hbump rfl)⟩
  obtain ⟨hdo, hdp, hde⟩ := hdo
  have hshow := State.pmuShow_work d x.isLt
  have hdu : onlyRaising d (d.pmuShow x) (⟨.PMU_INJ_DROP, x⟩ :: seqStatus) [376] := (hshow.only.mono (by simp)).raising rfl
  have had := (hab.trans hdo).trans hdu
  obtain ⟨u, hu, hr, hon⟩ := s.done_onlyRaising (but := ⟨.PMU_MC_CFG, x.val⟩ :: ⟨.PMU_INJ_DROP, x⟩ :: seqStatus)
    ((hsa.mono (by simp) fun _ h => h).trans (had.mono (by simp) fun _ h => h))
  have hum : u.mc x = (s.mc x).dropped := by
    rw [State.mc_of_eq hr.pmu, State.mc_of_eq (State.pmuShow_pmu _ _), State.mc_of_eq hdp, hbm]
  refine ⟨u, hex.trans hu, ?_, by rw [hum]; exact hact, ?_, by rw [hum]; rfl, by rw [hum]; rfl, fun hq hroute => ?_, hon⟩
  · have hau := had.trans hr.onlyNotes
    rw [← hv, ← mcCfg_en (s.at t) x v, ← ha]
    exact State.flag_of_reg (hau.1 _ _ (by simp [seqStatus]) rfl)
  · rw [hum, Mc.dropped, hact]
    rfl
  · rw [hr.evtStatus (by decide), State.evtStatus_of_reg fun i => hshow.only.1 _ _ (by simp [seqStatus])]
    refine hde ?_ ((((State.raisable_hub rfl hroute).at t).of_raising hsa rfl).of_raising hab rfl)
    rw [hndef]
    have := List.length_pos_iff.2 hq
    omega

/-! ### Twin comparisons that miss -/

theorem pmuTwinMiss_counts (t : Tu) (a : TwinRes) (rest : List TwinRes) (ha : s.alive = true)
    (hl : s.pmu.local_ = a :: rest) (hle : tuLe (tuAdd a.ready (ns 100000)) (s.at t).time = true)
    (hlt : s.fld Fld.PMU_TWIN_MISS_CNT_COUNT 0 < 2 ^ 32 - 1) :
    ∃ u, exec (.pmuTwinMiss t) s = .next u ∧ u.pmu.local_ = rest ∧
      u.fld Fld.PMU_TWIN_MISS_CNT_COUNT 0 = s.fld Fld.PMU_TWIN_MISS_CNT_COUNT 0 + 1 ∧
      (s.fld Fld.EVT_ROUTE_KIND 379 ≠ 1 → u.evtStatus 379 = true) ∧
      onlyRaising s u [⟨.PMU_TWIN_MISS_CNT, 0⟩] [379] := by
  obtain ⟨b, hb⟩ : ∃ b, b = { s.at t with pmu := { (s.at t).pmu with local_ := rest } } := ⟨_, rfl⟩
  have hex : exec (.pmuTwinMiss t) s = s.done (if True then (b.bump Fld.PMU_TWIN_MISS_CNT_COUNT 0 1).raise 379 1 0 else
      b.bump Fld.PMU_TWIN_MISS_CNT_COUNT 0 1) := by
    rw [exec, execPmuTwinMiss, State.when_eq ha, State.at_pmu, hl]
    dsimp only
    rw [if_pos hle, if_pos trivial, hb, State.at_pmu]
    rfl
  have hbf : b.fld Fld.PMU_TWIN_MISS_CNT_COUNT 0 = s.fld Fld.PMU_TWIN_MISS_CNT_COUNT 0 := by
    rw [← State.at_fld s t, hb]
    rfl
  have hwo : onlyRegs (s.at t) (b.bump Fld.PMU_TWIN_MISS_CNT_COUNT 0 1) [⟨.PMU_TWIN_MISS_CNT, 0⟩] :=
    .bump (by simp) (by rw [hb]; exact .of_eq rfl rfl (.refl _ _))
  obtain ⟨u, hu, hr⟩ := State.done_raisedIf (s := s) (x := t) (k := 379) (c := True) (causes := 1) (info := 0) hwo rfl rfl
  refine ⟨u, hex.trans hu, ?_, ?_, fun hk => hr.status trivial (State.raisable_hub rfl hk), hr.only⟩
  · rw [hr.raises.pmu]
    change b.pmu.local_ = _
    rw [hb]
  · rw [hr.fld _ _ rfl, State.fld_bump_lt _ _ _ (by decide) (by rw [hbf]; exact hlt), hbf]

/-- Settles O39: a written code waits or is driven (`State.forceNow_reads`); an idle converter starts its calibration
(`State.pmuNext_calibrates`), and after one it goes on or stops (`State.calGoesOn_work`). -/
theorem parametricUnitsAct : Obligations.ParametricUnitsAct := by
  unfold Obligations.ParametricUnitsAct convertersAreCalibratedAndStopped
  have hmask : ∀ x : Fin 2, mcCfgMask x = if x = 0 then 7#32 else 3#32 := by decide
  refine ⟨forceOutputsFollow_holds, fun s t x => ⟨fun y hy hup hn hq ha hc hen hg => pmuCalReq_starts t x y hy hup hn hq ha hc
    hen hg, fun c ha hact hk hr hoff hn => ⟨pmuCalDone_good t x c ha hact hk hr hoff hn, pmuCalDone_bad t x c ha hact hk hr hoff
    hn⟩, fun v c hup hn hact hen => hmask x ▸ pmuMcCfgWrite_stored t x v c hup hn hact hen, fun v c hup hn hen hv hst hact =>
    pmuMcCfgWrite_stops t x v c hup hn hen hv hst hact, fun a rest ha hl hle hlt => pmuTwinMiss_counts t a rest ha hl hle hlt⟩⟩

end Sys2Proof.Machine
end

section
/-! Parametric conversions give results (R295, R304, R305). -/

namespace Sys2Proof.Machine

variable {s t u w : State} {but : List Reg} {srcs : List Nat} {x y : Nat}

/-! ### Twin comparisons -/

/-- The record of a result. -/
def State.resultRec (s : State) (x : Nat) (c : Conv) (v : Int) (overload fail : Bool) : PmuRec :=
  ⟨c.tts, pmuCode v, pmuInfo c x (if c.kind = 1 then (s.mc x).seqReg else (s.mc x).seqInj) (pmuOvr v overload) c.clksw
    (!s.flag Fld.PMU_SEQ_STATUS_CAL_VALID x) fail⟩

/-- What a result leaves that is compared with the partner's. -/
structure TwinKept (s t : State) : Prop where
  only : onlyRaising s t [⟨.PMU_TWIN_FAIL_CNT, 0⟩] [378]
  mc : ∀ y, t.mc y = s.mc y

theorem State.glnSend_keeps (s : State) (typ sub : Nat) (payload : List Byte) (copies : Nat) :
    (s.glnSend typ sub payload copies).regs = s.regs ∧ (s.glnSend typ sub payload copies).mem = s.mem ∧
      (s.glnSend typ sub payload copies).pmu = s.pmu := by
  unfold State.glnSend
  split <;> exact ⟨rfl, rfl, rfl⟩

theorem State.twinCompare_keeps (s : State) (a b : TwinRes) : TwinKept s (s.twinCompare a b) := by
  unfold State.twinCompare
  split
  · have hb : onlyRaising s (s.bump Fld.PMU_TWIN_FAIL_CNT_COUNT 0 1) [⟨.PMU_TWIN_FAIL_CNT, 0⟩] [378] :=
      .bump (by simp) rfl (.refl _ _ _)
    have hr := State.raise0_raises (s := s.bump Fld.PMU_TWIN_FAIL_CNT_COUNT 0 1) 378
    exact ⟨hb.trans (hr.only fun k hk => .inl hk), fun y => State.mc_of_eq hr.pmu y⟩
  · exact ⟨.refl _ _ _, fun _ => rfl⟩

theorem State.twinCompare_local (s : State) (a b : TwinRes) : (s.twinCompare a b).pmu = s.pmu := by
  unfold State.twinCompare
  split
  · exact (State.raise0_raises (s := s.bump Fld.PMU_TWIN_FAIL_CNT_COUNT 0 1) 378).pmu
  · rfl

theorem State.twinLocal_keeps (s : State) (a : TwinRes) (r : PmuRec) : TwinKept s (s.twinLocal a r) := by
  obtain ⟨g, hg⟩ : ∃ g, g = s.glnSend 0xA (a.conv + 16 * a.entry) (pmuBytes r) 1 := ⟨_, rfl⟩
  obtain ⟨hregs, hmem, hpmu⟩ := s.glnSend_keeps 0xA (a.conv + 16 * a.entry) (pmuBytes r) 1
  rw [← hg] at hregs hmem hpmu
  have hgm : ∀ y, g.mc y = s.mc y := State.mc_of_eq hpmu
  rw [State.twinLocal, ← hg]
  dsimp only
  split
  · exact ⟨.refl _ _ _, fun _ => rfl⟩
  · split
    · next b _ =>
      obtain ⟨p, hp⟩ : ∃ p : State, p = { g with pmu := { g.pmu with remote := g.pmu.remote.erase b } } := ⟨_, rfl⟩
      have hpk : onlyRaising s p [⟨.PMU_TWIN_FAIL_CNT, 0⟩] [378] ∧ ∀ y, p.mc y = s.mc y := by
        rw [hp]
        exact ⟨.of_eq hregs hmem (.refl _ _ _), hgm⟩
      have hk := p.twinCompare_keeps a b
      rw [← hp]
      exact ⟨hpk.1.trans hk.only, fun y => (hk.mc y).trans (hpk.2 y)⟩
    · exact ⟨.of_eq hregs hmem (.refl _ _ _), hgm⟩

/-- The local results that wait for the partner's. -/
theorem State.twinLocal_local (s : State) (a : TwinRes) (r : PmuRec) :
    (s.twinOn = false → (s.twinLocal a r).pmu.local_ = s.pmu.local_) ∧
      (s.twinOn = true → s.pmu.remote.find? (s.twinPair a) = none →
        (s.twinLocal a r).pmu.local_ = s.pmu.local_ ++ [a]) := by
  obtain ⟨-, -, hpmu⟩ := s.glnSend_keeps 0xA (a.conv + 16 * a.entry) (pmuBytes r) 1
  refine ⟨fun h => ?_, fun h hf => ?_⟩
  · rw [State.twinLocal, h]
    rfl
  · rw [State.twinLocal, h, hf]
    change (s.glnSend 0xA (a.conv + 16 * a.entry) (pmuBytes r) 1).pmu.local_ ++ [a] = _
    rw [hpmu]

/-! ### A result -/

/-- The registers of a regular result. -/
def lastRegs (x : Nat) : List Reg := [⟨.PMU_LAST_VALUE, x⟩, ⟨.PMU_LAST_TTS_LO, x⟩, ⟨.PMU_LAST_TTS_HI, x⟩, ⟨.PMU_LAST_INFO, x⟩,
  ⟨.PMU_TWIN_FAIL_CNT, 0⟩]

/-- A regular result stands in PMU_LAST and leaves for the stream. -/
def State.lastShown (s : State) (x : Nat) (c : Conv) (r : PmuRec) : State :=
  ((((s.setPair .PMU_LAST_TTS_LO .PMU_LAST_TTS_HI x r.tts).setReg .PMU_LAST_VALUE x r.value).setReg
    .PMU_LAST_INFO x r.info).produce 6 x (pmuBytes r) c.ready).modMc x fun m =>
      { m with seqReg := (m.seqReg + 1) % 256, lastReady := some c.ready }

/-- A FIFO of four records, the oldest dropped for one more. -/
def Mc.joined (m : Mc) (r : PmuRec) : Mc :=
  { m with seqInj := (m.seqInj + 1) % 256,
           fifo := (if 4 ≤ m.fifo.length then m.fifo.drop 1 else m.fifo) ++ [r] }

/-- An injected result joins the FIFO. -/
def State.fifoJoined (s : State) (x : Nat) (r : PmuRec) : State :=
  ((if 4 ≤ (s.mc x).fifo.length then s.injDrop x 2 1 else s).modMc x fun m => m.joined r).raise0 (370 + x)

theorem State.pmuResult_eq (s : State) (x : Nat) (c : Conv) (v : Int) (overload fail : Bool) :
    s.pmuResult x c v overload fail = if pmuOvr v overload then
        (if c.kind = 1 then
          if setTwin c.settings then (s.lastShown x c (s.resultRec x c v overload fail)).twinLocal
            ⟨x, c.entry, c.tts, pmuCode v, c.ready⟩ (s.resultRec x c v overload fail)
          else s.lastShown x c (s.resultRec x c v overload fail)
        else s.fifoJoined x (s.resultRec x c v overload fail)).raise0 (374 + x)
      else if c.kind = 1 then
          if setTwin c.settings then (s.lastShown x c (s.resultRec x c v overload fail)).twinLocal
            ⟨x, c.entry, c.tts, pmuCode v, c.ready⟩ (s.resultRec x c v overload fail)
          else s.lastShown x c (s.resultRec x c v overload fail)
        else s.fifoJoined x (s.resultRec x c v overload fail) := rfl

/-- A flag OVR raises its event, and nothing else. -/
theorem State.ovrRaised (s : State) (x : Nat) (ovr : Bool) :
    Raises s (if ovr then s.raise0 (374 + x) else s) [374 + x] := .ite (State.raise0_raises _) (.refl _ _)

theorem State.lastShown_reads (s : State) (x : Nat) (c : Conv) (r : PmuRec) :
    onlyRegs s (s.lastShown x c r) (lastRegs x) ∧ (s.lastShown x c r).reg .PMU_LAST_VALUE x = r.value ∧
      (s.lastShown x c r).pair .PMU_LAST_TTS_LO .PMU_LAST_TTS_HI x = r.tts ∧
      (s.lastShown x c r).mc x = { s.mc x with seqReg := ((s.mc x).seqReg + 1) % 256, lastReady := some c.ready } ∧
      (∀ y, y ≠ x → (s.lastShown x c r).mc y = s.mc y) ∧ (s.lastShown x c r).pmu.local_ = s.pmu.local_ ∧
      (s.lastShown x c r).pmu.remote = s.pmu.remote := by
  obtain ⟨a, ha⟩ : ∃ a, a = ((s.setPair .PMU_LAST_TTS_LO .PMU_LAST_TTS_HI x r.tts).setReg .PMU_LAST_VALUE x r.value).setReg
    .PMU_LAST_INFO x r.info := ⟨_, rfl⟩
  obtain ⟨inbound, hin⟩ := a.produce_inbound 6 x (pmuBytes r) c.ready
  have heq : s.lastShown x c r = State.modMc { a with dma := { a.dma with inbound := inbound } } x fun m =>
      { m with seqReg := (m.seqReg + 1) % 256, lastReady := some c.ready } := by
    rw [State.lastShown, ← ha, hin]
  have hv : a.reg .PMU_LAST_VALUE x = r.value := by
    rw [ha, State.reg_setReg_ne _ _ _ _ _ _ (by decide), State.reg_setReg_same]
  have hp : a.pair .PMU_LAST_TTS_LO .PMU_LAST_TTS_HI x = r.tts := by
    rw [ha, State.pair, State.reg_setReg_ne _ _ _ _ _ _ (by decide), State.reg_setReg_ne _ _ _ _ _ _ (by decide),
      State.reg_setReg_ne _ _ _ _ _ _ (by decide), State.reg_setReg_ne _ _ _ _ _ _ (by decide)]
    exact State.pair_setPair _ _ _ (by decide)
  have ho : onlyRegs s a (lastRegs x) := by
    rw [ha]
    exact .setReg (by simp [lastRegs]) (.setReg (by simp [lastRegs]) (.setReg (by simp [lastRegs])
      (.setReg (by simp [lastRegs]) (.refl _ _))))
  have hpmu : a.pmu = s.pmu := by rw [ha]; rfl
  rw [heq]
  refine ⟨.of_eq rfl rfl ho, hv, hp, ?_, fun y hy => ?_, ?_, ?_⟩
  · rw [State.mc_modMc, ← State.mc_of_eq hpmu]
    rfl
  · rw [State.mc_modMc_ne _ _ hy, ← State.mc_of_eq hpmu]
    rfl
  · rw [← hpmu]
    rfl
  · rw [← hpmu]
    rfl

/-- What a regular result leaves. -/
structure Regular (x : Nat) (c : Conv) (v : Int) (s t : State) : Prop where
  only : onlyRaising s t (lastRegs x) [374 + x, 378]
  value : t.reg .PMU_LAST_VALUE x = pmuCode v
  tts : t.pair .PMU_LAST_TTS_LO .PMU_LAST_TTS_HI x = c.tts
  mc : t.mc x = { s.mc x with seqReg := ((s.mc x).seqReg + 1) % 256, lastReady := some c.ready }
  others : ∀ y, y ≠ x → t.mc y = s.mc y
  local_ : setTwin c.settings = false ∨ s.twinOn = false → t.pmu.local_ = s.pmu.local_
  waits : setTwin c.settings = true → s.twinOn = true →
    s.pmu.remote.find? (s.twinPair ⟨x, c.entry, c.tts, pmuCode v, c.ready⟩) = none →
    t.pmu.local_ = s.pmu.local_ ++ [⟨x, c.entry, c.tts, pmuCode v, c.ready⟩]

theorem State.pmuResult_regular (s : State) (x : Nat) (c : Conv) (v : Int) (overload fail : Bool) (hk : c.kind = 1) :
    Regular x c v s (s.pmuResult x c v overload fail) := by
  obtain ⟨r, hr⟩ : ∃ r, r = s.resultRec x c v overload fail := ⟨_, rfl⟩
  obtain ⟨a, ha⟩ : ∃ a, a = s.lastShown x c r := ⟨_, rfl⟩
  obtain ⟨ho, hv, hp, hm, hothers, hlocal, hremote⟩ := s.lastShown_reads x c r
  rw [← ha] at ho hv hp hm hothers hlocal hremote
  obtain ⟨b, hb⟩ : ∃ b, b = if setTwin c.settings then a.twinLocal ⟨x, c.entry, c.tts, pmuCode v, c.ready⟩ r else a := ⟨_, rfl⟩
  have hbk : TwinKept a b := by
    rw [hb]
    split
    · exact a.twinLocal_keeps _ _
    · exact ⟨.refl _ _ _, fun _ => rfl⟩
  have heq : s.pmuResult x c v overload fail = if pmuOvr v overload then b.raise0 (374 + x) else b := by
    rw [State.pmuResult_eq, if_pos hk, ← hr, ← ha, ← hb]
  have hovr := b.ovrRaised x (pmuOvr v overload)
  rw [heq]
  have hon : a.twinOn = s.twinOn := by
    have hen : a.flag Fld.PMU_TWIN_CFG_EN 0 = s.flag Fld.PMU_TWIN_CFG_EN 0 :=
      State.flag_of_reg (ho.1 .PMU_TWIN_CFG 0 (by simp [lastRegs]))
    have hst : a.reg .GLN_STATUS 0 = s.reg .GLN_STATUS 0 := ho.1 .GLN_STATUS 0 (by simp [lastRegs])
    have hrole : a.attached = s.attached := State.flag_of_reg hst
    have hup : a.glnUp = s.glnUp := State.flag_of_reg hst
    rw [State.twinOn, State.twinOn, hen, hrole, hup]
  have hpairs : a.twinPair = s.twinPair := by
    funext p q
    rw [State.twinPair, State.twinPair, State.fld_of_reg (ho.1 _ _ (by simp [lastRegs]))]
  refine ⟨(((ho.raising rfl).trans (hbk.only.mono (by simp [lastRegs]) (by simp))).trans
    (hovr.only fun k hk => .inl (by rw [List.mem_singleton.1 hk]; simp))), ?_, ?_, ?_, fun y hy => ?_, fun h => ?_,
    fun ht h hf => ?_⟩
  · rw [hovr.reg _ _ rfl, hbk.only.1 _ _ (by simp) rfl, hv, hr]
    rfl
  · rw [State.pair, hovr.reg _ _ rfl, hovr.reg _ _ rfl, hbk.only.1 _ _ (by simp) rfl, hbk.only.1 _ _ (by simp) rfl]
    exact hp.trans (by rw [hr]; rfl)
  · rw [State.mc_of_eq hovr.pmu, hbk.mc, hm]
  · rw [State.mc_of_eq hovr.pmu, hbk.mc, hothers y hy]
  · rw [hovr.pmu, ← hlocal, hb]
    rcases h with h | h
    · rw [h]
      rfl
    · split
      · exact (a.twinLocal_local _ _).1 (hon.trans h)
      · rfl
  · rw [hovr.pmu, ← hlocal, hb, if_pos ht]
    exact (a.twinLocal_local _ _).2 (hon.trans h) (by rw [hremote, hpairs]; exact hf)

/-- What an injected result leaves. -/
structure Injected (x : Nat) (c : Conv) (v : Int) (s t : State) : Prop where
  only : onlyRaising s t [] [370 + x, 374 + x]
  mc : ∃ r : PmuRec, r.tts = c.tts ∧ r.value = pmuCode v ∧ (t.mc x).fifo = (s.mc x).fifo ++ [r]
  others : ∀ y, y ≠ x → t.mc y = s.mc y
  event : s.raisable (370 + x) → t.evtStatus (370 + x) = true

theorem State.pmuResult_injected (s : State) (x : Nat) (c : Conv) (v : Int) (overload fail : Bool) (hk : c.kind = 2)
    (hf : (s.mc x).fifo.length < 4) : Injected x c v s (s.pmuResult x c v overload fail) := by
  obtain ⟨r, hr⟩ : ∃ r, r = s.resultRec x c v overload fail := ⟨_, rfl⟩
  obtain ⟨a, ha⟩ : ∃ a, a = s.modMc x fun m => m.joined r := ⟨_, rfl⟩
  have hjoin : s.fifoJoined x r = a.raise0 (370 + x) := by
    rw [State.fifoJoined, if_neg (by omega), ha]
  have heq : s.pmuResult x c v overload fail = if pmuOvr v overload then (a.raise0 (370 + x)).raise0 (374 + x)
      else a.raise0 (370 + x) := by
    rw [State.pmuResult_eq, if_neg (show ¬ c.kind = 1 by rw [hk]; decide), ← hr, hjoin]
  have hsa : ∀ srcs, onlyRaising s a [] srcs := fun srcs => by
    rw [ha]
    exact .of_eq rfl rfl (.refl _ _ _)
  have hra := State.raise0_raises (s := a) (370 + x)
  have hovr := (a.raise0 (370 + x)).ovrRaised x (pmuOvr v overload)
  rw [heq]
  refine ⟨((hsa _).trans (hra.only fun k hk => .inl (by rw [List.mem_singleton.1 hk]; simp))).trans
    (hovr.only fun k hk => .inl (by rw [List.mem_singleton.1 hk]; simp)), ⟨r, by rw [hr]; rfl, by rw [hr]; rfl, ?_⟩,
    fun y hy => ?_, fun h => ?_⟩
  · rw [State.mc_of_eq hovr.pmu, State.mc_of_eq hra.pmu, ha, State.mc_modMc, Mc.joined]
    dsimp only
    rw [if_neg (by omega)]
  · rw [State.mc_of_eq hovr.pmu, State.mc_of_eq hra.pmu, ha, State.mc_modMc_ne _ _ hy]
  · rw [hovr.evtStatus (by simp)]
    exact State.raise_raisable (h.of_raising (hsa []) rfl)

end Sys2Proof.Machine
end

section
/-! A conversion is ready: its results, its pass, and what comes next (R295, R298, R304, R305). -/

namespace Sys2Proof.Machine

variable {s t u w : State} {but : List Reg} {srcs : List Nat} {x y : Nat}

/-! ### After the results -/

/-- A regular entry has ended: the pass goes on, or its end is told. -/
structure PassWork (x : Nat) (s t : State) : Prop where
  only : onlyRaising s t (stopRegs x) [368 + x]
  results : ∀ y, sameResults (s.mc y) (t.mc y)
  local_ : t.pmu.local_ = s.pmu.local_

theorem PassWork.refl (x : Nat) (s : State) : PassWork x s s := ⟨.refl _ _ _, fun _ => .refl _, rfl⟩

theorem PassWork.trans (h : PassWork x s t) (k : PassWork x t u) : PassWork x s u :=
  ⟨h.only.trans k.only, fun y => (h.results y).trans (k.results y), k.local_.trans h.local_⟩

theorem PassWork.ite {c : Prop} [Decidable c] {a b : State} (ha : PassWork x s a) (hb : PassWork x s b) :
    PassWork x s (if c then a else b) := by split <;> assumption

theorem McWork.passWork (h : McWork (stopRegs x) s t) : PassWork x s t :=
  ⟨h.only.raising rfl, h.results, h.local_.1⟩

theorem State.passOn_work (s : State) (hx : x < 2) (c : Conv) : PassWork x s (s.passOn x c) := by
  have hmod : ∀ (a : State) n, PassWork x a (a.modMc x fun m => { m with next := n }) := fun a n =>
    (a.modMc_work x _ ⟨rfl, rfl, rfl, rfl⟩).passWork
  have hend : PassWork x s ((s.modMc x fun m => { m with next := none }).raise0 (368 + x)) := by
    have hr := State.raise0_raises (s := s.modMc x fun m => { m with next := none }) (368 + x)
    refine (hmod s none).trans ⟨hr.only fun k hk => .inl hk, fun y => ?_, by rw [hr.pmu]⟩
    rw [State.mc_of_eq hr.pmu]
    exact .refl _
  unfold State.passOn
  exact .ite (.refl _ _) (.ite (hmod s _) (.ite (hend.trans (State.pmuStop_work _ hx).passWork)
    (.ite hend (hend.trans (hmod _ _)))))

/-- What follows the end of a conversion: the converter stops, streams on, or starts what comes next. -/
def State.convGoesOn (s s5 : State) (x : Nat) (c : Conv) : State :=
  if (s.mc x).stopping then ((s5.pmuStop x).modMc x fun m => { m with stopping := false }).pmuShow x
  else
    let m := s5.mc x
    if c.streams && !c.ended && s5.streams x c.settings && s5.reg .PMU_SEQ_ENTRY (16 * x + c.entry) == c.settings &&
        s5.convSpan x c.settings == c.span && (x != 0 || s5.flag Fld.PMU_MC_CFG_XCHK 0 == s5.xchk) &&
        m.queue.isEmpty && !m.cal && m.next == some 0 then
      let d := (s5.filt x (setFilt c.settings)).2 * s5.tMod x
      (s5.modMc x fun m =>
        { m with act := some { c with tts := tuAdd (c.ready - BitVec.ofNat 64 c.span) d, ready := tuAdd c.ready d,
                                      restarted := false, step := false, coast := s5.coasting, clksw := false } }).pmuShow x
    else s5.pmuGo x c.ready

theorem State.convGoesOn_work (s s5 : State) (hx : x < 2) (c : Conv) : McWork (stopRegs x) s5 (s.convGoesOn s5 x c) := by
  have hsub : seqStatus ⊆ stopRegs x := by simp [stopRegs]
  unfold State.convGoesOn
  refine .ite (s5.pmuStopped_work hx) (.ite ?_ ((s5.pmuGo_work hx _).mono hsub))
  exact (s5.modMc_work _ _ ⟨rfl, rfl, rfl, rfl⟩).trans ((State.pmuShow_work _ hx).mono hsub)

/-- The two results under XCHK differ by more than the limit. -/
def State.xchkFails (s : State) (x : Nat) (q : ConvMeas) : Bool :=
  (x == 0 && s.xchk) && pmuDiffers (pmuCode q.v) (pmuCode q.vB) (s.fld Fld.PMU_XCHK_LIMIT_LSB 0)

/-- A difference under XCHK is counted and raised. -/
def State.xchkCounted (s : State) (fail : Bool) : State :=
  if fail then (s.bump Fld.PMU_XCHK_CNT_COUNT 0 1).raise0 377 else s

/-- The results of a conversion. -/
def State.convResults (s : State) (x : Nat) (c : Conv) (q : ConvMeas) : State :=
  let s2 := (s.modMc x fun m => { m with act := none }).pmuResult x c q.v q.overload (s.xchkFails x q)
  if x == 0 && s.xchk then s2.pmuResult 1 c q.vB q.overloadB (s.xchkFails x q) else s2

theorem State.convReady_eq (s : State) (x : Nat) (c : Conv) (q : ConvMeas) :
    s.convReady x c q = s.convGoesOn (if c.kind = 1 then ((s.convResults x c q).xchkCounted (s.xchkFails x q)).passOn x c
      else (s.convResults x c q).xchkCounted (s.xchkFails x q)) x c := rfl

theorem exec_conversionReady {t : Tu} {x : Fin 2} {m : ConvMeas} {c : Conv} (ha : s.alive = true)
    (hact : (s.mc x).act = some c) (hr : tuLe c.ready (s.at t).time = true) (hoff : s.pmuClockOff = false)
    (hn : noneTriggered s (c.ready - 1)) (hk : c.kind = 1 ∨ c.kind = 2) :
    exec (.conversionReady t x m) s = s.done ((s.at t).convReady x c m) := by
  have hoff' : (s.at t).pmuClockOff = false := by
    rw [← hoff, State.pmuClockOff, State.at_fld, State.at_gateOpen]
    rfl
  rw [exec, execConversionReady, State.when_eq ha, State.at_mc, hact]
  dsimp only
  rw [if_pos ⟨hk, hr, by rw [hoff']; rfl⟩, State.pmuArrive_none (noneTriggered_at hn), State.at_mc, hact, if_pos rfl]

/-- The conversion under way has ended: what is read of the state before its results. -/
theorem actEnded_reads (s : State) (t : Tu) (x : Nat) :
    (∀ n i, ((s.at t).modMc x fun m => { m with act := none }).reg n i = s.reg n i) ∧
      ((s.at t).modMc x fun m => { m with act := none }).mc x = { s.mc x with act := none } ∧
      (∀ y, y ≠ x → ((s.at t).modMc x fun m => { m with act := none }).mc y = s.mc y) ∧
      ((s.at t).modMc x fun m => { m with act := none }).pmu.local_ = s.pmu.local_ ∧
      ((s.at t).modMc x fun m => { m with act := none }).pmu.remote = s.pmu.remote ∧
      ∀ but, onlyRaising (s.at t) ((s.at t).modMc x fun m => { m with act := none }) but srcs := by
  refine ⟨fun n i => State.at_reg s t n i, ?_, fun y hy => ?_, ?_, ?_, fun but => .of_eq rfl rfl (.refl _ _ _)⟩
  · rw [State.mc_modMc, State.at_mc]
  · rw [State.mc_modMc_ne _ _ hy, State.at_mc]
  · rw [← State.at_pmu s t]
    rfl
  · rw [← State.at_pmu s t]
    rfl

theorem sameResults_done {t u : State} (h : Raises t u noteSrcs) (x : Nat) : u.mc x = t.mc x := State.mc_of_eq h.pmu x

theorem conversionReady_regular (s : State) (t : Tu) (x : Fin 2) (m : ConvMeas) (c : Conv) (ha : s.alive = true)
    (hact : (s.mc x).act = some c) (hr : tuLe c.ready (s.at t).time = true) (hoff : s.pmuClockOff = false)
    (hn : noneTriggered s (c.ready - 1)) (hk : c.kind = 1) (hx : s.xchk = false) :
    ∃ u, exec (.conversionReady t x m) s = .next u ∧ u.reg .PMU_LAST_VALUE x = BitVec.ofInt 32 (satS 24 m.v) ∧
      u.pair .PMU_LAST_TTS_LO .PMU_LAST_TTS_HI x = c.tts ∧ (u.mc x).lastReady = some c.ready ∧
      (u.mc x).seqReg = ((s.mc x).seqReg + 1) % 256 ∧ (u.mc x).fifo = (s.mc x).fifo ∧
      (setTwin c.settings = false ∨ s.twinOn = false → u.pmu.local_ = s.pmu.local_) ∧
      (setTwin c.settings = true → s.twinOn = true →
        s.pmu.remote.find? (s.twinPair ⟨x, c.entry, c.tts, BitVec.ofInt 32 (satS 24 m.v), c.ready⟩) = none →
        u.pmu.local_ = s.pmu.local_ ++ [⟨x, c.entry, c.tts, BitVec.ofInt 32 (satS 24 m.v), c.ready⟩]) ∧
      onlyRaising s u (⟨.PMU_LAST_VALUE, x⟩ :: ⟨.PMU_LAST_TTS_LO, x⟩ :: ⟨.PMU_LAST_TTS_HI, x⟩ :: ⟨.PMU_LAST_INFO, x⟩ ::
        ⟨.PMU_SEQ_CTRL, x⟩ :: ⟨.PMU_TWIN_FAIL_CNT, 0⟩ :: seqStatus) [368 + x, 374 + x, 378] := by
  obtain ⟨hreg, hmx, -, hloc, hrem, hoa⟩ := actEnded_reads (srcs := [368 + x.val, 374 + x, 378]) s t x
  obtain ⟨a, haeq⟩ : ∃ a, a = (s.at t).modMc x fun m => { m with act := none } := ⟨_, rfl⟩
  rw [← haeq] at hreg hmx hloc hrem hoa
  have hboth : ((x.val == 0) && (s.at t).xchk) = false := by rw [State.at_xchk, hx, Bool.and_false]
  have hfail : (s.at t).xchkFails x m = false := by rw [State.xchkFails, hboth, Bool.false_and]
  obtain ⟨b, hb⟩ : ∃ b, b = a.pmuResult x c m.v m.overload false := ⟨_, rfl⟩
  have hres : (s.at t).convResults x c m = b := by
    rw [State.convResults, hboth, hfail, hb, haeq]
    rfl
  have hreg1 := a.pmuResult_regular x c m.v m.overload false hk
  rw [← hb] at hreg1
  have hpass := b.passOn_work x.isLt c
  have hgo := (s.at t).convGoesOn_work (b.passOn x c) x.isLt c
  have hrest := hpass.trans hgo.passWork
  have hex := exec_conversionReady (m := m) ha hact hr hoff hn (.inl hk)
  rw [State.convReady_eq, if_pos hk, hres, hfail] at hex
  change exec (.conversionReady t x m) s = s.done ((s.at t).convGoesOn (b.passOn x c) x c) at hex
  have htw : a.twinOn = s.twinOn := by
    rw [State.twinOn, State.twinOn, State.attached, State.attached, State.glnUp, State.glnUp,
      State.flag_of_reg (f := Fld.PMU_TWIN_CFG_EN) (hreg _ _), State.flag_of_reg (f := Fld.GLN_STATUS_ROLE) (hreg _ _),
      State.flag_of_reg (f := Fld.GLN_STATUS_LINK_UP) (hreg _ _)]
  have htp : a.twinPair = s.twinPair := by
    funext p q
    rw [State.twinPair, State.twinPair, State.fld_of_reg (hreg _ _)]
  have hsubl : lastRegs x ⊆ ⟨.PMU_LAST_VALUE, x⟩ :: ⟨.PMU_LAST_TTS_LO, x⟩ :: ⟨.PMU_LAST_TTS_HI, x⟩ :: ⟨.PMU_LAST_INFO, x⟩ ::
      ⟨.PMU_SEQ_CTRL, x⟩ :: ⟨.PMU_TWIN_FAIL_CNT, 0⟩ :: seqStatus := by
    simp [lastRegs]
  have hsubs : stopRegs x ⊆ ⟨.PMU_LAST_VALUE, x⟩ :: ⟨.PMU_LAST_TTS_LO, x⟩ :: ⟨.PMU_LAST_TTS_HI, x⟩ :: ⟨.PMU_LAST_INFO, x⟩ ::
      ⟨.PMU_SEQ_CTRL, x⟩ :: ⟨.PMU_TWIN_FAIL_CNT, 0⟩ :: seqStatus := by
    simp [stopRegs, seqStatus]
  obtain ⟨u, hu, hru, hon⟩ := s.done_onlyRaising (((hoa _).trans (hreg1.only.mono hsubl (by simp))).trans
    (hrest.only.mono hsubs (by simp)))
  obtain ⟨hfifo, hseq, -, hlast⟩ := hrest.results x
  have hb' : (b.mc x).fifo = (s.mc x).fifo ∧ (b.mc x).seqReg = ((s.mc x).seqReg + 1) % 256 ∧
      (b.mc x).lastReady = some c.ready := by
    rw [hreg1.mc, hmx]
    exact ⟨rfl, rfl, rfl⟩
  have hkeep : ∀ n, n ∉ ([.PMU_SEQ_CTRL, .PMU_SEQ_STATUS] : List RegName) → eventReg n = false →
      ∀ i, u.reg n i = b.reg n i := fun n hn he i => by
    rw [hru.reg _ _ he]
    refine hrest.only.1 _ _ (fun hm => hn ?_) he
    simp only [stopRegs, seqStatus, List.mem_cons, List.not_mem_nil, or_false, Reg.mk.injEq] at hm
    rcases hm with ⟨rfl, -⟩ | ⟨rfl, -⟩ | ⟨rfl, -⟩ <;> simp
  refine ⟨u, hex.trans hu, ?_, ?_, ?_, ?_, ?_, fun h => ?_, fun h1 h2 h3 => ?_, hon⟩
  · rw [hkeep _ (by decide) rfl, hreg1.value]
    rfl
  · rw [State.pair, hkeep _ (by decide) rfl, hkeep _ (by decide) rfl]
    exact hreg1.tts
  · rw [State.mc_of_eq hru.pmu, hlast, hb'.2.2]
  · rw [State.mc_of_eq hru.pmu, hseq, hb'.2.1]
  · rw [State.mc_of_eq hru.pmu, hfifo, hb'.1]
  · rw [hru.pmu, hrest.local_, hreg1.local_ (by rw [htw]; exact h), hloc]
  · rw [hru.pmu, hrest.local_, hreg1.waits h1 (htw.trans h2) (by rw [hrem, htp]; exact h3), hloc]
    rfl

theorem conversionReady_injected (s : State) (t : Tu) (x : Fin 2) (m : ConvMeas) (c : Conv) (ha : s.alive = true)
    (hact : (s.mc x).act = some c) (hr : tuLe c.ready (s.at t).time = true) (hoff : s.pmuClockOff = false)
    (hn : noneTriggered s (c.ready - 1)) (hk : c.kind = 2) (hx : s.xchk = false) (hf : (s.mc x).fifo.length < 4) :
    ∃ u r, exec (.conversionReady t x m) s = .next u ∧ (u.mc x).fifo = (s.mc x).fifo ++ [r] ∧ r.tts = c.tts ∧
      r.value = BitVec.ofInt 32 (satS 24 m.v) ∧ (s.fld Fld.EVT_ROUTE_KIND (370 + x) ≠ 1 → u.evtStatus (370 + x) = true) ∧
      onlyRaising s u (⟨.PMU_SEQ_CTRL, x⟩ :: seqStatus) [370 + x, 374 + x] := by
  obtain ⟨hreg, hmx, -, -, -, hoa⟩ := actEnded_reads (srcs := [370 + x.val, 374 + x]) s t x
  obtain ⟨a, haeq⟩ : ∃ a, a = (s.at t).modMc x fun m => { m with act := none } := ⟨_, rfl⟩
  rw [← haeq] at hreg hmx hoa
  have hboth : ((x.val == 0) && (s.at t).xchk) = false := by rw [State.at_xchk, hx, Bool.and_false]
  have hfail : (s.at t).xchkFails x m = false := by rw [State.xchkFails, hboth, Bool.false_and]
  obtain ⟨b, hb⟩ : ∃ b, b = a.pmuResult x c m.v m.overload false := ⟨_, rfl⟩
  have hres : (s.at t).convResults x c m = b := by
    rw [State.convResults, hboth, hfail, hb, haeq]
    rfl
  have hinj := a.pmuResult_injected x c m.v m.overload false hk (by rw [hmx]; exact hf)
  rw [← hb] at hinj
  have hgo := (s.at t).convGoesOn_work b x.isLt c
  have hex := exec_conversionReady (m := m) ha hact hr hoff hn (.inr hk)
  rw [State.convReady_eq, if_neg (show ¬ c.kind = 1 by rw [hk]; decide), hres, hfail] at hex
  change exec (.conversionReady t x m) s = s.done ((s.at t).convGoesOn b x c) at hex
  have hsub : ([] : List Reg) ⊆ stopRegs x := by simp
  obtain ⟨u, hu, hru, hon⟩ := s.done_onlyRaising (((hoa _).trans (hinj.only.mono hsub fun _ h => h)).trans
    (hgo.only.raising rfl))
  obtain ⟨r, htts, hval, hfifo⟩ := hinj.mc
  have hhub : ∀ x : Fin 2, hubSource (370 + x) = true ∧ 370 + x.val ∉ noteSrcs := by decide
  refine ⟨u, r, hex.trans hu, ?_, htts, hval, fun hroute => ?_, hon⟩
  · rw [State.mc_of_eq hru.pmu, (hgo.results x).1, hfifo, hmx]
  · rw [hru.evtStatus (hhub x).2, State.evtStatus_of_reg fun i => hgo.only.1 _ _ (by simp [stopRegs, seqStatus])]
    exact hinj.event (((State.raisable_hub (hhub x).1 hroute).at t).of_raising (but := []) (srcs := [370 + x.val, 374 + x])
      (hoa []) rfl)

/-- A 24-bit value is that of its word. -/
theorem pmuCode_toInt (v : Int) : (pmuCode v).toInt = satS 24 v := by
  have h : -8388608 ≤ satS 24 v ∧ satS 24 v ≤ 8388607 := by
    unfold satS
    omega
  rw [pmuCode, BitVec.toInt_ofInt, Int.bmod_eq_of_le] <;> omega

theorem pmuDiffers_pmuCode (v w : Int) (lim : Nat) :
    pmuDiffers (pmuCode v) (pmuCode w) lim = decide (lim < (satS 24 v - satS 24 w).natAbs) := by
  rw [pmuDiffers, pmuCode_toInt, pmuCode_toInt]

/-- Under XCHK both converters have their result. -/
theorem State.convResults_both {m : ConvMeas} {c : Conv} (hx : s.xchk = true) :
    s.convResults 0 c m = ((s.modMc 0 fun m => { m with act := none }).pmuResult 0 c m.v m.overload
        (s.xchkFails 0 m)).pmuResult 1 c m.vB m.overloadB (s.xchkFails 0 m) ∧
      s.xchkFails 0 m = decide (s.fld Fld.PMU_XCHK_LIMIT_LSB 0 < (satS 24 m.v - satS 24 m.vB).natAbs) := by
  constructor
  · rw [State.convResults, hx]
    rfl
  · rw [State.xchkFails, hx, pmuDiffers_pmuCode]
    rfl

/-- Counting a difference leaves the converters. -/
theorem State.xchkCounted_keeps (s : State) (fail : Bool) :
    onlyRaising s (s.xchkCounted fail) [⟨.PMU_XCHK_CNT, 0⟩] [377] ∧ (s.xchkCounted fail).pmu = s.pmu := by
  cases fail with
  | false => exact ⟨.refl _ _ _, rfl⟩
  | true =>
    have hb : onlyRaising s (s.bump Fld.PMU_XCHK_CNT_COUNT 0 1) [⟨.PMU_XCHK_CNT, 0⟩] [377] := .bump (by simp) rfl (.refl _ _ _)
    have hr := State.raise0_raises (s := s.bump Fld.PMU_XCHK_CNT_COUNT 0 1) 377
    exact ⟨hb.trans (hr.only fun k hk => .inl hk), hr.pmu⟩

theorem conversionReady_bothInjected (s : State) (t : Tu) (m : ConvMeas) (c : Conv) (ha : s.alive = true)
    (hact : (s.mc 0).act = some c) (hr : tuLe c.ready (s.at t).time = true) (hoff : s.pmuClockOff = false)
    (hn : noneTriggered s (c.ready - 1)) (hk : c.kind = 2) (hx : s.xchk = true) (hf : (s.mc 0).fifo.length < 4)
    (hf1 : (s.mc 1).fifo.length < 4) :
    ∃ u r r', exec (.conversionReady t 0 m) s = .next u ∧ (u.mc 0).fifo = (s.mc 0).fifo ++ [r] ∧
      (u.mc 1).fifo = (s.mc 1).fifo ++ [r'] ∧ r.value = BitVec.ofInt 32 (satS 24 m.v) ∧
      r'.value = BitVec.ofInt 32 (satS 24 m.vB) ∧ r.tts = c.tts ∧ r'.tts = c.tts := by
  obtain ⟨-, hm0, hm1, -⟩ := actEnded_reads (srcs := []) s t 0
  obtain ⟨a, haeq⟩ : ∃ a, a = (s.at t).modMc 0 fun m => { m with act := none } := ⟨_, rfl⟩
  rw [← haeq] at hm0 hm1
  obtain ⟨fail, hfl⟩ : ∃ fail, fail = (s.at t).xchkFails 0 m := ⟨_, rfl⟩
  obtain ⟨b, hb⟩ : ∃ b, b = a.pmuResult 0 c m.v m.overload fail := ⟨_, rfl⟩
  obtain ⟨d, hd⟩ : ∃ d, d = b.pmuResult 1 c m.vB m.overloadB fail := ⟨_, rfl⟩
  have h0 := a.pmuResult_injected 0 c m.v m.overload fail hk (by rw [hm0]; exact hf)
  rw [← hb] at h0
  have hb1 : b.mc 1 = s.mc 1 := (h0.others 1 (by decide)).trans (hm1 1 (by decide))
  have h1 := b.pmuResult_injected 1 c m.vB m.overloadB fail hk (by rw [hb1]; exact hf1)
  rw [← hd] at h1
  have hex := exec_conversionReady (x := 0) (m := m) ha hact hr hoff hn (.inr hk)
  rw [State.convReady_eq, if_neg (show ¬ c.kind = 1 by rw [hk]; decide)] at hex
  change exec (.conversionReady t 0 m) s = s.done ((s.at t).convGoesOn (((s.at t).convResults 0 c m).xchkCounted
    ((s.at t).xchkFails 0 m)) 0 c) at hex
  rw [(State.convResults_both ((State.at_xchk s t).trans hx)).1, ← hfl, ← haeq, ← hb, ← hd] at hex
  have hgo := (s.at t).convGoesOn_work (d.xchkCounted fail) (x := 0) (by decide) c
  obtain ⟨u, hu, hru⟩ := State.done_notes s ((s.at t).convGoesOn (d.xchkCounted fail) 0 c)
  obtain ⟨r, htts, hval, hfifo⟩ := h0.mc
  obtain ⟨r', htts', hval', hfifo'⟩ := h1.mc
  have hud : ∀ y, (u.mc y).fifo = (d.mc y).fifo := fun y => by
    rw [State.mc_of_eq hru.pmu, (hgo.results y).1, State.mc_of_eq (d.xchkCounted_keeps fail).2]
  refine ⟨u, r, r', hex.trans hu, ?_, ?_, hval, hval', htts, htts'⟩
  · rw [hud, h1.others 0 (by decide), hfifo, hm0]
  · rw [hud, hfifo', hb1]

theorem conversionReady_bothRegular (s : State) (t : Tu) (m : ConvMeas) (c : Conv) (ha : s.alive = true)
    (hact : (s.mc 0).act = some c) (hr : tuLe c.ready (s.at t).time = true) (hoff : s.pmuClockOff = false)
    (hn : noneTriggered s (c.ready - 1)) (hk : c.kind = 1) (hx : s.xchk = true) :
    ∃ u, exec (.conversionReady t 0 m) s = .next u ∧ u.reg .PMU_LAST_VALUE 0 = BitVec.ofInt 32 (satS 24 m.v) ∧
      u.reg .PMU_LAST_VALUE 1 = BitVec.ofInt 32 (satS 24 m.vB) ∧
      (s.fld Fld.PMU_XCHK_LIMIT_LSB 0 < (satS 24 m.v - satS 24 m.vB).natAbs → s.fld Fld.EVT_ROUTE_KIND 377 ≠ 1 →
        u.evtStatus 377 = true) ∧
      ((satS 24 m.v - satS 24 m.vB).natAbs ≤ s.fld Fld.PMU_XCHK_LIMIT_LSB 0 → sameSource s u 377 ∧
        u.reg .PMU_XCHK_CNT 0 = s.reg .PMU_XCHK_CNT 0) := by
  obtain ⟨hreg, -, -, -, -, hoa⟩ := actEnded_reads (srcs := []) s t 0
  obtain ⟨a, haeq⟩ : ∃ a, a = (s.at t).modMc 0 fun m => { m with act := none } := ⟨_, rfl⟩
  rw [← haeq] at hreg hoa
  obtain ⟨fail, hfl⟩ : ∃ fail, fail = (s.at t).xchkFails 0 m := ⟨_, rfl⟩
  obtain ⟨b, hb⟩ : ∃ b, b = a.pmuResult 0 c m.v m.overload fail := ⟨_, rfl⟩
  obtain ⟨d, hd⟩ : ∃ d, d = b.pmuResult 1 c m.vB m.overloadB fail := ⟨_, rfl⟩
  have h0 := a.pmuResult_regular 0 c m.v m.overload fail hk
  have h1 := b.pmuResult_regular 1 c m.vB m.overloadB fail hk
  rw [← hb] at h0
  rw [← hd] at h1
  obtain ⟨hboth, hfail⟩ := State.convResults_both (s := s.at t) (m := m) (c := c) ((State.at_xchk s t).trans hx)
  have hex := exec_conversionReady (x := 0) (m := m) ha hact hr hoff hn (.inl hk)
  rw [State.convReady_eq, if_pos hk] at hex
  change exec (.conversionReady t 0 m) s = s.done ((s.at t).convGoesOn ((((s.at t).convResults 0 c m).xchkCounted
    ((s.at t).xchkFails 0 m)).passOn 0 c) 0 c) at hex
  rw [hboth, ← hfl, ← haeq, ← hb, ← hd] at hex
  obtain ⟨e, he⟩ : ∃ e, e = d.xchkCounted fail := ⟨_, rfl⟩
  have hcnt := (d.xchkCounted_keeps fail).1
  rw [← he] at hex hcnt
  have hrest := (e.passOn_work (x := 0) (by decide) c).trans
    ((s.at t).convGoesOn_work (e.passOn 0 c) (x := 0) (by decide) c).passWork
  obtain ⟨u, hu, hru⟩ := State.done_notes s ((s.at t).convGoesOn (e.passOn 0 c) 0 c)
  have heu : onlyRaising e u (stopRegs 0) [368] := hrest.only.trans hru.onlyNotes
  rw [← hfl, State.at_fld] at hfail
  refine ⟨u, hex.trans hu, ?_, ?_, fun hlt hroute => ?_, fun hle => ?_⟩
  · rw [heu.1 _ _ (by simp [stopRegs, seqStatus]) rfl, hcnt.1 _ _ (by simp) rfl, h1.only.1 _ _ (by simp [lastRegs]) rfl,
      h0.value]
    rfl
  · rw [heu.1 _ _ (by simp [stopRegs, seqStatus]) rfl, hcnt.1 _ _ (by simp) rfl, h1.value]
    rfl
  · rw [decide_eq_true hlt] at hfail
    rw [hfail] at he
    rw [heu.evtStatus (by decide) rfl, he, State.xchkCounted, if_pos rfl, State.raise0]
    have hra : a.raisable 377 := ((State.raisable_hub rfl hroute).at t).of_raising (hoa []) rfl
    have hrd : d.raisable 377 := (hra.of_raising h0.only rfl).of_raising h1.only rfl
    have hbump : onlyRaising d (d.bump Fld.PMU_XCHK_CNT_COUNT 0 1) [⟨.PMU_XCHK_CNT, 0⟩] [377] :=
      .bump (by simp) rfl (.refl _ _ _)
    exact State.raise_raisable (hrd.of_raising hbump rfl)
  · rw [decide_eq_false (by omega)] at hfail
    have hed : e = d := by rw [he, hfail]; rfl
    have hau : onlyRaising a d (lastRegs 0 ++ lastRegs 1) [374, 375, 378] :=
      (h0.only.mono (by simp) (by simp)).trans (h1.only.mono (by simp) (by simp))
    rw [hed] at heu
    have hsa := (hoa []).at
    refine ⟨((hsa.2.1 377 (by decide) rfl).trans (hau.2.1 377 (by decide) rfl)).trans (heu.2.1 377 (by decide) rfl), ?_⟩
    rw [heu.1 _ _ (by simp [stopRegs, seqStatus]) rfl, hau.1 _ _ (by simp [lastRegs]) rfl, hreg]

/-- Settles O37: a regular result stands in its registers and waits for the partner's (`State.pmuResult_regular`), an injected
one joins the FIFO (`State.pmuResult_injected`), and what the converter then does leaves both (`State.convGoesOn_work`). -/
theorem conversionsGiveResults : Obligations.ConversionsGiveResults := by
  unfold Obligations.ConversionsGiveResults
  intro s t x m c ha hact hr hoff hn
  refine ⟨fun hk hx => conversionReady_regular s t x m c ha hact hr hoff hn hk hx,
    fun hk hx hf => conversionReady_injected s t x m c ha hact hr hoff hn hk hx hf, fun hk h0 hx hf hf1 => ?_,
    fun hk h0 hx => ?_⟩
  · subst h0
    exact conversionReady_bothInjected s t m c ha hact hr hoff hn hk hx hf hf1
  · subst h0
    exact conversionReady_bothRegular s t m c ha hact hr hoff hn hk hx

end Sys2Proof.Machine
end

section
/-! Edges of TRIG_IN lines and pulses of TRIG_OUT lines (R205, R206). -/

namespace Sys2Proof.Machine

variable {s t u w : State} {but : List Reg} {srcs : List Nat} {x y : Nat}

/-! ### Requests that arrive at the converters -/

/-- The registers that an injected request may change. -/
def arriveNames : List RegName := [.PMU_SEQ_STATUS, .PMU_ABORT_CNT, .PMU_INJ_DROP]

/-- `t` is `s` after requests reached the converters. -/
structure ArriveWork (s t : State) : Prop where
  reg : ∀ n k, eventReg n = false → n ∉ arriveNames → t.reg n k = s.reg n k
  status : ∀ k, k ≠ 376 → followsRaise k = false → t.evtStatus k = s.evtStatus k
  rest : ∃ regs pmu sram nextSeq logged deferred trigOut raises pba basecamp out free,
    t = { s with
      regs := regs, pmu := pmu, trigOut := trigOut, out := out, free := free
      mgt := { s.mgt with sram := sram, nextSeq := nextSeq, logged := logged, deferred := deferred }
      evt := { s.evt with raises := raises, pba := pba, basecamp := basecamp } }

theorem ArriveWork.refl (s : State) : ArriveWork s s :=
  ⟨fun _ _ _ _ => rfl, fun _ _ _ => rfl, _, _, _, _, _, _, _, _, _, _, _, _, rfl⟩

theorem ArriveWork.trans (h : ArriveWork s t) (k : ArriveWork t u) : ArriveWork s u := by
  refine ⟨fun n i he hn => (k.reg n i he hn).trans (h.reg n i he hn),
    fun i hi hf => (k.status i hi hf).trans (h.status i hi hf), ?_⟩
  obtain ⟨_, _, _, _, _, _, _, _, _, _, _, _, rfl⟩ := h.rest
  obtain ⟨_, _, _, _, _, _, _, _, _, _, _, _, rfl⟩ := k.rest
  exact ⟨_, _, _, _, _, _, _, _, _, _, _, _, rfl⟩

theorem ArriveWork.mem (h : ArriveWork s t) : t.mem = s.mem := by
  obtain ⟨_, _, _, _, _, _, _, _, _, _, _, _, rfl⟩ := h.rest; rfl
theorem ArriveWork.regions (h : ArriveWork s t) : t.regions = s.regions := by
  obtain ⟨_, _, _, _, _, _, _, _, _, _, _, _, rfl⟩ := h.rest; rfl
theorem ArriveWork.trigIn (h : ArriveWork s t) : t.trigIn = s.trigIn := by
  obtain ⟨_, _, _, _, _, _, _, _, _, _, _, _, rfl⟩ := h.rest; rfl

theorem ArriveWork.ite {c : Prop} [Decidable c] {a b : State} (ha : ArriveWork s a) (hb : ArriveWork s b) :
    ArriveWork s (if c then a else b) := by split <;> assumption

theorem McWork.arriveWork (h : McWork seqStatus s t) : ArriveWork s t := by
  refine ⟨fun n k he hn => h.only.1 n k fun hm => hn ?_, fun k _ _ => ?_, ?_⟩
  · simp only [seqStatus, List.mem_cons, List.not_mem_nil, or_false, Reg.mk.injEq] at hm
    rcases hm with ⟨rfl, -⟩ | ⟨rfl, -⟩ <;> simp [arriveNames]
  · exact State.evtStatus_of_reg fun i => h.only.1 _ _ (by simp [seqStatus])
  · obtain ⟨_, _, _, rfl⟩ := h.rest
    exact ⟨_, _, _, _, _, _, _, _, _, _, _, _, rfl⟩

theorem Raises.arriveWork (h : Raises s t [376]) : ArriveWork s t := by
  refine ⟨fun n k he _ => h.reg n k he, fun k hk _ => (h.src k (by simpa using hk)).1, ?_⟩
  obtain ⟨_, _, _, _, _, _, _, _, _, _, _, rfl⟩ := h.rest
  exact ⟨_, _, _, _, _, _, _, _, _, _, _, _, rfl⟩

theorem State.bump_arriveWork (s : State) (f : Fld) (i n : Nat) (hf : f.reg ∈ arriveNames) : ArriveWork s (s.bump f i n) := by
  have hne : ∀ n ∈ arriveNames, n ≠ .EVT_STATUS := by decide
  refine ⟨fun n k _ hn => State.reg_setReg_other _ _ _ _ fun h => hn (h.1 ▸ hf), fun k _ _ => ?_,
    _, _, _, _, _, _, _, _, _, _, _, _, rfl⟩
  exact State.evtStatus_of_reg fun i => State.reg_setReg_other _ _ _ _ fun h => hne _ hf h.1.symm

theorem State.inject_work (s : State) (hx : x < 2) (v : Word) (z : Tu) : ArriveWork s (s.inject x v z) := by
  have hmod : ∀ (a : State) (f : Mc → Mc), ArriveWork a (a.modMc x f) := fun a f =>
    ⟨fun _ _ _ _ => rfl, fun _ _ _ => rfl, _, _, _, _, _, _, _, _, _, _, _, _, rfl⟩
  have hdrop : ArriveWork s (s.injDrop x 0 1) :=
    (s.bump_arriveWork Fld.PMU_INJ_DROP_REFUSED x 1 (by decide)).trans (State.raise_raises _ _ _).arriveWork
  have habort : ∀ a : State, ArriveWork a (a.abortConv x) := fun a => by
    unfold State.abortConv
    split
    · exact .ite ((a.bump_arriveWork Fld.PMU_ABORT_CNT_COUNT x 1 (by decide)).trans (hmod _ _)) (.refl _)
    · exact .refl _
  exact .ite hdrop (((hmod s _).trans (habort _)).trans (State.pmuNext_work _ hx z).arriveWork)

/-- The requests that have reached a converter are queued. -/
def State.arriveAt (s : State) (x : Nat) (z : Tu) : State :=
  let hit := (s.mc x).due.filter fun d => tuLe d.1 z
  if hit.isEmpty then s
  else hit.foldl (fun s d => s.inject x d.2 d.1) (s.modMc x fun m => { m with due := m.due.filter fun d => !tuLe d.1 z })

theorem State.pmuArrive_eq (s : State) (z : Tu) : s.pmuArrive z = (List.range 2).foldl (fun s x => s.arriveAt x z) s := rfl

theorem State.arriveAt_work (s : State) (hx : x < 2) (z : Tu) : ArriveWork s (s.arriveAt x z) := by
  have hdue : ArriveWork s (s.modMc x fun m => { m with due := m.due.filter fun d => !tuLe d.1 z }) :=
    ⟨fun _ _ _ _ => rfl, fun _ _ _ => rfl, _, _, _, _, _, _, _, _, _, _, _, _, rfl⟩
  unfold State.arriveAt
  exact .ite (.refl _) (hdue.trans
    (foldl_rel (R := ArriveWork) (f := fun (b : State) (d : Tu × Word) => b.inject x d.2 d.1) ArriveWork.refl ArriveWork.trans
      (fun b d => b.inject_work hx d.2 d.1) _ _))

theorem State.pmuArrive_work (s : State) (z : Tu) : ArriveWork s (s.pmuArrive z) := by
  rw [State.pmuArrive_eq]
  exact foldl_rel_mem (R := ArriveWork) (f := fun (a : State) x => a.arriveAt x z) ArriveWork.refl ArriveWork.trans
    (fun a x hx => a.arriveAt_work (List.mem_range.1 hx) z) s

theorem State.pmuEdge_work (s : State) (i : Nat) (z : Tu) : ArriveWork s (s.pmuEdge i z) := by
  rw [State.pmuEdge, State.each]
  refine ArriveWork.trans (foldl_rel ArriveWork.refl ArriveWork.trans (fun a x => ?_) _ s) (State.pmuArrive_work _ _)
  exact .ite ⟨fun _ _ _ _ => rfl, fun _ _ _ => rfl, _, _, _, _, _, _, _, _, _, _, _, _, rfl⟩ (.refl _)

/-! ### An edge on a TRIG_IN line -/

/-- The edge is noted, counted and raised. -/
def State.edgeNoted (s : State) (i : Nat) (z : Tu) : State :=
  let s1 := { s with trigIn := tput 0 s.trigIn i z }.bump Fld.HUB_TRIG_IN_CNT_COUNT i 1
  if i < 4 then s1.raise0 (264 + i) else s1

/-- A selected edge fires its XTRIG record and the EXTERNAL generators of the line. -/
def State.edgeFires (s : State) (i : Nat) (z : Tu) : State :=
  (s.xfire i z).each 4 fun s c =>
    s.conditions c z fun g => s.genType g == 5 && s.fld Fld.TRG_GEN_CFG_XSEL g == i

theorem State.trigInEdge_eq (s : State) (i : Nat) (rise : Bool) (z : Tu) :
    s.trigInEdge i rise z = if tget 0 s.trigIn i ≠ 0 ∧ tuLt z (tuAdd (tget 0 s.trigIn i) (ns 1)) = true then s else
      if rise then (((if trigInTakes (s.fld Fld.HUB_TRIG_IN_CFG_EDGE i) rise then (s.edgeNoted i z).edgeFires i z
        else s.edgeNoted i z)).ticAll (0x18 + i) z true rise).pmuEdge i z
      else ((if trigInTakes (s.fld Fld.HUB_TRIG_IN_CFG_EDGE i) rise then (s.edgeNoted i z).edgeFires i z
        else s.edgeNoted i z)).ticAll (0x18 + i) z true rise := rfl

theorem State.edgeFires_work (s : State) (i : Nat) (z : Tu) : TrigWork 16 (s.xfire i z) (s.edgeFires i z) := by
  rw [State.edgeFires, State.each]
  exact foldl_rel_mem (TrigWork.refl 16) TrigWork.trans
    (fun a c hc => a.conditions_work (List.mem_range.1 hc) z (.inl (by have := List.mem_range.1 hc; omega))) _

/-- What an edge shows, whatever follows it. -/
theorem State.edgeNoted_reads (s : State) {i : Nat} (z : Tu) (hlt : s.fld Fld.HUB_TRIG_IN_CNT_COUNT i < 2 ^ 32 - 1) :
    (s.edgeNoted i z).fld Fld.HUB_TRIG_IN_CNT_COUNT i = s.fld Fld.HUB_TRIG_IN_CNT_COUNT i + 1 ∧
      tget 0 (s.edgeNoted i z).trigIn i = z ∧ (s.edgeNoted i z).pitch = s.pitch ∧ (s.edgeNoted i z).mem = s.mem ∧
      (i < 4 → s.raisable (264 + i) → (s.edgeNoted i z).evtStatus (264 + i) = true) := by
  obtain ⟨a, ha⟩ : ∃ a, a = { s with trigIn := tput 0 s.trigIn i z }.bump Fld.HUB_TRIG_IN_CNT_COUNT i 1 := ⟨_, rfl⟩
  have heq : s.edgeNoted i z = if i < 4 then a.raise0 (264 + i) else a := by rw [ha]; rfl
  have hr : Raises a (s.edgeNoted i z) [264 + i] := by
    rw [heq]
    exact .ite (State.raise0_raises _) (.refl _ _)
  have hti : tget 0 a.trigIn i = z := by
    rw [ha]
    exact tget_tput_same 0 s.trigIn i z
  have hap : a.pitch = s.pitch ∧ a.mem = s.mem := by
    rw [ha]
    exact ⟨rfl, rfl⟩
  refine ⟨?_, ?_, hr.pitch.trans hap.1, hr.mem.trans hap.2, fun hi hra => ?_⟩
  · rw [hr.fld _ _ rfl, ha]
    exact State.fld_bump_lt { s with trigIn := tput 0 s.trigIn i z } _ _ (by decide) hlt
  · have htr : (s.edgeNoted i z).trigIn = a.trigIn := by
      obtain ⟨_, _, _, _, _, _, _, _, _, _, _, h⟩ := hr.rest
      rw [h]
    rw [htr, hti]
  · rw [heq, if_pos hi]
    refine State.raise_raisable (hra.of_raising (but := [⟨.HUB_TRIG_IN_CNT, i⟩]) (srcs := []) ?_ rfl)
    rw [ha]
    exact .bump (by simp) rfl (.of_eq rfl rfl (.refl _ _ _))

theorem trigInEdge_taken (t : Tu) (i : Fin 8) (rise : Bool) (ha : s.alive = true)
    (hdue : s.trigsDue ((s.at t).stamp t) = [])
    (hgap : tget 0 s.trigIn i = 0 ∨ tuLt ((s.at t).stamp t) (tuAdd (tget 0 s.trigIn i) (ns 1)) = false)
    (hlt : s.fld Fld.HUB_TRIG_IN_CNT_COUNT i < 2 ^ 32 - 1) :
    ∃ u, exec (.trigInEdge t i rise) s = .next u ∧
      u.fld Fld.HUB_TRIG_IN_CNT_COUNT i = s.fld Fld.HUB_TRIG_IN_CNT_COUNT i + 1 ∧
      tget 0 u.trigIn i = (s.at t).stamp t ∧
      (i.val < 4 → s.fld Fld.EVT_ROUTE_KIND (264 + i) ≠ 1 → u.evtStatus (264 + i) = true) ∧
      (trigInTakes (s.fld Fld.HUB_TRIG_IN_CFG_EDGE i) rise = true → ∀ m, m < 32 →
        (recFld s.pitch.recs 4 i 0 4 0).testBit m = true → s.hasRegion m = true →
        (⟨(s.at t).stamp t, 16 + i, false⟩ : Fire) ∈ (u.region m).fires) ∧ sameMem s u := by
  obtain ⟨z, hz⟩ : ∃ z, z = (s.at t).stamp t := ⟨_, rfl⟩
  rw [← hz] at hgap hdue ⊢
  obtain ⟨hcnt, htrig, hpitch, hmem, hev⟩ := (s.at t).edgeNoted_reads (i := i) z (by rw [State.at_fld]; exact hlt)
  obtain ⟨a, haeq⟩ : ∃ a, a = (s.at t).edgeNoted i z := ⟨_, rfl⟩
  rw [← haeq] at hcnt htrig hpitch hmem hev
  obtain ⟨takes, htk⟩ : ∃ takes, takes = trigInTakes (s.fld Fld.HUB_TRIG_IN_CFG_EDGE i) rise := ⟨_, rfl⟩
  obtain ⟨b, hb⟩ : ∃ b, b = if takes = true then a.edgeFires i z else a := ⟨_, rfl⟩
  have hab : TrigWork 16 a b := by
    rw [hb]
    exact .ite ((a.xfire_work i z).trans (a.edgeFires_work i z)) (.refl _ _)
  obtain ⟨d, hd⟩ : ∃ d, d = b.ticAll (0x18 + i) z true rise := ⟨_, rfl⟩
  have hbd : TrigWork 16 b d := hd ▸ (b.ticAll_only _ _ _ _).trigWork
  obtain ⟨e, he⟩ : ∃ e, e = if rise = true then d.pmuEdge i z else d := ⟨_, rfl⟩
  have hde : ArriveWork d e := by
    rw [he]
    exact .ite (d.pmuEdge_work i z) (.refl _)
  have hex : exec (.trigInEdge t i rise) s = s.done e := by
    rw [exec, execTrigInEdge, State.when_eq ha, ← hz, State.placeTrigsTo_none (by rw [State.at_trigsDue]; exact hdue),
      State.trigInEdge_eq, State.at_trigIn, State.at_fld, ← haeq, ← htk, ← hb, ← hd, if_neg (by
        rintro ⟨h1, h2⟩
        rcases hgap with h | h
        · exact h1 h
        · rw [h] at h2
          cases h2), he]
  obtain ⟨u, hu, hru⟩ := State.done_notes s e
  have had := hab.trans hbd
  have heu : TrigWork 16 e u := hru.notes_trigWork
  have hst : ∀ i : Fin 8, i.val < 4 → followsRaise (264 + i) = false ∧ hubSource (264 + i) = true := by decide
  refine ⟨u, hex.trans hu, ?_, ?_, fun hi hroute => ?_, fun hsel m hm hbit hr => ?_, fun q => ?_⟩
  · rw [heu.fld _ _ rfl (by decide) (.inl (by decide)), State.fld_of_reg (hde.reg _ _ rfl (by decide)),
      had.fld _ _ rfl (by decide) (.inl (by decide)), hcnt, State.at_fld]
  · rw [heu.trigIn, hde.trigIn, had.trigIn, htrig]
  · have hns : ¬ trigSrc (264 + i) := by
      unfold trigSrc
      omega
    rw [heu.status _ (hst i hi).1 hns, hde.status _ (by omega) (hst i hi).1, had.status _ (hst i hi).1 hns]
    exact hev hi ((State.raisable_hub (hst i hi).2 hroute).at t)
  · refine heu.fires m _ ?_
    rw [State.region_of_eq hde.regions]
    refine hbd.fires m _ ?_
    rw [hb, htk, if_pos hsel]
    refine (a.edgeFires_work i z).fires m _ ((State.fireOut_work (g := 16) _ _ _ _ _).fires m _ ?_)
    refine State.fireRegions_mem _ _ hm ?_ ?_
    · rw [hpitch, State.at_pitch]
      exact hbit
    · rw [State.hasRegion, hpitch, State.at_pitch]
      exact hr
  · rw [heu.mem, hde.mem, had.mem, hmem, State.at_mem]

theorem trigInEdge_ignored (t : Tu) (i : Fin 8) (rise : Bool) (ha : s.alive = true)
    (hdue : s.trigsDue ((s.at t).stamp t) = []) (h0 : tget 0 s.trigIn i ≠ 0)
    (hgap : tuLt ((s.at t).stamp t) (tuAdd (tget 0 s.trigIn i) (ns 1)) = true) :
    ∃ u, exec (.trigInEdge t i rise) s = .next u ∧ u.trigIn = s.trigIn ∧ onlyRegs s u [] := by
  obtain ⟨hd, -, hon⟩ := s.done_at t
  refine ⟨_, ?_, State.at_trigIn s t, hon⟩
  rw [exec, execTrigInEdge, State.when_eq ha, State.placeTrigsTo_none (by rw [State.at_trigsDue]; exact hdue),
    State.trigInEdge_eq, State.at_trigIn, if_pos ⟨h0, hgap⟩]
  exact hd

/-! ### A pulse of a TRIG_OUT line -/

/-- A line has a pulse under way, with these waiting. -/
def State.linePut (s : State) (i : Nat) (l : TrigLine) : State := { s with trigOut := tput TrigLine.init s.trigOut i l }

theorem State.at_of_le {e : Tu} (hle : tuLe s.time e = true) (hgrid : s.standby = true ∨ tuLt e s.nextGrid = true) :
    s.at e = { s with time := e } := by
  rw [State.at, if_pos hle, if_pos]
  rcases hgrid with h | h
  · rw [h, Bool.true_or]
  · rw [h, Bool.or_true]

/-- The command of the first waiting pulse runs at its edge time. -/
theorem exec_trigOutPulse {i : Fin 4} {p : Pulse} {rest : List Pulse} (ha : s.alive = true)
    (hw : (tget TrigLine.init s.trigOut i).waiting = p :: rest) (hle : tuLe s.time p.edge = true)
    (hdue : s.trigsDue p.edge = []) (htime : (s.at p.edge).time = p.edge) :
    exec (.trigOutPulse i) s = s.done ((s.at p.edge).pulseOut i) := by
  rw [exec, execTrigOutPulse, hw]
  dsimp only [List.head?_cons]
  rw [if_pos hle, State.when_eq ha, State.placeTrigs_none]
  rw [htime, State.at_trigsDue]
  exact hdue

/-- An edge that meets no pulse begins one. -/
theorem State.pulseOut_begins {i : Nat} {p : Pulse} {rest : List Pulse}
    (hw : (tget TrigLine.init s.trigOut i).waiting = p :: rest) (hle : tuLe p.edge s.time = true)
    (hen : s.flag Fld.HUB_TRIG_OUT_CFG_EN i = true) (hstop : (tget TrigLine.init s.trigOut i).stop = none) :
    s.pulseOut i = (s.linePut i ⟨rest, some (tuAdd p.edge (ns p.width))⟩).emit
      (.trigOut i p.edge (tuAdd p.edge (ns p.width)) p.low) := by
  rw [State.pulseOut]
  dsimp only
  rw [hw]
  dsimp only
  rw [hle, hen, hstop]
  rfl

/-- An edge before the end of the pulse plus 4 ns merges into it. -/
theorem State.pulseOut_merges {i : Nat} {p : Pulse} {rest : List Pulse} {e : Tu}
    (hw : (tget TrigLine.init s.trigOut i).waiting = p :: rest) (hle : tuLe p.edge s.time = true)
    (hen : s.flag Fld.HUB_TRIG_OUT_CFG_EN i = true) (hstop : (tget TrigLine.init s.trigOut i).stop = some e)
    (hnear : tuLt p.edge (tuAdd e (ns 4)) = true) :
    s.pulseOut i = ((s.linePut i ⟨rest, some (tuAdd p.edge (ns p.width))⟩).emit
      (.trigOut i e (tuAdd p.edge (ns p.width)) p.low)).bump Fld.HUB_TRIG_OUT_MERGED_COUNT i 1 := by
  rw [State.pulseOut]
  dsimp only
  rw [hw]
  dsimp only
  rw [hle, hen, hstop, Option.filter_some, if_pos hnear]
  rfl

end Sys2Proof.Machine
end

section
/-! What a raise keeps of the outputs and of the merge counts; O28 (R205, R206). -/

namespace Sys2Proof.Machine

variable {s t u w : State} {but : List Reg} {srcs : List Nat}

/-! ### Raises take back no output and no merge -/

/-- `t` has every output of `s`, and no line of it has fewer merges. -/
structure Grows (s t : State) : Prop where
  out : ∀ o ∈ s.out, o ∈ t.out
  merged : ∀ i, s.fld Fld.HUB_TRIG_OUT_MERGED_COUNT i ≤ t.fld Fld.HUB_TRIG_OUT_MERGED_COUNT i

theorem Grows.refl (s : State) : Grows s s := ⟨fun _ h => h, fun _ => Nat.le_refl _⟩

theorem Grows.trans (h : Grows s t) (k : Grows t u) : Grows s u :=
  ⟨fun o ho => k.out o (h.out o ho), fun i => (h.merged i).trans (k.merged i)⟩

theorem Grows.ite {c : Prop} [Decidable c] {a b : State} (ha : Grows s a) (hb : Grows s b) : Grows s (if c then a else b) := by
  split <;> assumption

theorem Grows.setReg (s : State) (n : RegName) (i : Nat) (v : Word) (h : n ≠ .HUB_TRIG_OUT_MERGED) : Grows s (s.setReg n i v) :=
  ⟨fun _ ho => ho, fun _ => Nat.le_of_eq (State.fld_of_reg (s.reg_setReg_other n i v fun hh => h hh.1.symm)).symm⟩

theorem Grows.of_regs (hr : t.regs = s.regs) (ho : ∀ o ∈ s.out, o ∈ t.out) : Grows s t :=
  ⟨ho, fun _ => Nat.le_of_eq (State.fld_of_reg (by rw [State.reg, State.reg, hr])).symm⟩

theorem Grows.emit (s : State) (o : Out) : Grows s (s.emit o) := .of_regs rfl fun _ ho => List.mem_cons_of_mem _ ho

theorem Grows.bumpMerged (s : State) (i : Nat) : Grows s (s.bump Fld.HUB_TRIG_OUT_MERGED_COUNT i 1) := by
  refine ⟨fun _ ho => ho, fun j => ?_⟩
  by_cases h : j = i
  · subst h
    rw [State.fld_bump _ _ _ _ (by decide)]
    have := s.fld_lt Fld.HUB_TRIG_OUT_MERGED_COUNT j
    omega
  · exact Nat.le_of_eq (s.fld_setFld_index _ Fld.HUB_TRIG_OUT_MERGED_COUNT i j _ h).symm

theorem State.logRaise_grows (s : State) (n : Nat) (v : Word) : Grows s (s.logRaise n v) := by
  have hadd : ∀ (a : State) (k d e : Nat), Grows a (a.logAdd k d e v) := fun a k d e => by
    unfold State.logAdd
    have hseq : ∀ m, Grows a { a with mgt := m } := fun m => .of_regs rfl fun _ h => h
    exact .ite ((hseq _).trans (.setReg _ .MGT_LOG_SEQ _ _ (by decide))) (.setReg _ .MGT_LOG_DROP _ _ (by decide))
  have hmgt : ∀ m, Grows s { s with mgt := m } := fun m => .of_regs rfl fun _ h => h
  unfold State.logRaise
  exact .ite (.ite ((hmgt _).trans (hadd _ _ _ _)) (hmgt _)) (.ite (.refl _) (hmgt _))

theorem State.signal_grows (s : State) (v : Nat) : Grows s (s.signal v) := by
  have harm : ∀ a : State, Grows a (a.setArmed v false) := fun a => by
    unfold State.setArmed
    exact .ite (.setReg _ _ _ _ (by decide)) (.setReg _ _ _ _ (by decide))
  have hpba : ∀ (a : State) (b : Bool), Grows a (a.setPba v b) := fun a b => .of_regs rfl fun _ h => h
  unfold State.signal
  exact .ite (.ite (hpba _ _) (((Grows.emit _ _).trans (hpba _ _)).trans (harm _))) (.refl _)

theorem State.deliver_grows (s : State) (n : Nat) : Grows s (s.deliver n) := by
  have hstat : ∀ (a : State) (b : Bool), Grows a (a.setStatus n b) := fun a b => .setReg _ _ _ _ (by decide)
  have hpulse : ∀ (a : State) (i : Nat) (e : Tu), Grows a (a.addPulse i e) := fun a i e => by
    unfold State.addPulse
    exact .ite (.of_regs rfl fun _ h => h) (.bumpMerged _ _)
  have hsend : ∀ m, Grows s (s.tlkSend m) := fun m => by
    unfold State.tlkSend
    exact .ite (.emit _ _) (.refl _)
  have hused : Grows s s.used := .of_regs rfl fun _ h => h
  unfold State.deliver
  exact .ite (s.signal_grows _) (.ite (.ite (((Grows.ite (.refl _) (s.logRaise_grows _ _)).trans (hstat _ _)).trans
    (.setReg _ _ _ _ (by decide))) (.ite (.refl _) (.of_regs rfl fun _ h => h)))
    (.ite (.ite (hused.trans (hpulse _ _ _)) (.refl _)) (hsend _)))

theorem State.raise_grows (s : State) (n causes info : Nat) : Grows s (s.raise n causes info) := by
  have hev : ∀ (a : State) (f : Fld) (v : Nat), f.reg ≠ .HUB_TRIG_OUT_MERGED → Grows a (a.setFld f n v) :=
    fun a f v h => .setReg _ _ _ _ h
  unfold State.raise
  dsimp only
  refine .ite (.refl _) ?_
  have h1 := (Grows.setReg s .EVT_STATUS (n / 32) (putBits (s.reg .EVT_STATUS (n / 32)) (n % 32) 1 true.toNat) (by decide)).trans
    (hev _ Fld.EVT_DATA_CAUSES (s.fld Fld.EVT_DATA_CAUSES n ||| (causes % 2 ^ 16)) (by decide))
  have h2 := h1.trans (Grows.ite (c := s.fld Fld.EVT_DATA_CAUSES n = 0) (hev _ Fld.EVT_DATA_INFO info (by decide)) (.refl _))
  have h3 := fun (a : State) => hev a Fld.EVT_CNT_COUNT (min (a.fld Fld.EVT_CNT_COUNT n + 1) (2 ^ Fld.EVT_CNT_COUNT.width - 1))
    (by decide)
  have h4 : ∀ (a : State) (r : Tab RaiseMark), Grows a { a with evt := { a.evt with raises := r } } := fun a r =>
    .of_regs rfl fun _ h => h
  have h5 : ∀ (a : State) (v : Word), Grows a (if loggedSource n then a.logRaise n v else a) := fun a v =>
    .ite (a.logRaise_grows _ _) (.refl _)
  have h6 : ∀ (a : State) (c : Bool), Grows a (if c then a.deliver n else a) := fun a c => .ite (a.deliver_grows _) (.refl _)
  exact (((h2.trans (h3 _)).trans (h4 _ _)).trans (h5 _ _)).trans (h6 _ _)

/-! ### The note of a line's first merge -/

/-- What the notes of merges keep: outputs, merges, and a STATUS bit that a raise can set. -/
structure NoteKept (k : Nat) (s t : State) : Prop where
  raises : Raises s t [260, 261, 262, 263]
  grows : Grows s t
  status : s.raisable k → s.evtStatus k = true → t.evtStatus k = true

theorem NoteKept.refl (k : Nat) (s : State) : NoteKept k s s := ⟨.refl _ _, .refl _, fun _ h => h⟩

theorem NoteKept.ite {k : Nat} {c : Prop} [Decidable c] {a b : State} (ha : NoteKept k s a) (hb : NoteKept k s b) :
    NoteKept k s (if c then a else b) := by split <;> assumption

theorem NoteKept.raisable {k : Nat} (h : NoteKept k s t) (hr : s.raisable k) : t.raisable k :=
  hr.of_raising (but := []) (srcs := [260, 261, 262, 263]) (h.raises.only fun _ hj => .inl hj) rfl

theorem NoteKept.trans {k : Nat} (h : NoteKept k s t) (g : NoteKept k t u) : NoteKept k s u :=
  ⟨h.raises.trans g.raises, h.grows.trans g.grows, fun hr hs => g.status (h.raisable hr) (h.status hr hs)⟩

theorem State.raise0_noteKept (s : State) (k : Nat) {j : Nat} (hj : j < 4) : NoteKept k s (s.raise0 (260 + j)) := by
  refine ⟨(s.raise0_raises (260 + j)).mono fun m hm => ?_, s.raise_grows _ _ _, fun hr hs => ?_⟩
  · rw [List.mem_singleton.1 hm]
    simp only [List.mem_cons, List.not_mem_nil, or_false]
    omega
  · by_cases h : k = 260 + j
    · rw [h] at hr ⊢
      exact State.raise_raisable hr
    · rw [((s.raise0_raises (260 + j)).src k (by simpa using h)).1]
      exact hs

/-- The lines whose merge count has left 0 from `s0` to `s` raise their events on `x`. -/
def mergeRound (s0 s x : State) : State :=
  x.each 4 fun x i =>
    if s0.fld Fld.HUB_TRIG_OUT_MERGED_COUNT i = 0 ∧ s.fld Fld.HUB_TRIG_OUT_MERGED_COUNT i ≠ 0 then x.raise0 (260 + i) else x

theorem State.mergeNote_succ (n : Nat) (s0 s : State) :
    State.mergeNote (n + 1) s0 s = State.mergeNote n s (mergeRound s0 s s) := rfl

theorem mergeRound_noteKept (k : Nat) (s0 s x : State) : NoteKept k x (mergeRound s0 s x) := by
  rw [mergeRound, State.each]
  exact foldl_rel_mem (R := NoteKept k) (NoteKept.refl k) NoteKept.trans
    (fun a j hj => .ite (a.raise0_noteKept k (List.mem_range.1 hj)) (.refl k a)) x

theorem State.mergeNote_noteKept (n k : Nat) (s0 s : State) : NoteKept k s (State.mergeNote n s0 s) := by
  induction n generalizing s0 s with
  | zero => exact .refl k s
  | succ n ih =>
    rw [State.mergeNote_succ]
    exact (mergeRound_noteKept k s0 s s).trans (ih s _)

/-- The round raises the event of a line that has merged. -/
theorem mergeRound_status {s0 x : State} {i : Nat} (hi : i < 4) (h0 : s0.fld Fld.HUB_TRIG_OUT_MERGED_COUNT i = 0)
    (h1 : s.fld Fld.HUB_TRIG_OUT_MERGED_COUNT i ≠ 0) (hr : x.raisable (260 + i)) :
    (mergeRound s0 s x).evtStatus (260 + i) = true := by
  rw [mergeRound, State.each]
  obtain ⟨a, hxa, hab⟩ := foldl_between_mem (R := NoteKept (260 + i)) (l := List.range 4) (x := i)
    (f := fun x i => if s0.fld Fld.HUB_TRIG_OUT_MERGED_COUNT i = 0 ∧ s.fld Fld.HUB_TRIG_OUT_MERGED_COUNT i ≠ 0
      then x.raise0 (260 + i) else x) (NoteKept.refl _) NoteKept.trans
    (fun a j hj _ => .ite (a.raise0_noteKept _ (List.mem_range.1 hj)) (.refl _ a)) x List.nodup_range (List.mem_range.2 hi)
  rw [if_pos ⟨h0, h1⟩] at hab
  have ha := hxa.raisable hr
  exact hab.status ((a.raise0_noteKept (260 + i) hi).raisable ha) (State.raise_raisable ha)

/-! ### TRIG_OUT_PULSE -/

theorem tuLe_refl (a : Tu) : tuLe a a = true := by
  rw [tuLe, BitVec.sub_self]
  rfl

theorem trigOutPulse_begins {i : Fin 4} {p : Pulse} {rest : List Pulse} (ha : s.alive = true)
    (hw : (tget TrigLine.init s.trigOut i).waiting = p :: rest) (hle : tuLe s.time p.edge = true)
    (hgrid : s.standby = true ∨ tuLt p.edge s.nextGrid = true) (hen : s.flag Fld.HUB_TRIG_OUT_CFG_EN i = true)
    (hdue : s.trigsDue p.edge = []) (hstop : (tget TrigLine.init s.trigOut i).stop = none) :
    ∃ u, exec (.trigOutPulse i) s = .next u ∧ u.time = p.edge ∧
      u.out = .trigOut i p.edge (tuAdd p.edge (ns p.width)) p.low :: s.out ∧
      tget TrigLine.init u.trigOut i = ⟨rest, some (tuAdd p.edge (ns p.width))⟩ ∧ onlyRegs s u [] := by
  have hon : onlyRegs s ((({ s with time := p.edge } : State).linePut i ⟨rest, some (tuAdd p.edge (ns p.width))⟩).emit
      (.trigOut i p.edge (tuAdd p.edge (ns p.width)) p.low)) [] := .of_eq rfl rfl (.refl _ _)
  refine ⟨_, ?_, ?_, ?_, ?_, hon⟩
  · rw [exec_trigOutPulse ha hw hle hdue (by rw [State.at_of_le hle hgrid]), State.at_of_le hle hgrid,
      State.pulseOut_begins (s := { s with time := p.edge }) (p := p) (rest := rest) hw (tuLe_refl _) hen hstop]
    exact State.done_of_sameRegs hon.1 rfl
  · rfl
  · rfl
  · exact tget_tput_same _ _ _ _

theorem trigOutPulse_merges {i : Fin 4} {p : Pulse} {rest : List Pulse} {e : Tu} (ha : s.alive = true)
    (hw : (tget TrigLine.init s.trigOut i).waiting = p :: rest) (hle : tuLe s.time p.edge = true)
    (hgrid : s.standby = true ∨ tuLt p.edge s.nextGrid = true) (hen : s.flag Fld.HUB_TRIG_OUT_CFG_EN i = true)
    (hdue : s.trigsDue p.edge = []) (hstop : (tget TrigLine.init s.trigOut i).stop = some e)
    (hnear : tuLt p.edge (tuAdd e (ns 4)) = true) (hlt : s.fld Fld.HUB_TRIG_OUT_MERGED_COUNT i < 2 ^ 32 - 1) :
    ∃ u, exec (.trigOutPulse i) s = .next u ∧ Out.trigOut i e (tuAdd p.edge (ns p.width)) p.low ∈ u.out ∧
      s.fld Fld.HUB_TRIG_OUT_MERGED_COUNT i < u.fld Fld.HUB_TRIG_OUT_MERGED_COUNT i ∧
      (s.fld Fld.HUB_TRIG_OUT_MERGED_COUNT i = 0 → s.fld Fld.EVT_ROUTE_KIND (260 + i) ≠ 1 →
        u.evtStatus (260 + i) = true) ∧ onlyRaising s u [] [260 + i] := by
  obtain ⟨a, haeq⟩ : ∃ a, a = (({ s with time := p.edge } : State).linePut i ⟨rest, some (tuAdd p.edge (ns p.width))⟩).emit
      (.trigOut i e (tuAdd p.edge (ns p.width)) p.low) := ⟨_, rfl⟩
  have hsa : onlyRaising s a [] [260 + i] := by
    rw [haeq]
    exact .of_eq rfl rfl (.refl _ _ _)
  have hfld : a.fld Fld.HUB_TRIG_OUT_MERGED_COUNT i = s.fld Fld.HUB_TRIG_OUT_MERGED_COUNT i := by rw [haeq]; rfl
  have hout : Out.trigOut i e (tuAdd p.edge (ns p.width)) p.low ∈ a.out := by
    rw [haeq]
    exact List.mem_cons_self ..
  obtain ⟨b, hb⟩ : ∃ b, b = a.bump Fld.HUB_TRIG_OUT_MERGED_COUNT i 1 := ⟨_, rfl⟩
  have hab : Raises a b [] := hb ▸ Raises.setReg_other _ _ rfl (by decide) (by decide) (by decide)
  have hsb : onlyRaising s b [] [260 + i] := hsa.trans (hab.only fun _ h => absurd h (List.not_mem_nil))
  have hcnt : b.fld Fld.HUB_TRIG_OUT_MERGED_COUNT i = s.fld Fld.HUB_TRIG_OUT_MERGED_COUNT i + 1 := by
    rw [hb, State.fld_bump_lt _ _ _ (by decide) (by rw [hfld]; exact hlt), hfld]
  have hnote : NoteKept (260 + i) b (State.mergeNote 4 s b) := State.mergeNote_noteKept _ _ _ _
  have hdrop := State.logNoteDrop_raises (s := State.mergeNote 4 s b) s
  have hgrow : Grows b (s.logNoteDrop (State.mergeNote 4 s b)) := hnote.grows.trans (by
    unfold State.logNoteDrop
    exact .ite (State.raise_grows _ _ _ _) (.refl _))
  refine ⟨s.logNoteDrop (State.mergeNote 4 s b), ?_, hgrow.out _ ?_, ?_, fun h0 hk => ?_, ?_⟩
  · rw [exec_trigOutPulse ha hw hle hdue (by rw [State.at_of_le hle hgrid]), State.at_of_le hle hgrid,
      State.pulseOut_merges (s := { s with time := p.edge }) (p := p) (rest := rest) (e := e) hw (tuLe_refl _) hen hstop hnear, ← haeq, ← hb]
    rfl
  · rw [hb]
    exact hout
  · exact Nat.lt_of_lt_of_le (by rw [hcnt]; exact Nat.lt_succ_self _) (hgrow.merged i)
  · have hhub : ∀ i : Fin 4, hubSource (260 + i) = true := by decide
    have hr : b.raisable (260 + i) := (State.raisable_hub (hhub i) hk).of_raising hsb rfl
    rw [(hdrop.src _ (by have := i.2; simp only [List.mem_singleton]; omega)).1, State.mergeNote_succ]
    exact (State.mergeNote_noteKept 3 (260 + i) b _).status ((mergeRound_noteKept _ s b b).raisable hr)
      (mergeRound_status i.2 h0 (by rw [hcnt]; exact Nat.succ_ne_zero _) hr)
  · exact hsb.trans (((hnote.raises.mono (by decide)).trans (hdrop.mono (by decide))).onlyNotes)

/-- Settles O28: crossings and forced fires as `generatorsFire` states them; an edge on a TRIG_IN line is noted before anything
that it fires, which takes back neither the count nor the fire; the notes of a merge raise the line's event and take back
neither an output nor a merge. -/
theorem triggersFire : Obligations.TriggersFire := by
  unfold Obligations.TriggersFire generatorsFire triggerPinsAct
  refine ⟨⟨fun s t ln lo rise off ha hoff hdue hx => ⟨?_, ?_⟩, fun s t c bits hup hc => ⟨?_, ?_⟩⟩,
    fun s t i rise ha hdue => ⟨?_, ?_⟩, fun s i p rest ha hw hle hgrid hen hdue => ⟨?_, ?_⟩⟩
  · exact comparatorCrossing_noted s t ln lo rise off ha hoff hdue hx
  · exact comparatorCrossing_fires s t ln lo rise off ha hoff hdue hx
  · exact trgForce_waits s t c bits hup hc
  · exact trgForce_fires s t c bits hup hc
  · exact trigInEdge_taken t i rise ha hdue
  · exact trigInEdge_ignored t i rise ha hdue
  · exact trigOutPulse_begins ha hw hle hgrid hen hdue
  · exact fun e => trigOutPulse_merges ha hw hle hgrid hen hdue

end Sys2Proof.Machine
end

section
/-! O44: rings and the end of queues (R336, R343 to R347). -/

namespace Sys2Proof.Machine

variable {s t u w : State} {but : List Reg} {srcs : List Nat}

/-! ### Operations on one queue -/

/-- The source of a queue that the image has. -/
theorem State.raisable_queue (q : Fin 64) (hk : s.qKind q ≠ 0) (hr : s.fld Fld.EVT_ROUTE_KIND (304 + q) ≠ 1) :
    s.raisable (304 + q) := by
  have hv : ∀ q : Fin 64, evtValid (304 + q) = true := by decide
  refine ⟨hv q, ?_, ?_, hr⟩
  · unfold State.evtAsleep
    repeat rw [if_neg (by omega)]
  · rw [State.evtAbsent, Bool.and_eq_false_iff]
    refine .inr ?_
    rw [beq_eq_false_iff_ne, show 304 + q.val - 304 = q.val by omega]
    exact hk

theorem State.at_qState (s : State) (x : Tu) (q : Nat) : (s.at x).qState q = s.qState q := State.at_fld _ _ _ _
theorem State.at_qKind (s : State) (x : Tu) (q : Nat) : (s.at x).qKind q = s.qKind q := State.at_fld _ _ _ _

theorem onlyRegs.modQueue {q : Nat} {f : Queue → Queue} (h : onlyRegs s t but) : onlyRegs s (t.modQueue q f) but :=
  .of_eq rfl rfl h

theorem onlyRegs.setPair {lo hi : RegName} {i : Nat} {v : Tu} (hl : ⟨lo, i⟩ ∈ but) (hh : ⟨hi, i⟩ ∈ but)
    (h : onlyRegs s t but) : onlyRegs s (t.setPair lo hi i v) but := .setReg hh (.setReg hl h)

theorem State.complete_only (s : State) (q : Nat) (a : Frame) (n ofs st : Nat) (l : Frame) :
    onlyRegs s (s.complete q a n ofs st l) [⟨.DMA_Q_CPL_WR, q⟩, ⟨.DMA_Q_LATE, q⟩] := by
  unfold State.complete
  dsimp only
  have h3 : ∀ o x f, onlyRegs s (((s.emit o).setFld Fld.DMA_Q_CPL_WR_INDEX q x).modQueue q f)
      [⟨.DMA_Q_CPL_WR, q⟩, ⟨.DMA_Q_LATE, q⟩] := fun o x f =>
    .modQueue (.setFld (.head _) (.emit (.refl _ _)))
  exact .ite (.bump (.tail _ (.head _)) (h3 _ _ _)) (h3 _ _ _)

/-- The registers that the abort of queue `q` may change before the queue is off. -/
def recordRegs (q : Nat) : List Reg :=
  [⟨.DMA_Q_CPL_WR, q⟩, ⟨.DMA_Q_LATE, q⟩, ⟨.DMA_Q_LOST_LO, q⟩, ⟨.DMA_Q_LOST_HI, q⟩]

theorem State.recordOrLose_only (s : State) (q : Nat) (a : Frame) (n ofs st : Nat) (l : Frame) :
    onlyRegs s (s.recordOrLose q a n ofs st l) (recordRegs q) := by
  unfold State.recordOrLose State.addLost
  exact .ite (.setPair (by simp [recordRegs]) (by simp [recordRegs]) (.refl _ _))
    ((s.complete_only q a n ofs st l).mono (by simp [recordRegs]))

theorem State.abortRecord_only (s : State) (q : Nat) : onlyRegs s (s.abortRecord q) (recordRegs q) := by
  unfold State.abortRecord
  split
  · exact s.recordOrLose_only _ _ _ _ _ _
  · exact (onlyRegs.of_eq (t := s) rfl rfl (.refl _ _)).trans (s.used.recordOrLose_only _ _ _ _ _ _)

theorem State.abortXfers_only (s : State) (q : Nat) : onlyRegs s (s.abortXfers q) (recordRegs q) := by
  unfold State.abortXfers
  exact .foldl _ (fun a d _ h => h.trans (a.recordOrLose_only _ _ _ _ _ _)) (.refl _ _)

/-- The registers of a queue that goes OFF. -/
def offRegs (q : Nat) : List Reg := [⟨.DMA_Q_STATUS, q⟩, ⟨.DMA_Q_STAGED, q⟩, ⟨.DMA_GLOBAL_STATUS, 0⟩]

theorem State.qOff_only (s : State) (q : Nat) : onlyRegs s (s.qOff q) (offRegs q) := by
  unfold State.qOff State.syncInflight State.syncStaged State.setQState
  refine .setFld (by simp [offRegs]) (.setFld (by simp [offRegs]) (.modQueue (.setFld (by simp [offRegs]) (.refl _ _))))

/-- The record of a queue that is off. -/
theorem State.qOff_queue (s : State) (q : Nat) : ((s.qOff q).queue q) =
    { s.queue q with accepting := false, circ := none, staged := [], gap := none, full := false, xfers := [],
                     lastFrame := none, release := none } := by
  unfold State.qOff State.syncInflight State.syncStaged
  rw [State.queue_setFld, State.queue_setFld]
  exact State.queue_modQueue _ _ _

theorem State.qOff_state (s : State) (q : Nat) : (s.qOff q).qState q = 0 := by
  unfold State.qOff State.syncInflight State.syncStaged State.qState State.setQState
  rw [State.fld_setFld_ne _ _ _ _ _ _ (by decide), State.fld_setFld_ne _ _ _ _ _ _ (by decide)]
  exact State.fld_setFld_of_lt _ _ _ (by decide) (by decide)

theorem State.qOff_staged (s : State) (q : Nat) : (s.qOff q).fld Fld.DMA_Q_STAGED_BYTES q = 0 := by
  unfold State.qOff State.syncInflight
  rw [State.fld_setFld_ne _ _ _ _ _ _ (by decide)]
  unfold State.syncStaged
  rw [State.queue_modQueue]
  exact State.fld_setFld_of_lt _ _ _ (by decide) (show min 0 (2 ^ 32 - 1) < 2 ^ 32 by decide)

/-! ### A queue ends -/

/-- A queue goes OFF after `a` and tells it. -/
theorem State.done_qOff {x : Tu} {q : Fin 64} {a : State} (hk : s.qKind q ≠ 0) (ha : onlyRegs (s.at x) a but)
    (hb : plainRegs (but ++ offRegs q) = true) :
    ∃ u, s.done ((a.qOff q).qEvent q 4) = .next u ∧ u.qState q = 0 ∧ u.queue q = (a.qOff q).queue q ∧
      u.fld Fld.DMA_Q_STAGED_BYTES q = 0 ∧
      (s.fld Fld.EVT_ROUTE_KIND (304 + q) ≠ 1 → u.evtStatus (304 + q) = true) ∧
      onlyRaising s u (but ++ offRegs q) [304 + q] := by
  have hw : onlyRegs (s.at x) (a.qOff q) (but ++ offRegs q) :=
    (ha.mono (List.subset_append_left _ _)).trans ((a.qOff_only q).mono (List.subset_append_right _ _))
  have hf : ∀ q : Fin 64, followsRaise (304 + q) = false := by decide
  obtain ⟨u, hu, hr⟩ := State.done_raisedIf (s := s) (x := x) (k := 304 + q) (c := True) (causes := 2 ^ 4)
    (info := (a.qOff q).fld Fld.DMA_Q_STATUS_CAUSE q) hw hb (hf q)
  rw [if_pos trivial] at hu
  refine ⟨u, hu, (hr.fld Fld.DMA_Q_STATUS_STATE _ rfl).trans (a.qOff_state q), State.queue_of_eq hr.raises.dma _,
    (hr.fld _ _ rfl).trans (a.qOff_staged q), fun h => hr.status trivial (s.raisable_queue q hk h), hr.only⟩

theorem queueDrained_off (t : Tu) (q : Fin 64) (ha : s.alive = true) (hk : s.qKind q ≠ 0) (h2 : s.qState q = 2)
    (hs : (s.queue q).staged = []) (hx : (s.queue q).xfers = []) (hr : (s.queue q).release = none) :
    ∃ u, exec (.queueDrained t q) s = .next u ∧ u.qState q = 0 ∧ (u.queue q).circ = none ∧
      (s.fld Fld.EVT_ROUTE_KIND (304 + q) ≠ 1 → u.evtStatus (304 + q) = true) ∧
      onlyRaising s u [⟨.DMA_Q_STATUS, q⟩, ⟨.DMA_Q_STAGED, q⟩, ⟨.DMA_GLOBAL_STATUS, 0⟩] [304 + q] := by
  obtain ⟨u, hu, hst, hq, -, hev, hon⟩ := State.done_qOff (s := s) (x := t) (but := []) (q := q) hk (.refl _ _) rfl
  refine ⟨u, ?_, hst, by rw [hq, State.qOff_queue], hev, hon⟩
  rw [exec, execQueueDrained, State.when_eq ha, State.drained]
  rw [State.queue_of_eq (State.at_dma s t), State.at_qState, hs, hx, hr, if_pos ⟨h2, rfl, rfl, rfl⟩]
  exact hu

theorem queueAbort_off (t : Tu) (q : Fin 64) (hup : s.hostUp = true) (hk : s.qKind q ≠ 0) (h0 : s.qState q ≠ 0)
    (h5 : s.qState q ≠ 5) :
    ∃ u, exec (.queueAbort t q) s = .next u ∧ u.qState q = 0 ∧ (u.queue q).staged = [] ∧ (u.queue q).xfers = [] ∧
      u.fld Fld.DMA_Q_STAGED_BYTES q = 0 ∧
      (s.fld Fld.EVT_ROUTE_KIND (304 + q) ≠ 1 → u.evtStatus (304 + q) = true) ∧
      onlyRaising s u [⟨.DMA_Q_STATUS, q⟩, ⟨.DMA_Q_STAGED, q⟩, ⟨.DMA_GLOBAL_STATUS, 0⟩, ⟨.DMA_Q_CPL_WR, q⟩,
        ⟨.DMA_Q_LATE, q⟩, ⟨.DMA_Q_LOST_LO, q⟩, ⟨.DMA_Q_LOST_HI, q⟩] [304 + q] := by
  obtain ⟨a, haeq⟩ : ∃ a, a = if (s.at t).isStream q then (s.at t).abortRecord q else (s.at t).abortXfers q := ⟨_, rfl⟩
  have ha : onlyRegs (s.at t) a (recordRegs q) := by
    rw [haeq]
    exact .ite ((s.at t).abortRecord_only q) ((s.at t).abortXfers_only q)
  obtain ⟨u, hu, hst, hq, hbytes, hev, hon⟩ := State.done_qOff hk ha rfl
  refine ⟨u, ?_, hst, by rw [hq, State.qOff_queue], by rw [hq, State.qOff_queue], hbytes, hev,
    hon.mono (by simp [recordRegs, offRegs]) (fun _ h => h)⟩
  rw [exec, execQueueAbort, State.whenHost_eq hup, State.abortQueue, State.at_qState, if_neg (by
    rintro (h | h)
    · exact h0 h
    · exact h5 h), ← haeq]
  exact hu

theorem queueAbort_ignored (t : Tu) (q : Fin 64) (hup : s.hostUp = true) (h : s.qState q = 0 ∨ s.qState q = 5) :
    ∃ u, exec (.queueAbort t q) s = .next u ∧ onlyRegs s u [] := by
  obtain ⟨hd, -, hon⟩ := s.done_at t
  refine ⟨_, ?_, hon⟩
  rw [exec, execQueueAbort, State.whenHost_eq hup, State.abortQueue, State.at_qState, if_pos h]
  exact hd

/-! ### Rings -/

theorem descriptorPost_tail (t : Tu) (q : Fin 64) (idx : BitVec 13) (hup : s.hostUp = true) (hk : s.qKind q ≠ 0) :
    ∃ u, exec (.descriptorPost t q idx) s = .next u ∧ u.fld Fld.DMA_Q_TAIL_INDEX q = idx.toNat ∧
      onlyRegs s u [⟨.DMA_Q_TAIL, q⟩] := by
  obtain ⟨hd, hon⟩ := State.done_onlyRegs (s := s) (x := t) (but := [⟨.DMA_Q_TAIL, q⟩])
    (t := (s.at t).setFld Fld.DMA_Q_TAIL_INDEX q idx.toNat) (.setFld (.head _) (.refl _ _)) rfl
  refine ⟨_, ?_, State.fld_setFld_of_lt _ _ _ (by decide) idx.isLt, hon⟩
  rw [exec, execDescriptorPost, State.whenHost_eq hup, State.postDesc, State.at_qKind, if_neg hk]
  exact hd

/-- The first index register of the ring of a base register, and the second. -/
def ringIndex : RingReg → RegName × RegName
  | .ringLo | .ringHi => (.DMA_Q_HEAD, .DMA_Q_TAIL)
  | .cplLo | .cplHi => (.DMA_Q_CPL_WR, .DMA_Q_CPL_RD)

theorem State.writeRingBase_only (s : State) (q : Nat) (r : RingReg) (v : Word) :
    onlyRegs s (s.writeRingBase q r v) [⟨ringRegName r, q⟩, ⟨(ringIndex r).1, q⟩, ⟨(ringIndex r).2, q⟩] := by
  have h1 : onlyRegs s (s.setReg (ringRegName r) q v)
      [⟨ringRegName r, q⟩, ⟨(ringIndex r).1, q⟩, ⟨(ringIndex r).2, q⟩] := .setReg (.head _) (.refl _ _)
  unfold State.writeRingBase
  refine .ite (.refl _ _) ?_
  cases r with
  | ringLo | ringHi => exact .setFld (.tail _ (.tail _ (.head _))) (.setFld (.tail _ (.head _)) h1)
  | cplLo | cplHi => exact .modQueue (.setFld (.tail _ (.tail _ (.head _))) (.setFld (.tail _ (.head _)) h1))

theorem State.writeRingBase_base {q : Nat} (hk : s.qKind q ≠ 0) (h0 : s.qState q = 0) (r : RingReg) (v : Word) :
    (s.writeRingBase q r v).reg (ringRegName r) q = v := by
  rw [State.writeRingBase, if_neg fun h => h.elim hk (absurd h0)]
  cases r <;> exact (State.reg_setFld_ne _ _ _ _ _ _ (by decide)).trans
    ((State.reg_setFld_ne _ _ _ _ _ _ (by decide)).trans (State.reg_setReg_same _ _ _ _))

theorem State.writeRingBase_ring {q : Nat} {r : RingReg} (hk : s.qKind q ≠ 0) (h0 : s.qState q = 0)
    (h : r = .ringLo ∨ r = .ringHi) (v : Word) :
    (s.writeRingBase q r v).fld Fld.DMA_Q_HEAD_INDEX q = 0 ∧ (s.writeRingBase q r v).fld Fld.DMA_Q_TAIL_INDEX q = 0 := by
  have hw : s.writeRingBase q r v =
      ((s.setReg (ringRegName r) q v).setFld Fld.DMA_Q_HEAD_INDEX q 0).setFld Fld.DMA_Q_TAIL_INDEX q 0 := by
    rw [State.writeRingBase, if_neg fun h => h.elim hk (absurd h0)]
    rcases h with rfl | rfl <;> rfl
  rw [hw]
  exact ⟨(State.fld_setFld_ne _ _ _ _ _ _ (by decide)).trans (State.fld_setFld_of_lt _ _ _ (by decide) (by decide)),
    State.fld_setFld_of_lt _ _ _ (by decide) (by decide)⟩

theorem State.writeRingBase_cpl {q : Nat} {r : RingReg} (hk : s.qKind q ≠ 0) (h0 : s.qState q = 0)
    (h : r = .cplLo ∨ r = .cplHi) (v : Word) :
    (s.writeRingBase q r v).fld Fld.DMA_Q_CPL_WR_INDEX q = 0 ∧ (s.writeRingBase q r v).fld Fld.DMA_Q_CPL_RD_INDEX q = 0 ∧
      ((s.writeRingBase q r v).queue q).phase = true := by
  have hw : s.writeRingBase q r v = (((s.setReg (ringRegName r) q v).setFld Fld.DMA_Q_CPL_WR_INDEX q 0).setFld
      Fld.DMA_Q_CPL_RD_INDEX q 0).modQueue q fun x => { x with phase := true } := by
    rw [State.writeRingBase, if_neg fun h => h.elim hk (absurd h0)]
    rcases h with rfl | rfl <;> rfl
  rw [hw, State.queue_modQueue]
  exact ⟨(State.fld_setFld_ne _ _ _ _ _ _ (by decide)).trans (State.fld_setFld_of_lt _ _ _ (by decide) (by decide)),
    State.fld_setFld_of_lt _ _ _ (by decide) (by decide), rfl⟩

theorem ringBaseWrite_off (t : Tu) (q : Fin 64) (r : RingReg) (v : Word) (hup : s.hostUp = true) (hk : s.qKind q ≠ 0)
    (h0 : s.qState q = 0) :
    ∃ u, exec (.ringBaseWrite t q r v) s = .next u ∧ u.reg (ringRegName r) q = v ∧
      (r = .ringLo ∨ r = .ringHi → u.fld Fld.DMA_Q_HEAD_INDEX q = 0 ∧ u.fld Fld.DMA_Q_TAIL_INDEX q = 0 ∧
        onlyRegs s u [⟨ringRegName r, q⟩, ⟨.DMA_Q_HEAD, q⟩, ⟨.DMA_Q_TAIL, q⟩]) ∧
      (r = .cplLo ∨ r = .cplHi → u.fld Fld.DMA_Q_CPL_WR_INDEX q = 0 ∧ u.fld Fld.DMA_Q_CPL_RD_INDEX q = 0 ∧
        (u.queue q).phase = true ∧ onlyRegs s u [⟨ringRegName r, q⟩, ⟨.DMA_Q_CPL_WR, q⟩, ⟨.DMA_Q_CPL_RD, q⟩]) := by
  have hplain : plainRegs [⟨ringRegName r, q⟩, ⟨(ringIndex r).1, q⟩, ⟨(ringIndex r).2, q⟩] = true := by
    cases r <;> rfl
  obtain ⟨hd, hon⟩ := State.done_onlyRegs (s := s) (x := t) ((s.at t).writeRingBase_only q r v) (noEventReg_of_plain hplain)
  have hk' : (s.at t).qKind q ≠ 0 := by rwa [State.at_qKind]
  have h0' : (s.at t).qState q = 0 := by rwa [State.at_qState]
  refine ⟨_, ?_, State.writeRingBase_base hk' h0' r v, fun h => ?_, fun h => ?_⟩
  · rw [exec, execRingBaseWrite, State.whenHost_eq hup]
    exact hd
  · obtain ⟨hh, ht⟩ := State.writeRingBase_ring hk' h0' h v
    refine ⟨hh, ht, ?_⟩
    rcases h with rfl | rfl <;> exact hon
  · obtain ⟨hw, hr, hp⟩ := State.writeRingBase_cpl hk' h0' h v
    refine ⟨hw, hr, hp, ?_⟩
    rcases h with rfl | rfl <;> exact hon

theorem ringBaseWrite_ignored (t : Tu) (q : Fin 64) (r : RingReg) (v : Word) (hup : s.hostUp = true) (h0 : s.qState q ≠ 0) :
    ∃ u, exec (.ringBaseWrite t q r v) s = .next u ∧ onlyRegs s u [] := by
  obtain ⟨hd, -, hon⟩ := s.done_at t
  refine ⟨_, ?_, hon⟩
  rw [exec, execRingBaseWrite, State.whenHost_eq hup, State.writeRingBase, State.at_qState, if_pos (.inr h0)]
  exact hd

/-- Settles O44: a queue that ends passes through `qOff`, which empties its record, and then tells it. -/
theorem queuesStartAndEnd : Obligations.QueuesStartAndEnd := by
  unfold Obligations.QueuesStartAndEnd ringsArePosted queuesEnd
  refine ⟨fun s t q hup hk => ⟨fun idx => descriptorPost_tail t q idx hup hk, fun r v h0 => ?_, fun r v h0 => ?_⟩,
    fun s t q hup hk => ⟨fun h2 hs hx hr => ?_, fun h0 h5 => ?_, fun h => ?_⟩⟩
  · exact ringBaseWrite_off t q r v hup hk h0
  · exact ringBaseWrite_ignored t q r v hup h0
  · exact queueDrained_off t q (State.alive_of_hostUp hup) hk h2 hs hx hr
  · exact queueAbort_off t q hup hk h0 h5
  · exact queueAbort_ignored t q hup h

end Sys2Proof.Machine
end

section
/-! O36: SYNCs wait, act and are carried (R246 to R254, R371). -/

namespace Sys2Proof.Machine

variable {s t u w : State} {but : List Reg} {srcs : List Nat}

/-! ### What a SYNC that acts keeps -/

/-- `t` has the registers of `s` that `p` names, its memory and its SYNCs. -/
structure Keeps (p : RegName → Nat → Prop) (s t : State) : Prop where
  reg : ∀ n k, p n k → t.reg n k = s.reg n k
  mem : t.mem = s.mem
  sync : t.sync = s.sync

section
variable {p p' : RegName → Nat → Prop}

theorem Keeps.refl (p : RegName → Nat → Prop) (s : State) : Keeps p s s := ⟨fun _ _ _ => rfl, rfl, rfl⟩

theorem Keeps.trans (h : Keeps p s t) (g : Keeps p t u) : Keeps p s u :=
  ⟨fun n k hp => (g.reg n k hp).trans (h.reg n k hp), g.mem.trans h.mem, g.sync.trans h.sync⟩

theorem Keeps.mono (h : Keeps p s t) (hp : ∀ n k, p' n k → p n k) : Keeps p' s t :=
  ⟨fun n k hk => h.reg n k (hp n k hk), h.mem, h.sync⟩

theorem Keeps.of_eq (hr : t.regs = s.regs) (hm : t.mem = s.mem) (hs : t.sync = s.sync) : Keeps p s t :=
  ⟨fun n k _ => by rw [State.reg, State.reg, hr], hm, hs⟩

theorem Keeps.setReg (s : State) {n : RegName} {i : Nat} (v : Word) (hn : ¬ p n i) : Keeps p s (s.setReg n i v) :=
  ⟨fun m k hp => s.reg_setReg_other n i v fun h => hn (by rw [← h.1, ← h.2]; exact hp), rfl, rfl⟩

theorem Keeps.setFld (s : State) {f : Fld} {i : Nat} (x : Nat) (hn : ¬ p f.reg i) : Keeps p s (s.setFld f i x) := .setReg s _ hn

theorem Keeps.setPair (s : State) {lo hi : RegName} {i : Nat} (v : Tu) (hl : ¬ p lo i) (hh : ¬ p hi i) :
    Keeps p s (s.setPair lo hi i v) := (Keeps.setReg s _ hl).trans (.setReg _ _ hh)

theorem Keeps.fld (h : Keeps p s t) (f : Fld) (k : Nat) (hp : p f.reg k) : t.fld f k = s.fld f k :=
  State.fld_of_reg (h.reg _ _ hp)

theorem Keeps.of_raises {ns : List Nat} (h : Raises s t ns) (hp : ∀ n k, p n k → eventReg n = false) : Keeps p s t :=
  ⟨fun n k hk => h.reg n k (hp n k hk), h.mem, h.sync⟩

end

/-! ### Reductions start -/

/-- What a start of reduction unit `v` shows. -/
def redStartNames : List RegName := [.RED_SYNC_TTS_LO, .RED_SYNC_TTS_HI, .RED_OUT_COUNT, .RED_STATUS]

/-- Every register but those of a start of another unit than `v`. -/
def redUnitKept (v : Nat) (n : RegName) (k : Nat) : Prop := n ∉ redStartNames ∨ k = v

theorem State.redStart_keeps (s : State) {v u : Nat} (cause : Nat) (x : Tu) (h : u ≠ v) :
    Keeps (redUnitKept v) s (s.redStart u cause x) := by
  have hn : ∀ n ∈ redStartNames, ¬ redUnitKept v n u := fun n hn hk => hk.elim (fun h' => h' hn) h
  unfold State.redStart
  split
  · exact .refl _ _
  · dsimp only
    unfold State.redMark
    refine .trans (.trans ?_ (.setFld _ _ (hn _ (by decide)))) (.setFld _ _ (hn _ (by decide)))
    refine .trans (.trans (.trans ?_ (.setPair _ _ (hn _ (by decide)) (hn _ (by decide)))) (.setFld _ _ (hn _ (by decide))))
      (.setFld _ _ (hn _ (by decide)))
    exact .of_eq rfl rfl rfl

/-- Reduction unit `v` has started at a SYNC. -/
def redStarted (s : State) (v : Nat) : Prop :=
  s.fld Fld.RED_STATUS_START v = 1 ∧ s.fld Fld.RED_STATUS_RUNNING v = 1 ∧ s.fld Fld.RED_OUT_COUNT_COUNT v = 0

theorem State.redStart_started {v : Nat} (x : Tu) (hen : s.flag Fld.RED_CFG_EN v = true)
    (hc : s.clusterAsleep (v / 4) = false) : redStarted (s.redStart v 1 x) v := by
  unfold State.redStart
  rw [hen, hc, if_neg (by decide)]
  dsimp only
  refine ⟨?_, ?_, ?_⟩
  · rw [State.fld_setFld_apart _ _ _ _ _ _ (by decide), State.fld_setFld_apart _ _ _ _ _ _ (by decide)]
    exact State.fld_setFld_of_lt _ _ _ (by decide) (by decide)
  · rw [State.fld_setFld_apart _ _ _ _ _ _ (by decide)]
    exact State.fld_setFld_of_lt _ _ _ (by decide) (by decide)
  · rw [State.fld_setFld_ne _ _ _ _ _ _ (by decide), State.fld_setFld_ne _ _ _ _ _ _ (by decide)]
    unfold State.redMark
    rw [State.fld_setFld_ne _ _ _ _ _ _ (by decide)]
    exact State.fld_setFld_of_lt _ _ _ (by decide) (by decide)

theorem Keeps.redStarted {v : Nat} {p : RegName → Nat → Prop} (h : Keeps p s t) (hs : p .RED_STATUS v) (hc : p .RED_OUT_COUNT v)
    (hr : redStarted s v) : redStarted t v := by
  obtain ⟨h1, h2, h3⟩ := hr
  exact ⟨(h.fld Fld.RED_STATUS_START v hs).trans h1, (h.fld Fld.RED_STATUS_RUNNING v hs).trans h2,
    (h.fld Fld.RED_OUT_COUNT_COUNT v hc).trans h3⟩

theorem State.redStartAll_started (s : State) {v : Nat} (x : Tu) (hv : v < 16) (hen : s.flag Fld.RED_CFG_EN v = true)
    (hc : s.clusterAsleep (v / 4) = false) : Sys2Proof.Machine.redStarted (s.redStartAll (List.range 16) 1 x) v := by
  obtain ⟨a, hsa, hau⟩ := foldl_between_mem (R := Keeps (redUnitKept v)) (l := List.range 16) (x := v)
    (f := fun (s : State) u => s.redStart u 1 x) (Keeps.refl _) Keeps.trans (fun a y _ hy => a.redStart_keeps 1 x hy) s
    List.nodup_range (List.mem_range.2 hv)
  have hk : ∀ n k, n ∉ redStartNames → a.reg n k = s.reg n k := fun n k h => hsa.reg n k (.inl h)
  have hena : a.flag Fld.RED_CFG_EN v = true := by
    rw [State.flag_of_reg (s := s) (t := a) (hk _ _ (by decide))]
    exact hen
  have hca : a.clusterAsleep (v / 4) = false := by
    rw [State.clusterAsleep_of_reg (fun i => hk _ _ (by decide)) (hk _ _ (by decide)) (hk _ _ (by decide))]
    exact hc
  exact hau.redStarted (.inr rfl) (.inr rfl) (State.redStart_started x hena hca)

theorem State.redStartAll_keeps (s : State) (us : List Nat) (cause : Nat) (x : Tu) :
    Keeps (fun n _ => n ∉ redStartNames) s (s.redStartAll us cause x) := by
  unfold State.redStartAll
  exact foldl_rel (Keeps.refl _) Keeps.trans (fun a v => (a.redStart_keeps (v := v + 1) cause x (by omega)).mono
    fun _ _ h => .inl h) us s

/-! ### The effects of a SYNC -/

/-- What a force output shows of its code. -/
def forceNames : List RegName := [.PMU_FORCE_NOW, .PMU_FORCE_TTS_LO, .PMU_FORCE_TTS_HI, .PMU_FORCE_OUT]

theorem State.auxSync_only (s : State) (x : Tu) : auxOnly s (s.auxSync x) := by
  rw [State.auxSync, State.each]
  refine foldl_rel auxOnly.refl auxOnly.trans (fun a i => ?_) _ s
  split
  · unfold State.auxAlign
    dsimp only
    split
    · exact .refl _
    · exact a.auxPut_only _ _
  · exact .refl _

theorem auxOnly.keeps {p : RegName → Nat → Prop} (h : auxOnly s t) : Keeps p s t := by
  obtain ⟨_, _, _, rfl⟩ := h
  exact .of_eq rfl rfl rfl

theorem State.forceDue_keeps (s : State) (n upd : Nat) (x : Tu) (due : Tu → Bool) :
    Keeps (fun n _ => n ∉ forceNames) s (s.forceDue n upd x due) := by
  have hn : ∀ m ∈ forceNames, ¬ m ∉ forceNames := fun m hm h => h hm
  have hmoved : ∀ a b : State, Keeps (fun n _ => n ∉ forceNames) b (a.forceMoved b n x) := fun a b => by
    unfold State.forceMoved
    split
    · exact .refl _ _
    · exact .of_eq rfl rfl rfl
  unfold State.forceDue
  dsimp only
  split
  · exact .refl _ _
  · unfold State.forceNow
    refine .trans (.trans (.trans (.trans ?_ (.setFld _ _ (hn _ (by decide)))) (.setPair _ _ (hn _ (by decide))
      (hn _ (by decide)))) (.setFld _ _ (hn _ (by decide)))) (hmoved _ _)
    exact .of_eq rfl rfl rfl

/-- The force codes that wait for a SYNC take effect. -/
def State.forceSync (s : State) (x : Tu) : State :=
  s.each 16 fun s n => s.forceDue n 2 x fun stamp => tuLe (tuAdd stamp (ns 64)) x

theorem State.forceSync_keeps (s : State) (x : Tu) : Keeps (fun n _ => n ∉ forceNames) s (s.forceSync x) := by
  rw [State.forceSync, State.each]
  exact foldl_rel (Keeps.refl _) Keeps.trans (fun a n => a.forceDue_keeps n 2 x _) _ s

theorem State.syncEffects_eq (s : State) (x : Tu) :
    s.syncEffects x = ((((s.redStartAll (List.range 16) 1 x).auxSync x).forceSync x).syncPulse x) := rfl

/-- The state before the pulse of SYNC_OUT: reductions run, and SYNCs are as before. -/
theorem State.syncEffects_before (s : State) (x : Tu) :
    ∃ a, s.syncEffects x = a.syncPulse x ∧ Keeps (fun n _ => n ∉ redStartNames ∧ n ∉ forceNames) s a ∧
      ∀ v, v < 16 → s.flag Fld.RED_CFG_EN v = true → s.clusterAsleep (v / 4) = false → redStarted a v := by
  obtain ⟨r, hr⟩ : ∃ r, r = s.redStartAll (List.range 16) 1 x := ⟨_, rfl⟩
  have hra : Keeps (fun n _ => n ∉ forceNames) r ((r.auxSync x).forceSync x) :=
    (r.auxSync_only x).keeps.trans ((r.auxSync x).forceSync_keeps x)
  refine ⟨(r.auxSync x).forceSync x, by rw [State.syncEffects_eq, hr], ?_, fun v hv hen hc => ?_⟩
  · rw [hr] at hra ⊢
    exact ((s.redStartAll_keeps _ _ _).mono fun _ _ h => h.1).trans (hra.mono fun _ _ h => h.2)
  · refine hra.redStarted (by decide) (by decide) ?_
    rw [hr]
    exact s.redStartAll_started x hv hen hc

theorem State.syncPulse_outStop (s : State) (x : Tu) : (s.syncPulse x).sync.waiting = s.sync.waiting ∧
    (s.flag Fld.HUB_SYNC_CFG_OUT_EN 0 = false → (s.syncPulse x).sync.outStop = s.sync.outStop) ∧
    (s.flag Fld.HUB_SYNC_CFG_OUT_EN 0 = true → (s.syncPulse x).sync.outStop = some (tuAdd x (ns 16))) := by
  unfold State.syncPulse
  split
  · next h => exact ⟨rfl, fun _ => rfl, fun ht => by rw [ht] at h; cases h⟩
  · next h => exact ⟨rfl, fun hf => absurd (by rw [hf]; rfl) h, fun _ => rfl⟩

theorem State.syncPulse_regs (s : State) (x : Tu) : (s.syncPulse x).regs = s.regs ∧ (s.syncPulse x).mem = s.mem := by
  unfold State.syncPulse
  split <;> exact ⟨rfl, rfl⟩

/-! ### The earliest SYNC acts -/

/-- No SYNC waits. -/
def State.noSyncWaits (s : State) : State := { s with sync := { s.sync with waiting := [] } }

/-- What the act of a SYNC changes of the registers, beside events. -/
def syncActNames : List RegName := [.HUB_SYNC_LAST_LO, .HUB_SYNC_LAST_HI, .HUB_SYNC_SRC, .GLN_STATUS]

theorem State.syncJoin_keeps (s : State) : Keeps (fun n _ => n ≠ .GLN_STATUS ∧ eventReg n = false) s s.syncJoin := by
  unfold State.syncJoin
  split
  · exact .refl _ _
  · split
    · exact (Keeps.setFld s _ fun h => h.1 rfl).trans (.of_raises (State.raise_raises _ _ _) fun _ _ h => h.2)
    · exact .of_eq rfl rfl rfl

/-- A SYNC that acts alone. -/
theorem State.syncGroup_single (s : State) (x : SyncAt) :
    s.syncGroup x [] = if x.twin || false then
      (((s.syncEffects x.ts).setPair .HUB_SYNC_LAST_LO .HUB_SYNC_LAST_HI 0 x.ts).setFld Fld.HUB_SYNC_SRC_SRC 0 x.src).syncJoin
      else ((s.syncEffects x.ts).setPair .HUB_SYNC_LAST_LO .HUB_SYNC_LAST_HI 0 x.ts).setFld Fld.HUB_SYNC_SRC_SRC 0 x.src := rfl

/-- What the act of a single SYNC shows. -/
structure SyncActed (s t : State) (x : SyncAt) : Prop where
  waiting : t.sync.waiting = s.sync.waiting
  last : t.pair .HUB_SYNC_LAST_LO .HUB_SYNC_LAST_HI 0 = x.ts
  src : t.fld Fld.HUB_SYNC_SRC_SRC 0 = x.src % 8
  red : ∀ v, v < 16 → s.flag Fld.RED_CFG_EN v = true → s.clusterAsleep (v / 4) = false → redStarted t v
  off : s.flag Fld.HUB_SYNC_CFG_OUT_EN 0 = false → t.sync.outStop = s.sync.outStop
  on : s.flag Fld.HUB_SYNC_CFG_OUT_EN 0 = true → t.sync.outStop = some (tuAdd x.ts (ns 16))
  mem : t.mem = s.mem

theorem SyncActed.keeps {x : SyncAt} (h : SyncActed s t x)
    (hk : Keeps (fun n _ => n ≠ .GLN_STATUS ∧ eventReg n = false) t u) : SyncActed s u x where
  waiting := by rw [hk.sync]; exact h.waiting
  last := by
    rw [State.pair, hk.reg _ _ ⟨by decide, rfl⟩, hk.reg _ _ ⟨by decide, rfl⟩]
    exact h.last
  src := (hk.fld _ _ ⟨by decide, rfl⟩).trans h.src
  red v hv he hc := hk.redStarted ⟨by decide, rfl⟩ ⟨by decide, rfl⟩ (h.red v hv he hc)
  off hf := by rw [hk.sync]; exact h.off hf
  on hf := by rw [hk.sync]; exact h.on hf
  mem := hk.mem.trans h.mem

theorem State.syncGroup_acted (s : State) (x : SyncAt) : SyncActed s (s.syncGroup x []) x := by
  obtain ⟨a, haeq, hka, hred⟩ := s.syncEffects_before x.ts
  obtain ⟨hwait, hoff, hon⟩ := a.syncPulse_outStop x.ts
  obtain ⟨hregs, hmem⟩ := a.syncPulse_regs x.ts
  rw [s.syncGroup_single x, haeq]
  obtain ⟨c, hc⟩ : ∃ c, c = a.syncPulse x.ts := ⟨_, rfl⟩
  rw [← hc] at hwait hoff hon hregs hmem ⊢
  obtain ⟨b, hb⟩ : ∃ b, b = (c.setPair .HUB_SYNC_LAST_LO .HUB_SYNC_LAST_HI 0 x.ts).setFld
    Fld.HUB_SYNC_SRC_SRC 0 x.src := ⟨_, rfl⟩
  have hen : a.flag Fld.HUB_SYNC_CFG_OUT_EN 0 = s.flag Fld.HUB_SYNC_CFG_OUT_EN 0 :=
    State.flag_of_reg (hka.reg _ _ ⟨by decide, by decide⟩)
  have hcb : Keeps (fun n _ => n ∉ syncActNames) c b := by
    rw [hb]
    exact (Keeps.setPair c x.ts (fun h => h (by decide)) (fun h => h (by decide))).trans
      (.setFld _ _ fun h => h (by decide))
  have hac : ∀ n k, c.reg n k = a.reg n k := fun n k => by rw [State.reg, State.reg, hregs]
  have hacted : SyncActed s b x := by
    refine ⟨?_, ?_, ?_, fun v hv he hc' => hcb.redStarted (by decide) (by decide) ?_, fun hf => ?_, fun hf => ?_, ?_⟩
    · rw [hcb.sync, hwait, hka.sync]
    · rw [hb, State.pair, State.reg_setFld_ne _ _ _ _ _ _ (by decide), State.reg_setFld_ne _ _ _ _ _ _ (by decide)]
      exact c.pair_setPair 0 x.ts (by decide)
    · rw [hb]
      exact State.fld_setFld_eq _ _ _ _ (by decide)
    · obtain ⟨h1, h2, h3⟩ := hred v hv he hc'
      exact ⟨(State.fld_of_reg (hac _ _)).trans h1, (State.fld_of_reg (hac _ _)).trans h2,
        (State.fld_of_reg (hac _ _)).trans h3⟩
    · rw [hcb.sync, hoff (hen.trans hf), hka.sync]
    · rw [hcb.sync]
      exact hon (hen.trans hf)
    · exact hcb.mem.trans (hmem.trans hka.mem)
  rw [← hb]
  split
  · exact hacted.keeps b.syncJoin_keeps
  · exact hacted

theorem State.syncNext_single {x : SyncAt} (h : s.sync.waiting = [x]) : s.syncNext = s.noSyncWaits.syncGroup x [] := by
  rw [State.syncNext, h]
  rfl

theorem syncAct_acts (t : Tu) (x : SyncAt) (ha : s.alive = true) (hsb : s.standby = false) (hw : s.sync.waiting = [x])
    (hle : tuLe x.ts (s.at t).time = true) :
    ∃ u, exec (.syncAct t) s = .next u ∧ u.sync.waiting = [] ∧
      u.pair .HUB_SYNC_LAST_LO .HUB_SYNC_LAST_HI 0 = x.ts ∧ u.fld Fld.HUB_SYNC_SRC_SRC 0 = x.src % 8 ∧
      (∀ v, v < 16 → s.flag Fld.RED_CFG_EN v = true → s.clusterAsleep (v / 4) = false →
        u.fld Fld.RED_STATUS_START v = 1 ∧ u.fld Fld.RED_STATUS_RUNNING v = 1 ∧ u.fld Fld.RED_OUT_COUNT_COUNT v = 0) ∧
      (s.flag Fld.HUB_SYNC_CFG_OUT_EN 0 = false → u.sync.outStop = s.sync.outStop) ∧
      (s.flag Fld.HUB_SYNC_CFG_OUT_EN 0 = true → u.sync.outStop = some (tuAdd x.ts (ns 16))) ∧ sameMem s u := by
  obtain ⟨a, haeq⟩ : ∃ a, a = (s.at t).noSyncWaits := ⟨_, rfl⟩
  have hreg : ∀ n k, a.reg n k = s.reg n k := fun n k => by
    rw [haeq]
    exact State.at_reg s t n k
  have hflag : ∀ f k, a.flag f k = s.flag f k := fun f k => State.flag_of_reg (hreg _ _)
  have hout : a.sync.outStop = s.sync.outStop ∧ a.sync.waiting = [] ∧ a.mem = s.mem := by
    rw [haeq]
    exact ⟨(show _ = (s.at t).sync.outStop from rfl).trans (by rw [State.at_sync]), rfl, State.at_mem s t⟩
  have hex : exec (.syncAct t) s = s.done (a.syncGroup x []) := by
    rw [exec, execSyncAct, State.when_eq ha, State.at_sync, hw]
    dsimp only
    rw [hle, State.at_standby, hsb, if_pos (by rfl), State.syncNext_single (by rw [State.at_sync, hw]), haeq]
  obtain ⟨u, hu, hr⟩ := s.done_notes (a.syncGroup x [])
  have hacted : SyncActed a u x := (a.syncGroup_acted x).keeps (.of_raises hr fun _ _ h => h.2)
  obtain ⟨hw', hl, hs, hred, hoff, hon, hmem⟩ := hacted
  refine ⟨u, hex.trans hu, hw'.trans hout.2.1, hl, hs, fun v hv he hc => hred v hv (by rw [hflag]; exact he) ?_,
    fun hf => (hoff (by rw [hflag]; exact hf)).trans hout.1, fun hf => hon (by rw [hflag]; exact hf),
    fun q => by rw [hmem, hout.2.2]⟩
  rw [State.clusterAsleep_of_reg (fun i => hreg _ _) (hreg _ _) (hreg _ _)]
  exact hc

end Sys2Proof.Machine
end

section
/-! O36: SYNCs are issued and carried (R249 to R251, R371). -/

namespace Sys2Proof.Machine

variable {s t u w : State} {but : List Reg} {srcs : List Nat}

theorem State.at_attached (s : State) (x : Tu) : (s.at x).attached = s.attached := State.at_flag _ _ _ _
theorem State.at_glnUp (s : State) (x : Tu) : (s.at x).glnUp = s.glnUp := State.at_flag _ _ _ _
theorem State.at_period (s : State) (x : Tu) : (s.at x).period = s.period := by
  rw [State.period, State.period, State.at_pitched, State.at_k]

/-! ### The register SYNC -/

theorem State.period_pos (s : State) : 0 < s.period := by
  unfold State.period
  split <;> exact Nat.two_pow_pos _

/-- The next multiple of a period lies less than a period ahead. -/
theorem roundUp_near (a : Tu) (n p : Nat) (hp : 0 < p) :
    (BitVec.ofNat 64 ((a.toNat + n + p - 1) / p * p) - tuAdd a n).toNat < p := by
  obtain ⟨m, hm⟩ : ∃ m, m = (a.toNat + n + p - 1) / p * p := ⟨_, rfl⟩
  have hmod : m + (a.toNat + n + p - 1) % p = a.toNat + n + p - 1 := by
    rw [hm]
    exact Nat.div_add_mod' _ _
  have hlt := Nat.mod_lt (a.toNat + n + p - 1) hp
  have hsub : BitVec.ofNat 64 m - tuAdd a n = BitVec.ofNat 64 (m - (a.toNat + n)) := by
    have hadd : m = (m - (a.toNat + n)) + (a.toNat + n) := by omega
    have ha : tuAdd a n = BitVec.ofNat 64 (a.toNat + n) := by
      rw [tuAdd, BitVec.ofNat_add, BitVec.ofNat_toNat, BitVec.setWidth_eq]
    rw [ha, sub_eq_iff_eq_add, ← BitVec.ofNat_add, ← hadd]
  rw [← hm, hsub, BitVec.toNat_ofNat]
  exact Nat.lt_of_le_of_lt (Nat.mod_le _ _) (by omega)

/-- A register SYNC waits for its commit tick. -/
theorem State.issueSync_waits (s : State) (twin : Bool) (h2 : s.fld Fld.HUB_PITCH_STATUS_STATE 0 ≠ 2) :
    (s.issueSync twin).tick.syncCmds = s.tick.syncCmds ++ [(s.time, twin)] ∧
      (twin = false ∨ s.attached = false → (s.issueSync twin).sync = s.sync) ∧
      (twin = true → s.attached = true → ∃ x : SyncAt, (s.issueSync twin).sync.carry = s.sync.carry ++ [x] ∧ x.src = 3 ∧
        (x.ts - tuAdd s.time (ns 1088)).toNat < s.period) ∧
      onlyRegs s (s.issueSync twin) [] := by
  rw [State.issueSync, if_neg h2]
  dsimp only
  split
  · next h =>
    rw [Bool.and_eq_true] at h
    obtain ⟨h1, h3⟩ := h
    rw [h1, h3]
    refine ⟨rfl, ?_, fun _ _ => ⟨_, rfl, rfl, ?_⟩, .of_eq rfl rfl (.refl _ _)⟩
    · exact fun h => absurd h (by decide)
    · exact roundUp_near _ _ _ s.period_pos
  · next h =>
    exact ⟨rfl, fun _ => rfl, fun h1 h3 => absurd (by rw [h1, h3]; rfl) h, .of_eq rfl rfl (.refl _ _)⟩

theorem syncCmdIssue_waits (t : Tu) (twin : Bool) (hup : s.hostUp = true) (hsb : s.standby = false)
    (h2 : s.fld Fld.HUB_PITCH_STATUS_STATE 0 ≠ 2) :
    ∃ u, exec (.syncCmdIssue t twin) s = .next u ∧ u.tick.syncCmds = s.tick.syncCmds ++ [((s.at t).time, twin)] ∧
      (twin = false ∨ s.attached = false → u.sync = s.sync) ∧
      (twin = true → s.attached = true → ∃ x : SyncAt, u.sync.carry = s.sync.carry ++ [x] ∧ x.src = 3 ∧
        (x.ts - tuAdd (s.at t).time (ns 1088)).toNat < s.period) ∧ onlyRegs s u [] := by
  obtain ⟨hcmds, hsame, hcarry, hon⟩ := (s.at t).issueSync_waits twin (by rw [State.at_fld]; exact h2)
  rw [State.at_attached, State.at_sync] at hsame hcarry
  rw [State.at_tick] at hcmds
  rw [State.at_period] at hcarry
  obtain ⟨hd, hon'⟩ := State.done_onlyRegs hon rfl
  refine ⟨_, ?_, hcmds, hsame, hcarry, hon'⟩
  rw [exec, execSyncCmdIssue, State.whenHost_eq hup, State.at_standby, hsb, if_neg Bool.false_ne_true]
  exact hd

theorem syncCmdIssue_ignored (t : Tu) (twin : Bool) (hup : s.hostUp = true) (hsb : s.standby = false)
    (h2 : s.fld Fld.HUB_PITCH_STATUS_STATE 0 = 2) :
    ∃ u, exec (.syncCmdIssue t twin) s = .next u ∧ u.tick = s.tick ∧ u.sync = s.sync ∧ onlyRegs s u [] := by
  obtain ⟨hd, -, hon⟩ := s.done_at t
  refine ⟨_, ?_, State.at_tick s t, State.at_sync s t, hon⟩
  rw [exec, execSyncCmdIssue, State.whenHost_eq hup, State.at_standby, hsb, if_neg Bool.false_ne_true, State.issueSync,
    State.at_fld, if_pos h2]
  exact hd

/-! ### An edge of SYNC_IN -/

theorem mem_syncIns (l : List SyncAt) (x : SyncAt) : x ∈ syncIns l x := by
  induction l with
  | nil => exact List.mem_singleton.2 rfl
  | cons y l ih =>
    rw [syncIns]
    split
    · exact List.mem_cons_self ..
    · exact List.mem_cons_of_mem _ ih

theorem State.syncEdge_waits {rise : Bool} (s : State) (x : Tu) (hen : s.flag Fld.HUB_SYNC_CFG_IN_EN 0 = true)
    (hr : rise = !(s.flag Fld.HUB_SYNC_CFG_IN_EDGE 0)) (hfree : ∀ y ∈ s.sync.waiting, y.src ≠ 4) :
    syncWaits (s.syncEdge rise x) (tuAdd x (ns s.inDelay)) 4 (s.flag Fld.HUB_SYNC_CFG_IN_TWIN 0) ∧
      onlyRegs s (s.syncEdge rise x) [] := by
  have hany : (s.sync.waiting.any fun y => y.src == 4) = false :=
    List.any_eq_false.2 fun y hy => by simpa using hfree y hy
  have hmem := mem_syncIns s.sync.waiting ⟨tuAdd x (ns s.inDelay), 4, s.flag Fld.HUB_SYNC_CFG_IN_TWIN 0⟩
  rw [State.syncEdge, if_neg (by rw [hen, hr]; cases s.flag Fld.HUB_SYNC_CFG_IN_EDGE 0 <;> decide), hany,
    if_neg Bool.false_ne_true]
  dsimp only
  split
  · exact ⟨hmem, .of_eq rfl rfl (.refl _ _)⟩
  · exact ⟨hmem, .of_eq rfl rfl (.refl _ _)⟩

theorem syncInEdge_waits (t : Tu) (rise : Bool) (ha : s.alive = true) (hsb : s.standby = false)
    (hen : s.flag Fld.HUB_SYNC_CFG_IN_EN 0 = true) (hr : rise = !(s.flag Fld.HUB_SYNC_CFG_IN_EDGE 0))
    (hfree : ∀ y ∈ s.sync.waiting, y.src ≠ 4) :
    ∃ u, exec (.syncInEdge t rise) s = .next u ∧
      syncWaits u (tuAdd ((s.at t).stamp t) (ns (max (if s.flag Fld.HUB_SYNC_CFG_IN_TWIN 0 then 1088 else 64)
        (s.fld Fld.HUB_SYNC_CFG_IN_DELAY 0)))) 4 (s.flag Fld.HUB_SYNC_CFG_IN_TWIN 0) ∧ onlyRegs s u [] := by
  obtain ⟨hw, hon⟩ := (s.at t).syncEdge_waits (rise := rise) ((s.at t).stamp t) (by rw [State.at_flag]; exact hen)
    (by rw [State.at_flag]; exact hr) (by rw [State.at_sync]; exact hfree)
  rw [State.inDelay, State.at_flag, State.at_fld] at hw
  obtain ⟨hd, hon'⟩ := State.done_onlyRegs hon rfl
  refine ⟨_, ?_, hw, hon'⟩
  rw [exec, execSyncInEdge, State.when_eq ha, State.at_standby, hsb, if_neg Bool.false_ne_true]
  exact hd

theorem syncInEdge_dropped (t : Tu) (rise : Bool) (ha : s.alive = true) (hsb : s.standby = false)
    (hen : s.flag Fld.HUB_SYNC_CFG_IN_EN 0 = true) (hr : rise = !(s.flag Fld.HUB_SYNC_CFG_IN_EDGE 0))
    (hbusy : ∃ y ∈ s.sync.waiting, y.src = 4) (hlt : s.fld Fld.HUB_SYNC_DROP_COUNT 0 < 255) :
    ∃ u, exec (.syncInEdge t rise) s = .next u ∧ u.sync = s.sync ∧
      u.fld Fld.HUB_SYNC_DROP_COUNT 0 = s.fld Fld.HUB_SYNC_DROP_COUNT 0 + 1 ∧ onlyRegs s u [⟨.HUB_SYNC_DROP, 0⟩] := by
  have hany : (s.sync.waiting.any fun y => y.src == 4) = true := by
    obtain ⟨y, hy, h4⟩ := hbusy
    exact List.any_eq_true.2 ⟨y, hy, by rw [h4]; rfl⟩
  obtain ⟨hd, hon⟩ := State.done_onlyRegs (s := s) (x := t) (but := [⟨.HUB_SYNC_DROP, 0⟩])
    (t := (s.at t).bump Fld.HUB_SYNC_DROP_COUNT 0 1) (.bump (.head _) (.refl _ _)) rfl
  refine ⟨(s.at t).bump Fld.HUB_SYNC_DROP_COUNT 0 1, ?_, (show _ = (s.at t).sync from rfl).trans (State.at_sync s t), ?_, hon⟩
  · rw [exec, execSyncInEdge, State.when_eq ha, State.at_standby, hsb, if_neg Bool.false_ne_true, State.syncEdge,
      State.at_flag, State.at_flag, State.at_sync, hany, if_neg (by
        rw [hen, hr]; cases s.flag Fld.HUB_SYNC_CFG_IN_EDGE 0 <;> decide), if_pos rfl]
    exact hd
  · rw [State.fld_bump_lt _ _ _ (by decide) (by rw [State.at_fld]; exact Nat.lt_of_lt_of_le hlt (by decide)), State.at_fld]

/-! ### A SYNC is carried -/

/-- The count of messages of a TYPE moves on. -/
def State.glnCounted (s : State) (typ : Nat) : State :=
  { s with gln := { s.gln with seqTx := tput 0 s.gln.seqTx typ ((tget 0 s.gln.seqTx typ + 1) % 65536) } }

theorem State.glnSend_up (hup : s.glnUp = true) (typ sub : Nat) (payload : List Byte) (copies : Nat) :
    s.glnSend typ sub payload copies = (s.glnCounted typ).emit
      (.guyline typ sub (tget 0 s.gln.seqTx typ) (payload ++ List.replicate (24 - payload.length) 0) copies) := by
  rw [State.glnSend, if_pos hup]
  rfl

/-- No SYNC waits to be carried. -/
def State.noCarry (s : State) : State := { s with sync := { s.sync with carry := [] } }

theorem State.carriedSend_eq (s : State) : s.carriedSend = s.carriedSlots.foldl (fun s p =>
    ({ s with tick := { s.tick with caps := tmod [] s.tick.caps p.1 (markSent s.time) } }).sendSync (tickTime s.k p.2) 1)
    (s.sync.carry.foldl (fun s x => if tuLe (tuAdd s.time (ns 1024)) x.ts then s.sendSync x.ts x.src else s) s.noCarry) := rfl

theorem State.carriedSlots_nil (h : s.tick.caps = []) : s.carriedSlots = [] := by
  simp only [State.carriedSlots, h, List.filterMap_nil, ite_self]

theorem State.carriedSend_single {x : SyncAt} (hc : s.sync.carry = [x]) (hcaps : s.tick.caps = [])
    (hle : tuLe (tuAdd s.time (ns 1024)) x.ts = true) : s.carriedSend = s.noCarry.sendSync x.ts x.src := by
  have ht : s.noCarry.time = s.time := rfl
  rw [State.carriedSend_eq, State.carriedSlots_nil hcaps, hc, List.foldl_cons, List.foldl_nil, List.foldl_nil, ht, if_pos hle]

theorem carriedSyncSend_leaves (t : Tu) (x : SyncAt) (ha : s.alive = true) (hsb : s.standby = false)
    (hc : s.sync.carry = [x]) (hcaps : s.tick.caps = []) (hatt : s.attached = true) (hup : s.glnUp = true)
    (hle : tuLe (tuAdd (s.at t).time (ns 1024)) x.ts = true) :
    ∃ u, exec (.carriedSyncSend t) s = .next u ∧ u.sync.carry = [] ∧
      u.out = .guyline 6 x.src (tget 0 s.gln.seqTx 6) (leBytes 8 x.ts.toNat ++ List.replicate 16 0) 3 :: s.out ∧
      onlyRegs s u [] := by
  obtain ⟨a, haeq⟩ : ∃ a, a = (s.at t).noCarry := ⟨_, rfl⟩
  have hflag : a.attached = true ∧ a.glnUp = true := by
    rw [haeq]
    exact ⟨(State.at_attached s t).trans hatt, (State.at_glnUp s t).trans hup⟩
  have hfrom : a.gln = s.gln ∧ a.out = s.out ∧ a.sync.carry = [] := by
    rw [haeq]
    exact ⟨State.at_gln s t, State.at_out s t, rfl⟩
  have hsend : a.sendSync x.ts x.src = (a.glnCounted 6).emit
      (.guyline 6 x.src (tget 0 a.gln.seqTx 6) (leBytes 8 x.ts.toNat ++ List.replicate 16 0) 3) := by
    rw [State.sendSync, if_pos hflag.1, State.glnSend_up hflag.2, length_leBytes]
  have hon : onlyRegs (s.at t) (a.sendSync x.ts x.src) [] := by
    rw [hsend, haeq]
    exact .emit (.of_eq rfl rfl (.refl _ _))
  obtain ⟨hd, hon'⟩ := State.done_onlyRegs hon rfl
  refine ⟨_, ?_, ?_, ?_, hon'⟩
  · rw [exec, execCarriedSyncSend, State.when_eq ha, State.at_standby, hsb, if_neg Bool.false_ne_true,
      State.carriedSend_single (x := x) (by rw [State.at_sync, hc]) (by rw [State.at_tick, hcaps]) hle, ← haeq]
    exact hd
  · rw [hsend]
    exact hfrom.2.2
  · rw [hsend, hfrom.1]
    exact congrArg _ hfrom.2.1

/-- Settles O36: the act of a SYNC is taken apart into its effects, of which only SYNC_OUT touches what waits. -/
theorem syncsAreIssuedAndAct : Obligations.SyncsAreIssuedAndAct := by
  unfold Obligations.SyncsAreIssuedAndAct
  intro s t hup hsb
  have ha := State.alive_of_hostUp hup
  exact ⟨fun twin => syncCmdIssue_waits t twin hup hsb, fun twin => syncCmdIssue_ignored t twin hup hsb,
    fun rise hen hr => ⟨syncInEdge_waits t rise ha hsb hen hr, syncInEdge_dropped t rise ha hsb hen hr⟩,
    fun x => syncAct_acts t x ha hsb, fun x => carriedSyncSend_leaves t x ha hsb⟩

end Sys2Proof.Machine
end

section
/-! Resets of the whole device (R406 to R411, R416, R422). -/

namespace Sys2Proof.Machine

variable {s t u w : State} {but : List Reg} {srcs : List Nat}

/-! ### A register file written over another -/

theorem rget_of_not_mem {m : List (Reg × Word)} {r : Reg} (h : ∀ e ∈ m, e.1 ≠ r) : rget m r = r.resetVal := by
  induction m with
  | nil => rfl
  | cons e m ih =>
    rw [rget, if_neg (h e (List.mem_cons_self ..))]
    exact ih fun x hx => h x (List.mem_cons_of_mem _ hx)

/-- What a canonical register file reads where it is written over another. -/
theorem rget_overlay {m : List (Reg × Word)} (hm : regsWf m = true) (a : List (Reg × Word)) (r : Reg) :
    rget (m.foldl (fun b e => rput b e.1 e.2) a) r = if ∃ e ∈ m, e.1 = r then rget m r else rget a r := by
  induction m generalizing a with
  | nil => simp
  | cons e m ih =>
    obtain ⟨-, hlt, hwf⟩ := (regsWf_cons _ _).1 hm
    rw [List.foldl_cons, ih hwf, rget_rput]
    obtain ⟨q, v⟩ := e
    by_cases hqr : q = r
    · subst hqr
      have hno : ¬ ∃ e ∈ m, e.1 = q := fun ⟨x, hx, hq⟩ => Nat.lt_irrefl _ (hq ▸ hlt x hx)
      rw [if_neg hno, if_pos rfl, if_pos ⟨_, List.mem_cons_self .., rfl⟩, rget, if_pos rfl]
    · rw [if_neg (Ne.symm hqr), rget, if_neg hqr]
      simp [hqr]

theorem rget_filter {m : List (Reg × Word)} {p : Reg → Bool} {r : Reg} (hp : p r = true) :
    rget (m.filter fun e => p e.1) r = rget m r := by
  induction m with
  | nil => rfl
  | cons e m ih =>
    obtain ⟨q, v⟩ := e
    rw [List.filter_cons]
    by_cases hqr : q = r
    · subst hqr
      rw [if_pos hp, rget, rget, if_pos rfl, if_pos rfl]
    · split
      · rw [rget, rget, if_neg hqr, if_neg hqr, ih]
      · rw [rget, if_neg hqr, ih]

/-- The registers that `p` names, kept over a register file that has their reset values. -/
theorem rget_keeping {m a : List (Reg × Word)} {p : Reg → Bool} {r : Reg} (hm : regsWf m = true)
    (ha : p r = true → rget a r = r.resetVal) :
    rget ((m.filter fun e => p e.1).foldl (fun b e => rput b e.1 e.2) a) r = if p r = true then rget m r else rget a r := by
  rw [rget_overlay (regsWf_filter _ _ hm)]
  by_cases hp : p r = true
  · rw [if_pos hp, rget_filter hp]
    split
    · rfl
    · next h =>
      rw [ha hp, rget_of_not_mem fun e he hr => h ⟨e, List.mem_filter.2 ⟨he, by rw [hr]; exact hp⟩, hr⟩]
  · rw [if_neg hp, if_neg]
    rintro ⟨e, he, rfl⟩
    exact hp (List.mem_filter.1 he).2

/-! ### The whole-device reset -/

/-- The device at its reset values before the fuses are read and the cause is shown. -/
def State.blank (s : State) : State :=
  { State.reset with
    regs := [], pending := s.pending, out := s.out, free := s.free,
    mgt := { Mgt.init with flash := s.mgt.flash, fuses := s.mgt.fuses, commits := s.mgt.commits },
    pwr := { Pwr.init with on := s.pwr.on, rstLow := s.pwr.rstLow, perstLow := s.pwr.perstLow },
    dia := { Dia.init with jtag := s.dia.jtag } }

theorem State.wholeReset_eq (s : State) (cause : Nat) : s.wholeReset cause =
    (((s.blank.showFuses).setReg .HUB_RESET_CAUSE 0 (w32 cause)).setFld Fld.GLN_STATUS_PRESENT 0
      (s.fld Fld.GLN_STATUS_PRESENT 0)).emit (.pinsReset s.time) := rfl

/-- A whole-device reset changes no state but registers from the blank device. -/
theorem State.wholeReset_shape (s : State) (cause : Nat) :
    ∃ regs out, s.wholeReset cause = { s.blank with regs := regs, out := out } := ⟨_, _, rfl⟩

theorem State.wholeReset_regs (s : State) (cause : Nat) :
    (s.wholeReset cause).reg .HUB_RESET_CAUSE 0 = w32 cause ∧
      (∀ n i, n ∉ afterReset → (s.wholeReset cause).reg n i = (⟨n, i⟩ : Reg).resetVal) ∧
      (s.wholeReset cause).pair .HUB_SERIAL_LO .HUB_SERIAL_HI 0 = BitVec.ofNat 64 (s.fuse 0) := by
  obtain ⟨b, hb⟩ : ∃ b, b = s.blank := ⟨_, rfl⟩
  have hfuse : b.fuse 0 = s.fuse 0 := by rw [hb]; rfl
  have hblank : ∀ n i, b.reg n i = (⟨n, i⟩ : Reg).resetVal := fun n i => by rw [hb]; rfl
  have hother : ∀ n i, n ∉ [RegName.HUB_RESET_CAUSE, .GLN_STATUS] →
      (s.wholeReset cause).reg n i = b.showFuses.reg n i := fun n i hn => by
    rw [s.wholeReset_eq, ← hb]
    refine (State.reg_setFld_ne _ _ _ _ _ _ fun h => hn (by rw [h]; decide)).trans ?_
    exact State.reg_setReg_ne _ _ _ _ _ _ fun h => hn (by rw [h]; decide)
  refine ⟨?_, fun n i hn => ?_, ?_⟩
  · rw [s.wholeReset_eq]
    exact (State.reg_setFld_ne _ _ _ _ _ _ (by decide)).trans (State.reg_setReg_same _ _ _ _)
  · have hne : ∀ m ∈ afterReset, n ≠ m := fun m hm h => hn (h ▸ hm)
    rw [hother n i fun h => hn (by revert h; simp only [afterReset, List.mem_cons, List.not_mem_nil, or_false]; rintro (h | h) <;> simp [h])]
    unfold State.showFuses State.setPair
    rw [State.reg_setFld_ne _ _ _ _ _ _ (hne _ (by decide)), State.reg_setFld_ne _ _ _ _ _ _ (hne _ (by decide)),
      State.reg_setReg_ne _ _ _ _ _ _ (hne _ (by decide)), State.reg_setReg_ne _ _ _ _ _ _ (hne _ (by decide)), hblank]
  · rw [State.pair, hother _ _ (by decide), hother _ _ (by decide), ← hfuse]
    unfold State.showFuses
    rw [State.reg_setFld_ne _ _ _ _ _ _ (by decide), State.reg_setFld_ne _ _ _ _ _ _ (by decide),
      State.reg_setFld_ne _ _ _ _ _ _ (by decide), State.reg_setFld_ne _ _ _ _ _ _ (by decide)]
    exact b.pair_setPair 0 _ (by decide)

/-- A whole-device reset of a state that has the flash, the fuses and the queue of `s`. -/
theorem State.wholeReset_made (s : State) (cause : Nat) : resetMade s (s.wholeReset cause) (w32 cause) := by
  obtain ⟨hcause, hregs, hserial⟩ := s.wholeReset_regs cause
  exact ⟨hcause, hregs, hserial, rfl, rfl, rfl, rfl, rfl, rfl, rfl, rfl, fun _ => rfl⟩

theorem State.wholeReset_pwr (s : State) (cause : Nat) : (s.wholeReset cause).pwr =
    { Pwr.init with on := s.pwr.on, rstLow := s.pwr.rstLow, perstLow := s.pwr.perstLow } := rfl

theorem State.wholeReset_alive (s : State) (cause : Nat) : (s.wholeReset cause).alive = (s.pwr.on && !s.pwr.rstLow) := by
  rw [State.alive, s.wholeReset_pwr]
  exact Bool.and_true _

theorem resetMade_of_eq {cause : Word} (h : resetMade t u cause) (hm : t.mgt = s.mgt) (hp : t.pending = s.pending) :
    resetMade s u cause := by
  obtain ⟨h1, h2, h3, h4, h5, h6, h7, h8, h9, h10, h11, h12⟩ := h
  exact ⟨h1, h2, by rw [h3, State.fuse, State.fuse, hm], h4, h5, h6, h7, h8, by rw [h9, hm], by rw [h10, hm],
    h11.trans hp, h12⟩

/-! ### Supplies and resets -/

theorem powerOn_resets (hoff : s.pwr.on = false) :
    ∃ u, exec .powerOn s = .next u ∧ resetMade s u 1 ∧ u.pwr.on = true ∧ u.alive = false := by
  refine ⟨_, ?_, resetMade_of_eq (State.wholeReset_made (s.modPwr fun p => { p with on := true, rstLow := true }) causePor) rfl rfl, rfl,
    State.wholeReset_alive _ _⟩
  rw [exec, execPowerOn, if_neg (by rw [hoff]; decide)]

theorem powerOff_resets (s : State) :
    ∃ u, exec .powerOff s = .next u ∧ resetMade s u 0 ∧ u.pwr.on = false ∧ u.alive = false :=
  ⟨_, rfl, resetMade_of_eq (State.wholeReset_made (s.modPwr fun p => { p with on := false, rstLow := false }) 0) rfl rfl, rfl,
    State.wholeReset_alive _ _⟩

theorem rstNAssert_resets (hon : s.pwr.on = true) (hrst : s.pwr.rstLow = false) :
    ∃ u, exec .rstNAssert s = .next u ∧ resetMade s u 2 ∧ u.pwr.rstLow = true ∧ u.pwr.tripped = false ∧ u.alive = false := by
  refine ⟨_, ?_, resetMade_of_eq (State.wholeReset_made (s.modPwr fun p => { p with rstLow := true }) causeRstN) rfl rfl, rfl, rfl, ?_⟩
  · rw [exec, execRstNAssert, hon, hrst]
    exact if_pos rfl
  · rw [State.wholeReset_alive]
    exact Bool.and_false _

theorem resetRelease_runs (hon : s.pwr.on = true) (hrst : s.pwr.rstLow = true) (htrip : s.pwr.tripped = false) :
    ∃ u, exec .resetRelease s = .next u ∧ u.alive = true ∧ u.time = s.time ∧ onlyRegs s u [] := by
  refine ⟨s.modPwr fun p => { p with rstLow := false, released := s.time }, ?_, ?_, rfl, .of_eq rfl rfl (.refl _ _)⟩
  · rw [exec, execResetRelease, hon, hrst]
    exact if_pos rfl
  · rw [State.alive, State.modPwr, hon, htrip]
    rfl

theorem brownout_resets (hon : s.pwr.on = true) (htrip : s.pwr.tripped = false) :
    ∃ u, exec .brownout s = .next u ∧ resetMade s u 4 ∧ u.alive = s.alive := by
  refine ⟨_, ?_, s.wholeReset_made causeBrownout, ?_⟩
  · rw [exec, execBrownout, hon, htrip]
    exact if_pos rfl
  · rw [State.wholeReset_alive, State.alive, htrip]
    exact (Bool.and_true _).symm

theorem perstNRelease_opens (t : Tu) (ha : s.alive = true) :
    ∃ u, exec (.perstNRelease t) s = .next u ∧ u.hostUp = true ∧ onlyRegs s u [] := by
  refine ⟨(s.at t).modPwr fun p => { p with perstLow := false }, ?_, ?_,
    .of_eq (State.at_regs s t) (State.at_mem s t) (.refl _ _)⟩
  · rw [exec, execPerstNRelease, if_pos ha]
  · have hal : ((s.at t).modPwr fun p => { p with perstLow := false }).alive = (s.at t).alive := rfl
    rw [State.hostUp, hal, State.at_alive, ha]
    rfl

/-! ### A thermal trip -/

/-- A command that leaves no merges, and the count of dropped log entries as it is, raises nothing at its end. -/
theorem State.done_unmerged {s0 : State} (hm : ∀ i, s.fld Fld.HUB_TRIG_OUT_MERGED_COUNT i = 0)
    (hl : s.reg .MGT_LOG_DROP 0 = s0.reg .MGT_LOG_DROP 0) : s0.done s = .next s := by
  have hround : mergeRound s0 s s = s := by
    rw [mergeRound, State.each]
    exact foldl_fixed_mem (fun i _ => if_neg fun h => h.2 (hm i))
  rw [State.done, State.mergeNote_succ, hround, State.mergeNote_same 3 fun _ => rfl, State.logNoteDrop, if_neg]
  intro h
  exact h.2 ((State.fld_of_reg hl).trans h.1)

/-- A trip: Basecamp keeps its registers and its state, and the device is held. -/
def State.afterTrip (s : State) : State :=
  { s.wholeReset causeTrip with
    regs := (s.regs.filter fun e => e.1.n.place.block == .mgt).foldl (fun m e => rput m e.1 e.2) (s.wholeReset causeTrip).regs,
    mgt := s.mgt, pwr := { (s.wholeReset causeTrip).pwr with tripped := true, tables := s.pwr.tables } }

theorem State.afterTrip_reg (hi : s.Inv) {n : RegName} (i : Nat) (hn : n.place.block = .mgt → n ∉ afterReset) :
    s.afterTrip.reg n i = if n.place.block = .mgt then s.reg n i else (s.wholeReset causeTrip).reg n i := by
  have h := rget_keeping (p := fun r => r.n.place.block == .mgt) (r := ⟨n, i⟩) (a := (s.wholeReset causeTrip).regs) hi.1.1
    (fun hp => (s.wholeReset_regs causeTrip).2.1 n i (hn (by simpa using hp)))
  refine h.trans ?_
  simp only [beq_iff_eq]
  rfl

theorem thermalTrip_trips (t : Tu) (n : Fin 5) (v : BitVec 16) (ha : s.alive = true) (hv : tripAt n ≤ v.toInt) (hi : s.Inv) :
    ∃ u, exec (.thermalTrip t n v) s = .next u ∧ u.pwr.tripped = true ∧ u.alive = false ∧
      u.reg .HUB_RESET_CAUSE 0 = 8 ∧ u.mgt = s.mgt ∧ (∀ a, memGet u.mem a = 0) ∧ u.pitched = false ∧
      (∀ n i, n.place.block = .mgt → n ∉ afterReset → u.reg n i = s.reg n i) ∧
      ∀ n i, n.place.block ≠ .mgt → n ∉ afterReset → u.reg n i = (⟨n, i⟩ : Reg).resetVal := by
  have hia : (s.at t).Inv := by
    rw [State.Inv, State.at_regs, State.at_mem]
    exact hi
  obtain ⟨hcause, hregs, -⟩ := (s.at t).wholeReset_regs causeTrip
  have hmgt : ∀ n i, n.place.block = .mgt → n ∉ afterReset → (s.at t).afterTrip.reg n i = s.reg n i := fun n i hb hn => by
    rw [State.afterTrip_reg hia i fun _ => hn, if_pos hb, State.at_reg]
  have hrest : ∀ n i, n.place.block ≠ .mgt → (s.at t).afterTrip.reg n i = ((s.at t).wholeReset causeTrip).reg n i :=
    fun n i hb => by rw [State.afterTrip_reg hia i fun h => absurd h hb, if_neg hb]
  have hdone : s.done (s.at t).afterTrip = .next (s.at t).afterTrip := by
    refine State.done_unmerged (fun i => ?_) ?_
    · rw [State.fld_of_reg (s := (s.at t).wholeReset causeTrip) (hrest _ _ (by decide)), State.fld, hregs _ _ (by decide),
        show (⟨Fld.HUB_TRIG_OUT_MERGED_COUNT.reg, i⟩ : Reg).resetVal = 0#32 from rfl]
      decide
    · exact hmgt _ _ (by decide) (by decide)
  refine ⟨(s.at t).afterTrip, ?_, rfl, ?_, ?_, State.at_mgt s t, fun _ => rfl, rfl, hmgt, fun n i hb hn => ?_⟩
  · rw [exec, execThermalTrip, State.when_eq ha, if_pos hv]
    exact hdone
  · rw [State.alive]
    exact Bool.and_false _
  · rw [hrest _ _ (by decide), hcause]
    rfl
  · rw [hrest n i hb]
    exact hregs n i hn

theorem thermalTrip_cool (t : Tu) (n : Fin 5) (v : BitVec 16) (ha : s.alive = true) (hv : v.toInt < tripAt n) :
    ∃ u, exec (.thermalTrip t n v) s = .next u ∧ u.pwr = s.pwr ∧ onlyRegs s u [] := by
  obtain ⟨hd, -, hon⟩ := s.done_at t
  refine ⟨_, ?_, State.at_pwr s t, hon⟩
  rw [exec, execThermalTrip, State.when_eq ha, if_neg (by omega)]
  exact hd

end Sys2Proof.Machine
end

section
/-! SUPPORT. What the sequences of the power states change (R417 to R419). -/

namespace Sys2Proof.Machine

variable {s t u w : State} {but : List Reg} {srcs : List Nat} {e n : Nat}

/-! ### The sample grid of a die that stops -/

theorem foldl_units {α : Type} {f : State → α → State} (l : List α) (hf : ∀ a x, UnitsOnly a (f a x)) (s : State) :
    UnitsOnly s (l.foldl f s) := .foldl (.refl s) l hf

/-- A new sample grid changes regions and reductions only. -/
theorem State.regrid_keeps {β : Type} (g : State → β) (hm : ∀ a m f, g (State.modRegion a m f) = g a)
    (hr : ∀ a m f, g (State.modRed a m f) = g a) (s0 s : State) (e : Nat) : g (State.regrid s0 s e) = g s := by
  unfold State.regrid
  dsimp only
  refine (foldl_keeps g (fun _ _ => ?_) _ _).trans (foldl_keeps g (fun _ _ => hm _ _ _) _ s)
  split
  · exact hr _ _ _
  · rfl

theorem State.regrid_units (s0 s : State) (e : Nat) : UnitsOnly s (State.regrid s0 s e) :=
  .of_eq (.refl s) (State.regrid_keeps State.regs (fun _ _ _ => rfl) (fun _ _ _ => rfl) s0 s e)
    (State.regrid_keeps State.mem (fun _ _ _ => rfl) (fun _ _ _ => rfl) s0 s e)
    (State.regrid_keeps State.clk (fun _ _ _ => rfl) (fun _ _ _ => rfl) s0 s e)
    (State.regrid_keeps State.pwr (fun _ _ _ => rfl) (fun _ _ _ => rfl) s0 s e)
    (State.regrid_keeps State.time (fun _ _ _ => rfl) (fun _ _ _ => rfl) s0 s e)
    (State.regrid_keeps State.mgt (fun _ _ _ => rfl) (fun _ _ _ => rfl) s0 s e)

theorem State.loseGrid_units (s : State) (e : Nat) {f : State → State} (h : UnitsOnly s (f s)) : UnitsOnly s (s.loseGrid e f) := by
  obtain ⟨a, ha⟩ : ∃ a, a = f s := ⟨_, rfl⟩
  have hf : UnitsOnly s (((f s).align e false).freshGrid e) := by
    rw [← ha] at h ⊢
    have hal : UnitsOnly s (a.align e false) := by
      unfold State.align
      exact .setFld (.ite h (.of_eq h rfl rfl rfl rfl rfl rfl)) rfl
    exact .of_eq hal rfl rfl rfl rfl rfl rfl
  have heq : s.loseGrid e f = State.regrid s (((f s).align e false).freshGrid e) e := rfl
  rw [heq]
  exact hf.trans (State.regrid_units s _ e)

theorem UnitsOnly.modSpll {f : Spll → Spll} (h : UnitsOnly s t) : UnitsOnly s (t.modSpll e f) :=
  .of_eq h rfl rfl rfl rfl rfl rfl

theorem State.setRate_units (s : State) (e rate : Nat) : UnitsOnly s (s.setRate e rate) := by
  unfold State.setRate
  refine .ite (.refl s) (.trans (s.loseGrid_units e (f := fun s => s.setFld Fld.PLL_SPLL_RATE_NOW_RATE e rate) ?_) ?_)
  · exact .setFld (.refl s) rfl
  · exact (State.auxFollow_only _ _ fun a i => a.auxOut_only i _).units

theorem State.rateHold_units (s : State) (e : Nat) : UnitsOnly s (s.rateHold e) := .modSpll (s.setRate_units e _)

theorem State.unalign_units (s : State) (e : Nat) : UnitsOnly s (s.unalign e) :=
  s.loseGrid_units e (f := fun s => (s.endMove e).modSpll e fun p => { p with anchorDue := none }) (.modSpll (.modSpll (.refl s)))

theorem State.spllStop_units (s : State) (e : Nat) : UnitsOnly s (s.spllStop e) :=
  .setFld (.setFld (.setFld (.trans (.modSpll (s.rateHold_units e)) (State.unalign_units _ e)) rfl) rfl) rfl

/-! ### Power sequences -/

/-- What a power sequence keeps: every register of boot and of the image, memory, time, and Basecamp's run. The gates, the
sleep bits, and the nodes that a wake opens again are its own. -/
structure PowerOnly (s t : State) : Prop where
  reg : ∀ n i, keptHere n = true → n ∉ [RegName.CLK_GATE_STATE_LO, .CLK_GATE_STATE_HI, .HUB_PWR_STATUS] → t.reg n i = s.reg n i
  mem : t.mem = s.mem
  clk : t.clk = s.clk
  pwr : ∃ w c x, t.pwr = { s.pwr with woken := w, closed := c, entryTemp := x }
  time : t.time = s.time
  run : t.mgt.run = s.mgt.run
  status : ∀ k, 410 ≤ k → t.evtStatus k = s.evtStatus k

theorem PowerOnly.refl (s : State) : PowerOnly s s :=
  ⟨fun _ _ _ _ => rfl, rfl, rfl, ⟨_, _, _, rfl⟩, rfl, rfl, fun _ _ => rfl⟩

theorem PowerOnly.trans (h : PowerOnly s t) (g : PowerOnly t u) : PowerOnly s u := by
  refine ⟨fun n i hn hm => (g.reg n i hn hm).trans (h.reg n i hn hm), g.mem.trans h.mem, g.clk.trans h.clk, ?_,
    g.time.trans h.time, g.run.trans h.run, fun k hk => (g.status k hk).trans (h.status k hk)⟩
  obtain ⟨_, _, _, h'⟩ := h.pwr
  obtain ⟨_, _, _, g'⟩ := g.pwr
  exact ⟨_, _, _, by rw [g', h']⟩

theorem NodesOnly.power (h : NodesOnly s t) : PowerOnly s t := by
  refine ⟨fun n i hn hm => ?_, h.mem, h.clk, ?_, h.time, h.run, h.status⟩
  · simp only [List.mem_cons, List.not_mem_nil, or_false, not_or] at hm
    exact h.reg n i hn hm.1 hm.2.1
  · obtain ⟨w, hw⟩ := h.pwr
    exact ⟨w, _, _, hw⟩

theorem UnitsOnly.power (h : UnitsOnly s t) : PowerOnly s t := by
  obtain ⟨w, hw⟩ := h.pwr
  exact ⟨fun n i hn _ => h.reg n i hn, h.mem, h.clk, ⟨w, _, _, hw⟩, h.time, h.run, h.status⟩

theorem State.setPwrFld_power (s : State) {f : Fld} (x : Nat) (hf : f.reg = .HUB_PWR_STATUS) : PowerOnly s (s.setFld f 0 x) :=
  ⟨fun n i _ hn => State.reg_setFld_ne _ _ _ _ _ _ fun h => hn (by rw [h, hf]; decide), rfl, rfl, ⟨_, _, _, rfl⟩, rfl, rfl,
    fun _ _ => State.evtStatus_of_reg fun _ => State.reg_setFld_ne _ _ _ _ _ _ (by rw [hf]; decide)⟩

/-- The nodes of the list are closed, the other gates are as before, and the sleep bits too. -/
structure NodesShut (ns : List Nat) (s t : State) : Prop where
  power : PowerOnly s t
  status : t.reg .HUB_PWR_STATUS 0 = s.reg .HUB_PWR_STATUS 0
  gate : ∀ m, t.gateOpen m = if m ∈ ns then false else s.gateOpen m

theorem State.closeAll_shut (s : State) {ns : List Nat} (hns : ∀ n ∈ ns, n < 64) : NodesShut ns s (s.closeAll ns) := by
  induction ns generalizing s with
  | nil => exact ⟨.refl s, rfl, fun m => by simp [State.closeAll]⟩
  | cons n ns ih =>
    obtain ⟨a, ha⟩ : ∃ a, a = if s.gateOpen n then (s.stopNode n).modPwr fun p => { p with closed := n :: p.closed.filter (· ≠ n) }
      else s := ⟨_, rfl⟩
    obtain ⟨hg, ho⟩ := s.stopNode_reads (hns n (List.mem_cons_self ..))
    have hsa : NodesShut [n] s a := by
      rw [ha]
      split
      · next h =>
        obtain ⟨w, hw⟩ := ho.pwr
        refine ⟨?_, ho.reg _ _ rfl (by decide) (by decide), fun m => ?_⟩
        · have hp := ho.power
          exact ⟨hp.reg, hp.mem, hp.clk, ⟨w, _, _, by rw [State.modPwr, hw]⟩, hp.time, hp.run, hp.status⟩
        · simp only [List.mem_singleton]
          exact hg m
      · next h =>
        refine ⟨.refl s, rfl, fun m => ?_⟩
        split
        · next hm =>
          rw [List.mem_singleton.1 hm]
          exact Bool.eq_false_iff.2 h
        · rfl
    have hat := ih a fun m hm => hns m (List.mem_cons_of_mem _ hm)
    have heq : s.closeAll (n :: ns) = a.closeAll ns := by rw [State.closeAll, List.foldl_cons, ← ha]; rfl
    rw [heq]
    refine ⟨hsa.power.trans hat.power, hat.status.trans hsa.status, fun m => ?_⟩
    rw [hat.gate, hsa.gate]
    by_cases h1 : m = n <;> by_cases h2 : m ∈ ns <;> simp [h1, h2]

/-- The nodes of the list are open, and the other gates are as before. -/
structure NodesFree (ns : List Nat) (s t : State) : Prop where
  power : PowerOnly s t
  status : t.reg .HUB_PWR_STATUS 0 = s.reg .HUB_PWR_STATUS 0
  gate : ∀ m, t.gateOpen m = if m ∈ ns then true else s.gateOpen m

theorem State.openAll_free (s : State) {ns : List Nat} (hns : ∀ n ∈ ns, n < 64) : NodesFree ns s (s.openAll ns) := by
  induction ns generalizing s with
  | nil => exact ⟨.refl s, rfl, fun m => by simp [State.openAll]⟩
  | cons n ns ih =>
    obtain ⟨a, ha⟩ : ∃ a, a = (s.startNode n).modPwr fun p => { p with closed := p.closed.filter (· ≠ n) } := ⟨_, rfl⟩
    obtain ⟨hg, ho⟩ := s.startNode_reads (hns n (List.mem_cons_self ..))
    have hsa : NodesFree [n] s a := by
      rw [ha]
      obtain ⟨w, hw⟩ := ho.pwr
      have hp := ho.power
      refine ⟨⟨hp.reg, hp.mem, hp.clk, ⟨w, _, _, by rw [State.modPwr, hw]⟩, hp.time, hp.run, hp.status⟩,
        ho.reg _ _ rfl (by decide) (by decide), fun m => ?_⟩
      simp only [List.mem_singleton]
      exact hg m
    have hat := ih a fun m hm => hns m (List.mem_cons_of_mem _ hm)
    have heq : s.openAll (n :: ns) = a.openAll ns := by rw [State.openAll, List.foldl_cons, ← ha]; rfl
    rw [heq]
    refine ⟨hsa.power.trans hat.power, hat.status.trans hsa.status, fun m => ?_⟩
    rw [hat.gate, hsa.gate]
    by_cases h1 : m = n <;> by_cases h2 : m ∈ ns <;> simp [h1, h2]

/-! ### A die goes down -/

theorem clusterNodes_lt (c : Nat) (hc : c < 4) : ∀ n ∈ clusterNodes c, n < 64 := by
  intro n hn
  simp only [clusterNodes, List.mem_cons, List.not_mem_nil, or_false] at hn
  omega

theorem dieNodes_lt (e : Nat) (he : e < 2) : ∀ n ∈ dieNodes e, n < 64 := by
  intro n hn
  simp only [dieNodes, List.mem_append, List.mem_cons, List.not_mem_nil, or_false] at hn
  rcases hn with (hn | hn) | hn
  · exact clusterNodes_lt _ (by omega) n hn
  · exact clusterNodes_lt _ (by omega) n hn
  · omega

/-- What a die's way down shows. -/
structure DieDown (e : Nat) (s t : State) : Prop where
  power : PowerOnly s t
  gate : ∀ m, t.gateOpen m = if m ∈ dieNodes e then false else s.gateOpen m
  clSleep : t.fld Fld.HUB_PWR_STATUS_CL_SLEEP 0 = s.fld Fld.HUB_PWR_STATUS_CL_SLEEP 0 ||| 3 * 4 ^ e
  engSleep : t.fld Fld.HUB_PWR_STATUS_ENG_SLEEP 0 = s.fld Fld.HUB_PWR_STATUS_ENG_SLEEP 0 ||| 2 ^ e
  other : ∀ f : Fld, f.reg = .HUB_PWR_STATUS →
    (f.lsb + f.width ≤ Fld.HUB_PWR_STATUS_CL_SLEEP.lsb ∨ Fld.HUB_PWR_STATUS_CL_SLEEP.lsb + Fld.HUB_PWR_STATUS_CL_SLEEP.width ≤ f.lsb) →
    (f.lsb + f.width ≤ Fld.HUB_PWR_STATUS_ENG_SLEEP.lsb ∨ Fld.HUB_PWR_STATUS_ENG_SLEEP.lsb + Fld.HUB_PWR_STATUS_ENG_SLEEP.width ≤ f.lsb) →
    t.fld f 0 = s.fld f 0

theorem State.dieDown_reads (s : State) {e : Nat} (he : e < 2) : DieDown e s (s.dieDown e) := by
  obtain ⟨a, ha⟩ : ∃ a, a = s.closeAll (dieNodes e) := ⟨_, rfl⟩
  have hsa : NodesShut (dieNodes e) s a := ha ▸ s.closeAll_shut (dieNodes_lt e he)
  obtain ⟨b, hb⟩ : ∃ b, b = (a.setClSleep (3 * 4 ^ e) true).setEngSleep e true := ⟨_, rfl⟩
  have hab : PowerOnly a b := by
    rw [hb]
    exact (a.setPwrFld_power (f := Fld.HUB_PWR_STATUS_CL_SLEEP) _ rfl).trans
      (State.setPwrFld_power _ (f := Fld.HUB_PWR_STATUS_ENG_SLEEP) _ rfl)
  obtain ⟨c, hc⟩ : ∃ c, c = b.spllStop e := ⟨_, rfl⟩
  have hbu : UnitsOnly b c := hc ▸ b.spllStop_units e
  have heq : s.dieDown e = c.modPwr fun p => { p with entryTemp := tput 0 p.entryTemp e (s.sense (3 + e)) } := by
    rw [hc, hb, ha]
    rfl
  have hfld : ∀ f : Fld, f.reg = .HUB_PWR_STATUS → (s.dieDown e).fld f 0 = b.fld f 0 := fun f hf => by
    rw [heq]
    exact State.fld_of_reg (by rw [hf]; exact hbu.reg _ _ rfl)
  have hcl : s.fld Fld.HUB_PWR_STATUS_CL_SLEEP 0 ||| 3 * 4 ^ e < 2 ^ 4 :=
    Nat.or_lt_two_pow (s.fld_lt Fld.HUB_PWR_STATUS_CL_SLEEP 0) (by
      have : e = 0 ∨ e = 1 := by omega
      rcases this with rfl | rfl <;> decide)
  have heng : s.fld Fld.HUB_PWR_STATUS_ENG_SLEEP 0 ||| 2 ^ e < 2 ^ 2 :=
    Nat.or_lt_two_pow (s.fld_lt Fld.HUB_PWR_STATUS_ENG_SLEEP 0) (Nat.pow_lt_pow_right (by decide) he)
  have ha' : ∀ f : Fld, f.reg = .HUB_PWR_STATUS → a.fld f 0 = s.fld f 0 := fun f hf =>
    State.fld_of_reg (by rw [hf]; exact hsa.status)
  refine ⟨?_, fun m => ?_, ?_, ?_, fun f hf h1 h2 => ?_⟩
  · have hp := (hsa.power.trans hab).trans hbu.power
    obtain ⟨w, cl, x, hx⟩ := hp.pwr
    rw [heq]
    exact ⟨hp.reg, hp.mem, hp.clk, ⟨w, cl, _, by rw [State.modPwr, hx]⟩, hp.time, hp.run, hp.status⟩
  · rw [heq]
    refine (hbu.gateOpen m).trans ?_
    rw [hb]
    refine Eq.trans (State.gateOpen_of_reg ?_ ?_) (hsa.gate m)
    · exact (State.reg_setFld_ne _ _ _ _ _ _ (by decide)).trans (State.reg_setFld_ne _ _ _ _ _ _ (by decide))
    · exact (State.reg_setFld_ne _ _ _ _ _ _ (by decide)).trans (State.reg_setFld_ne _ _ _ _ _ _ (by decide))
  · rw [hfld _ rfl, hb, State.setEngSleep, State.fld_setFld_apart _ _ _ _ _ _ (by decide), State.setClSleep, if_pos rfl,
      ha' _ rfl]
    exact State.fld_setFld_of_lt _ _ _ (by decide) hcl
  · have hx : (a.setClSleep (3 * 4 ^ e) true).fld Fld.HUB_PWR_STATUS_ENG_SLEEP 0 = s.fld Fld.HUB_PWR_STATUS_ENG_SLEEP 0 := by
      rw [State.setClSleep, State.fld_setFld_apart _ _ _ _ _ _ (by decide), ha' _ rfl]
    rw [hfld _ rfl, hb, State.setEngSleep, if_pos rfl, hx]
    exact State.fld_setFld_of_lt _ _ _ (by decide) heng
  · rw [hfld f hf, hb, State.setEngSleep, State.fld_setFld_apart _ _ _ _ _ _ h2, State.setClSleep,
      State.fld_setFld_apart _ _ _ _ _ _ h1, ha' f hf]

theorem DieDown.asleep (h : DieDown e s t) : t.dieAsleep e = true := by
  rw [State.dieAsleep, h.engSleep, Nat.testBit_or, Nat.testBit_two_pow_self, Bool.or_true, Bool.true_or]

end Sys2Proof.Machine
end

section
/-! O58: resets and stack training (R219, R406 to R416, R422). -/

namespace Sys2Proof.Machine

variable {s t u w : State} {but : List Reg} {srcs : List Nat} {e n : Nat}

/-! ### Memory of which a part is cleared -/

theorem tget_filter {α : Type} (d : α) (m : Tab α) (p : Nat → Bool) (k : Nat) :
    tget d (m.filter fun e => p e.1) k = if p k then tget d m k else d := by
  induction m with
  | nil => simp [tget]
  | cons e m ih =>
    obtain ⟨i, v⟩ := e
    rw [List.filter_cons]
    by_cases hik : i = k
    · subst hik
      cases hp : p i <;> simp_all [tget]
    · split
      · rw [tget, tget, if_neg hik, if_neg hik, ih]
      · rw [ih, tget, if_neg hik]

theorem memGet_filter (m : List Host.Cell) (p : Nat → Bool) (x : Nat) :
    memGet (m.filter fun c => p c.1) x = if p x then memGet m x else 0 := tget_filter _ m p x

/-! ### The outcome of a stack's training -/

/-- The field of HUB_BOOT_STATUS that shows the outcome of stack `e`. -/
def outcomeFld (e : Nat) (ok : Bool) : Fld :=
  if ok then (if e = 0 then Fld.HUB_BOOT_STATUS_M0_OK else Fld.HUB_BOOT_STATUS_M1_OK)
  else if e = 0 then Fld.HUB_BOOT_STATUS_M0_FAIL else Fld.HUB_BOOT_STATUS_M1_FAIL

theorem outcomeFld_reg (e : Nat) (ok : Bool) : (outcomeFld e ok).reg = .HUB_BOOT_STATUS := by
  unfold outcomeFld
  split <;> split <;> rfl

theorem State.trained_of_reg (h : t.reg .HUB_BOOT_STATUS 0 = s.reg .HUB_BOOT_STATUS 0) (x : Nat) : t.trained x = s.trained x := by
  unfold State.trained
  simp only [State.flag, State.fld, h]

theorem State.trained_eq (s : State) (x : Nat) :
    s.trained x = (s.flag (outcomeFld x true) 0 || s.flag (outcomeFld x false) 0) := by
  unfold State.trained outcomeFld
  by_cases h : x = 0
  · rw [if_pos h, if_pos rfl, if_pos h, if_neg Bool.false_ne_true, if_pos h]
  · rw [if_neg h, if_pos rfl, if_neg h, if_neg Bool.false_ne_true, if_neg h]

theorem State.trained_outcome (s : State) (e : Fin 2) (ok : Bool) :
    (s.setFld (outcomeFld e ok) 0 1).trained e = true ∧ (s.setFld (outcomeFld e ok) 0 1).trained (1 - e) = s.trained (1 - e) ∧
      (s.setFld (outcomeFld e ok) 0 1).fld Fld.HUB_BOOT_STATUS_PHASE 0 = s.fld Fld.HUB_BOOT_STATUS_PHASE 0 := by
  have hwidth : ∀ (e : Fin 2) (ok : Bool), (outcomeFld e ok).lsb + (outcomeFld e ok).width ≤ 32 ∧
      1 < 2 ^ (outcomeFld e ok).width := by decide
  have hapart : ∀ (e : Fin 2) (a b : Bool), (outcomeFld (1 - e) b).lsb + (outcomeFld (1 - e) b).width ≤ (outcomeFld e a).lsb ∨
      (outcomeFld e a).lsb + (outcomeFld e a).width ≤ (outcomeFld (1 - e) b).lsb := by decide
  have hphase : ∀ (e : Fin 2) (a : Bool), Fld.HUB_BOOT_STATUS_PHASE.lsb + Fld.HUB_BOOT_STATUS_PHASE.width ≤ (outcomeFld e a).lsb ∨
      (outcomeFld e a).lsb + (outcomeFld e a).width ≤ Fld.HUB_BOOT_STATUS_PHASE.lsb := by decide
  have hset : (s.setFld (outcomeFld e ok) 0 1).flag (outcomeFld e ok) 0 = true := by
    rw [State.flag, State.fld_setFld_of_lt _ _ _ (hwidth e ok).1 (hwidth e ok).2]
    rfl
  refine ⟨?_, ?_, State.fld_setFld_apart _ _ _ _ _ _ (hphase e ok)⟩
  · rw [State.trained_eq]
    cases ok
    · rw [hset, Bool.or_true]
    · rw [hset, Bool.true_or]
  · rw [State.trained_eq, State.trained_eq, State.flag, State.flag, State.fld_setFld_apart _ _ _ _ _ _ (hapart e ok true),
      State.fld_setFld_apart _ _ _ _ _ _ (hapart e ok false)]
    rfl

/-- Boot goes on to PITCHING once both stacks have an outcome. -/
def State.trainedOn (s : State) : State := if s.trained 0 && s.trained 1 then s.setFld Fld.HUB_BOOT_STATUS_PHASE 0 3 else s

theorem State.trainedOn_reads {e : Fin 2} (h : s.trained e = true) (h2 : s.fld Fld.HUB_BOOT_STATUS_PHASE 0 = 2) :
    (∀ x, s.trainedOn.trained x = s.trained x) ∧
      s.trainedOn.fld Fld.HUB_BOOT_STATUS_PHASE 0 = (if s.trained (1 - e) then 3 else 2) ∧
      onlyRegs s s.trainedOn [⟨.HUB_BOOT_STATUS, 0⟩] := by
  have hboth : (s.trained 0 && s.trained 1) = s.trained (1 - e) := by
    fin_cases e
    · exact (congrArg (· && s.trained 1) h).trans (Bool.true_and _)
    · exact (congrArg (s.trained 0 && ·) h).trans (Bool.and_true _)
  unfold State.trainedOn
  rw [hboth]
  split
  · refine ⟨fun x => ?_, State.fld_setFld_of_lt _ _ _ (by decide) (by decide), .setFld (.head _) (.refl _ _)⟩
    unfold State.trained State.flag
    rw [State.fld_setFld_apart _ _ _ _ _ _ (by decide), State.fld_setFld_apart _ _ _ _ _ _ (by decide),
      State.fld_setFld_apart _ _ _ _ _ _ (by decide), State.fld_setFld_apart _ _ _ _ _ _ (by decide)]
  · exact ⟨fun _ => rfl, h2, .refl _ _⟩

theorem execStackTrainingDone_eq (t : Tu) (e : Fin 2) (ok : Bool) (ha : s.alive = true)
    (h2 : s.fld Fld.HUB_BOOT_STATUS_PHASE 0 = 2) (ht : s.trained e = false) :
    exec (.stackTrainingDone t e ok) s = s.done (State.trainedOn
      (if ok then ((s.at t).setFld (outcomeFld e true) 0 1).zeroDir e
       else (((s.at t).setFld (outcomeFld e false) 0 1).dieDown e).raise 471 1 e)) := by
  rw [exec, execStackTrainingDone, State.when_eq ha, State.at_fld, State.trained_of_reg (s := s) (State.at_reg _ _ _ _), ht,
    if_pos ⟨h2, rfl⟩]
  rfl

theorem stackTrainingDone_trains (t : Tu) (e : Fin 2) (ha : s.alive = true) (h2 : s.fld Fld.HUB_BOOT_STATUS_PHASE 0 = 2)
    (ht : s.trained e = false) :
    ∃ u, exec (.stackTrainingDone t e true) s = .next u ∧ u.trained e = true ∧ u.trained (1 - e) = s.trained (1 - e) ∧
      u.fld Fld.HUB_BOOT_STATUS_PHASE 0 = (if s.trained (1 - e) then 3 else 2) ∧
      (∀ a, inMirror a = true → a / stackSpan = e.val → memGet u.mem a = 0) ∧
      (∀ a, inMirror a = false ∨ a / stackSpan ≠ e.val → memGet u.mem a = memGet s.mem a) ∧
      sameRegs s u [⟨.HUB_BOOT_STATUS, 0⟩] := by
  obtain ⟨h0, h1, h3⟩ := (s.at t).trained_outcome e true
  rw [State.at_fld] at h3
  rw [State.trained_of_reg (s := s) (t := s.at t) (State.at_reg _ _ _ _)] at h1
  obtain ⟨a, haeq⟩ : ∃ a, a = (s.at t).setFld (outcomeFld e true) 0 1 := ⟨_, rfl⟩
  rw [← haeq] at h0 h1 h3
  have hreg : ∀ n i, (a.zeroDir e).reg n i = a.reg n i := fun _ _ => rfl
  obtain ⟨ht', hph, hon⟩ := State.trainedOn_reads (s := a.zeroDir e) (e := e)
    ((State.trained_of_reg (hreg _ _) _).trans h0) ((State.fld_of_reg (hreg _ _)).trans (h3.trans h2))
  have hsa : onlyRegs s a [⟨.HUB_BOOT_STATUS, 0⟩] := by
    rw [haeq]
    exact .at (x := t) (.setFld (by rw [outcomeFld_reg]; exact .head _) (.refl _ _))
  have hsame : sameRegs s (a.zeroDir e).trainedOn [⟨.HUB_BOOT_STATUS, 0⟩] := fun n i hn =>
    (hon.1 n i hn).trans ((hreg n i).trans (hsa.1 n i hn))
  have hmem : ∀ x, memGet (a.zeroDir e).trainedOn.mem x = if !(inMirror x && x / stackSpan == e) then memGet s.mem x else 0 :=
    fun x => by
      rw [hon.2 x, ← hsa.2 x]
      exact memGet_filter a.mem (fun x => !(inMirror x && x / stackSpan == e)) x
  refine ⟨(a.zeroDir e).trainedOn, ?_, ?_, ?_, ?_, fun x hx he => ?_, fun x hx => ?_, hsame⟩
  · rw [execStackTrainingDone_eq t e true ha h2 ht, if_pos rfl, ← haeq]
    exact State.done_of_sameRegs hsame rfl
  · rw [ht', State.trained_of_reg (hreg _ _), h0]
  · rw [ht', State.trained_of_reg (hreg _ _), h1]
  · rw [hph, State.trained_of_reg (hreg _ _), h1]
  · rw [hmem, hx, he, if_neg (by simp)]
  · rw [hmem, if_pos]
    rcases hx with hx | hx
    · rw [hx]
      rfl
    · simp [hx]

theorem stackTrainingDone_fails (t : Tu) (e : Fin 2) (ha : s.alive = true) (h2 : s.fld Fld.HUB_BOOT_STATUS_PHASE 0 = 2)
    (ht : s.trained e = false) :
    ∃ u, exec (.stackTrainingDone t e false) s = .next u ∧ u.trained e = true ∧ u.dieAsleep e = true ∧
      u.fld Fld.HUB_BOOT_STATUS_PHASE 0 = (if s.trained (1 - e) then 3 else 2) ∧
      (s.fld Fld.EVT_ROUTE_KIND 471 ≠ 1 → u.evtStatus 471 = true) ∧ sameMem s u := by
  obtain ⟨h0, h1, h3⟩ := (s.at t).trained_outcome e false
  rw [State.at_fld] at h3
  rw [State.trained_of_reg (s := s) (t := s.at t) (State.at_reg _ _ _ _)] at h1
  obtain ⟨a, haeq⟩ : ∃ a, a = (s.at t).setFld (outcomeFld e false) 0 1 := ⟨_, rfl⟩
  rw [← haeq] at h0 h1 h3
  obtain ⟨b, hb⟩ : ∃ b, b = a.dieDown e := ⟨_, rfl⟩
  have hdown : DieDown e a b := hb ▸ a.dieDown_reads e.2
  obtain ⟨c, hc⟩ : ∃ c, c = b.raise 471 1 e := ⟨_, rfl⟩
  have hrc : Raises b c [471] := hc ▸ State.raise_raises _ _ _
  have hboot : c.reg .HUB_BOOT_STATUS 0 = a.reg .HUB_BOOT_STATUS 0 :=
    (hrc.reg _ _ rfl).trans (hdown.power.reg _ _ rfl (by decide))
  obtain ⟨ht', hph, hon⟩ := State.trainedOn_reads (s := c) (e := e) ((State.trained_of_reg hboot _).trans h0)
    ((State.fld_of_reg hboot).trans (h3.trans h2))
  obtain ⟨u, hu, hr⟩ := s.done_notes c.trainedOn
  have hex : exec (.stackTrainingDone t e false) s = .next u := by
    rw [execStackTrainingDone_eq t e false ha h2 ht, if_neg Bool.false_ne_true, ← haeq, ← hb, ← hc]
    exact hu
  have hroute : b.fld Fld.EVT_ROUTE_KIND 471 = s.fld Fld.EVT_ROUTE_KIND 471 := by
    rw [State.fld_of_reg (hdown.power.reg _ _ rfl (by decide)), haeq,
      State.fld_setFld_ne _ _ _ _ _ _ (by rw [outcomeFld_reg]; decide), State.at_fld]
  refine ⟨u, hex, ?_, ?_, ?_, fun hk => ?_, fun x => ?_⟩
  · rw [State.trained_of_reg (hr.reg _ _ rfl), ht', State.trained_of_reg hboot, h0]
  · have hsleep := hdown.asleep
    rw [State.dieAsleep] at hsleep ⊢
    rw [hr.gateOpen, State.fld_of_reg (hr.reg _ _ rfl), State.gateOpen_of_reg (hon.1 _ _ (by simp)) (hon.1 _ _ (by simp)),
      State.fld_of_reg (hon.1 _ _ (by simp)), hrc.gateOpen, State.fld_of_reg (hrc.reg _ _ rfl)]
    exact hsleep
  · rw [State.fld_of_reg (hr.reg _ _ rfl), hph, State.trained_of_reg hboot, h1]
  · have hst : c.evtStatus 471 = true := hc ▸ State.raise_raisable (State.raisable_hub rfl (by rw [hroute]; exact hk))
    rw [hr.evtStatus (by decide), State.evtStatus_of_reg fun _ => hon.1 _ _ (by simp)]
    exact hst
  · rw [hr.mem, hon.2 x, hrc.mem, hdown.power.mem, haeq]
    exact congrArg (memGet · x) (State.at_mem s t)

/-- Settles O58: a whole-device reset from the blank device, of which a trip keeps Basecamp's part; the way down of a die keeps
what its training showed. -/
theorem resetsAndTraining : Obligations.ResetsAndTraining := by
  unfold Obligations.ResetsAndTraining resetsAreMade stacksAreTrained
  refine ⟨fun s => ⟨powerOn_resets, powerOff_resets s, rstNAssert_resets, resetRelease_runs, brownout_resets,
    fun t ha => perstNRelease_opens t ha, fun t n v ha => ⟨thermalTrip_trips t n v ha, thermalTrip_cool t n v ha⟩⟩,
    fun s t e ha h2 ht => ⟨stackTrainingDone_trains t e ha h2 ht, stackTrainingDone_fails t e ha h2 ht⟩⟩

end Sys2Proof.Machine
end

section
/-! O60: link diagnostics and boundary scan (R424 to R428, R432). -/

namespace Sys2Proof.Machine

variable {s t u w : State} {but : List Reg} {srcs : List Nat} {l : Nat}

/-! ### Patterns -/

theorem State.at_linkInService (s : State) (x : Tu) (l : Nat) : (s.at x).linkInService l = s.linkInService l := by
  rw [State.linkInService, State.linkInService, State.at_flag, State.at_flag, State.at_flag]

theorem linkDiagWrite_refused (t : Tu) (l : Fin 9) (v : Word) (hup : s.hostUp = true) (hg : getBits v 0 3 ≠ 0)
    (hs : s.linkInService l = true) :
    ∃ u, exec (.linkDiagWrite t l v) s = .next u ∧ u.fld Fld.HUB_LINK_DIAG_STATE l = 2 ∧
      u.fld Fld.HUB_LINK_DIAG_GEN_PAT l = s.fld Fld.HUB_LINK_DIAG_GEN_PAT l ∧ u.out = s.out ∧
      onlyRegs s u [⟨.HUB_LINK_DIAG, l⟩] := by
  obtain ⟨hd, hon⟩ := State.done_onlyRegs (s := s) (x := t) (but := [⟨.HUB_LINK_DIAG, l⟩])
    (t := (s.at t).setFld Fld.HUB_LINK_DIAG_STATE l 2) (.setFld (.head _) (.refl _ _)) rfl
  refine ⟨(s.at t).setFld Fld.HUB_LINK_DIAG_STATE l 2, ?_, ?_, ?_, State.at_out s t, hon⟩
  · rw [exec, execLinkDiagWrite, State.whenHost_eq hup, State.writeDiag, State.at_linkInService, if_pos ⟨.inl hg, hs⟩]
    exact hd
  · exact State.fld_setFld_of_lt _ _ _ (by decide) (by decide)
  · rw [State.fld_setFld_apart _ _ _ _ _ _ (by decide), State.at_fld]

/-- The setting of a link's diagnostics is stored. -/
def State.diagPut (s : State) (l gen chk lp : Nat) : State :=
  ((((if chk ≠ s.fld Fld.HUB_LINK_DIAG_CHK_PAT l then s.setFld Fld.HUB_LINK_CHK_LOCK l 0 else s).setFld
    Fld.HUB_LINK_DIAG_GEN_PAT l gen).setFld Fld.HUB_LINK_DIAG_CHK_PAT l chk).setFld Fld.HUB_LINK_DIAG_LOOP l lp).setFld
    Fld.HUB_LINK_DIAG_STATE l (decide (patActs gen ≠ 0 ∨ patActs chk ≠ 0 ∨ lp ≠ 0)).toNat

theorem State.diagPut_reads (s : State) (l : Nat) {gen chk lp : Nat} (hg : gen < 8) (hc : chk < 8) (hl : lp < 4) :
    (s.diagPut l gen chk lp).fld Fld.HUB_LINK_DIAG_GEN_PAT l = gen ∧
      (s.diagPut l gen chk lp).fld Fld.HUB_LINK_DIAG_CHK_PAT l = chk ∧
      (s.diagPut l gen chk lp).fld Fld.HUB_LINK_DIAG_LOOP l = lp ∧
      (s.diagPut l gen chk lp).fld Fld.HUB_LINK_DIAG_STATE l = (decide (patActs gen ≠ 0 ∨ patActs chk ≠ 0 ∨ lp ≠ 0)).toNat := by
  have hb : ∀ b : Bool, b.toNat < 4 := by decide
  unfold State.diagPut
  refine ⟨?_, ?_, ?_, State.fld_setFld_of_lt _ _ _ (by decide) (hb _)⟩
  · rw [State.fld_setFld_apart _ _ _ _ _ _ (by decide), State.fld_setFld_apart _ _ _ _ _ _ (by decide),
      State.fld_setFld_apart _ _ _ _ _ _ (by decide)]
    exact State.fld_setFld_of_lt _ _ _ (by decide) hg
  · rw [State.fld_setFld_apart _ _ _ _ _ _ (by decide), State.fld_setFld_apart _ _ _ _ _ _ (by decide)]
    exact State.fld_setFld_of_lt _ _ _ (by decide) hc
  · rw [State.fld_setFld_apart _ _ _ _ _ _ (by decide)]
    exact State.fld_setFld_of_lt _ _ _ (by decide) hl

theorem State.diagPut_only (s : State) (l gen chk lp : Nat) :
    onlyRegs s (s.diagPut l gen chk lp) [⟨.HUB_LINK_DIAG, l⟩, ⟨.HUB_LINK_CHK, l⟩] := by
  unfold State.diagPut
  refine .setFld (.head _) (.setFld (.head _) (.setFld (.head _) (.setFld (.head _) (.ite ?_ (.refl _ _)))))
  exact .setFld (.tail _ (.head _)) (.refl _ _)

theorem State.diagPut_out (s : State) (l gen chk lp : Nat) : (s.diagPut l gen chk lp).out = s.out := by
  unfold State.diagPut
  split <;> rfl

theorem linkDiagWrite_stored (t : Tu) (l : Fin 9) (v : Word) (hup : s.hostUp = true) (hs : s.linkInService l = false)
    (hi : v.getLsbD 8 = false) :
    ∃ u, exec (.linkDiagWrite t l v) s = .next u ∧ u.fld Fld.HUB_LINK_DIAG_GEN_PAT l = getBits v 0 3 ∧
      (l.val < 5 → u.fld Fld.HUB_LINK_DIAG_CHK_PAT l = getBits v 3 3 ∧ u.fld Fld.HUB_LINK_DIAG_LOOP l = getBits v 6 2) ∧
      (patActs (getBits v 0 3) ≠ 0 → u.fld Fld.HUB_LINK_DIAG_STATE l = 1) ∧ u.out = s.out ∧
      onlyRegs s u [⟨.HUB_LINK_DIAG, l⟩, ⟨.HUB_LINK_CHK, l⟩] := by
  obtain ⟨chk, hchk⟩ : ∃ chk, chk = if l.val < 5 then getBits v 3 3 else 0 := ⟨_, rfl⟩
  obtain ⟨lp, hlp⟩ : ∃ lp, lp = if l.val < 5 then getBits v 6 2 else 0 := ⟨_, rfl⟩
  have hc8 : chk < 8 := by
    rw [hchk]
    split
    · exact getBits_lt _ _ 3
    · decide
  have hl4 : lp < 4 := by
    rw [hlp]
    split
    · exact getBits_lt _ _ 2
    · decide
  obtain ⟨hg, hc, hl, hst⟩ := (s.at t).diagPut_reads l (getBits_lt v 0 3) hc8 hl4
  obtain ⟨hd, hon⟩ := State.done_onlyRegs ((s.at t).diagPut_only l (getBits v 0 3) chk lp) rfl
  refine ⟨_, ?_, hg, fun h5 => ⟨?_, ?_⟩, fun hp => ?_, ((s.at t).diagPut_out _ _ _ _).trans (State.at_out s t), hon⟩
  · rw [exec, execLinkDiagWrite, State.whenHost_eq hup, State.writeDiag, State.at_linkInService, hs, ← hchk, ← hlp,
      if_neg fun h => Bool.false_ne_true h.2, hi]
    exact hd
  · rw [hc, hchk, if_pos h5]
  · rw [hl, hlp, if_pos h5]
  · rw [hst, decide_eq_true (.inl hp)]
    rfl

theorem inject_leaves (t : Tu) (l : Fin 9) (hup : s.hostUp = true) (hp : patActs (s.fld Fld.HUB_LINK_DIAG_GEN_PAT l) ≠ 0)
    (hl : s.fld Fld.HUB_LINK_DIAG_LOOP l ≠ 3) :
    ∃ u, exec (.inject t l) s = .next u ∧ u.out = .injectBit l :: s.out ∧ onlyRegs s u [] := by
  obtain ⟨hd, hon⟩ := State.done_onlyRegs (s := s) (x := t) (but := []) (t := (s.at t).emit (.injectBit l))
    (.emit (.refl _ _)) rfl
  refine ⟨(s.at t).emit (.injectBit l), ?_, congrArg _ (State.at_out s t), hon⟩
  rw [exec, execInject, State.whenHost_eq hup, State.injectError, State.at_fld, State.at_fld, if_pos ⟨hp, hl⟩]
  exact hd

theorem inject_ignored (t : Tu) (l : Fin 9) (hup : s.hostUp = true)
    (h : patActs (s.fld Fld.HUB_LINK_DIAG_GEN_PAT l) = 0 ∨ s.fld Fld.HUB_LINK_DIAG_LOOP l = 3) :
    ∃ u, exec (.inject t l) s = .next u ∧ u.out = s.out ∧ onlyRegs s u [] := by
  obtain ⟨hd, -, hon⟩ := s.done_at t
  refine ⟨_, ?_, State.at_out s t, hon⟩
  rw [exec, execInject, State.whenHost_eq hup, State.injectError, State.at_fld, State.at_fld, if_neg fun h' =>
    h.elim h'.1 h'.2]
  exact hd

/-! ### Checkers -/

theorem checkerLock_locks (t : Tu) (l : Fin 5) (bits : BitVec 48) (errs : Word) (ha : s.alive = true)
    (hp : patActs (s.fld Fld.HUB_LINK_DIAG_CHK_PAT l) ≠ 0) (hk : s.flag Fld.HUB_LINK_CHK_LOCK l = false) :
    ∃ u, exec (.checkerLock t l true bits errs) s = .next u ∧ u.flag Fld.HUB_LINK_CHK_LOCK l = true ∧
      onlyRegs s u [⟨.HUB_LINK_CHK, l⟩] := by
  obtain ⟨hd, hon⟩ := State.done_onlyRegs (s := s) (x := t) (but := [⟨.HUB_LINK_CHK, l⟩])
    (t := (s.at t).setFld Fld.HUB_LINK_CHK_LOCK l 1) (.setFld (.head _) (.refl _ _)) rfl
  refine ⟨(s.at t).setFld Fld.HUB_LINK_CHK_LOCK l 1, ?_, ?_, hon⟩
  · rw [exec, execCheckerLock, State.when_eq ha, State.checkerLock, State.at_fld, State.at_flag, if_neg hp, hk,
      if_neg Bool.false_ne_true, if_pos rfl]
    exact hd
  · rw [State.flag, State.fld_setFld_of_lt _ _ _ (by decide) (by decide)]
    rfl

/-- The registers of a checker that counts. -/
def checkerRegs (l : Nat) : List Reg :=
  [⟨.HUB_LINK_CHK, l⟩, ⟨.HUB_LINK_ERR, l⟩, ⟨.HUB_LINK_BITS_LO, l⟩, ⟨.HUB_LINK_BITS_HI, l⟩]

/-- The counts of a checker that stayed in lock. -/
def State.checked (s : State) (l bits errs : Nat) : State := (s.addBits l bits).bump Fld.HUB_LINK_ERR_COUNT l errs

theorem State.checked_reads (s : State) (l : Nat) {bits errs : Nat}
    (hb : (s.pair .HUB_LINK_BITS_LO .HUB_LINK_BITS_HI l).toNat + bits < 2 ^ 48)
    (he : s.fld Fld.HUB_LINK_ERR_COUNT l + errs < 2 ^ 32) :
    ((s.checked l bits errs).pair .HUB_LINK_BITS_LO .HUB_LINK_BITS_HI l).toNat =
        (s.pair .HUB_LINK_BITS_LO .HUB_LINK_BITS_HI l).toNat + bits ∧
      (s.checked l bits errs).fld Fld.HUB_LINK_ERR_COUNT l = s.fld Fld.HUB_LINK_ERR_COUNT l + errs ∧
      onlyRegs s (s.checked l bits errs) (checkerRegs l) := by
  obtain ⟨a, haeq⟩ : ∃ a, a = s.setPair .HUB_LINK_BITS_LO .HUB_LINK_BITS_HI l
    (BitVec.ofNat 64 ((s.pair .HUB_LINK_BITS_LO .HUB_LINK_BITS_HI l).toNat + bits)) := ⟨_, rfl⟩
  have heq : s.checked l bits errs = a.bump Fld.HUB_LINK_ERR_COUNT l errs := by
    rw [haeq, State.checked, State.addBits, if_pos hb]
  have hpair : a.pair .HUB_LINK_BITS_LO .HUB_LINK_BITS_HI l =
      BitVec.ofNat 64 ((s.pair .HUB_LINK_BITS_LO .HUB_LINK_BITS_HI l).toNat + bits) := by
    rw [haeq]
    exact s.pair_setPair l _ (by decide)
  have hon : onlyRegs s a (checkerRegs l) := by
    rw [haeq]
    exact .setPair (by simp [checkerRegs]) (by simp [checkerRegs]) (.refl _ _)
  have herr : a.fld Fld.HUB_LINK_ERR_COUNT l = s.fld Fld.HUB_LINK_ERR_COUNT l := by
    rw [haeq, State.setPair, State.fld_setReg_ne _ _ _ _ _ _ (by decide), State.fld_setReg_ne _ _ _ _ _ _ (by decide)]
  rw [heq]
  refine ⟨?_, ?_, .bump (by simp [checkerRegs]) hon⟩
  · rw [State.pair, State.bump, State.reg_setFld_ne _ _ _ _ _ _ (by decide), State.reg_setFld_ne _ _ _ _ _ _ (by decide),
      ← State.pair, hpair, BitVec.toNat_ofNat, Nat.mod_eq_of_lt (by omega)]
  · rw [State.fld_bump _ _ _ _ (by decide), herr, Nat.min_eq_left]
    exact Nat.le_sub_one_of_lt he

theorem checkerLock_counts (t : Tu) (l : Fin 5) (bits : BitVec 48) (errs : Word) (ha : s.alive = true)
    (hp : patActs (s.fld Fld.HUB_LINK_DIAG_CHK_PAT l) ≠ 0) (hk : s.flag Fld.HUB_LINK_CHK_LOCK l = true)
    (hb : (s.pair .HUB_LINK_BITS_LO .HUB_LINK_BITS_HI l).toNat + bits.toNat < 2 ^ 48)
    (he : s.fld Fld.HUB_LINK_ERR_COUNT l + errs.toNat < 2 ^ 32) (lock : Bool) :
    ∃ u, exec (.checkerLock t l lock bits errs) s = .next u ∧
      (u.pair .HUB_LINK_BITS_LO .HUB_LINK_BITS_HI l).toNat =
        (s.pair .HUB_LINK_BITS_LO .HUB_LINK_BITS_HI l).toNat + bits.toNat ∧
      u.fld Fld.HUB_LINK_ERR_COUNT l = s.fld Fld.HUB_LINK_ERR_COUNT l + errs.toNat ∧
      u.flag Fld.HUB_LINK_CHK_LOCK l = lock ∧ (lock = false → u.flag Fld.HUB_LINK_CHK_LOCK_LOST l = true) ∧
      onlyRegs s u [⟨.HUB_LINK_CHK, l⟩, ⟨.HUB_LINK_ERR, l⟩, ⟨.HUB_LINK_BITS_LO, l⟩, ⟨.HUB_LINK_BITS_HI, l⟩] := by
  have hpat : (s.at t).pair .HUB_LINK_BITS_LO .HUB_LINK_BITS_HI l = s.pair .HUB_LINK_BITS_LO .HUB_LINK_BITS_HI l := by
    rw [State.pair, State.pair, State.at_reg, State.at_reg]
  obtain ⟨hbits, herrs, hon⟩ := (s.at t).checked_reads l (by rw [hpat]; exact hb) (by rw [State.at_fld]; exact he)
  rw [hpat] at hbits
  rw [State.at_fld] at herrs
  obtain ⟨a, haeq⟩ : ∃ a, a = (s.at t).checked l bits.toNat errs.toNat := ⟨_, rfl⟩
  have hex : exec (.checkerLock t l lock bits errs) s = s.done
      (if lock then a else (a.setFld Fld.HUB_LINK_CHK_LOCK l 0).setFld Fld.HUB_LINK_CHK_LOCK_LOST l 1) := by
    rw [exec, execCheckerLock, State.when_eq ha, State.checkerLock, State.at_fld, State.at_flag, if_neg hp, hk, if_pos rfl,
      haeq]
    rfl
  rw [← haeq] at hbits herrs hon
  have hkept : a.flag Fld.HUB_LINK_CHK_LOCK l = true := by
    rw [haeq, State.flag, State.checked, State.fld_bump_ne _ _ _ _ _ _ (by decide), State.addBits, hpat, if_pos hb,
      State.setPair, State.fld_setReg_ne _ _ _ _ _ _ (by decide), State.fld_setReg_ne _ _ _ _ _ _ (by decide), State.at_fld]
    exact hk
  cases lock with
  | true =>
    obtain ⟨hd, hon'⟩ := State.done_onlyRegs hon rfl
    exact ⟨a, hex.trans hd, hbits, herrs, hkept, fun h => Bool.noConfusion h, hon'⟩
  | false =>
    obtain ⟨b, hbeq⟩ : ∃ b, b = (a.setFld Fld.HUB_LINK_CHK_LOCK l 0).setFld Fld.HUB_LINK_CHK_LOCK_LOST l 1 := ⟨_, rfl⟩
    have honb : onlyRegs (s.at t) b (checkerRegs l) := by
      rw [hbeq]
      exact .setFld (.head _) (.setFld (.head _) hon)
    have hreg : ∀ n, n ≠ RegName.HUB_LINK_CHK → b.reg n l = a.reg n l := fun n hn => by
      rw [hbeq, State.reg_setFld_ne _ _ _ _ _ _ hn, State.reg_setFld_ne _ _ _ _ _ _ hn]
    obtain ⟨hd, hon'⟩ := State.done_onlyRegs honb rfl
    refine ⟨b, ?_, ?_, ?_, ?_, fun _ => ?_, hon'⟩
    · rw [hex, if_neg Bool.false_ne_true, ← hbeq]
      exact hd
    · rw [State.pair, hreg _ (by decide), hreg _ (by decide)]
      exact hbits
    · rw [State.fld_of_reg (hreg _ (by decide))]
      exact herrs
    · rw [hbeq, State.flag, State.fld_setFld_apart _ _ _ _ _ _ (by decide), State.fld_setFld_of_lt _ _ _ (by decide) (by decide)]
      rfl
    · rw [hbeq, State.flag, State.fld_setFld_of_lt _ _ _ (by decide) (by decide)]
      rfl

/-! ### Boundary scan -/

/-- The device with another instruction in its test port. -/
def State.withJtag (s : State) (i : JtagIns) : State := { s with dia := { s.dia with jtag := i } }

theorem execJtagInstruction_eq (t : Tu) (i : JtagIns) (ha : s.alive = true) :
    exec (.jtagInstruction t i) s = .next (if jtagDrives s.dia.jtag && !jtagDrives i then
      ((s.at t).withJtag i).wholeReset causeRstN else (s.at t).withJtag i) := by
  have hon : s.pwr.on = true := by
    rw [State.alive, Bool.and_eq_true, Bool.and_eq_true] at ha
    exact ha.1.1
  rw [exec, execJtagInstruction, hon, ha, if_neg (by decide)]
  dsimp only
  rw [Bool.and_true, if_pos rfl]
  rfl

theorem jtagInstruction_stays (t : Tu) (i : JtagIns) (ha : s.alive = true)
    (h : jtagDrives s.dia.jtag = false ∨ jtagDrives i = true) :
    ∃ u, exec (.jtagInstruction t i) s = .next u ∧ u.dia.jtag = i ∧ onlyRegs s u [] := by
  refine ⟨(s.at t).withJtag i, ?_, rfl, .of_eq (State.at_regs s t) (State.at_mem s t) (.refl _ _)⟩
  rw [execJtagInstruction_eq t i ha, if_neg]
  rcases h with h | h <;> rw [h] <;> simp

theorem jtagInstruction_resets (t : Tu) (i : JtagIns) (ha : s.alive = true) (h1 : jtagDrives s.dia.jtag = true)
    (h2 : jtagDrives i = false) :
    ∃ u, exec (.jtagInstruction t i) s = .next u ∧ u.dia.jtag = i ∧ resetMade s u 2 ∧ u.alive = true := by
  refine ⟨((s.at t).withJtag i).wholeReset causeRstN, ?_, rfl,
    resetMade_of_eq (((s.at t).withJtag i).wholeReset_made causeRstN) (State.at_mgt s t) (State.at_pending s t), ?_⟩
  · rw [execJtagInstruction_eq t i ha, h1, h2]
    exact congrArg _ (if_pos rfl)
  · have hp : ((s.at t).withJtag i).pwr = s.pwr := State.at_pwr s t
    rw [State.wholeReset_alive, hp]
    rw [State.alive, Bool.and_eq_true] at ha
    exact ha.1

end Sys2Proof.Machine
end

section
/-! O60: built-in self-tests (R430). -/

namespace Sys2Proof.Machine

variable {s t u w : State} {but : List Reg} {srcs : List Nat}

/-! ### A test is asked for -/

theorem State.at_bistAbsent (s : State) (x : Tu) (n : Nat) : (s.at x).bistAbsent n = s.bistAbsent n := by
  simp only [State.bistAbsent, State.at_clusterAsleep, State.at_dieAsleep, State.at_gateOpen, State.at_standby]

theorem State.at_bistRange (s : State) (x : Tu) : (s.at x).bistRange = s.bistRange := by
  simp only [State.bistRange, State.at_fld]

theorem State.at_snapBlocked (s : State) (x : Tu) (e a n : Nat) : (s.at x).snapBlocked e a n = s.snapBlocked e a n := by
  rw [State.snapBlocked, State.snapBlocked, State.at_pitch]

/-- The result of a request for the test of unit `n`. -/
def State.bistShown (s : State) (n code : Nat) : State :=
  (s.setFld Fld.HUB_BIST_STATUS_UNIT 0 n).setFld Fld.HUB_BIST_STATUS_RESULT 0 code

theorem State.bistShown_reads (s : State) {n code : Nat} (hn : n < 16) (hc : code < 8) :
    (s.bistShown n code).fld Fld.HUB_BIST_STATUS_UNIT 0 = n ∧ (s.bistShown n code).fld Fld.HUB_BIST_STATUS_RESULT 0 = code ∧
      onlyRegs s (s.bistShown n code) [⟨.HUB_BIST_STATUS, 0⟩] := by
  refine ⟨?_, State.fld_setFld_of_lt _ _ _ (by decide) hc, .setFld (.head _) (.setFld (.head _) (.refl _ _))⟩
  exact (State.fld_setFld_apart _ _ _ _ _ _ (by decide)).trans (State.fld_setFld_of_lt _ _ _ (by decide) hn)

/-- The test of unit `n` runs. -/
def State.bistRuns (s : State) (n : Nat) : State :=
  { s.bistShown n 1 with dia := { s.dia with bist := some n, range := s.bistRange, since := s.time } }

theorem State.bistStart_eq (s : State) (n : Nat) : s.bistStart n =
    if s.dia.bist.isSome then s.bistShown n bistBusy else if s.bistAbsent n then s.bistShown n bistNone
    else if !s.bistIdle n then s.bistShown n bistBusy
    else if (n = 10 ∨ n = 11) ∧ s.snapBlocked (n % 2) s.bistRange.1 s.bistRange.2 then s.bistShown n bistRefused
    else s.bistRuns n := rfl

/-- A request that is refused. -/
theorem bistStart_shows (t : Tu) (n : Fin 16) {code : Nat} (hup : s.hostUp = true) (hc : code < 8)
    (heq : (s.at t).bistStart n = (s.at t).bistShown n code) :
    ∃ u, exec (.bistStart t n) s = .next u ∧ u.dia.bist = s.dia.bist ∧ u.fld Fld.HUB_BIST_STATUS_RESULT 0 = code ∧
      u.fld Fld.HUB_BIST_STATUS_UNIT 0 = n ∧ onlyRegs s u [⟨.HUB_BIST_STATUS, 0⟩] := by
  obtain ⟨hn, hr, hon⟩ := (s.at t).bistShown_reads n.2 hc
  obtain ⟨hd, hon'⟩ := State.done_onlyRegs hon rfl
  refine ⟨(s.at t).bistShown n code, ?_, (show _ = (s.at t).dia.bist from rfl).trans (by rw [State.at_dia]), hr, hn, hon'⟩
  rw [exec, execBistStart, State.whenHost_eq hup, heq]
  exact hd

theorem bistStart_absent (t : Tu) (n : Fin 16) (hup : s.hostUp = true) (hb : s.dia.bist = none) (ha : s.bistAbsent n = true) :
    ∃ u, exec (.bistStart t n) s = .next u ∧ u.dia.bist = none ∧ u.fld Fld.HUB_BIST_STATUS_RESULT 0 = 5 ∧
      u.fld Fld.HUB_BIST_STATUS_UNIT 0 = n ∧ onlyRegs s u [⟨.HUB_BIST_STATUS, 0⟩] := by
  rw [← hb]
  refine bistStart_shows t n hup (by decide) ?_
  rw [State.bistStart_eq, State.at_dia, hb, if_neg (by decide), State.at_bistAbsent, if_pos ha]
  rfl

theorem bistStart_busy (t : Tu) (n : Fin 16) (hup : s.hostUp = true) (hb : s.dia.bist = none) (ha : s.bistAbsent n = false)
    (hi : (s.at t).bistIdle n = false) :
    ∃ u, exec (.bistStart t n) s = .next u ∧ u.dia.bist = none ∧ u.fld Fld.HUB_BIST_STATUS_RESULT 0 = 4 ∧
      onlyRegs s u [⟨.HUB_BIST_STATUS, 0⟩] := by
  obtain ⟨u, hu, hbist, hr, -, hon⟩ := bistStart_shows t n (code := 4) hup (by decide) (by
    rw [State.bistStart_eq, State.at_dia, hb, if_neg (by decide), State.at_bistAbsent, ha, hi, if_neg (by decide),
      if_pos (by decide)]
    rfl)
  exact ⟨u, hu, hbist.trans hb, hr, hon⟩

theorem bistStart_refused (t : Tu) (n : Fin 16) (hup : s.hostUp = true) (hb : s.dia.bist = none) (ha : s.bistAbsent n = false)
    (hi : (s.at t).bistIdle n = true) (hn : n.val = 10 ∨ n.val = 11)
    (hs : s.snapBlocked (n % 2) s.bistRange.1 s.bistRange.2 = true) :
    ∃ u, exec (.bistStart t n) s = .next u ∧ u.dia.bist = none ∧ u.fld Fld.HUB_BIST_STATUS_RESULT 0 = 6 ∧
      onlyRegs s u [⟨.HUB_BIST_STATUS, 0⟩] := by
  obtain ⟨u, hu, hbist, hr, -, hon⟩ := bistStart_shows t n (code := 6) hup (by decide) (by
    rw [State.bistStart_eq, State.at_dia, hb, if_neg (by decide), State.at_bistAbsent, ha, hi, if_neg (by decide),
      if_neg (by decide), State.at_snapBlocked, State.at_bistRange, if_pos ⟨hn, hs⟩]
    rfl)
  exact ⟨u, hu, hbist.trans hb, hr, hon⟩

theorem bistStart_runs (t : Tu) (n : Fin 16) (hup : s.hostUp = true) (hb : s.dia.bist = none) (ha : s.bistAbsent n = false)
    (hi : (s.at t).bistIdle n = true)
    (hs : n.val ≠ 10 ∧ n.val ≠ 11 ∨ s.snapBlocked (n % 2) s.bistRange.1 s.bistRange.2 = false) :
    ∃ u, exec (.bistStart t n) s = .next u ∧ u.dia.bist = some n.val ∧ u.fld Fld.HUB_BIST_STATUS_RESULT 0 = 1 ∧
      u.fld Fld.HUB_BIST_STATUS_UNIT 0 = n ∧ onlyRegs s u [⟨.HUB_BIST_STATUS, 0⟩] := by
  obtain ⟨hn, hr, hon⟩ := (s.at t).bistShown_reads n.2 (code := 1) (by decide)
  have honr : onlyRegs (s.at t) ((s.at t).bistRuns n) [⟨.HUB_BIST_STATUS, 0⟩] := .of_eq rfl rfl hon
  obtain ⟨hd, hon'⟩ := State.done_onlyRegs honr rfl
  refine ⟨(s.at t).bistRuns n, ?_, rfl, hr, hn, hon'⟩
  rw [exec, execBistStart, State.whenHost_eq hup, State.bistStart_eq, State.at_dia, hb, if_neg (by decide),
    State.at_bistAbsent, ha, hi, if_neg (by decide), if_neg (by decide), State.at_snapBlocked, State.at_bistRange, if_neg]
  · exact hd
  · rintro ⟨h, h'⟩
    rcases hs with hs | hs
    · exact h.elim hs.1 hs.2
    · rw [hs] at h'
      cases h'

theorem bistStart_second (t : Tu) (n : Fin 16) {b : Nat} (hup : s.hostUp = true) (hb : s.dia.bist = some b) :
    ∃ u, exec (.bistStart t n) s = .next u ∧ u.dia.bist = some b ∧ u.fld Fld.HUB_BIST_STATUS_RESULT 0 = 4 ∧
      onlyRegs s u [⟨.HUB_BIST_STATUS, 0⟩] := by
  obtain ⟨u, hu, hbist, hr, -, hon⟩ := bistStart_shows t n (code := 4) hup (by decide) (by
    rw [State.bistStart_eq, State.at_dia, hb]
    exact if_pos rfl)
  exact ⟨u, hu, hbist.trans hb, hr, hon⟩

/-! ### A test ends -/

/-- No test runs any longer on the unit `b`. -/
def State.bistEnded (s : State) (b : Nat) : State :=
  { s with dia := { s.dia with
      bist := none
      spans := if b < 4 then tput (0#64, 0#64) s.dia.spans b (s.dia.since, s.time) else s.dia.spans } }

/-- The verdict of a test. -/
def State.verdict (s : State) (pass : Bool) (detail : Nat) : State :=
  (s.setFld Fld.HUB_BIST_STATUS_RESULT 0 (if pass then 2 else 3)).setFld Fld.HUB_BIST_STATUS_DETAIL 0
    (if pass then 0 else detail)

theorem State.verdict_reads (s : State) (pass : Bool) {detail : Nat} (hd : detail < 2 ^ 16) :
    (s.verdict pass detail).fld Fld.HUB_BIST_STATUS_RESULT 0 = (if pass then 2 else 3) ∧
      (s.verdict pass detail).fld Fld.HUB_BIST_STATUS_DETAIL 0 = (if pass then 0 else detail) ∧
      onlyRegs s (s.verdict pass detail) [⟨.HUB_BIST_STATUS, 0⟩] := by
  refine ⟨?_, State.fld_setFld_of_lt _ _ _ (by decide) ?_, .setFld (.head _) (.setFld (.head _) (.refl _ _))⟩
  · refine (State.fld_setFld_apart _ _ _ _ _ _ (by decide)).trans (State.fld_setFld_of_lt _ _ _ (by decide) ?_)
    cases pass <;> decide
  · split
    · decide
    · exact hd

/-- The registers of an accumulator's planes that a clear returns to 0. -/
def planeNames : List RegName :=
  [.ACC_PLANE_TOTAL_LO, .ACC_PLANE_TOTAL_HI, .ACC_PLANE_STATUS, .ACC_PLANE_CLR_LO, .ACC_PLANE_CLR_HI]

theorem State.clearPlane_keeps (s : State) (p : Nat) : Keeps (fun n _ => n ∉ planeNames) s (s.clearPlane p) := by
  have hn : ∀ n ∈ planeNames, ¬ n ∉ planeNames := fun n hn h => h hn
  unfold State.clearPlane State.setFrame
  refine .trans (.trans (.trans ?_ (.setPair _ _ (hn _ (by decide)) (hn _ (by decide)))) (.setFld _ _ (hn _ (by decide))))
    (.setPair _ _ (hn _ (by decide)) (hn _ (by decide)))
  exact .of_eq rfl rfl rfl

theorem State.clearPlane_bins (s : State) (p : Nat) :
    (s.clearPlane p).bins = s.bins.filter (fun e => e.1 / 131072 != p) ∧ (s.clearPlane p).masks = s.masks := ⟨rfl, rfl⟩

/-- The four planes of an accumulator are cleared. -/
def State.clearFour (s : State) (c : Nat) : State := (List.range 4).foldl (fun s i => s.clearPlane (4 * c + i)) s

theorem State.accLose_eq (s : State) (c : Nat) : s.accLose c =
    { s.clearFour c with masks := (s.clearFour c).masks.filter fun e => e.1 / 65536 != c } := rfl

theorem State.clearPlane_bin (s : State) (p q x : Nat) :
    (s.clearPlane p).bin q x = if (131072 * q + x) / 131072 != p then s.bin q x else 0 := by
  rw [State.bin, (s.clearPlane_bins p).1]
  exact tget_filter 0 s.bins (fun k => k / 131072 != p) _

/-- The bins of an accumulator that is lost are empty. -/
theorem State.clearFour_bin (s : State) {c p x : Nat} (hp : p / 4 = c) (hx : x < 131072) : (s.clearFour c).bin p x = 0 := by
  have hdiv : (131072 * p + x) / 131072 = p := by omega
  obtain ⟨i, hi, rfl⟩ : ∃ i, i < 4 ∧ p = 4 * c + i := ⟨p % 4, by omega, by omega⟩
  obtain ⟨a, -, hab⟩ := foldl_between_mem (R := fun a b : State => a.bin (4 * c + i) x = 0 → b.bin (4 * c + i) x = 0)
    (f := fun (s : State) i => s.clearPlane (4 * c + i)) (l := List.range 4) (x := i) (fun _ h => h) (fun h g hz => g (h hz))
    (fun a y _ _ hz => by
      rw [State.clearPlane_bin, hz]
      exact ite_self _) s List.nodup_range (List.mem_range.2 hi)
  refine hab ?_
  rw [State.clearPlane_bin, hdiv, if_neg (by simp)]

theorem State.accLose_reads (s : State) (c : Nat) :
    Keeps (fun n _ => n ∉ planeNames) s (s.accLose c) ∧ (∀ p x, p / 4 = c → x < 131072 → (s.accLose c).bin p x = 0) ∧
      ∀ k bank w, k / 8 = c → bank < 2 → w < 4096 → (s.accLose c).maskWord k bank w = 0#32 := by
  obtain ⟨a, ha⟩ : ∃ a, a = s.clearFour c := ⟨_, rfl⟩
  have hsa : Keeps (fun n _ => n ∉ planeNames) s a := by
    rw [ha, State.clearFour]
    exact foldl_rel (Keeps.refl _) Keeps.trans (fun b i => b.clearPlane_keeps _) _ s
  rw [State.accLose_eq, ← ha]
  refine ⟨hsa.trans (.of_eq rfl rfl rfl), fun p x hp hx => ?_, fun k bank w hk hb hw => ?_⟩
  · have h := s.clearFour_bin hp hx
    rw [← ha] at h
    exact h
  · have hkey : ((2 * k + bank) * 4096 + w) / 65536 = c := by omega
    refine (tget_filter 0#32 a.masks (fun e => e / 65536 != c) _).trans ?_
    rw [hkey, if_neg (by simp)]

theorem execBistDone_eq (t : Tu) (pass : Bool) (detail : BitVec 16) {b : Nat} (ha : s.alive = true) (hb : s.dia.bist = some b) :
    exec (.bistDone t pass detail) s = s.done ((((s.at t).bistEnded b).bistContents b).verdict pass detail.toNat) := by
  rw [exec, execBistDone, State.when_eq ha, State.at_dia, hb]
  dsimp only
  rw [State.bistEnded, State.at_dia]
  rfl

/-- The verdict of a test stands, and it has left what its unit's contents say. -/
theorem bistDone_of (t : Tu) (pass : Bool) (detail : BitVec 16) {b : Nat} {a : State} (ha : s.alive = true)
    (hb : s.dia.bist = some b) (heq : ((s.at t).bistEnded b).bistContents b = a)
    (hk : ∀ n i, n ∉ planeNames → a.reg n i = s.reg n i) :
    exec (.bistDone t pass detail) s = .next (a.verdict pass detail.toNat) := by
  obtain ⟨-, -, hv⟩ := a.verdict_reads pass detail.isLt
  have hreg : ∀ n i, n ∉ planeNames → n ≠ .HUB_BIST_STATUS → (a.verdict pass detail.toNat).reg n i = s.reg n i :=
    fun n i hn hne => (hv.1 n i (by simp [hne])).trans (hk n i hn)
  rw [execBistDone_eq t pass detail ha hb, heq]
  exact State.done_quiet (fun i => hreg _ _ (by decide) (by decide)) (hreg _ _ (by decide) (by decide))

theorem State.bistEnded_reads (s : State) (x : Tu) (b : Nat) :
    (∀ n i, ((s.at x).bistEnded b).reg n i = s.reg n i) ∧ ((s.at x).bistEnded b).mem = s.mem ∧
      ((s.at x).bistEnded b).dia.bist = none ∧ ((s.at x).bistEnded b).dia.range = s.dia.range := by
  refine ⟨fun n i => ?_, State.at_mem s x, rfl, (show _ = (s.at x).dia.range from rfl).trans (by rw [State.at_dia])⟩
  exact State.at_reg s x n i

theorem State.bistContents_other (s : State) {b : Nat} (h : b < 4 ∨ 8 ≤ b) (h10 : b ≠ 10) (h11 : b ≠ 11) :
    (s.bistContents b).regs = s.regs ∧ (s.bistContents b).mem = s.mem ∧ (s.bistContents b).dia = s.dia := by
  rw [State.bistContents, if_neg (by omega), if_neg (by omega)]
  split <;> exact ⟨rfl, rfl, rfl⟩

/-- The range of the stack that was tested. -/
def State.rangeCleared (s : State) (b : Nat) : State :=
  { s with mem := s.mem.filter fun x =>
      !decide (b % 2 * stackSpan + s.dia.range.1 ≤ x.1 ∧ x.1 < b % 2 * stackSpan + s.dia.range.1 + s.dia.range.2) }

theorem State.bistContents_stack (s : State) {b : Nat} (h : b = 10 ∨ b = 11) : s.bistContents b = s.rangeCleared b := by
  rw [State.bistContents, if_neg (by omega), if_pos h]
  rfl

theorem State.bistContents_acc (s : State) {b : Nat} (h4 : 4 ≤ b) (h8 : b < 8) : s.bistContents b = s.accLose (b - 4) := by
  rw [State.bistContents, if_pos ⟨h4, h8⟩]

theorem State.accLose_dia (s : State) (c : Nat) : (s.accLose c).dia = s.dia := by
  obtain ⟨a, ha⟩ : ∃ a, a = s.clearFour c := ⟨_, rfl⟩
  have hdia : a.dia = s.dia := by
    rw [ha, State.clearFour]
    exact foldl_keeps State.dia (f := fun s i => State.clearPlane s (4 * c + i)) (fun _ _ => rfl) _ s
  rw [State.accLose_eq, ← ha]
  exact hdia

/-- What the end of any test shows. -/
theorem bistDone_shows (t : Tu) (pass : Bool) (detail : BitVec 16) {b : Nat} (ha : s.alive = true) (hb : s.dia.bist = some b) :
    ∃ u, exec (.bistDone t pass detail) s = .next u ∧ u.dia.bist = none ∧
      u.fld Fld.HUB_BIST_STATUS_RESULT 0 = (if pass then 2 else 3) ∧
      u.fld Fld.HUB_BIST_STATUS_DETAIL 0 = (if pass then 0 else detail.toNat) ∧
      (b < 4 ∨ 8 ≤ b → b ≠ 10 → b ≠ 11 → onlyRegs s u [⟨.HUB_BIST_STATUS, 0⟩]) := by
  obtain ⟨hreg, hmem, hbist, -⟩ := s.bistEnded_reads t b
  obtain ⟨e, he⟩ : ∃ e, e = (s.at t).bistEnded b := ⟨_, rfl⟩
  rw [← he] at hreg hmem hbist
  obtain ⟨a, haeq⟩ : ∃ a, a = e.bistContents b := ⟨_, rfl⟩
  have hdia : a.dia = e.dia ∧ ∀ n i, n ∉ planeNames → a.reg n i = e.reg n i := by
    rw [haeq]
    by_cases hacc : 4 ≤ b ∧ b < 8
    · rw [State.bistContents_acc _ hacc.1 hacc.2]
      exact ⟨e.accLose_dia _, (e.accLose_reads _).1.reg⟩
    · by_cases hst : b = 10 ∨ b = 11
      · rw [State.bistContents_stack _ hst]
        exact ⟨rfl, fun _ _ _ => rfl⟩
      · obtain ⟨h1, -, h3⟩ := e.bistContents_other (b := b) (by omega) (by omega) (by omega)
        exact ⟨h3, fun n i _ => by rw [State.reg, State.reg, h1]⟩
  obtain ⟨hr, hd, hon⟩ := a.verdict_reads pass detail.isLt
  refine ⟨_, bistDone_of t pass detail ha hb (by rw [← he, haeq]) fun n i hn => (hdia.2 n i hn).trans (hreg n i), ?_, hr, hd,
    fun h1 h2 h3 => ?_⟩
  · rw [← hbist, ← hdia.1]
    rfl
  · obtain ⟨h1, h2, -⟩ := e.bistContents_other h1 h2 h3
    rw [← haeq] at h1 h2
    have hsa : onlyRegs s a [⟨.HUB_BIST_STATUS, 0⟩] :=
      ⟨fun n i _ => by rw [State.reg, h1]; exact hreg n i, fun x => by rw [h2, hmem]⟩
    exact hsa.trans hon

theorem bistDone_accumulator (t : Tu) (pass : Bool) (detail : BitVec 16) {b : Nat} (ha : s.alive = true)
    (hb : s.dia.bist = some b) (h4 : 4 ≤ b) (h8 : b < 8) :
    ∃ u, exec (.bistDone t pass detail) s = .next u ∧ sameMem s u ∧
      (∀ p x, p / 4 = b - 4 → x < 131072 → u.bin p x = 0) ∧
      ∀ k bank w, k / 8 = b - 4 → bank < 2 → w < 4096 → u.maskWord k bank w = 0#32 := by
  obtain ⟨hreg, hmem, -, -⟩ := s.bistEnded_reads t b
  obtain ⟨e, he⟩ : ∃ e, e = (s.at t).bistEnded b := ⟨_, rfl⟩
  rw [← he] at hreg hmem
  obtain ⟨hk, hbins, hmasks⟩ := e.accLose_reads (b - 4)
  obtain ⟨a, haeq⟩ : ∃ a, a = e.accLose (b - 4) := ⟨_, rfl⟩
  rw [← haeq] at hk hbins hmasks
  obtain ⟨-, -, hon⟩ := a.verdict_reads pass detail.isLt
  refine ⟨_, bistDone_of t pass detail ha hb (by rw [← he, haeq, State.bistContents_acc _ h4 h8])
    fun n i hn => (hk.reg n i hn).trans (hreg n i), fun x => ?_, hbins, hmasks⟩
  rw [hon.2 x, hk.mem, hmem]

theorem bistDone_stack (t : Tu) (pass : Bool) (detail : BitVec 16) {b : Nat} (ha : s.alive = true)
    (hb : s.dia.bist = some b) (hst : b = 10 ∨ b = 11) :
    ∃ u, exec (.bistDone t pass detail) s = .next u ∧
      (∀ a, b % 2 * stackSpan + s.dia.range.1 ≤ a → a < b % 2 * stackSpan + s.dia.range.1 + s.dia.range.2 →
        memGet u.mem a = 0) ∧
      (∀ a, a < b % 2 * stackSpan + s.dia.range.1 ∨ b % 2 * stackSpan + s.dia.range.1 + s.dia.range.2 ≤ a →
        memGet u.mem a = memGet s.mem a) ∧ sameRegs s u [⟨.HUB_BIST_STATUS, 0⟩] := by
  obtain ⟨hreg, hmem, -, hrange⟩ := s.bistEnded_reads t b
  obtain ⟨e, he⟩ : ∃ e, e = (s.at t).bistEnded b := ⟨_, rfl⟩
  rw [← he] at hreg hmem hrange
  obtain ⟨-, -, hon⟩ := (e.rangeCleared b).verdict_reads pass detail.isLt
  obtain ⟨lo, hlo⟩ : ∃ lo, lo = b % 2 * stackSpan + s.dia.range.1 := ⟨_, rfl⟩
  have hm : ∀ x, memGet ((e.rangeCleared b).verdict pass detail.toNat).mem x =
      if !decide (lo ≤ x ∧ x < lo + s.dia.range.2) then memGet s.mem x else 0 := fun x => by
    rw [hon.2 x, ← hmem, hlo, ← hrange]
    exact memGet_filter e.mem (fun x => !decide (b % 2 * stackSpan + e.dia.range.1 ≤ x ∧
      x < b % 2 * stackSpan + e.dia.range.1 + e.dia.range.2)) x
  rw [← hlo]
  refine ⟨_, bistDone_of (a := e.rangeCleared b) t pass detail ha hb (by rw [← he, State.bistContents_stack _ hst]) fun n i _ => hreg n i,
    fun x h1 h2 => ?_, fun x hx => ?_, fun n i hn => (hon.1 n i hn).trans (hreg n i)⟩
  · rw [hm, decide_eq_true ⟨h1, h2⟩, if_neg (by decide)]
  · rw [hm, decide_eq_false (by omega), if_pos (by decide)]

/-- Settles O60: a setting of a link, the counts of a checker, the results of a test and what it leaves, and the reset that the
boundary cells' release makes. -/
theorem diagnosticsRun : Obligations.DiagnosticsRun := by
  unfold Obligations.DiagnosticsRun linksAreDiagnosed selfTestsRun
  refine ⟨fun s t => ⟨fun l v hup => ⟨?_, ?_, ?_, ?_⟩, fun l bits errs ha hp => ⟨?_, ?_⟩⟩,
    fun s t => ⟨fun n hup => ⟨?_, ?_, ?_, ?_, ?_⟩, fun b pass detail ha hb => ⟨?_, ?_, ?_⟩, fun i ha => ⟨?_, ?_⟩⟩⟩
  · exact linkDiagWrite_refused t l v hup
  · exact linkDiagWrite_stored t l v hup
  · exact inject_leaves t l hup
  · exact inject_ignored t l hup
  · exact checkerLock_locks t l bits errs ha hp
  · exact checkerLock_counts t l bits errs ha hp
  · exact bistStart_absent t n hup
  · exact bistStart_busy t n hup
  · exact bistStart_refused t n hup
  · exact bistStart_runs t n hup
  · exact fun b => bistStart_second t n hup
  · exact bistDone_shows t pass detail ha hb
  · exact bistDone_accumulator t pass detail ha hb
  · exact bistDone_stack t pass detail ha hb
  · exact jtagInstruction_stays t i ha
  · exact jtagInstruction_resets t i ha

end Sys2Proof.Machine
end

section
/-! O50: what a message of the twin link does on arrival; the partner's time (R365, R369 to R371). -/

namespace Sys2Proof.Machine

variable {s t u w : State} {but : List Reg} {srcs : List Nat} {m : List Byte} {typ : Nat}

/-! ### A message arrives -/

/-- The SEQ of the last message of TYPE `typ` noted; `x` is the table of them. -/
def State.glnHeard (s : State) (x : Tab Nat) : State := s.modGln fun g => { g with seqRx := x }

theorem State.at_glnRx (s : State) (x : Tu) : (s.at x).glnRx = s.glnRx := by
  rw [State.glnRx, State.glnRx, State.at_glnUp, State.at_flag, State.at_standby]

theorem State.glnRx_up (h : s.glnRx = true) : s.glnUp = true := by
  rw [State.glnRx, Bool.and_eq_true, Bool.and_eq_true] at h
  exact h.1.1

theorem State.glnUp_of_arrives (h : arrives s m typ) : s.glnUp = true := State.glnRx_up h.2.1

/-- A message that arrives acts once its SEQ is noted. -/
theorem State.glnMsg_acts (h : arrives s m typ) (hr : glnReserved typ = false) (x : Tu) (f : State → State) :
    ∃ y, (s.at x).glnMsg m typ f = f ((s.at x).glnHeard y) := by
  obtain ⟨-, hrx, hcrc, ht, hseq⟩ := h
  rw [← s.at_glnRx x] at hrx
  rw [← s.at_gln x] at hseq
  generalize s.at x = z at hrx hseq
  rw [State.glnMsg, hrx, hcrc, hr, ht, if_neg (by decide), if_neg (by decide), if_neg (fun h => h rfl), if_neg (by decide)]
  split
  · next h3 =>
    rw [if_neg (hseq h3)]
    exact ⟨_, rfl⟩
  · exact ⟨z.gln.seqRx, rfl⟩

theorem State.glnHeard_only (s : State) (y : Tab Nat) : onlyRegs s (s.glnHeard y) [] := .of_eq rfl rfl (.refl _ _)

theorem State.glnHeard_fld (s : State) (y : Tab Nat) (f : Fld) (i : Nat) : (s.glnHeard y).fld f i = s.fld f i := rfl

theorem State.glnHeard_flag (s : State) (y : Tab Nat) (f : Fld) (i : Nat) : (s.glnHeard y).flag f i = s.flag f i := rfl

/-- A message that arrives and leaves `w` without an event. -/
theorem State.done_heard {x : Tu} {y : Tab Nat} (h : onlyRegs ((s.at x).glnHeard y) w but) (hb : noEventReg but = true) :
    s.done w = .next w ∧ onlyRegs s w but :=
  State.done_onlyRegs (x := x) ((((s.at x).glnHeard_only y).mono (by simp)).trans h) hb

/-! ### Time -/

theorem timeReq_answers (t t3 : Tu) (h : arrives s m 4) (hrole : s.role = 1) :
    ∃ u, exec (.timeReq t m t3) s = .next u ∧
      u.out = .guyline 5 0 (tget 0 s.gln.seqTx 5)
        (leBytes 8 (leAt m 4 8) ++ leBytes 8 (s.at t).time.toNat ++ leBytes 8 t3.toNat) 1 :: s.out ∧ onlyRegs s u [] := by
  obtain ⟨y, hy⟩ := State.glnMsg_acts h rfl t fun s =>
    if s.role = 1 ∨ s.gln.attach.isSome then
      s.glnSend 5 0 (leBytes 8 (leAt m 4 8) ++ leBytes 8 s.time.toNat ++ leBytes 8 t3.toNat) 1
    else s
  rw [if_pos (.inl ((State.at_fld s t _ _).trans hrole)),
    State.glnSend_up (s := (s.at t).glnHeard y) ((s.at_glnUp t).trans (State.glnUp_of_arrives h))] at hy
  obtain ⟨p, hp⟩ : ∃ p, p = leBytes 8 (leAt m 4 8) ++ leBytes 8 (s.at t).time.toNat ++ leBytes 8 t3.toNat := ⟨_, rfl⟩
  have hlen : p.length = 24 := by rw [hp]; simp only [List.length_append, length_leBytes]
  have htime : ((s.at t).glnHeard y).time = (s.at t).time := rfl
  rw [htime, ← hp, hlen, Nat.sub_self, List.replicate_zero, List.append_nil] at hy
  rw [← hp]
  have hon0 : onlyRegs ((s.at t).glnHeard y) (((s.at t).glnHeard y).glnCounted 5) [] := .of_eq rfl rfl (.refl _ _)
  obtain ⟨hd, hon⟩ := State.done_heard (s := s) (x := t) (y := y)
    (hon0.emit (o := .guyline 5 0 (tget 0 ((s.at t).glnHeard y).gln.seqTx 5) p 1)) rfl
  refine ⟨_, ?_, ?_, hon⟩
  · rw [exec, execTimeReq, State.when_eq h.1, hy]
    exact hd
  · refine (show _ = Out.guyline 5 0 (tget 0 (s.at t).gln.seqTx 5) p 1 :: (s.at t).out from rfl).trans ?_
    rw [State.at_out, State.at_gln]

/-- The registers that a measurement of the epoch shows. -/
abbrev epochRegs : List Reg := [⟨.GLN_EPOCH_OFS, 0⟩, ⟨.GLN_STATUS, 0⟩]

theorem State.noteAligned_only (s : State) (o2 : Int) :
    (s.noteAligned o2).gln.ofs = s.gln.ofs ∧ onlyRaising s (s.noteAligned o2) epochRegs [52] := by
  unfold State.noteAligned
  extract_lets inside i o w al
  have hofs : w.gln.ofs = s.gln.ofs := rfl
  have hon : onlyRaising s w epochRegs [52] := .of_eq rfl rfl (.refl _ _ _)
  have hraised : ∀ v c, ((w.setFld Fld.GLN_STATUS_ALIGNED 0 v).raise 52 c 0).gln.ofs = s.gln.ofs ∧
      onlyRaising s ((w.setFld Fld.GLN_STATUS_ALIGNED 0 v).raise 52 c 0) epochRegs [52] := fun v c =>
    ⟨(congrArg Gln.ofs (State.raise_raises _ _ _).gln).trans hofs, .raise (by simp) (.setFld (by simp) rfl hon)⟩
  split
  · exact hraised _ _
  · split
    · exact hraised _ _
    · exact ⟨hofs, hon⟩

/-- A measurement of the epoch joins the last 16. -/
theorem State.timeRsp_measures (s : State) (t1 t2 t3 : Tu) (hm : s.measuresEpoch = true) :
    (s.timeRsp t1 t2 t3).gln.ofs = ((tuDiff t1 t2 - tuDiff t3 s.time) :: s.gln.ofs).take 16 ∧
      onlyRaising s (s.timeRsp t1 t2 t3) epochRegs [52] := by
  rw [State.timeRsp, hm, if_neg (by decide)]
  dsimp only
  obtain ⟨w, hw⟩ : ∃ w, w = s.modGln fun g => { g with ofs := ((tuDiff t1 t2 - tuDiff t3 s.time) :: g.ofs).take 16 } :=
    ⟨_, rfl⟩
  obtain ⟨e, he⟩ : ∃ e, e = unsgn 32 (max (-(2 ^ 31 - 1)) (min w.epochOfs (2 ^ 31 - 1))) := ⟨_, rfl⟩
  have hon : onlyRaising s (w.setFld Fld.GLN_EPOCH_OFS_OFS 0 e) epochRegs [52] := by
    rw [hw]
    exact .setFld (by simp) rfl (.of_eq rfl rfl (.refl _ _ _))
  have hofs : (w.setFld Fld.GLN_EPOCH_OFS_OFS 0 e).gln.ofs = ((tuDiff t1 t2 - tuDiff t3 s.time) :: s.gln.ofs).take 16 := by
    rw [hw]
    rfl
  rw [← hw, ← he]
  obtain ⟨hn, hno⟩ := (w.setFld Fld.GLN_EPOCH_OFS_OFS 0 e).noteAligned_only (tuDiff t1 t2 - tuDiff t3 s.time)
  split
  · exact ⟨hofs, hon⟩
  · split
    · exact ⟨hn.trans hofs, .of_eq rfl rfl (hon.trans hno)⟩
    · exact ⟨hn.trans hofs, hon.trans hno⟩

theorem timeRsp_measures (t : Tu) (h : arrives s m 5) (hm : s.measuresEpoch = true) :
    ∃ u, exec (.timeRsp t m) s = .next u ∧
      u.gln.ofs = ((tuDiff (BitVec.ofNat 64 (leAt m 4 8)) (BitVec.ofNat 64 (leAt m 12 8)) -
        tuDiff (BitVec.ofNat 64 (leAt m 20 8)) (s.at t).time) :: s.gln.ofs).take 16 ∧
      onlyRaising s u epochRegs [52] := by
  obtain ⟨y, hy⟩ := State.glnMsg_acts h rfl t fun s =>
    s.timeRsp (BitVec.ofNat 64 (leAt m 4 8)) (BitVec.ofNat 64 (leAt m 12 8)) (BitVec.ofNat 64 (leAt m 20 8))
  have hm' : ((s.at t).glnHeard y).measuresEpoch = true := by
    rw [State.measuresEpoch, State.followsPartner, State.epochFollows, ← hm, State.measuresEpoch, State.followsPartner,
      State.epochFollows, ← s.at_attached t, ← s.at_flag t, ← s.at_fld t, ← s.at_fld t, ← s.at_gln t]
    rfl
  obtain ⟨hofs, hon⟩ := ((s.at t).glnHeard y).timeRsp_measures (BitVec.ofNat 64 (leAt m 4 8)) (BitVec.ofNat 64 (leAt m 12 8))
    (BitVec.ofNat 64 (leAt m 20 8)) hm'
  have hheard : onlyRaising (s.at t) ((s.at t).glnHeard y) epochRegs [52] := .of_eq rfl rfl (.refl _ _ _)
  obtain ⟨u, hu, hr, hon'⟩ := s.done_onlyRaising (x := t) (hheard.trans hon)
  refine ⟨u, ?_, ?_, hon'⟩
  · rw [exec, execTimeRsp, State.when_eq h.1, hy]
    exact hu
  · rw [hr.gln, hofs, ← s.at_gln t]
    rfl

theorem glnStep_taken (t : Tu) (h : arrives s m 7) (hf : s.followsPartner = true) :
    ∃ u, exec (.glnStep t m) s = .next u ∧ u.tlk.stepFrame = some (BitVec.ofNat 48 (leAt m 4 6)) ∧
      u.tlk.step = some (tuDiff (BitVec.ofNat 64 (leAt m 10 8)) (tickTime s.k (BitVec.ofNat 48 (leAt m 4 6)))) ∧
      onlyRegs s u [] := by
  obtain ⟨y, hy⟩ := State.glnMsg_acts h rfl t fun s =>
    if s.followsPartner then
      { s with tlk := { s.tlk with
          step := some (tuDiff (BitVec.ofNat 64 (leAt m 10 8)) (tickTime s.k (BitVec.ofNat 48 (leAt m 4 6)))),
          stepFrame := some (BitVec.ofNat 48 (leAt m 4 6)) } }
    else s
  have hf' : ((s.at t).glnHeard y).followsPartner = true := by
    rw [State.followsPartner, State.epochFollows, ← hf, State.followsPartner,
      State.epochFollows, ← s.at_attached t, ← s.at_flag t, ← s.at_fld t, ← s.at_fld t]
    rfl
  rw [if_pos hf'] at hy
  obtain ⟨hd, hon⟩ := State.done_heard (s := s) (x := t) (y := y) (but := []) (.of_eq
    (t := { (s.at t).glnHeard y with tlk := { ((s.at t).glnHeard y).tlk with
          step := some (tuDiff (BitVec.ofNat 64 (leAt m 10 8)) (tickTime ((s.at t).glnHeard y).k (BitVec.ofNat 48 (leAt m 4 6)))),
          stepFrame := some (BitVec.ofNat 48 (leAt m 4 6)) } }) rfl rfl (.refl _ _)) rfl
  refine ⟨_, ?_, rfl, ?_, hon⟩
  · rw [exec, execGlnStep, State.when_eq h.1, hy]
    exact hd
  · rw [← s.at_k t]
    rfl

/-! ### A carried SYNC -/

theorem glnSync_waits (t : Tu) (h : arrives s m 6) (hatt : s.attached = true)
    (hts : tuLe (tuAdd (s.at t).time (ns 64)) (BitVec.ofNat 64 (leAt m 4 8)) = true) :
    ∃ u, exec (.glnSync t m) s = .next u ∧ syncWaits u (BitVec.ofNat 64 (leAt m 4 8)) 5 true ∧ onlyRegs s u [] := by
  obtain ⟨y, hy⟩ := State.glnMsg_acts h rfl t fun s =>
    if !s.attached then s
    else if tuLe (tuAdd s.time (ns 64)) (BitVec.ofNat 64 (leAt m 4 8)) then s.syncAt (BitVec.ofNat 64 (leAt m 4 8)) 5 true
    else (s.bump Fld.GLN_SYNC_DROP_COUNT 0 1).raise0 53
  have hatt' : ((s.at t).glnHeard y).attached = true := (s.at_attached t).trans hatt
  rw [hatt', if_neg (by decide)] at hy
  obtain ⟨hd, hon⟩ := State.done_heard (s := s) (x := t) (y := y) (but := []) (.of_eq
    (t := ((s.at t).glnHeard y).syncAt (BitVec.ofNat 64 (leAt m 4 8)) 5 true) rfl rfl (.refl _ _)) rfl
  refine ⟨_, ?_, mem_syncIns _ _, hon⟩
  rw [exec, execGlnSync, State.when_eq h.1]
  refine (congrArg s.done (hy.trans (if_pos hts))).trans ?_
  exact hd

theorem glnSync_dropped (t : Tu) (h : arrives s m 6) (hatt : s.attached = true)
    (hts : tuLe (tuAdd (s.at t).time (ns 64)) (BitVec.ofNat 64 (leAt m 4 8)) = false)
    (hlt : s.fld Fld.GLN_SYNC_DROP_COUNT 0 < 2 ^ 32 - 1) (hk : s.fld Fld.EVT_ROUTE_KIND 53 ≠ 1) :
    ∃ u, exec (.glnSync t m) s = .next u ∧ u.sync = s.sync ∧
      u.fld Fld.GLN_SYNC_DROP_COUNT 0 = s.fld Fld.GLN_SYNC_DROP_COUNT 0 + 1 ∧ u.evtStatus 53 = true ∧
      onlyRaising s u [⟨.GLN_SYNC_DROP, 0⟩] [53] := by
  obtain ⟨y, hy⟩ := State.glnMsg_acts h rfl t fun s =>
    if !s.attached then s
    else if tuLe (tuAdd s.time (ns 64)) (BitVec.ofNat 64 (leAt m 4 8)) then s.syncAt (BitVec.ofNat 64 (leAt m 4 8)) 5 true
    else (s.bump Fld.GLN_SYNC_DROP_COUNT 0 1).raise0 53
  have hatt' : ((s.at t).glnHeard y).attached = true := (s.at_attached t).trans hatt
  have hts' : tuLe (tuAdd ((s.at t).glnHeard y).time (ns 64)) (BitVec.ofNat 64 (leAt m 4 8)) = false := hts
  rw [hatt', if_neg (by decide), hts', if_neg (by decide)] at hy
  have hw : onlyRegs (s.at t) (((s.at t).glnHeard y).bump Fld.GLN_SYNC_DROP_COUNT 0 1) [⟨.GLN_SYNC_DROP, 0⟩] :=
    .bump (by simp) (((s.at t).glnHeard_only y).mono (by simp))
  obtain ⟨u, hu, hr⟩ := State.done_raisedIf (s := s) (c := True) (k := 53) (causes := 1) (info := 0) hw rfl rfl
  refine ⟨u, ?_, ?_, ?_, hr.status trivial (State.raisable_hub rfl hk), hr.only⟩
  · rw [exec, execGlnSync, State.when_eq h.1]
    refine (congrArg s.done hy).trans ?_
    rw [if_pos trivial] at hu
    exact hu
  · rw [hr.raises.sync]
    exact (show _ = (s.at t).sync from rfl).trans (State.at_sync s t)
  · rw [hr.fld _ _ rfl, State.fld_bump_lt _ _ _ (by decide) (by rw [State.glnHeard_fld, State.at_fld]; exact hlt),
      State.glnHeard_fld, State.at_fld]

/-- Settles O50. -/
theorem twinTimeIsFollowed : Obligations.TwinTimeIsFollowed :=
  ⟨fun _ t t3 _ h hr => timeReq_answers t t3 h hr, fun _ t _ h hm => timeRsp_measures t h hm,
    fun _ t _ h hf => glnStep_taken t h hf, fun _ t _ h hatt =>
      ⟨glnSync_waits t h hatt, glnSync_dropped t h hatt⟩⟩

end Sys2Proof.Machine
end

section
/-! O51: the records of the two parts are compared (R373). -/

namespace Sys2Proof.Machine

variable {s t u w : State} {but : List Reg} {srcs : List Nat} {m : List Byte}

/-! ### The lists of records -/

theorem recOf_frame (l : List FrameRec) (f : Frame) : (recOf l f).frame = f := by
  rw [recOf]
  cases h : l.find? fun r => r.frame == f with
  | none => rfl
  | some r => exact eq_of_beq (List.find?_some (p := fun r : FrameRec => r.frame == f) h)

theorem recOf_recPut (l : List FrameRec) (r : FrameRec) : recOf (recPut l r) r.frame = r := by
  rw [recOf, recPut, List.find?_cons_of_pos (by rw [beq_self_eq_true]), Option.getD_some]

/-! ### A comparison -/

/-- The records of frame `f` with their DIGESTs taken out. -/
def State.digestsTaken (s : State) (f : Frame) : State :=
  s.modGln fun g => { g with own := recPut g.own { recOf g.own f with digest := none },
                             partner := recPut g.partner { recOf g.partner f with digest := none } }

/-- A frame whose own record holds no CHSUM has only its DIGESTs compared. -/
theorem foldChsum_none (s : State) (f : Frame) (l : List Nat) (h : (recOf s.gln.own f).chsum = []) :
    l.foldl (fun s c =>
      let a := recOf s.gln.own f
      let b := recOf s.gln.partner f
      match a.chsum.find? (fun e => e.1 == c), b.chsum.find? (fun e => e.1 == c) with
      | some x, some y =>
        (s.modGln fun g =>
          { g with own := recPut g.own { a with chsum := a.chsum.filter fun e => e.1 != c },
                   partner := recPut g.partner { b with chsum := b.chsum.filter fun e => e.1 != c } }).cmpChsum f c x.2 y.2
      | _, _ => s) s = s := by
  induction l with
  | nil => rfl
  | cons c l ih =>
    rw [List.foldl_cons]
    dsimp only
    rw [h]
    exact ih

theorem State.cmpFrame_noRecord (s : State) (f : Frame) (hown : s.gln.own = []) : s.cmpFrame f = s := by
  have hrec : recOf s.gln.own f = ⟨f, none, []⟩ := by rw [hown]; rfl
  unfold State.cmpFrame
  dsimp only
  split
  · rfl
  · rw [hrec]
    exact foldChsum_none s f _ (by rw [hrec])

theorem State.cmpDigest_gln (s : State) (f : Frame) (a b : Word × Nat × Nat) : (s.cmpDigest f a b).gln = s.gln := by
  have hv : ∀ (z : State) bit far, (z.cmpValue f bit 0 far).gln = z.gln := fun z bit far => by
    rw [State.cmpValue]
    split
    · exact (State.raise_raises _ _ _).gln
    · rfl
  unfold State.cmpDigest
  dsimp only
  rw [hv, hv]
  split
  · rfl
  · exact (State.raise_raises _ _ _).gln

theorem State.cmpFrame_digests (s : State) {f : Frame} {x y : Word × Nat × Nat} (hc : s.compares f = true)
    (hx : (recOf s.gln.own f).digest = some x) (hy : (recOf s.gln.partner f).digest = some y)
    (hsum : (recOf s.gln.own f).chsum = []) : s.cmpFrame f = (s.digestsTaken f).cmpDigest f x y := by
  unfold State.cmpFrame
  dsimp only
  rw [hc, if_neg (by decide), hx, hy]
  refine foldChsum_none _ f _ ?_
  rw [State.cmpDigest_gln]
  have hr := recOf_recPut s.gln.own { recOf s.gln.own f with digest := none }
  rw [show ({ recOf s.gln.own f with digest := none } : FrameRec).frame = f from recOf_frame _ _] at hr
  exact (congrArg FrameRec.chsum hr).trans hsum

/-- Counts that agree are within every tolerance. -/
theorem State.cmpDigest_sameCounts (s : State) (f : Frame) (c d : Word) (n k : Nat) :
    s.cmpDigest f (c, n, k) (d, n, k) =
      if c = d then s else ((s.bump Fld.GLN_CMP_CTRL_CNT_COUNT 0 1).cmpLast f).raise0 54 := by
  have hfar : ∀ (x : Nat) lim, ¬ decide (lim < ((x : Int) - x).natAbs) = true := fun x lim => by
    rw [Int.sub_self, decide_eq_true_iff]
    exact Nat.not_lt_zero lim
  unfold State.cmpDigest State.cmpValue
  dsimp only
  rw [if_neg (hfar _ _), if_neg (hfar _ _)]

/-! ### Commands -/

theorem State.at_compares (s : State) (x : Tu) (f : Frame) : (s.at x).compares f = s.compares f := by
  rw [State.compares, State.compares, State.at_flag, State.at_glnUp, State.at_gln, State.at_frame]

/-- The partner's DIGEST in its record. -/
def State.digestNoted (s : State) (f : Frame) (d : Word × Nat × Nat) : State :=
  s.modGln fun g => { g with partner := recPut g.partner { (recOf g.partner f) with digest := some d } }

theorem State.digestNoted_compares (s : State) (y : Tab Nat) (f g : Frame) (d : Word × Nat × Nat) :
    ((s.glnHeard y).digestNoted f d).compares g = s.compares g := by
  rw [State.compares, State.compares]
  rfl

theorem State.digestsTaken_only (s : State) (y : Tab Nat) (f g : Frame) (d : Word × Nat × Nat) :
    onlyRegs s (((s.glnHeard y).digestNoted f d).digestsTaken g) [] := .of_eq rfl rfl (.refl s _)

theorem State.glnHeard_paired (s : State) (x : Tu) (y : Tab Nat) (hatt : s.attached = true) (hmode : s.glnMode ≠ 0) :
    ((s.at x).glnHeard y).attached = true ∧ ((s.at x).glnHeard y).glnMode ≠ 0 :=
  ⟨(s.at_attached x).trans hatt, by rw [State.glnMode, State.glnHeard_fld, State.at_fld]; exact hmode⟩

/-- A DIGEST whose own record is there, and which counts the same. -/
theorem exec_digest {r : FrameRec} {crc : Word} (t : Tu) (h : arrives s m 8) (hatt : s.attached = true) (hmode : s.glnMode ≠ 0)
    (hf : r.frame = BitVec.ofNat 48 (leAt m 4 6)) (hown : s.gln.own = [r]) (hsum : r.chsum = [])
    (hdig : r.digest = some (crc, leAt m 14 2, leAt m 16 2)) (hc : s.compares r.frame = true) :
    ∃ w, onlyRegs (s.at t) w [] ∧ exec (.digest t m) s = s.done (if crc = BitVec.ofNat 32 (leAt m 10 4) then w else
      ((w.bump Fld.GLN_CMP_CTRL_CNT_COUNT 0 1).cmpLast r.frame).raise0 54) := by
  obtain ⟨d, hd⟩ : ∃ d, d = (BitVec.ofNat 32 (leAt m 10 4), leAt m 14 2, leAt m 16 2) := ⟨_, rfl⟩
  obtain ⟨y, hy⟩ := State.glnMsg_acts h rfl t fun s =>
    if s.attached ∧ s.glnMode ≠ 0 then (s.digestNoted (BitVec.ofNat 48 (leAt m 4 6)) d).cmpFrame (BitVec.ofNat 48 (leAt m 4 6))
    else s
  obtain ⟨z, hz⟩ : ∃ z, z = ((s.at t).glnHeard y).digestNoted r.frame d := ⟨_, rfl⟩
  have hzown : z.gln.own = [r] := by rw [hz]; exact (congrArg Gln.own (s.at_gln t)).trans hown
  have hrec : recOf z.gln.own r.frame = r := by
    rw [hzown, recOf, List.find?_cons_of_pos (by rw [beq_self_eq_true]), Option.getD_some]
  have hpart : (recOf z.gln.partner r.frame).digest = some d := by
    have hr := recOf_recPut ((s.at t).glnHeard y).gln.partner
      { recOf ((s.at t).glnHeard y).gln.partner r.frame with digest := some d }
    rw [show ({ recOf ((s.at t).glnHeard y).gln.partner r.frame with digest := some d } : FrameRec).frame = r.frame from
      recOf_frame _ _] at hr
    rw [hz]
    exact congrArg FrameRec.digest hr
  have hzc : z.compares r.frame = true := by
    rw [hz, State.digestNoted_compares, State.at_compares]
    exact hc
  have hcmp := z.cmpFrame_digests hzc (by rw [hrec, hdig]) hpart (by rw [hrec, hsum])
  rw [hd, State.cmpDigest_sameCounts] at hcmp
  rw [← hf, ← hz, if_pos (s.glnHeard_paired t y hatt hmode), hcmp] at hy
  refine ⟨z.digestsTaken r.frame, by rw [hz]; exact (s.at t).digestsTaken_only _ _ _ _, ?_⟩
  rw [exec, execDigest, State.when_eq h.1]
  refine congrArg s.done (Eq.trans ?_ hy)
  rw [hd, hf]
  rfl

theorem digest_compared {r : FrameRec} {crc : Word} (t : Tu) (h : arrives s m 8) (hatt : s.attached = true)
    (hmode : s.glnMode ≠ 0) (hf : r.frame = BitVec.ofNat 48 (leAt m 4 6)) (hown : s.gln.own = [r]) (hsum : r.chsum = [])
    (hdig : r.digest = some (crc, leAt m 14 2, leAt m 16 2)) (hc : s.compares r.frame = true) :
    (crc = BitVec.ofNat 32 (leAt m 10 4) → ∃ u, exec (.digest t m) s = .next u ∧ onlyRegs s u []) ∧
    (crc ≠ BitVec.ofNat 32 (leAt m 10 4) → s.fld Fld.GLN_CMP_CTRL_CNT_COUNT 0 < 255 →
      s.fld Fld.EVT_ROUTE_KIND 54 ≠ 1 →
      ∃ u, exec (.digest t m) s = .next u ∧
        u.fld Fld.GLN_CMP_CTRL_CNT_COUNT 0 = s.fld Fld.GLN_CMP_CTRL_CNT_COUNT 0 + 1 ∧
        u.frameOf .GLN_CMP_LAST_LO .GLN_CMP_LAST_HI 0 = r.frame ∧ u.evtStatus 54 = true ∧
        onlyRaising s u [⟨.GLN_CMP_CTRL_CNT, 0⟩, ⟨.GLN_CMP_LAST_LO, 0⟩, ⟨.GLN_CMP_LAST_HI, 0⟩] [54]) := by
  obtain ⟨w, hw, he⟩ := exec_digest t h hatt hmode hf hown hsum hdig hc
  refine ⟨fun heq => ?_, fun hne hlt hk => ?_⟩
  · obtain ⟨hd, hon⟩ := State.done_onlyRegs hw rfl
    rw [if_pos heq] at he
    exact ⟨w, he.trans hd, hon⟩
  · rw [if_neg hne] at he
    have hon : onlyRegs (s.at t) ((w.bump Fld.GLN_CMP_CTRL_CNT_COUNT 0 1).cmpLast r.frame)
        [⟨.GLN_CMP_CTRL_CNT, 0⟩, ⟨.GLN_CMP_LAST_LO, 0⟩, ⟨.GLN_CMP_LAST_HI, 0⟩] :=
      .setPair (by simp) (by simp) (.bump (by simp) (hw.mono (by simp)))
    obtain ⟨u, hu, hr⟩ := State.done_raisedIf (s := s) (c := True) (k := 54) (causes := 1) (info := 0) hon rfl rfl
    have hwf : w.fld Fld.GLN_CMP_CTRL_CNT_COUNT 0 = s.fld Fld.GLN_CMP_CTRL_CNT_COUNT 0 :=
      (State.fld_of_reg (hw.1 _ _ (by simp))).trans (s.at_fld t _ _)
    refine ⟨u, ?_, ?_, ?_, hr.status trivial (State.raisable_hub rfl hk), hr.only⟩
    · rw [if_pos trivial] at hu
      exact he.trans hu
    · rw [hr.fld _ _ rfl, State.cmpLast, State.setFrame, State.setPair, State.fld_setReg_ne _ _ _ _ _ _ (by decide),
        State.fld_setReg_ne _ _ _ _ _ _ (by decide), State.fld_bump_lt _ _ _ (by decide) (by rw [hwf]; exact Nat.lt_of_lt_of_le hlt (by decide)), hwf]
    · rw [State.frameOf, State.pair, hr.raises.reg _ _ rfl, hr.raises.reg _ _ rfl]
      exact State.frameOf_setFrame _ _ _ (by decide)

/-- The partner's CHSUM in its record. -/
def State.chsumNoted (s : State) (f : Frame) (c : Nat) (v : List (Int × Nat)) : State :=
  s.modGln fun g => { g with partner := recPut g.partner { recOf g.partner f with chsum := tins (recOf g.partner f).chsum c v } }

theorem chsum_waits (t : Tu) (h : arrives s m 9) (hatt : s.attached = true) (hmode : s.glnMode ≠ 0) (hsub : glnSub m < 4)
    (hown : s.gln.own = []) :
    ∃ u, exec (.chsum t m) s = .next u ∧
      tget [] (recOf u.gln.partner (s.frameNear (leAt m 4 4))).chsum (glnSub m) =
        ((List.range 4).map fun i => (sgn 16 (leAt m (8 + 4 * i) 2), leAt m (10 + 4 * i) 2)) ∧ onlyRegs s u [] := by
  obtain ⟨v, hv⟩ : ∃ v, v = ((List.range 4).map fun i => (sgn 16 (leAt m (8 + 4 * i) 2), leAt m (10 + 4 * i) 2)) := ⟨_, rfl⟩
  obtain ⟨f, hf⟩ : ∃ f, f = s.frameNear (leAt m 4 4) := ⟨_, rfl⟩
  obtain ⟨y, hy⟩ := State.glnMsg_acts h rfl t fun s =>
    if s.attached ∧ s.glnMode ≠ 0 ∧ glnSub m < 4 then
      (s.chsumNoted (s.frameNear (leAt m 4 4)) (glnSub m) v).cmpFrame (s.frameNear (leAt m 4 4))
    else s
  have hnear : ((s.at t).glnHeard y).frameNear (leAt m 4 4) = f := by
    rw [hf, State.frameNear, State.frameNear, ← s.at_frame t]
    rfl
  obtain ⟨z, hz⟩ : ∃ z, z = ((s.at t).glnHeard y).chsumNoted f (glnSub m) v := ⟨_, rfl⟩
  have hzown : z.gln.own = [] := by rw [hz]; exact (congrArg Gln.own (s.at_gln t)).trans hown
  rw [hnear, ← hz, if_pos ⟨(s.glnHeard_paired t y hatt hmode).1, (s.glnHeard_paired t y hatt hmode).2, hsub⟩,
    z.cmpFrame_noRecord f hzown] at hy
  obtain ⟨hd, hon⟩ := State.done_onlyRegs (s := s) (x := t) (t := z) (but := []) (by rw [hz]; exact .of_eq rfl rfl (.refl _ _)) rfl
  refine ⟨z, ?_, ?_, hon⟩
  · rw [exec, execChsum, State.when_eq h.1]
    refine (congrArg s.done (Eq.trans ?_ hy)).trans hd
    rw [hv]
    rfl
  · have hr := recOf_recPut ((s.at t).glnHeard y).gln.partner
      { recOf ((s.at t).glnHeard y).gln.partner f with
        chsum := tins (recOf ((s.at t).glnHeard y).gln.partner f).chsum (glnSub m) v }
    rw [show ({ recOf ((s.at t).glnHeard y).gln.partner f with
        chsum := tins (recOf ((s.at t).glnHeard y).gln.partner f).chsum (glnSub m) v } : FrameRec).frame = f from
      recOf_frame _ _] at hr
    rw [← hf, ← hv, hz]
    refine (congrArg (fun r => tget [] (FrameRec.chsum r) (glnSub m)) hr).trans ?_
    rw [tget_tins, if_pos rfl]

/-- The own records without that of frame `f`. -/
def State.ownDropped (s : State) (f : Frame) : State :=
  s.modGln fun g => { g with own := g.own.filter fun x => x.frame != f }

theorem State.cmpMiss_counts {r : FrameRec} (hown : s.gln.own = [r]) (hdig : r.digest.isSome = true) (hsum : r.chsum = [])
    (hage : 4 ≤ (s.frame - r.frame).toNat) (hen : s.flag Fld.GLN_CMP_CFG_EN 0 = true) (hup : s.glnUp = true)
    (hskip : s.gln.skip.contains r.frame = false) :
    s.cmpMiss = (((s.ownDropped r.frame).cmpLast r.frame).bump Fld.GLN_CMP_MISS_CNT_COUNT 0 1).raise0 56 := by
  rw [State.cmpMiss, hown, List.find?_cons_of_pos (by rw [hdig, decide_eq_true hage]; rfl)]
  dsimp only
  rw [hen, hup, hskip, hdig, hsum, if_neg (by decide)]
  rfl

theorem glnCmpMiss_counts {r : FrameRec} (t : Tu) (ha : s.alive = true) (hown : s.gln.own = [r])
    (hdig : r.digest.isSome = true) (hsum : r.chsum = []) (hage : 4 ≤ (s.frame - r.frame).toNat)
    (hen : s.flag Fld.GLN_CMP_CFG_EN 0 = true) (hup : s.glnUp = true) (hskip : s.gln.skip.contains r.frame = false)
    (hlt : s.fld Fld.GLN_CMP_MISS_CNT_COUNT 0 < 255) (hk : s.fld Fld.EVT_ROUTE_KIND 56 ≠ 1) :
    ∃ u, exec (.glnCmpMiss t) s = .next u ∧ u.gln.own = [] ∧
      u.fld Fld.GLN_CMP_MISS_CNT_COUNT 0 = s.fld Fld.GLN_CMP_MISS_CNT_COUNT 0 + 1 ∧ u.evtStatus 56 = true ∧
      onlyRaising s u [⟨.GLN_CMP_MISS_CNT, 0⟩, ⟨.GLN_CMP_LAST_LO, 0⟩, ⟨.GLN_CMP_LAST_HI, 0⟩] [56] := by
  have hmiss := (s.at t).cmpMiss_counts (by rw [State.at_gln]; exact hown) hdig hsum (by rw [State.at_frame]; exact hage)
    (by rw [State.at_flag]; exact hen) (by rw [State.at_glnUp]; exact hup) (by rw [State.at_gln]; exact hskip)
  obtain ⟨w, hw⟩ : ∃ w, w = ((s.at t).ownDropped r.frame).cmpLast r.frame := ⟨_, rfl⟩
  have hwown : w.gln.own = [] := by
    rw [hw]
    refine (congrArg (fun g => List.filter (fun x : FrameRec => x.frame != r.frame) (Gln.own g)) (s.at_gln t)).trans ?_
    rw [hown, List.filter_cons_of_neg (by rw [bne_self_eq_false]; decide), List.filter_nil]
  have hwf : w.fld Fld.GLN_CMP_MISS_CNT_COUNT 0 = s.fld Fld.GLN_CMP_MISS_CNT_COUNT 0 := by
    rw [hw, State.cmpLast, State.setFrame, State.setPair, State.fld_setReg_ne _ _ _ _ _ _ (by decide),
      State.fld_setReg_ne _ _ _ _ _ _ (by decide), ← s.at_fld t]
    rfl
  have hon : onlyRegs (s.at t) (w.bump Fld.GLN_CMP_MISS_CNT_COUNT 0 1)
      [⟨.GLN_CMP_MISS_CNT, 0⟩, ⟨.GLN_CMP_LAST_LO, 0⟩, ⟨.GLN_CMP_LAST_HI, 0⟩] := by
    rw [hw]
    have hdrop : onlyRegs (s.at t) ((s.at t).ownDropped r.frame)
        [⟨.GLN_CMP_MISS_CNT, 0⟩, ⟨.GLN_CMP_LAST_LO, 0⟩, ⟨.GLN_CMP_LAST_HI, 0⟩] := .of_eq rfl rfl (.refl _ _)
    exact .bump (by simp) (.setPair (by simp) (by simp) hdrop)
  rw [← hw] at hmiss
  obtain ⟨u, hu, hr⟩ := State.done_raisedIf (s := s) (c := True) (k := 56) (causes := 1) (info := 0) hon rfl rfl
  refine ⟨u, ?_, ?_, ?_, hr.status trivial (State.raisable_hub rfl hk), hr.only⟩
  · rw [if_pos trivial] at hu
    rw [exec, execGlnCmpMiss, State.when_eq ha, hmiss]
    exact hu
  · rw [hr.raises.gln]
    exact hwown
  · rw [hr.fld _ _ rfl, State.fld_bump_lt _ _ _ (by decide) (by rw [hwf]; exact Nat.lt_of_lt_of_le hlt (by decide)), hwf]

/-- Settles O51. -/
theorem twinRecordsAreCompared : Obligations.TwinRecordsAreCompared :=
  ⟨fun _ t _ _ _ h hatt hmode hf hown _ hsum hdig hc => digest_compared t h hatt hmode hf hown hsum hdig hc,
    fun _ t _ h hatt hmode hsub hown => chsum_waits t h hatt hmode hsub hown,
    fun _ t _ ha hown hdig hsum hage hen hup hskip hlt hk =>
      glnCmpMiss_counts t ha hown hdig hsum hage hen hup hskip hlt hk⟩

end Sys2Proof.Machine
end

section
/-! O52: BEAT, TAKE, discarded messages and a partner's conversions (R304, R365, R374, R375, R377). -/

namespace Sys2Proof.Machine

variable {s t u w : State} {but : List Reg} {srcs : List Nat} {m : List Byte}

/-! ### BEAT -/

/-- The staged amounts of the queues. -/
abbrev stagedRegs : List Reg := (List.range 64).map fun q => ⟨.DMA_Q_STAGED, q⟩

theorem State.discardCovered_only (s : State) {q : Nat} (hq : q < 64) : onlyRegs s (s.discardCovered q) stagedRegs :=
  .setFld (List.mem_map.2 ⟨q, List.mem_range.2 hq, rfl⟩) (.modQueue (.refl _ _))

/-- What the primary has delivered leaves the staging areas of a standby part. -/
theorem State.discardAll_only (s : State) :
    onlyRegs s (s.streamQs.foldl (fun s q => if s.held then s.discardCovered q else s) s) stagedRegs := by
  refine foldl_rel_mem (R := fun a b => onlyRegs a b stagedRegs) (fun a => .refl a _) (fun h g => h.trans g) ?_ s
  intro a q hq
  have hlt : q < 64 := List.mem_range.1 (List.mem_of_mem_filter hq)
  exact .ite (a.discardCovered_only hlt) (.refl _ _)

/-- What a BEAT tells of the primary. -/
def State.beatNoted (s : State) (bad : Nat) : State :=
  s.modGln fun g => { g with failCause := g.failCause ||| bad, declared := g.declared && bad != 0 }

/-- The count of missed BEATs restarts. -/
def State.beatSeen (s : State) : State := s.modGln fun g => { g with beatAge := 0 }

/-- The registers that a BEAT changes on a standby part. -/
abbrev beatRegs : List Reg := ⟨.GLN_DT_LO, 0⟩ :: ⟨.GLN_DT_HI, 0⟩ :: stagedRegs

theorem not_mem_stagedRegs {n : RegName} {i : Nat} (hn : n ≠ .DMA_Q_STAGED) : (⟨n, i⟩ : Reg) ∉ stagedRegs := by
  intro h
  obtain ⟨q, -, he⟩ := List.mem_map.1 h
  exact hn (congrArg Reg.n he).symm

theorem State.discardAll_gln (l : List Nat) (s : State) :
    (l.foldl (fun s q => if s.held then s.discardCovered q else s) s).gln = s.gln :=
  foldl_keeps State.gln (fun a q => by split <;> rfl) l s

theorem State.beat_standby (s : State) (m : List Byte) (hrole : 2 ≤ s.role) (hmode : s.glnMode = 2) :
    (s.beat m).gln.beatAge = 0 ∧ (s.beat m).frameOf .GLN_DT_LO .GLN_DT_HI 0 = BitVec.ofNat 48 (leAt m 10 6) ∧
      onlyRegs s (s.beat m) beatRegs := by
  obtain ⟨w, hw⟩ : ∃ w, w = s.beatSeen.setFrame .GLN_DT_LO .GLN_DT_HI 0 (BitVec.ofNat 48 (leAt m 10 6)) := ⟨_, rfl⟩
  have hwq : s.streamQs = w.streamQs := by
    rw [hw]
    refine List.filter_congr fun q _ => ?_
    rw [State.isStream, State.isStream, State.qKind, State.qKind, State.setFrame, State.setPair,
      State.fld_setReg_ne _ _ _ _ _ _ (by decide), State.fld_setReg_ne _ _ _ _ _ _ (by decide)]
    rfl
  have hb : s.beat m = (w.streamQs.foldl (fun s q => if s.held then s.discardCovered q else s) w).beatNoted
      ((!(glnSub m).testBit 0).toNat * 2 + (!(glnSub m).testBit 2).toNat * 4) := by
    rw [State.beat, if_neg (by omega), if_pos hmode, ← hwq, hw]
    rfl
  have hon := w.discardAll_only
  refine ⟨?_, ?_, ?_⟩
  · rw [hb]
    refine (congrArg Gln.beatAge (State.discardAll_gln w.streamQs w)).trans ?_
    rw [hw]
    rfl
  · rw [hb]
    refine Eq.trans (b := w.frameOf .GLN_DT_LO .GLN_DT_HI 0) ?_ ?_
    · rw [State.frameOf, State.frameOf, State.pair, State.pair, ← hon.1 .GLN_DT_LO 0 (not_mem_stagedRegs (by decide)),
        ← hon.1 .GLN_DT_HI 0 (not_mem_stagedRegs (by decide))]
      rfl
    rw [hw]
    exact State.frameOf_setFrame _ _ _ (by decide)
  · rw [hb]
    have hs : onlyRegs s w beatRegs := by
      rw [hw]
      exact .setPair (.head _) (.tail _ (.head _)) (.of_eq rfl rfl (.refl s _))
    exact .of_eq rfl rfl (hs.trans (hon.mono fun _ h => .tail _ (.tail _ h)))

theorem State.glnHeard_attached (s : State) (x : Tu) (y : Tab Nat) (hatt : s.attached = true) :
    ((s.at x).glnHeard y).attached = true := (s.at_attached x).trans hatt

theorem State.glnHeard_role (s : State) (x : Tu) (y : Tab Nat) : ((s.at x).glnHeard y).role = s.role := by
  rw [State.role, State.glnHeard_fld, State.at_fld, State.role]

/-- A BEAT that arrives. -/
theorem exec_beat (t : Tu) (h : arrives s m 3) (hatt : s.attached = true) :
    ∃ y, exec (.beat t m) s = s.done (((s.at t).glnHeard y).beat m) := by
  obtain ⟨y, hy⟩ := State.glnMsg_acts h rfl t fun s => if s.attached then s.beat m else s
  rw [s.glnHeard_attached t y hatt, if_pos rfl] at hy
  exact ⟨y, by rw [exec, execBeat, State.when_eq h.1, hy]⟩

theorem beat_seen (t : Tu) (h : arrives s m 3) (hatt : s.attached = true) (hrole : s.role < 2) :
    ∃ u, exec (.beat t m) s = .next u ∧ u.gln.beatAge = 0 ∧ onlyRegs s u [] := by
  obtain ⟨y, hy⟩ := exec_beat t h hatt
  rw [State.beat, if_pos (by rw [State.glnHeard_role]; exact hrole)] at hy
  obtain ⟨hd, hon⟩ := State.done_heard (s := s) (x := t) (y := y) (w := ((s.at t).glnHeard y).beatSeen) (but := [])
    (.of_eq rfl rfl (.refl ((s.at t).glnHeard y) _)) rfl
  exact ⟨_, hy.trans hd, rfl, hon⟩

theorem beat_shown (t : Tu) (h : arrives s m 3) (hatt : s.attached = true) (hrole : 2 ≤ s.role) (hmode : s.glnMode = 2) :
    ∃ u, exec (.beat t m) s = .next u ∧ u.gln.beatAge = 0 ∧
      u.frameOf .GLN_DT_LO .GLN_DT_HI 0 = BitVec.ofNat 48 (leAt m 10 6) ∧ onlyRegs s u beatRegs := by
  obtain ⟨y, hy⟩ := exec_beat t h hatt
  obtain ⟨h1, h2, h3⟩ := ((s.at t).glnHeard y).beat_standby m (by rw [State.glnHeard_role]; exact hrole)
    (by rw [State.glnMode, State.glnHeard_fld, State.at_fld]; exact hmode)
  obtain ⟨hd, hon⟩ := State.done_heard (s := s) (x := t) h3 (by decide)
  exact ⟨_, hy.trans hd, h1, h2, hon⟩

/-! ### TAKE -/

/-- The former primary steps down at its next tick. -/
def State.deposing (s : State) : State := s.modGln fun g => { g with deposed := true }

theorem take_deposes (t : Tu) (h : arrives s m 0xB) (hrole : s.role = 1) (hk : s.fld Fld.EVT_ROUTE_KIND 59 ≠ 1) :
    ∃ u, exec (.take t m) s = .next u ∧ u.gln.deposed = true ∧ u.role = 1 ∧ u.evtStatus 59 = true ∧
      onlyRaising s u [] [59] := by
  obtain ⟨y, hy⟩ := State.glnMsg_acts h rfl t fun s => if s.role = 1 then s.deposing.raise0 59 else s
  rw [if_pos ((State.glnHeard_role _ _ _).trans hrole)] at hy
  obtain ⟨w, hw⟩ : ∃ w, w = ((s.at t).glnHeard y).deposing := ⟨_, rfl⟩
  have hon : onlyRegs (s.at t) w [] := by
    rw [hw]
    exact .of_eq rfl rfl ((s.at t).glnHeard_only y)
  obtain ⟨u, hu, hr⟩ := State.done_raisedIf (s := s) (c := True) (k := 59) (causes := 1) (info := 0) hon rfl rfl
  refine ⟨u, ?_, ?_, ?_, hr.status trivial (State.raisable_hub rfl hk), hr.only⟩
  · rw [if_pos trivial] at hu
    rw [exec, execTake, State.when_eq h.1]
    refine (congrArg s.done hy).trans ?_
    rw [← hw]
    exact hu
  · rw [hr.raises.gln, hw]
    rfl
  · rw [State.role, hr.fld _ _ rfl, hw]
    exact (State.glnHeard_role s t y).trans hrole

/-! ### Discarded messages -/

theorem glnMsgDiscard_crc (t : Tu) (ha : s.alive = true) (hrx : s.glnRx = true) (hcrc : glnCrcOk m = false)
    (hlt : s.fld Fld.GLN_ERR_CRC 0 < 2 ^ 16 - 1) :
    ∃ u, exec (.glnMsgDiscard t m) s = .next u ∧ u.fld Fld.GLN_ERR_CRC 0 = s.fld Fld.GLN_ERR_CRC 0 + 1 ∧
      u.gln = s.gln ∧ (s.fld Fld.GLN_ERR_CRC 0 = 0 → s.fld Fld.EVT_ROUTE_KIND 61 ≠ 1 → u.evtStatus 61 = true) ∧
      onlyRaising s u [⟨.GLN_ERR, 0⟩] [61] := by
  have hon : onlyRegs (s.at t) ((s.at t).bump Fld.GLN_ERR_CRC 0 1) [⟨.GLN_ERR, 0⟩] := .bump (.head _) (.refl _ _)
  obtain ⟨u, hu, hr⟩ := State.done_raisedIf (s := s) (c := s.fld Fld.GLN_ERR_CRC 0 = 0) (k := 61) (causes := 1) (info := 0)
    hon rfl rfl
  refine ⟨u, ?_, ?_, ?_, fun h0 hk => hr.status h0 (State.raisable_hub rfl hk), hr.only⟩
  · rw [exec, execGlnMsgDiscard, State.when_eq ha, State.glnMsg, State.at_glnRx, hrx, hcrc, if_neg (by decide),
      if_pos (by decide), State.bumpRaise, State.at_fld]
    exact hu
  · rw [hr.fld _ _ rfl, State.fld_bump_lt _ _ _ (by decide) (by rw [State.at_fld]; exact hlt), State.at_fld]
  · rw [hr.raises.gln]
    exact (show _ = (s.at t).gln from rfl).trans (State.at_gln s t)

theorem glnMsgDiscard_reserved (t : Tu) (ha : s.alive = true) (hrx : s.glnRx = true) (hcrc : glnCrcOk m = true)
    (hres : glnReserved (glnTyp m) = true) (hlt : s.fld Fld.GLN_ERR_UNKNOWN 0 < 2 ^ 16 - 1) :
    ∃ u, exec (.glnMsgDiscard t m) s = .next u ∧ u.fld Fld.GLN_ERR_UNKNOWN 0 = s.fld Fld.GLN_ERR_UNKNOWN 0 + 1 ∧
      u.gln = s.gln ∧ onlyRegs s u [⟨.GLN_ERR, 0⟩] := by
  obtain ⟨hd, hon⟩ := State.done_onlyRegs (s := s) (x := t) (t := (s.at t).bump Fld.GLN_ERR_UNKNOWN 0 1)
    (but := [⟨.GLN_ERR, 0⟩]) (.bump (.head _) (.refl _ _)) rfl
  refine ⟨(s.at t).bump Fld.GLN_ERR_UNKNOWN 0 1, ?_, ?_, (show _ = (s.at t).gln from rfl).trans (State.at_gln s t), hon⟩
  · rw [exec, execGlnMsgDiscard, State.when_eq ha, State.glnMsg, State.at_glnRx, hrx, hcrc, if_neg (by decide),
      if_neg (by decide), if_neg (fun h => h rfl), if_pos hres]
    exact hd
  · rw [State.fld_bump_lt _ _ _ (by decide) (by rw [State.at_fld]; exact hlt), State.at_fld]

/-! ### A partner's conversion -/

theorem State.at_twinOn (s : State) (x : Tu) : (s.at x).twinOn = s.twinOn := by
  rw [State.twinOn, State.twinOn, State.at_flag, State.at_attached, State.at_glnUp]

/-- The partner's results that wait. -/
def State.remoteWaits (s : State) (b : TwinRes) : State := { s with pmu := { s.pmu with remote := s.pmu.remote ++ [b] } }

/-- The own result taken out. -/
def State.localTaken (s : State) (a : TwinRes) : State := { s with pmu := { s.pmu with local_ := s.pmu.local_.erase a } }

/-- A partner's conversion that arrives. -/
theorem exec_glnPmu {b : TwinRes} (t : Tu) (h : arrives s m 0xA) (hon : s.twinOn = true)
    (hb : b = ⟨glnSub m % 2, glnSub m / 16, BitVec.ofNat 64 (leAt m 4 8), BitVec.ofNat 32 (leAt m 12 4), (s.at t).time⟩) :
    ∃ w, onlyRegs (s.at t) w [] ∧ w.pmu = s.pmu ∧ exec (.glnPmu t m) s = s.done (match s.pmu.local_.find? (s.twinPair b) with
      | some a => (w.localTaken a).twinCompare a b
      | none => w.remoteWaits b) := by
  obtain ⟨y, hy⟩ := State.glnMsg_acts h rfl t fun s =>
    s.twinRemote ⟨glnSub m % 2, glnSub m / 16, BitVec.ofNat 64 (leAt m 4 8), BitVec.ofNat 32 (leAt m 12 4), s.time⟩
  obtain ⟨w, hw⟩ : ∃ w, w = (s.at t).glnHeard y := ⟨_, rfl⟩
  have hwt : w.time = (s.at t).time := by rw [hw]; rfl
  have hwr : onlyRegs (s.at t) w [] := by rw [hw]; exact State.glnHeard_only _ _
  have hwp : w.pmu = s.pmu := by rw [hw, ← State.at_pmu s t]; rfl
  have hwon : w.twinOn = true := by rw [hw]; exact (s.at_twinOn t).trans hon
  have hpair : w.twinPair b = s.twinPair b := by
    funext a
    rw [State.twinPair, State.twinPair, State.fld_of_reg (hwr.1 _ _ (by simp)), State.at_fld]
  refine ⟨w, hwr, hwp, ?_⟩
  rw [exec, execGlnPmu, State.when_eq h.1]
  refine (congrArg s.done hy).trans ?_
  rw [← hw, hwt, ← hb, State.twinRemote, hwon, if_neg (by decide), hwp, hpair]
  cases s.pmu.local_.find? (s.twinPair b) with
  | none => rw [State.remoteWaits, hwp]
  | some a =>
    dsimp only
    rw [State.localTaken, hwp]

theorem glnPmu_waits {b : TwinRes} (t : Tu) (h : arrives s m 0xA) (hon : s.twinOn = true)
    (hb : b = ⟨glnSub m % 2, glnSub m / 16, BitVec.ofNat 64 (leAt m 4 8), BitVec.ofNat 32 (leAt m 12 4), (s.at t).time⟩)
    (hl : s.pmu.local_ = []) :
    ∃ u, exec (.glnPmu t m) s = .next u ∧ u.pmu.remote = s.pmu.remote ++ [b] ∧ onlyRegs s u [] := by
  obtain ⟨w, hw, hwp, he⟩ := exec_glnPmu t h hon hb
  rw [hl, List.find?_nil] at he
  obtain ⟨hd, hon'⟩ := State.done_onlyRegs (s := s) (x := t) (t := w.remoteWaits b) (but := []) (.of_eq rfl rfl hw) rfl
  refine ⟨_, he.trans hd, ?_, hon'⟩
  rw [← hwp]
  rfl

theorem exec_glnPmu_pair {a b : TwinRes} (t : Tu) (h : arrives s m 0xA) (hon : s.twinOn = true)
    (hb : b = ⟨glnSub m % 2, glnSub m / 16, BitVec.ofNat 64 (leAt m 4 8), BitVec.ofNat 32 (leAt m 12 4), (s.at t).time⟩)
    (hl : s.pmu.local_ = [a]) (hpair : s.twinPair b a = true) :
    ∃ w, onlyRegs (s.at t) w [] ∧ w.pmu.local_ = [] ∧ exec (.glnPmu t m) s = s.done
      (if pmuDiffers a.value b.value (s.fld Fld.PMU_TWIN_LIMIT_LSB 0) then
        (w.bump Fld.PMU_TWIN_FAIL_CNT_COUNT 0 1).raise0 378 else w) := by
  obtain ⟨w, hw, hwp, he⟩ := exec_glnPmu t h hon hb
  rw [hl, List.find?_cons_of_pos hpair] at he
  have hlim : (w.localTaken a).fld Fld.PMU_TWIN_LIMIT_LSB 0 = s.fld Fld.PMU_TWIN_LIMIT_LSB 0 :=
    (State.fld_of_reg (hw.1 _ _ (by simp))).trans (s.at_fld t _ _)
  refine ⟨w.localTaken a, .of_eq rfl rfl hw, ?_, ?_⟩
  · rw [State.localTaken, hwp, hl]
    exact List.erase_cons_head ..
  · rw [he]
    dsimp only
    rw [State.twinCompare, hlim]

theorem glnPmu_agrees {a b : TwinRes} (t : Tu) (h : arrives s m 0xA) (hon : s.twinOn = true)
    (hb : b = ⟨glnSub m % 2, glnSub m / 16, BitVec.ofNat 64 (leAt m 4 8), BitVec.ofNat 32 (leAt m 12 4), (s.at t).time⟩)
    (hl : s.pmu.local_ = [a]) (hpair : s.twinPair b a = true)
    (hd : pmuDiffers a.value b.value (s.fld Fld.PMU_TWIN_LIMIT_LSB 0) = false) :
    ∃ u, exec (.glnPmu t m) s = .next u ∧ u.pmu.local_ = [] ∧ onlyRegs s u [] := by
  obtain ⟨w, hw, hwl, he⟩ := exec_glnPmu_pair t h hon hb hl hpair
  rw [hd, if_neg (by decide)] at he
  obtain ⟨hdone, hon'⟩ := State.done_onlyRegs hw rfl
  exact ⟨w, he.trans hdone, hwl, hon'⟩

theorem glnPmu_differs {a b : TwinRes} (t : Tu) (h : arrives s m 0xA) (hon : s.twinOn = true)
    (hb : b = ⟨glnSub m % 2, glnSub m / 16, BitVec.ofNat 64 (leAt m 4 8), BitVec.ofNat 32 (leAt m 12 4), (s.at t).time⟩)
    (hl : s.pmu.local_ = [a]) (hpair : s.twinPair b a = true)
    (hd : pmuDiffers a.value b.value (s.fld Fld.PMU_TWIN_LIMIT_LSB 0) = true) (hk : s.fld Fld.EVT_ROUTE_KIND 378 ≠ 1)
    (hlt : s.fld Fld.PMU_TWIN_FAIL_CNT_COUNT 0 < 2 ^ Fld.PMU_TWIN_FAIL_CNT_COUNT.width - 1) :
    ∃ u, exec (.glnPmu t m) s = .next u ∧ u.pmu.local_ = [] ∧
      u.fld Fld.PMU_TWIN_FAIL_CNT_COUNT 0 = s.fld Fld.PMU_TWIN_FAIL_CNT_COUNT 0 + 1 ∧ u.evtStatus 378 = true ∧
      onlyRaising s u [⟨.PMU_TWIN_FAIL_CNT, 0⟩] [378] := by
  obtain ⟨w, hw, hwl, he⟩ := exec_glnPmu_pair t h hon hb hl hpair
  rw [hd, if_pos rfl] at he
  have hwb : onlyRegs (s.at t) (w.bump Fld.PMU_TWIN_FAIL_CNT_COUNT 0 1) [⟨.PMU_TWIN_FAIL_CNT, 0⟩] :=
    .bump (.head _) (hw.mono (by simp))
  have hwf : w.fld Fld.PMU_TWIN_FAIL_CNT_COUNT 0 = s.fld Fld.PMU_TWIN_FAIL_CNT_COUNT 0 :=
    (State.fld_of_reg (hw.1 _ _ (by simp))).trans (s.at_fld t _ _)
  obtain ⟨u, hu, hr⟩ := State.done_raisedIf (s := s) (c := True) (k := 378) (causes := 1) (info := 0) hwb rfl rfl
  refine ⟨u, ?_, ?_, ?_, hr.status trivial (State.raisable_hub rfl hk), hr.only⟩
  · rw [if_pos trivial] at hu
    exact he.trans hu
  · rw [hr.raises.pmu]
    exact hwl
  · rw [hr.fld _ _ rfl, State.fld_bump_lt _ _ _ (by decide) (by rw [hwf]; exact hlt), hwf]

/-- Settles O52. -/
theorem twinMessagesAct : Obligations.TwinMessagesAct :=
  ⟨fun _ t _ h hatt => ⟨beat_seen t h hatt, beat_shown t h hatt⟩, fun _ t _ h hr hk => take_deposes t h hr hk,
    fun _ t _ ha hrx => ⟨glnMsgDiscard_crc t ha hrx, glnMsgDiscard_reserved t ha hrx⟩,
    fun _ t _ _ h hon hb => ⟨glnPmu_waits t h hon hb, fun _ hl hp =>
      ⟨glnPmu_agrees t h hon hb hl hp, glnPmu_differs t h hon hb hl hp⟩⟩⟩

end Sys2Proof.Machine
end

section
/-! What raises append to the outputs and to the log's buffer; how a command of the mailbox ends (R387). -/

namespace Sys2Proof.Machine

variable {s t u w r : State} {but : List Reg} {srcs : List Nat} {tag : Byte}

/-! ### Raises append -/

/-- `t` has the outputs and the buffered log entries of `s`, with later ones before them. -/
structure Appends (s t : State) : Prop where
  out : s.out <:+ t.out
  sram : s.mgt.sram <:+ t.mgt.sram

theorem Appends.refl (s : State) : Appends s s := ⟨List.suffix_rfl, List.suffix_rfl⟩

theorem Appends.trans (h : Appends s t) (g : Appends t u) : Appends s u := ⟨h.out.trans g.out, h.sram.trans g.sram⟩

theorem Appends.ite {c : Prop} [Decidable c] {a b : State} (ha : Appends s a) (hb : Appends s b) :
    Appends s (if c then a else b) := by split <;> assumption

theorem Appends.of_eq (ho : t.out = s.out) (hm : t.mgt.sram = s.mgt.sram) : Appends s t :=
  ⟨by rw [ho], by rw [hm]⟩

theorem Appends.setReg (s : State) (n : RegName) (i : Nat) (v : Word) : Appends s (s.setReg n i v) := .of_eq rfl rfl

theorem Appends.emit (s : State) (o : Out) : Appends s (s.emit o) := ⟨List.suffix_cons _ _, List.suffix_rfl⟩

theorem State.logAdd_appends (s : State) (a k d : Nat) (v : Word) : Appends s (s.logAdd a k d v) := by
  unfold State.logAdd
  refine .ite ?_ (.setReg _ _ _ _)
  exact .trans (t := { s with mgt := { s.mgt with
    sram := ⟨s.mgt.nextSeq + 1, s.frameNow, s.fld Fld.MGT_FW_STATUS_BOOT_COUNT 0, a, k, d, v, s.time⟩ :: s.mgt.sram,
    nextSeq := s.mgt.nextSeq + 1 } }) ⟨List.suffix_rfl, List.suffix_cons _ _⟩ (.setReg _ _ _ _)

theorem State.logRaise_appends (s : State) (n : Nat) (v : Word) : Appends s (s.logRaise n v) := by
  have hlog : ∀ x : Tab Nat, Appends s { s with mgt := { s.mgt with logged := x } } := fun x => .of_eq rfl rfl
  unfold State.logRaise
  exact .ite (.ite ((hlog _).trans (State.logAdd_appends _ _ _ _ _)) (hlog _)) (.ite (.refl _) (.of_eq rfl rfl))

theorem State.signal_appends (s : State) (v : Nat) : Appends s (s.signal v) := by
  have harm : ∀ a : State, Appends a (a.setArmed v false) := fun a => by
    unfold State.setArmed
    exact .ite (.setReg _ _ _ _) (.setReg _ _ _ _)
  have hpba : ∀ (a : State) (b : Bool), Appends a (a.setPba v b) := fun a b => .of_eq rfl rfl
  unfold State.signal
  exact .ite (.ite (hpba _ _) (((Appends.emit _ _).trans (hpba _ _)).trans (harm _))) (.refl _)

theorem State.deliver_appends (s : State) (n : Nat) : Appends s (s.deliver n) := by
  have hpulse : ∀ (a : State) (i : Nat) (e : Tu), Appends a (a.addPulse i e) := fun a i e => by
    unfold State.addPulse
    exact .ite (.of_eq rfl rfl) (.setReg _ _ _ _)
  have hsend : ∀ m, Appends s (s.tlkSend m) := fun m => by
    unfold State.tlkSend
    exact .ite (.emit _ _) (.refl _)
  have hused : Appends s s.used := .of_eq rfl rfl
  have hstat : ∀ a : State, Appends a (a.setStatus n false) := fun a => .setReg _ _ _ _
  unfold State.deliver
  exact .ite (s.signal_appends _) (.ite (.ite (((Appends.ite (.refl _) (s.logRaise_appends _ _)).trans (hstat _)).trans
    (.setReg _ _ _ _)) (.ite (.refl _) (.of_eq rfl rfl))) (.ite (.ite (hused.trans (hpulse _ _ _)) (.refl _)) (hsend _)))

theorem State.raise_appends (s : State) (n causes info : Nat) : Appends s (s.raise n causes info) := by
  have hset : ∀ (a : State) (f : Fld) (v : Nat), Appends a (a.setFld f n v) := fun a f v => .setReg _ _ _ _
  have hmark : ∀ (a : State) (x : Tab RaiseMark), Appends a { a with evt := { a.evt with raises := x } } := fun a x =>
    .of_eq rfl rfl
  have hlog : ∀ (a : State) (v : Word), Appends a (if loggedSource n then a.logRaise n v else a) := fun a v =>
    .ite (a.logRaise_appends _ _) (.refl _)
  have hdel : ∀ (a : State) (c : Bool), Appends a (if c then a.deliver n else a) := fun a c =>
    .ite (a.deliver_appends _) (.refl _)
  unfold State.raise
  dsimp only
  refine .ite (.refl _) ?_
  have h1 := (Appends.setReg s .EVT_STATUS (n / 32) (putBits (s.reg .EVT_STATUS (n / 32)) (n % 32) 1 true.toNat)).trans
    (hset _ Fld.EVT_DATA_CAUSES (s.fld Fld.EVT_DATA_CAUSES n ||| (causes % 2 ^ 16)))
  have h2 := h1.trans (Appends.ite (c := s.fld Fld.EVT_DATA_CAUSES n = 0) (hset _ Fld.EVT_DATA_INFO info) (.refl _))
  have h3 := fun (a : State) => hset a Fld.EVT_CNT_COUNT (min (a.fld Fld.EVT_CNT_COUNT n + 1) (2 ^ Fld.EVT_CNT_COUNT.width - 1))
  exact (((h2.trans (h3 _)).trans (hmark _ _)).trans (hlog _ _)).trans (hdel _ _)

theorem State.mergeNote_appends : ∀ (n : Nat) (s0 s : State), Appends s (State.mergeNote n s0 s)
  | 0, _, s => .refl s
  | n + 1, s0, s => by
    have hround : Appends s (s.each 4 fun x i =>
        if s0.fld Fld.HUB_TRIG_OUT_MERGED_COUNT i = 0 ∧ s.fld Fld.HUB_TRIG_OUT_MERGED_COUNT i ≠ 0 then x.raise0 (260 + i)
        else x) := by
      unfold State.each
      exact foldl_rel_mem (R := Appends) .refl (fun h g => h.trans g)
        (fun a i _ => .ite (a.raise_appends _ _ _) (.refl _)) s
    exact hround.trans (State.mergeNote_appends n s _)

/-- The end of a command takes back no output and no log entry. -/
theorem State.done_appends {s0 : State} (h : s0.done s = .next u) : Appends s u := by
  obtain rfl : s0.logNoteDrop (s0.mergeNote 4 s) = u := Host.Outcome.next.inj h
  unfold State.logNoteDrop
  exact .ite ((State.mergeNote_appends 4 s0 s).trans (State.raise_appends _ _ _ _)) (State.mergeNote_appends 4 s0 s)

/-! ### A command of the mailbox -/

theorem State.logCmd_appends (s : State) (cmd status : Nat) : Appends s (s.logCmd cmd status) := by
  have hused : Appends s s.used := .of_eq rfl rfl
  have hnote : ∀ v, Appends s.used (s.used.logNote 8 status v) := fun v => by
    unfold State.logNote
    exact .ite (State.logAdd_appends _ _ _ _ _) (.refl _)
  unfold State.logCmd
  exact .ite (hused.trans (hnote _)) (.refl _)

theorem State.mbDone_appends (s : State) (status : Nat) (res : List Word) : Appends s (s.mbDone status res) := by
  have hfree : Appends s { s with free := s.free + 8 } := .of_eq rfl rfl
  have hres : ∀ (a : State) (rs : List Word), Appends a (a.each 8 fun x i => x.setReg .MGT_MB_RES i (rs.getD i 0)) := fun a rs => by
    unfold State.each
    exact foldl_rel_mem (R := Appends) .refl (fun h g => h.trans g) (fun a i _ => .setReg _ _ _ _) a
  unfold State.mbDone
  exact ((hfree.trans (hres _ _)).trans ((Appends.setReg _ _ _ _).trans (.setReg _ _ _ _))).trans (State.raise_appends _ _ _ _)

/-- `r` is the state in which a command that is issued at instant `x` runs. -/
structure Ran (s : State) (x : Tu) (r : State) : Prop where
  reg : ∀ n i, n ≠ .MGT_MB_STATE → r.reg n i = s.reg n i
  rest : ∃ regs, r = { s.at x with regs := regs }

section
variable {x : Tu} (h : Ran s x r)
include h

theorem Ran.fld (f : Fld) (i : Nat) (hf : f.reg ≠ .MGT_MB_STATE) : r.fld f i = s.fld f i := State.fld_of_reg (h.reg _ _ hf)
theorem Ran.flag (f : Fld) (i : Nat) (hf : f.reg ≠ .MGT_MB_STATE) : r.flag f i = s.flag f i := State.flag_of_reg (h.reg _ _ hf)
theorem Ran.mgt : r.mgt = s.mgt := by
  obtain ⟨_, rfl⟩ := h.rest
  exact State.at_mgt s x
theorem Ran.gln : r.gln = s.gln := by
  obtain ⟨_, rfl⟩ := h.rest
  exact State.at_gln s x
theorem Ran.out : r.out = s.out := by
  obtain ⟨_, rfl⟩ := h.rest
  exact State.at_out s x
theorem Ran.frame : r.frame = s.frame := by
  obtain ⟨_, rfl⟩ := h.rest
  exact State.at_frame s x
theorem Ran.pitch : r.pitch = s.pitch := by
  obtain ⟨_, rfl⟩ := h.rest
  exact State.at_pitch s x
theorem Ran.time : r.time = (s.at x).time := by
  obtain ⟨_, rfl⟩ := h.rest
  rfl
theorem Ran.raisable_hub {k : Nat} (hh : hubSource k = true) (hk : s.fld Fld.EVT_ROUTE_KIND k ≠ 1) : r.raisable k :=
  State.raisable_hub hh (by rw [h.fld _ _ (by decide)]; exact hk)

end

/-- What a command leaves that ended in `e`. -/
structure BoxEnd (s : State) (tag : Byte) (e : MbEnd) (but : List Reg) (srcs : List Nat) (u : State) : Prop where
  done : boxDone s u tag e.status
  rest : keepsRest e.s u
  appends : Appends e.s u
  res : ∀ a (h : a < e.res.length), a < 8 → u.reg .MGT_MB_RES a = e.res[a]
  raising : onlyRaising e.s u boxRegs [456]
  only : ∀ {but' srcs'}, boxRegs ⊆ but' → but ⊆ but' → 456 ∈ srcs' → srcs ⊆ srcs' → onlyRaising s u but' srcs'

theorem State.mbRunning_ran {cmd : Nat} (s : State) (x : Tu) (tag : Byte) (h : boxReady s cmd) (hc : cmd ≠ 0x10) :
    Ran s x ((s.at x).mbRunning tag) := by
  have hcmd : ((s.at x).setFld Fld.MGT_MB_STATE_STATE 0 1 |>.setFld Fld.MGT_MB_STATE_TAG 0 tag.toNat).fld Fld.MGT_MB_CMD_CMD 0 =
      cmd := by
    rw [State.fld_setFld_ne _ _ _ _ _ _ (by decide), State.fld_setFld_ne _ _ _ _ _ _ (by decide), State.at_fld]
    exact h.2.2.1
  have he : (s.at x).mbRunning tag = ((s.at x).setFld Fld.MGT_MB_STATE_STATE 0 1).setFld Fld.MGT_MB_STATE_TAG 0 tag.toNat := by
    rw [State.mbRunning, State.pitchLoading, hcmd, if_neg fun hh => hc hh.1]
  rw [he]
  refine ⟨fun n i hn => ?_, _, rfl⟩
  rw [State.reg_setFld_ne _ _ _ _ _ _ hn, State.reg_setFld_ne _ _ _ _ _ _ hn, State.at_reg]

/-- What a command that is issued to an IDLE mailbox leaves. -/
theorem mbIssue_ends {cmd : Nat} {f : State → List Word → MbEnd} {e : MbEnd} {x : Tu} (h : boxReady s cmd)
    (he : f ((s.at x).mbRunning tag) s.mbArgs = e) :
    (s.at x).mbIssue tag cmd f = (e.s.logCmd cmd e.status).mbDone e.status e.res := by
  obtain ⟨-, hrun, hcmd, hidle⟩ := h
  have hargs : ((s.at x).mbRunning tag).mbArgs = s.mbArgs := State.mbArgs_of_reg fun a =>
    (((s.at x).mbRunning_reads tag).2.1.1 _ _ (by simp)).trans (State.at_reg _ _ _ _)
  rw [State.mbIssue, State.at_fld, State.at_mgt, hcmd, hrun, if_neg (by simp), State.mbTaken, State.at_fld, hidle]
  dsimp only
  rw [if_neg (by simp), if_neg (by simp), hargs, he]

/-- A mailbox that is IDLE runs a command on its arguments to its end. -/
theorem box_runs {cmd : Nat} (x : Tu) (tag : Byte) (h : boxReady s cmd) (hc : cmd ≠ 0x10) :
    ∃ r, Ran s x r ∧ ∀ {f : State → List Word → MbEnd} {e : MbEnd} {but : List Reg} {srcs : List Nat}, f r s.mbArgs = e →
      onlyRaising r e.s but srcs → (∀ r ∈ but, r.n ≠ .MGT_MB_STATE ∧ r.n ≠ .EVT_ROUTE) → e.status < 256 →
      ∃ u, s.mbWhen x tag cmd f = .next u ∧ BoxEnd s tag e but srcs u := by
  refine ⟨_, s.mbRunning_ran x tag h hc, ?_⟩
  intro f e but srcs he ho hb hst
  obtain ⟨u, hu, hd, hk, hraise, hres⟩ := mbWhen_ends x tag h he ho hb hst
  refine ⟨u, hu, hd, hk, ?_, hres, hraise, fun hbox hbut h456 hsrcs => ?_⟩
  · rw [State.mbWhen, State.whenHost_eq h.1, mbIssue_ends h he] at hu
    exact ((e.s.logCmd_appends _ _).trans (State.mbDone_appends _ _ _)).trans (State.done_appends hu)
  · exact mbRunning_only h hc (ho.mono hbut hsrcs) hraise hbox h456

section
variable {e : MbEnd} (h : BoxEnd s tag e but srcs u)
include h

/-- A register that the end of a command does not change. -/
theorem BoxEnd.reg {n : RegName} {i : Nat} (hn : n ≠ .MGT_MB_STATE) (hr : n ≠ .MGT_MB_RES) (he : eventReg n = false) :
    u.reg n i = e.s.reg n i := h.raising.1 n i (by simp [boxRegs, hn, Ne.symm hr]) he

theorem BoxEnd.fld (f : Fld) (i : Nat) (hn : f.reg ≠ .MGT_MB_STATE) (hr : f.reg ≠ .MGT_MB_RES) (he : eventReg f.reg = false) :
    u.fld f i = e.s.fld f i := State.fld_of_reg (h.reg hn hr he)

theorem BoxEnd.status (k : Nat) (hk : k ≠ 456) (hf : followsRaise k = false) : u.evtStatus k = e.s.evtStatus k :=
  h.raising.evtStatus (by simp [hk]) hf

end

theorem keepsRest.fuses (h : keepsRest s t) : t.mgt.fuses = s.mgt.fuses := by
  obtain ⟨_, _, _, _, _, _, _, _, _, _, _, rfl⟩ := h
  rfl

theorem keepsRest.nonce (h : keepsRest s t) : t.mgt.nonce = s.mgt.nonce := by
  obtain ⟨_, _, _, _, _, _, _, _, _, _, _, rfl⟩ := h
  rfl

end Sys2Proof.Machine
end

section
/-! O55: the mailbox: information, log and fuses (R387, R389, R393, R395, R400). -/

namespace Sys2Proof.Machine

variable {s t u w r : State} {but : List Reg} {srcs : List Nat} {tag : Byte}

theorem mem_boxRegs_clean : ∀ r ∈ ([] : List Reg), r.n ≠ .MGT_MB_STATE ∧ r.n ≠ .EVT_ROUTE := fun _ h => absurd h List.not_mem_nil

/-- What a command that changes nothing but the mailbox leaves alone. -/
theorem BoxEnd.onlyBox {e : MbEnd} (h : BoxEnd s tag e [] [] u) : onlyRaising s u boxRegs [456] :=
  h.only (fun _ h => h) (List.nil_subset _) (List.mem_singleton.2 rfl) (List.nil_subset _)

/-! ### The mailbox itself -/

theorem mbInfo_tells (t : Tu) (tag : Byte) (h : boxReady s 0x01) :
    ∃ u, exec (.mbInfo t tag) s = .next u ∧ boxDone s u tag mbOk ∧
      u.reg .MGT_MB_RES 0 = s.reg .MGT_FW_VER 0 ∧ u.reg .MGT_MB_RES 2 = w32 (s.fld Fld.MGT_FW_STATUS_BOOT_COUNT 0) ∧
      u.reg .MGT_MB_RES 3 = s.reg .HUB_SERIAL_LO 0 ∧ u.reg .MGT_MB_RES 4 = s.reg .HUB_SERIAL_HI 0 ∧
      onlyRaising s u boxRegs [456] := by
  obtain ⟨r, hr, hrun⟩ := box_runs t tag h (by decide)
  obtain ⟨u, hu, hd⟩ := hrun (f := mbInfo) (but := []) (srcs := []) rfl (.of_eq rfl rfl (.refl r _ _)) mem_boxRegs_clean
    (show mbOk < 256 by decide)
  refine ⟨u, by rw [exec, execMbInfo]; exact hu, hd.done, ?_, ?_, ?_, ?_, hd.onlyBox⟩
  · exact (hd.res 0 (show 0 < 6 by decide) (by decide)).trans (hr.reg _ _ (by decide))
  · exact (hd.res 2 (show 2 < 6 by decide) (by decide)).trans (congrArg w32 (hr.fld _ _ (by decide)))
  · exact (hd.res 3 (show 3 < 6 by decide) (by decide)).trans (hr.reg _ _ (by decide))
  · exact (hd.res 4 (show 4 < 6 by decide) (by decide)).trans (hr.reg _ _ (by decide))

/-- A command that ends at once. -/
theorem box_fails {cmd status : Nat} {f : State → List Word → MbEnd} (t : Tu) (tag : Byte) (h : boxReady s cmd) (hc : cmd ≠ 0x10)
    (hst : status < 256) (hf : ∀ r, Ran s t r → f r s.mbArgs = mbFail r status) :
    ∃ u, s.mbWhen t tag cmd f = .next u ∧ boxDone s u tag status ∧ u.mgt.fuses = s.mgt.fuses ∧ u.mgt.nonce = s.mgt.nonce ∧
      u.gln = s.gln ∧ onlyRaising s u boxRegs [456] := by
  obtain ⟨r, hr, hrun⟩ := box_runs t tag h hc
  obtain ⟨u, hu, hd⟩ := hrun (but := []) (srcs := []) (hf r hr) (.refl r _ _) mem_boxRegs_clean hst
  refine ⟨u, hu, hd.done, ?_, ?_, ?_, hd.onlyBox⟩
  · exact hd.rest.fuses.trans (congrArg Mgt.fuses hr.mgt)
  · exact hd.rest.nonce.trans (congrArg Mgt.nonce hr.mgt)
  · exact hd.rest.gln.trans hr.gln

theorem badCmd_ends {cmd : Nat} (t : Tu) (tag : Byte) (hk : knownCmd cmd = false) (h : boxReady s cmd) :
    ∃ u, exec (.badCmd t tag) s = .next u ∧ boxDone s u tag mbBadCmd ∧ onlyRaising s u boxRegs [456] := by
  obtain ⟨u, hu, hd, -, -, -, hon⟩ := box_fails (f := fun s _ => mbFail s mbBadCmd) (status := mbBadCmd) t tag h
    (fun hc => by rw [hc] at hk; exact absurd hk (by decide)) (by decide) (fun _ _ => rfl)
  refine ⟨u, ?_, hd, hon⟩
  rw [exec, execBadCmd, h.2.2.1, hk, if_neg (by decide)]
  exact hu

theorem mbAck_idles (t : Tu) (hup : s.hostUp = true) (hst : s.fld Fld.MGT_MB_STATE_STATE 0 = 2) :
    ∃ u, exec (.mbAck t) s = .next u ∧ u.fld Fld.MGT_MB_STATE_STATE 0 = 0 ∧ onlyRegs s u [⟨.MGT_MB_STATE, 0⟩] := by
  obtain ⟨hd, hon⟩ := State.done_onlyRegs (s := s) (x := t) (t := (s.at t).setFld Fld.MGT_MB_STATE_STATE 0 0)
    (but := [⟨.MGT_MB_STATE, 0⟩]) (.setFld (.head _) (.refl _ _)) rfl
  refine ⟨(s.at t).setFld Fld.MGT_MB_STATE_STATE 0 0, ?_, State.fld_setFld_of_lt _ _ _ (by decide) (by decide), hon⟩
  rw [exec, execMbAck, State.whenHost_eq hup, State.mbAck, State.at_fld, if_pos hst]
  exact hd

theorem mbAck_ignored (t : Tu) (hup : s.hostUp = true) (hst : s.fld Fld.MGT_MB_STATE_STATE 0 ≠ 2) :
    ∃ u, exec (.mbAck t) s = .next u ∧ onlyRegs s u [] := by
  refine ⟨s.at t, ?_, (s.done_at t).2.2⟩
  rw [exec, execMbAck, State.whenHost_eq hup, State.mbAck, State.at_fld, if_neg hst]
  exact (s.done_at t).1

theorem mailboxIsUsed_holds : mailboxIsUsed := fun _ t tag =>
  ⟨mbInfo_tells t tag, fun _ hk h => badCmd_ends t tag hk h, mbAck_idles t, mbAck_ignored t⟩

/-! ### The log -/

/-- The arguments of a log read name an amount and an aligned address. -/
theorem logRead_good {ok : Bool} (r : State) (args : List Word) (h1 : 1 ≤ argAt args 1) (h2 : argAt args 1 ≤ 1024)
    (ha : (argAt args 2 + 2 ^ 32 * argAt args 3) % 64 = 0) :
    logRead ok r args = if !ok then mbFail r mbFetch else
      match (r.logAll.filter fun e => decide (argAt args 0 ≤ e.seq)).take (argAt args 1) with
      | [] => ⟨r, mbOk, [0]⟩
      | e :: l => ⟨r.emit (.hostWrite (argAt args 2 + 2 ^ 32 * argAt args 3) ((e :: l).flatMap LogEntry.bytes) false), mbOk,
          [w32 (e :: l).length, w32 e.seq]⟩ := by
  rw [logRead, if_neg (by omega)]
  dsimp only
  split
  · rfl
  · cases (r.logAll.filter fun e => decide (argAt args 0 ≤ e.seq)).take (argAt args 1) <;> rfl

theorem Ran.logAll {x : Tu} (h : Ran s x r) : r.logAll = s.logAll := by rw [State.logAll, h.mgt, State.logAll]

theorem mbLogRead_reads (t : Tu) (tag : Byte) (h : boxReady s 0x50) (h1 : 1 ≤ argAt s.mbArgs 1) (h2 : argAt s.mbArgs 1 ≤ 1024)
    (ha : (argAt s.mbArgs 2 + 2 ^ 32 * argAt s.mbArgs 3) % 64 = 0) :
    (∃ u, exec (.mbLogRead t tag false) s = .next u ∧ boxDone s u tag mbFetch ∧ onlyRaising s u boxRegs [456]) ∧
    ∀ l, l = (s.logAll.filter fun e => decide (argAt s.mbArgs 0 ≤ e.seq)).take (argAt s.mbArgs 1) →
      (l = [] → ∃ u, exec (.mbLogRead t tag true) s = .next u ∧ boxDone s u tag mbOk ∧ u.reg .MGT_MB_RES 0 = 0 ∧
        onlyRaising s u boxRegs [456]) ∧
      ∀ e l', l = e :: l' → ∃ u xs, exec (.mbLogRead t tag true) s = .next u ∧ boxDone s u tag mbOk ∧
        u.reg .MGT_MB_RES 0 = w32 l.length ∧ u.reg .MGT_MB_RES 1 = w32 e.seq ∧
        u.out = xs ++ .hostWrite (argAt s.mbArgs 2 + 2 ^ 32 * argAt s.mbArgs 3) (l.flatMap LogEntry.bytes) false ::
          s.out ∧ onlyRaising s u boxRegs [456] := by
  refine ⟨?_, fun l hl => ⟨fun hnil => ?_, fun e l' hcons => ?_⟩⟩
  · obtain ⟨u, hu, hd, -, -, -, hon⟩ := box_fails (f := logRead false) (status := mbFetch) t tag h (by decide) (by decide)
      (fun r _ => (logRead_good r _ h1 h2 ha).trans (if_pos (by decide)))
    exact ⟨u, by rw [exec, execMbLogRead]; exact hu, hd, hon⟩
  · obtain ⟨r, hr, hrun⟩ := box_runs t tag h (by decide)
    have he := logRead_good (ok := true) r s.mbArgs h1 h2 ha
    rw [if_neg (by decide), hr.logAll, ← hl, hnil] at he
    obtain ⟨u, hu, hd⟩ := hrun (but := []) (srcs := []) he (.refl r _ _) mem_boxRegs_clean (show mbOk < 256 by decide)
    exact ⟨u, by rw [exec, execMbLogRead]; exact hu, hd.done, hd.res 0 (Nat.zero_lt_succ _) (by decide), hd.onlyBox⟩
  · obtain ⟨r, hr, hrun⟩ := box_runs t tag h (by decide)
    have he := logRead_good (ok := true) r s.mbArgs h1 h2 ha
    rw [if_neg (by decide), hr.logAll, ← hl, hcons] at he
    have hout : onlyRaising r (r.emit (.hostWrite (argAt s.mbArgs 2 + 2 ^ 32 * argAt s.mbArgs 3)
        ((e :: l').flatMap LogEntry.bytes) false)) [] [] := .of_eq rfl rfl (.refl r _ _)
    obtain ⟨u, hu, hd⟩ := hrun (but := []) (srcs := []) he hout mem_boxRegs_clean (show mbOk < 256 by decide)
    obtain ⟨xs, hxs⟩ := hd.appends.out
    refine ⟨u, xs, by rw [exec, execMbLogRead]; exact hu, hd.done, ?_, ?_, ?_, hd.onlyBox⟩
    · rw [hcons]
      exact hd.res 0 (Nat.zero_lt_succ _) (by decide)
    · exact hd.res 1 (Nat.lt_succ_self _) (by decide)
    · rw [← hxs, hcons, ← hr.out]
      rfl

/-- The entry that a mark makes. -/
def State.markEntry (s : State) (args : List Word) (hi : Nat) : LogEntry :=
  ⟨s.mgt.nextSeq + 1, s.frameNow, s.fld Fld.MGT_FW_STATUS_BOOT_COUNT 0, 0xFFFF, 7, 0, args.getD 0 0,
    BitVec.ofNat 64 (argAt args 1 + 2 ^ 32 * hi)⟩

/-- The log's buffer with one more entry. -/
def State.logged (s : State) (e : LogEntry) : State :=
  ({ s.used with mgt := { s.mgt with sram := e :: s.mgt.sram, nextSeq := s.mgt.nextSeq + 1 } }).setFld
    Fld.MGT_LOG_SEQ_SEQ 0 (s.mgt.nextSeq + 1)

theorem State.logAdd_logged (r : State) (v : Word) (h : r.mgt.sram.length < 4096) :
    r.used.logAdd 0xFFFF 7 0 v = r.logged
      ⟨r.mgt.nextSeq + 1, r.frameNow, r.fld Fld.MGT_FW_STATUS_BOOT_COUNT 0, 0xFFFF, 7, 0, v, r.time⟩ := by
  rw [State.logAdd, if_pos (show r.used.mgt.sram.length < 4096 from h)]
  rfl

theorem logMark_enters (r : State) (args : List Word) (h : r.mgt.sram.length < 4096) :
    logMark r args = ⟨r.logged (r.markEntry args (r.freeBelow (2 ^ 32))), mbOk, [w32 (r.mgt.nextSeq + 1)]⟩ := by
  unfold logMark
  dsimp only
  rw [if_pos h, r.logAdd_logged _ h]
  rfl

theorem State.logged_only (r : State) (e : LogEntry) (h : r.mgt.sram.length < 4096) : onlyRaising r (r.logged e) [] [] := by
  have hadd : Raises r (r.used.logAdd 0xFFFF 7 0 0) [] := State.used_raises.trans (State.logAdd_raises _ _ _ _)
  rw [r.logAdd_logged _ h] at hadd
  exact .of_eq rfl rfl (hadd.only fun _ hk => absurd hk List.not_mem_nil)

theorem Ran.frameNow {x : Tu} (h : Ran s x r) : r.frameNow = s.frameNow := by
  rw [State.frameNow, State.frameNow, h.frame, State.pitched, State.pitched, h.pitch]

theorem argAt_mbArgs (s : State) {a : Nat} (ha : a < 8) : s.mbArgs.getD a 0 = s.reg .MGT_MB_ARG a := by
  rw [State.mbArgs, List.getD_eq_getElem?_getD, List.getElem?_map, List.getElem?_range ha]
  rfl

theorem mbLogMark_enters (t : Tu) (tag : Byte) (h : boxReady s 0x51) (hroom : s.mgt.sram.length < 4096) :
    ∃ u, exec (.mbLogMark t tag) s = .next u ∧ boxDone s u tag mbOk ∧
      (∃ e ∈ u.mgt.sram, e.seq = s.mgt.nextSeq + 1 ∧ e.kind = 7 ∧ e.source = 0xFFFF ∧ e.data = s.reg .MGT_MB_ARG 0 ∧
        e.frame = s.frameNow) ∧
      u.reg .MGT_MB_RES 0 = w32 (s.mgt.nextSeq + 1) ∧ onlyRaising s u boxRegs [456] := by
  obtain ⟨r, hr, hrun⟩ := box_runs t tag h (by decide)
  have hroom' : r.mgt.sram.length < 4096 := by rw [hr.mgt]; exact hroom
  obtain ⟨u, hu, hd⟩ := hrun (but := []) (srcs := []) (logMark_enters r s.mbArgs hroom') (r.logged_only _ hroom')
    mem_boxRegs_clean (show mbOk < 256 by decide)
  refine ⟨u, by rw [exec, execMbLogMark]; exact hu, hd.done,
    ⟨r.markEntry s.mbArgs (r.freeBelow (2 ^ 32)), hd.appends.sram.subset (List.mem_cons_self ..), ?_, rfl, rfl,
      argAt_mbArgs s (a := 0) (by decide), hr.frameNow⟩, ?_, hd.onlyBox⟩
  · exact congrArg (fun m => Mgt.nextSeq m + 1) hr.mgt
  · exact (hd.res 0 Nat.zero_lt_one (by decide)).trans (congrArg (fun m => w32 (Mgt.nextSeq m + 1)) hr.mgt)

theorem logIsRead_holds : logIsRead := fun _ t tag =>
  ⟨fun h h1 h2 ha => mbLogRead_reads t tag h h1 h2 ha, fun h hroom => mbLogMark_enters t tag h hroom⟩

end Sys2Proof.Machine
end

section
/-! O55: the mailbox: fuses, regulators and the debug port (R400, R402, R403). -/

namespace Sys2Proof.Machine

variable {s t u w r : State} {but : List Reg} {srcs : List Nat} {tag : Byte}

theorem Ran.fuse {x : Tu} (h : Ran s x r) (id : Nat) : r.fuse id = s.fuse id := by rw [State.fuse, h.mgt, State.fuse]

theorem State.fuse_of_eq (h : t.mgt.fuses = s.mgt.fuses) (id : Nat) : t.fuse id = s.fuse id := by
  rw [State.fuse, h, State.fuse]

theorem Ran.fuseAllowed {x : Tu} (h : Ran s x r) : r.fuseAllowed = s.fuseAllowed := by
  have hs : ∀ n, r.sense n = s.sense n := fun n => by rw [State.sense, State.sense, h.fld _ _ (by decide)]
  rw [State.fuseAllowed, State.fuseAllowed, hs, hs, h.fld _ _ (by decide)]

/-! ### Fuses are read -/

/-- The members that a downward closed test picks from a range stand at their own places. -/
theorem getElem?_filter_range (p : Nat → Bool) (hp : ∀ a b, a ≤ b → p b = true → p a = true) (n : Nat) {k : Nat} (hk : k < n)
    (h : p k = true) : ((List.range n).filter p)[k]? = some k := by
  induction n with
  | zero => exact absurd hk (Nat.not_lt_zero k)
  | succ n ih =>
    rw [List.range_succ, List.filter_append]
    rcases Nat.lt_succ_iff_lt_or_eq.1 hk with hlt | rfl
    · rw [List.getElem?_append_left (List.getElem?_eq_some_iff.1 (ih hlt)).1]
      exact ih hlt
    · have hall : (List.range k).filter p = List.range k :=
        List.filter_eq_self.2 fun a ha => hp a k (Nat.le_of_lt (List.mem_range.1 ha)) h
      rw [hall, List.getElem?_append_right (by rw [List.length_range]), List.length_range, Nat.sub_self, List.filter_cons_of_pos h]
      rfl

/-- The words that a read of a fuse field from word `o` on answers. -/
def State.fuseWords (s : State) (id o : Nat) : List Word :=
  ((List.range 8).filter fun w => decide (32 * (o + w) < fuseWidth id)).map fun w => w32 (fuseWord (s.fuse id) (o + w))

theorem State.fuseWords_get (s : State) {id o k : Nat} (hk : k < 8) (h : 32 * (o + k) < fuseWidth id) :
    (s.fuseWords id o)[k]? = some (w32 (fuseWord (s.fuse id) (o + k))) := by
  rw [State.fuseWords, List.getElem?_map, getElem?_filter_range _ (fun a b hab hb => ?_) 8 hk (decide_eq_true h)]
  · rfl
  · have := of_decide_eq_true hb
    exact decide_eq_true (by omega)

theorem mbFuseRead_reads (t : Tu) (tag : Byte) (h : boxReady s 0x70) (hid : argAt s.mbArgs 0 ≤ 15)
    (ho : 32 * argAt s.mbArgs 1 < fuseWidth (argAt s.mbArgs 0)) :
    ∃ u, exec (.mbFuseRead t tag) s = .next u ∧ boxDone s u tag mbOk ∧
      (∀ w, w < 8 → 32 * (argAt s.mbArgs 1 + w) < fuseWidth (argAt s.mbArgs 0) →
        u.reg .MGT_MB_RES w = w32 (fuseWord (s.fuse (argAt s.mbArgs 0)) (argAt s.mbArgs 1 + w))) ∧
      onlyRaising s u boxRegs [456] := by
  obtain ⟨r, hr, hrun⟩ := box_runs t tag h (by decide)
  have he : fuseRead r s.mbArgs = ⟨r, mbOk, s.fuseWords (argAt s.mbArgs 0) (argAt s.mbArgs 1)⟩ := by
    rw [fuseRead, if_neg (by omega), hr.fuse]
    rfl
  obtain ⟨u, hu, hd⟩ := hrun (but := []) (srcs := []) he (.refl r _ _) mem_boxRegs_clean (show mbOk < 256 by decide)
  refine ⟨u, by rw [exec, execMbFuseRead]; exact hu, hd.done, fun w hw hlt => ?_, hd.onlyBox⟩
  obtain ⟨hl, hget⟩ := List.getElem?_eq_some_iff.1 (s.fuseWords_get hw hlt)
  exact (hd.res w hl hw).trans hget

theorem mbFuseRead_bad (t : Tu) (tag : Byte) (h : boxReady s 0x70)
    (hbad : 15 < argAt s.mbArgs 0 ∨ fuseWidth (argAt s.mbArgs 0) ≤ 32 * argAt s.mbArgs 1) :
    ∃ u, exec (.mbFuseRead t tag) s = .next u ∧ boxDone s u tag mbBadArg ∧ onlyRaising s u boxRegs [456] := by
  obtain ⟨u, hu, hd, -, -, -, hon⟩ := box_fails (f := fuseRead) (status := mbBadArg) t tag h (by decide) (by decide)
    (fun r _ => by rw [fuseRead, if_pos hbad])
  exact ⟨u, by rw [exec, execMbFuseRead]; exact hu, hd, hon⟩

/-! ### Fuses are blown -/

/-- The registers that show fuses. -/
abbrev fuseShown : List Reg := [⟨.HUB_SERIAL_LO, 0⟩, ⟨.HUB_SERIAL_HI, 0⟩, ⟨.MGT_SMB_CFG, 0⟩, ⟨.MGT_DEBUG_STATUS, 0⟩]

theorem State.showFuses_only (s : State) : onlyRegs s s.showFuses fuseShown :=
  .setFld (by simp) (.setFld (by simp) (.setPair (by simp) (by simp) (.refl _ _)))

theorem State.blow_only (s : State) (id bits : Nat) : onlyRegs s (s.blow id bits) fuseShown := by
  have hm : onlyRegs s (s.modMgt fun m => { m with fuses := tput 0 m.fuses id (tget 0 m.fuses id ||| bits) }) fuseShown :=
    .of_eq rfl rfl (.refl s _)
  exact hm.trans (State.showFuses_only _)

theorem State.blow_fuse (s : State) (id bits : Nat) : (s.blow id bits).fuse id = s.fuse id ||| bits := by
  refine (show (s.blow id bits).fuse id = tget 0 (tput 0 s.mgt.fuses id (tget 0 s.mgt.fuses id ||| bits)) id from rfl).trans ?_
  rw [tget_tput, if_pos rfl, State.fuse]

theorem State.blow_fuse_ne (s : State) {id i : Nat} (bits : Nat) (h : i ≠ id) : (s.blow id bits).fuse i = s.fuse i := by
  refine (show (s.blow id bits).fuse i = tget 0 (tput 0 s.mgt.fuses id (tget 0 s.mgt.fuses id ||| bits)) i from rfl).trans ?_
  rw [tget_tput, if_neg h, State.fuse]

/-- A word that has been programmed holds the bits that were asked for. -/
theorem fuseWord_blown (v bits o : Nat) (hb : bits < 2 ^ 32) :
    fuseWord (v ||| bits * 2 ^ (32 * o)) o &&& bits = bits := by
  refine Nat.eq_of_testBit_eq fun i => ?_
  rw [fuseWord, Nat.testBit_and, Nat.testBit_mod_two_pow, Nat.testBit_div_two_pow, Nat.testBit_or, Nat.testBit_mul_two_pow]
  rcases Nat.lt_or_ge i 32 with hi | hi
  · rw [decide_eq_true hi, decide_eq_true (Nat.le_add_left _ _), Nat.add_sub_cancel]
    cases Nat.testBit bits i <;> simp
  · rw [Nat.testBit_lt_two_pow (Nat.lt_of_lt_of_le hb (Nat.pow_le_pow_right (by decide) hi)), Bool.and_false]

/-- A fuse that sets every bit. -/
theorem allBits_set {bits : Nat} (hb : bits < 2 ^ 32) : bits &&& ((0 : Word).toNat ^^^ (2 ^ 32 - 1)) = bits := by
  rw [show ((0 : Word).toNat ^^^ (2 ^ 32 - 1)) = 2 ^ 32 - 1 from by decide, Nat.and_two_pow_sub_one_eq_mod, Nat.mod_eq_of_lt hb]

section
variable (h15 : argAt s.mbArgs 0 ≤ 15) (ho : 32 * argAt s.mbArgs 1 < fuseWidth (argAt s.mbArgs 0))
  (hbits : argAt s.mbArgs 2 * 2 ^ (32 * argAt s.mbArgs 1) < 2 ^ fuseWidth (argAt s.mbArgs 0))
  (hkey : argAt s.mbArgs 3 = 0x46555345) (hrule : fuseRule (argAt s.mbArgs 0) ≠ 0)
include h15 ho hbits hkey hrule

/-- The arguments name bits of a field that may be programmed. -/
theorem fuseProg_named (r : State) : fuseProg 0 r s.mbArgs =
    if fuseRule (argAt s.mbArgs 0) = 1 ∧ r.fuse 15 = 1 then mbFail r 0x38
    else if !r.fuseAllowed then mbFail r mbRefused
    else
      let x := r.blow (argAt s.mbArgs 0) (argAt s.mbArgs 2 * 2 ^ (32 * argAt s.mbArgs 1))
      ⟨if argAt s.mbArgs 2 = 0 then x else x.raise 470 1 (argAt s.mbArgs 0), mbOk,
        [w32 (fuseWord (x.fuse (argAt s.mbArgs 0)) (argAt s.mbArgs 1))]⟩ := by
  have hb : argAt s.mbArgs 2 < 2 ^ 32 := BitVec.isLt _
  unfold fuseProg
  dsimp only
  rw [if_neg (by omega), allBits_set hb]
  by_cases h1 : fuseRule (argAt s.mbArgs 0) = 1 ∧ r.fuse 15 = 1
  · rw [if_pos h1, if_pos h1]
  · rw [if_neg h1, if_neg h1]
    by_cases h2 : (!r.fuseAllowed) = true
    · rw [if_pos h2, if_pos h2]
    · rw [if_neg h2, if_neg h2, State.blow_fuse, if_pos (fuseWord_blown _ _ _ hb)]

theorem mbFuseProg_locked (t : Tu) (tag : Byte) (h : boxReady s 0x71) (hr1 : fuseRule (argAt s.mbArgs 0) = 1) (hl : s.fuse 15 = 1) :
    ∃ u, exec (.mbFuseProg t tag 0) s = .next u ∧ boxDone s u tag 0x38 ∧ u.mgt.fuses = s.mgt.fuses ∧
      onlyRaising s u boxRegs [456] := by
  obtain ⟨u, hu, hd, hf, -, -, hon⟩ := box_fails (f := fuseProg 0) (status := 0x38) t tag h (by decide) (by decide)
    (fun r hr => by rw [fuseProg_named h15 ho hbits hkey hrule, if_pos ⟨hr1, (hr.fuse 15).trans hl⟩])
  exact ⟨u, by rw [exec, execMbFuseProg]; exact hu, hd, hf, hon⟩

theorem mbFuseProg_refused (t : Tu) (tag : Byte) (h : boxReady s 0x71)
    (hr2 : fuseRule (argAt s.mbArgs 0) = 2 ∨ s.fuse 15 ≠ 1) (hal : s.fuseAllowed = false) :
    ∃ u, exec (.mbFuseProg t tag 0) s = .next u ∧ boxDone s u tag mbRefused ∧ u.mgt.fuses = s.mgt.fuses ∧
      onlyRaising s u boxRegs [456] := by
  obtain ⟨u, hu, hd, hf, -, -, hon⟩ := box_fails (f := fuseProg 0) (status := mbRefused) t tag h (by decide) (by decide)
    (fun r hr => by
      rw [fuseProg_named h15 ho hbits hkey hrule, if_neg (by rw [hr.fuse]; omega), hr.fuseAllowed, hal, if_pos (by decide)])
  exact ⟨u, by rw [exec, execMbFuseProg]; exact hu, hd, hf, hon⟩

theorem mbFuseProg_blows (t : Tu) (tag : Byte) (h : boxReady s 0x71)
    (hr2 : fuseRule (argAt s.mbArgs 0) = 2 ∨ s.fuse 15 ≠ 1) (hal : s.fuseAllowed = true) :
    ∃ u, exec (.mbFuseProg t tag 0) s = .next u ∧ boxDone s u tag mbOk ∧
      u.fuse (argAt s.mbArgs 0) = s.fuse (argAt s.mbArgs 0) ||| argAt s.mbArgs 2 * 2 ^ (32 * argAt s.mbArgs 1) ∧
      (∀ id, id ≠ argAt s.mbArgs 0 → u.fuse id = s.fuse id) ∧
      u.reg .MGT_MB_RES 0 = w32 (fuseWord (u.fuse (argAt s.mbArgs 0)) (argAt s.mbArgs 1)) ∧
      onlyRaising s u (boxRegs ++ fuseShown) [456, 470] := by
  obtain ⟨r, hr, hrun⟩ := box_runs t tag h (by decide)
  obtain ⟨x, hx⟩ : ∃ x, x = r.blow (argAt s.mbArgs 0) (argAt s.mbArgs 2 * 2 ^ (32 * argAt s.mbArgs 1)) := ⟨_, rfl⟩
  obtain ⟨y, hy⟩ : ∃ y, y = if argAt s.mbArgs 2 = 0 then x else x.raise 470 1 (argAt s.mbArgs 0) := ⟨_, rfl⟩
  have he : fuseProg 0 r s.mbArgs = ⟨y, mbOk, [w32 (fuseWord (x.fuse (argAt s.mbArgs 0)) (argAt s.mbArgs 1))]⟩ := by
    rw [fuseProg_named h15 ho hbits hkey hrule, if_neg (by rw [hr.fuse]; omega), hr.fuseAllowed, hal, if_neg (by decide), hy, hx]
  have hxo : onlyRaising r x fuseShown [470] := by
    rw [hx]
    exact ((r.blow_only _ _).raising rfl).mono (fun _ h => h) (List.nil_subset _)
  have hyo : onlyRaising r y fuseShown [470] := by
    rw [hy]
    split
    · exact hxo
    · exact .raise (by simp) hxo
  have hyf : y.mgt.fuses = x.mgt.fuses := by
    rw [hy]
    split
    · rfl
    · exact (State.raise_raises 470 1 (argAt s.mbArgs 0)).keepsRest.fuses
  obtain ⟨u, hu, hd⟩ := hrun he hyo (by simp) (show mbOk < 256 by decide)
  have huf : ∀ id, u.fuse id = x.fuse id := fun id => State.fuse_of_eq (hd.rest.fuses.trans hyf) id
  refine ⟨u, by rw [exec, execMbFuseProg]; exact hu, hd.done, ?_, fun id hid => ?_, ?_,
    hd.only (List.subset_append_left _ _) (List.subset_append_right _ _) (by simp) (by simp)⟩
  · rw [huf, hx, State.blow_fuse, hr.fuse]
  · rw [huf, hx, State.blow_fuse_ne _ _ hid, hr.fuse]
  · rw [huf]
    exact hd.res 0 Nat.zero_lt_one (by decide)

end

theorem fusesAreBlown_holds : fusesAreBlown := fun _ t tag =>
  ⟨mbFuseRead_reads t tag, mbFuseRead_bad t tag, fun h h15 ho hb hk hr =>
    ⟨mbFuseProg_locked h15 ho hb hk hr t tag h, fun hr2 =>
      ⟨mbFuseProg_refused h15 ho hb hk hr t tag h hr2, mbFuseProg_blows h15 ho hb hk hr t tag h hr2⟩⟩⟩

/-! ### Regulators -/

theorem mbPmbusXfer_off (t : Tu) (tag : Byte) (h : boxReady s 0x80) (hw : argAt s.mbArgs 0 / 2 ^ 16 % 256 ≤ 4)
    (hr : argAt s.mbArgs 0 / 2 ^ 24 % 256 ≤ 4)
    (hoff : s.flag Fld.MGT_PMB_CFG_EN 0 = false ∨ s.flag Fld.MGT_PMB_DEV_EN (argAt s.mbArgs 0 % 8) = false) (p : PmbusResult) :
    ∃ u, exec (.mbPmbusXfer t tag p) s = .next u ∧ boxDone s u tag mbRefused ∧ onlyRaising s u boxRegs [456] := by
  obtain ⟨u, hu, hd, -, -, -, hon⟩ := box_fails (f := pmbusXfer p) (status := mbRefused) t tag h (by decide) (by decide)
    (fun r hrun => by
      rw [pmbusXfer, if_neg (by omega)]
      dsimp only
      rw [hrun.flag _ _ (by decide), hrun.flag _ _ (by decide), if_pos]
      rcases hoff with h | h
      · rw [h]; rfl
      · rw [h, Bool.and_false]; rfl)
  exact ⟨u, by rw [exec, execMbPmbusXfer]; exact hu, hd, hon⟩

/-- The transaction that the arguments ask for. -/
def State.pmbOut (s : State) : Out :=
  .regulator (s.fld Fld.MGT_PMB_DEV_ADDR (argAt s.mbArgs 0 % 8)) (argAt s.mbArgs 0 / 256 % 256)
    (leBytes (argAt s.mbArgs 0 / 2 ^ 16 % 256) (argAt s.mbArgs 1))

section
variable (hw : argAt s.mbArgs 0 / 2 ^ 16 % 256 ≤ 4) (hrd : argAt s.mbArgs 0 / 2 ^ 24 % 256 ≤ 4)
  (hen : s.flag Fld.MGT_PMB_CFG_EN 0 = true) (hdev : s.flag Fld.MGT_PMB_DEV_EN (argAt s.mbArgs 0 % 8) = true)
include hw hrd hen hdev

/-- A transaction with an enabled regulator. -/
theorem pmbusXfer_runs {x : Tu} (hr : Ran s x r) (d : Word) :
    pmbusXfer (.ok d) r s.mbArgs = ⟨r.emit s.pmbOut, mbOk, [w32 (d.toNat % 2 ^ (8 * (argAt s.mbArgs 0 / 2 ^ 24 % 256)))]⟩ ∧
    ∃ y, Raises (r.emit s.pmbOut) y [464] ∧ (s.fld Fld.EVT_ROUTE_KIND 464 ≠ 1 → y.evtStatus 464 = true) ∧
      ∃ v, pmbusXfer .nack r s.mbArgs = ⟨y, mbRefused, [v, w32 1]⟩ := by
  have hadr : r.fld Fld.MGT_PMB_DEV_ADDR (argAt s.mbArgs 0 % 8) = s.fld Fld.MGT_PMB_DEV_ADDR (argAt s.mbArgs 0 % 8) :=
    hr.fld _ _ (by decide)
  have hon : (!(r.flag Fld.MGT_PMB_CFG_EN 0 && r.flag Fld.MGT_PMB_DEV_EN (argAt s.mbArgs 0 % 8))) = false := by
    rw [hr.flag _ _ (by decide), hr.flag _ _ (by decide), hen, hdev]
    rfl
  refine ⟨?_, ((r.emit s.pmbOut).raise 464 1 (argAt s.mbArgs 0 % 8)).used, ?_, fun hk => ?_,
    w32 (((r.emit s.pmbOut).raise 464 1 (argAt s.mbArgs 0 % 8)).freeBelow (2 ^ 32)), ?_⟩
  · rw [pmbusXfer, if_neg (by omega)]
    dsimp only
    rw [hon, if_neg (by decide), hadr]
    rfl
  · exact (State.raise_raises _ _ _).trans State.used_raises
  · exact State.raise_raisable ((hr.raisable_hub rfl hk).of_only (but := []) (.of_eq rfl rfl (.refl r _)) rfl)
  · rw [pmbusXfer, if_neg (by omega)]
    dsimp only
    rw [hon, if_neg (by decide), hadr]
    rfl

theorem mbPmbusXfer_done (t : Tu) (tag : Byte) (h : boxReady s 0x80) (d : Word) :
    ∃ u xs, exec (.mbPmbusXfer t tag (.ok d)) s = .next u ∧ boxDone s u tag mbOk ∧
      u.reg .MGT_MB_RES 0 = w32 (d.toNat % 2 ^ (8 * (argAt s.mbArgs 0 / 2 ^ 24 % 256))) ∧
      u.out = xs ++ s.pmbOut :: s.out ∧ onlyRaising s u boxRegs [456] := by
  obtain ⟨r, hr, hrun⟩ := box_runs t tag h (by decide)
  obtain ⟨u, hu, hd⟩ := hrun (but := []) (srcs := []) (pmbusXfer_runs hw hrd hen hdev hr d).1 (.of_eq rfl rfl (.refl r _ _))
    mem_boxRegs_clean (show mbOk < 256 by decide)
  obtain ⟨xs, hxs⟩ := hd.appends.out
  refine ⟨u, xs, by rw [exec, execMbPmbusXfer]; exact hu, hd.done, hd.res 0 Nat.zero_lt_one (by decide), ?_, hd.onlyBox⟩
  rw [← hxs, ← hr.out]
  rfl

theorem mbPmbusXfer_nack (t : Tu) (tag : Byte) (h : boxReady s 0x80) :
    ∃ u, exec (.mbPmbusXfer t tag .nack) s = .next u ∧ boxDone s u tag mbRefused ∧ u.reg .MGT_MB_RES 1 = 1 ∧
      (s.fld Fld.EVT_ROUTE_KIND 464 ≠ 1 → u.evtStatus 464 = true) ∧ onlyRaising s u boxRegs [456, 464] := by
  obtain ⟨r, hr, hrun⟩ := box_runs t tag h (by decide)
  obtain ⟨-, y, hy, hst, v, he⟩ := pmbusXfer_runs hw hrd hen hdev hr 0
  have hemit : onlyRaising r (r.emit s.pmbOut) [] [464] := .of_eq rfl rfl (.refl r _ _)
  obtain ⟨u, hu, hd⟩ := hrun (but := []) (srcs := [464]) he (hemit.trans (hy.only fun _ h => .inl h)) mem_boxRegs_clean
    (show mbRefused < 256 by decide)
  refine ⟨u, by rw [exec, execMbPmbusXfer]; exact hu, hd.done, hd.res 1 (Nat.lt_succ_self _) (by decide), fun hk => ?_,
    hd.only (fun _ h => h) (List.nil_subset _) (by simp) (by simp)⟩
  rw [hd.status 464 (by decide) rfl]
  exact hst hk

end

/-! ### The debug port -/

theorem mbDebugChallenge_fresh (t : Tu) (tag : Byte) (h : boxReady s 0x90) (hf : s.fuse 13 ≠ 0) (nonce : List Byte) :
    ∃ u, exec (.mbDebugChallenge t tag nonce) s = .next u ∧ boxDone s u tag mbOk ∧
      u.mgt.nonce = some (leBytes 32 (leNat nonce), (s.at t).time) ∧
      (∀ w, w < 8 → u.reg .MGT_MB_RES w = wordAt (leBytes 32 (leNat nonce)) w) ∧ onlyRaising s u boxRegs [456] := by
  obtain ⟨r, hr, hrun⟩ := box_runs t tag h (by decide)
  have he : debugChallenge nonce r s.mbArgs = ⟨r.modMgt fun m => { m with nonce := some (leBytes 32 (leNat nonce), r.time) },
      mbOk, (List.range 8).map (wordAt (leBytes 32 (leNat nonce)))⟩ := by
    rw [debugChallenge, if_neg (by rw [hr.fuse]; exact hf)]
  obtain ⟨u, hu, hd⟩ := hrun (but := []) (srcs := []) he (.of_eq rfl rfl (.refl r _ _)) mem_boxRegs_clean
    (show mbOk < 256 by decide)
  refine ⟨u, by rw [exec, execMbDebugChallenge]; exact hu, hd.done, ?_, fun w hw => ?_, hd.onlyBox⟩
  · rw [hd.rest.nonce, ← hr.time]
    rfl
  · refine (hd.res w (by rw [List.length_map, List.length_range]; exact hw) hw).trans ?_
    rw [List.getElem_map, List.getElem_range]

theorem mbDebugChallenge_none (t : Tu) (tag : Byte) (h : boxReady s 0x90) (hf : s.fuse 13 = 0) (nonce : List Byte) :
    ∃ u, exec (.mbDebugChallenge t tag nonce) s = .next u ∧ boxDone s u tag 0x3D ∧ u.mgt.nonce = s.mgt.nonce ∧
      onlyRaising s u boxRegs [456] := by
  obtain ⟨u, hu, hd, -, hn, -, hon⟩ := box_fails (f := debugChallenge nonce) (status := 0x3D) t tag h (by decide) (by decide)
    (fun r hr => by rw [debugChallenge, if_pos ((hr.fuse 13).trans hf)])
  exact ⟨u, by rw [exec, execMbDebugChallenge]; exact hu, hd, hn, hon⟩

/-- The nonce is used up. -/
def State.nonceUsed (s : State) : State := s.modMgt fun m => { m with nonce := none }

theorem Ran.unlocks {x : Tu} (h : Ran s x r) (n resp : List Byte) : r.unlocks n resp = s.unlocks n resp := by
  rw [State.unlocks, State.unlocks, h.fuse, h.fuse]

/-- A response to the nonce of instant `t0`. -/
theorem debugUnlock_tries {x : Tu} (hr : Ran s x r) {n resp : List Byte} {t0 : Tu} (hf : s.fuse 13 ≠ 0)
    (hn : s.mgt.nonce = some (n, t0)) :
    debugUnlock (some resp) r s.mbArgs =
      if tuLe (s.at x).time (tuAdd t0 (ns 60000000000)) && s.unlocks n resp then
        ⟨(r.nonceUsed.setFld Fld.MGT_DEBUG_STATUS_UNLOCKED 0 1).raise 469 1 0, mbOk, []⟩
      else ⟨r.nonceUsed.raise 469 2 0, 0x3C, []⟩ := by
  rw [debugUnlock, if_neg (by rw [hr.fuse]; exact hf), hr.mgt, hn]
  dsimp only
  rw [hr.time, hr.unlocks]
  rfl

theorem mbDebugUnlock_unlocks (t : Tu) (tag : Byte) {n resp : List Byte} {t0 : Tu} (h : boxReady s 0x91) (hf : s.fuse 13 ≠ 0)
    (hn : s.mgt.nonce = some (n, t0)) (hin : tuLe (s.at t).time (tuAdd t0 (ns 60000000000)) = true)
    (hgood : s.unlocks n resp = true) :
    ∃ u, exec (.mbDebugUnlock t tag (some resp)) s = .next u ∧ boxDone s u tag mbOk ∧ u.mgt.nonce = none ∧
      u.fld Fld.MGT_DEBUG_STATUS_UNLOCKED 0 = 1 ∧ (s.fld Fld.EVT_ROUTE_KIND 469 ≠ 1 → u.evtStatus 469 = true) ∧
      onlyRaising s u (⟨.MGT_DEBUG_STATUS, 0⟩ :: boxRegs) [456, 469] := by
  obtain ⟨r, hr, hrun⟩ := box_runs t tag h (by decide)
  have he := debugUnlock_tries (resp := resp) hr hf hn
  rw [hin, hgood, if_pos (by decide)] at he
  obtain ⟨x, hx⟩ : ∃ x, x = r.nonceUsed.setFld Fld.MGT_DEBUG_STATUS_UNLOCKED 0 1 := ⟨_, rfl⟩
  have hon : onlyRegs r x [⟨.MGT_DEBUG_STATUS, 0⟩] := by
    rw [hx]
    exact .setFld (.head _) (.of_eq rfl rfl (.refl r _))
  rw [← hx] at he
  have hro : onlyRaising r (x.raise 469 1 0) [⟨.MGT_DEBUG_STATUS, 0⟩] [469] :=
    .raise (by simp) ((hon.raising rfl).mono (fun _ h => h) (List.nil_subset _))
  obtain ⟨u, hu, hd⟩ := hrun he hro (by simp) (show mbOk < 256 by decide)
  refine ⟨u, by rw [exec, execMbDebugUnlock]; exact hu, hd.done, ?_, ?_, fun hk => ?_,
    hd.only (List.subset_cons_self _ _) (by simp) (by simp) (by simp)⟩
  · refine hd.rest.nonce.trans ((State.raise_raises 469 1 0).keepsRest.nonce.trans ?_)
    rw [hx]
    rfl
  · rw [hd.fld _ _ (by decide) (by decide) rfl]
    refine ((State.raise_raises 469 1 0).fld _ _ rfl).trans ?_
    rw [hx]
    exact State.fld_setFld_of_lt _ _ _ (by decide) (by decide)
  · rw [hd.status 469 (by decide) rfl]
    exact State.raise_raisable ((hr.raisable_hub rfl hk).of_only hon rfl)

theorem mbDebugUnlock_fails (t : Tu) (tag : Byte) {n resp : List Byte} {t0 : Tu} (h : boxReady s 0x91) (hf : s.fuse 13 ≠ 0)
    (hn : s.mgt.nonce = some (n, t0))
    (hbad : tuLe (s.at t).time (tuAdd t0 (ns 60000000000)) = false ∨ s.unlocks n resp = false) :
    ∃ u, exec (.mbDebugUnlock t tag (some resp)) s = .next u ∧ boxDone s u tag 0x3C ∧ u.mgt.nonce = none ∧
      (s.fld Fld.EVT_ROUTE_KIND 469 ≠ 1 → u.evtStatus 469 = true) ∧ onlyRaising s u boxRegs [456, 469] := by
  obtain ⟨r, hr, hrun⟩ := box_runs t tag h (by decide)
  have he := debugUnlock_tries (resp := resp) hr hf hn
  rw [if_neg (by rcases hbad with h | h <;> simp [h])] at he
  have hon : onlyRegs r r.nonceUsed [] := .of_eq rfl rfl (.refl r _)
  have hro : onlyRaising r (r.nonceUsed.raise 469 2 0) [] [469] :=
    .raise (by simp) ((hon.raising rfl).mono (fun _ h => h) (List.nil_subset _))
  obtain ⟨u, hu, hd⟩ := hrun he hro (by simp) (show 0x3C < 256 by decide)
  refine ⟨u, by rw [exec, execMbDebugUnlock]; exact hu, hd.done, ?_, fun hk => ?_,
    hd.only (fun _ h => h) (List.nil_subset _) (by simp) (by simp)⟩
  · exact hd.rest.nonce.trans (State.raise_raises 469 2 0).keepsRest.nonce
  · rw [hd.status 469 (by decide) rfl]
    exact State.raise_raisable ((hr.raisable_hub rfl hk).of_only hon rfl)

theorem portsAreReached_holds : portsAreReached := fun _ t tag =>
  ⟨fun h hw hr => ⟨fun hen hdev => ⟨mbPmbusXfer_done hw hr hen hdev t tag h, mbPmbusXfer_nack hw hr hen hdev t tag h⟩,
      mbPmbusXfer_off t tag h hw hr⟩,
    mbDebugChallenge_fresh t tag, mbDebugChallenge_none t tag, fun _ _ _ h hf hn =>
      ⟨mbDebugUnlock_unlocks t tag h hf hn, mbDebugUnlock_fails t tag h hf hn⟩⟩

/-- Settles O55. -/
theorem mailboxAnswers : Obligations.MailboxAnswers :=
  ⟨mailboxIsUsed_holds, logIsRead_holds, fusesAreBlown_holds, portsAreReached_holds⟩

end Sys2Proof.Machine
end

section
/-! O56: a restart of Basecamp (R385). -/

namespace Sys2Proof.Machine

variable {s t u w r : State}

theorem State.pitchShown_notLoading (hp : s.fld Fld.HUB_PITCH_STATUS_STATE 0 = 1) :
    s.pitchShown.fld Fld.HUB_PITCH_STATUS_STATE 0 ≠ 1 := by
  rw [State.pitchShown, if_pos hp, State.fld_setFld_of_lt _ _ _ (by decide) (by split <;> decide)]
  split <;> decide

/-- A restart that ends a command takes HUB_PITCH_STATUS.STATE out of LOADING. -/
theorem State.beginRestart_notLoading (hbox : s.fld Fld.MGT_MB_STATE_STATE 0 = 1) (hp : s.fld Fld.HUB_PITCH_STATUS_STATE 0 = 1) :
    s.beginRestart.fld Fld.HUB_PITCH_STATUS_STATE 0 ≠ 1 := by
  obtain ⟨w, hw⟩ : ∃ w, w = (s.modGln fun g => { g with attach := none }).pitchShown := ⟨_, rfl⟩
  have hwp : w.fld Fld.HUB_PITCH_STATUS_STATE 0 ≠ 1 := by
    rw [hw]
    exact State.pitchShown_notLoading hp
  have hd := (w.mbDone_reads [] (show mbRestarted < 256 by decide)).2.2.2.2.2.1
  rw [State.beginRestart, if_pos hbox, ← hw, State.fld_setFld_ne _ _ _ _ _ _ (by decide)]
  exact fun h => hwp ((hd.fld (by simp [boxRegs]) rfl).symm.trans h)

/-- Basecamp runs a load of an image. -/
def loadRuns : State :=
  ((({ State.reset with mgt := { Mgt.init with run := 1 } }).setFld
    Fld.MGT_MB_CMD_CMD 0 0x10).setFld Fld.MGT_MB_STATE_STATE 0 1).setFld Fld.HUB_PITCH_STATUS_STATE 0 1

theorem loadRuns_reads : loadRuns.alive = true ∧ loadRuns.mgt.run = 1 ∧ loadRuns.mgt.halted = false ∧
    loadRuns.fld Fld.MGT_MB_STATE_STATE 0 = 1 ∧ loadRuns.fld Fld.HUB_PITCH_STATUS_STATE 0 = 1 := by decide

/-- Refutes O56: a watchdog that ends a running MB_PITCH_LOAD also takes HUB_PITCH_STATUS.STATE out of LOADING, a
register that the statement does not allow MGT_WATCHDOG to change. -/
theorem not_firmwareIsManaged : ¬ Obligations.FirmwareIsManaged := by
  rintro ⟨-, hrun⟩
  obtain ⟨hal, hr, hh, hbox, hp⟩ := loadRuns_reads
  obtain ⟨-, -, -, hdog, -⟩ := hrun loadRuns 0 hal
  obtain ⟨u, hu, -, -, -, -, -, hon⟩ := hdog (.inl hr) hh
  obtain ⟨w, hw, hn⟩ := loadRuns.done_notes ((loadRuns.at 0).beginRestart.raise0 468)
  have hexec : exec (.mgtWatchdog 0) loadRuns = .next w := by
    rw [exec, execMgtWatchdog, State.when_eq hal, State.at_mgt, if_pos ⟨.inl hr, by rw [hh]; rfl⟩]
    exact hw
  obtain rfl : u = w := Host.Outcome.next.inj (hu.symm.trans hexec)
  refine (loadRuns.at 0).beginRestart_notLoading ((State.at_fld ..).trans hbox) ((State.at_fld ..).trans hp) ?_
  refine ((State.raise0_raises 468).fld _ _ rfl).symm.trans ((hn.fld _ _ rfl).symm.trans ?_)
  exact (hon.fld (by simp [boxRegs]) rfl).trans hp

end Sys2Proof.Machine
end

section
/-! O57: sensors, regulators and the log (R391, R392, R395, R402). -/

namespace Sys2Proof.Machine

variable {s t u w r : State} {but : List Reg} {srcs : List Nat}

/-! ### Sensors -/

/-- The registers of the sensors. -/
abbrev senseRegs : List Reg := (List.range 14).map fun n => ⟨.MGT_SENSE, n⟩

/-- From `s` to `t` only sensors and what their raises change have changed, and no source of the hub that is not routed to
Basecamp alone has lost its STATUS. -/
structure SenseWork (s t : State) : Prop where
  only : onlyRaising s t senseRegs [459, 460, 463]
  status : ∀ k, hubSource k = true → s.fld Fld.EVT_ROUTE_KIND k ≠ 1 → s.evtStatus k = true → t.evtStatus k = true

theorem SenseWork.refl (s : State) : SenseWork s s := ⟨.refl _ _ _, fun _ _ _ h => h⟩

theorem SenseWork.fld (h : SenseWork s t) (f : Fld) (i : Nat) (hf : f.reg ≠ .MGT_SENSE) (he : eventReg f.reg = false) :
    t.fld f i = s.fld f i := h.only.fld (by
      intro hm
      obtain ⟨n, -, hn⟩ := List.mem_map.1 hm
      exact hf (congrArg Reg.n hn).symm) he

theorem SenseWork.trans (h : SenseWork s t) (g : SenseWork t u) : SenseWork s u :=
  ⟨h.only.trans g.only, fun k hh hk hs => g.status k hh (by rw [h.fld _ _ (by decide) rfl]; exact hk) (h.status k hh hk hs)⟩

theorem SenseWork.setFld (s : State) {f : Fld} {n : Nat} (v : Nat) (hf : f.reg = .MGT_SENSE) (hn : n < 14) :
    SenseWork s (s.setFld f n v) :=
  ⟨.setFld (List.mem_map.2 ⟨n, List.mem_range.2 hn, by rw [hf]⟩) (by rw [hf]; rfl) (.refl _ _ _), fun k _ _ h => by
    rw [State.evtStatus_setFld _ _ _ _ _ (by rw [hf]; decide)]; exact h⟩

theorem SenseWork.raise (s : State) {k : Nat} (causes info : Nat) (hk : k ∈ [459, 460, 463]) : SenseWork s (s.raise k causes info) := by
  refine ⟨.raise hk (.refl _ _ _), fun j hh hj hs => ?_⟩
  by_cases h : j = k
  · subst h
    exact State.raise_raisable (State.raisable_hub hh hj)
  · rw [State.evtStatus_raise_ne _ _ _ _ _ h]
    exact hs

theorem SenseWork.logNote (s : State) (k d : Nat) (v : Word) : SenseWork s (s.logNote k d v) := by
  have h : Raises s (s.logNote k d v) [] := State.logNote_raises _ _ _
  exact ⟨h.only fun _ hk => absurd hk List.not_mem_nil, fun j _ _ hs => by rw [h.evtStatus List.not_mem_nil]; exact hs⟩

/-- The fields of a level, its threshold, and the event of its setting. -/
def levelFld (crit : Bool) : Fld := if crit then Fld.MGT_SENSE_CRIT else Fld.MGT_SENSE_WARN
def seenFld (crit : Bool) : Fld := if crit then Fld.MGT_SENSE_CRIT_SEEN else Fld.MGT_SENSE_WARN_SEEN
def thrFld (crit : Bool) : Fld := if crit then Fld.MGT_THR_CRIT else Fld.MGT_THR_WARN
def levelEvent (n : Nat) (crit : Bool) : Nat := if 5 ≤ n then 460 else if crit then 463 else 459

theorem levelEvent_mem (n : Nat) (crit : Bool) : levelEvent n crit ∈ [459, 460, 463] := by
  unfold levelEvent
  split
  · simp
  · cases crit <;> simp

theorem levelEvent_hub (n : Nat) (crit : Bool) : hubSource (levelEvent n crit) = true := by
  unfold levelEvent
  split
  · rfl
  · cases crit <;> rfl

/-- How a level follows a value. -/
theorem State.senseLevel_eq (s : State) (n : Nat) (v : Int) (crit : Bool) :
    ∃ causes info v', s.senseLevel n v crit =
      if !s.flag (levelFld crit) n then
        if senseAt n v (threshold s (thrFld crit) n) then
          (((s.setFld (levelFld crit) n 1).setFld (seenFld crit) n 1).raise (levelEvent n crit) causes info)
        else s
      else if senseBack n v (threshold s (thrFld crit) n) then (s.setFld (levelFld crit) n 0).logNote 9 n v' else s := by
  have hthr : (if n < 5 then sgn 16 (if crit then s.fld Fld.MGT_THR_CRIT n else s.fld Fld.MGT_THR_WARN n)
      else ((if crit then s.fld Fld.MGT_THR_CRIT n else s.fld Fld.MGT_THR_WARN n : Nat) : Int)) = threshold s (thrFld crit) n := by
    cases crit <;> rfl
  refine ⟨if 5 ≤ n then (if crit then 2 else 1) else 1, n, w32 (s.reg .MGT_SENSE n).toNat, ?_⟩
  have hraise : ∀ a : State, (if 5 ≤ n then a.raise 460 (if crit then 2 else 1) n else a.raise (if crit then 463 else 459) 1 n) =
      a.raise (levelEvent n crit) (if 5 ≤ n then (if crit then 2 else 1) else 1) n := fun a => by
    unfold levelEvent
    split <;> rfl
  unfold State.senseLevel
  dsimp only
  rw [hthr, hraise]
  cases crit <;> rfl

/-- The fields share no bit. -/
def Fld.apart (f g : Fld) : Prop := g.lsb + g.width ≤ f.lsb ∨ f.lsb + f.width ≤ g.lsb

/-- What follows a value: the level, whether it was seen, and the event of its setting. -/
structure LevelShown (n : Nat) (v : Int) (crit : Bool) (s t : State) : Prop where
  work : SenseWork s t
  level : t.flag (levelFld crit) n = levelAfter (s.flag (levelFld crit) n) n v (threshold s (thrFld crit) n)
  seen : s.flag (levelFld crit) n = false → t.flag (levelFld crit) n = true →
    t.flag (seenFld crit) n = true ∧ (s.fld Fld.EVT_ROUTE_KIND (levelEvent n crit) ≠ 1 → t.evtStatus (levelEvent n crit) = true)
  other : ∀ g, Fld.apart (levelFld crit) g → Fld.apart (seenFld crit) g → eventReg g.reg = false → t.fld g n = s.fld g n
  unit : ∀ m, m ≠ n → t.reg .MGT_SENSE m = s.reg .MGT_SENSE m

theorem State.flag_setFld_bit (s : State) (f : Fld) (n : Nat) (b : Bool) (h : f.lsb + f.width ≤ 32) (hw : f.width = 1) :
    (s.setFld f n b.toNat).flag f n = b := by
  rw [State.flag, State.fld_setFld_of_lt _ _ _ h (by rw [hw]; cases b <;> decide)]
  cases b <;> rfl

/-- The fields of a level. -/
theorem levelFld_bits (crit : Bool) : (levelFld crit).reg = .MGT_SENSE ∧ (seenFld crit).reg = .MGT_SENSE ∧
    (levelFld crit).lsb + (levelFld crit).width ≤ 32 ∧ (seenFld crit).lsb + (seenFld crit).width ≤ 32 ∧
    (levelFld crit).width = 1 ∧ (seenFld crit).width = 1 ∧ Fld.apart (seenFld crit) (levelFld crit) := by
  cases crit <;> exact ⟨rfl, rfl, by decide, by decide, rfl, rfl, by unfold Fld.apart; decide⟩

theorem State.senseLevel_shown (s : State) {n : Nat} (v : Int) (crit : Bool) (hn : n < 14) :
    LevelShown n v crit s (s.senseLevel n v crit) := by
  obtain ⟨hfr, hsr, hfb, hsb, hfw, hsw, hap⟩ := levelFld_bits crit
  obtain ⟨c, i, v', he⟩ := s.senseLevel_eq n v crit
  rw [he]
  split
  · next hoff =>
    have hoff : s.flag (levelFld crit) n = false := by simpa using hoff
    split
    · next hat =>
      obtain ⟨x, hx⟩ : ∃ x, x = (s.setFld (levelFld crit) n 1).setFld (seenFld crit) n 1 := ⟨_, rfl⟩
      have hxw : SenseWork s x := by
        rw [hx]
        exact (SenseWork.setFld s 1 hfr hn).trans (SenseWork.setFld _ 1 hsr hn)
      have hr : Raises x (x.raise (levelEvent n crit) c i) [levelEvent n crit] := State.raise_raises _ _ _
      have hsreg : eventReg .MGT_SENSE = false := rfl
      have hflag : ∀ f : Fld, f.reg = .MGT_SENSE → (x.raise (levelEvent n crit) c i).flag f n = x.flag f n := fun f hf =>
        State.flag_of_reg (hr.reg _ _ (by rw [hf]; rfl))
      have hxf : x.flag (levelFld crit) n = true := by
        rw [hx, State.flag, State.fld_setFld_apart _ _ _ _ _ _ hap]
        exact State.flag_setFld_bit s _ n true hfb hfw
      have hxs : x.flag (seenFld crit) n = true := by
        rw [hx]
        exact State.flag_setFld_bit _ _ n true hsb hsw
      rw [← hx]
      refine ⟨hxw.trans (.raise _ _ _ (levelEvent_mem n crit)), ?_, fun _ _ => ⟨?_, fun hk => ?_⟩, fun g h1 h2 he => ?_, fun m hm => ?_⟩
      · rw [hflag _ hfr, hxf, hoff, levelAfter, if_neg (by decide), hat]
      · rw [hflag _ hsr, hxs]
      · exact State.raise_raisable (State.raisable_hub (levelEvent_hub n crit) (by rw [hxw.fld _ _ (by decide) rfl]; exact hk))
      · rw [hr.fld _ _ he, hx, State.fld_setFld_apart _ _ _ _ _ _ h2, State.fld_setFld_apart _ _ _ _ _ _ h1]
      · rw [hr.reg _ _ rfl, hx, State.setFld, State.reg_setReg_other _ _ _ _ fun h => hm h.2, State.setFld,
          State.reg_setReg_other _ _ _ _ fun h => hm h.2]
    · next hat =>
      refine ⟨.refl _, ?_, fun _ h => ?_, fun _ _ _ _ => rfl, fun _ _ => rfl⟩
      · rw [hoff, levelAfter, if_neg (by decide), Bool.eq_false_iff.2 hat]
      · rw [hoff] at h
        cases h
  · next hoff =>
    have hon : s.flag (levelFld crit) n = true := by simpa using hoff
    have hnot : ∀ t : State, s.flag (levelFld crit) n = false → t.flag (levelFld crit) n = true →
        t.flag (seenFld crit) n = true ∧ (s.fld Fld.EVT_ROUTE_KIND (levelEvent n crit) ≠ 1 →
          t.evtStatus (levelEvent n crit) = true) := fun t h => by rw [hon] at h; cases h
    split
    · next hback =>
      have hr : Raises (s.setFld (levelFld crit) n 0) ((s.setFld (levelFld crit) n 0).logNote 9 n v') [] := State.logNote_raises _ _ _
      refine ⟨(SenseWork.setFld s 0 hfr hn).trans (.logNote _ _ _ _), ?_, hnot _, fun g h1 _ he => ?_, fun m hm => ?_⟩
      · rw [State.flag_of_reg (hr.reg _ _ (by rw [hfr]; rfl)), hon, levelAfter, if_pos rfl, hback]
        exact State.flag_setFld_bit s _ n false hfb hfw
      · rw [hr.fld _ _ he, State.fld_setFld_apart _ _ _ _ _ _ h1]
      · rw [hr.reg _ _ rfl, State.setFld, State.reg_setReg_other _ _ _ _ fun h => hm h.2]
    · next hback =>
      refine ⟨.refl _, ?_, hnot _, fun _ _ _ _ => rfl, fun _ _ => rfl⟩
      rw [hon, levelAfter, if_pos rfl, Bool.eq_false_iff.2 hback]
      rfl

/-- What a sample of sensor `n` shows. -/
structure SampleShown (n : Nat) (x : BitVec 16) (s t : State) : Prop where
  work : SenseWork s t
  value : t.fld Fld.MGT_SENSE_VALUE n = x.toNat
  level : ∀ crit, t.flag (levelFld crit) n = levelAfter (s.flag (levelFld crit) n) n x.toInt (threshold s (thrFld crit) n)
  seen : s.flag Fld.MGT_SENSE_WARN n = false → t.flag Fld.MGT_SENSE_WARN n = true →
    t.flag Fld.MGT_SENSE_WARN_SEEN n = true ∧
      (s.fld Fld.EVT_ROUTE_KIND (levelEvent n false) ≠ 1 → t.evtStatus (levelEvent n false) = true)
  unit : ∀ m, m ≠ n → t.reg .MGT_SENSE m = s.reg .MGT_SENSE m

theorem threshold_of_work (h : SenseWork s t) (crit : Bool) (n : Nat) : threshold t (thrFld crit) n = threshold s (thrFld crit) n := by
  have hf : t.fld (thrFld crit) n = s.fld (thrFld crit) n := h.fld _ _ (by cases crit <;> decide) (by cases crit <;> rfl)
  rw [threshold, threshold, hf]

theorem State.senseValue_shown (s : State) {n : Nat} (x : BitVec 16) (hn : n < 14) : SampleShown n x s (s.senseValue n x) := by
  obtain ⟨w, hw⟩ : ∃ w, w = s.setFld Fld.MGT_SENSE_VALUE n x.toNat := ⟨_, rfl⟩
  have hsw : SenseWork s w := by rw [hw]; exact .setFld s _ rfl hn
  have hwv : w.fld Fld.MGT_SENSE_VALUE n = x.toNat := by
    rw [hw, State.fld_setFld_of_lt _ _ _ (by decide) x.isLt]
  have hwl : ∀ crit, w.flag (levelFld crit) n = s.flag (levelFld crit) n := fun crit => by
    rw [hw, State.flag, State.fld_setFld_apart _ _ _ _ _ _ (by cases crit <;> decide), State.flag]
  have h1 := w.senseLevel_shown x.toInt false hn
  obtain ⟨y, hy⟩ : ∃ y, y = w.senseLevel n x.toInt false := ⟨_, rfl⟩
  rw [← hy] at h1
  have h2 := y.senseLevel_shown x.toInt true hn
  have hz : s.senseValue n x = y.senseLevel n x.toInt true := by rw [hy, hw]; rfl
  have hyw := hsw.trans h1.work
  have hlow : (y.senseLevel n x.toInt true).flag Fld.MGT_SENSE_WARN n = y.flag Fld.MGT_SENSE_WARN n := by
    rw [State.flag, State.flag, h2.other Fld.MGT_SENSE_WARN (by unfold Fld.apart; decide) (by unfold Fld.apart; decide) rfl]
  rw [hz]
  refine ⟨hyw.trans h2.work, ?_, fun crit => ?_, fun hoff hon => ?_, fun m hm => ?_⟩
  · rw [h2.other _ (by unfold Fld.apart; decide) (by unfold Fld.apart; decide) rfl,
      h1.other _ (by unfold Fld.apart; decide) (by unfold Fld.apart; decide) rfl, hwv]
  · cases crit with
    | false =>
      refine hlow.trans (h1.level.trans ?_)
      rw [hwl, threshold_of_work hsw]
    | true =>
      refine h2.level.trans ?_
      have hyl : y.flag (levelFld true) n = s.flag (levelFld true) n := by
        rw [← hwl, State.flag, State.flag, h1.other _ (by unfold Fld.apart; decide) (by unfold Fld.apart; decide) rfl]
      rw [hyl, threshold_of_work hyw]
  · rw [hlow] at hon
    obtain ⟨hseen, hst⟩ := h1.seen ((hwl false).trans hoff) hon
    refine ⟨?_, fun hk => ?_⟩
    · rw [State.flag, h2.other Fld.MGT_SENSE_WARN_SEEN (by unfold Fld.apart; decide) (by unfold Fld.apart; decide) rfl]
      exact hseen
    · refine h2.work.status _ (levelEvent_hub n false) (by rw [hyw.fld _ _ (by decide) rfl]; exact hk) (hst ?_)
      rw [hsw.fld _ _ (by decide) rfl]
      exact hk
  · rw [h2.unit m hm, h1.unit m hm, hw, State.setFld, State.reg_setReg_other _ _ _ _ fun h => hm h.2]

/-- Work on other sensors than `n`. -/
structure OtherSense (n : Nat) (s t : State) : Prop where
  work : SenseWork s t
  reg : t.reg .MGT_SENSE n = s.reg .MGT_SENSE n

/-- One sensor's sample of a round. -/
def State.sampled (v : List (BitVec 16)) (s : State) (n : Nat) : State :=
  match v[n]? with
  | some x => s.senseValue n x
  | none => s

theorem State.sampled_work (v : List (BitVec 16)) (s : State) {n : Nat} (hn : n < 14) :
    SenseWork s (s.sampled v n) ∧ ∀ m, m ≠ n → (s.sampled v n).reg .MGT_SENSE m = s.reg .MGT_SENSE m := by
  unfold State.sampled
  split
  · next x _ => exact ⟨(s.senseValue_shown x hn).work, (s.senseValue_shown x hn).unit⟩
  · exact ⟨.refl _, fun _ _ => rfl⟩

theorem sensorSample_shows (t : Tu) (v : List (BitVec 16)) (ha : s.alive = true) (hrun : s.mgt.run = 1) :
    ∃ u, exec (.sensorSample t v) s = .next u ∧
      (∀ n x, n < 14 → v[n]? = some x → u.fld Fld.MGT_SENSE_VALUE n = x.toNat ∧
        u.flag Fld.MGT_SENSE_WARN n =
          levelAfter (s.flag Fld.MGT_SENSE_WARN n) n x.toInt (threshold s Fld.MGT_THR_WARN n) ∧
        u.flag Fld.MGT_SENSE_CRIT n =
          levelAfter (s.flag Fld.MGT_SENSE_CRIT n) n x.toInt (threshold s Fld.MGT_THR_CRIT n) ∧
        (s.flag Fld.MGT_SENSE_WARN n = false → u.flag Fld.MGT_SENSE_WARN n = true →
          u.flag Fld.MGT_SENSE_WARN_SEEN n = true ∧
          (s.fld Fld.EVT_ROUTE_KIND (if n < 5 then 459 else 460) ≠ 1 →
            u.evtStatus (if n < 5 then 459 else 460) = true))) ∧
      onlyRaising s u senseRegs [459, 460, 463] := by
  obtain ⟨z, hz⟩ : ∃ z, z = (List.range 14).foldl (State.sampled v) (s.at t) := ⟨_, rfl⟩
  have hzw : SenseWork (s.at t) z := by
    rw [hz]
    exact foldl_rel_mem (R := SenseWork) .refl (fun h g => h.trans g)
      (fun a n hn => (a.sampled_work v (List.mem_range.1 hn)).1) (s.at t)
  obtain ⟨u, hu, hn, hon⟩ := s.done_onlyRaising hzw.only
  refine ⟨u, ?_, fun n x hlt hx => ?_, hon⟩
  · rw [exec, execSensorSample, State.when_eq ha, State.at_mgt, if_pos hrun]
    rw [hz] at hu
    exact hu
  · obtain ⟨a, hsa, haz⟩ := foldl_between_mem (R := OtherSense n) (f := State.sampled v) (x := n) (l := List.range 14)
      (fun a => ⟨.refl a, rfl⟩) (fun h g => ⟨h.work.trans g.work, g.reg.trans h.reg⟩)
      (fun a m hm hne => ⟨(a.sampled_work v (List.mem_range.1 hm)).1, (a.sampled_work v (List.mem_range.1 hm)).2 n hne.symm⟩)
      (s.at t) List.nodup_range (List.mem_range.2 hlt)
    rw [← hz, State.sampled, hx] at haz
    dsimp only at haz
    have hsh := a.senseValue_shown x hlt
    have hsm : SenseWork s (s.at t) := ⟨.at (.refl _ _ _), fun k _ _ h => by rw [State.at_evtStatus]; exact h⟩
    have hsa' := hsm.trans hsa.work
    have hun : ∀ f : Fld, f.reg = .MGT_SENSE → u.fld f n = (a.senseValue n x).fld f n := fun f hf => by
      rw [hn.fld _ _ (by rw [hf]; rfl)]
      exact State.fld_of_reg (by rw [hf]; exact haz.reg)
    have hsn : ∀ f : Fld, f.reg = .MGT_SENSE → a.fld f n = s.fld f n := fun f hf =>
      (State.fld_of_reg (by rw [hf]; exact hsa.reg)).trans (State.at_fld _ _ _ _)
    have hlev : ∀ crit, u.flag (levelFld crit) n = levelAfter (s.flag (levelFld crit) n) n x.toInt (threshold s (thrFld crit) n) :=
      fun crit => by
        have h := hsh.level crit
        rw [threshold_of_work hsa', State.flag, State.flag, hsn _ (levelFld_bits crit).1] at h
        rw [State.flag, hun _ (levelFld_bits crit).1, h, State.flag]
    have hev : (if n < 5 then 459 else 460) = levelEvent n false := by
      unfold levelEvent
      split
      · rw [if_neg (by omega)]
        rfl
      · rw [if_pos (by omega)]
    refine ⟨(hun _ rfl).trans hsh.value, hlev false, hlev true, fun hoff honn => ?_⟩
    rw [State.flag, hun _ rfl] at honn
    rw [State.flag, ← hsn _ rfl] at hoff
    obtain ⟨hseen, hst⟩ := hsh.seen hoff honn
    rw [hev]
    refine ⟨?_, fun hk => ?_⟩
    · rw [State.flag, hun _ rfl]
      exact hseen
    · have hka : a.fld Fld.EVT_ROUTE_KIND (levelEvent n false) ≠ 1 := by rw [hsa'.fld _ _ (by decide) rfl]; exact hk
      have hkb : (a.senseValue n x).fld Fld.EVT_ROUTE_KIND (levelEvent n false) ≠ 1 := by
        rw [hsh.work.fld _ _ (by decide) rfl]
        exact hka
      rw [hn.evtStatus (by have := levelEvent_mem n false; revert this; generalize levelEvent n false = k; simp [noteSrcs]; omega)]
      exact haz.work.status _ (levelEvent_hub n false) hkb (hst hka)

end Sys2Proof.Machine
end

section
/-! O57: regulators and the log (R395, R402). -/

namespace Sys2Proof.Machine

variable {s t u w r : State} {but : List Reg} {srcs : List Nat}

/-! ### Regulators -/

/-- The readings of a regulator. -/
def State.pmbShown (s : State) (p : PmbusPoll) : State :=
  (((s.setFld Fld.MGT_PMB_VI_VOUT p.r p.vout.toNat).setFld Fld.MGT_PMB_VI_IOUT p.r p.iout.toNat).setFld
    Fld.MGT_PMB_TS_TEMP p.r p.temp.toNat).setFld Fld.MGT_PMB_TS_STATUS_WORD p.r p.status.toNat

theorem State.pmbShown_reads (s : State) (p : PmbusPoll) :
    (s.pmbShown p).fld Fld.MGT_PMB_VI_VOUT p.r = p.vout.toNat ∧ (s.pmbShown p).fld Fld.MGT_PMB_VI_IOUT p.r = p.iout.toNat ∧
      (s.pmbShown p).fld Fld.MGT_PMB_TS_TEMP p.r = p.temp.toNat ∧
      (s.pmbShown p).fld Fld.MGT_PMB_TS_STATUS_WORD p.r = p.status.toNat ∧
      onlyRegs s (s.pmbShown p) [⟨.MGT_PMB_VI, p.r⟩, ⟨.MGT_PMB_TS, p.r⟩] := by
  unfold State.pmbShown
  refine ⟨?_, ?_, ?_, State.fld_setFld_of_lt _ _ _ (by decide) p.status.isLt,
    .setFld (by simp) (.setFld (by simp) (.setFld (by simp) (.setFld (by simp) (.refl _ _))))⟩
  · rw [State.fld_setFld_ne _ _ _ _ _ _ (by decide), State.fld_setFld_ne _ _ _ _ _ _ (by decide),
      State.fld_setFld_apart _ _ _ _ _ _ (by decide)]
    exact State.fld_setFld_of_lt _ _ _ (by decide) p.vout.isLt
  · rw [State.fld_setFld_ne _ _ _ _ _ _ (by decide), State.fld_setFld_ne _ _ _ _ _ _ (by decide)]
    exact State.fld_setFld_of_lt _ _ _ (by decide) p.iout.isLt
  · rw [State.fld_setFld_apart _ _ _ _ _ _ (by decide)]
    exact State.fld_setFld_of_lt _ _ _ (by decide) p.temp.isLt

/-- A poll of one enabled regulator. -/
theorem exec_pmbusPoll (t : Tu) (p : PmbusPoll) (ha : s.alive = true) (hrun : s.mgt.run = 1)
    (hen : s.flag Fld.MGT_PMB_CFG_EN 0 = true) (hdev : s.flag Fld.MGT_PMB_DEV_EN p.r = true) :
    ∃ w, onlyRegs (s.at t) w [] ∧ exec (.pmbusPoll t [p]) s = s.done (if p.failed then w.raise 464 1 p.r
      else if statusFault p.status then (w.pmbShown p).raise 464 1 p.r else w.pmbShown p) := by
  refine ⟨if (s.at t).fld Fld.MGT_PMB_DEV_PAGE p.r = 0xFF then s.at t else (s.at t).emit (.regulator
    ((s.at t).fld Fld.MGT_PMB_DEV_ADDR p.r) 0 [BitVec.ofNat 8 ((s.at t).fld Fld.MGT_PMB_DEV_PAGE p.r)]),
    .ite (.refl _ _) (.emit (.refl _ _)), ?_⟩
  rw [exec, execPmbusPoll, State.when_eq ha, if_pos ⟨(congrArg Mgt.run (State.at_mgt s t)).trans hrun, (s.at_flag t _ _).trans hen⟩,
    List.foldl_cons, List.foldl_nil, State.polled, s.at_flag t, hdev, if_neg (by decide)]
  rfl

theorem pmbusPoll_reads (t : Tu) (p : PmbusPoll) (ha : s.alive = true) (hrun : s.mgt.run = 1)
    (hen : s.flag Fld.MGT_PMB_CFG_EN 0 = true) (hdev : s.flag Fld.MGT_PMB_DEV_EN p.r = true) (hok : p.failed = false) :
    ∃ u, exec (.pmbusPoll t [p]) s = .next u ∧ u.fld Fld.MGT_PMB_VI_VOUT p.r = p.vout.toNat ∧
      u.fld Fld.MGT_PMB_VI_IOUT p.r = p.iout.toNat ∧ u.fld Fld.MGT_PMB_TS_TEMP p.r = p.temp.toNat ∧
      u.fld Fld.MGT_PMB_TS_STATUS_WORD p.r = p.status.toNat ∧
      (statusFault p.status = true → s.fld Fld.EVT_ROUTE_KIND 464 ≠ 1 → u.evtStatus 464 = true) ∧
      (statusFault p.status = false → sameSource s u 464) ∧
      onlyRaising s u [⟨.MGT_PMB_VI, p.r⟩, ⟨.MGT_PMB_TS, p.r⟩] [464] := by
  obtain ⟨w, hw, he⟩ := exec_pmbusPoll t p ha hrun hen hdev
  rw [hok, if_neg (by decide)] at he
  obtain ⟨h1, h2, h3, h4, hon⟩ := w.pmbShown_reads p
  obtain ⟨u, hu, hr⟩ := State.done_raisedIf (s := s) (c := statusFault p.status = true) (k := 464) (causes := 1) (info := p.r)
    ((hw.mono (List.nil_subset _)).trans hon) rfl rfl
  refine ⟨u, he.trans hu, (hr.fld _ _ rfl).trans h1, (hr.fld _ _ rfl).trans h2, (hr.fld _ _ rfl).trans h3,
    (hr.fld _ _ rfl).trans h4, fun hf hk => hr.status hf (State.raisable_hub rfl hk), fun hf => hr.quiet (by rw [hf]; decide), hr.only⟩

theorem pmbusPoll_fails (t : Tu) (p : PmbusPoll) (ha : s.alive = true) (hrun : s.mgt.run = 1)
    (hen : s.flag Fld.MGT_PMB_CFG_EN 0 = true) (hdev : s.flag Fld.MGT_PMB_DEV_EN p.r = true) (hbad : p.failed = true) :
    ∃ u, exec (.pmbusPoll t [p]) s = .next u ∧ (s.fld Fld.EVT_ROUTE_KIND 464 ≠ 1 → u.evtStatus 464 = true) ∧
      onlyRaising s u [] [464] := by
  obtain ⟨w, hw, he⟩ := exec_pmbusPoll t p ha hrun hen hdev
  rw [hbad, if_pos rfl] at he
  obtain ⟨u, hu, hr⟩ := State.done_raisedIf (s := s) (c := True) (k := 464) (causes := 1) (info := p.r) hw rfl rfl
  rw [if_pos trivial] at hu
  exact ⟨u, he.trans hu, fun hk => hr.status trivial (State.raisable_hub rfl hk), hr.only⟩

/-! ### The summary of a second -/

/-- The counts of a second are gone. -/
def State.summed (s : State) : State := s.modMgt fun m => { m with logged := [] }

/-- One source's summary. -/
def State.summary (s : State) (e : Nat × Nat) : State := if 16 < e.2 then s.logAdd e.1 1 0 (w32 (e.2 - 16)) else s

theorem State.summary_raises (s : State) (e : Nat × Nat) : Raises s (s.summary e) [] := by
  unfold State.summary
  exact .ite (State.logAdd_raises _ _ _ _) (.refl _ _)

/-- A log entry that finds room. -/
theorem State.logAdd_room (s : State) (a k d : Nat) (v : Word) (h : s.mgt.sram.length < 4096) :
    (∃ e, (s.logAdd a k d v).mgt = { s.mgt with sram := e :: s.mgt.sram, nextSeq := s.mgt.nextSeq + 1 } ∧ e.source = a ∧
      e.kind = k ∧ e.data = v ∧ e.seq = s.mgt.nextSeq + 1) ∧
    ∀ n i, n ≠ .MGT_LOG_SEQ → (s.logAdd a k d v).reg n i = s.reg n i := by
  rw [State.logAdd, if_pos h]
  exact ⟨⟨_, rfl, rfl, rfl, rfl, rfl⟩, fun n i hn => State.reg_setFld_ne _ _ _ _ _ _ hn⟩

/-- Summaries that all find room. -/
theorem summaries_room (l : List (Nat × Nat)) (s : State) (h : s.mgt.sram.length + l.length ≤ 4096) :
    (l.foldl State.summary s).mgt.logged = s.mgt.logged ∧
      ∀ n i, n ≠ .MGT_LOG_SEQ → (l.foldl State.summary s).reg n i = s.reg n i := by
  induction l generalizing s with
  | nil => exact ⟨rfl, fun _ _ _ => rfl⟩
  | cons e l ih =>
    rw [List.length_cons] at h
    rw [List.foldl_cons, State.summary]
    split
    · obtain ⟨⟨x, hx, -⟩, hreg⟩ := s.logAdd_room e.1 1 0 (w32 (e.2 - 16)) (by omega)
      obtain ⟨h1, h2⟩ := ih (s.logAdd e.1 1 0 (w32 (e.2 - 16))) (by rw [hx]; simp only [List.length_cons]; omega)
      exact ⟨h1.trans (by rw [hx]), fun n i hn => (h2 n i hn).trans (hreg n i hn)⟩
    · exact ih s (by omega)

theorem exec_logSummary (t : Tu) (ha : s.alive = true) (hrun : s.mgt.run = 1) :
    exec (.logSummary t) s = s.done (s.mgt.logged.foldl State.summary (s.at t).summed) := by
  rw [exec, execLogSummary, State.when_eq ha, if_pos ((congrArg Mgt.run (State.at_mgt s t)).trans hrun), State.at_mgt]
  rfl

theorem logSummary_room (t : Tu) (ha : s.alive = true) (hrun : s.mgt.run = 1)
    (h : s.mgt.sram.length + s.mgt.logged.length ≤ 4096) :
    exec (.logSummary t) s = .next (s.mgt.logged.foldl State.summary (s.at t).summed) ∧
      (s.mgt.logged.foldl State.summary (s.at t).summed).mgt.logged = [] := by
  have hsram : (s.at t).summed.mgt.sram = s.mgt.sram := by rw [← State.at_mgt s t]; rfl
  obtain ⟨hl, hreg⟩ := summaries_room s.mgt.logged (s.at t).summed (by rw [hsram]; exact h)
  refine ⟨(exec_logSummary t ha hrun).trans (State.done_quiet (fun i => ?_) ?_), hl⟩
  · exact (hreg _ _ (by decide)).trans (s.at_reg t _ _)
  · exact (hreg _ _ (by decide)).trans (s.at_reg t _ _)

theorem logSummary_enters (t : Tu) (ha : s.alive = true) (hrun : s.mgt.run = 1) :
    ∃ u, exec (.logSummary t) s = .next u ∧
      (s.mgt.sram.length + s.mgt.logged.length ≤ 4096 → u.mgt.logged = []) ∧
      (∀ k c, s.mgt.logged = [(k, c)] → 16 < c → s.mgt.sram.length < 4096 →
        ∃ e, u.mgt.sram = e :: s.mgt.sram ∧ e.source = k ∧ e.kind = 1 ∧ e.data = w32 (c - 16) ∧
          e.seq = s.mgt.nextSeq + 1) ∧ onlyRaising s u [] [] := by
  have hraises : Raises (s.at t).summed (s.mgt.logged.foldl State.summary (s.at t).summed) [] :=
    foldl_rel_mem (R := fun a b => Raises a b []) (fun a => .refl a _) (fun h g => h.trans g)
      (fun a e _ => a.summary_raises e) _
  have hsum : onlyRaising (s.at t) (s.at t).summed [] [] := .of_eq rfl rfl (.refl (s.at t) _ _)
  obtain ⟨u, hu, -, hon⟩ := s.done_onlyRaising (hsum.trans (hraises.only fun _ h => absurd h List.not_mem_nil))
  have he := (exec_logSummary t ha hrun).trans hu
  refine ⟨u, he, fun hroom => ?_, fun k c hl hc hlt => ?_, hon⟩
  · obtain ⟨h1, h2⟩ := logSummary_room t ha hrun hroom
    rw [Host.Outcome.next.inj (he.symm.trans h1)]
    exact h2
  · have hroom : s.mgt.sram.length + s.mgt.logged.length ≤ 4096 := by rw [hl, List.length_singleton]; omega
    rw [Host.Outcome.next.inj (he.symm.trans (logSummary_room t ha hrun hroom).1), hl, List.foldl_cons, List.foldl_nil,
      State.summary, if_pos hc]
    have hmgt : (s.at t).summed.mgt = { s.mgt with logged := [] } := by rw [← State.at_mgt s t]; rfl
    obtain ⟨⟨e, h1, h2, h3, h4, h5⟩, -⟩ := (s.at t).summed.logAdd_room k 1 0 (w32 (c - 16)) (by rw [hmgt]; exact hlt)
    exact ⟨e, by rw [h1, hmgt], h2, h3, h4, by rw [h5, hmgt]⟩

/-! ### The flush -/

/-- The waiting entries have reached flash. -/
def State.flushed (s : State) : State :=
  s.modMgt fun m => { m with sram := [], flash := { m.flash with log := m.sram.reverse.foldl logPut m.flash.log } }

theorem exec_logFlush (t : Tu) (ok : Bool) (ha : s.alive = true) (hrun : s.mgt.run = 1) (hne : s.mgt.sram ≠ []) :
    exec (.logFlush t ok) s = s.done (if ok then (s.at t).flushed else (s.at t).raise0 467) := by
  rw [exec, execLogFlush, State.when_eq ha, State.at_mgt, if_neg]
  · rfl
  · rintro (h | h)
    · exact h hrun
    · exact hne (List.isEmpty_iff.1 h)

theorem logFlush_moves (t : Tu) (ha : s.alive = true) (hrun : s.mgt.run = 1) (hne : s.mgt.sram ≠ []) :
    (∃ u, exec (.logFlush t true) s = .next u ∧ u.mgt.sram = [] ∧
      u.mgt.flash.log = s.mgt.sram.reverse.foldl logPut s.mgt.flash.log ∧ onlyRegs s u []) ∧
    ∃ u, exec (.logFlush t false) s = .next u ∧ u.mgt.flash = s.mgt.flash ∧ (∀ e ∈ s.mgt.sram, e ∈ u.mgt.sram) ∧
      (s.fld Fld.EVT_ROUTE_KIND 467 ≠ 1 → u.evtStatus 467 = true) ∧ onlyRaising s u [] [467] := by
  refine ⟨?_, ?_⟩
  · have hflush : onlyRegs (s.at t) (s.at t).flushed [] := .of_eq rfl rfl (.refl (s.at t) _)
    obtain ⟨hd, hon⟩ := State.done_onlyRegs hflush rfl
    refine ⟨_, (exec_logFlush t true ha hrun hne).trans hd, rfl, ?_, hon⟩
    rw [← State.at_mgt s t]
    rfl
  · obtain ⟨u, hu, hr⟩ := State.done_raisedIf (s := s) (x := t) (c := True) (k := 467) (causes := 1) (info := 0) (but := [])
      (.refl _ _) rfl rfl
    rw [if_pos trivial] at hu
    have happ := ((s.at t).raise_appends 467 1 0).trans (State.done_appends hu)
    refine ⟨u, (exec_logFlush t false ha hrun hne).trans hu, ?_, fun e he => ?_,
      fun hk => hr.status trivial (State.raisable_hub rfl hk), hr.only⟩
    · rw [hr.raises.keepsRest.flash, State.at_mgt]
    · exact happ.sram.subset (by rw [State.at_mgt]; exact he)

theorem sensorsAndLog_holds : sensorsAndLog := fun _ t ha hrun =>
  ⟨fun v => sensorSample_shows t v ha hrun,
    fun p hen hdev => ⟨pmbusPoll_reads t p ha hrun hen hdev, pmbusPoll_fails t p ha hrun hen hdev⟩,
    logSummary_enters t ha hrun, logFlush_moves t ha hrun⟩

end Sys2Proof.Machine
end

section
/-! O57: the SMBus target (R387 to R389, R401). -/

namespace Sys2Proof.Machine

variable {s t u w r : State} {but : List Reg} {srcs : List Nat} {pec : Bool}

/-! ### Transactions -/

theorem State.whenMgt_eq {x : Tu} {f : State → State} (h : s.mgtUp = true) : s.whenMgt x f = s.done (f (s.at x)) := if_pos h

theorem State.at_smbStatus (s : State) (x : Tu) : (s.at x).smbStatus = s.smbStatus := by
  simp only [State.smbStatus, State.anySense, State.at_flag, State.at_mgt, State.at_pitched]

/-- A transaction that the target takes. -/
theorem State.smbDo_taken {x : Tu} {status : Bool} {f : State → State} (h : smbTakes s pec)
    (hrun : status = true ∨ s.mgt.run = 1) : (s.at x).smbDo pec status f = f (s.at x) := by
  obtain ⟨-, hen, hpec⟩ := h
  rw [State.smbDo, if_neg]
  rw [State.at_flag, State.at_flag, State.at_mgt, hen]
  rintro (h | ⟨h1, h2⟩ | ⟨h1, h2, -⟩)
  · exact absurd h (by decide)
  · rw [hpec h1] at h2
    exact absurd h2 (by decide)
  · rcases hrun with h | h
    · rw [h] at h1
      exact absurd h1 (by decide)
    · exact h2 h

/-- A transaction that the target refuses. -/
theorem State.smbDo_refused {x : Tu} {status : Bool} {f : State → State}
    (h : s.flag Fld.MGT_SMB_CFG_EN 0 = false ∨ (status = false ∧ s.mgt.run = 2)) :
    (s.at x).smbDo pec status f = (s.at x).emit .smbusNack := by
  rw [State.smbDo, if_pos]
  rw [State.at_flag, State.at_mgt]
  rcases h with h | ⟨h1, h2⟩
  · exact .inl (by rw [h]; rfl)
  · exact .inr (.inr ⟨by rw [h1]; rfl, by rw [h2]; decide, by rw [h2]; decide⟩)

/-- An answer that leaves. -/
theorem State.done_answer (s : State) (x : Tu) (o : Out) :
    s.done ((s.at x).emit o) = .next ((s.at x).emit o) ∧ ((s.at x).emit o).out = o :: s.out ∧
      onlyRegs s ((s.at x).emit o) [] := by
  obtain ⟨hd, hon⟩ := State.done_onlyRegs (s := s) (x := x) (but := []) (onlyRegs.emit (o := o) (.refl (s.at x) _)) rfl
  exact ⟨hd, (show _ = o :: (s.at x).out from rfl).trans (congrArg _ (State.at_out s x)), hon⟩

/-- An answer of the target, given how it answers. -/
theorem smb_answers {f : State → State} {status : Bool} {o : Out} (t : Tu) (hup : s.mgtUp = true)
    (hf : (s.at t).smbDo pec status f = (s.at t).emit o) :
    ∃ u, s.whenMgt t (fun s => s.smbDo pec status f) = .next u ∧ u.out = o :: s.out ∧ onlyRegs s u [] := by
  obtain ⟨hd, ho, hon⟩ := s.done_answer t o
  exact ⟨_, by rw [State.whenMgt_eq hup, hf]; exact hd, ho, hon⟩

/-! ### STATUS, the mask, sensors and log entries -/

theorem smbStatus_refused (t : Tu) (hup : s.mgtUp = true) (hen : s.flag Fld.MGT_SMB_CFG_EN 0 = false) :
    ∃ u, exec (.smbStatus t pec) s = .next u ∧ u.out = .smbusNack :: s.out ∧ onlyRegs s u [] :=
  smb_answers t hup (State.smbDo_refused (.inl hen))

theorem smbStatus_answers (t : Tu) (h : smbTakes s pec) :
    ∃ u, exec (.smbStatus t pec) s = .next u ∧ u.out = .smbus (leBytes 2 s.smbStatus) :: s.out ∧ onlyRegs s u [] :=
  smb_answers t h.1 ((State.smbDo_taken h (.inl rfl)).trans (by rw [State.at_smbStatus]))

theorem smbAlertMask_refused (t : Tu) (h : smbTakes s pec) (hrun : s.mgt.run = 2) :
    ∃ u, exec (.smbAlertMask t pec none) s = .next u ∧ u.out = .smbusNack :: s.out ∧ onlyRegs s u [] :=
  smb_answers t h.1 (State.smbDo_refused (.inr ⟨rfl, hrun⟩))

section
variable (h : smbTakes s pec) (hrun : s.mgt.run = 1)
include h hrun

theorem smbAlertMask_answers (t : Tu) :
    ∃ u, exec (.smbAlertMask t pec none) s = .next u ∧
      u.out = .smbus (leBytes 2 s.mgt.smb.alertMask.toNat) :: s.out ∧ onlyRegs s u [] :=
  smb_answers t h.1 ((State.smbDo_taken h (.inr hrun)).trans (by rw [State.at_mgt]))

theorem smbSense_answers (t : Tu) (n : Byte) (hn : n.toNat < 14) :
    ∃ u, exec (.smbSense t pec n) s = .next u ∧
      u.out = .smbus (leBytes 4 (s.reg .MGT_SENSE n.toNat).toNat) :: s.out ∧ onlyRegs s u [] :=
  smb_answers t h.1 ((State.smbDo_taken h (.inr hrun)).trans (by rw [if_pos hn, State.at_reg]))

theorem smbLogEntry_answers (t : Tu) (seq : Word) (e : LogEntry)
    (he : s.logAll.find? (fun e => e.seq == seq.toNat) = some e) :
    ∃ u, exec (.smbLogEntry t pec seq) s = .next u ∧ u.out = .smbus e.bytes :: s.out ∧ onlyRegs s u [] := by
  refine smb_answers t h.1 ((State.smbDo_taken h (.inr hrun)).trans ?_)
  have hl : (s.at t).logAll = s.logAll := by rw [State.logAll, State.at_mgt, State.logAll]
  rw [hl, he]

/-- A new mask of ALERT_N. -/
def State.alertMasked (s : State) (v : BitVec 16) : State := s.modMgt fun m => { m with smb := { m.smb with alertMask := v } }

theorem smbAlertMask_writes (t : Tu) (v : BitVec 16) :
    ∃ u, exec (.smbAlertMask t pec (some v)) s = .next u ∧ u.mgt.smb.alertMask = v ∧ u.out = s.out ∧ onlyRegs s u [] := by
  have hm : onlyRegs (s.at t) ((s.at t).alertMasked v) [] := .of_eq rfl rfl (.refl (s.at t) _)
  obtain ⟨hd, hon⟩ := State.done_onlyRegs hm rfl
  refine ⟨(s.at t).alertMasked v, ?_, rfl, (show _ = (s.at t).out from rfl).trans (State.at_out s t), hon⟩
  rw [exec, execSmbAlertMask, State.whenMgt_eq h.1, State.smbDo_taken h (.inr hrun)]
  exact hd

/-! ### The SMBus mailbox -/

/-- A response read in DONE. -/
theorem smbMbResp_answers (t : Tu) (hst : s.mgt.smb.state = 2) :
    ∃ u bs, exec (.smbMbResp t pec) s = .next u ∧ u.mgt.smb.state = 0 ∧
      u.out = .smbus (leBytes 1 s.mgt.smb.status ++ [s.mgt.smb.tag] ++ bs) :: s.out ∧ bs.length = 32 ∧ onlyRegs s u [] := by
  obtain ⟨bs, hbs⟩ : ∃ bs, bs = ((List.range 8).map fun a => leBytes 4 (s.mgt.smb.res.getD a 0).toNat).flatten := ⟨_, rfl⟩
  obtain ⟨x, hx⟩ : ∃ x, x = (s.at t).emit (.smbus (leBytes 1 s.mgt.smb.status ++ [s.mgt.smb.tag] ++ bs)) := ⟨_, rfl⟩
  obtain ⟨y, hy⟩ : ∃ y, y = x.modMgt fun m => { m with smb := { m.smb with state := 0 } } := ⟨_, rfl⟩
  have hyo : onlyRegs (s.at t) y [] := by
    rw [hy, hx]
    exact .of_eq rfl rfl (.refl (s.at t) _)
  obtain ⟨hd, hon⟩ := State.done_onlyRegs hyo rfl
  refine ⟨y, bs, ?_, by rw [hy]; rfl, ?_, ?_, hon⟩
  · rw [exec, execSmbMbResp, State.whenMgt_eq h.1, State.smbDo_taken h (.inr hrun)]
    dsimp only
    rw [State.at_mgt, ← hbs, ← hx, if_pos hst, ← hy]
    exact hd
  · rw [hy, hx]
    exact (show _ = _ :: (s.at t).out from rfl).trans (congrArg _ (State.at_out s t))
  · rw [hbs, List.length_flatten, List.map_map]
    have hlen : (List.length ∘ fun a => leBytes 4 (s.mgt.smb.res.getD a 0).toNat) = fun _ : Nat => 4 :=
      funext fun a => length_leBytes 4 _
    rw [hlen]
    rfl

/-- What the end of a command of the SMBus mailbox shows. -/
structure SmbEnd (s : State) (tag : Byte) (status : Nat) (u : State) : Prop where
  state : u.mgt.smb.state = 2
  tag : u.mgt.smb.tag = tag
  status : u.mgt.smb.status = status
  event : s.fld Fld.EVT_ROUTE_KIND 465 ≠ 1 → u.evtStatus 465 = true
  only : onlyRaising s u [] [465]

omit h hrun in
/-- The end of a command that left `w`. -/
theorem State.done_smbDone {x : Tu} {tag : Byte} {status : Nat} {res : List Word} (hw : onlyRegs (s.at x) w []) :
    ∃ u, s.done (w.smbDone tag status res) = .next u ∧ SmbEnd s tag status u ∧ u.mgt.smb.res = w.mbResults res := by
  obtain ⟨y, hy⟩ : ∃ y : State, y = { w with free := w.free + 8, mgt := { w.mgt with smb :=
    { w.mgt.smb with state := 2, tag := tag, status := status, res := w.mbResults res } } } := ⟨_, rfl⟩
  have hyo : onlyRegs (s.at x) y [] := by rw [hy]; exact .of_eq rfl rfl hw
  obtain ⟨u, hu, hr⟩ := State.done_raisedIf (s := s) (c := True) (k := 465) (causes := 1) (info := status) hyo rfl rfl
  rw [if_pos trivial] at hu
  have hsmb : u.mgt.smb = y.mgt.smb := by
    obtain ⟨_, _, _, _, _, _, _, _, _, _, _, he⟩ := hr.raises.rest
    rw [he]
  refine ⟨u, ?_, ⟨?_, ?_, ?_, fun hk => hr.status trivial (State.raisable_hub rfl hk), hr.only⟩, ?_⟩
  · rw [State.smbDone]
    dsimp only
    rw [← hy]
    exact hu
  all_goals rw [hsmb, hy]

theorem exec_smbMbReq (t : Tu) (tag : Byte) (cmd : BitVec 16) (args : List Word) (p : PmbusResult) :
    exec (.smbMbReq t pec tag cmd args p) s = s.done ((s.at t).smbRequest tag cmd.toNat args p) := by
  rw [exec, execSmbMbReq, State.whenMgt_eq h.1, State.smbDo_taken h (.inr hrun)]

theorem smbMbReq_ignored (t : Tu) (tag : Byte) (cmd : BitVec 16) (args : List Word) (p : PmbusResult)
    (hst : s.mgt.smb.state ≠ 0) :
    ∃ u, exec (.smbMbReq t pec tag cmd args p) s = .next u ∧ u.mgt = s.mgt ∧ onlyRegs s u [] := by
  refine ⟨s.at t, ?_, State.at_mgt s t, (s.done_at t).2.2⟩
  rw [exec_smbMbReq h hrun, State.smbRequest, State.at_mgt, if_pos hst]
  exact (s.done_at t).1

theorem smbMbReq_notAllowed (t : Tu) (tag : Byte) (cmd : BitVec 16) (args : List Word) (p : PmbusResult)
    (hst : s.mgt.smb.state = 0) (hk : knownCmd cmd.toNat = true) (hs : smbusCmd cmd.toNat = false) :
    ∃ u, exec (.smbMbReq t pec tag cmd args p) s = .next u ∧ SmbEnd s tag mbNotAllowed u := by
  obtain ⟨u, hu, he, -⟩ := State.done_smbDone (s := s) (x := t) (tag := tag) (status := mbNotAllowed) (res := []) (.refl _ _)
  refine ⟨u, ?_, he⟩
  rw [exec_smbMbReq h hrun, State.smbRequest, State.at_mgt, hst, hrun, if_neg (by decide), if_neg (fun h => absurd h.1 (by decide)), hk,
    if_neg (by decide), hs, if_pos (by decide)]
  exact hu

omit h hrun in
theorem State.at_classBusy (s : State) (x : Tu) (cmd : Nat) : (s.at x).classBusy cmd = s.classBusy cmd := by
  rw [State.classBusy, State.classBusy, State.at_fld, State.at_fld]

/-- A request for information that the mailbox takes up. -/
theorem exec_smbMbReq_info (t : Tu) (tag : Byte) (args : List Word) (p : PmbusResult) (hst : s.mgt.smb.state = 0) :
    exec (.smbMbReq t pec tag 1 args p) s = s.done (if s.classBusy 1 then (s.at t).smbDone tag mbBusy [] else
      (mbInfo (s.at t) args).s.smbDone tag (mbInfo (s.at t) args).status (mbInfo (s.at t) args).res) := by
  rw [exec_smbMbReq h hrun, show (1 : BitVec 16).toNat = 1 from rfl, State.smbRequest, State.at_mgt, hst, hrun,
    if_neg (by decide), if_neg (by decide), if_neg (by decide), if_neg (by decide), State.at_classBusy]
  rfl

theorem smbMbReq_busy (t : Tu) (tag : Byte) (args : List Word) (p : PmbusResult) (hst : s.mgt.smb.state = 0)
    (hb : s.classBusy 1 = true) : ∃ u, exec (.smbMbReq t pec tag 1 args p) s = .next u ∧ SmbEnd s tag mbBusy u := by
  obtain ⟨u, hu, he, -⟩ := State.done_smbDone (s := s) (x := t) (tag := tag) (status := mbBusy) (res := []) (.refl _ _)
  refine ⟨u, ?_, he⟩
  rw [exec_smbMbReq_info h hrun t tag args p hst, hb, if_pos rfl]
  exact hu

theorem smbMbReq_info (t : Tu) (tag : Byte) (args : List Word) (p : PmbusResult) (hst : s.mgt.smb.state = 0)
    (hb : s.classBusy 1 = false) :
    ∃ u, exec (.smbMbReq t pec tag 1 args p) s = .next u ∧ SmbEnd s tag mbOk u ∧
      u.mgt.smb.res.head? = some (s.reg .MGT_FW_VER 0) := by
  have hused : onlyRegs (s.at t) (s.at t).used [] := .of_eq rfl rfl (.refl (s.at t) _)
  obtain ⟨u, hu, he, hres⟩ := State.done_smbDone (s := s) (tag := tag) (status := mbOk) (res := (mbInfo (s.at t) args).res) hused
  refine ⟨u, ?_, he, ?_⟩
  · rw [exec_smbMbReq_info h hrun t tag args p hst, hb, if_neg (by decide)]
    exact hu
  · rw [hres]
    exact congrArg some (State.at_reg s t _ _)

end

/-- How the end of a command is told. -/
theorem SmbEnd.told {tag : Byte} {status : Nat} (h : SmbEnd s tag status u) :
    u.mgt.smb.state = 2 ∧ u.mgt.smb.tag = tag ∧ u.mgt.smb.status = status ∧
      (s.fld Fld.EVT_ROUTE_KIND 465 ≠ 1 → u.evtStatus 465 = true) ∧ onlyRaising s u [] [465] :=
  ⟨h.state, h.tag, h.status, h.event, h.only⟩

theorem smbRequests_hold (h : smbTakes s pec) (hrun : s.mgt.run = 1) (t : Tu) (tag : Byte) (cmd : BitVec 16) (args : List Word)
    (p : PmbusResult) (hst : s.mgt.smb.state = 0) :
    (knownCmd cmd.toNat = true → smbusCmd cmd.toNat = false → ∃ u, exec (.smbMbReq t pec tag cmd args p) s = .next u ∧
      u.mgt.smb.state = 2 ∧ u.mgt.smb.tag = tag ∧ u.mgt.smb.status = mbNotAllowed ∧
      (s.fld Fld.EVT_ROUTE_KIND 465 ≠ 1 → u.evtStatus 465 = true) ∧ onlyRaising s u [] [465]) ∧
    (cmd = 1 → s.classBusy 1 = true → ∃ u, exec (.smbMbReq t pec tag cmd args p) s = .next u ∧
      u.mgt.smb.state = 2 ∧ u.mgt.smb.tag = tag ∧ u.mgt.smb.status = mbBusy ∧
      (s.fld Fld.EVT_ROUTE_KIND 465 ≠ 1 → u.evtStatus 465 = true) ∧ onlyRaising s u [] [465]) ∧
    (cmd = 1 → s.classBusy 1 = false → ∃ u, exec (.smbMbReq t pec tag cmd args p) s = .next u ∧
      u.mgt.smb.state = 2 ∧ u.mgt.smb.tag = tag ∧ u.mgt.smb.status = mbOk ∧ u.mgt.smb.res.head? = some (s.reg .MGT_FW_VER 0) ∧
      (s.fld Fld.EVT_ROUTE_KIND 465 ≠ 1 → u.evtStatus 465 = true) ∧ onlyRaising s u [] [465]) := by
  refine ⟨fun hk hs => ?_, fun hc hb => ?_, fun hc hb => ?_⟩
  · obtain ⟨u, hu, he⟩ := smbMbReq_notAllowed h hrun t tag cmd args p hst hk hs
    exact ⟨u, hu, he.told⟩
  · subst hc
    obtain ⟨u, hu, he⟩ := smbMbReq_busy h hrun t tag args p hst hb
    exact ⟨u, hu, he.told⟩
  · subst hc
    obtain ⟨u, hu, he, hres⟩ := smbMbReq_info h hrun t tag args p hst hb
    exact ⟨u, hu, he.state, he.tag, he.status, hres, he.event, he.only⟩

theorem smbusAnswers_holds : smbusAnswers := fun _ t _ =>
  ⟨fun hup hen => smbStatus_refused t hup hen, fun h => ⟨smbStatus_answers t h, smbAlertMask_refused t h⟩,
    fun h hrun => ⟨smbAlertMask_answers h hrun t, smbAlertMask_writes h hrun t, smbSense_answers h hrun t,
      fun tag cmd args p hst => smbRequests_hold h hrun t tag cmd args p hst,
      fun tag cmd args p hst => smbMbReq_ignored h hrun t tag cmd args p hst,
      smbMbResp_answers h hrun t, smbLogEntry_answers h hrun t⟩⟩

/-- Settles O57. -/
theorem managementWatches : Obligations.ManagementWatches := ⟨sensorsAndLog_holds, smbusAnswers_holds⟩

end Sys2Proof.Machine
end

section
/-! O59: power requests (R107, R417). -/

namespace Sys2Proof.Machine

variable {s t u w : State} {but : List Reg} {srcs : List Nat} {r : PwrReq}

/-! ### Requests -/

/-- A request is carried out by the command that asks for it. -/
theorem exec_powerRequest {i : Instr} (t : Tu) (hup : s.hostUp = true) (h : powerRequest t i r) :
    exec i s = s.done ((s.at t).pwrAsk r) := by
  rcases h with ⟨c, busy, rfl, rfl⟩ | ⟨c, rfl, rfl⟩ | ⟨e, busy, rfl, rfl⟩ | ⟨e, rfl, rfl⟩ | ⟨busy, rfl, rfl⟩ | ⟨span, rfl, rfl⟩
  · rw [exec, execClusterSleep, State.whenHost_eq hup]
  · rw [exec, execClusterWake, State.whenHost_eq hup]
  · rw [exec, execEngineSleep, State.whenHost_eq hup]
  · rw [exec, execEngineWake, State.whenHost_eq hup]
  · rw [exec, execStandby, State.whenHost_eq hup]
  · rw [exec, execExitStandby, State.whenHost_eq hup]

theorem powerRequest.op_lt {i : Instr} {t : Tu} (h : powerRequest t i r) : r.op < 8 := by
  rcases h with ⟨c, busy, -, rfl⟩ | ⟨c, -, rfl⟩ | ⟨e, busy, -, rfl⟩ | ⟨e, -, rfl⟩ | ⟨busy, -, rfl⟩ | ⟨span, -, rfl⟩
  · exact show 1 < 8 by decide
  · exact show 2 < 8 by decide
  · exact show 3 < 8 by decide
  · exact show 4 < 8 by decide
  · exact show 5 < 8 by decide
  · exact show 6 < 8 by decide

/-- A request is named. -/
def State.pwrNamed (s : State) (op : Nat) : State := s.setFld Fld.HUB_PWR_STATUS_LAST_OP 0 op

theorem State.pwrNamed_fld (s : State) (op : Nat) (f : Fld) (i : Nat)
    (h : f.lsb + f.width ≤ Fld.HUB_PWR_STATUS_LAST_OP.lsb ∨
      Fld.HUB_PWR_STATUS_LAST_OP.lsb + Fld.HUB_PWR_STATUS_LAST_OP.width ≤ f.lsb) : (s.pwrNamed op).fld f i = s.fld f i :=
  s.fld_setFld_apart _ _ _ _ _ h

theorem State.pwrNamed_reg (s : State) (op : Nat) {n : RegName} (i : Nat) (h : n ≠ .HUB_PWR_STATUS) :
    (s.pwrNamed op).reg n i = s.reg n i := s.reg_setFld_ne _ _ _ _ _ h

/-- What a result shows. -/
theorem State.pwrResult_shows (s : State) {op code : Nat} (hc : code < 8) (hop : s.fld Fld.HUB_PWR_STATUS_LAST_OP 0 = op) :
    pwrShows (s.pwrResult code) op code :=
  ⟨State.fld_setFld_of_lt _ _ _ (by decide) hc, (State.fld_setFld_apart _ _ _ _ _ _ (by decide)).trans hop⟩

theorem pwrShows.of_reg (h : pwrShows t n m) (hr : u.reg .HUB_PWR_STATUS 0 = t.reg .HUB_PWR_STATUS 0) : pwrShows u n m :=
  ⟨(State.fld_of_reg hr).trans h.1, (State.fld_of_reg hr).trans h.2⟩

/-- What only names a request and its result. -/
theorem State.done_pwrResult {x : Tu} {op code : Nat} (hop : op < 8) (hc : code < 8) :
    s.done (((s.at x).pwrNamed op).pwrResult code) = .next (((s.at x).pwrNamed op).pwrResult code) ∧
      pwrShows (((s.at x).pwrNamed op).pwrResult code) op code ∧
      onlyRegs s (((s.at x).pwrNamed op).pwrResult code) [⟨.HUB_PWR_STATUS, 0⟩] := by
  obtain ⟨hd, hon⟩ := State.done_onlyRegs (s := s) (x := x) (t := ((s.at x).pwrNamed op).pwrResult code)
    (but := [⟨.HUB_PWR_STATUS, 0⟩]) (.setFld (.head _) (.setFld (.head _) (.refl _ _))) rfl
  exact ⟨hd, State.pwrResult_shows _ hc (State.fld_setFld_of_lt _ _ _ (by decide) hop), hon⟩

/-- What a node's use depends on: none of it is in HUB_PWR_STATUS. -/
theorem State.inUse_of_regs (hr : ∀ m i, m ≠ .HUB_PWR_STATUS → t.reg m i = s.reg m i) (hrest : ∃ regs, t = { s with regs := regs })
    (n : Nat) : t.inUse n = s.inUse n := by
  have hf : ∀ (f : Fld) i, f.reg ≠ .HUB_PWR_STATUS → t.fld f i = s.fld f i := fun f i h => State.fld_of_reg (hr _ _ h)
  have hflag : ∀ (f : Fld) i, f.reg ≠ .HUB_PWR_STATUS → t.flag f i = s.flag f i := fun f i h => State.flag_of_reg (hr _ _ h)
  obtain ⟨hpitch, hdia, hpmu, hras⟩ : t.pitch = s.pitch ∧ t.dia = s.dia ∧ t.pmu = s.pmu ∧ t.ras = s.ras := by
    obtain ⟨_, rfl⟩ := hrest
    exact ⟨rfl, rfl, rfl, rfl⟩
  have hilv : ∀ c, t.ilv c = s.ilv c := fun c => by rw [State.ilv, State.ilv, hpitch]
  have hch : t.chanNodes = s.chanNodes := funext fun ch => by
    simp (disch := decide) only [State.chanNodes, State.groupOf, State.firstLane, hilv]
  have hreg : t.regionNodes = s.regionNodes := funext fun m => by
    have harm : t.armed m = s.armed m := by simp (disch := decide) only [State.armed, State.segState, hf]
    rw [State.regionNodes, State.regionNodes, harm, State.segChans, State.segChans, hpitch, hch]
  have hq : t.queueNodes = s.queueNodes := funext fun q => by
    have hst : t.qState q = s.qState q := by simp (disch := decide) only [State.qState, hf]
    have hk : t.qKind q = s.qKind q := by simp (disch := decide) only [State.qKind, hf]
    rw [State.queueNodes, State.queueNodes, hst, hk, hch, hf Fld.DMA_Q_KIND_UNIT q (by decide),
      hf Fld.RED_SRC_CH _ (by decide)]
  have hcnt : t.counterNodes = s.counterNodes := funext fun i => by
    have hm : t.measuring i = s.measuring i := hflag _ _ (by decide)
    rw [State.counterNodes, State.counterNodes, hm, hf Fld.TIC_SRC_START i (by decide), hf Fld.TIC_SRC_STOP i (by decide)]
  have hrf : t.rasFld = s.rasFld := funext fun f => funext fun i => by rw [State.rasFld, State.rasFld, hras]
  have hlay : t.layerNodes = s.layerNodes := funext fun l => by
    rw [State.layerNodes, State.layerNodes, hrf, hflag Fld.RAS_LAYER_CFG_EN l (by decide),
      hf Fld.RAS_LAYER_SRC_UNIT l (by decide), hf Fld.RAS_LAYER_SRC_KIND l (by decide)]
  simp (disch := decide) only [State.inUse, hreg, hq, hcnt, hlay, State.nodeTested, State.pmuBusy, State.mc, State.dsiScans,
    State.rasFld, State.attached, hf, hflag, hdia, hpmu, hras]

theorem State.pwrRefused_named (s : State) (op : Nat) (r : PwrReq) : (s.pwrNamed op).pwrRefused r = s.pwrRefused r := by
  have hr : ∀ n i, n ≠ .HUB_PWR_STATUS → (s.pwrNamed op).reg n i = s.reg n i := fun n i h => s.pwrNamed_reg op i h
  have hf : ∀ (f : Fld) i, f.reg ≠ .HUB_PWR_STATUS → (s.pwrNamed op).fld f i = s.fld f i := fun f i h =>
    State.fld_of_reg (hr _ _ h)
  have hp := s.pwrNamed_fld op
  have hg : ∀ n, (s.pwrNamed op).gateOpen n = s.gateOpen n := fun n =>
    State.gateOpen_of_reg (hr _ _ (by decide)) (hr _ _ (by decide))
  have huse : (s.pwrNamed op).inUse = s.inUse := funext fun n => State.inUse_of_regs hr ⟨_, rfl⟩ n
  have hmgt : (s.pwrNamed op).mgt = s.mgt := rfl
  have hb : (s.pwrNamed op).pwrBusy = s.pwrBusy := by
    simp (disch := decide) only [State.pwrBusy, hmgt, hf]
  have hw : ∀ o x, (s.pwrNamed op).pwrWrong o x = s.pwrWrong o x := fun o x => by
    simp (disch := decide) only [State.pwrWrong, State.standby, State.stackFailed, State.flag, hf, hp]
  have hh : ∀ o x, (s.pwrNamed op).pwrHeld o x = s.pwrHeld o x := fun o x => by
    simp (disch := decide) only [State.pwrHeld, hp]
  have hn : (s.pwrNamed op).pwrNodes = s.pwrNodes := funext fun o => funext fun x => by
    unfold State.pwrNodes
    rw [funext hg]
  rw [State.pwrRefused, State.pwrRefused, hb, hw, hh, hn, huse]

/-! ### Requests that wait -/

theorem pwrAsk_busy {x : Tu} (hw : s.pwr.wait.isSome = true) :
    (s.at x).pwrAsk r = ((s.at x).pwrNamed r.op).pwrResult 4 := by
  have h : ((s.at x).pwrNamed r.op).pwr.wait.isSome = true := by rw [← hw, ← State.at_pwr s x]; rfl
  exact if_pos h

theorem pwrAsk_pends {x : Tu} (hw : s.pwr.wait = none) (hg : s.clk.gate.isSome = true) (hr : (s.at x).pwrRefused r = 0) :
    (s.at x).pwrAsk r = (((s.at x).pwrNamed r.op).modPwr fun p => { p with wait := some r }).pwrResult 1 := by
  have h : ((s.at x).pwrNamed r.op).pwr.wait = none := by rw [← hw, ← State.at_pwr s x]; rfl
  have h2 : ((s.at x).pwrNamed r.op).clk.gate.isSome = true := by rw [← hg, ← State.at_clk s x]; rfl
  have h3 := ((s.at x).pwrRefused_named r.op r).trans hr
  have hc : (((s.at x).pwrNamed r.op).clk.gate.isSome && ((s.at x).pwrNamed r.op).pwrRefused r == 0) = true := by
    rw [h2, h3]
    rfl
  have hw' : ¬ ((s.at x).pwrNamed r.op).pwr.wait.isSome = true := by simp [h]
  exact (if_neg hw').trans (if_pos hc)

theorem pwrAsk_runs {x : Tu} (h : controllerFree s) : (s.at x).pwrAsk r = ((s.at x).pwrNamed r.op).pwrRun r := by
  obtain ⟨hg, hw⟩ := h
  have h1 : ((s.at x).pwrNamed r.op).pwr.wait = none := by rw [← hw, ← State.at_pwr s x]; rfl
  have h2 : ((s.at x).pwrNamed r.op).clk.gate = none := by rw [← hg, ← State.at_clk s x]; rfl
  have hw' : ¬ ((s.at x).pwrNamed r.op).pwr.wait.isSome = true := by simp [h1]
  have hg' : ¬ (((s.at x).pwrNamed r.op).clk.gate.isSome && ((s.at x).pwrNamed r.op).pwrRefused r == 0) = true := by simp [h2]
  exact (if_neg hw').trans (if_neg hg')

theorem requestsWait_holds : requestsWait := by
  intro s t i r hup hreq
  have hex := exec_powerRequest t hup hreq
  refine ⟨fun hw => ?_, fun hw hg hr => ?_⟩
  · obtain ⟨hd, hsh, hon⟩ := State.done_pwrResult (s := s) (x := t) (powerRequest.op_lt hreq) (show 4 < 8 by decide)
    refine ⟨_, ?_, hsh, (show _ = (s.at t).pwr from rfl).trans (State.at_pwr s t), hon⟩
    rw [hex, pwrAsk_busy hw]
    exact hd
  · obtain ⟨y, hy⟩ : ∃ y, y = ((s.at t).pwrNamed r.op).modPwr fun p => { p with wait := some r } := ⟨_, rfl⟩
    have hyo : onlyRegs (s.at t) y [⟨.HUB_PWR_STATUS, 0⟩] := by
      have h1 : onlyRegs (s.at t) ((s.at t).pwrNamed r.op) [⟨.HUB_PWR_STATUS, 0⟩] := .setFld (.head _) (.refl _ _)
      rw [hy]
      exact .of_eq rfl rfl h1
    obtain ⟨hd, hon⟩ := State.done_onlyRegs (s := s) (onlyRegs.setFld (f := Fld.HUB_PWR_STATUS_RESULT) (i := 0) (x := 1) (.head _) hyo) rfl
    refine ⟨y.pwrResult 1, ?_, State.pwrResult_shows _ (by decide) ?_, ?_, ?_, hon⟩
    · rw [hex, pwrAsk_pends hw hg hr, ← hy]
      exact hd
    · rw [hy]
      exact State.fld_setFld_of_lt _ _ _ (by decide) (powerRequest.op_lt hreq)
    · rw [hy]
      rfl
    · rw [hy]
      exact (show _ = (s.at t).clk from rfl).trans (State.at_clk s t)

end Sys2Proof.Machine
end

section
/-! O59: what a request that is run makes of the units (R417 to R419). -/

namespace Sys2Proof.Machine

variable {s t u w : State} {but : List Reg} {srcs : List Nat} {r : PwrReq} {i : Instr} {x : Tu}

theorem State.at_inUse_free (h : controllerFree s) (h' : powerRequest x i r) (hup : s.hostUp = true) :
    exec i s = s.done (((s.at x).pwrNamed r.op).pwrRun r) := by
  rw [exec_powerRequest x hup h', pwrAsk_runs h]

/-- A request with a reason against it shows it, and changes nothing else. -/
theorem request_refused (hup : s.hostUp = true) (hf : controllerFree s) (hreq : powerRequest x i r) {c : Nat} (hc0 : c ≠ 0)
    (hc : c < 8) (h : (s.at x).pwrRefused r = c) :
    ∃ u, exec i s = .next u ∧ pwrShows u r.op c ∧ onlyRegs s u [⟨.HUB_PWR_STATUS, 0⟩] := by
  obtain ⟨hd, hsh, hon⟩ := State.done_pwrResult (s := s) (x := x) (powerRequest.op_lt hreq) hc
  have hr : ((s.at x).pwrNamed r.op).pwrRefused r = c := ((s.at x).pwrRefused_named r.op r).trans h
  refine ⟨_, ?_, hsh, hon⟩
  rw [State.at_inUse_free hf hreq hup, State.pwrRun, hr, if_pos hc0]
  exact hd

/-- A node of the request does not close. -/
def pwrFails (s : State) (r : PwrReq) (n : Nat) : Bool := s.forceHonoured n || r.busy == some n

/-- A request with nothing against it, whose nodes all close, is carried out. -/
theorem State.pwrRun_does (h : s.pwrRefused r = 0) (hn : ∀ n ∈ s.pwrNodes r.op r.target, pwrFails s r n = false) :
    s.pwrRun r = (s.pwrDo r).pwrResult 0 := by
  have hany : (s.pwrNodes r.op r.target).any (pwrFails s r) = false := List.any_eq_false.2 fun n hm => by rw [hn n hm]; decide
  rw [State.pwrRun, h, if_neg (by decide)]
  exact if_neg (Bool.eq_false_iff.1 hany)

/-- The nodes of a request that close before the one that does not. -/
def pwrBefore (s : State) (r : PwrReq) : List Nat := (s.pwrNodes r.op r.target).takeWhile fun n => !pwrFails s r n

theorem State.pwrRun_fails (h : s.pwrRefused r = 0) {n : Nat} (hm : n ∈ s.pwrNodes r.op r.target) (hn : pwrFails s r n = true) :
    s.pwrRun r = (((s.closeAll (pwrBefore s r)).openAll (pwrBefore s r).reverse).pwrResult 5).raise0 6 := by
  have hany : (s.pwrNodes r.op r.target).any (pwrFails s r) = true := List.any_eq_true.2 ⟨n, hm, hn⟩
  rw [State.pwrRun, h, if_neg (by decide)]
  exact if_pos hany

theorem State.pwrNamed_power (s : State) (op : Nat) : PowerOnly s (s.pwrNamed op) :=
  s.setPwrFld_power (f := Fld.HUB_PWR_STATUS_LAST_OP) op rfl

/-- The request is named. -/
theorem State.pwrNamed_names (s : State) {op : Nat} (h : op < 8) : (s.pwrNamed op).fld Fld.HUB_PWR_STATUS_LAST_OP 0 = op :=
  State.fld_setFld_of_lt _ _ _ (by decide) h

/-! ### What may close -/

theorem State.named_forceHonoured (s : State) (op n : Nat) : (s.pwrNamed op).forceHonoured n = s.forceHonoured n := by
  have hm : ∀ m, (s.pwrNamed op).muxState m = s.muxState m := fun m => by
    rw [State.muxState, State.muxState, s.pwrNamed_reg op 0 (by decide)]
  simp only [State.forceHonoured, hm]

theorem State.named_gateOpen (s : State) (op n : Nat) : (s.pwrNamed op).gateOpen n = s.gateOpen n :=
  State.gateOpen_of_reg (s.pwrNamed_reg op 0 (by decide)) (s.pwrNamed_reg op 0 (by decide))

theorem State.mem_pwrNodes {n op y : Nat} : n ∈ s.pwrNodes op y ↔
    n ∈ (match op with | 1 => clusterNodes y | 3 => dieNodes y | 5 => standbyNodes | _ => []) ∧ s.gateOpen n = true := by
  unfold State.pwrNodes
  exact List.mem_filter

/-- What may close has no node that is in use, and none that does not close, where no block is told to be busy. -/
theorem mayClose.no_use {ns : List Nat} (h : mayClose s ns) {l : List Nat} (hl : ∀ n ∈ l, n ∈ ns ∧ s.gateOpen n = true) :
    (l.any fun n => s.inUse n) = false :=
  List.any_eq_false.2 fun n hm => by rw [(h n (hl n hm).1 (hl n hm).2).1]; decide

/-- What a request shows that was run to its end: the state it made, but for what notes and delivers. -/
structure PwrEnd (op code : Nat) (s x u : State) : Prop where
  raises : Raises (x.pwrResult code) u noteSrcs
  mem : sameMem s u
  shows : pwrShows u op code
  fld : ∀ f : Fld, f.reg = .HUB_PWR_STATUS → f.lsb + f.width ≤ Fld.HUB_PWR_STATUS_RESULT.lsb ∨
      Fld.HUB_PWR_STATUS_RESULT.lsb + Fld.HUB_PWR_STATUS_RESULT.width ≤ f.lsb → u.fld f 0 = x.fld f 0
  gate : ∀ n, u.gateOpen n = x.gateOpen n

theorem State.done_pwrEnd (x : State) {op code : Nat} (hc : code < 8) (hm : x.mem = s.mem)
    (hop : x.fld Fld.HUB_PWR_STATUS_LAST_OP 0 = op) : ∃ u, s.done (x.pwrResult code) = .next u ∧ PwrEnd op code s x u := by
  obtain ⟨u, hu, hr⟩ := s.done_notes (x.pwrResult code)
  refine ⟨u, hu, hr, fun a => by rw [hr.mem]; exact congrArg (memGet · a) hm,
    pwrShows.of_reg (x.pwrResult_shows hc hop) (hr.reg _ _ rfl), fun f hf h => ?_, fun n => ?_⟩
  · rw [hr.fld _ _ (by rw [hf]; rfl)]
    exact State.fld_setFld_apart _ _ _ _ _ _ h
  · rw [hr.gateOpen]
    exact State.gateOpen_of_reg (State.reg_setFld_ne _ _ _ _ _ _ (by decide)) (State.reg_setFld_ne _ _ _ _ _ _ (by decide))

theorem PwrEnd.dieAsleep {op code : Nat} (h : PwrEnd op code s t u) (e : Nat) : u.dieAsleep e = t.dieAsleep e := by
  rw [State.dieAsleep, State.dieAsleep, h.fld _ rfl (by decide), h.gate]

theorem PwrEnd.clusterAsleep {op code : Nat} (h : PwrEnd op code s t u) (c : Nat) : u.clusterAsleep c = t.clusterAsleep c := by
  rw [State.clusterAsleep, State.clusterAsleep, h.fld _ rfl (by decide), h.gate, h.dieAsleep]

/-! ### Clusters -/

/-- What a cluster's way down shows. -/
structure ClusterDown (c : Nat) (s t : State) : Prop where
  power : PowerOnly s t
  gate : ∀ m, t.gateOpen m = if m ∈ clusterNodes c then false else s.gateOpen m
  clSleep : t.fld Fld.HUB_PWR_STATUS_CL_SLEEP 0 = s.fld Fld.HUB_PWR_STATUS_CL_SLEEP 0 ||| 2 ^ c
  lastOp : t.fld Fld.HUB_PWR_STATUS_LAST_OP 0 = s.fld Fld.HUB_PWR_STATUS_LAST_OP 0

theorem State.clusterDown_reads (s : State) {c : Nat} (hc : c < 4) : ClusterDown c s (s.clusterDown c) := by
  obtain ⟨a, ha⟩ : ∃ a, a = s.closeAll (clusterNodes c) := ⟨_, rfl⟩
  have hsa : NodesShut (clusterNodes c) s a := ha ▸ s.closeAll_shut (clusterNodes_lt c hc)
  have ha' : ∀ f : Fld, f.reg = .HUB_PWR_STATUS → a.fld f 0 = s.fld f 0 := fun f hf =>
    State.fld_of_reg (by rw [hf]; exact hsa.status)
  have hlt : s.fld Fld.HUB_PWR_STATUS_CL_SLEEP 0 ||| 2 ^ c < 2 ^ 4 :=
    Nat.or_lt_two_pow (s.fld_lt Fld.HUB_PWR_STATUS_CL_SLEEP 0) (Nat.pow_lt_pow_right (by decide) hc)
  have heq : s.clusterDown c = a.setFld Fld.HUB_PWR_STATUS_CL_SLEEP 0 (s.fld Fld.HUB_PWR_STATUS_CL_SLEEP 0 ||| 2 ^ c) := by
    rw [State.clusterDown, ← ha, State.setClSleep, if_pos rfl, ha' _ rfl]
  rw [heq]
  refine ⟨hsa.power.trans (a.setPwrFld_power _ rfl), fun m => ?_, State.fld_setFld_of_lt _ _ _ (by decide) hlt, ?_⟩
  · rw [← hsa.gate m]
    exact State.gateOpen_of_reg (State.reg_setFld_ne _ _ _ _ _ _ (by decide)) (State.reg_setFld_ne _ _ _ _ _ _ (by decide))
  · exact (State.fld_setFld_apart _ _ _ _ _ _ (by decide)).trans (ha' _ rfl)

/-- A cluster's way up: its bit clears, and its clock runs. -/
structure ClusterUp (c : Nat) (s t : State) : Prop where
  power : PowerOnly s t
  gate : t.gateOpen (3 + c) = true
  clSleep : (t.fld Fld.HUB_PWR_STATUS_CL_SLEEP 0).testBit c = false
  lastOp : t.fld Fld.HUB_PWR_STATUS_LAST_OP 0 = s.fld Fld.HUB_PWR_STATUS_LAST_OP 0

theorem State.clusterUp_reads (s : State) {c : Nat} (hc : c < 4) : ClusterUp c s (s.clusterUp c) := by
  obtain ⟨a, ha⟩ : ∃ a, a = s.setFld Fld.HUB_PWR_STATUS_CL_SLEEP 0 (s.fld Fld.HUB_PWR_STATUS_CL_SLEEP 0 &&& (15 - 2 ^ c)) := ⟨_, rfl⟩
  have hns : ∀ n ∈ (3 + c) :: a.closedOf (clusterNodes c).reverse.tail, n < 64 := by
    intro n hn
    rcases List.mem_cons.1 hn with rfl | hn
    · omega
    · exact clusterNodes_lt c hc n (List.mem_reverse.1 (List.mem_of_mem_tail (List.mem_filter.1 hn).1))
  obtain ⟨b, hb⟩ : ∃ b, b = a.openAll ((3 + c) :: a.closedOf (clusterNodes c).reverse.tail) := ⟨_, rfl⟩
  have hab := hb ▸ a.openAll_free hns
  have hlt : s.fld Fld.HUB_PWR_STATUS_CL_SLEEP 0 &&& (15 - 2 ^ c) < 2 ^ 4 :=
    Nat.and_lt_two_pow _ (Nat.lt_of_le_of_lt (Nat.sub_le ..) (by decide))
  have heq : s.clusterUp c = b := by
    rw [hb, ha]
    rfl
  rw [heq]
  refine ⟨(ha ▸ s.setPwrFld_power _ rfl : PowerOnly s a).trans hab.power, ?_, ?_, ?_⟩
  · rw [hab.gate, if_pos (List.mem_cons_self ..)]
  · rw [State.fld_of_reg hab.status, ha, State.fld_setFld_of_lt _ _ _ (by decide) hlt, Nat.testBit_and]
    have : (15 - 2 ^ c).testBit c = false := by
      interval_cases c <;> decide
    rw [this, Bool.and_false]
  · rw [State.fld_of_reg hab.status, ha, State.fld_setFld_apart _ _ _ _ _ _ (by decide)]

/-- A die's way up: its bit clears and its clock runs, and its clusters stay asleep. -/
structure DieUp (e : Nat) (s t : State) : Prop where
  awake : t.dieAsleep e = false
  clSleep : t.fld Fld.HUB_PWR_STATUS_CL_SLEEP 0 = s.fld Fld.HUB_PWR_STATUS_CL_SLEEP 0
  lastOp : t.fld Fld.HUB_PWR_STATUS_LAST_OP 0 = s.fld Fld.HUB_PWR_STATUS_LAST_OP 0
  mem : t.mem = s.mem

theorem State.dieUp_reads (s : State) {e : Nat} (he : e < 2) : DieUp e s (s.dieUp e) := by
  obtain ⟨a, ha⟩ : ∃ a, a = s.setFld Fld.HUB_PWR_STATUS_ENG_SLEEP 0 (s.fld Fld.HUB_PWR_STATUS_ENG_SLEEP 0 &&& (3 - 2 ^ e)) := ⟨_, rfl⟩
  obtain ⟨b, hb⟩ : ∃ b, b = a.modSpll e fun p => { p with tryAt := a.time, countAt := a.time } := ⟨_, rfl⟩
  have hbr : ∀ n j, b.reg n j = a.reg n j := fun n j => by rw [hb]; rfl
  have hbm : b.mem = s.mem := by rw [hb, ha]; rfl
  have hns : ∀ n ∈ [1 + e, 23 + e], n < 64 := by
    intro n hn
    simp only [List.mem_cons, List.not_mem_nil, or_false] at hn
    omega
  obtain ⟨c, hc⟩ : ∃ c, c = b.openAll [1 + e, 23 + e] := ⟨_, rfl⟩
  have hbc := hc ▸ b.openAll_free hns
  have hlt : s.fld Fld.HUB_PWR_STATUS_ENG_SLEEP 0 &&& (3 - 2 ^ e) < 2 ^ 2 := Nat.and_lt_two_pow _ (Nat.lt_of_le_of_lt (Nat.sub_le ..) (by decide))
  have hfld : ∀ f : Fld, f.reg = .HUB_PWR_STATUS → c.fld f 0 = a.fld f 0 := fun f hf =>
    (State.fld_of_reg (by rw [hf]; exact hbc.status)).trans (State.fld_of_reg (hbr _ _))
  have hcup : DieUp e s c := by
    refine ⟨?_, ?_, ?_, hbc.power.mem.trans hbm⟩
    · rw [State.dieAsleep, hfld _ rfl, hbc.gate, if_pos (List.mem_cons_self ..), ha,
        State.fld_setFld_of_lt _ _ _ (by decide) hlt, Nat.testBit_and]
      have : (3 - 2 ^ e).testBit e = false := by
        interval_cases e <;> decide
      rw [this, Bool.and_false]
      rfl
    · rw [hfld _ rfl, ha, State.fld_setFld_apart _ _ _ _ _ _ (by decide)]
    · rw [hfld _ rfl, ha, State.fld_setFld_apart _ _ _ _ _ _ (by decide)]
  have heq : s.dieUp e = if 100 < (s.sense (3 + e) - tget 0 s.pwr.entryTemp e).natAbs then c.raise 471 1 e else c := by
    rw [hc, hb, ha]
    rfl
  rw [heq]
  split
  · have hr := State.raise_raises (s := c) 471 1 e
    refine ⟨?_, ?_, ?_, hr.mem.trans hcup.mem⟩
    · rw [State.dieAsleep, hr.fld _ _ rfl, hr.gateOpen]
      exact hcup.awake
    · rw [hr.fld _ _ rfl, hcup.clSleep]
    · rw [hr.fld _ _ rfl, hcup.lastOp]
  · exact hcup

end Sys2Proof.Machine
end

section
/-! O59: clusters and dies sleep and wake (R417 to R419). -/

namespace Sys2Proof.Machine

variable {s t u w : State} {r : PwrReq} {i : Instr} {x : Tu}

/-! ### The reasons against a request -/

theorem State.pwrRefused_busy (h : s.pwrBusy = true) : s.pwrRefused r = 4 := if_pos h

theorem State.pwrRefused_wrong (hb : s.pwrBusy = false) (h : s.pwrWrong r.op r.target = true) : s.pwrRefused r = 3 := by
  rw [State.pwrRefused, if_neg (by rw [hb]; decide), if_pos h]

theorem State.pwrRefused_held (hb : s.pwrBusy = false) (hw : s.pwrWrong r.op r.target = false)
    (h : s.pwrHeld r.op r.target = true) : s.pwrRefused r = 6 := by
  rw [State.pwrRefused, if_neg (by rw [hb]; decide), if_neg (by rw [hw]; decide), if_pos h]

theorem State.pwrRefused_used (hb : s.pwrBusy = false) (hw : s.pwrWrong r.op r.target = false)
    (hh : s.pwrHeld r.op r.target = false) : s.pwrRefused r = if (s.pwrNodes r.op r.target).any (s.inUse ·) then 2 else 0 := by
  rw [State.pwrRefused, if_neg (by rw [hb]; decide), if_neg (by rw [hw]; decide), if_neg (by rw [hh]; decide)]

@[simp] theorem State.at_pwrBusy (s : State) (x : Tu) : (s.at x).pwrBusy = s.pwrBusy := by
  simp only [State.pwrBusy, State.at_mgt, State.at_fld]

@[simp] theorem State.at_pwrHeld (s : State) (x : Tu) (op y : Nat) : (s.at x).pwrHeld op y = s.pwrHeld op y := by
  simp only [State.pwrHeld, State.at_fld]

@[simp] theorem State.at_pwrWrong (s : State) (x : Tu) (op y : Nat) : (s.at x).pwrWrong op y = s.pwrWrong op y := by
  simp only [State.pwrWrong, State.at_standby, State.at_fld, State.stackFailed, State.at_flag]

theorem State.named_pwrNodes (s : State) (op o y : Nat) : (s.pwrNamed op).pwrNodes o y = s.pwrNodes o y := by
  unfold State.pwrNodes
  rw [funext fun n => s.named_gateOpen op n]

theorem State.named_fails (s : State) (op n : Nat) : pwrFails (s.pwrNamed op) r n = pwrFails s r n := by
  rw [pwrFails, pwrFails, s.named_forceHonoured]

/-! ### Requests that are run -/

/-- The state in which a request is run: it is named. -/
def State.asked (s : State) (x : Tu) (r : PwrReq) : State := (s.at x).pwrNamed r.op

theorem request_runs (hup : s.hostUp = true) (hf : controllerFree s) (hreq : powerRequest x i r)
    (h : (s.at x).pwrRefused r = 0) (hn : ∀ n ∈ (s.at x).pwrNodes r.op r.target, pwrFails (s.at x) r n = false) :
    exec i s = s.done (((s.asked x r).pwrDo r).pwrResult 0) := by
  rw [State.at_inUse_free hf hreq hup]
  exact congrArg s.done (State.pwrRun_does (((s.at x).pwrRefused_named r.op r).trans h) fun n hm =>
    ((s.at x).named_fails r.op n).trans (hn n ((s.at x).named_pwrNodes r.op _ _ ▸ hm)))

theorem State.asked_power (s : State) (x : Tu) (r : PwrReq) : PowerOnly (s.at x) (s.asked x r) := (s.at x).pwrNamed_power r.op

theorem State.asked_fld (s : State) (x : Tu) (r : PwrReq) (f : Fld) (j : Nat)
    (h : f.lsb + f.width ≤ Fld.HUB_PWR_STATUS_LAST_OP.lsb ∨
      Fld.HUB_PWR_STATUS_LAST_OP.lsb + Fld.HUB_PWR_STATUS_LAST_OP.width ≤ f.lsb) : (s.asked x r).fld f j = s.fld f j :=
  ((s.at x).pwrNamed_fld r.op f j h).trans (s.at_fld x f j)

theorem State.asked_gateOpen (s : State) (x : Tu) (r : PwrReq) (n : Nat) : (s.asked x r).gateOpen n = s.gateOpen n :=
  ((s.at x).named_gateOpen r.op n).trans (s.at_gateOpen x n)

theorem State.asked_mem (s : State) (x : Tu) (r : PwrReq) : (s.asked x r).mem = s.mem :=
  (s.asked_power x r).mem.trans (s.at_mem x)

/-- A request one of whose nodes does not close: the clocks that closed are open again, and the sleep bits are as they were. -/
theorem request_fails (hup : s.hostUp = true) (hf : controllerFree s) (hreq : powerRequest x i r)
    (h : (s.at x).pwrRefused r = 0) {n : Nat} (hm : n ∈ (s.at x).pwrNodes r.op r.target) (hn : pwrFails (s.at x) r n = true)
    (hlt : ∀ m ∈ (s.at x).pwrNodes r.op r.target, m < 64) :
    ∃ u, exec i s = .next u ∧ pwrShows u r.op 5 ∧
      u.fld Fld.HUB_PWR_STATUS_CL_SLEEP 0 = s.fld Fld.HUB_PWR_STATUS_CL_SLEEP 0 ∧
      (s.fld Fld.EVT_ROUTE_KIND 6 ≠ 1 → u.evtStatus 6 = true) ∧ sameMem s u := by
  have heq : exec i s = s.done ((s.asked x r).pwrRun r) := State.at_inUse_free hf hreq hup
  have hop := (s.at x).pwrNamed_names (powerRequest.op_lt hreq)
  obtain ⟨a, ha⟩ : ∃ a, a = s.asked x r := ⟨_, rfl⟩
  have hrun := State.pwrRun_fails (s := a) (r := r) (n := n) (by rw [ha]; exact ((s.at x).pwrRefused_named r.op r).trans h)
    (by rw [ha]; exact (s.at x).named_pwrNodes r.op _ _ ▸ hm) (by rw [ha]; exact ((s.at x).named_fails r.op n).trans hn)
  have hb : ∀ m ∈ pwrBefore a r, m < 64 := fun m hm' => by
    have := (List.takeWhile_sublist _).subset hm'
    rw [ha] at this
    exact hlt m ((s.at x).named_pwrNodes r.op _ _ ▸ this)
  obtain ⟨b, hbe⟩ : ∃ b, b = a.closeAll (pwrBefore a r) := ⟨_, rfl⟩
  have hab := hbe ▸ a.closeAll_shut hb
  obtain ⟨c, hce⟩ : ∃ c, c = b.openAll (pwrBefore a r).reverse := ⟨_, rfl⟩
  have hbc := hce ▸ b.openAll_free (ns := (pwrBefore a r).reverse) fun m hm' => hb m (List.mem_reverse.1 hm')
  have hpow := hab.power.trans hbc.power
  have hfld : ∀ f : Fld, f.reg = .HUB_PWR_STATUS → c.fld f 0 = a.fld f 0 := fun f hf' =>
    State.fld_of_reg (by rw [hf']; exact hbc.status.trans hab.status)
  obtain ⟨d, hd⟩ : ∃ d, d = c.pwrResult 5 := ⟨_, rfl⟩
  have hr : Raises d (d.raise0 6) [6] := State.raise_raises 6 1 0
  obtain ⟨u, hu, hru⟩ := s.done_notes (d.raise0 6)
  rw [← ha] at heq
  rw [← hbe, ← hce, ← hd] at hrun
  refine ⟨u, by rw [heq, hrun, hu], ?_, ?_, fun hk => ?_, fun y => ?_⟩
  · refine pwrShows.of_reg ?_ ((hru.reg _ _ rfl).trans (hr.reg _ _ rfl))
    rw [hd]
    exact c.pwrResult_shows (by decide) ((hfld _ rfl).trans (ha ▸ hop))
  · rw [hru.fld _ _ rfl, hr.fld _ _ rfl, hd, State.pwrResult, State.fld_setFld_apart _ _ _ _ _ _ (by decide), hfld _ rfl, ha,
      State.asked_fld _ _ _ _ _ (by decide)]
  · rw [hru.evtStatus (by decide)]
    refine State.raise_raisable (State.raisable_hub rfl ?_)
    rw [hd, State.pwrResult, State.fld_setFld_ne _ _ _ _ _ _ (by decide), State.fld_of_reg (hpow.reg _ _ rfl (by decide)), ha,
      State.fld_of_reg ((s.asked_power x r).reg _ _ rfl (by decide)), State.at_fld]
    exact hk
  · rw [hru.mem, hr.mem, hd]
    exact congrArg (memGet · y) (hpow.mem.trans (ha ▸ s.asked_mem x r))

/-! ### CLUSTER_SLEEP -/

/-- The request of a CLUSTER_SLEEP. -/
def clusterSleepReq (c : Fin 4) (busy : Option (Fin 34)) : PwrReq := ⟨1, c.val, busy.map Fin.val, 0⟩

theorem clusterSleep_request (x : Tu) (c : Fin 4) (busy : Option (Fin 34)) :
    powerRequest x (.clusterSleep x c busy) (clusterSleepReq c busy) := Or.inl ⟨c, busy, rfl, rfl⟩

theorem mem_clusterSleep_nodes {c : Fin 4} {busy : Option (Fin 34)} {n : Nat} :
    n ∈ s.pwrNodes (clusterSleepReq c busy).op (clusterSleepReq c busy).target ↔ n ∈ clusterNodes c ∧ s.gateOpen n = true :=
  State.mem_pwrNodes

/-- Nothing is against the sleep of a cluster that is awake and may close. -/
theorem clusterSleep_free {c : Fin 4} {busy : Option (Fin 34)} (hb : s.pwrBusy = false) (hst : s.standby = false)
    (hcl : (s.fld Fld.HUB_PWR_STATUS_CL_SLEEP 0).testBit c = false) (hmay : mayClose (s.at x) (clusterNodes c)) :
    (s.at x).pwrRefused (clusterSleepReq c busy) = 0 := by
  have hw : (s.at x).pwrWrong 1 c = false := by
    rw [State.at_pwrWrong]
    simp [State.pwrWrong, hst, hcl]
  refine (State.pwrRefused_used ((s.at_pwrBusy x).trans hb) hw rfl).trans (if_neg ?_)
  rw [mayClose.no_use hmay fun n hn => mem_clusterSleep_nodes.1 hn]
  decide

theorem clusterSleep_sleeps (c : Fin 4) (hup : s.hostUp = true) (hf : controllerFree s) (hb : s.pwrBusy = false)
    (hst : s.standby = false) (hcl : (s.fld Fld.HUB_PWR_STATUS_CL_SLEEP 0).testBit c = false)
    (hmay : mayClose (s.at x) (clusterNodes c)) :
    ∃ u, exec (.clusterSleep x c none) s = .next u ∧ pwrShows u 1 0 ∧ u.clusterAsleep c = true ∧
      (u.fld Fld.HUB_PWR_STATUS_CL_SLEEP 0).testBit c = true ∧ (∀ n ∈ clusterNodes c, u.gateOpen n = false) ∧
      (∀ n, n < 34 → n ∉ clusterNodes c → u.gateOpen n = s.gateOpen n) ∧ sameMem s u := by
  have hrun := request_runs hup hf (clusterSleep_request x c none) (clusterSleep_free hb hst hcl hmay) fun n hn => by
    obtain ⟨hm, ho⟩ := mem_clusterSleep_nodes.1 hn
    rw [pwrFails, (hmay n hm ho).2]
    rfl
  have hdown := (s.asked x (clusterSleepReq c none)).clusterDown_reads c.2
  obtain ⟨y, hy⟩ : ∃ y, y = (s.asked x (clusterSleepReq c none)).clusterDown c := ⟨_, rfl⟩
  rw [← hy] at hdown
  have hdo : (s.asked x (clusterSleepReq c none)).pwrDo (clusterSleepReq c none) = y := hy.symm
  rw [hdo] at hrun
  obtain ⟨u, hu, he⟩ := y.done_pwrEnd (s := s) (op := 1) (code := 0) (by decide)
    (hdown.power.mem.trans (s.asked_mem x _)) (hdown.lastOp.trans ((s.at x).pwrNamed_names (show 1 < 8 by decide)))
  have hbit : (u.fld Fld.HUB_PWR_STATUS_CL_SLEEP 0).testBit c = true := by
    rw [he.fld _ rfl (by decide), hdown.clSleep, Nat.testBit_or, Nat.testBit_two_pow_self, Bool.or_true]
  refine ⟨u, hrun.trans hu, he.shows, ?_, hbit, fun n hn => ?_, fun n _ hn => ?_, he.mem⟩
  · rw [State.clusterAsleep, hbit, Bool.true_or, Bool.true_or]
  · rw [he.gate, hdown.gate, if_pos hn]
  · rw [he.gate, hdown.gate, if_neg hn, State.asked_gateOpen]

theorem clusterSleep_answers (c : Fin 4) (busy : Option (Fin 34)) (hup : s.hostUp = true) (hf : controllerFree s) :
      (s.pwrBusy = true → ∃ u, exec (.clusterSleep x c busy) s = .next u ∧ pwrShows u 1 4 ∧
        onlyRegs s u [⟨.HUB_PWR_STATUS, 0⟩]) ∧
      (s.pwrBusy = false → s.standby = true ∨ (s.fld Fld.HUB_PWR_STATUS_CL_SLEEP 0).testBit c = true →
        ∃ u, exec (.clusterSleep x c busy) s = .next u ∧ pwrShows u 1 3 ∧ onlyRegs s u [⟨.HUB_PWR_STATUS, 0⟩]) ∧
      (s.pwrBusy = false → s.standby = false → (s.fld Fld.HUB_PWR_STATUS_CL_SLEEP 0).testBit c = false →
        ((∃ n ∈ clusterNodes c, s.gateOpen n = true ∧ (s.at x).inUse n = true) →
          ∃ u, exec (.clusterSleep x c busy) s = .next u ∧ pwrShows u 1 2 ∧ onlyRegs s u [⟨.HUB_PWR_STATUS, 0⟩])) := by
  have hreq := clusterSleep_request x c busy
  refine ⟨fun hb => ?_, fun hb h => ?_, fun hb hst hcl hn => ?_⟩
  · exact request_refused hup hf hreq (by decide) (by decide) (State.pwrRefused_busy ((s.at_pwrBusy x).trans hb))
  · refine request_refused hup hf hreq (by decide) (by decide) (State.pwrRefused_wrong ((s.at_pwrBusy x).trans hb) ?_)
    rw [State.at_pwrWrong]
    exact Bool.or_eq_true_iff.2 h
  · have hw : (s.at x).pwrWrong 1 c = false := by
      rw [State.at_pwrWrong]
      simp [State.pwrWrong, hst, hcl]
    refine request_refused hup hf hreq (by decide) (by decide)
      ((State.pwrRefused_used ((s.at_pwrBusy x).trans hb) hw rfl).trans (if_pos ?_))
    obtain ⟨n, hm, ho, hu⟩ := hn
    exact List.any_eq_true.2 ⟨n, mem_clusterSleep_nodes.2 ⟨hm, (s.at_gateOpen x n).trans ho⟩, hu⟩

theorem clusterSleep_stays (c : Fin 4) (b : Fin 34) (hup : s.hostUp = true) (hf : controllerFree s) (hb : s.pwrBusy = false)
    (hst : s.standby = false) (hcl : (s.fld Fld.HUB_PWR_STATUS_CL_SLEEP 0).testBit c = false)
    (hmay : mayClose (s.at x) (clusterNodes c)) (hm : b.val ∈ clusterNodes c) (ho : s.gateOpen b = true) :
    ∃ u, exec (.clusterSleep x c (some b)) s = .next u ∧ pwrShows u 1 5 ∧
      (u.fld Fld.HUB_PWR_STATUS_CL_SLEEP 0).testBit c = false ∧
      (s.fld Fld.EVT_ROUTE_KIND 6 ≠ 1 → u.evtStatus 6 = true) ∧ sameMem s u := by
  obtain ⟨u, hu, hsh, hbit, hev, hmem⟩ := request_fails hup hf (clusterSleep_request x c (some b))
    (clusterSleep_free hb hst hcl hmay) (n := b) (mem_clusterSleep_nodes.2 ⟨hm, (s.at_gateOpen x b).trans ho⟩)
    (by simp [pwrFails, clusterSleepReq])
    fun m hm' => clusterNodes_lt c c.2 m (mem_clusterSleep_nodes.1 hm').1
  exact ⟨u, hu, hsh, by rw [hbit]; exact hcl, hev, hmem⟩

/-! ### CLUSTER_WAKE -/

theorem clusterWake_answers (c : Fin 4) (hup : s.hostUp = true) (hf : controllerFree s) (hb : s.pwrBusy = false)
    (hst : s.standby = false) (hcl : (s.fld Fld.HUB_PWR_STATUS_CL_SLEEP 0).testBit c = true)
    (heng : (s.fld Fld.HUB_PWR_STATUS_ENG_SLEEP 0).testBit (c / 2) = false) :
      ((s.fld Fld.HUB_PWR_STATUS_THERM_HOLD 0).testBit (c / 2) = true →
        ∃ u, exec (.clusterWake x c) s = .next u ∧ pwrShows u 2 6 ∧ onlyRegs s u [⟨.HUB_PWR_STATUS, 0⟩]) ∧
      ((s.fld Fld.HUB_PWR_STATUS_THERM_HOLD 0).testBit (c / 2) = false →
        ∃ u, exec (.clusterWake x c) s = .next u ∧ pwrShows u 2 0 ∧ u.gateOpen (3 + c) = true ∧
          (u.fld Fld.HUB_PWR_STATUS_CL_SLEEP 0).testBit c = false ∧ sameMem s u) := by
  obtain ⟨r, hr⟩ : ∃ r : PwrReq, r = ⟨2, c.val, none, 0⟩ := ⟨_, rfl⟩
  have hop : r.op = 2 := by rw [hr]
  have htg : r.target = c := by rw [hr]
  have hreq : powerRequest x (.clusterWake x c) r := Or.inr (Or.inl ⟨c, rfl, hr⟩)
  have hw : (s.at x).pwrWrong r.op r.target = false := by
    rw [State.at_pwrWrong, hop, htg]
    simp [State.pwrWrong, hst, hcl, heng]
  have hb' := (s.at_pwrBusy x).trans hb
  have hheld : (s.at x).pwrHeld r.op r.target = (s.fld Fld.HUB_PWR_STATUS_THERM_HOLD 0).testBit (c / 2) := by
    rw [State.at_pwrHeld, hop, htg]
    rfl
  refine ⟨fun h => hop ▸ request_refused hup hf hreq (by decide) (by decide)
    (State.pwrRefused_held hb' hw (hheld.trans h)), fun h => ?_⟩
  have hno : ∀ n, n ∉ (s.at x).pwrNodes r.op r.target := fun n hn => by
    rw [hop] at hn
    exact absurd (State.mem_pwrNodes.1 hn).1 (List.not_mem_nil)
  have hrun := request_runs hup hf hreq ((State.pwrRefused_used hb' hw (hheld.trans h)).trans
    (if_neg (by rw [List.any_eq_false.2 fun n hn => absurd hn (hno n)]; decide))) fun n hn => absurd hn (hno n)
  have hup' := (s.asked x r).clusterUp_reads c.2
  obtain ⟨y, hy⟩ : ∃ y, y = (s.asked x r).clusterUp c := ⟨_, rfl⟩
  have hdo : (s.asked x r).pwrDo r = y := by
    rw [hy, hr]
    rfl
  rw [← hy] at hup'
  rw [hdo] at hrun
  obtain ⟨u, hu, he⟩ := y.done_pwrEnd (s := s) (op := 2) (code := 0) (by decide)
    (hup'.power.mem.trans (s.asked_mem x _)) (hup'.lastOp.trans (((s.at x).pwrNamed_names (by rw [hop]; decide)).trans hop))
  exact ⟨u, hrun.trans hu, he.shows, (he.gate _).trans hup'.gate, by rw [he.fld _ rfl (by decide)]; exact hup'.clSleep, he.mem⟩

/-! ### ENGINE_SLEEP, ENGINE_WAKE -/

theorem engineSleep_sleeps (e : Fin 2) (hup : s.hostUp = true) (hf : controllerFree s) (hb : s.pwrBusy = false)
    (hst : s.standby = false) (heng : (s.fld Fld.HUB_PWR_STATUS_ENG_SLEEP 0).testBit e = false)
    (hmay : mayClose (s.at x) (dieNodes e)) :
    ∃ u, exec (.engineSleep x e none) s = .next u ∧ pwrShows u 3 0 ∧ u.dieAsleep e = true ∧
      (u.fld Fld.HUB_PWR_STATUS_ENG_SLEEP 0).testBit e = true ∧
      (∀ c, c / 2 = e.val → (u.fld Fld.HUB_PWR_STATUS_CL_SLEEP 0).testBit c = true) ∧
      (∀ n ∈ dieNodes e, u.gateOpen n = false) ∧ sameMem s u := by
  obtain ⟨r, hr⟩ : ∃ r : PwrReq, r = ⟨3, e.val, none, 0⟩ := ⟨_, rfl⟩
  have hop : r.op = 3 := by rw [hr]
  have htg : r.target = e := by rw [hr]
  have hbusy : r.busy = none := by rw [hr]
  have hreq : powerRequest x (.engineSleep x e none) r := Or.inr (Or.inr (Or.inl ⟨e, none, rfl, hr⟩))
  have hnodes : ∀ n, n ∈ (s.at x).pwrNodes r.op r.target → n ∈ dieNodes e ∧ (s.at x).gateOpen n = true := fun n hn => by
    rw [hop, htg] at hn
    exact State.mem_pwrNodes.1 hn
  have hw : (s.at x).pwrWrong r.op r.target = false := by
    rw [State.at_pwrWrong, hop, htg]
    simp [State.pwrWrong, hst, heng]
  have hheld : (s.at x).pwrHeld r.op r.target = false := by
    rw [State.at_pwrHeld, hop]
    rfl
  have hrun := request_runs hup hf hreq ((State.pwrRefused_used ((s.at_pwrBusy x).trans hb) hw hheld).trans
    (if_neg (by rw [mayClose.no_use hmay hnodes]; decide))) fun n hn => by
      rw [pwrFails, (hmay n (hnodes n hn).1 (hnodes n hn).2).2, hbusy]
      rfl
  have hdown := (s.asked x r).dieDown_reads e.2
  obtain ⟨y, hy⟩ : ∃ y, y = (s.asked x r).dieDown e := ⟨_, rfl⟩
  have hdo : (s.asked x r).pwrDo r = y := by
    rw [hy, hr]
    rfl
  rw [← hy] at hdown
  rw [hdo] at hrun
  obtain ⟨u, hu, he⟩ := y.done_pwrEnd (s := s) (op := 3) (code := 0) (by decide)
    (hdown.power.mem.trans (s.asked_mem x _)) ((hdown.other _ rfl (by decide) (by decide)).trans
      (((s.at x).pwrNamed_names (by rw [hop]; decide)).trans hop))
  refine ⟨u, hrun.trans hu, he.shows, (he.dieAsleep _).trans hdown.asleep, ?_, fun c hc => ?_, fun n hn => ?_, he.mem⟩
  · rw [he.fld _ rfl (by decide), hdown.engSleep, Nat.testBit_or, Nat.testBit_two_pow_self, Bool.or_true]
  · rw [he.fld _ rfl (by decide), hdown.clSleep, Nat.testBit_or]
    have he2 := e.2
    have : c < 4 := by omega
    have : (3 * 4 ^ e.val).testBit c = true := by
      rw [← hc]
      interval_cases c <;> decide
    rw [this, Bool.or_true]
  · rw [he.gate, hdown.gate, if_pos hn]

theorem engineWake_wakes (e : Fin 2) (hup : s.hostUp = true) (hf : controllerFree s) (hb : s.pwrBusy = false)
    (hst : s.standby = false) (heng : (s.fld Fld.HUB_PWR_STATUS_ENG_SLEEP 0).testBit e = true)
    (hsf : s.stackFailed e = false) (hth : (s.fld Fld.HUB_PWR_STATUS_THERM_HOLD 0).testBit e = false) :
    ∃ u, exec (.engineWake x e) s = .next u ∧ pwrShows u 4 0 ∧ u.dieAsleep e = false ∧
      u.fld Fld.HUB_PWR_STATUS_CL_SLEEP 0 = s.fld Fld.HUB_PWR_STATUS_CL_SLEEP 0 ∧ sameMem s u := by
  obtain ⟨r, hr⟩ : ∃ r : PwrReq, r = ⟨4, e.val, none, 0⟩ := ⟨_, rfl⟩
  have hop : r.op = 4 := by rw [hr]
  have htg : r.target = e := by rw [hr]
  have hreq : powerRequest x (.engineWake x e) r := Or.inr (Or.inr (Or.inr (Or.inl ⟨e, rfl, hr⟩)))
  have hw : (s.at x).pwrWrong r.op r.target = false := by
    rw [State.at_pwrWrong, hop, htg]
    simp [State.pwrWrong, hst, heng, hsf]
  have hheld : (s.at x).pwrHeld r.op r.target = false := by
    rw [State.at_pwrHeld, hop, htg]
    exact hth
  have hno : ∀ n, n ∉ (s.at x).pwrNodes r.op r.target := fun n hn => by
    rw [hop] at hn
    exact absurd (State.mem_pwrNodes.1 hn).1 (List.not_mem_nil)
  have hrun := request_runs hup hf hreq ((State.pwrRefused_used ((s.at_pwrBusy x).trans hb) hw hheld).trans
    (if_neg (by rw [List.any_eq_false.2 fun n hn => absurd hn (hno n)]; decide))) fun n hn => absurd hn (hno n)
  have hup' := (s.asked x r).dieUp_reads e.2
  obtain ⟨y, hy⟩ : ∃ y, y = (s.asked x r).dieUp e := ⟨_, rfl⟩
  have hdo : (s.asked x r).pwrDo r = y := by
    rw [hy, hr]
    rfl
  rw [← hy] at hup'
  rw [hdo] at hrun
  obtain ⟨u, hu, he⟩ := y.done_pwrEnd (s := s) (op := 4) (code := 0) (by decide)
    (hup'.mem.trans (s.asked_mem x _)) (hup'.lastOp.trans (((s.at x).pwrNamed_names (by rw [hop]; decide)).trans hop))
  refine ⟨u, hrun.trans hu, he.shows, (he.dieAsleep _).trans hup'.awake, ?_, he.mem⟩
  rw [he.fld _ rfl (by decide), hup'.clSleep, State.asked_fld _ _ _ _ _ (by decide)]

theorem unitsSleepAndWake_holds : unitsSleepAndWake := by
  intro s x hup hf
  refine ⟨fun c busy => ?_, fun c hb hst hcl heng => clusterWake_answers c hup hf hb hst hcl heng,
    fun e hb hst heng hmay => engineSleep_sleeps e hup hf hb hst heng hmay,
    fun e hb hst heng hsf hth => engineWake_wakes e hup hf hb hst heng hsf hth⟩
  obtain ⟨h1, h2, h3⟩ := clusterSleep_answers (x := x) c busy hup hf
  refine ⟨h1, h2, fun hb hst hcl => ⟨h3 hb hst hcl, fun hmay hn => ?_, fun b hmay hn hm ho => ?_⟩⟩
  · rw [hn]
    exact clusterSleep_sleeps c hup hf hb hst hcl hmay
  · rw [hn]
    exact clusterSleep_stays c b hup hf hb hst hcl hmay hm ho

end Sys2Proof.Machine
end

section
/-! O59: STANDBY and EXIT_STANDBY (R418, R420). -/

namespace Sys2Proof.Machine

variable {s t u w : State} {r : PwrReq} {i : Instr} {x : Tu}

/-! ### What clocks, links and sources keep of the power state -/

/-- The power state, its registers, local time and memory are as before, and so is STATUS of the events of management. -/
structure PowerKept (s t : State) : Prop where
  hub : t.reg .HUB_PWR_STATUS 0 = s.reg .HUB_PWR_STATUS 0
  route : ∀ k, t.reg .EVT_ROUTE k = s.reg .EVT_ROUTE k
  pwr : t.pwr = s.pwr
  mem : t.mem = s.mem
  time : t.time = s.time
  status : ∀ k, 456 ≤ k → t.evtStatus k = s.evtStatus k

theorem PowerKept.refl (s : State) : PowerKept s s := ⟨rfl, fun _ => rfl, rfl, rfl, rfl, fun _ _ => rfl⟩

theorem PowerKept.trans (h : PowerKept s t) (g : PowerKept t u) : PowerKept s u :=
  ⟨g.hub.trans h.hub, fun k => (g.route k).trans (h.route k), g.pwr.trans h.pwr, g.mem.trans h.mem, g.time.trans h.time,
    fun k hk => (g.status k hk).trans (h.status k hk)⟩

theorem PowerKept.ite {c : Prop} [Decidable c] {a b : State} (ha : PowerKept s a) (hb : PowerKept s b) :
    PowerKept s (if c then a else b) := by split <;> assumption

theorem PowerKept.foldl {α : Type} {f : State → α → State} (l : List α) (hf : ∀ a y, PowerKept a (f a y)) (s : State) :
    PowerKept s (l.foldl f s) := by
  induction l generalizing s with
  | nil => exact .refl s
  | cons y l ih => exact (hf s y).trans (ih _)

theorem State.setReg_powerKept (s : State) {n : RegName} (j : Nat) (v : Word)
    (hn : n ∉ [RegName.HUB_PWR_STATUS, .EVT_ROUTE, .EVT_STATUS]) : PowerKept s (s.setReg n j v) := by
  simp only [List.mem_cons, List.not_mem_nil, or_false, not_or] at hn
  obtain ⟨h1, h2, h3⟩ := hn
  exact ⟨s.reg_setReg_ne _ _ _ _ _ (Ne.symm h1), fun k => s.reg_setReg_ne _ _ _ _ _ (Ne.symm h2), rfl, rfl, rfl,
    fun k _ => State.evtStatus_of_reg fun j => s.reg_setReg_ne _ _ _ _ _ (Ne.symm h3)⟩

theorem State.setFld_powerKept (s : State) {f : Fld} (j y : Nat)
    (hn : f.reg ∉ [RegName.HUB_PWR_STATUS, .EVT_ROUTE, .EVT_STATUS]) : PowerKept s (s.setFld f j y) :=
  s.setReg_powerKept j _ hn

theorem Raises.powerKept {ns : List Nat} (h : Raises s t ns) (hns : ∀ k ∈ ns, k < 456) : PowerKept s t := by
  obtain ⟨hp, hm, ht⟩ : t.pwr = s.pwr ∧ t.mem = s.mem ∧ t.time = s.time := by
    obtain ⟨_, _, _, _, _, _, _, _, _, _, _, rfl⟩ := h.rest
    exact ⟨rfl, rfl, rfl⟩
  exact ⟨h.reg _ _ rfl, fun _ => h.reg _ _ rfl, hp, hm, ht, fun k hk => h.evtStatus fun hn => by have := hns k hn; omega⟩

/-- Only components that the power state does not hold have changed. -/
theorem PowerKept.of_eq (hr : t.regs = s.regs) (hp : t.pwr = s.pwr) (hm : t.mem = s.mem) (ht : t.time = s.time) : PowerKept s t :=
  have h : ∀ n j, t.reg n j = s.reg n j := fun n j => by rw [State.reg, State.reg, hr]
  ⟨h _ _, fun _ => h _ _, hp, hm, ht, fun _ _ => State.evtStatus_of_reg fun _ => h _ _⟩

theorem State.loseLink_powerKept (s : State) : PowerKept s s.loseLink := .ite (.of_eq rfl rfl rfl rfl) (.refl s)

theorem State.linkDown_powerKept (s : State) : PowerKept s s.linkDown := by
  unfold State.linkDown
  refine .ite ?_ s.loseLink_powerKept
  have h1 : PowerKept s (s.setFld Fld.GLN_STATUS_LINK_UP 0 0) := s.setFld_powerKept _ _ (by decide)
  have h2 : ∀ w : State, PowerKept w (w.modGln fun g => { g with downAge := 0 }) := fun w => .of_eq rfl rfl rfl rfl
  have h3 : ∀ w : State, PowerKept w w.notePartner := fun w => w.setFld_powerKept _ _ (by decide)
  exact (((h1.trans (h2 _)).trans (h3 _)).trans ((State.raise_raises 48 2 0).powerKept (by decide))).trans
    (State.loseLink_powerKept _)

theorem State.relockIdle_powerKept (s : State) : PowerKept s s.relockIdle :=
  (s.setFld_powerKept (f := Fld.TLK_STATUS_RELOCK_STATE) 0 0 (by decide)).trans (.of_eq rfl rfl rfl rfl)

theorem State.unqualify_powerKept (s : State) (y : Nat) (hy : y < 2) : PowerKept s (s.unqualify y) := by
  have h : PowerKept s ((s.setFld (qualFld y) 0 0).setFld (qcountFld y) 0 0) := by
    interval_cases y <;>
      exact (s.setFld_powerKept _ _ (by decide)).trans (State.setFld_powerKept _ _ _ (by decide))
  exact .ite (h.trans (State.relockIdle_powerKept _)) h

theorem State.jpllUnlock_powerKept (s : State) : PowerKept s s.jpllUnlock :=
  .ite (((s.setFld_powerKept _ _ (by decide)).trans (State.setFld_powerKept _ _ _ (by decide))).trans
    ((State.raise_raises 64 1 0).powerKept (by decide))) (.refl s)

theorem State.setActive_powerKept (s : State) (y : Nat) : PowerKept s (s.setActive y) :=
  ((s.setFld_powerKept _ _ (by decide)).trans (State.setFld_powerKept _ _ _ (by decide))).trans (.of_eq rfl rfl rfl rfl)

/-- Neither source is qualified, and none is active. -/
def State.sourcesLost (s : State) : State := ((((s.unqualify 0).unqualify 1).jpllUnlock).setActive 2).relockIdle

theorem State.sourcesLost_powerKept (s : State) : PowerKept s s.sourcesLost :=
  ((((s.unqualify_powerKept 0 (by decide)).trans (State.unqualify_powerKept _ 1 (by decide))).trans
    (State.jpllUnlock_powerKept _)).trans (State.setActive_powerKept _ 2)).trans (State.relockIdle_powerKept _)

theorem State.sourcesLost_active (s : State) : s.sourcesLost.active = 2 := by
  rw [State.active, State.sourcesLost, State.relockIdle_fld_ne _ _ _ (by decide), State.setActive, State.pmuCoast_fld,
    State.fld_setFld_ne _ _ _ _ _ _ (by decide)]
  exact State.fld_setFld_of_lt _ _ _ (by decide) (by decide)

/-! ### The hub goes down -/

/-- The dies that are awake go down. -/
def State.diesDown (s : State) : State :=
  [1, 0].foldl (fun s e => if (s.fld Fld.HUB_PWR_STATUS_ENG_SLEEP 0).testBit e then s else s.dieDown e) s

/-- A die goes down where it is awake. -/
def State.dieOff (s : State) (e : Nat) : State := if (s.fld Fld.HUB_PWR_STATUS_ENG_SLEEP 0).testBit e then s else s.dieDown e

theorem State.dieOff_reads (s : State) {e : Nat} (he : e < 2) :
    PowerOnly s (s.dieOff e) ∧ (∀ k, ((s.dieOff e).fld Fld.HUB_PWR_STATUS_ENG_SLEEP 0).testBit k =
      (decide (e = k) || (s.fld Fld.HUB_PWR_STATUS_ENG_SLEEP 0).testBit k)) ∧
    ∀ f : Fld, f.reg = .HUB_PWR_STATUS →
      (f.lsb + f.width ≤ Fld.HUB_PWR_STATUS_CL_SLEEP.lsb ∨
        Fld.HUB_PWR_STATUS_CL_SLEEP.lsb + Fld.HUB_PWR_STATUS_CL_SLEEP.width ≤ f.lsb) →
      (f.lsb + f.width ≤ Fld.HUB_PWR_STATUS_ENG_SLEEP.lsb ∨
        Fld.HUB_PWR_STATUS_ENG_SLEEP.lsb + Fld.HUB_PWR_STATUS_ENG_SLEEP.width ≤ f.lsb) →
      (s.dieOff e).fld f 0 = s.fld f 0 := by
  unfold State.dieOff
  split
  · next h =>
    refine ⟨.refl s, fun k => ?_, fun _ _ _ _ => rfl⟩
    by_cases hk : e = k
    · rw [← hk, h, Bool.or_true]
    · rw [decide_eq_false hk, Bool.false_or]
  · have hd := s.dieDown_reads he
    refine ⟨hd.power, fun k => ?_, hd.other⟩
    rw [hd.engSleep, Nat.testBit_or, Nat.testBit_two_pow, Bool.or_comm]

theorem State.diesDown_reads (s : State) :
    PowerOnly s s.diesDown ∧ s.diesDown.fld Fld.HUB_PWR_STATUS_ENG_SLEEP 0 = 3 ∧
    ∀ f : Fld, f.reg = .HUB_PWR_STATUS →
      (f.lsb + f.width ≤ Fld.HUB_PWR_STATUS_CL_SLEEP.lsb ∨
        Fld.HUB_PWR_STATUS_CL_SLEEP.lsb + Fld.HUB_PWR_STATUS_CL_SLEEP.width ≤ f.lsb) →
      (f.lsb + f.width ≤ Fld.HUB_PWR_STATUS_ENG_SLEEP.lsb ∨
        Fld.HUB_PWR_STATUS_ENG_SLEEP.lsb + Fld.HUB_PWR_STATUS_ENG_SLEEP.width ≤ f.lsb) →
      s.diesDown.fld f 0 = s.fld f 0 := by
  obtain ⟨h1, hb1, ho1⟩ := s.dieOff_reads (e := 1) (by decide)
  obtain ⟨h0, hb0, ho0⟩ := (s.dieOff 1).dieOff_reads (e := 0) (by decide)
  have heq : s.diesDown = (s.dieOff 1).dieOff 0 := rfl
  rw [heq]
  refine ⟨h1.trans h0, ?_, fun f hf ha hb => (ho0 f hf ha hb).trans (ho1 f hf ha hb)⟩
  have hlt := ((s.dieOff 1).dieOff 0).fld_lt Fld.HUB_PWR_STATUS_ENG_SLEEP 0
  have hk0 := hb0 0
  have hk1 := hb0 1
  rw [hb1] at hk1
  obtain ⟨n, hn⟩ : ∃ n, n = ((s.dieOff 1).dieOff 0).fld Fld.HUB_PWR_STATUS_ENG_SLEEP 0 := ⟨_, rfl⟩
  rw [← hn] at hlt hk0 hk1 ⊢
  have hn4 : n < 4 := hlt
  interval_cases n
  · exact absurd hk0 (by simp)
  · exact absurd hk1 (by rw [show Nat.testBit 1 1 = false from rfl]; simp)
  · exact absurd hk0 (by simp)
  · rfl

theorem standbyNodes_lt : ∀ n ∈ standbyNodes, n < 64 := by decide

/-- The timers of the hub rest from the standby on. -/
def State.hubRests (s : State) : State :=
  { s with
    pll := { s.pll with feedsLow := true, apllLockAt := none },
    clk := { s.clk with noSrcFrom := none },
    tlk := { s.tlk with echoOpen := false, run := 0 },
    pwr := { s.pwr with entered := s.time } }

/-- The lines and the clock of the hub go. -/
def State.hubCloses (s : State) : State :=
  ((s.setFld Fld.PLL_APLL_STATUS_LOCK 0 0).setFld Fld.TLK_STATUS_BLOCK_LOCK 0 0).setMux 0 3

theorem State.hubCloses_powerKept (s : State) : PowerKept s s.hubCloses :=
  ((s.setFld_powerKept _ _ (by decide)).trans (State.setFld_powerKept _ _ _ (by decide))).trans
    (State.setReg_powerKept _ _ _ (by decide))

/-- What the standby shows. -/
structure HubDown (s t : State) : Prop where
  standby : t.standby = true
  active : t.active = 2
  entered : t.pwr.entered = s.time
  engSleep : t.fld Fld.HUB_PWR_STATUS_ENG_SLEEP 0 = 3
  lastOp : t.fld Fld.HUB_PWR_STATUS_LAST_OP 0 = s.fld Fld.HUB_PWR_STATUS_LAST_OP 0
  holds : t.fld Fld.HUB_PWR_STATUS_THERM_HOLD 0 = s.fld Fld.HUB_PWR_STATUS_THERM_HOLD 0
  mem : t.mem = s.mem
  status : ∀ k, 456 ≤ k → t.evtStatus k = s.evtStatus k

theorem State.standbyDown_reads (s : State) : HubDown s s.standbyDown := by
  obtain ⟨hpow, heng, hoth⟩ := s.diesDown_reads
  have hshut := s.diesDown.closeAll_shut standbyNodes_lt
  obtain ⟨a, ha⟩ : ∃ a, a = s.diesDown.closeAll standbyNodes := ⟨_, rfl⟩
  rw [← ha] at hshut
  obtain ⟨b, hb⟩ : ∃ b, b = a.linkDown.sourcesLost := ⟨_, rfl⟩
  have hbact : b.active = 2 := hb ▸ State.sourcesLost_active _
  have hab : PowerKept a b := hb ▸ a.linkDown_powerKept.trans (State.sourcesLost_powerKept _)
  obtain ⟨c, hc⟩ : ∃ c, c = b.hubCloses := ⟨_, rfl⟩
  have hac : PowerKept a c := hab.trans (hc ▸ b.hubCloses_powerKept)
  obtain ⟨d, hd⟩ : ∃ d, d = c.setFld Fld.HUB_PWR_STATUS_DEVICE 0 1 := ⟨_, rfl⟩
  have heq : s.standbyDown = d.hubRests := by
    rw [hd, hc, hb, ha]
    rfl
  have hpa := hpow.trans hshut.power
  have hfld : ∀ f : Fld, f.reg = .HUB_PWR_STATUS →
      (f.lsb + f.width ≤ Fld.HUB_PWR_STATUS_DEVICE.lsb ∨ Fld.HUB_PWR_STATUS_DEVICE.lsb + Fld.HUB_PWR_STATUS_DEVICE.width ≤ f.lsb) →
      d.hubRests.fld f 0 = s.diesDown.fld f 0 := fun f hf h => by
    refine (show _ = d.fld f 0 from rfl).trans ?_
    rw [hd, State.fld_setFld_apart _ _ _ _ _ _ h]
    exact State.fld_of_reg (by rw [hf]; exact hac.hub.trans hshut.status)
  rw [heq]
  refine ⟨?_, ?_, ?_, (hfld _ rfl (by decide)).trans heng, (hfld _ rfl (by decide)).trans (hoth _ rfl (by decide) (by decide)),
    (hfld _ rfl (by decide)).trans (hoth _ rfl (by decide) (by decide)), ?_, fun k hk => ?_⟩
  · refine beq_iff_eq.2 ((show _ = d.fld Fld.HUB_PWR_STATUS_DEVICE 0 from rfl).trans ?_)
    rw [hd]
    exact State.fld_setFld_of_lt _ _ _ (by decide) (by decide)
  · refine (show _ = d.active from rfl).trans ?_
    rw [hd, State.active, State.fld_setFld_ne _ _ _ _ _ _ (by decide), hc, State.hubCloses,
      State.fld_of_reg ((State.setMux_only _ 0 3).1 _ _ (by decide)), State.fld_setFld_ne _ _ _ _ _ _ (by decide),
      State.fld_setFld_ne _ _ _ _ _ _ (by decide)]
    exact hbact
  · refine (show _ = d.time from rfl).trans ?_
    rw [hd]
    exact (hac.time.trans hpa.time)
  · refine (show _ = d.mem from rfl).trans ?_
    rw [hd]
    exact hac.mem.trans hpa.mem
  · have h1 : d.hubRests.evtStatus k = c.evtStatus k := by
      rw [hd]
      exact State.evtStatus_of_reg fun _ => (show _ = (c.setFld Fld.HUB_PWR_STATUS_DEVICE 0 1).reg _ _ from rfl).trans
        (State.reg_setFld_ne _ _ _ _ _ _ (by decide))
    exact h1.trans ((hac.status k hk).trans (hpa.status k (by omega)))

theorem standby_rests (hup : s.hostUp = true) (hf : controllerFree s) (hb : s.pwrBusy = false) (hst : s.standby = false)
    (hmay : mayClose (s.at x) standbyNodes) :
    ∃ u, exec (.standby x none) s = .next u ∧ pwrShows u 5 0 ∧ u.standby = true ∧ u.active = 2 ∧
      u.pwr.entered = (s.at x).time ∧ u.fld Fld.HUB_PWR_STATUS_ENG_SLEEP 0 = 3 ∧ sameMem s u := by
  obtain ⟨r, hr⟩ : ∃ r : PwrReq, r = ⟨5, 0, none, 0⟩ := ⟨_, rfl⟩
  have hop : r.op = 5 := by rw [hr]
  have hbusy : r.busy = none := by rw [hr]
  have hreq : powerRequest x (.standby x none) r := Or.inr (Or.inr (Or.inr (Or.inr (Or.inl ⟨none, rfl, hr⟩))))
  have hnodes : ∀ n, n ∈ (s.at x).pwrNodes r.op r.target → n ∈ standbyNodes ∧ (s.at x).gateOpen n = true := fun n hn => by
    rw [hop] at hn
    exact State.mem_pwrNodes.1 hn
  have hw : (s.at x).pwrWrong r.op r.target = false := by
    rw [State.at_pwrWrong, hop]
    exact hst
  have hheld : (s.at x).pwrHeld r.op r.target = false := by
    rw [State.at_pwrHeld, hop]
    rfl
  have hrun := request_runs hup hf hreq ((State.pwrRefused_used ((s.at_pwrBusy x).trans hb) hw hheld).trans
    (if_neg (by rw [mayClose.no_use hmay hnodes]; decide))) fun n hn => by
      rw [pwrFails, (hmay n (hnodes n hn).1 (hnodes n hn).2).2, hbusy]
      rfl
  have hdown := (s.asked x r).standbyDown_reads
  obtain ⟨y, hy⟩ : ∃ y, y = (s.asked x r).standbyDown := ⟨_, rfl⟩
  have hdo : (s.asked x r).pwrDo r = y := by
    rw [hy, hr]
    rfl
  rw [← hy] at hdown
  rw [hdo] at hrun
  obtain ⟨u, hu, he⟩ := y.done_pwrEnd (s := s) (op := 5) (code := 0) (by decide)
    (hdown.mem.trans (s.asked_mem x _)) (hdown.lastOp.trans (((s.at x).pwrNamed_names (by rw [hop]; decide)).trans hop))
  refine ⟨u, hrun.trans hu, he.shows, ?_, ?_, ?_, ?_, he.mem⟩
  · have h := hdown.standby
    rw [State.standby] at h ⊢
    rw [he.fld _ rfl (by decide)]
    exact h
  · rw [State.active, he.raises.fld _ _ rfl, State.pwrResult, State.fld_setFld_ne _ _ _ _ _ _ (by decide)]
    exact hdown.active
  · rw [he.raises.pwr]
    exact hdown.entered.trans (s.asked_power x r).time
  · rw [he.fld _ rfl (by decide), hdown.engSleep]

/-! ### The hub wakes -/

theorem tuMove_tuDiff (a b : Tu) : tuMove (tuDiff a b) a = b := by
  rw [tuMove, tuDiff, BitVec.ofInt_toInt]
  exact add_sub_cancel _ _

/-- The timers of the hub start again. -/
def State.hubStarts (s : State) : State :=
  { s with
    clk := { s.clk with noSrcFrom := some s.time, qualAt := s.time, linkBroke := true },
    pll := { s.pll with jpllFrom := s.time, apllFrom := s.time } }

/-- What the end of the standby shows. -/
structure HubUp (at_ : Tu) (s t : State) : Prop where
  standby : t.standby = false
  time : t.time = at_
  epoch : t.flag Fld.TLK_STATUS_EPOCH_VALID 0 = false
  lastOp : t.fld Fld.HUB_PWR_STATUS_LAST_OP 0 = s.fld Fld.HUB_PWR_STATUS_LAST_OP 0
  engSleep : t.fld Fld.HUB_PWR_STATUS_ENG_SLEEP 0 = s.fld Fld.HUB_PWR_STATUS_ENG_SLEEP 0
  mem : t.mem = s.mem

theorem State.standbyUp_reads (s : State) (span : Tu) : HubUp (s.pwr.entered + span) s (s.standbyUp span) := by
  obtain ⟨hr, hm, ht, -, -⟩ := s.moveTime_reads (tuDiff s.time (s.pwr.entered + span))
  rw [tuMove_tuDiff] at ht
  obtain ⟨a, ha⟩ : ∃ a, a = s.moveTime (tuDiff s.time (s.pwr.entered + span)) := ⟨_, rfl⟩
  rw [← ha] at hr hm ht
  have har : ∀ n j, a.reg n j = s.reg n j := fun n j => by rw [State.reg, State.reg, hr]
  obtain ⟨b, hb⟩ : ∃ b, b = (a.setFld Fld.HUB_PWR_STATUS_DEVICE 0 0).setFld Fld.TLK_STATUS_EPOCH_VALID 0 0 := ⟨_, rfl⟩
  obtain ⟨c, hc⟩ : ∃ c, c = b.hubStarts := ⟨_, rfl⟩
  have hcr : ∀ n j, c.reg n j = b.reg n j := fun n j => by rw [hc]; rfl
  obtain ⟨ns, hns⟩ : ∃ ns, ns = c.closedOf [25, 26, 27, 28, 29, 30, 31, 32, 33] := ⟨_, rfl⟩
  have hlt : ∀ n ∈ ns, n < 64 := fun n hn => by
    rw [hns] at hn
    have hm := (List.mem_filter.1 hn).1
    simp only [List.mem_cons, List.not_mem_nil, or_false] at hm
    omega
  have hopen := c.openAll_free hlt
  have heq : s.standbyUp span = c.openAll ns := by
    rw [hns, hc, hb, ha]
    rfl
  rw [← heq] at hopen
  have hfld : ∀ f : Fld, f.reg = .HUB_PWR_STATUS →
      (f.lsb + f.width ≤ Fld.HUB_PWR_STATUS_DEVICE.lsb ∨ Fld.HUB_PWR_STATUS_DEVICE.lsb + Fld.HUB_PWR_STATUS_DEVICE.width ≤ f.lsb) →
      (s.standbyUp span).fld f 0 = s.fld f 0 := fun f hf h => by
    have h1 : (s.standbyUp span).reg f.reg 0 = c.reg f.reg 0 := by
      rw [hf]
      exact hopen.status
    rw [State.fld_of_reg h1, State.fld_of_reg (hcr _ _), hb,
      State.fld_setFld_ne _ _ _ _ _ _ (by rw [hf]; decide), State.fld_setFld_apart _ _ _ _ _ _ h, State.fld_of_reg (har _ _)]
  refine ⟨?_, ?_, ?_, hfld _ rfl (by decide), hfld _ rfl (by decide), ?_⟩
  · have h0 : (s.standbyUp span).fld Fld.HUB_PWR_STATUS_DEVICE 0 = 0 := by
      rw [State.fld_of_reg hopen.status, State.fld_of_reg (hcr _ _), hb, State.fld_setFld_ne _ _ _ _ _ _ (by decide)]
      exact State.fld_setFld_of_lt _ _ _ (by decide) (by decide)
    rw [State.standby, h0]
    rfl
  · rw [hopen.power.time, hc]
    refine (show _ = b.time from rfl).trans ?_
    rw [hb]
    exact ht
  · rw [State.flag, State.fld_of_reg (hopen.power.reg _ _ rfl (by decide)), State.fld_of_reg (hcr _ _), hb,
      State.fld_setFld_of_lt _ _ _ (by decide) (show 0 < 2 ^ Fld.TLK_STATUS_EPOCH_VALID.width by decide)]
    rfl
  · rw [hopen.power.mem, hc]
    refine (show _ = b.mem from rfl).trans ?_
    rw [hb]
    exact hm

theorem exitStandby_answers (span : Tu) (hup : s.hostUp = true) (hf : controllerFree s) (hb : s.pwrBusy = false)
    (hst : s.standby = true) :
      ((s.fld Fld.HUB_PWR_STATUS_THERM_HOLD 0).testBit 2 = false →
        ∃ u, exec (.exitStandby x span) s = .next u ∧ pwrShows u 6 0 ∧ u.standby = false ∧
          u.time = s.pwr.entered + span ∧ u.flag Fld.TLK_STATUS_EPOCH_VALID 0 = false ∧
          u.fld Fld.HUB_PWR_STATUS_ENG_SLEEP 0 = s.fld Fld.HUB_PWR_STATUS_ENG_SLEEP 0 ∧ sameMem s u) ∧
      ((s.fld Fld.HUB_PWR_STATUS_THERM_HOLD 0).testBit 2 = true →
        ∃ u, exec (.exitStandby x span) s = .next u ∧ pwrShows u 6 6 ∧ onlyRegs s u [⟨.HUB_PWR_STATUS, 0⟩]) := by
  obtain ⟨r, hr⟩ : ∃ r : PwrReq, r = ⟨6, 0, none, span⟩ := ⟨_, rfl⟩
  have hop : r.op = 6 := by rw [hr]
  have hreq : powerRequest x (.exitStandby x span) r := Or.inr (Or.inr (Or.inr (Or.inr (Or.inr ⟨span, rfl, hr⟩))))
  have hw : (s.at x).pwrWrong r.op r.target = false := by
    rw [State.at_pwrWrong, hop]
    exact (congrArg (!·) hst)
  have hheld : (s.at x).pwrHeld r.op r.target = (s.fld Fld.HUB_PWR_STATUS_THERM_HOLD 0).testBit 2 := by
    rw [State.at_pwrHeld, hop]
    rfl
  have hb' := (s.at_pwrBusy x).trans hb
  suffices hwake : (s.fld Fld.HUB_PWR_STATUS_THERM_HOLD 0).testBit 2 = false →
        ∃ u, exec (.exitStandby x span) s = .next u ∧ pwrShows u 6 0 ∧ u.standby = false ∧
          u.time = s.pwr.entered + span ∧ u.flag Fld.TLK_STATUS_EPOCH_VALID 0 = false ∧
          u.fld Fld.HUB_PWR_STATUS_ENG_SLEEP 0 = s.fld Fld.HUB_PWR_STATUS_ENG_SLEEP 0 ∧ sameMem s u by
    refine ⟨hwake, fun h => ?_⟩
    have hno := request_refused hup hf hreq (c := 6) (by decide) (by decide) (State.pwrRefused_held hb' hw (hheld.trans h))
    rw [hop] at hno
    exact hno
  intro h
  have hno : ∀ n, n ∉ (s.at x).pwrNodes r.op r.target := fun n hn => by
    rw [hop] at hn
    exact absurd (State.mem_pwrNodes.1 hn).1 (List.not_mem_nil)
  have hrun := request_runs hup hf hreq ((State.pwrRefused_used hb' hw (hheld.trans h)).trans
    (if_neg (by rw [List.any_eq_false.2 fun n hn => absurd hn (hno n)]; decide))) fun n hn => absurd hn (hno n)
  have hup' := (s.asked x r).standbyUp_reads span
  obtain ⟨y, hy⟩ : ∃ y, y = (s.asked x r).standbyUp span := ⟨_, rfl⟩
  have hdo : (s.asked x r).pwrDo r = y := by
    rw [hy, hr]
    rfl
  have hent : (s.asked x r).pwr = s.pwr := (show _ = (s.at x).pwr from rfl).trans (s.at_pwr x)
  rw [← hy, hent] at hup'
  rw [hdo] at hrun
  obtain ⟨u, hu, he⟩ := y.done_pwrEnd (s := s) (op := 6) (code := 0) (by decide)
    (hup'.mem.trans (s.asked_mem x _)) (hup'.lastOp.trans (((s.at x).pwrNamed_names (by rw [hop]; decide)).trans hop))
  refine ⟨u, hrun.trans hu, he.shows, ?_, ?_, ?_, ?_, he.mem⟩
  · have h := hup'.standby
    rw [State.standby] at h ⊢
    rw [he.fld _ rfl (by decide)]
    exact h
  · rw [he.raises.time]
    exact hup'.time
  · rw [State.flag_of_reg (he.raises.reg _ _ rfl), State.pwrResult, State.flag_of_reg (State.reg_setFld_ne _ _ _ _ _ _ (by decide))]
    exact hup'.epoch
  · rw [he.fld _ rfl (by decide), hup'.engSleep, State.asked_fld _ _ _ _ _ (by decide)]

end Sys2Proof.Machine
end

section
/-! O59: thermal hold (R421). -/

namespace Sys2Proof.Machine

variable {s t u w : State} {but : List Reg} {x : Tu}

/-! ### What stops for a hold keeps -/

/-- The power state and its register are as before, and so are the routes and STATUS of the thermal event. -/
structure HeatKept (s t : State) : Prop where
  hub : t.reg .HUB_PWR_STATUS 0 = s.reg .HUB_PWR_STATUS 0
  route : ∀ k, t.reg .EVT_ROUTE k = s.reg .EVT_ROUTE k
  pwr : t.pwr = s.pwr
  status : t.evtStatus 463 = s.evtStatus 463

theorem HeatKept.refl (s : State) : HeatKept s s := ⟨rfl, fun _ => rfl, rfl, rfl⟩

theorem HeatKept.trans (h : HeatKept s t) (g : HeatKept t u) : HeatKept s u :=
  ⟨g.hub.trans h.hub, fun k => (g.route k).trans (h.route k), g.pwr.trans h.pwr, g.status.trans h.status⟩

theorem HeatKept.ite {c : Prop} [Decidable c] {a b : State} (ha : HeatKept s a) (hb : HeatKept s b) :
    HeatKept s (if c then a else b) := by split <;> assumption

theorem HeatKept.foldl {α : Type} {f : State → α → State} {l : List α} (hf : ∀ a, ∀ y ∈ l, HeatKept a (f a y)) (s : State) :
    HeatKept s (l.foldl f s) := by
  induction l generalizing s with
  | nil => exact .refl s
  | cons y l ih =>
    exact (hf s y (List.mem_cons_self ..)).trans (ih (fun a z hz => hf a z (List.mem_cons_of_mem _ hz)) _)

theorem PowerKept.heat (h : PowerKept s t) : HeatKept s t := ⟨h.hub, h.route, h.pwr, h.status 463 (by decide)⟩

/-- Registers of units only. -/
def unitsBut (but : List Reg) : Bool := but.all fun r => r.n != .HUB_PWR_STATUS && r.n != .EVT_ROUTE

theorem onlyRaising.heat {srcs : List Nat} (h : onlyRaising s t but srcs) (hb : unitsBut but = true) (hs : 463 ∉ srcs)
    (hp : t.pwr = s.pwr) : HeatKept s t := by
  have hreg : ∀ n j, n = .HUB_PWR_STATUS ∨ n = .EVT_ROUTE → (⟨n, j⟩ : Reg) ∉ but := fun n j hn hm => by
    have := List.all_eq_true.1 hb _ hm
    rcases hn with rfl | rfl <;> simp at this
  exact ⟨h.1 _ _ (hreg _ _ (.inl rfl)) rfl, fun k => h.1 _ _ (hreg _ _ (.inr rfl)) rfl, hp, h.evtStatus hs rfl⟩

theorem RegionWork.heat {m : Nat} (h : RegionWork m but s t) (hb : unitsBut but = true) (hm : m < 32) : HeatKept s t := by
  refine h.only.heat hb (by simp; omega) ?_
  obtain ⟨_, _, _, _, _, _, _, _, _, _, _, _, _, rfl⟩ := h.rest
  rfl

theorem TicWork.heat {i : Nat} (h : TicWork i but s t) (hb : unitsBut but = true) (hi : i < 32) : HeatKept s t := by
  refine h.only.heat hb (by simp; omega) ?_
  obtain ⟨_, _, _, _, _, _, _, _, _, _, _, _, _, rfl⟩ := h.rest
  rfl

theorem State.setReg_heat (s : State) {n : RegName} (j : Nat) (v : Word)
    (hn : n ∉ [RegName.HUB_PWR_STATUS, .EVT_ROUTE, .EVT_STATUS]) : HeatKept s (s.setReg n j v) :=
  (s.setReg_powerKept j v hn).heat

theorem State.setFld_heat (s : State) {f : Fld} (j y : Nat)
    (hn : f.reg ∉ [RegName.HUB_PWR_STATUS, .EVT_ROUTE, .EVT_STATUS]) : HeatKept s (s.setFld f j y) :=
  (s.setFld_powerKept j y hn).heat

/-- A change of a unit's own record. -/
theorem HeatKept.of_eq (hr : t.regs = s.regs) (hp : t.pwr = s.pwr) : HeatKept s t :=
  have h : ∀ n j, t.reg n j = s.reg n j := fun n j => by rw [State.reg, State.reg, hr]
  ⟨h _ _, fun _ => h _ _, hp, State.evtStatus_of_reg fun _ => h _ _⟩

theorem State.truncate_heat (s : State) (m : Nat) (step : Bool) (f : Frame) : HeatKept s (s.truncate m step f) := by
  unfold State.truncate
  split
  · exact .refl s
  · exact .ite (.refl s) (.ite (.refl s) (.of_eq rfl rfl))

theorem State.disarm_heat (s : State) {m : Nat} (hm : m < 32) : HeatKept s (s.disarm m) := by
  obtain ⟨a, ha⟩ : ∃ a, a = s.setFld Fld.SEG_ARM_ARM m 0 := ⟨_, rfl⟩
  have hsa : HeatKept s a := ha ▸ s.setFld_heat m 0 (by decide)
  have hset : ∀ w : State, HeatKept w (w.setSeg m 0) := fun w => w.setFld_heat m 0 (by decide)
  have hmod : ∀ (w : State) g, HeatKept w (w.modRegion m g) := fun w g => .of_eq rfl rfl
  rw [State.disarm, ← ha]
  refine .ite hsa (.ite ?_ ?_)
  · have hcut : HeatKept s (if s.segState m = 3 then a.cutBlock m (.ofTu s.time) else a) :=
      .ite (hsa.trans ((a.cutBlock_blockWork m _).work.heat rfl hm)) hsa
    exact (hcut.trans (hset _)).trans (hmod _ _)
  · exact ((hsa.trans (a.truncate_heat m false _)).trans (hset _)).trans (hmod _ _)

theorem State.beginDrain_heat (s : State) (q : Nat) : HeatKept s (s.beginDrain q) := by
  have h : HeatKept s (s.setQState q 2) := s.setFld_heat q 2 (by decide)
  exact .ite (h.trans (.of_eq rfl rfl)) h

theorem State.ticAbort_heat (s : State) {i : Nat} (hi : i < 32) : HeatKept s (s.ticAbort i) :=
  .ite ((s.ticEnd_work i tsAborted _ (by decide)).heat rfl hi) (.refl s)

theorem State.modTic_heat (s : State) (i : Nat) (f : Tic → Tic) : HeatKept s (s.modTic i f) := .of_eq rfl rfl

theorem State.commitTicCfg_heat (s : State) {i : Nat} (v : Word) (hi : i < 32) : HeatKept s (s.commitTicCfg i v) := by
  obtain ⟨a, ha⟩ : ∃ a, a = s.ticSettle i s.time (s.time - 1) := ⟨_, rfl⟩
  have hsa : HeatKept s a := ha ▸ (s.ticSettle_work i _ _).heat rfl hi
  have hput : ∀ (w : State) c, HeatKept w ((w.setReg .TIC_CFG i c).ticNote i) := fun w c =>
    (w.setReg_heat i c (by decide)).trans (State.setFld_heat _ _ _ (by decide))
  have hmeas : ∀ (w : State) y, HeatKept w (w.setFld Fld.TIC_STATUS_MEASURING i y) := fun w y => w.setFld_heat i y (by decide)
  have hcfg : ∀ (w : State) (f : Fld) y, f.reg = .TIC_CFG → HeatKept w (w.setFld f i y) := fun w f y hf =>
    w.setFld_heat i y (by rw [hf]; decide)
  unfold State.commitTicCfg
  dsimp only
  rw [← ha]
  refine hsa.trans (.ite ?_ (.ite ?_ (.ite ?_ (.ite ?_ (hput _ _)))))
  · exact ((hput _ _).trans (hmeas _ _)).trans (State.modTic_heat _ _ _)
  · exact (((((hcfg a Fld.TIC_CFG_RUN 0 rfl).trans (State.ticAbort_heat _ hi)).trans (hput _ _)).trans (hmeas _ _))).trans
      (State.modTic_heat _ _ _)
  · exact ((((hcfg a Fld.TIC_CFG_REPEAT 1 rfl).trans (State.ticAbort_heat _ hi)).trans (hput _ _)).trans (hmeas _ _)).trans
      (State.modTic_heat _ _ _)
  · exact .ite ((hput _ _).trans (State.modTic_heat _ _ _)) (hput _ _)

theorem State.holdStops_heat (s : State) (z : Nat) : HeatKept s (s.holdStops z) := by
  unfold State.holdStops
  extract_lets inDie s1 s2 s3
  have h1 : HeatKept s s1 := .foldl (fun a m hm =>
    a.disarm_heat (List.mem_range.1 (List.mem_filter.1 (List.mem_filter.1 hm).1).1)) s
  have h2 : HeatKept s1 s2 := .foldl (fun a q _ => .ite (a.beginDrain_heat q) (.refl a)) s1
  have h3 : HeatKept s2 s3 := .foldl (fun a i hi => .ite (a.commitTicCfg_heat _ (List.mem_range.1 hi)) (.refl a)) s2
  refine ((h1.trans h2).trans h3).trans (.foldl (fun a n _ => .ite ?_ (.refl a)) s3)
  exact (a.setFld_heat (f := Fld.RAS_LAYER_CFG_EN) n 0 (by decide)).trans (.of_eq rfl rfl)

/-! ### Scopes enter hold -/

/-- Holds stay, and so does the thermal event. -/
structure HoldsStay (s t : State) : Prop where
  holds : ∀ z, s.holdOf z = true → t.holdOf z = true
  status : s.evtStatus 463 = true → t.evtStatus 463 = true

theorem HoldsStay.refl (s : State) : HoldsStay s s := ⟨fun _ h => h, fun h => h⟩

theorem HoldsStay.trans (h : HoldsStay s t) (g : HoldsStay t u) : HoldsStay s u :=
  ⟨fun z hz => g.holds z (h.holds z hz), fun hs => g.status (h.status hs)⟩

theorem State.holdOf_of_fld (h : t.fld Fld.HUB_PWR_STATUS_THERM_HOLD 0 = s.fld Fld.HUB_PWR_STATUS_THERM_HOLD 0) (z : Nat) :
    t.holdOf z = s.holdOf z := by rw [State.holdOf, State.holdOf, h]

theorem HeatKept.holdOf (h : HeatKept s t) (z : Nat) : t.holdOf z = s.holdOf z := State.holdOf_of_fld (State.fld_of_reg h.hub) z

theorem State.raise463_reads (s : State) (n : Nat) : (s.raise 463 1 n).pwr = s.pwr ∧
    (∀ k, (s.raise 463 1 n).reg .EVT_ROUTE k = s.reg .EVT_ROUTE k) ∧ (∀ z, (s.raise 463 1 n).holdOf z = s.holdOf z) ∧
    (s.fld Fld.EVT_ROUTE_KIND 463 ≠ 1 → (s.raise 463 1 n).evtStatus 463 = true) := by
  have hr : Raises s (s.raise 463 1 n) [463] := State.raise_raises 463 1 n
  exact ⟨hr.pwr, fun _ => hr.reg _ _ rfl, fun z => State.holdOf_of_fld (hr.fld _ _ rfl) z, fun h =>
    State.raise_raisable (State.raisable_hub rfl h)⟩

/-- What the entry of hot sensors into hold leaves. -/
structure Heated (s t : State) : Prop where
  holds : ∀ z, s.holdOf z = true → t.holdOf z = true
  status : s.fld Fld.EVT_ROUTE_KIND 463 ≠ 1 → s.evtStatus 463 = true → t.evtStatus 463 = true
  route : ∀ k, t.reg .EVT_ROUTE k = s.reg .EVT_ROUTE k
  hot : t.pwr.hot = s.pwr.hot

theorem Heated.refl (s : State) : Heated s s := ⟨fun _ h => h, fun _ h => h, fun _ => rfl, rfl⟩

theorem Heated.trans (h : Heated s t) (g : Heated t u) : Heated s u :=
  ⟨fun z hz => g.holds z (h.holds z hz),
    fun hk hs => g.status (by rw [State.fld_of_reg (h.route _)]; exact hk) (h.status hk hs), fun k => (g.route k).trans (h.route k), g.hot.trans h.hot⟩

theorem State.raise463_heated (s : State) (n : Nat) : Heated s (s.raise 463 1 n) := by
  obtain ⟨h1, h2, h3, h4⟩ := s.raise463_reads n
  exact ⟨fun z hz => (h3 z).trans hz, fun hk _ => h4 hk, h2, by rw [h1]⟩

theorem Heated.foldl {α : Type} {f : State → α → State} {l : List α} (hf : ∀ a y, Heated a (f a y)) (s : State) :
    Heated s (l.foldl f s) := by
  induction l generalizing s with
  | nil => exact .refl s
  | cons y l ih => exact (hf s y).trans (ih _)

/-- The sensors of scope `z` that are hot. -/
def State.hotOf (s : State) (z : Nat) : List Nat := (bitsOf 5 s.pwr.hot.toNat).filter fun n => scopeOf n == z

/-- A hold begins: the units of the scope stop, and its bit sets. -/
def State.holdBegins (s : State) (z : Nat) : State :=
  ((s.holdStops z).setFld Fld.HUB_PWR_STATUS_THERM_HOLD 0 (s.fld Fld.HUB_PWR_STATUS_THERM_HOLD 0 ||| 2 ^ z)).modPwr fun p =>
    { p with draining := p.draining ||| (1#3 <<< z) }

theorem State.holdBegins_reads (s : State) {z : Nat} (hz : z < 3) :
    Heated s (s.holdBegins z) ∧ (s.holdBegins z).holdOf z = true := by
  have hk := s.holdStops_heat z
  obtain ⟨a, ha⟩ : ∃ a, a = s.holdStops z := ⟨_, rfl⟩
  rw [← ha] at hk
  obtain ⟨b, hb⟩ : ∃ b, b = a.setFld Fld.HUB_PWR_STATUS_THERM_HOLD 0 (s.fld Fld.HUB_PWR_STATUS_THERM_HOLD 0 ||| 2 ^ z) := ⟨_, rfl⟩
  have heq : s.holdBegins z = b.modPwr fun p => { p with draining := p.draining ||| (1#3 <<< z) } := by
    rw [hb, ha]
    rfl
  have hlt : s.fld Fld.HUB_PWR_STATUS_THERM_HOLD 0 ||| 2 ^ z < 2 ^ 3 :=
    Nat.or_lt_two_pow (s.fld_lt Fld.HUB_PWR_STATUS_THERM_HOLD 0) (Nat.pow_lt_pow_right (by decide) hz)
  have hhold : ∀ k, (s.holdBegins z).holdOf k = (s.holdOf k || decide (z = k)) := fun k => by
    have h : (s.holdBegins z).fld Fld.HUB_PWR_STATUS_THERM_HOLD 0 = s.fld Fld.HUB_PWR_STATUS_THERM_HOLD 0 ||| 2 ^ z := by
      rw [heq]
      refine (show _ = b.fld Fld.HUB_PWR_STATUS_THERM_HOLD 0 from rfl).trans ?_
      rw [hb]
      exact State.fld_setFld_of_lt _ _ _ (by decide) hlt
    rw [State.holdOf, h, Nat.testBit_or, Nat.testBit_two_pow]
    rfl
  have hreg : ∀ n j, n ≠ .HUB_PWR_STATUS → (s.holdBegins z).reg n j = a.reg n j := fun n j hn => by
    rw [heq]
    refine (show _ = b.reg n j from rfl).trans ?_
    rw [hb]
    exact State.reg_setFld_ne _ _ _ _ _ _ hn
  refine ⟨⟨fun k h => by rw [hhold, h, Bool.true_or], fun _ h => ?_, fun k => (hreg _ _ (by decide)).trans (hk.route k), ?_⟩, ?_⟩
  · rw [State.evtStatus_of_reg fun _ => hreg _ _ (by decide), hk.status]
    exact h
  · rw [heq]
    refine (show _ = b.pwr.hot from rfl).trans ?_
    rw [hb]
    exact congrArg Pwr.hot hk.pwr
  · rw [hhold, decide_eq_true rfl, Bool.or_true]

theorem State.enterHold_eq (s : State) (z : Nat) : s.enterHold z =
    if (s.hotOf z).isEmpty then s else (s.hotOf z).foldl (fun s n => s.raise 463 1 n) (s.holdBegins z) := rfl

theorem State.enterHold_heated (s : State) {z : Nat} (hz : z < 3) : Heated s (s.enterHold z) := by
  rw [State.enterHold_eq]
  split
  · exact .refl s
  · exact (s.holdBegins_reads hz).1.trans (.foldl (fun a n => a.raise463_heated n) _)

/-- The scope of a hot sensor is in hold. -/
theorem State.enterHold_holds (s : State) {n : Nat} (hn : n < 5) (hhot : s.pwr.hot.getLsbD n = true) :
    (s.enterHold (scopeOf n)).holdOf (scopeOf n) = true ∧
      (s.fld Fld.EVT_ROUTE_KIND 463 ≠ 1 → (s.enterHold (scopeOf n)).evtStatus 463 = true) := by
  have hz : scopeOf n < 3 := by unfold scopeOf; split <;> omega
  have hmem : n ∈ s.hotOf (scopeOf n) := by
    refine List.mem_filter.2 ⟨mem_bitsOf.2 ⟨hn, ?_⟩, beq_self_eq_true _⟩
    exact hhot
  obtain ⟨hbeg, hhold⟩ := s.holdBegins_reads hz
  obtain ⟨l, hl⟩ : ∃ l, l = s.hotOf (scopeOf n) := ⟨_, rfl⟩
  rw [State.enterHold_eq, ← hl]
  rw [← hl] at hmem
  cases l with
  | nil => exact absurd hmem (List.not_mem_nil)
  | cons y l =>
    rw [if_neg (by simp), List.foldl_cons]
    have hrest : Heated ((s.holdBegins (scopeOf n)).raise 463 1 y)
      (l.foldl (fun s n => s.raise 463 1 n) ((s.holdBegins (scopeOf n)).raise 463 1 y)) := .foldl (fun a n => a.raise463_heated n) _
    obtain ⟨-, hroute, hh, hst⟩ := (s.holdBegins (scopeOf n)).raise463_reads y
    refine ⟨hrest.holds _ ((hh _).trans hhold), fun hk => ?_⟩
    have hkb : (s.holdBegins (scopeOf n)).fld Fld.EVT_ROUTE_KIND 463 ≠ 1 := by
      rw [State.fld_of_reg (hbeg.route _)]
      exact hk
    refine hrest.status ?_ (hst hkb)
    rw [State.fld_of_reg (hroute _)]
    exact hkb

/-! ### Scopes sleep -/

theorem State.holdSleep_stay (s : State) {z : Nat} (hz : z < 3) : HoldsStay s (s.holdSleep z) := by
  unfold State.holdSleep
  split
  · extract_lets s1
    have h1 : HoldsStay s s1 := ⟨fun _ h => h, fun h => h⟩
    split
    · split
      · exact h1
      · have hd := s1.standbyDown_reads
        exact h1.trans ⟨fun k hk => (State.holdOf_of_fld hd.holds k).trans hk, fun h => (hd.status 463 (by decide)).trans h⟩
    · split
      · exact h1
      · have hd := s1.dieDown_reads (e := z) (by omega)
        exact h1.trans ⟨fun k hk => (State.holdOf_of_fld (hd.other _ rfl (by decide) (by decide)) k).trans hk,
          fun h => (hd.power.status 463 (by decide)).trans h⟩
  · exact .refl s

/-- At a tick, or at once, the scope of a hot sensor goes into hold. -/
theorem State.thermalTick_holds (s : State) {n : Nat} (hn : n < 5) (hhot : s.pwr.hot.getLsbD n = true) :
    s.thermalTick.holdOf (scopeOf n) = true ∧
      (s.fld Fld.EVT_ROUTE_KIND 463 ≠ 1 → s.thermalTick.evtStatus 463 = true) := by
  obtain ⟨a, ha⟩ : ∃ a, a = [0, 1, 2].foldl State.enterHold s := ⟨_, rfl⟩
  have hin : a.holdOf (scopeOf n) = true ∧ (s.fld Fld.EVT_ROUTE_KIND 463 ≠ 1 → a.evtStatus 463 = true) := by
    have hs0 := s.enterHold_heated (z := 0) (by decide)
    have hs1 := (s.enterHold 0).enterHold_heated (z := 1) (by decide)
    have hs2 := ((s.enterHold 0).enterHold 1).enterHold_heated (z := 2) (by decide)
    have key : ∀ b : State, Heated s b → Heated (b.enterHold (scopeOf n)) a →
        a.holdOf (scopeOf n) = true ∧ (s.fld Fld.EVT_ROUTE_KIND 463 ≠ 1 → a.evtStatus 463 = true) := fun b hb hba => by
      obtain ⟨h1, h2⟩ := b.enterHold_holds hn (by rw [hb.hot]; exact hhot)
      have hz : scopeOf n < 3 := by unfold scopeOf; split <;> omega
      refine ⟨hba.holds _ h1, fun hk => ?_⟩
      have hkb : b.fld Fld.EVT_ROUTE_KIND 463 ≠ 1 := by
        rw [State.fld_of_reg (hb.route _)]
        exact hk
      refine hba.status ?_ (h2 hkb)
      rw [State.fld_of_reg ((b.enterHold_heated hz).route _)]
      exact hkb
    have hcase : scopeOf n = 0 ∨ scopeOf n = 1 ∨ scopeOf n = 2 := by unfold scopeOf; split <;> omega
    rcases hcase with h | h | h
    · exact key s (.refl s) (by rw [ha, h]; exact hs1.trans hs2)
    · exact key (s.enterHold 0) hs0 (by rw [ha, h]; exact hs2)
    · exact key ((s.enterHold 0).enterHold 1) (hs0.trans hs1) (by rw [ha, h]; exact .refl _)
  obtain ⟨b, hb⟩ : ∃ b, b = a.modPwr fun p => { p with hot := 0 } := ⟨_, rfl⟩
  have hab : HoldsStay a b := hb ▸ ⟨fun _ h => h, fun h => h⟩
  have heq : s.thermalTick = ((b.holdSleep 0).holdSleep 1).holdSleep 2 := by
    rw [hb, ha]
    rfl
  have hstay := ((hab.trans (b.holdSleep_stay (z := 0) (by decide))).trans (State.holdSleep_stay _ (z := 1) (by decide))).trans
    (State.holdSleep_stay _ (z := 2) (by decide))
  rw [heq]
  exact ⟨hstay.holds _ hin.1, fun hk => hstay.status (hin.2 hk)⟩

/-! ### THERMAL_CHECK -/

/-- The scope's sensors have cooled. -/
def State.cooled (s : State) (v : List (BitVec 16)) (z : Nat) : Bool :=
  (List.range 5).all fun n => scopeOf n != z || decide ((v.getD n 0).toInt ≤ s.critOf n - 100)

/-- A scope that has cooled leaves its hold. -/
def State.leaveHold (s : State) (v : List (BitVec 16)) (z : Nat) : State :=
  if s.holdOf z ∧ s.cooled v z then
    s.setFld Fld.HUB_PWR_STATUS_THERM_HOLD 0 (s.fld Fld.HUB_PWR_STATUS_THERM_HOLD 0 &&& (7 - 2 ^ z))
  else s

theorem State.leaveHold_only (s : State) (v : List (BitVec 16)) (z : Nat) :
    onlyRegs s (s.leaveHold v z) [⟨.HUB_PWR_STATUS, 0⟩] := .ite (.setFld (.head _) (.refl _ _)) (.refl _ _)

theorem State.leaveHold_holdOf (s : State) (v : List (BitVec 16)) {z k : Nat} (hz : z < 3) (hk : k < 3) :
    (s.leaveHold v z).holdOf k = if k = z then s.holdOf z && !s.cooled v z else s.holdOf k := by
  unfold State.leaveHold
  split
  · next h =>
    obtain ⟨h1, h2⟩ := h
    have hlt : s.fld Fld.HUB_PWR_STATUS_THERM_HOLD 0 &&& (7 - 2 ^ z) < 2 ^ 3 :=
      Nat.and_lt_two_pow _ (Nat.lt_of_le_of_lt (Nat.sub_le ..) (by decide))
    rw [State.holdOf, State.fld_setFld_of_lt _ _ _ (by decide) hlt, Nat.testBit_and, h2]
    split
    · next hkz =>
      have : (7 - 2 ^ z).testBit k = false := by
        rw [hkz]
        interval_cases z <;> decide
      rw [this, Bool.and_false]
      simp
    · next hkz =>
      have : (7 - 2 ^ z).testBit k = true := by
        interval_cases z <;> interval_cases k <;> first | rfl | exact absurd rfl hkz
      rw [this, Bool.and_true]
      rfl
  · next h =>
    split
    · next hkz =>
      rw [hkz]
      cases h1 : s.holdOf z with
      | false => rfl
      | true =>
        cases h2 : s.cooled v z with
        | false => rfl
        | true => exact absurd ⟨h1, h2⟩ h
    · rfl

theorem State.cooled_of_regs (h : onlyRegs s t [⟨.HUB_PWR_STATUS, 0⟩]) (v : List (BitVec 16)) (z : Nat) : t.cooled v z = s.cooled v z := by
  have hc : ∀ n, t.critOf n = s.critOf n := fun n => by
    rw [State.critOf, State.critOf, State.fld_of_reg (h.1 _ _ (by simp))]
  rw [State.cooled, State.cooled]
  exact congrArg (List.all (List.range 5)) (funext fun n => by rw [hc])

/-- The scopes that have cooled leave their hold. -/
def State.leaveHolds (s : State) (v : List (BitVec 16)) : State := [0, 1, 2].foldl (fun s z => s.leaveHold v z) s

theorem State.leaveHolds_reads (s : State) (v : List (BitVec 16)) :
    onlyRegs s (s.leaveHolds v) [⟨.HUB_PWR_STATUS, 0⟩] ∧
      ∀ z, z < 3 → (s.leaveHolds v).holdOf z = (s.holdOf z && !s.cooled v z) := by
  obtain ⟨a, ha⟩ : ∃ a, a = s.leaveHold v 0 := ⟨_, rfl⟩
  obtain ⟨b, hb⟩ : ∃ b, b = a.leaveHold v 1 := ⟨_, rfl⟩
  have h1 : onlyRegs s a [⟨.HUB_PWR_STATUS, 0⟩] := ha ▸ s.leaveHold_only v 0
  have h2 : onlyRegs s b [⟨.HUB_PWR_STATUS, 0⟩] := h1.trans (hb ▸ a.leaveHold_only v 1)
  have heq : s.leaveHolds v = b.leaveHold v 2 := by
    rw [hb, ha]
    rfl
  rw [heq]
  refine ⟨h2.trans (b.leaveHold_only v 2), fun z hz => ?_⟩
  rw [b.leaveHold_holdOf v (by decide) hz, State.cooled_of_regs h2]
  have hbz : ∀ k, k < 3 → b.holdOf k = if k = 1 then a.holdOf 1 && !s.cooled v 1 else a.holdOf k := fun k hk => by
    rw [hb, a.leaveHold_holdOf v (by decide) hk, State.cooled_of_regs h1]
  have haz : ∀ k, k < 3 → a.holdOf k = if k = 0 then s.holdOf 0 && !s.cooled v 0 else s.holdOf k := fun k hk => by
    rw [ha, s.leaveHold_holdOf v (by decide) hk]
  interval_cases z
  · rw [if_neg (by decide), hbz 0 (by decide), if_neg (by decide), haz 0 (by decide), if_pos rfl]
  · rw [if_neg (by decide), hbz 1 (by decide), if_pos rfl, haz 1 (by decide), if_neg (by decide)]
  · rw [if_pos rfl, hbz 2 (by decide), if_neg (by decide), haz 2 (by decide), if_neg (by decide)]

/-- The sensors that are hot. -/
def State.hotNow (s : State) (v : List (BitVec 16)) : BitVec 5 :=
  (List.range 5).foldl (fun (h : BitVec 5) n =>
    if s.critOf n ≤ (v.getD n 0).toInt ∧ !s.holdOf (scopeOf n) then h ||| (1#5 <<< n) else h) s.pwr.hot

theorem getLsbD_setBits {p : Nat → Prop} [DecidablePred p] (l : List Nat) (h : BitVec 5) {n : Nat} (hn : n < 5) :
    (l.foldl (fun (h : BitVec 5) k => if p k then h ||| (1#5 <<< k) else h) h).getLsbD n =
      (h.getLsbD n || decide (n ∈ l ∧ p n)) := by
  induction l generalizing h with
  | nil => simp
  | cons y l ih =>
    rw [List.foldl_cons, ih]
    by_cases hy : n = y
    · by_cases hp : p y
      · have hy5 : y < 5 := hy ▸ hn
        simp [hy, hp, hy5]
      · simp [hy, hp]
    · have hbit : (1#5 <<< y).getLsbD n = false := by
        simp only [BitVec.getLsbD_shiftLeft, BitVec.getLsbD_one]
        simp
        omega
      by_cases hp : p y <;> simp [hp, hy, hbit]

theorem State.hotNow_getLsbD (s : State) (v : List (BitVec 16)) {n : Nat} (hn : n < 5) :
    (s.hotNow v).getLsbD n =
      (s.pwr.hot.getLsbD n || decide (s.critOf n ≤ (v.getD n 0).toInt ∧ s.holdOf (scopeOf n) = false)) := by
  rw [State.hotNow, getLsbD_setBits (p := fun n => s.critOf n ≤ (v.getD n 0).toInt ∧ !s.holdOf (scopeOf n)) _ _ hn]
  simp [hn]

/-- The controller notes which sensors are hot. -/
def State.heated (s : State) (v : List (BitVec 16)) : State := (s.leaveHolds v).modPwr fun p => { p with hot := s.hotNow v }

theorem State.thermalCheck_eq (s : State) (v : List (BitVec 16)) : s.thermalCheck v =
    if !(s.heated v).pitched || (s.heated v).standby then (s.heated v).thermalTick else s.heated v := rfl

end Sys2Proof.Machine
end

section
/-! O59 settled. -/

namespace Sys2Proof.Machine

variable {s t u w : State} {x : Tu} {v : List (BitVec 16)}

theorem State.leaveHold_standby (s : State) (v : List (BitVec 16)) (z : Nat) : (s.leaveHold v z).standby = s.standby := by
  unfold State.leaveHold
  split
  · rw [State.standby, State.standby, State.fld_setFld_apart _ _ _ _ _ _ (by decide)]
  · rfl

theorem State.leaveHold_pitch (s : State) (v : List (BitVec 16)) (z : Nat) : (s.leaveHold v z).pitch = s.pitch := by
  unfold State.leaveHold
  split <;> rfl

theorem State.heated_pitched (s : State) (v : List (BitVec 16)) : (s.heated v).pitched = s.pitched :=
  congrArg (fun p : Pitch => !p.hdr.isEmpty)
    ((State.leaveHold_pitch _ v 2).trans ((State.leaveHold_pitch _ v 1).trans (s.leaveHold_pitch v 0)))

theorem State.heated_reads (s : State) (v : List (BitVec 16)) :
    onlyRegs s (s.heated v) [⟨.HUB_PWR_STATUS, 0⟩] ∧ (s.heated v).standby = s.standby ∧ (s.heated v).pwr.hot = s.hotNow v ∧
      ∀ z, z < 3 → (s.heated v).holdOf z = (s.holdOf z && !s.cooled v z) := by
  obtain ⟨hon, hh⟩ := s.leaveHolds_reads v
  refine ⟨.of_eq rfl rfl hon, ?_, rfl, hh⟩
  exact (State.leaveHold_standby _ v 2).trans ((State.leaveHold_standby _ v 1).trans (s.leaveHold_standby v 0))

theorem exec_thermalCheck (x : Tu) (v : List (BitVec 16)) (ha : s.alive = true) (hst : s.standby = false) :
    exec (.thermalCheck x v) s =
      s.done (if s.pitched then (s.at x).heated v else ((s.at x).heated v).thermalTick) := by
  obtain ⟨-, hs, -, -⟩ := (s.at x).heated_reads v
  have hp : ((s.at x).heated v).pitched = s.pitched := ((s.at x).heated_pitched v).trans (s.at_pitched x)
  rw [exec, execThermalCheck, State.when_eq ha, State.thermalCheck_eq, hs, State.at_standby, hst, hp, Bool.or_false]
  cases s.pitched <;> rfl

@[simp] theorem State.at_critOf (s : State) (x : Tu) (n : Nat) : (s.at x).critOf n = s.critOf n := by
  rw [State.critOf, State.critOf, State.at_fld]

@[simp] theorem State.at_holdOf (s : State) (x : Tu) (z : Nat) : (s.at x).holdOf z = s.holdOf z := by
  rw [State.holdOf, State.holdOf, State.at_fld]

@[simp] theorem State.at_cooled (s : State) (x : Tu) (z : Nat) : (s.at x).cooled v z = s.cooled v z := by
  simp only [State.cooled, State.at_critOf]

theorem State.at_hotNow (s : State) (x : Tu) {n : Nat} (hn : n < 5) : ((s.at x).hotNow v).getLsbD n =
      (s.pwr.hot.getLsbD n || decide (s.critOf n ≤ (v.getD n 0).toInt ∧ s.holdOf (scopeOf n) = false)) := by
  rw [State.hotNow_getLsbD _ _ hn, State.at_pwr, State.at_critOf, State.at_holdOf]

theorem thermalCheck_notes (ha : s.alive = true) (hst : s.standby = false) (hp : s.pitched = true) :
    ∃ u, exec (.thermalCheck x v) s = .next u ∧
        (∀ n, n < 5 → s.critOf n ≤ (v.getD n 0).toInt → s.holdOf (scopeOf n) = false → u.pwr.hot.getLsbD n = true) ∧
        (∀ n, n < 5 → (v.getD n 0).toInt < s.critOf n → u.pwr.hot.getLsbD n = s.pwr.hot.getLsbD n) ∧
        (∀ z, z < 3 → s.holdOf z = true →
          u.holdOf z = !((List.range 5).all fun n => scopeOf n != z || decide ((v.getD n 0).toInt ≤ s.critOf n - 100))) ∧
        (∀ z, z < 3 → s.holdOf z = false → u.holdOf z = false) ∧ onlyRegs s u [⟨.HUB_PWR_STATUS, 0⟩] := by
  obtain ⟨hon, -, hhot, hhold⟩ := (s.at x).heated_reads v
  obtain ⟨hd, ho⟩ := State.done_onlyRegs (s := s) (x := x) hon rfl
  have hz : ∀ z, z < 3 → ((s.at x).heated v).holdOf z = (s.holdOf z && !s.cooled v z) := fun z hz => by
    rw [hhold z hz, State.at_holdOf, State.at_cooled]
  refine ⟨(s.at x).heated v, ?_, fun n hn h1 h2 => ?_, fun n hn h => ?_, fun z hz3 h => ?_, fun z hz3 h => ?_, ho⟩
  · rw [exec_thermalCheck x v ha hst, if_pos hp]
    exact hd
  · rw [hhot, State.at_hotNow s x hn, decide_eq_true ⟨h1, h2⟩, Bool.or_true]
  · rw [hhot, State.at_hotNow s x hn, decide_eq_false fun hh => absurd hh.1 (by omega), Bool.or_false]
  · rw [hz z hz3, h, Bool.true_and]
    rfl
  · rw [hz z hz3, h, Bool.false_and]

theorem thermalCheck_holds {n : Nat} (hn : n < 5) (ha : s.alive = true) (hst : s.standby = false) (hp : s.pitched = false)
    (hcrit : s.critOf n ≤ (v.getD n 0).toInt) (hh : s.holdOf (scopeOf n) = false) :
    ∃ u, exec (.thermalCheck x v) s = .next u ∧ u.holdOf (scopeOf n) = true ∧
      (s.fld Fld.EVT_ROUTE_KIND 463 ≠ 1 → u.evtStatus 463 = true) := by
  obtain ⟨hon, -, hhot, -⟩ := (s.at x).heated_reads v
  obtain ⟨a, ha'⟩ : ∃ a, a = (s.at x).heated v := ⟨_, rfl⟩
  rw [← ha'] at hon hhot
  obtain ⟨hhold, hst'⟩ := a.thermalTick_holds hn (by
    rw [hhot, State.at_hotNow s x hn, decide_eq_true ⟨hcrit, hh⟩, Bool.or_true])
  obtain ⟨u, hu, hr⟩ := s.done_notes a.thermalTick
  refine ⟨u, ?_, (State.holdOf_of_fld (hr.fld _ _ rfl) _).trans hhold, fun hk => ?_⟩
  · rw [exec_thermalCheck x v ha hst, if_neg (by rw [hp]; decide), ← ha']
    exact hu
  · rw [hr.evtStatus (by decide)]
    refine hst' ?_
    rw [State.fld_of_reg (hon.1 _ _ (by simp)), State.at_fld]
    exact hk

/-- Settles O59: a request is named and shows its result; the units of the power state are read off the sequences of gates, and
thermal hold off the fold over the three scopes. -/
theorem powerStatesChange : Obligations.PowerStatesChange := by
  unfold Obligations.PowerStatesChange
  refine ⟨requestsWait_holds, unitsSleepAndWake_holds, ?_⟩
  intro s t
  exact ⟨fun hup hf hb hst hmay => standby_rests hup hf hb hst hmay,
    fun span hup hf hb hst => exitStandby_answers span hup hf hb hst,
    fun v ha hst => ⟨fun hp => thermalCheck_notes ha hst hp, fun n hn hp hc hh => thermalCheck_holds hn ha hst hp hc hh⟩⟩

end Sys2Proof.Machine
end

section
/-! O42: STREAM_ACCEPT (R21, R54, R59). -/

namespace Sys2Proof.Machine

variable {s t u w : State} {but : List Reg} {srcs : List Nat} {q : Nat} {x : Tu}

/-! ### Bytes in the staging area -/

/-- Bytes written around an area of `size` bytes, from its place `p` on. -/
def putAround (m : List Host.Cell) (base size p : Nat) (bytes : List Byte) : List Host.Cell :=
  memPutAll (memPutAll m (base + p) (bytes.take (size - p))) base (bytes.drop (size - p))

/-- The place around an area of `size` bytes of byte `i` from place `p` on. -/
theorem place_around {size p i : Nat} (hp : p < size) (hi : i < size) :
    (p + i) % size = if i < size - p then p + i else i - (size - p) := by
  split
  · exact Nat.mod_eq_of_lt (by omega)
  · rw [Nat.mod_eq_sub_mod (by omega), Nat.mod_eq_of_lt (by omega)]
    omega

theorem putAround_same (m : List Host.Cell) {base size p i : Nat} {bytes : List Byte} {b : Byte} (hp : p < size)
    (hl : bytes.length ≤ size) (hb : bytes[i]? = some b) : memGet (putAround m base size p bytes) (base + (p + i) % size) = b := by
  obtain ⟨hi, hbi⟩ := List.getElem?_eq_some_iff.1 hb
  rw [place_around hp (by omega), putAround, memGet_memPutAll, List.length_drop]
  split
  · next h =>
    rw [if_neg (by omega), memGet_memPutAll, List.length_take, if_pos (by omega), Nat.add_sub_add_left, Nat.add_sub_cancel_left,
      List.getD_eq_getElem?_getD, List.getElem?_take_of_lt h, hb]
    rfl
  · next h =>
    rw [if_pos (by omega), Nat.add_sub_cancel_left, List.getD_eq_getElem?_getD, List.getElem?_drop,
      show size - p + (i - (size - p)) = i by omega, hb]
    rfl

theorem putAround_other (m : List Host.Cell) {base size p a : Nat} {bytes : List Byte} (hp : p < size)
    (hl : bytes.length ≤ size) (ha : ∀ i, i < bytes.length → a ≠ base + (p + i) % size) :
    memGet (putAround m base size p bytes) a = memGet m a := by
  rw [putAround, memGet_memPutAll_other, memGet_memPutAll_other]
  · rw [List.length_take]
    by_contra h
    have hi : a - (base + p) < bytes.length := by omega
    have := ha _ hi
    rw [place_around hp (by omega), if_pos (by omega)] at this
    omega
  · rw [List.length_drop]
    by_contra h
    have hi : a - base + (size - p) < bytes.length := by omega
    have := ha _ hi
    rw [place_around hp (by omega), if_neg (by omega)] at this
    omega

theorem State.stageMem_mem (s : State) (q : Nat) (bytes : List Byte) : (s.stageMem q bytes).mem =
    match streamDie s.pitch.recs q with
    | none => s.mem
    | some e => putAround s.mem (e * stackSpan + stageBase s.pitch.recs q) (max 1 (stageSize s.pitch.recs q))
        ((s.queue q).pos % max 1 (stageSize s.pitch.recs q)) bytes := by
  unfold State.stageMem
  cases streamDie s.pitch.recs q <;> rfl

theorem State.stageMem_regs (s : State) (q : Nat) (bytes : List Byte) : (s.stageMem q bytes).regs = s.regs := by
  unfold State.stageMem
  split <;> rfl

/-- The place that byte `i` of the next datum takes, with the stager's place reduced. -/
theorem stagePlace_eq (s : State) (q base i : Nat) : stagePlace s q base i =
    base + ((s.queue q).pos % max 1 (stageSize s.pitch.recs q) + i) % max 1 (stageSize s.pitch.recs q) := by
  rw [stagePlace, Nat.mod_add_mod]

/-! ### The data on their way -/

/-- The datum is no longer on its way. -/
def State.taken (s : State) (d : Datum) : State := { s with dma := { s.dma with inbound := s.dma.inbound.erase d } }

theorem exec_streamAccept (x : Tu) {q : Fin 64} {d : Datum} (ha : s.alive = true)
    (hd : s.dma.inbound.find? (fun y => y.q == q.val) = some d) :
    exec (.streamAccept x q) s = s.done (((s.at x).taken d).stage q d.bytes) := by
  rw [exec, execStreamAccept, State.when_eq ha, State.at_dma, hd]
  rw [State.taken, State.at_dma]

theorem State.taken_regs (s : State) (d : Datum) : (s.taken d).regs = s.regs := rfl

theorem onlyRegs.taken (s : State) (d : Datum) : onlyRegs s (s.taken d) [] := .of_eq rfl rfl (.refl s _)

/-- What acceptance reads is as it was. -/
structure Unstaged (q : Nat) (d : Datum) (s y : State) : Prop where
  regs : ∀ n i, y.reg n i = s.reg n i
  mem : y.mem = s.mem
  queue : y.queue q = s.queue q
  queues : y.dma.queues = s.dma.queues
  inbound : y.dma.inbound = s.dma.inbound.erase d
  recs : y.pitch.recs = s.pitch.recs
  frame : y.frame = s.frame

theorem State.at_taken (s : State) (x : Tu) (q : Nat) (d : Datum) : Unstaged q d s ((s.at x).taken d) := by
  refine ⟨fun n i => State.at_reg s x n i, State.at_mem s x, ?_, ?_, ?_, ?_, State.at_frame s x⟩
  · exact (show _ = (s.at x).queue q from rfl).trans (State.queue_of_eq (State.at_dma s x) q)
  · exact (show _ = (s.at x).dma.queues from rfl).trans (congrArg Dma.queues (State.at_dma s x))
  · exact (show _ = (s.at x).dma.inbound.erase d from rfl).trans
      (congrArg (fun m : Dma => m.inbound.erase d) (State.at_dma s x))
  · exact (show _ = (s.at x).pitch.recs from rfl).trans (congrArg Pitch.recs (State.at_pitch s x))

theorem streamAccept_dropped (q : Fin 64) {d : Datum} (ha : s.alive = true)
    (hd : s.dma.inbound.find? (fun y => y.q == q.val) = some d) (h : s.qState q ≠ 1 ∨ (s.queue q).accepting = false) :
    ∃ u, exec (.streamAccept x q) s = .next u ∧ u.dma.inbound = s.dma.inbound.erase d ∧
      u.dma.queues = s.dma.queues ∧ onlyRegs s u [] := by
  have hy := s.at_taken x q d
  have hq : ((s.at x).taken d).stage q d.bytes = (s.at x).taken d := by
    refine if_pos ?_
    rw [hy.queue]
    rcases h with h | h
    · exact .inl fun h' => h ((State.fld_of_reg (hy.regs _ _)).symm.trans h')
    · exact .inr (by rw [h]; rfl)
  obtain ⟨hdone, hon⟩ := State.done_onlyRegs (onlyRegs.taken (s.at x) d) rfl
  refine ⟨_, ?_, hy.inbound, hy.queues, hon⟩
  rw [exec_streamAccept x ha hd, hq]
  exact hdone

theorem streamAccept_stages (q : Fin 64) {d : Datum} (ha : s.alive = true)
    (hd : s.dma.inbound.find? (fun y => y.q == q.val) = some d) (h1 : s.qState q = 1) (hacc : (s.queue q).accepting = true)
    (hroom : (s.queue q).bytes + d.bytes.length ≤ stageSize s.pitch.recs q) :
    ∃ u, exec (.streamAccept x q) s = .next u ∧ u.dma.inbound = s.dma.inbound.erase d ∧
        (u.queue q).bytes = (s.queue q).bytes + d.bytes.length ∧ (u.queue q).gap = none ∧
        u.fld Fld.DMA_Q_STAGED_BYTES q = min ((s.queue q).bytes + d.bytes.length) (2 ^ 32 - 1) ∧
        (streamDie s.pitch.recs q = none → sameMem s u) ∧
        (∀ e, streamDie s.pitch.recs q = some e →
          (∀ (i : Nat) (b : Byte), d.bytes[i]? = some b →
            memGet u.mem (stagePlace s q (e * stackSpan + stageBase s.pitch.recs q) i) = b) ∧
          ∀ a, (∀ i, i < d.bytes.length → a ≠ stagePlace s q (e * stackSpan + stageBase s.pitch.recs q) i) →
            memGet u.mem a = memGet s.mem a) ∧
        sameRegs s u [⟨.DMA_Q_STAGED, q⟩] := by
  have hy := s.at_taken x q d
  obtain ⟨y, hye⟩ : ∃ y, y = (s.at x).taken d := ⟨_, rfl⟩
  rw [← hye] at hy
  have hy1 : y.qState q = 1 := (State.fld_of_reg (hy.regs _ _)).trans h1
  have hyacc : (y.queue q).accepting = true := by rw [hy.queue]; exact hacc
  have hyroom : (y.queue q).bytes + d.bytes.length ≤ stageSize y.pitch.recs q := by rw [hy.queue, hy.recs]; exact hroom
  obtain ⟨z, hz⟩ : ∃ z, z = y.stage q d.bytes := ⟨_, rfl⟩
  have hbytes : (z.queue q).bytes = (s.queue q).bytes + d.bytes.length := by
    rw [hz, y.stage_bytes q d.bytes hy1 hyacc hyroom, hy.queue]
  have htakes := y.stage_takes q d.bytes hy1 hyacc hyroom
  rw [← hz] at htakes
  obtain ⟨v, hv⟩ : ∃ v, v = (y.stageMem q d.bytes).modQueue q fun x =>
    { x with staged := stagedWith x y.frame d.bytes, gap := none } := ⟨_, rfl⟩
  rw [← hv] at htakes
  have hvz : (z.queue q) = v.queue q := by rw [htakes]; rfl
  have hmem : z.mem = (y.stageMem q d.bytes).mem := by
    rw [htakes, hv]
    rfl
  have hsame : sameRegs s z [⟨.DMA_Q_STAGED, q⟩] := fun n i hn => by
    have h0 : v.reg n i = s.reg n i := by
      rw [hv]
      refine (show _ = (y.stageMem q d.bytes).reg n i from rfl).trans ?_
      rw [State.reg, State.stageMem_regs]
      exact hy.regs n i
    rw [htakes, ← h0]
    exact (onlyRegs.setFld (f := Fld.DMA_Q_STAGED_BYTES) (i := q.val) (.head _) (.refl v _)).1 n i hn
  have hinb : z.dma.inbound = s.dma.inbound.erase d := by rw [hz, (y.stage_stageWork q d.bytes).inbound, hy.inbound]
  have hmem' : z.mem = match streamDie s.pitch.recs q with
    | none => s.mem
    | some e => putAround s.mem (e * stackSpan + stageBase s.pitch.recs q) (max 1 (stageSize s.pitch.recs q))
        ((s.queue q).pos % max 1 (stageSize s.pitch.recs q)) d.bytes := by
    rw [hmem, State.stageMem_mem, hy.recs, hy.mem, hy.queue]
  have hpos : 0 < max 1 (stageSize s.pitch.recs q) := by omega
  have hp := Nat.mod_lt (s.queue q).pos hpos
  refine ⟨z, ?_, hinb, hbytes, ?_, ?_, fun hn a => ?_, fun e he => ⟨fun i b hb => ?_, fun a hne => ?_⟩, hsame⟩
  · rw [exec_streamAccept x ha hd, ← hye, ← hz]
    exact State.done_of_sameRegs hsame rfl
  · rw [hvz, hv, State.queue_modQueue]
  · rw [← hbytes, hvz, htakes, State.syncStaged]
    exact State.fld_setFld_of_lt _ _ _ (by decide) (Nat.lt_of_le_of_lt (Nat.min_le_right ..) (by decide))
  · rw [hmem', hn]
  · rw [hmem', he, stagePlace_eq]
    exact putAround_same _ hp (by omega) hb
  · rw [hmem', he]
    exact putAround_other _ hp (by omega) fun i hi => by
      rw [← stagePlace_eq]
      exact hne i hi

/-! ### A datum that does not fit -/

/-- What a datum that does not fit leaves in the queue's record. -/
def gapOf (x : Queue) (f : Frame) (n : Nat) (stop : Bool) : Queue :=
  { x with gap := some (gapAdd x.gap f n), full := x.full || stop }

theorem State.stage_gap (s : State) (q : Nat) (bytes : List Byte) (h1 : s.qState q = 1)
    (hacc : (s.queue q).accepting = true) (hfull : stageSize s.pitch.recs q < (s.queue q).bytes + bytes.length) :
    s.stage q bytes =
      (let y := (if s.held then s.raise 60 1 q else s).modQueue q fun x =>
        gapOf x s.frame bytes.length (s.fld Fld.DMA_Q_DELIV_FULL_POLICY q == 0)
      if (s.queue q).gap.isNone && !(s.fld Fld.DMA_Q_DELIV_FULL_POLICY q == 0) then y.qEvent q 3 else y) := by
  unfold State.stage
  dsimp only
  rw [if_neg (by simp [h1, hacc]), if_pos (by omega)]
  rfl

theorem streamAccept_gaps (q : Fin 64) {d : Datum} (ha : s.alive = true)
    (hd : s.dma.inbound.find? (fun y => y.q == q.val) = some d) (h1 : s.qState q = 1) (hacc : (s.queue q).accepting = true)
    (hfull : stageSize s.pitch.recs q < (s.queue q).bytes + d.bytes.length) :
      ∃ u, exec (.streamAccept x q) s = .next u ∧ u.dma.inbound = s.dma.inbound.erase d ∧
        (u.queue q).staged = (s.queue q).staged ∧
        (u.queue q).gap = some (gapAdd (s.queue q).gap s.frame d.bytes.length) ∧
        (s.fld Fld.DMA_Q_DELIV_FULL_POLICY q = 0 → (u.queue q).full = true) ∧
        (s.held = true → s.fld Fld.EVT_ROUTE_KIND 60 ≠ 1 → u.evtStatus 60 = true) ∧
        onlyRaising s u [] [60, 304 + q] := by
  have hy := s.at_taken x q d
  have hyon := onlyRegs.taken (s.at x) d
  obtain ⟨y, hye⟩ : ∃ y, y = (s.at x).taken d := ⟨_, rfl⟩
  rw [← hye] at hy hyon
  have hfld : ∀ (f : Fld) i, y.fld f i = s.fld f i := fun f i => State.fld_of_reg (hy.regs _ _)
  have hheld : y.held = s.held := State.flag_of_reg (hy.regs _ _)
  have hst := y.stage_gap q d.bytes ((hfld _ _).trans h1) (by rw [hy.queue]; exact hacc)
    (by rw [hy.queue, hy.recs]; exact hfull)
  have hinb : (y.stage q d.bytes).dma.inbound = s.dma.inbound.erase d := by
    rw [(y.stage_stageWork q d.bytes).inbound, hy.inbound]
  obtain ⟨a, hae⟩ : ∃ a, a = if y.held then y.raise 60 1 q else y := ⟨_, rfl⟩
  have ha1 : onlyRaising y a [] [60] := by
    rw [hae]
    exact .ite (.raise (by simp) (.refl ..)) (.refl ..)
  have haq : a.queue q = y.queue q := by
    rw [hae]
    split
    · exact State.queue_of_eq (State.raise_raises 60 1 q).dma q
    · rfl
  have hev : s.held = true → s.fld Fld.EVT_ROUTE_KIND 60 ≠ 1 → a.evtStatus 60 = true := fun hh hk => by
    rw [hae, hheld, if_pos hh]
    exact State.raise_raisable (State.raisable_hub rfl (by rw [hfld]; exact hk))
  obtain ⟨b, hbe⟩ : ∃ b, b = a.modQueue q fun x => gapOf x y.frame d.bytes.length (y.fld Fld.DMA_Q_DELIV_FULL_POLICY q == 0) := ⟨_, rfl⟩
  have hbq : b.queue q = gapOf (s.queue q) s.frame d.bytes.length (s.fld Fld.DMA_Q_DELIV_FULL_POLICY q == 0) := by
    rw [hbe, State.queue_modQueue, haq, hy.queue, hy.frame, hfld]
  have hb1 : onlyRaising y b [] [60, 304 + q] := by
    rw [hbe]
    exact .of_eq rfl rfl (ha1.mono (fun _ h => h) (by simp))
  have hbev : ∀ k, b.evtStatus k = a.evtStatus k := fun k => by
    rw [hbe]
    rfl
  obtain ⟨c, hce⟩ : ∃ c, c = if (s.queue q).gap.isNone && !(s.fld Fld.DMA_Q_DELIV_FULL_POLICY q == 0) then b.qEvent q 3 else b := ⟨_, rfl⟩
  have hbc : Raises b c [304 + q] := by
    rw [hce]
    exact .ite (State.raise_raises _ _ _) (.refl _ _)
  have hc1 : onlyRaising y c [] [60, 304 + q] := by
    rw [hce]
    exact .ite (.raise (by simp) hb1) hb1
  have heq : y.stage q d.bytes = c := by
    rw [hst, hce, hbe, hae, hy.queue, hfld]
  rw [heq] at hinb
  obtain ⟨u, hu, hr⟩ := s.done_notes c
  have huq : u.queue q = gapOf (s.queue q) s.frame d.bytes.length (s.fld Fld.DMA_Q_DELIV_FULL_POLICY q == 0) := by
    rw [State.queue_of_eq hr.dma, State.queue_of_eq hbc.dma, hbq]
  have hsy : onlyRaising s y [] [60, 304 + q] := by
    rw [hye]
    exact .at (x := x) (.step (onlyRegs.taken (s.at x) d) (List.nil_subset _) rfl (.refl ..))
  refine ⟨u, ?_, ?_, ?_, ?_, fun h0 => ?_, fun hh hk => ?_, (hsy.trans hc1).trans hr.onlyNotes⟩
  · rw [exec_streamAccept x ha hd, ← hye, heq]
    exact hu
  · rw [hr.dma, hinb]
  · rw [huq]
    rfl
  · rw [huq]
    rfl
  · rw [huq, gapOf, h0]
    exact Bool.or_true _
  · rw [hr.evtStatus (by decide), hbc.evtStatus (by simp; omega), hbev]
    exact hev hh hk

theorem dataAreStaged_holds : dataAreStaged := by
  intro s t q d ha hd
  exact ⟨fun h1 hacc hroom => streamAccept_stages q ha hd h1 hacc hroom,
    fun h1 hacc hfull => streamAccept_gaps q ha hd h1 hacc hfull, fun h => streamAccept_dropped q ha hd h⟩

end Sys2Proof.Machine
end

section
/-! O42: STAGED_DELIVERY (R341, R342, R345). -/

namespace Sys2Proof.Machine

variable {s t u w : State} {but : List Reg} {srcs : List Nat} {q : Nat} {x : Tu}

/-! ### The span of a full host buffer -/

/-- The registers of the host's stalls. -/
def stallRegs : List Reg := [⟨.HUB_HOST_STALL_MAX, 0⟩, ⟨.HUB_HOST_STALL_VIOL, 0⟩]

/-- What the count of a stall leaves: the queues, and the outputs with later ones before them. -/
structure StallWork (s t : State) : Prop where
  only : onlyRaising s t stallRegs [13]
  queues : t.dma.queues = s.dma.queues
  appends : Appends s t

theorem StallWork.refl (s : State) : StallWork s s := ⟨.refl .., rfl, .refl s⟩

theorem StallWork.trans (h : StallWork s t) (g : StallWork t u) : StallWork s u :=
  ⟨h.only.trans g.only, g.queues.trans h.queues, h.appends.trans g.appends⟩

theorem StallWork.raise {causes info : Nat} (h : StallWork s t) : StallWork s (t.raise 13 causes info) :=
  ⟨.raise (by simp) h.only, (congrArg Dma.queues (State.raise_raises 13 causes info).dma).trans h.queues,
    h.appends.trans (State.raise_appends _ _ _ _)⟩

theorem StallWork.ite {c : Prop} [Decidable c] {a b : State} (ha : StallWork s a) (hb : StallWork s b) :
    StallWork s (if c then a else b) := by split <;> assumption

theorem StallWork.setFld {f : Fld} {y : Nat} (h : StallWork s t) (hf : (⟨f.reg, 0⟩ : Reg) ∈ stallRegs)
    (he : eventReg f.reg = false) : StallWork s (t.setFld f 0 y) :=
  ⟨.setFld hf he h.only, h.queues, h.appends.trans (.setReg _ _ _ _)⟩

theorem State.shareViol_work (s : State) (n : Nat) : StallWork s (s.shareViol n) := by
  have h : StallWork s (s.bump Fld.HUB_HOST_STALL_VIOL_COUNT 0 n) := .setFld (.refl s) (by simp [stallRegs]) rfl
  exact .ite h.raise h

theorem State.stallMax_work (s : State) (n : Nat) : StallWork s (s.stallMax n) := by
  have h : ∀ y, StallWork s (s.setFld Fld.HUB_HOST_STALL_MAX_NS 0 y) := fun y => .setFld (.refl s) (by simp [stallRegs]) rfl
  exact .ite (h _).raise (h _)

theorem State.stalled_work (s : State) (a : Tu) : StallWork s (s.stalled a) := by
  have h : ∀ l, StallWork s { s with dma := { s.dma with stalls := l } } := fun l =>
    ⟨.of_eq rfl rfl (.refl ..), rfl, .of_eq rfl rfl⟩
  exact ((h _).trans (State.stallMax_work _ _)).trans (State.shareViol_work _ _)

theorem State.noteBlocked_work (s : State) : StallWork s s.noteBlocked := by
  unfold State.noteBlocked
  split
  · exact ⟨.of_eq rfl rfl (.refl ..), rfl, .of_eq rfl rfl⟩
  · exact StallWork.trans (t := { s with dma := { s.dma with blocked := none } })
      ⟨.of_eq rfl rfl (.refl ..), rfl, .of_eq rfl rfl⟩ (State.stalled_work _ _)
  · exact .refl s

/-- Where no span of a full buffer is open, its beginning at most is noted. -/
theorem State.noteBlocked_quiet (h : s.dma.blocked = none) :
    s.noteBlocked.regs = s.regs ∧ s.noteBlocked.mem = s.mem ∧ s.noteBlocked.out = s.out := by
  unfold State.noteBlocked
  rw [h]
  split
  · exact ⟨rfl, rfl, rfl⟩
  · next heq _ => cases heq
  · exact ⟨rfl, rfl, rfl⟩

/-- What a delivery that left `z` answers. -/
theorem State.done_noteBlocked {z : State} (hz : onlyRegs (s.at x) z but) (hb : noEventReg but = true)
    (hbl : z.dma.blocked = s.dma.blocked) :
    ∃ u more, s.done z.noteBlocked = .next u ∧ u.out = more ++ z.out ∧ (s.dma.blocked = none → more = []) ∧
      (∀ k, u.queue k = z.queue k) ∧ onlyRaising z u stallRegs [13] ∧ onlyRaising s u (but ++ stallRegs) [13] := by
  have hw := z.noteBlocked_work
  have hsz : onlyRaising s z (but ++ stallRegs) [13] := .at (x := x) (.step hz (List.subset_append_left _ _) hb (.refl ..))
  have hqueues : ∀ {v : State}, v.dma.queues = z.dma.queues → ∀ k, v.queue k = z.queue k := fun h k => by
    rw [State.queue, State.queue, h]
  by_cases hn : s.dma.blocked = none
  · obtain ⟨hr, hm, ho⟩ := State.noteBlocked_quiet (hbl.trans hn)
    obtain ⟨hd, -⟩ := State.done_onlyRegs (s := s) (x := x) (.of_eq hr hm hz) hb
    exact ⟨_, [], hd, ho, fun _ => rfl, hqueues hw.queues, hw.only,
      hsz.trans (hw.only.mono (List.subset_append_right _ _) fun _ h => h)⟩
  · obtain ⟨u, hu, hnotes⟩ := s.done_notes z.noteBlocked
    obtain ⟨more, hmore⟩ := (hw.appends.trans (State.done_appends hu)).out
    have hzu : onlyRaising z u stallRegs [13] := hw.only.trans hnotes.onlyNotes
    exact ⟨u, more, hu, hmore.symm, fun h => absurd h hn,
      hqueues ((congrArg Dma.queues hnotes.dma).trans hw.queues), hzu,
      hsz.trans (hzu.mono (List.subset_append_right _ _) fun _ h => h)⟩

/-! ### Completion records -/

/-- What a completion record leaves. -/
structure Completes (q : Nat) (a : Frame) (n ofs st : Nat) (l : Frame) (s t : State) : Prop where
  out : ∃ st', t.out = .hostWrite ((s.pair .DMA_Q_CPL_LO .DMA_Q_CPL_HI q).toNat / 4096 * 4096 +
    32 * (s.fld Fld.DMA_Q_CPL_WR_INDEX q % 2 ^ s.cplExp q)) (cplRecord a s.frame n ofs st' q (s.queue q).phase l) false :: s.out ∧
    (st.testBit 1 = true → st'.testBit 1 = true)
  index : t.fld Fld.DMA_Q_CPL_WR_INDEX q = (s.fld Fld.DMA_Q_CPL_WR_INDEX q % 2 ^ s.cplExp q + 1) % 2 ^ s.cplExp q
  blocked : t.dma.blocked = s.dma.blocked

theorem State.cplExp_lt (s : State) (q : Nat) : s.cplExp q < 14 := by
  rw [State.cplExp, clampN]
  omega

theorem State.complete_completes (s : State) (q : Nat) (a : Frame) (n ofs st : Nat) (l : Frame) :
    Completes q a n ofs st l s (s.complete q a n ofs st l) := by
  obtain ⟨st', hst⟩ : ∃ st', st' = if a ∈ s.tick.stepFrames then st ||| stPhaseStep else st := ⟨_, rfl⟩
  have hbit : st.testBit 1 = true → st'.testBit 1 = true := fun h => by
    rw [hst]
    split
    · rw [Nat.testBit_or, h, Bool.true_or]
    · exact h
  obtain ⟨b, hb⟩ : ∃ b, b = (s.emit (.hostWrite ((s.pair .DMA_Q_CPL_LO .DMA_Q_CPL_HI q).toNat / 4096 * 4096 +
    32 * (s.fld Fld.DMA_Q_CPL_WR_INDEX q % 2 ^ s.cplExp q)) (cplRecord a s.frame n ofs st' q (s.queue q).phase l) false)) := ⟨_, rfl⟩
  obtain ⟨c, hc⟩ : ∃ c, c = b.setFld Fld.DMA_Q_CPL_WR_INDEX q
    ((s.fld Fld.DMA_Q_CPL_WR_INDEX q % 2 ^ s.cplExp q + 1) % 2 ^ s.cplExp q) := ⟨_, rfl⟩
  have hidx : c.fld Fld.DMA_Q_CPL_WR_INDEX q = (s.fld Fld.DMA_Q_CPL_WR_INDEX q % 2 ^ s.cplExp q + 1) % 2 ^ s.cplExp q := by
    rw [hc]
    refine State.fld_setFld_of_lt _ _ _ (by decide) ?_
    refine Nat.lt_of_lt_of_le (Nat.mod_lt _ (Nat.two_pow_pos _)) (Nat.pow_le_pow_right (by decide) ?_)
    have := s.cplExp_lt q
    exact Nat.lt_succ_iff.1 this
  have hcout : c.out = .hostWrite ((s.pair .DMA_Q_CPL_LO .DMA_Q_CPL_HI q).toNat / 4096 * 4096 +
    32 * (s.fld Fld.DMA_Q_CPL_WR_INDEX q % 2 ^ s.cplExp q)) (cplRecord a s.frame n ofs st' q (s.queue q).phase l) false :: s.out := by
    rw [hc, hb]
    rfl
  have hcbl : c.dma.blocked = s.dma.blocked := by
    rw [hc, hb]
    rfl
  have heq : ∃ f, s.complete q a n ofs st l =
      if st'.testBit 0 then (c.modQueue q f).bump Fld.DMA_Q_LATE_COUNT q 1 else c.modQueue q f := by
    rw [hc, hb, hst]
    exact ⟨_, rfl⟩
  obtain ⟨f, heq⟩ := heq
  rw [heq]
  split
  · refine ⟨⟨st', hcout, hbit⟩, ?_, hcbl⟩
    rw [State.fld_bump_ne _ _ _ _ _ _ (by decide)]
    exact hidx
  · exact ⟨⟨st', hcout, hbit⟩, hidx, hcbl⟩

/-! ### The data of a frame -/

/-- What the data of a frame leave at the host. -/
theorem State.writeCirc_out (s : State) (q : Nat) (c : Circ) (bytes : List Byte) (poison : Bool) (hne : bytes ≠ []) :
    (s.writeCirc q c bytes poison).out =
      if s.fld Fld.DMA_Q_WR_OFS_OFS q + bytes.length ≤ c.size then
        .hostWrite (c.base + s.fld Fld.DMA_Q_WR_OFS_OFS q) bytes poison :: s.out
      else if c.size ≤ s.fld Fld.DMA_Q_WR_OFS_OFS q then
        .hostWrite c.base (bytes.drop (c.size - s.fld Fld.DMA_Q_WR_OFS_OFS q)) poison :: s.out
      else .hostWrite c.base (bytes.drop (c.size - s.fld Fld.DMA_Q_WR_OFS_OFS q)) poison ::
        .hostWrite (c.base + s.fld Fld.DMA_Q_WR_OFS_OFS q) (bytes.take (c.size - s.fld Fld.DMA_Q_WR_OFS_OFS q)) poison :: s.out := by
  have hlen : 0 < bytes.length := List.length_pos_iff.2 hne
  unfold State.writeCirc
  dsimp only
  obtain ⟨w, hw⟩ : ∃ w, w = s.fld Fld.DMA_Q_WR_OFS_OFS q := ⟨_, rfl⟩
  rw [← hw]
  by_cases h : w + bytes.length ≤ c.size
  · have h1 : ¬ (bytes.isEmpty = true) := by simp [hne]
    rw [if_pos h, List.take_of_length_le (by omega), List.drop_eq_nil_of_le (by omega), if_neg h1]
    rfl
  · rw [if_neg h]
    by_cases h2 : c.size ≤ w
    · have hz : c.size - w = 0 := by omega
      have h1 : ¬ (bytes.isEmpty = true) := by simp [hne]
      rw [if_pos h2, hz, List.take_zero, List.drop_zero, if_neg h1]
      rfl
    · have h1 : ¬ (bytes.take (c.size - w)).isEmpty = true := by
        rw [List.isEmpty_iff, ← List.length_eq_zero_iff, List.length_take]
        omega
      have h3 : ¬ (bytes.drop (c.size - w)).isEmpty = true := by
        rw [List.isEmpty_iff, ← List.length_eq_zero_iff, List.length_drop]
        omega
      rw [if_neg h2, if_neg h1, if_neg h3]
      rfl

/-- The data of a frame move WR_OFS on, and leave the queues. -/
theorem State.writeCirc_reads (s : State) (q : Nat) (c : Circ) (bytes : List Byte) (poison : Bool) (h0 : 0 < c.size)
    (h32 : c.size < 2 ^ 32) :
    onlyRegs s (s.writeCirc q c bytes poison) [⟨.DMA_Q_WR_OFS, q⟩] ∧ (s.writeCirc q c bytes poison).dma = s.dma ∧
      (s.writeCirc q c bytes poison).frame = s.frame ∧
      (s.writeCirc q c bytes poison).fld Fld.DMA_Q_WR_OFS_OFS q = (s.fld Fld.DMA_Q_WR_OFS_OFS q + bytes.length) % c.size := by
  unfold State.writeCirc
  dsimp only
  obtain ⟨a, ha⟩ : ∃ a, a = if (bytes.take (c.size - s.fld Fld.DMA_Q_WR_OFS_OFS q)).isEmpty then s else
    s.emit (.hostWrite (c.base + s.fld Fld.DMA_Q_WR_OFS_OFS q) (bytes.take (c.size - s.fld Fld.DMA_Q_WR_OFS_OFS q)) poison) := ⟨_, rfl⟩
  obtain ⟨b, hb⟩ : ∃ b, b = if (bytes.drop (c.size - s.fld Fld.DMA_Q_WR_OFS_OFS q)).isEmpty then a else
    a.emit (.hostWrite c.base (bytes.drop (c.size - s.fld Fld.DMA_Q_WR_OFS_OFS q)) poison) := ⟨_, rfl⟩
  rw [← ha, ← hb]
  have hsa : onlyRegs s a [⟨.DMA_Q_WR_OFS, q⟩] ∧ a.dma = s.dma ∧ a.frame = s.frame := by
    rw [ha]
    split
    · exact ⟨.refl .., rfl, rfl⟩
    · exact ⟨.emit (.refl ..), rfl, rfl⟩
  obtain ⟨h1, h2, h3⟩ := hsa
  have hsb : onlyRegs s b [⟨.DMA_Q_WR_OFS, q⟩] ∧ b.dma = s.dma ∧ b.frame = s.frame := by
    rw [hb]
    split
    · exact ⟨h1, h2, h3⟩
    · exact ⟨.emit h1, h2, h3⟩
  obtain ⟨h4, h5, h6⟩ := hsb
  refine ⟨.setFld (.head _) h4, h5, h6, State.fld_setFld_of_lt _ _ _ (by decide) ?_⟩
  exact Nat.lt_trans (Nat.mod_lt _ h0) h32

end Sys2Proof.Machine
end

section
/-! O42 settled. -/

namespace Sys2Proof.Machine

variable {s t u w : State} {but : List Reg} {q : Nat} {x : Tu} {c : Circ} {b : Batch} {rest : List Batch} {g : Gap}

/-- The oldest frame of queue `q` is closed, and nothing but room holds it up. -/
structure Ready (s : State) (q : Nat) (c : Circ) (b : Batch) (rest : List Batch) : Prop where
  circ : (s.queue q).circ = some c
  staged : (s.queue q).staged = b :: rest
  state : s.qState q = 1 ∨ s.qState q = 2 ∨ s.qState q = 3
  held : s.held = false
  release : (s.queue q).release = none
  closed : b.open_ = false

theorem Ready.may (h : Ready s q c b rest) (hf : s.cplFull q = false) :
    (s.qState q = 1 ∨ s.qState q = 2 ∨ s.qState q = 3) ∧ (!s.held) = true ∧ (s.queue q).release.isNone = true ∧
      (!b.open_) = true ∧ (!s.cplFull q) = true :=
  ⟨h.state, by rw [h.held]; rfl, by rw [h.release]; rfl, by rw [h.closed]; rfl, by rw [hf]; rfl⟩

theorem State.deliverOldest_gap (h : Ready s q c b rest) (hf : s.cplFull q = false) (hg : b.gap = some g) (ue : Bool) :
    s.deliverOldest q ue = (s.complete q g.first g.bytes (s.fld Fld.DMA_Q_WR_OFS_OFS q) stGap g.last).modQueue q fun x =>
      { x with staged := { b with gap := none } :: rest } := by
  unfold State.deliverOldest
  dsimp only
  rw [h.circ, h.staged]
  dsimp only
  rw [if_pos (h.may hf), hg]

theorem State.deliverOldest_data (h : Ready s q c b rest) (hf : s.cplFull q = false) (hg : b.gap = none)
    (hroom : b.bytes.length ≤ s.freeSpace q c) (ue : Bool) :
    ∃ st, s.deliverOldest q ue = (((s.writeCirc q c b.bytes ue).complete q b.frame b.bytes.length
      (s.fld Fld.DMA_Q_WR_OFS_OFS q) st 0).modQueue q fun x => { x with staged := rest }).syncStaged q := by
  refine ⟨(if b.age > s.fld Fld.DMA_Q_DELIV_LAT_CLASS q then stLate else 0) + (if ue then stMemErr else 0) +
    (if (s.queue q).lastFrame = some b.frame then stLast else 0), ?_⟩
  unfold State.deliverOldest
  dsimp only
  rw [h.circ, h.staged]
  dsimp only
  rw [if_pos (h.may hf), hg]
  exact if_pos hroom

theorem State.deliverOldest_stays (h : Ready s q c b rest) (hno : s.cplFull q = true ∨ (b.gap = none ∧ s.freeSpace q c < b.bytes.length))
    (ue : Bool) : s.deliverOldest q ue = s := by
  unfold State.deliverOldest
  dsimp only
  rw [h.circ, h.staged]
  dsimp only
  by_cases hf : s.cplFull q = true
  · exact if_neg fun hh => by
      have := hh.2.2.2.2
      rw [hf] at this
      cases this
  · obtain ⟨hg, hroom⟩ := hno.resolve_left hf
    rw [if_pos (h.may (Bool.eq_false_iff.2 hf)), hg]
    exact if_neg (by omega)

/-! ### The command -/

theorem Ready.at (h : Ready s q c b rest) (x : Tu) : Ready (s.at x) q c b rest := by
  have hq := State.queue_of_eq (State.at_dma s x) q
  exact ⟨by rw [hq]; exact h.circ, by rw [hq]; exact h.staged, by rw [State.at_qState]; exact h.state,
    (State.at_flag ..).trans h.held, by rw [hq]; exact h.release, h.closed⟩

theorem exec_stagedDelivery (x : Tu) (q : Fin 64) (ue : Bool) (hup : s.hostUp = true) :
    exec (.stagedDelivery x q ue) s = s.done ((s.at x).deliverOldest q ue).noteBlocked := by
  rw [exec, execStagedDelivery, State.whenHost_eq hup]

@[simp] theorem State.at_cplExp (s : State) (x : Tu) (q : Nat) : (s.at x).cplExp q = s.cplExp q := by
  rw [State.cplExp, State.cplExp, State.at_fld]

@[simp] theorem State.at_cplFull (s : State) (x : Tu) (q : Nat) : (s.at x).cplFull q = s.cplFull q := by
  rw [State.cplFull, State.cplFull, State.at_cplExp, State.at_fld, State.at_fld]

@[simp] theorem State.at_freeSpace (s : State) (x : Tu) (q : Nat) (c : Circ) : (s.at x).freeSpace q c = s.freeSpace q c := by
  rw [State.freeSpace, State.freeSpace, State.at_fld]

/-- What ends with a completion record shows it as the newest output but for what the stall raises. -/
theorem Completes.completes {a : Frame} {n ofs st : Nat} {l : Frame} {y z : State} (h : Completes q a n ofs st l y z)
    (hr : ∀ r i, r ≠ .DMA_Q_WR_OFS → y.reg r i = s.reg r i) (hf : y.frame = s.frame)
    (hp : (y.queue q).phase = (s.queue q).phase) {v : State} {more : List Out}
    (hu : u.out = more ++ v.out) (hv : v.out = z.out) (hi : u.fld Fld.DMA_Q_CPL_WR_INDEX q = z.fld Fld.DMA_Q_CPL_WR_INDEX q) :
    ∃ st', completes s u q (cplRecord a s.frame n ofs st' q (s.queue q).phase l) more y.out ∧
      (st.testBit 1 = true → st'.testBit 1 = true) := by
  obtain ⟨⟨st', hout, hbit⟩, hidx, -⟩ := h
  have he : y.cplExp q = s.cplExp q := by
    rw [State.cplExp, State.cplExp, State.fld_of_reg (hr _ _ (by decide))]
  have hpair : y.pair .DMA_Q_CPL_LO .DMA_Q_CPL_HI q = s.pair .DMA_Q_CPL_LO .DMA_Q_CPL_HI q := by
    rw [State.pair, State.pair, hr _ _ (by decide), hr _ _ (by decide)]
  have hw : y.fld Fld.DMA_Q_CPL_WR_INDEX q = s.fld Fld.DMA_Q_CPL_WR_INDEX q := State.fld_of_reg (hr _ _ (by decide))
  rw [he, hpair, hw, hf, hp] at hout
  rw [he, hw] at hidx
  exact ⟨st', ⟨by rw [hu, hv, hout], hi.trans hidx⟩, hbit⟩

theorem stagedDelivery_stays {q : Fin 64} {ue : Bool} (hup : s.hostUp = true) (h : Ready s q c b rest)
    (hno : s.cplFull q = true ∨ (b.gap = none ∧ s.freeSpace q c < b.bytes.length)) :
    ∃ u, exec (.stagedDelivery x q ue) s = .next u ∧ (u.queue q).staged = (s.queue q).staged ∧
        onlyRaising s u [⟨.HUB_HOST_STALL_MAX, 0⟩, ⟨.HUB_HOST_STALL_VIOL, 0⟩] [13] := by
  obtain ⟨u, more, hu, -, -, hq, -, hon⟩ := State.done_noteBlocked (s := s) (x := x) (z := s.at x) (but := []) (.refl _ _) rfl
    (congrArg Dma.blocked (State.at_dma s x))
  refine ⟨u, ?_, ?_, hon⟩
  · rw [exec_stagedDelivery x q ue hup, State.deliverOldest_stays (h.at x) (by rwa [State.at_cplFull, State.at_freeSpace])]
    exact hu
  · rw [hq, State.queue_of_eq (State.at_dma s x)]

theorem stagedDelivery_gap {q : Fin 64} {ue : Bool} (hup : s.hostUp = true) (h : Ready s q c b rest) (hg : b.gap = some g)
    (hf : s.cplFull q = false) :
      ∃ u st more, exec (.stagedDelivery x q ue) s = .next u ∧ (u.queue q).staged = { b with gap := none } :: rest ∧
        completes s u q (cplRecord g.first s.frame g.bytes (s.fld Fld.DMA_Q_WR_OFS_OFS q) st q (s.queue q).phase g.last) more s.out ∧
        st.testBit 1 = true ∧ (s.dma.blocked = none → more = []) ∧ onlyRaising s u (deliveryRegs q) [13] := by
  have hc := (s.at x).complete_completes q g.first g.bytes (s.fld Fld.DMA_Q_WR_OFS_OFS q) stGap g.last
  have hon := (s.at x).complete_only q g.first g.bytes (s.fld Fld.DMA_Q_WR_OFS_OFS q) stGap g.last
  have hd := State.deliverOldest_gap (h.at x) ((State.at_cplFull ..).trans hf) hg ue
  rw [State.at_fld] at hd
  obtain ⟨a, ha⟩ : ∃ a, a = (s.at x).complete q g.first g.bytes (s.fld Fld.DMA_Q_WR_OFS_OFS q) stGap g.last := ⟨_, rfl⟩
  rw [← ha] at hc hon hd
  obtain ⟨z, hz⟩ : ∃ z, z = a.modQueue q fun x => { x with staged := { b with gap := none } :: rest } := ⟨_, rfl⟩
  have hzon : onlyRegs (s.at x) z [⟨.DMA_Q_CPL_WR, q⟩, ⟨.DMA_Q_LATE, q⟩] := by
    rw [hz]
    exact hon.modQueue
  have hzq : (z.queue q).staged = { b with gap := none } :: rest := by
    rw [hz, State.queue_modQueue]
  have hzout : z.out = a.out := by
    rw [hz]
    rfl
  have hzbl : z.dma.blocked = s.dma.blocked := by
    rw [hz]
    exact hc.blocked.trans (congrArg Dma.blocked (State.at_dma s x))
  have hzidx : z.fld Fld.DMA_Q_CPL_WR_INDEX q = a.fld Fld.DMA_Q_CPL_WR_INDEX q := by
    rw [hz]
    rfl
  obtain ⟨u, more, hu, hout, hmore, hq, hzu, hon'⟩ := State.done_noteBlocked hzon rfl hzbl
  obtain ⟨st, hcomp, hbit⟩ := hc.completes (s := s) (u := u) (fun r i _ => State.at_reg s x r i) (State.at_frame s x)
    (by rw [State.queue_of_eq (State.at_dma s x)]) hout hzout ((hzu.fld (by simp [stallRegs]) rfl).trans hzidx)
  rw [State.at_out] at hcomp
  refine ⟨u, st, more, ?_, by rw [hq, hzq], hcomp, hbit rfl, hmore,
    hon'.mono (by simp [stallRegs, deliveryRegs]) fun _ h => h⟩
  rw [exec_stagedDelivery x q ue hup, hd, ← hz]
  exact hu

theorem stagedDelivery_data {q : Fin 64} {ue : Bool} (hup : s.hostUp = true) (h : Ready s q c b rest) (hg : b.gap = none)
    (hf : s.cplFull q = false) (hroom : b.bytes.length ≤ s.freeSpace q c) (h0 : 0 < c.size) (h32 : c.size < 2 ^ 32) :
      ∃ u st more, exec (.stagedDelivery x q ue) s = .next u ∧ (u.queue q).staged = rest ∧
        completes s u q (cplRecord b.frame s.frame b.bytes.length (s.fld Fld.DMA_Q_WR_OFS_OFS q) st q (s.queue q).phase 0) more
          ((s.at x).writeCirc q c b.bytes ue).out ∧
        (s.dma.blocked = none → more = []) ∧
        u.fld Fld.DMA_Q_WR_OFS_OFS q = (s.fld Fld.DMA_Q_WR_OFS_OFS q + b.bytes.length) % c.size ∧
        onlyRaising s u (deliveryRegs q) [13] := by
  obtain ⟨st0, hd⟩ := State.deliverOldest_data (h.at x) ((State.at_cplFull ..).trans hf) hg
    (by rw [State.at_freeSpace]; exact hroom) ue
  obtain ⟨hyon, hydma, hyf, hyofs⟩ := (s.at x).writeCirc_reads q c b.bytes ue h0 h32
  rw [State.at_fld] at hd hyofs
  obtain ⟨y, hy⟩ : ∃ y, y = (s.at x).writeCirc q c b.bytes ue := ⟨_, rfl⟩
  rw [← hy] at hd hyon hydma hyf hyofs ⊢
  have hc := y.complete_completes q b.frame b.bytes.length (s.fld Fld.DMA_Q_WR_OFS_OFS q) st0 0
  have hon := y.complete_only q b.frame b.bytes.length (s.fld Fld.DMA_Q_WR_OFS_OFS q) st0 0
  obtain ⟨a, ha⟩ : ∃ a, a = y.complete q b.frame b.bytes.length (s.fld Fld.DMA_Q_WR_OFS_OFS q) st0 0 := ⟨_, rfl⟩
  rw [← ha] at hc hon hd
  obtain ⟨z, hz⟩ : ∃ z, z = (a.modQueue q fun x => { x with staged := rest }).syncStaged q := ⟨_, rfl⟩
  have haz : onlyRegs a z [⟨.DMA_Q_STAGED, q⟩] := by
    rw [hz]
    exact .setFld (.head _) (.modQueue (.refl _ _))
  have hzon : onlyRegs (s.at x) z [⟨.DMA_Q_WR_OFS, q⟩, ⟨.DMA_Q_CPL_WR, q⟩, ⟨.DMA_Q_LATE, q⟩, ⟨.DMA_Q_STAGED, q⟩] :=
    ((hyon.mono (by simp)).trans (hon.mono (by simp))).trans (haz.mono (by simp))
  have hzq : (z.queue q).staged = rest := by
    rw [hz, State.syncStaged, State.queue_setFld, State.queue_modQueue]
  have hzout : z.out = a.out := by
    rw [hz]
    rfl
  have hzbl : z.dma.blocked = s.dma.blocked := by
    rw [hz]
    exact hc.blocked.trans (congrArg Dma.blocked (hydma.trans (State.at_dma s x)))
  have hzidx : z.fld Fld.DMA_Q_CPL_WR_INDEX q = a.fld Fld.DMA_Q_CPL_WR_INDEX q := State.fld_of_reg (haz.1 _ _ (by simp))
  have hzofs : z.fld Fld.DMA_Q_WR_OFS_OFS q = (s.fld Fld.DMA_Q_WR_OFS_OFS q + b.bytes.length) % c.size :=
    (State.fld_of_reg (haz.1 _ _ (by simp))).trans ((State.fld_of_reg (hon.1 _ _ (by simp))).trans hyofs)
  obtain ⟨u, more, hu, hout, hmore, hq, hzu, hon'⟩ := State.done_noteBlocked hzon rfl hzbl
  have hqueue : y.queue q = s.queue q := State.queue_of_eq (hydma.trans (State.at_dma s x)) q
  obtain ⟨st, hcomp, -⟩ := hc.completes (s := s) (u := u)
    (fun r i hr => (hyon.1 r i (by simp [hr])).trans (State.at_reg s x r i)) (hyf.trans (State.at_frame s x))
    (by rw [hqueue]) hout hzout ((hzu.fld (by simp [stallRegs]) rfl).trans hzidx)
  refine ⟨u, st, more, ?_, by rw [hq, hzq], hcomp, hmore, (hzu.fld (by simp [stallRegs]) rfl).trans hzofs,
    hon'.mono (by simp [stallRegs, deliveryRegs]) fun _ h => h⟩
  rw [exec_stagedDelivery x q ue hup, hd, ← hz]
  exact hu

theorem dataAreDelivered_holds : dataAreDelivered := by
  intro s t q ue c b rest hup hcirc hstaged hst hheld hrel hopen
  have h : Ready s q c b rest := ⟨hcirc, hstaged, hst, hheld, hrel, hopen⟩
  refine ⟨fun hg hf hroom h0 h32 hne => ?_, fun g hg hf => stagedDelivery_gap hup h hg hf,
    fun hno => stagedDelivery_stays hup h hno⟩
  obtain ⟨u, st, more, hd⟩ := stagedDelivery_data (x := t) (ue := ue) hup h hg hf hroom h0 h32
  rw [State.writeCirc_out _ _ _ _ _ hne, State.at_fld, State.at_out] at hd
  exact ⟨u, st, more, hd⟩

/-- Settles O42: a datum is read off the staging area as an array written around, and a delivery off its completion record. -/
theorem streamDataAreStagedAndDelivered : Obligations.StreamDataAreStagedAndDelivered := by
  unfold Obligations.StreamDataAreStagedAndDelivered
  exact ⟨dataAreStaged_holds, dataAreDelivered_holds⟩

end Sys2Proof.Machine
end

section
/-! O45: the budget of the host link (R56, R57, R60). -/

namespace Sys2Proof.Machine

variable {s t u w : State} {but : List Reg} {q : Nat} {x : Tu}

/-! ### Shares of a window -/

/-- The share of the window that ends at a tick, where the stall began in the frame that the tick ends. -/
theorem spanOverlap_stall {a b : Tu} {n p : Nat} (hp : 0 < p) (hp28 : p ≤ 2 ^ 28) (ha : a.toNat < n) (han : n ≤ a.toNat + p)
    (hb : n ≤ b.toNat) (hb' : b.toNat < n + p) :
    spanOverlap [(a, b)] (BitVec.ofNat 64 n - BitVec.ofNat 64 (64 * p)) (BitVec.ofNat 64 n) = n - a.toNat := by
  have hb64 := b.isLt
  have hn : n % 2 ^ 64 = n := Nat.mod_eq_of_lt (by omega)
  have hw : 64 * p % 2 ^ 64 = 64 * p := Nat.mod_eq_of_lt (by omega)
  have hlo : tuLe (BitVec.ofNat 64 n - BitVec.ofNat 64 (64 * p)) a = true := by
    simp only [tuLe, decide_eq_true_eq, BitVec.toNat_sub, BitVec.toNat_ofNat, hn, hw]
    by_cases h : 64 * p ≤ n
    · rw [show (2 ^ 64 - 64 * p + n) % 2 ^ 64 = n - 64 * p by omega,
        show (2 ^ 64 - (n - 64 * p) + a.toNat) % 2 ^ 64 = a.toNat + 64 * p - n by omega]
      omega
    · rw [show (2 ^ 64 - 64 * p + n) % 2 ^ 64 = 2 ^ 64 - 64 * p + n by omega,
        show (2 ^ 64 - (2 ^ 64 - 64 * p + n) + a.toNat) % 2 ^ 64 = a.toNat + 64 * p - n by omega]
      omega
  have hhi : (if tuLe b (BitVec.ofNat 64 n) = true then b else BitVec.ofNat 64 n) = BitVec.ofNat 64 n := by
    split
    · next h =>
      simp only [tuLe, decide_eq_true_eq, BitVec.toNat_sub, BitVec.toNat_ofNat, hn] at h
      refine BitVec.eq_of_toNat_eq ?_
      rw [BitVec.toNat_ofNat, hn]
      omega
    · rfl
  have hle : tuLe a (BitVec.ofNat 64 n) = true := by
    simp only [tuLe, decide_eq_true_eq, BitVec.toNat_sub, BitVec.toNat_ofNat, hn]
    omega
  simp only [spanOverlap, List.map_cons, List.map_nil, List.sum_cons, List.sum_nil, hlo, hhi, if_true, hle]
  simp only [BitVec.toNat_sub, BitVec.toNat_ofNat, hn]
  omega

theorem State.period_le (s : State) : 0 < s.period ∧ s.period ≤ 2 ^ 28 := by
  unfold State.period
  split
  · refine ⟨Nat.two_pow_pos _, Nat.pow_le_pow_right (by decide) ?_⟩
    have : s.k < 2 ^ 4 := s.fld_lt Fld.HUB_TICK_CFG_K 0
    omega
  · exact ⟨by decide, by decide⟩

/-- The windows that a stall from `a` on breaks. -/
def State.brokenBy (s : State) (a : Tu) : List Tu :=
  ((List.range (s.time.toNat / s.period - a.toNat / s.period)).map fun i =>
    BitVec.ofNat 64 ((a.toNat / s.period + 1 + i) * s.period)).filter fun t =>
      s.shareBroken (joinSpan s.dma.stalls a s.time) t && !s.shareBroken s.dma.stalls t

/-- A stall's span is noted. -/
def State.stallNoted (s : State) (a : Tu) : State :=
  { s with dma := { s.dma with stalls := joinSpan s.dma.stalls a s.time } }

theorem State.stalled_eq (s : State) (a : Tu) : s.stalled a =
    ((s.stallNoted a).stallMax ((s.time - a).toNat / 8192)).shareViol (if s.pitched then (s.brokenBy a).length else 0) := rfl

theorem State.brokenBy_none {a : Tu} (h : s.time.toNat / s.period ≤ a.toNat / s.period) : s.brokenBy a = [] := by
  rw [State.brokenBy, Nat.sub_eq_zero_of_le h]
  rfl

/-- The first stall that lasts from one frame into the next breaks the window between them, or none. -/
theorem State.brokenBy_one {a : Tu} (hst : s.dma.stalls = []) (h : s.time.toNat / s.period = a.toNat / s.period + 1) :
    (s.brokenBy a).length = if s.fld Fld.HUB_HOST_BUDGET_STALL_SHARE 0 * (64 * s.period) <
      100 * ((a.toNat / s.period + 1) * s.period - a.toNat) then 1 else 0 := by
  obtain ⟨hp, hp28⟩ := s.period_le
  obtain ⟨p, hpe⟩ : ∃ p, p = s.period := ⟨_, rfl⟩
  rw [← hpe] at hp hp28
  have h0 : s.shareBroken [] (BitVec.ofNat 64 ((a.toNat / s.period + 1 + 0) * s.period)) = false := by
    simp only [State.shareBroken, spanOverlap, List.map_nil, List.sum_nil, Nat.mul_zero, Nat.not_lt_zero, decide_false]
  have hspan : spanOverlap [(a, s.time)] (BitVec.ofNat 64 ((a.toNat / s.period + 1) * s.period) - BitVec.ofNat 64 (64 * s.period))
      (BitVec.ofNat 64 ((a.toNat / s.period + 1) * s.period)) = (a.toNat / s.period + 1) * s.period - a.toNat := by
    rw [← hpe] at h ⊢
    have h1 := Nat.div_add_mod a.toNat p
    have h2 := Nat.mod_lt a.toNat hp
    have h3 := Nat.div_add_mod s.time.toNat p
    have h4 := Nat.mod_lt s.time.toNat hp
    have h5 : (a.toNat / p + 1) * p = p * (a.toNat / p) + p := by ring
    have h6 : p * (s.time.toNat / p) = p * (a.toNat / p) + p := by rw [h]; ring
    exact spanOverlap_stall hp hp28 (by omega) (by omega) (by omega) (by omega)
  have hjoin : joinSpan [] a s.time = [(a, s.time)] := rfl
  have hbr : s.shareBroken [(a, s.time)] (BitVec.ofNat 64 ((a.toNat / s.period + 1 + 0) * s.period)) =
      decide (s.fld Fld.HUB_HOST_BUDGET_STALL_SHARE 0 * (64 * s.period) <
        100 * ((a.toNat / s.period + 1) * s.period - a.toNat)) := by
    rw [Nat.add_zero, State.shareBroken, hspan]
  have hone : s.time.toNat / s.period - a.toNat / s.period = 1 := by omega
  rw [State.brokenBy, hst, hjoin, hone, List.range_one, List.map_singleton, List.filter_singleton, hbr, h0, Bool.not_false,
    Bool.and_true]
  by_cases hc : s.fld Fld.HUB_HOST_BUDGET_STALL_SHARE 0 * (64 * s.period) <
      100 * ((a.toNat / s.period + 1) * s.period - a.toNat)
  · rw [if_pos hc, decide_eq_true hc]
    rfl
  · rw [if_neg hc, decide_eq_false hc]
    rfl

/-! ### What a stall shows -/

theorem State.shareViol_eq (s : State) (n : Nat) : s.shareViol n =
    if n ≠ 0 ∧ s.fld Fld.HUB_HOST_STALL_VIOL_COUNT 0 = 0 then (s.bump Fld.HUB_HOST_STALL_VIOL_COUNT 0 n).raise 13 2 0
    else s.bump Fld.HUB_HOST_STALL_VIOL_COUNT 0 n := rfl

theorem State.shareViol_zero_reg (s : State) : (s.shareViol 0).reg .HUB_HOST_STALL_VIOL 0 = s.reg .HUB_HOST_STALL_VIOL 0 := by
  have h : s.shareViol 0 = s.bump Fld.HUB_HOST_STALL_VIOL_COUNT 0 0 := by
    rw [State.shareViol_eq]
    exact if_neg fun h => h.1 rfl
  have hlt := s.fld_lt Fld.HUB_HOST_STALL_VIOL_COUNT 0
  rw [h, State.bump, Nat.add_zero, Nat.min_eq_left (Nat.le_sub_one_of_lt hlt)]
  exact s.setFld_self Fld.HUB_HOST_STALL_VIOL_COUNT 0 _ _

theorem State.stallMax_reads (s : State) {n : Nat} (hn : n < 2 ^ 32) :
    (s.stallMax n).fld Fld.HUB_HOST_STALL_MAX_NS 0 = max (s.fld Fld.HUB_HOST_STALL_MAX_NS 0) n ∧
      (∀ r i, r ≠ .HUB_HOST_STALL_MAX → eventReg r = false → (s.stallMax n).reg r i = s.reg r i) ∧
      (s.fld Fld.HUB_HOST_STALL_MAX_NS 0 ≤ s.fld Fld.HUB_HOST_BUDGET_STALL_MAX 0 →
        s.fld Fld.HUB_HOST_BUDGET_STALL_MAX 0 < n → s.fld Fld.EVT_ROUTE_KIND 13 ≠ 1 → (s.stallMax n).evtStatus 13 = true) := by
  obtain ⟨a, ha⟩ : ∃ a, a = s.setFld Fld.HUB_HOST_STALL_MAX_NS 0 (max (s.fld Fld.HUB_HOST_STALL_MAX_NS 0) (min n (2 ^ 32 - 1))) :=
    ⟨_, rfl⟩
  have hmin : min n (2 ^ 32 - 1) = n := Nat.min_eq_left (by omega)
  have hold : s.fld Fld.HUB_HOST_STALL_MAX_NS 0 < 2 ^ 32 := s.fld_lt Fld.HUB_HOST_STALL_MAX_NS 0
  have hfld : a.fld Fld.HUB_HOST_STALL_MAX_NS 0 = max (s.fld Fld.HUB_HOST_STALL_MAX_NS 0) n := by
    rw [ha, hmin]
    exact State.fld_setFld_of_lt _ _ _ (by decide) (show _ < 2 ^ 32 by omega)
  have hreg : ∀ r i, r ≠ .HUB_HOST_STALL_MAX → a.reg r i = s.reg r i := fun r i hr => by
    rw [ha]
    exact State.reg_setFld_ne _ _ _ _ _ _ hr
  obtain ⟨b, hb⟩ : ∃ b, b = if s.fld Fld.HUB_HOST_BUDGET_STALL_MAX 0 < n ∧
    s.fld Fld.HUB_HOST_STALL_MAX_NS 0 ≤ s.fld Fld.HUB_HOST_BUDGET_STALL_MAX 0 then a.raise 13 1 0 else a := ⟨_, rfl⟩
  have heq : s.stallMax n = b := by
    rw [hb, ha]
    rfl
  have hr : Raises a b [13] := by
    rw [hb]
    exact .ite (State.raise_raises 13 1 0) (.refl _ _)
  rw [heq]
  refine ⟨(hr.fld _ _ rfl).trans hfld, fun r i h1 h2 => (hr.reg _ _ h2).trans (hreg r i h1), fun h1 h2 hk => ?_⟩
  rw [hb, if_pos ⟨h2, h1⟩]
  exact State.raise_raisable (State.raisable_hub rfl (by rw [State.fld_of_reg (hreg _ _ (by decide))]; exact hk))

/-- EVT_STATUS of the event stays over another raise of it. -/
theorem State.raise_keeps_status (s : State) {k c i : Nat} (hh : hubSource k = true) (hk : s.fld Fld.EVT_ROUTE_KIND k ≠ 1) :
    (s.raise k c i).evtStatus k = true := State.raise_raisable (State.raisable_hub hh hk)

theorem State.shareViol_reads (s : State) (n : Nat) :
    (∀ r i, r ≠ .HUB_HOST_STALL_VIOL → eventReg r = false → (s.shareViol n).reg r i = s.reg r i) ∧
      (s.fld Fld.EVT_ROUTE_KIND 13 ≠ 1 → s.evtStatus 13 = true → (s.shareViol n).evtStatus 13 = true) ∧
      (n ≠ 0 → s.fld Fld.HUB_HOST_STALL_VIOL_COUNT 0 = 0 → s.fld Fld.EVT_ROUTE_KIND 13 ≠ 1 →
        (s.shareViol n).evtStatus 13 = true) ∧
      (s.fld Fld.HUB_HOST_STALL_VIOL_COUNT 0 + n ≤ 2 ^ 32 - 1 →
        (s.shareViol n).fld Fld.HUB_HOST_STALL_VIOL_COUNT 0 = s.fld Fld.HUB_HOST_STALL_VIOL_COUNT 0 + n) := by
  obtain ⟨a, ha⟩ : ∃ a, a = s.bump Fld.HUB_HOST_STALL_VIOL_COUNT 0 n := ⟨_, rfl⟩
  have hreg : ∀ r i, r ≠ .HUB_HOST_STALL_VIOL → a.reg r i = s.reg r i := fun r i hr => by
    rw [ha]
    exact State.reg_setFld_ne _ _ _ _ _ _ hr
  obtain ⟨b, hb⟩ : ∃ b, b = if n ≠ 0 ∧ s.fld Fld.HUB_HOST_STALL_VIOL_COUNT 0 = 0 then a.raise 13 2 0 else a := ⟨_, rfl⟩
  have heq : s.shareViol n = b := by
    rw [hb, ha]
    rfl
  have hr : Raises a b [13] := by
    rw [hb]
    exact .ite (State.raise_raises 13 2 0) (.refl _ _)
  have hka : s.fld Fld.EVT_ROUTE_KIND 13 ≠ 1 → a.fld Fld.EVT_ROUTE_KIND 13 ≠ 1 := fun hk => by
    rw [State.fld_of_reg (hreg _ _ (by decide))]
    exact hk
  rw [heq]
  refine ⟨fun r i h1 h2 => (hr.reg _ _ h2).trans (hreg r i h1), fun hk hs => ?_, fun hn h0 hk => ?_, fun hle => ?_⟩
  · rw [hb]
    split
    · exact a.raise_keeps_status rfl (hka hk)
    · rw [State.evtStatus_of_reg fun i => hreg _ i (by decide)]
      exact hs
  · rw [hb, if_pos ⟨hn, h0⟩]
    exact a.raise_keeps_status rfl (hka hk)
  · rw [hr.fld _ _ rfl, ha, State.fld_bump _ _ _ _ (by decide)]
    exact Nat.min_eq_left hle

/-! ### HOST_BUDGET -/

/-- What a stall of `n` ns leaves. -/
theorem hostBudget_stalls (x a : Tu) (stall : Word) (ha : s.alive = true) (hae : a = (s.at x).time - BitVec.ofNat 64 (ns stall.toNat)) :
    ∃ (z u : State) (k : Nat), exec (.hostBudget x stall) s = .next u ∧ Raises (z.shareViol k) u noteSrcs ∧
      k = (if s.pitched then ((s.at x).brokenBy a).length else 0) ∧
      z.fld Fld.HUB_HOST_STALL_MAX_NS 0 = max (s.fld Fld.HUB_HOST_STALL_MAX_NS 0) stall.toNat ∧
      (∀ r i, r ≠ .HUB_HOST_STALL_MAX → eventReg r = false → z.reg r i = s.reg r i) ∧
      (s.fld Fld.HUB_HOST_STALL_MAX_NS 0 ≤ s.fld Fld.HUB_HOST_BUDGET_STALL_MAX 0 →
        s.fld Fld.HUB_HOST_BUDGET_STALL_MAX 0 < stall.toNat → s.fld Fld.EVT_ROUTE_KIND 13 ≠ 1 → z.evtStatus 13 = true) ∧
      onlyRaising s u [⟨.HUB_HOST_STALL_MAX, 0⟩, ⟨.HUB_HOST_STALL_VIOL, 0⟩] [13] := by
  have hn : (((s.at x).time - a).toNat / 8192) = stall.toNat := by
    have := stall.isLt
    rw [hae, show (s.at x).time - ((s.at x).time - BitVec.ofNat 64 (ns stall.toNat)) = BitVec.ofNat 64 (ns stall.toNat) from
      sub_sub_cancel _ _, BitVec.toNat_ofNat, ns]
    omega
  have hwork := (s.at x).stalled_work a
  have heq := (s.at x).stalled_eq a
  rw [hn, State.at_pitched] at heq
  have hreg : ∀ r i, ((s.at x).stallNoted a).reg r i = s.reg r i := fun r i => State.at_reg s x r i
  obtain ⟨h1, h2, h3⟩ := ((s.at x).stallNoted a).stallMax_reads stall.isLt
  obtain ⟨z, hz⟩ : ∃ z, z = ((s.at x).stallNoted a).stallMax stall.toNat := ⟨_, rfl⟩
  rw [← hz] at heq h1 h2 h3
  obtain ⟨k, hk⟩ : ∃ k, k = if s.pitched then ((s.at x).brokenBy a).length else 0 := ⟨_, rfl⟩
  rw [← hk] at heq
  obtain ⟨u, hu, hr⟩ := s.done_notes (z.shareViol k)
  have hfld : ∀ f i, ((s.at x).stallNoted a).fld f i = s.fld f i := fun f i => State.fld_of_reg (hreg _ _)
  rw [hfld] at h1
  rw [hfld, hfld, hfld] at h3
  refine ⟨z, u, k, ?_, hr, hk, h1, fun r i hr' he => (h2 r i hr' he).trans (hreg r i), h3, ?_⟩
  · rw [exec, execHostBudget, State.when_eq ha, ← hae, heq]
    exact hu
  · rw [← heq] at hr
    exact .at (x := x) (hwork.only.trans hr.onlyNotes)

theorem hostBudget_counts (s : State) (t a : Tu) (stall : Word) (ha : s.alive = true)
    (hae : a = (s.at t).time - BitVec.ofNat 64 (ns stall.toNat)) :
    ∃ u, exec (.hostBudget t stall) s = .next u ∧
      u.fld Fld.HUB_HOST_STALL_MAX_NS 0 = max (s.fld Fld.HUB_HOST_STALL_MAX_NS 0) stall.toNat ∧
      (s.pitched = false ∨ (s.at t).time.toNat / s.period ≤ a.toNat / s.period →
        u.reg .HUB_HOST_STALL_VIOL 0 = s.reg .HUB_HOST_STALL_VIOL 0) ∧
      (s.pitched = true → s.dma.stalls = [] → ns stall.toNat ≤ (s.at t).time.toNat →
        (s.at t).time.toNat / s.period = a.toNat / s.period + 1 →
        (100 * ((a.toNat / s.period + 1) * s.period - a.toNat) ≤
            s.fld Fld.HUB_HOST_BUDGET_STALL_SHARE 0 * (64 * s.period) →
          u.reg .HUB_HOST_STALL_VIOL 0 = s.reg .HUB_HOST_STALL_VIOL 0) ∧
        (s.fld Fld.HUB_HOST_BUDGET_STALL_SHARE 0 * (64 * s.period) <
            100 * ((a.toNat / s.period + 1) * s.period - a.toNat) → s.fld Fld.HUB_HOST_STALL_VIOL_COUNT 0 < 2 ^ 32 - 1 →
          u.fld Fld.HUB_HOST_STALL_VIOL_COUNT 0 = s.fld Fld.HUB_HOST_STALL_VIOL_COUNT 0 + 1 ∧
          (s.fld Fld.HUB_HOST_STALL_VIOL_COUNT 0 = 0 → s.fld Fld.EVT_ROUTE_KIND 13 ≠ 1 → u.evtStatus 13 = true))) ∧
      (s.fld Fld.HUB_HOST_STALL_MAX_NS 0 ≤ s.fld Fld.HUB_HOST_BUDGET_STALL_MAX 0 →
        s.fld Fld.HUB_HOST_BUDGET_STALL_MAX 0 < stall.toNat → s.fld Fld.EVT_ROUTE_KIND 13 ≠ 1 →
          u.evtStatus 13 = true) ∧
      onlyRaising s u [⟨.HUB_HOST_STALL_MAX, 0⟩, ⟨.HUB_HOST_STALL_VIOL, 0⟩] [13] := by
  obtain ⟨z, u, k, hu, hr, hk, hmax, hreg, hev, hon⟩ := hostBudget_stalls t a stall ha hae
  obtain ⟨hv1, hv2, hv3, hv4⟩ := z.shareViol_reads k
  have hviol0 : k = 0 → u.reg .HUB_HOST_STALL_VIOL 0 = s.reg .HUB_HOST_STALL_VIOL 0 := fun h0 => by
    rw [hr.reg _ _ rfl, h0, State.shareViol_zero_reg]
    exact hreg _ _ (by decide) rfl
  have hcount : z.fld Fld.HUB_HOST_STALL_VIOL_COUNT 0 = s.fld Fld.HUB_HOST_STALL_VIOL_COUNT 0 :=
    State.fld_of_reg (hreg _ _ (by decide) rfl)
  have hroute : s.fld Fld.EVT_ROUTE_KIND 13 ≠ 1 → z.fld Fld.EVT_ROUTE_KIND 13 ≠ 1 := fun h => by
    rw [State.fld_of_reg (hreg _ _ (by decide) rfl)]
    exact h
  refine ⟨u, hu, ?_, fun h => ?_, fun hp hst _ h => ?_, fun h1 h2 h3 => ?_, hon⟩
  · rw [hr.fld _ _ rfl, State.fld_of_reg (hv1 _ _ (by decide) rfl), hmax]
  · refine hviol0 ?_
    rw [hk]
    rcases h with h | h
    · rw [h]
      rfl
    · rw [State.brokenBy_none (by rw [State.at_period]; exact h)]
      simp
  · have hone := State.brokenBy_one (s := s.at t) (a := a) ((congrArg Dma.stalls (State.at_dma s t)).trans hst)
      (by rw [State.at_period]; exact h)
    rw [State.at_period, State.at_fld] at hone
    rw [hp, if_pos rfl, hone] at hk
    refine ⟨fun hle => hviol0 (by rw [hk, if_neg (by omega)]), fun hlt hc => ?_⟩
    rw [if_pos hlt] at hk
    refine ⟨?_, fun h0 hrt => ?_⟩
    · rw [hr.fld _ _ rfl, hv4 (by rw [hcount]; omega), hcount, hk]
    · rw [hr.evtStatus (by decide)]
      exact hv3 (by omega) (hcount.trans h0) (hroute hrt)
  · rw [hr.evtStatus (by decide)]
    exact hv2 (hroute h3) (hev h1 h2 h3)

/-! ### The trained link -/

/-- The link as trained. -/
def State.linkShown (s : State) (gen width : Nat) : State :=
  (s.setFld Fld.DMA_LINK_STATUS_GEN 0 gen).setFld Fld.DMA_LINK_STATUS_WIDTH 0 width

theorem linkTrained_shows (gen : Fin 6) (width : Fin 9) (s : State) :
    (s.linkShown gen width).fld Fld.DMA_LINK_STATUS_GEN 0 = gen ∧ (s.linkShown gen width).fld Fld.DMA_LINK_STATUS_WIDTH 0 = width ∧
      onlyRegs s (s.linkShown gen width) [⟨.DMA_LINK_STATUS, 0⟩] := by
  refine ⟨?_, ?_, .setFld (.head _) (.setFld (.head _) (.refl _ _))⟩
  · rw [State.linkShown, State.fld_setFld_apart _ _ _ _ _ _ (by decide)]
    exact State.fld_setFld_of_lt _ _ _ (by decide) (Nat.lt_trans gen.2 (by decide))
  · exact State.fld_setFld_of_lt _ _ _ (by decide) (Nat.lt_trans width.2 (by decide))

/-- The link as trained, with its episode noted. -/
def State.linkNoted (s : State) (gen width : Nat) (b : Bool) : State :=
  { s.linkShown gen width with dma := { (s.linkShown gen width).dma with below := b } }

theorem State.linkTrained_eq (s : State) (gen width : Nat) : s.linkTrained gen width =
    if decide (gen < s.fld Fld.HUB_HOST_BUDGET_LINK_GEN 0 ∨ width < s.fld Fld.HUB_HOST_BUDGET_LINK_WIDTH 0) && !s.dma.below then
      (s.linkNoted gen width
        (decide (gen < s.fld Fld.HUB_HOST_BUDGET_LINK_GEN 0 ∨ width < s.fld Fld.HUB_HOST_BUDGET_LINK_WIDTH 0))).raise 14 1 0
    else s.linkNoted gen width
      (decide (gen < s.fld Fld.HUB_HOST_BUDGET_LINK_GEN 0 ∨ width < s.fld Fld.HUB_HOST_BUDGET_LINK_WIDTH 0)) := rfl

theorem linkBelowBudget_shows (t : Tu) (gen : Fin 6) (width : Fin 9) (hup : s.hostUp = true)
    (h : gen.val < s.fld Fld.HUB_HOST_BUDGET_LINK_GEN 0 ∨ width.val < s.fld Fld.HUB_HOST_BUDGET_LINK_WIDTH 0) :
      ∃ u, exec (.linkBelowBudget t gen width) s = .next u ∧ u.fld Fld.DMA_LINK_STATUS_GEN 0 = gen ∧
        u.fld Fld.DMA_LINK_STATUS_WIDTH 0 = width ∧ u.dma.below = true ∧
        (s.dma.below = false → s.fld Fld.EVT_ROUTE_KIND 14 ≠ 1 → u.evtStatus 14 = true) ∧
        (s.dma.below = true → sameSource s u 14) ∧ onlyRaising s u [⟨.DMA_LINK_STATUS, 0⟩] [14] := by
  obtain ⟨hg, hw, hon⟩ := linkTrained_shows gen width (s.at t)
  obtain ⟨z, hz⟩ : ∃ z, z = (s.at t).linkNoted gen width true := ⟨_, rfl⟩
  have hzon : onlyRegs (s.at t) z [⟨.DMA_LINK_STATUS, 0⟩] := by
    rw [hz]
    exact .of_eq rfl rfl hon
  obtain ⟨u, hu, hr⟩ := State.done_raisedIf (c := s.dma.below = false) (k := 14) (causes := 1) (info := 0) hzon rfl rfl
  have hfld : ∀ f i, z.fld f i = ((s.at t).linkShown gen width).fld f i := fun f i => by
    rw [hz]
    rfl
  refine ⟨u, ?_, by rw [hr.fld _ _ rfl, hfld, hg], by rw [hr.fld _ _ rfl, hfld, hw], ?_,
    fun hb hk => hr.status hb (State.raisable_hub rfl hk), fun hb => hr.quiet (by rw [hb]; decide), hr.only⟩
  · rw [exec, execLinkBelowBudget, State.whenHost_eq hup, State.linkTrained_eq, State.at_fld, State.at_fld, decide_eq_true h,
      Bool.true_and, State.at_dma, ← hz]
    rw [← hu]
    cases s.dma.below <;> rfl
  · rw [hr.raises.dma, hz]
    rfl

theorem linkBackToBudget_shows (t : Tu) (gen : Fin 6) (width : Fin 9) (hup : s.hostUp = true)
    (h1 : s.fld Fld.HUB_HOST_BUDGET_LINK_GEN 0 ≤ gen.val) (h2 : s.fld Fld.HUB_HOST_BUDGET_LINK_WIDTH 0 ≤ width.val) :
      ∃ u, exec (.linkBackToBudget t gen width) s = .next u ∧ u.fld Fld.DMA_LINK_STATUS_GEN 0 = gen ∧
        u.fld Fld.DMA_LINK_STATUS_WIDTH 0 = width ∧ u.dma.below = false ∧ onlyRegs s u [⟨.DMA_LINK_STATUS, 0⟩] := by
  obtain ⟨hg, hw, hon⟩ := linkTrained_shows gen width (s.at t)
  have hno : ¬ (gen.val < s.fld Fld.HUB_HOST_BUDGET_LINK_GEN 0 ∨ width.val < s.fld Fld.HUB_HOST_BUDGET_LINK_WIDTH 0) := by omega
  obtain ⟨z, hz⟩ : ∃ z, z = (s.at t).linkNoted gen width false := ⟨_, rfl⟩
  have hzon : onlyRegs (s.at t) z [⟨.DMA_LINK_STATUS, 0⟩] := by
    rw [hz]
    exact .of_eq rfl rfl hon
  obtain ⟨hd, ho⟩ := State.done_onlyRegs hzon rfl
  have hfld : ∀ f i, z.fld f i = ((s.at t).linkShown gen width).fld f i := fun f i => by
    rw [hz]
    rfl
  refine ⟨z, ?_, (hfld _ _).trans hg, (hfld _ _).trans hw, by rw [hz]; rfl, ho⟩
  rw [exec, execLinkBackToBudget, State.whenHost_eq hup, State.linkTrained_eq, State.at_fld, State.at_fld, decide_eq_false hno,
    Bool.false_and, ← hz]
  exact hd

theorem budgetIsWatched_holds : budgetIsWatched :=
  ⟨hostBudget_counts, fun _ t gen width hup => ⟨linkBelowBudget_shows t gen width hup, linkBackToBudget_shows t gen width hup⟩⟩

end Sys2Proof.Machine
end

section
/-! O45: errors and resets of the host link (Table HST-6, R357, R439). -/

namespace Sys2Proof.Machine

variable {s t u w : State} {but : List Reg} {q : Nat} {x : Tu}

/-! ### Masked vectors stay armed -/

/-- Where every vector is masked, none loses its arming. -/
structure ArmedKept (s t : State) : Prop where
  msix : t.evt.msix = s.evt.msix
  func : t.evt.funcMask = s.evt.funcMask
  armed : (∀ v, s.vecMasked v = true) → t.reg .EVT_VEC_ARMED_LO 0 = s.reg .EVT_VEC_ARMED_LO 0 ∧
    t.reg .EVT_VEC_ARMED_HI 0 = s.reg .EVT_VEC_ARMED_HI 0

theorem ArmedKept.refl (s : State) : ArmedKept s s := ⟨rfl, rfl, fun _ => ⟨rfl, rfl⟩⟩

theorem ArmedKept.masked (h : ArmedKept s t) (v : Nat) : t.vecMasked v = s.vecMasked v := by
  rw [State.vecMasked, State.vecMasked, State.msixWord, State.msixWord, h.msix, h.func]

theorem ArmedKept.trans (h : ArmedKept s t) (g : ArmedKept t u) : ArmedKept s u := by
  refine ⟨g.msix.trans h.msix, g.func.trans h.func, fun hm => ?_⟩
  obtain ⟨h1, h2⟩ := h.armed hm
  obtain ⟨g1, g2⟩ := g.armed fun v => (h.masked v).trans (hm v)
  exact ⟨g1.trans h1, g2.trans h2⟩

theorem ArmedKept.ite {c : Prop} [Decidable c] {a b : State} (ha : ArmedKept s a) (hb : ArmedKept s b) :
    ArmedKept s (if c then a else b) := by split <;> assumption

theorem ArmedKept.of_eq (hr : t.regs = s.regs) (he : t.evt.msix = s.evt.msix) (hf : t.evt.funcMask = s.evt.funcMask) :
    ArmedKept s t := ⟨he, hf, fun _ => ⟨by rw [State.reg, State.reg, hr], by rw [State.reg, State.reg, hr]⟩⟩

theorem ArmedKept.setReg (s : State) {n : RegName} (i : Nat) (v : Word)
    (hn : n ≠ .EVT_VEC_ARMED_LO ∧ n ≠ .EVT_VEC_ARMED_HI) : ArmedKept s (s.setReg n i v) :=
  ⟨rfl, rfl, fun _ => ⟨s.reg_setReg_ne _ _ _ _ _ (Ne.symm hn.1), s.reg_setReg_ne _ _ _ _ _ (Ne.symm hn.2)⟩⟩

theorem ArmedKept.setFld (s : State) {f : Fld} (i y : Nat)
    (hn : f.reg ≠ .EVT_VEC_ARMED_LO ∧ f.reg ≠ .EVT_VEC_ARMED_HI) : ArmedKept s (s.setFld f i y) := .setReg s i _ hn

theorem State.logAdd_armed (s : State) (a k d : Nat) (v : Word) : ArmedKept s (s.logAdd a k d v) := by
  unfold State.logAdd
  refine .ite ?_ (.setFld _ _ _ (by decide))
  exact .trans (t := { s with mgt := { s.mgt with
    sram := ⟨s.mgt.nextSeq + 1, s.frameNow, s.fld Fld.MGT_FW_STATUS_BOOT_COUNT 0, a, k, d, v, s.time⟩ :: s.mgt.sram,
    nextSeq := s.mgt.nextSeq + 1 } }) (.of_eq rfl rfl rfl) (.setFld _ _ _ (by decide))

theorem State.logRaise_armed (s : State) (n : Nat) (v : Word) : ArmedKept s (s.logRaise n v) := by
  have hlog : ∀ y : Tab Nat, ArmedKept s { s with mgt := { s.mgt with logged := y } } := fun y => .of_eq rfl rfl rfl
  unfold State.logRaise
  exact .ite (.ite ((hlog _).trans (State.logAdd_armed _ _ _ _ _)) (hlog _)) (.ite (.refl _) (.of_eq rfl rfl rfl))

/-- A masked vector becomes pending, and stays armed (R357). -/
theorem State.signal_armed (s : State) (v : Nat) : ArmedKept s (s.signal v) := by
  refine ⟨?_, ?_, fun hm => ?_⟩
  · unfold State.signal State.setArmed
    split_ifs <;> rfl
  · unfold State.signal State.setArmed
    split_ifs <;> rfl
  · unfold State.signal
    rw [hm v]
    split <;> exact ⟨rfl, rfl⟩

theorem State.deliver_armed (s : State) (n : Nat) : ArmedKept s (s.deliver n) := by
  have hpulse : ∀ (a : State) (i : Nat) (e : Tu), ArmedKept a (a.addPulse i e) := fun a i e => by
    unfold State.addPulse
    exact .ite (.of_eq rfl rfl rfl) (.setFld _ _ _ (by decide))
  have hsend : ∀ m, ArmedKept s (s.tlkSend m) := fun m => by
    unfold State.tlkSend
    exact .ite (.of_eq rfl rfl rfl) (.refl _)
  have hused : ArmedKept s s.used := .of_eq rfl rfl rfl
  have hstat : ∀ a : State, ArmedKept a (a.setStatus n false) := fun a => .setReg _ _ _ (by decide)
  unfold State.deliver
  exact .ite (s.signal_armed _) (.ite (.ite (((ArmedKept.ite (.refl _) (s.logRaise_armed _ _)).trans (hstat _)).trans
    (.setReg _ _ _ (by decide))) (.ite (.refl _) (.of_eq rfl rfl rfl))) (.ite (.ite (hused.trans (hpulse _ _ _)) (.refl _))
      (hsend _)))

theorem State.raise_armed (s : State) (n causes info : Nat) : ArmedKept s (s.raise n causes info) := by
  have hset : ∀ (a : State) {f : Fld} (v : Nat), f.reg = .EVT_DATA ∨ f.reg = .EVT_CNT → ArmedKept a (a.setFld f n v) :=
    fun a f v hf => .setFld _ _ _ (by rcases hf with h | h <;> rw [h] <;> decide)
  have hmark : ∀ (a : State) (y : Tab RaiseMark), ArmedKept a { a with evt := { a.evt with raises := y } } := fun a y =>
    .of_eq rfl rfl rfl
  have hlog : ∀ (a : State) (v : Word), ArmedKept a (if loggedSource n then a.logRaise n v else a) := fun a v =>
    .ite (a.logRaise_armed _ _) (.refl _)
  have hdel : ∀ (a : State) (c : Bool), ArmedKept a (if c then a.deliver n else a) := fun a c =>
    .ite (a.deliver_armed _) (.refl _)
  unfold State.raise
  dsimp only
  refine .ite (.refl _) ?_
  have h1 := (ArmedKept.setReg s (n := .EVT_STATUS) (n / 32) (putBits (s.reg .EVT_STATUS (n / 32)) (n % 32) 1 true.toNat)
    (by decide)).trans (hset _ (f := Fld.EVT_DATA_CAUSES) (s.fld Fld.EVT_DATA_CAUSES n ||| (causes % 2 ^ 16)) (.inl rfl))
  have h2 := h1.trans (ArmedKept.ite (c := s.fld Fld.EVT_DATA_CAUSES n = 0) (hset _ (f := Fld.EVT_DATA_INFO) info (.inl rfl))
    (.refl _))
  have h3 := fun (a : State) => hset a (f := Fld.EVT_CNT_COUNT)
    (min (a.fld Fld.EVT_CNT_COUNT n + 1) (2 ^ Fld.EVT_CNT_COUNT.width - 1)) (.inr rfl)
  exact (((h2.trans (h3 _)).trans (hmark _ _)).trans (hlog _ _)).trans (hdel _ _)

theorem State.mergeNote_armed : ∀ (n : Nat) (s0 s : State), ArmedKept s (State.mergeNote n s0 s)
  | 0, _, s => .refl s
  | n + 1, s0, s => by
    have hround : ArmedKept s (s.each 4 fun y i =>
        if s0.fld Fld.HUB_TRIG_OUT_MERGED_COUNT i = 0 ∧ s.fld Fld.HUB_TRIG_OUT_MERGED_COUNT i ≠ 0 then y.raise0 (260 + i)
        else y) := by
      unfold State.each
      exact foldl_rel_mem (R := ArmedKept) .refl (fun h g => h.trans g)
        (fun a i _ => .ite (a.raise_armed _ _ _) (.refl _)) s
    exact hround.trans (State.mergeNote_armed n s _)

theorem State.done_armed {s0 : State} (h : s0.done s = .next u) : ArmedKept s u := by
  obtain rfl : s0.logNoteDrop (s0.mergeNote 4 s) = u := Host.Outcome.next.inj h
  unfold State.logNoteDrop
  exact .ite ((State.mergeNote_armed 4 s0 s).trans (State.raise_armed _ _ _ _)) (State.mergeNote_armed 4 s0 s)

theorem State.noteBlocked_armed (s : State) : ArmedKept s s.noteBlocked := by
  have hmax : ∀ (a : State) n, ArmedKept a (a.stallMax n) := fun a n => by
    have h : ∀ y, ArmedKept a (a.setFld Fld.HUB_HOST_STALL_MAX_NS 0 y) := fun y => .setFld _ _ _ (by decide)
    exact .ite ((h _).trans (State.raise_armed _ _ _ _)) (h _)
  have hviol : ∀ (a : State) n, ArmedKept a (a.shareViol n) := fun a n => by
    rw [State.shareViol_eq]
    have h : ArmedKept a (a.bump Fld.HUB_HOST_STALL_VIOL_COUNT 0 n) := .setFld _ _ _ (by decide)
    exact .ite (h.trans (State.raise_armed _ _ _ _)) h
  have hst : ∀ (a : State) y, ArmedKept a (a.stalled y) := fun a y => by
    rw [State.stalled_eq]
    exact (ArmedKept.of_eq (s := a) (t := a.stallNoted y) rfl rfl rfl).trans ((hmax _ _).trans (hviol _ _))
  unfold State.noteBlocked
  split
  · exact .of_eq rfl rfl rfl
  · exact ArmedKept.trans (t := { s with dma := { s.dma with blocked := none } }) (.of_eq rfl rfl rfl) (hst _ _)
  · exact .refl s

/-! ### Reads that fail -/

/-- A queue in ERROR, before its event. -/
def State.erred (s : State) (q cause : Nat) : State :=
  ((s.setQState q 4).setFld Fld.DMA_Q_STATUS_CAUSE q cause).modQueue q fun x => { x with accepting := false }

theorem descFetch_fails (q : Fin 64) (hup : s.hostUp = true) (hk : s.qKind q = 7) (h1 : s.qState q = 1) :
    ∃ u, exec (.hostReadError x (.descFetch q)) s = .next u ∧ u.qState q = 4 ∧ u.fld Fld.DMA_Q_STATUS_CAUSE q = 2 ∧
        (s.fld Fld.EVT_ROUTE_KIND (304 + q) ≠ 1 → u.evtStatus (304 + q) = true) ∧
        onlyRaising s u [⟨.DMA_Q_STATUS, q⟩] [304 + q] := by
  have hf : ∀ q : Fin 64, followsRaise (304 + q) = false := by decide
  obtain ⟨z, hz⟩ : ∃ z, z = (s.at x).erred q 2 := ⟨_, rfl⟩
  have hon : onlyRegs (s.at x) z [⟨.DMA_Q_STATUS, q⟩] := by
    rw [hz]
    exact .modQueue (.setFld (.head _) (.setFld (.head _) (.refl _ _)))
  have hcause : z.fld Fld.DMA_Q_STATUS_CAUSE q = 2 := by
    rw [hz]
    exact State.fld_setFld_of_lt _ _ _ (by decide) (by decide)
  have hstate : z.qState q = 4 := by
    rw [hz]
    refine (show _ = (((s.at x).setQState q 4).setFld Fld.DMA_Q_STATUS_CAUSE q 2).fld Fld.DMA_Q_STATUS_STATE q from rfl).trans ?_
    rw [State.fld_setFld_apart _ _ _ _ _ _ (by decide)]
    exact State.fld_setFld_of_lt _ _ _ (by decide) (by decide)
  obtain ⟨u, hu, hr⟩ := State.done_raisedIf (c := True) (k := 304 + q) (causes := 2 ^ 5)
    (info := z.fld Fld.DMA_Q_STATUS_CAUSE q) hon rfl (hf q)
  rw [if_pos trivial] at hu
  refine ⟨u, ?_, (hr.fld _ _ rfl).trans hstate, (hr.fld _ _ rfl).trans hcause,
    fun h => hr.status trivial (s.raisable_queue q (by rw [hk]; decide) h), hr.only⟩
  have hex : exec (.hostReadError x (.descFetch q)) s =
      s.done (if (s.at x).qKind q = 7 ∧ (s.at x).qState q = 1 then (s.at x).qError q 2 else s.at x) := by
    rw [exec, execHostReadError]
    exact State.whenHost_eq hup
  rw [hex, if_pos ⟨(State.at_qKind s x q).trans hk, (State.at_qState s x q).trans h1⟩, ← hu, hz]
  rfl

theorem refetch_fails (q : Fin 64) {c : Circ} (hup : s.hostUp = true) (hc : (s.queue q).circ = some c) :
    ∃ u, exec (.hostReadError x (.refetch q)) s = .next u ∧ (u.queue q).circ = some c ∧
        ((s.queue q).quiet = 0 → s.qKind q ≠ 0 → s.fld Fld.EVT_ROUTE_KIND (304 + q) ≠ 1 →
          u.evtStatus (304 + q) = true) ∧ onlyRaising s u [] [304 + q] := by
  have hf : ∀ q : Fin 64, followsRaise (304 + q) = false := by decide
  have hq := State.queue_of_eq (State.at_dma s x) q
  have hdesc : hostDesc [⟨q, none⟩] q = none := by
    simp [hostDesc]
  have hex : exec (.hostReadError x (.refetch q)) s = s.done ((s.at x).refetch [⟨q, none⟩] q) := by
    rw [exec, execHostReadError]
    exact State.whenHost_eq hup
  rw [State.refetch, hq, hc] at hex
  dsimp only at hex
  rw [hdesc] at hex
  dsimp only at hex
  by_cases h0 : (s.queue q).quiet = 0
  · obtain ⟨z, hz⟩ : ∃ z, z = (s.at x).modQueue q fun x => { x with quiet := 64 } := ⟨_, rfl⟩
    rw [if_pos h0, ← hz] at hex
    have hon : onlyRegs (s.at x) z [] := by
      rw [hz]
      exact .modQueue (.refl _ _)
    obtain ⟨u, hu, hr⟩ := State.done_raisedIf (c := True) (k := 304 + q) (causes := 2 ^ 6)
      (info := z.fld Fld.DMA_Q_STATUS_CAUSE q) hon rfl (hf q)
    rw [if_pos trivial] at hu
    refine ⟨u, hex.trans hu, ?_, fun _ hk h => hr.status trivial (s.raisable_queue q hk h), hr.only⟩
    rw [State.queue_of_eq hr.raises.dma, hz, State.queue_modQueue, hq]
    exact hc
  · rw [if_neg h0] at hex
    obtain ⟨hd, hdma, hon⟩ := s.done_at x
    refine ⟨_, hex.trans hd, ?_, fun h => absurd h h0, ?_⟩
    · rw [hq]
      exact hc
    · exact .at (x := x) (.refl ..)

end Sys2Proof.Machine
end

section
/-! O45 settled: the host-link reset (Table HST-6, R357, R439). -/

namespace Sys2Proof.Machine

variable {s t u w : State} {but : List Reg} {q k : Nat} {x : Tu}

/-! ### Queues are cut -/

/-- What the cut of queues leaves: the image, and every register but those of queues and their events. -/
structure CutWork (s t : State) : Prop where
  pitch : t.pitch = s.pitch
  reg : ∀ n i, eventReg n = false → n ∉ [RegName.DMA_Q_LOST_LO, .DMA_Q_LOST_HI, .DMA_Q_STATUS, .DMA_Q_STAGED, .DMA_GLOBAL_STATUS] →
    t.reg n i = s.reg n i

theorem CutWork.refl (s : State) : CutWork s s := ⟨rfl, fun _ _ _ _ => rfl⟩

theorem CutWork.trans (h : CutWork s t) (g : CutWork t u) : CutWork s u :=
  ⟨g.pitch.trans h.pitch, fun n i he hn => (g.reg n i he hn).trans (h.reg n i he hn)⟩

/-- What the cut of one queue leaves: its state is OFF or ABSENT, and the states of the others are as they were. -/
theorem State.linkCut_reads (s : State) (q : Nat) : CutWork s (s.linkCut q) ∧ (∀ k, k ≠ q → (s.linkCut q).qState k = s.qState k) ∧
    (s.linkCut q).qState q = if s.qState q = 5 then 5 else 0 := by
  unfold State.linkCut
  split
  · next h =>
    refine ⟨.refl s, fun _ _ => rfl, ?_⟩
    rcases h with h | h
    · rw [h, if_neg (by decide)]
    · rw [h, if_pos rfl]
  · next h =>
    extract_lets y owed
    obtain ⟨a, ha⟩ : ∃ a, a = s.addLost q (owed + (y.xfers.map Xfer.len).sum) := ⟨_, rfl⟩
    obtain ⟨b, hb⟩ : ∃ b, b = a.qOff q := ⟨_, rfl⟩
    have hsa : onlyRegs s a [⟨.DMA_Q_LOST_LO, q⟩, ⟨.DMA_Q_LOST_HI, q⟩] := by
      rw [ha]
      exact .setPair (.head _) (.tail _ (.head _)) (.refl _ _)
    have hsb : onlyRegs s b (recordRegs q ++ offRegs q) := by
      rw [hb]
      exact (hsa.mono (by simp [recordRegs])).trans ((a.qOff_only q).mono (List.subset_append_right _ _))
    have hr : Raises b (b.qEvent q 4) [304 + q] := State.raise_raises _ _ _
    have hpitch : b.pitch = s.pitch := by
      rw [hb, ha]
      rfl
    rw [← ha, ← hb]
    refine ⟨⟨hr.pitch.trans hpitch, fun n i he hn => (hr.reg n i he).trans ?_⟩, fun k hk => ?_, ?_⟩
    · have hab : onlyRegs a b (offRegs q) := hb ▸ a.qOff_only q
      simp only [List.mem_cons, List.not_mem_nil, or_false, not_or] at hn
      obtain ⟨h1, h2, h3, h4, h5⟩ := hn
      exact (hab.1 n i (by simp [offRegs, h3, h4, h5])).trans (hsa.1 n i (by simp [h1, h2]))
    · rw [State.qState, State.qState, hr.fld _ _ rfl]
      exact State.fld_of_reg (hsb.1 _ _ (by simp [recordRegs, offRegs, hk]))
    · rw [State.qState, hr.fld _ _ rfl, if_neg fun h5 => h (.inr h5), hb]
      exact a.qOff_state q

/-- Every queue is cut. -/
theorem State.linkCuts_reads (s : State) : CutWork s (s.each 64 State.linkCut) ∧
    ∀ q, q < 64 → s.qState q ≠ 5 → (s.each 64 State.linkCut).qState q = 0 := by
  have key : ∀ (l : List Nat) (s : State), CutWork s (l.foldl State.linkCut s) ∧
      ∀ q, s.qState q ≠ 5 → (q ∈ l ∨ s.qState q = 0) → (l.foldl State.linkCut s).qState q = 0 := by
    intro l
    induction l with
    | nil => exact fun s => ⟨.refl s, fun q _ h => h.resolve_left (List.not_mem_nil)⟩
    | cons y l ih =>
      intro s
      obtain ⟨hw, ho, hy⟩ := s.linkCut_reads y
      obtain ⟨hw', hq'⟩ := ih (s.linkCut y)
      refine ⟨hw.trans hw', fun q h5 h => ?_⟩
      by_cases hqy : q = y
      · have h0 : (s.linkCut y).qState q = 0 := by
          rw [hqy, hy, if_neg (by rw [← hqy]; exact h5)]
        exact hq' q (by rw [h0]; decide) (.inr h0)
      · refine hq' q (by rw [ho q hqy]; exact h5) ?_
        rw [ho q hqy]
        rcases h with h | h
        · exact .inl ((List.mem_cons.1 h).resolve_left hqy)
        · exact .inr h
  obtain ⟨hw, hq⟩ := key (List.range 64) s
  exact ⟨hw, fun q hlt h5 => hq q h5 (.inl (List.mem_range.2 hlt))⟩

/-! ### Registers at their reset values -/

theorem State.reg_resetRegs (s : State) {ns : List RegName} {n : RegName} (i : Nat) (h : n ∈ ns) :
    (s.resetRegs ns fun _ => true).reg n i = (⟨n, i⟩ : Reg).resetVal := by
  unfold State.reg State.resetRegs
  dsimp only
  generalize s.regs = m
  induction m with
  | nil => rfl
  | cons e m ih =>
    obtain ⟨r, v⟩ := e
    rw [List.filter_cons]
    split
    · next hr =>
      rw [rget, if_neg, ih]
      rintro rfl
      simp [h] at hr
    · exact ih

/-! ### The reset -/

/-- The reset has been counted, and its cause shown. -/
def State.linkCounted (s : State) : State :=
  ((s.each 64 State.linkCut).bump Fld.DMA_LINK_RESET_CNT_COUNT 0 1).setFld Fld.HUB_RESET_CAUSE_PERST 0 1

/-- Every vector is armed. -/
def State.allArmed (s : State) : State :=
  (s.setReg .EVT_VEC_ARMED_LO 0 0xFFFFFFFF#32).setReg .EVT_VEC_ARMED_HI 0 0xFFFFFFFF#32

/-- The table of vectors and the records of the queues are at reset. -/
def State.linkFresh (s : State) : State :=
  { s with
    evt := { s.evt with msix := [], funcMask := false, pba := 0 },
    dma := { s.dma with below := false, inbound := [], queues := [] } }

/-- A note of the reset's kind is made. -/
def State.linkMarked (s : State) : State :=
  (s.used.logNote 5 (s.freeBelow 256) (BitVec.ofNat 32 (Config.freeNat (s.free + 1) % 2 ^ 32))).used

/-- What the reset of the link's registers leaves of `b`. -/
def State.linkOff (b : State) : State := ((b.pitchReset dmaResetNames fun _ => true).allArmed).linkFresh

theorem State.linkOff_reg (b : State) {n : RegName} (i : Nat) (h1 : n ≠ .EVT_VEC_ARMED_LO) (h2 : n ≠ .EVT_VEC_ARMED_HI) :
    b.linkOff.reg n i = (b.resetRegs dmaResetNames fun _ => true).reg n i := by
  refine (show _ = ((b.pitchReset dmaResetNames fun _ => true).allArmed).reg n i from rfl).trans ?_
  rw [State.allArmed, State.reg_setReg_ne _ _ _ _ _ _ h2, State.reg_setReg_ne _ _ _ _ _ _ h1]
  rfl

theorem State.linkOff_armed (b : State) :
    b.linkOff.reg .EVT_VEC_ARMED_LO 0 = 0xFFFFFFFF#32 ∧ b.linkOff.reg .EVT_VEC_ARMED_HI 0 = 0xFFFFFFFF#32 := by
  have h : ∀ n i, b.linkOff.reg n i = ((b.pitchReset dmaResetNames fun _ => true).allArmed).reg n i := fun _ _ => rfl
  rw [h, h, State.allArmed, State.reg_setReg_ne _ _ _ _ _ _ (by decide), State.reg_setReg_same, State.reg_setReg_same]
  exact ⟨rfl, rfl⟩

theorem State.linkOff_pitch (b : State) : b.linkOff.pitch = b.pitch := rfl

/-- The state before what the end of a stall adds. -/
def State.linkGone (s : State) : State := s.linkMarked.linkCounted.linkOff

theorem State.linkReset_eq (s : State) (k : LinkReset) : s.linkReset k =
    if k = .perst then (s.linkGone.noteBlocked).modPwr fun p => { p with perstLow := true } else s.linkGone.noteBlocked := by
  unfold State.linkReset State.linkGone State.linkCounted State.linkMarked
  obtain ⟨a, ha⟩ : ∃ a, a = s.used.logNote 5 (s.freeBelow 256) (BitVec.ofNat 32 (Config.freeNat (s.free + 1) % 2 ^ 32)) := ⟨_, rfl⟩
  rw [← ha]
  obtain ⟨b, hb⟩ : ∃ b, b = a.used.each 64 State.linkCut := ⟨_, rfl⟩
  dsimp only
  rw [← hb]
  rfl

theorem State.linkMarked_reads (s : State) : s.linkMarked.pitch = s.pitch ∧
    ∀ n i, eventReg n = false → s.linkMarked.reg n i = s.reg n i := by
  unfold State.linkMarked State.logNote State.logAdd
  split_ifs
  · exact ⟨rfl, fun n i he => State.reg_setFld_ne _ _ _ _ _ _ fun h => by rw [h] at he; cases he⟩
  · exact ⟨rfl, fun n i he => State.reg_setFld_ne _ _ _ _ _ _ fun h => by rw [h] at he; cases he⟩
  · exact ⟨rfl, fun _ _ _ => rfl⟩

theorem State.linkFresh_masked (s : State) (v : Nat) : s.linkFresh.vecMasked v = true := by
  have h : (4 * v + 3) % 4 = 3 := by omega
  have hw : s.linkFresh.msixWord (4 * v + 3) = 1#32 := by
    rw [State.msixWord, h, if_pos rfl]
    rfl
  rw [State.vecMasked, hw]
  exact Bool.or_true _

/-- What a host-link reset leaves, before what the end of a stall adds. -/
structure LinkGone (s t : State) : Prop where
  pitch : t.pitch = s.pitch
  scratch : t.reg .HUB_SCRATCH 0 = s.reg .HUB_SCRATCH 0
  cause : t.fld Fld.HUB_RESET_CAUSE_PERST 0 = 1
  count : s.fld Fld.DMA_LINK_RESET_CNT_COUNT 0 = 0 → t.fld Fld.DMA_LINK_RESET_CNT_COUNT 0 = 1
  off : ∀ q, q < 64 → s.qState q ≠ 5 → t.qState q = 0
  en : ∀ q, t.fld Fld.DMA_Q_CTRL_EN q = 0
  tail : ∀ q, t.reg .DMA_Q_TAIL q = 0
  armed : ∀ v, v < 64 → t.vecArmed v = true
  masked : ∀ v, t.vecMasked v = true

theorem State.linkGone_reads (s : State) : LinkGone s s.linkGone := by
  obtain ⟨hp, hr⟩ := s.linkMarked_reads
  obtain ⟨hcut, hoff⟩ := s.linkMarked.linkCuts_reads
  obtain ⟨a, ha⟩ : ∃ a, a = s.linkMarked.each 64 State.linkCut := ⟨_, rfl⟩
  rw [← ha] at hcut hoff
  obtain ⟨b, hb⟩ : ∃ b, b = (a.bump Fld.DMA_LINK_RESET_CNT_COUNT 0 1).setFld Fld.HUB_RESET_CAUSE_PERST 0 1 := ⟨_, rfl⟩
  have hbr : ∀ n i, n ≠ .HUB_RESET_CAUSE → n ≠ .DMA_LINK_RESET_CNT → b.reg n i = a.reg n i := fun n i h1 h2 => by
    rw [hb, State.reg_setFld_ne _ _ _ _ _ _ h1]
    exact State.reg_setFld_ne _ _ _ _ _ _ h2
  obtain ⟨c, hc⟩ : ∃ c, c = b.resetRegs dmaResetNames fun _ => true := ⟨_, rfl⟩
  have hg : s.linkGone = b.linkOff := by
    rw [State.linkGone, State.linkCounted, ← ha, ← hb]
  have hreg : ∀ n i, n ≠ .EVT_VEC_ARMED_LO → n ≠ .EVT_VEC_ARMED_HI → s.linkGone.reg n i = c.reg n i := fun n i h1 h2 => by
    rw [hg, hc]
    exact b.linkOff_reg i h1 h2
  have hkept : ∀ n i, n ∉ dmaResetNames → c.reg n i = b.reg n i := fun n i hn => by
    rw [hc]
    exact b.resetRegs_reg _ i hn
  have hcnt : a.fld Fld.DMA_LINK_RESET_CNT_COUNT 0 = s.fld Fld.DMA_LINK_RESET_CNT_COUNT 0 :=
    State.fld_of_reg ((hcut.reg _ _ rfl (by decide)).trans (hr _ _ rfl))
  refine ⟨?_, ?_, ?_, fun h0 => ?_, fun q hq h5 => ?_, fun q => ?_, fun q => ?_, fun v hv => ?_, fun v => ?_⟩
  · have hba : b.pitch = a.pitch := by
      rw [hb]
      rfl
    rw [hg, b.linkOff_pitch, hba, hcut.pitch, hp]
  · rw [hreg _ _ (by decide) (by decide), hkept _ _ (by decide), hbr _ _ (by decide) (by decide),
      hcut.reg _ _ rfl (by decide), hr _ _ rfl]
  · rw [State.fld_of_reg (hreg _ _ (by decide) (by decide)), State.fld_of_reg (hkept _ _ (by decide)), hb]
    exact State.fld_setFld_of_lt _ _ _ (by decide) (by decide)
  · rw [State.fld_of_reg (hreg _ _ (by decide) (by decide)), State.fld_of_reg (hkept _ _ (by decide)), hb,
      State.fld_setFld_ne _ _ _ _ _ _ (by decide), State.fld_bump _ _ _ _ (by decide), hcnt, h0]
    rfl
  · rw [State.qState, State.fld_of_reg (hreg _ _ (by decide) (by decide)), State.fld_of_reg (hkept _ _ (by decide)),
      State.fld_of_reg (hbr _ _ (by decide) (by decide))]
    exact hoff q hq fun h => h5 ((State.fld_of_reg (hr _ _ rfl)).symm.trans h)
  · rw [State.fld, hreg _ _ (by decide) (by decide), hc, State.reg_resetRegs _ _ (by decide)]
    exact show getBits (BitVec.ofNat 32 (fieldsReset (RegName.fields .DMA_Q_CTRL))) 0 1 = 0 by decide
  · rw [hreg _ _ (by decide) (by decide), hc, State.reg_resetRegs _ _ (by decide)]
    rfl
  · obtain ⟨hlo, hhi⟩ := b.linkOff_armed
    have hone : ∀ i, i < 32 → (0xFFFFFFFF#32).getLsbD i = true := by decide
    rw [hg, State.vecArmed, hlo, hhi]
    split
    · next h => exact hone v h
    · exact hone _ (by omega)
  · rw [hg]
    exact State.linkFresh_masked _ v

theorem State.noteBlocked_pitch (s : State) : s.noteBlocked.pitch = s.pitch := by
  have hmax : ∀ (a : State) n, (a.stallMax n).pitch = a.pitch := fun a n => by
    unfold State.stallMax
    dsimp only
    split
    · exact (State.raise_raises _ _ _).pitch
    · rfl
  have hviol : ∀ (a : State) n, (a.shareViol n).pitch = a.pitch := fun a n => by
    rw [State.shareViol_eq]
    split
    · exact (State.raise_raises _ _ _).pitch
    · rfl
  unfold State.noteBlocked
  split
  · rfl
  · rw [State.stalled_eq]
    exact (hviol _ _).trans (hmax _ _)
  · rfl

theorem hostLinkReset_resets (k : LinkReset) (hup : s.hostUp = true) (h0 : s.fld Fld.DMA_LINK_RESET_CNT_COUNT 0 = 0) :
      ∃ u, exec (.hostLinkReset x k) s = .next u ∧ u.fld Fld.HUB_RESET_CAUSE_PERST 0 = 1 ∧
        u.fld Fld.DMA_LINK_RESET_CNT_COUNT 0 = 1 ∧ (∀ q, q < 64 → u.fld Fld.DMA_Q_CTRL_EN q = 0 ∧ u.reg .DMA_Q_TAIL q = 0) ∧
        (∀ q, q < 64 → s.qState q ≠ 5 → u.qState q = 0) ∧ (∀ v, v < 64 → u.vecArmed v = true) ∧
        u.pitch = s.pitch ∧ u.reg .HUB_SCRATCH 0 = s.reg .HUB_SCRATCH 0 := by
  have hgone := (s.at x).linkGone_reads
  obtain ⟨a, ha⟩ : ∃ a, a = (s.at x).linkGone := ⟨_, rfl⟩
  rw [← ha] at hgone
  have hwork := a.noteBlocked_work
  have harm := a.noteBlocked_armed
  have hpit := a.noteBlocked_pitch
  obtain ⟨b, hb⟩ : ∃ b, b = a.noteBlocked := ⟨_, rfl⟩
  rw [← hb] at hwork harm hpit
  obtain ⟨c, hc⟩ : ∃ c, c = if k = .perst then b.modPwr fun p => { p with perstLow := true } else b := ⟨_, rfl⟩
  have hcr : c.regs = b.regs ∧ c.evt = b.evt ∧ c.pitch = b.pitch := by
    rw [hc]
    split <;> exact ⟨rfl, rfl, rfl⟩
  obtain ⟨hc1, hc2, hc3⟩ := hcr
  have hreg : ∀ n i, eventReg n = false → n ≠ .HUB_HOST_STALL_MAX → n ≠ .HUB_HOST_STALL_VIOL → c.reg n i = a.reg n i :=
    fun n i he h1 h2 => by
      rw [State.reg, hc1]
      exact hwork.only.1 n i (by simp [stallRegs, h1, h2]) he
  obtain ⟨u, hu, hr⟩ := s.done_notes c
  have hall : ArmedKept a u :=
    (harm.trans (.of_eq hc1 (by rw [hc2]) (by rw [hc2]))).trans (State.done_armed hu)
  have hfld : ∀ (f : Fld) i, eventReg f.reg = false → f.reg ≠ .HUB_HOST_STALL_MAX → f.reg ≠ .HUB_HOST_STALL_VIOL →
      u.fld f i = a.fld f i := fun f i he h1 h2 => (hr.fld _ _ he).trans (State.fld_of_reg (hreg _ _ he h1 h2))
  refine ⟨u, ?_, ?_, ?_, fun q _ => ⟨?_, ?_⟩, fun q hq h5 => ?_, fun v hv => ?_, ?_, ?_⟩
  · rw [exec, execHostLinkReset, State.whenHost_eq hup, State.linkReset_eq, ← ha, ← hb, ← hc]
    exact hu
  · rw [hfld _ _ rfl (by decide) (by decide), hgone.cause]
  · rw [hfld _ _ rfl (by decide) (by decide), hgone.count ((State.at_fld ..).trans h0)]
  · rw [hfld _ _ rfl (by decide) (by decide), hgone.en]
  · rw [hr.reg _ _ rfl, hreg _ _ rfl (by decide) (by decide), hgone.tail]
  · rw [State.qState, hfld _ _ rfl (by decide) (by decide)]
    exact hgone.off q hq (by rw [State.at_qState]; exact h5)
  · obtain ⟨h1, h2⟩ := hall.armed hgone.masked
    rw [State.vecArmed, h1, h2]
    exact hgone.armed v hv
  · rw [hr.pitch, hc3, hpit, hgone.pitch, State.at_pitch]
  · rw [hr.reg _ _ rfl, hreg _ _ rfl (by decide) (by decide), hgone.scratch, State.at_reg]

/-- Settles O45: a stall is read off the window that it breaks; after a reset of the link every vector is masked, so that no
event takes an arming back. -/
theorem hostLinkIsWatched : Obligations.HostLinkIsWatched := by
  unfold Obligations.HostLinkIsWatched
  exact ⟨budgetIsWatched_holds, fun _ _ hup => ⟨fun q hk h1 => descFetch_fails q hup hk h1,
    fun q c hc => refetch_fails q hup hc, fun k h0 => hostLinkReset_resets k hup h0⟩⟩

end Sys2Proof.Machine
end

section
/-! O41: Lantern's settings, display commands and buffers (R316, R319, R321, R323, R326). -/

namespace Sys2Proof.Machine

variable {s t u w y z : State} {but : List Reg} {x : Tu} {v : Word}

/-! ### RAS_TIMING_WRITE (R316) -/

theorem State.fPix_of (hr : ∀ f i, t.fld f i = s.fld f i) (hc : t.clk = s.clk) : t.fPix = s.fPix := by
  rw [State.fPix, State.fPix, hc, hr, hr]

/-- The rule of R316 depends on registers and on the multiplexer alone. -/
theorem State.writtenOk_of (hr : ∀ f i, t.fld f i = s.fld f i) (hc : t.clk = s.clk) : t.writtenOk = s.writtenOk := by
  simp only [State.writtenOk, State.fPix_of hr hc, hr]

/-- A write that the rule has yet to judge. -/
def State.timingWritten (s : State) (r : RasTiming) (v : Word) : State :=
  match r with
  | .dsiCfg => s.writeRW .RAS_DSI_CFG 0 v
  | _ => s.writeRasPending (rasTimingReg r) 0 v

theorem State.writeTiming_eq (s : State) (r : RasTiming) (v : Word) : s.writeTiming r v =
    if (s.timingWritten r v).writtenOk then
      if s.ras.dsiStopped then
        ((s.timingWritten r v).setFld Fld.RAS_STATUS_TIMING_ERR 0 0).modRas fun r => { r with dsiStopped := false }
      else s.timingWritten r v
    else s.setFld Fld.RAS_STATUS_TIMING_ERR 0 1 := by
  cases r <;> rfl

/-- What such a write leaves. -/
theorem State.timingWritten_reads (s : State) (r : RasTiming) (v : Word) :
    (s.timingWritten r v).regs = (s.writeRW (rasTimingReg r) 0 v).regs ∧ (s.timingWritten r v).mem = s.mem ∧
      (s.timingWritten r v).clk = s.clk ∧ (s.timingWritten r v).ras.now = s.ras.now ∧
      (s.timingWritten r v).ras.pend = if r = .dsiCfg then s.ras.pend else some s.time := by
  cases r <;> exact ⟨rfl, rfl, rfl, rfl, rfl⟩

theorem State.timingWritten_ok (s : State) (x : Tu) (r : RasTiming) (v : Word) :
    ((s.at x).timingWritten r v).writtenOk = (s.writeRW (rasTimingReg r) 0 v).writtenOk := by
  obtain ⟨hr, -, hc, -, -⟩ := (s.at x).timingWritten_reads r v
  refine State.writtenOk_of (fun f i => State.fld_of_reg ?_) (hc.trans (State.at_clk s x))
  rw [State.reg, hr]
  simp only [State.writeRW, State.setReg, State.reg, State.at_regs]

theorem rasTimingWrite_stores (r : RasTiming) (hup : s.hostUp = true) (h : (s.writeRW (rasTimingReg r) 0 v).writtenOk = true) :
      ∃ u, exec (.rasTimingWrite x r v) s = .next u ∧
        u.reg (rasTimingReg r) 0 = (s.writeRW (rasTimingReg r) 0 v).reg (rasTimingReg r) 0 ∧ u.ras.now = s.ras.now ∧
        (r ≠ .dsiCfg → u.ras.pend = some (s.at x).time) ∧ (r = .dsiCfg → u.ras.pend = s.ras.pend) ∧
        (s.ras.dsiStopped = true → u.fld Fld.RAS_STATUS_TIMING_ERR 0 = 0) ∧
        onlyRegs s u [⟨rasTimingReg r, 0⟩, ⟨.RAS_STATUS, 0⟩] := by
  obtain ⟨hr, hm, -, hnow, hpend⟩ := (s.at x).timingWritten_reads r v
  have hok := s.timingWritten_ok x r v
  obtain ⟨y, hy⟩ : ∃ y, y = (s.at x).timingWritten r v := ⟨_, rfl⟩
  rw [← hy] at hr hm hnow hpend hok
  have hyreg : ∀ n i, y.reg n i = (s.writeRW (rasTimingReg r) 0 v).reg n i := fun n i => by
    rw [State.reg, hr]
    simp only [State.writeRW, State.setReg, State.reg, State.at_regs]
  have hne : rasTimingReg r ≠ .RAS_STATUS ∧ noEventReg [⟨rasTimingReg r, 0⟩, ⟨.RAS_STATUS, 0⟩] = true := by
    cases r <;> exact ⟨by decide, rfl⟩
  have hyon : onlyRegs (s.at x) y [⟨rasTimingReg r, 0⟩, ⟨.RAS_STATUS, 0⟩] :=
    .of_eq hr hm (((s.at x).writeRW_regs (rasTimingReg r) 0 v).mono (by simp))
  obtain ⟨z, hz⟩ : ∃ z, z = if s.ras.dsiStopped then
    (y.setFld Fld.RAS_STATUS_TIMING_ERR 0 0).modRas fun r => { r with dsiStopped := false } else y := ⟨_, rfl⟩
  have hzon : onlyRegs (s.at x) z [⟨rasTimingReg r, 0⟩, ⟨.RAS_STATUS, 0⟩] := by
    rw [hz]
    exact .ite (.of_eq rfl rfl (.setFld (f := Fld.RAS_STATUS_TIMING_ERR) (i := 0) (x := 0) (.tail _ (.head _)) hyon)) hyon
  have hzreg : z.reg (rasTimingReg r) 0 = y.reg (rasTimingReg r) 0 := by
    rw [hz]
    split
    · exact State.reg_setFld_ne _ _ _ _ _ _ hne.1
    · rfl
  have hzras : z.ras.now = y.ras.now ∧ z.ras.pend = y.ras.pend := by
    rw [hz]
    split <;> exact ⟨rfl, rfl⟩
  obtain ⟨hd, ho⟩ := State.done_onlyRegs hzon hne.2
  refine ⟨z, ?_, hzreg.trans (hyreg _ _), ?_, fun hr => ?_, fun hr => ?_, fun hs => ?_, ho⟩
  · rw [exec, execRasTimingWrite, State.whenHost_eq hup, State.writeTiming_eq, ← hy, hok, if_pos h, State.at_ras, ← hz]
    exact hd
  · rw [hzras.1, hnow, State.at_ras]
  · rw [hzras.2, hpend, if_neg hr]
  · rw [hzras.2, hpend, if_pos hr, State.at_ras]
  · rw [hz, if_pos hs]
    exact State.fld_setFld_of_lt _ _ _ (by decide) (by decide)

theorem rasTimingWrite_refused (r : RasTiming) (hup : s.hostUp = true) (h : (s.writeRW (rasTimingReg r) 0 v).writtenOk = false) :
      ∃ u, exec (.rasTimingWrite x r v) s = .next u ∧ u.fld Fld.RAS_STATUS_TIMING_ERR 0 = 1 ∧ u.ras = s.ras ∧
        onlyRegs s u [⟨.RAS_STATUS, 0⟩] := by
  obtain ⟨hd, ho⟩ := State.done_onlyRegs (s := s) (x := x) (but := [⟨.RAS_STATUS, 0⟩]) (onlyRegs.setFld (f := Fld.RAS_STATUS_TIMING_ERR) (i := 0) (x := 1)
    (.head _) (.refl (s.at x) _)) rfl
  refine ⟨_, ?_, State.fld_setFld_of_lt _ _ _ (by decide) (by decide), State.at_ras s x, ho⟩
  rw [exec, execRasTimingWrite, State.whenHost_eq hup, State.writeTiming_eq, s.timingWritten_ok x r v, h,
    if_neg Bool.false_ne_true]
  exact hd

/-! ### Display commands (R319) -/

theorem dsiCmdSend_sends (hup : s.hostUp = true) (hc : s.ras.dsiCmd = none) (h7 : v.getLsbD 7 = true)
    (h26 : s.gateOpen 26 = true) (h27 : s.gateOpen 27 = true) (hst : s.standby = false) :
      ∃ u, exec (.dsiCmdSend x v) s = .next u ∧ u.ras.dsiCmd = some (v.getLsbD 6) ∧
        u.out = .dsi (getBits v 0 6) (((List.range 4).flatMap fun k =>
          leBytes 4 (s.reg .RAS_DSI_PAYLOAD k).toNat).take (getBits v 8 5)) :: s.out ∧
        onlyRegs s u [⟨.RAS_DSI_CMD, 0⟩] := by
  obtain ⟨z, hz⟩ : ∃ z, z = (((s.at x).writeRW .RAS_DSI_CMD 0 v).emit (.dsi (getBits v 0 6) (((List.range 4).flatMap fun k =>
    leBytes 4 (s.reg .RAS_DSI_PAYLOAD k).toNat).take (getBits v 8 5)))).modRas fun r => { r with dsiCmd := some (v.getLsbD 6) } :=
    ⟨_, rfl⟩
  have hzon : onlyRegs (s.at x) z [⟨.RAS_DSI_CMD, 0⟩] := by
    rw [hz]
    exact .of_eq rfl rfl ((s.at x).writeRW_regs .RAS_DSI_CMD 0 v)
  obtain ⟨hd, ho⟩ := State.done_onlyRegs hzon rfl
  refine ⟨z, ?_, by rw [hz]; rfl, ?_, ho⟩
  · rw [exec, execDsiCmdSend, State.whenHost_eq hup, State.dsiSend]
    simp only [State.at_ras, hc, h7, State.at_gateOpen, h26, h27, State.at_standby, hst, Option.isNone_none, Bool.and_self,
      Bool.not_false, if_true, State.at_reg]
    rw [← hz]
    exact hd
  · rw [hz]
    exact congrArg (List.cons _) (State.at_out s x)

theorem dsiCmdSend_waits (hup : s.hostUp = true) (hc : s.ras.dsiCmd.isSome = true) :
      ∃ u, exec (.dsiCmdSend x v) s = .next u ∧ u.ras.dsiCmd = s.ras.dsiCmd ∧ u.out = s.out ∧
        onlyRegs s u [⟨.RAS_DSI_CMD, 0⟩] := by
  obtain ⟨hd, ho⟩ := State.done_onlyRegs ((s.at x).writeRW_regs .RAS_DSI_CMD 0 v) rfl
  refine ⟨(s.at x).writeRW .RAS_DSI_CMD 0 v, ?_, congrArg Ras.dsiCmd (State.at_ras s x), State.at_out s x, ho⟩
  have hno : s.ras.dsiCmd.isNone = false := by
    rw [Option.isSome_iff_exists] at hc
    obtain ⟨a, ha⟩ := hc
    rw [ha]
    rfl
  rw [exec, execDsiCmdSend, State.whenHost_eq hup, State.dsiSend]
  simp only [State.at_ras, hno, Bool.and_false, Bool.false_and, Bool.false_eq_true, if_false]
  exact hd

/-- The display command under way has ended. -/
def State.dsiEnded (s : State) : State := s.modRas fun r => { r with dsiCmd := none }

theorem State.dsiEnded_only (s : State) : onlyRegs s s.dsiEnded [⟨.RAS_DSI_RESP, 0⟩] := .of_eq rfl rfl (.refl s _)

theorem dsiCmdDone_ok {rd : Bool} (d : BitVec 16) (ha : s.alive = true) (hc : s.ras.dsiCmd = some rd) :
    ∃ u, exec (.dsiCmdDone x (.ok d)) s = .next u ∧ u.ras.dsiCmd = none ∧
        u.fld Fld.RAS_DSI_RESP_DONE 0 = 1 ∧ (rd = true → u.fld Fld.RAS_DSI_RESP_DATA 0 = d.toNat) ∧
        onlyRegs s u [⟨.RAS_DSI_RESP, 0⟩] := by
  obtain ⟨y, hy⟩ : ∃ y, y = (s.at x).dsiEnded.setFld Fld.RAS_DSI_RESP_DONE 0 1 := ⟨_, rfl⟩
  have hyon : onlyRegs (s.at x) y [⟨.RAS_DSI_RESP, 0⟩] := by
    rw [hy]
    exact .setFld (.head _) (s.at x).dsiEnded_only
  have hydone : y.fld Fld.RAS_DSI_RESP_DONE 0 = 1 := by
    rw [hy]
    exact State.fld_setFld_of_lt _ _ _ (by decide) (by decide)
  have hycmd : y.ras.dsiCmd = none := by
    rw [hy]
    rfl
  have hex : exec (.dsiCmdDone x (.ok d)) s = s.done (if rd then y.setFld Fld.RAS_DSI_RESP_DATA 0 d.toNat else y) := by
    rw [exec, execDsiCmdDone, State.when_eq ha, State.at_ras, hc, hy]
    rfl
  cases rd with
  | true =>
    obtain ⟨hd, ho⟩ := State.done_onlyRegs (onlyRegs.setFld (f := Fld.RAS_DSI_RESP_DATA) (i := 0) (x := d.toNat) (.head _) hyon) rfl
    exact ⟨_, hex.trans hd, hycmd, (State.fld_setFld_apart _ _ _ _ _ _ (by decide)).trans hydone,
      fun _ => State.fld_setFld_of_lt _ _ _ (by decide) d.isLt, ho⟩
  | false =>
    obtain ⟨hd, ho⟩ := State.done_onlyRegs hyon rfl
    exact ⟨_, hex.trans hd, hycmd, hydone, fun h => (Bool.noConfusion h), ho⟩

/-- A failed display command shows ERR and raises EV409 with its cause. -/
theorem dsiCmd_fails {c : Nat} (hc : c = 1 ∨ c = 2) :
    ∃ u, s.done (((s.at x).dsiEnded.setFld Fld.RAS_DSI_RESP_ERR 0 1).raise 409 c 0) = .next u ∧ u.ras.dsiCmd = none ∧
        u.fld Fld.RAS_DSI_RESP_ERR 0 = 1 ∧
        (s.fld Fld.EVT_ROUTE_KIND 409 ≠ 1 → u.evtStatus 409 = true ∧ (u.fld Fld.EVT_DATA_CAUSES 409).testBit (c - 1) = true) ∧
        onlyRaising s u [⟨.RAS_DSI_RESP, 0⟩] [409] := by
  obtain ⟨y, hy⟩ : ∃ y, y = (s.at x).dsiEnded.setFld Fld.RAS_DSI_RESP_ERR 0 1 := ⟨_, rfl⟩
  have hyon : onlyRegs (s.at x) y [⟨.RAS_DSI_RESP, 0⟩] := by
    rw [hy]
    exact .setFld (.head _) (s.at x).dsiEnded_only
  have hyerr : y.fld Fld.RAS_DSI_RESP_ERR 0 = 1 := by
    rw [hy]
    exact State.fld_setFld_of_lt _ _ _ (by decide) (by decide)
  have hycmd : y.ras.dsiCmd = none := by
    rw [hy]
    rfl
  rw [← hy]
  have hr1 : Raises y (y.raise 409 c 0) [409] := State.raise_raises 409 c 0
  obtain ⟨u, hu, hr⟩ := s.done_notes (y.raise 409 c 0)
  have hroute : s.fld Fld.EVT_ROUTE_KIND 409 ≠ 1 → y.fld Fld.EVT_ROUTE_KIND 409 ≠ 1 := fun h => by
    rw [State.fld_of_reg (hyon.1 _ _ (by simp)), State.at_fld]
    exact h
  refine ⟨u, hu, ?_, (hr.fld _ _ rfl).trans ((hr1.fld _ _ rfl).trans hyerr), fun hk => ⟨?_, ?_⟩, ?_⟩
  · rw [hr.ras, hr1.ras, hycmd]
  · rw [hr.evtStatus (by decide)]
    exact State.raise_hubSource c 0 rfl (hroute hk)
  · have hsame := hr.src 409 (by decide)
    rw [State.fld_of_reg hsame.2.1, State.raise_causes_hub c 0 rfl (hroute hk), Nat.testBit_or]
    rcases hc with rfl | rfl
    · have hbit : (1 % 2 ^ 16).testBit (1 - 1) = true := rfl
      rw [hbit, Bool.or_true]
    · have hbit : (2 % 2 ^ 16).testBit (2 - 1) = true := rfl
      rw [hbit, Bool.or_true]
  · exact .at (x := x) ((onlyRaising.step hyon (fun _ h => h) rfl (.refl ..)).trans
      ((onlyRaising.raise (by simp) (.refl ..)).trans hr.onlyNotes))

theorem dsiCmdDone_noAck {rd : Bool} (ha : s.alive = true) (hc : s.ras.dsiCmd = some rd) :
    exec (.dsiCmdDone x .noAck) s = s.done (((s.at x).dsiEnded.setFld Fld.RAS_DSI_RESP_ERR 0 1).raise 409 1 0) := by
  rw [exec, execDsiCmdDone, State.when_eq ha, State.at_ras, hc]
  rfl

theorem dsiCmdDone_noAnswer (ha : s.alive = true) (hc : s.ras.dsiCmd = some true) :
    exec (.dsiCmdDone x .noAnswer) s = s.done (((s.at x).dsiEnded.setFld Fld.RAS_DSI_RESP_ERR 0 1).raise 409 2 0) := by
  rw [exec, execDsiCmdDone, State.when_eq ha, State.at_ras, hc]
  rfl

end Sys2Proof.Machine
end

section
/-! O41: host-frame pictures, layers that run dry, released buffers (R321, R323, R326). -/

namespace Sys2Proof.Machine

variable {s t u w y z : State} {x : Tu}

/-! ### RAS_HFO_DONE (R321) -/

/-- The lines of a host-frame picture leave in their order. -/
theorem foldl_hostWrite_out (lines : List (Nat × List Byte)) (s : State) :
    (lines.foldl (fun s l => s.emit (.hostWrite l.1 l.2 false)) s).out =
      (lines.map fun l => Out.hostWrite l.1 l.2 false).reverse ++ s.out := by
  induction lines generalizing s with
  | nil => rfl
  | cons l ls ih =>
    rw [List.foldl_cons, ih, List.map_cons, List.reverse_cons, List.append_assoc]
    rfl

theorem rasHfoDone_shows {i : Nat} {lines : List (Nat × List Byte)} (hup : s.hostUp = true)
    (hb : s.ras.hfoBusy = some (i, lines)) :
    ∃ u xs, exec (.rasHfoDone x) s = .next u ∧ u.ras.hfoBusy = none ∧ u.fld Fld.RAS_HFO_STATUS_LAST 0 = i % 4 ∧
      u.out = xs ++ ((lines.map fun l => Out.hostWrite l.1 l.2 false).reverse ++ s.out) ∧
      (s.fld Fld.EVT_ROUTE_KIND 407 ≠ 1 → u.evtStatus 407 = true) ∧ onlyRaising s u [⟨.RAS_HFO_STATUS, 0⟩] [407] := by
  obtain ⟨y, hy⟩ : ∃ y, y = lines.foldl (fun s l => s.emit (.hostWrite l.1 l.2 false)) (s.at x) := ⟨_, rfl⟩
  have hyout : y.out = (lines.map fun l => Out.hostWrite l.1 l.2 false).reverse ++ s.out := by
    rw [hy, foldl_hostWrite_out, State.at_out]
  have hyon : onlyRegs (s.at x) y [⟨.RAS_HFO_STATUS, 0⟩] := by
    rw [hy]
    exact onlyRegs.foldl lines (fun _ _ _ h => .emit h) (.refl _ _)
  obtain ⟨z, hz⟩ : ∃ z, z = (y.setFld Fld.RAS_HFO_STATUS_LAST 0 i).modRas fun r => { r with hfoBusy := none } := ⟨_, rfl⟩
  have hzon : onlyRegs (s.at x) z [⟨.RAS_HFO_STATUS, 0⟩] := by
    rw [hz]
    exact .of_eq rfl rfl (.setFld (f := Fld.RAS_HFO_STATUS_LAST) (.head _) hyon)
  obtain ⟨u, hu, hr⟩ := State.done_raisedIf (c := True) (k := 407) (causes := 1) (info := 0) hzon rfl rfl
  rw [if_pos trivial] at hu
  have hex : exec (.rasHfoDone x) s = s.done (z.raise 407 1 0) := by
    rw [exec, execRasHfoDone, State.whenHost_eq hup, State.at_ras, hb, hz, hy]
    rfl
  obtain ⟨xs, hxs⟩ := ((z.raise_appends 407 1 0).trans (State.done_appends hu)).out
  refine ⟨u, xs, hex.trans hu, ?_, ?_, ?_, fun hk => hr.status trivial (State.raisable_hub rfl hk), hr.only⟩
  · rw [hr.raises.ras, hz]
    rfl
  · rw [hr.fld _ _ rfl, hz]
    exact State.fld_setFld_eq _ _ _ _ (by decide)
  · rw [← hxs, hz, ← hyout]
    rfl

/-! ### RAS_UNDERRUN (R323) -/

theorem rasUnderrun_counts (n : Fin 8) (ha : s.alive = true) (hst : s.fld Fld.RAS_STATUS_STATE 0 = 1)
    (hp : (s.at x).inPicture = true) (hl : s.layerOn n = true) (hc : s.fld Fld.RAS_UNDERRUN_COUNT n < 2 ^ 32 - 1) :
    ∃ u, exec (.rasUnderrun x n) s = .next u ∧ u.fld Fld.RAS_UNDERRUN_COUNT n = s.fld Fld.RAS_UNDERRUN_COUNT n + 1 ∧
      u.fld Fld.RAS_LAYER_STATUS_ACTIVE n = 0 ∧ u.layerOn n = false ∧ u.ras.underrun = true ∧
      (s.fld Fld.EVT_ROUTE_KIND 404 ≠ 1 → u.evtStatus 404 = true) ∧
      onlyRaising s u [⟨.RAS_UNDERRUN, n⟩, ⟨.RAS_LAYER_STATUS, n⟩] [404] := by
  obtain ⟨y, hy⟩ : ∃ y, y = ((s.at x).modRas fun r => { r with dry := n.val :: r.dry, underrun := true }) := ⟨_, rfl⟩
  have hyon : onlyRegs (s.at x) y [⟨.RAS_UNDERRUN, n⟩, ⟨.RAS_LAYER_STATUS, n⟩] := by
    rw [hy]
    exact .of_eq rfl rfl (.refl (s.at x) _)
  have hyfld : ∀ f i, y.fld f i = s.fld f i := fun f i => by
    rw [hy]
    exact State.at_fld s x f i
  obtain ⟨z, hz⟩ : ∃ z, z = (y.bump Fld.RAS_UNDERRUN_COUNT n 1).setFld Fld.RAS_LAYER_STATUS_ACTIVE n 0 := ⟨_, rfl⟩
  have hzras : z.ras = y.ras := by
    rw [hz]
    rfl
  have hzon : onlyRegs (s.at x) z [⟨.RAS_UNDERRUN, n⟩, ⟨.RAS_LAYER_STATUS, n⟩] := by
    rw [hz]
    exact .setFld (f := Fld.RAS_LAYER_STATUS_ACTIVE) (.tail _ (.head _))
      (.setFld (f := Fld.RAS_UNDERRUN_COUNT) (.head _) hyon)
  obtain ⟨u, hu, hr⟩ := State.done_raisedIf (c := True) (k := 404) (causes := 1) (info := n) hzon rfl rfl
  rw [if_pos trivial] at hu
  have hlayer : (s.at x).layerOn n = true := by
    have hr : ∀ f i, (s.at x).rasFld f i = s.rasFld f i := fun f i => by rw [State.rasFld, State.rasFld, State.at_ras]
    rw [← hl]
    simp only [State.layerOn, State.layerNoSrc, State.hasPlane, State.at_fld, State.at_ras, hr]
  have hex : exec (.rasUnderrun x n) s = s.done (z.raise 404 1 n) := by
    rw [exec, execRasUnderrun, State.when_eq ha, State.layerDry, State.at_fld, if_pos ⟨hst, hp, hlayer⟩, hz, hy]
  have huras : u.ras = y.ras := hr.raises.ras.trans hzras
  refine ⟨u, hex.trans hu, ?_, ?_, ?_, ?_, fun hk => hr.status trivial (State.raisable_hub rfl hk), hr.only⟩
  · rw [hr.fld _ _ rfl, hz, State.fld_setFld_ne _ _ _ _ _ _ (by decide), State.fld_bump _ _ _ _ (by decide), hyfld]
    have hw : Fld.RAS_UNDERRUN_COUNT.width = 32 := rfl
    rw [hw]
    omega
  · rw [hr.fld _ _ rfl, hz]
    exact State.fld_setFld_of_lt _ _ _ (by decide) (by decide)
  · have hdry : u.ras.dry.contains n.val = true := by
      rw [huras, hy]
      simp [State.modRas]
    rw [State.layerOn, hdry, Bool.not_true, Bool.and_false]
  · rw [huras, hy]
    rfl

/-! ### RAS_BUF_REL (R326) -/

/-- A release that changes no buffer answers with its code. -/
theorem bufCode_shown {code : Nat} (hcode : code < 4) :
    s.done ((s.at x).setFld Fld.RAS_BUF_REL_RESULT_CODE 0 code) = .next ((s.at x).setFld Fld.RAS_BUF_REL_RESULT_CODE 0 code) ∧
      ((s.at x).setFld Fld.RAS_BUF_REL_RESULT_CODE 0 code).fld Fld.RAS_BUF_REL_RESULT_CODE 0 = code ∧
      onlyRegs s ((s.at x).setFld Fld.RAS_BUF_REL_RESULT_CODE 0 code) [⟨.RAS_BUF_REL_RESULT, 0⟩] := by
  obtain ⟨hd, ho⟩ := State.done_onlyRegs (s := s) (x := x) (but := [⟨.RAS_BUF_REL_RESULT, 0⟩])
    (onlyRegs.setFld (f := Fld.RAS_BUF_REL_RESULT_CODE) (i := 0) (x := code) (.head _) (.refl (s.at x) _)) rfl
  exact ⟨hd, State.fld_setFld_of_lt _ _ _ (by decide) hcode, ho⟩

/-- A release that a buffer takes shows the buffer's new state. -/
theorem bufState_shown {b v code : Nat} (hv : v < 4) (hcode : code < 4) :
    ∃ u, s.done (((s.at x).setFld Fld.RAS_BUF_STATUS_STATE b v).setFld Fld.RAS_BUF_REL_RESULT_CODE 0 code) = .next u ∧
      u.fld Fld.RAS_BUF_STATUS_STATE b = v ∧ u.fld Fld.RAS_BUF_REL_RESULT_CODE 0 = code ∧
      onlyRegs s u [⟨.RAS_BUF_REL_RESULT, 0⟩, ⟨.RAS_BUF_STATUS, b⟩] := by
  obtain ⟨hd, ho⟩ := State.done_onlyRegs (s := s) (x := x) (but := [⟨.RAS_BUF_REL_RESULT, 0⟩, ⟨.RAS_BUF_STATUS, b⟩])
    (onlyRegs.setFld (f := Fld.RAS_BUF_REL_RESULT_CODE) (i := 0) (x := code) (.head _)
      (.setFld (f := Fld.RAS_BUF_STATUS_STATE) (i := b) (x := v) (.tail _ (.head _)) (.refl (s.at x) _))) rfl
  exact ⟨_, hd, (State.fld_setFld_ne _ _ _ _ _ _ (by decide)).trans (State.fld_setFld_of_lt _ _ _ (by decide) hv),
    State.fld_setFld_of_lt _ _ _ (by decide) hcode, ho⟩

theorem State.bufNamed_at (b : Nat) : (s.at x).bufNamed b = s.bufNamed b := by
  have hr : ∀ f i, (s.at x).rasFld f i = s.rasFld f i := fun f i => by rw [State.rasFld, State.rasFld, State.at_ras]
  simp only [State.bufNamed, State.at_fld, hr, State.at_ras]

section
variable {b : Fin 16} (hup : s.hostUp = true)
include hup

theorem rasBufRel_eq : exec (.rasBufRel x b) s = s.done ((s.at x).bufRelease b) := by
  rw [exec, execRasBufRel, State.whenHost_eq hup]

theorem rasBufRel_free (h0 : s.fld Fld.RAS_BUF_STATUS_STATE b = 0) : ∃ u, exec (.rasBufRel x b) s = .next u ∧
    u.fld Fld.RAS_BUF_REL_RESULT_CODE 0 = 3 ∧ onlyRegs s u [⟨.RAS_BUF_REL_RESULT, 0⟩] := by
  obtain ⟨hd, hc, ho⟩ := bufCode_shown (s := s) (x := x) (code := 3) (by decide)
  refine ⟨_, ?_, hc, ho⟩
  rw [rasBufRel_eq hup, State.bufRelease, State.at_fld, if_pos h0]
  exact hd

variable (h0 : s.fld Fld.RAS_BUF_STATUS_STATE b ≠ 0)
include h0

theorem rasBufRel_named (hn : s.bufNamed b = true) : ∃ u, exec (.rasBufRel x b) s = .next u ∧
    u.fld Fld.RAS_BUF_REL_RESULT_CODE 0 = 2 ∧ onlyRegs s u [⟨.RAS_BUF_REL_RESULT, 0⟩] := by
  obtain ⟨hd, hc, ho⟩ := bufCode_shown (s := s) (x := x) (code := 2) (by decide)
  refine ⟨_, ?_, hc, ho⟩
  rw [rasBufRel_eq hup, State.bufRelease, State.at_fld, if_neg h0, State.bufNamed_at b, if_pos hn]
  exact hd

variable (hn : s.bufNamed b = false)
include hn

theorem rasBufRel_read (hst : s.fld Fld.RAS_STATUS_STATE 0 ≠ 0) (hr : s.ras.reading.contains b.val = true) :
    ∃ u, exec (.rasBufRel x b) s = .next u ∧ u.fld Fld.RAS_BUF_STATUS_STATE b = 2 ∧
      u.fld Fld.RAS_BUF_REL_RESULT_CODE 0 = 1 ∧ onlyRegs s u [⟨.RAS_BUF_REL_RESULT, 0⟩, ⟨.RAS_BUF_STATUS, b⟩] := by
  obtain ⟨u, hd, hw⟩ := bufState_shown (s := s) (x := x) (b := b) (v := 2) (code := 1) (by decide) (by decide)
  refine ⟨u, ?_, hw⟩
  rw [rasBufRel_eq hup, State.bufRelease, State.at_fld, if_neg h0, State.bufNamed_at b, hn, if_neg Bool.false_ne_true,
    State.at_fld, State.at_ras, if_pos ⟨hst, hr⟩]
  exact hd

theorem rasBufRel_unread (h : s.fld Fld.RAS_STATUS_STATE 0 = 0 ∨ s.ras.reading.contains b.val = false) :
    ∃ u, exec (.rasBufRel x b) s = .next u ∧ u.fld Fld.RAS_BUF_STATUS_STATE b = 0 ∧
      u.fld Fld.RAS_BUF_REL_RESULT_CODE 0 = 0 ∧ onlyRegs s u [⟨.RAS_BUF_REL_RESULT, 0⟩, ⟨.RAS_BUF_STATUS, b⟩] := by
  obtain ⟨u, hd, hw⟩ := bufState_shown (s := s) (x := x) (b := b) (v := 0) (code := 0) (by decide) (by decide)
  refine ⟨u, ?_, hw⟩
  rw [rasBufRel_eq hup, State.bufRelease, State.at_fld, if_neg h0, State.bufNamed_at b, hn, if_neg Bool.false_ne_true,
    State.at_fld, State.at_ras, if_neg fun hh => ?_]
  · exact hd
  · obtain ⟨hne, hr⟩ := hh
    exact h.elim hne fun hf => Bool.false_ne_true (hf.symm.trans hr)

end

theorem lantern_timingIsChecked : timingIsChecked := fun _ _ r _ hup =>
  ⟨fun h => rasTimingWrite_stores r hup h, fun h => rasTimingWrite_refused r hup h⟩

theorem lantern_dsiCommandsRun : dsiCommandsRun := fun s t =>
  ⟨fun _ hup hc h7 h26 h27 hst => dsiCmdSend_sends hup hc h7 h26 h27 hst, fun _ hup hc => dsiCmdSend_waits hup hc,
    fun rd ha hc => ⟨fun d => dsiCmdDone_ok d ha hc, by
      obtain ⟨u, hu, h⟩ := dsiCmd_fails (s := s) (x := t) (c := 1) (.inl rfl)
      exact ⟨u, (dsiCmdDone_noAck ha hc).trans hu, h⟩, fun hrd => by
      obtain ⟨u, hu, h⟩ := dsiCmd_fails (s := s) (x := t) (c := 2) (.inr rfl)
      exact ⟨u, (dsiCmdDone_noAnswer ha (hrd ▸ hc)).trans hu, h⟩⟩⟩

theorem lantern_buffersAreUsed : buffersAreUsed := fun _ _ =>
  ⟨fun _ _ hup hb => rasHfoDone_shows hup hb, fun n ha hst hp hl hc => rasUnderrun_counts n ha hst hp hl hc,
    fun _ hup => ⟨rasBufRel_free hup, rasBufRel_named hup, rasBufRel_read hup, rasBufRel_unread hup⟩⟩

/-- Settles O41: the three groups of commands, each by its cases. -/
theorem lanternIsOperated : Obligations.LanternIsOperated :=
  ⟨lantern_timingIsChecked, lantern_dsiCommandsRun, lantern_buffersAreUsed⟩

end Sys2Proof.Machine
end

section
/-! O40: a picture is completed (R312 to R314, R321, R324, R325, R327). -/

namespace Sys2Proof.Machine

variable {s t u w : State} {but : List Reg} {srcs : List Nat} {x : Tu}

/-! ### What the steps of a picture keep -/

/-- From `s` to `t` only the registers and sources named, the outputs, and Lantern's own state changed. -/
structure PicWork (but : List Reg) (srcs : List Nat) (s t : State) : Prop where
  only : onlyRaising s t but srcs
  planes : t.planes = s.planes
  bins : t.bins = s.bins
  time : t.time = s.time
  now : t.frameNow = s.frameNow

theorem PicWork.refl (s : State) : PicWork but srcs s s := ⟨.refl s but srcs, rfl, rfl, rfl, rfl⟩

theorem PicWork.trans (h : PicWork but srcs s t) (g : PicWork but srcs t u) : PicWork but srcs s u :=
  ⟨h.only.trans g.only, g.planes.trans h.planes, g.bins.trans h.bins, g.time.trans h.time, g.now.trans h.now⟩

theorem PicWork.mono {but' : List Reg} {srcs' : List Nat} (h : PicWork but srcs s t) (hb : but ⊆ but') (hs : srcs ⊆ srcs') :
    PicWork but' srcs' s t := ⟨h.only.mono hb hs, h.planes, h.bins, h.time, h.now⟩

theorem PicWork.ite {c : Prop} [Decidable c] {a b : State} (ha : PicWork but srcs s a) (hb : PicWork but srcs s b) :
    PicWork but srcs s (if c then a else b) := by split <;> assumption

theorem PicWork.setReg {n : RegName} {i : Nat} {v : Word} (hn : ⟨n, i⟩ ∈ but) (he : eventReg n = false)
    (h : PicWork but srcs s t) : PicWork but srcs s (t.setReg n i v) :=
  ⟨.setReg hn he h.only, h.planes, h.bins, h.time, h.now⟩

theorem PicWork.setFld {f : Fld} {i v : Nat} (hn : ⟨f.reg, i⟩ ∈ but) (he : eventReg f.reg = false)
    (h : PicWork but srcs s t) : PicWork but srcs s (t.setFld f i v) := .setReg hn he h

theorem PicWork.modRas {f : Ras → Ras} (h : PicWork but srcs s t) : PicWork but srcs s (t.modRas f) :=
  ⟨.of_eq rfl rfl h.only, h.planes, h.bins, h.time, h.now⟩

theorem PicWork.emit {o : Out} (h : PicWork but srcs s t) : PicWork but srcs s (t.emit o) :=
  ⟨.of_eq rfl rfl h.only, h.planes, h.bins, h.time, h.now⟩

theorem Raises.pic {ns : List Nat} (h : Raises s t ns) (hn : ∀ k ∈ ns, k ∈ srcs ∨ followsRaise k = true) :
    PicWork but srcs s t := by
  refine ⟨h.only hn, ?_, ?_, h.time, ?_⟩ <;>
  · obtain ⟨_, _, _, _, _, _, _, _, _, _, _, rfl⟩ := h.rest
    rfl

theorem PicWork.raise {k causes info : Nat} (hk : k ∈ srcs) (h : PicWork but srcs s t) :
    PicWork but srcs s (t.raise k causes info) :=
  h.trans ((State.raise_raises k causes info).pic fun _ hj => .inl (List.mem_singleton.1 hj ▸ hk))

theorem PicWork.foldl {α : Type} {f : State → α → State} {l : List α} (hf : ∀ a, ∀ y ∈ l, PicWork but srcs a (f a y))
    (s : State) : PicWork but srcs s (l.foldl f s) :=
  foldl_rel_mem (R := PicWork but srcs) .refl .trans hf s

/-- The names of the registers of a picture. -/
def pictureNames : List RegName :=
  [.RAS_PIC_FRAME_LO, .RAS_PIC_FRAME_HI, .RAS_PIC_INFO, .RAS_STATUS, .RAS_HFO_DROP, .RAS_CRC_VAL, .RAS_CRC_FAIL,
    .RAS_LAYER_STATUS, .RAS_BUF_STATUS]

theorem pictureRegs_names : ∀ r ∈ pictureRegs, r.n ∈ pictureNames := by decide

/-- A register of another name is none of a picture's. -/
theorem onlyRaising.ofName (h : onlyRaising s t but srcs) (hb : but ⊆ pictureRegs) {n : RegName}
    (hn : n ∉ pictureNames) (he : eventReg n = false) (i : Nat) : t.reg n i = s.reg n i :=
  h.1 n i (fun hm => hn (pictureRegs_names _ (hb hm))) he

theorem onlyRaising.fldOf (h : onlyRaising s t but srcs) (hb : but ⊆ pictureRegs) {f : Fld}
    (hn : f.reg ∉ pictureNames) (he : eventReg f.reg = false) (i : Nat) : t.fld f i = s.fld f i :=
  State.fld_of_reg (h.ofName hb hn he i)

theorem onlyRaising.flagOf (h : onlyRaising s t but srcs) (hb : but ⊆ pictureRegs) {f : Fld}
    (hn : f.reg ∉ pictureNames) (he : eventReg f.reg = false) (i : Nat) : t.flag f i = s.flag f i :=
  State.flag_of_reg (h.ofName hb hn he i)

/-! ### The picture that the state shows -/

/-- What a picture is made of is the same in both states. -/
structure SamePicture (s t : State) : Prop where
  only : onlyRaising s t pictureRegs [400, 401, 405, 406, 408]
  planes : t.planes = s.planes
  bins : t.bins = s.bins
  ras : t.ras = s.ras

section
variable (h : SamePicture s t)
include h

theorem SamePicture.rasFld (f : Fld) (i : Nat) : t.rasFld f i = s.rasFld f i := by
  rw [State.rasFld, State.rasFld, h.ras]

theorem SamePicture.fld {f : Fld} (hn : f.reg ∉ pictureNames) (he : eventReg f.reg = false) (i : Nat) :
    t.fld f i = s.fld f i := h.only.fldOf (fun _ h => h) hn he i

theorem SamePicture.shownCount (q b w : Nat) : t.shownCount q b w = s.shownCount q b w := by
  simp only [State.shownCount, State.bin, h.planes, h.bins, h.ras]

theorem SamePicture.yBins (q : Nat) : t.yBins q = s.yBins q := by
  rw [State.yBins, State.yBins, h.fld (by decide) rfl]

theorem SamePicture.xBins (q : Nat) : t.xBins q = s.xBins q := by
  rw [State.xBins, State.xBins, h.fld (by decide) rfl, h.yBins]

theorem SamePicture.layerPixel (p : Picture) (n px py : Nat) : t.layerPixel p n px py = s.layerPixel p n px py := by
  have hk := h.fld (f := Fld.RAS_LAYER_SRC_KIND) (by decide) rfl n
  have hu := h.fld (f := Fld.RAS_LAYER_SRC_UNIT) (by decide) rfl n
  have hw := h.fld (f := Fld.RAS_BUF_GEOM_W) (by decide) rfl
  have hh := h.fld (f := Fld.RAS_BUF_GEOM_H) (by decide) rfl
  have hf : ∀ i, t.flag Fld.RAS_BUF_PITCH_FMT i = s.flag Fld.RAS_BUF_PITCH_FMT i :=
    h.only.flagOf (fun _ h => h) (by decide) rfl
  unfold State.layerPixel
  simp only [h.rasFld, hk, hu, hw, hh, hf, h.shownCount, h.xBins, h.yBins, h.ras]

theorem SamePicture.rectOf (p : Picture) (layers : List Nat) (x0 y0 x1 y1 : Nat) :
    t.rectOf p layers x0 y0 x1 y1 = s.rectOf p layers x0 y0 x1 y1 := by
  simp only [State.rectOf, State.pixelOf, h.rasFld, h.layerPixel]

theorem SamePicture.layersOf (o : Nat) : t.layersOf o = s.layersOf o := by
  have hz := h.fld (f := Fld.RAS_LAYER_SRC_Z) (by decide) rfl
  have hk := h.fld (f := Fld.RAS_LAYER_SRC_KIND) (by decide) rfl
  have hu := h.fld (f := Fld.RAS_LAYER_SRC_UNIT) (by decide) rfl
  have ho := h.fld (f := Fld.RAS_LAYER_SRC_OUTPUTS) (by decide) rfl
  have hc := h.fld (f := Fld.ACC_PLANE_SRC_CH) (by decide) rfl
  simp only [State.layersOf, State.layerNoSrc, State.hasPlane, hz, hk, hu, ho, hc, h.rasFld]

end

theorem State.at_samePicture (s : State) (x : Tu) : SamePicture s (s.at x) :=
  ⟨.of_eq (State.at_regs s x) (State.at_mem s x) (.refl s _ _), State.at_planes s x, State.at_bins s x, State.at_ras s x⟩

/-- A step that leaves what a picture is made of. -/
structure RectWork (s t : State) : Prop where
  work : PicWork pictureRegs [400, 401, 405, 406, 408] s t
  ras : t.ras = s.ras

theorem RectWork.refl (s : State) : RectWork s s := ⟨.refl s, rfl⟩

theorem RectWork.trans (h : RectWork s t) (g : RectWork t u) : RectWork s u := ⟨h.work.trans g.work, g.ras.trans h.ras⟩

theorem RectWork.same (h : RectWork s t) : SamePicture s t := ⟨h.work.only, h.work.planes, h.work.bins, h.ras⟩

/-! ### Rectangle CRCs (R325) -/

/-- The CRC of rectangle `r` of the DSI picture. -/
def State.rectCrc (s : State) (p : Picture) (layers : List Nat) (r : Nat) : Word :=
  crc32 (rgbBytes (s.rectOf p layers (s.fld Fld.RAS_CRC_TL_X0 r) (s.fld Fld.RAS_CRC_TL_Y0 r)
    (s.fld Fld.RAS_CRC_BR_X1 r) (s.fld Fld.RAS_CRC_BR_Y1 r)))

/-- What `rasRects` does for one rectangle. -/
def State.rasRect (p : Picture) (layers : List Nat) (s : State) (r : Nat) : State :=
  if s.flag Fld.RAS_CRC_CFG_EN r then
    if s.flag Fld.RAS_CRC_CFG_COMPARE r && !s.ras.underrun && s.rectCrc p layers r != s.reg .RAS_CRC_EXP r then
      ((s.setReg .RAS_CRC_VAL r (s.rectCrc p layers r)).bump Fld.RAS_CRC_FAIL_COUNT r 1).raise0 406
    else s.setReg .RAS_CRC_VAL r (s.rectCrc p layers r)
  else s

theorem State.rasRects_eq (s : State) (p : Picture) :
    s.rasRects p = (List.range 8).foldl (State.rasRect p (s.layersOf 0)) s := rfl

theorem mem_pictureRegs_crc {r : Nat} (hr : r < 8) :
    (⟨.RAS_CRC_VAL, r⟩ : Reg) ∈ pictureRegs ∧ (⟨.RAS_CRC_FAIL, r⟩ : Reg) ∈ pictureRegs ∧
      (⟨.RAS_LAYER_STATUS, r⟩ : Reg) ∈ pictureRegs := by
  have hall : ∀ r : Fin 8, (⟨.RAS_CRC_VAL, r⟩ : Reg) ∈ pictureRegs ∧ (⟨.RAS_CRC_FAIL, r⟩ : Reg) ∈ pictureRegs ∧
      (⟨.RAS_LAYER_STATUS, r⟩ : Reg) ∈ pictureRegs := by decide
  exact hall ⟨r, hr⟩

theorem State.rasRect_work (s : State) (p : Picture) (layers : List Nat) {r : Nat} (hr : r < 8) :
    RectWork s (s.rasRect p layers r) := by
  obtain ⟨hval, hfail, -⟩ := mem_pictureRegs_crc hr
  have h1 : PicWork pictureRegs [400, 401, 405, 406, 408] s (s.setReg .RAS_CRC_VAL r (s.rectCrc p layers r)) :=
    .setReg hval rfl (.refl s)
  unfold State.rasRect
  split
  · split
    · exact ⟨.raise (by simp) (.setFld (f := Fld.RAS_CRC_FAIL_COUNT) hfail rfl h1),
        (State.raise_raises (s := (s.setReg .RAS_CRC_VAL r (s.rectCrc p layers r)).bump Fld.RAS_CRC_FAIL_COUNT r 1) 406 1 0).ras⟩
    · exact ⟨h1, rfl⟩
  · exact .refl s

theorem State.rasRect_val (s : State) (p : Picture) (layers : List Nat) {r : Nat} (he : s.flag Fld.RAS_CRC_CFG_EN r = true) :
    (s.rasRect p layers r).reg .RAS_CRC_VAL r = s.rectCrc p layers r := by
  unfold State.rasRect
  rw [if_pos he]
  split
  · exact ((State.raise_raises 406 1 0).reg _ _ rfl).trans
      ((State.reg_setFld_ne _ _ _ _ _ _ (by decide)).trans (State.reg_setReg_same _ _ _ _))
  · exact State.reg_setReg_same _ _ _ _

theorem State.rasRect_other (s : State) (p : Picture) (layers : List Nat) {r j : Nat} (hj : j ≠ r) :
    (s.rasRect p layers j).reg .RAS_CRC_VAL r = s.reg .RAS_CRC_VAL r := by
  unfold State.rasRect
  have h1 : ∀ v, (s.setReg .RAS_CRC_VAL j v).reg .RAS_CRC_VAL r = s.reg .RAS_CRC_VAL r := fun v =>
    State.reg_setReg_other _ _ _ _ fun hh => hj hh.2.symm
  split
  · split
    · exact ((State.raise_raises 406 1 0).reg _ _ rfl).trans ((State.reg_setFld_ne _ _ _ _ _ _ (by decide)).trans (h1 _))
    · exact h1 _
  · rfl

theorem State.rasRects_work (s : State) (p : Picture) : RectWork s (s.rasRects p) := by
  rw [State.rasRects_eq]
  exact foldl_rel_mem (R := RectWork) .refl .trans
    (fun a r hr => State.rasRect_work a p _ (List.mem_range.1 hr)) s

theorem State.rasRects_val (s : State) (p : Picture) {r : Nat} (hr : r < 8) (he : s.flag Fld.RAS_CRC_CFG_EN r = true) :
    (s.rasRects p).reg .RAS_CRC_VAL r = s.rectCrc p (s.layersOf 0) r := by
  rw [State.rasRects_eq]
  obtain ⟨a, ⟨hrect, -⟩, -, hval⟩ := foldl_between_mem (x := r) (l := List.range 8)
    (R := fun a b => RectWork a b ∧ b.reg .RAS_CRC_VAL r = a.reg .RAS_CRC_VAL r)
    (f := State.rasRect p (s.layersOf 0)) (fun a => ⟨.refl a, rfl⟩) (fun h g => ⟨h.1.trans g.1, g.2.trans h.2⟩)
    (fun a j hj hne => ⟨State.rasRect_work a p _ (List.mem_range.1 hj), State.rasRect_other a p _ hne⟩) s
    List.nodup_range (List.mem_range.2 hr)
  have hsame := hrect.same
  have hea : a.flag Fld.RAS_CRC_CFG_EN r = true :=
    (hrect.work.only.flagOf (fun _ h => h) (by decide) rfl r).trans he
  rw [hval, State.rasRect_val a p _ hea]
  simp only [State.rectCrc, hsame.rectOf, hsame.fld (f := Fld.RAS_CRC_TL_X0) (by decide) rfl,
    hsame.fld (f := Fld.RAS_CRC_TL_Y0) (by decide) rfl, hsame.fld (f := Fld.RAS_CRC_BR_X1) (by decide) rfl,
    hsame.fld (f := Fld.RAS_CRC_BR_Y1) (by decide) rfl]

/-! ### The outputs and the record of a picture (R321, R324, R327) -/

/-- The settings of Lantern that a vertical blank reads. -/
structure SettingsKept (s t : State) : Prop where
  now : t.ras.now = s.ras.now
  lut : t.ras.lut = s.ras.lut
  lutNow : t.ras.lutNow = s.ras.lutNow
  pend : t.ras.pend = s.ras.pend

theorem SettingsKept.trans (h : SettingsKept s t) (g : SettingsKept t u) : SettingsKept s u :=
  ⟨g.now.trans h.now, g.lut.trans h.lut, g.lutNow.trans h.lutNow, g.pend.trans h.pend⟩

theorem SettingsKept.of_ras (h : t.ras = s.ras) : SettingsKept s t := by constructor <;> rw [h]

/-- The number and the flags of the picture under way. -/
structure MarksKept (s t : State) : Prop where
  seq : t.ras.seq = s.ras.seq
  underrun : t.ras.underrun = s.ras.underrun
  abandoned : t.ras.abandoned = s.ras.abandoned

theorem MarksKept.trans (h : MarksKept s t) (g : MarksKept t u) : MarksKept s u :=
  ⟨g.seq.trans h.seq, g.underrun.trans h.underrun, g.abandoned.trans h.abandoned⟩

theorem MarksKept.of_ras (h : t.ras = s.ras) : MarksKept s t := by constructor <;> rw [h]

/-- The registers that sending a picture may change, and the record's. -/
def outRegs : List Reg := [⟨.RAS_HFO_DROP, 0⟩]
def picRecordRegs : List Reg := [⟨.RAS_PIC_INFO, 0⟩]

/-- A step of the outputs. -/
structure OutputWork (s t : State) : Prop where
  work : PicWork outRegs [408] s t
  settings : SettingsKept s t
  marks : MarksKept s t

theorem OutputWork.of_ras (h : PicWork outRegs [408] s t) (hr : t.ras = s.ras) : OutputWork s t := ⟨h, .of_ras hr, .of_ras hr⟩

theorem OutputWork.trans (h : OutputWork s t) (g : OutputWork t u) : OutputWork s u :=
  ⟨h.work.trans g.work, h.settings.trans g.settings, h.marks.trans g.marks⟩

theorem OutputWork.refl (s : State) : OutputWork s s := .of_ras (.refl s) rfl

theorem State.hfoStart_work (s : State) (xs : List Rgb) : OutputWork s (s.hfoStart xs) := by
  unfold State.hfoStart
  split
  · exact .of_ras (.raise (by simp) (.setFld (f := Fld.RAS_HFO_DROP_COUNT) (.head _) rfl (.refl s)))
      (State.raise_raises (s := s.bump Fld.RAS_HFO_DROP_COUNT 0 1) 408 1 0).ras
  · exact ⟨.modRas (.refl s), ⟨rfl, rfl, rfl, rfl⟩, ⟨rfl, rfl, rfl⟩⟩

theorem State.dsiFrame_work (s : State) (xs : List Rgb) : OutputWork s (s.dsiFrame xs) :=
  foldl_rel_mem (R := OutputWork) .refl .trans (fun a _ _ => .of_ras (.emit (.refl a)) rfl) s

theorem OutputWork.dsiIf {c : Bool} {xs : List Rgb} (h : OutputWork s t) :
    OutputWork s (if c then t.dsiFrame xs else t) := by
  split
  · exact h.trans (t.dsiFrame_work xs)
  · exact h

theorem OutputWork.hfoIf {c : Bool} {xs : List Rgb} (h : OutputWork s t) :
    OutputWork s (if c then t.hfoStart xs else t) := by
  split
  · exact h.trans (t.hfoStart_work xs)
  · exact h

theorem State.rasOutputs_work (s : State) (p : Picture) : OutputWork s (s.rasOutputs p).1 := by
  unfold State.rasOutputs
  dsimp only
  have hmod : ∀ c d m n, OutputWork s (s.modRas fun r => { r with crcDsi := c, crcHfo := d, staticDsi := m, staticHfo := n }) :=
    fun _ _ _ _ => ⟨.modRas (.refl s), ⟨rfl, rfl, rfl, rfl⟩, ⟨rfl, rfl, rfl⟩⟩
  exact .hfoIf (.dsiIf (hmod _ _ _ _))

/-- The record of a picture. -/
theorem State.rasRecord_shows (s : State) (skipped : Bool) :
    PicWork picRecordRegs [] s (s.rasRecord skipped) ∧ SettingsKept s (s.rasRecord skipped) ∧
      (s.rasRecord skipped).fld Fld.RAS_PIC_INFO_SEQ 0 = s.ras.seq % 2 ^ 24 ∧
      (s.rasRecord skipped).ras.seq = (s.ras.seq + 1) % 2 ^ 24 ∧
      ((s.rasRecord skipped).fld Fld.RAS_PIC_INFO_FLAGS 0).testBit 0 = s.ras.underrun ∧
      ((s.rasRecord skipped).fld Fld.RAS_PIC_INFO_FLAGS 0).testBit 2 = s.ras.abandoned ∧
      (s.rasRecord skipped).ras.underrun = false ∧ (s.rasRecord skipped).ras.abandoned = false := by
  have hflags : (s.rasRecord skipped).fld Fld.RAS_PIC_INFO_FLAGS 0 =
      s.ras.underrun.toNat + 2 * skipped.toNat + 4 * s.ras.abandoned.toNat := by
    refine State.fld_setFld_of_lt _ _ _ (by decide) ?_
    cases s.ras.underrun <;> cases skipped <;> cases s.ras.abandoned <;> decide
  refine ⟨.modRas (.setFld (.head _) rfl (.setFld (.head _) rfl (.refl s))), ⟨rfl, rfl, rfl, rfl⟩, ?_, rfl, ?_, ?_, rfl, rfl⟩
  · exact (State.fld_setFld_apart _ _ _ _ _ _ (by decide)).trans (State.fld_setFld_eq _ _ _ _ (by decide))
  · rw [hflags]
    cases s.ras.underrun <;> cases skipped <;> cases s.ras.abandoned <;> rfl
  · rw [hflags]
    cases s.ras.underrun <;> cases skipped <;> cases s.ras.abandoned <;> rfl

end Sys2Proof.Machine
end

section
/-! O40: vertical blanks, restarts and edges of TE_IN (R317, R318, R320, R326). -/

namespace Sys2Proof.Machine

variable {s t u w : State} {but : List Reg} {srcs : List Nat} {x : Tu}

/-! ### The parts of a vertical blank -/

/-- The registers that a vertical blank may change. -/
def blankRegs : List Reg :=
  [⟨.RAS_PIC_FRAME_LO, 0⟩, ⟨.RAS_PIC_FRAME_HI, 0⟩, ⟨.RAS_STATUS, 0⟩] ++ ((List.range 8).map fun n => ⟨.RAS_LAYER_STATUS, n⟩) ++
    (List.range 16).map fun b => ⟨.RAS_BUF_STATUS, b⟩

theorem blankRegs_picture : blankRegs ⊆ pictureRegs := by decide

abbrev BlankWork (s t : State) : Prop := PicWork blankRegs [400, 401, 405] s t

/-- The number of the frame is recorded, and RAS_CTRL takes effect. -/
def State.blankStart (s : State) : State :=
  ((s.setFrame .RAS_PIC_FRAME_LO .RAS_PIC_FRAME_HI 0 s.frameNow).raise0 400).modRas fun r =>
    { r with now := rput r.now ⟨.RAS_CTRL, 0⟩ (s.reg .RAS_CTRL 0) }

/-- The layers' status for the frame that begins. -/
def State.showLayer (s : State) (n : Nat) : State :=
  (s.setFld Fld.RAS_LAYER_STATUS_ACTIVE n (s.layerOn n).toNat).setFld Fld.RAS_LAYER_STATUS_NOSRC n (s.layerNoSrc n).toNat

/-- Scanning stops. -/
def State.scanStops (s : State) : State :=
  (s.setFld Fld.RAS_STATUS_STATE 0 0).modRas fun r => { r with frame := false, teWait := false, reading := [], dry := [] }

/-- The next frame follows. -/
def State.scanGoesOn (s : State) (x : Tu) (bins : Tab Nat) : State :=
  (s.setFld Fld.RAS_STATUS_STATE 0 1).modRas fun r =>
    { r with frame := !s.flag Fld.RAS_CTRL_TE_MODE 0, teWait := s.flag Fld.RAS_CTRL_TE_MODE 0, dry := [], vbAt := x,
             binsAt := bins,
             reading := ((List.range 8).filter fun n =>
               s.fld Fld.RAS_LAYER_SRC_KIND n == 2 && s.rasFld Fld.RAS_LAYER_CFG_EN n != 0).map fun n =>
                 s.rasFld Fld.RAS_LAYER_BUF_BUF n }

/-- The state once the pending set has committed and the deferred buffers are free. -/
def State.blankDone (s : State) : State := s.blankStart.rasCommit.freeDeferred

theorem State.rasBlank_eq (s : State) : s.rasBlank =
    if s.blankDone.rasFld Fld.RAS_CTRL_EN 0 = 0 then s.blankDone.scanStops
    else (List.range 8).foldl State.showLayer (s.blankDone.scanGoesOn s.time s.bins) := rfl

theorem State.blankStart_work (s : State) : BlankWork s s.blankStart := by
  have h1 : BlankWork s (s.setFrame .RAS_PIC_FRAME_LO .RAS_PIC_FRAME_HI 0 s.frameNow) :=
    .setReg (by decide) rfl (.setReg (by decide) rfl (.refl s))
  exact .modRas (.raise (by simp) h1)

theorem State.blankStart_ras (s : State) :
    s.blankStart.ras = { s.ras with now := rput s.ras.now ⟨.RAS_CTRL, 0⟩ (s.reg .RAS_CTRL 0) } := by
  have h := (State.raise_raises (s := s.setFrame .RAS_PIC_FRAME_LO .RAS_PIC_FRAME_HI 0 s.frameNow) 400 1 0).ras
  rw [State.blankStart, State.modRas, State.raise0, h]
  rfl

/-- A blank that commits. -/
def State.commits (s : State) : Bool :=
  match s.ras.pend with
  | none => false
  | some t0 => !(s.flag Fld.RAS_CTRL_HOLD 0 || !tuLe (tuAdd t0 (ns 1000)) s.time)

/-- The pending set in force, and the sign of no commit. -/
def State.committed (s : State) : State :=
  s.modRas fun r =>
    { r with now := (r.now.filter fun e => e.1.n == .RAS_CTRL) ++ s.regs.filter (fun e => rasPending.contains e.1.n),
             lutNow := r.lut, pend := none, fresh := true, namedNow := r.named }
def State.uncommitted (s : State) : State := s.modRas fun r => { r with fresh := false }

theorem State.rasCommit_eq (s : State) : s.rasCommit = if s.commits then s.committed.raise0 401 else s.uncommitted := by
  unfold State.rasCommit State.commits
  cases s.ras.pend with
  | none => rfl
  | some t0 =>
    dsimp only
    by_cases hc : (s.flag Fld.RAS_CTRL_HOLD 0 || !tuLe (tuAdd t0 (ns 1000)) s.time) = true
    · rw [if_pos hc, if_neg (by rw [hc]; decide)]
      rfl
    · rw [if_neg hc, if_pos (by rw [Bool.eq_false_iff.2 hc]; rfl)]
      rfl

theorem State.rasCommit_work (s : State) : PicWork [] [401] s s.rasCommit := by
  rw [State.rasCommit_eq]
  exact .ite (.raise (by simp) (.modRas (.refl s))) (.modRas (.refl s))

theorem State.rasCommit_ras (s : State) :
    s.rasCommit.ras = if s.commits then s.committed.ras else s.uncommitted.ras := by
  rw [State.rasCommit_eq]
  split
  · exact (State.raise_raises (s := s.committed) 401 1 0).ras
  · rfl

/-- What deferred releases do for one buffer. -/
def State.freeBuf (s : State) (b : Nat) : State :=
  if s.fld Fld.RAS_BUF_STATUS_STATE b = 2 then (s.setFld Fld.RAS_BUF_STATUS_STATE b 0).raise 405 1 b else s

theorem State.freeDeferred_eq (s : State) : s.freeDeferred = (List.range 16).foldl State.freeBuf s := rfl

/-- A step of the deferred releases. -/
structure FreeWork (s t : State) : Prop where
  work : PicWork ((List.range 16).map fun b => ⟨.RAS_BUF_STATUS, b⟩) [405] s t
  ras : t.ras = s.ras

theorem FreeWork.refl (s : State) : FreeWork s s := ⟨.refl s, rfl⟩

theorem FreeWork.trans (h : FreeWork s t) (g : FreeWork t u) : FreeWork s u := ⟨h.work.trans g.work, g.ras.trans h.ras⟩

theorem State.freeBuf_work (s : State) {b : Nat} (hb : b < 16) : FreeWork s (s.freeBuf b) := by
  unfold State.freeBuf
  split
  · exact ⟨.raise (by simp) (.setFld (f := Fld.RAS_BUF_STATUS_STATE) (List.mem_map.2 ⟨b, List.mem_range.2 hb, rfl⟩) rfl (.refl s)),
      (State.raise_raises (s := s.setFld Fld.RAS_BUF_STATUS_STATE b 0) 405 1 b).ras⟩
  · exact .refl s

theorem State.freeDeferred_work (s : State) : FreeWork s s.freeDeferred := by
  rw [State.freeDeferred_eq]
  exact foldl_rel_mem (R := FreeWork) .refl .trans (fun a b hb => State.freeBuf_work a (List.mem_range.1 hb)) s

theorem freeRegs_blank : ((List.range 16).map fun b => (⟨.RAS_BUF_STATUS, b⟩ : Reg)) ⊆ blankRegs := by decide

theorem State.showLayers_work (s : State) :
    PicWork (blankRegs.filter fun r => r.n == .RAS_LAYER_STATUS) [] s ((List.range 8).foldl State.showLayer s) ∧
      ((List.range 8).foldl State.showLayer s).ras = s.ras := by
  have hmem : ∀ n < 8, (⟨.RAS_LAYER_STATUS, n⟩ : Reg) ∈ blankRegs.filter fun r => r.n == .RAS_LAYER_STATUS := by decide
  exact foldl_rel_mem (R := fun a b => PicWork (blankRegs.filter fun r => r.n == .RAS_LAYER_STATUS) [] a b ∧ b.ras = a.ras)
    (fun a => ⟨.refl a, rfl⟩) (fun h g => ⟨h.1.trans g.1, g.2.trans h.2⟩) (l := List.range 8) (fun a n hn =>
      have hm := hmem n (List.mem_range.1 hn)
      ⟨.setFld (f := Fld.RAS_LAYER_STATUS_NOSRC) hm rfl (.setFld (f := Fld.RAS_LAYER_STATUS_ACTIVE) hm rfl (.refl a)), rfl⟩) s

/-! ### What a vertical blank leaves -/

/-- The state of Lantern at the end of a blank, before the next frame. -/
theorem State.blankDone_ras (s : State) : s.blankDone.ras =
    if s.blankStart.commits then s.blankStart.committed.ras else s.blankStart.uncommitted.ras := by
  rw [State.blankDone, (State.freeDeferred_work _).ras, State.rasCommit_ras]

theorem State.blankDone_work (s : State) : BlankWork s s.blankDone :=
  s.blankStart_work.trans ((State.rasCommit_work _).mono (by simp) (by simp) |>.trans
    ((State.freeDeferred_work _).work.mono freeRegs_blank (by simp)))

/-- After the start of a blank only buffers change, and only EV401 and EV405 are raised. -/
theorem State.blankDone_after (s : State) : PicWork blankRegs [401, 405] s.blankStart s.blankDone :=
  ((State.rasCommit_work _).mono (by simp) (by simp)).trans ((State.freeDeferred_work _).work.mono freeRegs_blank (by simp))

/-- The end of a blank: the registers and fields of Lantern that it changes. -/
structure BlankEnd (s t : State) : Prop where
  work : PicWork ([⟨.RAS_STATUS, 0⟩] ++ blankRegs.filter fun r => r.n == .RAS_LAYER_STATUS) [] s t
  settings : SettingsKept s t
  marks : MarksKept s t

theorem State.scanStops_end (s : State) : BlankEnd s s.scanStops :=
  ⟨.modRas (.setFld (by simp) rfl (.refl s)), ⟨rfl, rfl, rfl, rfl⟩, ⟨rfl, rfl, rfl⟩⟩

theorem State.scanGoesOn_end (s : State) (x : Tu) (bins : Tab Nat) :
    BlankEnd s ((List.range 8).foldl State.showLayer (s.scanGoesOn x bins)) := by
  obtain ⟨hw, hr⟩ := (s.scanGoesOn x bins).showLayers_work
  have h1 : PicWork ([⟨.RAS_STATUS, 0⟩] ++ blankRegs.filter fun r => r.n == .RAS_LAYER_STATUS) [] s (s.scanGoesOn x bins) :=
    .modRas (.setFld (by simp) rfl (.refl s))
  exact ⟨h1.trans (hw.mono (List.subset_append_right _ _) (by simp)),
    .trans (t := s.scanGoesOn x bins) ⟨rfl, rfl, rfl, rfl⟩ (.of_ras hr),
    .trans (t := s.scanGoesOn x bins) ⟨rfl, rfl, rfl⟩ (.of_ras hr)⟩

theorem State.rasBlank_end (s : State) : BlankEnd s.blankDone s.rasBlank := by
  rw [State.rasBlank_eq]
  split
  · exact State.scanStops_end _
  · exact State.scanGoesOn_end _ _ _

theorem endRegs_blank : ([⟨.RAS_STATUS, 0⟩] ++ blankRegs.filter fun r => r.n == .RAS_LAYER_STATUS) ⊆ blankRegs := by decide

theorem State.rasBlank_work (s : State) : BlankWork s s.rasBlank :=
  s.blankDone_work.trans (s.rasBlank_end.work.mono endRegs_blank (by simp))

theorem State.rasBlank_marks (s : State) : MarksKept s s.rasBlank := by
  refine .trans ?_ s.rasBlank_end.marks
  have h : MarksKept s s.blankDone := by
    constructor <;>
    · rw [State.blankDone_ras]
      split <;>
      · simp only [State.committed, State.uncommitted, State.modRas, State.blankStart_ras]
  exact h

theorem State.rasBlank_frame (s : State) : s.rasBlank.frameOf .RAS_PIC_FRAME_LO .RAS_PIC_FRAME_HI 0 = s.frameNow := by
  obtain ⟨y, hy⟩ : ∃ y, y = s.setFrame .RAS_PIC_FRAME_LO .RAS_PIC_FRAME_HI 0 s.frameNow := ⟨_, rfl⟩
  have hrest : ∀ n, n = .RAS_PIC_FRAME_LO ∨ n = .RAS_PIC_FRAME_HI → s.rasBlank.reg n 0 = y.reg n 0 := fun n hn => by
    have hstart : s.blankStart.reg n 0 = y.reg n 0 := by
      rw [hy]
      exact (State.raise_raises 400 1 0).reg n 0 (by rcases hn with rfl | rfl <;> rfl)
    have hcommit := (State.rasCommit_work s.blankStart).only.1 n 0 (by simp) (by rcases hn with rfl | rfl <;> rfl)
    have hfree := (State.freeDeferred_work s.blankStart.rasCommit).work.only.1 n 0 (by rcases hn with rfl | rfl <;> decide)
      (by rcases hn with rfl | rfl <;> rfl)
    have hend := s.rasBlank_end.work.only.1 n 0 (by rcases hn with rfl | rfl <;> decide) (by rcases hn with rfl | rfl <;> rfl)
    exact hend.trans (hfree.trans (hcommit.trans hstart))
  rw [State.frameOf, State.pair, hrest _ (.inl rfl), hrest _ (.inr rfl), ← State.pair, ← State.frameOf, hy]
  exact State.frameOf_setFrame _ _ _ (by decide)

theorem State.rasBlank_event (s : State) (hk : s.fld Fld.EVT_ROUTE_KIND 400 ≠ 1) : s.rasBlank.evtStatus 400 = true := by
  rw [s.rasBlank_end.work.only.evtStatus (by simp) rfl, s.blankDone_after.only.evtStatus (by simp) rfl]
  refine State.raise_hubSource 1 0 rfl ?_
  rw [State.fld_of_reg (s := s)]
  · exact hk
  · exact (State.reg_setReg_ne _ _ _ _ _ _ (by decide)).trans (State.reg_setReg_ne _ _ _ _ _ _ (by decide))

end Sys2Proof.Machine
end

section
/-! O40: what a blank commits, and the commands that lead to one (R317, R318, R320). -/

namespace Sys2Proof.Machine

variable {s t u w : State} {but : List Reg} {srcs : List Nat} {x : Tu}

/-! ### Two register files after one another -/

/-- A register that the first file does not hold is read in the second. -/
theorem rget_append_right {m l : List (Reg × Word)} {r : Reg} (h : ∀ e ∈ m, e.1 ≠ r) : rget (m ++ l) r = rget l r := by
  induction m with
  | nil => rfl
  | cons e m ih =>
    obtain ⟨q, v⟩ := e
    rw [List.cons_append, rget, if_neg (h _ (List.mem_cons_self ..)), ih fun e he => h e (List.mem_cons_of_mem _ he)]

/-- A register that the second file does not hold is read in the first. -/
theorem rget_append_left {m l : List (Reg × Word)} {r : Reg} (h : ∀ e ∈ l, e.1 ≠ r) : rget (m ++ l) r = rget m r := by
  induction m with
  | nil =>
    have hl := rget_append_right (m := l) (l := []) h
    rw [List.append_nil] at hl
    exact hl
  | cons e m ih =>
    obtain ⟨q, v⟩ := e
    rw [List.cons_append, rget, rget, ih]

/-- The settings in force after a commit: RAS_CTRL as it was, and the others as last written. -/
theorem State.committed_now (s : State) :
    rget s.committed.ras.now ⟨.RAS_CTRL, 0⟩ = rget s.ras.now ⟨.RAS_CTRL, 0⟩ ∧
      ∀ n ∈ rasPending, ∀ i, rget s.committed.ras.now ⟨n, i⟩ = s.reg n i := by
  constructor
  · refine (rget_append_left fun e he heq => ?_).trans (rget_filter (p := fun r => r.n == .RAS_CTRL) rfl)
    have hp := (List.mem_filter.1 he).2
    rw [heq] at hp
    exact Bool.noConfusion hp
  · intro n hn i
    have hno : n ≠ .RAS_CTRL := by
      rintro rfl
      exact absurd hn (by decide)
    refine (rget_append_right fun e he heq => ?_).trans
      (rget_filter (p := fun r => rasPending.contains r.n) (List.contains_iff_mem.2 hn))
    have hp := (List.mem_filter.1 he).2
    rw [heq] at hp
    exact hno (beq_iff_eq.1 hp)

/-! ### What a blank commits -/

theorem State.blankStart_pend (s : State) : s.blankStart.ras.pend = s.ras.pend := by rw [State.blankStart_ras]

theorem State.blankStart_commits (s : State) : s.blankStart.commits = s.commits := by
  have hw := s.blankStart_work
  rw [State.commits, State.commits, State.blankStart_pend, hw.only.flagOf blankRegs_picture (by decide) rfl, hw.time]

theorem State.blankStart_ctrl (s : State) : rget s.blankStart.ras.now ⟨.RAS_CTRL, 0⟩ = s.reg .RAS_CTRL 0 := by
  rw [State.blankStart_ras]
  exact (rget_rput _ _ _ _).trans (if_pos rfl)

theorem State.blankDone_ctrl (s : State) : rget s.blankDone.ras.now ⟨.RAS_CTRL, 0⟩ = s.reg .RAS_CTRL 0 := by
  rw [State.blankDone_ras]
  split
  · exact (State.committed_now _).1.trans s.blankStart_ctrl
  · exact s.blankStart_ctrl

theorem State.rasBlank_settings (s : State) : SettingsKept s.blankDone s.rasBlank := s.rasBlank_end.settings

/-- A blank that commits puts what was written in force. -/
theorem State.rasBlank_commits (s : State) (hc : s.commits = true) : s.rasBlank.ras.pend = none ∧
    s.rasBlank.ras.lutNow = s.ras.lut ∧ (s.fld Fld.EVT_ROUTE_KIND 401 ≠ 1 → s.rasBlank.evtStatus 401 = true) ∧
    ∀ n ∈ rasPending, ∀ i, rget s.rasBlank.ras.now ⟨n, i⟩ = s.reg n i := by
  have hset := s.rasBlank_settings
  have hcs : s.blankStart.commits = true := s.blankStart_commits.trans hc
  have hras : s.blankDone.ras = s.blankStart.committed.ras := by rw [State.blankDone_ras, if_pos hcs]
  refine ⟨hset.pend.trans (by rw [hras]; rfl), ?_, fun hk => ?_, fun n hn i => ?_⟩
  · rw [hset.lutNow, hras, State.committed, State.modRas, State.blankStart_ras]
  · rw [s.rasBlank_end.work.only.evtStatus (by simp) rfl, State.blankDone,
      (State.freeDeferred_work _).work.only.evtStatus (by simp) rfl, State.rasCommit_eq, if_pos hcs]
    refine State.raise_hubSource 1 0 rfl ?_
    rw [← s.blankStart_work.only.fldOf blankRegs_picture (f := Fld.EVT_ROUTE_KIND) (by decide) rfl 401] at hk
    exact hk
  · rw [hset.now, hras, (State.committed_now _).2 n hn i]
    have hno : n ∉ pictureNames ∧ eventReg n = false := by
      have hall : ∀ n ∈ rasPending, n ∉ pictureNames ∧ eventReg n = false := by decide
      exact hall n hn
    exact s.blankStart_work.only.ofName blankRegs_picture hno.1 hno.2 i

/-- A blank that does not commit leaves what waits and what is in force. -/
theorem State.rasBlank_holds (s : State) (hc : s.commits = false) : s.rasBlank.ras.pend = s.ras.pend ∧
    s.rasBlank.ras.lutNow = s.ras.lutNow ∧
    ∀ n ∈ rasPending, ∀ i, rget s.rasBlank.ras.now ⟨n, i⟩ = rget s.ras.now ⟨n, i⟩ := by
  have hset := s.rasBlank_settings
  have hras : s.blankDone.ras = s.blankStart.uncommitted.ras := by
    rw [State.blankDone_ras, State.blankStart_commits, hc]
    rfl
  refine ⟨?_, ?_, fun n hn i => ?_⟩
  · rw [hset.pend, hras]
    exact s.blankStart_pend
  · rw [hset.lutNow, hras, State.uncommitted, State.modRas, State.blankStart_ras]
  · rw [hset.now, hras, State.uncommitted, State.modRas, State.blankStart_ras]
    refine (rget_rput _ _ _ _).trans (if_neg fun heq => ?_)
    obtain rfl : n = .RAS_CTRL := congrArg Reg.n heq
    exact absurd hn (by decide)

theorem State.commits_of_pend (s : State) {t0 : Tu} (hp : s.ras.pend = some t0) (hh : s.flag Fld.RAS_CTRL_HOLD 0 = false)
    (hl : tuLe (tuAdd t0 (ns 1000)) s.time = true) : s.commits = true := by
  rw [State.commits, hp]
  dsimp only
  rw [hh, hl]
  rfl

theorem State.commits_of_hold (s : State) (hh : s.flag Fld.RAS_CTRL_HOLD 0 = true) : s.commits = false := by
  rw [State.commits]
  cases s.ras.pend with
  | none => rfl
  | some t0 =>
    dsimp only
    rw [hh]
    rfl

/-! ### What follows a blank -/

theorem State.blankDone_en (s : State) : (s.blankDone.rasFld Fld.RAS_CTRL_EN 0 = 0) = (s.fld Fld.RAS_CTRL_EN 0 = 0) := by
  rw [State.rasFld, State.blankDone_ctrl]
  rfl

theorem State.scanStops_shows (s : State) : s.scanStops.fld Fld.RAS_STATUS_STATE 0 = 0 ∧ s.scanStops.ras.frame = false :=
  ⟨State.fld_setFld_of_lt s _ _ (by decide) (by decide), rfl⟩

theorem State.scanGoesOn_shows (s : State) (x : Tu) (bins : Tab Nat) :
    (s.scanGoesOn x bins).fld Fld.RAS_STATUS_STATE 0 = 1 ∧
      (s.scanGoesOn x bins).ras.frame = !(s.flag Fld.RAS_CTRL_TE_MODE 0) ∧
      (s.scanGoesOn x bins).ras.teWait = s.flag Fld.RAS_CTRL_TE_MODE 0 ∧ (s.scanGoesOn x bins).ras.vbAt = x :=
  ⟨State.fld_setFld_of_lt s _ _ (by decide) (by decide), rfl, rfl, rfl⟩

theorem State.rasBlank_stops (s : State) (he : s.flag Fld.RAS_CTRL_EN 0 = false) :
    s.rasBlank.fld Fld.RAS_STATUS_STATE 0 = 0 ∧ s.rasBlank.ras.frame = false := by
  have h0 : s.fld Fld.RAS_CTRL_EN 0 = 0 := by
    rw [State.flag_eq, bne_eq_false_iff_eq] at he
    exact he
  rw [State.rasBlank_eq, if_pos (s.blankDone_en.mpr h0)]
  exact State.scanStops_shows _

theorem State.rasBlank_goesOn (s : State) (he : s.flag Fld.RAS_CTRL_EN 0 = true) :
    s.rasBlank.fld Fld.RAS_STATUS_STATE 0 = 1 ∧ s.rasBlank.ras.frame = !(s.flag Fld.RAS_CTRL_TE_MODE 0) ∧
      s.rasBlank.ras.teWait = s.flag Fld.RAS_CTRL_TE_MODE 0 ∧ s.rasBlank.ras.vbAt = s.time := by
  have h0 : ¬ s.fld Fld.RAS_CTRL_EN 0 = 0 := by
    rw [State.flag_eq, bne_iff_ne] at he
    exact he
  have hte : s.blankDone.flag Fld.RAS_CTRL_TE_MODE 0 = s.flag Fld.RAS_CTRL_TE_MODE 0 :=
    s.blankDone_work.only.flagOf blankRegs_picture (by decide) rfl 0
  obtain ⟨hw, hr⟩ := (s.blankDone.scanGoesOn s.time s.bins).showLayers_work
  rw [State.rasBlank_eq, if_neg fun h => h0 (s.blankDone_en.mp h), hr]
  obtain ⟨h1, h2, h3, h4⟩ := s.blankDone.scanGoesOn_shows s.time s.bins
  rw [hte] at h2 h3
  exact ⟨(State.fld_of_reg (hw.only.1 _ _ (by decide) rfl)).trans h1, h2, h3, h4⟩

/-! ### RAS_VBLANK -/

/-- The picture is complete: its CRCs, its outputs, its record. -/
def State.pictureDone (s : State) (p : Picture) : State :=
  ((s.rasRects p).rasOutputs p).1.rasRecord ((s.rasRects p).rasOutputs p).2

/-- What a picture's completion leaves, before the blank. -/
theorem State.pictureDone_shows (s : State) (p : Picture) :
    PicWork pictureRegs [400, 401, 405, 406, 408] s (s.pictureDone p) ∧ SettingsKept s (s.pictureDone p) ∧
      (s.pictureDone p).fld Fld.RAS_PIC_INFO_SEQ 0 = s.ras.seq % 2 ^ 24 ∧
      (s.pictureDone p).ras.seq = (s.ras.seq + 1) % 2 ^ 24 ∧
      ((s.pictureDone p).fld Fld.RAS_PIC_INFO_FLAGS 0).testBit 0 = s.ras.underrun ∧
      ((s.pictureDone p).fld Fld.RAS_PIC_INFO_FLAGS 0).testBit 2 = s.ras.abandoned ∧
      (s.pictureDone p).ras.underrun = false ∧
      ∀ r < 8, (s.pictureDone p).reg .RAS_CRC_VAL r = (s.rasRects p).reg .RAS_CRC_VAL r := by
  have hrect := s.rasRects_work p
  have hout := (s.rasRects p).rasOutputs_work p
  obtain ⟨hrec, hset, hseq, hseqn, hf0, hf2, hun, -⟩ :=
    ((s.rasRects p).rasOutputs p).1.rasRecord_shows ((s.rasRects p).rasOutputs p).2
  have hmarks : MarksKept s ((s.rasRects p).rasOutputs p).1 := .trans (.of_ras hrect.ras) hout.marks
  rw [hmarks.seq] at hseq hseqn
  rw [hmarks.underrun] at hf0
  rw [hmarks.abandoned] at hf2
  refine ⟨hrect.work.trans ((hout.work.mono (by decide) (by simp)).trans (hrec.mono (by decide) (by simp))),
    .trans (.of_ras hrect.ras) (hout.settings.trans hset), hseq, hseqn, hf0, hf2, hun, fun r hr => ?_⟩
  exact (hrec.only.1 _ _ (by simp [picRecordRegs]) rfl).trans (hout.work.only.1 _ _ (by simp [outRegs]) rfl)

/-- The end of a command that completes pictures or begins frames. -/
theorem State.done_pic (hw : onlyRaising (s.at x) w but srcs) :
    ∃ u, s.done w = .next u ∧ u.ras = w.ras ∧ (∀ n i, eventReg n = false → u.reg n i = w.reg n i) ∧
      (∀ k, k ∉ noteSrcs → u.evtStatus k = w.evtStatus k) ∧ onlyRaising s u but srcs := by
  obtain ⟨u, hu, hn⟩ := s.done_notes w
  exact ⟨u, hu, hn.ras, hn.reg, fun _ hk => hn.evtStatus hk, .at (hw.trans hn.onlyNotes)⟩

theorem rasVblank_completes : pictureCompletes := by
  intro s x p ha hst hp h26 hsb
  obtain ⟨y, hy⟩ : ∃ y, y = (s.at x).pictureDone p := ⟨_, rfl⟩
  obtain ⟨hw, hset, hseq, hseqn, hf0, hf2, hun, hcrc⟩ := (s.at x).pictureDone_shows p
  have hval : ∀ r < 8, s.flag Fld.RAS_CRC_CFG_EN r = true → ((s.at x).rasRects p).reg .RAS_CRC_VAL r =
      (s.at x).rectCrc p ((s.at x).layersOf 0) r := fun r hr he =>
    (s.at x).rasRects_val p hr (by rw [State.at_flag]; exact he)
  rw [← hy] at hw hset hseq hseqn hf0 hf2 hun hcrc
  rw [State.at_ras] at hseq hseqn hf0 hf2
  have hb := y.rasBlank_work
  have hm := y.rasBlank_marks
  have hyreg : ∀ {n : RegName}, n ∉ pictureNames → eventReg n = false → ∀ i, y.reg n i = s.reg n i := fun hn he i =>
    (hw.only.ofName (fun _ h => h) hn he i).trans (State.at_reg s x _ i)
  have hyflag : ∀ {f : Fld}, f.reg ∉ pictureNames → eventReg f.reg = false → ∀ i, y.flag f i = s.flag f i := fun hn he i =>
    State.flag_of_reg (hyreg hn he i)
  have hroute : ∀ k, y.fld Fld.EVT_ROUTE_KIND k = s.fld Fld.EVT_ROUTE_KIND k := fun k =>
    State.fld_of_reg (hyreg (by decide) rfl k)
  have hyras : SettingsKept s y := .trans (.of_ras (State.at_ras s x)) hset
  obtain ⟨u, hu, hras, hreg, hev, ho⟩ := State.done_pic (s := s) (x := x) (w := y.rasBlank)
    (hw.only.trans (hb.only.mono blankRegs_picture (by simp)))
  have hinfo : ∀ f : Fld, f.reg = .RAS_PIC_INFO → u.fld f 0 = y.fld f 0 := fun f hf => by
    refine State.fld_of_reg ((hreg _ _ (by rw [hf]; rfl)).trans (hb.only.1 _ _ ?_ (by rw [hf]; rfl)))
    rw [hf]
    decide
  have hstate : u.fld Fld.RAS_STATUS_STATE 0 = y.rasBlank.fld Fld.RAS_STATUS_STATE 0 := State.fld_of_reg (hreg _ _ rfl)
  refine ⟨u, ?_, (hinfo _ rfl).trans hseq, ?_, ?_, ?_, ?_, ?_, fun hk => ?_, fun r hr he => ?_, fun t0 hp0 hh hl => ?_,
    fun hh => ?_, fun he => ?_, fun he => ?_, ho⟩
  · rw [exec, execRasVblank, State.when_eq ha, State.at_fld, State.at_gateOpen, State.at_standby,
      if_pos ⟨hst, hp, h26, by rw [hsb]; rfl⟩]
    rw [hy, State.pictureDone] at hu
    generalize ((s.at x).rasRects p).rasOutputs p = q at hu ⊢
    obtain ⟨a, skipped⟩ := q
    exact hu
  · rw [hras, hm.seq, hseqn]
  · rw [State.frameOf, State.pair, hreg _ _ rfl, hreg _ _ rfl, ← State.pair, ← State.frameOf, y.rasBlank_frame, hw.now]
    rw [State.frameNow, State.frameNow, State.at_pitched, State.at_frame]
  · rw [hinfo _ rfl, hf0]
  · rw [hinfo _ rfl, hf2]
  · rw [hras, hm.underrun, hun]
  · rw [hev 400 (by decide)]
    exact y.rasBlank_event (by rw [hroute]; exact hk)
  · have hkeep : u.reg .RAS_CRC_VAL r = y.reg .RAS_CRC_VAL r :=
      (hreg _ _ rfl).trans (hb.only.1 _ _ (by simp [blankRegs]) rfl)
    rw [hkeep, hcrc r hr, hval r hr he, State.rectCrc, (s.at_samePicture x).layersOf,
      (s.at_samePicture x).rectOf, State.at_fld, State.at_fld, State.at_fld,
      State.at_fld]
  · obtain ⟨h1, h2, h3, h4⟩ := y.rasBlank_commits (y.commits_of_pend (hyras.pend.trans hp0)
      ((hyflag (by decide) rfl 0).trans hh) (by rw [hw.time]; exact hl))
    refine ⟨by rw [hras, h1], by rw [hras, h2, hyras.lut], fun hk => ?_, fun n hn i => ?_⟩
    · rw [hev 401 (by decide)]
      exact h3 (by rw [hroute]; exact hk)
    · have hno : n ∉ pictureNames ∧ eventReg n = false := by
        have hall : ∀ n ∈ rasPending, n ∉ pictureNames ∧ eventReg n = false := by decide
        exact hall n hn
      rw [hras, h4 n hn i]
      exact hyreg hno.1 hno.2 i
  · obtain ⟨h1, h2, h3⟩ := y.rasBlank_holds (y.commits_of_hold ((hyflag (by decide) rfl 0).trans hh))
    exact ⟨by rw [hras, h1, hyras.pend], by rw [hras, h2, hyras.lutNow], fun n hn i => by rw [hras, h3 n hn i, hyras.now]⟩
  · obtain ⟨h1, h2⟩ := y.rasBlank_stops ((hyflag (by decide) rfl 0).trans he)
    exact ⟨hstate.trans h1, by rw [hras, h2]⟩
  · obtain ⟨h1, h2, h3, -⟩ := y.rasBlank_goesOn ((hyflag (by decide) rfl 0).trans he)
    have hte := hyflag (f := Fld.RAS_CTRL_TE_MODE) (by decide) rfl 0
    exact ⟨hstate.trans h1, by rw [hras, h2, hte], by rw [hras, h3, hte]⟩

end Sys2Proof.Machine
end

section
/-! O40: the pixel clock is back, and frames begin at TE_IN (R318, R320, R327). -/

namespace Sys2Proof.Machine

variable {s t u w : State} {but : List Reg} {srcs : List Nat} {x : Tu}

/-! ### What the times of a frame hang on -/

theorem State.at_fPix (s : State) (x : Tu) : (s.at x).fPix = s.fPix :=
  State.fPix_of (fun f i => State.at_fld s x f i) (State.at_clk s x)

theorem State.at_pixels (s : State) (x : Tu) (n : Nat) : (s.at x).pixels n = s.pixels n := by
  rw [State.pixels, State.pixels, State.at_fPix]

theorem State.at_rasFld (s : State) (x : Tu) (f : Fld) (i : Nat) : (s.at x).rasFld f i = s.rasFld f i := by
  rw [State.rasFld, State.rasFld, State.at_ras]

theorem State.at_linePix (s : State) (x : Tu) : (s.at x).linePix = s.linePix := by
  rw [State.linePix, State.linePix, State.at_rasFld, State.at_rasFld]

theorem State.at_framePix (s : State) (x : Tu) : (s.at x).framePix = s.framePix := by
  rw [State.framePix, State.framePix, State.at_linePix, State.at_rasFld, State.at_rasFld]

theorem State.at_teFrom (s : State) (x : Tu) : (s.at x).teFrom = s.teFrom := by
  rw [State.teFrom, State.teFrom, State.at_linePix, State.at_rasFld, State.at_pixels]

/-! ### RAS_PIXCLK_RESTART (R318) -/

/-- The record of an abandoned picture, where there is one. -/
def State.abandonedRecord (s : State) : State := if s.ras.abandoned then s.rasRecord false else s

/-- Scanning is no longer about to restart. -/
def State.restarted (s : State) : State := s.modRas fun r => { r with restartFrom := none }

theorem State.restarted_reads (s : State) : s.restarted.ras.restartFrom = none ∧ MarksKept s s.restarted ∧
    s.restarted.ras.vbAt = s.ras.vbAt ∧ (∀ n i, s.restarted.reg n i = s.reg n i) ∧ PicWork [] [] s s.restarted :=
  ⟨rfl, ⟨rfl, rfl, rfl⟩, rfl, fun _ _ => rfl, .modRas (.refl s)⟩

theorem rasPixclkRestart_eq {t0 : Tu} (ha : s.alive = true) (hf : s.ras.restartFrom = some t0)
    (hst : s.fld Fld.RAS_STATUS_STATE 0 = 2) (h26 : s.gateOpen 26 = true)
    (hl : tuLe (tuAdd t0 (s.pixels (2 * s.framePix))) (s.at x).time = true) :
    exec (.rasPixclkRestart x) s = s.done ((s.at x).abandonedRecord.rasBlank.restarted.raise0 402) := by
  rw [exec, execRasPixclkRestart, State.when_eq ha, State.at_ras, hf]
  dsimp only
  rw [State.at_fld, State.at_framePix, State.at_pixels, State.at_gateOpen, if_pos ⟨hst, hl, h26⟩, State.abandonedRecord, State.at_ras,
    State.restarted]

/-- What the record of an abandoned picture leaves. -/
theorem State.abandonedRecord_shows (s : State) : PicWork picRecordRegs [] s s.abandonedRecord ∧
    s.abandonedRecord.ras.abandoned = false ∧
    (s.ras.abandoned = true → s.abandonedRecord.fld Fld.RAS_PIC_INFO_SEQ 0 = s.ras.seq % 2 ^ 24 ∧
      (s.abandonedRecord.fld Fld.RAS_PIC_INFO_FLAGS 0).testBit 2 = true) := by
  obtain ⟨hw, -, hseq, -, -, hf2, -, hab⟩ := s.rasRecord_shows false
  unfold State.abandonedRecord
  split
  · next ha => exact ⟨hw, hab, fun _ => ⟨hseq, hf2.trans ha⟩⟩
  · next ha => exact ⟨.refl s, Bool.eq_false_iff.2 ha, fun h => absurd h ha⟩

theorem rasPixclkRestart_restarts {t0 : Tu} (ha : s.alive = true) (hf : s.ras.restartFrom = some t0)
    (hst : s.fld Fld.RAS_STATUS_STATE 0 = 2) (h26 : s.gateOpen 26 = true)
    (hl : tuLe (tuAdd t0 (s.pixels (2 * s.framePix))) (s.at x).time = true) :
    ∃ u, exec (.rasPixclkRestart x) s = .next u ∧ u.ras.restartFrom = none ∧
      (s.fld Fld.EVT_ROUTE_KIND 402 ≠ 1 → u.evtStatus 402 = true) ∧
      (s.ras.abandoned = true → u.fld Fld.RAS_PIC_INFO_SEQ 0 = s.ras.seq % 2 ^ 24 ∧
        (u.fld Fld.RAS_PIC_INFO_FLAGS 0).testBit 2 = true ∧ u.ras.abandoned = false) ∧
      (s.flag Fld.RAS_CTRL_EN 0 = true → u.fld Fld.RAS_STATUS_STATE 0 = 1 ∧ u.ras.vbAt = (s.at x).time) ∧
      onlyRaising s u pictureRegs [400, 401, 402, 405] := by
  obtain ⟨y, hy⟩ : ∃ y, y = (s.at x).abandonedRecord := ⟨_, rfl⟩
  obtain ⟨z, hz⟩ : ∃ z, z = y.rasBlank.restarted := ⟨_, rfl⟩
  obtain ⟨hw, hab, hrec⟩ := (s.at x).abandonedRecord_shows
  rw [← hy] at hw hab hrec
  rw [State.at_ras] at hrec
  have hb := y.rasBlank_work
  obtain ⟨hfrom, hzmarks, hzvb, hzreg, hzw⟩ := y.rasBlank.restarted_reads
  rw [← hz] at hfrom hzmarks hzvb hzreg hzw
  have hzon : onlyRaising (s.at x) z pictureRegs [400, 401, 402, 405] :=
    (hw.only.mono (by decide) (by simp)).trans
      ((hb.only.mono blankRegs_picture (by simp)).trans (hzw.only.mono (by simp) (by simp)))
  have hv : Raises z (z.raise0 402) [402] := State.raise0_raises 402
  obtain ⟨u, hu, hras, hreg, hev, ho⟩ := State.done_pic (onlyRaising.raise0 (k := 402) (by simp) hzon)
  have hinfo : ∀ f : Fld, f.reg = .RAS_PIC_INFO → u.fld f 0 = y.fld f 0 := fun f hf => by
    have he : eventReg f.reg = false := by rw [hf]; rfl
    refine State.fld_of_reg ((hreg _ _ he).trans ((hv.reg _ _ he).trans ((hzreg _ _).trans (hb.only.1 _ _ ?_ he))))
    rw [hf]
    decide
  refine ⟨u, (rasPixclkRestart_eq ha hf hst h26 hl).trans (by rw [← hy, ← hz]; exact hu), ?_, fun hk => ?_, fun hh => ?_,
    fun he => ?_, ho⟩
  · rw [hras, hv.ras, hfrom]
  · rw [hev 402 (by decide)]
    refine State.raise_hubSource 1 0 rfl ?_
    rw [hzon.fldOf (fun _ h => h) (f := Fld.EVT_ROUTE_KIND) (by decide) rfl 402, State.at_fld]
    exact hk
  · obtain ⟨hseq, hf2⟩ := hrec hh
    refine ⟨(hinfo _ rfl).trans hseq, by rw [hinfo _ rfl, hf2], ?_⟩
    rw [hras, hv.ras, hzmarks.abandoned, y.rasBlank_marks.abandoned, hab]
  · have hey : y.flag Fld.RAS_CTRL_EN 0 = true := by
      rw [hw.only.flagOf (by decide) (f := Fld.RAS_CTRL_EN) (by decide) rfl, State.at_flag]
      exact he
    obtain ⟨h1, -, -, h4⟩ := y.rasBlank_goesOn hey
    refine ⟨(State.fld_of_reg ((hreg _ _ rfl).trans ((hv.reg _ _ rfl).trans (hzreg _ _)))).trans h1, ?_⟩
    rw [hras, hv.ras, hzvb, h4, hw.time]

/-! ### TE_IN_EDGE and RAS_TE_LOST (R320) -/

/-- The frame that waits for TE_IN begins. -/
def State.frameBegins (s : State) (lost : Nat) : State :=
  (s.modRas fun r => { r with frame := true, teWait := false }).setFld Fld.RAS_STATUS_TE_LOST 0 lost

theorem State.frameBegins_only (s : State) (lost : Nat) : onlyRegs s (s.frameBegins lost) [⟨.RAS_STATUS, 0⟩] :=
  .setFld (f := Fld.RAS_STATUS_TE_LOST) (.head _) (.of_eq rfl rfl (.refl s _))

theorem State.frameBegins_shows (s : State) {lost : Nat} (hl : lost < 2) : (s.frameBegins lost).ras.frame = true ∧
    (s.frameBegins lost).ras.teWait = false ∧ (s.frameBegins lost).fld Fld.RAS_STATUS_TE_LOST 0 = lost :=
  ⟨rfl, rfl, State.fld_setFld_of_lt _ _ _ (by decide) hl⟩

section
variable (ha : s.alive = true)
include ha

/-- An edge that no frame waits for changes nothing. -/
theorem teInEdge_ignored (h : (s.ras.teWait && s.fld Fld.RAS_STATUS_STATE 0 == 1 &&
      tuLe (tuAdd s.ras.vbAt s.teFrom) (s.at x).time) = false) :
    ∃ u, exec (.teInEdge x) s = .next u ∧ u.ras = s.ras ∧ onlyRegs s u [] := by
  obtain ⟨hd, ho⟩ := State.done_onlyRegs (onlyRegs.refl (s.at x) []) rfl
  refine ⟨s.at x, ?_, State.at_ras s x, ho⟩
  rw [exec, execTeInEdge, State.when_eq ha, State.at_ras, State.at_fld, State.at_teFrom, if_neg (by rw [h]; decide)]
  exact hd

theorem teInEdge_begins (hw : s.ras.teWait = true) (hst : s.fld Fld.RAS_STATUS_STATE 0 = 1)
    (hl : tuLe (tuAdd s.ras.vbAt s.teFrom) (s.at x).time = true) :
    ∃ u, exec (.teInEdge x) s = .next u ∧ u.ras.frame = true ∧ u.ras.teWait = false ∧
      u.fld Fld.RAS_STATUS_TE_LOST 0 = 0 ∧ onlyRegs s u [⟨.RAS_STATUS, 0⟩] := by
  obtain ⟨h1, h2, h3⟩ := (s.at x).frameBegins_shows (lost := 0) (by decide)
  obtain ⟨hd, ho⟩ := State.done_onlyRegs ((s.at x).frameBegins_only 0) rfl
  refine ⟨(s.at x).frameBegins 0, ?_, h1, h2, h3, ho⟩
  rw [exec, execTeInEdge, State.when_eq ha, State.at_ras, State.at_fld, State.at_teFrom,
    if_pos (by rw [hw, hst, hl]; rfl)]
  exact hd

theorem rasTeLost_begins (hw : s.ras.teWait = true) (hst : s.fld Fld.RAS_STATUS_STATE 0 = 1)
    (hl : tuLe (tuAdd s.ras.vbAt (s.teFrom + s.pixels s.framePix)) (s.at x).time = true) :
    ∃ u, exec (.rasTeLost x) s = .next u ∧ u.ras.frame = true ∧ u.ras.teWait = false ∧
      u.fld Fld.RAS_STATUS_TE_LOST 0 = 1 ∧ (s.fld Fld.EVT_ROUTE_KIND 403 ≠ 1 → u.evtStatus 403 = true) ∧
      onlyRaising s u [⟨.RAS_STATUS, 0⟩] [403] := by
  obtain ⟨h1, h2, h3⟩ := (s.at x).frameBegins_shows (lost := 1) (by decide)
  obtain ⟨u, hu, hr⟩ := State.done_raisedIf (c := True) (k := 403) (causes := 1) (info := 0)
    ((s.at x).frameBegins_only 1) rfl rfl
  rw [if_pos trivial] at hu
  refine ⟨u, ?_, by rw [hr.raises.ras, h1], by rw [hr.raises.ras, h2], (hr.fld _ _ rfl).trans h3,
    fun hk => hr.status trivial (State.raisable_hub rfl hk), hr.only⟩
  rw [exec, execRasTeLost, State.when_eq ha, State.at_ras, State.at_fld, State.at_teFrom, State.at_framePix, State.at_pixels,
    if_pos (by rw [hw, hst, hl]; rfl)]
  exact hu

end

theorem lantern_framesBegin : framesBegin := fun _ _ ha =>
  ⟨fun _ hf hst h26 hl => rasPixclkRestart_restarts ha hf hst h26 hl,
    fun hw hst => ⟨teInEdge_begins ha hw hst, fun hl => teInEdge_ignored ha (by rw [hl, Bool.and_false]),
      rasTeLost_begins ha hw hst⟩,
    fun hw => teInEdge_ignored ha (by rw [hw, Bool.false_and, Bool.false_and])⟩

/-- Settles O40: a picture's completion and its blank step by step, and the three commands that begin frames. -/
theorem lanternScans : Obligations.LanternScans := ⟨rasVblank_completes, lantern_framesBegin⟩

end Sys2Proof.Machine
end

section
/-! O14: MB_PITCH_LOAD, DRY_RUN and MB_PITCH_STORE (R73 to R75, R81). -/

namespace Sys2Proof.Machine

variable {s t u w : State} {but : List Reg} {srcs : List Nat} {x : Tu} {tag : Byte}

/-! ### What a verdict hangs on -/

/-- What the check of an image reads is the same in both states. -/
structure SameJudge (s t : State) : Prop where
  only : onlyRaising s t [⟨.MGT_MB_STATE, 0⟩, ⟨.HUB_PITCH_STATUS, 0⟩] [462]
  pitch : t.pitch = s.pitch
  ras : t.ras = s.ras
  mgt : t.mgt.fuses = s.mgt.fuses ∧ t.mgt.flash = s.mgt.flash

section
variable (h : SameJudge s t)
include h

theorem SameJudge.reg {n : RegName} (hn : n ≠ .MGT_MB_STATE) (hp : n ≠ .HUB_PITCH_STATUS) (he : eventReg n = false) (i : Nat) :
    t.reg n i = s.reg n i := h.only.1 n i (by simp [hn, hp]) he

theorem SameJudge.fld {f : Fld} (hn : f.reg ≠ .MGT_MB_STATE) (hp : f.reg ≠ .HUB_PITCH_STATUS) (he : eventReg f.reg = false)
    (i : Nat) : t.fld f i = s.fld f i := State.fld_of_reg (h.reg hn hp he i)

theorem SameJudge.flag {f : Fld} (hn : f.reg ≠ .MGT_MB_STATE) (hp : f.reg ≠ .HUB_PITCH_STATUS) (he : eventReg f.reg = false)
    (i : Nat) : t.flag f i = s.flag f i := State.flag_of_reg (h.reg hn hp he i)

theorem SameJudge.clusterIdle (c : Nat) (part : List ImgRec) : t.clusterIdle c part = s.clusterIdle c part := by
  have hr : ∀ f i, t.rasFld f i = s.rasFld f i := fun f i => by rw [State.rasFld, State.rasFld, h.ras]
  simp only [State.clusterIdle, State.armed, State.segState, State.queueOff, State.qState, State.measuring, h.pitch, hr,
    h.fld (f := Fld.HUB_PWR_STATUS_CL_SLEEP) (by decide) (by decide) rfl,
    h.fld (f := Fld.SEG_ARM_STATE) (by decide) (by decide) rfl,
    h.fld (f := Fld.DMA_Q_STATUS_STATE) (by decide) (by decide) rfl,
    h.flag (f := Fld.TIC_STATUS_MEASURING) (by decide) (by decide) rfl,
    h.fld (f := Fld.RAS_LAYER_SRC_KIND) (by decide) (by decide) rfl,
    h.fld (f := Fld.RAS_LAYER_SRC_UNIT) (by decide) (by decide) rfl,
    h.flag (f := Fld.RAS_LAYER_CFG_EN) (by decide) (by decide) rfl]

theorem SameJudge.judge (b : List Byte) : t.judgeImage b = s.judgeImage b := by
  have hi : t.inForce = s.inForce := by
    rw [State.inForce, State.inForce, State.pitched, State.pitched, h.pitch, h.reg (by decide) (by decide) rfl]
  have hf : t.stackFailed = s.stackFailed := by
    funext e
    rw [State.stackFailed, State.stackFailed, h.flag (by decide) (by decide) rfl, h.flag (by decide) (by decide) rfl]
  have hc : (fun part => t.clusterIdle (partCluster b) part) = fun part => s.clusterIdle (partCluster b) part :=
    funext fun part => h.clusterIdle _ part
  rw [State.judgeImage, State.judgeImage, hi, hf, hc, h.mgt.1]

theorem SameJudge.pitchBusy : t.pitchBusy = s.pitchBusy := by rw [State.pitchBusy, State.pitchBusy, h.pitch]

end

theorem SameJudge.trans (h : SameJudge s t) (g : SameJudge t u) : SameJudge s u :=
  ⟨h.only.trans g.only, g.pitch.trans h.pitch, g.ras.trans h.ras, g.mgt.1.trans h.mgt.1, g.mgt.2.trans h.mgt.2⟩

theorem State.at_sameJudge (s : State) (x : Tu) : SameJudge s (s.at x) :=
  ⟨.of_eq (State.at_regs s x) (State.at_mem s x) (.refl s _ _), State.at_pitch s x, State.at_ras s x,
    by rw [State.at_mgt], by rw [State.at_mgt]⟩

/-- The state in which a load judges its image: RUNNING, and STATE out of LOADING. -/
def State.loadRuns (s : State) (x : Tu) (tag : Byte) : State := ((s.at x).mbRunning tag).pitchShown

theorem State.mbRunning_rest (s : State) (tag : Byte) : ∃ regs, s.mbRunning tag = { s with regs := regs } := by
  unfold State.mbRunning State.pitchLoading
  split <;> exact ⟨_, rfl⟩

theorem State.pitchShown_only (s : State) : onlyRegs s s.pitchShown [⟨.HUB_PITCH_STATUS, 0⟩] :=
  .ite (.setFld (f := Fld.HUB_PITCH_STATUS_STATE) (.head _) (.refl s _)) (.refl s _)

theorem State.pitchShown_rest (s : State) : ∃ regs, s.pitchShown = { s with regs := regs } := by
  unfold State.pitchShown
  split <;> exact ⟨_, rfl⟩

theorem State.loadRuns_rest (s : State) (x : Tu) (tag : Byte) : ∃ regs, s.loadRuns x tag = { s.at x with regs := regs } := by
  obtain ⟨r1, h1⟩ := (s.at x).mbRunning_rest tag
  obtain ⟨r2, h2⟩ := ((s.at x).mbRunning tag).pitchShown_rest
  exact ⟨r2, by rw [State.loadRuns, h2, h1]⟩

theorem State.loadRuns_only (s : State) (x : Tu) (tag : Byte) :
    onlyRegs (s.at x) (s.loadRuns x tag) [⟨.MGT_MB_STATE, 0⟩, ⟨.HUB_PITCH_STATUS, 0⟩] :=
  ((s.at x).mbRunning_reads tag).2.1.trans ((State.pitchShown_only _).mono (by simp))

theorem State.loadRuns_judge (s : State) (x : Tu) (tag : Byte) : SameJudge s (s.loadRuns x tag) := by
  refine (s.at_sameJudge x).trans ⟨(s.loadRuns_only x tag).raising rfl, ?_, ?_, ?_⟩ <;>
  · obtain ⟨_, h⟩ := s.loadRuns_rest x tag
    rw [h]
    try exact ⟨rfl, rfl⟩

/-! ### MB_PITCH_LOAD (R74, R81) -/

/-- What is kept of an accepted image `b`. -/
def acceptedOf (b hd : List Byte) (rs : List ImgRec) (t : Tu) : Accepted :=
  ⟨hd, rs, b.take (imgLen b), imageCrc b, if isPartial b then some (partCluster b) else none, t⟩

/-- What a load whose end is `e` leaves. -/
structure LoadEnd (s : State) (tag : Byte) (e : MbEnd) (srcs : List Nat) (u : State) : Prop where
  done : boxDone s u tag e.status
  rest : keepsRest e.s u
  fld : ∀ f : Fld, f.reg = .HUB_PITCH_STATUS → u.fld f 0 = e.s.fld f 0
  status : ∀ k, k ≠ 456 → followsRaise k = false → u.evtStatus k = e.s.evtStatus k
  res : ∀ a (h : a < e.res.length), a < 8 → u.reg .MGT_MB_RES a = e.res[a]
  only : onlyRaising s u (⟨.HUB_PITCH_STATUS, 0⟩ :: boxRegs) (456 :: srcs)

theorem mbOk_lt : mbOk < 256 := by decide

theorem load_ends {img : Option (List Byte)} {e : MbEnd} (h : boxReady s 0x10)
    (he : pitchLoad img ((s.at x).mbRunning tag) s.mbArgs = e)
    (ho : onlyRaising (s.loadRuns x tag) e.s [⟨.HUB_PITCH_STATUS, 0⟩] srcs) (hst : e.status < 256) :
    ∃ u, s.mbWhen x tag 0x10 (pitchLoad img) = .next u ∧ LoadEnd s tag e srcs u := by
  have hshown : onlyRaising ((s.at x).mbRunning tag) (s.loadRuns x tag) [⟨.HUB_PITCH_STATUS, 0⟩] srcs :=
    (State.pitchShown_only _).raising rfl
  obtain ⟨u, hu, hd, hk, hraise, hres⟩ := mbWhen_ends x tag h he (hshown.trans ho) (by simp) hst
  refine ⟨u, hu, hd, hk, fun f hf => ?_, fun k hk hf => hraise.evtStatus (by simp [hk]) hf, hres, ?_⟩
  · exact State.fld_of_reg (hraise.1 _ _ (by rw [hf]; decide) (by rw [hf]; rfl))
  · have hrun : onlyRaising (s.at x) (s.loadRuns x tag) (⟨.HUB_PITCH_STATUS, 0⟩ :: boxRegs) (456 :: srcs) :=
      ((s.loadRuns_only x tag).mono (by decide)).raising rfl
    exact .at (x := x) (hrun.trans ((ho.mono (by simp) (by simp)).trans (hraise.mono (by simp) (by simp))))

/-- A refusal reports its code and detail, and raises EV462. -/
theorem State.pitchRefuse_shows (r : State) (code detail : Nat) :
    (r.pitchRefuse code detail).fld Fld.HUB_PITCH_STATUS_RESULT 0 = code % 256 ∧
      (r.pitchRefuse code detail).fld Fld.HUB_PITCH_STATUS_DETAIL 0 = detail % 65536 ∧
      onlyRaising r (r.pitchRefuse code detail) [⟨.HUB_PITCH_STATUS, 0⟩] [462] ∧
      (r.fld Fld.EVT_ROUTE_KIND 462 ≠ 1 → (r.pitchRefuse code detail).evtStatus 462 = true) ∧
      Raises ((r.setFld Fld.HUB_PITCH_STATUS_RESULT 0 code).setFld Fld.HUB_PITCH_STATUS_DETAIL 0 detail)
        (r.pitchRefuse code detail) [462] := by
  obtain ⟨y, hy⟩ : ∃ y, y = (r.setFld Fld.HUB_PITCH_STATUS_RESULT 0 code).setFld Fld.HUB_PITCH_STATUS_DETAIL 0 detail :=
    ⟨_, rfl⟩
  have hr : Raises y (y.raise 462 1 code) [462] := State.raise_raises 462 1 code
  have hyon : onlyRaising r y [⟨.HUB_PITCH_STATUS, 0⟩] [462] := by
    rw [hy]
    exact .setFld (f := Fld.HUB_PITCH_STATUS_DETAIL) (.head _) rfl
      (.setFld (f := Fld.HUB_PITCH_STATUS_RESULT) (.head _) rfl (.refl _ _ _))
  rw [State.pitchRefuse, ← hy]
  refine ⟨?_, ?_, .raise (by simp) hyon, fun hk => State.raise_hubSource 1 code rfl ?_, hr⟩
  · rw [hr.fld _ _ rfl, hy, State.fld_setFld_apart _ _ _ _ _ _ (by decide)]
    exact State.fld_setFld_eq _ _ _ _ (by decide)
  · rw [hr.fld _ _ rfl, hy]
    exact State.fld_setFld_eq _ _ _ _ (by decide)
  · rw [State.fld_of_reg (hyon.1 _ _ (by simp) rfl)]
    exact hk

section
variable {img : List Byte} (hb : s.pitchBusy = false) (h64 : 64 ≤ argAt s.mbArgs 2)
  (hmax : argAt s.mbArgs 2 ≤ 1048576)
include hb h64 hmax

/-- A load of an image that was read: its verdict decides. -/
theorem pitchLoad_judges (m : State) (hm : m.pitchShown = s.loadRuns x tag) : pitchLoad (some img) m s.mbArgs =
    match s.judgeImage (img.take (argAt s.mbArgs 2)) with
    | .refuse code detail => pitchFail (s.loadRuns x tag) code detail
    | .accept hd rs =>
      if argAt s.mbArgs 3 % 2 = 1 then ⟨(s.loadRuns x tag).setFld Fld.HUB_PITCH_STATUS_RESULT 0 0, mbOk, []⟩
      else ⟨((s.loadRuns x tag).setFld Fld.HUB_PITCH_STATUS_RESULT 0 0).modPitch fun p =>
        { p with accepted := some (acceptedOf (img.take (argAt s.mbArgs 2)) hd rs (s.loadRuns x tag).time) }, mbOk, []⟩ := by
  have hj := s.loadRuns_judge x tag
  unfold pitchLoad
  dsimp only
  rw [hm, hj.pitchBusy, hb, if_neg Bool.false_ne_true, if_neg (by omega), hj.judge]
  rfl

variable (h : boxReady s 0x10)
include h

theorem mbPitchLoad_accepts {hd : List Byte} {rs : List ImgRec}
    (ha : s.judgeImage (img.take (argAt s.mbArgs 2)) = .accept hd rs) (h3 : argAt s.mbArgs 3 % 2 = 0) :
    ∃ u a, exec (.mbPitchLoad x tag (some img)) s = .next u ∧ u.pitch = { s.pitch with accepted := some a } ∧ a.hdr = hd ∧
      a.recs = rs ∧ a.at_ = (s.at x).time ∧ u.fld Fld.HUB_PITCH_STATUS_RESULT 0 = 0 ∧ boxDone s u tag mbOk ∧
      onlyRaising s u (⟨.HUB_PITCH_STATUS, 0⟩ :: boxRegs) [456] := by
  have he := pitchLoad_judges (x := x) (tag := tag) (img := img) hb h64 hmax ((s.at x).mbRunning tag) rfl
  rw [ha] at he
  dsimp only at he
  rw [if_neg (by omega)] at he
  have hset : onlyRaising (s.loadRuns x tag) ((s.loadRuns x tag).setFld Fld.HUB_PITCH_STATUS_RESULT 0 0)
      [⟨.HUB_PITCH_STATUS, 0⟩] [] := .setFld (f := Fld.HUB_PITCH_STATUS_RESULT) (.head _) rfl (.refl _ _ _)
  obtain ⟨u, hu, hl⟩ := load_ends h he (.of_eq rfl rfl hset) mbOk_lt
  refine ⟨u, acceptedOf (img.take (argAt s.mbArgs 2)) hd rs (s.loadRuns x tag).time, hu, ?_, rfl, rfl, ?_, ?_, hl.done,
    hl.only⟩
  · rw [hl.rest.pitch, ← (s.loadRuns_judge x tag).pitch]
    rfl
  · obtain ⟨_, hr⟩ := s.loadRuns_rest x tag
    exact (congrArg State.time hr).trans rfl
  · rw [hl.fld _ rfl]
    exact State.fld_setFld_of_lt _ _ _ (by decide) (by decide)

theorem dryRun_stops {hd : List Byte} {rs : List ImgRec}
    (ha : s.judgeImage (img.take (argAt s.mbArgs 2)) = .accept hd rs) (h3 : argAt s.mbArgs 3 % 2 = 1) :
    ∃ u, exec (.dryRun x tag (some img)) s = .next u ∧ u.pitch = s.pitch ∧ u.fld Fld.HUB_PITCH_STATUS_RESULT 0 = 0 ∧
      boxDone s u tag mbOk ∧ onlyRaising s u (⟨.HUB_PITCH_STATUS, 0⟩ :: boxRegs) [456] := by
  have he := pitchLoad_judges (x := x) (tag := tag) (img := img) hb h64 hmax ((s.at x).mbRunning tag) rfl
  rw [ha] at he
  dsimp only at he
  rw [if_pos h3] at he
  obtain ⟨u, hu, hl⟩ := load_ends (srcs := []) h he
    (.setFld (f := Fld.HUB_PITCH_STATUS_RESULT) (.head _) rfl (.refl _ _ _)) mbOk_lt
  refine ⟨u, ?_, ?_, ?_, hl.done, hl.only⟩
  · rw [exec, execDryRun, if_pos h3]
    exact hu
  · rw [hl.rest.pitch, ← (s.loadRuns_judge x tag).pitch]
    rfl
  · rw [hl.fld _ rfl]
    exact State.fld_setFld_of_lt _ _ _ (by decide) (by decide)

theorem mbPitchLoad_refuses {code detail : Nat}
    (ha : s.judgeImage (img.take (argAt s.mbArgs 2)) = .refuse code detail) :
    ∃ u, exec (.mbPitchLoad x tag (some img)) s = .next u ∧ u.pitch = s.pitch ∧
      u.fld Fld.HUB_PITCH_STATUS_RESULT 0 = code % 256 ∧ u.fld Fld.HUB_PITCH_STATUS_DETAIL 0 = detail % 65536 ∧
      u.reg .MGT_MB_RES 0 = w32 (code + detail * 65536) ∧ boxDone s u tag 0x40 ∧
      (s.fld Fld.EVT_ROUTE_KIND 462 ≠ 1 → u.evtStatus 462 = true) ∧
      onlyRaising s u (⟨.HUB_PITCH_STATUS, 0⟩ :: boxRegs) [456, 462] := by
  have he := pitchLoad_judges (x := x) (tag := tag) (img := img) hb h64 hmax ((s.at x).mbRunning tag) rfl
  rw [ha] at he
  dsimp only at he
  have hj := s.loadRuns_judge x tag
  obtain ⟨h1, h2, ho, hev, hr⟩ := (s.loadRuns x tag).pitchRefuse_shows code detail
  have hst : (pitchFail (s.loadRuns x tag) code detail).status < 256 := (by decide : 0x40 < 256)
  obtain ⟨u, hu, hl⟩ := load_ends h he ho hst
  refine ⟨u, hu, ?_, (hl.fld _ rfl).trans h1, (hl.fld _ rfl).trans h2, hl.res 0 Nat.one_pos (by decide), hl.done, fun hk => ?_,
    hl.only⟩
  · rw [hl.rest.pitch, ← hj.pitch]
    exact hr.pitch
  · rw [hl.status 462 (by decide) rfl]
    refine hev ?_
    rw [hj.fld (by decide) (by decide) rfl]
    exact hk

end

/-! ### MB_PITCH_STORE (R75) -/

theorem mbPitchStore_stores (h : boxReady s 0x11) (hb : s.pitchBusy = false) (h0 : argAt s.mbArgs 0 ≤ 1)
    (hp : s.pitched = true) (hf : s.fuse 7 % 2 = 0) :
    ∃ u, exec (.mbPitchStore x tag true) s = .next u ∧
      tget [] u.mgt.flash.images (argAt s.mbArgs 0) = s.storedImage ∧ u.pitch = s.pitch ∧
      u.fld Fld.HUB_PITCH_STATUS_RESULT 0 = 0 ∧ boxDone s u tag mbOk ∧
      onlyRaising s u (⟨.HUB_PITCH_STATUS, 0⟩ :: boxRegs) [456] := by
  obtain ⟨r, hr, hbox⟩ := box_runs x tag h (by decide)
  have hbusy : r.pitchBusy = false := by rw [State.pitchBusy, hr.pitch]; exact hb
  have hpit : r.pitched = true := by rw [State.pitched, hr.pitch]; exact hp
  have hfuse : r.fuse 7 % 2 = 0 := by rw [State.fuse, hr.mgt]; exact hf
  have himg : r.storedImage = s.storedImage := by
    rw [State.storedImage, State.storedImage, hr.flag _ _ (by decide), hr.pitch]
  have he : pitchStore true r s.mbArgs = ⟨(r.setSlot (argAt s.mbArgs 0) s.storedImage).setFld
      Fld.HUB_PITCH_STATUS_RESULT 0 0, mbOk, []⟩ := by
    unfold pitchStore
    dsimp only
    rw [hbusy, if_neg Bool.false_ne_true, if_neg (by omega), hpit, if_neg (by decide), if_neg (by omega), if_pos rfl, himg]
  have hset : onlyRaising r (r.setSlot (argAt s.mbArgs 0) s.storedImage) [⟨.HUB_PITCH_STATUS, 0⟩] [] :=
    .of_eq rfl rfl (.refl r _ _)
  obtain ⟨u, hu, he⟩ := hbox he (.setFld (f := Fld.HUB_PITCH_STATUS_RESULT) (.head _) rfl hset) (by decide) mbOk_lt
  refine ⟨u, hu, ?_, ?_, ?_, he.done, he.only (by simp) (by simp) (by simp) (by simp)⟩
  · rw [he.rest.flash]
    exact tget_tput_same _ _ _ _
  · rw [he.rest.pitch]
    exact hr.pitch
  · rw [he.fld _ _ (by decide) (by decide) rfl]
    exact State.fld_setFld_of_lt _ _ _ (by decide) (by decide)

theorem pitchCommandsReport_holds : pitchCommandsReport := fun _ _ _ _ =>
  ⟨fun h hb h64 hmax => ⟨fun _ _ ha => ⟨mbPitchLoad_accepts hb h64 hmax h ha, dryRun_stops hb h64 hmax h ha⟩,
    fun _ _ ha => mbPitchLoad_refuses hb h64 hmax h ha⟩, mbPitchStore_stores⟩

end Sys2Proof.Machine
end

section
/-! SUPPORT. What a tick turns on: local time, the frame, the pending STEP, the pitch, the roles of the twin link, and a few
registers and events. The other operations of a tick keep all of it; each has its lemma `…_core` below. -/

namespace Sys2Proof.Machine

variable {s t u : State}

/-- The part of the twin link's state that decides roles, failures and takeovers. -/
structure GlnCore where
  takeover : Bool
  declared : Bool
  rolePend : Option (Frame × Nat × Nat)
  deposed : Bool
  detachAt : Option (Frame × Nat)
  soloNext : Bool
  failCause : Nat
  beatAge : Nat
  downAge : Nat
  absentAge : Nat

def Gln.core (g : Gln) : GlnCore :=
  ⟨g.takeover, g.declared, g.rolePend, g.deposed, g.detachAt, g.soloNext, g.failCause, g.beatAge, g.downAge, g.absentAge⟩

/-- The registers that belong to the core of a tick. -/
def coreReg : RegName → Nat → Bool
  | .HUB_PITCH_STATUS, _ => true
  | .HUB_PITCH_PARTIAL, _ => true
  | .HUB_TICK_CFG, _ => true
  | .HUB_TICK_STATUS, _ => true
  | .HUB_BOOT_STATUS, _ => true
  | .GLN_STATUS, _ => true
  | .GLN_CFG, _ => true
  | .GLN_FAIL, _ => true
  | .EVT_STATUS, _ => true
  | .EVT_ROUTE, i => decide (i = 36 ∨ i = 57 ∨ i = 58)
  | _, _ => false

/-- The events that belong to it. -/
def coreEvent (k : Nat) : Bool := decide (k = 36 ∨ k = 57 ∨ k = 58)

/-- The registers of the core. -/
def coreRegs (m : List (Reg × Word)) : RegName → Nat → Word := fun n i =>
  if coreReg n i && n != .EVT_STATUS then rget m ⟨n, i⟩ else 0

def coreEvents (m : List (Reg × Word)) : Nat → Bool := fun k => coreEvent k && statusIn m k

structure TickCore where
  time : Tu
  frame : Frame
  issued : Bool
  step : Option Int
  stepFrame : Option Frame
  pitch : Pitch
  gln : GlnCore
  regs : RegName → Nat → Word
  events : Nat → Bool

/-- The core of a state. -/
def State.tickCore (s : State) : TickCore :=
  ⟨s.time, s.frame, s.tick.issued, s.tlk.step, s.tlk.stepFrame, s.pitch, s.gln.core, coreRegs s.regs, coreEvents s.regs⟩

/-! ### The forms that operations stand in -/

theorem core_mk (regs latch time frame mem masks bins dir dirSeq tick pitch clk tlk spll pll afe lanes comps gens
    trigOut trigIn regions red sync planes maskFire xtrigCycle snaps tic pmu ras dma evt gln mgt pwr dia free out
    pending) :
    (State.mk regs latch time frame mem masks bins dir dirSeq tick pitch clk tlk spll pll afe lanes comps gens
      trigOut trigIn regions red sync planes maskFire xtrigCycle snaps tic pmu ras dma evt gln mgt pwr dia free out
      pending).tickCore = ⟨time, frame, tick.issued, tlk.step, tlk.stepFrame, pitch, gln.core, coreRegs regs, coreEvents regs⟩ :=
  rfl

theorem core_fold (s : State) : TickCore.mk s.time s.frame s.tick.issued s.tlk.step s.tlk.stepFrame s.pitch s.gln.core
    (coreRegs s.regs) (coreEvents s.regs) = s.tickCore := rfl

theorem gln_core_mk (attach rolePend incumbent ofs inRun outRun beatAge downAge absentAge failCause takeover takeOwed deposed
    detachAt soloNext seqTx seqRx own partner segOpened fires chan partnerIdle declared skip waiting) :
    (Gln.mk attach rolePend incumbent ofs inRun outRun beatAge downAge absentAge failCause takeover takeOwed deposed
      detachAt soloNext seqTx seqRx own partner segOpened fires chan partnerIdle declared skip waiting).core =
    ⟨takeover, declared, rolePend, deposed, detachAt, soloNext, failCause, beatAge, downAge, absentAge⟩ := rfl

theorem gln_core_fold (g : Gln) : GlnCore.mk g.takeover g.declared g.rolePend g.deposed g.detachAt g.soloNext g.failCause
    g.beatAge g.downAge g.absentAge = g.core := rfl

theorem ite_core {c : Prop} [Decidable c] (a b : State) :
    (if c then a else b).tickCore = if c then a.tickCore else b.tickCore := by split <;> rfl

theorem ite_core_eq {c : Prop} [Decidable c] {a b : State} {k : TickCore} (ha : a.tickCore = k) (hb : b.tickCore = k) :
    (if c then a else b).tickCore = k := by split <;> assumption

theorem ite_fst_core {α : Type} {c : Prop} [Decidable c] (a b : State × α) :
    (if c then a else b).1.tickCore = if c then a.1.tickCore else b.1.tickCore := by split <;> rfl

theorem foldl_core {α : Type} {f : State → α → State} (hf : ∀ a x, (f a x).tickCore = a.tickCore) (l : List α) (s : State) :
    (l.foldl f s).tickCore = s.tickCore := foldl_keeps (fun s => s.tickCore) hf l s

theorem foldl_fst_core {α β : Type} {f : State × β → α → State × β} (hf : ∀ a b x, (f (a, b) x).1.tickCore = a.tickCore)
    (l : List α) (s : State) (b : β) : (l.foldl f (s, b)).1.tickCore = s.tickCore := by
  induction l generalizing s b with
  | nil => rfl
  | cons x l ih => exact (ih (f (s, b) x).1 (f (s, b) x).2).trans (hf s b x)

theorem each_core {n : Nat} {f : State → Nat → State} (hf : ∀ a x, (f a x).tickCore = a.tickCore) (s : State) :
    (s.each n f).tickCore = s.tickCore := foldl_core hf _ s

/-! ### Registers and raises -/

theorem core_of_reg (hr : ∀ n i, coreReg n i = true → t.reg n i = s.reg n i)
    (h : t = { s with regs := t.regs }) : t.tickCore = s.tickCore := by
  have hregs : coreRegs t.regs = coreRegs s.regs := by
    funext n i
    unfold coreRegs
    split
    · next hc =>
      have hg : rget t.regs ⟨n, i⟩ = rget s.regs ⟨n, i⟩ := hr n i ((Bool.and_eq_true _ _).mp hc).1
      rw [hg]
    · rfl
  have hev : coreEvents t.regs = coreEvents s.regs := by
    funext k
    exact congrArg (coreEvent k && ·) (State.evtStatus_of_reg fun i => hr .EVT_STATUS i rfl)
  rw [h]
  simp only [State.tickCore, hregs, hev]

/-- What a write of a register of the core leaves. -/
def State.coreSet (s : State) (n : RegName) (i : Nat) (v : Word) : TickCore := (s.setReg n i v).tickCore

theorem State.setReg_core (s : State) (n : RegName) (i : Nat) (v : Word) :
    (s.setReg n i v).tickCore = if coreReg n i then s.coreSet n i v else s.tickCore := by
  split
  · rfl
  · next h =>
    refine core_of_reg (fun m j hc => State.reg_setReg_other _ _ _ _ fun hh => h ?_) rfl
    rw [← hh.1, ← hh.2]
    exact hc

theorem State.setReg_core_of {n : RegName} {i : Nat} (hn : coreReg n i = false) (s : State) (v : Word) :
    (s.setReg n i v).tickCore = s.tickCore := by rw [State.setReg_core, hn, if_neg Bool.false_ne_true]

theorem State.setFld_core (s : State) (f : Fld) (i x : Nat) :
    (s.setFld f i x).tickCore = if coreReg f.reg i then s.coreSet f.reg i (putBits (s.reg f.reg i) f.lsb f.width x)
      else s.tickCore := s.setReg_core _ _ _

theorem State.bump_core (s : State) (f : Fld) (i n : Nat) :
    (s.bump f i n).tickCore = if coreReg f.reg i then
      s.coreSet f.reg i (putBits (s.reg f.reg i) f.lsb f.width (min (s.fld f i + n) (2 ^ f.width - 1))) else s.tickCore :=
  s.setFld_core _ _ _

theorem eventReg_of_core {n : RegName} {i : Nat} (hc : coreReg n i = true) (he : n ≠ .EVT_STATUS) : eventReg n = false := by
  unfold eventReg
  split
  · exact absurd rfl he
  iterate 7 exact absurd hc Bool.false_ne_true
  · rfl

theorem Raises.sameCoreRegs {ns : List Nat} (h : Raises s t ns) : coreRegs t.regs = coreRegs s.regs := by
  funext n i
  unfold coreRegs
  split
  · next hc =>
    obtain ⟨h1, h2⟩ := (Bool.and_eq_true _ _).mp hc
    exact h.reg n i (eventReg_of_core h1 (bne_iff_ne.1 h2))
  · rfl

theorem Raises.sameCoreEvents {ns : List Nat} (h : Raises s t ns) {k : Nat} (hk : k ∉ ns) : coreEvents t.regs k = coreEvents s.regs k :=
  congrArg (coreEvent k && ·) (h.evtStatus hk)

/-- A raise changes the events of a core. -/
theorem Raises.core_events {ns : List Nat} (h : Raises s t ns) :
    t.tickCore = { s.tickCore with events := coreEvents t.regs } := by
  have hregs := h.sameCoreRegs
  obtain ⟨_, _, _, _, _, _, _, _, _, _, _, rfl⟩ := h.rest
  exact congrArg (fun r => (⟨s.time, s.frame, s.tick.issued, s.tlk.step, s.tlk.stepFrame, s.pitch, s.gln.core, r, _⟩ : TickCore)) hregs

theorem Raises.core {ns : List Nat} (h : Raises s t ns) (hn : ∀ k ∈ ns, coreEvent k = false) : t.tickCore = s.tickCore := by
  have hev : coreEvents t.regs = coreEvents s.regs := funext fun k => by
    by_cases hk : k ∈ ns
    · unfold coreEvents
      rw [hn k hk]
      rfl
    · exact h.sameCoreEvents hk
  rw [h.core_events, hev]
  rfl

/-- What a raise of an event of the core leaves. -/
def State.coreRaise (s : State) (n causes info : Nat) : TickCore := (s.raise n causes info).tickCore

theorem State.raise_core (s : State) (n causes info : Nat) :
    (s.raise n causes info).tickCore = if coreEvent n then s.coreRaise n causes info else s.tickCore := by
  split
  · rfl
  · next h =>
    exact (State.raise_raises n causes info).core fun k hk => by rw [List.mem_singleton.1 hk]; exact Bool.eq_false_iff.2 h

theorem State.raise0_core (s : State) (n : Nat) :
    (s.raise0 n).tickCore = if coreEvent n then s.coreRaise n 1 0 else s.tickCore := s.raise_core n 1 0

/-- What a write of a pair of the core leaves. -/
def State.coreSetPair (s : State) (lo hi : RegName) (i : Nat) (v : Tu) : TickCore := (s.setPair lo hi i v).tickCore

theorem State.setPair_core (s : State) (lo hi : RegName) (i : Nat) (v : Tu) :
    (s.setPair lo hi i v).tickCore = if coreReg lo i || coreReg hi i then s.coreSetPair lo hi i v else s.tickCore := by
  split
  · rfl
  · next h =>
    rw [Bool.not_eq_true, Bool.or_eq_false_iff] at h
    rw [State.setPair, State.setReg_core, if_neg (by rw [h.2]; decide), State.setReg_core, if_neg (by rw [h.1]; decide)]

theorem State.setFrame_core (s : State) (lo hi : RegName) (i : Nat) (v : Frame) :
    (s.setFrame lo hi i v).tickCore = if coreReg lo i || coreReg hi i then s.coreSetPair lo hi i (v.setWidth 64)
      else s.tickCore := s.setPair_core _ _ _ _

theorem State.bumpMod_core (s : State) (f : Fld) (i n : Nat) :
    (s.bumpMod f i n).tickCore = if coreReg f.reg i then
      s.coreSet f.reg i (putBits (s.reg f.reg i) f.lsb f.width ((s.fld f i + n) % 2 ^ f.width)) else s.tickCore :=
  s.setFld_core _ _ _

/-- What a counted raise of the core leaves. -/
def State.coreBumpRaise (s : State) (f : Fld) (i n causes info : Nat) : TickCore := (s.bumpRaise f i n causes info).tickCore

theorem State.bumpRaise_core (s : State) (f : Fld) (i n causes info : Nat) :
    (s.bumpRaise f i n causes info).tickCore = if coreReg f.reg i || coreEvent n then s.coreBumpRaise f i n causes info
      else s.tickCore := by
  split
  · rfl
  · next h =>
    rw [Bool.not_eq_true, Bool.or_eq_false_iff] at h
    have hb : (s.bump f i 1).tickCore = s.tickCore := by rw [State.bump_core, if_neg (by rw [h.1]; decide)]
    unfold State.bumpRaise
    dsimp only
    split
    · rw [State.raise_core, if_neg (by rw [h.2]; decide), hb]
    · exact hb

/-! ### Events of units lie above those of the core -/

theorem coreEvent_add {n : Nat} (k : Nat) (h : 58 < n) : coreEvent (n + k) = false := decide_eq_false (by omega)

theorem State.raise_core_add (s : State) {n : Nat} (k causes info : Nat) (h : 58 < n) :
    (s.raise (n + k) causes info).tickCore = s.tickCore := by
  rw [State.raise_core, coreEvent_add k h, if_neg Bool.false_ne_true]

theorem State.raise0_core_add (s : State) {n : Nat} (k : Nat) (h : 58 < n) :
    (s.raise0 (n + k)).tickCore = s.tickCore := s.raise_core_add k 1 0 h

theorem State.bumpRaise_core_add (s : State) (f : Fld) (i : Nat) {n : Nat} (k causes info : Nat) (h : 58 < n) :
    (s.bumpRaise f i (n + k) causes info).tickCore = if coreReg f.reg i then s.coreBumpRaise f i (n + k) causes info
      else s.tickCore := by
  rw [State.bumpRaise_core, coreEvent_add k h, Bool.or_false]

/-! ### Fields of a core -/

/-- A field of the core. -/
def TickCore.fld (k : TickCore) (f : Fld) (i : Nat) : Nat := getBits (k.regs f.reg i) f.lsb f.width

/-- The core with a field written. -/
def TickCore.put (k : TickCore) (f : Fld) (i x : Nat) : TickCore :=
  { k with regs := fun n j => if n = f.reg ∧ j = i then putBits (k.regs n j) f.lsb f.width x else k.regs n j }

theorem State.fld_core (s : State) {f : Fld} {i : Nat} (hc : coreReg f.reg i = true) (he : (f.reg != .EVT_STATUS) = true) :
    s.fld f i = s.tickCore.fld f i := by
  unfold TickCore.fld State.tickCore coreRegs
  dsimp only
  rw [hc, he]
  rfl

theorem State.setFld_put (s : State) {f : Fld} {i : Nat} (x : Nat) (hc : coreReg f.reg i = true) (he : (f.reg != .EVT_STATUS) = true) :
    (s.setFld f i x).tickCore = s.tickCore.put f i x := by
  refine congrArg₂ (fun r e => (⟨s.time, s.frame, s.tick.issued, s.tlk.step, s.tlk.stepFrame, s.pitch, s.gln.core, r, e⟩ : TickCore))
    (funext fun n => funext fun j => ?_) (funext fun k => ?_)
  · dsimp only [State.tickCore, coreRegs]
    by_cases hr : n = f.reg ∧ j = i
    · obtain ⟨rfl, rfl⟩ := hr
      simp only [hc, he, Bool.and_self, if_true, and_self]
      exact State.reg_setReg_same _ _ _ _
    · have hg : rget (s.setFld f i x).regs ⟨n, j⟩ = rget s.regs ⟨n, j⟩ :=
        State.reg_setReg_other _ _ _ _ fun hh => hr hh
      rw [hg, if_neg hr]
  · exact congrArg (coreEvent k && ·) (State.evtStatus_of_reg fun i => State.reg_setFld_ne _ _ _ _ _ _ (Ne.symm (bne_iff_ne.1 he)))

theorem TickCore.fld_put_same (k : TickCore) (f : Fld) (i x : Nat) (h : f.lsb + f.width ≤ 32) :
    (k.put f i x).fld f i = x % 2 ^ f.width := by
  unfold TickCore.fld TickCore.put
  dsimp only
  rw [if_pos ⟨rfl, rfl⟩]
  exact getBits_putBits_same _ _ _ _ h

theorem TickCore.fld_put_ne (k : TickCore) (f : Fld) (i x : Nat) (g : Fld) (j : Nat)
    (h : g.reg ≠ f.reg ∨ j ≠ i ∨ g.lsb + g.width ≤ f.lsb ∨ f.lsb + f.width ≤ g.lsb) : (k.put f i x).fld g j = k.fld g j := by
  unfold TickCore.fld TickCore.put
  dsimp only
  split
  · next hc =>
    obtain h | h | h := h
    · exact absurd hc.1 h
    · exact absurd hc.2 h
    · exact getBits_putBits_other _ _ _ _ _ _ h
  · rfl

end Sys2Proof.Machine
end

section
/-! SUPPORT. Operations that leave the core of a tick: queues and the front ends. -/

namespace Sys2Proof.Machine

/-! ### Registers -/

/-- Of a register array either no register, or the one of event 36 among others, belongs to the core. -/
theorem coreReg_some {n : RegName} {i : Nat} (h : coreReg n i = true) : coreReg n 36 = true := by
  unfold coreReg at h
  split at h
  iterate 10 exact rfl
  · exact absurd h Bool.false_ne_true

theorem State.resetRegs_core (s : State) (names : List RegName) (p : Nat → Bool) (hn : (names.all fun n => !coreReg n 36) =
    true) :
    (s.resetRegs names p).tickCore = s.tickCore := by
  refine core_of_reg (fun n i hc => ?_) rfl
  refine rget_filter (m := s.regs) (p := fun r => !(names.contains r.n && p r.i)) ?_
  have hnot : n ∉ names := fun hm => by
    have := List.all_eq_true.1 hn n hm
    rw [coreReg_some hc] at this
    exact Bool.noConfusion this
  rw [List.contains_eq_mem, decide_eq_false hnot]
  rfl

/-! ### What leaves the device, and what the manual leaves open -/

theorem State.emit_core (s : State) (o : Out) : (s.emit o).tickCore = s.tickCore := by
  simp only [State.emit, core_mk, core_fold]

theorem State.used_core (s : State) : s.used.tickCore = s.tickCore := by
  simp only [State.used, core_mk, core_fold]

/-! ### The units of the state, each by its number -/

theorem State.modQueue_core (s : State) (q : Nat) (f : Queue → Queue) : (s.modQueue q f).tickCore = s.tickCore := by
  simp only [State.modQueue, core_mk, core_fold]

theorem State.modLane_core (s : State) (n : Nat) (f : Lane → Lane) : (s.modLane n f).tickCore = s.tickCore := by
  simp only [State.modLane, core_mk, core_fold]

theorem State.modAfe_core (s : State) (ch : Nat) (f : Afe → Afe) : (s.modAfe ch f).tickCore = s.tickCore := by
  simp only [State.modAfe, core_mk, core_fold]

theorem State.modSpll_core (s : State) (e : Nat) (f : Spll → Spll) : (s.modSpll e f).tickCore = s.tickCore := by
  simp only [State.modSpll, core_mk, core_fold]

theorem State.modGen_core (s : State) (g : Nat) (f : Gen → Gen) : (s.modGen g f).tickCore = s.tickCore := by
  simp only [State.modGen, core_mk, core_fold]

theorem State.modRegion_core (s : State) (m : Nat) (f : Region → Region) : (s.modRegion m f).tickCore = s.tickCore := by
  simp only [State.modRegion, core_mk, core_fold]

theorem State.modRed_core (s : State) (u : Nat) (f : Red → Red) : (s.modRed u f).tickCore = s.tickCore := by
  simp only [State.modRed, core_mk, core_fold]

theorem State.modTic_core (s : State) (i : Nat) (f : Tic → Tic) : (s.modTic i f).tickCore = s.tickCore := by
  simp only [State.modTic, core_mk, core_fold]

theorem State.modMc_core (s : State) (x : Nat) (f : Mc → Mc) : (s.modMc x f).tickCore = s.tickCore := by
  simp only [State.modMc, core_mk, core_fold]

/-! ### Trigger outputs -/

theorem State.addPulse_core (s : State) (i : Nat) (edge : Tu) : (s.addPulse i edge).tickCore = s.tickCore := by
  simp only [State.addPulse, State.bump_core, core_mk, core_fold, ite_core, ite_self, coreReg, Bool.false_eq_true, if_false,
    Fld.HUB_TRIG_OUT_CFG_POL, Fld.HUB_TRIG_OUT_MERGED_COUNT]

theorem State.firePulse_core (s : State) (i : Nat) (tts : Tu) : (s.firePulse i tts).tickCore = s.tickCore := by
  simp only [State.firePulse, State.addPulse_core, Fld.HUB_TRIG_OUT_CFG_DELAY]

/-! ### Delivery -/

theorem State.tlkSend_core (s : State) (m : BitVec 64) : (s.tlkSend m).tickCore = s.tickCore := by
  simp only [State.tlkSend, State.emit_core, ite_core, ite_self]

/-! ### Rings and completions -/

theorem State.setQState_core (s : State) (q x : Nat) : (s.setQState q x).tickCore = s.tickCore := by
  simp only [State.setQState, State.setFld_core, coreReg, Bool.false_eq_true, if_false, Fld.DMA_Q_STATUS_STATE]

theorem State.qEvent_core (s : State) (q bit : Nat) : (s.qEvent q bit).tickCore = s.tickCore := by
  exact State.raise_core_add _ _ _ _ (by decide)

theorem State.complete_core (s : State) (q : Nat) (accept : Frame) (bytes ofs status : Nat) (last : Frame) :
    (s.complete q accept bytes ofs status last).tickCore = s.tickCore := by
  simp only [State.complete, State.emit_core, State.modQueue_core, State.setFld_core, State.bump_core, ite_core, ite_self,
    coreReg, Bool.false_eq_true, if_false, Fld.DMA_Q_CPL_WR_INDEX, Fld.DMA_Q_LATE_COUNT]

theorem State.addLost_core (s : State) (q n : Nat) : (s.addLost q n).tickCore = s.tickCore := by
  simp only [State.addLost, State.setPair_core, Bool.or_self, coreReg, Bool.false_eq_true, if_false]

theorem State.recordOrLose_core (s : State) (q : Nat) (accept : Frame) (bytes ofs status : Nat) (last : Frame) :
    (s.recordOrLose q accept bytes ofs status last).tickCore = s.tickCore := by
  simp only [State.recordOrLose, State.addLost_core, State.complete_core, ite_core, ite_self]

theorem State.syncStaged_core (s : State) (q : Nat) : (s.syncStaged q).tickCore = s.tickCore := by
  simp only [State.syncStaged, State.setFld_core, coreReg, Bool.false_eq_true, if_false, Fld.DMA_Q_STAGED_BYTES]

theorem State.syncInflight_core (s : State) : s.syncInflight.tickCore = s.tickCore := by
  simp only [State.syncInflight, State.setFld_core, coreReg, Bool.false_eq_true, if_false, Fld.DMA_GLOBAL_STATUS_INFLIGHT]

/-! ### Entering and leaving the states of Table HST-5 -/

theorem State.qError_core (s : State) (q cause : Nat) : (s.qError q cause).tickCore = s.tickCore := by
  simp only [State.qError, State.modQueue_core, State.qEvent_core, State.setQState_core, State.setFld_core, coreReg,
    Bool.false_eq_true, if_false, Fld.DMA_Q_STATUS_CAUSE]

theorem State.enableStream_core (s : State) (host : List HostRead) (q : Nat) : (s.enableStream host q).tickCore = s.tickCore := by
  unfold State.enableStream
  refine ite_core_eq (State.qError_core _ _ _) ?_
  split
  · exact State.qError_core _ _ _
  split
  · rw [State.qError_core, State.recordOrLose_core]
  · simp only [State.modQueue_core, State.qError_core, State.setQState_core, State.syncInflight_core, State.setFld_core,
    ite_core, ite_self, coreReg, Bool.false_eq_true, if_false, Fld.DMA_Q_HEAD_INDEX, Fld.DMA_Q_STATUS_CAUSE,
    Fld.DMA_Q_WR_OFS_OFS]

theorem State.beginDrain_core (s : State) (q : Nat) : (s.beginDrain q).tickCore = s.tickCore := by
  simp only [State.beginDrain, State.modQueue_core, State.setQState_core, ite_core, ite_self]

theorem State.commitEn_core (s : State) (host : List HostRead) (q : Nat) (en : Bool) :
    (s.commitEn host q en).tickCore = s.tickCore := by
  simp only [State.commitEn, State.beginDrain_core, State.enableStream_core, State.modQueue_core, State.setQState_core,
    State.setFld_core, ite_core, ite_self, coreReg, Bool.false_eq_true, if_false, Fld.DMA_Q_STATUS_CAUSE]

/-! ### Acceptance -/

theorem State.produce_core (s : State) (kind unit : Nat) (bytes : List Byte) (t : Tu) :
    (s.produce kind unit bytes t).tickCore = s.tickCore := by
  simp only [State.produce, each_core, implies_true, core_mk, core_fold, ite_core, ite_self]

theorem State.stageMem_core (s : State) (q : Nat) (bytes : List Byte) : (s.stageMem q bytes).tickCore = s.tickCore := by
  unfold State.stageMem
  dsimp only
  repeat' split
  all_goals simp only [State.modQueue_core, core_mk, core_fold]

theorem State.stage_core (s : State) (q : Nat) (bytes : List Byte) : (s.stage q bytes).tickCore = s.tickCore := by
  simp only [State.stage, State.modQueue_core, State.qEvent_core, State.stageMem_core, State.syncStaged_core, State.raise_core,
    ite_core, ite_self, coreEvent, Bool.false_eq_true, if_false, Nat.reduceEqDiff, or_self, decide_false,
    Fld.DMA_Q_DELIV_FULL_POLICY]

theorem State.stageDue_core (s : State) : s.stageDue.tickCore = s.tickCore := by
  simp only [State.stageDue, State.stage_core, foldl_core, implies_true, core_mk, core_fold]

/-! ### Stalls of the host -/

theorem State.shareViol_core (s : State) (n : Nat) : (s.shareViol n).tickCore = s.tickCore := by
  simp only [State.shareViol, State.bump_core, State.raise_core, ite_core, ite_self, coreReg, coreEvent, Bool.false_eq_true,
    if_false, Nat.reduceEqDiff, or_self, decide_false, Fld.HUB_HOST_STALL_VIOL_COUNT]

theorem State.stallMax_core (s : State) (n : Nat) : (s.stallMax n).tickCore = s.tickCore := by
  simp only [State.stallMax, State.setFld_core, State.raise_core, ite_core, ite_self, coreReg, coreEvent, Bool.false_eq_true,
    if_false, Nat.reduceEqDiff, or_self, decide_false, Fld.HUB_HOST_BUDGET_STALL_MAX, Fld.HUB_HOST_STALL_MAX_NS]

theorem State.stalled_core (s : State) (a : Tu) : (s.stalled a).tickCore = s.tickCore := by
  simp only [State.stalled, State.shareViol_core, State.stallMax_core, core_mk, core_fold]

theorem State.noteBlocked_core (s : State) : s.noteBlocked.tickCore = s.tickCore := by
  unfold State.noteBlocked
  dsimp only
  repeat' split
  all_goals simp only [State.stalled_core, core_mk, core_fold]

theorem State.stallTick_core (s : State) : s.stallTick.tickCore = s.tickCore := by
  unfold State.stallTick
  dsimp only
  repeat' split
  all_goals simp only [State.shareViol_core, State.stallMax_core, core_mk, core_fold]

/-! ### Abort -/

theorem State.abortRecord_core (s : State) (q : Nat) : (s.abortRecord q).tickCore = s.tickCore := by
  unfold State.abortRecord
  dsimp only
  repeat' split
  all_goals simp only [State.recordOrLose_core, State.used_core, Fld.DMA_Q_WR_OFS_OFS]

theorem State.abortXfers_core (s : State) (q : Nat) : (s.abortXfers q).tickCore = s.tickCore := by
  simp only [State.abortXfers, State.recordOrLose_core, foldl_core, implies_true]

/-! ### The tick -/

theorem State.refetch_core (s : State) (host : List HostRead) (q : Nat) : (s.refetch host q).tickCore = s.tickCore := by
  unfold State.refetch
  split
  · rfl
  split
  · exact ite_core_eq rfl rfl
  · exact ite_core_eq (State.qEvent_core _ _ _) rfl

theorem State.closeFrame_core (s : State) (q : Nat) : (s.closeFrame q).tickCore = s.tickCore := by
  simp only [State.closeFrame, State.modQueue_core]

theorem State.discardCovered_core (s : State) (q : Nat) : (s.discardCovered q).tickCore = s.tickCore := by
  simp only [State.discardCovered, State.modQueue_core, State.syncStaged_core]

theorem State.lateCheck_core (s : State) (q : Nat) : (s.lateCheck q).tickCore = s.tickCore := by
  simp only [State.lateCheck, State.qEvent_core, ite_core, ite_self, Fld.DMA_Q_DELIV_LAT_CLASS]

theorem State.fullCheck_core (s : State) (q : Nat) : (s.fullCheck q).tickCore = s.tickCore := by
  simp only [State.fullCheck, State.modQueue_core, State.qEvent_core, State.setQState_core, ite_core, ite_self]

theorem State.cplCheck_core (s : State) (q : Nat) : (s.cplCheck q).tickCore = s.tickCore := by
  simp only [State.cplCheck, State.modQueue_core, State.qEvent_core, ite_core, ite_self, Fld.DMA_Q_CTRL_CPL_FRAMES,
    Fld.DMA_Q_CTRL_CPL_N]

theorem State.queueTick_core (s : State) (host : List HostRead) (fresh : List Nat) (q : Nat) :
    (s.queueTick host fresh q).tickCore = s.tickCore := by
  simp only [State.queueTick, State.closeFrame_core, State.cplCheck_core, State.discardCovered_core, State.fullCheck_core,
    State.lateCheck_core, State.refetch_core, ite_core, ite_self]

/-! ### The analog front ends -/

theorem State.settle_core (s : State) (ch n : Nat) : (s.settle ch n).tickCore = s.tickCore := by
  simp only [State.settle, State.modAfe_core, State.setFld_core, coreReg, Bool.false_eq_true, if_false, Fld.AFE_STATUS_SETTLING]

end Sys2Proof.Machine
end

section
/-! SUPPORT. Operations that leave the core of a tick: lanes, sample grids and regions. -/

namespace Sys2Proof.Machine

/-! ### The mailbox protocol -/

theorem State.mbDone_core (s : State) (status : Nat) (res : List Word) : (s.mbDone status res).tickCore = s.tickCore := by
  simp only [State.mbDone, State.setReg_core, State.setFld_core, State.raise_core, each_core, implies_true, core_mk, core_fold,
    coreReg, coreEvent, Bool.false_eq_true, if_false, Nat.reduceEqDiff, or_self, decide_false, Fld.MGT_MB_STATE_STATE,
    Fld.MGT_MB_STATE_STATUS]

/-! ### Groups -/

theorem State.ilvEvent_core (s : State) (ln k : Nat) : (s.ilvEvent ln k).tickCore = s.tickCore := by
  rw [State.ilvEvent, Nat.add_assoc]
  exact State.raise_core_add _ _ _ _ (by decide)

/-! ### The dwell -/

theorem State.startDwell_core (s : State) (ln : Nat) (t : Tu) : (s.startDwell ln t).tickCore = s.tickCore := by
  simp only [State.startDwell, State.modLane_core, State.setFld_core, coreReg, Bool.false_eq_true, if_false,
    Fld.ILV_LANE_STATUS_PHASE]

theorem State.restartDwell_core (s : State) (ln : Nat) : (s.restartDwell ln).tickCore = s.tickCore := by
  simp only [State.restartDwell, State.startDwell_core]

theorem State.abandonDwell_core (s : State) (ln : Nat) : (s.abandonDwell ln).tickCore = s.tickCore := by
  simp only [State.abandonDwell, State.modLane_core, State.setFld_core, coreReg, Bool.false_eq_true, if_false,
    Fld.ILV_LANE_STATUS_PAUSED, Fld.ILV_LANE_STATUS_PHASE]

theorem State.pauseLanes_core (s : State) (e : Nat) : (s.pauseLanes e).tickCore = s.tickCore := by
  simp only [State.pauseLanes, State.abandonDwell_core, each_core, implies_true, ite_core, ite_self]

theorem State.stepLanes_core (s : State) : s.stepLanes.tickCore = s.tickCore := by
  simp only [State.stepLanes, State.restartDwell_core, State.setFld_core, each_core, implies_true, ite_core, ite_self, coreReg,
    Bool.false_eq_true, if_false, Fld.ILV_LANE_STATUS_ROT_COUNT]

theorem State.makeStale_core (s : State) (ln : Nat) : (s.makeStale ln).tickCore = s.tickCore := by
  simp only [State.makeStale, State.modLane_core, State.setFld_core, ite_core, ite_self, coreReg, Bool.false_eq_true, if_false,
    Fld.ILV_LANE_STATUS_CAL_STALE, Fld.ILV_LANE_STATUS_ROT_COUNT]

theorem State.clearStale_core (s : State) (ln : Nat) : (s.clearStale ln).tickCore = s.tickCore := by
  simp only [State.clearStale, State.ilvEvent_core, State.modLane_core, State.setFld_core, ite_core, ite_self, coreReg,
    Bool.false_eq_true, if_false, Fld.ILV_LANE_STATUS_CAL_STALE]

theorem State.handover_core (s : State) (ln : Nat) (frame : Frame) (t : Tu) : (s.handover ln frame t).tickCore = s.tickCore := by
  unfold State.handover
  dsimp only
  simp only [State.clearStale_core, State.startDwell_core, State.modLane_core, State.setFrame_core, State.setFld_core,
    posFld_reg, coreReg,
    Fld.ILV_CAL_RATE_RATE, Fld.ILV_LANE_STATUS_SPARE, Fld.ILV_LANE_STATUS_ROT_COUNT, Bool.or_self, Bool.false_eq_true, if_false,
      ite_core,
    ite_self]

theorem State.applyUpdates_core (s : State) (ln : Nat) : (s.applyUpdates ln).tickCore = s.tickCore := by
  simp only [State.applyUpdates, State.modLane_core]

theorem State.applyRestore_core (s : State) (ln : Nat) : (s.applyRestore ln).tickCore = s.tickCore := by
  unfold State.applyRestore
  dsimp only
  repeat' split
  all_goals simp only [State.clearStale_core, State.modLane_core]

theorem State.laneTick_core (s : State) (ln : Nat) : (s.laneTick ln).tickCore = s.tickCore := by
  simp only [State.laneTick, State.applyRestore_core, State.applyUpdates_core, State.restartDwell_core, ite_core, ite_self]

theorem State.handovers_core (s : State) : s.handovers.tickCore = s.tickCore := by
  simp only [State.handovers, State.handover_core, each_core, implies_true, ite_core, ite_self]

/-! ### FREEZE -/

theorem State.freezeLane_core (s : State) (ln : Nat) (on : Bool) : (s.freezeLane ln on).tickCore = s.tickCore := by
  simp only [State.freezeLane, State.modLane_core, State.restartDwell_core, State.setFld_core, ite_core, ite_self, coreReg,
    Bool.false_eq_true, if_false, Fld.ILV_LANE_STATUS_FROZEN, Fld.ILV_LANE_STATUS_PHASE]

/-! ### Front-end commits -/

theorem State.commitAfeCfg_core (s : State) (ch : Nat) (v : Word) : (s.commitAfeCfg ch v).tickCore = s.tickCore := by
  simp only [State.commitAfeCfg, State.restartDwell_core, State.settle_core, State.setFld_core, foldl_core, implies_true,
    ite_core, ite_self, coreReg, Bool.false_eq_true, if_false, Fld.AFE_CFG_FILTER, Fld.AFE_CFG_RANGE]

theorem State.commitAfeOffset_core (s : State) (ch : Nat) (v : Word) : (s.commitAfeOffset ch v).tickCore = s.tickCore := by
  simp only [State.commitAfeOffset, State.settle_core, State.setFld_core, ite_core, ite_self, coreReg, Bool.false_eq_true,
    if_false, Fld.AFE_OFFSET_VALUE]

/-! ### The sample grid -/

theorem State.ofsHold_core (s : State) (e : Nat) : (s.ofsHold e).tickCore = s.tickCore := by
  simp only [State.ofsHold, State.modSpll_core, State.setFld_core, coreReg, Bool.false_eq_true, if_false,
    Fld.PLL_SPLL_STATUS_OFS_NOW]

theorem State.endMove_core (s : State) (e : Nat) : (s.endMove e).tickCore = s.tickCore := by
  simp only [State.endMove, State.modSpll_core]

theorem State.align_core (s : State) (e : Nat) (on : Bool) : (s.align e on).tickCore = s.tickCore := by
  simp only [State.align, State.modSpll_core, State.setFld_core, ite_core, ite_self, coreReg, Bool.false_eq_true, if_false,
    Fld.PLL_SPLL_STATUS_ALIGNED]

theorem State.freshGrid_core (s : State) (e : Nat) : (s.freshGrid e).tickCore = s.tickCore := by
  simp only [State.freshGrid, State.modSpll_core]

theorem State.regrid_core (s0 s : State) (e : Nat) : (State.regrid s0 s e).tickCore = s.tickCore := by
  simp only [State.regrid, State.modRed_core, State.modRegion_core, foldl_core, implies_true, ite_core, ite_self]

theorem State.onGrid_core (s : State) (e : Nat) (f : State → State) (hf : (f s).tickCore = s.tickCore) :
    (s.onGrid e f).tickCore = s.tickCore := by
  exact (State.regrid_core s (f s) e).trans hf

theorem State.loseGrid_core (s : State) (e : Nat) (f : State → State) (hf : (f s).tickCore = s.tickCore) :
    (s.loseGrid e f).tickCore = s.tickCore := by
  have h : (((f s).align e false).freshGrid e).tickCore = s.tickCore :=
    ((State.freshGrid_core _ _).trans (State.align_core _ _ _)).trans hf
  exact State.onGrid_core s e (fun s => ((f s).align e false).freshGrid e) h

/-! ### Settings of before the last commit -/

theorem State.keepWas_core (s : State) : s.keepWas.tickCore = s.tickCore := by
  simp only [State.keepWas, core_mk, core_fold]

/-! ### Registers of a region -/

theorem State.setSeg_core (s : State) (m x : Nat) : (s.setSeg m x).tickCore = s.tickCore := by
  simp only [State.setSeg, State.setFld_core, coreReg, Bool.false_eq_true, if_false, Fld.SEG_ARM_STATE]

theorem State.segEvent_core (s : State) (m bit stop miss : Nat) : (s.segEvent m bit stop miss).tickCore = s.tickCore := by
  exact State.raise_core_add _ _ _ _ (by decide)

theorem State.wmark_core (s : State) (m : Nat) (wb : Bool) : (s.wmark m wb).tickCore = s.tickCore := by
  simp only [State.wmark, State.segEvent_core, State.setFld_core, ite_core, ite_self, coreReg, Bool.false_eq_true, if_false,
    Fld.SEG_RELEASE_COUNT, Fld.SEG_STATUS_WMARK, Fld.SEG_WB_COUNT_COUNT, Fld.SEG_WMARK_LEVEL]

theorem State.stopRegion_core (s : State) (m cause : Nat) (x : Ratio) : (s.stopRegion m cause x).tickCore = s.tickCore := by
  simp only [State.stopRegion, State.modRegion_core, State.segEvent_core, State.setSeg_core, State.setFld_core, coreReg,
    Bool.false_eq_true, if_false, Fld.SEG_STATUS_STOP_CAUSE]

theorem State.openUnit_core (s : State) (m : Nat) (x : Ratio) : (s.openUnit m x).tickCore = s.tickCore := by
  simp only [State.openUnit, State.modRegion_core, State.segEvent_core, State.bumpMod_core, State.setFld_core, State.bump_core,
    ite_core, ite_self, coreReg, Bool.false_eq_true, if_false, Fld.SEG_OPEN_COUNT_COUNT, Fld.SEG_OVERRUN_COUNT,
    Fld.SEG_STATUS_OVERRUN]

/-! ### Fires -/

theorem State.fireRegions_core (s : State) (mask : Nat) (f : Fire) : (s.fireRegions mask f).tickCore = s.tickCore := by
  simp only [State.fireRegions, State.modRegion_core, foldl_core, implies_true, ite_core, ite_self]

/-! ### Segments -/

theorem State.miss_core (s : State) (m cause : Nat) : (s.miss m cause).tickCore = s.tickCore := by
  simp only [State.miss, State.segEvent_core, State.setFld_core, State.bump_core, ite_core, ite_self, coreReg,
    Bool.false_eq_true, if_false, Fld.SEG_MISSED_REGION_MISSED, Fld.SEG_MISS_CAUSE_LAST, Fld.SEG_MISS_CAUSE_SEEN]

theorem State.openSegment_core (s : State) (m : Nat) (group : List Fire) (tts : Tu) (j : Int) (T : Ratio) :
    (s.openSegment m group tts j T).tickCore = s.tickCore := by
  unfold State.openSegment
  dsimp only
  repeat' split
  all_goals simp only [State.modRegion_core, State.openUnit_core, State.setSeg_core, core_mk, core_fold, gln_core_mk,
    gln_core_fold]

theorem State.stopAtSample_core (s : State) (m : Nat) (T : Ratio) : (s.stopAtSample m T).tickCore = s.tickCore := by
  simp only [State.stopAtSample, State.modRegion_core, State.stopRegion_core, ite_core, ite_self]

/-! ### The blocks of a continuous region -/

theorem State.nextBlock_core (s : State) (m : Nat) : (s.nextBlock m).tickCore = s.tickCore := by
  unfold State.nextBlock
  dsimp only
  repeat' split
  all_goals simp only [State.modRegion_core, State.openUnit_core, State.stopRegion_core, State.setFld_core, coreReg,
    Bool.false_eq_true, if_false, Fld.SEG_CONT_FILL_SAMPLES]

theorem State.passBlocks_core (s : State) (m : Nat) (k : Int) : (s.passBlocks m k).tickCore = s.tickCore := by
  unfold State.passBlocks
  split
  · rfl
  · exact each_core (fun a _ => State.nextBlock_core _ _) _

theorem State.blocksNow_core (s : State) (m : Nat) : (s.blocksNow m).tickCore = s.tickCore := by
  simp only [State.blocksNow, State.passBlocks_core]

theorem State.cutBlock_core (s : State) (m : Nat) (x : Ratio) : (s.cutBlock m x).tickCore = s.tickCore := by
  unfold State.cutBlock
  dsimp only
  repeat' split
  all_goals simp only [State.modRegion_core, State.passBlocks_core, State.setFld_core, coreReg, Bool.false_eq_true, if_false,
    Fld.SEG_CONT_FILL_SAMPLES]

theorem State.stopBlock_core (s : State) (m cause : Nat) (x : Ratio) : (s.stopBlock m cause x).tickCore = s.tickCore := by
  simp only [State.stopBlock, State.cutBlock_core, State.stopRegion_core, ite_core, ite_self]

/-! ### The judgement -/

theorem State.judgeStop_core (s : State) (m : Nat) : (s.judgeStop m).tickCore = s.tickCore := by
  unfold State.judgeStop
  dsimp only
  repeat' split
  all_goals simp only [State.modRegion_core, State.stopBlock_core]

theorem State.judge_core (s : State) (m : Nat) : (s.judge m).tickCore = s.tickCore := by
  unfold State.judge
  dsimp only
  repeat' split
  all_goals simp only [State.judgeStop_core, State.miss_core, State.modRegion_core, State.openSegment_core,
    State.stopAtSample_core]

theorem State.judgeBefore_core (s : State) (m : Nat) (x : Ratio) : (s.judgeBefore m x).tickCore = s.tickCore := by
  refine foldl_core (fun a _ => ?_) _ _
  split
  · exact ite_core_eq (State.judge_core _ _) rfl
  · rfl

theorem State.judgeDue_core (s : State) (m : Nat) : (s.judgeDue m).tickCore = s.tickCore := by
  simp only [State.judgeDue, State.blocksNow_core, State.judgeBefore_core]

/-! ### The end of a segment -/

theorem State.afterSegment_core (s : State) (m : Nat) (x : Ratio) : (s.afterSegment m x).tickCore = s.tickCore := by
  simp only [State.afterSegment, State.setSeg_core, State.stopRegion_core, ite_core, ite_self]

theorem State.truncate_core (s : State) (m : Nat) (step : Bool) (f : Frame) : (s.truncate m step f).tickCore = s.tickCore := by
  unfold State.truncate
  split
  · rfl
  · exact ite_core_eq rfl (ite_core_eq rfl (State.modRegion_core _ _ _))

/-! ### Arming -/

theorem State.armNow_core (s : State) (m : Nat) : (s.armNow m).tickCore = s.tickCore := by
  simp only [State.armNow, State.modRegion_core, State.openUnit_core, State.setSeg_core, State.wmark_core, State.setFrame_core,
    Bool.or_self, State.setFld_core, ite_core, ite_self, coreReg, Bool.false_eq_true, if_false, Fld.SEG_OPEN_COUNT_COUNT,
    Fld.SEG_RELEASE_COUNT, Fld.SEG_STATUS_STOP_CAUSE, Fld.SEG_WB_COUNT_COUNT]

theorem State.armRegions_core (s : State) (ms : List Nat) : (s.armRegions ms).tickCore = s.tickCore := by
  unfold State.armRegions
  dsimp only
  refine (foldl_core (fun a m => ?_) _ _).trans (foldl_core (fun a ch => ?_) _ _)
  · refine ite_core_eq rfl (ite_core_eq ((State.armNow_core _ _).trans ?_) ?_)
    all_goals exact State.setFld_core _ _ _ _
  · split
    · rw [show 80 + 8 * ch + 5 = 80 + (8 * ch + 5) from Nat.add_assoc _ _ _]
      exact State.raise_core_add _ _ _ _ (by decide)
    · rfl

theorem State.disarm_core (s : State) (m : Nat) : (s.disarm m).tickCore = s.tickCore := by
  simp only [State.disarm, State.cutBlock_core, State.modRegion_core, State.setSeg_core, State.truncate_core, State.setFld_core,
    ite_core, ite_self, coreReg, Bool.false_eq_true, if_false, Fld.SEG_ARM_ARM]

theorem State.disarmRegions_core (s : State) (ms : List Nat) : (s.disarmRegions ms).tickCore = s.tickCore := by
  simp only [State.disarmRegions, State.disarm_core, foldl_core, implies_true]

theorem State.stepRegion_core (s : State) (m : Nat) (f : Frame) : (s.stepRegion m f).tickCore = s.tickCore := by
  simp only [State.stepRegion, State.afterSegment_core, State.truncate_core, ite_core, ite_self]

theorem State.stepEntries_core (s : State) (f : Frame) : (s.stepEntries f).tickCore = s.tickCore := by
  simp only [State.stepEntries, State.modRegion_core, each_core, implies_true, core_mk, core_fold]

theorem State.shiftRegion_core (s : State) (m : Nat) (d : Int) : (s.shiftRegion m d).tickCore = s.tickCore := by
  simp only [State.shiftRegion, State.modRegion_core]

theorem State.markStale_core (s : State) (m : Nat) : (s.markStale m).tickCore = s.tickCore := by
  simp only [State.markStale, State.modRegion_core, ite_core, ite_self]

/-! ### Write-back and release -/

theorem State.writeEntry_core (s : State) (m : Nat) (c : Closed) : (s.writeEntry m c).tickCore = s.tickCore := by
  simp only [State.writeEntry, State.stage_core, State.wmark_core, State.bumpMod_core, each_core, implies_true, core_mk,
    core_fold, ite_core, ite_self, coreReg, Bool.false_eq_true, if_false, Fld.SEG_WB_COUNT_COUNT]

theorem State.writeBack_core (s : State) (m : Nat) : (s.writeBack m).tickCore = s.tickCore := by
  unfold State.writeBack
  split
  · rfl
  · exact ite_core_eq rfl ((State.writeEntry_core _ _ _).trans (State.modRegion_core _ _ _))

theorem State.writeBackDue_core (s : State) : s.writeBackDue.tickCore = s.tickCore := by
  simp only [State.writeBackDue, State.writeBack_core, each_core, implies_true, foldl_core]

/-! ### SEG_PRE -/

theorem State.commitPre_core (s : State) (m : Nat) (v : Word) : (s.commitPre m v).tickCore = s.tickCore := by
  simp only [State.commitPre, State.modRegion_core, State.setSeg_core, State.setReg_core, ite_core, ite_self, coreReg,
    Bool.false_eq_true, if_false]

end Sys2Proof.Machine
end

section
/-! SUPPORT. Operations that leave the core of a tick: counters, converters and triggers. -/

namespace Sys2Proof.Machine

/-! ### Results -/

theorem State.ticResult_core (s : State) (i : Nat) (tts : Tu) (value : Int) (stop count : Nat) (small coast stale : Bool)
    (closing : Tu) :
    (s.ticResult i tts value stop count small coast stale closing).tickCore = s.tickCore := by
  unfold State.ticResult
  dsimp only
  repeat' split
  all_goals simp only [State.modTic_core, State.produce_core, State.setPair_core, Bool.or_self, State.bumpRaise_core_add,
    Nat.reduceLT, State.setFld_core, State.raise_core_add, coreReg, Bool.false_eq_true, if_false, Fld.TIC_CFG_RUN,
    Fld.TIC_CFG_SIGNED, Fld.TIC_LAST_COUNT_COUNT, Fld.TIC_LAST_SEQ_SEQ, Fld.TIC_LAST_VALUE_HI_STATUS,
    Fld.TIC_LAST_VALUE_HI_VALUE, Fld.TIC_LAST_VALUE_LO_VALUE, Fld.TIC_STATUS_DONE, Fld.TIC_STATUS_MEASURING,
    Fld.TIC_TIMEOUT_CNT_COUNT]

theorem State.ticEnd_core (s : State) (i stop : Nat) (closing : Tu) : (s.ticEnd i stop closing).tickCore = s.tickCore := by
  unfold State.ticEnd
  dsimp only
  repeat' split
  all_goals simp only [State.ticResult_core]

/-! ### Pairing -/

theorem State.ticPair_core (s : State) (i : Nat) (ts stop : Stamp) (closing : Tu) :
    (s.ticPair i ts stop closing).tickCore = s.tickCore := by
  unfold State.ticPair
  dsimp only
  repeat' split
  all_goals simp only [State.modTic_core, State.ticResult_core]

theorem State.ticDecide_core (s : State) (i : Nat) (ts : Stamp) (after : Option Stamp) (closing : Tu) :
    (s.ticDecide i ts after closing).tickCore = s.tickCore := by
  unfold State.ticDecide
  dsimp only
  repeat' split
  all_goals simp only [State.modTic_core, State.ticPair_core]

theorem State.ticWindowOver_core (s : State) (i : Nat) : (s.ticWindowOver i).tickCore = s.tickCore := by
  unfold State.ticWindowOver
  dsimp only
  repeat' split
  all_goals simp only [State.ticEnd_core, State.ticPair_core]

/-! ### Closings that come with time -/

theorem State.ticGateEnd_core (s : State) (i : Nat) : (s.ticGateEnd i).tickCore = s.tickCore := by
  unfold State.ticGateEnd
  dsimp only
  repeat' split
  all_goals simp only [State.modTic_core, State.ticResult_core]

theorem State.ticSettle_core (s : State) (i : Nat) (x g : Tu) : (s.ticSettle i x g).tickCore = s.tickCore := by
  unfold State.ticSettle
  dsimp only
  have h1 : (if s.ticMode i = 4 then s.each ((tuDiff (s.ticOf i).gate g).toNat / max 1 (s.ticGate i)) fun s _ =>
      if s.ticGateDue i g then s.ticGateEnd i else s else s).tickCore = s.tickCore := by
    rw [ite_core, each_core fun a _ => by rw [ite_core, State.ticGateEnd_core, ite_self], ite_self]
  have h2 : ∀ n x (a : State), (a.each n fun s _ => match s.ticWindowEnd i with
      | some w => if s.ticLive i && tuLt w x then s.ticWindowOver i else s
      | none => s).tickCore = a.tickCore := fun n x a => each_core (fun a _ => by
    split
    · rw [ite_core, State.ticWindowOver_core, ite_self]
    · rfl) a
  split
  · rw [ite_core, State.ticEnd_core, ite_self]
    exact (h2 _ _ _).trans h1
  · exact (h2 _ _ _).trans h1

/-! ### Edges -/

theorem State.ticIgnored_core (s : State) (i : Nat) : (s.ticIgnored i).tickCore = s.tickCore := by
  simp only [State.ticIgnored, State.bump_core, coreReg, Bool.false_eq_true, if_false, Fld.TIC_IGNORED_CNT_COUNT]

theorem State.ticOpen_core (s : State) (i : Nat) (x : Stamp) (rise : Bool) : (s.ticOpen i x rise).tickCore = s.tickCore := by
  simp only [State.ticOpen, State.modTic_core]

theorem State.ticStopEdge_core (s : State) (i : Nat) (x : Stamp) : (s.ticStopEdge i x).1.tickCore = s.tickCore := by
  unfold State.ticStopEdge
  dsimp only
  repeat' split
  all_goals simp only [State.ticDecide_core, State.ticResult_core, foldl_fst_core, implies_true, ite_fst_core, ite_self]

theorem State.ticStartEdge_core (s : State) (i : Nat) (x : Stamp) (rise : Bool) (o : Stamp) :
    (s.ticStartEdge i x rise o).tickCore = s.tickCore := by
  simp only [State.ticStartEdge, State.modTic_core, State.ticIgnored_core, State.ticOpen_core, State.ticResult_core, ite_core,
    ite_self, Fld.TIC_CFG_START_POLICY]

theorem State.ticEdge_core (s : State) (i : Nat) (x : Stamp) (start stop polar rise : Bool) :
    (s.ticEdge i x start stop polar rise).tickCore = s.tickCore := by
  have h0 := State.ticSettle_core s i x.t x.t
  unfold State.ticEdge
  dsimp only
  generalize s.ticSettle i x.t x.t = s0 at h0 ⊢
  refine ite_core_eq h0 (ite_core_eq (ite_core_eq ((State.modTic_core _ _ _).trans h0) h0) (ite_core_eq ?_ ?_))
  · split
    · refine (ite_core_eq (State.ticOpen_core _ _ _ _) rfl).trans ((State.ticResult_core _ _ _ _ _ _ _ _ _ _).trans h0)
    · exact h0
  rw [← h0]
  generalize hp : (if (stop && (s0.ticMode i == 0 || s0.ticMode i == 3) && edgeTaken (s0.fld Fld.TIC_CFG_STOP_EDGE i) polar
    rise) = true
    then s0.ticStopEdge i x else (s0, false)) = p
  have h1 : p.1.tickCore = s0.tickCore := by
    rw [← hp, ite_fst_core, State.ticStopEdge_core, ite_self]
  obtain ⟨s1, served⟩ := p
  dsimp only at h1 ⊢
  rw [← h1]
  have h2 : ∀ c : Bool, (if c then
        match (s1.ticOf i).open_ with
        | some (o, _) =>
          if ((s1.ticStartEdge i x rise o).ticOf i).seq ≠ (s1.ticOf i).seq ∧ (s1.ticStartEdge i x rise o).ticLive i = true ∧
              tuLe ((s1.ticStartEdge i x rise o).ticOf i).ready x.t = true then
            (s1.ticStartEdge i x rise o).ticOpen i x rise else s1.ticStartEdge i x rise o
        | none => if tuLe (s1.ticOf i).ready x.t then s1.ticOpen i x rise else s1
      else s1).tickCore = s1.tickCore := fun c => by
    split
    · split <;> simp only [ite_core, State.ticOpen_core, State.ticStartEdge_core, ite_self]
    · rfl
  exact ite_core_eq ((State.modTic_core _ _ _).trans (h2 _)) (ite_core_eq ((State.ticIgnored_core _ _).trans (h2 _)) (h2 _))

theorem State.ticSource_core (s : State) (c code : Nat) (t : Tu) (polar rise stale : Bool) :
    (s.ticSource c code t polar rise stale).tickCore = s.tickCore := by
  simp only [State.ticSource, State.ticEdge_core, foldl_core, implies_true, ite_core, ite_self, Fld.TIC_SRC_START,
    Fld.TIC_SRC_STOP]

theorem State.ticAll_core (s : State) (code : Nat) (t : Tu) (polar rise : Bool) :
    (s.ticAll code t polar rise).tickCore = s.tickCore := by
  simp only [State.ticAll, State.ticSource_core, each_core, implies_true]

/-! ### Commits -/

theorem State.ticFresh_core (s : State) (i : Nat) (x : Tu) : (s.ticFresh i x).tickCore = s.tickCore := by
  simp only [State.ticFresh, State.modTic_core]

theorem State.ticAbort_core (s : State) (i : Nat) : (s.ticAbort i).tickCore = s.tickCore := by
  simp only [State.ticAbort, State.ticEnd_core, ite_core, ite_self]

theorem State.ticNote_core (s : State) (i : Nat) : (s.ticNote i).tickCore = s.tickCore := by
  simp only [State.ticNote, State.setFld_core, coreReg, Bool.false_eq_true, if_false, Fld.TIC_STATUS_NO_SOURCE]

theorem State.commitTicCfg_core (s : State) (i : Nat) (v : Word) : (s.commitTicCfg i v).tickCore = s.tickCore := by
  simp only [State.commitTicCfg, State.modTic_core, State.ticAbort_core, State.ticFresh_core, State.ticNote_core,
    State.ticSettle_core, State.setReg_core, State.setFld_core, ite_core, ite_self, coreReg, Bool.false_eq_true, if_false,
    Fld.TIC_CFG_REPEAT, Fld.TIC_CFG_RUN, Fld.TIC_STATUS_MEASURING]

theorem State.commitTic_core (s : State) (n : RegName) (i : Nat) (v : Word) (hn : coreReg n i = false) :
    (s.commitTic n i v).tickCore = s.tickCore := by
  unfold State.commitTic
  dsimp only
  rw [ite_core]
  simp only [State.ticFresh_core, State.setReg_core_of hn, State.setFld_core, State.ticAbort_core, State.ticSettle_core, coreReg,
    Fld.TIC_CFG_REPEAT, Bool.false_eq_true, if_false, ite_self]

theorem State.ticStep_core (s : State) (i : Nat) (x : Tu) : (s.ticStep i x).tickCore = s.tickCore := by
  simp only [State.ticStep, State.modTic_core, State.ticEnd_core, State.ticSettle_core, ite_core, ite_self]

theorem State.ticStopAll_core (s : State) : s.ticStopAll.tickCore = s.tickCore := by
  simp only [State.ticStopAll, State.modTic_core, State.setFld_core, each_core, implies_true, coreReg, Bool.false_eq_true,
    if_false, Fld.TIC_CFG_RUN, Fld.TIC_STATUS_MEASURING]

/-! ### Guyline -/

theorem State.glnSend_core (s : State) (typ sub : Nat) (payload : List Byte) (copies : Nat) :
    (s.glnSend typ sub payload copies).tickCore = s.tickCore := by
  simp only [State.glnSend, State.emit_core, core_mk, core_fold, gln_core_mk, gln_core_fold, ite_core, ite_self]

/-! ### Force outputs -/

theorem State.forceMoved_core (s0 s : State) (n : Nat) (t : Tu) : (State.forceMoved s0 s n t).tickCore = s.tickCore :=
  ite_core_eq rfl (State.emit_core _ _)

theorem State.forceNow_core (s : State) (n code : Nat) (t : Tu) : (s.forceNow n code t).tickCore = s.tickCore := by
  unfold State.forceNow
  rw [State.forceMoved_core]
  simp only [State.setPair_core, Bool.or_self, State.setFld_core, coreReg, Bool.false_eq_true, if_false, Fld.PMU_FORCE_NOW_CODE,
    Fld.PMU_FORCE_OUT_OUT]

theorem State.setForce_core (s : State) (n : Nat) (l : List ForcePend) : (s.setForce n l).tickCore = s.tickCore := by
  simp only [State.setForce, core_mk, core_fold]

theorem State.forceDue_core (s : State) (n upd : Nat) (t : Tu) (due : Tu → Bool) :
    (s.forceDue n upd t due).tickCore = s.tickCore := by
  unfold State.forceDue
  dsimp only
  repeat' split
  all_goals simp only [State.forceNow_core, State.setForce_core]

/-! ### The modulator -/

theorem State.modEdge_core (s : State) (x : Nat) (t : Tu) : (s.modEdge x t).1.tickCore = s.tickCore := by
  simp only [State.modEdge, State.used_core, ite_fst_core, ite_self]

/-! ### What a converter does next -/

theorem State.pmuShowOne_core (s : State) (x : Nat) : (s.pmuShowOne x).tickCore = s.tickCore := by
  simp only [State.pmuShowOne, State.setFld_core, coreReg, Bool.false_eq_true, if_false, Fld.PMU_SEQ_STATUS_ACTIVITY,
    Fld.PMU_SEQ_STATUS_CAL_PENDING, Fld.PMU_SEQ_STATUS_ENTRY, Fld.PMU_SEQ_STATUS_INJ_QUEUED, Fld.PMU_SEQ_STATUS_STREAMING]

theorem State.pmuShow_core (s : State) (x : Nat) : (s.pmuShow x).tickCore = s.tickCore := by
  simp only [State.pmuShow, State.pmuShowOne_core, ite_core, ite_self]

theorem State.startConv_core (s : State) (x kind : Nat) (w : Word) (entry : Nat) (restarted : Bool) (t : Tu) :
    (s.startConv x kind w entry restarted t).tickCore = s.tickCore := by
  simp only [State.startConv, State.modEdge_core, State.modMc_core, Fld.PMU_PACE_NS]

theorem State.pmuNext_core (s : State) (x : Nat) (t : Tu) : (s.pmuNext x t).tickCore = s.tickCore := by
  unfold State.pmuNext
  dsimp only
  repeat' split
  all_goals simp only [State.modMc_core, State.pmuShow_core, State.startConv_core, Fld.PMU_MC_CFG_XCHK]

theorem State.pmuGo_core (s : State) (x : Nat) (t : Tu) : (s.pmuGo x t).tickCore = s.tickCore := by
  simp only [State.pmuGo, State.modMc_core, State.pmuNext_core, ite_core, ite_self, Fld.PMU_SEQ_CTRL_START,
    Fld.PMU_SEQ_STATUS_RUNNING]

theorem State.abortConv_core (s : State) (x : Nat) : (s.abortConv x).tickCore = s.tickCore := by
  unfold State.abortConv
  split
  · rw [ite_core, State.modMc_core, State.bump_core]
    exact ite_self _
  · rfl

theorem State.injDrop_core (s : State) (x cause n : Nat) : (s.injDrop x cause n).tickCore = s.tickCore := by
  simp only [State.injDrop, State.bump_core, State.raise_core, ite_core, ite_self, coreReg, coreEvent, Bool.false_eq_true,
    if_false, Nat.reduceEqDiff, or_self, decide_false, Fld.PMU_INJ_DROP_LOST, Fld.PMU_INJ_DROP_REFUSED]

theorem State.inject_core (s : State) (x : Nat) (w : Word) (t : Tu) : (s.inject x w t).tickCore = s.tickCore := by
  simp only [State.inject, State.abortConv_core, State.injDrop_core, State.modMc_core, State.pmuNext_core, ite_core, ite_self,
    Fld.PMU_MC_CFG_EN]

/-! ### Results -/

theorem State.pmuArrive_core (s : State) (t : Tu) : (s.pmuArrive t).tickCore = s.tickCore := by
  simp only [State.pmuArrive, State.inject_core, State.modMc_core, each_core, implies_true, foldl_core, ite_core, ite_self]

/-! ### Ticks -/

theorem State.commitSeqCtrl_core (s : State) (x : Nat) (v : Word) : (s.commitSeqCtrl x v).tickCore = s.tickCore := by
  simp only [State.commitSeqCtrl, State.modMc_core, State.pmuNext_core, State.pmuShow_core, State.setReg_core,
    State.setFld_core, ite_core, ite_self, coreReg, Bool.false_eq_true, if_false, Fld.PMU_MC_CFG_EN, Fld.PMU_SEQ_CTRL_RUN,
    Fld.PMU_SEQ_STATUS_RUNNING]

theorem State.pmuTick_core (s : State) (x : Nat) : (s.pmuTick x).tickCore = s.tickCore := by
  simp only [State.pmuTick, State.modMc_core, State.pmuNext_core, State.bump_core, ite_core, ite_self, coreReg,
    Bool.false_eq_true, if_false, Fld.PMU_SEQ_CTRL_START, Fld.PMU_SEQ_CTRL_TDIV, Fld.PMU_SEQ_SKIP_COUNT,
    Fld.PMU_SEQ_STATUS_RUNNING]

theorem State.pmuStep_core (s : State) (d : Int) : (s.pmuStep d).tickCore = s.tickCore := by
  simp only [State.pmuStep, State.modMc_core, each_core, implies_true, core_mk, core_fold]

theorem State.pmuCoast_core (s : State) : s.pmuCoast.tickCore = s.tickCore := by
  simp only [State.pmuCoast, State.modMc_core, each_core, implies_true]

/-! ### Generators and their lanes -/

theorem State.noteGens_core (s : State) (c : Nat) : (s.noteGens c).tickCore = s.tickCore := by
  refine foldl_core (fun a i => ?_) _ _
  dsimp only
  have h1 : ((a.setFld Fld.TRG_GEN_STATUS_NO_SOURCE (4 * c + i) (a.genNoSource (4 * c + i)).toNat).setFld
      Fld.TRG_GEN_STATUS_SEQ_LOOP (4 * c + i) (a.seqLoop (4 * c + i)).toNat).tickCore = a.tickCore := by
    rw [State.setFld_core, State.setFld_core]
    rfl
  exact ite_core_eq ((State.raise_core_add _ _ _ _ (by decide)).trans h1) h1

/-! ### Where a fire goes -/

theorem State.fireOut_core (s : State) (mask typ n : Nat) (tts : Tu) : (s.fireOut mask typ n tts).tickCore = s.tickCore := by
  simp only [State.fireOut, State.firePulse_core, State.tlkSend_core, foldl_core, implies_true, ite_core, ite_self,
    Fld.HUB_TRIG_OUT_CFG_EN]

theorem State.accRef_core (s : State) (g : Nat) (tts : Tu) : (s.accRef g tts).tickCore = s.tickCore := by
  simp only [State.accRef, State.setFld_core, foldl_core, implies_true, core_mk, core_fold, ite_core, ite_self, coreReg,
    Bool.false_eq_true, if_false, Fld.ACC_PLANE_CFG_REF, Fld.ACC_PLANE_CFG_XMODE, Fld.ACC_PLANE_SRC_CH,
    Fld.ACC_PLANE_STATUS_NOREF, Fld.ACC_PLANE_XOFS_XOFS, Fld.ACC_PLANE_X_BIN, Fld.ACC_PLANE_X_XB]

theorem State.fire_core (s : State) (g : Nat) (tts : Tu) (forced : Bool) : (s.fire g tts forced).tickCore = s.tickCore := by
  unfold State.fire
  dsimp only
  simp only [State.accRef_core, State.ticSource_core, State.fireOut_core, State.fireRegions_core, State.modGen_core, core_mk,
    gln_core_mk,
    gln_core_fold, core_fold]
  refine ite_core_eq ?_ ((State.raise0_core_add _ _ (by decide)).trans ?_)
  all_goals simp only [State.setFld_core, State.setPair_core, State.bump_core, coreReg, Fld.TRG_GEN_STATUS_FIRED,
    Fld.TRG_GEN_CNT_COUNT,
    Bool.or_self, Bool.false_eq_true, if_false]

theorem State.xfire_core (s : State) (x : Nat) (tts : Tu) : (s.xfire x tts).tickCore = s.tickCore := by
  simp only [State.xfire, State.fireOut_core, State.fireRegions_core]

/-! ### Holdoff, sequence and rate -/

theorem State.fireOrLose_core (s : State) (g : Nat) (t : Tu) : (s.fireOrLose g t).1.tickCore = s.tickCore := by
  unfold State.fireOrLose
  dsimp only
  rw [ite_fst_core, State.fire_core, State.bumpRaise_core_add _ _ _ _ _ _ (by decide)]
  exact ite_self _

theorem State.condition_core (s : State) (g : Nat) (t : Tu) : (s.condition g t).1.tickCore = s.tickCore := by
  unfold State.condition
  split
  · rfl
  split
  · exact State.fireOrLose_core _ _ _
  split
  · rfl
  · repeat' split
    all_goals simp only [State.fireOrLose_core, State.modGen_core]

theorem State.startWaits_core (s : State) (a : Nat) (t : Tu) : (s.startWaits a t).tickCore = s.tickCore := by
  simp only [State.startWaits, State.modGen_core, foldl_core, implies_true, ite_core, ite_self]

theorem State.conditions_core (s : State) (c : Nat) (t : Tu) (p : Nat → Bool) : (s.conditions c t p).tickCore = s.tickCore := by
  simp only [State.conditions, State.condition_core, State.startWaits_core, foldl_core, foldl_fst_core, implies_true,
    ite_fst_core, ite_self]

/-! ### Comparators -/

theorem State.notePattern_core (s : State) (g i0 i1 : Nat) (t : Tu) : (s.notePattern g i0 i1 t).tickCore = s.tickCore := by
  simp only [State.notePattern, State.modGen_core, ite_core, ite_self]

/-! ### Timing-link triggers -/

theorem State.trigLine_core (s : State) (line : Nat) (tts : Tu) : (s.trigLine line tts).tickCore = s.tickCore := by
  simp only [State.trigLine, State.conditions_core, State.ticAll_core, State.xfire_core, each_core, implies_true,
    Fld.TRG_GEN_CFG_XSEL]

/-! ### Forced fires -/

theorem State.forceFires_core (s : State) (c : Nat) (t : Tu) : (s.forceFires c t).tickCore = s.tickCore := by
  simp only [State.forceFires, State.fire_core, State.modGen_core, State.startWaits_core, foldl_core, implies_true]

/-! ### What waits for its instant -/

theorem State.placeTrigsTo_core (s : State) (t : Tu) : (s.placeTrigsTo t).tickCore = s.tickCore := by
  simp only [State.placeTrigsTo, State.forceFires_core, State.trigLine_core, foldl_core, implies_true, core_mk, core_fold,
    ite_core, ite_self]

/-! ### Commits -/

theorem State.restartGen_core (s : State) (g : Nat) : (s.restartGen g).tickCore = s.tickCore := by
  simp only [State.restartGen, State.modGen_core]

theorem State.commitGen_core (s : State) (n : RegName) (g : Nat) (v : Word) (hn : coreReg n g = false) :
    (s.commitGen n g v).tickCore = s.tickCore := by
  exact (State.noteGens_core _ _).trans ((State.restartGen_core _ _).trans (State.setReg_core_of hn s _))

theorem State.freshComp_core (s : State) (ln : Nat) : (s.freshComp ln).tickCore = s.tickCore := by
  simp only [State.freshComp, State.notePattern_core, State.used_core, State.setFld_core, foldl_core, implies_true, core_mk,
    core_fold, coreReg, Bool.false_eq_true, if_false, Fld.TRG_COMP_STATE_HI, Fld.TRG_COMP_STATE_LO]

theorem State.commitLevel_core (s : State) (n : RegName) (ln : Nat) (v : Word) (hn : coreReg n ln = false) :
    (s.commitLevel n ln v).tickCore = s.tickCore := by
  exact (foldl_core (fun a g => ite_core_eq (State.restartGen_core _ _) rfl) _ _).trans
    ((State.freshComp_core _ _).trans (State.setReg_core_of hn s _))

end Sys2Proof.Machine
end

section
/-! SUPPORT. Operations that leave the core of a tick: planes, reductions, pictures, PLLs and clocks. -/

namespace Sys2Proof.Machine

/-! ### Masks -/

theorem State.noteAcc_core (s : State) (c : Nat) : (s.noteAcc c).tickCore = s.tickCore := by
  simp only [State.noteAcc, State.setFld_core, foldl_core, implies_true, coreReg, Bool.false_eq_true, if_false,
    Fld.ACC_MASK_CFG_NOPLANE, Fld.ACC_PLANE_CFG_EN, Fld.ACC_PLANE_STATUS_ABSENT, Fld.ACC_PLANE_STATUS_ACTIVE,
    Fld.ACC_PLANE_STATUS_STRIDE]

/-! ### Clearing -/

theorem State.clearPlane_core (s : State) (p : Nat) : (s.clearPlane p).tickCore = s.tickCore := by
  unfold State.clearPlane
  dsimp only
  rw [State.setFrame_core, State.setFld_core, State.setPair_core]
  rfl

theorem State.clearViol_core (s : State) (k : Nat) : (s.clearViol k).tickCore = s.tickCore := by
  simp only [State.clearViol, State.setPair_core, Bool.or_self, State.setFld_core, coreReg, Bool.false_eq_true, if_false,
    Fld.ACC_VIOL_CNT_COUNT]

theorem State.accClear_core (s : State) (c : Nat) : (s.accClear c).tickCore = s.tickCore := by
  simp only [State.accClear, State.clearPlane_core, State.clearViol_core, foldl_core, implies_true]

theorem State.accLose_core (s : State) (c : Nat) : (s.accLose c).tickCore = s.tickCore := by
  simp only [State.accLose, State.clearPlane_core, foldl_core, implies_true, core_mk, core_fold]

theorem State.dropRefs_core (s : State) (c : Nat) : (s.dropRefs c).tickCore = s.tickCore := by
  simp only [State.dropRefs, State.setFld_core, foldl_core, implies_true, core_mk, core_fold, coreReg, Bool.false_eq_true,
    if_false, Fld.ACC_PLANE_STATUS_NOREF]

/-! ### Snapshots -/

theorem State.commitSnap_core (s : State) (c : Nat) (v : Word) : (s.commitSnap c v).tickCore = s.tickCore := by
  simp only [State.commitSnap, State.clearPlane_core, State.setReg_core, State.setFrame_core, Bool.or_self, State.setFld_core,
    core_mk, core_fold, ite_core, ite_self, coreReg, Bool.false_eq_true, if_false, Fld.ACC_SNAP_STATUS_OVERRUN,
    Fld.ACC_SNAP_STATUS_STATE]

/-! ### Commits -/

theorem State.takeRef_core (s : State) (p : Nat) : (s.takeRef p).tickCore = s.tickCore := by
  simp only [State.takeRef, State.setFld_core, core_mk, core_fold, coreReg, Bool.false_eq_true, if_false, Fld.ACC_PLANE_CFG_REF,
    Fld.ACC_PLANE_STATUS_NOREF]

theorem State.limitPlanes_core (s : State) : s.limitPlanes.tickCore = s.tickCore := by
  simp only [State.limitPlanes, State.setFld_core, each_core, implies_true, ite_core, ite_self, coreReg, Bool.false_eq_true,
    if_false, Fld.ACC_PLANE_X_XB]

theorem State.commitPlane_core (s : State) (n : RegName) (p : Nat) (v : Word) (hn : coreReg n p = false) :
    (s.commitPlane n p v).tickCore = s.tickCore := by
  unfold State.commitPlane
  have hs : ∀ v, (s.setReg n p v).tickCore = s.tickCore := State.setReg_core_of hn s
  refine ite_core_eq rfl ((State.noteAcc_core _ _).trans (ite_core_eq (ite_core_eq (hs _) ?_) ?_))
  all_goals simp only [State.clearPlane_core, State.takeRef_core, hs]

theorem State.commitMask_core (s : State) (k : Nat) (v : Word) : (s.commitMask k v).tickCore = s.tickCore := by
  simp only [State.commitMask, State.noteAcc_core, State.setReg_core, ite_core, ite_self, coreReg, Bool.false_eq_true, if_false]

theorem State.commitAccCtrl_core (s : State) (c : Nat) (v : Word) : (s.commitAccCtrl c v).tickCore = s.tickCore := by
  simp only [State.commitAccCtrl, State.clearPlane_core, State.clearViol_core, State.setFld_core, foldl_core, implies_true,
    ite_core, ite_self, coreReg, Bool.false_eq_true, if_false, Fld.ACC_MASK_CFG_BANK]

/-! ### Starting -/

theorem State.redMark_core (s : State) (u cause : Nat) (j : Int) : (s.redMark u cause j).tickCore = s.tickCore := by
  simp only [State.redMark, State.setPair_core, Bool.or_self, State.setFld_core, coreReg, Bool.false_eq_true, if_false,
    Fld.RED_OUT_COUNT_COUNT, Fld.RED_STATUS_START]

theorem State.redStart_core (s : State) (u cause : Nat) (t : Tu) : (s.redStart u cause t).tickCore = s.tickCore := by
  simp only [State.redStart, State.modRed_core, State.redMark_core, State.setFld_core, ite_core, ite_self, coreReg,
    Bool.false_eq_true, if_false, Fld.RED_CFG_EN, Fld.RED_STATUS_PRIME, Fld.RED_STATUS_RUNNING]

theorem State.redStartAll_core (s : State) (us : List Nat) (cause : Nat) (t : Tu) :
    (s.redStartAll us cause t).tickCore = s.tickCore := by
  simp only [State.redStartAll, State.redStart_core, foldl_core, implies_true]

theorem State.redRephase_core (s : State) (u : Nat) : (s.redRephase u).tickCore = s.tickCore := by
  simp only [State.redRephase, State.modRed_core, State.redMark_core, ite_core, ite_self, Fld.RED_CFG_EN]

theorem State.commitRed_core (s : State) (n : RegName) (u : Nat) (v : Word) (hn : coreReg n u = false) :
    (s.commitRed n u v).tickCore = s.tickCore := by
  have hs : ∀ v, (s.setReg n u v).tickCore = s.tickCore := State.setReg_core_of hn s
  unfold State.commitRed
  dsimp only
  split
  · refine ite_core_eq ?_ (ite_core_eq (hs _) ((State.redStart_core _ _ _ _).trans (hs _)))
    rw [State.setFld_core, State.setFld_core, State.modRed_core, hs]
    rfl
  · exact (State.redStart_core _ _ _ _).trans (hs _)
  · exact (State.redStart_core _ _ _ _).trans (hs _)
  · exact (State.redRephase_core _ _).trans (hs _)
  · exact (State.redRephase_core _ _).trans (hs _)
  · exact hs _

theorem State.redSettle_core (s : State) : s.redSettle.tickCore = s.tickCore := by
  simp only [State.redSettle, State.setFld_core, each_core, implies_true, ite_core, ite_self, coreReg, Bool.false_eq_true,
    if_false, Fld.RED_STATUS_PRIME]

/-! ### Settings -/

theorem State.modRas_core (s : State) (f : Ras → Ras) : (s.modRas f).tickCore = s.tickCore := by
  simp only [State.modRas, core_mk, core_fold]

theorem State.rasCommit_core (s : State) : s.rasCommit.tickCore = s.tickCore := by
  unfold State.rasCommit
  split
  · rfl
  · exact ite_core_eq rfl (State.raise0_core _ _)

/-! ### Completing a picture -/

theorem State.freeDeferred_core (s : State) : s.freeDeferred.tickCore = s.tickCore := by
  simp only [State.freeDeferred, State.setFld_core, State.raise_core, each_core, implies_true, ite_core, ite_self, coreReg,
    coreEvent, Bool.false_eq_true, if_false, Nat.reduceEqDiff, or_self, decide_false, Fld.RAS_BUF_STATUS_STATE]

theorem State.rasBlank_core (s : State) : s.rasBlank.tickCore = s.tickCore := by
  simp only [State.rasBlank, State.freeDeferred_core, State.modRas_core, State.rasCommit_core, State.setFrame_core,
    Bool.or_self, State.setFld_core, State.raise0_core, each_core, implies_true, ite_core, ite_self, coreReg, coreEvent,
    Bool.false_eq_true, if_false, Nat.reduceEqDiff, or_self, decide_false, Fld.RAS_CTRL_EN, Fld.RAS_CTRL_TE_MODE,
    Fld.RAS_LAYER_BUF_BUF, Fld.RAS_LAYER_CFG_EN, Fld.RAS_LAYER_SRC_KIND, Fld.RAS_LAYER_STATUS_ACTIVE,
    Fld.RAS_LAYER_STATUS_NOSRC, Fld.RAS_STATUS_STATE]

/-! ### Commands -/

theorem State.rasGateClosed_core (s : State) : s.rasGateClosed.tickCore = s.tickCore := by
  exact (State.modRas_core _ _).trans (State.resetRegs_core s [.RAS_CRC_VAL] _ (by decide))

theorem State.rasResume_core (s : State) : s.rasResume.tickCore = s.tickCore := by
  simp only [State.rasResume, State.rasBlank_core, ite_core, ite_self, Fld.RAS_CTRL_EN, Fld.RAS_STATUS_STATE]

/-! ### AUXCLK outputs -/

theorem State.auxPut_core (s : State) (i : Nat) (a : Aux) : (s.auxPut i a).tickCore = s.tickCore := by
  simp only [State.auxPut, State.emit_core, core_mk, core_fold, ite_core, ite_self]

theorem State.auxOut_core (s : State) (i : Nat) (x : Ratio) : (s.auxOut i x).tickCore = s.tickCore := by
  unfold State.auxOut
  dsimp only
  repeat' split
  all_goals simp only [State.auxPut_core]

theorem State.auxCut_core (s : State) (i : Nat) : (s.auxCut i).tickCore = s.tickCore := by
  simp only [State.auxCut, State.auxPut_core]

theorem State.auxStart_core (s : State) (i : Nat) (x : Ratio) : (s.auxStart i x).tickCore = s.tickCore := by
  unfold State.auxStart
  dsimp only
  repeat' split
  all_goals simp only [State.auxCut_core, State.auxPut_core]

theorem State.auxFresh_core (s : State) (i : Nat) : (s.auxFresh i).tickCore = s.tickCore := by
  unfold State.auxFresh
  split
  · exact State.auxCut_core _ _
  · exact State.auxStart_core _ _ _

theorem State.auxAlign_core (s : State) (i : Nat) (ts : Tu) : (s.auxAlign i ts).tickCore = s.tickCore := by
  unfold State.auxAlign
  dsimp only
  repeat' split
  all_goals simp only [State.auxPut_core]

theorem State.auxSync_core (s : State) (ts : Tu) : (s.auxSync ts).tickCore = s.tickCore := by
  simp only [State.auxSync, State.auxAlign_core, each_core, implies_true, ite_core, ite_self, Fld.PLL_AUX_CFG_ALIGN]

theorem State.auxFollow_core (s : State) (m : Nat) (f : State → Nat → State) (hf : ∀ a i, (f a i).tickCore = a.tickCore) :
    (s.auxFollow m f).tickCore = s.tickCore := by
  exact each_core (fun a i => ite_core_eq (hf a i) rfl) s

/-! ### Anchors -/

theorem State.anchorLater_core (s : State) (e : Nat) (t : Tu) (fast : Bool) : (s.anchorLater e t fast).tickCore = s.tickCore := by
  simp only [State.anchorLater, State.modSpll_core]

theorem State.setAnchor_core (s : State) (e : Nat) (frame : Frame) (fast : Bool) (t : Tu) :
    (s.setAnchor e frame fast t).tickCore = s.tickCore := by
  simp only [State.setAnchor, ite_core, State.redStartAll_core, ite_self]
  refine State.loseGrid_core s e _ ?_
  simp only [State.modSpll_core, State.setFrame_core, State.ofsHold_core, State.endMove_core, coreReg, Bool.or_self,
    Bool.false_eq_true,
    if_false]

theorem State.anchorReached_core (s : State) (e : Nat) : (s.anchorReached e).tickCore = s.tickCore := by
  refine ite_core_eq (State.onGrid_core s e _ (ite_core_eq ?_ (State.endMove_core s e))) rfl
  rw [State.modSpll_core, State.align_core, State.endMove_core]

theorem State.anchorTick_core (s : State) (frame : Frame) : (s.anchorTick frame).tickCore = s.tickCore := by
  refine each_core (fun a e => ?_) s
  split
  · rw [ite_core, State.setAnchor_core, ite_self]
  · rfl

theorem State.unalign_core (s : State) (e : Nat) : (s.unalign e).tickCore = s.tickCore := by
  refine State.loseGrid_core s e _ ?_
  rw [State.modSpll_core, State.endMove_core]

theorem State.unalignSlow_core (s : State) (e : Nat) : (s.unalignSlow e).tickCore = s.tickCore := by
  refine State.loseGrid_core s e _ ((State.modSpll_core _ _ _).trans ?_)
  exact ite_core_eq rfl (State.endMove_core _ _)

/-! ### Rate changes -/

theorem State.setRate_core (s : State) (e rate : Nat) : (s.setRate e rate).tickCore = s.tickCore := by
  refine ite_core_eq rfl ((State.auxFollow_core _ _ _ fun a i => State.auxOut_core _ _ _).trans (State.loseGrid_core s e _ ?_))
  exact State.setFld_core _ _ _ _

theorem State.rateHold_core (s : State) (e : Nat) : (s.rateHold e).tickCore = s.tickCore := by
  simp only [State.rateHold, State.modSpll_core, State.setRate_core]

theorem State.startFollow_core (s : State) (e target : Nat) : (s.startFollow e target).tickCore = s.tickCore := by
  simp only [State.startFollow, State.modSpll_core, State.rateHold_core, State.unalignSlow_core, State.setFld_core, coreReg,
    Bool.false_eq_true, if_false, Fld.PLL_SPLL_STATUS_STATE]

theorem State.startRamp_core (s : State) (e target : Nat) : (s.startRamp e target).tickCore = s.tickCore := by
  simp only [State.startRamp, State.modSpll_core, State.pauseLanes_core, State.rateHold_core, State.unalign_core,
    State.setFld_core, coreReg, Bool.false_eq_true, if_false, Fld.PLL_SPLL_STATUS_LOCK, Fld.PLL_SPLL_STATUS_SETTLED,
    Fld.PLL_SPLL_STATUS_STATE]

theorem State.changeRate_core (s : State) (e target : Nat) : (s.changeRate e target).tickCore = s.tickCore := by
  simp only [State.changeRate, State.startFollow_core, State.startRamp_core, ite_core, ite_self, Fld.PLL_SPLL_CFG_FORCE_RAMP]

theorem State.commitRate_core (s : State) (e : Nat) (v : Word) : (s.commitRate e v).tickCore = s.tickCore := by
  simp only [State.commitRate, State.changeRate_core, State.setFld_core, coreReg, Bool.false_eq_true, if_false,
    Fld.PLL_SPLL_RATE_RATE]

theorem State.commitSpllCfg_core (s : State) (e : Nat) (v : Word) : (s.commitSpllCfg e v).tickCore = s.tickCore := by
  simp only [State.commitSpllCfg, State.modSpll_core, State.startRamp_core, State.setFld_core, ite_core, ite_self, coreReg,
    Bool.false_eq_true, if_false, Fld.PLL_SPLL_CFG_BW, Fld.PLL_SPLL_CFG_REF_MODE]

theorem State.commitLockCfg_core (s : State) (p : Nat) (v : Word) : (s.commitLockCfg p v).tickCore = s.tickCore := by
  simp only [State.commitLockCfg, State.setReg_core, coreReg, Bool.false_eq_true, if_false]

theorem State.limitRate_core (s : State) (e : Nat) : (s.limitRate e).tickCore = s.tickCore := by
  simp only [State.limitRate, State.changeRate_core, State.setFld_core, ite_core, ite_self, coreReg, Bool.false_eq_true,
    if_false, Fld.PLL_SPLL_RATE_RATE]

/-! ### Lock -/

theorem State.startLanes_core (s : State) (e : Nat) : (s.startLanes e).tickCore = s.tickCore := by
  simp only [State.startLanes, State.modLane_core, State.setFld_core, each_core, implies_true, ite_core, ite_self, coreReg,
    Bool.false_eq_true, if_false, Fld.ILV_LANE_STATUS_PAUSED]

/-! ### What has come to pass by now -/

theorem State.anchorsReached_core (s : State) : s.anchorsReached.tickCore = s.tickCore := by
  simp only [State.anchorsReached, State.anchorReached_core, each_core, implies_true]

/-! ### Instants that a move of local time takes along -/

theorem State.shiftUnits_core (s : State) (d : Int) : (s.shiftUnits d).tickCore = s.tickCore := by
  simp only [State.shiftUnits, State.modAfe_core, State.modLane_core, State.modSpll_core, each_core, implies_true]

theorem State.shiftTriggers_core (s : State) (d : Int) : (s.shiftTriggers d).tickCore = s.tickCore := by
  unfold State.shiftTriggers
  dsimp only
  simp only [core_mk, core_fold]
  rw [each_core, each_core, each_core]
  all_goals exact fun a i => rfl

/-! ### The JPLL -/

theorem State.jpllUnlock_core (s : State) : s.jpllUnlock.tickCore = s.tickCore := by
  simp only [State.jpllUnlock, State.setFld_core, State.raise_core, ite_core, ite_self, coreReg, coreEvent, Bool.false_eq_true,
    if_false, Nat.reduceEqDiff, or_self, decide_false, Fld.PLL_JPLL_STATUS_LOCK, Fld.PLL_JPLL_STATUS_LOST]

theorem State.setActive_core (s : State) (x : Nat) : (s.setActive x).tickCore = s.tickCore := by
  simp only [State.setActive, State.pmuCoast_core, State.setFld_core, coreReg, Bool.false_eq_true, if_false,
    Fld.CLK_SRC_STATUS_ACTIVE, Fld.PLL_JPLL_STATUS_COAST]

/-! ### Sources -/

theorem State.relockIdle_core (s : State) : s.relockIdle.tickCore = s.tickCore := by
  simp only [State.relockIdle, State.setFld_core, core_mk, core_fold, coreReg, Bool.false_eq_true, if_false,
    Fld.TLK_STATUS_RELOCK_STATE]

theorem State.unqualify_core (s : State) (x : Nat) : (s.unqualify x).tickCore = s.tickCore := by
  unfold State.unqualify
  have h1 : ((s.setFld (qualFld x) 0 0).setFld (qcountFld x) 0 0).tickCore = s.tickCore := by
    rw [State.setFld_core, State.setFld_core, qualFld_reg, qcountFld_reg]
    rfl
  exact ite_core_eq ((State.relockIdle_core _).trans h1) h1

/-! ### Relock and STEP -/

theorem State.noteK_core (s : State) (k : Nat) : (s.noteK k).tickCore = s.tickCore := by
  simp only [State.noteK, State.setFld_core, State.raise0_core, ite_core, ite_self, coreReg, coreEvent, Bool.false_eq_true,
    if_false, Nat.reduceEqDiff, or_self, decide_false, Fld.TLK_STATUS_K_LINK, Fld.TLK_STATUS_K_MATCH]

/-! ### Broadcasts and triggers -/

theorem State.dropBcast_core (s : State) : s.dropBcast.tickCore = s.tickCore := by
  simp only [State.dropBcast, State.bump_core, State.raise0_core, coreReg, coreEvent, Bool.false_eq_true, if_false,
    Nat.reduceEqDiff, or_self, decide_false, Fld.TLK_BCAST_DROP_COUNT]

/-! ### Multiplexers -/

theorem State.setMux_core (s : State) (m x : Nat) : (s.setMux m x).tickCore = s.tickCore := by
  simp only [State.setMux, State.setReg_core, coreReg, Bool.false_eq_true, if_false]

/-! ### Clocks stop and start -/

theorem State.setGate_core (s : State) (n : Nat) (b : Bool) : (s.setGate n b).tickCore = s.tickCore := by
  simp only [State.setGate, State.setReg_core, ite_core, ite_self, coreReg, Bool.false_eq_true, if_false]

theorem State.stopNode_core (s : State) (n : Nat) : (s.stopNode n).tickCore = s.tickCore := by
  unfold State.stopNode
  refine ite_core_eq rfl ?_
  dsimp only
  refine ite_core_eq ?_ ?_
  · rw [State.auxFollow_core _ _ _ fun a i => State.auxCut_core _ _, State.setGate_core]
  · simp only [State.abandonDwell_core, State.auxOut_core, State.rasGateClosed_core, State.setGate_core, ite_core, ite_self]

theorem State.clusterWoken_core (s : State) (c : Nat) : (s.clusterWoken c).tickCore = s.tickCore := by
  simp only [State.clusterWoken, State.accLose_core, State.freshComp_core, State.makeStale_core, State.settle_core, foldl_core,
    implies_true, core_mk, core_fold]

theorem State.laneStarted_core (s : State) (ln : Nat) : (s.laneStarted ln).tickCore = s.tickCore := by
  simp only [State.laneStarted, State.freshComp_core, State.makeStale_core, State.startLanes_core]

theorem State.startNode_core (s : State) (n : Nat) : (s.startNode n).tickCore = s.tickCore := by
  unfold State.startNode
  refine ite_core_eq rfl ?_
  dsimp only
  refine ite_core_eq ?_ ?_
  · rw [State.auxFollow_core _ _ _ fun a i => State.auxFresh_core _ _, ite_core, State.anchorLater_core, ite_self,
    State.setGate_core]
  · simp only [State.auxFresh_core, State.clusterWoken_core, State.laneStarted_core, State.pmuGo_core, State.rasResume_core,
    State.setGate_core, ite_core, ite_self]

theorem State.wokenTick_core (s : State) : s.wokenTick.tickCore = s.tickCore := by
  simp only [State.wokenTick, State.redStartAll_core, each_core, implies_true, core_mk, core_fold, ite_core, ite_self]

end Sys2Proof.Machine
end

section
/-! SUPPORT. Operations that leave the core of a tick: SYNC, the twin link, the pitch, power, commits and the tick. -/

namespace Sys2Proof.Machine

/-! ### SYNC -/

theorem State.syncAt_core (s : State) (ts : Tu) (src : Nat) (twin : Bool) : (s.syncAt ts src twin).tickCore = s.tickCore := by
  simp only [State.syncAt, core_mk, core_fold]

theorem State.syncPulse_core (s : State) (ts : Tu) : (s.syncPulse ts).tickCore = s.tickCore := by
  simp only [State.syncPulse, State.emit_core, core_mk, core_fold, ite_core, ite_self, Fld.HUB_SYNC_CFG_OUT_EN]

/-! ### A SYNC may make a SECONDARY-IDLE part SECONDARY (R377) -/

/-- What SYNCs leave of a core. -/
def MayJoin (k k' : TickCore) : Prop := k' = k ∨ (k.fld Fld.GLN_STATUS_ROLE 0 = 3 ∧ k' = k.put Fld.GLN_STATUS_ROLE 0 2)

theorem MayJoin.trans {k k' k'' : TickCore} (h : MayJoin k k') (h' : MayJoin k' k'') : MayJoin k k'' := by
  obtain rfl | ⟨hr, rfl⟩ := h
  · exact h'
  · obtain rfl | ⟨hr', _⟩ := h'
    · exact .inr ⟨hr, rfl⟩
    · rw [TickCore.fld_put_same _ _ _ _ (by decide)] at hr'
      exact absurd hr' (by decide)

theorem MayJoin.of_eq {k₀ k k' : TickCore} (h : k₀ = k) (hj : MayJoin k₀ k') : MayJoin k k' := h ▸ hj

theorem State.syncJoin_core (s : State) : MayJoin s.tickCore (State.syncJoin s).tickCore := by
  unfold State.syncJoin
  split
  · exact .inl rfl
  split
  · next hc => exact .inr ⟨hc.1, by rw [State.raise_core, if_neg (by decide), State.setFld_put _ _ rfl rfl]⟩
  · exact .inl rfl

theorem State.syncEffects_core (s : State) (ts : Tu) : (s.syncEffects ts).tickCore = s.tickCore := by
  simp only [State.syncEffects, State.auxSync_core, State.forceDue_core, State.redStartAll_core, State.syncPulse_core,
    each_core, implies_true]

theorem State.syncGroup_core (s : State) (x : SyncAt) (xs : List SyncAt) :
    MayJoin s.tickCore (State.syncGroup s x xs).tickCore := by
  unfold State.syncGroup
  dsimp only
  generalize (xs.foldl (fun a b => if syncRank b.src < syncRank a.src then b else a) x) = y
  have h1 : ∀ l : List Tu, (l.foldl (fun s ts => if ts = x.ts then s else s.syncEffects ts) (s.syncEffects x.ts)).tickCore =
      s.tickCore := fun l =>
    (foldl_core (fun a ts => ite_core_eq rfl (State.syncEffects_core _ _)) l _).trans (State.syncEffects_core _ _)
  have h2 : ∀ b : State, ((b.setPair .HUB_SYNC_LAST_LO .HUB_SYNC_LAST_HI 0 y.ts).setFld Fld.HUB_SYNC_SRC_SRC 0 y.src).tickCore =
      b.tickCore := fun b => by
    simp only [State.setFld_core, State.setPair_core, coreReg, Fld.HUB_SYNC_SRC_SRC, Bool.or_self, Bool.false_eq_true, if_false]
  split
  · refine .of_eq ?_ (State.syncJoin_core _)
    exact (h2 _).trans (h1 _)
  · exact .inl ((h2 _).trans (h1 _))

theorem State.syncNext_core (s : State) : MayJoin s.tickCore (State.syncNext s).tickCore := by
  unfold State.syncNext
  split
  · exact .inl rfl
  · refine .of_eq ?_ (State.syncGroup_core _ _ _)
    rfl

theorem State.syncUpTo_core (s : State) (t : Tu) : MayJoin s.tickCore (State.syncUpTo s t).tickCore := by
  unfold State.syncUpTo
  generalize s.sync.waiting = l
  induction l generalizing s with
  | nil => exact .inl rfl
  | cons x l ih =>
    refine .trans ?_ (ih _)
    dsimp only
    split
    · split
      · exact State.syncNext_core _
      · exact .inl rfl
    · exact .inl rfl

/-! ### Attach -/

theorem State.sendHello_core (s : State) : s.sendHello.tickCore = s.tickCore := by
  unfold State.sendHello
  split
  · rfl
  · exact State.glnSend_core _ _ _ _ _

theorem State.attachEnd_core (s : State) (status : Nat) (res : List Word) : (s.attachEnd status res).tickCore = s.tickCore := by
  unfold State.attachEnd
  split
  · rfl
  · exact State.mbDone_core _ _ _

/-! ### Frame comparison -/

theorem State.cmpLast_core (s : State) (f : Frame) : (s.cmpLast f).tickCore = s.tickCore := by
  simp only [State.cmpLast, State.setFrame_core, Bool.or_self, coreReg, Bool.false_eq_true, if_false]

theorem State.cmpValue_core (s : State) (f : Frame) (bit ch : Nat) (beyond : Bool) :
    (s.cmpValue f bit ch beyond).tickCore = s.tickCore := by
  simp only [State.cmpValue, State.cmpLast_core, State.bump_core, State.raise_core, ite_core, ite_self, coreReg, coreEvent,
    Bool.false_eq_true, if_false, Nat.reduceEqDiff, or_self, decide_false, Fld.GLN_CMP_VAL_CNT_COUNT]

theorem State.cmpDigest_core (s : State) (f : Frame) (a b : Word × Nat × Nat) : (s.cmpDigest f a b).tickCore = s.tickCore := by
  simp only [State.cmpDigest, State.cmpLast_core, State.cmpValue_core, State.bump_core, State.raise0_core, ite_core, ite_self,
    coreReg, coreEvent, Bool.false_eq_true, if_false, Nat.reduceEqDiff, or_self, decide_false, Fld.GLN_CMP_CTRL_CNT_COUNT,
    Fld.GLN_CMP_TOL_FIRES, Fld.GLN_CMP_TOL_SEG]

theorem State.cmpChsum_core (s : State) (f : Frame) (c : Nat) (a b : List (Int × Nat)) :
    (s.cmpChsum f c a b).tickCore = s.tickCore := by
  simp only [State.cmpChsum, State.cmpValue_core, foldl_core, implies_true, ite_core, ite_self, Fld.GLN_CMP_CFG_CH_MASK,
    Fld.GLN_CMP_TOL_MEAN, Fld.GLN_CMP_TOL_OVR]

theorem State.cmpFrame_core (s : State) (f : Frame) : (s.cmpFrame f).tickCore = s.tickCore := by
  unfold State.cmpFrame
  refine ite_core_eq rfl ((foldl_core (fun a c => ?_) _ _).trans ?_)
  all_goals
    dsimp -failIfUnchanged only
    split
  · exact State.cmpChsum_core _ _ _ _ _
  · rfl
  · exact State.cmpDigest_core _ _ _ _
  · rfl

theorem State.glnRecords_core (s : State) : s.glnRecords.tickCore = s.tickCore := by
  unfold State.glnRecords
  refine ite_core_eq rfl ?_
  dsimp only
  refine ((State.cmpFrame_core _ _).trans ?_ : _)
  simp only [core_mk, core_fold, foldl_core, State.glnSend_core, implies_true]
  rfl

/-! ### DELIVERED_THROUGH and BEAT -/

theorem State.sendBeat_core (s : State) : s.sendBeat.tickCore = s.tickCore := by
  simp only [State.sendBeat, State.glnSend_core, State.setFrame_core, Bool.or_self, ite_core, ite_self, coreReg,
    Bool.false_eq_true, if_false]

/-! ### Ticks -/

theorem State.glnSends_core (s : State) : s.glnSends.tickCore = s.tickCore := by
  unfold State.glnSends
  dsimp only
  repeat' split
  all_goals simp only [State.glnSend_core, State.sendBeat_core, State.sendHello_core]

/-! ### Fields fixed by the image -/

theorem State.lkClusters_core (s : State) (rs : List ImgRec) : (s.lkClusters rs).tickCore = s.tickCore := by
  simp only [State.lkClusters, State.setReg_core, State.setFld_core, each_core, implies_true, coreReg, Bool.false_eq_true,
    if_false, Fld.ACC_MASK_CFG_ABSENT, Fld.ACC_PLANE_SRC_CH, Fld.ILV_MODE_MODE, Fld.RED_PACE_PACE, Fld.TIC_SRC_START,
    Fld.TIC_SRC_STOP, Fld.TRG_GEN_SRC_OUT_MASK, Fld.TRG_GEN_SRC_SRC_CH]

theorem State.lkRegions_core (s : State) (rs : List ImgRec) : (s.lkRegions rs).tickCore = s.tickCore := by
  simp only [State.lkRegions, State.setReg_core, State.setPair_core, Bool.or_self, State.setFld_core, each_core, implies_true,
    coreReg, Bool.false_eq_true, if_false, Fld.SEG_REGION_CFG_CH_MASK, Fld.SEG_REGION_CFG_FORMAT, Fld.SEG_REGION_CFG_MODE]

theorem coreReg_route_add {n : Nat} (k : Nat) (h : 58 < n) : coreReg .EVT_ROUTE (n + k) = false := decide_eq_false (by omega)

theorem State.lkQueues_core (s : State) (rs : List ImgRec) : (s.lkQueues rs).tickCore = s.tickCore := by
  refine each_core (fun a q => ?_) s
  have he : ∀ (f : Fld) x (a : State), f.reg = .EVT_ROUTE → (a.setFld f (304 + q) x).tickCore = a.tickCore := fun f x a hf => by
    rw [State.setFld_core, hf, coreReg_route_add _ (by decide)]
    rfl
  dsimp only
  rw [he _ _ _ rfl, he _ _ _ rfl]
  simp only [State.setFld_core, coreReg, Fld.DMA_Q_KIND_KIND, Fld.DMA_Q_KIND_UNIT, Fld.DMA_Q_KIND_VECTOR,
    Fld.DMA_Q_DELIV_LAT_CLASS,
    Fld.DMA_Q_DELIV_FULL_POLICY, Bool.false_eq_true, if_false]

/-! ### Registers that a pitch resets -/

theorem State.pitchReset_core (s : State) (names : List RegName) (p : Nat → Bool) (hn : (names.all fun n => !coreReg n 36) =
    true) :
    (s.pitchReset names p).tickCore = s.tickCore := by
  exact State.resetRegs_core s names p hn

theorem State.pitchCluster_core (s : State) (c : Nat) : (s.pitchCluster c).tickCore = s.tickCore := by
  simp only [State.pitchCluster, core_mk, core_fold, each_core, State.freshComp_core, State.accLose_core, implies_true]
  rw [State.pitchReset_core, State.pitchReset_core, State.pitchReset_core] <;> decide

theorem State.pitchRegions_core (s : State) (p : Nat → Bool) : (s.pitchRegions p).tickCore = s.tickCore := by
  exact State.pitchReset_core s segNames p (by decide)

theorem State.pitchQueues_core (s : State) (rs : List ImgRec) (p : Nat → Bool) : (s.pitchQueues rs p).tickCore = s.tickCore := by
  simp only [State.pitchQueues, State.syncInflight_core, each_core, ite_core, State.setQState_core, ite_self, implies_true,
    core_mk,
    core_fold]
  exact State.pitchReset_core s queueNames p (by decide)

theorem State.pitchLayers_core (s : State) : s.pitchLayers.tickCore = s.tickCore := by
  exact (State.modRas_core _ _).trans (State.pitchReset_core s layerNames _ (by decide))

/-! ### Lanes and channels -/

theorem State.pitchLane_core (s0 : State) (ln : Nat) : (s0.pitchLane ln).tickCore = s0.tickCore := by
  simp only [State.pitchLane, State.freezeLane_core, State.makeStale_core, State.modLane_core, ite_core, ite_self,
    Fld.ILV_CAL_CTRL_FREEZE]

theorem State.pitchChan_core (s : State) (ch : Nat) : (s.pitchChan ch).tickCore = s.tickCore := by
  simp only [State.pitchChan, State.modAfe_core, State.settle_core, State.setFld_core, ite_core, ite_self, coreReg,
    Bool.false_eq_true, if_false, Fld.AFE_OVR_CNT_COUNT, Fld.AFE_STATUS_DISCONNECTED]

/-! ### Gates -/

theorem State.bootGates_core (s : State) : s.bootGates.tickCore = s.tickCore := by
  simp only [State.bootGates, State.startNode_core, State.stopNode_core, each_core, implies_true, ite_core, ite_self]

theorem State.routeGates_core (s : State) : s.routeGates.tickCore = s.tickCore := by
  simp only [State.routeGates, State.stopNode_core, State.raise_core, each_core, implies_true, ite_core, ite_self, coreEvent,
    Bool.false_eq_true, if_false, Nat.reduceEqDiff, or_self, decide_false]

/-! ### Applying -/

theorem State.pitchNotes_core (s : State) (c : Nat) : (s.pitchNotes c).tickCore = s.tickCore := by
  simp only [State.pitchNotes, State.noteAcc_core, State.noteGens_core, State.ticNote_core, State.setFld_core, foldl_core,
    implies_true, coreReg, Bool.false_eq_true, if_false, Fld.RED_SRC_CH]

theorem State.eccNow_core (s : State) : s.eccNow.tickCore = s.tickCore := by
  simp only [State.eccNow, State.setFld_core, each_core, implies_true, coreReg, Bool.false_eq_true, if_false, Fld.MEM_CFG_ECC,
    Fld.MEM_STATUS_ECC_NOW]

theorem State.missSlots_core (s : State) : s.missSlots.tickCore = s.tickCore := by
  simp only [State.missSlots, State.setFld_core, State.raise_core, each_core, implies_true, core_mk, core_fold, ite_core,
    ite_self, coreReg, coreEvent, Bool.false_eq_true, if_false, Nat.reduceEqDiff, or_self, decide_false,
    Fld.HUB_SCHED_STATUS_LAST, Fld.HUB_SCHED_STATUS_STATUS]

theorem State.pitchCut_core (s : State) : s.pitchCut.tickCore = s.tickCore := by
  simp only [State.pitchCut, State.abortRecord_core, State.abortXfers_core, State.modQueue_core, State.syncInflight_core,
    State.syncStaged_core, foldl_core, implies_true, ite_core, ite_self]

/-! ### Supplies and resets -/

theorem State.modPwr_core (s : State) (f : Pwr → Pwr) : (s.modPwr f).tickCore = s.tickCore := by
  simp only [State.modPwr, core_mk, core_fold]

/-! ### Nodes of a unit, in closing order -/

theorem State.closeAll_core (s : State) (ns : List Nat) : (s.closeAll ns).tickCore = s.tickCore := by
  simp only [State.closeAll, State.modPwr_core, State.stopNode_core, foldl_core, implies_true, ite_core, ite_self]

/-! ### Sleep and wake -/

theorem State.setClSleep_core (s : State) (mask : Nat) (b : Bool) : (s.setClSleep mask b).tickCore = s.tickCore := by
  simp only [State.setClSleep, State.setFld_core, coreReg, Bool.false_eq_true, if_false, Fld.HUB_PWR_STATUS_CL_SLEEP]

theorem State.setEngSleep_core (s : State) (e : Nat) (b : Bool) : (s.setEngSleep e b).tickCore = s.tickCore := by
  simp only [State.setEngSleep, State.setFld_core, coreReg, Bool.false_eq_true, if_false, Fld.HUB_PWR_STATUS_ENG_SLEEP]

theorem State.spllStop_core (s : State) (e : Nat) : (s.spllStop e).tickCore = s.tickCore := by
  simp only [State.spllStop, State.modSpll_core, State.rateHold_core, State.unalign_core, State.setFld_core, coreReg,
    Bool.false_eq_true, if_false, Fld.PLL_SPLL_STATUS_LOCK, Fld.PLL_SPLL_STATUS_SETTLED, Fld.PLL_SPLL_STATUS_STATE]

theorem State.dieDown_core (s : State) (e : Nat) : (s.dieDown e).tickCore = s.tickCore := by
  simp only [State.dieDown, State.closeAll_core, State.modPwr_core, State.setClSleep_core, State.setEngSleep_core,
    State.spllStop_core]

/-! ### Thermal hold and trip -/

theorem State.holdStops_core (s : State) (z : Nat) : (s.holdStops z).tickCore = s.tickCore := by
  simp only [State.holdStops, State.beginDrain_core, State.commitTicCfg_core, State.disarmRegions_core, State.modRas_core,
    State.setFld_core, foldl_core, implies_true, ite_core, ite_self, coreReg, Bool.false_eq_true, if_false,
    Fld.RAS_LAYER_CFG_EN, Fld.RAS_LAYER_SRC_KIND, Fld.RAS_LAYER_SRC_UNIT]

theorem State.enterHold_core (s : State) (z : Nat) : (s.enterHold z).tickCore = s.tickCore := by
  simp only [State.enterHold, State.holdStops_core, State.modPwr_core, State.setFld_core, State.raise_core, foldl_core,
    implies_true, ite_core, ite_self, coreReg, coreEvent, Bool.false_eq_true, if_false, Nat.reduceEqDiff, or_self, decide_false,
    Fld.HUB_PWR_STATUS_THERM_HOLD]

/-! ### Shadowed registers -/

theorem State.commitReg_core (host : List HostRead) (s : State) (w : ShWrite) :
    (State.commitReg host s w).tickCore = s.tickCore := by
  have hc : ∀ n, w.reg.n = n → coreReg n w.reg.i = false → coreReg w.reg.n w.reg.i = false := fun n h hn => h ▸ hn
  unfold State.commitReg
  dsimp only
  split
  case h_8 | h_9 => exact State.commitLevel_core _ _ _ _ (hc _ (by assumption) rfl)
  case h_10 | h_11 | h_12 | h_13 | h_14 | h_15 | h_16 | h_17 | h_18 =>
    exact State.commitGen_core _ _ _ _ (hc _ (by assumption) rfl)
  case h_19 | h_20 | h_21 | h_22 | h_23 => exact State.commitRed_core _ _ _ _ (hc _ (by assumption) rfl)
  case h_24 | h_25 | h_26 | h_27 | h_28 | h_29 => exact State.commitPlane_core _ _ _ _ (hc _ (by assumption) rfl)
  case h_34 | h_35 | h_36 | h_37 | h_38 => exact State.commitTic_core _ _ _ _ (hc _ (by assumption) rfl)
  all_goals simp only [State.commitAccCtrl_core, State.commitAfeCfg_core, State.commitAfeOffset_core, State.commitEn_core,
    State.commitLockCfg_core, State.commitMask_core, State.commitPre_core, State.commitRate_core, State.commitSeqCtrl_core,
    State.commitSnap_core, State.commitSpllCfg_core, State.commitTicCfg_core, State.setFld_core, coreReg, Bool.false_eq_true,
    if_false, Fld.DMA_Q_CTRL_EN]

theorem State.commitArms_core (s : State) (ws : List ShWrite) : (s.commitArms ws).tickCore = s.tickCore := by
  simp only [State.commitArms, State.armRegions_core, State.disarmRegions_core, foldl_core, implies_true, ite_core, ite_self,
    Fld.HUB_PITCH_STATUS_STATE]

theorem State.commitRegs_core (host : List HostRead) (ws : List ShWrite) (p : RegName → Bool) (s : State) :
    (State.commitRegs host ws p s).tickCore = s.tickCore := by
  simp only [State.commitRegs, State.commitReg_core, foldl_core, implies_true]

theorem State.commitSh_core (host : List HostRead) (s : State) : (State.commitSh host s).tickCore = s.tickCore := by
  simp only [State.commitSh, State.commitArms_core, State.commitRegs_core, State.limitPlanes_core, State.setFrame_core,
    Bool.or_self, core_mk, core_fold, ite_core, ite_self, coreReg, Bool.false_eq_true, if_false]

theorem State.commitNow_core (host : List HostRead) (s : State) : (State.commitNow host s).tickCore = s.tickCore := by
  simp only [State.commitNow, State.commitSh_core, State.forceDue_core, each_core, implies_true]

theorem State.commitStep_core (host : List HostRead) (s : State) : (State.commitStep host s).tickCore = s.tickCore := by
  simp only [State.commitStep, State.commitNow_core, ite_core, ite_self]

/-! ### Broadcasts -/

theorem State.runBcast_core (s : State) (b : Bcast) : (s.runBcast b).tickCore = s.tickCore := by
  simp only [State.runBcast, State.armRegions_core, State.disarmRegions_core, State.syncAt_core, ite_core, ite_self,
    Fld.HUB_PITCH_STATUS_STATE]

theorem State.bcastStep_core (s : State) : s.bcastStep.tickCore = s.tickCore := by
  simp only [State.bcastStep, State.dropBcast_core, State.runBcast_core, foldl_core, implies_true, core_mk, core_fold]

/-! ### Schedule slots -/

theorem State.runSlot_core (host : List HostRead) (s : State) (i : Nat) (c : Capture) :
    (State.runSlot host s i c).1.tickCore = s.tickCore := by
  unfold State.runSlot
  dsimp only
  repeat' split
  all_goals simp only [State.accClear_core, State.armRegions_core, State.commitNow_core, State.disarmRegions_core,
    State.syncAt_core, State.setFld_core, State.raise_core, foldl_core, implies_true, core_mk, core_fold, coreReg, coreEvent,
    Bool.false_eq_true, if_false, Nat.reduceEqDiff, or_self, decide_false, Fld.HUB_SH_CTRL_HOLD]

theorem State.slotEnd_core (s : State) (i : Nat) (later : List Capture) (outcome : Nat) :
    (s.slotEnd i later outcome).tickCore = s.tickCore := by
  simp only [State.slotEnd, State.setFld_core, core_mk, core_fold, ite_core, ite_self, coreReg, Bool.false_eq_true, if_false,
    Fld.HUB_SCHED_STATUS_LAST, Fld.HUB_SCHED_STATUS_STATUS]

theorem State.slotTick_core (host : List HostRead) (first : Bool) (s : State) (i : Nat) :
    (State.slotTick host first s i).tickCore = s.tickCore := by
  unfold State.slotTick
  dsimp only
  repeat' split
  all_goals simp only [State.runSlot_core, State.slotEnd_core, State.raise_core, core_mk, core_fold, coreEvent,
    Bool.false_eq_true, if_false, Nat.reduceEqDiff, or_self, decide_false]

/-! ### STEP -/

theorem State.stepAnchor_core (s : State) (e : Nat) (d : Int) : (s.stepAnchor e d).tickCore = s.tickCore := by
  simp only [State.stepAnchor, State.anchorLater_core, State.setAnchor_core, State.unalign_core, ite_core, ite_self]

/-! ### The tick -/

theorem State.statusMsg_core (s : State) : s.statusMsg.tickCore = s.tickCore := by
  simp only [State.statusMsg, State.tlkSend_core, Fld.CLK_SRC_STATUS_ACTIVE, Fld.HUB_PITCH_STATUS_STATE, Fld.TLK_SITE_SITE_ID,
    Fld.TLK_STATUS_EPOCH_VALID, Fld.TLK_STATUS_RELOCK_STATE]

theorem State.tickMark_core (s : State) : s.tickMark.tickCore = s.tickCore := by
  simp only [State.tickMark, State.raise0_core, ite_core, ite_self, coreEvent, Bool.false_eq_true, if_false, Nat.reduceEqDiff,
    or_self, decide_false, Fld.HUB_TICK_CFG_MARK_EXP]

theorem State.syncCommit_core (s : State) : s.syncCommit.tickCore = s.tickCore := by
  simp only [State.syncCommit, State.syncAt_core, foldl_core, implies_true, core_mk, core_fold]

theorem State.pruneTick_core (s : State) : s.pruneTick.tickCore = s.tickCore := by
  simp only [State.pruneTick, core_mk, core_fold]

theorem State.laneStep_core (s : State) : s.laneStep.tickCore = s.tickCore := by
  simp only [State.laneStep, State.handovers_core, State.laneTick_core, each_core, implies_true]

theorem State.beforeTick_core (s : State) : MayJoin s.tickCore (State.beforeTick s).tickCore := by
  have h1 : ((s.anchorsReached.placeTrigsTo (s.time - 1)).pmuArrive (s.time - 1)).tickCore = s.tickCore := by
    rw [State.pmuArrive_core, State.placeTrigsTo_core, State.anchorsReached_core]
  unfold State.beforeTick
  rw [State.redSettle_core]
  exact .of_eq h1 (State.syncUpTo_core _ _)

theorem State.endFrameWork_core (s : State) : s.endFrameWork.tickCore = s.tickCore := by
  simp only [State.endFrameWork, State.judgeDue_core, State.stageDue_core, State.writeBackDue_core, each_core, implies_true]

end Sys2Proof.Machine
end

section
/-! SUPPORT. The operations of a tick that change its core: the pitch and the roles of the twin link. -/

namespace Sys2Proof.Machine

variable {s t u : State} {k k' : TickCore}

/-! ### The pitch -/

/-- The core with another pitch. -/
def TickCore.withPitch (k : TickCore) (p : Pitch) : TickCore := { k with pitch := p }

theorem State.modPitch_core (s : State) (f : Pitch → Pitch) : (s.modPitch f).tickCore = s.tickCore.withPitch (f s.pitch) := rfl

theorem State.pitchRefuse_core (s : State) (code detail : Nat) :
    (s.pitchRefuse code detail).tickCore =
      (s.tickCore.put Fld.HUB_PITCH_STATUS_RESULT 0 code).put Fld.HUB_PITCH_STATUS_DETAIL 0 detail := by
  rw [State.pitchRefuse, State.raise_core, if_neg (by decide), State.setFld_put _ _ rfl rfl, State.setFld_put _ _ rfl rfl]

theorem State.pitchT1_core (s : State) :
    s.pitchT1.tickCore = (s.tickCore.withPitch { s.pitch with t1 := some s.frame }).put Fld.HUB_PITCH_STATUS_STATE 0 2 := by
  have h : ∀ l : List Nat, ((l.foldl (fun s q => s.modQueue q fun x => { x with accepting := false })
      (s.each 32 fun s m => s.disarm m)).missSlots.ticStopAll).tickCore = s.tickCore := fun l => by
    rw [State.ticStopAll_core, State.missSlots_core, foldl_core fun a q => State.modQueue_core a q _, each_core State.disarm_core]
  unfold State.pitchT1
  dsimp only
  rw [State.setFld_put _ _ rfl rfl, State.modPitch_core, h]
  generalize hb : (List.foldl _ _ _ : State).missSlots.ticStopAll = b
  have hp : b.tickCore = s.tickCore := hb ▸ h _
  rw [show b.pitch = s.pitch from congrArg TickCore.pitch hp]

theorem State.setLK_core (s : State) (h : List Byte) (rs : List ImgRec) :
    (s.setLK h rs).tickCore = s.tickCore.put Fld.HUB_TICK_CFG_K 0 (hdrK h) := by
  unfold State.setLK
  dsimp only
  rw [State.lkQueues_core, State.lkRegions_core, State.lkClusters_core, each_core fun a x => State.setReg_core_of rfl a _,
    each_core fun a n => ?_]
  · rw [State.setFld_core, State.setFld_core, State.setFld_core, State.setFld_core]
    exact State.setFld_put _ _ rfl rfl
  · rw [State.setFld_core, State.setFld_core, State.setFld_core, State.setFld_core]
    rfl

theorem State.pitchReport_core (s : State) (b : List Byte) :
    (s.pitchReport b).tickCore = s.tickCore.put Fld.HUB_PITCH_PARTIAL_CL_MASK 0 0 := by
  unfold State.pitchReport
  dsimp only
  rw [State.setFld_core, State.setFld_core]
  exact (State.setFld_put _ _ rfl rfl).trans (by
    rw [State.setReg_core_of rfl, State.setReg_core_of rfl, State.setReg_core_of rfl])

/-- The core of a full image in force (R76 item 5). -/
def TickCore.pitchedWith (k : TickCore) (a : Accepted) : TickCore :=
  (((k.withPitch { Pitch.init with hdr := a.hdr, recs := a.recs, bytes := a.bytes }).put Fld.HUB_TICK_CFG_K 0 (hdrK a.hdr)).put
    Fld.HUB_PITCH_PARTIAL_CL_MASK 0 0).put Fld.HUB_PITCH_STATUS_STATE 0 3

/-- What an apply does before the image is in force. -/
theorem State.pitchCleared_core (s : State) (rs : List ImgRec) :
    ((((s.each 4 fun s c => s.pitchCluster c).pitchRegions fun _ => true).pitchQueues rs fun _ => true).pitchLayers).tickCore =
      s.tickCore := by
  rw [State.pitchLayers_core, State.pitchQueues_core, State.pitchRegions_core, each_core State.pitchCluster_core]

/-- What an apply does once the image is in force. -/
theorem State.pitchSettled_core (s : State) (boot first : Bool) (oldK : Nat) :
    ∀ s5 s6 s7 : State,
      s5 = ((((s.each 4 fun s c => s.pitchNotes c).eccNow).each 16 fun s n => (s.pitchLane n).pitchChan n).each 2 fun s e => s.limitRate e) →
      s6 = (if boot then s5.bootGates else s5.routeGates) →
      s7 = (if first then
        (s6.each 16 fun s n => s.modLane n fun l => { l with restart := l.restart || l.dwell.isSome }).each 2 fun s e =>
          if s.spllLock e then s.anchorLater e s.time false else s
      else s6) →
      ((if s7.k ≠ oldK ∧ s7.fld Fld.TLK_STATUS_K_LINK 0 ≠ 0 then s7.noteK (s7.fld Fld.TLK_STATUS_K_LINK 0) else s7).raise
        461 1 0).tickCore = s.tickCore := by
  intro s5 s6 s7 h5 h6 h7
  have c5 : s5.tickCore = s.tickCore := by
    rw [h5, each_core State.limitRate_core, each_core fun a n => (State.pitchChan_core _ n).trans (State.pitchLane_core a n),
      State.eccNow_core, each_core State.pitchNotes_core]
  have c6 : s6.tickCore = s5.tickCore := h6 ▸ ite_core_eq (State.bootGates_core _) (State.routeGates_core _)
  have c7 : s7.tickCore = s6.tickCore := by
    rw [h7]
    refine ite_core_eq ?_ rfl
    rw [each_core fun a e => ite_core_eq (State.anchorLater_core _ _ _ _) rfl, each_core fun a n => State.modLane_core _ _ _]
  rw [State.raise_core, if_neg (by decide)]
  refine (ite_core_eq (State.noteK_core _ _) rfl).trans (c7.trans (c6.trans c5))

theorem State.applyFull_core (s : State) (a : Accepted) (boot : Bool) :
    (s.applyFull a boot).tickCore = s.tickCore.pitchedWith a := by
  unfold State.applyFull
  dsimp only
  rw [State.pitchSettled_core _ boot (!s.pitched) s.k _ _ _ rfl rfl rfl, State.setFld_put _ _ rfl rfl, State.pitchReport_core,
    State.setLK_core, State.modPitch_core, State.pitchCleared_core]
  rfl

/-- The core of a partial image in force for cluster `c` (R80). -/
def TickCore.mergedWith (k : TickCore) (a : Accepted) (c : Nat) : TickCore :=
  ((k.withPitch { k.pitch with recs := recMerge k.pitch.recs a.recs, accepted := none }).put Fld.HUB_TICK_CFG_K 0 (hdrK k.pitch.hdr)).put
    Fld.HUB_PITCH_PARTIAL_CL_MASK 0 (k.fld Fld.HUB_PITCH_PARTIAL_CL_MASK 0 ||| 2 ^ c)

theorem State.applyPartial_core (s : State) (a : Accepted) (c : Nat) :
    (s.applyPartial a c).tickCore = s.tickCore.mergedWith a c := by
  unfold State.applyPartial
  dsimp only
  rw [State.raise_core, if_neg (by decide), foldl_core fun a n => (State.pitchChan_core _ _).trans (State.pitchLane_core a _),
    State.pitchNotes_core, State.setFld_put _ _ rfl rfl, State.fld_core _ rfl rfl, State.setReg_core_of rfl, State.setLK_core,
    State.modPitch_core]
  generalize hb : State.pitchQueues _ _ _ = b
  have hc : b.tickCore = s.tickCore := by
    rw [← hb, State.pitchQueues_core, State.pitchRegions_core, State.pitchCluster_core]
  rw [show b.pitch = s.pitch from congrArg TickCore.pitch hc, hc, TickCore.fld_put_ne _ _ _ _ _ _ (.inl (by decide))]
  rfl

end Sys2Proof.Machine
end

section
/-! SUPPORT. The three sides of a tick's core: the clock, the hub with its pitch, and the twin link; and what the operations
of a tick leave of them. -/

namespace Sys2Proof.Machine

variable {s t u : State} {k k' : TickCore}

/-- Time, frame and STEP. -/
def TickCore.clock (k : TickCore) : Tu × Frame × Bool × Option Int × Option Frame × Nat × Bool :=
  (k.time, k.frame, k.issued, k.step, k.stepFrame, k.fld Fld.HUB_TICK_STATUS_STEPPED 0, k.events 36)

/-- The clock and the pitch. -/
def TickCore.hub (k : TickCore) : (Tu × Frame × Bool × Option Int × Option Frame × Nat × Bool) × Pitch × Word × Word × Word :=
  (k.clock, k.pitch, k.regs .HUB_PITCH_STATUS 0, k.regs .HUB_PITCH_PARTIAL 0, k.regs .HUB_TICK_CFG 0)

/-- The frame, and the roles, failures and takeovers of the twin link. -/
def TickCore.twin (k : TickCore) : Frame × Bool × Bool × Nat × Nat × Nat × Bool × Bool :=
  (k.frame, k.gln.takeover, k.gln.declared, k.fld Fld.GLN_STATUS_ROLE 0, k.fld Fld.GLN_STATUS_MODE 0, k.fld Fld.GLN_STATUS_HELD 0,
    k.events 57, k.events 58)

def State.clock (s : State) : Tu × Frame × Bool × Option Int × Option Frame × Nat × Bool := s.tickCore.clock
def State.hub (s : State) : (Tu × Frame × Bool × Option Int × Option Frame × Nat × Bool) × Pitch × Word × Word × Word :=
  s.tickCore.hub
def State.twin (s : State) : Frame × Bool × Bool × Nat × Nat × Nat × Bool × Bool := s.tickCore.twin

theorem hub_of_core (h : t.tickCore = s.tickCore) : t.hub = s.hub := congrArg TickCore.hub h
theorem twin_of_core (h : t.tickCore = s.tickCore) : t.twin = s.twin := congrArg TickCore.twin h
theorem clock_of_hub (h : t.hub = s.hub) : t.clock = s.clock := congrArg Prod.fst h

theorem ite_hub_eq {c : Prop} [Decidable c] {a b : State} {k} (ha : a.hub = k) (hb : b.hub = k) :
    (if c then a else b).hub = k := by
  split <;> assumption

theorem ite_twin_eq {c : Prop} [Decidable c] {a b : State} {k} (ha : a.twin = k) (hb : b.twin = k) :
    (if c then a else b).twin = k := by
  split <;> assumption

/-! ### The hub and writes of the twin link -/

theorem TickCore.hub_put_gln (k : TickCore) {f : Fld} (i x : Nat) (hf : f.reg = .GLN_STATUS) : (k.put f i x).hub = k.hub := by
  unfold TickCore.hub TickCore.clock TickCore.put TickCore.fld
  rw [hf]
  rfl

theorem State.setGln_hub (s : State) {f : Fld} (x : Nat) (hf : f.reg = .GLN_STATUS) : (s.setFld f 0 x).hub = s.hub :=
  (congrArg TickCore.hub (State.setFld_put s x (hf ▸ rfl) (hf ▸ rfl))).trans (TickCore.hub_put_gln _ _ _ hf)

theorem State.modGln_hub (s : State) (f : Gln → Gln) : (s.modGln f).hub = s.hub := rfl

theorem State.raise_hub (s : State) (n causes info : Nat) (hn : n ≠ 36) : (s.raise n causes info).hub = s.hub := by
  have h := State.raise_raises (s := s) n causes info
  have he : coreEvents (s.raise n causes info).regs 36 = coreEvents s.regs 36 :=
    h.sameCoreEvents fun hm => hn (List.mem_singleton.1 hm).symm
  unfold State.hub
  rw [h.core_events]
  unfold TickCore.hub TickCore.clock
  dsimp only
  rw [he]
  rfl

theorem State.notePartner_core (s : State) : s.notePartner.tickCore = s.tickCore := State.setFld_core _ _ _ _

theorem State.releaseHeld_hub (s : State) : s.releaseHeld.hub = s.hub :=
  (hub_of_core (foldl_core (fun _ _ => ite_core_eq ((State.modQueue_core _ _ _).trans (State.setQState_core _ _ _)) rfl) _ _)).trans
    (State.setGln_hub (f := Fld.GLN_STATUS_HELD) s 0 rfl)

theorem State.becomeSolo_hub (s : State) : s.becomeSolo.hub = s.hub := by
  have h1 : ∀ a : State, (((a.setFld Fld.GLN_STATUS_ROLE 0 0).setFld Fld.GLN_STATUS_MODE 0 0).setFld Fld.GLN_STATUS_ALIGNED 0 0).hub =
      a.hub := fun a => by rw [State.setGln_hub _ _ rfl, State.setGln_hub _ _ rfl, State.setGln_hub _ _ rfl]
  unfold State.becomeSolo
  dsimp only
  rw [hub_of_core (State.notePartner_core _), State.modGln_hub, h1]
  exact ite_hub_eq (State.releaseHeld_hub _) rfl

theorem State.applyRole_hub (s : State) (role mode : Nat) : (s.applyRole role mode).hub = s.hub := by
  unfold State.applyRole
  dsimp only
  rw [hub_of_core (State.attachEnd_core _ _ _), State.raise_hub _ _ _ _ (by decide), hub_of_core (State.notePartner_core _),
    State.modGln_hub, State.setGln_hub _ _ rfl, State.setGln_hub _ _ rfl, State.setGln_hub _ _ rfl, State.setGln_hub _ _ rfl]

theorem State.depose_hub (s : State) : s.depose.hub = s.hub := by
  unfold State.depose
  dsimp only
  rw [State.raise_hub _ _ _ _ (by decide), State.modGln_hub, State.setGln_hub _ _ rfl, State.setGln_hub _ _ rfl]
  exact hub_of_core (foldl_core (fun a q => ite_core_eq
    ((State.syncStaged_core _ _).trans ((State.modQueue_core _ _ _).trans (State.setQState_core _ _ _))) rfl) _ _)

theorem State.takeOver_hub (s : State) : s.takeOver.hub = s.hub := by
  unfold State.takeOver
  dsimp only
  rw [State.raise_hub _ _ _ _ (by decide), State.raise0, State.raise_hub _ _ _ _ (by decide),
    hub_of_core (State.notePartner_core _),
    State.modGln_hub, State.setGln_hub _ _ rfl, State.setGln_hub _ _ rfl, State.setGln_hub _ _ rfl]

theorem State.declareFail_hub (s : State) : s.declareFail.hub = s.hub := by
  unfold State.declareFail
  dsimp only
  refine ite_hub_eq rfl (ite_hub_eq ?_ ?_)
  · rw [hub_of_core (State.glnSend_core _ _ _ _ _), State.modGln_hub, State.raise_hub _ _ _ _ (by decide), State.modGln_hub]
  · rw [State.raise_hub _ _ _ _ (by decide), State.modGln_hub]

theorem State.glnRoles_hub (s : State) : s.glnRoles.hub = s.hub := by
  unfold State.glnRoles
  dsimp only
  rw [State.declareFail_hub, State.glnAges, State.modGln_hub]
  have h1 : ∀ a : State, (match a.gln.rolePend with
      | some (f, r, m) => if frameLe f a.frame then a.applyRole r m else a
      | none => a).hub = a.hub := fun a => by
    split
    · exact ite_hub_eq (State.applyRole_hub _ _ _) rfl
    · rfl
  have h3 : ∀ a : State, (match a.gln.detachAt with
      | some (f, c) => if frameLe f a.frame then (a.becomeSolo).raise 50 c 0 else a
      | none => a).hub = a.hub := fun a => by
    split
    · exact ite_hub_eq ((State.raise_hub _ _ _ _ (by decide)).trans (State.becomeSolo_hub _)) rfl
    · rfl
  have h2 : ∀ a : State, (if a.gln.deposed then a.depose else a).hub = a.hub := fun a => ite_hub_eq (State.depose_hub _) rfl
  have h4 : ∀ a : State, (if a.gln.soloNext then (a.becomeSolo).raise 51 1 0 else a).hub = a.hub := fun a =>
    ite_hub_eq ((State.raise_hub _ _ _ _ (by decide)).trans (State.becomeSolo_hub _)) rfl
  have h5 : ∀ a : State, (if a.gln.takeover then a.takeOver else a).hub = a.hub := fun a => ite_hub_eq (State.takeOver_hub _) rfl
  exact (h5 _).trans ((h4 _).trans ((h3 _).trans ((h2 _).trans (h1 _))))

/-! ### Thermal hold -/

theorem State.loseLink_hub (s : State) : s.loseLink.hub = s.hub := ite_hub_eq (State.modGln_hub _ _) rfl

theorem State.linkDown_hub (s : State) : s.linkDown.hub = s.hub := by
  unfold State.linkDown
  dsimp only
  refine ite_hub_eq ?_ (State.loseLink_hub _)
  rw [State.loseLink_hub, State.raise_hub _ _ _ _ (by decide), hub_of_core (State.notePartner_core _), State.modGln_hub,
    State.setGln_hub _ _ rfl]

theorem State.loseLink_twin (s : State) : s.loseLink.twin = s.twin := ite_twin_eq rfl rfl

theorem State.linkDown_twin (s : State) : s.linkDown.twin = s.twin := by
  unfold State.linkDown
  dsimp only
  refine ite_twin_eq ?_ (State.loseLink_twin _)
  rw [State.loseLink_twin, twin_of_core ((State.raise_core _ _ _ _).trans (if_neg (by decide))),
    twin_of_core (State.notePartner_core _)]
  have h : (s.setFld Fld.GLN_STATUS_LINK_UP 0 0).twin = s.twin := by
    unfold State.twin
    rw [State.setFld_put _ _ rfl rfl]
    unfold TickCore.twin
    rw [TickCore.fld_put_ne _ _ _ _ _ _ (by decide), TickCore.fld_put_ne _ _ _ _ _ _ (by decide),
      TickCore.fld_put_ne _ _ _ _ _ _ (by decide)]
    rfl
  exact h

theorem State.standbyMarked_core (a : State) :
    State.tickCore { a with
      pll := { a.pll with feedsLow := true, apllLockAt := none },
      clk := { a.clk with noSrcFrom := none },
      tlk := { a.tlk with echoOpen := false, run := 0 },
      pwr := { a.pwr with entered := a.time } } = a.tickCore := rfl

section
variable {α : Type} {π : State → α} (hπ : ∀ {a b : State}, b.tickCore = a.tickCore → π b = π a)
  (hl : ∀ a : State, π a.linkDown = π a)
include hπ hl

/-- Whatever depends on the core alone and does not feel the loss of the twin link is kept by a STANDBY. -/
theorem State.standbyDown_keeps (s : State) : π s.standbyDown = π s := by
  unfold State.standbyDown
  extract_lets s1 s2 s3 s4
  have h1 : s1.tickCore = s.tickCore := foldl_core (fun a e => ite_core_eq rfl (State.dieDown_core _ _)) _ _
  have h2 : π s2 = π s := (hl _).trans (hπ ((State.closeAll_core _ _).trans h1))
  have h3 : s3.tickCore = s2.tickCore := by
    simp only [s3, State.relockIdle_core, State.setActive_core, State.jpllUnlock_core, State.unqualify_core]
  have h4 : s4.tickCore = s3.tickCore := by
    simp only [s4, State.setFld_core, State.setMux_core, coreReg, Fld.PLL_APLL_STATUS_LOCK, Fld.TLK_STATUS_BLOCK_LOCK,
      Fld.HUB_PWR_STATUS_DEVICE, Bool.false_eq_true, if_false]
  exact (hπ (State.standbyMarked_core s4)).trans ((hπ (h4.trans h3)).trans h2)

theorem State.holdSleep_keeps (s : State) (z : Nat) : π (s.holdSleep z) = π s := by
  unfold State.holdSleep
  split
  · dsimp only
    have h1 : π (s.modPwr fun p => { p with draining := p.draining &&& ~~~(1#3 <<< z) }) = π s := hπ (State.modPwr_core _ _)
    split
    · split
      · exact h1
      · exact (State.standbyDown_keeps hπ hl _).trans h1
    · split
      · exact h1
      · exact (hπ (State.dieDown_core _ _)).trans h1
  · rfl

theorem State.thermalTick_keeps (s : State) : π s.thermalTick = π s := by
  unfold State.thermalTick
  dsimp only
  rw [foldl_keeps π (State.holdSleep_keeps hπ hl)]
  exact hπ ((State.modPwr_core _ _).trans (foldl_core State.enterHold_core _ _))

end

theorem State.thermalTick_hub (s : State) : s.thermalTick.hub = s.hub := State.thermalTick_keeps hub_of_core State.linkDown_hub s

theorem State.thermalTick_twin (s : State) : s.thermalTick.twin = s.twin :=
    State.thermalTick_keeps twin_of_core State.linkDown_twin s

end Sys2Proof.Machine
end

section
/-! SUPPORT. The tick as a whole: the core of the state that it leaves. -/

namespace Sys2Proof.Machine

variable {s t u : State} {k k' : TickCore}

/-- The core once the frame has begun. -/
def TickCore.opened (k : TickCore) (f : Frame) (source : Nat) : TickCore :=
  { k with frame := f, issued := true }.put Fld.HUB_TICK_STATUS_SOURCE 0 source

theorem MayJoin.to_eq {k k' k'' : TickCore} (h : MayJoin k k') (he : k'' = k') : MayJoin k k'' := he ▸ h

theorem State.opened_core (a : State) (f : Frame) :
    State.tickCore { a with frame := f, tick := { a.tick with issued := true } } =
      { a.tickCore with frame := f, issued := true } := rfl

/-- The state on which the roles of the twin link act: what the frame before owed is done, and the frame has begun. -/
def State.tickOpened (s : State) (f : Frame) : State :=
  let s0 := s.endFrameWork.keepWas
  ({ s0 with frame := f, tick := { s0.tick with issued := true } } : State).setFld Fld.HUB_TICK_STATUS_SOURCE 0
    (s0.fld Fld.CLK_SRC_STATUS_ACTIVE 0)

theorem State.tickOpened_core (s : State) (f : Frame) : ∃ v, (s.tickOpened f).tickCore = s.tickCore.opened f v := by
  refine ⟨s.endFrameWork.keepWas.fld Fld.CLK_SRC_STATUS_ACTIVE 0, ?_⟩
  rw [State.tickOpened, State.setFld_put _ _ rfl rfl, State.opened_core, State.keepWas_core, State.endFrameWork_core]
  rfl

/-- A tick begins its frame, applies the roles of the twin link, then the pitch that has drained or is partial, begins the
apply of a full one, enters thermal hold; SYNCs may then join the part (Table TCK-2). -/
theorem State.issueTick_core (host : List HostRead) (s : State) (f : Frame) :
    ∃ x : State, x.tickCore = (s.tickOpened f).glnRoles.pitchTick.tickCore ∧
      MayJoin x.pitchBegin.thermalTick.tickCore (s.issueTick host f).tickCore := by
  unfold State.issueTick
  extract_lets first s0 tick0 s1 s2 off s3 s4 s5 s6 s7 fresh s8 s9
  have h4 : s4.tickCore = s3.tickCore := (each_core (State.slotTick_core host first) _).trans (State.bcastStep_core _)
  have h5 : MayJoin s3.tickCore s5.tickCore := by
    have hj := State.syncUpTo_core s4.syncCommit s4.time
    rw [State.syncCommit_core, h4] at hj
    exact hj.to_eq (State.ticAll_core _ _ _ _ _)
  have h7 : s7.tickCore = s5.tickCore :=
    (State.pmuTick_core _ _).trans ((State.pmuTick_core _ _).trans ((each_core State.markStale_core _).trans
      ((State.laneStep_core _).trans (State.wokenTick_core _))))
  have h9 : s9.tickCore = s7.tickCore :=
    (State.tickMark_core _).trans ((State.glnSends_core _).trans ((State.glnRecords_core _).trans ((State.noteBlocked_core _).trans
      ((State.stallTick_core _).trans (each_core (fun a q => State.queueTick_core a host fresh q) _)))))
  exact ⟨s2.commitStep host, (State.commitStep_core _ _).trans (State.anchorTick_core _ _),
    h5.to_eq ((State.pruneTick_core _).trans ((State.statusMsg_core _).trans (h9.trans h7)))⟩

theorem MayJoin.hub (h : MayJoin k k') : k'.hub = k.hub := by
  obtain rfl | ⟨_, rfl⟩ := h
  · rfl
  · exact TickCore.hub_put_gln _ _ _ rfl

theorem hub_time (h : t.hub = s.hub) : t.time = s.time := congrArg (·.1.1) h
theorem hub_frame (h : t.hub = s.hub) : t.frame = s.frame := congrArg (·.1.2.1) h
theorem hub_issued (h : t.hub = s.hub) : t.tick.issued = s.tick.issued := congrArg (·.1.2.2.1) h
theorem hub_step (h : t.hub = s.hub) : t.tlk.step = s.tlk.step := congrArg (·.1.2.2.2.1) h
theorem hub_stepFrame (h : t.hub = s.hub) : t.tlk.stepFrame = s.tlk.stepFrame := congrArg (·.1.2.2.2.2.1) h
theorem hub_pitch (h : t.hub = s.hub) : t.pitch = s.pitch := congrArg (·.2.1) h
theorem hub_k (h : t.hub = s.hub) : t.k = s.k :=
  have hr : t.reg .HUB_TICK_CFG 0 = s.reg .HUB_TICK_CFG 0 := congrArg (·.2.2.2.2) h
  State.fld_of_reg hr

theorem hub_pitched (h : t.hub = s.hub) : t.pitched = s.pitched := by rw [State.pitched, State.pitched, hub_pitch h]

theorem hub_period (h : t.hub = s.hub) : t.period = s.period := by rw [State.period, State.period, hub_pitched h, hub_k h]

/-- A device with an image and out of STANDBY runs a tick at the next instant of the grid. -/
theorem State.frameTick_of_pitched (host : List HostRead) (hp : s.pitched = true) (hs : s.standby = false) :
    s.frameTick host =
      let s1 := State.beforeTick { s with time := s.nextGrid }
      match (if s1.stepDue then s1.tlk.step else none) with
      | some e =>
        if 0 < e then (s1.stepNow (-e)).markStep s1.frame
        else ((s1.stepNow (-e)).markStep (frameAt (s1.stepNow (-e)).k (s1.stepNow (-e)).frame (s1.stepNow (-e)).time)).issueTick host
          (frameAt (s1.stepNow (-e)).k (s1.stepNow (-e)).frame (s1.stepNow (-e)).time)
      | none =>
        let f := if s1.tick.issued then frameAt s1.k s1.frame s1.time else BitVec.ofNat 48 (s1.time.toNat / s1.period)
        if s1.tick.issued && !frameFuture s1.frame f then (s1.anchorTick f).pruneTick else s1.issueTick host f := by
  unfold State.frameTick
  rw [hp, hs]
  rfl

/-- The tick of a device that no STEP waits for is issued, and begins its frame. -/
theorem State.frameTick_plain (host : List HostRead) {f : Frame} (h : plainTick s f) :
    ∃ s1 : State, s1 = State.beforeTick { s with time := s.nextGrid } ∧
      MayJoin { s.tickCore with time := s.nextGrid } s1.tickCore ∧
      s.frameTick host = s1.issueTick host f := by
  obtain ⟨_, hp, hs, hstep, hf⟩ := h
  refine ⟨State.beforeTick { s with time := s.nextGrid }, rfl, State.beforeTick_core _, ?_⟩
  have hj : (State.beforeTick { s with time := s.nextGrid }).hub = State.hub { s with time := s.nextGrid } :=
    (State.beforeTick_core _).hub
  rw [State.frameTick_of_pitched host hp hs]
  dsimp only
  generalize State.beforeTick { s with time := s.nextGrid } = s1 at hj ⊢
  have h1 : s1.tlk.step = none := (hub_step hj).trans hstep
  rw [h1, ite_self]
  dsimp only
  have hi : s1.tick.issued = s.tick.issued := (hub_issued hj :)
  have hfr : s1.frame = s.frame := (hub_frame hj :)
  have hk : s1.k = s.k := (hub_k hj :)
  have ht : s1.time = s.nextGrid := (hub_time hj :)
  have hper : s1.period = s.period := (hub_period hj :)
  rw [hi, hfr, hk, ht, hper]
  obtain ⟨hi, rfl, hf⟩ | ⟨hi, rfl⟩ := hf
  · rw [hi, if_pos rfl, hf, if_neg (by decide)]
  · simp only [hi, Bool.false_eq_true, if_false, Bool.false_and]

end Sys2Proof.Machine
end

section
/-! SUPPORT. The clock over a tick: time, frame, and the SH values that wait (chapter 02). -/

namespace Sys2Proof.Machine

variable {s t u : State} {k k' : TickCore}

/-! ### Time and frame -/

theorem TickCore.clock_put (k : TickCore) {f : Fld} (i x : Nat)
    (h : (Fld.HUB_TICK_STATUS_STEPPED.reg ≠ f.reg ∨ (0 : Nat) ≠ i ∨
      Fld.HUB_TICK_STATUS_STEPPED.lsb + Fld.HUB_TICK_STATUS_STEPPED.width ≤ f.lsb ∨
      f.lsb + f.width ≤ Fld.HUB_TICK_STATUS_STEPPED.lsb)) : (k.put f i x).clock = k.clock := by
  have hp := TickCore.fld_put_ne k f i x Fld.HUB_TICK_STATUS_STEPPED 0 h
  unfold TickCore.clock
  rw [hp]
  rfl

section
variable {α : Type} {π : TickCore → α} (hw : ∀ k p, π (k.withPitch p) = π k)
  (hp : ∀ (k : TickCore) (f : Fld) (i x : Nat), (f.reg = .HUB_PITCH_STATUS ∨ f.reg = .HUB_PITCH_PARTIAL ∨ f.reg = .HUB_TICK_CFG) →
    π (k.put f i x) = π k)
include hw hp

/-- Whatever of a core does not speak of the pitch is kept at the step of the tick that applies images (R76). -/
theorem State.pitchTick_keeps (s : State) : π s.pitchTick.tickCore = π s.tickCore := by
  have hcut : π s.pitchCut.tickCore = π s.tickCore := congrArg π (State.pitchCut_core s)
  have hfull : ∀ (b : State) a, π (b.applyFull a false).tickCore = π b.tickCore := fun b a => by
    rw [State.applyFull_core, TickCore.pitchedWith, hp _ _ _ _ (.inl rfl), hp _ _ _ _ (.inr (.inl rfl)),
      hp _ _ _ _ (.inr (.inr rfl)), hw]
  have hpart : ∀ a c, π (s.applyPartial a c).tickCore = π s.tickCore := fun a c => by
    rw [State.applyPartial_core, TickCore.mergedWith, hp _ _ _ _ (.inr (.inl rfl)), hp _ _ _ _ (.inr (.inr rfl)), hw]
  have hmod : ∀ (b : State) m, π (b.modPitch m).tickCore = π b.tickCore := fun b m => by rw [State.modPitch_core, hw]
  have hrefuse : ∀ (b : State) c d, π (b.pitchRefuse c d).tickCore = π b.tickCore := fun b c d => by
    rw [State.pitchRefuse_core, hp _ _ _ _ (.inl rfl), hp _ _ _ _ (.inl rfl)]
  unfold State.pitchTick
  split
  · rfl
  split
  · split
    · exact (hfull _ _).trans hcut
    split
    · exact (hmod _ _).trans hcut
    · rfl
  · split
    · split
      · split
        · exact hpart _ _
        · exact (hrefuse _ _ _).trans (hmod _ _)
      · rfl
    · rfl

theorem State.pitchBegin_keeps (s : State) : π s.pitchBegin.tickCore = π s.tickCore := by
  unfold State.pitchBegin
  split
  · split
    · rw [State.pitchT1_core, hp _ _ _ _ (.inl rfl), hw]
    · rfl
  · rfl

end

theorem TickCore.clock_put_ne (k : TickCore) (f : Fld) (i x : Nat)
    (h : f.reg = .HUB_PITCH_STATUS ∨ f.reg = .HUB_PITCH_PARTIAL ∨ f.reg = .HUB_TICK_CFG) : (k.put f i x).clock = k.clock := by
  refine TickCore.clock_put k i x (.inl fun he => ?_)
  rw [← he] at h
  revert h
  decide

theorem State.pitchTick_clock (s : State) : s.pitchTick.clock = s.clock :=
  State.pitchTick_keeps (fun _ _ => rfl) TickCore.clock_put_ne s

theorem State.pitchBegin_clock (s : State) : s.pitchBegin.clock = s.clock :=
  State.pitchBegin_keeps (fun _ _ => rfl) TickCore.clock_put_ne s

theorem State.issueTick_clock (host : List HostRead) (s : State) (f : Frame) :
    (s.issueTick host f).clock = TickCore.clock { s.tickCore with frame := f, issued := true } := by
  obtain ⟨x, hx, hu⟩ := State.issueTick_core host s f
  obtain ⟨v, ho⟩ := s.tickOpened_core f
  calc (s.issueTick host f).clock
    _ = x.pitchBegin.thermalTick.clock := congrArg Prod.fst hu.hub
    _ = x.pitchBegin.clock := clock_of_hub (State.thermalTick_hub _)
    _ = (s.tickOpened f).glnRoles.pitchTick.clock := (State.pitchBegin_clock x).trans (congrArg TickCore.clock hx)
    _ = (s.tickOpened f).clock := (State.pitchTick_clock _).trans (clock_of_hub (State.glnRoles_hub _))
    _ = _ := (congrArg TickCore.clock ho).trans (TickCore.clock_put _ _ _ (by decide))

/-! ### The grid -/

theorem State.k_lt (s : State) : s.k < 16 := State.fld_lt s Fld.HUB_TICK_CFG_K 0

theorem State.nextGrid_mod {p : Nat} (n : Nat) (hp : s.period = 2 ^ n) (hn : n ≤ 64) (h : p = 2 ^ n) :
    s.nextGrid.toNat % p = 0 := by
  rw [State.nextGrid, BitVec.toNat_ofNat, hp, h, Nat.mod_mod_of_dvd _ (Nat.pow_dvd_pow 2 hn), Nat.mul_mod_left]

/-! ### The SH values that wait (R43, R45) -/

/-- Local time is `x`, and no 1 of HOLD is recorded. -/
def NoHold (x : Tu) : Saying := fun t _ _ _ _ _ h => t = x ∧ h = []

/-- Local time is `x`, and no SH value waits that a tick at `x` takes. -/
def NoneDue (x : Tu) : Saying := fun t _ _ _ _ l _ => t = x ∧ ∀ w ∈ l, tuLe (tuAdd w.stamp (ns 64)) x = false

variable {que : List Instr} {x : Tu}

theorem Ok.notHeld (h : Ok que (NoHold x) s) : s.holdSeen = false := by
  obtain ⟨-, -, l, k, -, hk, -, rfl⟩ := h
  unfold State.holdSeen
  split
  · next e he => exact Bool.eq_false_iff.2 fun h1 => absurd (hk e (List.mem_of_find?_eq_some he) h1) List.not_mem_nil
  · rfl

theorem Ok.time_of_noHold (h : Ok que (NoHold x) s) : s.time = x := by
  obtain ⟨-, -, -, -, -, -, h, -⟩ := h
  exact h

theorem Ok.committed (h : Ok que (NoneDue x) s) : snapshotCommitted s := by
  obtain ⟨-, -, l, k, hl, -, ht, hw⟩ := h
  exact fun w hm => ht ▸ hw w (hl hm)

theorem State.commitSh_noneDue (host : List HostRead) (h : Ok que (NoHold x) s) : Ok que (NoneDue x) (s.commitSh host) := by
  have ht := h.time_of_noHold
  obtain ⟨hi, hp, -⟩ := h
  unfold State.commitSh
  extract_lets due tick0 s1 ws s2 s3 s4
  split
  · next hd =>
    refine Ok.of hi hp ⟨ht, fun w hw => Bool.eq_false_iff.2 fun hc => ?_⟩
    have hm : w ∈ due := List.mem_filter.2 ⟨hw, by rw [State.inSnapshot, ht]; exact hc⟩
    rw [List.isEmpty_iff.1 hd] at hm
    exact List.not_mem_nil hm
  · have h1 : Ok que (NoneDue x) s1 := Ok.of hi hp ⟨ht, fun w hw => by
      have := (List.mem_filter.1 hw).2
      rw [State.inSnapshot, ht] at this
      exact (Bool.not_eq_true' _).mp this⟩
    exact State.setFrame_ok rfl rfl _ _ (State.commitArms_ok _ (State.commitRegs_ok _ _ _
      (State.limitPlanes_ok (State.commitRegs_ok _ _ _ (State.commitRegs_ok _ _ _ h1)))))

/-- Where HOLD has been 0, what the snapshot of a commit instant holds commits. -/
theorem State.commitStep_noneDue (host : List HostRead) (h : Ok que (NoHold x) s) : Ok que (NoneDue x) (s.commitStep host) := by
  unfold State.commitStep
  rw [h.notHeld]
  exact State.each_ok (fun a n ha => State.forceDue_ok n _ _ _ ha) (State.commitSh_noneDue host h)

theorem Ok.opened (f : Frame) (h : Ok que (NoHold x) s) :
    Ok que (NoHold x) { s with frame := f, tick := { s.tick with issued := true } } := h

theorem State.issueTick_noneDue (host : List HostRead) (f : Frame) (h : Ok que (NoHold x) s) :
    Ok que (NoneDue x) (s.issueTick host f) := by
  unfold State.issueTick
  extract_lets first s0 tick0 s1 s2 off s3 s4 s5 s6 s7 fresh s8 s9
  have h0 : Ok que (NoHold x) s0 := State.keepWas_ok (State.endFrameWork_ok h)
  have h2 : Ok que (NoHold x) s2 := State.anchorTick_ok _ (State.pitchTick_ok (State.glnRoles_ok (State.setFld_ok rfl _ _ (Ok.opened f h0))))
  have h3 : Ok que (NoneDue x) s3 := State.thermalTick_ok (State.pitchBegin_ok (State.commitStep_noneDue host h2))
  have h5 : Ok que (NoneDue x) s5 := State.ticAll_ok _ _ _ _ (State.syncUpTo_ok _ (State.syncCommit_ok
    (State.each_ok (fun a i ha => State.slotTick_ok host first i ha) (State.bcastStep_ok h3))))
  have h7 : Ok que (NoneDue x) s7 := State.pmuTick_ok _ (State.pmuTick_ok _
    (State.each_ok (fun a m ha => State.markStale_ok m ha) (State.laneStep_ok (State.wokenTick_ok h5))))
  exact State.pruneTick_ok (State.statusMsg_ok (State.tickMark_ok (State.glnSends_ok (State.glnRecords_ok (State.noteBlocked_ok
    (State.stallTick_ok (State.each_ok (fun a q ha => State.queueTick_ok host fresh q ha) h7)))))))

end Sys2Proof.Machine
end

section
/-! O12. Local time follows the grid of ticks, and a STEP moves it. -/

namespace Sys2Proof.Machine

variable {s t u : State} {k k' : TickCore} {que : List Instr} {x : Tu}

/-! ### The tick -/

theorem clock_time (h : t.clock = k.clock) : t.time = k.time := congrArg (·.1) h
theorem clock_frame (h : t.clock = k.clock) : t.frame = k.frame := congrArg (·.2.1) h
theorem clock_issued (h : t.clock = k.clock) : t.tick.issued = k.issued := congrArg (·.2.2.1) h

theorem Ok.of_noHold (hi : s.Inv) (hh : ∀ x ∈ s.tick.hold, x.2 = false) :
    Ok s.pending (NoHold s.nextGrid) { s with time := s.nextGrid } :=
  ⟨hi, rfl, s.tick.sh, [], fun _ h => h, fun e he h1 => absurd ((hh e he).symm.trans h1) Bool.false_ne_true, rfl, rfl⟩

theorem State.frameTick_clock (host : List HostRead) {f : Frame} (h : plainTick s f) :
    (s.frameTick host).clock = TickCore.clock { s.tickCore with time := s.nextGrid, frame := f, issued := true } := by
  obtain ⟨s1, -, hs1, hft⟩ := State.frameTick_plain host h
  rw [hft, State.issueTick_clock]
  have hk : s1.tickCore.clock = TickCore.clock { s.tickCore with time := s.nextGrid } := congrArg Prod.fst hs1.hub
  exact congrArg (fun c => (c.1, f, true, c.2.2.2)) hk

/-- The notes of a command leave the core of a tick. -/
theorem Raises.notes_core (h : Raises s t noteSrcs) : t.tickCore = s.tickCore := h.core (by decide)

theorem Raises.keepsCommitted (h : Raises s t noteSrcs) (hc : snapshotCommitted s) : snapshotCommitted t := by
  have ht : t.time = s.time := congrArg TickCore.time h.notes_core
  unfold snapshotCommitted
  rw [h.tick, ht]
  exact hc

theorem State.frameTick_follows (host : List HostRead) {f : Frame} (hi : s.Inv) (h : plainTick s f) :
    ∃ u, exec (.frameTick host) s = .next u ∧ u.time = s.nextGrid ∧ u.frame = f ∧ u.tick.issued = true ∧
      s.nextGrid.toNat % 2 ^ (s.k + 13) = 0 ∧ ((∀ x ∈ s.tick.hold, x.2 = false) → snapshotCommitted u) := by
  have hc := State.frameTick_clock host h
  obtain ⟨u, hd, hn⟩ := State.done_notes s (s.frameTick host)
  have hu : u.clock = TickCore.clock { s.tickCore with time := s.nextGrid, frame := f, issued := true } :=
    (congrArg TickCore.clock hn.notes_core).trans hc
  have hk := s.k_lt
  refine ⟨u, ?_, clock_time hu, clock_frame hu, clock_issued hu, State.nextGrid_mod (s.k + 13) ?_ (by omega) rfl, fun hh => ?_⟩
  · rw [exec, execFrameTick, State.ticks, if_pos h.1]
    exact hd
  · rw [State.period, if_pos h.2.1]
  · obtain ⟨s1, rfl, -, hft⟩ := State.frameTick_plain host h
    rw [hft] at hn
    exact hn.keepsCommitted (State.issueTick_noneDue host f (State.beforeTick_ok (Ok.of_noHold hi hh))).committed

/-! ### The internal instant (R47) -/

theorem State.timed_core (a : State) (x : Tu) : State.tickCore { a with time := x } = { a.tickCore with time := x } := rfl

/-- What a handover of before the instant changes of the core is the time. -/
theorem State.handoverNext_core (s : State) (g : Tu) (x : Tu) :
    { (s.handoverNext g).tickCore with time := x } = { s.tickCore with time := x } := by
  have hat : ∀ e, { (s.at e).tickCore with time := x } = { s.tickCore with time := x } := fun e => by
    unfold State.at
    repeat' split
    all_goals rfl
  unfold State.handoverNext
  split
  · split
    · rw [State.handovers_core]
      exact hat _
    · rfl
  · rfl

theorem State.handoverNext_hold {Q : Saying} (hq : ∀ t f p a b l k x, Q t f p a b l k → Q x f p a b l k) (g : Tu)
    (h : Ok que Q s) : Ok que Q (s.handoverNext g) := by
  have hat : ∀ e, Ok que Q (s.at e) := fun e => by
    obtain ⟨hi, hp, l, k, hl, hk, h⟩ := h
    unfold State.at
    repeat' split
    · exact ⟨hi, hp, l, k, hl, hk, hq _ _ _ _ _ _ _ _ h⟩
    · exact ⟨hi, hp, l, k, hl, hk, hq _ _ _ _ _ _ _ _ h⟩
    · exact ⟨hi, hp, l, k, hl, hk, h⟩
  unfold State.handoverNext
  split
  · exact ite_ok (State.handovers_ok (hat _)) h
  · exact h

/-- No 1 of HOLD is recorded. -/
def NeverHeld : Saying := fun _ _ _ _ _ _ h => h = []

theorem Ok.of_neverHeld (hi : s.Inv) (hh : ∀ x ∈ s.tick.hold, x.2 = false) : Ok s.pending NeverHeld s :=
  ⟨hi, rfl, s.tick.sh, [], fun _ h => h, fun e he h1 => absurd ((hh e he).symm.trans h1) Bool.false_ne_true, rfl⟩

theorem Ok.at_time (h : Ok que NeverHeld s) (x : Tu) : Ok que (NoHold x) { s with time := x } := by
  obtain ⟨hi, hp, l, k, hl, hk, h⟩ := h
  exact ⟨hi, hp, l, k, hl, hk, rfl, h⟩

theorem State.glnUnpitched_hub (s : State) : s.glnUnpitched.hub = s.hub := by
  unfold State.glnUnpitched
  refine (hub_of_core (State.glnSends_core _)).trans ?_
  refine ite_hub_eq ?_ ?_
  · dsimp only
    split
    · exact (State.raise_hub _ _ _ _ (by decide)).trans (State.becomeSolo_hub s)
    · exact (State.raise_hub _ _ _ _ (by decide)).trans (State.becomeSolo_hub s)
  · split
    · exact State.applyRole_hub _ _ _
    · rfl

/-- An internal instant without an image that waits: time moves on the grid, the hub stays, and what its snapshot holds
commits. -/
theorem State.internalTick_follows (hp : s.pitched = false) (hs : s.standby = false) (ha : s.pitch.accepted = none) :
    s.internalTick.hub = State.hub { s with time := s.nextGrid } ∧
      (s.Inv → (∀ x ∈ s.tick.hold, x.2 = false) → snapshotCommitted s.internalTick) := by
  unfold State.internalTick
  rw [if_neg (by rw [hp, hs]; decide)]
  extract_lets a s0 s1 s2 s3
  have h0 : s0.tickCore = { s.tickCore with time := s.nextGrid } :=
    (State.timed_core a s.nextGrid).trans
      (foldl_keeps (fun b => { b.tickCore with time := s.nextGrid })
        (fun b _ => State.handoverNext_core b s.nextGrid s.nextGrid) _ s)
  have h3 : s3.hub = State.hub { s with time := s.nextGrid } := by
    have h1 : s1.hub = s0.hub := (hub_of_core (State.keepWas_core _)).trans (State.beforeTick_core _).hub
    have h2 : s2.hub = s1.hub := hub_of_core ((State.commitStep_core _ _).trans (State.anchorTick_core _ _))
    have hj : s3.hub = s2.hub := (hub_of_core (State.wokenTick_core _)).trans
      ((State.syncUpTo_core _ _).hub.trans (hub_of_core (State.syncCommit_core _)))
    exact hj.trans (h2.trans (h1.trans (congrArg TickCore.hub h0)))
  have h4 : (s3.laneStep.glnUnpitched.pruneTick).hub = State.hub { s with time := s.nextGrid } :=
    (hub_of_core (State.pruneTick_core _)).trans ((State.glnUnpitched_hub _).trans ((hub_of_core (State.laneStep_core _)).trans h3))
  have h5 : (s3.laneStep.glnUnpitched.pruneTick).pitchUnpitched = s3.laneStep.glnUnpitched.pruneTick := by
    unfold State.pitchUnpitched
    rw [(hub_pitch h4).trans rfl, ha]
  rw [h5]
  refine ⟨h4, fun hi hh => ?_⟩
  have k0 : Ok s.pending (NoHold s.nextGrid) s0 :=
    (State.each_ok (fun b _ hb => State.handoverNext_hold (fun _ _ _ _ _ _ _ _ h => h) s.nextGrid hb)
      (Ok.of_neverHeld hi hh)).at_time _
  have k2 : Ok s.pending (NoneDue s.nextGrid) s2 :=
    State.commitStep_noneDue _ (State.anchorTick_ok _ (State.keepWas_ok (State.beforeTick_ok k0)))
  exact (State.pruneTick_ok (State.glnUnpitched_ok (State.laneStep_ok (State.wokenTick_ok (State.syncUpTo_ok _ (State.syncCommit_ok
    k2)))))).committed

theorem Raises.hub (h : Raises s t noteSrcs) : t.hub = s.hub := hub_of_core h.notes_core

theorem State.internalInstant_follows (hi : s.Inv) (hl : s.alive = true) (hp : s.pitched = false) (hs : s.standby = false)
    (ha : s.pitch.accepted = none) :
    ∃ u, exec .internalCommitInstant s = .next u ∧ u.time = s.nextGrid ∧ u.frame = s.frame ∧ u.pitched = false ∧
      s.nextGrid.toNat % 2 ^ 23 = 0 ∧ ((∀ x ∈ s.tick.hold, x.2 = false) → snapshotCommitted u) := by
  obtain ⟨hh, hc⟩ := State.internalTick_follows hp hs ha
  obtain ⟨u, hd, hn⟩ := State.done_notes s s.internalTick
  have hu : u.hub = State.hub { s with time := s.nextGrid } := hn.hub.trans hh
  refine ⟨u, ?_, (hub_time hu :), (hub_frame hu :), (hub_pitched hu :).trans hp, State.nextGrid_mod 23 ?_ (by decide) rfl,
    fun h =>
    hn.keepsCommitted (hc hi h)⟩
  · rw [exec, execInternalCommitInstant, State.ticks, if_pos hl]
    exact hd
  · rw [State.period, hp]
    rfl

theorem ticksFollowTheGrid_holds : ticksFollowTheGrid :=
  ⟨fun _ _ host hi h => State.frameTick_follows host hi h, fun _ hi hl hp hs ha => State.internalInstant_follows hi hl hp hs ha⟩

end Sys2Proof.Machine
end

section
/-! O12. A STEP moves the time base. -/

namespace Sys2Proof.Machine

variable {s t u : State} {k k' : TickCore}

/-- What a STEP leaves of the pitch: the instant at which an image was accepted moves. -/
def Pitch.moved (p : Pitch) (d : Int) : Pitch := { p with accepted := p.accepted.map fun a => { a with at_ := tuMove d a.at_ } }

theorem State.shiftTimers_core (s : State) (d : Int) : (s.shiftTimers d).tickCore = s.tickCore.withPitch (s.pitch.moved d) := rfl

theorem State.moveTime_core (s : State) (d : Int) :
    (s.moveTime d).tickCore = { s.tickCore with time := tuMove d s.time, pitch := s.pitch.moved d } := by
  rw [State.moveTime, State.shiftTriggers_core, State.shiftUnits_core, State.shiftTimers_core, State.timed_core]
  rfl

theorem State.moveTime_core_of (d : Int) (h : t.tickCore = s.tickCore) :
    (t.moveTime d).tickCore = { s.tickCore with time := tuMove d s.time, pitch := s.pitch.moved d } := by
  have ht : t.time = s.time := congrArg TickCore.time h
  have hp : t.pitch = s.pitch := congrArg TickCore.pitch h
  rw [State.moveTime_core, h, ht, hp]

/-- The time base at a STEP: no STEP waits any longer, and STEPPED is set. -/
def TickCore.stepped (k : TickCore) (d : Int) (ev : Nat → Bool) : TickCore :=
  { { k with time := tuMove d k.time, pitch := k.pitch.moved d }.put Fld.HUB_TICK_STATUS_STEPPED 0 1 with
    step := none, stepFrame := none, events := ev }

theorem State.stepMade_core (a : State) (p : Tu × Tu) :
    State.tickCore
        { a with tlk := { a.tlk with step := none, stepFrame := none }, tick := { a.tick with steps := p :: a.tick.steps } } =
      { a.tickCore with step := none, stepFrame := none } := rfl

theorem State.stepNow_core (s : State) (d : Int) (hk : s.fld Fld.EVT_ROUTE_KIND 36 ≠ 1) :
    ∃ ev : Nat → Bool, ev 36 = true ∧ (s.stepNow d).tickCore = s.tickCore.stepped d ev := by
  unfold State.stepNow
  extract_lets x f s1 s2 s3 s4 s5 tlk0 tick0 s6 s7
  have h1 : s1.tickCore = s.tickCore := each_core (fun a m => by
    rw [State.shiftRegion_core, State.stepRegion_core, State.passBlocks_core, State.judgeBefore_core]) _
  have h2 : s2.tickCore = s.tickCore :=
    (State.pmuStep_core _ _).trans ((each_core (fun a i => State.ticStep_core a i x) _).trans h1)
  have h3 : s3.tickCore = { s.tickCore with time := tuMove d s.time, pitch := s.pitch.moved d } :=
    (State.stepLanes_core _).trans (State.moveTime_core_of d ((each_core State.dropRefs_core _).trans h2))
  have h4 : s4.tickCore = s3.tickCore := each_core (fun a e => ite_core_eq (State.stepAnchor_core _ _ _) rfl) _
  have h5 : s5.tickCore = s3.tickCore.put Fld.HUB_TICK_STATUS_STEPPED 0 1 := by
    rw [(State.setFld_put _ _ rfl rfl : s5.tickCore = _), State.relockIdle_core, h4]
  have h6 : s6.tickCore = { s5.tickCore with step := none, stepFrame := none } := State.stepMade_core _ _
  have h7 : s7.tickCore = s6.tickCore := ite_core_eq rfl (by
    rw [State.raise0_core, if_neg (by decide)]
    exact State.setFld_core _ _ _ _)
  have h8 := State.raise_raises (s := s7) 36 1 0
  refine ⟨coreEvents (s7.raise0 36).regs, ?_, ?_⟩
  · have hr : s7.fld Fld.EVT_ROUTE_KIND 36 = s.fld Fld.EVT_ROUTE_KIND 36 := by
      rw [State.fld_core s7 rfl rfl, h7, h6, h5, h3, State.fld_core s rfl rfl]
      exact TickCore.fld_put_ne _ _ _ _ _ _ (by decide)
    have := State.raise0_hubSource (s := s7) (k := 36) rfl (by rw [hr]; exact hk)
    exact this
  · refine h8.core_events.trans ?_
    rw [h7, h6, h5, h3]
    rfl

theorem State.markStep_core (s : State) (f : Frame) : (s.markStep f).tickCore = s.tickCore := by
  rw [State.markStep, State.stepEntries_core]
  rfl

theorem TickCore.stepped_clock (k : TickCore) (d : Int) (ev : Nat → Bool) (fr : Frame) (b : Bool) :
    TickCore.clock { k.stepped d ev with frame := fr, issued := b } = (tuMove d k.time, fr, b, none, none, 1, ev 36) := by
  have h : (k.stepped d ev).fld Fld.HUB_TICK_STATUS_STEPPED 0 = 1 :=
    TickCore.fld_put_same { k with time := tuMove d k.time, pitch := k.pitch.moved d } Fld.HUB_TICK_STATUS_STEPPED 0 1 (by decide)
  exact congrArg (fun n => (tuMove d k.time, fr, b, none, none, n, ev 36)) h

theorem State.frameTick_steps (host : List HostRead) {e : Int} (hp : s.pitched = true) (hs : s.standby = false)
    (hstep : s.tlk.step = some e) (hf : s.tlk.stepFrame = none) (hk : s.fld Fld.EVT_ROUTE_KIND 36 ≠ 1) :
    ∃ fr b, (s.frameTick host).clock = (tuMove (-e) s.nextGrid, fr, b, none, none, 1, true) ∧
      (0 < e → fr = s.frame) ∧ (e ≤ 0 → fr = frameAt s.k s.frame (tuMove (-e) s.nextGrid)) := by
  have hb := State.beforeTick_core { s with time := s.nextGrid }
  rw [State.frameTick_of_pitched host hp hs]
  dsimp only
  generalize State.beforeTick { s with time := s.nextGrid } = s1 at hb ⊢
  have hj : s1.hub = State.hub { s with time := s.nextGrid } := hb.hub
  have h1 : s1.tlk.step = some e := (hub_step hj).trans hstep
  have h2 : s1.tlk.stepFrame = none := (hub_stepFrame hj).trans hf
  have hdue : s1.stepDue = true := by
    unfold State.stepDue
    rw [h1, h2]
    rfl
  have hk1 : s1.fld Fld.EVT_ROUTE_KIND 36 ≠ 1 := by
    have : s1.fld Fld.EVT_ROUTE_KIND 36 = s.fld Fld.EVT_ROUTE_KIND 36 := by
      rw [State.fld_core s1 rfl rfl, State.fld_core s rfl rfl]
      obtain h | ⟨_, h⟩ := hb
      · rw [h]
        rfl
      · rw [h]
        exact TickCore.fld_put_ne _ _ _ _ _ _ (by decide)
    rwa [this]
  obtain ⟨ev, hev, hc⟩ := State.stepNow_core s1 (-e) hk1
  have ht : s1.time = s.nextGrid := (hub_time hj :)
  have hfr : s1.frame = s.frame := (hub_frame hj :)
  have hcl : ∀ fr b, TickCore.clock { s1.tickCore.stepped (-e) ev with frame := fr, issued := b } =
      (tuMove (-e) s.nextGrid, fr, b, none, none, 1, true) := fun fr b => by
    rw [TickCore.stepped_clock, hev, ← ht]
    rfl
  rw [hdue, if_pos rfl, h1]
  dsimp only
  generalize s1.stepNow (-e) = s2 at hc ⊢
  split
  · next hpos =>
    refine ⟨s.frame, s1.tick.issued, ?_, fun _ => rfl, fun h => absurd hpos (Int.not_lt.2 h)⟩
    rw [← hcl, ← hfr]
    exact congrArg TickCore.clock ((State.markStep_core _ _).trans hc)
  · next hneg =>
    have hk2 : s2.k = s.k := by
      refine Eq.trans ?_ (hub_k hj :)
      rw [State.k, State.k, State.fld_core s2 rfl rfl, State.fld_core s1 rfl rfl, hc]
      exact TickCore.fld_put_ne _ _ _ _ _ _ (by decide)
    have hfr2 : s2.frame = s.frame := (congrArg TickCore.frame hc).trans hfr
    have ht2 : s2.time = tuMove (-e) s.nextGrid := (congrArg TickCore.time hc).trans (congrArg (tuMove (-e)) ht)
    refine ⟨frameAt s.k s.frame (tuMove (-e) s.nextGrid), true, ?_, fun h => absurd h hneg, fun _ => rfl⟩
    rw [hk2, hfr2, ht2, State.issueTick_clock, State.markStep_core, hc]
    exact hcl _ _

theorem stepMovesTheTimeBase_holds : stepMovesTheTimeBase := by
  intro s host e _ hl hp hs hstep hf hk
  obtain ⟨fr, b, hc, h1, h2⟩ := State.frameTick_steps host hp hs hstep hf hk
  have hnone : (s.frameTick host).tlk.step = none := congrArg (·.2.2.2.1) hc
  obtain ⟨u, hd, hn⟩ := State.done_notes s (s.frameTick host)
  have hu : u.clock = (tuMove (-e) s.nextGrid, fr, b, none, none, 1, true) := (congrArg TickCore.clock hn.notes_core).trans hc
  refine ⟨u, ?_, congrArg (·.2.2.2.1) hu, congrArg (·.1) hu, congrArg (·.2.2.2.2.2.1) hu, congrArg (·.2.2.2.2.2.2) hu,
    fun h => (congrArg (·.2.1) hu).trans (h1 h), fun h => (congrArg (·.2.1) hu).trans (h2 h)⟩
  rw [exec, execTlkPhaseStep, State.tickThat, State.ticks, if_pos hl, hstep, hnone]
  exact hd

/-- Settles O12: over a tick the core of the state (time, frame, STEP, pitch, roles) is known, since every other operation of the
tick keeps it; the SH values that the snapshot holds leave the list of waiting ones when they commit, and none is added later. -/
theorem timeFollowsTheGrid : Obligations.TimeFollowsTheGrid := ⟨ticksFollowTheGrid_holds, stepMovesTheTimeBase_holds⟩

end Sys2Proof.Machine
end

section
/-! O53. Failure detection and takeover of the twin. -/

namespace Sys2Proof.Machine

variable {s t u o : State} {k k' : TickCore}

/-! ### The twin link over a tick -/

theorem TickCore.twin_put_ne (k : TickCore) (f : Fld) (i x : Nat)
    (h : f.reg = .HUB_PITCH_STATUS ∨ f.reg = .HUB_PITCH_PARTIAL ∨ f.reg = .HUB_TICK_CFG) : (k.put f i x).twin = k.twin := by
  have hne : RegName.GLN_STATUS ≠ f.reg := fun he => by
    rw [← he] at h
    revert h
    decide
  unfold TickCore.twin
  rw [TickCore.fld_put_ne _ _ _ _ _ _ (.inl hne), TickCore.fld_put_ne _ _ _ _ _ _ (.inl hne),
    TickCore.fld_put_ne _ _ _ _ _ _ (.inl hne)]
  rfl

/-- After its roles have been applied, a tick leaves the twin link alone, but for a SYNC that joins a SECONDARY-IDLE part. -/
theorem State.issueTick_twin (host : List HostRead) (s : State) (f : Frame)
    (hr : (s.tickOpened f).glnRoles.fld Fld.GLN_STATUS_ROLE 0 ≠ 3) :
      (s.issueTick host f).twin = (s.tickOpened f).glnRoles.twin := by
  obtain ⟨x, hx, hu⟩ := State.issueTick_core host s f
  have hy : x.pitchBegin.thermalTick.twin = (s.tickOpened f).glnRoles.twin :=
    calc x.pitchBegin.thermalTick.twin
      _ = x.pitchBegin.twin := State.thermalTick_twin _
      _ = x.twin := State.pitchBegin_keeps (fun _ _ => rfl) TickCore.twin_put_ne x
      _ = (s.tickOpened f).glnRoles.pitchTick.twin := congrArg TickCore.twin hx
      _ = (s.tickOpened f).glnRoles.twin := State.pitchTick_keeps (fun _ _ => rfl) TickCore.twin_put_ne _
  obtain h | ⟨h3, _⟩ := hu
  · exact (congrArg TickCore.twin h).trans hy
  · exact absurd ((congrArg (·.2.2.2.1) hy).symm.trans h3) hr

/-- The steps of the roles that a tick leaves out. -/
theorem State.glnRoles_of_none (h1 : s.gln.rolePend = none) (h2 : s.gln.deposed = false) (h3 : s.gln.detachAt = none)
    (h4 : s.gln.soloNext = false) : s.glnRoles = (if s.gln.takeover then s.takeOver else s).glnAges.declareFail := by
  unfold State.glnRoles
  extract_lets s1 s2 s3 s4 s5
  have e1 : s1 = s := by
    show (match s.gln.rolePend with
      | some (f, r, m) => if frameLe f s.frame then s.applyRole r m else s
      | none => s) = s
    rw [h1]
  have e2 : s2 = s := by
    show (if s1.gln.deposed then s1.depose else s1) = s
    rw [e1, h2, if_neg Bool.false_ne_true]
  have e3 : s3 = s := by
    show (match s2.gln.detachAt with
      | some (f, c) => if frameLe f s2.frame then (s2.becomeSolo).raise 50 c 0 else s2
      | none => s2) = s
    rw [e2, h3]
  have e4 : s4 = s := by
    show (if s3.gln.soloNext then (s3.becomeSolo).raise 51 1 0 else s3) = s
    rw [e3, h4, if_neg Bool.false_ne_true]
  have e5 : s5 = if s.gln.takeover then s.takeOver else s := by
    show (if s4.gln.takeover then s4.takeOver else s4) = _
    rw [e4]
  rw [e5]

/-! ### The failure of the primary is found (R376) -/

/-- A core shows what failures the part finds. -/
theorem failCauses_of_core (hg : t.gln.core = s.gln.core)
    (hf : ∀ f : Fld, f.reg = .GLN_STATUS ∨ f.reg = .GLN_FAIL ∨ f.reg = .GLN_CFG →
    t.fld f 0 = s.fld f 0) : t.glnAges.failCauses = s.glnAges.failCauses := by
  have h1 : t.glnUp = s.glnUp := congrArg (· != 0) (hf Fld.GLN_STATUS_LINK_UP (.inl rfl))
  have h2 : t.flag Fld.GLN_STATUS_PRESENT 0 = s.flag Fld.GLN_STATUS_PRESENT 0 := congrArg (· != 0)
    (hf Fld.GLN_STATUS_PRESENT (.inl rfl))
  have h3 : t.flag Fld.GLN_CFG_ON_LINK_LOSS 0 = s.flag Fld.GLN_CFG_ON_LINK_LOSS 0 :=
    congrArg (· != 0) (hf Fld.GLN_CFG_ON_LINK_LOSS (.inr (.inr rfl)))
  have h4 := hf Fld.GLN_FAIL_MISS (.inr (.inl rfl))
  have g1 : t.gln.failCause = s.gln.failCause := congrArg GlnCore.failCause hg
  have g2 : t.gln.beatAge = s.gln.beatAge := congrArg GlnCore.beatAge hg
  have g3 : t.gln.downAge = s.gln.downAge := congrArg GlnCore.downAge hg
  have g4 : t.gln.absentAge = s.gln.absentAge := congrArg GlnCore.absentAge hg
  have hages : ∀ a : State, a.glnAges.failCauses =
      (a.gln.failCause ||| (a.glnUp && decide (max 2 (a.fld Fld.GLN_FAIL_MISS 0) < (if a.glnUp then a.gln.beatAge + 1 else 0))).toNat |||
        16 * (a.flag Fld.GLN_CFG_ON_LINK_LOSS 0 && !a.glnUp && a.flag Fld.GLN_STATUS_PRESENT 0 &&
          decide (max 2 (a.fld Fld.GLN_FAIL_MISS 0) < (if a.glnUp then 0 else a.gln.downAge + 1))).toNat |||
        64 * (!a.flag Fld.GLN_STATUS_PRESENT 0 &&
          decide (2 ≤ (if a.flag Fld.GLN_STATUS_PRESENT 0 then 0 else a.gln.absentAge + 1))).toNat) := fun a => rfl
  rw [hages, hages, h1, h2, h3, h4, g1, g2, g3, g4]

/-- A SECONDARY of a FAILOVER pair that finds its primary failed declares it and prepares the takeover (R376, R377). -/
theorem State.declareFail_declares (hm : s.glnMode = 2) (hr : s.role = 2) (hc : s.failCauses ≠ 0) (hd : s.gln.declared = false)
    (hk : s.fld Fld.EVT_ROUTE_KIND 57 ≠ 1) :
    s.declareFail.tickCore.gln.takeover = true ∧ s.declareFail.tickCore.gln.declared = true ∧ s.declareFail.role = 2 ∧
      s.declareFail.evtStatus 57 = true ∧ s.declareFail.frame = s.frame := by
  unfold State.declareFail
  rw [if_neg (by rw [hm, hr, hd]; simpa using hc), if_pos hr]
  have hraise := State.raise_raises (s := s.modGln fun g => { g with declared := true, failCause := 0 }) 57 s.failCauses 0
  have h57 := State.raise_hubSource (s := s.modGln fun g => { g with declared := true, failCause := 0 })
    (k := 57) s.failCauses 0 rfl hk
  generalize State.raise (s.modGln fun g => { g with declared := true, failCause := 0 }) 57 s.failCauses 0 = s1 at hraise h57 ⊢
  have hcore : ∀ m b c, ((s1.modGln fun g => { g with takeover := true }).glnSend 0xB m b c).tickCore =
      { s1.tickCore with gln := { s1.tickCore.gln with takeover := true } } := fun m b c => State.glnSend_core _ _ _ _ _
  have h1 := hraise.core_events
  generalize hu : State.glnSend _ _ _ _ _ = u
  have hu' : u.tickCore = { s1.tickCore with gln := { s1.tickCore.gln with takeover := true } } := hu ▸ hcore _ _ _
  refine ⟨congrArg (fun k => k.gln.takeover) hu', ?_, ?_, ?_, ?_⟩
  · exact (congrArg (fun k => k.gln.declared) hu').trans (congrArg (fun k => k.gln.declared) h1)
  · have := (congrArg (fun k => k.fld Fld.GLN_STATUS_ROLE 0) hu').trans (congrArg (fun k => k.fld Fld.GLN_STATUS_ROLE 0) h1)
    exact this.trans hr
  · exact (congrArg (fun k => k.events 57) hu').trans h57
  · exact (congrArg TickCore.frame hu').trans (congrArg TickCore.frame h1)

/-! ### The takeover (R377) -/

theorem State.takeOver_twin (hk : s.fld Fld.EVT_ROUTE_KIND 58 ≠ 1) :
    ∃ b, s.takeOver.twin = (s.frame, false, false, s.glnUp.toNat, (if s.glnUp then 2 else 0), 0, b, true) := by
  have hup : s.glnUp.toNat < 2 := by cases s.glnUp <;> decide
  unfold State.takeOver
  extract_lets up s1 owed s2
  have h1 : s1.tickCore = ((s.tickCore.put Fld.GLN_STATUS_ROLE 0 up.toNat).put Fld.GLN_STATUS_HELD 0 0).put Fld.GLN_STATUS_MODE 0
      (if up then 2 else 0) := by
    rw [(State.setFld_put _ _ rfl rfl : s1.tickCore = _), State.setFld_put _ _ rfl rfl, State.setFld_put _ _ rfl rfl]
  have hc : s2.notePartner.tickCore = { s1.tickCore with gln := s2.gln.core } := State.notePartner_core _
  have hroute : s1.tickCore.fld Fld.EVT_ROUTE_KIND 58 = s.fld Fld.EVT_ROUTE_KIND 58 := by
    rw [h1, TickCore.fld_put_ne _ _ _ _ _ _ (by decide), TickCore.fld_put_ne _ _ _ _ _ _ (by decide),
      TickCore.fld_put_ne _ _ _ _ _ _ (by decide), State.fld_core s rfl rfl]
  have hk2 : s2.notePartner.fld Fld.EVT_ROUTE_KIND 58 ≠ 1 := fun h =>
    hk (hroute.symm.trans ((congrArg (fun k => k.fld Fld.EVT_ROUTE_KIND 58) hc).symm.trans ((State.fld_core _ rfl rfl).symm.trans h)))
  have h58 := State.raise0_hubSource (s := s2.notePartner) (k := 58) rfl hk2
  have hraise := (State.raise_raises (s := s2.notePartner) 58 1 0).core_events
  refine ⟨coreEvents (s2.notePartner.raise0 58).regs 57, ?_⟩
  refine (twin_of_core ((State.raise_core _ _ _ _).trans (if_neg (by decide)))).trans ?_
  have hrole : s1.tickCore.fld Fld.GLN_STATUS_ROLE 0 = up.toNat := by
    rw [h1, TickCore.fld_put_ne _ _ _ _ _ _ (by decide), TickCore.fld_put_ne _ _ _ _ _ _ (by decide),
      TickCore.fld_put_same _ _ _ _ (by decide)]
    exact Nat.mod_eq_of_lt (Nat.lt_of_lt_of_le hup (by decide))
  have hmode : s1.tickCore.fld Fld.GLN_STATUS_MODE 0 = if up then 2 else 0 := by
    rw [h1, TickCore.fld_put_same _ _ _ _ (by decide)]
    split <;> rfl
  have hheld : s1.tickCore.fld Fld.GLN_STATUS_HELD 0 = 0 := by
    rw [h1, TickCore.fld_put_ne _ _ _ _ _ _ (by decide), TickCore.fld_put_same _ _ _ _ (by decide), Nat.zero_mod]
  have hfr : s1.frame = s.frame := congrArg TickCore.frame h1
  have hu : (s2.notePartner.raise0 58).tickCore =
      { s1.tickCore with gln := s2.gln.core, events := coreEvents (s2.notePartner.raise0 58).regs } :=
    hraise.trans (congrArg (fun k => { k with events := coreEvents (s2.notePartner.raise0 58).regs }) hc)
  refine (congrArg TickCore.twin hu).trans ?_
  show (s1.frame, false, false, s1.tickCore.fld Fld.GLN_STATUS_ROLE 0, s1.tickCore.fld Fld.GLN_STATUS_MODE 0,
    s1.tickCore.fld Fld.GLN_STATUS_HELD 0, _, (s2.notePartner.raise0 58).evtStatus 58) = _
  rw [hrole, hmode, hheld, hfr, h58]

theorem State.declareFail_of_role (h : s.role < 2) : s.declareFail = s := by
  unfold State.declareFail
  rw [if_pos (.inr (.inl h))]

/-! ### The ticks -/

/-- The state on which the roles of a tick act, as far as the core of `s` tells: the frame has begun, a SYNC may have joined
the part. -/
def BeforeRoles (s : State) (f : Frame) (o : State) : Prop :=
  ∃ k v, MayJoin { s.tickCore with time := s.nextGrid } k ∧ o.tickCore = k.opened f v

theorem BeforeRoles.gln {f : Frame} (h : BeforeRoles s f o) : o.gln.core = s.gln.core := by
  obtain ⟨k, v, hk, ho⟩ := h
  obtain rfl | ⟨_, rfl⟩ := hk
  all_goals exact congrArg TickCore.gln ho

/-- Of the registers only the source of the tick and the role may differ. -/
theorem BeforeRoles.fld_eq {f : Frame} (h : BeforeRoles s f o) {g : Fld} {i : Nat} (hc : coreReg g.reg i = true)
    (he : (g.reg != .EVT_STATUS) = true) (h1 : g.reg ≠ .HUB_TICK_STATUS)
    (h2 : s.role ≠ 3 ∨ g.reg ≠ .GLN_STATUS ∨ g.lsb + g.width ≤ Fld.GLN_STATUS_ROLE.lsb) : o.fld g i = s.fld g i := by
  obtain ⟨k, v, hk, ho⟩ := h
  rw [State.fld_core o hc he, State.fld_core s hc he, ho]
  refine (TickCore.fld_put_ne _ _ _ _ _ _ (.inl h1)).trans ?_
  obtain rfl | ⟨h3, rfl⟩ := hk
  · rfl
  · refine TickCore.fld_put_ne _ _ _ _ _ _ ?_
    obtain h | h | h := h2
    · exact absurd h3 h
    · exact .inl h
    · exact .inr (.inr (.inl h))

theorem BeforeRoles.frame {f : Frame} (h : BeforeRoles s f o) : o.frame = f := by
  obtain ⟨k, v, _, ho⟩ := h
  exact congrArg TickCore.frame ho

theorem State.frameTick_twin (host : List HostRead) {f : Frame} (h : plainTick s f) :
    ∃ o, BeforeRoles s f o ∧ (o.glnRoles.fld Fld.GLN_STATUS_ROLE 0 ≠ 3 → (s.frameTick host).twin = o.glnRoles.twin) := by
  obtain ⟨s1, -, hs1, hft⟩ := State.frameTick_plain host h
  obtain ⟨v, ho⟩ := s1.tickOpened_core f
  exact ⟨s1.tickOpened f, ⟨s1.tickCore, v, hs1, ho⟩, fun hr => hft ▸ State.issueTick_twin host s1 f hr⟩

theorem State.frameTick_declares (host : List HostRead) {f : Frame} (h : plainTick s f) (h1 : s.gln.rolePend = none)
    (h2 : s.gln.deposed = false) (h3 : s.gln.detachAt = none) (h4 : s.gln.soloNext = false) (hr : s.role = 2) (hm : s.glnMode = 2)
    (ht : s.gln.takeover = false) (hd : s.gln.declared = false) (hc : s.glnAges.failCauses ≠ 0)
      (hk : s.fld Fld.EVT_ROUTE_KIND 57 ≠ 1) :
    ∃ a b c, (s.frameTick host).twin = (f, true, true, 2, a, b, true, c) := by
  obtain ⟨o, ho, hu⟩ := State.frameTick_twin host h
  have hg := ho.gln
  have hr3 : s.role ≠ 3 := by rw [hr]; decide
  have hf : ∀ g : Fld, g.reg = .GLN_STATUS ∨ g.reg = .GLN_FAIL ∨ g.reg = .GLN_CFG → o.fld g 0 = s.fld g 0 := fun g hg =>
    ho.fld_eq (by obtain h | h | h := hg <;> rw [h] <;> rfl) (by obtain h | h | h := hg <;> rw [h] <;> rfl)
      (by obtain h | h | h := hg <;> rw [h] <;> decide) (.inl hr3)
  have hroles : o.glnRoles = o.glnAges.declareFail := by
    rw [State.glnRoles_of_none ((congrArg GlnCore.rolePend hg).trans h1) ((congrArg GlnCore.deposed hg).trans h2)
      ((congrArg GlnCore.detachAt hg).trans h3) ((congrArg GlnCore.soloNext hg).trans h4),
      show o.gln.takeover = false from (congrArg GlnCore.takeover hg).trans ht, if_neg Bool.false_ne_true]
  obtain ⟨g1, g2, g3, g4, g5⟩ := State.declareFail_declares (s := o.glnAges) ((hf Fld.GLN_STATUS_MODE (.inl rfl)).trans hm)
    ((hf Fld.GLN_STATUS_ROLE (.inl rfl)).trans hr) (by rw [failCauses_of_core hg hf]; exact hc)
    ((congrArg GlnCore.declared hg).trans hd)
    (fun hh => hk ((ho.fld_eq (g := Fld.EVT_ROUTE_KIND) (i := 57) rfl rfl (by decide) (.inr (.inl (by decide)))).symm.trans hh))
  rw [hroles] at hu
  generalize o.glnAges.declareFail = d at hu g1 g2 g3 g4 g5
  have hrole : d.tickCore.fld Fld.GLN_STATUS_ROLE 0 = 2 := g3
  have h57 : d.tickCore.events 57 = true := g4
  refine ⟨d.tickCore.fld Fld.GLN_STATUS_MODE 0, d.tickCore.fld Fld.GLN_STATUS_HELD 0, d.tickCore.events 58, ?_⟩
  refine (hu fun h3 => absurd (g3.symm.trans h3) (by decide)).trans ?_
  unfold State.twin TickCore.twin
  rw [g1, g2, hrole, h57, show d.tickCore.frame = f from g5.trans ho.frame]

theorem State.frameTick_takesOver (host : List HostRead) {f : Frame} (h : plainTick s f) (h1 : s.gln.rolePend = none)
    (h2 : s.gln.deposed = false) (h3 : s.gln.detachAt = none) (h4 : s.gln.soloNext = false)
    (ht : s.gln.takeover = true) (hk : s.fld Fld.EVT_ROUTE_KIND 58 ≠ 1) :
    ∃ b, (s.frameTick host).twin = (f, false, false, s.glnUp.toNat, (if s.glnUp then 2 else 0), 0, b, true) := by
  obtain ⟨o, ho, hu⟩ := State.frameTick_twin host h
  have hg := ho.gln
  have hup : o.glnUp = s.glnUp :=
    congrArg (· != 0) (ho.fld_eq (g := Fld.GLN_STATUS_LINK_UP) (i := 0) rfl rfl (by decide) (.inr (.inr (by decide))))
  obtain ⟨b, hb⟩ := State.takeOver_twin (s := o)
    (fun hh => hk ((ho.fld_eq (g := Fld.EVT_ROUTE_KIND) (i := 58) rfl rfl (by decide) (.inr (.inl (by decide)))).symm.trans hh))
  rw [ho.frame, hup] at hb
  have hrole : o.takeOver.glnAges.role = s.glnUp.toNat := congrArg (·.2.2.2.1) hb
  have hlt : s.glnUp.toNat < 2 := by cases s.glnUp <;> decide
  have hroles : o.glnRoles = o.takeOver.glnAges := by
    rw [State.glnRoles_of_none ((congrArg GlnCore.rolePend hg).trans h1) ((congrArg GlnCore.deposed hg).trans h2)
      ((congrArg GlnCore.detachAt hg).trans h3) ((congrArg GlnCore.soloNext hg).trans h4),
      show o.gln.takeover = true from (congrArg GlnCore.takeover hg).trans ht, if_pos rfl]
    exact State.declareFail_of_role (hrole ▸ hlt)
  rw [hroles] at hu
  exact ⟨b, (hu fun h3 => by rw [← hrole, State.role, h3] at hlt; exact absurd hlt (by decide)).trans hb⟩

end Sys2Proof.Machine
end

section
/-! O53. The rows of failover. -/

namespace Sys2Proof.Machine

variable {s t u r : State} {k k' : TickCore}

theorem twin_takeover {a : Frame} {b c : Bool} {d e g : Nat} {x y : Bool} (h : s.twin = (a, b, c, d, e, g, x, y)) :
    s.gln.takeover = b :=
  congrArg (·.2.1) h
theorem twin_declared {a : Frame} {b c : Bool} {d e g : Nat} {x y : Bool} (h : s.twin = (a, b, c, d, e, g, x, y)) :
    s.gln.declared = c :=
  congrArg (·.2.2.1) h

theorem glnFailDetect_declares (host : List HostRead) {f : Frame} (h : plainTick s f) (h1 : s.gln.rolePend = none)
    (h2 : s.gln.deposed = false) (h3 : s.gln.detachAt = none) (h4 : s.gln.soloNext = false) (hr : s.role = 2) (hm : s.glnMode = 2)
    (ht : s.gln.takeover = false) (hd : s.gln.declared = false) (hc : s.glnAges.failCauses ≠ 0)
      (hk : s.fld Fld.EVT_ROUTE_KIND 57 ≠ 1) :
    ∃ u, exec (.glnFailDetect host) s = .next u ∧ u.gln.declared = true ∧ u.gln.takeover = true ∧ u.role = 2 ∧
      u.evtStatus 57 = true ∧ u.frame = f := by
  obtain ⟨a, b, c, hw⟩ := State.frameTick_declares host h h1 h2 h3 h4 hr hm ht hd hc hk
  obtain ⟨u, hdone, hn⟩ := State.done_notes s (s.frameTick host)
  have hu := (twin_of_core hn.notes_core).trans hw
  refine ⟨u, ?_, twin_declared hu, twin_takeover hu, congrArg (·.2.2.2.1) hu, congrArg (·.2.2.2.2.2.2.1) hu, congrArg (·.1) hu⟩
  rw [exec, execGlnFailDetect, State.tickThat, State.ticks, if_pos h.1, hd, twin_declared hw]
  exact hdone

theorem glnTakeover_takesOver (host : List HostRead) {f : Frame} (h : plainTick s f) (h1 : s.gln.rolePend = none)
    (h2 : s.gln.deposed = false) (h3 : s.gln.detachAt = none) (h4 : s.gln.soloNext = false)
    (ht : s.gln.takeover = true) (hk : s.fld Fld.EVT_ROUTE_KIND 58 ≠ 1) :
    ∃ u, exec (.glnTakeover host) s = .next u ∧ u.gln.takeover = false ∧ u.role = (s.glnUp).toNat ∧
      u.glnMode = (if s.glnUp then 2 else 0) ∧ u.held = false ∧ u.evtStatus 58 = true ∧ u.frame = f := by
  obtain ⟨b, hw⟩ := State.frameTick_takesOver host h h1 h2 h3 h4 ht hk
  obtain ⟨u, hdone, hn⟩ := State.done_notes s (s.frameTick host)
  have hu := (twin_of_core hn.notes_core).trans hw
  have hheld : u.fld Fld.GLN_STATUS_HELD 0 = 0 := congrArg (·.2.2.2.2.2.1) hu
  refine ⟨u, ?_, twin_takeover hu, congrArg (·.2.2.2.1) hu, congrArg (·.2.2.2.2.1) hu, ?_, congrArg (·.2.2.2.2.2.2.2) hu,
    congrArg (·.1) hu⟩
  · rw [exec, execGlnTakeover, State.tickThat, State.ticks, if_pos h.1, ht, twin_takeover hw]
    exact hdone
  · rw [State.held, State.flag, hheld]
    rfl

theorem mbTwinTake_prepares (t : Tu) (tag : Byte) (h : boxReady s 0x42) (hr : s.role = 2) (hm : s.glnMode = 2)
    (ht : s.gln.takeover = false) :
    ∃ u, exec (.mbTwinTake t tag) s = .next u ∧ u.gln.failCause = s.gln.failCause ||| 32 ∧ u.gln.declared = false ∧
      u.reg .MGT_MB_RES 0 = w32 (s.frame + 2).toNat ∧ boxDone s u tag mbOk ∧ onlyRaising s u boxRegs [456] := by
  obtain ⟨r, hran, hrun⟩ := box_runs t tag h (by decide)
  have he : twinTake r s.mbArgs = ⟨r.modGln fun g => { g with failCause := g.failCause ||| 32, declared := false }, mbOk,
      [w32 (r.frame + 2).toNat, w32 ((r.frame + 2).toNat / 2 ^ 32), w32 (r.frameOf .GLN_DT_LO .GLN_DT_HI 0 + 1).toNat,
        w32 ((r.frameOf .GLN_DT_LO .GLN_DT_HI 0 + 1).toNat / 2 ^ 32)]⟩ := by
    have hrole : r.role = 2 := (hran.fld _ _ (by decide)).trans hr
    have hmode : r.glnMode = 2 := (hran.fld _ _ (by decide)).trans hm
    rw [twinTake, if_neg (not_not.2 hrole), if_neg (not_not.2 hmode),
      if_neg (by rw [hran.gln, ht]; decide)]
  obtain ⟨u, hu, hd⟩ := hrun (but := []) (srcs := []) he (.of_eq rfl rfl (.refl r _ _)) mem_boxRegs_clean (show mbOk < 256 by decide)
  have hgln : u.gln = { s.gln with failCause := s.gln.failCause ||| 32, declared := false } := by
    rw [hd.rest.gln, State.modGln, hran.gln]
  refine ⟨u, by rw [exec, execMbTwinTake]; exact hu, by rw [hgln], by rw [hgln], ?_, hd.done, hd.onlyBox⟩
  rw [← hran.frame]
  exact hd.res 0 (Nat.zero_lt_succ _) (by decide)

theorem mbTwinTake_refuses (t : Tu) (tag : Byte) (h : boxReady s 0x42) (hr : s.role ≠ 2) :
    ∃ u, exec (.mbTwinTake t tag) s = .next u ∧ u.gln = s.gln ∧ boxDone s u tag 0x2B ∧ onlyRaising s u boxRegs [456] := by
  obtain ⟨r, hran, hrun⟩ := box_runs t tag h (by decide)
  have hrole : r.role = s.role := hran.fld _ _ (by decide)
  have he : twinTake r s.mbArgs = mbFail r 0x2B := by rw [twinTake, if_pos (hrole ▸ hr)]
  obtain ⟨u, hu, hd⟩ := hrun (but := []) (srcs := []) he (.refl r _ _) mem_boxRegs_clean (show 0x2B < 256 by decide)
  exact ⟨u, by rw [exec, execMbTwinTake]; exact hu, hd.rest.gln.trans hran.gln, hd.done, hd.onlyBox⟩

/-- Settles O53: the tick applies the roles on the core that the state before it shows, and nothing after that touches them but a
SYNC that joins a SECONDARY-IDLE part, which a part that has declared or taken over is not. -/
theorem failoverTakesOver : Obligations.FailoverTakesOver :=
  ⟨fun _ _ host _ h h1 h2 h3 h4 =>
    ⟨fun hr hm ht hd hc hk => glnFailDetect_declares host h h1 h2 h3 h4 hr hm ht hd hc hk,
      fun ht hk => glnTakeover_takesOver host h h1 h2 h3 h4 ht hk⟩,
    fun _ t tag h => ⟨fun hr hm ht => mbTwinTake_prepares t tag h hr hm ht, fun hr => mbTwinTake_refuses t tag h hr⟩⟩

end Sys2Proof.Machine
end

section
/-! O14: BOOT_PITCH (R72, R411), and the images' obligation as a whole. -/

namespace Sys2Proof.Machine

variable {s t u r : State} {k k' : TickCore}

theorem State.bootReady_core (s : State) : s.bootReady.tickCore = (s.tickCore.put Fld.HUB_BOOT_STATUS_PHASE 0 4).put
    Fld.HUB_BOOT_STATUS_BOOT_MS 0 (min ((s.time - s.pwr.released).toNat / ns 1000000) 65535) := by
  rw [State.bootReady, State.setFld_put _ _ rfl rfl, State.setFld_put _ _ rfl rfl]

theorem State.bootReady_phase (s : State) : s.bootReady.fld Fld.HUB_BOOT_STATUS_PHASE 0 = 4 := by
  rw [State.fld_core _ rfl rfl, State.bootReady_core, TickCore.fld_put_ne _ _ _ _ _ _ (by decide),
    TickCore.fld_put_same _ _ _ _ (by decide)]
  rfl

/-- What BOOT_PITCH leaves of a device that stands before it. -/
def State.bootPitched (s : State) : State := (if (s.trySlot 0).2 then (s.trySlot 0).1 else ((s.trySlot 0).1.trySlot 1).1).bootReady

theorem bootPitch_runs {x : Tu} (hl : s.alive = true) (hp : s.fld Fld.HUB_BOOT_STATUS_PHASE 0 = 3) (hrun : s.mgt.run = 1)
    (hn : s.pitched = false) : exec (.bootPitch x) s = s.done (s.at x).bootPitched := by
  rw [exec, execBootPitch, State.when_eq hl, State.at_fld, hp, State.at_mgt, hrun, State.at_pitched, hn]
  exact congrArg s.done (if_pos ⟨rfl, rfl, rfl⟩)

/-! ### Neither image passes -/

theorem State.pitchRefuse_sameJudge (r : State) (code detail : Nat) : SameJudge r (r.pitchRefuse code detail) := by
  obtain ⟨-, -, ho, -, hr⟩ := State.pitchRefuse_shows r code detail
  exact ⟨ho.mono (by simp) (fun _ h => h), hr.pitch, hr.ras, hr.mgt_fuses, hr.mgt_flash⟩

theorem SameJudge.slotBytes (h : SameJudge s t) (k : Nat) : t.slotBytes k = s.slotBytes k := by
  rw [State.slotBytes, State.slotBytes, h.mgt.2]

theorem State.trySlot_refused {n c d : Nat} (h : s.judgeImage (s.slotBytes n) = .refuse c d) :
    s.trySlot n = (s.pitchRefuse c d, false) := by
  unfold State.trySlot
  dsimp only
  rw [h]

theorem bootPitch_refused {x : Tu} (hl : s.alive = true) (hp : s.fld Fld.HUB_BOOT_STATUS_PHASE 0 = 3) (hrun : s.mgt.run = 1)
    (hn : s.pitched = false) {c d c' d' : Nat} (h0 : s.judgeImage (s.slotBytes 0) = .refuse c d)
    (h1 : s.judgeImage (s.slotBytes 1) = .refuse c' d') :
    ∃ u, exec (.bootPitch x) s = .next u ∧ u.pitch = s.pitch ∧ u.fld Fld.HUB_PITCH_STATUS_RESULT 0 = c' % 256 ∧
      u.fld Fld.HUB_BOOT_STATUS_PHASE 0 = 4 ∧ onlyRaising s u [⟨.HUB_PITCH_STATUS, 0⟩, ⟨.HUB_BOOT_STATUS, 0⟩] [462] := by
  have ha := s.at_sameJudge x
  have hb := (s.at x).pitchRefuse_sameJudge c d
  have hab := ha.trans hb
  have hboot : (s.at x).bootPitched = (((s.at x).pitchRefuse c d).pitchRefuse c' d').bootReady := by
    unfold State.bootPitched
    rw [State.trySlot_refused (c := c) (d := d) (by rw [ha.slotBytes, ha.judge]; exact h0), if_neg Bool.false_ne_true]
    dsimp only
    rw [State.trySlot_refused (c := c') (d := d') (by rw [hab.slotBytes, hab.judge]; exact h1)]
  obtain ⟨hres, -, hon, -, -⟩ := State.pitchRefuse_shows ((s.at x).pitchRefuse c d) c' d'
  have hpitch : (((s.at x).pitchRefuse c d).pitchRefuse c' d').pitch = s.pitch :=
    ((State.pitchRefuse_sameJudge _ _ _).pitch.trans hb.pitch).trans (State.at_pitch s x)
  obtain ⟨u, hd, hu⟩ := State.done_notes s (s.at x).bootPitched
  rw [hboot] at hu
  generalize hr : ((s.at x).pitchRefuse c d).pitchRefuse c' d' = r at hu hres hon hpitch
  refine ⟨u, (bootPitch_runs hl hp hrun hn).trans hd, hu.pitch.trans hpitch, ?_, (hu.fld _ _ rfl).trans r.bootReady_phase, ?_⟩
  · rw [hu.fld _ _ rfl, State.bootReady, State.fld_setFld_ne _ _ _ _ _ _ (by decide), State.fld_setFld_ne _ _ _ _ _ _ (by decide)]
    exact hres
  · have h2 : onlyRaising s r [⟨.HUB_PITCH_STATUS, 0⟩, ⟨.HUB_BOOT_STATUS, 0⟩] [462] :=
      .and_then hon (by simp) (fun _ h => h) (.and_then (State.pitchRefuse_shows (s.at x) c d).2.2.1 (by simp) (fun _ h => h)
        (.of_eq (State.at_regs s x) (State.at_mem s x) (.refl s _ _)))
    exact .trans (.setFld (by simp) rfl (.setFld (by simp) rfl h2)) hu.onlyNotes

/-! ### The image of slot 0 passes -/

theorem bootPitch_accepted {x : Tu} (hl : s.alive = true) (hp : s.fld Fld.HUB_BOOT_STATUS_PHASE 0 = 3) (hrun : s.mgt.run = 1)
    (hn : s.pitched = false) {h : List Byte} {rs : List ImgRec} (h0 : s.judgeImage (s.slotBytes 0) = .accept h rs) :
    ∃ u, exec (.bootPitch x) s = .next u ∧ u.pitch.recs = rs ∧ u.pitch.hdr = h ∧
      u.fld Fld.HUB_PITCH_STATUS_STATE 0 = 3 ∧ u.fld Fld.HUB_PITCH_STATUS_RESULT 0 = 0 ∧
        u.fld Fld.HUB_BOOT_STATUS_PHASE 0 = 4 := by
  have ha := s.at_sameJudge x
  obtain ⟨a, hah, har, htry⟩ : ∃ a : Accepted, a.hdr = h ∧ a.recs = rs ∧
      (s.at x).trySlot 0 = (((s.at x).setFld Fld.HUB_PITCH_STATUS_RESULT 0 0).applyFull a true, true) := by
    refine ⟨⟨h, rs, ((s.at x).slotBytes 0).take (imgLen ((s.at x).slotBytes 0)), imageCrc ((s.at x).slotBytes 0), none,
      (s.at x).time⟩, rfl, rfl, ?_⟩
    unfold State.trySlot
    dsimp only
    rw [show (s.at x).judgeImage ((s.at x).slotBytes 0) = .accept h rs by rw [ha.slotBytes, ha.judge]; exact h0]
  obtain ⟨u, hd, hu⟩ := State.done_notes s (s.at x).bootPitched
  have hboot : (s.at x).bootPitched = (((s.at x).setFld Fld.HUB_PITCH_STATUS_RESULT 0 0).applyFull a true).bootReady := by
    unfold State.bootPitched
    rw [htry, if_pos rfl]
  rw [hboot] at hu
  have hk := hu.notes_core
  rw [State.bootReady_core, State.applyFull_core, State.setFld_put _ _ rfl rfl] at hk
  generalize (s.at x).tickCore = k at hk
  refine ⟨u, (bootPitch_runs hl hp hrun hn).trans hd, ?_, ?_, ?_, ?_, (hu.fld _ _ rfl).trans (State.bootReady_phase _)⟩
  · rw [show u.pitch = _ from congrArg TickCore.pitch hk]
    exact har
  · rw [show u.pitch = _ from congrArg TickCore.pitch hk]
    exact hah
  · rw [State.fld_core u rfl rfl, hk, TickCore.fld_put_ne _ _ _ _ _ _ (by decide), TickCore.fld_put_ne _ _ _ _ _ _ (by decide),
      TickCore.pitchedWith, TickCore.fld_put_same _ _ _ _ (by decide)]
    rfl
  · rw [State.fld_core u rfl rfl, hk, TickCore.fld_put_ne _ _ _ _ _ _ (by decide), TickCore.fld_put_ne _ _ _ _ _ _ (by decide),
      TickCore.pitchedWith, TickCore.fld_put_ne _ _ _ _ _ _ (by decide), TickCore.fld_put_ne _ _ _ _ _ _ (by decide),
      TickCore.fld_put_ne _ _ _ _ _ _ (by decide)]
    exact TickCore.fld_put_same _ _ _ _ (by decide)

/-- Settles O14: a verdict changes what it reports, and an image in force at boot is the core that an apply leaves. -/
theorem imagesAreLoaded : Obligations.ImagesAreLoaded :=
  ⟨pitchCommandsReport_holds, fun _ _ hl hp hrun hn => ⟨fun _ _ h0 _ => bootPitch_accepted hl hp hrun hn h0,
    fun _ _ _ _ h0 h1 => bootPitch_refused hl hp hrun hn h0 h1⟩⟩

end Sys2Proof.Machine
end

section
/-! O13: a stopped region may open one more segment at the very tick that applies a partial image. -/

namespace Sys2Proof.Machine

variable {s t u : State} {k k' : TickCore}

theorem TickCore.hub_opened (k : TickCore) (f : Frame) (v : Nat) :
    (k.opened f v).hub = TickCore.hub { k with frame := f, issued := true } := by
  have hc := TickCore.clock_put { k with frame := f, issued := true } (f := Fld.HUB_TICK_STATUS_SOURCE) 0 v (by decide)
  exact congrArg (fun c => (c, k.pitch, k.regs .HUB_PITCH_STATUS 0, k.regs .HUB_PITCH_PARTIAL 0, k.regs .HUB_TICK_CFG 0)) hc

/-- The roles of the twin link leave the hub as the tick found it. -/
theorem State.glnRoles_opened_hub {s1 : State} {f : Frame} (hs1 : MayJoin { s.tickCore with time := s.nextGrid } s1.tickCore) :
    (s1.tickOpened f).glnRoles.hub = TickCore.hub { s.tickCore with time := s.nextGrid, frame := f, issued := true } := by
  obtain ⟨v, ho⟩ := s1.tickOpened_core f
  have h1 := hs1.hub
  calc (s1.tickOpened f).glnRoles.hub
    _ = (s1.tickOpened f).hub := State.glnRoles_hub _
    _ = TickCore.hub { s1.tickCore with frame := f, issued := true } :=
      (congrArg TickCore.hub ho).trans (TickCore.hub_opened _ f v)
    _ = _ := congrArg (fun b => ((b.1.1, f, true, b.1.2.2.2), b.2)) h1

theorem hub_partial (h : t.hub = s.hub) : t.reg .HUB_PITCH_PARTIAL 0 = s.reg .HUB_PITCH_PARTIAL 0 := congrArg (·.2.2.2.1) h

theorem State.pitchRefuse_pitch (s : State) (c d : Nat) : (s.pitchRefuse c d).pitch = s.pitch :=
    (State.pitchRefuse_sameJudge s c d).pitch

/-- A refusal leaves the mask of partial images. -/
theorem State.pitchRefuse_partial (s : State) (c d : Nat) :
    (s.pitchRefuse c d).tickCore.regs .HUB_PITCH_PARTIAL 0 = s.reg .HUB_PITCH_PARTIAL 0 := by
  rw [State.pitchRefuse_core]
  rfl

/-- A partial image that finds its cluster in use at the step that applies images leaves the mask of partial images as it is
(R80). -/
theorem State.frameTick_refusesPartial (host : List HostRead) {f : Frame} {a : Accepted} {c : Nat} (h : plainTick s f)
    (ha : s.pitch.accepted = some a) (hc : a.cluster = some c) (ht1 : s.pitch.t1 = none)
    (ht : tuLe (tuAdd a.at_ (ns 64)) s.nextGrid = true)
    (hidle : ((State.beforeTick { s with time := s.nextGrid }).tickOpened f).glnRoles.clusterIdle c a.recs = false) :
    (s.frameTick host).reg .HUB_PITCH_PARTIAL 0 = s.reg .HUB_PITCH_PARTIAL 0 := by
  obtain ⟨s1, rfl, hs1, hft⟩ := State.frameTick_plain host h
  rw [hft]
  obtain ⟨x, hx, hu⟩ := State.issueTick_core host (State.beforeTick { s with time := s.nextGrid }) f
  have hp := State.glnRoles_opened_hub (f := f) hs1
  generalize ((State.beforeTick { s with time := s.nextGrid }).tickOpened f).glnRoles = p at *
  have hpitch : p.pitch = s.pitch := congrArg (·.2.1) hp
  have htime : p.time = s.nextGrid := congrArg (·.1.1) hp
  have hpt : p.pitchTick = (p.modPitch fun q => { q with accepted := none }).pitchRefuse 0x15 0xFFFF := by
    unfold State.pitchTick
    rw [hpitch, ha]
    dsimp only
    rw [ht1]
    dsimp only
    rw [hc]
    dsimp only
    rw [htime, if_pos ht, hidle, if_neg Bool.false_ne_true]
  rw [hpt] at hx
  have hxp : x.pitch.accepted = none := (congrArg (fun k => k.pitch.accepted) hx).trans (congrArg Pitch.accepted (State.pitchRefuse_pitch _ _ _))
  have hbegin : x.pitchBegin = x := by
    unfold State.pitchBegin
    rw [hxp]
  have hub : (State.issueTick host (State.beforeTick { s with time := s.nextGrid }) f).hub = x.hub := by
    rw [hbegin] at hu
    exact hu.hub.trans (State.thermalTick_hub x)
  calc (State.issueTick host (State.beforeTick { s with time := s.nextGrid }) f).reg .HUB_PITCH_PARTIAL 0
    _ = x.reg .HUB_PITCH_PARTIAL 0 := hub_partial hub
    _ = p.reg .HUB_PITCH_PARTIAL 0 := (congrArg (fun k => k.regs .HUB_PITCH_PARTIAL 0) hx).trans (State.pitchRefuse_partial _ _ _)
    _ = s.reg .HUB_PITCH_PARTIAL 0 := congrArg (·.2.2.2.1) hp

theorem partialPitchApply_refused {host : List HostRead} {f : Frame} {a : Accepted} {c : Nat} (h : plainTick s f)
    (ha : s.pitch.accepted = some a) (hc : a.cluster = some c) (ht1 : s.pitch.t1 = none)
    (ht : tuLe (tuAdd a.at_ (ns 64)) s.nextGrid = true)
    (hidle : ((State.beforeTick { s with time := s.nextGrid }).tickOpened f).glnRoles.clusterIdle c a.recs = false)
    (hu : exec (.partialPitchApply host) s = .next u) : u.reg .HUB_PITCH_PARTIAL 0 = s.reg .HUB_PITCH_PARTIAL 0 := by
  have hreg := State.frameTick_refusesPartial host h ha hc ht1 ht hidle
  rw [exec, execPartialPitchApply, State.tickThat, State.ticks, if_pos h.1] at hu
  obtain ⟨v, hv, hr⟩ := State.done_notes s
    (if (s.pitch.accepted.any fun x => x.cluster.isSome) && (s.frameTick host).pitch.accepted.isNone then s.frameTick host else s)
  obtain rfl := Host.Outcome.next.inj (hu.symm.trans hv)
  rw [hr.reg _ _ rfl]
  split
  · exact hreg
  · rfl

/-! ### The state -/

/-- Region 0 of cluster 0 has stopped after the trigger sample of a fire that waits, whose decision window is over before the next
tick; a partial image for cluster 0 waits for that tick. -/
def stoppedWithFire : State :=
  let s := Tests.regionIn 0 5 0 { Region.init with fillFrom := some (.ofInt 0), fires := [⟨5000, 0, false⟩],
                                                   stoppedAt := some (.ofInt 100000000) } (Tests.onGrid Tests.rich)
  { s with pitch := { s.pitch with accepted := some ⟨Tests.hdr, [], [], 0, some 0, 0⟩ } }

theorem stoppedWithFire_plain : stoppedWithFire.Inv ∧ plainTick stoppedWithFire 1 :=
  ⟨⟨by decide +kernel, by decide +kernel⟩, by decide +kernel, by decide +kernel, by decide +kernel, rfl,
    .inl ⟨rfl, by decide +kernel, by decide +kernel⟩⟩

theorem stoppedWithFire_idle : stoppedWithFire.clusterIdle 0 [] = true := by decide +kernel

/-- At the step that applies images the region is armed again: the fire has opened a segment. -/
theorem stoppedWithFire_arms :
    ((State.beforeTick { stoppedWithFire with time := stoppedWithFire.nextGrid }).tickOpened 1).glnRoles.clusterIdle 0 [] = false := by
  decide +kernel

/-- Refutes O13: of a region that has stopped, a fire up to its last sample still counts (R201). Judged at the tick itself, it
opens a segment and arms the region, so that the partial image of its idle cluster is refused. -/
theorem not_imagesApplyAtTicks : ¬ Obligations.ImagesApplyAtTicks := by
  unfold Obligations.ImagesApplyAtTicks
  intro h
  obtain ⟨hi, hp⟩ := stoppedWithFire_plain
  have ht : tuLe (tuAdd (0 : Tu) (ns 64)) stoppedWithFire.nextGrid = true := by decide +kernel
  obtain ⟨-, -, -, hpart⟩ := h stoppedWithFire 1 [] ⟨Tests.hdr, [], [], 0, some 0, 0⟩ hi hp rfl
  obtain ⟨u, hu, -, -, -, hmask, -⟩ := hpart 0 rfl (by decide) rfl ht stoppedWithFire_idle
  have hreg := partialPitchApply_refused hp rfl rfl rfl ht stoppedWithFire_arms hu
  have hzero : u.fld Fld.HUB_PITCH_PARTIAL_CL_MASK 0 = 0 := (State.fld_of_reg hreg).trans (by decide +kernel)
  rw [hzero] at hmask
  exact absurd hmask (by decide)

end Sys2Proof.Machine
end
